-- ==== Sys2Proof/Word.lean ====
section
/-!
DEFINITION. The word and byte types and their plainest arithmetic.
-/

namespace Sys2Proof

/-- A register word (R1). -/
abbrev Word := BitVec 32

/-- A byte of a frame, of DRAM or of the flash. -/
abbrev Byte := BitVec 8

/-- A 32-bit word from a number, modulo 2^32. -/
abbrev Word.ofNat (n : Nat) : Word := BitVec.ofNat 32 n

/-- A byte from a number, modulo 256. -/
abbrev Byte.ofNat (n : Nat) : Byte := BitVec.ofNat 8 n

end Sys2Proof
end

