-- ==== Sys2Proof/Types.lean ====
section
/-!
DEFINITION. The operand types of the commands: the agents that reach the register space, and the things that arrive
from outside the block (frames, bus messages, pins).
-/

namespace Sys2Proof

/-- The agents that reach the register space (R40), with debug access on DBG_UART (12_keys_lifecycle.md, "Full"). -/
inductive Agent where
  | core (n : Fin 8)      -- application core n
  | pcie                  -- the PCIe host, endpoint mode
  | bersan (n : Fin 4)    -- Bersan session n, acting through SV
  | sv                    -- SV itself
  | debug                 -- debug access on DBG_UART
  deriving DecidableEq, Repr

/-- The owner code of R102, by which the model knows an agent. SV acts with the Mend arbiter's code. Debug access has no
code: 0xD stands for it within the model and reaches no register (`shadowRefuse`). -/
def Agent.ownerCode : Agent → Nat
  | .core n => n.val
  | .pcie => 8
  | .bersan n => 9 + n.val
  | .sv => 14
  | .debug => 13

/-- The size of an access to the register space (R1): 8, 16 or 32 bits. -/
inductive Width where
  | byte | half | word
  deriving DecidableEq, Repr

/-- Bytes of an access. -/
def Width.bytes : Width → Nat
  | .byte => 1
  | .half => 2
  | .word => 4

/-- The clock domains that freeze one by one under R34. -/
inductive ClkDomain where
  | core | app | sec | time | mac (n : Fin 24) | t1s | rgmii | fb | ddr | pcie | svc | aon
  deriving DecidableEq, Repr

/-- What a keep-alive was recognised in (R405): a frame received on a CAN bus, or a frame received on a port, by its
number in State. -/
inductive KaSource where
  | can (c id : Nat) (ide : Bool)
  | frame (id : Nat)
  deriving DecidableEq, Repr

/-- The mode of an integrated CAN transceiver (R290). -/
inductive Xcvr where
  | normal | receiveOnly | standby
  deriving DecidableEq, Repr

/-- What a pin of R528 presents: a level, high impedance, or what the unit behind it drives bit by bit. -/
inductive Pin where
  | low | high | z | asUsed
  deriving DecidableEq, Repr

/-- A frame on a CAN bus (R289, R322): FORMAT 0 CC, 1 FD, 2 XL; `id` is the identifier, or the XL priority identifier. -/
structure CanFrame where
  id : Nat
  ide : Bool
  rtr : Bool
  format : Nat
  brs : Bool
  esi : Bool
  dlc : Nat
  sdt : Nat
  vcid : Nat
  sec : Bool
  af : Nat
  data : List Byte
  deriving DecidableEq, Repr

/-- How a reconstruction of the device secret ends (R349): S is found, the start-up health test of the random number
generator failed, or the decoder met more bit errors than it corrects. -/
inductive Puf where
  | sound | trngFails | decodeFails
  deriving DecidableEq, Repr

/-- A tagged instruction of a core when it retires or is squashed (R457): its program counter, the core's cycle count at its
fetch, the spans from fetch to dispatch, to issue, to completion and to retirement, and the flags of W5. -/
structure CoreTag where
  pc : Nat
  cycle : Nat
  dispatch : Nat
  issue : Nat
  complete : Nat
  retire : Nat
  flags : Nat
  deriving DecidableEq, Repr

/-- What a load-switch channel measures (R427): current in mA, as the load asks for it, ΔT in K, junction temperature in °C. -/
structure LsMeas where
  mA : Nat
  dt : Nat
  tj : Int
  deriving DecidableEq, Repr

end Sys2Proof
end

