-- ==== Sys2Proof/Syntax.lean ====
section
/-!
DEFINITION. The commands of the gateway: one constructor per row of spec/opcode_table.json, with the operands that
reach the block from outside (an agent, a register word, a frame's bytes, a pin) or that name the unit it happens to.
-/

namespace Sys2Proof

/-- A command of the block; each docstring is its mnemonic, its rule and what it stands for. -/
inductive Instr where
  /-- REGISTER_WRITE (R41): An agent writes a register that has no row of its own; the fabric serialises it in arrival order and applies the access code. -/
  | registerWrite (a : Agent) (off : Nat) (w : Width) (data : Word)
  /-- RC_READ (R5): A read of an RC register returns its value and clears it, keeping any same-cycle occurrence. -/
  | rcRead (a : Agent) (off : Nat) (w : Width)
  /-- COUNTER_LOW_READ (R8): A read of the low word of a 64-bit counter or timestamp latches the high word for the next high read. -/
  | counterLowRead (a : Agent) (off : Nat)
  /-- OB_SNAP_TRIGGER (R35): Writing TRIGGER freezes at once with SRC software or arms the snapshot for a pin edge or time match, latching SRC, TI_SEL and OB_SNAP_AT. -/
  | obSnapTrigger (a : Agent) (data : Word)
  /-- OB_SNAP_RELEASE (R543): Writing RELEASE releases a freeze, abandons a forming freeze or disarms an armed trigger. -/
  | obSnapRelease (a : Agent)
  /-- OB_SNAP_TIME_MATCH (R37): The selected TI reaches or is stepped past OB_SNAP_AT while armed, starting the freeze. -/
  | obSnapTimeMatch
  /-- OB_SNAP_TSYNC_EDGE (R34): A selected TSYNC_IN edge arrives while armed, starting the freeze. -/
  | obSnapTsyncEdge (pin : Nat) (rising : Bool)
  /-- OB_SNAP_DOMAIN_FREEZE (R34): The freeze command reaches a clock domain, which freezes its counters and forwards the command on its outgoing DCQs. -/
  | obSnapDomainFreeze (d : ClkDomain)
  /-- OB_SNAP_HOLD_MAX_EXPIRY (R36): HOLD_MAX elapses while frozen; the freeze is released, EXPIRED set and EV_OB_SNAP_EXPIRED raised. -/
  | obSnapHoldMaxExpiry
  /-- POWER_DIE_MIRROR_REFRESH (R34): Every 100 µs the power die refreshes its counter and status mirror in CLK_SVC. -/
  | powerDieMirrorRefresh
  /-- EV_STATUS_WRITE (R43): A write to SV_EV_STATUS_n clears bits and sends one more MSI-X message for any vector whose set stays non-empty. -/
  | evStatusWrite (a : Agent) (n : Nat) (data : Word)
  /-- RX_START_OF_FRAME (R22): The ingress MAC or internal port samples a start of frame, stamps it in TI time and assigns EPOCH and PEG. -/
  | rxStartOfFrame (port : Nat) (directive : Nat)
  /-- RX_RUNT_MIN_REACHED (R132): Byte RUNT_MIN arrives and the ingress MAC requests the frame's first buffer cell. -/
  | rxRuntMinReached (port : Nat) (bytes : List Byte)
  /-- RX_CELL_ALLOCATE (R160): A further 256 bytes arrive and a cell is taken round-robin from the in-service banks. -/
  | rxCellAllocate (port : Nat) (bytes : List Byte)
  /-- RX_OVERSIZE (R133): A frame reaches MAX_LEN + 1 bytes and is ended and discarded. -/
  | rxOversize (port : Nat)
  /-- RX_END_OF_FRAME (R134): A frame ends at the ingress MAC and is counted in exactly one receive counter, FCS and checksums verified. -/
  | rxEndOfFrame (port : Nat) (bytes : List Byte)
  /-- RX_CUT_SHORT (R132): A frame in reception is cut short by port down, RGMII or PCS error and counts as a symbol error. -/
  | rxCutShort (port : Nat)
  /-- FX_PIPELINE_PASS (R196): A frame takes a pipeline slot and FX parses, classifies, looks up, filters, polices and identifies its stream. -/
  | fxPipelinePass (id : Nat) (due : Nat)
  /-- CE_DECRYPT (R390): CE checks a received MACsec frame through its SecTAG, SC, SA, replay and ICV steps at step 6. -/
  | ceDecrypt (id : Nat)
  /-- SECOND_PASS (R20): A frame that CE decrypted re-enters the pipeline as plaintext for a second pass of steps 3 to 5. -/
  | secondPass (id : Nat)
  /-- SEAL_CHECK (R343): CE checks the sealed-frame trailer tag and freshness of an UP frame at step 6. -/
  | sealCheck (id : Nat)
  /-- SX_ENQUEUE (R164): The frame is admitted per egress queue on-die, to the Hamper or dropped by the dynamic thresholds. -/
  | sxEnqueue (id : Nat)
  /-- INGRESS_COPY_WRITE (R184): The copy engine writes one INGRESS multicast copy when write bandwidth is free and admits it to its queue. -/
  | ingressCopyWrite (id : Nat)
  /-- SC_HANDOVER (R244): An MQ or internal port has room and SC hands over the head of the highest-priority eligible queue. -/
  | scHandover (port : Nat)
  /-- LAUNCH_ELIGIBLE (R252): A timed queue's head becomes eligible 2 µs before its launch time. -/
  | launchEligible (q : Nat)
  /-- SHAPER_CREDIT_RESTORED (R246): A queue's shaper credit rises to zero and the queue becomes eligible again. -/
  | shaperCreditRestored (q : Nat)
  /-- CE_ENCRYPT (R389): CE inserts the SecTAG and ICV on a MACsec egress at step 9, taking the next PN. -/
  | ceEncrypt (port : Nat) (m : Nat)
  /-- SEAL_ADD (R343): CE pads a DOWN sealed message and appends freshness and tag at step 9. -/
  | sealAdd (port : Nat)
  /-- TX_START (R140): At a frame boundary the MAC starts the head frame of the highest MQ whose head is not held. -/
  | txStart (port : Nat)
  /-- LAUNCH_TIME_REACHED (R273): A timed frame held in its MQ reaches its launch time and is released to the lands. -/
  | launchTimeReached (port : Nat) (m : Nat)
  /-- TX_END_OF_FRAME (R111): The egress MAC ends a copy, which leaves the device and frees its cells when it is the last. -/
  | txEndOfFrame (port : Nat)
  /-- STOMP (R137): A fault reaches an egress MAC that has begun a frame, which ends it with an inverted FCS or corrupted ICV. -/
  | stomp (port : Nat) (sent : Nat)
  /-- TX_UNDERRUN (R137): An internal fault starves the egress MAC, which stomps the frame and counts an underrun. -/
  | txUnderrun (port : Nat) (sent : Nat)
  /-- TRANSIT_PARITY_ERROR (R28): A parity error on an internal transit bus drops the frame and writes a fault record. -/
  | transitParityError (unit : Nat) (id : Nat)
  /-- PARITY_STORM_RESUME (R125): The stalled pipeline stage completes its reset and forwarding resumes. -/
  | parityStormResume (unit : Nat)
  /-- EPOCH_ADOPTION (R109): An ingress clock domain adopts the new epoch at its adoption edge after a commit. -/
  | epochAdoption (port : Nat)
  /-- LOADER_START (R62): SV firmware starts the loader, which reads the selector, chooses the bank and attaches CSU0. -/
  | loaderStart
  /-- LOAD_RECORD (R58): The loader reads one record header and payload and applies, skips or counts it. -/
  | loadRecord
  /-- BOOT_STITCH (R61): The loader commits all eighteen domains at once, the epoch becomes 1 and DONE is set. -/
  | bootStitch
  /-- BERSAN_BANK_WRITE (R67): A Bersan bank write writes the inactive bank and then programs the selector, or is refused BUSY. -/
  | bersanBankWrite (n : Nat) (image : List Byte)
  /-- NVM_OPERATION (R48): SV performs a customer-area NVM operation requested through Bersan or a core mailbox. -/
  | nvmOperation (a : Agent) (op : Nat) (sector : Nat) (off : Nat) (bytes : List Byte)
  /-- FLASH_OP_COMPLETE (R88): The flash reports completion of an erase or program that SV issued. -/
  | flashOpComplete (ok : Bool)
  /-- MODE_REQ_PARTIAL (R78): SV_MODE_REQ requests PARTIAL and is refused or starts RUN-to-PARTIAL. -/
  | modeReqPartial (a : Agent)
  /-- MODE_REQ_RUN (R78): SV_MODE_REQ requests RUN and is refused or starts PARTIAL-to-RUN. -/
  | modeReqRun (a : Agent)
  /-- MODE_REQ_LISTEN (R78): SV_MODE_REQ requests LISTEN and is refused or starts LISTEN entry. -/
  | modeReqListen (a : Agent)
  /-- MODE_REQ_RESCUE (R78): SV_MODE_REQ requests RESCUE and resets the SoC die into the ROM's RESCUE. -/
  | modeReqRescue (a : Agent)
  /-- MODE_REQ_FACTORY (R78): SV_MODE_REQ requests FACTORY and is refused or enters FACTORY. -/
  | modeReqFactory (a : Agent)
  /-- PARTIAL_TO_RUN_STEP (R86): A stage of PARTIAL-to-RUN completes: DRAM self-refresh exit, retraining, SerDes islands up or calibration. -/
  | partialToRunStep
  /-- RUN_ENTRY (R86): The gateway enters RUN_MODE, releases CX and clears MOVING and RAMPING. -/
  | runEntry
  /-- RUN_TO_PARTIAL_STEP (R87): A stage of RUN-to-PARTIAL completes: ports down, Hamper released, CX reset and DRAM in self-refresh, mode PARTIAL. -/
  | runToPartialStep
  /-- LISTEN_ENTRY (R88): After any running flash write ends, SV unpicks, closes sessions, logs and hands wake state to PW. -/
  | listenEntry
  /-- RAILS_OFF (R535): PW finishes switching the rails off and the gateway is in LISTEN or starts the latched exit. -/
  | railsOff
  /-- VBAT_AON_POWER_ON (R79): VBAT_AON rises above its power-on threshold and the power die leaves power-on reset. -/
  | vbatAonPowerOn
  /-- VBAT_AON_BROWNOUT (R534): VBAT_AON below 6.0 V for 50 µs resets both dies and switches every channel off. -/
  | vbatAonBrownout
  /-- PW_TRIMS_LOADED (R79): PW loads trims, reads tamper latches and starts the rail sequence. -/
  | pwTrimsLoaded
  /-- RTC_CRYSTAL_STABLE (R420): The 32.768 kHz crystal becomes stable and the RTC leaves the RC. -/
  | rtcCrystalStable
  /-- RAIL_PG_RISE (R535): A PG_* input rises and PW asserts the next EN_* after 0.3 ms or releases SoC power-on reset. -/
  | railPgRise (n : Nat)
  /-- RAIL_PG_TIMEOUT (R536): A PG_* stays low 1.5 ms after its EN_* and the sequence is switched off and retried. -/
  | railPgTimeout (n : Nat)
  /-- RAIL_PG_LOST (R536): A PG_* falls for 10 µs while powered and the SoC die is reset and restarted. -/
  | railPgLost (n : Nat)
  /-- RAIL_RETRY_TIMER (R536): The 100 ms wait or 60 s retry after a rail fault expires and the rail sequence starts again. -/
  | railRetryTimer
  /-- SOC_POWER_ON_RELEASE (R79): The SoC die leaves power-on reset, the ROM reads OTP and tamper status and starts SerDes calibration. -/
  | socPowerOnRelease (hostmode : Bool)
  /-- ROM_SELF_TEST_DONE (R79): The lockstep and memory self-tests pass and the ROM reads the boot header and checks the journal. -/
  | romSelfTestDone (pufOk : Bool)
  /-- FIRMWARE_START (R79): The active firmware is authenticated and started, SYS_RESET_OUT_N goes high and DRAM training starts. -/
  | firmwareStart
  /-- PUF_RECONSTRUCTED (R348): KX finishes reconstructing S and instantiates the key tree, or enters KEYS_DOWN. -/
  | pufReconstructed (r : Puf)
  /-- DRAM_TRAINING_DONE (R79): MX completes DRAM training. -/
  | dramTrainingDone
  /-- SERDES_CALIBRATION_DONE (R79): SerDes calibration of the lanes completes. -/
  | serdesCalibrationDone
  /-- DRAM_ZEROING_DONE (R81): All of DRAM is written with zeros and valid ECC and the Hamper and rings become available. -/
  | dramZeroingDone
  /-- START_RAMP_DONE (R79): The start completes: the gateway enters RUN_MODE or settles in PARTIAL and RAMPING becomes 0. -/
  | startRampDone
  /-- LISTEN_EXIT (R82): A wake event in LISTEN writes the wake record and starts the rail sequence. -/
  | listenExit (src : Nat) (unit : Nat)
  /-- RESET_N_ASSERTED (R529): RESET_N held low for 1 µs resets the SoC die. -/
  | resetNAsserted
  /-- RESET_N_RELEASED (R92): RESET_N rises and the start of R79 runs from the ROM row, 20 ms earlier. -/
  | resetNReleased
  /-- SV_WATCHDOG_EXPIRY (R92): The SV watchdog expires and resets the SoC die. -/
  | svWatchdogExpiry
  /-- LOCKSTEP_MISMATCH (R92): An SV lockstep mismatch resets the SoC die. -/
  | lockstepMismatch
  /-- SV_RESET_SOC (R93): Writing SOC with the key resets the SoC die within 10 µs. -/
  | svResetSoc (a : Agent) (data : Word)
  /-- TACK (R105): A TACK is checked and opens a transaction over a domain set, copying ACTIVE to SHADOW. -/
  | tack (a : Agent) (set : Nat) (timeout : Nat)
  /-- TACK_COPY_DONE (R106): After old-epoch frames drain, the Tack copy is made and the Tack completes with OK. -/
  | tackCopyDone (h : Nat)
  /-- STITCH (R109): A STITCH is checked and waits for the drain before committing. -/
  | stitch (a : Agent) (h : Nat) (persist : Bool)
  /-- STITCH_AT (R110): A STITCH_AT is checked and held for a TI time. -/
  | stitchAt (a : Agent) (h : Nat) (persist : Bool) (ti : Nat) (sec : Nat) (ns : Nat)
  /-- UNPICK (R113): UNPICK frees a transaction's handle and domains and rolls back its SHADOW. -/
  | unpick (a : Agent) (h : Nat)
  /-- RENEW (R108): RENEW restarts an open transaction's timeout. -/
  | renew (a : Agent) (h : Nat)
  /-- STITCH_AT_TIME_REACHED (R110): The selected TI reaches or is stepped past a held Stitch's time, which commits or is re-checked. -/
  | stitchAtTimeReached (h : Nat)
  /-- STITCH_COMMIT (R109): At the commit instant the domains swap, the epoch advances, the handle frees and a ledger record is appended. -/
  | stitchCommit (h : Nat)
  /-- DRAIN_LIM_AGE_DISCARD (R111): While a Stitch or Tack waits, old-epoch copies older than DRAIN_LIM are discarded as epoch-aged. -/
  | drainLimAgeDiscard
  /-- SHADOW_WRITE (R107): A write through the SHADOW view is accepted for the owning open transaction or refused and latched. -/
  | shadowWrite (a : Agent) (off : Nat) (data : Word)
  /-- TX_TIMEOUT (R114): An open transaction's timeout elapses and SV unpicks it. -/
  | txTimeout (h : Nat)
  /-- MEND_START (R119): MEND_START is checked and starts a Mend activity with an ID. -/
  | mendStart (a : Agent) (kind : Nat) (unit : Nat)
  /-- MEND_STOP (R119): MEND_STOP ends CORE_OFFLINE or PORT_OUT or aborts another activity. -/
  | mendStop (a : Agent) (id : Nat)
  /-- BANK_TEST_FENCE_EXPIRY (R117): 100 ms after a BANK_TEST fence, frames still in the bank are discarded and the march test starts. -/
  | bankTestFenceExpiry (id : Nat)
  /-- MEND_ACTIVITY_END (R124): A Mend activity completes, fails or is preempted; its entry frees and SV_MEND_END is written. -/
  | mendActivityEnd (id : Nat) (result : Nat)
  /-- FAULT_BANK_FENCE (R188): An uncorrectable cell error fences its bank and drops every frame holding a cell there. -/
  | faultBankFence (bank : Nat) (cell : Nat)
  /-- HAMPER_PAGE_UE (R180): An uncorrectable DRAM error on a Hamper page read retires the page and loses its frames. -/
  | hamperPageUe (q : Nat) (k : Nat)
  /-- CIPHER_MISMATCH (R382): Engines A and B of a pair disagree; the block is retried and on a second mismatch the pair is retired. -/
  | cipherMismatch (pair : Nat) (ctx : Nat) (again : Bool)
  /-- PCS_BLOCK_LOCK (R130): A SerDes port has 1 ms of continuous block lock and no fault, with auto-negotiation done, and comes up. -/
  | pcsBlockLock (port : Nat)
  /-- PCS_LOCK_LOSS (R130): A SerDes port loses block lock or receives a fault for 100 µs and goes down. -/
  | pcsLockLoss (port : Nat)
  /-- PCS_FAULT_RECEIVED (R130): A SerDes port starts receiving a local or remote fault and sends remote fault on local fault. -/
  | pcsFaultReceived (port : Nat) (isLocal : Bool)
  /-- CONTROL_WORD_RECEIVED (R129): A USXGMII or SGMII control word arrives; a steady listed rate completes auto-negotiation and a rate change takes the port down. -/
  | controlWordReceived (port : Nat) (rate : Nat)
  /-- PORT_FLUSH_COMPLETE (R185): All queues of a down port are empty and EV_SX_FLUSH is raised. -/
  | portFlushComplete (port : Nat)
  /-- PAUSE_RECEIVED (R142): A PAUSE frame pauses all four MQs for its quanta. -/
  | pauseReceived (port : Nat) (dmac : Nat) (opcode : Nat) (quanta : Nat)
  /-- PFC_RECEIVED (R142): A PFC frame pauses each enabled TC for its quanta. -/
  | pfcReceived (port : Nat) (opcode : Nat) (en : Nat) (quanta : List Nat)
  /-- PAUSE_EXPIRY (R142): A pause target's time runs out and its MQ heads resume. -/
  | pauseExpiry (port : Nat) (target : Nat)
  /-- PAUSE_WD_TRIP (R143): A target paused for PAUSE_WD ends every pause on the port and starts holdoff. -/
  | pauseWdTrip (port : Nat) (target : Nat)
  /-- PAUSE_HOLDOFF_END (R143): PAUSE_HOLDOFF elapses and pause frames are honoured again. -/
  | pauseHoldoffEnd (port : Nat)
  /-- BEACON_LOSS (R145): A follower sees no BEACON for BCN_LOSS_T and falls back to CSMA/CD. -/
  | beaconLoss (n : Nat)
  /-- BEACON_RECEIVED (R145): A BEACON arrives and PLCA resumes, or a coordinator counts a node-ID collision. -/
  | beaconReceived (n : Nat)
  /-- NODE_ID_COLLISION (R146): A T1S node-ID collision is counted and raises EV_PX_T1S_IDCOL each IDCOL_LIM within 1 s. -/
  | nodeIdCollision (n : Nat)
  /-- JABBER (R147): Receive activity longer than JAB_T is jabber; the frame is discarded and the line ignored until idle. -/
  | jabber (n : Nat)
  /-- QUARANTINE_END (R148): QUAR_T elapses and the quarantine ends. -/
  | quarantineEnd (n : Nat)
  /-- QUARANTINE_RELEASE (R148): A write to PX_T1S_QREL_n ends a quarantine. -/
  | quarantineRelease (a : Agent) (n : Nat) (data : Word)
  /-- MDIO_POLL (R149): Every 10 ms with LINK_SRC 0 SV reads the external PHY's link and rate. -/
  | mdioPoll (reg1 : Nat) (reg5 : Nat) (reg10 : Nat)
  /-- MDIO_ACCESS (R150): A GO in PX_MDIO_CMD starts a Clause 22 access to the external PHY. -/
  | mdioAccess (a : Agent) (data : Word)
  /-- MDIO_DONE (R150): An MDIO access ends, BUSY clears and EV_PX_MDIO_DONE is raised. -/
  | mdioDone (data : Nat)
  /-- FILL_PAGE_TIMEOUT (R173): An open fill page reaches 10 µs since its first frame and is closed for writing. -/
  | fillPageTimeout (q : Nat)
  /-- HAMPER_PAGE_WRITTEN (R174): A closed fill page has been written to DRAM within BW_CAP. -/
  | hamperPageWritten (q : Nat)
  /-- REFILL_START (R175): A SPILL queue's on-die cells fall below REFILL_MARK with FREE at least 16 cells and a refill read starts. -/
  | refillStart (q : Nat)
  /-- REFILL_DONE (R175): A refill read completes and its frames join the queue's on-die head. -/
  | refillDone (q : Nat)
  /-- PAGE_RETURN (R178): Detached pages return to the free list in the background and their frames are counted. -/
  | pageReturn
  /-- HAMPER_DRAINED (R170): A DRAINING Hamper holds no page and the lowered size or disable takes effect. -/
  | hamperDrained
  /-- PATROL_SCRUB (R187): The patrol scrubber reads and corrects a cell or table word. -/
  | patrolScrub (table : Nat) (entry : Nat) (kind : Nat)
  /-- LEARN_COMMIT (R206): A learn request is committed after its frame is counted good, inserting, moving or refreshing an entry. -/
  | learnCommit
  /-- AGE_TICK (R209): FX_AGE_NOW increments and the ager deletes expired learned entries. -/
  | ageTick
  /-- PG_REJOIN (R217): A returned member stays in service for REJOIN and its home buckets return to it. -/
  | pgRejoin (pg : Nat) (member : Nat)
  /-- FRER_RESET (R222): No frame passes recovery for RESET_MS and the stream's recovery resets. -/
  | frerReset (h : Nat)
  /-- FDB_READ (R229): FX_TBL_CMD READ returns the bridge entry at INDEX. -/
  | fdbRead (a : Agent)
  /-- FDB_SEARCH (R229): FX_TBL_CMD SEARCH finds a key in the ACTIVE copy. -/
  | fdbSearch (a : Agent)
  /-- FDB_DELETE (R229): FX_TBL_CMD DELETE removes the learned entry with the key. -/
  | fdbDelete (a : Agent)
  /-- FDB_FLUSH (R229): FX_TBL_CMD FLUSH removes learned entries, filtered by port or FID. -/
  | fdbFlush (a : Agent)
  /-- FDB_OP_DONE (R229): A table access ends, BUSY clears and EV_FX_TBL_DONE is raised. -/
  | fdbOpDone
  /-- GCL_ENTRY_CHANGE (R248): A gate control list interval ends and the port's gates take the next entry's states. -/
  | gclEntryChange (port : Nat)
  /-- GCL_START (R251): A waiting gate list reaches its start and replaces the running one. -/
  | gclStart (port : Nat)
  /-- SGATE_ENTRY_CHANGE (R243): A stream gate's list moves to its next entry. -/
  | sgateEntryChange (g : Nat)
  /-- PSFP_CLEAR_FILTER (R243): CLR_FILTER in FX_PSFP_CLEAR clears both latches of a stream filter. -/
  | psfpClearFilter (a : Agent) (i : Nat)
  /-- PSFP_CLEAR_GATE (R243): CLR_GATE in FX_PSFP_CLEAR clears INVALID_CLOSED of a stream gate. -/
  | psfpClearGate (a : Agent) (g : Nat)
  /-- TI_ADJ_WRITE (R261): A write to TE_TI_ADJ_i changes the rate correction, clipped to ±1,000 ppm. -/
  | tiAdjWrite (a : Agent) (i : Nat) (data : Word)
  /-- TI_STEP (R264): TE_TI_CMD STEP adds a signed offset, subject to ownership and the jump guard. -/
  | tiStep (a : Agent) (i : Nat)
  /-- TI_SET (R264): TE_TI_CMD SET sets seconds and nanoseconds, subject to checks and the jump guard. -/
  | tiSet (a : Agent) (i : Nat)
  /-- TI_UNSET (R264): TE_TI_CMD UNSET makes the instance UNSET. -/
  | tiUnset (a : Agent) (i : Nat)
  /-- TI_TIME_READ (R262): A read of TE_TI_NS_i latches the seconds and fraction of the same cycle. -/
  | tiTimeRead (a : Agent) (i : Nat)
  /-- SYNC_RECEIVED (R275): A gPTP Sync is processed and the servo sets, steps or steers the instance. -/
  | syncReceived (i : Nat) (port : Nat) (domain : Nat) (offset : Int) (gmid : Nat) (prio : Nat)
  /-- SYNC_TIMEOUT (R276): No Sync for 3 × SYNC_INT and the servo enters HOLDOVER. -/
  | syncTimeout (i : Nat) (other : Option Nat)
  /-- SETTLE_EXPIRY (R276): SETTLE ends in HOLDOVER and the servo enters SLEWING or BIG_OFFSET. -/
  | settleExpiry (i : Nat)
  /-- SYNC_TRANSMIT (R274): Every SYNC_INT SV regenerates Sync on each master port. -/
  | syncTransmit (i : Nat)
  /-- TSYNC_IN_EDGE (R278): A selected TSYNC_IN edge is captured into the pin's FIFO. -/
  | tsyncInEdge (k : Nat) (rising : Bool)
  /-- TSI_POP (R285): A read of TE_TSI_NS_k pops the oldest capture. -/
  | tsiPop (a : Agent) (k : Nat)
  /-- TSYNC_OUT_EDGE (R279): TSYNC_OUT reaches a scheduled edge time and emits or ends its pulse. -/
  | tsyncOutEdge (k : Nat)
  /-- FBTC_PAIR (R281): Every 1 ms, and at steps and ADJ changes, TE pairs FBTC with the paired instance. -/
  | fbtcPair
  /-- PAIR_GO (R281): TE_PAIR_CMD GO takes an FBTC pair. -/
  | pairGo (a : Agent) (data : Word)
  /-- CAN_INTEGRATED (R292): A controller sees 11 consecutive recessive bits and enters ERROR_ACTIVE. -/
  | canIntegrated (c : Nat)
  /-- CAN_CONFIG_APPLIED (R294): A controller finishes its frame, enters CONFIG, applies the change and checks timing. -/
  | canConfigApplied (c : Nat)
  /-- CAN_TXREQ (R302): A bit written in BX_CAN_TXREQ checks the header and makes the object PENDING or FORMAT_ERR. -/
  | canTxreq (a : Agent) (c : Nat) (w : Nat) (data : Word)
  /-- CAN_TXCAN (R306): A cancel reaches the engine and cancels a PENDING object or marks an ACTIVE one. -/
  | canTxcan (a : Agent) (c : Nat) (w : Nat) (data : Word)
  /-- CAN_RXACK (R309): A bit in BX_CAN_RXACK sets an RX object IDLE and clears OVR. -/
  | canRxack (a : Agent) (c : Nat) (w : Nat) (data : Word)
  /-- CAN_RECOVER (R314): RECOVER in BX_CAN_CMD starts bus-off recovery and clears BUSOFF_CNT. -/
  | canRecover (a : Agent) (c : Nat)
  /-- CAN_TX_CHOICE (R303): At intermission or idle the engine chooses the highest-ranking PENDING object into staging. -/
  | canTxChoice (c : Nat) (ecc : Nat) (word : Nat)
  /-- CAN_TX_COMMIT (R305): The engine commits the chosen object to a start of frame and it becomes ACTIVE. -/
  | canTxCommit (c : Nat)
  /-- CAN_TX_DONE (R304): A sent frame is acknowledged and its object takes TX_DONE or TX_DONE_CANCEL_LATE. -/
  | canTxDone (c : Nat) (edges : List Nat)
  /-- CAN_ARB_LOST (R304): A frame loses arbitration and its object returns to PENDING, NOT_SENT or CANCELLED_AFTER_LOSS. -/
  | canArbLost (c : Nat)
  /-- CAN_RX_FRAME (R309): A valid frame ends and is copied into the first accepting RX object. -/
  | canRxFrame (c : Nat) (f : CanFrame) (stamp : Nat)
  /-- CAN_PROTOCOL_EXCEPTION (R291): A frame in an unaccepted format triggers the protocol exception or a form error. -/
  | canProtocolException (c : Nat) (xl : Bool)
  /-- CAN_BUS_ERROR (R311): A bus error updates TEC or REC, sends an error frame and changes error state. -/
  | canBusError (c : Nat) (code : Nat) (dataPhase : Bool) (severe : Bool) (exempt : Bool) (edges : Option (List Nat))
  /-- CAN_RECOVERY_DONE (R314): 128 occurrences of 11 recessive bits complete recovery to ERROR_ACTIVE. -/
  | canRecoveryDone (c : Nat)
  /-- GW_ROUTE_LOOKUP (R333): A frame taken by a GW receive object is looked up in the route table and packed, copied or discarded. -/
  | gwRouteLookup (c : Nat) (ecc : Nat) (word : Nat)
  /-- GW_HOLD_DEADLINE (R338): An open UP Ethernet frame's deadline passes and it is closed and committed. -/
  | gwHoldDeadline (t : Nat)
  /-- PQ_COMMIT (R328): A writer commits a packet's last word, which becomes visible to the reader. -/
  | pqCommit (q : Nat)
  /-- PQ_REWIND (R328): A writer rewinds an uncommitted packet and returns its words. -/
  | pqRewind (q : Nat)
  /-- PQ_UP_READ (R326): P38 ingress reads a committed UP packet and enters it at step 1. -/
  | pqUpRead (q : Nat) (errs : List (Nat × Bool))
  /-- PQ_DOWN_WRITE (R329): P38 egress writes a handed-over frame into its DOWN queue when there is room. -/
  | pqDownWrite (q : Nat)
  /-- GW_DOWN_PACKET (R341): The gateway engine reads a DOWN packet whole and writes its messages into transmit objects. -/
  | gwDownPacket (q : Nat) (errs : List (Nat × Bool))
  /-- PQ_RESET (R331): RESET in BX_PQ_CMD discards every word of a queue. -/
  | pqReset (a : Agent) (q : Nat)
  /-- INVALIDATE (R364): KX_CMD INVALIDATE advances a node's GEN, erases its cell and orphans its descendants. -/
  | invalidate (a : Agent) (node : Nat)
  /-- REBIND (R364): KX_CMD REBIND re-creates an invalid or orphaned derived node. -/
  | rebind (a : Agent) (node : Nat)
  /-- IMPORT (R362): KX_CMD IMPORT fills an IMPORTED node from a device blob or key wrap. -/
  | importKey (a : Agent) (node : Nat) (form : Nat) (data : List Byte)
  /-- EXPORT (R363): KX_CMD EXPORT writes a device blob of an exportable node. -/
  | exportKey (a : Agent) (node : Nat)
  /-- ZEROISE (R374): KX_CMD ZEROISE acts as a WIPE alarm without a tamper latch. -/
  | zeroise (a : Agent)
  /-- CLEAR_LOCK (R372): KX_CMD CLEAR_LOCK reconstructs S and re-instantiates a locked tree. -/
  | clearLock (a : Agent)
  /-- CLEAR_LOCK_DONE (R372): CLEAR_LOCK completes, clearing the lock or failing into KEYS_DOWN. -/
  | clearLockDone (r : Puf)
  /-- LC_ADVANCE (R353): KX_CMD LC_ADVANCE programs one life-cycle fuse for the next start. -/
  | lcAdvance (a : Agent) (target : Nat)
  /-- ENROLL (R350): KX_CMD ENROLL makes a new device secret and writes the helper area. -/
  | enroll (a : Agent)
  /-- KX_COMMAND_DONE (R375): A KX command that took time completes and writes its RESULT. -/
  | kxCommandDone (ok : Bool)
  /-- KEY_DERIVE (R385): A CE cache miss holds the frame while KX derives the context's working key as a node use. -/
  | keyDerive (ctx : Nat)
  /-- TAMPER_ALARM (R369): A tamper source enters alarm and its level logs, wipes or wipes and locks. -/
  | tamperAlarm (src : Nat)
  /-- MESH_CHECK (R368): The lid mesh is checked every 100 µs, or 10 ms in LISTEN. -/
  | meshCheck (ok : Bool)
  /-- KEY_REMASK (R367): KX renews every key cell mask once per 1 ms period. -/
  | keyRemask
  /-- TRNG_HEALTH_FAIL (R367): The running TRNG health test fails and renewal pauses. -/
  | trngHealthFail
  /-- TRNG_HEALTH_PASS (R367): The TRNG health test passes again and renewal resumes. -/
  | trngHealthPass
  /-- KEEPALIVE_RECOGNISED (R405): A CAN or Ethernet keep-alive is recognised and restarts its domain's fold timer. -/
  | keepaliveRecognised (src : KaSource)
  /-- KEEPALIVE_TX (R406): Every KA_PERIOD the gateway sends its keep-alives into each domain it needs. -/
  | keepaliveTx (d : Nat)
  /-- FOLD_COMMIT (R407): A domain's fold timer reaches T_FOLD and the domain enters FOLDING. -/
  | foldCommit (d : Nat)
  /-- FOLD_COMPLETE (R408): The fold actions end and the domain is ASLEEP, possibly starting a mode transition. -/
  | foldComplete (d : Nat)
  /-- DOMAIN_WAKE (R413): A wake of an ASLEEP domain writes a record, restores its channels and starts its hold. -/
  | domainWake (d : Nat) (src : Nat) (unit : Nat)
  /-- WAKE_IN_ACTIVE (R412): A WAKE_IN or KEY_IN pin is held at its ACTIVE level for FILTER. -/
  | wakeInActive (pin : Nat)
  /-- CAN_WUF_RECEIVED (R412): A wake-up frame matching WUF_ID is decoded on a CAN bus. -/
  | canWufReceived (c : Nat) (id : Nat) (ide : Bool)
  /-- CAN_KA_WAKE (R412): A keep-alive frame in range is decoded by an integrated transceiver in LISTEN. -/
  | canKaWake (c : Nat) (id : Nat) (ide : Bool)
  /-- T1S_ENERGY (R412): A T1S energy detector sees 2 µs of activity in LISTEN. -/
  | t1sEnergy (n : Nat)
  /-- FOLD_CMD_WAKE (R411): SV_FOLD_CMD WAKE wakes the named domain. -/
  | foldCmdWake (a : Agent) (data : Word)
  /-- FOLD_CMD_FORGIVE (R418): SV_FOLD_CMD FORGIVE ends ENFORCED and restarts the awake time. -/
  | foldCmdForgive (a : Agent) (data : Word)
  /-- FOLD_NEED_WRITE (R406): A write to SV_FOLD_NEED changes which domains software needs. -/
  | foldNeedWrite (a : Agent) (data : Word)
  /-- WAKE_HOLD_END (R413): A domain's post-wake hold of T_VALID ends. -/
  | wakeHoldEnd (d : Nat)
  /-- WAKE_VALIDITY_DECISION (R415): At T_VALID the power die judges a wake valid or false and may mask its source. -/
  | wakeValidityDecision (k : Nat)
  /-- WAKE_MASK_END (R415): BACKOFF elapses and a masked wake source is recognised again. -/
  | wakeMaskEnd (i : Nat)
  /-- OVERSTAY_A (R417): A class A domain's awake time passes a further T_AWAKE_MAX and a ledger record names its talkers. -/
  | overstayA (d : Nat)
  /-- OVERSTAY_B (R418): A class B domain reaches T_AWAKE_MAX and becomes ENFORCED, cutting keep-alives and channels. -/
  | overstayB (d : Nat)
  /-- RTC_SET (R420): PW_RTC_SET GO sets the RTC at the next subsecond wrap. -/
  | rtcSet
  /-- RTC_ALARM (R420): The RTC seconds reach PW_RTC_ALARM_SEC with ARM set and wake its domains. -/
  | rtcAlarm
  /-- LS_UPDATE (R429): Every 100 µs each channel measures current and temperature, updates E and trips or retries. -/
  | lsUpdate (meas : List LsMeas) (mw : Nat)
  /-- SHORT_TRIP (R430): Current above 8 × I_N for 2 µs switches the channel off with cause SHORT. -/
  | shortTrip (ch : Nat)
  /-- INRUSH_END (R431): INRUSH_T ends and the channel enters ON or trips with cause INRUSH. -/
  | inrushEnd (ch : Nat) (demand : Nat)
  /-- REENABLE (R435): PW_OUT_CMD REENABLE releases a LATCHED_OFF channel or is refused. -/
  | reenable (a : Agent) (data : Word)
  /-- VBAT_UNDERVOLTAGE (R437): VBAT below 7.0 V for 10 µs switches every conducting channel into UV_OFF. -/
  | vbatUndervoltage
  /-- VBAT_RECOVERED (R437): VBAT above 8.0 V for 1 ms turns UV_OFF channels on again. -/
  | vbatRecovered
  /-- TOTAL_CURRENT_SHED (R438): Summed current above 60 A for 500 ms, then each 10 ms, sheds the next SHED channel. -/
  | totalCurrentShed (first : Bool)
  /-- DISSIPATION_HIGH (R438): Summed switch dissipation above 8 W for 100 ms raises EV_PW_DISS_HIGH. -/
  | dissipationHigh
  /-- POWER_DIE_LINK_REFRESH (R442): SV firmware refreshes the power-die link every 10 ms. -/
  | powerDieLinkRefresh
  /-- HOLD_EXPIRED (R443): The link is not refreshed for HOLD_T and each channel takes its fail-safe state. -/
  | holdExpired
  /-- CLUSTER_RELEASE (R450): The cluster leaves reset, host ports come up and the cores start or the image copy begins. -/
  | clusterRelease
  /-- IMAGE_COPY_DONE (R450): SV's copy of the core image to DRAM ends and the cores start, or IMG_ERR is set. -/
  | imageCopyDone (ok : Bool)
  /-- CORE_START (R450): A write to CX_CORE_START starts cores held with BOOT_SRC 1. -/
  | coreStart (a : Agent) (data : Word)
  /-- DVFS_REQUEST (R453): A write to CX_DVFS requests an operating point and changes VID or clock first. -/
  | dvfsRequest (a : Agent) (data : Word)
  /-- DVFS_DONE (R453): The operating point change completes after SETTLE and EV_CX_DVFS_DONE is raised. -/
  | dvfsDone
  /-- CORE_WFI_OFFLINE (R454): A core asked to go offline executes WFI and is written back and held in reset. -/
  | coreWfiOffline (k : Nat)
  /-- OFFLINE_GRACE_EXPIRY (R454): OFFLINE_GRACE elapses and the core is stopped by force. -/
  | offlineGraceExpiry (k : Nat)
  /-- TAG_POP (R457): A write to CX_TAG_POP_j removes the oldest instruction record. -/
  | tagPop (a : Agent) (k : Nat)
  /-- RING_TAIL_WRITE (R458): Software writes a host-port ring's TAIL, posting descriptors. -/
  | ringTailWrite (a : Agent) (off : Nat) (data : Word)
  /-- HP_RX_WRITE (R459): A host port writes a handed-over frame into its RX ring's buffers and completes its descriptors. -/
  | hpRxWrite (port : Nat) (ecc : Option Nat)
  /-- HP_TX_FRAME (R461): A host port reads a TX descriptor chain and enters the frame at step 1. -/
  | hpTxFrame (port : Nat) (ecc : Nat)
  /-- HP_COAL_TIMER (R463): COAL_US after the first pending completion the ring's completion event is raised. -/
  | hpCoalTimer (r : Nat)
  /-- DRAM_UE (R464): An uncorrectable DRAM error is counted, latched and handed to its reader. -/
  | dramUe (addr : Nat) (load : Option (Fin 8))
  /-- DRAM_SCRUB_PASS_DONE (R464): A patrol pass over DRAM completes. -/
  | dramScrubPassDone
  /-- OUTBOUND_ACCESS (R467): A core access to the outbound area is mapped by a window and sent as TLPs or refused. -/
  | outboundAccess (a : Agent) (write : Bool) (addr : Nat) (size : Nat) (data : List Byte)
  /-- OUTBOUND_COMPLETION (R469): A completion for an outbound read arrives and returns data or an error. -/
  | outboundCompletion (n : Nat) (ok : Bool) (data : List Byte)
  /-- OUTBOUND_READ_TIMEOUT (R469): An outbound read has no completion after 50 ms and returns an error response. -/
  | outboundReadTimeout (n : Nat)
  /-- PREFETCH_EXPIRY (R467): A window's prefetch buffer is discarded 10 µs after it was filled. -/
  | prefetchExpiry (w : Nat)
  /-- INBOUND_REQUEST (R467): An inbound PCIe request is mapped to DRAM or completes as Unsupported Request. -/
  | inboundRequest (write : Bool) (addr : Nat) (size : Nat) (data : List Byte) (ecc : Bool)
  /-- PCIE_ERROR_MESSAGE (R468): A device error message names a posted write, which is recorded as failed. -/
  | pcieErrorMessage (addr : Nat) (fatal : Bool)
  /-- PCIE_RESET (R470): A fundamental or hot reset in endpoint mode fails queued work and resets configuration space. -/
  | pcieReset
  /-- PCIE_LINK_CHANGE (R470): The PCIe link goes up or down and EV_HB_LINK is raised. -/
  | pcieLinkChange (up : Bool) (gen : Nat) (width : Nat)
  /-- ROOT_MSI_WRITE (R466): In root-port mode a device write to MX_HB_MSI_ADDR enters the MSI FIFO. -/
  | rootMsiWrite (data : Nat)
  /-- MSI_DATA_POP (R473): A read of MX_HB_MSI_DATA pops the MSI FIFO. -/
  | msiDataPop (a : Agent)
  /-- FENCE_CLR (R468): A write to MX_HB_FENCE_CLR clears window fences. -/
  | fenceClr (a : Agent) (data : Word)
  /-- UPD_OPEN (R478): Update OPEN opens the single update session and imports node 7. -/
  | updOpen (a : Agent)
  /-- UPD_HEADER (R479): Update HEADER checks the first slot, withdraws any mark and writes staging slot 0. -/
  | updHeader (a : Agent) (addr : Nat)
  /-- UPD_BLOCK (R479): Update BLOCK checks a block's GCM tag and stores its ciphertext in staging. -/
  | updBlock (a : Agent) (index : Nat) (addr : Nat)
  /-- UPD_ACTIVATE (R479): Update ACTIVATE verifies the signature and writes the copy journal. -/
  | updActivate (a : Agent)
  /-- UPD_CLOSE (R479): Update CLOSE closes the session. -/
  | updClose (a : Agent)
  /-- UPD_SESSION_TIMEOUT (R480): No command from the owner for TIMEOUT and the session closes. -/
  | updSessionTimeout
  /-- COPY_SLOT_DONE (R482): A slot is written and verified or left unchanged and its journal record appended. -/
  | copySlotDone (ok : Bool)
  /-- COPY_COMPLETE (R482): The anti-rollback counter reaches SVN and COMPLETE is recorded. -/
  | copyComplete
  /-- MIGRATION (R486): At the first start of new firmware SV migrates the configuration store if needed. -/
  | migration
  /-- RESCUE_BREAK (R487): DBG_UART_RX held low for 10 ms is a rescue request. -/
  | rescueBreak
  /-- RESCUE_HELLO (R487): Every 1 s while idle the ROM sends HELLO on both links. -/
  | rescueHello (pufOk : Bool)
  /-- RESCUE_HEADER (R488): A rescue HEADER message claims the download and checks the container's first slot. -/
  | rescueHeader (link : Nat) (bytes : List Byte) (flashOk : Bool) (pufOk : Bool)
  /-- RESCUE_CHUNK (R488): A rescue CHUNK message delivers 1,024 bytes; a block is checked when all its chunks arrive. -/
  | rescueChunk (link : Nat) (bytes : List Byte) (flashOk : Bool)
  /-- RESCUE_ACTIVATE (R488): A rescue ACTIVATE writes the journal and resets the SoC die into the copy. -/
  | rescueActivate (link : Nat) (bytes : List Byte) (flashOk : Bool)
  /-- SLOT_CLR (R497): A write to OB_SLOT_CLR sets all five slot counters to 0. -/
  | slotClr (a : Agent) (data : Word)
  /-- SLOT_ACCOUNT (R496): Each CLK_CORE slot is counted front- or back-starved, or pending until its frame's fate is settled. -/
  | slotAccount (back : Bool)
  /-- RING_RECORD_WRITE (R498): A Peg or Line record leaves its FIFO for its DRAM ring and HEAD advances, or is lost. -/
  | ringRecordWrite (r : Nat)
  /-- CSU_FRAME_END (R506): A CSU reaches a frame's last covered byte and updates RESULT and FRAMES. -/
  | csuFrameEnd (u : Nat)
  /-- CSU_HOLD (R507): Writing HOLD stops a CSU at the next frame boundary. -/
  | csuHold (a : Agent) (u : Nat)
  /-- CSU_HOLD_ACK (R507): A held CSU reaches a frame boundary and HOLD_ACK reads 1. -/
  | csuHoldAck (u : Nat)
  /-- CSU_CLEAR (R506): Writing CLEAR loads INIT into RUN. -/
  | csuClear (a : Agent) (u : Nat)
  /-- CSU_REATTACH (R508): Writing REATTACH attaches CSU0 under its configuration after the load. -/
  | csuReattach (a : Agent)
  /-- CSU_RUN_WRITE (R507): A write to RUN is accepted while HOLD_ACK is 1 and discarded otherwise. -/
  | csuRunWrite (a : Agent) (u : Nat) (data : Word)
  /-- LEDGER_FLUSH (R515): SV writes buffered ledger records to flash, erasing the oldest sector when needed. -/
  | ledgerFlush
  /-- LEDGER_SCAN (R515): After each boot Stitch SV scans the ledger for the highest valid SEQ. -/
  | ledgerScan
  /-- LEDGER_VERIFY (R516): SV_LEDGER_CMD VERIFY checks COUNT records from FROM. -/
  | ledgerVerify (a : Agent)
  /-- LEDGER_VERIFY_DONE (R516): VERIFY completes, writes RESULT and raises EV_SV_LEDGER_DONE. -/
  | ledgerVerifyDone
  /-- PCS_FAULT_CLEARED (R130): A SerDes port stops receiving a local or remote fault; FAULT clears and the gateway stops sending remote fault. -/
  | pcsFaultCleared (port : Nat)
  /-- JABBER_LINE_IDLE (R147): After jabber the T1S line goes idle and the port stops ignoring it. -/
  | jabberLineIdle (n : Nat)
  /-- BERSAN_SESSION_OPEN (R64): A management station opens and authenticates a Bersan session under a MGMT_AUTH node. -/
  | bersanSessionOpen (n : Nat) (node : Nat) (port : Nat) (tagged : Bool) (udp : Nat)
  /-- BERSAN_SESSION_CLOSE (R480): A Bersan session closes, which closes any update session it owns and ends its notifications. -/
  | bersanSessionClose (n : Nat)
  /-- CORE_CYCLE (R456): Each CLK_APP cycle a core counts its issue slots and PMU events, and a tagged instruction that retires or is squashed writes its record. -/
  | coreCycle (k : Nat) (retired : Nat) (wasted : Nat) (front : Nat) (events : List Nat) (decoded : Nat) (tag : Option CoreTag) (bytes : Nat)
  /-- TAMPER_ALARM_CLEARED (R368): A tamper source leaves its alarm condition and its ACTIVE bit clears. -/
  | tamperAlarmCleared (src : Nat)
  deriving DecidableEq, Repr

end Sys2Proof
end

