-- ==== Sys2Proof/Decode.lean ====
section
/-!
DEFINITION. The commands that words spell by the bits of spec/opcode_table.json. The table gives no row any bits: the
block's commands are register accesses, frames and events, not encoded instructions.
-/

namespace Sys2Proof

/-- The command that a word of nbits bits spells: none, for no row of the table has bits. -/
def decodeTableWord (_nbits _w : Nat) : Option Instr := none

end Sys2Proof
end

