-- ==== Sys2Proof/Config.lean ====
section
/-!
DEFINITION. What the spec leaves open and what lies outside it: free values, and the cryptographic primitives that the
spec names by their standards. Each is a constant without a body: nothing can be proved of its value, and every
statement holds whatever it is.
-/

namespace Sys2Proof

/-- A free value: the n-th value that the spec leaves open. -/
opaque Config.freeValue : Nat → Nat

/-- CMAC-AES-256 (NIST SP 800-38B): key, message; 16 bytes. -/
opaque Config.cmac : Nat → List Byte → Nat

/-- One block of the AES-256 counter keystream of GCM: key, IV, block number; a 128-bit number. -/
opaque Config.gcmBlock : Nat → List Byte → Nat → Nat

/-- The GCM tag (GHASH masked with the first block): key, IV, additional data, ciphertext; a 128-bit number. -/
opaque Config.gcmTag : Nat → List Byte → List Byte → List Byte → Nat

/-- XTS-AES-256 of one data unit (IEEE 1619): data key, tweak key, tweak; the plaintext against its ciphertext, which
decryption takes back. -/
opaque Config.xts : Nat → Nat → Nat → (List Byte ≃ List Byte)

/-- AES key wrap (RFC 3394): key-encryption key, key; the wrapped key. -/
opaque Config.keyWrap : Nat → List Byte → List Byte

/-- AES key unwrap (RFC 3394): none where the integrity check fails. -/
opaque Config.keyUnwrap : Nat → List Byte → Option (List Byte)

/-- SHA-384 of bytes. -/
opaque Config.sha384 : List Byte → List Byte

/-- ECDSA P-384 verification: public key, digest, signature. -/
opaque Config.ecdsaVerify : List Byte → List Byte → List Byte → Bool

/-- The key derivation function of IEEE 802.1X-2020 for the KEK: key, label, context. -/
opaque Config.kdf8021x : Nat → List Byte → List Byte → Nat

/-- The device secret S that the PUF reconstructs from helper data. -/
opaque Config.pufSecret : List Byte → Nat

end Sys2Proof
end

