-- ==== Sys2Proof/Machine/Bytes.lean ====
section
/-!
DEFINITION. Byte strings: little-endian and big-endian integers, slices, and the CRCs of R65, R200, R216 and R505.
-/

namespace Sys2Proof.Machine

/-- The n low bytes of v, least significant first. -/
def leBytes : Nat → Nat → List Byte
  | 0, _ => []
  | n + 1, v => BitVec.ofNat 8 v :: leBytes n (v / 256)

/-- The n low bytes of v, most significant first. -/
def beBytes (n v : Nat) : List Byte := (leBytes n v).reverse

/-- The integer of bytes, least significant first. -/
def ofLe : List Byte → Nat
  | [] => 0
  | b :: bs => b.toNat + 256 * ofLe bs

/-- The integer of bytes, most significant first. -/
def ofBe (bs : List Byte) : Nat := ofLe bs.reverse

/-- n bytes from offset i, 0x00 beyond the end. -/
def slice0 (bs : List Byte) (i n : Nat) : List Byte :=
  let got := (bs.drop i).take n
  got ++ List.replicate (n - got.length) 0

/-- The big-endian integer of n bytes from offset i. -/
def beAt (bs : List Byte) (i n : Nat) : Nat := ofBe (slice0 bs i n)

/-- n bytes exist from offset i. -/
def hasBytes (bs : List Byte) (i n : Nat) : Bool := decide (i + n ≤ bs.length)

/-- The bytes with those from offset i replaced. -/
def putBytes (bs : List Byte) (i : Nat) (new : List Byte) : List Byte :=
  bs.take i ++ new ++ bs.drop (i + new.length)

/-- v with its w low bits reversed. -/
def reverseBits : Nat → Nat → Nat
  | 0, _ => 0
  | w + 1, v => (v % 2) * 2 ^ w + reverseBits w (v / 2)

/-- The parameters of a CRC: width, generator and input reflection. -/
structure CrcKind where
  width : Nat
  poly : Nat
  refin : Bool
  deriving DecidableEq, Repr

/-- One bit of a CRC register, most significant bit first. -/
def crcBit (k : CrcKind) (reg : Nat) (bit : Bool) : Nat :=
  let top := reg.testBit (k.width - 1)
  let sh := (2 * reg) % 2 ^ k.width
  if top != bit then Nat.xor sh k.poly else sh

/-- One byte of a CRC register. -/
def crcByte (k : CrcKind) (reg : Nat) (b : Byte) : Nat :=
  let v := if k.refin then reverseBits 8 b.toNat else b.toNat
  [7, 6, 5, 4, 3, 2, 1, 0].foldl (fun r i => crcBit k r (v.testBit i)) reg

/-- The CRC register after bytes. -/
def crcRun (k : CrcKind) (reg : Nat) (bs : List Byte) : Nat := bs.foldl (crcByte k) reg

/-- CRC-32, generator 0x04C1_1DB7, reflected. -/
def crc32Kind : CrcKind := ⟨32, 0x04C11DB7, true⟩

/-- CRC-32C, generator 0x1EDC_6F41, reflected. -/
def crc32cKind : CrcKind := ⟨32, 0x1EDC6F41, true⟩

/-- A reflected 32-bit CRC with an initial value and a final XOR of all ones. -/
def crcReflected (k : CrcKind) (init : Nat) (bs : List Byte) : Nat :=
  Nat.xor (reverseBits 32 (crcRun k init bs)) 0xFFFFFFFF

/-- CRC-32 with the usual parameters (check value 0xCBF4_3926). -/
def crc32 (bs : List Byte) : Nat := crcReflected crc32Kind 0xFFFFFFFF bs

/-- CRC-32C with the usual parameters (check value 0xE306_9283). -/
def crc32c (bs : List Byte) : Nat := crcReflected crc32cKind 0xFFFFFFFF bs

/-- The four FCS bytes of a frame, in wire order. -/
def fcsBytes (bs : List Byte) : List Byte := leBytes 4 (crc32 bs)

/-- Bits set in a mask below a bound. -/
def maskList (mask n : Nat) : List Nat := (List.range n).filter (fun i => mask.testBit i)

/-- A mask with a bit set. -/
def setBit (mask i : Nat) : Nat := Nat.lor mask (2 ^ i)

/-- A mask with a bit cleared. -/
def clrBit (mask i : Nat) : Nat := if mask.testBit i then mask - 2 ^ i else mask

/-- The bits of `a` that are not in `b`. -/
def maskDiff (a b : Nat) : Nat := Nat.xor a (Nat.land a b)

/-- Bits set in a mask below a bound, counted. -/
def popCount (mask n : Nat) : Nat := (maskList mask n).length

/-- The lowest set bit below a bound. -/
def lowestBit (mask n : Nat) : Option Nat := (maskList mask n).head?

end Sys2Proof.Machine
end

