-- ==== Sys2Proof/Machine/Sparse.lean ====
section
/-!
DEFINITION. Sparse data by key in one canonical form: a list of (key, value) pairs with strictly rising keys that
lists no entry equal to what an unlisted key reads as. Register files, the DRAM, the flash and every table the
hardware keeps for itself are held this way, so that equal contents are equal data.
-/

namespace Sys2Proof.Machine

/-- Values by key; `Sparse.wf` says the canonical form. -/
abbrev Sparse (β : Type) := List (Nat × β)

/-- The value at a key; `d` says what an unlisted key reads as. -/
def Sparse.get {β : Type} (d : Nat → β) : Sparse β → Nat → β
  | [], k => d k
  | (k', v) :: m, k => if k' = k then v else Sparse.get d m k

/-- The list without any entry of the key. -/
def Sparse.erase {β : Type} : Sparse β → Nat → Sparse β
  | [], _ => []
  | (k', v) :: m, k => if k' = k then Sparse.erase m k else (k', v) :: Sparse.erase m k

/-- The list with the key's entry put in its place. -/
def Sparse.insert {β : Type} : Sparse β → Nat → β → Sparse β
  | [], k, v => [(k, v)]
  | (k', v') :: m, k, v =>
    if k' = k then (k, v) :: m
    else if k < k' then (k, v) :: (k', v') :: m
    else (k', v') :: Sparse.insert m k v

/-- Write a key: the entry disappears when the value is what an unlisted key reads as. -/
def Sparse.set {β : Type} [DecidableEq β] (d : Nat → β) (m : Sparse β) (k : Nat) (v : β) : Sparse β :=
  if v = d k then m.erase k else m.insert k v

/-- Change the value at a key. -/
def Sparse.modify {β : Type} [DecidableEq β] (d : Nat → β) (m : Sparse β) (k : Nat) (f : β → β) : Sparse β :=
  m.set d k (f (m.get d k))

/-- Strictly rising keys. -/
def Sparse.rising {β : Type} : Sparse β → Bool
  | [] => true
  | [_] => true
  | (a, _) :: (b, v) :: m => decide (a < b) && Sparse.rising ((b, v) :: m)

/-- The canonical form. -/
def Sparse.wf {β : Type} [DecidableEq β] (d : Nat → β) (m : Sparse β) : Bool :=
  Sparse.rising m && m.all (fun e => decide (e.2 ≠ d e.1))

end Sys2Proof.Machine
end

