-- ==== Sys2Proof/Machine/RegMap.lean ====
section
/-!
DEFINITION. The register map of the whole register space (R38), one row per register or register array of the
chapters of spec/: its space offset (address minus 0x4000_0000, R55), its index ranges and strides, its configuration
domain, its clock domain, whether it is an entry of a configured table (R56), and its fields with their access codes
(R5) and reset values (R7). A comment after each row gives the spec's name, its file and its rule.
-/

namespace Sys2Proof.Machine

/-- The clock domain in which a register is sampled; `mac` stands for the MAC domain of the register's own port (R18). -/
inductive ClkTag where
  | svc | mac | t1s | rgmii | core | ddr | time | fb | sec | app | pcie | aon
  deriving DecidableEq, Repr

/-- The access codes of R5. -/
inductive Acc where
  | ro | rw | rw1c | wo | rc | rs
  deriving DecidableEq, Repr

/-- How the high-word latch of R8 (and the wider latches of the time registers) touches a register word. -/
inductive Latch where
  | none | low | high
  deriving DecidableEq, Repr

/-- One index of a register array: its first and last value and the byte stride. -/
structure Dim where
  lo : Nat
  hi : Nat
  stride : Nat
  deriving DecidableEq, Repr

/-- One field of a register: lowest bit, width in bits, access code and reset value. -/
structure FieldDef where
  lo : Nat
  wid : Nat
  acc : Acc
  reset : Nat
  deriving DecidableEq, Repr

/-- One row of the register map. -/
structure RegRow where
  off : Nat
  dims : List Dim
  cd : Option Nat
  clk : ClkTag
  lat : Latch
  tbl : Bool
  fields : List FieldDef
  deriving DecidableEq, Repr

/-- A named field of a register word: the word's space offset, the field's lowest bit and width, and the
configuration domain of an RS register (18 for a register that is not configured). -/
structure Fld where
  off : Nat
  lo : Nat
  wid : Nat
  cd : Nat := 18
  deriving DecidableEq, Repr

namespace RegMap

/-- Registers of block SV, part 1. -/
def rowsSV0 : List RegRow := [
  ⟨0, [], none, .svc, .none, false, [⟨16, 16, .ro, 0x9400⟩, ⟨8, 8, .ro, 0xb1⟩]⟩, -- SV_DEVICE_ID: 00_scope.md, R14
  ⟨0x2000, [⟨0, 7, 4⟩], none, .svc, .none, false, [⟨0, 32, .rw1c, 0⟩]⟩, -- SV_EV_STATUS: 01_architecture.md, R42
  ⟨0x2400, [⟨0, 255, 4⟩], some 0, .svc, .none, false, [⟨0, 4, .rs, 0⟩, ⟨4, 8, .rs, 0⟩, ⟨12, 1, .rs, 0⟩, ⟨13, 5, .rs, 0⟩, ⟨18, 1, .rs, 0⟩]⟩, -- SV_EV_ROUTE: 01_architecture.md, R42
  ⟨0x100, [], none, .svc, .none, false, [⟨0, 1, .ro, 0⟩, ⟨1, 1, .ro, 0⟩, ⟨2, 1, .ro, 0⟩, ⟨3, 1, .ro, 0⟩, ⟨4, 3, .ro, 0⟩, ⟨7, 1, .ro, 0⟩, ⟨8, 1, .ro, 0⟩]⟩, -- SV_CFG_STATUS: 02_configuration_store.md, R69
  ⟨0x104, [], none, .svc, .none, false, [⟨0, 32, .ro, 0⟩]⟩, -- SV_CFG_CODE: 02_configuration_store.md, R70
  ⟨0x108, [], none, .svc, .none, false, [⟨0, 32, .ro, 0⟩]⟩, -- SV_CFG_SEQ: 02_configuration_store.md, R70
  ⟨0x10c, [], none, .svc, .none, false, [⟨0, 32, .ro, 0⟩]⟩, -- SV_CFG_RECORDS: 02_configuration_store.md, R70
  ⟨0x110, [], none, .svc, .none, false, [⟨0, 32, .ro, 0⟩]⟩, -- SV_CFG_SKIPPED: 02_configuration_store.md, R70
  ⟨0x114, [], none, .svc, .none, false, [⟨0, 32, .ro, 0⟩]⟩, -- SV_CFG_UNKNOWN: 02_configuration_store.md, R70
  ⟨0x118, [], none, .svc, .none, false, [⟨0, 32, .ro, 0⟩]⟩, -- SV_CFG_IGNORED: 02_configuration_store.md, R70
  ⟨0x11c, [], none, .svc, .none, false, [⟨0, 18, .ro, 0⟩]⟩, -- SV_CFG_DOMAINS: 02_configuration_store.md, R70
  ⟨0x120, [], none, .svc, .none, false, [⟨0, 32, .ro, 0⟩]⟩, -- SV_CFG_BYTES: 02_configuration_store.md, R70
  ⟨0x124, [], none, .svc, .none, false, [⟨0, 32, .ro, 0⟩]⟩, -- SV_CFG_TRAILER_CRC: 02_configuration_store.md, R70
  ⟨0x128, [], none, .svc, .none, false, [⟨0, 32, .ro, 0⟩]⟩, -- SV_CFG_TRAILER_LEN: 02_configuration_store.md, R70
  ⟨0x12c, [], none, .svc, .none, false, [⟨0, 32, .ro, 0⟩]⟩, -- SV_CFG_TRAILER_SEQ: 02_configuration_store.md, R70
  ⟨0x130, [], none, .svc, .none, false, [⟨0, 32, .ro, 0⟩]⟩, -- SV_CFG_TRAILER_BUILD: 02_configuration_store.md, R70
  ⟨0x200, [], none, .svc, .none, false, [⟨0, 4, .ro, 2⟩, ⟨4, 1, .ro, 1⟩, ⟨5, 1, .ro, 0⟩, ⟨6, 1, .ro, 0⟩, ⟨7, 1, .ro, 0⟩, ⟨8, 3, .ro, 0⟩]⟩, -- SV_MODE: 03_startup_modes.md, R75
  ⟨0x204, [], some 0, .svc, .none, false, [⟨0, 2, .rs, 1⟩, ⟨2, 1, .rs, 0⟩, ⟨3, 1, .rs, 0⟩, ⟨4, 1, .rs, 0⟩, ⟨5, 3, .rs, 6⟩]⟩, -- SV_MODE_CFG: 03_startup_modes.md, R76
  ⟨0x208, [], none, .svc, .none, false, [⟨0, 3, .wo, 0⟩]⟩, -- SV_MODE_REQ: 03_startup_modes.md, R77
  ⟨0x210, [], none, .svc, .none, false, [⟨0, 1, .wo, 0⟩, ⟨16, 16, .wo, 0⟩]⟩, -- SV_RESET: 03_startup_modes.md, R93
  ⟨0x214, [], none, .svc, .none, false, [⟨0, 1, .ro, 0⟩, ⟨1, 1, .ro, 0⟩, ⟨2, 1, .ro, 0⟩, ⟨3, 1, .ro, 0⟩, ⟨4, 1, .ro, 0⟩, ⟨5, 1, .ro, 0⟩, ⟨6, 1, .ro, 0⟩]⟩, -- SV_RESET_CAUSE: 03_startup_modes.md, R93
  ⟨0x218, [], none, .svc, .none, false, [⟨0, 32, .ro, 0⟩]⟩, -- SV_START_FB: 03_startup_modes.md, R93
  ⟨0x21c, [], none, .svc, .none, false, [⟨0, 32, .ro, 0⟩]⟩, -- SV_START_FULL: 03_startup_modes.md, R93
  ⟨0x400, [⟨0, 12, 0x40⟩], none, .svc, .none, false, [⟨0, 18, .rw, 0⟩]⟩, -- SV_TXM_DOMAINS: 04_transactions_mending.md, R103
  ⟨0x404, [⟨0, 12, 0x40⟩], none, .svc, .none, false, [⟨0, 32, .rw, 0⟩]⟩, -- SV_TXM_ARG: 04_transactions_mending.md, R103
  ⟨0x408, [⟨0, 12, 0x40⟩], none, .svc, .none, false, [⟨0, 32, .rw, 0⟩]⟩, -- SV_TXM_SEC_LO: 04_transactions_mending.md, R103
  ⟨0x40c, [⟨0, 12, 0x40⟩], none, .svc, .none, false, [⟨0, 16, .rw, 0⟩]⟩, -- SV_TXM_SEC_HI: 04_transactions_mending.md, R103
  ⟨0x410, [⟨0, 12, 0x40⟩], none, .svc, .none, false, [⟨0, 4, .wo, 0⟩, ⟨4, 2, .wo, 0⟩, ⟨6, 2, .wo, 0⟩, ⟨8, 1, .wo, 0⟩]⟩, -- SV_TXM_CMD: 04_transactions_mending.md, R103
  ⟨0x414, [⟨0, 12, 0x40⟩], none, .svc, .none, false, [⟨0, 1, .ro, 0⟩, ⟨1, 5, .ro, 0⟩, ⟨6, 2, .ro, 0⟩, ⟨8, 1, .ro, 0⟩, ⟨16, 8, .ro, 0⟩]⟩, -- SV_TXM_RESULT: 04_transactions_mending.md, R103
  ⟨0x300, [⟨0, 3, 8⟩], none, .svc, .none, false, [⟨0, 3, .ro, 0⟩, ⟨4, 4, .ro, 0⟩, ⟨8, 1, .ro, 0⟩, ⟨12, 20, .ro, 0⟩]⟩, -- SV_TX_STATE: 04_transactions_mending.md, R115
  ⟨0x304, [⟨0, 3, 8⟩], none, .svc, .none, false, [⟨0, 18, .ro, 0⟩]⟩, -- SV_TX_DOMAINS: 04_transactions_mending.md, R115
  ⟨0x320, [], none, .svc, .none, false, [⟨0, 32, .ro, 0⟩]⟩, -- SV_TX_EPOCH: 04_transactions_mending.md, R115
  ⟨0x324, [], none, .svc, .none, false, [⟨0, 32, .rc, 0⟩]⟩, -- SV_TX_AGED: 04_transactions_mending.md, R115
  ⟨0x328, [], none, .svc, .none, false, [⟨0, 32, .rc, 0⟩]⟩, -- SV_TX_SHADOW_REFUSED: 04_transactions_mending.md, R115
  ⟨0x32c, [], none, .svc, .none, false, [⟨0, 28, .rc, 0⟩, ⟨28, 4, .rc, 0⟩]⟩, -- SV_TX_SHADOW_ADDR: 04_transactions_mending.md, R115
  ⟨0x330, [], none, .svc, .none, false, [⟨0, 2, .ro, 0⟩, ⟨16, 12, .ro, 0⟩]⟩, -- SV_TX_PERSIST: 04_transactions_mending.md, R115
  ⟨0x334, [], some 0, .svc, .none, false, [⟨0, 10, .rs, 0x32⟩]⟩, -- SV_TX_CFG: 04_transactions_mending.md, R115
  ⟨0x800, [⟨0, 7, 4⟩], none, .svc, .none, false, [⟨0, 8, .ro, 0⟩, ⟨8, 4, .ro, 0⟩, ⟨12, 8, .ro, 0⟩, ⟨20, 4, .ro, 0⟩]⟩, -- SV_MEND_ACT: 04_transactions_mending.md, R123
  ⟨0x880, [⟨0, 23, 4⟩], none, .svc, .none, false, [⟨0, 8, .ro, 0⟩, ⟨8, 4, .ro, 0⟩, ⟨12, 8, .ro, 0⟩, ⟨20, 4, .ro, 0⟩]⟩, -- SV_MEND_FACT: 04_transactions_mending.md, R123
  ⟨0x820, [], none, .svc, .none, false, [⟨0, 16, .ro, 0xffff⟩, ⟨16, 8, .ro, 0xff⟩]⟩ -- SV_MEND_SERVICE: 04_transactions_mending.md, R123
]

/-- Registers of block SV, part 2. The PORTS bits of P38 and P39, reserved and acting as 0 (R421), read back as written:
DESIGN CHOICE (log 100). -/
def rowsSV1 : List RegRow := [
  ⟨0x824, [], some 0, .svc, .none, false, [⟨0, 5, .rs, 0xc⟩]⟩, -- SV_MEND_CFG: 04_transactions_mending.md, R123
  ⟨0x840, [⟨0, 14, 4⟩], none, .svc, .none, false, [⟨0, 8, .ro, 0⟩, ⟨8, 4, .ro, 0⟩, ⟨12, 8, .ro, 0⟩, ⟨20, 5, .ro, 0⟩]⟩, -- SV_MEND_END: 04_transactions_mending.md, R124
  ⟨0x3000, [⟨0, 15, 0x20⟩], some 12, .svc, .none, true, [⟨0, 1, .rs, 0⟩, ⟨1, 1, .rs, 0⟩, ⟨2, 1, .rs, 0⟩, ⟨3, 1, .rs, 0⟩, ⟨8, 8, .rs, 0x1e⟩, ⟨16, 8, .rs, 0xa⟩, ⟨24, 8, .rs, 0⟩]⟩, -- SV_SD_W0: 14_sleep_wake.md, R421
  ⟨0x3004, [⟨0, 15, 0x20⟩], some 12, .svc, .none, true, [⟨0, 32, .rs, 0⟩]⟩, -- SV_SD_W1: 14_sleep_wake.md, R421
  ⟨0x3008, [⟨0, 15, 0x20⟩], some 12, .svc, .none, true, [⟨0, 9, .rs, 0⟩, ⟨16, 16, .rs, 0⟩]⟩, -- SV_SD_W2: 14_sleep_wake.md, R421
  ⟨0x300c, [⟨0, 15, 0x20⟩], some 12, .svc, .none, true, [⟨0, 29, .rs, 0⟩, ⟨29, 1, .rs, 0⟩]⟩, -- SV_SD_W3: 14_sleep_wake.md, R421
  ⟨0x3010, [⟨0, 15, 0x20⟩], some 12, .svc, .none, true, [⟨0, 29, .rs, 0⟩]⟩, -- SV_SD_W4: 14_sleep_wake.md, R421
  ⟨0x3014, [⟨0, 15, 0x20⟩], some 12, .svc, .none, true, [⟨0, 29, .rs, 0⟩, ⟨29, 1, .rs, 0⟩]⟩, -- SV_SD_W5: 14_sleep_wake.md, R421
  ⟨0x3018, [⟨0, 15, 0x20⟩], some 12, .svc, .none, true, [⟨0, 7, .rs, 0⟩, ⟨8, 8, .rs, 0⟩, ⟨16, 16, .rs, 0⟩]⟩, -- SV_SD_W6: 14_sleep_wake.md, R421
  ⟨0x301c, [⟨0, 15, 0x20⟩], some 12, .svc, .none, true, [⟨0, 11, .rs, 0⟩]⟩, -- SV_SD_W7: 14_sleep_wake.md, R421
  ⟨0xa00, [], some 12, .svc, .none, false, [⟨0, 32, .rs, 0⟩]⟩, -- SV_FOLD_CFG_LO: 14_sleep_wake.md, R422
  ⟨0xa04, [], some 12, .svc, .none, false, [⟨0, 16, .rs, 0⟩]⟩, -- SV_FOLD_CFG_HI: 14_sleep_wake.md, R422
  ⟨0xa08, [], some 12, .svc, .none, false, [⟨0, 32, .rs, 0⟩]⟩, -- SV_FOLD_SRC_LO: 14_sleep_wake.md, R422
  ⟨0xa0c, [], some 12, .svc, .none, false, [⟨0, 16, .rs, 0⟩]⟩, -- SV_FOLD_SRC_HI: 14_sleep_wake.md, R422
  ⟨0xa10, [], none, .svc, .none, false, [⟨0, 16, .rw, 0⟩]⟩, -- SV_FOLD_NEED: 14_sleep_wake.md, R422
  ⟨0xa14, [], none, .svc, .none, false, [⟨0, 4, .wo, 0⟩, ⟨8, 1, .wo, 0⟩, ⟨9, 1, .wo, 0⟩]⟩, -- SV_FOLD_CMD: 14_sleep_wake.md, R422
  ⟨0xa20, [], none, .svc, .none, false, [⟨0, 32, .rc, 0⟩]⟩, -- SV_FOLD_KA_RX: 14_sleep_wake.md, R422
  ⟨0xa24, [], none, .svc, .none, false, [⟨0, 32, .rc, 0⟩]⟩, -- SV_FOLD_KA_TX_FAIL: 14_sleep_wake.md, R422
  ⟨0xa28, [], none, .svc, .none, false, [⟨0, 32, .rc, 0⟩]⟩, -- SV_FOLD_KA_BLOCKED: 14_sleep_wake.md, R422
  ⟨0x3200, [⟨0, 15, 0x10⟩], none, .svc, .none, false, [⟨0, 3, .ro, 0⟩, ⟨3, 1, .ro, 0⟩, ⟨4, 1, .ro, 0⟩, ⟨5, 1, .ro, 0⟩]⟩, -- SV_SD_STAT: 14_sleep_wake.md, R422
  ⟨0x3204, [⟨0, 15, 0x10⟩], none, .svc, .none, false, [⟨0, 32, .ro, 0⟩]⟩, -- SV_SD_TIMER: 14_sleep_wake.md, R422
  ⟨0x3208, [⟨0, 15, 0x10⟩], none, .svc, .none, false, [⟨0, 32, .ro, 0⟩]⟩, -- SV_SD_AWAKE: 14_sleep_wake.md, R422
  ⟨0x320c, [⟨0, 15, 0x10⟩], none, .svc, .none, false, [⟨0, 32, .rc, 0⟩]⟩, -- SV_SD_FOLDS: 14_sleep_wake.md, R422
  ⟨0x3400, [⟨0, 15, 0x80⟩, ⟨0, 7, 0x10⟩], none, .svc, .none, false, [⟨0, 2, .ro, 0⟩, ⟨8, 6, .ro, 0⟩]⟩, -- SV_SD_TALK: 14_sleep_wake.md, R422
  ⟨0x3404, [⟨0, 15, 0x80⟩, ⟨0, 7, 0x10⟩], none, .svc, .none, false, [⟨0, 32, .ro, 0⟩]⟩, -- SV_SD_TALK_SRC_LO: 14_sleep_wake.md, R422
  ⟨0x3408, [⟨0, 15, 0x80⟩, ⟨0, 7, 0x10⟩], none, .svc, .none, false, [⟨0, 16, .ro, 0⟩]⟩, -- SV_SD_TALK_SRC_HI: 14_sleep_wake.md, R422
  ⟨0x340c, [⟨0, 15, 0x80⟩, ⟨0, 7, 0x10⟩], none, .svc, .none, false, [⟨0, 32, .ro, 0⟩]⟩, -- SV_SD_TALK_COUNT: 14_sleep_wake.md, R422
  ⟨0xc00, [], some 0, .svc, .none, false, [⟨0, 9, .rs, 0⟩, ⟨16, 8, .rs, 0x3c⟩]⟩, -- SV_UPD_CFG: 17_firmware_update.md, R489
  ⟨0xc40, [⟨0, 12, 0x20⟩], none, .svc, .none, false, [⟨0, 4, .wo, 0⟩, ⟨8, 8, .wo, 0⟩]⟩, -- SV_UPD_CMD: 17_firmware_update.md, R489
  ⟨0xc44, [⟨0, 12, 0x20⟩], none, .svc, .none, false, [⟨0, 32, .rw, 0⟩]⟩, -- SV_UPD_ADDR_LO: 17_firmware_update.md, R489
  ⟨0xc48, [⟨0, 12, 0x20⟩], none, .svc, .none, false, [⟨0, 8, .rw, 0⟩]⟩, -- SV_UPD_ADDR_HI: 17_firmware_update.md, R489
  ⟨0xc4c, [⟨0, 12, 0x20⟩], none, .svc, .none, false, [⟨0, 1, .ro, 0⟩, ⟨1, 5, .ro, 0⟩, ⟨8, 8, .ro, 0⟩]⟩, -- SV_UPD_RESULT: 17_firmware_update.md, R489
  ⟨0xc04, [], none, .svc, .none, false, [⟨0, 2, .ro, 0⟩, ⟨4, 4, .ro, 0⟩, ⟨8, 8, .ro, 0⟩, ⟨16, 8, .ro, 0⟩, ⟨24, 1, .ro, 0⟩, ⟨25, 1, .ro, 0⟩]⟩, -- SV_UPD_STAT: 17_firmware_update.md, R491
  ⟨0xc08, [], none, .svc, .none, false, [⟨0, 7, .ro, 0⟩, ⟨8, 7, .ro, 0⟩, ⟨16, 7, .ro, 0⟩]⟩, -- SV_UPD_COUNTER: 17_firmware_update.md, R491
  ⟨0xc0c, [], none, .svc, .none, false, [⟨0, 32, .ro, 0⟩]⟩, -- SV_UPD_VERSION: 17_firmware_update.md, R491
  ⟨0xc10, [], none, .svc, .none, false, [⟨0, 3, .ro, 0⟩, ⟨4, 3, .ro, 0⟩, ⟨8, 9, .ro, 0⟩, ⟨17, 9, .ro, 0⟩]⟩, -- SV_UPD_LAST: 17_firmware_update.md, R491
  ⟨0xc14, [], none, .svc, .none, false, [⟨0, 32, .rc, 0⟩]⟩, -- SV_UPD_TAG_FAIL: 17_firmware_update.md, R491
  ⟨0x4000, [], none, .svc, .none, false, [⟨0, 8, .ro, 0⟩, ⟨16, 16, .ro, 0⟩]⟩, -- SV_FLT_HEAD: 18_observability_faults.md, R519
  ⟨0x4004, [], none, .svc, .none, false, [⟨0, 20, .rw1c, 0⟩]⟩, -- SV_FLT_PEND: 18_observability_faults.md, R519
  ⟨0x4008, [], some 0, .svc, .none, false, [⟨1, 19, .rs, 0x25568⟩]⟩ -- SV_FLT_PIN: 18_observability_faults.md, R519
]

/-- Registers of block SV, part 3. -/
def rowsSV2 : List RegRow := [
  ⟨0x400c, [], none, .svc, .none, false, [⟨0, 32, .rc, 0⟩]⟩, -- SV_FLT_OVERWRITTEN: 18_observability_faults.md, R519
  ⟨0x4010, [⟨1, 19, 4⟩], none, .svc, .none, false, [⟨0, 32, .rc, 0⟩]⟩, -- SV_FLT_COUNT: 18_observability_faults.md, R519
  ⟨0x4100, [⟨0, 255, 0x20⟩], none, .svc, .none, false, [⟨0, 8, .ro, 0⟩, ⟨16, 16, .ro, 0⟩]⟩, -- SV_FLT_REC_W0: 18_observability_faults.md, R519
  ⟨0x4104, [⟨0, 255, 0x20⟩], none, .svc, .none, false, [⟨0, 32, .ro, 0⟩]⟩, -- SV_FLT_REC_W1: 18_observability_faults.md, R519
  ⟨0x4108, [⟨0, 255, 0x20⟩], none, .svc, .none, false, [⟨0, 32, .ro, 0⟩]⟩, -- SV_FLT_REC_W2: 18_observability_faults.md, R519
  ⟨0x410c, [⟨0, 255, 0x20⟩], none, .svc, .none, false, [⟨0, 16, .ro, 0⟩]⟩, -- SV_FLT_REC_W3: 18_observability_faults.md, R519
  ⟨0x4110, [⟨0, 255, 0x20⟩], none, .svc, .none, false, [⟨0, 30, .ro, 0⟩]⟩, -- SV_FLT_REC_W4: 18_observability_faults.md, R519
  ⟨0x4114, [⟨0, 255, 0x20⟩], none, .svc, .none, false, [⟨0, 32, .ro, 0⟩]⟩, -- SV_FLT_REC_W5: 18_observability_faults.md, R519
  ⟨0x4118, [⟨0, 255, 0x20⟩], none, .svc, .none, false, [⟨0, 16, .ro, 0⟩]⟩, -- SV_FLT_REC_W6: 18_observability_faults.md, R519
  ⟨0x411c, [⟨0, 255, 0x20⟩], none, .svc, .none, false, [⟨0, 32, .ro, 0⟩]⟩, -- SV_FLT_REC_W7: 18_observability_faults.md, R519
  ⟨0x6200, [], none, .svc, .none, false, [⟨0, 32, .ro, 0⟩]⟩, -- SV_LEDGER_STAT: 18_observability_faults.md, R519
  ⟨0x6204, [], none, .svc, .none, false, [⟨0, 32, .ro, 0⟩]⟩, -- SV_LEDGER_OLDEST: 18_observability_faults.md, R519
  ⟨0x6208, [], none, .svc, .none, false, [⟨0, 32, .rc, 0⟩]⟩, -- SV_LEDGER_LOST: 18_observability_faults.md, R519
  ⟨0x620c, [], none, .svc, .none, false, [⟨0, 32, .rw, 0⟩]⟩, -- SV_LEDGER_FROM: 18_observability_faults.md, R519
  ⟨0x6210, [], none, .svc, .none, false, [⟨0, 14, .rw, 0⟩]⟩, -- SV_LEDGER_COUNT: 18_observability_faults.md, R519
  ⟨0x6214, [], none, .svc, .none, false, [⟨0, 1, .wo, 0⟩]⟩, -- SV_LEDGER_CMD: 18_observability_faults.md, R519
  ⟨0x6218, [], none, .svc, .none, false, [⟨0, 1, .ro, 0⟩, ⟨1, 2, .ro, 0⟩, ⟨16, 16, .ro, 0⟩]⟩, -- SV_LEDGER_RES: 18_observability_faults.md, R519
  ⟨0x621c, [], none, .svc, .none, false, [⟨0, 32, .ro, 0⟩]⟩ -- SV_LEDGER_BAD: 18_observability_faults.md, R519
]

/-- All registers of block SV. -/
def rowsSV : List RegRow := rowsSV0 ++ rowsSV1 ++ rowsSV2

/-- Registers of block PX, part 1. -/
def rowsPX0 : List RegRow := [
  ⟨0x1100000, [⟨0, 7, 0x1000⟩], some 1, .mac, .none, false, [⟨0, 1, .rs, 0⟩, ⟨1, 3, .rs, 0⟩, ⟨4, 2, .rs, 2⟩, ⟨6, 1, .rs, 1⟩, ⟨7, 3, .rs, 7⟩, ⟨10, 1, .rs, 1⟩]⟩, -- PX_PORT_CFG: 05_ports.md, R151
  ⟨0x1100000, [⟨8, 23, 0x1000⟩], some 1, .mac, .none, false, [⟨0, 1, .rs, 0⟩, ⟨1, 3, .rs, 1⟩, ⟨4, 2, .rs, 0⟩, ⟨6, 1, .rs, 1⟩, ⟨7, 3, .rs, 7⟩, ⟨10, 1, .rs, 1⟩]⟩, -- PX_PORT_CFG: 05_ports.md, R151
  ⟨0x1100000, [⟨24, 35, 0x1000⟩], some 1, .t1s, .none, false, [⟨0, 1, .rs, 0⟩, ⟨4, 2, .rs, 0⟩, ⟨6, 1, .rs, 1⟩, ⟨7, 3, .rs, 7⟩, ⟨10, 1, .rs, 1⟩]⟩, -- PX_PORT_CFG: 05_ports.md, R151
  ⟨0x1100000, [⟨40, 40, 0x1000⟩], some 1, .rgmii, .none, false, [⟨0, 1, .rs, 1⟩, ⟨4, 2, .rs, 0⟩, ⟨6, 1, .rs, 1⟩, ⟨7, 3, .rs, 7⟩, ⟨10, 1, .rs, 1⟩]⟩, -- PX_PORT_CFG: 05_ports.md, R151
  ⟨0x1100004, [⟨0, 40, 0x1000⟩], some 1, .mac, .none, false, [⟨0, 8, .rs, 0x40⟩, ⟨16, 14, .rs, 0x5f2⟩]⟩, -- PX_LEN_CFG: 05_ports.md, R152
  ⟨0x110000c, [⟨0, 35, 0x1000⟩], some 1, .mac, .none, false, [⟨0, 16, .rs, 0xfa50⟩]⟩, -- PX_TCMQ: 05_ports.md, R152
  ⟨0x110000c, [⟨40, 40, 0x1000⟩], some 1, .rgmii, .none, false, [⟨0, 16, .rs, 0xfa50⟩]⟩, -- PX_TCMQ: 05_ports.md, R152
  ⟨0x1100008, [⟨0, 23, 0x1000⟩], some 1, .mac, .none, false, [⟨0, 2, .rs, 0⟩, ⟨8, 8, .rs, 0⟩, ⟨16, 8, .rs, 0x14⟩, ⟨24, 8, .rs, 0x64⟩]⟩, -- PX_FC_CFG: 05_ports.md, R153
  ⟨0x1100008, [⟨40, 40, 0x1000⟩], some 1, .rgmii, .none, false, [⟨0, 2, .rs, 0⟩, ⟨8, 8, .rs, 0⟩, ⟨16, 8, .rs, 0x14⟩, ⟨24, 8, .rs, 0x64⟩]⟩, -- PX_FC_CFG: 05_ports.md, R153
  ⟨0x1100040, [⟨24, 35, 0x1000⟩], some 1, .t1s, .none, false, [⟨0, 1, .rs, 1⟩, ⟨8, 8, .rs, 0⟩, ⟨16, 8, .rs, 8⟩, ⟨24, 8, .rs, 0x20⟩]⟩, -- PX_PLCA_CFG: 05_ports.md, R154
  ⟨0x1100044, [⟨24, 35, 0x1000⟩], some 1, .t1s, .none, false, [⟨0, 8, .rs, 0⟩, ⟨8, 8, .rs, 0x80⟩]⟩, -- PX_PLCA_BURST: 05_ports.md, R154
  ⟨0x1100048, [⟨24, 35, 0x1000⟩], some 1, .t1s, .none, false, [⟨0, 8, .rs, 0x14⟩, ⟨8, 4, .rs, 4⟩, ⟨12, 3, .rs, 0⟩, ⟨16, 4, .rs, 3⟩, ⟨24, 8, .rs, 0⟩]⟩, -- PX_T1S_GUARD: 05_ports.md, R154
  ⟨0x110004c, [⟨24, 35, 0x1000⟩], none, .t1s, .none, false, [⟨0, 1, .wo, 0⟩]⟩, -- PX_T1S_QREL: 05_ports.md, R154
  ⟨0x1128060, [], some 1, .rgmii, .none, false, [⟨0, 1, .rs, 1⟩, ⟨1, 2, .rs, 2⟩, ⟨3, 1, .rs, 0⟩, ⟨4, 1, .rs, 0⟩, ⟨8, 5, .rs, 0⟩]⟩, -- PX_RGMII_CFG: 05_ports.md, R155
  ⟨0x1000100, [], none, .svc, .none, false, [⟨0, 5, .rw, 0⟩, ⟨5, 5, .rw, 0⟩, ⟨10, 1, .rw, 0⟩, ⟨11, 1, .wo, 0⟩, ⟨12, 1, .ro, 0⟩, ⟨16, 16, .rw, 0⟩]⟩, -- PX_MDIO_CMD: 05_ports.md, R155
  ⟨0x1100020, [⟨0, 40, 0x1000⟩], none, .mac, .none, false, [⟨0, 1, .ro, 0⟩, ⟨1, 3, .ro, 7⟩, ⟨4, 1, .ro, 0⟩, ⟨5, 1, .ro, 0⟩, ⟨6, 1, .ro, 0⟩, ⟨7, 1, .ro, 0⟩, ⟨8, 1, .ro, 0⟩, ⟨9, 1, .ro, 0⟩, ⟨10, 2, .ro, 0⟩, ⟨16, 8, .ro, 0⟩]⟩, -- PX_PORT_STAT: 05_ports.md, R156
  ⟨0x1100100, [⟨0, 40, 0x1000⟩], none, .mac, .low, false, [⟨0, 32, .ro, 0⟩]⟩, -- PX_RX_FRAMES: 05_ports.md, R157 (low word)
  ⟨0x1100104, [⟨0, 40, 0x1000⟩], none, .mac, .high, false, [⟨0, 32, .ro, 0⟩]⟩, -- PX_RX_FRAMES: 05_ports.md, R157 (high word)
  ⟨0x1100108, [⟨0, 40, 0x1000⟩], none, .mac, .low, false, [⟨0, 32, .ro, 0⟩]⟩, -- PX_RX_BYTES: 05_ports.md, R157 (low word)
  ⟨0x110010c, [⟨0, 40, 0x1000⟩], none, .mac, .high, false, [⟨0, 32, .ro, 0⟩]⟩, -- PX_RX_BYTES: 05_ports.md, R157 (high word)
  ⟨0x1100110, [⟨0, 40, 0x1000⟩], none, .mac, .low, false, [⟨0, 32, .ro, 0⟩]⟩, -- PX_TX_FRAMES: 05_ports.md, R157 (low word)
  ⟨0x1100114, [⟨0, 40, 0x1000⟩], none, .mac, .high, false, [⟨0, 32, .ro, 0⟩]⟩, -- PX_TX_FRAMES: 05_ports.md, R157 (high word)
  ⟨0x1100118, [⟨0, 40, 0x1000⟩], none, .mac, .low, false, [⟨0, 32, .ro, 0⟩]⟩, -- PX_TX_BYTES: 05_ports.md, R157 (low word)
  ⟨0x110011c, [⟨0, 40, 0x1000⟩], none, .mac, .high, false, [⟨0, 32, .ro, 0⟩]⟩, -- PX_TX_BYTES: 05_ports.md, R157 (high word)
  ⟨0x1100120, [⟨0, 40, 0x1000⟩], none, .mac, .none, false, [⟨0, 32, .rc, 0⟩]⟩, -- PX_RX_RUNT: 05_ports.md, R157
  ⟨0x1100124, [⟨0, 40, 0x1000⟩], none, .mac, .none, false, [⟨0, 32, .rc, 0⟩]⟩, -- PX_RX_OVERSIZE: 05_ports.md, R157
  ⟨0x1100128, [⟨0, 40, 0x1000⟩], none, .mac, .none, false, [⟨0, 32, .rc, 0⟩]⟩, -- PX_RX_SYMBOL_ERR: 05_ports.md, R157
  ⟨0x110012c, [⟨0, 40, 0x1000⟩], none, .mac, .none, false, [⟨0, 32, .rc, 0⟩]⟩, -- PX_RX_FCS_ERR: 05_ports.md, R157
  ⟨0x1100130, [⟨0, 40, 0x1000⟩], none, .mac, .none, false, [⟨0, 32, .rc, 0⟩]⟩, -- PX_RX_MACCTL: 05_ports.md, R157
  ⟨0x1100134, [⟨0, 40, 0x1000⟩], none, .mac, .none, false, [⟨0, 32, .rc, 0⟩]⟩, -- PX_RX_CSUM_ERR: 05_ports.md, R157
  ⟨0x1100138, [⟨0, 23, 0x1000⟩], none, .mac, .none, false, [⟨0, 32, .rc, 0⟩]⟩, -- PX_PAUSE_IGNORED: 05_ports.md, R157
  ⟨0x1100138, [⟨40, 40, 0x1000⟩], none, .rgmii, .none, false, [⟨0, 32, .rc, 0⟩]⟩, -- PX_PAUSE_IGNORED: 05_ports.md, R157
  ⟨0x110013c, [⟨0, 23, 0x1000⟩], none, .mac, .none, false, [⟨0, 32, .rc, 0⟩]⟩, -- PX_PAUSE_WD_TRIPS: 05_ports.md, R157
  ⟨0x110013c, [⟨40, 40, 0x1000⟩], none, .rgmii, .none, false, [⟨0, 32, .rc, 0⟩]⟩, -- PX_PAUSE_WD_TRIPS: 05_ports.md, R157
  ⟨0x1100140, [⟨0, 35, 0x1000⟩], none, .mac, .none, false, [⟨0, 32, .rc, 0⟩]⟩, -- PX_STOMPED: 05_ports.md, R157
  ⟨0x1100140, [⟨40, 40, 0x1000⟩], none, .rgmii, .none, false, [⟨0, 32, .rc, 0⟩]⟩, -- PX_STOMPED: 05_ports.md, R157
  ⟨0x1100144, [⟨0, 35, 0x1000⟩], none, .mac, .none, false, [⟨0, 32, .rc, 0⟩]⟩, -- PX_TX_UNDERRUN: 05_ports.md, R157
  ⟨0x1100144, [⟨40, 40, 0x1000⟩], none, .rgmii, .none, false, [⟨0, 32, .rc, 0⟩]⟩, -- PX_TX_UNDERRUN: 05_ports.md, R157
  ⟨0x1100148, [⟨0, 40, 0x1000⟩], none, .mac, .none, false, [⟨0, 32, .rc, 0⟩]⟩, -- PX_LINK_DOWNS: 05_ports.md, R157
  ⟨0x1100150, [⟨24, 35, 0x1000⟩], none, .t1s, .none, false, [⟨0, 32, .rc, 0⟩]⟩ -- PX_T1S_BCN_LOSS: 05_ports.md, R157
]

/-- Registers of block PX, part 2. -/
def rowsPX1 : List RegRow := [
  ⟨0x1100154, [⟨24, 35, 0x1000⟩], none, .t1s, .none, false, [⟨0, 32, .rc, 0⟩]⟩, -- PX_T1S_IDCOL: 05_ports.md, R157
  ⟨0x1100158, [⟨24, 35, 0x1000⟩], none, .t1s, .none, false, [⟨0, 32, .rc, 0⟩]⟩, -- PX_T1S_JABBER: 05_ports.md, R157
  ⟨0x110015c, [⟨24, 35, 0x1000⟩], none, .t1s, .none, false, [⟨0, 32, .rc, 0⟩]⟩, -- PX_T1S_QUARANTINES: 05_ports.md, R157
  ⟨0x1000200, [⟨0, 8, 8⟩], none, .svc, .none, false, [⟨0, 32, .rw1c, 0⟩]⟩, -- PX_EVPORT_LO: 05_ports.md, R158
  ⟨0x1000204, [⟨0, 8, 8⟩], none, .svc, .none, false, [⟨0, 9, .rw1c, 0⟩]⟩ -- PX_EVPORT_HI: 05_ports.md, R158
]

/-- All registers of block PX. -/
def rowsPX : List RegRow := rowsPX0 ++ rowsPX1

/-- Registers of block SX, part 1. -/
def rowsSX0 : List RegRow := [
  ⟨0x2000000, [], some 2, .core, .none, false, [⟨0, 7, .rs, 0x5a⟩, ⟨8, 7, .rs, 0x50⟩, ⟨16, 7, .rs, 0x5a⟩, ⟨24, 7, .rs, 0x50⟩]⟩, -- SX_BUF_CFG: 06_buffer.md, R189
  ⟨0x2000004, [], some 2, .core, .none, false, [⟨0, 32, .rs, 0⟩]⟩, -- SX_CT_EN_LO: 06_buffer.md, R190
  ⟨0x2000008, [], some 2, .core, .none, false, [⟨0, 9, .rs, 0⟩]⟩, -- SX_CT_EN_HI: 06_buffer.md, R190
  ⟨0x2000010, [⟨0, 7, 4⟩], some 2, .core, .none, false, [⟨0, 4, .rs, 5⟩, ⟨4, 4, .rs, 6⟩, ⟨8, 1, .rs, 0⟩, ⟨16, 8, .rs, 0x40⟩]⟩, -- SX_TC_CFG: 06_buffer.md, R190
  ⟨0x2001000, [⟨0, 327, 4⟩], some 2, .core, .none, false, [⟨0, 8, .rs, 0x10⟩, ⟨12, 20, .rs, 0⟩]⟩, -- SX_QLIM: 06_buffer.md, R191
  ⟨0x2010000, [⟨0, 4095, 4⟩], some 2, .core, .none, true, [⟨0, 1, .rs, 0⟩]⟩, -- SX_MC_MODE: 06_buffer.md, R191
  ⟨0x2000100, [], none, .core, .none, false, [⟨0, 19, .ro, 0x40000⟩]⟩, -- SX_DIE_CELLS: 06_buffer.md, R193
  ⟨0x2000104, [], none, .core, .none, false, [⟨0, 19, .ro, 0x3eb80⟩]⟩, -- SX_DIE_FREE: 06_buffer.md, R193
  ⟨0x2000108, [], none, .core, .none, false, [⟨0, 19, .ro, 0⟩]⟩, -- SX_DIE_HELD: 06_buffer.md, R193
  ⟨0x200010c, [], none, .core, .none, false, [⟨0, 18, .ro, 0x1480⟩, ⟨31, 1, .ro, 0⟩]⟩, -- SX_RSV_TOTAL: 06_buffer.md, R193
  ⟨0x2000110, [], none, .core, .none, false, [⟨0, 21, .ro, 0⟩]⟩, -- SX_HAM_PAGES: 06_buffer.md, R193
  ⟨0x2000114, [], none, .core, .none, false, [⟨0, 21, .ro, 0⟩]⟩, -- SX_HAM_USED: 06_buffer.md, R193
  ⟨0x2000118, [], none, .core, .none, false, [⟨0, 9, .ro, 0⟩]⟩, -- SX_HAM_STAGE: 06_buffer.md, R193
  ⟨0x200011c, [], none, .core, .none, false, [⟨0, 2, .ro, 0⟩, ⟨2, 1, .ro, 0⟩]⟩, -- SX_HAM_STATE: 06_buffer.md, R193
  ⟨0x2002000, [⟨0, 327, 4⟩], none, .core, .none, false, [⟨0, 20, .ro, 0⟩, ⟨20, 1, .ro, 0⟩]⟩, -- SX_QSTAT: 06_buffer.md, R193
  ⟨0x2002800, [⟨0, 327, 4⟩], none, .core, .none, false, [⟨0, 21, .ro, 0⟩]⟩, -- SX_QHAM: 06_buffer.md, R193
  ⟨0x2003000, [⟨0, 327, 4⟩], none, .core, .none, false, [⟨0, 20, .rc, 0⟩]⟩, -- SX_QPEAK: 06_buffer.md, R193
  ⟨0x2007000, [⟨0, 15, 0x10⟩], none, .core, .none, false, [⟨0, 1, .ro, 1⟩, ⟨1, 1, .ro, 0⟩, ⟨2, 1, .ro, 0⟩, ⟨3, 6, .ro, 0⟩]⟩, -- SX_BANK_STAT: 06_buffer.md, R193
  ⟨0x2000130, [], none, .core, .none, false, [⟨0, 9, .ro, 0⟩, ⟨16, 9, .ro, 0⟩]⟩, -- SX_EV_LASTQ: 06_buffer.md, R193
  ⟨0x2000134, [], none, .core, .none, false, [⟨0, 6, .ro, 0⟩]⟩, -- SX_EV_LASTPORT: 06_buffer.md, R193
  ⟨0x2000138, [], none, .core, .none, false, [⟨0, 21, .ro, 0⟩]⟩, -- SX_HAM_RECLAIM: 06_buffer.md, R193
  ⟨0x2004000, [⟨0, 327, 4⟩], none, .core, .none, false, [⟨0, 32, .rc, 0⟩]⟩, -- SX_Q_DROP_THRESH: 06_buffer.md, R194
  ⟨0x2004800, [⟨0, 327, 4⟩], none, .core, .none, false, [⟨0, 32, .rc, 0⟩]⟩, -- SX_Q_DROP_HAMPER: 06_buffer.md, R194
  ⟨0x2005000, [⟨0, 327, 4⟩], none, .core, .none, false, [⟨0, 32, .rc, 0⟩]⟩, -- SX_Q_DROP_SPILLBW: 06_buffer.md, R194
  ⟨0x2005800, [⟨0, 327, 4⟩], none, .core, .none, false, [⟨0, 32, .rc, 0⟩]⟩, -- SX_Q_SPILLED: 06_buffer.md, R194
  ⟨0x2006000, [⟨0, 40, 0x40⟩], none, .core, .none, false, [⟨0, 32, .rc, 0⟩]⟩, -- SX_FLUSHED: 06_buffer.md, R194
  ⟨0x2006004, [⟨0, 40, 0x40⟩], none, .core, .none, false, [⟨0, 32, .rc, 0⟩]⟩, -- SX_AGED: 06_buffer.md, R194
  ⟨0x2006008, [⟨0, 40, 0x40⟩], none, .core, .none, false, [⟨0, 32, .rc, 0⟩]⟩, -- SX_DROP_NOCELL: 06_buffer.md, R194
  ⟨0x200600c, [⟨0, 40, 0x40⟩], none, .core, .none, false, [⟨0, 32, .rc, 0⟩]⟩, -- SX_DROP_DOWN: 06_buffer.md, R194
  ⟨0x2006010, [⟨0, 40, 0x40⟩], none, .core, .none, false, [⟨0, 32, .rc, 0⟩]⟩, -- SX_CT_FRAMES: 06_buffer.md, R194
  ⟨0x2007004, [⟨0, 15, 0x10⟩], none, .core, .none, false, [⟨0, 32, .rc, 0⟩]⟩, -- SX_BANK_CE: 06_buffer.md, R194
  ⟨0x2007008, [⟨0, 15, 0x10⟩], none, .core, .none, false, [⟨0, 32, .rc, 0⟩]⟩, -- SX_BANK_LOST: 06_buffer.md, R194
  ⟨0x2000120, [], none, .core, .none, false, [⟨0, 32, .rc, 0⟩]⟩, -- SX_HPAGE_LOST: 06_buffer.md, R194
  ⟨0x2000124, [], none, .core, .none, false, [⟨0, 21, .ro, 0⟩]⟩, -- SX_HPAGE_RETIRED: 06_buffer.md, R194
  ⟨0x2000128, [], none, .core, .none, false, [⟨0, 32, .rc, 0⟩]⟩, -- SX_DROP_VERDICT: 06_buffer.md, R194
  ⟨0x2410800, [⟨0, 40, 0x2000⟩, ⟨0, 255, 4⟩], some 5, .core, .none, true, [⟨0, 8, .rs, 0xff⟩, ⟨8, 24, .rs, 0⟩]⟩, -- SC_GCL: 08_policy_scheduling.md, R256
  ⟨0x2410000, [⟨0, 40, 0x2000⟩], some 5, .core, .none, false, [⟨0, 1, .rs, 0⟩, ⟨1, 2, .rs, 0⟩, ⟨3, 9, .rs, 1⟩]⟩, -- SC_PORT_CFG: 08_policy_scheduling.md, R257
  ⟨0x2410004, [⟨0, 40, 0x2000⟩], some 5, .core, .none, false, [⟨0, 30, .rs, 0⟩]⟩, -- SC_BASE_NS: 08_policy_scheduling.md, R257
  ⟨0x2410008, [⟨0, 40, 0x2000⟩], some 5, .core, .none, false, [⟨0, 32, .rs, 0⟩]⟩, -- SC_BASE_SEC_LO: 08_policy_scheduling.md, R257
  ⟨0x241000c, [⟨0, 40, 0x2000⟩], some 5, .core, .none, false, [⟨0, 16, .rs, 0⟩]⟩ -- SC_BASE_SEC_HI: 08_policy_scheduling.md, R257
]

/-- Registers of block SX, part 2. -/
def rowsSX1 : List RegRow := [
  ⟨0x2410010, [⟨0, 40, 0x2000⟩], some 5, .core, .none, false, [⟨0, 30, .rs, 0xf4240⟩]⟩, -- SC_CYCLE: 08_policy_scheduling.md, R257
  ⟨0x2410014, [⟨0, 40, 0x2000⟩], some 5, .core, .none, false, [⟨0, 20, .rs, 0x3e8⟩, ⟨20, 1, .rs, 0⟩]⟩, -- SC_LAUNCH_CFG: 08_policy_scheduling.md, R257
  ⟨0x2410020, [⟨0, 40, 0x2000⟩, ⟨0, 7, 4⟩], some 5, .core, .none, false, [⟨0, 2, .rs, 0⟩, ⟨2, 8, .rs, 0x18⟩, ⟨10, 1, .rs, 0⟩, ⟨12, 20, .rs, 0⟩]⟩, -- SC_TCQ: 08_policy_scheduling.md, R257
  ⟨0x2410040, [⟨0, 40, 0x2000⟩, ⟨0, 7, 4⟩], some 5, .core, .none, false, [⟨0, 24, .rs, 0⟩]⟩, -- SC_LOFS: 08_policy_scheduling.md, R257
  ⟨0x2470000, [⟨0, 40, 0x20⟩], none, .core, .none, false, [⟨0, 1, .ro, 0⟩, ⟨1, 1, .ro, 0⟩, ⟨2, 8, .ro, 0⟩, ⟨10, 8, .ro, 0xff⟩]⟩, -- SC_GCL_STAT: 08_policy_scheduling.md, R258
  ⟨0x2470004, [⟨0, 40, 0x20⟩], none, .core, .none, false, [⟨0, 32, .rc, 0⟩]⟩, -- SC_LATE_DROP: 08_policy_scheduling.md, R258
  ⟨0x2470008, [⟨0, 40, 0x20⟩], none, .core, .none, false, [⟨0, 32, .rc, 0⟩]⟩, -- SC_LATE_SENT: 08_policy_scheduling.md, R258
  ⟨0x247000c, [⟨0, 40, 0x20⟩], none, .core, .none, false, [⟨0, 32, .rc, 0⟩]⟩, -- SC_TOO_BIG: 08_policy_scheduling.md, R258
  ⟨0x2470010, [⟨0, 40, 0x20⟩], none, .core, .none, false, [⟨0, 32, .rc, 0⟩]⟩, -- SC_HORIZON_DROP: 08_policy_scheduling.md, R258
  ⟨0x2471000, [], none, .core, .none, false, [⟨0, 6, .ro, 0⟩]⟩ -- SC_EV_LAST: 08_policy_scheduling.md, R258
]

/-- All registers of block SX. -/
def rowsSX : List RegRow := rowsSX0 ++ rowsSX1

/-- Registers of block FX, part 1. -/
def rowsFX0 : List RegRow := [
  ⟨0x3100000, [⟨0, 4095, 0x10⟩], some 3, .core, .none, true, [⟨0, 32, .rs, 0⟩]⟩, -- FX_VLAN_W0: 07_forwarding.md, R227
  ⟨0x3100004, [⟨0, 0, 0x10⟩], some 3, .core, .none, true, [⟨0, 9, .rs, 0⟩, ⟨9, 12, .rs, 0⟩, ⟨21, 1, .rs, 0⟩, ⟨22, 1, .rs, 0⟩, ⟨23, 1, .rs, 0⟩, ⟨31, 1, .rs, 0⟩]⟩, -- FX_VLAN_W1: 07_forwarding.md, R227
  ⟨0x3100004, [⟨1, 1, 0x10⟩], some 3, .core, .none, true, [⟨0, 9, .rs, 0x180⟩, ⟨9, 12, .rs, 1⟩, ⟨21, 1, .rs, 1⟩, ⟨22, 1, .rs, 0⟩, ⟨23, 1, .rs, 0⟩, ⟨31, 1, .rs, 1⟩]⟩, -- FX_VLAN_W1: 07_forwarding.md, R227
  ⟨0x3100004, [⟨2, 4095, 0x10⟩], some 3, .core, .none, true, [⟨0, 9, .rs, 0⟩, ⟨9, 12, .rs, 0⟩, ⟨21, 1, .rs, 0⟩, ⟨22, 1, .rs, 0⟩, ⟨23, 1, .rs, 0⟩, ⟨31, 1, .rs, 0⟩]⟩, -- FX_VLAN_W1: 07_forwarding.md, R227
  ⟨0x3100008, [⟨0, 4095, 0x10⟩], some 3, .core, .none, true, [⟨0, 32, .rs, 0⟩]⟩, -- FX_VLAN_W2: 07_forwarding.md, R227
  ⟨0x310000c, [⟨0, 0, 0x10⟩], some 3, .core, .none, true, [⟨0, 9, .rs, 0⟩, ⟨16, 12, .rs, 0⟩]⟩, -- FX_VLAN_W3: 07_forwarding.md, R227
  ⟨0x310000c, [⟨1, 1, 0x10⟩], some 3, .core, .none, true, [⟨0, 9, .rs, 0x180⟩, ⟨16, 12, .rs, 0⟩]⟩, -- FX_VLAN_W3: 07_forwarding.md, R227
  ⟨0x310000c, [⟨2, 4095, 0x10⟩], some 3, .core, .none, true, [⟨0, 9, .rs, 0⟩, ⟨16, 12, .rs, 0⟩]⟩, -- FX_VLAN_W3: 07_forwarding.md, R227
  ⟨0x3140000, [⟨0, 8191, 0x10⟩], some 3, .core, .none, true, [⟨0, 32, .rs, 0⟩]⟩, -- FX_FDB_STATIC_W0: 07_forwarding.md, R227
  ⟨0x3140004, [⟨0, 8191, 0x10⟩], some 3, .core, .none, true, [⟨0, 16, .rs, 0⟩, ⟨16, 12, .rs, 0⟩, ⟨31, 1, .rs, 0⟩]⟩, -- FX_FDB_STATIC_W1: 07_forwarding.md, R227
  ⟨0x3140008, [⟨0, 8191, 0x10⟩], some 3, .core, .none, true, [⟨0, 12, .rs, 0⟩, ⟨12, 2, .rs, 0⟩]⟩, -- FX_FDB_STATIC_W2: 07_forwarding.md, R227
  ⟨0x3160000, [⟨0, 4095, 8⟩], some 3, .core, .none, true, [⟨0, 32, .rs, 0⟩]⟩, -- FX_MC_GROUP_W0: 07_forwarding.md, R227
  ⟨0x3160004, [⟨0, 4095, 8⟩], some 3, .core, .none, true, [⟨0, 9, .rs, 0⟩]⟩, -- FX_MC_GROUP_W1: 07_forwarding.md, R227
  ⟨0x3200000, [⟨0, 16383, 0x20⟩, ⟨0, 3, 4⟩], some 3, .core, .none, true, [⟨0, 32, .rs, 0⟩]⟩, -- FX_HOST_A: 07_forwarding.md, R227
  ⟨0x3200010, [⟨0, 16383, 0x20⟩], some 3, .core, .none, true, [⟨0, 12, .rs, 0⟩, ⟨29, 1, .rs, 0⟩, ⟨31, 1, .rs, 0⟩]⟩, -- FX_HOST_W4: 07_forwarding.md, R227
  ⟨0x3280000, [⟨0, 8191, 8⟩], some 3, .core, .none, true, [⟨0, 32, .rs, 0⟩]⟩, -- FX_PREFIX_W0: 07_forwarding.md, R227
  ⟨0x3280004, [⟨0, 8191, 8⟩], some 3, .core, .none, true, [⟨0, 8, .rs, 0⟩, ⟨8, 12, .rs, 0⟩, ⟨29, 1, .rs, 0⟩, ⟨31, 1, .rs, 0⟩]⟩, -- FX_PREFIX_W1: 07_forwarding.md, R227
  ⟨0x3290000, [⟨0, 4095, 0x10⟩], some 3, .core, .none, true, [⟨0, 32, .rs, 0⟩]⟩, -- FX_NEXTHOP_W0: 07_forwarding.md, R227
  ⟨0x3290004, [⟨0, 4095, 0x10⟩], some 3, .core, .none, true, [⟨0, 16, .rs, 0⟩, ⟨16, 12, .rs, 0⟩, ⟨31, 1, .rs, 0⟩]⟩, -- FX_NEXTHOP_W1: 07_forwarding.md, R227
  ⟨0x3290008, [⟨0, 4095, 0x10⟩], some 3, .core, .none, true, [⟨0, 6, .rs, 0⟩, ⟨6, 1, .rs, 0⟩, ⟨7, 1, .rs, 0⟩]⟩, -- FX_NEXTHOP_W2: 07_forwarding.md, R227
  ⟨0x32a0000, [⟨0, 2047, 0x40⟩, ⟨0, 3, 4⟩], some 3, .core, .none, true, [⟨0, 32, .rs, 0⟩]⟩, -- FX_XLAT_ORIG: 07_forwarding.md, R227
  ⟨0x32a0010, [⟨0, 2047, 0x40⟩, ⟨0, 3, 4⟩], some 3, .core, .none, true, [⟨0, 32, .rs, 0⟩]⟩, -- FX_XLAT_NEW: 07_forwarding.md, R227
  ⟨0x32a0020, [⟨0, 2047, 0x40⟩], some 3, .core, .none, true, [⟨0, 8, .rs, 0⟩, ⟨8, 1, .rs, 0⟩, ⟨9, 1, .rs, 0⟩, ⟨31, 1, .rs, 0⟩]⟩, -- FX_XLAT_W8: 07_forwarding.md, R227
  ⟨0x32a0024, [⟨0, 2047, 0x40⟩], some 3, .core, .none, true, [⟨0, 12, .rs, 0⟩]⟩, -- FX_XLAT_W9: 07_forwarding.md, R227
  ⟨0x32c0000, [⟨0, 15, 0x10⟩], some 3, .core, .none, true, [⟨0, 6, .rs, 0⟩, ⟨8, 6, .rs, 0⟩, ⟨16, 6, .rs, 0⟩, ⟨24, 6, .rs, 0⟩]⟩, -- FX_PG_W0: 07_forwarding.md, R227
  ⟨0x32c0004, [⟨0, 15, 0x10⟩], some 3, .core, .none, true, [⟨0, 6, .rs, 0⟩, ⟨8, 6, .rs, 0⟩, ⟨16, 6, .rs, 0⟩, ⟨24, 6, .rs, 0⟩]⟩, -- FX_PG_W1: 07_forwarding.md, R227
  ⟨0x32c0008, [⟨0, 15, 0x10⟩], some 3, .core, .none, true, [⟨0, 8, .rs, 0⟩, ⟨8, 8, .rs, 0xa⟩, ⟨16, 11, .rs, 0x60⟩]⟩, -- FX_PG_W2: 07_forwarding.md, R227
  ⟨0x32c000c, [⟨0, 15, 0x10⟩], some 3, .core, .none, true, [⟨0, 32, .rs, 0xffffffff⟩]⟩, -- FX_PG_W3: 07_forwarding.md, R227
  ⟨0x3300000, [⟨0, 1023, 0x20⟩], some 4, .core, .none, true, [⟨0, 2, .rs, 0⟩, ⟨31, 1, .rs, 0⟩]⟩, -- FX_STREAM_ID_W0: 07_forwarding.md, R227
  ⟨0x3300004, [⟨0, 1023, 0x20⟩, ⟨0, 3, 4⟩], some 4, .core, .none, true, [⟨0, 32, .rs, 0⟩]⟩, -- FX_STREAM_ID_A: 07_forwarding.md, R227
  ⟨0x3300014, [⟨0, 1023, 0x20⟩], some 4, .core, .none, true, [⟨0, 16, .rs, 0⟩, ⟨16, 8, .rs, 0⟩, ⟨24, 6, .rs, 0⟩]⟩, -- FX_STREAM_ID_W5: 07_forwarding.md, R227
  ⟨0x3300018, [⟨0, 1023, 0x20⟩], some 4, .core, .none, true, [⟨0, 1, .rs, 0⟩, ⟨1, 1, .rs, 0⟩, ⟨2, 1, .rs, 0⟩, ⟨3, 1, .rs, 0⟩]⟩, -- FX_STREAM_ID_W6: 07_forwarding.md, R227
  ⟨0x330001c, [⟨0, 1023, 0x20⟩], some 4, .core, .none, true, [⟨0, 12, .rs, 0⟩]⟩, -- FX_STREAM_ID_W7: 07_forwarding.md, R227
  ⟨0x3310000, [⟨0, 1023, 0x10⟩], some 4, .core, .none, true, [⟨0, 1, .rs, 0⟩, ⟨1, 1, .rs, 0⟩, ⟨2, 1, .rs, 0⟩, ⟨3, 1, .rs, 0⟩, ⟨4, 5, .rs, 0⟩]⟩, -- FX_FRER_W0: 07_forwarding.md, R227
  ⟨0x3310004, [⟨0, 1023, 0x10⟩], some 4, .core, .none, true, [⟨0, 16, .rs, 0x3e8⟩]⟩, -- FX_FRER_W1: 07_forwarding.md, R227
  ⟨0x3310008, [⟨0, 1023, 0x10⟩], some 4, .core, .none, true, [⟨0, 32, .rs, 0⟩]⟩, -- FX_FRER_W2: 07_forwarding.md, R227
  ⟨0x331000c, [⟨0, 1023, 0x10⟩], some 4, .core, .none, true, [⟨0, 9, .rs, 0⟩]⟩, -- FX_FRER_W3: 07_forwarding.md, R227
  ⟨0x3000000, [], some 3, .core, .none, false, [⟨0, 8, .rs, 0xa⟩, ⟨16, 16, .rs, 0x12c⟩]⟩, -- FX_FDB_CFG: 07_forwarding.md, R228
  ⟨0x3000004, [], some 3, .core, .none, false, [⟨0, 32, .rs, 0⟩]⟩, -- FX_RTR_MAC_LO: 07_forwarding.md, R228
  ⟨0x3000008, [], some 3, .core, .none, false, [⟨0, 16, .rs, 0⟩]⟩ -- FX_RTR_MAC_HI: 07_forwarding.md, R228
]

/-- Registers of block FX, part 2. -/
def rowsFX1 : List RegRow := [
  ⟨0x3001000, [⟨0, 40, 8⟩], some 3, .core, .none, false, [⟨0, 12, .rs, 1⟩, ⟨12, 2, .rs, 0⟩, ⟨14, 1, .rs, 1⟩, ⟨15, 1, .rs, 1⟩, ⟨16, 16, .rs, 0xffff⟩]⟩, -- FX_PORT_CFG: 07_forwarding.md, R228
  ⟨0x3000400, [], none, .core, .none, false, [⟨0, 3, .rw, 0⟩, ⟨3, 1, .rw, 0⟩, ⟨4, 1, .rw, 0⟩, ⟨5, 6, .rw, 0⟩, ⟨16, 1, .wo, 0⟩, ⟨17, 1, .ro, 0⟩, ⟨18, 3, .ro, 0⟩]⟩, -- FX_TBL_CMD: 07_forwarding.md, R229
  ⟨0x3000404, [], none, .core, .none, false, [⟨0, 32, .rw, 0⟩]⟩, -- FX_TBL_KEY_LO: 07_forwarding.md, R229
  ⟨0x3000408, [], none, .core, .none, false, [⟨0, 16, .rw, 0⟩, ⟨16, 12, .rw, 0⟩]⟩, -- FX_TBL_KEY_HI: 07_forwarding.md, R229
  ⟨0x300040c, [], none, .core, .none, false, [⟨0, 17, .rw, 0⟩]⟩, -- FX_TBL_INDEX: 07_forwarding.md, R229
  ⟨0x3000410, [], none, .core, .none, false, [⟨0, 32, .ro, 0⟩]⟩, -- FX_TBL_DATA_0: 07_forwarding.md, R229
  ⟨0x3000414, [], none, .core, .none, false, [⟨0, 16, .ro, 0⟩, ⟨16, 12, .ro, 0⟩, ⟨31, 1, .ro, 0⟩]⟩, -- FX_TBL_DATA_1: 07_forwarding.md, R229
  ⟨0x3000418, [], none, .core, .none, false, [⟨0, 12, .ro, 0⟩, ⟨12, 2, .ro, 0⟩, ⟨14, 1, .ro, 0⟩, ⟨16, 1, .ro, 0⟩, ⟨17, 1, .ro, 0⟩]⟩, -- FX_TBL_DATA_2: 07_forwarding.md, R229
  ⟨0x300041c, [], none, .core, .none, false, [⟨0, 16, .ro, 0⟩]⟩, -- FX_TBL_DATA_3: 07_forwarding.md, R229
  ⟨0x3000500, [], none, .core, .none, false, [⟨0, 16, .ro, 0⟩]⟩, -- FX_AGE_NOW: 07_forwarding.md, R230
  ⟨0x3000504, [], none, .core, .none, false, [⟨0, 6, .ro, 0⟩, ⟨8, 4, .ro, 0⟩, ⟨12, 14, .ro, 0⟩]⟩, -- FX_EV_LAST: 07_forwarding.md, R230
  ⟨0x3000508, [], none, .core, .none, false, [⟨0, 17, .ro, 0⟩]⟩, -- FX_FDB_COUNT: 07_forwarding.md, R230
  ⟨0x300050c, [], none, .core, .none, false, [⟨0, 9, .ro, 0⟩]⟩, -- FX_FDB_CAM_USED: 07_forwarding.md, R230
  ⟨0x3000600, [], none, .core, .none, false, [⟨0, 32, .rc, 0⟩]⟩, -- FX_FDB_INSERT_FAIL: 07_forwarding.md, R230
  ⟨0x3000604, [], none, .core, .none, false, [⟨0, 32, .rc, 0⟩]⟩, -- FX_FDB_MOVES: 07_forwarding.md, R230
  ⟨0x3000608, [], none, .core, .none, false, [⟨0, 32, .rc, 0⟩]⟩, -- FX_FDB_AGED: 07_forwarding.md, R230
  ⟨0x300060c, [], none, .core, .none, false, [⟨0, 32, .rc, 0⟩]⟩, -- FX_FDB_DISPLACED: 07_forwarding.md, R230
  ⟨0x3000610, [], none, .core, .none, false, [⟨0, 32, .rc, 0⟩]⟩, -- FX_FDB_STATIC_FAIL: 07_forwarding.md, R230
  ⟨0x3000614, [], none, .core, .none, false, [⟨0, 32, .rc, 0⟩]⟩, -- FX_FDB_STATIC_CONFLICT: 07_forwarding.md, R230
  ⟨0x3000618, [], none, .core, .none, false, [⟨0, 32, .rc, 0⟩]⟩, -- FX_DISCARD_HIT: 07_forwarding.md, R230
  ⟨0x300061c, [], none, .core, .none, false, [⟨0, 32, .rc, 0⟩]⟩, -- FX_UNREG_MC_DROP: 07_forwarding.md, R230
  ⟨0x3000620, [], none, .core, .none, false, [⟨0, 32, .rc, 0⟩]⟩, -- FX_ROUTE_MISS: 07_forwarding.md, R230
  ⟨0x3000624, [], none, .core, .none, false, [⟨0, 32, .rc, 0⟩]⟩, -- FX_TTL_EXPIRED: 07_forwarding.md, R230
  ⟨0x3000628, [], none, .core, .none, false, [⟨0, 32, .rc, 0⟩]⟩, -- FX_SRC_GROUP_DROP: 07_forwarding.md, R230
  ⟨0x300062c, [], none, .core, .none, false, [⟨0, 32, .rc, 0⟩]⟩, -- FX_TRAP: 07_forwarding.md, R230
  ⟨0x3000630, [], none, .core, .none, false, [⟨0, 32, .rc, 0⟩]⟩, -- FX_TBL_UE: 07_forwarding.md, R230
  ⟨0x3000634, [], none, .core, .none, false, [⟨0, 32, .rc, 0⟩]⟩, -- FX_PG_DROP_TOTAL: 07_forwarding.md, R230
  ⟨0x3002000, [⟨0, 40, 0x10⟩], none, .core, .none, false, [⟨0, 17, .ro, 0⟩]⟩, -- FX_LEARNED: 07_forwarding.md, R230
  ⟨0x3002004, [⟨0, 40, 0x10⟩], none, .core, .none, false, [⟨0, 32, .rc, 0⟩]⟩, -- FX_LEARN_LIM: 07_forwarding.md, R230
  ⟨0x3002008, [⟨0, 40, 0x10⟩], none, .core, .none, false, [⟨0, 32, .rc, 0⟩]⟩, -- FX_VLAN_DROP: 07_forwarding.md, R230
  ⟨0x300200c, [⟨0, 40, 0x10⟩], none, .core, .none, false, [⟨0, 32, .rc, 0⟩]⟩, -- FX_SAMEPORT: 07_forwarding.md, R230
  ⟨0x3003000, [⟨0, 15, 0x10⟩], none, .core, .none, false, [⟨0, 8, .ro, 0⟩]⟩, -- FX_PG_STAT: 07_forwarding.md, R230
  ⟨0x3003004, [⟨0, 15, 0x10⟩], none, .core, .none, false, [⟨0, 32, .rc, 0⟩]⟩, -- FX_PG_MOVES: 07_forwarding.md, R230
  ⟨0x3003008, [⟨0, 15, 0x10⟩], none, .core, .none, false, [⟨0, 32, .rc, 0⟩]⟩, -- FX_PG_NOMEMBER: 07_forwarding.md, R230
  ⟨0x3320000, [⟨0, 1023, 0x20⟩], none, .core, .none, false, [⟨0, 32, .rc, 0⟩]⟩, -- FX_STREAM_PASSED: 07_forwarding.md, R230
  ⟨0x3320004, [⟨0, 1023, 0x20⟩], none, .core, .none, false, [⟨0, 32, .rc, 0⟩]⟩, -- FX_STREAM_DISCARDED: 07_forwarding.md, R230
  ⟨0x3320008, [⟨0, 1023, 0x20⟩], none, .core, .none, false, [⟨0, 32, .rc, 0⟩]⟩, -- FX_STREAM_OUT_OF_ORDER: 07_forwarding.md, R230
  ⟨0x332000c, [⟨0, 1023, 0x20⟩], none, .core, .none, false, [⟨0, 32, .rc, 0⟩]⟩, -- FX_STREAM_ROGUE: 07_forwarding.md, R230
  ⟨0x3320010, [⟨0, 1023, 0x20⟩], none, .core, .none, false, [⟨0, 32, .rc, 0⟩]⟩, -- FX_STREAM_LOST: 07_forwarding.md, R230
  ⟨0x3320014, [⟨0, 1023, 0x20⟩], none, .core, .none, false, [⟨0, 32, .rc, 0⟩]⟩ -- FX_STREAM_TAGLESS: 07_forwarding.md, R230
]

/-- Registers of block FX, part 3. -/
def rowsFX2 : List RegRow := [
  ⟨0x3320018, [⟨0, 1023, 0x20⟩], none, .core, .none, false, [⟨0, 32, .rc, 0⟩]⟩, -- FX_STREAM_RESETS: 07_forwarding.md, R230
  ⟨0x3001004, [⟨0, 40, 8⟩], some 4, .core, .none, false, [⟨0, 3, .rs, 0⟩, ⟨4, 1, .rs, 0⟩, ⟨5, 1, .rs, 0⟩, ⟨8, 24, .rs, 0xfac688⟩]⟩, -- FX_QOS_CFG: 08_policy_scheduling.md, R254
  ⟨0x3400000, [⟨0, 4095, 0x80⟩, ⟨0, 9, 4⟩], some 4, .core, .none, true, [⟨0, 32, .rs, 0⟩]⟩, -- FX_ACL_KEY: 08_policy_scheduling.md, R256
  ⟨0x3400028, [⟨0, 4095, 0x80⟩, ⟨0, 9, 4⟩], some 4, .core, .none, true, [⟨0, 32, .rs, 0⟩]⟩, -- FX_ACL_MASK: 08_policy_scheduling.md, R256
  ⟨0x3400050, [⟨0, 4095, 0x80⟩], some 4, .core, .none, true, [⟨0, 2, .rs, 0⟩, ⟨2, 6, .rs, 0⟩, ⟨8, 1, .rs, 0⟩, ⟨9, 3, .rs, 0⟩, ⟨12, 1, .rs, 0⟩, ⟨13, 3, .rs, 0⟩, ⟨16, 1, .rs, 0⟩, ⟨17, 12, .rs, 0⟩]⟩, -- FX_ACL_W20: 08_policy_scheduling.md, R256
  ⟨0x3400054, [⟨0, 4095, 0x80⟩], some 4, .core, .none, true, [⟨31, 1, .rs, 0⟩]⟩, -- FX_ACL_W21: 08_policy_scheduling.md, R256
  ⟨0x3500000, [⟨0, 4095, 0x10⟩], some 4, .core, .none, true, [⟨0, 20, .rs, 0⟩, ⟨20, 1, .rs, 0⟩, ⟨21, 1, .rs, 0⟩, ⟨22, 1, .rs, 0⟩, ⟨23, 2, .rs, 0⟩, ⟨25, 3, .rs, 0⟩, ⟨28, 1, .rs, 0⟩, ⟨29, 1, .rs, 0⟩, ⟨31, 1, .rs, 0⟩]⟩, -- FX_POLICER_W0: 08_policy_scheduling.md, R256
  ⟨0x3500004, [⟨0, 4095, 0x10⟩], some 4, .core, .none, true, [⟨0, 20, .rs, 0⟩]⟩, -- FX_POLICER_W1: 08_policy_scheduling.md, R256
  ⟨0x3500008, [⟨0, 4095, 0x10⟩], some 4, .core, .none, true, [⟨0, 16, .rs, 0⟩, ⟨16, 16, .rs, 0⟩]⟩, -- FX_POLICER_W2: 08_policy_scheduling.md, R256
  ⟨0x3600000, [⟨0, 1023, 8⟩], some 4, .core, .none, true, [⟨0, 14, .rs, 0⟩, ⟨14, 1, .rs, 0⟩, ⟨15, 1, .rs, 0⟩, ⟨16, 8, .rs, 0⟩, ⟨24, 1, .rs, 0⟩, ⟨31, 1, .rs, 0⟩]⟩, -- FX_SFILTER_W0: 08_policy_scheduling.md, R256
  ⟨0x3600004, [⟨0, 1023, 8⟩], some 4, .core, .none, true, [⟨0, 12, .rs, 0⟩, ⟨12, 1, .rs, 0⟩, ⟨13, 1, .rs, 0⟩]⟩, -- FX_SFILTER_W1: 08_policy_scheduling.md, R256
  ⟨0x3680000, [⟨0, 255, 0x10⟩], some 4, .core, .none, true, [⟨0, 30, .rs, 0⟩]⟩, -- FX_SGATE_W0: 08_policy_scheduling.md, R256
  ⟨0x3680004, [⟨0, 255, 0x10⟩], some 4, .core, .none, true, [⟨0, 32, .rs, 0⟩]⟩, -- FX_SGATE_W1: 08_policy_scheduling.md, R256
  ⟨0x3680008, [⟨0, 255, 0x10⟩], some 4, .core, .none, true, [⟨0, 16, .rs, 0⟩, ⟨16, 2, .rs, 0⟩, ⟨18, 5, .rs, 0⟩, ⟨23, 1, .rs, 0⟩, ⟨31, 1, .rs, 0⟩]⟩, -- FX_SGATE_W2: 08_policy_scheduling.md, R256
  ⟨0x368000c, [⟨0, 255, 0x10⟩], some 4, .core, .none, true, [⟨0, 30, .rs, 0xf4240⟩]⟩, -- FX_SGATE_W3: 08_policy_scheduling.md, R256
  ⟨0x36a0000, [⟨0, 4095, 4⟩], some 4, .core, .none, true, [⟨0, 1, .rs, 0⟩, ⟨1, 1, .rs, 0⟩, ⟨2, 3, .rs, 0⟩, ⟨8, 24, .rs, 0⟩]⟩, -- FX_SGCL: 08_policy_scheduling.md, R256
  ⟨0x3000638, [], none, .core, .none, false, [⟨0, 32, .rc, 0⟩]⟩, -- FX_ACL_MISS: 08_policy_scheduling.md, R258
  ⟨0x3000510, [], none, .core, .none, false, [⟨0, 12, .ro, 0⟩, ⟨12, 10, .ro, 0⟩, ⟨22, 8, .ro, 0⟩]⟩, -- FX_EV_LAST2: 08_policy_scheduling.md, R258
  ⟨0x3000700, [], none, .core, .none, false, [⟨0, 10, .wo, 0⟩, ⟨10, 1, .wo, 0⟩, ⟨16, 8, .wo, 0⟩, ⟨24, 1, .wo, 0⟩]⟩, -- FX_PSFP_CLEAR: 08_policy_scheduling.md, R258
  ⟨0x3480000, [⟨0, 4095, 4⟩], none, .core, .none, false, [⟨0, 32, .rc, 0⟩]⟩, -- FX_ACL_HITS: 08_policy_scheduling.md, R258
  ⟨0x3580000, [⟨0, 4095, 0x10⟩], none, .core, .none, false, [⟨0, 32, .rc, 0⟩]⟩, -- FX_POL_GREEN: 08_policy_scheduling.md, R258
  ⟨0x3580004, [⟨0, 4095, 0x10⟩], none, .core, .none, false, [⟨0, 32, .rc, 0⟩]⟩, -- FX_POL_YELLOW: 08_policy_scheduling.md, R258
  ⟨0x3580008, [⟨0, 4095, 0x10⟩], none, .core, .none, false, [⟨0, 32, .rc, 0⟩]⟩, -- FX_POL_RED: 08_policy_scheduling.md, R258
  ⟨0x3700000, [⟨0, 1023, 0x20⟩], none, .core, .none, false, [⟨0, 32, .rc, 0⟩]⟩, -- FX_SF_MATCHED: 08_policy_scheduling.md, R258
  ⟨0x3700004, [⟨0, 1023, 0x20⟩], none, .core, .none, false, [⟨0, 32, .rc, 0⟩]⟩, -- FX_SF_PASSED: 08_policy_scheduling.md, R258
  ⟨0x3700008, [⟨0, 1023, 0x20⟩], none, .core, .none, false, [⟨0, 32, .rc, 0⟩]⟩, -- FX_SF_SDU_DROP: 08_policy_scheduling.md, R258
  ⟨0x370000c, [⟨0, 1023, 0x20⟩], none, .core, .none, false, [⟨0, 32, .rc, 0⟩]⟩, -- FX_SF_GATE_DROP: 08_policy_scheduling.md, R258
  ⟨0x3700010, [⟨0, 1023, 0x20⟩], none, .core, .none, false, [⟨0, 32, .rc, 0⟩]⟩, -- FX_SF_RED_DROP: 08_policy_scheduling.md, R258
  ⟨0x3700014, [⟨0, 1023, 0x20⟩], none, .core, .none, false, [⟨0, 1, .ro, 0⟩, ⟨1, 1, .ro, 0⟩]⟩, -- FX_SF_STAT: 08_policy_scheduling.md, R258
  ⟨0x36c0000, [⟨0, 255, 4⟩], none, .core, .none, false, [⟨0, 1, .ro, 0⟩, ⟨1, 1, .ro, 0⟩, ⟨2, 4, .ro, 0⟩]⟩ -- FX_SGATE_STAT: 08_policy_scheduling.md, R258
]

/-- All registers of block FX. -/
def rowsFX : List RegRow := rowsFX0 ++ rowsFX1 ++ rowsFX2

/-- Registers of block TE, part 1. -/
def rowsTE0 : List RegRow := [
  ⟨0x4001000, [⟨0, 3, 0x100⟩], none, .time, .none, false, [⟨0, 30, .ro, 0⟩]⟩, -- TE_TI_NS: 09_time.md, R282
  ⟨0x4001004, [⟨0, 3, 0x100⟩], none, .time, .none, false, [⟨0, 32, .ro, 0⟩]⟩, -- TE_TI_SEC_LO: 09_time.md, R282
  ⟨0x4001008, [⟨0, 3, 0x100⟩], none, .time, .none, false, [⟨0, 16, .ro, 0⟩]⟩, -- TE_TI_SEC_HI: 09_time.md, R282
  ⟨0x400100c, [⟨0, 3, 0x100⟩], none, .time, .none, false, [⟨0, 32, .ro, 0⟩]⟩, -- TE_TI_FRAC: 09_time.md, R282
  ⟨0x4001010, [⟨0, 3, 0x100⟩], some 6, .time, .none, false, [⟨0, 32, .rs, 0⟩]⟩, -- TE_TI_INC: 09_time.md, R282
  ⟨0x4001014, [⟨0, 3, 0x100⟩], some 6, .time, .none, false, [⟨0, 8, .rs, 2⟩, ⟨8, 1, .rs, 0⟩]⟩, -- TE_TI_CFG: 09_time.md, R282
  ⟨0x4001018, [⟨0, 3, 0x100⟩], some 6, .time, .none, false, [⟨0, 32, .rs, 0x3e8⟩]⟩, -- TE_TI_JUMP: 09_time.md, R282
  ⟨0x400101c, [⟨0, 3, 0x100⟩], none, .time, .none, false, [⟨0, 32, .rw, 0⟩]⟩, -- TE_TI_ADJ: 09_time.md, R282
  ⟨0x4001020, [⟨0, 3, 0x100⟩], none, .time, .none, false, [⟨0, 32, .rw, 0⟩]⟩, -- TE_TI_STEP_LO: 09_time.md, R282
  ⟨0x4001024, [⟨0, 3, 0x100⟩], none, .time, .none, false, [⟨0, 32, .rw, 0⟩]⟩, -- TE_TI_STEP_HI: 09_time.md, R282
  ⟨0x4001028, [⟨0, 3, 0x100⟩], none, .time, .none, false, [⟨0, 30, .rw, 0⟩]⟩, -- TE_TI_SET_NS: 09_time.md, R282
  ⟨0x400102c, [⟨0, 3, 0x100⟩], none, .time, .none, false, [⟨0, 32, .rw, 0⟩]⟩, -- TE_TI_SET_SEC_LO: 09_time.md, R282
  ⟨0x4001030, [⟨0, 3, 0x100⟩], none, .time, .none, false, [⟨0, 16, .rw, 0⟩]⟩, -- TE_TI_SET_SEC_HI: 09_time.md, R282
  ⟨0x4001034, [⟨0, 3, 0x100⟩], none, .time, .none, false, [⟨0, 2, .wo, 0⟩, ⟨8, 1, .ro, 0⟩, ⟨9, 3, .ro, 0⟩]⟩, -- TE_TI_CMD: 09_time.md, R282
  ⟨0x4001038, [⟨0, 3, 0x100⟩], none, .time, .none, false, [⟨0, 1, .ro, 0⟩, ⟨1, 1, .ro, 0⟩, ⟨2, 1, .ro, 0⟩, ⟨3, 1, .rw1c, 0⟩]⟩, -- TE_TI_STAT: 09_time.md, R282
  ⟨0x400103c, [⟨0, 3, 0x100⟩], none, .time, .none, false, [⟨0, 32, .rc, 0⟩]⟩, -- TE_TI_STEPS: 09_time.md, R282
  ⟨0x4001040, [⟨0, 3, 0x100⟩], none, .time, .none, false, [⟨0, 32, .rc, 0⟩]⟩, -- TE_TI_REFUSED: 09_time.md, R282
  ⟨0x4002000, [⟨0, 3, 0x40⟩], some 6, .svc, .none, false, [⟨0, 1, .rs, 0⟩, ⟨1, 7, .rs, 0⟩, ⟨8, 1, .rs, 0⟩, ⟨9, 3, .rs, 2⟩, ⟨16, 8, .rs, 0xf8⟩]⟩, -- TE_AS_CFG: 09_time.md, R283
  ⟨0x4002004, [⟨0, 3, 0x40⟩], some 6, .svc, .none, false, [⟨0, 24, .rs, 0⟩]⟩, -- TE_AS_PORTS_LO: 09_time.md, R283
  ⟨0x4002008, [⟨0, 3, 0x40⟩], some 6, .svc, .none, false, [⟨8, 1, .rs, 0⟩]⟩, -- TE_AS_PORTS_HI: 09_time.md, R283
  ⟨0x400200c, [⟨0, 3, 0x40⟩], some 6, .svc, .none, false, [⟨0, 10, .rs, 0x64⟩, ⟨16, 8, .rs, 0x14⟩]⟩, -- TE_AS_GUARD: 09_time.md, R283
  ⟨0x4002010, [⟨0, 3, 0x40⟩], none, .svc, .none, false, [⟨0, 3, .ro, 0⟩]⟩, -- TE_AS_STAT: 09_time.md, R283
  ⟨0x4002014, [⟨0, 3, 0x40⟩], none, .svc, .none, false, [⟨0, 32, .ro, 0⟩]⟩, -- TE_AS_OFFSET: 09_time.md, R283
  ⟨0x4002018, [⟨0, 3, 0x40⟩], none, .svc, .none, false, [⟨0, 32, .ro, 0⟩]⟩, -- TE_AS_GMID_LO: 09_time.md, R283
  ⟨0x400201c, [⟨0, 3, 0x40⟩], none, .svc, .none, false, [⟨0, 32, .ro, 0⟩]⟩, -- TE_AS_GMID_HI: 09_time.md, R283
  ⟨0x4004000, [⟨0, 40, 0x10⟩], some 6, .time, .none, false, [⟨0, 2, .rs, 0⟩]⟩, -- TE_PORT_CFG: 09_time.md, R284
  ⟨0x4004004, [⟨0, 35, 0x10⟩], some 6, .time, .none, false, [⟨0, 24, .rs, 0⟩]⟩, -- TE_PORT_RXLAT: 09_time.md, R284
  ⟨0x4004004, [⟨40, 40, 0x10⟩], some 6, .time, .none, false, [⟨0, 24, .rs, 0⟩]⟩, -- TE_PORT_RXLAT: 09_time.md, R284
  ⟨0x4004008, [⟨0, 35, 0x10⟩], some 6, .time, .none, false, [⟨0, 24, .rs, 0⟩]⟩, -- TE_PORT_TXLAT: 09_time.md, R284
  ⟨0x4004008, [⟨40, 40, 0x10⟩], some 6, .time, .none, false, [⟨0, 24, .rs, 0⟩]⟩, -- TE_PORT_TXLAT: 09_time.md, R284
  ⟨0x4005000, [⟨0, 1, 0x20⟩], some 6, .time, .none, false, [⟨0, 2, .rs, 0⟩, ⟨2, 2, .rs, 0⟩]⟩, -- TE_TSI_CFG: 09_time.md, R285
  ⟨0x4005004, [⟨0, 1, 0x20⟩], none, .time, .none, false, [⟨0, 30, .rc, 0⟩, ⟨31, 1, .rc, 0⟩]⟩, -- TE_TSI_NS: 09_time.md, R285
  ⟨0x4005008, [⟨0, 1, 0x20⟩], none, .time, .none, false, [⟨0, 32, .ro, 0⟩]⟩, -- TE_TSI_SEC_LO: 09_time.md, R285
  ⟨0x400500c, [⟨0, 1, 0x20⟩], none, .time, .none, false, [⟨0, 16, .ro, 0⟩, ⟨16, 1, .ro, 0⟩, ⟨24, 8, .ro, 0⟩]⟩, -- TE_TSI_SEC_HI: 09_time.md, R285
  ⟨0x4005010, [⟨0, 1, 0x20⟩], none, .time, .none, false, [⟨0, 32, .rc, 0⟩]⟩, -- TE_TSI_LOST: 09_time.md, R285
  ⟨0x4005100, [⟨0, 1, 0x20⟩], some 6, .time, .none, false, [⟨0, 2, .rs, 0⟩, ⟨2, 2, .rs, 0⟩, ⟨4, 1, .rs, 0⟩]⟩, -- TE_TSO_CFG: 09_time.md, R286
  ⟨0x4005104, [⟨0, 1, 0x20⟩], some 6, .time, .none, false, [⟨0, 30, .rs, 0⟩]⟩, -- TE_TSO_START_NS: 09_time.md, R286
  ⟨0x4005108, [⟨0, 1, 0x20⟩], some 6, .time, .none, false, [⟨0, 32, .rs, 0⟩]⟩, -- TE_TSO_START_SEC_LO: 09_time.md, R286
  ⟨0x400510c, [⟨0, 1, 0x20⟩], some 6, .time, .none, false, [⟨0, 16, .rs, 0⟩]⟩, -- TE_TSO_START_SEC_HI: 09_time.md, R286
  ⟨0x4005110, [⟨0, 1, 0x20⟩], some 6, .time, .none, false, [⟨0, 30, .rs, 0x3b9aca00⟩]⟩ -- TE_TSO_PERIOD: 09_time.md, R286
]

/-- Registers of block TE, part 2. -/
def rowsTE1 : List RegRow := [
  ⟨0x4005114, [⟨0, 1, 0x20⟩], some 6, .time, .none, false, [⟨0, 30, .rs, 0x186a0⟩]⟩, -- TE_TSO_WIDTH: 09_time.md, R286
  ⟨0x4005118, [⟨0, 1, 0x20⟩], none, .time, .none, false, [⟨0, 32, .rc, 0⟩]⟩, -- TE_TSO_SKIPPED: 09_time.md, R286
  ⟨0x4006000, [], none, .time, .low, false, [⟨0, 32, .ro, 0⟩]⟩, -- TE_FBTC: 09_time.md, R287 (low word)
  ⟨0x4006004, [], none, .time, .high, false, [⟨0, 32, .ro, 0⟩]⟩, -- TE_FBTC: 09_time.md, R287 (high word)
  ⟨0x4006008, [], some 6, .time, .none, false, [⟨0, 2, .rs, 0⟩]⟩, -- TE_PAIR_CFG: 09_time.md, R287
  ⟨0x4006010, [], none, .time, .none, false, [⟨0, 32, .ro, 0⟩]⟩, -- TE_PAIR_FBTC_LO: 09_time.md, R287
  ⟨0x4006014, [], none, .time, .none, false, [⟨0, 32, .ro, 0⟩]⟩, -- TE_PAIR_FBTC_HI: 09_time.md, R287
  ⟨0x4006018, [], none, .time, .none, false, [⟨0, 30, .ro, 0⟩]⟩, -- TE_PAIR_NS: 09_time.md, R287
  ⟨0x400601c, [], none, .time, .none, false, [⟨0, 32, .ro, 0⟩]⟩, -- TE_PAIR_SEC_LO: 09_time.md, R287
  ⟨0x4006020, [], none, .time, .none, false, [⟨0, 16, .ro, 0⟩, ⟨24, 8, .ro, 0⟩]⟩, -- TE_PAIR_SEC_HI: 09_time.md, R287
  ⟨0x4006024, [], none, .time, .none, false, [⟨0, 1, .wo, 0⟩]⟩, -- TE_PAIR_CMD: 09_time.md, R287
  ⟨0x4000100, [], none, .time, .none, false, [⟨0, 2, .ro, 0⟩, ⟨2, 1, .ro, 0⟩]⟩ -- TE_EV_LAST: 09_time.md, R287
]

/-- All registers of block TE. -/
def rowsTE : List RegRow := rowsTE0 ++ rowsTE1

/-- Registers of block BX, part 1. XL_EN of CAN0 to CAN7, reserved and acting as 0 (R318), reads back as written: DESIGN
CHOICE (log 100). -/
def rowsBX0 : List RegRow := [
  ⟨0x5100000, [⟨0, 7, 0x10000⟩], some 7, .fb, .none, false, [⟨0, 1, .rs, 0⟩, ⟨1, 2, .rs, 0⟩, ⟨3, 1, .rs, 1⟩, ⟨4, 1, .rs, 0⟩, ⟨5, 1, .rs, 1⟩, ⟨6, 1, .rs, 0⟩, ⟨7, 1, .rs, 0⟩, ⟨8, 4, .rs, 3⟩]⟩, -- BX_CAN_CFG: 10_can_controllers.md, R318
  ⟨0x5100000, [⟨8, 15, 0x10000⟩], some 8, .fb, .none, false, [⟨0, 1, .rs, 0⟩, ⟨1, 2, .rs, 0⟩, ⟨3, 1, .rs, 1⟩, ⟨4, 1, .rs, 0⟩, ⟨5, 1, .rs, 1⟩, ⟨6, 1, .rs, 0⟩, ⟨7, 1, .rs, 0⟩, ⟨8, 4, .rs, 3⟩]⟩, -- BX_CAN_CFG: 10_can_controllers.md, R318
  ⟨0x5100004, [⟨0, 7, 0x10000⟩], some 7, .fb, .none, false, [⟨0, 8, .rs, 0⟩, ⟨8, 8, .rs, 0xfe⟩, ⟨16, 7, .rs, 0x3f⟩, ⟨24, 7, .rs, 0x3f⟩]⟩, -- BX_CAN_NBT: 10_can_controllers.md, R319
  ⟨0x5100004, [⟨8, 15, 0x10000⟩], some 8, .fb, .none, false, [⟨0, 8, .rs, 0⟩, ⟨8, 8, .rs, 0xfe⟩, ⟨16, 7, .rs, 0x3f⟩, ⟨24, 7, .rs, 0x3f⟩]⟩, -- BX_CAN_NBT: 10_can_controllers.md, R319
  ⟨0x5100008, [⟨0, 7, 0x10000⟩], some 7, .fb, .none, false, [⟨0, 5, .rs, 0⟩, ⟨8, 5, .rs, 0x1c⟩, ⟨16, 4, .rs, 9⟩, ⟨24, 4, .rs, 9⟩]⟩, -- BX_CAN_DBT: 10_can_controllers.md, R319
  ⟨0x5100008, [⟨8, 15, 0x10000⟩], some 8, .fb, .none, false, [⟨0, 5, .rs, 0⟩, ⟨8, 5, .rs, 0x1c⟩, ⟨16, 4, .rs, 9⟩, ⟨24, 4, .rs, 9⟩]⟩, -- BX_CAN_DBT: 10_can_controllers.md, R319
  ⟨0x510000c, [⟨0, 7, 0x10000⟩], some 7, .fb, .none, false, [⟨0, 5, .rs, 0⟩, ⟨8, 5, .rs, 4⟩, ⟨16, 4, .rs, 1⟩, ⟨24, 4, .rs, 1⟩]⟩, -- BX_CAN_XBT: 10_can_controllers.md, R319
  ⟨0x510000c, [⟨8, 15, 0x10000⟩], some 8, .fb, .none, false, [⟨0, 5, .rs, 0⟩, ⟨8, 5, .rs, 4⟩, ⟨16, 4, .rs, 1⟩, ⟨24, 4, .rs, 1⟩]⟩, -- BX_CAN_XBT: 10_can_controllers.md, R319
  ⟨0x5100010, [⟨0, 7, 0x10000⟩], some 7, .fb, .none, false, [⟨0, 1, .rs, 1⟩, ⟨8, 7, .rs, 0x1e⟩, ⟨16, 7, .rs, 4⟩]⟩, -- BX_CAN_TDC: 10_can_controllers.md, R319
  ⟨0x5100010, [⟨8, 15, 0x10000⟩], some 8, .fb, .none, false, [⟨0, 1, .rs, 1⟩, ⟨8, 7, .rs, 0x1e⟩, ⟨16, 7, .rs, 4⟩]⟩, -- BX_CAN_TDC: 10_can_controllers.md, R319
  ⟨0x5100014, [⟨0, 7, 0x10000⟩], some 7, .fb, .none, false, [⟨0, 1, .rs, 1⟩, ⟨8, 6, .rs, 2⟩, ⟨16, 6, .rs, 6⟩, ⟨24, 6, .rs, 0⟩]⟩, -- BX_CAN_XLPWM: 10_can_controllers.md, R319
  ⟨0x5100014, [⟨8, 15, 0x10000⟩], some 8, .fb, .none, false, [⟨0, 1, .rs, 1⟩, ⟨8, 6, .rs, 2⟩, ⟨16, 6, .rs, 6⟩, ⟨24, 6, .rs, 0⟩]⟩, -- BX_CAN_XLPWM: 10_can_controllers.md, R319
  ⟨0x5100018, [⟨0, 7, 0x10000⟩], some 7, .fb, .none, false, [⟨0, 29, .rs, 0x1fffffff⟩]⟩, -- BX_CAN_ABORT: 10_can_controllers.md, R319
  ⟨0x5100018, [⟨8, 15, 0x10000⟩], some 8, .fb, .none, false, [⟨0, 29, .rs, 0x1fffffff⟩]⟩, -- BX_CAN_ABORT: 10_can_controllers.md, R319
  ⟨0x5100100, [⟨0, 15, 0x10000⟩], none, .fb, .none, false, [⟨0, 3, .ro, 0⟩, ⟨3, 1, .ro, 0⟩, ⟨4, 1, .ro, 0⟩, ⟨5, 1, .ro, 0⟩, ⟨6, 1, .ro, 0⟩, ⟨8, 8, .ro, 0⟩, ⟨16, 8, .ro, 0⟩, ⟨28, 4, .ro, 0⟩]⟩, -- BX_CAN_STAT: 10_can_controllers.md, R320
  ⟨0x5100104, [⟨0, 15, 0x10000⟩], none, .fb, .none, false, [⟨0, 3, .rc, 0⟩, ⟨4, 3, .rc, 0⟩, ⟨8, 7, .ro, 0⟩]⟩, -- BX_CAN_ERR: 10_can_controllers.md, R320
  ⟨0x5100108, [⟨0, 15, 0x10000⟩], none, .fb, .none, false, [⟨0, 1, .wo, 0⟩]⟩, -- BX_CAN_CMD: 10_can_controllers.md, R320
  ⟨0x5101000, [⟨0, 7, 0x10000⟩, ⟨0, 127, 0x10⟩], some 7, .fb, .none, true, [⟨0, 29, .rs, 0⟩, ⟨29, 1, .rs, 0⟩, ⟨30, 1, .rs, 0⟩, ⟨31, 1, .rs, 0⟩]⟩, -- BX_CAN_OBJCFG_W0: 10_can_controllers.md, R321
  ⟨0x5101000, [⟨8, 15, 0x10000⟩, ⟨0, 127, 0x10⟩], some 8, .fb, .none, true, [⟨0, 29, .rs, 0⟩, ⟨29, 1, .rs, 0⟩, ⟨30, 1, .rs, 0⟩, ⟨31, 1, .rs, 0⟩]⟩, -- BX_CAN_OBJCFG_W0: 10_can_controllers.md, R321
  ⟨0x5101004, [⟨0, 7, 0x10000⟩, ⟨0, 127, 0x10⟩], some 7, .fb, .none, true, [⟨0, 29, .rs, 0⟩, ⟨29, 1, .rs, 0⟩]⟩, -- BX_CAN_OBJCFG_W1: 10_can_controllers.md, R321
  ⟨0x5101004, [⟨8, 15, 0x10000⟩, ⟨0, 127, 0x10⟩], some 8, .fb, .none, true, [⟨0, 29, .rs, 0⟩, ⟨29, 1, .rs, 0⟩]⟩, -- BX_CAN_OBJCFG_W1: 10_can_controllers.md, R321
  ⟨0x5101008, [⟨0, 7, 0x10000⟩, ⟨0, 127, 0x10⟩], some 7, .fb, .none, true, [⟨0, 10, .rs, 0⟩, ⟨10, 5, .rs, 0⟩, ⟨15, 3, .rs, 7⟩, ⟨18, 1, .rs, 0⟩, ⟨19, 1, .rs, 0⟩, ⟨20, 1, .rs, 0⟩, ⟨21, 1, .rs, 0⟩, ⟨22, 1, .rs, 0⟩]⟩, -- BX_CAN_OBJCFG_W2: 10_can_controllers.md, R321
  ⟨0x5101008, [⟨8, 15, 0x10000⟩, ⟨0, 127, 0x10⟩], some 8, .fb, .none, true, [⟨0, 10, .rs, 0⟩, ⟨10, 5, .rs, 0⟩, ⟨15, 3, .rs, 7⟩, ⟨18, 1, .rs, 0⟩, ⟨19, 1, .rs, 0⟩, ⟨20, 1, .rs, 0⟩, ⟨21, 1, .rs, 0⟩, ⟨22, 1, .rs, 0⟩]⟩, -- BX_CAN_OBJCFG_W2: 10_can_controllers.md, R321
  ⟨0x5103000, [⟨0, 7, 0x10000⟩, ⟨0, 767, 4⟩], some 7, .fb, .none, true, [⟨0, 10, .rs, 0x3ff⟩]⟩, -- BX_CAN_LINK: 10_can_controllers.md, R321
  ⟨0x5103000, [⟨8, 15, 0x10000⟩, ⟨0, 767, 4⟩], some 8, .fb, .none, true, [⟨0, 10, .rs, 0x3ff⟩]⟩, -- BX_CAN_LINK: 10_can_controllers.md, R321
  ⟨0x5102000, [⟨0, 15, 0x10000⟩, ⟨0, 127, 0x20⟩], none, .fb, .none, false, [⟨0, 4, .ro, 0⟩, ⟨4, 1, .ro, 0⟩, ⟨5, 1, .ro, 0⟩, ⟨8, 8, .ro, 0⟩]⟩, -- BX_CAN_OBJ_W0: 10_can_controllers.md, R322
  ⟨0x5102004, [⟨0, 15, 0x10000⟩, ⟨0, 127, 0x20⟩], none, .fb, .none, false, [⟨0, 29, .rw, 0⟩, ⟨29, 1, .rw, 0⟩, ⟨30, 1, .rw, 0⟩]⟩, -- BX_CAN_OBJ_W1: 10_can_controllers.md, R322
  ⟨0x5102008, [⟨0, 15, 0x10000⟩, ⟨0, 127, 0x20⟩], none, .fb, .none, false, [⟨0, 2, .rw, 0⟩, ⟨2, 1, .rw, 0⟩, ⟨3, 1, .ro, 0⟩, ⟨4, 4, .rw, 0⟩, ⟨8, 11, .rw, 0⟩]⟩, -- BX_CAN_OBJ_W2: 10_can_controllers.md, R322
  ⟨0x510200c, [⟨0, 15, 0x10000⟩, ⟨0, 127, 0x20⟩], none, .fb, .none, false, [⟨0, 8, .rw, 0⟩, ⟨8, 8, .rw, 0⟩, ⟨16, 1, .rw, 0⟩, ⟨20, 12, .ro, 0⟩]⟩, -- BX_CAN_OBJ_W3: 10_can_controllers.md, R322
  ⟨0x5102010, [⟨0, 15, 0x10000⟩, ⟨0, 127, 0x20⟩], none, .fb, .none, false, [⟨0, 32, .rw, 0⟩]⟩, -- BX_CAN_OBJ_W4: 10_can_controllers.md, R322
  ⟨0x5102014, [⟨0, 15, 0x10000⟩, ⟨0, 127, 0x20⟩], none, .fb, .low, false, [⟨0, 32, .ro, 0⟩]⟩, -- BX_CAN_OBJ_W5: 10_can_controllers.md, R322
  ⟨0x5102018, [⟨0, 15, 0x10000⟩, ⟨0, 127, 0x20⟩], none, .fb, .high, false, [⟨0, 32, .ro, 0⟩]⟩, -- BX_CAN_OBJ_W6: 10_can_controllers.md, R322
  ⟨0x5104000, [⟨0, 15, 0x10000⟩, ⟨0, 12287, 4⟩], none, .fb, .none, false, [⟨0, 32, .rw, 0⟩]⟩, -- BX_CAN_RAM: 10_can_controllers.md, R322
  ⟨0x5100300, [⟨0, 15, 0x10000⟩, ⟨0, 3, 4⟩], none, .fb, .none, false, [⟨0, 32, .wo, 0⟩]⟩, -- BX_CAN_TXREQ: 10_can_controllers.md, R323
  ⟨0x5100310, [⟨0, 15, 0x10000⟩, ⟨0, 3, 4⟩], none, .fb, .none, false, [⟨0, 32, .wo, 0⟩]⟩, -- BX_CAN_TXCAN: 10_can_controllers.md, R323
  ⟨0x5100320, [⟨0, 15, 0x10000⟩, ⟨0, 3, 4⟩], none, .fb, .none, false, [⟨0, 32, .wo, 0⟩]⟩, -- BX_CAN_RXACK: 10_can_controllers.md, R323
  ⟨0x5100330, [⟨0, 15, 0x10000⟩, ⟨0, 3, 4⟩], none, .fb, .none, false, [⟨0, 32, .ro, 0⟩]⟩, -- BX_CAN_PEND: 10_can_controllers.md, R323
  ⟨0x5100340, [⟨0, 15, 0x10000⟩, ⟨0, 3, 4⟩], none, .fb, .none, false, [⟨0, 32, .ro, 0⟩]⟩, -- BX_CAN_RXF: 10_can_controllers.md, R323
  ⟨0x5100350, [⟨0, 15, 0x10000⟩, ⟨0, 3, 4⟩], none, .fb, .none, false, [⟨0, 32, .rw1c, 0⟩]⟩, -- BX_CAN_DONE: 10_can_controllers.md, R323
  ⟨0x5100200, [⟨0, 15, 0x10000⟩], none, .fb, .none, false, [⟨0, 32, .rc, 0⟩]⟩ -- BX_CAN_TX_FRAMES: 10_can_controllers.md, R324
]

/-- Registers of block BX, part 2. -/
def rowsBX1 : List RegRow := [
  ⟨0x5100204, [⟨0, 15, 0x10000⟩], none, .fb, .none, false, [⟨0, 32, .rc, 0⟩]⟩, -- BX_CAN_RX_FRAMES: 10_can_controllers.md, R324
  ⟨0x5100208, [⟨0, 15, 0x10000⟩], none, .fb, .none, false, [⟨0, 32, .rc, 0⟩]⟩, -- BX_CAN_RX_NOMATCH: 10_can_controllers.md, R324
  ⟨0x510020c, [⟨0, 15, 0x10000⟩], none, .fb, .none, false, [⟨0, 32, .rc, 0⟩]⟩, -- BX_CAN_RX_OVERRUN: 10_can_controllers.md, R324
  ⟨0x5100210, [⟨0, 15, 0x10000⟩], none, .fb, .none, false, [⟨0, 32, .rc, 0⟩]⟩, -- BX_CAN_ARB_LOST: 10_can_controllers.md, R324
  ⟨0x5100214, [⟨0, 15, 0x10000⟩], none, .fb, .none, false, [⟨0, 32, .rc, 0⟩]⟩, -- BX_CAN_ERR_FRAMES: 10_can_controllers.md, R324
  ⟨0x5100218, [⟨0, 15, 0x10000⟩], none, .fb, .none, false, [⟨0, 32, .rc, 0⟩]⟩, -- BX_CAN_PEXC: 10_can_controllers.md, R324
  ⟨0x510021c, [⟨0, 15, 0x10000⟩], none, .fb, .none, false, [⟨0, 32, .rc, 0⟩]⟩, -- BX_CAN_ECC_CE: 10_can_controllers.md, R324
  ⟨0x5100220, [⟨0, 15, 0x10000⟩], none, .fb, .none, false, [⟨0, 32, .rc, 0⟩]⟩, -- BX_CAN_ECC_UE: 10_can_controllers.md, R324
  ⟨0x5000100, [⟨0, 15, 4⟩], none, .fb, .none, false, [⟨0, 16, .rw1c, 0⟩]⟩, -- BX_CAN_EVCTL: 10_can_controllers.md, R325
  ⟨0x5400000, [], some 9, .fb, .none, false, [⟨0, 1, .rs, 0⟩, ⟨1, 2, .rs, 0⟩]⟩, -- BX_GW_CFG: 11_bus_gateway.md, R344
  ⟨0x5400004, [], some 9, .fb, .none, false, [⟨0, 32, .rs, 0⟩]⟩, -- BX_GW_MAC_LO: 11_bus_gateway.md, R344
  ⟨0x5400008, [], some 9, .fb, .none, false, [⟨0, 16, .rs, 0⟩]⟩, -- BX_GW_MAC_HI: 11_bus_gateway.md, R344
  ⟨0x540000c, [], some 9, .fb, .none, false, [⟨0, 32, .rs, 0⟩]⟩, -- BX_GW_DOWNMAP: 11_bus_gateway.md, R344
  ⟨0x5400100, [⟨0, 15, 4⟩], some 9, .fb, .none, false, [⟨0, 1, .rs, 0⟩, ⟨1, 1, .rs, 0⟩]⟩, -- BX_PQ_CFG: 11_bus_gateway.md, R344
  ⟨0x5400300, [], none, .fb, .none, false, [⟨0, 4, .wo, 0⟩, ⟨8, 1, .wo, 0⟩]⟩, -- BX_PQ_CMD: 11_bus_gateway.md, R344
  ⟨0x5410000, [⟨0, 4095, 0x20⟩], some 9, .fb, .none, true, [⟨0, 29, .rs, 0⟩, ⟨29, 1, .rs, 0⟩, ⟨30, 1, .rs, 0⟩, ⟨31, 1, .rs, 0⟩]⟩, -- BX_GW_ROUTE_W0: 11_bus_gateway.md, R345
  ⟨0x5410004, [⟨0, 4095, 0x20⟩], some 9, .fb, .none, true, [⟨0, 29, .rs, 0⟩]⟩, -- BX_GW_ROUTE_W1: 11_bus_gateway.md, R345
  ⟨0x5410008, [⟨0, 4095, 0x20⟩], some 9, .fb, .none, true, [⟨0, 4, .rs, 0⟩, ⟨4, 7, .rs, 0⟩, ⟨11, 2, .rs, 0⟩, ⟨13, 8, .rs, 0⟩, ⟨21, 1, .rs, 0⟩]⟩, -- BX_GW_ROUTE_W2: 11_bus_gateway.md, R345
  ⟨0x541000c, [⟨0, 4095, 0x20⟩], some 9, .fb, .none, true, [⟨0, 16, .rs, 0⟩]⟩, -- BX_GW_ROUTE_W3: 11_bus_gateway.md, R345
  ⟨0x5410010, [⟨0, 4095, 0x20⟩], some 9, .fb, .none, true, [⟨0, 13, .rs, 0⟩, ⟨13, 6, .rs, 0⟩]⟩, -- BX_GW_ROUTE_W4: 11_bus_gateway.md, R345
  ⟨0x5410014, [⟨0, 4095, 0x20⟩], some 9, .fb, .none, true, [⟨0, 16, .rs, 0⟩, ⟨16, 12, .rs, 0⟩]⟩, -- BX_GW_ROUTE_W5: 11_bus_gateway.md, R345
  ⟨0x5410018, [⟨0, 4095, 0x20⟩], some 9, .fb, .none, true, [⟨0, 12, .rs, 0⟩, ⟨12, 1, .rs, 0⟩]⟩, -- BX_GW_ROUTE_W6: 11_bus_gateway.md, R345
  ⟨0x541001c, [⟨0, 4095, 0x20⟩], some 9, .fb, .none, true, [⟨0, 4, .rs, 0⟩, ⟨4, 7, .rs, 0⟩, ⟨11, 1, .rs, 0⟩]⟩, -- BX_GW_ROUTE_W7: 11_bus_gateway.md, R345
  ⟨0x5440000, [⟨0, 8191, 8⟩], some 9, .fb, .none, true, [⟨0, 14, .rs, 0⟩, ⟨14, 16, .rs, 0⟩]⟩, -- BX_GW_SIGNAL_W0: 11_bus_gateway.md, R345
  ⟨0x5440004, [⟨0, 8191, 8⟩], some 9, .fb, .none, true, [⟨0, 6, .rs, 0⟩, ⟨6, 1, .rs, 0⟩]⟩, -- BX_GW_SIGNAL_W1: 11_bus_gateway.md, R345
  ⟨0x5460000, [⟨0, 255, 0x20⟩], some 9, .fb, .none, true, [⟨0, 32, .rs, 0⟩]⟩, -- BX_GW_TMPL_W0: 11_bus_gateway.md, R345
  ⟨0x5460004, [⟨0, 255, 0x20⟩], some 9, .fb, .none, true, [⟨0, 16, .rs, 0⟩, ⟨16, 12, .rs, 0⟩, ⟨28, 3, .rs, 0⟩]⟩, -- BX_GW_TMPL_W1: 11_bus_gateway.md, R345
  ⟨0x5460008, [⟨0, 255, 0x20⟩], some 9, .fb, .none, true, [⟨0, 2, .rs, 0⟩, ⟨2, 4, .rs, 0⟩, ⟨8, 8, .rs, 1⟩, ⟨16, 16, .rs, 0x88b5⟩]⟩, -- BX_GW_TMPL_W2: 11_bus_gateway.md, R345
  ⟨0x546000c, [⟨0, 255, 0x20⟩], some 9, .fb, .none, true, [⟨0, 32, .rs, 0⟩]⟩, -- BX_GW_TMPL_W3: 11_bus_gateway.md, R345
  ⟨0x5460010, [⟨0, 255, 0x20⟩], some 9, .fb, .none, true, [⟨0, 32, .rs, 0⟩]⟩, -- BX_GW_TMPL_W4: 11_bus_gateway.md, R345
  ⟨0x5460014, [⟨0, 255, 0x20⟩], some 9, .fb, .none, true, [⟨0, 14, .rs, 0x5dc⟩]⟩, -- BX_GW_TMPL_W5: 11_bus_gateway.md, R345
  ⟨0x5400200, [⟨0, 15, 4⟩], none, .fb, .none, false, [⟨0, 9, .ro, 0⟩, ⟨9, 8, .ro, 0⟩, ⟨17, 1, .ro, 0⟩]⟩, -- BX_PQ_STAT: 11_bus_gateway.md, R346
  ⟨0x5401000, [⟨0, 15, 0x20⟩], none, .fb, .none, false, [⟨0, 32, .rc, 0⟩]⟩, -- BX_PQ_PKTS: 11_bus_gateway.md, R346
  ⟨0x5401004, [⟨0, 15, 0x20⟩], none, .fb, .none, false, [⟨0, 32, .rc, 0⟩]⟩, -- BX_PQ_REWOUND: 11_bus_gateway.md, R346
  ⟨0x5401008, [⟨0, 15, 0x20⟩], none, .fb, .none, false, [⟨0, 32, .rc, 0⟩]⟩, -- BX_PQ_DROP_FULL: 11_bus_gateway.md, R346
  ⟨0x540100c, [⟨0, 15, 0x20⟩], none, .fb, .none, false, [⟨0, 32, .rc, 0⟩]⟩, -- BX_PQ_DROP_BIG: 11_bus_gateway.md, R346
  ⟨0x5401010, [⟨0, 15, 0x20⟩], none, .fb, .none, false, [⟨0, 32, .rc, 0⟩]⟩, -- BX_PQ_CE: 11_bus_gateway.md, R346
  ⟨0x5401014, [⟨0, 15, 0x20⟩], none, .fb, .none, false, [⟨0, 32, .rc, 0⟩]⟩, -- BX_PQ_UE: 11_bus_gateway.md, R346
  ⟨0x5401018, [⟨0, 15, 0x20⟩], none, .fb, .none, false, [⟨0, 32, .rc, 0⟩]⟩, -- BX_PQ_EMPTY_READS: 11_bus_gateway.md, R346
  ⟨0x5400400, [], none, .fb, .none, false, [⟨0, 32, .rc, 0⟩]⟩ -- BX_GW_UP_FRAMES: 11_bus_gateway.md, R346
]

/-- Registers of block BX, part 3. -/
def rowsBX2 : List RegRow := [
  ⟨0x5400404, [], none, .fb, .none, false, [⟨0, 32, .rc, 0⟩]⟩, -- BX_GW_UP_NOROUTE: 11_bus_gateway.md, R346
  ⟨0x5400408, [], none, .fb, .none, false, [⟨0, 32, .rc, 0⟩]⟩, -- BX_GW_DOWN_MSGS: 11_bus_gateway.md, R346
  ⟨0x540040c, [], none, .fb, .none, false, [⟨0, 32, .rc, 0⟩]⟩, -- BX_GW_DOWN_NOROUTE: 11_bus_gateway.md, R346
  ⟨0x5400410, [], none, .fb, .none, false, [⟨0, 32, .rc, 0⟩]⟩, -- BX_GW_TX_BUSY: 11_bus_gateway.md, R346
  ⟨0x5400414, [], none, .fb, .none, false, [⟨0, 32, .rc, 0⟩]⟩, -- BX_GW_BAD_ACF: 11_bus_gateway.md, R346
  ⟨0x5400418, [], none, .fb, .none, false, [⟨0, 32, .rc, 0⟩]⟩, -- BX_GW_SIG_SHORT: 11_bus_gateway.md, R346
  ⟨0x540041c, [], none, .fb, .none, false, [⟨0, 32, .rc, 0⟩]⟩, -- BX_GW_SEAL_BAD: 11_bus_gateway.md, R346
  ⟨0x5400420, [], none, .fb, .none, false, [⟨0, 32, .rc, 0⟩]⟩, -- BX_GW_SEAL_NOCTX: 11_bus_gateway.md, R346
  ⟨0x5400424, [], none, .fb, .none, false, [⟨0, 32, .rc, 0⟩]⟩, -- BX_GW_ECC_DROP: 11_bus_gateway.md, R346
  ⟨0x5400428, [], none, .fb, .none, false, [⟨0, 32, .rc, 0⟩]⟩, -- BX_GW_COPIES: 11_bus_gateway.md, R346
  ⟨0x5480000, [⟨0, 4095, 4⟩], none, .fb, .none, false, [⟨0, 32, .rc, 0⟩]⟩, -- BX_GW_HITS: 11_bus_gateway.md, R346
  ⟨0x5400500, [], none, .fb, .none, false, [⟨0, 4, .ro, 0⟩, ⟨16, 12, .ro, 0⟩]⟩ -- BX_GW_EV_LAST: 11_bus_gateway.md, R346
]

/-- All registers of block BX. -/
def rowsBX : List RegRow := rowsBX0 ++ rowsBX1 ++ rowsBX2

/-- Registers of block KX, part 1. -/
def rowsKX0 : List RegRow := [
  ⟨0x6000400, [⟨0, 12, 0x80⟩], none, .sec, .none, false, [⟨0, 4, .wo, 0⟩, ⟨8, 10, .wo, 0⟩, ⟨20, 3, .wo, 0⟩]⟩, -- KX_CMD: 12_keys_lifecycle.md, R373
  ⟨0x6000404, [⟨0, 12, 0x80⟩], none, .sec, .none, false, [⟨0, 1, .ro, 0⟩, ⟨1, 5, .ro, 0⟩, ⟨16, 10, .ro, 0⟩]⟩, -- KX_RESULT: 12_keys_lifecycle.md, R373
  ⟨0x6000440, [⟨0, 12, 0x80⟩, ⟨0, 15, 4⟩], none, .sec, .none, false, [⟨0, 32, .rw, 0⟩]⟩, -- KX_DATA: 12_keys_lifecycle.md, R373
  ⟨0x6000000, [], none, .sec, .none, false, [⟨0, 3, .ro, 0⟩, ⟨4, 3, .ro, 0⟩, ⟨7, 1, .ro, 0⟩, ⟨8, 1, .ro, 0⟩, ⟨9, 1, .ro, 0⟩, ⟨10, 3, .ro, 0⟩, ⟨13, 1, .ro, 0⟩, ⟨16, 8, .ro, 0⟩, ⟨24, 5, .ro, 0⟩]⟩, -- KX_STAT: 12_keys_lifecycle.md, R376
  ⟨0x6000100, [], some 10, .sec, .none, false, [⟨0, 2, .rs, 0⟩, ⟨2, 2, .rs, 0⟩, ⟨4, 2, .rs, 3⟩, ⟨6, 2, .rs, 2⟩, ⟨8, 2, .rs, 2⟩, ⟨10, 2, .rs, 1⟩, ⟨12, 1, .rs, 0⟩, ⟨13, 1, .rs, 0⟩, ⟨16, 8, .rs, 0xa⟩]⟩, -- KX_TAMPER_CFG: 12_keys_lifecycle.md, R377
  ⟨0x6000110, [], some 10, .sec, .none, false, [⟨0, 9, .rs, 0⟩]⟩, -- KX_AGENT_CFG: 12_keys_lifecycle.md, R377
  ⟨0x6000114, [], some 10, .sec, .none, false, [⟨0, 10, .rs, 2⟩, ⟨16, 16, .rs, 0⟩]⟩, -- KX_FLEET_CFG: 12_keys_lifecycle.md, R377
  ⟨0x6100000, [⟨16, 1023, 0x40⟩], some 10, .sec, .none, true, [⟨0, 10, .rs, 0⟩, ⟨10, 2, .rs, 0⟩, ⟨12, 1, .rs, 0⟩, ⟨31, 1, .rs, 0⟩]⟩, -- KX_NODE_W0: 12_keys_lifecycle.md, R378
  ⟨0x6100004, [⟨16, 1023, 0x40⟩], some 10, .sec, .none, true, [⟨0, 10, .rs, 0⟩]⟩, -- KX_NODE_W1: 12_keys_lifecycle.md, R378
  ⟨0x6100008, [⟨16, 1023, 0x40⟩], some 10, .sec, .none, true, [⟨0, 32, .rs, 0⟩]⟩, -- KX_NODE_W2: 12_keys_lifecycle.md, R378
  ⟨0x6100010, [⟨16, 1023, 0x40⟩, ⟨0, 7, 4⟩], some 10, .sec, .none, true, [⟨0, 32, .rs, 0⟩]⟩, -- KX_NODE_LABEL: 12_keys_lifecycle.md, R378
  ⟨0x6200000, [⟨0, 1023, 0x10⟩], none, .sec, .none, false, [⟨0, 3, .ro, 0⟩, ⟨4, 3, .ro, 0⟩, ⟨16, 16, .ro, 0⟩]⟩, -- KX_NODE_STAT_W0: 12_keys_lifecycle.md, R379
  ⟨0x6200004, [⟨0, 1023, 0x10⟩], none, .sec, .none, false, [⟨0, 16, .ro, 0⟩]⟩, -- KX_NODE_STAT_W1: 12_keys_lifecycle.md, R379
  ⟨0x6200008, [⟨0, 1023, 0x10⟩], none, .sec, .none, false, [⟨0, 32, .ro, 0⟩]⟩, -- KX_NODE_STAT_W2: 12_keys_lifecycle.md, R379
  ⟨0x6000104, [], none, .sec, .none, false, [⟨0, 6, .rw1c, 0⟩, ⟨8, 6, .ro, 0⟩, ⟨16, 6, .ro, 0⟩]⟩, -- KX_TAMPER_STAT: 12_keys_lifecycle.md, R379
  ⟨0x6000108, [], none, .sec, .none, false, [⟨0, 32, .rc, 0⟩]⟩, -- KX_TAMPER_COUNT: 12_keys_lifecycle.md, R379
  ⟨0x6000120, [], none, .sec, .none, false, [⟨0, 32, .rc, 0⟩]⟩, -- KX_USE_REFUSED: 12_keys_lifecycle.md, R379
  ⟨0x6000124, [], none, .sec, .none, false, [⟨0, 32, .rc, 0⟩]⟩, -- KX_DERIVES: 12_keys_lifecycle.md, R379
  ⟨0x6000128, [], none, .sec, .none, false, [⟨0, 11, .ro, 0⟩]⟩, -- KX_BAD_CHAIN: 12_keys_lifecycle.md, R379
  ⟨0x600012c, [], none, .sec, .none, false, [⟨0, 32, .ro, 0⟩]⟩, -- KX_REMASK: 12_keys_lifecycle.md, R379
  ⟨0x6000130, [], none, .sec, .none, false, [⟨0, 10, .ro, 0⟩, ⟨12, 3, .ro, 0⟩]⟩ -- KX_EV_LAST: 12_keys_lifecycle.md, R379
]

/-- All registers of block KX. -/
def rowsKX : List RegRow := rowsKX0

/-- Registers of block CE, part 1. -/
def rowsCE0 : List RegRow := [
  ⟨0x7001000, [⟨0, 23, 0x20⟩], some 11, .sec, .none, false, [⟨0, 1, .rs, 0⟩, ⟨1, 1, .rs, 0⟩, ⟨2, 1, .rs, 0⟩, ⟨3, 1, .rs, 0⟩, ⟨4, 2, .rs, 0⟩, ⟨16, 9, .rs, 0⟩, ⟨25, 1, .rs, 0⟩]⟩, -- CE_PORT_CFG: 13_cipher.md, R396
  ⟨0x7001000, [⟨40, 40, 0x20⟩], some 11, .sec, .none, false, [⟨0, 1, .rs, 0⟩, ⟨1, 1, .rs, 0⟩, ⟨2, 1, .rs, 0⟩, ⟨3, 1, .rs, 0⟩, ⟨4, 2, .rs, 0⟩, ⟨16, 9, .rs, 0⟩, ⟨25, 1, .rs, 0⟩]⟩, -- CE_PORT_CFG: 13_cipher.md, R396
  ⟨0x7001004, [⟨0, 23, 0x20⟩], some 11, .sec, .none, false, [⟨0, 32, .rs, 0⟩]⟩, -- CE_TX_SCI_LO: 13_cipher.md, R396
  ⟨0x7001004, [⟨40, 40, 0x20⟩], some 11, .sec, .none, false, [⟨0, 32, .rs, 0⟩]⟩, -- CE_TX_SCI_LO: 13_cipher.md, R396
  ⟨0x7001008, [⟨0, 23, 0x20⟩], some 11, .sec, .none, false, [⟨0, 32, .rs, 0⟩]⟩, -- CE_TX_SCI_HI: 13_cipher.md, R396
  ⟨0x7001008, [⟨40, 40, 0x20⟩], some 11, .sec, .none, false, [⟨0, 32, .rs, 0⟩]⟩, -- CE_TX_SCI_HI: 13_cipher.md, R396
  ⟨0x700100c, [⟨0, 23, 0x20⟩], some 11, .sec, .none, false, [⟨0, 12, .rs, 0⟩, ⟨16, 12, .rs, 0⟩]⟩, -- CE_TX_CTX01: 13_cipher.md, R396
  ⟨0x700100c, [⟨40, 40, 0x20⟩], some 11, .sec, .none, false, [⟨0, 12, .rs, 0⟩, ⟨16, 12, .rs, 0⟩]⟩, -- CE_TX_CTX01: 13_cipher.md, R396
  ⟨0x7001010, [⟨0, 23, 0x20⟩], some 11, .sec, .none, false, [⟨0, 12, .rs, 0⟩, ⟨16, 12, .rs, 0⟩]⟩, -- CE_TX_CTX23: 13_cipher.md, R396
  ⟨0x7001010, [⟨40, 40, 0x20⟩], some 11, .sec, .none, false, [⟨0, 12, .rs, 0⟩, ⟨16, 12, .rs, 0⟩]⟩, -- CE_TX_CTX23: 13_cipher.md, R396
  ⟨0x7100000, [⟨0, 4095, 0x40⟩], some 11, .sec, .none, true, [⟨0, 2, .rs, 0⟩, ⟨2, 1, .rs, 0⟩, ⟨3, 1, .rs, 0⟩, ⟨4, 1, .rs, 0⟩, ⟨5, 2, .rs, 0⟩, ⟨16, 10, .rs, 0⟩, ⟨31, 1, .rs, 0⟩]⟩, -- CE_CTX_W0: 13_cipher.md, R397
  ⟨0x7100004, [⟨0, 4095, 0x40⟩], some 11, .sec, .none, true, [⟨0, 32, .rs, 0⟩]⟩, -- CE_CTX_W1: 13_cipher.md, R397
  ⟨0x7100008, [⟨0, 4095, 0x40⟩], some 11, .sec, .none, true, [⟨0, 32, .rs, 0⟩]⟩, -- CE_CTX_W2: 13_cipher.md, R397
  ⟨0x710000c, [⟨0, 4095, 0x40⟩], some 11, .sec, .none, true, [⟨0, 32, .rs, 0⟩]⟩, -- CE_CTX_W3: 13_cipher.md, R397
  ⟨0x7100010, [⟨0, 4095, 0x40⟩], some 11, .sec, .none, true, [⟨0, 32, .rs, 0⟩]⟩, -- CE_CTX_W4: 13_cipher.md, R397
  ⟨0x7100014, [⟨0, 4095, 0x40⟩, ⟨0, 2, 4⟩], some 11, .sec, .none, true, [⟨0, 32, .rs, 0⟩]⟩, -- CE_CTX_SALT: 13_cipher.md, R397
  ⟨0x7100020, [⟨0, 4095, 0x40⟩], some 11, .sec, .none, true, [⟨0, 32, .rs, 0⟩]⟩, -- CE_CTX_W8: 13_cipher.md, R397
  ⟨0x7100024, [⟨0, 4095, 0x40⟩], some 11, .sec, .none, true, [⟨0, 32, .rs, 0⟩]⟩, -- CE_CTX_W9: 13_cipher.md, R397
  ⟨0x7100030, [⟨0, 4095, 0x40⟩, ⟨0, 3, 4⟩], some 11, .sec, .none, true, [⟨0, 32, .rs, 0⟩]⟩, -- CE_CTX_LABEL: 13_cipher.md, R397
  ⟨0x7180000, [⟨0, 511, 0x20⟩], some 11, .sec, .none, true, [⟨0, 32, .rs, 0⟩]⟩, -- CE_RXSC_W0: 13_cipher.md, R397
  ⟨0x7180004, [⟨0, 511, 0x20⟩], some 11, .sec, .none, true, [⟨0, 32, .rs, 0⟩]⟩, -- CE_RXSC_W1: 13_cipher.md, R397
  ⟨0x7180008, [⟨0, 511, 0x20⟩], some 11, .sec, .none, true, [⟨0, 12, .rs, 0⟩, ⟨16, 12, .rs, 0⟩]⟩, -- CE_RXSC_W2: 13_cipher.md, R397
  ⟨0x718000c, [⟨0, 511, 0x20⟩], some 11, .sec, .none, true, [⟨0, 12, .rs, 0⟩, ⟨16, 12, .rs, 0⟩]⟩, -- CE_RXSC_W3: 13_cipher.md, R397
  ⟨0x7180010, [⟨0, 511, 0x20⟩], some 11, .sec, .none, true, [⟨0, 6, .rs, 0⟩, ⟨8, 4, .rs, 0⟩, ⟨31, 1, .rs, 0⟩]⟩, -- CE_RXSC_W4: 13_cipher.md, R397
  ⟨0x7200000, [⟨0, 4095, 0x20⟩], none, .sec, .none, false, [⟨0, 3, .ro, 0⟩, ⟨4, 3, .ro, 0⟩, ⟨8, 3, .ro, 0⟩, ⟨16, 16, .ro, 0⟩]⟩, -- CE_CTX_STAT_W0: 13_cipher.md, R398
  ⟨0x7200004, [⟨0, 4095, 0x20⟩], none, .sec, .low, false, [⟨0, 32, .ro, 0⟩]⟩, -- CE_CTX_STAT_W1: 13_cipher.md, R398
  ⟨0x7200008, [⟨0, 4095, 0x20⟩], none, .sec, .high, false, [⟨0, 32, .ro, 0⟩]⟩, -- CE_CTX_STAT_W2: 13_cipher.md, R398
  ⟨0x720000c, [⟨0, 4095, 0x20⟩], none, .sec, .none, false, [⟨0, 32, .ro, 0⟩]⟩, -- CE_CTX_STAT_W3: 13_cipher.md, R398
  ⟨0x7200010, [⟨0, 4095, 0x20⟩], none, .sec, .none, false, [⟨0, 32, .ro, 0⟩]⟩, -- CE_CTX_STAT_W4: 13_cipher.md, R398
  ⟨0x7000200, [⟨0, 7, 4⟩], none, .sec, .none, false, [⟨0, 1, .ro, 1⟩, ⟨1, 1, .ro, 0⟩, ⟨2, 1, .ro, 0⟩, ⟨4, 12, .ro, 0⟩, ⟨16, 16, .ro, 0⟩]⟩, -- CE_PAIR_STAT: 13_cipher.md, R399
  ⟨0x7000400, [], none, .sec, .none, false, [⟨0, 12, .ro, 0⟩, ⟨12, 3, .ro, 0⟩]⟩, -- CE_EV_LAST: 13_cipher.md, R399
  ⟨0x7300000, [⟨0, 4095, 0x10⟩], none, .sec, .none, false, [⟨0, 32, .rc, 0⟩]⟩, -- CE_DROP_AUTH: 13_cipher.md, R400
  ⟨0x7300004, [⟨0, 4095, 0x10⟩], none, .sec, .none, false, [⟨0, 32, .rc, 0⟩]⟩, -- CE_DROP_REPLAY: 13_cipher.md, R400
  ⟨0x7300008, [⟨0, 4095, 0x10⟩], none, .sec, .none, false, [⟨0, 32, .rc, 0⟩]⟩, -- CE_DROP_UNUSABLE: 13_cipher.md, R400
  ⟨0x730000c, [⟨0, 4095, 0x10⟩], none, .sec, .none, false, [⟨0, 32, .rc, 0⟩]⟩, -- CE_UNTRUSTED: 13_cipher.md, R400
  ⟨0x7000300, [], none, .sec, .none, false, [⟨0, 32, .rc, 0⟩]⟩, -- CE_RX_NOSC: 13_cipher.md, R400
  ⟨0x7000304, [], none, .sec, .none, false, [⟨0, 32, .rc, 0⟩]⟩, -- CE_RX_NOSA: 13_cipher.md, R400
  ⟨0x7000308, [], none, .sec, .none, false, [⟨0, 32, .rc, 0⟩]⟩, -- CE_RX_BADTAG: 13_cipher.md, R400
  ⟨0x700030c, [], none, .sec, .none, false, [⟨0, 32, .rc, 0⟩]⟩, -- CE_RX_UNPROT_DROP: 13_cipher.md, R400
  ⟨0x7000310, [], none, .sec, .none, false, [⟨0, 32, .rc, 0⟩]⟩ -- CE_TX_UNPROT_DROP: 13_cipher.md, R400
]

/-- Registers of block CE, part 2. -/
def rowsCE1 : List RegRow := [
  ⟨0x7000314, [], none, .sec, .none, false, [⟨0, 32, .rc, 0⟩]⟩, -- CE_CACHE_MISS: 13_cipher.md, R400
  ⟨0x7000318, [], none, .sec, .none, false, [⟨0, 32, .rc, 0⟩]⟩, -- CE_MISMATCH_RETRY_OK: 13_cipher.md, R400
  ⟨0x700031c, [], none, .sec, .none, false, [⟨0, 32, .rc, 0⟩]⟩, -- CE_HAM_ENC_PAGES: 13_cipher.md, R400
  ⟨0x7000320, [], none, .sec, .none, false, [⟨0, 32, .rc, 0⟩]⟩, -- CE_HAM_DEC_PAGES: 13_cipher.md, R400
  ⟨0x7000324, [], none, .sec, .none, false, [⟨0, 32, .rc, 0⟩]⟩ -- CE_KEYSDOWN_DROP: 13_cipher.md, R400
]

/-- All registers of block CE. -/
def rowsCE : List RegRow := rowsCE0 ++ rowsCE1

/-- Registers of block CX, part 1. -/
def rowsCX0 : List RegRow := [
  ⟨0x8000000, [], some 14, .app, .none, false, [⟨0, 8, .rs, 0⟩, ⟨8, 1, .rs, 0⟩, ⟨12, 2, .rs, 0⟩, ⟨16, 8, .rs, 0xa⟩]⟩, -- CX_CORE_CFG: 16_compute_memory_bridge.md, R471
  ⟨0x8000004, [], some 14, .app, .none, false, [⟨0, 16, .rs, 0⟩, ⟨16, 9, .rs, 1⟩]⟩, -- CX_BOOT_CFG: 16_compute_memory_bridge.md, R471
  ⟨0x8000010, [], none, .app, .none, false, [⟨0, 8, .ro, 0⟩, ⟨8, 8, .ro, 0⟩, ⟨16, 8, .ro, 0⟩, ⟨24, 1, .ro, 0⟩, ⟨25, 1, .ro, 0⟩]⟩, -- CX_CORE_STAT: 16_compute_memory_bridge.md, R471
  ⟨0x8000014, [], none, .app, .none, false, [⟨0, 8, .wo, 0⟩]⟩, -- CX_CORE_START: 16_compute_memory_bridge.md, R471
  ⟨0x8000020, [], none, .app, .none, false, [⟨0, 2, .wo, 0⟩, ⟨8, 2, .ro, 0⟩, ⟨12, 1, .ro, 0⟩]⟩, -- CX_DVFS: 16_compute_memory_bridge.md, R471
  ⟨0x8000024, [], some 14, .app, .none, false, [⟨0, 8, .rs, 0x32⟩]⟩, -- CX_DVFS_CFG: 16_compute_memory_bridge.md, R471
  ⟨0x8000028, [], none, .app, .none, false, [⟨0, 32, .rc, 0⟩]⟩, -- CX_OFFLINE_FORCED: 16_compute_memory_bridge.md, R471
  ⟨0x8000040, [⟨0, 7, 4⟩], some 14, .app, .none, false, [⟨0, 16, .rs, 0xffff⟩]⟩, -- CX_L3_WAYS: 16_compute_memory_bridge.md, R471
  ⟨0x8010000, [⟨0, 7, 0x400⟩, ⟨0, 7, 4⟩], none, .app, .none, false, [⟨0, 8, .rw, 0⟩, ⟨8, 1, .rw, 0⟩, ⟨16, 8, .rw, 0⟩, ⟨24, 1, .rw, 0⟩]⟩, -- CX_PMU_SEL: 16_compute_memory_bridge.md, R471
  ⟨0x8010040, [⟨0, 7, 0x400⟩, ⟨0, 7, 8⟩], none, .app, .low, false, [⟨0, 32, .rw, 0⟩]⟩, -- CX_PMU_CNT: 16_compute_memory_bridge.md, R471 (low word)
  ⟨0x8010044, [⟨0, 7, 0x400⟩, ⟨0, 7, 8⟩], none, .app, .high, false, [⟨0, 32, .rw, 0⟩]⟩, -- CX_PMU_CNT: 16_compute_memory_bridge.md, R471 (high word)
  ⟨0x8010080, [⟨0, 7, 0x400⟩, ⟨0, 3, 8⟩], none, .app, .low, false, [⟨0, 32, .ro, 0⟩]⟩, -- CX_TD: 16_compute_memory_bridge.md, R471 (low word)
  ⟨0x8010084, [⟨0, 7, 0x400⟩, ⟨0, 3, 8⟩], none, .app, .high, false, [⟨0, 32, .ro, 0⟩]⟩, -- CX_TD: 16_compute_memory_bridge.md, R471 (high word)
  ⟨0x80100c0, [⟨0, 7, 0x400⟩], none, .app, .none, false, [⟨0, 5, .rw, 8⟩, ⟨8, 1, .rw, 0⟩]⟩, -- CX_TAG_CFG: 16_compute_memory_bridge.md, R471
  ⟨0x80100c4, [⟨0, 7, 0x400⟩], none, .app, .none, false, [⟨0, 5, .ro, 0⟩, ⟨16, 16, .rc, 0⟩]⟩, -- CX_TAG_STAT: 16_compute_memory_bridge.md, R471
  ⟨0x80100c8, [⟨0, 7, 0x400⟩], none, .app, .none, false, [⟨0, 1, .wo, 0⟩]⟩, -- CX_TAG_POP: 16_compute_memory_bridge.md, R471
  ⟨0x8010100, [⟨0, 7, 0x400⟩, ⟨0, 7, 4⟩], none, .app, .none, false, [⟨0, 32, .ro, 0⟩]⟩, -- CX_TAG_REC: 16_compute_memory_bridge.md, R471
  ⟨0x8100000, [⟨0, 1, 0x10000⟩], some 14, .app, .none, false, [⟨0, 1, .rs, 0⟩, ⟨1, 1, .rs, 0⟩, ⟨2, 6, .rs, 0⟩, ⟨16, 11, .rs, 0x60⟩]⟩, -- CX_HP_CFG: 16_compute_memory_bridge.md, R472
  ⟨0x8100004, [⟨0, 1, 0x10000⟩], some 14, .app, .none, false, [⟨0, 32, .rs, 0xffffffff⟩]⟩, -- CX_HP_SEED: 16_compute_memory_bridge.md, R472
  ⟨0x8100010, [⟨0, 1, 0x10000⟩, ⟨0, 7, 4⟩], some 14, .app, .none, false, [⟨0, 6, .rs, 0⟩, ⟨6, 3, .rs, 0⟩]⟩, -- CX_HP_RXMAP: 16_compute_memory_bridge.md, R472
  ⟨0x8101000, [⟨0, 1, 0x10000⟩, ⟨0, 63, 0x20⟩], some 14, .app, .none, false, [⟨12, 20, .rs, 0⟩]⟩, -- CX_HP_RX_BASE_LO: 16_compute_memory_bridge.md, R472
  ⟨0x8101004, [⟨0, 1, 0x10000⟩, ⟨0, 63, 0x20⟩], some 14, .app, .none, false, [⟨0, 8, .rs, 0⟩]⟩, -- CX_HP_RX_BASE_HI: 16_compute_memory_bridge.md, R472
  ⟨0x8101008, [⟨0, 1, 0x10000⟩, ⟨0, 63, 0x20⟩], some 14, .app, .none, false, [⟨0, 4, .rs, 0⟩, ⟨8, 6, .rs, 8⟩, ⟨16, 1, .rs, 0⟩, ⟨24, 8, .rs, 0⟩]⟩, -- CX_HP_RX_CFG: 16_compute_memory_bridge.md, R472
  ⟨0x810100c, [⟨0, 1, 0x10000⟩, ⟨0, 63, 0x20⟩], some 14, .app, .none, false, [⟨0, 16, .rs, 0⟩]⟩, -- CX_HP_RX_COAL: 16_compute_memory_bridge.md, R472
  ⟨0x8101010, [⟨0, 1, 0x10000⟩, ⟨0, 63, 0x20⟩], none, .app, .none, false, [⟨0, 16, .rw, 0⟩]⟩, -- CX_HP_RX_TAIL: 16_compute_memory_bridge.md, R472
  ⟨0x8101014, [⟨0, 1, 0x10000⟩, ⟨0, 63, 0x20⟩], none, .app, .none, false, [⟨0, 16, .ro, 0⟩]⟩, -- CX_HP_RX_HEAD: 16_compute_memory_bridge.md, R472
  ⟨0x8102000, [⟨0, 1, 0x10000⟩, ⟨0, 63, 0x20⟩], some 14, .app, .none, false, [⟨12, 20, .rs, 0⟩]⟩, -- CX_HP_TX_BASE_LO: 16_compute_memory_bridge.md, R472
  ⟨0x8102004, [⟨0, 1, 0x10000⟩, ⟨0, 63, 0x20⟩], some 14, .app, .none, false, [⟨0, 8, .rs, 0⟩]⟩, -- CX_HP_TX_BASE_HI: 16_compute_memory_bridge.md, R472
  ⟨0x8102008, [⟨0, 1, 0x10000⟩, ⟨0, 63, 0x20⟩], some 14, .app, .none, false, [⟨0, 4, .rs, 0⟩, ⟨8, 3, .rs, 0⟩, ⟨16, 1, .rs, 0⟩, ⟨17, 1, .rs, 0⟩, ⟨24, 8, .rs, 0⟩]⟩, -- CX_HP_TX_CFG: 16_compute_memory_bridge.md, R472
  ⟨0x810200c, [⟨0, 1, 0x10000⟩, ⟨0, 63, 0x20⟩], some 14, .app, .none, false, [⟨0, 16, .rs, 0⟩]⟩, -- CX_HP_TX_COAL: 16_compute_memory_bridge.md, R472
  ⟨0x8102010, [⟨0, 1, 0x10000⟩, ⟨0, 63, 0x20⟩], none, .app, .none, false, [⟨0, 16, .rw, 0⟩]⟩, -- CX_HP_TX_TAIL: 16_compute_memory_bridge.md, R472
  ⟨0x8102014, [⟨0, 1, 0x10000⟩, ⟨0, 63, 0x20⟩], none, .app, .none, false, [⟨0, 16, .ro, 0⟩]⟩, -- CX_HP_TX_HEAD: 16_compute_memory_bridge.md, R472
  ⟨0x8100100, [⟨0, 1, 0x10000⟩, ⟨0, 1, 4⟩], none, .app, .none, false, [⟨0, 32, .rw1c, 0⟩]⟩, -- CX_HP_RXPEND: 16_compute_memory_bridge.md, R472
  ⟨0x8100108, [⟨0, 1, 0x10000⟩, ⟨0, 1, 4⟩], none, .app, .none, false, [⟨0, 32, .rw1c, 0⟩]⟩, -- CX_HP_TXPEND: 16_compute_memory_bridge.md, R472
  ⟨0x8100110, [⟨0, 1, 0x10000⟩, ⟨0, 1, 4⟩], none, .app, .none, false, [⟨0, 32, .rw1c, 0⟩]⟩, -- CX_HP_ERRPEND: 16_compute_memory_bridge.md, R472
  ⟨0x8100200, [⟨0, 1, 0x10000⟩], none, .app, .none, false, [⟨0, 32, .rc, 0⟩]⟩, -- HP_RX_FRAMES: 16_compute_memory_bridge.md, R472
  ⟨0x8100204, [⟨0, 1, 0x10000⟩], none, .app, .none, false, [⟨0, 32, .rc, 0⟩]⟩, -- HP_RX_NOBUF: 16_compute_memory_bridge.md, R472
  ⟨0x8100208, [⟨0, 1, 0x10000⟩], none, .app, .none, false, [⟨0, 32, .rc, 0⟩]⟩, -- HP_RX_NORING: 16_compute_memory_bridge.md, R472
  ⟨0x810020c, [⟨0, 1, 0x10000⟩], none, .app, .none, false, [⟨0, 32, .rc, 0⟩]⟩, -- HP_TX_FRAMES: 16_compute_memory_bridge.md, R472
  ⟨0x8100210, [⟨0, 1, 0x10000⟩], none, .app, .none, false, [⟨0, 32, .rc, 0⟩]⟩ -- HP_TX_BADDESC: 16_compute_memory_bridge.md, R472
]

/-- Registers of block CX, part 2. -/
def rowsCX1 : List RegRow := [
  ⟨0x8100214, [⟨0, 1, 0x10000⟩], none, .app, .none, false, [⟨0, 32, .rc, 0⟩]⟩ -- HP_RING_UE: 16_compute_memory_bridge.md, R472
]

/-- All registers of block CX. -/
def rowsCX : List RegRow := rowsCX0 ++ rowsCX1

/-- Registers of block MX, part 1. -/
def rowsMX0 : List RegRow := [
  ⟨0x9000400, [], some 15, .ddr, .none, false, [⟨0, 1, .rs, 0⟩, ⟨1, 3, .rs, 0⟩, ⟨8, 7, .rs, 0x64⟩]⟩, -- MX_HAMPER_CFG: 06_buffer.md, R192
  ⟨0x9000000, [], none, .ddr, .none, false, [⟨0, 1, .ro, 0⟩, ⟨1, 1, .ro, 0⟩, ⟨2, 1, .ro, 0⟩]⟩, -- MX_DRAM_STAT: 16_compute_memory_bridge.md, R473
  ⟨0x9000100, [], some 15, .ddr, .none, false, [⟨0, 8, .rs, 0x10⟩, ⟨8, 8, .rs, 0x20⟩, ⟨16, 8, .rs, 4⟩, ⟨24, 8, .rs, 0xc⟩]⟩, -- MX_ARB_W_0: 16_compute_memory_bridge.md, R473
  ⟨0x9000104, [], some 15, .ddr, .none, false, [⟨0, 8, .rs, 0x40⟩]⟩, -- MX_ARB_W_1: 16_compute_memory_bridge.md, R473
  ⟨0x9000110, [], some 15, .ddr, .none, false, [⟨0, 8, .rs, 0x18⟩]⟩, -- MX_SCRUB_CFG: 16_compute_memory_bridge.md, R473
  ⟨0x9000200, [], none, .ddr, .none, false, [⟨0, 32, .rc, 0⟩]⟩, -- MX_DRAM_CE: 16_compute_memory_bridge.md, R473
  ⟨0x9000204, [], none, .ddr, .none, false, [⟨0, 32, .rc, 0⟩]⟩, -- MX_DRAM_UE: 16_compute_memory_bridge.md, R473
  ⟨0x9000208, [], none, .ddr, .none, false, [⟨0, 32, .ro, 0⟩]⟩, -- MX_DRAM_UE_ADDR_LO: 16_compute_memory_bridge.md, R473
  ⟨0x900020c, [], none, .ddr, .none, false, [⟨0, 32, .ro, 0⟩]⟩, -- MX_DRAM_UE_ADDR_HI: 16_compute_memory_bridge.md, R473
  ⟨0x9000300, [⟨0, 5, 8⟩], none, .ddr, .low, false, [⟨0, 32, .ro, 0⟩]⟩, -- MX_ARB_BYTES: 16_compute_memory_bridge.md, R473 (low word)
  ⟨0x9000304, [⟨0, 5, 8⟩], none, .ddr, .high, false, [⟨0, 32, .ro, 0⟩]⟩, -- MX_ARB_BYTES: 16_compute_memory_bridge.md, R473 (high word)
  ⟨0x9100000, [⟨0, 15, 0x20⟩], some 16, .pcie, .none, false, [⟨12, 17, .rs, 0⟩]⟩, -- MX_HB_OWIN_LBASE: 16_compute_memory_bridge.md, R473
  ⟨0x9100004, [⟨0, 15, 0x20⟩], some 16, .pcie, .none, false, [⟨0, 5, .rs, 0xc⟩]⟩, -- MX_HB_OWIN_LSIZE: 16_compute_memory_bridge.md, R473
  ⟨0x9100008, [⟨0, 15, 0x20⟩], some 16, .pcie, .none, false, [⟨12, 20, .rs, 0⟩]⟩, -- MX_HB_OWIN_PBASE_LO: 16_compute_memory_bridge.md, R473
  ⟨0x910000c, [⟨0, 15, 0x20⟩], some 16, .pcie, .none, false, [⟨0, 32, .rs, 0⟩]⟩, -- MX_HB_OWIN_PBASE_HI: 16_compute_memory_bridge.md, R473
  ⟨0x9100010, [⟨0, 15, 0x20⟩], some 16, .pcie, .none, false, [⟨0, 1, .rs, 0⟩, ⟨1, 1, .rs, 0⟩, ⟨2, 1, .rs, 1⟩, ⟨3, 2, .rs, 0⟩, ⟨5, 2, .rs, 0⟩, ⟨8, 3, .rs, 0⟩, ⟨11, 1, .rs, 0⟩]⟩, -- MX_HB_OWIN_ATTR: 16_compute_memory_bridge.md, R473
  ⟨0x9110000, [⟨0, 7, 0x20⟩], some 16, .pcie, .none, false, [⟨12, 20, .rs, 0⟩]⟩, -- MX_HB_IWIN_IBASE_LO: 16_compute_memory_bridge.md, R473
  ⟨0x9110004, [⟨0, 7, 0x20⟩], some 16, .pcie, .none, false, [⟨0, 32, .rs, 0⟩]⟩, -- MX_HB_IWIN_IBASE_HI: 16_compute_memory_bridge.md, R473
  ⟨0x9110008, [⟨0, 7, 0x20⟩], some 16, .pcie, .none, false, [⟨0, 6, .rs, 0xc⟩, ⟨8, 1, .rs, 0⟩]⟩, -- MX_HB_IWIN_SIZE: 16_compute_memory_bridge.md, R473
  ⟨0x911000c, [⟨0, 7, 0x20⟩], some 16, .pcie, .none, false, [⟨12, 20, .rs, 0⟩]⟩, -- MX_HB_IWIN_LADDR_LO: 16_compute_memory_bridge.md, R473
  ⟨0x9110010, [⟨0, 7, 0x20⟩], some 16, .pcie, .none, false, [⟨0, 8, .rs, 0⟩]⟩, -- MX_HB_IWIN_LADDR_HI: 16_compute_memory_bridge.md, R473
  ⟨0x9101000, [], some 16, .pcie, .none, false, [⟨0, 6, .rs, 0x1e⟩, ⟨8, 2, .rs, 3⟩]⟩, -- MX_HB_CFG: 16_compute_memory_bridge.md, R473
  ⟨0x9101004, [], none, .pcie, .none, false, [⟨0, 1, .ro, 0⟩, ⟨1, 1, .ro, 0⟩, ⟨2, 3, .ro, 0⟩, ⟨5, 3, .ro, 0⟩, ⟨16, 16, .ro, 0⟩]⟩, -- MX_HB_STAT: 16_compute_memory_bridge.md, R473
  ⟨0x9101008, [], none, .pcie, .none, false, [⟨0, 16, .wo, 0⟩]⟩, -- MX_HB_FENCE_CLR: 16_compute_memory_bridge.md, R473
  ⟨0x9101010, [], none, .pcie, .none, false, [⟨0, 4, .ro, 0⟩, ⟨16, 16, .ro, 0⟩]⟩, -- MX_HB_ERR_HEAD: 16_compute_memory_bridge.md, R473
  ⟨0x9101020, [], some 16, .pcie, .none, false, [⟨0, 32, .rs, 0⟩]⟩, -- MX_HB_MSI_ADDR_LO: 16_compute_memory_bridge.md, R473
  ⟨0x9101024, [], some 16, .pcie, .none, false, [⟨0, 32, .rs, 0⟩]⟩, -- MX_HB_MSI_ADDR_HI: 16_compute_memory_bridge.md, R473
  ⟨0x9101028, [], none, .pcie, .none, false, [⟨0, 32, .rc, 0⟩]⟩, -- MX_HB_MSI_DATA: 16_compute_memory_bridge.md, R473
  ⟨0x910102c, [], none, .pcie, .none, false, [⟨0, 1, .rc, 0⟩]⟩, -- MX_HB_MSI_VALID: 16_compute_memory_bridge.md, R473
  ⟨0x9101030, [], none, .pcie, .none, false, [⟨0, 32, .rc, 0⟩]⟩, -- MX_HB_POSTED_FAIL: 16_compute_memory_bridge.md, R473
  ⟨0x9101034, [], none, .pcie, .none, false, [⟨0, 32, .rc, 0⟩]⟩, -- MX_HB_READ_FAIL: 16_compute_memory_bridge.md, R473
  ⟨0x9101038, [], none, .pcie, .none, false, [⟨0, 32, .rc, 0⟩]⟩, -- MX_HB_INB_ERR: 16_compute_memory_bridge.md, R473
  ⟨0x910103c, [], none, .pcie, .none, false, [⟨0, 32, .rc, 0⟩]⟩, -- MX_HB_SIZE_ERR: 16_compute_memory_bridge.md, R473
  ⟨0x9101040, [], none, .pcie, .none, false, [⟨0, 32, .rc, 0⟩]⟩, -- MX_HB_MSI_LOST: 16_compute_memory_bridge.md, R473
  ⟨0x9101100, [⟨0, 15, 0x20⟩], none, .pcie, .none, false, [⟨0, 4, .ro, 0⟩, ⟨4, 1, .ro, 0⟩, ⟨8, 4, .ro, 0⟩, ⟨12, 4, .ro, 0⟩]⟩, -- MX_HB_ERR_W0: 16_compute_memory_bridge.md, R473
  ⟨0x9101104, [⟨0, 15, 0x20⟩], none, .pcie, .none, false, [⟨0, 32, .ro, 0⟩]⟩, -- MX_HB_ERR_W1: 16_compute_memory_bridge.md, R473
  ⟨0x9101108, [⟨0, 15, 0x20⟩], none, .pcie, .none, false, [⟨0, 32, .ro, 0⟩]⟩, -- MX_HB_ERR_W2: 16_compute_memory_bridge.md, R473
  ⟨0x910110c, [⟨0, 15, 0x20⟩], none, .pcie, .none, false, [⟨0, 30, .ro, 0⟩]⟩, -- MX_HB_ERR_W3: 16_compute_memory_bridge.md, R473
  ⟨0x9101110, [⟨0, 15, 0x20⟩], none, .pcie, .none, false, [⟨0, 32, .ro, 0⟩]⟩, -- MX_HB_ERR_W4: 16_compute_memory_bridge.md, R473
  ⟨0x9101114, [⟨0, 15, 0x20⟩], none, .pcie, .none, false, [⟨0, 16, .ro, 0⟩]⟩ -- MX_HB_ERR_W5: 16_compute_memory_bridge.md, R473
]

/-- All registers of block MX. -/
def rowsMX : List RegRow := rowsMX0

/-- Registers of block PW, part 1. -/
def rowsPW0 : List RegRow := [
  ⟨0xa000100, [], some 12, .aon, .none, false, [⟨0, 8, .rs, 0x32⟩, ⟨8, 4, .rs, 8⟩, ⟨16, 8, .rs, 0xa⟩]⟩, -- PW_WAKE_CFG: 14_sleep_wake.md, R423
  ⟨0xa000110, [⟨0, 4, 4⟩], some 12, .aon, .none, false, [⟨0, 1, .rs, 0⟩, ⟨1, 1, .rs, 0⟩, ⟨2, 8, .rs, 5⟩, ⟨16, 16, .rs, 0⟩]⟩, -- PW_WAKEIN_CFG: 14_sleep_wake.md, R423
  ⟨0xa000140, [⟨0, 7, 0x10⟩], some 12, .aon, .none, false, [⟨0, 1, .rs, 0⟩, ⟨1, 1, .rs, 0⟩, ⟨4, 2, .rs, 2⟩]⟩, -- PW_CANWAKE_CFG_W0: 14_sleep_wake.md, R423
  ⟨0xa000144, [⟨0, 7, 0x10⟩], some 12, .aon, .none, false, [⟨0, 29, .rs, 0⟩, ⟨29, 1, .rs, 0⟩]⟩, -- PW_CANWAKE_CFG_W1: 14_sleep_wake.md, R423
  ⟨0xa000148, [⟨0, 7, 0x10⟩], some 12, .aon, .none, false, [⟨0, 29, .rs, 0⟩]⟩, -- PW_CANWAKE_CFG_W2: 14_sleep_wake.md, R423
  ⟨0xa0001c0, [], some 12, .aon, .none, false, [⟨0, 12, .rs, 0⟩]⟩, -- PW_T1SWAKE_CFG: 14_sleep_wake.md, R423
  ⟨0xa0001d0, [], none, .aon, .none, false, [⟨0, 32, .rw, 0⟩]⟩, -- PW_RTC_ALARM_SEC: 14_sleep_wake.md, R423
  ⟨0xa0001d4, [], none, .aon, .none, false, [⟨0, 1, .rw, 0⟩, ⟨16, 16, .rw, 0⟩]⟩, -- PW_RTC_ALARM_CTL: 14_sleep_wake.md, R423
  ⟨0xa000200, [], none, .aon, .none, false, [⟨0, 32, .ro, 0⟩]⟩, -- PW_RTC_SEC_LO: 14_sleep_wake.md, R423
  ⟨0xa000204, [], none, .aon, .none, false, [⟨0, 16, .ro, 0⟩]⟩, -- PW_RTC_SEC_HI: 14_sleep_wake.md, R423
  ⟨0xa000208, [], none, .aon, .none, false, [⟨0, 15, .ro, 0⟩, ⟨31, 1, .ro, 0⟩]⟩, -- PW_RTC_SUB: 14_sleep_wake.md, R423
  ⟨0xa00020c, [], none, .aon, .none, false, [⟨0, 32, .wo, 0⟩]⟩, -- PW_RTC_SET_LO: 14_sleep_wake.md, R423
  ⟨0xa000210, [], none, .aon, .none, false, [⟨0, 16, .wo, 0⟩, ⟨31, 1, .wo, 0⟩]⟩, -- PW_RTC_SET_HI: 14_sleep_wake.md, R423
  ⟨0xa000300, [], none, .aon, .none, false, [⟨0, 4, .ro, 0⟩, ⟨16, 16, .ro, 0⟩]⟩, -- PW_WAKE_HEAD: 14_sleep_wake.md, R423
  ⟨0xa000700, [], none, .aon, .none, false, [⟨0, 32, .rc, 0⟩]⟩, -- PW_FALSE_TOTAL: 14_sleep_wake.md, R423
  ⟨0xa000704, [], none, .aon, .none, false, [⟨0, 32, .rc, 0⟩]⟩, -- PW_MASKED_HITS: 14_sleep_wake.md, R423
  ⟨0xa000600, [⟨0, 24, 4⟩], none, .aon, .none, false, [⟨0, 4, .ro, 0⟩, ⟨15, 1, .ro, 0⟩, ⟨16, 16, .ro, 0⟩]⟩, -- PW_FALSE: 14_sleep_wake.md, R423
  ⟨0xa000400, [⟨0, 15, 0x20⟩], none, .aon, .none, false, [⟨0, 4, .ro, 0⟩, ⟨4, 6, .ro, 0⟩, ⟨10, 1, .ro, 0⟩, ⟨11, 1, .ro, 0⟩, ⟨12, 1, .ro, 0⟩, ⟨13, 1, .ro, 0⟩, ⟨14, 1, .ro, 0⟩, ⟨16, 16, .ro, 0⟩]⟩, -- PW_WAKEREC_W0: 14_sleep_wake.md, R424
  ⟨0xa000404, [⟨0, 15, 0x20⟩], none, .aon, .none, false, [⟨0, 32, .ro, 0⟩]⟩, -- PW_WAKEREC_W1: 14_sleep_wake.md, R424
  ⟨0xa000408, [⟨0, 15, 0x20⟩], none, .aon, .none, false, [⟨0, 16, .ro, 0⟩]⟩, -- PW_WAKEREC_W2: 14_sleep_wake.md, R424
  ⟨0xa00040c, [⟨0, 15, 0x20⟩], none, .aon, .none, false, [⟨0, 32, .ro, 0⟩]⟩, -- PW_WAKEREC_W3: 14_sleep_wake.md, R424
  ⟨0xa000410, [⟨0, 15, 0x20⟩], none, .aon, .none, false, [⟨0, 16, .ro, 0⟩, ⟨16, 15, .ro, 0⟩]⟩, -- PW_WAKEREC_W4: 14_sleep_wake.md, R424
  ⟨0xa000414, [⟨0, 15, 0x20⟩], none, .aon, .none, false, [⟨0, 30, .ro, 0⟩]⟩, -- PW_WAKEREC_W5: 14_sleep_wake.md, R424
  ⟨0xa000418, [⟨0, 15, 0x20⟩], none, .aon, .none, false, [⟨0, 32, .ro, 0⟩]⟩, -- PW_WAKEREC_W6: 14_sleep_wake.md, R424
  ⟨0xa00041c, [⟨0, 15, 0x20⟩], none, .aon, .none, false, [⟨0, 16, .ro, 0⟩, ⟨16, 2, .ro, 0⟩, ⟨31, 1, .ro, 0⟩]⟩, -- PW_WAKEREC_W7: 14_sleep_wake.md, R424
  ⟨0xa001000, [⟨0, 15, 0x40⟩], some 13, .aon, .none, false, [⟨0, 1, .rs, 0⟩, ⟨1, 3, .rs, 0⟩, ⟨4, 2, .rs, 0⟩, ⟨8, 9, .rs, 0xa⟩, ⟨18, 2, .rs, 0⟩, ⟨20, 4, .rs, 3⟩, ⟨24, 5, .rs, 0xa⟩, ⟨29, 1, .rs, 0⟩, ⟨30, 1, .rs, 0⟩]⟩, -- PW_OUT_CFG: 15_load_switches.md, R444
  ⟨0xa001400, [], some 13, .aon, .none, false, [⟨0, 8, .rs, 0x19⟩]⟩, -- PW_LS_CFG: 15_load_switches.md, R445
  ⟨0xa001404, [], none, .aon, .none, false, [⟨0, 16, .ro, 0⟩, ⟨16, 1, .ro, 0⟩, ⟨17, 2, .ro, 0⟩, ⟨24, 8, .ro, 0⟩]⟩, -- PW_LS_STAT: 15_load_switches.md, R445
  ⟨0xa001408, [], none, .aon, .none, false, [⟨0, 4, .rw, 0⟩, ⟨4, 1, .rw, 0⟩]⟩, -- PW_SENSE_SEL: 15_load_switches.md, R445
  ⟨0xa00140c, [], none, .aon, .none, false, [⟨0, 16, .ro, 0⟩]⟩, -- PW_LS_DISS: 15_load_switches.md, R445
  ⟨0xa001410, [], none, .aon, .none, false, [⟨0, 4, .wo, 0⟩, ⟨8, 1, .wo, 0⟩]⟩, -- PW_OUT_CMD: 15_load_switches.md, R445
  ⟨0xa001414, [], none, .aon, .none, false, [⟨0, 4, .ro, 0⟩]⟩, -- PW_LS_EV_LAST: 15_load_switches.md, R445
  ⟨0xa001004, [⟨0, 15, 0x40⟩], none, .aon, .none, false, [⟨0, 3, .ro, 0⟩, ⟨4, 3, .ro, 0⟩, ⟨7, 1, .ro, 0⟩, ⟨8, 4, .ro, 0⟩, ⟨16, 12, .ro, 0⟩]⟩, -- PW_OUT_STAT: 15_load_switches.md, R446
  ⟨0xa001008, [⟨0, 15, 0x40⟩], none, .aon, .none, false, [⟨0, 8, .ro, 0⟩, ⟨16, 8, .ro, 0⟩]⟩, -- PW_OUT_TEMP: 15_load_switches.md, R446
  ⟨0xa00100c, [⟨0, 15, 0x40⟩], none, .aon, .none, false, [⟨0, 16, .ro, 0⟩]⟩, -- PW_OUT_E: 15_load_switches.md, R446
  ⟨0xa001010, [⟨0, 15, 0x40⟩], none, .aon, .none, false, [⟨0, 32, .rc, 0⟩]⟩, -- PW_OUT_TRIPS: 15_load_switches.md, R446
  ⟨0xa001014, [⟨0, 15, 0x40⟩], none, .aon, .none, false, [⟨0, 32, .rc, 0⟩]⟩, -- PW_OUT_RETRIES: 15_load_switches.md, R446
  ⟨0xa000800, [], none, .aon, .none, false, [⟨0, 3, .ro, 0⟩, ⟨3, 2, .ro, 0⟩, ⟨5, 3, .ro, 0⟩, ⟨16, 16, .ro, 0⟩]⟩ -- PW_RAIL_STAT: 19_pins_electrical.md, R536
]

/-- All registers of block PW. -/
def rowsPW : List RegRow := rowsPW0

/-- Registers of block OB, part 1. -/
def rowsOB0 : List RegRow := [
  ⟨0xb000000, [], none, .svc, .none, false, [⟨0, 1, .wo, 0⟩, ⟨1, 1, .wo, 0⟩, ⟨2, 2, .rw, 0⟩, ⟨4, 2, .rw, 0⟩, ⟨6, 2, .ro, 0⟩, ⟨8, 1, .rw1c, 0⟩, ⟨9, 1, .rw1c, 0⟩, ⟨16, 8, .rw, 0x64⟩]⟩, -- OB_SNAP: 01_architecture.md, R35
  ⟨0xb000004, [], none, .svc, .none, false, [⟨0, 30, .rw, 0⟩]⟩, -- OB_SNAP_AT_NS: 01_architecture.md, R543
  ⟨0xb000008, [], none, .svc, .none, false, [⟨0, 32, .rw, 0⟩]⟩, -- OB_SNAP_AT_SEC_LO: 01_architecture.md, R543
  ⟨0xb00000c, [], none, .svc, .none, false, [⟨0, 16, .rw, 0⟩]⟩, -- OB_SNAP_AT_SEC_HI: 01_architecture.md, R543
  ⟨0xb000010, [], none, .svc, .none, false, [⟨0, 30, .ro, 0⟩]⟩, -- OB_SNAP_TIME_NS: 01_architecture.md, R543
  ⟨0xb000014, [], none, .svc, .none, false, [⟨0, 32, .ro, 0⟩]⟩, -- OB_SNAP_TIME_SEC_LO: 01_architecture.md, R543
  ⟨0xb000018, [], none, .svc, .none, false, [⟨0, 16, .ro, 0⟩]⟩, -- OB_SNAP_TIME_SEC_HI: 01_architecture.md, R543
  ⟨0xb001000, [⟨0, 79, 0x10⟩], some 17, .core, .none, false, [⟨0, 8, .rs, 0⟩, ⟨8, 1, .rs, 0⟩, ⟨9, 1, .rs, 0⟩, ⟨12, 20, .rs, 0⟩]⟩, -- OB_PMU_SEL: 18_observability_faults.md, R517
  ⟨0xb001000, [⟨80, 95, 0x10⟩], some 17, .sec, .none, false, [⟨0, 8, .rs, 0⟩, ⟨8, 1, .rs, 0⟩, ⟨9, 1, .rs, 0⟩, ⟨12, 20, .rs, 0⟩]⟩, -- OB_PMU_SEL: 18_observability_faults.md, R517
  ⟨0xb001004, [⟨0, 79, 0x10⟩], some 17, .core, .none, false, [⟨0, 16, .rs, 0xffff⟩]⟩, -- OB_PMU_QUAL: 18_observability_faults.md, R517
  ⟨0xb001004, [⟨80, 95, 0x10⟩], some 17, .sec, .none, false, [⟨0, 16, .rs, 0xffff⟩]⟩, -- OB_PMU_QUAL: 18_observability_faults.md, R517
  ⟨0xb001008, [⟨0, 79, 0x10⟩], none, .core, .low, false, [⟨0, 32, .rw, 0⟩]⟩, -- OB_PMU_CNT: 18_observability_faults.md, R517 (low word)
  ⟨0xb00100c, [⟨0, 79, 0x10⟩], none, .core, .high, false, [⟨0, 32, .rw, 0⟩]⟩, -- OB_PMU_CNT: 18_observability_faults.md, R517 (high word)
  ⟨0xb001008, [⟨80, 95, 0x10⟩], none, .sec, .low, false, [⟨0, 32, .rw, 0⟩]⟩, -- OB_PMU_CNT: 18_observability_faults.md, R517 (low word)
  ⟨0xb00100c, [⟨80, 95, 0x10⟩], none, .sec, .high, false, [⟨0, 32, .rw, 0⟩]⟩, -- OB_PMU_CNT: 18_observability_faults.md, R517 (high word)
  ⟨0xb001800, [⟨0, 2, 4⟩], none, .core, .none, false, [⟨0, 32, .rw1c, 0⟩]⟩, -- OB_PMU_OVF: 18_observability_faults.md, R517
  ⟨0xb000100, [], none, .core, .low, false, [⟨0, 32, .ro, 0⟩]⟩, -- OB_SLOT_RETIRED: 18_observability_faults.md, R517 (low word)
  ⟨0xb000104, [], none, .core, .high, false, [⟨0, 32, .ro, 0⟩]⟩, -- OB_SLOT_RETIRED: 18_observability_faults.md, R517 (high word)
  ⟨0xb000108, [], none, .core, .low, false, [⟨0, 32, .ro, 0⟩]⟩, -- OB_SLOT_WASTED: 18_observability_faults.md, R517 (low word)
  ⟨0xb00010c, [], none, .core, .high, false, [⟨0, 32, .ro, 0⟩]⟩, -- OB_SLOT_WASTED: 18_observability_faults.md, R517 (high word)
  ⟨0xb000110, [], none, .core, .low, false, [⟨0, 32, .ro, 0⟩]⟩, -- OB_SLOT_FRONT: 18_observability_faults.md, R517 (low word)
  ⟨0xb000114, [], none, .core, .high, false, [⟨0, 32, .ro, 0⟩]⟩, -- OB_SLOT_FRONT: 18_observability_faults.md, R517 (high word)
  ⟨0xb000118, [], none, .core, .low, false, [⟨0, 32, .ro, 0⟩]⟩, -- OB_SLOT_BACK: 18_observability_faults.md, R517 (low word)
  ⟨0xb00011c, [], none, .core, .high, false, [⟨0, 32, .ro, 0⟩]⟩, -- OB_SLOT_BACK: 18_observability_faults.md, R517 (high word)
  ⟨0xb000120, [], none, .core, .none, false, [⟨0, 24, .ro, 0⟩]⟩, -- OB_SLOT_PEND: 18_observability_faults.md, R517
  ⟨0xb000124, [], none, .core, .none, false, [⟨0, 32, .rc, 0⟩]⟩, -- OB_SLOT_BACK_COPY: 18_observability_faults.md, R517
  ⟨0xb000128, [], none, .core, .none, false, [⟨0, 32, .rc, 0⟩]⟩, -- OB_SLOT_BACK_STALL: 18_observability_faults.md, R517
  ⟨0xb00012c, [], none, .core, .none, false, [⟨0, 32, .rc, 0⟩]⟩, -- OB_SLOT_BACK_CE: 18_observability_faults.md, R517
  ⟨0xb000130, [], none, .core, .none, false, [⟨0, 1, .wo, 0⟩]⟩, -- OB_SLOT_CLR: 18_observability_faults.md, R517
  ⟨0xb000200, [], some 17, .core, .none, false, [⟨0, 1, .rs, 0⟩, ⟨8, 5, .rs, 0xa⟩]⟩, -- OB_PEG_CFG: 18_observability_faults.md, R518
  ⟨0xb000204, [], some 17, .core, .none, false, [⟨0, 32, .rs, 0⟩]⟩, -- OB_PEG_PORTS_LO: 18_observability_faults.md, R518
  ⟨0xb000208, [], some 17, .core, .none, false, [⟨0, 9, .rs, 0⟩]⟩, -- OB_PEG_PORTS_HI: 18_observability_faults.md, R518
  ⟨0xb000400, [⟨0, 8, 0x20⟩], some 17, .core, .none, false, [⟨12, 20, .rs, 0⟩]⟩, -- OB_RING_BASE_LO: 18_observability_faults.md, R518
  ⟨0xb000404, [⟨0, 8, 0x20⟩], some 17, .core, .none, false, [⟨0, 8, .rs, 0⟩, ⟨16, 5, .rs, 0⟩]⟩, -- OB_RING_BASE_HI: 18_observability_faults.md, R518
  ⟨0xb000408, [⟨0, 8, 0x20⟩], none, .core, .none, false, [⟨0, 22, .rw, 0⟩]⟩, -- OB_RING_TAIL: 18_observability_faults.md, R518
  ⟨0xb00040c, [⟨0, 8, 0x20⟩], none, .core, .none, false, [⟨0, 22, .ro, 0⟩]⟩, -- OB_RING_HEAD: 18_observability_faults.md, R518
  ⟨0xb000410, [⟨0, 8, 0x20⟩], none, .core, .none, false, [⟨0, 32, .rc, 0⟩]⟩, -- OB_RING_LOST: 18_observability_faults.md, R518
  ⟨0xb000414, [⟨0, 8, 0x20⟩], none, .core, .none, false, [⟨0, 1, .ro, 0⟩]⟩, -- OB_RING_BAD: 18_observability_faults.md, R518
  ⟨0xb000600, [⟨0, 7, 0x20⟩], some 17, .core, .none, false, [⟨0, 1, .rs, 0⟩, ⟨1, 5, .rs, 0⟩, ⟨8, 3, .rs, 7⟩, ⟨11, 1, .rs, 0⟩, ⟨12, 1, .rs, 0⟩]⟩, -- OB_LINE_CFG_W0: 18_observability_faults.md, R518
  ⟨0xb000604, [⟨0, 7, 0x20⟩], some 17, .core, .none, false, [⟨0, 32, .rs, 0⟩]⟩ -- OB_LINE_CFG_W1: 18_observability_faults.md, R518
]

/-- Registers of block OB, part 2. -/
def rowsOB1 : List RegRow := [
  ⟨0xb000608, [⟨0, 7, 0x20⟩], some 17, .core, .none, false, [⟨0, 9, .rs, 0⟩]⟩, -- OB_LINE_CFG_W2: 18_observability_faults.md, R518
  ⟨0xb00060c, [⟨0, 7, 0x20⟩], some 17, .core, .none, false, [⟨0, 16, .rs, 0⟩, ⟨16, 12, .rs, 0⟩]⟩, -- OB_LINE_CFG_W3: 18_observability_faults.md, R518
  ⟨0xb000800, [⟨0, 7, 0x40⟩], some 17, .core, .none, false, [⟨0, 4, .rs, 0⟩, ⟨8, 6, .rs, 0⟩, ⟨16, 2, .rs, 1⟩, ⟨18, 1, .rs, 1⟩, ⟨19, 1, .rs, 1⟩, ⟨20, 1, .rs, 0⟩, ⟨21, 1, .rs, 0⟩]⟩, -- OB_CSU_CFG: 18_observability_faults.md, R518
  ⟨0xb000804, [⟨0, 7, 0x40⟩], some 17, .core, .none, false, [⟨0, 14, .rs, 0⟩, ⟨16, 14, .rs, 0⟩]⟩, -- OB_CSU_RANGE: 18_observability_faults.md, R518
  ⟨0xb000808, [⟨0, 7, 0x40⟩], some 17, .core, .none, false, [⟨0, 16, .rs, 0⟩]⟩, -- OB_CSU_FILT: 18_observability_faults.md, R518
  ⟨0xb00080c, [⟨0, 7, 0x40⟩], some 17, .core, .none, false, [⟨0, 32, .rs, 0xffffffff⟩]⟩, -- OB_CSU_INIT: 18_observability_faults.md, R518
  ⟨0xb000810, [⟨0, 7, 0x40⟩], some 17, .core, .none, false, [⟨0, 32, .rs, 0xffffffff⟩]⟩, -- OB_CSU_XOROUT: 18_observability_faults.md, R518
  ⟨0xb000820, [⟨0, 7, 0x40⟩], none, .core, .none, false, [⟨0, 1, .rw, 0⟩, ⟨1, 1, .wo, 0⟩, ⟨2, 1, .wo, 0⟩]⟩, -- OB_CSU_CTL: 18_observability_faults.md, R518
  ⟨0xb000824, [⟨0, 7, 0x40⟩], none, .core, .none, false, [⟨0, 1, .ro, 0⟩]⟩, -- OB_CSU_STAT: 18_observability_faults.md, R518
  ⟨0xb000828, [⟨0, 7, 0x40⟩], none, .core, .none, false, [⟨0, 32, .rw, 0⟩]⟩, -- OB_CSU_RUN: 18_observability_faults.md, R518
  ⟨0xb00082c, [⟨0, 7, 0x40⟩], none, .core, .none, false, [⟨0, 32, .ro, 0⟩]⟩, -- OB_CSU_RESULT: 18_observability_faults.md, R518
  ⟨0xb000830, [⟨0, 7, 0x40⟩], none, .core, .none, false, [⟨0, 32, .rc, 0⟩]⟩, -- OB_CSU_FRAMES: 18_observability_faults.md, R518
  ⟨0xb000834, [⟨0, 7, 0x40⟩], none, .core, .none, false, [⟨0, 32, .rc, 0⟩]⟩, -- OB_CSU_SHORT: 18_observability_faults.md, R518
  ⟨0xb000838, [⟨0, 7, 0x40⟩], none, .core, .none, false, [⟨0, 32, .rc, 0⟩]⟩ -- OB_CSU_HELD: 18_observability_faults.md, R518
]

/-- All registers of block OB. -/
def rowsOB : List RegRow := rowsOB0 ++ rowsOB1

/-- The rows of a block by its number in R38 (the space offset divided by 16 MiB). -/
def blockRows : Nat → List RegRow
  | 0 => rowsSV
  | 1 => rowsPX
  | 2 => rowsSX
  | 3 => rowsFX
  | 4 => rowsTE
  | 5 => rowsBX
  | 6 => rowsKX
  | 7 => rowsCE
  | 8 => rowsCX
  | 9 => rowsMX
  | 10 => rowsPW
  | 11 => rowsOB
  | _ => []

end RegMap

end Sys2Proof.Machine
end

