-- ==== Sys2Proof/Machine/Fields.lean ====
section
/-!
DEFINITION. The names of the register map: `R.NAME` is a register's space offset and `F.NAME_FIELD` one of its
fields, both as functions of the instance numbers, under the names that the spec gives them (R10).
-/

namespace Sys2Proof.Machine

/-- SV_DEVICE_ID: 00_scope.md, R14. -/
abbrev R.SV_DEVICE_ID : Nat := 0
abbrev F.SV_DEVICE_ID_PART : Fld := ⟨0, 16, 16, 18⟩
abbrev F.SV_DEVICE_ID_STEPPING : Fld := ⟨0, 8, 8, 18⟩
/-- OB_SNAP: 01_architecture.md, R35. -/
abbrev R.OB_SNAP : Nat := 0xb000000
abbrev F.OB_SNAP_TRIGGER : Fld := ⟨0xb000000, 0, 1, 18⟩
abbrev F.OB_SNAP_RELEASE : Fld := ⟨0xb000000, 1, 1, 18⟩
abbrev F.OB_SNAP_SRC : Fld := ⟨0xb000000, 2, 2, 18⟩
abbrev F.OB_SNAP_TI_SEL : Fld := ⟨0xb000000, 4, 2, 18⟩
abbrev F.OB_SNAP_STATE : Fld := ⟨0xb000000, 6, 2, 18⟩
abbrev F.OB_SNAP_REFUSED : Fld := ⟨0xb000000, 8, 1, 18⟩
abbrev F.OB_SNAP_EXPIRED : Fld := ⟨0xb000000, 9, 1, 18⟩
abbrev F.OB_SNAP_HOLD_MAX : Fld := ⟨0xb000000, 16, 8, 18⟩
/-- OB_SNAP_AT_NS: 01_architecture.md, R543. -/
abbrev R.OB_SNAP_AT_NS : Nat := 0xb000004
abbrev F.OB_SNAP_AT_NS_NS : Fld := ⟨0xb000004, 0, 30, 18⟩
/-- OB_SNAP_AT_SEC_LO: 01_architecture.md, R543. -/
abbrev R.OB_SNAP_AT_SEC_LO : Nat := 0xb000008
abbrev F.OB_SNAP_AT_SEC_LO_SEC : Fld := ⟨0xb000008, 0, 32, 18⟩
/-- OB_SNAP_AT_SEC_HI: 01_architecture.md, R543. -/
abbrev R.OB_SNAP_AT_SEC_HI : Nat := 0xb00000c
abbrev F.OB_SNAP_AT_SEC_HI_SEC : Fld := ⟨0xb00000c, 0, 16, 18⟩
/-- OB_SNAP_TIME_NS: 01_architecture.md, R543. -/
abbrev R.OB_SNAP_TIME_NS : Nat := 0xb000010
abbrev F.OB_SNAP_TIME_NS_NS : Fld := ⟨0xb000010, 0, 30, 18⟩
/-- OB_SNAP_TIME_SEC_LO: 01_architecture.md, R543. -/
abbrev R.OB_SNAP_TIME_SEC_LO : Nat := 0xb000014
abbrev F.OB_SNAP_TIME_SEC_LO_SEC : Fld := ⟨0xb000014, 0, 32, 18⟩
/-- OB_SNAP_TIME_SEC_HI: 01_architecture.md, R543. -/
abbrev R.OB_SNAP_TIME_SEC_HI : Nat := 0xb000018
abbrev F.OB_SNAP_TIME_SEC_HI_SEC : Fld := ⟨0xb000018, 0, 16, 18⟩
/-- SV_EV_STATUS: 01_architecture.md, R42. -/
abbrev R.SV_EV_STATUS (i : Nat) : Nat := 0x2000 + 4 * i
abbrev F.SV_EV_STATUS_EV (i : Nat) : Fld := ⟨0x2000 + 4 * i, 0, 32, 18⟩
/-- SV_EV_ROUTE: 01_architecture.md, R42. -/
abbrev R.SV_EV_ROUTE (i : Nat) : Nat := 0x2400 + 4 * i
abbrev F.SV_EV_ROUTE_PIN (i : Nat) : Fld := ⟨0x2400 + 4 * i, 0, 4, 0⟩
abbrev F.SV_EV_ROUTE_CORE (i : Nat) : Fld := ⟨0x2400 + 4 * i, 4, 8, 0⟩
abbrev F.SV_EV_ROUTE_MSIX_EN (i : Nat) : Fld := ⟨0x2400 + 4 * i, 12, 1, 0⟩
abbrev F.SV_EV_ROUTE_MSIX_VEC (i : Nat) : Fld := ⟨0x2400 + 4 * i, 13, 5, 0⟩
abbrev F.SV_EV_ROUTE_MGMT (i : Nat) : Fld := ⟨0x2400 + 4 * i, 18, 1, 0⟩
/-- SV_CFG_STATUS: 02_configuration_store.md, R69. -/
abbrev R.SV_CFG_STATUS : Nat := 0x100
abbrev F.SV_CFG_STATUS_DONE : Fld := ⟨0x100, 0, 1, 18⟩
abbrev F.SV_CFG_STATUS_BANK : Fld := ⟨0x100, 1, 1, 18⟩
abbrev F.SV_CFG_STATUS_SEL_VALID : Fld := ⟨0x100, 2, 1, 18⟩
abbrev F.SV_CFG_STATUS_OCTAL : Fld := ⟨0x100, 3, 1, 18⟩
abbrev F.SV_CFG_STATUS_END_CAUSE : Fld := ⟨0x100, 4, 3, 18⟩
abbrev F.SV_CFG_STATUS_TRAILER_SEEN : Fld := ⟨0x100, 7, 1, 18⟩
abbrev F.SV_CFG_STATUS_AFTER_TRAILER : Fld := ⟨0x100, 8, 1, 18⟩
/-- SV_CFG_CODE: 02_configuration_store.md, R70. -/
abbrev R.SV_CFG_CODE : Nat := 0x104
abbrev F.SV_CFG_CODE_CODE : Fld := ⟨0x104, 0, 32, 18⟩
/-- SV_CFG_SEQ: 02_configuration_store.md, R70. -/
abbrev R.SV_CFG_SEQ : Nat := 0x108
abbrev F.SV_CFG_SEQ_SEQ : Fld := ⟨0x108, 0, 32, 18⟩
/-- SV_CFG_RECORDS: 02_configuration_store.md, R70. -/
abbrev R.SV_CFG_RECORDS : Nat := 0x10c
abbrev F.SV_CFG_RECORDS_COUNT : Fld := ⟨0x10c, 0, 32, 18⟩
/-- SV_CFG_SKIPPED: 02_configuration_store.md, R70. -/
abbrev R.SV_CFG_SKIPPED : Nat := 0x110
abbrev F.SV_CFG_SKIPPED_COUNT : Fld := ⟨0x110, 0, 32, 18⟩
/-- SV_CFG_UNKNOWN: 02_configuration_store.md, R70. -/
abbrev R.SV_CFG_UNKNOWN : Nat := 0x114
abbrev F.SV_CFG_UNKNOWN_COUNT : Fld := ⟨0x114, 0, 32, 18⟩
/-- SV_CFG_IGNORED: 02_configuration_store.md, R70. -/
abbrev R.SV_CFG_IGNORED : Nat := 0x118
abbrev F.SV_CFG_IGNORED_COUNT : Fld := ⟨0x118, 0, 32, 18⟩
/-- SV_CFG_DOMAINS: 02_configuration_store.md, R70. -/
abbrev R.SV_CFG_DOMAINS : Nat := 0x11c
abbrev F.SV_CFG_DOMAINS_PRESENT : Fld := ⟨0x11c, 0, 18, 18⟩
/-- SV_CFG_BYTES: 02_configuration_store.md, R70. -/
abbrev R.SV_CFG_BYTES : Nat := 0x120
abbrev F.SV_CFG_BYTES_COUNT : Fld := ⟨0x120, 0, 32, 18⟩
/-- SV_CFG_TRAILER_CRC: 02_configuration_store.md, R70. -/
abbrev R.SV_CFG_TRAILER_CRC : Nat := 0x124
abbrev F.SV_CFG_TRAILER_CRC_CRC : Fld := ⟨0x124, 0, 32, 18⟩
/-- SV_CFG_TRAILER_LEN: 02_configuration_store.md, R70. -/
abbrev R.SV_CFG_TRAILER_LEN : Nat := 0x128
abbrev F.SV_CFG_TRAILER_LEN_LEN : Fld := ⟨0x128, 0, 32, 18⟩
/-- SV_CFG_TRAILER_SEQ: 02_configuration_store.md, R70. -/
abbrev R.SV_CFG_TRAILER_SEQ : Nat := 0x12c
abbrev F.SV_CFG_TRAILER_SEQ_SEQ : Fld := ⟨0x12c, 0, 32, 18⟩
/-- SV_CFG_TRAILER_BUILD: 02_configuration_store.md, R70. -/
abbrev R.SV_CFG_TRAILER_BUILD : Nat := 0x130
abbrev F.SV_CFG_TRAILER_BUILD_BUILD : Fld := ⟨0x130, 0, 32, 18⟩
/-- SV_MODE: 03_startup_modes.md, R75. -/
abbrev R.SV_MODE : Nat := 0x200
abbrev F.SV_MODE_MODE : Fld := ⟨0x200, 0, 4, 18⟩
abbrev F.SV_MODE_RAMPING : Fld := ⟨0x200, 4, 1, 18⟩
abbrev F.SV_MODE_MOVING : Fld := ⟨0x200, 5, 1, 18⟩
abbrev F.SV_MODE_KEYS_DOWN : Fld := ⟨0x200, 6, 1, 18⟩
abbrev F.SV_MODE_TREE_LOCKED : Fld := ⟨0x200, 7, 1, 18⟩
abbrev F.SV_MODE_LAST_RESULT : Fld := ⟨0x200, 8, 3, 18⟩
/-- SV_MODE_CFG: 03_startup_modes.md, R76. -/
abbrev R.SV_MODE_CFG : Nat := 0x204
abbrev F.SV_MODE_CFG_RUN_MODE : Fld := ⟨0x204, 0, 2, 0⟩
abbrev F.SV_MODE_CFG_TARGET : Fld := ⟨0x204, 2, 1, 0⟩
abbrev F.SV_MODE_CFG_LISTEN_EN : Fld := ⟨0x204, 3, 1, 0⟩
abbrev F.SV_MODE_CFG_PARTIAL_EN : Fld := ⟨0x204, 4, 1, 0⟩
abbrev F.SV_MODE_CFG_SEALED_PAIRS : Fld := ⟨0x204, 5, 3, 0⟩
/-- SV_MODE_REQ: 03_startup_modes.md, R77. -/
abbrev R.SV_MODE_REQ : Nat := 0x208
abbrev F.SV_MODE_REQ_REQ : Fld := ⟨0x208, 0, 3, 18⟩
/-- SV_RESET: 03_startup_modes.md, R93. -/
abbrev R.SV_RESET : Nat := 0x210
abbrev F.SV_RESET_SOC : Fld := ⟨0x210, 0, 1, 18⟩
abbrev F.SV_RESET_KEY : Fld := ⟨0x210, 16, 16, 18⟩
/-- SV_RESET_CAUSE: 03_startup_modes.md, R93. -/
abbrev R.SV_RESET_CAUSE : Nat := 0x214
abbrev F.SV_RESET_CAUSE_POR : Fld := ⟨0x214, 0, 1, 18⟩
abbrev F.SV_RESET_CAUSE_PIN : Fld := ⟨0x214, 1, 1, 18⟩
abbrev F.SV_RESET_CAUSE_WDOG : Fld := ⟨0x214, 2, 1, 18⟩
abbrev F.SV_RESET_CAUSE_LOCKSTEP : Fld := ⟨0x214, 3, 1, 18⟩
abbrev F.SV_RESET_CAUSE_SOFT : Fld := ⟨0x214, 4, 1, 18⟩
abbrev F.SV_RESET_CAUSE_RESCUE_REQ : Fld := ⟨0x214, 5, 1, 18⟩
abbrev F.SV_RESET_CAUSE_LISTEN_EXIT : Fld := ⟨0x214, 6, 1, 18⟩
/-- SV_START_FB: 03_startup_modes.md, R93. -/
abbrev R.SV_START_FB : Nat := 0x218
abbrev F.SV_START_FB_US : Fld := ⟨0x218, 0, 32, 18⟩
/-- SV_START_FULL: 03_startup_modes.md, R93. -/
abbrev R.SV_START_FULL : Nat := 0x21c
abbrev F.SV_START_FULL_US : Fld := ⟨0x21c, 0, 32, 18⟩
/-- SV_TXM_DOMAINS: 04_transactions_mending.md, R103. -/
abbrev R.SV_TXM_DOMAINS (i : Nat) : Nat := 0x400 + 0x40 * i
abbrev F.SV_TXM_DOMAINS_SET (i : Nat) : Fld := ⟨0x400 + 0x40 * i, 0, 18, 18⟩
/-- SV_TXM_ARG: 04_transactions_mending.md, R103. -/
abbrev R.SV_TXM_ARG (i : Nat) : Nat := 0x404 + 0x40 * i
abbrev F.SV_TXM_ARG_ARG (i : Nat) : Fld := ⟨0x404 + 0x40 * i, 0, 32, 18⟩
/-- SV_TXM_SEC_LO: 04_transactions_mending.md, R103. -/
abbrev R.SV_TXM_SEC_LO (i : Nat) : Nat := 0x408 + 0x40 * i
abbrev F.SV_TXM_SEC_LO_SEC (i : Nat) : Fld := ⟨0x408 + 0x40 * i, 0, 32, 18⟩
/-- SV_TXM_SEC_HI: 04_transactions_mending.md, R103. -/
abbrev R.SV_TXM_SEC_HI (i : Nat) : Nat := 0x40c + 0x40 * i
abbrev F.SV_TXM_SEC_HI_SEC (i : Nat) : Fld := ⟨0x40c + 0x40 * i, 0, 16, 18⟩
/-- SV_TXM_CMD: 04_transactions_mending.md, R103. -/
abbrev R.SV_TXM_CMD (i : Nat) : Nat := 0x410 + 0x40 * i
abbrev F.SV_TXM_CMD_OP (i : Nat) : Fld := ⟨0x410 + 0x40 * i, 0, 4, 18⟩
abbrev F.SV_TXM_CMD_HANDLE (i : Nat) : Fld := ⟨0x410 + 0x40 * i, 4, 2, 18⟩
abbrev F.SV_TXM_CMD_TI_SEL (i : Nat) : Fld := ⟨0x410 + 0x40 * i, 6, 2, 18⟩
abbrev F.SV_TXM_CMD_PERSIST (i : Nat) : Fld := ⟨0x410 + 0x40 * i, 8, 1, 18⟩
/-- SV_TXM_RESULT: 04_transactions_mending.md, R103. -/
abbrev R.SV_TXM_RESULT (i : Nat) : Nat := 0x414 + 0x40 * i
abbrev F.SV_TXM_RESULT_PENDING (i : Nat) : Fld := ⟨0x414 + 0x40 * i, 0, 1, 18⟩
abbrev F.SV_TXM_RESULT_CODE (i : Nat) : Fld := ⟨0x414 + 0x40 * i, 1, 5, 18⟩
abbrev F.SV_TXM_RESULT_HANDLE (i : Nat) : Fld := ⟨0x414 + 0x40 * i, 6, 2, 18⟩
abbrev F.SV_TXM_RESULT_LATE (i : Nat) : Fld := ⟨0x414 + 0x40 * i, 8, 1, 18⟩
abbrev F.SV_TXM_RESULT_ID (i : Nat) : Fld := ⟨0x414 + 0x40 * i, 16, 8, 18⟩
/-- SV_TX_STATE: 04_transactions_mending.md, R115. -/
abbrev R.SV_TX_STATE (i : Nat) : Nat := 0x300 + 8 * i
abbrev F.SV_TX_STATE_STATE (i : Nat) : Fld := ⟨0x300 + 8 * i, 0, 3, 18⟩
abbrev F.SV_TX_STATE_OWNER (i : Nat) : Fld := ⟨0x300 + 8 * i, 4, 4, 18⟩
abbrev F.SV_TX_STATE_PERSIST (i : Nat) : Fld := ⟨0x300 + 8 * i, 8, 1, 18⟩
abbrev F.SV_TX_STATE_LEFT (i : Nat) : Fld := ⟨0x300 + 8 * i, 12, 20, 18⟩
/-- SV_TX_DOMAINS: 04_transactions_mending.md, R115. -/
abbrev R.SV_TX_DOMAINS (i : Nat) : Nat := 0x304 + 8 * i
abbrev F.SV_TX_DOMAINS_SET (i : Nat) : Fld := ⟨0x304 + 8 * i, 0, 18, 18⟩
/-- SV_TX_EPOCH: 04_transactions_mending.md, R115. -/
abbrev R.SV_TX_EPOCH : Nat := 0x320
abbrev F.SV_TX_EPOCH_EPOCH : Fld := ⟨0x320, 0, 32, 18⟩
/-- SV_TX_AGED: 04_transactions_mending.md, R115. -/
abbrev R.SV_TX_AGED : Nat := 0x324
abbrev F.SV_TX_AGED_COUNT : Fld := ⟨0x324, 0, 32, 18⟩
/-- SV_TX_SHADOW_REFUSED: 04_transactions_mending.md, R115. -/
abbrev R.SV_TX_SHADOW_REFUSED : Nat := 0x328
abbrev F.SV_TX_SHADOW_REFUSED_COUNT : Fld := ⟨0x328, 0, 32, 18⟩
/-- SV_TX_SHADOW_ADDR: 04_transactions_mending.md, R115. -/
abbrev R.SV_TX_SHADOW_ADDR : Nat := 0x32c
abbrev F.SV_TX_SHADOW_ADDR_OFFSET : Fld := ⟨0x32c, 0, 28, 18⟩
abbrev F.SV_TX_SHADOW_ADDR_OWNER : Fld := ⟨0x32c, 28, 4, 18⟩
/-- SV_TX_PERSIST: 04_transactions_mending.md, R115. -/
abbrev R.SV_TX_PERSIST : Nat := 0x330
abbrev F.SV_TX_PERSIST_STATE : Fld := ⟨0x330, 0, 2, 18⟩
abbrev F.SV_TX_PERSIST_SECTORS : Fld := ⟨0x330, 16, 12, 18⟩
/-- SV_TX_CFG: 04_transactions_mending.md, R115. -/
abbrev R.SV_TX_CFG : Nat := 0x334
abbrev F.SV_TX_CFG_DRAIN_LIM : Fld := ⟨0x334, 0, 10, 0⟩
/-- SV_MEND_ACT: 04_transactions_mending.md, R123. -/
abbrev R.SV_MEND_ACT (i : Nat) : Nat := 0x800 + 4 * i
abbrev F.SV_MEND_ACT_ID (i : Nat) : Fld := ⟨0x800 + 4 * i, 0, 8, 18⟩
abbrev F.SV_MEND_ACT_KIND (i : Nat) : Fld := ⟨0x800 + 4 * i, 8, 4, 18⟩
abbrev F.SV_MEND_ACT_UNIT (i : Nat) : Fld := ⟨0x800 + 4 * i, 12, 8, 18⟩
abbrev F.SV_MEND_ACT_OWNER (i : Nat) : Fld := ⟨0x800 + 4 * i, 20, 4, 18⟩
/-- SV_MEND_FACT: 04_transactions_mending.md, R123. -/
abbrev R.SV_MEND_FACT (i : Nat) : Nat := 0x880 + 4 * i
abbrev F.SV_MEND_FACT_ID (i : Nat) : Fld := ⟨0x880 + 4 * i, 0, 8, 18⟩
abbrev F.SV_MEND_FACT_KIND (i : Nat) : Fld := ⟨0x880 + 4 * i, 8, 4, 18⟩
abbrev F.SV_MEND_FACT_UNIT (i : Nat) : Fld := ⟨0x880 + 4 * i, 12, 8, 18⟩
abbrev F.SV_MEND_FACT_OWNER (i : Nat) : Fld := ⟨0x880 + 4 * i, 20, 4, 18⟩
/-- SV_MEND_SERVICE: 04_transactions_mending.md, R123. -/
abbrev R.SV_MEND_SERVICE : Nat := 0x820
abbrev F.SV_MEND_SERVICE_BANKS : Fld := ⟨0x820, 0, 16, 18⟩
abbrev F.SV_MEND_SERVICE_PAIRS : Fld := ⟨0x820, 16, 8, 18⟩
/-- SV_MEND_CFG: 04_transactions_mending.md, R123. -/
abbrev R.SV_MEND_CFG : Nat := 0x824
abbrev F.SV_MEND_CFG_BANK_FLOOR : Fld := ⟨0x824, 0, 5, 0⟩
/-- SV_MEND_END: 04_transactions_mending.md, R124. -/
abbrev R.SV_MEND_END (i : Nat) : Nat := 0x840 + 4 * i
abbrev F.SV_MEND_END_ID (i : Nat) : Fld := ⟨0x840 + 4 * i, 0, 8, 18⟩
abbrev F.SV_MEND_END_KIND (i : Nat) : Fld := ⟨0x840 + 4 * i, 8, 4, 18⟩
abbrev F.SV_MEND_END_UNIT (i : Nat) : Fld := ⟨0x840 + 4 * i, 12, 8, 18⟩
abbrev F.SV_MEND_END_CODE (i : Nat) : Fld := ⟨0x840 + 4 * i, 20, 5, 18⟩
/-- PX_PORT_CFG: 05_ports.md, R151. -/
abbrev R.PX_PORT_CFG (i : Nat) : Nat := 0x1100000 + 0x1000 * i
abbrev F.PX_PORT_CFG_ADMIN (i : Nat) : Fld := ⟨0x1100000 + 0x1000 * i, 0, 1, 1⟩
abbrev F.PX_PORT_CFG_LANE_MODE (i : Nat) : Fld := ⟨0x1100000 + 0x1000 * i, 1, 3, 1⟩
abbrev F.PX_PORT_CFG_FEC (i : Nat) : Fld := ⟨0x1100000 + 0x1000 * i, 4, 2, 1⟩
abbrev F.PX_PORT_CFG_AN_EN (i : Nat) : Fld := ⟨0x1100000 + 0x1000 * i, 6, 1, 1⟩
abbrev F.PX_PORT_CFG_SPEED (i : Nat) : Fld := ⟨0x1100000 + 0x1000 * i, 7, 3, 1⟩
abbrev F.PX_PORT_CFG_CSUM_CHK (i : Nat) : Fld := ⟨0x1100000 + 0x1000 * i, 10, 1, 1⟩
/-- PX_LEN_CFG: 05_ports.md, R152. -/
abbrev R.PX_LEN_CFG (i : Nat) : Nat := 0x1100004 + 0x1000 * i
abbrev F.PX_LEN_CFG_RUNT_MIN (i : Nat) : Fld := ⟨0x1100004 + 0x1000 * i, 0, 8, 1⟩
abbrev F.PX_LEN_CFG_MAX_LEN (i : Nat) : Fld := ⟨0x1100004 + 0x1000 * i, 16, 14, 1⟩
/-- PX_TCMQ: 05_ports.md, R152. -/
abbrev R.PX_TCMQ (i : Nat) : Nat := 0x110000c + 0x1000 * i
abbrev F.PX_TCMQ_MAP (i : Nat) : Fld := ⟨0x110000c + 0x1000 * i, 0, 16, 1⟩
/-- PX_FC_CFG: 05_ports.md, R153. -/
abbrev R.PX_FC_CFG (i : Nat) : Nat := 0x1100008 + 0x1000 * i
abbrev F.PX_FC_CFG_FC_MODE (i : Nat) : Fld := ⟨0x1100008 + 0x1000 * i, 0, 2, 1⟩
abbrev F.PX_FC_CFG_PFC_EN (i : Nat) : Fld := ⟨0x1100008 + 0x1000 * i, 8, 8, 1⟩
abbrev F.PX_FC_CFG_PAUSE_WD (i : Nat) : Fld := ⟨0x1100008 + 0x1000 * i, 16, 8, 1⟩
abbrev F.PX_FC_CFG_PAUSE_HOLDOFF (i : Nat) : Fld := ⟨0x1100008 + 0x1000 * i, 24, 8, 1⟩
/-- PX_PLCA_CFG: 05_ports.md, R154. -/
abbrev R.PX_PLCA_CFG (i : Nat) : Nat := 0x1100040 + 0x1000 * i
abbrev F.PX_PLCA_CFG_PLCA_EN (i : Nat) : Fld := ⟨0x1100040 + 0x1000 * i, 0, 1, 1⟩
abbrev F.PX_PLCA_CFG_NODE_ID (i : Nat) : Fld := ⟨0x1100040 + 0x1000 * i, 8, 8, 1⟩
abbrev F.PX_PLCA_CFG_NODE_COUNT (i : Nat) : Fld := ⟨0x1100040 + 0x1000 * i, 16, 8, 1⟩
abbrev F.PX_PLCA_CFG_TO_TIMER (i : Nat) : Fld := ⟨0x1100040 + 0x1000 * i, 24, 8, 1⟩
/-- PX_PLCA_BURST: 05_ports.md, R154. -/
abbrev R.PX_PLCA_BURST (i : Nat) : Nat := 0x1100044 + 0x1000 * i
abbrev F.PX_PLCA_BURST_MAX_BC (i : Nat) : Fld := ⟨0x1100044 + 0x1000 * i, 0, 8, 1⟩
abbrev F.PX_PLCA_BURST_BTMR (i : Nat) : Fld := ⟨0x1100044 + 0x1000 * i, 8, 8, 1⟩
/-- PX_T1S_GUARD: 05_ports.md, R154. -/
abbrev R.PX_T1S_GUARD (i : Nat) : Nat := 0x1100048 + 0x1000 * i
abbrev F.PX_T1S_GUARD_BCN_LOSS_T (i : Nat) : Fld := ⟨0x1100048 + 0x1000 * i, 0, 8, 1⟩
abbrev F.PX_T1S_GUARD_JAB_T (i : Nat) : Fld := ⟨0x1100048 + 0x1000 * i, 8, 4, 1⟩
abbrev F.PX_T1S_GUARD_QUAR_EN (i : Nat) : Fld := ⟨0x1100048 + 0x1000 * i, 12, 3, 1⟩
abbrev F.PX_T1S_GUARD_IDCOL_LIM (i : Nat) : Fld := ⟨0x1100048 + 0x1000 * i, 16, 4, 1⟩
abbrev F.PX_T1S_GUARD_QUAR_T (i : Nat) : Fld := ⟨0x1100048 + 0x1000 * i, 24, 8, 1⟩
/-- PX_T1S_QREL: 05_ports.md, R154. -/
abbrev R.PX_T1S_QREL (i : Nat) : Nat := 0x110004c + 0x1000 * i
abbrev F.PX_T1S_QREL_RELEASE (i : Nat) : Fld := ⟨0x110004c + 0x1000 * i, 0, 1, 18⟩
/-- PX_RGMII_CFG: 05_ports.md, R155. -/
abbrev R.PX_RGMII_CFG : Nat := 0x1128060
abbrev F.PX_RGMII_CFG_LINK_SRC : Fld := ⟨0x1128060, 0, 1, 1⟩
abbrev F.PX_RGMII_CFG_SPEED : Fld := ⟨0x1128060, 1, 2, 1⟩
abbrev F.PX_RGMII_CFG_TX_DLY : Fld := ⟨0x1128060, 3, 1, 1⟩
abbrev F.PX_RGMII_CFG_RX_DLY : Fld := ⟨0x1128060, 4, 1, 1⟩
abbrev F.PX_RGMII_CFG_PHY_ADDR : Fld := ⟨0x1128060, 8, 5, 1⟩
/-- PX_MDIO_CMD: 05_ports.md, R155. -/
abbrev R.PX_MDIO_CMD : Nat := 0x1000100
abbrev F.PX_MDIO_CMD_REG : Fld := ⟨0x1000100, 0, 5, 18⟩
abbrev F.PX_MDIO_CMD_PHYAD : Fld := ⟨0x1000100, 5, 5, 18⟩
abbrev F.PX_MDIO_CMD_WRITE : Fld := ⟨0x1000100, 10, 1, 18⟩
abbrev F.PX_MDIO_CMD_GO : Fld := ⟨0x1000100, 11, 1, 18⟩
abbrev F.PX_MDIO_CMD_BUSY : Fld := ⟨0x1000100, 12, 1, 18⟩
abbrev F.PX_MDIO_CMD_DATA : Fld := ⟨0x1000100, 16, 16, 18⟩
/-- PX_PORT_STAT: 05_ports.md, R156. -/
abbrev R.PX_PORT_STAT (i : Nat) : Nat := 0x1100020 + 0x1000 * i
abbrev F.PX_PORT_STAT_LINK (i : Nat) : Fld := ⟨0x1100020 + 0x1000 * i, 0, 1, 18⟩
abbrev F.PX_PORT_STAT_RATE (i : Nat) : Fld := ⟨0x1100020 + 0x1000 * i, 1, 3, 18⟩
abbrev F.PX_PORT_STAT_MEND (i : Nat) : Fld := ⟨0x1100020 + 0x1000 * i, 4, 1, 18⟩
abbrev F.PX_PORT_STAT_QUAR (i : Nat) : Fld := ⟨0x1100020 + 0x1000 * i, 5, 1, 18⟩
abbrev F.PX_PORT_STAT_PLCA_OK (i : Nat) : Fld := ⟨0x1100020 + 0x1000 * i, 6, 1, 18⟩
abbrev F.PX_PORT_STAT_HOLDOFF (i : Nat) : Fld := ⟨0x1100020 + 0x1000 * i, 7, 1, 18⟩
abbrev F.PX_PORT_STAT_PAUSED (i : Nat) : Fld := ⟨0x1100020 + 0x1000 * i, 8, 1, 18⟩
abbrev F.PX_PORT_STAT_FAULT (i : Nat) : Fld := ⟨0x1100020 + 0x1000 * i, 9, 1, 18⟩
abbrev F.PX_PORT_STAT_QUAR_CAUSE (i : Nat) : Fld := ⟨0x1100020 + 0x1000 * i, 10, 2, 18⟩
abbrev F.PX_PORT_STAT_PFC_PAUSED (i : Nat) : Fld := ⟨0x1100020 + 0x1000 * i, 16, 8, 18⟩
/-- PX_RX_FRAMES: 05_ports.md, R157. -/
abbrev R.PX_RX_FRAMES (i : Nat) : Nat := 0x1100100 + 0x1000 * i
abbrev F.PX_RX_FRAMES_COUNT (i : Nat) : Fld := ⟨0x1100100 + 0x1000 * i, 0, 32, 18⟩
/-- PX_RX_BYTES: 05_ports.md, R157. -/
abbrev R.PX_RX_BYTES (i : Nat) : Nat := 0x1100108 + 0x1000 * i
abbrev F.PX_RX_BYTES_COUNT (i : Nat) : Fld := ⟨0x1100108 + 0x1000 * i, 0, 32, 18⟩
/-- PX_TX_FRAMES: 05_ports.md, R157. -/
abbrev R.PX_TX_FRAMES (i : Nat) : Nat := 0x1100110 + 0x1000 * i
abbrev F.PX_TX_FRAMES_COUNT (i : Nat) : Fld := ⟨0x1100110 + 0x1000 * i, 0, 32, 18⟩
/-- PX_TX_BYTES: 05_ports.md, R157. -/
abbrev R.PX_TX_BYTES (i : Nat) : Nat := 0x1100118 + 0x1000 * i
abbrev F.PX_TX_BYTES_COUNT (i : Nat) : Fld := ⟨0x1100118 + 0x1000 * i, 0, 32, 18⟩
/-- PX_RX_RUNT: 05_ports.md, R157. -/
abbrev R.PX_RX_RUNT (i : Nat) : Nat := 0x1100120 + 0x1000 * i
abbrev F.PX_RX_RUNT_COUNT (i : Nat) : Fld := ⟨0x1100120 + 0x1000 * i, 0, 32, 18⟩
/-- PX_RX_OVERSIZE: 05_ports.md, R157. -/
abbrev R.PX_RX_OVERSIZE (i : Nat) : Nat := 0x1100124 + 0x1000 * i
abbrev F.PX_RX_OVERSIZE_COUNT (i : Nat) : Fld := ⟨0x1100124 + 0x1000 * i, 0, 32, 18⟩
/-- PX_RX_SYMBOL_ERR: 05_ports.md, R157. -/
abbrev R.PX_RX_SYMBOL_ERR (i : Nat) : Nat := 0x1100128 + 0x1000 * i
abbrev F.PX_RX_SYMBOL_ERR_COUNT (i : Nat) : Fld := ⟨0x1100128 + 0x1000 * i, 0, 32, 18⟩
/-- PX_RX_FCS_ERR: 05_ports.md, R157. -/
abbrev R.PX_RX_FCS_ERR (i : Nat) : Nat := 0x110012c + 0x1000 * i
abbrev F.PX_RX_FCS_ERR_COUNT (i : Nat) : Fld := ⟨0x110012c + 0x1000 * i, 0, 32, 18⟩
/-- PX_RX_MACCTL: 05_ports.md, R157. -/
abbrev R.PX_RX_MACCTL (i : Nat) : Nat := 0x1100130 + 0x1000 * i
abbrev F.PX_RX_MACCTL_COUNT (i : Nat) : Fld := ⟨0x1100130 + 0x1000 * i, 0, 32, 18⟩
/-- PX_RX_CSUM_ERR: 05_ports.md, R157. -/
abbrev R.PX_RX_CSUM_ERR (i : Nat) : Nat := 0x1100134 + 0x1000 * i
abbrev F.PX_RX_CSUM_ERR_COUNT (i : Nat) : Fld := ⟨0x1100134 + 0x1000 * i, 0, 32, 18⟩
/-- PX_PAUSE_IGNORED: 05_ports.md, R157. -/
abbrev R.PX_PAUSE_IGNORED (i : Nat) : Nat := 0x1100138 + 0x1000 * i
abbrev F.PX_PAUSE_IGNORED_COUNT (i : Nat) : Fld := ⟨0x1100138 + 0x1000 * i, 0, 32, 18⟩
/-- PX_PAUSE_WD_TRIPS: 05_ports.md, R157. -/
abbrev R.PX_PAUSE_WD_TRIPS (i : Nat) : Nat := 0x110013c + 0x1000 * i
abbrev F.PX_PAUSE_WD_TRIPS_COUNT (i : Nat) : Fld := ⟨0x110013c + 0x1000 * i, 0, 32, 18⟩
/-- PX_STOMPED: 05_ports.md, R157. -/
abbrev R.PX_STOMPED (i : Nat) : Nat := 0x1100140 + 0x1000 * i
abbrev F.PX_STOMPED_COUNT (i : Nat) : Fld := ⟨0x1100140 + 0x1000 * i, 0, 32, 18⟩
/-- PX_TX_UNDERRUN: 05_ports.md, R157. -/
abbrev R.PX_TX_UNDERRUN (i : Nat) : Nat := 0x1100144 + 0x1000 * i
abbrev F.PX_TX_UNDERRUN_COUNT (i : Nat) : Fld := ⟨0x1100144 + 0x1000 * i, 0, 32, 18⟩
/-- PX_LINK_DOWNS: 05_ports.md, R157. -/
abbrev R.PX_LINK_DOWNS (i : Nat) : Nat := 0x1100148 + 0x1000 * i
abbrev F.PX_LINK_DOWNS_COUNT (i : Nat) : Fld := ⟨0x1100148 + 0x1000 * i, 0, 32, 18⟩
/-- PX_T1S_BCN_LOSS: 05_ports.md, R157. -/
abbrev R.PX_T1S_BCN_LOSS (i : Nat) : Nat := 0x1100150 + 0x1000 * i
abbrev F.PX_T1S_BCN_LOSS_COUNT (i : Nat) : Fld := ⟨0x1100150 + 0x1000 * i, 0, 32, 18⟩
/-- PX_T1S_IDCOL: 05_ports.md, R157. -/
abbrev R.PX_T1S_IDCOL (i : Nat) : Nat := 0x1100154 + 0x1000 * i
abbrev F.PX_T1S_IDCOL_COUNT (i : Nat) : Fld := ⟨0x1100154 + 0x1000 * i, 0, 32, 18⟩
/-- PX_T1S_JABBER: 05_ports.md, R157. -/
abbrev R.PX_T1S_JABBER (i : Nat) : Nat := 0x1100158 + 0x1000 * i
abbrev F.PX_T1S_JABBER_COUNT (i : Nat) : Fld := ⟨0x1100158 + 0x1000 * i, 0, 32, 18⟩
/-- PX_T1S_QUARANTINES: 05_ports.md, R157. -/
abbrev R.PX_T1S_QUARANTINES (i : Nat) : Nat := 0x110015c + 0x1000 * i
abbrev F.PX_T1S_QUARANTINES_COUNT (i : Nat) : Fld := ⟨0x110015c + 0x1000 * i, 0, 32, 18⟩
/-- PX_EVPORT_LO: 05_ports.md, R158. -/
abbrev R.PX_EVPORT_LO (i : Nat) : Nat := 0x1000200 + 8 * i
abbrev F.PX_EVPORT_LO_PORTS (i : Nat) : Fld := ⟨0x1000200 + 8 * i, 0, 32, 18⟩
/-- PX_EVPORT_HI: 05_ports.md, R158. -/
abbrev R.PX_EVPORT_HI (i : Nat) : Nat := 0x1000204 + 8 * i
abbrev F.PX_EVPORT_HI_PORTS (i : Nat) : Fld := ⟨0x1000204 + 8 * i, 0, 9, 18⟩
/-- SX_BUF_CFG: 06_buffer.md, R189. -/
abbrev R.SX_BUF_CFG : Nat := 0x2000000
abbrev F.SX_BUF_CFG_DIE_HI : Fld := ⟨0x2000000, 0, 7, 2⟩
abbrev F.SX_BUF_CFG_DIE_LO : Fld := ⟨0x2000000, 8, 7, 2⟩
abbrev F.SX_BUF_CFG_HAM_HI : Fld := ⟨0x2000000, 16, 7, 2⟩
abbrev F.SX_BUF_CFG_HAM_LO : Fld := ⟨0x2000000, 24, 7, 2⟩
/-- SX_CT_EN_LO: 06_buffer.md, R190. -/
abbrev R.SX_CT_EN_LO : Nat := 0x2000004
abbrev F.SX_CT_EN_LO_PORTS : Fld := ⟨0x2000004, 0, 32, 2⟩
/-- SX_CT_EN_HI: 06_buffer.md, R190. -/
abbrev R.SX_CT_EN_HI : Nat := 0x2000008
abbrev F.SX_CT_EN_HI_PORTS : Fld := ⟨0x2000008, 0, 9, 2⟩
/-- SX_TC_CFG: 06_buffer.md, R190. -/
abbrev R.SX_TC_CFG (i : Nat) : Nat := 0x2000010 + 4 * i
abbrev F.SX_TC_CFG_ALPHA_DIE (i : Nat) : Fld := ⟨0x2000010 + 4 * i, 0, 4, 2⟩
abbrev F.SX_TC_CFG_ALPHA_HAM (i : Nat) : Fld := ⟨0x2000010 + 4 * i, 4, 4, 2⟩
abbrev F.SX_TC_CFG_SPILL_EN (i : Nat) : Fld := ⟨0x2000010 + 4 * i, 8, 1, 2⟩
abbrev F.SX_TC_CFG_REFILL_MARK (i : Nat) : Fld := ⟨0x2000010 + 4 * i, 16, 8, 2⟩
/-- SX_QLIM: 06_buffer.md, R191. -/
abbrev R.SX_QLIM (i : Nat) : Nat := 0x2001000 + 4 * i
abbrev F.SX_QLIM_RSV_MIN (i : Nat) : Fld := ⟨0x2001000 + 4 * i, 0, 8, 2⟩
abbrev F.SX_QLIM_CAP (i : Nat) : Fld := ⟨0x2001000 + 4 * i, 12, 20, 2⟩
/-- SX_MC_MODE: 06_buffer.md, R191. -/
abbrev R.SX_MC_MODE (i : Nat) : Nat := 0x2010000 + 4 * i
abbrev F.SX_MC_MODE_MODE (i : Nat) : Fld := ⟨0x2010000 + 4 * i, 0, 1, 2⟩
/-- MX_HAMPER_CFG: 06_buffer.md, R192. -/
abbrev R.MX_HAMPER_CFG : Nat := 0x9000400
abbrev F.MX_HAMPER_CFG_EN : Fld := ⟨0x9000400, 0, 1, 15⟩
abbrev F.MX_HAMPER_CFG_SIZE : Fld := ⟨0x9000400, 1, 3, 15⟩
abbrev F.MX_HAMPER_CFG_BW_CAP : Fld := ⟨0x9000400, 8, 7, 15⟩
/-- SX_DIE_CELLS: 06_buffer.md, R193. -/
abbrev R.SX_DIE_CELLS : Nat := 0x2000100
abbrev F.SX_DIE_CELLS_CELLS : Fld := ⟨0x2000100, 0, 19, 18⟩
/-- SX_DIE_FREE: 06_buffer.md, R193. -/
abbrev R.SX_DIE_FREE : Nat := 0x2000104
abbrev F.SX_DIE_FREE_CELLS : Fld := ⟨0x2000104, 0, 19, 18⟩
/-- SX_DIE_HELD: 06_buffer.md, R193. -/
abbrev R.SX_DIE_HELD : Nat := 0x2000108
abbrev F.SX_DIE_HELD_CELLS : Fld := ⟨0x2000108, 0, 19, 18⟩
/-- SX_RSV_TOTAL: 06_buffer.md, R193. -/
abbrev R.SX_RSV_TOTAL : Nat := 0x200010c
abbrev F.SX_RSV_TOTAL_CELLS : Fld := ⟨0x200010c, 0, 18, 18⟩
abbrev F.SX_RSV_TOTAL_SCALED : Fld := ⟨0x200010c, 31, 1, 18⟩
/-- SX_HAM_PAGES: 06_buffer.md, R193. -/
abbrev R.SX_HAM_PAGES : Nat := 0x2000110
abbrev F.SX_HAM_PAGES_PAGES : Fld := ⟨0x2000110, 0, 21, 18⟩
/-- SX_HAM_USED: 06_buffer.md, R193. -/
abbrev R.SX_HAM_USED : Nat := 0x2000114
abbrev F.SX_HAM_USED_PAGES : Fld := ⟨0x2000114, 0, 21, 18⟩
/-- SX_HAM_STAGE: 06_buffer.md, R193. -/
abbrev R.SX_HAM_STAGE : Nat := 0x2000118
abbrev F.SX_HAM_STAGE_PAGES : Fld := ⟨0x2000118, 0, 9, 18⟩
/-- SX_HAM_STATE: 06_buffer.md, R193. -/
abbrev R.SX_HAM_STATE : Nat := 0x200011c
abbrev F.SX_HAM_STATE_STATE : Fld := ⟨0x200011c, 0, 2, 18⟩
abbrev F.SX_HAM_STATE_SIZE_CAPPED : Fld := ⟨0x200011c, 2, 1, 18⟩
/-- SX_QSTAT: 06_buffer.md, R193. -/
abbrev R.SX_QSTAT (i : Nat) : Nat := 0x2002000 + 4 * i
abbrev F.SX_QSTAT_CELLS (i : Nat) : Fld := ⟨0x2002000 + 4 * i, 0, 20, 18⟩
abbrev F.SX_QSTAT_SPILL (i : Nat) : Fld := ⟨0x2002000 + 4 * i, 20, 1, 18⟩
/-- SX_QHAM: 06_buffer.md, R193. -/
abbrev R.SX_QHAM (i : Nat) : Nat := 0x2002800 + 4 * i
abbrev F.SX_QHAM_PAGES (i : Nat) : Fld := ⟨0x2002800 + 4 * i, 0, 21, 18⟩
/-- SX_QPEAK: 06_buffer.md, R193. -/
abbrev R.SX_QPEAK (i : Nat) : Nat := 0x2003000 + 4 * i
abbrev F.SX_QPEAK_CELLS (i : Nat) : Fld := ⟨0x2003000 + 4 * i, 0, 20, 18⟩
/-- SX_BANK_STAT: 06_buffer.md, R193. -/
abbrev R.SX_BANK_STAT (i : Nat) : Nat := 0x2007000 + 0x10 * i
abbrev F.SX_BANK_STAT_IN_SERVICE (i : Nat) : Fld := ⟨0x2007000 + 0x10 * i, 0, 1, 18⟩
abbrev F.SX_BANK_STAT_FAULT_FENCED (i : Nat) : Fld := ⟨0x2007000 + 0x10 * i, 1, 1, 18⟩
abbrev F.SX_BANK_STAT_MEND (i : Nat) : Fld := ⟨0x2007000 + 0x10 * i, 2, 1, 18⟩
abbrev F.SX_BANK_STAT_SPARES_USED (i : Nat) : Fld := ⟨0x2007000 + 0x10 * i, 3, 6, 18⟩
/-- SX_EV_LASTQ: 06_buffer.md, R193. -/
abbrev R.SX_EV_LASTQ : Nat := 0x2000130
abbrev F.SX_EV_LASTQ_SPILL_Q : Fld := ⟨0x2000130, 0, 9, 18⟩
abbrev F.SX_EV_LASTQ_SPILLBW_Q : Fld := ⟨0x2000130, 16, 9, 18⟩
/-- SX_EV_LASTPORT: 06_buffer.md, R193. -/
abbrev R.SX_EV_LASTPORT : Nat := 0x2000134
abbrev F.SX_EV_LASTPORT_PORT : Fld := ⟨0x2000134, 0, 6, 18⟩
/-- SX_HAM_RECLAIM: 06_buffer.md, R193. -/
abbrev R.SX_HAM_RECLAIM : Nat := 0x2000138
abbrev F.SX_HAM_RECLAIM_PAGES : Fld := ⟨0x2000138, 0, 21, 18⟩
/-- SX_Q_DROP_THRESH: 06_buffer.md, R194. -/
abbrev R.SX_Q_DROP_THRESH (i : Nat) : Nat := 0x2004000 + 4 * i
abbrev F.SX_Q_DROP_THRESH_COUNT (i : Nat) : Fld := ⟨0x2004000 + 4 * i, 0, 32, 18⟩
/-- SX_Q_DROP_HAMPER: 06_buffer.md, R194. -/
abbrev R.SX_Q_DROP_HAMPER (i : Nat) : Nat := 0x2004800 + 4 * i
abbrev F.SX_Q_DROP_HAMPER_COUNT (i : Nat) : Fld := ⟨0x2004800 + 4 * i, 0, 32, 18⟩
/-- SX_Q_DROP_SPILLBW: 06_buffer.md, R194. -/
abbrev R.SX_Q_DROP_SPILLBW (i : Nat) : Nat := 0x2005000 + 4 * i
abbrev F.SX_Q_DROP_SPILLBW_COUNT (i : Nat) : Fld := ⟨0x2005000 + 4 * i, 0, 32, 18⟩
/-- SX_Q_SPILLED: 06_buffer.md, R194. -/
abbrev R.SX_Q_SPILLED (i : Nat) : Nat := 0x2005800 + 4 * i
abbrev F.SX_Q_SPILLED_COUNT (i : Nat) : Fld := ⟨0x2005800 + 4 * i, 0, 32, 18⟩
/-- SX_FLUSHED: 06_buffer.md, R194. -/
abbrev R.SX_FLUSHED (i : Nat) : Nat := 0x2006000 + 0x40 * i
abbrev F.SX_FLUSHED_COUNT (i : Nat) : Fld := ⟨0x2006000 + 0x40 * i, 0, 32, 18⟩
/-- SX_AGED: 06_buffer.md, R194. -/
abbrev R.SX_AGED (i : Nat) : Nat := 0x2006004 + 0x40 * i
abbrev F.SX_AGED_COUNT (i : Nat) : Fld := ⟨0x2006004 + 0x40 * i, 0, 32, 18⟩
/-- SX_DROP_NOCELL: 06_buffer.md, R194. -/
abbrev R.SX_DROP_NOCELL (i : Nat) : Nat := 0x2006008 + 0x40 * i
abbrev F.SX_DROP_NOCELL_COUNT (i : Nat) : Fld := ⟨0x2006008 + 0x40 * i, 0, 32, 18⟩
/-- SX_DROP_DOWN: 06_buffer.md, R194. -/
abbrev R.SX_DROP_DOWN (i : Nat) : Nat := 0x200600c + 0x40 * i
abbrev F.SX_DROP_DOWN_COUNT (i : Nat) : Fld := ⟨0x200600c + 0x40 * i, 0, 32, 18⟩
/-- SX_CT_FRAMES: 06_buffer.md, R194. -/
abbrev R.SX_CT_FRAMES (i : Nat) : Nat := 0x2006010 + 0x40 * i
abbrev F.SX_CT_FRAMES_COUNT (i : Nat) : Fld := ⟨0x2006010 + 0x40 * i, 0, 32, 18⟩
/-- SX_BANK_CE: 06_buffer.md, R194. -/
abbrev R.SX_BANK_CE (i : Nat) : Nat := 0x2007004 + 0x10 * i
abbrev F.SX_BANK_CE_COUNT (i : Nat) : Fld := ⟨0x2007004 + 0x10 * i, 0, 32, 18⟩
/-- SX_BANK_LOST: 06_buffer.md, R194. -/
abbrev R.SX_BANK_LOST (i : Nat) : Nat := 0x2007008 + 0x10 * i
abbrev F.SX_BANK_LOST_COUNT (i : Nat) : Fld := ⟨0x2007008 + 0x10 * i, 0, 32, 18⟩
/-- SX_HPAGE_LOST: 06_buffer.md, R194. -/
abbrev R.SX_HPAGE_LOST : Nat := 0x2000120
abbrev F.SX_HPAGE_LOST_COUNT : Fld := ⟨0x2000120, 0, 32, 18⟩
/-- SX_HPAGE_RETIRED: 06_buffer.md, R194. -/
abbrev R.SX_HPAGE_RETIRED : Nat := 0x2000124
abbrev F.SX_HPAGE_RETIRED_PAGES : Fld := ⟨0x2000124, 0, 21, 18⟩
/-- SX_DROP_VERDICT: 06_buffer.md, R194. -/
abbrev R.SX_DROP_VERDICT : Nat := 0x2000128
abbrev F.SX_DROP_VERDICT_COUNT : Fld := ⟨0x2000128, 0, 32, 18⟩
/-- FX_VLAN_W0: 07_forwarding.md, R227. -/
abbrev R.FX_VLAN_W0 (i : Nat) : Nat := 0x3100000 + 0x10 * i
abbrev F.FX_VLAN_W0_MEMBERS_LO (i : Nat) : Fld := ⟨0x3100000 + 0x10 * i, 0, 32, 3⟩
/-- FX_VLAN_W1: 07_forwarding.md, R227. -/
abbrev R.FX_VLAN_W1 (i : Nat) : Nat := 0x3100004 + 0x10 * i
abbrev F.FX_VLAN_W1_MEMBERS_HI (i : Nat) : Fld := ⟨0x3100004 + 0x10 * i, 0, 9, 3⟩
abbrev F.FX_VLAN_W1_FID (i : Nat) : Fld := ⟨0x3100004 + 0x10 * i, 9, 12, 3⟩
abbrev F.FX_VLAN_W1_LEARN_EN (i : Nat) : Fld := ⟨0x3100004 + 0x10 * i, 21, 1, 3⟩
abbrev F.FX_VLAN_W1_ROUTE_EN (i : Nat) : Fld := ⟨0x3100004 + 0x10 * i, 22, 1, 3⟩
abbrev F.FX_VLAN_W1_UNREG_MC_DROP (i : Nat) : Fld := ⟨0x3100004 + 0x10 * i, 23, 1, 3⟩
abbrev F.FX_VLAN_W1_VALID (i : Nat) : Fld := ⟨0x3100004 + 0x10 * i, 31, 1, 3⟩
/-- FX_VLAN_W2: 07_forwarding.md, R227. -/
abbrev R.FX_VLAN_W2 (i : Nat) : Nat := 0x3100008 + 0x10 * i
abbrev F.FX_VLAN_W2_UNTAG_LO (i : Nat) : Fld := ⟨0x3100008 + 0x10 * i, 0, 32, 3⟩
/-- FX_VLAN_W3: 07_forwarding.md, R227. -/
abbrev R.FX_VLAN_W3 (i : Nat) : Nat := 0x310000c + 0x10 * i
abbrev F.FX_VLAN_W3_UNTAG_HI (i : Nat) : Fld := ⟨0x310000c + 0x10 * i, 0, 9, 3⟩
abbrev F.FX_VLAN_W3_FLOOD_GROUP (i : Nat) : Fld := ⟨0x310000c + 0x10 * i, 16, 12, 3⟩
/-- FX_FDB_STATIC_W0: 07_forwarding.md, R227. -/
abbrev R.FX_FDB_STATIC_W0 (i : Nat) : Nat := 0x3140000 + 0x10 * i
abbrev F.FX_FDB_STATIC_W0_MAC_LO (i : Nat) : Fld := ⟨0x3140000 + 0x10 * i, 0, 32, 3⟩
/-- FX_FDB_STATIC_W1: 07_forwarding.md, R227. -/
abbrev R.FX_FDB_STATIC_W1 (i : Nat) : Nat := 0x3140004 + 0x10 * i
abbrev F.FX_FDB_STATIC_W1_MAC_HI (i : Nat) : Fld := ⟨0x3140004 + 0x10 * i, 0, 16, 3⟩
abbrev F.FX_FDB_STATIC_W1_FID (i : Nat) : Fld := ⟨0x3140004 + 0x10 * i, 16, 12, 3⟩
abbrev F.FX_FDB_STATIC_W1_VALID (i : Nat) : Fld := ⟨0x3140004 + 0x10 * i, 31, 1, 3⟩
/-- FX_FDB_STATIC_W2: 07_forwarding.md, R227. -/
abbrev R.FX_FDB_STATIC_W2 (i : Nat) : Nat := 0x3140008 + 0x10 * i
abbrev F.FX_FDB_STATIC_W2_DEST (i : Nat) : Fld := ⟨0x3140008 + 0x10 * i, 0, 12, 3⟩
abbrev F.FX_FDB_STATIC_W2_DEST_KIND (i : Nat) : Fld := ⟨0x3140008 + 0x10 * i, 12, 2, 3⟩
/-- FX_MC_GROUP_W0: 07_forwarding.md, R227. -/
abbrev R.FX_MC_GROUP_W0 (i : Nat) : Nat := 0x3160000 + 8 * i
abbrev F.FX_MC_GROUP_W0_MEMBERS_LO (i : Nat) : Fld := ⟨0x3160000 + 8 * i, 0, 32, 3⟩
/-- FX_MC_GROUP_W1: 07_forwarding.md, R227. -/
abbrev R.FX_MC_GROUP_W1 (i : Nat) : Nat := 0x3160004 + 8 * i
abbrev F.FX_MC_GROUP_W1_MEMBERS_HI (i : Nat) : Fld := ⟨0x3160004 + 8 * i, 0, 9, 3⟩
/-- FX_HOST_A: 07_forwarding.md, R227. -/
abbrev R.FX_HOST_A (i j : Nat) : Nat := 0x3200000 + 0x20 * i + 4 * j
abbrev F.FX_HOST_A_ADDR (i j : Nat) : Fld := ⟨0x3200000 + 0x20 * i + 4 * j, 0, 32, 3⟩
/-- FX_HOST_W4: 07_forwarding.md, R227. -/
abbrev R.FX_HOST_W4 (i : Nat) : Nat := 0x3200010 + 0x20 * i
abbrev F.FX_HOST_W4_NH (i : Nat) : Fld := ⟨0x3200010 + 0x20 * i, 0, 12, 3⟩
abbrev F.FX_HOST_W4_V6 (i : Nat) : Fld := ⟨0x3200010 + 0x20 * i, 29, 1, 3⟩
abbrev F.FX_HOST_W4_VALID (i : Nat) : Fld := ⟨0x3200010 + 0x20 * i, 31, 1, 3⟩
/-- FX_PREFIX_W0: 07_forwarding.md, R227. -/
abbrev R.FX_PREFIX_W0 (i : Nat) : Nat := 0x3280000 + 8 * i
abbrev F.FX_PREFIX_W0_ADDR (i : Nat) : Fld := ⟨0x3280000 + 8 * i, 0, 32, 3⟩
/-- FX_PREFIX_W1: 07_forwarding.md, R227. -/
abbrev R.FX_PREFIX_W1 (i : Nat) : Nat := 0x3280004 + 8 * i
abbrev F.FX_PREFIX_W1_LEN (i : Nat) : Fld := ⟨0x3280004 + 8 * i, 0, 8, 3⟩
abbrev F.FX_PREFIX_W1_NH (i : Nat) : Fld := ⟨0x3280004 + 8 * i, 8, 12, 3⟩
abbrev F.FX_PREFIX_W1_V6 (i : Nat) : Fld := ⟨0x3280004 + 8 * i, 29, 1, 3⟩
abbrev F.FX_PREFIX_W1_VALID (i : Nat) : Fld := ⟨0x3280004 + 8 * i, 31, 1, 3⟩
/-- FX_NEXTHOP_W0: 07_forwarding.md, R227. -/
abbrev R.FX_NEXTHOP_W0 (i : Nat) : Nat := 0x3290000 + 0x10 * i
abbrev F.FX_NEXTHOP_W0_DMAC_LO (i : Nat) : Fld := ⟨0x3290000 + 0x10 * i, 0, 32, 3⟩
/-- FX_NEXTHOP_W1: 07_forwarding.md, R227. -/
abbrev R.FX_NEXTHOP_W1 (i : Nat) : Nat := 0x3290004 + 0x10 * i
abbrev F.FX_NEXTHOP_W1_DMAC_HI (i : Nat) : Fld := ⟨0x3290004 + 0x10 * i, 0, 16, 3⟩
abbrev F.FX_NEXTHOP_W1_VID (i : Nat) : Fld := ⟨0x3290004 + 0x10 * i, 16, 12, 3⟩
abbrev F.FX_NEXTHOP_W1_VALID (i : Nat) : Fld := ⟨0x3290004 + 0x10 * i, 31, 1, 3⟩
/-- FX_NEXTHOP_W2: 07_forwarding.md, R227. -/
abbrev R.FX_NEXTHOP_W2 (i : Nat) : Nat := 0x3290008 + 0x10 * i
abbrev F.FX_NEXTHOP_W2_DEST (i : Nat) : Fld := ⟨0x3290008 + 0x10 * i, 0, 6, 3⟩
abbrev F.FX_NEXTHOP_W2_IS_PG (i : Nat) : Fld := ⟨0x3290008 + 0x10 * i, 6, 1, 3⟩
abbrev F.FX_NEXTHOP_W2_DEC_TTL (i : Nat) : Fld := ⟨0x3290008 + 0x10 * i, 7, 1, 3⟩
/-- FX_XLAT_ORIG: 07_forwarding.md, R227. -/
abbrev R.FX_XLAT_ORIG (i j : Nat) : Nat := 0x32a0000 + 0x40 * i + 4 * j
abbrev F.FX_XLAT_ORIG_ORIG (i j : Nat) : Fld := ⟨0x32a0000 + 0x40 * i + 4 * j, 0, 32, 3⟩
/-- FX_XLAT_NEW: 07_forwarding.md, R227. -/
abbrev R.FX_XLAT_NEW (i j : Nat) : Nat := 0x32a0010 + 0x40 * i + 4 * j
abbrev F.FX_XLAT_NEW_XLAT (i j : Nat) : Fld := ⟨0x32a0010 + 0x40 * i + 4 * j, 0, 32, 3⟩
/-- FX_XLAT_W8: 07_forwarding.md, R227. -/
abbrev R.FX_XLAT_W8 (i : Nat) : Nat := 0x32a0020 + 0x40 * i
abbrev F.FX_XLAT_W8_LEN (i : Nat) : Fld := ⟨0x32a0020 + 0x40 * i, 0, 8, 3⟩
abbrev F.FX_XLAT_W8_KIND (i : Nat) : Fld := ⟨0x32a0020 + 0x40 * i, 8, 1, 3⟩
abbrev F.FX_XLAT_W8_V6 (i : Nat) : Fld := ⟨0x32a0020 + 0x40 * i, 9, 1, 3⟩
abbrev F.FX_XLAT_W8_VALID (i : Nat) : Fld := ⟨0x32a0020 + 0x40 * i, 31, 1, 3⟩
/-- FX_XLAT_W9: 07_forwarding.md, R227. -/
abbrev R.FX_XLAT_W9 (i : Nat) : Nat := 0x32a0024 + 0x40 * i
abbrev F.FX_XLAT_W9_VID (i : Nat) : Fld := ⟨0x32a0024 + 0x40 * i, 0, 12, 3⟩
/-- FX_PG_W0: 07_forwarding.md, R227. -/
abbrev R.FX_PG_W0 (i : Nat) : Nat := 0x32c0000 + 0x10 * i
abbrev F.FX_PG_W0_M0 (i : Nat) : Fld := ⟨0x32c0000 + 0x10 * i, 0, 6, 3⟩
abbrev F.FX_PG_W0_M1 (i : Nat) : Fld := ⟨0x32c0000 + 0x10 * i, 8, 6, 3⟩
abbrev F.FX_PG_W0_M2 (i : Nat) : Fld := ⟨0x32c0000 + 0x10 * i, 16, 6, 3⟩
abbrev F.FX_PG_W0_M3 (i : Nat) : Fld := ⟨0x32c0000 + 0x10 * i, 24, 6, 3⟩
/-- FX_PG_W1: 07_forwarding.md, R227. -/
abbrev R.FX_PG_W1 (i : Nat) : Nat := 0x32c0004 + 0x10 * i
abbrev F.FX_PG_W1_M4 (i : Nat) : Fld := ⟨0x32c0004 + 0x10 * i, 0, 6, 3⟩
abbrev F.FX_PG_W1_M5 (i : Nat) : Fld := ⟨0x32c0004 + 0x10 * i, 8, 6, 3⟩
abbrev F.FX_PG_W1_M6 (i : Nat) : Fld := ⟨0x32c0004 + 0x10 * i, 16, 6, 3⟩
abbrev F.FX_PG_W1_M7 (i : Nat) : Fld := ⟨0x32c0004 + 0x10 * i, 24, 6, 3⟩
/-- FX_PG_W2: 07_forwarding.md, R227. -/
abbrev R.FX_PG_W2 (i : Nat) : Nat := 0x32c0008 + 0x10 * i
abbrev F.FX_PG_W2_MEMBER_EN (i : Nat) : Fld := ⟨0x32c0008 + 0x10 * i, 0, 8, 3⟩
abbrev F.FX_PG_W2_REJOIN (i : Nat) : Fld := ⟨0x32c0008 + 0x10 * i, 8, 8, 3⟩
abbrev F.FX_PG_W2_HASH_FIELDS (i : Nat) : Fld := ⟨0x32c0008 + 0x10 * i, 16, 11, 3⟩
/-- FX_PG_W3: 07_forwarding.md, R227. -/
abbrev R.FX_PG_W3 (i : Nat) : Nat := 0x32c000c + 0x10 * i
abbrev F.FX_PG_W3_SEED (i : Nat) : Fld := ⟨0x32c000c + 0x10 * i, 0, 32, 3⟩
/-- FX_STREAM_ID_W0: 07_forwarding.md, R227. -/
abbrev R.FX_STREAM_ID_W0 (i : Nat) : Nat := 0x3300000 + 0x20 * i
abbrev F.FX_STREAM_ID_W0_METHOD (i : Nat) : Fld := ⟨0x3300000 + 0x20 * i, 0, 2, 4⟩
abbrev F.FX_STREAM_ID_W0_VALID (i : Nat) : Fld := ⟨0x3300000 + 0x20 * i, 31, 1, 4⟩
/-- FX_STREAM_ID_A: 07_forwarding.md, R227. -/
abbrev R.FX_STREAM_ID_A (i j : Nat) : Nat := 0x3300004 + 0x20 * i + 4 * j
abbrev F.FX_STREAM_ID_A_ADDR (i j : Nat) : Fld := ⟨0x3300004 + 0x20 * i + 4 * j, 0, 32, 4⟩
/-- FX_STREAM_ID_W5: 07_forwarding.md, R227. -/
abbrev R.FX_STREAM_ID_W5 (i : Nat) : Nat := 0x3300014 + 0x20 * i
abbrev F.FX_STREAM_ID_W5_DPORT (i : Nat) : Fld := ⟨0x3300014 + 0x20 * i, 0, 16, 4⟩
abbrev F.FX_STREAM_ID_W5_PROTO (i : Nat) : Fld := ⟨0x3300014 + 0x20 * i, 16, 8, 4⟩
abbrev F.FX_STREAM_ID_W5_DSCP (i : Nat) : Fld := ⟨0x3300014 + 0x20 * i, 24, 6, 4⟩
/-- FX_STREAM_ID_W6: 07_forwarding.md, R227. -/
abbrev R.FX_STREAM_ID_W6 (i : Nat) : Nat := 0x3300018 + 0x20 * i
abbrev F.FX_STREAM_ID_W6_PORT_ANY (i : Nat) : Fld := ⟨0x3300018 + 0x20 * i, 0, 1, 4⟩
abbrev F.FX_STREAM_ID_W6_PROTO_ANY (i : Nat) : Fld := ⟨0x3300018 + 0x20 * i, 1, 1, 4⟩
abbrev F.FX_STREAM_ID_W6_DSCP_ANY (i : Nat) : Fld := ⟨0x3300018 + 0x20 * i, 2, 1, 4⟩
abbrev F.FX_STREAM_ID_W6_V6 (i : Nat) : Fld := ⟨0x3300018 + 0x20 * i, 3, 1, 4⟩
/-- FX_STREAM_ID_W7: 07_forwarding.md, R227. -/
abbrev R.FX_STREAM_ID_W7 (i : Nat) : Nat := 0x330001c + 0x20 * i
abbrev F.FX_STREAM_ID_W7_VID (i : Nat) : Fld := ⟨0x330001c + 0x20 * i, 0, 12, 4⟩
/-- FX_FRER_W0: 07_forwarding.md, R227. -/
abbrev R.FX_FRER_W0 (i : Nat) : Nat := 0x3310000 + 0x10 * i
abbrev F.FX_FRER_W0_GEN (i : Nat) : Fld := ⟨0x3310000 + 0x10 * i, 0, 1, 4⟩
abbrev F.FX_FRER_W0_RCVY_EN (i : Nat) : Fld := ⟨0x3310000 + 0x10 * i, 1, 1, 4⟩
abbrev F.FX_FRER_W0_ALG (i : Nat) : Fld := ⟨0x3310000 + 0x10 * i, 2, 1, 4⟩
abbrev F.FX_FRER_W0_TAKE_NO_SEQ (i : Nat) : Fld := ⟨0x3310000 + 0x10 * i, 3, 1, 4⟩
abbrev F.FX_FRER_W0_HISTORY (i : Nat) : Fld := ⟨0x3310000 + 0x10 * i, 4, 5, 4⟩
/-- FX_FRER_W1: 07_forwarding.md, R227. -/
abbrev R.FX_FRER_W1 (i : Nat) : Nat := 0x3310004 + 0x10 * i
abbrev F.FX_FRER_W1_RESET_MS (i : Nat) : Fld := ⟨0x3310004 + 0x10 * i, 0, 16, 4⟩
/-- FX_FRER_W2: 07_forwarding.md, R227. -/
abbrev R.FX_FRER_W2 (i : Nat) : Nat := 0x3310008 + 0x10 * i
abbrev F.FX_FRER_W2_STRIP_LO (i : Nat) : Fld := ⟨0x3310008 + 0x10 * i, 0, 32, 4⟩
/-- FX_FRER_W3: 07_forwarding.md, R227. -/
abbrev R.FX_FRER_W3 (i : Nat) : Nat := 0x331000c + 0x10 * i
abbrev F.FX_FRER_W3_STRIP_HI (i : Nat) : Fld := ⟨0x331000c + 0x10 * i, 0, 9, 4⟩
/-- FX_FDB_CFG: 07_forwarding.md, R228. -/
abbrev R.FX_FDB_CFG : Nat := 0x3000000
abbrev F.FX_FDB_CFG_AGE_TICK : Fld := ⟨0x3000000, 0, 8, 3⟩
abbrev F.FX_FDB_CFG_AGE_LIMIT : Fld := ⟨0x3000000, 16, 16, 3⟩
/-- FX_RTR_MAC_LO: 07_forwarding.md, R228. -/
abbrev R.FX_RTR_MAC_LO : Nat := 0x3000004
abbrev F.FX_RTR_MAC_LO_MAC : Fld := ⟨0x3000004, 0, 32, 3⟩
/-- FX_RTR_MAC_HI: 07_forwarding.md, R228. -/
abbrev R.FX_RTR_MAC_HI : Nat := 0x3000008
abbrev F.FX_RTR_MAC_HI_MAC : Fld := ⟨0x3000008, 0, 16, 3⟩
/-- FX_PORT_CFG: 07_forwarding.md, R228. -/
abbrev R.FX_PORT_CFG (i : Nat) : Nat := 0x3001000 + 8 * i
abbrev F.FX_PORT_CFG_PVID (i : Nat) : Fld := ⟨0x3001000 + 8 * i, 0, 12, 3⟩
abbrev F.FX_PORT_CFG_ACCEPT (i : Nat) : Fld := ⟨0x3001000 + 8 * i, 12, 2, 3⟩
abbrev F.FX_PORT_CFG_LEARN_EN (i : Nat) : Fld := ⟨0x3001000 + 8 * i, 14, 1, 3⟩
abbrev F.FX_PORT_CFG_LEARN_ACT (i : Nat) : Fld := ⟨0x3001000 + 8 * i, 15, 1, 3⟩
abbrev F.FX_PORT_CFG_LEARN_LIM (i : Nat) : Fld := ⟨0x3001000 + 8 * i, 16, 16, 3⟩
/-- FX_TBL_CMD: 07_forwarding.md, R229. -/
abbrev R.FX_TBL_CMD : Nat := 0x3000400
abbrev F.FX_TBL_CMD_OP : Fld := ⟨0x3000400, 0, 3, 18⟩
abbrev F.FX_TBL_CMD_BY_PORT : Fld := ⟨0x3000400, 3, 1, 18⟩
abbrev F.FX_TBL_CMD_BY_FID : Fld := ⟨0x3000400, 4, 1, 18⟩
abbrev F.FX_TBL_CMD_PORT : Fld := ⟨0x3000400, 5, 6, 18⟩
abbrev F.FX_TBL_CMD_GO : Fld := ⟨0x3000400, 16, 1, 18⟩
abbrev F.FX_TBL_CMD_BUSY : Fld := ⟨0x3000400, 17, 1, 18⟩
abbrev F.FX_TBL_CMD_STATUS : Fld := ⟨0x3000400, 18, 3, 18⟩
/-- FX_TBL_KEY_LO: 07_forwarding.md, R229. -/
abbrev R.FX_TBL_KEY_LO : Nat := 0x3000404
abbrev F.FX_TBL_KEY_LO_MAC : Fld := ⟨0x3000404, 0, 32, 18⟩
/-- FX_TBL_KEY_HI: 07_forwarding.md, R229. -/
abbrev R.FX_TBL_KEY_HI : Nat := 0x3000408
abbrev F.FX_TBL_KEY_HI_MAC : Fld := ⟨0x3000408, 0, 16, 18⟩
abbrev F.FX_TBL_KEY_HI_FID : Fld := ⟨0x3000408, 16, 12, 18⟩
/-- FX_TBL_INDEX: 07_forwarding.md, R229. -/
abbrev R.FX_TBL_INDEX : Nat := 0x300040c
abbrev F.FX_TBL_INDEX_INDEX : Fld := ⟨0x300040c, 0, 17, 18⟩
/-- FX_TBL_DATA_0: 07_forwarding.md, R229. -/
abbrev R.FX_TBL_DATA_0 : Nat := 0x3000410
abbrev F.FX_TBL_DATA_0_MAC : Fld := ⟨0x3000410, 0, 32, 18⟩
/-- FX_TBL_DATA_1: 07_forwarding.md, R229. -/
abbrev R.FX_TBL_DATA_1 : Nat := 0x3000414
abbrev F.FX_TBL_DATA_1_MAC : Fld := ⟨0x3000414, 0, 16, 18⟩
abbrev F.FX_TBL_DATA_1_FID : Fld := ⟨0x3000414, 16, 12, 18⟩
abbrev F.FX_TBL_DATA_1_VALID : Fld := ⟨0x3000414, 31, 1, 18⟩
/-- FX_TBL_DATA_2: 07_forwarding.md, R229. -/
abbrev R.FX_TBL_DATA_2 : Nat := 0x3000418
abbrev F.FX_TBL_DATA_2_DEST : Fld := ⟨0x3000418, 0, 12, 18⟩
abbrev F.FX_TBL_DATA_2_DEST_KIND : Fld := ⟨0x3000418, 12, 2, 18⟩
abbrev F.FX_TBL_DATA_2_STATIC : Fld := ⟨0x3000418, 14, 1, 18⟩
abbrev F.FX_TBL_DATA_2_IN_ACTIVE : Fld := ⟨0x3000418, 16, 1, 18⟩
abbrev F.FX_TBL_DATA_2_IN_OTHER : Fld := ⟨0x3000418, 17, 1, 18⟩
/-- FX_TBL_DATA_3: 07_forwarding.md, R229. -/
abbrev R.FX_TBL_DATA_3 : Nat := 0x300041c
abbrev F.FX_TBL_DATA_3_STAMP : Fld := ⟨0x300041c, 0, 16, 18⟩
/-- FX_AGE_NOW: 07_forwarding.md, R230. -/
abbrev R.FX_AGE_NOW : Nat := 0x3000500
abbrev F.FX_AGE_NOW_NOW : Fld := ⟨0x3000500, 0, 16, 18⟩
/-- FX_EV_LAST: 07_forwarding.md, R230. -/
abbrev R.FX_EV_LAST : Nat := 0x3000504
abbrev F.FX_EV_LAST_LEARN_PORT : Fld := ⟨0x3000504, 0, 6, 18⟩
abbrev F.FX_EV_LAST_PG : Fld := ⟨0x3000504, 8, 4, 18⟩
abbrev F.FX_EV_LAST_STATIC_POS : Fld := ⟨0x3000504, 12, 14, 18⟩
/-- FX_FDB_COUNT: 07_forwarding.md, R230. -/
abbrev R.FX_FDB_COUNT : Nat := 0x3000508
abbrev F.FX_FDB_COUNT_ENTRIES : Fld := ⟨0x3000508, 0, 17, 18⟩
/-- FX_FDB_CAM_USED: 07_forwarding.md, R230. -/
abbrev R.FX_FDB_CAM_USED : Nat := 0x300050c
abbrev F.FX_FDB_CAM_USED_ENTRIES : Fld := ⟨0x300050c, 0, 9, 18⟩
/-- FX_FDB_INSERT_FAIL: 07_forwarding.md, R230. -/
abbrev R.FX_FDB_INSERT_FAIL : Nat := 0x3000600
abbrev F.FX_FDB_INSERT_FAIL_COUNT : Fld := ⟨0x3000600, 0, 32, 18⟩
/-- FX_FDB_MOVES: 07_forwarding.md, R230. -/
abbrev R.FX_FDB_MOVES : Nat := 0x3000604
abbrev F.FX_FDB_MOVES_COUNT : Fld := ⟨0x3000604, 0, 32, 18⟩
/-- FX_FDB_AGED: 07_forwarding.md, R230. -/
abbrev R.FX_FDB_AGED : Nat := 0x3000608
abbrev F.FX_FDB_AGED_COUNT : Fld := ⟨0x3000608, 0, 32, 18⟩
/-- FX_FDB_DISPLACED: 07_forwarding.md, R230. -/
abbrev R.FX_FDB_DISPLACED : Nat := 0x300060c
abbrev F.FX_FDB_DISPLACED_COUNT : Fld := ⟨0x300060c, 0, 32, 18⟩
/-- FX_FDB_STATIC_FAIL: 07_forwarding.md, R230. -/
abbrev R.FX_FDB_STATIC_FAIL : Nat := 0x3000610
abbrev F.FX_FDB_STATIC_FAIL_COUNT : Fld := ⟨0x3000610, 0, 32, 18⟩
/-- FX_FDB_STATIC_CONFLICT: 07_forwarding.md, R230. -/
abbrev R.FX_FDB_STATIC_CONFLICT : Nat := 0x3000614
abbrev F.FX_FDB_STATIC_CONFLICT_COUNT : Fld := ⟨0x3000614, 0, 32, 18⟩
/-- FX_DISCARD_HIT: 07_forwarding.md, R230. -/
abbrev R.FX_DISCARD_HIT : Nat := 0x3000618
abbrev F.FX_DISCARD_HIT_COUNT : Fld := ⟨0x3000618, 0, 32, 18⟩
/-- FX_UNREG_MC_DROP: 07_forwarding.md, R230. -/
abbrev R.FX_UNREG_MC_DROP : Nat := 0x300061c
abbrev F.FX_UNREG_MC_DROP_COUNT : Fld := ⟨0x300061c, 0, 32, 18⟩
/-- FX_ROUTE_MISS: 07_forwarding.md, R230. -/
abbrev R.FX_ROUTE_MISS : Nat := 0x3000620
abbrev F.FX_ROUTE_MISS_COUNT : Fld := ⟨0x3000620, 0, 32, 18⟩
/-- FX_TTL_EXPIRED: 07_forwarding.md, R230. -/
abbrev R.FX_TTL_EXPIRED : Nat := 0x3000624
abbrev F.FX_TTL_EXPIRED_COUNT : Fld := ⟨0x3000624, 0, 32, 18⟩
/-- FX_SRC_GROUP_DROP: 07_forwarding.md, R230. -/
abbrev R.FX_SRC_GROUP_DROP : Nat := 0x3000628
abbrev F.FX_SRC_GROUP_DROP_COUNT : Fld := ⟨0x3000628, 0, 32, 18⟩
/-- FX_TRAP: 07_forwarding.md, R230. -/
abbrev R.FX_TRAP : Nat := 0x300062c
abbrev F.FX_TRAP_COUNT : Fld := ⟨0x300062c, 0, 32, 18⟩
/-- FX_TBL_UE: 07_forwarding.md, R230. -/
abbrev R.FX_TBL_UE : Nat := 0x3000630
abbrev F.FX_TBL_UE_COUNT : Fld := ⟨0x3000630, 0, 32, 18⟩
/-- FX_PG_DROP_TOTAL: 07_forwarding.md, R230. -/
abbrev R.FX_PG_DROP_TOTAL : Nat := 0x3000634
abbrev F.FX_PG_DROP_TOTAL_COUNT : Fld := ⟨0x3000634, 0, 32, 18⟩
/-- FX_LEARNED: 07_forwarding.md, R230. -/
abbrev R.FX_LEARNED (i : Nat) : Nat := 0x3002000 + 0x10 * i
abbrev F.FX_LEARNED_ENTRIES (i : Nat) : Fld := ⟨0x3002000 + 0x10 * i, 0, 17, 18⟩
/-- FX_LEARN_LIM: 07_forwarding.md, R230. -/
abbrev R.FX_LEARN_LIM (i : Nat) : Nat := 0x3002004 + 0x10 * i
abbrev F.FX_LEARN_LIM_COUNT (i : Nat) : Fld := ⟨0x3002004 + 0x10 * i, 0, 32, 18⟩
/-- FX_VLAN_DROP: 07_forwarding.md, R230. -/
abbrev R.FX_VLAN_DROP (i : Nat) : Nat := 0x3002008 + 0x10 * i
abbrev F.FX_VLAN_DROP_COUNT (i : Nat) : Fld := ⟨0x3002008 + 0x10 * i, 0, 32, 18⟩
/-- FX_SAMEPORT: 07_forwarding.md, R230. -/
abbrev R.FX_SAMEPORT (i : Nat) : Nat := 0x300200c + 0x10 * i
abbrev F.FX_SAMEPORT_COUNT (i : Nat) : Fld := ⟨0x300200c + 0x10 * i, 0, 32, 18⟩
/-- FX_PG_STAT: 07_forwarding.md, R230. -/
abbrev R.FX_PG_STAT (i : Nat) : Nat := 0x3003000 + 0x10 * i
abbrev F.FX_PG_STAT_IN_SERVICE (i : Nat) : Fld := ⟨0x3003000 + 0x10 * i, 0, 8, 18⟩
/-- FX_PG_MOVES: 07_forwarding.md, R230. -/
abbrev R.FX_PG_MOVES (i : Nat) : Nat := 0x3003004 + 0x10 * i
abbrev F.FX_PG_MOVES_COUNT (i : Nat) : Fld := ⟨0x3003004 + 0x10 * i, 0, 32, 18⟩
/-- FX_PG_NOMEMBER: 07_forwarding.md, R230. -/
abbrev R.FX_PG_NOMEMBER (i : Nat) : Nat := 0x3003008 + 0x10 * i
abbrev F.FX_PG_NOMEMBER_COUNT (i : Nat) : Fld := ⟨0x3003008 + 0x10 * i, 0, 32, 18⟩
/-- FX_STREAM_PASSED: 07_forwarding.md, R230. -/
abbrev R.FX_STREAM_PASSED (i : Nat) : Nat := 0x3320000 + 0x20 * i
abbrev F.FX_STREAM_PASSED_COUNT (i : Nat) : Fld := ⟨0x3320000 + 0x20 * i, 0, 32, 18⟩
/-- FX_STREAM_DISCARDED: 07_forwarding.md, R230. -/
abbrev R.FX_STREAM_DISCARDED (i : Nat) : Nat := 0x3320004 + 0x20 * i
abbrev F.FX_STREAM_DISCARDED_COUNT (i : Nat) : Fld := ⟨0x3320004 + 0x20 * i, 0, 32, 18⟩
/-- FX_STREAM_OUT_OF_ORDER: 07_forwarding.md, R230. -/
abbrev R.FX_STREAM_OUT_OF_ORDER (i : Nat) : Nat := 0x3320008 + 0x20 * i
abbrev F.FX_STREAM_OUT_OF_ORDER_COUNT (i : Nat) : Fld := ⟨0x3320008 + 0x20 * i, 0, 32, 18⟩
/-- FX_STREAM_ROGUE: 07_forwarding.md, R230. -/
abbrev R.FX_STREAM_ROGUE (i : Nat) : Nat := 0x332000c + 0x20 * i
abbrev F.FX_STREAM_ROGUE_COUNT (i : Nat) : Fld := ⟨0x332000c + 0x20 * i, 0, 32, 18⟩
/-- FX_STREAM_LOST: 07_forwarding.md, R230. -/
abbrev R.FX_STREAM_LOST (i : Nat) : Nat := 0x3320010 + 0x20 * i
abbrev F.FX_STREAM_LOST_COUNT (i : Nat) : Fld := ⟨0x3320010 + 0x20 * i, 0, 32, 18⟩
/-- FX_STREAM_TAGLESS: 07_forwarding.md, R230. -/
abbrev R.FX_STREAM_TAGLESS (i : Nat) : Nat := 0x3320014 + 0x20 * i
abbrev F.FX_STREAM_TAGLESS_COUNT (i : Nat) : Fld := ⟨0x3320014 + 0x20 * i, 0, 32, 18⟩
/-- FX_STREAM_RESETS: 07_forwarding.md, R230. -/
abbrev R.FX_STREAM_RESETS (i : Nat) : Nat := 0x3320018 + 0x20 * i
abbrev F.FX_STREAM_RESETS_COUNT (i : Nat) : Fld := ⟨0x3320018 + 0x20 * i, 0, 32, 18⟩
/-- FX_QOS_CFG: 08_policy_scheduling.md, R254. -/
abbrev R.FX_QOS_CFG (i : Nat) : Nat := 0x3001004 + 8 * i
abbrev F.FX_QOS_CFG_DEF_TC (i : Nat) : Fld := ⟨0x3001004 + 8 * i, 0, 3, 4⟩
abbrev F.FX_QOS_CFG_PCP_FROM_TC (i : Nat) : Fld := ⟨0x3001004 + 8 * i, 4, 1, 4⟩
abbrev F.FX_QOS_CFG_MARK_DEI (i : Nat) : Fld := ⟨0x3001004 + 8 * i, 5, 1, 4⟩
abbrev F.FX_QOS_CFG_PCP_TC (i : Nat) : Fld := ⟨0x3001004 + 8 * i, 8, 24, 4⟩
/-- FX_ACL_KEY: 08_policy_scheduling.md, R256. -/
abbrev R.FX_ACL_KEY (i j : Nat) : Nat := 0x3400000 + 0x80 * i + 4 * j
abbrev F.FX_ACL_KEY_KEY (i j : Nat) : Fld := ⟨0x3400000 + 0x80 * i + 4 * j, 0, 32, 4⟩
/-- FX_ACL_MASK: 08_policy_scheduling.md, R256. -/
abbrev R.FX_ACL_MASK (i j : Nat) : Nat := 0x3400028 + 0x80 * i + 4 * j
abbrev F.FX_ACL_MASK_MASK (i j : Nat) : Fld := ⟨0x3400028 + 0x80 * i + 4 * j, 0, 32, 4⟩
/-- FX_ACL_W20: 08_policy_scheduling.md, R256. -/
abbrev R.FX_ACL_W20 (i : Nat) : Nat := 0x3400050 + 0x80 * i
abbrev F.FX_ACL_W20_ACT (i : Nat) : Fld := ⟨0x3400050 + 0x80 * i, 0, 2, 4⟩
abbrev F.FX_ACL_W20_REDIR (i : Nat) : Fld := ⟨0x3400050 + 0x80 * i, 2, 6, 4⟩
abbrev F.FX_ACL_W20_SET_TC (i : Nat) : Fld := ⟨0x3400050 + 0x80 * i, 8, 1, 4⟩
abbrev F.FX_ACL_W20_TC (i : Nat) : Fld := ⟨0x3400050 + 0x80 * i, 9, 3, 4⟩
abbrev F.FX_ACL_W20_SET_PCP (i : Nat) : Fld := ⟨0x3400050 + 0x80 * i, 12, 1, 4⟩
abbrev F.FX_ACL_W20_PCP (i : Nat) : Fld := ⟨0x3400050 + 0x80 * i, 13, 3, 4⟩
abbrev F.FX_ACL_W20_POL_EN (i : Nat) : Fld := ⟨0x3400050 + 0x80 * i, 16, 1, 4⟩
abbrev F.FX_ACL_W20_POLICER (i : Nat) : Fld := ⟨0x3400050 + 0x80 * i, 17, 12, 4⟩
/-- FX_ACL_W21: 08_policy_scheduling.md, R256. -/
abbrev R.FX_ACL_W21 (i : Nat) : Nat := 0x3400054 + 0x80 * i
abbrev F.FX_ACL_W21_VALID (i : Nat) : Fld := ⟨0x3400054 + 0x80 * i, 31, 1, 4⟩
/-- FX_POLICER_W0: 08_policy_scheduling.md, R256. -/
abbrev R.FX_POLICER_W0 (i : Nat) : Nat := 0x3500000 + 0x10 * i
abbrev F.FX_POLICER_W0_CIR (i : Nat) : Fld := ⟨0x3500000 + 0x10 * i, 0, 20, 4⟩
abbrev F.FX_POLICER_W0_MODE (i : Nat) : Fld := ⟨0x3500000 + 0x10 * i, 20, 1, 4⟩
abbrev F.FX_POLICER_W0_COLOR_AWARE (i : Nat) : Fld := ⟨0x3500000 + 0x10 * i, 21, 1, 4⟩
abbrev F.FX_POLICER_W0_OVERHEAD (i : Nat) : Fld := ⟨0x3500000 + 0x10 * i, 22, 1, 4⟩
abbrev F.FX_POLICER_W0_YEL_ACT (i : Nat) : Fld := ⟨0x3500000 + 0x10 * i, 23, 2, 4⟩
abbrev F.FX_POLICER_W0_YEL_TC (i : Nat) : Fld := ⟨0x3500000 + 0x10 * i, 25, 3, 4⟩
abbrev F.FX_POLICER_W0_RED_PASS (i : Nat) : Fld := ⟨0x3500000 + 0x10 * i, 28, 1, 4⟩
abbrev F.FX_POLICER_W0_RED_EV (i : Nat) : Fld := ⟨0x3500000 + 0x10 * i, 29, 1, 4⟩
abbrev F.FX_POLICER_W0_VALID (i : Nat) : Fld := ⟨0x3500000 + 0x10 * i, 31, 1, 4⟩
/-- FX_POLICER_W1: 08_policy_scheduling.md, R256. -/
abbrev R.FX_POLICER_W1 (i : Nat) : Nat := 0x3500004 + 0x10 * i
abbrev F.FX_POLICER_W1_PEIR (i : Nat) : Fld := ⟨0x3500004 + 0x10 * i, 0, 20, 4⟩
/-- FX_POLICER_W2: 08_policy_scheduling.md, R256. -/
abbrev R.FX_POLICER_W2 (i : Nat) : Nat := 0x3500008 + 0x10 * i
abbrev F.FX_POLICER_W2_CBS (i : Nat) : Fld := ⟨0x3500008 + 0x10 * i, 0, 16, 4⟩
abbrev F.FX_POLICER_W2_CBS2 (i : Nat) : Fld := ⟨0x3500008 + 0x10 * i, 16, 16, 4⟩
/-- FX_SFILTER_W0: 08_policy_scheduling.md, R256. -/
abbrev R.FX_SFILTER_W0 (i : Nat) : Nat := 0x3600000 + 8 * i
abbrev F.FX_SFILTER_W0_MAX_SDU (i : Nat) : Fld := ⟨0x3600000 + 8 * i, 0, 14, 4⟩
abbrev F.FX_SFILTER_W0_SDU_BLOCK_EN (i : Nat) : Fld := ⟨0x3600000 + 8 * i, 14, 1, 4⟩
abbrev F.FX_SFILTER_W0_GATE_EN (i : Nat) : Fld := ⟨0x3600000 + 8 * i, 15, 1, 4⟩
abbrev F.FX_SFILTER_W0_GATE (i : Nat) : Fld := ⟨0x3600000 + 8 * i, 16, 8, 4⟩
abbrev F.FX_SFILTER_W0_METER_EN (i : Nat) : Fld := ⟨0x3600000 + 8 * i, 24, 1, 4⟩
abbrev F.FX_SFILTER_W0_VALID (i : Nat) : Fld := ⟨0x3600000 + 8 * i, 31, 1, 4⟩
/-- FX_SFILTER_W1: 08_policy_scheduling.md, R256. -/
abbrev R.FX_SFILTER_W1 (i : Nat) : Nat := 0x3600004 + 8 * i
abbrev F.FX_SFILTER_W1_METER (i : Nat) : Fld := ⟨0x3600004 + 8 * i, 0, 12, 4⟩
abbrev F.FX_SFILTER_W1_MARK_RED_EN (i : Nat) : Fld := ⟨0x3600004 + 8 * i, 12, 1, 4⟩
abbrev F.FX_SFILTER_W1_DROP_YELLOW (i : Nat) : Fld := ⟨0x3600004 + 8 * i, 13, 1, 4⟩
/-- FX_SGATE_W0: 08_policy_scheduling.md, R256. -/
abbrev R.FX_SGATE_W0 (i : Nat) : Nat := 0x3680000 + 0x10 * i
abbrev F.FX_SGATE_W0_BASE_NS (i : Nat) : Fld := ⟨0x3680000 + 0x10 * i, 0, 30, 4⟩
/-- FX_SGATE_W1: 08_policy_scheduling.md, R256. -/
abbrev R.FX_SGATE_W1 (i : Nat) : Nat := 0x3680004 + 0x10 * i
abbrev F.FX_SGATE_W1_BASE_SEC_LO (i : Nat) : Fld := ⟨0x3680004 + 0x10 * i, 0, 32, 4⟩
/-- FX_SGATE_W2: 08_policy_scheduling.md, R256. -/
abbrev R.FX_SGATE_W2 (i : Nat) : Nat := 0x3680008 + 0x10 * i
abbrev F.FX_SGATE_W2_BASE_SEC_HI (i : Nat) : Fld := ⟨0x3680008 + 0x10 * i, 0, 16, 4⟩
abbrev F.FX_SGATE_W2_TI_SEL (i : Nat) : Fld := ⟨0x3680008 + 0x10 * i, 16, 2, 4⟩
abbrev F.FX_SGATE_W2_LIST_LEN (i : Nat) : Fld := ⟨0x3680008 + 0x10 * i, 18, 5, 4⟩
abbrev F.FX_SGATE_W2_INVALID_RX_EN (i : Nat) : Fld := ⟨0x3680008 + 0x10 * i, 23, 1, 4⟩
abbrev F.FX_SGATE_W2_VALID (i : Nat) : Fld := ⟨0x3680008 + 0x10 * i, 31, 1, 4⟩
/-- FX_SGATE_W3: 08_policy_scheduling.md, R256. -/
abbrev R.FX_SGATE_W3 (i : Nat) : Nat := 0x368000c + 0x10 * i
abbrev F.FX_SGATE_W3_CYCLE (i : Nat) : Fld := ⟨0x368000c + 0x10 * i, 0, 30, 4⟩
/-- FX_SGCL: 08_policy_scheduling.md, R256. -/
abbrev R.FX_SGCL (i : Nat) : Nat := 0x36a0000 + 4 * i
abbrev F.FX_SGCL_OPEN (i : Nat) : Fld := ⟨0x36a0000 + 4 * i, 0, 1, 4⟩
abbrev F.FX_SGCL_IPV_EN (i : Nat) : Fld := ⟨0x36a0000 + 4 * i, 1, 1, 4⟩
abbrev F.FX_SGCL_IPV (i : Nat) : Fld := ⟨0x36a0000 + 4 * i, 2, 3, 4⟩
abbrev F.FX_SGCL_INTERVAL (i : Nat) : Fld := ⟨0x36a0000 + 4 * i, 8, 24, 4⟩
/-- SC_GCL: 08_policy_scheduling.md, R256. -/
abbrev R.SC_GCL (i j : Nat) : Nat := 0x2410800 + 0x2000 * i + 4 * j
abbrev F.SC_GCL_GATES (i j : Nat) : Fld := ⟨0x2410800 + 0x2000 * i + 4 * j, 0, 8, 5⟩
abbrev F.SC_GCL_INTERVAL (i j : Nat) : Fld := ⟨0x2410800 + 0x2000 * i + 4 * j, 8, 24, 5⟩
/-- SC_PORT_CFG: 08_policy_scheduling.md, R257. -/
abbrev R.SC_PORT_CFG (i : Nat) : Nat := 0x2410000 + 0x2000 * i
abbrev F.SC_PORT_CFG_GCL_EN (i : Nat) : Fld := ⟨0x2410000 + 0x2000 * i, 0, 1, 5⟩
abbrev F.SC_PORT_CFG_TI_SEL (i : Nat) : Fld := ⟨0x2410000 + 0x2000 * i, 1, 2, 5⟩
abbrev F.SC_PORT_CFG_LIST_LEN (i : Nat) : Fld := ⟨0x2410000 + 0x2000 * i, 3, 9, 5⟩
/-- SC_BASE_NS: 08_policy_scheduling.md, R257. -/
abbrev R.SC_BASE_NS (i : Nat) : Nat := 0x2410004 + 0x2000 * i
abbrev F.SC_BASE_NS_NS (i : Nat) : Fld := ⟨0x2410004 + 0x2000 * i, 0, 30, 5⟩
/-- SC_BASE_SEC_LO: 08_policy_scheduling.md, R257. -/
abbrev R.SC_BASE_SEC_LO (i : Nat) : Nat := 0x2410008 + 0x2000 * i
abbrev F.SC_BASE_SEC_LO_SEC (i : Nat) : Fld := ⟨0x2410008 + 0x2000 * i, 0, 32, 5⟩
/-- SC_BASE_SEC_HI: 08_policy_scheduling.md, R257. -/
abbrev R.SC_BASE_SEC_HI (i : Nat) : Nat := 0x241000c + 0x2000 * i
abbrev F.SC_BASE_SEC_HI_SEC (i : Nat) : Fld := ⟨0x241000c + 0x2000 * i, 0, 16, 5⟩
/-- SC_CYCLE: 08_policy_scheduling.md, R257. -/
abbrev R.SC_CYCLE (i : Nat) : Nat := 0x2410010 + 0x2000 * i
abbrev F.SC_CYCLE_NS (i : Nat) : Fld := ⟨0x2410010 + 0x2000 * i, 0, 30, 5⟩
/-- SC_LAUNCH_CFG: 08_policy_scheduling.md, R257. -/
abbrev R.SC_LAUNCH_CFG (i : Nat) : Nat := 0x2410014 + 0x2000 * i
abbrev F.SC_LAUNCH_CFG_LATE_LIM (i : Nat) : Fld := ⟨0x2410014 + 0x2000 * i, 0, 20, 5⟩
abbrev F.SC_LAUNCH_CFG_LATE_ACT (i : Nat) : Fld := ⟨0x2410014 + 0x2000 * i, 20, 1, 5⟩
/-- SC_TCQ: 08_policy_scheduling.md, R257. -/
abbrev R.SC_TCQ (i j : Nat) : Nat := 0x2410020 + 0x2000 * i + 4 * j
abbrev F.SC_TCQ_GROUP (i j : Nat) : Fld := ⟨0x2410020 + 0x2000 * i + 4 * j, 0, 2, 5⟩
abbrev F.SC_TCQ_QUANTUM (i j : Nat) : Fld := ⟨0x2410020 + 0x2000 * i + 4 * j, 2, 8, 5⟩
abbrev F.SC_TCQ_LAUNCH_EN (i j : Nat) : Fld := ⟨0x2410020 + 0x2000 * i + 4 * j, 10, 1, 5⟩
abbrev F.SC_TCQ_SHAPE_RATE (i j : Nat) : Fld := ⟨0x2410020 + 0x2000 * i + 4 * j, 12, 20, 5⟩
/-- SC_LOFS: 08_policy_scheduling.md, R257. -/
abbrev R.SC_LOFS (i j : Nat) : Nat := 0x2410040 + 0x2000 * i + 4 * j
abbrev F.SC_LOFS_LAUNCH_OFFSET (i j : Nat) : Fld := ⟨0x2410040 + 0x2000 * i + 4 * j, 0, 24, 5⟩
/-- FX_ACL_MISS: 08_policy_scheduling.md, R258. -/
abbrev R.FX_ACL_MISS : Nat := 0x3000638
abbrev F.FX_ACL_MISS_COUNT : Fld := ⟨0x3000638, 0, 32, 18⟩
/-- FX_EV_LAST2: 08_policy_scheduling.md, R258. -/
abbrev R.FX_EV_LAST2 : Nat := 0x3000510
abbrev F.FX_EV_LAST2_POLICER : Fld := ⟨0x3000510, 0, 12, 18⟩
abbrev F.FX_EV_LAST2_FILTER : Fld := ⟨0x3000510, 12, 10, 18⟩
abbrev F.FX_EV_LAST2_GATE : Fld := ⟨0x3000510, 22, 8, 18⟩
/-- FX_PSFP_CLEAR: 08_policy_scheduling.md, R258. -/
abbrev R.FX_PSFP_CLEAR : Nat := 0x3000700
abbrev F.FX_PSFP_CLEAR_FILTER : Fld := ⟨0x3000700, 0, 10, 18⟩
abbrev F.FX_PSFP_CLEAR_CLR_FILTER : Fld := ⟨0x3000700, 10, 1, 18⟩
abbrev F.FX_PSFP_CLEAR_GATE : Fld := ⟨0x3000700, 16, 8, 18⟩
abbrev F.FX_PSFP_CLEAR_CLR_GATE : Fld := ⟨0x3000700, 24, 1, 18⟩
/-- FX_ACL_HITS: 08_policy_scheduling.md, R258. -/
abbrev R.FX_ACL_HITS (i : Nat) : Nat := 0x3480000 + 4 * i
abbrev F.FX_ACL_HITS_COUNT (i : Nat) : Fld := ⟨0x3480000 + 4 * i, 0, 32, 18⟩
/-- FX_POL_GREEN: 08_policy_scheduling.md, R258. -/
abbrev R.FX_POL_GREEN (i : Nat) : Nat := 0x3580000 + 0x10 * i
abbrev F.FX_POL_GREEN_COUNT (i : Nat) : Fld := ⟨0x3580000 + 0x10 * i, 0, 32, 18⟩
/-- FX_POL_YELLOW: 08_policy_scheduling.md, R258. -/
abbrev R.FX_POL_YELLOW (i : Nat) : Nat := 0x3580004 + 0x10 * i
abbrev F.FX_POL_YELLOW_COUNT (i : Nat) : Fld := ⟨0x3580004 + 0x10 * i, 0, 32, 18⟩
/-- FX_POL_RED: 08_policy_scheduling.md, R258. -/
abbrev R.FX_POL_RED (i : Nat) : Nat := 0x3580008 + 0x10 * i
abbrev F.FX_POL_RED_COUNT (i : Nat) : Fld := ⟨0x3580008 + 0x10 * i, 0, 32, 18⟩
/-- FX_SF_MATCHED: 08_policy_scheduling.md, R258. -/
abbrev R.FX_SF_MATCHED (i : Nat) : Nat := 0x3700000 + 0x20 * i
abbrev F.FX_SF_MATCHED_COUNT (i : Nat) : Fld := ⟨0x3700000 + 0x20 * i, 0, 32, 18⟩
/-- FX_SF_PASSED: 08_policy_scheduling.md, R258. -/
abbrev R.FX_SF_PASSED (i : Nat) : Nat := 0x3700004 + 0x20 * i
abbrev F.FX_SF_PASSED_COUNT (i : Nat) : Fld := ⟨0x3700004 + 0x20 * i, 0, 32, 18⟩
/-- FX_SF_SDU_DROP: 08_policy_scheduling.md, R258. -/
abbrev R.FX_SF_SDU_DROP (i : Nat) : Nat := 0x3700008 + 0x20 * i
abbrev F.FX_SF_SDU_DROP_COUNT (i : Nat) : Fld := ⟨0x3700008 + 0x20 * i, 0, 32, 18⟩
/-- FX_SF_GATE_DROP: 08_policy_scheduling.md, R258. -/
abbrev R.FX_SF_GATE_DROP (i : Nat) : Nat := 0x370000c + 0x20 * i
abbrev F.FX_SF_GATE_DROP_COUNT (i : Nat) : Fld := ⟨0x370000c + 0x20 * i, 0, 32, 18⟩
/-- FX_SF_RED_DROP: 08_policy_scheduling.md, R258. -/
abbrev R.FX_SF_RED_DROP (i : Nat) : Nat := 0x3700010 + 0x20 * i
abbrev F.FX_SF_RED_DROP_COUNT (i : Nat) : Fld := ⟨0x3700010 + 0x20 * i, 0, 32, 18⟩
/-- FX_SF_STAT: 08_policy_scheduling.md, R258. -/
abbrev R.FX_SF_STAT (i : Nat) : Nat := 0x3700014 + 0x20 * i
abbrev F.FX_SF_STAT_SDU_BLOCKED (i : Nat) : Fld := ⟨0x3700014 + 0x20 * i, 0, 1, 18⟩
abbrev F.FX_SF_STAT_MARK_RED (i : Nat) : Fld := ⟨0x3700014 + 0x20 * i, 1, 1, 18⟩
/-- FX_SGATE_STAT: 08_policy_scheduling.md, R258. -/
abbrev R.FX_SGATE_STAT (i : Nat) : Nat := 0x36c0000 + 4 * i
abbrev F.FX_SGATE_STAT_INVALID_CLOSED (i : Nat) : Fld := ⟨0x36c0000 + 4 * i, 0, 1, 18⟩
abbrev F.FX_SGATE_STAT_OPEN (i : Nat) : Fld := ⟨0x36c0000 + 4 * i, 1, 1, 18⟩
abbrev F.FX_SGATE_STAT_ENTRY (i : Nat) : Fld := ⟨0x36c0000 + 4 * i, 2, 4, 18⟩
/-- SC_GCL_STAT: 08_policy_scheduling.md, R258. -/
abbrev R.SC_GCL_STAT (i : Nat) : Nat := 0x2470000 + 0x20 * i
abbrev F.SC_GCL_STAT_RUNNING (i : Nat) : Fld := ⟨0x2470000 + 0x20 * i, 0, 1, 18⟩
abbrev F.SC_GCL_STAT_PENDING (i : Nat) : Fld := ⟨0x2470000 + 0x20 * i, 1, 1, 18⟩
abbrev F.SC_GCL_STAT_ENTRY (i : Nat) : Fld := ⟨0x2470000 + 0x20 * i, 2, 8, 18⟩
abbrev F.SC_GCL_STAT_GATES (i : Nat) : Fld := ⟨0x2470000 + 0x20 * i, 10, 8, 18⟩
/-- SC_LATE_DROP: 08_policy_scheduling.md, R258. -/
abbrev R.SC_LATE_DROP (i : Nat) : Nat := 0x2470004 + 0x20 * i
abbrev F.SC_LATE_DROP_COUNT (i : Nat) : Fld := ⟨0x2470004 + 0x20 * i, 0, 32, 18⟩
/-- SC_LATE_SENT: 08_policy_scheduling.md, R258. -/
abbrev R.SC_LATE_SENT (i : Nat) : Nat := 0x2470008 + 0x20 * i
abbrev F.SC_LATE_SENT_COUNT (i : Nat) : Fld := ⟨0x2470008 + 0x20 * i, 0, 32, 18⟩
/-- SC_TOO_BIG: 08_policy_scheduling.md, R258. -/
abbrev R.SC_TOO_BIG (i : Nat) : Nat := 0x247000c + 0x20 * i
abbrev F.SC_TOO_BIG_COUNT (i : Nat) : Fld := ⟨0x247000c + 0x20 * i, 0, 32, 18⟩
/-- SC_HORIZON_DROP: 08_policy_scheduling.md, R258. -/
abbrev R.SC_HORIZON_DROP (i : Nat) : Nat := 0x2470010 + 0x20 * i
abbrev F.SC_HORIZON_DROP_COUNT (i : Nat) : Fld := ⟨0x2470010 + 0x20 * i, 0, 32, 18⟩
/-- SC_EV_LAST: 08_policy_scheduling.md, R258. -/
abbrev R.SC_EV_LAST : Nat := 0x2471000
abbrev F.SC_EV_LAST_PORT : Fld := ⟨0x2471000, 0, 6, 18⟩
/-- TE_TI_NS: 09_time.md, R282. -/
abbrev R.TE_TI_NS (i : Nat) : Nat := 0x4001000 + 0x100 * i
abbrev F.TE_TI_NS_NS (i : Nat) : Fld := ⟨0x4001000 + 0x100 * i, 0, 30, 18⟩
/-- TE_TI_SEC_LO: 09_time.md, R282. -/
abbrev R.TE_TI_SEC_LO (i : Nat) : Nat := 0x4001004 + 0x100 * i
abbrev F.TE_TI_SEC_LO_SEC (i : Nat) : Fld := ⟨0x4001004 + 0x100 * i, 0, 32, 18⟩
/-- TE_TI_SEC_HI: 09_time.md, R282. -/
abbrev R.TE_TI_SEC_HI (i : Nat) : Nat := 0x4001008 + 0x100 * i
abbrev F.TE_TI_SEC_HI_SEC (i : Nat) : Fld := ⟨0x4001008 + 0x100 * i, 0, 16, 18⟩
/-- TE_TI_FRAC: 09_time.md, R282. -/
abbrev R.TE_TI_FRAC (i : Nat) : Nat := 0x400100c + 0x100 * i
abbrev F.TE_TI_FRAC_FRAC (i : Nat) : Fld := ⟨0x400100c + 0x100 * i, 0, 32, 18⟩
/-- TE_TI_INC: 09_time.md, R282. -/
abbrev R.TE_TI_INC (i : Nat) : Nat := 0x4001010 + 0x100 * i
abbrev F.TE_TI_INC_INC_FRAC (i : Nat) : Fld := ⟨0x4001010 + 0x100 * i, 0, 32, 6⟩
/-- TE_TI_CFG: 09_time.md, R282. -/
abbrev R.TE_TI_CFG (i : Nat) : Nat := 0x4001014 + 0x100 * i
abbrev F.TE_TI_CFG_INC_INT (i : Nat) : Fld := ⟨0x4001014 + 0x100 * i, 0, 8, 6⟩
abbrev F.TE_TI_CFG_RTC_SEED (i : Nat) : Fld := ⟨0x4001014 + 0x100 * i, 8, 1, 6⟩
/-- TE_TI_JUMP: 09_time.md, R282. -/
abbrev R.TE_TI_JUMP (i : Nat) : Nat := 0x4001018 + 0x100 * i
abbrev F.TE_TI_JUMP_JUMP_LIM (i : Nat) : Fld := ⟨0x4001018 + 0x100 * i, 0, 32, 6⟩
/-- TE_TI_ADJ: 09_time.md, R282. -/
abbrev R.TE_TI_ADJ (i : Nat) : Nat := 0x400101c + 0x100 * i
abbrev F.TE_TI_ADJ_ADJ (i : Nat) : Fld := ⟨0x400101c + 0x100 * i, 0, 32, 18⟩
/-- TE_TI_STEP_LO: 09_time.md, R282. -/
abbrev R.TE_TI_STEP_LO (i : Nat) : Nat := 0x4001020 + 0x100 * i
abbrev F.TE_TI_STEP_LO_STEP (i : Nat) : Fld := ⟨0x4001020 + 0x100 * i, 0, 32, 18⟩
/-- TE_TI_STEP_HI: 09_time.md, R282. -/
abbrev R.TE_TI_STEP_HI (i : Nat) : Nat := 0x4001024 + 0x100 * i
abbrev F.TE_TI_STEP_HI_STEP (i : Nat) : Fld := ⟨0x4001024 + 0x100 * i, 0, 32, 18⟩
/-- TE_TI_SET_NS: 09_time.md, R282. -/
abbrev R.TE_TI_SET_NS (i : Nat) : Nat := 0x4001028 + 0x100 * i
abbrev F.TE_TI_SET_NS_NS (i : Nat) : Fld := ⟨0x4001028 + 0x100 * i, 0, 30, 18⟩
/-- TE_TI_SET_SEC_LO: 09_time.md, R282. -/
abbrev R.TE_TI_SET_SEC_LO (i : Nat) : Nat := 0x400102c + 0x100 * i
abbrev F.TE_TI_SET_SEC_LO_SEC (i : Nat) : Fld := ⟨0x400102c + 0x100 * i, 0, 32, 18⟩
/-- TE_TI_SET_SEC_HI: 09_time.md, R282. -/
abbrev R.TE_TI_SET_SEC_HI (i : Nat) : Nat := 0x4001030 + 0x100 * i
abbrev F.TE_TI_SET_SEC_HI_SEC (i : Nat) : Fld := ⟨0x4001030 + 0x100 * i, 0, 16, 18⟩
/-- TE_TI_CMD: 09_time.md, R282. -/
abbrev R.TE_TI_CMD (i : Nat) : Nat := 0x4001034 + 0x100 * i
abbrev F.TE_TI_CMD_OP (i : Nat) : Fld := ⟨0x4001034 + 0x100 * i, 0, 2, 18⟩
abbrev F.TE_TI_CMD_BUSY (i : Nat) : Fld := ⟨0x4001034 + 0x100 * i, 8, 1, 18⟩
abbrev F.TE_TI_CMD_RESULT (i : Nat) : Fld := ⟨0x4001034 + 0x100 * i, 9, 3, 18⟩
/-- TE_TI_STAT: 09_time.md, R282. -/
abbrev R.TE_TI_STAT (i : Nat) : Nat := 0x4001038 + 0x100 * i
abbrev F.TE_TI_STAT_SET (i : Nat) : Fld := ⟨0x4001038 + 0x100 * i, 0, 1, 18⟩
abbrev F.TE_TI_STAT_OWNED (i : Nat) : Fld := ⟨0x4001038 + 0x100 * i, 1, 1, 18⟩
abbrev F.TE_TI_STAT_ADJ_CLIPPED (i : Nat) : Fld := ⟨0x4001038 + 0x100 * i, 2, 1, 18⟩
abbrev F.TE_TI_STAT_JUMP_REFUSED (i : Nat) : Fld := ⟨0x4001038 + 0x100 * i, 3, 1, 18⟩
/-- TE_TI_STEPS: 09_time.md, R282. -/
abbrev R.TE_TI_STEPS (i : Nat) : Nat := 0x400103c + 0x100 * i
abbrev F.TE_TI_STEPS_COUNT (i : Nat) : Fld := ⟨0x400103c + 0x100 * i, 0, 32, 18⟩
/-- TE_TI_REFUSED: 09_time.md, R282. -/
abbrev R.TE_TI_REFUSED (i : Nat) : Nat := 0x4001040 + 0x100 * i
abbrev F.TE_TI_REFUSED_COUNT (i : Nat) : Fld := ⟨0x4001040 + 0x100 * i, 0, 32, 18⟩
/-- TE_AS_CFG: 09_time.md, R283. -/
abbrev R.TE_AS_CFG (i : Nat) : Nat := 0x4002000 + 0x40 * i
abbrev F.TE_AS_CFG_AS_EN (i : Nat) : Fld := ⟨0x4002000 + 0x40 * i, 0, 1, 6⟩
abbrev F.TE_AS_CFG_DOMAIN (i : Nat) : Fld := ⟨0x4002000 + 0x40 * i, 1, 7, 6⟩
abbrev F.TE_AS_CFG_GM_CAPABLE (i : Nat) : Fld := ⟨0x4002000 + 0x40 * i, 8, 1, 6⟩
abbrev F.TE_AS_CFG_SYNC_INT (i : Nat) : Fld := ⟨0x4002000 + 0x40 * i, 9, 3, 6⟩
abbrev F.TE_AS_CFG_PRIORITY1 (i : Nat) : Fld := ⟨0x4002000 + 0x40 * i, 16, 8, 6⟩
/-- TE_AS_PORTS_LO: 09_time.md, R283. -/
abbrev R.TE_AS_PORTS_LO (i : Nat) : Nat := 0x4002004 + 0x40 * i
abbrev F.TE_AS_PORTS_LO_PORTS (i : Nat) : Fld := ⟨0x4002004 + 0x40 * i, 0, 24, 6⟩
/-- TE_AS_PORTS_HI: 09_time.md, R283. -/
abbrev R.TE_AS_PORTS_HI (i : Nat) : Nat := 0x4002008 + 0x40 * i
abbrev F.TE_AS_PORTS_HI_P40 (i : Nat) : Fld := ⟨0x4002008 + 0x40 * i, 8, 1, 6⟩
/-- TE_AS_GUARD: 09_time.md, R283. -/
abbrev R.TE_AS_GUARD (i : Nat) : Nat := 0x400200c + 0x40 * i
abbrev F.TE_AS_GUARD_SLEW_MAX (i : Nat) : Fld := ⟨0x400200c + 0x40 * i, 0, 10, 6⟩
abbrev F.TE_AS_GUARD_SETTLE (i : Nat) : Fld := ⟨0x400200c + 0x40 * i, 16, 8, 6⟩
/-- TE_AS_STAT: 09_time.md, R283. -/
abbrev R.TE_AS_STAT (i : Nat) : Nat := 0x4002010 + 0x40 * i
abbrev F.TE_AS_STAT_STATE (i : Nat) : Fld := ⟨0x4002010 + 0x40 * i, 0, 3, 18⟩
/-- TE_AS_OFFSET: 09_time.md, R283. -/
abbrev R.TE_AS_OFFSET (i : Nat) : Nat := 0x4002014 + 0x40 * i
abbrev F.TE_AS_OFFSET_NS (i : Nat) : Fld := ⟨0x4002014 + 0x40 * i, 0, 32, 18⟩
/-- TE_AS_GMID_LO: 09_time.md, R283. -/
abbrev R.TE_AS_GMID_LO (i : Nat) : Nat := 0x4002018 + 0x40 * i
abbrev F.TE_AS_GMID_LO_ID (i : Nat) : Fld := ⟨0x4002018 + 0x40 * i, 0, 32, 18⟩
/-- TE_AS_GMID_HI: 09_time.md, R283. -/
abbrev R.TE_AS_GMID_HI (i : Nat) : Nat := 0x400201c + 0x40 * i
abbrev F.TE_AS_GMID_HI_ID (i : Nat) : Fld := ⟨0x400201c + 0x40 * i, 0, 32, 18⟩
/-- TE_PORT_CFG: 09_time.md, R284. -/
abbrev R.TE_PORT_CFG (i : Nat) : Nat := 0x4004000 + 0x10 * i
abbrev F.TE_PORT_CFG_STAMP_TI (i : Nat) : Fld := ⟨0x4004000 + 0x10 * i, 0, 2, 6⟩
/-- TE_PORT_RXLAT: 09_time.md, R284. -/
abbrev R.TE_PORT_RXLAT (i : Nat) : Nat := 0x4004004 + 0x10 * i
abbrev F.TE_PORT_RXLAT_RX_LAT (i : Nat) : Fld := ⟨0x4004004 + 0x10 * i, 0, 24, 6⟩
/-- TE_PORT_TXLAT: 09_time.md, R284. -/
abbrev R.TE_PORT_TXLAT (i : Nat) : Nat := 0x4004008 + 0x10 * i
abbrev F.TE_PORT_TXLAT_TX_LAT (i : Nat) : Fld := ⟨0x4004008 + 0x10 * i, 0, 24, 6⟩
/-- TE_TSI_CFG: 09_time.md, R285. -/
abbrev R.TE_TSI_CFG (i : Nat) : Nat := 0x4005000 + 0x20 * i
abbrev F.TE_TSI_CFG_TI (i : Nat) : Fld := ⟨0x4005000 + 0x20 * i, 0, 2, 6⟩
abbrev F.TE_TSI_CFG_EDGE (i : Nat) : Fld := ⟨0x4005000 + 0x20 * i, 2, 2, 6⟩
/-- TE_TSI_NS: 09_time.md, R285. -/
abbrev R.TE_TSI_NS (i : Nat) : Nat := 0x4005004 + 0x20 * i
abbrev F.TE_TSI_NS_NS (i : Nat) : Fld := ⟨0x4005004 + 0x20 * i, 0, 30, 18⟩
abbrev F.TE_TSI_NS_VALID (i : Nat) : Fld := ⟨0x4005004 + 0x20 * i, 31, 1, 18⟩
/-- TE_TSI_SEC_LO: 09_time.md, R285. -/
abbrev R.TE_TSI_SEC_LO (i : Nat) : Nat := 0x4005008 + 0x20 * i
abbrev F.TE_TSI_SEC_LO_SEC (i : Nat) : Fld := ⟨0x4005008 + 0x20 * i, 0, 32, 18⟩
/-- TE_TSI_SEC_HI: 09_time.md, R285. -/
abbrev R.TE_TSI_SEC_HI (i : Nat) : Nat := 0x400500c + 0x20 * i
abbrev F.TE_TSI_SEC_HI_SEC (i : Nat) : Fld := ⟨0x400500c + 0x20 * i, 0, 16, 18⟩
abbrev F.TE_TSI_SEC_HI_RISING (i : Nat) : Fld := ⟨0x400500c + 0x20 * i, 16, 1, 18⟩
abbrev F.TE_TSI_SEC_HI_FRAC (i : Nat) : Fld := ⟨0x400500c + 0x20 * i, 24, 8, 18⟩
/-- TE_TSI_LOST: 09_time.md, R285. -/
abbrev R.TE_TSI_LOST (i : Nat) : Nat := 0x4005010 + 0x20 * i
abbrev F.TE_TSI_LOST_COUNT (i : Nat) : Fld := ⟨0x4005010 + 0x20 * i, 0, 32, 18⟩
/-- TE_TSO_CFG: 09_time.md, R286. -/
abbrev R.TE_TSO_CFG (i : Nat) : Nat := 0x4005100 + 0x20 * i
abbrev F.TE_TSO_CFG_TI (i : Nat) : Fld := ⟨0x4005100 + 0x20 * i, 0, 2, 6⟩
abbrev F.TE_TSO_CFG_MODE (i : Nat) : Fld := ⟨0x4005100 + 0x20 * i, 2, 2, 6⟩
abbrev F.TE_TSO_CFG_INVERT (i : Nat) : Fld := ⟨0x4005100 + 0x20 * i, 4, 1, 6⟩
/-- TE_TSO_START_NS: 09_time.md, R286. -/
abbrev R.TE_TSO_START_NS (i : Nat) : Nat := 0x4005104 + 0x20 * i
abbrev F.TE_TSO_START_NS_NS (i : Nat) : Fld := ⟨0x4005104 + 0x20 * i, 0, 30, 6⟩
/-- TE_TSO_START_SEC_LO: 09_time.md, R286. -/
abbrev R.TE_TSO_START_SEC_LO (i : Nat) : Nat := 0x4005108 + 0x20 * i
abbrev F.TE_TSO_START_SEC_LO_SEC (i : Nat) : Fld := ⟨0x4005108 + 0x20 * i, 0, 32, 6⟩
/-- TE_TSO_START_SEC_HI: 09_time.md, R286. -/
abbrev R.TE_TSO_START_SEC_HI (i : Nat) : Nat := 0x400510c + 0x20 * i
abbrev F.TE_TSO_START_SEC_HI_SEC (i : Nat) : Fld := ⟨0x400510c + 0x20 * i, 0, 16, 6⟩
/-- TE_TSO_PERIOD: 09_time.md, R286. -/
abbrev R.TE_TSO_PERIOD (i : Nat) : Nat := 0x4005110 + 0x20 * i
abbrev F.TE_TSO_PERIOD_NS (i : Nat) : Fld := ⟨0x4005110 + 0x20 * i, 0, 30, 6⟩
/-- TE_TSO_WIDTH: 09_time.md, R286. -/
abbrev R.TE_TSO_WIDTH (i : Nat) : Nat := 0x4005114 + 0x20 * i
abbrev F.TE_TSO_WIDTH_NS (i : Nat) : Fld := ⟨0x4005114 + 0x20 * i, 0, 30, 6⟩
/-- TE_TSO_SKIPPED: 09_time.md, R286. -/
abbrev R.TE_TSO_SKIPPED (i : Nat) : Nat := 0x4005118 + 0x20 * i
abbrev F.TE_TSO_SKIPPED_COUNT (i : Nat) : Fld := ⟨0x4005118 + 0x20 * i, 0, 32, 18⟩
/-- TE_FBTC: 09_time.md, R287. -/
abbrev R.TE_FBTC : Nat := 0x4006000
abbrev F.TE_FBTC_COUNT : Fld := ⟨0x4006000, 0, 32, 18⟩
/-- TE_PAIR_CFG: 09_time.md, R287. -/
abbrev R.TE_PAIR_CFG : Nat := 0x4006008
abbrev F.TE_PAIR_CFG_PAIR_TI : Fld := ⟨0x4006008, 0, 2, 6⟩
/-- TE_PAIR_FBTC_LO: 09_time.md, R287. -/
abbrev R.TE_PAIR_FBTC_LO : Nat := 0x4006010
abbrev F.TE_PAIR_FBTC_LO_FBTC : Fld := ⟨0x4006010, 0, 32, 18⟩
/-- TE_PAIR_FBTC_HI: 09_time.md, R287. -/
abbrev R.TE_PAIR_FBTC_HI : Nat := 0x4006014
abbrev F.TE_PAIR_FBTC_HI_FBTC : Fld := ⟨0x4006014, 0, 32, 18⟩
/-- TE_PAIR_NS: 09_time.md, R287. -/
abbrev R.TE_PAIR_NS : Nat := 0x4006018
abbrev F.TE_PAIR_NS_NS : Fld := ⟨0x4006018, 0, 30, 18⟩
/-- TE_PAIR_SEC_LO: 09_time.md, R287. -/
abbrev R.TE_PAIR_SEC_LO : Nat := 0x400601c
abbrev F.TE_PAIR_SEC_LO_SEC : Fld := ⟨0x400601c, 0, 32, 18⟩
/-- TE_PAIR_SEC_HI: 09_time.md, R287. -/
abbrev R.TE_PAIR_SEC_HI : Nat := 0x4006020
abbrev F.TE_PAIR_SEC_HI_SEC : Fld := ⟨0x4006020, 0, 16, 18⟩
abbrev F.TE_PAIR_SEC_HI_FRAC : Fld := ⟨0x4006020, 24, 8, 18⟩
/-- TE_PAIR_CMD: 09_time.md, R287. -/
abbrev R.TE_PAIR_CMD : Nat := 0x4006024
abbrev F.TE_PAIR_CMD_GO : Fld := ⟨0x4006024, 0, 1, 18⟩
/-- TE_EV_LAST: 09_time.md, R287. -/
abbrev R.TE_EV_LAST : Nat := 0x4000100
abbrev F.TE_EV_LAST_TI : Fld := ⟨0x4000100, 0, 2, 18⟩
abbrev F.TE_EV_LAST_PIN : Fld := ⟨0x4000100, 2, 1, 18⟩
/-- BX_CAN_CFG: 10_can_controllers.md, R318. -/
abbrev R.BX_CAN_CFG (i : Nat) : Nat := 0x5100000 + 0x10000 * i
abbrev F.BX_CAN_CFG_EN (i : Nat) : Fld := ⟨0x5100000 + 0x10000 * i, 0, 1, if i < 8 then 7 else 8⟩
abbrev F.BX_CAN_CFG_MODE (i : Nat) : Fld := ⟨0x5100000 + 0x10000 * i, 1, 2, if i < 8 then 7 else 8⟩
abbrev F.BX_CAN_CFG_FD_EN (i : Nat) : Fld := ⟨0x5100000 + 0x10000 * i, 3, 1, if i < 8 then 7 else 8⟩
abbrev F.BX_CAN_CFG_XL_EN (i : Nat) : Fld := ⟨0x5100000 + 0x10000 * i, 4, 1, if i < 8 then 7 else 8⟩
abbrev F.BX_CAN_CFG_PEX_EN (i : Nat) : Fld := ⟨0x5100000 + 0x10000 * i, 5, 1, if i < 8 then 7 else 8⟩
abbrev F.BX_CAN_CFG_ORDER (i : Nat) : Fld := ⟨0x5100000 + 0x10000 * i, 6, 1, if i < 8 then 7 else 8⟩
abbrev F.BX_CAN_CFG_BUSOFF_ABORT_EN (i : Nat) : Fld := ⟨0x5100000 + 0x10000 * i, 7, 1, if i < 8 then 7 else 8⟩
abbrev F.BX_CAN_CFG_RECOV_LIM (i : Nat) : Fld := ⟨0x5100000 + 0x10000 * i, 8, 4, if i < 8 then 7 else 8⟩
/-- BX_CAN_NBT: 10_can_controllers.md, R319. -/
abbrev R.BX_CAN_NBT (i : Nat) : Nat := 0x5100004 + 0x10000 * i
abbrev F.BX_CAN_NBT_BRP (i : Nat) : Fld := ⟨0x5100004 + 0x10000 * i, 0, 8, if i < 8 then 7 else 8⟩
abbrev F.BX_CAN_NBT_TSEG1 (i : Nat) : Fld := ⟨0x5100004 + 0x10000 * i, 8, 8, if i < 8 then 7 else 8⟩
abbrev F.BX_CAN_NBT_TSEG2 (i : Nat) : Fld := ⟨0x5100004 + 0x10000 * i, 16, 7, if i < 8 then 7 else 8⟩
abbrev F.BX_CAN_NBT_SJW (i : Nat) : Fld := ⟨0x5100004 + 0x10000 * i, 24, 7, if i < 8 then 7 else 8⟩
/-- BX_CAN_DBT: 10_can_controllers.md, R319. -/
abbrev R.BX_CAN_DBT (i : Nat) : Nat := 0x5100008 + 0x10000 * i
abbrev F.BX_CAN_DBT_BRP (i : Nat) : Fld := ⟨0x5100008 + 0x10000 * i, 0, 5, if i < 8 then 7 else 8⟩
abbrev F.BX_CAN_DBT_TSEG1 (i : Nat) : Fld := ⟨0x5100008 + 0x10000 * i, 8, 5, if i < 8 then 7 else 8⟩
abbrev F.BX_CAN_DBT_TSEG2 (i : Nat) : Fld := ⟨0x5100008 + 0x10000 * i, 16, 4, if i < 8 then 7 else 8⟩
abbrev F.BX_CAN_DBT_SJW (i : Nat) : Fld := ⟨0x5100008 + 0x10000 * i, 24, 4, if i < 8 then 7 else 8⟩
/-- BX_CAN_XBT: 10_can_controllers.md, R319. -/
abbrev R.BX_CAN_XBT (i : Nat) : Nat := 0x510000c + 0x10000 * i
abbrev F.BX_CAN_XBT_BRP (i : Nat) : Fld := ⟨0x510000c + 0x10000 * i, 0, 5, if i < 8 then 7 else 8⟩
abbrev F.BX_CAN_XBT_TSEG1 (i : Nat) : Fld := ⟨0x510000c + 0x10000 * i, 8, 5, if i < 8 then 7 else 8⟩
abbrev F.BX_CAN_XBT_TSEG2 (i : Nat) : Fld := ⟨0x510000c + 0x10000 * i, 16, 4, if i < 8 then 7 else 8⟩
abbrev F.BX_CAN_XBT_SJW (i : Nat) : Fld := ⟨0x510000c + 0x10000 * i, 24, 4, if i < 8 then 7 else 8⟩
/-- BX_CAN_TDC: 10_can_controllers.md, R319. -/
abbrev R.BX_CAN_TDC (i : Nat) : Nat := 0x5100010 + 0x10000 * i
abbrev F.BX_CAN_TDC_TDC_EN (i : Nat) : Fld := ⟨0x5100010 + 0x10000 * i, 0, 1, if i < 8 then 7 else 8⟩
abbrev F.BX_CAN_TDC_TDCO (i : Nat) : Fld := ⟨0x5100010 + 0x10000 * i, 8, 7, if i < 8 then 7 else 8⟩
abbrev F.BX_CAN_TDC_TDCF (i : Nat) : Fld := ⟨0x5100010 + 0x10000 * i, 16, 7, if i < 8 then 7 else 8⟩
/-- BX_CAN_XLPWM: 10_can_controllers.md, R319. -/
abbrev R.BX_CAN_XLPWM (i : Nat) : Nat := 0x5100014 + 0x10000 * i
abbrev F.BX_CAN_XLPWM_TMS (i : Nat) : Fld := ⟨0x5100014 + 0x10000 * i, 0, 1, if i < 8 then 7 else 8⟩
abbrev F.BX_CAN_XLPWM_PWMS (i : Nat) : Fld := ⟨0x5100014 + 0x10000 * i, 8, 6, if i < 8 then 7 else 8⟩
abbrev F.BX_CAN_XLPWM_PWML (i : Nat) : Fld := ⟨0x5100014 + 0x10000 * i, 16, 6, if i < 8 then 7 else 8⟩
abbrev F.BX_CAN_XLPWM_PWMO (i : Nat) : Fld := ⟨0x5100014 + 0x10000 * i, 24, 6, if i < 8 then 7 else 8⟩
/-- BX_CAN_ABORT: 10_can_controllers.md, R319. -/
abbrev R.BX_CAN_ABORT (i : Nat) : Nat := 0x5100018 + 0x10000 * i
abbrev F.BX_CAN_ABORT_BUSOFF_ABORT_BELOW (i : Nat) : Fld := ⟨0x5100018 + 0x10000 * i, 0, 29, if i < 8 then 7 else 8⟩
/-- BX_CAN_STAT: 10_can_controllers.md, R320. -/
abbrev R.BX_CAN_STAT (i : Nat) : Nat := 0x5100100 + 0x10000 * i
abbrev F.BX_CAN_STAT_STATE (i : Nat) : Fld := ⟨0x5100100 + 0x10000 * i, 0, 3, 18⟩
abbrev F.BX_CAN_STAT_WARN (i : Nat) : Fld := ⟨0x5100100 + 0x10000 * i, 3, 1, 18⟩
abbrev F.BX_CAN_STAT_TIMING_ERR (i : Nat) : Fld := ⟨0x5100100 + 0x10000 * i, 4, 1, 18⟩
abbrev F.BX_CAN_STAT_TDC_SAT (i : Nat) : Fld := ⟨0x5100100 + 0x10000 * i, 5, 1, 18⟩
abbrev F.BX_CAN_STAT_RECOV_WAIT (i : Nat) : Fld := ⟨0x5100100 + 0x10000 * i, 6, 1, 18⟩
abbrev F.BX_CAN_STAT_TEC (i : Nat) : Fld := ⟨0x5100100 + 0x10000 * i, 8, 8, 18⟩
abbrev F.BX_CAN_STAT_REC (i : Nat) : Fld := ⟨0x5100100 + 0x10000 * i, 16, 8, 18⟩
abbrev F.BX_CAN_STAT_BUSOFF_CNT (i : Nat) : Fld := ⟨0x5100100 + 0x10000 * i, 28, 4, 18⟩
/-- BX_CAN_ERR: 10_can_controllers.md, R320. -/
abbrev R.BX_CAN_ERR (i : Nat) : Nat := 0x5100104 + 0x10000 * i
abbrev F.BX_CAN_ERR_LEC (i : Nat) : Fld := ⟨0x5100104 + 0x10000 * i, 0, 3, 18⟩
abbrev F.BX_CAN_ERR_DLEC (i : Nat) : Fld := ⟨0x5100104 + 0x10000 * i, 4, 3, 18⟩
abbrev F.BX_CAN_ERR_TDCV (i : Nat) : Fld := ⟨0x5100104 + 0x10000 * i, 8, 7, 18⟩
/-- BX_CAN_CMD: 10_can_controllers.md, R320. -/
abbrev R.BX_CAN_CMD (i : Nat) : Nat := 0x5100108 + 0x10000 * i
abbrev F.BX_CAN_CMD_RECOVER (i : Nat) : Fld := ⟨0x5100108 + 0x10000 * i, 0, 1, 18⟩
/-- BX_CAN_OBJCFG_W0: 10_can_controllers.md, R321. -/
abbrev R.BX_CAN_OBJCFG_W0 (i j : Nat) : Nat := 0x5101000 + 0x10000 * i + 0x10 * j
abbrev F.BX_CAN_OBJCFG_W0_ID (i j : Nat) : Fld := ⟨0x5101000 + 0x10000 * i + 0x10 * j, 0, 29, if i < 8 then 7 else 8⟩
abbrev F.BX_CAN_OBJCFG_W0_IDE (i j : Nat) : Fld := ⟨0x5101000 + 0x10000 * i + 0x10 * j, 29, 1, if i < 8 then 7 else 8⟩
abbrev F.BX_CAN_OBJCFG_W0_DIR (i j : Nat) : Fld := ⟨0x5101000 + 0x10000 * i + 0x10 * j, 30, 1, if i < 8 then 7 else 8⟩
abbrev F.BX_CAN_OBJCFG_W0_VALID (i j : Nat) : Fld := ⟨0x5101000 + 0x10000 * i + 0x10 * j, 31, 1, if i < 8 then 7 else 8⟩
/-- BX_CAN_OBJCFG_W1: 10_can_controllers.md, R321. -/
abbrev R.BX_CAN_OBJCFG_W1 (i j : Nat) : Nat := 0x5101004 + 0x10000 * i + 0x10 * j
abbrev F.BX_CAN_OBJCFG_W1_MASK (i j : Nat) : Fld := ⟨0x5101004 + 0x10000 * i + 0x10 * j, 0, 29, if i < 8 then 7 else 8⟩
abbrev F.BX_CAN_OBJCFG_W1_IDE_ANY (i j : Nat) : Fld := ⟨0x5101004 + 0x10000 * i + 0x10 * j, 29, 1, if i < 8 then 7 else 8⟩
/-- BX_CAN_OBJCFG_W2: 10_can_controllers.md, R321. -/
abbrev R.BX_CAN_OBJCFG_W2 (i j : Nat) : Nat := 0x5101008 + 0x10000 * i + 0x10 * j
abbrev F.BX_CAN_OBJCFG_W2_BUF (i j : Nat) : Fld := ⟨0x5101008 + 0x10000 * i + 0x10 * j, 0, 10, if i < 8 then 7 else 8⟩
abbrev F.BX_CAN_OBJCFG_W2_NBLK (i j : Nat) : Fld := ⟨0x5101008 + 0x10000 * i + 0x10 * j, 10, 5, if i < 8 then 7 else 8⟩
abbrev F.BX_CAN_OBJCFG_W2_ACCEPT (i j : Nat) : Fld := ⟨0x5101008 + 0x10000 * i + 0x10 * j, 15, 3, if i < 8 then 7 else 8⟩
abbrev F.BX_CAN_OBJCFG_W2_OVERWRITE (i j : Nat) : Fld := ⟨0x5101008 + 0x10000 * i + 0x10 * j, 18, 1, if i < 8 then 7 else 8⟩
abbrev F.BX_CAN_OBJCFG_W2_CHAIN (i j : Nat) : Fld := ⟨0x5101008 + 0x10000 * i + 0x10 * j, 19, 1, if i < 8 then 7 else 8⟩
abbrev F.BX_CAN_OBJCFG_W2_GW (i j : Nat) : Fld := ⟨0x5101008 + 0x10000 * i + 0x10 * j, 20, 1, if i < 8 then 7 else 8⟩
abbrev F.BX_CAN_OBJCFG_W2_EV (i j : Nat) : Fld := ⟨0x5101008 + 0x10000 * i + 0x10 * j, 21, 1, if i < 8 then 7 else 8⟩
abbrev F.BX_CAN_OBJCFG_W2_ONESHOT (i j : Nat) : Fld := ⟨0x5101008 + 0x10000 * i + 0x10 * j, 22, 1, if i < 8 then 7 else 8⟩
/-- BX_CAN_LINK: 10_can_controllers.md, R321. -/
abbrev R.BX_CAN_LINK (i j : Nat) : Nat := 0x5103000 + 0x10000 * i + 4 * j
abbrev F.BX_CAN_LINK_NEXT (i j : Nat) : Fld := ⟨0x5103000 + 0x10000 * i + 4 * j, 0, 10, if i < 8 then 7 else 8⟩
/-- BX_CAN_OBJ_W0: 10_can_controllers.md, R322. -/
abbrev R.BX_CAN_OBJ_W0 (i j : Nat) : Nat := 0x5102000 + 0x10000 * i + 0x20 * j
abbrev F.BX_CAN_OBJ_W0_STATUS (i j : Nat) : Fld := ⟨0x5102000 + 0x10000 * i + 0x20 * j, 0, 4, 18⟩
abbrev F.BX_CAN_OBJ_W0_OVR (i j : Nat) : Fld := ⟨0x5102000 + 0x10000 * i + 0x20 * j, 4, 1, 18⟩
abbrev F.BX_CAN_OBJ_W0_CANCEL_REQ (i j : Nat) : Fld := ⟨0x5102000 + 0x10000 * i + 0x20 * j, 5, 1, 18⟩
abbrev F.BX_CAN_OBJ_W0_SEQ (i j : Nat) : Fld := ⟨0x5102000 + 0x10000 * i + 0x20 * j, 8, 8, 18⟩
/-- BX_CAN_OBJ_W1: 10_can_controllers.md, R322. -/
abbrev R.BX_CAN_OBJ_W1 (i j : Nat) : Nat := 0x5102004 + 0x10000 * i + 0x20 * j
abbrev F.BX_CAN_OBJ_W1_ID (i j : Nat) : Fld := ⟨0x5102004 + 0x10000 * i + 0x20 * j, 0, 29, 18⟩
abbrev F.BX_CAN_OBJ_W1_IDE (i j : Nat) : Fld := ⟨0x5102004 + 0x10000 * i + 0x20 * j, 29, 1, 18⟩
abbrev F.BX_CAN_OBJ_W1_RTR (i j : Nat) : Fld := ⟨0x5102004 + 0x10000 * i + 0x20 * j, 30, 1, 18⟩
/-- BX_CAN_OBJ_W2: 10_can_controllers.md, R322. -/
abbrev R.BX_CAN_OBJ_W2 (i j : Nat) : Nat := 0x5102008 + 0x10000 * i + 0x20 * j
abbrev F.BX_CAN_OBJ_W2_FORMAT (i j : Nat) : Fld := ⟨0x5102008 + 0x10000 * i + 0x20 * j, 0, 2, 18⟩
abbrev F.BX_CAN_OBJ_W2_BRS (i j : Nat) : Fld := ⟨0x5102008 + 0x10000 * i + 0x20 * j, 2, 1, 18⟩
abbrev F.BX_CAN_OBJ_W2_ESI (i j : Nat) : Fld := ⟨0x5102008 + 0x10000 * i + 0x20 * j, 3, 1, 18⟩
abbrev F.BX_CAN_OBJ_W2_DLC (i j : Nat) : Fld := ⟨0x5102008 + 0x10000 * i + 0x20 * j, 4, 4, 18⟩
abbrev F.BX_CAN_OBJ_W2_XLLEN (i j : Nat) : Fld := ⟨0x5102008 + 0x10000 * i + 0x20 * j, 8, 11, 18⟩
/-- BX_CAN_OBJ_W3: 10_can_controllers.md, R322. -/
abbrev R.BX_CAN_OBJ_W3 (i j : Nat) : Nat := 0x510200c + 0x10000 * i + 0x20 * j
abbrev F.BX_CAN_OBJ_W3_SDT (i j : Nat) : Fld := ⟨0x510200c + 0x10000 * i + 0x20 * j, 0, 8, 18⟩
abbrev F.BX_CAN_OBJ_W3_VCID (i j : Nat) : Fld := ⟨0x510200c + 0x10000 * i + 0x20 * j, 8, 8, 18⟩
abbrev F.BX_CAN_OBJ_W3_SEC (i j : Nat) : Fld := ⟨0x510200c + 0x10000 * i + 0x20 * j, 16, 1, 18⟩
abbrev F.BX_CAN_OBJ_W3_LEN (i j : Nat) : Fld := ⟨0x510200c + 0x10000 * i + 0x20 * j, 20, 12, 18⟩
/-- BX_CAN_OBJ_W4: 10_can_controllers.md, R322. -/
abbrev R.BX_CAN_OBJ_W4 (i j : Nat) : Nat := 0x5102010 + 0x10000 * i + 0x20 * j
abbrev F.BX_CAN_OBJ_W4_AF (i j : Nat) : Fld := ⟨0x5102010 + 0x10000 * i + 0x20 * j, 0, 32, 18⟩
/-- BX_CAN_OBJ_W5: 10_can_controllers.md, R322. -/
abbrev R.BX_CAN_OBJ_W5 (i j : Nat) : Nat := 0x5102014 + 0x10000 * i + 0x20 * j
abbrev F.BX_CAN_OBJ_W5_STAMP (i j : Nat) : Fld := ⟨0x5102014 + 0x10000 * i + 0x20 * j, 0, 32, 18⟩
/-- BX_CAN_OBJ_W6: 10_can_controllers.md, R322. -/
abbrev R.BX_CAN_OBJ_W6 (i j : Nat) : Nat := 0x5102018 + 0x10000 * i + 0x20 * j
abbrev F.BX_CAN_OBJ_W6_STAMP (i j : Nat) : Fld := ⟨0x5102018 + 0x10000 * i + 0x20 * j, 0, 32, 18⟩
/-- BX_CAN_RAM: 10_can_controllers.md, R322. -/
abbrev R.BX_CAN_RAM (i j : Nat) : Nat := 0x5104000 + 0x10000 * i + 4 * j
abbrev F.BX_CAN_RAM_DATA (i j : Nat) : Fld := ⟨0x5104000 + 0x10000 * i + 4 * j, 0, 32, 18⟩
/-- BX_CAN_TXREQ: 10_can_controllers.md, R323. -/
abbrev R.BX_CAN_TXREQ (i j : Nat) : Nat := 0x5100300 + 0x10000 * i + 4 * j
abbrev F.BX_CAN_TXREQ_REQ (i j : Nat) : Fld := ⟨0x5100300 + 0x10000 * i + 4 * j, 0, 32, 18⟩
/-- BX_CAN_TXCAN: 10_can_controllers.md, R323. -/
abbrev R.BX_CAN_TXCAN (i j : Nat) : Nat := 0x5100310 + 0x10000 * i + 4 * j
abbrev F.BX_CAN_TXCAN_CANCEL (i j : Nat) : Fld := ⟨0x5100310 + 0x10000 * i + 4 * j, 0, 32, 18⟩
/-- BX_CAN_RXACK: 10_can_controllers.md, R323. -/
abbrev R.BX_CAN_RXACK (i j : Nat) : Nat := 0x5100320 + 0x10000 * i + 4 * j
abbrev F.BX_CAN_RXACK_ACK (i j : Nat) : Fld := ⟨0x5100320 + 0x10000 * i + 4 * j, 0, 32, 18⟩
/-- BX_CAN_PEND: 10_can_controllers.md, R323. -/
abbrev R.BX_CAN_PEND (i j : Nat) : Nat := 0x5100330 + 0x10000 * i + 4 * j
abbrev F.BX_CAN_PEND_PEND (i j : Nat) : Fld := ⟨0x5100330 + 0x10000 * i + 4 * j, 0, 32, 18⟩
/-- BX_CAN_RXF: 10_can_controllers.md, R323. -/
abbrev R.BX_CAN_RXF (i j : Nat) : Nat := 0x5100340 + 0x10000 * i + 4 * j
abbrev F.BX_CAN_RXF_FULL (i j : Nat) : Fld := ⟨0x5100340 + 0x10000 * i + 4 * j, 0, 32, 18⟩
/-- BX_CAN_DONE: 10_can_controllers.md, R323. -/
abbrev R.BX_CAN_DONE (i j : Nat) : Nat := 0x5100350 + 0x10000 * i + 4 * j
abbrev F.BX_CAN_DONE_DONE (i j : Nat) : Fld := ⟨0x5100350 + 0x10000 * i + 4 * j, 0, 32, 18⟩
/-- BX_CAN_TX_FRAMES: 10_can_controllers.md, R324. -/
abbrev R.BX_CAN_TX_FRAMES (i : Nat) : Nat := 0x5100200 + 0x10000 * i
abbrev F.BX_CAN_TX_FRAMES_COUNT (i : Nat) : Fld := ⟨0x5100200 + 0x10000 * i, 0, 32, 18⟩
/-- BX_CAN_RX_FRAMES: 10_can_controllers.md, R324. -/
abbrev R.BX_CAN_RX_FRAMES (i : Nat) : Nat := 0x5100204 + 0x10000 * i
abbrev F.BX_CAN_RX_FRAMES_COUNT (i : Nat) : Fld := ⟨0x5100204 + 0x10000 * i, 0, 32, 18⟩
/-- BX_CAN_RX_NOMATCH: 10_can_controllers.md, R324. -/
abbrev R.BX_CAN_RX_NOMATCH (i : Nat) : Nat := 0x5100208 + 0x10000 * i
abbrev F.BX_CAN_RX_NOMATCH_COUNT (i : Nat) : Fld := ⟨0x5100208 + 0x10000 * i, 0, 32, 18⟩
/-- BX_CAN_RX_OVERRUN: 10_can_controllers.md, R324. -/
abbrev R.BX_CAN_RX_OVERRUN (i : Nat) : Nat := 0x510020c + 0x10000 * i
abbrev F.BX_CAN_RX_OVERRUN_COUNT (i : Nat) : Fld := ⟨0x510020c + 0x10000 * i, 0, 32, 18⟩
/-- BX_CAN_ARB_LOST: 10_can_controllers.md, R324. -/
abbrev R.BX_CAN_ARB_LOST (i : Nat) : Nat := 0x5100210 + 0x10000 * i
abbrev F.BX_CAN_ARB_LOST_COUNT (i : Nat) : Fld := ⟨0x5100210 + 0x10000 * i, 0, 32, 18⟩
/-- BX_CAN_ERR_FRAMES: 10_can_controllers.md, R324. -/
abbrev R.BX_CAN_ERR_FRAMES (i : Nat) : Nat := 0x5100214 + 0x10000 * i
abbrev F.BX_CAN_ERR_FRAMES_COUNT (i : Nat) : Fld := ⟨0x5100214 + 0x10000 * i, 0, 32, 18⟩
/-- BX_CAN_PEXC: 10_can_controllers.md, R324. -/
abbrev R.BX_CAN_PEXC (i : Nat) : Nat := 0x5100218 + 0x10000 * i
abbrev F.BX_CAN_PEXC_COUNT (i : Nat) : Fld := ⟨0x5100218 + 0x10000 * i, 0, 32, 18⟩
/-- BX_CAN_ECC_CE: 10_can_controllers.md, R324. -/
abbrev R.BX_CAN_ECC_CE (i : Nat) : Nat := 0x510021c + 0x10000 * i
abbrev F.BX_CAN_ECC_CE_COUNT (i : Nat) : Fld := ⟨0x510021c + 0x10000 * i, 0, 32, 18⟩
/-- BX_CAN_ECC_UE: 10_can_controllers.md, R324. -/
abbrev R.BX_CAN_ECC_UE (i : Nat) : Nat := 0x5100220 + 0x10000 * i
abbrev F.BX_CAN_ECC_UE_COUNT (i : Nat) : Fld := ⟨0x5100220 + 0x10000 * i, 0, 32, 18⟩
/-- BX_CAN_EVCTL: 10_can_controllers.md, R325. -/
abbrev R.BX_CAN_EVCTL (i : Nat) : Nat := 0x5000100 + 4 * i
abbrev F.BX_CAN_EVCTL_CTL (i : Nat) : Fld := ⟨0x5000100 + 4 * i, 0, 16, 18⟩
/-- BX_GW_CFG: 11_bus_gateway.md, R344. -/
abbrev R.BX_GW_CFG : Nat := 0x5400000
abbrev F.BX_GW_CFG_EN : Fld := ⟨0x5400000, 0, 1, 9⟩
abbrev F.BX_GW_CFG_TI_SEL : Fld := ⟨0x5400000, 1, 2, 9⟩
/-- BX_GW_MAC_LO: 11_bus_gateway.md, R344. -/
abbrev R.BX_GW_MAC_LO : Nat := 0x5400004
abbrev F.BX_GW_MAC_LO_MAC : Fld := ⟨0x5400004, 0, 32, 9⟩
/-- BX_GW_MAC_HI: 11_bus_gateway.md, R344. -/
abbrev R.BX_GW_MAC_HI : Nat := 0x5400008
abbrev F.BX_GW_MAC_HI_MAC : Fld := ⟨0x5400008, 0, 16, 9⟩
/-- BX_GW_DOWNMAP: 11_bus_gateway.md, R344. -/
abbrev R.BX_GW_DOWNMAP : Nat := 0x540000c
abbrev F.BX_GW_DOWNMAP_MAP : Fld := ⟨0x540000c, 0, 32, 9⟩
/-- BX_PQ_CFG: 11_bus_gateway.md, R344. -/
abbrev R.BX_PQ_CFG (i : Nat) : Nat := 0x5400100 + 4 * i
abbrev F.BX_PQ_CFG_EN (i : Nat) : Fld := ⟨0x5400100 + 4 * i, 0, 1, 9⟩
abbrev F.BX_PQ_CFG_DIR (i : Nat) : Fld := ⟨0x5400100 + 4 * i, 1, 1, 9⟩
/-- BX_PQ_CMD: 11_bus_gateway.md, R344. -/
abbrev R.BX_PQ_CMD : Nat := 0x5400300
abbrev F.BX_PQ_CMD_Q : Fld := ⟨0x5400300, 0, 4, 18⟩
abbrev F.BX_PQ_CMD_RESET : Fld := ⟨0x5400300, 8, 1, 18⟩
/-- BX_GW_ROUTE_W0: 11_bus_gateway.md, R345. -/
abbrev R.BX_GW_ROUTE_W0 (i : Nat) : Nat := 0x5410000 + 0x20 * i
abbrev F.BX_GW_ROUTE_W0_ID (i : Nat) : Fld := ⟨0x5410000 + 0x20 * i, 0, 29, 9⟩
abbrev F.BX_GW_ROUTE_W0_IDE (i : Nat) : Fld := ⟨0x5410000 + 0x20 * i, 29, 1, 9⟩
abbrev F.BX_GW_ROUTE_W0_DIR (i : Nat) : Fld := ⟨0x5410000 + 0x20 * i, 30, 1, 9⟩
abbrev F.BX_GW_ROUTE_W0_VALID (i : Nat) : Fld := ⟨0x5410000 + 0x20 * i, 31, 1, 9⟩
/-- BX_GW_ROUTE_W1: 11_bus_gateway.md, R345. -/
abbrev R.BX_GW_ROUTE_W1 (i : Nat) : Nat := 0x5410004 + 0x20 * i
abbrev F.BX_GW_ROUTE_W1_MASK (i : Nat) : Fld := ⟨0x5410004 + 0x20 * i, 0, 29, 9⟩
/-- BX_GW_ROUTE_W2: 11_bus_gateway.md, R345. -/
abbrev R.BX_GW_ROUTE_W2 (i : Nat) : Nat := 0x5410008 + 0x20 * i
abbrev F.BX_GW_ROUTE_W2_CTRL (i : Nat) : Fld := ⟨0x5410008 + 0x20 * i, 0, 4, 9⟩
abbrev F.BX_GW_ROUTE_W2_OBJ (i : Nat) : Fld := ⟨0x5410008 + 0x20 * i, 4, 7, 9⟩
abbrev F.BX_GW_ROUTE_W2_KIND (i : Nat) : Fld := ⟨0x5410008 + 0x20 * i, 11, 2, 9⟩
abbrev F.BX_GW_ROUTE_W2_TMPL (i : Nat) : Fld := ⟨0x5410008 + 0x20 * i, 13, 8, 9⟩
abbrev F.BX_GW_ROUTE_W2_REPLACE (i : Nat) : Fld := ⟨0x5410008 + 0x20 * i, 21, 1, 9⟩
/-- BX_GW_ROUTE_W3: 11_bus_gateway.md, R345. -/
abbrev R.BX_GW_ROUTE_W3 (i : Nat) : Nat := 0x541000c + 0x20 * i
abbrev F.BX_GW_ROUTE_W3_HOLD (i : Nat) : Fld := ⟨0x541000c + 0x20 * i, 0, 16, 9⟩
/-- BX_GW_ROUTE_W4: 11_bus_gateway.md, R345. -/
abbrev R.BX_GW_ROUTE_W4 (i : Nat) : Nat := 0x5410010 + 0x20 * i
abbrev F.BX_GW_ROUTE_W4_SIG_FIRST (i : Nat) : Fld := ⟨0x5410010 + 0x20 * i, 0, 13, 9⟩
abbrev F.BX_GW_ROUTE_W4_SIG_COUNT (i : Nat) : Fld := ⟨0x5410010 + 0x20 * i, 13, 6, 9⟩
/-- BX_GW_ROUTE_W5: 11_bus_gateway.md, R345. -/
abbrev R.BX_GW_ROUTE_W5 (i : Nat) : Nat := 0x5410014 + 0x20 * i
abbrev F.BX_GW_ROUTE_W5_PDU_ID (i : Nat) : Fld := ⟨0x5410014 + 0x20 * i, 0, 16, 9⟩
abbrev F.BX_GW_ROUTE_W5_PDU_LEN (i : Nat) : Fld := ⟨0x5410014 + 0x20 * i, 16, 12, 9⟩
/-- BX_GW_ROUTE_W6: 11_bus_gateway.md, R345. -/
abbrev R.BX_GW_ROUTE_W6 (i : Nat) : Nat := 0x5410018 + 0x20 * i
abbrev F.BX_GW_ROUTE_W6_SEAL_CTX (i : Nat) : Fld := ⟨0x5410018 + 0x20 * i, 0, 12, 9⟩
abbrev F.BX_GW_ROUTE_W6_SEAL (i : Nat) : Fld := ⟨0x5410018 + 0x20 * i, 12, 1, 9⟩
/-- BX_GW_ROUTE_W7: 11_bus_gateway.md, R345. -/
abbrev R.BX_GW_ROUTE_W7 (i : Nat) : Nat := 0x541001c + 0x20 * i
abbrev F.BX_GW_ROUTE_W7_COPY_CTRL (i : Nat) : Fld := ⟨0x541001c + 0x20 * i, 0, 4, 9⟩
abbrev F.BX_GW_ROUTE_W7_COPY_OBJ (i : Nat) : Fld := ⟨0x541001c + 0x20 * i, 4, 7, 9⟩
abbrev F.BX_GW_ROUTE_W7_COPY_EN (i : Nat) : Fld := ⟨0x541001c + 0x20 * i, 11, 1, 9⟩
/-- BX_GW_SIGNAL_W0: 11_bus_gateway.md, R345. -/
abbrev R.BX_GW_SIGNAL_W0 (i : Nat) : Nat := 0x5440000 + 8 * i
abbrev F.BX_GW_SIGNAL_W0_SRC_START (i : Nat) : Fld := ⟨0x5440000 + 8 * i, 0, 14, 9⟩
abbrev F.BX_GW_SIGNAL_W0_DST_START (i : Nat) : Fld := ⟨0x5440000 + 8 * i, 14, 16, 9⟩
/-- BX_GW_SIGNAL_W1: 11_bus_gateway.md, R345. -/
abbrev R.BX_GW_SIGNAL_W1 (i : Nat) : Nat := 0x5440004 + 8 * i
abbrev F.BX_GW_SIGNAL_W1_LEN (i : Nat) : Fld := ⟨0x5440004 + 8 * i, 0, 6, 9⟩
abbrev F.BX_GW_SIGNAL_W1_ORDER (i : Nat) : Fld := ⟨0x5440004 + 8 * i, 6, 1, 9⟩
/-- BX_GW_TMPL_W0: 11_bus_gateway.md, R345. -/
abbrev R.BX_GW_TMPL_W0 (i : Nat) : Nat := 0x5460000 + 0x20 * i
abbrev F.BX_GW_TMPL_W0_DMAC (i : Nat) : Fld := ⟨0x5460000 + 0x20 * i, 0, 32, 9⟩
/-- BX_GW_TMPL_W1: 11_bus_gateway.md, R345. -/
abbrev R.BX_GW_TMPL_W1 (i : Nat) : Nat := 0x5460004 + 0x20 * i
abbrev F.BX_GW_TMPL_W1_DMAC (i : Nat) : Fld := ⟨0x5460004 + 0x20 * i, 0, 16, 9⟩
abbrev F.BX_GW_TMPL_W1_VID (i : Nat) : Fld := ⟨0x5460004 + 0x20 * i, 16, 12, 9⟩
abbrev F.BX_GW_TMPL_W1_PCP (i : Nat) : Fld := ⟨0x5460004 + 0x20 * i, 28, 3, 9⟩
/-- BX_GW_TMPL_W2: 11_bus_gateway.md, R345. -/
abbrev R.BX_GW_TMPL_W2 (i : Nat) : Nat := 0x5460008 + 0x20 * i
abbrev F.BX_GW_TMPL_W2_FORMAT (i : Nat) : Fld := ⟨0x5460008 + 0x20 * i, 0, 2, 9⟩
abbrev F.BX_GW_TMPL_W2_PQ (i : Nat) : Fld := ⟨0x5460008 + 0x20 * i, 2, 4, 9⟩
abbrev F.BX_GW_TMPL_W2_MAXMSG (i : Nat) : Fld := ⟨0x5460008 + 0x20 * i, 8, 8, 9⟩
abbrev F.BX_GW_TMPL_W2_ETYPE (i : Nat) : Fld := ⟨0x5460008 + 0x20 * i, 16, 16, 9⟩
/-- BX_GW_TMPL_W3: 11_bus_gateway.md, R345. -/
abbrev R.BX_GW_TMPL_W3 (i : Nat) : Nat := 0x546000c + 0x20 * i
abbrev F.BX_GW_TMPL_W3_STREAM_ID (i : Nat) : Fld := ⟨0x546000c + 0x20 * i, 0, 32, 9⟩
/-- BX_GW_TMPL_W4: 11_bus_gateway.md, R345. -/
abbrev R.BX_GW_TMPL_W4 (i : Nat) : Nat := 0x5460010 + 0x20 * i
abbrev F.BX_GW_TMPL_W4_STREAM_ID (i : Nat) : Fld := ⟨0x5460010 + 0x20 * i, 0, 32, 9⟩
/-- BX_GW_TMPL_W5: 11_bus_gateway.md, R345. -/
abbrev R.BX_GW_TMPL_W5 (i : Nat) : Nat := 0x5460014 + 0x20 * i
abbrev F.BX_GW_TMPL_W5_MAXLEN (i : Nat) : Fld := ⟨0x5460014 + 0x20 * i, 0, 14, 9⟩
/-- BX_PQ_STAT: 11_bus_gateway.md, R346. -/
abbrev R.BX_PQ_STAT (i : Nat) : Nat := 0x5400200 + 4 * i
abbrev F.BX_PQ_STAT_USED (i : Nat) : Fld := ⟨0x5400200 + 4 * i, 0, 9, 18⟩
abbrev F.BX_PQ_STAT_PKTS (i : Nat) : Fld := ⟨0x5400200 + 4 * i, 9, 8, 18⟩
abbrev F.BX_PQ_STAT_OPEN (i : Nat) : Fld := ⟨0x5400200 + 4 * i, 17, 1, 18⟩
/-- BX_PQ_PKTS: 11_bus_gateway.md, R346. -/
abbrev R.BX_PQ_PKTS (i : Nat) : Nat := 0x5401000 + 0x20 * i
abbrev F.BX_PQ_PKTS_COUNT (i : Nat) : Fld := ⟨0x5401000 + 0x20 * i, 0, 32, 18⟩
/-- BX_PQ_REWOUND: 11_bus_gateway.md, R346. -/
abbrev R.BX_PQ_REWOUND (i : Nat) : Nat := 0x5401004 + 0x20 * i
abbrev F.BX_PQ_REWOUND_COUNT (i : Nat) : Fld := ⟨0x5401004 + 0x20 * i, 0, 32, 18⟩
/-- BX_PQ_DROP_FULL: 11_bus_gateway.md, R346. -/
abbrev R.BX_PQ_DROP_FULL (i : Nat) : Nat := 0x5401008 + 0x20 * i
abbrev F.BX_PQ_DROP_FULL_COUNT (i : Nat) : Fld := ⟨0x5401008 + 0x20 * i, 0, 32, 18⟩
/-- BX_PQ_DROP_BIG: 11_bus_gateway.md, R346. -/
abbrev R.BX_PQ_DROP_BIG (i : Nat) : Nat := 0x540100c + 0x20 * i
abbrev F.BX_PQ_DROP_BIG_COUNT (i : Nat) : Fld := ⟨0x540100c + 0x20 * i, 0, 32, 18⟩
/-- BX_PQ_CE: 11_bus_gateway.md, R346. -/
abbrev R.BX_PQ_CE (i : Nat) : Nat := 0x5401010 + 0x20 * i
abbrev F.BX_PQ_CE_COUNT (i : Nat) : Fld := ⟨0x5401010 + 0x20 * i, 0, 32, 18⟩
/-- BX_PQ_UE: 11_bus_gateway.md, R346. -/
abbrev R.BX_PQ_UE (i : Nat) : Nat := 0x5401014 + 0x20 * i
abbrev F.BX_PQ_UE_COUNT (i : Nat) : Fld := ⟨0x5401014 + 0x20 * i, 0, 32, 18⟩
/-- BX_PQ_EMPTY_READS: 11_bus_gateway.md, R346. -/
abbrev R.BX_PQ_EMPTY_READS (i : Nat) : Nat := 0x5401018 + 0x20 * i
abbrev F.BX_PQ_EMPTY_READS_COUNT (i : Nat) : Fld := ⟨0x5401018 + 0x20 * i, 0, 32, 18⟩
/-- BX_GW_UP_FRAMES: 11_bus_gateway.md, R346. -/
abbrev R.BX_GW_UP_FRAMES : Nat := 0x5400400
abbrev F.BX_GW_UP_FRAMES_COUNT : Fld := ⟨0x5400400, 0, 32, 18⟩
/-- BX_GW_UP_NOROUTE: 11_bus_gateway.md, R346. -/
abbrev R.BX_GW_UP_NOROUTE : Nat := 0x5400404
abbrev F.BX_GW_UP_NOROUTE_COUNT : Fld := ⟨0x5400404, 0, 32, 18⟩
/-- BX_GW_DOWN_MSGS: 11_bus_gateway.md, R346. -/
abbrev R.BX_GW_DOWN_MSGS : Nat := 0x5400408
abbrev F.BX_GW_DOWN_MSGS_COUNT : Fld := ⟨0x5400408, 0, 32, 18⟩
/-- BX_GW_DOWN_NOROUTE: 11_bus_gateway.md, R346. -/
abbrev R.BX_GW_DOWN_NOROUTE : Nat := 0x540040c
abbrev F.BX_GW_DOWN_NOROUTE_COUNT : Fld := ⟨0x540040c, 0, 32, 18⟩
/-- BX_GW_TX_BUSY: 11_bus_gateway.md, R346. -/
abbrev R.BX_GW_TX_BUSY : Nat := 0x5400410
abbrev F.BX_GW_TX_BUSY_COUNT : Fld := ⟨0x5400410, 0, 32, 18⟩
/-- BX_GW_BAD_ACF: 11_bus_gateway.md, R346. -/
abbrev R.BX_GW_BAD_ACF : Nat := 0x5400414
abbrev F.BX_GW_BAD_ACF_COUNT : Fld := ⟨0x5400414, 0, 32, 18⟩
/-- BX_GW_SIG_SHORT: 11_bus_gateway.md, R346. -/
abbrev R.BX_GW_SIG_SHORT : Nat := 0x5400418
abbrev F.BX_GW_SIG_SHORT_COUNT : Fld := ⟨0x5400418, 0, 32, 18⟩
/-- BX_GW_SEAL_BAD: 11_bus_gateway.md, R346. -/
abbrev R.BX_GW_SEAL_BAD : Nat := 0x540041c
abbrev F.BX_GW_SEAL_BAD_COUNT : Fld := ⟨0x540041c, 0, 32, 18⟩
/-- BX_GW_SEAL_NOCTX: 11_bus_gateway.md, R346. -/
abbrev R.BX_GW_SEAL_NOCTX : Nat := 0x5400420
abbrev F.BX_GW_SEAL_NOCTX_COUNT : Fld := ⟨0x5400420, 0, 32, 18⟩
/-- BX_GW_ECC_DROP: 11_bus_gateway.md, R346. -/
abbrev R.BX_GW_ECC_DROP : Nat := 0x5400424
abbrev F.BX_GW_ECC_DROP_COUNT : Fld := ⟨0x5400424, 0, 32, 18⟩
/-- BX_GW_COPIES: 11_bus_gateway.md, R346. -/
abbrev R.BX_GW_COPIES : Nat := 0x5400428
abbrev F.BX_GW_COPIES_COUNT : Fld := ⟨0x5400428, 0, 32, 18⟩
/-- BX_GW_HITS: 11_bus_gateway.md, R346. -/
abbrev R.BX_GW_HITS (i : Nat) : Nat := 0x5480000 + 4 * i
abbrev F.BX_GW_HITS_COUNT (i : Nat) : Fld := ⟨0x5480000 + 4 * i, 0, 32, 18⟩
/-- BX_GW_EV_LAST: 11_bus_gateway.md, R346. -/
abbrev R.BX_GW_EV_LAST : Nat := 0x5400500
abbrev F.BX_GW_EV_LAST_PQ : Fld := ⟨0x5400500, 0, 4, 18⟩
abbrev F.BX_GW_EV_LAST_ROUTE : Fld := ⟨0x5400500, 16, 12, 18⟩
/-- KX_CMD: 12_keys_lifecycle.md, R373. -/
abbrev R.KX_CMD (i : Nat) : Nat := 0x6000400 + 0x80 * i
abbrev F.KX_CMD_OP (i : Nat) : Fld := ⟨0x6000400 + 0x80 * i, 0, 4, 18⟩
abbrev F.KX_CMD_NODE (i : Nat) : Fld := ⟨0x6000400 + 0x80 * i, 8, 10, 18⟩
abbrev F.KX_CMD_ARG (i : Nat) : Fld := ⟨0x6000400 + 0x80 * i, 20, 3, 18⟩
/-- KX_RESULT: 12_keys_lifecycle.md, R373. -/
abbrev R.KX_RESULT (i : Nat) : Nat := 0x6000404 + 0x80 * i
abbrev F.KX_RESULT_PENDING (i : Nat) : Fld := ⟨0x6000404 + 0x80 * i, 0, 1, 18⟩
abbrev F.KX_RESULT_CODE (i : Nat) : Fld := ⟨0x6000404 + 0x80 * i, 1, 5, 18⟩
abbrev F.KX_RESULT_NODE (i : Nat) : Fld := ⟨0x6000404 + 0x80 * i, 16, 10, 18⟩
/-- KX_DATA: 12_keys_lifecycle.md, R373. -/
abbrev R.KX_DATA (i j : Nat) : Nat := 0x6000440 + 0x80 * i + 4 * j
abbrev F.KX_DATA_DATA (i j : Nat) : Fld := ⟨0x6000440 + 0x80 * i + 4 * j, 0, 32, 18⟩
/-- KX_STAT: 12_keys_lifecycle.md, R376. -/
abbrev R.KX_STAT : Nat := 0x6000000
abbrev F.KX_STAT_LC : Fld := ⟨0x6000000, 0, 3, 18⟩
abbrev F.KX_STAT_LC_NEXT : Fld := ⟨0x6000000, 4, 3, 18⟩
abbrev F.KX_STAT_ROOTS_UP : Fld := ⟨0x6000000, 7, 1, 18⟩
abbrev F.KX_STAT_KEYS_DOWN : Fld := ⟨0x6000000, 8, 1, 18⟩
abbrev F.KX_STAT_LOCKED : Fld := ⟨0x6000000, 9, 1, 18⟩
abbrev F.KX_STAT_DOWN_CAUSE : Fld := ⟨0x6000000, 10, 3, 18⟩
abbrev F.KX_STAT_TRNG_FAIL : Fld := ⟨0x6000000, 13, 1, 18⟩
abbrev F.KX_STAT_ERR_RATE : Fld := ⟨0x6000000, 16, 8, 18⟩
abbrev F.KX_STAT_TOGGLES_LEFT : Fld := ⟨0x6000000, 24, 5, 18⟩
/-- KX_TAMPER_CFG: 12_keys_lifecycle.md, R377. -/
abbrev R.KX_TAMPER_CFG : Nat := 0x6000100
abbrev F.KX_TAMPER_CFG_IN0 : Fld := ⟨0x6000100, 0, 2, 10⟩
abbrev F.KX_TAMPER_CFG_IN1 : Fld := ⟨0x6000100, 2, 2, 10⟩
abbrev F.KX_TAMPER_CFG_MESH : Fld := ⟨0x6000100, 4, 2, 10⟩
abbrev F.KX_TAMPER_CFG_VOLT : Fld := ⟨0x6000100, 6, 2, 10⟩
abbrev F.KX_TAMPER_CFG_CLK : Fld := ⟨0x6000100, 8, 2, 10⟩
abbrev F.KX_TAMPER_CFG_TEMP : Fld := ⟨0x6000100, 10, 2, 10⟩
abbrev F.KX_TAMPER_CFG_IN0_QUIET : Fld := ⟨0x6000100, 12, 1, 10⟩
abbrev F.KX_TAMPER_CFG_IN1_QUIET : Fld := ⟨0x6000100, 13, 1, 10⟩
abbrev F.KX_TAMPER_CFG_IN_FILTER : Fld := ⟨0x6000100, 16, 8, 10⟩
/-- KX_AGENT_CFG: 12_keys_lifecycle.md, R377. -/
abbrev R.KX_AGENT_CFG : Nat := 0x6000110
abbrev F.KX_AGENT_CFG_AGENTS : Fld := ⟨0x6000110, 0, 9, 10⟩
/-- KX_FLEET_CFG: 12_keys_lifecycle.md, R377. -/
abbrev R.KX_FLEET_CFG : Nat := 0x6000114
abbrev F.KX_FLEET_CFG_PARENT : Fld := ⟨0x6000114, 0, 10, 10⟩
abbrev F.KX_FLEET_CFG_BLOB_SECTOR : Fld := ⟨0x6000114, 16, 16, 10⟩
/-- KX_NODE_W0: 12_keys_lifecycle.md, R378. -/
abbrev R.KX_NODE_W0 (i : Nat) : Nat := 0x6100000 + 0x40 * i
abbrev F.KX_NODE_W0_PARENT (i : Nat) : Fld := ⟨0x6100000 + 0x40 * i, 0, 10, 10⟩
abbrev F.KX_NODE_W0_KIND (i : Nat) : Fld := ⟨0x6100000 + 0x40 * i, 10, 2, 10⟩
abbrev F.KX_NODE_W0_KDF_8021X (i : Nat) : Fld := ⟨0x6100000 + 0x40 * i, 12, 1, 10⟩
abbrev F.KX_NODE_W0_VALID (i : Nat) : Fld := ⟨0x6100000 + 0x40 * i, 31, 1, 10⟩
/-- KX_NODE_W1: 12_keys_lifecycle.md, R378. -/
abbrev R.KX_NODE_W1 (i : Nat) : Nat := 0x6100004 + 0x40 * i
abbrev F.KX_NODE_W1_POLICY (i : Nat) : Fld := ⟨0x6100004 + 0x40 * i, 0, 10, 10⟩
/-- KX_NODE_W2: 12_keys_lifecycle.md, R378. -/
abbrev R.KX_NODE_W2 (i : Nat) : Nat := 0x6100008 + 0x40 * i
abbrev F.KX_NODE_W2_USE_LIMIT (i : Nat) : Fld := ⟨0x6100008 + 0x40 * i, 0, 32, 10⟩
/-- KX_NODE_LABEL: 12_keys_lifecycle.md, R378. -/
abbrev R.KX_NODE_LABEL (i j : Nat) : Nat := 0x6100010 + 0x40 * i + 4 * j
abbrev F.KX_NODE_LABEL_LABEL (i j : Nat) : Fld := ⟨0x6100010 + 0x40 * i + 4 * j, 0, 32, 10⟩
/-- KX_NODE_STAT_W0: 12_keys_lifecycle.md, R379. -/
abbrev R.KX_NODE_STAT_W0 (i : Nat) : Nat := 0x6200000 + 0x10 * i
abbrev F.KX_NODE_STAT_W0_STATE (i : Nat) : Fld := ⟨0x6200000 + 0x10 * i, 0, 3, 18⟩
abbrev F.KX_NODE_STAT_W0_DEPTH (i : Nat) : Fld := ⟨0x6200000 + 0x10 * i, 4, 3, 18⟩
abbrev F.KX_NODE_STAT_W0_GEN (i : Nat) : Fld := ⟨0x6200000 + 0x10 * i, 16, 16, 18⟩
/-- KX_NODE_STAT_W1: 12_keys_lifecycle.md, R379. -/
abbrev R.KX_NODE_STAT_W1 (i : Nat) : Nat := 0x6200004 + 0x10 * i
abbrev F.KX_NODE_STAT_W1_PGEN (i : Nat) : Fld := ⟨0x6200004 + 0x10 * i, 0, 16, 18⟩
/-- KX_NODE_STAT_W2: 12_keys_lifecycle.md, R379. -/
abbrev R.KX_NODE_STAT_W2 (i : Nat) : Nat := 0x6200008 + 0x10 * i
abbrev F.KX_NODE_STAT_W2_USES (i : Nat) : Fld := ⟨0x6200008 + 0x10 * i, 0, 32, 18⟩
/-- KX_TAMPER_STAT: 12_keys_lifecycle.md, R379. -/
abbrev R.KX_TAMPER_STAT : Nat := 0x6000104
abbrev F.KX_TAMPER_STAT_LATCH : Fld := ⟨0x6000104, 0, 6, 18⟩
abbrev F.KX_TAMPER_STAT_ACTIVE : Fld := ⟨0x6000104, 8, 6, 18⟩
abbrev F.KX_TAMPER_STAT_FROM_LISTEN : Fld := ⟨0x6000104, 16, 6, 18⟩
/-- KX_TAMPER_COUNT: 12_keys_lifecycle.md, R379. -/
abbrev R.KX_TAMPER_COUNT : Nat := 0x6000108
abbrev F.KX_TAMPER_COUNT_COUNT : Fld := ⟨0x6000108, 0, 32, 18⟩
/-- KX_USE_REFUSED: 12_keys_lifecycle.md, R379. -/
abbrev R.KX_USE_REFUSED : Nat := 0x6000120
abbrev F.KX_USE_REFUSED_COUNT : Fld := ⟨0x6000120, 0, 32, 18⟩
/-- KX_DERIVES: 12_keys_lifecycle.md, R379. -/
abbrev R.KX_DERIVES : Nat := 0x6000124
abbrev F.KX_DERIVES_COUNT : Fld := ⟨0x6000124, 0, 32, 18⟩
/-- KX_BAD_CHAIN: 12_keys_lifecycle.md, R379. -/
abbrev R.KX_BAD_CHAIN : Nat := 0x6000128
abbrev F.KX_BAD_CHAIN_NODES : Fld := ⟨0x6000128, 0, 11, 18⟩
/-- KX_REMASK: 12_keys_lifecycle.md, R379. -/
abbrev R.KX_REMASK : Nat := 0x600012c
abbrev F.KX_REMASK_PASSES : Fld := ⟨0x600012c, 0, 32, 18⟩
/-- KX_EV_LAST: 12_keys_lifecycle.md, R379. -/
abbrev R.KX_EV_LAST : Nat := 0x6000130
abbrev F.KX_EV_LAST_NODE : Fld := ⟨0x6000130, 0, 10, 18⟩
abbrev F.KX_EV_LAST_SOURCE : Fld := ⟨0x6000130, 12, 3, 18⟩
/-- CE_PORT_CFG: 13_cipher.md, R396. -/
abbrev R.CE_PORT_CFG (i : Nat) : Nat := 0x7001000 + 0x20 * i
abbrev F.CE_PORT_CFG_TX_EN (i : Nat) : Fld := ⟨0x7001000 + 0x20 * i, 0, 1, 11⟩
abbrev F.CE_PORT_CFG_RX_EN (i : Nat) : Fld := ⟨0x7001000 + 0x20 * i, 1, 1, 11⟩
abbrev F.CE_PORT_CFG_REQUIRE (i : Nat) : Fld := ⟨0x7001000 + 0x20 * i, 2, 1, 11⟩
abbrev F.CE_PORT_CFG_DESIG (i : Nat) : Fld := ⟨0x7001000 + 0x20 * i, 3, 1, 11⟩
abbrev F.CE_PORT_CFG_ENC_AN (i : Nat) : Fld := ⟨0x7001000 + 0x20 * i, 4, 2, 11⟩
abbrev F.CE_PORT_CFG_DEF_RXSC (i : Nat) : Fld := ⟨0x7001000 + 0x20 * i, 16, 9, 11⟩
abbrev F.CE_PORT_CFG_DEF_EN (i : Nat) : Fld := ⟨0x7001000 + 0x20 * i, 25, 1, 11⟩
/-- CE_TX_SCI_LO: 13_cipher.md, R396. -/
abbrev R.CE_TX_SCI_LO (i : Nat) : Nat := 0x7001004 + 0x20 * i
abbrev F.CE_TX_SCI_LO_TX_SCI (i : Nat) : Fld := ⟨0x7001004 + 0x20 * i, 0, 32, 11⟩
/-- CE_TX_SCI_HI: 13_cipher.md, R396. -/
abbrev R.CE_TX_SCI_HI (i : Nat) : Nat := 0x7001008 + 0x20 * i
abbrev F.CE_TX_SCI_HI_TX_SCI (i : Nat) : Fld := ⟨0x7001008 + 0x20 * i, 0, 32, 11⟩
/-- CE_TX_CTX01: 13_cipher.md, R396. -/
abbrev R.CE_TX_CTX01 (i : Nat) : Nat := 0x700100c + 0x20 * i
abbrev F.CE_TX_CTX01_TX_CTX_AN0 (i : Nat) : Fld := ⟨0x700100c + 0x20 * i, 0, 12, 11⟩
abbrev F.CE_TX_CTX01_TX_CTX_AN1 (i : Nat) : Fld := ⟨0x700100c + 0x20 * i, 16, 12, 11⟩
/-- CE_TX_CTX23: 13_cipher.md, R396. -/
abbrev R.CE_TX_CTX23 (i : Nat) : Nat := 0x7001010 + 0x20 * i
abbrev F.CE_TX_CTX23_TX_CTX_AN2 (i : Nat) : Fld := ⟨0x7001010 + 0x20 * i, 0, 12, 11⟩
abbrev F.CE_TX_CTX23_TX_CTX_AN3 (i : Nat) : Fld := ⟨0x7001010 + 0x20 * i, 16, 12, 11⟩
/-- CE_CTX_W0: 13_cipher.md, R397. -/
abbrev R.CE_CTX_W0 (i : Nat) : Nat := 0x7100000 + 0x40 * i
abbrev F.CE_CTX_W0_KIND (i : Nat) : Fld := ⟨0x7100000 + 0x40 * i, 0, 2, 11⟩
abbrev F.CE_CTX_W0_XPN (i : Nat) : Fld := ⟨0x7100000 + 0x40 * i, 2, 1, 11⟩
abbrev F.CE_CTX_W0_KEYMODE (i : Nat) : Fld := ⟨0x7100000 + 0x40 * i, 3, 1, 11⟩
abbrev F.CE_CTX_W0_CONF (i : Nat) : Fld := ⟨0x7100000 + 0x40 * i, 4, 1, 11⟩
abbrev F.CE_CTX_W0_CONF_OFS (i : Nat) : Fld := ⟨0x7100000 + 0x40 * i, 5, 2, 11⟩
abbrev F.CE_CTX_W0_NODE (i : Nat) : Fld := ⟨0x7100000 + 0x40 * i, 16, 10, 11⟩
abbrev F.CE_CTX_W0_VALID (i : Nat) : Fld := ⟨0x7100000 + 0x40 * i, 31, 1, 11⟩
/-- CE_CTX_W1: 13_cipher.md, R397. -/
abbrev R.CE_CTX_W1 (i : Nat) : Nat := 0x7100004 + 0x40 * i
abbrev F.CE_CTX_W1_LIMIT (i : Nat) : Fld := ⟨0x7100004 + 0x40 * i, 0, 32, 11⟩
/-- CE_CTX_W2: 13_cipher.md, R397. -/
abbrev R.CE_CTX_W2 (i : Nat) : Nat := 0x7100008 + 0x40 * i
abbrev F.CE_CTX_W2_LIMIT (i : Nat) : Fld := ⟨0x7100008 + 0x40 * i, 0, 32, 11⟩
/-- CE_CTX_W3: 13_cipher.md, R397. -/
abbrev R.CE_CTX_W3 (i : Nat) : Nat := 0x710000c + 0x40 * i
abbrev F.CE_CTX_W3_WINDOW (i : Nat) : Fld := ⟨0x710000c + 0x40 * i, 0, 32, 11⟩
/-- CE_CTX_W4: 13_cipher.md, R397. -/
abbrev R.CE_CTX_W4 (i : Nat) : Nat := 0x7100010 + 0x40 * i
abbrev F.CE_CTX_W4_SSCI (i : Nat) : Fld := ⟨0x7100010 + 0x40 * i, 0, 32, 11⟩
/-- CE_CTX_SALT: 13_cipher.md, R397. -/
abbrev R.CE_CTX_SALT (i j : Nat) : Nat := 0x7100014 + 0x40 * i + 4 * j
abbrev F.CE_CTX_SALT_SALT (i j : Nat) : Fld := ⟨0x7100014 + 0x40 * i + 4 * j, 0, 32, 11⟩
/-- CE_CTX_W8: 13_cipher.md, R397. -/
abbrev R.CE_CTX_W8 (i : Nat) : Nat := 0x7100020 + 0x40 * i
abbrev F.CE_CTX_W8_INIT_PN (i : Nat) : Fld := ⟨0x7100020 + 0x40 * i, 0, 32, 11⟩
/-- CE_CTX_W9: 13_cipher.md, R397. -/
abbrev R.CE_CTX_W9 (i : Nat) : Nat := 0x7100024 + 0x40 * i
abbrev F.CE_CTX_W9_INIT_PN (i : Nat) : Fld := ⟨0x7100024 + 0x40 * i, 0, 32, 11⟩
/-- CE_CTX_LABEL: 13_cipher.md, R397. -/
abbrev R.CE_CTX_LABEL (i j : Nat) : Nat := 0x7100030 + 0x40 * i + 4 * j
abbrev F.CE_CTX_LABEL_LABEL (i j : Nat) : Fld := ⟨0x7100030 + 0x40 * i + 4 * j, 0, 32, 11⟩
/-- CE_RXSC_W0: 13_cipher.md, R397. -/
abbrev R.CE_RXSC_W0 (i : Nat) : Nat := 0x7180000 + 0x20 * i
abbrev F.CE_RXSC_W0_SCI (i : Nat) : Fld := ⟨0x7180000 + 0x20 * i, 0, 32, 11⟩
/-- CE_RXSC_W1: 13_cipher.md, R397. -/
abbrev R.CE_RXSC_W1 (i : Nat) : Nat := 0x7180004 + 0x20 * i
abbrev F.CE_RXSC_W1_SCI (i : Nat) : Fld := ⟨0x7180004 + 0x20 * i, 0, 32, 11⟩
/-- CE_RXSC_W2: 13_cipher.md, R397. -/
abbrev R.CE_RXSC_W2 (i : Nat) : Nat := 0x7180008 + 0x20 * i
abbrev F.CE_RXSC_W2_CTX_AN0 (i : Nat) : Fld := ⟨0x7180008 + 0x20 * i, 0, 12, 11⟩
abbrev F.CE_RXSC_W2_CTX_AN1 (i : Nat) : Fld := ⟨0x7180008 + 0x20 * i, 16, 12, 11⟩
/-- CE_RXSC_W3: 13_cipher.md, R397. -/
abbrev R.CE_RXSC_W3 (i : Nat) : Nat := 0x718000c + 0x20 * i
abbrev F.CE_RXSC_W3_CTX_AN2 (i : Nat) : Fld := ⟨0x718000c + 0x20 * i, 0, 12, 11⟩
abbrev F.CE_RXSC_W3_CTX_AN3 (i : Nat) : Fld := ⟨0x718000c + 0x20 * i, 16, 12, 11⟩
/-- CE_RXSC_W4: 13_cipher.md, R397. -/
abbrev R.CE_RXSC_W4 (i : Nat) : Nat := 0x7180010 + 0x20 * i
abbrev F.CE_RXSC_W4_PORT (i : Nat) : Fld := ⟨0x7180010 + 0x20 * i, 0, 6, 11⟩
abbrev F.CE_RXSC_W4_AN_EN (i : Nat) : Fld := ⟨0x7180010 + 0x20 * i, 8, 4, 11⟩
abbrev F.CE_RXSC_W4_VALID (i : Nat) : Fld := ⟨0x7180010 + 0x20 * i, 31, 1, 11⟩
/-- CE_CTX_STAT_W0: 13_cipher.md, R398. -/
abbrev R.CE_CTX_STAT_W0 (i : Nat) : Nat := 0x7200000 + 0x20 * i
abbrev F.CE_CTX_STAT_W0_STATE (i : Nat) : Fld := ⟨0x7200000 + 0x20 * i, 0, 3, 18⟩
abbrev F.CE_CTX_STAT_W0_CURRENT (i : Nat) : Fld := ⟨0x7200000 + 0x20 * i, 4, 3, 18⟩
abbrev F.CE_CTX_STAT_W0_HOME (i : Nat) : Fld := ⟨0x7200000 + 0x20 * i, 8, 3, 18⟩
abbrev F.CE_CTX_STAT_W0_GEN (i : Nat) : Fld := ⟨0x7200000 + 0x20 * i, 16, 16, 18⟩
/-- CE_CTX_STAT_W1: 13_cipher.md, R398. -/
abbrev R.CE_CTX_STAT_W1 (i : Nat) : Nat := 0x7200004 + 0x20 * i
abbrev F.CE_CTX_STAT_W1_USED (i : Nat) : Fld := ⟨0x7200004 + 0x20 * i, 0, 32, 18⟩
/-- CE_CTX_STAT_W2: 13_cipher.md, R398. -/
abbrev R.CE_CTX_STAT_W2 (i : Nat) : Nat := 0x7200008 + 0x20 * i
abbrev F.CE_CTX_STAT_W2_USED (i : Nat) : Fld := ⟨0x7200008 + 0x20 * i, 0, 32, 18⟩
/-- CE_CTX_STAT_W3: 13_cipher.md, R398. -/
abbrev R.CE_CTX_STAT_W3 (i : Nat) : Nat := 0x720000c + 0x20 * i
abbrev F.CE_CTX_STAT_W3_PN (i : Nat) : Fld := ⟨0x720000c + 0x20 * i, 0, 32, 18⟩
/-- CE_CTX_STAT_W4: 13_cipher.md, R398. -/
abbrev R.CE_CTX_STAT_W4 (i : Nat) : Nat := 0x7200010 + 0x20 * i
abbrev F.CE_CTX_STAT_W4_PN (i : Nat) : Fld := ⟨0x7200010 + 0x20 * i, 0, 32, 18⟩
/-- CE_PAIR_STAT: 13_cipher.md, R399. -/
abbrev R.CE_PAIR_STAT (i : Nat) : Nat := 0x7000200 + 4 * i
abbrev F.CE_PAIR_STAT_IN_SERVICE (i : Nat) : Fld := ⟨0x7000200 + 4 * i, 0, 1, 18⟩
abbrev F.CE_PAIR_STAT_RETIRED (i : Nat) : Fld := ⟨0x7000200 + 4 * i, 1, 1, 18⟩
abbrev F.CE_PAIR_STAT_MEND (i : Nat) : Fld := ⟨0x7000200 + 4 * i, 2, 1, 18⟩
abbrev F.CE_PAIR_STAT_CONTEXTS (i : Nat) : Fld := ⟨0x7000200 + 4 * i, 4, 12, 18⟩
abbrev F.CE_PAIR_STAT_MISMATCHES (i : Nat) : Fld := ⟨0x7000200 + 4 * i, 16, 16, 18⟩
/-- CE_EV_LAST: 13_cipher.md, R399. -/
abbrev R.CE_EV_LAST : Nat := 0x7000400
abbrev F.CE_EV_LAST_CTX : Fld := ⟨0x7000400, 0, 12, 18⟩
abbrev F.CE_EV_LAST_PAIR : Fld := ⟨0x7000400, 12, 3, 18⟩
/-- CE_DROP_AUTH: 13_cipher.md, R400. -/
abbrev R.CE_DROP_AUTH (i : Nat) : Nat := 0x7300000 + 0x10 * i
abbrev F.CE_DROP_AUTH_COUNT (i : Nat) : Fld := ⟨0x7300000 + 0x10 * i, 0, 32, 18⟩
/-- CE_DROP_REPLAY: 13_cipher.md, R400. -/
abbrev R.CE_DROP_REPLAY (i : Nat) : Nat := 0x7300004 + 0x10 * i
abbrev F.CE_DROP_REPLAY_COUNT (i : Nat) : Fld := ⟨0x7300004 + 0x10 * i, 0, 32, 18⟩
/-- CE_DROP_UNUSABLE: 13_cipher.md, R400. -/
abbrev R.CE_DROP_UNUSABLE (i : Nat) : Nat := 0x7300008 + 0x10 * i
abbrev F.CE_DROP_UNUSABLE_COUNT (i : Nat) : Fld := ⟨0x7300008 + 0x10 * i, 0, 32, 18⟩
/-- CE_UNTRUSTED: 13_cipher.md, R400. -/
abbrev R.CE_UNTRUSTED (i : Nat) : Nat := 0x730000c + 0x10 * i
abbrev F.CE_UNTRUSTED_COUNT (i : Nat) : Fld := ⟨0x730000c + 0x10 * i, 0, 32, 18⟩
/-- CE_RX_NOSC: 13_cipher.md, R400. -/
abbrev R.CE_RX_NOSC : Nat := 0x7000300
abbrev F.CE_RX_NOSC_COUNT : Fld := ⟨0x7000300, 0, 32, 18⟩
/-- CE_RX_NOSA: 13_cipher.md, R400. -/
abbrev R.CE_RX_NOSA : Nat := 0x7000304
abbrev F.CE_RX_NOSA_COUNT : Fld := ⟨0x7000304, 0, 32, 18⟩
/-- CE_RX_BADTAG: 13_cipher.md, R400. -/
abbrev R.CE_RX_BADTAG : Nat := 0x7000308
abbrev F.CE_RX_BADTAG_COUNT : Fld := ⟨0x7000308, 0, 32, 18⟩
/-- CE_RX_UNPROT_DROP: 13_cipher.md, R400. -/
abbrev R.CE_RX_UNPROT_DROP : Nat := 0x700030c
abbrev F.CE_RX_UNPROT_DROP_COUNT : Fld := ⟨0x700030c, 0, 32, 18⟩
/-- CE_TX_UNPROT_DROP: 13_cipher.md, R400. -/
abbrev R.CE_TX_UNPROT_DROP : Nat := 0x7000310
abbrev F.CE_TX_UNPROT_DROP_COUNT : Fld := ⟨0x7000310, 0, 32, 18⟩
/-- CE_CACHE_MISS: 13_cipher.md, R400. -/
abbrev R.CE_CACHE_MISS : Nat := 0x7000314
abbrev F.CE_CACHE_MISS_COUNT : Fld := ⟨0x7000314, 0, 32, 18⟩
/-- CE_MISMATCH_RETRY_OK: 13_cipher.md, R400. -/
abbrev R.CE_MISMATCH_RETRY_OK : Nat := 0x7000318
abbrev F.CE_MISMATCH_RETRY_OK_COUNT : Fld := ⟨0x7000318, 0, 32, 18⟩
/-- CE_HAM_ENC_PAGES: 13_cipher.md, R400. -/
abbrev R.CE_HAM_ENC_PAGES : Nat := 0x700031c
abbrev F.CE_HAM_ENC_PAGES_COUNT : Fld := ⟨0x700031c, 0, 32, 18⟩
/-- CE_HAM_DEC_PAGES: 13_cipher.md, R400. -/
abbrev R.CE_HAM_DEC_PAGES : Nat := 0x7000320
abbrev F.CE_HAM_DEC_PAGES_COUNT : Fld := ⟨0x7000320, 0, 32, 18⟩
/-- CE_KEYSDOWN_DROP: 13_cipher.md, R400. -/
abbrev R.CE_KEYSDOWN_DROP : Nat := 0x7000324
abbrev F.CE_KEYSDOWN_DROP_COUNT : Fld := ⟨0x7000324, 0, 32, 18⟩
/-- SV_SD_W0: 14_sleep_wake.md, R421. -/
abbrev R.SV_SD_W0 (i : Nat) : Nat := 0x3000 + 0x20 * i
abbrev F.SV_SD_W0_VALID (i : Nat) : Fld := ⟨0x3000 + 0x20 * i, 0, 1, 12⟩
abbrev F.SV_SD_W0_MEMBER (i : Nat) : Fld := ⟨0x3000 + 0x20 * i, 1, 1, 12⟩
abbrev F.SV_SD_W0_NEED (i : Nat) : Fld := ⟨0x3000 + 0x20 * i, 2, 1, 12⟩
abbrev F.SV_SD_W0_KA_TX_EN (i : Nat) : Fld := ⟨0x3000 + 0x20 * i, 3, 1, 12⟩
abbrev F.SV_SD_W0_T_FOLD (i : Nat) : Fld := ⟨0x3000 + 0x20 * i, 8, 8, 12⟩
abbrev F.SV_SD_W0_KA_PERIOD (i : Nat) : Fld := ⟨0x3000 + 0x20 * i, 16, 8, 12⟩
abbrev F.SV_SD_W0_WIRE_DOMAIN (i : Nat) : Fld := ⟨0x3000 + 0x20 * i, 24, 8, 12⟩
/-- SV_SD_W1: 14_sleep_wake.md, R421. -/
abbrev R.SV_SD_W1 (i : Nat) : Nat := 0x3004 + 0x20 * i
abbrev F.SV_SD_W1_PORTS_LO (i : Nat) : Fld := ⟨0x3004 + 0x20 * i, 0, 32, 12⟩
/-- SV_SD_W2: 14_sleep_wake.md, R421. -/
abbrev R.SV_SD_W2 (i : Nat) : Nat := 0x3008 + 0x20 * i
abbrev F.SV_SD_W2_PORTS_HI (i : Nat) : Fld := ⟨0x3008 + 0x20 * i, 0, 9, 12⟩
abbrev F.SV_SD_W2_BUSES (i : Nat) : Fld := ⟨0x3008 + 0x20 * i, 16, 16, 12⟩
/-- SV_SD_W3: 14_sleep_wake.md, R421. -/
abbrev R.SV_SD_W3 (i : Nat) : Nat := 0x300c + 0x20 * i
abbrev F.SV_SD_W3_KA_ID_LO (i : Nat) : Fld := ⟨0x300c + 0x20 * i, 0, 29, 12⟩
abbrev F.SV_SD_W3_KA_IDE (i : Nat) : Fld := ⟨0x300c + 0x20 * i, 29, 1, 12⟩
/-- SV_SD_W4: 14_sleep_wake.md, R421. -/
abbrev R.SV_SD_W4 (i : Nat) : Nat := 0x3010 + 0x20 * i
abbrev F.SV_SD_W4_KA_ID_HI (i : Nat) : Fld := ⟨0x3010 + 0x20 * i, 0, 29, 12⟩
/-- SV_SD_W5: 14_sleep_wake.md, R421. -/
abbrev R.SV_SD_W5 (i : Nat) : Nat := 0x3014 + 0x20 * i
abbrev F.SV_SD_W5_KA_TX_ID (i : Nat) : Fld := ⟨0x3014 + 0x20 * i, 0, 29, 12⟩
abbrev F.SV_SD_W5_KA_TX_IDE (i : Nat) : Fld := ⟨0x3014 + 0x20 * i, 29, 1, 12⟩
/-- SV_SD_W6: 14_sleep_wake.md, R421. -/
abbrev R.SV_SD_W6 (i : Nat) : Nat := 0x3018 + 0x20 * i
abbrev F.SV_SD_W6_KA_OBJ (i : Nat) : Fld := ⟨0x3018 + 0x20 * i, 0, 7, 12⟩
abbrev F.SV_SD_W6_KA_NODE (i : Nat) : Fld := ⟨0x3018 + 0x20 * i, 8, 8, 12⟩
abbrev F.SV_SD_W6_OUT (i : Nat) : Fld := ⟨0x3018 + 0x20 * i, 16, 16, 12⟩
/-- SV_SD_W7: 14_sleep_wake.md, R421. -/
abbrev R.SV_SD_W7 (i : Nat) : Nat := 0x301c + 0x20 * i
abbrev F.SV_SD_W7_T_AWAKE_MAX (i : Nat) : Fld := ⟨0x301c + 0x20 * i, 0, 11, 12⟩
/-- SV_FOLD_CFG_LO: 14_sleep_wake.md, R422. -/
abbrev R.SV_FOLD_CFG_LO : Nat := 0xa00
abbrev F.SV_FOLD_CFG_LO_KA_MAC : Fld := ⟨0xa00, 0, 32, 12⟩
/-- SV_FOLD_CFG_HI: 14_sleep_wake.md, R422. -/
abbrev R.SV_FOLD_CFG_HI : Nat := 0xa04
abbrev F.SV_FOLD_CFG_HI_KA_MAC : Fld := ⟨0xa04, 0, 16, 12⟩
/-- SV_FOLD_SRC_LO: 14_sleep_wake.md, R422. -/
abbrev R.SV_FOLD_SRC_LO : Nat := 0xa08
abbrev F.SV_FOLD_SRC_LO_SRC_MAC : Fld := ⟨0xa08, 0, 32, 12⟩
/-- SV_FOLD_SRC_HI: 14_sleep_wake.md, R422. -/
abbrev R.SV_FOLD_SRC_HI : Nat := 0xa0c
abbrev F.SV_FOLD_SRC_HI_SRC_MAC : Fld := ⟨0xa0c, 0, 16, 12⟩
/-- SV_FOLD_NEED: 14_sleep_wake.md, R422. -/
abbrev R.SV_FOLD_NEED : Nat := 0xa10
abbrev F.SV_FOLD_NEED_NEED : Fld := ⟨0xa10, 0, 16, 18⟩
/-- SV_FOLD_CMD: 14_sleep_wake.md, R422. -/
abbrev R.SV_FOLD_CMD : Nat := 0xa14
abbrev F.SV_FOLD_CMD_SD : Fld := ⟨0xa14, 0, 4, 18⟩
abbrev F.SV_FOLD_CMD_WAKE : Fld := ⟨0xa14, 8, 1, 18⟩
abbrev F.SV_FOLD_CMD_FORGIVE : Fld := ⟨0xa14, 9, 1, 18⟩
/-- SV_FOLD_KA_RX: 14_sleep_wake.md, R422. -/
abbrev R.SV_FOLD_KA_RX : Nat := 0xa20
abbrev F.SV_FOLD_KA_RX_COUNT : Fld := ⟨0xa20, 0, 32, 18⟩
/-- SV_FOLD_KA_TX_FAIL: 14_sleep_wake.md, R422. -/
abbrev R.SV_FOLD_KA_TX_FAIL : Nat := 0xa24
abbrev F.SV_FOLD_KA_TX_FAIL_COUNT : Fld := ⟨0xa24, 0, 32, 18⟩
/-- SV_FOLD_KA_BLOCKED: 14_sleep_wake.md, R422. -/
abbrev R.SV_FOLD_KA_BLOCKED : Nat := 0xa28
abbrev F.SV_FOLD_KA_BLOCKED_COUNT : Fld := ⟨0xa28, 0, 32, 18⟩
/-- SV_SD_STAT: 14_sleep_wake.md, R422. -/
abbrev R.SV_SD_STAT (i : Nat) : Nat := 0x3200 + 0x10 * i
abbrev F.SV_SD_STAT_STATE (i : Nat) : Fld := ⟨0x3200 + 0x10 * i, 0, 3, 18⟩
abbrev F.SV_SD_STAT_LATCHED (i : Nat) : Fld := ⟨0x3200 + 0x10 * i, 3, 1, 18⟩
abbrev F.SV_SD_STAT_ENFORCED (i : Nat) : Fld := ⟨0x3200 + 0x10 * i, 4, 1, 18⟩
abbrev F.SV_SD_STAT_HOLD (i : Nat) : Fld := ⟨0x3200 + 0x10 * i, 5, 1, 18⟩
/-- SV_SD_TIMER: 14_sleep_wake.md, R422. -/
abbrev R.SV_SD_TIMER (i : Nat) : Nat := 0x3204 + 0x10 * i
abbrev F.SV_SD_TIMER_TIMER (i : Nat) : Fld := ⟨0x3204 + 0x10 * i, 0, 32, 18⟩
/-- SV_SD_AWAKE: 14_sleep_wake.md, R422. -/
abbrev R.SV_SD_AWAKE (i : Nat) : Nat := 0x3208 + 0x10 * i
abbrev F.SV_SD_AWAKE_AWAKE_S (i : Nat) : Fld := ⟨0x3208 + 0x10 * i, 0, 32, 18⟩
/-- SV_SD_FOLDS: 14_sleep_wake.md, R422. -/
abbrev R.SV_SD_FOLDS (i : Nat) : Nat := 0x320c + 0x10 * i
abbrev F.SV_SD_FOLDS_FOLDS (i : Nat) : Fld := ⟨0x320c + 0x10 * i, 0, 32, 18⟩
/-- SV_SD_TALK: 14_sleep_wake.md, R422. -/
abbrev R.SV_SD_TALK (i j : Nat) : Nat := 0x3400 + 0x80 * i + 0x10 * j
abbrev F.SV_SD_TALK_KIND (i j : Nat) : Fld := ⟨0x3400 + 0x80 * i + 0x10 * j, 0, 2, 18⟩
abbrev F.SV_SD_TALK_UNIT (i j : Nat) : Fld := ⟨0x3400 + 0x80 * i + 0x10 * j, 8, 6, 18⟩
/-- SV_SD_TALK_SRC_LO: 14_sleep_wake.md, R422. -/
abbrev R.SV_SD_TALK_SRC_LO (i j : Nat) : Nat := 0x3404 + 0x80 * i + 0x10 * j
abbrev F.SV_SD_TALK_SRC_LO_SOURCE (i j : Nat) : Fld := ⟨0x3404 + 0x80 * i + 0x10 * j, 0, 32, 18⟩
/-- SV_SD_TALK_SRC_HI: 14_sleep_wake.md, R422. -/
abbrev R.SV_SD_TALK_SRC_HI (i j : Nat) : Nat := 0x3408 + 0x80 * i + 0x10 * j
abbrev F.SV_SD_TALK_SRC_HI_SOURCE (i j : Nat) : Fld := ⟨0x3408 + 0x80 * i + 0x10 * j, 0, 16, 18⟩
/-- SV_SD_TALK_COUNT: 14_sleep_wake.md, R422. -/
abbrev R.SV_SD_TALK_COUNT (i j : Nat) : Nat := 0x340c + 0x80 * i + 0x10 * j
abbrev F.SV_SD_TALK_COUNT_COUNT (i j : Nat) : Fld := ⟨0x340c + 0x80 * i + 0x10 * j, 0, 32, 18⟩
/-- PW_WAKE_CFG: 14_sleep_wake.md, R423. -/
abbrev R.PW_WAKE_CFG : Nat := 0xa000100
abbrev F.PW_WAKE_CFG_T_VALID : Fld := ⟨0xa000100, 0, 8, 12⟩
abbrev F.PW_WAKE_CFG_FALSE_LIM : Fld := ⟨0xa000100, 8, 4, 12⟩
abbrev F.PW_WAKE_CFG_BACKOFF : Fld := ⟨0xa000100, 16, 8, 12⟩
/-- PW_WAKEIN_CFG: 14_sleep_wake.md, R423. -/
abbrev R.PW_WAKEIN_CFG (i : Nat) : Nat := 0xa000110 + 4 * i
abbrev F.PW_WAKEIN_CFG_EN (i : Nat) : Fld := ⟨0xa000110 + 4 * i, 0, 1, 12⟩
abbrev F.PW_WAKEIN_CFG_ACTIVE (i : Nat) : Fld := ⟨0xa000110 + 4 * i, 1, 1, 12⟩
abbrev F.PW_WAKEIN_CFG_FILTER (i : Nat) : Fld := ⟨0xa000110 + 4 * i, 2, 8, 12⟩
abbrev F.PW_WAKEIN_CFG_DOMAINS (i : Nat) : Fld := ⟨0xa000110 + 4 * i, 16, 16, 12⟩
/-- PW_CANWAKE_CFG_W0: 14_sleep_wake.md, R423. -/
abbrev R.PW_CANWAKE_CFG_W0 (i : Nat) : Nat := 0xa000140 + 0x10 * i
abbrev F.PW_CANWAKE_CFG_W0_WUF_EN (i : Nat) : Fld := ⟨0xa000140 + 0x10 * i, 0, 1, 12⟩
abbrev F.PW_CANWAKE_CFG_W0_KA_EN (i : Nat) : Fld := ⟨0xa000140 + 0x10 * i, 1, 1, 12⟩
abbrev F.PW_CANWAKE_CFG_W0_WUF_RATE (i : Nat) : Fld := ⟨0xa000140 + 0x10 * i, 4, 2, 12⟩
/-- PW_CANWAKE_CFG_W1: 14_sleep_wake.md, R423. -/
abbrev R.PW_CANWAKE_CFG_W1 (i : Nat) : Nat := 0xa000144 + 0x10 * i
abbrev F.PW_CANWAKE_CFG_W1_WUF_ID (i : Nat) : Fld := ⟨0xa000144 + 0x10 * i, 0, 29, 12⟩
abbrev F.PW_CANWAKE_CFG_W1_WUF_IDE (i : Nat) : Fld := ⟨0xa000144 + 0x10 * i, 29, 1, 12⟩
/-- PW_CANWAKE_CFG_W2: 14_sleep_wake.md, R423. -/
abbrev R.PW_CANWAKE_CFG_W2 (i : Nat) : Nat := 0xa000148 + 0x10 * i
abbrev F.PW_CANWAKE_CFG_W2_WUF_MASK (i : Nat) : Fld := ⟨0xa000148 + 0x10 * i, 0, 29, 12⟩
/-- PW_T1SWAKE_CFG: 14_sleep_wake.md, R423. -/
abbrev R.PW_T1SWAKE_CFG : Nat := 0xa0001c0
abbrev F.PW_T1SWAKE_CFG_EN : Fld := ⟨0xa0001c0, 0, 12, 12⟩
/-- PW_RTC_ALARM_SEC: 14_sleep_wake.md, R423. -/
abbrev R.PW_RTC_ALARM_SEC : Nat := 0xa0001d0
abbrev F.PW_RTC_ALARM_SEC_SEC : Fld := ⟨0xa0001d0, 0, 32, 18⟩
/-- PW_RTC_ALARM_CTL: 14_sleep_wake.md, R423. -/
abbrev R.PW_RTC_ALARM_CTL : Nat := 0xa0001d4
abbrev F.PW_RTC_ALARM_CTL_ARM : Fld := ⟨0xa0001d4, 0, 1, 18⟩
abbrev F.PW_RTC_ALARM_CTL_DOMAINS : Fld := ⟨0xa0001d4, 16, 16, 18⟩
/-- PW_RTC_SEC_LO: 14_sleep_wake.md, R423. -/
abbrev R.PW_RTC_SEC_LO : Nat := 0xa000200
abbrev F.PW_RTC_SEC_LO_SEC : Fld := ⟨0xa000200, 0, 32, 18⟩
/-- PW_RTC_SEC_HI: 14_sleep_wake.md, R423. -/
abbrev R.PW_RTC_SEC_HI : Nat := 0xa000204
abbrev F.PW_RTC_SEC_HI_SEC : Fld := ⟨0xa000204, 0, 16, 18⟩
/-- PW_RTC_SUB: 14_sleep_wake.md, R423. -/
abbrev R.PW_RTC_SUB : Nat := 0xa000208
abbrev F.PW_RTC_SUB_SUB : Fld := ⟨0xa000208, 0, 15, 18⟩
abbrev F.PW_RTC_SUB_ON_RC : Fld := ⟨0xa000208, 31, 1, 18⟩
/-- PW_RTC_SET_LO: 14_sleep_wake.md, R423. -/
abbrev R.PW_RTC_SET_LO : Nat := 0xa00020c
abbrev F.PW_RTC_SET_LO_SEC : Fld := ⟨0xa00020c, 0, 32, 18⟩
/-- PW_RTC_SET_HI: 14_sleep_wake.md, R423. -/
abbrev R.PW_RTC_SET_HI : Nat := 0xa000210
abbrev F.PW_RTC_SET_HI_SEC : Fld := ⟨0xa000210, 0, 16, 18⟩
abbrev F.PW_RTC_SET_HI_GO : Fld := ⟨0xa000210, 31, 1, 18⟩
/-- PW_WAKE_HEAD: 14_sleep_wake.md, R423. -/
abbrev R.PW_WAKE_HEAD : Nat := 0xa000300
abbrev F.PW_WAKE_HEAD_NEXT : Fld := ⟨0xa000300, 0, 4, 18⟩
abbrev F.PW_WAKE_HEAD_TOTAL : Fld := ⟨0xa000300, 16, 16, 18⟩
/-- PW_FALSE_TOTAL: 14_sleep_wake.md, R423. -/
abbrev R.PW_FALSE_TOTAL : Nat := 0xa000700
abbrev F.PW_FALSE_TOTAL_COUNT : Fld := ⟨0xa000700, 0, 32, 18⟩
/-- PW_MASKED_HITS: 14_sleep_wake.md, R423. -/
abbrev R.PW_MASKED_HITS : Nat := 0xa000704
abbrev F.PW_MASKED_HITS_COUNT : Fld := ⟨0xa000704, 0, 32, 18⟩
/-- PW_FALSE: 14_sleep_wake.md, R423. -/
abbrev R.PW_FALSE (i : Nat) : Nat := 0xa000600 + 4 * i
abbrev F.PW_FALSE_CONSEC (i : Nat) : Fld := ⟨0xa000600 + 4 * i, 0, 4, 18⟩
abbrev F.PW_FALSE_MASKED (i : Nat) : Fld := ⟨0xa000600 + 4 * i, 15, 1, 18⟩
abbrev F.PW_FALSE_MASK_LEFT (i : Nat) : Fld := ⟨0xa000600 + 4 * i, 16, 16, 18⟩
/-- PW_WAKEREC_W0: 14_sleep_wake.md, R424. -/
abbrev R.PW_WAKEREC_W0 (i : Nat) : Nat := 0xa000400 + 0x20 * i
abbrev F.PW_WAKEREC_W0_SOURCE (i : Nat) : Fld := ⟨0xa000400 + 0x20 * i, 0, 4, 18⟩
abbrev F.PW_WAKEREC_W0_UNIT (i : Nat) : Fld := ⟨0xa000400 + 0x20 * i, 4, 6, 18⟩
abbrev F.PW_WAKEREC_W0_FOLD_LATE (i : Nat) : Fld := ⟨0xa000400 + 0x20 * i, 10, 1, 18⟩
abbrev F.PW_WAKEREC_W0_ENFORCED_LATE (i : Nat) : Fld := ⟨0xa000400 + 0x20 * i, 11, 1, 18⟩
abbrev F.PW_WAKEREC_W0_IN_LISTEN (i : Nat) : Fld := ⟨0xa000400 + 0x20 * i, 12, 1, 18⟩
abbrev F.PW_WAKEREC_W0_VALID (i : Nat) : Fld := ⟨0xa000400 + 0x20 * i, 13, 1, 18⟩
abbrev F.PW_WAKEREC_W0_FALSE (i : Nat) : Fld := ⟨0xa000400 + 0x20 * i, 14, 1, 18⟩
abbrev F.PW_WAKEREC_W0_DOMAINS (i : Nat) : Fld := ⟨0xa000400 + 0x20 * i, 16, 16, 18⟩
/-- PW_WAKEREC_W1: 14_sleep_wake.md, R424. -/
abbrev R.PW_WAKEREC_W1 (i : Nat) : Nat := 0xa000404 + 0x20 * i
abbrev F.PW_WAKEREC_W1_ID (i : Nat) : Fld := ⟨0xa000404 + 0x20 * i, 0, 32, 18⟩
/-- PW_WAKEREC_W2: 14_sleep_wake.md, R424. -/
abbrev R.PW_WAKEREC_W2 (i : Nat) : Nat := 0xa000408 + 0x20 * i
abbrev F.PW_WAKEREC_W2_ID (i : Nat) : Fld := ⟨0xa000408 + 0x20 * i, 0, 16, 18⟩
/-- PW_WAKEREC_W3: 14_sleep_wake.md, R424. -/
abbrev R.PW_WAKEREC_W3 (i : Nat) : Nat := 0xa00040c + 0x20 * i
abbrev F.PW_WAKEREC_W3_RTC_SEC (i : Nat) : Fld := ⟨0xa00040c + 0x20 * i, 0, 32, 18⟩
/-- PW_WAKEREC_W4: 14_sleep_wake.md, R424. -/
abbrev R.PW_WAKEREC_W4 (i : Nat) : Nat := 0xa000410 + 0x20 * i
abbrev F.PW_WAKEREC_W4_RTC_SEC (i : Nat) : Fld := ⟨0xa000410 + 0x20 * i, 0, 16, 18⟩
abbrev F.PW_WAKEREC_W4_RTC_SUB (i : Nat) : Fld := ⟨0xa000410 + 0x20 * i, 16, 15, 18⟩
/-- PW_WAKEREC_W5: 14_sleep_wake.md, R424. -/
abbrev R.PW_WAKEREC_W5 (i : Nat) : Nat := 0xa000414 + 0x20 * i
abbrev F.PW_WAKEREC_W5_NS (i : Nat) : Fld := ⟨0xa000414 + 0x20 * i, 0, 30, 18⟩
/-- PW_WAKEREC_W6: 14_sleep_wake.md, R424. -/
abbrev R.PW_WAKEREC_W6 (i : Nat) : Nat := 0xa000418 + 0x20 * i
abbrev F.PW_WAKEREC_W6_SEC (i : Nat) : Fld := ⟨0xa000418 + 0x20 * i, 0, 32, 18⟩
/-- PW_WAKEREC_W7: 14_sleep_wake.md, R424. -/
abbrev R.PW_WAKEREC_W7 (i : Nat) : Nat := 0xa00041c + 0x20 * i
abbrev F.PW_WAKEREC_W7_SEC (i : Nat) : Fld := ⟨0xa00041c + 0x20 * i, 0, 16, 18⟩
abbrev F.PW_WAKEREC_W7_TI (i : Nat) : Fld := ⟨0xa00041c + 0x20 * i, 16, 2, 18⟩
abbrev F.PW_WAKEREC_W7_TI_VALID (i : Nat) : Fld := ⟨0xa00041c + 0x20 * i, 31, 1, 18⟩
/-- PW_OUT_CFG: 15_load_switches.md, R444. -/
abbrev R.PW_OUT_CFG (i : Nat) : Nat := 0xa001000 + 0x40 * i
abbrev F.PW_OUT_CFG_ON (i : Nat) : Fld := ⟨0xa001000 + 0x40 * i, 0, 1, 13⟩
abbrev F.PW_OUT_CFG_WIRE (i : Nat) : Fld := ⟨0xa001000 + 0x40 * i, 1, 3, 13⟩
abbrev F.PW_OUT_CFG_INRUSH_K (i : Nat) : Fld := ⟨0xa001000 + 0x40 * i, 4, 2, 13⟩
abbrev F.PW_OUT_CFG_INRUSH_T (i : Nat) : Fld := ⟨0xa001000 + 0x40 * i, 8, 9, 13⟩
abbrev F.PW_OUT_CFG_SCORCH (i : Nat) : Fld := ⟨0xa001000 + 0x40 * i, 18, 2, 13⟩
abbrev F.PW_OUT_CFG_RETRY_CNT (i : Nat) : Fld := ⟨0xa001000 + 0x40 * i, 20, 4, 13⟩
abbrev F.PW_OUT_CFG_RETRY_DLY (i : Nat) : Fld := ⟨0xa001000 + 0x40 * i, 24, 5, 13⟩
abbrev F.PW_OUT_CFG_FAILSAFE (i : Nat) : Fld := ⟨0xa001000 + 0x40 * i, 29, 1, 13⟩
abbrev F.PW_OUT_CFG_SHED (i : Nat) : Fld := ⟨0xa001000 + 0x40 * i, 30, 1, 13⟩
/-- PW_LS_CFG: 15_load_switches.md, R445. -/
abbrev R.PW_LS_CFG : Nat := 0xa001400
abbrev F.PW_LS_CFG_HOLD_T : Fld := ⟨0xa001400, 0, 8, 13⟩
/-- PW_LS_STAT: 15_load_switches.md, R445. -/
abbrev R.PW_LS_STAT : Nat := 0xa001404
abbrev F.PW_LS_STAT_TOTAL : Fld := ⟨0xa001404, 0, 16, 18⟩
abbrev F.PW_LS_STAT_HOLD_EXPIRED : Fld := ⟨0xa001404, 16, 1, 18⟩
abbrev F.PW_LS_STAT_LAST_REENABLE : Fld := ⟨0xa001404, 17, 2, 18⟩
abbrev F.PW_LS_STAT_LINK_AGE : Fld := ⟨0xa001404, 24, 8, 18⟩
/-- PW_SENSE_SEL: 15_load_switches.md, R445. -/
abbrev R.PW_SENSE_SEL : Nat := 0xa001408
abbrev F.PW_SENSE_SEL_CH : Fld := ⟨0xa001408, 0, 4, 18⟩
abbrev F.PW_SENSE_SEL_EN : Fld := ⟨0xa001408, 4, 1, 18⟩
/-- PW_LS_DISS: 15_load_switches.md, R445. -/
abbrev R.PW_LS_DISS : Nat := 0xa00140c
abbrev F.PW_LS_DISS_MW : Fld := ⟨0xa00140c, 0, 16, 18⟩
/-- PW_OUT_CMD: 15_load_switches.md, R445. -/
abbrev R.PW_OUT_CMD : Nat := 0xa001410
abbrev F.PW_OUT_CMD_CH : Fld := ⟨0xa001410, 0, 4, 18⟩
abbrev F.PW_OUT_CMD_REENABLE : Fld := ⟨0xa001410, 8, 1, 18⟩
/-- PW_LS_EV_LAST: 15_load_switches.md, R445. -/
abbrev R.PW_LS_EV_LAST : Nat := 0xa001414
abbrev F.PW_LS_EV_LAST_CH : Fld := ⟨0xa001414, 0, 4, 18⟩
/-- PW_OUT_STAT: 15_load_switches.md, R446. -/
abbrev R.PW_OUT_STAT (i : Nat) : Nat := 0xa001004 + 0x40 * i
abbrev F.PW_OUT_STAT_STATE (i : Nat) : Fld := ⟨0xa001004 + 0x40 * i, 0, 3, 18⟩
abbrev F.PW_OUT_STAT_CAUSE (i : Nat) : Fld := ⟨0xa001004 + 0x40 * i, 4, 3, 18⟩
abbrev F.PW_OUT_STAT_THERM_LATCH (i : Nat) : Fld := ⟨0xa001004 + 0x40 * i, 7, 1, 18⟩
abbrev F.PW_OUT_STAT_RETRIES_USED (i : Nat) : Fld := ⟨0xa001004 + 0x40 * i, 8, 4, 18⟩
abbrev F.PW_OUT_STAT_SENSE (i : Nat) : Fld := ⟨0xa001004 + 0x40 * i, 16, 12, 18⟩
/-- PW_OUT_TEMP: 15_load_switches.md, R446. -/
abbrev R.PW_OUT_TEMP (i : Nat) : Nat := 0xa001008 + 0x40 * i
abbrev F.PW_OUT_TEMP_DT (i : Nat) : Fld := ⟨0xa001008 + 0x40 * i, 0, 8, 18⟩
abbrev F.PW_OUT_TEMP_TJ (i : Nat) : Fld := ⟨0xa001008 + 0x40 * i, 16, 8, 18⟩
/-- PW_OUT_E: 15_load_switches.md, R446. -/
abbrev R.PW_OUT_E (i : Nat) : Nat := 0xa00100c + 0x40 * i
abbrev F.PW_OUT_E_E (i : Nat) : Fld := ⟨0xa00100c + 0x40 * i, 0, 16, 18⟩
/-- PW_OUT_TRIPS: 15_load_switches.md, R446. -/
abbrev R.PW_OUT_TRIPS (i : Nat) : Nat := 0xa001010 + 0x40 * i
abbrev F.PW_OUT_TRIPS_COUNT (i : Nat) : Fld := ⟨0xa001010 + 0x40 * i, 0, 32, 18⟩
/-- PW_OUT_RETRIES: 15_load_switches.md, R446. -/
abbrev R.PW_OUT_RETRIES (i : Nat) : Nat := 0xa001014 + 0x40 * i
abbrev F.PW_OUT_RETRIES_COUNT (i : Nat) : Fld := ⟨0xa001014 + 0x40 * i, 0, 32, 18⟩
/-- CX_CORE_CFG: 16_compute_memory_bridge.md, R471. -/
abbrev R.CX_CORE_CFG : Nat := 0x8000000
abbrev F.CX_CORE_CFG_CORES : Fld := ⟨0x8000000, 0, 8, 14⟩
abbrev F.CX_CORE_CFG_BOOT_SRC : Fld := ⟨0x8000000, 8, 1, 14⟩
abbrev F.CX_CORE_CFG_OPP_TOP : Fld := ⟨0x8000000, 12, 2, 14⟩
abbrev F.CX_CORE_CFG_OFFLINE_GRACE : Fld := ⟨0x8000000, 16, 8, 14⟩
/-- CX_BOOT_CFG: 16_compute_memory_bridge.md, R471. -/
abbrev R.CX_BOOT_CFG : Nat := 0x8000004
abbrev F.CX_BOOT_CFG_IMG_SECTOR : Fld := ⟨0x8000004, 0, 16, 14⟩
abbrev F.CX_BOOT_CFG_IMG_SIZE : Fld := ⟨0x8000004, 16, 9, 14⟩
/-- CX_CORE_STAT: 16_compute_memory_bridge.md, R471. -/
abbrev R.CX_CORE_STAT : Nat := 0x8000010
abbrev F.CX_CORE_STAT_RUN : Fld := ⟨0x8000010, 0, 8, 18⟩
abbrev F.CX_CORE_STAT_OFFLINE : Fld := ⟨0x8000010, 8, 8, 18⟩
abbrev F.CX_CORE_STAT_OFF_REQ : Fld := ⟨0x8000010, 16, 8, 18⟩
abbrev F.CX_CORE_STAT_IMG_DONE : Fld := ⟨0x8000010, 24, 1, 18⟩
abbrev F.CX_CORE_STAT_IMG_ERR : Fld := ⟨0x8000010, 25, 1, 18⟩
/-- CX_CORE_START: 16_compute_memory_bridge.md, R471. -/
abbrev R.CX_CORE_START : Nat := 0x8000014
abbrev F.CX_CORE_START_CORES : Fld := ⟨0x8000014, 0, 8, 18⟩
/-- CX_DVFS: 16_compute_memory_bridge.md, R471. -/
abbrev R.CX_DVFS : Nat := 0x8000020
abbrev F.CX_DVFS_REQ : Fld := ⟨0x8000020, 0, 2, 18⟩
abbrev F.CX_DVFS_CUR : Fld := ⟨0x8000020, 8, 2, 18⟩
abbrev F.CX_DVFS_BUSY : Fld := ⟨0x8000020, 12, 1, 18⟩
/-- CX_DVFS_CFG: 16_compute_memory_bridge.md, R471. -/
abbrev R.CX_DVFS_CFG : Nat := 0x8000024
abbrev F.CX_DVFS_CFG_SETTLE : Fld := ⟨0x8000024, 0, 8, 14⟩
/-- CX_OFFLINE_FORCED: 16_compute_memory_bridge.md, R471. -/
abbrev R.CX_OFFLINE_FORCED : Nat := 0x8000028
abbrev F.CX_OFFLINE_FORCED_COUNT : Fld := ⟨0x8000028, 0, 32, 18⟩
/-- CX_L3_WAYS: 16_compute_memory_bridge.md, R471. -/
abbrev R.CX_L3_WAYS (i : Nat) : Nat := 0x8000040 + 4 * i
abbrev F.CX_L3_WAYS_WAYS (i : Nat) : Fld := ⟨0x8000040 + 4 * i, 0, 16, 14⟩
/-- CX_PMU_SEL: 16_compute_memory_bridge.md, R471. -/
abbrev R.CX_PMU_SEL (i j : Nat) : Nat := 0x8010000 + 0x400 * i + 4 * j
abbrev F.CX_PMU_SEL_EVENT (i j : Nat) : Fld := ⟨0x8010000 + 0x400 * i + 4 * j, 0, 8, 18⟩
abbrev F.CX_PMU_SEL_THRESH_EN (i j : Nat) : Fld := ⟨0x8010000 + 0x400 * i + 4 * j, 8, 1, 18⟩
abbrev F.CX_PMU_SEL_N (i j : Nat) : Fld := ⟨0x8010000 + 0x400 * i + 4 * j, 16, 8, 18⟩
abbrev F.CX_PMU_SEL_EN (i j : Nat) : Fld := ⟨0x8010000 + 0x400 * i + 4 * j, 24, 1, 18⟩
/-- CX_PMU_CNT: 16_compute_memory_bridge.md, R471. -/
abbrev R.CX_PMU_CNT (i j : Nat) : Nat := 0x8010040 + 0x400 * i + 8 * j
abbrev F.CX_PMU_CNT_COUNT (i j : Nat) : Fld := ⟨0x8010040 + 0x400 * i + 8 * j, 0, 32, 18⟩
/-- CX_TD: 16_compute_memory_bridge.md, R471. -/
abbrev R.CX_TD (i j : Nat) : Nat := 0x8010080 + 0x400 * i + 8 * j
abbrev F.CX_TD_COUNT (i j : Nat) : Fld := ⟨0x8010080 + 0x400 * i + 8 * j, 0, 32, 18⟩
/-- CX_TAG_CFG: 16_compute_memory_bridge.md, R471. -/
abbrev R.CX_TAG_CFG (i : Nat) : Nat := 0x80100c0 + 0x400 * i
abbrev F.CX_TAG_CFG_K (i : Nat) : Fld := ⟨0x80100c0 + 0x400 * i, 0, 5, 18⟩
abbrev F.CX_TAG_CFG_EN (i : Nat) : Fld := ⟨0x80100c0 + 0x400 * i, 8, 1, 18⟩
/-- CX_TAG_STAT: 16_compute_memory_bridge.md, R471. -/
abbrev R.CX_TAG_STAT (i : Nat) : Nat := 0x80100c4 + 0x400 * i
abbrev F.CX_TAG_STAT_COUNT (i : Nat) : Fld := ⟨0x80100c4 + 0x400 * i, 0, 5, 18⟩
abbrev F.CX_TAG_STAT_LOST (i : Nat) : Fld := ⟨0x80100c4 + 0x400 * i, 16, 16, 18⟩
/-- CX_TAG_POP: 16_compute_memory_bridge.md, R471. -/
abbrev R.CX_TAG_POP (i : Nat) : Nat := 0x80100c8 + 0x400 * i
abbrev F.CX_TAG_POP_POP (i : Nat) : Fld := ⟨0x80100c8 + 0x400 * i, 0, 1, 18⟩
/-- CX_TAG_REC: 16_compute_memory_bridge.md, R471. -/
abbrev R.CX_TAG_REC (i j : Nat) : Nat := 0x8010100 + 0x400 * i + 4 * j
abbrev F.CX_TAG_REC_W (i j : Nat) : Fld := ⟨0x8010100 + 0x400 * i + 4 * j, 0, 32, 18⟩
/-- CX_HP_CFG: 16_compute_memory_bridge.md, R472. -/
abbrev R.CX_HP_CFG (i : Nat) : Nat := 0x8100000 + 0x10000 * i
abbrev F.CX_HP_CFG_EN (i : Nat) : Fld := ⟨0x8100000 + 0x10000 * i, 0, 1, 14⟩
abbrev F.CX_HP_CFG_EAPOL_EN (i : Nat) : Fld := ⟨0x8100000 + 0x10000 * i, 1, 1, 14⟩
abbrev F.CX_HP_CFG_EAPOL_RING (i : Nat) : Fld := ⟨0x8100000 + 0x10000 * i, 2, 6, 14⟩
abbrev F.CX_HP_CFG_HASH_FIELDS (i : Nat) : Fld := ⟨0x8100000 + 0x10000 * i, 16, 11, 14⟩
/-- CX_HP_SEED: 16_compute_memory_bridge.md, R472. -/
abbrev R.CX_HP_SEED (i : Nat) : Nat := 0x8100004 + 0x10000 * i
abbrev F.CX_HP_SEED_SEED (i : Nat) : Fld := ⟨0x8100004 + 0x10000 * i, 0, 32, 14⟩
/-- CX_HP_RXMAP: 16_compute_memory_bridge.md, R472. -/
abbrev R.CX_HP_RXMAP (i j : Nat) : Nat := 0x8100010 + 0x10000 * i + 4 * j
abbrev F.CX_HP_RXMAP_FIRST (i j : Nat) : Fld := ⟨0x8100010 + 0x10000 * i + 4 * j, 0, 6, 14⟩
abbrev F.CX_HP_RXMAP_SPREAD (i j : Nat) : Fld := ⟨0x8100010 + 0x10000 * i + 4 * j, 6, 3, 14⟩
/-- CX_HP_RX_BASE_LO: 16_compute_memory_bridge.md, R472. -/
abbrev R.CX_HP_RX_BASE_LO (i j : Nat) : Nat := 0x8101000 + 0x10000 * i + 0x20 * j
abbrev F.CX_HP_RX_BASE_LO_BASE (i j : Nat) : Fld := ⟨0x8101000 + 0x10000 * i + 0x20 * j, 12, 20, 14⟩
/-- CX_HP_RX_BASE_HI: 16_compute_memory_bridge.md, R472. -/
abbrev R.CX_HP_RX_BASE_HI (i j : Nat) : Nat := 0x8101004 + 0x10000 * i + 0x20 * j
abbrev F.CX_HP_RX_BASE_HI_BASE (i j : Nat) : Fld := ⟨0x8101004 + 0x10000 * i + 0x20 * j, 0, 8, 14⟩
/-- CX_HP_RX_CFG: 16_compute_memory_bridge.md, R472. -/
abbrev R.CX_HP_RX_CFG (i j : Nat) : Nat := 0x8101008 + 0x10000 * i + 0x20 * j
abbrev F.CX_HP_RX_CFG_SIZE (i j : Nat) : Fld := ⟨0x8101008 + 0x10000 * i + 0x20 * j, 0, 4, 14⟩
abbrev F.CX_HP_RX_CFG_BUF (i j : Nat) : Fld := ⟨0x8101008 + 0x10000 * i + 0x20 * j, 8, 6, 14⟩
abbrev F.CX_HP_RX_CFG_EN (i j : Nat) : Fld := ⟨0x8101008 + 0x10000 * i + 0x20 * j, 16, 1, 14⟩
abbrev F.CX_HP_RX_CFG_COAL_FRAMES (i j : Nat) : Fld := ⟨0x8101008 + 0x10000 * i + 0x20 * j, 24, 8, 14⟩
/-- CX_HP_RX_COAL: 16_compute_memory_bridge.md, R472. -/
abbrev R.CX_HP_RX_COAL (i j : Nat) : Nat := 0x810100c + 0x10000 * i + 0x20 * j
abbrev F.CX_HP_RX_COAL_COAL_US (i j : Nat) : Fld := ⟨0x810100c + 0x10000 * i + 0x20 * j, 0, 16, 14⟩
/-- CX_HP_RX_TAIL: 16_compute_memory_bridge.md, R472. -/
abbrev R.CX_HP_RX_TAIL (i j : Nat) : Nat := 0x8101010 + 0x10000 * i + 0x20 * j
abbrev F.CX_HP_RX_TAIL_TAIL (i j : Nat) : Fld := ⟨0x8101010 + 0x10000 * i + 0x20 * j, 0, 16, 18⟩
/-- CX_HP_RX_HEAD: 16_compute_memory_bridge.md, R472. -/
abbrev R.CX_HP_RX_HEAD (i j : Nat) : Nat := 0x8101014 + 0x10000 * i + 0x20 * j
abbrev F.CX_HP_RX_HEAD_HEAD (i j : Nat) : Fld := ⟨0x8101014 + 0x10000 * i + 0x20 * j, 0, 16, 18⟩
/-- CX_HP_TX_BASE_LO: 16_compute_memory_bridge.md, R472. -/
abbrev R.CX_HP_TX_BASE_LO (i j : Nat) : Nat := 0x8102000 + 0x10000 * i + 0x20 * j
abbrev F.CX_HP_TX_BASE_LO_BASE (i j : Nat) : Fld := ⟨0x8102000 + 0x10000 * i + 0x20 * j, 12, 20, 14⟩
/-- CX_HP_TX_BASE_HI: 16_compute_memory_bridge.md, R472. -/
abbrev R.CX_HP_TX_BASE_HI (i j : Nat) : Nat := 0x8102004 + 0x10000 * i + 0x20 * j
abbrev F.CX_HP_TX_BASE_HI_BASE (i j : Nat) : Fld := ⟨0x8102004 + 0x10000 * i + 0x20 * j, 0, 8, 14⟩
/-- CX_HP_TX_CFG: 16_compute_memory_bridge.md, R472. -/
abbrev R.CX_HP_TX_CFG (i j : Nat) : Nat := 0x8102008 + 0x10000 * i + 0x20 * j
abbrev F.CX_HP_TX_CFG_SIZE (i j : Nat) : Fld := ⟨0x8102008 + 0x10000 * i + 0x20 * j, 0, 4, 14⟩
abbrev F.CX_HP_TX_CFG_TC (i j : Nat) : Fld := ⟨0x8102008 + 0x10000 * i + 0x20 * j, 8, 3, 14⟩
abbrev F.CX_HP_TX_CFG_EN (i j : Nat) : Fld := ⟨0x8102008 + 0x10000 * i + 0x20 * j, 16, 1, 14⟩
abbrev F.CX_HP_TX_CFG_DIRECT_OK (i j : Nat) : Fld := ⟨0x8102008 + 0x10000 * i + 0x20 * j, 17, 1, 14⟩
abbrev F.CX_HP_TX_CFG_COAL_FRAMES (i j : Nat) : Fld := ⟨0x8102008 + 0x10000 * i + 0x20 * j, 24, 8, 14⟩
/-- CX_HP_TX_COAL: 16_compute_memory_bridge.md, R472. -/
abbrev R.CX_HP_TX_COAL (i j : Nat) : Nat := 0x810200c + 0x10000 * i + 0x20 * j
abbrev F.CX_HP_TX_COAL_COAL_US (i j : Nat) : Fld := ⟨0x810200c + 0x10000 * i + 0x20 * j, 0, 16, 14⟩
/-- CX_HP_TX_TAIL: 16_compute_memory_bridge.md, R472. -/
abbrev R.CX_HP_TX_TAIL (i j : Nat) : Nat := 0x8102010 + 0x10000 * i + 0x20 * j
abbrev F.CX_HP_TX_TAIL_TAIL (i j : Nat) : Fld := ⟨0x8102010 + 0x10000 * i + 0x20 * j, 0, 16, 18⟩
/-- CX_HP_TX_HEAD: 16_compute_memory_bridge.md, R472. -/
abbrev R.CX_HP_TX_HEAD (i j : Nat) : Nat := 0x8102014 + 0x10000 * i + 0x20 * j
abbrev F.CX_HP_TX_HEAD_HEAD (i j : Nat) : Fld := ⟨0x8102014 + 0x10000 * i + 0x20 * j, 0, 16, 18⟩
/-- CX_HP_RXPEND: 16_compute_memory_bridge.md, R472. -/
abbrev R.CX_HP_RXPEND (i j : Nat) : Nat := 0x8100100 + 0x10000 * i + 4 * j
abbrev F.CX_HP_RXPEND_RINGS (i j : Nat) : Fld := ⟨0x8100100 + 0x10000 * i + 4 * j, 0, 32, 18⟩
/-- CX_HP_TXPEND: 16_compute_memory_bridge.md, R472. -/
abbrev R.CX_HP_TXPEND (i j : Nat) : Nat := 0x8100108 + 0x10000 * i + 4 * j
abbrev F.CX_HP_TXPEND_RINGS (i j : Nat) : Fld := ⟨0x8100108 + 0x10000 * i + 4 * j, 0, 32, 18⟩
/-- CX_HP_ERRPEND: 16_compute_memory_bridge.md, R472. -/
abbrev R.CX_HP_ERRPEND (i j : Nat) : Nat := 0x8100110 + 0x10000 * i + 4 * j
abbrev F.CX_HP_ERRPEND_RINGS (i j : Nat) : Fld := ⟨0x8100110 + 0x10000 * i + 4 * j, 0, 32, 18⟩
/-- HP_RX_FRAMES: 16_compute_memory_bridge.md, R472. -/
abbrev R.HP_RX_FRAMES (i : Nat) : Nat := 0x8100200 + 0x10000 * i
abbrev F.HP_RX_FRAMES_COUNT (i : Nat) : Fld := ⟨0x8100200 + 0x10000 * i, 0, 32, 18⟩
/-- HP_RX_NOBUF: 16_compute_memory_bridge.md, R472. -/
abbrev R.HP_RX_NOBUF (i : Nat) : Nat := 0x8100204 + 0x10000 * i
abbrev F.HP_RX_NOBUF_COUNT (i : Nat) : Fld := ⟨0x8100204 + 0x10000 * i, 0, 32, 18⟩
/-- HP_RX_NORING: 16_compute_memory_bridge.md, R472. -/
abbrev R.HP_RX_NORING (i : Nat) : Nat := 0x8100208 + 0x10000 * i
abbrev F.HP_RX_NORING_COUNT (i : Nat) : Fld := ⟨0x8100208 + 0x10000 * i, 0, 32, 18⟩
/-- HP_TX_FRAMES: 16_compute_memory_bridge.md, R472. -/
abbrev R.HP_TX_FRAMES (i : Nat) : Nat := 0x810020c + 0x10000 * i
abbrev F.HP_TX_FRAMES_COUNT (i : Nat) : Fld := ⟨0x810020c + 0x10000 * i, 0, 32, 18⟩
/-- HP_TX_BADDESC: 16_compute_memory_bridge.md, R472. -/
abbrev R.HP_TX_BADDESC (i : Nat) : Nat := 0x8100210 + 0x10000 * i
abbrev F.HP_TX_BADDESC_COUNT (i : Nat) : Fld := ⟨0x8100210 + 0x10000 * i, 0, 32, 18⟩
/-- HP_RING_UE: 16_compute_memory_bridge.md, R472. -/
abbrev R.HP_RING_UE (i : Nat) : Nat := 0x8100214 + 0x10000 * i
abbrev F.HP_RING_UE_COUNT (i : Nat) : Fld := ⟨0x8100214 + 0x10000 * i, 0, 32, 18⟩
/-- MX_DRAM_STAT: 16_compute_memory_bridge.md, R473. -/
abbrev R.MX_DRAM_STAT : Nat := 0x9000000
abbrev F.MX_DRAM_STAT_TRAINED : Fld := ⟨0x9000000, 0, 1, 18⟩
abbrev F.MX_DRAM_STAT_ZEROED : Fld := ⟨0x9000000, 1, 1, 18⟩
abbrev F.MX_DRAM_STAT_SELF_REFRESH : Fld := ⟨0x9000000, 2, 1, 18⟩
/-- MX_ARB_W_0: 16_compute_memory_bridge.md, R473. -/
abbrev R.MX_ARB_W_0 : Nat := 0x9000100
abbrev F.MX_ARB_W_0_HOST : Fld := ⟨0x9000100, 0, 8, 15⟩
abbrev F.MX_ARB_W_0_HAMPER : Fld := ⟨0x9000100, 8, 8, 15⟩
abbrev F.MX_ARB_W_0_OB : Fld := ⟨0x9000100, 16, 8, 15⟩
abbrev F.MX_ARB_W_0_PCIE : Fld := ⟨0x9000100, 24, 8, 15⟩
/-- MX_ARB_W_1: 16_compute_memory_bridge.md, R473. -/
abbrev R.MX_ARB_W_1 : Nat := 0x9000104
abbrev F.MX_ARB_W_1_CORES : Fld := ⟨0x9000104, 0, 8, 15⟩
/-- MX_SCRUB_CFG: 16_compute_memory_bridge.md, R473. -/
abbrev R.MX_SCRUB_CFG : Nat := 0x9000110
abbrev F.MX_SCRUB_CFG_PERIOD : Fld := ⟨0x9000110, 0, 8, 15⟩
/-- MX_DRAM_CE: 16_compute_memory_bridge.md, R473. -/
abbrev R.MX_DRAM_CE : Nat := 0x9000200
abbrev F.MX_DRAM_CE_COUNT : Fld := ⟨0x9000200, 0, 32, 18⟩
/-- MX_DRAM_UE: 16_compute_memory_bridge.md, R473. -/
abbrev R.MX_DRAM_UE : Nat := 0x9000204
abbrev F.MX_DRAM_UE_COUNT : Fld := ⟨0x9000204, 0, 32, 18⟩
/-- MX_DRAM_UE_ADDR_LO: 16_compute_memory_bridge.md, R473. -/
abbrev R.MX_DRAM_UE_ADDR_LO : Nat := 0x9000208
abbrev F.MX_DRAM_UE_ADDR_LO_ADDR : Fld := ⟨0x9000208, 0, 32, 18⟩
/-- MX_DRAM_UE_ADDR_HI: 16_compute_memory_bridge.md, R473. -/
abbrev R.MX_DRAM_UE_ADDR_HI : Nat := 0x900020c
abbrev F.MX_DRAM_UE_ADDR_HI_ADDR : Fld := ⟨0x900020c, 0, 32, 18⟩
/-- MX_ARB_BYTES: 16_compute_memory_bridge.md, R473. -/
abbrev R.MX_ARB_BYTES (i : Nat) : Nat := 0x9000300 + 8 * i
abbrev F.MX_ARB_BYTES_BYTES (i : Nat) : Fld := ⟨0x9000300 + 8 * i, 0, 32, 18⟩
/-- MX_HB_OWIN_LBASE: 16_compute_memory_bridge.md, R473. -/
abbrev R.MX_HB_OWIN_LBASE (i : Nat) : Nat := 0x9100000 + 0x20 * i
abbrev F.MX_HB_OWIN_LBASE_LBASE (i : Nat) : Fld := ⟨0x9100000 + 0x20 * i, 12, 17, 16⟩
/-- MX_HB_OWIN_LSIZE: 16_compute_memory_bridge.md, R473. -/
abbrev R.MX_HB_OWIN_LSIZE (i : Nat) : Nat := 0x9100004 + 0x20 * i
abbrev F.MX_HB_OWIN_LSIZE_LSIZE (i : Nat) : Fld := ⟨0x9100004 + 0x20 * i, 0, 5, 16⟩
/-- MX_HB_OWIN_PBASE_LO: 16_compute_memory_bridge.md, R473. -/
abbrev R.MX_HB_OWIN_PBASE_LO (i : Nat) : Nat := 0x9100008 + 0x20 * i
abbrev F.MX_HB_OWIN_PBASE_LO_PBASE (i : Nat) : Fld := ⟨0x9100008 + 0x20 * i, 12, 20, 16⟩
/-- MX_HB_OWIN_PBASE_HI: 16_compute_memory_bridge.md, R473. -/
abbrev R.MX_HB_OWIN_PBASE_HI (i : Nat) : Nat := 0x910000c + 0x20 * i
abbrev F.MX_HB_OWIN_PBASE_HI_PBASE (i : Nat) : Fld := ⟨0x910000c + 0x20 * i, 0, 32, 16⟩
/-- MX_HB_OWIN_ATTR: 16_compute_memory_bridge.md, R473. -/
abbrev R.MX_HB_OWIN_ATTR (i : Nat) : Nat := 0x9100010 + 0x20 * i
abbrev F.MX_HB_OWIN_ATTR_EN (i : Nat) : Fld := ⟨0x9100010 + 0x20 * i, 0, 1, 16⟩
abbrev F.MX_HB_OWIN_ATTR_PREFETCH (i : Nat) : Fld := ⟨0x9100010 + 0x20 * i, 1, 1, 16⟩
abbrev F.MX_HB_OWIN_ATTR_POSTED (i : Nat) : Fld := ⟨0x9100010 + 0x20 * i, 2, 1, 16⟩
abbrev F.MX_HB_OWIN_ATTR_SWAP (i : Nat) : Fld := ⟨0x9100010 + 0x20 * i, 3, 2, 16⟩
abbrev F.MX_HB_OWIN_ATTR_WIDTH (i : Nat) : Fld := ⟨0x9100010 + 0x20 * i, 5, 2, 16⟩
abbrev F.MX_HB_OWIN_ATTR_DEPTH (i : Nat) : Fld := ⟨0x9100010 + 0x20 * i, 8, 3, 16⟩
abbrev F.MX_HB_OWIN_ATTR_FENCE_ON_FAIL (i : Nat) : Fld := ⟨0x9100010 + 0x20 * i, 11, 1, 16⟩
/-- MX_HB_IWIN_IBASE_LO: 16_compute_memory_bridge.md, R473. -/
abbrev R.MX_HB_IWIN_IBASE_LO (i : Nat) : Nat := 0x9110000 + 0x20 * i
abbrev F.MX_HB_IWIN_IBASE_LO_IBASE (i : Nat) : Fld := ⟨0x9110000 + 0x20 * i, 12, 20, 16⟩
/-- MX_HB_IWIN_IBASE_HI: 16_compute_memory_bridge.md, R473. -/
abbrev R.MX_HB_IWIN_IBASE_HI (i : Nat) : Nat := 0x9110004 + 0x20 * i
abbrev F.MX_HB_IWIN_IBASE_HI_IBASE (i : Nat) : Fld := ⟨0x9110004 + 0x20 * i, 0, 32, 16⟩
/-- MX_HB_IWIN_SIZE: 16_compute_memory_bridge.md, R473. -/
abbrev R.MX_HB_IWIN_SIZE (i : Nat) : Nat := 0x9110008 + 0x20 * i
abbrev F.MX_HB_IWIN_SIZE_SIZE (i : Nat) : Fld := ⟨0x9110008 + 0x20 * i, 0, 6, 16⟩
abbrev F.MX_HB_IWIN_SIZE_EN (i : Nat) : Fld := ⟨0x9110008 + 0x20 * i, 8, 1, 16⟩
/-- MX_HB_IWIN_LADDR_LO: 16_compute_memory_bridge.md, R473. -/
abbrev R.MX_HB_IWIN_LADDR_LO (i : Nat) : Nat := 0x911000c + 0x20 * i
abbrev F.MX_HB_IWIN_LADDR_LO_LADDR (i : Nat) : Fld := ⟨0x911000c + 0x20 * i, 12, 20, 16⟩
/-- MX_HB_IWIN_LADDR_HI: 16_compute_memory_bridge.md, R473. -/
abbrev R.MX_HB_IWIN_LADDR_HI (i : Nat) : Nat := 0x9110010 + 0x20 * i
abbrev F.MX_HB_IWIN_LADDR_HI_LADDR (i : Nat) : Fld := ⟨0x9110010 + 0x20 * i, 0, 8, 16⟩
/-- MX_HB_CFG: 16_compute_memory_bridge.md, R473. -/
abbrev R.MX_HB_CFG : Nat := 0x9101000
abbrev F.MX_HB_CFG_BAR2_SIZE : Fld := ⟨0x9101000, 0, 6, 16⟩
abbrev F.MX_HB_CFG_MAX_GEN : Fld := ⟨0x9101000, 8, 2, 16⟩
/-- MX_HB_STAT: 16_compute_memory_bridge.md, R473. -/
abbrev R.MX_HB_STAT : Nat := 0x9101004
abbrev F.MX_HB_STAT_ROOT : Fld := ⟨0x9101004, 0, 1, 18⟩
abbrev F.MX_HB_STAT_LINK_UP : Fld := ⟨0x9101004, 1, 1, 18⟩
abbrev F.MX_HB_STAT_GEN : Fld := ⟨0x9101004, 2, 3, 18⟩
abbrev F.MX_HB_STAT_WIDTH : Fld := ⟨0x9101004, 5, 3, 18⟩
abbrev F.MX_HB_STAT_FENCED : Fld := ⟨0x9101004, 16, 16, 18⟩
/-- MX_HB_FENCE_CLR: 16_compute_memory_bridge.md, R473. -/
abbrev R.MX_HB_FENCE_CLR : Nat := 0x9101008
abbrev F.MX_HB_FENCE_CLR_WINDOWS : Fld := ⟨0x9101008, 0, 16, 18⟩
/-- MX_HB_ERR_HEAD: 16_compute_memory_bridge.md, R473. -/
abbrev R.MX_HB_ERR_HEAD : Nat := 0x9101010
abbrev F.MX_HB_ERR_HEAD_NEXT : Fld := ⟨0x9101010, 0, 4, 18⟩
abbrev F.MX_HB_ERR_HEAD_TOTAL : Fld := ⟨0x9101010, 16, 16, 18⟩
/-- MX_HB_MSI_ADDR_LO: 16_compute_memory_bridge.md, R473. -/
abbrev R.MX_HB_MSI_ADDR_LO : Nat := 0x9101020
abbrev F.MX_HB_MSI_ADDR_LO_ADDR : Fld := ⟨0x9101020, 0, 32, 16⟩
/-- MX_HB_MSI_ADDR_HI: 16_compute_memory_bridge.md, R473. -/
abbrev R.MX_HB_MSI_ADDR_HI : Nat := 0x9101024
abbrev F.MX_HB_MSI_ADDR_HI_ADDR : Fld := ⟨0x9101024, 0, 32, 16⟩
/-- MX_HB_MSI_DATA: 16_compute_memory_bridge.md, R473. -/
abbrev R.MX_HB_MSI_DATA : Nat := 0x9101028
abbrev F.MX_HB_MSI_DATA_DATA : Fld := ⟨0x9101028, 0, 32, 18⟩
/-- MX_HB_MSI_VALID: 16_compute_memory_bridge.md, R473. -/
abbrev R.MX_HB_MSI_VALID : Nat := 0x910102c
abbrev F.MX_HB_MSI_VALID_VALID : Fld := ⟨0x910102c, 0, 1, 18⟩
/-- MX_HB_POSTED_FAIL: 16_compute_memory_bridge.md, R473. -/
abbrev R.MX_HB_POSTED_FAIL : Nat := 0x9101030
abbrev F.MX_HB_POSTED_FAIL_COUNT : Fld := ⟨0x9101030, 0, 32, 18⟩
/-- MX_HB_READ_FAIL: 16_compute_memory_bridge.md, R473. -/
abbrev R.MX_HB_READ_FAIL : Nat := 0x9101034
abbrev F.MX_HB_READ_FAIL_COUNT : Fld := ⟨0x9101034, 0, 32, 18⟩
/-- MX_HB_INB_ERR: 16_compute_memory_bridge.md, R473. -/
abbrev R.MX_HB_INB_ERR : Nat := 0x9101038
abbrev F.MX_HB_INB_ERR_COUNT : Fld := ⟨0x9101038, 0, 32, 18⟩
/-- MX_HB_SIZE_ERR: 16_compute_memory_bridge.md, R473. -/
abbrev R.MX_HB_SIZE_ERR : Nat := 0x910103c
abbrev F.MX_HB_SIZE_ERR_COUNT : Fld := ⟨0x910103c, 0, 32, 18⟩
/-- MX_HB_MSI_LOST: 16_compute_memory_bridge.md, R473. -/
abbrev R.MX_HB_MSI_LOST : Nat := 0x9101040
abbrev F.MX_HB_MSI_LOST_COUNT : Fld := ⟨0x9101040, 0, 32, 18⟩
/-- MX_HB_ERR_W0: 16_compute_memory_bridge.md, R473. -/
abbrev R.MX_HB_ERR_W0 (i : Nat) : Nat := 0x9101100 + 0x20 * i
abbrev F.MX_HB_ERR_W0_WINDOW (i : Nat) : Fld := ⟨0x9101100 + 0x20 * i, 0, 4, 18⟩
abbrev F.MX_HB_ERR_W0_INBOUND (i : Nat) : Fld := ⟨0x9101100 + 0x20 * i, 4, 1, 18⟩
abbrev F.MX_HB_ERR_W0_INIT (i : Nat) : Fld := ⟨0x9101100 + 0x20 * i, 8, 4, 18⟩
abbrev F.MX_HB_ERR_W0_CAUSE (i : Nat) : Fld := ⟨0x9101100 + 0x20 * i, 12, 4, 18⟩
/-- MX_HB_ERR_W1: 16_compute_memory_bridge.md, R473. -/
abbrev R.MX_HB_ERR_W1 (i : Nat) : Nat := 0x9101104 + 0x20 * i
abbrev F.MX_HB_ERR_W1_ADDR (i : Nat) : Fld := ⟨0x9101104 + 0x20 * i, 0, 32, 18⟩
/-- MX_HB_ERR_W2: 16_compute_memory_bridge.md, R473. -/
abbrev R.MX_HB_ERR_W2 (i : Nat) : Nat := 0x9101108 + 0x20 * i
abbrev F.MX_HB_ERR_W2_ADDR (i : Nat) : Fld := ⟨0x9101108 + 0x20 * i, 0, 32, 18⟩
/-- MX_HB_ERR_W3: 16_compute_memory_bridge.md, R473. -/
abbrev R.MX_HB_ERR_W3 (i : Nat) : Nat := 0x910110c + 0x20 * i
abbrev F.MX_HB_ERR_W3_NS (i : Nat) : Fld := ⟨0x910110c + 0x20 * i, 0, 30, 18⟩
/-- MX_HB_ERR_W4: 16_compute_memory_bridge.md, R473. -/
abbrev R.MX_HB_ERR_W4 (i : Nat) : Nat := 0x9101110 + 0x20 * i
abbrev F.MX_HB_ERR_W4_SEC (i : Nat) : Fld := ⟨0x9101110 + 0x20 * i, 0, 32, 18⟩
/-- MX_HB_ERR_W5: 16_compute_memory_bridge.md, R473. -/
abbrev R.MX_HB_ERR_W5 (i : Nat) : Nat := 0x9101114 + 0x20 * i
abbrev F.MX_HB_ERR_W5_SEC (i : Nat) : Fld := ⟨0x9101114 + 0x20 * i, 0, 16, 18⟩
/-- SV_UPD_CFG: 17_firmware_update.md, R489. -/
abbrev R.SV_UPD_CFG : Nat := 0xc00
abbrev F.SV_UPD_CFG_AGENTS : Fld := ⟨0xc00, 0, 9, 0⟩
abbrev F.SV_UPD_CFG_TIMEOUT : Fld := ⟨0xc00, 16, 8, 0⟩
/-- SV_UPD_CMD: 17_firmware_update.md, R489. -/
abbrev R.SV_UPD_CMD (i : Nat) : Nat := 0xc40 + 0x20 * i
abbrev F.SV_UPD_CMD_OP (i : Nat) : Fld := ⟨0xc40 + 0x20 * i, 0, 4, 18⟩
abbrev F.SV_UPD_CMD_INDEX (i : Nat) : Fld := ⟨0xc40 + 0x20 * i, 8, 8, 18⟩
/-- SV_UPD_ADDR_LO: 17_firmware_update.md, R489. -/
abbrev R.SV_UPD_ADDR_LO (i : Nat) : Nat := 0xc44 + 0x20 * i
abbrev F.SV_UPD_ADDR_LO_ADDR (i : Nat) : Fld := ⟨0xc44 + 0x20 * i, 0, 32, 18⟩
/-- SV_UPD_ADDR_HI: 17_firmware_update.md, R489. -/
abbrev R.SV_UPD_ADDR_HI (i : Nat) : Nat := 0xc48 + 0x20 * i
abbrev F.SV_UPD_ADDR_HI_ADDR (i : Nat) : Fld := ⟨0xc48 + 0x20 * i, 0, 8, 18⟩
/-- SV_UPD_RESULT: 17_firmware_update.md, R489. -/
abbrev R.SV_UPD_RESULT (i : Nat) : Nat := 0xc4c + 0x20 * i
abbrev F.SV_UPD_RESULT_PENDING (i : Nat) : Fld := ⟨0xc4c + 0x20 * i, 0, 1, 18⟩
abbrev F.SV_UPD_RESULT_CODE (i : Nat) : Fld := ⟨0xc4c + 0x20 * i, 1, 5, 18⟩
abbrev F.SV_UPD_RESULT_INDEX (i : Nat) : Fld := ⟨0xc4c + 0x20 * i, 8, 8, 18⟩
/-- SV_UPD_STAT: 17_firmware_update.md, R491. -/
abbrev R.SV_UPD_STAT : Nat := 0xc04
abbrev F.SV_UPD_STAT_SESSION : Fld := ⟨0xc04, 0, 2, 18⟩
abbrev F.SV_UPD_STAT_OWNER : Fld := ⟨0xc04, 4, 4, 18⟩
abbrev F.SV_UPD_STAT_RECEIVED : Fld := ⟨0xc04, 8, 8, 18⟩
abbrev F.SV_UPD_STAT_BLOCKS : Fld := ⟨0xc04, 16, 8, 18⟩
abbrev F.SV_UPD_STAT_MARKED : Fld := ⟨0xc04, 24, 1, 18⟩
abbrev F.SV_UPD_STAT_FIRST_START : Fld := ⟨0xc04, 25, 1, 18⟩
/-- SV_UPD_COUNTER: 17_firmware_update.md, R491. -/
abbrev R.SV_UPD_COUNTER : Nat := 0xc08
abbrev F.SV_UPD_COUNTER_COUNTER : Fld := ⟨0xc08, 0, 7, 18⟩
abbrev F.SV_UPD_COUNTER_ACTIVE_SVN : Fld := ⟨0xc08, 8, 7, 18⟩
abbrev F.SV_UPD_COUNTER_STAGED_SVN : Fld := ⟨0xc08, 16, 7, 18⟩
/-- SV_UPD_VERSION: 17_firmware_update.md, R491. -/
abbrev R.SV_UPD_VERSION : Nat := 0xc0c
abbrev F.SV_UPD_VERSION_FW_VERSION : Fld := ⟨0xc0c, 0, 32, 18⟩
/-- SV_UPD_LAST: 17_firmware_update.md, R491. -/
abbrev R.SV_UPD_LAST : Nat := 0xc10
abbrev F.SV_UPD_LAST_COPY_RESULT : Fld := ⟨0xc10, 0, 3, 18⟩
abbrev F.SV_UPD_LAST_MIG_RESULT : Fld := ⟨0xc10, 4, 3, 18⟩
abbrev F.SV_UPD_LAST_WRITTEN : Fld := ⟨0xc10, 8, 9, 18⟩
abbrev F.SV_UPD_LAST_UNCHANGED : Fld := ⟨0xc10, 17, 9, 18⟩
/-- SV_UPD_TAG_FAIL: 17_firmware_update.md, R491. -/
abbrev R.SV_UPD_TAG_FAIL : Nat := 0xc14
abbrev F.SV_UPD_TAG_FAIL_COUNT : Fld := ⟨0xc14, 0, 32, 18⟩
/-- OB_PMU_SEL: 18_observability_faults.md, R517. -/
abbrev R.OB_PMU_SEL (i : Nat) : Nat := 0xb001000 + 0x10 * i
abbrev F.OB_PMU_SEL_EVENT (i : Nat) : Fld := ⟨0xb001000 + 0x10 * i, 0, 8, 17⟩
abbrev F.OB_PMU_SEL_EN (i : Nat) : Fld := ⟨0xb001000 + 0x10 * i, 8, 1, 17⟩
abbrev F.OB_PMU_SEL_THRESH_EN (i : Nat) : Fld := ⟨0xb001000 + 0x10 * i, 9, 1, 17⟩
abbrev F.OB_PMU_SEL_N (i : Nat) : Fld := ⟨0xb001000 + 0x10 * i, 12, 20, 17⟩
/-- OB_PMU_QUAL: 18_observability_faults.md, R517. -/
abbrev R.OB_PMU_QUAL (i : Nat) : Nat := 0xb001004 + 0x10 * i
abbrev F.OB_PMU_QUAL_QUAL (i : Nat) : Fld := ⟨0xb001004 + 0x10 * i, 0, 16, 17⟩
/-- OB_PMU_CNT: 18_observability_faults.md, R517. -/
abbrev R.OB_PMU_CNT (i : Nat) : Nat := 0xb001008 + 0x10 * i
abbrev F.OB_PMU_CNT_COUNT (i : Nat) : Fld := ⟨0xb001008 + 0x10 * i, 0, 32, 18⟩
/-- OB_PMU_OVF: 18_observability_faults.md, R517. -/
abbrev R.OB_PMU_OVF (i : Nat) : Nat := 0xb001800 + 4 * i
abbrev F.OB_PMU_OVF_OVF (i : Nat) : Fld := ⟨0xb001800 + 4 * i, 0, 32, 18⟩
/-- OB_SLOT_RETIRED: 18_observability_faults.md, R517. -/
abbrev R.OB_SLOT_RETIRED : Nat := 0xb000100
abbrev F.OB_SLOT_RETIRED_COUNT : Fld := ⟨0xb000100, 0, 32, 18⟩
/-- OB_SLOT_WASTED: 18_observability_faults.md, R517. -/
abbrev R.OB_SLOT_WASTED : Nat := 0xb000108
abbrev F.OB_SLOT_WASTED_COUNT : Fld := ⟨0xb000108, 0, 32, 18⟩
/-- OB_SLOT_FRONT: 18_observability_faults.md, R517. -/
abbrev R.OB_SLOT_FRONT : Nat := 0xb000110
abbrev F.OB_SLOT_FRONT_COUNT : Fld := ⟨0xb000110, 0, 32, 18⟩
/-- OB_SLOT_BACK: 18_observability_faults.md, R517. -/
abbrev R.OB_SLOT_BACK : Nat := 0xb000118
abbrev F.OB_SLOT_BACK_COUNT : Fld := ⟨0xb000118, 0, 32, 18⟩
/-- OB_SLOT_PEND: 18_observability_faults.md, R517. -/
abbrev R.OB_SLOT_PEND : Nat := 0xb000120
abbrev F.OB_SLOT_PEND_SLOTS : Fld := ⟨0xb000120, 0, 24, 18⟩
/-- OB_SLOT_BACK_COPY: 18_observability_faults.md, R517. -/
abbrev R.OB_SLOT_BACK_COPY : Nat := 0xb000124
abbrev F.OB_SLOT_BACK_COPY_COUNT : Fld := ⟨0xb000124, 0, 32, 18⟩
/-- OB_SLOT_BACK_STALL: 18_observability_faults.md, R517. -/
abbrev R.OB_SLOT_BACK_STALL : Nat := 0xb000128
abbrev F.OB_SLOT_BACK_STALL_COUNT : Fld := ⟨0xb000128, 0, 32, 18⟩
/-- OB_SLOT_BACK_CE: 18_observability_faults.md, R517. -/
abbrev R.OB_SLOT_BACK_CE : Nat := 0xb00012c
abbrev F.OB_SLOT_BACK_CE_COUNT : Fld := ⟨0xb00012c, 0, 32, 18⟩
/-- OB_SLOT_CLR: 18_observability_faults.md, R517. -/
abbrev R.OB_SLOT_CLR : Nat := 0xb000130
abbrev F.OB_SLOT_CLR_CLR : Fld := ⟨0xb000130, 0, 1, 18⟩
/-- OB_PEG_CFG: 18_observability_faults.md, R518. -/
abbrev R.OB_PEG_CFG : Nat := 0xb000200
abbrev F.OB_PEG_CFG_PEG_EN : Fld := ⟨0xb000200, 0, 1, 17⟩
abbrev F.OB_PEG_CFG_K : Fld := ⟨0xb000200, 8, 5, 17⟩
/-- OB_PEG_PORTS_LO: 18_observability_faults.md, R518. -/
abbrev R.OB_PEG_PORTS_LO : Nat := 0xb000204
abbrev F.OB_PEG_PORTS_LO_PEG_PORTS : Fld := ⟨0xb000204, 0, 32, 17⟩
/-- OB_PEG_PORTS_HI: 18_observability_faults.md, R518. -/
abbrev R.OB_PEG_PORTS_HI : Nat := 0xb000208
abbrev F.OB_PEG_PORTS_HI_PEG_PORTS : Fld := ⟨0xb000208, 0, 9, 17⟩
/-- OB_RING_BASE_LO: 18_observability_faults.md, R518. -/
abbrev R.OB_RING_BASE_LO (i : Nat) : Nat := 0xb000400 + 0x20 * i
abbrev F.OB_RING_BASE_LO_BASE (i : Nat) : Fld := ⟨0xb000400 + 0x20 * i, 12, 20, 17⟩
/-- OB_RING_BASE_HI: 18_observability_faults.md, R518. -/
abbrev R.OB_RING_BASE_HI (i : Nat) : Nat := 0xb000404 + 0x20 * i
abbrev F.OB_RING_BASE_HI_BASE (i : Nat) : Fld := ⟨0xb000404 + 0x20 * i, 0, 8, 17⟩
abbrev F.OB_RING_BASE_HI_SIZE (i : Nat) : Fld := ⟨0xb000404 + 0x20 * i, 16, 5, 17⟩
/-- OB_RING_TAIL: 18_observability_faults.md, R518. -/
abbrev R.OB_RING_TAIL (i : Nat) : Nat := 0xb000408 + 0x20 * i
abbrev F.OB_RING_TAIL_TAIL (i : Nat) : Fld := ⟨0xb000408 + 0x20 * i, 0, 22, 18⟩
/-- OB_RING_HEAD: 18_observability_faults.md, R518. -/
abbrev R.OB_RING_HEAD (i : Nat) : Nat := 0xb00040c + 0x20 * i
abbrev F.OB_RING_HEAD_HEAD (i : Nat) : Fld := ⟨0xb00040c + 0x20 * i, 0, 22, 18⟩
/-- OB_RING_LOST: 18_observability_faults.md, R518. -/
abbrev R.OB_RING_LOST (i : Nat) : Nat := 0xb000410 + 0x20 * i
abbrev F.OB_RING_LOST_LOST (i : Nat) : Fld := ⟨0xb000410 + 0x20 * i, 0, 32, 18⟩
/-- OB_RING_BAD: 18_observability_faults.md, R518. -/
abbrev R.OB_RING_BAD (i : Nat) : Nat := 0xb000414 + 0x20 * i
abbrev F.OB_RING_BAD_BAD_BASE (i : Nat) : Fld := ⟨0xb000414 + 0x20 * i, 0, 1, 18⟩
/-- OB_LINE_CFG_W0: 18_observability_faults.md, R518. -/
abbrev R.OB_LINE_CFG_W0 (i : Nat) : Nat := 0xb000600 + 0x20 * i
abbrev F.OB_LINE_CFG_W0_EN (i : Nat) : Fld := ⟨0xb000600 + 0x20 * i, 0, 1, 17⟩
abbrev F.OB_LINE_CFG_W0_K (i : Nat) : Fld := ⟨0xb000600 + 0x20 * i, 1, 5, 17⟩
abbrev F.OB_LINE_CFG_W0_VERDICTS (i : Nat) : Fld := ⟨0xb000600 + 0x20 * i, 8, 3, 17⟩
abbrev F.OB_LINE_CFG_W0_ETYPE_EN (i : Nat) : Fld := ⟨0xb000600 + 0x20 * i, 11, 1, 17⟩
abbrev F.OB_LINE_CFG_W0_VID_EN (i : Nat) : Fld := ⟨0xb000600 + 0x20 * i, 12, 1, 17⟩
/-- OB_LINE_CFG_W1: 18_observability_faults.md, R518. -/
abbrev R.OB_LINE_CFG_W1 (i : Nat) : Nat := 0xb000604 + 0x20 * i
abbrev F.OB_LINE_CFG_W1_PORTS (i : Nat) : Fld := ⟨0xb000604 + 0x20 * i, 0, 32, 17⟩
/-- OB_LINE_CFG_W2: 18_observability_faults.md, R518. -/
abbrev R.OB_LINE_CFG_W2 (i : Nat) : Nat := 0xb000608 + 0x20 * i
abbrev F.OB_LINE_CFG_W2_PORTS (i : Nat) : Fld := ⟨0xb000608 + 0x20 * i, 0, 9, 17⟩
/-- OB_LINE_CFG_W3: 18_observability_faults.md, R518. -/
abbrev R.OB_LINE_CFG_W3 (i : Nat) : Nat := 0xb00060c + 0x20 * i
abbrev F.OB_LINE_CFG_W3_ETYPE (i : Nat) : Fld := ⟨0xb00060c + 0x20 * i, 0, 16, 17⟩
abbrev F.OB_LINE_CFG_W3_VID (i : Nat) : Fld := ⟨0xb00060c + 0x20 * i, 16, 12, 17⟩
/-- OB_CSU_CFG: 18_observability_faults.md, R518. -/
abbrev R.OB_CSU_CFG (i : Nat) : Nat := 0xb000800 + 0x40 * i
abbrev F.OB_CSU_CFG_SRC (i : Nat) : Fld := ⟨0xb000800 + 0x40 * i, 0, 4, 17⟩
abbrev F.OB_CSU_CFG_UNIT (i : Nat) : Fld := ⟨0xb000800 + 0x40 * i, 8, 6, 17⟩
abbrev F.OB_CSU_CFG_POLY (i : Nat) : Fld := ⟨0xb000800 + 0x40 * i, 16, 2, 17⟩
abbrev F.OB_CSU_CFG_REFIN (i : Nat) : Fld := ⟨0xb000800 + 0x40 * i, 18, 1, 17⟩
abbrev F.OB_CSU_CFG_REFOUT (i : Nat) : Fld := ⟨0xb000800 + 0x40 * i, 19, 1, 17⟩
abbrev F.OB_CSU_CFG_MODE (i : Nat) : Fld := ⟨0xb000800 + 0x40 * i, 20, 1, 17⟩
abbrev F.OB_CSU_CFG_FILT_EN (i : Nat) : Fld := ⟨0xb000800 + 0x40 * i, 21, 1, 17⟩
/-- OB_CSU_RANGE: 18_observability_faults.md, R518. -/
abbrev R.OB_CSU_RANGE (i : Nat) : Nat := 0xb000804 + 0x40 * i
abbrev F.OB_CSU_RANGE_OFFSET (i : Nat) : Fld := ⟨0xb000804 + 0x40 * i, 0, 14, 17⟩
abbrev F.OB_CSU_RANGE_LEN (i : Nat) : Fld := ⟨0xb000804 + 0x40 * i, 16, 14, 17⟩
/-- OB_CSU_FILT: 18_observability_faults.md, R518. -/
abbrev R.OB_CSU_FILT (i : Nat) : Nat := 0xb000808 + 0x40 * i
abbrev F.OB_CSU_FILT_ETYPE (i : Nat) : Fld := ⟨0xb000808 + 0x40 * i, 0, 16, 17⟩
/-- OB_CSU_INIT: 18_observability_faults.md, R518. -/
abbrev R.OB_CSU_INIT (i : Nat) : Nat := 0xb00080c + 0x40 * i
abbrev F.OB_CSU_INIT_INIT (i : Nat) : Fld := ⟨0xb00080c + 0x40 * i, 0, 32, 17⟩
/-- OB_CSU_XOROUT: 18_observability_faults.md, R518. -/
abbrev R.OB_CSU_XOROUT (i : Nat) : Nat := 0xb000810 + 0x40 * i
abbrev F.OB_CSU_XOROUT_XOROUT (i : Nat) : Fld := ⟨0xb000810 + 0x40 * i, 0, 32, 17⟩
/-- OB_CSU_CTL: 18_observability_faults.md, R518. -/
abbrev R.OB_CSU_CTL (i : Nat) : Nat := 0xb000820 + 0x40 * i
abbrev F.OB_CSU_CTL_HOLD (i : Nat) : Fld := ⟨0xb000820 + 0x40 * i, 0, 1, 18⟩
abbrev F.OB_CSU_CTL_CLEAR (i : Nat) : Fld := ⟨0xb000820 + 0x40 * i, 1, 1, 18⟩
abbrev F.OB_CSU_CTL_REATTACH (i : Nat) : Fld := ⟨0xb000820 + 0x40 * i, 2, 1, 18⟩
/-- OB_CSU_STAT: 18_observability_faults.md, R518. -/
abbrev R.OB_CSU_STAT (i : Nat) : Nat := 0xb000824 + 0x40 * i
abbrev F.OB_CSU_STAT_HOLD_ACK (i : Nat) : Fld := ⟨0xb000824 + 0x40 * i, 0, 1, 18⟩
/-- OB_CSU_RUN: 18_observability_faults.md, R518. -/
abbrev R.OB_CSU_RUN (i : Nat) : Nat := 0xb000828 + 0x40 * i
abbrev F.OB_CSU_RUN_RUN (i : Nat) : Fld := ⟨0xb000828 + 0x40 * i, 0, 32, 18⟩
/-- OB_CSU_RESULT: 18_observability_faults.md, R518. -/
abbrev R.OB_CSU_RESULT (i : Nat) : Nat := 0xb00082c + 0x40 * i
abbrev F.OB_CSU_RESULT_RESULT (i : Nat) : Fld := ⟨0xb00082c + 0x40 * i, 0, 32, 18⟩
/-- OB_CSU_FRAMES: 18_observability_faults.md, R518. -/
abbrev R.OB_CSU_FRAMES (i : Nat) : Nat := 0xb000830 + 0x40 * i
abbrev F.OB_CSU_FRAMES_COUNT (i : Nat) : Fld := ⟨0xb000830 + 0x40 * i, 0, 32, 18⟩
/-- OB_CSU_SHORT: 18_observability_faults.md, R518. -/
abbrev R.OB_CSU_SHORT (i : Nat) : Nat := 0xb000834 + 0x40 * i
abbrev F.OB_CSU_SHORT_COUNT (i : Nat) : Fld := ⟨0xb000834 + 0x40 * i, 0, 32, 18⟩
/-- OB_CSU_HELD: 18_observability_faults.md, R518. -/
abbrev R.OB_CSU_HELD (i : Nat) : Nat := 0xb000838 + 0x40 * i
abbrev F.OB_CSU_HELD_COUNT (i : Nat) : Fld := ⟨0xb000838 + 0x40 * i, 0, 32, 18⟩
/-- SV_FLT_HEAD: 18_observability_faults.md, R519. -/
abbrev R.SV_FLT_HEAD : Nat := 0x4000
abbrev F.SV_FLT_HEAD_NEXT : Fld := ⟨0x4000, 0, 8, 18⟩
abbrev F.SV_FLT_HEAD_TOTAL : Fld := ⟨0x4000, 16, 16, 18⟩
/-- SV_FLT_PEND: 18_observability_faults.md, R519. -/
abbrev R.SV_FLT_PEND : Nat := 0x4004
abbrev F.SV_FLT_PEND_CLASSES : Fld := ⟨0x4004, 0, 20, 18⟩
/-- SV_FLT_PIN: 18_observability_faults.md, R519. -/
abbrev R.SV_FLT_PIN : Nat := 0x4008
abbrev F.SV_FLT_PIN_CLASSES : Fld := ⟨0x4008, 0, 20, 0⟩
/-- SV_FLT_OVERWRITTEN: 18_observability_faults.md, R519. -/
abbrev R.SV_FLT_OVERWRITTEN : Nat := 0x400c
abbrev F.SV_FLT_OVERWRITTEN_COUNT : Fld := ⟨0x400c, 0, 32, 18⟩
/-- SV_FLT_COUNT: 18_observability_faults.md, R519. -/
abbrev R.SV_FLT_COUNT (i : Nat) : Nat := 0x4010 + 4 * i
abbrev F.SV_FLT_COUNT_COUNT (i : Nat) : Fld := ⟨0x4010 + 4 * i, 0, 32, 18⟩
/-- SV_FLT_REC_W0: 18_observability_faults.md, R519. -/
abbrev R.SV_FLT_REC_W0 (i : Nat) : Nat := 0x4100 + 0x20 * i
abbrev F.SV_FLT_REC_W0_CLASS (i : Nat) : Fld := ⟨0x4100 + 0x20 * i, 0, 8, 18⟩
abbrev F.SV_FLT_REC_W0_UNIT (i : Nat) : Fld := ⟨0x4100 + 0x20 * i, 16, 16, 18⟩
/-- SV_FLT_REC_W1: 18_observability_faults.md, R519. -/
abbrev R.SV_FLT_REC_W1 (i : Nat) : Nat := 0x4104 + 0x20 * i
abbrev F.SV_FLT_REC_W1_ADDR (i : Nat) : Fld := ⟨0x4104 + 0x20 * i, 0, 32, 18⟩
/-- SV_FLT_REC_W2: 18_observability_faults.md, R519. -/
abbrev R.SV_FLT_REC_W2 (i : Nat) : Nat := 0x4108 + 0x20 * i
abbrev F.SV_FLT_REC_W2_ADDR (i : Nat) : Fld := ⟨0x4108 + 0x20 * i, 0, 32, 18⟩
/-- SV_FLT_REC_W3: 18_observability_faults.md, R519. -/
abbrev R.SV_FLT_REC_W3 (i : Nat) : Nat := 0x410c + 0x20 * i
abbrev F.SV_FLT_REC_W3_REPEAT (i : Nat) : Fld := ⟨0x410c + 0x20 * i, 0, 16, 18⟩
/-- SV_FLT_REC_W4: 18_observability_faults.md, R519. -/
abbrev R.SV_FLT_REC_W4 (i : Nat) : Nat := 0x4110 + 0x20 * i
abbrev F.SV_FLT_REC_W4_NS (i : Nat) : Fld := ⟨0x4110 + 0x20 * i, 0, 30, 18⟩
/-- SV_FLT_REC_W5: 18_observability_faults.md, R519. -/
abbrev R.SV_FLT_REC_W5 (i : Nat) : Nat := 0x4114 + 0x20 * i
abbrev F.SV_FLT_REC_W5_SEC (i : Nat) : Fld := ⟨0x4114 + 0x20 * i, 0, 32, 18⟩
/-- SV_FLT_REC_W6: 18_observability_faults.md, R519. -/
abbrev R.SV_FLT_REC_W6 (i : Nat) : Nat := 0x4118 + 0x20 * i
abbrev F.SV_FLT_REC_W6_SEC (i : Nat) : Fld := ⟨0x4118 + 0x20 * i, 0, 16, 18⟩
/-- SV_FLT_REC_W7: 18_observability_faults.md, R519. -/
abbrev R.SV_FLT_REC_W7 (i : Nat) : Nat := 0x411c + 0x20 * i
abbrev F.SV_FLT_REC_W7_LAST_MS (i : Nat) : Fld := ⟨0x411c + 0x20 * i, 0, 32, 18⟩
/-- SV_LEDGER_STAT: 18_observability_faults.md, R519. -/
abbrev R.SV_LEDGER_STAT : Nat := 0x6200
abbrev F.SV_LEDGER_STAT_SEQ : Fld := ⟨0x6200, 0, 32, 18⟩
/-- SV_LEDGER_OLDEST: 18_observability_faults.md, R519. -/
abbrev R.SV_LEDGER_OLDEST : Nat := 0x6204
abbrev F.SV_LEDGER_OLDEST_SEQ : Fld := ⟨0x6204, 0, 32, 18⟩
/-- SV_LEDGER_LOST: 18_observability_faults.md, R519. -/
abbrev R.SV_LEDGER_LOST : Nat := 0x6208
abbrev F.SV_LEDGER_LOST_COUNT : Fld := ⟨0x6208, 0, 32, 18⟩
/-- SV_LEDGER_FROM: 18_observability_faults.md, R519. -/
abbrev R.SV_LEDGER_FROM : Nat := 0x620c
abbrev F.SV_LEDGER_FROM_FROM : Fld := ⟨0x620c, 0, 32, 18⟩
/-- SV_LEDGER_COUNT: 18_observability_faults.md, R519. -/
abbrev R.SV_LEDGER_COUNT : Nat := 0x6210
abbrev F.SV_LEDGER_COUNT_COUNT : Fld := ⟨0x6210, 0, 14, 18⟩
/-- SV_LEDGER_CMD: 18_observability_faults.md, R519. -/
abbrev R.SV_LEDGER_CMD : Nat := 0x6214
abbrev F.SV_LEDGER_CMD_VERIFY : Fld := ⟨0x6214, 0, 1, 18⟩
/-- SV_LEDGER_RES: 18_observability_faults.md, R519. -/
abbrev R.SV_LEDGER_RES : Nat := 0x6218
abbrev F.SV_LEDGER_RES_BUSY : Fld := ⟨0x6218, 0, 1, 18⟩
abbrev F.SV_LEDGER_RES_RESULT : Fld := ⟨0x6218, 1, 2, 18⟩
abbrev F.SV_LEDGER_RES_UNAUTH : Fld := ⟨0x6218, 16, 16, 18⟩
/-- SV_LEDGER_BAD: 18_observability_faults.md, R519. -/
abbrev R.SV_LEDGER_BAD : Nat := 0x621c
abbrev F.SV_LEDGER_BAD_SEQ : Fld := ⟨0x621c, 0, 32, 18⟩
/-- PW_RAIL_STAT: 19_pins_electrical.md, R536. -/
abbrev R.PW_RAIL_STAT : Nat := 0xa000800
abbrev F.PW_RAIL_STAT_FAIL_RAIL : Fld := ⟨0xa000800, 0, 3, 18⟩
abbrev F.PW_RAIL_STAT_FAIL_KIND : Fld := ⟨0xa000800, 3, 2, 18⟩
abbrev F.PW_RAIL_STAT_ATTEMPTS : Fld := ⟨0xa000800, 5, 3, 18⟩
abbrev F.PW_RAIL_STAT_FAULTS : Fld := ⟨0xa000800, 16, 16, 18⟩

end Sys2Proof.Machine
end

