-- ==== Sys2Proof/Machine/State.lean ====
section
/-!
DEFINITION. The state of the gateway as plain data: the register files, the two copies of every configuration domain,
and the state each subsystem keeps for itself. The reset state is the gateway in OFF, before VBAT_AON is applied.
-/

namespace Sys2Proof.Machine

/-- Why the machine stops: none of the spec's rules stops the gateway, so no command answers with a fault of its own. -/
inductive Fault where
  /-- Raised by nothing in this model: kept so that the interface has a fault type. Safe. -/
  | none
  deriving DecidableEq, Repr

/-- Why a command has no meaning. -/
inductive Refusal where
  /-- Raised only by an arm of `exec` whose command has no meaning yet. Safe: nothing is claimed of it. -/
  | notModelled (mnemonic : String)
  deriving DecidableEq, Repr

/-- A register file: words by space offset; an unlisted register holds its reset value (R7). -/
abbrev RegFile := Sparse Word

/-- What a command gave back to its agent (R1, R5). -/
inductive Resp where
  | none
  | value (w : Word)      -- the data of a read
  | done                  -- a write or a command that was taken
  | busError              -- the error response of R1: bus error, Unsupported Request
  | noAnswer              -- no SoC register answers (R17)
  deriving DecidableEq, Repr

/-- What the gateway sends out, in the order sent. -/
inductive Output where
  | msix (vec : Nat)                                          -- R43
  | notify (session event : Nat) (ti0 : Nat)                  -- R43, with the TI0 time
  | frame (port : Nat) (bytes : List Byte)                    -- a frame on the wire, FCS included
  | beacon (port : Nat)                                       -- a PLCA BEACON (R144)
  | gptpSync (ti port domain : Nat)                           -- a Sync of two-step transmission (R274)
  | gptpFollowUp (ti port domain stamp : Nat)                 -- its Follow_Up, with the Sync's egress stamp (R270, R274)
  | gptpAnnounce (ti port domain gmid prio : Nat)             -- an Announce: the grandmaster's identity and PRIORITY1 (R274)
  | gptpPdelayReq (ti port domain : Nat)                      -- a request of the peer delay measurement (R274)
  | svStamp (port stamp : Nat)                                -- the egress stamp of a frame of SV's, for SV (R270)
  | tsync (pin : Nat) (level : Bool)                          -- R279
  | canFrame (ctrl : Nat) (f : CanFrame)                      -- a CAN frame sent, with its format, header and DLC (R289, R302)
  | canAck (ctrl : Nat)                                       -- the acknowledge of a frame received from the bus (R293, R307)
  | canError (ctrl : Nat) (active : Bool)                     -- an error frame
  | mdio (reg phy : Nat) (write : Bool) (data : Nat)          -- R150
  | coreStart (core pc a0 : Nat)                              -- a core starts in machine mode (R450)
  | flash (bytes : List Byte)                                 -- a command of the ROM's to the flash, 1S-1S-1S (R49)
  | bersanReply (session : Nat) (word : Nat)                  -- R103, R107
  | remoteFault (port : Nat) (on : Bool)                      -- R130
  | tlp (write : Bool) (addr len : Nat) (bytes : List Byte)    -- R467
  | outDone (a : Agent) (ok : Bool) (bytes : List Byte)       -- the end of an outbound access (R467, R469)
  | completion (status : Nat) (bytes : List Byte)             -- of an inbound request: 0 successful, 1 Unsupported
                                                              -- Request, 2 with poisoned data (R464, R467)
  | rescueTx (link : Nat) (bytes : List Byte)                 -- R487: on DBG_UART (0), or a frame of P40 (1)
  | debugReply (word : Nat)                                   -- the RESULT of a debug command (R374)
  | bersanData (session : Nat) (bytes : List Byte)            -- the DATA of a session's EXPORT (R103, R363)
  | debugData (bytes : List Byte)                             -- the DATA of a debug EXPORT (R363, R374)
  | accessFault (core addr : Nat)                             -- of a core, at an address or a cache line (R452, R464)
  | linkState (up : Bool)
  deriving DecidableEq, Repr

/-- The frame's standing (R21, R23). -/
inductive Verdict where
  | ok | untrusted | drop
  deriving DecidableEq, Repr

/-- The changes that routing makes to a frame (R213), applied at the egress. -/
structure Rewrite where
  dmac : Nat
  smac : Nat
  decTtl : Bool
  newSrc : Option Nat
  newDst : Option Nat
  deriving DecidableEq, Repr

/-- Where a frame stands on its journey (R20 and the table of steps before it). -/
inductive Stage where
  | receiving     -- step 1 and 2, before its pipeline slot
  | looked        -- steps 3 to 5 done
  | held          -- CE has it and waits (key derivation, verification)
  | clear         -- decrypted or verified by CE, before the second pass
  | checked       -- step 6 done
  | queued        -- step 7 done
  deriving DecidableEq, Repr

/-- What CE knows of a frame it decrypts (R390): in SWIFT the frame may go on before its ICV is known (R391). -/
structure CeWork where
  ctx : Nat
  pn : Nat
  key : Nat
  iv : List Byte
  wire : List Byte            -- the frame as received, FCS excluded, until it is verified
  done : Bool                 -- verification has ended
  deriving DecidableEq, Repr

/-- The times at which stages finished with a frame, in ns on SX's clock (R501). -/
structure StageTimes where
  parser : Option Nat
  lookup : Option Nat
  policy : Option Nat
  decrypt : Option Nat
  enqueue : Option Nat
  deriving DecidableEq, Repr

/-- A capture that a Line session has made of a frame (R502): its record is written at the end of the frame, which gives
its L (R503). -/
structure LineCap where
  session : Nat
  verdict : Verdict
  egress : Nat
  tc : Nat
  deriving DecidableEq, Repr

/-- A bus message whose sealed trailer CE checks, and the context that its UP route names (R342, R343). -/
structure SealMsg where
  ctx : Nat
  route : Nat
  queue : Nat                 -- packing queue of the route's template (R346)
  msg : CanFrame
  deriving DecidableEq, Repr

/-- A frame inside the device: its bytes, its frame record (R21) and the metadata that travels with it. -/
structure Frame where
  port : Nat                  -- ingress port
  bytes : List Byte           -- from the first byte of the destination address, FCS excluded
  len : Nat                   -- L of R132, FCS included; the bytes arrived so far while receiving
  rxLen : Nat                 -- L as received, whatever CE takes off the frame (R501, R503)
  due : Nat                   -- L as its pipeline pass took it while the frame still arrived (R238)
  rxDone : Bool               -- its end of frame has arrived
  good : Bool                 -- counted in PX_RX_FRAMES
  badWhy : Nat                -- found bad at ingress: 1 FCS, 2 length or symbol, 0 not
  epoch : Nat                 -- EPOCH, 8 bits
  peg : Bool
  tc : Nat
  verdict : Verdict
  ti : Nat                    -- time instance of the stamp
  stamp : Nat                 -- ingress stamp, 1/256 ns of that instance
  born : Nat                  -- ingress time on SX's own clock, ns (R111)
  l3 : Nat                    -- R136
  l4 : Nat
  stage : Stage
  pass : Nat                  -- 0 before the pipeline, 1 or 2 after it
  vid : Nat                   -- classified VID (R198)
  evid : Nat                  -- egress VLAN
  tagged : Bool
  pcp : Nat
  dei : Bool
  colour : Nat                -- 0 green, 1 yellow, 2 red
  setPcp : Option Nat
  egress : Nat                -- egress port mask (R19)
  group : Option Nat          -- multicast group (R182)
  copying : Nat               -- INGRESS copies still to be written (R184)
  stream : Option Nat
  seqNo : Option Nat          -- generated R-TAG number (R220)
  strip : Nat                 -- ports at which its R-TAG is removed, as step 4 found them (R26, R224)
  rewrite : Option Rewrite
  csumFull : Bool             -- R138, host TX descriptors
  directive : Option Nat      -- egress directive of P39 (R196)
  launch : Option Nat         -- launch time of a host descriptor, ns of the egress instance
  ce : Option CeWork
  sealIn : Option SealMsg       -- the message whose sealed trailer CE checks at step 6 (R343)
  unprot : Bool               -- leaves or arrived unprotected
  owner : Nat                 -- host descriptor or SV mark for the egress stamp; 0 none
  cells : List Nat            -- the banks of the on-die cells it holds
  slots : Nat                 -- pipeline slots not yet settled (R496)
  slotGen : Nat               -- OB_SLOT_CLR count at its first slot
  left : Bool                 -- a copy has left unstomped
  live : Nat                  -- copies that read its cells, not yet left or discarded
  kids : Nat                  -- copies of it that hold cells or pages of their own (R183, R184)
  parent : Option Nat         -- the frame that this one is such a copy of
  zombie : Bool               -- discarded; only the rest of its reception is awaited
  lines : List LineCap        -- captures of the Line made before the end of the frame
  times : StageTimes
  deriving DecidableEq, Repr

/-- What CE takes for the protection of one frame at step 9 (R389). -/
structure TxSa where
  key : Nat
  iv : List Byte
  an : Nat
  pn : Nat                    -- the low 32 bits go into the SecTAG
  sci : Nat
  conf : Bool
  ofs : Nat                   -- confidentiality offset, bytes
  deriving DecidableEq, Repr

/-- One copy of a frame on its way through one egress queue. -/
structure Copy where
  frame : Nat
  port : Nat
  tc : Nat
  cut : Bool                  -- admitted for cut-through (R168)
  mcast : Bool
  launch : Option Int         -- launch time, ns of the egress port's instance, from a timed queue on (R252, R267)
  ready : Bool                -- the head of a timed queue has become eligible (R252)
  hold : Bool                 -- held in its MAC transmit queue until its launch time (R252)
  hamOut : Option Nat
  hamIn : Option Nat
  deq : Option Nat
  enc : Option Nat
  sealed : Option TxSa        -- how CE protects it, once step 9 is done
  deriving DecidableEq, Repr

/-- The state of a Hamper page of a queue (R173, R174, R175, R178). -/
inductive PageState where
  | fill | staged | dram | refilling
  deriving DecidableEq, Repr

/-- A page of a queue's Hamper chain: its descriptor (R178) and its cells, as they stand in the staging area or in DRAM. -/
structure HPage where
  no : Nat                    -- page number in DRAM, once written
  state : PageState
  epoch : Nat
  opened : Nat                -- when its first frame was written, ns
  newest : Nat                -- newest frame's ingress time, µs, its low 21 bits (R178)
  newestAt : Nat              -- the same time on SX's clock, ns (R179)
  copies : List Copy          -- frames that start in the page
  start : Nat                 -- cell at which the first of them begins (R178)
  cells : List (List Byte)    -- 1 to 16 cells of 256 bytes (R173)
  tail : Bool                 -- the page's first cells belong to the last frame of the page before
  enc : Bool                  -- written encrypted (R181)
  closed : Nat                -- its place in the order of closing (R174)
  head : List (List Byte)     -- cells of its first frame that were read with the pages before
  deriving DecidableEq, Repr

/-- An egress queue q = 8 × n + t. -/
structure Queue where
  die : List Copy
  spill : Bool
  pages : List HPage
  deficit : Nat
  credit : Int                -- shaper credit, 2^-16 bytes
  creditAt : Nat              -- time of the credit, ns
  deriving DecidableEq, Repr

/-- A frame being sent by an egress MAC or taken by an internal port. -/
structure TxNow where
  copy : Copy
  started : Nat               -- ns
  early : Bool                -- started before the ingress end of frame
  tables : RegFile            -- P38: the gateway tables in force at the DOWN lookup (R335)
  seals : List (Nat × List Byte)  -- P38: sealed payloads that CE has made, by message number (R343)
  into : Option Nat           -- P38: the DOWN queue into which the frame is being written (R329)
  deriving DecidableEq, Repr

/-- A detached page chain waiting for its return (R178). -/
structure Detached where
  port : Nat
  aged : Bool                 -- counted as epoch-aged, else as flushed
  pages : List HPage
  deriving DecidableEq, Repr

/-- The buffer manager's own state. -/
structure SxState where
  frames : Sparse (Option Frame)
  nextId : Nat
  rx : Sparse (Option Nat)    -- frame in reception by port
  skip : Nat                  -- ports that discard to the end of frame
  flushing : Nat              -- ports whose EV_SX_FLUSH is due
  queues : Sparse Queue
  mqs : Sparse (List Copy)    -- keyed 4 × n + m
  tx : Sparse (Option TxNow)  -- by port
  turn : Sparse Nat           -- DWRR position, keyed 2 × n + group − 1
  bankPtr : Nat               -- round-robin pointer of R160
  hamPages : Nat              -- pages of the Hamper's size in force (R170)
  hamBoot : Nat               -- pages fixed at the boot Stitch (R170)
  retired : List Nat          -- retired page numbers
  closes : Nat                -- closings of fill pages so far (R174)
  refillRr : Sparse Nat       -- port whose turn is next among the queues of a TC that refill (R175)
  detached : List Detached
  dieArmed : Bool             -- EV_SX_DIE_HIGH armed
  hamArmed : Bool
  deriving DecidableEq, Repr

/-- A bridge table entry (R200, R202). -/
structure FdbEntry where
  mac : Nat
  fid : Nat
  static : Bool
  dest : Nat
  kind : Nat
  stamp : Nat
  inActive : Bool
  inOther : Bool
  deriving DecidableEq, Repr

/-- Recovery state of a stream (R221, R222). -/
structure Recovery where
  last : Option Nat           -- RecovSeqNum; none: the next frame is accepted
  seen : List Bool            -- history, newest first
  deriving DecidableEq, Repr

/-- A policer's buckets, in 2^-16 bytes, and the time they were filled to. -/
structure Buckets where
  tc : Nat
  tp : Nat
  at_ : Nat
  deriving DecidableEq, Repr

/-- A gate control list as committed: the registers of R257 and the entries. -/
structure GateList where
  ti : Nat
  base : Nat                  -- ns
  cycle : Nat                 -- ns
  entries : List (Nat × Nat)  -- gates, interval
  raw : List Word             -- every register of the list, for "the same" in R251
  deriving DecidableEq, Repr

/-- A learn request waiting for its commit (R205, R206). -/
structure LearnReq where
  frame : Nat
  mac : Nat
  fid : Nat
  port : Nat
  ok : Bool                   -- its frame is counted good, and verified where CE decrypts it
  ce : Bool                   -- CE has still to let its frame pass: unprotected on a checked port, or sealed (R206)
  deriving DecidableEq, Repr

/-- An operation of the table access interface, as GO found its registers (R229). -/
structure TblOp where
  agent : Agent
  op : Nat                    -- 1 READ, 2 SEARCH, 3 DELETE, 4 FLUSH
  byPort : Bool
  byFid : Bool
  port : Nat
  fid : Nat
  mac : Nat
  index : Nat
  deriving DecidableEq, Repr

/-- The forwarding engine's own state. -/
structure FxState where
  fdb : Sparse (Option FdbEntry)
  current : Sparse (List Nat) -- CURRENT member of each bucket, keyed 16 × copy + p (copy 0 ACTIVE, 1 other)
  rejoining : Sparse Nat      -- members waiting for REJOIN
  learn : List LearnReq
  pgEmpty : Nat               -- groups for which EV_FX_PG_EMPTY was raised
  limHigh : Nat               -- ports whose EV_FX_LEARN_LIMIT has not re-armed
  recovery : Sparse (Option Recovery)
  seqNext : Sparse Nat
  buckets : Sparse (Option Buckets)
  badEntries : List (Nat × Nat)   -- (TABLE_ID, entry) that act as not VALID (R225)
  gcl : Sparse (Option GateList)      -- running list by port
  gclNext : Sparse (Option (GateList × Nat))  -- waiting list and its start
  tableBusy : Option TblOp    -- the operation in progress of FX_TBL_CMD
  stalled : Nat               -- pipeline stages stalled by a parity storm (R125)
  parityAt : Sparse (List Nat)    -- recent parity errors of a stage, ns
  deriving DecidableEq, Repr

/-- A time instance (R260, R263). -/
structure Ti where
  sec : Nat
  ns : Nat
  frac : Nat
  deriving DecidableEq, Repr

/-- The 802.1AS servo of a time instance (R275, R276). -/
structure Servo where
  slave : Option Nat          -- port the last Sync came in on
  run : Nat                   -- consecutive Syncs within ±50 ns
  hist : List Int             -- ADJ of the last 16 Sync intervals, newest first
  hold : Int                  -- holdover rate
  settling : Bool             -- SETTLE runs (R276)
  first : Int                 -- first offset of the SETTLE period
  left : Int                  -- offset still to be slewed, 2^-32 ns (R276)
  prio : Nat                  -- PRIORITY1 of the grandmaster that the last Sync came from (R274)
  deriving DecidableEq, Repr

/-- A capture of a TSYNC_IN edge (R278). -/
structure TsiCapture where
  sec : Nat
  ns : Nat
  frac : Nat
  rising : Bool
  deriving DecidableEq, Repr

/-- An FBTC pair (R281): the count and the TI time in 1/256 ns. -/
structure FbtcPair where
  count : Nat
  time : Nat
  inc : Nat                   -- INC_NOM + ADJ in force, 2^-32 ns
  deriving DecidableEq, Repr

/-- The pulse in progress on a TSYNC_OUT pin (R279): it keeps its instance, its width and its polarity. -/
structure TsoPulse where
  ti : Nat
  ends : Int                 -- end of the pulse, ns of its instance
  invert : Bool
  deriving DecidableEq, Repr

/-- What a TSYNC_OUT pin has done so far (R279). -/
structure TsoState where
  last : Option Nat           -- latest edge time that is past: emitted, jumped over, or before the settings in force, ns
  ti : Nat                    -- the instance of that time
  pulse : Option TsoPulse
  invert : Bool               -- INVERT in force: as of the latest rising edge
  deriving DecidableEq, Repr

/-- The time engine's own state. -/
structure TeState where
  ti : Sparse Ti
  servo : Sparse Servo
  tsi : Sparse (List TsiCapture)
  tso : Sparse TsoState
  fbtc : Nat
  fbtcPhase : Nat             -- 25ths of a count
  pairs : List FbtcPair       -- newest first, 16 at most
  deriving DecidableEq, Repr

/-- States of a transaction handle (R115). -/
inductive TxnState where
  | free | copying | opened | held | draining
  deriving DecidableEq, Repr

/-- A transaction (R105 to R114). -/
structure Txn where
  state : TxnState
  agent : Agent
  owner : Nat
  set : Nat
  timeout : Nat               -- ms, as given at the Tack
  left : Nat                  -- ms of timeout left at `since`
  since : Nat                 -- ns
  persist : Bool
  ti : Nat
  time : Nat                  -- commit time, ns of the instance
  late : Bool
  wasHeld : Bool              -- reached DRAINING through HELD
  deriving DecidableEq, Repr

/-- One area of a flash write: sectors to erase from a base, and bytes to program into pages of 256 from it. -/
structure FlashArea where
  base : Nat
  sectors : Nat
  bytes : List Byte
  pos : Nat                   -- bytes done
  erased : Bool               -- the sector at `pos` is erased
  deriving DecidableEq, Repr

/-- What SV writes the flash for. -/
inductive FlashKind where
  | persist (agent : Agent) (bank seq : Nat)      -- R112
  | bersan (agent : Agent) (bank seq : Nat)       -- R68
  | migration (bank seq : Nat)                    -- R486
  | enroll (agent : Agent)                        -- R350
  | header (agent : Agent)                        -- R479
  | block (agent : Agent) (index : Nat)           -- R479
  | activate (agent : Agent)                      -- R481
  deriving DecidableEq, Repr

/-- A write in progress: its areas in order. The front task of SV's list runs (R68, R350, R479). -/
structure FlashTask where
  kind : FlashKind
  areas : List FlashArea
  deriving DecidableEq, Repr

/-- The transaction engine, loader and bank writer. -/
structure SvState where
  txns : Sparse Txn
  booting : Bool              -- the boot transaction is open (R61)
  tasks : List FlashTask      -- flash writes, the running one first
  reserved : Bool             -- R112 reservation
  recopy : Nat                -- domains whose copy of ACTIVE into SHADOW waits for a drain (R113)
  defer : Sparse (List Nat)   -- outcomes of held Stitches that wait for a pending command's own, by owner (R110)
  loadPos : Nat
  loading : Bool
  oldFmt : Bool               -- a record applied had an FMT older than the newest known (R486)
  covered : List Byte         -- bank bytes read by CSU0 so far, newest last
  covDone : Bool
  bersan : Sparse (Option Nat)    -- open session's authenticating node
  nvmReply : List Byte
  deriving DecidableEq, Repr

/-- A Mend activity (R117, R123). -/
structure Mend where
  id : Nat
  kind : Nat
  unit : Nat
  agent : Agent
  owner : Nat
  fault : Bool                -- a fault has been found
  entry : Nat                 -- index in SV_MEND_ACT or SV_MEND_FACT
  deriving DecidableEq, Repr

/-- The Mend arbiter. -/
structure MendState where
  acts : List Mend            -- software activities
  facts : List Mend           -- fault-driven activities
  lastId : Nat
  stopped : List (Nat × Agent)    -- activity IDs whose MEND_STOP waits for the end
  deriving DecidableEq, Repr

/-- The freeze of OB_SNAP (R34 to R37, R543). -/
inductive SnapState where
  | idle | armed | forming | frozen
  deriving DecidableEq, Repr

/-- OB_SNAP's own state. -/
structure Snap where
  state : SnapState
  src : Nat
  ti : Nat
  at_ : Nat                   -- match time, ns
  cut : List (ClkDomain × RegFile)
  deriving DecidableEq, Repr

/-- A Peg or Line ring's FIFO and sequence (R498, R499). -/
structure Ring where
  fifo : List (List Byte)
  seq : Nat
  deriving DecidableEq, Repr

/-- A CRC snoop unit (R504 to R508). -/
structure Csu where
  attached : Bool
  stream : List (List Byte)   -- frames passed and not yet covered, oldest first
  deriving DecidableEq, Repr

/-- A ledger record before it is written (R512). -/
structure LedgerRec where
  type : Nat
  rtcSec : Nat
  rtcSub : Nat
  ti0 : Nat
  payload : List Byte
  deriving DecidableEq, Repr

/-- The ledger (R512 to R516). -/
structure Ledger where
  buf : List LedgerRec        -- oldest first
  scanned : Bool
  nextSeq : Nat
  count : Nat                 -- records held in flash
  prevTag : List Byte
  boots : Nat
  lostPending : Nat
  unauthSeen : Bool
  verify : Option Agent
  deriving DecidableEq, Repr

/-- Observability. -/
structure ObState where
  snap : Snap
  rings : Sparse Ring
  pegLeft : Sparse Nat        -- countdown per port; 0: to be loaded
  lineLeft : Sparse Nat       -- countdown per session
  slotGen : Nat               -- writes of OB_SLOT_CLR
  slotAhead : Nat             -- slots counted by commands whose CLK_CORE cycles have not passed yet (R497); the model's own
  csu : Sparse Csu
  fltAt : Sparse Nat          -- time of a fault record's first occurrence, ns
  fltNew : Sparse Nat         -- newest record of a class and unit, index + 1, keyed 65536 × class + unit
  ledger : Ledger
  deriving DecidableEq, Repr

/-- Where the power die stands with the SoC die's rails (R17, R79, R82, R535, R536). -/
inductive Power where
  | off         -- VBAT_AON absent
  | trims       -- the power die left power-on reset, trims not yet loaded
  | listen      -- rails off, mode LISTEN
  | rising      -- the rail sequence runs
  | up          -- all rails good
  | falling     -- rails being switched off
  | retry       -- waiting after a rail fault
  deriving DecidableEq, Repr

/-- Milestones of a start of the SoC die (R79, R82). -/
structure Start where
  rom : Bool              -- the SoC die left reset and the ROM runs
  tested : Bool           -- self-tests passed, boot header and journal read
  firmware : Bool         -- the active firmware runs
  tree : Bool             -- PUF reconstruction ended
  trained : Bool          -- DRAM trained
  zeroed : Bool           -- DRAM zeroed
  calibrated : Bool       -- SerDes calibrated
  ramped : Bool           -- the start has completed
  origin : Nat            -- ns
  fromListen : Bool
  fb : Bool               -- this start's first field-bus forwarding is noted (R93)
  full : Bool             -- and its entry into a RUN mode
  deriving DecidableEq, Repr

/-- The mode transition in progress (R85 to R88). -/
inductive Moving where
  | none
  | toRun (step : Nat)        -- stages of R86 done
  | toPartial (step : Nat)    -- stages of R87 done
  | toListen (waiting : Bool) -- R88
  deriving DecidableEq, Repr

/-- Power, start-up and modes. -/
structure PwState where
  power : Power
  rail : Nat                  -- rails good, in start-up order; while they fall, those whose EN_* is still high
  fallAt : Nat                -- when the latest EN_* went low, ns (R535)
  fallRetry : Bool            -- the rails fall for a fault, and the sequence is tried again (R536)
  retries : Nat               -- rail sequence failures in a row
  resetN : Bool               -- RESET_N is held low
  held : Bool                 -- the SoC die is held in reset
  rescue : Bool               -- the ROM runs RESCUE
  rootPort : Bool             -- HOSTMODE strap (R40)
  start : Start
  moving : Moving
  requester : Option Agent    -- agent whose SV_MODE_REQ is in progress
  byFold : Bool
  runWanted : Bool            -- a wake of Fold asks for a RUN mode (R85)
  foldDue : Bool              -- a fold or a Stitch is to be judged under R85
  wakeLatched : Bool          -- a wake recognised during LISTEN entry (R88)
  cause : Nat                 -- reset cause kept in always-on memory (R93)
  startFb : Nat
  startFull : Nat
  dramSr : Bool               -- DRAM in self-refresh
  cxReset : Bool              -- the cluster is held in reset
  rescueReq : Bool            -- rescue request on DBG_UART (R95)
  rtcSec : Nat                -- the real-time clock (R420)
  rtcSub : Nat                -- 1/32,768 s
  rtcPhase : Nat              -- 1/32,768 ns
  deriving DecidableEq, Repr
/-- A CAN controller, beside its registers, objects and message RAM (10_can_controllers.md). -/
structure CanState where
  chosen : Option (Nat × CanFrame)    -- object and staged frame of the latest choice (R303)
  active : Option (Nat × CanFrame)    -- object and frame on the bus (R305)
  started : Nat               -- FBTC at its start of frame (R310)
  old : Option RegFile        -- the settings still in force while a Stitch's changes wait for CONFIG (R294)
  gwRx : List Nat             -- gateway receive objects whose frames wait for route lookup, oldest first (R333)
  wasOff : Bool               -- OFF when the Mend activity started (R316)
  errTx : Bool                -- the error flag sent last is a transmitter's (R311)
  bad : List Nat              -- message RAM words of lost (72,64) code words that have not been written since (R317)
  deriving DecidableEq, Repr

/-- A word of a packing queue with its tag (R327). -/
structure PqWord where
  valid : Bool                -- the word holds packet data
  first : Bool
  last : Bool
  nbytes : Nat                -- valid bytes in a LAST word; 32 in every other
  data : List Byte            -- 32 bytes, the unused ones of the last word 0x00
  deriving DecidableEq, Repr

/-- A packet of a packing queue, as its 256-bit words (R327). -/
structure Packet where
  words : List PqWord
  sealIn : Option SealMsg       -- UP: from a route with SEAL = 1
  tables : RegFile            -- DOWN: the tables of the lookup that travels with it (R335)
  seals : List (Nat × List Byte)  -- DOWN: sealed payloads by message number
  deriving DecidableEq, Repr

/-- A packing queue (R326 to R331). -/
structure Pq where
  ready : List Packet         -- committed, oldest first
  writing : Option Packet     -- being written
  waiting : List Packet       -- closed UP frames that the gateway engine writes next
  rd : Nat                    -- place of the next word that the reader reads, modulo 256 (R332)
  deriving DecidableEq, Repr

/-- An UP Ethernet frame that gathers messages (R338). -/
structure OpenUp where
  tables : RegFile            -- holds the template that it was opened with (R335)
  format : Nat                -- 0 NTSCF, 1 NTSCF with brief messages, 2 TSCF, 3 container
  msgs : List (List Byte)     -- oldest first
  deadline : Nat              -- ns
  first : Nat                 -- message timestamp of the first message
  deriving DecidableEq, Repr

/-- The bus gateway, beside its registers (11_bus_gateway.md). -/
structure BxState where
  can : Sparse CanState
  pq : Sparse Pq
  opened : Sparse (Option OpenUp)     -- by template
  seq : Sparse Nat            -- sequence numbers, keyed 2 × template + (1 for the container)
  downRr : Nat                -- next DOWN queue in the round robin (R326)
  deriving DecidableEq, Repr


/-- A frame of a TX ring whose descriptors are not yet completed (R458, R461). -/
structure TxJob where
  first : Nat                 -- index of its first descriptor
  count : Nat
  frame : Option Nat          -- the frame whose egress stamp is awaited
  stamp : Option (Nat × Nat)  -- lowest egress port so far and its stamp, compact format
  status : Option Nat         -- STATUS, once known
  deriving DecidableEq, Repr

/-- A host-port ring, beside its registers (R458, R463). -/
structure HpRing where
  on : Bool                   -- set to run by a Stitch and not stopped since
  next : Nat                  -- next descriptor to be read
  jobs : List TxJob           -- oldest first
  comps : Nat                 -- completions whose event is not yet raised
  deriving DecidableEq, Repr

/-- The compute cluster, beside its registers (R450 to R463). -/
structure CxState where
  released : Bool             -- the cluster has left reset since the last start
  copying : Bool              -- SV copies the core image (R450, R451)
  vid : Nat                   -- VAPP_VID[1:0] (R453)
  dvfs : Option (Option Agent × Nat)  -- a change of operating point: its initiator and target
  tags : Sparse (List (List Nat))     -- tag records by core, oldest first (R457)
  tagging : Sparse (Nat × Nat)        -- by core: instructions before the next tag, 0 undrawn; tagged ones not ended
  rings : Sparse HpRing       -- keyed 128 × port + 64 × (1 for TX) + ring
  rr : Sparse Nat             -- TX ring served last, keyed 8 × port + TC (R461)
  deriving DecidableEq, Repr

/-- A posted write in the bridge's queue (R468). -/
structure OutWrite where
  window : Nat
  init : Option Agent
  addr : Nat                  -- PCIe address
  bytes : List Byte
  deriving DecidableEq, Repr

/-- An outbound read, or the zero-length read that flushes a non-posted write (R467, R469). -/
structure OutRead where
  window : Nat
  init : Agent
  addr : Nat
  size : Nat                  -- bytes that the initiator asked for
  fetch : Nat                 -- bytes asked of the device
  flush : Bool
  acc : Nat                   -- the access that it is part of
  deriving DecidableEq, Repr

/-- An access through an outbound window that has not answered: those of one initiator through one window answer in the
order of issue (R469). -/
structure OutAccess where
  acc : Nat
  init : Agent
  window : Nat
  result : Option (Bool × List Byte)  -- its answer, once known
  deriving DecidableEq, Repr

/-- DRAM and the PCIe bridge, beside their registers (R464 to R470). -/
structure MxState where
  dram : Sparse Byte          -- by physical address; an unlisted byte reads 0, as zeroing leaves it (R81)
  cached : Sparse (Option Byte)       -- bytes that a core wrote and its caches have not written back (R449)
  bad : List Nat              -- 32-byte units in which an uncorrectable error was met, until they are written (R464)
  queued : List OutWrite      -- posted writes accepted and perhaps not yet sent, oldest first
  hist : Sparse (List (Nat × Option Agent))  -- posted writes sent through a window, newest first, 256 at most (R468)
  reads : List OutRead        -- outbound reads, oldest first; the first 64 are in flight (R466)
  pre : Sparse (Option (Nat × List Byte))    -- a window's prefetch buffer: its PCIe address and bytes (R467)
  order : List OutAccess      -- the accesses that have not answered, in the order of issue (R469)
  nextAcc : Nat
  msi : List Nat              -- the MSI FIFO (R466)
  deriving DecidableEq, Repr


/-- One-time programmable memory and the flash (R46 to R48, R351, R355, R477): they survive every loss of power. -/
structure NvState where
  flash : Sparse Byte         -- by offset; an unlisted byte reads 0xFF
  fuses : Nat                 -- f[19:0] of R351
  ftk : Nat                   -- the factory transport key
  counter : Nat               -- anti-rollback counter, 0 to 64
  keyHash : List Byte         -- SHA-384 of the vendor key
  deriving DecidableEq, Repr

/-- A key cell: the key XOR its mask, and the mask (R367). -/
structure KeyCell where
  stored : Nat
  mask : Nat
  deriving DecidableEq, Repr

/-- A KX command between its acceptance and its outcome (R373, R374). -/
structure KxJob where
  agent : Agent
  op : Nat
  node : Nat
  arg : Nat
  deriving DecidableEq, Repr

/-- The key tree, beside its registers (12_keys_lifecycle.md). -/
structure KxState where
  cells : Sparse KeyCell      -- 0 S, 1 RK_FIX, 2 FTK, 3 + n node n
  perm : Nat                  -- the draw that permutes the cell addresses at a start (R367)
  nonce : Nat                 -- node 6's nonce (R355)
  jobs : List KxJob           -- commands in progress, oldest first
  debugData : List Byte       -- the DATA words of debug access, which has no mailbox (R374)
  advanced : Bool             -- an LC_ADVANCE has been taken in this start (R353)
  tamperCopy : Word           -- the power die's copy of KX_TAMPER_CFG (R368)
  alarms : Nat                -- tamper sources whose alarm condition holds
  listenLatch : Nat           -- sources latched in LISTEN (R371)
  lockNext : Bool             -- the next start runs with the tree locked (R95, R371)
  deriving DecidableEq, Repr

/-- Who asks CE for a working key, and waits for it: a frame received, a copy at step 9, a sealed message of an UP frame
or one of the frame at P38. -/
inductive CeAsker where
  | rx (id : Nat)
  | tx (port m id : Nat)
  | check (id : Nat)
  | seal (id : Nat)
  deriving DecidableEq, Repr

/-- The cipher engines, beside their registers (13_cipher.md). -/
structure CeState where
  cache : List (Nat × Nat)    -- derivation cache: context and working key, most recently used first (R385)
  waiting : List Nat          -- contexts whose key is being derived (R385)
  unused : List Nat           -- contexts that a Stitch rekeyed and whose key has not been used since (R387, R398)
  held : List (Nat × CeAsker) -- those held for a context's key, oldest first (R385)
  ham : Option (Nat × Nat)    -- the Hamper's data key and tweak key (R394)
  deriving DecidableEq, Repr

/-- The download of RESCUE (R487, R488). -/
structure RescueState where
  link : Option Nat           -- the link that owns the download: 0 DBG_UART, 1 P40
  blobSector : Nat
  key : Nat                   -- key of node 7 as HEADER derived it
  chunks : Sparse Nat         -- arrived chunks of a block, as a mask
  data : Sparse Byte          -- bytes of blocks, keyed 65536 × block + offset
  deriving DecidableEq, Repr

/-- The boot ROM's copy of R482. -/
structure CopyState where
  running : Bool
  next : List Nat             -- slots still to be copied, in order
  written : Nat
  unchanged : Nat
  resumed : Bool
  retries : Nat               -- failed read-backs of the slot in hand
  result : Nat                -- COPY_RESULT
  deriving DecidableEq, Repr

/-- Firmware update (17_firmware_update.md). -/
structure UpdState where
  owner : Option Agent        -- owner of the open session
  first : List Byte           -- first slot of the container accepted by HEADER
  got : Nat                   -- blocks accepted since the last HEADER, as a mask
  lastCmd : Nat               -- time of the owner's last command, ns
  job : Option (Agent × Nat × Nat)    -- command in progress: agent, operation, index
  rescue : RescueState
  copy : CopyState
  deriving DecidableEq, Repr
/-- A sleep domain as the power die and SV keep it (14_sleep_wake.md). -/
structure SdState where
  state : Nat                 -- 0 invalid, 1 AWAKE, 2 QUIET, 3 FOLDING, 4 ASLEEP (R403)
  latched : Bool              -- a wake is latched (R410, R418)
  enforced : Bool
  hold : Bool                 -- the post-wake hold runs
  woken : Bool                -- named by the wake that ended LISTEN (R404)
  timerFrom : Nat             -- start of the fold timer, ns
  awakeFrom : Nat             -- start of the awake time, ns
  kaFail : Nat                -- buses whose keep-alive failure has been raised (R406)
  seq : Nat                   -- sequence number of its own Ethernet keep-alives (R405)
  deriving DecidableEq, Repr

/-- A wake that waits for its judgement at T_VALID (R415). -/
structure WakeJudge where
  slot : Nat                  -- slot of its record in the ring
  total : Nat                 -- records written before it
  inst : Option Nat           -- maskable source instance
  domains : Nat
  valid : Bool
  deriving DecidableEq, Repr

/-- A load-switch channel, beside its registers (15_load_switches.md). -/
structure Chan where
  e : Rat                     -- wire heating state E (R429)
  since : Nat                 -- time of the last trip, or of entry into ON, ns
  tripped : Bool              -- it has tripped since its latest 100 µs update (R433)
  deriving DecidableEq, Repr

/-- The power die's own memory: it survives every reset that reaches the SoC die only (R93). -/
structure AonState where
  cfg12 : RegFile             -- its copy of the Fold settings (R421)
  cfg13 : RegFile             -- the load-switch settings it protects with (R443)
  events : List Nat           -- events kept for the next boot Stitch (R414, R447)
  sd : Sparse SdState
  judge : List WakeJudge
  maskEnd : Sparse Nat        -- end of the mask of a source instance, ns (R415)
  ch : Sparse Chan
  linkAt : Nat                -- last refresh of the power-die link, ns (R442)
  linkWatched : Bool
  holdExpired : Bool
  rtcSet : Option Nat         -- a set of the RTC that waits for the next subsecond wrap (R420)
  kept : Nat                  -- channels that an invalidated domain left held off (R404)
  newRecs : List Nat          -- wake records that SV has still to append to the ledger (R413)
  talkAt : Sparse Nat         -- latest keep-alive of a top-talker entry, keyed 8 × domain + entry, ns (R417)
  deriving DecidableEq, Repr


/-- Where a T1S port stands in the PLCA cycle (R144). -/
structure Plca where
  cur : Nat                   -- the transmit opportunity; 255 while no BEACON has opened a cycle
  ends : Nat                  -- its end on an idle line, ns
  sent : Nat                  -- frames that the port has begun in its own opportunity
  deriving DecidableEq, Repr

/-- What the ports keep for themselves (05_ports.md). -/
structure PxState where
  jabbering : Nat             -- T1S ports that ignore the line until it is idle (R147)
  idcol : Sparse (List Nat)   -- instants of the collisions counted towards IDCOL_LIM, ns (R146)
  anRate : Sparse (Option Nat)    -- rate that the partner's control word completed with (R129)
  bcnLost : Nat               -- T1S ports in a beacon-loss episode (R145)
  pauseEnd : Sparse Nat       -- end of a pause, ns, keyed 9 × port + target; target 8 is PAUSE (R142)
  pauseFrom : Sparse (Option Nat) -- start of the continuous paused time, same keys (R143)
  localFault : Nat            -- SerDes ports that receive a local fault, and so send a remote fault (R130)
  phyLink : Bool              -- link of the external PHY at the last poll (R149)
  phyRate : Nat
  mdio : Option (Agent × Bool)    -- initiator of the MDIO access that runs, and whether it writes (R150)
  poll : Option (Nat × Nat × Nat) -- what an MDIO poll that waits for the access will read (R150)
  quarAt : Sparse Nat         -- instant of a T1S port's quarantine, ns (R148)
  plca : Sparse Plca
  deriving DecidableEq, Repr

/-- The machine. -/
structure State where
  pending : List Instr        -- the waiting commands, first in first out
  now : Nat                   -- ns; the model's own clock
  freeN : Nat                 -- free values taken so far; the model's own
  out : List Output           -- what was sent, newest first; the model's own
  resp : Resp                 -- the latest answer to an agent; the model's own
  regs : RegFile              -- unconfigured registers
  active : Sparse RegFile     -- ACTIVE copies by domain (R98)
  shadow : Sparse RegFile     -- the other copies by domain
  swapped : Nat               -- SWAPPED bits (R99)
  epochs : Sparse Nat         -- the epoch copy of each ingress port's clock domain (R22)
  latches : Sparse (Option Word)  -- high words latched under R8
  mirror : RegFile            -- power-die counters and status in CLK_SVC (R34)
  scope : Sparse (Option Agent)   -- initiator of a set initiator-scoped event (R44)
  pw : PwState
  sv : SvState
  mend : MendState
  sx : SxState
  fx : FxState
  te : TeState
  ob : ObState
  px : PxState
  nv : NvState
  kx : KxState
  ce : CeState
  upd : UpdState
  bx : BxState
  aon : AonState
  cx : CxState
  mx : MxState
  deriving DecidableEq, Repr
/-! ### Reset values -/

/-- A start before its first milestone. -/
def startFresh : Start := ⟨false, false, false, false, false, false, false, false, 0, false, false, false⟩

/-- Power and start-up in OFF. -/
def pwFresh : PwState where
  power := .off
  rail := 0
  fallAt := 0
  fallRetry := false
  retries := 0
  resetN := false
  held := false
  rescue := false
  rootPort := false
  start := startFresh
  moving := .none
  requester := none
  byFold := false
  runWanted := false
  foldDue := false
  wakeLatched := false
  cause := 0
  startFb := 0
  startFull := 0
  dramSr := false
  cxReset := true
  rescueReq := false
  rtcSec := 0
  rtcSub := 0
  rtcPhase := 0

/-- SV with no transaction, before the loader. -/
def svFresh : SvState where
  txns := []
  booting := true
  tasks := []
  reserved := false
  recopy := 0
  defer := []
  loadPos := 0
  loading := false
  oldFmt := false
  covered := []
  covDone := false
  bersan := []
  nvmReply := []

/-- An empty buffer. -/
def sxFresh : SxState where
  frames := []
  nextId := 0
  rx := []
  skip := 0
  flushing := 0
  queues := []
  mqs := []
  tx := []
  turn := []
  bankPtr := 0
  hamPages := 0
  hamBoot := 0
  retired := []
  closes := 0
  refillRr := []
  detached := []
  dieArmed := true
  hamArmed := true

/-- The forwarding engine with nothing learned. -/
def fxFresh : FxState where
  fdb := []
  current := []
  rejoining := []
  learn := []
  pgEmpty := 0
  limHigh := 0
  recovery := []
  seqNext := []
  buckets := []
  badEntries := []
  gcl := []
  gclNext := []
  tableBusy := none
  stalled := 0
  parityAt := []

/-- The time engine at 0. -/
def teFresh : TeState where
  ti := []
  servo := []
  tsi := []
  tso := []
  fbtc := 0
  fbtcPhase := 0
  pairs := []

/-- An empty ledger buffer, before the scan. -/
def ledgerFresh : Ledger where
  buf := []
  scanned := false
  nextSeq := 0
  count := 0
  prevTag := List.replicate 16 0
  boots := 0
  lostPending := 0
  unauthSeen := false
  verify := none

/-- Observability with nothing captured. -/
def obFresh : ObState where
  snap := ⟨.idle, 0, 0, 0, []⟩
  rings := []
  pegLeft := []
  lineLeft := []
  slotGen := 0
  slotAhead := 0
  csu := []
  fltAt := []
  fltNew := []
  ledger := ledgerFresh

/-- The ports at rest. -/
def pxFresh : PxState where
  jabbering := 0
  idcol := []
  anRate := []
  bcnLost := 0
  pauseEnd := []
  pauseFrom := []
  localFault := 0
  phyLink := false
  phyRate := 0
  mdio := none
  poll := none
  quarAt := []
  plca := []

/-- The part as it leaves the factory's blank state: life-cycle state MANUFACTURE, nothing else written. -/
def nvFresh : NvState where
  flash := []
  fuses := 1
  ftk := 0
  counter := 0
  keyHash := List.replicate 48 0

/-- No key, and the reset levels of R377 in the power die's copy. -/
def kxFresh : KxState where
  cells := []
  perm := 0
  nonce := 0
  jobs := []
  debugData := []
  advanced := false
  tamperCopy := 0xA06B0
  alarms := 0
  listenLatch := 0
  lockNext := false

/-- No working key. -/
def ceFresh : CeState := ⟨[], [], [], [], none⟩

/-- No update session, download or copy. -/
def updFresh : UpdState where
  owner := none
  first := []
  got := 0
  lastCmd := 0
  job := none
  rescue := ⟨none, 0, 0, [], []⟩
  copy := ⟨false, [], 0, 0, false, 0, 0⟩

/-- The field buses at rest. -/
def bxFresh : BxState := ⟨[], [], [], [], 0⟩

/-- The power die's memory at its power-on. -/
def aonFresh : AonState where
  cfg12 := []
  cfg13 := []
  events := []
  sd := []
  judge := []
  maskEnd := []
  ch := []
  linkAt := 0
  linkWatched := true
  holdExpired := false
  rtcSet := none
  kept := 0
  newRecs := []
  talkAt := []

/-- The cluster in reset. -/
def cxFresh : CxState where
  released := false
  copying := false
  vid := 3
  dvfs := none
  tags := []
  tagging := []
  rings := []
  rr := []

/-- DRAM and the bridge with nothing stored. -/
def mxFresh : MxState := ⟨[], [], [], [], [], [], [], [], 0, []⟩

/-- The gateway in OFF, before VBAT_AON is applied: every register at its reset value, every queue empty. -/
def State.reset : State where
  pending := []
  now := 0
  freeN := 0
  out := []
  resp := .none
  regs := []
  active := []
  shadow := []
  swapped := 0
  epochs := []
  latches := []
  mirror := []
  scope := []
  pw := pwFresh
  sv := svFresh
  mend := ⟨[], [], 0, []⟩
  sx := sxFresh
  fx := fxFresh
  te := teFresh
  ob := obFresh
  px := pxFresh
  nv := nvFresh
  kx := kxFresh
  ce := ceFresh
  upd := updFresh
  bx := bxFresh
  aon := aonFresh
  cx := cxFresh
  mx := mxFresh

end Sys2Proof.Machine
end

