-- ==== Sys2Proof/Machine/Ops.lean ====
section
/-!
DEFINITION. The named operations over registers, configuration copies, free values and outputs.
-/

namespace Sys2Proof.Machine

/-! ### The register map -/

/-- The index values of an address within a register array, or none where the address is not in it. -/
def matchDims : List Dim → Nat → Option (List Nat)
  | [], rem => if rem = 0 then some [] else none
  | d :: ds, rem =>
    let i := min (rem / d.stride) d.hi
    if i < d.lo then none
    else match matchDims ds (rem - i * d.stride) with
      | some is => some (i :: is)
      | none => none

/-- The address lies in the row. -/
def RegRow.hits (r : RegRow) (off : Nat) : Bool :=
  decide (r.off ≤ off) && (matchDims r.dims (off - r.off)).isSome

/-- The first row of a list that holds the address. -/
def findRow : List RegRow → Nat → Option RegRow
  | [], _ => none
  | r :: rs, off => if r.hits off then some r else findRow rs off

/-- The register at a space offset (R2: none where no register is defined). -/
def regRow (off : Nat) : Option RegRow := findRow (RegMap.blockRows (off / 0x1000000)) off

/-- The reset word of a row. -/
def resetOf : List FieldDef → Nat
  | [] => 0
  | f :: fs => f.reset * 2 ^ f.lo + resetOf fs

/-- What an unlisted register holds: the reset values of its fields (R7). -/
def resetWord (off : Nat) : Word :=
  match regRow off with
  | some r => Word.ofNat (resetOf r.fields)
  | none => 0

/-! ### Fields -/

/-- A field of a word. -/
def Fld.get (f : Fld) (w : Word) : Nat := (w.extractLsb' f.lo f.wid).toNat

/-- The mask of a field. -/
def Fld.mask (f : Fld) : Word := (BitVec.ofNat 32 (2 ^ f.wid - 1)) <<< f.lo

/-- A word with the field set to v modulo its width. -/
def Fld.put (f : Fld) (w : Word) (v : Nat) : Word :=
  (w &&& ~~~ f.mask) ||| ((BitVec.ofNat 32 (v % 2 ^ f.wid)) <<< f.lo)

/-! ### Register files -/

/-- A field of a register file. -/
def rfGet (rf : RegFile) (f : Fld) : Nat := f.get (Sparse.get resetWord rf f.off)

/-- A register file with a field set. -/
def rfSet (rf : RegFile) (f : Fld) (v : Nat) : RegFile :=
  Sparse.set resetWord rf f.off (f.put (Sparse.get resetWord rf f.off) v)

namespace State

/-- The word of an unconfigured register. -/
def rd (s : State) (off : Nat) : Word := Sparse.get resetWord s.regs off

/-- Set the word of an unconfigured register. -/
def wr (s : State) (off : Nat) (w : Word) : State := { s with regs := Sparse.set resetWord s.regs off w }

/-- A field of an unconfigured register. -/
def rg (s : State) (f : Fld) : Nat := rfGet s.regs f

/-- Set a field of an unconfigured register. -/
def setRg (s : State) (f : Fld) (v : Nat) : State := { s with regs := rfSet s.regs f v }

/-- The ACTIVE copy of a configuration domain (R98). -/
def activeOf (s : State) (cd : Nat) : RegFile := Sparse.get (fun _ => []) s.active cd

/-- The other copy of a configuration domain (R98). -/
def shadowOf (s : State) (cd : Nat) : RegFile := Sparse.get (fun _ => []) s.shadow cd

/-- A field of the ACTIVE copy. -/
def act (s : State) (f : Fld) : Nat := rfGet (s.activeOf f.cd) f

/-- A field of the other copy. -/
def shd (s : State) (f : Fld) : Nat := rfGet (s.shadowOf f.cd) f

/-- Set a field of the other copy. -/
def setShd (s : State) (f : Fld) (v : Nat) : State :=
  { s with shadow := Sparse.set (fun _ => []) s.shadow f.cd (rfSet (s.shadowOf f.cd) f v) }

/-- The current epoch (R115). -/
def epoch (s : State) : Nat := s.rg F.SV_TX_EPOCH_EPOCH

/-- A frame of this 8-bit epoch uses the other copy of the domain (R99). -/
def usesOther (s : State) (ep cd : Nat) : Bool :=
  decide (ep ≠ s.epoch % 256) && s.swapped.testBit cd

/-- The copy of a domain that a frame of an epoch uses (R99). -/
def copyOf (s : State) (ep cd : Nat) : RegFile :=
  if s.usesOther ep cd then s.shadowOf cd else s.activeOf cd

/-- A field as a frame of an epoch sees it (R22, R99). -/
def cfg (s : State) (ep : Nat) (f : Fld) : Nat := rfGet (s.copyOf ep f.cd) f

/-- A saturating counter field takes n more occurrences (R9). -/
def bump (s : State) (f : Fld) (n : Nat := 1) : State :=
  s.setRg f (min (s.rg f + n) (2 ^ f.wid - 1))

/-- A wrapping counter field takes n more occurrences (R9). -/
def tick (s : State) (f : Fld) (n : Nat := 1) : State := s.setRg f (s.rg f + n)

/-- The 64-bit value of two consecutive registers. -/
def rd64 (s : State) (off : Nat) : Nat := (s.rd off).toNat + 2 ^ 32 * (s.rd (off + 4)).toNat

/-- Set the 64-bit value of two consecutive registers. -/
def wr64 (s : State) (off v : Nat) : State :=
  (s.wr off (Word.ofNat v)).wr (off + 4) (Word.ofNat (v / 2 ^ 32))

/-- A wrapping 64-bit counter takes n more occurrences. -/
def bump64 (s : State) (off : Nat) (n : Nat := 1) : State := s.wr64 off (s.rd64 off + n)

/-- Send something out. -/
def emit (s : State) (o : Output) : State := { s with out := o :: s.out }

/-- The next free value. -/
def freeVal (s : State) : Nat := Config.freeValue s.freeN

/-- The state after a free value has been taken. -/
def useFree (s : State) : State := { s with freeN := s.freeN + 1 }

/-- Answer the agent. -/
def answer (s : State) (r : Resp) : State := { s with resp := r }

/-- A command takes effect only where its operands name a unit that exists, or where the die it acts on is powered. -/
def only (s : State) (ok : Bool) (t : State) : State := if ok then t else s

/-- Fold a step over a list. -/
def forEach {α : Type} (s : State) (l : List α) (f : State → α → State) : State := l.foldl f s

end State

/-- What a meaning answers. -/
abbrev Result := Host.Outcome State Fault Refusal

/-- A field value, or the value its reserved settings act as (R4). -/
def orElse (ok : Bool) (v dflt : Nat) : Nat := if ok then v else dflt

end Sys2Proof.Machine
end

