-- ==== Sys2Proof/Machine/Events.lean ====
section
/-!
DEFINITION. The event hub (R42 to R45): latching an event, its destinations and the messages it sends.
-/

namespace Sys2Proof.Machine

namespace State

/-- The SoC die is powered and out of reset, so that SoC registers answer (R17). -/
def socUp (s : State) : Bool := decide (s.pw.power = .up) && !s.pw.held

/-- TI0's value as nanoseconds. -/
def ti0Ns (s : State) : Nat :=
  let t := Sparse.get (fun _ => ⟨0, 0, 0⟩) s.te.ti 0
  1000000000 * t.sec + t.ns

/-- The status bit of an event (R42). -/
def evSet (s : State) (n : Nat) : Bool := (s.rg (F.SV_EV_STATUS_EV (n / 32))).testBit (n % 32)

/-- The initiator that an initiator-scoped event is limited to, if any (R44). -/
def evScope (s : State) (n : Nat) : Option Agent := Sparse.get (fun _ => none) s.scope n

/-- An event reaches an application core's line (R43, R44). -/
def evToCore (s : State) (n j : Nat) : Bool :=
  s.evSet n && (s.act (F.SV_EV_ROUTE_CORE n)).testBit j &&
    match s.evScope n with
    | none => true
    | some (.core k) => decide (k.val = j)
    | some _ => false

/-- An event is pending for an MSI-X vector (R43, R44). -/
def evToVec (s : State) (n v : Nat) : Bool :=
  s.evSet n && decide (s.act (F.SV_EV_ROUTE_MSIX_EN n) = 1) && decide (s.act (F.SV_EV_ROUTE_MSIX_VEC n) = v) &&
    match s.evScope n with
    | none => true
    | some .pcie => true
    | some _ => false

/-- An MSI-X vector's set of pending routed events is not empty. -/
def vecPending (s : State) (v : Nat) : Bool := (List.range 256).any (fun n => s.evToVec n v)

/-- The pin IRQ_Ni is asserted (driven low), R43. -/
def irqAsserted (s : State) (i : Nat) : Bool :=
  (List.range 256).any (fun n => s.evSet n && (s.act (F.SV_EV_ROUTE_PIN n)).testBit i)

/-- The interrupt line of application core j is asserted (R43). -/
def coreLine (s : State) (j : Nat) : Bool :=
  (List.range 256).any (fun n => s.evToCore n j) || (s.rg F.CX_CORE_STAT_OFF_REQ).testBit j

/-- The open Bersan sessions. -/
def openSessions (s : State) : List Nat :=
  (List.range 4).filter (fun n => (Sparse.get (fun _ => none) s.sv.bersan n).isSome)

/-- One MSI-X message, in endpoint mode only (R43). -/
def sendVec (s : State) (v : Nat) : State := if s.pw.rootPort then s else s.emit (.msix v)

/-- The sessions that receive the notification of an event with this initiator (R43, R44). -/
def notifyTargets (s : State) (init : Option Agent) : List Nat :=
  match init with
  | none => s.openSessions
  | some (.bersan n) => s.openSessions.filter (fun k => decide (k = n.val))
  | some _ => []

/-- The notifications of an event (R43). -/
def notifyAll (s : State) (n : Nat) (init : Option Agent) : State :=
  if s.act (F.SV_EV_ROUTE_MGMT n) = 1 then
    s.forEach (s.notifyTargets init) (fun t k => t.emit (.notify k n s.ti0Ns))
  else s

/-- The event's status bit set, with its initiator. -/
def latchEvent (s : State) (n : Nat) (init : Option Agent) : State :=
  { s.setRg (F.SV_EV_STATUS_EV (n / 32)) (setBit (s.rg (F.SV_EV_STATUS_EV (n / 32))) (n % 32)) with
    scope := Sparse.set (fun _ => none) s.scope n init }

/-- Agents without an event domain of their own reach every destination (R44). -/
def scopeOf : Option Agent → Option Agent
  | some .sv => none
  | some .debug => none
  | a => a

/-- An event occurs: its bit latches and it is delivered; an occurrence of a set event is not queued (R42 to R45). -/
def raise (s : State) (n : Nat) (init : Option Agent := none) : State :=
  if !s.socUp || s.evSet n then s
  else
    let a := scopeOf init
    let v := s.act (F.SV_EV_ROUTE_MSIX_VEC n)
    let t := (s.latchEvent n a).notifyAll n a
    if s.vecPending v then t else if t.evToVec n v then t.sendVec v else t

/-! ### Agents -/

/-- Debug access is full: the life-cycle state is MANUFACTURE, DEVELOP or RETURNED (R352). -/
def debugFull (s : State) : Bool := [1, 2, 4].contains (s.rg F.KX_STAT_LC)

/-- The agent reaches the register space (R17, R40, R352). -/
def reaches (s : State) (a : Agent) : Bool :=
  s.socUp &&
    match a with
    | .core _ => true
    | .sv => true
    | .pcie => !s.pw.rootPort
    | .bersan n => (Sparse.get (fun _ => none) s.sv.bersan n.val).isSome
    | .debug => s.debugFull

/-- An agent's write or command acts where the agent reaches the register space; elsewhere nothing answers. -/
def byAgent (s : State) (a : Agent) (f : State → State) : State :=
  if s.reaches a then (f s).answer .done else s.answer .noAnswer

/-- Several events in order. -/
def raiseAll (s : State) (ns : List Nat) : State := s.forEach ns (fun t n => t.raise n)

end State

end Sys2Proof.Machine
end

