-- ==== Sys2Proof/Machine/TimeOps.lean ====
section
/-!
DEFINITION. The time instances, FBTC and their conversions (09_time.md): reading, advancing and moving them.
-/

namespace Sys2Proof.Machine

/-- Nanoseconds in a second. -/
abbrev giga : Nat := 1000000000

/-- Nanoseconds after which a time instance wraps (R260: seconds wrap modulo 2^48). -/
abbrev tiWrap : Nat := 2 ^ 48 * giga

/-- The value of a 32-bit word as a signed number. -/
def signed32 (w : Nat) : Int := if w < 2 ^ 31 then (w : Int) else (w : Int) - 2 ^ 32

/-- The value of a 24-bit field as a signed number (R284). -/
def signed24 (w : Nat) : Int := if w < 2 ^ 23 then (w : Int) else (w : Int) - 2 ^ 24

/-- The value of a 64-bit number as a signed number. -/
def signed64 (w : Nat) : Int := if w < 2 ^ 63 then (w : Int) else (w : Int) - 2 ^ 64

/-- A signed number as n bits of two's complement. -/
def twos (n : Nat) (v : Int) : Nat := (v % (2 ^ n : Int)).toNat

/-- One CLK_TIME cycle of a time instance, with the increment in force in units of 2^-32 ns (R260). -/
def Ti.advance (t : Ti) (inc : Nat) : Ti :=
  let f := t.frac + inc % 2 ^ 32
  let ns := t.ns + inc / 2 ^ 32 + f / 2 ^ 32
  if ns ≥ giga then ⟨(t.sec + 1) % 2 ^ 48, ns - giga, f % 2 ^ 32⟩ else ⟨t.sec, ns, f % 2 ^ 32⟩

/-- A time instance's value in nanoseconds. -/
def Ti.total (t : Ti) : Nat := giga * t.sec + t.ns

/-- A time instance at a value in nanoseconds. -/
def Ti.ofTotal (n frac : Nat) : Ti := ⟨n % tiWrap / giga, n % giga, frac⟩

/-- A free handle. -/
def freeTxn : Txn := ⟨.free, .sv, 0, 0, 0, 0, 0, false, 0, 0, false, false⟩

namespace State

/-- Time instance i. -/
def tiOf (s : State) (i : Nat) : Ti := Sparse.get (fun _ => ⟨0, 0, 0⟩) s.te.ti i

/-- Set time instance i. -/
def setTi (s : State) (i : Nat) (t : Ti) : State :=
  { s with te.ti := Sparse.set (fun _ => ⟨0, 0, 0⟩) s.te.ti i t }

/-- Nanoseconds of instance i. -/
def tiNs (s : State) (i : Nat) : Nat := (s.tiOf i).total

/-- Value of instance i in 1/256 ns. -/
def tiFine (s : State) (i : Nat) : Nat := 256 * (s.tiOf i).total + (s.tiOf i).frac / 2 ^ 24

/-- INC_NOM of instance i, 2^-32 ns (R282: INC_INT 0 makes it act as 2.0 ns). -/
def incNom (s : State) (i : Nat) : Nat :=
  let n := s.act (F.TE_TI_CFG_INC_INT i)
  if n = 0 then 2 * 2 ^ 32 else 2 ^ 32 * n + s.act (F.TE_TI_INC_INC_FRAC i)

/-- The clip of R261 in units of 2^-32 ns. -/
def adjLimit (s : State) (i : Nat) : Nat := s.incNom i / 1000

/-- ADJ as written. -/
def adjRaw (s : State) (i : Nat) : Int := signed32 (s.rg (F.TE_TI_ADJ_ADJ i))

/-- The ADJ written is clipped against the current INC_NOM. -/
def adjOver (s : State) (i : Nat) : Bool := decide ((s.adjRaw i).natAbs > s.adjLimit i)

/-- ADJ in force (R261). -/
def adjEff (s : State) (i : Nat) : Int := max (-(s.adjLimit i : Int)) (min (s.adjLimit i : Int) (s.adjRaw i))

/-- INC_NOM + ADJ in force. -/
def incEff (s : State) (i : Nat) : Nat := ((s.incNom i : Int) + s.adjEff i).toNat

/-- The instance that the latest TE event names (R287). -/
def raiseTe (s : State) (ev i : Nat) (init : Option Agent := none) : State :=
  (s.setRg F.TE_EV_LAST_TI i).raise ev init

/-- A pin event with its pin and instance (R287). -/
def raiseTePin (s : State) (ev k i : Nat) : State :=
  ((s.setRg F.TE_EV_LAST_TI i).setRg F.TE_EV_LAST_PIN k).raise ev

/-- The time of instance i at the latest count edge of FBTC, in 1/256 ns (R281): `fbtcPhase` / 4 cycles have passed since
that edge. -/
def countTime (s : State) (i : Nat) : Nat := s.tiFine i - s.te.fbtcPhase * s.incEff i / (4 * 2 ^ 24)

/-- TE pairs FBTC with instance PAIR_TI (R281). -/
def takePair (s : State) : State :=
  let i := s.act F.TE_PAIR_CFG_PAIR_TI
  { s with te.pairs := (⟨s.te.fbtc, s.countTime i, s.incEff i⟩ :: s.te.pairs).take 16 }

/-- A fresh pair where the instance is the paired one (R267, R281). -/
def pairIf (s : State) (i : Nat) : State := if s.act F.TE_PAIR_CFG_PAIR_TI = i then s.takePair else s

/-- ADJ_CLIPPED follows the ADJ in force, and its rise raises EV_TE_ADJ_CLIPPED (R261). -/
def judgeAdj (s : State) (i : Nat) : State :=
  let was := s.rg (F.TE_TI_STAT_ADJ_CLIPPED i)
  if s.adjOver i then
    let t := s.setRg (F.TE_TI_STAT_ADJ_CLIPPED i) 1
    if was = 0 then t.raiseTe 130 i else t
  else s.setRg (F.TE_TI_STAT_ADJ_CLIPPED i) 0

/-- A new ADJ takes effect (R261, R281). -/
def applyAdj (s : State) (i w : Nat) : State := ((s.setRg (F.TE_TI_ADJ_ADJ i) w).judgeAdj i).pairIf i

/-- JUMP_LIM of instance i (R282). -/
def jumpLim (s : State) (i : Nat) : Nat :=
  let v := s.act (F.TE_TI_JUMP_JUMP_LIM i)
  orElse (decide (v ≠ 0)) v 1000

/-- The time of FBTC count f by the latest pair at or before it, in 1/256 ns of the paired instance; none before any
pair (R281). -/
def fbtcTime (s : State) (f : Nat) : Option Nat :=
  match s.te.pairs.find? (fun p => decide (p.count ≤ f)) with
  | some p => some (p.time + (f - p.count) * 25 * p.inc / (4 * 2 ^ 24))
  | none => none

/-- A stamp of instance a, in 1/256 ns, expressed on instance b in nanoseconds (R272): a stamp may lie after the present
of its instance, and the result before zero. -/
def convertStamp (s : State) (a t b : Nat) : Int :=
  if a = b then ((t / 256 : Nat) : Int)
  else
    let back := ((s.tiFine a : Int) - t) * s.incEff b / (max 1 (s.incEff a) : Nat)
    ((s.tiFine b : Int) - back) / 256

/-! ### The handles of the transaction engine that wait for a time -/

/-- Handle h. -/
def txnOf (s : State) (h : Nat) : Txn := Sparse.get (fun _ => freeTxn) s.sv.txns h

/-- Put handle h. -/
def setTxn (s : State) (h : Nat) (x : Txn) : State :=
  { s with sv.txns := Sparse.set (fun _ => freeTxn) s.sv.txns h x }

/-- The handles that are not free (R105: a held Stitch counts as open). -/
def openTxns (s : State) : List Nat := (List.range 4).filter (fun h => decide ((s.txnOf h).state ≠ .free))

/-- A held Stitch's time has come: it and the others held for the same time on the same instance wait for the drain
(R110). -/
def heldFire (s : State) (h : Nat) (late : Bool) : State :=
  let x := s.txnOf h
  s.forEach ((List.range 4).filter (fun k =>
    let y := s.txnOf k
    decide (y.state = .held) && decide (y.ti = x.ti) && decide (y.time = x.time)))
    (fun t k => t.setTxn k { t.txnOf k with state := .draining, late := late })

/-- The held Stitches whose time a step of instance i has reached commit late (R110, R267). -/
def heldReached (s : State) (i : Nat) : State :=
  s.forEach ((List.range 4).filter (fun h =>
    let x := s.txnOf h
    decide (x.state = .held) && decide (x.ti = i) && decide (x.time ≤ s.tiNs i)))
    (fun t h => t.setTxn h { t.txnOf h with state := .draining, late := true })

/-! ### The time match of OB_SNAP -/

/-- OB_SNAP_TIME takes the time of an instance (R37, R543). -/
def snapTime (s : State) (i : Nat) : State :=
  let t := s.tiOf i
  ((s.setRg F.OB_SNAP_TIME_NS_NS t.ns).setRg F.OB_SNAP_TIME_SEC_LO_SEC t.sec).setRg F.OB_SNAP_TIME_SEC_HI_SEC (t.sec / 2 ^ 32)

/-- The snapshot instant (R34, R543): the freeze forms, and the latest mirror of the power die is held. -/
def snapForm (s : State) : State :=
  let t := (s.setRg F.OB_SNAP_STATE 1).snapTime s.ob.snap.ti
  { t with ob.snap := { s.ob.snap with state := .forming, cut := [(.aon, s.mirror)] } }

/-- The latched instance has reached the latched time of an armed time match (R37). -/
def snapMatched (s : State) : Bool :=
  decide (s.ob.snap.state = .armed) && decide (s.ob.snap.src = 3) && decide (s.ob.snap.at_ ≤ s.tiNs s.ob.snap.ti)

/-- An armed time match that has been reached freezes (R37). -/
def snapMatch (s : State) : State := if s.snapMatched then s.snapForm else s

end State

/-- Nanoseconds and seconds modulo 2^24 of the compact format, as the nearest time to `now` (R252, R271). -/
def extendTime (now t : Nat) : Nat :=
  let w := 2 ^ 24 * giga
  let b := now / w * w + t
  if b > now + w / 2 ∧ w ≤ b then b - w else if b + w / 2 < now then b + w else b

/-- A stamp of an instance as the compact format carries it, with the full seconds nearest to the instance's present
(R271); both in 1/256 ns, `now` in ns. -/
def nearStamp (now fine : Nat) : Nat := 256 * extendTime now (fine / 256 % (2 ^ 24 * giga)) + fine % 256

/-- A stamp in the 8-byte compact format of R271: instance and time in 1/256 ns. -/
def compactStamp (ti fine : Nat) : Nat :=
  let ns := fine / 256
  2 ^ 62 * (ti % 4) + 2 ^ 38 * (ns / giga % 2 ^ 24) + 256 * (ns % giga) + fine % 256

end Sys2Proof.Machine
end

