-- ==== Sys2Proof/Machine/Records.lean ====
section
/-!
DEFINITION. What the gateway records of itself (18_observability_faults.md): PMU counts, slot settlement, DRAM-ring
records, fault records and ledger records.
-/

namespace Sys2Proof.Machine

/-- Number of units of the kind that QUAL names for a PMU event (R494); 0 where it names none. -/
def pmuUnits (ev : Nat) : Nat :=
  if ev ∈ [0x01, 0x02, 0x04, 0x05, 0x06, 0x10, 0x14] then 328
  else if ev ∈ [0x03, 0x07, 0x08, 0x20, 0x21, 0x22, 0x27, 0x30, 0x31] then 41
  else if ev ∈ [0x09, 0x23, 0x24] then 4096
  else if ev ∈ [0x25, 0x26] then 1024
  else if ev ∈ [0x40, 0x41, 0x42, 0x44, 0x45] then 8
  else 0

/-- The counters that take an event's group (R493). -/
def pmuCounters (ev : Nat) : List Nat :=
  if ev < 0x40 then List.range 80 else (List.range 16).map (· + 80)

namespace State

/-- Counter k counts this event of this unit (R493, R494). -/
def pmuTakes (s : State) (k ev unit : Nat) : Bool :=
  let q := s.act (F.OB_PMU_QUAL_QUAL k)
  decide (s.act (F.OB_PMU_SEL_EN k) = 1) && decide (s.act (F.OB_PMU_SEL_EVENT k) = ev) &&
    (decide (q ≥ pmuUnits ev) || decide (q = unit))

/-- Counter k takes n more; a wrap sets its overflow bit and raises EV_OB_PMU_OVF (R493). -/
def pmuAdd (s : State) (k n : Nat) : State :=
  let v := s.rd64 (R.OB_PMU_CNT k) + n
  let t := s.wr64 (R.OB_PMU_CNT k) v
  if v ≥ 2 ^ 64 then
    (t.setRg (F.OB_PMU_OVF_OVF (k / 32)) (setBit (t.rg (F.OB_PMU_OVF_OVF (k / 32))) (k % 32))).raise 251
  else t

/-- A PMU event of a unit occurs n times (R494). -/
def pmu (s : State) (ev unit : Nat) (n : Nat := 1) : State :=
  s.forEach ((pmuCounters ev).filter (fun k => s.pmuTakes k ev unit)) (fun t k => t.pmuAdd k n)

/-- The pending slots of a frame become retired or wasted, where they were taken after the last clear (R496, R497). -/
def settleSlots (s : State) (f : Frame) : State :=
  if f.slots = 0 ∨ f.slotGen ≠ s.ob.slotGen then s
  else
    let t := s.setRg F.OB_SLOT_PEND_SLOTS (s.rg F.OB_SLOT_PEND_SLOTS - f.slots)
    if f.left then t.bump64 R.OB_SLOT_RETIRED f.slots else t.bump64 R.OB_SLOT_WASTED f.slots

/-! ### Rings -/

/-- Ring r's FIFO. -/
def ringOf (s : State) (r : Nat) : Ring := Sparse.get (fun _ => ⟨[], 0⟩) s.ob.rings r

/-- Set ring r's FIFO. -/
def setRing (s : State) (r : Nat) (x : Ring) : State :=
  { s with ob.rings := Sparse.set (fun _ => ⟨[], 0⟩) s.ob.rings r x }

/-- A record of ring r is lost (R499). -/
def ringLost (s : State) (r : Nat) : State :=
  let t := s.bump (F.OB_RING_LOST_LOST r)
  if s.rg (F.OB_RING_LOST_LOST r) = 0 then t.raise (if r = 0 then 249 else 250) else t

/-- A record enters ring r's FIFO of 64, or is lost (R499). -/
def ringPush (s : State) (r : Nat) (bytes : List Byte) : State :=
  let x := s.ringOf r
  if x.fifo.length ≥ 64 then (s.setRing r { x with seq := (x.seq + 1) % 2 ^ 32 }).ringLost r
  else s.setRing r { fifo := x.fifo ++ [bytes], seq := (x.seq + 1) % 2 ^ 32 }

/-! ### Faults -/

/-- Classes that also append a ledger record (R509). -/
def ledgerClass (c : Nat) : Bool := c ∈ [0x02, 0x04, 0x06, 0x07, 0x09, 0x0B, 0x0D, 0x0F, 0x12]

/-- The RTC and TI0 times of a ledger record, and its append to SV's buffer of 64, or its loss (R512, R515). The ROM
writes no ledger record (R513). -/
def ledgerAdd (s : State) (type : Nat) (payload : List Byte) : State :=
  if !(s.socUp && s.pw.start.firmware) then s
  else if s.ob.ledger.buf.length ≥ 64 then
    ({ s with ob.ledger.lostPending := s.ob.ledger.lostPending + 1 }.bump F.SV_LEDGER_LOST_COUNT).raise 26
  else
    let ti0 := if s.rg (F.TE_TI_STAT_SET 0) = 1 then compactStamp 0 (s.tiFine 0) else 0
    { s with ob.ledger.buf :=
        s.ob.ledger.buf ++ [⟨type, s.pw.rtcSec, s.pw.rtcSub, ti0, slice0 payload 0 20⟩] }

/-- A fault occurrence merges into the newest record of its class and unit (R510). -/
def faultMerge (s : State) (k : Nat) : State :=
  let ms := (s.now - Sparse.get (fun _ => 0) s.ob.fltAt k) / 1000000
  (s.bump (F.SV_FLT_REC_W3_REPEAT k)).setRg (F.SV_FLT_REC_W7_LAST_MS k) ms

/-- A fault occurrence writes a new record over the oldest (R510, R511). -/
def faultNew (s : State) (cls unit addr : Nat) : State :=
  let k := s.rg F.SV_FLT_HEAD_NEXT
  let oldCls := s.rg (F.SV_FLT_REC_W0_CLASS k)
  let oldUnit := s.rg (F.SV_FLT_REC_W0_UNIT k)
  let oldKey := 65536 * oldCls + oldUnit
  let idx := if Sparse.get (fun _ => 0) s.ob.fltNew oldKey = k + 1 then
      Sparse.set (fun _ => 0) s.ob.fltNew oldKey 0 else s.ob.fltNew
  let t0 := if oldCls ≠ 0 then s.bump F.SV_FLT_OVERWRITTEN_COUNT else s
  let t1 := { t0 with
    ob.fltNew := Sparse.set (fun _ => 0) idx (65536 * cls + unit) (k + 1)
    ob.fltAt := Sparse.set (fun _ => 0) t0.ob.fltAt k t0.now }
  let ti := t1.tiOf 0
  let t2 := ((t1.wr (R.SV_FLT_REC_W0 k) (Word.ofNat (cls + 65536 * unit))).wr (R.SV_FLT_REC_W1 k) (Word.ofNat addr)).wr
    (R.SV_FLT_REC_W2 k) (Word.ofNat (addr / 2 ^ 32))
  let t3 := (((t2.wr (R.SV_FLT_REC_W3 k) 0).wr (R.SV_FLT_REC_W4 k) (Word.ofNat ti.ns)).wr
    (R.SV_FLT_REC_W5 k) (Word.ofNat ti.sec)).wr (R.SV_FLT_REC_W6 k) (Word.ofNat (ti.sec / 2 ^ 32))
  let t4 := (t3.wr (R.SV_FLT_REC_W7 k) 0).setRg F.SV_FLT_HEAD_NEXT ((k + 1) % 256)
  let t5 := t4.tick F.SV_FLT_HEAD_TOTAL
  (t5.setRg F.SV_FLT_PEND_CLASSES (setBit (t5.rg F.SV_FLT_PEND_CLASSES) cls)).raise 24

/-- A fault of a class and unit occurs (R509 to R511): counted, merged or recorded, and for the marked classes
appended to the ledger. -/
def fault (s : State) (cls unit addr : Nat) (lost : Nat := 0) : State :=
  let t := s.bump (F.SV_FLT_COUNT_COUNT cls)
  let k := Sparse.get (fun _ => 0) t.ob.fltNew (65536 * cls + unit)
  let r := (k - 1) % 256
  let u := if k ≠ 0 ∧ t.now ≤ giga + Sparse.get (fun _ => 0) t.ob.fltAt r then t.faultMerge r
    else t.faultNew cls unit addr
  if ledgerClass cls then
    u.ledgerAdd 0x05 (leBytes 1 cls ++ leBytes 2 unit ++ leBytes 8 addr ++ leBytes 4 lost)
  else u

/-- FAULT_N is asserted (R511). -/
def faultPin (s : State) : Bool :=
  s.socUp && decide (Nat.land (s.rg F.SV_FLT_PEND_CLASSES) (s.act F.SV_FLT_PIN_CLASSES) ≠ 0)

end State

end Sys2Proof.Machine
end

