-- ==== Sys2Proof/Machine/PwOps.lean ====
section
/-!
DEFINITION. The power die as operations: what Fold holds off, the load-switch channels (15_load_switches.md), the start
of the rails, and a wake (14_sleep_wake.md, R410 to R415).
-/

namespace Sys2Proof.Machine

/-- Rated current in mA and time constant in seconds of a wire class (R428). -/
def wireClass (w : Nat) : Nat × Nat :=
  [(3000, 6), (4000, 8), (5000, 11), (6000, 14), (8000, 19), (10000, 28), (10000, 40), (10000, 55)].getD w (3000, 6)

/-- One 100 µs update of a wire heating state (R429). -/
def heat (e : Rat) (w mA : Nat) : Rat :=
  let m : Rat := mkRat mA (wireClass w).1
  e + (m * m - e) / (((wireClass w).2 * 10000 : Nat) : Rat)

/-- E_TRIP (R429). -/
def eTrip : Rat := mkRat 121 100

/-- SENSE of a current in mA (R439). -/
def senseCode (mA : Nat) : Nat := min 3839 (mA / 4)

/-- The ports that only a RUN mode serves: the SerDes ports and the host ports (R72, R85). -/
def runPorts : Nat := 2 ^ 24 - 1 + 2 ^ 36 + 2 ^ 37

/-- A sleep domain before any configuration. -/
def emptySd : SdState := ⟨0, false, false, false, false, 0, 0, 0, 0⟩

namespace State

/-- An event of the power die: while the SoC die does not run it is kept for the next boot Stitch (R414, R447). -/
def raisePw (s : State) (ev : Nat) : State :=
  if s.socUp then s.raise ev
  else if s.aon.events.contains ev then s
  else { s with aon.events := s.aon.events ++ [ev] }

/-! ### Sleep domains -/

/-- Sleep domain d. -/
def sdOf (s : State) (d : Nat) : SdState := Sparse.get (fun _ => emptySd) s.aon.sd d

/-- Put sleep domain d; SV_SD_STAT shows it while the SoC die runs (R422). -/
def setSd (s : State) (d : Nat) (x : SdState) : State :=
  { s with aon.sd := Sparse.set (fun _ => emptySd) s.aon.sd d x }

/-- A field of the power die's copy of the Fold settings. -/
def fold (s : State) (f : Fld) : Nat := rfGet s.aon.cfg12 f

/-- The valid sleep domains (R402). -/
def validSds (s : State) : List Nat := (List.range 16).filter (fun d => decide (s.fold (F.SV_SD_W0_VALID d) = 1))

/-- PORTS of a domain; P38 and P39 act as 0 (R421). -/
def sdPorts (s : State) (d : Nat) : Nat :=
  clrBit (clrBit (s.fold (F.SV_SD_W1_PORTS_LO d) + 2 ^ 32 * s.fold (F.SV_SD_W2_PORTS_HI d)) 38) 39

/-- BUSES of a domain. -/
def sdBuses (s : State) (d : Nat) : Nat := s.fold (F.SV_SD_W2_BUSES d)

/-- The channels that no valid domain names any more and that stay held off as a Stitch found them, `o` being the state
before it (R404). -/
def keptAfter (s o : State) : Nat :=
  let named := fun (u : State) (k : Nat) => u.validSds.any (fun d => (u.fold (F.SV_SD_W6_OUT d)).testBit k)
  let gone := (List.range 16).filter (fun k => named o k && !named s k && decide (s.rg (F.PW_OUT_STAT_STATE k) = 5))
  gone.foldl setBit (((maskList s.aon.kept 16).filter (fun k => !named s k)).foldl setBit 0)

/-- The gateway needs the domain (R406, R418). -/
def sdNeeded (s : State) (d : Nat) : Bool :=
  decide (s.fold (F.SV_SD_W0_MEMBER d) = 1) && !(s.sdOf d).enforced &&
    (decide (s.fold (F.SV_SD_W0_NEED d) = 1) || (s.rg F.SV_FOLD_NEED_NEED).testBit d || (s.sdOf d).hold)

/-- A QUIET domain that the gateway needs returns to AWAKE (R403). -/
def needUp (s : State) (d : Nat) : State :=
  if (s.sdOf d).state = 2 ∧ s.sdNeeded d then s.setSd d { s.sdOf d with state := 1 } else s

/-- Fold holds a channel off: every valid domain that names it is ASLEEP or past its commit point (R408), or one of them is
ENFORCED (R409). A domain that a Stitch made invalid has left its channels as they were (R404). -/
def foldHolds (s : State) (k : Nat) : Bool :=
  let ds := s.validSds.filter (fun d => (s.fold (F.SV_SD_W6_OUT d)).testBit k)
  if ds.isEmpty then s.aon.kept.testBit k
  else ds.all (fun d => decide (3 ≤ (s.sdOf d).state)) || ds.any (fun d => (s.sdOf d).enforced)

/-! ### Load-switch channels -/

/-- Channel k's heating state and time. -/
def chOf (s : State) (k : Nat) : Chan := Sparse.get (fun _ => ⟨0, 0, false⟩) s.aon.ch k

/-- Put channel k. -/
def setCh (s : State) (k : Nat) (x : Chan) : State := { s with aon.ch := Sparse.set (fun _ => ⟨0, 0, false⟩) s.aon.ch k x }

/-- STATE of channel k (R446). -/
def chState (s : State) (k : Nat) : Nat := s.rg (F.PW_OUT_STAT_STATE k)

/-- Channel k takes a state; its sense code shows a fault state (R439). -/
def toCh (s : State) (k st : Nat) : State :=
  let t := s.setRg (F.PW_OUT_STAT_STATE k) st
  if st = 3 ∨ st = 4 then t.setRg (F.PW_OUT_STAT_SENSE k) 4095
  else if t.rg (F.PW_OUT_STAT_SENSE k) = 4095 then t.setRg (F.PW_OUT_STAT_SENSE k) 0 else t

/-- The switch conducts. -/
def conducts (s : State) (k : Nat) : Bool := s.chState k == 1 || s.chState k == 2

/-- A field of the settings that the power die protects with. -/
def ls (s : State) (f : Fld) : Nat := rfGet s.aon.cfg13 f

/-- A channel event (R447). -/
def chEvent (s : State) (ev k : Nat) : State := (s.setRg F.PW_LS_EV_LAST_CH k).raisePw ev

/-- Channel k turns on (R431). -/
def turnOn (s : State) (k : Nat) : State := (s.toCh k 1).setCh k { s.chOf k with since := s.now }

/-- Channel k may conduct, its state apart (R441). -/
def mayConduct (s : State) (k : Nat) : Bool :=
  decide (s.ls (F.PW_OUT_CFG_ON k) = 1) && !s.foldHolds k && decide (s.rg (F.PW_OUT_STAT_THERM_LATCH k) = 0)

/-- Place of a trip cause in the order of R433: SHORT, ABS_TEMP, SCORCH, INRUSH, FUSE, SHED. -/
def tripRank (c : Nat) : Nat := ([2, 5, 4, 3, 1, 6] : List Nat).idxOf c

/-- Channel k trips (R429 to R434). -/
def tripNow (s : State) (k cause : Nat) : State :=
  let s1 := ((s.setRg (F.PW_OUT_STAT_CAUSE k) cause).bump (F.PW_OUT_TRIPS_COUNT k)).setCh k
    { s.chOf k with since := s.now, tripped := true }
  if s.rg (F.PW_OUT_STAT_RETRIES_USED k) ≥ s.ls (F.PW_OUT_CFG_RETRY_CNT k) then
    ((s1.toCh k 4).chEvent 240 k).chEvent 241 k
  else (s1.toCh k 3).chEvent 240 k

/-- A further cause of a trip that the same 100 µs update has made: the first of R433 is recorded. -/
def tripAlso (s : State) (k cause : Nat) : State :=
  if tripRank cause < tripRank (s.rg (F.PW_OUT_STAT_CAUSE k)) then s.setRg (F.PW_OUT_STAT_CAUSE k) cause else s

/-- A cause to trip applies to channel k: it trips a switch that conducts, and is one more cause of a trip of the same
update (R433). -/
def trip (s : State) (k cause : Nat) : State :=
  if s.conducts k then s.tripNow k cause
  else if (s.chState k = 3 ∨ s.chState k = 4) ∧ ((s.chOf k).tripped ∨ (s.chOf k).since = s.now) then s.tripAlso k cause
  else s

/-- The limit of a channel's current in inrush, k × I_N, in mA (R431, R444). -/
def inrushLimit (s : State) (k : Nat) : Nat :=
  [2, 3, 4, 6].getD (s.ls (F.PW_OUT_CFG_INRUSH_K k)) 2 * (wireClass (s.ls (F.PW_OUT_CFG_WIRE k))).1

/-- The current that channel k measures, over a range of 0 A to 100 A (R427), where its load asks for one: in inrush the
switch limits it (R431). -/
def chCurrent (s : State) (k mA : Nat) : Nat :=
  min 100000 (if s.chState k = 1 then min mA (s.inrushLimit k) else mA)

/-- Configuration, Fold and the latch decide the state of a channel that is neither tripped nor in undervoltage or
fail-safe (R441). -/
def chJudge (s : State) (k : Nat) : State :=
  let st := s.chState k
  if st = 0 ∨ st = 1 ∨ st = 2 ∨ st = 5 then
    if s.foldHolds k then s.toCh k 5
    else if s.ls (F.PW_OUT_CFG_ON k) = 0 then s.toCh k 0
    else if st = 1 ∨ st = 2 then s
    else if s.mayConduct k then s.turnOn k
    else s.toCh k 0
  else s

/-- Every channel is judged again. -/
def chsJudge (s : State) : State := s.forEach (List.range 16) chJudge

/-- Thermal limit of the Scorch guard in K (R432, R444). -/
def scorchLimit (s : State) (k : Nat) : Nat := [40, 60, 80, 40].getD (s.ls (F.PW_OUT_CFG_SCORCH k)) 40

/-- RETRY_DLY in ns (R444). -/
def retryNs (s : State) (k : Nat) : Nat :=
  let v := s.ls (F.PW_OUT_CFG_RETRY_DLY k)
  100000000 * orElse (decide (v ≠ 0)) v 10

/-- A tripped channel may make its retry (R434). -/
def retryDue (s : State) (k : Nat) : Bool :=
  decide (s.chState k = 3) && decide ((s.chOf k).since + s.retryNs k ≤ s.now) && s.mayConduct k &&
    decide ((s.chOf k).e ≤ 1) &&
    decide (s.rg (F.PW_OUT_STAT_RETRIES_USED k) < s.ls (F.PW_OUT_CFG_RETRY_CNT k))

/-- The measurement of a channel before its protection judges it (R427, R439). E is shown to the nearest unit, as E_TRIP
reads 19,825 (R446). -/
def measure (s : State) (k : Nat) (m : LsMeas) : State :=
  let mA := s.chCurrent k m.mA
  let e := heat (s.chOf k).e (s.ls (F.PW_OUT_CFG_WIRE k)) (if s.conducts k then mA else 0)
  let s1 := (s.setCh k { s.chOf k with e := e }).setRg (F.PW_OUT_E_E k) (min 65535 (e * 16384 + mkRat 1 2).floor.toNat)
  let s2 := (s1.setRg (F.PW_OUT_TEMP_DT k) (min 255 m.dt)).setRg (F.PW_OUT_TEMP_TJ k) (m.tj + 64).toNat
  if s.chState k = 3 ∨ s.chState k = 4 then s2 else s2.setRg (F.PW_OUT_STAT_SENSE k) (senseCode mA)

/-- The thermal latch after a measurement (R432): a channel that has tripped in this update sets it too, whatever the
recorded cause (R433). -/
def latchAfter (s : State) (k : Nat) (m : LsMeas) : State :=
  let lim := s.scorchLimit k
  if (s.conducts k ∨ (s.chOf k).tripped) ∧ (m.dt > lim ∨ m.tj ≥ 175) then (s.setRg (F.PW_OUT_STAT_THERM_LATCH k) 1).chEvent 242 k
  else if s.rg (F.PW_OUT_STAT_THERM_LATCH k) = 1 ∧ m.dt < lim - 20 ∧ m.tj < 165 then
    s.setRg (F.PW_OUT_STAT_THERM_LATCH k) 0
  else s

/-- One update of a channel (R429, R432 to R434). -/
def chJudged (s : State) (k : Nat) (m : LsMeas) : State :=
  let was := s.conducts k || (s.chOf k).tripped
  let s1 := (s.measure k m).latchAfter k m
  if was ∧ m.tj ≥ 175 then s1.trip k 5
  else if was ∧ m.dt > s.scorchLimit k then s1.trip k 4
  else if was ∧ (s1.chOf k).e ≥ eTrip then s1.trip k 1
  else if s1.retryDue k then
    ((s1.tick (F.PW_OUT_STAT_RETRIES_USED k)).bump (F.PW_OUT_RETRIES_COUNT k)).turnOn k
  else if s1.chState k = 2 ∧ 60 * giga + (s1.chOf k).since ≤ s.now then s1.setRg (F.PW_OUT_STAT_RETRIES_USED k) 0
  else s1.chJudge k

/-- One update of a channel, which ends the time in which its trips count as one (R433). -/
def chUpdate (s : State) (k : Nat) (m : LsMeas) : State :=
  let t := s.chJudged k m
  t.setCh k { t.chOf k with tripped := false }

/-- The settings of CD13 reach the power die (R434, R441, R443). A latched channel whose ON goes from 0 to 1 is off until the
latch clears, and turns on then without a retry (R441). -/
def lsCommit (s : State) : State :=
  let old := s.aon.cfg13
  let t := { s with aon.cfg13 := s.activeOf 13 }
  (t.forEach (List.range 16) (fun t k =>
    if rfGet old (F.PW_OUT_CFG_ON k) = 1 ∧ t.ls (F.PW_OUT_CFG_ON k) = 0 then
      { t.setRg (F.PW_OUT_STAT_RETRIES_USED k) 0 with aon.kept := clrBit t.aon.kept k }
    else if rfGet old (F.PW_OUT_CFG_ON k) = 0 ∧ t.ls (F.PW_OUT_CFG_ON k) = 1 ∧ t.chState k = 3 ∧
        t.rg (F.PW_OUT_STAT_THERM_LATCH k) = 1 then t.toCh k 0
    else t)).chsJudge

/-- The channels at a boot Stitch (R443). -/
def lsBoot (s : State) : State :=
  let t := s.forEach (List.range 16) (fun t k => if t.chState k = 6 then t.toCh k 0 else t)
  let u := { t.lsCommit with
    aon.linkAt := s.now, aon.linkWatched := true, aon.holdExpired := false }
  let v := u.setRg F.PW_LS_STAT_HOLD_EXPIRED (if s.aon.holdExpired then 1 else 0)
  if s.aon.holdExpired then v.raise 244 else v

/-! ### Rails and transitions that a wake starts -/

/-- No milestone of a start has been passed. -/
def freshStart (s : State) (fromListen : Bool) : Start :=
  ⟨false, false, false, false, false, false, false, false, s.now, fromListen, false, false⟩

/-- The rail sequence starts (R79, R82, R535); the cause is kept for SV_RESET_CAUSE (R93). -/
def startRails (s : State) (fromListen : Bool) (cause : Nat) : State :=
  { s with
    pw.power := .rising
    pw.rail := 0
    pw.start := s.freshStart fromListen
    pw.wakeLatched := false
    pw.cause := cause }

/-- The rails are off and the gateway is in LISTEN: after LISTEN entry, or after three failed rail sequences (R82, R536). -/
def inListen (s : State) : Bool :=
  decide (s.pw.power = .listen) || (decide (s.pw.power = .retry) && decide (3 ≤ s.pw.retries))

/-- LISTEN entry runs (R88). -/
def toListen (s : State) : Bool := match s.pw.moving with | .toListen _ => true | _ => false

/-- PARTIAL-to-RUN starts, where Fold has asked for it and the gateway stands in PARTIAL (R85, R86). -/
def tryRun (s : State) : State :=
  if s.pw.runWanted ∧ s.socUp ∧ !s.pw.rescue ∧ s.rg F.SV_MODE_MODE = 2 ∧ s.rg F.SV_MODE_RAMPING = 0 ∧
      s.pw.moving = .none then
    ({ s with pw.moving := .toRun 0, pw.byFold := true, pw.runWanted := false }.setRg F.SV_MODE_MOVING 1).setRg
      F.SV_MODE_RAMPING 1
  else s

/-! ### Wakes -/

/-- A source instance is masked (R415). -/
def masked (s : State) (i : Option Nat) : Bool :=
  match i with
  | some n => decide (s.rg (F.PW_FALSE_MASKED n) = 1)
  | none => false

/-- A wake record is written (R414): `flags` are bits 10 to 12 of W0. -/
def wakeRecord (s : State) (src unit doms id flags : Nat) : State :=
  let k := s.rg F.PW_WAKE_HEAD_NEXT
  let ti := s.tiOf 0
  let run := s.socUp
  let w0 := src % 16 + 16 * (unit % 64) + flags * 1024 + 65536 * (doms % 65536)
  let s1 := ((s.wr (R.PW_WAKEREC_W0 k) (Word.ofNat w0)).wr (R.PW_WAKEREC_W1 k) (Word.ofNat id)).wr
    (R.PW_WAKEREC_W2 k) (Word.ofNat (id / 2 ^ 32 % 2 ^ 16))
  let s2 := (s1.wr (R.PW_WAKEREC_W3 k) (Word.ofNat s.pw.rtcSec)).wr (R.PW_WAKEREC_W4 k)
    (Word.ofNat (s.pw.rtcSec / 2 ^ 32 % 2 ^ 16 + 65536 * (s.pw.rtcSub % 2 ^ 15)))
  let s3 := ((s2.wr (R.PW_WAKEREC_W5 k) (Word.ofNat (if run then ti.ns else 0))).wr (R.PW_WAKEREC_W6 k)
    (Word.ofNat (if run then ti.sec else 0))).wr (R.PW_WAKEREC_W7 k)
    (Word.ofNat (if run then ti.sec / 2 ^ 32 % 2 ^ 16 + 2 ^ 31 else 0))
  let s4 := (s3.setRg F.PW_WAKE_HEAD_NEXT ((k + 1) % 16)).tick F.PW_WAKE_HEAD_TOTAL
  let pay := leBytes 4 w0 ++ leBytes 6 id
  (if s.socUp ∧ s.pw.start.firmware then s4.ledgerAdd 0x03 pay
    else { s4 with aon.newRecs := s4.aon.newRecs ++ [k] }).raisePw 232

/-- A domain's top-talker table restarts (R413, R416). -/
def clearTalk (s : State) (d : Nat) : State :=
  s.forEach (List.range 8) (fun t k =>
    (((t.wr (R.SV_SD_TALK d k) 0).wr (R.SV_SD_TALK_SRC_LO d k) 0).wr (R.SV_SD_TALK_SRC_HI d k) 0).wr
      (R.SV_SD_TALK_COUNT d k) 0)

/-- A wake may ask for PARTIAL-to-RUN (R85): in PARTIAL, on the way to it, or in LISTEN; no RUN mode needs it. -/
def wakeRuns (s : State) : Bool :=
  !decide (3 ≤ s.rg F.SV_MODE_MODE ∧ s.rg F.SV_MODE_MODE ≤ 5) || (match s.pw.moving with | .toPartial _ => true | _ => false)

/-- The wake of an ASLEEP domain takes effect (R403, R413). -/
def sdWake (s : State) (d : Nat) : State :=
  let x := s.sdOf d
  let member := decide (s.fold (F.SV_SD_W0_MEMBER d) = 1)
  let s1 := s.setSd d { x with
    state := if member then 1 else 2, latched := false, hold := true, woken := s.inListen
    timerFrom := s.now, awakeFrom := s.now }
  let s2 := (s1.clearTalk d).chsJudge
  if Nat.land (s.sdPorts d) runPorts ≠ 0 ∧ s.wakeRuns then { s2 with pw.runWanted := true }.tryRun else s2

/-- A wake of a domain that is AWAKE or QUIET starts its post-wake hold (R407, R412). -/
def sdHold (s : State) (d : Nat) : State :=
  (s.setSd d { s.sdOf d with hold := true, woken := (s.sdOf d).woken || s.inListen }).needUp d

/-- A wake is latched for a domain (R410, R418). -/
def sdLatch (s : State) (d : Nat) : State := s.setSd d { s.sdOf d with latched := true }

/-- A fold that has passed its commit point will start LISTEN entry (R85, R410): a member domain is FOLDING, and every other
is FOLDING or ASLEEP. -/
def foldToListen (s : State) : Bool :=
  let ms := s.validSds.filter (fun d => decide (s.fold (F.SV_SD_W0_MEMBER d) = 1))
  s.socUp && decide (s.pw.moving = .none) && decide (s.act F.SV_MODE_CFG_LISTEN_EN = 1) &&
    ms.any (fun d => decide ((s.sdOf d).state = 3)) && ms.all (fun d => decide (3 ≤ (s.sdOf d).state))

/-- Every wake is latched until the rails are off (R88, R410): LISTEN entry runs, or a fold past its commit point starts
it. -/
def entering (s : State) : Bool := s.toListen || s.foldToListen

/-- A wake for this domain is latched: it is ENFORCED (R418), or in a SoC mode FOLDING, or LISTEN entry is coming (R410). -/
def sdLate (s : State) (d : Nat) : Bool :=
  (s.sdOf d).enforced || (!s.inListen && (decide ((s.sdOf d).state = 3) || s.entering))

/-- A mask of domain numbers. -/
def sdMask (ds : List Nat) : Nat := ds.foldl setBit 0

/-- A wake's record is written, and its judgement at T_VALID awaited, but for a tamper alarm (R413, R415). -/
def wakeLog (s : State) (src unit : Nat) (inst : Option Nat) (ws id flags : Nat) : State :=
  let k := s.rg F.PW_WAKE_HEAD_NEXT
  let n := s.rg F.PW_WAKE_HEAD_TOTAL
  let t := s.wakeRecord src unit ws id flags
  if src = 0xA then t else { t with aon.judge := t.aon.judge ++ [⟨k, n, inst, ws, false⟩] }

/-- A wake reaches the domains it names: late ones latch it, sleeping ones wake (R410, R412, R418). `late` says that the wake
itself is latched, whatever it names (R425). -/
def wakeDomains (s : State) (lates asleep : List Nat) (late : Bool) : State :=
  let t := s.forEach lates sdLatch
  (if late then t.raisePw 239 else t).forEach asleep sdWake

/-- A wake starts the rails from LISTEN, or is kept for the LISTEN being entered (R82, R88, R412). -/
def wakeRails (s : State) (listen dest : Bool) : State :=
  if listen then s.startRails true 6
  else if dest ∨ s.pw.power = .falling then { s with pw.wakeLatched := true }
  else s

/-- The instance of a maskable source and unit (R411). -/
def wakeInst (src unit : Nat) : Option Nat :=
  if src < 5 then some src
  else if src = 5 ∧ unit < 8 then some (unit + 5)
  else if src = 7 ∧ 24 ≤ unit ∧ unit < 36 then some (unit - 24 + 13)
  else none

/-- A wake event is recognised (R411 to R415): of a source and unit, naming domains, with the identifier or address
that caused it. AWAKE and QUIET domains only start their hold, without a record; LISTEN ends all the same (R82, R412). -/
def wake (s : State) (src unit : Nat) (inst : Option Nat) (doms id : Nat) : State :=
  if s.pw.power = .off ∨ s.pw.power = .trims then s
  else if s.masked inst then s.tick F.PW_MASKED_HITS_COUNT
  else
    let named := s.validSds.filter doms.testBit
    let late := named.filter s.sdLate
    let asleep := named.filter (fun d => !s.sdLate d && decide (3 ≤ (s.sdOf d).state))
    let held := named.filter (fun d => !late.contains d && !asleep.contains d)
    let enters := !s.inListen && s.entering
    let t := s.forEach held sdHold
    let u := if !named.isEmpty ∧ late.isEmpty ∧ asleep.isEmpty then t
      else
        let folds := late.any (fun d => !s.inListen && decide ((s.sdOf d).state = 3)) || enters
        let enf := late.any (fun d => (s.sdOf d).enforced)
        let flags := (if folds then 1 else 0) + (if enf then 2 else 0) + (if s.inListen then 4 else 0)
        (t.wakeLog src unit inst (sdMask (late ++ asleep)) id flags).wakeDomains late asleep (enters || !late.isEmpty)
    u.wakeRails s.inListen enters

/-- The valid domains that contain a bus (R411). -/
def busSds (s : State) (c : Nat) : Nat := sdMask (s.validSds.filter (fun d => (s.sdBuses d).testBit c))

/-- The valid domains that contain a port (R411). -/
def portSds (s : State) (p : Nat) : Nat := sdMask (s.validSds.filter (fun d => (s.sdPorts d).testBit p))

/-- A local request wakes the domains of its bus (R411, LOCAL_TX); a bus of no domain wakes none. -/
def localTx (s : State) (c : Nat) : State := if s.busSds c = 0 then s else s.wake 0xC c none (s.busSds c) 0

/-- A frame received on a T1S port wakes the port's domains in SoC modes (R411, T1S_ENERGY), and its source address is
recorded (R414). -/
def t1sFrame (s : State) (p smac : Nat) : State :=
  if 24 ≤ p ∧ p < 36 then s.wake 7 p (wakeInst 7 p) (s.portSds p) smac else s

/-- A domain is ENFORCED and names the bus: keep-alives in its range are not relayed to it (R418). -/
def foldBlocks (s : State) (c : Nat) (ide : Bool) (id : Nat) : Bool :=
  s.validSds.any (fun d => (s.sdOf d).enforced && (s.sdBuses d).testBit c &&
    decide (s.fold (F.SV_SD_W3_KA_IDE d) = if ide then 1 else 0) &&
    decide (s.fold (F.SV_SD_W3_KA_ID_LO d) ≤ id ∧ id ≤ s.fold (F.SV_SD_W4_KA_ID_HI d)))

/-- The ports that FX removes from the egress set of an Ethernet keep-alive (R418). -/
def foldPorts (s : State) : Nat :=
  (s.validSds.filter (fun d => (s.sdOf d).enforced)).foldl (fun m d => Nat.lor m (s.sdPorts d)) 0

/-- KA_MAC; 0 turns Ethernet keep-alives off (R405). -/
def kaMac (s : State) : Nat := s.act F.SV_FOLD_CFG_LO_KA_MAC + 2 ^ 32 * s.act F.SV_FOLD_CFG_HI_KA_MAC

end State

end Sys2Proof.Machine
end

