-- ==== Sys2Proof/Machine/Headers.lean ====
section
/-!
DEFINITION. Frame headers: the fields that the MAC, FX and CE read from a frame's bytes, the checksums of R136, and the
changes that an egress makes to a frame (R138, R199, R213, R220, R235).
-/

namespace Sys2Proof.Machine

/-- The header fields of a frame within its first bytes. -/
structure Hdr where
  dmac : Nat
  smac : Nat
  ctag : Bool                 -- one C-tag, TPID 0x8100 (R198)
  pcp : Nat
  dei : Bool
  tvid : Nat                  -- VID of the tag
  etype : Nat                 -- EtherType after any C-tag
  rtag : Option Nat           -- sequence number of an R-TAG (R220)
  l3 : Nat                    -- offset of the network header
  v4 : Bool
  v6 : Bool
  src : Nat
  dst : Nat
  proto : Nat                 -- protocol or next header
  upper : Nat                 -- protocol of the transport header, behind IPv6 extension headers
  dscp : Nat
  ttl : Nat
  flow : Nat
  frag : Bool                 -- a fragment of any position
  later : Bool                -- a fragment other than the first (R236)
  l4 : Option Nat             -- offset of a TCP or UDP header carried in this frame
  deriving DecidableEq, Repr

/-- The multicast and broadcast bit of a 48-bit MAC address. -/
def macGroup (m : Nat) : Bool := m.testBit 40

/-- 01-80-C2-00-00-00 to 01-80-C2-00-00-0F (R196). -/
def linkLocal (m : Nat) : Bool := decide (m / 16 = 0x0180C200000)

/-- Where the extension headers of an IPv6 packet end: the protocol and the offset behind them, whether one of them is a
fragment header, and whether it is of a fragment other than the first. PRESUMED (log 87): the headers of RFC 8200 and
RFC 4302 that the parser walks. -/
def v6Walk (bs : List Byte) : Nat → Nat → Nat → Bool → Nat × Nat × Bool × Bool
  | 0, nh, o, fr => (nh, o, fr, false)
  | n + 1, nh, o, fr =>
    if nh = 0 ∨ nh = 43 ∨ nh = 60 then v6Walk bs n (beAt bs o 1) (o + 8 * (beAt bs (o + 1) 1 + 1)) fr
    else if nh = 51 then v6Walk bs n (beAt bs o 1) (o + 4 * (beAt bs (o + 1) 1 + 2)) fr
    else if nh = 44 then
      if beAt bs (o + 2) 2 / 8 ≠ 0 then (beAt bs o 1, o + 8, true, true)
      else v6Walk bs n (beAt bs o 1) (o + 8) true
    else (nh, o, fr, false)

/-- Parse a frame's headers (R198, R211, R220, R236). -/
def parseHdr (bs : List Byte) : Hdr :=
  let t0 := beAt bs 12 2
  let ctag := t0 == 0x8100
  let o := if ctag then 18 else 14
  let tci := if ctag then beAt bs 14 2 else 0
  let et := beAt bs (o - 2) 2
  let isR := et == 0xF1C1
  let l3 := if isR then o + 6 else o
  let net := if isR then beAt bs (l3 - 2) 2 else et
  let v4 := net == 0x0800 && beAt bs l3 1 / 16 == 4 && hasBytes bs l3 20
  let v6 := net == 0x86DD && beAt bs l3 1 / 16 == 6 && hasBytes bs l3 40
  let ihl := (beAt bs l3 1 % 16) * 4
  let fr4 := beAt bs (l3 + 6) 2
  let nh6 := beAt bs (l3 + 6) 1
  let (up6, o6, fr6, later6) := v6Walk bs (bs.length / 8) nh6 (l3 + 40) false
  let later := if v4 then fr4 % 8192 != 0 else v6 && later6
  let frag := if v4 then fr4 % 8192 != 0 || fr4.testBit 13 else v6 && fr6
  let proto := if v4 then beAt bs (l3 + 9) 1 else if v6 then nh6 else 0
  let up := if v4 then proto else if v6 then up6 else 0
  let l4 := if v4 then l3 + ihl else o6
  { dmac := beAt bs 0 6, smac := beAt bs 6 6, ctag := ctag
    pcp := tci / 8192, dei := tci.testBit 12, tvid := tci % 4096
    etype := et, rtag := if isR then some (beAt bs (o + 2) 2) else none
    l3 := l3, v4 := v4, v6 := v6
    src := if v4 then beAt bs (l3 + 12) 4 else if v6 then beAt bs (l3 + 8) 16 else 0
    dst := if v4 then beAt bs (l3 + 16) 4 else if v6 then beAt bs (l3 + 24) 16 else 0
    proto := proto, upper := up
    dscp := if v4 then beAt bs (l3 + 1) 1 / 4 else if v6 then beAt bs l3 2 / 64 % 64 else 0
    ttl := if v4 then beAt bs (l3 + 8) 1 else if v6 then beAt bs (l3 + 7) 1 else 0
    flow := if v6 then beAt bs l3 4 % 2 ^ 20 else 0
    frag := frag, later := later
    l4 := if (v4 || v6) && (up == 6 || up == 17) && !later then some l4 else none }

/-! ### Checksums -/

/-- One's-complement sum of 16-bit big-endian words, an odd byte padded with 0x00. -/
def sum16 : List Byte → Nat
  | [] => 0
  | [a] => a.toNat * 256
  | a :: b :: r => a.toNat * 256 + b.toNat + sum16 r

/-- A sum folded to 16 bits. -/
def fold16 (n : Nat) : Nat :=
  let a := n % 65536 + n / 65536
  let b := a % 65536 + a / 65536
  b % 65536 + b / 65536

/-- The one's-complement checksum over bytes. -/
def inetSum (bs : List Byte) : Nat := 65535 - fold16 (sum16 bs)

/-- The transport bytes of a datagram: from the L4 offset to the end that the network header gives. -/
def l4Bytes (h : Hdr) (bs : List Byte) (l4 : Nat) : List Byte :=
  let fin := if h.v4 then h.l3 + beAt bs (h.l3 + 2) 2 else h.l3 + 40 + beAt bs (h.l3 + 4) 2
  slice0 bs l4 (min fin bs.length - l4)

/-- The pseudo-header of the TCP or UDP checksum. -/
def pseudoHdr (h : Hdr) (proto n : Nat) : List Byte :=
  if h.v4 then beBytes 4 h.src ++ beBytes 4 h.dst ++ beBytes 2 proto ++ beBytes 2 n
  else beBytes 16 h.src ++ beBytes 16 h.dst ++ beBytes 4 n ++ beBytes 4 proto

/-- The L3 result of R136: 0 not checked, 1 good, 2 bad. -/
def checkL3 (h : Hdr) (bs : List Byte) : Nat :=
  if h.v4 && decide (h.l3 < 256) then
    if fold16 (sum16 (slice0 bs h.l3 ((beAt bs h.l3 1 % 16) * 4))) = 65535 then 1 else 2
  else 0

/-- The L4 result of R136: 0 not checked, 1 good, 2 bad. -/
def checkL4 (h : Hdr) (bs : List Byte) : Nat :=
  match h.l4 with
  | none => 0
  | some o =>
    if h.frag || decide (h.l3 ≥ 256) then 0
    else
      let udp := h.upper == 17
      let body := l4Bytes h bs o
      if udp && beAt bs (o + 6) 2 == 0 then (if h.v4 then 0 else 2)
      else if fold16 (sum16 (pseudoHdr h h.upper body.length) + sum16 body) = 65535 then 1 else 2

/-- RFC 1624: a checksum adjusted for bytes replaced by others. -/
def rfc1624 (old : Nat) (from_ to_ : List Byte) : Nat :=
  65535 - fold16 (65535 - old + (65535 - fold16 (sum16 from_)) + fold16 (sum16 to_))

/-- A 16-bit checksum field adjusted in place. -/
def adjustAt (bs : List Byte) (o : Nat) (from_ to_ : List Byte) : List Byte :=
  putBytes bs o (beBytes 2 (rfc1624 (beAt bs o 2) from_ to_))

/-- The offset of the transport checksum within the TCP or UDP header. -/
def l4SumAt (h : Hdr) (o : Nat) : Nat := if h.upper == 17 then o + 6 else o + 16

/-- Replace bytes covered by the transport pseudo-header and adjust the transport checksum (R138, R214): a UDP
checksum of 0x0000 over IPv4 stays 0x0000. -/
def replaceAddr (h : Hdr) (bs : List Byte) (at_ : Nat) (new : List Byte) : List Byte :=
  let old := slice0 bs at_ new.length
  let b1 := putBytes bs at_ new
  let b2 := if h.v4 then adjustAt b1 (h.l3 + 10) old new else b1
  match h.l4 with
  | none => b2
  | some o =>
    let k := l4SumAt h o
    if h.v4 && h.proto == 17 && beAt bs k 2 == 0 then b2 else adjustAt b2 k old new

/-- Routing's changes to a frame, with the incremental checksum update (R138, R213, R214). -/
def applyRewrite (r : Rewrite) (bs : List Byte) : List Byte :=
  let h := parseHdr bs
  let b0 := putBytes (putBytes bs 0 (beBytes 6 r.dmac)) 6 (beBytes 6 r.smac)
  let b1 := if r.decTtl then
      if h.v4 then
        let b := putBytes b0 (h.l3 + 8) (beBytes 1 (h.ttl - 1))
        adjustAt b (h.l3 + 10) (slice0 b0 (h.l3 + 8) 2) (slice0 b (h.l3 + 8) 2)
      else putBytes b0 (h.l3 + 7) (beBytes 1 (h.ttl - 1))
    else b0
  let n := if h.v4 then 4 else 16
  let so := if h.v4 then h.l3 + 12 else h.l3 + 8
  let b2 := match r.newSrc with
    | some a => replaceAddr h b1 so (beBytes n a)
    | none => b1
  match r.newDst with
  | some a => replaceAddr h b2 (so + n) (beBytes n a)
  | none => b2

/-- Full checksum computation for a host TX frame (R138): a UDP result of 0x0000 is sent as 0xFFFF. -/
def fullChecksums (bs : List Byte) : List Byte :=
  let h := parseHdr bs
  let b1 := if h.v4 then
      let z := putBytes bs (h.l3 + 10) [0, 0]
      putBytes z (h.l3 + 10) (beBytes 2 (inetSum (slice0 z h.l3 ((beAt bs h.l3 1 % 16) * 4))))
    else bs
  match h.l4 with
  | none => b1
  | some o =>
    if h.frag then b1
    else
      let k := l4SumAt h o
      let z := putBytes b1 k [0, 0]
      let body := l4Bytes h z o
      let c := 65535 - fold16 (sum16 (pseudoHdr h h.upper body.length) + sum16 body)
      putBytes z k (beBytes 2 (if h.upper == 17 && c == 0 then 65535 else c))

/-- The frame without its C-tag. -/
def stripTag (bs : List Byte) : List Byte :=
  if beAt bs 12 2 == 0x8100 then bs.take 12 ++ bs.drop 16 else bs

/-- The frame with a C-tag after its source address. -/
def addTag (bs : List Byte) (pcp : Nat) (dei : Bool) (vid : Nat) : List Byte :=
  bs.take 12 ++ beBytes 2 0x8100 ++ beBytes 2 (pcp * 8192 + (if dei then 4096 else 0) + vid) ++ bs.drop 12

/-- An untagged frame without its R-TAG. -/
def stripRtag (bs : List Byte) : List Byte :=
  if beAt bs 12 2 == 0xF1C1 then bs.take 12 ++ bs.drop 18 else bs

/-- An untagged frame with an R-TAG after its source address (R220). -/
def addRtag (bs : List Byte) (seq : Nat) : List Byte :=
  bs.take 12 ++ beBytes 2 0xF1C1 ++ [0, 0] ++ beBytes 2 seq ++ bs.drop 12

/-- Destination MAC address of a frame as it leaves a port: the next hop's where the frame is rewritten (R214). -/
def leavingDmac (f : Frame) : Nat :=
  match f.directive, f.rewrite with
  | none, some r => r.dmac
  | _, _ => beAt f.bytes 0 6

namespace State

/-- The domains whose Ethernet keep-alive a frame's content is (R405). -/
def kaDomains (s : State) (f : Frame) (h : Hdr) : List Nat :=
  if s.kaMac ≠ 0 ∧ h.dmac = s.kaMac ∧ h.etype = 0x88B6 ∧ beAt f.bytes h.l3 1 = 1 then
    s.validSds.filter (fun d => (s.sdPorts d).testBit f.port &&
      decide (s.fold (F.SV_SD_W0_WIRE_DOMAIN d) = beAt f.bytes (h.l3 + 1) 1))
  else []

/-- A configured table entry acts as VALID as far as errors go (R225). -/
def entryOk (s : State) (tbl i : Nat) : Bool := !s.fx.badEntries.contains (tbl, i)

/-- The sequence entry of a stream acts: one with an uncorrectable error does nothing (R225). -/
def frerOk (s : State) (h : Nat) : Bool := s.entryOk 0x39 h

/-- A 41-bit port mask held in two fields, low word and high bits. -/
def maskOf (lo hi : Nat) : Nat := lo + 2 ^ 32 * hi

/-- MEMBERS of a VLAN as an epoch sees it (R227). -/
def vlanMembers (s : State) (ep v : Nat) : Nat :=
  maskOf (s.cfg ep (F.FX_VLAN_W0_MEMBERS_LO v)) (s.cfg ep (F.FX_VLAN_W1_MEMBERS_HI v))

/-- UNTAG of a VLAN as an epoch sees it (R227). -/
def vlanUntag (s : State) (ep v : Nat) : Nat :=
  maskOf (s.cfg ep (F.FX_VLAN_W2_UNTAG_LO v)) (s.cfg ep (F.FX_VLAN_W3_UNTAG_HI v))

/-- The PCP of a frame's egress tag on port p (R235). -/
def egressPcp (s : State) (f : Frame) (p : Nat) : Nat :=
  match f.setPcp with
  | some v => v
  | none =>
    if s.cfg f.epoch (F.FX_QOS_CFG_PCP_FROM_TC p) = 1 then f.tc
    else if f.tagged then f.pcp else 0

/-- The DEI of a frame's egress tag on port p (R235). -/
def egressDei (s : State) (f : Frame) (p : Nat) : Bool :=
  if s.cfg f.epoch (F.FX_QOS_CFG_MARK_DEI p) = 1 then f.colour != 0 else f.tagged && f.dei

/-- The bytes of a frame as they leave on port p before step 9, FCS excluded: routing's changes, R-TAG and C-tag
(R199, R213, R220, R235). Frames with an egress directive leave as they are (R196,
R461), but for checksums that a host descriptor asks for (R138). -/
def egressBytes (s : State) (f : Frame) (p : Nat) : List Byte :=
  if f.directive.isSome then if f.csumFull then fullChecksums f.bytes else f.bytes
  else
    let b0 := match f.rewrite with
      | some r => applyRewrite r f.bytes
      | none => f.bytes
    let b1 := if f.csumFull then fullChecksums b0 else b0
    let b2 := stripTag b1
    let b3 := if f.strip.testBit p then stripRtag b2
      else match f.seqNo with
        | some q => addRtag (stripRtag b2) q
        | none => b2
    if (s.vlanUntag f.epoch f.evid).testBit p then b3
    else addTag b3 (s.egressPcp f p) (s.egressDei f p) f.evid

end State

end Sys2Proof.Machine
end

