-- ==== Sys2Proof/Machine/HpRing.lean ====
section
/-!
DEFINITION. DRAM and the host-port rings as operations (16_compute_memory_bridge.md, R448, R458 to R464).
-/

namespace Sys2Proof.Machine

/-- First address of DRAM and of what lies above its usable 15 GiB (R448). -/
abbrev dramBase : Nat := 0x0800000000
abbrev dramEnd : Nat := 0x0BC0000000

/-- A ring that no Stitch has enabled. -/
def idleRing : HpRing := ⟨false, 0, [], 0⟩

/-- The key of a host-port ring. -/
abbrev ringKey (p : Nat) (tx : Bool) (r : Nat) : Nat := 128 * p + (if tx then 64 else 0) + r

namespace State

/-! ### DRAM -/

/-- End of the DRAM that agents may use: the Hamper region is withheld above it (R169, R448). -/
def dramTop (s : State) : Nat := dramEnd - 4096 * s.sx.hamBoot

/-- Bytes lie in core-usable DRAM. -/
def dramOk (s : State) (a n : Nat) : Bool := decide (dramBase ≤ a ∧ a + n ≤ s.dramTop)

/-- n bytes of DRAM, as every agent that is coherent with the caches reads them (R449). -/
def dramRd (s : State) (a n : Nat) : List Byte :=
  (List.range n).map (fun i =>
    (Sparse.get (fun _ => none) s.mx.cached (a + i)).getD (Sparse.get (fun _ => 0) s.mx.dram (a + i)))

/-- A byte goes to DRAM past the caches; its unit is sound again (R464). -/
def dramPut (s : State) (a : Nat) (b : Byte) : State :=
  { s with mx.dram := Sparse.set (fun _ => 0) s.mx.dram a b, mx.bad := s.mx.bad.filter (· != a / 32) }

/-- A coherent write of DRAM (R449): no cache keeps an older byte. -/
def dramWr (s : State) (a : Nat) : List Byte → State
  | [] => s
  | b :: bs => ({ s.dramPut a b with mx.cached := Sparse.set (fun _ => none) s.mx.cached a none }).dramWr (a + 1) bs

/-- A write that bypasses the caches (R449): a byte that a cache holds stays there. -/
def dramBypass (s : State) (a : Nat) : List Byte → State
  | [] => s
  | b :: bs => (s.dramPut a b).dramBypass (a + 1) bs

/-- A core's write of DRAM: it stays in its caches until they write it back. -/
def cacheWr (s : State) (a : Nat) : List Byte → State
  | [] => s
  | b :: bs => ({ s with mx.cached := Sparse.set (fun _ => none) s.mx.cached a (some b) }).cacheWr (a + 1) bs

/-- The caches write back what they hold. -/
def writeBack (s : State) : State :=
  { s with mx.cached := [] }.forEach s.mx.cached (fun t e => match e.2 with
    | some b => t.dramPut e.1 b
    | none => t)

/-- The caches may write back in any cycle of a core: the manual does not say when, so that is a free value (log 99). -/
def mayWriteBack (s : State) : State :=
  if s.mx.cached.isEmpty then s else if s.freeVal % 2 = 0 then s.useFree else s.useFree.writeBack

/-- The first unit of n bytes in which an uncorrectable error was met, as an address (R464). -/
def badUnit (s : State) (a n : Nat) : Option Nat :=
  ((List.range ((a + n + 31) / 32 - a / 32)).find? (fun i => s.mx.bad.contains (a / 32 + i))).map
    (fun i => 32 * (a / 32 + i))

/-- A class of DRAM users has moved n bytes (R465, R473): 0 HOST, 1 HAMPER, 2 OB, 3 PCIE, 4 CORES, 5 SCRUB. -/
def arbBytes (s : State) (c n : Nat) : State := s.bump64 (R.MX_ARB_BYTES c) n

/-- An uncorrectable DRAM error (R464): its unit stays bad until it is written (log 99). -/
def dramUe (s0 : State) (a : Nat) : State :=
  let s := if s0.mx.bad.contains (a / 32) then s0 else { s0 with mx.bad := a / 32 :: s0.mx.bad }
  let t := s.bump F.MX_DRAM_UE_COUNT
  let u := if t.rd64 R.MX_DRAM_UE_ADDR_LO = 0 then t.wr64 R.MX_DRAM_UE_ADDR_LO a else t
  (u.fault 0x0F 0 a).raise 216

/-! ### The registers of a ring -/

/-- What ring `key` keeps beside its registers. -/
def hpRing (s : State) (key : Nat) : HpRing := Sparse.get (fun _ => idleRing) s.cx.rings key

/-- Put what a ring keeps. -/
def setHp (s : State) (key : Nat) (x : HpRing) : State :=
  { s with cx.rings := Sparse.set (fun _ => idleRing) s.cx.rings key x }

/-- BASE of a ring. -/
def hpBase (s : State) (p : Nat) (tx : Bool) (r : Nat) : Nat :=
  if tx then 4096 * s.act (F.CX_HP_TX_BASE_LO_BASE p r) + 2 ^ 32 * s.act (F.CX_HP_TX_BASE_HI_BASE p r)
  else 4096 * s.act (F.CX_HP_RX_BASE_LO_BASE p r) + 2 ^ 32 * s.act (F.CX_HP_RX_BASE_HI_BASE p r)

/-- Descriptors of a ring: 2^(SIZE+4). -/
def hpSize (s : State) (p : Nat) (tx : Bool) (r : Nat) : Nat :=
  let v := if tx then s.act (F.CX_HP_TX_CFG_SIZE p r) else s.act (F.CX_HP_RX_CFG_SIZE p r)
  2 ^ (orElse (decide (v ≤ 12)) v 12 + 4)

/-- A ring runs: EN is 1 and nothing has stopped it since a Stitch set it (R463). -/
def hpOn (s : State) (p : Nat) (tx : Bool) (r : Nat) : Bool :=
  (s.hpRing (ringKey p tx r)).on &&
    decide ((if tx then s.act (F.CX_HP_TX_CFG_EN p r) else s.act (F.CX_HP_RX_CFG_EN p r)) = 1)

/-- HEAD and TAIL fields. -/
def hpHeadF (p : Nat) (tx : Bool) (r : Nat) : Fld := if tx then F.CX_HP_TX_HEAD_HEAD p r else F.CX_HP_RX_HEAD_HEAD p r
def hpTailF (p : Nat) (tx : Bool) (r : Nat) : Fld := if tx then F.CX_HP_TX_TAIL_TAIL p r else F.CX_HP_RX_TAIL_TAIL p r

/-- TAIL modulo the ring size (R458). -/
def hpTail (s : State) (p : Nat) (tx : Bool) (r : Nat) : Nat := s.rg (hpTailF p tx r) % s.hpSize p tx r

/-- Address of descriptor i. -/
def hpDesc (s : State) (p : Nat) (tx : Bool) (r i : Nat) : Nat := s.hpBase p tx r + 32 * (i % s.hpSize p tx r)

/-- Descriptors posted from index i on. -/
def hpPosted (s : State) (p : Nat) (tx : Bool) (r i : Nat) : Nat :=
  let n := s.hpSize p tx r
  (s.hpTail p tx r + n - i % n) % n

/-! ### Completions -/

/-- The pending completions of a ring raise their event (R463). -/
def hpRaise (s : State) (p : Nat) (tx : Bool) (r : Nat) : State :=
  let f := if tx then F.CX_HP_TXPEND_RINGS p (r / 32) else F.CX_HP_RXPEND_RINGS p (r / 32)
  let x := s.hpRing (ringKey p tx r)
  ((s.setHp (ringKey p tx r) { x with comps := 0 }).setRg f (setBit (s.rg f) (r % 32))).raise (if tx then 209 else 208)

/-- A completion of a ring; its event waits for COAL_FRAMES of them (R463). -/
def hpComplete (s : State) (p : Nat) (tx : Bool) (r : Nat) : State :=
  let x := s.hpRing (ringKey p tx r)
  let t := s.setHp (ringKey p tx r) { x with comps := x.comps + 1 }
  let lim := if tx then s.act (F.CX_HP_TX_CFG_COAL_FRAMES p r) else s.act (F.CX_HP_RX_CFG_COAL_FRAMES p r)
  if x.comps + 1 ≥ lim then t.hpRaise p tx r else t

/-- An uncorrectable error in a descriptor read stops the ring (R463); ERRPEND has bits for rings 0 to 31. -/
def hpStop (s : State) (p : Nat) (tx : Bool) (r : Nat) : State :=
  let f := F.CX_HP_ERRPEND_RINGS p (if tx then 1 else 0)
  let x := s.hpRing (ringKey p tx r)
  let t := s.setHp (ringKey p tx r) { x with on := false, jobs := [] }
  ((if r < 32 then t.setRg f (setBit (t.rg f) r) else t).bump (F.HP_RING_UE_COUNT p)).raise 210

/-- The gateway writes the completion of a TX frame's descriptors (R461). -/
def txDescDone (s : State) (p r : Nat) (j : TxJob) : State :=
  let st := j.status.getD 0
  let t := match j.stamp with
    | some v => s.dramWr (s.hpDesc p true r j.first + 16) (leBytes 8 v.2)
    | none => s
  (t.forEach (List.range j.count) (fun t i =>
    t.dramWr (t.hpDesc p true r (j.first + i) + 28) (leBytes 4 (st + 2 ^ 31)))).arbBytes 0 (32 * j.count)

/-- Descriptors of a TX ring complete in ring order (R458): one job from the front, with fuel. -/
def txFlush (s : State) (p r : Nat) : Nat → State
  | 0 => s
  | n + 1 =>
    let x := s.hpRing (ringKey p true r)
    match x.jobs with
    | j :: js =>
      if j.status.isSome then
        let t := (s.setHp (ringKey p true r) { x with jobs := js }).txDescDone p r j
        ((t.setRg (F.CX_HP_TX_HEAD_HEAD p r) ((j.first + j.count) % t.hpSize p true r)).hpComplete p true r).txFlush p r n
      else s
    | [] => s

/-- The jobs of a ring with a change to those of a frame. -/
def modJobs (s : State) (key id : Nat) (g : TxJob → TxJob) : State :=
  let x := s.hpRing key
  s.setHp key { x with jobs := x.jobs.map (fun j => if j.frame = some id then g j else j) }

/-- The frame that a frame is a copy of, or itself. -/
def rootOf (f : Frame) (id : Nat) : Nat := f.parent.getD id

/-- The first bit of a frame that a host descriptor marks leaves port p (R270, R461): the stamp of the lowest-numbered
port is kept. -/
def txStamp (s : State) (f : Frame) (id p v : Nat) : State :=
  if f.owner = 0 then s
  else s.modJobs (f.owner - 1) (rootOf f id) (fun j =>
    match j.stamp with
    | some (q, w) => { j with stamp := some (if p < q then (p, v) else (q, w)) }
    | none => { j with stamp := some (p, v) })

/-- A frame that a host descriptor marks has ended: SENT once a bit of it has left, else DROPPED (R461). -/
def txEnded (s : State) (f : Frame) (id : Nat) : State :=
  if f.owner = 0 ∨ f.parent.isSome then s
  else
    let key := f.owner - 1
    let t := s.modJobs key id (fun j => { j with status := some (if j.stamp.isSome then 0 else 1), frame := none })
    t.txFlush (key / 128) (key % 64) (t.hpRing key).jobs.length

end State

end Sys2Proof.Machine
end

