-- ==== Sys2Proof/Machine/Store.lean ====
section
/-!
DEFINITION. The buffer manager's operations (06_buffer.md): frames, cells, queues and their thresholds, and how a copy
leaves or is discarded.
-/

namespace Sys2Proof.Machine

/-- Cells of a frame of L bytes (R160). -/
def cellsFor (len : Nat) : Nat := (len + 255) / 256

/-- Cells of a frame of L bytes in the Hamper, header included (R173). -/
def hamCells (len : Nat) : Nat := (len + 32 + 255) / 256

/-- Picoseconds per bit of a rate code of R156; 0 for "down". -/
def bitPs : Nat → Nat
  | 0 => 100000
  | 1 => 10000
  | 2 => 1000
  | 3 => 400
  | 4 => 200
  | 5 => 100
  | 6 => 40
  | _ => 0

/-- An empty queue in DIE. -/
def emptyQueue : Queue := ⟨[], false, [], 0, 0, 0⟩

/-- The egress queue of a traffic class of a port. -/
abbrev qOf (port tc : Nat) : Nat := 8 * port + tc

/-- L of R132 of a frame: measured at its end, and before that as its pipeline pass took it. -/
def Frame.total (f : Frame) : Nat := if f.rxDone then f.len else max f.len f.due

namespace State

/-! ### Frames -/

/-- The frame of an identifier, while it is in the device. -/
def frameOf (s : State) (id : Nat) : Option Frame := Sparse.get (fun _ => none) s.sx.frames id

/-- Put a frame. -/
def setFrame (s : State) (id : Nat) (f : Option Frame) : State :=
  { s with sx.frames := Sparse.set (fun _ => none) s.sx.frames id f }

/-- Change a frame, where it is in the device. -/
def modFrame (s : State) (id : Nat) (g : Frame → Frame) : State :=
  match s.frameOf id with
  | some f => s.setFrame id (some (g f))
  | none => s

/-- All frames inside the device. -/
def allFrames (s : State) : List (Nat × Frame) :=
  s.sx.frames.filterMap (fun e => e.2.map (fun f => (e.1, f)))

/-- An INGRESS copy wait holds the pipeline input (R184). -/
def copyWait (s : State) : Bool := s.allFrames.any (fun e => decide (e.2.copying ≠ 0))

/-- A slot that no frame enters, with a frame ready at the input. -/
def slotBack (s : State) : State :=
  let t := s.bump64 R.OB_SLOT_BACK
  if s.copyWait then t.bump F.OB_SLOT_BACK_COPY_COUNT
  else if s.fx.stalled ≠ 0 then t.bump F.OB_SLOT_BACK_STALL_COUNT
  else t.bump F.OB_SLOT_BACK_CE_COUNT

/-- A command has counted a slot, whose CLK_CORE cycle has not passed yet (R497; log 95). -/
def slotUsed (s : State) : State := { s with ob.slotAhead := s.ob.slotAhead + 1 }

/-- Frames of the epoch before the current one remain (R111); those in detached pages are flushed or aged already, and
marked so (R186). -/
def oldRemain (s : State) : Bool := s.allFrames.any (fun e => e.2.epoch != s.epoch % 256 && !e.2.zombie)

/-- MAX_LEN of a port as an epoch sees it (R152). -/
def maxLen (s : State) (ep p : Nat) : Nat :=
  let v := s.cfg ep (F.PX_LEN_CFG_MAX_LEN p)
  orElse (decide (1518 ≤ v ∧ v ≤ 10240)) v 1522

/-- RUNT_MIN of a port as an epoch sees it (R152). -/
def runtMin (s : State) (ep p : Nat) : Nat :=
  let v := s.cfg ep (F.PX_LEN_CFG_RUNT_MIN p)
  orElse (decide (64 ≤ v)) v 64

/-- The RUN mode of an epoch (R74, R76): 0 SWIFT, 1 DEEP, 2 SEALED. -/
def runMode (s : State) (ep : Nat) : Nat :=
  let v := s.cfg ep F.SV_MODE_CFG_RUN_MODE
  orElse (decide (v < 3)) v 1

/-- MODE of R75. -/
def mode (s : State) : Nat := s.rg F.SV_MODE_MODE

/-- The gateway is in a RUN mode. -/
def inRun (s : State) : Bool := decide (3 ≤ s.mode ∧ s.mode ≤ 5)

/-- The RUN mode's effect on release and cut-through: DEEP outside the RUN modes (R74). -/
def effMode (s : State) (ep : Nat) : Nat := if s.inRun then s.runMode ep else 1

/-- The port is up. -/
def portUp (s : State) (p : Nat) : Bool := decide (s.rg (F.PX_PORT_STAT_LINK p) = 1)

/-- Rate code of a port (R156). -/
def portRate (s : State) (p : Nat) : Nat := s.rg (F.PX_PORT_STAT_RATE p)

/-- Picoseconds that a frame of L bytes takes on a port, with preamble and gap (R250). -/
def sendPs (s : State) (p len : Nat) : Nat := (len + 20) * 8 * bitPs (s.portRate p)

/-! ### Queues -/

/-- Queue q. -/
def queueOf (s : State) (q : Nat) : Queue := Sparse.get (fun _ => emptyQueue) s.sx.queues q

/-- Put queue q. -/
def setQueue (s : State) (q : Nat) (x : Queue) : State :=
  { s with sx.queues := Sparse.set (fun _ => emptyQueue) s.sx.queues q x }

/-- MAC transmit queue m of port p. -/
def mqOf (s : State) (p m : Nat) : List Copy := Sparse.get (fun _ => []) s.sx.mqs (4 * p + m)

/-- Put MAC transmit queue m of port p. -/
def setMq (s : State) (p m : Nat) (l : List Copy) : State :=
  { s with sx.mqs := Sparse.set (fun _ => []) s.sx.mqs (4 * p + m) l }

/-- The copy a port is sending or taking. -/
def txOf (s : State) (p : Nat) : Option TxNow := Sparse.get (fun _ => none) s.sx.tx p

/-- Put the copy a port is sending. -/
def setTx (s : State) (p : Nat) (t : Option TxNow) : State :=
  { s with sx.tx := Sparse.set (fun _ => none) s.sx.tx p t }

/-- Cells charged for a copy (R160, R165). -/
def copyCells (s : State) (c : Copy) : Nat :=
  match s.frameOf c.frame with
  | none => 0
  | some f => if c.cut && !f.rxDone then cellsFor (s.maxLen f.epoch f.port) else cellsFor f.len

/-- Copies of queue q that hold on-die cells: queued, in a MAC transmit queue, or being sent (R160, R162). -/
def heldCopies (s : State) (q : Nat) : List Copy :=
  let p := q / 8
  (s.queueOf q).die ++ (([0, 1, 2, 3].flatMap (s.mqOf p)) ++
    (match s.txOf p with | some t => [t.copy] | none => [])).filter (fun c => c.tc == q % 8)

/-- On-die cells of queue q. -/
def dieCells (s : State) (q : Nat) : Nat := ((s.heldCopies q).map s.copyCells).sum

/-- The queues that hold a copy. -/
def busyQueues (s : State) : List Nat :=
  (List.range 328).filter (fun q => !(s.heldCopies q).isEmpty)

/-- A queue with a lower number holds the frame on-die (R162). -/
def lowerHolds (s : State) (q id : Nat) : Bool :=
  (s.busyQueues.takeWhile (fun k => decide (k < q))).any (fun k => (s.heldCopies k).any (fun c => c.frame == id))

/-- Own cells of queue q (R162). -/
def ownCells (s : State) (q : Nat) : Nat :=
  (((s.heldCopies q).filter (fun c => !s.lowerHolds q c.frame)).map s.copyCells).sum

/-- Pages of queue q in the Hamper and in staging. -/
def queuePages (s : State) (q : Nat) : Nat := (s.queueOf q).pages.length

/-! ### Cells and thresholds -/

/-- Banks in service (R123). -/
def banks (s : State) : Nat := s.rg F.SV_MEND_SERVICE_BANKS

/-- The Hamper's state: 0 OFF, 1 ON, 2 DRAINING (R193). -/
def hamState (s : State) : Nat := s.rg F.SX_HAM_STATE_STATE

/-- C_DIE (R162). -/
def cDie (s : State) : Nat := 16384 * popCount s.banks 16 - (if s.hamState = 0 then 0 else 4096)

/-- Cells held by frames in one bank. -/
def bankHeld (s : State) (b : Nat) : Nat := (s.allFrames.map (fun e => e.2.cells.count b)).sum

/-- Cells held, at ingress and in queues. -/
def heldCells (s : State) : Nat := (s.allFrames.map (fun e => e.2.cells.length)).sum

/-- Cells held by frames in banks in service. -/
def heldInService (s : State) : Nat :=
  (s.allFrames.map (fun e => (e.2.cells.filter (fun b => s.banks.testBit b)).length)).sum

/-- RSV_MIN of queue q: the larger of the two copies while both are in use (R162). -/
def rsvMin (s : State) (q : Nat) : Nat :=
  let a := s.act (F.SX_QLIM_RSV_MIN q)
  if s.swapped.testBit 2 && s.oldRemain then max a (s.shd (F.SX_QLIM_RSV_MIN q)) else a

/-- The sum of RSV_MIN over all queues. -/
def rsvSum (s : State) : Nat := ((List.range 328).map s.rsvMin).sum

/-- Reserves are scaled (R163). -/
def rsvScaled (s : State) : Bool := decide (2 * s.rsvSum > s.cDie)

/-- The effective reserve of queue q, from the sum of all RSV_MIN (R163). -/
def effRsvOf (s : State) (sum q : Nat) : Nat :=
  if 2 * sum > s.cDie then s.rsvMin q * s.cDie / (2 * sum) else s.rsvMin q

/-- The effective reserve of queue q (R163). -/
def effRsv (s : State) (q : Nat) : Nat := s.effRsvOf s.rsvSum q

/-- RSV_TOTAL (R162). -/
def rsvTotal (s : State) : Nat :=
  let m := s.rsvSum
  ((List.range 328).map (s.effRsvOf m)).sum

/-- Cells held at ingress and not yet enqueued by other frames (R162). -/
def ingressCells (s : State) (except : Option Nat) : Nat :=
  ((s.allFrames.filter (fun e => (decide (e.2.stage ≠ .queued) || e.2.copying != 0) && some e.1 != except)).map
    (fun e => e.2.cells.length)).sum

/-- HELD_UNCOVERED (R162). -/
def heldUncovered (s : State) (except : Option Nat) : Nat :=
  s.ingressCells except + (s.busyQueues.map (fun q => s.ownCells q - s.effRsv q)).sum

/-- FREE (R162). -/
def freeCells (s : State) (except : Option Nat) : Nat := s.cDie - s.rsvTotal - s.heldUncovered except

/-- Free physical cells outside the staging area. -/
def physFree (s : State) : Nat := s.cDie - s.heldInService

/-- floor(α × n) for an encoding of R166, reserved codes acting as the field's reset value. -/
def alphaTimes (code dflt n : Nat) : Nat := n * 2 ^ (orElse (decide (code ≤ 9)) code dflt) / 64

/-- The bank of the next cell: round robin over the in-service banks with a free cell (R160). -/
def nextBank (s : State) : Option Nat :=
  if s.physFree = 0 then none
  else ((List.range 16).map (fun i => (s.sx.bankPtr + i) % 16)).find?
    (fun b => s.banks.testBit b && decide (s.bankHeld b < 16384))

/-- Take a cell for a frame (R160). -/
def takeCell (s : State) (id b : Nat) : State :=
  ({ s with sx.bankPtr := (b + 1) % 16 }.modFrame id (fun f => { f with cells := f.cells ++ [b] })).pmu 0x03
    (match s.frameOf id with | some f => f.port | none => 0)

/-- Take n cells for a frame, as many as there are. -/
def takeCells (s : State) (id : Nat) : Nat → State
  | 0 => s
  | n + 1 => match s.nextBank with
    | some b => (s.takeCell id b).takeCells id n
    | none => s

/-! ### Marks -/

/-- DIE_LO or HAM_LO with its reserved rule (R189). -/
def loMark (hi lo : Nat) : Nat := orElse (decide (0 < lo ∧ lo ≤ 100 ∧ lo < hi)) lo (hi - 10)

/-- DIE_HI or HAM_HI with its reserved rule (R189). -/
def hiMark (hi : Nat) : Nat := orElse (decide (1 ≤ hi ∧ hi ≤ 100)) hi 90

/-- Pages in use, staging and detached pages included (R176). -/
def hamUsed (s : State) : Nat :=
  (s.sx.queues.map (fun e => e.2.pages.length)).sum + (s.sx.detached.map (fun d => d.pages.length)).sum

/-- Pages in service: those fixed at the boot Stitch less the retired ones. -/
def hamPages (s : State) : Nat := if s.hamState = 0 then 0 else s.sx.hamPages - s.sx.retired.length

/-- Staging pages open or waiting (R174). -/
def hamStage (s : State) : Nat :=
  (s.sx.queues.map (fun e => (e.2.pages.filter (fun p => p.state == .fill || p.state == .staged)).length)).sum

/-- DIE_HI and DIE_LO in force (R189). -/
def dieHi (s : State) : Nat := hiMark (s.act F.SX_BUF_CFG_DIE_HI)
def dieLo (s : State) : Nat := loMark s.dieHi (s.act F.SX_BUF_CFG_DIE_LO)

/-- HAM_HI and HAM_LO in force (R189). -/
def hamHi (s : State) : Nat := hiMark (s.act F.SX_BUF_CFG_HAM_HI)
def hamLo (s : State) : Nat := loMark s.hamHi (s.act F.SX_BUF_CFG_HAM_LO)

/-- The events of R189 re-arm below their low marks: judged wherever cells or pages are freed. -/
def rearmMarks (s : State) : State :=
  { s with
    sx.dieArmed := s.sx.dieArmed || decide (100 * s.heldCells < s.dieLo * s.cDie)
    sx.hamArmed := s.sx.hamArmed || decide (100 * s.hamUsed < s.hamLo * s.hamPages) }

/-- The occupancy events of R189 rise and re-arm. -/
def checkMarks (s : State) : State :=
  let t := if 100 * s.heldCells ≥ s.dieHi * s.cDie ∧ s.sx.dieArmed then { s with sx.dieArmed := false }.raise 64 else s
  let u := if t.hamPages ≠ 0 ∧ 100 * t.hamUsed ≥ t.hamHi * t.hamPages ∧ t.sx.hamArmed then
      { t with sx.hamArmed := false }.raise 65
    else t
  u.rearmMarks

/-- Reserve scaling is judged again after a change of C_DIE or RSV_MIN (R163). -/
def judgeRsv (s : State) : State :=
  if s.rsvScaled then
    if s.rg F.SX_RSV_TOTAL_SCALED = 0 then (s.setRg F.SX_RSV_TOTAL_SCALED 1).raise 72 else s
  else s.setRg F.SX_RSV_TOTAL_SCALED 0

/-- SX_QPEAK follows the queue's cell count (R193). -/
def notePeak (s : State) (q : Nat) : State :=
  let n := s.dieCells q
  if n > s.rg (F.SX_QPEAK_CELLS q) then s.setRg (F.SX_QPEAK_CELLS q) n else s

/-! ### The end of a copy and of a frame -/

/-- An offset of R501 in nanoseconds from the ingress. -/
def pegOfs (born : Nat) : Option Nat → Nat
  | none => 0xFFFFFFFF
  | some t => min (t - born) 0xFFFFFFFE

/-- The 16 bits of the frame record (R21). -/
def recordWord (f : Frame) : Nat :=
  f.epoch % 256 * 256 + f.tc % 8 * 32 +
    (match f.verdict with | .ok => 0 | .untrusted => 8 | .drop => 16) + (if f.peg then 4 else 0)

/-- A Peg record of a copy, or of a frame without copies (R501). -/
def pegRecord (s : State) (f : Frame) (c : Option Copy) (mac : Option Nat) (dropped stomped cut : Bool) (stage : Nat) :
    List Byte :=
  let o := fun t => leBytes 4 (pegOfs f.born t)
  leBytes 8 (compactStamp f.ti f.stamp) ++ o f.times.parser ++ o f.times.lookup ++ o f.times.policy ++
    o f.times.decrypt ++ o f.times.enqueue ++ o (c.bind (·.hamOut)) ++ o (c.bind (·.hamIn)) ++ o (c.bind (·.deq)) ++
    o (c.bind (·.enc)) ++ o mac ++ leBytes 1 f.port ++
    leBytes 1 (match c with | some x => x.port | none => 0xFF) ++ leBytes 2 (recordWord f) ++ leBytes 2 f.rxLen ++
    leBytes 2 (match c with | some x => qOf x.port x.tc | none => 0xFFFF) ++
    leBytes 1 ((if dropped then 1 else 0) + (if stomped then 2 else 0) + (if cut then 4 else 0) +
      (if f.pass ≥ 2 then 8 else 0) + (match c with | some x => if x.mcast then 16 else 0 | none => 0) +
      (if f.verdict = .untrusted then 32 else 0)) ++
    leBytes 1 (if dropped then stage else 0) ++ [0, 0] ++ leBytes 4 (s.ringOf 0).seq

/-- The Peg record of a tagged frame enters ring 0 (R501). -/
def pegDone (s : State) (f : Frame) (c : Option Copy) (mac : Option Nat) (dropped stomped cut : Bool) (stage : Nat) :
    State :=
  if f.peg then
    s.ringPush 0 (s.pegRecord f c mac dropped stomped cut stage)
  else s

/-! ### The Line -/

/-- A countdown by the LFSR of R500, uniform from 2^(K−1) to 2^K + 2^(K−1) − 1: a free value in that range. -/
def lfsrDraw (s : State) (k : Nat) : Nat := s.freeVal % 2 ^ k + 2 ^ (k - 1)

/-- VERDICT as a Line record and the VERDICTS field number it (R502, R503). -/
def verdictCode : Verdict → Nat
  | .ok => 0
  | .untrusted => 1
  | .drop => 2

/-- Line session i would capture a frame, its sampler apart (R502). -/
def lineTakes (s : State) (f : Frame) (i : Nat) : Bool :=
  decide (s.act (F.OB_LINE_CFG_W0_EN i) = 1) &&
    (maskOf (s.act (F.OB_LINE_CFG_W1_PORTS i)) (s.act (F.OB_LINE_CFG_W2_PORTS i))).testBit f.port &&
    (decide (s.act (F.OB_LINE_CFG_W0_ETYPE_EN i) = 0) ||
      decide (s.act (F.OB_LINE_CFG_W3_ETYPE i) = (parseHdr f.bytes).etype)) &&
    (decide (s.act (F.OB_LINE_CFG_W0_VID_EN i) = 0) || decide (s.act (F.OB_LINE_CFG_W3_VID i) = f.vid)) &&
    (s.act (F.OB_LINE_CFG_W0_VERDICTS i)).testBit (verdictCode f.verdict)

/-- The sampler of Line session i sees a matching frame (R502): with K = 0 it selects every one. -/
def lineSample (s : State) (i : Nat) : State × Bool :=
  let k := orElse (decide (s.act (F.OB_LINE_CFG_W0_K i) ≤ 20)) (s.act (F.OB_LINE_CFG_W0_K i)) 0
  if k = 0 then (s, true)
  else
    let left := Sparse.get (fun _ => 0) s.ob.lineLeft i
    let put := fun (t : State) n => { t with ob.lineLeft := Sparse.set (fun _ => 0) t.ob.lineLeft i n }
    if left = 0 then (put s.useFree (s.lfsrDraw k - 1), decide (s.lfsrDraw k = 1))
    else if left = 1 then (put s.useFree (s.lfsrDraw k), true)
    else (put s (left - 1), false)

/-- The Line record of a capture of a frame (R503). -/
def lineRecord (f : Frame) (c : LineCap) : List Byte :=
  let l := min f.rxLen 4095
  leBytes 8 (compactStamp f.ti f.stamp) ++ leBytes 1 (f.port + verdictCode c.verdict * 64) ++
    leBytes 6 (c.egress % 2 ^ 41 + c.tc % 8 * 2 ^ 41 + l / 256 * 2 ^ 44) ++ leBytes 1 l ++ slice0 f.bytes 0 128

/-- The captures made of a frame before its end are written, now that its L is known. -/
def lineEnd (s : State) (f : Frame) : State := s.forEach f.lines (fun t c => t.ringPush (c.session + 1) (lineRecord f c))

/-- The sessions that capture a frame, and their samplers after it (R502). -/
def lineHits (s : State) (f : Frame) : State × List LineCap :=
  ((List.range 8).filter (s.lineTakes f)).foldl (fun (a : State × List LineCap) i =>
    let (u, hit) := a.1.lineSample i
    (u, if hit then a.2 ++ [⟨i, f.verdict, f.egress, f.tc⟩] else a.2)) (s, [])

/-- The Line captures a frame at step 7, or where it is discarded before (R502); the record of a frame that still arrives
waits for its end. -/
def lineCapture (s : State) (id : Nat) (f : Frame) : State :=
  let (t, caps) := s.lineHits f
  if f.rxDone then t.lineEnd { f with lines := caps } else t.modFrame id (fun g => { g with lines := g.lines ++ caps })

/-- A frame's slots are settled and its cells freed; of a frame still arriving only the rest of its reception is
awaited. -/
def freeFrame (s : State) (id : Nat) : State :=
  match s.frameOf id with
  | none => s
  | some f =>
    (((s.settleSlots f).txEnded f id).setFrame id (if f.rxDone then none
      else some { f with zombie := true, verdict := .drop, cells := [], slots := 0, live := 0, kids := 0, copying := 0 })).rearmMarks

/-- One of a frame's own copies has ended; with the last one the frame ends. -/
def kidGone (s : State) (id : Nat) (left : Bool) : State :=
  match s.frameOf id with
  | none => s
  | some f =>
    let t := s.setFrame id (some { f with kids := f.kids - 1, left := f.left || left })
    if f.live = 0 ∧ f.copying = 0 ∧ f.kids ≤ 1 then t.freeFrame id else t

/-- A frame leaves the device. -/
def endFrame (s : State) (id : Nat) : State :=
  match s.frameOf id with
  | none => s
  | some f =>
    match f.parent with
    | some p => (s.freeFrame id).kidGone p f.left
    | none => s.freeFrame id

/-- A copy of frame id has left unstomped: the slots of the frame that it is a copy of are retired (R496). -/
def retireSlots (s : State) (id : Nat) : State :=
  let root := match s.frameOf id with | some f => rootOf f id | none => id
  match s.frameOf root with
  | none => s
  | some g => (s.settleSlots { g with left := true }).setFrame root (some { g with slots := 0, left := true })

/-- One reader less of a frame's cells: they are freed with the last one (R160), and the frame ends with the last copy. -/
def readerGone (s : State) (id : Nat) : State :=
  match s.frameOf id with
  | none => s
  | some f =>
    let g := { f with live := f.live - 1 }
    if f.live ≤ 1 ∧ f.copying = 0 then
      if f.kids = 0 then (s.setFrame id (some g)).endFrame id else (s.setFrame id (some { g with cells := [] })).rearmMarks
    else s.setFrame id (some g)

/-- A copy is gone; `left` says that it left unstomped. -/
def copyGone (s : State) (id : Nat) (left : Bool) : State :=
  (if left then s.retireSlots id else s).readerGone id

/-- A copy is discarded at a stage of R501, without being sent whole. -/
def dropCopy (s : State) (c : Copy) (stage : Nat) : State :=
  match s.frameOf c.frame with
  | none => s
  | some f => (s.pegDone f (some c) none true false c.cut stage).copyGone c.frame false

/-- A frame without copies is discarded at a stage of R501, those that it had having written their own records. -/
def discardFrame (s : State) (id : Nat) : State :=
  match s.frameOf id with
  | none => s
  | some f => (if f.stage = .queued then s else s.lineCapture id f).endFrame id

/-- A frame that never had copies is discarded at a stage of R501. -/
def dropFrame (s : State) (id stage : Nat) : State :=
  match s.frameOf id with
  | none => s
  | some f => (s.pegDone f none none true false false stage).discardFrame id

/-- Set VERDICT to DROP (R23). -/
def setDrop (s : State) (id : Nat) : State := s.modFrame id (fun f => { f with verdict := .drop })

/-- The verdict makes an egress that has not started the copy discard it (R24, R25). -/
def mustDrop (s : State) (id : Nat) : Bool :=
  match s.frameOf id with
  | some f => f.verdict != .ok
  | none => true

/-! ### Taking copies out of queues -/

/-- Drop a list of copies, each with a count. -/
def dropCopies (s : State) (l : List Copy) (stage : Nat) (count : State → Copy → State) : State :=
  s.forEach l (fun t c => (count t c).dropCopy c stage)

/-- An epoch-aged copy or frame of egress port p is counted (R111, R494); p is 41 for a frame in no queue yet. -/
def countAged (s : State) (p : Nat) : State :=
  (((if p < 41 then s.bump (F.SX_AGED_COUNT p) else s).bump F.SV_TX_AGED_COUNT).raise 14).pmu 0x08 p

/-- A page's frames are counted as flushed or as epoch-aged and dropped (R178, R179). -/
def dropPage (s : State) (port : Nat) (aged : Bool) (p : HPage) : State :=
  s.dropCopies p.copies 7 (fun t _ => if aged then t.countAged port else t.bump (F.SX_FLUSHED_COUNT port))

/-- The copy in a detached page no longer holds a waiting Stitch or Tack (R186): it is counted when its page returns, but
the frame that it is a copy of has lost it. -/
def detachCopy (s : State) (c : Copy) : State :=
  match s.frameOf c.frame with
  | none => s
  | some f =>
    let t := s.setFrame c.frame (some { f with zombie := true, parent := none })
    match f.parent with
    | some p => t.kidGone p f.left
    | none => t

/-- Detach the pages of a chain that lie in DRAM, and drop those still in staging (R178, R185). -/
def releasePages (s : State) (port : Nat) (aged : Bool) (l : List HPage) : State :=
  let inDram := l.filter (fun p => p.state == .dram || p.state == .refilling)
  let staged := l.filter (fun p => p.state == .fill || p.state == .staged)
  let t := s.forEach staged (fun t p => t.dropPage port aged p)
  if inDram.isEmpty then t.rearmMarks
  else { t.forEach (inDram.flatMap (·.copies)) detachCopy with sx.detached := t.sx.detached ++ [⟨port, aged, inDram⟩] }

/-- Flush one queue of a port (R185). -/
def flushQueue (s : State) (q : Nat) : State :=
  let x := s.queueOf q
  let port := q / 8
  let t := s.setQueue q { x with die := [], pages := [], spill := false, deficit := 0 }
  let u := t.dropCopies x.die 8 (fun t _ => t.bump (F.SX_FLUSHED_COUNT port))
  u.releasePages port false x.pages

/-- Flush the MAC transmit queues of a port. -/
def flushMqs (s : State) (p : Nat) : State :=
  s.forEach [0, 1, 2, 3] (fun t m =>
    (t.setMq p m []).dropCopies (t.mqOf p m) 8 (fun t _ => t.bump (F.SX_FLUSHED_COUNT p)))

/-- Flush every queue of a port that goes down (R185). -/
def flushPort (s : State) (p : Nat) : State :=
  (s.forEach (List.range 8) (fun t i => t.flushQueue (8 * p + i))).flushMqs p

end State

end Sys2Proof.Machine
end

