-- ==== Sys2Proof/Machine/RxOps.lean ====
section
/-!
DEFINITION. Receiving a frame (R132 to R136, R160, R161) as operations: its start, its cells, its end.
-/

namespace Sys2Proof.Machine

/-- The ports with a MAC (R18). -/
def hasMac (p : Nat) : Bool := decide (p < 36 ∨ p = 40)

/-- A frame record at its start of frame (R21, R22). -/
def newFrame (port epoch ti stamp born : Nat) (peg : Bool) : Frame where
  port := port
  bytes := []
  len := 0
  rxLen := 0
  due := 0
  rxDone := false
  good := false
  badWhy := 0
  epoch := epoch
  peg := peg
  tc := 0
  verdict := .ok
  ti := ti
  stamp := stamp
  born := born
  l3 := 0
  l4 := 0
  stage := .receiving
  pass := 0
  vid := 0
  evid := 0
  tagged := false
  pcp := 0
  dei := false
  colour := 0
  setPcp := none
  egress := 0
  group := none
  copying := 0
  stream := none
  seqNo := none
  strip := 0
  rewrite := none
  csumFull := false
  directive := none
  launch := none
  ce := none
  sealIn := none
  unprot := false
  owner := 0
  cells := []
  slots := 0
  slotGen := 0
  left := false
  live := 0
  kids := 0
  parent := none
  zombie := false
  lines := []
  times := ⟨none, none, none, none, none⟩

/-- The bytes received of a frame: while CE has not verified it, they stand beside its plaintext. -/
def Frame.wireBytes (f : Frame) : List Byte :=
  match f.ce with
  | some w => if w.done then f.bytes else w.wire
  | none => f.bytes

/-- CE has nothing more to verify of the frame. -/
def Frame.verified (f : Frame) : Bool :=
  match f.ce with
  | some w => w.done
  | none => true

/-- A frame with its received bytes replaced. -/
def Frame.withWire (f : Frame) (bs : List Byte) : Frame :=
  match f.ce with
  | some w => if w.done then { f with bytes := bs } else { f with ce := some { w with wire := bs } }
  | none => { f with bytes := bs }

namespace State

/-- The epoch copy held in a port's clock domain (R22). -/
def portEpoch (s : State) (p : Nat) : Nat := Sparse.get (fun _ => 0) s.epochs p

/-- The Peg countdown of a port takes one frame: whether it is tagged, and the state after (R500). The LFSR's draw is
a free value in the range that R500 gives. -/
def pegCount (s : State) (p : Nat) : State × Bool :=
  let mask := maskOf (s.act F.OB_PEG_PORTS_LO_PEG_PORTS) (s.act F.OB_PEG_PORTS_HI_PEG_PORTS)
  if s.act F.OB_PEG_CFG_PEG_EN = 1 ∧ mask.testBit p then
    let k0 := s.act F.OB_PEG_CFG_K
    let k := orElse (decide (4 ≤ k0 ∧ k0 ≤ 20)) k0 10
    let draw := s.lfsrDraw k
    let left := Sparse.get (fun _ => 0) s.ob.pegLeft p
    if left = 0 then
      ({ s.useFree with ob.pegLeft := Sparse.set (fun _ => 0) s.ob.pegLeft p (draw - 1) }, decide (draw = 1))
    else if left = 1 then
      ({ s.useFree with ob.pegLeft := Sparse.set (fun _ => 0) s.ob.pegLeft p draw }, true)
    else ({ s with ob.pegLeft := Sparse.set (fun _ => 0) s.ob.pegLeft p (left - 1) }, false)
  else (s, false)

/-- The time instance that stamps at a port, as an epoch sees it (R22, R268). -/
def stampTi (s : State) (ep p : Nat) : Nat := s.cfg ep (F.TE_PORT_CFG_STAMP_TI p)

/-- The ingress stamp of a port for a frame of an epoch, 1/256 ns of its instance (R22, R268). -/
def ingressStamp (s : State) (ep p : Nat) : Nat :=
  let now := s.tiFine (s.stampTi ep p)
  if hasMac p then (((now : Int) - signed24 (s.cfg ep (F.TE_PORT_RXLAT_RX_LAT p))) % (256 * tiWrap : Nat)).toNat else now

/-- A start of frame is sampled: the frame record, the stamp, EPOCH and PEG (step 1, R22). A frame of the old epoch brings
the older copy of CD02 into use again, so the reserves are judged (R162, R163). -/
def startFrame (s : State) (p : Nat) (directive : Option Nat := none) : State :=
  let id := s.sx.nextId
  let (t, peg) := s.pegCount p
  let ep := s.portEpoch p
  let f := { newFrame p ep (s.stampTi ep p) (s.ingressStamp ep p) s.now peg with directive := directive }
  let u := { t.setFrame id (some f) with
    sx.nextId := id + 1
    sx.rx := Sparse.set (fun _ => none) t.sx.rx p (some id) }
  if ep ≠ s.epoch % 256 ∧ s.swapped.testBit 2 then u.judgeRsv else u

/-- The frame a port is receiving. -/
def rxOf (s : State) (p : Nat) : Option Nat := Sparse.get (fun _ => none) s.sx.rx p

/-- No free on-die cell at ingress: the frame's cells are released and it is discarded (R161). -/
def noCell (s : State) (id p : Nat) : State :=
  ((s.dropFrame id 1).bump (F.SX_DROP_NOCELL_COUNT p)).raise 68

/-- A frame takes the cells that its bytes need, or is discarded (R160, R161). MAC control frames take none (R135). -/
def cellsUpTo (s : State) (id : Nat) : State :=
  match s.frameOf id with
  | none => s
  | some f =>
    if f.zombie ∨ beAt f.wireBytes 12 2 = 0x8808 then s
    else
      let need := cellsFor f.len - f.cells.length
      let t := s.takeCells id need
      match t.frameOf id with
      | none => t
      | some g => if g.cells.length < cellsFor f.len then t.noCell id f.port else t.checkMarks

/-- More bytes of the frame in reception arrive. -/
def addBytes (s : State) (id : Nat) (bs : List Byte) : State :=
  s.modFrame id (fun f => { f.withWire (f.wireBytes ++ bs) with len := f.len + bs.length, rxLen := f.len + bs.length })

/-- A frame passes a CRC snoop unit's point of a port: received (1), sent (2) or read from a packing queue (3) (R504). -/
def csuSee (s : State) (src unit : Nat) (bs : List Byte) : State :=
  s.forEach (List.range 8) (fun t u =>
    let c := Sparse.get (fun _ => ⟨decide (u ≠ 0), []⟩) t.ob.csu u
    if c.attached && decide (t.act (F.OB_CSU_CFG_SRC u) = src) && decide (t.act (F.OB_CSU_CFG_UNIT u) = unit) then
      { t with ob.csu := Sparse.set (fun u => ⟨decide (u ≠ 0), []⟩) t.ob.csu u { c with stream := c.stream ++ [bs] } }
    else t)

/-- The port's reception ends. -/
def rxIdle (s : State) (p : Nat) : State :=
  { s with sx.rx := Sparse.set (fun _ => none) s.sx.rx p none, sx.skip := clrBit s.sx.skip p }

/-- A frame in reception turns out bad: dropped before its slot, or set to DROP (R24, R132 to R134); it is never tagged
(R500). Its learn request leaves no trace (R206). The Line captures it where it is dropped here (R502), unless `line` says
that it is a runt or a MAC control frame (log 41). -/
def rxBad (s : State) (id : Nat) (why : Nat := 2) (line : Bool := true) : State :=
  let t := { s with fx.learn := s.fx.learn.filter (fun r => r.frame != id) }
  match t.frameOf id with
  | none => t
  | some f =>
    let g := { f with rxDone := true, good := false, badWhy := why, verdict := .drop, peg := false }
    if f.zombie then (((t.lineEnd f).settleSlots f).setFrame id none).rearmMarks
    else if f.pass = 0 then (((if line then t.lineCapture id g else t).settleSlots f).setFrame id none).rearmMarks
    else (t.lineEnd g).setFrame id (some { g with lines := [] })

/-- The reception of frame id ends with an error, after the bytes received so far (R132, R504). -/
def rxAbort (s : State) (id p : Nat) (line : Bool := true) : State :=
  match s.frameOf id with
  | some f => ((s.csuSee 1 p f.wireBytes).rxBad id 2 line).rxIdle p
  | none => s.rxIdle p

/-- A frame counted in PX_RX_FRAMES is complete (R134 item 6, R136, R206); on a T1S port it wakes the port's domains
(R411). -/
def rxGood (s : State) (id p : Nat) (len l3 l4 : Nat) : State :=
  let smac := match s.frameOf id with
    | some f => beAt f.bytes 6 6
    | none => 0
  let t := ((s.t1sFrame p smac).bump64 (R.PX_RX_FRAMES p)).bump64 (R.PX_RX_BYTES p) len
  let u := if l3 = 2 ∨ l4 = 2 then t.bump (F.PX_RX_CSUM_ERR_COUNT p) else t
  let sound := (u.frameOf id).any Frame.verified
  let v := { u with fx.learn := u.fx.learn.map (fun (r : LearnReq) => if r.frame = id then { r with ok := sound } else r) }
  match v.frameOf id with
  | none => v
  | some f =>
    if f.zombie then (v.lineEnd f).setFrame id none
    else (v.lineEnd f).setFrame id (some { f with rxDone := true, good := true, l3 := l3, l4 := l4, lines := [] })

/-- The checksums of a frame are verified (R136). -/
def csumChecked (s : State) (f : Frame) : Bool :=
  hasMac f.port && decide (s.cfg f.epoch (F.PX_PORT_CFG_CSUM_CHK f.port) = 1)

/-- An end of frame: exactly one receive counter takes it (R132 to R135). `bs` are the bytes that arrived since the
last cell, FCS included; an internal port supplies its own FCS (R157). -/
def endRx (s : State) (p : Nat) (bs : List Byte) : State :=
  match s.rxOf p with
  | none => s.rxIdle p
  | some id =>
    match s.frameOf id with
    | none => s.rxIdle p
    | some f =>
      let all := f.wireBytes ++ bs
      let len := all.length
      let data := all.take (len - 4)
      let s1 := ((s.csuSee 1 p all).rxIdle p).modFrame id (fun f => { f.withWire data with len := len, rxLen := len })
      if len < s.runtMin f.epoch p ∧ f.cells = [] then (s1.rxBad id 2 false).bump (F.PX_RX_RUNT_COUNT p)
      else if len > s.maxLen f.epoch p then (s1.rxBad id).bump (F.PX_RX_OVERSIZE_COUNT p)
      else if hasMac p && decide (all.drop (len - 4) ≠ fcsBytes data) then
        (s1.rxBad id 1).bump (F.PX_RX_FCS_ERR_COUNT p)
      else if beAt data 12 2 = 0x8808 then (s1.rxBad id 2 false).bump (F.PX_RX_MACCTL_COUNT p)
      else
        let h := parseHdr data
        let s2 := s1.cellsUpTo id
        if s.csumChecked f then s2.rxGood id p len (checkL3 h data) (checkL4 h data)
        else s2.rxGood id p len 0 0

/-- The frame in reception is cut short (R132): a runt before its first cell, a symbol error after it. -/
def cutRx (s : State) (p : Nat) : State :=
  match s.rxOf p with
  | none => s.rxIdle p
  | some id =>
    match s.frameOf id with
    | none => s.rxIdle p
    | some f =>
      if f.len < s.runtMin f.epoch p ∧ f.cells = [] then (s.rxAbort id p false).bump (F.PX_RX_RUNT_COUNT p)
      else (s.rxAbort id p).bump (F.PX_RX_SYMBOL_ERR_COUNT p)

/-- A frame enters whole at an internal port: step 1 from start to end of frame. Answers its identifier. -/
def enterWhole (s : State) (p : Nat) (data : List Byte) (g : Frame → Frame) : State :=
  let id := s.sx.nextId
  let t := (s.startFrame p).modFrame id g
  t.endRx p (data ++ fcsBytes data)

end State

end Sys2Proof.Machine
end

