-- ==== Sys2Proof/Machine/FxOps.lean ====
section
/-!
DEFINITION. The operations of the forwarding and policy engine (07_forwarding.md, 08_policy_scheduling.md): the bridge
table, routing, path groups, the ACL, policers, stream filters and sequence recovery.
-/

namespace Sys2Proof.Machine

/-- The 8-byte key of a bridge entry (R200). -/
def fdbKey (fid mac : Nat) : List Byte := beBytes 2 fid ++ beBytes 6 mac

/-- Candidate bucket B0 (R200). -/
def bucket0 (fid mac : Nat) : Nat := crc32c (fdbKey fid mac) % 8192

/-- Candidate bucket B1 (R200). -/
def bucket1 (fid mac : Nat) : Nat := crc32 (fdbKey fid mac) % 8192

/-- First slot of the overflow CAM (R200). -/
abbrev camBase : Nat := 65536

/-- The numbers of an interval. -/
def span (a n : Nat) : List Nat := (List.range n).map (· + a)

/-- Replace the high `len` bits of a `w`-bit address (R212). -/
def xlate (w len addr new : Nat) : Nat :=
  let host := 2 ^ (w - len)
  new / host * host + addr % host

/-- The high `len` bits of two `w`-bit addresses agree. -/
def prefixEq (w len a b : Nat) : Bool := decide (a / 2 ^ (w - len) = b / 2 ^ (w - len))

/-- Of the candidates with a length, the longest, ties to the later one (R210, R212). -/
def longest : List (Nat × Nat) → Option (Nat × Nat)
  | [] => none
  | x :: xs => match longest xs with
    | none => some x
    | some y => if x.1 > y.1 then some x else some y

namespace State

/-! ### The bridge table -/

/-- Slot n of the bridge table. -/
def fdbAt (s : State) (n : Nat) : Option FdbEntry := Sparse.get (fun _ => none) s.fx.fdb n

/-- Put slot n of the bridge table. -/
def setFdb (s : State) (n : Nat) (e : Option FdbEntry) : State :=
  { s with fx.fdb := Sparse.set (fun _ => none) s.fx.fdb n e }

/-- All entries of the bridge table with their slots. -/
def fdbAll (s : State) : List (Nat × FdbEntry) := s.fx.fdb.filterMap (fun e => e.2.map (fun x => (e.1, x)))

/-- The static entry with a key, in the copy an epoch selects (R202). -/
def fdbStatic (s : State) (other : Bool) (fid mac : Nat) : Option (Nat × FdbEntry) :=
  s.fdbAll.find? (fun e => e.2.static && e.2.fid == fid && e.2.mac == mac &&
    (if other then e.2.inOther else e.2.inActive))

/-- The learned entry with a key. -/
def fdbLearned (s : State) (fid mac : Nat) : Option (Nat × FdbEntry) :=
  s.fdbAll.find? (fun e => !e.2.static && e.2.fid == fid && e.2.mac == mac)

/-- The entry that a frame of an epoch sees (R202, R204). -/
def fdbLookup (s : State) (ep fid mac : Nat) : Option (Nat × FdbEntry) :=
  match s.fdbStatic (s.usesOther ep 3) fid mac with
  | some e => some e
  | none => s.fdbLearned fid mac

/-- Learned entries on a port (R207). -/
def learnedOn (s : State) (p : Nat) : Nat := (s.fdbAll.filter (fun e => !e.2.static && e.2.dest == p)).length

/-- Ways free of a bucket. -/
def freeWays (s : State) (b : Nat) : List Nat := (span (8 * b) 8).filter (fun n => (s.fdbAt n).isNone)

/-- The slot of a new entry: the candidate bucket with more ways free, a tie to B0, the lowest free way (R203, R208). -/
def bucketSlot (s : State) (fid mac : Nat) : Option Nat :=
  let f0 := s.freeWays (bucket0 fid mac)
  let f1 := s.freeWays (bucket1 fid mac)
  if f1.length > f0.length then f1.head? else f0.head?

/-- A free CAM slot. -/
def camSlot (s : State) : Option Nat := (span camBase 256).find? (fun n => (s.fdbAt n).isNone)

/-- Ticks since a learned entry's stamp (R209). -/
def stampAge (s : State) (e : FdbEntry) : Nat := (65536 + s.rg F.FX_AGE_NOW_NOW - e.stamp) % 65536

/-- The learned entry with the oldest stamp among slots. -/
def oldestLearned (s : State) (slots : List Nat) : Option Nat :=
  slots.foldl (fun best n =>
    match s.fdbAt n with
    | some e =>
      if e.static then best
      else match best with
        | none => some n
        | some m => match s.fdbAt m with
          | some x => if s.stampAge e > s.stampAge x then some n else best
          | none => some n
    | none => best) none

/-- LEARN_LIM of a port. -/
def learnLim (s : State) (ep p : Nat) : Nat := s.cfg ep (F.FX_PORT_CFG_LEARN_LIM p)

/-- EV_FX_LEARN_LIMIT rises and re-arms (R207). -/
def checkLimit (s : State) (ep p : Nat) : State :=
  if s.learnedOn p ≥ s.learnLim ep p then
    if s.fx.limHigh.testBit p then s
    else (({ s with fx.limHigh := setBit s.fx.limHigh p }).setRg F.FX_EV_LAST_LEARN_PORT p).raise 97
  else { s with fx.limHigh := clrBit s.fx.limHigh p }

/-- The entry in a slot is removed; a learned one that brings its port below the limit re-arms the port's event (R207). -/
def forget (s : State) (n : Nat) : State :=
  match s.fdbAt n with
  | some e =>
    let t := s.setFdb n none
    if !e.static ∧ t.learnedOn e.dest < t.act (F.FX_PORT_CFG_LEARN_LIM e.dest) then
      { t with fx.limHigh := clrBit t.fx.limHigh e.dest } else t
  | none => s

/-- Where a static entry goes, and whether a learned entry is displaced for it (R203). DESIGN CHOICE (log 96): of the CAM's
learned entries the one with the oldest stamp goes too, and counts in FX_FDB_DISPLACED; of equally old ones the first in the
order of the slots, B0 before B1. -/
def staticSlot (s : State) (fid mac : Nat) : Option (Nat × Bool) :=
  match s.bucketSlot fid mac with
  | some n => some (n, false)
  | none =>
    match s.oldestLearned (span (8 * bucket0 fid mac) 8 ++ span (8 * bucket1 fid mac) 8) with
    | some n => some (n, true)
    | none =>
      match s.camSlot with
      | some n => some (n, false)
      | none => (s.oldestLearned (span camBase 256)).map (fun n => (n, true))

/-- An entry of the static list in a copy: MAC, FID, destination, kind, VALID (R227). -/
def staticEntry (rf : RegFile) (i : Nat) : Nat × Nat × Nat × Nat × Bool :=
  let mac := rfGet rf (F.FX_FDB_STATIC_W0_MAC_LO i) + 2 ^ 32 * rfGet rf (F.FX_FDB_STATIC_W1_MAC_HI i)
  let kind := rfGet rf (F.FX_FDB_STATIC_W2_DEST_KIND i)
  let d := rfGet rf (F.FX_FDB_STATIC_W2_DEST i)
  let dest := if kind = 0 then orElse (decide (d < 41)) d 0 else if kind = 2 then orElse (decide (d < 16)) d 0 else d
  (mac, rfGet rf (F.FX_FDB_STATIC_W1_FID i), dest, kind, decide (rfGet rf (F.FX_FDB_STATIC_W1_VALID i) = 1))

/-- Learned entries whose key has become static in every copy in use are deleted (R204). -/
def purgeLearned (s : State) : State :=
  s.forEach (s.fdbAll.filter (fun e => !e.2.static && (s.fdbStatic false e.2.fid e.2.mac).isSome &&
    (s.fdbStatic true e.2.fid e.2.mac).isSome)) (fun t e => t.forget e.1)

/-- A list entry no longer holds a static entry in the other copy (R202). -/
def staticRemove (s : State) (mac fid dest kind : Nat) : State :=
  match s.fdbAll.find? (fun e => e.2.static && e.2.inOther && e.2.mac == mac && e.2.fid == fid && e.2.dest == dest &&
      e.2.kind == kind) with
  | some (n, e) => if e.inActive then s.setFdb n (some { e with inOther := false }) else s.setFdb n none
  | none => s

/-- A static entry reaches the list in the other copy and is installed, or fails (R203). -/
def staticInstall (s : State) (pos mac fid dest kind : Nat) : State :=
  match s.fdbAll.find? (fun e => e.2.static && e.2.mac == mac && e.2.fid == fid && e.2.dest == dest &&
      e.2.kind == kind) with
  | some (n, e) => s.setFdb n (some { e with inOther := true })
  | none =>
    match s.staticSlot fid mac with
    | some (n, displaced) =>
      let t := (s.forget n).setFdb n (some ⟨mac, fid, true, dest, kind, 0, false, true⟩)
      (if displaced then t.bump F.FX_FDB_DISPLACED_COUNT else t).purgeLearned
    | none =>
      ((s.bump F.FX_FDB_STATIC_FAIL_COUNT).setRg F.FX_EV_LAST_STATIC_POS pos).raise 98

/-- A position of the other copy's static list holds this entry: positions with equal entries share one slot. -/
def staticListed (s : State) (mac fid dest kind : Nat) : Bool :=
  (List.range 8192).any (fun i => staticEntry (s.shadowOf 3) i == (mac, fid, dest, kind, true))

/-- The static list's entry i of the other copy has been written; `old` is the copy before (R203). -/
def staticWritten (s : State) (old : RegFile) (i : Nat) : State :=
  let (m0, f0, d0, k0, v0) := staticEntry old i
  let (m1, f1, d1, k1, v1) := staticEntry (s.shadowOf 3) i
  let t := if v0 ∧ !s.staticListed m0 f0 d0 k0 then s.staticRemove m0 f0 d0 k0 else s
  if v1 then t.staticInstall i m1 f1 d1 k1 else t

/-- The other copy of CD03 becomes equal to ACTIVE: entries only in it are removed (R203). -/
def staticsRollback (s : State) : State :=
  s.forEach (s.fdbAll.filter (fun e => e.2.static)) (fun t e =>
    t.setFdb e.1 (if e.2.inActive then some { e.2 with inOther := true } else none))

/-- ACTIVE and the other copy of CD03 swap (R202). -/
def staticsSwap (s : State) : State :=
  s.forEach (s.fdbAll.filter (fun e => e.2.static)) (fun t e =>
    t.setFdb e.1 (some { e.2 with inActive := e.2.inOther, inOther := e.2.inActive }))

/-- A drain has completed: entries only in the older copy are freed (R203), and learned entries whose key is static in
the one copy still in use are deleted (R204). -/
def staticsDrained (s : State) : State :=
  s.forEach (s.fdbAll.filter (fun e =>
    if e.2.static then !e.2.inActive else (s.fdbStatic false e.2.fid e.2.mac).isSome)) (fun t e => t.forget e.1)

/-! ### Path groups -/

/-- Member port m of group p in a copy (R227). -/
def pgMember (rf : RegFile) (p m : Nat) : Nat :=
  let w := (Sparse.get resetWord rf (if m < 4 then R.FX_PG_W0 p else R.FX_PG_W1 p)).toNat
  let v := w / 2 ^ (8 * (m % 4)) % 64
  orElse (decide (v < 41)) v 0

/-- The enabled members of group p in a copy, in ascending number. -/
def pgEnabled (rf : RegFile) (p : Nat) : List Nat :=
  (List.range 8).filter (fun m => (rfGet rf (F.FX_PG_W2_MEMBER_EN p)).testBit m)

/-- HOME of every bucket of group p in a copy (R215); none enabled: no member. -/
def pgHome (rf : RegFile) (p : Nat) : List Nat :=
  let en := pgEnabled rf p
  (List.range 256).map (fun b => en.getD (b % max 1 en.length) 8)

/-- The copy of CD03: ACTIVE (0) or the other (1). -/
def cd3 (s : State) (copy : Nat) : RegFile := if copy = 0 then s.activeOf 3 else s.shadowOf 3

/-- CURRENT of every bucket of group p in a copy. -/
def pgCurrent (s : State) (copy p : Nat) : List Nat :=
  let l := Sparse.get (fun _ => []) s.fx.current (16 * copy + p)
  if l = [] then pgHome (s.cd3 copy) p else l

/-- Put CURRENT of a group. -/
def setCurrent (s : State) (copy p : Nat) (l : List Nat) : State :=
  { s with fx.current := Sparse.set (fun _ => []) s.fx.current (16 * copy + p) l }

/-- A member is in service: its port is up and not out of service under Mend (R215). -/
def pgServing (s : State) (copy p m : Nat) : Bool :=
  (pgEnabled (s.cd3 copy) p).contains m && s.portUp (pgMember (s.cd3 copy) p m)

/-- In-service members of a group in a copy, in ascending number. -/
def pgInService (s : State) (copy p : Nat) : List Nat := (List.range 8).filter (s.pgServing copy p)

/-- Reassign cyclically the buckets whose CURRENT satisfies a test (R217). -/
def reassign (members : List Nat) (gone : Nat → Bool) : List Nat → Nat → List Nat
  | [], _ => []
  | m :: ms, k =>
    if gone m then members.getD (k % max 1 members.length) m :: reassign members gone ms (k + 1)
    else m :: reassign members gone ms k

/-- FX_PG_STAT follows the members in service of the ACTIVE copy (R230). -/
def notePg (s : State) (p : Nat) : State :=
  s.setRg (F.FX_PG_STAT_IN_SERVICE p) ((s.pgInService 0 p).foldl (fun a m => a + 2 ^ m) 0)

/-- Count n bucket moves of a group (R217). -/
def pgMoved (s : State) (p n : Nat) : State :=
  if n = 0 then s
  else ((s.bump (F.FX_PG_MOVES_COUNT p) n).setRg F.FX_EV_LAST_PG p).raise 99

/-- Members of group p that wait for REJOIN, as a mask. -/
def rejoinOf (s : State) (p : Nat) : Nat := Sparse.get (fun _ => 0) s.fx.rejoining p

/-- Set the members of group p that wait for REJOIN. -/
def setRejoin (s : State) (p m : Nat) : State :=
  { s with fx.rejoining := Sparse.set (fun _ => 0) s.fx.rejoining p m }

/-- Port `port` has left service: its members' buckets are reassigned in both copies (R217). -/
def pgPortDown (s : State) (port : Nat) : State :=
  s.forEach (List.range 16) (fun t p =>
    let gone := fun copy m => (pgEnabled (t.cd3 copy) p).contains m && pgMember (t.cd3 copy) p m == port
    let n := (t.pgCurrent 0 p).countP (gone 0)
    let n1 := (t.pgCurrent 1 p).countP (gone 1)
    if n = 0 ∧ n1 = 0 ∧ !(List.range 8).any (gone 0) then t
    else
      let alive := t.pgInService 0 p
      let t1 := if alive = [] then t else t.setCurrent 0 p (reassign alive (gone 0) (t.pgCurrent 0 p) 0)
      let alive1 := t1.pgInService 1 p
      let t2 := if alive1 = [] then t1 else t1.setCurrent 1 p (reassign alive1 (gone 1) (t1.pgCurrent 1 p) 0)
      let lost := (List.range 8).foldl (fun a m => if gone 0 m then a + 2 ^ m else a) 0
      let t3 := t2.setRejoin p (maskDiff (t2.rejoinOf p) lost)
      (t3.notePg p).pgMoved p (if alive = [] then 0 else n))

/-- Port `port` has come into service: its members wait for REJOIN (R217). In a group that had no member in service the
buckets stay with the members they had: DESIGN CHOICE (log 107). -/
def pgPortUp (s : State) (port : Nat) : State :=
  s.forEach (List.range 16) (fun t p =>
    let mine := (List.range 8).filter (fun m =>
      (pgEnabled (t.cd3 0) p).contains m && pgMember (t.cd3 0) p m == port)
    if mine = [] then t
    else
      ({ t.setRejoin p (mine.foldl setBit (t.rejoinOf p)) with fx.pgEmpty := clrBit t.fx.pgEmpty p }).notePg p)

/-- Every bucket whose HOME is member m returns to it, in both copies (R217). -/
def pgRejoin (s : State) (p m : Nat) : State :=
  let back := fun copy t =>
    let rf := State.cd3 t copy
    (State.pgCurrent t copy p).zipWith (fun c h => if h = m then m else c) (pgHome rf p)
  let n := ((s.pgCurrent 0 p).zip (back 0 s)).countP (fun e => e.1 != e.2)
  let t := s.setCurrent 0 p (back 0 s)
  let u := t.setCurrent 1 p (back 1 t)
  (u.setRejoin p (clrBit (u.rejoinOf p) m)).pgMoved p n

/-- The bytes of a selected hash field (R216). -/
def hashField (f : Frame) (h : Hdr) (src dst : Nat) : Nat → List Byte
  | 0 => beBytes 1 f.port
  | 1 => beBytes 6 h.dmac
  | 2 => beBytes 6 h.smac
  | 3 => beBytes 2 f.vid
  | 4 => beBytes 2 h.etype
  | 5 => if h.v4 then beBytes 4 src else if h.v6 then beBytes 16 src else []
  | 6 => if h.v4 then beBytes 4 dst else if h.v6 then beBytes 16 dst else []
  | 7 => if h.v4 || h.v6 then beBytes 1 h.proto else []
  | 8 => match h.l4 with | some o => slice0 f.bytes o 2 | none => []
  | 9 => match h.l4 with | some o => slice0 f.bytes (o + 2) 2 | none => []
  | 10 => if h.v6 then beBytes 3 h.flow else []
  | _ => []

/-- The CRC-32C of R216 over the selected fields. -/
def fieldCrc (f : Frame) (h : Hdr) (fields seed src dst : Nat) : Nat :=
  crcReflected crc32cKind (reverseBits 32 seed)
    (((List.range 11).filter (fun i => fields.testBit i)).flatMap (hashField f h src dst))

/-- A frame's bucket of a path group (R216). -/
def pgBucket (s : State) (f : Frame) (h : Hdr) (p src dst : Nat) : Nat :=
  fieldCrc f h (s.cfg f.epoch (F.FX_PG_W2_HASH_FIELDS p)) (s.cfg f.epoch (F.FX_PG_W3_SEED p)) src dst % 256

/-- The member port of a path group for a frame, or none with no member in service (R217, R218). -/
def pgChoose (s : State) (f : Frame) (h : Hdr) (p src dst : Nat) : Option Nat :=
  let copy := if s.usesOther f.epoch 3 then 1 else 0
  if s.pgInService copy p = [] then none
  else some (pgMember (s.cd3 copy) p ((s.pgCurrent copy p).getD (s.pgBucket f h p src dst) 0))

/-- A group with no member in service drops a frame (R217). EV_FX_PG_EMPTY is raised at the first frame so dropped: DESIGN
CHOICE (log 107). -/
def pgNone (s : State) (p : Nat) : State :=
  let t := (s.bump (F.FX_PG_NOMEMBER_COUNT p)).bump F.FX_PG_DROP_TOTAL_COUNT
  if t.fx.pgEmpty.testBit p then t
  else (({ t with fx.pgEmpty := setBit t.fx.pgEmpty p }).setRg F.FX_EV_LAST_PG p).raise 100

/-! ### Routing -/

/-- Four consecutive words as an address, the first most significant; an IPv4 address is the first word (R211). -/
def addrWords (v6 : Bool) (w : Nat → Nat) : Nat :=
  if v6 then ((w 0 * 2 ^ 32 + w 1) * 2 ^ 32 + w 2) * 2 ^ 32 + w 3 else w 0

/-- The table entries of a copy that a configuration lists: entries with a word other than its reset value. -/
def listed (rf : RegFile) (base stride count : Nat) : List Nat :=
  ((rf.filter (fun e => decide (base ≤ e.1 ∧ e.1 < base + stride * count))).map (fun e => (e.1 - base) / stride)).eraseDups

/-- Host lookup: the next hop of the highest matching index (R210). -/
def hostLookup (s : State) (ep : Nat) (v6 : Bool) (dst : Nat) : Option Nat :=
  let rf := s.copyOf ep 3
  ((listed rf 0x3200000 32 16384).filter (fun i =>
    decide (rfGet rf (F.FX_HOST_W4_VALID i) = 1) && s.entryOk 0x33 i &&
      decide (rfGet rf (F.FX_HOST_W4_V6 i) = if v6 then 1 else 0) &&
      decide (addrWords v6 (fun j => rfGet rf (F.FX_HOST_A_ADDR i j)) = dst))).getLast?.map
    (fun i => rfGet rf (F.FX_HOST_W4_NH i))

/-- Unit i of the prefix table starts an IPv6 prefix (R210). -/
def v6Unit (rf : RegFile) (i : Nat) : Bool :=
  decide (i % 4 = 0) && decide (rfGet rf (F.FX_PREFIX_W1_V6 i) = 1) && decide (rfGet rf (F.FX_PREFIX_W1_VALID i) = 1)

/-- Prefix lookup: the longest match, ties to the higher unit (R210). -/
def prefixLookup (s : State) (ep : Nat) (v6 : Bool) (dst : Nat) : Option Nat :=
  let rf := s.copyOf ep 3
  let w := if v6 then 128 else 32
  let cand := (listed rf 0x3280000 8 8192).filterMap (fun i =>
    let len0 := rfGet rf (F.FX_PREFIX_W1_LEN i)
    let len := orElse (decide (len0 ≤ w)) len0 0
    let ok := (if v6 then v6Unit rf i && (List.range 4).all (fun j => s.entryOk 0x34 (i + j)) else s.entryOk 0x34 i) &&
      (if v6 then true
      else decide (rfGet rf (F.FX_PREFIX_W1_VALID i) = 1) && decide (rfGet rf (F.FX_PREFIX_W1_V6 i) = 0) &&
        !(decide (i % 4 ≠ 0) && v6Unit rf (i - i % 4)))
    if ok && prefixEq w len (addrWords v6 (fun j => rfGet rf (F.FX_PREFIX_W0_ADDR (i + j)))) dst
    then some (len, i) else none)
  (longest cand).map (fun e => rfGet rf (F.FX_PREFIX_W1_NH e.2))

/-- 1:1 translation of an address under the entries of a kind and a VID (R212). -/
def translate (s : State) (ep : Nat) (v6 : Bool) (kind vid addr : Nat) : Option Nat :=
  let rf := s.copyOf ep 3
  let w := if v6 then 128 else 32
  let cand := (listed rf 0x32A0000 64 2048).filterMap (fun i =>
    let len := rfGet rf (F.FX_XLAT_W8_LEN i)
    if decide (rfGet rf (F.FX_XLAT_W8_VALID i) = 1) && s.entryOk 0x36 i &&
        decide (rfGet rf (F.FX_XLAT_W8_KIND i) = kind) && decide (rfGet rf (F.FX_XLAT_W9_VID i) = vid) &&
        decide (rfGet rf (F.FX_XLAT_W8_V6 i) = if v6 then 1 else 0) && decide (1 ≤ len ∧ len ≤ w) &&
        prefixEq w len (addrWords v6 (fun j => rfGet rf (F.FX_XLAT_ORIG_ORIG i j))) addr
    then some (len, i) else none)
  (longest cand).map (fun e =>
    xlate w e.1 addr (addrWords v6 (fun j => rfGet rf (F.FX_XLAT_NEW_XLAT e.2 j))))

/-! ### Streams and the ACL -/

/-- Stream identification: the lowest matching entry (R219). -/
def streamOf (s : State) (f : Frame) (h : Hdr) (dst : Nat) : Option Nat :=
  let rf := s.copyOf f.epoch 4
  (listed rf 0x3300000 32 1024).find? (fun i =>
    let a := fun j => rfGet rf (F.FX_STREAM_ID_A_ADDR i j)
    let mac := a 0 + 2 ^ 32 * (a 1 % 65536)
    let v6 := decide (rfGet rf (F.FX_STREAM_ID_W6_V6 i) = 1)
    decide (rfGet rf (F.FX_STREAM_ID_W0_VALID i) = 1) && s.entryOk 0x38 i &&
    decide (rfGet rf (F.FX_STREAM_ID_W7_VID i) = f.vid) &&
    match rfGet rf (F.FX_STREAM_ID_W0_METHOD i) with
    | 1 => h.dmac == mac
    | 2 => h.smac == mac
    | 3 => (if v6 then h.v6 else h.v4) && decide (addrWords v6 a = dst) &&
        (decide (rfGet rf (F.FX_STREAM_ID_W6_DSCP_ANY i) = 1) || decide (rfGet rf (F.FX_STREAM_ID_W5_DSCP i) = h.dscp)) &&
        (decide (rfGet rf (F.FX_STREAM_ID_W6_PROTO_ANY i) = 1) ||
          decide (rfGet rf (F.FX_STREAM_ID_W5_PROTO i) = h.proto)) &&
        (decide (rfGet rf (F.FX_STREAM_ID_W6_PORT_ANY i) = 1) ||
          match h.l4 with
          | some o => decide (rfGet rf (F.FX_STREAM_ID_W5_DPORT i) = beAt f.bytes (o + 2) 2)
          | none => false)
    | _ => false)

/-- The ACL key of a frame, word by word (R236). -/
def aclKey (f : Frame) (h : Hdr) (routed : Bool) (stream : Option Nat) : List Nat :=
  let b := fun (x : Bool) => if x then 1 else 0
  let w0 := f.port + f.vid * 2 ^ 6 + (if f.tagged then f.pcp else 0) * 2 ^ 18 + b f.tagged * 2 ^ 20 * 2 +
    b h.v6 * 2 ^ 22 + b h.later * 2 ^ 23 + b routed * 2 ^ 24 + b h.v4 * 2 ^ 25
  let sport := match h.l4 with | some o => beAt f.bytes o 2 | none => 0
  let dport := match h.l4 with | some o => beAt f.bytes (o + 2) 2 | none => 0
  if h.v6 then
    [w0, h.proto + h.dscp * 2 ^ 8 + dport * 2 ^ 14, h.src / 2 ^ 96, h.src / 2 ^ 64 % 2 ^ 32, h.src / 2 ^ 32 % 2 ^ 32,
      h.src % 2 ^ 32, h.dst / 2 ^ 96, h.dst / 2 ^ 64 % 2 ^ 32, h.dst / 2 ^ 32 % 2 ^ 32, h.dst % 2 ^ 32]
  else
    let flags := match h.l4 with
      | some o => if h.proto = 6 then beAt f.bytes (o + 13) 1 else 0
      | none => 0
    [w0, h.etype + h.dmac / 2 ^ 32 * 2 ^ 16, h.dmac % 2 ^ 32, h.smac / 2 ^ 16,
      h.smac % 2 ^ 16 + h.dscp * 2 ^ 16 + h.proto * 2 ^ 22, h.src, h.dst, sport + dport * 2 ^ 16,
      flags + (match stream with | some x => x * 2 ^ 8 + 2 ^ 18 | none => 0), 0]

/-- ACL entry i matches a key: masked bits agree, and KIND always (R236). -/
def aclHit (rf : RegFile) (i : Nat) (key : List Nat) : Bool :=
  (key.zipIdx).all (fun e =>
    let m := rfGet rf (F.FX_ACL_MASK_MASK i e.2)
    let m' := if e.2 = 0 then Nat.lor m (2 ^ 22) else m
    decide (Nat.land (Nat.xor e.1 (rfGet rf (F.FX_ACL_KEY_KEY i e.2))) m' = 0))

/-- The lowest matching VALID ACL entry (R232). -/
def aclLookup (s : State) (ep : Nat) (key : List Nat) : Option Nat :=
  let rf := s.copyOf ep 4
  (listed rf 0x3400000 128 4096).find? (fun i =>
    decide (rfGet rf (F.FX_ACL_W21_VALID i) = 1) && s.entryOk 0x3A i && aclHit rf i key)

/-! ### Policers and stream filters -/

/-- Units of 2^-16 byte gained in ns at a rate in units of 32 kb/s (R238). -/
def rateGain (rate ns : Nat) : Nat := 262144 * (rate * ns) / 1000000

/-- The buckets of policer i at a time, filled by the settings `c`; full if nothing was charged yet (R238, R241). -/
def bucketsAt (s : State) (c : Fld → Nat) (i t : Nat) : Buckets :=
  let unit := 64 * 65536
  let cap1 := c (F.FX_POLICER_W2_CBS i) * unit
  let cap2 := c (F.FX_POLICER_W2_CBS2 i) * unit
  let cir := c (F.FX_POLICER_W0_CIR i)
  let pir := c (F.FX_POLICER_W1_PEIR i)
  match Sparse.get (fun _ => none) s.fx.buckets i with
  | none => ⟨cap1, cap2, t⟩
  | some x =>
    let dt := t - x.at_
    ⟨min cap1 (x.tc + rateGain cir dt), min cap2 (x.tp + rateGain (if c (F.FX_POLICER_W0_MODE i) = 0 then max pir cir else pir) dt),
      max t x.at_⟩

/-- A policer colours a frame of L bytes received at a time of SX's clock: 0 green, 1 yellow, 2 red (R238, R239). A
policer that is not VALID passes green (R240). -/
def police (s : State) (ep i len t : Nat) (preYellow : Bool) : State × Nat :=
  let c := fun f => s.cfg ep f
  if c (F.FX_POLICER_W0_VALID i) = 0 ∨ !s.entryOk 0x3B i then (s, 0)
  else
    let mode := c (F.FX_POLICER_W0_MODE i)
    let now := s.bucketsAt c i t
    let tc := now.tc
    let tp := now.tp
    let b := 65536 * (len + (if c (F.FX_POLICER_W0_OVERHEAD i) = 1 then 20 else 0))
    let yellow := c (F.FX_POLICER_W0_COLOR_AWARE i) = 1 ∧ preYellow
    let (col, tc', tp') :=
      if mode = 0 then
        if tp < b then (2, tc, tp)
        else if yellow ∨ tc < b then (1, tc, tp - b)
        else (0, tc - b, tp - b)
      else
        if ¬ yellow ∧ tc ≥ b then (0, tc - b, tp)
        else if tp ≥ b then (1, tc, tp - b)
        else (2, tc, tp)
    let u := { s with fx.buckets := Sparse.set (fun _ => none) s.fx.buckets i (some ⟨tc', tp', now.at_⟩) }
    let v := if col = 0 then u.bump (F.FX_POL_GREEN_COUNT i)
      else if col = 1 then u.bump (F.FX_POL_YELLOW_COUNT i)
      else
        let r := (u.bump (F.FX_POL_RED_COUNT i)).pmu 0x24 i
        if c (F.FX_POLICER_W0_RED_EV i) = 1 then (r.setRg F.FX_EV_LAST2_POLICER i).raise 112 else r
    (v, col)

/-- The entry of a list in force at a time, by the cycle rules of R248; none before the first cycle starts. -/
def listEntry (base cycle : Nat) (intervals : List Nat) (t : Int) : Option Nat :=
  if t < base then none
  else
    let pos := (t - base).toNat % max 1 cycle
    let (k, _) := intervals.foldl (fun (a : Nat × Nat) d => if a.2 + d ≤ pos then (a.1 + 1, a.2 + d) else (a.1, pos + 1))
      (0, 0)
    some (min k (intervals.length - 1))

/-- Stream gate g at a time of its instance: entry, open, IPV (R242, R243). -/
def gateAt (s : State) (ep g : Nat) (t : Int) : Nat × Bool × Option Nat :=
  let c := fun f => s.cfg ep f
  if c (F.FX_SGATE_W2_VALID g) = 0 ∨ !s.entryOk 0x3D g then (0, true, none)
  else
    let n := min (c (F.FX_SGATE_W2_LIST_LEN g) + 1) 16
    let ns := c (F.FX_SGATE_W0_BASE_NS g)
    let base := giga * (c (F.FX_SGATE_W1_BASE_SEC_LO g) + 2 ^ 32 * c (F.FX_SGATE_W2_BASE_SEC_HI g)) +
      orElse (decide (ns < giga)) ns 0
    let cy := c (F.FX_SGATE_W3_CYCLE g)
    let ints := (List.range n).map (fun e =>
      if s.entryOk 0x3E (16 * g + e) then max 1 (c (F.FX_SGCL_INTERVAL (16 * g + e))) else 1)
    match listEntry base (orElse (decide (1000 ≤ cy ∧ cy ≤ giga)) cy 1000000) ints t with
    | none => (0, true, none)
    | some e =>
      let i := 16 * g + e
      if !s.entryOk 0x3E i then (e, true, none)
      else (e, decide (c (F.FX_SGCL_OPEN i) = 1),
        if c (F.FX_SGCL_IPV_EN i) = 1 then some (c (F.FX_SGCL_IPV i)) else none)

/-- FX_SGATE_STAT_g shows the position of stream gate g at the present time of its instance, and whether it is open
(R243, R258): a latched gate stays closed. -/
def sgateShow (s : State) (g : Nat) : State :=
  let (e, opn, _) := s.gateAt (s.epoch % 256) g (s.tiNs (s.act (F.FX_SGATE_W2_TI_SEL g)))
  (s.setRg (F.FX_SGATE_STAT_ENTRY g) e).setRg (F.FX_SGATE_STAT_OPEN g)
    (if opn && decide (s.rg (F.FX_SGATE_STAT_INVALID_CLOSED g) = 0) then 1 else 0)

/-- The outcome of a stage: pass with a frame, or drop. -/
abbrev Decided := State × Frame

/-- A frame's VERDICT becomes DROP (R23). -/
def dropped (f : Frame) : Frame := { f with verdict := .drop }

/-- The SDU check of stream filter i (R242). -/
def filterSdu (s : State) (i : Nat) (f : Frame) : Decided :=
  let m := s.cfg f.epoch (F.FX_SFILTER_W0_MAX_SDU i)
  if s.rg (F.FX_SF_STAT_SDU_BLOCKED i) = 1 then (s.bump (F.FX_SF_SDU_DROP_COUNT i), dropped f)
  else if m ≠ 0 ∧ f.total > m then
    let t := s.bump (F.FX_SF_SDU_DROP_COUNT i)
    if s.cfg f.epoch (F.FX_SFILTER_W0_SDU_BLOCK_EN i) = 1 then
      (((t.setRg (F.FX_SF_STAT_SDU_BLOCKED i) 1).setRg F.FX_EV_LAST2_FILTER i).raise 113, dropped f)
    else (t, dropped f)
  else (s, f)

/-- The gate of stream filter i (R242, R243). -/
def filterGate (s : State) (i : Nat) (f : Frame) : Decided :=
  if s.cfg f.epoch (F.FX_SFILTER_W0_GATE_EN i) = 0 then (s, f)
  else
    let g := s.cfg f.epoch (F.FX_SFILTER_W0_GATE i)
    let t := s.convertStamp f.ti (nearStamp (s.tiNs f.ti) f.stamp) (s.cfg f.epoch (F.FX_SGATE_W2_TI_SEL g))
    let (_, opn, ipv) := s.gateAt f.epoch g t
    if s.rg (F.FX_SGATE_STAT_INVALID_CLOSED g) = 1 then (s.bump (F.FX_SF_GATE_DROP_COUNT i), dropped f)
    else if opn then (s, match ipv with | some v => { f with tc := v } | none => f)
    else
      let u := s.bump (F.FX_SF_GATE_DROP_COUNT i)
      if s.cfg f.epoch (F.FX_SGATE_W2_INVALID_RX_EN g) = 1 then
        (((((u.setRg (F.FX_SGATE_STAT_INVALID_CLOSED g) 1).sgateShow g).setRg F.FX_EV_LAST2_GATE g).setRg
          F.FX_EV_LAST2_FILTER i).raise 114, dropped f)
      else (u, dropped f)

/-- The meter of stream filter i; `acl` is a policer already charged, with its colour (R242). -/
def filterMeter (s : State) (i : Nat) (f : Frame) (acl : Option (Nat × Nat)) : Decided :=
  if s.cfg f.epoch (F.FX_SFILTER_W0_METER_EN i) = 0 then (s, f)
  else
    let m := s.cfg f.epoch (F.FX_SFILTER_W1_METER i)
    let (t, col0) := match acl with
      | some (p, c) => if p = m then (s, c) else s.police f.epoch m f.total f.born (f.tagged && f.dei)
      | none => s.police f.epoch m f.total f.born (f.tagged && f.dei)
    let col := if t.rg (F.FX_SF_STAT_MARK_RED i) = 1 then 2 else col0
    let f' := { f with colour := col }
    if col = 2 then
      let u := t.bump (F.FX_SF_RED_DROP_COUNT i)
      if s.cfg f.epoch (F.FX_SFILTER_W1_MARK_RED_EN i) = 1 ∧ t.rg (F.FX_SF_STAT_MARK_RED i) = 0 then
        (((u.setRg (F.FX_SF_STAT_MARK_RED i) 1).setRg F.FX_EV_LAST2_FILTER i).raise 115, dropped f')
      else (u, dropped f')
    else if col = 1 ∧ s.cfg f.epoch (F.FX_SFILTER_W1_DROP_YELLOW i) = 1 then (t, dropped f')
    else (t, f')

/-- Stream filter i: SDU check, gate, meter; a dropped frame skips every later point (R232, R242). -/
def streamFilter (s : State) (i : Nat) (f : Frame) (acl : Option (Nat × Nat)) : Decided :=
  let (s1, f1) := (s.bump (F.FX_SF_MATCHED_COUNT i)).filterSdu i f
  if f1.verdict = .drop then (s1.pmu 0x25 i, f1)
  else
    let (s2, f2) := s1.filterGate i f1
    if f2.verdict = .drop then (s2.pmu 0x25 i, f2)
    else
      let (s3, f3) := s2.filterMeter i f2 acl
      if f3.verdict = .drop then (s3.pmu 0x25 i, f3)
      else (s3.bump (F.FX_SF_PASSED_COUNT i), f3)

/-! ### Sequence recovery and generation -/

/-- The signed distance of two 16-bit sequence numbers. -/
def seqDelta (a b : Nat) : Int :=
  let d := (65536 + a - b) % 65536
  if d < 32768 then d else (d : Int) - 65536

/-- Put stream h's recovery state. -/
def setRecovery (s : State) (h : Nat) (r : Recovery) : State :=
  { s with fx.recovery := Sparse.set (fun _ => none) s.fx.recovery h (some r) }

/-- Sequence recovery of stream h for a frame with sequence number q (R221). -/
def recover (s : State) (h q : Nat) (f : Frame) : Decided :=
  let hist := s.cfg f.epoch (F.FX_FRER_W0_HISTORY h) + 1
  let pass := fun (t : State) => t.bump (F.FX_STREAM_PASSED_COUNT h)
  let rej := fun (t : State) (c : Nat → Fld) => ((t.bump (c h)).pmu 0x26 h, dropped f)
  match Sparse.get (fun _ => none) s.fx.recovery h with
  | some ⟨some last, seen⟩ =>
    let d := seqDelta q last
    if s.cfg f.epoch (F.FX_FRER_W0_ALG h) = 1 then
      if d = 0 then rej s F.FX_STREAM_DISCARDED_COUNT
      else
        let t := (s.setRecovery h ⟨some q, []⟩).bump (F.FX_STREAM_LOST_COUNT h) (d.toNat - 1)
        (pass (if d < 0 then t.bump (F.FX_STREAM_OUT_OF_ORDER_COUNT h) else t), f)
    else if d ≥ hist ∨ d ≤ -(hist : Int) then rej s F.FX_STREAM_ROGUE_COUNT
    else if d > 0 then
      let seen' := (true :: (List.replicate (d.toNat - 1) false ++ seen)).take hist
      (pass ((s.setRecovery h ⟨some q, seen'⟩).bump (F.FX_STREAM_LOST_COUNT h) (d.toNat - 1)), f)
    else if seen.getD d.natAbs false then rej s F.FX_STREAM_DISCARDED_COUNT
    else (pass ((s.setRecovery h ⟨some last, seen.set d.natAbs true⟩).bump (F.FX_STREAM_OUT_OF_ORDER_COUNT h)), f)
  | _ => (pass (s.setRecovery h ⟨some q, true :: List.replicate (hist - 1) false⟩), f)

/-- Recovery and generation of R220 and R221 for a frame with handle h. -/
def frer (s : State) (h : Nat) (f : Frame) (rtag : Option Nat) : Decided :=
  let (s1, f1) :=
    if s.frerOk h ∧ s.cfg f.epoch (F.FX_FRER_W0_RCVY_EN h) = 1 then
      match rtag with
      | some q => s.recover h q f
      | none =>
        let t := s.bump (F.FX_STREAM_TAGLESS_COUNT h)
        if s.cfg f.epoch (F.FX_FRER_W0_TAKE_NO_SEQ h) = 1 then (t, f) else (t.pmu 0x26 h, dropped f)
    else (s, f)
  let strip := maskOf (s.cfg f.epoch (F.FX_FRER_W2_STRIP_LO h)) (s.cfg f.epoch (F.FX_FRER_W3_STRIP_HI h))
  let f2 := { f1 with strip := if s.frerOk h then strip else 0 }
  if f1.verdict ≠ .drop ∧ s.frerOk h ∧ s.cfg f.epoch (F.FX_FRER_W0_GEN h) = 1 then
    let n := Sparse.get (fun _ => 0) s1.fx.seqNext h
    ({ s1 with fx.seqNext := Sparse.set (fun _ => 0) s1.fx.seqNext h ((n + 1) % 65536) }, { f2 with seqNo := some n })
  else (s1, f2)

end State

end Sys2Proof.Machine
end

