-- ==== Sys2Proof/Machine/PqOps.lean ====
section
/-!
DEFINITION. The packing queues as operations (11_bus_gateway.md, R326 to R332).
-/

namespace Sys2Proof.Machine

/-- Words of 32 bytes that a packet takes (R327). -/
def pqWords (n : Nat) : Nat := (n + 31) / 32

/-- The words of a packet (R327): byte n lies in word n / 32, and the last word is filled up with 0x00. -/
def packWords (bs : List Byte) : List PqWord :=
  let n := pqWords bs.length
  (List.range n).map (fun i =>
    { valid := true, first := decide (i = 0), last := decide (i + 1 = n)
      nbytes := if i + 1 = n then bs.length - 32 * i else 32
      data := slice0 bs (32 * i) 32 })

/-- A packet of these bytes. -/
def packetOf (bs : List Byte) (sealed : Option SealMsg) (tables : RegFile) (seals : List (Nat × List Byte)) : Packet :=
  ⟨packWords bs, sealed, tables, seals⟩

/-- The bytes of a packet: the valid ones of its words. -/
def Packet.bytes (p : Packet) : List Byte := p.words.flatMap (fun w => w.data.take w.nbytes)

/-- The reader met an uncorrectable word in a packet: `errs` names the words in error, true for uncorrectable. -/
def pqBad (errs : List (Nat × Bool)) : Bool := errs.any (·.2)

/-- A packing queue that has held nothing since reset. -/
def freshPq : Pq := ⟨[], none, [], 0⟩

namespace State

/-- Packing queue q. -/
def pqOf (s : State) (q : Nat) : Pq := Sparse.get (fun _ => freshPq) s.bx.pq q

/-- Words that a packing queue holds. -/
def pqUsed (s : State) (q : Nat) : Nat :=
  let x := s.pqOf q
  ((x.ready.map (fun p => p.words.length)).sum) + (match x.writing with | some p => p.words.length | none => 0)

/-- Put a packing queue; BX_PQ_STAT shows it (R346). -/
def setPq (s : State) (q : Nat) (x : Pq) : State :=
  let t := { s with bx.pq := Sparse.set (fun _ => freshPq) s.bx.pq q x }
  ((t.setRg (F.BX_PQ_STAT_USED q) (t.pqUsed q)).setRg (F.BX_PQ_STAT_PKTS q) (min 255 x.ready.length)).setRg
    (F.BX_PQ_STAT_OPEN q) (if x.writing.isSome then 1 else 0)

/-- Queue q is enabled in this direction: 0 UP, 1 DOWN (R326). -/
def pqIs (s : State) (q dir : Nat) : Bool :=
  decide (s.act (F.BX_PQ_CFG_EN q) = 1) && decide (s.act (F.BX_PQ_CFG_DIR q) = dir)

/-- The DOWN queue of a traffic class by the map of these tables (R326). -/
def downBy (s : State) (rf : RegFile) (tc : Nat) : Option Nat :=
  let q := rfGet rf F.BX_GW_DOWNMAP_MAP / 16 ^ tc % 16
  if s.pqIs q 1 then some q else (List.range 16).find? (fun k => s.pqIs k 1)

/-- The DOWN queue of a traffic class (R326). -/
def downQueue (s : State) (tc : Nat) : Option Nat := s.downBy (s.activeOf 9) tc

/-- P38 takes a frame that becomes a packet of n words: its DOWN queue has free words for the whole packet, or the packet
can never fit and is dropped as it is handed over (R329). -/
def p38Room (s : State) (tc n : Nat) : Bool :=
  match s.downQueue tc with
  | none => false
  | some q =>
    decide (n > 256) || ((s.pqOf q).writing.isNone && decide (s.pqUsed q + n ≤ 256))

/-- A gateway event with its queue (R346). -/
def pqEvent (s : State) (ev q : Nat) : State := (s.setRg F.BX_GW_EV_LAST_PQ q).raise ev

/-- The gateway engine writes a closed UP packet, or rewinds it: too big, or no room (R328, R345). -/
def pqStart (s : State) (q : Nat) (p : Packet) : State :=
  let n := p.words.length
  if n > 256 then (s.bump (F.BX_PQ_DROP_BIG_COUNT q)).bump (F.BX_PQ_REWOUND_COUNT q)
  else if s.pqUsed q + n > 256 then
    ((s.bump (F.BX_PQ_DROP_FULL_COUNT q)).bump (F.BX_PQ_REWOUND_COUNT q)).pqEvent 160 q
  else s.setPq q { s.pqOf q with writing := some p }

/-- The waiting UP packets of a queue whose writer is free. -/
def pqNext (s : State) (q : Nat) : List Packet → State
  | [] => s.setPq q { s.pqOf q with waiting := [] }
  | p :: rest =>
    let t := (s.setPq q { s.pqOf q with waiting := rest }).pqStart q p
    if (t.pqOf q).writing.isSome then t else t.pqNext q rest

/-- A closed UP frame goes to its template's queue (R338, R345). -/
def pqOffer (s : State) (q : Nat) (p : Packet) : State :=
  if !s.pqIs q 0 then s.bump (F.BX_PQ_DROP_FULL_COUNT q)
  else
    let x := s.pqOf q
    if x.writing.isSome then s.setPq q { x with waiting := x.waiting ++ [p] } else s.pqStart q p

/-- The reader met a corrected, or an uncorrectable, word at place w of the queue (R332, R509). -/
def pqEcc (s : State) (q w : Nat) (ue : Bool) : State :=
  if ue then ((s.bump (F.BX_PQ_UE_COUNT q)).pqEvent 161 q).fault 0x0D q w
  else (s.bump (F.BX_PQ_CE_COUNT q)).fault 0x0C q w

/-- The reader reads packet p, the oldest, to its last word; `errs` names words of it in error (R332). -/
def pqTake (s : State) (q : Nat) (p : Packet) (rest : List Packet) (errs : List (Nat × Bool)) : State :=
  let x := s.pqOf q
  let n := p.words.length
  let t := s.setPq q { x with ready := rest, rd := (x.rd + n) % 256 }
  (t.forEach (errs.filter (fun e => decide (e.1 < n))) (fun t e => t.pqEcc q ((x.rd + e.1) % 256) e.2)).csuSee 3 q p.bytes

/-- A queue reset (R331): every word is discarded, and a packet that P38 egress was writing is lost with its frame. The
closed UP frames that no write has begun are written next, or discarded where the queue is UP no longer (R345). -/
def pqReset (s : State) (q : Nat) : State :=
  let x := s.pqOf q
  let n := x.ready.length + (if x.writing.isSome then 1 else 0)
  let t := (s.setPq q { freshPq with waiting := x.waiting }).bump (F.BX_PQ_REWOUND_COUNT q) n
  let u := match t.txOf 38 with
    | some tx => if tx.into = some q then (t.setTx 38 none).dropCopy tx.copy 10 else t
    | none => t
  if u.pqIs q 0 then u.pqNext q x.waiting
  else (u.setPq q freshPq).bump (F.BX_PQ_DROP_FULL_COUNT q) x.waiting.length

/-- P38 gives up the frame that it was handed: what it has written of the packet is rewound (R137, R328). -/
def p38Rewind (s : State) (t : TxNow) : State :=
  match t.into with
  | some q => (s.setPq q { s.pqOf q with writing := none }).bump (F.BX_PQ_REWOUND_COUNT q)
  | none => s

/-- A Stitch of CD09 has committed: a queue whose BX_PQ_CFG changes is emptied (R331). -/
def pqCommit (s : State) (old : RegFile) : State :=
  s.forEach (List.range 16) (fun t q =>
    if Sparse.get resetWord old (R.BX_PQ_CFG q) = Sparse.get resetWord (t.activeOf 9) (R.BX_PQ_CFG q) then t
    else t.pqReset q)

end State

end Sys2Proof.Machine
end

