-- ==== Sys2Proof/Machine/PortOps.lean ====
section
/-!
DEFINITION. The ports as operations (05_ports.md, R18, R19): when a port may be up, going up and down, pauses and
quarantine.
-/

namespace Sys2Proof.Machine

/-- Rate codes of a lane mode, the highest first (R128). -/
def laneRates : Nat → List Nat
  | 0 => [6]
  | 1 => [5]
  | 2 => [5, 4, 3, 2, 1, 0]
  | 3 => [3]
  | _ => [2, 1, 0]

/-- The port is a T1S port (R18). -/
def isT1s (p : Nat) : Bool := decide (24 ≤ p ∧ p < 36)

/-- NODE_ID of a T1S port; 255 acts as 0 (R154). -/
def nodeId (s : State) (p : Nat) : Nat := s.act (F.PX_PLCA_CFG_NODE_ID p) % 255

/-- The port has flow control (R141). -/
def hasFc (p : Nat) : Bool := decide (p < 24 ∨ p = 40)

namespace State

/-- LANE_MODE with its reserved rule and the rule for P8 to P23 (R129, R151). -/
def laneMode (s : State) (p : Nat) : Nat :=
  let dflt := if p < 8 then 0 else 1
  let m := orElse (decide (s.act (F.PX_PORT_CFG_LANE_MODE p) < 5)) (s.act (F.PX_PORT_CFG_LANE_MODE p)) dflt
  if p ≥ 8 ∧ m = 0 then 1 else m

/-- The port runs control-word auto-negotiation (R129). -/
def anMode (s : State) (p : Nat) : Bool :=
  decide (s.act (F.PX_PORT_CFG_AN_EN p) = 1) && (s.laneMode p == 2 || s.laneMode p == 4)

/-- The rate at which a SerDes port comes up (R129): none while auto-negotiation is not complete. -/
def laneRate (s : State) (p : Nat) : Option Nat :=
  let rates := laneRates (s.laneMode p)
  if s.anMode p then Sparse.get (fun _ => none) s.px.anRate p
  else
    let v := s.act (F.PX_PORT_CFG_SPEED p)
    if rates.contains v then some v else rates.head?

/-- The configuration has been loaded since the start (R61). -/
def booted (s : State) : Bool := s.socUp && decide (s.rg F.SV_CFG_STATUS_DONE = 1)

/-- At least one DOWN packing queue is enabled (R326). -/
def downPq (s : State) : Bool :=
  (List.range 16).any (fun q => decide (s.act (F.BX_PQ_CFG_EN q) = 1) && decide (s.act (F.BX_PQ_CFG_DIR q) = 1))

/-- The SerDes lanes work (R72, R79, R86): calibrated, and the mode is not PARTIAL, unless a start or a transition leads
to a RUN mode. -/
def serdesOn (s : State) : Bool :=
  s.pw.start.calibrated && (decide (s.rg F.SV_MODE_MODE ≠ 2) || (decide (s.rg F.SV_MODE_RAMPING = 1) &&
    (decide (s.rg F.SV_MODE_MOVING = 1) || decide (s.act F.SV_MODE_CFG_TARGET = 0))))

/-- RUN-to-PARTIAL has taken the host ports down (R87). -/
def hostOff (s : State) : Bool := match s.pw.moving with | .toPartial k => decide (1 ≤ k) | _ => false

/-- The port may be up, its link partner apart (R18, R19, R72, R130, R149). -/
def portAllowed (s : State) (p : Nat) : Bool :=
  s.booted && decide (s.rg (F.PX_PORT_STAT_MEND p) = 0) &&
    (if p < 24 then s.serdesOn && decide (s.act (F.PX_PORT_CFG_ADMIN p) = 1)
    else if p < 36 then decide (s.act (F.PX_PORT_CFG_ADMIN p) = 1) && decide (s.rg (F.PX_PORT_STAT_QUAR p) = 0)
    else if p < 38 then !s.pw.cxReset && !s.hostOff && decide (s.act (F.CX_HP_CFG_EN (p - 36)) = 1)
    else if p = 38 then decide (s.act F.BX_GW_CFG_EN = 1) && s.downPq
    else if p = 39 then true
    else decide (s.act (F.PX_PORT_CFG_ADMIN 40) = 1) && (decide (s.act F.PX_RGMII_CFG_LINK_SRC = 1) || s.px.phyLink))

/-- The rate code of a port that comes up (R129, R149, R156). -/
def upRate (s : State) (p : Nat) : Nat :=
  if p < 24 then (s.laneRate p).getD 7
  else if p < 36 then 0
  else if p < 38 then 6
  else if p = 38 then 5
  else if p = 39 then 2
  else if s.act F.PX_RGMII_CFG_LINK_SRC = 1 then min 2 (s.act F.PX_RGMII_CFG_SPEED)
  else s.px.phyRate

/-- Event 32 + e occurs on a port (R158). -/
def portEvent (s : State) (e p : Nat) : State :=
  (if p < 32 then s.setRg (F.PX_EVPORT_LO_PORTS e) (setBit (s.rg (F.PX_EVPORT_LO_PORTS e)) p)
  else s.setRg (F.PX_EVPORT_HI_PORTS e) (setBit (s.rg (F.PX_EVPORT_HI_PORTS e)) (p - 32))).raise (32 + e)

/-! ### Pauses -/

/-- The end of a pause target's pause; 0 with none. -/
def pauseEndOf (s : State) (p t : Nat) : Nat := Sparse.get (fun _ => 0) s.px.pauseEnd (9 * p + t)

/-- PAUSED or PFC_PAUSED of a target (R156). -/
def setPaused (s : State) (p t : Nat) (on : Bool) : State :=
  if t = 8 then s.setRg (F.PX_PORT_STAT_PAUSED p) (if on then 1 else 0)
  else
    let m := s.rg (F.PX_PORT_STAT_PFC_PAUSED p)
    s.setRg (F.PX_PORT_STAT_PFC_PAUSED p) (if on then setBit m t else clrBit m t)

/-- A target is paused. -/
def isPaused (s : State) (p t : Nat) : Bool :=
  if t = 8 then decide (s.rg (F.PX_PORT_STAT_PAUSED p) = 1) else (s.rg (F.PX_PORT_STAT_PFC_PAUSED p)).testBit t

/-- A pause of a target ends (R142). -/
def endPause (s : State) (p t : Nat) : State :=
  let u := s.setPaused p t false
  { u with
    px.pauseEnd := Sparse.set (fun _ => 0) u.px.pauseEnd (9 * p + t) 0
    px.pauseFrom := Sparse.set (fun _ => none) u.px.pauseFrom (9 * p + t) none }

/-- Every pause of a port ends. -/
def endPauses (s : State) (p : Nat) : State := s.forEach (List.range 9) (fun t k => t.endPause p k)

/-- A pause of q × 512 bit times starts or is replaced (R142). -/
def startPause (s : State) (p t q : Nat) : State :=
  if q = 0 then s.endPause p t
  else
    let u := s.setPaused p t true
    let from_ := if s.isPaused p t then Sparse.get (fun _ => none) s.px.pauseFrom (9 * p + t) else some s.now
    { u with
      px.pauseEnd := Sparse.set (fun _ => 0) u.px.pauseEnd (9 * p + t)
        (s.now + (q * 512 * bitPs (s.portRate p) + 999) / 1000)
      px.pauseFrom := Sparse.set (fun _ => none) u.px.pauseFrom (9 * p + t) from_ }

/-- FC_MODE and PFC_EN of a port: the target is one that flow control acts on (R141). -/
def fcActs (s : State) (p t : Nat) : Bool :=
  hasFc p &&
    (if t = 8 then decide (s.act (F.PX_FC_CFG_FC_MODE p) = 1)
    else decide (s.act (F.PX_FC_CFG_FC_MODE p) = 2) && (s.act (F.PX_FC_CFG_PFC_EN p)).testBit t)

/-- A head frame's target is paused (R140, R142). -/
def headHeld (s : State) (c : Copy) : Bool :=
  hasFc c.port && (s.isPaused c.port 8 || s.isPaused c.port c.tc)

/-! ### The PLCA cycle (R144) -/

/-- A port that has seen no BEACON. -/
def noPlca : Plca := ⟨255, 0, 0⟩

/-- Where a T1S port stands in the cycle. -/
def plcaOf (s : State) (p : Nat) : Plca := Sparse.get (fun _ => noPlca) s.px.plca p

/-- Put a T1S port's place in the cycle. -/
def setPlca (s : State) (p : Nat) (x : Plca) : State :=
  { s with px.plca := Sparse.set (fun _ => noPlca) s.px.plca p x }

/-- The port transmits under PLCA; otherwise, and after beacon loss, under CSMA/CD (R144, R145). -/
def plcaOn (s : State) (p : Nat) : Bool :=
  isT1s p && s.portUp p && decide (s.act (F.PX_PLCA_CFG_PLCA_EN p) = 1) && decide (s.rg (F.PX_PORT_STAT_PLCA_OK p) = 1)

/-- NODE_COUNT of a coordinator; 0 acts as 8 (R154). -/
def plcaNodes (s : State) (p : Nat) : Nat :=
  let v := s.act (F.PX_PLCA_CFG_NODE_COUNT p)
  orElse (decide (v ≠ 0)) v 8

/-- TO_TIMER in ns at 10 Mb/s; 0 acts as 32 bit times (R154). -/
def plcaTo (s : State) (p : Nat) : Nat :=
  let v := s.act (F.PX_PLCA_CFG_TO_TIMER p)
  100 * orElse (decide (v ≠ 0)) v 32

/-- An opportunity that has passed on an idle line gives way to the next; after the last of a cycle the coordinator
sends a BEACON (R144). PRESUMED (log 91): a BEACON lasts the 20 bit times of IEEE 802.3 Clause 148. -/
def plcaTick (s : State) (p : Nat) : State :=
  let x := s.plcaOf p
  if s.plcaOn p ∧ x.ends ≤ s.now ∧ s.txOf p = none ∧ Sparse.get (fun _ => none) s.sx.rx p = none then
    if nodeId s p = 0 ∧ s.plcaNodes p ≤ x.cur + 1 then (s.setPlca p ⟨0, s.now + 2000 + s.plcaTo p, 0⟩).emit (.beacon p)
    else if x.cur < 255 then s.setPlca p ⟨x.cur + 1, s.now + s.plcaTo p, 0⟩
    else s
  else s

/-- The line of a T1S port is free for a frame (R144, R145): under PLCA in the port's own opportunity, with up to MAX_BC
further frames within BTMR of one another; under CSMA/CD when nothing is received. -/
def lineFree (s : State) (p : Nat) : Bool :=
  let x := s.plcaOf p
  !isT1s p || ((s.rxOf p).isNone && (!s.plcaOn p ||
    (decide (x.cur = nodeId s p) && decide (s.now ≤ x.ends) && decide (x.sent ≤ s.act (F.PX_PLCA_BURST_MAX_BC p)))))

/-- A frame begins in the port's own opportunity. -/
def plcaStart (s : State) (p : Nat) : State :=
  if s.plcaOn p then s.setPlca p { s.plcaOf p with sent := (s.plcaOf p).sent + 1 } else s

/-- A frame has ended: the burst timer runs where a further frame may follow (R144). -/
def plcaEnd (s : State) (p : Nat) : State :=
  let x := s.plcaOf p
  let more := if x.sent ≤ s.act (F.PX_PLCA_BURST_MAX_BC p) then 100 * s.act (F.PX_PLCA_BURST_BTMR p) else 0
  if s.plcaOn p then s.setPlca p { x with ends := s.now + more } else s

/-! ### Going down and up -/

/-- Whole bytes that a MAC has had the time to send since it started a copy. -/
def sentBytes (s : State) (p : Nat) (t : TxNow) : Nat :=
  1000 * (s.now - t.started) / (8 * max 1 (bitPs (s.portRate p)))

/-- Bytes of a copy that its MAC has begun to send: R137 counts the one on the wire. -/
def begunBytes (s : State) (p : Nat) (t : TxNow) : Nat := s.sentBytes p t + 1

/-- A frame that the egress MAC has started when its port goes down is ended (R186); what P38 has written of its packet is
rewound. -/
def stopTx (s : State) (p : Nat) : State :=
  match s.txOf p with
  | none => s
  | some t =>
    let len := match s.frameOf t.copy.frame with | some f => f.len | none => 0
    let u := if hasMac p then
        (s.bump64 (R.PX_TX_FRAMES p)).bump64 (R.PX_TX_BYTES p) (min len (s.sentBytes p t))
      else if p = 38 then s.p38Rewind t else s
    ((u.bump (F.SX_FLUSHED_COUNT p)).setTx p none).dropCopy t.copy 10

/-- Auto-negotiation of a port has to complete again (R129, R130). -/
def dropAn (s : State) (p : Nat) : State := { s with px.anRate := Sparse.set (fun _ => none) s.px.anRate p none }

/-- PX declares a port down (R130, R142, R185, R186, R217). DESIGN CHOICE (log 88): a beacon-loss episode and the collisions
counted so far survive a port that goes down other than by quarantine, where R148 restarts detection. -/
def portDown (s0 : State) (p : Nat) : State :=
  let s := s0.dropAn p
  if s.portUp p then
    let s1 := if s.rxOf p = none then s else s.cutRx p
    let s2 := (s1.stopTx p).endPauses p
    let s3 := ((s2.setRg (F.PX_PORT_STAT_LINK p) 0).setRg (F.PX_PORT_STAT_RATE p) 7).setRg (F.PX_PORT_STAT_HOLDOFF p) 0
    let s4 := ((s3.setRg (F.PX_PORT_STAT_PLCA_OK p) 0).bump (F.PX_LINK_DOWNS_COUNT p)).portEvent 0 p
    let s5 := s4.flushPort p
    ({ s5 with sx.flushing := setBit s5.sx.flushing p }.setPlca p noPlca).pgPortDown p
  else s

/-- A port comes up at a rate (R130, R217). A T1S coordinator runs its PLCA cycle from then on. -/
def portComesUp (s : State) (p rate : Nat) : State :=
  if s.portUp p then s
  else
    let s1 := (s.setRg (F.PX_PORT_STAT_LINK p) 1).setRg (F.PX_PORT_STAT_RATE p) rate
    let coord := isT1s p && decide (s.act (F.PX_PLCA_CFG_PLCA_EN p) = 1) && decide (nodeId s p = 0)
    let s2 := if coord then s1.setRg (F.PX_PORT_STAT_PLCA_OK p) 1 else s1
    (s2.portEvent 0 p).pgPortUp p

/-- A port's conditions are judged again: a port that may no longer be up goes down, and a port without a SerDes
comes up (R19, R130, R149). -/
def portJudge (s : State) (p : Nat) : State :=
  if s.portAllowed p then (if p < 24 then s else s.portComesUp p (s.upRate p)) else s.portDown p

/-- Every enabled CAN controller has integrated and PLCA is active on every T1S port that runs it: first field-bus
forwarding (R79, R82). -/
def fieldBusUp (s : State) : Bool :=
  s.booted &&
    (List.range 16).all (fun c => decide (s.act (F.BX_CAN_CFG_EN c) = 0) || decide (3 ≤ s.rg (F.BX_CAN_STAT_STATE c))) &&
    (span 24 12).all (fun p => decide (s.act (F.PX_PORT_CFG_ADMIN p) = 0) ||
      (s.portUp p && (decide (s.act (F.PX_PLCA_CFG_PLCA_EN p) = 0) || decide (s.rg (F.PX_PORT_STAT_PLCA_OK p) = 1))))

/-- SV_START_FB at the first field-bus forwarding of the start (R93). -/
def noteFb (s : State) : State :=
  if !s.pw.start.fb ∧ s.fieldBusUp then
    let us := min ((s.now - s.pw.start.origin) / 1000) (2 ^ 32 - 1)
    { s with pw.startFb := us, pw.start.fb := true }.wr R.SV_START_FB (Word.ofNat us)
  else s

/-- Every port is judged again. -/
def portsJudge (s : State) : State := s.forEach (List.range 41) portJudge

/-- The Mend bit of a port (R156). -/
def portMend (s : State) (p : Nat) (on : Bool) : State :=
  (s.setRg (F.PX_PORT_STAT_MEND p) (if on then 1 else 0)).portJudge p

/-! ### T1S quarantine -/

/-- The instant at which a port was quarantined. -/
def quarAtOf (s : State) (p : Nat) : Nat := Sparse.get (fun _ => 0) s.px.quarAt p

/-- A quarantine of this very instant is in force: a coincident cause may still precede it (R148). -/
def quarNow (s : State) (p : Nat) : Bool := decide (s.rg (F.PX_PORT_STAT_QUAR p) = 1) && decide (s.quarAtOf p = s.now)

/-- A cause whose QUAR_EN bit is set quarantines the port (R148): 1 beacon loss, 2 node-ID collision, 3 jabber; of causes
that coincide the later one of this order stands. -/
def quarantine (s : State) (p cause : Nat) : State :=
  if !(s.act (F.PX_T1S_GUARD_QUAR_EN p)).testBit (cause - 1) then s
  else if s.rg (F.PX_PORT_STAT_QUAR p) = 0 then
    let t := (s.setRg (F.PX_PORT_STAT_QUAR p) 1).setRg (F.PX_PORT_STAT_QUAR_CAUSE p) cause
    let u := { t with px.quarAt := Sparse.set (fun _ => 0) t.px.quarAt p t.now }
    ((u.bump (F.PX_T1S_QUARANTINES_COUNT p)).portEvent 5 p).portJudge p
  else if s.quarNow p then s.setRg (F.PX_PORT_STAT_QUAR_CAUSE p) (max cause (s.rg (F.PX_PORT_STAT_QUAR_CAUSE p)))
  else s

/-- A quarantine ends; detection restarts from zero. Under a Mend activity it stays in force (R148). -/
def quarantineEnd (s : State) (p : Nat) : State :=
  if s.rg (F.PX_PORT_STAT_QUAR p) = 1 ∧ s.rg (F.PX_PORT_STAT_MEND p) = 0 then
    let t := (s.setRg (F.PX_PORT_STAT_QUAR p) 0).setRg (F.PX_PORT_STAT_QUAR_CAUSE p) 0
    { t with
      px.idcol := Sparse.set (fun _ => []) t.px.idcol p []
      px.bcnLost := clrBit t.px.bcnLost p
      px.jabbering := clrBit t.px.jabbering p }.portJudge p
  else s

/-- A T1S port detects causes: not under a Mend activity (R148), and up, or quarantined at this very instant. -/
def t1sDetects (s : State) (p : Nat) : Bool :=
  (s.portUp p || s.quarNow p) && decide (s.rg (F.PX_PORT_STAT_MEND p) = 0)

/-- It hears what is on the line: after jabber it ignores the line until it is idle (R147). -/
def t1sHears (s : State) (p : Nat) : Bool := s.t1sDetects p && !s.px.jabbering.testBit p

/-- Old T1S collision instants within 1 s (R146). -/
def idcolOf (s : State) (p : Nat) : List Nat :=
  (Sparse.get (fun _ => []) s.px.idcol p).filter (fun t => decide (s.now < giga + t))

/-- A node-ID collision on port p (R146, R148). DESIGN CHOICE (log 88): each further IDCOL_LIM collisions must again fall
within 1 s. -/
def idCollision (s : State) (p : Nat) : State :=
  if s.t1sHears p then
    let lim0 := s.act (F.PX_T1S_GUARD_IDCOL_LIM p)
    let lim := orElse (decide (lim0 ≠ 0)) lim0 3
    let l := s.now :: s.idcolOf p
    let t := s.bump (F.PX_T1S_IDCOL_COUNT p)
    if l.length ≥ lim then
      ({ t with px.idcol := Sparse.set (fun _ => []) t.px.idcol p [] }.portEvent 3 p).quarantine p 2
    else { t with px.idcol := Sparse.set (fun _ => []) t.px.idcol p l }
  else s

end State

end Sys2Proof.Machine
end

