-- ==== Sys2Proof/Machine/Forward.lean ====
section
/-!
DEFINITION. Steps 3 to 5 of a frame's journey (R196 to R244): classification, learning, bridging, routing, the ACL,
policers, stream filters and sequence recovery, as FX decides a frame in its pipeline slot.
-/

namespace Sys2Proof.Machine

/-- CE has a MACsec receiver on the port (R388). -/
def hasCe (p : Nat) : Bool := decide (p < 24 ∨ p = 40)

/-- A state and a frame at a stage. -/
abbrev Stepped := State × Frame

namespace State

/-- CE checks what the port receives (R390), as in SEALED on a designated port (R392). -/
def rxChecks (s : State) (f : Frame) : Bool :=
  hasCe f.port &&
    (decide (s.cfg f.epoch (F.CE_PORT_CFG_RX_EN f.port) = 1) ||
      (s.runMode f.epoch == 2 && decide (s.cfg f.epoch (F.CE_PORT_CFG_DESIG f.port) = 1)))

/-- CE decrypts the frame at step 6, so that it takes a second pass (R20, R390). -/
def ceBound (s : State) (f : Frame) : Bool :=
  s.rxChecks f && f.ce.isNone && decide (f.pass = 0) && beAt f.bytes 12 2 == 0x88E5

/-- CE decrypts the frame, or has: it takes the second pass of R20. -/
def twoPass (s : State) (f : Frame) : Bool := f.ce.isSome || s.ceBound { f with pass := 0 }

/-- No earlier frame of the same ingress port stands in a way before frame id (R27): `before` says which frames do. -/
def inTurn (s : State) (id : Nat) (f : Frame) (before : Frame → Bool) : Bool :=
  s.allFrames.all (fun e => !(decide (e.1 < id) && decide (e.2.port = f.port) && e.2.parent.isNone && !e.2.zombie &&
    before e.2))

/-- The frames of a port take their first slots in the order received (R27). -/
def slotTurn (s : State) (id : Nat) (f : Frame) : Bool := s.inTurn id f (fun e => decide (e.pass = 0))

/-- The frames of a port pass step 7 in the order received, those of the second pass and the others each among
themselves, and a frame whose INGRESS copies are still to be written is not past it (R27, R184; log 74). -/
def enqueueTurn (s : State) (id : Nat) (f : Frame) : Bool :=
  s.inTurn id f (fun e => (decide (e.stage ≠ .queued) || decide (e.copying ≠ 0)) && s.twoPass e == s.twoPass f)

/-! ### VLAN classification -/

/-- PVID of a port as an epoch sees it (R228). -/
def pvid (s : State) (ep p : Nat) : Nat :=
  let v := s.cfg ep (F.FX_PORT_CFG_PVID p)
  orElse (decide (1 ≤ v ∧ v ≤ 4094)) v 1

/-- A VLAN exists (R196, R225). -/
def vlanValid (s : State) (ep v : Nat) : Bool := decide (s.cfg ep (F.FX_VLAN_W1_VALID v) = 1) && s.entryOk 0x30 v

/-- Classification and the VLAN checks (R196, R198). -/
def classify (s : State) (f : Frame) (h : Hdr) : Stepped :=
  let named := h.ctag && decide (1 ≤ h.tvid)
  let vid := if named then h.tvid else s.pvid f.epoch f.port
  let g := { f with vid := vid, evid := vid, tagged := h.ctag, pcp := h.pcp, dei := h.dei }
  let acc := s.cfg f.epoch (F.FX_PORT_CFG_ACCEPT f.port)
  if (h.ctag && h.tvid == 4095) || (acc == 1 && !named) || (acc == 2 && named) || !s.vlanValid f.epoch vid ||
      !(s.vlanMembers f.epoch vid).testBit f.port then
    (s.bump (F.FX_VLAN_DROP_COUNT f.port), dropped g)
  else (s, g)

/-! ### Learning -/

/-- A new or moved source meets the limit of its port (R207). -/
def learnFull (s : State) (f : Frame) : Stepped :=
  let t := s.bump (F.FX_LEARN_LIM_COUNT f.port)
  if s.cfg f.epoch (F.FX_PORT_CFG_LEARN_ACT f.port) = 0 then (t, dropped f) else (t, f)

/-- A learn request enters, to be committed after the end of frame (R205, R206). -/
def learnAsk (s : State) (id : Nat) (f : Frame) (h : Hdr) (fid : Nat) : State :=
  if f.verdict = .ok then
    { s with fx.learn := s.fx.learn ++ [⟨id, h.smac, fid, f.port, f.good && f.verified,
        f.ce.isNone && (s.rxChecks f || f.sealIn.isSome)⟩] }
  else s

/-- Learning of a frame's source (R205, R207, R208): the state, the frame, and whether it must be flooded for want of
a slot. -/
def learnStep (s : State) (id : Nat) (f : Frame) (h : Hdr) : State × Frame × Bool :=
  let c := fun x => s.cfg f.epoch x
  let fid := c (F.FX_VLAN_W1_FID f.vid)
  if c (F.FX_VLAN_W1_LEARN_EN f.vid) = 0 ∨ c (F.FX_PORT_CFG_LEARN_EN f.port) = 0 then (s, f, false)
  else match s.fdbLookup f.epoch fid h.smac with
    | some (_, e) =>
      if e.static then
        (if e.kind = 0 ∧ e.dest ≠ f.port then s.bump F.FX_FDB_STATIC_CONFLICT_COUNT else s, f, false)
      else if e.dest = f.port ∨ s.learnedOn f.port < s.learnLim f.epoch f.port then
        (s.learnAsk id f h fid, f, false)
      else ((s.learnFull f).1, (s.learnFull f).2, false)
    | none =>
      if s.learnedOn f.port ≥ s.learnLim f.epoch f.port then ((s.learnFull f).1, (s.learnFull f).2, false)
      else (s.learnAsk id f h fid, f, (s.bucketSlot fid h.smac).isNone && s.camSlot.isNone)

/-! ### Destinations -/

/-- A frame goes to one port of its egress VLAN (R197). -/
def toPort (s : State) (f : Frame) (p : Nat) (routed : Bool) : Stepped :=
  if p = f.port ∧ (!routed ∨ f.evid = f.vid) then (s.bump (F.FX_SAMEPORT_COUNT f.port), dropped f)
  else (s, { f with egress := Nat.land (2 ^ p) (s.vlanMembers f.epoch f.evid) })

/-- A frame goes to a member of a path group (R215 to R218). -/
def toPg (s : State) (f : Frame) (h : Hdr) (p : Nat) (routed : Bool) (src dst : Nat) : Stepped :=
  if !s.entryOk 0x37 p then (s.pgNone p, dropped f)
  else match s.pgChoose f h p src dst with
    | some port => s.toPort f port routed
    | none => (s.pgNone p, dropped f)

/-- A frame is flooded in its VLAN (R201). -/
def flood (s : State) (f : Frame) : Stepped :=
  (s.pmu 0x21 f.port, { f with
    egress := clrBit (s.vlanMembers f.epoch f.vid) f.port
    group := some (s.cfg f.epoch (F.FX_VLAN_W3_FLOOD_GROUP f.vid)) })

/-- The miss row of R201. -/
def bridgeMiss (s : State) (f : Frame) (h : Hdr) : Stepped :=
  if macGroup h.dmac ∧ h.dmac ≠ 0xFFFFFFFFFFFF ∧ s.cfg f.epoch (F.FX_VLAN_W1_UNREG_MC_DROP f.vid) = 1 then
    (s.bump F.FX_UNREG_MC_DROP_COUNT, dropped f)
  else s.flood f

/-- Members of multicast group g as an epoch sees it. -/
def mcMembers (s : State) (ep g : Nat) : Nat :=
  if s.entryOk 0x32 g then maskOf (s.cfg ep (F.FX_MC_GROUP_W0_MEMBERS_LO g)) (s.cfg ep (F.FX_MC_GROUP_W1_MEMBERS_HI g))
  else 0

/-- Bridging (R197, R200, R201). -/
def bridge (s : State) (f : Frame) (h : Hdr) : Stepped :=
  match s.fdbLookup f.epoch (s.cfg f.epoch (F.FX_VLAN_W1_FID f.vid)) h.dmac with
    | none => s.bridgeMiss f h
    | some (_, e) =>
      let t := s.pmu 0x20 f.port
      match e.kind with
      | 0 => t.toPort f e.dest false
      | 1 => (t, { f with
          egress := clrBit (Nat.land (t.mcMembers f.epoch e.dest) (t.vlanMembers f.epoch f.vid)) f.port
          group := some e.dest })
      | 2 => t.toPg f h e.dest false h.src h.dst
      | _ => (t.bump F.FX_DISCARD_HIT_COUNT, dropped f)

/-- The router's MAC address as an epoch sees it (R228). -/
def rtrMac (s : State) (ep : Nat) : Nat :=
  s.cfg ep F.FX_RTR_MAC_LO_MAC + 2 ^ 32 * s.cfg ep F.FX_RTR_MAC_HI_MAC

/-- FX routes the frame (R196). -/
def isRouted (s : State) (f : Frame) (h : Hdr) : Bool :=
  h.dmac == s.rtrMac f.epoch && decide (s.cfg f.epoch (F.FX_VLAN_W1_ROUTE_EN f.vid) = 1) && (h.v4 || h.v6)

/-- Routing (R213). -/
def route (s : State) (f : Frame) (h : Hdr) : Stepped :=
  if h.ttl ≤ 1 then (s.bump F.FX_TTL_EXPIRED_COUNT, dropped f)
  else
    let newDst := s.translate f.epoch h.v6 0 f.vid h.dst
    let dst := newDst.getD h.dst
    let nh := (s.hostLookup f.epoch h.v6 dst).orElse (fun _ => s.prefixLookup f.epoch h.v6 dst)
    match nh with
    | none => (s.bump F.FX_ROUTE_MISS_COUNT, dropped f)
    | some n =>
      let c := fun x => s.cfg f.epoch x
      if c (F.FX_NEXTHOP_W1_VALID n) = 0 ∨ !s.entryOk 0x35 n then (s.bump F.FX_ROUTE_MISS_COUNT, dropped f)
      else
        let evid := c (F.FX_NEXTHOP_W1_VID n)
        let newSrc := s.translate f.epoch h.v6 1 evid h.src
        let g := { f with
          evid := evid
          rewrite := some {
            dmac := c (F.FX_NEXTHOP_W0_DMAC_LO n) + 2 ^ 32 * c (F.FX_NEXTHOP_W1_DMAC_HI n)
            smac := s.rtrMac f.epoch
            decTtl := decide (c (F.FX_NEXTHOP_W2_DEC_TTL n) = 1)
            newSrc := newSrc
            newDst := newDst } }
        let d := c (F.FX_NEXTHOP_W2_DEST n)
        let t := s.pmu 0x22 f.port
        if c (F.FX_NEXTHOP_W2_IS_PG n) = 1 then
          t.toPg g h (orElse (decide (d < 16)) d 0) true (newSrc.getD h.src) dst
        else t.toPort g (orElse (decide (d < 41)) d 0) true

/-! ### Policy -/

/-- TC before the ACL (R232). -/
def baseTc (s : State) (f : Frame) : Nat :=
  if f.tagged then s.cfg f.epoch (F.FX_QOS_CFG_PCP_TC f.port) / 8 ^ f.pcp % 8
  else s.cfg f.epoch (F.FX_QOS_CFG_DEF_TC f.port)

/-- The ACL's action on a frame (R237). -/
def aclAct (s : State) (f : Frame) (e : Nat) : Frame :=
  let c := fun x => s.cfg f.epoch x
  let g := { f with
    tc := if c (F.FX_ACL_W20_SET_TC e) = 1 then c (F.FX_ACL_W20_TC e) else f.tc
    setPcp := if c (F.FX_ACL_W20_SET_PCP e) = 1 then some (c (F.FX_ACL_W20_PCP e)) else f.setPcp }
  match c (F.FX_ACL_W20_ACT e) with
  | 1 => dropped f
  | 2 => { g with egress := 2 ^ 39, group := none }
  | 3 =>
    let r := c (F.FX_ACL_W20_REDIR e)
    { g with egress := 2 ^ orElse (decide (r < 41)) r 0, group := none }
  | _ => g

/-- The ACL entry that a frame matches, its key taken as received (R236). -/
def aclFor (s : State) (f : Frame) (h : Hdr) : Option Nat :=
  s.aclLookup f.epoch (aclKey f h (s.isRouted f h) f.stream)

/-- The policer of the ACL entry (R240): the colour, for a stream filter that names the same policer. -/
def aclPolice (s : State) (f : Frame) (e : Nat) : State × Frame × Option (Nat × Nat) :=
  let c := fun x => s.cfg f.epoch x
  if c (F.FX_ACL_W20_POL_EN e) = 0 then (s, f, none)
  else
    let i := c (F.FX_ACL_W20_POLICER e)
    let (t, col) := s.police f.epoch i f.total f.born (f.tagged && f.dei)
    let g := { f with colour := col }
    if col = 2 then (t, if c (F.FX_POLICER_W0_RED_PASS i) = 1 then g else dropped g, some (i, col))
    else if col = 1 then
      (t, match c (F.FX_POLICER_W0_YEL_ACT i) with
        | 1 => { g with tc := c (F.FX_POLICER_W0_YEL_TC i) }
        | 2 => dropped g
        | _ => g, some (i, col))
    else (t, g, some (i, col))

/-- Step 5 after the ACL's policer: stream filter and sequence recovery (R232). -/
def streamSteps (s : State) (f : Frame) (rtag : Option Nat) (acl : Option (Nat × Nat)) : Stepped :=
  match f.stream with
  | none => (s, f)
  | some h =>
    let (t, g) := if s.cfg f.epoch (F.FX_SFILTER_W0_VALID h) = 1 ∧ s.entryOk 0x3C h then s.streamFilter h f acl else (s, f)
    if g.verdict = .drop then (t, g) else t.frer h g rtag

/-- R232 for a frame that is not trapped. -/
def policy (s : State) (f : Frame) (h : Hdr) : Stepped :=
  let g := { f with tc := s.baseTc f }
  match s.aclFor g h with
  | none => (s.bump F.FX_ACL_MISS_COUNT).streamSteps g h.rtag none
  | some e =>
    let t := (s.bump (F.FX_ACL_HITS_COUNT e)).pmu 0x23 e
    let g1 := t.aclAct g e
    if g1.verdict = .drop then (t, g1)
    else
      let (u, g2, acl) := t.aclPolice g1 e
      if g2.verdict = .drop then (u, g2) else u.streamSteps g2 h.rtag acl

/-- R232 on the first pass of a frame that CE decrypts: only ACT = drop acts (R233). -/
def policyFirst (s : State) (f : Frame) (h : Hdr) : Stepped :=
  match s.aclFor f h with
  | some e => (s, if s.cfg f.epoch (F.FX_ACL_W20_ACT e) = 1 then dropped f else f)
  | none => (s, f)

/-! ### The pass -/

/-- FX removes the ports of ENFORCED domains from the egress set of an Ethernet keep-alive, a directed one too (R418). -/
def blockKa (s : State) (f : Frame) (h : Hdr) : Stepped :=
  if s.kaDomains f h ≠ [] ∧ Nat.land f.egress s.foldPorts ≠ 0 then
    (s.bump F.SV_FOLD_KA_BLOCKED_COUNT, { f with egress := maskDiff f.egress s.foldPorts })
  else (s, f)

/-- Steps 3 to 5 after classification: trap, learning, destination, stream, policy (R196, R232). `first` marks the
first pass of a frame that CE decrypts: it is not learned (R206). A frame whose source finds no slot takes the miss row,
whatever its destination (R208). The egress-VLAN filter of R197 does not take P39 from a trapped frame: DESIGN CHOICE
(log 106). -/
def decide35 (s : State) (id : Nat) (f : Frame) (h : Hdr) (first : Bool) : Stepped :=
  if linkLocal h.dmac then (s.bump F.FX_TRAP_COUNT, { f with egress := 2 ^ 39 })
  else if macGroup h.smac then (s.bump F.FX_SRC_GROUP_DROP_COUNT, dropped f)
  else
    let (s1, f1, noSlot) := if first then (s, f, false) else s.learnStep id f h
    if f1.verdict = .drop then (s1, f1)
    else
      let (s2, f2) := if noSlot then s1.bridgeMiss f1 h
        else if s1.isRouted f1 h then s1.route f1 h else s1.bridge f1 h
      if f2.verdict = .drop then (s2, f2)
      else
        let f3 := { f2 with stream := s2.streamOf f2 h h.dst }
        let (s3, f4) := if first then s2.policyFirst f3 h else s2.policy f3 h
        if first then (s3, f4) else s3.blockKa f4 h

/-- A frame takes a pipeline slot (R496). -/
def takeSlot (s : State) (f : Frame) : Stepped :=
  ((s.setRg F.OB_SLOT_PEND_SLOTS (s.rg F.OB_SLOT_PEND_SLOTS + 1)).slotUsed,
    { f with
      slots := if f.slotGen = s.ob.slotGen then f.slots + 1 else 1
      slotGen := s.ob.slotGen })

/-- The frame's stage times of a pass (R501). -/
def passTimes (s : State) (f : Frame) : Frame :=
  { f with times := { f.times with parser := some s.now, lookup := some s.now, policy := some s.now } }

/-- One pass of steps 3 to 5 (R20, R196, R232): a second one looks up afresh. DESIGN CHOICE (log 86): R196 writes no "stop" behind the drop of the VLAN
checks; the pass of such a frame ends there, with no trap and no learning. -/
def pipelinePass (s : State) (id : Nat) (f : Frame) : State :=
  let (s1, f1) := s.takeSlot f
  let f2 := { s1.passTimes f1 with pass := f.pass + 1, stage := .looked, egress := 0, group := none, rewrite := none }
  if let some m := f.directive then
    let (s2, f3) := s1.blockKa { f2 with egress := m % 2 ^ 41 } (parseHdr f.bytes)
    s2.setFrame id (some f3)
  else
    let h := parseHdr f.bytes
    let (s3, f3) := s1.classify f2 h
    let (s4, f4) := if f3.verdict = .drop then (s3, f3) else s3.decide35 id f3 h (s.ceBound f)
    s4.setFrame id (some f4)

end State

/-- FX_PIPELINE_PASS (R27, R196, R232, R496): the frame's first pipeline slot, in the order of its port; its first cell
has arrived. `due` is the L that
the frame will have at its end, which the policers charge (R238); it counts only while the frame still arrives. -/
def execFxPipelinePass (id due : Nat) (s : State) : Result :=
  .next (match s.frameOf id with
    | some f =>
      if f.pass = 0 ∧ !f.zombie ∧ f.verdict = .ok ∧ f.cells ≠ [] ∧ (f.rxDone ∨ f.len ≥ 256) ∧ s.fx.stalled = 0 ∧
          s.slotTurn id f then
        s.pipelinePass id { f with due := due }
      else s
    | none => s)

/-- SECOND_PASS (R20): a frame that CE decrypted re-enters as plaintext. -/
def execSecondPass (id : Nat) (s : State) : Result :=
  .next (match s.frameOf id with
    | some f => if f.stage = .clear ∧ !f.zombie ∧ f.verdict ≠ .drop ∧ s.fx.stalled = 0 then s.pipelinePass id f else s
    | none => s)

end Sys2Proof.Machine
end

