-- ==== Sys2Proof/Machine/NvOps.lean ====
section
/-!
DEFINITION. The flash and the one-time programmable memory (R46 to R49, R67, R351): reading, erasing, programming, and
the writes that SV runs one operation at a time.
-/

namespace Sys2Proof.Machine

/-- What an erased flash byte reads as. -/
abbrev flashBlank : Nat → Byte := fun _ => 0xFF

/-- Offsets of the areas of R48. -/
abbrev nvHelper : Nat := 0x1000
/-- The magic word of a valid helper area (R349). -/
abbrev helperMagic : Nat := 0x48500001
abbrev nvSelector : Nat := 0x8000
abbrev nvBank (b : Nat) : Nat := if b = 0 then 0x10000 else 0x810000
abbrev nvActive : Nat := 0x1010000
abbrev nvStaging : Nat := 0x2010000
abbrev nvJournal : Nat := 0x3010000
abbrev nvLedger : Nat := 0x3020000
abbrev nvCustomer : Nat := 0x3120000

namespace State

/-- A flash byte. -/
def nvByte (s : State) (off : Nat) : Byte := Sparse.get flashBlank s.nv.flash off

/-- n flash bytes from an offset. -/
def nvRead (s : State) (off n : Nat) : List Byte := (List.range n).map (fun i => s.nvByte (off + i))

/-- Set one flash byte. -/
def nvPut (s : State) (off : Nat) (b : Byte) : State :=
  { s with nv.flash := Sparse.set flashBlank s.nv.flash off b }

/-- Set flash bytes from an offset. -/
def nvPutAll (s : State) (off : Nat) : List Byte → State
  | [] => s
  | b :: bs => (s.nvPut off b).nvPutAll (off + 1) bs

/-- Erase n bytes: they read 0xFF (R67). -/
def nvErase (s : State) (off n : Nat) : State :=
  { s with nv.flash := s.nv.flash.filter (fun e => decide (e.1 < off ∨ off + n ≤ e.1)) }

/-- Program bytes: a program clears bits and sets none. -/
def nvProgram (s : State) (off : Nat) (bs : List Byte) : State :=
  s.nvPutAll off ((bs.zip (s.nvRead off bs.length)).map (fun x => x.1 &&& x.2))

/-- Byte k of a free value. -/
def freeByte (n k : Nat) : Byte := Byte.ofNat (n / 256 ^ k)

/-- A program that fails leaves each bit it would clear either way (R479: partly written). -/
def nvProgramFail (s : State) (off : Nat) (bs : List Byte) : State :=
  let v := s.freeVal
  s.useFree.nvPutAll off
    (((bs.zip (s.nvRead off bs.length)).zip (List.range bs.length)).map
      (fun x => (x.1.1 &&& x.1.2) ||| (x.1.2 &&& freeByte v x.2)))

/-- An erase that fails leaves each bit it would set either way. -/
def nvEraseFail (s : State) (off n : Nat) : State :=
  let v := s.freeVal
  s.useFree.nvPutAll off (((s.nvRead off n).zip (List.range n)).map (fun x => x.1 ||| freeByte v x.2))

/-- The boot header of R49 matches: octal reads are used. -/
def bootHeaderOk (s : State) : Bool :=
  decide (ofLe (s.nvRead 0 4) = 0x94005A5A) && s.nvByte 4 == 0x01

/-- Clock of every flash access after the boot header's, in MHz (R49): 25, 1S-1S-1S, where the header does not match. -/
def flashMhz (s : State) : Nat :=
  if s.bootHeaderOk then ([200, 166, 133, 100] : List Nat).getD (s.nvByte 5).toNat 100 else 25

/-- Dummy cycles of the 8D-8D-8D read (R49). -/
def flashDummy (s : State) : Nat :=
  let d := (s.nvByte 6).toNat
  if 4 ≤ d ∧ d ≤ 30 then d else 20

/-- Capacity of the flash in bytes, by SIZE of R49 (64 MiB where no header says more). -/
def nvSize (s : State) : Nat :=
  let c := (s.nvByte 7).toNat
  if s.bootHeaderOk ∧ c = 1 then 0x8000000 else if s.bootHeaderOk ∧ c = 2 then 0x10000000 else 0x4000000

end State

/-! ### Writes in progress -/

/-- An area to erase and program. -/
def newArea (base sectors : Nat) (bytes : List Byte) : FlashArea := ⟨base, sectors, bytes, 0, false⟩

/-- Bytes that the area covers. -/
def FlashArea.size (a : FlashArea) : Nat := max (4096 * a.sectors) a.bytes.length

/-- The next operation on the area is the erase of a sector. -/
def FlashArea.erasing (a : FlashArea) : Bool :=
  decide (a.pos % 4096 = 0 ∧ a.pos / 4096 < a.sectors) && !a.erased

/-- The area after the erase of its sector: a sector with nothing to program is passed over. -/
def FlashArea.afterErase (a : FlashArea) : FlashArea :=
  if a.pos < a.bytes.length then { a with erased := true } else { a with pos := a.pos + 4096 }

/-- The area after a page program. -/
def FlashArea.afterPage (a : FlashArea) : FlashArea :=
  let p := a.pos + 256
  let q := if p < a.bytes.length then p else (p + 4095) / 4096 * 4096
  { a with pos := q, erased := a.erased && decide (q % 4096 ≠ 0) }

/-- Nothing is left to do in the area. -/
def FlashArea.done (a : FlashArea) : Bool := decide (a.size ≤ a.pos)

/-- The areas with those that are done dropped. -/
def trimAreas (l : List FlashArea) : List FlashArea := l.dropWhile FlashArea.done

namespace State

/-- The flash reports an operation of an area: its effect, and the area after it. -/
def areaStep (s : State) (a : FlashArea) (ok : Bool) : State × FlashArea :=
  if a.erasing then
    ((if ok then s.nvErase (a.base + a.pos) 4096 else s.nvEraseFail (a.base + a.pos) 4096), a.afterErase)
  else
    let page := (a.bytes.drop a.pos).take 256
    ((if ok then s.nvProgram (a.base + a.pos) page else s.nvProgramFail (a.base + a.pos) page), a.afterPage)

/-- SV takes up a flash write. -/
def addTask (s : State) (k : FlashKind) (areas : List FlashArea) : State :=
  { s with sv.tasks := s.sv.tasks ++ [⟨k, trimAreas areas⟩] }

/-- A bank write runs (R68). -/
def bankWriting (s : State) : Bool :=
  s.sv.tasks.any (fun t => match t.kind with
    | .persist .. => true
    | .bersan .. => true
    | .migration .. => true
    | _ => false)

/-- An ENROLL writes the helper area (R350). -/
def enrolling (s : State) : Bool :=
  s.sv.tasks.any (fun t => match t.kind with
    | .enroll _ => true
    | _ => false)

end State

end Sys2Proof.Machine
end

