-- ==== Sys2Proof/Machine/KeyOps.lean ====
section
/-!
DEFINITION. The key tree (12_keys_lifecycle.md) as operations: key cells, derivations, node settings, uses, creation,
invalidation, orphans, wipes and the life cycle; with the wipes of the cipher engines' cache and the closing of
sessions that they bring.
-/

namespace Sys2Proof.Machine

/-! ### Derivations -/

/-- The bytes of an ASCII text. -/
def ascii (t : String) : List Byte := t.toList.map (fun c => Byte.ofNat c.toNat)

/-- The two-block counter-mode derivation of NIST SP 800-108 with CMAC-AES-256 (R359, R384, R476): a 256-bit key. -/
def kdf108 (p : Nat) (fixed : List Byte) : Nat :=
  Config.cmac p (beBytes 4 1 ++ fixed) % 2 ^ 128 * 2 ^ 128 + Config.cmac p (beBytes 4 2 ++ fixed) % 2 ^ 128

/-- A node's key from its parent's (R359). -/
def nodeKdf (p : Nat) (label : List Byte) (kind policy : Nat) : Nat :=
  kdf108 p (slice0 label 0 32 ++ [0] ++ beBytes 1 kind ++ beBytes 4 policy ++ beBytes 4 256)

/-- A node's key by the IEEE 802.1X-2020 KDF (R359). -/
def nodeKdfX (p : Nat) (label : List Byte) : Nat := Config.kdf8021x p (slice0 label 0 12) (slice0 label 12 16) % 2 ^ 256

/-- A working key of CE (R384). -/
def workKdf (p : Nat) (label : List Byte) (cls : Nat) : Nat :=
  kdf108 p (slice0 label 0 16 ++ [0] ++ beBytes 1 cls ++ beBytes 4 256)

/-! ### The life cycle -/

/-- The life-cycle state that the fuses decode to (R351), in the encoding of KX_STAT.LC. -/
def lcOf (f : Nat) : Nat :=
  if f.testBit 19 then 5
  else if f.testBit 18 then 4
  else if f.testBit 17 then 3
  else if f.testBit 0 then if popCount (f / 2) 16 % 2 = 1 then 2 else 1
  else 0

/-- Toggles not yet used (R351). -/
def togglesLeft (f : Nat) : Nat := 16 - popCount (f / 2) 16

/-- The transition is one of R353. -/
def lcAllowed (cur dest : Nat) : Bool :=
  (cur, dest) ∈ [(1, 2), (2, 1), (1, 3), (2, 3), (3, 4)] || (decide (dest = 5) && decide (cur < 5))

/-- The transition uses a toggle. -/
def lcToggle (cur dest : Nat) : Bool := (cur, dest) ∈ [(1, 2), (2, 1)]

/-- The fuses after a transition to a state: exactly one more is blown (R351). -/
def lcBlow (f cur dest : Nat) : Nat :=
  if lcToggle cur dest then
    match (List.range 16).find? (fun i => !f.testBit (i + 1)) with
    | some i => setBit f (i + 1)
    | none => f
  else if dest = 3 then setBit f 17
  else if dest = 4 then setBit f 18
  else setBit f 19

/-! ### Node settings (R355, R356) -/

/-- Parent of a node by the settings of a copy of CD10: none where it has no parent node. -/
def nodeParent (rf : RegFile) (n : Nat) : Option Nat :=
  if n < 3 then none
  else if n = 3 then some 2
  else if n < 6 then some 1
  else if n = 6 then some 0
  else if n = 7 then some (rfGet rf F.KX_FLEET_CFG_PARENT)
  else if n < 16 then none
  else some (rfGet rf (F.KX_NODE_W0_PARENT n))

/-- KIND: 0 DERIVED, 1 IMPORTED, 2 WRAPPING. -/
def nodeKind (rf : RegFile) (n : Nat) : Nat :=
  if n < 16 then (if n = 2 ∨ n = 4 then 2 else if n = 7 then 1 else 0)
  else orElse (decide (rfGet rf (F.KX_NODE_W0_KIND n) < 3)) (rfGet rf (F.KX_NODE_W0_KIND n)) 0

/-- POLICY, bits 2 and 9 acting as 0 in integrator nodes (R358). -/
def nodePolicy (rf : RegFile) (n : Nat) : Nat :=
  if n < 16 then (([0x020, 0x020, 0x060, 0x108, 0x060, 0x200, 0x004, 0x090] : List Nat)[n]?).getD 0
  else Nat.land (rfGet rf (F.KX_NODE_W1_POLICY n)) 0x1FB

/-- The node exists and is configured. -/
def nodeValid (rf : RegFile) (n : Nat) : Bool :=
  if n < 16 then decide (n < 8) else decide (rfGet rf (F.KX_NODE_W0_VALID n) = 1)

/-- KDF_8021X. -/
def nodeX (rf : RegFile) (n : Nat) : Bool := decide (16 ≤ n) && decide (rfGet rf (F.KX_NODE_W0_KDF_8021X n) = 1)

/-- LABEL of a configured node. -/
def nodeLabel (rf : RegFile) (n : Nat) : List Byte :=
  (List.range 8).flatMap (fun k => leBytes 4 (rfGet rf (F.KX_NODE_LABEL_LABEL n k)))

/-- USE_LIMIT. -/
def nodeLimit (rf : RegFile) (n : Nat) : Nat := if n < 16 then 0 else rfGet rf (F.KX_NODE_W2_USE_LIMIT n)

/-- Depth of a node, none where it exceeds 6 or the chain does not end (R357). -/
def nodeDepth (rf : RegFile) : Nat → Nat → Option Nat
  | 0, _ => none
  | fuel + 1, n =>
    if n < 3 then some 0
    else match nodeParent rf n with
      | some p => (nodeDepth rf fuel p).map (· + 1)
      | none => none

/-- Following PARENT leads back to the node itself. -/
def nodeLoops (rf : RegFile) (n : Nat) : Nat → Nat → Bool
  | 0, _ => false
  | fuel + 1, k =>
    match nodeParent rf k with
    | some p => decide (p = n) || nodeLoops rf n fuel p
    | none => false

/-- A configured node is BAD_CHAIN (R357). -/
def nodeBad (rf : RegFile) (n : Nat) : Bool :=
  match nodeParent rf n with
  | none => false
  | some p =>
    if n < 7 then false
    else if n = 7 then !(nodePolicy rf p).testBit 6
    else
      p ∈ [1, 3, 4, 5, 6] || (decide (8 ≤ p) && decide (p ≤ 15)) || nodeLoops rf n 8 n || (nodeDepth rf 7 n).isNone ||
        (decide (nodeKind rf n ≠ 1) && !(nodePolicy rf p).testBit 5) ||
        (decide (nodeKind rf n = 1) && !(nodePolicy rf p).testBit 6) ||
        (nodeX rf n && decide (nodeKind rf p ≠ 1))

/-- A Stitch between two copies changes the node in a way that makes a rewrite (R364). -/
def nodeChanged (old new : RegFile) (n : Nat) : Bool :=
  nodeParent old n != nodeParent new n || nodeKind old n != nodeKind new n || nodePolicy old n != nodePolicy new n ||
    nodeLabel old n != nodeLabel new n || nodeX old n != nodeX new n

/-- The nodes with settings, in ascending depth and number (R360, R366). -/
def nodesByDepth (rf : RegFile) : List Nat :=
  let all := 7 :: (List.range 1008).map (· + 16)
  (List.range 7).flatMap (fun d => all.filter (fun n => decide (nodeDepth rf 7 n = some d))) ++
    all.filter (fun n => decide (nodeDepth rf 7 n = none))

namespace State

/-! ### Key cells (R367) -/

/-- Cell k. -/
def cellOf (s : State) (k : Nat) : KeyCell := Sparse.get (fun _ => ⟨0, 0⟩) s.kx.cells k

/-- Put cell k. -/
def setCell (s : State) (k : Nat) (c : KeyCell) : State :=
  { s with kx.cells := Sparse.set (fun _ => ⟨0, 0⟩) s.kx.cells k c }

/-- The key in cell k. -/
def keyAt (s : State) (k : Nat) : Nat := Nat.xor (s.cellOf k).stored (s.cellOf k).mask

/-- A key goes into cell k under its mask. -/
def putKey (s : State) (k key : Nat) : State :=
  s.setCell k ⟨Nat.xor (key % 2 ^ 256) (s.cellOf k).mask, (s.cellOf k).mask⟩

/-- Cell k is erased: zeros, then a random value. -/
def eraseKey (s : State) (k : Nat) : State :=
  s.useFree.setCell k ⟨s.freeVal % 2 ^ 256, (s.cellOf k).mask⟩

/-- A fresh mask for cell k, the key unchanged. -/
def remask (s : State) (k : Nat) : State :=
  let m := s.freeVal % 2 ^ 256
  s.useFree.setCell k ⟨Nat.xor (s.keyAt k) m, m⟩

/-- The cell of node n. -/
abbrev nodeCell (n : Nat) : Nat := n + 3

/-! ### Nodes -/

/-- The settings of the tree in force. -/
def kxRf (s : State) : RegFile := s.activeOf 10

/-- STATE of a node: 0 EMPTY, 1 READY, 2 INVALID, 3 ORPHANED, 4 EXHAUSTED, 5 BAD_CHAIN. -/
def nodeState (s : State) (n : Nat) : Nat := s.rg (F.KX_NODE_STAT_W0_STATE n)

/-- GEN of a node. -/
def nodeGen (s : State) (n : Nat) : Nat := s.rg (F.KX_NODE_STAT_W0_GEN n)

/-- Set a node's state. -/
def setNode (s : State) (n st : Nat) : State := s.setRg (F.KX_NODE_STAT_W0_STATE n) st

/-- A KX event of a node (R379, R380). -/
def kxEvent (s : State) (ev n : Nat) : State := (s.setRg F.KX_EV_LAST_NODE n).raise ev

/-- KEYS_DOWN (R94, R349). -/
def keysDown (s : State) : Bool := decide (s.rg F.KX_STAT_KEYS_DOWN = 1)

/-- The tree is locked (R369, R371). -/
def treeLocked (s : State) : Bool := decide (s.rg F.KX_STAT_LOCKED = 1)

/-- A use of the node for the purpose of a POLICY bit would succeed (R361, R371). -/
def nodeUsable (s : State) (n bit : Nat) : Bool :=
  decide (s.nodeState n = 1) && (nodePolicy s.kxRf n).testBit bit && (!s.treeLocked || n == 2 || n == 3) &&
    !s.keysDown

/-- USES goes up by one; the marks of USE_LIMIT (R361). -/
def countUse (s : State) (n : Nat) : State :=
  let u := s.rg (F.KX_NODE_STAT_W2_USES n) + 1
  let l := nodeLimit s.kxRf n
  let t := s.bump (F.KX_NODE_STAT_W2_USES n)
  if l = 0 then t
  else
    let t1 := if 8 * u ≥ 7 * l ∧ 8 * (u - 1) < 7 * l then t.kxEvent 178 n else t
    if u ≥ l then (t1.setNode n 4).kxEvent 179 n else t1

/-- A use of a node (R361): whether it succeeds, and the state after it. -/
def kxUse (s : State) (n bit : Nat) : State × Bool :=
  if s.nodeUsable n bit then (s.countUse n, true) else (s.bump F.KX_USE_REFUSED_COUNT, false)

/-- The node becomes READY with a key (R360, R364). -/
def makeReady (s : State) (n key : Nat) : State :=
  let t := (s.putKey (nodeCell n) key).setNode n 1
  let g := if t.nodeGen n = 0 then t.setRg (F.KX_NODE_STAT_W0_GEN n) 1 else t
  let pgen := match nodeParent g.kxRf n with
    | some p => g.nodeGen p
    | none => 0
  ((g.setRg (F.KX_NODE_STAT_W1_PGEN n) pgen).setRg (F.KX_NODE_STAT_W2_USES n) 0).setRg (F.KX_NODE_STAT_W0_DEPTH n)
    ((nodeDepth g.kxRf 7 n).getD 7)

/-- The key of a derived or wrapping child (R359). -/
def childKey (s : State) (n p : Nat) : Nat :=
  let rf := s.kxRf
  let pk := s.keyAt (nodeCell p)
  if n = 3 then nodeKdf pk (ascii "ELG-FACTORY-MGMT") (nodeKind rf n) (nodePolicy rf n)
  else if n = 4 then nodeKdf pk (ascii "ELG-IDENTITY") (nodeKind rf n) (nodePolicy rf n)
  else if n = 5 then nodeKdf pk (ascii "ELG-LEDGER") (nodeKind rf n) (nodePolicy rf n)
  else if n = 6 then
    nodeKdf pk (slice0 (ascii "ELG-HAMPER") 0 16 ++ beBytes 16 s.kx.nonce) (nodeKind rf n) (nodePolicy rf n)
  else if nodeX rf n then nodeKdfX pk (nodeLabel rf n)
  else nodeKdf pk (nodeLabel rf n) (nodeKind rf n) (nodePolicy rf n)

/-- A derived or wrapping node is created under its READY parent, as a use of it (R360, R361). -/
def createNode (s : State) (n : Nat) : State :=
  match nodeParent s.kxRf n with
  | none => s
  | some p =>
    if s.nodeState p ≠ 1 then s
    else
      let key := s.childKey n p
      match s.kxUse p 5 with
      | (t, true) => t.makeReady n key
      | (t, false) => t

/-- The node waits for its creation: configured, sound, derived or wrapping, and EMPTY. -/
def awaitsCreation (s : State) (n : Nat) : Bool :=
  decide (16 ≤ n) && nodeValid s.kxRf n && !nodeBad s.kxRf n && decide (nodeKind s.kxRf n ≠ 1) &&
    decide (s.nodeState n = 0)

/-- Every node whose parent is READY is created (R360). -/
def createAll (s : State) : State :=
  if s.rg F.KX_STAT_ROOTS_UP = 0 then s
  else s.forEach (nodesByDepth s.kxRf) (fun t n => if t.awaitsCreation n then t.createNode n else t)

/-- The node is judged for BAD_CHAIN (R357): it enters or leaves that state. -/
def judgeNode (s : State) (n : Nat) : State :=
  let bad := nodeValid s.kxRf n && nodeBad s.kxRf n
  if bad ∧ s.nodeState n ≠ 5 then
    (((s.eraseKey (nodeCell n)).setNode n 5).setRg F.KX_BAD_CHAIN_NODES (s.rg F.KX_BAD_CHAIN_NODES + 1)).kxEvent 188 n
  else if !bad ∧ s.nodeState n = 5 then
    (s.setNode n 0).setRg F.KX_BAD_CHAIN_NODES (s.rg F.KX_BAD_CHAIN_NODES - 1)
  else s

/-! ### The cipher engines' part -/

/-- STATE of a CE context: 0 IDLE, 1 ACTIVE, 2 NOKEY, 3 ORPHANED, 4 EXPIRED. -/
def ctxState (s : State) (c : Nat) : Nat := s.rg (F.CE_CTX_STAT_W0_STATE c)

/-- A CE event of a context (R399, R401). -/
def ceEvent (s : State) (ev c : Nat) : State :=
  ((s.setRg F.CE_EV_LAST_CTX c).setRg F.CE_EV_LAST_PAIR (s.rg (F.CE_CTX_STAT_W0_CURRENT c))).raise ev

/-- A context enters NOKEY or ORPHANED (R383). EXPIRED is left only by a rekey (R387). -/
def ctxUnusable (s : State) (c st : Nat) : State :=
  if s.ctxState c = st ∨ s.ctxState c = 4 then s else (s.setRg (F.CE_CTX_STAT_W0_STATE c) st).ceEvent 196 c

/-- The cache entry of a context is wiped. -/
def wipeEntry (s : State) (c : Nat) : State := { s with ce.cache := s.ce.cache.filter (fun e => decide (e.1 ≠ c)) }

/-- Every working key and cache entry is wiped, and a derivation in progress is aborted (R369): the frames that wait for
it ask again, and their contexts derive afresh (R370; log 75). -/
def wipeKeys (s : State) : State := { s with ce.cache := [], ce.ham := none, ce.waiting := [] }

/-- Contexts that held a working key through one of these nodes become ORPHANED (R365, R383); the Hamper's keys come
from node 6 (R394). -/
def wipeThrough (s : State) (nodes : List Nat) : State :=
  let hit := (s.ce.cache.map (·.1)).filter (fun c => nodes.contains (s.act (F.CE_CTX_W0_NODE c)))
  let t := if nodes.contains 6 then { s with ce.ham := none } else s
  t.forEach hit (fun t c => (t.wipeEntry c).ctxUnusable c 3)

/-! ### Sessions -/

/-- A ledger record of the update engine (R492, R514), of the container whose first slot `c` holds. -/
def updLedger (s : State) (c : List Byte) (ev code : Nat) : State :=
  let man := slice0 c 512 (min 12304 (ofBe (slice0 c 20 4)))
  let svn := if c.isEmpty then 0 else ofBe (slice0 man 4 1)
  let md := if c.isEmpty then [] else Config.sha384 man
  s.ledgerAdd 0x07 (leBytes 1 ev ++ leBytes 1 code ++ leBytes 1 svn ++ slice0 md 0 12)

/-- An update command's outcome goes to its mailbox, and back to a Bersan session (R478, R479, R490). -/
def updResult (s : State) (a : Agent) (index code : Nat) : State :=
  let k := a.ownerCode
  let w := Word.ofNat (code * 2 + index % 256 * 256)
  let t := if k ≤ 12 then s.wr (R.SV_UPD_RESULT k) w else s
  (match a with
    | .bersan n => t.emit (.bersanReply n.val w.toNat)
    | _ => t).raise (if code = 0 then 19 else 20) (some a)

/-- The update session ends, and nothing is marked (R480): a command in progress ends with NO_SESSION, the journal write of
an ACTIVATE too (LISTEN entry has waited for it, R88); a block's write completes where `block` says so (R365). -/
def endUpdate (s : State) (block : Bool := false) : State :=
  let t := { s with
    upd := { s.upd with owner := none, got := 0, job := none }
    sv.tasks := s.sv.tasks.filter (fun k => match k.kind with
      | .header _ => false
      | .activate _ => false
      | .block .. => block
      | _ => true) }
  let u := (((t.setRg F.SV_UPD_STAT_SESSION 0).setRg F.SV_UPD_STAT_OWNER 0).setRg F.SV_UPD_STAT_RECEIVED 0).setRg
    F.SV_UPD_STAT_BLOCKS 0
  match s.upd.job with
  | some (a, _, index) => u.updResult a index 3
  | none => u

/-- The update session closes without marking anything, other than by CLOSE (R480, R492). `cause` numbers the cases of
R480 in their order; in case 5, node 7 invalidated, the current block completes (R365). -/
def closeUpdate (s : State) (cause : Nat) : State :=
  match s.upd.owner with
  | none => s
  | some a => ((s.updLedger s.upd.first 21 cause).endUpdate (decide (cause = 5))).raise 21 (some a)

/-- A Bersan session closes, and with it the update session it owns (R480). -/
def closeSession (s : State) (n : Nat) : State :=
  let t := { s with sv.bersan := Sparse.set (fun _ => none) s.sv.bersan n none }
  match s.upd.owner with
  | some (.bersan k) => if k.val = n then t.closeUpdate 2 else t
  | _ => t

/-- The node that authenticated session n. -/
def sessionNode (s : State) (n : Nat) : Option Nat := Sparse.get (fun _ => none) s.sv.bersan n

/-- Everything derived through these nodes ends (R365): working keys, sessions that one of them authenticated, and the
update session where node 7 is among them. -/
def nodesLost (s : State) (nodes : List Nat) : State :=
  let t := s.wipeThrough nodes
  let u := t.forEach ((List.range 4).filter (fun n => (t.sessionNode n).any nodes.contains)) closeSession
  if nodes.contains 7 then u.closeUpdate 5 else u

/-! ### Invalidation -/

/-- GEN of a node advances (R364). -/
def advanceGen (s : State) (n : Nat) : State :=
  let g := s.nodeGen n
  s.setRg (F.KX_NODE_STAT_W0_GEN n) (if g = 65535 then 1 else g + 1)

/-- The children of a set of nodes that hold, or held, a key. -/
def keyedChildren (s : State) (ps : List Nat) : List Nat :=
  (List.range 1024).filter (fun n =>
    (nodeParent s.kxRf n).any ps.contains && [1, 2, 4].contains (s.nodeState n))

/-- The orphans that an invalidated node leaves, level by level (R364). -/
def orphans (s : State) : Nat → List Nat → List Nat
  | 0, _ => []
  | fuel + 1, ps =>
    let cs := s.keyedChildren ps
    if cs.isEmpty then [] else cs ++ s.orphans fuel cs

/-- A node's descendants become ORPHANED (R364, R365). -/
def orphanUnder (s : State) (n : Nat) : State :=
  let os := (s.orphans 7 [n]).eraseDups
  match os.getLast? with
  | none => s.nodesLost [n]
  | some k => ((s.forEach os (fun t m => (t.eraseKey (nodeCell m)).setNode m 3)).kxEvent 177 k).nodesLost (n :: os)

/-- A node is invalidated (R364). One that is BAD_CHAIN stays so (R357). -/
def invalidate (s : State) (n : Nat) : State :=
  ((((s.advanceGen n).setNode n (if s.nodeState n = 5 then 5 else 2)).eraseKey (nodeCell n)).kxEvent 176 n).orphanUnder n

/-- A node that has been created since the start (R364: its GEN is not 0). -/
def everCreated (s : State) (n : Nat) : Bool := decide (s.nodeGen n ≠ 0)

/-- DEPTH of a configured node follows its chain (R357, R379); 7 stands for a chain without end. -/
def showDepth (s : State) (n : Nat) : State :=
  let d := if nodeValid s.kxRf n then (nodeDepth s.kxRf 7 n).getD 7 else 0
  if s.rg (F.KX_NODE_STAT_W0_DEPTH n) = d then s else s.setRg (F.KX_NODE_STAT_W0_DEPTH n) d

/-- A key is imported into node n (R362, R364): into a node that holds one, as a rewrite. -/
def importKey (s : State) (n key : Nat) : State :=
  let t := if [1, 4].contains (s.nodeState n) then s.invalidate n else s
  (t.makeReady n key).createAll

/-- One node at the commit of a Stitch of CD10 (R364, R366), the old settings given. -/
def commitNode (s : State) (old : RegFile) (n : Nat) : State :=
  let new := s.kxRf
  if !nodeValid new n then
    if !nodeValid old n then s
    else
      let t := if s.everCreated n then s.invalidate n else s
      if t.nodeState n = 5 then (t.judgeNode n).setNode n 0 else t.setNode n 0
  else
    let rewrite := nodeValid old n && nodeChanged old new n && s.everCreated n
    let t := (if !rewrite then s
      else if s.nodeState n = 5 then s.invalidate n else (s.invalidate n).setNode n 0).judgeNode n
    let u := if t.awaitsCreation n ∧ t.rg F.KX_STAT_ROOTS_UP = 1 then t.createNode n else t
    let l := nodeLimit new n
    if nodeLimit old n = l then u
    else if u.nodeState n = 1 ∧ l ≠ 0 ∧ u.rg (F.KX_NODE_STAT_W2_USES n) ≥ l then (u.setNode n 4).kxEvent 179 n
    else if u.nodeState n = 4 ∧ (l = 0 ∨ u.rg (F.KX_NODE_STAT_W2_USES n) < l) then u.setNode n 1
    else u

/-- The key changes of a Stitch of CD10 (R366). -/
def commitNodes (s : State) (old : RegFile) : State :=
  s.forEach (nodesByDepth s.kxRf) (fun t n => (t.commitNode old n).showDepth n)

/-! ### Commands' outcomes -/

/-- A KX command's outcome (R373, R375): in the mailbox, and to a session in its message's answer as well (R103). -/
def kxResult (s : State) (a : Agent) (node code : Nat) : State :=
  let k := a.ownerCode
  let w := Word.ofNat (code * 2 + node % 1024 * 65536)
  (match a with
    | .debug => s.emit (.debugReply w.toNat)
    | .bersan n => (s.wr (R.KX_RESULT k) w).emit (.bersanReply n.val w.toNat)
    | .sv => s
    | _ => s.wr (R.KX_RESULT k) w).raise (if code = 0 then 184 else 185) (some a)

/-- A KX command is accepted: PENDING until its outcome. -/
def kxAccept (s : State) (j : KxJob) : State :=
  let k := j.agent.ownerCode
  let t := if k ≤ 12 ∧ j.agent ≠ .debug then s.wr (R.KX_RESULT k) (Word.ofNat (1 + j.node % 1024 * 65536)) else s
  { t with kx.jobs := t.kx.jobs ++ [j] }

/-- The bytes of an agent's DATA area: its mailbox, a session's mirror of it (R103), or debug access's own. -/
def kxData (s : State) (a : Agent) : List Byte :=
  if a = .debug then slice0 s.kx.debugData 0 64
  else (List.range 16).flatMap (fun w => leBytes 4 (s.rg (F.KX_DATA_DATA a.ownerCode w)))

/-- Set the DATA area. -/
def setKxData (s : State) (a : Agent) (bs : List Byte) : State :=
  if a.ownerCode ≤ 12 then
    s.forEach (List.range 16) (fun t w => t.setRg (F.KX_DATA_DATA a.ownerCode w) (ofLe (slice0 bs (4 * w) 4)))
  else if a = .debug then { s with kx.debugData := slice0 bs 0 64 }
  else s

/-- The DATA words of a mailbox become 0 (R362). -/
def zeroKxData (s : State) (a : Agent) : State :=
  if a.ownerCode ≤ 12 then s.forEach (List.range 16) (fun t w => t.setRg (F.KX_DATA_DATA a.ownerCode w) 0)
  else if a = .debug then { s with kx.debugData := [] }
  else s

/-- A command in progress ends with FAILED (R370); an IMPORT's DATA words become 0 (R362). -/
def failJob (s : State) (j : KxJob) : State :=
  (if j.op = 3 then s.zeroKxData j.agent else s).kxResult j.agent j.node 0x0D

/-- Every command in progress ends with FAILED, an ENROLL among them (R370). -/
def abortJobs (s : State) : State :=
  let t := s.forEach s.kx.jobs failJob
  let u := t.forEach s.sv.tasks (fun t k => match k.kind with
    | .enroll a => t.kxResult a 0 0x0D
    | _ => t)
  { u with
    kx.jobs := []
    sv.tasks := u.sv.tasks.filter (fun k => match k.kind with
      | .enroll _ => false
      | _ => true) }

/-! ### Wipes (R369, R370) -/

/-- Frames whose cipher operation is aborted take VERDICT DROP (R370). -/
def abortFrames (s : State) : State :=
  let busy := (s.allFrames.filter (fun e => match e.2.ce with | some w => !w.done | none => false)).map (·.1)
  let sending := (List.range 41).filterMap (fun p => match s.txOf p with
    | some t => if t.copy.sealed.isSome && (match s.frameOf t.copy.frame with | some f => !f.rxDone | none => false)
      then some t.copy.frame else none
    | none => none)
  s.forEach (busy ++ sending) setDrop

/-- A node becomes EMPTY and its cell is erased (R369), one that was BAD_CHAIN among them (log 75). -/
def emptyNode (s : State) (n : Nat) : State :=
  let t := if s.nodeState n = 5 then s.setRg F.KX_BAD_CHAIN_NODES (s.rg F.KX_BAD_CHAIN_NODES - 1) else s
  (t.eraseKey (nodeCell n)).setNode n 0

/-- The effects of WIPE beyond those of LOG (R369). -/
def wipe (s : State) : State :=
  let t := s.abortJobs.wipeKeys.abortFrames
  let imported := (List.range 1024).filter (fun n => nodeKind t.kxRf n = 1 ∧ nodeValid t.kxRf n)
  let u := t.forEach imported emptyNode
  let v := u.forEach ((List.range 4).filter (fun n => (u.sessionNode n).any (fun k => decide (k ≠ 3)))) closeSession
  (v.closeUpdate 4).raise 181

/-- After a WIPE_LOCK every encrypted Hamper page is released unread (R370). -/
def releaseEncrypted (s : State) : State :=
  s.forEach (List.range 328) (fun t q =>
    let x := t.queueOf q
    let gone := x.pages.filter (·.enc)
    if gone.isEmpty then t
    else
      let left := x.pages.filter (fun p => !p.enc)
      let u := t.setQueue q { x with pages := left, spill := x.spill && !left.isEmpty, deficit := if left.isEmpty && x.die.isEmpty then 0 else x.deficit }
      u.releasePages (q / 8) false gone)

/-- The effects of WIPE_LOCK beyond those of WIPE (R369). -/
def wipeLock (s : State) : State :=
  let t := s.forEach ((List.range 1024).filter (fun n => n ≠ 2 ∧ n ≠ 3)) emptyNode
  let u := ((t.eraseKey 0).eraseKey 1).setRg F.KX_STAT_ROOTS_UP 0
  let v := (u.setRg F.KX_STAT_LOCKED 1).setRg F.SV_MODE_TREE_LOCKED 1
  v.releaseEncrypted.raise 182

/-! ### The start of the tree -/

/-- The magic word of the helper area matches (R348). -/
def helperOk (s : State) : Bool := decide (ofLe (s.nvRead nvHelper 4) = helperMagic)

/-- The label of node 0's root in the life-cycle state (R354). -/
def rootLabel (lc : Nat) : List Byte :=
  ascii (if lc = 1 then "ELG-RK-MFG" else if lc = 2 then "ELG-RK-DEV" else if lc = 3 then "ELG-RK-DEP" else "ELG-RK-RET")

/-- The tree is instantiated from S (R354, R355, R360). -/
def instantiate (s : State) : State :=
  let secret := Config.pufSecret (s.nvRead nvHelper 1536)
  let t := s.putKey 0 secret
  let root := nodeKdf (t.keyAt 0) (rootLabel (t.rg F.KX_STAT_LC)) 0 0x020
  let fix := nodeKdf (t.keyAt 0) (ascii "ELG-RK-FIX") 0 0x020
  let u := ((t.putKey 1 fix).makeReady 0 root).makeReady 1 fix
  let v := { u.useFree with kx.nonce := u.freeVal % 2 ^ 128 }
  (([4, 5, 6].foldl createNode v).setRg F.KX_STAT_ROOTS_UP 1).createAll

/-- Every node with settings is judged for BAD_CHAIN again, after a wipe emptied it (R357, R372). -/
def judgeNodes (s : State) : State := s.forEach (nodesByDepth s.kxRf) judgeNode

/-- Nodes 2 and 3 are created when the SoC die leaves power-on reset (R355). -/
def transportNodes (s : State) : State :=
  let t := s.putKey 2 s.nv.ftk
  if [0, 5].contains (s.rg F.KX_STAT_LC) then t else (t.makeReady 2 s.nv.ftk).createNode 3

/-- KEYS_DOWN begins with its cause (R94, R349). -/
def enterKeysDown (s : State) (cause : Nat) : State :=
  ((((s.setRg F.KX_STAT_KEYS_DOWN 1).setRg F.KX_STAT_DOWN_CAUSE cause).setRg F.SV_MODE_KEYS_DOWN 1).raise 5)

/-- The outcome of a reconstruction of S (R349): the cause that applies first, or none. -/
def downCause (s : State) (r : Puf) : Nat :=
  if [0, 5].contains (s.rg F.KX_STAT_LC) then 4
  else if !s.helperOk then 1
  else match r with
    | .sound => 0
    | .trngFails => 3
    | .decodeFails => 2

/-- ERR_RATE of a reconstruction: above 15.0 % where the decoder fails, else a free value (R349). -/
def noteErrRate (s : State) (cause : Nat) : State :=
  if cause = 1 ∨ cause = 3 ∨ cause = 4 then s
  else
    let r := if cause = 2 then 151 + s.freeVal % 105 else s.freeVal % 256
    let t := s.useFree.setRg F.KX_STAT_ERR_RATE r
    if r > 80 then t.raise 186 else t

end State

end Sys2Proof.Machine
end

