-- ==== Sys2Proof/Machine/BufOps.lean ====
section
/-!
DEFINITION. Admission, spill and refill (06_buffer.md, R164 to R184) as operations.
-/

namespace Sys2Proof.Machine

/-- What the admission test of a queue answers (R164, R176). -/
inductive Admit where
  | die | hamper | noHamper | refuse
  deriving DecidableEq, Repr

/-- Pages of an encoding of SIZE, reserved values as 256 MiB (R192). -/
def sizePages (code : Nat) : Nat := 65536 * 2 ^ orElse (decide (code ≤ 4)) code 0

/-- The pages behind a lost frame's first one no longer continue it, up to the page in which the next frame starts. -/
def untail : List HPage → List HPage
  | [] => []
  | n :: r => if n.tail then { n with tail := false } :: (if n.copies = [] then untail r else r) else n :: r

/-- The last frame that starts in these pages is lost: the pages before the one it starts in, that page, the frame, and
the pages behind it, which it fills (R180). -/
def loseLast : List HPage → List HPage × List Copy
  | [] => ([], [])
  | b :: r =>
    match loseLast r with
    | (r', c :: cs) => (b :: r', c :: cs)
    | (_, []) => ({ b with copies := b.copies.dropLast } :: untail r, b.copies.getLast?.toList)

/-- The pages of a queue after page k is lost: a frame that lies partly in it is lost with it, wherever it starts
(R180). -/
def pagesAfterLoss (pages : List HPage) (k : Nat) : List HPage × List Copy :=
  match pages[k]? with
  | none => (pages, [])
  | some p =>
    let (before, fromBefore) := if p.tail then loseLast (pages.take k) else (pages.take k, [])
    (before ++ untail (pages.drop (k + 1)), fromBefore ++ p.copies)

namespace State

/-- The frame's end has been counted, and CE has verified it where it decrypts it. -/
def isWhole (f : Frame) : Bool := f.rxDone && f.verified

/-! ### The Hamper's state -/

/-- DRAM is in service, so that the Hamper can be (R72, R79, R86). -/
def dramReady (s : State) : Bool := s.pw.start.zeroed && !s.pw.dramSr

/-- The Hamper is to run: enabled, DRAM in service, and the mode DEEP, SEALED or FACTORY (R73, R90, R192). -/
def hamWanted (s : State) : Bool :=
  decide (s.act F.MX_HAMPER_CFG_EN = 1) && s.dramReady &&
    (s.mode == 7 || (s.inRun && s.runMode (s.epoch % 256) != 0))

/-- The size asked for, within the boot size (R170). -/
def hamSize (s : State) : Nat := min (sizePages (s.act F.MX_HAMPER_CFG_SIZE)) s.sx.hamBoot

/-- Set STATE of SX_HAM_STATE and the size in force. -/
def hamSet (s : State) (st pages : Nat) : State :=
  { s.setRg F.SX_HAM_STATE_STATE st with sx.hamPages := pages }

/-- The Hamper's state follows its settings and its contents (R170, R90). -/
def hamJudge (s : State) : State :=
  let st := s.hamState
  let empty := s.hamUsed = 0
  let t :=
    if !s.hamWanted then
      if st = 0 then s else if empty then s.hamSet 0 0 else s.hamSet 2 s.sx.hamPages
    else if st = 0 ∨ empty then s.hamSet 1 s.hamSize
    else if s.hamSize < s.sx.hamPages then s.hamSet 2 s.sx.hamPages
    else s.hamSet 1 s.hamSize
  t.judgeRsv.checkMarks

/-- SIZE_CAPPED after a commit from the settings `old` of CD15 (R170): each Stitch that raises SIZE beyond the boot size
raises the event. DESIGN CHOICE (log 76): SIZE_CAPPED clears at a commit whose SIZE lies within the boot size again. -/
def hamCapped (s : State) (old : RegFile) : State :=
  let was := sizePages (rfGet old F.MX_HAMPER_CFG_SIZE)
  let size := sizePages (s.act F.MX_HAMPER_CFG_SIZE)
  if s.booted ∧ size > s.sx.hamBoot then
    let t := s.setRg F.SX_HAM_STATE_SIZE_CAPPED 1
    if size > was then t.raise 73 else t
  else s.setRg F.SX_HAM_STATE_SIZE_CAPPED 0

/-! ### Admission -/

/-- The largest cell count that the on-die test lets a queue reach (R164). -/
def dieLimit (s : State) (ep q : Nat) (except : Option Nat) : Nat :=
  let alpha := alphaTimes (s.cfg ep (F.SX_TC_CFG_ALPHA_DIE (q % 8))) 5 (s.freeCells except)
  let cap := s.cfg ep (F.SX_QLIM_CAP q)
  max (s.effRsv q) (if cap > 0 then min alpha cap else alpha)

/-- A move from RUN to PARTIAL is on its way (R87). -/
def leavesRun (s : State) : Bool := match s.pw.moving with | .toPartial _ => true | _ => false

/-- A frame of an epoch may spill from a queue (R171), unless the Hamper is being released for PARTIAL (R87). -/
def maySpill (s : State) (ep q : Nat) : Bool :=
  ((s.inRun && s.runMode ep != 0 && !s.leavesRun) || s.mode == 7) && decide (s.cfg ep (F.SX_TC_CFG_SPILL_EN (q % 8)) = 1) &&
    s.hamState == 1

/-- Free Hamper cells (R176). -/
def hamFree (s : State) : Nat := 16 * (s.hamPages - s.hamUsed)

/-- The Hamper test (R176). -/
def hamTest (s : State) (ep q len : Nat) : Bool :=
  decide (16 * s.queuePages q + hamCells len ≤ alphaTimes (s.cfg ep (F.SX_TC_CFG_ALPHA_HAM (q % 8))) 6 s.hamFree)

/-- The admission of a frame of n cells to a queue (R164, R172, R176). -/
def admits (s : State) (f : Frame) (q n : Nat) (except : Option Nat) : Admit :=
  if !(s.queueOf q).spill ∧ s.dieCells q + n ≤ s.dieLimit f.epoch q except then .die
  else if s.maySpill f.epoch q then (if s.hamTest f.epoch q f.len then .hamper else .noHamper)
  else .refuse

/-- A queue refuses a frame (R164, R176, R183). -/
def refuseAt (s : State) (q : Nat) (a : Admit) : State :=
  match a with
  | .noHamper => s.bump (F.SX_Q_DROP_HAMPER_COUNT q)
  | _ => (s.bump (F.SX_Q_DROP_THRESH_COUNT q)).pmu 0x04 q

/-- Queue q is a timed queue (R252). -/
def timed (s : State) (q : Nat) : Bool := decide (s.act (F.SC_TCQ_LAUNCH_EN (q / 8) (q % 8)) = 1)

/-- The launch time that a frame takes for queue q: a host descriptor's, or the ingress stamp, its seconds extended
(R271), on the egress port's instance plus LAUNCH_OFFSET (R252). -/
def launchTime (s : State) (f : Frame) (q : Nat) : Int :=
  let i := s.act (F.SC_PORT_CFG_TI_SEL (q / 8))
  match f.launch with
  | some t => (extendTime (s.tiNs i) t : Nat)
  | none => s.convertStamp f.ti (nearStamp (s.tiNs f.ti) f.stamp) i + (s.act (F.SC_LOFS_LAUNCH_OFFSET (q / 8) (q % 8)) : Nat)

/-- A copy of a frame for an egress queue; in a timed queue it has its launch time from now on (R252, R267). -/
def newCopy (s : State) (f : Frame) (id q : Nat) (cut mcast : Bool) : Copy :=
  ⟨id, q / 8, q % 8, cut, mcast, if s.timed q then some (s.launchTime f q) else none, false, false, none, none, none, none,
    none⟩

/-- The launch time of a copy; one that queue q took before it was a timed queue takes it as of now (R252, R267). -/
def launchOf (s : State) (c : Copy) (q : Nat) : Int :=
  match c.launch, s.frameOf c.frame with
  | some t, _ => t
  | none, some f => s.launchTime f q
  | none, none => 0

/-- A frame for a timed queue whose launch time lies more than 1 s ahead (R253). -/
def beyondHorizon (s : State) (f : Frame) (q : Nat) : Bool :=
  s.timed q && decide (s.launchTime f q > (giga : Int) + s.tiNs (s.act (F.SC_PORT_CFG_TI_SEL (q / 8))))

/-- A scheduler event of a port (R258, R259). -/
def scEvent (s : State) (ev p : Nat) : State := (s.setRg F.SC_EV_LAST_PORT p).raise ev

/-- A frame of a copy's own, enqueued at `at_`: the frame's bytes and record, without cells (R183, R184). -/
def cloneOf (f : Frame) (parent at_ : Nat) : Frame :=
  { f with
    cells := [], slots := 0, live := 1, kids := 0, copying := 0, parent := some parent, stage := .queued, lines := []
    times := { f.times with enqueue := some at_ } }

/-- A clone of frame id enters; answers the state and the clone's identifier. -/
def addClone (s : State) (id : Nat) (f : Frame) : State × Nat :=
  let k := s.sx.nextId
  let t := { s.setFrame k (some (cloneOf f id s.now)) with sx.nextId := k + 1 }
  (t.modFrame id (fun f => { f with kids := f.kids + 1 }), k)

/-- A copy joins its queue's on-die head. -/
def pushDie (s : State) (q : Nat) (c : Copy) : State :=
  let x := s.queueOf q
  ((s.setQueue q { x with die := x.die ++ [c] }).notePeak q).pmu 0x01 q

/-! ### Fill pages -/

/-- A change of TTL or addresses: it marks the frame for the incremental checksum update (R138, R214). -/
def Rewrite.sums (r : Rewrite) : Bool := r.decTtl || r.newSrc.isSome || r.newDst.isSome

/-- The header that a frame has in the Hamper (R177): its record, L, ingress port, checksum results, flags, ingress stamp
and ingress time in µs. DESIGN CHOICE (log 76): bytes 20 to 31, of an internal format, hold the VLANs, the group and the
stream of step 4. -/
def hamHeader (f : Frame) (mcast : Bool) : List Byte :=
  leBytes 2 (recordWord f) ++ leBytes 2 f.len ++ leBytes 1 f.port ++ leBytes 1 (f.l3 % 4 + 4 * (f.l4 % 4)) ++
    leBytes 2 ((if mcast then 1 else 0) + (if f.rewrite.any Rewrite.sums then 2 else 0)) ++
    leBytes 8 (compactStamp f.ti f.stamp) ++ leBytes 4 (f.born / 1000) ++
    leBytes 2 f.vid ++ leBytes 2 f.evid ++ leBytes 2 (f.group.getD 0xFFFF) ++ leBytes 2 (f.stream.getD 0xFFFF) ++
    leBytes 4 0

/-- The cells of a frame in the Hamper: its header, then its L bytes (R173). -/
def hamImage (f : Frame) (mcast : Bool) : List (List Byte) :=
  let all := hamHeader f mcast ++ f.bytes ++ fcsBytes f.bytes
  (List.range (hamCells f.len)).map (fun i => slice0 all (256 * i) 256)

/-- The bytes of a frame that its cells hold, FCS excluded. -/
def hamBytes (f : Frame) (cells : List (List Byte)) : List Byte := (cells.flatten.drop 32).take (f.len - 4)

/-- An ingress time as a page descriptor holds it (R178): 21 bits of µs. -/
def pageTime (t : Nat) : Nat := t / 1000 % 2 ^ 21

/-- A new fill page, which holds these cells; the first frame that starts in it begins at cell `start`. -/
def newPage (s : State) (f : Frame) (tail : Bool) (start : Nat) (cells : List (List Byte)) (cs : List Copy) : HPage where
  no := 0
  state := if cells.length ≥ 16 then .staged else .fill
  epoch := f.epoch
  opened := s.now
  newest := pageTime f.born
  newestAt := f.born
  copies := cs
  start := start
  cells := cells
  tail := tail
  enc := false
  closed := s.sx.closes
  head := []

/-- The further pages of a frame whose remaining cells are given, each marked as continuing it (R173). -/
def tailPages (s : State) (f : Frame) : Nat → List (List Byte) → List HPage
  | 0, _ => []
  | k + 1, l => if l = [] then [] else s.newPage f true (min 16 l.length) (l.take 16) [] :: tailPages s f k (l.drop 16)

/-- The open fill page of a queue is closed and queued for writing (R173); `n` is its place in the order of closing. -/
def closeFill (pages : List HPage) (n : Nat) : List HPage :=
  pages.map (fun p => if p.state = .fill then { p with state := .staged, closed := n } else p)

/-- A copy placed in a queue's pages (R173). -/
def placeCopy (s : State) (pages : List HPage) (f : Frame) (c : Copy) : List HPage :=
  let l := hamImage f c.mcast
  let fresh := s.newPage f false 0 (l.take 16) [c] :: s.tailPages f l.length (l.drop 16)
  match pages.getLast? with
  | some p =>
    if p.state = .fill ∧ p.epoch = f.epoch then
      let room := 16 - p.cells.length
      let cells := p.cells ++ l.take room
      let p' := { p with
        cells := cells
        copies := p.copies ++ [c]
        newest := pageTime (max p.newestAt f.born)
        newestAt := max p.newestAt f.born
        state := if cells.length ≥ 16 then .staged else .fill
        closed := s.sx.closes }
      pages.dropLast ++ [p'] ++ s.tailPages f l.length (l.drop room)
    else closeFill pages s.sx.closes ++ fresh
  | none => fresh

/-- A frame is written to a queue's fill page as a copy of its own, or dropped for want of staging pages (R172 to
R174, R183). -/
def spillTo (s : State) (id : Nat) (f : Frame) (q : Nat) (mcast : Bool) : State × Bool :=
  let x := s.queueOf q
  let s1 := if x.spill then s else (s.setRg F.SX_EV_LASTQ_SPILL_Q q).raise 66
  let (s2, k) := s1.addClone id f
  let pages := s2.placeCopy x.pages f (s.newCopy f k q false mcast)
  if s.hamStage + (pages.length - x.pages.length) > 256 then
    (((s.bump (F.SX_Q_DROP_SPILLBW_COUNT q)).setRg F.SX_EV_LASTQ_SPILLBW_Q q).raise 67, false)
  else
    let s3 := { s2.setQueue q { x with spill := true, pages := pages } with sx.closes := s2.sx.closes + 1 }
    (((s3.bump (F.SX_Q_SPILLED_COUNT q)).pmu 0x05 q).pmu 0x01 q, true)

/-! ### Enqueue -/

/-- The copy of a tagged frame for a queue is discarded at enqueue: its Peg record (R501). -/
def noCopy (s : State) (id : Nat) (f : Frame) (q : Nat) : State :=
  s.pegDone f (some (s.newCopy f id q false f.group.isSome)) none true false false 5

/-- A stored frame's copy, or a spilled one, enters queue q under the answer of its admission; whether it did. -/
def enterQueue (s : State) (id : Nat) (f : Frame) (q : Nat) (cut mcast : Bool) (a : Admit) : State × Bool :=
  if s.beyondHorizon f q then (((s.bump (F.SC_HORIZON_DROP_COUNT (q / 8))).scEvent 83 (q / 8)).noCopy id f q, false)
  else match a with
  | .die => ((s.modFrame id (fun f => { f with live := f.live + 1 })).pushDie q (s.newCopy f id q cut mcast), true)
  | .hamper =>
    let (t, ok) := s.spillTo id f q mcast
    (if ok then t else t.noCopy id f q, ok)
  | x => ((s.refuseAt q x).noCopy id f q, false)

/-- The frame may be cut through to its one egress port (R168). -/
def cutOk (s : State) (f : Frame) : Bool :=
  match maskList f.egress 41 with
  | [p] =>
    let x := s.queueOf (qOf p f.tc)
    s.effMode f.epoch == 0 && f.group.isNone &&
      (maskOf (s.cfg f.epoch F.SX_CT_EN_LO_PORTS) (s.cfg f.epoch F.SX_CT_EN_HI_PORTS)).testBit p &&
      decide (s.portRate p ≤ s.portRate f.port) && s.portUp p && x.die.isEmpty && x.pages.isEmpty && !f.csumFull &&
      (!hasMac p || (s.mqOf p (s.cfg f.epoch (F.PX_TCMQ_MAP p) / 4 ^ f.tc % 4)).isEmpty)
  | _ => false

/-- Ports that are down leave a frame's egress set (R186). -/
def pruneDown (s : State) (id : Nat) (f : Frame) (ports : List Nat) : State :=
  s.forEach (ports.filter (fun p => !s.portUp p)) (fun t p => (t.bump (F.SX_DROP_DOWN_COUNT p)).noCopy id f (qOf p f.tc))

/-- INGRESS replication of the frame's group (R182). -/
def byCopies (s : State) (f : Frame) : Bool :=
  match f.group with
  | some g => decide (s.cfg f.epoch (F.SX_MC_MODE_MODE g) = 1)
  | none => false

/-- The frame has been enqueued: the ports that took it remain in its egress set; with none it is dropped. -/
def enqueued (s : State) (id : Nat) (took : List Nat) : State :=
  let t := s.modFrame id (fun f => { f with
    stage := .queued
    egress := took.foldl (fun a p => a + 2 ^ p) 0
    times := { f.times with enqueue := some s.now } })
  match t.frameOf id with
  | none => t
  | some f =>
    let u := t.lineCapture id f
    if took = [] then u.discardFrame id
    else if f.live = 0 then (u.modFrame id (fun f => { f with cells := [] })).rearmMarks else u

/-- Enqueue of a frame with one stored copy (R164, R165, R183): every queue is tested against the state before any of
them is charged. -/
def enqueueFabric (s : State) (id : Nat) (f : Frame) (up : List Nat) : State :=
  let cut := s.cutOk f
  let n := if cut && !f.rxDone then cellsFor (s.maxLen f.epoch f.port) else cellsFor f.len
  let mcast := f.group.isSome
  let plan := up.map (fun p => (p, s.admits f (qOf p f.tc) n (some id)))
  let (t, took) := plan.foldl (fun (a : State × List Nat) e =>
    let (u, ok) := a.1.enterQueue id f (qOf e.1 f.tc) cut mcast e.2
    (u, if ok then a.2 ++ [e.1] else a.2)) (s, [])
  (t.enqueued id took).checkMarks

/-- Enqueue of a frame whose group is replicated by copies: the copies are still to be written (R184). -/
def enqueueIngress (s : State) (id : Nat) (f : Frame) : State :=
  match f.group with
  | some g =>
    let t := (s.lineCapture id f).pmu 0x09 g
    t.modFrame id (fun f => { f with stage := .queued, copying := f.egress })
  | none => s

/-- Step 7 for a frame that may be enqueued (R164, R184, R186). -/
def enqueue (s : State) (id : Nat) (f : Frame) : State :=
  let ports := maskList f.egress 41
  if s.byCopies f ∧ ports ≠ [] then s.enqueueIngress id f
  else
    let up := ports.filter s.portUp
    let t := s.pruneDown id f ports
    if ports = [] then t.dropFrame id 5 else if up = [] then t.discardFrame id else t.enqueueFabric id f up

/-- An INGRESS frame's copies are all written: its ingress cells are freed (R184). Where no port took a copy the frame is
dropped. -/
def copiesDone (s : State) (id : Nat) : State :=
  match s.frameOf id with
  | none => s
  | some f =>
    if f.copying ≠ 0 then s
    else if f.egress = 0 then s.discardFrame id
    else if f.kids = 0 ∧ f.live = 0 then s.endFrame id else (s.setFrame id (some { f with cells := [] })).rearmMarks

/-- The INGRESS copies of a frame that are still to be written are discarded, each with its count (R111, R117). -/
def loseCopies (s : State) (id : Nat) (f : Frame) (count : State → Nat → State) : State :=
  ((s.forEach (maskList f.copying 41) (fun t p => (count t p).noCopy id f (qOf p f.tc))).modFrame id (fun f => { f with
    copying := 0, egress := maskDiff f.egress f.copying })).copiesDone id

/-- A port takes no copy of a frame and leaves its egress set. -/
def losePort (s : State) (id : Nat) (f : Frame) (p : Nat) : State :=
  (s.noCopy id f (qOf p f.tc)).modFrame id (fun f => { f with egress := clrBit f.egress p })

/-- A copy of its own that found too few free cells is not written (R184). -/
def copyNoCell (s : State) (id k p : Nat) : State :=
  let t := (s.setFrame k none).modFrame id (fun f => { f with kids := f.kids - 1 })
  (t.bump (F.SX_DROP_NOCELL_COUNT p)).raise 68

/-- The copy engine comes to write the INGRESS copy for one port (R184): a frame set to DROP meanwhile is discarded here
(R24). The frame's own ingress cells are left out of the test (R162). A port that takes no copy leaves the frame's egress
set. -/
def writeCopy (s : State) (id : Nat) (f : Frame) (p : Nat) : State :=
  let q := qOf p f.tc
  if f.verdict ≠ .ok then (s.bump F.SX_DROP_VERDICT_COUNT).losePort id f p
  else if !s.portUp p then (s.bump (F.SX_DROP_DOWN_COUNT p)).losePort id f p
  else if s.beyondHorizon f q then ((s.bump (F.SC_HORIZON_DROP_COUNT p)).scEvent 83 p).losePort id f p
  else match s.admits f q (cellsFor f.len) (some id) with
    | .die =>
      let (t, k) := s.addClone id f
      let u := t.takeCells k (cellsFor f.len)
      match u.frameOf k with
      | some c =>
        if c.cells.length < cellsFor f.len then (u.copyNoCell id k f.port).losePort id f p
        else (u.pushDie q (s.newCopy f k q false true)).checkMarks
      | none => u
    | .hamper =>
      let (t, ok) := s.spillTo id f q true
      (if ok then t else t.losePort id f p).checkMarks
    | x => (s.refuseAt q x).losePort id f p

/-! ### Refill -/

/-- REFILL_MARK of a queue's class (R190). -/
def refillMark (s : State) (q : Nat) : Nat :=
  let v := s.act (F.SX_TC_CFG_REFILL_MARK (q % 8))
  orElse (decide (16 ≤ v)) v 64

/-- A queue whose last page has gone is in DIE again (R172), and one that has emptied has no deficit (R245). -/
def toDie (s : State) (q : Nat) : State :=
  let x := s.queueOf q
  if x.pages.isEmpty then s.setQueue q { x with spill := false, deficit := if x.die.isEmpty then 0 else x.deficit } else s

/-- The copies of a page that can leave it, and the one that goes on in the next page. -/
def pageSplit (p : HPage) (next : Option HPage) : List Copy × List Copy :=
  match next with
  | some n => if n.tail then (p.copies.dropLast, p.copies.getLast?.toList) else (p.copies, [])
  | none => (p.copies, [])

/-- The Hamper's keys (R384, R394): derived from node 6, as two uses of it, at the first page that needs them. -/
def hamKeys (s : State) : State × Option (Nat × Nat) :=
  match s.ce.ham with
  | some k => (s, some k)
  | none =>
    let p := s.keyAt (nodeCell 6)
    let k := (workKdf p (ascii "HAMPER-DATA") 3, workKdf p (ascii "HAMPER-TWEAK") 3)
    match s.kxUse 6 2 with
    | (t, false) => (t, none)
    | (t, true) =>
      match t.kxUse 6 2 with
      | (u, false) => (u, none)
      | (u, true) => ({ u.bump F.KX_DERIVES_COUNT 2 with ce.ham := some k }, some k)

/-- The cells of page n encrypted (R394): cell i under the tweak 16 × n + i. -/
def hamEnc (k : Nat × Nat) (n : Nat) (cells : List (List Byte)) : List (List Byte) :=
  cells.zipIdx.map (fun x => Config.xts k.1 k.2 (16 * n + x.2) x.1)

/-- The cells of page n decrypted. -/
def hamDec (k : Nat × Nat) (n : Nat) (cells : List (List Byte)) : List (List Byte) :=
  cells.zipIdx.map (fun x => (Config.xts k.1 k.2 (16 * n + x.2)).symm x.1)

/-- The cells of the copies that start in a page, taken from its cells in order. -/
def splitCells (s : State) : List Copy → List (List Byte) → List (Copy × List (List Byte))
  | [], _ => []
  | c :: cs, l =>
    let n := match s.frameOf c.frame with | some f => hamCells f.len | none => 0
    (c, l.take n) :: splitCells s cs (l.drop n)

/-- The cells of the frames that a page gives out, in plaintext: those of its first frame that were read before, then its
own, the end of a lost frame passed over. -/
def pageCells (p : HPage) (plain : List (List Byte)) : List (List Byte) :=
  if p.head = [] then plain.drop p.start else p.head ++ plain

/-- A refilled copy takes its on-die cells, and its bytes from the page (R175). -/
def refillCopy (s : State) (q : Nat) (dram : Bool) (c : Copy) (cells : List (List Byte)) : State :=
  let n := match s.frameOf c.frame with | some f => cellsFor f.len | none => 0
  let t := (s.modFrame c.frame (fun f => { f with bytes := hamBytes f cells })).takeCells c.frame n
  let x := t.queueOf q
  (t.setQueue q { x with die := x.die ++ [if dram then { c with hamIn := some s.now } else c] }).notePeak q

/-- The oldest page of a queue, its cells in plaintext, joins the on-die head (R175): `dram` says that it was read from
DRAM. -/
def joinHead (s : State) (q : Nat) (dram : Bool) (p : HPage) (rest : List HPage) (plain : List (List Byte)) : State :=
  let (now_, later) := pageSplit p rest.head?
  let parts := s.splitCells p.copies (pageCells p plain)
  let rest' := match rest with
    | n :: r =>
      if later = [] then rest
      else { n with copies := later ++ n.copies, tail := false, head := (parts.getLast?.map (·.2)).getD [] } :: r
    | [] => []
  let t := s.setQueue q { s.queueOf q with pages := rest' }
  let u := if dram then (t.pmu 0x06 q).arbBytes 1 4096 else t
  let v := if dram ∧ p.enc then (u.bump F.CE_HAM_DEC_PAGES_COUNT).pmu 0x46 0 else u
  ((v.forEach (parts.take now_.length) (fun t x => t.refillCopy q dram x.1 x.2)).toDie q).checkMarks

/-- The oldest page of a queue joins its on-die head (R175, R181): one that was encrypted is decrypted as it is read. -/
def refillPage (s : State) (q : Nat) (dram : Bool) : State :=
  match (s.queueOf q).pages with
  | [] => s
  | p :: rest =>
    if p.enc then
      match s.hamKeys with
      | (t, some k) => t.joinHead q dram p rest (hamDec k p.no p.cells)
      | (t, none) => t
    else s.joinHead q dram p rest p.cells

/-- The page that a refill takes next, and those in flight before it. -/
def nextPage (s : State) (q : Nat) : Option HPage × Nat :=
  let ps := (s.queueOf q).pages
  (ps.find? (fun p => p.state != .refilling), ps.countP (fun p => p.state == .refilling))

/-- The queue's next page could be refilled now: below its mark, with at most two pages in flight, or from staging with
none (R175). -/
def wantsRefill (s : State) (q : Nat) : Bool :=
  decide (s.dieCells q < s.refillMark q) &&
    (match s.nextPage q with
      | (some p, n) => if p.state = .dram then decide (n < 2) else decide (n = 0)
      | (none, _) => false)

/-- Refill serves the queue next (R175): no queue of a higher TC wants it, and of its own TC none before it in the round
robin. -/
def refillTurn (s : State) (q : Nat) : Bool :=
  let rr := Sparse.get (fun _ => 0) s.sx.refillRr (q % 8)
  let place := fun k => (k / 8 + 41 - rr) % 41
  (s.sx.queues.map (·.1)).all (fun k => k == q || (s.queueOf k).pages.isEmpty || !s.wantsRefill k ||
    decide (k % 8 < q % 8) || (decide (k % 8 = q % 8) && decide (place q < place k)))

/-- The round robin of a TC goes on after the queue served. -/
def refillServed (s : State) (q : Nat) : State :=
  { s with sx.refillRr := Sparse.set (fun _ => 0) s.sx.refillRr (q % 8) ((q / 8 + 1) % 41) }

/-- A page is retired (R180). -/
def retirePage (s : State) (no : Nat) : State :=
  ({ s with sx.retired := s.sx.retired ++ [no] }.setRg F.SX_HPAGE_RETIRED_PAGES
    (s.rg F.SX_HPAGE_RETIRED_PAGES + 1)).raise 71

/-- Page k of a queue is lost and retired (R180): the frames that lie in it, wholly or in part, are dropped and counted. -/
def losePage (s : State) (q k no : Nat) : State :=
  let x := s.queueOf q
  let (pages, lost) := pagesAfterLoss x.pages k
  (((s.setQueue q { x with pages := pages }).dropCopies lost 7 (fun t _ => t.bump F.SX_HPAGE_LOST_COUNT)).toDie q).retirePage no
    |>.rearmMarks

/-- The queue that holds page number `no` of DRAM, and its place there. A page of a detached chain has none: its frames
are counted when the chain returns (R178). -/
def pageHolder (s : State) (no : Nat) : Option (Nat × Nat) :=
  s.sx.queues.findSome? (fun e =>
    (e.2.pages.zipIdx.find? (fun x => decide (x.1.no = no ∧ (x.1.state = .dram ∨ x.1.state = .refilling)))).map
      (fun x => (e.1, x.2)))

/-- A free page number in DRAM: neither in use nor retired. -/
def freePageNo (s : State) : Nat :=
  let used := (s.sx.queues.flatMap (fun e => e.2.pages.map (·.no))) ++
    (s.sx.detached.flatMap (fun d => d.pages.map (·.no))) ++ s.sx.retired
  (((List.range (used.length + 2)).drop 1).find? (fun n => !used.contains n)).getD 0

/-- Every Hamper page of every queue is released (R87, R370). -/
def releaseAllPages (s : State) : State :=
  s.forEach (s.sx.queues.map (·.1)) (fun t q =>
    let x := t.queueOf q
    if x.pages.isEmpty then t
    else ((t.setQueue q { x with pages := [] }).toDie q).releasePages (q / 8) false x.pages)

end State

end Sys2Proof.Machine
end

