-- ==== Sys2Proof/Machine/Macsec.lean ====
section
/-!
DEFINITION. The MACsec format of IEEE 802.1AE-2018 as R389 and R390 use it: the SecTAG, the initialisation vectors, and
protecting and verifying the bytes of one frame, FCS excluded.
-/

namespace Sys2Proof.Machine

/-- The key stream of GCM from a byte offset of the ciphertext: block 1 is the tag's, data starts at block 2. -/
def gcmStream (key : Nat) (iv : List Byte) (n : Nat) : List Byte :=
  ((List.range ((n + 15) / 16)).flatMap (fun k => beBytes 16 (Config.gcmBlock key iv (k + 2)))).take n

/-- GCM encryption or decryption of bytes. -/
def gcmXor (key : Nat) (iv bs : List Byte) : List Byte :=
  (bs.zip (gcmStream key iv bs.length)).map (fun x => x.1 ^^^ x.2)

/-- The GCM tag as 16 bytes. -/
def gcmIcv (key : Nat) (iv aad ct : List Byte) : List Byte := beBytes 16 (Config.gcmTag key iv aad ct)

/-- The IV of GCM-AES-256 (R389): SCI and the 32-bit PN. -/
def ivPlain (sci pn : Nat) : List Byte := beBytes 8 sci ++ beBytes 4 pn

/-- The IV of GCM-AES-XPN-256 (R389): SSCI and the 64-bit PN, each XOR its part of the salt. -/
def ivXpn (ssci pn salt : Nat) : List Byte :=
  beBytes 4 (Nat.xor (ssci % 2 ^ 32) (salt / 2 ^ 64 % 2 ^ 32)) ++ beBytes 8 (Nat.xor (pn % 2 ^ 64) (salt % 2 ^ 64))

/-- SL of the SecTAG: the length of the secure data below 48 bytes, else 0. -/
def shortLength (n : Nat) : Nat := if n < 48 then n else 0

/-- The SecTAG of a frame that the gateway sends (R389). -/
def TxSa.secTag (sa : TxSa) (dataLen : Nat) : List Byte :=
  [0x88, 0xE5] ++ beBytes 1 (0x20 + (if sa.conf then 0x0C else 0) + sa.an % 4) ++ beBytes 1 (shortLength dataLen) ++
    beBytes 4 sa.pn ++ beBytes 8 sa.sci

/-- A frame protected at step 9 (R389): SecTAG after the source MAC, ICV at the end. -/
def TxSa.protect (sa : TxSa) (bs : List Byte) : List Byte :=
  let macs := bs.take 12
  let data := bs.drop 12
  let tag := sa.secTag data.length
  if sa.conf then
    let open_ := data.take sa.ofs
    let ct := gcmXor sa.key sa.iv (data.drop sa.ofs)
    macs ++ tag ++ open_ ++ ct ++ gcmIcv sa.key sa.iv (macs ++ tag ++ open_) ct
  else macs ++ tag ++ data ++ gcmIcv sa.key sa.iv (macs ++ tag ++ data) []

/-- A SecTAG as received (R390, step 2). -/
structure SecTag where
  v : Bool
  es : Bool
  sc : Bool
  scb : Bool
  e : Bool
  c : Bool
  an : Nat
  sl : Nat                    -- with its two reserved bits
  pn : Nat
  sci : Nat
  start : Nat                 -- offset of the secure data
  deriving DecidableEq, Repr

/-- The SecTAG of received bytes. -/
def parseSecTag (bs : List Byte) : SecTag :=
  let tci := beAt bs 14 1
  let sc := tci.testBit 5
  { v := tci.testBit 7
    es := tci.testBit 6
    sc := sc
    scb := tci.testBit 4
    e := tci.testBit 3
    c := tci.testBit 2
    an := tci % 4
    sl := beAt bs 15 1
    pn := beAt bs 16 4
    sci := if sc then beAt bs 20 8 else 0
    start := if sc then 28 else 20 }

/-- Length of the secure data of received bytes. -/
def SecTag.dataLen (t : SecTag) (bs : List Byte) : Nat :=
  if t.sl = 0 then bs.length - t.start - 16 else t.sl

/-- The SecTAG is well formed (R390, step 2); SL as IEEE 802.1AE-2018 requires. -/
def SecTag.wellFormed (t : SecTag) (bs : List Byte) : Bool :=
  !t.v && !(t.es && t.sc) && !(t.sc && t.scb) && !(t.e && !t.c) && decide (t.sl < 48) &&
    decide (t.start + (if t.sl = 0 then 48 else t.sl) + 16 ≤ bs.length)

/-- The secure data of received bytes, decrypted under a key where it is encrypted. -/
def SecTag.plain (t : SecTag) (key : Nat) (iv : List Byte) (ofs : Nat) (bs : List Byte) : List Byte :=
  let data := (bs.drop t.start).take (t.dataLen bs)
  bs.take 12 ++ (if t.e then data.take ofs ++ gcmXor key iv (data.drop ofs) else data)

/-- The ICV of received bytes matches (R390, step 7). -/
def SecTag.icvOk (t : SecTag) (key : Nat) (iv : List Byte) (ofs : Nat) (bs : List Byte) : Bool :=
  let n := t.dataLen bs
  let data := (bs.drop t.start).take n
  let icv := (bs.drop (t.start + n)).take 16
  let head := bs.take t.start
  if t.e then gcmIcv key iv (head ++ data.take ofs) (data.drop ofs) == icv
  else gcmIcv key iv (head ++ data) [] == icv

/-- The PN of a frame: with XPN, the full PN recovered from the 32 bits received against the lowest acceptable PN. -/
def recoverPn (xpn : Bool) (lowest pn : Nat) : Nat :=
  if xpn then
    let hi := lowest / 2 ^ 32
    if (lowest % 2 ^ 32).testBit 31 ∧ !pn.testBit 31 then 2 ^ 32 * (hi + 1) + pn else 2 ^ 32 * hi + pn
  else pn

end Sys2Proof.Machine
end

