-- ==== Sys2Proof/Machine/SchedOps.lean ====
section
/-!
DEFINITION. The egress scheduler as operations (08_policy_scheduling.md, R244 to R253): gate lists, the guard, shapers,
the choice of a queue and the hand-over.
-/

namespace Sys2Proof.Machine

/-! ### Gate lists -/

/-- The entries of a gate list as (offset, length, gates) within one cycle (R248): the last entry's gates hold to the
end of the cycle, and an entry that reaches the end is cut there. -/
def gateSegs (cycle : Nat) : List (Nat × Nat) → Nat → List (Nat × Nat × Nat)
  | [], _ => []
  | (g, d) :: rest, off =>
    if off ≥ cycle then []
    else
      let n := if rest = [] then cycle - off else min d (cycle - off)
      (off, n, g) :: gateSegs cycle rest (off + d)

/-- The next instant from t on at which gate c of a list is closed; none for a gate open through the whole cycle. -/
def nextClose (gl : GateList) (t c : Nat) : Option Nat :=
  let segs := gateSegs gl.cycle gl.entries 0
  let closed := segs.filter (fun e => !e.2.2.testBit c)
  match closed.head? with
  | none => none
  | some first =>
    if t < gl.base then some (gl.base + first.1)
    else
      let pos := (t - gl.base) % max 1 gl.cycle
      match closed.find? (fun e => decide (e.1 + e.2.1 > pos)) with
      | some e => some (t - pos + max pos e.1)
      | none => some (t - pos + gl.cycle + first.1)

/-- The longest span that a list keeps gate c open, joined across the cycle boundary; none where it never closes. -/
def longestOpen (gl : GateList) (c : Nat) : Option Nat :=
  let segs := gateSegs gl.cycle gl.entries 0
  if segs.all (fun e => e.2.2.testBit c) then none
  else
    let (best, _) := (segs ++ segs).foldl (fun (a : Nat × Nat) e =>
      let run := if e.2.2.testBit c then a.2 + e.2.1 else 0
      (max a.1 run, run)) (0, 0)
    some best

namespace State

/-- The port's configured gate list, with GCL_EN = 1 (R255 to R257). -/
def gclConfigured (s : State) (p : Nat) : Option GateList :=
  if s.act (F.SC_PORT_CFG_GCL_EN p) = 0 then none
  else
    let n := min 256 (max 1 (s.act (F.SC_PORT_CFG_LIST_LEN p)))
    let ns := s.act (F.SC_BASE_NS_NS p)
    let cy := s.act (F.SC_CYCLE_NS p)
    let rf := s.activeOf 5
    some {
      ti := s.act (F.SC_PORT_CFG_TI_SEL p)
      base := giga * (s.act (F.SC_BASE_SEC_LO_SEC p) + 2 ^ 32 * s.act (F.SC_BASE_SEC_HI_SEC p)) +
        orElse (decide (ns < giga)) ns 0
      cycle := orElse (decide (1000 ≤ cy ∧ cy ≤ giga)) cy 1000000
      entries := (List.range n).map (fun e =>
        if s.entryOk 0x50 (256 * p + e) then
          (rfGet rf (F.SC_GCL_GATES p e), max 1 (rfGet rf (F.SC_GCL_INTERVAL p e)))
        else (0xFF, 1))
      raw := [R.SC_PORT_CFG p, R.SC_BASE_NS p, R.SC_BASE_SEC_LO p, R.SC_BASE_SEC_HI p, R.SC_CYCLE p].map
          (fun o => Sparse.get resetWord rf o) ++
        (List.range 256).map (fun e => Sparse.get resetWord rf (R.SC_GCL p e)) }

/-- The running list of a port. -/
def gclOf (s : State) (p : Nat) : Option GateList := Sparse.get (fun _ => none) s.fx.gcl p

/-- The waiting list of a port and its start. -/
def gclWaiting (s : State) (p : Nat) : Option (GateList × Nat) := Sparse.get (fun _ => none) s.fx.gclNext p

/-- Put the running list. -/
def setGcl (s : State) (p : Nat) (l : Option GateList) : State :=
  { s with fx.gcl := Sparse.set (fun _ => none) s.fx.gcl p l }

/-- Put the waiting list; PENDING shows it (R251). -/
def setWaiting (s : State) (p : Nat) (l : Option (GateList × Nat)) : State :=
  { s with fx.gclNext := Sparse.set (fun _ => none) s.fx.gclNext p l }.setRg (F.SC_GCL_STAT_PENDING p)
    (if l.isSome then 1 else 0)

/-- The late test of R253 on the head of a timed queue: a late head is dropped under LATE_ACT 0, and stays without a
launch hold under LATE_ACT 1; any other waits in its MQ for its launch time (R252). -/
def judgeHead (s : State) (q : Nat) : State :=
  let x := s.queueOf q
  let p := q / 8
  let now : Int := s.tiNs (s.act (F.SC_PORT_CFG_TI_SEL p))
  match x.die with
  | [] => s
  | c :: rest =>
    let late := decide (s.launchOf c q + (s.act (F.SC_LAUNCH_CFG_LATE_LIM p) : Nat) < now)
    if late ∧ s.act (F.SC_LAUNCH_CFG_LATE_ACT p) = 0 then
      (((((s.setQueue q { x with die := rest }).bump (F.SC_LATE_DROP_COUNT p)).pmu 0x31 p).scEvent 81 p).dropCopy c 8).toDie q
    else s.setQueue q { x with die := { c with ready := true, hold := decide (now < s.launchOf c q) && !late } :: rest }

/-- The head of a timed queue has its launch time at most 2 µs ahead (R252). -/
def launchNear (s : State) (q : Nat) : Bool :=
  s.timed q && (s.queueOf q).die.head?.any (fun c =>
    decide (s.launchOf c q ≤ (s.tiNs (s.act (F.SC_PORT_CFG_TI_SEL (q / 8))) : Int) + 2000))

/-- After a move of an instance a ready head whose launch time lies ahead waits for it again, and is no longer ready where
it is not near (R252, R267). -/
def rehold (s : State) (q : Nat) : State :=
  let x := s.queueOf q
  match x.die with
  | c :: rest =>
    if c.ready ∧ s.launchOf c q > (s.tiNs (s.act (F.SC_PORT_CFG_TI_SEL (q / 8))) : Int) then
      s.setQueue q { x with die := { c with ready := s.launchNear q, hold := true } :: rest }
    else s
  | [] => s

/-- The head of a timed queue has become eligible (R252). -/
def headReady (s : State) (q : Nat) : Bool := s.timed q && (s.queueOf q).die.head?.any (·.ready)

/-- The DWRR position of a group: a TC that has the turn, or 8 + the TC whose turn has ended. -/
def turnOf (s : State) (p g : Nat) : Nat := Sparse.get (fun _ => 15) s.sx.turn (2 * p + g - 1)

/-- Put the DWRR position of a group. -/
def setTurn (s : State) (p g t : Nat) : State :=
  { s with sx.turn := Sparse.set (fun _ => 15) s.sx.turn (2 * p + g - 1) t }

/-- A gate that closes ends the turn of its TC (R245). -/
def shutTurns (s : State) (p gates : Nat) : State :=
  s.forEach [1, 2] (fun t g => if t.turnOf p g < 8 ∧ !gates.testBit (t.turnOf p g) then t.setTurn p g (8 + t.turnOf p g) else t)

/-- The gates of a port take these states; where a gate opens, the late test of its TC's head is made again (R253). -/
def showGates (s : State) (p gates : Nat) : State :=
  let was := s.rg (F.SC_GCL_STAT_GATES p)
  let t := (s.setRg (F.SC_GCL_STAT_GATES p) gates).shutTurns p gates
  t.forEach ((List.range 8).filter (fun tc => gates.testBit tc && !was.testBit tc && t.headReady (qOf p tc)))
    (fun t tc => t.judgeHead (qOf p tc))

/-- The port's gates take an entry's states (R248, R258). -/
def showGate (s : State) (p entry : Nat) : State :=
  match s.gclOf p with
  | some gl => (s.setRg (F.SC_GCL_STAT_ENTRY p) entry).showGates p (gl.entries.getD entry (0xFF, 1)).1
  | none => s

/-- The gates of a port are all open: no list runs (R248, R251). -/
def gatesOpen (s : State) (p : Nat) : State :=
  (((s.setGcl p none).setRg (F.SC_GCL_STAT_RUNNING p) 0).setRg (F.SC_GCL_STAT_ENTRY p) 0).showGates p 0xFF

/-- After a TI step the gates jump to the position that the new time gives (R249). -/
def gateJump (s : State) (p : Nat) : State :=
  match s.gclOf p with
  | some gl =>
    match listEntry gl.base gl.cycle (gl.entries.map (·.2)) (s.tiNs gl.ti) with
    | some e => s.showGate p e
    | none => s
  | none => s

/-- A Stitch of CD05 reaches a port's list (R251): a list that is the running one withdraws a waiting one; any other
waits for a start found from this commit instant, be it the list that was waiting. -/
def gclCommit (s : State) (p : Nat) : State :=
  match s.gclConfigured p with
  | none => (s.setWaiting p none).gatesOpen p
  | some gl =>
    if (s.gclOf p).map (·.raw) = some gl.raw then s.setWaiting p none
    else
      let from_ := 1000 + s.tiNs gl.ti
      let start := if gl.base ≥ from_ then gl.base
        else gl.base + (from_ - gl.base + gl.cycle - 1) / gl.cycle * gl.cycle
      s.setWaiting p (some (gl, start))

/-- The gate of a TC on a port is open. -/
def gateOpen (s : State) (p tc : Nat) : Bool := (s.rg (F.SC_GCL_STAT_GATES p)).testBit tc

/-- The next closing of a TC's gate, by the running list up to the waiting list's start, as its instance shows it, and
by the waiting list from then on (R250, R251), in ns of the list's instance. -/
def nextClosing (s : State) (p tc : Nat) : Option (Nat × Nat) :=
  match s.gclOf p, s.gclWaiting p with
  | some gl, none => (nextClose gl (s.tiNs gl.ti) tc).map (fun x => (gl.ti, x))
  | some gl, some (w, st) =>
    match nextClose gl (s.tiNs gl.ti) tc with
    | some x => if x < s.convertStamp w.ti (256 * st) gl.ti then some (gl.ti, x)
      else (nextClose w st tc).map (fun y => (w.ti, y))
    | none => (nextClose w st tc).map (fun y => (w.ti, y))
  | none, some (w, st) => (nextClose w st tc).map (fun y => (w.ti, y))
  | none, none => none

/-- Picoseconds until a port has sent what its MAC and its MQs hold (R250). -/
def backlogPs (s : State) (p : Nat) : Nat :=
  let len := fun (c : Copy) => match s.frameOf c.frame with | some f => f.total | none => 0
  let busy := match s.txOf p with
    | some t => 1000 * t.started + s.sendPs p (len t.copy) - 1000 * s.now
    | none => 0
  busy + (([0, 1, 2, 3].flatMap (s.mqOf p)).map (fun c => s.sendPs p (len c))).sum

/-- Picoseconds of instance i. -/
def tiPs (s : State) (i : Nat) : Nat := 1000 * s.tiNs i + 1000 * (s.tiOf i).frac / 2 ^ 32

/-- The guard of R250: the frame's transmission ends before the next closing of its gate. -/
def guardOk (s : State) (p tc len : Nat) : Bool :=
  match s.nextClosing p tc with
  | none => true
  | some (ti, x) => decide (s.tiPs ti + s.backlogPs p + s.sendPs p len < 1000 * x)

/-- A frame can never pass its gate: it takes longer than the longest open interval (R250). -/
def tooBig (s : State) (p tc len : Nat) : Bool :=
  match s.gclOf p with
  | some gl =>
    match longestOpen gl tc with
    | some d => decide (s.sendPs p len > 1000 * d)
    | none => false
  | none => false

/-! ### Eligibility -/

/-- The shaper's credit of a queue now, in 2^-16 bytes (R246). -/
def creditNow (s : State) (q : Nat) : Int :=
  let x := s.queueOf q
  let cap : Int := 65536 * (s.maxLen (s.epoch % 256) (q / 8) + 20)
  min cap (x.credit + (rateGain (s.act (F.SC_TCQ_SHAPE_RATE (q / 8) (q % 8))) (s.now - x.creditAt) : Nat))

/-- Queue q is shaped. -/
def shaped (s : State) (q : Nat) : Bool := decide (s.act (F.SC_TCQ_SHAPE_RATE (q / 8) (q % 8)) ≠ 0)

/-- The MQ to which a frame's epoch maps a TC (R139). -/
def mqFor (s : State) (c : Copy) : Nat :=
  match s.frameOf c.frame with
  | some f => s.cfg f.epoch (F.PX_TCMQ_MAP c.port) / 4 ^ c.tc % 4
  | none => 0

/-- Bytes of the packet that a frame handed to P38 becomes (R329): its bytes as they leave, without FCS. -/
def downLen (s : State) (f : Frame) : Nat := f.total - 4 + (s.egressBytes f 38).length - f.bytes.length

/-- The MQ of a copy has room, or its internal port takes it (R139, R244, R329). -/
def hasRoom (s : State) (c : Copy) : Bool :=
  if hasMac c.port then decide ((s.mqOf c.port (s.mqFor c)).length < 2)
  else (s.txOf c.port).isNone && (decide (c.port ≠ 38) ||
    match s.frameOf c.frame with
    | some f => s.p38Room c.tc (pqWords (s.downLen f))
    | none => false)

/-- L of a copy's frame. -/
def lenOf (s : State) (c : Copy) : Nat := match s.frameOf c.frame with | some f => f.total | none => 0

/-- A queue is eligible (R244). -/
def eligible (s : State) (q : Nat) : Bool :=
  match (s.queueOf q).die.head? with
  | none => false
  | some c =>
    s.gateOpen (q / 8) (q % 8) && s.guardOk (q / 8) (q % 8) (s.lenOf c) &&
      (!s.shaped q || decide (0 ≤ s.creditNow q)) && (!s.timed q || c.ready) && s.hasRoom c

/-- Heads that leave a queue without being handed over: discarded for their verdict (R24, R25), or too long for their
gate (R250). -/
def cleanHead (s : State) (q : Nat) : State :=
  let x := s.queueOf q
  match x.die with
  | [] => s
  | c :: rest =>
    if s.mustDrop c.frame then
      (((s.setQueue q { x with die := rest }).bump F.SX_DROP_VERDICT_COUNT).dropCopy c 8).toDie q
    else if s.tooBig (q / 8) (q % 8) (s.lenOf c) then
      (((s.setQueue q { x with die := rest }).bump (F.SC_TOO_BIG_COUNT (q / 8))).scEvent 82 (q / 8)).dropCopy c 8 |>.toDie q
    else s

/-- Clean a queue's head until it stays. -/
def cleanQueue (s : State) (q : Nat) : Nat → State
  | 0 => s
  | n + 1 =>
    let t := s.cleanHead q
    if (t.queueOf q).die.length < (s.queueOf q).die.length then t.cleanQueue q n else t

/-! ### Choice -/

/-- GROUP of a queue; reserved acts as strict (R257). -/
def dwrrGroup (s : State) (p tc : Nat) : Nat := s.act (F.SC_TCQ_GROUP p tc) % 3

/-- QUANTUM × 64 bytes of a queue (R245, R257). -/
def quantum (s : State) (p tc : Nat) : Nat :=
  let v := s.act (F.SC_TCQ_QUANTUM p tc)
  64 * orElse (decide (v ≠ 0)) v 24

/-- The priority of a queue: its own TC number, or the highest TC of its DWRR group (R244). -/
def priority (s : State) (p tc : Nat) : Nat :=
  let g := s.dwrrGroup p tc
  if g = 0 then tc
  else ((List.range 8).filter (fun t => s.dwrrGroup p t == g)).foldl max 0

/-- The next member after a TC in ascending rotation. -/
def nextMember (ms : List Nat) (tc : Nat) : Option Nat :=
  match ms.find? (fun m => decide (m > tc)) with
  | some m => some m
  | none => ms.head?

/-- The head of a queue fits its deficit (R245). -/
def fits (s : State) (q : Nat) : Bool :=
  match (s.queueOf q).die.head? with
  | some c => decide (s.lenOf c + 20 ≤ (s.queueOf q).deficit)
  | none => false

/-- Turns pass in a DWRR group until a member's head fits (R245): the state and the member. -/
def dwrrTurn (s : State) (p g : Nat) (ms : List Nat) : Nat → State × Option Nat
  | 0 => (s, none)
  | n + 1 =>
    let cur := s.turnOf p g
    if cur < 8 ∧ ms.contains cur ∧ s.fits (qOf p cur) then (s, some cur)
    else match nextMember ms (cur % 8) with
      | none => (s, none)
      | some m =>
        let x := s.queueOf (qOf p m)
        let t := (s.setQueue (qOf p m) { x with deficit := x.deficit + s.quantum p m }).setTurn p g m
        if t.fits (qOf p m) then (t, some m) else (t.setTurn p g (8 + m)).dwrrTurn p g ms n

/-- The turns of a port's groups whose member has ceased to be eligible pass (R245). -/
def passTurns (s : State) (p : Nat) : State :=
  s.forEach [1, 2] (fun t g =>
    let cur := t.turnOf p g
    if cur < 8 ∧ !t.eligible (qOf p cur) then t.setTurn p g (8 + cur) else t)

/-- The queue that SC serves next on a port (R244, R245). -/
def choose (s0 : State) (p : Nat) : State × Option Nat :=
  let s := s0.passTurns p
  let el := (List.range 8).filter (fun t => s.eligible (qOf p t))
  let best := el.foldl (fun (a : Option Nat) t =>
    match a with
    | none => some t
    | some b => if s.priority p t ≥ s.priority p b then some t else some b) none
  match best with
  | none => (s, none)
  | some t =>
    let g := s.dwrrGroup p t
    if g = 0 then (s, some t)
    else s.dwrrTurn p g (el.filter (fun m => s.dwrrGroup p m == g)) 1400

/-- The deficit and the turn after a member has sent (R245). -/
def chargeTurn (s : State) (p tc n : Nat) : State :=
  let g := s.dwrrGroup p tc
  let q := qOf p tc
  let x := s.queueOf q
  if g = 0 then s
  else
    let t := s.setQueue q { x with deficit := if x.die.isEmpty && x.pages.isEmpty then 0 else x.deficit - n }
    if t.eligible q then t else t.setTurn p g (8 + tc)

/-- The shaper is charged (R246). -/
def chargeShaper (s : State) (q n : Nat) : State :=
  if s.shaped q then
    let x := s.queueOf q
    s.setQueue q { x with credit := s.creditNow q - (65536 * n : Nat), creditAt := s.now }
  else s

/-- A copy reaches the MAC or internal port before its frame has wholly arrived (R168). -/
def noteCut (s : State) (c : Copy) : State :=
  match s.frameOf c.frame with
  | some f => if f.rxDone then s else (s.bump (F.SX_CT_FRAMES_COUNT c.port)).pmu 0x07 c.port
  | none => s

/-- The first bit of a frame leaves port p: its egress stamp is captured where a host descriptor marks it, and for a frame
of SV's own, which SV receives (R268, R270). DESIGN CHOICE (log 84): every frame that SV sends is a marked one. -/
def egressStamp (s : State) (c : Copy) : State :=
  match s.frameOf c.frame with
  | some f =>
    let i := s.stampTi f.epoch c.port
    let t := if hasMac c.port then (((s.tiFine i : Int) + signed24 (s.cfg f.epoch (F.TE_PORT_TXLAT_TX_LAT c.port))) % (256 * tiWrap : Nat)).toNat
      else s.tiFine i
    let u := s.txStamp f c.frame c.port (compactStamp i t)
    if f.port = 39 then u.emit (.svStamp c.port (compactStamp i t)) else u
  | none => s

/-- A timed copy leaves late (R253): its egress instant, TX_LAT included at a MAC, is later than its launch time plus
LATE_LIM. -/
def noteLate (s : State) (c : Copy) (started : Nat) : State :=
  match s.frameOf c.frame with
  | some f =>
    let q := qOf c.port c.tc
    let i := s.act (F.SC_PORT_CFG_TI_SEL c.port)
    let lat := if hasMac c.port then signed24 (s.cfg f.epoch (F.TE_PORT_TXLAT_TX_LAT c.port)) / 256 else 0
    let at_ := (s.tiNs i - (s.now - started) : Int) + lat
    if s.timed q ∧ at_ > s.launchOf c q + (s.act (F.SC_LAUNCH_CFG_LATE_LIM c.port) : Nat) then
      ((s.bump (F.SC_LATE_SENT_COUNT c.port)).pmu 0x31 c.port).scEvent 81 c.port
    else s
  | none => s

/-- An internal port takes a copy; at P38 the DOWN lookup runs now, and a packet that can never fit its queue is dropped
(R329, R335). -/
def takeInternal (s : State) (c : Copy) : State :=
  let n := match s.frameOf c.frame with | some f => s.downLen f | none => 0
  if c.port = 38 ∧ pqWords n > 256 then
    match s.downQueue c.tc with
    | some q => (s.bump (F.BX_PQ_DROP_BIG_COUNT q)).dropCopy c 10
    | none => s.dropCopy c 10
  else
    let early := match s.frameOf c.frame with | some f => !f.rxDone | none => false
    (s.setTx c.port (some ⟨c, s.now, early, if c.port = 38 then s.activeOf 9 else [], [], none⟩)).noteCut c |>.egressStamp c
      |>.noteLate c s.now

/-- SC hands the head of a queue over to its MQ or internal port (R139, R244). -/
def handOver (s : State) (p tc : Nat) : State :=
  let q := qOf p tc
  let x := s.queueOf q
  match x.die with
  | [] => s
  | c :: rest =>
    let c' := { c with deq := some s.now }
    let n := s.lenOf c + 20
    let m := s.mqFor c
    let s1 := ((s.chargeShaper q n).setQueue q { s.chargeShaper q n |>.queueOf q with die := rest })
    let s2 := (s1.pmu 0x02 q).pmu 0x30 p
    let s3 := if hasMac p then s2.setMq p m (s2.mqOf p m ++ [c']) else s2.takeInternal c'
    (s3.chargeTurn p tc n).passTurns p

/-! ### Transmission -/

/-- CE works on the frame at step 9 on this port: it protects it, or must drop it (R389, R392). -/
def ceAtStep9 (s : State) (f : Frame) (p : Nat) : Bool :=
  hasCe p && !linkLocal (leavingDmac f) &&
    (decide (s.cfg f.epoch (F.CE_PORT_CFG_TX_EN p) = 1) ||
      (s.runMode f.epoch == 2 && decide (s.cfg f.epoch (F.CE_PORT_CFG_DESIG p) = 1)))

/-- The head of an MQ may be started: not paused, not held for its launch time, and past step 9 (R140, R252). -/
def startable (s : State) (c : Copy) : Bool :=
  !s.headHeld c && !c.hold &&
    (match s.frameOf c.frame with
      | some f => !s.ceAtStep9 f c.port || c.sealed.isSome
      | none => false)

/-- The head of an MQ is discarded for its verdict (R24). -/
def cleanMq (s : State) (p m : Nat) : State :=
  match s.mqOf p m with
  | [] => s
  | c :: rest =>
    if s.mustDrop c.frame then ((s.setMq p m rest).bump F.SX_DROP_VERDICT_COUNT).dropCopy c 8 else s

/-- A copy at the head of an MQ whose frame must be dropped goes at once, and so does one behind it (R24). -/
def cleanHeads (s : State) : State :=
  s.forEach (s.sx.mqs.map (·.1)) (fun t k => (t.cleanMq (k / 4) (k % 4)).cleanMq (k / 4) (k % 4))

/-- A MAC brings a frame to the 60 bytes of data that the shortest frame has (PRESUMED: IEEE 802.3; log 12). -/
def padShort (bs : List Byte) : List Byte := bs ++ List.replicate (60 - bs.length) 0

/-- The bytes of a copy as they leave, FCS excluded. -/
def leaving (s : State) (c : Copy) : List Byte :=
  match s.frameOf c.frame with
  | some f =>
    match c.sealed with
    | some sa => padShort (sa.protect (s.egressBytes f c.port))
    | none => padShort (s.egressBytes f c.port)
  | none => []

/-- A copy has been sent, whole or stomped, as these bytes (R137, R157). -/
def sentAs (s : State) (t : TxNow) (bs : List Byte) (stomped : Bool) : State :=
  let c := t.copy
  let p := c.port
  let s1 := ((s.bump64 (R.PX_TX_FRAMES p)).bump64 (R.PX_TX_BYTES p) bs.length).csuSee 2 p bs
  let s2 := (((s1.emit (.frame p bs)).setTx p none).plcaEnd p).noteLate c t.started
  match s2.frameOf c.frame with
  | some f => (s2.pegDone f (some c) (some s.now) false stomped c.cut 0).copyGone c.frame (!stomped)
  | none => s2

/-- The bytes on the wire of a stomped frame (R137): `sent` bytes of it had been begun when the fault arrived; none
where the last FCS byte had been begun. -/
def stompBytes (data : List Byte) (whole macsec : Bool) (sent : Nat) : Option (List Byte) :=
  let n := data.length
  let inv := fun (bs : List Byte) => bs.map (fun b => ~~~ b)
  let fcs := fcsBytes data
  if whole ∧ sent ≥ n + 4 then none
  else if whole ∧ sent > n then some (data ++ fcs.take (sent - n) ++ inv (fcs.drop (sent - n)))
  else if macsec then
    let body := n - 16
    if whole ∧ sent > body then
      let d := data.take sent ++ inv (data.drop sent)
      some (d ++ fcsBytes d)
    else
      let d := data.take (min body (max sent 60)) ++ List.replicate 16 0
      some (d ++ fcsBytes d)
  else
    let d := data.take (max sent 60)
    some (d ++ inv (fcsBytes d))

/-- The egress MAC stomps the frame it sends (R137). -/
def stomp (s : State) (p sent : Nat) : State :=
  match s.txOf p with
  | none => s
  | some t =>
    let wh := match s.frameOf t.copy.frame with | some f => f.rxDone && decide (f.badWhy ≠ 2) | none => true
    match stompBytes (s.leaving t.copy) wh t.copy.sealed.isSome sent with
    | some bs => (((s.sentAs t bs true).bump (F.PX_STOMPED_COUNT p))).portEvent 6 p
    | none => s.sentAs t (s.leaving t.copy ++ fcsBytes (s.leaving t.copy)) false

end State

end Sys2Proof.Machine
end

