-- ==== Sys2Proof/Machine/Time.lean ====
section
/-!
DEFINITION. The meanings of the time commands (09_time.md): moving a time instance, the 802.1AS servo, the TSYNC pins
and the FBTC pairs.
-/

namespace Sys2Proof.Machine

/-- The number of edge times START + k × PERIOD (one where PERIOD is 0) that lie before x. -/
def edgesBefore (start period x : Nat) : Nat :=
  if x ≤ start then 0 else if period = 0 then 1 else (x - start - 1) / period + 1

/-- A servo that has seen no Sync. -/
def noServo : Servo := ⟨none, 0, [], 0, false, 0, 0, 0⟩

/-- A TSYNC_OUT pin that has done nothing. -/
def tsoFresh : TsoState := ⟨none, 0, none, false⟩

namespace State

/-! ### The TSYNC_OUT pins -/

/-- What TSYNC_OUT k has done so far. -/
def tsoOf (s : State) (k : Nat) : TsoState := Sparse.get (fun _ => tsoFresh) s.te.tso k

/-- Put the state of TSYNC_OUT k. -/
def setTso (s : State) (k : Nat) (x : TsoState) : State :=
  { s with te.tso := Sparse.set (fun _ => tsoFresh) s.te.tso k x }

/-- PERIOD of pin k (R286). -/
def tsoPeriod (s : State) (k : Nat) : Nat :=
  let v := s.act (F.TE_TSO_PERIOD_NS k)
  orElse (decide (100 ≤ v ∧ v ≤ giga)) v giga

/-- WIDTH of pin k (R286). -/
def tsoWidth (s : State) (k : Nat) : Nat :=
  let v := s.act (F.TE_TSO_WIDTH_NS k)
  orElse (decide (8 ≤ v ∧ v + 8 ≤ s.tsoPeriod k)) v (s.tsoPeriod k / 2)

/-- START of pin k (R286). -/
def tsoStart (s : State) (k : Nat) : Nat :=
  let ns := s.act (F.TE_TSO_START_NS_NS k)
  giga * (s.act (F.TE_TSO_START_SEC_LO_SEC k) + 2 ^ 32 * s.act (F.TE_TSO_START_SEC_HI_SEC k)) +
    orElse (decide (ns < giga)) ns 0

/-- The step between the edge times of pin k, 0 for a single pulse; none where MODE holds the pin inactive (R279). -/
def tsoEvery (s : State) (k : Nat) : Option Nat :=
  match s.act (F.TE_TSO_CFG_MODE k) with
  | 1 => some (s.tsoPeriod k)
  | 2 => some 0
  | _ => none

/-- The level of a pin while its pulse is on or off. -/
def tsoLevel (invert on : Bool) : Bool := on != invert

/-- INVERT of pin k. -/
def tsoInvert (s : State) (k : Nat) : Bool := decide (s.act (F.TE_TSO_CFG_INVERT k) = 1)

/-- The latest edge time of pin k, which steps by `period`, before a time of its instance; none before START. -/
def tsoEdge (s : State) (k period before_ : Nat) : Option Nat :=
  match edgesBefore (s.tsoStart k) period before_ with
  | 0 => none
  | n + 1 => some (s.tsoStart k + n * period)

/-- A step of its instance reaches pin k (R279): edge times that a forward step jumps over are not emitted and count. -/
def tsoSkip (s : State) (i old new k : Nat) : State :=
  if s.act (F.TE_TSO_CFG_TI k) ≠ i then s
  else match s.tsoEvery k with
    | none => s
    | some p =>
      let from_ := match (s.tsoOf k).last with | some l => max old l | none => old
      let n := edgesBefore (s.tsoStart k) p new - edgesBefore (s.tsoStart k) p (from_ + 1)
      if n = 0 then s
      else ((s.setTso k { s.tsoOf k with last := s.tsoEdge k p new }).bump (F.TE_TSO_SKIPPED_COUNT k) n).raiseTePin 136 k i

/-- A step of instance i leaves a pulse in progress on pin k its width in TI time (R279). -/
def tsoShift (s : State) (i : Nat) (d : Int) (k : Nat) : State :=
  match (s.tsoOf k).pulse with
  | some p => if p.ti = i then s.setTso k { s.tsoOf k with pulse := some { p with ends := p.ends + d } } else s
  | none => s

/-- The later of two edge times that are past. -/
def laterEdge : Option Nat → Option Nat → Option Nat
  | some a, some b => some (max a b)
  | some a, none => some a
  | none, b => b

/-- New settings of pin k take effect at its next rising edge at or after the commit instant (R279): earlier edge times
are past, and on the same instance those that were past before stay so. -/
def tsoSettle (s : State) (k : Nat) : State :=
  let x := s.tsoOf k
  let i := s.act (F.TE_TSO_CFG_TI k)
  let past := (s.tsoEvery k).bind (fun p => s.tsoEdge k p (s.tiNs i))
  s.setTso k { x with last := if x.ti = i then laterEdge x.last past else past, ti := i }

/-- The settings of the boot Stitch are in force at once, since none were before (R279; log 97). -/
def tsoBoot (s : State) (k : Nat) : State :=
  let t := s.tsoSettle k
  t.setTso k { t.tsoOf k with invert := s.tsoInvert k }

/-! ### Moving an instance -/

/-- A stream gate's position after a step of its instance (R249). -/
def sgateJump (s : State) (i g : Nat) : State := if s.act (F.FX_SGATE_W2_TI_SEL g) = i then s.sgateShow g else s

/-- The valid stream gates. -/
def validGates (s : State) : List Nat := (List.range 256).filter (fun g => s.act (F.FX_SGATE_W2_VALID g) == 1)

/-- The users of instance i follow a step of it (R267): the FBTC pair, the gate lists, the stream gates, the TSYNC_OUT
pins, the held Stitches and an armed time match. -/
def followMove (s : State) (i old new : Nat) : State :=
  let s0 := s.forEach ((s.sx.queues.map (·.1)).filter (fun q => decide (s.act (F.SC_PORT_CFG_TI_SEL (q / 8)) = i))) rehold
  let s1 := s0.pairIf i
  let s2 := s1.forEach ((List.range 41).filter (fun p => (s1.gclOf p).map (·.ti) == some i)) gateJump
  let s3 := s2.forEach s2.validGates (fun t g => t.sgateJump i g)
  let s4 := s3.forEach [0, 1] (fun t k => (t.tsoSkip i old new k).tsoShift i ((new : Int) - old) k)
  (s4.heldReached i).snapMatch

/-- Instance i moves to a value by a step or a SET, and that is counted and signalled (R264 to R267). -/
def moveTi (s : State) (i : Nat) (new : Int) (frac : Nat) : State :=
  let old := s.tiNs i
  let n := (new % (tiWrap : Int)).toNat
  let t := ((s.setTi i (Ti.ofTotal n frac)).bump (F.TE_TI_STEPS_COUNT i)).raiseTe 129 i
  t.followMove i old (max 0 new).toNat

/-- The RESULT of a command of instance i, and its event (R264). -/
def tiResult (s : State) (a : Agent) (i code : Nat) : State :=
  (s.setRg (F.TE_TI_CMD_RESULT i) code).raiseTe 137 i (some a)

/-- The jump guard refuses (R265). -/
def guardCount (s : State) (i : Nat) : State :=
  ((s.setRg (F.TE_TI_STAT_JUMP_REFUSED i) 1).bump (F.TE_TI_REFUSED_COUNT i)).raiseTe 128 i

/-- AS_EN of instance i: the servo owns it (R277). -/
def owned (s : State) (i : Nat) : Bool := decide (s.act (F.TE_AS_CFG_AS_EN i) = 1)

/-- Instance i is SET (R263). -/
def tiSet (s : State) (i : Nat) : Bool := decide (s.rg (F.TE_TI_STAT_SET i) = 1)

/-- The staged STEP (R282). -/
def stepValue (s : State) (i : Nat) : Int :=
  signed64 (s.rg (F.TE_TI_STEP_LO_STEP i) + 2 ^ 32 * (s.rd (R.TE_TI_STEP_HI i)).toNat)

/-- The staged SET value in nanoseconds (R282). -/
def setValue (s : State) (i : Nat) : Nat :=
  giga * (s.rg (F.TE_TI_SET_SEC_LO_SEC i) + 2 ^ 32 * s.rg (F.TE_TI_SET_SEC_HI_SEC i)) + s.rg (F.TE_TI_SET_NS_NS i)

/-- The staged SET value differs from the present value, its fraction included, by more than JUMP_LIM (R265). -/
def setBeyond (s : State) (i : Nat) : Bool :=
  decide (((2 ^ 32 * s.setValue i : Nat) - (2 ^ 32 * s.tiNs i + (s.tiOf i).frac : Nat) : Int).natAbs > 2 ^ 32 * s.jumpLim i)

/-! ### The 802.1AS servo -/

/-- The servo of instance i. -/
def servoOf (s : State) (i : Nat) : Servo := Sparse.get (fun _ => noServo) s.te.servo i

/-- Put the servo of instance i. -/
def setServo (s : State) (i : Nat) (v : Servo) : State :=
  { s with te.servo := Sparse.set (fun _ => noServo) s.te.servo i v }

/-- The servo's state (R283): 1 LISTENING, 2 LOCKING, 3 LOCKED, 4 HOLDOVER, 5 SLEWING, 6 GRANDMASTER, 7 BIG_OFFSET. -/
def asState (s : State) (i : Nat) : Nat := s.rg (F.TE_AS_STAT_STATE i)

/-- The servo takes a state; a change raises EV_TE_AS_STATE (R276). -/
def toAsState (s : State) (i st : Nat) : State :=
  if s.asState i = st then s else (s.setRg (F.TE_AS_STAT_STATE i) st).raiseTe 131 i

/-- The servo runs on port p for instance i (R274, R283). -/
def asPort (s : State) (i p : Nat) : Bool :=
  s.owned i && (if p < 24 then (s.act (F.TE_AS_PORTS_LO_PORTS i)).testBit p
    else decide (p = 40) && decide (s.act (F.TE_AS_PORTS_HI_P40 i) = 1))

/-- The mean ADJ of the last 16 Sync intervals, rounded towards zero; the ADJ written where no interval has passed
(R276). -/
def meanAdj (s : State) (i : Nat) : Int :=
  let h := (s.servoOf i).hist
  if h.isEmpty then s.adjRaw i else (h.foldl (· + ·) 0).tdiv h.length

/-- The servo enters HOLDOVER on the mean rate of its last Sync intervals (R276). -/
def holdover (s : State) (i : Nat) : State :=
  let h := s.meanAdj i
  let t := s.setServo i { s.servoOf i with hold := h, run := 0, settling := false }
  (t.applyAdj i (twos 32 h)).toAsState i 4

/-- SLEW_MAX of instance i in units of ADJ (R283). -/
def slewAdj (s : State) (i : Nat) : Nat :=
  let v := s.act (F.TE_AS_GUARD_SLEW_MAX i)
  s.incNom i * orElse (decide (1 ≤ v ∧ v ≤ 1000)) v 100 / 1000000

/-- SLEWING towards an offset (R276): ADJ stands above or below the holdover rate until the offset is within 250 ns. -/
def startSlew (s : State) (i : Nat) (off : Int) : State :=
  let v := s.servoOf i
  let d : Int := s.slewAdj i
  (((s.setServo i { v with settling := false, left := 2 ^ 32 * off }).applyAdj i
    (twos 32 (if off < 0 then v.hold - d else v.hold + d)))).toAsState i 5

/-- SLEWING ends: LOCKING, on the holdover rate again (R276). -/
def endSlew (s : State) (i : Nat) : State :=
  ((s.setServo i { s.servoOf i with run := 0, left := 0 }).applyAdj i (twos 32 (s.servoOf i).hold)).toAsState i 2

/-- One CLK_TIME cycle of a slew (R276): ADJ takes the offset down. -/
def slewTick (s : State) (i : Nat) : State :=
  if s.owned i ∧ s.asState i = 5 then
    let v := s.servoOf i
    let left := v.left - (s.adjEff i - v.hold)
    if left.natAbs ≤ 250 * 2 ^ 32 then s.endSlew i else s.setServo i { v with left := left }
  else s

/-- Rate control at one Sync: the ADJ that the servo writes is its own choice, a free value (R275). -/
def rateControl (s : State) (i : Nat) : State := (s.useFree).applyAdj i (s.freeVal % 2 ^ 32)

/-- LOCKED after 8 consecutive Syncs within ±50 ns, LOCKING on any Sync outside ±250 ns (R275). -/
def judgeLock (s : State) (i : Nat) (off : Int) : State :=
  let v := s.servoOf i
  let run := if off.natAbs ≤ 50 then min 8 (v.run + 1) else 0
  let t := s.setServo i { v with run := run, settling := false }
  if run ≥ 8 then t.toAsState i 3
  else if s.asState i = 3 ∧ off.natAbs ≤ 250 then t
  else t.toAsState i 2

/-- A Sync whose offset lies within the guard (R275): rate control, after one step where it is above 250 ns. -/
def servoTrack (s : State) (i : Nat) (off : Int) : State :=
  let t := if off.natAbs ≤ 250 then s else s.moveTi i ((s.tiNs i : Int) + off) (s.tiOf i).frac
  (t.rateControl i).judgeLock i off

/-- An offset above JUMP_LIM (R276): refused, and HOLDOVER with SETTLE running. -/
def servoRefuse (s : State) (i : Nat) (off : Int) (gmChanged : Bool) : State :=
  let s1 := s.guardCount i
  let s2 := if gmChanged then s1.raiseTe 132 i else s1
  let s3 := s2.holdover i
  s3.setServo i { s3.servoOf i with settling := true, first := off }

/-- One Sync on an owned, SET instance (R275, R276). A new grandmaster above JUMP_LIM is refused in every state, and starts
SETTLE afresh but in BIG_OFFSET, which its own offset ends. -/
def servoRun (s : State) (i : Nat) (off : Int) (gmChanged : Bool) : State :=
  let v := s.servoOf i
  if s.asState i = 7 then
    let t := if gmChanged ∧ off.natAbs > s.jumpLim i then (s.guardCount i).raiseTe 132 i else s
    if off.natAbs ≤ 10000000 then t.startSlew i off else t
  else if gmChanged ∧ off.natAbs > s.jumpLim i then s.servoRefuse i off true
  else if s.asState i = 5 then
    if off.natAbs ≤ 250 then s.endSlew i else s.startSlew i off
  else if s.asState i = 4 ∧ v.settling then
    if (off - v.first).natAbs ≤ s.jumpLim i then s else s.setServo i { v with first := off }
  else if off.natAbs ≤ s.jumpLim i then s.servoTrack i off
  else s.servoRefuse i off false

/-- The history of ADJ takes the Sync interval that ends (R276). -/
def noteInterval (s : State) (i : Nat) : State :=
  let v := s.servoOf i
  s.setServo i { v with hist := (s.adjRaw i :: v.hist).take 16 }

/-- A Sync received on a port of instance i (R275 to R277). -/
def syncReceived (s : State) (i port : Nat) (off : Int) (gmid prio : Nat) : State :=
  let lim : Int := 2 ^ 31 - 1
  let changed := s.rd64 (R.TE_AS_GMID_LO i) ≠ gmid % 2 ^ 64
  let s1 := (s.wr64 (R.TE_AS_GMID_LO i) (gmid % 2 ^ 64)).setRg (F.TE_AS_OFFSET_NS i)
    (twos 32 (max (-lim) (min lim off)))
  let s2 := s1.setServo i { s1.servoOf i with slave := some port, prio := prio }
  if s2.tiSet i then (s2.noteInterval i).servoRun i off changed
  else
    let s3 := (s2.moveTi i ((s2.tiNs i : Int) + off) 0).setRg (F.TE_TI_STAT_SET i) 1
    (s3.setServo i { s3.servoOf i with run := 0, settling := false }).toAsState i 2

/-- The best master clock algorithm selects the gateway over a master with this PRIORITY1 (R274): a gateway that may become
grandmaster wins with the lower one; between equal ones the rest of IEEE 802.1AS Clause 10 decides, a free value (log 84). -/
def masterHere (s : State) (i prio : Nat) : State × Bool :=
  let own := s.act (F.TE_AS_CFG_PRIORITY1 i)
  if s.act (F.TE_AS_CFG_GM_CAPABLE i) = 0 then (s, false)
  else if own = prio then (s.useFree, decide (s.freeVal % 2 = 1))
  else (s, decide (own < prio))

/-- The best master clock algorithm once no Sync arrives (R274, R276): a gateway that may become grandmaster does so where no
other master is known, or where it is the better one. -/
def judgeMaster (s : State) (i : Nat) (other : Option Nat) : State :=
  match other with
  | none => if s.act (F.TE_AS_CFG_GM_CAPABLE i) = 1 then s.toAsState i 6 else s
  | some p =>
    let (t, here) := s.masterHere i p
    if here then t.toAsState i 6 else t

/-- A Sync in the domain of instance i under the best master clock algorithm (R274, R276): where the gateway is the better
master it becomes GRANDMASTER on its holdover value and rate, or stays so, and does not follow the Sync. -/
def syncHeard (s : State) (i port : Nat) (off : Int) (gmid prio : Nat) : State :=
  let (t, here) := s.masterHere i prio
  if !here then t.syncReceived i port off gmid prio
  else if t.asState i = 6 then t
  else (t.holdover i).toAsState i 6

/-- A Sync, its Follow_Up and an Announce leave on master port p (R270, R274): two-step transmission. DESIGN CHOICE (log 84):
the Announce, and the request of the peer delay measurement, leave with the Sync. -/
def syncOut (s : State) (i p : Nat) : State :=
  let d := s.act (F.TE_AS_CFG_DOMAIN i)
  let stamp := (((s.tiFine i : Int) + signed24 (s.act (F.TE_PORT_TXLAT_TX_LAT p))) % (256 * tiWrap : Nat)).toNat
  let prio := if s.asState i = 6 then s.act (F.TE_AS_CFG_PRIORITY1 i) else (s.servoOf i).prio
  ((s.emit (.gptpSync i p d)).emit (.gptpFollowUp i p d stamp)).emit (.gptpAnnounce i p d (s.rd64 (R.TE_AS_GMID_LO i)) prio)

/-- The ports of instance i that are up and take part (R274). -/
def asUp (s : State) (i : Nat) : List Nat := ((List.range 24) ++ [40]).filter (fun p => s.asPort i p && s.portUp p)

/-- The master ports of instance i (R274): as grandmaster all, else those that Sync does not come in on; none while it listens
and knows no master. -/
def masterPorts (s : State) (i : Nat) : List Nat :=
  if s.asState i ≤ 1 then [] else (s.asUp i).filter (fun p => s.asState i == 6 || (s.servoOf i).slave != some p)

/-- A capture enters the FIFO of TSYNC_IN k, or is lost (R278). -/
def tsiCapture (s : State) (k : Nat) (rising : Bool) : State :=
  let i := s.act (F.TE_TSI_CFG_TI k)
  let l := Sparse.get (fun _ => []) s.te.tsi k
  let t := s.tiOf i
  if l.length ≥ 8 then (s.bump (F.TE_TSI_LOST_COUNT k)).raiseTePin 135 k i
  else
    let u := { s with te.tsi := Sparse.set (fun _ => []) s.te.tsi k (l ++ [⟨t.sec, t.ns, t.frac / 2 ^ 24, rising⟩]) }
    if l.isEmpty then u.raiseTePin 134 k i else u

/-- The registers that a pop of TSYNC_IN k fills (R285). -/
def tsiPop (s : State) (k : Nat) : State :=
  match Sparse.get (fun _ => []) s.te.tsi k with
  | [] => s
  | c :: rest =>
    let t := { s with te.tsi := Sparse.set (fun _ => []) s.te.tsi k rest }
    let t1 := (t.setRg (F.TE_TSI_SEC_LO_SEC k) c.sec).setRg (F.TE_TSI_SEC_HI_SEC k) (c.sec / 2 ^ 32)
    let t2 := (t1.setRg (F.TE_TSI_SEC_HI_RISING k) (if c.rising then 1 else 0)).setRg (F.TE_TSI_SEC_HI_FRAC k) c.frac
    t2

end State

/-! ### The commands -/

/-- TI_ADJ_WRITE (R261, R277): discarded while the servo owns the instance. -/
def execTiAdjWrite (a : Agent) (i : Nat) (data : Word) (s : State) : Result :=
  .next (s.only (decide (i < 4)) (s.byAgent a (fun s => if s.owned i then s else s.applyAdj i data.toNat)))

/-- TI_STEP (R264 to R267). -/
def execTiStep (a : Agent) (i : Nat) (s : State) : Result :=
  .next (s.only (decide (i < 4)) (s.byAgent a (fun s =>
    let d := s.stepValue i
    if s.owned i then s.tiResult a i 3
    else if d.natAbs > s.jumpLim i then (s.guardCount i).tiResult a i 2
    else (s.moveTi i ((s.tiNs i : Int) + d) (s.tiOf i).frac).tiResult a i 1)))

/-- TI_SET (R263 to R267). -/
def execTiSet (a : Agent) (i : Nat) (s : State) : Result :=
  .next (s.only (decide (i < 4)) (s.byAgent a (fun s =>
    let v := s.setValue i
    if s.owned i then s.tiResult a i 3
    else if s.rg (F.TE_TI_SET_NS_NS i) ≥ giga then s.tiResult a i 4
    else if s.tiSet i ∧ s.setBeyond i then (s.guardCount i).tiResult a i 2
    else ((s.moveTi i v 0).setRg (F.TE_TI_STAT_SET i) 1).tiResult a i 1)))

/-- TI_UNSET (R264, R277): it ends BIG_OFFSET (R276). DEDUCED (log 85): the servo then listens for the Sync that sets the
instance. -/
def execTiUnset (a : Agent) (i : Nat) (s : State) : Result :=
  .next (s.only (decide (i < 4)) (s.byAgent a (fun s =>
    let t := if s.owned i ∧ s.asState i = 7 then s.toAsState i 1 else s
    (t.setRg (F.TE_TI_STAT_SET i) 0).tiResult a i 1)))

/-- SYNC_RECEIVED (R274 to R276): processed on a port that takes part, in the instance's gPTP domain. `offset` is what SV
has measured from the Sync, and its Follow_Up if it is two-step, with the peer delay; `prio` is the PRIORITY1 that the
grandmaster's Announce gave (log 84). -/
def execSyncReceived (i port domain : Nat) (offset : Int) (gmid prio : Nat) (s : State) : Result :=
  .next (s.only (decide (i < 4)) (if s.asPort i port ∧ domain = s.act (F.TE_AS_CFG_DOMAIN i) then
      s.syncHeard i port offset gmid prio
    else s))

/-- SYNC_TIMEOUT (R276): HOLDOVER, then GRANDMASTER where the best master clock algorithm selects the gateway; `other`
is the PRIORITY1 of the best other master that SV knows of. -/
def execSyncTimeout (i : Nat) (other : Option Nat) (s : State) : Result :=
  .next (s.only (decide (i < 4)) (if s.owned i ∧ 1 ≤ s.asState i ∧ s.asState i ≠ 6 then (s.holdover i).judgeMaster i other
    else s))

/-- SETTLE_EXPIRY (R276): SLEWING, or BIG_OFFSET above 10 ms. -/
def execSettleExpiry (i : Nat) (s : State) : Result :=
  .next (s.only (decide (i < 4)) (if s.owned i ∧ s.asState i = 4 ∧ (s.servoOf i).settling then
      let off := signed32 (s.rg (F.TE_AS_OFFSET_NS i))
      if off.natAbs > 10000000 then
        ((s.setServo i { s.servoOf i with settling := false }).toAsState i 7).raiseTe 133 i
      else s.startSlew i off
    else s))

/-- SYNC_TRANSMIT (R274): Sync on each master port, and the peer delay is measured on each port that takes part. -/
def execSyncTransmit (i : Nat) (s : State) : Result :=
  .next (s.only (decide (i < 4)) (if s.owned i then
      (s.forEach (s.masterPorts i) (fun t p => t.syncOut i p)).forEach (s.asUp i)
        (fun t p => t.emit (.gptpPdelayReq i p (t.act (F.TE_AS_CFG_DOMAIN i))))
    else s))

/-- TSYNC_IN_EDGE (R278): captured where EDGE selects it. -/
def execTsyncInEdge (k : Nat) (rising : Bool) (s : State) : Result :=
  .next (s.only (decide (k < 2)) (if (s.act (F.TE_TSI_CFG_EDGE k)).testBit (if rising then 0 else 1) then s.tsiCapture k rising else s))

/-- TSYNC_OUT_EDGE (R279): the pulse in progress ends at its end, or the edge time reached last is emitted where it is
later than every past one. -/
def execTsyncOutEdge (k : Nat) (s : State) : Result :=
  .next (s.only (decide (k < 2)) (match (s.tsoOf k).pulse with
    | some u =>
      if u.ends ≤ s.tiNs u.ti then
        (s.setTso k { s.tsoOf k with pulse := none }).emit (.tsync k (State.tsoLevel u.invert false))
      else s
    | none =>
      let i := s.act (F.TE_TSO_CFG_TI k)
      match (s.tsoEvery k).bind (fun p => s.tsoEdge k p (s.tiNs i + 1)) with
      | none => s
      | some e =>
        if (s.tsoOf k).last.all (fun l => decide (l < e)) then
          (s.setTso k ⟨some e, i, some ⟨i, e + s.tsoWidth k, s.tsoInvert k⟩, s.tsoInvert k⟩).emit
            (.tsync k (State.tsoLevel (s.tsoInvert k) true))
        else s))

/-- FBTC_PAIR (R281). -/
def execFbtcPair (s : State) : Result := .next (if s.socUp then s.takePair else s)

/-- PAIR_GO (R281, R287). -/
def execPairGo (a : Agent) (data : Word) (s : State) : Result :=
  .next (s.byAgent a (fun s => if data.getLsbD 0 then s.takePair else s))

end Sys2Proof.Machine
end

