-- ==== Sys2Proof/Machine/Clock.lean ====
section
/-!
DEFINITION. What passes in one CLK_TIME cycle of 2 ns with no command: the clocks count (09_time.md, R260, R280;
14_sleep_wake.md, R420), and the occupancy events of the PMU accumulate (18_observability_faults.md, R495).
-/

namespace Sys2Proof.Machine

namespace State

/-- The real-time clock has a count in this cycle: 32,768 times a second (R420). -/
def rtcCounts (s : State) : Bool := decide (giga ≤ s.pw.rtcPhase + 2 * 32768)

/-- The count wraps the subseconds. -/
def rtcCarries (s : State) : Bool := s.rtcCounts && decide (32768 ≤ s.pw.rtcSub + 1)

/-- The real-time clock in one cycle; a set takes effect at a subsecond wrap (R420). -/
def rtcTick (s : State) : State :=
  { s with
    pw.rtcPhase := if s.rtcCounts then s.pw.rtcPhase + 2 * 32768 - giga else s.pw.rtcPhase + 2 * 32768
    pw.rtcSub := if s.rtcCarries then 0 else if s.rtcCounts then s.pw.rtcSub + 1 else s.pw.rtcSub
    pw.rtcSec := if s.rtcCarries then s.aon.rtcSet.getD ((s.pw.rtcSec + 1) % 2 ^ 48) else s.pw.rtcSec
    aon.rtcSet := if s.rtcCarries then none else s.aon.rtcSet }

/-- One CLK_TIME cycle of the four time instances (R260), and of a slew of the servo (R276). -/
def tiTick (s : State) : State :=
  s.forEach [0, 1, 2, 3] (fun t i => (t.setTi i ((t.tiOf i).advance (t.incEff i))).slewTick i)

/-- FBTC counts at 80 MHz: 4 counts in 25 cycles of CLK_TIME (R280). -/
def fbtcTick (s : State) : State :=
  if s.te.fbtcPhase + 4 < 25 then { s with te.fbtcPhase := s.te.fbtcPhase + 4 }
  else { s with te.fbtcPhase := s.te.fbtcPhase + 4 - 25, te.fbtc := (s.te.fbtc + 1) % 2 ^ 64 }

/-- A queue holds a frame and its gate is closed (R494). -/
def gateHolds (s : State) (q : Nat) : Bool :=
  !(s.heldCopies q).isEmpty && !s.gateOpen (q / 8) (q % 8)

/-- Pair p of CE works on a frame whose verification has not ended (R494; log 63). -/
def pairBusy (s : State) (p : Nat) : Bool :=
  s.allFrames.any (fun e => e.2.ce.any (fun w => !w.done && decide (s.rg (F.CE_CTX_STAT_W0_CURRENT w.ctx) = p)))

/-- Occupancy of an event of a unit; none for an event that is no occupancy (R494, R495). -/
def occupancy (s : State) (ev q : Nat) : Option Nat :=
  match ev with
  | 0x10 => some (s.dieCells q)
  | 0x11 => some s.heldCells
  | 0x12 => some s.hamUsed
  | 0x13 => some s.hamStage
  | 0x14 => some (if s.gateHolds q then 1 else 0)
  | 0x45 => some (if s.pairBusy q then 1 else 0)
  | _ => none

/-- What counter k's event adds in a cycle: its unit's occupancy, or the sum over all units (R494). -/
def occupancyOf (s : State) (k : Nat) : Option Nat :=
  let ev := s.act (F.OB_PMU_SEL_EVENT k)
  let q := s.act (F.OB_PMU_QUAL_QUAL k)
  if !(pmuCounters ev).contains k then none
  else if q < pmuUnits ev ∨ pmuUnits ev = 0 then s.occupancy ev q
  else if (s.occupancy ev 0).isNone then none
  else some (((List.range (pmuUnits ev)).map (fun u => (s.occupancy ev u).getD 0)).sum)

/-- Cycles of counter k's clock that end in the 2 ns up to the present: two of CLK_CORE at 1.0 GHz, and those of CLK_SEC
at 1.2 GHz (R493). -/
def pmuCycles (s : State) (k : Nat) : Nat := if k < 80 then 2 else s.now * 6 / 5 - (s.now - 2) * 6 / 5

/-- The cycles of counter k in a CLK_TIME cycle (R493, R495). -/
def occupancyTick (s : State) (k : Nat) : State :=
  if s.act (F.OB_PMU_SEL_EN k) = 0 then s
  else match s.occupancyOf k with
    | none => s
    | some n =>
      if s.act (F.OB_PMU_SEL_THRESH_EN k) = 0 then s.pmuAdd k (s.pmuCycles k * n)
      else if n > s.act (F.OB_PMU_SEL_N k) then s.pmuAdd k (s.pmuCycles k)
      else s

/-- A frame, or the second pass of one, is ready at the pipeline input (R496). -/
def slotReady (s : State) : Bool :=
  s.allFrames.any (fun e => !e.2.zombie && e.2.parent.isNone && decide (e.2.verdict ≠ .drop) &&
    ((e.2.pass == 0 && !e.2.cells.isEmpty && (e.2.rxDone || decide (256 ≤ e.2.len))) || e.2.stage == .clear))

/-- A slot that no frame enters is counted (R496): one that CE's full input holds is the command SLOT_ACCOUNT's. -/
def idleSlot (s : State) : State :=
  if s.slotReady && (s.copyWait || s.fx.stalled != 0) then s.slotBack else s.bump64 R.OB_SLOT_FRONT

/-- Two CLK_CORE cycles (R497): those that commands have counted already have passed now, and the others are slots that no
frame enters. -/
def slotTick (s : State) : State :=
  let t := { s with ob.slotAhead := s.ob.slotAhead - 2 }
  if s.ob.slotAhead = 0 then t.idleSlot.idleSlot else if s.ob.slotAhead = 1 then t.idleSlot else t

/-- While the rails fall, the next one goes 3 ms after the EN_* before it (R535); a PG_* that falls earlier comes as
RAIL_PG_LOST. -/
def railTick (s : State) : State :=
  if s.pw.power = .falling ∧ 0 < s.pw.rail ∧ s.pw.fallAt + 3000000 ≤ s.now then
    { s with pw.rail := s.pw.rail - 1, pw.fallAt := s.now }
  else s

/-- One CLK_TIME cycle. -/
def tick2ns (s : State) : State :=
  let t : State := { s with now := s.now + 2 }
  let u := if t.pw.power = .off then t else t.rtcTick.railTick
  if u.socUp then
    (((u.tiTick.fbtcTick).forEach (span 24 12) plcaTick).slotTick).forEach (List.range 96) occupancyTick
  else u

end State

end Sys2Proof.Machine
end

