-- ==== Sys2Proof/Machine/BridgeOps.lean ====
section
/-!
DEFINITION. The PCIe bridge as operations (16_compute_memory_bridge.md, R466 to R470).
-/

namespace Sys2Proof.Machine

/-- First address of the outbound area, and its size (R448). -/
abbrev outBase : Nat := 0x60000000
abbrev outSize : Nat := 0x20000000

/-- Bytes with every group of n reversed. -/
def swapGroups (n : Nat) (bs : List Byte) : List Byte :=
  if n ≤ 1 then bs
  else ((List.range ((bs.length + n - 1) / n)).map (fun i => ((bs.drop (n * i)).take n).reverse)).flatten

/-- INIT of an error record (R473). -/
def initCode : Option Agent → Nat
  | some (.core n) => n.val
  | some .pcie => 8
  | some .sv => 9
  | _ => 15

namespace State

/-! ### Outbound windows -/

/-- An attribute of outbound window w. -/
def owin (s : State) (f : Nat → Fld) (w : Nat) : Nat := s.act (f w)

/-- Bytes that outbound window w maps. -/
def owSize (s : State) (w : Nat) : Nat :=
  let v := s.owin F.MX_HB_OWIN_LSIZE_LSIZE w
  2 ^ orElse (decide (12 ≤ v ∧ v ≤ 29)) v 12

/-- Offset of outbound window w in the outbound area. -/
def owBase (s : State) (w : Nat) : Nat := 4096 * s.owin F.MX_HB_OWIN_LBASE_LBASE w

/-- PCIe address of outbound window w. -/
def owPci (s : State) (w : Nat) : Nat :=
  4096 * s.owin F.MX_HB_OWIN_PBASE_LO_PBASE w + 2 ^ 32 * s.owin F.MX_HB_OWIN_PBASE_HI_PBASE w

/-- The lowest enabled window that an access of n bytes at an offset matches (R467). -/
def owFind (s : State) (off n : Nat) : Option Nat :=
  (List.range 16).find? (fun w => decide (s.owin F.MX_HB_OWIN_ATTR_EN w = 1) && decide (s.owBase w ≤ off) &&
    decide (off + n ≤ s.owBase w + s.owSize w))

/-- The window whose PCIe addresses hold one. -/
def owOfPci (s : State) (a : Nat) : Nat :=
  ((List.range 16).find? (fun w => decide (s.owin F.MX_HB_OWIN_ATTR_EN w = 1) && decide (s.owPci w ≤ a) &&
    decide (a < s.owPci w + s.owSize w))).getD 0

/-- Bytes of a SWAP group (R473). -/
def owSwap (s : State) (w : Nat) : Nat := [1, 2, 4, 8].getD (s.owin F.MX_HB_OWIN_ATTR_SWAP w) 1

/-- Bytes that a read of n bytes fetches: with PREFETCH 64 × 2^DEPTH beyond it too, 4 KiB at most, which is the buffer
(R467). -/
def owFetch (s : State) (w n : Nat) : Nat :=
  if s.owin F.MX_HB_OWIN_ATTR_PREFETCH w = 1 then n + 64 * 2 ^ min 6 (s.owin F.MX_HB_OWIN_ATTR_DEPTH w) else n

/-- Window w is FENCED (R468). -/
def fenced (s : State) (w : Nat) : Bool := (s.rg F.MX_HB_STAT_FENCED).testBit w

/-- An access that the bridge does not support (R467). -/
def outUnsupported (addr n : Nat) : Bool :=
  if n = 1 ∨ n = 2 ∨ n = 4 ∨ n = 8 then decide (addr % n ≠ 0)
  else if n % 8 = 0 ∧ n ≠ 0 ∧ addr % 8 = 0 then decide (addr / 4096 ≠ (addr + n - 1) / 4096)
  else true

/-- The TLPs of an access, in ascending address (R467): WIDTH 1 to 3 splits it into 4, 2 or 1 bytes, and no payload and no
read request passes 512 bytes (R466); a piece ends at a multiple of its size. None goes out while the link is down
(log 61). -/
def sendTlps (s : State) (w : Nat) (write : Bool) (a n : Nat) (bytes : List Byte) : State :=
  let step := match s.owin F.MX_HB_OWIN_ATTR_WIDTH w with
    | 1 => 4
    | 2 => 2
    | 3 => 1
    | _ => 512
  let parts := if s.rg F.MX_HB_STAT_LINK_UP = 0 then 0 else if n = 0 then 1 else (a % step + n + step - 1) / step
  s.forEach (List.range parts) (fun t i =>
    let lo := max a (a - a % step + i * step)
    let hi := min (a + n) (a - a % step + (i + 1) * step)
    t.emit (.tlp write lo (hi - lo) ((bytes.drop (lo - a)).take (hi - lo))))

/-! ### Posted writes -/

/-- A posted write leaves, and is remembered among the last 256 of its window (R468). -/
def sendPosted (s : State) (x : OutWrite) : State :=
  let t := s.sendTlps x.window true x.addr x.bytes.length x.bytes
  let h := Sparse.get (fun _ => []) t.mx.hist x.window
  { t with mx.hist := Sparse.set (fun _ => []) t.mx.hist x.window (((x.addr, x.init) :: h).take 256) }

/-- The queued posted writes leave while the link is up. -/
def drainPosted (s : State) : State :=
  if s.rg F.MX_HB_STAT_LINK_UP = 1 then
    { s with mx.queued := [] }.forEach s.mx.queued sendPosted
  else s

/-- An error record (R473). -/
def hbRecord (s : State) (window inbound init cause addr : Nat) : State :=
  let k := s.rg F.MX_HB_ERR_HEAD_NEXT
  let ti := s.tiOf 0
  let w0 := window + 16 * inbound + 256 * init + 4096 * cause
  let t := (((s.wr (R.MX_HB_ERR_W0 k) (Word.ofNat w0)).wr (R.MX_HB_ERR_W1 k) (Word.ofNat addr)).wr
    (R.MX_HB_ERR_W2 k) (Word.ofNat (addr / 2 ^ 32))).wr (R.MX_HB_ERR_W3 k) (Word.ofNat ti.ns)
  let u := (t.wr (R.MX_HB_ERR_W4 k) (Word.ofNat ti.sec)).wr (R.MX_HB_ERR_W5 k) (Word.ofNat (ti.sec / 2 ^ 32 % 2 ^ 16))
  (u.setRg F.MX_HB_ERR_HEAD_NEXT ((k + 1) % 16)).tick F.MX_HB_ERR_HEAD_TOTAL

/-- A posted write has failed (R468). -/
def postedFail (s : State) (w : Nat) (init : Option Agent) (addr cause : Nat) : State :=
  let t := ((s.hbRecord w 0 (initCode init) cause addr).bump F.MX_HB_POSTED_FAIL_COUNT).raise 224 init
  if t.owin F.MX_HB_OWIN_ATTR_FENCE_ON_FAIL w = 1 ∧ !t.fenced w then
    (t.setRg F.MX_HB_STAT_FENCED (setBit (t.rg F.MX_HB_STAT_FENCED) w)).raise 229
  else t

/-- The posted writes still queued at a link-down or a reset fail; how many had left is not said (R468). -/
def failQueued (s : State) (cause : Nat) : State :=
  let n := s.freeVal % (s.mx.queued.length + 1)
  let t := { s.useFree with mx.queued := [] }
  (t.forEach (s.mx.queued.take n) sendPosted).forEach (s.mx.queued.drop n)
    (fun t x => t.postedFail x.window x.init x.addr cause)

/-! ### Answers in the order of issue (R469) -/

/-- The accesses that may answer now, and those that still wait: one waits while an earlier one of its initiator through
its window does. -/
def orderSplit (blocked : List (Agent × Nat)) : List OutAccess → List OutAccess × List OutAccess
  | [] => ([], [])
  | x :: xs =>
    if x.result.isSome && !blocked.contains (x.init, x.window) then
      let (go, keep) := orderSplit blocked xs
      (x :: go, keep)
    else
      let (go, keep) := orderSplit ((x.init, x.window) :: blocked) xs
      (go, x :: keep)

/-- The accesses whose turn it is answer. -/
def orderDrain (s : State) : State :=
  let (go, keep) := orderSplit [] s.mx.order
  { s with mx.order := keep }.forEach go (fun t x =>
    match x.result with
    | some (ok, bs) => t.emit (.outDone x.init ok bs)
    | none => t)

/-- An access through a window is issued, with its answer where that is known at once. -/
def outIssue (s : State) (a : Agent) (w : Nat) (result : Option (Bool × List Byte)) : State :=
  let x : OutAccess := ⟨s.mx.nextAcc, a, w, result⟩
  { s with mx.order := s.mx.order ++ [x], mx.nextAcc := s.mx.nextAcc + 1 }.orderDrain

/-- An earlier access of the initiator through the window has not answered. -/
def outBehind (s : State) (a : Agent) (w : Nat) : Bool := s.mx.order.any (fun x => decide (x.init = a) && x.window == w)

/-- An access has its answer. -/
def outEnd (s : State) (acc : Nat) (ok : Bool) (bs : List Byte) : State :=
  { s with mx.order := s.mx.order.map (fun (x : OutAccess) => if x.acc = acc then { x with result := some (ok, bs) } else x) }.orderDrain

/-! ### Reads -/

/-- A read is sent. -/
def sendRead (s : State) (r : OutRead) : State := s.sendTlps r.window false r.addr r.fetch []

/-- A read joins the outstanding ones; the first 64 are in flight (R466). -/
def addRead (s : State) (r : OutRead) : State :=
  let t := { s with mx.reads := s.mx.reads ++ [r] }.outIssue r.init r.window none
  if s.mx.reads.length < 64 then t.sendRead r else t

/-- Read n in flight has ended; the oldest that waited is sent. -/
def dropRead (s : State) (n : Nat) : State :=
  let t := { s with mx.reads := s.mx.reads.eraseIdx n }
  match s.mx.reads[64]? with
  | some r => t.sendRead r
  | none => t

/-- The prefetch buffer of a window. -/
def preOf (s : State) (w : Nat) : Option (Nat × List Byte) := Sparse.get (fun _ => none) s.mx.pre w

/-- Set the prefetch buffer of a window. -/
def setPre (s : State) (w : Nat) (x : Option (Nat × List Byte)) : State :=
  { s with mx.pre := Sparse.set (fun _ => none) s.mx.pre w x }

/-- The bytes of a read, where the prefetch buffer holds them all. -/
def preRead (s : State) (w a n : Nat) : Option (List Byte) :=
  match s.preOf w with
  | some (b, bs) => if b ≤ a ∧ a + n ≤ b + bs.length then some ((bs.drop (a - b)).take n) else none
  | none => none

/-- An outbound read fails (R469); a failed flush read fails its write (R468). -/
def readFails (s : State) (r : OutRead) (cause : Nat) : State :=
  let t := if r.flush then s.postedFail r.window (some r.init) r.addr 4
    else ((s.hbRecord r.window 0 (initCode (some r.init)) cause r.addr).bump F.MX_HB_READ_FAIL_COUNT).raise 225 (some r.init)
  t.outEnd r.acc false []

/-- Every outbound read ends with an error response (R470). -/
def endReads (s : State) : State :=
  { s with mx.reads := [] }.forEach s.mx.reads (fun t r =>
    let u := if r.flush then t.postedFail r.window (some r.init) r.addr 4 else t
    u.outEnd r.acc false [])

/-! ### Inbound windows -/

/-- Bytes that inbound window w maps. -/
def iwSize (s : State) (w : Nat) : Nat :=
  let v := s.act (F.MX_HB_IWIN_SIZE_SIZE w)
  2 ^ orElse (decide (12 ≤ v ∧ v ≤ 36)) v 12

/-- Base of inbound window w. -/
def iwBase (s : State) (w : Nat) : Nat :=
  4096 * s.act (F.MX_HB_IWIN_IBASE_LO_IBASE w) + 2 ^ 32 * s.act (F.MX_HB_IWIN_IBASE_HI_IBASE w)

/-- DRAM address of inbound window w. -/
def iwDram (s : State) (w : Nat) : Nat :=
  4096 * s.act (F.MX_HB_IWIN_LADDR_LO_LADDR w) + 2 ^ 32 * s.act (F.MX_HB_IWIN_LADDR_HI_LADDR w)

/-- MX_HB_MSI_ADDR (R466). -/
def msiAddr (s : State) : Nat := s.act F.MX_HB_MSI_ADDR_LO_ADDR + 2 ^ 32 * s.act F.MX_HB_MSI_ADDR_HI_ADDR

/-- Bytes of BAR2 (R466, R473). -/
def bar2Size (s : State) : Nat :=
  let v := s.act F.MX_HB_CFG_BAR2_SIZE
  2 ^ orElse (decide (20 ≤ v ∧ v ≤ 36)) v 30

/-- The inbound window that holds a request of n bytes, lowest first. -/
def iwFind (s : State) (a n : Nat) : Option Nat :=
  (List.range 8).find? (fun w => decide (s.act (F.MX_HB_IWIN_SIZE_EN w) = 1) && decide (s.iwBase w ≤ a) &&
    decide (a + n ≤ s.iwBase w + s.iwSize w))

/-- An inbound request completes as Unsupported Request, or is discarded where it is a posted write (R467). -/
def inboundUr (s : State) (w : Nat) (write : Bool) (a : Nat) : State :=
  let t := ((s.hbRecord w 1 8 7 a).bump F.MX_HB_INB_ERR_COUNT).raise 228
  if write then t else t.emit (.completion 1 [])

end State

end Sys2Proof.Machine
end

