-- ==== Sys2Proof/Machine/Bridge.lean ====
section
/-!
DEFINITION. The meanings of the commands of the PCIe bridge (16_compute_memory_bridge.md, R466 to R470).
-/

namespace Sys2Proof.Machine

namespace State

/-- A write through a window (R467, R468). -/
def outWrite (s : State) (a : Agent) (w pci : Nat) (data : List Byte) : State :=
  let bs := swapGroups (s.owSwap w) data
  let t := s.setPre w none
  if t.owin F.MX_HB_OWIN_ATTR_POSTED w = 1 ∧ !t.fenced w then
    let x : OutWrite := ⟨w, some a, pci, bs⟩
    let u := { t with mx.queued := t.mx.queued ++ [x] }
    if u.outBehind a w then (u.outIssue a w (some (true, []))).answer .none else u.answer .done
  else
    ((t.sendTlps w true pci bs.length bs).addRead ⟨w, a, pci, 0, 0, true, t.mx.nextAcc⟩).answer .none

/-- A read through a window (R467). -/
def outRead (s : State) (a : Agent) (w pci n : Nat) : State :=
  match s.preRead w pci n with
  | some bs => (s.outIssue a w (some (true, swapGroups (s.owSwap w) bs))).answer .none
  | none => (s.addRead ⟨w, a, pci, n, s.owFetch w n, false, s.mx.nextAcc⟩).answer .none

/-- An access to DRAM (R448, R449): a core's write stays in its caches, and its load of a bad unit takes an access fault
(R464). The Hamper's region and what lies above gives an error response (R169). -/
def coreDram (s : State) (a : Agent) (write : Bool) (addr n : Nat) (data : List Byte) : State :=
  if !s.dramOk addr n then s.answer .busError
  else if write then (s.cacheWr addr (slice0 data 0 n)).answer .done
  else match s.badUnit addr n, a with
    | some u, .core k => ((s.dramUe u).emit (.accessFault k.val addr)).answer .busError
    | some u, _ => (s.dramUe u).answer .busError
    | none, _ => (s.emit (.outDone a true (s.dramRd addr n))).answer .none

end State

/-- A reserved range of the core map (R448): an access raises an access fault. -/
def mapReserved (addr : Nat) : Bool :=
  decide (addr < 0x40000000) || decide (0x50000000 ≤ addr ∧ addr < outBase) ||
    decide (outBase + outSize ≤ addr ∧ addr < dramBase) || decide (dramEnd ≤ addr)

/-- OUTBOUND_ACCESS (R448, R467): by a core, or by SV, of `size` bytes at an address of the core map: in the outbound
area, in DRAM, or in a reserved range. The register space has commands of its own. -/
def execOutboundAccess (a : Agent) (write : Bool) (addr size : Nat) (data : List Byte) (s : State) : Result :=
  .next (if !s.socUp then s.answer .noAnswer
    else if mapReserved addr then s.answer .busError
    else if dramBase ≤ addr then s.coreDram a write addr size data
    else if addr < outBase then s
    else if State.outUnsupported addr size then (s.bump F.MX_HB_SIZE_ERR_COUNT).answer .busError
    else match s.owFind (addr - outBase) size with
      | none => s.answer .busError
      | some w =>
        let pci := s.owPci w + (addr - outBase - s.owBase w)
        if write then s.drainPosted.outWrite a w pci (slice0 data 0 size) else s.drainPosted.outRead a w pci size)

/-- OUTBOUND_COMPLETION (R467, R469): of the n-th read in flight, with its data, or with an error status. -/
def execOutboundCompletion (n : Nat) (ok : Bool) (data : List Byte) (s : State) : Result :=
  .next (match s.mx.reads[n]? with
    | none => s
    | some r =>
      if n ≥ 64 then s
      else
        let t := s.drainPosted.dropRead n
        if !ok then t.readFails r 6
        else if r.flush then t.outEnd r.acc true []
        else
          let bs := slice0 data 0 r.fetch
          let u := if r.fetch > r.size then t.setPre r.window (some (r.addr + r.size, bs.drop r.size)) else t
          u.outEnd r.acc true (swapGroups (s.owSwap r.window) (bs.take r.size)))

/-- OUTBOUND_READ_TIMEOUT (R469): the n-th read in flight has no completion after 50 ms. -/
def execOutboundReadTimeout (n : Nat) (s : State) : Result :=
  .next (match s.mx.reads[n]? with
    | none => s
    | some r => if n ≥ 64 then s else (s.drainPosted.dropRead n).readFails r 5)

/-- PREFETCH_EXPIRY (R467). -/
def execPrefetchExpiry (w : Nat) (s : State) : Result := .next (s.only (decide (w < 16)) (s.setPre w none))

/-- A device's write to MX_HB_MSI_ADDR in root-port mode (R466). -/
def State.msiTake (s : State) (data : Nat) : State :=
  if s.mx.msi.length ≥ 16 then s.bump F.MX_HB_MSI_LOST_COUNT
  else { s with mx.msi := s.mx.msi ++ [data % 2 ^ 32] }.raise 227

/-- INBOUND_REQUEST (R464, R466, R467): a read or a posted write of the PCIe host, at an offset in BAR2, or of a device,
at a PCIe address; `ecc` marks an uncorrectable DRAM error that the read meets. -/
def execInboundRequest (write : Bool) (addr size : Nat) (data : List Byte) (ecc : Bool) (s : State) : Result :=
  .next (if !s.socUp ∨ s.rg F.SV_CFG_STATUS_DONE = 0 then s
    else if s.pw.rootPort ∧ write ∧ addr = s.msiAddr then s.msiTake (ofLe (slice0 data 0 4))
    else if !s.pw.rootPort ∧ s.bar2Size < addr + size then s.inboundUr 0 write addr
    else match s.iwFind addr size with
      | none => s.inboundUr 0 write addr
      | some w =>
        let a := s.iwDram w + (addr - s.iwBase w)
        if !s.dramOk a size then s.inboundUr w write addr
        else
          let t := s.arbBytes 3 size
          if write then t.dramWr a (slice0 data 0 size)
          else if ecc ∨ (t.badUnit a size).isSome then
            (t.dramUe ((t.badUnit a size).getD a)).emit (.completion 2 (t.dramRd a size))
          else t.emit (.completion 0 (t.dramRd a size)))

/-- PCIE_ERROR_MESSAGE (R468): in root-port mode a device's error message names a write by its address. -/
def execPcieErrorMessage (addr : Nat) (fatal : Bool) (s : State) : Result :=
  .next (if s.socUp ∧ s.pw.rootPort then
      let t := s.drainPosted
      let cause := if fatal then 1 else 0
      match (List.range 16).findSome? (fun w =>
          ((Sparse.get (fun _ => []) t.mx.hist w).find? (fun e => decide (e.1 = addr))).map (fun e => (w, e.2))) with
      | some (w, init) => t.postedFail w init addr cause
      | none => t.postedFail (t.owOfPci addr) none addr cause
    else s)

/-- PCIE_RESET (R470): a fundamental or hot reset in endpoint mode. -/
def execPcieReset (s : State) : Result :=
  .next (if s.socUp ∧ !s.pw.rootPort then (s.failQueued 3).endReads else s)

/-- PCIE_LINK_CHANGE (R466, R468, R470). -/
def execPcieLinkChange (up : Bool) (gen width : Nat) (s : State) : Result :=
  .next (if !s.socUp then s
    else if up then
      (((s.setRg F.MX_HB_STAT_LINK_UP 1).setRg F.MX_HB_STAT_GEN (min gen (s.act F.MX_HB_CFG_MAX_GEN + 1))).setRg
        F.MX_HB_STAT_WIDTH width).drainPosted.raise 226
    else
      let t := s.failQueued 2
      let u := if s.pw.rootPort then t else t.endReads
      (((u.setRg F.MX_HB_STAT_LINK_UP 0).setRg F.MX_HB_STAT_GEN 0).setRg F.MX_HB_STAT_WIDTH 0).raise 226)

/-- ROOT_MSI_WRITE (R466): a device's write to MX_HB_MSI_ADDR in root-port mode. -/
def execRootMsiWrite (data : Nat) (s : State) : Result :=
  .next (if s.socUp ∧ s.pw.rootPort then s.msiTake data else s)

/-- A read of MX_HB_MSI_DATA pops the FIFO; VALID then tells whether it held an entry (R466, R473). -/
def State.msiPop (s : State) : State :=
  match s.mx.msi with
  | _ :: rest => { s with mx.msi := rest }.setRg F.MX_HB_MSI_VALID_VALID 1
  | [] => s.setRg F.MX_HB_MSI_VALID_VALID 0

/-- FENCE_CLR (R468). -/
def execFenceClr (a : Agent) (data : Word) (s : State) : Result :=
  .next (s.byAgent a (fun s =>
    s.setRg F.MX_HB_STAT_FENCED (maskDiff (s.rg F.MX_HB_STAT_FENCED) (F.MX_HB_FENCE_CLR_WINDOWS.get data))))

end Sys2Proof.Machine
end

