-- ==== Sys2Proof/Machine/CanOps.lean ====
section
/-!
DEFINITION. The CAN controllers as operations (10_can_controllers.md): settings in force, objects and their data,
requests and cancels, the choice, the error states, and CONFIG and MEND.
-/

namespace Sys2Proof.Machine

/-- Bytes of an FD data length code (R302, ISO 11898-1). -/
def fdLen (dlc : Nat) : Nat := [0, 1, 2, 3, 4, 5, 6, 7, 8, 12, 16, 20, 24, 32, 48, 64].getD dlc 64

/-- The smallest data length code whose length holds n bytes (R341). -/
def fdDlc (n : Nat) : Nat := ((List.range 16).find? (fun d => decide (n ≤ fdLen d))).getD 15

/-- Rank of a frame under ORDER = 0, lower first (R303). -/
def arbRank (f : CanFrame) : Nat :=
  let base := if f.ide then f.id / 2 ^ 18 else f.id % 2 ^ 11
  let ext := if f.ide then f.id % 2 ^ 18 else 0
  base * 2 ^ 22 + (if f.ide then 2 ^ 21 else 0) + (if f.rtr then 2 ^ 20 else 0) + f.format * 2 ^ 18 + ext

/-- The arbitration value that R313 compares: the base identifier in bits [28:18], extended bits in [17:0]. -/
def arbValue (f : CanFrame) : Nat := if f.ide then f.id else f.id % 2 ^ 11 * 2 ^ 18

/-- The identifier bits of a standard or extended frame (R307). -/
def idBits (ide : Bool) (v : Nat) : Nat := if ide then v % 2 ^ 29 else v % 2 ^ 11

/-- (a XOR b) AND mask is 0 on the identifier bits. -/
def idMatch (ide : Bool) (a b mask : Nat) : Bool := decide (Nat.land (Nat.xor (idBits ide a) (idBits ide b)) mask = 0)

/-- The configuration domain of a controller's registers (R321). -/
def canCd (c : Nat) : Nat := if c < 8 then 7 else 8

/-- A controller that keeps nothing. -/
def noCan : CanState := ⟨none, none, 0, none, [], false, false, []⟩

/-- Minimum time quanta from the start of a nominal bit to its sample point (R295). -/
def canSample (rf : RegFile) (c : Nat) : Nat :=
  let n1 := rfGet rf (F.BX_CAN_NBT_TSEG1 c)
  (rfGet rf (F.BX_CAN_NBT_BRP c) + 1) * (1 + (if n1 = 0 then 2 else n1 + 1))

/-- Controller c's registers within a register file. -/
def canRegion (rf : RegFile) (c : Nat) : RegFile :=
  rf.filter (fun e => decide (R.BX_CAN_CFG c ≤ e.1 ∧ e.1 < R.BX_CAN_CFG (c + 1)))

/-- The blocks of an object's chain: at most n from block b (R298, R321). -/
def canChain (rf : RegFile) (c : Nat) : Nat → Nat → List Nat
  | 0, _ => []
  | n + 1, b =>
    let nxt := rfGet rf (F.BX_CAN_LINK_NEXT c b)
    if nxt ≥ 768 then [b] else b :: canChain rf c n nxt

/-- The blocks of object o (R298, R321). -/
def canBlocks (rf : RegFile) (c o : Nat) : List Nat :=
  let b := rfGet rf (F.BX_CAN_OBJCFG_W2_BUF c o)
  canChain rf c (rfGet rf (F.BX_CAN_OBJCFG_W2_NBLK c o) + 1) (orElse (decide (b < 768)) b 0)

/-- The object is valid with this direction (R299). -/
def canIs (rf : RegFile) (c o dir : Nat) : Bool :=
  decide (rfGet rf (F.BX_CAN_OBJCFG_W0_VALID c o) = 1) && decide (rfGet rf (F.BX_CAN_OBJCFG_W0_DIR c o) = dir)

/-- The object belongs to the gateway (R315). -/
def canGw (rf : RegFile) (c o : Nat) : Bool := decide (rfGet rf (F.BX_CAN_OBJCFG_W2_GW c o) = 1)

/-- XL frames are accepted and sent (R318). -/
def canXl (rf : RegFile) (c : Nat) : Bool := decide (8 ≤ c) && decide (rfGet rf (F.BX_CAN_CFG_XL_EN c) = 1)

/-- FD frames are accepted and sent (R318). -/
def canFd (rf : RegFile) (c : Nat) : Bool := decide (rfGet rf (F.BX_CAN_CFG_FD_EN c) = 1)

/-- The controller accepts the format (R291). -/
def canTakes (rf : RegFile) (c format : Nat) : Bool :=
  if format = 0 then true else if format = 1 then canFd rf c else canXl rf c

/-- The bit timing lets the controller leave OFF or CONFIG (R295, R297). -/
def canTimingOk (rf : RegFile) (c : Nat) : Bool :=
  let g := fun f => rfGet rf f
  let nom := canSample rf c + (g (F.BX_CAN_NBT_BRP c) + 1) * (g (F.BX_CAN_NBT_TSEG2 c) + 1)
  let dat := (g (F.BX_CAN_DBT_BRP c) + 1) * (1 + (g (F.BX_CAN_DBT_TSEG1 c) + 1) + (g (F.BX_CAN_DBT_TSEG2 c) + 1))
  let xl := (g (F.BX_CAN_XBT_BRP c) + 1) * (1 + (g (F.BX_CAN_XBT_TSEG1 c) + 1) + (g (F.BX_CAN_XBT_TSEG2 c) + 1))
  decide (160 ≤ nom) && decide (g (F.BX_CAN_NBT_SJW c) ≤ g (F.BX_CAN_NBT_TSEG2 c)) &&
    (!canFd rf c || (decide (20 ≤ dat) && decide (g (F.BX_CAN_DBT_SJW c) ≤ g (F.BX_CAN_DBT_TSEG2 c)))) &&
    (!canXl rf c || (decide ((if g (F.BX_CAN_XLPWM_TMS c) = 1 then 8 else 20) ≤ xl) &&
      decide (g (F.BX_CAN_XBT_SJW c) ≤ g (F.BX_CAN_XBT_TSEG2 c))))

namespace State

/-- What controller c keeps beside its registers. -/
def canOf (s : State) (c : Nat) : CanState := Sparse.get (fun _ => noCan) s.bx.can c

/-- Put what controller c keeps. -/
def setCan (s : State) (c : Nat) (x : CanState) : State :=
  { s with bx.can := Sparse.set (fun _ => noCan) s.bx.can c x }

/-- The settings in force on controller c (R294). -/
def canRf (s : State) (c : Nat) : RegFile := (s.canOf c).old.getD (s.activeOf (canCd c))

/-- STATE of controller c (R320). -/
def canState (s : State) (c : Nat) : Nat := s.rg (F.BX_CAN_STAT_STATE c)

/-- The controller takes part on the bus (R292). -/
def canLive (s : State) (c : Nat) : Bool := s.canState c == 3 || s.canState c == 4

/-- MODE in force on controller c (R293). -/
def canMode (s : State) (c : Nat) : Nat := rfGet (s.canRf c) (F.BX_CAN_CFG_MODE c)

/-- The mode of the integrated transceiver of CANc, c below 8 (R290). -/
def xcvr (s : State) (c : Nat) : Xcvr :=
  if s.canState c = 0 ∨ s.canState c = 1 ∨ s.canState c = 7 then .standby
  else if s.canMode c = 1 then .receiveOnly
  else .normal

/-- A wake frame on bus c is seen: in standby the integrated transceiver watches for it (R290), and elsewhere the
controller receives it like any other frame (R411: SoC modes, any bus). -/
def seesWake (s : State) (c : Nat) : Bool :=
  (decide (c < 8) && decide (s.xcvr c = .standby)) || (s.canLive c && decide (s.canMode c ≠ 3))

/-- Event 144 + e occurs on controller c (R325). -/
def canEvent (s : State) (e c : Nat) : State :=
  (s.setRg (F.BX_CAN_EVCTL_CTL e) (setBit (s.rg (F.BX_CAN_EVCTL_CTL e)) c)).raise (144 + e)

/-! ### Objects -/

/-- Status of object o (R300). -/
def objStatus (s : State) (c o : Nat) : Nat := s.rg (F.BX_CAN_OBJ_W0_STATUS c o)

/-- Set the status of object o. -/
def setStatus (s : State) (c o st : Nat) : State := s.setRg (F.BX_CAN_OBJ_W0_STATUS c o) st

/-- An object event (R315, R323, R325): e is 5 for RX_FULL, 6 for a terminal status. -/
def objEvent (s : State) (c o e : Nat) : State :=
  let rf := s.canRf c
  if canGw rf c o ∨ rfGet rf (F.BX_CAN_OBJCFG_W2_EV c o) = 0 then s
  else (s.setRg (F.BX_CAN_DONE_DONE c (o / 32)) (setBit (s.rg (F.BX_CAN_DONE_DONE c (o / 32))) (o % 32))).canEvent e c

/-- Object o takes a terminal status (R300). -/
def objEnds (s : State) (c o st : Nat) : State :=
  ((s.setRg (F.BX_CAN_OBJ_W0_CANCEL_REQ c o) 0).setStatus c o st).objEvent c o 6

/-- The stamp of an object (R310). -/
def objStamp (s : State) (c o t : Nat) : State :=
  (s.wr (R.BX_CAN_OBJ_W5 c o) (Word.ofNat t)).wr (R.BX_CAN_OBJ_W6 c o) (Word.ofNat (t / 2 ^ 32))

/-- The objects of controller c that are PENDING. -/
def pendingObjs (s : State) (c : Nat) : List Nat := (List.range 128).filter (fun o => s.objStatus c o == 1)

/-- n bytes of an object's data (R298). -/
def objData (s : State) (c o n : Nat) : List Byte :=
  ((canBlocks (s.canRf c) c o).take ((n + 63) / 64)).flatMap (fun b =>
    (List.range 16).flatMap (fun i => leBytes 4 (s.rd (R.BX_CAN_RAM c (16 * b + i))).toNat)) |>.take n

/-- The message RAM words that hold an object's first n bytes (R298). -/
def objWords (s : State) (c o n : Nat) : List Nat :=
  ((canBlocks (s.canRf c) c o).flatMap (fun b => (List.range 16).map (fun i => 16 * b + i))).take ((n + 3) / 4)

/-- Word w of the message RAM can not be read: it, or the other word of its 64-bit code word, is lost (R317). -/
def ramBad (s : State) (c w : Nat) : Bool := (s.canOf c).bad.any (fun k => decide (k / 2 = w / 2))

/-- The first word of an object's first n bytes that can not be read (R317). -/
def objBadWord (s : State) (c o n : Nat) : Option Nat := (s.objWords c o n).find? (s.ramBad c)

/-- The code word of word w is lost (R317). DESIGN CHOICE (log 94): it can be read again once both its words have been written. -/
def ramLost (s : State) (c w : Nat) : State :=
  s.setCan c { s.canOf c with bad :=
    w / 2 * 2 :: (w / 2 * 2 + 1) :: (s.canOf c).bad.filter (fun k => decide (k / 2 ≠ w / 2)) }

/-- Words of the message RAM are written and hold good data again (R317). -/
def ramGood (s : State) (c : Nat) (words : List Nat) : State :=
  s.setCan c { s.canOf c with bad := (s.canOf c).bad.filter (fun w => !words.contains w) }

/-- Bytes written into an object's blocks from byte 0 on; bytes beyond them keep their values (R298). -/
def putData (s : State) (c o : Nat) (bs : List Byte) : State :=
  let words := s.objWords c o bs.length
  (s.forEach words.zipIdx (fun t (w, i) =>
    let a := R.BX_CAN_RAM c w
    let new := (bs.drop (4 * i)).take 4
    t.wr a (Word.ofNat (ofLe (putBytes (leBytes 4 (t.rd a).toNat) 0 new))))).ramGood c words

/-- Capacity of an object in bytes (R298). -/
def objCap (s : State) (c o : Nat) : Nat := 64 * (canBlocks (s.canRf c) c o).length

/-- Data bytes that an object's header sends (R302). -/
def objLen (s : State) (c o : Nat) : Nat :=
  let d := s.rg (F.BX_CAN_OBJ_W2_DLC c o)
  match s.rg (F.BX_CAN_OBJ_W2_FORMAT c o) with
  | 0 => if s.rg (F.BX_CAN_OBJ_W1_RTR c o) = 1 then 0 else min 8 d
  | 1 => fdLen d
  | _ => s.rg (F.BX_CAN_OBJ_W2_XLLEN c o) + 1

/-- The frame that an object holds: its header with n data bytes. -/
def objFrame (s : State) (c o n : Nat) : CanFrame where
  id := idBits (s.rg (F.BX_CAN_OBJ_W1_IDE c o) == 1) (s.rg (F.BX_CAN_OBJ_W1_ID c o))
  ide := s.rg (F.BX_CAN_OBJ_W1_IDE c o) == 1
  rtr := s.rg (F.BX_CAN_OBJ_W1_RTR c o) == 1
  format := s.rg (F.BX_CAN_OBJ_W2_FORMAT c o)
  brs := s.rg (F.BX_CAN_OBJ_W2_BRS c o) == 1
  esi := s.rg (F.BX_CAN_OBJ_W2_ESI c o) == 1
  dlc := s.rg (F.BX_CAN_OBJ_W2_DLC c o)
  sdt := s.rg (F.BX_CAN_OBJ_W3_SDT c o)
  vcid := s.rg (F.BX_CAN_OBJ_W3_VCID c o)
  sec := s.rg (F.BX_CAN_OBJ_W3_SEC c o) == 1
  af := s.rg (F.BX_CAN_OBJ_W4_AF c o)
  data := s.objData c o n

/-- The header words of an object take a frame's header (R301, R309). -/
def putHeader (s : State) (c o : Nat) (f : CanFrame) (len : Nat) : State :=
  let b := fun (x : Bool) => if x then 1 else 0
  let w1 := f.id % 2 ^ 29 + 2 ^ 29 * b f.ide + 2 ^ 30 * b f.rtr
  let w2 := f.format % 4 + 4 * b f.brs + 8 * b f.esi + 16 * (f.dlc % 16) +
    256 * (if f.format = 2 then (f.data.length - 1) % 2048 else 0)
  let w3 := f.sdt % 256 + 256 * (f.vcid % 256) + 2 ^ 16 * b f.sec + 2 ^ 20 * len
  (((s.wr (R.BX_CAN_OBJ_W1 c o) (Word.ofNat w1)).wr (R.BX_CAN_OBJ_W2 c o) (Word.ofNat w2)).wr
    (R.BX_CAN_OBJ_W3 c o) (Word.ofNat w3)).wr (R.BX_CAN_OBJ_W4 c o) (Word.ofNat f.af)

/-- The request check fails (R302). -/
def formatErr (s : State) (c o : Nat) : Bool :=
  let rf := s.canRf c
  let fm := s.rg (F.BX_CAN_OBJ_W2_FORMAT c o)
  decide (fm = 3) || !canTakes rf c fm || (decide (s.rg (F.BX_CAN_OBJ_W1_RTR c o) = 1) && decide (fm ≠ 0)) ||
    (decide (fm = 2) && (decide (s.rg (F.BX_CAN_OBJ_W1_IDE c o) = 1) || decide (s.objLen c o > s.objCap c o)))

/-- A request of object o (R302); it is a local wake of the domains of its bus (R411). -/
def canReq (s : State) (c o : Nat) : State :=
  let st := s.objStatus c o
  if st = 1 ∨ st = 2 ∨ !canIs (s.canRf c) c o 1 then s
  else if s.formatErr c o then s.objEnds c o 0xA
  else (s.setStatus c o 1).localTx c

/-- A cancel of object o reaches the engine (R306). -/
def canCancel (s : State) (c o : Nat) : State :=
  if !canIs (s.canRf c) c o 1 then s
  else match s.objStatus c o with
    | 1 =>
      let x := s.canOf c
      let t := if x.chosen.map (·.1) = some o then s.setCan c { x with chosen := none } else s
      t.objEnds c o 5
    | 2 => s.setRg (F.BX_CAN_OBJ_W0_CANCEL_REQ c o) 1
    | _ => s

/-- An acknowledge of RX object o (R309). -/
def canAck (s : State) (c o : Nat) : State :=
  if canIs (s.canRf c) c o 0 then (s.setStatus c o 0).setRg (F.BX_CAN_OBJ_W0_OVR c o) 0 else s

/-- The bits of a request word as object numbers. -/
def wordObjs (w : Nat) (data : Word) : List Nat := (maskList data.toNat 32).map (· + 32 * w)

/-- A write of software to a request register acts on the objects that are not the gateway's (R302, R306, R315). -/
def bySoftware (s : State) (c w : Nat) (data : Word) (f : State → Nat → State) : State :=
  s.forEach ((wordObjs w data).filter (fun o => !canGw (s.canRf c) c o)) f

/-! ### The choice (R303) -/

/-- Rank of a PENDING object under ORDER. -/
def objRank (s : State) (c o : Nat) : Nat :=
  if rfGet (s.canRf c) (F.BX_CAN_CFG_ORDER c) = 1 then o else arbRank (s.objFrame c o 0)

/-- The highest-ranking PENDING object. -/
def bestPending (s : State) (c : Nat) : Option Nat :=
  (s.pendingObjs c).foldl (fun (b : Option Nat) o =>
    match b with
    | none => some o
    | some x => if s.objRank c o < s.objRank c x then some o else some x) none

/-- Message-RAM word w was corrected (1) or could not be (2): counted and recorded (R317, R509). -/
def msgRamEcc (s : State) (c ecc w : Nat) : State :=
  if ecc = 1 then (s.bump (F.BX_CAN_ECC_CE_COUNT c)).fault 0x0A c w
  else if ecc = 2 then ((s.ramLost c w).bump (F.BX_CAN_ECC_UE_COUNT c)).fault 0x0B c w
  else s

/-- What reading the first n bytes of an object meets (R317), and in which word: the error given, in the object's data word
`word`, or 2 at a word that is lost already. -/
def objEcc (s : State) (c o n ecc word : Nat) : Nat × Nat :=
  match s.objBadWord c o n with
  | some w => (2, w)
  | none => (ecc, (s.objWords c o n).getD word 0)

/-- The object in a frame goes back after a lost arbitration or an error (R304, R306). -/
def objFails (s : State) (c : Nat) : State :=
  let x := s.canOf c
  match x.active with
  | none => s
  | some (o, _) =>
    let t := s.setCan c { x with active := none, chosen := none }
    if t.rg (F.BX_CAN_OBJ_W0_CANCEL_REQ c o) = 1 then (t.objStamp c o x.started).objEnds c o 6
    else if rfGet (s.canRf c) (F.BX_CAN_OBJCFG_W2_ONESHOT c o) = 1 then t.objEnds c o 7
    else t.setStatus c o 1

/-! ### Error states (R311 to R314) -/

/-- TEC and REC take values; WARN follows (R311). -/
def setCounters (s : State) (c tec rec_ : Nat) : State :=
  let t := (s.setRg (F.BX_CAN_STAT_TEC c) (min tec 255)).setRg (F.BX_CAN_STAT_REC c) (min rec_ 255)
  let w := if tec ≥ 96 ∨ rec_ ≥ 96 then 1 else 0
  let u := t.setRg (F.BX_CAN_STAT_WARN c) w
  if w = 1 ∧ s.rg (F.BX_CAN_STAT_WARN c) = 0 then u.canEvent 4 c else u

/-- The controller takes a state of R292. -/
def toCanState (s : State) (c st : Nat) : State := s.setRg (F.BX_CAN_STAT_STATE c) st

/-- ERROR_ACTIVE or ERROR_PASSIVE by the counters (R312). -/
def judgePassive (s : State) (c : Nat) : State :=
  let hi := decide (s.rg (F.BX_CAN_STAT_TEC c) > 127) || decide (s.rg (F.BX_CAN_STAT_REC c) > 127)
  if s.canState c = 3 ∧ hi then (s.toCanState c 4).canEvent 0 c
  else if s.canState c = 4 ∧ !hi then s.toCanState c 3
  else s

/-- The PENDING objects that bus-off aborts (R313). -/
def abortedBelow (s : State) (c : Nat) : List Nat :=
  let rf := s.canRf c
  let lim := rfGet rf (F.BX_CAN_ABORT_BUSOFF_ABORT_BELOW c)
  if rfGet rf (F.BX_CAN_CFG_BUSOFF_ABORT_EN c) = 0 then []
  else if rfGet rf (F.BX_CAN_CFG_ORDER c) = 1 then (s.pendingObjs c).filter (fun o => decide (o > lim % 128))
  else (s.pendingObjs c).filter (fun o => decide (arbValue (s.objFrame c o 0) > lim))

/-- TEC exceeds 255 (R313, R314). What TEC reads in BUS_OFF is not stated: a free value. -/
def busOff (s : State) (c : Nat) : State :=
  let s1 := ((s.useFree).setRg (F.BX_CAN_STAT_TEC c) s.freeVal).toCanState c 5
  let s2 := (s1.canEvent 1 c).bump (F.BX_CAN_STAT_BUSOFF_CNT c)
  let s3 := s2.forEach (s2.abortedBelow c) (fun t o => t.objEnds c o 8)
  let lim := rfGet (s.canRf c) (F.BX_CAN_CFG_RECOV_LIM c)
  if lim = 15 ∨ s3.rg (F.BX_CAN_STAT_BUSOFF_CNT c) ≤ lim then s3.toCanState c 6
  else (s3.setRg (F.BX_CAN_STAT_RECOV_WAIT c) 1).canEvent 3 c

/-- The transmitter delay of a frame that the controller sends (R296). `edges` are the instants of received edges, in mtq
after the driven edge: those before TDCF are ignored. A frame that ends before the edge, or has no compensated data
phase, measures nothing. -/
def noteTdc (s : State) (c : Nat) (edges : Option (List Nat)) (f : CanFrame) : State :=
  let rf := s.canRf c
  match edges with
  | some es =>
    if rfGet rf (F.BX_CAN_TDC_TDC_EN c) = 1 ∧ ((f.format = 1 ∧ f.brs) ∨ f.format = 2) then
      let delay := (es.find? (fun e => decide (rfGet rf (F.BX_CAN_TDC_TDCF c) ≤ e))).getD 128
      let t := s.setRg (F.BX_CAN_ERR_TDCV c) (min delay 127)
      if delay > 127 then (t.setRg (F.BX_CAN_STAT_TDC_SAT c) 1).canEvent 9 c else t.setRg (F.BX_CAN_STAT_TDC_SAT c) 0
    else s.setRg (F.BX_CAN_STAT_TDC_SAT c) 0
  | none => s.setRg (F.BX_CAN_STAT_TDC_SAT c) 0

/-- The transmitter delay of the frame on the bus, which an error ends (R296). -/
def tdcAtError (s : State) (c : Nat) (edges : Option (List Nat)) : State :=
  match (s.canOf c).active with
  | some (_, f) => s.noteTdc c edges f
  | none => s

/-- The error code of the phase (R311, R320). -/
def noteError (s : State) (c code : Nat) (dataPhase : Bool) : State :=
  s.setRg (if dataPhase then F.BX_CAN_ERR_DLEC c else F.BX_CAN_ERR_LEC c) code

/-- An error frame is sent and counted (R293, R311); in internal loopback the bus sees recessive. -/
def sendErrorFrame (s : State) (c : Nat) : State :=
  let t := s.bump (F.BX_CAN_ERR_FRAMES_COUNT c)
  if s.canMode c = 3 then t else t.emit (.canError c (s.canState c == 3))

/-- A bus error is met (R293, R304, R311 to R313). ISO 11898-1: a transmitter's TEC takes 8 more unless the error is
one of its two exceptions, a receiver's REC takes 1 more. An error that is `severe` lies in or after the error flag
that the controller sends already: 8 more on the counter of the side that sends the flag, and no further error frame. -/
def canErrorMet (s : State) (c code : Nat) (dataPhase severe exempt : Bool) : State :=
  let x := s.canOf c
  let within := severe && x.active.isNone
  let tx := if within then x.errTx else x.active.isSome
  let s0 := s.noteError c code dataPhase
  let s1 := (s0.setCan c { x with errTx := tx }).objFails c
  if s.canMode c = 2 then s1.toCanState c 2
  else
    let s2 := if s.canMode c = 1 ∨ within then s1 else s1.sendErrorFrame c
    let tec := s.rg (F.BX_CAN_STAT_TEC c)
    let rec_ := s.rg (F.BX_CAN_STAT_REC c)
    let tec' := if tx ∧ !exempt then tec + 8 else tec
    let rec' := if tx then rec_ else rec_ + (if within then 8 else 1)
    let s3 := s2.setCounters c tec' rec'
    if tec' > 255 then s3.busOff c else s3.judgePassive c

/-- A frame has been sent: TEC falls by one (ISO 11898-1). -/
def txCredit (s : State) (c : Nat) : State :=
  if s.canMode c = 2 then s
  else (s.setCounters c (s.rg (F.BX_CAN_STAT_TEC c) - 1) (s.rg (F.BX_CAN_STAT_REC c))).judgePassive c

/-- A frame has been received: REC falls by one, or from above 127 to a value of 119 to 127 that ISO 11898-1 leaves
open: a free value. -/
def rxCredit (s : State) (c : Nat) : State :=
  let r := s.rg (F.BX_CAN_STAT_REC c)
  let t := s.rg (F.BX_CAN_STAT_TEC c)
  if s.canMode c = 2 then s
  else if r > 127 then ((s.useFree).setCounters c t (119 + s.freeVal % 9)).judgePassive c
  else (s.setCounters c t (r - 1)).judgePassive c

/-! ### Receiving (R307 to R309) -/

/-- Object o accepts the frame (R307). -/
def objAccepts (s : State) (c o : Nat) (f : CanFrame) : Bool :=
  let rf := s.canRf c
  let a0 := rfGet rf (F.BX_CAN_OBJCFG_W2_ACCEPT c o)
  canIs rf c o 0 &&
    idMatch f.ide f.id (rfGet rf (F.BX_CAN_OBJCFG_W0_ID c o)) (rfGet rf (F.BX_CAN_OBJCFG_W1_MASK c o)) &&
    (decide (rfGet rf (F.BX_CAN_OBJCFG_W1_IDE_ANY c o) = 1) ||
      decide (rfGet rf (F.BX_CAN_OBJCFG_W0_IDE c o) = if f.ide then 1 else 0)) &&
    (orElse (decide (a0 ≠ 0)) a0 7).testBit f.format && decide (f.data.length ≤ s.objCap c o)

/-- The frame is copied into object o (R309). -/
def objTakes (s : State) (c o : Nat) (f : CanFrame) (stamp : Nat) : State :=
  let s1 := ((s.putHeader c o f f.data.length).putData c o f.data).objStamp c o stamp
  let s2 := (s1.setStatus c o 0xC).tick (F.BX_CAN_OBJ_W0_SEQ c o)
  let x := s2.canOf c
  let s3 := if canGw (s.canRf c) c o ∧ !x.gwRx.contains o then s2.setCan c { x with gwRx := x.gwRx ++ [o] } else s2
  s3.objEvent c o 5

/-- A discard or an overwrite (R308). -/
def overrun (s : State) (c o : Nat) : State :=
  ((s.setRg (F.BX_CAN_OBJ_W0_OVR c o) 1).bump (F.BX_CAN_RX_OVERRUN_COUNT c)).canEvent 7 c

/-- The frame is offered to RX objects in ascending order (R307, R308); `full` says that an accepting object was full. -/
def offer (s : State) (c : Nat) (f : CanFrame) (stamp : Nat) : List Nat → Bool → State
  | [], full =>
    if full then (s.bump (F.BX_CAN_RX_OVERRUN_COUNT c)).canEvent 7 c else s.bump (F.BX_CAN_RX_NOMATCH_COUNT c)
  | o :: os, full =>
    if !s.objAccepts c o f then s.offer c f stamp os full
    else if s.objStatus c o ≠ 0xC then s.objTakes c o f stamp
    else if rfGet (s.canRf c) (F.BX_CAN_OBJCFG_W2_OVERWRITE c o) = 1 then (s.overrun c o).objTakes c o f stamp
    else if rfGet (s.canRf c) (F.BX_CAN_OBJCFG_W2_CHAIN c o) = 1 then s.offer c f stamp os true
    else s.overrun c o

/-- A valid frame has been received. -/
def canReceive (s : State) (c : Nat) (f : CanFrame) (stamp : Nat) : State :=
  (((s.setCan c { s.canOf c with errTx := false }).bump (F.BX_CAN_RX_FRAMES_COUNT c)).rxCredit c).offer c f stamp
    (List.range 128) false

/-- A frame of the bus is acknowledged (R293, R307): not in bus monitoring, and in internal loopback only inside. -/
def sendAck (s : State) (c : Nat) : State := if s.canMode c = 0 ∨ s.canMode c = 2 then s.emit (.canAck c) else s

/-! ### CONFIG, MEND and Stitches (R294, R295, R316) -/

/-- The controller leaves OFF, CONFIG or MEND (R292, R295, R314). -/
def canLeave (s : State) (c : Nat) : State :=
  let t := (((s.setRg (F.BX_CAN_STAT_TEC c) 0).setRg (F.BX_CAN_STAT_REC c) 0).setRg (F.BX_CAN_STAT_WARN c) 0).setRg
    (F.BX_CAN_STAT_RECOV_WAIT c) 0
  if canTimingOk (s.canRf c) c then
    ((t.setRg (F.BX_CAN_STAT_BUSOFF_CNT c) 0).setRg (F.BX_CAN_STAT_TIMING_ERR c) 0).toCanState c 2
  else ((t.setRg (F.BX_CAN_STAT_TIMING_ERR c) 1).toCanState c 1).canEvent 10 c

/-- The objects whose configuration a Stitch has changed (R294). -/
def objsChange (s : State) (c : Nat) (old new : RegFile) : State :=
  s.forEach (List.range 128) (fun t o =>
    if canIs old c o 1 ∧ !canIs new c o 1 ∧ t.objStatus c o = 1 then t.objEnds c o 9
    else if canIs old c o 0 ∧ !canIs new c o 0 then (t.setStatus c o 0).setRg (F.BX_CAN_OBJ_W0_OVR c o) 0
    else t)

/-- A Stitch's changes are applied (R292, R294). -/
def canApply (s : State) (c : Nat) (old : RegFile) : State :=
  let new := s.activeOf (canCd c)
  let s1 := s.setCan c { s.canOf c with old := none, chosen := none }
  let s2 := s1.objsChange c old new
  if rfGet new (F.BX_CAN_CFG_EN c) = 0 then
    (if rfGet old (F.BX_CAN_CFG_EN c) = 1 then s2.forEach (s2.pendingObjs c) (fun t o => t.objEnds c o 9) else s2).toCanState c 0
  else s2.canLeave c

/-- A Stitch of the controller's domain has committed (R294): a controller in OFF applies it at once, every other one
when it has reached CONFIG. -/
def canCommit (s : State) (c : Nat) (old : RegFile) : State :=
  let new := s.activeOf (canCd c)
  if canRegion old c = canRegion new c then s
  else if s.canState c = 0 then s.canApply c old
  else match (s.canOf c).old with
    | some _ => s
    | none => s.setCan c { s.canOf c with old := some old }

/-- A Mend activity takes the controller (R316). -/
def canHold (s : State) (c : Nat) : State :=
  let x := s.canOf c
  let s1 := match x.active with
    | none => s
    | some (o, _) =>
      if s.rg (F.BX_CAN_OBJ_W0_CANCEL_REQ c o) = 1 then (s.objStamp c o x.started).objEnds c o 6 else s.setStatus c o 1
  let s2 := s1.setCan c { s1.canOf c with active := none, chosen := none, wasOff := decide (s.canState c = 0) }
  let s3 := ((s2.setRg (F.BX_CAN_STAT_TEC c) 0).setRg (F.BX_CAN_STAT_REC c) 0).setRg (F.BX_CAN_STAT_WARN c) 0
  ((s3.setRg (F.BX_CAN_STAT_BUSOFF_CNT c) 0).setRg (F.BX_CAN_STAT_RECOV_WAIT c) 0).toCanState c 7

/-- The Mend activity gives the controller back (R316). -/
def canRelease (s : State) (c : Nat) : State :=
  let x := s.canOf c
  match x.old with
  | some old => s.canApply c old
  | none => if x.wasOff then s.toCanState c 0 else s.canLeave c

end State

end Sys2Proof.Machine
end

