-- ==== Sys2Proof/Machine/Can.lean ====
section
/-!
DEFINITION. The meanings of the CAN controllers' commands (10_can_controllers.md).
-/

namespace Sys2Proof.Machine

/-- CAN_INTEGRATED (R292): 11 consecutive recessive bits; the counters decide between active and passive where they
were kept (R291, R293). -/
def execCanIntegrated (c : Nat) (s : State) : Result :=
  .next (s.only (decide (c < 16)) (if s.canState c = 2 then ((s.toCanState c 3).judgePassive c).noteFb else s))

/-- CAN_CONFIG_APPLIED (R294, R295): the controller has completed its frame, entered CONFIG and applies the change. -/
def execCanConfigApplied (c : Nat) (s : State) : Result :=
  .next (s.only (decide (c < 16)) (match (s.canOf c).old with
    | some old => if s.canState c = 7 ∨ (s.canOf c).active.isSome then s else s.canApply c old
    | none => s))

/-- CAN_TXREQ (R302, R315). -/
def execCanTxreq (a : Agent) (c w : Nat) (data : Word) (s : State) : Result :=
  .next (s.only (decide (c < 16 ∧ w < 4)) (s.byAgent a (fun s => s.bySoftware c w data (fun t o => t.canReq c o))))

/-- CAN_TXCAN (R306, R315). -/
def execCanTxcan (a : Agent) (c w : Nat) (data : Word) (s : State) : Result :=
  .next (s.only (decide (c < 16 ∧ w < 4)) (s.byAgent a (fun s => s.bySoftware c w data (fun t o => t.canCancel c o))))

/-- CAN_RXACK (R309, R315). -/
def execCanRxack (a : Agent) (c w : Nat) (data : Word) (s : State) : Result :=
  .next (s.only (decide (c < 16 ∧ w < 4)) (s.byAgent a (fun s => s.bySoftware c w data (fun t o => t.canAck c o))))

/-- CAN_RECOVER (R314): ignored in any other state than BUS_OFF. -/
def execCanRecover (a : Agent) (c : Nat) (s : State) : Result :=
  .next (s.only (decide (c < 16)) (s.byAgent a (fun s =>
    if s.canState c = 5 then
      ((s.setRg (F.BX_CAN_STAT_RECOV_WAIT c) 0).setRg (F.BX_CAN_STAT_BUSOFF_CNT c) 0).toCanState c 6
    else s)))

/-- CAN_TX_CHOICE (R303, R317): the highest-ranking PENDING object is staged; `ecc` says that its data word `word` was
read corrected (1) or could not be read (2), which stages nothing. None is staged while a Stitch's changes wait (R294). -/
def execCanTxChoice (c ecc word : Nat) (s : State) : Result :=
  .next (s.only (decide (c < 16)) (if s.canLive c ∧ s.canMode c ≠ 1 ∧ (s.canOf c).active = none ∧ (s.canOf c).old = none then
      match s.bestPending c with
      | none => s.setCan c { s.canOf c with chosen := none }
      | some o =>
        let e := s.objEcc c o (s.objLen c o) ecc word
        let t := s.msgRamEcc c e.1 e.2
        if e.1 = 2 then (t.setCan c { t.canOf c with chosen := none }).objEnds c o 0xB
        else t.setCan c { t.canOf c with chosen := some (o, t.objFrame c o (t.objLen c o)) }
    else s))

/-- FBTC at the sample point of a start-of-frame bit that starts now (R295, R310): a count is two mtq, and `fbtcPhase`
25ths of a count have passed. -/
def State.sofStamp (s : State) (c : Nat) : Nat :=
  (s.te.fbtc + (2 * s.te.fbtcPhase + 25 * canSample (s.canRf c) c) / 50) % 2 ^ 64

/-- The error-state indicator of a frame that the controller sends (R289; ISO 11898-1): recessive while it is error passive.
A classic frame has none. -/
def State.withEsi (s : State) (c : Nat) (f : CanFrame) : CanFrame := { f with esi := f.format != 0 && s.canState c == 4 }

/-- CAN_TX_COMMIT (R305): the chosen object becomes ACTIVE at its start of frame; no frame starts while a Stitch's changes
wait (R294). -/
def execCanTxCommit (c : Nat) (s : State) : Result :=
  .next (s.only (decide (c < 16)) (if s.canLive c ∧ (s.canOf c).active = none ∧ (s.canOf c).old = none then
      match (s.canOf c).chosen with
      | some (o, f) =>
        (s.setStatus c o 2).setCan c { s.canOf c with
          chosen := none, active := some (o, s.withEsi c f), started := s.sofStamp c, errTx := false }
      | none => s
    else s))

namespace State

/-- The frame of the ACTIVE object has been sent and acknowledged (R293, R304, R306, R310). -/
def canSent (s : State) (c o : Nat) (edges : List Nat) (f : CanFrame) : State :=
  let x := s.canOf c
  let late := s.rg (F.BX_CAN_OBJ_W0_CANCEL_REQ c o) = 1
  let s1 := (s.setCan c { x with active := none, errTx := false }).noteTdc c (some edges) f
  let s2 := ((s1.bump (F.BX_CAN_TX_FRAMES_COUNT c)).txCredit c).objStamp c o x.started
  let s3 := (s2.tick (F.BX_CAN_OBJ_W0_SEQ c o)).setRg (F.BX_CAN_OBJ_W3_LEN c o) f.data.length
  let s4 := s3.objEnds c o (if late then 4 else 3)
  if s.canMode c = 3 then s4.canReceive c f x.started else s4.emit (.canFrame c f)

end State

/-- CAN_TX_DONE (R304, R306); `edges` are the received edges of R296, in mtq after the driven one. -/
def execCanTxDone (c : Nat) (edges : List Nat) (s : State) : Result :=
  .next (s.only (decide (c < 16)) (match (s.canOf c).active with
    | some (o, f) => if s.canLive c then s.canSent c o edges f else s
    | none => s))

/-- CAN_ARB_LOST (R304, R306): before the edge of R296, so no delay is measured. -/
def execCanArbLost (c : Nat) (s : State) : Result :=
  .next (s.only (decide (c < 16)) (if (s.canOf c).active.isSome then
      ((s.tdcAtError c none).bump (F.BX_CAN_ARB_LOST_COUNT c)).objFails c
    else s))

/-- CAN_RX_FRAME (R307 to R310): a valid frame of another node, stamped at its start of frame. -/
def execCanRxFrame (c : Nat) (f : CanFrame) (stamp : Nat) (s : State) : Result :=
  .next (s.only (decide (c < 16)) (if s.canLive c ∧ s.canMode c ≠ 3 ∧ canTakes (s.canRf c) c f.format then (s.sendAck c).canReceive c f stamp
    else s))

/-- CAN_PROTOCOL_EXCEPTION (R291): a frame in a format that is not accepted. -/
def execCanProtocolException (c : Nat) (xl : Bool) (s : State) : Result :=
  .next (s.only (decide (c < 16)) (if s.canLive c ∧ !canTakes (s.canRf c) c (if xl then 2 else 1) then
      if rfGet (s.canRf c) (F.BX_CAN_CFG_PEX_EN c) = 1 then
        ((s.bump (F.BX_CAN_PEXC_COUNT c)).canEvent 8 c).toCanState c 2
      else s.canErrorMet c 2 false false false
    else s))

/-- CAN_BUS_ERROR (R311 to R313, R320): an error of a kind and phase; `severe` and `exempt` are the cases in which
ISO 11898-1 counts it otherwise; `edges` are the received edges of R296 where the frame had come to them. -/
def execCanBusError (c code : Nat) (dataPhase severe exempt : Bool) (edges : Option (List Nat)) (s : State) : Result :=
  .next (s.only (decide (c < 16 ∧ 0 < code ∧ code < 7)) (if s.canLive c then
      (s.tdcAtError c edges).canErrorMet c code dataPhase severe exempt
    else s))

/-- CAN_RECOVERY_DONE (R314). -/
def execCanRecoveryDone (c : Nat) (s : State) : Result :=
  .next (s.only (decide (c < 16)) (if s.canState c = 6 then ((s.setCounters c 0 0).toCanState c 3).canEvent 2 c else s))

end Sys2Proof.Machine
end

