-- ==== Sys2Proof/Machine/FoldOps.lean ====
section
/-!
DEFINITION. Fold as operations (14_sleep_wake.md): keep-alives, the top-talker tables, what follows from a domain's
need, and the mode transitions that Fold asks for (R85).
-/

namespace Sys2Proof.Machine

namespace State

/-! ### Transitions that Fold asks for -/

/-- A mode transition starts (R86 to R88); none for the agent: Fold asked for it. -/
def startMove (s : State) (m : Moving) (a : Option Agent) : State :=
  { s with pw.moving := m, pw.requester := a, pw.byFold := a.isNone }.setRg F.SV_MODE_MOVING 1

/-- No start and no transition runs, and the mode is one that Fold may leave (R85, R91). -/
def settled (s : State) : Bool :=
  s.booted && !s.pw.rescue && decide (s.rg F.SV_MODE_RAMPING = 0) && decide (s.pw.moving = .none) &&
    decide (2 ≤ s.mode ∧ s.mode ≤ 5)

/-- All of some domains have folded. -/
def allAsleep (s : State) (ds : List Nat) : Bool := !ds.isEmpty && ds.all (fun d => decide ((s.sdOf d).state = 4))

/-- The member domains (R402). -/
def members (s : State) : List Nat := s.validSds.filter (fun d => decide (s.fold (F.SV_SD_W0_MEMBER d) = 1))

/-- The domains that contain a SerDes port or a host port. -/
def runSds (s : State) : List Nat := s.validSds.filter (fun d => decide (Nat.land (s.sdPorts d) runPorts ≠ 0))

/-- After a fold or a Stitch, R85 is judged as soon as no transition runs. -/
def modeAuto (s : State) : State :=
  if !s.pw.foldDue || !s.settled then s
  else
    let t := { s with pw.foldDue := false }
    if s.act F.SV_MODE_CFG_LISTEN_EN = 1 ∧ s.allAsleep s.members then t.startMove (.toListen true) none
    else if 3 ≤ s.mode ∧ s.act F.SV_MODE_CFG_PARTIAL_EN = 1 ∧ s.allAsleep s.runSds then
      t.startMove (.toPartial 0) none
    else t

/-! ### Keep-alives -/

/-- SRC_MAC (R422). -/
def kaSrc (s : State) : Nat := s.act F.SV_FOLD_SRC_LO_SRC_MAC + 2 ^ 32 * s.act F.SV_FOLD_SRC_HI_SRC_MAC

/-- The gateway's own Ethernet keep-alive, FCS excluded (R405, R406). -/
def kaFrame (s : State) (d : Nat) (need : Bool) : List Byte :=
  let head := beBytes 6 s.kaMac ++ beBytes 6 s.kaSrc ++ beBytes 2 0x88B6 ++
    [1, Byte.ofNat (s.fold (F.SV_SD_W0_WIRE_DOMAIN d)), if need then 1 else 0, 0] ++ beBytes 4 (s.sdOf d).seq
  slice0 head 0 60

/-- One Ethernet keep-alive leaves through P39 to the ports of the domain (R406). -/
def kaEthernet (s : State) (d : Nat) (need : Bool) : State :=
  let ports := s.sdPorts d
  if s.kaMac = 0 ∨ ports = 0 then s
  else
    (s.enterWhole 39 (s.kaFrame d need) (fun f => { f with directive := some ports })).setSd d
      { s.sdOf d with seq := ((s.sdOf d).seq + 1) % 2 ^ 32 }

/-- The CC frame of a CAN keep-alive (R406). -/
def kaCanFrame (s : State) (d : Nat) : CanFrame where
  id := s.fold (F.SV_SD_W5_KA_TX_ID d)
  ide := s.fold (F.SV_SD_W5_KA_TX_IDE d) == 1
  rtr := false
  format := 0
  brs := false
  esi := false
  dlc := 8
  sdt := 0
  vcid := 0
  sec := false
  af := 0
  data := [Byte.ofNat (s.fold (F.SV_SD_W6_KA_NODE d)), 1, 0, 0, 0, 0, 0, 0]

/-- KA_OBJ is not a VALID TX object with GW = 0, or its header write is discarded (R301, R406). -/
def kaBlocked (s : State) (c o : Nat) : Bool :=
  let st := s.objStatus c o
  !canIs (s.canRf c) c o 1 || canGw (s.canRf c) c o || st == 1 || st == 2

/-- The failure of a CAN keep-alive, once until one next succeeds on that bus (R406). -/
def kaFails (s : State) (d c : Nat) : State :=
  let x := s.sdOf d
  if x.kaFail.testBit c then s
  else ((s.setSd d { x with kaFail := setBit x.kaFail c }).bump F.SV_FOLD_KA_TX_FAIL_COUNT).raise 238

/-- One CAN keep-alive on bus c (R406). Its own request is no local wake. -/
def kaCan (s : State) (d c : Nat) : State :=
  let o := s.fold (F.SV_SD_W6_KA_OBJ d)
  if s.kaBlocked c o then s.kaFails d c
  else
    let f := s.kaCanFrame d
    let t := ((s.putHeader c o f (s.rg (F.BX_CAN_OBJ_W3_LEN c o))).putData c o f.data).setStatus c o 1
    t.setSd d { s.sdOf d with kaFail := clrBit (s.sdOf d).kaFail c }

/-! ### Top talkers (R416, R417) -/

/-- KIND of a top-talker entry. -/
def talkKind (s : State) (d k : Nat) : Nat := s.rg (F.SV_SD_TALK_KIND d k)

/-- COUNT of a top-talker entry. -/
def talkCount (s : State) (d k : Nat) : Nat := s.rg (F.SV_SD_TALK_COUNT_COUNT d k)

/-- SOURCE of a top-talker entry. -/
def talkSource (s : State) (d k : Nat) : Nat :=
  s.rg (F.SV_SD_TALK_SRC_LO_SOURCE d k) + 2 ^ 32 * s.rg (F.SV_SD_TALK_SRC_HI_SOURCE d k)

/-- The entry is this source: a MAC address; a CAN identifier with its bus; the gateway. -/
def talkIs (s : State) (d k kind unit src : Nat) : Bool :=
  decide (s.talkKind d k = kind) && decide (s.talkSource d k = src) &&
    (decide (kind ≠ 2) || decide (s.rg (F.SV_SD_TALK_UNIT d k) = unit))

/-- The entry that a new source takes. -/
def talkSlot (s : State) (d : Nat) : Nat :=
  match (List.range 8).find? (fun k => decide (s.talkKind d k = 0)) with
  | some k => k
  | none => (List.range 8).foldl (fun b k => if s.talkCount d k < s.talkCount d b then k else b) 0

/-- A keep-alive of a source with NEED = 1 is counted: kind 1 MAC, 2 CAN, 3 gateway. -/
def talk (s : State) (d kind unit src : Nat) : State :=
  let stamp := fun (t : State) (k : Nat) => { t with aon.talkAt := Sparse.set (fun _ => 0) t.aon.talkAt (8 * d + k) t.now }
  match (List.range 8).find? (fun k => s.talkIs d k kind unit src) with
  | some k => stamp (s.bump (F.SV_SD_TALK_COUNT_COUNT d k)) k
  | none =>
    let k := s.talkSlot d
    let t := ((s.wr (R.SV_SD_TALK d k) (Word.ofNat (kind + 256 * unit))).wr (R.SV_SD_TALK_SRC_LO d k)
      (Word.ofNat src)).wr (R.SV_SD_TALK_SRC_HI d k) (Word.ofNat (src / 2 ^ 32))
    stamp (t.setRg (F.SV_SD_TALK_COUNT_COUNT d k) 1) k

/-- Up to four entries of a list, highest count first. -/
def topFour (s : State) (d : Nat) (ks : List Nat) : List Nat :=
  (ks.mergeSort (fun a b => decide (s.talkCount d b ≤ s.talkCount d a))).take 4

/-- The OVERSTAY records of a domain (R417, R418, R514): one per source, and the summary. -/
def overstayRecords (s : State) (d : Nat) (ks : List Nat) : State :=
  let cls := if s.sdBuses d ≠ 0 then 1 else 0
  let top := s.topFour d ks
  let t := s.forEach (top.zip (List.range 4)) (fun t e =>
    t.ledgerAdd 0x09 (leBytes 1 d ++ leBytes 1 cls ++ leBytes 1 e.2 ++ leBytes 1 (s.talkKind d e.1) ++
      leBytes 1 (s.rg (F.SV_SD_TALK_UNIT d e.1)) ++ leBytes 6 (s.talkSource d e.1) ++ leBytes 4 (s.talkCount d e.1)))
  t.ledgerAdd 0x09 (leBytes 1 d ++ leBytes 1 cls ++ [0xFF])

/-- T_FOLD in ns (R421). -/
def tFold (s : State) (d : Nat) : Nat :=
  let v := s.fold (F.SV_SD_W0_T_FOLD d)
  100000000 * orElse (decide (v ≠ 0)) v 30

/-! ### The need of a domain -/

/-- A domain's need is judged again (R403, R406, R407). -/
def foldJudge (s : State) (d : Nat) : State :=
  let x := s.sdOf d
  if x.state = 1 ∧ !s.sdNeeded d then
    let t := s.setSd d { x with state := 2, timerFrom := s.now }
    if s.booted ∧ !x.enforced ∧ s.fold (F.SV_SD_W0_KA_TX_EN d) = 1 then
      t.kaEthernet d false
    else t
  else s.needUp d

/-- Every valid domain is judged again. -/
def foldsJudge (s : State) : State := s.forEach s.validSds foldJudge

/-- The waits of R415 for a wake of any of these domains are met. -/
def validate (s : State) (doms : Nat) : State :=
  { s with aon.judge := s.aon.judge.map (fun j =>
      if Nat.land j.domains doms ≠ 0 then { j with valid := true } else j) }

/-- The identifier lies in a domain's keep-alive range, IDE equal (R405). -/
def kaRange (s : State) (d id : Nat) (ide : Bool) : Bool :=
  decide (s.fold (F.SV_SD_W3_KA_ID_LO d) ≤ id ∧ id ≤ s.fold (F.SV_SD_W4_KA_ID_HI d)) &&
    decide (s.fold (F.SV_SD_W3_KA_IDE d) = if ide then 1 else 0)

/-- The domains whose keep-alive a CAN frame is (R405). -/
def kaCanSds (s : State) (c id : Nat) (ide : Bool) : List Nat :=
  s.validSds.filter (fun d => (s.sdBuses d).testBit c && s.kaRange d id ide)

/-- The frame is looked at for a keep-alive (R405): it is counted good and has had step 4, and one that CE decrypts has
been verified and has had its second pass. -/
def kaDue (f : Frame) : Bool :=
  f.good && !f.zombie && match f.ce with
    | some w => w.done && decide (f.pass = 2) && f.verdict != .untrusted
    | none => decide (1 ≤ f.pass)

/-- The domains whose keep-alive a frame of a port is (R405). -/
def kaFrameSds (s : State) (f : Frame) : List Nat :=
  if kaDue f then s.kaDomains f (parseHdr f.bytes) else []

/-- The wake of a keep-alive with NEED = 1, where one of its unit's domains is not AWAKE or QUIET (R411). -/
def kaWake (s : State) (can : Bool) (unit id : Nat) : State :=
  let doms := if can then s.busSds unit else s.portSds unit
  let due := s.validSds.any (fun d => doms.testBit d && (s.sdLate d || decide ((s.sdOf d).state = 4)))
  if due then s.wake (if can then 6 else 8) unit none doms id else s

/-- A keep-alive of these domains is recognised on a bus, or on a port with its source address (R405, R407, R411, R415,
R416). -/
def kaTake (s : State) (ds : List Nat) (can : Bool) (unit id : Nat) (need : Bool) : State :=
  if ds.isEmpty then s
  else
    let s1 := s.bump F.SV_FOLD_KA_RX_COUNT
    if need then
      ((s1.kaWake can unit id).forEach ds (fun t d =>
        (if (t.sdOf d).state = 2 then t.setSd d { t.sdOf d with timerFrom := t.now } else t).talk d (if can then 2 else 1)
          unit id)).validate (if can then s.busSds unit else s.portSds unit)
    else s1

end State

end Sys2Proof.Machine
end

