-- ==== Sys2Proof/Machine/CeOps.lean ====
section
/-!
DEFINITION. The cipher engines (13_cipher.md) as operations: contexts and their states, the derivation cache, rekeys
and limits, the engine pairs, and the reception and protection of MACsec frames.
-/

namespace Sys2Proof.Machine

/-- What a context answers that is asked for its working key (R383, R385). -/
inductive KeyAnswer where
  | ready (key : Nat)
  | hold                      -- the key is being derived
  | unusable
  deriving DecidableEq, Repr

/-- KIND of a context: 0 MACsec transmit, 1 MACsec receive, 2 sealed (R397: 3 acts as 0). -/
def ctxKind (rf : RegFile) (c : Nat) : Nat :=
  orElse (decide (rfGet rf (F.CE_CTX_W0_KIND c) < 3)) (rfGet rf (F.CE_CTX_W0_KIND c)) 0

/-- INIT_PN, 0 acting as 1 (R397). -/
def ctxInitPn (rf : RegFile) (c : Nat) : Nat :=
  let v := rfGet rf (F.CE_CTX_W8_INIT_PN c) + 2 ^ 32 * rfGet rf (F.CE_CTX_W9_INIT_PN c)
  orElse (decide (v ≠ 0)) v 1

/-- The context is an XPN MACsec context. -/
def ctxXpn (rf : RegFile) (c : Nat) : Bool :=
  decide (rfGet rf (F.CE_CTX_W0_XPN c) = 1) && decide (ctxKind rf c ≠ 2)

/-- LIMIT with its default and its reserved values (R387). -/
def ctxLimit (rf : RegFile) (c : Nat) : Nat :=
  let v := rfGet rf (F.CE_CTX_W1_LIMIT c) + 2 ^ 32 * rfGet rf (F.CE_CTX_W2_LIMIT c)
  if ctxXpn rf c then orElse (decide (v ≠ 0)) v (2 ^ 64 - 1)
  else orElse (decide (v ≠ 0 ∧ v < 2 ^ 32)) v (2 ^ 32 - 1)

/-- Confidentiality offset in bytes (R397). -/
def ctxOfs (rf : RegFile) (c : Nat) : Nat :=
  let v := rfGet rf (F.CE_CTX_W0_CONF_OFS c)
  if v = 1 then 30 else if v = 2 then 50 else 0

/-- SALT, 96 bits (R397). -/
def ctxSalt (rf : RegFile) (c : Nat) : Nat :=
  rfGet rf (F.CE_CTX_SALT_SALT c 0) * 2 ^ 64 + rfGet rf (F.CE_CTX_SALT_SALT c 1) * 2 ^ 32 +
    rfGet rf (F.CE_CTX_SALT_SALT c 2)

/-- LABEL of a context. -/
def ctxLabel (rf : RegFile) (c : Nat) : List Byte :=
  (List.range 4).flatMap (fun k => leBytes 4 (rfGet rf (F.CE_CTX_LABEL_LABEL c k)))

/-- The fields whose change by a Stitch rekeys a context (R387). -/
def ctxRekeyFields (rf : RegFile) (c : Nat) : List Nat :=
  [rfGet rf (F.CE_CTX_W0_KIND c), rfGet rf (F.CE_CTX_W0_XPN c), rfGet rf (F.CE_CTX_W0_KEYMODE c),
    rfGet rf (F.CE_CTX_W0_NODE c), rfGet rf (F.CE_CTX_W4_SSCI c), ctxSalt rf c,
    rfGet rf (F.CE_CTX_W8_INIT_PN c), rfGet rf (F.CE_CTX_W9_INIT_PN c), ofLe (ctxLabel rf c)]

/-- A port's rate in units of 10 Mb/s. -/
def rateUnits (code : Nat) : Nat := if bitPs code = 0 then 0 else 100000 / bitPs code

/-- The transmit context of an AN of a port in a copy of CD11 (R396). -/
def txCtxOf (rf : RegFile) (p an : Nat) : Nat :=
  if an = 0 then rfGet rf (F.CE_TX_CTX01_TX_CTX_AN0 p)
  else if an = 1 then rfGet rf (F.CE_TX_CTX01_TX_CTX_AN1 p)
  else if an = 2 then rfGet rf (F.CE_TX_CTX23_TX_CTX_AN2 p)
  else rfGet rf (F.CE_TX_CTX23_TX_CTX_AN3 p)

/-- The receive context of an AN of a secure channel (R397). -/
def rxCtxOf (rf : RegFile) (i an : Nat) : Nat :=
  if an = 0 then rfGet rf (F.CE_RXSC_W2_CTX_AN0 i)
  else if an = 1 then rfGet rf (F.CE_RXSC_W2_CTX_AN1 i)
  else if an = 2 then rfGet rf (F.CE_RXSC_W3_CTX_AN2 i)
  else rfGet rf (F.CE_RXSC_W3_CTX_AN3 i)

/-- The ports with MACsec (R388). -/
def cePorts : List Nat := List.range 24 ++ [40]

/-- SCI of a receive channel entry. -/
def rxSci (rf : RegFile) (i : Nat) : Nat := rfGet rf (F.CE_RXSC_W0_SCI i) + 2 ^ 32 * rfGet rf (F.CE_RXSC_W1_SCI i)

/-- The receive channel of (port, SCI): the lowest valid entry (R390, step 3). -/
def findRxSc (rf : RegFile) (p sci : Nat) : Option Nat :=
  (List.range 512).find? (fun i => decide (rfGet rf (F.CE_RXSC_W4_VALID i) = 1) &&
    decide (rfGet rf (F.CE_RXSC_W4_PORT i) = p) && decide (rxSci rf i = sci))

namespace State

/-- The context settings in force: CE_CTX is unit-level (R397). -/
def ceRf (s : State) : RegFile := s.activeOf 11

/-- The context is valid. -/
def ctxValid (s : State) (c : Nat) : Bool := decide (rfGet s.ceRf (F.CE_CTX_W0_VALID c) = 1)

/-- Key node of a context. -/
def ctxNode (s : State) (c : Nat) : Nat := rfGet s.ceRf (F.CE_CTX_W0_NODE c)

/-- POLICY bit of the context's use (R358, R384). -/
def ctxBit (s : State) (c : Nat) : Nat := if ctxKind s.ceRf c = 2 then 1 else 0

/-- Next PN, or the freshness pair, of a context (R398). -/
def ctxPn (s : State) (c : Nat) : Nat := s.rd64 (R.CE_CTX_STAT_W3 c)

/-- USED of a context. -/
def ctxUsed (s : State) (c : Nat) : Nat := s.rd64 (R.CE_CTX_STAT_W1 c)

/-- Set STATE of a context. -/
def setCtx (s : State) (c st : Nat) : State := s.setRg (F.CE_CTX_STAT_W0_STATE c) st

/-! ### Pairs (R381, R386) -/

/-- Engine pairs in service. -/
def pairs (s : State) : List Nat := maskList (s.rg F.SV_MEND_SERVICE_PAIRS) 8

/-- The port whose rate is a MACsec context's load: the lowest that names it (R386). -/
def ctxPort (s : State) (c : Nat) : Option Nat :=
  if ctxKind s.ceRf c = 0 then
    cePorts.find? (fun p => decide (rfGet s.ceRf (F.CE_PORT_CFG_TX_EN p) = 1) &&
      [0, 1, 2, 3].any (fun an => decide (txCtxOf s.ceRf p an = c)))
  else
    ((List.range 512).find? (fun i => decide (rfGet s.ceRf (F.CE_RXSC_W4_VALID i) = 1) &&
      [0, 1, 2, 3].any (fun an => (rfGet s.ceRf (F.CE_RXSC_W4_AN_EN i)).testBit an && decide (rxCtxOf s.ceRf i an = c)))).map
      (fun i => rfGet s.ceRf (F.CE_RXSC_W4_PORT i))

/-- Load of a context in units of 10 Mb/s: its port's rate, or 10 Mb/s of a sealed context (R386). -/
def ctxLoad (s : State) (c : Nat) : Nat :=
  if ctxKind s.ceRf c = 2 then 1
  else match s.ctxPort c with
    | some p => rateUnits (s.portRate p)
    | none => 0

/-- CURRENT of a context. -/
def ctxPair (s : State) (c : Nat) : Nat := s.rg (F.CE_CTX_STAT_W0_CURRENT c)

/-- The load that a pair serves, context c not counted. A context that the same Stitch makes valid and that has no pair yet
is still IDLE (R383) and is served by none. -/
def pairLoad (s : State) (c p : Nat) : Nat :=
  (((List.range 4096).filter (fun k => k != c && s.ctxValid k && decide (s.ctxState k ≠ 0) && decide (s.ctxPair k = p))).map
    s.ctxLoad).sum

/-- The in-service pair with the smallest load for context c, ties to the lower (R386); none with no pair in service. -/
def bestPair (s : State) (c : Nat) : Option Nat :=
  (s.pairs.map (fun p => (p, s.pairLoad c p))).foldl
    (fun b x => match b with
      | none => some x
      | some y => if x.2 < y.2 then some x else some y) none |>.map (·.1)

/-- A context that becomes valid takes its HOME pair (R386). -/
def assignHome (s : State) (c : Nat) : State :=
  match s.bestPair c with
  | some p => (s.setRg (F.CE_CTX_STAT_W0_HOME c) p).setRg (F.CE_CTX_STAT_W0_CURRENT c) p
  | none => s

/-- A pair has left service: its contexts move one at a time (R386). -/
def pairLeaves (s : State) (p : Nat) : State :=
  s.forEach ((List.range 4096).filter (fun c => s.ctxValid c && decide (s.ctxPair c = p))) (fun t c =>
    match t.bestPair c with
    | some k => t.setRg (F.CE_CTX_STAT_W0_CURRENT c) k
    | none => t.ctxUnusable c 2)

/-- A pair returns to service: the contexts whose HOME it is return to it, and those that no pair in service serves go
where a new context would (R386). -/
def pairReturns (s : State) (p : Nat) : State :=
  s.forEach ((List.range 4096).filter s.ctxValid) (fun t c =>
    if t.rg (F.CE_CTX_STAT_W0_HOME c) = p then t.setRg (F.CE_CTX_STAT_W0_CURRENT c) p
    else if t.pairs.contains (t.ctxPair c) then t
    else match t.bestPair c with
      | some k => t.setRg (F.CE_CTX_STAT_W0_CURRENT c) k
      | none => t)

/-! ### States and keys (R383 to R385) -/

/-- The context's node is usable for it, and a pair serves it (R383). -/
def ctxNodeOk (s : State) (c : Nat) : Bool := s.nodeUsable (s.ctxNode c) (s.ctxBit c) && !s.pairs.isEmpty

/-- The context enters NOKEY or ORPHANED, by its node's state (R383). -/
def ctxLose (s : State) (c : Nat) : State := s.ctxUnusable c (if s.nodeState (s.ctxNode c) = 3 then 3 else 2)

/-- A rekey (R387): it is what leaves EXPIRED, whatever state follows. -/
def rekey (s : State) (c : Nat) : State :=
  let pn := if ctxKind s.ceRf c = 2 then 1 else ctxInitPn s.ceRf c
  let t := ((s.wipeEntry c).wr64 (R.CE_CTX_STAT_W1 c) 0).wr64 (R.CE_CTX_STAT_W3 c) pn
  let u := t.ceEvent 201 c
  if u.ctxNodeOk c then u.setCtx c 1 else (if u.ctxState c = 4 then u.setCtx c 0 else u).ctxLose c

/-- A key use of the context records the GEN of its node (R398). -/
def ctxRecord (s : State) (c : Nat) : State :=
  { s with ce.unused := s.ce.unused.filter (· != c) }.setRg (F.CE_CTX_STAT_W0_GEN c) (s.nodeGen (s.ctxNode c))

/-- A context rekeyed by a Stitch: no key use has recorded a GEN since (R398, log 98). -/
def rekeyUnused (s : State) (c : Nat) : State :=
  { s.rekey c with ce.unused := c :: (s.rekey c).ce.unused.filter (· != c) }

/-- A use of the context that its node refuses counts with KX (R361); the want of an engine pair is no refusal of KX's. -/
def ctxRefused (s : State) (c : Nat) : State :=
  if s.nodeUsable (s.ctxNode c) (s.ctxBit c) then s else s.bump F.KX_USE_REFUSED_COUNT

/-- The context's state at a use (R383): a lost node makes it unusable, a usable one brings it back, and a node with a
new GEN makes the use a rekey (R387). A use that KX would refuse counts there (R361). -/
def ctxJudge (s : State) (c : Nat) : State :=
  let st := s.ctxState c
  let same := decide (s.nodeGen (s.ctxNode c) = s.rg (F.CE_CTX_STAT_W0_GEN c))
  if st = 1 then
    if !s.ctxNodeOk c then
      (if s.ce.cache.any (fun e => decide (e.1 = c)) then s else s.ctxRefused c).ctxLose c
    else if same ∨ s.ce.unused.contains c then s else (s.rekey c).ctxRecord c
  else if st = 2 ∨ st = 3 then
    if !s.ctxNodeOk c then s.ctxRefused c
    else if same then s.setCtx c 1 else (s.rekey c).ctxRecord c
  else s

/-- An asker still waits for its context's key. -/
def asksStill (s : State) : CeAsker → Bool
  | .rx id => (s.frameOf id).any (fun f => f.stage == .looked && f.verdict == .ok && f.ce.isNone && !f.zombie)
  | .tx p m id => match s.mqOf p m with
    | c :: _ => decide (c.frame = id) && c.sealed.isNone && (s.frameOf id).isSome
    | [] => false
  | .check id => (s.frameOf id).any (fun f => f.stage == .looked && f.verdict == .ok && !f.zombie)
  | .seal id => match s.txOf 38 with
    | some t => decide (t.copy.frame = id)
    | none => false

/-- Another asker waits for the context, and came before this one (R385). -/
def heldBehind (s : State) (c : Nat) (who : CeAsker) : Bool :=
  match s.ce.held.find? (fun e => decide (e.1 = c) && (decide (e.2 = who) || s.asksStill e.2)) with
  | some e => decide (e.2 ≠ who)
  | none => false

/-- The asker is held for the context's key, and the askers that have gone are forgotten. -/
def hold (s : State) (c : Nat) (who : CeAsker) : State :=
  let l := s.ce.held.filter (fun e => s.asksStill e.2 || decide (e.2 = who))
  { s with ce.held := if l.contains (c, who) then l else l ++ [(c, who)] }

/-- A frame asks for a context's working key (R383, R385): later frames of the context wait behind one that is held. -/
def ctxAsk (s : State) (c : Nat) (who : CeAsker) : State × KeyAnswer :=
  if !s.ctxValid c then (s, .unusable)
  else if s.heldBehind c who then (s.hold c who, .hold)
  else
    let t := s.ctxJudge c
    if t.ctxState c ≠ 1 then (t, .unusable)
    else match t.ce.cache.find? (fun e => decide (e.1 = c)) with
      | some (_, k) =>
        ({ t with
          ce.cache := (c, k) :: t.ce.cache.filter (fun e => decide (e.1 ≠ c))
          ce.held := t.ce.held.filter (fun e => decide (e.2 ≠ who)) }, .ready k)
      | none =>
        let u := t.hold c who
        if u.ce.waiting.contains c then (u, .hold)
        else ({ u with ce.waiting := u.ce.waiting ++ [c] }.bump F.CE_CACHE_MISS_COUNT |>.pmu 0x43 0, .hold)

/-- A working key is derived for a context, as a use of its node (R384, R385). -/
def ctxDerive (s : State) (c : Nat) : State :=
  let n := s.ctxNode c
  let p := s.keyAt (nodeCell n)
  let direct := rfGet s.ceRf (F.CE_CTX_W0_KEYMODE c) = 1 ∧ nodeKind s.kxRf n = 1
  let key := if direct then p else workKdf p (ctxLabel s.ceRf c) (if ctxKind s.ceRf c = 2 then 2 else 1)
  match s.kxUse n (s.ctxBit c) with
  | (t, true) =>
    let u := (t.bump F.KX_DERIVES_COUNT).ctxRecord c
    { u with ce.cache := ((c, key) :: u.ce.cache.filter (fun e => decide (e.1 ≠ c))).take 256 }
  | (t, false) => t.ctxLose c

/-- A frame is dropped because its context is unusable (R94, R383). -/
def ctxDropCount (s : State) (c : Nat) (idle : Bool) : State :=
  let t := if [2, 3, 4].contains (s.ctxState c) ∨ idle then s.bump (F.CE_DROP_UNUSABLE_COUNT c) else s
  if s.keysDown then t.bump F.CE_KEYSDOWN_DROP_COUNT else t

/-- The context becomes EXPIRED (R387): its cache entry serves no more. -/
def ctxExpire (s : State) (c : Nat) : State := ((s.wipeEntry c).setCtx c 4).ceEvent 195 c

/-- A context completes an operation (R387). -/
def ctxCount (s : State) (c : Nat) : State :=
  let u := s.ctxUsed c + 1
  let l := ctxLimit s.ceRf c
  let t := s.wr64 (R.CE_CTX_STAT_W1 c) u
  let t1 := if u = l * 7 / 8 then t.ceEvent 194 c else t
  if u ≥ l then t1.ctxExpire c else t1

/-- A transmit context takes its next PN and completes an operation (R387, R389). -/
def ctxTakePn (s : State) (c : Nat) : State :=
  let pn := s.ctxPn c
  let top := if ctxXpn s.ceRf c then 2 ^ 64 - 1 else 2 ^ 32 - 1
  let t := (s.wr64 (R.CE_CTX_STAT_W3 c) (pn + 1)).ctxCount c
  if pn ≥ top ∧ t.ctxState c ≠ 4 then t.ctxExpire c else t

/-- One context at the commit of a Stitch of CD11 (R386, R387), the old settings given. -/
def commitCtx (s : State) (old : RegFile) (c : Nat) : State :=
  let was := decide (rfGet old (F.CE_CTX_W0_VALID c) = 1)
  if !s.ctxValid c then if was then (s.wipeEntry c).setCtx c 0 else s
  else if !was then (s.assignHome c).rekeyUnused c
  else if ctxRekeyFields old c ≠ ctxRekeyFields s.ceRf c then s.rekeyUnused c
  else if ctxLimit s.ceRf c ≤ s.ctxUsed c ∧ s.ctxState c ≠ 4 then s.ctxExpire c
  else s

/-- The contexts at the commit of a Stitch of CD11. -/
def commitCtxs (s : State) (old : RegFile) : State := s.forEach (List.range 4096) (fun t c => t.commitCtx old c)

/-! ### Reception (R390, R391) -/

/-- A frame becomes DROP in CE: its source is not learned (R206, R390). -/
def ceReject (s : State) (id : Nat) : State :=
  { s with fx.learn := s.fx.learn.filter (fun r => r.frame != id) }.setDrop id

/-- A frame waits for CE at step 6 before it has asked. -/
def ceWaits (s : State) (f : Frame) : Bool :=
  f.stage == .looked && decide (f.pass = 1) && f.verdict == .ok && f.ce.isNone && s.rxChecks f

/-- CE takes the frames of a port in the order received (R27, R386). -/
def ceTurn (s : State) (id : Nat) (f : Frame) : Bool := s.inTurn id f s.ceWaits

/-- The IV of a frame under a context (R389). -/
def ctxIv (s : State) (c sci pn : Nat) : List Byte :=
  if ctxXpn s.ceRf c then ivXpn (rfGet s.ceRf (F.CE_CTX_W4_SSCI c)) pn (ctxSalt s.ceRf c) else ivPlain sci pn

/-- Verification has ended (R390, step 7, R391). -/
def ceVerified (s : State) (id : Nat) (f : Frame) (w : CeWork) : State :=
  let tag := parseSecTag w.wire
  let ofs := ctxOfs s.ceRf w.ctx
  let plain := tag.plain w.key w.iv ofs w.wire
  let g := { f with
    bytes := plain
    len := plain.length + 4
    ce := some { w with done := true }
    stage := if f.pass ≤ 1 then .clear else f.stage
    times := { f.times with decrypt := some s.now } }
  let s0 := s.pmu 0x40 (s.ctxPair w.ctx) w.wire.length
  if tag.icvOk w.key w.iv ofs w.wire then
    let t := (s0.wr64 (R.CE_CTX_STAT_W3 w.ctx) (max (s0.ctxPn w.ctx) (w.pn + 1))).ctxCount w.ctx
    let u := (t.pmu 0x41 (t.ctxPair w.ctx)).setFrame id (some g)
    { u with fx.learn := u.fx.learn.map (fun (r : LearnReq) => if r.frame = id then { r with ok := r.ok || f.good } else r) }
  else
    let t := { s0.pmu 0x44 (s0.ctxPair w.ctx) with fx.learn := s0.fx.learn.filter (fun r => r.frame != id) }
    if s.effMode f.epoch = 0 then
      ((t.bump (F.CE_UNTRUSTED_COUNT w.ctx)).ceEvent 192 w.ctx).setFrame id
        (some { g with verdict := if f.verdict = .ok then .untrusted else f.verdict })
    else ((t.bump (F.CE_DROP_AUTH_COUNT w.ctx)).ceEvent 192 w.ctx).setFrame id (some { g with verdict := .drop })

/-- Decryption begins (R390, R391): whole frames are verified at once; in SWIFT an unfinished frame goes on with the
plaintext so far. -/
def ceBegin (s : State) (id : Nat) (f : Frame) (w : CeWork) : State :=
  if f.rxDone then s.ceVerified id f w
  else
    let tag := parseSecTag w.wire
    s.setFrame id (some { f with bytes := tag.plain w.key w.iv (ctxOfs s.ceRf w.ctx) w.wire, ce := some w, stage := .clear })

/-- Steps 4 to 6 of R390 for a frame of a secure channel, and its key. -/
def ceInSc (s : State) (id : Nat) (f : Frame) (tag : SecTag) (i : Nat) : State :=
  let rf := s.copyOf f.epoch 11
  let c := rxCtxOf rf i tag.an
  if !(rfGet rf (F.CE_RXSC_W4_AN_EN i)).testBit tag.an ∨ ctxKind s.ceRf c ≠ 1 then
    ((s.bump F.CE_RX_NOSA_COUNT).ceEvent 197 c).ceReject id
  else match s.ctxAsk c (.rx id) with
    | (t, .unusable) => (t.ctxDropCount c true).ceReject id
    | (t, .hold) => t
    | (t, .ready key) =>
      let low := max (ctxInitPn t.ceRf c) (t.ctxPn c - rfGet t.ceRf (F.CE_CTX_W3_WINDOW c))
      let pn := recoverPn (ctxXpn t.ceRf c) low tag.pn
      if pn < low then ((t.bump (F.CE_DROP_REPLAY_COUNT c)).ceEvent 193 c).ceReject id
      else t.ceBegin id f ⟨c, pn, key, t.ctxIv c (rxSci rf i) pn, f.bytes, false⟩

/-- Step 3 of R390: the secure channel of the SecTAG. -/
def ceFindSc (s : State) (f : Frame) (tag : SecTag) : Option Nat :=
  let rf := s.copyOf f.epoch 11
  let p := f.port
  if tag.sc then findRxSc rf p tag.sci
  else if tag.es then findRxSc rf p (beAt f.bytes 6 6 * 65536 + 1)
  else if rfGet rf (F.CE_PORT_CFG_DEF_EN p) = 1 then findRxSc rf p (rxSci rf (rfGet rf (F.CE_PORT_CFG_DEF_RXSC p)))
  else none

/-- CE lets a frame pass that it does not decrypt: its learn request no longer waits for CE (R206). -/
def cePassed (s : State) (id : Nat) (f : Frame) : State :=
  { s with fx.learn := s.fx.learn.map (fun (r : LearnReq) => if r.frame = id then { r with ce := false } else r) }.setFrame id
    (some f)

/-- CE checks a received frame at step 6 (R390). -/
def ceReceive (s : State) (id : Nat) (f : Frame) : State :=
  let desig := s.runMode f.epoch = 2 ∧ s.cfg f.epoch (F.CE_PORT_CFG_DESIG f.port) = 1
  if beAt f.bytes 12 2 ≠ 0x88E5 then
    if linkLocal (beAt f.bytes 0 6) then s.cePassed id { f with stage := .checked, unprot := true }
    else if s.cfg f.epoch (F.CE_PORT_CFG_REQUIRE f.port) = 1 ∨ desig then
      ((s.bump F.CE_RX_UNPROT_DROP_COUNT).raise 198).ceReject id
    else s.cePassed id { f with stage := .checked, unprot := true }
  else
    let tag := parseSecTag f.bytes
    if !tag.wellFormed f.bytes then (s.bump F.CE_RX_BADTAG_COUNT).ceReject id
    else match s.ceFindSc f tag with
      | none => ((s.bump F.CE_RX_NOSC_COUNT).raise 197).ceReject id
      | some i => s.ceInSc id f tag i

/-! ### Protection (R389, R392) -/

/-- The copy at the head of an MQ is dropped at step 9. -/
def ceTxDrop (s : State) (p m : Nat) (c : Copy) (rest : List Copy) : State := (s.setMq p m rest).dropCopy c 9

/-- CE protects the copy at the head of an MQ (R389): it takes the next PN of the encoding SA. -/
def ceProtect (s : State) (p m : Nat) (c : Copy) (rest : List Copy) (f : Frame) : State :=
  let rf := s.copyOf f.epoch 11
  let an := rfGet rf (F.CE_PORT_CFG_ENC_AN p)
  let x := txCtxOf rf p an
  if ctxKind s.ceRf x ≠ 0 then s.ceTxDrop p m c rest
  else match s.ctxAsk x (.tx p m c.frame) with
    | (t, .unusable) => (t.ctxDropCount x false).ceTxDrop p m c rest
    | (t, .hold) => t
    | (t, .ready key) =>
      let pn := t.ctxPn x
      let sci := rfGet rf (F.CE_TX_SCI_LO_TX_SCI p) + 2 ^ 32 * rfGet rf (F.CE_TX_SCI_HI_TX_SCI p)
      let sa : TxSa := ⟨key, t.ctxIv x sci pn, an, pn % 2 ^ 32, sci, decide (rfGet t.ceRf (F.CE_CTX_W0_CONF x) = 1),
        ctxOfs t.ceRf x⟩
      let u := (t.ctxTakePn x).setMq p m ({ c with sealed := some sa, enc := some t.now } :: rest)
      (u.pmu 0x42 (u.ctxPair x)).pmu 0x40 (u.ctxPair x) (f.len + 32)

end State

end Sys2Proof.Machine
end

