-- ==== Sys2Proof/Machine/GwOps.lean ====
section
/-!
DEFINITION. The bus gateway as operations (11_bus_gateway.md): signals, IEEE 1722 messages and containers, UP frames,
DOWN packets, transmit objects, and the sealed-frame trailer.
-/

namespace Sys2Proof.Machine

/-! ### Signals (R340) -/

/-- The data bits of a signal in ascending significance (ORDER 0) or from the most significant down (ORDER 1). -/
def sigBits (order start len : Nat) : List Nat :=
  if order = 0 then (List.range len).map (start + ·)
  else (List.range len).map (fun i =>
    let seq := 8 * (start / 8) + (7 - start % 8) + i
    8 * (seq / 8) + (7 - seq % 8))

/-- Bit b of data; 0 beyond its end. -/
def bitAt (bs : List Byte) (b : Nat) : Bool := (bs.getD (b / 8) 0).getLsbD (b % 8)

/-- Data with bit b set to v; unchanged beyond its end. -/
def putBit (bs : List Byte) (b : Nat) (v : Bool) : List Byte :=
  bs.modify (b / 8) (fun x => if v then x ||| ((1 : Byte) <<< (b % 8)) else x &&& ~~~((1 : Byte) <<< (b % 8)))

/-- Copy the bits of one signal: the destination, and whether the signal was too short for a side. A signal that
reaches beyond the source's bytes reads as 0; one that reaches beyond the destination, or beyond the `lim` bytes that
the source may have, is ignored. -/
def copySignal (lim : Option Nat) (src dst : List Byte) (from_ to_ : List Nat) : List Byte × Bool :=
  let inSrc := from_.all (fun b => decide (b < 8 * src.length))
  let inLim := match lim with | some n => from_.all (fun b => decide (b < 8 * n)) | none => true
  if inLim && to_.all (fun b => decide (b < 8 * dst.length)) then
    ((from_.zip to_).foldl (fun d (x : Nat × Nat) => putBit d x.2 (inSrc && bitAt src x.1)) dst, !inSrc)
  else (dst, true)

/-- The signal-table entries of a route (R340, R345). -/
def routeSignals (rf : RegFile) (r : Nat) : List Nat :=
  let n := rfGet rf (F.BX_GW_ROUTE_W4_SIG_COUNT r) + 1
  ((List.range n).map (rfGet rf (F.BX_GW_ROUTE_W4_SIG_FIRST r) + ·)).filter (fun i => decide (i < 8192))

/-- PDU_LEN of a route (R345). -/
def pduLen (rf : RegFile) (r : Nat) : Nat := min 2048 (rfGet rf (F.BX_GW_ROUTE_W5_PDU_LEN r))

/-- The signals of a route copied, UP from a frame to a PDU or DOWN from a PDU to an object's data. -/
def copySignals (rf : RegFile) (r : Nat) (up : Bool) (src dst : List Byte) : List Byte × Bool :=
  (routeSignals rf r).foldl (fun (a : List Byte × Bool) i =>
    let n := rfGet rf (F.BX_GW_SIGNAL_W1_LEN i) + 1
    let o := rfGet rf (F.BX_GW_SIGNAL_W1_ORDER i)
    let bus := sigBits o (rfGet rf (F.BX_GW_SIGNAL_W0_SRC_START i)) n
    let pdu := sigBits o (rfGet rf (F.BX_GW_SIGNAL_W0_DST_START i)) n
    let (d, bad) := if up then copySignal none src a.1 bus pdu else copySignal (some (pduLen rf r)) src a.1 pdu bus
    (d, a.2 || bad)) (dst, false)

/-! ### Messages (R336, R337) -/

/-- An ACF_CAN or ACF_CAN_BRIEF message of a frame (R336, IEEE 1722-2016). -/
def acfMsg (brief : Bool) (ctrl ts : Nat) (f : CanFrame) : List Byte :=
  let b := fun (x : Bool) => if x then 1 else 0
  let hdr := if brief then 8 else 16
  let pad := (4 - f.data.length % 4) % 4
  let quads := (hdr + f.data.length + pad) / 4
  let flags := pad * 64 + (if brief then 0 else 32) + 16 * b f.rtr + 8 * b f.ide + 4 * b f.brs +
    2 * b (f.format == 1) + b f.esi
  [Byte.ofNat ((if brief then 2 else 1) * 2 + quads / 256), Byte.ofNat quads, Byte.ofNat flags, Byte.ofNat (ctrl % 32)] ++
    (if brief then [] else beBytes 8 ts) ++ beBytes 4 (idBits f.ide f.id) ++ f.data ++ List.replicate pad 0

/-- A record of the gateway container (R337). -/
def gwRecord (type ctrl : Nat) (payload : List Byte) : List Byte :=
  [Byte.ofNat type, Byte.ofNat ctrl] ++ beBytes 2 payload.length ++ payload ++
    List.replicate ((4 - payload.length % 4) % 4) 0

/-- The XL record of a frame (R337). -/
def xlRecord (ctrl : Nat) (f : CanFrame) : List Byte :=
  gwRecord 2 ctrl (beBytes 2 (f.id % 2 ^ 11) ++ [Byte.ofNat f.sdt, Byte.ofNat f.vcid, if f.sec then 1 else 0, 0, 0, 0] ++
    beBytes 4 f.af ++ f.data)

/-- Bytes of a template's frame before its first message (R336, R337, R339). -/
def upHeader (rf : RegFile) (t format : Nat) : Nat :=
  (if rfGet rf (F.BX_GW_TMPL_W1_VID t) = 0 then 14 else 18) + (if format = 2 then 24 else if format = 3 then 8 else 12)

/-- The Ethernet frame of gathered messages, FCS excluded (R336 to R339). -/
def upBytes (rf : RegFile) (smac t seq : Nat) (o : OpenUp) : List Byte :=
  let g := fun f => rfGet rf f
  let msgs := o.msgs.flatten
  let vid := g (F.BX_GW_TMPL_W1_VID t)
  let stream := beBytes 4 (g (F.BX_GW_TMPL_W4_STREAM_ID t)) ++ beBytes 4 (g (F.BX_GW_TMPL_W3_STREAM_ID t))
  let dmac := g (F.BX_GW_TMPL_W0_DMAC t) + 2 ^ 32 * g (F.BX_GW_TMPL_W1_DMAC t)
  let tag := if vid = 0 then [] else beBytes 2 0x8100 ++ beBytes 2 (g (F.BX_GW_TMPL_W1_PCP t) * 8192 + vid)
  let body :=
    if o.format = 3 then
      beBytes 2 (g (F.BX_GW_TMPL_W2_ETYPE t)) ++ [1, Byte.ofNat o.msgs.length, 0, 0] ++ beBytes 4 seq ++ msgs
    else if o.format = 2 then
      beBytes 2 0x22F0 ++ [0x05, 0x81, Byte.ofNat seq, 0] ++ stream ++ beBytes 4 o.first ++ beBytes 4 0 ++
        beBytes 2 msgs.length ++ [0, 0] ++ msgs
    else
      beBytes 2 0x22F0 ++ [0x82, Byte.ofNat (0x80 + msgs.length / 256 % 8), Byte.ofNat msgs.length, Byte.ofNat seq] ++
        stream ++ msgs
  let all := beBytes 6 dmac ++ beBytes 6 smac ++ tag ++ body
  all ++ List.replicate (60 - all.length) 0

/-- A message of a DOWN packet. -/
inductive GwMsg where
  | can (bus : Nat) (f : CanFrame)
  | pdu (id : Nat) (data : List Byte)
  | bad
  deriving DecidableEq, Repr

/-- A frame's data filled with 0x00 up to the length of its DLC (R341). -/
def padDlc (f : CanFrame) : CanFrame :=
  if f.format = 2 then f else { f with data := f.data ++ List.replicate (fdLen f.dlc - f.data.length) 0 }

/-- An ACF_CAN message as a frame, its payload as it stands (R336, R341): one longer than its format carries is bad. -/
def acfFrame (hdr : Nat) (m : List Byte) : GwMsg :=
  let flags := (m.getD 2 0).toNat
  let data := (m.drop hdr).take (m.length - hdr - flags / 64)
  let fd := flags.testBit 1
  let rtr := flags.testBit 4
  let ide := flags.testBit 3
  if data.length > 64 ∨ (!fd ∧ data.length > 8) then .bad
  else
    .can ((m.getD 3 0).toNat % 32)
      ⟨idBits ide (beAt m (hdr - 4) 4), ide, rtr, if fd then 1 else 0, flags.testBit 2, false, fdDlc data.length, 0, 0, false, 0,
        data⟩

/-- The ACF messages of a stream, each by its msg_length (R336); the list's length bounds their number. -/
def acfSplit : Nat → List Byte → List GwMsg
  | 0, _ => []
  | n + 1, bs =>
    if bs.length < 4 then []
    else
      let type := (bs.getD 0 0).toNat / 2
      let len := 4 * (beAt bs 0 2 % 512)
      let m := bs.take len
      if len = 0 ∨ len > bs.length then [.bad]
      else
        let one := if type = 1 ∧ 16 ≤ len then acfFrame 16 m else if type = 2 ∧ 8 ≤ len then acfFrame 8 m else .bad
        one :: acfSplit n (bs.drop len)

/-- The records of a container (R337). -/
def recordSplit : Nat → List Byte → List GwMsg
  | 0, _ => []
  | n + 1, bs =>
    if bs.length < 4 then [.bad]
    else
      let len := beAt bs 2 2
      let p := (bs.drop 4).take len
      let rest := bs.drop (4 + (len + 3) / 4 * 4)
      let one := if p.length < len then GwMsg.bad
        else match (bs.getD 0 0).toNat with
          | 1 => if len < 2 then .bad else .pdu (beAt p 0 2) (p.drop 2)
          | 2 => if len < 13 ∨ len > 2060 then .bad
            else .can (bs.getD 1 0).toNat ⟨beAt p 0 2 % 2 ^ 11, false, false, 2, false, false, 0, (p.getD 2 0).toNat,
              (p.getD 3 0).toNat, (p.getD 4 0).getLsbD 0, beAt p 8 4, p.drop 12⟩
          | _ => .bad
      one :: recordSplit n rest

/-- The messages of a DOWN packet (R336, R337). An EtherType other than IEEE 1722's is read as a container. -/
def gwMessages (bs : List Byte) : List GwMsg :=
  let off := if beAt bs 12 2 = 0x8100 then 16 else 12
  let p := bs.drop (off + 2)
  if beAt bs off 2 = 0x22F0 then
    match (p.getD 0 0).toNat with
    | 0x82 => acfSplit p.length ((p.drop 12).take (beAt p 1 2 % 2048))
    | 0x05 => acfSplit p.length ((p.drop 24).take (beAt p 20 2))
    | _ => [.bad]
  else if p.getD 0 0 ≠ 1 then [.bad]
  else recordSplit (p.getD 1 0).toNat (p.drop 8)

/-! ### Routes (R333, R335) -/

/-- The DOWN route of a message (R333, R336, R337): by controller and identifier, every bit compared, or by PDU. -/
def downRoute (rf : RegFile) (m : GwMsg) : Option Nat :=
  (List.range 4096).find? (fun r =>
    decide (rfGet rf (F.BX_GW_ROUTE_W0_VALID r) = 1) && decide (rfGet rf (F.BX_GW_ROUTE_W0_DIR r) = 1) &&
      match m with
      | .can bus f => decide (rfGet rf (F.BX_GW_ROUTE_W2_KIND r) ≠ 1) &&
          decide (rfGet rf (F.BX_GW_ROUTE_W2_CTRL r) = bus) && decide (rfGet rf (F.BX_GW_ROUTE_W0_ID r) = f.id) &&
          decide (rfGet rf (F.BX_GW_ROUTE_W0_IDE r) = if f.ide then 1 else 0)
      | .pdu id _ => decide (rfGet rf (F.BX_GW_ROUTE_W2_KIND r) = 1) &&
          decide (rfGet rf (F.BX_GW_ROUTE_W5_PDU_ID r) = id)
      | .bad => false)

/-! ### The sealed-frame trailer (R342, R343) -/

/-- The tag of a sealed frame (R342): `f` carries the data before the trailer. -/
def sealTag (key : Nat) (f : CanFrame) (fresh : Nat) : List Byte :=
  let len := f.data.length + 12
  (beBytes 16 (Config.cmac key (beBytes 4 ((if f.ide then 2 ^ 31 else 0) + f.id % 2 ^ 29) ++
    [Byte.ofNat f.format, Byte.ofNat (if f.format = 2 then f.sdt else 0), Byte.ofNat (if f.format = 2 then f.vcid else 0), 0] ++
    beBytes 4 (if f.format = 2 then f.af else 0) ++ beBytes 2 len ++ f.data ++ beBytes 4 fresh))).take 8

/-- A payload padded so that payload + 12 is a valid length (R343); none for a format or length that cannot be
sealed. -/
def sealPad (f : CanFrame) : Option (List Byte) :=
  if f.format = 1 then
    ([0, 4, 8, 12, 20, 36, 52].find? (fun n => decide (f.data.length ≤ n))).map
      (fun n => f.data ++ List.replicate (n - f.data.length) 0)
  else if f.format = 2 ∧ f.data.length ≤ 2036 then some f.data
  else none

namespace State

/-- The gateway runs (R344). -/
def gwOn (s : State) : Bool := s.socUp && decide (s.act F.BX_GW_CFG_EN = 1)

/-- A gateway event with its queue and its route (R346); where it has none, the field keeps its value (log 78). -/
def gwEvent (s : State) (ev : Nat) (q r : Option Nat) : State :=
  let t := match q with | some k => s.setRg F.BX_GW_EV_LAST_PQ k | none => s
  (match r with | some k => t.setRg F.BX_GW_EV_LAST_ROUTE k | none => t).raise ev

/-- A malformed message of a packet of queue q, or one that is not supported (R336, R337, R341). -/
def badAcf (s : State) (q : Nat) (r : Option Nat) : State := (s.bump F.BX_GW_BAD_ACF_COUNT).gwEvent 166 (some q) r

/-! ### UP frames (R338) -/

/-- The open frame of a template. -/
def openUp (s : State) (t : Nat) : Option OpenUp := Sparse.get (fun _ => none) s.bx.opened t

/-- Put the open frame of a template. -/
def setOpenUp (s : State) (t : Nat) (o : Option OpenUp) : State :=
  { s with bx.opened := Sparse.set (fun _ => none) s.bx.opened t o }

/-- The open frame of a template closes and goes to the template's queue (R338); its sequence number is taken. -/
def closeUp (s : State) (t : Nat) (sealed : Option SealMsg) : State :=
  match s.openUp t with
  | none => s
  | some o =>
    let k := 2 * t + (if o.format = 3 then 1 else 0)
    let n := Sparse.get (fun _ => 0) s.bx.seq k
    let smac := s.act F.BX_GW_MAC_LO_MAC + 2 ^ 32 * s.act F.BX_GW_MAC_HI_MAC
    let u := { s.setOpenUp t none with
      bx.seq := Sparse.set (fun _ => 0) s.bx.seq k ((n + 1) % (if o.format = 3 then 2 ^ 32 else 256)) }
    u.pqOffer (rfGet o.tables (F.BX_GW_TMPL_W2_PQ t)) (packetOf (upBytes o.tables smac t n o) sealed [] [])

/-- MAXMSG of an open frame's template. -/
def maxMsg (rf : RegFile) (t : Nat) : Nat := max 1 (rfGet rf (F.BX_GW_TMPL_W2_MAXMSG t))

/-- MAXLEN of an open frame's template. -/
def maxUp (rf : RegFile) (t : Nat) : Nat :=
  let v := rfGet rf (F.BX_GW_TMPL_W5_MAXLEN t)
  orElse (decide (60 ≤ v ∧ v ≤ 8188)) v 1500

/-- A message joins its template's open frame, or opens a new one (R338). -/
def gwAdd (s : State) (t format : Nat) (m : List Byte) (hold ts : Nat) (sealed : Option SealMsg) : State :=
  let dead := s.now + 1000 * hold
  let full := fun (o : OpenUp) => sealed.isSome || decide (o.format ≠ format) ||
    decide (upHeader o.tables t o.format + o.msgs.flatten.length + m.length > maxUp o.tables t)
  let s1 := match s.openUp t with
    | some o => if full o then s.closeUp t none else s
    | none => s
  let o' := match s1.openUp t with
    | some o => { o with msgs := o.msgs ++ [m], deadline := min o.deadline dead }
    | none => ⟨s.activeOf 9, format, [m], dead, ts⟩
  let s2 := s1.setOpenUp t (some o')
  if sealed.isSome ∨ hold = 0 ∨ o'.msgs.length ≥ maxMsg o'.tables t then s2.closeUp t sealed else s2

/-- The message timestamp of a CAN stamp (R336): by the latest pair at or before it; before any pair, a free value. -/
def gwTime (s : State) (fbtc : Nat) : State × Nat :=
  match s.fbtcTime fbtc with
  | some x => (s, (s.convertStamp (s.act F.TE_PAIR_CFG_PAIR_TI) x (s.act F.BX_GW_CFG_TI_SEL) % (2 ^ 64 : Int)).toNat)
  | none => (s.useFree, s.freeVal % 2 ^ 64)

/-! ### Writing a transmit object (R341) -/

/-- The target object takes what `write` puts into it and is requested, or the message is discarded; answers whether it
was written. -/
def gwTarget (s : State) (c o : Nat) (q : Option Nat) (r : Nat) (replace : Bool) (write : State → State) : State × Bool :=
  let rf := s.canRf c
  if !canIs rf c o 1 ∨ !canGw rf c o then (s.bump F.BX_GW_TX_BUSY_COUNT, false)
  else match s.objStatus c o with
    | 2 => ((s.bump F.BX_GW_TX_BUSY_COUNT).gwEvent 163 q (some r), false)
    | 1 =>
      if replace then ((write (s.canCancel c o)).canReq c o, true)
      else ((s.bump F.BX_GW_TX_BUSY_COUNT).gwEvent 163 q (some r), false)
    | _ => ((write s).canReq c o, true)

/-- A frame written into a target object: header and data (R341). -/
def gwWriteFrame (s : State) (c o : Nat) (f : CanFrame) : State :=
  (s.putHeader c o f (s.rg (F.BX_CAN_OBJ_W3_LEN c o))).putData c o f.data

/-- A signal PDU written into a target object (R340): the route's identifier, and the signals over the object's data.
The rest of the header is not stated: a free value. -/
def gwWritePdu (s : State) (c o : Nat) (id : Nat) (ide : Nat) (data : List Byte) : State :=
  let s1 := (s.wr (R.BX_CAN_OBJ_W1 c o) (Word.ofNat (id + 2 ^ 29 * ide))).putData c o data
  let w2 := s1.freeVal % 4 + 4 * (s1.freeVal / 4 % 2) + 16 * (s1.freeVal / 8 % 2 ^ 15)
  s1.useFree.wr (R.BX_CAN_OBJ_W2 c o) (Word.ofNat w2)

/-! ### The route lookup of an UP frame (R333, R334) -/

/-- The UP route of a frame (R333). -/
def upRoute (s : State) (c : Nat) (f : CanFrame) : Option Nat :=
  let rf := s.activeOf 9
  (List.range 4096).find? (fun r =>
    decide (rfGet rf (F.BX_GW_ROUTE_W0_VALID r) = 1) && decide (rfGet rf (F.BX_GW_ROUTE_W0_DIR r) = 0) &&
      decide (rfGet rf (F.BX_GW_ROUTE_W2_CTRL r) = c) &&
      decide (rfGet rf (F.BX_GW_ROUTE_W0_IDE r) = if f.ide then 1 else 0) &&
      decide (Nat.land (Nat.xor f.id (rfGet rf (F.BX_GW_ROUTE_W0_ID r))) (rfGet rf (F.BX_GW_ROUTE_W1_MASK r)) = 0))

/-- The copy of an UP route (R334); Fold may block it (R418). -/
def upCopy (s : State) (r : Nat) (f : CanFrame) : State :=
  let rf := s.activeOf 9
  if rfGet rf (F.BX_GW_ROUTE_W7_COPY_EN r) = 0 then s
  else if s.foldBlocks (rfGet rf (F.BX_GW_ROUTE_W7_COPY_CTRL r)) f.ide f.id then s.bump F.SV_FOLD_KA_BLOCKED_COUNT
  else
    let c := rfGet rf (F.BX_GW_ROUTE_W7_COPY_CTRL r)
    let o := rfGet rf (F.BX_GW_ROUTE_W7_COPY_OBJ r)
    match s.gwTarget c o none r (decide (rfGet rf (F.BX_GW_ROUTE_W2_REPLACE r) = 1)) (fun t => t.gwWriteFrame c o f) with
    | (t, true) => t.bump F.BX_GW_COPIES_COUNT
    | (t, false) => t

/-- An UP frame that matched route r becomes a message of the route's template (R334, R336, R337). -/
def upSend (s : State) (c r : Nat) (f : CanFrame) (fbtc : Nat) : State :=
  let rf := s.activeOf 9
  let t := rfGet rf (F.BX_GW_ROUTE_W2_TMPL r)
  let hold := rfGet rf (F.BX_GW_ROUTE_W3_HOLD r)
  let sealed := if rfGet rf (F.BX_GW_ROUTE_W6_SEAL r) = 1 then some ⟨rfGet rf (F.BX_GW_ROUTE_W6_SEAL_CTX r), r, rfGet rf (F.BX_GW_TMPL_W2_PQ t), f⟩ else none
  match s.gwTime fbtc with
  | (s1, ts) =>
    if rfGet rf (F.BX_GW_ROUTE_W2_KIND r) = 1 then
      let (pdu, short) := copySignals rf r true f.data (List.replicate (pduLen rf r) 0)
      let s2 := if short then s1.bump F.BX_GW_SIG_SHORT_COUNT else s1
      s2.gwAdd t 3 (gwRecord 1 0 (beBytes 2 (rfGet rf (F.BX_GW_ROUTE_W5_PDU_ID r)) ++ pdu)) hold ts sealed
    else if f.format = 2 then s1.gwAdd t 3 (xlRecord c f) hold ts sealed
    else
      let fm := rfGet rf (F.BX_GW_TMPL_W2_FORMAT t)
      s1.gwAdd t (if fm = 3 then 0 else fm) (acfMsg (fm == 1) c ts f) hold ts sealed

/-- A frame that a gateway receive object took is looked up (R333, R317): the object is acknowledged in every case. An
uncorrectable word rewinds the packet being built (R328), be it this message's first. -/
def upFrame (s : State) (c o ecc word : Nat) : State :=
  let f := s.objFrame c o (s.rg (F.BX_CAN_OBJ_W3_LEN c o))
  let fbtc := s.rd64 (R.BX_CAN_OBJ_W5 c o)
  let s1 := (s.canAck c o).bump F.BX_GW_UP_FRAMES_COUNT
  match s1.upRoute c f with
  | none => (s1.bump F.BX_GW_UP_NOROUTE_COUNT).gwEvent 162 none none
  | some r =>
    let s2 := s1.bump (F.BX_GW_HITS_COUNT r)
    let e := s.objEcc c o f.data.length ecc word
    if e.1 = 2 then
      let t := rfGet (s.activeOf 9) (F.BX_GW_ROUTE_W2_TMPL r)
      let s3 := (s2.msgRamEcc c 2 e.2).bump F.BX_GW_ECC_DROP_COUNT
      let tables := match s3.openUp t with | some op => op.tables | none => s.activeOf 9
      (s3.setOpenUp t none).bump (F.BX_PQ_REWOUND_COUNT (rfGet tables (F.BX_GW_TMPL_W2_PQ t)))
    else ((s2.msgRamEcc c e.1 e.2).upCopy r f).upSend c r f fbtc

/-! ### DOWN packets (R341) -/

/-- One message of a DOWN packet, the i-th (R341); Fold may block it (R418). -/
def downMsg (s : State) (q : Nat) (p : Packet) (i : Nat) (m : GwMsg) : State :=
  let rf := p.tables
  match m with
  | .bad => s.badAcf q none
  | _ =>
    match downRoute rf m with
    | none => (s.bump F.BX_GW_DOWN_NOROUTE_COUNT).gwEvent 162 (some q) none
    | some r =>
      let s1 := (s.bump (F.BX_GW_HITS_COUNT r)).bump F.BX_GW_DOWN_MSGS_COUNT
      let c := rfGet rf (F.BX_GW_ROUTE_W2_CTRL r)
      let o := rfGet rf (F.BX_GW_ROUTE_W2_OBJ r)
      let rep := decide (rfGet rf (F.BX_GW_ROUTE_W2_REPLACE r) = 1)
      let sealed := decide (rfGet rf (F.BX_GW_ROUTE_W6_SEAL r) = 1)
      match m with
      | .can _ f =>
        if s.foldBlocks c f.ide f.id then s1.bump F.SV_FOLD_KA_BLOCKED_COUNT
        else if sealed then
          match p.seals.find? (fun x => decide (x.1 = i)) with
          | some (_, data) =>
            (s1.gwTarget c o (some q) r rep (fun t => t.gwWriteFrame c o { f with data := data, dlc := fdDlc data.length })).1
          | none => s1.badAcf q (some r)
        else (s1.gwTarget c o (some q) r rep (fun t => t.gwWriteFrame c o (padDlc f))).1
      | .pdu _ data =>
        if s.foldBlocks c (rfGet rf (F.BX_GW_ROUTE_W0_IDE r) == 1) (rfGet rf (F.BX_GW_ROUTE_W0_ID r)) then
          s1.bump F.SV_FOLD_KA_BLOCKED_COUNT
        else if sealed then s1.badAcf q (some r)
        else
          let cap := s1.objCap c o
          let (new, short) := copySignals rf r false data (s1.objData c o cap)
          let s2 := if short then s1.bump F.BX_GW_SIG_SHORT_COUNT else s1
          (s2.gwTarget c o (some q) r rep (fun t => t.gwWritePdu c o (rfGet rf (F.BX_GW_ROUTE_W0_ID r))
            (rfGet rf (F.BX_GW_ROUTE_W0_IDE r)) new)).1
      | .bad => s1

/-- The messages of a DOWN packet in order. -/
def downMsgs (s : State) (q : Nat) (p : Packet) : Nat → List GwMsg → State
  | _, [] => s
  | i, m :: ms => (s.downMsg q p i m).downMsgs q p (i + 1) ms

/-! ### Checking and adding the trailer (R343, R393) -/

/-- A frame or message of a route is refused for its context (R94, R343). -/
def sealNoCtx (s : State) (c : Nat) (q : Option Nat) (r : Nat) : State :=
  ((s.bump F.BX_GW_SEAL_NOCTX_COUNT).ctxDropCount c true).gwEvent 165 q (some r)

/-- The context of a sealed message asked for its key: only a sealed context serves. -/
def sealAsk (s : State) (c : Nat) (who : CeAsker) : State × KeyAnswer :=
  if ctxKind s.ceRf c = 2 then s.ctxAsk c who else (s, .unusable)

/-- F_last of a sealed context (R398). -/
def freshLast (s : State) (c : Nat) : Nat := s.rg (F.CE_CTX_STAT_W4_PN c)

/-- F_next of a sealed context (R398). -/
def freshNext (s : State) (c : Nat) : Nat := s.rg (F.CE_CTX_STAT_W3_PN c)

/-- FRESH_WIN of a context (R393). -/
def freshWin (s : State) (c : Nat) : Nat := max 1 (rfGet s.ceRf (F.CE_CTX_W3_WINDOW c))

/-- The trailer of an UP message is checked (R343). -/
def sealCheck (s : State) (id : Nat) (f : Frame) (m : SealMsg) : State :=
  let n := m.msg.data.length - 12
  let bad := fun (t : State) => ((t.bump F.BX_GW_SEAL_BAD_COUNT).gwEvent 164 (some m.queue) (some m.route)).ceReject id
  if m.msg.data.length < 12 ∨ m.msg.format = 0 then bad s
  else match s.sealAsk m.ctx (.check id) with
    | (t, .unusable) => (t.sealNoCtx m.ctx (some m.queue) m.route).ceReject id
    | (t, .hold) => t
    | (t, .ready key) =>
      let fresh := beAt m.msg.data n 4
      let d := (fresh + 2 ^ 32 - t.freshLast m.ctx) % 2 ^ 32
      let t1 := t.pmu 0x40 (t.ctxPair m.ctx) m.msg.data.length
      if m.msg.data.drop (n + 4) = sealTag key { m.msg with data := m.msg.data.take n } fresh ∧ 0 < d ∧ d ≤ t.freshWin m.ctx then
        ((t1.setRg (F.CE_CTX_STAT_W4_PN m.ctx) fresh).ctxCount m.ctx).cePassed id
          { f with stage := .checked, times := { f.times with decrypt := some t.now } }
      else bad t1

/-- The messages of a handed-over frame that still wait for their seal: number, frame and route. -/
def toSeal (t : TxNow) (bs : List Byte) : List (Nat × CanFrame × Nat) :=
  let ms := gwMessages bs
  ((List.range ms.length).zip ms).filterMap (fun (x : Nat × GwMsg) =>
    match x.2 with
    | .can _ f =>
      match downRoute t.tables x.2 with
      | some r =>
        if rfGet t.tables (F.BX_GW_ROUTE_W6_SEAL r) = 1 ∧ (sealPad f).isSome ∧ !t.seals.any (fun y => decide (y.1 = x.1)) then
          some (x.1, f, r)
        else none
      | none => none
    | _ => none)

/-- One message of the frame at P38 is sealed (R343): the freshness value of its context is taken. -/
def sealOne (s : State) (t : TxNow) (i : Nat) (f : CanFrame) (r : Nat) : State :=
  let c := rfGet t.tables (F.BX_GW_ROUTE_W6_SEAL_CTX r)
  match s.sealAsk c (.seal t.copy.frame) with
  | (u, .unusable) => ((u.sealNoCtx c (u.downBy t.tables t.copy.tc) r).setTx 38 none).dropCopy t.copy 9
  | (u, .hold) => u
  | (u, .ready key) =>
    let data := (sealPad f).getD []
    let fresh := u.freshNext c
    let out := data ++ beBytes 4 fresh ++ sealTag key { f with data := data } fresh
    let u1 := (u.tick (F.CE_CTX_STAT_W3_PN c)).ctxCount c
    (u1.pmu 0x40 (u1.ctxPair c) out.length).setTx 38
      (some { t with copy := { t.copy with enc := some u.now }, seals := t.seals ++ [(i, out)] })

end State

end Sys2Proof.Machine
end

