-- ==== Sys2Proof/Machine/HpOps.lean ====
section
/-!
DEFINITION. The host ports and the cluster as operations (16_compute_memory_bridge.md, R450 to R463).
-/

namespace Sys2Proof.Machine

namespace State

/-! ### RX rings -/

/-- The RX ring of a frame at host port p, and h (R459), over the fields after translation (R216). -/
def rxRing (s : State) (p : Nat) (f : Frame) (tc : Nat) : Nat × Nat :=
  let h := parseHdr f.bytes
  let crc := fieldCrc f h (s.act (F.CX_HP_CFG_HASH_FIELDS p)) (s.act (F.CX_HP_SEED_SEED p))
    ((f.rewrite.bind (·.newSrc)).getD h.src) ((f.rewrite.bind (·.newDst)).getD h.dst)
  let sp := min 6 (s.act (F.CX_HP_RXMAP_SPREAD p tc))
  ((s.act (F.CX_HP_RXMAP_FIRST p tc) + crc % 2 ^ sp) % 64, crc)

/-- Bytes of a buffer of RX ring r (R472). -/
def rxBuf (s : State) (p r : Nat) : Nat :=
  let v := s.act (F.CX_HP_RX_CFG_BUF p r)
  256 * orElse (decide (v ≠ 0)) v 8

/-- Bytes 8 to 31 of an RX descriptor (R460). -/
def rxDesc (f : Frame) (tc crc len err : Nat) (first last trapped : Bool) : List Byte :=
  let b := fun (x : Bool) => if x then 1 else 0
  leBytes 2 len ++
    [Byte.ofNat (b first + 2 * b last + 4 * b (last && f.verdict == .untrusted) + 8 * b trapped +
      (if last then 16 * err else 0)),
    Byte.ofNat (f.l3 + 4 * f.l4), Byte.ofNat f.port, Byte.ofNat (tc % 8), 0, 0] ++
    leBytes 8 (compactStamp f.ti f.stamp) ++ leBytes 4 crc ++ leBytes 4 (2 ^ 31)

/-- One buffer of a frame and its descriptor; a buffer outside core-usable DRAM takes no bytes. -/
def rxBuffer (s : State) (p r i : Nat) (chunk desc : List Byte) : State :=
  let d := s.hpDesc p false r i
  let a := ofLe (s.dramRd d 8)
  let t := if s.dramOk a chunk.length then s.dramWr a chunk else s
  (t.dramWr (d + 8) desc).arbBytes 0 (chunk.length + 32)

/-- Descriptors that n bytes need at RX ring r (R459). -/
def rxNeed (s : State) (p r n : Nat) : Nat := max 1 ((n + s.rxBuf p r - 1) / s.rxBuf p r)

/-- Descriptors that a frame of n bytes takes: those it needs, as far as they are posted (R459). -/
def rxTakes (s : State) (p r n : Nat) : Nat :=
  min (s.rxNeed p r n) (s.hpPosted p false r (s.rg (F.CX_HP_RX_HEAD_HEAD p r)))

/-- The first k descriptors of a frame that takes n are written (R459, R460). -/
def rxBuffers (s : State) (p r : Nat) (f : Frame) (tc crc err n k : Nat) (bytes : List Byte) (trapped : Bool) : State :=
  let head := s.rg (F.CX_HP_RX_HEAD_HEAD p r)
  let buf := s.rxBuf p r
  let t := s.forEach (List.range k) (fun t i =>
    let chunk := (bytes.drop (i * buf)).take buf
    t.rxBuffer p r (head + i) chunk
      (rxDesc f tc crc chunk.length err (decide (i = 0)) (decide (i + 1 = n)) trapped))
  t.setRg (F.CX_HP_RX_HEAD_HEAD p r) ((head + k) % t.hpSize p false r)

/-- A frame is written into RX ring r from HEAD on (R459, R460): `err` is its ERR. -/
def rxWrite (s : State) (p r : Nat) (f : Frame) (tc crc err : Nat) (bytes : List Byte) (trapped : Bool) : State :=
  let n := s.rxTakes p r bytes.length
  let e := if n < s.rxNeed p r bytes.length then 4 else err
  ((s.rxBuffers p r f tc crc e n n bytes trapped).bump (F.HP_RX_FRAMES_COUNT p)).hpComplete p false r

/-- The descriptor of a frame of n bytes whose read meets an uncorrectable error (R463): the one that `ecc` counts from HEAD
on, or one whose unit is known bad (R464). -/
def rxDescBad (s : State) (p r n : Nat) (ecc : Option Nat) : Option Nat :=
  (List.range (s.rxTakes p r n)).find? (fun i => decide (ecc = some i) ||
    (s.badUnit (s.hpDesc p false r (s.rg (F.CX_HP_RX_HEAD_HEAD p r) + i)) 32).isSome)

/-- A frame finds no ring, or no descriptor (R459), or a descriptor read meets an uncorrectable error (R463): the descriptors
before it are written, the ring stops, and the frame counts as one that finds the ring disabled (log 61). Answers none where
the ring takes it. -/
def rxRefused (s : State) (p r : Nat) (f : Frame) (tc crc : Nat) (bytes : List Byte) (trapped : Bool) (ecc : Option Nat) :
    Option State :=
  if !s.hpOn p false r then some (s.bump (F.HP_RX_NORING_COUNT p))
  else if s.hpPosted p false r (s.rg (F.CX_HP_RX_HEAD_HEAD p r)) = 0 then some (s.bump (F.HP_RX_NOBUF_COUNT p))
  else match s.rxDescBad p r bytes.length ecc with
    | some i =>
      let a := s.hpDesc p false r (s.rg (F.CX_HP_RX_HEAD_HEAD p r) + i)
      let t := s.rxBuffers p r f tc crc 0 (s.rxTakes p r bytes.length) i bytes trapped
      some (((t.dramUe a).hpStop p false r).bump (F.HP_RX_NORING_COUNT p))
    | none => none

/-- A host port's transfer of a frame ends (R459, R460): it is written with its ERR, or finds no ring or descriptor. A
transfer given up on the way leaves the frame marked (R137). -/
def hpWriteEnd (s : State) (port : Nat) (t : TxNow) (f : Frame) (err : Nat) (ecc : Option Nat) (given : Bool) : State :=
  let p := port - 36
  let (r, crc) := s.rxRing p f t.copy.tc
  let s1 := s.setTx port none
  let bs := s.egressBytes f port
  match s1.rxRefused p r f t.copy.tc crc bs false ecc with
  | some u => u.dropCopy t.copy 10
  | none =>
    let s2 := s1.rxWrite p r f t.copy.tc crc err bs false
    let s3 := (s2.bump64 (R.PX_TX_FRAMES port)).bump64 (R.PX_TX_BYTES port) (bs.length + 4)
    let s4 := s3.csuSee 2 port (bs ++ fcsBytes bs)
    (s4.pegDone f (some t.copy) (some s.now) false given t.copy.cut 0).copyGone t.copy.frame
      (decide (f.verdict = .ok) && !given)

/-- ERR of a host port's completion (R460): 1 FCS, 2 LENGTH, 3 DROP, 0 none. -/
def hpErr (f : Frame) : Nat := if f.verdict = .drop then (if f.badWhy = 0 then 3 else f.badWhy) else 0

/-- An internal port gives up the frame that it takes (R137): a host port completes it and marks it in its descriptor,
P38 rewinds its packet, P39 discards it. -/
def giveUp (s : State) (p : Nat) (t : TxNow) : State :=
  if p = 36 ∨ p = 37 then
    match s.frameOf t.copy.frame with
    | some f => s.hpWriteEnd p t f (hpErr { f with verdict := .drop }) none true
    | none => s.setTx p none
  else ((if p = 38 then s.p38Rewind t else s).setTx p none).dropCopy t.copy 10

/-- SV relays a trapped EAPOL frame to the host ports that ask for it (R462). -/
def eapolRelay (s : State) (f : Frame) : State :=
  let h := parseHdr f.bytes
  if f.directive.isNone ∧ linkLocal h.dmac ∧ h.etype = 0x888E then
    s.forEach [0, 1] (fun t p =>
      if t.act (F.CX_HP_CFG_EAPOL_EN p) = 1 ∧ t.portUp (36 + p) then
        let r := t.act (F.CX_HP_CFG_EAPOL_RING p)
        let crc := (t.rxRing p f f.tc).2
        let bs := t.egressBytes f 39
        match t.rxRefused p r f f.tc crc bs true none with
        | some u => u
        | none => t.rxWrite p r f f.tc crc 0 bs true
      else t)
  else s

/-! ### TX rings -/

/-- Descriptor i of a TX ring. -/
def txDesc (s : State) (p r i : Nat) : List Byte := s.dramRd (s.hpDesc p true r i) 32

/-- Descriptors of the frame at index i, FIRST to LAST, among n posted ones; 0 where its LAST is not posted yet. -/
def txCount (s : State) (p r : Nat) : Nat → Nat → Nat
  | _, 0 => 0
  | i, n + 1 =>
    if (slice0 (s.txDesc p r i) 10 1).any (fun b => b.toNat.testBit 1) then 1
    else match txCount s p r (i + 1) n with
      | 0 => 0
      | k => k + 1

/-- Descriptors of the next frame of TX ring r; 0 where the ring is not ready (R461). -/
def txReady (s : State) (p r : Nat) : Nat :=
  if s.hpOn p true r then
    let x := s.hpRing (ringKey p true r)
    s.txCount p r x.next (s.hpPosted p true r x.next)
  else 0

/-- The TX ring that host port p serves next: the highest TC, round robin among equals (R461). -/
def txChoose (s : State) (p : Nat) : Option Nat :=
  let ready := (List.range 64).filter (fun r => decide (s.txReady p r ≠ 0))
  let tc := fun r => s.act (F.CX_HP_TX_CFG_TC p r)
  match (ready.map tc).max? with
  | none => none
  | some m =>
    let l := ready.filter (fun r => decide (tc r = m))
    let last := Sparse.get (fun _ => 63) s.cx.rr (8 * p + m)
    match l.find? (fun r => decide (r > last)) with
    | some r => some r
    | none => l.head?

/-- A TX descriptor's buffer is bad (R461). -/
def txBad (s : State) (d : List Byte) : Bool :=
  let len := ofLe (slice0 d 8 2)
  decide (len = 0) || !s.dramOk (ofLe (slice0 d 0 8)) len

/-- The first descriptor of a frame of TX ring r, from which FIRST, DIRECT and DPORT are read, is bad (R461). -/
def txBadFirst (s : State) (p r : Nat) (d : List Byte) : Bool :=
  !(d.getD 10 0).toNat.testBit 0 || decide ((d.getD 11 0).toNat > 40) ||
    ((d.getD 10 0).toNat.testBit 5 && decide (s.act (F.CX_HP_TX_CFG_DIRECT_OK p r) = 0))

/-- A job joins the ring's list, and what can be completed is. -/
def txJob (s : State) (p r : Nat) (j : TxJob) : State :=
  let x := s.hpRing (ringKey p true r)
  (s.setHp (ringKey p true r) { x with
    next := (j.first + j.count) % s.hpSize p true r, jobs := x.jobs ++ [j] }).txFlush p r (x.jobs.length + 1)

/-- A frame of TX ring r enters at step 1 (R461): `ecc` is 2 for an uncorrectable error met after it has begun. -/
def txEnter (s : State) (p r first n : Nat) (ds : List (List Byte)) (ecc : Nat) : State :=
  let d := ds.headD []
  let flag := fun k => (d.getD 10 0).toNat.testBit k
  let data := ds.flatMap (fun d => s.dramRd (ofLe (slice0 d 0 8)) (ofLe (slice0 d 8 2)))
  let bytes := data ++ List.replicate (60 - data.length) 0
  let at_ := ofLe (slice0 d 16 8)
  let id := s.sx.nextId
  let ts := flag 4 && decide (ecc = 0)
  let key := ringKey p true r
  let t := (s.arbBytes 0 (data.length + 32 * n)).enterWhole (36 + p) bytes (fun f => { f with
    launch := if flag 2 then some (giga * (at_ / 2 ^ 38 % 2 ^ 24) + at_ / 256 % 2 ^ 30) else none
    csumFull := flag 3
    directive := if flag 5 then some (2 ^ (d.getD 11 0).toNat) else none
    tc := if flag 5 then s.act (F.CX_HP_TX_CFG_TC p r) else f.tc
    owner := if ts then key + 1 else 0
    verdict := if ecc = 2 then .drop else f.verdict })
  let alive := (t.frameOf id).isSome
  let status := if ecc = 2 then some 3 else if ts then (if alive then none else some 1) else some 0
  (t.bump (F.HP_TX_FRAMES_COUNT p)).txJob p r ⟨first, n, if ts && alive then some id else none, none, status⟩

/-- The first of n descriptors from index `first` on whose read meets an uncorrectable error (R463): the one that `ecc`
counts from 3 on, or one whose unit is known bad (R464). -/
def txDescBad (s : State) (p r first n ecc : Nat) : Option Nat :=
  (List.range n).find? (fun i => decide (ecc = i + 3) || (s.badUnit (s.hpDesc p true r (first + i)) 32).isSome)

/-- The port reads the next frame of TX ring r (R461, R463): `ecc` is 1 for an uncorrectable error met in a buffer
before the frame has begun to enter, 2 after, 3 + i in its descriptor i. A buffer unit known bad (R464) is met before. -/
def txServe (s : State) (p r ecc : Nat) : State :=
  let first := (s.hpRing (ringKey p true r)).next
  let n := s.txReady p r
  let ds := (List.range n).map (fun i => s.txDesc p r (first + i))
  let buf := ofLe (slice0 (ds.headD []) 0 8)
  let known := ds.findSome? (fun d => s.badUnit (ofLe (slice0 d 0 8)) (ofLe (slice0 d 8 2)))
  match s.txDescBad p r first n ecc with
  | some i => (s.dramUe (s.hpDesc p true r (first + i))).hpStop p true r
  | none =>
    if s.txBadFirst p r (ds.headD []) || ds.any s.txBad then
      (s.bump (F.HP_TX_BADDESC_COUNT p)).txJob p r ⟨first, n, none, none, some 2⟩
    else if ecc = 1 ∨ known.isSome then (s.dramUe (known.getD buf)).txJob p r ⟨first, n, none, none, some 3⟩
    else (if ecc = 2 then s.dramUe buf else s).txEnter p r first n ds ecc

/-! ### Rings at a Stitch -/

/-- The ring's registers differ between two copies of CD14. -/
def ringChanged (old new : RegFile) (base : Nat) : Bool :=
  [0, 4, 8, 12].any (fun o => decide (Sparse.get resetWord old (base + o) ≠ Sparse.get resetWord new (base + o)))

/-- A ring after a Stitch (R463): enabled afresh it starts at 0; otherwise a change stops it. -/
def ringCommit (s : State) (old : RegFile) (p : Nat) (tx : Bool) (r : Nat) : State :=
  let new := s.activeOf 14
  let base := if tx then R.CX_HP_TX_BASE_LO p r else R.CX_HP_RX_BASE_LO p r
  let en := fun rf => rfGet rf (if tx then F.CX_HP_TX_CFG_EN p r else F.CX_HP_RX_CFG_EN p r)
  if !ringChanged old new base then s
  else if en old = 0 ∧ en new = 1 then
    ((s.setHp (ringKey p tx r) { idleRing with on := true }).setRg (hpHeadF p tx r) 0).setRg (hpTailF p tx r) 0
  else s.setHp (ringKey p tx r) { s.hpRing (ringKey p tx r) with on := false, jobs := [] }

/-- Every ring after a Stitch of CD14. -/
def ringsCommit (s : State) (old : RegFile) : State :=
  s.forEach [0, 1] (fun t p => t.forEach (List.range 64) (fun t r =>
    (t.ringCommit old p false r).ringCommit old p true r))

/-! ### The cluster -/

/-- Cores that CX_CORE_CFG names and that no Mend activity holds offline. -/
def coresToRun (s : State) : Nat := maskDiff (s.act F.CX_CORE_CFG_CORES) (s.rg F.CX_CORE_STAT_OFFLINE)

/-- Cores start in machine mode at 0x08_0000_0000, each with its hart ID in a0 (R450); RUN then shows `run`. -/
def runCores (s : State) (cores run : Nat) : State :=
  (s.forEach (maskList cores 8) (fun t k => t.emit (.coreStart k dramBase k))).setRg F.CX_CORE_STAT_RUN run

/-- The named cores start (R450), or start again (R451). -/
def startCores (s : State) : State := s.runCores s.coresToRun s.coresToRun

/-- The cluster moves to an operating point, clock and voltage (R453). -/
def setOpp (s : State) (p : Nat) : State := { s.setRg F.CX_DVFS_CUR p with cx.vid := 3 - p }

/-- SV starts the copy of the core image, where the cluster has not run since the start (R450, R451). -/
def copyImage (s : State) : State :=
  if s.cx.released ∨ s.act F.CX_CORE_CFG_BOOT_SRC = 1 ∨ s.cx.copying ∨ s.rg F.CX_CORE_STAT_IMG_DONE = 1 ∨
      s.rg F.CX_CORE_STAT_IMG_ERR = 1 then s
  else { s with cx.copying := true }

/-- The cluster leaves reset (R450, R451): host ports come up, and the cores start or the copy of their image does. -/
def clusterRelease (s : State) : State :=
  let s1 := (s.copyImage.setOpp (s.act F.CX_CORE_CFG_OPP_TOP))
  let s2 := { s1 with pw.cxReset := false, cx.released := true }.portsJudge
  if s.cx.released then s2.startCores
  else if s.act F.CX_CORE_CFG_BOOT_SRC = 0 ∧ s.rg F.CX_CORE_STAT_IMG_DONE = 1 then s2.startCores
  else s2

/-- Operating points that the Stitch no longer permits are left at the commit instant (R453). -/
def oppCommit (s : State) : State :=
  let top := s.act F.CX_CORE_CFG_OPP_TOP
  let t := if s.cx.released ∧ s.rg F.CX_DVFS_CUR < top then s.setOpp top else s
  match t.cx.dvfs with
  | some (a, g) => { t with cx.dvfs := some (a, max g top) }
  | none => t

/-- Core k is held offline (R454 steps 3 and 4). -/
def coreOff (s : State) (k : Nat) : State :=
  let clear := fun (t : State) f => t.setRg f (clrBit (t.rg f) k)
  let t := clear (clear s F.CX_CORE_STAT_RUN) F.CX_CORE_STAT_OFF_REQ
  (t.setRg F.CX_CORE_STAT_OFFLINE (setBit (t.rg F.CX_CORE_STAT_OFFLINE) k)).raise 211

/-- A core is asked to go offline (R454 step 1). -/
def coreOffReq (s : State) (k : Nat) : State :=
  s.setRg F.CX_CORE_STAT_OFF_REQ (setBit (s.rg F.CX_CORE_STAT_OFF_REQ) k)

/-- An offline core restarts (R454). -/
def coreReturn (s : State) (k : Nat) : State :=
  let t := (s.setRg F.CX_CORE_STAT_OFFLINE (clrBit (s.rg F.CX_CORE_STAT_OFFLINE) k)).setRg F.CX_CORE_STAT_OFF_REQ
    (clrBit (s.rg F.CX_CORE_STAT_OFF_REQ) k)
  if s.pw.cxReset then t else t.runCores (2 ^ k) (setBit (t.rg F.CX_CORE_STAT_RUN) k)

/-! ### Tag records and counters of a core -/

/-- The tag records of core k. -/
def tagsOf (s : State) (k : Nat) : List (List Nat) := Sparse.get (fun _ => []) s.cx.tags k

/-- Put core k's tag records; the window shows the oldest (R457). -/
def setTags (s : State) (k : Nat) (l : List (List Nat)) : State :=
  let t := { s with cx.tags := Sparse.set (fun _ => []) s.cx.tags k l }.setRg (F.CX_TAG_STAT_COUNT k) l.length
  t.forEach (List.range 8) (fun t i => t.wr (R.CX_TAG_REC k i) (Word.ofNat ((l.headD []).getD i 0)))

/-- PMU counter j of core k in one cycle (R455): the occurrences, or the occupancy, of each event code. -/
def corePmu (s : State) (k j : Nat) (events : List Nat) : State :=
  if s.rg (F.CX_PMU_SEL_EN k j) = 0 then s
  else
    let e := s.rg (F.CX_PMU_SEL_EVENT k j)
    let n := if e = 0 ∨ e > 12 then 1 else events.getD e 0
    let occ := decide (8 ≤ e ∧ e ≤ 10)
    let add := if occ && decide (s.rg (F.CX_PMU_SEL_THRESH_EN k j) = 1) then
        (if n > s.rg (F.CX_PMU_SEL_N k j) then 1 else 0)
      else n
    let v := s.rd64 (R.CX_PMU_CNT k j) + add
    let t := s.wr64 (R.CX_PMU_CNT k j) v
    if v ≥ 2 ^ 64 then t.raise 213 else t

/-- Instructions between two tags of a core: 1 in 2^K, with the jitter of an LFSR (R457); reserved values of K act as 8
(R471). -/
def tagGap (s : State) (k : Nat) : Nat :=
  let v := s.rg (F.CX_TAG_CFG_K k)
  s.lfsrDraw (orElse (decide (8 ≤ v ∧ v ≤ 20)) v 8)

/-- Put what a core's tagging keeps: instructions before the next tag, and tagged ones that have not ended. -/
def setTagging (s : State) (k : Nat) (x : Nat × Nat) : State :=
  { s with cx.tagging := Sparse.set (fun _ => (0, 0)) s.cx.tagging k x }

/-- What a core's tagging keeps. -/
def taggingOf (s : State) (k : Nat) : Nat × Nat := Sparse.get (fun _ => (0, 0)) s.cx.tagging k

/-- A core with TAG EN decodes an instruction: the one at which the count ends is tagged (R457). -/
def decodeOne (s : State) (k : Nat) : State :=
  let t := if (s.taggingOf k).1 = 0 then s.useFree.setTagging k (s.tagGap k, (s.taggingOf k).2) else s
  let (left, open_) := t.taggingOf k
  if left ≤ 1 then t.setTagging k (0, open_ + 1) else t.setTagging k (left - 1, open_)

/-- A core decodes instructions. -/
def coreDecode (s : State) (k n : Nat) : State :=
  if s.rg (F.CX_TAG_CFG_EN k) = 0 then s else s.forEach (List.range n) (fun t _ => t.decodeOne k)

/-- The words of a tag record (R457): each span saturates. -/
def tagWords (t : CoreTag) : List Nat :=
  let span := fun v => min v 65535
  [t.pc % 2 ^ 32, t.pc / 2 ^ 32 % 2 ^ 32, t.cycle % 2 ^ 32, span t.dispatch + 65536 * span t.issue,
    span t.complete + 65536 * span t.retire, t.flags % 256]

/-- A tagged instruction of a core ends: its record enters the FIFO, or is counted lost (R457). -/
def coreTag (s : State) (k : Nat) (tag : Option CoreTag) : State :=
  match tag with
  | none => s
  | some w =>
    let (left, open_) := s.taggingOf k
    if open_ = 0 then s
    else
      let t := s.setTagging k (left, open_ - 1)
      if (t.tagsOf k).length ≥ 16 then t.tick (F.CX_TAG_STAT_LOST k)
      else t.setTags k (t.tagsOf k ++ [tagWords w])

end State

end Sys2Proof.Machine
end

