-- ==== Sys2Proof/Machine/Keys.lean ====
section
/-!
DEFINITION. The meanings of the key tree's commands (12_keys_lifecycle.md, "Commands") and of the renewal of its masks.
-/

namespace Sys2Proof.Machine

/-- Level of a tamper source by a KX_TAMPER_CFG word (R369, R377): 0 OFF, 1 LOG, 2 WIPE, 3 WIPE_LOCK. Sources: 0 IN0,
1 IN1, 2 MESH, 3 VOLT, 4 CLK, 5 TEMP. -/
def tamperLevel (cfg : Word) (src : Nat) : Nat :=
  let v := (cfg.extractLsb' (2 * src) 2).toNat
  if src = 2 ∧ v = 0 then 3 else v

namespace State

/-- The KX_TAMPER_CFG in force. -/
def tamperCfg (s : State) : Word := Sparse.get resetWord s.kxRf R.KX_TAMPER_CFG

/-- A source at WIPE_LOCK is in alarm now (R372). -/
def lockActive (s : State) : Bool :=
  (List.range 6).any (fun i => s.kx.alarms.testBit i && decide (tamperLevel s.tamperCfg i = 3))

/-- The requester is permitted (R374). Debug access has the rights of a node-3 session, in MANUFACTURE. -/
def kxPermitted (s : State) (a : Agent) (op : Nat) : Bool :=
  let dbg := decide (s.rg F.KX_STAT_LC = 1)
  match a with
  | .core n => decide (op ≤ 5) && (s.act F.KX_AGENT_CFG_AGENTS).testBit n.val
  | .pcie => decide (op ≤ 5) && (s.act F.KX_AGENT_CFG_AGENTS).testBit 8
  | .bersan n =>
    match s.sessionNode n.val with
    | some k => if op ≤ 5 then (nodePolicy s.kxRf k).testBit 8 else decide (k = 3)
    | none => false
  | .sv => false
  | .debug => dbg

/-- The state of node n forbids the operation (R375, STATE). IMPORT into a node that is BAD_CHAIN under a parent with UNWRAP
answers STATE too (log 52); under one without UNWRAP the answer is POLICY. -/
def kxBadState (s : State) (op n : Nat) : Bool :=
  let st := s.nodeState n
  let parent := match nodeParent s.kxRf n with | some p => s.nodeState p | none => 0
  let unwraps := match nodeParent s.kxRf n with | some p => (nodePolicy s.kxRf p).testBit 6 | none => false
  if op = 1 then st == 0 || st == 5
  else if op = 2 then st != 2 && st != 3
  else if op = 3 then parent != 1 || (st == 5 && unwraps)
  else if op = 4 then st != 1
  else if op = 6 then !s.treeLocked
  else if op = 7 then s.kx.advanced
  else false

/-- The checks of R375 in order: the first that fails. -/
def kxCheck (s : State) (a : Agent) (op n arg : Nat) : Option Nat :=
  let lc := s.rg F.KX_STAT_LC
  let kind := nodeKind s.kxRf n
  let ppol := match nodeParent s.kxRf n with | some p => nodePolicy s.kxRf p | none => 0
  if !s.kxPermitted a op then some 0x01
  else if s.keysDown ∧ !(op = 8 ∧ a = .debug) then some 0x02
  else if s.treeLocked ∧ op ≤ 5 then some 0x03
  else if (op = 3 ∧ !([1, 2, 3].contains lc)) ∨ (op = 8 ∧ lc ≠ 1) ∨ (op = 7 ∧ !lcAllowed lc arg) then some 0x04
  else if ((op = 3 ∨ op = 4) ∧ !(kind = 1 ∧ nodeValid s.kxRf n)) ∨ (op = 2 ∧ kind = 1) then some 0x05
  else if op ≤ 4 ∧ n < 16 ∧ n ≠ 7 then some 0x06
  else if s.kxBadState op n then some 0x07
  else if (op = 4 ∧ !(nodePolicy s.kxRf n).testBit 7) ∨ (op = 3 ∧ !ppol.testBit 6) then some 0x08
  else if op = 6 ∧ s.lockActive then some 0x09
  else if op = 8 ∧ (s.bankWriting ∨ s.sv.reserved ∨ s.upd.owner.isSome ∨ s.enrolling) then some 0x0A
  else if op = 7 ∧ lcToggle lc arg ∧ togglesLeft s.nv.fuses = 0 then some 0x0B
  else none

/-- A command of this agent is still in progress. -/
def kxBusy (s : State) (a : Agent) : Bool :=
  s.kx.jobs.any (fun j => decide (j.agent = a)) || s.sv.tasks.any (fun t => decide (t.kind = .enroll a)) ||
    (decide (a.ownerCode ≤ 12) && decide (s.rg (F.KX_RESULT_PENDING a.ownerCode) = 1))

/-- The DATA words of a command that carries them itself, a session's message or debug access (R103, R374): the mirror
takes them. Cores and the PCIe host have written theirs. -/
def takeKxData (s : State) (a : Agent) (bs : List Byte) : State :=
  match a with
  | .bersan _ => s.setKxData a bs
  | .debug => s.setKxData a bs
  | _ => s

/-- A KX command: ignored while one is in progress, refused with its code, or accepted (R373, R375). -/
def kxCommand (s : State) (a : Agent) (op n arg : Nat) (accept : State → State) (data : List Byte := []) : State :=
  s.byAgent a (fun u =>
    if u.kxBusy a then u
    else
      let t := if op = 3 then u.takeKxData a data else u
      match t.kxCheck a op n arg with
      | some code => (if op = 3 then t.zeroKxData a else t).kxResult a n code
      | none => accept t)

/-- The DATA words of an EXPORT go to the requester (R363): into its mailbox, and in the answer to a session or to debug
access (R103, R374). -/
def giveKxData (s : State) (a : Agent) (bs : List Byte) : State :=
  match a with
  | .bersan n => (s.setKxData a bs).emit (.bersanData n.val bs)
  | .debug => s.emit (.debugData bs)
  | _ => s.setKxData a bs

/-- The key that wraps device blobs (R362). -/
def blobKey (s : State) : Nat := nodeKdf (s.keyAt (nodeCell 4)) (ascii "ELG-BLOB") 2 0x40

/-- Bytes 0 to 7 of a node's device blob (R363). -/
def blobHeader (s : State) (n : Nat) : List Byte := [1, 1] ++ beBytes 2 n ++ beBytes 4 (nodePolicy s.kxRf n)

/-- The key that a blob holds for node n, where it is sound (R362, R363). -/
def openBlob (s : State) (n form : Nat) (data : List Byte) : Option Nat :=
  if form = 1 then
    match nodeParent s.kxRf n with
    | some p => (Config.keyUnwrap (s.keyAt (nodeCell p)) (data.take 40)).map ofBe
    | none => none
  else if data.take 8 = s.blobHeader n then
    match Config.keyUnwrap s.blobKey (slice0 data 8 56) with
    | some inner => if inner.take 16 = s.blobHeader n ++ List.replicate 8 0 then some (ofBe (inner.drop 16)) else none
    | none => none
  else none

/-- IMPORT at its end (R362): the unwrap is a use of node 4 or of the parent. -/
def doImport (s : State) (n form : Nat) (data : List Byte) : State × Nat :=
  let u := if form = 1 then (nodeParent s.kxRf n).getD 0 else 4
  match s.kxUse u 6 with
  | (t, false) => (t, 0x0C)
  | (t, true) =>
    match s.openBlob n form data with
    | some key => (t.importKey n key, 0)
    | none => (t, 0x0C)

/-- EXPORT at its end (R363): the device blob. -/
def exportBlob (s : State) (n : Nat) : List Byte :=
  let h := s.blobHeader n
  h ++ slice0 (Config.keyWrap s.blobKey (h ++ List.replicate 8 0 ++ beBytes 32 (s.keyAt (nodeCell n)))) 0 56

/-- REBIND at its end (R364). -/
def doRebind (s : State) (n : Nat) : State := (s.createNode n).createAll

/-- LC_ADVANCE at its end (R353): one fuse, and a ledger record. -/
def doAdvance (s : State) (dest : Nat) : State :=
  let lc := s.rg F.KX_STAT_LC
  let f := lcBlow s.nv.fuses lc dest
  let t := { s with nv.fuses := f }
  ((t.setRg F.KX_STAT_LC_NEXT (lcOf f)).setRg F.KX_STAT_TOGGLES_LEFT (togglesLeft f)).ledgerAdd 0x08
    (leBytes 1 lc ++ leBytes 1 dest ++ leBytes 1 (togglesLeft f))

/-- The oldest command in progress that a test selects, taken out of the list. -/
def takeJob (s : State) (p : KxJob → Bool) : Option (KxJob × State) :=
  match s.kx.jobs.find? p with
  | some j => some (j, { s with kx.jobs := s.kx.jobs.erase j })
  | none => none

/-- A command completes with its outcome (R375). IMPORT, EXPORT and REBIND are checked once more. -/
def kxFinish (s : State) (j : KxJob) (ok : Bool) : State :=
  let late := if j.op = 2 ∨ j.op = 3 ∨ j.op = 4 then s.kxCheck j.agent j.op j.node j.arg else none
  match late with
  | some code => (if j.op = 3 then s.zeroKxData j.agent else s).kxResult j.agent j.node code
  | none =>
    if j.op = 2 then (s.doRebind j.node).kxResult j.agent j.node 0
    else if j.op = 3 then
      let (t, code) := s.doImport j.node j.arg (s.kxData j.agent)
      (t.zeroKxData j.agent).kxResult j.agent j.node code
    else if j.op = 4 then (s.giveKxData j.agent (s.exportBlob j.node)).kxResult j.agent j.node 0
    else if j.op = 7 then
      if ok then (s.doAdvance j.arg).kxResult j.agent j.node 0
      else { s with kx.advanced := false }.kxResult j.agent j.node 0x0D
    else s.kxResult j.agent j.node 0

/-- The LOG part of an alarm: the count, the event and a ledger record (R369). -/
def tamperLog (s : State) (level : Nat) : State :=
  ((s.bump F.KX_TAMPER_COUNT_COUNT).raise 180).ledgerAdd 0x06
    (leBytes 1 level ++ leBytes 1 (s.rg F.KX_TAMPER_STAT_LATCH) ++ leBytes 1 (s.rg F.KX_TAMPER_STAT_FROM_LISTEN))

end State

/-- INVALIDATE (R364): the node and its orphans fall at once; the outcome follows. -/
def execInvalidate (a : Agent) (node : Nat) (s : State) : Result :=
  .next (s.kxCommand a 1 (node % 1024) 0 (fun t => (t.kxAccept ⟨a, 1, node % 1024, 0⟩).invalidate (node % 1024)))

/-- REBIND (R364). -/
def execRebind (a : Agent) (node : Nat) (s : State) : Result :=
  .next (s.kxCommand a 2 (node % 1024) 0 (fun t => t.kxAccept ⟨a, 2, node % 1024, 0⟩))

/-- IMPORT (R362). `data` is the DATA area of a session's message or of debug access (R103, R374); a core or the PCIe host
has it in its mailbox. -/
def execImportKey (a : Agent) (node form : Nat) (data : List Byte) (s : State) : Result :=
  .next (s.kxCommand a 3 (node % 1024) form (fun t => t.kxAccept ⟨a, 3, node % 1024, form⟩) data)

/-- EXPORT (R363). -/
def execExportKey (a : Agent) (node : Nat) (s : State) : Result :=
  .next (s.kxCommand a 4 (node % 1024) 0 (fun t => t.kxAccept ⟨a, 4, node % 1024, 0⟩))

/-- ZEROISE (R370, R374): as a WIPE alarm, with no tamper latch set. -/
def execZeroise (a : Agent) (s : State) : Result :=
  .next (s.kxCommand a 5 0 0 (fun t => (t.tamperLog 2).wipe.kxAccept ⟨a, 5, 0, 0⟩))

/-- CLEAR_LOCK (R372). -/
def execClearLock (a : Agent) (s : State) : Result :=
  .next (s.kxCommand a 6 0 0 (fun t => t.kxAccept ⟨a, 6, 0, 0⟩))

/-- CLEAR_LOCK_DONE (R372): the lock clears, or reconstruction failed. -/
def execClearLockDone (r : Puf) (s : State) : Result :=
  .next (match s.takeJob (fun j => decide (j.op = 6)) with
    | none => s
    | some (j, t) =>
      let cause := t.downCause r
      let u := t.noteErrRate cause
      if cause = 0 then
        let v := (u.setRg F.KX_STAT_LOCKED 0).setRg F.SV_MODE_TREE_LOCKED 0
        let w := ({ v with ce.ham := none }.instantiate).judgeNodes
        let keep := (maskList (w.rg F.KX_TAMPER_STAT_LATCH) 6).filter (fun i => tamperLevel w.tamperCfg i ≠ 3)
        let kept := (maskList w.kx.listenLatch 6).filter (fun i => tamperLevel w.tamperCfg i ≠ 3)
        let x := { w with kx.listenLatch := kept.foldl setBit 0, kx.lockNext := false }
        ((x.setRg F.KX_TAMPER_STAT_LATCH (keep.foldl setBit 0)).raise 183).kxResult j.agent j.node 0
      else (u.enterKeysDown cause).kxResult j.agent j.node 0x0D)

/-- LC_ADVANCE (R353): one per start. -/
def execLcAdvance (a : Agent) (target : Nat) (s : State) : Result :=
  .next (s.kxCommand a 7 0 target (fun t => { t with kx.advanced := true }.kxAccept ⟨a, 7, 0, target⟩))

/-- ENROLL (R350): the helper area, 16 KiB, is erased and written, its magic word last. Beyond the magic word its
contents, the code syndrome among them, are free values. -/
def execEnroll (a : Agent) (s : State) : Result :=
  .next (s.kxCommand a 8 0 0 (fun t =>
    let n := t.freeVal
    let bs := leBytes 4 helperMagic ++ (List.range 16380).map (State.freeByte n)
    let u := t.useFree.addTask (.enroll a)
      [newArea nvHelper 4 [], newArea (nvHelper + 256) 0 (bs.drop 256), newArea nvHelper 0 (bs.take 256)]
    if a = .debug then u else u.wr (R.KX_RESULT a.ownerCode) (Word.ofNat 1)))

/-- KX_COMMAND_DONE (R365, R374, R375): the oldest command but CLEAR_LOCK and ENROLL ends. -/
def execKxCommandDone (ok : Bool) (s : State) : Result :=
  .next (match s.takeJob (fun j => decide (j.op ≠ 6)) with
    | some (j, t) => t.kxFinish j ok
    | none => s)

/-- KEY_REMASK (R367): every mask is renewed, unless the random numbers fail their test. -/
def execKeyRemask (s : State) : Result :=
  .next (if !s.socUp ∨ s.rg F.KX_STAT_TRNG_FAIL = 1 then s
    else (s.forEach (List.range 1027) State.remask).tick F.KX_REMASK_PASSES)

/-- TRNG_HEALTH_FAIL (R367). -/
def execTrngHealthFail (s : State) : Result :=
  .next (if s.socUp then (s.setRg F.KX_STAT_TRNG_FAIL 1).raise 187 else s)

/-- TRNG_HEALTH_PASS (R367). -/
def execTrngHealthPass (s : State) : Result :=
  .next (if s.socUp then s.setRg F.KX_STAT_TRNG_FAIL 0 else s)

end Sys2Proof.Machine
end

