-- ==== Sys2Proof/Machine/CommitOps.lean ====
section
/-!
DEFINITION. The two copies of each domain and what a commit does (R98 to R101, R109): the copies themselves, and the
unit-level settings and hardware states that each domain's swap reaches.
-/

namespace Sys2Proof.Machine

/-- The RS bits of a register. -/
def rsMask : List FieldDef → Word
  | [] => 0
  | f :: fs => (if f.acc = .rs then (BitVec.ofNat 32 (2 ^ f.wid - 1)) <<< f.lo else 0) ||| rsMask fs

/-- The word at an offset in a copy. -/
abbrev rfWord (rf : RegFile) (off : Nat) : Word := Sparse.get resetWord rf off

/-- Two copies hold the same words at some offsets. -/
def rfSame (a b : RegFile) (offs : List Nat) : Bool := offs.all (fun o => decide (rfWord a o = rfWord b o))

namespace State

/-! ### The copies -/

/-- The ACTIVE copy of a domain is replaced. -/
def setActive (s : State) (d : Nat) (rf : RegFile) : State :=
  { s with active := Sparse.set (fun _ => []) s.active d rf }

/-- The other copy of a domain is replaced. -/
def setShadow (s : State) (d : Nat) (rf : RegFile) : State :=
  { s with shadow := Sparse.set (fun _ => []) s.shadow d rf }

/-- A word reaches a register of the other copy; its reserved bits are cleared (R3). -/
def shadowWord0 (s : State) (d off : Nat) (w : Word) : State :=
  match regRow off with
  | none => s
  | some r => s.setShadow d (Sparse.set resetWord (s.shadowOf d) off (w &&& rsMask r.fields))

/-- A write of the other copy that reaches the static list at an offset installs its entry (R203); `old` is the copy
before. -/
def staticReach (s : State) (d off : Nat) (old : RegFile) : State :=
  if d = 3 ∧ 0x3140000 ≤ off ∧ off < 0x3160000 then s.staticWritten old ((off - 0x3140000) / 16) else s

/-- A word is written to a register of the other copy (R3, R203). -/
def shadowPut (s : State) (d off : Nat) (w : Word) : State := (s.shadowWord0 d off w).staticReach d off (s.shadowOf d)

/-- Every port has adopted the current epoch and no frame of an earlier one remains (R109, R111). -/
def drained (s : State) : Bool :=
  !s.oldRemain && (List.range 41).all (fun p => decide (s.portEpoch p = s.epoch % 256))

/-- ACTIVE is copied into the other copy of the domains of a set (R106, R113). -/
def copyOver (s : State) (set : Nat) : State :=
  let t := s.forEach (maskList set 18) (fun t d => t.setShadow d (t.activeOf d))
  if set.testBit 3 then
    t.staticsRollback.forEach (List.range 16) (fun u p => u.setCurrent 1 p (u.pgCurrent 0 p))
  else t

/-- The copies that R113 has put off are made once the drain is over. -/
def recopyDue (s : State) : State :=
  if s.sv.recopy ≠ 0 ∧ s.drained then { s.copyOver s.sv.recopy with sv.recopy := 0 } else s

/-- A completed drain frees the static entries of the older copy of CD03, where no transaction prepares that copy
(R203); the older copy of CD02 is out of use, so the reserves are judged again (R163). -/
def noteDrain (s : State) : State :=
  let prepared := s.openTxns.any (fun h => (s.txnOf h).set.testBit 3 && decide ((s.txnOf h).state ≠ .copying))
  let t := if s.drained ∧ s.swapped.testBit 2 then s.judgeRsv else s
  if s.drained ∧ !prepared ∧ !s.sv.booting then t.staticsDrained else t

/-- What waits for the drain is done as soon as it is over (R111, R113, R203). -/
def drainDone (s : State) : State := s.recopyDue.noteDrain

/-- After a part of a command that may discard frames: where it completes the drain, which was not over before, what waits
for that is done (R111, R113, R163). -/
def drainUnless (s : State) (was : Bool) : State := if was then s else s.drainDone

/-- A reception has ended: copies of a frame found bad go from the heads of the MQs (R24). -/
def rxOver (s : State) : State := s.cleanHeads.drainDone


/-- What the SHADOW view of a domain shows (R100, R113). -/
def shadowView (s : State) (d : Nat) : RegFile :=
  if s.sv.recopy.testBit d ∧ s.drained then s.activeOf d else s.shadowOf d

/-- ACTIVE and the other copy of the domains of a set swap (R109). -/
def swapCopies (s : State) (set : Nat) : State :=
  let t := s.forEach (maskList set 18) (fun t d => (t.setActive d (s.shadowOf d)).setShadow d (s.activeOf d))
  if set.testBit 3 then t.staticsSwap else t

/-! ### What a commit reaches; `o` is the state before it -/

/-- Event routing (R45). -/
def routeCommit (s o : State) : State :=
  let fresh := (List.range 256).filter (fun n => s.evSet n)
  let t := s.forEach (fresh.filter (fun n => decide (o.act (F.SV_EV_ROUTE_MGMT n) = 0))) (fun t n => t.notifyAll n (t.evScope n))
  t.forEach ((List.range 32).filter (fun v => s.vecPending v && !o.vecPending v)) sendVec

/-- MODE in a RUN mode (R74, R75). -/
def runCode (s : State) : Nat := 3 + s.runMode (s.epoch % 256)

/-- RUN_MODE in a RUN mode (R74). -/
def modeCommit (s : State) : State :=
  if s.inRun ∧ s.mode ≠ s.runCode then (s.setRg F.SV_MODE_MODE s.runCode).raise 2 else s

/-- The unit-level fields of a port that take it down are the same in two copies of CD01, ADMIN 0 to 1 apart (R131). -/
def portSame (a b : RegFile) (p : Nat) : Bool :=
  let w := fun rf => rfWord rf (R.PX_PORT_CFG p) &&& 0x3FE#32
  decide (w a = w b) && decide (rfGet b (F.PX_PORT_CFG_ADMIN p) ≥ rfGet a (F.PX_PORT_CFG_ADMIN p)) &&
    (if isT1s p then rfSame a b [R.PX_PLCA_CFG p, R.PX_PLCA_BURST p, R.PX_T1S_GUARD p] else true) &&
    (if p = 40 then rfSame a b [R.PX_RGMII_CFG] else true)

/-- A port at a commit (R131). -/
def portCommit (s o : State) (p : Nat) : State :=
  let t := if portSame (o.activeOf 1) (s.activeOf 1) p then s
    else { s.portDown p with px.anRate := Sparse.set (fun _ => none) s.px.anRate p none }
  t.forEach ((List.range 9).filter (fun k => t.isPaused p k && !t.fcActs p k)) (fun t k => t.endPause p k)

/-- A Stitch that lets a port's learned entries stand below LEARN_LIM re-arms its event (R207). -/
def limitCommit (s : State) (p : Nat) : State :=
  if s.learnedOn p < s.act (F.FX_PORT_CFG_LEARN_LIM p) then { s with fx.limHigh := clrBit s.fx.limHigh p } else s

/-- The words of path group p are the same in two copies. -/
def pgSame (a b : RegFile) (p : Nat) : Bool := rfSame a b [R.FX_PG_W0 p, R.FX_PG_W1 p, R.FX_PG_W2 p, R.FX_PG_W3 p]

/-- A path group at a commit (R215): a group that the Stitch changes takes its HOME assignment afresh, with the buckets
of members out of service given to the others; any other keeps its own. -/
def pgCommit (s o : State) (p : Nat) : State :=
  let was := o.pgCurrent 0 p
  if pgSame (o.activeOf 3) (s.activeOf 3) p then (s.setCurrent 0 p was).setCurrent 1 p was
  else
    let alive := s.pgInService 0 p
    let home := pgHome (s.activeOf 3) p
    let cur := if alive = [] then home else reassign alive (fun m => !alive.contains m) home 0
    let t := ((s.setCurrent 0 p cur).setCurrent 1 p was).setRejoin p 0
    ({ t with fx.pgEmpty := clrBit t.fx.pgEmpty p }).notePg p

/-- A policer at a commit (R241): it keeps the levels that its old settings gave it, clipped to the new sizes; one whose
VALID becomes 1 is full. -/
def policerCommit (s o : State) (i : Nat) : State :=
  let put := fun (t : State) x => { t with fx.buckets := Sparse.set (fun _ => none) t.fx.buckets i x }
  let old := fun (f : Fld) => rfGet (o.activeOf 4) f
  if rfSame (o.activeOf 4) (s.activeOf 4) [R.FX_POLICER_W0 i, R.FX_POLICER_W1 i, R.FX_POLICER_W2 i] then s
  else if old (F.FX_POLICER_W0_VALID i) = 0 then put s none
  else
    let unit := 64 * 65536
    let x := s.bucketsAt old i s.now
    put s (some { x with
      tc := min x.tc (s.act (F.FX_POLICER_W2_CBS i) * unit), tp := min x.tp (s.act (F.FX_POLICER_W2_CBS2 i) * unit) })

/-- Stream filters and gates at a commit (R243): a changed VALID clears the latches; gates take the position that their
settings give. -/
def psfpCommit (s o : State) : State :=
  let old := o.activeOf 4
  let new := s.activeOf 4
  let fs := (List.range 1024).filter (fun i => decide (rfGet old (F.FX_SFILTER_W0_VALID i) ≠ rfGet new (F.FX_SFILTER_W0_VALID i)))
  let gs := (List.range 256).filter (fun g => decide (rfGet old (F.FX_SGATE_W2_VALID g) ≠ rfGet new (F.FX_SGATE_W2_VALID g)))
  let t := s.forEach fs (fun t i => (t.setRg (F.FX_SF_STAT_SDU_BLOCKED i) 0).setRg (F.FX_SF_STAT_MARK_RED i) 0)
  let u := t.forEach gs (fun t g => (t.setRg (F.FX_SGATE_STAT_INVALID_CLOSED g) 0).sgateShow g)
  u.forEach u.validGates sgateShow

/-- Sequence recovery of stream h at a commit (R222). -/
def frerCommit (s o : State) (h : Nat) : State :=
  let offs := (List.range 8).map (fun k => R.FX_STREAM_ID_W0 h + 4 * k) ++ (List.range 4).map (fun k => R.FX_FRER_W0 h + 4 * k)
  if rfSame (o.activeOf 4) (s.activeOf 4) offs then s
  else match Sparse.get (fun _ => none) s.fx.recovery h with
    | some _ =>
      ({ s with fx.recovery := Sparse.set (fun _ => none) s.fx.recovery h none }.bump (F.FX_STREAM_RESETS_COUNT h)).raise 101
    | none => s

/-- Shaper credits are brought up to date with the settings in force before they change (R246, R247). -/
def settleCredits (s : State) : State :=
  s.forEach (s.sx.queues.map (·.1)) (fun t q =>
    if t.shaped q then t.setQueue q { t.queueOf q with credit := t.creditNow q, creditAt := t.now } else t)

/-- The shaper of a queue at a commit (R246): one whose SHAPE_RATE was 0 begins with credit 0. -/
def shaperCommit (s o : State) (q : Nat) : State :=
  if !o.shaped q ∧ s.shaped q then s.setQueue q { s.queueOf q with credit := 0, creditAt := s.now } else s

/-- A time instance at a commit (R261, R263, R277). -/
def tiCommit (s o : State) (i : Nat) : State :=
  let s1 := if o.act (F.TE_TI_CFG_RTC_SEED i) = 0 ∧ s.act (F.TE_TI_CFG_RTC_SEED i) = 1 then
      s.setRg (F.TE_TI_STAT_SET i) 0 else s
  let s2 := if o.incNom i ≠ s.incNom i then (s1.judgeAdj i).pairIf i else s1
  if o.owned i = s.owned i then s2
  else
    let s3 := (s2.setRg (F.TE_TI_STAT_OWNED i) (if s.owned i then 1 else 0)).setServo i noServo
    s3.toAsState i (if s.owned i then 1 else 0)

/-- A TSYNC_OUT pin at a commit (R279, R286). -/
def tsoCommit (s o : State) (k : Nat) : State :=
  if rfSame (o.activeOf 6) (s.activeOf 6) [R.TE_TSO_CFG k, R.TE_TSO_START_NS k, R.TE_TSO_START_SEC_LO k,
    R.TE_TSO_START_SEC_HI k, R.TE_TSO_PERIOD k] then s else s.tsoSettle k

/-- The settings of CD12 reach Fold (R403, R404). -/
def foldCommit (s o : State) : State :=
  let t := { s with aon.cfg12 := s.activeOf 12 }
  let u := t.forEach (List.range 16) (fun u d =>
    let was := o.validSds.contains d
    let is := t.validSds.contains d
    if is && !was then u.setSd d { emptySd with state := 2, timerFrom := u.now, awakeFrom := u.now, seq := (u.sdOf d).seq }
    else if was && !is then u.setSd d { emptySd with seq := (u.sdOf d).seq } else u)
  { u with aon.kept := t.keptAfter o }.foldsJudge.chsJudge

/-- CRC snoop unit u at a commit (R508). -/
def csuCommit (s o : State) (u : Nat) : State :=
  let offs := [R.OB_CSU_CFG u, R.OB_CSU_RANGE u, R.OB_CSU_FILT u, R.OB_CSU_INIT u, R.OB_CSU_XOROUT u]
  if rfSame (o.activeOf 17) (s.activeOf 17) offs then s
  else
    let d : Nat → Csu := fun u => ⟨decide (u ≠ 0), []⟩
    let c := Sparse.get d s.ob.csu u
    let on := c.attached || !rfSame (o.activeOf 17) (s.activeOf 17) [R.OB_CSU_CFG u]
    { s with ob.csu := Sparse.set d s.ob.csu u ⟨on, []⟩ }.setRg (F.OB_CSU_RUN_RUN u) (s.act (F.OB_CSU_INIT_INIT u))

/-- DRAM ring r at a commit (R499). -/
def obRingCommit (s o : State) (r : Nat) : State :=
  if rfSame (o.activeOf 17) (s.activeOf 17) [R.OB_RING_BASE_LO r, R.OB_RING_BASE_HI r] then s
  else (((s.setRing r { s.ringOf r with fifo := [] }).setRg (F.OB_RING_HEAD_HEAD r) 0).setRg (F.OB_RING_TAIL_TAIL r) 0).setRg
    (F.OB_RING_BAD_BAD_BASE r) 0

/-- Domain of a configured table's identifier (R56). -/
def tableCd (id : Nat) : Nat :=
  if id = 0x20 then 2
  else if 0x30 ≤ id ∧ id ≤ 0x37 then 3
  else if 0x38 ≤ id ∧ id ≤ 0x3E then 4
  else if id = 0x50 then 5
  else if 0x60 ≤ id ∧ id < 0x80 then (if id % 16 < 8 then 7 else 8)
  else if 0x80 ≤ id ∧ id ≤ 0x82 then 9
  else if id = 0xA0 then 10
  else if id = 0xB0 ∨ id = 0xB1 then 11
  else if id = 0xC0 then 12
  else 18

/-- Entries that an uncorrectable error had made not VALID are written anew by the Stitch (R225). -/
def entriesWritten (s : State) (set : Nat) : State :=
  { s with fx.badEntries := s.fx.badEntries.filter (fun e => !set.testBit (tableCd e.1)) }

/-- What the swap of one domain reaches. -/
def domainCommit (s o : State) (d : Nat) : State :=
  match d with
  | 0 => (s.routeCommit o).modeCommit
  | 1 => s.forEach (List.range 41) (fun t p => t.portCommit o p)
  | 3 => (s.forEach (List.range 16) (fun t p => t.pgCommit o p)).forEach (List.range 41) limitCommit
  | 4 =>
    let of := fun (x : State) => listed (x.activeOf 4) 0x3500000 16 4096
    let t := s.forEach (of o ++ of s).eraseDups (fun t i => t.policerCommit o i)
    (t.psfpCommit o).forEach (List.range 1024) (fun t h => t.frerCommit o h)
  | 5 => (s.forEach (List.range 328) (fun t q => t.shaperCommit o q)).forEach (List.range 41) gclCommit
  | 6 => (s.forEach (List.range 4) (fun t i => t.tiCommit o i)).forEach [0, 1] (fun t k => t.tsoCommit o k)
  | 7 => s.forEach (List.range 8) (fun t c => t.canCommit c (o.activeOf 7))
  | 8 => s.forEach (List.range 8) (fun t c => t.canCommit (c + 8) (o.activeOf 8))
  | 9 => s.pqCommit (o.activeOf 9)
  | 10 => { s.commitNodes (o.activeOf 10) with kx.tamperCopy := s.tamperCfg }
  | 11 => s.commitCtxs (o.activeOf 11)
  | 12 => s.foldCommit o
  | 13 => s.lsCommit
  | 14 => (s.ringsCommit (o.activeOf 14)).oppCommit
  | 15 => s.hamCapped (o.activeOf 15)
  | 17 =>
    (s.forEach (List.range 8) (fun t u => t.csuCommit o u)).forEach (List.range 9) (fun t r => t.obRingCommit o r)
  | _ => s

/-- The commit instant (R109): the domains of the set swap, the epoch advances, and the settings take effect. -/
def commitSet (o : State) (set : Nat) : State :=
  let s := if set.testBit 5 then o.recopyDue.settleCredits else o.recopyDue
  let t := ({ s.swapCopies set with swapped := set }.setRg F.SV_TX_EPOCH_EPOCH ((s.epoch + 1) % 2 ^ 32)).entriesWritten set
  let u := t.forEach (maskList set 18) (fun t d => t.domainCommit s d)
  let v := (u.portsJudge.hamJudge).raise 9
  { v with pw.foldDue := true }.modeAuto

end State

end Sys2Proof.Machine
end

