-- ==== Sys2Proof/Machine/Compute.lean ====
section
/-!
DEFINITION. The meanings of the commands of the compute cluster, the host ports and DRAM
(16_compute_memory_bridge.md, R450 to R465).
-/

namespace Sys2Proof.Machine

/-- CLUSTER_RELEASE (R450, R451): once DRAM is zeroed, where the gateway is to enter a RUN mode. -/
def execClusterRelease (s : State) : Result :=
  .next (if s.pw.cxReset ∧ s.booted ∧ !s.pw.rescue ∧ !s.treeLocked ∧ s.pw.start.zeroed ∧ !s.pw.dramSr ∧
        (s.inRun ∨ (s.rg F.SV_MODE_RAMPING = 1 ∧ s.rg F.SV_MODE_MOVING = 0 ∧ s.act F.SV_MODE_CFG_TARGET = 0)) then
      s.clusterRelease
    else s)

/-- IMAGE_COPY_DONE (R450, R451): the copy of IMG_SIZE × 64 KiB from sector IMG_SECTOR of the customer area. -/
def execImageCopyDone (ok : Bool) (s : State) : Result :=
  .next (if s.cx.copying then
      let s1 := { s with cx.copying := false }
      if ok then
        let n := s.act F.CX_BOOT_CFG_IMG_SIZE
        let bytes := 65536 * orElse (decide (1 ≤ n ∧ n ≤ 256)) n 1
        let s2 := (s1.dramWr dramBase (s.nvRead (nvCustomer + 4096 * s.act F.CX_BOOT_CFG_IMG_SECTOR) bytes)).setRg
          F.CX_CORE_STAT_IMG_DONE 1
        if s.pw.cxReset then s2 else s2.startCores
      else (s1.setRg F.CX_CORE_STAT_IMG_ERR 1).raise 214
    else s)

/-- CORE_START (R450, R471): it starts the named cores that are in reset. -/
def execCoreStart (a : Agent) (data : Word) (s : State) : Result :=
  .next (s.byAgent a (fun s =>
    if s.act F.CX_CORE_CFG_BOOT_SRC = 1 ∧ !s.pw.cxReset then
      let run := s.rg F.CX_CORE_STAT_RUN
      let asked := Nat.land (F.CX_CORE_START_CORES.get data) s.coresToRun
      s.runCores (maskDiff asked run) (Nat.lor run asked)
    else s))

/-- DVFS_REQUEST (R453): ignored while BUSY is 1. -/
def execDvfsRequest (a : Agent) (data : Word) (s : State) : Result :=
  .next (s.byAgent a (fun s =>
    if s.rg F.CX_DVFS_BUSY = 1 then s
    else
      let g := max (F.CX_DVFS_REQ.get data) (s.act F.CX_CORE_CFG_OPP_TOP)
      let t := { s.setRg F.CX_DVFS_BUSY 1 with cx.dvfs := some (some a, g) }
      if g < s.rg F.CX_DVFS_CUR then { t with cx.vid := 3 - g } else t.setRg F.CX_DVFS_CUR g))

/-- DVFS_DONE (R453). -/
def execDvfsDone (s : State) : Result :=
  .next (match s.cx.dvfs with
    | some (a, g) => (({ s with cx.dvfs := none }.setOpp g).setRg F.CX_DVFS_BUSY 0).raise 212 a
    | none => s)

/-- CORE_WFI_OFFLINE (R454). -/
def execCoreWfiOffline (k : Nat) (s : State) : Result :=
  .next (if k < 8 ∧ (s.rg F.CX_CORE_STAT_OFF_REQ).testBit k then s.coreOff k else s)

/-- OFFLINE_GRACE_EXPIRY (R454). -/
def execOfflineGraceExpiry (k : Nat) (s : State) : Result :=
  .next (if k < 8 ∧ (s.rg F.CX_CORE_STAT_OFF_REQ).testBit k then (s.bump F.CX_OFFLINE_FORCED_COUNT).coreOff k else s)

/-- TAG_POP (R457). -/
def execTagPop (a : Agent) (k : Nat) (s : State) : Result :=
  .next (s.byAgent a (fun s => if k < 8 then s.setTags k ((s.tagsOf k).drop 1) else s))

/-- RING_TAIL_WRITE (R458): `off` is the address of a TAIL register. -/
def execRingTailWrite (a : Agent) (off : Nat) (data : Word) (s : State) : Result :=
  let p := (off - 0x8100000) / 0x10000
  let o := (off - 0x8100000) % 0x10000
  .next (s.byAgent a (fun s =>
    if 0x8100000 ≤ off ∧ p < 2 ∧ o % 0x20 = 0x10 ∧ (o / 0x800 = 2 ∨ o / 0x800 = 4) then
      s.setRg ⟨off, 0, 16, 18⟩ (data.toNat % 65536)
    else s))

/-- HP_RX_WRITE (R24, R25, R137, R459, R460, R463): `ecc` numbers the descriptor of the frame whose read meets an
uncorrectable error, from 0 on. -/
def execHpRxWrite (port : Nat) (ecc : Option Nat) (s : State) : Result :=
  .next (State.drainDone (match s.txOf port with
    | some t =>
      match s.frameOf t.copy.frame with
      | some f =>
        if port < 36 ∨ 37 < port ∨ !State.isWhole f then s
        else s.hpWriteEnd port t f (State.hpErr f) ecc false
      | none => s.setTx port none
    | none => s))

/-- HP_TX_FRAME (R461, R463). -/
def execHpTxFrame (port ecc : Nat) (s : State) : Result :=
  let p := port - 36
  .next (if port < 36 ∨ 37 < port ∨ !s.portUp port then s
    else match s.txChoose p with
      | some r =>
        { s.txServe p r ecc with
          cx.rr := Sparse.set (fun _ => 63) (s.txServe p r ecc).cx.rr (8 * p + s.act (F.CX_HP_TX_CFG_TC p r)) r }
      | none => s)

/-- HP_COAL_TIMER (R463): r numbers the ring as 128 × port + 64 × (1 for TX) + ring. -/
def execHpCoalTimer (r : Nat) (s : State) : Result :=
  .next (if r < 256 ∧ (s.hpRing r).comps ≠ 0 then s.hpRaise (r / 128) (decide (r % 128 ≥ 64)) (r % 64) else s)

/-- DRAM_UE (R464): met by a reader that has no command of its own here, the scrubber, or a load of a core, which takes
an access fault. -/
def execDramUe (addr : Nat) (load : Option (Fin 8)) (s : State) : Result :=
  .next (if s.socUp ∧ s.pw.start.zeroed then
      match load with
      | some k => (s.dramUe addr).emit (.accessFault k.val addr)
      | none => s.dramUe addr
    else s)

/-- DRAM_SCRUB_PASS_DONE (R464, R474): the pass has read all 16 GiB. -/
def execDramScrubPassDone (s : State) : Result :=
  .next (if s.socUp ∧ s.pw.start.zeroed then (s.arbBytes 5 (2 ^ 34)).raise 217 else s)

/-- CORE_CYCLE (R455 to R457, R473): how the 4 issue slots count (the rest are back-starved), the occurrences or
occupancy of each PMU event, the instructions that it decodes, a tagged instruction that ends, and the DRAM bytes that the
L3 moves. -/
def execCoreCycle (k retired wasted front : Nat) (events : List Nat) (decoded : Nat) (tag : Option CoreTag) (bytes : Nat)
    (s : State) : Result :=
  .next (if k < 8 ∧ (s.rg F.CX_CORE_STAT_RUN).testBit k then
      let r := min retired 4
      let w := min wasted (4 - r)
      let f := min front (4 - r - w)
      let t := (((s.bump64 (R.CX_TD k 0) r).bump64 (R.CX_TD k 1) w).bump64 (R.CX_TD k 2) f).bump64 (R.CX_TD k 3)
        (4 - r - w - f)
      let u := ((t.forEach (List.range 8) (fun t j => t.corePmu k j events)).coreTag k tag).coreDecode k decoded
      (u.arbBytes 4 bytes).mayWriteBack
    else s)

end Sys2Proof.Machine
end

