-- ==== Sys2Proof/Machine/Fdb.lean ====
section
/-!
DEFINITION. The meanings of the commands on the bridge table and on the paths (07_forwarding.md): learning, ageing,
rejoining, sequence recovery and the table access interface.
-/

namespace Sys2Proof.Machine

namespace State

/-- The epoch of a frame still in the device, else the current one. -/
def epochOf (s : State) (id : Nat) : Nat :=
  match s.frameOf id with
  | some f => f.epoch
  | none => s.epoch % 256

/-- The learned entry of a slot takes a new stamp, on a port (R205). -/
def stampEntry (s : State) (n port : Nat) (e : FdbEntry) : State :=
  s.setFdb n (some { e with dest := port, stamp := s.rg F.FX_AGE_NOW_NOW })

/-- A frame has been looked up and is not queued yet. -/
def unqueued (f : Frame) : Bool := decide (f.stage ≠ .queued) && !f.zombie && decide (f.verdict ≠ .drop)

/-- The limit of its port is met at the commit of a request (R207): counted, and LEARN_ACT decides the frame, where it is
not yet queued. -/
def limitMet (s : State) (ep : Nat) (r : LearnReq) : State :=
  let t := s.bump (F.FX_LEARN_LIM_COUNT r.port)
  match s.frameOf r.frame with
  | some f => if unqueued f ∧ s.cfg ep (F.FX_PORT_CFG_LEARN_ACT r.port) = 0 then t.setDrop r.frame else t
  | none => t

/-- A learned entry moves to the port of a request (R205, R207). -/
def moveEntry (s : State) (ep n : Nat) (r : LearnReq) (e : FdbEntry) : State :=
  if s.learnedOn r.port ≥ s.learnLim ep r.port then s.limitMet ep r
  else
    let t := (((s.forget n).stampEntry n r.port e).bump F.FX_FDB_MOVES_COUNT).pmu 0x27 r.port
    t.checkLimit ep r.port

/-- An ACL entry traps or redirects the frame (R237). -/
def redirected (s : State) (f : Frame) (h : Hdr) : Bool :=
  match s.aclFor f h with
  | some e => decide (2 ≤ s.cfg f.epoch (F.FX_ACL_W20_ACT e))
  | none => false

/-- A frame whose source found no slot is flooded in its VLAN under the miss row, where it is not yet queued (R208); the
ACL's own destination stands. -/
def floodUnqueued (s : State) (id : Nat) : State :=
  match s.frameOf id with
  | some f =>
    if !unqueued f then s
    else
      let h := parseHdr f.bytes
      let (t, g) := s.bridgeMiss { f with evid := f.vid, rewrite := none } h
      if s.redirected f h ∧ g.verdict ≠ .drop then t
      else
        let (u, k) := t.blockKa g h
        u.setFrame id (some k)
  | none => s

/-- A new learned entry is inserted (R207, R208). -/
def insertEntry (s : State) (ep : Nat) (r : LearnReq) : State :=
  if s.learnedOn r.port ≥ s.learnLim ep r.port then s.limitMet ep r
  else
    let slot := match s.bucketSlot r.fid r.mac with
      | some n => some n
      | none => s.camSlot
    match slot with
    | some n =>
      ((s.setFdb n (some ⟨r.mac, r.fid, false, r.port, 0, s.rg F.FX_AGE_NOW_NOW, false, false⟩)).pmu 0x27 r.port).checkLimit
        ep r.port
    | none => ((s.bump F.FX_FDB_INSERT_FAIL_COUNT).raise 96).floodUnqueued r.frame

/-- A learn request is committed (R204 to R208). -/
def commitLearn (s : State) (r : LearnReq) : State :=
  let ep := s.epochOf r.frame
  if (s.fdbStatic false r.fid r.mac).isSome then s
  else match s.fdbLearned r.fid r.mac with
    | some (n, e) => if e.dest = r.port then s.stampEntry n r.port e else s.moveEntry ep n r e
    | none => s.insertEntry ep r

/-- AGE_LIMIT (R228). -/
def ageLimit (s : State) : Nat :=
  let v := s.act F.FX_FDB_CFG_AGE_LIMIT
  orElse (decide (1 ≤ v ∧ v ≤ 65534)) v 300

/-! ### The table access interface (R229): an operation runs with what its registers held at GO -/

/-- An entry, or an empty slot, goes into the data registers. -/
def showEntry (s : State) (e : Option FdbEntry) : State :=
  match e with
  | none => (((s.wr R.FX_TBL_DATA_0 0).wr R.FX_TBL_DATA_1 0).wr R.FX_TBL_DATA_2 0).wr R.FX_TBL_DATA_3 0
  | some e =>
    let b := fun (x : Bool) => if x then 1 else 0
    (((s.wr R.FX_TBL_DATA_0 (Word.ofNat e.mac)).wr R.FX_TBL_DATA_1
      (Word.ofNat (e.mac / 2 ^ 32 % 65536 + e.fid % 4096 * 65536 + 2 ^ 31))).wr R.FX_TBL_DATA_2
      (Word.ofNat (e.dest % 4096 + e.kind % 4 * 4096 + b e.static * 2 ^ 14 + b e.inActive * 2 ^ 16 + b e.inOther * 2 ^ 17))).wr
      R.FX_TBL_DATA_3 (Word.ofNat (if e.static then 0 else e.stamp % 65536))

/-- The interface's STATUS. -/
def tblStatus (s : State) (v : Nat) : State := s.setRg F.FX_TBL_CMD_STATUS v

/-- READ at INDEX. -/
def tblRead (s : State) (x : TblOp) : State :=
  if x.index > 65791 then s.tblStatus 4
  else match s.fdbAt x.index with
    | some e => (s.showEntry (some e)).tblStatus 0
    | none => (s.showEntry none).tblStatus 3

/-- SEARCH by key in the ACTIVE copy. -/
def tblSearch (s : State) (x : TblOp) : State :=
  match (match s.fdbStatic false x.fid x.mac with | some e => some e | none => s.fdbLearned x.fid x.mac) with
  | some (n, e) => ((s.showEntry (some e)).setRg F.FX_TBL_INDEX_INDEX n).tblStatus 0
  | none => s.tblStatus 1

/-- DELETE of the learned entry with the key; a static entry is refused. -/
def tblDelete (s : State) (x : TblOp) : State :=
  match s.fdbLearned x.fid x.mac with
  | some (n, _) => (s.forget n).tblStatus 0
  | none => if (s.fdbStatic false x.fid x.mac).isSome then s.tblStatus 2 else s.tblStatus 1

/-- FLUSH of the learned entries that the filters select. -/
def tblFlush (s : State) (x : TblOp) : State :=
  let hit := s.fdbAll.filter (fun e => !e.2.static && (!x.byPort || e.2.dest == x.port) && (!x.byFid || e.2.fid == x.fid))
  (s.forEach hit (fun t e => t.forget e.1)).tblStatus 0

/-- The operation that GO starts with an OP. -/
def tblOp (s : State) (a : Agent) (op : Nat) : TblOp where
  agent := a
  op := op
  byPort := decide (s.rg F.FX_TBL_CMD_BY_PORT = 1)
  byFid := decide (s.rg F.FX_TBL_CMD_BY_FID = 1)
  port := s.rg F.FX_TBL_CMD_PORT
  fid := s.rg F.FX_TBL_KEY_HI_FID
  mac := s.rg F.FX_TBL_KEY_LO_MAC + 2 ^ 32 * s.rg F.FX_TBL_KEY_HI_MAC
  index := s.rg F.FX_TBL_INDEX_INDEX

/-- GO with an OP: ignored while BUSY, when only the RW field OP takes what is written. -/
def tblGo (s : State) (a : Agent) (op : Nat) : State :=
  s.byAgent a (fun t =>
    let u := t.setRg F.FX_TBL_CMD_OP op
    if t.fx.tableBusy.isSome then u else { u.setRg F.FX_TBL_CMD_BUSY 1 with fx.tableBusy := some (u.tblOp a op) })

/-- An operation acts. -/
def tblRun (s : State) (x : TblOp) : State :=
  if x.op = 1 then s.tblRead x else if x.op = 2 then s.tblSearch x else if x.op = 3 then s.tblDelete x else s.tblFlush x

end State

/-- LEARN_COMMIT (R204 to R208): the oldest request whose frame has been counted good, and verified where CE decrypts
it, or passed by CE where it checks what is not encrypted. -/
def execLearnCommit (s : State) : Result :=
  .next (match s.fx.learn.find? (fun r => r.ok && !r.ce) with
    | some r => { s with fx.learn := s.fx.learn.erase r }.commitLearn r
    | none => s)

/-- AGE_TICK (R209). -/
def execAgeTick (s : State) : Result :=
  .next (if !s.socUp then s
    else
      let t := s.tick F.FX_AGE_NOW_NOW
      let lim := t.ageLimit
      t.forEach (t.fdbAll.filter (fun e => !e.2.static && decide (t.stampAge e.2 > lim)))
        (fun u e => (u.forget e.1).bump F.FX_FDB_AGED_COUNT))

/-- PG_REJOIN (R217): a member has stayed in service for REJOIN. -/
def execPgRejoin (pg member : Nat) (s : State) : Result :=
  .next (s.only (decide (pg < 16 ∧ member < 8)) (if (s.rejoinOf pg).testBit member ∧ s.pgServing 0 pg member then s.pgRejoin pg member else s))

/-- FRER_RESET (R222): no frame of the stream has passed for RESET_MS. -/
def execFrerReset (h : Nat) (s : State) : Result :=
  .next (if h < 1024 ∧ s.socUp then
      ({ s with fx.recovery := Sparse.set (fun _ => none) s.fx.recovery h none }.bump (F.FX_STREAM_RESETS_COUNT h)).raise 101
    else s)

/-- FDB_READ (R229). -/
def execFdbRead (a : Agent) (s : State) : Result := .next (s.tblGo a 1)

/-- FDB_SEARCH (R229). -/
def execFdbSearch (a : Agent) (s : State) : Result := .next (s.tblGo a 2)

/-- FDB_DELETE (R229). -/
def execFdbDelete (a : Agent) (s : State) : Result := .next (s.tblGo a 3)

/-- FDB_FLUSH (R229). -/
def execFdbFlush (a : Agent) (s : State) : Result := .next (s.tblGo a 4)

/-- FDB_OP_DONE (R229): OP ends, and EV_FX_TBL_DONE is raised for the initiator. -/
def execFdbOpDone (s : State) : Result :=
  .next (match s.fx.tableBusy with
    | none => s
    | some x => ({ s.tblRun x with fx.tableBusy := none }.setRg F.FX_TBL_CMD_BUSY 0).raise 103 (some x.agent))

end Sys2Proof.Machine
end

