-- ==== Sys2Proof/Machine/Fold.lean ====
section
/-!
DEFINITION. The meanings of Fold's commands and of the real-time clock's (14_sleep_wake.md).
-/

namespace Sys2Proof.Machine

/-- KEEPALIVE_RECOGNISED (R405): a CAN frame received on a bus by a running controller, or a frame of a port. In internal
loopback a controller receives its own frames only, which are never recognised. A CAN keep-alive has no NEED bit and counts
as NEED = 1 (log 57). -/
def execKeepaliveRecognised (src : KaSource) (s : State) : Result :=
  .next (if !s.booted then s
    else match src with
      | .can c id ide =>
        if s.canLive c ∧ s.canMode c ≠ 3 then s.kaTake (s.kaCanSds c id ide) true c id true else s
      | .frame n => match s.frameOf n with
        | some f =>
          let h := parseHdr f.bytes
          s.kaTake (s.kaFrameSds f) false f.port h.smac (decide (beAt f.bytes (h.l3 + 2) 1 % 2 = 1))
        | none => s)

/-- KEEPALIVE_TX (R406). -/
def execKeepaliveTx (d : Nat) (s : State) : Result :=
  .next (if s.booted ∧ s.validSds.contains d ∧ s.sdNeeded d ∧ s.fold (F.SV_SD_W0_KA_TX_EN d) = 1 then
      ((s.kaEthernet d true).forEach (maskList (s.sdBuses d) 16) (fun t c => t.kaCan d c)).talk d 3 0 0
    else s)

/-- FOLD_COMMIT (R407, R408, R418): the commit point. -/
def execFoldCommit (d : Nat) (s : State) : Result :=
  .next (s.only (decide (d < 16)) (if (s.sdOf d).state = 2 then (s.setSd d { s.sdOf d with state := 3, enforced := false }).chsJudge else s))

/-- FOLD_COMPLETE (R408, R410). -/
def execFoldComplete (d : Nat) (s : State) : Result :=
  .next (s.only (decide (d < 16)) (if (s.sdOf d).state = 3 then
      let s1 := (((s.setSd d { s.sdOf d with state := 4 }).bump (F.SV_SD_FOLDS_FOLDS d)).chsJudge).raisePw 235
      let s2 := { s1 with pw.foldDue := true }.modeAuto
      let s3 := if s2.toListen then s2 else { s2 with pw.wakeLatched := false }
      if (s3.sdOf d).latched then
        if s3.toListen then { s3 with pw.wakeLatched := true } else s3.sdWake d
      else s3
    else s))

/-- DOMAIN_WAKE (R410, R411, R413): a latched wake of an ASLEEP domain takes effect, or a wake of a source and unit names the
domain alone. Sources 0xD to 0xF do not exist. -/
def execDomainWake (d src unit : Nat) (s : State) : Result :=
  .next (s.only (decide (d < 16 ∧ src < 13)) (if (s.sdOf d).latched ∧ (s.sdOf d).state = 4 ∧ !s.toListen then s.sdWake d
    else s.wake src (if src < 5 then src else unit) (State.wakeInst src unit) (2 ^ d) 0))

/-- WAKE_IN_ACTIVE (R412): pins 0 to 3 are WAKE_INk, pin 4 is KEY_IN. -/
def execWakeInActive (pin : Nat) (s : State) : Result :=
  .next (if pin < 5 ∧ s.fold (F.PW_WAKEIN_CFG_EN pin) = 1 then
      s.wake pin pin (some pin) (s.fold (F.PW_WAKEIN_CFG_DOMAINS pin)) 0
    else s)

/-- CAN_WUF_RECEIVED (R290, R411, R412). -/
def execCanWufReceived (c id : Nat) (ide : Bool) (s : State) : Result :=
  let mask := s.fold (F.PW_CANWAKE_CFG_W2_WUF_MASK c)
  let hit := decide (s.fold (F.PW_CANWAKE_CFG_W0_WUF_EN c) = 1) &&
    decide (Nat.land id mask = Nat.land (s.fold (F.PW_CANWAKE_CFG_W1_WUF_ID c)) mask) &&
    decide (s.fold (F.PW_CANWAKE_CFG_W1_WUF_IDE c) = if ide then 1 else 0)
  .next (if !s.seesWake c then s
    else if c < 8 ∧ hit then s.wake 5 c (some (c + 5)) (s.busSds c) id
    else if 8 ≤ c ∧ c < 16 ∧ s.booted then s.wake 5 c none (s.busSds c) id
    else s)

/-- CAN_KA_WAKE (R412): decoded by an integrated transceiver in LISTEN. -/
def execCanKaWake (c id : Nat) (ide : Bool) (s : State) : Result :=
  .next (if c < 8 ∧ s.inListen ∧ s.fold (F.PW_CANWAKE_CFG_W0_KA_EN c) = 1 ∧ s.kaCanSds c id ide ≠ [] then
      s.wake 6 c none (s.busSds c) id
    else s)

/-- T1S_ENERGY (R412): the detector of PHY n in LISTEN. -/
def execT1sEnergy (n : Nat) (s : State) : Result :=
  .next (if n < 12 ∧ s.inListen ∧ (s.fold F.PW_T1SWAKE_CFG_EN).testBit n then
      s.wake 7 (24 + n) (State.wakeInst 7 (24 + n)) (s.portSds (24 + n)) 0
    else s)

/-- FOLD_CMD_WAKE (R411, R422). -/
def execFoldCmdWake (a : Agent) (data : Word) (s : State) : Result :=
  .next (s.byAgent a (fun s =>
    if F.SV_FOLD_CMD_WAKE.get data = 1 then s.wake 0xB 0 none (2 ^ F.SV_FOLD_CMD_SD.get data) 0 else s))

/-- FOLD_CMD_FORGIVE (R418). -/
def execFoldCmdForgive (a : Agent) (data : Word) (s : State) : Result :=
  let d := F.SV_FOLD_CMD_SD.get data
  .next (s.byAgent a (fun s =>
    if F.SV_FOLD_CMD_FORGIVE.get data = 1 ∧ (s.sdOf d).enforced then
      ((s.setSd d { s.sdOf d with enforced := false, awakeFrom := s.now }).chsJudge).foldJudge d
    else s))

/-- FOLD_NEED_WRITE (R406, R415). -/
def execFoldNeedWrite (a : Agent) (data : Word) (s : State) : Result :=
  .next (s.byAgent a (fun s =>
    let v := F.SV_FOLD_NEED_NEED.get data
    ((s.setRg F.SV_FOLD_NEED_NEED v).validate (maskDiff v (s.rg F.SV_FOLD_NEED_NEED))).foldsJudge))

/-- WAKE_HOLD_END (R406, R413). -/
def execWakeHoldEnd (d : Nat) (s : State) : Result :=
  .next (s.only (decide (d < 16)) (if (s.sdOf d).hold then (s.setSd d { s.sdOf d with hold := false }).foldJudge d else s))

/-- The record of a judged wake shows its outcome, while it is still in the ring (R415). -/
def markRecord (s : State) (j : WakeJudge) (valid : Bool) : State :=
  let age := (65536 + s.rg F.PW_WAKE_HEAD_TOTAL - j.total % 65536) % 65536
  if age ≤ 16 then
    s.setRg (if valid then F.PW_WAKEREC_W0_VALID j.slot else F.PW_WAKEREC_W0_FALSE j.slot) 1
  else s

/-- FALSE_LIM (R423). -/
def falseLim (s : State) : Nat :=
  let v := s.fold F.PW_WAKE_CFG_FALSE_LIM
  orElse (decide (v ≠ 0)) v 8

/-- BACKOFF in ns (R423). -/
def backoffNs (s : State) : Nat :=
  let v := s.fold F.PW_WAKE_CFG_BACKOFF
  60 * giga * orElse (decide (v ≠ 0)) v 10

/-- A false wake of a maskable instance is counted, and at FALSE_LIM the instance is masked (R415). -/
def countFalse (s : State) (i : Nat) : State :=
  let n := s.rg (F.PW_FALSE_CONSEC i) + 1
  if n ≥ falseLim s then
    { (s.setRg (F.PW_FALSE_CONSEC i) 0).setRg (F.PW_FALSE_MASKED i) 1 with
      aon.maskEnd := Sparse.set (fun _ => 0) s.aon.maskEnd i (s.now + backoffNs s) }.raisePw 234
  else s.setRg (F.PW_FALSE_CONSEC i) n

/-- WAKE_VALIDITY_DECISION (R415): the power die judges the oldest wake of ring slot k by what SV has reported; while SV has
not booted there is no report. -/
def execWakeValidityDecision (k : Nat) (s : State) : Result :=
  .next (s.only (decide (s.pw.power ≠ .off)) (match s.aon.judge.find? (fun j => decide (j.slot = k)) with
    | none => s
    | some j =>
      let valid := j.valid ||
        (s.booted && (maskList j.domains 16).any (fun d => decide (s.fold (F.SV_SD_W0_NEED d) = 1)))
      let s1 := markRecord { s with aon.judge := s.aon.judge.erase j } j valid
      if valid then
        match j.inst with
        | some i => s1.setRg (F.PW_FALSE_CONSEC i) 0
        | none => s1
      else
        let s2 := (s1.tick F.PW_FALSE_TOTAL_COUNT).raisePw 233
        match j.inst with
        | some i => countFalse s2 i
        | none => s2))

/-- WAKE_MASK_END (R415). -/
def execWakeMaskEnd (i : Nat) (s : State) : Result :=
  .next (s.only (decide (s.pw.power ≠ .off)) (if i < 25 then s.setRg (F.PW_FALSE_MASKED i) 0 else s))

/-- OVERSTAY_A (R417): SV writes the record, so it must run. -/
def execOverstayA (d : Nat) (s : State) : Result :=
  let live := ((List.range 8).filter (fun k => decide (s.talkKind d k ≠ 0) &&
    decide (s.now ≤ Sparse.get (fun _ => 0) s.aon.talkAt (8 * d + k) + s.tFold d)))
  .next (if s.booted ∧ s.validSds.contains d ∧ s.sdBuses d = 0 ∧ s.fold (F.SV_SD_W7_T_AWAKE_MAX d) ≠ 0 then
      (s.overstayRecords d live).raisePw 236
    else s)

/-- OVERSTAY_B (R418). While SV does not run, the power die cuts the channels only. -/
def execOverstayB (d : Nat) (s : State) : Result :=
  let x := s.sdOf d
  .next (if s.validSds.contains d ∧ s.sdBuses d ≠ 0 ∧ s.fold (F.SV_SD_W7_T_AWAKE_MAX d) ≠ 0 ∧ !x.enforced ∧
        (x.state = 1 ∨ x.state = 2) then
      let s1 := (s.setSd d { x with
        enforced := true
        state := 2
        timerFrom := if x.state = 1 then s.now else x.timerFrom }).chsJudge
      if s.booted then
        (s1.overstayRecords d ((List.range 8).filter (fun k => decide (s.talkKind d k ≠ 0)))).raisePw 237
      else s1
    else s)

/-- RTC_SET (R420): the set takes effect at the subsecond wrap and clears the subseconds. -/
def execRtcSet (s : State) : Result :=
  .next (s.only (decide (s.pw.power ≠ .off)) (match s.aon.rtcSet with
    | some v => { s with aon.rtcSet := none, pw.rtcSec := v, pw.rtcSub := 0, pw.rtcPhase := 0 }
    | none => s))

/-- RTC_ALARM (R411, R420): the seconds have reached the alarm's. -/
def execRtcAlarm (s : State) : Result :=
  .next (s.only (decide (s.pw.power ≠ .off)) (if s.rg F.PW_RTC_ALARM_CTL_ARM = 1 ∧ s.rg F.PW_RTC_ALARM_SEC_SEC ≤ s.pw.rtcSec then
      (s.setRg F.PW_RTC_ALARM_CTL_ARM 0).wake 9 0 none (s.rg F.PW_RTC_ALARM_CTL_DOMAINS) 0
    else s))

end Sys2Proof.Machine
end

