-- ==== Sys2Proof/Machine/Gateway.lean ====
section
/-!
DEFINITION. The meanings of the bus gateway's commands (11_bus_gateway.md).
-/

namespace Sys2Proof.Machine

/-- GW_ROUTE_LOOKUP (R333, R334): the oldest frame that a gateway receive object of controller c took; `ecc` says that
its data word `word` was read corrected (1) or could not be read (2). -/
def execGwRouteLookup (c ecc word : Nat) (s : State) : Result :=
  .next (s.only (decide (c < 16)) (match s.gwOn, (s.canOf c).gwRx with
    | true, o :: rest => (s.setCan c { s.canOf c with gwRx := rest }).upFrame c o ecc word
    | _, _ => s))

/-- GW_HOLD_DEADLINE (R338): the deadline of a template's open frame passes. -/
def execGwHoldDeadline (t : Nat) (s : State) : Result := .next (s.only (decide (t < 256)) (if s.gwOn then s.closeUp t none else s))

/-- PQ_COMMIT (R328, R329): the last word of the packet being written is committed; at a DOWN queue the frame has then
been taken whole by P38, at an UP queue the next closed frame is written. -/
def execPqCommit (q : Nat) (s : State) : Result :=
  .next (State.drainDone (s.only (decide (q < 16)) (let x := s.pqOf q
    match x.writing with
    | none => s
    | some p =>
      let t := (s.setPq q { x with ready := x.ready ++ [p], writing := none }).bump (F.BX_PQ_PKTS_COUNT q)
      if s.pqIs q 1 then
        match s.txOf 38 with
        | some tx =>
          if s.mustDrop tx.copy.frame then s
          else match s.frameOf tx.copy.frame with
            | some f =>
              let u := ((t.bump64 (R.PX_TX_FRAMES 38)).bump64 (R.PX_TX_BYTES 38) (p.bytes.length + 4)).csuSee 2 38
                (p.bytes ++ fcsBytes p.bytes)
              ((u.setTx 38 none).pegDone f (some tx.copy) (some s.now) false false tx.copy.cut 0).copyGone tx.copy.frame true
            | none => t.setTx 38 none
        | none => (s.setPq q { x with writing := none }).bump (F.BX_PQ_REWOUND_COUNT q)
      else t.pqNext q x.waiting)))

/-- PQ_REWIND (R328, R137): the frame that P38 egress writes has been set to DROP; its words return. -/
def execPqRewind (q : Nat) (s : State) : Result :=
  .next (s.only (decide (q < 16)) (match (s.pqOf q).writing, s.txOf 38 with
    | some _, some tx =>
      if tx.into = some q ∧ s.mustDrop tx.copy.frame then
        (((s.p38Rewind tx).setTx 38 none).bump F.SX_DROP_VERDICT_COUNT).dropCopy tx.copy 10
      else s
    | _, _ => s))

/-- PQ_UP_READ (R326, R330, R332): P38 ingress reads UP packets in strict order, PQ15 first; a read of an empty queue
counts. `errs` names the words of the packet read in error, true where uncorrectable. -/
def execPqUpRead (q : Nat) (errs : List (Nat × Bool)) (s : State) : Result :=
  .next (s.only (decide (q < 16)) (if !s.portUp 38 ∨ !s.pqIs q 0 then s
    else match (s.pqOf q).ready with
      | [] => s.bump (F.BX_PQ_EMPTY_READS_COUNT q)
      | p :: rest =>
        if (List.range 16).any (fun k => decide (k > q) && s.pqIs k 0 && !(s.pqOf k).ready.isEmpty) then s
        else
          (s.pqTake q p rest errs).enterWhole 38 p.bytes (fun f => { f with
            sealIn := p.sealIn, verdict := if pqBad errs then .drop else f.verdict })))

/-- PQ_DOWN_WRITE (R326, R329): P38 egress starts writing the frame it was handed, once it is whole and sealed. -/
def execPqDownWrite (q : Nat) (s : State) : Result :=
  .next (s.only (decide (q < 16)) (match s.txOf 38 with
    | some tx =>
      match s.frameOf tx.copy.frame with
      | some f =>
        let bs := s.egressBytes f 38
        if s.mustDrop tx.copy.frame then
          if tx.into = none then ((s.setTx 38 none).bump F.SX_DROP_VERDICT_COUNT).dropCopy tx.copy 10 else s
        else if State.isWhole f ∧ tx.into = none ∧ s.downBy tx.tables tx.copy.tc = some q ∧ State.toSeal tx bs = [] ∧
            (s.pqOf q).writing = none ∧ s.pqUsed q + pqWords bs.length ≤ 256 then
          (s.setPq q { s.pqOf q with writing := some (packetOf bs none tx.tables tx.seals) }).setTx 38
            (some { tx with into := some q })
        else s
      | none => s.setTx 38 none
    | none => s))

/-- GW_DOWN_PACKET (R326, R332, R341): the gateway engine reads the next DOWN queue in turn with a committed packet,
whole, and then writes its messages, unless a word of it is uncorrectable. -/
def execGwDownPacket (q : Nat) (errs : List (Nat × Bool)) (s : State) : Result :=
  .next (s.only (decide (q < 16)) (if !s.gwOn ∨ !s.pqIs q 1 then s
    else match (s.pqOf q).ready with
      | [] => s.bump (F.BX_PQ_EMPTY_READS_COUNT q)
      | p :: rest =>
        let turn := ((List.range 16).map (fun k => (s.bx.downRr + k) % 16)).find?
          (fun k => s.pqIs k 1 && !(s.pqOf k).ready.isEmpty)
        if turn ≠ some q then s
        else
          let t := { s.pqTake q p rest errs with bx.downRr := (q + 1) % 16 }
          if pqBad errs then t else t.downMsgs q p 0 (gwMessages p.bytes)))

/-- PQ_RESET (R331, R344). -/
def execPqReset (a : Agent) (q : Nat) (s : State) : Result :=
  .next (s.only (decide (q < 16)) (s.byAgent a (fun s => (s.pqReset q).drainUnless s.drained)))

/-- SEAL_CHECK (R343): CE checks the trailer of a message at step 6 of its frame. -/
def execSealCheck (id : Nat) (s : State) : Result :=
  .next (match s.frameOf id with
    | some f =>
      match f.sealIn with
      | some m => if f.zombie ∨ f.pass = 0 ∨ f.stage ≠ .looked ∨ f.verdict ≠ .ok then s else s.sealCheck id f m
      | none => s
    | none => s)

/-- SEAL_ADD (R343): CE seals the next message of the frame handed to P38 whose DOWN route asks for it. -/
def execSealAdd (port : Nat) (s : State) : Result :=
  .next (if port ≠ 38 then s
    else match s.txOf 38 with
      | some tx =>
        match s.frameOf tx.copy.frame with
        | some f =>
          if !State.isWhole f ∨ s.mustDrop tx.copy.frame then s
          else match State.toSeal tx (s.egressBytes f 38) with
            | (i, m, r) :: _ => s.sealOne tx i m r
            | [] => s
        | none => s
      | none => s)

end Sys2Proof.Machine
end

