-- ==== Sys2Proof/Machine/LoadSwitch.lean ====
section
/-!
DEFINITION. The meanings of the load-switch commands (15_load_switches.md).
-/

namespace Sys2Proof.Machine

/-- LS_UPDATE (R427, R429, R431, R438, R445): what OUT0 to OUT15 measure, the current of a channel in inrush as its load asks
for it, and the summed dissipation in mW. -/
def execLsUpdate (meas : List LsMeas) (mw : Nat) (s : State) : Result :=
  let t := s.forEach ((List.range 16).zip meas) (fun t e => t.chUpdate e.1 e.2)
  let total := (((List.range 16).zip meas).map (fun e => s.chCurrent e.1 e.2.mA)).sum
  .next (s.only (decide (s.pw.power ≠ .off)) ((t.setRg F.PW_LS_STAT_TOTAL (min 65535 (total / 4))).setRg F.PW_LS_DISS_MW (min 65535 mw)))

/-- SHORT_TRIP (R430, R431, R433): it acts while the switch conducts, except during inrush. -/
def execShortTrip (ch : Nat) (s : State) : Result :=
  .next (s.only (decide (s.pw.power ≠ .off)) (if ch < 16 ∧ s.chState ch ≠ 1 then s.trip ch 2 else s))

/-- INRUSH_END (R431): `demand` is the current in mA that the load asks for; above the limit the switch still regulates. -/
def execInrushEnd (ch demand : Nat) (s : State) : Result :=
  .next (s.only (decide (s.pw.power ≠ .off)) (if ch < 16 ∧ s.chState ch = 1 then
      if s.inrushLimit ch < demand then s.trip ch 3 else (s.toCh ch 2).setCh ch { s.chOf ch with since := s.now }
    else s))

/-- REENABLE (R435): a write of PW_OUT_CMD. -/
def execReenable (a : Agent) (data : Word) (s : State) : Result :=
  let k := F.PW_OUT_CMD_CH.get data
  .next (s.byAgent a (fun s =>
    if F.PW_OUT_CMD_REENABLE.get data = 0 then s
    else if s.chState k ≠ 4 then (s.setRg F.PW_LS_STAT_LAST_REENABLE 3).raise 245 (some a)
    else if s.rg (F.PW_OUT_STAT_THERM_LATCH k) = 1 then (s.setRg F.PW_LS_STAT_LAST_REENABLE 2).raise 245 (some a)
    else
      let t := ((s.setRg (F.PW_OUT_STAT_RETRIES_USED k) 0).toCh k 0).chJudge k
      (t.setRg F.PW_LS_STAT_LAST_REENABLE 1).raise 245 (some a)))

/-- VBAT_UNDERVOLTAGE (R437). -/
def execVbatUndervoltage (s : State) : Result :=
  let on := (List.range 16).filter s.conducts
  .next (s.only (decide (s.pw.power ≠ .off)) ((s.forEach on (fun t k => (t.toCh k 7).setRg F.PW_LS_EV_LAST_CH k)).raisePw 247))

/-- VBAT_RECOVERED (R437, R441). -/
def execVbatRecovered (s : State) : Result :=
  .next (s.only (decide (s.pw.power ≠ .off)) (s.forEach ((List.range 16).filter (fun k => s.chState k == 7)) (fun t k => (t.toCh k 0).chJudge k)))

/-- TOTAL_CURRENT_SHED (R438): the first shed after 500 ms, and the further ones every 10 ms. -/
def execTotalCurrentShed (first : Bool) (s : State) : Result :=
  let t := if first then s.raisePw 243 else s
  .next (s.only (decide (s.pw.power ≠ .off)) (match ((List.range 16).filter (fun k => s.conducts k && decide (s.ls (F.PW_OUT_CFG_SHED k) = 1))).getLast? with
    | some k => t.trip k 6
    | none => t))

/-- DISSIPATION_HIGH (R438). -/
def execDissipationHigh (s : State) : Result := .next (s.only (decide (s.pw.power ≠ .off)) (s.raisePw 246))

/-- POWER_DIE_LINK_REFRESH (R442): only SV firmware refreshes the link. -/
def execPowerDieLinkRefresh (s : State) : Result :=
  .next (if s.socUp ∧ s.pw.start.firmware ∧ !s.pw.rescue then { s with aon.linkAt := s.now } else s)

/-- HOLD_EXPIRED (R442, R443): a LATCHED_OFF channel stays so. -/
def execHoldExpired (s : State) : Result :=
  .next (s.only (decide (s.pw.power ≠ .off)) (if s.aon.linkWatched then
      { s.forEach (List.range 16) (fun t k =>
          if t.ls (F.PW_OUT_CFG_FAILSAFE k) = 0 ∧ t.chState k ≠ 4 then t.toCh k 6 else t) with
        aon.holdExpired := true }
    else s))

end Sys2Proof.Machine
end

