-- ==== Sys2Proof/Machine/TxnOps.lean ====
section
/-!
DEFINITION. The transaction engine as operations (04_transactions_mending.md, R98 to R116): handles, mailboxes, checks,
the drain's discards, Unpick and the commit.
-/

namespace Sys2Proof.Machine

namespace State

/-! ### Handles -/

/-- The lowest handle that holds a domain of the set. -/
def holderOf (s : State) (set : Nat) : Option Nat :=
  s.openTxns.find? (fun h => decide (Nat.land (s.txnOf h).set set ≠ 0))

/-- Milliseconds of a handle's timeout left (R114). -/
def txnLeft (s : State) (h : Nat) : Nat :=
  let x := s.txnOf h
  if x.state = .held ∨ x.state = .draining then x.left else x.left - (s.now - x.since) / 1000000

/-- DRAIN_LIM of the current epoch in ms (R115). -/
def drainLim (s : State) : Nat :=
  let v := s.act F.SV_TX_CFG_DRAIN_LIM
  orElse (decide (1 ≤ v ∧ v ≤ 1000)) v 50

/-! ### Mailboxes and outcomes -/

/-- A RESULT word (R103). -/
def txWord (code handle late id : Nat) : Nat := code * 2 + handle % 4 * 64 + late * 256 + id % 256 * 65536

/-- An agent's command in its mailbox has not ended. A Bersan session's mailbox is a mirror: its messages are not held
back by it (R103, R104). -/
def txPending (s : State) (a : Agent) : Bool :=
  match a with
  | .bersan _ => false
  | _ => decide (s.rg (F.SV_TXM_RESULT_PENDING a.ownerCode) = 1)

/-- The outcomes of held Stitches that wait for a pending command of this owner. -/
def deferred (s : State) (o : Nat) : List Nat := Sparse.get (fun _ => []) s.sv.defer o

/-- A RESULT word reaches its mailbox, or its Bersan session (R103). -/
def txReply (s : State) (a : Agent) (w : Nat) : State :=
  let t := if a.ownerCode ≤ 12 then s.wr (R.SV_TXM_RESULT a.ownerCode) (Word.ofNat w) else s
  match a with
  | .bersan n => t.emit (.bersanReply n.val w)
  | _ => t

/-- The event of a transaction command's outcome (R127). -/
def txEvent (s : State) (a : Agent) (code : Nat) : State := s.raise (if code ≤ 1 then 6 else 7) (some a)

/-- A command's outcome is written, then the outcomes of held Stitches that waited for it (R104, R110). -/
def txOutcome (s : State) (a : Agent) (w : Nat) : State :=
  let t := (s.txReply a w).forEach (s.deferred a.ownerCode) (fun t w => t.txReply a w)
  { t with sv.defer := Sparse.set (fun _ => []) t.sv.defer a.ownerCode [] }

/-- A transaction command ends (R104). -/
def txResult (s : State) (a : Agent) (code handle : Nat) (late : Nat := 0) : State :=
  (s.txOutcome a (txWord code handle late 0)).txEvent a code

/-- The outcome of a held Stitch: written directly after the outcome of a command that is pending (R110). -/
def heldResult (s : State) (a : Agent) (code handle late : Nat) : State :=
  let w := txWord code handle late 0
  let t := if s.txPending a then
      { s with sv.defer := Sparse.set (fun _ => []) s.sv.defer a.ownerCode (s.deferred a.ownerCode ++ [w]) }
    else s.txReply a w
  t.txEvent a code

/-- PENDING from an accepted command on. -/
def txAccept (s : State) (a : Agent) (handle : Nat) : State :=
  if a.ownerCode ≤ 12 then s.wr (R.SV_TXM_RESULT a.ownerCode) (Word.ofNat (1 + handle % 4 * 64)) else s

/-- A command's fields stand in its agent's mailbox, or in the mirror of its session (R103). -/
def txFields (s : State) (a : Agent) (set arg sec : Option Nat) : State :=
  let k := a.ownerCode
  let put := fun (t : State) (f : Fld) (v : Option Nat) => match v with | some n => t.setRg f n | none => t
  let s1 := match set with | some v => s.wr (R.SV_TXM_DOMAINS k) (Word.ofNat v) | none => s
  put (put (put s1 (F.SV_TXM_ARG_ARG k) arg) (F.SV_TXM_SEC_LO_SEC k) sec)
    (F.SV_TXM_SEC_HI_SEC k) (sec.map (· / 2 ^ 32))

/-- A command of an agent with a mailbox (R102 to R104). -/
def txCommand (s : State) (a : Agent) (f : State → State) : State :=
  s.byAgent a (fun t => if a.ownerCode > 12 ∨ t.txPending a then t else f t)

/-! ### The drain (R111) -/

/-- A frame of an old epoch is older than DRAIN_LIM, in whole microseconds of SX's clock. -/
def tooOld (s : State) (f : Frame) : Bool :=
  decide (f.epoch ≠ s.epoch % 256) && decide (s.now / 1000 - f.born / 1000 > 1000 * s.drainLim)

/-- A frame, by number, is too old. -/
def agedId (s : State) (id : Nat) : Bool := match s.frameOf id with | some f => s.tooOld f && !f.zombie | none => false

/-- Old copies in a queue and its pages are discarded (R111, R179). -/
def ageQueue (s : State) (q : Nat) : State :=
  let x := s.queueOf q
  let gone := x.die.filter (fun c => s.agedId c.frame)
  let old := fun (p : HPage) => decide (p.epoch ≠ s.epoch % 256) &&
    decide (s.now / 1000 - p.newestAt / 1000 > 1000 * s.drainLim)
  let t := s.setQueue q { x with
    die := x.die.filter (fun c => !s.agedId c.frame), pages := x.pages.filter (fun p => !old p) }
  let u := t.dropCopies gone 8 (fun t _ => t.countAged (q / 8))
  (u.releasePages (q / 8) true (x.pages.filter old)).toDie q

/-- Old copies in a MAC transmit queue are discarded. -/
def ageMq (s : State) (p m : Nat) : State :=
  let l := s.mqOf p m
  (s.setMq p m (l.filter (fun c => !s.agedId c.frame))).dropCopies (l.filter (fun c => s.agedId c.frame)) 8
    (fun t _ => t.countAged p)

/-- An old copy whose transmission or write has begun is stomped, with R137's effects on P36 to P39. -/
def ageTx (s : State) (p : Nat) : State :=
  match s.txOf p with
  | none => s
  | some t =>
    if s.agedId t.copy.frame then
      let u := s.countAged p
      if hasMac p then u.stomp p (s.begunBytes p t) else u.giveUp p t
    else s

/-- Old frames that no queue holds yet are discarded. -/
def ageFrame (s : State) (id : Nat) : State :=
  match s.frameOf id with
  | none => s
  | some f =>
    if !s.agedId id then s
    else if f.stage ≠ .queued then (s.countAged 41).dropFrame id 5
    else if f.copying ≠ 0 then
      s.loseCopies id f countAged
    else s

/-- A Stitch or a Tack waits for the drain. -/
def drainWaited (s : State) : Bool :=
  s.openTxns.any (fun h => decide ((s.txnOf h).state = .draining) ||
    (decide ((s.txnOf h).state = .copying) && decide (Nat.land (s.txnOf h).set s.swapped ≠ 0)))

/-- Every copy of an old-epoch frame older than DRAIN_LIM is discarded, in queues, pages, MAC transmit queues and at the
egress (R111, R179). -/
def ageAll (s : State) : State :=
  let t := s.forEach (s.sx.queues.map (·.1)) ageQueue
  let u := t.forEach (List.range 41) (fun t p => (t.forEach [0, 1, 2, 3] (fun t m => t.ageMq p m)).ageTx p)
  u.forEach (u.allFrames.map (·.1)) ageFrame

/-! ### Opening and freeing -/

/-- The other copy of a domain of the set still serves old-epoch frames (R106, R113). -/
def copyBlocked (s : State) (set : Nat) : Bool := decide (Nat.land set s.swapped ≠ 0) && !s.drained

/-- A handle is freed, and its domains' SHADOW follows ACTIVE (R113), at once or after the drain. -/
def freeHandle (s : State) (h : Nat) : State :=
  let x := s.txnOf h
  let t := { s.setTxn h freeTxn with sv.reserved := s.sv.reserved && !(x.persist && (decide (x.state = TxnState.held) || decide (x.state = TxnState.draining))) }
  if x.state = .copying ∧ s.copyBlocked x.set then { t with sv.recopy := Nat.lor t.sv.recopy x.set }
  else t.copyOver x.set

/-- The checks that begin every command on a handle. -/
def handleCheck (s : State) (a : Agent) (h : Nat) : Option Nat :=
  let x := s.txnOf h
  if x.state = .free then some 7 else if x.owner ≠ a.ownerCode then some 8 else none

/-- The node of the Hamper key cannot be used (R89). -/
def hamperKeyLost (s : State) : Bool := decide (s.nodeState 6 ≠ 1) || s.treeLocked

/-- R89 forbids a Stitch of the set. -/
def precondFails (s : State) (set : Nat) : Bool :=
  set.testBit 0 && decide (s.shd F.SV_MODE_CFG_RUN_MODE = 2) && decide (s.act F.SV_MODE_CFG_RUN_MODE ≠ 2) &&
    (decide (s.pairs.length < s.shd F.SV_MODE_CFG_SEALED_PAIRS + 1) || s.keysDown || s.hamperKeyLost)

/-- SV's bank writer runs, or is reserved or held (R68, R88, R112). -/
def writerBusy (s : State) : Bool :=
  s.bankWriting || s.sv.reserved || match s.pw.moving with | .toListen _ => true | _ => false

/-- The checks of STITCH in order (R109). -/
def stitchCheck (s : State) (a : Agent) (h : Nat) (persist : Bool) : Option Nat :=
  let x := s.txnOf h
  match s.handleCheck a h with
  | some c => some c
  | none =>
    if x.state ≠ .opened then some 0xC
    else if persist ∧ s.writerBusy then some 0xA
    else if s.precondFails x.set then some 0xB
    else none

/-- A Stitch is accepted: held, or draining (R109, R110). -/
def stitchAccept (s : State) (h : Nat) (st : TxnState) (persist : Bool) (ti time : Nat) (late held : Bool) : State :=
  let x := s.txnOf h
  { s.setTxn h { x with
      state := st, left := s.txnLeft h, persist := persist, ti := ti, time := time, late := late, wasHeld := held } with
    sv.reserved := s.sv.reserved || persist }

/-! ### Committing -/

/-- The handles that commit together with handle h (R110). -/
def commitGroup (s : State) (h : Nat) : List Nat :=
  let x := s.txnOf h
  if x.wasHeld then
    (List.range 4).filter (fun k =>
      let y := s.txnOf k
      decide (y.state = .draining) && y.wasHeld && decide (y.ti = x.ti) && decide (y.time = x.time))
  else [h]

/-- A held Stitch whose precondition fails at its commit instant is unpicked (R110). -/
def recheck (s : State) (h : Nat) : State :=
  let x := s.txnOf h
  if x.wasHeld ∧ s.precondFails x.set then (s.freeHandle h).heldResult x.agent 0xB h 0 else s

/-- The ledger record of a Stitch (R109, R514). -/
def stitchRecord (s : State) (set owner : Nat) (persist late : Bool) : State :=
  s.ledgerAdd 0x02 (leBytes 4 s.epoch ++ leBytes 4 set ++ [Byte.ofNat owner, if persist then 1 else 0, if late then 1 else 0])

/-- What a handle's commit reports (R109, R110); `x` is the transaction. -/
def commitReport (s : State) (h : Nat) (x : Txn) (late : Bool) : State :=
  let l := if late then 1 else 0
  let t := if x.wasHeld then s.heldResult x.agent 0 h l else s.txResult x.agent 0 h l
  let u := if late then t.raise 10 (some x.agent) else t
  u.stitchRecord x.set x.owner x.persist late

end State

end Sys2Proof.Machine
end

