-- ==== Sys2Proof/Machine/UpdOps.lean ====
section
/-!
DEFINITION. Firmware update as operations (17_firmware_update.md): the container, the checks of a session's commands,
the copy journal, the boot ROM's copy and its authentication of the active image.
-/

namespace Sys2Proof.Machine

/-! ### The container (R475, R476); `c` is its first slot -/

/-- A big-endian field of the first slot. -/
abbrev cField (c : List Byte) (i n : Nat) : Nat := beAt c i n

/-- N. -/
def cBlocks (c : List Byte) : Nat := cField c 16 4

/-- The blocks are plaintext (KIND 0x02). -/
def cPlain (c : List Byte) : Bool := decide (cField c 5 1 = 2)

/-- The manifest. -/
def cManifest (c : List Byte) : List Byte := slice0 c 512 (64 + 48 * cBlocks c)

/-- MD. -/
def cMd (c : List Byte) : List Byte := Config.sha384 (cManifest c)

/-- SVN. -/
def cSvn (c : List Byte) : Nat := cField c 516 1

/-- DIGEST_b. -/
def cDigest (c : List Byte) (b : Nat) : List Byte := slice0 c (576 + 48 * b) 48

/-- Length of the first slot: header, manifest and, for encrypted blocks, tag table. -/
def cLen (c : List Byte) : Nat := 576 + 48 * cBlocks c + (if cPlain c then 0 else 16 * cBlocks c)

/-- MAGIC, VERSION, MANIFEST_LEN and N are as R475 says; KIND is one of those given. -/
def cHeaderOk (c : List Byte) (kinds : List Nat) : Bool :=
  decide (cField c 0 4 = 0x45554331) && decide (cField c 4 1 = 1) && kinds.contains (cField c 5 1) &&
    decide (1 ≤ cBlocks c ∧ cBlocks c ≤ 255) && decide (cField c 20 4 = 64 + 48 * cBlocks c)

/-- The signature over the manifest verifies. -/
def cSigned (c : List Byte) : Bool := Config.ecdsaVerify (slice0 c 64 96) (cMd c) (slice0 c 160 96)

/-- K_b from the key of node 7 (R476). -/
def blockKey (p b : Nat) : Nat := kdf108 p (slice0 (ascii "ELG-UPD-BLOCK") 0 16 ++ [0] ++ beBytes 4 b ++ beBytes 4 256)

/-- The IV of block b. -/
def blockIv (c : List Byte) (b : Nat) : List Byte := slice0 c 8 8 ++ beBytes 4 b

/-- The GCM tag of an encrypted block matches its tag-table entry. -/
def blockTagOk (c : List Byte) (p b : Nat) (ct : List Byte) : Bool :=
  decide (gcmIcv (blockKey p b) (blockIv c b) (cMd c ++ beBytes 4 b) ct = slice0 c (576 + 48 * cBlocks c + 16 * b) 16)

/-- The plaintext of block b as staged. -/
def blockPlain (c : List Byte) (p b : Nat) (staged : List Byte) : List Byte :=
  if cPlain c then staged else gcmXor (blockKey p b) (blockIv c b) staged

/-- A valid journal record (R481). -/
def journalRecord (code : Nat) : List Byte :=
  let r := beBytes 4 0x4A524543 ++ beBytes 4 code ++ [0, 0, 0, 0]
  r ++ beBytes 4 (crc32c r)

/-- The journal header (R481). -/
def journalHeader (c : List Byte) (rescue : Bool) (blobSector : Nat) : List Byte :=
  let flags := (if rescue then 1 else 0) + (if cPlain c then 2 else 0)
  let h := beBytes 4 0x4A4E4C31 ++ [1, Byte.ofNat flags] ++ beBytes 2 (cBlocks c + 1) ++ beBytes 2 blobSector ++
    [Byte.ofNat (cSvn c), 0] ++ slice0 (cMd c) 0 48
  h ++ beBytes 4 (crc32c h)

namespace State

/-- SHA-384 of PUBKEY equals the vendor key hash (R477). -/
def keyHashOk (s : State) (c : List Byte) : Bool := decide (Config.sha384 (slice0 c 64 96) = s.nv.keyHash)

/-- SVN is below the counter, or above 64 (R479). -/
def rollback (s : State) (c : List Byte) : Bool := decide (cSvn c < s.nv.counter ∨ 64 < cSvn c)

/-- The first slot of an area. -/
def slotZero (s : State) (area : Nat) : List Byte := s.nvRead area 16896

/-- 65,536 bytes of a slot. -/
def slotBytes (s : State) (area k : Nat) : List Byte := s.nvRead (area + 65536 * k) 65536

/-- The active image is authentic (R477). -/
def activeAuthentic (s : State) : Bool :=
  let c := s.slotZero nvActive
  cHeaderOk c [1, 2] && s.keyHashOk c && cSigned c && decide (s.nv.counter ≤ cSvn c) &&
    (List.range (cBlocks c)).all (fun b => decide (Config.sha384 (s.slotBytes nvActive (b + 1)) = cDigest c b))

/-! ### The journal -/

/-- The journal header is valid. -/
def journalOk (s : State) : Bool :=
  let h := s.nvRead nvJournal 64
  decide (beAt h 0 4 = 0x4A4E4C31) && decide (beAt h 60 4 = crc32c (h.take 60))

/-- Journal record k. -/
def journalAt (s : State) (k : Nat) : List Byte := s.nvRead (nvJournal + 0x1000 + 16 * k) 16

/-- The records used so far: those before the first erased one. -/
def journalUsed (s : State) : Nat → Nat → Nat
  | k, 0 => k
  | k, n + 1 => if (s.journalAt k).all (fun b => b == 0xFF) then k else journalUsed s (k + 1) n

/-- The CODE values of the valid records, in order. -/
def journalCodes (s : State) : List Nat :=
  (List.range (s.journalUsed 0 3840)).filterMap (fun k =>
    let r := s.journalAt k
    if beAt r 0 4 = 0x4A524543 ∧ beAt r 12 4 = crc32c (r.take 12) then some (beAt r 4 4) else none)

/-- A record is appended. -/
def journalAppend (s : State) (code : Nat) : State :=
  s.nvProgram (nvJournal + 0x1000 + 16 * s.journalUsed 0 3840) (journalRecord code)

/-- A copy is marked: a valid header and no COMPLETE record (R482). -/
def copyMarked (s : State) : Bool := s.journalOk && !s.journalCodes.contains 0xFFFE

/-- The first start of new firmware: COMPLETE and no migration record (R486). -/
def firstStart (s : State) : Bool :=
  s.journalOk && s.journalCodes.contains 0xFFFE && !s.journalCodes.contains 0xFFFD

/-- The slots that have a record. -/
def copiedSlots (s : State) : List Nat := s.journalCodes.filter (fun c => decide (c ≤ 255))

/-! ### The fleet update key -/

/-- The fleet blob of a sector of the customer area (R355). -/
def fleetBlob (s : State) (sector : Nat) : List Byte := s.nvRead (nvCustomer + 4096 * sector) 64

/-- The key that a device blob of node 7 holds, under the key of node 4 (R362, R363). -/
def fleetOpen (identity : Nat) (blob : List Byte) : Option Nat :=
  let h : List Byte := [1, 1] ++ beBytes 2 7 ++ beBytes 4 0x090
  if blob.take 8 = h then
    match Config.keyUnwrap (nodeKdf identity (ascii "ELG-BLOB") 2 0x40) (slice0 blob 8 56) with
    | some inner => if inner.take 16 = h ++ List.replicate 8 0 then some (ofBe (inner.drop 16)) else none
    | none => none
  else none

/-- The fleet update key as the ROM derives it (R482, R488), where keys are available: `ok` says that the
reconstruction of S succeeds. -/
def romKey (s : State) (sector : Nat) (ok : Bool) : Option Nat :=
  if !ok || !s.helperOk || [0, 5].contains (lcOf s.nv.fuses) then none
  else
    let secret := Config.pufSecret (s.nvRead nvHelper 1536)
    let fix := nodeKdf secret (ascii "ELG-RK-FIX") 0 0x020
    fleetOpen (nodeKdf fix (ascii "ELG-IDENTITY") 2 0x060) (s.fleetBlob sector)

/-- SV imports node 7 when a session opens (R352, R355, R362): whether it can; the unwrap is a use of node 4. An import
into a node that is READY is a rewrite (R364). -/
def importFleet (s : State) : State × Bool :=
  if !([1, 2, 3].contains (s.rg F.KX_STAT_LC)) then (s, false)
  else match s.kxUse 4 6 with
  | (t, true) =>
    match fleetOpen (t.keyAt (nodeCell 4)) (t.fleetBlob (t.act F.KX_FLEET_CFG_BLOB_SECTOR)) with
    | some key => if t.nodeState 7 = 5 then (t, false) else (t.importKey 7 key, true)
    | none => (t, false)
  | (t, false) => (t, false)

/-! ### Session commands (R478, R479) -/

/-- The agent may open a session. -/
def updPermitted (s : State) (a : Agent) : Bool :=
  match a with
  | .core n => (s.act F.SV_UPD_CFG_AGENTS).testBit n.val
  | .pcie => (s.act F.SV_UPD_CFG_AGENTS).testBit 8
  | .bersan n =>
    match s.sessionNode n.val with
    | some k => decide (k = 3) || (nodePolicy s.kxRf k).testBit 8
    | none => false
  | _ => false

/-- A command of the agent has not ended. -/
def updBusy (s : State) (a : Agent) : Bool :=
  s.upd.job.any (fun j => decide (j.1 = a)) ||
    (decide (a.ownerCode ≤ 12) && decide (s.rg (F.SV_UPD_RESULT_PENDING a.ownerCode) = 1))

/-- ADDR of a command: a Bersan message carries it; any other agent's mailbox holds it. -/
def updAddr (s : State) (a : Agent) (addr : Nat) : Nat :=
  match a with
  | .bersan _ => addr % 2 ^ 40
  | _ => s.rg (F.SV_UPD_ADDR_LO_ADDR a.ownerCode) + 2 ^ 32 * s.rg (F.SV_UPD_ADDR_HI_ADDR a.ownerCode)

/-- The mirror of a Bersan session shows the ADDR of a message that carries one (R103, R489). -/
def updMirror (s : State) (a : Agent) (addr : Option Nat) : State :=
  match a, addr with
  | .bersan _, some addr => (s.setRg (F.SV_UPD_ADDR_LO_ADDR a.ownerCode) addr).setRg (F.SV_UPD_ADDR_HI_ADDR a.ownerCode)
      (addr / 2 ^ 32)
  | _, _ => s

/-- A command is refused (R492); `c` is the first slot of the container it is about. -/
def updRefuse (s : State) (a : Agent) (c : List Byte) (index code : Nat) : State :=
  let t := s.updResult a index code
  if code = 7 ∨ code = 8 ∨ code = 12 then t.updLedger c 20 code else t

/-- A command is accepted: PENDING until its outcome. -/
def updAccept (s : State) (a : Agent) (op index : Nat) : State :=
  let k := a.ownerCode
  let t := if k ≤ 12 then s.wr (R.SV_UPD_RESULT k) (Word.ofNat (1 + index % 256 * 256)) else s
  { t with upd.job := some (a, op, index) }

/-- The outcome of an accepted command. -/
def updEnd (s : State) (a : Agent) (index code : Nat) : State :=
  let t := { s with upd.job := none }
  if code = 0 then t.updResult a index 0 else t.updRefuse a s.upd.first index code

/-- The checks that every command but OPEN begins with. -/
def updOwned (s : State) (a : Agent) : Option Nat :=
  match s.upd.owner with
  | none => some 3
  | some b => if a = b then none else some 4

/-- A command of the owner restarts the session's timeout (R480). -/
def updTouch (s : State) (a : Agent) : State :=
  if s.upd.owner = some a then { s with upd.lastCmd := s.now } else s

/-- A command of an agent: ignored while one of its commands is pending, refused with its code, or accepted; `first` is
the first slot of the container it is about, `addr` the ADDR that a Bersan message carries. -/
def updCommand (s : State) (a : Agent) (index : Nat) (check : State → Option Nat) (accept : State → State)
    (first : State → List Byte := fun u => u.upd.first) (addr : Option Nat := none) : State :=
  s.byAgent a (fun t =>
    if t.updBusy a then t
    else
      let u := (t.updMirror a addr).updTouch a
      match check u with
      | some code => u.updRefuse a (first u) index code
      | none => accept u)

/-- The checks of HEADER after ownership, in order; `c` is the data at ADDR. -/
def headerCheck (s : State) (addr : Nat) (c : List Byte) : Option Nat :=
  if !s.dramOk addr 512 then some 0x0F
  else if cHeaderOk c [1] ∧ !s.dramOk addr (cLen c) then some 0x0F
  else if !cHeaderOk c [1] then some 0x06
  else if !s.keyHashOk c then some 0x07
  else if s.rollback c then some 0x08
  else none

/-- SV has accepted a header in the session. -/
def headerAccepted (s : State) : Bool := decide (s.rg F.SV_UPD_STAT_SESSION = 2)

/-- Blocks received are forgotten, or counted anew. -/
def showGot (s : State) (got : Nat) : State :=
  { s with upd.got := got }.setRg F.SV_UPD_STAT_RECEIVED (popCount got 255)

/-! ### The status registers (R491) -/

/-- The registers that the ROM and SV set at each start. -/
def updStatus (s : State) : State :=
  let act := s.slotZero nvActive
  let stg := s.slotZero nvStaging
  let t := (((s.setRg F.SV_UPD_COUNTER_COUNTER s.nv.counter).setRg F.SV_UPD_COUNTER_ACTIVE_SVN (cSvn act)).setRg
    F.SV_UPD_COUNTER_STAGED_SVN (if cHeaderOk stg [1, 2] then cSvn stg else 0)).setRg F.SV_UPD_VERSION_FW_VERSION
    (cField act 512 4)
  let u := ((t.setRg F.SV_UPD_LAST_COPY_RESULT s.upd.copy.result).setRg F.SV_UPD_LAST_WRITTEN s.upd.copy.written).setRg
    F.SV_UPD_LAST_UNCHANGED s.upd.copy.unchanged
  (u.setRg F.SV_UPD_STAT_MARKED (if s.copyMarked then 1 else 0)).setRg F.SV_UPD_STAT_FIRST_START
    (if s.firstStart then 1 else 0)

/-- The event and the ledger record of a copy at the boot Stitch (R486, R492); RESCUE stands in the journal header, which
no outcome of the copy erases. -/
def copyRecord (s : State) : State :=
  let r := s.upd.copy.result
  if r = 0 ∧ !s.firstStart then s
  else
    let c := s.slotZero nvActive
    (s.raise 22).ledgerAdd 0x07 ([22, Byte.ofNat r, Byte.ofNat (cSvn c)] ++ slice0 (cMd c) 0 12 ++
      leBytes 2 s.upd.copy.written ++
      [if (beAt (s.nvRead nvJournal 64) 5 1).testBit 0 then 1 else 0, Byte.ofNat s.nv.counter])

/-! ### The copy at start (R482 to R484) -/

/-- Step 2: the staged container is what the journal header marks, and it is sound. -/
def checkPass (s : State) (key : Nat) : Bool :=
  let c := s.slotZero nvStaging
  let h := s.nvRead nvJournal 64
  cHeaderOk c [1, 2] && decide (cMd c = slice0 h 12 48) && s.keyHashOk c && cSigned c && !s.rollback c &&
    decide (cPlain c = (beAt h 5 1).testBit 1) &&
    (List.range (cBlocks c)).all (fun b =>
      let st := s.slotBytes nvStaging (b + 1)
      (cPlain c || blockTagOk c key b st) && decide (Config.sha384 (blockPlain c key b st) = cDigest c b))

/-- The ROM begins or resumes the copy, leaves it, or must enter RESCUE (second component); `ok` says that S can be
reconstructed. -/
def copyStart (s : State) (ok : Bool) : State × Bool :=
  let h := s.nvRead nvJournal 64
  let plain := (beAt h 5 1).testBit 1
  let done := s.copiedSlots
  let key := if plain then some 0 else s.romKey (beAt h 8 2) ok
  match key with
  | none =>
    if done = [] then ({ s with upd.copy.result := 3, upd.copy.running := false }, false) else (s, true)
  | some k =>
    if s.checkPass k then
      let n := beAt h 6 2 - 1
      let left := ((List.range n).map (· + 1) ++ [0]).filter (fun b => !done.contains b)
      let fresh := decide (done = [])
      ({ s with upd.copy := {
          running := true
          next := left
          written := if fresh then 0 else s.upd.copy.written
          unchanged := if fresh then 0 else s.upd.copy.unchanged
          resumed := !fresh
          retries := 0
          result := 0 } }, false)
    else if done = [] then
      ({ s.nvProgram nvJournal [0, 0, 0, 0] with upd.copy.result := 4, upd.copy.running := false }, false)
    else (s, true)

/-- The key of the copy in progress. -/
def copyKey (s : State) : Nat := (s.romKey (beAt (s.nvRead nvJournal 64) 8 2) true).getD 0

/-- The bytes that the active slot is to hold. -/
def copyImage0 (s : State) (slot : Nat) : List Byte :=
  let c := s.slotZero nvStaging
  if slot = 0 then s.slotBytes nvStaging 0
  else blockPlain c s.copyKey (slot - 1) (s.slotBytes nvStaging slot)

/-- The active slot already holds its content (R482 step 3). -/
def slotSame (s : State) (slot : Nat) : Bool :=
  let c := s.slotZero nvStaging
  if slot = 0 then decide (s.slotBytes nvActive 0 = s.slotBytes nvStaging 0)
  else decide (Config.sha384 (s.slotBytes nvActive slot) = cDigest c (slot - 1))

/-- The active slot is erased and programmed. -/
def slotWrite (s : State) (slot : Nat) : State :=
  (s.nvErase (nvActive + 65536 * slot) 65536).nvProgram (nvActive + 65536 * slot) (s.copyImage0 slot)

/-- A record whose program was cut short. -/
def journalTorn (s : State) (code : Nat) : State :=
  s.nvProgramFail (nvJournal + 0x1000 + 16 * s.journalUsed 0 3840) (journalRecord code)

/-- Step 4: the fuses are blown one at a time, so that `n` of those still missing are blown. -/
def blowFuses (s : State) (n : Nat) : State :=
  { s with nv.counter := min (max s.nv.counter (cSvn (s.slotZero nvStaging))) (s.nv.counter + n) }

/-- A copy in progress is cut short (R483). A free value says where: the slot in hand is partly erased or written and has no
record, or its record is torn; in step 4 some of the fuses are blown, or all of them and COMPLETE is torn
(log 108). -/
def copyCut (s : State) : State :=
  if !s.upd.copy.running then s
  else
    let v := s.freeVal
    let t := { s.useFree with upd.copy.running := false }
    match s.upd.copy.next with
    | slot :: _ =>
      if v % 2 = 0 then
        if s.slotSame slot then t
        else t.nvPutAll (nvActive + 65536 * slot) ((List.range 65536).map (freeByte (v / 2)))
      else (if s.slotSame slot then t else t.slotWrite slot).journalTorn slot
    | [] => if v % 2 = 0 then t.blowFuses (v / 2) else (t.blowFuses 256).journalTorn 0xFFFE

end State

end Sys2Proof.Machine
end

