-- ==== Sys2Proof/Machine/BankOps.lean ====
section
/-!
DEFINITION. The configuration store (02_configuration_store.md, R50 to R70): the configured tables, the loader's walk
over a bank, the layout of a full image, and the bank writes of SV.
-/

namespace Sys2Proof.Machine

/-! ### Configured tables (R56) -/

/-- A configured table: its identifier, domain, space offset, stride, entries `first` to `last`, and entry width in
words. -/
structure TableDef where
  id : Nat
  cd : Nat
  base : Nat
  stride : Nat
  first : Nat
  last : Nat
  words : Nat
  deriving DecidableEq, Repr

/-- The tables of R191, R226, R255, R345, R378, R397 and R421, and those of R321 for each controller. -/
def tables : List TableDef :=
  [⟨0x20, 2, 0x2010000, 4, 0, 4095, 1⟩, ⟨0x30, 3, 0x3100000, 16, 0, 4095, 4⟩, ⟨0x31, 3, 0x3140000, 16, 0, 8191, 3⟩,
    ⟨0x32, 3, 0x3160000, 8, 0, 4095, 2⟩, ⟨0x33, 3, 0x3200000, 32, 0, 16383, 5⟩, ⟨0x34, 3, 0x3280000, 8, 0, 8191, 2⟩,
    ⟨0x35, 3, 0x3290000, 16, 0, 4095, 3⟩, ⟨0x36, 3, 0x32A0000, 64, 0, 2047, 10⟩, ⟨0x37, 3, 0x32C0000, 16, 0, 15, 4⟩,
    ⟨0x38, 4, 0x3300000, 32, 0, 1023, 8⟩, ⟨0x39, 4, 0x3310000, 16, 0, 1023, 4⟩] ++
  [⟨0x3A, 4, 0x3400000, 128, 0, 4095, 22⟩, ⟨0x3B, 4, 0x3500000, 16, 0, 4095, 4⟩, ⟨0x3C, 4, 0x3600000, 8, 0, 1023, 2⟩,
    ⟨0x3D, 4, 0x3680000, 16, 0, 255, 4⟩, ⟨0x3E, 4, 0x36A0000, 4, 0, 4095, 1⟩, ⟨0x50, 5, 0x2410800, 4, 0, 10495, 1⟩] ++
  (List.range 16).map (fun c => ⟨0x60 + c, canCd c, 0x5101000 + 0x10000 * c, 16, 0, 127, 3⟩) ++
  (List.range 16).map (fun c => ⟨0x70 + c, canCd c, 0x5103000 + 0x10000 * c, 4, 0, 767, 1⟩) ++
  [⟨0x80, 9, 0x5410000, 32, 0, 4095, 8⟩, ⟨0x81, 9, 0x5440000, 8, 0, 8191, 2⟩, ⟨0x82, 9, 0x5460000, 32, 0, 255, 6⟩,
    ⟨0xA0, 10, 0x6100000, 64, 16, 1023, 12⟩, ⟨0xB0, 11, 0x7100000, 64, 0, 4095, 16⟩, ⟨0xB1, 11, 0x7180000, 32, 0, 511, 5⟩,
    ⟨0xC0, 12, 0x3000, 32, 0, 15, 8⟩]

/-- Offset of word w of entry i. The gate lists of SC lie 256 entries to a port (R255). -/
def TableDef.word (t : TableDef) (i w : Nat) : Nat :=
  if t.id = 0x50 then t.base + 0x2000 * (i / 256) + 4 * (i % 256) else t.base + t.stride * i + 4 * w

/-- The table of an identifier that the domain owns. -/
def tableOf (cd id : Nat) : Option TableDef := tables.find? (fun t => decide (t.id = id ∧ t.cd = cd))

/-! ### The registers of a domain -/

/-- Every address of an array. -/
def dimOffsets : List Dim → List Nat
  | [] => [0]
  | d :: ds => (List.range (d.hi + 1 - d.lo)).flatMap (fun i => (dimOffsets ds).map (· + (d.lo + i) * d.stride))

/-- The row holds RS registers of the domain, table entries among them or not. -/
def RegRow.rsOf (r : RegRow) (cd : Nat) : Bool := decide (r.cd = some cd) && r.fields.any (fun f => decide (f.acc = .rs))

/-- The RS registers of a domain that are no table entries, in ascending offset (R68). -/
def cdRegs (cd : Nat) : List Nat :=
  let rows := (List.range 12).flatMap (fun b => (RegMap.blockRows b).filter (fun r => r.rsOf cd && !r.tbl))
  (rows.flatMap (fun r => (dimOffsets r.dims).map (· + r.off))).mergeSort (fun a b => decide (a ≤ b))

/-- The register of a domain at an offset, in its ACTIVE view (R55). -/
def cdRow (cd off : Nat) : Option RegRow :=
  match regRow off with
  | some r => if r.rsOf cd ∧ off % 4 = 0 then some r else none
  | none => none

/-! ### A full image (R68) -/

/-- A record. -/
def recordBytes (domain type : Nat) (payload : List Byte) : List Byte :=
  [Byte.ofNat domain, Byte.ofNat type, 1, 0] ++ leBytes 4 payload.length ++ payload

/-- A domain's REGWRITE record. -/
def regRecord (rf : RegFile) (cd : Nat) : List Byte :=
  recordBytes cd 1 ((cdRegs cd).flatMap (fun o => leBytes 4 o ++ leBytes 4 (rfWord rf o).toNat))

/-- A table's record. -/
def tableRecord (rf : RegFile) (t : TableDef) : List Byte :=
  recordBytes t.cd 4 (leBytes 2 t.id ++ leBytes 2 t.words ++ leBytes 4 t.first ++
    (List.range (t.last + 1 - t.first)).flatMap (fun k => (List.range t.words).flatMap (fun w =>
      leBytes 4 (rfWord rf (t.word (t.first + k) w)).toNat)))

/-- Bytes of a full image. -/
def imageLen : Nat :=
  ((List.range 18).map (fun d => 8 + 8 * (cdRegs d).length)).sum +
    (tables.map (fun t => 16 + 4 * t.words * (t.last + 1 - t.first))).sum + 32

/-- SECTORS of SV_TX_PERSIST (R68, R115). -/
def imageSectors : Nat := (imageLen + 4095) / 4096

namespace State

/-- The settings of every domain as a full image, with SV's trailer and the END record. -/
def bankImage (s : State) (seq : Nat) : List Byte :=
  let body := (List.range 18).flatMap (fun d =>
    regRecord (s.activeOf d) d ++ (tables.filter (fun t => decide (t.cd = d))).flatMap (tableRecord (s.activeOf d)))
  body ++ recordBytes 0 0xFE (leBytes 4 (crc32c body) ++ leBytes 4 body.length ++ leBytes 4 seq ++ leBytes 4 0) ++
    recordBytes 0 0xFF []

/-! ### Bank writes (R67, R68, R112) -/

/-- The selector's bank code and sequence number (R50). -/
def selCode (s : State) : Nat := ofLe (s.nvRead nvSelector 4)
def selSeq (s : State) : Nat := ofLe (s.nvRead (nvSelector + 4) 4)

/-- The bank that the selector selects: 0 for A, 1 for B. -/
def selBank (s : State) : Nat := if s.selCode = 0xA5A50002 then 1 else 0

/-- The selector word for a bank (R50, R67). -/
def selWord (bank seq : Nat) : List Byte := leBytes 4 (0xA5A50001 + bank) ++ leBytes 4 seq

/-- The number of the next bank write. -/
def nextSeq (s : State) : Nat := (s.selSeq + 1) % 2 ^ 32

/-- A bank write is taken up: the whole inactive bank, then the selector (R67). -/
def addBankWrite (s : State) (k : FlashKind) (bank seq : Nat) (image : List Byte) : State :=
  s.addTask k [newArea (nvBank bank) ((image.length + 4095) / 4096) image, newArea nvSelector 1 (selWord bank seq)]

/-- A persisting Stitch has committed: SV writes the settings of this instant (R112). -/
def persist (s : State) (a : Agent) : State :=
  let bank := 1 - s.selBank
  let t := s.addBankWrite (.persist a bank s.nextSeq) bank s.nextSeq (s.bankImage s.nextSeq)
  { t.setRg F.SV_TX_PERSIST_STATE 1 with sv.reserved := false }

/-! ### The loader (R52 to R66) -/

/-- A register write of a load: applied, or ignored and counted (R55). -/
def loadReg (s : State) (cd off : Nat) (f : Word → Word) : State :=
  match cdRow cd off with
  | some _ => s.shadowPut cd off (f (rfWord (s.shadowOf cd) off))
  | none => s.bump F.SV_CFG_IGNORED_COUNT

/-- Word k of a payload. -/
def payWord (p : List Byte) (k : Nat) : Nat := ofLe (slice0 p (4 * k) 4)

/-- A TABLE payload's entries (R56). -/
def loadTable (s : State) (t : TableDef) (p : List Byte) : State :=
  let ew := payWord p 0 / 65536
  let start := payWord p 1
  if ew = 0 then s
  else
    let words := p.length / 4 - 2
    let n := words / ew
    let u := s.forEach (List.range n) (fun u k =>
      let i := start + k
      if t.first ≤ i ∧ i ≤ t.last then
        (u.forEach (List.range t.words) (fun u w =>
          let off := t.word i w
          match cdRow t.cd off with
          | some _ => u.shadowWord0 t.cd off
              (if w < ew then Word.ofNat (payWord p (2 + k * ew + w)) else resetWord off)
          | none => u)).staticReach t.cd (t.word i 0) (u.shadowOf t.cd)
      else u.bump F.SV_CFG_IGNORED_COUNT)
    if words % ew = 0 then u else u.bump F.SV_CFG_IGNORED_COUNT

/-- A record's payload is applied (R55 to R57). -/
def loadPayload (s : State) (cd type : Nat) (p : List Byte) : State :=
  let n := p.length / 4
  if type = 1 then
    s.forEach (List.range (n / 2)) (fun t k => t.loadReg cd (payWord p (2 * k)) (fun _ => Word.ofNat (payWord p (2 * k + 1))))
  else if type = 2 then
    s.forEach (List.range (n - 1)) (fun t k =>
      t.loadReg cd (payWord p 0 + 4 * k) (fun _ => Word.ofNat (payWord p (k + 1))))
  else if type = 3 then
    s.forEach (List.range (n / 3)) (fun t k =>
      let m := Word.ofNat (payWord p (3 * k + 1))
      t.loadReg cd (payWord p (3 * k)) (fun old => (old &&& ~~~ m) ||| (Word.ofNat (payWord p (3 * k + 2)) &&& m)))
  else match tableOf cd (payWord p 0 % 65536) with
    | some t => s.loadTable t p
    | none => s

/-- TYPE, DOMAIN or TABLE_ID is unknown (R58, R59). -/
def loadUnknown (cd type : Nat) (p : List Byte) : Bool :=
  decide (cd > 17) || !(decide (1 ≤ type) && decide (type ≤ 4)) ||
    (decide (type = 4) && (decide (p.length < 8) || (tableOf cd (payWord p 0 % 65536)).isNone))

/-- Loading ends (R58): CSU0's count and result stand (R65). -/
def loadStop (s : State) (cause : Nat) : State :=
  let t := (s.setRg F.SV_CFG_STATUS_END_CAUSE cause)
  let cov := if s.sv.covDone then s.sv.covered else s.nvRead (nvBank (s.rg F.SV_CFG_STATUS_BANK)) s.sv.loadPos
  let u := { t with sv.loading := false, sv.covered := cov, sv.covDone := true }
  ((u.setRg F.SV_CFG_BYTES_COUNT cov.length).setRg (F.OB_CSU_RESULT_RESULT 0) (crc32c cov)).setRg (F.OB_CSU_RUN_RUN 0)
    (crcRun crc32cKind 0xFFFFFFFF cov)

/-- The first trailer (R58, R70): its missing words stay 0. -/
def loadTrailer (s : State) (p : List Byte) : State :=
  let cov := s.nvRead (nvBank (s.rg F.SV_CFG_STATUS_BANK)) s.sv.loadPos
  let w := fun k => if 4 * (k + 1) ≤ p.length then payWord p k else 0
  let t := { s.setRg F.SV_CFG_STATUS_TRAILER_SEEN 1 with sv.covered := cov, sv.covDone := true }
  (((t.setRg F.SV_CFG_TRAILER_CRC_CRC (w 0)).setRg F.SV_CFG_TRAILER_LEN_LEN (w 1)).setRg F.SV_CFG_TRAILER_SEQ_SEQ (w 2)).setRg
    F.SV_CFG_TRAILER_BUILD_BUILD (w 3)

/-- One record at the loader's position, whose end lies within the bank (R58). -/
def loadRecord (s : State) (cd type fmt : Nat) (p : List Byte) : State :=
  let seen := decide (s.rg F.SV_CFG_STATUS_TRAILER_SEEN = 1)
  if type = 0xFE ∧ cd = 0 then
    if seen then s.bump F.SV_CFG_SKIPPED_COUNT else s.loadTrailer p
  else if loadUnknown cd type p then s.bump F.SV_CFG_UNKNOWN_COUNT
  else if fmt > 1 then s.bump F.SV_CFG_SKIPPED_COUNT
  else
    let t := (s.loadPayload cd type p).bump F.SV_CFG_RECORDS_COUNT
    let u := t.setRg F.SV_CFG_DOMAINS_PRESENT (setBit (t.rg F.SV_CFG_DOMAINS_PRESENT) cd)
    if seen then u.setRg F.SV_CFG_STATUS_AFTER_TRAILER 1 else u

/-- The loader reads the next header (R58). -/
def loadStep (s : State) : State :=
  let pos := s.sv.loadPos
  let base := nvBank (s.rg F.SV_CFG_STATUS_BANK)
  if pos + 8 > 0x800000 then s.loadStop 3
  else
    let h := s.nvRead (base + pos) 8
    let type := ofLe (slice0 h 1 1)
    let len := ofLe (slice0 h 4 4) / 4 * 4
    if type = 0xFF then s.loadStop 1
    else if pos + 8 + len > 0x800000 then s.loadStop 2
    else
      let t := s.loadRecord (ofLe (slice0 h 0 1)) type (ofLe (slice0 h 2 1)) (s.nvRead (base + pos + 8) len)
      { t with sv.loadPos := pos + 8 + len }

end State

end Sys2Proof.Machine
end

