-- ==== Sys2Proof/Machine/MendOps.lean ====
section
/-!
DEFINITION. The Mend arbiter as operations (04_transactions_mending.md, R117 to R125): units, the exclusion matrix, the
checks of MEND_START, taking a unit and giving it back, the discards of a bank fence, and the end of an activity.
-/

namespace Sys2Proof.Machine

/-- The unit that an activity touches, as a kind of unit (1 bank, 2 port, 3 CAN controller, 4 pair, 5 core, 6 table) and
a number (R117). -/
def mendUnit (kind unit : Nat) : Nat × Nat :=
  match kind with
  | 1 => (1, unit)
  | 2 => (2, unit)
  | 3 => (3, unit)
  | 4 => (4, unit)
  | 5 => (5, unit)
  | 7 => if unit < 36 then (2, unit) else (3, unit - 36)
  | 8 => (2, unit)
  | _ => (6, unit)

/-- Both activities touch one SerDes quad (R120). -/
def sameQuad (a b : Nat × Nat) : Bool :=
  decide (a.1 = 2 ∧ b.1 = 2 ∧ a.2 < 24 ∧ b.2 < 24 ∧ a.2 / 4 = b.2 / 4)

/-- The exclusion matrix of R120 for two kinds: 3 X, 2 Q, 1 U, 0 none. -/
def mendMark (a b : Nat) : Nat :=
  match min a b, max a b with
  | 1, 1 => 3
  | 2, 2 => 2
  | 2, 7 => 2
  | 2, 8 => 1
  | 3, 3 => 1
  | 3, 7 => 1
  | 4, 4 => 3
  | 5, 5 => 1
  | 6, 6 => 3
  | 7, 7 => 1
  | 7, 8 => 1
  | 8, 8 => 1
  | _, _ => 0

/-- Two activities conflict (R120). -/
def mendConflict (k1 u1 k2 u2 : Nat) : Bool :=
  match mendMark k1 k2 with
  | 3 => true
  | 2 => sameQuad (mendUnit k1 u1) (mendUnit k2 u2)
  | 1 => decide (mendUnit k1 u1 = mendUnit k2 u2)
  | _ => false

/-- A software activity that a fault-driven one ends: on the same unit, or in X or Q conflict (R121). -/
def mendPreempts (k1 u1 k2 u2 : Nat) : Bool :=
  decide (mendUnit k1 u1 = mendUnit k2 u2) || (decide (2 ≤ mendMark k1 k2) && mendConflict k1 u1 k2 u2)

/-- UNIT is one that KIND has (R117). -/
def mendValid (kind unit : Nat) : Bool :=
  match kind with
  | 1 => decide (unit < 16)
  | 2 => decide (unit < 24)
  | 3 => decide (unit < 16)
  | 4 => decide (unit < 8)
  | 5 => decide (unit < 8)
  | 6 => tables.any (fun t => decide (t.id = unit))
  | 7 => decide (unit < 52)
  | 8 => decide (unit < 41)
  | _ => false

/-- Tables of FX (R225, R226). -/
def fxTable (id : Nat) : Bool := decide (0x30 ≤ id ∧ id ≤ 0x3E)

namespace State

/-- Every running activity. -/
def mendAll (s : State) : List Mend := s.mend.acts ++ s.mend.facts

/-- A running activity by its ID. -/
def mendOf (s : State) (id : Nat) : Option Mend := s.mendAll.find? (fun m => decide (m.id = id))

/-- BANK_FLOOR with its reserved values (R123). -/
def bankFloor (s : State) : Nat :=
  let v := s.act F.SV_MEND_CFG_BANK_FLOOR
  orElse (decide (1 ≤ v ∧ v ≤ 16)) v 12

/-- Pairs that SEALED needs (R76). -/
def sealedPairs (s : State) : Nat := s.act F.SV_MODE_CFG_SEALED_PAIRS + 1

/-- The unit works. -/
def unitWorks (s : State) (u : Nat × Nat) : Bool :=
  match u.1 with
  | 1 => s.banks.testBit u.2
  | 2 => decide (s.rg (F.PX_PORT_STAT_MEND u.2) = 0)
  | 3 => decide (s.canState u.2 ≠ 7)
  | 4 => s.pairs.contains u.2
  | 5 => (s.rg F.CX_CORE_STAT_RUN).testBit u.2
  | _ => true

/-- A running activity holds the unit. -/
def unitHeld (s : State) (u : Nat × Nat) : Bool := s.mendAll.any (fun m => decide (mendUnit m.kind m.unit = u))

/-- The port is the last one in service of a path group (R119, R217). -/
def lastMember (s : State) (port : Nat) : Bool :=
  (List.range 16).any (fun p =>
    let ms := s.pgInService 0 p
    !ms.isEmpty && ms.all (fun m => decide (pgMember (s.cd3 0) p m = port)))

/-- The checks of MEND_START in order (R119): the code, and the ID it reports. -/
def mendCheck (s : State) (kind unit : Nat) : Option (Nat × Nat) :=
  let u := mendUnit kind unit
  if !mendValid kind unit ∨ (!s.unitWorks u ∧ !s.unitHeld u) then some (0x14, 0)
  else if s.mend.acts.length ≥ 8 then some (0x15, 0)
  else match (s.mendAll.filter (fun m => mendConflict kind unit m.kind m.unit)).map (·.id) with
    | i :: is => some (0x10, is.foldl min i)
    | [] =>
      if kind = 1 ∧ popCount s.banks 16 < s.bankFloor + 1 then some (0x11, 0)
      else if (kind = 2 ∨ kind = 8 ∨ (kind = 7 ∧ unit < 36)) ∧ s.lastMember unit then some (0x12, 0)
      else if kind = 4 ∧ s.mode = 5 ∧ s.pairs.length < s.sealedPairs + 1 then some (0x13, 0)
      else none

/-- The next activity ID (R119). -/
def mendId (s : State) : Nat :=
  (((List.range 255).map (fun i => (s.mend.lastId + i) % 255 + 1)).find? (fun i => (s.mendOf i).isNone)).getD 1

/-- The lowest free entry of an array. -/
def mendEntry (l : List Mend) (n : Nat) : Nat :=
  ((List.range n).find? (fun k => l.all (fun m => decide (m.entry ≠ k)))).getD 0

/-- The word of SV_MEND_ACT_k, SV_MEND_FACT_k or SV_MEND_END_o without its code (R123, R124). -/
def mendWord (m : Mend) : Nat := m.id + m.kind * 2 ^ 8 + m.unit * 2 ^ 12

/-- A bank leaves or rejoins service: C_DIE follows (R167). -/
def bankService (s : State) (b : Nat) (on : Bool) : State :=
  let m := s.banks
  ((s.setRg F.SV_MEND_SERVICE_BANKS (if on then setBit m b else clrBit m b)).setRg (F.SX_BANK_STAT_IN_SERVICE b)
    (if on then 1 else 0)).judgeRsv.checkMarks

/-- A pair leaves or rejoins service (R386). -/
def pairService (s : State) (p : Nat) (on : Bool) : State :=
  let m := s.rg F.SV_MEND_SERVICE_PAIRS
  let t := (s.setRg F.SV_MEND_SERVICE_PAIRS (if on then setBit m p else clrBit m p)).setRg (F.CE_PAIR_STAT_IN_SERVICE p)
    (if on then 1 else 0)
  if on then t.pairReturns p else t.pairLeaves p

/-- A software activity takes its unit (R117). -/
def mendTake (s : State) (u : Nat × Nat) : State :=
  match u.1 with
  | 1 => (s.bankService u.2 false).setRg (F.SX_BANK_STAT_MEND u.2) 1
  | 2 => s.portMend u.2 true
  | 3 => s.canHold u.2
  | 4 => (s.pairService u.2 false).setRg (F.CE_PAIR_STAT_MEND u.2) 1
  | 5 => s.coreOffReq u.2
  | _ => s

/-- An activity no longer holds its unit, which returns to service unless it is faulty (R118, R122). -/
def mendGive (s : State) (u : Nat × Nat) (good : Bool) : State :=
  match u.1 with
  | 1 => let t := s.setRg (F.SX_BANK_STAT_MEND u.2) 0; if good then t.bankService u.2 true else t
  | 2 => if good then s.portMend u.2 false else s
  | 3 => if good then s.canRelease u.2 else s
  | 4 =>
    let t := s.setRg (F.CE_PAIR_STAT_MEND u.2) 0
    if good then t.pairService u.2 true else t.setRg (F.CE_PAIR_STAT_RETIRED u.2) 1
  | 5 => s.coreReturn u.2
  | _ => s

/-- A software activity starts (R119, R123). -/
def mendStart (s : State) (a : Agent) (kind unit : Nat) : State :=
  let m : Mend := ⟨s.mendId, kind, unit, a, a.ownerCode, false, mendEntry s.mend.acts 8⟩
  let t := { s with mend.acts := s.mend.acts ++ [m], mend.lastId := m.id }.wr (R.SV_MEND_ACT m.entry)
    (Word.ofNat (mendWord m + m.owner * 2 ^ 20))
  t.mendTake (mendUnit kind unit)

/-- The entry of an ended activity is freed, and what its end reports (R124). -/
def mendReport (s : State) (m : Mend) (code : Nat) : State :=
  let keep := fun (l : List Mend) => l.filter (fun x => decide (x.id ≠ m.id))
  let t := { s with mend.acts := keep s.mend.acts, mend.facts := keep s.mend.facts }
  let u := t.wr (if m.owner = 14 then R.SV_MEND_FACT m.entry else R.SV_MEND_ACT m.entry) 0
  let v := u.wr (R.SV_MEND_END m.owner) (Word.ofNat (mendWord m + code * 2 ^ 20))
  v.raise (if code = 0 then 15 else 29) (some m.agent)

/-- The MEND_STOPs that wait for an activity end with OK (R119); ID shows the activity stopped: DESIGN CHOICE (log 102). -/
def mendStopped (s : State) (id : Nat) : State :=
  let mine := s.mend.stopped.filter (fun e => decide (e.1 = id))
  let t := { s with mend.stopped := s.mend.stopped.filter (fun e => decide (e.1 ≠ id)) }
  t.forEach mine (fun t e => t.txOutcome e.2 (txWord 0 0 0 id))

/-- A software activity ends with a code (R118, R124); `good`: its unit returns to service. -/
def mendEnd (s : State) (m : Mend) (code : Nat) (good : Bool) : State :=
  ((s.mendReport m code).mendGive (mendUnit m.kind m.unit) good).mendStopped m.id

/-- A fault-driven activity takes an ID and an entry of SV_MEND_FACT_k (R121, R123). -/
def mendFact (s : State) (kind unit : Nat) : State :=
  let m : Mend := ⟨s.mendId, kind, unit, .sv, 14, true, mendEntry s.mend.facts 24⟩
  let t : State := { s with mend.facts := s.mend.facts ++ [m], mend.lastId := m.id }
  t.wr (R.SV_MEND_FACT m.entry) (Word.ofNat (mendWord m + m.owner * 2 ^ 20))

/-- Software activities that a fault-driven one on a unit preempts end (R121). -/
def mendPreempt (s : State) (kind unit : Nat) : State :=
  s.forEach (s.mend.acts.filter (fun m => mendPreempts kind unit m.kind m.unit))
    (fun t m => t.mendEnd m 0x16 (!decide (m.kind = kind) || !decide (m.unit = unit)))

/-- Fewer banks than BANK_FLOOR are in service, or SEALED runs with too few pairs (R121). -/
def belowFloor (s : State) (kind : Nat) : Bool :=
  if kind = 1 then decide (popCount s.banks 16 < s.bankFloor)
  else decide (s.mode = 5) && decide (s.pairs.length < s.sealedPairs)

/-- A fault-driven activity starts (R121). -/
def mendFault (s : State) (kind unit : Nat) : State :=
  let t := (s.mendPreempt kind unit).mendFact kind unit
  let u := (if kind = 1 then t.bankService unit false else t.pairService unit false).raise 17
  if u.belowFloor kind then u.raise 18 else u

/-! ### Frames with cells in a bank -/

/-- The frame, by number, holds a cell in bank b. -/
def inBank (s : State) (b id : Nat) : Bool :=
  match s.frameOf id with
  | some f => f.cells.contains b && !f.zombie
  | none => false

/-- The frames that hold a cell in bank b. -/
def bankFrames (s : State) (b : Nat) : List Nat := (s.allFrames.map (·.1)).filter (s.inBank b)

/-- The copies of a queue that satisfy a test are discarded, each with its count. -/
def purgeQueue (s : State) (q : Nat) (gone : Nat → Bool) (count : State → Nat → State) : State :=
  let x := s.queueOf q
  let t := s.setQueue q { x with die := x.die.filter (fun c => !gone c.frame) }
  (t.dropCopies (x.die.filter (fun c => gone c.frame)) 8 (fun t _ => count t (q / 8))).toDie q

/-- The same in a MAC transmit queue. -/
def purgeMq (s : State) (p m : Nat) (gone : Nat → Bool) (count : State → Nat → State) : State :=
  let l := s.mqOf p m
  (s.setMq p m (l.filter (fun c => !gone c.frame))).dropCopies (l.filter (fun c => gone c.frame)) 8 (fun t _ => count t p)

/-- The same for the copy in transmission: stomped, with R137's effects on P36 to P39. -/
def purgeTx (s : State) (p : Nat) (gone : Nat → Bool) (count : State → Nat → State) : State :=
  match s.txOf p with
  | none => s
  | some t =>
    if gone t.copy.frame then
      let u := count s p
      if hasMac p then u.stomp p (s.begunBytes p t) else u.giveUp p t
    else s

/-- Every copy in a queue or at an egress that satisfies a test is discarded, and frames in no queue yet are dropped,
with a count of their own; of a frame whose INGRESS copies are still to be written, each of them counts. -/
def purge (s : State) (gone : Nat → Bool) (count : State → Nat → State) (early : State → Frame → State) : State :=
  let t := s.forEach s.busyQueues (fun t q => t.purgeQueue q gone count)
  let u := t.forEach (List.range 41) (fun t p => (t.forEach [0, 1, 2, 3] (fun t m => t.purgeMq p m gone count)).purgeTx p gone count)
  (u.forEach ((u.allFrames.map (·.1)).filter gone) (fun t id =>
    match t.frameOf id with
    | some f =>
      if f.zombie then t
      else if f.stage ≠ .queued then (early t f).dropFrame id 1
      else if f.copying ≠ 0 then
        t.loseCopies id f count
      else t
    | none => t))

/-- Frames still in the bank 100 ms after the fence are discarded and counted as flushed (R117): a frame in no queue yet
counts at each port of its egress set, and at its ingress port while it has none (log 81). -/
def fenceExpiry (s : State) (b : Nat) : State :=
  let ids := s.bankFrames b
  s.purge (fun id => ids.contains id) (fun t p => t.bump (F.SX_FLUSHED_COUNT p)) (fun t f =>
    t.forEach (if f.egress = 0 then [f.port] else maskList f.egress 41) (fun t p => t.bump (F.SX_FLUSHED_COUNT p)))

/-- The frames of a fenced bank that remain are discarded under R24, and each counts in SX_DROP_VERDICT (R188). -/
def fenceDone (s : State) (b : Nat) : State :=
  let ids := s.bankFrames b
  s.purge (fun id => ids.contains id) (fun t _ => t.bump F.SX_DROP_VERDICT_COUNT)
    (fun t _ => t.bump F.SX_DROP_VERDICT_COUNT)

/-- An uncorrectable error in a cell fences its bank (R125, R188): its frames are set to DROP, and those in
transmission are stomped. -/
def bankFence (s : State) (b cell : Nat) : State :=
  let ids := s.bankFrames b
  let s1 := (s.mendFault 1 b).setRg (F.SX_BANK_STAT_FAULT_FENCED b) 1
  let s2 := s1.forEach ids setDrop
  let s3 := (s2.bump (F.SX_BANK_LOST_COUNT b) ids.length).raise 70
  let s4 := s3.forEach (List.range 41) (fun t p => t.purgeTx p (fun id => ids.contains id) (fun t _ => t))
  s4.fault 0x04 b cell ids.length

/-- The bank is fenced already: a fault adds nothing. -/
def bankOut (s : State) (b : Nat) : Bool :=
  !s.banks.testBit b && !s.mend.acts.any (fun m => decide (mendUnit m.kind m.unit = (1, b)))

/-- A repeated mismatch retires a pair (R382). -/
def retirePair (s : State) (p : Nat) : State :=
  let n := ((List.range 4096).filter (fun c => s.ctxValid c && decide (s.ctxPair c = p))).length
  let t := (s.mendFault 4 p).setRg (F.CE_PAIR_STAT_RETIRED p) 1
  ((t.setRg F.CE_EV_LAST_PAIR p).raise 200).fault 0x12 p n

/-! ### The patrol scrubber -/

/-- The scrubber meets an error in a word of a configured table (R225): `ue` uncorrectable. -/
def scrubTable (s : State) (id entry : Nat) (ue : Bool) : State :=
  if !tables.any (fun t => decide (t.id = id)) then s
  else if !ue then s.fault 0x08 id entry
  else if !fxTable id then s
  else
    let t := if s.entryOk id entry then { s with fx.badEntries := s.fx.badEntries ++ [(id, entry)] } else s
    let u := if id = 0x3D then t.sgateShow entry else if id = 0x3E then t.sgateShow (entry / 16) else t
    ((u.bump F.FX_TBL_UE_COUNT).raise 102).fault 0x09 id entry

/-- The scrubber meets an error in a slot of the bridge table (R225). -/
def scrubFdb (s : State) (slot : Nat) (ue : Bool) : State :=
  if !ue then s.fault 0x08 0x31 slot
  else
    let t := match s.fdbAt slot with
      | some e =>
        if e.static then s.setFdb slot (some { e with inActive := false, inOther := false }) else s.forget slot
      | none => s
    ((t.bump F.FX_TBL_UE_COUNT).raise 102).fault 0x09 0x31 slot

/-- The scrubber meets an error in the Hamper's page table: an uncorrectable one retires the page, and the frames of a
page in use are lost with it (R178, R180). -/
def scrubPage (s : State) (page : Nat) (ue : Bool) : State :=
  if !ue then s.fault 0x05 0 page
  else if s.sx.retired.contains page then s
  else match s.pageHolder page with
    | some (q, k) =>
      let lost := (pagesAfterLoss (s.queueOf q).pages k).2
      ((s.losePage q k page).fault 0x06 0 page lost.length).toDie q
    | none => (s.retirePage page).fault 0x06 0 page

/-- The scrubber meets an error in a CAN message RAM (R317); a word that it can not correct stays so until it is
written. -/
def scrubMsgRam (s : State) (c word : Nat) (ue : Bool) : State :=
  if ue then
    s.msgRamEcc c 2 word
  else (s.bump (F.BX_CAN_ECC_CE_COUNT c)).fault 0x0A c word

end State

end Sys2Proof.Machine
end

