-- ==== Sys2Proof/Machine/Mend.lean ====
section
/-!
DEFINITION. The meanings of the Mend commands and of the faults that mend themselves (04_transactions_mending.md,
R117 to R125).
-/

namespace Sys2Proof.Machine

/-- MEND_START (R119): a refusal with its code, or OK with the activity's ID. -/
def execMendStart (a : Agent) (kind unit : Nat) (s : State) : Result :=
  .next (s.txCommand a (fun t0 =>
    let k := kind % 16
    let u := unit % 256
    let t := t0.txFields a none (some (u + 256 * k)) none
    match t.mendCheck k u with
    | some (code, id) => (t.txOutcome a (State.txWord code 0 0 id)).raise 16 (some a)
    | none => ((t.mendStart a k u).txOutcome a (State.txWord 0 0 0 t.mendId)).drainUnless t.drained))

/-- MEND_STOP (R118, R119): OK once the activity has ended. -/
def execMendStop (a : Agent) (id : Nat) (s : State) : Result :=
  .next (s.txCommand a (fun t0 =>
    let t := t0.txFields a none (some (id % 256)) none
    match t.mendOf (id % 256) with
    | none => (t.txOutcome a (State.txWord 0x14 0 0 0)).raise 16 (some a)
    | some m =>
      if m.owner ≠ a.ownerCode then (t.txOutcome a (State.txWord 0x08 0 0 0)).raise 16 (some a)
      else { t with mend.stopped := t.mend.stopped ++ [(m.id, a)] }.txAccept a 0))

/-- BANK_TEST_FENCE_EXPIRY (R117): 100 ms after the fence of a running BANK_TEST. -/
def execBankTestFenceExpiry (id : Nat) (s : State) : Result :=
  .next (match s.mendOf id with
    | some m => if m.kind = 1 ∧ m.owner ≠ 14 then (s.fenceExpiry m.unit).drainUnless s.drained else s
    | none => s)

/-- The march test of a bank repairs failing rows from its 32 spare rows, and fails where they do not suffice; an aborted
test that found a fault leaves the bank out (R117, R118). -/
def State.bankTestEnd (s : State) (m : Mend) (rows : Nat) : State :=
  let f := F.SX_BANK_STAT_SPARES_USED m.unit
  let used := s.rg f + rows
  let aborted := s.mend.stopped.any (fun e => decide (e.1 = m.id))
  let t := s.setRg f (min 32 used)
  if rows = 0 ∨ (used ≤ 32 ∧ !aborted) then t.mendEnd m 0 true else t.mendEnd m 0x17 false

/-- MEND_ACTIVITY_END (R117, R118, R121, R124): `result` is the number of failing rows of a BANK_TEST; for the other
activities a value other than 0 says that a fault has been found. CORE_OFFLINE and PORT_OUT end by MEND_STOP only. -/
def execMendActivityEnd (id result : Nat) (s : State) : Result :=
  .next (match s.mendOf id with
    | none => s
    | some m =>
      if m.owner = 14 then (if m.kind = 1 then (s.fenceDone m.unit).drainUnless s.drained else s).mendReport m 0x17
      else if m.kind = 1 then s.bankTestEnd m result
      else if m.kind = 5 ∨ m.kind = 8 then
        if s.mend.stopped.any (fun e => decide (e.1 = id)) then s.mendEnd m 0 true else s
      else if m.kind = 6 ∨ result = 0 then s.mendEnd m 0 true
      else s.mendEnd m 0x17 false)

/-- FAULT_BANK_FENCE (R125, R188): an uncorrectable error in a cell of a bank. -/
def execFaultBankFence (bank cell : Nat) (s : State) : Result :=
  .next (if s.socUp ∧ bank < 16 ∧ !s.bankOut bank then (s.bankFence bank (cell % 16384)).drainUnless s.drained else s)

/-- CIPHER_MISMATCH (R382): the retry matches, or it does not and the pair is retired. -/
def execCipherMismatch (pair ctx : Nat) (again : Bool) (s : State) : Result :=
  .next (s.only (decide (pair < 8 ∧ ctx < 4096)) (if !s.pairs.contains pair then s
    else
      let p := pair
      let t := s.setRg F.CE_EV_LAST_CTX ctx
      if again then (t.bump (F.CE_PAIR_STAT_MISMATCHES p) 2).retirePair p
      else
        let u := ((t.bump F.CE_MISMATCH_RETRY_OK_COUNT).bump (F.CE_PAIR_STAT_MISMATCHES p)).setRg F.CE_EV_LAST_PAIR p
        (u.raise 199).fault 0x11 p ctx))

/-- PATROL_SCRUB (R187, R225, R317, R464): what the scrubber finds in a memory: 0 the on-die cells, bank × 16,384 +
cell; 1 the bridge table; 2 the Hamper's page table; 3 message RAM, controller × 65,536 + word; 4 DRAM, an address;
5 a core's caches, core + 8 × line: an instruction of the core consumes it, with an access fault (R452); else a table of
R56. Kind 0 no error, 1 corrected, 2 uncorrectable. -/
def execPatrolScrub (table entry kind : Nat) (s : State) : Result :=
  .next (if !s.socUp ∨ kind = 0 then s
    else
      let ue := decide (kind ≠ 1)
      match table with
      | 0 =>
        let b := entry / 16384 % 16
        if !ue then (s.bump (F.SX_BANK_CE_COUNT b)).fault 0x03 b (entry % 16384)
        else if s.bankOut b then s
        else (s.bankFence b (entry % 16384)).drainUnless s.drained
      | 1 => s.scrubFdb entry ue
      | 2 => (s.scrubPage entry ue).drainUnless s.drained
      | 3 => s.scrubMsgRam (entry / 65536 % 16) (entry % 65536) ue
      | 4 => if ue then s.dramUe entry else (s.bump F.MX_DRAM_CE_COUNT).fault 0x0E 0 entry
      | 5 => if ue then (s.fault 0x10 (entry % 8) (entry / 8)).emit (.accessFault (entry % 8) (entry / 8)) else s
      | _ => s.scrubTable table entry ue)

end Sys2Proof.Machine
end

