-- ==== Sys2Proof/Machine/AonView.lean ====
section
/-!
DEFINITION. Registers as they are read: which registers are counters or status (R32, R34), the power die's values as it
computes them, and the mirror of them in CLK_SVC that the power die refreshes every 100 µs (R32, R34).
-/

namespace Sys2Proof.Machine

/-- Index of an address in an array of n registers at a stride. -/
def idx (off base stride n : Nat) : Option Nat :=
  if base ≤ off ∧ (off - base) % stride = 0 ∧ (off - base) / stride < n then some ((off - base) / stride) else none

/-- The first candidate that applies. -/
def firstSome {α : Type} : List (Option α) → Option α
  | [] => none
  | some x :: _ => some x
  | none :: l => firstSome l

/-- A counter or a status register (R32, R34): not configured, with a field that hardware sets or counts. -/
def RegRow.isStatus (r : RegRow) : Bool :=
  r.cd.isNone && (r.fields.any (fun f => f.acc == .ro || f.acc == .rc || f.acc == .rw1c) || r.lat != .none)

/-- The real-time clock's registers, which answer for the instant of the read (R423). -/
def isRtc (off : Nat) : Bool := decide (off = R.PW_RTC_SEC_LO ∨ off = R.PW_RTC_SEC_HI ∨ off = R.PW_RTC_SUB)

/-- A counter or status register of the power die, read through its mirror (R32). -/
def mirrored (off : Nat) : Bool :=
  match regRow off with
  | some r => r.clk == .aon && r.isStatus && !isRtc off
  | none => false

namespace State

/-- Seconds left of the mask of source instance i, rounded up (R415, R423). -/
def maskLeft (s : State) (i : Nat) : Nat :=
  (999999999 + (Sparse.get (fun _ => 0) s.aon.maskEnd i - s.now)) / 1000000000

/-- LINK_AGE: units of 10 ms since the last link refresh, saturating (R445). -/
def linkAge (s : State) : Nat := min 255 ((s.now - s.aon.linkAt) / 10000000)

/-- PW_FALSE_i with its MASK_LEFT. -/
def falseWord (s : State) (i : Nat) : Word :=
  (F.PW_FALSE_MASK_LEFT i).put (s.rd (R.PW_FALSE i)) (if s.rg (F.PW_FALSE_MASKED i) = 1 then min 65535 (s.maskLeft i) else 0)

/-- The power die's own value of a register of its block. -/
def aonWord (s : State) (off : Nat) : Word :=
  match idx off (R.PW_FALSE 0) 4 25 with
  | some i => s.falseWord i
  | none =>
    if off = R.PW_LS_STAT then F.PW_LS_STAT_LINK_AGE.put (s.rd off) s.linkAge
    else if off = R.PW_RTC_SEC_LO then Word.ofNat s.pw.rtcSec
    else if off = R.PW_RTC_SEC_HI then F.PW_RTC_SEC_HI_SEC.put (s.rd off) (s.pw.rtcSec / 2 ^ 32)
    else if off = R.PW_RTC_SUB then F.PW_RTC_SUB_SUB.put (s.rd off) s.pw.rtcSub
    else s.rd off

/-- The power die's counters and status at one instant, the real-time clock's among them: a snapshot holds those of
the latest mirror (R34, R35), while a live read of the clock answers for its own instant (R423). -/
def aonNow (s : State) : RegFile :=
  let offs := [R.PW_LS_STAT, R.PW_RTC_SEC_LO, R.PW_RTC_SEC_HI, R.PW_RTC_SUB] ++ (List.range 25).map R.PW_FALSE
  offs.foldl (fun rf o => Sparse.set resetWord rf o (s.aonWord o)) (s.regs.filter (fun e => mirrored e.1))

/-- The power die refreshes its mirror (R34). -/
def refreshMirror (s : State) : State := { s with mirror := s.aonNow }

end State

end Sys2Proof.Machine
end

