-- ==== Sys2Proof/Machine/LedgerOps.lean ====
section
/-!
DEFINITION. The ledger in flash (18_observability_faults.md, R512 to R516): its records, their tags, the write of SV's
buffer, the scan at a start and the verification.
-/

namespace Sys2Proof.Machine

/-- Flash offset of the record with a SEQ (R512). -/
def ledgerAt (seq : Nat) : Nat := nvLedger + 64 * (seq % 16384)

/-- Bytes 0 to 47 of a record (R512). -/
def ledgerBytes (r : LedgerRec) (unauth : Bool) (seq boot : Nat) : List Byte :=
  leBytes 2 0x4C47 ++ [Byte.ofNat r.type, if unauth then 1 else 0] ++ leBytes 4 seq ++ leBytes 4 boot ++
    leBytes 6 r.rtcSec ++ leBytes 2 r.rtcSub ++ leBytes 8 r.ti0 ++ slice0 r.payload 0 20

/-- A record is all 0xFF. -/
def recBlank (b : List Byte) : Bool := b.all (fun x => x == 0xFF)

/-- A record carries a valid MAGIC. -/
def recOk (b : List Byte) : Bool := decide (ofLe (b.take 2) = 0x4C47)

/-- SEQ of a record. -/
def recSeq (b : List Byte) : Nat := ofLe (slice0 b 4 4)

namespace State

/-- The 64 bytes of the record with a SEQ. -/
def recAt (s : State) (seq : Nat) : List Byte := s.nvRead (ledgerAt seq) 64

/-- TAG of a record under the key of node 5, over its bytes 0 to 47 and the TAG before it (R513). -/
def ledgerTag (s : State) (bytes prev : List Byte) : List Byte :=
  beBytes 16 (Config.cmac (s.keyAt (nodeCell 5)) (bytes ++ prev))

/-- SV_LEDGER_STAT and SV_LEDGER_OLDEST follow the ledger (R519). -/
def showLedger (s : State) : State :=
  let l := s.ob.ledger
  (s.wr R.SV_LEDGER_STAT (Word.ofNat l.nextSeq)).wr R.SV_LEDGER_OLDEST (Word.ofNat (l.nextSeq + 2 ^ 32 - l.count))

/-- The sector of the next record is erased where it is not blank: its records are lost (R512). -/
def ledgerRoom (s : State) : State :=
  let n := s.ob.ledger.nextSeq
  if n % 64 ≠ 0 ∨ (List.range 64).all (fun k => recBlank (s.recAt (n + k))) then s
  else
    ({ s.nvErase (ledgerAt n) 4096 with ob.ledger.count := s.ob.ledger.count - 64 }).raise 25

/-- One record is written (R512, R513). -/
def ledgerWrite (s0 : State) (r : LedgerRec) : State :=
  let s := s0.ledgerRoom
  let l := s.ob.ledger
  let (t, auth) := s.kxUse 5 9
  let body := ledgerBytes r (!auth) l.nextSeq l.boots
  let tag := if auth then t.ledgerTag body l.prevTag else List.replicate 16 0
  let u := if auth ∨ l.unauthSeen then t else ({ t with ob.ledger.unauthSeen := true }).raise 28
  let v := u.nvProgram (ledgerAt l.nextSeq) (body ++ tag)
  ({ v with
    ob.ledger.nextSeq := (l.nextSeq + 1) % 2 ^ 32
    ob.ledger.count := v.ob.ledger.count + 1
    ob.ledger.prevTag := tag }).showLedger

/-- SV writes its buffer, once the scan has found its place (R515); records lost before are then named in one LOST
record. -/
def ledgerFlush (s : State) : State :=
  if !s.ob.ledger.scanned then s
  else
    let t := s.forEach s.ob.ledger.buf ledgerWrite
    let n := t.ob.ledger.lostPending
    let u := { t with ob.ledger.buf := [], ob.ledger.lostPending := 0 }
    if n = 0 then u else u.ledgerAdd 0x0B (leBytes 4 n)

/-- SEQ a comes after SEQ b, modulo 2^32. -/
def seqAfter (a b : Nat) : Bool := decide ((a + 2 ^ 32 - b) % 2 ^ 32 < 2 ^ 31)

/-- The highest SEQ of a valid record in flash (R515). -/
def newestSeq (s : State) : Option Nat :=
  (List.range 16384).foldl (fun best k =>
    let b := s.recAt k
    if recOk b ∧ recSeq b % 16384 = k then
      match best with
      | none => some (recSeq b)
      | some m => if seqAfter (recSeq b) m then some (recSeq b) else best
    else best) none

/-- The SEQ after the torn writes that follow one: a torn write uses its SEQ (R515). -/
def skipTorn (s : State) : Nat → Nat → Nat
  | seq, 0 => seq
  | seq, n + 1 =>
    let b := s.recAt seq
    if recBlank b ∨ recOk b then seq else s.skipTorn ((seq + 1) % 2 ^ 32) n

/-- The scan of the ledger (R515): where it goes on, and the number of BOOT records before this start. -/
def ledgerScan (s : State) : State :=
  let found := match s.newestSeq with
    | none => (s.skipTorn 0 64, 0)
    | some m =>
      let boot := ofLe (slice0 (s.recAt m) 8 4)
      let booted := (List.range 16384).any (fun k =>
        let b := s.recAt k
        recOk b && b.getD 2 0 == 0x01 && decide (ofLe (slice0 b 8 4) = boot))
      (s.skipTorn ((m + 1) % 2 ^ 32) 64, if booted then boot + 1 else boot)
  let held := ((List.range 16384).filter (fun k => !recBlank (s.recAt k))).length
  ({ s with
    ob.ledger.scanned := true
    ob.ledger.nextSeq := found.1
    ob.ledger.count := held
    ob.ledger.prevTag :=
      if found.1 = 0 ∧ held = 0 then List.replicate 16 0 else slice0 (s.recAt (found.1 + 2 ^ 32 - 1)) 48 16
    ob.ledger.boots := found.2 }).showLedger

/-- What VERIFY finds of one record (R516): 0 it passes, 1 it fails, 2 it is UNAUTH. -/
def ledgerCheck (s : State) (seq : Nat) : Nat :=
  let b := s.recAt seq
  if !recOk b ∨ recSeq b ≠ seq then 1
  else if (b.getD 3 0).getLsbD 0 then 2
  else
    let before := (seq + 2 ^ 32 - 1) % 2 ^ 32
    let b0 := s.recAt before
    let prev := if seq = 0 ∧ !(recOk b0 ∧ recSeq b0 = before) then List.replicate 16 0 else slice0 b0 48 16
    if s.ledgerTag (b.take 48) prev = slice0 b 48 16 then 0 else 1

/-- VERIFY completes (R516): the RESULT, the UNAUTH records met, and the first failure. -/
def ledgerVerify (s : State) (a : Agent) : State :=
  let from_ := s.rg F.SV_LEDGER_FROM_FROM
  let seqs := (List.range (s.rg F.SV_LEDGER_COUNT_COUNT)).map (fun k => (from_ + k) % 2 ^ 32)
  let (t, used) := s.kxUse 5 9
  let bad := if used then seqs.find? (fun q => decide (t.ledgerCheck q = 1)) else some from_
  let un := (seqs.filter (fun q => decide (t.ledgerCheck q = 2))).length
  let u := { t with ob.ledger.verify := none }.wr R.SV_LEDGER_RES
    (Word.ofNat ((if bad.isNone then 1 else 2) * 2 + min un 65535 * 65536))
  (match bad with
    | some q => u.wr R.SV_LEDGER_BAD (Word.ofNat q)
    | none => u).raise 27 (some a)

end State

end Sys2Proof.Machine
end

