-- ==== Sys2Proof/Machine/Loader.lean ====
section
/-!
DEFINITION. The meanings of the loader and of the flash (02_configuration_store.md): the load, the boot Stitch, bank
writes, the customer area, and the completion of SV's flash operations.
-/

namespace Sys2Proof.Machine

namespace State

/-! ### The boot Stitch (R61, R62) -/

/-- A time instance at the boot Stitch (R263): seeded by the RTC where RTC_SEED is 1. -/
def tiBoot (s o : State) (i : Nat) : State :=
  let t := if s.act (F.TE_TI_CFG_RTC_SEED i) = 1 then s.setTi i ⟨s.pw.rtcSec % 2 ^ 48, 0, 0⟩ else s
  t.tiCommit o i |>.setRg (F.TE_TI_STAT_SET i) 0

/-- A sleep domain at the boot Stitch (R404). -/
def sdBoot (s : State) (d : Nat) : State :=
  let x := s.sdOf d
  if !s.validSds.contains d then s.setSd d { emptySd with seq := x.seq }
  else if x.state = 4 ∧ !x.woken then s
  else if x.woken then
    s.setSd d { x with woken := false, state := if s.fold (F.SV_SD_W0_MEMBER d) = 1 then 1 else 2 }
  else s.setSd d { x with
    state := 2, timerFrom := s.now, awakeFrom := if x.state = 0 then s.now else x.awakeFrom }

/-- The settings of CD12 at the boot Stitch. -/
def foldBoot (s : State) : State :=
  let t := { s with aon.cfg12 := s.activeOf 12 }
  ({ t with aon.kept := t.keptAfter s }.forEach (List.range 16) sdBoot).foldsJudge

/-- The events that the power die has kept, and the wake records that SV has still to log (R413, R414, R447). -/
def keptEvents (s : State) : State :=
  let t := { s with aon.events := [], aon.newRecs := [] }.raiseAll s.aon.events
  t.forEach s.aon.newRecs (fun t k =>
    let w := fun off => (t.rd off).toNat
    t.ledgerAdd 0x03 (leBytes 4 (w (R.PW_WAKEREC_W0 k)) ++
      leBytes 6 (w (R.PW_WAKEREC_W1 k) + 2 ^ 32 * w (R.PW_WAKEREC_W2 k))))

/-- An anomaly of the load (R60). -/
def loadAnomaly (s : State) : Bool :=
  decide (s.rg F.SV_CFG_UNKNOWN_COUNT ≠ 0) || decide (s.rg F.SV_CFG_SKIPPED_COUNT ≠ 0) ||
    decide (s.rg F.SV_CFG_IGNORED_COUNT ≠ 0) || decide (s.rg F.SV_CFG_STATUS_END_CAUSE ≠ 1) ||
    decide (s.rg F.SV_CFG_STATUS_AFTER_TRAILER = 1)

/-- The ledger record of a boot Stitch (R514). -/
def bootRecord (s : State) : State :=
  s.ledgerAdd 0x01 (leBytes 4 (s.rd R.SV_RESET_CAUSE).toNat ++ leBytes 4 (s.rd R.SV_UPD_VERSION).toNat ++
    leBytes 4 (s.rd R.SV_CFG_SEQ).toNat ++ leBytes 4 (s.rd R.SV_CFG_STATUS).toNat ++ leBytes 2 (s.rd R.KX_STAT).toNat)

/-- The commit of all eighteen domains. -/
def bootCommit (o : State) : State :=
  let all := 2 ^ 18 - 1
  let s := { o.swapCopies all with swapped := all }.setRg F.SV_TX_EPOCH_EPOCH ((o.epoch + 1) % 2 ^ 32)
  let s1 := (s.setRg F.SV_CFG_STATUS_DONE 1).setRg F.SV_TX_PERSIST_SECTORS imageSectors
  let s2 := { s1 with sv.booting := false, sx.hamBoot := sizePages (s.act F.MX_HAMPER_CFG_SIZE) }
  let s3 := s2.forEach [0, 1, 3, 4, 5, 7, 8, 9, 10, 11, 14, 17] (fun t d => t.domainCommit o d)
  let s4 := { s3 with ob.csu := Sparse.set (fun u => ⟨decide (u ≠ 0), []⟩) s3.ob.csu 0 ⟨false, []⟩ }
  let s5 := (s4.forEach (List.range 4) (fun t i => t.tiBoot o i)).forEach [0, 1] tsoBoot
  ((s5.foldBoot.lsBoot).portsJudge.hamJudge).raise 9

/-- The boot Stitch and what follows it: its STITCH record (R514) with the owner code of the loader, then its events and
its BOOT record. -/
def bootStitch (s : State) : State :=
  let t := (s.bootCommit.raise 0).stitchRecord (2 ^ 18 - 1) 0xF false false
  let u := if t.loadAnomaly then t.raise 1 else t
  let v := (u.keptEvents.bootRecord).copyRecord
  { v with pw.foldDue := true }.noteFb.modeAuto

/-! ### Flash tasks -/

/-- MARKED follows the journal (R491). -/
def showMarked (s : State) : State := s.setRg F.SV_UPD_STAT_MARKED (if s.copyMarked then 1 else 0)

/-- The migration record, its result and its event (R486); `bank` is the bank written, or else the one loaded (R514). -/
def migrated (s : State) (bank result : Nat) : State :=
  let t := (s.journalAppend 0xFFFD).setRg F.SV_UPD_LAST_MIG_RESULT result
  (t.raise 23).ledgerAdd 0x0A ([Byte.ofNat result, Byte.ofNat bank] ++ leBytes 4 s.selSeq)

/-- A command of a Bersan session that has no other reply ends (R103). -/
def bersanEnds (s : State) (a : Agent) (code : Nat) : State :=
  match a with
  | .bersan n => s.emit (.bersanReply n.val (txWord code 0 0 0))
  | _ => s

/-- A flash write of SV ends. A persisting write that succeeds shows PERSIST.STATE 0 though an earlier one failed (R115):
DESIGN CHOICE (log 103). -/
def taskEnd (s : State) (k : FlashKind) (ok : Bool) : State :=
  match k with
  | .persist a _ _ => (s.setRg F.SV_TX_PERSIST_STATE (if ok then 0 else 3)).raise (if ok then 12 else 13) (some a)
  | .bersan a _ _ => s.bersanEnds a (if ok then 0 else 0x17)
  | .migration bank _ => s.migrated bank (if ok then 1 else 4)
  | .enroll a => s.kxResult a 0 (if ok then 0 else 0x0D)
  | .header a =>
    if ok then ((s.setRg F.SV_UPD_STAT_SESSION 2).setRg F.SV_UPD_STAT_BLOCKS (cBlocks s.upd.first)).updEnd a 0 0
    else s.updEnd a 0 0x0D
  | .block a b =>
    if s.upd.job ≠ some (a, 3, b) then s
    else if ok then (s.showGot (setBit s.upd.got b)).updEnd a b 0 else s.updEnd a b 0x0D
  | .activate a => if ok then ((s.updEnd a 0 0).updLedger s.upd.first 19 0).endUpdate else s.updEnd a 0 0x0D

/-- A 4 KiB unit of the area has ended: another write may have its turn (R68). -/
def unitEnds (a : FlashArea) : Bool := decide (a.pos % 4096 = 0) && !a.erased

/-- The flash reports the operation that SV's running write has issued. Writes interleave in units of 4 KiB (R68). -/
def flashStep (s : State) (ok : Bool) : State :=
  match s.sv.tasks with
  | [] => s
  | t :: rest =>
    match t.areas with
    | [] => { s with sv.tasks := rest }.taskEnd t.kind true
    | a :: as =>
      let (s1, a1) := s.areaStep a ok
      if !ok then ({ s1 with sv.tasks := rest }.taskEnd t.kind false).showMarked
      else
        match trimAreas (a1 :: as) with
        | [] => ({ s1 with sv.tasks := rest }.taskEnd t.kind true).showMarked
        | l =>
          let t1 := { t with areas := l }
          let s2 := { s1 with sv.tasks := if unitEnds a1 then rest ++ [t1] else t1 :: rest }.showMarked
          match t.kind with
          | .persist .. => if l.length = 1 then s2.setRg F.SV_TX_PERSIST_STATE 2 else s2
          | _ => s2

end State

/-- EPOCH_ADOPTION (R22, R109). -/
def execEpochAdoption (port : Nat) (s : State) : Result :=
  .next (State.drainDone (if s.socUp ∧ port < 41 then
      { s with epochs := Sparse.set (fun _ => 0) s.epochs port (s.epoch % 256) }
    else s))

/-- LOADER_START (R50, R51, R62, R65). -/
def execLoaderStart (s : State) : Result :=
  .next (if s.socUp ∧ s.pw.start.firmware ∧ s.sv.booting ∧ !s.sv.loading ∧ s.rg F.SV_CFG_STATUS_END_CAUSE = 0 then
      let t := ((s.setRg F.SV_CFG_CODE_CODE s.selCode).setRg F.SV_CFG_SEQ_SEQ s.selSeq).setRg F.SV_CFG_STATUS_BANK s.selBank
      let ok := decide (s.selCode = 0xA5A50001 ∨ s.selCode = 0xA5A50002)
      let u := t.setRg F.SV_CFG_STATUS_SEL_VALID (if ok then 1 else 0)
      { u with sv.loading := true, sv.loadPos := 0, sv.covered := [], sv.covDone := false }
    else s)

/-- LOAD_RECORD (R52 to R59). -/
def execLoadRecord (s : State) : Result := .next (if s.sv.loading then s.loadStep else s)

/-- BOOT_STITCH (R60 to R62). -/
def execBootStitch (s : State) : Result :=
  .next (if s.socUp ∧ s.sv.booting ∧ !s.sv.loading ∧ s.rg F.SV_CFG_STATUS_END_CAUSE ≠ 0 then s.bootStitch else s)

/-- BERSAN_BANK_WRITE (R67, R68): refused with BUSY while SV's bank writer runs, is reserved or is held. -/
def execBersanBankWrite (n : Nat) (image : List Byte) (s : State) : Result :=
  let a := Agent.bersan (Fin.ofNat 4 n)
  .next (s.byAgent a (fun t =>
    if t.writerBusy then t.bersanEnds a 0xA
    else t.addBankWrite (.bersan a (1 - t.selBank) t.nextSeq) (1 - t.selBank) t.nextSeq (image.take 0x800000)))

/-- NVM_OPERATION (R47, R48, R516): a read (0) of as many bytes as given, an erase (1) of a sector or a program (2) in the
customer area, or a read (3) of the ledger (log 23). -/
def execNvmOperation (a : Agent) (op sector off : Nat) (bytes : List Byte) (s : State) : Result :=
  .next (s.byAgent a (fun t =>
    let may : Bool := match a with | .core _ => true | .bersan _ => true | _ => false
    let base := nvCustomer + 4096 * sector
    let record := nvLedger + 4096 * sector + off
    if may ∧ op = 3 then
      if record + bytes.length ≤ nvCustomer then { t with sv.nvmReply := t.nvRead record bytes.length } else t
    else if !may ∨ base + off + bytes.length > t.nvSize ∨ base + 4096 > t.nvSize then t
    else if op = 0 then { t with sv.nvmReply := t.nvRead (base + off) bytes.length }
    else if op = 1 then t.nvErase base 4096
    else if op = 2 then t.nvProgram (base + off) bytes
    else t))

/-- FLASH_OP_COMPLETE (R88, R112): the running write goes on, ends, or fails. -/
def execFlashOpComplete (ok : Bool) (s : State) : Result := .next (if s.socUp then s.flashStep ok else s)

end Sys2Proof.Machine
end

