-- ==== Sys2Proof/Machine/ModeOps.lean ====
section
/-!
DEFINITION. Start-up, reset and the operating modes as operations (03_startup_modes.md, R72 to R97; 19_pins_electrical.md,
R534 to R536): what a reset loses, the ROM's steps, RESCUE, and what each stage of a transition does.
-/

namespace Sys2Proof.Machine

namespace State

/-! ### Resets -/

/-- The magic word of a helper area whose write was cut short (R349, R350): any word but the valid one. -/
def tornWord (v : Nat) : Nat := if v % 2 ^ 32 = helperMagic then helperMagic + 1 else v % 2 ^ 32

/-- A loss of power or a reset during ENROLL leaves the helper area with a bad magic word (R350; log 75). -/
def tornHelper (s : State) : State :=
  if s.enrolling then s.useFree.nvPutAll nvHelper (leBytes 4 (tornWord s.freeVal)) else s

/-- The machine's registers that the power die keeps over a reset of the SoC die (R93): its own block, and the tamper
latches. -/
def keptRegs (s : State) : RegFile :=
  rfSet (s.regs.filter (fun e => decide (e.1 / 0x1000000 = 0xA))) F.KX_TAMPER_STAT_LATCH
    (s.rg F.KX_TAMPER_STAT_LATCH)

/-- What a reset that reaches the SoC die leaves (R93): the power die, OTP, the flash and the always-on memory. -/
def socReset (s0 : State) (cause : Nat) : State :=
  let s := s0.tornHelper.copyCut
  let z := State.reset
  { z with
    pending := s.pending, now := s.now, freeN := s.freeN, out := s.out, resp := s.resp
    regs := s.keptRegs
    nv := s.nv
    aon := s.aon
    kx := { z.kx with
      tamperCopy := s.kx.tamperCopy, alarms := s.kx.alarms, listenLatch := s.kx.listenLatch, lockNext := s.kx.lockNext }
    upd := { z.upd with copy := { s.upd.copy with result := 0, retries := 0 } }
    pw := { s.pw with
      rescue := false, rescueReq := false, moving := .none, requester := none, byFold := false, runWanted := false, foldDue := false, cause := cause
      start := { startFresh with origin := s.now }, dramSr := false, cxReset := true } }

/-- A brown-out resets both dies; OTP and the flash keep their contents (R534, R537). -/
def brownOut (s0 : State) : State :=
  let s := s0.tornHelper.copyCut
  let z := State.reset
  { z with
    pending := s.pending, now := s.now, freeN := s.freeN, out := s.out, resp := s.resp
    nv := s.nv
    kx := { z.kx with alarms := s.kx.alarms }
    pw := { z.pw with resetN := s.pw.resetN, rootPort := s.pw.rootPort } }

/-! ### The ROM -/

/-- Level of tamper source i in the power die's copy (R368, R369). -/
def copyLevel (s : State) (i : Nat) : Nat := tamperLevel s.kx.tamperCopy i

/-- A source at WIPE or WIPE_LOCK is in alarm (R95, R369). -/
def startAlarm (s : State) : Bool := (List.range 6).any (fun i => s.kx.alarms.testBit i && decide (2 ≤ s.copyLevel i))

/-- The boot header is read (R49, R79): where it matches, Write Enable and the write that selects 8D-8D-8D mode go out,
the bytes of OPI_ADDR in the header's order. From then on every access is an 8D-8D-8D read, which OCTAL shows (R69; the
instant at which it becomes 1 is the model's choice, log 93). -/
def setFlashMode (s : State) : State :=
  if s.bootHeaderOk then
    ((s.setRg F.SV_CFG_STATUS_OCTAL 1).emit (.flash [0x06])).emit (.flash (s.nvByte 8 :: (s.nvRead 9 3 ++ [s.nvByte 0xC])))
  else s

/-- The ROM enters RESCUE (R95, R96): from the self-tests on it has read the boot header (R49), an alarm before them leaves
it to be read here. -/
def enterRescue (s0 : State) : State :=
  let s := if s0.pw.start.tested then s0 else s0.setFlashMode
  (({ s with pw.rescue := true }.setRg F.SV_MODE_MODE 6).setRg F.SV_MODE_RAMPING 0).raise 2

/-- The ROM starts (R79, R82, R93): the reset cause and the milestone that the power die kept, the life-cycle state, the
tamper status. SV_START_FULL reads 0 until this start enters a RUN mode (log 28). -/
def romStart (s : State) : State :=
  let s1 := { s with pw.start.rom := true, kx.perm := s.freeVal }.useFree
  let s2 := (s1.wr R.SV_RESET_CAUSE (Word.ofNat (2 ^ s1.pw.cause))).wr R.SV_START_FB (Word.ofNat s1.pw.startFb)
  let lc := lcOf s2.nv.fuses
  let s3 := ((s2.setRg F.KX_STAT_LC lc).setRg F.KX_STAT_LC_NEXT lc).setRg F.KX_STAT_TOGGLES_LEFT (togglesLeft s2.nv.fuses)
  let lock := if s3.kx.lockNext then 1 else 0
  let s4 := (s3.setRg F.KX_STAT_LOCKED lock).setRg F.SV_MODE_TREE_LOCKED lock
  let s5 := (s4.setRg F.KX_TAMPER_STAT_FROM_LISTEN s4.kx.listenLatch).setRg F.KX_TAMPER_STAT_ACTIVE
    (((List.range 6).filter (fun i => s4.kx.alarms.testBit i && decide (s4.copyLevel i ≠ 0))).foldl setBit 0)
  let s6 := s5.transportNodes.refreshMirror
  if s6.startAlarm then s6.enterRescue else s6

/-- Place of a reset cause in the order of R93: POR, PIN, LOCKSTEP, WDOG, SOFT, RESCUE_REQ, LISTEN_EXIT. -/
def causeRank (c : Nat) : Nat := (([0, 1, 3, 2, 4, 5, 6] : List Nat).idxOf c)

/-- Of two causes that coincide the first in that order wins. -/
def firstCause (a b : Nat) : Nat := if causeRank a ≤ causeRank b then a else b

/-- The SoC die leaves power-on reset, or a reset that reached it, unless RESET_N holds it (R79, R92, R529): the pin is
then a cause too (R93). -/
def releaseSoc (s : State) : State :=
  if s.pw.resetN then { s with pw.held := true, pw.cause := firstCause s.pw.cause 1 }
  else { s with pw.held := false }.romStart

/-- The cause of a reset: one that coincides with the reset from which the start now begins is resolved against it
(R93). -/
def resetCause (s : State) (cause : Nat) : Nat :=
  if s.pw.start.origin = s.now ∧ !s.pw.start.tested then firstCause s.pw.cause cause else cause

/-- A reset of the running SoC die and its start from the ROM row (R92). -/
def resetSoc (s : State) (cause : Nat) : State :=
  if s.pw.power = .up then (s.socReset (s.resetCause cause)).releaseSoc else s

/-- The self-tests have passed: the boot header, a request for RESCUE, or the copy journal (R79, R95, R482). -/
def romTested (s : State) (pufOk : Bool) : State :=
  let t := { s with pw.start.tested := true }.setFlashMode
  if t.pw.cause = 5 ∨ t.pw.rescueReq then t.enterRescue
  else if t.copyMarked then
    match t.copyStart pufOk with
    | (u, true) => u.enterRescue
    | (u, false) => u
  else t

/-! ### The end of a start or of a transition -/

/-- Microseconds since the start origin (R93). -/
def sinceOrigin (s : State) : Nat := (s.now - s.pw.start.origin) / 1000

/-- SV_START_FULL at the entry into a RUN mode (R93). -/
def noteFull (s : State) : State :=
  if s.pw.start.full then s
  else
    let us := min s.sinceOrigin (2 ^ 32 - 1)
    { s with pw.startFull := us, pw.start.full := true }.wr R.SV_START_FULL (Word.ofNat us)

/-- The gateway enters RUN_MODE of the current epoch (R79, R86, R91). -/
def enterRun (s : State) : State :=
  let t := (({ s with pw.runWanted := false }.setRg F.SV_MODE_MODE s.runCode).setRg F.SV_MODE_RAMPING 0).noteFull
  if t.pw.cxReset then t.clusterRelease else t

/-- A mode transition ends (R78, R97): the requester's outcome, EV_SV_MODE_CHANGED, and what Fold waits for (R85). -/
def moveEnds (s : State) : State :=
  let s1 := ({ s with pw.moving := .none, pw.requester := none, pw.byFold := false }.setRg F.SV_MODE_MOVING 0).raise 2
  let s2 := match s.pw.requester with
    | some a => (s1.setRg F.SV_MODE_LAST_RESULT 1).raise 3 (some a)
    | none => s1
  ((s2.portsJudge.hamJudge).tryRun).modeAuto

/-! ### Requests (R78) -/

/-- An outcome other than done. -/
def modeRefuse (s : State) (a : Agent) (code : Nat) : State := (s.setRg F.SV_MODE_LAST_RESULT code).raise 4 (some a)

/-- BUSY (R78, R91). -/
def modeBusy (s : State) : Bool := decide (s.pw.moving ≠ .none) || decide (s.rg F.SV_MODE_RAMPING = 1)

/-- A request: BUSY, SAME, NO_PATH, or `go`. -/
def modeReq (s : State) (a : Agent) (same path : State → Bool) (go : State → State) : State :=
  s.byAgent a (fun t =>
    if t.modeBusy then t.modeRefuse a 2
    else if same t then t.modeRefuse a 3
    else if !path t then t.modeRefuse a 6
    else go t)

/-- The mode is PARTIAL or a RUN mode. -/
def partialOrRun (s : State) : Bool := decide (2 ≤ s.mode ∧ s.mode ≤ 5)

/-- FACTORY (R72, R85): everything runs. -/
def enterFactory (s : State) (a : Agent) : State :=
  let t := { s.setRg F.SV_MODE_MODE 7 with pw.dramSr := false, pw.runWanted := false }
  let u := if t.pw.cxReset then t.clusterRelease else t
  { u with pw.requester := some a }.moveEnds

/-! ### The stages of a transition -/

/-- A stage of PARTIAL-to-RUN (R86): DRAM leaves self-refresh; retraining; the SerDes islands; calibration. -/
def toRunStep (s : State) (k : Nat) : State :=
  let t := { s with pw.moving := .toRun (k + 1) }
  match k with
  | 0 => t
  | 1 => ({ t with pw.dramSr := false }.copyImage).hamJudge
  | 2 => t
  | _ => { t with pw.start.calibrated := true }.portsJudge

/-- The cluster goes into reset (R87): its cores stop, and what they were asked lapses. -/
def cxIntoReset (s : State) : State :=
  let t := ((s.setRg F.CX_CORE_STAT_RUN 0).setRg F.CX_CORE_STAT_OFF_REQ 0).setRg F.CX_DVFS_BUSY 0
  { t with pw.cxReset := true, cx.copying := false, cx.dvfs := none }

/-- A stage of RUN-to-PARTIAL (R87): the SerDes and host ports go down; every Hamper page is released; CX goes into
reset and DRAM into self-refresh; the mode is PARTIAL. -/
def toPartialStep (s : State) (k : Nat) : State :=
  let t := { s with pw.moving := .toPartial (k + 1) }
  match k with
  | 0 => { t with pw.start.calibrated := false }.forEach (List.range 24 ++ [36, 37]) portDown
  | 1 => t.releaseAllPages
  | 2 => { t.cxIntoReset with pw.dramSr := true }.hamJudge
  | _ => (t.setRg F.SV_MODE_MODE 2).moveEnds

/-- A flash write that LISTEN entry waits for runs (R88): a bank write, or the journal write of an ACTIVATE. -/
def entryWaits (s : State) : Bool :=
  s.sv.tasks.any (fun t => match t.kind with
    | .persist .. => true
    | .bersan .. => true
    | .migration .. => true
    | .activate _ => true
    | _ => false)

/-- The ledger record of a LISTEN entry (R88, R514): the member domains ASLEEP and the latched wakes. -/
def listenRecord (s : State) : State :=
  let asleep := sdMask (s.members.filter (fun d => decide ((s.sdOf d).state = 4)))
  let latched := sdMask (s.validSds.filter (fun d => (s.sdOf d).latched))
  s.ledgerAdd 0x04 (leBytes 2 asleep ++ leBytes 2 latched)

/-- LISTEN entry proceeds to the handover (R88 steps 1 to 4), and the rails fall. -/
def listenEntry (s : State) : State :=
  let s1 := s.forEach s.openTxns freeHandle
  let s2 := (s1.forEach (List.range 4) closeSession).closeUpdate 3
  let s3 := s2.listenRecord.ledgerFlush
  { s3 with
    pw.moving := .toListen false, pw.power := .falling, pw.rail := 5, pw.fallAt := s.now, pw.fallRetry := false
    aon.linkWatched := false }

/-- A wake that LISTEN entry has latched takes effect: a domain ASLEEP wakes, one that was awake all along starts its hold
(R410, R412), and an ENFORCED one keeps it until it is ASLEEP (R418). -/
def sdRelease (s : State) (d : Nat) : State :=
  if (s.sdOf d).enforced then s
  else if (s.sdOf d).state = 4 then s.sdWake d
  else (s.setSd d { s.sdOf d with latched := false }).sdHold d

/-- The rails are off (R82, R88): LISTEN, or at once the exit for a latched wake. -/
def railsOff (s : State) : State :=
  let t := { s.socReset 6 with pw.power := .listen, pw.rail := 0 }
  let ds := t.validSds.filter (fun d => (t.sdOf d).latched)
  if s.pw.wakeLatched ∨ !ds.isEmpty then (t.forEach ds sdRelease).startRails true 6 else t

/-! ### Rail faults (R536) -/

/-- The next rail of the reverse order is switched off (R535). -/
def dropRail (s : State) : State := { s with pw.rail := s.pw.rail - 1, pw.fallAt := s.now }

/-- The rails fall after a fault, those up to `rail` still being on; the power-die link lapses (R536, R443). -/
def faultFall (s : State) (rail : Nat) : State :=
  { s with
    pw.power := .falling, pw.rail := rail, pw.fallAt := s.now, pw.fallRetry := true
    aon.linkAt := if s.aon.linkWatched then s.aon.linkAt else s.now, aon.linkWatched := true }

/-- The rails have fallen after a fault (R536): the wait for the next sequence, or at once the sequence for a wake that came
meanwhile, where three have failed. -/
def retryWait (s : State) : State :=
  let t := { s with pw.power := .retry, pw.rail := 0 }
  if s.pw.wakeLatched ∧ 3 ≤ s.pw.retries then t.startRails true 6 else t

/-- A rail fault is recorded. -/
def railFault (s : State) (n kind : Nat) : State :=
  ((s.setRg F.PW_RAIL_STAT_FAIL_RAIL (n + 1)).setRg F.PW_RAIL_STAT_FAIL_KIND kind).tick F.PW_RAIL_STAT_FAULTS

end State

end Sys2Proof.Machine
end

