-- ==== Sys2Proof/Machine/Modes.lean ====
section
/-!
DEFINITION. The meanings of the commands of power, start-up, reset and the operating modes (03_startup_modes.md;
19_pins_electrical.md, R529 to R536).
-/

namespace Sys2Proof.Machine

/-- MODE_REQ_PARTIAL (R78, R87). -/
def execModeReqPartial (a : Agent) (s : State) : Result :=
  .next (s.modeReq a (fun t => decide (t.mode = 2)) State.inRun (fun t => t.startMove (.toPartial 0) (some a)))

/-- MODE_REQ_RUN (R78, R86). -/
def execModeReqRun (a : Agent) (s : State) : Result :=
  .next (s.modeReq a State.inRun (fun t => decide (t.mode = 2))
    (fun t => (t.startMove (.toRun 0) (some a)).setRg F.SV_MODE_RAMPING 1))

/-- MODE_REQ_LISTEN (R78, R88). -/
def execModeReqListen (a : Agent) (s : State) : Result :=
  .next (s.modeReq a (fun _ => false) State.partialOrRun (fun t => t.startMove (.toListen true) (some a)))

/-- MODE_REQ_RESCUE (R78, R92): the SoC die is reset and the ROM enters RESCUE. The reset loses the requester, so that no
outcome of the request is recorded: DESIGN CHOICE (log 101). -/
def execModeReqRescue (a : Agent) (s : State) : Result :=
  .next (s.modeReq a (fun _ => false) (fun t => decide (t.mode ≠ 6)) (fun t => t.resetSoc 5))

/-- MODE_REQ_FACTORY (R78): LIFECYCLE, NOT_AUTH, or FACTORY. -/
def execModeReqFactory (a : Agent) (s : State) : Result :=
  .next (s.modeReq a (fun t => decide (t.mode = 7)) (fun t => decide (t.mode ≠ 6)) (fun t =>
    if t.rg F.KX_STAT_LC ≠ 1 then t.modeRefuse a 4
    else
      let auth := match a with
        | .bersan n => decide (t.sessionNode n.val = some 3)
        | _ => false
      if auth then t.enterFactory a else t.modeRefuse a 5))

/-- PARTIAL_TO_RUN_STEP (R86). -/
def execPartialToRunStep (s : State) : Result :=
  .next (match s.pw.moving with
    | .toRun k => if s.socUp ∧ k < 4 then s.toRunStep k else s
    | _ => s)

/-- RUN_ENTRY (R86, R91). -/
def execRunEntry (s : State) : Result :=
  .next (if s.socUp ∧ s.pw.moving = .toRun 4 then s.enterRun.moveEnds else s)

/-- RUN_TO_PARTIAL_STEP (R87). -/
def execRunToPartialStep (s : State) : Result :=
  .next (match s.pw.moving with
    | .toPartial k => if s.socUp then (s.toPartialStep k).drainUnless s.drained else s
    | _ => s)

/-- LISTEN_ENTRY (R88): once no flash write that it waits for runs. -/
def execListenEntry (s : State) : Result :=
  .next (if s.socUp ∧ s.pw.moving = .toListen true ∧ !s.entryWaits then s.listenEntry else s)

/-- RAILS_OFF (R88, R535, R536): the last rail has fallen. -/
def execRailsOff (s : State) : Result :=
  .next (if s.pw.power ≠ .falling then s else if s.pw.fallRetry then s.retryWait else s.railsOff)

/-- VBAT_AON_POWER_ON (R79, R534): the origin of the cold start. -/
def execVbatAonPowerOn (s : State) : Result :=
  .next (if s.pw.power = .off then
      { s with pw.power := .trims, pw.cause := 0, pw.start.origin := s.now, aon.linkAt := s.now }.setRg F.PW_RTC_SUB_ON_RC 1
    else s)

/-- VBAT_AON_BROWNOUT (R534, R537). -/
def execVbatAonBrownout (s : State) : Result := .next (if s.pw.power = .off then s else s.brownOut)

/-- PW_TRIMS_LOADED (R79): the rail sequence starts. -/
def execPwTrimsLoaded (s : State) : Result :=
  .next (if s.pw.power = .trims then
      { s.startRails false 0 with pw.start := { startFresh with origin := s.pw.start.origin } }
    else s)

/-- RTC_CRYSTAL_STABLE (R79, R420): the RTC leaves the RC for the crystal; the time it counts is the same. -/
def execRtcCrystalStable (s : State) : Result :=
  .next (if s.pw.power = .off then s else s.setRg F.PW_RTC_SUB_ON_RC 0)

/-- RAIL_PG_RISE (R535): the next rail of the start-up order is good; n is 0 for V1P8 to 5 for VDDQ. -/
def execRailPgRise (n : Nat) (s : State) : Result :=
  .next (if s.pw.power = .rising ∧ s.pw.rail = n ∧ n < 6 then { s with pw.rail := n + 1 } else s)

/-- RAIL_PG_TIMEOUT (R536): the rails go off again, the failed one first, and the sequence is retried. -/
def execRailPgTimeout (n : Nat) (s : State) : Result :=
  .next (if s.pw.power = .rising ∧ s.pw.rail = n ∧ n < 6 then
      let k := min 3 (s.pw.retries + 1)
      ({ s with pw.retries := k }.railFault n 1).setRg F.PW_RAIL_STAT_ATTEMPTS k |>.faultFall n
    else s)

/-- RAIL_PG_LOST (R535, R536): the SoC die is reset, the rails go off, VDDQ first, and the start is run again. A PG_* that
falls while its rail is switched off lets the next one go. -/
def execRailPgLost (n : Nat) (s : State) : Result :=
  .next (if s.pw.power = .up ∧ n < 6 then ({ s.socReset 0 with pw.held := false }.railFault n 2).faultFall 5
    else if s.pw.power = .falling ∧ n = s.pw.rail ∧ n ≠ 0 then s.dropRail
    else s)

/-- RAIL_RETRY_TIMER (R536). -/
def execRailRetryTimer (s : State) : Result :=
  .next (if s.pw.power = .retry ∨ (s.pw.power = .falling ∧ s.pw.fallRetry) then
      s.startRails s.pw.start.fromListen s.pw.cause
    else s)

/-- SOC_POWER_ON_RELEASE (R79, R529, R530): all six rails are good, and HOSTMODE is sampled: high selects root-port mode. -/
def execSocPowerOnRelease (hostmode : Bool) (s : State) : Result :=
  .next (if s.pw.power = .rising ∧ s.pw.rail = 6 then
      ({ s with pw.power := .up, pw.retries := 0, pw.rootPort := hostmode }.setRg F.PW_RAIL_STAT_ATTEMPTS 0).releaseSoc
    else s)

/-- ROM_SELF_TEST_DONE (R79, R82, R95, R482): `pufOk` says that the ROM could reconstruct S for the copy. -/
def execRomSelfTestDone (pufOk : Bool) (s : State) : Result :=
  .next (if s.socUp ∧ s.pw.start.rom ∧ !s.pw.start.tested ∧ !s.pw.rescue then s.romTested pufOk else s)

/-- FIRMWARE_START (R79, R95, R477): the active image is authentic and starts, or the ROM enters RESCUE. -/
def execFirmwareStart (s : State) : Result :=
  .next (if s.socUp ∧ s.pw.start.tested ∧ !s.pw.start.firmware ∧ !s.pw.rescue ∧ !s.upd.copy.running then
      if s.activeAuthentic then { s with pw.start.firmware := true }.updStatus else s.enterRescue
    else s)

/-- PUF_RECONSTRUCTED (R94, R348, R349): the tree is instantiated, or KEYS_DOWN begins. -/
def execPufReconstructed (r : Puf) (s : State) : Result :=
  .next (if s.socUp ∧ s.pw.start.firmware ∧ !s.pw.start.tree then
      let t := { s with pw.start.tree := true }
      let cause := t.downCause r
      let u := t.noteErrRate cause
      if cause = 0 then u.instantiate else u.enterKeysDown cause
    else s)

/-- DRAM_TRAINING_DONE (R79). -/
def execDramTrainingDone (s : State) : Result :=
  .next (if s.socUp ∧ s.pw.start.firmware then { s with pw.start.trained := true } else s)

/-- SERDES_CALIBRATION_DONE (R79): of a start, or of the lanes that PARTIAL had off when FACTORY was entered. -/
def execSerdesCalibrationDone (s : State) : Result :=
  .next (if s.socUp ∧ s.pw.start.rom ∧ (!s.pw.start.ramped ∨ s.mode = 7) then
      { s with pw.start.calibrated := true }.portsJudge
    else s)

/-- DRAM_ZEROING_DONE (R79, R81): DRAM holds zeros; the Hamper and the rings become available. -/
def execDramZeroingDone (s : State) : Result :=
  .next (if s.socUp ∧ s.pw.start.trained ∧ !s.pw.start.zeroed then
      ({ s with pw.start.zeroed := true, mx.dram := [], mx.cached := [], mx.bad := [] }).hamJudge
    else s)

/-- START_RAMP_DONE (R79, R82, R371): the start completes in RUN_MODE, or in PARTIAL with CX in reset, DRAM in
self-refresh and the SerDes islands off, to be calibrated by the next PARTIAL-to-RUN (R86). -/
def execStartRampDone (s : State) : Result :=
  .next (if s.booted ∧ !s.pw.rescue ∧ !s.pw.start.ramped ∧ s.pw.start.tree ∧ s.pw.start.zeroed ∧ s.pw.start.calibrated then
      let t := { s with pw.start.ramped := true }
      if t.act F.SV_MODE_CFG_TARGET = 1 ∨ t.treeLocked then
        ({ t.cxIntoReset with pw.dramSr := true, pw.start.calibrated := false }.setRg F.SV_MODE_RAMPING 0).moveEnds
      else t.enterRun.moveEnds
    else s)

/-- LISTEN_EXIT (R82, R411): a wake event of a source and unit that names no domain. Sources 0xD to 0xF do not exist. -/
def execListenExit (src unit : Nat) (s : State) : Result :=
  .next (if s.inListen ∧ src < 13 then
      s.wake src (if src < 5 then src else unit) (State.wakeInst src unit) 0 0
    else s)

/-- RESET_N_ASSERTED (R92, R529): low for at least 1 µs. -/
def execResetNAsserted (s : State) : Result :=
  let t := { s with pw.resetN := true }
  .next (if t.pw.power = .up then { t.socReset (t.resetCause 1) with pw.held := true } else t)

/-- RESET_N_RELEASED (R92, R529): the start runs from the ROM row. -/
def execResetNReleased (s : State) : Result :=
  let t := { s with pw.resetN := false }
  .next (if t.pw.power = .up ∧ t.pw.held then { t with pw.start.origin := t.now }.releaseSoc else t)

/-- SV_WATCHDOG_EXPIRY (R92). -/
def execSvWatchdogExpiry (s : State) : Result := .next (if s.socUp then s.resetSoc 2 else s)

/-- LOCKSTEP_MISMATCH (R92). -/
def execLockstepMismatch (s : State) : Result := .next (if s.socUp then s.resetSoc 3 else s)

/-- SV_RESET_SOC (R93): SOC with the key. -/
def execSvResetSoc (a : Agent) (data : Word) (s : State) : Result :=
  .next (s.byAgent a (fun t =>
    if F.SV_RESET_KEY.get data = 0x4E57 ∧ F.SV_RESET_SOC.get data = 1 then t.resetSoc 4 else t))

end Sys2Proof.Machine
end

