-- ==== Sys2Proof/Machine/Ports.lean ====
section
/-!
DEFINITION. The meanings of the port commands (05_ports.md).
-/

namespace Sys2Proof.Machine

/-- PCS_BLOCK_LOCK (R130): 1 ms of block lock and no fault, auto-negotiation done. -/
def execPcsBlockLock (port : Nat) (s : State) : Result :=
  .next (match s.laneRate port with
    | some r =>
      if port < 24 ∧ s.portAllowed port ∧ s.rg (F.PX_PORT_STAT_FAULT port) = 0 then s.portComesUp port r else s
    | none => s)

/-- PCS_LOCK_LOSS (R130): block lock lost, or a fault received, for 100 µs; auto-negotiation has to complete again. -/
def execPcsLockLoss (port : Nat) (s : State) : Result :=
  .next (if port < 24 then (s.portDown port).drainUnless s.drained else s)

/-- A port receives a local fault from now on, or none (R130): it sends a remote fault while it does. -/
def State.setLocalFault (s : State) (port : Nat) (on : Bool) : State :=
  if s.px.localFault.testBit port = on then s
  else { s with px.localFault := if on then setBit s.px.localFault port else clrBit s.px.localFault port }.emit
    (.remoteFault port on)

/-- PCS_FAULT_RECEIVED (R130, R158): a local fault, or a remote one in place of whatever was received before. -/
def execPcsFaultReceived (port : Nat) (isLocal : Bool) (s : State) : Result :=
  .next (if port < 24 then
      let t := s.setRg (F.PX_PORT_STAT_FAULT port) 1
      let u := if s.rg (F.PX_PORT_STAT_FAULT port) = 0 then t.portEvent 8 port else t
      u.setLocalFault port isLocal
    else s)

/-- PCS_FAULT_CLEARED (R130, R156). -/
def execPcsFaultCleared (port : Nat) (s : State) : Result :=
  .next (if port < 24 ∧ s.rg (F.PX_PORT_STAT_FAULT port) = 1 then
      (s.setRg (F.PX_PORT_STAT_FAULT port) 0).setLocalFault port false
    else s)

/-- CONTROL_WORD_RECEIVED (R129, R130): a steady control word with a rate code of R156; a code of 7 stands for a
reserved one. -/
def execControlWordReceived (port rate : Nat) (s : State) : Result :=
  .next (if port < 24 ∧ s.anMode port then
      let t := if s.portRate port ≠ rate then (s.portDown port).drainUnless s.drained else s
      let listed := (laneRates (s.laneMode port)).contains rate
      { t with px.anRate := Sparse.set (fun _ => none) t.px.anRate port (if listed then some rate else none) }
    else s)

/-- PORT_FLUSH_COMPLETE (R185). -/
def execPortFlushComplete (port : Nat) (s : State) : Result :=
  .next (s.only (decide (port < 41)) (if s.sx.flushing.testBit port then
      ({ s with sx.flushing := clrBit s.sx.flushing port }.setRg F.SX_EV_LASTPORT_PORT port).raise 69
    else s))

/-- The destination of a PAUSE frame, 01-80-C2-00-00-01 (R141). -/
abbrev pauseMac : Nat := 0x0180C2000001

/-- PAUSE_RECEIVED (R141 to R143): a MAC control frame with this destination and opcode has ended; it is a PAUSE with
opcode 0x0001 and the PAUSE destination. Its receive counter is the RX rows' concern. -/
def execPauseReceived (port dmac opcode quanta : Nat) (s : State) : Result :=
  .next (if hasFc port ∧ s.portUp port ∧ dmac = pauseMac ∧ opcode = 1 then
      if s.rg (F.PX_PORT_STAT_HOLDOFF port) = 1 then s.bump (F.PX_PAUSE_IGNORED_COUNT port)
      else if s.fcActs port 8 then s.startPause port 8 quanta else s
    else s)

/-- PFC_RECEIVED (R141 to R143): a MAC control frame with this opcode has ended, with the class-enable bits and the quanta
of TC0 to TC7; it is a PFC frame with opcode 0x0101. -/
def execPfcReceived (port opcode en : Nat) (quanta : List Nat) (s : State) : Result :=
  .next (if hasFc port ∧ s.portUp port ∧ opcode = 0x0101 then
      if s.rg (F.PX_PORT_STAT_HOLDOFF port) = 1 then s.bump (F.PX_PAUSE_IGNORED_COUNT port)
      else s.forEach ((maskList en 8).filter (s.fcActs port)) (fun t k => t.startPause port k (quanta.getD k 0))
    else s)

/-- PAUSE_EXPIRY (R142): target 0 to 7 is a traffic class, 8 a PAUSE. -/
def execPauseExpiry (port target : Nat) (s : State) : Result := .next (s.only (decide (hasFc port ∧ target < 9)) (s.endPause port target))

/-- PAUSE_WD_TRIP (R143). -/
def execPauseWdTrip (port target : Nat) (s : State) : Result :=
  .next (s.only (decide (target < 9)) (if hasFc port ∧ s.isPaused port target then
      (((s.endPauses port).bump (F.PX_PAUSE_WD_TRIPS_COUNT port)).setRg (F.PX_PORT_STAT_HOLDOFF port) 1).portEvent 1 port
    else s))

/-- PAUSE_HOLDOFF_END (R143). -/
def execPauseHoldoffEnd (port : Nat) (s : State) : Result :=
  .next (if hasFc port then (s.endPauses port).setRg (F.PX_PORT_STAT_HOLDOFF port) 0 else s)

/-- BEACON_LOSS (R145, R148) on T1S PHY n. -/
def execBeaconLoss (n : Nat) (s : State) : Result :=
  let p := 24 + n
  .next (if n < 12 ∧ s.t1sDetects p ∧ s.act (F.PX_PLCA_CFG_PLCA_EN p) = 1 ∧ nodeId s p ≠ 0 ∧ !s.px.bcnLost.testBit p then
      let t := { s with px.bcnLost := setBit s.px.bcnLost p }.setRg (F.PX_PORT_STAT_PLCA_OK p) 0
      (((t.bump (F.PX_T1S_BCN_LOSS_COUNT p)).portEvent 2 p).quarantine p 1).drainUnless s.drained
    else s)

/-- BEACON_RECEIVED (R145, R146) on T1S PHY n. -/
def execBeaconReceived (n : Nat) (s : State) : Result :=
  let p := 24 + n
  .next (if n < 12 ∧ s.portUp p ∧ s.t1sHears p ∧ s.act (F.PX_PLCA_CFG_PLCA_EN p) = 1 then
      if nodeId s p = 0 then (s.idCollision p).drainUnless s.drained
      else ((({ s with px.bcnLost := clrBit s.px.bcnLost p }.setRg (F.PX_PORT_STAT_PLCA_OK p) 1)).setPlca p
        ⟨0, s.now + s.plcaTo p, 0⟩).noteFb
    else s)

/-- NODE_ID_COLLISION (R146, R148) on T1S PHY n: a physical collision with PLCA_EN = 1, or receive activity in the
port's own transmit opportunity. -/
def execNodeIdCollision (n : Nat) (s : State) : Result :=
  .next (if n < 12 ∧ s.act (F.PX_PLCA_CFG_PLCA_EN (24 + n)) = 1 then (s.idCollision (24 + n)).drainUnless s.drained else s)

/-- JABBER (R147, R148) on T1S PHY n. -/
def execJabber (n : Nat) (s : State) : Result :=
  let p := 24 + n
  .next (if n < 12 ∧ s.t1sDetects p ∧ !s.px.jabbering.testBit p then
      let s1 := match s.rxOf p with
        | some id => (s.rxAbort id p).bump (F.PX_RX_SYMBOL_ERR_COUNT p)
        | none => s
      let s2 := { s1 with px.jabbering := setBit s1.px.jabbering p }.bump (F.PX_T1S_JABBER_COUNT p)
      ((s2.portEvent 4 p).quarantine p 3).drainUnless s.drained
    else s)

/-- JABBER_LINE_IDLE (R147) on T1S PHY n. -/
def execJabberLineIdle (n : Nat) (s : State) : Result :=
  .next (s.only (decide (n < 12)) ({ s with px.jabbering := clrBit s.px.jabbering (24 + n) }))

/-- QUARANTINE_END (R148): QUAR_T has elapsed; with QUAR_T = 0 only a release ends the quarantine. -/
def execQuarantineEnd (n : Nat) (s : State) : Result :=
  .next (if n < 12 ∧ s.act (F.PX_T1S_GUARD_QUAR_T (24 + n)) ≠ 0 then s.quarantineEnd (24 + n) else s)

/-- QUARANTINE_RELEASE (R148, R154): a write to PX_T1S_QREL. -/
def execQuarantineRelease (a : Agent) (n : Nat) (data : Word) (s : State) : Result :=
  .next (s.byAgent a (fun s =>
    if n < 12 ∧ (F.PX_T1S_QREL_RELEASE (24 + n)).get data = 1 then s.quarantineEnd (24 + n) else s))

/-- The management access that runs, and its requester (R150). -/
def State.setMdio (s : State) (m : Option (Agent × Bool)) : State := { s with px.mdio := m }

/-- The poll that waits for the access that runs (R150). -/
def State.setPoll (s : State) (x : Option (Nat × Nat × Nat)) : State := { s with px.poll := x }

/-- What a poll of the external PHY reads is acted on (R149): the link bit of register 1, and the rate that the partner's
abilities in registers 5 and 10 resolve to. PRESUMED (log 89): the bits of IEEE 802.3 Clause 22, full duplex. -/
def State.pollRun (s : State) (x : Nat × Nat × Nat) : State :=
  let phy := s.act F.PX_RGMII_CFG_PHY_ADDR
  let rate := if x.2.2.testBit 11 then 2 else if x.2.1.testBit 8 then 1 else 0
  let t := s.forEach [1, 5, 10] (fun t r => t.emit (.mdio r phy false 0))
  let u := { t with px.phyLink := x.1.testBit 2, px.phyRate := rate, px.poll := none }
  ((if u.portUp 40 ∧ u.portRate 40 ≠ rate then u.portDown 40 else u).portJudge 40).drainUnless s.drained

/-- MDIO_POLL (R149, R150): SV reads registers 1, 5 and 10 of the external PHY, with these values, at once or after the
access of software that runs. -/
def execMdioPoll (reg1 reg5 reg10 : Nat) (s : State) : Result :=
  .next (if s.booted ∧ s.act F.PX_RGMII_CFG_LINK_SRC = 0 then
      if s.px.mdio.isSome then s.setPoll (some (reg1, reg5, reg10)) else s.pollRun (reg1, reg5, reg10)
    else s)

/-- PX_MDIO_CMD takes the writable fields of a word (R155). -/
def State.mdioTake (s : State) (data : Word) : State :=
  (((s.setRg F.PX_MDIO_CMD_REG (F.PX_MDIO_CMD_REG.get data)).setRg F.PX_MDIO_CMD_PHYAD
    (F.PX_MDIO_CMD_PHYAD.get data)).setRg F.PX_MDIO_CMD_WRITE (F.PX_MDIO_CMD_WRITE.get data)).setRg
    F.PX_MDIO_CMD_DATA (F.PX_MDIO_CMD_DATA.get data)

/-- MDIO_ACCESS (R150, R155): a write to PX_MDIO_CMD; a GO while BUSY is 1 is ignored, and the access that runs keeps its
kind. -/
def execMdioAccess (a : Agent) (data : Word) (s : State) : Result :=
  .next (s.byAgent a (fun s =>
    let u := s.mdioTake data
    if F.PX_MDIO_CMD_GO.get data = 1 ∧ s.px.mdio = none then
      let write := decide (F.PX_MDIO_CMD_WRITE.get data = 1)
      ((u.setRg F.PX_MDIO_CMD_BUSY 1).setMdio (some (a, write))).emit
        (.mdio (F.PX_MDIO_CMD_REG.get data) (F.PX_MDIO_CMD_PHYAD.get data) write (F.PX_MDIO_CMD_DATA.get data))
    else u))

/-- MDIO_DONE (R150): the access ends, `data` is what a read returned, and a poll that waits follows. -/
def execMdioDone (data : Nat) (s : State) : Result :=
  .next (match s.px.mdio with
    | some (a, write) =>
      let t := s.setRg F.PX_MDIO_CMD_BUSY 0
      let u := if write then t else t.setRg F.PX_MDIO_CMD_DATA data
      let v := (u.setMdio none).raise 41 (some a)
      match v.px.poll with
      | some x => if v.act F.PX_RGMII_CFG_LINK_SRC = 0 then v.pollRun x else v.setPoll none
      | none => v
    | none => s)

end Sys2Proof.Machine
end

