-- ==== Sys2Proof/Machine/Sched.lean ====
section
/-!
DEFINITION. The meanings of the gate-list and PSFP commands (08_policy_scheduling.md, R242, R243, R248, R251).
-/

namespace Sys2Proof.Machine

/-- GCL_ENTRY_CHANGE (R248): the running list is in the entry that the present time of its instance gives: the next
one, or entry 0 where the cycle has ended, which also cuts an entry short. -/
def execGclEntryChange (port : Nat) (s : State) : Result :=
  .next (s.only (decide (port < 41)) ((s.gateJump port).drainUnless s.drained))

/-- GCL_START (R251): the waiting list has reached its start and replaces the running one. -/
def execGclStart (port : Nat) (s : State) : Result :=
  .next (s.only (decide (port < 41)) (match s.gclWaiting port with
    | some (gl, start) =>
      if start ≤ s.tiNs gl.ti then
        let t := ((s.setWaiting port none).setGcl port (some gl)).setRg (F.SC_GCL_STAT_RUNNING port) 1
        ((t.gateJump port).drainUnless s.drained).scEvent 80 port
      else s
    | none => s))

/-- SGATE_ENTRY_CHANGE (R243, R248): a stream gate's list is in the entry that the present time of its instance gives. -/
def execSgateEntryChange (g : Nat) (s : State) : Result := .next (s.only (decide (g < 256)) (s.sgateShow g))

/-- PSFP_CLEAR_FILTER (R242): both latches of a stream filter are cleared. -/
def execPsfpClearFilter (a : Agent) (i : Nat) (s : State) : Result :=
  .next (s.only (decide (i < 1024)) (s.byAgent a (fun s => (s.setRg (F.FX_SF_STAT_SDU_BLOCKED i) 0).setRg (F.FX_SF_STAT_MARK_RED i) 0)))

/-- PSFP_CLEAR_GATE (R243). -/
def execPsfpClearGate (a : Agent) (g : Nat) (s : State) : Result :=
  .next (s.only (decide (g < 256)) (s.byAgent a (fun s =>
    (s.setRg (F.FX_SGATE_STAT_INVALID_CLOSED g) 0).sgateShow g)))

end Sys2Proof.Machine
end

