-- ==== Sys2Proof/Machine/Observe.lean ====
section
/-!
DEFINITION. The meanings of the commands of observability (18_observability_faults.md): slot accounting, DRAM rings,
the CRC snoop units and the ledger.
-/

namespace Sys2Proof.Machine

/-! ### CRC snoop units -/

/-- The generator of a POLY value (R505): width and polynomial. -/
def csuPoly (v : Nat) : Nat × Nat := [(32, 0x04C11DB7), (32, 0x1EDC6F41), (16, 0x1021), (8, 0x1D)].getD v (32, 0x1EDC6F41)

namespace State

/-! ### Slots (R496, R497) -/

/-- All five slot counters are cleared; slots of frames inside no longer count. -/
def slotClear (s : State) : State :=
  let t := (((s.wr64 R.OB_SLOT_RETIRED 0).wr64 R.OB_SLOT_WASTED 0).wr64 R.OB_SLOT_FRONT 0).wr64 R.OB_SLOT_BACK 0
  { t.wr R.OB_SLOT_PEND 0 with ob.slotGen := s.ob.slotGen + 1, ob.slotAhead := 0 }

/-! ### DRAM rings (R498, R499) -/

/-- Base address of ring r. -/
def ringBase (s : State) (r : Nat) : Nat :=
  2 ^ 12 * s.act (F.OB_RING_BASE_LO_BASE r) + 2 ^ 32 * s.act (F.OB_RING_BASE_HI_BASE r)

/-- Bytes of ring r: values of SIZE above 16 act as 16. -/
def ringBytes (s : State) (r : Nat) : Nat := 2 ^ (min 16 (s.act (F.OB_RING_BASE_HI_SIZE r)) + 12)

/-- Stride of ring r's records: 64 bytes for Pegs, 144 for the Line. -/
def ringStride (r : Nat) : Nat := if r = 0 then 64 else 144

/-- Records that ring r holds. -/
def ringCount (s : State) (r : Nat) : Nat := s.ringBytes r / ringStride r

/-- HEAD + 1 equals TAIL, modulo the record count. -/
def ringFull (s : State) (r : Nat) : Bool :=
  decide ((s.rg (F.OB_RING_HEAD_HEAD r) + 1) % s.ringCount r = s.rg (F.OB_RING_TAIL_TAIL r) % s.ringCount r)

/-- BASE is found outside core-usable DRAM (R499). -/
def ringBad (s : State) (r : Nat) : State :=
  if s.rg (F.OB_RING_BAD_BAD_BASE r) = 1 then s else (s.setRg (F.OB_RING_BAD_BAD_BASE r) 1).raise 252

/-- The oldest record of ring r's FIFO goes to DRAM, and HEAD passes it; with the ring full it is lost. -/
def ringWrite (s : State) (r : Nat) : State :=
  let x := s.ringOf r
  match x.fifo with
  | [] => s
  | rec_ :: rest =>
    if !s.dramOk (s.ringBase r) (s.ringBytes r) then s.ringBad r
    else
      let t := s.setRing r { x with fifo := rest }
      if s.ringFull r then t.ringLost r
      else
        let h := s.rg (F.OB_RING_HEAD_HEAD r)
        ((t.dramBypass (s.ringBase r + ringStride r * h) rec_).arbBytes 2 (ringStride r)).setRg (F.OB_RING_HEAD_HEAD r)
          ((h + 1) % s.ringCount r)

/-! ### CRC snoop units (R504 to R508) -/

/-- Unit u. -/
def csuOf (s : State) (u : Nat) : Csu := Sparse.get (fun u => ⟨decide (u ≠ 0), []⟩) s.ob.csu u

/-- Put unit u. -/
def setCsu (s : State) (u : Nat) (c : Csu) : State :=
  { s with ob.csu := Sparse.set (fun u => ⟨decide (u ≠ 0), []⟩) s.ob.csu u c }

/-- The unit's filter passes the frame (R504). -/
def csuPasses (s : State) (u : Nat) (bs : List Byte) : Bool :=
  decide (s.act (F.OB_CSU_CFG_FILT_EN u) = 0) ||
    (hasBytes bs 12 2 && decide (beAt bs 12 2 = s.act (F.OB_CSU_FILT_ETYPE u)))

/-- The bytes that the unit covers of a frame (R504). -/
def csuCovered (s : State) (u : Nat) (bs : List Byte) : List Byte :=
  let rest := bs.drop (s.act (F.OB_CSU_RANGE_OFFSET u))
  let n := s.act (F.OB_CSU_RANGE_LEN u)
  if n = 0 then rest else rest.take n

/-- The CRC of the unit. -/
def csuKind (s : State) (u : Nat) : CrcKind :=
  let (w, p) := csuPoly (s.act (F.OB_CSU_CFG_POLY u))
  ⟨w, p, decide (s.act (F.OB_CSU_CFG_REFIN u) = 1)⟩

/-- RESULT from RUN: reflected when REFOUT is 1, XOR XOROUT (R506). -/
def csuResult (s : State) (u run : Nat) : Nat :=
  let w := (s.csuKind u).width
  let v := if s.act (F.OB_CSU_CFG_REFOUT u) = 1 then reverseBits w run else run
  Nat.xor v (s.act (F.OB_CSU_XOROUT_XOROUT u)) % 2 ^ w

/-- INIT at the unit's width. -/
def csuInit (s : State) (u : Nat) : Nat := s.act (F.OB_CSU_INIT_INIT u) % 2 ^ (s.csuKind u).width

/-- The unit has covered a frame (R506). -/
def csuFrame (s : State) (u : Nat) (bs : List Byte) : State :=
  let cov := s.csuCovered u bs
  if !s.csuPasses u bs then s
  else if cov = [] then s.bump (F.OB_CSU_SHORT_COUNT u)
  else
    let k := s.csuKind u
    let from_ := if s.act (F.OB_CSU_CFG_MODE u) = 0 then s.csuInit u else s.rg (F.OB_CSU_RUN_RUN u) % 2 ^ k.width
    let run := crcRun k from_ cov
    ((s.setRg (F.OB_CSU_RUN_RUN u) run).setRg (F.OB_CSU_RESULT_RESULT u) (s.csuResult u run)).bump (F.OB_CSU_FRAMES_COUNT u)

/-- The oldest frame that passed the unit ends: covered, or counted in HELD while the unit is held (R507). -/
def csuEnd (s : State) (u : Nat) : State :=
  let c := s.csuOf u
  match c.stream with
  | [] => s
  | bs :: rest =>
    let t := s.setCsu u { c with stream := rest }
    if s.rg (F.OB_CSU_STAT_HOLD_ACK u) = 1 then t.bump (F.OB_CSU_HELD_COUNT u) else t.csuFrame u bs

/-- HOLD is written (R507): clearing it resumes coverage. -/
def csuHold (s : State) (u v : Nat) : State :=
  let t := s.setRg (F.OB_CSU_CTL_HOLD u) v
  if v % 2 = 0 then t.setRg (F.OB_CSU_STAT_HOLD_ACK u) 0 else t

/-- CLEAR loads INIT into RUN (R506). -/
def csuClear (s : State) (u : Nat) : State := s.setRg (F.OB_CSU_RUN_RUN u) (s.act (F.OB_CSU_INIT_INIT u))

/-- REATTACH attaches CSU0 under its configuration after the load (R508). -/
def csuReattach (s : State) : State :=
  if s.booted then s.setCsu 0 { s.csuOf 0 with attached := true } else s

/-- A write of OB_CSU_CTL_u. -/
def csuCtl (s : State) (u : Nat) (data : Word) : State :=
  let t := s.csuHold u ((F.OB_CSU_CTL_HOLD u).get data)
  let v := if (F.OB_CSU_CTL_CLEAR u).get data = 1 then t.csuClear u else t
  if u = 0 ∧ (F.OB_CSU_CTL_REATTACH u).get data = 1 then v.csuReattach else v

/-- Unit u exists, and its registers take writes: those of CSU0 do not before the load ends (R65). -/
def csuOpen (s : State) (u : Nat) : Bool := decide (u < 8) && (decide (u ≠ 0) || s.booted)

/-- RUN is written: accepted while HOLD_ACK is 1, else discarded (R507). -/
def csuRun (s : State) (u : Nat) (data : Word) : State :=
  if s.rg (F.OB_CSU_STAT_HOLD_ACK u) = 1 then s.wr (R.OB_CSU_RUN u) data else s

/-! ### The ledger's verification -/

/-- VERIFY begins (R516): ignored while one runs. -/
def ledgerBegin (s : State) (a : Agent) : State :=
  if s.ob.ledger.verify.isSome then s
  else { s.wr R.SV_LEDGER_RES 1 with ob.ledger.verify := some a }

end State

/-- SLOT_CLR (R497). -/
def execSlotClr (a : Agent) (data : Word) (s : State) : Result :=
  .next (s.byAgent a (fun t => if F.OB_SLOT_CLR_CLR.get data = 1 then t.slotClear else t))

/-- SLOT_ACCOUNT (R496): a slot that no frame enters; `back` says that a frame was ready at the input. -/
def execSlotAccount (back : Bool) (s : State) : Result :=
  .next (if !s.socUp then s else (if back then s.slotBack else s.bump64 R.OB_SLOT_FRONT).slotUsed)

/-- RING_RECORD_WRITE (R498, R499). -/
def execRingRecordWrite (r : Nat) (s : State) : Result :=
  .next (if s.socUp ∧ s.dramReady ∧ r < 9 then s.ringWrite r else s)

/-- CSU_FRAME_END (R506, R507). -/
def execCsuFrameEnd (u : Nat) (s : State) : Result := .next (if s.socUp ∧ u < 8 then s.csuEnd u else s)

/-- CSU_HOLD (R507). -/
def execCsuHold (a : Agent) (u : Nat) (s : State) : Result :=
  .next (s.byAgent a (fun t => if t.csuOpen u then t.csuHold u 1 else t))

/-- CSU_HOLD_ACK (R507): a held unit reaches a frame boundary. -/
def execCsuHoldAck (u : Nat) (s : State) : Result :=
  .next (if s.socUp ∧ u < 8 ∧ s.rg (F.OB_CSU_CTL_HOLD u) = 1 then s.setRg (F.OB_CSU_STAT_HOLD_ACK u) 1 else s)

/-- CSU_CLEAR (R506). -/
def execCsuClear (a : Agent) (u : Nat) (s : State) : Result :=
  .next (s.byAgent a (fun t => if t.csuOpen u then t.csuClear u else t))

/-- CSU_REATTACH (R508). -/
def execCsuReattach (a : Agent) (s : State) : Result := .next (s.byAgent a State.csuReattach)

/-- CSU_RUN_WRITE (R507). -/
def execCsuRunWrite (a : Agent) (u : Nat) (data : Word) (s : State) : Result :=
  .next (s.byAgent a (fun t => if t.csuOpen u then t.csuRun u data else t))

/-- LEDGER_FLUSH (R512, R513, R515). -/
def execLedgerFlush (s : State) : Result := .next (if s.booted then s.ledgerFlush else s)

/-- LEDGER_SCAN (R515): after each boot Stitch. -/
def execLedgerScan (s : State) : Result := .next (if s.booted ∧ !s.ob.ledger.scanned then s.ledgerScan else s)

/-- LEDGER_VERIFY (R516). -/
def execLedgerVerify (a : Agent) (s : State) : Result := .next (s.byAgent a (fun t => t.ledgerBegin a))

/-- LEDGER_VERIFY_DONE (R516). -/
def execLedgerVerifyDone (s : State) : Result :=
  .next (match s.ob.ledger.verify with
    | some a => if s.socUp then s.ledgerVerify a else s
    | none => s)

end Sys2Proof.Machine
end

