-- ==== Sys2Proof/Machine/Views.lean ====
section
/-!
DEFINITION. What a read of the register space shows (R1 to R8, R32, R39): values that their unit computes when they are
read, the ACTIVE and SHADOW views, and the frozen values of OB_SNAP (R34, R35).
-/

namespace Sys2Proof.Machine

/-- A bit field of a word under construction. -/
abbrev bitsAt (v lo wid : Nat) : Nat := v % 2 ^ wid * 2 ^ lo

/-- The bits of a register that a read returns: those of its fields that are not WO (R3, R5). -/
def readMask : List FieldDef → Word
  | [] => 0
  | f :: fs => (if f.acc = .wo then 0 else (BitVec.ofNat 32 (2 ^ f.wid - 1)) <<< f.lo) ||| readMask fs

/-- The bits of a register with an access code. -/
def accMask (a : Acc) : List FieldDef → Word
  | [] => 0
  | f :: fs => (if f.acc = a then (BitVec.ofNat 32 (2 ^ f.wid - 1)) <<< f.lo else 0) ||| accMask a fs

/-- The clock domain that samples a register (R18, R34); `off` is its address within the row. -/
def RegRow.domain (r : RegRow) (off : Nat) : ClkDomain :=
  match r.clk with
  | .svc => .svc
  | .t1s => .t1s
  | .rgmii => .rgmii
  | .core => .core
  | .ddr => .ddr
  | .time => .time
  | .fb => .fb
  | .sec => .sec
  | .app => .app
  | .pcie => .pcie
  | .aon => .aon
  | .mac =>
    let p := ((matchDims r.dims (off - r.off)).bind List.head?).getD 0
    if p < 24 then .mac (Fin.ofNat 24 p)
    else if p < 36 then .t1s
    else if p < 39 then .core
    else if p = 39 then .svc
    else .rgmii

/-- Every clock domain of R34. -/
def allDomains : List ClkDomain :=
  [.core, .app, .sec, .time, .t1s, .rgmii, .fb, .ddr, .pcie, .svc, .aon] ++ (List.range 24).map (fun p => .mac (Fin.ofNat 24 p))

/-- A clock domain that frames or their bytes pass (R18, R34): all but CLK_TIME, CLK_PCIE and the power die's. -/
def framePath (d : ClkDomain) : Bool := decide (d ≠ .time) && decide (d ≠ .pcie) && decide (d ≠ .aon)

namespace State

/-! ### Values computed when they are read -/

/-- Handle h as its registers show it. While the loader owns all eighteen domains as one boot transaction (R61), the
registers show it in handle 0, OPEN, with owner code 0xF (R102) and no timeout (DESIGN CHOICE, log 73). -/
def txnShown (s : State) (h : Nat) : Txn :=
  if s.sv.booting ∧ h = 0 then { freeTxn with state := .opened, owner := 0xF, set := 2 ^ 18 - 1, since := s.now } else s.txnOf h

/-- Milliseconds of a handle's timeout left as its register shows them; the boot transaction has none (log 73). -/
def leftShown (s : State) (h : Nat) : Nat := if s.sv.booting ∧ h = 0 then 0 else s.txnLeft h

/-- SV_TX_STATE_h (R115): LEFT in units of 0.512 s, rounded up. -/
def txStateWord (s : State) (h : Nat) : Nat :=
  let x := s.txnShown h
  match x.state with
  | .free => 0
  | st =>
    let code := match st with | .copying => 1 | .opened => 2 | .held => 3 | _ => 4
    let persist := x.persist && (decide (st = .held) || decide (st = .draining))
    code + bitsAt x.owner 4 4 + bitsAt (if persist then 1 else 0) 8 1 + bitsAt ((s.leftShown h + 511) / 512) 12 20

/-- SV_SD_STAT_d (R422). -/
def sdStatWord (s : State) (d : Nat) : Nat :=
  let x := s.sdOf d
  let b := fun (v : Bool) => if v then 1 else 0
  x.state + 8 * b x.latched + 16 * b x.enforced + 32 * b x.hold

/-- SV_SD_STAT_d TIMER: the fold timer, which counts in QUIET, in ms (R407, R422). -/
def sdTimer (s : State) (d : Nat) : Nat := if (s.sdOf d).state = 2 then (s.now - (s.sdOf d).timerFrom) / 1000000 else 0

/-- SV_SD_STAT_d AWAKE_S: the awake time in s (R416, R422). -/
def sdAwake (s : State) (d : Nat) : Nat :=
  let st := (s.sdOf d).state
  if st = 0 ∨ st = 4 then 0 else (s.now - (s.sdOf d).awakeFrom) / giga

/-- Computed registers of the SV block. -/
def computedSV (s : State) (off : Nat) : Option Nat :=
  firstSome [
    (idx off (R.SV_TX_STATE 0) 8 4).map s.txStateWord,
    (idx off (R.SV_TX_DOMAINS 0) 8 4).map (fun h => (s.txnShown h).set),
    (idx off (R.SV_SD_STAT 0) 16 16).map s.sdStatWord,
    (idx off (R.SV_SD_TIMER 0) 16 16).map s.sdTimer,
    (idx off (R.SV_SD_AWAKE 0) 16 16).map s.sdAwake]

/-- Detached pages that wait for their return (R178). -/
def reclaimPages (s : State) : Nat := (s.sx.detached.map (fun d => d.pages.length)).sum

/-- Computed registers of the SX block (R193). -/
def computedSX (s : State) (off : Nat) : Option Nat :=
  if off = R.SX_DIE_CELLS then some s.cDie
  else if off = R.SX_DIE_FREE then some (s.freeCells none)
  else if off = R.SX_DIE_HELD then some s.heldCells
  else if off = R.SX_RSV_TOTAL then some (s.rsvTotal % 2 ^ 18 + bitsAt (s.rg F.SX_RSV_TOTAL_SCALED) 31 1)
  else if off = R.SX_HAM_PAGES then some s.hamPages
  else if off = R.SX_HAM_USED then some s.hamUsed
  else if off = R.SX_HAM_STAGE then some s.hamStage
  else if off = R.SX_HAM_RECLAIM then some s.reclaimPages
  else firstSome [
    (idx off (R.SX_QSTAT 0) 4 328).map (fun q => s.dieCells q % 2 ^ 20 + if (s.queueOf q).spill then 2 ^ 20 else 0),
    (idx off (R.SX_QHAM 0) 4 328).map s.queuePages]

/-- Computed registers of the FX block (R207, R227). -/
def computedFX (s : State) (off : Nat) : Option Nat :=
  if off = R.FX_FDB_COUNT then some s.fdbAll.length
  else if off = R.FX_FDB_CAM_USED then some ((s.fdbAll.filter (fun e => decide (camBase ≤ e.1))).length)
  else (idx off (R.FX_LEARNED 0) 16 41).map s.learnedOn

/-- Computed registers of the TE block: the time, FBTC, and the oldest capture of a TSYNC_IN pin (R262, R285, R287). -/
def computedTE (s : State) (off : Nat) : Option Nat :=
  if off = R.TE_FBTC then some s.te.fbtc
  else if off = R.TE_FBTC + 4 then some (s.te.fbtc / 2 ^ 32)
  else if off = R.TE_PAIR_FBTC_LO then some ((s.te.pairs.head?.map (fun p => p.count)).getD 0)
  else firstSome [
    (idx off (R.TE_TI_NS 0) 0x100 4).map (fun i => (s.tiOf i).ns),
    (idx off (R.TE_TSI_NS 0) 0x20 2).map (fun k =>
      match Sparse.get (fun _ => []) s.te.tsi k with | [] => 0 | c :: _ => 2 ^ 31 + c.ns)]

/-- The objects 32 k to 32 k + 31 of controller c with a status among some, as a mask. -/
def objMask (s : State) (c k : Nat) (sts : List Nat) : Nat :=
  ((List.range 32).filter (fun b => sts.contains (s.objStatus c (32 * k + b)))).foldl setBit 0

/-- Computed registers of the BX block (R324). -/
def computedBX (s : State) (off : Nat) : Option Nat :=
  let c := off % 0x1000000 / 0x10000 - 0x10
  if 16 ≤ c then none
  else firstSome [
    (idx off (R.BX_CAN_PEND c 0) 4 4).map (fun k => s.objMask c k [1, 2]),
    (idx off (R.BX_CAN_RXF c 0) 4 4).map (fun k => s.objMask c k [12])]

/-- Contexts whose CURRENT is pair p (R397). -/
def pairContexts (s : State) (p : Nat) : Nat :=
  ((List.range 4096).filter (fun c => s.ctxValid c && decide (s.ctxPair c = p))).length

/-- Computed registers of the CE block. -/
def computedCE (s : State) (off : Nat) : Option Nat :=
  (idx off (R.CE_PAIR_STAT 0) 4 8).map (fun p =>
    ((F.CE_PAIR_STAT_CONTEXTS p).put (s.rd off) (min 4095 (s.pairContexts p))).toNat)

/-- Computed registers of the MX block (R466, R473). -/
def computedMX (s : State) (off : Nat) : Option Nat :=
  let b := fun (v : Bool) => if v then 1 else 0
  if off = R.MX_DRAM_STAT then some (b s.pw.start.trained + 2 * b s.pw.start.zeroed + 4 * b s.pw.dramSr)
  else if off = R.MX_HB_STAT then some (F.MX_HB_STAT_ROOT.put (s.rd off) (b s.pw.rootPort)).toNat
  else if off = R.MX_HB_MSI_DATA then some (s.mx.msi.head?.getD 0)
  else none

/-- Computed registers of the PW block: the real-time clock, and what the mirror shows (R32, R423). -/
def computedPW (s : State) (off : Nat) : Option Nat :=
  if off = R.PW_RTC_SEC_LO then some s.pw.rtcSec
  else if mirrored off then some (rfWord s.mirror off).toNat
  else none

/-- The value of a register that its unit computes when it is read. -/
def computed (s : State) (off : Nat) : Option Nat :=
  match off / 0x1000000 with
  | 0 => s.computedSV off
  | 2 => s.computedSX off
  | 3 => s.computedFX off
  | 4 => s.computedTE off
  | 5 => s.computedBX off
  | 7 => s.computedCE off
  | 9 => s.computedMX off
  | 10 => s.computedPW off
  | _ => none

/-! ### The live views -/

/-- The live value behind the ACTIVE address of a register, before its unreadable bits are removed. -/
def rawWord (s : State) (r : RegRow) (off : Nat) : Word :=
  match r.cd with
  | some d => rfWord (s.activeOf d) off
  | none =>
    match s.computed off with
    | some v => Word.ofNat v
    | none => s.rd off

/-- The live value at an ACTIVE address: reserved and WO bits read as 0 (R3, R5), and so does an address without a
register (R2). -/
def liveWord (s : State) (off : Nat) : Word :=
  match regRow off with
  | some r => s.rawWord r off &&& readMask r.fields
  | none => 0

/-- The value at a SHADOW address (R39, R100); `off` is the ACTIVE address. -/
def shadowWord (s : State) (off : Nat) : Word :=
  match regRow off with
  | some r =>
    match r.cd with
    | some d => rfWord (s.shadowView d) off &&& rsMask r.fields
    | none => 0
  | none => 0

/-! ### The frozen values (R34, R35) -/

/-- A register that the cut holds: every counter and status register but SV_EV_STATUS and the OB_SNAP registers (R34). -/
def inCut (r : RegRow) (off : Nat) : Bool :=
  r.isStatus && !decide (R.SV_EV_STATUS 0 ≤ off ∧ off ≤ R.SV_EV_STATUS 7) && !decide (R.OB_SNAP ≤ off ∧ off ≤ R.OB_SNAP_TIME_SEC_HI)

/-- The cut of a register, once its domain has frozen. -/
def frozenFile (s : State) (r : RegRow) (off : Nat) : Option RegFile :=
  if inCut r off then (s.ob.snap.cut.find? (fun e => decide (e.1 = r.domain off))).map (·.2) else none

/-- The value that a read of a register returns at its ACTIVE address: frozen while its domain is (R35). -/
def viewWord (s : State) (off : Nat) : Word :=
  match regRow off with
  | some r =>
    match s.frozenFile r off with
    | some rf => rfWord rf off &&& readMask r.fields
    | none => s.rawWord r off &&& readMask r.fields
  | none => 0

/-- A read of the register finds it frozen. -/
def isFrozen (s : State) (off : Nat) : Bool :=
  match regRow off with
  | some r => (s.frozenFile r off).isSome
  | none => false

/-- The registers whose value is computed when it is read. -/
def computedOffs : List Nat :=
  (List.range 4).map R.SV_TX_STATE ++ (List.range 4).map R.SV_TX_DOMAINS ++ (List.range 16).map R.SV_SD_STAT ++
    (List.range 16).map R.SV_SD_TIMER ++ (List.range 16).map R.SV_SD_AWAKE ++
    [R.SX_DIE_CELLS, R.SX_DIE_FREE, R.SX_DIE_HELD, R.SX_RSV_TOTAL, R.SX_HAM_PAGES, R.SX_HAM_USED, R.SX_HAM_STAGE,
      R.SX_HAM_RECLAIM, R.FX_FDB_COUNT, R.FX_FDB_CAM_USED, R.TE_FBTC, R.TE_FBTC + 4, R.TE_PAIR_FBTC_LO, R.MX_DRAM_STAT,
      R.MX_HB_STAT, R.MX_HB_MSI_DATA] ++
    (List.range 328).map R.SX_QSTAT ++ (List.range 328).map R.SX_QHAM ++ (List.range 41).map R.FX_LEARNED ++
    (List.range 4).map R.TE_TI_NS ++ (List.range 2).map R.TE_TSI_NS ++
    (List.range 16).flatMap (fun c => (List.range 4).flatMap (fun k => [R.BX_CAN_PEND c k, R.BX_CAN_RXF c k])) ++
    (List.range 8).map R.CE_PAIR_STAT

/-- The latched registers that go with a time instance show the instance's own time (R262). -/
def latchTi (s : State) (i : Nat) : State :=
  let t := s.tiOf i
  ((s.setRg (F.TE_TI_SEC_LO_SEC i) t.sec).setRg (F.TE_TI_SEC_HI_SEC i) (t.sec / 2 ^ 32)).setRg (F.TE_TI_FRAC_FRAC i) t.frac

/-- The pair registers show the latest pair (R281, R287). -/
def latchPair (s : State) : State :=
  match s.te.pairs with
  | [] => s
  | p :: _ =>
    let ns := p.time / 256
    let s1 := (s.setRg F.TE_PAIR_FBTC_HI_FBTC (p.count / 2 ^ 32)).setRg F.TE_PAIR_NS_NS (ns % giga)
    let s2 := (s1.setRg F.TE_PAIR_SEC_LO_SEC (ns / giga)).setRg F.TE_PAIR_SEC_HI_SEC (ns / giga / 2 ^ 32)
    s2.setRg F.TE_PAIR_SEC_HI_FRAC p.time

/-- What a domain's registers hold at its freeze: in CLK_TIME the latched registers hold the instant of the freeze. -/
def frozenNow (s : State) (d : ClkDomain) : RegFile :=
  let t := if d = .time then (s.forEach [0, 1, 2, 3] latchTi).latchPair else s
  let mine := fun (off : Nat) =>
    match regRow off with
    | some r => inCut r off && decide (r.domain off = d)
    | none => false
  (computedOffs.filter mine).foldl (fun rf o => Sparse.set resetWord rf o (t.liveWord o)) (t.regs.filter (fun e => mine e.1))

end State

end Sys2Proof.Machine
end

