-- ==== Sys2Proof/Machine/Snap.lean ====
section
/-!
DEFINITION. The meanings of the commands of OB_SNAP (01_architecture.md, R34 to R37, R543) and of the power die's mirror.
-/

namespace Sys2Proof.Machine

namespace State

/-- The match time of the OB_SNAP_AT registers (R543): nanoseconds of 10^9 and more act as 0. -/
def snapAt (s : State) : Nat :=
  giga * (s.rg F.OB_SNAP_AT_SEC_LO_SEC + 2 ^ 32 * s.rg F.OB_SNAP_AT_SEC_HI_SEC) +
    orElse (decide (s.rg F.OB_SNAP_AT_NS_NS < giga)) (s.rg F.OB_SNAP_AT_NS_NS) 0

/-- A trigger while idle (R35, R37, R543): SRC, TI_SEL and OB_SNAP_AT are latched; software, or a time match that is
already past, freezes at once. -/
def snapArm (s : State) : State :=
  let src := s.rg F.OB_SNAP_SRC
  let ti := s.rg F.OB_SNAP_TI_SEL
  let at_ := s.snapAt
  let t := { s.setRg F.OB_SNAP_STATE 1 with ob.snap := ⟨.armed, src, ti, at_, []⟩ }
  if src = 0 ∨ (src = 3 ∧ at_ ≤ t.tiNs ti) then t.snapForm else t

/-- TRIGGER: refused while armed, forming or frozen (R35, R543). -/
def snapTrigger (s : State) : State :=
  if s.ob.snap.state = .idle then s.snapArm else s.setRg F.OB_SNAP_REFUSED 1

/-- RELEASE: every register returns to live values, or the arming is withdrawn (R35, R543). -/
def snapRelease (s : State) : State :=
  if s.ob.snap.state = .idle then s
  else { s.setRg F.OB_SNAP_STATE 0 with ob.snap := { s.ob.snap with state := .idle, cut := [] } }

/-- A write of OB_SNAP: the RW fields, the RW1C bits, then RELEASE, which wins over TRIGGER (R35, R36). -/
def snapWrite (s : State) (w : Word) : State :=
  let s1 := ((s.setRg F.OB_SNAP_SRC (F.OB_SNAP_SRC.get w)).setRg F.OB_SNAP_TI_SEL (F.OB_SNAP_TI_SEL.get w)).setRg
    F.OB_SNAP_HOLD_MAX (F.OB_SNAP_HOLD_MAX.get w)
  let s2 := if F.OB_SNAP_REFUSED.get w = 1 then s1.setRg F.OB_SNAP_REFUSED 0 else s1
  let s3 := if F.OB_SNAP_EXPIRED.get w = 1 then s2.setRg F.OB_SNAP_EXPIRED 0 else s2
  if F.OB_SNAP_RELEASE.get w = 1 then s3.snapRelease
  else if F.OB_SNAP_TRIGGER.get w = 1 then s3.snapTrigger
  else s3

/-- The domains that freeze when the freeze command reaches d (R34). A domain that frames pass forwards the command
before it hands on any later frame, and in the model one command acts in every domain that its frame passes: so all of
them freeze before the next occurrence on any frame's path (DEDUCED, log 72). -/
def freezesWith (d : ClkDomain) : List ClkDomain := if framePath d then allDomains.filter framePath else [d]

/-- The freeze command reaches a domain: it and those that the command passes on to hold the register values of that
instant (R34). -/
def snapFreeze (s : State) (d : ClkDomain) : State :=
  let new := (freezesWith d).filter (fun x => s.ob.snap.cut.all (fun e => decide (e.1 ≠ x)))
  let cut := s.ob.snap.cut ++ new.map (fun x => (x, s.frozenNow x))
  if s.ob.snap.cut.any (fun e => decide (e.1 = d)) then s
  else if allDomains.all (fun x => cut.any (fun e => decide (e.1 = x))) then
    { s.setRg F.OB_SNAP_STATE 2 with ob.snap := { s.ob.snap with state := .frozen, cut := cut } }
  else { s with ob.snap := { s.ob.snap with cut := cut } }

/-- The armed source is this pin, and TE captures this edge of it (R35, R278). -/
def snapPin (s : State) (pin : Nat) (rising : Bool) : Bool :=
  decide (s.ob.snap.state = .armed) && decide (s.ob.snap.src = pin + 1) && decide (pin < 2) &&
    (s.act (F.TE_TSI_CFG_EDGE pin)).testBit (if rising then 0 else 1)

end State

/-- OB_SNAP_TRIGGER (R35, R36, R543): a write of OB_SNAP with TRIGGER set. -/
def execObSnapTrigger (a : Agent) (data : Word) (s : State) : Result :=
  .next (s.byAgent a (fun t => t.snapWrite (data ||| 1)))

/-- OB_SNAP_RELEASE (R35, R543). -/
def execObSnapRelease (a : Agent) (s : State) : Result := .next (s.byAgent a State.snapRelease)

/-- OB_SNAP_TIME_MATCH (R37): the latched instance has reached the latched time. -/
def execObSnapTimeMatch (s : State) : Result :=
  .next s.snapMatch

/-- OB_SNAP_TSYNC_EDGE (R35). -/
def execObSnapTsyncEdge (pin : Nat) (rising : Bool) (s : State) : Result :=
  .next (if s.snapPin pin rising then s.snapForm else s)

/-- OB_SNAP_DOMAIN_FREEZE (R34, R36). -/
def execObSnapDomainFreeze (d : ClkDomain) (s : State) : Result :=
  .next (if s.ob.snap.state = .forming then s.snapFreeze d else s)

/-- OB_SNAP_HOLD_MAX_EXPIRY (R36). -/
def execObSnapHoldMaxExpiry (s : State) : Result :=
  .next (if s.ob.snap.state = .frozen then (s.snapRelease.setRg F.OB_SNAP_EXPIRED 1).raise 248 else s)

/-- POWER_DIE_MIRROR_REFRESH (R34): while the SoC die is powered. -/
def execPowerDieMirrorRefresh (s : State) : Result := .next (if s.socUp then s.refreshMirror else s)

end Sys2Proof.Machine
end

