-- ==== Sys2Proof/Machine/Txn.lean ====
section
/-!
DEFINITION. The meanings of the transaction commands (04_transactions_mending.md, R98 to R116).
-/

namespace Sys2Proof.Machine

namespace State

/-- The checks of TACK in order (R105): the code and the handle that it reports. -/
def tackCheck (s : State) (set timeout : Nat) : Option (Nat × Nat) :=
  if s.sv.booting then some (4, 0)
  else if set = 0 ∨ set ≥ 2 ^ 18 then some (5, 0)
  else if (1 ≤ timeout ∧ timeout ≤ 99) ∨ timeout > 600000 then some (6, 0)
  else if s.openTxns.length = 4 then some (2, 0)
  else (s.holderOf set).map (fun h => (3, h))

/-- The lowest free handle (R106). -/
def nextHandle (s : State) : Nat := ((List.range 4).find? (fun h => decide ((s.txnOf h).state = .free))).getD 0

/-- A held Stitch's instance has passed its time by a cycle or more (R110). -/
def pastTime (s : State) (h : Nat) : Bool :=
  let x := s.txnOf h
  let t := s.tiOf x.ti
  decide (2 ^ 32 * x.time + s.incEff x.ti ≤ 2 ^ 32 * t.total + t.frac)

/-- A handle is unpicked on a timeout (R113, R114): an open command of a Tack that had not completed ends with an
outcome that no rule gives. -/
def txTimeout (s : State) (h : Nat) : State :=
  let x := s.txnOf h
  let t := (s.freeHandle h).raise 8 (some x.agent)
  if x.state = .copying then t.useFree.txResult x.agent (t.freeVal % 13) h else t

/-- The transactions of a group commit as one (R109, R110). -/
def commitAll (s : State) (hs : List Nat) : State :=
  let xs := hs.map (fun h => (h, s.txnOf h, (s.txnOf h).wasHeld && ((s.txnOf h).late || s.pastTime h)))
  let set := xs.foldl (fun m x => Nat.lor m x.2.1.set) 0
  let t := (s.noteDrain).forEach hs (fun t h => t.setTxn h freeTxn)
  let u := (t.commitSet set).forEach xs (fun u x => u.commitReport x.1 x.2.1 x.2.2)
  match xs.find? (fun x => x.2.1.persist) with
  | some x => u.persist x.2.1.agent
  | none => u

/-- Handle h has drained: its group is checked again and commits (R109 to R111). -/
def commitHandle (s : State) (h : Nat) : State :=
  let hs := s.commitGroup h
  let t := s.forEach hs recheck
  match hs.filter (fun k => decide ((t.txnOf k).state = .draining)) with
  | [] => t
  | l => t.commitAll l

/-- The owner code that a register shows for an agent (R102): debug access has none, and shows a free one other than
0xD, which is never produced. -/
def ownerShown (s : State) (a : Agent) : Nat :=
  if a = .debug then (if s.freeVal % 15 = 13 then 15 else s.freeVal % 15) else a.ownerCode

/-- A SHADOW write is refused (R107): counted, its first address kept, and the writer told. -/
def shadowRefuse (s : State) (a : Agent) (off : Nat) : State :=
  let t := s.bump F.SV_TX_SHADOW_REFUSED_COUNT
  let u := if t.rd R.SV_TX_SHADOW_ADDR = 0 then
      ((t.setRg F.SV_TX_SHADOW_ADDR_OFFSET off).setRg F.SV_TX_SHADOW_ADDR_OWNER (t.ownerShown a)).useFree
    else t
  let v := u.raise 11 (some a)
  match a with
  | .bersan n => v.emit (.bersanReply n.val (txWord 8 0 0 0))
  | _ => v

/-- A transaction of the agent is open over the domain (R107). -/
def shadowMine (s : State) (a : Agent) (d : Nat) : Bool :=
  (List.range 4).any (fun h =>
    let x := s.txnOf h
    decide (x.state = .opened) && decide (x.owner = a.ownerCode) && x.set.testBit d)

/-- A write through the SHADOW view at a space offset (R39, R107). -/
def shadowTake (s : State) (a : Agent) (off reg : Nat) (row : Option RegRow) (w : Word) : State :=
  match row with
  | none => s
  | some r =>
    match r.cd with
    | none => s
    | some d =>
      if off % 0x1000000 < 0x800000 ∨ !r.rsOf d ∨ off % 4 ≠ 0 then s
      else if s.shadowMine a d then s.shadowPut d reg w
      else s.shadowRefuse a off

/-- A write at an address of the SHADOW view. -/
def shadowWrite (s : State) (a : Agent) (off : Nat) (w : Word) : State :=
  s.shadowTake a off (off - 0x800000) (regRow (off - 0x800000)) w

end State

/-- TACK (R105, R106): refused, or COPYING until its copy is made. -/
def execTack (a : Agent) (set timeout : Nat) (s : State) : Result :=
  .next (s.txCommand a (fun t0 =>
    let t := t0.txFields a (some set) (some timeout) none
    match t.tackCheck set timeout with
    | some (code, h) => t.txResult a code h
    | none =>
      let ms := if timeout = 0 then 10000 else timeout
      (t.setTxn t.nextHandle ⟨.copying, a, a.ownerCode, set, ms, ms, t.now, false, 0, 0, false, false⟩).txAccept a
        t.nextHandle))

/-- TACK_COPY_DONE (R106). -/
def execTackCopyDone (h : Nat) (s : State) : Result :=
  .next (s.only (decide (h < 4)) (let x := s.txnOf h
    if x.state = .copying ∧ !s.copyBlocked x.set then
      let t := (s.recopyDue.noteDrain).copyOver x.set
      (t.setTxn h { t.txnOf h with state := .opened }).txResult x.agent 0 h
    else s))

/-- STITCH (R109). -/
def execStitch (a : Agent) (h : Nat) (persist : Bool) (s : State) : Result :=
  .next (s.txCommand a (fun t =>
    match t.stitchCheck a (h % 4) persist with
    | some code => t.txResult a code (h % 4)
    | none => (t.stitchAccept (h % 4) .draining persist 0 0 false false).txAccept a (h % 4)))

/-- STITCH_AT (R110): held, and at once due where its time has been reached. -/
def execStitchAt (a : Agent) (h : Nat) (persist : Bool) (ti sec ns : Nat) (s : State) : Result :=
  .next (s.txCommand a (fun t0 =>
    let t := t0.txFields a none (some ns) (some sec)
    let i := ti % 4
    let time := giga * (sec % 2 ^ 48) + orElse (decide (ns < giga)) ns 0
    match t.stitchCheck a (h % 4) persist with
    | some code => t.txResult a code (h % 4)
    | none =>
      if time > 600 * giga + t.tiNs i then t.txResult a 9 (h % 4)
      else
        let u := (t.stitchAccept (h % 4) .held persist i time false true).txResult a 1 (h % 4)
        if time ≤ u.tiNs i then u.heldFire (h % 4) (decide (time < u.tiNs i)) else u))

/-- UNPICK (R113). -/
def execUnpick (a : Agent) (h : Nat) (s : State) : Result :=
  .next (s.txCommand a (fun t =>
    match t.handleCheck a (h % 4) with
    | some code => t.txResult a code (h % 4)
    | none => (t.freeHandle (h % 4)).txResult a 0 (h % 4)))

/-- RENEW (R108). Where the Stitch of the transaction drains the answer is STATE: DESIGN CHOICE (log 102). -/
def execRenew (a : Agent) (h : Nat) (s : State) : Result :=
  .next (s.txCommand a (fun t =>
    let x := t.txnOf (h % 4)
    match t.handleCheck a (h % 4) with
    | some code => t.txResult a code (h % 4)
    | none =>
      if x.state = .held ∨ x.state = .draining then t.txResult a 0xC (h % 4)
      else (t.setTxn (h % 4) { x with left := x.timeout, since := t.now }).txResult a 0 (h % 4)))

/-- STITCH_AT_TIME_REACHED (R110). -/
def execStitchAtTimeReached (h : Nat) (s : State) : Result :=
  .next (s.only (decide (h < 4)) (if (s.txnOf h).state = .held ∧ (s.txnOf h).time ≤ s.tiNs (s.txnOf h).ti then s.heldFire h (s.pastTime h) else s))

/-- STITCH_COMMIT (R109 to R112): once no frame of an older epoch remains. -/
def execStitchCommit (h : Nat) (s : State) : Result :=
  .next (State.drainDone (s.only (decide (h < 4)) (if (s.txnOf h).state = .draining ∧ s.drained then s.commitHandle h else s)))

/-- DRAIN_LIM_AGE_DISCARD (R111, R179). -/
def execDrainLimAgeDiscard (s : State) : Result := .next (State.drainDone (if s.drainWaited then s.ageAll else s))

/-- SHADOW_WRITE (R1, R107): `off` is the space offset of the SHADOW view. -/
def execShadowWrite (a : Agent) (off : Nat) (data : Word) (s : State) : Result :=
  .next (if s.reaches a ∧ off % 4 ≠ 0 then s.answer .busError else s.byAgent a (fun t => t.shadowWrite a off data))

/-- TX_TIMEOUT (R114). -/
def execTxTimeout (h : Nat) (s : State) : Result :=
  .next (s.only (decide (h < 4)) (if (s.txnOf h).state = .copying ∨ (s.txnOf h).state = .opened then s.txTimeout h else s))

end Sys2Proof.Machine
end

