-- ==== Sys2Proof/Machine/Update.lean ====
section
/-!
DEFINITION. The meanings of the update session's commands and of the migration (17_firmware_update.md, R478 to R481,
R486).
-/

namespace Sys2Proof.Machine

/-- UPD_OPEN (R478, R479): NOT_AUTH, BUSY, KEYS. -/
def execUpdOpen (a : Agent) (s : State) : Result :=
  .next (s.byAgent a (fun t =>
    if t.updBusy a then t
    else if !t.updPermitted a then t.updRefuse a [] 0 1
    else if t.upd.owner.isSome ∨ t.enrolling then t.updRefuse a [] 0 2
    else
      let (u, ok) := t.importFleet
      if ok then
        let v := { u with upd.owner := some a, upd.first := [], upd.got := 0, upd.lastCmd := u.now, upd.job := none }
        (((v.setRg F.SV_UPD_STAT_SESSION 1).setRg F.SV_UPD_STAT_OWNER a.ownerCode).updResult a 0 0).updLedger [] 19 0
      else u.updRefuse a [] 0 5))

/-- UPD_HEADER (R479): the first slot is taken from ADDR, the mark withdrawn and staging slot 0 written. -/
def execUpdHeader (a : Agent) (addr : Nat) (s : State) : Result :=
  let offered := fun (t : State) => let p := t.updAddr a addr; t.dramRd p (cLen (t.dramRd p 512))
  .next (s.updCommand a 0
    (fun t =>
      let p := t.updAddr a addr
      (t.updOwned a).or (t.headerCheck p (t.dramRd p 16896)))
    (fun t =>
      let c := offered t
      let u := ({ t with upd.first := c }.showGot 0).setRg F.SV_UPD_STAT_SESSION 1
      (u.setRg F.SV_UPD_STAT_BLOCKS 0 |>.updAccept a 2 0).addTask (.header a)
        [newArea nvJournal 1 [], newArea nvStaging 16 c])
    (first := offered) (addr := some addr))

/-- UPD_BLOCK (R476, R479): STATE, BAD_INDEX, BAD_ADDR, TAG; a match is written to its staging slot. -/
def execUpdBlock (a : Agent) (index addr : Nat) (s : State) : Result :=
  .next (s.byAgent a (fun t0 =>
    if t0.updBusy a then t0
    else
      let t := (t0.updMirror a (some addr)).updTouch a
      let b := index % 256
      let p := t.updAddr a addr
      match t.updOwned a with
      | some code => t.updRefuse a [] b code
      | none =>
        if !t.headerAccepted then t.updRefuse a [] b 0x0E
        else if cBlocks t.upd.first ≤ b then t.updRefuse a [] b 9
        else if !t.dramOk p 65536 then t.updRefuse a [] b 0x0F
        else
          let data := t.dramRd p 65536
          match t.kxUse 7 4 with
          | (u, used) =>
            if used ∧ blockTagOk t.upd.first (t.keyAt (State.nodeCell 7)) b data then
              ((u.showGot (clrBit u.upd.got b)).updAccept a 3 b).addTask (.block a b)
                [newArea (nvStaging + 65536 * (b + 1)) 16 data]
            else (u.bump F.SV_UPD_TAG_FAIL_COUNT).updRefuse a [] b 0x0A))

/-- UPD_ACTIVATE (R479, R481): STATE, INCOMPLETE, BAD_SIG, ROLLBACK; the journal is written. -/
def execUpdActivate (a : Agent) (s : State) : Result :=
  .next (s.updCommand a 0
    (fun t =>
      let c := t.upd.first
      match t.updOwned a with
      | some code => some code
      | none =>
        if !t.headerAccepted then some 0x0E
        else if (List.range (cBlocks c)).any (fun b => !t.upd.got.testBit b) then some 0x0B
        else if !(t.keyHashOk c && cSigned c) then some 0x0C
        else if t.rollback c then some 0x08
        else none)
    (fun t => (t.updAccept a 4 0).addTask (.activate a)
      [newArea nvJournal 16 [], newArea nvJournal 0
        (journalHeader t.upd.first false (t.act F.KX_FLEET_CFG_BLOB_SECTOR))]))

/-- UPD_CLOSE (R479, R480). -/
def execUpdClose (a : Agent) (s : State) : Result :=
  .next (s.updCommand a 0 (fun t => t.updOwned a) (fun t => t.endUpdate.updResult a 0 0))

/-- UPD_SESSION_TIMEOUT (R480): no command from the owner for TIMEOUT. -/
def execUpdSessionTimeout (s : State) : Result := .next (s.closeUpdate 1)

/-- MIGRATION (R486): at the first start of new firmware, after the boot Stitch, unless a persisting Stitch holds the
bank writer. -/
def execMigration (s : State) : Result :=
  .next (if !(s.booted && s.firstStart) ∨ s.writerBusy then s
    else if s.rg F.SV_CFG_SKIPPED_COUNT ≠ 0 ∨ s.rg F.SV_CFG_UNKNOWN_COUNT ≠ 0 then s.migrated s.selBank 3
    else if !s.sv.oldFmt then s.migrated s.selBank 2
    else s.addBankWrite (.migration (1 - s.selBank) s.nextSeq) (1 - s.selBank) s.nextSeq (s.bankImage s.nextSeq))

end Sys2Proof.Machine
end

