-- ==== Sys2Proof/Machine/Access.lean ====
section
/-!
DEFINITION. The register fabric (R1 to R8, R38 to R41): reads with their side effects, writes by access code, the
registers whose writes are commands, and the meanings of the fabric's commands.
-/

namespace Sys2Proof.Machine

namespace State

/-! ### Reads -/

/-- What an agent's access answers where it cannot be made: no answer (R17), or the error response of R1, which the reserved
range above the 256 MiB of the register space gives too (R448). -/
def accessError (s : State) (a : Agent) (off : Nat) (w : Width) : Option Resp :=
  if !s.reaches a then some .noAnswer
  else if off % w.bytes ≠ 0 ∨ 0x10000000 ≤ off then some .busError
  else none

/-- An RC register after a read: its RC fields clear (R5). What the power die counted after the mirror that was read is
kept (R32). -/
def rcClear (s : State) (r : RegRow) (off : Nat) : State :=
  let m := accMask .rc r.fields
  if m = 0 then s
  else if mirrored off then
    { s.wr off (s.rd off - (rfWord s.mirror off &&& m)) with
      mirror := Sparse.set resetWord s.mirror off (rfWord s.mirror off &&& ~~~ m) }
  else s.wr off (s.rd off &&& ~~~ m)

/-- The side effects of a read of a live register. -/
def readEffect (s : State) (r : RegRow) (off : Nat) : State :=
  match idx off (R.TE_TI_NS 0) 0x100 4 with
  | some i => s.latchTi i
  | none =>
    match idx off (R.TE_TSI_NS 0) 0x20 2 with
    | some k => s.tsiPop k
    | none =>
      match idx off (R.SX_QPEAK 0) 4 328 with
      | some q => s.setRg (F.SX_QPEAK_CELLS q) (s.dieCells q)
      | none =>
        if off = R.MX_HB_MSI_DATA then s.msiPop
        else if off = R.TE_PAIR_FBTC_LO then s.latchPair
        else if off = R.PW_RTC_SEC_LO then
          (s.setRg F.PW_RTC_SEC_HI_SEC (s.pw.rtcSec / 2 ^ 32)).setRg F.PW_RTC_SUB_SUB s.pw.rtcSub
        else s.rcClear r off

/-- A read of a low word latches the high word (R8). -/
def latchHigh (s : State) (r : RegRow) (off : Nat) : State :=
  if r.lat = .low then
    { s with latches := Sparse.set (fun _ => none) s.latches (off + 4) (some (s.viewWord (off + 4))) }
  else s

/-- The word that a read of a register at its ACTIVE address returns: for a high word, the latched one (R8). -/
def readWord (s : State) (r : RegRow) (off : Nat) : Word :=
  if r.lat = .high then (Sparse.get (fun _ => none) s.latches off).getD (s.viewWord off) else s.viewWord off

/-- A full read at an ACTIVE address: the word, and the state after it (R5, R8, R35). -/
def readActive (s : State) (off : Nat) : State × Word :=
  match regRow off with
  | none => (s, 0)
  | some r =>
    let t := s.latchHigh r off
    (if s.isFrozen off then t else t.readEffect r off, s.readWord r off)

/-- A full read at a word address of the space (R2, R38, R39). -/
def readSpace (s : State) (off : Nat) : State × Word :=
  if 0xC000000 ≤ off then (s, 0)
  else if off % 0x1000000 < 0x800000 then s.readActive off
  else (s, s.shadowWord (off - 0x800000))

/-- The controller and the word of its message RAM at a space offset (R322). -/
def ramWord (off : Nat) : Option (Nat × Nat) :=
  if 0x5100000 ≤ off ∧ off < 0x5200000 ∧ 0x4000 ≤ off % 0x10000 then
    some ((off - 0x5100000) / 0x10000, (off % 0x10000 - 0x4000) / 4)
  else none

/-- The message RAM word at a space offset, where it can not be corrected (R317). -/
def badRam (s : State) (off : Nat) : Option (Nat × Nat) :=
  if (regRow off).isSome then
    (ramWord off).bind (fun (c, w) => if s.ramBad c w then some (c, w) else none)
  else none

/-- An agent reads: a narrow read returns the addressed bytes (R1). A message RAM word that can not be corrected gives
an error response, and is counted and recorded (R317, R509). -/
def regRead (s : State) (a : Agent) (off : Nat) (w : Width) : State :=
  match s.accessError a off w, s.badRam (off - off % 4) with
  | some e, _ => s.answer e
  | none, some (c, word) => ((s.bump (F.BX_CAN_ECC_UE_COUNT c)).fault 0x0B c word).answer .busError
  | none, none =>
    let (t, v) := s.readSpace (off - off % 4)
    t.answer (.value (Word.ofNat (v.toNat / 2 ^ (8 * (off % 4)) % 2 ^ (8 * w.bytes))))

/-! ### Writes -/

/-- The next state of a command; no command of this model answers with anything else. -/
def after (x : Result) (s : State) : State :=
  match x with
  | .next t => t
  | _ => s

/-- The mailbox that an address belongs to, by the owner code of its agent (R103, R373, R489). -/
def mailboxOf (off : Nat) : Option Nat :=
  if 0x400 ≤ off ∧ off < 0x740 then some ((off - 0x400) / 0x40)
  else if 0xC40 ≤ off ∧ off < 0xDE0 then some ((off - 0xC40) / 0x20)
  else if 0x6000400 ≤ off ∧ off < 0x6000A80 then some ((off - 0x6000400) / 0x80)
  else none

/-- A mailbox takes writes of its own agent only, and a session's mirror none (R103). -/
def mailboxShut (a : Agent) (off : Nat) : Bool :=
  match mailboxOf off with
  | some k => decide (a.ownerCode ≠ k) || decide (8 < k)
  | none => false

/-- A write by access code (R5): RW bits take the data, RW1C bits written with 1 clear. -/
def plainWrite (s : State) (r : RegRow) (off : Nat) (data : Word) : State :=
  let rw := accMask .rw r.fields
  let c := accMask .rw1c r.fields
  let old := s.rd off
  if rw ||| c = 0 then s else s.wr off (((old &&& ~~~ rw) ||| (data &&& rw)) &&& ~~~ (data &&& c))

/-- SV_MODE_REQ (R77). -/
def writeModeReq (s : State) (a : Agent) (data : Word) : State :=
  match F.SV_MODE_REQ_REQ.get data with
  | 1 => after (execModeReqPartial a s) s
  | 2 => after (execModeReqRun a s) s
  | 3 => after (execModeReqListen a s) s
  | 4 => after (execModeReqRescue a s) s
  | 5 => after (execModeReqFactory a s) s
  | _ => s

/-- SV_TXM_CMD_k (R103): the operands stand in the mailbox. -/
def writeTxCmd (s : State) (a : Agent) (k : Nat) (data : Word) : State :=
  let h := (F.SV_TXM_CMD_HANDLE k).get data
  let p := decide ((F.SV_TXM_CMD_PERSIST k).get data = 1)
  let arg := s.rg (F.SV_TXM_ARG_ARG k)
  let sec := s.rg (F.SV_TXM_SEC_LO_SEC k) + 2 ^ 32 * s.rg (F.SV_TXM_SEC_HI_SEC k)
  match (F.SV_TXM_CMD_OP k).get data with
  | 1 => after (execTack a (s.rd (R.SV_TXM_DOMAINS k)).toNat arg s) s
  | 2 => after (execStitch a h p s) s
  | 3 => after (execStitchAt a h p ((F.SV_TXM_CMD_TI_SEL k).get data) sec arg s) s
  | 4 => after (execUnpick a h s) s
  | 5 => after (execRenew a h s) s
  | 8 => after (execMendStart a (arg / 256 % 16) (arg % 256) s) s
  | 9 => after (execMendStop a (arg % 256) s) s
  | _ => s

/-- SV_UPD_CMD_k (R479, R489). -/
def writeUpdCmd (s : State) (a : Agent) (k : Nat) (data : Word) : State :=
  let addr := s.rg (F.SV_UPD_ADDR_LO_ADDR k) + 2 ^ 32 * s.rg (F.SV_UPD_ADDR_HI_ADDR k)
  match (F.SV_UPD_CMD_OP k).get data with
  | 1 => after (execUpdOpen a s) s
  | 2 => after (execUpdHeader a addr s) s
  | 3 => after (execUpdBlock a ((F.SV_UPD_CMD_INDEX k).get data) addr s) s
  | 4 => after (execUpdActivate a s) s
  | 5 => after (execUpdClose a s) s
  | _ => s

/-- KX_CMD_k (R373). -/
def writeKxCmd (s : State) (a : Agent) (k : Nat) (data : Word) : State :=
  let node := (F.KX_CMD_NODE k).get data
  let arg := (F.KX_CMD_ARG k).get data
  match (F.KX_CMD_OP k).get data with
  | 1 => after (execInvalidate a node s) s
  | 2 => after (execRebind a node s) s
  | 3 => after (execImportKey a node arg [] s) s
  | 4 => after (execExportKey a node s) s
  | 5 => after (execZeroise a s) s
  | 6 => after (execClearLock a s) s
  | 7 => after (execLcAdvance a arg s) s
  | 8 => after (execEnroll a s) s
  | _ => s

/-- SV_FOLD_CMD (R422). -/
def writeFoldCmd (s : State) (a : Agent) (data : Word) : State :=
  let t := after (execFoldCmdWake a data s) s
  after (execFoldCmdForgive a data t) t

/-- FX_TBL_CMD (R229): the RW fields, then GO. -/
def writeTblCmd (s : State) (a : Agent) (r : RegRow) (data : Word) : State :=
  let t := s.plainWrite r R.FX_TBL_CMD data
  if F.FX_TBL_CMD_GO.get data = 0 then t
  else match F.FX_TBL_CMD_OP.get data with
    | 1 => after (execFdbRead a t) t
    | 2 => after (execFdbSearch a t) t
    | 3 => after (execFdbDelete a t) t
    | 4 => after (execFdbFlush a t) t
    | _ => t

/-- FX_PSFP_CLEAR (R256). -/
def writePsfpClear (s : State) (a : Agent) (data : Word) : State :=
  let t := if F.FX_PSFP_CLEAR_CLR_FILTER.get data = 1 then
      after (execPsfpClearFilter a (F.FX_PSFP_CLEAR_FILTER.get data) s) s else s
  if F.FX_PSFP_CLEAR_CLR_GATE.get data = 1 then after (execPsfpClearGate a (F.FX_PSFP_CLEAR_GATE.get data) t) t else t

/-- TE_TI_CMD_i (R264). -/
def writeTiCmd (s : State) (a : Agent) (i : Nat) (data : Word) : State :=
  match (F.TE_TI_CMD_OP i).get data with
  | 1 => after (execTiStep a i s) s
  | 2 => after (execTiSet a i s) s
  | 3 => after (execTiUnset a i s) s
  | _ => s

/-- Header words W1 to W4 of an object (R301): discarded while it is PENDING or ACTIVE, and ignored where the object is
the gateway's (R315). -/
def writeObjHeader (s : State) (r : RegRow) (off : Nat) (data : Word) : State :=
  let c := (off - 0x5100000) / 0x10000
  let o := (off - 0x5102000) % 0x10000 / 0x20
  if s.objStatus c o = 1 ∨ s.objStatus c o = 2 ∨ canGw (s.canRf c) c o then s else s.plainWrite r off data

/-- KX_TAMPER_STAT (R372, R379): LATCH of a source at WIPE_LOCK does not clear. -/
def writeTamperStat (s : State) (data : Word) : State :=
  let clear := (maskList (F.KX_TAMPER_STAT_LATCH.get data) 6).filter (fun i => decide (tamperLevel s.tamperCfg i ≠ 3))
  s.setRg F.KX_TAMPER_STAT_LATCH (maskDiff (s.rg F.KX_TAMPER_STAT_LATCH) (clear.foldl setBit 0))

/-- PW_RTC_SET_HI with GO (R420, R423): the set waits for the next subsecond wrap. -/
def writeRtcSet (s : State) (data : Word) : State :=
  if F.PW_RTC_SET_HI_GO.get data = 1 then
    { s with aon.rtcSet := some ((s.rd R.PW_RTC_SET_LO).toNat + 2 ^ 32 * F.PW_RTC_SET_HI_SEC.get data) }
  else s

/-- PW_RTC_ALARM_CTL (R420): an alarm armed for a time already past fires at once. -/
def writeAlarmCtl (s : State) (r : RegRow) (data : Word) : State :=
  let t := s.plainWrite r R.PW_RTC_ALARM_CTL data
  if t.rg F.PW_RTC_ALARM_CTL_ARM = 1 ∧ t.rg F.PW_RTC_ALARM_SEC_SEC ≤ t.pw.rtcSec then after (execRtcAlarm t) t else t

/-- Bits of SV_EV_STATUS_n are cleared, with their initiators; then every vector that still has a pending event sends
one more message (R43). -/
def evClear (s : State) (n : Nat) (data : Word) : State :=
  let t := s.setRg (F.SV_EV_STATUS_EV n) (maskDiff (s.rg (F.SV_EV_STATUS_EV n)) data.toNat)
  let u := { t with scope := t.scope.filter (fun e => !(decide (e.1 / 32 = n) && data.getLsbD (e.1 % 32))) }
  u.forEach ((List.range 32).filter u.vecPending) sendVec

/-- Registers of the SV block whose writes are commands. -/
def writeSV (s : State) (a : Agent) (off : Nat) (data : Word) : Option State :=
  if off = R.SV_MODE_REQ then some (s.writeModeReq a data)
  else if off = R.SV_RESET then some (after (execSvResetSoc a data s) s)
  else if off = R.SV_FOLD_NEED then some (after (execFoldNeedWrite a data s) s)
  else if off = R.SV_FOLD_CMD then some (s.writeFoldCmd a data)
  else if off = R.SV_LEDGER_CMD then some (if F.SV_LEDGER_CMD_VERIFY.get data = 1 then s.ledgerBegin a else s)
  else firstSome [
    (idx off (R.SV_TXM_DOMAINS 0) 0x40 9).map (fun k => s.wr (R.SV_TXM_DOMAINS k) data),
    (idx off (R.SV_TXM_CMD 0) 0x40 9).map (fun k => s.writeTxCmd a k data),
    (idx off (R.SV_UPD_CMD 0) 0x20 9).map (fun k => s.writeUpdCmd a k data),
    (idx off (R.SV_EV_STATUS 0) 4 8).map (fun n => s.evClear n data)]

/-- Registers of the PX block whose writes are commands. -/
def writePX (s : State) (a : Agent) (off : Nat) (data : Word) : Option State :=
  if off = R.PX_MDIO_CMD then some (after (execMdioAccess a data s) s)
  else (idx off (R.PX_T1S_QREL 24) 0x1000 12).map (fun n => after (execQuarantineRelease a n data s) s)

/-- Registers of the FX and TE blocks whose writes are commands. -/
def writeFXTE (s : State) (a : Agent) (r : RegRow) (off : Nat) (data : Word) : Option State :=
  if off = R.FX_TBL_CMD then some (s.writeTblCmd a r data)
  else if off = R.FX_PSFP_CLEAR then some (s.writePsfpClear a data)
  else if off = R.TE_PAIR_CMD then some (after (execPairGo a data s) s)
  else firstSome [
    (idx off (R.TE_TI_CMD 0) 0x100 4).map (fun i => s.writeTiCmd a i data),
    (idx off (R.TE_TI_ADJ 0) 0x100 4).map (fun i => after (execTiAdjWrite a i data s) s)]

/-- Registers of the BX block whose writes are commands. -/
def writeBX (s : State) (a : Agent) (r : RegRow) (off : Nat) (data : Word) : Option State :=
  let c := off % 0x1000000 / 0x10000 - 0x10
  if off = R.BX_PQ_CMD then
    some (if F.BX_PQ_CMD_RESET.get data = 1 then after (execPqReset a (F.BX_PQ_CMD_Q.get data) s) s else s)
  else if off < 0x5100000 ∨ 0x5200000 ≤ off then none
  else if 0x2000 ≤ off % 0x10000 ∧ off % 0x10000 < 0x3000 then some (s.writeObjHeader r off data)
  else if 0x4000 ≤ off % 0x10000 then some ((s.plainWrite r off data).ramGood c [(off % 0x10000 - 0x4000) / 4])
  else if off = R.BX_CAN_CMD c then
    some (if (F.BX_CAN_CMD_RECOVER c).get data = 1 then after (execCanRecover a c s) s else s)
  else firstSome [
    (idx off (R.BX_CAN_TXREQ c 0) 4 4).map (fun w => after (execCanTxreq a c w data s) s),
    (idx off (R.BX_CAN_TXCAN c 0) 4 4).map (fun w => after (execCanTxcan a c w data s) s),
    (idx off (R.BX_CAN_RXACK c 0) 4 4).map (fun w => after (execCanRxack a c w data s) s)]

/-- Registers of the KX block whose writes are commands. -/
def writeKX (s : State) (a : Agent) (off : Nat) (data : Word) : Option State :=
  if off = R.KX_TAMPER_STAT then some (s.writeTamperStat data)
  else (idx off (R.KX_CMD 0) 0x80 9).map (fun k => s.writeKxCmd a k data)

/-- Registers of the CX and MX blocks whose writes are commands. -/
def writeCXMX (s : State) (a : Agent) (off : Nat) (data : Word) : Option State :=
  if off = R.CX_CORE_START then some (after (execCoreStart a data s) s)
  else if off = R.CX_DVFS then some (after (execDvfsRequest a data s) s)
  else if off = R.MX_HB_FENCE_CLR then some (after (execFenceClr a data s) s)
  else if off = R.MX_DRAM_UE_ADDR_HI then
    some (if data.getLsbD 31 then (s.wr R.MX_DRAM_UE_ADDR_LO 0).wr R.MX_DRAM_UE_ADDR_HI 0 else s)
  else firstSome [
    (idx off (R.CX_TAG_POP 0) 0x400 8).map (fun k =>
      if (F.CX_TAG_POP_POP k).get data = 1 then after (execTagPop a k s) s else s),
    (idx off (R.CX_HP_RX_TAIL 0 0) 0x20 64).map (fun _ => after (execRingTailWrite a off data s) s),
    (idx off (R.CX_HP_RX_TAIL 1 0) 0x20 64).map (fun _ => after (execRingTailWrite a off data s) s),
    (idx off (R.CX_HP_TX_TAIL 0 0) 0x20 64).map (fun _ => after (execRingTailWrite a off data s) s),
    (idx off (R.CX_HP_TX_TAIL 1 0) 0x20 64).map (fun _ => after (execRingTailWrite a off data s) s)]

/-- Registers of the PW and OB blocks whose writes are commands. -/
def writePWOB (s : State) (a : Agent) (r : RegRow) (off : Nat) (data : Word) : Option State :=
  if off = R.PW_RTC_SET_LO then some (s.wr off data)
  else if off = R.PW_RTC_SET_HI then some (s.writeRtcSet data)
  else if off = R.PW_RTC_ALARM_CTL then some (s.writeAlarmCtl r data)
  else if off = R.PW_OUT_CMD then some (after (execReenable a data s) s)
  else if off = R.OB_SNAP then some (s.snapWrite data)
  else if off = R.OB_SLOT_CLR then some (after (execSlotClr a data s) s)
  else firstSome [
    (idx off (R.OB_CSU_CTL 0) 0x40 8).map (fun u => if s.csuOpen u then s.csuCtl u data else s),
    (idx off (R.OB_CSU_RUN 0) 0x40 8).map (fun u => after (execCsuRunWrite a u data s) s)]

/-- A register whose write is a command (its own row of the command table, or the start of one). -/
def commandWrite (s : State) (a : Agent) (r : RegRow) (off : Nat) (data : Word) : Option State :=
  match off / 0x1000000 with
  | 0 => s.writeSV a off data
  | 1 => s.writePX a off data
  | 3 => s.writeFXTE a r off data
  | 4 => s.writeFXTE a r off data
  | 5 => s.writeBX a r off data
  | 6 => s.writeKX a off data
  | 8 => s.writeCXMX a off data
  | 9 => s.writeCXMX a off data
  | 10 => s.writePWOB a r off data
  | 11 => s.writePWOB a r off data
  | _ => none

/-- A write at an ACTIVE address: discarded where no register is defined (R2), at an RS register (R6), or in another
agent's mailbox (R103). -/
def writeActive (s : State) (a : Agent) (off : Nat) (data : Word) : State :=
  match regRow off with
  | none => s
  | some r =>
    if r.cd.isSome ∨ mailboxShut a off then s
    else match s.commandWrite a r off data with
      | some t => t
      | none => s.plainWrite r off data

/-- An agent writes (R1, R2, R38, R39). -/
def regWrite (s : State) (a : Agent) (off : Nat) (w : Width) (data : Word) : State :=
  match s.accessError a off w with
  | some e => s.answer e
  | none =>
    if w ≠ .word then s.answer .busError
    else if 0xC000000 ≤ off then s.answer .done
    else if off % 0x1000000 < 0x800000 then (s.writeActive a off data).answer .done
    else (s.shadowWrite a off data).answer .done

end State

/-- REGISTER_WRITE (R1 to R6, R41). -/
def execRegisterWrite (a : Agent) (off : Nat) (w : Width) (data : Word) (s : State) : Result :=
  .next (s.regWrite a off w data)

/-- RC_READ (R1, R5, R35): a read of a register; RC fields clear. -/
def execRcRead (a : Agent) (off : Nat) (w : Width) (s : State) : Result := .next (s.regRead a off w)

/-- COUNTER_LOW_READ (R8): a full read of a low word. -/
def execCounterLowRead (a : Agent) (off : Nat) (s : State) : Result := .next (s.regRead a off .word)

/-- TI_TIME_READ (R262): the nanoseconds, with the seconds and the fraction of the same cycle latched. -/
def execTiTimeRead (a : Agent) (i : Nat) (s : State) : Result :=
  .next (if i < 4 then s.regRead a (R.TE_TI_NS i) .word else s)

/-- TSI_POP (R285). -/
def execTsiPop (a : Agent) (k : Nat) (s : State) : Result :=
  .next (if k < 2 then s.regRead a (R.TE_TSI_NS k) .word else s)

/-- MSI_DATA_POP (R466, R473). -/
def execMsiDataPop (a : Agent) (s : State) : Result := .next (s.regRead a R.MX_HB_MSI_DATA .word)

/-- EV_STATUS_WRITE (R42, R43). -/
def execEvStatusWrite (a : Agent) (n : Nat) (data : Word) (s : State) : Result :=
  .next (s.byAgent a (fun t => if n < 8 then t.evClear n data else t))

end Sys2Proof.Machine
end

