-- ==== Sys2Proof/Machine/Bersan.lean ====
section
/-!
DEFINITION. The meanings of the Bersan session commands (R64; 12_keys_lifecycle.md, R361, R365; 17_firmware_update.md,
R480). A session n is the agent with owner code 9 + n (R102).
-/

namespace Sys2Proof.Machine

namespace State

/-- SV listens for the request and the node may authenticate it: while CD00 has no applied record, only on P40, untagged,
at UDP port 49321, and only the factory management node (R64). Where SV listens otherwise is in no register. -/
def bersanAccepts (s : State) (node port : Nat) (tagged : Bool) (udp : Nat) : Bool :=
  (s.rg F.SV_CFG_DOMAINS_PRESENT).testBit 0 || (decide (node = 3 ∧ port = 40 ∧ udp = 49321) && !tagged)

/-- A session opens: the node must be usable for MGMT_AUTH, and the use counts (R361). -/
def bersanOpen (s : State) (n node : Nat) : State :=
  let (t, ok) := s.kxUse node 3
  if ok then { t with sv.bersan := Sparse.set (fun _ => none) t.sv.bersan n (some node) } else t

end State

/-- BERSAN_SESSION_OPEN (R64, R361): SV runs its firmware, and the session number is free. The request came in at
`port`, in a tagged frame or not, for the UDP port `udp`. -/
def execBersanSessionOpen (n node port : Nat) (tagged : Bool) (udp : Nat) (s : State) : Result :=
  .next (if s.socUp ∧ s.pw.start.firmware ∧ n < 4 ∧ node < 1024 ∧ s.sessionNode n = none ∧
      s.bersanAccepts node port tagged udp then
      s.bersanOpen n node
    else s)

/-- BERSAN_SESSION_CLOSE (R480). -/
def execBersanSessionClose (n : Nat) (s : State) : Result :=
  .next (if s.socUp ∧ n < 4 ∧ s.sessionNode n ≠ none then s.closeSession n else s)

end Sys2Proof.Machine
end

