-- ==== Sys2Proof/Machine/Buffer.lean ====
section
/-!
DEFINITION. The meanings of the buffer's commands (06_buffer.md): enqueue, copies, spill, refill and the release of
Hamper pages.
-/

namespace Sys2Proof.Machine

namespace State

/-- Step 6 still stands before the frame: MACsec reception, or the check of a sealed trailer (R343, R390). -/
def needsCe (s : State) (f : Frame) : Bool :=
  f.stage == .looked && f.ce.isNone && (s.rxChecks f || (f.port == 38 && f.sealIn.isSome))

/-- The frame stands at step 7 with nothing before it. -/
def atEnqueue (s : State) (f : Frame) : Bool :=
  f.pass != 0 && (f.stage == .looked || f.stage == .checked) && !f.zombie && !s.needsCe f

/-- The page of the queue that is written next, where no other queue closed one before it (R174), and its place. -/
def closedPage (s : State) (q : Nat) : Option (Nat × HPage) :=
  let staged := fun (p : HPage) => p.state == .staged
  match (s.queueOf q).pages.zipIdx.find? (fun x => staged x.1) with
  | some (p, k) =>
    if s.sx.queues.all (fun e => (e.2.pages.filter staged).all (fun o => decide (p.closed ≤ o.closed))) then some (k, p)
    else none
  | none => none

/-- Page k of a queue stands in DRAM with these cells. -/
def pageToDram (s : State) (q k : Nat) (enc : Bool) (cells : List (List Byte)) : State :=
  let x := s.queueOf q
  let no := s.freePageNo
  (s.setQueue q { x with
    pages := x.pages.modify k (fun p => { p with
      state := .dram
      no := no
      enc := enc
      cells := cells
      copies := p.copies.map (fun c => { c with hamOut := some s.now }) }) }).arbBytes 1 4096

/-- Policy has dropped the frame, but CE has still to verify it for its learn request (R206, R391). -/
def learnWaits (s : State) (id : Nat) (f : Frame) : Bool :=
  !f.verified && f.good && decide (f.verdict = .drop) && s.fx.learn.any (fun r => decide (r.frame = id))

/-- A frame's verdict discards it at enqueue (R24, R25). -/
def dropAtEnqueue (s : State) (id : Nat) : State := (s.bump F.SX_DROP_VERDICT_COUNT).dropFrame id 5

end State

/-- SX_ENQUEUE (R24, R27, R28, R164, R168, R182 to R186): step 7 of a frame, in the order of its port. A frame set to DROP
goes here, whether or not it has had a pipeline slot (log 74). -/
def execSxEnqueue (id : Nat) (s : State) : Result :=
  .next (State.drainDone (match s.frameOf id with
    | some f =>
      if f.stage = .queued ∨ f.zombie ∨ s.learnWaits id f then s
      else if f.verdict ≠ .ok then s.dropAtEnqueue id
      else if s.atEnqueue f ∧ s.enqueueTurn id f ∧ (State.isWhole f ∨ s.cutOk f) then s.enqueue id f
      else s
    | none => s))

/-- INGRESS_COPY_WRITE (R184): the copy for the lowest port still to be written. -/
def execIngressCopyWrite (id : Nat) (s : State) : Result :=
  .next (State.drainDone (match s.frameOf id with
    | some f =>
      match lowestBit f.copying 41 with
      | some p =>
        let t := s.modFrame id (fun f => { f with copying := clrBit f.copying p })
        (t.writeCopy id f p).copiesDone id
      | none => s
    | none => s))

/-- FILL_PAGE_TIMEOUT (R173): 10 µs since the first frame of the open fill page. -/
def execFillPageTimeout (q : Nat) (s : State) : Result :=
  .next (s.only (decide (q < 328)) (let x := s.queueOf q
    { s.setQueue q { x with pages := State.closeFill x.pages s.sx.closes } with sx.closes := s.sx.closes + 1 }))

/-- HAMPER_PAGE_WRITTEN (R174, R181): the oldest closed page of all stands in DRAM; `q` is its queue. In SEALED it is
encrypted (R394), and waits while no pair is in service (R395) or node 6 gives no key (log 76). -/
def execHamperPageWritten (q : Nat) (s : State) : Result :=
  .next (s.only (decide (q < 328)) (match s.closedPage q with
    | some (k, p) =>
      if s.runMode p.epoch = 2 ∧ s.pairs.isEmpty then s
      else if s.runMode p.epoch = 2 then
        match s.hamKeys with
        | (t, some key) =>
          ((t.pageToDram q k true (State.hamEnc key t.freePageNo p.cells)).bump F.CE_HAM_ENC_PAGES_COUNT).pmu 0x46 0
        | (t, none) => t
      else s.pageToDram q k false p.cells
    | none => s))

/-- REFILL_START (R175): a page in DRAM starts to be read; a page still in staging joins the head at once.
FREE of at least 16 cells is asked of both: DESIGN CHOICE (log 105). -/
def execRefillStart (q : Nat) (s : State) : Result :=
  .next (s.only (decide (q < 328)) (if s.wantsRefill q ∧ s.refillTurn q ∧ s.freeCells none ≥ 16 then
      match s.nextPage q with
      | (some p, n) =>
        if p.state = .dram then
          let x := s.queueOf q
          (s.setQueue q { x with pages := x.pages.modify n (fun p => { p with state := .refilling }) }).refillServed q
        else (s.refillPage q false).refillServed q
      | (none, _) => s
    else s))

/-- REFILL_DONE (R175): an encrypted page waits while no pair is in service (R395). -/
def execRefillDone (q : Nat) (s : State) : Result :=
  .next (s.only (decide (q < 328)) (match (s.queueOf q).pages with
    | p :: _ => if p.state = .refilling ∧ !(p.enc && s.pairs.isEmpty) then s.refillPage q true else s
    | [] => s))

/-- PAGE_RETURN (R178, R179, R185): the oldest detached chain returns to the free list, and its frames are counted. -/
def execPageReturn (s : State) : Result :=
  .next (match s.sx.detached with
    | d :: rest =>
      let t := { s with sx.detached := rest }
      (t.forEach d.pages (fun t p => t.dropPage d.port d.aged p)).checkMarks
    | [] => s)

/-- HAMPER_DRAINED (R170, R90). -/
def execHamperDrained (s : State) : Result :=
  .next (if s.hamState = 2 ∧ s.hamUsed = 0 then s.hamJudge else s)

/-- HAMPER_PAGE_UE (R180, R125): an uncorrectable error while page k of the queue is read. -/
def execHamperPageUe (q k : Nat) (s : State) : Result :=
  .next (s.only (decide (q < 328)) (let x := s.queueOf q
    match x.pages[k]? with
    | some p =>
      if p.state = .refilling then
        let lost := (pagesAfterLoss x.pages k).2
        (((s.losePage q k p.no).dramUe (s.dramTop + 4096 * p.no)).fault 0x07 0 p.no lost.length).drainDone
      else s
    | none => s))

end Sys2Proof.Machine
end

