-- ==== Sys2Proof/Machine/Cipher.lean ====
section
/-!
DEFINITION. The meanings of the cipher engines' commands on Ethernet frames and of the derivation of working keys
(13_cipher.md).
-/

namespace Sys2Proof.Machine

/-- CE_DECRYPT (R27, R390, R391): CE takes the frame at step 6, in the order of its port, or ends its verification. In
SWIFT it may start on a frame whose SL is 0 before the end of frame. It ends also for a frame that policy has dropped, which
may be learned (R206). -/
def execCeDecrypt (id : Nat) (s : State) : Result :=
  .next (match s.frameOf id with
    | some f =>
      if f.zombie then s
      else match f.ce with
        | some w => if !w.done ∧ f.rxDone ∧ (f.verdict ≠ .drop ∨ f.good) then s.ceVerified id f w else s
        | none =>
          let early := s.effMode f.epoch = 0 ∧ (parseSecTag f.bytes).wellFormed f.bytes ∧ (parseSecTag f.bytes).sl = 0
          if f.stage = .looked ∧ f.pass = 1 ∧ f.verdict = .ok ∧ s.rxChecks f ∧ s.ceTurn id f ∧
              (f.rxDone ∨ early ∨ beAt f.bytes 12 2 ≠ 0x88E5) then s.ceReceive id f
          else s
    | none => s)

/-- CE_ENCRYPT (R389, R392): step 9 of the frame at the head of a MAC transmit queue. -/
def execCeEncrypt (port m : Nat) (s : State) : Result :=
  .next (s.only (decide (port < 41 ∧ m < 4)) (match s.mqOf port m with
    | c :: rest =>
      match s.frameOf c.frame with
      | some f =>
        if !s.ceAtStep9 f port ∨ c.sealed.isSome ∨ s.mustDrop c.frame then s
        else if s.cfg f.epoch (F.CE_PORT_CFG_TX_EN port) = 0 then
          ((s.bump F.CE_TX_UNPROT_DROP_COUNT).ceTxDrop port m c rest).drainUnless s.drained
        else (s.ceProtect port m c rest f).drainUnless s.drained
      | none => s
    | [] => s))

/-- KEY_DERIVE (R384, R385): KX derives the key of a context that a frame waits for. -/
def execKeyDerive (ctx : Nat) (s : State) : Result :=
  .next (s.only (decide (ctx < 4096)) (if s.ce.waiting.contains ctx then
      let t := { s with ce.waiting := s.ce.waiting.filter (fun c => decide (c ≠ ctx)) }
      let u := if t.ctxValid ctx then t.ctxJudge ctx else t
      if u.ctxValid ctx ∧ u.ctxState ctx = 1 then u.ctxDerive ctx else u
    else s))

end Sys2Proof.Machine
end

