-- ==== Sys2Proof/Machine/Egress.lean ====
section
/-!
DEFINITION. The meanings of the commands of egress (08_policy_scheduling.md, R137, R139, R140): hand-over, launch,
transmission, stomping and transit errors.
-/

namespace Sys2Proof.Machine

/-- SC_HANDOVER (R24, R244, R245): heads that must go leave first; then the head of the chosen queue is handed over. -/
def execScHandover (port : Nat) (s : State) : Result :=
  .next (State.drainDone (s.only (decide (port < 41)) (let t := s.forEach (List.range 8) (fun t i => t.cleanQueue (qOf port i) ((t.queueOf (qOf port i)).die.length))
    match t.choose port with
    | (u, some tc) => u.handOver port tc
    | (u, none) => u)))

/-- LAUNCH_ELIGIBLE (R252, R253): the head of a timed queue becomes eligible, 2 µs before its launch time; a late head is
dropped, or its launch hold is lifted. -/
def execLaunchEligible (q : Nat) (s : State) : Result :=
  .next (s.only (decide (q < 328)) (if s.launchNear q then (s.judgeHead q).drainUnless s.drained else s))

/-- SHAPER_CREDIT_RESTORED (R246). -/
def execShaperCreditRestored (q : Nat) (s : State) : Result :=
  .next (s.only (decide (q < 328)) (let x := s.queueOf q
    if s.shaped q then s.setQueue q { x with credit := max 0 (s.creditNow q), creditAt := s.now } else s))

/-- TX_START (R139, R140, R144): the MAC starts the head of the highest MQ whose head is not held, on a T1S port when its
line is free. -/
def execTxStart (port : Nat) (s : State) : Result :=
  .next (if hasMac port ∧ s.portUp port ∧ s.txOf port = none ∧ s.lineFree port then
      let t := s.forEach [0, 0, 1, 1, 2, 2, 3, 3] (fun t m => t.cleanMq port m)
      match [3, 2, 1, 0].find? (fun m => (t.mqOf port m).head?.any t.startable) with
      | some m =>
        match t.mqOf port m with
        | c :: rest =>
          let early := match t.frameOf c.frame with | some f => !f.rxDone | none => false
          let u := ((t.setMq port m rest).setTx port (some ⟨c, t.now, early, [], [], none⟩)).plcaStart port
          ((u.noteCut c).egressStamp c).drainUnless s.drained
        | [] => t.drainUnless s.drained
      | none => t.drainUnless s.drained
    else s)

/-- LAUNCH_TIME_REACHED (R252): the frame held at the head of an MQ is released. -/
def execLaunchTimeReached (port m : Nat) (s : State) : Result :=
  .next (s.only (decide (port < 41 ∧ m < 4)) (match s.mqOf port m with
    | c :: rest => s.setMq port m ({ c with hold := false } :: rest)
    | [] => s))

/-- TX_END_OF_FRAME (R137, R139, R157, R160): a copy has been sent whole; a copy to P39 has been taken whole by SV, or
is discarded there for its verdict. -/
def execTxEndOfFrame (port : Nat) (s : State) : Result :=
  .next (State.drainDone (s.only (decide (port < 41)) (match s.txOf port with
    | some t =>
      match s.frameOf t.copy.frame with
      | some f =>
        if !State.isWhole f then s
        else if port = 39 then
          if f.verdict = .ok then
            let bs := s.egressBytes f 39
            let u := (((s.bump64 (R.PX_TX_FRAMES 39)).bump64 (R.PX_TX_BYTES 39) (bs.length + 4)).csuSee 2 39
              (bs ++ fcsBytes bs)).emit (.frame 39 (bs ++ fcsBytes bs))
            (((u.eapolRelay f).setTx 39 none).pegDone f (some t.copy) (some s.now) false false t.copy.cut 0).copyGone t.copy.frame true
          else ((s.setTx 39 none).bump F.SX_DROP_VERDICT_COUNT).dropCopy t.copy 10
        else if hasMac port ∧ f.verdict = .ok then
          s.sentAs t (s.leaving t.copy ++ fcsBytes (s.leaving t.copy)) false
        else s
      | none => s.setTx port none
    | none => s)))

/-- STOMP (R24, R25, R137): a fault reaches the egress MAC, which has begun `sent` bytes of the frame. -/
def execStomp (port sent : Nat) (s : State) : Result :=
  .next (State.drainDone (match s.txOf port with
    | some t => if hasMac port ∧ s.mustDrop t.copy.frame then s.stomp port sent else s
    | none => s))

/-- TX_UNDERRUN (R137, R157). -/
def execTxUnderrun (port sent : Nat) (s : State) : Result :=
  .next (State.drainDone (match s.txOf port with
    | some _ =>
      if hasMac port then
        ((((s.stomp port sent).bump (F.PX_TX_UNDERRUN_COUNT port)).portEvent 7 port).fault 0x13 port 0)
      else s
    | none => s))

namespace State

/-- Parity errors of a stage within 100 µs (R125). -/
def parityOf (s : State) (unit : Nat) : List Nat :=
  (Sparse.get (fun _ => []) s.fx.parityAt unit).filter (fun t => decide (s.now < 100000 + t))

/-- The frames in the pipeline at a stall, at most 64, are lost (R125). -/
def stallLosses (s : State) : List Nat :=
  ((s.allFrames.filter (fun e => e.2.stage == .looked && !e.2.zombie)).map (·.1)).take 64

/-- A parity storm stalls a pipeline stage (R125). -/
def parityStorm (s : State) (unit : Nat) : State :=
  let lost := s.stallLosses
  let t := s.forEach lost (fun t id => t.dropFrame id 4)
  { t with fx.stalled := setBit t.fx.stalled unit }.fault 0x02 unit lost.length lost.length

end State

/-- TRANSIT_PARITY_ERROR (R28, R125): on a bus segment, or pipeline stage, carrying a frame; the eighth within 100 µs
is a storm. Segments and stages share one numbering of units: DESIGN CHOICE (log 104). -/
def execTransitParityError (unit id : Nat) (s : State) : Result :=
  .next (s.only (decide (unit < 65536)) (let port := match s.frameOf id with | some f => f.port | none => 0
    let t := (s.setDrop id).fault 0x01 unit port
    let l := s.now :: s.parityOf unit
    if l.length ≥ 8 then
      { t with fx.parityAt := Sparse.set (fun _ => []) t.fx.parityAt unit [] }.parityStorm unit |>.drainUnless s.drained
    else { t with fx.parityAt := Sparse.set (fun _ => []) t.fx.parityAt unit l }))

/-- PARITY_STORM_RESUME (R125). -/
def execParityStormResume (unit : Nat) (s : State) : Result :=
  .next (s.only (decide (unit < 65536)) ({ s with fx.stalled := clrBit s.fx.stalled unit }))

end Sys2Proof.Machine
end

