-- ==== Sys2Proof/Machine/Ingress.lean ====
section
/-!
DEFINITION. The meanings of the commands of frame reception (05_ports.md, R132 to R136; steps 1 and 2 of a frame's
journey).
-/

namespace Sys2Proof.Machine

/-- RX_START_OF_FRAME (R22, R132): `directive` is the egress directive of a frame that SV enters at P39 (R196), and
counts at no other port. -/
def execRxStartOfFrame (port directive : Nat) (s : State) : Result :=
  .next (if port < 41 ∧ s.portUp port ∧ s.rxOf port = none ∧ !s.px.jabbering.testBit port then
      s.startFrame port (if port = 39 then some directive else none)
    else s)

/-- RX_RUNT_MIN_REACHED (R132, R160, R161): the bytes up to byte RUNT_MIN; the first cell is requested. -/
def execRxRuntMinReached (port : Nat) (bytes : List Byte) (s : State) : Result :=
  .next (s.only (decide (port < 41)) (match s.rxOf port with
    | some id => (s.addBytes id bytes).cellsUpTo id
    | none => s))

/-- RX_CELL_ALLOCATE (R160, R161): further bytes, and the cell they need. -/
def execRxCellAllocate (port : Nat) (bytes : List Byte) (s : State) : Result :=
  .next (s.only (decide (port < 41)) (match s.rxOf port with
    | some id => (s.addBytes id bytes).cellsUpTo id
    | none => s))

/-- RX_OVERSIZE (R133): byte MAX_LEN + 1 arrives; the frame ends there and the rest of it is discarded. -/
def execRxOversize (port : Nat) (s : State) : Result :=
  .next (State.rxOver (s.only (decide (port < 41)) (match s.rxOf port with
    | some id =>
      let t := (s.rxAbort id port).bump (F.PX_RX_OVERSIZE_COUNT port)
      { t with sx.skip := setBit t.sx.skip port }
    | none => s)))

/-- RX_END_OF_FRAME (R132 to R136, R157): `bytes` are the bytes since the last command, FCS included; P36 to P39
supply an FCS of their own. -/
def execRxEndOfFrame (port : Nat) (bytes : List Byte) (s : State) : Result :=
  .next (s.only (decide (port < 41)) (s.endRx port bytes)).rxOver

/-- RX_CUT_SHORT (R132). -/
def execRxCutShort (port : Nat) (s : State) : Result := .next (s.only (decide (port < 41)) (s.cutRx port)).rxOver

end Sys2Proof.Machine
end

