-- ==== Sys2Proof/Machine/Rescue.lean ====
section
/-!
DEFINITION. The boot ROM's copy, and the download of RESCUE (17_firmware_update.md, R482 to R484, R487, R488).
-/

namespace Sys2Proof.Machine

namespace State

/-! ### The copy (R482) -/

/-- A slot of the copy is settled: its record is appended, and the next slot is taken up. -/
def copySlotEnds (s : State) (slot : Nat) : State :=
  let t := s.journalAppend slot
  { t with upd.copy.next := s.upd.copy.next.drop 1, upd.copy.retries := 0 }

/-- A slot's program does not read back as written (R484): a second failure leads to RESCUE. -/
def copyFails (s : State) (slot : Nat) : State :=
  let t := (s.nvErase (nvActive + 65536 * slot) 65536).nvProgramFail (nvActive + 65536 * slot) (s.copyImage0 slot)
  if s.upd.copy.retries ≥ 1 then { t with upd.copy.running := false }.enterRescue
  else { t with upd.copy.retries := s.upd.copy.retries + 1 }

/-- A slot is left unwritten, or erased, programmed, read back and compared (R482 step 3). -/
def copySlot (s : State) (slot : Nat) (ok : Bool) : State :=
  if s.slotSame slot then
    { s with upd.copy.unchanged := s.upd.copy.unchanged + 1 }.copySlotEnds slot
  else if ok then
    { s.slotWrite slot with upd.copy.written := s.upd.copy.written + 1 }.copySlotEnds slot
  else s.copyFails slot

/-- Step 4: the counter equals SVN, and COMPLETE is appended. -/
def copyComplete (s : State) : State :=
  let t := (s.blowFuses 256).journalAppend 0xFFFE
  { t with upd.copy.running := false, upd.copy.result := if s.upd.copy.resumed then 2 else 1 }

/-! ### RESCUE messages (R487, R490) -/

/-- A message as its bytes: TYPE, LEN, SEQ, payload, CRC. -/
def rescueMsg (type seq : Nat) (payload : List Byte) : List Byte :=
  let m := beBytes 2 type ++ beBytes 2 payload.length ++ beBytes 4 seq ++ payload
  m ++ beBytes 4 (crc32c m)

/-- A message is whole, and its CRC holds. -/
def rescueWhole (msg : List Byte) : Bool :=
  let n := msg.length
  decide (12 ≤ n) && decide (beAt msg 2 2 + 12 = n) && decide (beAt msg (n - 4) 4 = crc32c (msg.take (n - 4)))

/-- The message that begins where the bytes do, as long as LEN says. -/
def rescueHead (bs : List Byte) : List Byte := bs.take (beAt bs 2 2 + 12)

/-- The first message in what DBG_UART receives (R487): each stands behind 0x55 0xAA, and after a CRC failure the search
for the next pair goes on behind the message that failed (log 25). -/
def uartMsg : Nat → List Byte → Option (List Byte)
  | 0, _ => none
  | n + 1, a :: b :: rest =>
    if a = 0x55 ∧ b = 0xAA then
      let m := rescueHead rest
      if rescueWhole m then some m else uartMsg n (rest.drop m.length)
    else uartMsg n (b :: rest)
  | _, _ => none

/-- The message in a frame of P40 (R487), of EtherType 0x88B5. -/
def p40Msg (f : List Byte) : Option (List Byte) :=
  let m := rescueHead (f.drop 14)
  if beAt f 12 2 = 0x88B5 ∧ rescueWhole m then some m else none

/-- The message of a TYPE that a link delivers: in bytes of DBG_UART (link 0), or in a frame of P40 (link 1). -/
def rescueMsgOf (link : Nat) (bs : List Byte) (type : Nat) : Option (List Byte) :=
  (if link % 2 = 0 then uartMsg bs.length bs else p40Msg bs).filter (fun m => decide (beAt m 0 2 = type))

/-- The bytes that a link sends for a message: behind 0x55 0xAA, or as a frame with these MACs, padded to 60 bytes, and
its FCS. -/
def rescueBytes (link : Nat) (dst src msg : List Byte) : List Byte :=
  if link % 2 = 0 then [0x55, 0xAA] ++ msg
  else
    let f := dst ++ src ++ beBytes 2 0x88B5 ++ msg
    let padded := f ++ List.replicate (60 - f.length) 0
    padded ++ fcsBytes padded

/-- A message leaves (R487). Its SEQ, the gateway's own MAC and, where `dst` names none, the destination MAC are free
values: the spec gives them for no message (log 25). -/
def rescueSend (s : State) (link type : Nat) (payload : List Byte) (dst : Option (List Byte)) : State :=
  let v := s.freeVal
  let mac := fun k => (List.range 6).map (fun i => freeByte v (k + i))
  s.useFree.emit (.rescueTx link (rescueBytes link (dst.getD (mac 10)) (mac 4) (rescueMsg type (v % 2 ^ 32) payload)))

/-- REPLY (R487): the SEQ that it answers and its CODE, on P40 to the source MAC of the request `bs`
(widths: log 25). -/
def rescueReply (s : State) (link : Nat) (bs msg : List Byte) (code : Nat) : State :=
  s.rescueSend link 5 (beBytes 4 (beAt msg 4 4) ++ [Byte.ofNat code]) (some (slice0 bs 6 6))

/-- The payload of HELLO (R487); the widths of its fields are the model's choice (log 25). -/
def helloPayload (id lc counter : Nat) (keys : Bool) (version : Nat) : List Byte :=
  beBytes 4 id ++ [Byte.ofNat lc, Byte.ofNat counter, if keys then 1 else 0] ++ beBytes 4 version

/-- Payload of a message. -/
def rescuePayload (msg : List Byte) : List Byte := (msg.drop 8).take (msg.length - 12)

/-- No tamper alarm is active (R488), in the sense of R95 and R369: no source at WIPE or WIPE_LOCK. -/
def quiet (s : State) : Bool := !s.startAlarm

/-- The key of node 7, where keys are available (R488). -/
def rescueKey (s : State) (sector : Nat) (pufOk : Bool) : Option Nat :=
  if s.quiet then s.romKey sector pufOk else none

/-- A keys-available flag as HELLO carries it. -/
def keysAvailable (s : State) (pufOk : Bool) : Bool :=
  s.quiet && pufOk && s.helperOk && !([0, 5].contains (lcOf s.nv.fuses))

/-- FW_VERSION of the active image, 0 where it is not authentic. -/
def rescueVersion (s : State) : Nat := if s.activeAuthentic then cField (s.slotZero nvActive) 512 4 else 0

/-- The checks of HEADER in RESCUE, in the order of R479 with R488's differences. -/
def rescueHeaderCheck (s : State) (link sector : Nat) (c : List Byte) (pufOk : Bool) : Option Nat :=
  if s.upd.rescue.link.any (fun l => decide (l ≠ link)) then some 2
  else if !cHeaderOk c [1, 2] ∨ c.length < cLen c then some 6
  else if !cPlain c ∧ (s.rescueKey sector pufOk).isNone then some 5
  else if !s.keyHashOk c then some 7
  else if cPlain c ∧ !cSigned c then some 0xC
  else if s.rollback c then some 8
  else none

/-- Journal sector 0 is erased and staging slot 0 written; the link owns the download. -/
def rescueHeaderTaken (s : State) (link sector : Nat) (c : List Byte) (key : Nat) (ok : Bool) : State :=
  let first := c.take (cLen c)
  let t := (s.nvErase nvJournal 4096).nvErase nvStaging 65536
  let u := if ok then t.nvProgram nvStaging first else t.nvProgramFail nvStaging first
  { u with
    upd.first := if ok then first else []
    upd.got := 0
    upd.rescue := ⟨some link, sector, key, [], []⟩ }

/-- The bytes of a block as its chunks brought them. -/
def rescueBlock (s : State) (b : Nat) : List Byte :=
  (List.range 65536).map (fun k => Sparse.get (fun _ => 0) s.upd.rescue.data (65536 * b + k))

/-- The block's check (R488). -/
def rescueBlockOk (s : State) (b : Nat) (data : List Byte) : Bool :=
  let c := s.upd.first
  if cPlain c then decide (Config.sha384 data = cDigest c b) else blockTagOk c s.upd.rescue.key b data

/-- A chunk is stored. -/
def rescueStore (s : State) (b off : Nat) (bytes : List Byte) : State :=
  let r := s.upd.rescue
  let data := (bytes.zip (List.range bytes.length)).foldl
    (fun m x => Sparse.set (fun _ => 0) m (65536 * b + off + x.2) x.1) r.data
  let mask := setBit (Sparse.get (fun _ => 0) r.chunks b) (off / 1024)
  let r' : RescueState := { r with data := data, chunks := Sparse.set (fun _ => 0) r.chunks b mask }
  { s with upd.rescue := r', upd.got := clrBit s.upd.got b }

/-- The chunks of a block are forgotten, and the block counts as received or not. -/
def rescueSettle (s : State) (b : Nat) (got : Bool) : State :=
  let r := s.upd.rescue
  let r' : RescueState := { r with
    chunks := Sparse.set (fun _ => 0) r.chunks b 0
    data := r.data.filter (fun e => decide (e.1 / 65536 ≠ b)) }
  { s with upd.rescue := r', upd.got := if got then setBit s.upd.got b else clrBit s.upd.got b }

/-- A block whose 64 chunks have arrived is checked and staged; the code of R490. -/
def rescueCheckBlock (s : State) (b : Nat) (ok : Bool) : State × Nat :=
  let data := s.rescueBlock b
  if !s.rescueBlockOk b data then ((s.rescueSettle b false).bump F.SV_UPD_TAG_FAIL_COUNT, 0xA)
  else
    let at_ := nvStaging + 65536 * (b + 1)
    let t := s.nvErase at_ 65536
    if ok then ((t.nvProgram at_ data).rescueSettle b true, 0)
    else ((t.nvProgramFail at_ data).rescueSettle b false, 0xD)

/-- A CHUNK: the state after it and its code. -/
def rescueChunk (s : State) (link : Nat) (p : List Byte) (ok : Bool) : State × Nat :=
  let b := beAt p 0 2
  let off := beAt p 2 4
  if s.upd.rescue.link.any (fun l => decide (l ≠ link)) then (s, 4)
  else if s.upd.first = [] then (s, 0xE)
  else if cBlocks s.upd.first ≤ b then (s, 9)
  else if off % 1024 ≠ 0 ∨ 65536 ≤ off ∨ p.length ≠ 1030 then (s, 0xF)
  else
    let t := s.rescueStore b off (p.drop 6)
    if Sparse.get (fun _ => 0) t.upd.rescue.chunks b = 2 ^ 64 - 1 then t.rescueCheckBlock b ok else (t, 0)

/-- The checks of ACTIVATE in RESCUE. -/
def rescueActivateCheck (s : State) (link : Nat) : Option Nat :=
  let c := s.upd.first
  if s.upd.rescue.link.any (fun l => decide (l ≠ link)) then some 4
  else if c = [] then some 0xE
  else if (List.range (cBlocks c)).any (fun b => !s.upd.got.testBit b) then some 0xB
  else if !(s.keyHashOk c && cSigned c) then some 0xC
  else if s.rollback c then some 8
  else none

/-- The journal is written with RESCUE set (R481, R488). -/
def rescueJournal (s : State) (ok : Bool) : State :=
  let h := journalHeader s.upd.first true s.upd.rescue.blobSector
  let t := s.nvErase nvJournal 65536
  if ok then t.nvProgram nvJournal h else t.nvProgramFail nvJournal h

end State

/-- COPY_SLOT_DONE (R482, R484): `ok` says that the slot's program reads back as written. -/
def execCopySlotDone (ok : Bool) (s : State) : Result :=
  .next (match s.upd.copy.next with
    | slot :: _ => if s.socUp ∧ s.upd.copy.running then s.copySlot slot ok else s
    | [] => s)

/-- COPY_COMPLETE (R482 step 4). -/
def execCopyComplete (s : State) : Result :=
  .next (if s.socUp ∧ s.upd.copy.running ∧ s.upd.copy.next = [] then s.copyComplete else s)

/-- RESCUE_BREAK (R95, R487): between the SoC power-on reset and the start of the active firmware. -/
def execRescueBreak (s : State) : Result :=
  .next (if s.socUp ∧ !s.pw.start.firmware ∧ !s.pw.rescue then
      if s.pw.start.tested then { s.copyCut with pw.rescueReq := true }.enterRescue
      else { s with pw.rescueReq := true }
    else s)

/-- RESCUE_HELLO (R487): on both links while idle. -/
def execRescueHello (pufOk : Bool) (s : State) : Result :=
  .next (if s.socUp ∧ s.pw.rescue ∧ s.upd.rescue.link = none then
      let p := State.helloPayload (s.rd R.SV_DEVICE_ID).toNat (s.rg F.KX_STAT_LC) s.nv.counter (s.keysAvailable pufOk)
        s.rescueVersion
      (s.rescueSend 0 1 p none).rescueSend 1 1 p none
    else s)

/-- RESCUE_HEADER (R487, R488): what a link receives, and the HEADER in it. -/
def execRescueHeader (link : Nat) (bs : List Byte) (flashOk pufOk : Bool) (s : State) : Result :=
  .next (match State.rescueMsgOf link bs 2 with
    | some msg =>
      if s.socUp ∧ s.pw.rescue then
        let p := State.rescuePayload msg
        let sector := beAt p 0 2
        let c := p.drop 2
        match s.rescueHeaderCheck (link % 2) sector c pufOk with
        | some code => s.rescueReply (link % 2) bs msg code
        | none =>
          (s.rescueHeaderTaken (link % 2) sector c ((s.rescueKey sector pufOk).getD 0) flashOk).rescueReply (link % 2) bs
            msg (if flashOk then 0 else 0xD)
      else s
    | none => s)

/-- RESCUE_CHUNK (R487, R488). -/
def execRescueChunk (link : Nat) (bs : List Byte) (flashOk : Bool) (s : State) : Result :=
  .next (match State.rescueMsgOf link bs 3 with
    | some msg =>
      if s.socUp ∧ s.pw.rescue then
        let (t, code) := s.rescueChunk (link % 2) (State.rescuePayload msg) flashOk
        t.rescueReply (link % 2) bs msg code
      else s
    | none => s)

/-- RESCUE_ACTIVATE (R488): the journal is written, and the ROM resets the SoC die. -/
def execRescueActivate (link : Nat) (bs : List Byte) (flashOk : Bool) (s : State) : Result :=
  .next (match State.rescueMsgOf link bs 4 with
    | some msg =>
      if s.socUp ∧ s.pw.rescue then
        match s.rescueActivateCheck (link % 2) with
        | some code => s.rescueReply (link % 2) bs msg code
        | none =>
          let t := (s.rescueJournal flashOk).rescueReply (link % 2) bs msg (if flashOk then 0 else 0xD)
          if flashOk then t.resetSoc 4 else t
      else s
    | none => s)

end Sys2Proof.Machine
end

