-- ==== Sys2Proof/Machine/Tamper.lean ====
section
/-!
DEFINITION. The meanings of the tamper commands (12_keys_lifecycle.md, R368 to R371; 03_startup_modes.md, R95). Sources:
0 IN0, 1 IN1, 2 MESH, 3 VOLT, 4 CLK, 5 TEMP.
-/

namespace Sys2Proof.Machine

namespace State

/-- The SoC die runs, and its key tree is not yet instantiated (R95). -/
def beforeTree (s : State) : Bool := !s.pw.start.tree && decide (s.mode ≠ 6)

/-- The source is latched and shown in alarm (R369, R379). -/
def tamperShow (s : State) (src : Nat) : State :=
  ((s.setRg F.KX_TAMPER_STAT_LATCH (setBit (s.rg F.KX_TAMPER_STAT_LATCH) src)).setRg F.KX_TAMPER_STAT_ACTIVE
    (setBit (s.rg F.KX_TAMPER_STAT_ACTIVE) src)).setRg F.KX_EV_LAST_SOURCE src

/-- An alarm aborts a CLEAR_LOCK with FAILED (R372). -/
def abortClear (s : State) : State :=
  match s.takeJob (fun j => decide (j.op = 6)) with
  | some (j, t) => t.kxResult j.agent j.node 0x0D
  | none => s

/-- RESCUE is entered for an alarm between the SoC power-on reset and the tree (R95): firmware that runs already is
left behind. -/
def alarmRescue (s : State) : State :=
  if s.pw.start.firmware then (s.socReset s.pw.cause).romStart
  else s.copyCut.enterRescue

/-- An alarm at a level in running operation, or in a start (R369, R370, R95). -/
def tamperRunning (s : State) (src level : Nat) : State :=
  if s.beforeTree ∧ 2 ≤ level then (s.alarmRescue.tamperShow src).tamperLog level
  else
    let t := ((s.abortClear.tamperShow src).tamperLog level)
    let u := if 2 ≤ level then t.wipe else t
    if level = 3 then u.wipeLock else u

/-- An alarm while the rails are off, or fall for LISTEN (R371): a LOG alarm is latched and recorded in the power die's
ring of R414, and wakes nothing. -/
def tamperListen (s : State) (src level : Nat) : State :=
  let t := { s with kx.listenLatch := setBit s.kx.listenLatch src }
  if level = 1 then t.wakeLog 0xA 0 none 0 0 (if t.inListen then 4 else 0)
  else
    let u := { t with kx.lockNext := true }
    if u.inListen ∨ u.toListen then u.wake 0xA 0 none 0 0 else u

/-- A tamper source enters its alarm condition. -/
def tamperAlarm (s : State) (src : Nat) : State :=
  if s.kx.alarms.testBit src ∨ s.pw.power = .off ∨ 6 ≤ src then s
  else
    let t := { s with kx.alarms := setBit s.kx.alarms src }
    if t.socUp then
      let level := if t.beforeTree then t.copyLevel src else tamperLevel t.tamperCfg src
      if level = 0 then t else t.tamperRunning src level
    else
      let level := t.copyLevel src
      if level = 0 ∨ t.pw.power = .trims ∨ t.pw.power = .up then t else t.tamperListen src level

/-- A tamper source leaves its alarm condition. -/
def tamperClear (s : State) (src : Nat) : State :=
  { s with kx.alarms := clrBit s.kx.alarms src }.setRg F.KX_TAMPER_STAT_ACTIVE
    (clrBit (s.rg F.KX_TAMPER_STAT_ACTIVE) src)

end State

/-- TAMPER_ALARM (R369, R371, R95). -/
def execTamperAlarm (src : Nat) (s : State) : Result := .next (s.tamperAlarm src)

/-- MESH_CHECK (R368): the lid mesh is found sound or not. -/
def execMeshCheck (ok : Bool) (s : State) : Result :=
  .next (if s.pw.power = .off then s else if ok then s.tamperClear 2 else s.tamperAlarm 2)

/-- TAMPER_ALARM_CLEARED (R368). -/
def execTamperAlarmCleared (src : Nat) (s : State) : Result := .next (if src < 6 then s.tamperClear src else s)

end Sys2Proof.Machine
end

