-- ==== Sys2Proof/Machine/Dispatch.lean ====
section
/-!
DEFINITION. The dispatch: one arm per command, each one call of the command's meaning.
-/

namespace Sys2Proof.Machine

def exec (i : Instr) (s : State) : Host.Outcome State Fault Refusal :=
  match i with
  | .registerWrite a off w data => Sys2Proof.Machine.execRegisterWrite a off w data s
  | .rcRead a off w => Sys2Proof.Machine.execRcRead a off w s
  | .counterLowRead a off => Sys2Proof.Machine.execCounterLowRead a off s
  | .obSnapTrigger a data => Sys2Proof.Machine.execObSnapTrigger a data s
  | .obSnapRelease a => Sys2Proof.Machine.execObSnapRelease a s
  | .obSnapTimeMatch => Sys2Proof.Machine.execObSnapTimeMatch s
  | .obSnapTsyncEdge pin rising => Sys2Proof.Machine.execObSnapTsyncEdge pin rising s
  | .obSnapDomainFreeze d => Sys2Proof.Machine.execObSnapDomainFreeze d s
  | .obSnapHoldMaxExpiry => Sys2Proof.Machine.execObSnapHoldMaxExpiry s
  | .powerDieMirrorRefresh => Sys2Proof.Machine.execPowerDieMirrorRefresh s
  | .evStatusWrite a n data => Sys2Proof.Machine.execEvStatusWrite a n data s
  | .rxStartOfFrame port directive => Sys2Proof.Machine.execRxStartOfFrame port directive s
  | .rxRuntMinReached port bytes => Sys2Proof.Machine.execRxRuntMinReached port bytes s
  | .rxCellAllocate port bytes => Sys2Proof.Machine.execRxCellAllocate port bytes s
  | .rxOversize port => Sys2Proof.Machine.execRxOversize port s
  | .rxEndOfFrame port bytes => Sys2Proof.Machine.execRxEndOfFrame port bytes s
  | .rxCutShort port => Sys2Proof.Machine.execRxCutShort port s
  | .fxPipelinePass id due => Sys2Proof.Machine.execFxPipelinePass id due s
  | .ceDecrypt id => Sys2Proof.Machine.execCeDecrypt id s
  | .secondPass id => Sys2Proof.Machine.execSecondPass id s
  | .sealCheck id => Sys2Proof.Machine.execSealCheck id s
  | .sxEnqueue id => Sys2Proof.Machine.execSxEnqueue id s
  | .ingressCopyWrite id => Sys2Proof.Machine.execIngressCopyWrite id s
  | .scHandover port => Sys2Proof.Machine.execScHandover port s
  | .launchEligible q => Sys2Proof.Machine.execLaunchEligible q s
  | .shaperCreditRestored q => Sys2Proof.Machine.execShaperCreditRestored q s
  | .ceEncrypt port m => Sys2Proof.Machine.execCeEncrypt port m s
  | .sealAdd port => Sys2Proof.Machine.execSealAdd port s
  | .txStart port => Sys2Proof.Machine.execTxStart port s
  | .launchTimeReached port m => Sys2Proof.Machine.execLaunchTimeReached port m s
  | .txEndOfFrame port => Sys2Proof.Machine.execTxEndOfFrame port s
  | .stomp port sent => Sys2Proof.Machine.execStomp port sent s
  | .txUnderrun port sent => Sys2Proof.Machine.execTxUnderrun port sent s
  | .transitParityError unit id => Sys2Proof.Machine.execTransitParityError unit id s
  | .parityStormResume unit => Sys2Proof.Machine.execParityStormResume unit s
  | .epochAdoption port => Sys2Proof.Machine.execEpochAdoption port s
  | .loaderStart => Sys2Proof.Machine.execLoaderStart s
  | .loadRecord => Sys2Proof.Machine.execLoadRecord s
  | .bootStitch => Sys2Proof.Machine.execBootStitch s
  | .bersanBankWrite n image => Sys2Proof.Machine.execBersanBankWrite n image s
  | .nvmOperation a op sector off bytes => Sys2Proof.Machine.execNvmOperation a op sector off bytes s
  | .flashOpComplete ok => Sys2Proof.Machine.execFlashOpComplete ok s
  | .modeReqPartial a => Sys2Proof.Machine.execModeReqPartial a s
  | .modeReqRun a => Sys2Proof.Machine.execModeReqRun a s
  | .modeReqListen a => Sys2Proof.Machine.execModeReqListen a s
  | .modeReqRescue a => Sys2Proof.Machine.execModeReqRescue a s
  | .modeReqFactory a => Sys2Proof.Machine.execModeReqFactory a s
  | .partialToRunStep => Sys2Proof.Machine.execPartialToRunStep s
  | .runEntry => Sys2Proof.Machine.execRunEntry s
  | .runToPartialStep => Sys2Proof.Machine.execRunToPartialStep s
  | .listenEntry => Sys2Proof.Machine.execListenEntry s
  | .railsOff => Sys2Proof.Machine.execRailsOff s
  | .vbatAonPowerOn => Sys2Proof.Machine.execVbatAonPowerOn s
  | .vbatAonBrownout => Sys2Proof.Machine.execVbatAonBrownout s
  | .pwTrimsLoaded => Sys2Proof.Machine.execPwTrimsLoaded s
  | .rtcCrystalStable => Sys2Proof.Machine.execRtcCrystalStable s
  | .railPgRise n => Sys2Proof.Machine.execRailPgRise n s
  | .railPgTimeout n => Sys2Proof.Machine.execRailPgTimeout n s
  | .railPgLost n => Sys2Proof.Machine.execRailPgLost n s
  | .railRetryTimer => Sys2Proof.Machine.execRailRetryTimer s
  | .socPowerOnRelease hostmode => Sys2Proof.Machine.execSocPowerOnRelease hostmode s
  | .romSelfTestDone pufOk => Sys2Proof.Machine.execRomSelfTestDone pufOk s
  | .firmwareStart => Sys2Proof.Machine.execFirmwareStart s
  | .pufReconstructed r => Sys2Proof.Machine.execPufReconstructed r s
  | .dramTrainingDone => Sys2Proof.Machine.execDramTrainingDone s
  | .serdesCalibrationDone => Sys2Proof.Machine.execSerdesCalibrationDone s
  | .dramZeroingDone => Sys2Proof.Machine.execDramZeroingDone s
  | .startRampDone => Sys2Proof.Machine.execStartRampDone s
  | .listenExit src unit => Sys2Proof.Machine.execListenExit src unit s
  | .resetNAsserted => Sys2Proof.Machine.execResetNAsserted s
  | .resetNReleased => Sys2Proof.Machine.execResetNReleased s
  | .svWatchdogExpiry => Sys2Proof.Machine.execSvWatchdogExpiry s
  | .lockstepMismatch => Sys2Proof.Machine.execLockstepMismatch s
  | .svResetSoc a data => Sys2Proof.Machine.execSvResetSoc a data s
  | .tack a set timeout => Sys2Proof.Machine.execTack a set timeout s
  | .tackCopyDone h => Sys2Proof.Machine.execTackCopyDone h s
  | .stitch a h persist => Sys2Proof.Machine.execStitch a h persist s
  | .stitchAt a h persist ti sec ns => Sys2Proof.Machine.execStitchAt a h persist ti sec ns s
  | .unpick a h => Sys2Proof.Machine.execUnpick a h s
  | .renew a h => Sys2Proof.Machine.execRenew a h s
  | .stitchAtTimeReached h => Sys2Proof.Machine.execStitchAtTimeReached h s
  | .stitchCommit h => Sys2Proof.Machine.execStitchCommit h s
  | .drainLimAgeDiscard => Sys2Proof.Machine.execDrainLimAgeDiscard s
  | .shadowWrite a off data => Sys2Proof.Machine.execShadowWrite a off data s
  | .txTimeout h => Sys2Proof.Machine.execTxTimeout h s
  | .mendStart a kind unit => Sys2Proof.Machine.execMendStart a kind unit s
  | .mendStop a id => Sys2Proof.Machine.execMendStop a id s
  | .bankTestFenceExpiry id => Sys2Proof.Machine.execBankTestFenceExpiry id s
  | .mendActivityEnd id result => Sys2Proof.Machine.execMendActivityEnd id result s
  | .faultBankFence bank cell => Sys2Proof.Machine.execFaultBankFence bank cell s
  | .hamperPageUe q k => Sys2Proof.Machine.execHamperPageUe q k s
  | .cipherMismatch pair ctx again => Sys2Proof.Machine.execCipherMismatch pair ctx again s
  | .pcsBlockLock port => Sys2Proof.Machine.execPcsBlockLock port s
  | .pcsLockLoss port => Sys2Proof.Machine.execPcsLockLoss port s
  | .pcsFaultReceived port isLocal => Sys2Proof.Machine.execPcsFaultReceived port isLocal s
  | .controlWordReceived port rate => Sys2Proof.Machine.execControlWordReceived port rate s
  | .portFlushComplete port => Sys2Proof.Machine.execPortFlushComplete port s
  | .pauseReceived port dmac opcode quanta => Sys2Proof.Machine.execPauseReceived port dmac opcode quanta s
  | .pfcReceived port opcode en quanta => Sys2Proof.Machine.execPfcReceived port opcode en quanta s
  | .pauseExpiry port target => Sys2Proof.Machine.execPauseExpiry port target s
  | .pauseWdTrip port target => Sys2Proof.Machine.execPauseWdTrip port target s
  | .pauseHoldoffEnd port => Sys2Proof.Machine.execPauseHoldoffEnd port s
  | .beaconLoss n => Sys2Proof.Machine.execBeaconLoss n s
  | .beaconReceived n => Sys2Proof.Machine.execBeaconReceived n s
  | .nodeIdCollision n => Sys2Proof.Machine.execNodeIdCollision n s
  | .jabber n => Sys2Proof.Machine.execJabber n s
  | .quarantineEnd n => Sys2Proof.Machine.execQuarantineEnd n s
  | .quarantineRelease a n data => Sys2Proof.Machine.execQuarantineRelease a n data s
  | .mdioPoll reg1 reg5 reg10 => Sys2Proof.Machine.execMdioPoll reg1 reg5 reg10 s
  | .mdioAccess a data => Sys2Proof.Machine.execMdioAccess a data s
  | .mdioDone data => Sys2Proof.Machine.execMdioDone data s
  | .fillPageTimeout q => Sys2Proof.Machine.execFillPageTimeout q s
  | .hamperPageWritten q => Sys2Proof.Machine.execHamperPageWritten q s
  | .refillStart q => Sys2Proof.Machine.execRefillStart q s
  | .refillDone q => Sys2Proof.Machine.execRefillDone q s
  | .pageReturn => Sys2Proof.Machine.execPageReturn s
  | .hamperDrained => Sys2Proof.Machine.execHamperDrained s
  | .patrolScrub table entry kind => Sys2Proof.Machine.execPatrolScrub table entry kind s
  | .learnCommit => Sys2Proof.Machine.execLearnCommit s
  | .ageTick => Sys2Proof.Machine.execAgeTick s
  | .pgRejoin pg member => Sys2Proof.Machine.execPgRejoin pg member s
  | .frerReset h => Sys2Proof.Machine.execFrerReset h s
  | .fdbRead a => Sys2Proof.Machine.execFdbRead a s
  | .fdbSearch a => Sys2Proof.Machine.execFdbSearch a s
  | .fdbDelete a => Sys2Proof.Machine.execFdbDelete a s
  | .fdbFlush a => Sys2Proof.Machine.execFdbFlush a s
  | .fdbOpDone => Sys2Proof.Machine.execFdbOpDone s
  | .gclEntryChange port => Sys2Proof.Machine.execGclEntryChange port s
  | .gclStart port => Sys2Proof.Machine.execGclStart port s
  | .sgateEntryChange g => Sys2Proof.Machine.execSgateEntryChange g s
  | .psfpClearFilter a idx => Sys2Proof.Machine.execPsfpClearFilter a idx s
  | .psfpClearGate a g => Sys2Proof.Machine.execPsfpClearGate a g s
  | .tiAdjWrite a idx data => Sys2Proof.Machine.execTiAdjWrite a idx data s
  | .tiStep a idx => Sys2Proof.Machine.execTiStep a idx s
  | .tiSet a idx => Sys2Proof.Machine.execTiSet a idx s
  | .tiUnset a idx => Sys2Proof.Machine.execTiUnset a idx s
  | .tiTimeRead a idx => Sys2Proof.Machine.execTiTimeRead a idx s
  | .syncReceived idx port domain offset gmid prio => Sys2Proof.Machine.execSyncReceived idx port domain offset gmid prio s
  | .syncTimeout idx other => Sys2Proof.Machine.execSyncTimeout idx other s
  | .settleExpiry idx => Sys2Proof.Machine.execSettleExpiry idx s
  | .syncTransmit idx => Sys2Proof.Machine.execSyncTransmit idx s
  | .tsyncInEdge k rising => Sys2Proof.Machine.execTsyncInEdge k rising s
  | .tsiPop a k => Sys2Proof.Machine.execTsiPop a k s
  | .tsyncOutEdge k => Sys2Proof.Machine.execTsyncOutEdge k s
  | .fbtcPair => Sys2Proof.Machine.execFbtcPair s
  | .pairGo a data => Sys2Proof.Machine.execPairGo a data s
  | .canIntegrated c => Sys2Proof.Machine.execCanIntegrated c s
  | .canConfigApplied c => Sys2Proof.Machine.execCanConfigApplied c s
  | .canTxreq a c w data => Sys2Proof.Machine.execCanTxreq a c w data s
  | .canTxcan a c w data => Sys2Proof.Machine.execCanTxcan a c w data s
  | .canRxack a c w data => Sys2Proof.Machine.execCanRxack a c w data s
  | .canRecover a c => Sys2Proof.Machine.execCanRecover a c s
  | .canTxChoice c ecc word => Sys2Proof.Machine.execCanTxChoice c ecc word s
  | .canTxCommit c => Sys2Proof.Machine.execCanTxCommit c s
  | .canTxDone c edges => Sys2Proof.Machine.execCanTxDone c edges s
  | .canArbLost c => Sys2Proof.Machine.execCanArbLost c s
  | .canRxFrame c f stamp => Sys2Proof.Machine.execCanRxFrame c f stamp s
  | .canProtocolException c xl => Sys2Proof.Machine.execCanProtocolException c xl s
  | .canBusError c code dataPhase severe exempt edges => Sys2Proof.Machine.execCanBusError c code dataPhase severe exempt edges s
  | .canRecoveryDone c => Sys2Proof.Machine.execCanRecoveryDone c s
  | .gwRouteLookup c ecc word => Sys2Proof.Machine.execGwRouteLookup c ecc word s
  | .gwHoldDeadline t => Sys2Proof.Machine.execGwHoldDeadline t s
  | .pqCommit q => Sys2Proof.Machine.execPqCommit q s
  | .pqRewind q => Sys2Proof.Machine.execPqRewind q s
  | .pqUpRead q errs => Sys2Proof.Machine.execPqUpRead q errs s
  | .pqDownWrite q => Sys2Proof.Machine.execPqDownWrite q s
  | .gwDownPacket q errs => Sys2Proof.Machine.execGwDownPacket q errs s
  | .pqReset a q => Sys2Proof.Machine.execPqReset a q s
  | .invalidate a node => Sys2Proof.Machine.execInvalidate a node s
  | .rebind a node => Sys2Proof.Machine.execRebind a node s
  | .importKey a node form data => Sys2Proof.Machine.execImportKey a node form data s
  | .exportKey a node => Sys2Proof.Machine.execExportKey a node s
  | .zeroise a => Sys2Proof.Machine.execZeroise a s
  | .clearLock a => Sys2Proof.Machine.execClearLock a s
  | .clearLockDone r => Sys2Proof.Machine.execClearLockDone r s
  | .lcAdvance a target => Sys2Proof.Machine.execLcAdvance a target s
  | .enroll a => Sys2Proof.Machine.execEnroll a s
  | .kxCommandDone ok => Sys2Proof.Machine.execKxCommandDone ok s
  | .keyDerive ctx => Sys2Proof.Machine.execKeyDerive ctx s
  | .tamperAlarm src => Sys2Proof.Machine.execTamperAlarm src s
  | .meshCheck ok => Sys2Proof.Machine.execMeshCheck ok s
  | .keyRemask => Sys2Proof.Machine.execKeyRemask s
  | .trngHealthFail => Sys2Proof.Machine.execTrngHealthFail s
  | .trngHealthPass => Sys2Proof.Machine.execTrngHealthPass s
  | .keepaliveRecognised src => Sys2Proof.Machine.execKeepaliveRecognised src s
  | .keepaliveTx d => Sys2Proof.Machine.execKeepaliveTx d s
  | .foldCommit d => Sys2Proof.Machine.execFoldCommit d s
  | .foldComplete d => Sys2Proof.Machine.execFoldComplete d s
  | .domainWake d src unit => Sys2Proof.Machine.execDomainWake d src unit s
  | .wakeInActive pin => Sys2Proof.Machine.execWakeInActive pin s
  | .canWufReceived c id ide => Sys2Proof.Machine.execCanWufReceived c id ide s
  | .canKaWake c id ide => Sys2Proof.Machine.execCanKaWake c id ide s
  | .t1sEnergy n => Sys2Proof.Machine.execT1sEnergy n s
  | .foldCmdWake a data => Sys2Proof.Machine.execFoldCmdWake a data s
  | .foldCmdForgive a data => Sys2Proof.Machine.execFoldCmdForgive a data s
  | .foldNeedWrite a data => Sys2Proof.Machine.execFoldNeedWrite a data s
  | .wakeHoldEnd d => Sys2Proof.Machine.execWakeHoldEnd d s
  | .wakeValidityDecision k => Sys2Proof.Machine.execWakeValidityDecision k s
  | .wakeMaskEnd idx => Sys2Proof.Machine.execWakeMaskEnd idx s
  | .overstayA d => Sys2Proof.Machine.execOverstayA d s
  | .overstayB d => Sys2Proof.Machine.execOverstayB d s
  | .rtcSet => Sys2Proof.Machine.execRtcSet s
  | .rtcAlarm => Sys2Proof.Machine.execRtcAlarm s
  | .lsUpdate meas mw => Sys2Proof.Machine.execLsUpdate meas mw s
  | .shortTrip ch => Sys2Proof.Machine.execShortTrip ch s
  | .inrushEnd ch demand => Sys2Proof.Machine.execInrushEnd ch demand s
  | .reenable a data => Sys2Proof.Machine.execReenable a data s
  | .vbatUndervoltage => Sys2Proof.Machine.execVbatUndervoltage s
  | .vbatRecovered => Sys2Proof.Machine.execVbatRecovered s
  | .totalCurrentShed first => Sys2Proof.Machine.execTotalCurrentShed first s
  | .dissipationHigh => Sys2Proof.Machine.execDissipationHigh s
  | .powerDieLinkRefresh => Sys2Proof.Machine.execPowerDieLinkRefresh s
  | .holdExpired => Sys2Proof.Machine.execHoldExpired s
  | .clusterRelease => Sys2Proof.Machine.execClusterRelease s
  | .imageCopyDone ok => Sys2Proof.Machine.execImageCopyDone ok s
  | .coreStart a data => Sys2Proof.Machine.execCoreStart a data s
  | .dvfsRequest a data => Sys2Proof.Machine.execDvfsRequest a data s
  | .dvfsDone => Sys2Proof.Machine.execDvfsDone s
  | .coreWfiOffline k => Sys2Proof.Machine.execCoreWfiOffline k s
  | .offlineGraceExpiry k => Sys2Proof.Machine.execOfflineGraceExpiry k s
  | .tagPop a k => Sys2Proof.Machine.execTagPop a k s
  | .ringTailWrite a off data => Sys2Proof.Machine.execRingTailWrite a off data s
  | .hpRxWrite port ecc => Sys2Proof.Machine.execHpRxWrite port ecc s
  | .hpTxFrame port ecc => Sys2Proof.Machine.execHpTxFrame port ecc s
  | .hpCoalTimer r => Sys2Proof.Machine.execHpCoalTimer r s
  | .dramUe addr load => Sys2Proof.Machine.execDramUe addr load s
  | .dramScrubPassDone => Sys2Proof.Machine.execDramScrubPassDone s
  | .outboundAccess a write addr size data => Sys2Proof.Machine.execOutboundAccess a write addr size data s
  | .outboundCompletion n ok data => Sys2Proof.Machine.execOutboundCompletion n ok data s
  | .outboundReadTimeout n => Sys2Proof.Machine.execOutboundReadTimeout n s
  | .prefetchExpiry w => Sys2Proof.Machine.execPrefetchExpiry w s
  | .inboundRequest write addr size data ecc => Sys2Proof.Machine.execInboundRequest write addr size data ecc s
  | .pcieErrorMessage addr fatal => Sys2Proof.Machine.execPcieErrorMessage addr fatal s
  | .pcieReset => Sys2Proof.Machine.execPcieReset s
  | .pcieLinkChange up gen width => Sys2Proof.Machine.execPcieLinkChange up gen width s
  | .rootMsiWrite data => Sys2Proof.Machine.execRootMsiWrite data s
  | .msiDataPop a => Sys2Proof.Machine.execMsiDataPop a s
  | .fenceClr a data => Sys2Proof.Machine.execFenceClr a data s
  | .updOpen a => Sys2Proof.Machine.execUpdOpen a s
  | .updHeader a addr => Sys2Proof.Machine.execUpdHeader a addr s
  | .updBlock a index addr => Sys2Proof.Machine.execUpdBlock a index addr s
  | .updActivate a => Sys2Proof.Machine.execUpdActivate a s
  | .updClose a => Sys2Proof.Machine.execUpdClose a s
  | .updSessionTimeout => Sys2Proof.Machine.execUpdSessionTimeout s
  | .copySlotDone ok => Sys2Proof.Machine.execCopySlotDone ok s
  | .copyComplete => Sys2Proof.Machine.execCopyComplete s
  | .migration => Sys2Proof.Machine.execMigration s
  | .rescueBreak => Sys2Proof.Machine.execRescueBreak s
  | .rescueHello pufOk => Sys2Proof.Machine.execRescueHello pufOk s
  | .rescueHeader link msg flashOk pufOk => Sys2Proof.Machine.execRescueHeader link msg flashOk pufOk s
  | .rescueChunk link msg flashOk => Sys2Proof.Machine.execRescueChunk link msg flashOk s
  | .rescueActivate link msg flashOk => Sys2Proof.Machine.execRescueActivate link msg flashOk s
  | .slotClr a data => Sys2Proof.Machine.execSlotClr a data s
  | .slotAccount back => Sys2Proof.Machine.execSlotAccount back s
  | .ringRecordWrite r => Sys2Proof.Machine.execRingRecordWrite r s
  | .csuFrameEnd u => Sys2Proof.Machine.execCsuFrameEnd u s
  | .csuHold a u => Sys2Proof.Machine.execCsuHold a u s
  | .csuHoldAck u => Sys2Proof.Machine.execCsuHoldAck u s
  | .csuClear a u => Sys2Proof.Machine.execCsuClear a u s
  | .csuReattach a => Sys2Proof.Machine.execCsuReattach a s
  | .csuRunWrite a u data => Sys2Proof.Machine.execCsuRunWrite a u data s
  | .ledgerFlush => Sys2Proof.Machine.execLedgerFlush s
  | .ledgerScan => Sys2Proof.Machine.execLedgerScan s
  | .ledgerVerify a => Sys2Proof.Machine.execLedgerVerify a s
  | .ledgerVerifyDone => Sys2Proof.Machine.execLedgerVerifyDone s
  | .pcsFaultCleared port => Sys2Proof.Machine.execPcsFaultCleared port s
  | .jabberLineIdle n => Sys2Proof.Machine.execJabberLineIdle n s
  | .bersanSessionOpen n node port tagged udp => Sys2Proof.Machine.execBersanSessionOpen n node port tagged udp s
  | .bersanSessionClose n => Sys2Proof.Machine.execBersanSessionClose n s
  | .coreCycle k retired wasted front events decoded tag bytes => Sys2Proof.Machine.execCoreCycle k retired wasted front events decoded tag bytes s
  | .tamperAlarmCleared src => Sys2Proof.Machine.execTamperAlarmCleared src s

end Sys2Proof.Machine
end

