-- ==== Sys2Proof/Safety.lean ====
section
/-!
DEFINITION. What the claims speak of: the parts of the state, what a command may touch, the canonical form of the
memories, and what no command may break.
-/

namespace Sys2Proof.Machine

/-- The parts of the state, one for each field of State. -/
inductive Part where
  | pending | now | freeN | out | resp | regs | active | shadow | swapped | epochs | latches | mirror | scope
  | pw | sv | mend | sx | fx | te | ob | px | nv | kx | ce | upd | bx | aon | cx | mx
  deriving DecidableEq, Repr

/-- The part reads the same in two states. -/
def Part.same (s t : State) : Part → Prop
  | .pending => t.pending = s.pending
  | .now => t.now = s.now
  | .freeN => t.freeN = s.freeN
  | .out => t.out = s.out
  | .resp => t.resp = s.resp
  | .regs => t.regs = s.regs
  | .active => t.active = s.active
  | .shadow => t.shadow = s.shadow
  | .swapped => t.swapped = s.swapped
  | .epochs => t.epochs = s.epochs
  | .latches => t.latches = s.latches
  | .mirror => t.mirror = s.mirror
  | .scope => t.scope = s.scope
  | .pw => t.pw = s.pw
  | .sv => t.sv = s.sv
  | .mend => t.mend = s.mend
  | .sx => t.sx = s.sx
  | .fx => t.fx = s.fx
  | .te => t.te = s.te
  | .ob => t.ob = s.ob
  | .px => t.px = s.px
  | .nv => t.nv = s.nv
  | .kx => t.kx = s.kx
  | .ce => t.ce = s.ce
  | .upd => t.upd = s.upd
  | .bx => t.bx = s.bx
  | .aon => t.aon = s.aon
  | .cx => t.cx = s.cx
  | .mx => t.mx = s.mx

/-- Between two states nothing differs but these parts. -/
def within (ps : List Part) (s t : State) : Prop := ∀ p, p ∉ ps → p.same s t

/-- The memories are in their canonical form: the registers that hold no configuration, the DRAM, the flash. -/
structure Canonical (s : State) : Prop where
  regs : Sparse.wf resetWord s.regs = true
  dram : Sparse.wf (fun _ => 0) s.mx.dram = true
  flash : Sparse.wf flashBlank s.nv.flash = true

/-- What no command may break, from one state to a later one. -/
structure Kept (s t : State) : Prop where
  regs : Sparse.wf resetWord s.regs = true → Sparse.wf resetWord t.regs = true
  dram : Sparse.wf (fun _ => 0) s.mx.dram = true → Sparse.wf (fun _ => 0) t.mx.dram = true
  flash : Sparse.wf flashBlank s.nv.flash = true → Sparse.wf flashBlank t.nv.flash = true
  /-- A blown fuse stays blown (R351). -/
  fuses : ∀ i, s.nv.fuses.testBit i = true → t.nv.fuses.testBit i = true
  /-- The anti-rollback counter never falls (R484). -/
  counter : s.nv.counter ≤ t.nv.counter
  /-- The factory transport key is never rewritten. -/
  ftk : t.nv.ftk = s.nv.ftk
  /-- The hash of the vendor key is never rewritten. -/
  keyHash : t.nv.keyHash = s.nv.keyHash
  /-- Time does not run back. -/
  now : s.now ≤ t.now
  /-- No free value is taken twice. -/
  freeN : s.freeN ≤ t.freeN
  /-- What was sent stays sent. -/
  out : ∃ l, t.out = l ++ s.out

/-- A move between two states: these parts at most differ, and what no command may break is kept. -/
def moves (ps : List Part) (s t : State) : Prop := within ps s t ∧ Kept s t

/-- A register whose read does nothing but clear its RC fields: it is none of those that a read latches or pops, and no
counter of the power die, which is read through its mirror. -/
def plainRead (off : Nat) : Bool :=
  (idx off (R.TE_TI_NS 0) 0x100 4).isNone && (idx off (R.TE_TSI_NS 0) 0x20 2).isNone &&
    (idx off (R.SX_QPEAK 0) 4 328).isNone && decide (off ≠ R.MX_HB_MSI_DATA) && decide (off ≠ R.TE_PAIR_FBTC_LO) &&
    decide (off ≠ R.PW_RTC_SEC_LO) && !mirrored off

/-- The parts of the state that a command may touch besides the queue; everything else it leaves as it is. -/
def touches : Instr → List Part
  | .registerWrite .. =>
    [.freeN, .out, .resp, .regs, .active, .shadow, .swapped, .epochs, .latches, .mirror, .scope, .pw, .sv, .mend,
     .sx, .fx, .te, .ob, .px, .nv, .kx, .ce, .upd, .bx, .aon, .cx, .mx]
  | .rcRead .. | .counterLowRead .. | .tiTimeRead .. | .tsiPop .. | .msiDataPop .. =>
    [.out, .resp, .regs, .latches, .mirror, .scope, .te, .ob, .mx]
  | .obSnapTrigger .. | .obSnapRelease .. | .slotClr .. | .ledgerVerify .. =>
    [.resp, .regs, .ob]
  | .obSnapTimeMatch | .obSnapTsyncEdge .. | .obSnapDomainFreeze .. | .slotAccount .. | .csuFrameEnd ..
  | .ledgerScan =>
    [.regs, .ob]
  | .obSnapHoldMaxExpiry | .ledgerVerifyDone =>
    [.out, .regs, .scope, .ob]
  | .powerDieMirrorRefresh =>
    [.mirror]
  | .evStatusWrite .. | .tiUnset .. =>
    [.out, .resp, .regs, .scope]
  | .rxStartOfFrame .. =>
    [.freeN, .out, .regs, .scope, .sx, .ob]
  | .rxRuntMinReached .. | .rxCellAllocate .. =>
    [.freeN, .out, .regs, .scope, .sx, .ob, .cx, .mx]
  | .rxOversize .. | .rxCutShort .. | .sxEnqueue .. | .ingressCopyWrite .. | .transitParityError .. =>
    [.freeN, .out, .regs, .shadow, .scope, .sv, .sx, .fx, .ob, .cx, .mx]
  | .rxEndOfFrame .. =>
    [.freeN, .out, .regs, .shadow, .scope, .pw, .sv, .sx, .fx, .ob, .aon, .cx, .mx]
  | .fxPipelinePass .. | .secondPass .. =>
    [.out, .regs, .scope, .sx, .fx, .ob]
  | .ceDecrypt .. | .sealCheck .. =>
    [.out, .regs, .scope, .sx, .fx, .ce]
  | .scHandover .. | .launchEligible .. | .hamperPageUe .. | .gclEntryChange .. | .gclStart .. | .hpRxWrite .. =>
    [.out, .regs, .shadow, .scope, .sv, .sx, .fx, .ob, .cx, .mx]
  | .shaperCreditRestored .. | .launchTimeReached .. | .fillPageTimeout .. =>
    [.sx]
  | .ceEncrypt .. =>
    [.out, .regs, .shadow, .scope, .sv, .sx, .fx, .ob, .ce, .cx, .mx]
  | .sealAdd .. =>
    [.out, .regs, .scope, .sx, .ob, .ce, .cx, .mx]
  | .txStart .. | .txEndOfFrame .. | .stomp .. | .txUnderrun .. =>
    [.out, .regs, .shadow, .scope, .sv, .sx, .fx, .ob, .px, .cx, .mx]
  | .parityStormResume .. =>
    [.fx]
  | .epochAdoption .. =>
    [.out, .regs, .shadow, .epochs, .scope, .sv, .fx]
  | .loaderStart =>
    [.regs, .sv]
  | .loadRecord | .tackCopyDone .. =>
    [.out, .regs, .shadow, .scope, .sv, .fx]
  | .bootStitch | .stitchCommit .. =>
    [.freeN, .out, .regs, .active, .shadow, .swapped, .scope, .pw, .sv, .sx, .fx, .te, .ob, .px, .kx, .ce, .upd,
     .bx, .aon, .cx, .mx]
  | .bersanBankWrite .. =>
    [.out, .resp, .sv]
  | .nvmOperation .. =>
    [.resp, .sv, .nv]
  | .flashOpComplete .. =>
    [.freeN, .out, .regs, .scope, .sv, .ob, .nv, .upd]
  | .modeReqPartial .. | .modeReqRun .. | .modeReqListen .. =>
    [.out, .resp, .regs, .scope, .pw]
  | .modeReqRescue .. | .svResetSoc .. =>
    [.freeN, .out, .resp, .regs, .active, .shadow, .swapped, .epochs, .latches, .mirror, .scope, .pw, .sv, .mend,
     .sx, .fx, .te, .ob, .px, .nv, .kx, .ce, .upd, .bx, .cx, .mx]
  | .modeReqFactory .. =>
    [.freeN, .out, .resp, .regs, .scope, .pw, .sx, .fx, .ob, .px, .bx, .cx, .mx]
  | .partialToRunStep | .runEntry | .serdesCalibrationDone | .startRampDone | .clusterRelease =>
    [.freeN, .out, .regs, .scope, .pw, .sx, .fx, .ob, .px, .bx, .cx, .mx]
  | .runToPartialStep | .beaconReceived .. =>
    [.freeN, .out, .regs, .shadow, .scope, .pw, .sv, .sx, .fx, .ob, .px, .bx, .cx, .mx]
  | .listenEntry =>
    [.out, .regs, .shadow, .scope, .pw, .sv, .fx, .ob, .nv, .upd, .aon]
  | .railsOff | .vbatAonBrownout | .railPgLost .. =>
    [.freeN, .regs, .active, .shadow, .swapped, .epochs, .latches, .mirror, .scope, .pw, .sv, .mend, .sx, .fx, .te,
     .ob, .px, .nv, .kx, .ce, .upd, .bx, .aon, .cx, .mx]
  | .vbatAonPowerOn | .railPgTimeout .. =>
    [.regs, .pw, .aon]
  | .pwTrimsLoaded | .railPgRise .. | .railRetryTimer | .dramTrainingDone =>
    [.pw]
  | .rtcCrystalStable | .sgateEntryChange .. | .trngHealthPass | .wakeMaskEnd .. | .csuHoldAck .. =>
    [.regs]
  | .socPowerOnRelease .. | .resetNReleased =>
    [.freeN, .out, .regs, .mirror, .scope, .pw, .kx]
  | .romSelfTestDone .. =>
    [.out, .regs, .scope, .pw, .nv, .upd]
  | .firmwareStart | .canIntegrated .. =>
    [.out, .regs, .scope, .pw]
  | .pufReconstructed .. =>
    [.freeN, .out, .regs, .scope, .pw, .kx]
  | .dramZeroingDone =>
    [.out, .regs, .scope, .pw, .sx, .mx]
  | .listenExit .. | .keepaliveRecognised .. | .domainWake .. | .wakeInActive .. | .canWufReceived ..
  | .canKaWake .. | .t1sEnergy .. | .rtcAlarm =>
    [.out, .regs, .scope, .pw, .ob, .aon]
  | .resetNAsserted =>
    [.freeN, .regs, .active, .shadow, .swapped, .epochs, .latches, .mirror, .scope, .pw, .sv, .mend, .sx, .fx, .te,
     .ob, .px, .nv, .kx, .ce, .upd, .bx, .cx, .mx]
  | .svWatchdogExpiry | .lockstepMismatch | .rescueActivate .. =>
    [.freeN, .out, .regs, .active, .shadow, .swapped, .epochs, .latches, .mirror, .scope, .pw, .sv, .mend, .sx,
     .fx, .te, .ob, .px, .nv, .kx, .ce, .upd, .bx, .cx, .mx]
  | .tack .. | .stitch .. | .stitchAt .. | .renew .. =>
    [.out, .resp, .regs, .scope, .sv]
  | .unpick .. =>
    [.out, .resp, .regs, .shadow, .scope, .sv, .fx]
  | .stitchAtTimeReached .. =>
    [.sv]
  | .drainLimAgeDiscard | .bankTestFenceExpiry .. | .pcsLockLoss .. | .controlWordReceived .. | .beaconLoss ..
  | .nodeIdCollision .. | .jabber .. | .mdioPoll .. | .mdioDone .. =>
    [.freeN, .out, .regs, .shadow, .scope, .sv, .sx, .fx, .ob, .px, .bx, .cx, .mx]
  | .shadowWrite .. =>
    [.freeN, .out, .resp, .regs, .shadow, .scope, .fx]
  | .txTimeout .. =>
    [.freeN, .out, .regs, .shadow, .scope, .sv, .fx]
  | .mendStart .. =>
    [.freeN, .out, .resp, .regs, .shadow, .scope, .sv, .mend, .sx, .fx, .ob, .px, .bx, .cx, .mx]
  | .mendStop .. =>
    [.out, .resp, .regs, .scope, .sv, .mend]
  | .mendActivityEnd .. | .faultBankFence .. | .patrolScrub .. =>
    [.freeN, .out, .regs, .shadow, .scope, .sv, .mend, .sx, .fx, .ob, .px, .bx, .cx, .mx]
  | .cipherMismatch .. =>
    [.freeN, .out, .regs, .scope, .sv, .mend, .sx, .fx, .ob, .px, .bx, .cx, .mx]
  | .pcsBlockLock .. | .pgRejoin .. | .frerReset .. | .fdbOpDone =>
    [.out, .regs, .scope, .fx]
  | .pcsFaultReceived .. | .pauseWdTrip .. =>
    [.out, .regs, .scope, .px]
  | .portFlushComplete .. | .hamperDrained =>
    [.out, .regs, .scope, .sx]
  | .pauseReceived .. | .pfcReceived .. | .pauseExpiry .. | .pauseHoldoffEnd .. =>
    [.regs, .px]
  | .quarantineEnd .. =>
    [.freeN, .out, .regs, .scope, .sx, .fx, .ob, .px, .bx, .cx, .mx]
  | .quarantineRelease .. =>
    [.freeN, .out, .resp, .regs, .scope, .sx, .fx, .ob, .px, .bx, .cx, .mx]
  | .mdioAccess .. =>
    [.out, .resp, .regs, .px]
  | .hamperPageWritten .. | .refillStart .. | .refillDone .. =>
    [.out, .regs, .scope, .sx, .ce]
  | .pageReturn =>
    [.out, .regs, .scope, .sx, .ob, .cx, .mx]
  | .learnCommit =>
    [.out, .regs, .scope, .sx, .fx]
  | .ageTick =>
    [.regs, .fx]
  | .fdbRead .. | .fdbSearch .. | .fdbDelete .. | .fdbFlush .. =>
    [.resp, .regs, .fx]
  | .psfpClearFilter .. | .psfpClearGate .. | .canRxack .. | .canRecover .. | .ringTailWrite .. | .fenceClr ..
  | .csuHold .. | .csuClear .. | .csuRunWrite .. =>
    [.resp, .regs]
  | .tiAdjWrite .. =>
    [.out, .resp, .regs, .scope, .te]
  | .tiStep .. | .tiSet .. =>
    [.out, .resp, .regs, .scope, .sv, .sx, .te, .ob, .cx, .mx]
  | .syncReceived .. =>
    [.freeN, .out, .regs, .scope, .sv, .sx, .te, .ob, .cx, .mx]
  | .syncTimeout .. =>
    [.freeN, .out, .regs, .scope, .te]
  | .settleExpiry .. | .tsyncInEdge .. =>
    [.out, .regs, .scope, .te]
  | .syncTransmit .. =>
    [.out]
  | .tsyncOutEdge .. =>
    [.out, .te]
  | .fbtcPair =>
    [.te]
  | .pairGo .. =>
    [.resp, .te]
  | .canConfigApplied .. | .canArbLost .. | .gwHoldDeadline .. =>
    [.out, .regs, .scope, .bx]
  | .canTxreq .. | .foldCmdWake .. =>
    [.out, .resp, .regs, .scope, .pw, .ob, .aon]
  | .canTxcan .. =>
    [.out, .resp, .regs, .scope, .bx]
  | .canTxChoice .. =>
    [.out, .regs, .scope, .ob, .bx]
  | .canTxCommit .. =>
    [.regs, .bx]
  | .canTxDone .. | .canRxFrame .. | .canProtocolException .. | .canBusError .. =>
    [.freeN, .out, .regs, .scope, .bx]
  | .canRecoveryDone .. | .trngHealthFail | .coreWfiOffline .. | .offlineGraceExpiry .. | .dramScrubPassDone =>
    [.out, .regs, .scope]
  | .gwRouteLookup .. | .gwDownPacket .. =>
    [.freeN, .out, .regs, .scope, .pw, .ob, .bx, .aon]
  | .pqCommit .. =>
    [.out, .regs, .shadow, .scope, .sv, .sx, .fx, .ob, .bx, .cx, .mx]
  | .pqRewind .. | .pqDownWrite .. =>
    [.out, .regs, .scope, .sx, .ob, .bx, .cx, .mx]
  | .pqUpRead .. | .keepaliveTx .. =>
    [.freeN, .out, .regs, .scope, .pw, .sx, .fx, .ob, .bx, .aon, .cx, .mx]
  | .pqReset .. =>
    [.out, .resp, .regs, .shadow, .scope, .sv, .sx, .fx, .ob, .bx, .cx, .mx]
  | .invalidate .. | .updOpen .. =>
    [.freeN, .out, .resp, .regs, .scope, .sv, .ob, .kx, .ce, .upd]
  | .rebind .. | .importKey .. | .exportKey .. | .clearLock .. | .lcAdvance .. =>
    [.out, .resp, .regs, .scope, .kx]
  | .zeroise .. =>
    [.freeN, .out, .resp, .regs, .scope, .sv, .sx, .ob, .kx, .ce, .upd]
  | .clearLockDone .. =>
    [.freeN, .out, .regs, .scope, .kx, .ce]
  | .enroll .. =>
    [.freeN, .out, .resp, .regs, .scope, .sv, .kx]
  | .kxCommandDone .. =>
    [.freeN, .out, .regs, .scope, .sv, .ob, .nv, .kx, .ce, .upd]
  | .keyDerive .. =>
    [.out, .regs, .scope, .ce]
  | .tamperAlarm .. | .meshCheck .. =>
    [.freeN, .out, .regs, .active, .shadow, .swapped, .epochs, .latches, .mirror, .scope, .pw, .sv, .mend, .sx,
     .fx, .te, .ob, .px, .nv, .kx, .ce, .upd, .bx, .aon, .cx, .mx]
  | .keyRemask =>
    [.freeN, .regs, .kx]
  | .foldCommit .. | .vbatRecovered | .holdExpired =>
    [.regs, .aon]
  | .foldComplete .. =>
    [.out, .regs, .scope, .pw, .aon]
  | .foldCmdForgive .. | .foldNeedWrite .. =>
    [.freeN, .out, .resp, .regs, .scope, .pw, .sx, .fx, .ob, .aon, .cx, .mx]
  | .wakeHoldEnd .. | .hpTxFrame .. =>
    [.freeN, .out, .regs, .scope, .pw, .sx, .fx, .ob, .aon, .cx, .mx]
  | .wakeValidityDecision .. | .lsUpdate .. | .shortTrip .. | .inrushEnd .. | .vbatUndervoltage
  | .totalCurrentShed .. | .dissipationHigh =>
    [.out, .regs, .scope, .aon]
  | .overstayA .. | .overstayB .. =>
    [.out, .regs, .scope, .ob, .aon]
  | .rtcSet =>
    [.pw, .aon]
  | .reenable .. =>
    [.out, .resp, .regs, .scope, .aon]
  | .powerDieLinkRefresh =>
    [.aon]
  | .imageCopyDone .. =>
    [.out, .regs, .scope, .cx, .mx]
  | .coreStart .. =>
    [.out, .resp, .regs]
  | .dvfsRequest .. | .tagPop .. =>
    [.resp, .regs, .cx]
  | .dvfsDone | .hpCoalTimer .. =>
    [.out, .regs, .scope, .cx]
  | .dramUe .. | .inboundRequest .. | .ringRecordWrite .. =>
    [.out, .regs, .scope, .ob, .mx]
  | .outboundAccess .. =>
    [.out, .resp, .regs, .scope, .ob, .mx]
  | .outboundCompletion .. | .outboundReadTimeout .. | .pcieErrorMessage .. | .rootMsiWrite .. =>
    [.out, .regs, .scope, .mx]
  | .prefetchExpiry .. =>
    [.mx]
  | .pcieReset | .pcieLinkChange .. =>
    [.freeN, .out, .regs, .scope, .mx]
  | .updHeader .. | .updBlock .. | .updActivate .. | .updClose .. =>
    [.out, .resp, .regs, .scope, .sv, .ob, .upd]
  | .updSessionTimeout | .bersanSessionClose .. =>
    [.out, .regs, .scope, .sv, .ob, .upd]
  | .copySlotDone .. | .rescueBreak =>
    [.freeN, .out, .regs, .scope, .pw, .nv, .upd]
  | .copyComplete =>
    [.nv, .upd]
  | .migration =>
    [.out, .regs, .scope, .sv, .ob, .nv]
  | .rescueHello .. =>
    [.freeN, .out]
  | .rescueHeader .. =>
    [.freeN, .out, .nv, .upd]
  | .rescueChunk .. =>
    [.freeN, .out, .regs, .nv, .upd]
  | .csuReattach .. =>
    [.resp, .ob]
  | .ledgerFlush =>
    [.out, .regs, .scope, .ob, .nv]
  | .pcsFaultCleared .. =>
    [.out, .regs, .px]
  | .jabberLineIdle .. =>
    [.px]
  | .bersanSessionOpen .. =>
    [.out, .regs, .scope, .sv]
  | .coreCycle .. =>
    [.freeN, .out, .regs, .scope, .cx, .mx]
  | .tamperAlarmCleared .. =>
    [.regs, .kx]

end Sys2Proof.Machine
end

