-- ==== Sys2Proof/Certificates/Slice0/Obligations.lean ====
section
/-!
DEFINITION. The statements for the provers. A statement of a command's effect concludes that `exec` answers a next state and
says what that state holds, under hypotheses on the state and the operands alone; the parts of the state that a command
may touch at all are `touches` (CommandFrame). A row that stands for the end of a time acts whenever it is commanded
(log 4), a row that the state makes impossible changes nothing (log 5), and values that the spec leaves open are
constants without a body, so that no statement rests on one (log 13, 14).
-/

open Sys2Proof Sys2Proof.Machine

/-- When the command at the front of the queue is taken, the step is that command on the state with the queue's rest;
with no command waiting one cycle of CLK_TIME passes (the model's choice: log 3). Readings of the model it goes by:
log 3, 6. -/
def Obligations.StepTakesFront : Prop :=
  (∀ (c : Instr) (rest : List Instr) (s : State), s.pending = c :: rest → step s = exec c { s with pending := rest }) ∧
  (∀ (s : State), s.pending = [] → step s = .next s.tick2ns)

/-- No command and no operand ends a run: every command answers a next state in every state. Readings of the model it
goes by: log 5. -/
def Obligations.EveryCommandCompletes : Prop :=
  ∀ (c : Instr) (s : State), ∃ t, exec c s = .next t

/-- The frame of every command: the parts of the state that `touches` does not name for it stay as they are; the queue,
the time, the bindings and what was sent before among them. -/
def Obligations.CommandFrame : Prop :=
  ∀ (c : Instr) (s t : State), exec c s = .next t →
    within (touches c) s t ∧ t.pending = s.pending ∧ t.now = s.now ∧ ∃ l, t.out = l ++ s.out

/-- Every step keeps the memories in their canonical form: the registers, the DRAM and the flash. -/
def Obligations.StepKeepsCanonical : Prop :=
  ∀ (s t : State), Canonical s → step s = .next t → Canonical t

/-- The reset state's memories are in their canonical form. Readings of the model it goes by: log 1, 2. -/
def Obligations.ResetCanonical : Prop :=
  Canonical State.reset

/-- What no step takes back: a blown fuse stays blown (of R351), the anti-rollback counter never falls (of R484), the
factory transport key and the hash of the vendor key are never rewritten, what was sent stays sent, time does not
run back, and no free value is taken twice. Readings of the model it goes by: log 14, 15. -/
def Obligations.StepKeepsIrreversible : Prop :=
  ∀ (s t : State), step s = .next t →
    (∀ i, s.nv.fuses.testBit i = true → t.nv.fuses.testBit i = true) ∧ s.nv.counter ≤ t.nv.counter ∧
    t.nv.ftk = s.nv.ftk ∧ t.nv.keyHash = s.nv.keyHash ∧ (∃ l, t.out = l ++ s.out) ∧ s.now ≤ t.now ∧ s.freeN ≤ t.freeN

/-- The reset state is the gateway in OFF, where no access is answered, with an empty queue; and what registers of the
blocks hold then, as their maps' Reset columns give it. Readings of the model it goes by: log 1. -/
def Obligations.ResetRegisters : Prop :=
  (∀ (a : Agent) (off : Nat) (w : Width), exec (.rcRead a off w) State.reset = .next { State.reset with resp := .noAnswer }) ∧
  State.reset.pending = [] ∧ State.reset.pw.power = .off ∧
  State.reset.rd R.SV_DEVICE_ID = 0x9400B100 ∧
  State.reset.rd R.SV_MODE = 0x12 ∧
  State.reset.rg F.OB_SNAP_HOLD_MAX = 0x64 ∧
  State.reset.act F.SV_MODE_CFG_RUN_MODE = 1 ∧ State.reset.act F.SV_MODE_CFG_SEALED_PAIRS = 6 ∧
  (∀ n < 24, State.reset.act (F.PX_PORT_CFG_LANE_MODE n) = (if n < 8 then 0 else 1)) ∧
  State.reset.act (F.PX_PORT_CFG_ADMIN 40) = 1 ∧
  State.reset.act (F.PX_FC_CFG_PAUSE_WD 0) = 20 ∧
  (∀ n < 41, State.reset.rg (F.PX_PORT_STAT_RATE n) = 7) ∧
  State.reset.act F.SX_BUF_CFG_DIE_HI = 90 ∧ State.reset.act F.MX_HAMPER_CFG_BW_CAP = 100 ∧
  (∀ n < 41, State.reset.act (F.FX_QOS_CFG_PCP_TC n) = 0xFAC688) ∧
  (∀ c < 16, State.reset.act (F.BX_CAN_CFG_RECOV_LIM c) = 3) ∧
  (∀ k < 16, State.reset.act (F.PW_OUT_CFG_INRUSH_T k) = 10)

/-- A write narrower than 32 bits and a misaligned access, of either view, answer an error and change no register; a
narrow read answers the addressed bytes and does what the full read does; at an address inside a block at which no
register is defined a read answers 0 and has no effect and a write is discarded. It formalises R1, R2. -/
def Obligations.AccessRules : Prop :=
  (∀ (a : Agent) (off : Nat) (w : Width) (data : Word) (s : State), s.reaches a = true → off < 0xC000000 →
    (off % w.bytes ≠ 0 ∨ w ≠ .word) →
    exec (.registerWrite a off w data) s = .next { s with resp := .busError }) ∧
  (∀ (a : Agent) (off : Nat) (w : Width) (s : State), s.reaches a = true → off < 0xC000000 → off % w.bytes ≠ 0 →
    exec (.rcRead a off w) s = .next { s with resp := .busError }) ∧
  (∀ (a : Agent) (off : Nat) (w : Width) (s : State), s.reaches a = true → off < 0xC000000 → off % w.bytes = 0 →
    s.badRam (off - off % 4) = none →
    ∃ t v, exec (.rcRead a (off - off % 4) .word) s = .next t ∧ t.resp = .value v ∧
      exec (.rcRead a off w) s =
        .next { t with resp := .value (Word.ofNat (v.toNat / 2 ^ (8 * (off % 4)) % 2 ^ (8 * w.bytes))) }) ∧
  (∀ (a : Agent) (off : Nat) (w : Width) (s : State), s.reaches a = true → off < 0xC000000 → off % w.bytes = 0 →
    off % 0x1000000 < 0x800000 → regRow (off - off % 4) = none →
    exec (.rcRead a off w) s = .next { s with resp := .value 0 }) ∧
  (∀ (a : Agent) (off : Nat) (data : Word) (s : State), s.reaches a = true → off < 0xC000000 → off % 4 = 0 →
    off % 0x1000000 < 0x800000 → regRow off = none →
    exec (.registerWrite a off .word data) s = .next { s with resp := .done })

/-- A write of a register without a command of its own takes the data into its RW bits, clears the RW1C bits written
with 1, and leaves every other bit and every other register as it is; a read of a register (no word of a message RAM
in uncorrectable error, R317) answers its value (the addressed bytes, where it is narrow) and clears its RC fields,
whatever the width of the read; no other register changes; accesses that no register's code decides, by the model's
reading (log 11, 94): an agent that does not reach the space gets no answer; an offset of 0x10000000 or more answers
an error (the bus map ends there, log 94); one in no block reads 0 and discards a write; a misaligned SHADOW write
answers an error; a read of a message RAM word in uncorrectable error is counted and answers an error. Taken from
R5, R5, R1, R1, R39, R317, R448, of which it states only the cases above. Readings of the model it goes by: log 11,
94. -/
def Obligations.AccessCodes : Prop :=
  (∀ (a : Agent) (off : Nat) (data : Word) (s : State) (r : RegRow), s.reaches a = true → off % 4 = 0 →
    off < 0xC000000 → off % 0x1000000 < 0x800000 → regRow off = some r → r.cd = none →
    State.mailboxShut a off = false → s.commandWrite a r off data = none →
    ∃ t, exec (.registerWrite a off .word data) s = .next t ∧ t.resp = .done ∧
      (∀ i < 32, (t.rd off).getLsbD i =
        if (accMask .rw1c r.fields).getLsbD i && data.getLsbD i then false
        else if (accMask .rw r.fields).getLsbD i then data.getLsbD i else (s.rd off).getLsbD i) ∧
      (∀ o, o ≠ off → t.rd o = s.rd o) ∧ within [.resp, .regs] s t) ∧
  (∀ (a : Agent) (off : Nat) (w : Width) (s : State) (r : RegRow), s.reaches a = true → off % w.bytes = 0 →
    off < 0xC000000 → off % 0x1000000 < 0x800000 → regRow (off - off % 4) = some r →
    s.isFrozen (off - off % 4) = false → plainRead (off - off % 4) = true → s.badRam (off - off % 4) = none →
    ∃ t, exec (.rcRead a off w) s = .next t ∧
      t.resp = .value (Word.ofNat ((s.readWord r (off - off % 4)).toNat / 2 ^ (8 * (off % 4)) % 2 ^ (8 * w.bytes))) ∧
      (∀ i < 32, (t.rd (off - off % 4)).getLsbD i =
        ((s.rd (off - off % 4)).getLsbD i && !(accMask .rc r.fields).getLsbD i)) ∧
      (∀ o, o ≠ off - off % 4 → t.rd o = s.rd o)) ∧
  (∀ (a : Agent) (off : Nat) (w : Width) (data : Word) (s : State), s.reaches a = false →
    exec (.registerWrite a off w data) s = .next { s with resp := .noAnswer } ∧
    exec (.rcRead a off w) s = .next { s with resp := .noAnswer }) ∧
  (∀ (a : Agent) (off : Nat) (w : Width) (data : Word) (s : State), s.reaches a = true → 0x10000000 ≤ off →
    exec (.registerWrite a off w data) s = .next { s with resp := .busError } ∧
    exec (.rcRead a off w) s = .next { s with resp := .busError }) ∧
  (∀ (a : Agent) (off : Nat) (data : Word) (s : State), s.reaches a = true → 0xC000000 ≤ off → off < 0x10000000 →
    off % 4 = 0 →
    exec (.registerWrite a off .word data) s = .next { s with resp := .done } ∧
    exec (.rcRead a off .word) s = .next { s with resp := .value 0 }) ∧
  (∀ (a : Agent) (off : Nat) (data : Word) (s : State), s.reaches a = true → off % 4 ≠ 0 →
    exec (.shadowWrite a off data) s = .next { s with resp := .busError }) ∧
  (∀ (a : Agent) (off : Nat) (w : Width) (s : State) (c word : Nat), s.reaches a = true → off % w.bytes = 0 →
    off < 0x10000000 → s.badRam (off - off % 4) = some (c, word) →
    exec (.rcRead a off w) s =
      .next (((s.bump (F.BX_CAN_ECC_UE_COUNT c)).fault 0x0B c word).answer .busError))

/-- A write at the ACTIVE address of a configured register has no effect; a write of the SHADOW view outside an owning
transaction changes neither view and no register but those that report it (SV_TX_SHADOW_REFUSED, SV_TX_SHADOW_ADDR
and the status of its event); any agent reads the SHADOW view, and at the SHADOW address of any other register a
read answers 0 and a write is discarded. It formalises R6, R39. -/
def Obligations.ConfigurationWrites : Prop :=
  (∀ (a : Agent) (off : Nat) (data : Word) (s : State) (r : RegRow) (d : Nat), s.reaches a = true → off % 4 = 0 →
    off < 0xC000000 → off % 0x1000000 < 0x800000 → regRow off = some r → r.cd = some d →
    exec (.registerWrite a off .word data) s = .next { s with resp := .done }) ∧
  (∀ (a : Agent) (off d : Nat) (data : Word) (s : State) (r : RegRow), s.reaches a = true →
    off % 4 = 0 → 0x800000 ≤ off % 0x1000000 → regRow (off - 0x800000) = some r → r.cd = some d → r.rsOf d = true →
    s.shadowMine a d = false →
    ∃ t, exec (.shadowWrite a off data) s = .next t ∧ t.active = s.active ∧ t.shadow = s.shadow ∧
      ∀ o, o ≠ R.SV_TX_SHADOW_REFUSED → o ≠ R.SV_TX_SHADOW_ADDR → (∀ n < 8, o ≠ R.SV_EV_STATUS n) → t.rd o = s.rd o) ∧
  (∀ (a : Agent) (off : Nat) (s : State), s.reaches a = true → off % 4 = 0 → off < 0xC000000 →
    0x800000 ≤ off % 0x1000000 →
    exec (.rcRead a off .word) s = .next { s with resp := .value (s.shadowWord (off - 0x800000)) }) ∧
  (∀ (a : Agent) (off : Nat) (data : Word) (s : State), s.reaches a = true → off % 4 = 0 → off < 0xC000000 →
    0x800000 ≤ off % 0x1000000 → (∀ r, regRow (off - 0x800000) = some r → r.cd = none) →
    exec (.rcRead a off .word) s = .next { s with resp := .value 0 } ∧
    exec (.shadowWrite a off data) s = .next { s with resp := .done })

/-- A read of a low word answers it, and the next read of its high word, by any agent, answers the high word of that
moment; (1) a read of TE_TI_NS latches the seconds and the fraction of the same cycle; (2) a read of TE_TSI_NS takes
the oldest capture and shows its seconds, fraction and edge; (3) a read of MX_HB_MSI_DATA answers and takes the
oldest word of the MSI FIFO. Taken from R8, R262, R285, R473, of which it states only the cases above. Readings of
the model it goes by: log 10. -/
def Obligations.LatchingReads : Prop :=
  (∀ (a b : Agent) (off : Nat) (s : State) (r h : RegRow), s.reaches a = true → off % 4 = 0 →
    off + 4 < 0xC000000 → off % 0x1000000 + 4 < 0x800000 → regRow off = some r → r.lat = .low →
    regRow (off + 4) = some h → h.lat = .high → s.isFrozen off = false → plainRead off = true → s.badRam off = none →
    ∃ t, exec (.counterLowRead a off) s = .next t ∧ t.resp = .value (s.viewWord off) ∧
      (t.reaches b = true → t.badRam (off + 4) = none → ∃ u, exec (.rcRead b (off + 4) .word) t = .next u ∧ u.resp = .value (s.viewWord (off + 4)))) ∧
  (∀ (a : Agent) (i : Nat) (s : State), s.reaches a = true → i < 4 → s.isFrozen (R.TE_TI_NS i) = false →
    ∃ t, exec (.tiTimeRead a i) s = .next t ∧ t.te = s.te ∧ t.resp = .value (s.viewWord (R.TE_TI_NS i)) ∧
      t.rg (F.TE_TI_SEC_LO_SEC i) = (s.tiOf i).sec % 2 ^ 32 ∧
      t.rg (F.TE_TI_SEC_HI_SEC i) = (s.tiOf i).sec / 2 ^ 32 % 2 ^ 16 ∧
      t.rg (F.TE_TI_FRAC_FRAC i) = (s.tiOf i).frac % 2 ^ 32) ∧
  (∀ (a : Agent) (k : Nat) (s : State) (c : TsiCapture) (rest : List TsiCapture), s.reaches a = true → k < 2 →
    s.isFrozen (R.TE_TSI_NS k) = false → Sparse.get (fun _ => []) s.te.tsi k = c :: rest →
    ∃ t, exec (.tsiPop a k) s = .next t ∧ Sparse.get (fun _ => []) t.te.tsi k = rest ∧
      t.rg (F.TE_TSI_SEC_LO_SEC k) = c.sec % 2 ^ 32 ∧ t.rg (F.TE_TSI_SEC_HI_FRAC k) = c.frac % 2 ^ 8 ∧
      t.rg (F.TE_TSI_SEC_HI_RISING k) = (if c.rising then 1 else 0)) ∧
  (∀ (a : Agent) (s : State) (d : Nat) (rest : List Nat), s.reaches a = true → s.isFrozen R.MX_HB_MSI_DATA = false →
    s.mx.msi = d :: rest →
    ∃ t, exec (.msiDataPop a) s = .next t ∧ t.mx.msi = rest ∧ t.mx.dram = s.mx.dram ∧ t.resp = .value (s.viewWord R.MX_HB_MSI_DATA))

/-- (1) a TRIGGER with SRC 1 or 2 in IDLE arms the snapshot for that TSYNC pin; (2) with SRC 0 it forms at once and
records the time of the instance TI_SEL; (3) while one is in progress a TRIGGER only sets REFUSED; (4) RELEASE frees
it and changes no other register; (5) an armed one of SRC 3 forms when its time has come; (6) one of SRC 1 or 2
forms at the edge of its pin that EDGE selects; (7) the freeze of a clock domain adds the domain's cut, with it the
other domains of the frame path (log 72), and the last one ends FORMING in FROZEN; (8) HOLD_MAX frees a frozen one
with EXPIRED and event 248; (9) the power die's mirror takes the power die's registers; (10) a TRIGGER of SRC 3
forms at once where the snapshot time has come, else arms for it. Taken from R35, R36, R37, R543, of which it states
only the cases above. Readings of the model it goes by: log 9, 32, 72. -/
def Obligations.SnapshotCommands : Prop :=
  (∀ (a : Agent) (data : Word) (s : State), s.reaches a = true → F.OB_SNAP_RELEASE.get data = 0 →
    s.ob.snap.state = .idle → (F.OB_SNAP_SRC.get data = 1 ∨ F.OB_SNAP_SRC.get data = 2) →
    ∃ t, exec (.obSnapTrigger a data) s = .next t ∧ t.ob.snap.state = .armed ∧
      t.ob.snap.src = F.OB_SNAP_SRC.get data ∧ t.ob.snap.ti = F.OB_SNAP_TI_SEL.get data ∧ t.rg F.OB_SNAP_STATE = 1) ∧
  (∀ (a : Agent) (data : Word) (s : State), s.reaches a = true → F.OB_SNAP_RELEASE.get data = 0 →
    s.ob.snap.state = .idle → F.OB_SNAP_SRC.get data = 0 →
    ∃ t, exec (.obSnapTrigger a data) s = .next t ∧ t.ob.snap.state = .forming ∧ t.rg F.OB_SNAP_STATE = 1 ∧
      t.rg F.OB_SNAP_TIME_NS_NS = (s.tiOf (F.OB_SNAP_TI_SEL.get data)).ns % 2 ^ 30) ∧
  (∀ (a : Agent) (data : Word) (s : State), s.reaches a = true → F.OB_SNAP_RELEASE.get data = 0 →
    s.ob.snap.state ≠ .idle →
    ∃ t, exec (.obSnapTrigger a data) s = .next t ∧ t.ob = s.ob ∧ t.rg F.OB_SNAP_REFUSED = 1) ∧
  (∀ (a : Agent) (s : State), s.reaches a = true → s.ob.snap.state ≠ .idle →
    ∃ t, exec (.obSnapRelease a) s = .next t ∧ t.ob.snap.state = .idle ∧ t.ob.snap.cut = [] ∧
      t.rg F.OB_SNAP_STATE = 0 ∧ ∀ off, off ≠ R.OB_SNAP → t.rd off = s.rd off) ∧
  (∀ s : State, s.ob.snap.state = .armed → s.ob.snap.src = 3 → s.ob.snap.at_ ≤ s.tiNs s.ob.snap.ti →
    ∃ t, exec .obSnapTimeMatch s = .next t ∧ t.ob.snap.state = .forming ∧ t.rg F.OB_SNAP_STATE = 1 ∧
      t.rg F.OB_SNAP_TIME_NS_NS = (s.tiOf s.ob.snap.ti).ns % 2 ^ 30) ∧
  (∀ (pin : Nat) (rising : Bool) (s : State), pin < 2 → s.ob.snap.state = .armed → s.ob.snap.src = pin + 1 →
    (s.act (F.TE_TSI_CFG_EDGE pin)).testBit (if rising then 0 else 1) = true →
    ∃ t, exec (.obSnapTsyncEdge pin rising) s = .next t ∧ t.ob.snap.state = .forming ∧
      t.rg F.OB_SNAP_TIME_NS_NS = (s.tiOf s.ob.snap.ti).ns % 2 ^ 30) ∧
  (∀ (d : ClkDomain) (s : State), s.ob.snap.state = .forming → (∀ e ∈ s.ob.snap.cut, e.1 ≠ d) →
    ∃ t, exec (.obSnapDomainFreeze d) s = .next t ∧ (d, s.frozenNow d) ∈ t.ob.snap.cut ∧
      (framePath d = true → ∀ x, framePath x = true → ∃ e ∈ t.ob.snap.cut, e.1 = x) ∧
      ((∀ x ∈ allDomains, x ∈ State.freezesWith d ∨ ∃ e ∈ s.ob.snap.cut, e.1 = x) →
        t.ob.snap.state = .frozen ∧ t.rg F.OB_SNAP_STATE = 2) ∧
      ((∃ x ∈ allDomains, x ∉ State.freezesWith d ∧ ∀ e ∈ s.ob.snap.cut, e.1 ≠ x) →
        t.ob.snap.state = .forming ∧ t.regs = s.regs)) ∧
  (∀ s : State, s.socUp = true → s.ob.snap.state = .frozen →
    ∃ t, exec .obSnapHoldMaxExpiry s = .next t ∧ t.ob.snap.state = .idle ∧ t.rg F.OB_SNAP_STATE = 0 ∧
      t.rg F.OB_SNAP_EXPIRED = 1 ∧ t.evSet 248 = true) ∧
  (∀ s : State, s.socUp = true → exec .powerDieMirrorRefresh s = .next { s with mirror := s.aonNow }) ∧
  (∀ (a : Agent) (data : Word) (s : State), s.reaches a = true → F.OB_SNAP_RELEASE.get data = 0 →
    s.ob.snap.state = .idle → F.OB_SNAP_SRC.get data = 3 →
    ∃ t, exec (.obSnapTrigger a data) s = .next t ∧
      if s.snapAt ≤ s.tiNs (F.OB_SNAP_TI_SEL.get data) then
        t.ob.snap.state = .forming ∧ t.rg F.OB_SNAP_STATE = 1 ∧
        t.rg F.OB_SNAP_TIME_NS_NS = (s.tiOf (F.OB_SNAP_TI_SEL.get data)).ns % 2 ^ 30
      else
        t.ob.snap.state = .armed ∧ t.ob.snap.src = 3 ∧ t.ob.snap.ti = F.OB_SNAP_TI_SEL.get data ∧
        t.ob.snap.at_ = s.snapAt ∧ t.rg F.OB_SNAP_STATE = 1)

/-- A write of SV_EV_STATUS_n clears exactly the status bits written with 1 and no other register; it sends nothing
unless an MSI-X vector still has a pending event, and outside root-port mode it sends each such vector's message.
Taken from R42, R43, of which it states only the cases above. Readings of the model it goes by: log 33. -/
def Obligations.EventStatusWrite : Prop :=
  ∀ (a : Agent) (n : Nat) (data : Word) (s : State), s.reaches a = true → n < 8 →
    ∃ t, exec (.evStatusWrite a n data) s = .next t ∧ t.resp = .done ∧
      (∀ e < 256, t.evSet e = (s.evSet e && !(decide (e / 32 = n) && data.getLsbD (e % 32)))) ∧
      (∀ off, off ≠ R.SV_EV_STATUS n → t.rd off = s.rd off) ∧
      ((∀ v, t.vecPending v = false) → t.out = s.out) ∧
      (∀ v < 32, t.vecPending v = true → s.pw.rootPort = false → .msix v ∈ t.out) ∧ within [.out, .resp, .regs, .scope] s t

/-- (1) an ADJ write takes the value and shows ADJ_CLIPPED beyond 1,000 ppm; (2) it is ignored while the servo owns the
instance; (3) a STEP within JUMP_LIM moves the instance by it, keeps the fraction, moves no other instance and
raises 137; (4) a STEP beyond JUMP_LIM is refused with RESULT 2, JUMP_REFUSED and 128; (5) STEP and SET are refused
with RESULT 3 while the servo owns it; (6) a SET within the guard, or of an UNSET instance, takes the new time with
fraction 0; (7) a SET of a SET instance that differs from it, fraction included, by more than JUMP_LIM is refused;
(8) UNSET clears SET and keeps the time. Taken from R261, R264 to R267, R277, of which it states only the cases
above. Readings of the model it goes by: log 44. -/
def Obligations.TimeInstanceCommands : Prop :=
  (∀ (a : Agent) (i : Nat) (data : Word) (s : State), s.reaches a = true → i < 4 → s.owned i = false →
    ∃ t, exec (.tiAdjWrite a i data) s = .next t ∧ t.rg (F.TE_TI_ADJ_ADJ i) = data.toNat ∧
      t.rg (F.TE_TI_STAT_ADJ_CLIPPED i) =
        (if (signed32 data.toNat).natAbs > s.incNom i / 1000 then 1 else 0) ∧ t.te.ti = s.te.ti) ∧
  (∀ (a : Agent) (i : Nat) (data : Word) (s : State), s.reaches a = true → i < 4 → s.owned i = true →
    exec (.tiAdjWrite a i data) s = .next { s with resp := .done }) ∧
  (∀ (a : Agent) (i : Nat) (s : State), s.reaches a = true → i < 4 → s.owned i = false →
    (s.stepValue i).natAbs ≤ s.jumpLim i →
    ∃ t, exec (.tiStep a i) s = .next t ∧ t.rg (F.TE_TI_CMD_RESULT i) = 1 ∧
      t.tiOf i = Ti.ofTotal (((s.tiNs i : Int) + s.stepValue i) % (tiWrap : Int)).toNat (s.tiOf i).frac ∧
      (∀ j, j ≠ i → t.tiOf j = s.tiOf j) ∧ t.evSet 137 = true) ∧
  (∀ (a : Agent) (i : Nat) (s : State), s.reaches a = true → i < 4 → s.owned i = false →
    s.jumpLim i < (s.stepValue i).natAbs →
    ∃ t, exec (.tiStep a i) s = .next t ∧ t.rg (F.TE_TI_CMD_RESULT i) = 2 ∧ t.te = s.te ∧
      t.rg (F.TE_TI_STAT_JUMP_REFUSED i) = 1 ∧ t.evSet 128 = true) ∧
  (∀ (a : Agent) (i : Nat) (s : State), s.reaches a = true → i < 4 → s.owned i = true →
    ∃ t u, exec (.tiStep a i) s = .next t ∧ t.rg (F.TE_TI_CMD_RESULT i) = 3 ∧ t.te = s.te ∧
      exec (.tiSet a i) s = .next u ∧ u.rg (F.TE_TI_CMD_RESULT i) = 3 ∧ u.te = s.te) ∧
  (∀ (a : Agent) (i : Nat) (s : State), s.reaches a = true → i < 4 → s.owned i = false →
    s.rg (F.TE_TI_SET_NS_NS i) < giga →
    (s.tiSet i = true →
      (2 ^ 32 * (s.setValue i : Int) - (2 ^ 32 * s.tiNs i + (s.tiOf i).frac)).natAbs ≤ 2 ^ 32 * s.jumpLim i) →
    ∃ t, exec (.tiSet a i) s = .next t ∧ t.rg (F.TE_TI_CMD_RESULT i) = 1 ∧ t.rg (F.TE_TI_STAT_SET i) = 1 ∧
      t.tiOf i = Ti.ofTotal (s.setValue i % tiWrap) 0 ∧ (∀ j, j ≠ i → t.tiOf j = s.tiOf j)) ∧
  (∀ (a : Agent) (i : Nat) (s : State), s.reaches a = true → i < 4 → s.owned i = false →
    s.rg (F.TE_TI_SET_NS_NS i) < giga → s.tiSet i = true →
    2 ^ 32 * s.jumpLim i < (2 ^ 32 * (s.setValue i : Int) - (2 ^ 32 * s.tiNs i + (s.tiOf i).frac)).natAbs →
    ∃ t, exec (.tiSet a i) s = .next t ∧ t.rg (F.TE_TI_CMD_RESULT i) = 2 ∧ t.te = s.te ∧
      t.rg (F.TE_TI_STAT_JUMP_REFUSED i) = 1 ∧ t.evSet 128 = true) ∧
  (∀ (a : Agent) (i : Nat) (s : State), s.reaches a = true → i < 4 →
    ∃ t, exec (.tiUnset a i) s = .next t ∧ t.rg (F.TE_TI_STAT_SET i) = 0 ∧ t.rg (F.TE_TI_CMD_RESULT i) = 1 ∧ t.te = s.te)

/-- (1) the first Sync of an UNSET instance sets it without the guard; (2) a Sync whose offset exceeds JUMP_LIM leaves
the time, begins SETTLE in state 4 and sets JUMP_REFUSED; (3) a Sync of another DOMAIN does nothing; (4) without
GM_CAPABLE a Sync timeout leads to state 4; (5) with GM_CAPABLE and no other master it leads to grandmaster; (6) the
end of SETTLE leads to BIG_OFFSET above 10 ms, else to SLEWING, and moves no time; (7) a grandmaster sends its Sync,
its Follow_Up, its Announce and a peer delay request at a port of the instance that is up. Taken from R274 to R277,
of which it states only the cases above. Readings of the model it goes by: log 44, 45, 84. -/
def Obligations.ServoCommands : Prop :=
  (∀ (i port dom gmid prio : Nat) (off : Int) (s : State), i < 4 → s.asPort i port = true →
    dom = s.act (F.TE_AS_CFG_DOMAIN i) → s.tiSet i = false →
    ∃ t, exec (.syncReceived i port dom off gmid prio) s = .next t ∧ t.rg (F.TE_TI_STAT_SET i) = 1 ∧
      t.tiOf i = Ti.ofTotal (((s.tiNs i : Int) + off) % (tiWrap : Int)).toNat 0 ∧ t.asState i = 2) ∧
  (∀ (i port dom gmid prio : Nat) (off : Int) (s : State), i < 4 → s.asPort i port = true →
    dom = s.act (F.TE_AS_CFG_DOMAIN i) → s.tiSet i = true → (s.asState i = 2 ∨ s.asState i = 3) →
    s.jumpLim i < off.natAbs →
    ∃ t, exec (.syncReceived i port dom off gmid prio) s = .next t ∧ t.te.ti = s.te.ti ∧ t.asState i = 4 ∧
      (t.servoOf i).settling = true ∧ t.rg (F.TE_TI_STAT_JUMP_REFUSED i) = 1) ∧
  (∀ (i port dom gmid prio : Nat) (off : Int) (s : State), dom ≠ s.act (F.TE_AS_CFG_DOMAIN i) →
    exec (.syncReceived i port dom off gmid prio) s = .next s) ∧
  (∀ (i : Nat) (other : Option Nat) (s : State), i < 4 → s.owned i = true → (s.asState i = 2 ∨ s.asState i = 3) →
    s.act (F.TE_AS_CFG_GM_CAPABLE i) = 0 →
    ∃ t, exec (.syncTimeout i other) s = .next t ∧ t.asState i = 4 ∧ t.te.ti = s.te.ti) ∧
  (∀ (i : Nat) (s : State), i < 4 → s.owned i = true → (s.asState i = 2 ∨ s.asState i = 3) →
    s.act (F.TE_AS_CFG_GM_CAPABLE i) = 1 →
    ∃ t, exec (.syncTimeout i none) s = .next t ∧ t.asState i = 6 ∧ t.te.ti = s.te.ti) ∧
  (∀ (i : Nat) (s : State), i < 4 → s.owned i = true → s.asState i = 4 → (s.servoOf i).settling = true →
    ∃ t, exec (.settleExpiry i) s = .next t ∧ (t.servoOf i).settling = false ∧ t.te.ti = s.te.ti ∧
      t.asState i = (if (signed32 (s.rg (F.TE_AS_OFFSET_NS i))).natAbs > 10000000 then 7 else 5)) ∧
  (∀ (i p : Nat) (s : State), i < 4 → s.owned i = true → (p < 24 ∨ p = 40) → s.asPort i p = true →
    s.portUp p = true → s.asState i = 6 →
    ∃ t, exec (.syncTransmit i) s = .next t ∧ .gptpSync i p (s.act (F.TE_AS_CFG_DOMAIN i)) ∈ t.out ∧
      (∃ stamp, .gptpFollowUp i p (s.act (F.TE_AS_CFG_DOMAIN i)) stamp ∈ t.out) ∧
      .gptpAnnounce i p (s.act (F.TE_AS_CFG_DOMAIN i)) (s.rd64 (R.TE_AS_GMID_LO i))
        (s.act (F.TE_AS_CFG_PRIORITY1 i)) ∈ t.out ∧
      .gptpPdelayReq i p (s.act (F.TE_AS_CFG_DOMAIN i)) ∈ t.out ∧ within [.out] s t)

/-- (1) a TSYNC_IN edge that EDGE selects is captured behind the waiting captures, and raises 134 where none waited; (2)
with 8 captures waiting it is counted lost and raises 135; (3) the end of a TSYNC_OUT pulse gives the idle level;
(4) mode 2 gives one pulse at START; (5) mode 1 gives a pulse at the latest START + n PERIOD that has come and was
not given; (6, 7) an FBTC pair, of its source or of GO, holds the count, the instance's time at the count's edge and
its increment; 16 pairs are kept. Taken from R278, R279, R281, of which it states only the cases above. Readings of
the model it goes by: log 44. -/
def Obligations.TimePins : Prop :=
  (∀ (k : Nat) (rising : Bool) (s : State), k < 2 →
    (s.act (F.TE_TSI_CFG_EDGE k)).testBit (if rising then 0 else 1) = true →
    (Sparse.get (fun _ => []) s.te.tsi k).length < 8 →
    ∃ t, exec (.tsyncInEdge k rising) s = .next t ∧
      Sparse.get (fun _ => []) t.te.tsi k = Sparse.get (fun _ => []) s.te.tsi k ++
        [⟨(s.tiOf (s.act (F.TE_TSI_CFG_TI k))).sec, (s.tiOf (s.act (F.TE_TSI_CFG_TI k))).ns,
          (s.tiOf (s.act (F.TE_TSI_CFG_TI k))).frac / 2 ^ 24, rising⟩] ∧
      (s.socUp = true → Sparse.get (fun _ => []) s.te.tsi k = [] → t.evSet 134 = true)) ∧
  (∀ (k : Nat) (rising : Bool) (s : State), k < 2 → s.socUp = true →
    (s.act (F.TE_TSI_CFG_EDGE k)).testBit (if rising then 0 else 1) = true →
    8 ≤ (Sparse.get (fun _ => []) s.te.tsi k).length →
    ∃ t, exec (.tsyncInEdge k rising) s = .next t ∧ t.te = s.te ∧ t.evSet 135 = true ∧
      t.rg (F.TE_TSI_LOST_COUNT k) = min (s.rg (F.TE_TSI_LOST_COUNT k) + 1) (2 ^ 32 - 1)) ∧
  (∀ (k : Nat) (u : TsoPulse) (s : State), k < 2 → (s.tsoOf k).pulse = some u → u.ends ≤ s.tiNs u.ti →
    ∃ t, exec (.tsyncOutEdge k) s = .next t ∧ t.tsoOf k = { s.tsoOf k with pulse := none } ∧
      t.out = .tsync k (State.tsoLevel u.invert false) :: s.out) ∧
  (∀ (k : Nat) (s : State), k < 2 → (s.tsoOf k).last = none → (s.tsoOf k).pulse = none → s.act (F.TE_TSO_CFG_MODE k) = 2 →
    s.tsoStart k ≤ s.tiNs (s.act (F.TE_TSO_CFG_TI k)) →
    ∃ t, exec (.tsyncOutEdge k) s = .next t ∧
      t.tsoOf k = ⟨some (s.tsoStart k), s.act (F.TE_TSO_CFG_TI k),
        some ⟨s.act (F.TE_TSO_CFG_TI k), s.tsoStart k + s.tsoWidth k, s.tsoInvert k⟩, s.tsoInvert k⟩ ∧
      t.out = .tsync k (State.tsoLevel (s.tsoInvert k) true) :: s.out) ∧
  (∀ (k n : Nat) (s : State), k < 2 → (s.tsoOf k).pulse = none → s.act (F.TE_TSO_CFG_MODE k) = 1 →
    s.tsoStart k + n * s.tsoPeriod k ≤ s.tiNs (s.act (F.TE_TSO_CFG_TI k)) →
    s.tiNs (s.act (F.TE_TSO_CFG_TI k)) < s.tsoStart k + (n + 1) * s.tsoPeriod k →
    (∀ l, (s.tsoOf k).last = some l → l < s.tsoStart k + n * s.tsoPeriod k) →
    ∃ t, exec (.tsyncOutEdge k) s = .next t ∧ (t.tsoOf k).last = some (s.tsoStart k + n * s.tsoPeriod k) ∧
      t.out = .tsync k (State.tsoLevel (s.tsoInvert k) true) :: s.out) ∧
  (∀ s : State, s.socUp = true →
    ∃ t, exec .fbtcPair s = .next t ∧ t.te.pairs.head? =
      some ⟨s.te.fbtc, s.countTime (s.act F.TE_PAIR_CFG_PAIR_TI), s.incEff (s.act F.TE_PAIR_CFG_PAIR_TI)⟩ ∧
      t.te.pairs.length ≤ 16 ∧ within [.te] s t) ∧
  (∀ (a : Agent) (data : Word) (s : State), s.reaches a = true → data.getLsbD 0 = true →
    ∃ t, exec (.pairGo a data) s = .next t ∧ t.resp = .done ∧ t.te.pairs.head? =
      some ⟨s.te.fbtc, s.countTime (s.act F.TE_PAIR_CFG_PAIR_TI), s.incEff (s.act F.TE_PAIR_CFG_PAIR_TI)⟩)

/-- (1) a start of frame at a port that is up takes the next frame record with the port's epoch, its time instance and
its stamp; (2) further bytes take the next bank's cell; (3) a frame over the maximum length ends reception with
RX_OVERSIZE, and what follows is skipped; (4) a bad FCS ends it with RX_FCS_ERR; (5) a good end of a MAC port counts
RX_FRAMES and keeps the bytes without the FCS; (6) a frame cut short counts RX_SYMBOL_ERR. In 3, 4 and 6 the frame
becomes DROP, and its record is free at once before its pass; after its pass the record stays at least while no MAC
transmit queue holds a copy. Taken from R22, R132 to R135, R160, R161, of which it states only the cases above.
Readings of the model it goes by: log 38, 41. -/
def Obligations.FrameReception : Prop :=
  (∀ (port d : Nat) (s : State), port < 41 → s.portUp port = true → s.rxOf port = none →
    s.px.jabbering.testBit port = false →
    ∃ t f, exec (.rxStartOfFrame port d) s = .next t ∧ t.rxOf port = some s.sx.nextId ∧
      t.frameOf s.sx.nextId = some f ∧ f.port = port ∧ f.epoch = s.portEpoch port ∧
      f.ti = s.cfg (s.portEpoch port) (F.TE_PORT_CFG_STAMP_TI port) ∧
      f.stamp = s.ingressStamp (s.portEpoch port) port ∧ f.verdict = .ok ∧ f.cells = [] ∧
      (∀ id, id ≠ s.sx.nextId → t.frameOf id = s.frameOf id) ∧ (∀ p, p ≠ port → t.rxOf p = s.rxOf p)) ∧
  (∀ (port id b : Nat) (bytes : List Byte) (f : Frame) (s : State), port < 41 → s.rxOf port = some id →
    s.frameOf id = some f → f.zombie = false → f.ce = none → beAt (f.bytes ++ bytes) 12 2 ≠ 0x8808 →
    cellsFor (f.len + bytes.length) = f.cells.length + 1 → (s.addBytes id bytes).nextBank = some b →
    ∃ t u, exec (.rxRuntMinReached port bytes) s = .next t ∧ exec (.rxCellAllocate port bytes) s = .next u ∧
      t.frameOf id = some { f with bytes := f.bytes ++ bytes, len := f.len + bytes.length, cells := f.cells ++ [b] } ∧
      u.frameOf id = t.frameOf id ∧ t.rxOf port = some id ∧ u.rxOf port = some id) ∧
  (∀ (port id : Nat) (f : Frame) (s : State), port < 41 → s.rxOf port = some id → s.frameOf id = some f →
    f.zombie = false →
    ∃ t, exec (.rxOversize port) s = .next t ∧ t.rxOf port = none ∧ t.sx.skip.testBit port = true ∧
      t.rg (F.PX_RX_OVERSIZE_COUNT port) = min (s.rg (F.PX_RX_OVERSIZE_COUNT port) + 1) (2 ^ 32 - 1) ∧
      (∀ g, t.frameOf id = some g → g.verdict = .drop ∧ g.rxDone = true ∧ g.good = false) ∧
      (f.pass = 0 → t.frameOf id = none) ∧
      (f.pass ≠ 0 → (∀ e ∈ s.sx.mqs, e.2 = []) → t.frameOf id ≠ none)) ∧
  (∀ (port id : Nat) (bytes : List Byte) (f : Frame) (s : State), port < 41 → hasMac port = true →
    s.rxOf port = some id → s.frameOf id = some f → f.zombie = false → f.ce = none →
    s.runtMin f.epoch port ≤ (f.bytes ++ bytes).length → (f.bytes ++ bytes).length ≤ s.maxLen f.epoch port →
    (f.bytes ++ bytes).drop ((f.bytes ++ bytes).length - 4) ≠ fcsBytes ((f.bytes ++ bytes).take ((f.bytes ++ bytes).length - 4)) →
    ∃ t, exec (.rxEndOfFrame port bytes) s = .next t ∧ t.rxOf port = none ∧
      t.rg (F.PX_RX_FCS_ERR_COUNT port) = min (s.rg (F.PX_RX_FCS_ERR_COUNT port) + 1) (2 ^ 32 - 1) ∧
      (∀ g, t.frameOf id = some g → g.verdict = .drop ∧ g.rxDone = true ∧ g.good = false) ∧
      (f.pass = 0 → t.frameOf id = none) ∧
      (f.pass ≠ 0 → (∀ e ∈ s.sx.mqs, e.2 = []) → t.frameOf id ≠ none)) ∧
  (∀ (port id : Nat) (bytes : List Byte) (f : Frame) (s : State), port < 24 ∨ port = 40 →
    s.rxOf port = some id → s.frameOf id = some f → f.zombie = false → f.ce = none →
    s.runtMin f.epoch port ≤ (f.bytes ++ bytes).length → (f.bytes ++ bytes).length ≤ s.maxLen f.epoch port →
    (f.bytes ++ bytes).drop ((f.bytes ++ bytes).length - 4) = fcsBytes ((f.bytes ++ bytes).take ((f.bytes ++ bytes).length - 4)) →
    beAt ((f.bytes ++ bytes).take ((f.bytes ++ bytes).length - 4)) 12 2 ≠ 0x8808 →
    cellsFor (f.bytes ++ bytes).length = f.cells.length →
    ∃ t, exec (.rxEndOfFrame port bytes) s = .next t ∧ t.rxOf port = none ∧
      t.rd64 (R.PX_RX_FRAMES port) = (s.rd64 (R.PX_RX_FRAMES port) + 1) % 2 ^ 64 ∧
      ((∀ e ∈ s.sx.mqs, e.2 = []) → t.frameOf id ≠ none) ∧
      ∀ g, t.frameOf id = some g → g.rxDone = true ∧ g.good = true ∧ g.verdict = f.verdict ∧
      g.len = (f.bytes ++ bytes).length ∧ g.bytes = (f.bytes ++ bytes).take ((f.bytes ++ bytes).length - 4)) ∧
  (∀ (port id : Nat) (f : Frame) (s : State), port < 41 → s.rxOf port = some id → s.frameOf id = some f →
    f.zombie = false → f.cells ≠ [] →
    ∃ t, exec (.rxCutShort port) s = .next t ∧ t.rxOf port = none ∧
      t.rg (F.PX_RX_SYMBOL_ERR_COUNT port) = min (s.rg (F.PX_RX_SYMBOL_ERR_COUNT port) + 1) (2 ^ 32 - 1) ∧
      (∀ g, t.frameOf id = some g → g.verdict = .drop ∧ g.rxDone = true ∧ g.good = false) ∧
      (f.pass = 0 → t.frameOf id = none) ∧
      (f.pass ≠ 0 → (∀ e ∈ s.sx.mqs, e.2 = []) → t.frameOf id ≠ none))

/-- (1) the chosen head goes to the end of its MAC transmit queue with its dequeue time; (2) a head within 2 us of its
launch time and not later than LATE_LIM after it becomes eligible, held until that time; (3) a later head with
LATE_ACT 0 leaves the queue; (4) a shaped queue's credit is restored to 0 where it was negative; (5) a held head is
released. Taken from R24, R139, R244, R246, R252, R253, of which it states only the cases above. Readings of the
model it goes by: log 39, 41, 83. -/
def Obligations.SchedulerCommands : Prop :=
  (∀ (port tc : Nat) (c : Copy) (rest : List Copy) (s u : State), port < 41 → hasMac port = true →
    (s.forEach (List.range 8) (fun t i => t.cleanQueue (qOf port i) ((t.queueOf (qOf port i)).die.length))).choose port =
      (u, some tc) → (u.queueOf (qOf port tc)).die = c :: rest →
    ∃ t, exec (.scHandover port) s = .next t ∧
      t.mqOf port (u.mqFor c) = u.mqOf port (u.mqFor c) ++ [{ c with deq := some u.now }] ∧
      (t.queueOf (qOf port tc)).die = rest) ∧
  (∀ (q now : Nat) (c : Copy) (rest : List Copy) (s : State), q < 328 → s.timed q = true →
    (s.queueOf q).die = c :: rest → now = s.tiNs (s.act (F.SC_PORT_CFG_TI_SEL (q / 8))) →
    s.launchOf c q ≤ (now : Int) + 2000 →
    (now : Int) ≤ s.launchOf c q + (s.act (F.SC_LAUNCH_CFG_LATE_LIM (q / 8)) : Nat) →
    exec (.launchEligible q) s =
      .next (s.setQueue q
        { s.queueOf q with die := { c with ready := true, hold := decide ((now : Int) < s.launchOf c q) } :: rest })) ∧
  (∀ (q now : Nat) (c : Copy) (rest : List Copy) (s : State), q < 328 → s.timed q = true → s.socUp = true →
    (s.queueOf q).die = c :: rest → now = s.tiNs (s.act (F.SC_PORT_CFG_TI_SEL (q / 8))) →
    s.launchOf c q + (s.act (F.SC_LAUNCH_CFG_LATE_LIM (q / 8)) : Nat) < (now : Int) →
    s.act (F.SC_LAUNCH_CFG_LATE_ACT (q / 8)) = 0 →
    ∃ t, exec (.launchEligible q) s = .next t ∧ (t.queueOf q).die = rest ∧
      ∀ k, k ≠ q → t.queueOf k = s.queueOf k) ∧
  (∀ (q : Nat) (s : State), q < 328 → s.shaped q = true →
    exec (.shaperCreditRestored q) s =
      .next (s.setQueue q { s.queueOf q with credit := max 0 (s.creditNow q), creditAt := s.now })) ∧
  (∀ (port m : Nat) (c : Copy) (rest : List Copy) (s : State), port < 41 → m < 4 → s.mqOf port m = c :: rest →
    ∃ t, exec (.launchTimeReached port m) s = .next t ∧ t.mqOf port m = { c with hold := false } :: rest ∧
      (∀ p k, 4 * p + k ≠ 4 * port + m → t.mqOf p k = s.mqOf p k) ∧ within [.sx] s t)

/-- (1) a frame that is not OK at step 7 is discarded and counted in SX_DROP_VERDICT; (2) an OK frame, in its turn among
the frames of its port, enters the on-die queue of its egress port and no other; (3) an INGRESS copy for a port that
is down is lost and counted; (4) else it is written to its queue; (1) the MAC starts the head of its highest MAC
transmit queue whose head it may start; (2) a whole OK frame is sent with its FCS; (3) a frame that is no longer OK
is cut with the stomp bytes and raises 38; (4) an underrun ends the frame and raises 39. Taken from R24, R164, R168,
R184, R24, R25, R137, R139, of which it states only the cases above. Readings of the model it goes by: log 37, 39,
42, 74. -/
def Obligations.EgressCommands : Prop :=
  (∀ (id : Nat) (f : Frame) (s : State), s.frameOf id = some f → f.stage ≠ .queued → f.zombie = false →
    f.verdict ≠ .ok → f.rxDone = true → f.parent = none →
    ∃ t, exec (.sxEnqueue id) s = .next t ∧ t.frameOf id = none ∧ t.sx.queues = s.sx.queues ∧
      t.rg F.SX_DROP_VERDICT_COUNT = min (s.rg F.SX_DROP_VERDICT_COUNT + 1) (2 ^ 32 - 1)) ∧
  (∀ (id p : Nat) (f : Frame) (s : State), s.frameOf id = some f → s.atEnqueue f = true → s.enqueueTurn id f = true →
    State.isWhole f = true →
    f.verdict = .ok → p < 41 → f.egress = 2 ^ p → f.tc < 8 → s.byCopies f = false → s.portUp p = true →
    s.beyondHorizon f (qOf p f.tc) = false → s.admits f (qOf p f.tc) (cellsFor f.len) (some id) = .die →
    ∃ t g, exec (.sxEnqueue id) s = .next t ∧
      (t.queueOf (qOf p f.tc)).die = (s.queueOf (qOf p f.tc)).die ++
        [s.newCopy f id (qOf p f.tc) (s.cutOk f) f.group.isSome] ∧
      (∀ q, q ≠ qOf p f.tc → t.queueOf q = s.queueOf q) ∧
      t.frameOf id = some g ∧ g.stage = .queued ∧ g.live = f.live + 1 ∧ g.bytes = f.bytes) ∧
  (∀ (id p : Nat) (f : Frame) (s : State), s.frameOf id = some f → lowestBit f.copying 41 = some p →
    clrBit f.copying p ≠ 0 → s.portUp p = false →
    ∃ t, exec (.ingressCopyWrite id) s = .next t ∧ t.frameOf id = some { f with copying := clrBit f.copying p, egress := clrBit f.egress p } ∧
      t.rg (F.SX_DROP_DOWN_COUNT p) = min (s.rg (F.SX_DROP_DOWN_COUNT p) + 1) (2 ^ 32 - 1)) ∧
  (∀ (id p k : Nat) (f c : Frame) (s u v w : State), s.frameOf id = some f → lowestBit f.copying 41 = some p →
    s.portUp p = true → u = s.modFrame id (fun f => { f with copying := clrBit f.copying p }) →
    u.beyondHorizon f (qOf p f.tc) = false → u.admits f (qOf p f.tc) (cellsFor f.len) (some id) = .die →
    u.addClone id f = (v, k) → w = v.takeCells k (cellsFor f.len) → w.frameOf k = some c →
    cellsFor f.len ≤ c.cells.length →
    ∃ t, exec (.ingressCopyWrite id) s = .next t ∧
      (t.queueOf (qOf p f.tc)).die = (s.queueOf (qOf p f.tc)).die ++ [u.newCopy f k (qOf p f.tc) false true]) ∧
  (∀ (port m : Nat) (c : Copy) (rest : List Copy) (s u : State), hasMac port = true → s.portUp port = true →
    s.txOf port = none →
    u = s.forEach [0, 0, 1, 1, 2, 2, 3, 3] (fun t k => t.cleanMq port k) →
    m < 4 → u.mqOf port m = c :: rest → u.startable c = true →
    (∀ k < 4, m < k → (u.mqOf port k).head?.any u.startable = false) →
    ∃ t x, exec (.txStart port) s = .next t ∧ t.txOf port = some x ∧ x.copy = c ∧ x.started = u.now ∧
      t.mqOf port m = rest) ∧
  (∀ (port : Nat) (x : TxNow) (f : Frame) (s : State), hasMac port = true → s.txOf port = some x →
    x.copy.port = port → s.frameOf x.copy.frame = some f → State.isWhole f = true → f.verdict = .ok →
    ∃ t, exec (.txEndOfFrame port) s = .next t ∧ t.txOf port = none ∧
      .frame port (s.leaving x.copy ++ fcsBytes (s.leaving x.copy)) ∈ t.out) ∧
  (∀ (port sent : Nat) (x : TxNow) (bs : List Byte) (f : Frame) (s : State), hasMac port = true → s.socUp = true →
    s.txOf port = some x → x.copy.port = port → s.frameOf x.copy.frame = some f → f.verdict ≠ .ok →
    State.stompBytes (s.leaving x.copy) (f.rxDone && decide (f.badWhy ≠ 2)) x.copy.sealed.isSome sent = some bs →
    ∃ t, exec (.stomp port sent) s = .next t ∧ t.txOf port = none ∧ .frame port bs ∈ t.out ∧ t.evSet 38 = true) ∧
  (∀ (port sent : Nat) (x : TxNow) (s : State), hasMac port = true → s.socUp = true → s.txOf port = some x →
    x.copy.port = port →
    ∃ t, exec (.txUnderrun port sent) s = .next t ∧ t.txOf port = none ∧ t.evSet 39 = true)

/-- (1) a transit parity error sets its frame to DROP, no other, and is counted in its fault class; (2) the eighth
within 100 us stalls the stage; (3) the stage, and no other, resumes; (4) an ingress port, and no other, adopts the
current epoch; patrol scrubbing: (1) a corrected error of a buffer bank is counted; (2) an uncorrectable one fences
a bank in service; (3) one of a learned entry removes it from the FDB and raises 102; (4) one of a message RAM word
of any controller marks its code word and counts it, no other controller's; (5) a corrected error of DRAM is
counted; (6) an uncorrectable one of DRAM is counted, raises 216, and the first address is kept; (7) one of an
FX_FRER entry puts the entry out of use and raises 102; (8) a corrected one of a message RAM is counted; (9) one of
a core's cache line gives the core an access fault. Taken from R22, R28, R125, R190, R191, R225, R317, R510, of
which it states only the cases above. Readings of the model it goes by: log 36, 43. -/
def Obligations.ParityAndScrub : Prop :=
  (∀ (unit id : Nat) (f : Frame) (s : State), unit < 65536 → s.frameOf id = some f → (s.parityOf unit).length < 7 →
    ∃ t, exec (.transitParityError unit id) s = .next t ∧ t.frameOf id = some { f with verdict := .drop } ∧
      (∀ k, k ≠ id → t.frameOf k = s.frameOf k) ∧ t.fx.stalled = s.fx.stalled ∧
      t.rg (F.SV_FLT_COUNT_COUNT 1) = min (s.rg (F.SV_FLT_COUNT_COUNT 1) + 1) (2 ^ (F.SV_FLT_COUNT_COUNT 1).wid - 1) ∧
      Sparse.get (fun _ => []) t.fx.parityAt unit = s.now :: s.parityOf unit) ∧
  (∀ (unit id : Nat) (s : State), unit < 65536 → 7 ≤ (s.parityOf unit).length →
    ∃ t, exec (.transitParityError unit id) s = .next t ∧ t.fx.stalled.testBit unit = true ∧
      Sparse.get (fun _ => []) t.fx.parityAt unit = []) ∧
  (∀ (unit : Nat) (s : State), unit < 65536 →
    ∃ t, exec (.parityStormResume unit) s = .next t ∧ t.fx.stalled.testBit unit = false ∧
      (∀ k, k ≠ unit → t.fx.stalled.testBit k = s.fx.stalled.testBit k) ∧ within [.fx] s t) ∧
  (∀ (port : Nat) (s : State), s.socUp = true → port < 41 →
    ∃ t, exec (.epochAdoption port) s = .next t ∧ t.portEpoch port = s.epoch % 256 ∧
      ∀ p, p ≠ port → t.portEpoch p = s.portEpoch p) ∧
  (∀ (entry : Nat) (s : State), s.socUp = true →
    ∃ t, exec (.patrolScrub 0 entry 1) s = .next t ∧ t.sx = s.sx ∧
      t.rg (F.SX_BANK_CE_COUNT (entry / 16384 % 16)) =
        min (s.rg (F.SX_BANK_CE_COUNT (entry / 16384 % 16)) + 1) (2 ^ 32 - 1)) ∧
  (∀ (entry : Nat) (s : State), s.socUp = true → s.bankOut (entry / 16384 % 16) = false →
    ∃ t, exec (.patrolScrub 0 entry 2) s = .next t ∧
      ∃ m ∈ t.mend.facts, m.kind = 1 ∧ m.unit = entry / 16384 % 16 ∧ m.owner = 14 ∧ m.id = t.mend.lastId) ∧
  (∀ (slot : Nat) (e : FdbEntry) (s : State), s.socUp = true → s.fdbAt slot = some e → e.static = false →
    ∃ t, exec (.patrolScrub 1 slot 2) s = .next t ∧ t.fdbAt slot = none ∧
      t.rg F.FX_TBL_UE_COUNT = min (s.rg F.FX_TBL_UE_COUNT + 1) (2 ^ 32 - 1) ∧ t.evSet 102 = true) ∧
  (∀ (c word : Nat) (s : State), s.socUp = true → c < 16 → word < 65536 →
    ∃ t, exec (.patrolScrub 3 (65536 * c + word) 2) s = .next t ∧ t.ramBad c word = true ∧
      (∀ k < 16, k ≠ c → t.canOf k = s.canOf k) ∧
      t.rg (F.BX_CAN_ECC_UE_COUNT c) = min (s.rg (F.BX_CAN_ECC_UE_COUNT c) + 1) (2 ^ 32 - 1)) ∧
  (∀ (entry : Nat) (s : State), s.socUp = true →
    ∃ t, exec (.patrolScrub 4 entry 1) s = .next t ∧ t.mx = s.mx ∧
      t.rg F.MX_DRAM_CE_COUNT = min (s.rg F.MX_DRAM_CE_COUNT + 1) (2 ^ 32 - 1)) ∧
  (∀ (entry : Nat) (s : State), s.socUp = true → s.rd64 R.MX_DRAM_UE_ADDR_LO = 0 →
    ∃ t, exec (.patrolScrub 4 entry 2) s = .next t ∧ t.evSet 216 = true ∧
      t.rg F.MX_DRAM_UE_COUNT = min (s.rg F.MX_DRAM_UE_COUNT + 1) (2 ^ 32 - 1) ∧
      t.rd64 R.MX_DRAM_UE_ADDR_LO = entry % 2 ^ 64) ∧
  (∀ (entry : Nat) (s : State), s.socUp = true → s.entryOk 0x39 entry = true →
    ∃ t, exec (.patrolScrub 0x39 entry 2) s = .next t ∧ t.entryOk 0x39 entry = false ∧ t.evSet 102 = true) ∧
  (∀ (c word : Nat) (s : State), s.socUp = true → c < 16 → word < 65536 →
    ∃ t, exec (.patrolScrub 3 (65536 * c + word) 1) s = .next t ∧ t.bx = s.bx ∧
      t.rg (F.BX_CAN_ECC_CE_COUNT c) = min (s.rg (F.BX_CAN_ECC_CE_COUNT c) + 1) (2 ^ 32 - 1)) ∧
  (∀ (entry : Nat) (s : State), s.socUp = true →
    ∃ t, exec (.patrolScrub 5 entry 2) s = .next t ∧ t.out.head? = some (.accessFault (entry % 8) (entry / 8)))

/-- (1) the fill page of a queue closes at its timeout, and nothing else of the queues changes; (2) outside SEALED the
page that closed first is written to the free page in the clear; (3) under SEALED it is encrypted for its page
number; (4) a refill takes the next page in its queue's turn while 16 cells are free; (5) a refilled page before
others gives its copies to the die queue, less one that continues in the next page; (6) the last one ends SPILL and
gives its frames the bytes that the page held; (7) the first detached chain returns; (8) a drained Hamper is judged
ACTIVE or off; (9) a page lost to an uncorrectable error is retired, raises 71, and leaves its queue. Taken from
R170, R173 to R180, of which it states only the cases above. Readings of the model it goes by: log 42, 76. -/
def Obligations.HamperCommands : Prop :=
  (∀ (q : Nat) (s : State), q < 328 →
    ∃ t, exec (.fillPageTimeout q) s = .next t ∧
      (t.queueOf q).pages = (s.queueOf q).pages.map
        (fun p => if p.state = .fill then { p with state := .staged, closed := s.sx.closes } else p) ∧
      t.sx.closes = s.sx.closes + 1 ∧
      (t.queueOf q).die = (s.queueOf q).die ∧ (∀ k, k ≠ q → t.queueOf k = s.queueOf k) ∧ within [.sx] s t) ∧
  (∀ (q k : Nat) (p : HPage) (s : State), q < 328 → s.closedPage q = some (k, p) → s.runMode p.epoch ≠ 2 →
    ∃ t x, exec (.hamperPageWritten q) s = .next t ∧ (t.queueOf q).pages[k]? = some x ∧ x.state = .dram ∧
      x.no = s.freePageNo ∧ x.enc = false ∧ x.cells = p.cells ∧
      x.copies = p.copies.map (fun c => { c with hamOut := some s.now })) ∧
  (∀ (q k : Nat) (p : HPage) (key : Nat × Nat) (s : State), q < 328 → s.closedPage q = some (k, p) →
    s.runMode p.epoch = 2 → s.pairs ≠ [] → s.ce.ham = some key →
    ∃ t x, exec (.hamperPageWritten q) s = .next t ∧ (t.queueOf q).pages[k]? = some x ∧ x.state = .dram ∧
      x.no = s.freePageNo ∧ x.enc = true ∧ x.cells = State.hamEnc key s.freePageNo p.cells) ∧
  (∀ (q n : Nat) (p : HPage) (s : State), q < 328 → s.wantsRefill q = true → s.refillTurn q = true →
    16 ≤ s.freeCells none → s.nextPage q = (some p, n) → p.state = .dram →
    ∃ t, exec (.refillStart q) s = .next t ∧
      (t.queueOf q).pages = (s.queueOf q).pages.modify n (fun p => { p with state := .refilling }) ∧
      (∀ k, k ≠ q → t.queueOf k = s.queueOf k)) ∧
  (∀ (q : Nat) (p r : HPage) (rest : List HPage) (s : State), q < 328 → (s.queueOf q).pages = p :: r :: rest →
    p.state = .refilling → p.enc = false →
    ∃ t, exec (.refillDone q) s = .next t ∧ (t.queueOf q).pages.length = rest.length + 1 ∧
      (t.queueOf q).die.length = (s.queueOf q).die.length + (State.pageSplit p (some r)).1.length ∧
      ∀ k, k ≠ q → t.queueOf k = s.queueOf k) ∧
  (∀ (q : Nat) (p : HPage) (s : State), q < 328 → (s.queueOf q).pages = [p] → p.state = .refilling → p.enc = false →
    ∃ t, exec (.refillDone q) s = .next t ∧ (t.queueOf q).pages = [] ∧ (t.queueOf q).spill = false ∧
      (t.queueOf q).die = (s.queueOf q).die ++ p.copies.map (fun c => { c with hamIn := some s.now }) ∧
      ∀ (c : Copy) (f : Frame), p.copies = [c] → s.frameOf c.frame = some f →
        ∃ g, t.frameOf c.frame = some g ∧
          g.bytes = State.hamBytes f ((State.pageCells p p.cells).take (hamCells f.len))) ∧
  (∀ (d : Detached) (rest : List Detached) (s : State), s.sx.detached = d :: rest →
    ∃ t, exec .pageReturn s = .next t ∧ t.sx.detached = rest ∧ t.sx.queues = s.sx.queues) ∧
  (∀ s : State, s.hamState = 2 → s.hamUsed = 0 →
    ∃ t, exec .hamperDrained s = .next t ∧ t.hamState = (if s.hamWanted then 1 else 0)) ∧
  (∀ (q k : Nat) (p : HPage) (s : State), q < 328 → s.socUp = true → (s.queueOf q).pages[k]? = some p →
    p.state = .refilling →
    ∃ t, exec (.hamperPageUe q k) s = .next t ∧ t.sx.retired = s.sx.retired ++ [p.no] ∧ t.evSet 71 = true ∧
      (t.queueOf q).pages = (pagesAfterLoss (s.queueOf q).pages k).1)

/-- (1) a frame with a directive goes where it says; (2) a tagged frame outside its VLAN becomes DROP and is counted;
(3) a link-local reserved destination goes to P39 alone; (4, 5) the second pass of a frame that CE released does as
2 and 3 say. Taken from R22, R196, R198, of which it states only the cases above. Readings of the model it goes by:
log 38, 43, 86. -/
def Obligations.PipelinePass : Prop :=
  (∀ (id due m : Nat) (f : Frame) (s : State), s.frameOf id = some f → f.pass = 0 → f.zombie = false →
    f.verdict = .ok → f.cells ≠ [] → f.rxDone = true → s.fx.stalled = 0 → s.slotTurn id f = true →
    f.directive = some m →
    ∃ t g, exec (.fxPipelinePass id due) s = .next t ∧ t.frameOf id = some g ∧ g.egress = m % 2 ^ 41 ∧ g.pass = 1 ∧
      g.stage = .looked ∧ g.verdict = .ok ∧ g.bytes = f.bytes) ∧
  (∀ (id due : Nat) (f : Frame) (s : State), f.port < 41 → s.frameOf id = some f → f.pass = 0 → f.zombie = false →
    f.verdict = .ok → f.cells ≠ [] → f.rxDone = true → s.fx.stalled = 0 → s.slotTurn id f = true →
    f.directive = none →
    (parseHdr f.bytes).ctag = true → 1 ≤ (parseHdr f.bytes).tvid → s.cfg f.epoch (F.FX_PORT_CFG_ACCEPT f.port) = 0 →
    (s.vlanMembers f.epoch (parseHdr f.bytes).tvid).testBit f.port = false →
    ∃ t g, exec (.fxPipelinePass id due) s = .next t ∧ t.frameOf id = some g ∧ g.verdict = .drop ∧ g.pass = 1 ∧
      t.rg (F.FX_VLAN_DROP_COUNT f.port) = min (s.rg (F.FX_VLAN_DROP_COUNT f.port) + 1) (2 ^ 32 - 1)) ∧
  (∀ (id due : Nat) (f : Frame) (s : State), f.port < 41 → s.frameOf id = some f → f.pass = 0 → f.zombie = false →
    f.verdict = .ok → f.cells ≠ [] → f.rxDone = true → s.fx.stalled = 0 → s.slotTurn id f = true →
    f.directive = none →
    (parseHdr f.bytes).ctag = true → 1 ≤ (parseHdr f.bytes).tvid → (parseHdr f.bytes).tvid ≠ 4095 →
    s.cfg f.epoch (F.FX_PORT_CFG_ACCEPT f.port) = 0 → s.vlanValid f.epoch (parseHdr f.bytes).tvid = true →
    (s.vlanMembers f.epoch (parseHdr f.bytes).tvid).testBit f.port = true → linkLocal (parseHdr f.bytes).dmac = true →
    ∃ t g, exec (.fxPipelinePass id due) s = .next t ∧ t.frameOf id = some g ∧ g.egress = 2 ^ 39 ∧ g.verdict = .ok ∧
      g.vid = (parseHdr f.bytes).tvid ∧ g.pass = 1 ∧ t.fx = s.fx) ∧
  (∀ (id : Nat) (f : Frame) (s : State), s.frameOf id = some f → f.stage = .clear → f.zombie = false →
    f.verdict ≠ .drop → s.fx.stalled = 0 → f.directive = none → (parseHdr f.bytes).ctag = true →
    1 ≤ (parseHdr f.bytes).tvid → s.cfg f.epoch (F.FX_PORT_CFG_ACCEPT f.port) = 0 →
    (s.vlanMembers f.epoch (parseHdr f.bytes).tvid).testBit f.port = false →
    ∃ t g, exec (.secondPass id) s = .next t ∧ t.frameOf id = some g ∧ g.verdict = .drop ∧ g.pass = f.pass + 1 ∧
      g.stage = .looked) ∧
  (∀ (id : Nat) (f : Frame) (s : State), s.frameOf id = some f → f.stage = .clear → f.zombie = false →
    f.verdict ≠ .drop → s.fx.stalled = 0 → f.directive = none → (parseHdr f.bytes).ctag = true →
    1 ≤ (parseHdr f.bytes).tvid → (parseHdr f.bytes).tvid ≠ 4095 → s.cfg f.epoch (F.FX_PORT_CFG_ACCEPT f.port) = 0 →
    s.vlanValid f.epoch (parseHdr f.bytes).tvid = true →
    (s.vlanMembers f.epoch (parseHdr f.bytes).tvid).testBit f.port = true → linkLocal (parseHdr f.bytes).dmac = true →
    ∃ t g, exec (.secondPass id) s = .next t ∧ t.frameOf id = some g ∧ g.egress = 2 ^ 39 ∧ g.verdict = f.verdict ∧
      g.vid = (parseHdr f.bytes).tvid ∧ g.pass = f.pass + 1 ∧ g.stage = .looked ∧ t.fx = s.fx)

/-- (1) a learn request refreshes its entry; (2) or inserts one below its port's limit; (3) the age tick moves the time
on, removes the learned entries older than AGE_LIMIT and keeps all others; (4) a member that serves rejoins its path
group: every bucket whose HOME it is returns to it, no other moves, the moves are counted and raise 99; (5) a reset
of a recovery handle forgets its state, no other's, and raises 101; (1) READ, SEARCH, DELETE and FLUSH take their
key, index and filters and show BUSY; (2) a GO while BUSY changes nothing of it; (3) at the end BUSY is 0 and 103 is
raised; READ answers the entry at INDEX or status 4 beyond the table, SEARCH answers status 1 for no entry, DELETE
removes the learned entry, FLUSH without filters removes the learned entries and keeps the static ones. Taken from
R205 to R208, R218, R222, R229, of which it states only the cases above. Readings of the model it goes by: log 43,
66, 86. -/
def Obligations.BridgeTable : Prop :=
  (∀ (r : LearnReq) (n : Nat) (e : FdbEntry) (s : State), s.fx.learn.find? (·.ok) = some r →
    s.fdbStatic false r.fid r.mac = none → s.fdbLearned r.fid r.mac = some (n, e) → e.dest = r.port →
    ∃ t, exec .learnCommit s = .next t ∧ t.fx.learn = s.fx.learn.erase r ∧
      t.fdbAt n = some { e with stamp := s.rg F.FX_AGE_NOW_NOW } ∧ (∀ k, k ≠ n → t.fdbAt k = s.fdbAt k)) ∧
  (∀ (r : LearnReq) (n : Nat) (s : State), s.fx.learn.find? (·.ok) = some r →
    s.fdbStatic false r.fid r.mac = none → s.fdbLearned r.fid r.mac = none →
    s.learnedOn r.port < s.learnLim (s.epochOf r.frame) r.port → s.bucketSlot r.fid r.mac = some n →
    ∃ t, exec .learnCommit s = .next t ∧
      t.fdbAt n = some ⟨r.mac, r.fid, false, r.port, 0, s.rg F.FX_AGE_NOW_NOW, false, false⟩ ∧
      (∀ k, k ≠ n → t.fdbAt k = s.fdbAt k)) ∧
  (∀ s : State, s.socUp = true →
    ∃ t, exec .ageTick s = .next t ∧ t.rg F.FX_AGE_NOW_NOW = (s.rg F.FX_AGE_NOW_NOW + 1) % 2 ^ 16 ∧
      (∀ n, (∀ e, (n, e) ∈ s.fdbAll → e.static = true ∨ (s.tick F.FX_AGE_NOW_NOW).stampAge e ≤ s.ageLimit) →
        t.fdbAt n = s.fdbAt n) ∧
      (∀ n e, (n, e) ∈ s.fdbAll → e.static = false →
        s.ageLimit < (s.tick F.FX_AGE_NOW_NOW).stampAge e → t.fdbAt n = none)) ∧
  (∀ (pg m : Nat) (s : State), pg < 16 → m < 8 → (s.rejoinOf pg).testBit m = true → s.pgServing 0 pg m = true →
    ∃ t, exec (.pgRejoin pg m) s = .next t ∧ (t.rejoinOf pg).testBit m = false ∧
      (∀ k, k ≠ pg → t.rejoinOf k = s.rejoinOf k) ∧
      ((s.pgCurrent 0 pg).length = 256 → ∀ b < 256, (t.pgCurrent 0 pg).getD b 8 =
        if (State.pgHome (s.activeOf 3) pg).getD b 8 = m then m else (s.pgCurrent 0 pg).getD b 8) ∧
      t.rg (F.FX_PG_MOVES_COUNT pg) = min (s.rg (F.FX_PG_MOVES_COUNT pg) +
        ((s.pgCurrent 0 pg).zip (t.pgCurrent 0 pg)).countP (fun e => e.1 != e.2)) (2 ^ 32 - 1) ∧
      ((s.pgCurrent 0 pg).length = 256 → t.pgCurrent 0 pg ≠ s.pgCurrent 0 pg → s.socUp = true → t.evSet 99 = true)) ∧
  (∀ (h : Nat) (s : State), h < 1024 → s.socUp = true →
    ∃ t, exec (.frerReset h) s = .next t ∧ Sparse.get (fun _ => none) t.fx.recovery h = none ∧
      (∀ k, k ≠ h → Sparse.get (fun _ => none) t.fx.recovery k = Sparse.get (fun _ => none) s.fx.recovery k) ∧
      t.evSet 101 = true) ∧
  (∀ (a : Agent) (s : State), s.reaches a = true → s.fx.tableBusy = none →
    ∃ t u v w, exec (.fdbRead a) s = .next t ∧ t.rg F.FX_TBL_CMD_OP = 1 ∧ t.rg F.FX_TBL_CMD_BUSY = 1 ∧
      t.fx.tableBusy = some (s.tblOp a 1) ∧
      exec (.fdbSearch a) s = .next u ∧ u.rg F.FX_TBL_CMD_OP = 2 ∧ u.rg F.FX_TBL_CMD_BUSY = 1 ∧
      u.fx.tableBusy = some (s.tblOp a 2) ∧
      exec (.fdbDelete a) s = .next v ∧ v.rg F.FX_TBL_CMD_OP = 3 ∧ v.rg F.FX_TBL_CMD_BUSY = 1 ∧
      v.fx.tableBusy = some (s.tblOp a 3) ∧
      exec (.fdbFlush a) s = .next w ∧ w.rg F.FX_TBL_CMD_OP = 4 ∧ w.rg F.FX_TBL_CMD_BUSY = 1 ∧
      w.fx.tableBusy = some (s.tblOp a 4)) ∧
  (∀ (a : Agent) (x : TblOp) (s : State), s.fx.tableBusy = some x → s.reaches a = true →
    ∃ t u v w, exec (.fdbRead a) s = .next t ∧ t.fx = s.fx ∧ t.resp = .done ∧
      exec (.fdbSearch a) s = .next u ∧ u.fx = s.fx ∧ u.resp = .done ∧
      exec (.fdbDelete a) s = .next v ∧ v.fx = s.fx ∧ v.resp = .done ∧
      exec (.fdbFlush a) s = .next w ∧ w.fx = s.fx ∧ w.resp = .done) ∧
  (∀ (x : TblOp) (s : State), s.socUp = true → s.fx.tableBusy = some x →
    ∃ t, exec .fdbOpDone s = .next t ∧ t.fx.tableBusy = none ∧ t.rg F.FX_TBL_CMD_BUSY = 0 ∧ t.evSet 103 = true ∧
      (x.op = 1 → 65791 < x.index → t.rg F.FX_TBL_CMD_STATUS = 4) ∧
      (∀ e, x.op = 1 → x.index ≤ 65791 → s.fdbAt x.index = some e →
        t.rg F.FX_TBL_CMD_STATUS = 0 ∧ t.rd R.FX_TBL_DATA_0 = Word.ofNat e.mac) ∧
      (x.op = 2 → s.fdbStatic false x.fid x.mac = none →
        s.fdbLearned x.fid x.mac = none → t.rg F.FX_TBL_CMD_STATUS = 1) ∧
      (∀ n e, x.op = 3 → s.fdbLearned x.fid x.mac = some (n, e) →
        t.rg F.FX_TBL_CMD_STATUS = 0 ∧ (s.fdbAt n = some e → t.fdbAt n = none)) ∧
      (x.op = 4 → x.byPort = false → x.byFid = false →
        t.rg F.FX_TBL_CMD_STATUS = 0 ∧
        (∀ n, (∀ e, (n, e) ∈ s.fdbAll → e.static = true) → t.fdbAt n = s.fdbAt n) ∧
        ∀ n e, (n, e) ∈ s.fdbAll → e.static = false → t.fdbAt n = none))

/-- (1) a port's gate list shows the entry in force at its instance's time and its gates; (2) a waiting list starts at
its time, shows its entry and raises 80; (3) a stream gate shows its entry in force and OPEN, which INVALID_CLOSED
holds at 0; (4, 5) FX_PSFP_CLEAR releases the latches of a stream filter, or of a stream gate, and no other
register. Taken from R242, R243, R248, R249, R251, R256, of which it states only the cases above. -/
def Obligations.GateCommands : Prop :=
  (∀ (port e : Nat) (gl : GateList) (s : State), port < 41 → s.gclOf port = some gl →
    State.listEntry gl.base gl.cycle (gl.entries.map (·.2)) (s.tiNs gl.ti) = some e →
    ∃ t, exec (.gclEntryChange port) s = .next t ∧
      t.rg (F.SC_GCL_STAT_ENTRY port) = e % 2 ^ (F.SC_GCL_STAT_ENTRY port).wid ∧
      t.rg (F.SC_GCL_STAT_GATES port) = (gl.entries.getD e (0xFF, 1)).1 % 2 ^ 8 ∧ t.gclOf port = some gl) ∧
  (∀ (port b e : Nat) (gl : GateList) (s : State), port < 41 → s.socUp = true → s.gclWaiting port = some (gl, b) →
    b ≤ s.tiNs gl.ti → State.listEntry gl.base gl.cycle (gl.entries.map (·.2)) (s.tiNs gl.ti) = some e →
    ∃ t, exec (.gclStart port) s = .next t ∧ t.gclOf port = some gl ∧ t.gclWaiting port = none ∧
      t.rg (F.SC_GCL_STAT_RUNNING port) = 1 ∧ t.rg (F.SC_GCL_STAT_PENDING port) = 0 ∧
      t.rg (F.SC_GCL_STAT_ENTRY port) = e % 2 ^ (F.SC_GCL_STAT_ENTRY port).wid ∧ t.evSet 80 = true) ∧
  (∀ (g : Nat) (s : State), g < 256 →
    ∃ t, exec (.sgateEntryChange g) s = .next t ∧
      t.rg (F.FX_SGATE_STAT_ENTRY g) =
        (s.gateAt (s.epoch % 256) g (s.tiNs (s.act (F.FX_SGATE_W2_TI_SEL g)))).1 % 16 ∧
      t.rg (F.FX_SGATE_STAT_OPEN g) =
        (if (s.gateAt (s.epoch % 256) g (s.tiNs (s.act (F.FX_SGATE_W2_TI_SEL g)))).2.1 = true ∧
          s.rg (F.FX_SGATE_STAT_INVALID_CLOSED g) = 0 then 1 else 0) ∧
      ∀ off, off ≠ R.FX_SGATE_STAT g → t.rd off = s.rd off) ∧
  (∀ (a : Agent) (i : Nat) (s : State), s.reaches a = true → i < 1024 →
    ∃ t, exec (.psfpClearFilter a i) s = .next t ∧ t.rg (F.FX_SF_STAT_SDU_BLOCKED i) = 0 ∧
      t.rg (F.FX_SF_STAT_MARK_RED i) = 0 ∧ ∀ off, off ≠ R.FX_SF_STAT i → t.rd off = s.rd off) ∧
  (∀ (a : Agent) (g : Nat) (s : State), s.reaches a = true → g < 256 →
    ∃ t, exec (.psfpClearGate a g) s = .next t ∧ t.rg (F.FX_SGATE_STAT_INVALID_CLOSED g) = 0 ∧
      ∀ off, off ≠ R.FX_SGATE_STAT g → t.rd off = s.rd off)

/-- (1 to 3) REBIND, IMPORT and EXPORT of a core that pass every check are in progress with PENDING and the node in its
RESULT; (4 to 8) so are CLEAR_LOCK, LC_ADVANCE (no fuse is blown yet), INVALIDATE (176 is raised), ZEROISE (181 is
raised) and ENROLL (a flash task) of any agent; (9) each of the eight, of a core, that fails a check is refused with
the code of the first that fails and raises 185; (10) each of the eight is ignored while the agent's command is
PENDING; (11) INVALIDATE makes its node INVALID (BAD_CHAIN stays), advances its GEN, 65535 to 1, and erases its
cell; its children that hold or held a key, and theirs in turn, become ORPHANED with cells erased, and no other node
changes; (12) ZEROISE ends every command, cache entry and update session and every session but node 3's, and empties
and erases the IMPORTED nodes, no other. An erased cell holds a free value under its old mask. Taken from R373 to
R375, of which it states only the cases above. Readings of the model it goes by: log 16, 17, 52. -/
def Obligations.KeyCommandAccept : Prop :=
  (∀ (k : Fin 8) (n : Nat) (s : State), s.reaches (.core k) = true → s.kxBusy (.core k) = false →
    s.kxCheck (.core k) 2 (n % 1024) 0 = none →
    ∃ t, exec (.rebind (.core k) n) s = .next t ∧ t.kx.jobs = s.kx.jobs ++ [⟨.core k, 2, n % 1024, 0⟩] ∧
      t.rd (R.KX_RESULT k.val) = Word.ofNat (1 + n % 1024 * 65536)) ∧
  (∀ (k : Fin 8) (n form : Nat) (data : List Byte) (s : State), s.reaches (.core k) = true → s.kxBusy (.core k) = false →
    s.kxCheck (.core k) 3 (n % 1024) form = none →
    ∃ t, exec (.importKey (.core k) n form data) s = .next t ∧ t.kx.jobs = s.kx.jobs ++ [⟨.core k, 3, n % 1024, form⟩] ∧
      t.rd (R.KX_RESULT k.val) = Word.ofNat (1 + n % 1024 * 65536)) ∧
  (∀ (k : Fin 8) (n : Nat) (s : State), s.reaches (.core k) = true → s.kxBusy (.core k) = false →
    s.kxCheck (.core k) 4 (n % 1024) 0 = none →
    ∃ t, exec (.exportKey (.core k) n) s = .next t ∧ t.kx.jobs = s.kx.jobs ++ [⟨.core k, 4, n % 1024, 0⟩] ∧
      t.rd (R.KX_RESULT k.val) = Word.ofNat (1 + n % 1024 * 65536)) ∧
  (∀ (a : Agent) (s : State), s.reaches a = true → s.kxBusy a = false → s.kxCheck a 6 0 0 = none →
    ∃ t, exec (.clearLock a) s = .next t ∧ t.kx.jobs = s.kx.jobs ++ [⟨a, 6, 0, 0⟩]) ∧
  (∀ (a : Agent) (dest : Nat) (s : State), s.reaches a = true → s.kxBusy a = false → s.kxCheck a 7 0 dest = none →
    ∃ t, exec (.lcAdvance a dest) s = .next t ∧ t.kx.jobs = s.kx.jobs ++ [⟨a, 7, 0, dest⟩] ∧ t.kx.advanced = true ∧
      t.nv = s.nv) ∧
  (∀ (a : Agent) (n : Nat) (s : State), s.reaches a = true → s.kxBusy a = false → s.kxCheck a 1 (n % 1024) 0 = none →
    ∃ t, exec (.invalidate a n) s = .next t ∧ t.kx.jobs = s.kx.jobs ++ [⟨a, 1, n % 1024, 0⟩] ∧ t.evSet 176 = true) ∧
  (∀ (a : Agent) (s : State), s.reaches a = true → s.kxBusy a = false → s.kxCheck a 5 0 0 = none →
    ∃ t, exec (.zeroise a) s = .next t ∧ ⟨a, 5, 0, 0⟩ ∈ t.kx.jobs ∧ t.evSet 181 = true) ∧
  (∀ (a : Agent) (s : State), s.reaches a = true → s.kxBusy a = false → s.kxCheck a 8 0 0 = none →
    ∃ t, exec (.enroll a) s = .next t ∧ (∃ k ∈ t.sv.tasks, k.kind = .enroll a) ∧ t.kx = s.kx) ∧
  (∀ (k : Fin 8) (n form dest code : Nat) (data : List Byte) (s : State), s.reaches (.core k) = true → s.kxBusy (.core k) = false →
    ∃ t u v w x y z q, exec (.invalidate (.core k) n) s = .next t ∧
      exec (.rebind (.core k) n) s = .next u ∧
      exec (.importKey (.core k) n form data) s = .next v ∧
      exec (.exportKey (.core k) n) s = .next w ∧
      exec (.zeroise (.core k)) s = .next x ∧
      exec (.clearLock (.core k)) s = .next y ∧
      exec (.lcAdvance (.core k) dest) s = .next z ∧
      exec (.enroll (.core k)) s = .next q ∧
      (s.kxCheck (.core k) 1 (n % 1024) 0 = some code → t.kx = s.kx ∧ t.evSet 185 = true ∧
        t.rd (R.KX_RESULT k.val) = Word.ofNat (code * 2 + n % 1024 * 65536)) ∧
      (s.kxCheck (.core k) 2 (n % 1024) 0 = some code → u.kx = s.kx ∧ u.evSet 185 = true ∧
        u.rd (R.KX_RESULT k.val) = Word.ofNat (code * 2 + n % 1024 * 65536)) ∧
      (s.kxCheck (.core k) 3 (n % 1024) form = some code → v.evSet 185 = true ∧
        v.rd (R.KX_RESULT k.val) = Word.ofNat (code * 2 + n % 1024 * 65536)) ∧
      (s.kxCheck (.core k) 4 (n % 1024) 0 = some code → w.kx = s.kx ∧ w.evSet 185 = true ∧
        w.rd (R.KX_RESULT k.val) = Word.ofNat (code * 2 + n % 1024 * 65536)) ∧
      (s.kxCheck (.core k) 5 0 0 = some code → x.kx = s.kx ∧ x.evSet 185 = true ∧
        x.rd (R.KX_RESULT k.val) = Word.ofNat (code * 2)) ∧
      (s.kxCheck (.core k) 6 0 0 = some code → y.kx = s.kx ∧ y.evSet 185 = true ∧
        y.rd (R.KX_RESULT k.val) = Word.ofNat (code * 2)) ∧
      (s.kxCheck (.core k) 7 0 dest = some code → z.kx = s.kx ∧ z.evSet 185 = true ∧
        z.rd (R.KX_RESULT k.val) = Word.ofNat (code * 2)) ∧
      (s.kxCheck (.core k) 8 0 0 = some code → q.kx = s.kx ∧ q.evSet 185 = true ∧
        q.rd (R.KX_RESULT k.val) = Word.ofNat (code * 2))) ∧
  (∀ (a : Agent) (n form dest : Nat) (data : List Byte) (s : State), s.reaches a = true → s.kxBusy a = true →
    exec (.rebind a n) s = .next { s with resp := .done } ∧ exec (.importKey a n form data) s = .next { s with resp := .done } ∧
      exec (.exportKey a n) s = .next { s with resp := .done } ∧ exec (.invalidate a n) s = .next { s with resp := .done } ∧
      exec (.zeroise a) s = .next { s with resp := .done } ∧ exec (.clearLock a) s = .next { s with resp := .done } ∧
      exec (.lcAdvance a dest) s = .next { s with resp := .done } ∧ exec (.enroll a) s = .next { s with resp := .done }) ∧
  (∀ (a : Agent) (n : Nat) (s : State), s.reaches a = true → s.kxBusy a = false → s.kxCheck a 1 (n % 1024) 0 = none →
    nodeLoops s.kxRf (n % 1024) 8 (n % 1024) = false →
    ∃ t, exec (.invalidate a n) s = .next t ∧
      t.nodeState (n % 1024) = (if s.nodeState (n % 1024) = 5 then 5 else 2) ∧
      t.nodeGen (n % 1024) = (if s.nodeGen (n % 1024) = 65535 then 1 else s.nodeGen (n % 1024) + 1) ∧
      (∃ i, t.cellOf (State.nodeCell (n % 1024)) = ⟨Config.freeValue i % 2 ^ 256, (s.cellOf (State.nodeCell (n % 1024))).mask⟩) ∧
      (∀ m < 1024, nodeParent s.kxRf m = some (n % 1024) → [1, 2, 4].contains (s.nodeState m) = true →
        t.nodeState m = 3 ∧ ∃ i, t.cellOf (State.nodeCell m) = ⟨Config.freeValue i % 2 ^ 256, (s.cellOf (State.nodeCell m)).mask⟩) ∧
      (∀ m ∈ s.orphans 7 [n % 1024], t.nodeState m = 3 ∧
        ∃ i, t.cellOf (State.nodeCell m) = ⟨Config.freeValue i % 2 ^ 256, (s.cellOf (State.nodeCell m)).mask⟩) ∧
      ∀ m < 1024, m ≠ n % 1024 → m ∉ s.orphans 7 [n % 1024] →
        t.nodeState m = s.nodeState m ∧ t.nodeGen m = s.nodeGen m ∧ t.cellOf (State.nodeCell m) = s.cellOf (State.nodeCell m)) ∧
  (∀ (a : Agent) (s : State), s.reaches a = true → s.kxBusy a = false → s.kxCheck a 5 0 0 = none →
    ∃ t, exec (.zeroise a) s = .next t ∧ t.kx.jobs = [⟨a, 5, 0, 0⟩] ∧ t.ce.cache = [] ∧ t.upd.owner = none ∧
      (∀ m < 1024, nodeKind s.kxRf m = 1 → nodeValid s.kxRf m = true → t.nodeState m = 0 ∧
        ∃ i, t.cellOf (State.nodeCell m) = ⟨Config.freeValue i % 2 ^ 256, (s.cellOf (State.nodeCell m)).mask⟩) ∧
      (∀ m < 1024, ¬ (nodeKind s.kxRf m = 1 ∧ nodeValid s.kxRf m = true) →
        t.nodeState m = s.nodeState m ∧ t.cellOf (State.nodeCell m) = s.cellOf (State.nodeCell m)) ∧
      ∀ k : Fin 4, ∀ m, t.sessionNode k.val = some m → m = 3)

/-- (1) the end of LC_ADVANCE, of any agent, blows its fuse, shows the next state and the toggles left, raises 184, and
puts 0 into the mailbox, the session's mirror and answer; (2) the end of CLEAR_LOCK with a sound PUF ends the lock,
KX_STAT.LOCKED and SV_MODE.TREE_LOCKED read 0, the roots are up, and it raises 183; (3) a remask pass keeps every
key, counts, and changes no other register; (4) it waits while TRNG_FAIL is 1; (5, 6) the health test sets TRNG_FAIL
with event 187, and clears it; (1) REBIND derives the key again under its READY parent, keeps GEN (0 becomes 1) and
takes the parent's as PGEN, READY unless its own limit is used up; (2) IMPORT takes the key that its blob holds, or
ends with 0x0C and changes no cell, and its DATA words become 0; (3) so it ends, counted, where the unwrapping node
is not usable; (4) EXPORT puts the device blob into DATA, and into a session's answer; (5) each is checked once
more, and a failing check ends it with its code; in all the result is in the mailbox with PENDING 0; (6) LC_ADVANCE
that fails ends with 0x0D and blows no fuse; (7) nothing in progress, nothing ends. Taken from R351, R353, R367,
R372, R374, R362 to R364, R373, R375, of which it states only the cases above. Readings of the model it goes by: log
52, 53, 75. -/
def Obligations.KeyEngineEvents : Prop :=
  (∀ (a : Agent) (dest : Nat) (s : State), s.socUp = true →
    s.kx.jobs.find? (fun j => decide (j.op ≠ 6)) = some ⟨a, 7, 0, dest⟩ →
    ∃ t, exec (.kxCommandDone true) s = .next t ∧ t.nv.fuses = lcBlow s.nv.fuses (s.rg F.KX_STAT_LC) dest ∧
      t.nv.flash = s.nv.flash ∧ t.evSet 184 = true ∧ t.kx.jobs = s.kx.jobs.erase ⟨a, 7, 0, dest⟩ ∧
      t.rg F.KX_STAT_LC_NEXT = lcOf t.nv.fuses ∧ t.rg F.KX_STAT_TOGGLES_LEFT = togglesLeft t.nv.fuses ∧
      (a.ownerCode ≤ 12 → t.rd (R.KX_RESULT a.ownerCode) = 0) ∧
      (∀ n : Fin 4, a = .bersan n → .bersanReply n.val 0 ∈ t.out) ∧ (a = .debug → .debugReply 0 ∈ t.out)) ∧
  (∀ (j : KxJob) (s : State), s.socUp = true → s.kx.jobs.find? (fun j => decide (j.op = 6)) = some j →
    j.agent ≠ .debug → { s with kx.jobs := s.kx.jobs.erase j }.downCause .sound = 0 →
    ∃ t, exec (.clearLockDone .sound) s = .next t ∧ t.kx.lockNext = false ∧ t.evSet 183 = true ∧
      t.rg F.KX_STAT_LOCKED = 0 ∧ t.rg F.SV_MODE_TREE_LOCKED = 0 ∧ t.rg F.KX_STAT_ROOTS_UP = 1 ∧
      t.kx.jobs = s.kx.jobs.erase j ∧ (j.agent.ownerCode ≤ 12 → t.rg (F.KX_RESULT_PENDING j.agent.ownerCode) = 0)) ∧
  (∀ s : State, s.socUp = true → s.rg F.KX_STAT_TRNG_FAIL = 0 →
    ∃ t, exec .keyRemask s = .next t ∧ (∀ c, t.keyAt c = s.keyAt c) ∧
      t.rg F.KX_REMASK_PASSES = (s.rg F.KX_REMASK_PASSES + 1) % 2 ^ 32 ∧
      ∀ off, off ≠ R.KX_REMASK → t.rd off = s.rd off) ∧
  (∀ s : State, s.rg F.KX_STAT_TRNG_FAIL = 1 → exec .keyRemask s = .next s) ∧
  (∀ s : State, s.socUp = true →
    ∃ t, exec .trngHealthFail s = .next t ∧ t.rg F.KX_STAT_TRNG_FAIL = 1 ∧ t.evSet 187 = true ∧ t.kx = s.kx) ∧
  (∀ s : State, s.socUp = true →
    ∃ t, exec .trngHealthPass s = .next t ∧ t.rg F.KX_STAT_TRNG_FAIL = 0 ∧ ∀ off, off ≠ R.KX_STAT → t.rd off = s.rd off) ∧
  (∀ (a : Agent) (n p : Nat) (s : State), s.socUp = true → n < 1024 →
    s.kx.jobs.find? (fun j => decide (j.op ≠ 6)) = some ⟨a, 2, n, 0⟩ → s.kxCheck a 2 n 0 = none →
    nodeParent s.kxRf n = some p → s.nodeUsable p 5 = true →
    ∃ t, exec (.kxCommandDone true) s = .next t ∧ t.keyAt (State.nodeCell n) = s.childKey n p ∧
      (t.nodeState n = 1 ∨ (t.nodeState n = 4 ∧ nodeLimit s.kxRf n ≠ 0)) ∧
      t.nodeGen n = (if s.nodeGen n = 0 then 1 else s.nodeGen n) ∧ t.rg (F.KX_NODE_STAT_W1_PGEN n) = s.nodeGen p ∧
      t.evSet 184 = true ∧ t.kx.jobs = s.kx.jobs.erase ⟨a, 2, n, 0⟩ ∧
      (a.ownerCode ≤ 12 → t.rd (R.KX_RESULT a.ownerCode) = Word.ofNat (n * 65536)) ∧
      ∀ k : Fin 4, a = .bersan k → .bersanReply k.val (n * 65536) ∈ t.out) ∧
  (∀ (a : Agent) (n form : Nat) (s : State), s.socUp = true → n < 1024 →
    s.kx.jobs.find? (fun j => decide (j.op ≠ 6)) = some ⟨a, 3, n, form⟩ → s.kxCheck a 3 n form = none →
    s.nodeUsable (if form = 1 then (nodeParent s.kxRf n).getD 0 else 4) 6 = true →
    ∃ t, exec (.kxCommandDone true) s = .next t ∧ t.kx.jobs = s.kx.jobs.erase ⟨a, 3, n, form⟩ ∧
      (a.ownerCode ≤ 12 → ∀ w < 16, t.rg (F.KX_DATA_DATA a.ownerCode w) = 0) ∧
      (∀ key, s.openBlob n form (s.kxData a) = some key → t.keyAt (State.nodeCell n) = key % 2 ^ 256 ∧
        (t.nodeState n = 1 ∨ (t.nodeState n = 4 ∧ nodeLimit s.kxRf n ≠ 0)) ∧ t.evSet 184 = true ∧
        (a.ownerCode ≤ 12 → t.rd (R.KX_RESULT a.ownerCode) = Word.ofNat (n * 65536)) ∧
        ∀ k : Fin 4, a = .bersan k → .bersanReply k.val (n * 65536) ∈ t.out) ∧
      (s.openBlob n form (s.kxData a) = none → t.kx.cells = s.kx.cells ∧ t.evSet 185 = true ∧
        (a.ownerCode ≤ 12 → t.rd (R.KX_RESULT a.ownerCode) = Word.ofNat (24 + n * 65536)) ∧
        ∀ k : Fin 4, a = .bersan k → .bersanReply k.val (24 + n * 65536) ∈ t.out)) ∧
  (∀ (a : Agent) (n form : Nat) (s : State), s.socUp = true → n < 1024 →
    s.kx.jobs.find? (fun j => decide (j.op ≠ 6)) = some ⟨a, 3, n, form⟩ → s.kxCheck a 3 n form = none →
    s.nodeUsable (if form = 1 then (nodeParent s.kxRf n).getD 0 else 4) 6 = false →
    ∃ t, exec (.kxCommandDone true) s = .next t ∧ t.evSet 185 = true ∧ t.kx.cells = s.kx.cells ∧
      t.rg F.KX_USE_REFUSED_COUNT = min (s.rg F.KX_USE_REFUSED_COUNT + 1) (2 ^ 32 - 1) ∧
      (a.ownerCode ≤ 12 → t.rd (R.KX_RESULT a.ownerCode) = Word.ofNat (24 + n * 65536) ∧
        ∀ w < 16, t.rg (F.KX_DATA_DATA a.ownerCode w) = 0)) ∧
  (∀ (a : Agent) (n : Nat) (s : State), s.socUp = true → n < 1024 →
    s.kx.jobs.find? (fun j => decide (j.op ≠ 6)) = some ⟨a, 4, n, 0⟩ → s.kxCheck a 4 n 0 = none →
    ∃ t, exec (.kxCommandDone true) s = .next t ∧ t.evSet 184 = true ∧ t.kx.cells = s.kx.cells ∧
      t.nodeState n = s.nodeState n ∧ t.kx.jobs = s.kx.jobs.erase ⟨a, 4, n, 0⟩ ∧
      (a.ownerCode ≤ 12 → t.rd (R.KX_RESULT a.ownerCode) = Word.ofNat (n * 65536) ∧
        ∀ w < 16, t.rg (F.KX_DATA_DATA a.ownerCode w) = ofLe (slice0 (s.exportBlob n) (4 * w) 4)) ∧
      ∀ k : Fin 4, a = .bersan k →
        .bersanReply k.val (n * 65536) ∈ t.out ∧ .bersanData k.val (s.exportBlob n) ∈ t.out) ∧
  (∀ (a : Agent) (op n form code : Nat) (s : State), s.socUp = true → n < 1024 → op ∈ [2, 3, 4] →
    s.kx.jobs.find? (fun j => decide (j.op ≠ 6)) = some ⟨a, op, n, form⟩ → s.kxCheck a op n form = some code →
    ∃ t, exec (.kxCommandDone true) s = .next t ∧ t.evSet 185 = true ∧ t.kx.cells = s.kx.cells ∧
      t.kx.jobs = s.kx.jobs.erase ⟨a, op, n, form⟩ ∧
      (a.ownerCode ≤ 12 → t.rd (R.KX_RESULT a.ownerCode) = Word.ofNat (code * 2 + n * 65536)) ∧
      ∀ k : Fin 4, a = .bersan k → .bersanReply k.val (code * 2 + n * 65536) ∈ t.out) ∧
  (∀ (a : Agent) (dest : Nat) (s : State), s.socUp = true →
    s.kx.jobs.find? (fun j => decide (j.op ≠ 6)) = some ⟨a, 7, 0, dest⟩ →
    ∃ t, exec (.kxCommandDone false) s = .next t ∧ t.nv = s.nv ∧ t.kx.advanced = false ∧ t.evSet 185 = true ∧
      (a.ownerCode ≤ 12 → t.rd (R.KX_RESULT a.ownerCode) = Word.ofNat 26)) ∧
  (∀ (ok : Bool) (s : State), s.kx.jobs.find? (fun j => decide (j.op ≠ 6)) = none → exec (.kxCommandDone ok) s = .next s)

/-- (1) an alarm at level OFF is only noted; (2) at LOG it raises 180 and wipes nothing; (3) in LISTEN at WIPE_LOCK it
is latched and locks the next start; (4) an alarm that clears clears its ACTIVE bit and no other register; (5) a
mesh check is the alarm, or the end of the alarm, of source 2; (6) at WIPE it ends every command, cache entry and
update session and every session but node 3's, empties and erases the IMPORTED nodes, no other, and raises 181; (7)
at WIPE_LOCK it also empties every node but 2 and 3, erases every cell but theirs and the transport key's, shows
LOCKED, TREE_LOCKED and the roots down, and raises 182. Taken from R368, R369, R371, of which it states only the
cases above. Readings of the model it goes by: log 54. -/
def Obligations.TamperCommands : Prop :=
  (∀ (src : Nat) (s : State), src < 6 → s.kx.alarms.testBit src = false → s.pw.power ≠ .off → s.socUp = true →
    s.beforeTree = false → tamperLevel s.tamperCfg src = 0 →
    exec (.tamperAlarm src) s = .next { s with kx.alarms := setBit s.kx.alarms src }) ∧
  (∀ (src : Nat) (s : State), src < 6 → s.kx.alarms.testBit src = false → s.pw.power = .up → s.socUp = true →
    s.beforeTree = false → tamperLevel s.tamperCfg src = 1 →
    ∃ t, exec (.tamperAlarm src) s = .next t ∧ t.kx.cells = s.kx.cells ∧ t.kx.alarms.testBit src = true ∧
      t.evSet 180 = true) ∧
  (∀ (src : Nat) (s : State), src < 6 → s.kx.alarms.testBit src = false → s.pw.power = .listen →
    3 ≤ s.copyLevel src →
    ∃ t, exec (.tamperAlarm src) s = .next t ∧ t.kx.lockNext = true ∧ t.kx.listenLatch.testBit src = true ∧
      t.kx.cells = s.kx.cells) ∧
  (∀ (src : Nat) (s : State), src < 6 →
    ∃ t, exec (.tamperAlarmCleared src) s = .next t ∧ t.kx.alarms.testBit src = false ∧
      (t.rg F.KX_TAMPER_STAT_ACTIVE).testBit src = false ∧ ∀ off, off ≠ R.KX_TAMPER_STAT → t.rd off = s.rd off) ∧
  (∀ s : State, s.pw.power ≠ .off →
    (∃ t, exec (.meshCheck false) s = .next t ∧ exec (.tamperAlarm 2) s = .next t) ∧
    ∃ t, exec (.meshCheck true) s = .next t ∧ exec (.tamperAlarmCleared 2) s = .next t ∧
      (t.rg F.KX_TAMPER_STAT_ACTIVE).testBit 2 = false) ∧
  (∀ (src : Nat) (s : State), src < 6 → s.kx.alarms.testBit src = false → s.pw.power = .up → s.socUp = true →
    s.beforeTree = false → tamperLevel s.tamperCfg src = 2 →
    ∃ t, exec (.tamperAlarm src) s = .next t ∧ (t.rg F.KX_TAMPER_STAT_LATCH).testBit src = true ∧ t.evSet 180 = true ∧
      t.evSet 181 = true ∧ t.kx.jobs = [] ∧ t.ce.cache = [] ∧ t.upd.owner = none ∧
      (∀ m < 1024, nodeKind s.kxRf m = 1 → nodeValid s.kxRf m = true → t.nodeState m = 0 ∧
        ∃ i, t.cellOf (State.nodeCell m) = ⟨Config.freeValue i % 2 ^ 256, (s.cellOf (State.nodeCell m)).mask⟩) ∧
      (∀ m < 1024, ¬ (nodeKind s.kxRf m = 1 ∧ nodeValid s.kxRf m = true) →
        t.nodeState m = s.nodeState m ∧ t.cellOf (State.nodeCell m) = s.cellOf (State.nodeCell m)) ∧
      ∀ k : Fin 4, ∀ m, t.sessionNode k.val = some m → m = 3) ∧
  (∀ (src : Nat) (s : State), src < 6 → s.kx.alarms.testBit src = false → s.pw.power = .up → s.socUp = true →
    s.beforeTree = false → tamperLevel s.tamperCfg src = 3 →
    ∃ t, exec (.tamperAlarm src) s = .next t ∧ (t.rg F.KX_TAMPER_STAT_LATCH).testBit src = true ∧ t.evSet 181 = true ∧
      t.evSet 182 = true ∧ t.kx.jobs = [] ∧ t.ce.cache = [] ∧ t.upd.owner = none ∧
      t.rg F.KX_STAT_LOCKED = 1 ∧ t.rg F.SV_MODE_TREE_LOCKED = 1 ∧ t.rg F.KX_STAT_ROOTS_UP = 0 ∧
      (∀ m < 1024, m ≠ 2 → m ≠ 3 → t.nodeState m = 0) ∧
      (∀ k < 1027, k ∉ [2, 5, 6] →
        ∃ i, t.cellOf k = ⟨Config.freeValue i % 2 ^ 256, (s.cellOf k).mask⟩) ∧
      (∀ k ∈ ([2, 5, 6] : List Nat), t.cellOf k = s.cellOf k) ∧ t.nodeState 2 = s.nodeState 2 ∧ t.nodeState 3 = s.nodeState 3)

/-- (1) a received MACsec frame whose ICV verifies holds its plaintext; (2) outside SWIFT one that fails becomes DROP,
is counted in its context and raises 192; (3) a REQUIRE port drops an unprotected frame, counts it and raises 198;
(4) a frame to transmit takes the key, packet number and AN of its context; (5) a sealed message too short for a
trailer drops its frame, counts and raises 164; (6) one whose trailer verifies within the window passes; (7) a
message to seal gains fresh value and tag; (8) a derivation ends the wait of its context and puts the key first in
the cache of at most 256. Taken from R342, R343, R385, R389 to R391, of which it states only the cases above.
Readings of the model it goes by: log 13, 51, 55, 56. -/
def Obligations.CipherCommands : Prop :=
  (∀ (id : Nat) (f : Frame) (w : CeWork) (s : State), w.ctx < 4096 → s.frameOf id = some f → f.zombie = false →
    f.ce = some w → w.done = false → f.rxDone = true → f.verdict ≠ .drop →
    (parseSecTag w.wire).icvOk w.key w.iv (ctxOfs s.ceRf w.ctx) w.wire = true →
    ∃ t g, exec (.ceDecrypt id) s = .next t ∧ t.frameOf id = some g ∧ g.verdict = f.verdict ∧
      g.bytes = (parseSecTag w.wire).plain w.key w.iv (ctxOfs s.ceRf w.ctx) w.wire ∧ g.ce = some { w with done := true } ∧
      (f.pass ≤ 1 → g.stage = .clear)) ∧
  (∀ (id : Nat) (f : Frame) (w : CeWork) (s : State), w.ctx < 4096 → s.socUp = true → s.frameOf id = some f →
    f.zombie = false → f.ce = some w → w.done = false → f.rxDone = true → f.verdict ≠ .drop →
    s.effMode f.epoch ≠ 0 → (parseSecTag w.wire).icvOk w.key w.iv (ctxOfs s.ceRf w.ctx) w.wire = false →
    ∃ t g, exec (.ceDecrypt id) s = .next t ∧ t.frameOf id = some g ∧ g.verdict = .drop ∧ t.evSet 192 = true ∧
      t.rg (F.CE_DROP_AUTH_COUNT w.ctx) = min (s.rg (F.CE_DROP_AUTH_COUNT w.ctx) + 1) (2 ^ 32 - 1)) ∧
  (∀ (id : Nat) (f : Frame) (s : State), s.socUp = true → s.frameOf id = some f → f.zombie = false → f.ce = none →
    f.stage = .looked → f.pass = 1 → f.verdict = .ok → s.rxChecks f = true → s.ceTurn id f = true → f.rxDone = true →
    beAt f.bytes 12 2 ≠ 0x88E5 → linkLocal (beAt f.bytes 0 6) = false → s.cfg f.epoch (F.CE_PORT_CFG_REQUIRE f.port) = 1 →
    ∃ t g, exec (.ceDecrypt id) s = .next t ∧ t.frameOf id = some g ∧ g.verdict = .drop ∧ t.evSet 198 = true ∧
      t.rg F.CE_RX_UNPROT_DROP_COUNT = min (s.rg F.CE_RX_UNPROT_DROP_COUNT + 1) (2 ^ 32 - 1)) ∧
  (∀ (port m key x : Nat) (c : Copy) (rest : List Copy) (f : Frame) (s u : State), port < 41 → m < 4 →
    s.mqOf port m = c :: rest → s.frameOf c.frame = some f → s.ceAtStep9 f port = true → c.sealed = none →
    f.verdict = .ok → s.cfg f.epoch (F.CE_PORT_CFG_TX_EN port) ≠ 0 →
    x = txCtxOf (s.copyOf f.epoch 11) port (rfGet (s.copyOf f.epoch 11) (F.CE_PORT_CFG_ENC_AN port)) →
    ctxKind s.ceRf x = 0 → s.mustDrop c.frame = false → s.ctxAsk x (.tx port m c.frame) = (u, .ready key) →
    ∃ t d sa, exec (.ceEncrypt port m) s = .next t ∧ t.mqOf port m = d :: rest ∧ d.sealed = some sa ∧
      d.frame = c.frame ∧ sa.key = key ∧ sa.pn = u.ctxPn x % 2 ^ 32 ∧
      sa.an = rfGet (s.copyOf f.epoch 11) (F.CE_PORT_CFG_ENC_AN port)) ∧
  (∀ (id : Nat) (f : Frame) (q : SealMsg) (s : State), s.socUp = true → s.frameOf id = some f → f.sealIn = some q →
    f.zombie = false → f.pass ≠ 0 → f.stage = .looked → f.verdict = .ok → q.msg.data.length < 12 →
    ∃ t, exec (.sealCheck id) s = .next t ∧ t.frameOf id = some { f with verdict := .drop } ∧ t.evSet 164 = true ∧
      t.rg F.BX_GW_SEAL_BAD_COUNT = min (s.rg F.BX_GW_SEAL_BAD_COUNT + 1) (2 ^ 32 - 1)) ∧
  (∀ (id key : Nat) (f : Frame) (q : SealMsg) (s u : State), s.frameOf id = some f → f.sealIn = some q →
    f.zombie = false → f.pass ≠ 0 → f.stage = .looked → f.verdict = .ok → 12 ≤ q.msg.data.length → q.msg.format ≠ 0 →
    s.sealAsk q.ctx (.check id) = (u, .ready key) →
    q.msg.data.drop (q.msg.data.length - 12 + 4) = sealTag key { q.msg with data := q.msg.data.take (q.msg.data.length - 12) }
      (beAt q.msg.data (q.msg.data.length - 12) 4) →
    0 < (beAt q.msg.data (q.msg.data.length - 12) 4 + 2 ^ 32 - u.freshLast q.ctx) % 2 ^ 32 →
    (beAt q.msg.data (q.msg.data.length - 12) 4 + 2 ^ 32 - u.freshLast q.ctx) % 2 ^ 32 ≤ u.freshWin q.ctx →
    ∃ t g, exec (.sealCheck id) s = .next t ∧ t.frameOf id = some g ∧ g.stage = .checked ∧ g.verdict = .ok ∧
      g.bytes = f.bytes) ∧
  (∀ (i c r key : Nat) (m : CanFrame) (tx : TxNow) (f : Frame) (l : List (Nat × CanFrame × Nat)) (s u : State),
    s.txOf 38 = some tx → s.frameOf tx.copy.frame = some f → State.isWhole f = true →
    s.mustDrop tx.copy.frame = false → State.toSeal tx (s.egressBytes f 38) = (i, m, r) :: l →
    c = rfGet tx.tables (F.BX_GW_ROUTE_W6_SEAL_CTX r) → s.sealAsk c (.seal tx.copy.frame) = (u, .ready key) →
    ∃ t x, exec (.sealAdd 38) s = .next t ∧ t.txOf 38 = some x ∧
      x.seals = tx.seals ++ [(i, (sealPad m).getD [] ++ beBytes 4 (u.freshNext c) ++
        sealTag key { m with data := (sealPad m).getD [] } (u.freshNext c))]) ∧
  (∀ (ctx : Nat) (s : State), ctx < 4096 → s.ce.waiting.contains ctx = true → s.ctxValid ctx = true →
    s.ctxState ctx = 1 → s.ctxNodeOk ctx = true →
    s.nodeGen (s.ctxNode ctx) = s.rg (F.CE_CTX_STAT_W0_GEN ctx) →
    ∃ t key, exec (.keyDerive ctx) s = .next t ∧ t.ce.waiting.contains ctx = false ∧
      t.ce.cache.head? = some (ctx, key) ∧ t.ce.cache.length ≤ 256)

/-- (1) TACK opens the lowest free handle as COPYING with its owner, set and timeout; (2) a set that is empty or beyond
CD17 is refused with code 5; (3) a domain held is refused with code 3 and its handle; (4) the copy makes the handle
OPEN with the set's SHADOW equal to ACTIVE; (5) STITCH that meets its conditions drains; (6) STITCH_AT of a time
ahead by at most 600 s holds; (7) UNPICK frees the handle and, past COPYING, returns the set's SHADOW to ACTIVE; (8)
RENEW restarts its time; (9) a timeout frees it; a write of the SHADOW view by the owner of an open transaction over
the domain reaches the copy, less reserved bits, and no other register; any other changes neither view, is counted,
raises 11, and its offset is latched where none is. Taken from R102 to R110, R113, R114, R107, of which it states
only the cases above. Readings of the model it goes by: log 16, 17, 18, 19, 69. -/
def Obligations.TransactionCommands : Prop :=
  (∀ (a : Agent) (set timeout : Nat) (s : State), s.reaches a = true → a.ownerCode ≤ 12 → s.txPending a = false →
    s.sv.booting = false → 0 < set → set < 2 ^ 18 → (timeout = 0 ∨ 100 ≤ timeout ∧ timeout ≤ 600000) →
    s.openTxns.length < 4 → s.holderOf set = none →
    ∃ t, exec (.tack a set timeout) s = .next t ∧
      t.txnOf s.nextHandle = ⟨.copying, a, a.ownerCode, set, if timeout = 0 then 10000 else timeout,
        if timeout = 0 then 10000 else timeout, s.now, false, 0, 0, false, false⟩ ∧
      (∀ k, k ≠ s.nextHandle → t.txnOf k = s.txnOf k) ∧
      t.rd (R.SV_TXM_RESULT a.ownerCode) = Word.ofNat (1 + 64 * s.nextHandle) ∧ t.resp = .done) ∧
  (∀ (a : Agent) (set timeout : Nat) (s : State), s.reaches a = true → a.ownerCode ≤ 12 → s.txPending a = false →
    s.deferred a.ownerCode = [] → s.sv.booting = false → s.openTxns.length < 4 →
    (set = 0 ∨ 2 ^ 18 ≤ set) →
    ∃ t, exec (.tack a set timeout) s = .next t ∧ t.sv.txns = s.sv.txns ∧
      t.rd (R.SV_TXM_RESULT a.ownerCode) = Word.ofNat (State.txWord 5 0 0 0)) ∧
  (∀ (a : Agent) (set timeout h : Nat) (s : State), s.reaches a = true → a.ownerCode ≤ 12 → s.txPending a = false →
    s.deferred a.ownerCode = [] → s.sv.booting = false → 0 < set → set < 2 ^ 18 →
    (timeout = 0 ∨ 100 ≤ timeout ∧ timeout ≤ 600000) → s.openTxns.length < 4 → s.holderOf set = some h →
    ∃ t, exec (.tack a set timeout) s = .next t ∧ t.sv.txns = s.sv.txns ∧
      t.rd (R.SV_TXM_RESULT a.ownerCode) = Word.ofNat (State.txWord 3 h 0 0)) ∧
  (∀ (h : Nat) (s : State), h < 4 → (s.txnOf h).state = .copying → s.copyBlocked (s.txnOf h).set = false →
    ∃ t, exec (.tackCopyDone h) s = .next t ∧ t.txnOf h = { s.txnOf h with state := .opened } ∧
      ∀ d < 18, t.activeOf d = s.activeOf d ∧ ((s.txnOf h).set.testBit d = true → t.shadowOf d = s.activeOf d)) ∧
  (∀ (a : Agent) (h : Nat) (persist : Bool) (s : State), s.reaches a = true → a.ownerCode ≤ 12 →
    s.txPending a = false → h < 4 → (s.txnOf h).state = .opened → (s.txnOf h).owner = a.ownerCode →
    (persist = true → s.writerBusy = false) → s.precondFails (s.txnOf h).set = false →
    ∃ t, exec (.stitch a h persist) s = .next t ∧
      t.txnOf h = { s.txnOf h with
        state := .draining, left := s.txnLeft h, persist := persist, ti := 0, time := 0, late := false, wasHeld := false } ∧
      t.rd (R.SV_TXM_RESULT a.ownerCode) = Word.ofNat (1 + 64 * h) ∧ t.sv.reserved = (s.sv.reserved || persist)) ∧
  (∀ (a : Agent) (h ti sec ns : Nat) (persist : Bool) (s : State), s.reaches a = true → a.ownerCode ≤ 12 →
    s.txPending a = false → h < 4 → ti < 4 → sec < 2 ^ 48 → ns < giga → (s.txnOf h).state = .opened →
    (s.txnOf h).owner = a.ownerCode → (persist = true → s.writerBusy = false) → s.precondFails (s.txnOf h).set = false →
    s.tiNs ti < giga * sec + ns → giga * sec + ns ≤ 600 * giga + s.tiNs ti →
    ∃ t, exec (.stitchAt a h persist ti sec ns) s = .next t ∧
      t.txnOf h = { s.txnOf h with
        state := .held, left := s.txnLeft h, persist := persist, ti := ti, time := giga * sec + ns, late := false,
        wasHeld := true }) ∧
  (∀ (a : Agent) (h : Nat) (s : State), s.reaches a = true → a.ownerCode ≤ 12 → s.txPending a = false → h < 4 →
    (s.txnOf h).state ≠ .free → (s.txnOf h).owner = a.ownerCode →
    ∃ t, exec (.unpick a h) s = .next t ∧ t.txnOf h = freeTxn ∧
      ((s.txnOf h).state ≠ .copying → ∀ d < 18, (s.txnOf h).set.testBit d = true → t.shadowOf d = s.activeOf d)) ∧
  (∀ (a : Agent) (h : Nat) (s : State), s.reaches a = true → a.ownerCode ≤ 12 → s.txPending a = false → h < 4 →
    ((s.txnOf h).state = .opened ∨ (s.txnOf h).state = .copying) → (s.txnOf h).owner = a.ownerCode →
    ∃ t, exec (.renew a h) s = .next t ∧
      t.txnOf h = { s.txnOf h with left := (s.txnOf h).timeout, since := s.now }) ∧
  (∀ (h : Nat) (s : State), h < 4 → ((s.txnOf h).state = .copying ∨ (s.txnOf h).state = .opened) →
    ∃ t, exec (.txTimeout h) s = .next t ∧ t.txnOf h = freeTxn) ∧
  (∀ (a : Agent) (off d : Nat) (data : Word) (s : State) (r : RegRow), s.reaches a = true → off % 4 = 0 →
    0x800000 ≤ off % 0x1000000 → regRow (off - 0x800000) = some r → r.cd = some d → r.rsOf d = true →
    s.shadowMine a d = true →
    ∃ t, exec (.shadowWrite a off data) s = .next t ∧ t.active = s.active ∧ t.resp = .done ∧
      rfWord (t.shadowOf d) (off - 0x800000) = data &&& rsMask r.fields) ∧
  (∀ (a : Agent) (off d : Nat) (data : Word) (s : State) (r : RegRow), s.reaches a = true → s.socUp = true →
    off % 4 = 0 → 0x800000 ≤ off % 0x1000000 → regRow (off - 0x800000) = some r → r.cd = some d → r.rsOf d = true →
    s.shadowMine a d = false →
    ∃ t, exec (.shadowWrite a off data) s = .next t ∧ t.active = s.active ∧ t.shadow = s.shadow ∧ t.evSet 11 = true ∧
      t.rg F.SV_TX_SHADOW_REFUSED_COUNT =
        min (s.rg F.SV_TX_SHADOW_REFUSED_COUNT + 1) (2 ^ F.SV_TX_SHADOW_REFUSED_COUNT.wid - 1) ∧
      (s.rd R.SV_TX_SHADOW_ADDR = 0 →
        t.rg F.SV_TX_SHADOW_ADDR_OFFSET = off % 2 ^ F.SV_TX_SHADOW_ADDR_OFFSET.wid) ∧
      (s.rd R.SV_TX_SHADOW_ADDR ≠ 0 → t.rd R.SV_TX_SHADOW_ADDR = s.rd R.SV_TX_SHADOW_ADDR))

/-- (1) a held Stitch whose time has come drains, LATE where the time is past; (2) a drained one, not held before,
exchanges ACTIVE and SHADOW of its domains and of no other, frees its handle and advances the epoch by 1 modulo
2^32; (3) past DRAIN_LIM every old frame not yet queued is discarded, and (4) the only one is counted in TX_AGED;
(1) the load starts at position 0 of the selected bank; (2) TYPE 0xFF ends it with cause 1; (3) a record of unknown
TYPE is counted and passed; (4) a REGWRITE record of one write puts its value, less reserved bits, into the SHADOW
copy, is counted, and marks its domain; (5) the boot Stitch exchanges ACTIVE and SHADOW of every domain, advances
the epoch, ends the boot and raises 0. Taken from R109 to R111, R50, R51, R58, R60 to R62, of which it states only
the cases above. Readings of the model it goes by: log 20, 21, 24. -/
def Obligations.CommitAndLoad : Prop :=
  (∀ (h : Nat) (s : State), h < 4 → (s.txnOf h).state = .held → (s.txnOf h).time ≤ s.tiNs (s.txnOf h).ti →
    ∃ t, exec (.stitchAtTimeReached h) s = .next t ∧
      t.txnOf h = { s.txnOf h with state := .draining, late := s.pastTime h } ∧ within [.sv] s t) ∧
  (∀ (h : Nat) (s : State), h < 4 → (s.txnOf h).state = .draining → s.drained = true →
    (s.txnOf h).wasHeld = false → s.sv.recopy = 0 →
    ∃ t, exec (.stitchCommit h) s = .next t ∧ t.swapped = (s.txnOf h).set ∧ t.txnOf h = freeTxn ∧
      t.rg F.SV_TX_EPOCH_EPOCH = (s.rg F.SV_TX_EPOCH_EPOCH + 1) % 2 ^ 32 ∧
      ∀ d < 18, (t.activeOf d = if (s.txnOf h).set.testBit d = true then s.shadowOf d else s.activeOf d) ∧
        t.shadowOf d = if (s.txnOf h).set.testBit d = true then s.activeOf d else s.shadowOf d) ∧
  (∀ (s : State), s.drainWaited = true → s.sv.recopy = 0 →
    ∃ t, exec .drainLimAgeDiscard s = .next t ∧
      ∀ id f, s.frameOf id = some f → s.agedId id = true → f.stage ≠ .queued → f.zombie = false →
        ∀ g, t.frameOf id = some g → g.zombie = true) ∧
  (∀ (id : Nat) (f : Frame) (s : State), s.drainWaited = true → s.sv.recopy = 0 → s.busyQueues = [] →
    (∀ p < 41, ∀ m < 4, s.mqOf p m = []) → (∀ p < 41, s.txOf p = none) → s.allFrames = [(id, f)] →
    s.agedId id = true → f.stage ≠ .queued → f.rxDone = true →
    ∃ t, exec .drainLimAgeDiscard s = .next t ∧ t.frameOf id = none ∧
      t.rg F.SV_TX_AGED_COUNT = min (s.rg F.SV_TX_AGED_COUNT + 1) (2 ^ 32 - 1)) ∧
  (∀ (s : State), s.socUp = true → s.pw.start.firmware = true → s.sv.booting = true → s.sv.loading = false →
    s.rg F.SV_CFG_STATUS_END_CAUSE = 0 →
    ∃ t, exec .loaderStart s = .next t ∧ t.sv.loading = true ∧ t.sv.loadPos = 0 ∧ t.rg F.SV_CFG_SEQ_SEQ = s.selSeq ∧
      t.rg F.SV_CFG_STATUS_BANK = s.selBank ∧ t.rg F.SV_CFG_CODE_CODE = s.selCode) ∧
  (∀ (s : State), s.sv.loading = true → s.sv.loadPos + 8 ≤ 0x800000 →
    s.nvByte (nvBank (s.rg F.SV_CFG_STATUS_BANK) + s.sv.loadPos + 1) = 0xFF →
    ∃ t, exec .loadRecord s = .next t ∧ t.sv.loading = false ∧ t.rg F.SV_CFG_STATUS_END_CAUSE = 1 ∧
      t.shadow = s.shadow) ∧
  (∀ (s : State) (type len : Nat), s.sv.loading = true → type < 256 → type ≠ 0xFF → 4 < type →
    ¬(type = 0xFE ∧ s.nvByte (nvBank (s.rg F.SV_CFG_STATUS_BANK) + s.sv.loadPos) = 0) →
    s.nvByte (nvBank (s.rg F.SV_CFG_STATUS_BANK) + s.sv.loadPos + 1) = Byte.ofNat type →
    len = ofLe (s.nvRead (nvBank (s.rg F.SV_CFG_STATUS_BANK) + s.sv.loadPos + 4) 4) / 4 * 4 →
    s.sv.loadPos + 8 + len ≤ 0x800000 →
    ∃ t, exec .loadRecord s = .next t ∧ t.sv.loading = true ∧ t.sv.loadPos = s.sv.loadPos + 8 + len ∧
      t.shadow = s.shadow ∧ t.rg F.SV_CFG_UNKNOWN_COUNT =
        min (s.rg F.SV_CFG_UNKNOWN_COUNT + 1) (2 ^ F.SV_CFG_UNKNOWN_COUNT.wid - 1)) ∧
  (∀ (s : State) (cd fmt off pos : Nat) (w : Word) (r : RegRow), s.sv.loading = true → cd < 18 → fmt < 2 →
    pos = nvBank (s.rg F.SV_CFG_STATUS_BANK) + s.sv.loadPos → s.sv.loadPos + 16 ≤ 0x800000 →
    ofLe (s.nvRead pos 1) = cd → ofLe (s.nvRead (pos + 1) 1) = 1 → ofLe (s.nvRead (pos + 2) 1) = fmt →
    ofLe (s.nvRead (pos + 4) 4) = 8 → ofLe (s.nvRead (pos + 8) 4) = off →
    Word.ofNat (ofLe (s.nvRead (pos + 12) 4)) = w → cdRow cd off = some r →
    ∃ t, exec .loadRecord s = .next t ∧ t.sv.loading = true ∧ t.sv.loadPos = s.sv.loadPos + 16 ∧
      rfWord (t.shadowOf cd) off = w &&& rsMask r.fields ∧ t.active = s.active ∧
      (t.rg F.SV_CFG_DOMAINS_PRESENT).testBit cd = true ∧
      t.rg F.SV_CFG_RECORDS_COUNT = min (s.rg F.SV_CFG_RECORDS_COUNT + 1) (2 ^ F.SV_CFG_RECORDS_COUNT.wid - 1)) ∧
  (∀ (s : State), s.socUp = true → s.sv.booting = true → s.sv.loading = false →
    s.rg F.SV_CFG_STATUS_END_CAUSE ≠ 0 →
    ∃ t, exec .bootStitch s = .next t ∧ t.swapped = 2 ^ 18 - 1 ∧ t.sv.booting = false ∧
      t.rg F.SV_TX_EPOCH_EPOCH = (s.rg F.SV_TX_EPOCH_EPOCH + 1) % 2 ^ 32 ∧ t.evSet 0 = true ∧
      ∀ d < 18, t.activeOf d = s.shadowOf d ∧ t.shadowOf d = s.activeOf d)

/-- (1) an NVM read answers the bytes, an erase sets a sector to 0xFF, a program ANDs its bytes in, and no other byte
changes; (2) a Bersan bank write is queued; (3) or refused with 0xA while a writer is busy; (4) an operation of the
running task erases 4 KiB or programs 256 bytes; (5) the last one of a PERSIST ends it in state 0 with 12; (6) a
failing one ends it in state 3 with 13; (7) a migration is queued as a bank write; (8) an NVM read of the ledger
answers its bytes. Taken from R47, R48, R67, R68, R88, R112, R486, of which it states only the cases above. Readings
of the model it goes by: log 18, 23. -/
def Obligations.FlashCommands : Prop :=
  (∀ (c : Fin 8) (off n sector : Nat) (bytes : List Byte) (s : State), s.reaches (.core c) = true →
    bytes.length = n → nvCustomer + 4096 * sector + off + n ≤ s.nvSize → nvCustomer + 4096 * sector + 4096 ≤ s.nvSize →
    (∃ t, exec (.nvmOperation (.core c) 0 sector off bytes) s = .next t ∧ t.nv = s.nv ∧
      t.sv.nvmReply = s.nvRead (nvCustomer + 4096 * sector + off) n) ∧
    (∃ t, exec (.nvmOperation (.core c) 1 sector off bytes) s = .next t ∧
      ∀ o, t.nvByte o = if nvCustomer + 4096 * sector ≤ o ∧ o < nvCustomer + 4096 * sector + 4096 then 0xFF
        else s.nvByte o) ∧
    (∃ t, exec (.nvmOperation (.core c) 2 sector off bytes) s = .next t ∧
      (∀ i < n, t.nvByte (nvCustomer + 4096 * sector + off + i) =
        bytes.getD i 0 &&& s.nvByte (nvCustomer + 4096 * sector + off + i)) ∧
      ∀ o, (o < nvCustomer + 4096 * sector + off ∨ nvCustomer + 4096 * sector + off + n ≤ o) →
        t.nvByte o = s.nvByte o)) ∧
  (∀ (n : Nat) (image : List Byte) (s : State), n < 4 → s.reaches (.bersan (Fin.ofNat 4 n)) = true →
    s.writerBusy = false → 0 < image.length →
    ∃ t, exec (.bersanBankWrite n image) s = .next t ∧ t.nv = s.nv ∧ t.bankWriting = true ∧
      t.sv.tasks.length = s.sv.tasks.length + 1) ∧
  (∀ (n : Nat) (image : List Byte) (s : State), n < 4 → s.reaches (.bersan (Fin.ofNat 4 n)) = true →
    s.writerBusy = true →
    ∃ t, exec (.bersanBankWrite n image) s = .next t ∧ t.sv = s.sv ∧
      t.out = .bersanReply n (State.txWord 0xA 0 0 0) :: s.out) ∧
  (∀ (k : FlashKind) (a : FlashArea) (as : List FlashArea) (rest : List FlashTask) (s : State), s.socUp = true →
    s.sv.tasks = ⟨k, a :: as⟩ :: rest → trimAreas ((if a.erasing then a.afterErase else a.afterPage) :: as) ≠ [] →
    ∃ t, exec (.flashOpComplete true) s = .next t ∧
      t.nv = (if a.erasing then s.nvErase (a.base + a.pos) 4096
        else s.nvProgram (a.base + a.pos) ((a.bytes.drop a.pos).take 256)).nv) ∧
  (∀ (b : Agent) (bank seq : Nat) (a : FlashArea) (rest : List FlashTask) (s : State), s.socUp = true →
    s.sv.tasks = ⟨.persist b bank seq, [a]⟩ :: rest →
    trimAreas [if a.erasing then a.afterErase else a.afterPage] = [] →
    ∃ t, exec (.flashOpComplete true) s = .next t ∧ t.sv.tasks = rest ∧ t.rg F.SV_TX_PERSIST_STATE = 0 ∧
      t.evSet 12 = true ∧
      t.nv = (if a.erasing then s.nvErase (a.base + a.pos) 4096
        else s.nvProgram (a.base + a.pos) ((a.bytes.drop a.pos).take 256)).nv) ∧
  (∀ (b : Agent) (bank seq : Nat) (a : FlashArea) (as : List FlashArea) (rest : List FlashTask) (s : State),
    s.socUp = true → s.sv.tasks = ⟨.persist b bank seq, a :: as⟩ :: rest →
    ∃ t, exec (.flashOpComplete false) s = .next t ∧ t.sv.tasks = rest ∧ t.rg F.SV_TX_PERSIST_STATE = 3 ∧
      t.evSet 13 = true) ∧
  (∀ (s : State), s.booted = true → s.firstStart = true → s.writerBusy = false → s.rg F.SV_CFG_SKIPPED_COUNT = 0 →
    s.rg F.SV_CFG_UNKNOWN_COUNT = 0 → s.sv.oldFmt = true →
    ∃ t, exec .migration s = .next t ∧ t.nv = s.nv ∧ t.regs = s.regs ∧
      t.sv.tasks.length = s.sv.tasks.length + 1 ∧ t.bankWriting = true) ∧
  (∀ (c : Fin 8) (off n sector : Nat) (bytes : List Byte) (s : State), s.reaches (.core c) = true → bytes.length = n →
    nvLedger + 4096 * sector + off + n ≤ nvCustomer →
    ∃ t, exec (.nvmOperation (.core c) 3 sector off bytes) s = .next t ∧ t.nv = s.nv ∧
      t.sv.nvmReply = s.nvRead (nvLedger + 4096 * sector + off) n)

/-- (1) MEND_START takes the next ID and a free entry and answers the ID; (2) or is refused with the code of its check
and 16; (3) MEND_STOP of its owner waits for the end; (4) another agent's is refused with 8; (5) an activity ended
(no bank test, not stopped by request) leaves its entries; (6) one of kind 5 or 8 ends once it is stopped; (7) and
not before; (1) at the 100 ms of a bank test's fence no unqueued frame with a cell in the bank keeps a live record,
and (2) the only such frame is gone; (3) an uncorrectable error fences a bank in service; (4) and does nothing to
one out of service; (5) a first cipher mismatch names pair and context and raises 199; (6) a repeated one retires
the pair and raises 200. Taken from R117 to R121, R124, R117, R125, R188, R382, of which it states only the cases
above. Readings of the model it goes by: log 17, 18, 36. -/
def Obligations.MendAndFaults : Prop :=
  (∀ (a : Agent) (kind unit : Nat) (s : State), s.reaches a = true → a.ownerCode ≤ 12 → s.txPending a = false →
    s.deferred a.ownerCode = [] → kind < 16 → unit < 256 → s.mendCheck kind unit = none →
    ∃ t, exec (.mendStart a kind unit) s = .next t ∧ t.mend.lastId = s.mendId ∧
      t.mend.acts = s.mend.acts ++ [⟨s.mendId, kind, unit, a, a.ownerCode, false, State.mendEntry s.mend.acts 8⟩] ∧
      t.mend.facts = s.mend.facts ∧
      t.rd (R.SV_TXM_RESULT a.ownerCode) = Word.ofNat (State.txWord 0 0 0 s.mendId)) ∧
  (∀ (a : Agent) (kind unit code id : Nat) (s : State), s.reaches a = true → s.socUp = true → a.ownerCode ≤ 12 →
    s.txPending a = false → s.deferred a.ownerCode = [] → kind < 16 → unit < 256 →
    s.mendCheck kind unit = some (code, id) →
    ∃ t, exec (.mendStart a kind unit) s = .next t ∧ t.mend = s.mend ∧ t.evSet 16 = true ∧
      t.rd (R.SV_TXM_RESULT a.ownerCode) = Word.ofNat (State.txWord code 0 0 id)) ∧
  (∀ (a : Agent) (id : Nat) (m : Mend) (s : State), s.reaches a = true → a.ownerCode ≤ 12 → s.txPending a = false →
    id < 256 → s.mendOf id = some m → m.owner = a.ownerCode →
    ∃ t, exec (.mendStop a id) s = .next t ∧ t.mend = { s.mend with stopped := s.mend.stopped ++ [(id, a)] } ∧
      t.rd (R.SV_TXM_RESULT a.ownerCode) = 1) ∧
  (∀ (a : Agent) (id : Nat) (m : Mend) (s : State), s.reaches a = true → a.ownerCode ≤ 12 → s.txPending a = false →
    s.deferred a.ownerCode = [] → id < 256 → s.mendOf id = some m → m.owner ≠ a.ownerCode →
    ∃ t, exec (.mendStop a id) s = .next t ∧ t.mend = s.mend ∧
      t.rd (R.SV_TXM_RESULT a.ownerCode) = Word.ofNat (State.txWord 8 0 0 0)) ∧
  (∀ (id : Nat) (m : Mend) (s : State), s.mendOf id = some m → m.owner ≠ 14 → m.kind ≠ 1 → m.kind ≠ 5 → m.kind ≠ 8 →
    ∃ t, exec (.mendActivityEnd id 0) s = .next t ∧ t.mend.acts = s.mend.acts.filter (fun x => decide (x.id ≠ id)) ∧
      t.mend.facts = s.mend.facts.filter (fun x => decide (x.id ≠ id)) ∧ (∀ e ∈ t.mend.stopped, e.1 ≠ id)) ∧
  (∀ (id r : Nat) (m : Mend) (s : State), s.mendOf id = some m → m.owner ≠ 14 → (m.kind = 5 ∨ m.kind = 8) →
    s.mend.stopped.any (fun e => decide (e.1 = id)) = true →
    ∃ t, exec (.mendActivityEnd id r) s = .next t ∧
      t.mend.acts = s.mend.acts.filter (fun x => decide (x.id ≠ id)) ∧ (∀ e ∈ t.mend.stopped, e.1 ≠ id)) ∧
  (∀ (id r : Nat) (m : Mend) (s : State), s.mendOf id = some m → m.owner ≠ 14 → (m.kind = 5 ∨ m.kind = 8) →
    (∀ e ∈ s.mend.stopped, e.1 ≠ id) → exec (.mendActivityEnd id r) s = .next s) ∧
  (∀ (id : Nat) (m : Mend) (s : State), s.mendOf id = some m → m.kind = 1 → m.owner ≠ 14 →
    ∃ t, exec (.bankTestFenceExpiry id) s = .next t ∧ t.mend = s.mend ∧
      ∀ fid f, s.frameOf fid = some f → s.inBank m.unit fid = true → f.stage ≠ .queued → f.zombie = false →
        ∀ g, t.frameOf fid = some g → g.zombie = true) ∧
  (∀ (id fid : Nat) (m : Mend) (f : Frame) (s : State), s.mendOf id = some m → m.kind = 1 → m.owner ≠ 14 →
    s.busyQueues = [] → (∀ p < 41, ∀ k < 4, s.mqOf p k = []) → (∀ p < 41, s.txOf p = none) → s.allFrames = [(fid, f)] →
    s.inBank m.unit fid = true → f.stage ≠ .queued → f.rxDone = true →
    ∃ t, exec (.bankTestFenceExpiry id) s = .next t ∧ t.frameOf fid = none ∧ t.mend = s.mend) ∧
  (∀ (bank cell : Nat) (s : State), s.socUp = true → bank < 16 → s.bankOut bank = false →
    ∃ t, exec (.faultBankFence bank cell) s = .next t ∧
      ∃ m ∈ t.mend.facts, m.kind = 1 ∧ m.unit = bank ∧ m.owner = 14 ∧ m.id = t.mend.lastId) ∧
  (∀ (bank cell : Nat) (s : State), s.bankOut bank = true → exec (.faultBankFence bank cell) s = .next s) ∧
  (∀ (pair ctx : Nat) (s : State), s.socUp = true → pair < 8 → ctx < 4096 → s.pairs.contains pair = true →
    ∃ t, exec (.cipherMismatch pair ctx false) s = .next t ∧ t.mend = s.mend ∧ t.evSet 199 = true ∧
      t.rg F.CE_EV_LAST_PAIR = pair ∧ t.rg F.CE_EV_LAST_CTX = ctx) ∧
  (∀ (pair ctx : Nat) (s : State), s.socUp = true → pair < 8 → ctx < 4096 → s.pairs.contains pair = true →
    ∃ t, exec (.cipherMismatch pair ctx true) s = .next t ∧ t.evSet 200 = true ∧
      ∃ m ∈ t.mend.facts, m.kind = 4 ∧ m.unit = pair ∧ m.owner = 14)

/-- (1) PARTIAL in a RUN mode, (2) RUN in PARTIAL and (3) LISTEN in PARTIAL or RUN start their transition for the
requester; (4) RESCUE resets the SoC die with cause 5 (its request has no outcome afterwards: log 101), and flash,
fuses and power die stay; (5) FACTORY of a node-3 session in life cycle MANUFACTURE enters FACTORY; (6) each of the
five is answered BUSY while a transition runs; (7) PARTIAL in PARTIAL, RUN in a RUN mode and FACTORY in FACTORY are
answered SAME; (8) PARTIAL, RUN and LISTEN in FACTORY or RESCUE, and every request in RESCUE, are answered NO_PATH;
(9) FACTORY is answered LIFECYCLE or NOT_AUTH; in 6 to 9 neither the power state nor the mode changes. Taken from
R78, of which it states only the cases above. Readings of the model it goes by: log 28, 30, 101. -/
def Obligations.ModeRequests : Prop :=
  (∀ (a : Agent) (s : State), s.reaches a = true → s.modeBusy = false → s.inRun = true →
    ∃ t, exec (.modeReqPartial a) s = .next t ∧ t.pw.moving = .toPartial 0 ∧ t.pw.requester = some a ∧
      t.rg F.SV_MODE_MOVING = 1) ∧
  (∀ (a : Agent) (s : State), s.reaches a = true → s.modeBusy = false → s.mode = 2 →
    ∃ t, exec (.modeReqRun a) s = .next t ∧ t.pw.moving = .toRun 0 ∧ t.pw.requester = some a ∧
      t.rg F.SV_MODE_MOVING = 1 ∧ t.rg F.SV_MODE_RAMPING = 1) ∧
  (∀ (a : Agent) (s : State), s.reaches a = true → s.modeBusy = false → s.partialOrRun = true →
    ∃ t, exec (.modeReqListen a) s = .next t ∧ t.pw.moving = .toListen true ∧ t.pw.requester = some a ∧
      t.rg F.SV_MODE_MOVING = 1) ∧
  (∀ (a : Agent) (s : State), s.reaches a = true → s.modeBusy = false → s.mode ≠ 6 → s.pw.power = .up →
    s.pw.resetN = false → (s.pw.start.tested = true ∨ s.pw.start.origin ≠ s.now) →
    ∃ t, exec (.modeReqRescue a) s = .next t ∧ t.pw.cause = 5 ∧ t.pw.start.rom = true ∧
      (s.enrolling = false → s.upd.copy.running = false → t.nv = s.nv) ∧ t.aon = s.aon ∧
      t.active = [] ∧ t.shadow = []) ∧
  (∀ (n : Fin 4) (s : State), s.reaches (.bersan n) = true → s.modeBusy = false → s.mode ≠ 6 → s.mode ≠ 7 →
    s.rg F.KX_STAT_LC = 1 → s.sessionNode n.val = some 3 →
    ∃ t, exec (.modeReqFactory (.bersan n)) s = .next t ∧ t.mode = 7 ∧ t.pw.dramSr = false ∧ t.pw.moving = .none) ∧
  (∀ (a : Agent) (s : State), s.reaches a = true → s.socUp = true → s.modeBusy = true →
    ∃ t u v w y, exec (.modeReqPartial a) s = .next t ∧ exec (.modeReqRun a) s = .next u ∧
      exec (.modeReqListen a) s = .next v ∧ exec (.modeReqFactory a) s = .next w ∧
      exec (.modeReqRescue a) s = .next y ∧
      ∀ x ∈ [t, u, v, w, y], x.pw = s.pw ∧ x.mode = s.mode ∧ x.rg F.SV_MODE_LAST_RESULT = 2 ∧ x.evSet 4 = true) ∧
  (∀ (a : Agent) (s : State), s.reaches a = true → s.socUp = true → s.modeBusy = false →
    ∃ t u w, exec (.modeReqPartial a) s = .next t ∧ exec (.modeReqRun a) s = .next u ∧
      exec (.modeReqFactory a) s = .next w ∧
      (s.mode = 2 → t.pw = s.pw ∧ t.mode = 2 ∧ t.rg F.SV_MODE_LAST_RESULT = 3 ∧ t.evSet 4 = true) ∧
      (s.inRun = true → u.pw = s.pw ∧ u.mode = s.mode ∧ u.rg F.SV_MODE_LAST_RESULT = 3 ∧ u.evSet 4 = true) ∧
      (s.mode = 7 → w.pw = s.pw ∧ w.mode = 7 ∧ w.rg F.SV_MODE_LAST_RESULT = 3 ∧ w.evSet 4 = true)) ∧
  (∀ (a : Agent) (s : State), s.reaches a = true → s.socUp = true → s.modeBusy = false → (s.mode = 6 ∨ s.mode = 7) →
    ∃ t u v w y, exec (.modeReqPartial a) s = .next t ∧ exec (.modeReqRun a) s = .next u ∧
      exec (.modeReqListen a) s = .next v ∧ exec (.modeReqFactory a) s = .next w ∧
      exec (.modeReqRescue a) s = .next y ∧
      (∀ x ∈ [t, u, v], x.pw = s.pw ∧ x.mode = s.mode ∧ x.rg F.SV_MODE_LAST_RESULT = 6 ∧ x.evSet 4 = true) ∧
      (s.mode = 6 → ∀ x ∈ [w, y], x.pw = s.pw ∧ x.mode = 6 ∧ x.rg F.SV_MODE_LAST_RESULT = 6 ∧ x.evSet 4 = true)) ∧
  (∀ (a : Agent) (s : State), s.reaches a = true → s.socUp = true → s.modeBusy = false → s.mode ≠ 6 → s.mode ≠ 7 →
    (s.rg F.KX_STAT_LC = 1 → ∀ n : Fin 4, a = .bersan n → s.sessionNode n.val ≠ some 3) →
    ∃ t, exec (.modeReqFactory a) s = .next t ∧ t.pw = s.pw ∧ t.mode = s.mode ∧ t.evSet 4 = true ∧
      t.rg F.SV_MODE_LAST_RESULT = (if s.rg F.KX_STAT_LC = 1 then 5 else 4))

/-- (1) each stage to RUN leads to the next: DRAM leaves self-refresh at its stage, the SerDes are calibrated at theirs;
(2) the last enters the RUN mode and ends RAMPING; (3) each stage to PARTIAL leads to the next: SerDes off, cluster
in reset, DRAM in self-refresh; (4) the last enters PARTIAL; (5) at the entry to LISTEN the rails begin to fall; (6)
with the rails off and no wake latched the gateway is in LISTEN, (7) with one latched it rises again; (8) a LISTEN
exit of a source not masked raises the rails; (9) a code above 12, or outside LISTEN, does nothing; (10) rails that
fell for a rail fault wait for the retry. Taken from R86 to R88, of which it states only the cases above. Readings
of the model it goes by: log 28. -/
def Obligations.ModeSteps : Prop :=
  (∀ (k : Nat) (s : State), s.socUp = true → s.pw.moving = .toRun k → k < 4 →
    ∃ t, exec .partialToRunStep s = .next t ∧ t.pw.moving = .toRun (k + 1) ∧
      t.pw.dramSr = (if k = 1 then false else s.pw.dramSr) ∧
      t.pw.start.calibrated = (if k = 3 then true else s.pw.start.calibrated)) ∧
  (∀ (s : State), s.socUp = true → s.pw.moving = .toRun 4 →
    ∃ t, exec .runEntry s = .next t ∧ (s.pw.foldDue = false → t.pw.moving = .none) ∧ t.mode = s.runCode ∧
      t.rg F.SV_MODE_RAMPING = 0 ∧
      t.pw.startFull = (if s.pw.start.full then s.pw.startFull else min s.sinceOrigin (2 ^ 32 - 1))) ∧
  (∀ (k : Nat) (s : State), s.socUp = true → s.pw.moving = .toPartial k → k < 3 →
    ∃ t, exec .runToPartialStep s = .next t ∧ t.pw.moving = .toPartial (k + 1) ∧
      t.pw.start.calibrated = (if k = 0 then false else s.pw.start.calibrated) ∧
      t.pw.cxReset = (if k = 2 then true else s.pw.cxReset) ∧ t.pw.dramSr = (if k = 2 then true else s.pw.dramSr)) ∧
  (∀ (s : State), s.socUp = true → s.pw.moving = .toPartial 3 → s.pw.foldDue = false → s.pw.runWanted = false →
    ∃ t, exec .runToPartialStep s = .next t ∧ t.pw.moving = .none ∧ t.mode = 2) ∧
  (∀ (s : State), s.socUp = true → s.pw.moving = .toListen true → s.entryWaits = false →
    ∃ t, exec .listenEntry s = .next t ∧ t.pw.moving = .toListen false ∧ t.pw.power = .falling ∧
      t.aon.linkWatched = false) ∧
  (∀ (s : State), s.pw.power = .falling → s.pw.fallRetry = false → s.pw.wakeLatched = false →
    (∀ d ∈ s.validSds, (s.sdOf d).latched = false) →
    ∃ t, exec .railsOff s = .next t ∧ t.pw.power = .listen ∧ t.pw.rail = 0 ∧ t.pw.cause = 6 ∧
      (s.enrolling = false → s.upd.copy.running = false → t.nv = s.nv) ∧ t.aon = s.aon ∧ t.active = []) ∧
  (∀ (s : State), s.pw.power = .falling → s.pw.fallRetry = false → s.pw.wakeLatched = true →
    ∃ t, exec .railsOff s = .next t ∧ t.pw.power = .rising ∧ t.pw.rail = 0 ∧ t.pw.start.fromListen = true ∧
      t.pw.wakeLatched = false) ∧
  (∀ (src unit : Nat) (s : State), s.pw.power = .listen → src < 13 → s.masked (State.wakeInst src unit) = false →
    ∃ t, exec (.listenExit src unit) s = .next t ∧ t.pw.power = .rising ∧ t.pw.rail = 0 ∧ t.pw.start.fromListen = true ∧
      t.pw.cause = 6) ∧
  (∀ (src unit : Nat) (s : State), (s.pw.power ≠ .listen ∨ 13 ≤ src) → exec (.listenExit src unit) s = .next s) ∧
  (∀ (s : State), s.pw.power = .falling → s.pw.fallRetry = true → s.pw.wakeLatched = false →
    exec .railsOff s = .next { s with pw.power := .retry, pw.rail := 0 })

/-- (1) the ROM's self-test passes on, and a sound boot header sets OCTAL (log 93); (2) or leads to RESCUE where asked
for; (3) firmware starts where the active slots are authentic, else RESCUE; (4) the PUF builds the tree, or leaves
the keys down with the cause and 5; (5) DRAM is trained; (6) the SerDes are calibrated; (7) DRAM is zeroed; (8) with
TARGET 1 the ramp ends in PARTIAL with DRAM in self-refresh and the SerDes off. Taken from R79, R82, R95, R96, of
which it states only the cases above. Readings of the model it goes by: log 28, 93. -/
def Obligations.StartCommands : Prop :=
  (∀ (pufOk : Bool) (s : State), s.socUp = true → s.pw.start.rom = true → s.pw.start.tested = false →
    s.pw.rescue = false → s.pw.cause ≠ 5 → s.pw.rescueReq = false → s.copyMarked = false →
    ∃ t, exec (.romSelfTestDone pufOk) s = .next t ∧ t.pw = { s.pw with start.tested := true } ∧ t.nv = s.nv ∧
      t.rg F.SV_CFG_STATUS_OCTAL = (if s.bootHeaderOk then 1 else s.rg F.SV_CFG_STATUS_OCTAL)) ∧
  (∀ (pufOk : Bool) (s : State), s.socUp = true → s.pw.start.rom = true → s.pw.start.tested = false →
    s.pw.rescue = false → (s.pw.cause = 5 ∨ s.pw.rescueReq = true) →
    ∃ t, exec (.romSelfTestDone pufOk) s = .next t ∧ t.pw.rescue = true ∧ t.pw.start.tested = true ∧
      t.evSet 2 = true) ∧
  (∀ (s : State), s.socUp = true → s.pw.start.tested = true → s.pw.start.firmware = false → s.pw.rescue = false →
    s.upd.copy.running = false →
    ∃ t, exec .firmwareStart s = .next t ∧ t.pw.start.firmware = s.activeAuthentic ∧
      t.pw.rescue = !s.activeAuthentic) ∧
  (∀ (ok : Puf) (s : State), s.socUp = true → s.pw.start.firmware = true → s.pw.start.tree = false →
    ∃ t, exec (.pufReconstructed ok) s = .next t ∧ t.pw.start.tree = true ∧
      (s.downCause ok ≠ 0 → t.rg F.KX_STAT_KEYS_DOWN = 1 ∧ t.rg F.KX_STAT_DOWN_CAUSE = s.downCause ok ∧
        t.rg F.SV_MODE_KEYS_DOWN = 1 ∧ t.evSet 5 = true)) ∧
  (∀ (s : State), s.socUp = true → s.pw.start.firmware = true →
    exec .dramTrainingDone s = .next { s with pw.start.trained := true }) ∧
  (∀ (s : State), s.socUp = true → s.pw.start.rom = true → s.pw.start.ramped = false →
    ∃ t, exec .serdesCalibrationDone s = .next t ∧ t.pw = { s.pw with start.calibrated := true }) ∧
  (∀ (s : State), s.socUp = true → s.pw.start.trained = true → s.pw.start.zeroed = false →
    ∃ t, exec .dramZeroingDone s = .next t ∧ t.pw = { s.pw with start.zeroed := true } ∧ t.mx.dram = []) ∧
  (∀ (s : State), s.booted = true → s.pw.rescue = false → s.pw.start.ramped = false → s.pw.start.tree = true →
    s.pw.start.zeroed = true → s.pw.start.calibrated = true → s.act F.SV_MODE_CFG_TARGET = 1 → s.pw.foldDue = false →
    s.pw.runWanted = false →
    ∃ t, exec .startRampDone s = .next t ∧ t.pw.start.ramped = true ∧ t.pw.dramSr = true ∧ t.pw.moving = .none ∧
      t.pw.start.calibrated = false ∧
      t.rg F.SV_MODE_RAMPING = 0)

/-- (1) power-on starts the trims and the clock on the RC; (2) then the rails rise from the first; (3) the crystal takes
over; (4) each rail in order; (5) at a rail not good in time, which is named, the rails fall, to be retried; (6) so
they do at a rail lost in operation, which resets the SoC die; (7) the retry starts from the first rail; (8) the
sixth releases the SoC die with the level of HOSTMODE; (9) a brown-out switches all off, and the flash and fuses
stay; (10) while the rails fall they go off one by one, the last first; (11) the retry timer ends a fall. Taken from
R79, R534 to R536, of which it states only the cases above. Readings of the model it goes by: log 28, 29, 75, 108. -/
def Obligations.RailCommands : Prop :=
  (∀ (s : State), s.pw.power = .off →
    ∃ t, exec .vbatAonPowerOn s = .next t ∧ t.pw.power = .trims ∧ t.pw.start.origin = s.now ∧
      t.rg F.PW_RTC_SUB_ON_RC = 1) ∧
  (∀ (s : State), s.pw.power = .trims →
    ∃ t, exec .pwTrimsLoaded s = .next t ∧ t.pw.power = .rising ∧ t.pw.rail = 0 ∧ t.pw.cause = 0 ∧
      t.pw.start.origin = s.pw.start.origin ∧ within [.pw] s t) ∧
  (∀ (s : State), s.pw.power ≠ .off →
    ∃ t, exec .rtcCrystalStable s = .next t ∧ t.rg F.PW_RTC_SUB_ON_RC = 0 ∧ t.pw = s.pw) ∧
  (∀ (n : Nat) (s : State), s.pw.power = .rising → s.pw.rail = n → n < 6 →
    exec (.railPgRise n) s = .next { s with pw.rail := n + 1 }) ∧
  (∀ (n : Nat) (s : State), s.pw.power = .rising → s.pw.rail = n → n < 6 →
    ∃ t, exec (.railPgTimeout n) s = .next t ∧ t.pw.power = .falling ∧ t.pw.rail = n ∧ t.pw.fallRetry = true ∧
      t.pw.retries = min 3 (s.pw.retries + 1) ∧ t.rg F.PW_RAIL_STAT_FAIL_RAIL = n + 1 ∧
      t.rg F.PW_RAIL_STAT_FAIL_KIND = 1 ∧ t.rg F.PW_RAIL_STAT_ATTEMPTS = t.pw.retries) ∧
  (∀ (n : Nat) (s : State), s.pw.power = .up → n < 6 →
    ∃ t, exec (.railPgLost n) s = .next t ∧ t.pw.power = .falling ∧ t.pw.rail = 5 ∧ t.pw.fallRetry = true ∧
      t.pw.cause = 0 ∧ t.rg F.PW_RAIL_STAT_FAIL_RAIL = n + 1 ∧ t.rg F.PW_RAIL_STAT_FAIL_KIND = 2 ∧
      (s.enrolling = false → s.upd.copy.running = false → t.nv = s.nv) ∧ t.aon.kept = s.aon.kept ∧
      t.active = []) ∧
  (∀ (s : State), s.pw.power = .retry →
    ∃ t, exec .railRetryTimer s = .next t ∧ t.pw.power = .rising ∧ t.pw.rail = 0 ∧ t.pw.retries = s.pw.retries ∧
      within [.pw] s t) ∧
  (∀ (hostmode : Bool) (s : State), s.pw.power = .rising → s.pw.rail = 6 → s.pw.resetN = false →
    ∃ t, exec (.socPowerOnRelease hostmode) s = .next t ∧ t.pw.power = .up ∧ t.pw.retries = 0 ∧ t.pw.held = false ∧
      t.pw.rootPort = hostmode ∧
      t.pw.start.rom = true) ∧
  (∀ (s : State), s.pw.power ≠ .off →
    ∃ t, exec .vbatAonBrownout s = .next t ∧ t.pw.power = .off ∧ t.regs = [] ∧ t.active = [] ∧
      t.now = s.now ∧ (s.enrolling = false → s.upd.copy.running = false → t.nv = s.nv)) ∧
  (∀ (n : Nat) (s : State), s.pw.power = .falling → s.pw.rail = n → 0 < n → n < 6 →
    exec (.railPgLost n) s = .next { s with pw.rail := n - 1, pw.fallAt := s.now }) ∧
  (∀ (s : State), s.pw.power = .falling → s.pw.fallRetry = true →
    ∃ t, exec .railRetryTimer s = .next t ∧ t.pw.power = .rising ∧ t.pw.rail = 0 ∧ t.pw.retries = s.pw.retries ∧
      within [.pw] s t)

/-- (1) watchdog and lockstep reset the SoC die with cause 2 or 3; (2) SV_RESET with its key with cause 4; (3) without
its key it does nothing; (4) RESET_N holds it with cause 1; (5) and releases it; in 1, 2 and 4 the power die stays,
ACTIVE returns to its defaults, and flash and fuses stay unless ENROLL or the copy was at work (log 75, 108); (6) of
causes at one instant the first of R93's order stays; (7) the start milestones survive. Taken from R92, R93, R529,
of which it states only the cases above. Readings of the model it goes by: log 28, 75, 108. -/
def Obligations.ResetCommands : Prop :=
  (∀ (s : State), s.socUp = true → s.pw.resetN = false → (s.pw.start.tested = true ∨ s.pw.start.origin ≠ s.now) →
    ∃ t u, exec .svWatchdogExpiry s = .next t ∧ exec .lockstepMismatch s = .next u ∧ t.pw.cause = 2 ∧ u.pw.cause = 3 ∧
      ∀ x ∈ [t, u], x.pw.power = .up ∧ x.pw.start.rom = true ∧ x.aon = s.aon ∧ x.active = [] ∧ x.shadow = [] ∧
        (s.enrolling = false → s.upd.copy.running = false → x.nv = s.nv)) ∧
  (∀ (a : Agent) (data : Word) (s : State), s.reaches a = true → s.pw.power = .up → s.pw.resetN = false →
    F.SV_RESET_KEY.get data = 0x4E57 → F.SV_RESET_SOC.get data = 1 → (s.pw.start.tested = true ∨ s.pw.start.origin ≠ s.now) →
    ∃ t, exec (.svResetSoc a data) s = .next t ∧ t.pw.cause = 4 ∧ t.pw.start.rom = true ∧
      (s.enrolling = false → s.upd.copy.running = false → t.nv = s.nv) ∧ t.aon = s.aon ∧ t.active = []) ∧
  (∀ (a : Agent) (data : Word) (s : State), s.reaches a = true → F.SV_RESET_KEY.get data ≠ 0x4E57 →
    exec (.svResetSoc a data) s = .next { s with resp := .done }) ∧
  (∀ (s : State), s.pw.power = .up → (s.pw.start.tested = true ∨ s.pw.start.origin ≠ s.now) →
    ∃ t, exec .resetNAsserted s = .next t ∧ t.pw.held = true ∧ t.pw.resetN = true ∧ t.pw.cause = 1 ∧
      (s.enrolling = false → s.upd.copy.running = false → t.nv = s.nv) ∧ t.aon = s.aon ∧ t.active = []) ∧
  (∀ (s : State), s.pw.power = .up → s.pw.held = true →
    ∃ t, exec .resetNReleased s = .next t ∧ t.pw.held = false ∧ t.pw.resetN = false ∧ t.pw.start.rom = true ∧
      t.pw.start.origin = s.now) ∧
  (∀ (s : State), s.socUp = true → s.pw.resetN = false → s.pw.start.tested = false → s.pw.start.origin = s.now →
    ∃ t u v, exec .svWatchdogExpiry s = .next t ∧ exec .lockstepMismatch s = .next u ∧ exec .resetNAsserted s = .next v ∧
      t.pw.cause = State.firstCause s.pw.cause 2 ∧ u.pw.cause = State.firstCause s.pw.cause 3 ∧
      v.pw.cause = State.firstCause s.pw.cause 1) ∧
  (∀ (s : State), s.socUp = true → s.pw.resetN = false →
    ∃ t u, exec .svWatchdogExpiry s = .next t ∧ exec .lockstepMismatch s = .next u ∧
      ∀ x ∈ [t, u], x.pw.startFb = s.pw.startFb ∧ x.pw.startFull = s.pw.startFull)

/-- (1) a SerDes port with block lock comes up at its rate with event 32; (2) lock loss takes it down, begins its flush
and raises 32; (3) a fault is shown with 40, and a local one is answered with remote fault; (4) the end of a fault
ends that, where it was local; (5) a control word in auto-negotiation gives the rate where the lane can; (6) the end
of a flush raises 69 with the port; (7) a remote fault after a local one ends the remote fault sent; (1) a poll
reads registers 1, 5 and 10 of PHY_ADDR and brings P40 up at their rate; (2) or takes it down; (3) while an access
runs it waits; (4) GO starts the access; (5) while one runs a GO starts none; (6) the end raises 41 and a read takes
its data. The bits of Clause 22 are log 89. Taken from R129, R130, R142, R156, R158, R185, R149, R150, R155, of
which it states only the cases above. Readings of the model it goes by: log 41, 89. -/
def Obligations.LinkAndMdio : Prop :=
  (∀ (port r : Nat) (s : State), port < 24 → s.socUp = true → s.laneRate port = some r → r < 8 →
    s.portAllowed port = true → s.rg (F.PX_PORT_STAT_FAULT port) = 0 → s.portUp port = false →
    ∃ t, exec (.pcsBlockLock port) s = .next t ∧ t.portUp port = true ∧ t.portRate port = r ∧ t.evSet 32 = true) ∧
  (∀ (port : Nat) (s : State), port < 24 → s.socUp = true → s.portUp port = true →
    ∃ t, exec (.pcsLockLoss port) s = .next t ∧ t.portUp port = false ∧ t.portRate port = 7 ∧
      t.sx.flushing.testBit port = true ∧ t.evSet 32 = true) ∧
  (∀ (port : Nat) (isLocal : Bool) (s : State), port < 24 → s.socUp = true → s.rg (F.PX_PORT_STAT_FAULT port) = 0 →
    ∃ t, exec (.pcsFaultReceived port isLocal) s = .next t ∧ t.rg (F.PX_PORT_STAT_FAULT port) = 1 ∧ t.evSet 40 = true ∧
      t.px.localFault.testBit port = isLocal ∧
      (isLocal = true → s.px.localFault.testBit port = false → .remoteFault port true ∈ t.out)) ∧
  (∀ (port : Nat) (s : State), port < 24 → s.rg (F.PX_PORT_STAT_FAULT port) = 1 →
    ∃ t, exec (.pcsFaultCleared port) s = .next t ∧ t.rg (F.PX_PORT_STAT_FAULT port) = 0 ∧
      t.out = (if s.px.localFault.testBit port = true then .remoteFault port false :: s.out else s.out) ∧
      t.px.localFault.testBit port = false ∧ t.portUp port = s.portUp port) ∧
  (∀ (port rate : Nat) (s : State), port < 24 → s.anMode port = true → s.portRate port = rate →
    ∃ t, exec (.controlWordReceived port rate) s = .next t ∧ within [.px] s t ∧
      Sparse.get (fun _ => none) t.px.anRate port =
        if (laneRates (s.laneMode port)).contains rate then some rate else none) ∧
  (∀ (port : Nat) (s : State), port < 41 → s.socUp = true → s.sx.flushing.testBit port = true →
    ∃ t, exec (.portFlushComplete port) s = .next t ∧ t.sx.flushing.testBit port = false ∧
      t.rg F.SX_EV_LASTPORT_PORT = port ∧ t.evSet 69 = true) ∧
  (∀ (port : Nat) (s : State), port < 24 → s.rg (F.PX_PORT_STAT_FAULT port) = 1 → s.px.localFault.testBit port = true →
    ∃ t, exec (.pcsFaultReceived port false) s = .next t ∧ t.rg (F.PX_PORT_STAT_FAULT port) = 1 ∧
      t.px.localFault.testBit port = false ∧ t.out = .remoteFault port false :: s.out) ∧
  (∀ (r1 r5 r10 : Nat) (s : State), s.booted = true → s.act F.PX_RGMII_CFG_LINK_SRC = 0 → s.px.mdio = none →
    s.portUp 40 = false → r1.testBit 2 = true → s.act (F.PX_PORT_CFG_ADMIN 40) = 1 → s.rg (F.PX_PORT_STAT_MEND 40) = 0 →
    ∃ t, exec (.mdioPoll r1 r5 r10) s = .next t ∧ t.portUp 40 = true ∧ t.px.phyLink = true ∧
      t.portRate 40 = (if r10.testBit 11 then 2 else if r5.testBit 8 then 1 else 0) ∧
      ∀ r ∈ [1, 5, 10], Output.mdio r (s.act F.PX_RGMII_CFG_PHY_ADDR) false 0 ∈ t.out) ∧
  (∀ (r1 r5 r10 : Nat) (s : State), s.booted = true → s.act F.PX_RGMII_CFG_LINK_SRC = 0 → s.px.mdio = none →
    s.portUp 40 = true → r1.testBit 2 = false →
    ∃ t, exec (.mdioPoll r1 r5 r10) s = .next t ∧ t.portUp 40 = false ∧ t.px.phyLink = false) ∧
  (∀ (r1 r5 r10 : Nat) (s : State), s.booted = true → s.act F.PX_RGMII_CFG_LINK_SRC = 0 → s.px.mdio ≠ none →
    ∃ t, exec (.mdioPoll r1 r5 r10) s = .next t ∧ t.px.poll = some (r1, r5, r10) ∧ t.out = s.out ∧ within [.px] s t) ∧
  (∀ (a : Agent) (data : Word) (s : State), s.reaches a = true → F.PX_MDIO_CMD_GO.get data = 1 → s.px.mdio = none →
    ∃ t, exec (.mdioAccess a data) s = .next t ∧ t.rg F.PX_MDIO_CMD_BUSY = 1 ∧
      t.px.mdio = some (a, decide (F.PX_MDIO_CMD_WRITE.get data = 1)) ∧
      t.out = .mdio (F.PX_MDIO_CMD_REG.get data) (F.PX_MDIO_CMD_PHYAD.get data)
        (decide (F.PX_MDIO_CMD_WRITE.get data = 1)) (F.PX_MDIO_CMD_DATA.get data) :: s.out) ∧
  (∀ (a : Agent) (data : Word) (s : State), s.reaches a = true → s.px.mdio ≠ none →
    ∃ t, exec (.mdioAccess a data) s = .next t ∧ t.rg F.PX_MDIO_CMD_BUSY = s.rg F.PX_MDIO_CMD_BUSY ∧ t.out = s.out ∧
      t.px = s.px) ∧
  (∀ (data : Nat) (a : Agent) (write : Bool) (s : State), s.socUp = true → s.px.mdio = some (a, write) →
    s.px.poll = none → data < 65536 →
    ∃ t, exec (.mdioDone data) s = .next t ∧ t.rg F.PX_MDIO_CMD_BUSY = 0 ∧ t.px.mdio = none ∧ t.evSet 41 = true ∧
      t.rg F.PX_MDIO_CMD_DATA = if write = true then s.rg F.PX_MDIO_CMD_DATA else data)

/-- (1) a PAUSE frame (opcode 1 to 01-80-C2-00-00-01) pauses the port for its quanta; (2) during hold-off it is ignored
and counted; (3) of another opcode or destination it does nothing, (4) nor a PFC frame of another opcode; (5) a PFC
frame pauses or releases the priorities it names where PFC acts on them, no other; (6) a pause ends alone; (7) the
watchdog ends all, begins hold-off and raises 33; (8) the end of hold-off ends the pauses with it. Taken from R141
to R143, of which it states only the cases above. Readings of the model it goes by: log 4, 41. -/
def Obligations.PauseCommands : Prop :=
  (∀ (port q : Nat) (s : State), hasFc port = true → s.portUp port = true → s.rg (F.PX_PORT_STAT_HOLDOFF port) ≠ 1 →
    s.fcActs port 8 = true → 0 < q →
    ∃ t, exec (.pauseReceived port 0x0180C2000001 1 q) s = .next t ∧ t.rg (F.PX_PORT_STAT_PAUSED port) = 1 ∧
      t.pauseEndOf port 8 = s.now + (q * 512 * bitPs (s.portRate port) + 999) / 1000) ∧
  (∀ (port q : Nat) (s : State), hasFc port = true → s.portUp port = true → s.rg (F.PX_PORT_STAT_HOLDOFF port) = 1 →
    exec (.pauseReceived port 0x0180C2000001 1 q) s = .next (s.bump (F.PX_PAUSE_IGNORED_COUNT port))) ∧
  (∀ (port dmac opcode q : Nat) (s : State), (dmac ≠ 0x0180C2000001 ∨ opcode ≠ 1) →
    exec (.pauseReceived port dmac opcode q) s = .next s) ∧
  (∀ (port opcode en : Nat) (qs : List Nat) (s : State), opcode ≠ 0x0101 →
    exec (.pfcReceived port opcode en qs) s = .next s) ∧
  (∀ (port en k : Nat) (qs : List Nat) (s : State), hasFc port = true → s.portUp port = true → k < 8 →
    s.rg (F.PX_PORT_STAT_HOLDOFF port) ≠ 1 →
    ∃ t, exec (.pfcReceived port 0x0101 en qs) s = .next t ∧
      t.isPaused port k = (if en.testBit k = true ∧ s.fcActs port k = true then decide (qs.getD k 0 ≠ 0)
        else s.isPaused port k) ∧
      t.rg (F.PX_PORT_STAT_PAUSED port) = s.rg (F.PX_PORT_STAT_PAUSED port)) ∧
  (∀ (port k : Nat) (s : State), hasFc port = true → k < 9 →
    ∃ t, exec (.pauseExpiry port k) s = .next t ∧ t.isPaused port k = false ∧ t.pauseEndOf port k = 0 ∧
      ∀ j < 9, j ≠ k → t.isPaused port j = s.isPaused port j) ∧
  (∀ (port k : Nat) (s : State), hasFc port = true → k < 9 → s.socUp = true → s.isPaused port k = true →
    ∃ t, exec (.pauseWdTrip port k) s = .next t ∧ (∀ j < 9, t.isPaused port j = false) ∧
      t.rg (F.PX_PORT_STAT_HOLDOFF port) = 1 ∧ t.evSet 33 = true ∧
      t.rg (F.PX_PAUSE_WD_TRIPS_COUNT port) = min (s.rg (F.PX_PAUSE_WD_TRIPS_COUNT port) + 1) (2 ^ 32 - 1)) ∧
  (∀ (port : Nat) (s : State), hasFc port = true →
    ∃ t, exec (.pauseHoldoffEnd port) s = .next t ∧ t.rg (F.PX_PORT_STAT_HOLDOFF port) = 0 ∧
      ∀ j < 9, t.isPaused port j = false)

/-- (1) a follower's beacon loss is counted, ends PLCA_OK and raises 34; (2) where QUAR_EN names it, it quarantines the
port with cause 1 and 37; (3) a BEACON ends the loss; (4) a BEACON at the coordinator is a node-ID collision; (5) a
collision below IDCOL_LIM is counted and remembered; (6) the one that reaches it raises 35; (7) jabber is counted
and raises 36 (no quarantine in 6 and 7 where QUAR_EN does not name them); (8) a line idle ends jabber; (9) QUAR_T
or a release ends a quarantine and what it remembers. Taken from R145 to R148, of which it states only the cases
above. Readings of the model it goes by: log 41, 88. -/
def Obligations.T1sCommands : Prop :=
  (∀ (n : Nat) (s : State), n < 12 → s.socUp = true → s.t1sDetects (24 + n) = true →
    s.act (F.PX_PLCA_CFG_PLCA_EN (24 + n)) = 1 → nodeId s (24 + n) ≠ 0 → s.px.bcnLost.testBit (24 + n) = false →
    (s.act (F.PX_T1S_GUARD_QUAR_EN (24 + n))).testBit 0 = false →
    ∃ t, exec (.beaconLoss n) s = .next t ∧ t.px.bcnLost.testBit (24 + n) = true ∧
      t.rg (F.PX_PORT_STAT_PLCA_OK (24 + n)) = 0 ∧ t.evSet 34 = true ∧
      t.rg (F.PX_T1S_BCN_LOSS_COUNT (24 + n)) = min (s.rg (F.PX_T1S_BCN_LOSS_COUNT (24 + n)) + 1) (2 ^ 32 - 1)) ∧
  (∀ (n : Nat) (s : State), n < 12 → s.socUp = true → s.t1sDetects (24 + n) = true →
    s.act (F.PX_PLCA_CFG_PLCA_EN (24 + n)) = 1 → nodeId s (24 + n) ≠ 0 → s.px.bcnLost.testBit (24 + n) = false →
    (s.act (F.PX_T1S_GUARD_QUAR_EN (24 + n))).testBit 0 = true → s.rg (F.PX_PORT_STAT_QUAR (24 + n)) = 0 →
    ∃ t, exec (.beaconLoss n) s = .next t ∧ t.rg (F.PX_PORT_STAT_QUAR (24 + n)) = 1 ∧
      t.rg (F.PX_PORT_STAT_QUAR_CAUSE (24 + n)) = 1 ∧ t.portUp (24 + n) = false ∧ t.evSet 37 = true) ∧
  (∀ (n : Nat) (s : State), n < 12 → s.portUp (24 + n) = true → s.t1sHears (24 + n) = true →
    s.act (F.PX_PLCA_CFG_PLCA_EN (24 + n)) = 1 → nodeId s (24 + n) ≠ 0 →
    ∃ t, exec (.beaconReceived n) s = .next t ∧ t.px.bcnLost.testBit (24 + n) = false ∧
      t.rg (F.PX_PORT_STAT_PLCA_OK (24 + n)) = 1) ∧
  (∀ (n : Nat) (s : State), n < 12 → s.portUp (24 + n) = true → s.t1sHears (24 + n) = true →
    s.act (F.PX_PLCA_CFG_PLCA_EN (24 + n)) = 1 → nodeId s (24 + n) = 0 →
    exec (.beaconReceived n) s = exec (.nodeIdCollision n) s) ∧
  (∀ (n : Nat) (s : State), n < 12 → s.t1sHears (24 + n) = true → s.act (F.PX_PLCA_CFG_PLCA_EN (24 + n)) = 1 →
    (s.idcolOf (24 + n)).length + 1 < s.act (F.PX_T1S_GUARD_IDCOL_LIM (24 + n)) →
    ∃ t, exec (.nodeIdCollision n) s = .next t ∧
      Sparse.get (fun _ => []) t.px.idcol (24 + n) = s.now :: s.idcolOf (24 + n) ∧
      t.rg (F.PX_T1S_IDCOL_COUNT (24 + n)) = min (s.rg (F.PX_T1S_IDCOL_COUNT (24 + n)) + 1) (2 ^ 32 - 1)) ∧
  (∀ (n : Nat) (s : State), n < 12 → s.socUp = true → s.t1sHears (24 + n) = true →
    s.act (F.PX_PLCA_CFG_PLCA_EN (24 + n)) = 1 → s.act (F.PX_T1S_GUARD_IDCOL_LIM (24 + n)) ≠ 0 →
    s.act (F.PX_T1S_GUARD_IDCOL_LIM (24 + n)) ≤ (s.idcolOf (24 + n)).length + 1 →
    (s.act (F.PX_T1S_GUARD_QUAR_EN (24 + n))).testBit 1 = false →
    ∃ t, exec (.nodeIdCollision n) s = .next t ∧ Sparse.get (fun _ => []) t.px.idcol (24 + n) = [] ∧
      t.evSet 35 = true) ∧
  (∀ (n : Nat) (s : State), n < 12 → s.socUp = true → s.t1sDetects (24 + n) = true →
    s.px.jabbering.testBit (24 + n) = false →
    (s.act (F.PX_T1S_GUARD_QUAR_EN (24 + n))).testBit 2 = false →
    ∃ t, exec (.jabber n) s = .next t ∧ t.px.jabbering.testBit (24 + n) = true ∧ t.evSet 36 = true ∧
      t.rg (F.PX_T1S_JABBER_COUNT (24 + n)) = min (s.rg (F.PX_T1S_JABBER_COUNT (24 + n)) + 1) (2 ^ 32 - 1)) ∧
  (∀ (n : Nat) (s : State), n < 12 →
    exec (.jabberLineIdle n) s = .next { s with px.jabbering := clrBit s.px.jabbering (24 + n) }) ∧
  (∀ (a : Agent) (n : Nat) (data : Word) (s : State), n < 12 → s.reaches a = true →
    s.act (F.PX_T1S_GUARD_QUAR_T (24 + n)) ≠ 0 → s.rg (F.PX_PORT_STAT_QUAR (24 + n)) = 1 →
    s.rg (F.PX_PORT_STAT_MEND (24 + n)) = 0 → s.portUp (24 + n) = false → (F.PX_T1S_QREL_RELEASE (24 + n)).get data = 1 →
    ∃ t u, exec (.quarantineEnd n) s = .next t ∧ exec (.quarantineRelease a n data) s = .next u ∧
      ∀ x ∈ [t, u], x.rg (F.PX_PORT_STAT_QUAR (24 + n)) = 0 ∧ x.rg (F.PX_PORT_STAT_QUAR_CAUSE (24 + n)) = 0 ∧
        Sparse.get (fun _ => []) x.px.idcol (24 + n) = [] ∧ x.px.jabbering.testBit (24 + n) = false)

/-- (1) integration leads to error active, or (2) error passive with 144; (3) a configuration applies: off, held, or
integrating; (4) RECOVER leaves bus off, (5) and does nothing elsewhere; (6) recovery ends error active with both
counters 0 and 146; (7) a protocol exception with PEX_EN is counted, integrates and raises 152; (8) a receiver's bus
error shows LEC, adds 1 to REC, is counted, and sends an error flag; (9) one in its own error flag adds 8 and is not
counted again; (10) a transmitter's at TEC 248 or more leads to bus off with 145. Taken from R291 to R295, R311 to
R314, R320, of which it states only the cases above. Readings of the model it goes by: log 46, 48, 94. -/
def Obligations.CanStateCommands : Prop :=
  (∀ (c : Nat) (s : State), c < 16 → s.canState c = 2 → s.rg (F.BX_CAN_STAT_TEC c) ≤ 127 →
    s.rg (F.BX_CAN_STAT_REC c) ≤ 127 →
    ∃ t, exec (.canIntegrated c) s = .next t ∧ t.canState c = 3 ∧ t.bx = s.bx) ∧
  (∀ (c : Nat) (s : State), c < 16 → s.socUp = true → s.canState c = 2 →
    (127 < s.rg (F.BX_CAN_STAT_TEC c) ∨ 127 < s.rg (F.BX_CAN_STAT_REC c)) →
    ∃ t, exec (.canIntegrated c) s = .next t ∧ t.canState c = 4 ∧ t.evSet 144 = true) ∧
  (∀ (c : Nat) (old : RegFile) (s : State), c < 16 → (s.canOf c).old = some old → s.canState c ≠ 7 →
    (s.canOf c).active = none →
    ∃ t, exec (.canConfigApplied c) s = .next t ∧ (t.canOf c).old = none ∧ (t.canOf c).chosen = none ∧
      t.canState c = (if s.act (F.BX_CAN_CFG_EN c) = 0 then 0
        else if canTimingOk (s.activeOf (canCd c)) c = true then 2 else 1)) ∧
  (∀ (a : Agent) (c : Nat) (s : State), c < 16 → s.reaches a = true → s.canState c = 5 →
    ∃ t, exec (.canRecover a c) s = .next t ∧ t.canState c = 6 ∧ t.rg (F.BX_CAN_STAT_RECOV_WAIT c) = 0 ∧
      t.rg (F.BX_CAN_STAT_BUSOFF_CNT c) = 0) ∧
  (∀ (a : Agent) (c : Nat) (s : State), c < 16 → s.reaches a = true → s.canState c ≠ 5 →
    exec (.canRecover a c) s = .next { s with resp := .done }) ∧
  (∀ (c : Nat) (s : State), c < 16 → s.socUp = true → s.canState c = 6 →
    ∃ t, exec (.canRecoveryDone c) s = .next t ∧ t.canState c = 3 ∧ t.rg (F.BX_CAN_STAT_TEC c) = 0 ∧
      t.rg (F.BX_CAN_STAT_REC c) = 0 ∧ t.evSet 146 = true) ∧
  (∀ (c : Nat) (xl : Bool) (s : State), c < 16 → s.socUp = true → s.canLive c = true →
    canTakes (s.canRf c) c (if xl then 2 else 1) = false → rfGet (s.canRf c) (F.BX_CAN_CFG_PEX_EN c) = 1 →
    ∃ t, exec (.canProtocolException c xl) s = .next t ∧ t.canState c = 2 ∧ t.evSet 152 = true ∧
      t.rg (F.BX_CAN_PEXC_COUNT c) = min (s.rg (F.BX_CAN_PEXC_COUNT c) + 1) (2 ^ 32 - 1)) ∧
  (∀ (c code : Nat) (exempt : Bool) (edges : Option (List Nat)) (s : State), c < 16 → 0 < code → code < 7 →
    s.canState c = 3 → s.canMode c = 0 → (s.canOf c).active = none → s.rg (F.BX_CAN_STAT_TEC c) ≤ 127 →
    s.rg (F.BX_CAN_STAT_REC c) + 1 ≤ 127 →
    ∃ t, exec (.canBusError c code false false exempt edges) s = .next t ∧ t.canState c = 3 ∧
      t.rg (F.BX_CAN_ERR_LEC c) = code ∧ t.rg (F.BX_CAN_STAT_TEC c) = s.rg (F.BX_CAN_STAT_TEC c) ∧
      t.rg (F.BX_CAN_STAT_REC c) = s.rg (F.BX_CAN_STAT_REC c) + 1 ∧ .canError c true ∈ t.out ∧
      t.rg (F.BX_CAN_ERR_FRAMES_COUNT c) = min (s.rg (F.BX_CAN_ERR_FRAMES_COUNT c) + 1) (2 ^ 32 - 1)) ∧
  (∀ (c code : Nat) (exempt : Bool) (edges : Option (List Nat)) (s : State), c < 16 → 0 < code → code < 7 →
    s.canState c = 3 → s.canMode c = 0 → (s.canOf c).active = none → (s.canOf c).errTx = false →
    s.rg (F.BX_CAN_STAT_TEC c) ≤ 127 → s.rg (F.BX_CAN_STAT_REC c) + 8 ≤ 127 →
    ∃ t, exec (.canBusError c code false true exempt edges) s = .next t ∧ t.canState c = 3 ∧
      t.rg (F.BX_CAN_STAT_REC c) = s.rg (F.BX_CAN_STAT_REC c) + 8 ∧
      t.rg (F.BX_CAN_STAT_TEC c) = s.rg (F.BX_CAN_STAT_TEC c) ∧
      t.rg (F.BX_CAN_ERR_FRAMES_COUNT c) = s.rg (F.BX_CAN_ERR_FRAMES_COUNT c)) ∧
  (∀ (c code o : Nat) (f : CanFrame) (severe : Bool) (edges : Option (List Nat)) (s : State), c < 16 → 0 < code →
    code < 7 → o < 128 → s.socUp = true → s.canLive c = true → s.canMode c = 0 → (s.canOf c).active = some (o, f) →
    248 ≤ s.rg (F.BX_CAN_STAT_TEC c) →
    ∃ t, exec (.canBusError c code false severe false edges) s = .next t ∧ (t.canState c = 5 ∨ t.canState c = 6) ∧
      t.evSet 145 = true ∧ (t.canOf c).active = none)

/-- (1) TXREQ makes an object PENDING, no other; (2) TXCAN ends a PENDING one as CANCELLED, (3) and marks an ACTIVE one;
(4) RXACK empties a receive object; (5) the best PENDING object is chosen; (6) at its start it is ACTIVE with its
stamp, its ESI the controller's state; (7) its end is SENT, counted, and on the bus; (8) a lost arbitration makes it
PENDING; (9) a frame fills the first object that takes it, (10) or is counted in RX_NOMATCH, each with an ACK in
MODE 0 and 2; (11) an uncorrectable error in a chosen object ends it with ECC_ERR, marks its code word and is
counted. Taken from R302 to R310, R315, of which it states only the cases above. Readings of the model it goes by:
log 48. -/
def Obligations.CanObjectCommands : Prop :=
  (∀ (a : Agent) (c w o : Nat) (data : Word) (s : State), c < 16 → w < 4 → s.reaches a = true →
    State.wordObjs w data = [o] → canGw (s.canRf c) c o = false → canIs (s.canRf c) c o 1 = true →
    s.objStatus c o ≠ 1 → s.objStatus c o ≠ 2 → s.formatErr c o = false → s.busSds c = 0 →
    ∃ t, exec (.canTxreq a c w data) s = .next t ∧ t.objStatus c o = 1 ∧
      ∀ k < 128, k ≠ o → t.objStatus c k = s.objStatus c k) ∧
  (∀ (a : Agent) (c w o : Nat) (data : Word) (s : State), c < 16 → w < 4 → s.reaches a = true →
    State.wordObjs w data = [o] → canGw (s.canRf c) c o = false → canIs (s.canRf c) c o 1 = true →
    s.objStatus c o = 1 →
    ∃ t, exec (.canTxcan a c w data) s = .next t ∧ t.objStatus c o = 5 ∧ ∀ f, (t.canOf c).chosen ≠ some (o, f)) ∧
  (∀ (a : Agent) (c w o : Nat) (data : Word) (s : State), c < 16 → w < 4 → s.reaches a = true →
    State.wordObjs w data = [o] → canGw (s.canRf c) c o = false → canIs (s.canRf c) c o 1 = true →
    s.objStatus c o = 2 →
    ∃ t, exec (.canTxcan a c w data) s = .next t ∧ t.objStatus c o = 2 ∧ t.rg (F.BX_CAN_OBJ_W0_CANCEL_REQ c o) = 1) ∧
  (∀ (a : Agent) (c w o : Nat) (data : Word) (s : State), c < 16 → w < 4 → s.reaches a = true →
    State.wordObjs w data = [o] → canGw (s.canRf c) c o = false → canIs (s.canRf c) c o 0 = true →
    ∃ t, exec (.canRxack a c w data) s = .next t ∧ t.objStatus c o = 0 ∧ t.rg (F.BX_CAN_OBJ_W0_OVR c o) = 0) ∧
  (∀ (c o word : Nat) (s : State), c < 16 → s.canLive c = true → s.canMode c ≠ 1 → (s.canOf c).active = none →
    (s.canOf c).old = none → s.bestPending c = some o → s.objBadWord c o (s.objLen c o) = none →
    exec (.canTxChoice c 0 word) s =
      .next (s.setCan c { s.canOf c with chosen := some (o, s.objFrame c o (s.objLen c o)) })) ∧
  (∀ (c o : Nat) (f : CanFrame) (s : State), c < 16 → o < 128 → s.canLive c = true → (s.canOf c).active = none →
    (s.canOf c).old = none → (s.canOf c).chosen = some (o, f) →
    ∃ t, exec (.canTxCommit c) s = .next t ∧ t.objStatus c o = 2 ∧
      t.canOf c = { s.canOf c with chosen := none, active := some (o, s.withEsi c f), started := s.sofStamp c, errTx := false }) ∧
  (∀ (c o : Nat) (edges : List Nat) (f : CanFrame) (s : State), c < 16 → o < 128 → s.canLive c = true → s.canMode c ≠ 3 →
    (s.canOf c).active = some (o, f) → s.rg (F.BX_CAN_OBJ_W0_CANCEL_REQ c o) ≠ 1 →
    ∃ t, exec (.canTxDone c edges) s = .next t ∧ t.objStatus c o = 3 ∧ (t.canOf c).active = none ∧
      .canFrame c f ∈ t.out ∧
      t.rg (F.BX_CAN_TX_FRAMES_COUNT c) = min (s.rg (F.BX_CAN_TX_FRAMES_COUNT c) + 1) (2 ^ 32 - 1)) ∧
  (∀ (c o : Nat) (f : CanFrame) (s : State), c < 16 → o < 128 → (s.canOf c).active = some (o, f) →
    s.rg (F.BX_CAN_OBJ_W0_CANCEL_REQ c o) ≠ 1 → rfGet (s.canRf c) (F.BX_CAN_OBJCFG_W2_ONESHOT c o) ≠ 1 →
    ∃ t, exec (.canArbLost c) s = .next t ∧ t.objStatus c o = 1 ∧ (t.canOf c).active = none ∧
      t.rg (F.BX_CAN_ARB_LOST_COUNT c) = min (s.rg (F.BX_CAN_ARB_LOST_COUNT c) + 1) (2 ^ 32 - 1)) ∧
  (∀ (c o stamp : Nat) (f : CanFrame) (s : State), c < 16 → o < 128 → s.canLive c = true → s.canMode c ≠ 3 →
    canTakes (s.canRf c) c f.format = true → (∀ k < o, s.objAccepts c k f = false) → s.objAccepts c o f = true →
    s.objStatus c o ≠ 0xC →
    ∃ t, exec (.canRxFrame c f stamp) s = .next t ∧ t.objStatus c o = 0xC ∧
      t.rg (F.BX_CAN_OBJ_W1_ID c o) = f.id % 2 ^ 29 ∧ t.rd (R.BX_CAN_OBJ_W5 c o) = Word.ofNat stamp ∧
      ((s.canMode c = 0 ∨ s.canMode c = 2) → .canAck c ∈ t.out) ∧
      t.rg (F.BX_CAN_RX_FRAMES_COUNT c) = min (s.rg (F.BX_CAN_RX_FRAMES_COUNT c) + 1) (2 ^ 32 - 1)) ∧
  (∀ (c stamp : Nat) (f : CanFrame) (s : State), c < 16 → s.canLive c = true → s.canMode c ≠ 3 →
    canTakes (s.canRf c) c f.format = true → (∀ k < 128, s.objAccepts c k f = false) →
    ∃ t, exec (.canRxFrame c f stamp) s = .next t ∧ (∀ k < 128, t.objStatus c k = s.objStatus c k) ∧
      ((s.canMode c = 0 ∨ s.canMode c = 2) → .canAck c ∈ t.out) ∧
      t.rg (F.BX_CAN_RX_NOMATCH_COUNT c) = min (s.rg (F.BX_CAN_RX_NOMATCH_COUNT c) + 1) (2 ^ 32 - 1)) ∧
  (∀ (c o word : Nat) (s : State), c < 16 → o < 128 → s.canLive c = true → s.canMode c ≠ 1 → (s.canOf c).active = none →
    (s.canOf c).old = none → s.bestPending c = some o → s.objBadWord c o (s.objLen c o) = none →
    ∃ t, exec (.canTxChoice c 2 word) s = .next t ∧ t.objStatus c o = 0xB ∧ (t.canOf c).chosen = none ∧
      t.ramBad c ((s.objWords c o (s.objLen c o)).getD word 0) = true ∧
      t.rg (F.BX_CAN_ECC_UE_COUNT c) = min (s.rg (F.BX_CAN_ECC_UE_COUNT c) + 1) (2 ^ 32 - 1))

/-- (1) a frame without a route frees its object, is counted and raises 162; (2) a frame of a route with HOLD opens the
template's frame with its deadline; (3) the deadline closes that frame, no other; (4) a read of an empty DOWN queue
is counted; (5) a DOWN packet is read in turn, and a bad one counts BAD_ACF with 166. Taken from R333, R334, R336 to
R338, R341, of which it states only the cases above. Readings of the model it goes by: log 50. -/
def Obligations.GatewayCommands : Prop :=
  (∀ (c o word : Nat) (rest : List Nat) (s : State), c < 16 → o < 128 → s.gwOn = true → (s.canOf c).gwRx = o :: rest →
    canIs (s.canRf c) c o 0 = true → s.upRoute c (s.objFrame c o (s.rg (F.BX_CAN_OBJ_W3_LEN c o))) = none →
    ∃ t, exec (.gwRouteLookup c 0 word) s = .next t ∧ (t.canOf c).gwRx = rest ∧ t.objStatus c o = 0 ∧ t.evSet 162 = true ∧
      t.rg F.BX_GW_UP_NOROUTE_COUNT = min (s.rg F.BX_GW_UP_NOROUTE_COUNT + 1) (2 ^ 32 - 1)) ∧
  (∀ (c o r m word : Nat) (rest : List Nat) (f : CanFrame) (s : State), c < 16 → o < 128 → s.gwOn = true →
    (s.canOf c).gwRx = o :: rest → f = s.objFrame c o (s.rg (F.BX_CAN_OBJ_W3_LEN c o)) → s.upRoute c f = some r →
    s.objBadWord c o f.data.length = none → f.format ≠ 2 → s.act (F.BX_GW_ROUTE_W7_COPY_EN r) = 0 → s.act (F.BX_GW_ROUTE_W2_KIND r) ≠ 1 →
    s.act (F.BX_GW_ROUTE_W6_SEAL r) ≠ 1 → 0 < s.act (F.BX_GW_ROUTE_W3_HOLD r) →
    m = s.act (F.BX_GW_ROUTE_W2_TMPL r) → s.openUp m = none → 1 < State.maxMsg (s.activeOf 9) m →
    ∃ t u, exec (.gwRouteLookup c 0 word) s = .next t ∧ (t.canOf c).gwRx = rest ∧ t.openUp m = some u ∧
      u.msgs.length = 1 ∧ u.deadline = s.now + 1000 * s.act (F.BX_GW_ROUTE_W3_HOLD r)) ∧
  (∀ (m : Nat) (u : OpenUp) (s : State), m < 256 → s.gwOn = true → s.openUp m = some u →
    ∃ t, exec (.gwHoldDeadline m) s = .next t ∧ t.openUp m = none ∧ ∀ k, k ≠ m → t.openUp k = s.openUp k) ∧
  (∀ (q : Nat) (errs : List (Nat × Bool)) (s : State), q < 16 → s.gwOn = true → s.pqIs q 1 = true →
    (s.pqOf q).ready = [] → exec (.gwDownPacket q errs) s = .next (s.bump (F.BX_PQ_EMPTY_READS_COUNT q))) ∧
  (∀ (q : Nat) (p : Packet) (rest : List Packet) (s : State), q < 16 → s.gwOn = true → s.pqIs q 1 = true →
    (s.pqOf q).ready = p :: rest →
    ((List.range 16).map (fun k => (s.bx.downRr + k) % 16)).find?
      (fun k => s.pqIs k 1 && !(s.pqOf k).ready.isEmpty) = some q →
    ∃ t, exec (.gwDownPacket q []) s = .next t ∧ (t.pqOf q).ready = rest ∧ t.bx.downRr = (q + 1) % 16 ∧
      (gwMessages p.bytes = [.bad] → t.evSet 166 = true ∧
        t.rg F.BX_GW_BAD_ACF_COUNT = min (s.rg F.BX_GW_BAD_ACF_COUNT + 1) (2 ^ 32 - 1)))

/-- (1) an UP packet commits and is counted; (2) so does a DOWN packet of an OK frame, which ends at P38; (3) one whose
frame is dropped is rewound and counted; (4) a read of an empty UP queue is counted; (5) an UP queue is read in
order; (6) a whole frame that fits is written to its DOWN queue; (7) a reset empties a queue and counts its packets
as rewound. Taken from R326 to R332, of which it states only the cases above. Readings of the model it goes by: log
50, 51, 77. -/
def Obligations.PackingQueueCommands : Prop :=
  (∀ (q : Nat) (p : Packet) (s : State), q < 16 → s.pqIs q 0 = true → s.pqIs q 1 = false → (s.pqOf q).writing = some p →
    (s.pqOf q).waiting = [] →
    ∃ t, exec (.pqCommit q) s = .next t ∧
      t.pqOf q = { s.pqOf q with ready := (s.pqOf q).ready ++ [p], writing := none } ∧
      t.rg (F.BX_PQ_PKTS_COUNT q) = min (s.rg (F.BX_PQ_PKTS_COUNT q) + 1) (2 ^ 32 - 1)) ∧
  (∀ (q : Nat) (p : Packet) (tx : TxNow) (f : Frame) (s : State), q < 16 → s.pqIs q 1 = true →
    (s.pqOf q).writing = some p → s.txOf 38 = some tx → s.frameOf tx.copy.frame = some f → f.verdict = .ok →
    ∃ t, exec (.pqCommit q) s = .next t ∧ (t.pqOf q).ready = (s.pqOf q).ready ++ [p] ∧ (t.pqOf q).writing = none ∧
      t.txOf 38 = none) ∧
  (∀ (q : Nat) (p : Packet) (tx : TxNow) (s : State), q < 16 → s.pqIs q 1 = true → (s.pqOf q).writing = some p →
    s.txOf 38 = some tx → tx.into = some q → s.mustDrop tx.copy.frame = true →
    ∃ t, exec (.pqRewind q) s = .next t ∧ t.pqOf q = { s.pqOf q with writing := none } ∧ t.txOf 38 = none ∧
      t.rg (F.BX_PQ_REWOUND_COUNT q) = min (s.rg (F.BX_PQ_REWOUND_COUNT q) + 1) (2 ^ 32 - 1)) ∧
  (∀ (q : Nat) (errs : List (Nat × Bool)) (s : State), q < 16 → s.portUp 38 = true → s.pqIs q 0 = true →
    (s.pqOf q).ready = [] → exec (.pqUpRead q errs) s = .next (s.bump (F.BX_PQ_EMPTY_READS_COUNT q))) ∧
  (∀ (q : Nat) (p : Packet) (rest : List Packet) (s : State), q < 16 → s.portUp 38 = true → s.pqIs q 0 = true →
    (s.pqOf q).ready = p :: rest → (∀ k < 16, q < k → s.pqIs k 0 = true → (s.pqOf k).ready = []) →
    ∃ t, exec (.pqUpRead q []) s = .next t ∧
      t.pqOf q = { s.pqOf q with ready := rest, rd := ((s.pqOf q).rd + p.words.length) % 256 }) ∧
  (∀ (q : Nat) (tx : TxNow) (f : Frame) (s : State), q < 16 → s.txOf 38 = some tx →
    s.frameOf tx.copy.frame = some f → f.verdict = .ok → State.isWhole f = true → tx.into = none →
    s.downBy tx.tables tx.copy.tc = some q → State.toSeal tx (s.egressBytes f 38) = [] → (s.pqOf q).writing = none →
    s.pqUsed q + pqWords (s.egressBytes f 38).length ≤ 256 →
    exec (.pqDownWrite q) s =
      .next ((s.setPq q { s.pqOf q with
        writing := some (packetOf (s.egressBytes f 38) none tx.tables tx.seals) }).setTx 38
          (some { tx with into := some q }))) ∧
  (∀ (a : Agent) (q : Nat) (s : State), q < 16 → s.reaches a = true → (s.pqOf q).writing = none →
    (s.pqOf q).waiting = [] →
    ∃ t, exec (.pqReset a q) s = .next t ∧ t.pqOf q = freshPq ∧
      t.rg (F.BX_PQ_REWOUND_COUNT q) = min (s.rg (F.BX_PQ_REWOUND_COUNT q) + (s.pqOf q).ready.length) (2 ^ 32 - 1))

/-- (1) an Ethernet keep-alive without NEED is counted; (2) a CAN keep-alive, each counted as one with NEED (log 57),
and (3) an Ethernet one with NEED are counted and restart the fold timer of a QUIET domain; (4) the gateway's own by
Ethernet counts its sequence on; (5) its own by CAN requests its object with its identifier. Taken from R405, R406,
R415, R416, of which it states only the cases above. Readings of the model it goes by: log 57. -/
def Obligations.KeepaliveCommands : Prop :=
  (∀ (n : Nat) (f : Frame) (s : State), s.booted = true → s.frameOf n = some f → s.kaFrameSds f ≠ [] →
    beAt f.bytes ((parseHdr f.bytes).l3 + 2) 1 % 2 = 0 →
    exec (.keepaliveRecognised (.frame n)) s = .next (s.bump F.SV_FOLD_KA_RX_COUNT)) ∧
  (∀ (c id d : Nat) (ide : Bool) (s : State), s.booted = true → c < 16 → s.canLive c = true → s.canMode c ≠ 3 →
    d ∈ s.kaCanSds c id ide → s.toListen = false →
    (∀ e ∈ s.validSds, ((s.sdOf e).state = 1 ∨ (s.sdOf e).state = 2) ∧ (s.sdOf e).enforced = false) →
    ∃ t, exec (.keepaliveRecognised (.can c id ide)) s = .next t ∧
      t.sdOf d = (if (s.sdOf d).state = 2 then { s.sdOf d with timerFrom := s.now } else s.sdOf d) ∧
      t.rg F.SV_FOLD_KA_RX_COUNT = min (s.rg F.SV_FOLD_KA_RX_COUNT + 1) (2 ^ 32 - 1)) ∧
  (∀ (n d : Nat) (f : Frame) (s : State), s.booted = true → s.frameOf n = some f → d ∈ s.kaFrameSds f →
    beAt f.bytes ((parseHdr f.bytes).l3 + 2) 1 % 2 = 1 → s.toListen = false →
    (∀ e ∈ s.validSds, ((s.sdOf e).state = 1 ∨ (s.sdOf e).state = 2) ∧ (s.sdOf e).enforced = false) →
    ∃ t, exec (.keepaliveRecognised (.frame n)) s = .next t ∧
      t.sdOf d = (if (s.sdOf d).state = 2 then { s.sdOf d with timerFrom := s.now } else s.sdOf d) ∧
      t.rg F.SV_FOLD_KA_RX_COUNT = min (s.rg F.SV_FOLD_KA_RX_COUNT + 1) (2 ^ 32 - 1)) ∧
  (∀ (d : Nat) (s : State), s.booted = true → d ∈ s.validSds → s.sdNeeded d = true →
    s.fold (F.SV_SD_W0_KA_TX_EN d) = 1 → s.sdPorts d ≠ 0 → s.kaMac ≠ 0 → s.sdBuses d = 0 →
    ∃ t, exec (.keepaliveTx d) s = .next t ∧
      t.sdOf d = { s.sdOf d with seq := ((s.sdOf d).seq + 1) % 2 ^ 32 }) ∧
  (∀ (d c o : Nat) (s : State), s.booted = true → d ∈ s.validSds → s.sdNeeded d = true → c < 16 →
    s.fold (F.SV_SD_W0_KA_TX_EN d) = 1 → s.sdPorts d = 0 → s.sdBuses d = 2 ^ c → o = s.fold (F.SV_SD_W6_KA_OBJ d) →
    s.kaBlocked c o = false →
    ∃ t, exec (.keepaliveTx d) s = .next t ∧ t.objStatus c o = 1 ∧
      t.rg (F.BX_CAN_OBJ_W1_ID c o) = s.fold (F.SV_SD_W5_KA_TX_ID d))

/-- (1) a QUIET domain folds, no other; (2) a folded one sleeps and is counted; (3) a wake of codes 0 to 12 that was
latched brings it back with its hold; (4) FOLD_CMD WAKE brings it back with record 0xB; (5) FORGIVE ends its
enforcement; (6) FOLD_NEED brings QUIET members back; (7) the hold ends; (8) an overstay of a domain without buses
raises 236; (9) one of a domain with buses raises 237 and enforces QUIET. Taken from R403, R406 to R410, R413, R417,
R418, R422, of which it states only the cases above. Readings of the model it goes by: log 57. -/
def Obligations.FoldStateCommands : Prop :=
  (∀ (d : Nat) (s : State), d < 16 → (s.sdOf d).state = 2 →
    ∃ t, exec (.foldCommit d) s = .next t ∧ t.sdOf d = { s.sdOf d with state := 3, enforced := false } ∧
      ∀ e, e ≠ d → t.sdOf e = s.sdOf e) ∧
  (∀ (d : Nat) (s : State), d < 16 → (s.sdOf d).state = 3 → (s.sdOf d).latched = false →
    ∃ t, exec (.foldComplete d) s = .next t ∧ t.sdOf d = { s.sdOf d with state := 4 } ∧
      t.rg (F.SV_SD_FOLDS_FOLDS d) = min (s.rg (F.SV_SD_FOLDS_FOLDS d) + 1) (2 ^ 32 - 1)) ∧
  (∀ (d src unit : Nat) (s : State), d < 16 → src < 13 → (s.sdOf d).latched = true → (s.sdOf d).state = 4 →
    s.toListen = false →
    ∃ t, exec (.domainWake d src unit) s = .next t ∧
      t.sdOf d = { s.sdOf d with
        state := if s.fold (F.SV_SD_W0_MEMBER d) = 1 then 1 else 2, latched := false, hold := true, woken := s.inListen,
        timerFrom := s.now, awakeFrom := s.now } ∧
      ∀ k < 8, t.rd (R.SV_SD_TALK d k) = 0) ∧
  (∀ (a : Agent) (data : Word) (s : State), s.reaches a = true → F.SV_FOLD_CMD_WAKE.get data = 1 →
    F.SV_FOLD_CMD_SD.get data ∈ s.validSds → (s.sdOf (F.SV_FOLD_CMD_SD.get data)).state = 4 →
    (s.sdOf (F.SV_FOLD_CMD_SD.get data)).enforced = false → s.toListen = false → s.pw.power = .up →
    ∃ t, exec (.foldCmdWake a data) s = .next t ∧ (t.sdOf (F.SV_FOLD_CMD_SD.get data)).hold = true ∧
      (t.sdOf (F.SV_FOLD_CMD_SD.get data)).state =
        (if s.fold (F.SV_SD_W0_MEMBER (F.SV_FOLD_CMD_SD.get data)) = 1 then 1 else 2) ∧
      t.rg (F.PW_WAKEREC_W0_SOURCE (s.rg F.PW_WAKE_HEAD_NEXT)) = 0xB) ∧
  (∀ (a : Agent) (data : Word) (s : State), s.reaches a = true → F.SV_FOLD_CMD_FORGIVE.get data = 1 →
    (s.sdOf (F.SV_FOLD_CMD_SD.get data)).enforced = true →
    ∃ t, exec (.foldCmdForgive a data) s = .next t ∧ (t.sdOf (F.SV_FOLD_CMD_SD.get data)).enforced = false ∧
      (t.sdOf (F.SV_FOLD_CMD_SD.get data)).awakeFrom = s.now) ∧
  (∀ (a : Agent) (data : Word) (s : State), s.reaches a = true → (∀ d ∈ s.validSds, (s.sdOf d).state ≠ 1) →
    ∃ t, exec (.foldNeedWrite a data) s = .next t ∧ t.rg F.SV_FOLD_NEED_NEED = F.SV_FOLD_NEED_NEED.get data ∧
      ∀ d ∈ s.validSds, (s.sdOf d).state = 2 → s.fold (F.SV_SD_W0_MEMBER d) = 1 → (s.sdOf d).enforced = false →
        (F.SV_FOLD_NEED_NEED.get data).testBit d = true → (t.sdOf d).state = 1) ∧
  (∀ (d : Nat) (s : State), d < 16 → (s.sdOf d).hold = true →
    ∃ t, exec (.wakeHoldEnd d) s = .next t ∧ (t.sdOf d).hold = false) ∧
  (∀ (d : Nat) (s : State), d ∈ s.validSds → s.booted = true → s.sdBuses d = 0 →
    s.fold (F.SV_SD_W7_T_AWAKE_MAX d) ≠ 0 →
    ∃ t, exec (.overstayA d) s = .next t ∧ t.evSet 236 = true ∧ t.aon = s.aon) ∧
  (∀ (d : Nat) (s : State), d ∈ s.validSds → s.booted = true → s.sdBuses d ≠ 0 →
    s.fold (F.SV_SD_W7_T_AWAKE_MAX d) ≠ 0 → (s.sdOf d).enforced = false →
    ((s.sdOf d).state = 1 ∨ (s.sdOf d).state = 2) →
    ∃ t, exec (.overstayB d) s = .next t ∧ t.evSet 237 = true ∧ (t.sdOf d).enforced = true ∧ (t.sdOf d).state = 2)

/-- (1 to 5) in LISTEN a WAKE_IN pin, a CAN wake frame, a CAN keep-alive, 10BASE-T1S energy and the RTC alarm start the
rails, each with its record where it names no domain awake (the port in UNIT for 10BASE-T1S); (6) the clock takes
the value set; (7) a valid wake clears its source's count; (8) a false one is counted, PW_FALSE_TOTAL modulo 2^32;
(9) a mask ends; (10) a masked wake is only counted. Taken from R411, R412, R414, R415, R420, of which it states
only the cases above. Readings of the model it goes by: log 57, 58. -/
def Obligations.WakeCommands : Prop :=
  (∀ (pin : Nat) (s : State), pin < 5 → s.pw.power = .listen → s.fold (F.PW_WAKEIN_CFG_EN pin) = 1 →
    s.masked (some pin) = false →
    ∃ t, exec (.wakeInActive pin) s = .next t ∧ t.pw.power = .rising ∧ t.pw.start.fromListen = true ∧ t.pw.cause = 6 ∧
      ((∀ e ∈ s.validSds, 3 ≤ (s.sdOf e).state) → t.rg (F.PW_WAKEREC_W0_SOURCE (s.rg F.PW_WAKE_HEAD_NEXT)) = pin)) ∧
  (∀ (c id : Nat) (ide : Bool) (s : State), c < 8 → s.pw.power = .listen → s.masked (some (c + 5)) = false →
    s.fold (F.PW_CANWAKE_CFG_W0_WUF_EN c) = 1 →
    Nat.land id (s.fold (F.PW_CANWAKE_CFG_W2_WUF_MASK c)) =
      Nat.land (s.fold (F.PW_CANWAKE_CFG_W1_WUF_ID c)) (s.fold (F.PW_CANWAKE_CFG_W2_WUF_MASK c)) →
    s.fold (F.PW_CANWAKE_CFG_W1_WUF_IDE c) = (if ide then 1 else 0) →
    ∃ t, exec (.canWufReceived c id ide) s = .next t ∧ t.pw.power = .rising ∧ t.pw.start.fromListen = true ∧
      ((∀ e ∈ s.validSds, 3 ≤ (s.sdOf e).state) → t.rg (F.PW_WAKEREC_W0_SOURCE (s.rg F.PW_WAKE_HEAD_NEXT)) = 5)) ∧
  (∀ (c id d : Nat) (ide : Bool) (s : State), c < 8 → s.pw.power = .listen →
    s.fold (F.PW_CANWAKE_CFG_W0_KA_EN c) = 1 → d ∈ s.validSds → (s.sdBuses d).testBit c = true →
    s.kaRange d id ide = true →
    ∃ t, exec (.canKaWake c id ide) s = .next t ∧ t.pw.power = .rising ∧ t.pw.start.fromListen = true ∧
      (3 ≤ (s.sdOf d).state → t.rg (F.PW_WAKEREC_W0_SOURCE (s.rg F.PW_WAKE_HEAD_NEXT)) = 6)) ∧
  (∀ (n : Nat) (s : State), n < 12 → s.pw.power = .listen → (s.fold F.PW_T1SWAKE_CFG_EN).testBit n = true →
    s.masked (some (n + 13)) = false →
    ∃ t, exec (.t1sEnergy n) s = .next t ∧ t.pw.power = .rising ∧ t.pw.start.fromListen = true ∧
      ((∀ e ∈ s.validSds, 3 ≤ (s.sdOf e).state) →
        t.rg (F.PW_WAKEREC_W0_SOURCE (s.rg F.PW_WAKE_HEAD_NEXT)) = 7 ∧
        t.rg (F.PW_WAKEREC_W0_UNIT (s.rg F.PW_WAKE_HEAD_NEXT)) = 24 + n)) ∧
  (∀ (s : State), s.pw.power = .listen → s.rg F.PW_RTC_ALARM_CTL_ARM = 1 →
    s.rg F.PW_RTC_ALARM_SEC_SEC ≤ s.pw.rtcSec →
    ∃ t, exec .rtcAlarm s = .next t ∧ t.pw.power = .rising ∧ t.pw.start.fromListen = true ∧
      t.rg F.PW_RTC_ALARM_CTL_ARM = 0 ∧
      ((∀ e ∈ s.validSds, 3 ≤ (s.sdOf e).state) → t.rg (F.PW_WAKEREC_W0_SOURCE (s.rg F.PW_WAKE_HEAD_NEXT)) = 9)) ∧
  (∀ (v : Nat) (s : State), s.pw.power ≠ .off → s.aon.rtcSet = some v →
    exec .rtcSet s = .next { s with aon.rtcSet := none, pw.rtcSec := v, pw.rtcSub := 0, pw.rtcPhase := 0 }) ∧
  (∀ (k i : Nat) (j : WakeJudge) (s : State), s.pw.power ≠ .off → k < 16 → i < 25 →
    s.aon.judge.find? (fun j => decide (j.slot = k)) = some j → j.inst = some i → j.valid = true →
    ∃ t, exec (.wakeValidityDecision k) s = .next t ∧ t.aon.judge = s.aon.judge.erase j ∧
      t.rg (F.PW_FALSE_CONSEC i) = 0 ∧ t.rg F.PW_FALSE_TOTAL_COUNT = s.rg F.PW_FALSE_TOTAL_COUNT) ∧
  (∀ (k i : Nat) (j : WakeJudge) (s : State), s.pw.power ≠ .off → k < 16 → i < 25 →
    s.aon.judge.find? (fun j => decide (j.slot = k)) = some j → j.inst = some i → j.valid = false →
    (s.booted = true → ∀ d < 16, j.domains.testBit d = true → s.fold (F.SV_SD_W0_NEED d) ≠ 1) →
    s.rg (F.PW_FALSE_CONSEC i) + 1 < falseLim s →
    ∃ t, exec (.wakeValidityDecision k) s = .next t ∧ t.aon.judge = s.aon.judge.erase j ∧
      t.rg (F.PW_FALSE_CONSEC i) = s.rg (F.PW_FALSE_CONSEC i) + 1 ∧
      t.rg F.PW_FALSE_TOTAL_COUNT = (s.rg F.PW_FALSE_TOTAL_COUNT + 1) % 2 ^ 32) ∧
  (∀ (i : Nat) (s : State), s.pw.power ≠ .off → i < 25 →
    ∃ t, exec (.wakeMaskEnd i) s = .next t ∧ t.rg (F.PW_FALSE_MASKED i) = 0 ∧
      t.rg (F.PW_FALSE_CONSEC i) = s.rg (F.PW_FALSE_CONSEC i)) ∧
  (∀ (c id : Nat) (ide : Bool) (s : State), c < 8 → s.pw.power = .listen → s.masked (some (c + 5)) = true →
    s.fold (F.PW_CANWAKE_CFG_W0_WUF_EN c) = 1 →
    Nat.land id (s.fold (F.PW_CANWAKE_CFG_W2_WUF_MASK c)) =
      Nat.land (s.fold (F.PW_CANWAKE_CFG_W1_WUF_ID c)) (s.fold (F.PW_CANWAKE_CFG_W2_WUF_MASK c)) →
    s.fold (F.PW_CANWAKE_CFG_W1_WUF_IDE c) = (if ide then 1 else 0) →
    exec (.canWufReceived c id ide) s = .next (s.tick F.PW_MASKED_HITS_COUNT))

/-- (1) an update shows the total current and the dissipation; (2) each of the 16 channels that is over its heat limit
trips with cause 1; (3) a short trips it with cause 2, no other, (4) where it conducts or has just tripped; (5)
inrush ends on, or trips with cause 3 where the load asks for more than k times I_N; (6) REENABLE switches a latched
channel on and raises 245; (7) or is refused; (8) a short in the update of another trip is the cause recorded. Taken
from R427 to R438, R441, of which it states only the cases above. Readings of the model it goes by: log 59. -/
def Obligations.ChannelCommands : Prop :=
  (∀ (meas : List LsMeas) (mw : Nat) (s : State), s.pw.power ≠ .off →
    ∃ t, exec (.lsUpdate meas mw) s = .next t ∧ t.rg F.PW_LS_DISS_MW = min 65535 mw ∧
      t.rg F.PW_LS_STAT_TOTAL =
        min 65535 ((((List.range 16).zip meas).map (fun e => s.chCurrent e.1 e.2.mA)).sum / 4)) ∧
  (∀ (meas : List LsMeas) (mw k : Nat) (m : LsMeas) (s : State), s.pw.power ≠ .off → k < 16 → meas[k]? = some m →
    s.conducts k = true → m.tj < 175 → m.dt ≤ s.scorchLimit k →
    eTrip ≤ heat (s.chOf k).e (s.ls (F.PW_OUT_CFG_WIRE k)) (s.chCurrent k m.mA) →
    ∃ t, exec (.lsUpdate meas mw) s = .next t ∧ t.rg (F.PW_OUT_STAT_CAUSE k) = 1 ∧
      t.chState k = (if s.ls (F.PW_OUT_CFG_RETRY_CNT k) ≤ s.rg (F.PW_OUT_STAT_RETRIES_USED k) then 4 else 3)) ∧
  (∀ (ch : Nat) (s : State), s.pw.power ≠ .off → ch < 16 → s.chState ch = 2 →
    ∃ t, exec (.shortTrip ch) s = .next t ∧ t.rg (F.PW_OUT_STAT_CAUSE ch) = 2 ∧
      t.chState ch = (if s.ls (F.PW_OUT_CFG_RETRY_CNT ch) ≤ s.rg (F.PW_OUT_STAT_RETRIES_USED ch) then 4 else 3) ∧
      t.rg F.PW_LS_EV_LAST_CH = ch ∧ ∀ k < 16, k ≠ ch → t.chState k = s.chState k) ∧
  (∀ (ch : Nat) (s : State), s.chState ch ≠ 2 → s.chState ch ≠ 3 → s.chState ch ≠ 4 →
    exec (.shortTrip ch) s = .next s) ∧
  (∀ (ch demand : Nat) (s : State), s.pw.power ≠ .off → ch < 16 → s.chState ch = 1 →
    ∃ t, exec (.inrushEnd ch demand) s = .next t ∧
      (demand ≤ s.inrushLimit ch → t.chState ch = 2 ∧ (t.chOf ch).since = s.now) ∧
      (s.inrushLimit ch < demand → t.rg (F.PW_OUT_STAT_CAUSE ch) = 3 ∧
        t.chState ch = (if s.ls (F.PW_OUT_CFG_RETRY_CNT ch) ≤ s.rg (F.PW_OUT_STAT_RETRIES_USED ch) then 4 else 3))) ∧
  (∀ (a : Agent) (data : Word) (k : Nat) (s : State), s.reaches a = true → s.socUp = true →
    k = F.PW_OUT_CMD_CH.get data → F.PW_OUT_CMD_REENABLE.get data = 1 → s.chState k = 4 → s.mayConduct k = true →
    ∃ t, exec (.reenable a data) s = .next t ∧ t.chState k = 1 ∧ t.rg F.PW_LS_STAT_LAST_REENABLE = 1 ∧
      t.rg (F.PW_OUT_STAT_RETRIES_USED k) = 0 ∧ t.evSet 245 = true) ∧
  (∀ (a : Agent) (data : Word) (k : Nat) (s : State), s.reaches a = true → s.socUp = true →
    k = F.PW_OUT_CMD_CH.get data → F.PW_OUT_CMD_REENABLE.get data = 1 →
    (s.chState k ≠ 4 ∨ s.rg (F.PW_OUT_STAT_THERM_LATCH k) = 1) →
    ∃ t, exec (.reenable a data) s = .next t ∧ t.chState k = s.chState k ∧ t.evSet 245 = true ∧
      t.rg F.PW_LS_STAT_LAST_REENABLE = if s.chState k ≠ 4 then 3 else 2) ∧
  (∀ (ch : Nat) (s : State), s.pw.power ≠ .off → ch < 16 → (s.chState ch = 3 ∨ s.chState ch = 4) →
    ((s.chOf ch).tripped = true ∨ (s.chOf ch).since = s.now) →
    ∃ t, exec (.shortTrip ch) s = .next t ∧ t.chState ch = s.chState ch ∧
      t.rg (F.PW_OUT_STAT_CAUSE ch) = 2)

/-- (1) undervoltage switches the conducting channels off; (2) recovery returns them; (3) the total current sheds the
last channel that SHED names, no other; (4) a high dissipation raises 246, (5) or is kept for later without the SoC
die; (6) the link's refresh restarts the hold; (7) its end puts every channel with FAILSAFE 0 that is not
LATCHED_OFF into state 6. Taken from R437, R438, R442, R443, of which it states only the cases above. Readings of
the model it goes by: log 59. -/
def Obligations.SupplyCommands : Prop :=
  (∀ (s : State), s.pw.power ≠ .off →
    ∃ t, exec .vbatUndervoltage s = .next t ∧
      ∀ k < 16, t.chState k = if s.conducts k = true then 7 else s.chState k) ∧
  (∀ (s : State), s.pw.power ≠ .off →
    ∃ t, exec .vbatRecovered s = .next t ∧
      ∀ k < 16, t.chState k =
        if s.chState k = 7 then (if s.foldHolds k = true then 5 else if s.mayConduct k = true then 1 else 0)
        else s.chState k) ∧
  (∀ (k : Nat) (first : Bool) (s : State), s.pw.power ≠ .off → s.socUp = true →
    ((List.range 16).filter (fun k => s.conducts k && decide (s.ls (F.PW_OUT_CFG_SHED k) = 1))).getLast? = some k →
    ∃ t, exec (.totalCurrentShed first) s = .next t ∧ t.rg (F.PW_OUT_STAT_CAUSE k) = 6 ∧
      (t.chState k = 3 ∨ t.chState k = 4) ∧ (first = true → t.evSet 243 = true) ∧
      ∀ j < 16, j ≠ k → t.chState j = s.chState j) ∧
  (∀ (s : State), s.socUp = true →
    ∃ t, exec .dissipationHigh s = .next t ∧ t.evSet 246 = true ∧ t.aon = s.aon) ∧
  (∀ (s : State), s.pw.power ≠ .off → s.socUp = false →
    ∃ t, exec .dissipationHigh s = .next t ∧ 246 ∈ t.aon.events ∧ t.regs = s.regs) ∧
  (∀ (s : State), s.socUp = true → s.pw.start.firmware = true → s.pw.rescue = false →
    exec .powerDieLinkRefresh s = .next { s with aon.linkAt := s.now }) ∧
  (∀ (s : State), s.pw.power ≠ .off → s.aon.linkWatched = true →
    ∃ t, exec .holdExpired s = .next t ∧ t.aon.holdExpired = true ∧
      ∀ k < 16, t.chState k =
        if s.ls (F.PW_OUT_CFG_FAILSAFE k) = 0 ∧ s.chState k ≠ 4 then 6 else s.chState k)

/-- (1) the cluster leaves reset, with the tree unlocked; (2) its image is copied from flash to DRAM, no other byte, and
its cores start; (3) a failed copy raises 214; (4) CORE_START starts the cores allowed; (5) an operating point is
asked for, never above the top, supply before clock; (6) one while BUSY is ignored; (7) its end raises 212; (8) a
core goes offline at WFI, or by force. Taken from R450, R451, R453, R454, of which it states only the cases above.
Readings of the model it goes by: log 60. -/
def Obligations.ClusterCommands : Prop :=
  (∀ (s : State), s.pw.cxReset = true → s.booted = true → s.pw.rescue = false → s.pw.start.zeroed = true →
    s.treeLocked = false → s.pw.dramSr = false → s.inRun = true →
    ∃ t, exec .clusterRelease s = .next t ∧ t.pw.cxReset = false ∧ t.cx.released = true) ∧
  (∀ (n : Nat) (s : State), s.cx.copying = true → n = 65536 * s.act F.CX_BOOT_CFG_IMG_SIZE →
    1 ≤ s.act F.CX_BOOT_CFG_IMG_SIZE → s.act F.CX_BOOT_CFG_IMG_SIZE ≤ 256 →
    ∃ t, exec (.imageCopyDone true) s = .next t ∧ t.cx.copying = false ∧ t.rg F.CX_CORE_STAT_IMG_DONE = 1 ∧
      t.dramRd dramBase n = s.nvRead (nvCustomer + 4096 * s.act F.CX_BOOT_CFG_IMG_SECTOR) n ∧
      (∀ a, (a < dramBase ∨ dramBase + n ≤ a) → t.dramRd a 1 = s.dramRd a 1) ∧
      (s.pw.cxReset = false → t.rg F.CX_CORE_STAT_RUN = s.coresToRun)) ∧
  (∀ (s : State), s.cx.copying = true → s.socUp = true →
    ∃ t, exec (.imageCopyDone false) s = .next t ∧ t.cx.copying = false ∧ t.rg F.CX_CORE_STAT_IMG_ERR = 1 ∧
      t.evSet 214 = true ∧ t.mx.dram = s.mx.dram) ∧
  (∀ (a : Agent) (data : Word) (s : State), s.reaches a = true → s.act F.CX_CORE_CFG_BOOT_SRC = 1 →
    s.pw.cxReset = false →
    ∃ t, exec (.coreStart a data) s = .next t ∧
      t.rg F.CX_CORE_STAT_RUN =
        Nat.lor (s.rg F.CX_CORE_STAT_RUN) (Nat.land (F.CX_CORE_START_CORES.get data) s.coresToRun)) ∧
  (∀ (a : Agent) (data : Word) (g : Nat) (s : State), s.reaches a = true → s.rg F.CX_DVFS_BUSY = 0 →
    g = max (F.CX_DVFS_REQ.get data) (s.act F.CX_CORE_CFG_OPP_TOP) →
    ∃ t, exec (.dvfsRequest a data) s = .next t ∧ t.rg F.CX_DVFS_BUSY = 1 ∧ t.cx.dvfs = some (some a, g) ∧
      (if g < s.rg F.CX_DVFS_CUR then t.cx.vid = 3 - g ∧ t.rg F.CX_DVFS_CUR = s.rg F.CX_DVFS_CUR
        else t.cx.vid = s.cx.vid ∧ t.rg F.CX_DVFS_CUR = g)) ∧
  (∀ (a : Agent) (data : Word) (s : State), s.reaches a = true → s.rg F.CX_DVFS_BUSY = 1 →
    exec (.dvfsRequest a data) s = .next { s with resp := .done }) ∧
  (∀ (a : Option Agent) (g : Nat) (s : State), s.socUp = true → s.cx.dvfs = some (a, g) → g < 4 →
    ∃ t, exec .dvfsDone s = .next t ∧ t.rg F.CX_DVFS_CUR = g ∧ t.cx.vid = 3 - g ∧ t.rg F.CX_DVFS_BUSY = 0 ∧
      t.cx.dvfs = none ∧ t.evSet 212 = true) ∧
  (∀ (k : Nat) (s : State), k < 8 → s.socUp = true → (s.rg F.CX_CORE_STAT_OFF_REQ).testBit k = true →
    ∃ t u, exec (.coreWfiOffline k) s = .next t ∧ exec (.offlineGraceExpiry k) s = .next u ∧
      u.rg F.CX_OFFLINE_FORCED_COUNT = min (s.rg F.CX_OFFLINE_FORCED_COUNT + 1) (2 ^ 32 - 1) ∧
      t.rg F.CX_OFFLINE_FORCED_COUNT = s.rg F.CX_OFFLINE_FORCED_COUNT ∧
      ∀ x ∈ [t, u], (x.rg F.CX_CORE_STAT_RUN).testBit k = false ∧ (x.rg F.CX_CORE_STAT_OFF_REQ).testBit k = false ∧
        (x.rg F.CX_CORE_STAT_OFFLINE).testBit k = true ∧ x.evSet 211 = true)

/-- (1) a cycle of a running core adds its four slots to the top-down counters; (2) a tagged one is recorded in six
words, spans saturated at 65,535; (3) a read takes the oldest; (4) an uncorrectable DRAM error is counted, raises
216, its first address is kept, and a load that met it faults; (5) a scrub pass raises 217 and counts its bytes; (6)
the instruction at which the countdown ends is tagged; (7) a record for a full FIFO is counted lost. Taken from R455
to R457, R464, of which it states only the cases above. Readings of the model it goes by: log 71. -/
def Obligations.CoreCounters : Prop :=
  (∀ (k r w f decoded : Nat) (events : List Nat) (bytes : Nat) (s : State), k < 8 → (s.rg F.CX_CORE_STAT_RUN).testBit k = true →
    r + w + f ≤ 4 →
    ∃ t, exec (.coreCycle k r w f events decoded none bytes) s = .next t ∧
      t.rd64 (R.CX_TD k 0) = (s.rd64 (R.CX_TD k 0) + r) % 2 ^ 64 ∧
      t.rd64 (R.CX_TD k 1) = (s.rd64 (R.CX_TD k 1) + w) % 2 ^ 64 ∧
      t.rd64 (R.CX_TD k 2) = (s.rd64 (R.CX_TD k 2) + f) % 2 ^ 64 ∧
      t.rd64 (R.CX_TD k 3) = (s.rd64 (R.CX_TD k 3) + (4 - r - w - f)) % 2 ^ 64) ∧
  (∀ (k r w f decoded : Nat) (events : List Nat) (tag : CoreTag) (bytes : Nat) (s : State), k < 8 →
    (s.rg F.CX_CORE_STAT_RUN).testBit k = true → (s.taggingOf k).2 ≠ 0 → (s.tagsOf k).length < 16 →
    ∃ t, exec (.coreCycle k r w f events decoded (some tag) bytes) s = .next t ∧
      t.tagsOf k = s.tagsOf k ++ [[tag.pc % 2 ^ 32, tag.pc / 2 ^ 32 % 2 ^ 32, tag.cycle % 2 ^ 32,
        min tag.dispatch 65535 + 65536 * min tag.issue 65535, min tag.complete 65535 + 65536 * min tag.retire 65535,
        tag.flags % 256]] ∧
      t.rg (F.CX_TAG_STAT_COUNT k) = (s.tagsOf k).length + 1) ∧
  (∀ (a : Agent) (k : Nat) (s : State), s.reaches a = true → k < 8 → (s.tagsOf k).length ≤ 16 →
    ∃ t, exec (.tagPop a k) s = .next t ∧ t.tagsOf k = (s.tagsOf k).drop 1 ∧
      t.rg (F.CX_TAG_STAT_COUNT k) = (s.tagsOf k).length - 1) ∧
  (∀ (addr : Nat) (load : Option (Fin 8)) (s : State), s.socUp = true → s.pw.start.zeroed = true → addr < 2 ^ 64 →
    ∃ t, exec (.dramUe addr load) s = .next t ∧ t.evSet 216 = true ∧ t.mx.dram = s.mx.dram ∧
      addr / 32 ∈ t.mx.bad ∧ (∀ k : Fin 8, load = some k → .accessFault k.val addr ∈ t.out) ∧
      t.rg F.MX_DRAM_UE_COUNT = min (s.rg F.MX_DRAM_UE_COUNT + 1) (2 ^ 32 - 1) ∧
      t.rd R.MX_DRAM_UE_ADDR_LO =
        (if s.rd64 R.MX_DRAM_UE_ADDR_LO = 0 then Word.ofNat addr else s.rd R.MX_DRAM_UE_ADDR_LO) ∧
      (Sparse.get (fun _ => 0) s.ob.fltNew (65536 * 0x0F) = 0 → t.rd64 R.MX_DRAM_UE_ADDR_LO =
        if s.rd64 R.MX_DRAM_UE_ADDR_LO = 0 then addr else s.rd64 R.MX_DRAM_UE_ADDR_LO)) ∧
  (∀ (s : State), s.socUp = true → s.pw.start.zeroed = true →
    ∃ t, exec .dramScrubPassDone s = .next t ∧ t.evSet 217 = true ∧
      t.rd64 (R.MX_ARB_BYTES 5) = (s.rd64 (R.MX_ARB_BYTES 5) + 2 ^ 34) % 2 ^ 64) ∧
  (∀ (k left opened decoded : Nat) (s : State), k < 8 → (s.rg F.CX_CORE_STAT_RUN).testBit k = true →
    s.rg (F.CX_TAG_CFG_EN k) = 1 → s.taggingOf k = (left, opened) → 0 < left → decoded ≤ left →
    ∃ t, exec (.coreCycle k 0 0 0 [] decoded none 0) s = .next t ∧
      t.taggingOf k = if decoded = left then (0, opened + 1) else (left - decoded, opened)) ∧
  (∀ (k r w f decoded : Nat) (events : List Nat) (tag : CoreTag) (bytes : Nat) (s : State), k < 8 →
    (s.rg F.CX_CORE_STAT_RUN).testBit k = true → (s.taggingOf k).2 ≠ 0 → 16 ≤ (s.tagsOf k).length →
    ∃ t, exec (.coreCycle k r w f events decoded (some tag) bytes) s = .next t ∧ t.tagsOf k = s.tagsOf k ∧
      t.rg (F.CX_TAG_STAT_LOST k) = (s.rg (F.CX_TAG_STAT_LOST k) + 1) % 2 ^ (F.CX_TAG_STAT_LOST k).wid)

/-- (1) a tail is written; (2) a whole frame is written to the buffer of its RX ring's next descriptor: the buffer holds
its bytes, the descriptor its length and hash, no byte beside them changes, and HEAD moves; (3) without a ring it is
counted; (4) the chosen TX ring moves past its next frame; (5) the coalescing time raises the event of the ring's
completions; (6) a good frame of one descriptor enters at its host port, padded to 60 bytes, whole and good, with
the port that DIRECT names. Taken from R458 to R463, of which it states only the cases above. Readings of the model
it goes by: log 60. -/
def Obligations.HostRingCommands : Prop :=
  (∀ (a : Agent) (p r : Nat) (data : Word) (s : State), s.reaches a = true → p < 2 → r < 64 →
    ∃ t u, exec (.ringTailWrite a (R.CX_HP_RX_TAIL p r) data) s = .next t ∧
      t.rg (F.CX_HP_RX_TAIL_TAIL p r) = data.toNat % 65536 ∧
      exec (.ringTailWrite a (R.CX_HP_TX_TAIL p r) data) s = .next u ∧
      u.rg (F.CX_HP_TX_TAIL_TAIL p r) = data.toNat % 65536) ∧
  (∀ (p r crc d : Nat) (x : TxNow) (f : Frame) (s : State), p < 2 → s.txOf (36 + p) = some x →
    s.frameOf x.copy.frame = some f → State.isWhole f = true → f.owner = 0 → f.parent = none →
    s.rxRing p f x.copy.tc = (r, crc) → s.hpOn p false r = true →
    s.hpPosted p false r (s.rg (F.CX_HP_RX_HEAD_HEAD p r)) ≠ 0 →
    (s.egressBytes f (36 + p)).length ≤ s.rxBuf p r →
    d = s.hpDesc p false r (s.rg (F.CX_HP_RX_HEAD_HEAD p r)) → s.badUnit d 32 = none →
    ∃ t, exec (.hpRxWrite (36 + p) none) s = .next t ∧ t.txOf (36 + p) = none ∧
      (s.dramOk (ofLe (s.dramRd d 8)) (s.egressBytes f (36 + p)).length = true →
        (ofLe (s.dramRd d 8) + (s.egressBytes f (36 + p)).length ≤ d + 8 ∨ d + 32 ≤ ofLe (s.dramRd d 8)) →
        t.dramRd (ofLe (s.dramRd d 8)) (s.egressBytes f (36 + p)).length = s.egressBytes f (36 + p)) ∧
      t.dramRd (d + 8) 2 = leBytes 2 (s.egressBytes f (36 + p)).length ∧ t.dramRd (d + 24) 4 = leBytes 4 crc ∧
      t.rg (F.CX_HP_RX_HEAD_HEAD p r) = (s.rg (F.CX_HP_RX_HEAD_HEAD p r) + 1) % s.hpSize p false r ∧
      t.rg (F.HP_RX_FRAMES_COUNT p) = min (s.rg (F.HP_RX_FRAMES_COUNT p) + 1) (2 ^ 32 - 1) ∧
      ∀ y, (y < d + 8 ∨ d + 32 ≤ y) →
        (y < ofLe (s.dramRd d 8) ∨ ofLe (s.dramRd d 8) + (s.egressBytes f (36 + p)).length ≤ y) →
        t.dramRd y 1 = s.dramRd y 1) ∧
  (∀ (p r crc : Nat) (ecc : Option Nat) (x : TxNow) (f : Frame) (s : State), p < 2 → s.txOf (36 + p) = some x →
    s.frameOf x.copy.frame = some f → State.isWhole f = true → f.owner = 0 → f.parent = none →
    s.rxRing p f x.copy.tc = (r, crc) → s.hpOn p false r = false →
    ∃ t, exec (.hpRxWrite (36 + p) ecc) s = .next t ∧ t.txOf (36 + p) = none ∧ t.mx.dram = s.mx.dram ∧
      t.rg (F.HP_RX_NORING_COUNT p) = min (s.rg (F.HP_RX_NORING_COUNT p) + 1) (2 ^ 32 - 1)) ∧
  (∀ (p r ecc : Nat) (s : State), p < 2 → s.portUp (36 + p) = true → s.txChoose p = some r → ecc < 3 →
    (∀ i < s.txReady p r, s.badUnit (s.hpDesc p true r ((s.hpRing (ringKey p true r)).next + i)) 32 = none) →
    ∃ t, exec (.hpTxFrame (36 + p) ecc) s = .next t ∧
      (t.hpRing (ringKey p true r)).next =
        ((s.hpRing (ringKey p true r)).next + s.txReady p r) % s.hpSize p true r ∧
      Sparse.get (fun _ => 63) t.cx.rr (8 * p + s.act (F.CX_HP_TX_CFG_TC p r)) = r) ∧
  (∀ (k : Nat) (s : State), k < 256 → s.socUp = true → (s.hpRing k).comps ≠ 0 →
    ∃ t, exec (.hpCoalTimer k) s = .next t ∧ (t.hpRing k).comps = 0 ∧
      t.evSet (if 64 ≤ k % 128 then 209 else 208) = true) ∧
  (∀ (p r buf len : Nat) (d frame : List Byte) (s : State), p < 2 → s.portUp (36 + p) = true → s.txChoose p = some r →
    s.txReady p r = 1 → d = s.txDesc p r (s.hpRing (ringKey p true r)).next →
    s.badUnit (s.hpDesc p true r (s.hpRing (ringKey p true r)).next) 32 = none →
    buf = ofLe (d.take 8) → len = ofLe ((d.drop 8).take 2) → s.txBadFirst p r d = false → len ≠ 0 →
    s.dramOk buf len = true → s.badUnit buf len = none →
    frame = s.dramRd buf len ++ List.replicate (60 - len) 0 → beAt frame 12 2 ≠ 0x8808 →
    s.runtMin (s.portEpoch (36 + p)) (36 + p) ≤ frame.length + 4 →
    frame.length + 4 ≤ s.maxLen (s.portEpoch (36 + p)) (36 + p) →
    ∃ t, exec (.hpTxFrame (36 + p) 0) s = .next t ∧
      t.rg (F.HP_TX_FRAMES_COUNT p) = min (s.rg (F.HP_TX_FRAMES_COUNT p) + 1) (2 ^ 32 - 1) ∧
      t.rd64 (R.PX_RX_FRAMES (36 + p)) = (s.rd64 (R.PX_RX_FRAMES (36 + p)) + 1) % 2 ^ 64 ∧
      (cellsFor (frame.length + 4) ≤ s.physFree → t.frameOf s.sx.nextId ≠ none) ∧
      ∀ g, t.frameOf s.sx.nextId = some g → g.port = 36 + p ∧ g.bytes = frame ∧ g.rxDone = true ∧ g.good = true ∧
        g.directive = if (d.getD 10 0).toNat.testBit 5 then some (2 ^ (d.getD 11 0).toNat) else none)

/-- (1) a posted write is queued, and answered at once unless an earlier access of its initiator through the window
waits; (2) a read not in the prefetch buffer waits; (3) an address that the map reserves, (4) one that no window
holds, and (5) an unsupported access, which is counted, answer an error; (6) a completion ends its read with the
data, what was fetched beyond it stays in the prefetch buffer; (7) a failed one or a timeout ends it with an error,
counts and raises 225; (8) a prefetch buffer expires; (9) a read completed behind an earlier access keeps its
answer; (10) a write to DRAM reads back, and stays in the caches; (11) a read of DRAM answers its bytes; (12) one of
the Hamper's region answers an error. Taken from R467 to R469, of which it states only the cases above. Readings of
the model it goes by: log 61. -/
def Obligations.OutboundCommands : Prop :=
  (∀ (a : Agent) (addr size w : Nat) (data : List Byte) (s : State), s.socUp = true → outBase ≤ addr →
    addr + size ≤ outBase + outSize → State.outUnsupported addr size = false → s.owFind (addr - outBase) size = some w →
    s.owin F.MX_HB_OWIN_ATTR_POSTED w = 1 → s.fenced w = false →
    ∃ t, exec (.outboundAccess a true addr size data) s = .next t ∧
      t.resp = (if s.outBehind a w = true then .none else .done) ∧
      t.mx.queued = (if s.rg F.MX_HB_STAT_LINK_UP = 1 then [] else s.mx.queued) ++
        [⟨w, some a, s.owPci w + (addr - outBase - s.owBase w), swapGroups (s.owSwap w) (slice0 data 0 size)⟩] ∧
      t.preOf w = none) ∧
  (∀ (a : Agent) (addr size w pci : Nat) (data : List Byte) (s : State), s.socUp = true → outBase ≤ addr →
    addr + size ≤ outBase + outSize → State.outUnsupported addr size = false → s.owFind (addr - outBase) size = some w →
    pci = s.owPci w + (addr - outBase - s.owBase w) → s.preRead w pci size = none →
    ∃ t, exec (.outboundAccess a false addr size data) s = .next t ∧ t.resp = .none ∧
      t.mx.reads = s.mx.reads ++ [⟨w, a, pci, size, s.owFetch w size, false, s.mx.nextAcc⟩]) ∧
  (∀ (a : Agent) (write : Bool) (addr size : Nat) (data : List Byte) (s : State), s.socUp = true →
    mapReserved addr = true →
    exec (.outboundAccess a write addr size data) s = .next { s with resp := .busError }) ∧
  (∀ (a : Agent) (write : Bool) (addr size : Nat) (data : List Byte) (s : State), s.socUp = true → outBase ≤ addr →
    addr < outBase + outSize → State.outUnsupported addr size = false → s.owFind (addr - outBase) size = none →
    exec (.outboundAccess a write addr size data) s = .next { s with resp := .busError }) ∧
  (∀ (a : Agent) (write : Bool) (addr size : Nat) (data : List Byte) (s : State), s.socUp = true → outBase ≤ addr →
    addr + size ≤ outBase + outSize → State.outUnsupported addr size = true →
    exec (.outboundAccess a write addr size data) s = .next { s.bump F.MX_HB_SIZE_ERR_COUNT with resp := .busError }) ∧
  (∀ (n : Nat) (r : OutRead) (data : List Byte) (res : Option (Bool × List Byte)) (pre post : List OutAccess) (s : State),
    n < 64 → s.mx.reads[n]? = some r → r.flush = false →
    s.mx.order = pre ++ ⟨r.acc, r.init, r.window, res⟩ :: post →
    (∀ y ∈ pre, ¬ (y.init = r.init ∧ y.window = r.window)) →
    ∃ t, exec (.outboundCompletion n true data) s = .next t ∧ t.mx.reads = s.mx.reads.eraseIdx n ∧
      .outDone r.init true (swapGroups (s.owSwap r.window) ((slice0 data 0 r.fetch).take r.size)) ∈ t.out ∧
      (r.size < r.fetch → t.preOf r.window = some (r.addr + r.size, (slice0 data 0 r.fetch).drop r.size))) ∧
  (∀ (n : Nat) (r : OutRead) (data : List Byte) (res : Option (Bool × List Byte)) (pre post : List OutAccess) (s : State),
    n < 64 → s.socUp = true → s.mx.reads[n]? = some r → r.flush = false →
    s.mx.order = pre ++ ⟨r.acc, r.init, r.window, res⟩ :: post →
    (∀ y ∈ pre, ¬ (y.init = r.init ∧ y.window = r.window)) →
    ∃ t u, exec (.outboundCompletion n false data) s = .next t ∧ exec (.outboundReadTimeout n) s = .next u ∧
      ∀ x ∈ [t, u], x.mx.reads = s.mx.reads.eraseIdx n ∧ .outDone r.init false [] ∈ x.out ∧ x.evSet 225 = true ∧
        x.rg F.MX_HB_READ_FAIL_COUNT = min (s.rg F.MX_HB_READ_FAIL_COUNT + 1) (2 ^ 32 - 1)) ∧
  (∀ (w : Nat) (s : State), w < 16 →
    ∃ t, exec (.prefetchExpiry w) s = .next t ∧ t.preOf w = none ∧ within [.mx] s t) ∧
  (∀ (n : Nat) (r : OutRead) (data : List Byte) (res : Option (Bool × List Byte)) (y : OutAccess) (pre post : List OutAccess)
    (s : State), n < 64 → s.mx.reads[n]? = some r → r.flush = false →
    s.mx.order = pre ++ ⟨r.acc, r.init, r.window, res⟩ :: post → y ∈ pre → y.init = r.init → y.window = r.window →
    y.result = none → y.acc ≠ r.acc →
    ∃ t, exec (.outboundCompletion n true data) s = .next t ∧ t.mx.reads = s.mx.reads.eraseIdx n ∧
      ⟨r.acc, r.init, r.window,
        some (true, swapGroups (s.owSwap r.window) ((slice0 data 0 r.fetch).take r.size))⟩ ∈ t.mx.order) ∧
  (∀ (a : Agent) (addr size : Nat) (data : List Byte) (s : State), s.socUp = true → mapReserved addr = false →
    s.dramOk addr size = true →
    ∃ t, exec (.outboundAccess a true addr size data) s = .next t ∧ t.resp = .done ∧
      t.dramRd addr size = slice0 data 0 size ∧ t.mx.dram = s.mx.dram ∧
      ∀ y, (y < addr ∨ addr + size ≤ y) → t.dramRd y 1 = s.dramRd y 1) ∧
  (∀ (a : Agent) (addr size : Nat) (data : List Byte) (s : State), s.socUp = true → mapReserved addr = false →
    s.dramOk addr size = true → s.badUnit addr size = none →
    ∃ t, exec (.outboundAccess a false addr size data) s = .next t ∧ t.mx = s.mx ∧
      t.out = .outDone a true (s.dramRd addr size) :: s.out) ∧
  (∀ (a : Agent) (write : Bool) (addr size : Nat) (data : List Byte) (s : State), s.socUp = true →
    mapReserved addr = false → dramBase ≤ addr → s.dramOk addr size = false →
    exec (.outboundAccess a write addr size data) s = .next { s with resp := .busError })

/-- (1) a write through a window changes its bytes of DRAM, no other; (2) a read answers them; (3) a request of no
window is counted, raises 228, and a read of it completes as Unsupported Request; (4) a read that meets an
uncorrectable error completes with status 2 and raises 216. In root-port mode a write to the MSI address is no such
request (ROOT_MSI_WRITE); (1) an error message is counted and raises 224; (2) a PCIe reset drops what waits; (3) the
link comes up, (4) and goes down, with 226; (5) a message interrupt is queued with 227, (6) or counted lost; (7)
FENCE_CLR lifts the fences it names, no other. Taken from R464, R467, R466, R468, R470, of which it states only the
cases above. Readings of the model it goes by: log 61, 62. -/
def Obligations.InboundAndLink : Prop :=
  (∀ (addr size w a : Nat) (data : List Byte) (ecc : Bool) (s : State), s.socUp = true →
    s.rg F.SV_CFG_STATUS_DONE = 1 → (if s.pw.rootPort = true then addr ≠ s.msiAddr else addr + size ≤ s.bar2Size) →
    s.iwFind addr size = some w → a = s.iwDram w + (addr - s.iwBase w) → s.dramOk a size = true → data.length = size →
    ∃ t, exec (.inboundRequest true addr size data ecc) s = .next t ∧ t.dramRd a size = data ∧
      (∀ y, (y < a ∨ a + size ≤ y) → t.dramRd y 1 = s.dramRd y 1) ∧ t.out = s.out) ∧
  (∀ (addr size w a : Nat) (data : List Byte) (s : State), s.socUp = true → s.rg F.SV_CFG_STATUS_DONE = 1 →
    (s.pw.rootPort = false → addr + size ≤ s.bar2Size) → s.iwFind addr size = some w →
    a = s.iwDram w + (addr - s.iwBase w) → s.dramOk a size = true → s.badUnit a size = none →
    ∃ t, exec (.inboundRequest false addr size data false) s = .next t ∧
      t.out = .completion 0 (s.dramRd a size) :: s.out ∧ t.mx.dram = s.mx.dram) ∧
  (∀ (write : Bool) (addr size : Nat) (data : List Byte) (ecc : Bool) (s : State), s.socUp = true →
    s.rg F.SV_CFG_STATUS_DONE = 1 → ¬ (s.pw.rootPort = true ∧ write = true ∧ addr = s.msiAddr) →
    s.iwFind addr size = none →
    ∃ t, exec (.inboundRequest write addr size data ecc) s = .next t ∧ t.mx.dram = s.mx.dram ∧ t.evSet 228 = true ∧
      t.rg F.MX_HB_INB_ERR_COUNT = min (s.rg F.MX_HB_INB_ERR_COUNT + 1) (2 ^ 32 - 1) ∧
      (write = false → .completion 1 [] ∈ t.out)) ∧
  (∀ (addr size w a : Nat) (data : List Byte) (ecc : Bool) (s : State), s.socUp = true → s.rg F.SV_CFG_STATUS_DONE = 1 →
    (s.pw.rootPort = false → addr + size ≤ s.bar2Size) → s.iwFind addr size = some w →
    a = s.iwDram w + (addr - s.iwBase w) → s.dramOk a size = true → (ecc = true ∨ (s.badUnit a size).isSome = true) →
    ∃ t, exec (.inboundRequest false addr size data ecc) s = .next t ∧ .completion 2 (s.dramRd a size) ∈ t.out ∧
      t.mx.dram = s.mx.dram ∧ t.evSet 216 = true) ∧
  (∀ (addr : Nat) (fatal : Bool) (s : State), s.socUp = true → s.pw.rootPort = true →
    ∃ t, exec (.pcieErrorMessage addr fatal) s = .next t ∧ t.evSet 224 = true ∧
      t.rg F.MX_HB_POSTED_FAIL_COUNT = min (s.rg F.MX_HB_POSTED_FAIL_COUNT + 1) (2 ^ 32 - 1)) ∧
  (∀ (s : State), s.socUp = true → s.pw.rootPort = false →
    ∃ t, exec .pcieReset s = .next t ∧ t.mx.queued = [] ∧ t.mx.reads = []) ∧
  (∀ (gen width : Nat) (s : State), s.socUp = true →
    ∃ t, exec (.pcieLinkChange true gen width) s = .next t ∧ t.rg F.MX_HB_STAT_LINK_UP = 1 ∧
      t.rg F.MX_HB_STAT_GEN = min gen (s.act F.MX_HB_CFG_MAX_GEN + 1) ∧ t.mx.queued = [] ∧ t.evSet 226 = true) ∧
  (∀ (gen width : Nat) (s : State), s.socUp = true →
    ∃ t, exec (.pcieLinkChange false gen width) s = .next t ∧ t.rg F.MX_HB_STAT_LINK_UP = 0 ∧
      t.rg F.MX_HB_STAT_GEN = 0 ∧ t.rg F.MX_HB_STAT_WIDTH = 0 ∧ t.mx.queued = [] ∧ t.evSet 226 = true ∧
      (s.pw.rootPort = false → t.mx.reads = [])) ∧
  (∀ (data : Nat) (s : State), s.socUp = true → s.pw.rootPort = true → s.mx.msi.length < 16 →
    ∃ t, exec (.rootMsiWrite data) s = .next t ∧ t.mx.msi = s.mx.msi ++ [data % 2 ^ 32] ∧ t.evSet 227 = true) ∧
  (∀ (data : Nat) (s : State), s.socUp = true → s.pw.rootPort = true → 16 ≤ s.mx.msi.length →
    exec (.rootMsiWrite data) s = .next (s.bump F.MX_HB_MSI_LOST_COUNT)) ∧
  (∀ (a : Agent) (data : Word) (s : State), s.reaches a = true →
    ∃ t, exec (.fenceClr a data) s = .next t ∧
      t.rg F.MX_HB_STAT_FENCED = maskDiff (s.rg F.MX_HB_STAT_FENCED) (F.MX_HB_FENCE_CLR_WINDOWS.get data) ∧
      t.rg F.MX_HB_STAT_LINK_UP = s.rg F.MX_HB_STAT_LINK_UP)

/-- (1) OPEN makes the agent the owner where node 7 imports, else code 5; (2) code 1 without permission; (3) code 2
while one is open; (4) HEADER is accepted as a flash task, or refused with its code; (5) BLOCK likewise, by its tag;
(6) ACTIVATE likewise, by key hash and signature; (7) CLOSE ends the session; (8) so does TIMEOUT, with 21, (9) and
it ends an ACTIVATE in progress with NO_SESSION, nothing marked; a Bersan session opens for a node that may
authenticate where CD00 has an applied record or it is node 3 at P40, untagged, UDP 49321; before an applied record
no other opens; one closes, and no other. Taken from R476, R478 to R481, R489, R491, R64, R361, R480, of which it
states only the cases above. Readings of the model it goes by: log 13, 27, 34, 92. -/
def Obligations.UpdateCommands : Prop :=
  (∀ (a : Agent) (s : State), s.reaches a = true → s.updBusy a = false → s.updPermitted a = true → s.upd.owner = none →
    s.enrolling = false →
    ∃ t, exec (.updOpen a) s = .next t ∧
      if s.importFleet.2 = true then t.upd.owner = some a ∧ t.upd.first = [] ∧ t.upd.got = 0 ∧
        t.upd.lastCmd = s.now ∧ t.upd.job = none ∧ t.rg F.SV_UPD_STAT_SESSION = 1
      else t.upd = s.upd ∧ t.rg (F.SV_UPD_RESULT_CODE a.ownerCode) = 5) ∧
  (∀ (a : Agent) (s : State), s.reaches a = true → a.ownerCode ≤ 12 → s.updBusy a = false → s.updPermitted a = false →
    ∃ t, exec (.updOpen a) s = .next t ∧ t.upd = s.upd ∧ t.rg (F.SV_UPD_RESULT_CODE a.ownerCode) = 1) ∧
  (∀ (a : Agent) (s : State), s.reaches a = true → a.ownerCode ≤ 12 → s.updBusy a = false → s.updPermitted a = true →
    (s.upd.owner ≠ none ∨ s.enrolling = true) →
    ∃ t, exec (.updOpen a) s = .next t ∧ t.upd = s.upd ∧ t.rg (F.SV_UPD_RESULT_CODE a.ownerCode) = 2) ∧
  (∀ (a : Agent) (addr p : Nat) (s : State), s.reaches a = true → s.updBusy a = false → s.upd.owner = some a →
    p = s.updAddr a addr →
    ∃ t, exec (.updHeader a addr) s = .next t ∧ t.upd.lastCmd = s.now ∧
      match s.headerCheck p (s.dramRd p 16896) with
      | none => t.upd.first = s.dramRd p (cLen (s.dramRd p 512)) ∧ t.upd.got = 0 ∧ t.upd.job = some (a, 2, 0) ∧
        ∃ areas, t.sv.tasks = s.sv.tasks ++ [⟨.header a, areas⟩]
      | some code => t.upd = { s.upd with lastCmd := s.now } ∧ t.sv.tasks = s.sv.tasks ∧
        (a.ownerCode ≤ 12 → t.rd (R.SV_UPD_RESULT a.ownerCode) = Word.ofNat (code * 2))) ∧
  (∀ (a : Agent) (b addr p : Nat) (s : State), s.reaches a = true → s.updBusy a = false → s.upd.owner = some a →
    s.headerAccepted = true → b < 256 → b < cBlocks s.upd.first → p = s.updAddr a addr → s.dramOk p 65536 = true →
    (s.kxUse 7 4).2 = true →
    ∃ t, exec (.updBlock a b addr) s = .next t ∧
      if blockTagOk s.upd.first (s.keyAt (State.nodeCell 7)) b (s.dramRd p 65536) = true then
        t.upd.job = some (a, 3, b) ∧ t.upd.got.testBit b = false ∧
        ∃ areas, t.sv.tasks = s.sv.tasks ++ [⟨.block a b, areas⟩]
      else t.upd = { s.upd with lastCmd := s.now } ∧ t.sv.tasks = s.sv.tasks ∧
        (a.ownerCode ≤ 12 → t.rd (R.SV_UPD_RESULT a.ownerCode) = Word.ofNat (20 + 256 * b))) ∧
  (∀ (a : Agent) (s : State), s.reaches a = true → s.updBusy a = false → s.upd.owner = some a →
    s.headerAccepted = true → (∀ b < cBlocks s.upd.first, s.upd.got.testBit b = true) →
    s.rollback s.upd.first = false →
    ∃ t, exec (.updActivate a) s = .next t ∧
      if s.keyHashOk s.upd.first = true ∧ cSigned s.upd.first = true then
        t.upd.job = some (a, 4, 0) ∧ ∃ areas, t.sv.tasks = s.sv.tasks ++ [⟨.activate a, areas⟩]
      else t.upd = { s.upd with lastCmd := s.now } ∧ t.sv.tasks = s.sv.tasks ∧
        (a.ownerCode ≤ 12 → t.rd (R.SV_UPD_RESULT a.ownerCode) = 24)) ∧
  (∀ (a : Agent) (s : State), s.reaches a = true → s.updBusy a = false → s.upd.owner = some a →
    ∃ t, exec (.updClose a) s = .next t ∧ t.upd.owner = none ∧ t.upd.got = 0 ∧ t.rg F.SV_UPD_STAT_SESSION = 0) ∧
  (∀ (a : Agent) (s : State), s.socUp = true → s.upd.owner = some a →
    ∃ t, exec .updSessionTimeout s = .next t ∧ t.upd.owner = none ∧ t.evSet 21 = true) ∧
  (∀ (a b : Agent) (i : Nat) (s : State), s.socUp = true → s.upd.owner = some b → s.upd.job = some (a, 4, i) →
    ∃ t, exec .updSessionTimeout s = .next t ∧ t.upd.job = none ∧ (∀ k ∈ t.sv.tasks, ∀ c, k.kind ≠ .activate c) ∧
      (a.ownerCode ≤ 12 → t.rd (R.SV_UPD_RESULT a.ownerCode) = Word.ofNat (6 + i % 256 * 256)) ∧
      ∀ n : Fin 4, a = .bersan n → .bersanReply n.val (6 + i % 256 * 256) ∈ t.out) ∧
  (∀ (n node port udp : Nat) (tagged : Bool) (s : State), s.socUp = true → s.pw.start.firmware = true → n < 4 →
    node < 1024 → s.sessionNode n = none →
    ((s.rg F.SV_CFG_DOMAINS_PRESENT).testBit 0 = true ∨ (node = 3 ∧ port = 40 ∧ udp = 49321 ∧ tagged = false)) →
    (s.kxUse node 3).2 = true →
    ∃ t, exec (.bersanSessionOpen n node port tagged udp) s = .next t ∧ t.sessionNode n = some node ∧
      ∀ k, k ≠ n → t.sessionNode k = s.sessionNode k) ∧
  (∀ (n node port udp : Nat) (tagged : Bool) (s : State), (s.rg F.SV_CFG_DOMAINS_PRESENT).testBit 0 = false →
    (node ≠ 3 ∨ port ≠ 40 ∨ udp ≠ 49321 ∨ tagged = true) →
    exec (.bersanSessionOpen n node port tagged udp) s = .next s) ∧
  (∀ (n : Nat) (s : State), s.socUp = true → n < 4 → s.sessionNode n ≠ none →
    ∃ t, exec (.bersanSessionClose n) s = .next t ∧ t.sessionNode n = none ∧
      ∀ k, k ≠ n → t.sessionNode k = s.sessionNode k)

/-- (1) a slot that holds its content already is passed; (2) one that does not is written, and no other slot changes;
(3) a first failure repeats it; (4) a second leads to RESCUE; (5) the end raises the counter to the image's SVN.
Taken from R482, R484, of which it states only the cases above. Readings of the model it goes by: log 26, 108. -/
def Obligations.CopyCommands : Prop :=
  (∀ (slot : Nat) (rest : List Nat) (ok : Bool) (s : State), s.socUp = true → s.upd.copy.running = true → slot < 256 →
    s.upd.copy.next = slot :: rest → s.slotSame slot = true →
    ∃ t, exec (.copySlotDone ok) s = .next t ∧ t.upd.copy.next = rest ∧
      t.upd.copy.unchanged = s.upd.copy.unchanged + 1 ∧ t.upd.copy.retries = 0 ∧
      ∀ i < 65536, t.nvByte (nvActive + 65536 * slot + i) = s.nvByte (nvActive + 65536 * slot + i)) ∧
  (∀ (slot : Nat) (rest : List Nat) (s : State), s.socUp = true → s.upd.copy.running = true → slot < 256 →
    s.upd.copy.next = slot :: rest → s.slotSame slot = false →
    ∃ t, exec (.copySlotDone true) s = .next t ∧ t.upd.copy.next = rest ∧ t.upd.copy.written = s.upd.copy.written + 1 ∧
      (∀ i < (s.copyImage0 slot).length,
        t.nvByte (nvActive + 65536 * slot + i) = (s.copyImage0 slot).getD i 0) ∧
      ∀ k < 256, k ≠ slot → ∀ i < 65536, t.nvByte (nvActive + 65536 * k + i) = s.nvByte (nvActive + 65536 * k + i)) ∧
  (∀ (slot : Nat) (rest : List Nat) (s : State), s.socUp = true → s.upd.copy.running = true →
    s.upd.copy.next = slot :: rest → s.slotSame slot = false → s.upd.copy.retries = 0 →
    ∃ t, exec (.copySlotDone false) s = .next t ∧ t.upd.copy.retries = 1 ∧ t.upd.copy.next = slot :: rest ∧
      t.pw = s.pw) ∧
  (∀ (slot : Nat) (rest : List Nat) (s : State), s.socUp = true → s.upd.copy.running = true →
    s.upd.copy.next = slot :: rest → s.slotSame slot = false → 1 ≤ s.upd.copy.retries →
    ∃ t, exec (.copySlotDone false) s = .next t ∧ t.pw.rescue = true ∧ t.upd.copy.running = false) ∧
  (∀ (s : State), s.socUp = true → s.upd.copy.running = true → s.upd.copy.next = [] →
    ∃ t, exec .copyComplete s = .next t ∧ t.nv.counter = max s.nv.counter (cSvn (s.slotZero nvStaging)) ∧
      t.upd.copy.running = false ∧ t.upd.copy.result = (if s.upd.copy.resumed then 2 else 1))

/-- (1) a break before the self-test asks for RESCUE; (2) after it enters it with 2; (3) HELLO goes out on both links,
its bytes given but for SEQ and MACs (free values, log 25); (4) a header is accepted for its link or answered with
its code; (5) a chunk that does not complete its block is kept; (6) one without a header is answered 0xE; (7)
ACTIVATE writes the journal and resets with cause 4, or is answered with its code; (8) the bytes of such an answer:
SEQ of the request and code, on P40 to its source MAC; (9) what holds no sound message of a TYPE does nothing. Taken
from R95, R487, R488, of which it states only the cases above. Readings of the model it goes by: log 13, 25, 75,
108. -/
def Obligations.RescueCommands : Prop :=
  (∀ (s : State), s.socUp = true → s.pw.start.firmware = false → s.pw.rescue = false → s.pw.start.tested = false →
    exec .rescueBreak s = .next { s with pw.rescueReq := true }) ∧
  (∀ (s : State), s.socUp = true → s.pw.start.firmware = false → s.pw.rescue = false → s.pw.start.tested = true →
    ∃ t, exec .rescueBreak s = .next t ∧ t.pw.rescue = true ∧ t.upd.copy.running = false ∧ t.mode = 6 ∧
      t.evSet 2 = true) ∧
  (∀ (pufOk : Bool) (s : State) (p : List Byte), s.socUp = true → s.pw.rescue = true → s.upd.rescue.link = none →
    p = beBytes 4 (s.rd R.SV_DEVICE_ID).toNat ++ [Byte.ofNat (s.rg F.KX_STAT_LC), Byte.ofNat s.nv.counter,
      if s.keysAvailable pufOk = true then 1 else 0] ++ beBytes 4 s.rescueVersion →
    ∃ t x y m n dst src, exec (.rescueHello pufOk) s = .next t ∧ t.out = y :: x :: s.out ∧ within [.out, .freeN] s t ∧
      x = .rescueTx 0 ([0x55, 0xAA] ++ State.rescueMsg 1 m p) ∧
      y = .rescueTx 1 (State.rescueBytes 1 dst src (State.rescueMsg 1 n p))) ∧
  (∀ (link sector : Nat) (c msg bs : List Byte) (pufOk : Bool) (s : State), link < 2 → s.socUp = true →
    s.pw.rescue = true → State.rescueMsgOf link bs 2 = some msg → sector = beAt (State.rescuePayload msg) 0 2 →
    c = (State.rescuePayload msg).drop 2 →
    ∃ t, exec (.rescueHeader link bs true pufOk) s = .next t ∧
      match s.rescueHeaderCheck link sector c pufOk with
      | none => t.upd.first = c.take (cLen c) ∧ t.upd.got = 0 ∧ t.upd.rescue.link = some link ∧
        t.out = (s.rescueReply link bs msg 0).out
      | some code => t = s.rescueReply link bs msg code) ∧
  (∀ (link b off : Nat) (p msg bs : List Byte) (flashOk : Bool) (s : State), link < 2 → s.socUp = true →
    s.pw.rescue = true → State.rescueMsgOf link bs 3 = some msg → p = State.rescuePayload msg → b = beAt p 0 2 →
    off = beAt p 2 4 → s.upd.rescue.link = some link → s.upd.first ≠ [] → b < cBlocks s.upd.first → off % 1024 = 0 →
    off < 65536 → p.length = 1030 →
    setBit (Sparse.get (fun _ => 0) s.upd.rescue.chunks b) (off / 1024) ≠ 2 ^ 64 - 1 →
    ∃ t, exec (.rescueChunk link bs flashOk) s = .next t ∧ t.out = (s.rescueReply link bs msg 0).out ∧
      (Sparse.get (fun _ => 0) t.upd.rescue.chunks b).testBit (off / 1024) = true ∧ t.nv = s.nv ∧
      ∀ i < 1024, Sparse.get (fun _ => 0) t.upd.rescue.data (65536 * b + off + i) = p.getD (6 + i) 0) ∧
  (∀ (link : Nat) (msg bs : List Byte) (flashOk : Bool) (s : State), link < 2 → s.socUp = true → s.pw.rescue = true →
    State.rescueMsgOf link bs 3 = some msg → s.upd.rescue.link = none → s.upd.first = [] →
    exec (.rescueChunk link bs flashOk) s = .next (s.rescueReply link bs msg 0xE)) ∧
  (∀ (link : Nat) (msg bs : List Byte) (s : State), link < 2 → s.socUp = true → s.pw.rescue = true →
    s.pw.resetN = false → State.rescueMsgOf link bs 4 = some msg →
    (s.pw.start.tested = true ∨ s.pw.start.origin ≠ s.now) →
    ∃ t, exec (.rescueActivate link bs true) s = .next t ∧
      match s.rescueActivateCheck link with
      | none => t.pw.cause = 4 ∧ t.pw.start.rom = true ∧ t.pw.rescueReq = false ∧
        (s.enrolling = false → s.upd.copy.running = false → t.nv = (s.rescueJournal true).nv) ∧
        (s.rescueReply link bs msg 0).out.head? = t.out.head?
      | some code => t = s.rescueReply link bs msg code) ∧
  (∀ (link : Nat) (msg bs : List Byte) (code : Nat) (s : State), link < 2 → s.socUp = true → s.pw.rescue = true →
    State.rescueMsgOf link bs 4 = some msg → s.rescueActivateCheck link = some code →
    ∃ t m src, exec (.rescueActivate link bs true) s = .next t ∧ within [.out, .freeN] s t ∧
      t.out = .rescueTx link (State.rescueBytes link (slice0 bs 6 6) src
        (State.rescueMsg 5 m (beBytes 4 (beAt msg 4 4) ++ [Byte.ofNat code]))) :: s.out) ∧
  (∀ (link : Nat) (bs : List Byte) (flashOk pufOk : Bool) (s : State), State.rescueMsgOf link bs 2 = none →
    State.rescueMsgOf link bs 3 = none → State.rescueMsgOf link bs 4 = none →
    exec (.rescueHeader link bs flashOk pufOk) s = .next s ∧ exec (.rescueChunk link bs flashOk) s = .next s ∧
      exec (.rescueActivate link bs flashOk) s = .next s)

/-- (1) SLOT_CLR with CLR 1 clears the slot counters; (2) with CLR 0 it does nothing; (3) a slot is counted FRONT or
BACK; (4) a record is written at HEAD of its ring, no other byte; (5) or counted lost with the ring full. Taken from
R496 to R499, of which it states only the cases above. Readings of the model it goes by: log 63. -/
def Obligations.SlotAndRing : Prop :=
  (∀ (a : Agent) (data : Word) (s : State), s.reaches a = true → F.OB_SLOT_CLR_CLR.get data = 1 →
    ∃ t, exec (.slotClr a data) s = .next t ∧ t.rd64 R.OB_SLOT_RETIRED = 0 ∧ t.rd64 R.OB_SLOT_WASTED = 0 ∧
      t.rd64 R.OB_SLOT_FRONT = 0 ∧ t.rd64 R.OB_SLOT_BACK = 0 ∧ t.rg F.OB_SLOT_PEND_SLOTS = 0) ∧
  (∀ (a : Agent) (data : Word) (s : State), s.reaches a = true → F.OB_SLOT_CLR_CLR.get data = 0 →
    exec (.slotClr a data) s = .next { s with resp := .done }) ∧
  (∀ (s : State), s.socUp = true →
    ∃ t u, exec (.slotAccount false) s = .next t ∧
      t.rd64 R.OB_SLOT_FRONT = (s.rd64 R.OB_SLOT_FRONT + 1) % 2 ^ 64 ∧
      exec (.slotAccount true) s = .next u ∧ u.rd64 R.OB_SLOT_BACK = (s.rd64 R.OB_SLOT_BACK + 1) % 2 ^ 64 ∧
      u.rd64 R.OB_SLOT_FRONT = s.rd64 R.OB_SLOT_FRONT) ∧
  (∀ (r : Nat) (x : List Byte) (rest : List (List Byte)) (s : State), r < 9 → s.socUp = true → s.dramReady = true →
    (s.ringOf r).fifo = x :: rest → s.dramOk (s.ringBase r) (s.ringBytes r) = true → s.ringFull r = false →
    ∃ t, exec (.ringRecordWrite r) s = .next t ∧ (t.ringOf r).fifo = rest ∧
      t.rg (F.OB_RING_HEAD_HEAD r) = (s.rg (F.OB_RING_HEAD_HEAD r) + 1) % s.ringCount r ∧
      t.dramRd (s.ringBase r + State.ringStride r * s.rg (F.OB_RING_HEAD_HEAD r)) x.length = x ∧
      ∀ y, (y < s.ringBase r + State.ringStride r * s.rg (F.OB_RING_HEAD_HEAD r) ∨
        s.ringBase r + State.ringStride r * s.rg (F.OB_RING_HEAD_HEAD r) + x.length ≤ y) →
        t.dramRd y 1 = s.dramRd y 1) ∧
  (∀ (r : Nat) (x : List Byte) (rest : List (List Byte)) (s : State), r < 9 → s.socUp = true → s.dramReady = true →
    (s.ringOf r).fifo = x :: rest → s.dramOk (s.ringBase r) (s.ringBytes r) = true → s.ringFull r = true →
    ∃ t, exec (.ringRecordWrite r) s = .next t ∧ (t.ringOf r).fifo = rest ∧ t.mx.dram = s.mx.dram ∧
      t.rg (F.OB_RING_LOST_LOST r) = min (s.rg (F.OB_RING_LOST_LOST r) + 1) (2 ^ 32 - 1))

/-- (1) a frame while held is counted as held; (2) a frame that the unit covers gives RUN; (3) HOLD and CLEAR; (4) the
hold is acknowledged; (5) REATTACH attaches unit 0; (6) RUN is written while held, (7) not otherwise. Taken from
R504 to R508, of which it states only the cases above. Readings of the model it goes by: log 63. -/
def Obligations.SnoopCommands : Prop :=
  (∀ (u : Nat) (bs : List Byte) (rest : List (List Byte)) (s : State), u < 8 → s.socUp = true →
    (s.csuOf u).stream = bs :: rest → s.rg (F.OB_CSU_STAT_HOLD_ACK u) = 1 →
    ∃ t, exec (.csuFrameEnd u) s = .next t ∧ (t.csuOf u).stream = rest ∧
      t.rg (F.OB_CSU_RUN_RUN u) = s.rg (F.OB_CSU_RUN_RUN u) ∧
      t.rg (F.OB_CSU_HELD_COUNT u) = min (s.rg (F.OB_CSU_HELD_COUNT u) + 1) (2 ^ 32 - 1)) ∧
  (∀ (u : Nat) (bs : List Byte) (rest : List (List Byte)) (s : State), u < 8 → s.socUp = true →
    (s.csuOf u).stream = bs :: rest → s.rg (F.OB_CSU_STAT_HOLD_ACK u) = 0 → s.csuPasses u bs = true →
    s.csuCovered u bs ≠ [] → s.act (F.OB_CSU_CFG_MODE u) = 0 →
    ∃ t, exec (.csuFrameEnd u) s = .next t ∧ (t.csuOf u).stream = rest ∧
      t.rg (F.OB_CSU_RUN_RUN u) = crcRun (s.csuKind u) (s.csuInit u) (s.csuCovered u bs) % 2 ^ 32 ∧
      t.rg (F.OB_CSU_FRAMES_COUNT u) = min (s.rg (F.OB_CSU_FRAMES_COUNT u) + 1) (2 ^ 32 - 1)) ∧
  (∀ (a : Agent) (u : Nat) (s : State), s.reaches a = true → s.csuOpen u = true →
    ∃ t v, exec (.csuHold a u) s = .next t ∧ t.rg (F.OB_CSU_CTL_HOLD u) = 1 ∧
      exec (.csuClear a u) s = .next v ∧ v.rg (F.OB_CSU_RUN_RUN u) = s.act (F.OB_CSU_INIT_INIT u)) ∧
  (∀ (u : Nat) (s : State), u < 8 → s.socUp = true → s.rg (F.OB_CSU_CTL_HOLD u) = 1 →
    ∃ t, exec (.csuHoldAck u) s = .next t ∧ t.rg (F.OB_CSU_STAT_HOLD_ACK u) = 1 ∧ within [.regs] s t) ∧
  (∀ (a : Agent) (s : State), s.reaches a = true → s.booted = true →
    ∃ t, exec (.csuReattach a) s = .next t ∧ (t.csuOf 0).attached = true ∧ (t.csuOf 0).stream = (s.csuOf 0).stream) ∧
  (∀ (a : Agent) (u : Nat) (data : Word) (s : State), s.reaches a = true → s.csuOpen u = true →
    s.rg (F.OB_CSU_STAT_HOLD_ACK u) = 1 →
    ∃ t, exec (.csuRunWrite a u data) s = .next t ∧ t.rd (R.OB_CSU_RUN u) = data) ∧
  (∀ (a : Agent) (u : Nat) (data : Word) (s : State), s.reaches a = true → s.rg (F.OB_CSU_STAT_HOLD_ACK u) = 0 →
    exec (.csuRunWrite a u data) s = .next { s with resp := .done })

/-- (1) the one record waiting is written at its place inside a sector, no other byte; (2) the scan finds the next place
after the newest record, or 0; (3) VERIFY starts, (4) once; (5) its end raises 27, fails without node 5, and passes
for COUNT 0. Taken from R512 to R516, of which it states only the cases above. Readings of the model it goes by: log
31. -/
def Obligations.LedgerCommands : Prop :=
  (∀ (x : LedgerRec) (n : Nat) (s : State), s.booted = true → s.ob.ledger.scanned = true → s.ob.ledger.buf = [x] →
    s.ob.ledger.lostPending = 0 → n = s.ob.ledger.nextSeq → n % 64 ≠ 0 → recBlank (s.recAt n) = true →
    ∃ t, exec .ledgerFlush s = .next t ∧ t.ob.ledger.buf = [] ∧ t.ob.ledger.nextSeq = (n + 1) % 2 ^ 32 ∧
      t.nvByte (ledgerAt n) = 0x47 ∧ t.nvByte (ledgerAt n + 1) = 0x4C ∧ t.nvByte (ledgerAt n + 2) = Byte.ofNat x.type ∧
      ∀ o, (o < ledgerAt n ∨ ledgerAt n + 64 ≤ o) → t.nvByte o = s.nvByte o) ∧
  (∀ (s : State), s.booted = true → s.ob.ledger.scanned = false →
    ∃ t, exec .ledgerScan s = .next t ∧ t.ob.ledger.scanned = true ∧ t.ob.ledger.buf = s.ob.ledger.buf ∧
      t.nv = s.nv ∧ t.ob.ledger.nextSeq = s.skipTorn ((s.newestSeq.map (fun m => (m + 1) % 2 ^ 32)).getD 0) 64 ∧
      (s.newestSeq = none → t.ob.ledger.boots = 0)) ∧
  (∀ (a : Agent) (s : State), s.reaches a = true → s.ob.ledger.verify = none →
    ∃ t, exec (.ledgerVerify a) s = .next t ∧ t.ob.ledger.verify = some a ∧ t.rg F.SV_LEDGER_RES_BUSY = 1) ∧
  (∀ (a b : Agent) (s : State), s.reaches a = true → s.ob.ledger.verify = some b →
    exec (.ledgerVerify a) s = .next { s with resp := .done }) ∧
  (∀ (a : Agent) (s : State), s.socUp = true → s.ob.ledger.verify = some a →
    ∃ t, exec .ledgerVerifyDone s = .next t ∧ t.ob.ledger.verify = none ∧ t.rg F.SV_LEDGER_RES_BUSY = 0 ∧
      t.evSet 27 = true ∧ t.nv = s.nv ∧
      ((s.kxUse 5 9).2 = false → t.rg F.SV_LEDGER_RES_RESULT = 2) ∧
      ((s.kxUse 5 9).2 = true → s.rg F.SV_LEDGER_COUNT_COUNT = 0 → t.rg F.SV_LEDGER_RES_RESULT = 1))
end

