-- ==== Sys2Proof/Laws/Sparse.lean ====
section
/-!
SUPPORT. Sparse data: what a read gives after a write, and that every operation keeps the canonical form.
-/

namespace Sys2Proof.Machine

/-- Strictly rising keys, by Mathlib's pairwise relation. -/
theorem Sparse.rising_iff {β : Type} (m : Sparse β) :
    Sparse.rising m = true ↔ m.Pairwise (fun a b => a.1 < b.1) := by
  induction m with
  | nil => simp [Sparse.rising]
  | cons a m ih =>
    cases m with
    | nil => simp [Sparse.rising]
    | cons b m =>
      obtain ⟨ka, va⟩ := a
      obtain ⟨kb, vb⟩ := b
      simp only [Sparse.rising, Bool.and_eq_true, decide_eq_true_eq, ih]
      constructor
      · rintro ⟨h, k⟩
        refine List.pairwise_cons.mpr ⟨?_, k⟩
        rintro x hx
        rcases List.mem_cons.mp hx with rfl | hx
        · exact h
        · exact h.trans ((List.pairwise_cons.mp k).1 x hx)
      · intro k
        exact ⟨(List.pairwise_cons.mp k).1 _ List.mem_cons_self, (List.pairwise_cons.mp k).2⟩

/-- The canonical form, as a proposition over the entries. -/
theorem Sparse.wf_iff {β : Type} [DecidableEq β] (d : Nat → β) (m : Sparse β) :
    Sparse.wf d m = true ↔ m.Pairwise (fun a b => a.1 < b.1) ∧ ∀ e ∈ m, e.2 ≠ d e.1 := by
  simp [Sparse.wf, Sparse.rising_iff, List.all_eq_true]

theorem Sparse.erase_sublist {β : Type} (m : Sparse β) (k : Nat) : (Sparse.erase m k).Sublist m := by
  induction m with
  | nil => exact List.Sublist.refl _
  | cons a m ih =>
    obtain ⟨k', v⟩ := a
    unfold Sparse.erase
    split
    · exact ih.cons _
    · exact ih.cons_cons _

/-- Any part of canonical data is canonical. -/
theorem Sparse.wf_sublist {β : Type} [DecidableEq β] {d : Nat → β} {m l : Sparse β} (hs : l.Sublist m)
    (h : Sparse.wf d m = true) : Sparse.wf d l = true := by
  rw [Sparse.wf_iff] at h ⊢
  exact ⟨h.1.sublist hs, fun e he => h.2 e (hs.subset he)⟩

theorem Sparse.mem_insert {β : Type} {m : Sparse β} {k : Nat} {v : β} {e : Nat × β}
    (h : e ∈ Sparse.insert m k v) : e = (k, v) ∨ e ∈ m := by
  induction m with
  | nil => exact .inl (by simpa [Sparse.insert] using h)
  | cons a m ih =>
    obtain ⟨k', v'⟩ := a
    unfold Sparse.insert at h
    split at h
    · rcases List.mem_cons.mp h with h | h
      · exact .inl h
      · exact .inr (List.mem_cons_of_mem _ h)
    · split at h
      · rcases List.mem_cons.mp h with h | h
        · exact .inl h
        · exact .inr h
      · rcases List.mem_cons.mp h with h | h
        · exact .inr (h ▸ List.mem_cons_self)
        · exact (ih h).imp id (List.mem_cons_of_mem _)

theorem Sparse.insert_pairwise {β : Type} {m : Sparse β} {k : Nat} {v : β}
    (h : m.Pairwise (fun a b => a.1 < b.1)) : (Sparse.insert m k v).Pairwise (fun a b => a.1 < b.1) := by
  induction m with
  | nil => simp [Sparse.insert]
  | cons a m ih =>
    obtain ⟨k', v'⟩ := a
    obtain ⟨hm, ht⟩ := List.pairwise_cons.mp h
    unfold Sparse.insert
    split
    · next he => exact List.pairwise_cons.mpr ⟨fun x hx => he ▸ hm x hx, ht⟩
    · next hne =>
      split
      · next hlt =>
        refine List.pairwise_cons.mpr ⟨fun x hx => ?_, h⟩
        rcases List.mem_cons.mp hx with rfl | hx
        · exact hlt
        · exact Nat.lt_trans hlt (hm x hx)
      · next hge =>
        refine List.pairwise_cons.mpr ⟨fun x hx => ?_, ih ht⟩
        rcases Sparse.mem_insert hx with rfl | hx
        · show k' < k
          omega
        · exact hm x hx

/-- Writing a key keeps the canonical form. -/
theorem Sparse.wf_set {β : Type} [DecidableEq β] {d : Nat → β} {m : Sparse β} (k : Nat) (v : β)
    (h : Sparse.wf d m = true) : Sparse.wf d (Sparse.set d m k v) = true := by
  unfold Sparse.set
  split
  · exact Sparse.wf_sublist (Sparse.erase_sublist m k) h
  · next hv =>
    rw [Sparse.wf_iff] at h ⊢
    refine ⟨Sparse.insert_pairwise h.1, fun e he => ?_⟩
    rcases Sparse.mem_insert he with rfl | he
    · exact hv
    · exact h.2 e he

/-- Dropping entries keeps the canonical form. -/
theorem Sparse.wf_filter {β : Type} [DecidableEq β] {d : Nat → β} {m : Sparse β} (p : Nat × β → Bool)
    (h : Sparse.wf d m = true) : Sparse.wf d (m.filter p) = true :=
  Sparse.wf_sublist List.filter_sublist h

/-- Changing the value at a key keeps the canonical form. -/
theorem Sparse.wf_modify {β : Type} [DecidableEq β] {d : Nat → β} {m : Sparse β} (k : Nat) (f : β → β)
    (h : Sparse.wf d m = true) : Sparse.wf d (Sparse.modify d m k f) = true :=
  Sparse.wf_set k _ h

theorem Sparse.get_erase_same {β : Type} (d : Nat → β) (m : Sparse β) (k : Nat) :
    Sparse.get d (Sparse.erase m k) k = d k := by
  induction m with
  | nil => rfl
  | cons a m ih =>
    obtain ⟨k', v⟩ := a
    unfold Sparse.erase
    split
    · exact ih
    · next hne => simp [Sparse.get, hne, ih]

theorem Sparse.get_erase_ne {β : Type} (d : Nat → β) (m : Sparse β) {k j : Nat} (hj : j ≠ k) :
    Sparse.get d (Sparse.erase m k) j = Sparse.get d m j := by
  induction m with
  | nil => rfl
  | cons a m ih =>
    obtain ⟨k', v⟩ := a
    unfold Sparse.erase
    split
    · next he => rw [ih]; simp [Sparse.get, he, Ne.symm hj]
    · simp only [Sparse.get, ih]

theorem Sparse.get_insert_same {β : Type} (d : Nat → β) (m : Sparse β) (k : Nat) (v : β) :
    Sparse.get d (Sparse.insert m k v) k = v := by
  induction m with
  | nil => simp [Sparse.insert, Sparse.get]
  | cons a m ih =>
    obtain ⟨k', v'⟩ := a
    unfold Sparse.insert
    split
    · simp [Sparse.get]
    · split
      · simp [Sparse.get]
      · next hne _ => simp [Sparse.get, hne, ih]

theorem Sparse.get_insert_ne {β : Type} (d : Nat → β) (m : Sparse β) {k j : Nat} (v : β) (hj : j ≠ k) :
    Sparse.get d (Sparse.insert m k v) j = Sparse.get d m j := by
  induction m with
  | nil => simp [Sparse.insert, Sparse.get, Ne.symm hj]
  | cons a m ih =>
    obtain ⟨k', v'⟩ := a
    unfold Sparse.insert
    split
    · next he => simp [Sparse.get, he, Ne.symm hj]
    · split
      · simp [Sparse.get, Ne.symm hj]
      · simp only [Sparse.get, ih]

/-- A read of the key just written gives the value written. -/
theorem Sparse.get_set_same {β : Type} [DecidableEq β] (d : Nat → β) (m : Sparse β) (k : Nat) (v : β) :
    Sparse.get d (Sparse.set d m k v) k = v := by
  unfold Sparse.set
  split
  · next h => rw [Sparse.get_erase_same, h]
  · exact Sparse.get_insert_same d m k v

/-- A write leaves every other key alone. -/
theorem Sparse.get_set_ne {β : Type} [DecidableEq β] (d : Nat → β) (m : Sparse β) {k j : Nat} (v : β) (hj : j ≠ k) :
    Sparse.get d (Sparse.set d m k v) j = Sparse.get d m j := by
  unfold Sparse.set
  split
  · exact Sparse.get_erase_ne d m hj
  · exact Sparse.get_insert_ne d m v hj

end Sys2Proof.Machine
end

