-- ==== Sys2Proof/Laws/Moves.lean ====
section
/-!
SUPPORT. Frames: what `moves` says of a direct update of the state and of the operations that take a function.
-/

namespace Sys2Proof.Machine

theorem Kept.refl (s : State) : Kept s s where
  regs h := h
  dram h := h
  flash h := h
  fuses _ h := h
  counter := Nat.le_refl _
  ftk := rfl
  keyHash := rfl
  now := Nat.le_refl _
  freeN := Nat.le_refl _
  out := ⟨[], rfl⟩

theorem Kept.trans {s t u : State} (h : Kept s t) (k : Kept t u) : Kept s u where
  regs := k.regs ∘ h.regs
  dram := k.dram ∘ h.dram
  flash := k.flash ∘ h.flash
  fuses i := k.fuses i ∘ h.fuses i
  counter := h.counter.trans k.counter
  ftk := k.ftk.trans h.ftk
  keyHash := k.keyHash.trans h.keyHash
  now := h.now.trans k.now
  freeN := h.freeN.trans k.freeN
  out := by
    obtain ⟨a, ha⟩ := h.out
    obtain ⟨b, hb⟩ := k.out
    exact ⟨b ++ a, by rw [hb, ha, List.append_assoc]⟩

/-- Canonical memories stay canonical. -/
theorem Kept.canonical {s t : State} (h : Kept s t) (c : Canonical s) : Canonical t :=
  ⟨h.regs c.regs, h.dram c.dram, h.flash c.flash⟩

theorem within_refl {ps : List Part} (s : State) : within ps s s := by
  intro p _; cases p <;> rfl

theorem within_trans {ps : List Part} {s t u : State} (h : within ps s t) (k : within ps t u) : within ps s u := by
  intro p hp
  have a := h p hp
  have b := k p hp
  cases p <;> exact b.trans a

theorem within_mono {ps qs : List Part} {s t : State} (hq : ps ⊆ qs) (h : within ps s t) : within qs s t :=
  fun p hp => h p (fun hm => hp (hq hm))

theorem moves_refl {ps : List Part} (s : State) : moves ps s s := ⟨within_refl s, Kept.refl s⟩

theorem moves_trans {ps : List Part} {s t u : State} (h : moves ps s t) (k : moves ps t u) : moves ps s u :=
  ⟨within_trans h.1 k.1, h.2.trans k.2⟩

theorem moves_mono {ps qs : List Part} {s t : State} (hq : ps ⊆ qs) (h : moves ps s t) : moves qs s t :=
  ⟨within_mono hq h.1, h.2⟩

theorem moves_upd_pending {ps : List Part} {s0 s : State} {v} (hp : Part.pending ∈ ps)
 (h : moves ps s0 s) : moves ps s0 { s with pending := v } := by
  refine ⟨?_, ?_⟩
  · intro p hn
    have := h.1 p hn
    cases p <;> first | exact this | exact absurd hp hn
  · exact ⟨h.2.regs, h.2.dram, h.2.flash, h.2.fuses, h.2.counter, h.2.ftk, h.2.keyHash, h.2.now, h.2.freeN, h.2.out⟩

theorem moves_upd_resp {ps : List Part} {s0 s : State} {v} (hp : Part.resp ∈ ps)
 (h : moves ps s0 s) : moves ps s0 { s with resp := v } := by
  refine ⟨?_, ?_⟩
  · intro p hn
    have := h.1 p hn
    cases p <;> first | exact this | exact absurd hp hn
  · exact ⟨h.2.regs, h.2.dram, h.2.flash, h.2.fuses, h.2.counter, h.2.ftk, h.2.keyHash, h.2.now, h.2.freeN, h.2.out⟩

theorem moves_upd_active {ps : List Part} {s0 s : State} {v} (hp : Part.active ∈ ps)
 (h : moves ps s0 s) : moves ps s0 { s with active := v } := by
  refine ⟨?_, ?_⟩
  · intro p hn
    have := h.1 p hn
    cases p <;> first | exact this | exact absurd hp hn
  · exact ⟨h.2.regs, h.2.dram, h.2.flash, h.2.fuses, h.2.counter, h.2.ftk, h.2.keyHash, h.2.now, h.2.freeN, h.2.out⟩

theorem moves_upd_shadow {ps : List Part} {s0 s : State} {v} (hp : Part.shadow ∈ ps)
 (h : moves ps s0 s) : moves ps s0 { s with shadow := v } := by
  refine ⟨?_, ?_⟩
  · intro p hn
    have := h.1 p hn
    cases p <;> first | exact this | exact absurd hp hn
  · exact ⟨h.2.regs, h.2.dram, h.2.flash, h.2.fuses, h.2.counter, h.2.ftk, h.2.keyHash, h.2.now, h.2.freeN, h.2.out⟩

theorem moves_upd_swapped {ps : List Part} {s0 s : State} {v} (hp : Part.swapped ∈ ps)
 (h : moves ps s0 s) : moves ps s0 { s with swapped := v } := by
  refine ⟨?_, ?_⟩
  · intro p hn
    have := h.1 p hn
    cases p <;> first | exact this | exact absurd hp hn
  · exact ⟨h.2.regs, h.2.dram, h.2.flash, h.2.fuses, h.2.counter, h.2.ftk, h.2.keyHash, h.2.now, h.2.freeN, h.2.out⟩

theorem moves_upd_epochs {ps : List Part} {s0 s : State} {v} (hp : Part.epochs ∈ ps)
 (h : moves ps s0 s) : moves ps s0 { s with epochs := v } := by
  refine ⟨?_, ?_⟩
  · intro p hn
    have := h.1 p hn
    cases p <;> first | exact this | exact absurd hp hn
  · exact ⟨h.2.regs, h.2.dram, h.2.flash, h.2.fuses, h.2.counter, h.2.ftk, h.2.keyHash, h.2.now, h.2.freeN, h.2.out⟩

theorem moves_upd_latches {ps : List Part} {s0 s : State} {v} (hp : Part.latches ∈ ps)
 (h : moves ps s0 s) : moves ps s0 { s with latches := v } := by
  refine ⟨?_, ?_⟩
  · intro p hn
    have := h.1 p hn
    cases p <;> first | exact this | exact absurd hp hn
  · exact ⟨h.2.regs, h.2.dram, h.2.flash, h.2.fuses, h.2.counter, h.2.ftk, h.2.keyHash, h.2.now, h.2.freeN, h.2.out⟩

theorem moves_upd_mirror {ps : List Part} {s0 s : State} {v} (hp : Part.mirror ∈ ps)
 (h : moves ps s0 s) : moves ps s0 { s with mirror := v } := by
  refine ⟨?_, ?_⟩
  · intro p hn
    have := h.1 p hn
    cases p <;> first | exact this | exact absurd hp hn
  · exact ⟨h.2.regs, h.2.dram, h.2.flash, h.2.fuses, h.2.counter, h.2.ftk, h.2.keyHash, h.2.now, h.2.freeN, h.2.out⟩

theorem moves_upd_scope {ps : List Part} {s0 s : State} {v} (hp : Part.scope ∈ ps)
 (h : moves ps s0 s) : moves ps s0 { s with scope := v } := by
  refine ⟨?_, ?_⟩
  · intro p hn
    have := h.1 p hn
    cases p <;> first | exact this | exact absurd hp hn
  · exact ⟨h.2.regs, h.2.dram, h.2.flash, h.2.fuses, h.2.counter, h.2.ftk, h.2.keyHash, h.2.now, h.2.freeN, h.2.out⟩

theorem moves_upd_pw {ps : List Part} {s0 s : State} {v} (hp : Part.pw ∈ ps)
 (h : moves ps s0 s) : moves ps s0 { s with pw := v } := by
  refine ⟨?_, ?_⟩
  · intro p hn
    have := h.1 p hn
    cases p <;> first | exact this | exact absurd hp hn
  · exact ⟨h.2.regs, h.2.dram, h.2.flash, h.2.fuses, h.2.counter, h.2.ftk, h.2.keyHash, h.2.now, h.2.freeN, h.2.out⟩

theorem moves_upd_sv {ps : List Part} {s0 s : State} {v} (hp : Part.sv ∈ ps)
 (h : moves ps s0 s) : moves ps s0 { s with sv := v } := by
  refine ⟨?_, ?_⟩
  · intro p hn
    have := h.1 p hn
    cases p <;> first | exact this | exact absurd hp hn
  · exact ⟨h.2.regs, h.2.dram, h.2.flash, h.2.fuses, h.2.counter, h.2.ftk, h.2.keyHash, h.2.now, h.2.freeN, h.2.out⟩

theorem moves_upd_mend {ps : List Part} {s0 s : State} {v} (hp : Part.mend ∈ ps)
 (h : moves ps s0 s) : moves ps s0 { s with mend := v } := by
  refine ⟨?_, ?_⟩
  · intro p hn
    have := h.1 p hn
    cases p <;> first | exact this | exact absurd hp hn
  · exact ⟨h.2.regs, h.2.dram, h.2.flash, h.2.fuses, h.2.counter, h.2.ftk, h.2.keyHash, h.2.now, h.2.freeN, h.2.out⟩

theorem moves_upd_sx {ps : List Part} {s0 s : State} {v} (hp : Part.sx ∈ ps)
 (h : moves ps s0 s) : moves ps s0 { s with sx := v } := by
  refine ⟨?_, ?_⟩
  · intro p hn
    have := h.1 p hn
    cases p <;> first | exact this | exact absurd hp hn
  · exact ⟨h.2.regs, h.2.dram, h.2.flash, h.2.fuses, h.2.counter, h.2.ftk, h.2.keyHash, h.2.now, h.2.freeN, h.2.out⟩

theorem moves_upd_fx {ps : List Part} {s0 s : State} {v} (hp : Part.fx ∈ ps)
 (h : moves ps s0 s) : moves ps s0 { s with fx := v } := by
  refine ⟨?_, ?_⟩
  · intro p hn
    have := h.1 p hn
    cases p <;> first | exact this | exact absurd hp hn
  · exact ⟨h.2.regs, h.2.dram, h.2.flash, h.2.fuses, h.2.counter, h.2.ftk, h.2.keyHash, h.2.now, h.2.freeN, h.2.out⟩

theorem moves_upd_te {ps : List Part} {s0 s : State} {v} (hp : Part.te ∈ ps)
 (h : moves ps s0 s) : moves ps s0 { s with te := v } := by
  refine ⟨?_, ?_⟩
  · intro p hn
    have := h.1 p hn
    cases p <;> first | exact this | exact absurd hp hn
  · exact ⟨h.2.regs, h.2.dram, h.2.flash, h.2.fuses, h.2.counter, h.2.ftk, h.2.keyHash, h.2.now, h.2.freeN, h.2.out⟩

theorem moves_upd_ob {ps : List Part} {s0 s : State} {v} (hp : Part.ob ∈ ps)
 (h : moves ps s0 s) : moves ps s0 { s with ob := v } := by
  refine ⟨?_, ?_⟩
  · intro p hn
    have := h.1 p hn
    cases p <;> first | exact this | exact absurd hp hn
  · exact ⟨h.2.regs, h.2.dram, h.2.flash, h.2.fuses, h.2.counter, h.2.ftk, h.2.keyHash, h.2.now, h.2.freeN, h.2.out⟩

theorem moves_upd_px {ps : List Part} {s0 s : State} {v} (hp : Part.px ∈ ps)
 (h : moves ps s0 s) : moves ps s0 { s with px := v } := by
  refine ⟨?_, ?_⟩
  · intro p hn
    have := h.1 p hn
    cases p <;> first | exact this | exact absurd hp hn
  · exact ⟨h.2.regs, h.2.dram, h.2.flash, h.2.fuses, h.2.counter, h.2.ftk, h.2.keyHash, h.2.now, h.2.freeN, h.2.out⟩

theorem moves_upd_kx {ps : List Part} {s0 s : State} {v} (hp : Part.kx ∈ ps)
 (h : moves ps s0 s) : moves ps s0 { s with kx := v } := by
  refine ⟨?_, ?_⟩
  · intro p hn
    have := h.1 p hn
    cases p <;> first | exact this | exact absurd hp hn
  · exact ⟨h.2.regs, h.2.dram, h.2.flash, h.2.fuses, h.2.counter, h.2.ftk, h.2.keyHash, h.2.now, h.2.freeN, h.2.out⟩

theorem moves_upd_ce {ps : List Part} {s0 s : State} {v} (hp : Part.ce ∈ ps)
 (h : moves ps s0 s) : moves ps s0 { s with ce := v } := by
  refine ⟨?_, ?_⟩
  · intro p hn
    have := h.1 p hn
    cases p <;> first | exact this | exact absurd hp hn
  · exact ⟨h.2.regs, h.2.dram, h.2.flash, h.2.fuses, h.2.counter, h.2.ftk, h.2.keyHash, h.2.now, h.2.freeN, h.2.out⟩

theorem moves_upd_upd {ps : List Part} {s0 s : State} {v} (hp : Part.upd ∈ ps)
 (h : moves ps s0 s) : moves ps s0 { s with upd := v } := by
  refine ⟨?_, ?_⟩
  · intro p hn
    have := h.1 p hn
    cases p <;> first | exact this | exact absurd hp hn
  · exact ⟨h.2.regs, h.2.dram, h.2.flash, h.2.fuses, h.2.counter, h.2.ftk, h.2.keyHash, h.2.now, h.2.freeN, h.2.out⟩

theorem moves_upd_bx {ps : List Part} {s0 s : State} {v} (hp : Part.bx ∈ ps)
 (h : moves ps s0 s) : moves ps s0 { s with bx := v } := by
  refine ⟨?_, ?_⟩
  · intro p hn
    have := h.1 p hn
    cases p <;> first | exact this | exact absurd hp hn
  · exact ⟨h.2.regs, h.2.dram, h.2.flash, h.2.fuses, h.2.counter, h.2.ftk, h.2.keyHash, h.2.now, h.2.freeN, h.2.out⟩

theorem moves_upd_aon {ps : List Part} {s0 s : State} {v} (hp : Part.aon ∈ ps)
 (h : moves ps s0 s) : moves ps s0 { s with aon := v } := by
  refine ⟨?_, ?_⟩
  · intro p hn
    have := h.1 p hn
    cases p <;> first | exact this | exact absurd hp hn
  · exact ⟨h.2.regs, h.2.dram, h.2.flash, h.2.fuses, h.2.counter, h.2.ftk, h.2.keyHash, h.2.now, h.2.freeN, h.2.out⟩

theorem moves_upd_cx {ps : List Part} {s0 s : State} {v} (hp : Part.cx ∈ ps)
 (h : moves ps s0 s) : moves ps s0 { s with cx := v } := by
  refine ⟨?_, ?_⟩
  · intro p hn
    have := h.1 p hn
    cases p <;> first | exact this | exact absurd hp hn
  · exact ⟨h.2.regs, h.2.dram, h.2.flash, h.2.fuses, h.2.counter, h.2.ftk, h.2.keyHash, h.2.now, h.2.freeN, h.2.out⟩

theorem moves_upd_mx {ps : List Part} {s0 s : State} {v} (hp : Part.mx ∈ ps) (hv : v.dram = s.mx.dram)
 (h : moves ps s0 s) : moves ps s0 { s with mx := v } := by
  refine ⟨?_, ?_⟩
  · intro p hn
    have := h.1 p hn
    cases p <;> first | exact this | exact absurd hp hn
  · exact ⟨h.2.regs, fun k => by rw [show ({ s with mx := v } : State).mx = v from rfl, hv]; exact h.2.dram k, h.2.flash, h.2.fuses, h.2.counter, h.2.ftk, h.2.keyHash, h.2.now, h.2.freeN, h.2.out⟩

theorem moves_upd_pw_mx {ps : List Part} {s0 s : State} {v0 v1} (hp : [Part.pw, Part.mx] ⊆ ps) (hv : v1.dram = [])
 (h : moves ps s0 s) : moves ps s0 { s with pw := v0, mx := v1 } := by
  refine ⟨?_, ?_⟩
  · intro p hn
    have := h.1 p hn
    cases p <;> first | exact this | exact absurd (hp (by decide)) hn
  · exact ⟨h.2.regs, fun _ => by rw [show ({ s with pw := v0, mx := v1 } : State).mx = v1 from rfl, hv]; rfl,
      h.2.flash, h.2.fuses, h.2.counter, h.2.ftk, h.2.keyHash, h.2.now, h.2.freeN, h.2.out⟩

theorem moves_upd_now {ps : List Part} {s0 s : State} {v} (hp : Part.now ∈ ps) (hv : s.now ≤ v)
 (h : moves ps s0 s) : moves ps s0 { s with now := v } := by
  refine ⟨?_, ?_⟩
  · intro p hn
    have := h.1 p hn
    cases p <;> first | exact this | exact absurd hp hn
  · exact ⟨h.2.regs, h.2.dram, h.2.flash, h.2.fuses, h.2.counter, h.2.ftk, h.2.keyHash, h.2.now.trans hv, h.2.freeN,
      h.2.out⟩

theorem moves_upd_pw_aon {ps : List Part} {s0 s : State} {v0} {v1} (hp : [Part.pw, Part.aon] ⊆ ps)
 (h : moves ps s0 s) : moves ps s0 { s with pw := v0, aon := v1 } := by
  refine ⟨?_, ?_⟩
  · intro p hn
    have := h.1 p hn
    cases p <;> first | exact this | exact absurd (hp (by decide)) hn
  · exact ⟨h.2.regs, h.2.dram, h.2.flash, h.2.fuses, h.2.counter, h.2.ftk, h.2.keyHash, h.2.now, h.2.freeN, h.2.out⟩

theorem moves_upd_pw_cx {ps : List Part} {s0 s : State} {v0} {v1} (hp : [Part.pw, Part.cx] ⊆ ps)
 (h : moves ps s0 s) : moves ps s0 { s with pw := v0, cx := v1 } := by
  refine ⟨?_, ?_⟩
  · intro p hn
    have := h.1 p hn
    cases p <;> first | exact this | exact absurd (hp (by decide)) hn
  · exact ⟨h.2.regs, h.2.dram, h.2.flash, h.2.fuses, h.2.counter, h.2.ftk, h.2.keyHash, h.2.now, h.2.freeN, h.2.out⟩

theorem moves_upd_pw_kx {ps : List Part} {s0 s : State} {v0} {v1} (hp : [Part.pw, Part.kx] ⊆ ps)
 (h : moves ps s0 s) : moves ps s0 { s with pw := v0, kx := v1 } := by
  refine ⟨?_, ?_⟩
  · intro p hn
    have := h.1 p hn
    cases p <;> first | exact this | exact absurd (hp (by decide)) hn
  · exact ⟨h.2.regs, h.2.dram, h.2.flash, h.2.fuses, h.2.counter, h.2.ftk, h.2.keyHash, h.2.now, h.2.freeN, h.2.out⟩

theorem moves_upd_pw_upd {ps : List Part} {s0 s : State} {v0} {v1} (hp : [Part.pw, Part.upd] ⊆ ps)
 (h : moves ps s0 s) : moves ps s0 { s with pw := v0, upd := v1 } := by
  refine ⟨?_, ?_⟩
  · intro p hn
    have := h.1 p hn
    cases p <;> first | exact this | exact absurd (hp (by decide)) hn
  · exact ⟨h.2.regs, h.2.dram, h.2.flash, h.2.fuses, h.2.counter, h.2.ftk, h.2.keyHash, h.2.now, h.2.freeN, h.2.out⟩

theorem moves_upd_sv_kx {ps : List Part} {s0 s : State} {v0} {v1} (hp : [Part.sv, Part.kx] ⊆ ps)
 (h : moves ps s0 s) : moves ps s0 { s with sv := v0, kx := v1 } := by
  refine ⟨?_, ?_⟩
  · intro p hn
    have := h.1 p hn
    cases p <;> first | exact this | exact absurd (hp (by decide)) hn
  · exact ⟨h.2.regs, h.2.dram, h.2.flash, h.2.fuses, h.2.counter, h.2.ftk, h.2.keyHash, h.2.now, h.2.freeN, h.2.out⟩

theorem moves_upd_sv_sx {ps : List Part} {s0 s : State} {v0} {v1} (hp : [Part.sv, Part.sx] ⊆ ps)
 (h : moves ps s0 s) : moves ps s0 { s with sv := v0, sx := v1 } := by
  refine ⟨?_, ?_⟩
  · intro p hn
    have := h.1 p hn
    cases p <;> first | exact this | exact absurd (hp (by decide)) hn
  · exact ⟨h.2.regs, h.2.dram, h.2.flash, h.2.fuses, h.2.counter, h.2.ftk, h.2.keyHash, h.2.now, h.2.freeN, h.2.out⟩

theorem moves_upd_sv_upd {ps : List Part} {s0 s : State} {v0} {v1} (hp : [Part.sv, Part.upd] ⊆ ps)
 (h : moves ps s0 s) : moves ps s0 { s with sv := v0, upd := v1 } := by
  refine ⟨?_, ?_⟩
  · intro p hn
    have := h.1 p hn
    cases p <;> first | exact this | exact absurd (hp (by decide)) hn
  · exact ⟨h.2.regs, h.2.dram, h.2.flash, h.2.fuses, h.2.counter, h.2.ftk, h.2.keyHash, h.2.now, h.2.freeN, h.2.out⟩

/-- A fold that carries a value beside the state keeps what each of its steps keeps. -/
theorem moves_foldl_fst {α β : Type} {ps : List Part} {s0 : State} {f : State × β → α → State × β}
    (hf : ∀ a i, moves ps s0 a.1 → moves ps s0 (f a i).1) :
    ∀ (l : List α) (a : State × β), moves ps s0 a.1 → moves ps s0 (l.foldl f a).1
  | [], _, h => h
  | i :: l, a, h => moves_foldl_fst hf l _ (hf a i h)

theorem moves_ite {ps : List Part} {s0 s t : State} {c : Prop} [Decidable c] (h : moves ps s0 s) (k : moves ps s0 t) :
    moves ps s0 (if c then s else t) := by
  split <;> assumption

theorem moves_only {ps : List Part} {s0 s t : State} {x1} (h : moves ps s0 s) (k : moves ps s0 t) :
    moves ps s0 (State.only s x1 t) := by
  unfold State.only; split <;> assumption

theorem moves_forEach {ps : List Part} {s0 s : State} {α : Type} {x2 : List α} {x3 : State → α → State}
    (hf3 : ∀ y0 y1, moves ps s0 y0 → moves ps s0 (x3 y0 y1)) (h : moves ps s0 s) :
    moves ps s0 (State.forEach s x2 x3) := by
  unfold State.forEach
  induction x2 generalizing s with
  | nil => exact h
  | cons a l ih => exact ih (hf3 _ _ h)

end Sys2Proof.Machine
end

