-- ==== Sys2Proof/Laws/MovesOps.lean ====
section
/-!
SUPPORT. What each operation of Machine/Ops.lean can do: the parts of the state it may change, and what it keeps
(`moves`, Safety.lean). One lemma for each operation; callers cite it and do not unfold the operation.
-/

set_option linter.unusedTactic false
set_option linter.unreachableTactic false
set_option linter.unusedSimpArgs false

namespace Sys2Proof.Machine

open State

theorem moves_wr {ps : List Part} {s0 s : State} {x1} {x2} (_hp : [.regs] ⊆ ps) (h : moves ps s0 s) :
    moves ps s0 (State.wr s x1 x2) := by
  unfold State.wr
  refine ⟨?_, ⟨fun k => Sparse.wf_set _ _ (h.2.regs k), h.2.dram, h.2.flash, h.2.fuses, h.2.counter, h.2.ftk, h.2.keyHash, h.2.now, h.2.freeN, h.2.out⟩⟩
  intro p hn
  have := h.1 p hn
  cases p <;> first | exact this | exact absurd (_hp (by decide)) hn

theorem moves_setRg {ps : List Part} {s0 s : State} {x1} {x2} (_hp : [.regs] ⊆ ps) (h : moves ps s0 s) :
    moves ps s0 (State.setRg s x1 x2) := by
  unfold State.setRg
  refine ⟨?_, ⟨fun k => Sparse.wf_set _ _ (h.2.regs k), h.2.dram, h.2.flash, h.2.fuses, h.2.counter, h.2.ftk, h.2.keyHash, h.2.now, h.2.freeN, h.2.out⟩⟩
  intro p hn
  have := h.1 p hn
  cases p <;> first | exact this | exact absurd (_hp (by decide)) hn

theorem moves_setShd {ps : List Part} {s0 s : State} {x1} {x2} (_hp : [.shadow] ⊆ ps) (h : moves ps s0 s) :
    moves ps s0 (State.setShd s x1 x2) := by
  unfold State.setShd
  (try dsimp only)
  repeat' first
    | with_reducible assumption
    | split
    | with_reducible apply moves_upd_shadow
    | exact _hp (by decide)
    | exact List.Subset.trans (by decide) _hp
    | intro _

theorem moves_bump {ps : List Part} {s0 s : State} {x1} {x2} (_hp : [.regs] ⊆ ps) (h : moves ps s0 s) :
    moves ps s0 (State.bump s x1 x2) := by
  unfold State.bump
  (try dsimp only)
  repeat' first
    | with_reducible assumption
    | split
    | with_reducible apply moves_setRg
    | exact _hp (by decide)
    | exact List.Subset.trans (by decide) _hp
    | intro _

theorem moves_tick {ps : List Part} {s0 s : State} {x1} {x2} (_hp : [.regs] ⊆ ps) (h : moves ps s0 s) :
    moves ps s0 (State.tick s x1 x2) := by
  unfold State.tick
  (try dsimp only)
  repeat' first
    | with_reducible assumption
    | split
    | with_reducible apply moves_setRg
    | exact _hp (by decide)
    | exact List.Subset.trans (by decide) _hp
    | intro _

theorem moves_wr64 {ps : List Part} {s0 s : State} {x1} {x2} (_hp : [.regs] ⊆ ps) (h : moves ps s0 s) :
    moves ps s0 (State.wr64 s x1 x2) := by
  unfold State.wr64
  (try dsimp only)
  repeat' first
    | with_reducible assumption
    | split
    | with_reducible apply moves_wr
    | exact _hp (by decide)
    | exact List.Subset.trans (by decide) _hp
    | intro _

theorem moves_bump64 {ps : List Part} {s0 s : State} {x1} {x2} (_hp : [.regs] ⊆ ps) (h : moves ps s0 s) :
    moves ps s0 (State.bump64 s x1 x2) := by
  unfold State.bump64
  (try dsimp only)
  repeat' first
    | with_reducible assumption
    | split
    | with_reducible apply moves_wr64
    | exact _hp (by decide)
    | exact List.Subset.trans (by decide) _hp
    | intro _

theorem moves_emit {ps : List Part} {s0 s : State} {x1} (_hp : [.out] ⊆ ps) (h : moves ps s0 s) :
    moves ps s0 (State.emit s x1) := by
  unfold State.emit
  refine ⟨?_, ⟨h.2.regs, h.2.dram, h.2.flash, h.2.fuses, h.2.counter, h.2.ftk, h.2.keyHash, h.2.now, h.2.freeN, h.2.out.elim fun l hl => ⟨_ :: l, by rw [hl]; rfl⟩⟩⟩
  intro p hn
  have := h.1 p hn
  cases p <;> first | exact this | exact absurd (_hp (by decide)) hn

theorem moves_useFree {ps : List Part} {s0 s : State}  (_hp : [.freeN] ⊆ ps) (h : moves ps s0 s) :
    moves ps s0 (State.useFree s) := by
  unfold State.useFree
  refine ⟨?_, ⟨h.2.regs, h.2.dram, h.2.flash, h.2.fuses, h.2.counter, h.2.ftk, h.2.keyHash, h.2.now, Nat.le_succ_of_le h.2.freeN, h.2.out⟩⟩
  intro p hn
  have := h.1 p hn
  cases p <;> first | exact this | exact absurd (_hp (by decide)) hn

theorem moves_answer {ps : List Part} {s0 s : State} {x1} (_hp : [.resp] ⊆ ps) (h : moves ps s0 s) :
    moves ps s0 (State.answer s x1) := by
  unfold State.answer
  (try dsimp only)
  repeat' first
    | with_reducible assumption
    | split
    | with_reducible apply moves_upd_resp
    | exact _hp (by decide)
    | exact List.Subset.trans (by decide) _hp
    | intro _

end Sys2Proof.Machine
end

