-- ==== Sys2Proof/Laws/MovesEvents.lean ====
section
/-!
SUPPORT. What each operation of Machine/Events.lean can do: the parts of the state it may change, and what it keeps
(`moves`, Safety.lean). One lemma for each operation; callers cite it and do not unfold the operation.
-/

set_option linter.unusedTactic false
set_option linter.unreachableTactic false
set_option linter.unusedSimpArgs false

namespace Sys2Proof.Machine

open State

theorem moves_sendVec {ps : List Part} {s0 s : State} {x1} (_hp : [.out] ⊆ ps) (h : moves ps s0 s) :
    moves ps s0 (State.sendVec s x1) := by
  unfold State.sendVec
  (try dsimp only)
  repeat' first
    | with_reducible assumption
    | split
    | with_reducible apply moves_emit
    | exact _hp (by decide)
    | exact List.Subset.trans (by decide) _hp
    | intro _

theorem moves_notifyAll {ps : List Part} {s0 s : State} {x1} {x2} (_hp : [.out] ⊆ ps) (h : moves ps s0 s) :
    moves ps s0 (State.notifyAll s x1 x2) := by
  unfold State.notifyAll
  (try dsimp only)
  repeat' first
    | with_reducible assumption
    | split
    | with_reducible apply moves_forEach
    | with_reducible apply moves_emit
    | exact _hp (by decide)
    | exact List.Subset.trans (by decide) _hp
    | intro _

theorem moves_latchEvent {ps : List Part} {s0 s : State} {x1} {x2} (_hp : [.regs, .scope] ⊆ ps) (h : moves ps s0 s) :
    moves ps s0 (State.latchEvent s x1 x2) := by
  unfold State.latchEvent
  (try dsimp only)
  repeat' first
    | with_reducible assumption
    | split
    | with_reducible apply moves_setRg
    | with_reducible apply moves_upd_scope
    | exact _hp (by decide)
    | exact List.Subset.trans (by decide) _hp
    | intro _

theorem moves_raise {ps : List Part} {s0 s : State} {x1} {x2} (_hp : [.out, .regs, .scope] ⊆ ps) (h : moves ps s0 s) :
    moves ps s0 (State.raise s x1 x2) := by
  unfold State.raise
  (try dsimp only)
  repeat' first
    | with_reducible assumption
    | split
    | with_reducible apply moves_notifyAll
    | with_reducible apply moves_latchEvent
    | with_reducible apply moves_sendVec
    | exact _hp (by decide)
    | exact List.Subset.trans (by decide) _hp
    | intro _

theorem moves_byAgent {ps : List Part} {s0 s : State} {x1} {x2} (_hp : [.resp] ⊆ ps) (hf2 : ∀ y0, moves ps s0 y0 → moves ps s0 (x2 y0)) (h : moves ps s0 s) :
    moves ps s0 (State.byAgent s x1 x2) := by
  unfold State.byAgent
  (try dsimp only)
  repeat' first
    | with_reducible assumption
    | split
    | with_reducible apply hf2
    | with_reducible apply moves_answer
    | exact _hp (by decide)
    | exact List.Subset.trans (by decide) _hp
    | intro _

theorem moves_raiseAll {ps : List Part} {s0 s : State} {x1} (_hp : [.out, .regs, .scope] ⊆ ps) (h : moves ps s0 s) :
    moves ps s0 (State.raiseAll s x1) := by
  unfold State.raiseAll
  (try dsimp only)
  repeat' first
    | with_reducible assumption
    | split
    | with_reducible apply moves_forEach
    | with_reducible apply moves_raise
    | exact _hp (by decide)
    | exact List.Subset.trans (by decide) _hp
    | intro _

end Sys2Proof.Machine
end

