-- ==== Sys2Proof/Laws/Registers.lean ====
section
/-!
SUPPORT. Register files by field: what a field reads after another field is set.
-/

namespace Sys2Proof.Machine

/-- The mask of all bits leaves a word as it is. -/
@[simp] theorem Word.and_ones (w : Word) : w &&& 4294967295#32 = w := BitVec.and_allOnes

/-- A field that lies within the 32 bits of its register. -/
def Fld.ok (f : Fld) : Bool := decide (f.lo + f.wid ≤ 32)

/-- Two fields that share no bit of one register. -/
def Fld.apart (f g : Fld) : Bool := decide (f.off ≠ g.off ∨ f.lo + f.wid ≤ g.lo ∨ g.lo + g.wid ≤ f.lo)

theorem Fld.get_eq (f : Fld) (w : Word) : f.get w = w.toNat / 2 ^ f.lo % 2 ^ f.wid := by
  simp [Fld.get, BitVec.extractLsb'_toNat, Nat.shiftRight_eq_div_pow]

theorem Fld.mask_getLsbD (f : Fld) (hf : f.ok = true) (i : Nat) (hi : i < 32) :
    f.mask.getLsbD i = decide (f.lo ≤ i ∧ i < f.lo + f.wid) := by
  have hf' : f.lo + f.wid ≤ 32 := of_decide_eq_true hf
  simp only [Fld.mask, BitVec.getLsbD_shiftLeft, BitVec.getLsbD_ofNat, Nat.testBit_two_pow_sub_one]
  by_cases h1 : i < f.lo
  · simp [h1, hi]
  · rw [Bool.eq_iff_iff]
    simp [h1, hi]
    omega

theorem Fld.put_getLsbD (f : Fld) (hf : f.ok = true) (w : Word) (v i : Nat) (hi : i < 32) :
    (f.put w v).getLsbD i = if f.lo ≤ i ∧ i < f.lo + f.wid then v.testBit (i - f.lo) else w.getLsbD i := by
  have hf' : f.lo + f.wid ≤ 32 := of_decide_eq_true hf
  simp only [Fld.put, BitVec.getLsbD_or, BitVec.getLsbD_and, BitVec.getLsbD_not, BitVec.getLsbD_shiftLeft,
    BitVec.getLsbD_ofNat, Nat.testBit_mod_two_pow, f.mask_getLsbD hf i hi, hi]
  by_cases h : f.lo ≤ i ∧ i < f.lo + f.wid
  · have h1 : ¬ i < f.lo := by omega
    have h2 : i - f.lo < f.wid := by omega
    have h3 : i - f.lo < 32 := by omega
    simp [h, h2, h3]
  · by_cases h1 : i < f.lo
    · have : ¬ (f.lo ≤ i) := by omega
      simp [h1, this]
    · have h2 : ¬ (i - f.lo < f.wid) := by omega
      have h3 : f.lo ≤ i := by omega
      have h4 : ¬ (i < f.lo + f.wid) := by omega
      simp [h2, h3, h4]

/-- A field just set reads the value, modulo its width. -/
theorem Fld.get_put_same (f : Fld) (hf : f.ok = true) (w : Word) (v : Nat) : f.get (f.put w v) = v % 2 ^ f.wid := by
  have hf' : f.lo + f.wid ≤ 32 := of_decide_eq_true hf
  apply Nat.eq_of_testBit_eq
  intro i
  rw [Fld.get, BitVec.testBit_toNat, BitVec.getLsbD_extractLsb', Nat.testBit_mod_two_pow]
  by_cases hi : i < f.wid
  · have h1 : f.lo + i < 32 := by omega
    have h2 : f.lo ≤ f.lo + i ∧ f.lo + i < f.lo + f.wid := by omega
    rw [Fld.put_getLsbD f hf w v _ h1, if_pos h2]
    simp
  · simp [hi]

/-- Setting a field leaves the fields of other bits alone. -/
theorem Fld.get_put_apart (f g : Fld) (hf : f.ok = true) (hg : g.ok = true)
    (h : f.lo + f.wid ≤ g.lo ∨ g.lo + g.wid ≤ f.lo) (w : Word) (v : Nat) : g.get (f.put w v) = g.get w := by
  have hg' : g.lo + g.wid ≤ 32 := of_decide_eq_true hg
  apply Nat.eq_of_testBit_eq
  intro i
  rw [Fld.get, Fld.get, BitVec.testBit_toNat, BitVec.testBit_toNat, BitVec.getLsbD_extractLsb',
    BitVec.getLsbD_extractLsb']
  by_cases hi : i < g.wid
  · have h1 : g.lo + i < 32 := by omega
    have h2 : ¬ (f.lo ≤ g.lo + i ∧ g.lo + i < f.lo + f.wid) := by omega
    rw [Fld.put_getLsbD f hf w v _ h1, if_neg h2]
  · simp [hi]

theorem rfGet_rfSet_same (rf : RegFile) (f : Fld) (hf : f.ok = true) (v : Nat) :
    rfGet (rfSet rf f v) f = v % 2 ^ f.wid := by
  rw [rfGet, rfSet, Sparse.get_set_same, Fld.get_put_same f hf]

theorem rfGet_rfSet_apart (rf : RegFile) (f g : Fld) (hf : f.ok = true) (hg : g.ok = true) (h : f.apart g = true)
    (v : Nat) : rfGet (rfSet rf f v) g = rfGet rf g := by
  have h' := of_decide_eq_true h
  by_cases ho : f.off = g.off
  · rw [rfGet, rfGet, rfSet, ho, Sparse.get_set_same]
    exact Fld.get_put_apart f g hf hg (h'.resolve_left (absurd ho)) _ _
  · rw [rfGet, rfGet, rfSet, Sparse.get_set_ne _ _ _ (Ne.symm ho)]

theorem rfGet_lt (rf : RegFile) (f : Fld) : rfGet rf f < 2 ^ f.wid := by
  rw [rfGet, Fld.get_eq]
  exact Nat.mod_lt _ (Nat.two_pow_pos _)

namespace State

/-- A register field just set reads the value, modulo its width. -/
theorem rg_setRg_same (s : State) (f : Fld) (hf : f.ok = true) (v : Nat) : (s.setRg f v).rg f = v % 2 ^ f.wid :=
  rfGet_rfSet_same _ f hf v

/-- Setting a field leaves every field of other bits alone. -/
theorem rg_setRg_apart (s : State) (f g : Fld) (hf : f.ok = true) (hg : g.ok = true) (h : f.apart g = true) (v : Nat) :
    (s.setRg f v).rg g = s.rg g :=
  rfGet_rfSet_apart _ f g hf hg h v

/-- Setting a field leaves every other register alone. -/
theorem rd_setRg_ne (s : State) (f : Fld) (v off : Nat) (h : off ≠ f.off) : (s.setRg f v).rd off = s.rd off :=
  Sparse.get_set_ne _ _ _ h

theorem rd_wr_same (s : State) (off : Nat) (w : Word) : (s.wr off w).rd off = w := Sparse.get_set_same _ _ _ _

theorem rd_wr_ne (s : State) (off o : Nat) (w : Word) (h : o ≠ off) : (s.wr off w).rd o = s.rd o :=
  Sparse.get_set_ne _ _ _ h

theorem rg_eq (s : State) (f : Fld) : s.rg f = f.get (s.rd f.off) := rfl

theorem rg_lt (s : State) (f : Fld) : s.rg f < 2 ^ f.wid := rfGet_lt _ f

theorem rg_wr_ne (s : State) (off : Nat) (w : Word) (f : Fld) (h : f.off ≠ off) : (s.wr off w).rg f = s.rg f := by
  rw [rg_eq, rg_eq, rd_wr_ne _ _ _ _ h]

theorem rg_bump_same (s : State) (f : Fld) (hf : f.ok = true) (n : Nat) :
    (s.bump f n).rg f = min (s.rg f + n) (2 ^ f.wid - 1) := by
  have := Nat.two_pow_pos f.wid
  rw [bump, rg_setRg_same s f hf]
  exact Nat.mod_eq_of_lt (by omega)

theorem rg_bump_apart (s : State) (f g : Fld) (hf : f.ok = true) (hg : g.ok = true) (h : f.apart g = true) (n : Nat) :
    (s.bump f n).rg g = s.rg g :=
  rg_setRg_apart s f g hf hg h _

theorem rg_tick_same (s : State) (f : Fld) (hf : f.ok = true) (n : Nat) :
    (s.tick f n).rg f = (s.rg f + n) % 2 ^ f.wid :=
  rg_setRg_same s f hf _

end State

end Sys2Proof.Machine
end

