-- ==== Sys2Proof/Laws/State.lean ====
section
/-!
SUPPORT. The basic updates field by field: what each leaves alone, so that no proof unfolds an update of the state.
-/

namespace Sys2Proof.Machine

namespace State

@[simp] theorem setRg_pending (s : State) (f : Fld) (v : Nat) : (s.setRg f v).pending = s.pending := rfl
@[simp] theorem setRg_now (s : State) (f : Fld) (v : Nat) : (s.setRg f v).now = s.now := rfl
@[simp] theorem setRg_freeN (s : State) (f : Fld) (v : Nat) : (s.setRg f v).freeN = s.freeN := rfl
@[simp] theorem setRg_out (s : State) (f : Fld) (v : Nat) : (s.setRg f v).out = s.out := rfl
@[simp] theorem setRg_resp (s : State) (f : Fld) (v : Nat) : (s.setRg f v).resp = s.resp := rfl
@[simp] theorem setRg_active (s : State) (f : Fld) (v : Nat) : (s.setRg f v).active = s.active := rfl
@[simp] theorem setRg_shadow (s : State) (f : Fld) (v : Nat) : (s.setRg f v).shadow = s.shadow := rfl
@[simp] theorem setRg_swapped (s : State) (f : Fld) (v : Nat) : (s.setRg f v).swapped = s.swapped := rfl
@[simp] theorem setRg_epochs (s : State) (f : Fld) (v : Nat) : (s.setRg f v).epochs = s.epochs := rfl
@[simp] theorem setRg_latches (s : State) (f : Fld) (v : Nat) : (s.setRg f v).latches = s.latches := rfl
@[simp] theorem setRg_mirror (s : State) (f : Fld) (v : Nat) : (s.setRg f v).mirror = s.mirror := rfl
@[simp] theorem setRg_scope (s : State) (f : Fld) (v : Nat) : (s.setRg f v).scope = s.scope := rfl
@[simp] theorem setRg_pw (s : State) (f : Fld) (v : Nat) : (s.setRg f v).pw = s.pw := rfl
@[simp] theorem setRg_sv (s : State) (f : Fld) (v : Nat) : (s.setRg f v).sv = s.sv := rfl
@[simp] theorem setRg_mend (s : State) (f : Fld) (v : Nat) : (s.setRg f v).mend = s.mend := rfl
@[simp] theorem setRg_sx (s : State) (f : Fld) (v : Nat) : (s.setRg f v).sx = s.sx := rfl
@[simp] theorem setRg_fx (s : State) (f : Fld) (v : Nat) : (s.setRg f v).fx = s.fx := rfl
@[simp] theorem setRg_te (s : State) (f : Fld) (v : Nat) : (s.setRg f v).te = s.te := rfl
@[simp] theorem setRg_ob (s : State) (f : Fld) (v : Nat) : (s.setRg f v).ob = s.ob := rfl
@[simp] theorem setRg_px (s : State) (f : Fld) (v : Nat) : (s.setRg f v).px = s.px := rfl
@[simp] theorem setRg_nv (s : State) (f : Fld) (v : Nat) : (s.setRg f v).nv = s.nv := rfl
@[simp] theorem setRg_kx (s : State) (f : Fld) (v : Nat) : (s.setRg f v).kx = s.kx := rfl
@[simp] theorem setRg_ce (s : State) (f : Fld) (v : Nat) : (s.setRg f v).ce = s.ce := rfl
@[simp] theorem setRg_upd (s : State) (f : Fld) (v : Nat) : (s.setRg f v).upd = s.upd := rfl
@[simp] theorem setRg_bx (s : State) (f : Fld) (v : Nat) : (s.setRg f v).bx = s.bx := rfl
@[simp] theorem setRg_aon (s : State) (f : Fld) (v : Nat) : (s.setRg f v).aon = s.aon := rfl
@[simp] theorem setRg_cx (s : State) (f : Fld) (v : Nat) : (s.setRg f v).cx = s.cx := rfl
@[simp] theorem setRg_mx (s : State) (f : Fld) (v : Nat) : (s.setRg f v).mx = s.mx := rfl
@[simp] theorem setRg_act (s : State) (f : Fld) (v : Nat) (g : Fld) : (s.setRg f v).act g = s.act g := rfl
@[simp] theorem setRg_shd (s : State) (f : Fld) (v : Nat) (g : Fld) : (s.setRg f v).shd g = s.shd g := rfl

@[simp] theorem wr_pending (s : State) (off : Nat) (w : Word) : (s.wr off w).pending = s.pending := rfl
@[simp] theorem wr_now (s : State) (off : Nat) (w : Word) : (s.wr off w).now = s.now := rfl
@[simp] theorem wr_freeN (s : State) (off : Nat) (w : Word) : (s.wr off w).freeN = s.freeN := rfl
@[simp] theorem wr_out (s : State) (off : Nat) (w : Word) : (s.wr off w).out = s.out := rfl
@[simp] theorem wr_resp (s : State) (off : Nat) (w : Word) : (s.wr off w).resp = s.resp := rfl
@[simp] theorem wr_active (s : State) (off : Nat) (w : Word) : (s.wr off w).active = s.active := rfl
@[simp] theorem wr_shadow (s : State) (off : Nat) (w : Word) : (s.wr off w).shadow = s.shadow := rfl
@[simp] theorem wr_swapped (s : State) (off : Nat) (w : Word) : (s.wr off w).swapped = s.swapped := rfl
@[simp] theorem wr_epochs (s : State) (off : Nat) (w : Word) : (s.wr off w).epochs = s.epochs := rfl
@[simp] theorem wr_latches (s : State) (off : Nat) (w : Word) : (s.wr off w).latches = s.latches := rfl
@[simp] theorem wr_mirror (s : State) (off : Nat) (w : Word) : (s.wr off w).mirror = s.mirror := rfl
@[simp] theorem wr_scope (s : State) (off : Nat) (w : Word) : (s.wr off w).scope = s.scope := rfl
@[simp] theorem wr_pw (s : State) (off : Nat) (w : Word) : (s.wr off w).pw = s.pw := rfl
@[simp] theorem wr_sv (s : State) (off : Nat) (w : Word) : (s.wr off w).sv = s.sv := rfl
@[simp] theorem wr_mend (s : State) (off : Nat) (w : Word) : (s.wr off w).mend = s.mend := rfl
@[simp] theorem wr_sx (s : State) (off : Nat) (w : Word) : (s.wr off w).sx = s.sx := rfl
@[simp] theorem wr_fx (s : State) (off : Nat) (w : Word) : (s.wr off w).fx = s.fx := rfl
@[simp] theorem wr_te (s : State) (off : Nat) (w : Word) : (s.wr off w).te = s.te := rfl
@[simp] theorem wr_ob (s : State) (off : Nat) (w : Word) : (s.wr off w).ob = s.ob := rfl
@[simp] theorem wr_px (s : State) (off : Nat) (w : Word) : (s.wr off w).px = s.px := rfl
@[simp] theorem wr_nv (s : State) (off : Nat) (w : Word) : (s.wr off w).nv = s.nv := rfl
@[simp] theorem wr_kx (s : State) (off : Nat) (w : Word) : (s.wr off w).kx = s.kx := rfl
@[simp] theorem wr_ce (s : State) (off : Nat) (w : Word) : (s.wr off w).ce = s.ce := rfl
@[simp] theorem wr_upd (s : State) (off : Nat) (w : Word) : (s.wr off w).upd = s.upd := rfl
@[simp] theorem wr_bx (s : State) (off : Nat) (w : Word) : (s.wr off w).bx = s.bx := rfl
@[simp] theorem wr_aon (s : State) (off : Nat) (w : Word) : (s.wr off w).aon = s.aon := rfl
@[simp] theorem wr_cx (s : State) (off : Nat) (w : Word) : (s.wr off w).cx = s.cx := rfl
@[simp] theorem wr_mx (s : State) (off : Nat) (w : Word) : (s.wr off w).mx = s.mx := rfl
@[simp] theorem wr_act (s : State) (off : Nat) (w : Word) (g : Fld) : (s.wr off w).act g = s.act g := rfl
@[simp] theorem wr_shd (s : State) (off : Nat) (w : Word) (g : Fld) : (s.wr off w).shd g = s.shd g := rfl

@[simp] theorem bump_pending (s : State) (f : Fld) (n : Nat) : (s.bump f n).pending = s.pending := rfl
@[simp] theorem bump_now (s : State) (f : Fld) (n : Nat) : (s.bump f n).now = s.now := rfl
@[simp] theorem bump_freeN (s : State) (f : Fld) (n : Nat) : (s.bump f n).freeN = s.freeN := rfl
@[simp] theorem bump_out (s : State) (f : Fld) (n : Nat) : (s.bump f n).out = s.out := rfl
@[simp] theorem bump_resp (s : State) (f : Fld) (n : Nat) : (s.bump f n).resp = s.resp := rfl
@[simp] theorem bump_active (s : State) (f : Fld) (n : Nat) : (s.bump f n).active = s.active := rfl
@[simp] theorem bump_shadow (s : State) (f : Fld) (n : Nat) : (s.bump f n).shadow = s.shadow := rfl
@[simp] theorem bump_swapped (s : State) (f : Fld) (n : Nat) : (s.bump f n).swapped = s.swapped := rfl
@[simp] theorem bump_epochs (s : State) (f : Fld) (n : Nat) : (s.bump f n).epochs = s.epochs := rfl
@[simp] theorem bump_latches (s : State) (f : Fld) (n : Nat) : (s.bump f n).latches = s.latches := rfl
@[simp] theorem bump_mirror (s : State) (f : Fld) (n : Nat) : (s.bump f n).mirror = s.mirror := rfl
@[simp] theorem bump_scope (s : State) (f : Fld) (n : Nat) : (s.bump f n).scope = s.scope := rfl
@[simp] theorem bump_pw (s : State) (f : Fld) (n : Nat) : (s.bump f n).pw = s.pw := rfl
@[simp] theorem bump_sv (s : State) (f : Fld) (n : Nat) : (s.bump f n).sv = s.sv := rfl
@[simp] theorem bump_mend (s : State) (f : Fld) (n : Nat) : (s.bump f n).mend = s.mend := rfl
@[simp] theorem bump_sx (s : State) (f : Fld) (n : Nat) : (s.bump f n).sx = s.sx := rfl
@[simp] theorem bump_fx (s : State) (f : Fld) (n : Nat) : (s.bump f n).fx = s.fx := rfl
@[simp] theorem bump_te (s : State) (f : Fld) (n : Nat) : (s.bump f n).te = s.te := rfl
@[simp] theorem bump_ob (s : State) (f : Fld) (n : Nat) : (s.bump f n).ob = s.ob := rfl
@[simp] theorem bump_px (s : State) (f : Fld) (n : Nat) : (s.bump f n).px = s.px := rfl
@[simp] theorem bump_nv (s : State) (f : Fld) (n : Nat) : (s.bump f n).nv = s.nv := rfl
@[simp] theorem bump_kx (s : State) (f : Fld) (n : Nat) : (s.bump f n).kx = s.kx := rfl
@[simp] theorem bump_ce (s : State) (f : Fld) (n : Nat) : (s.bump f n).ce = s.ce := rfl
@[simp] theorem bump_upd (s : State) (f : Fld) (n : Nat) : (s.bump f n).upd = s.upd := rfl
@[simp] theorem bump_bx (s : State) (f : Fld) (n : Nat) : (s.bump f n).bx = s.bx := rfl
@[simp] theorem bump_aon (s : State) (f : Fld) (n : Nat) : (s.bump f n).aon = s.aon := rfl
@[simp] theorem bump_cx (s : State) (f : Fld) (n : Nat) : (s.bump f n).cx = s.cx := rfl
@[simp] theorem bump_mx (s : State) (f : Fld) (n : Nat) : (s.bump f n).mx = s.mx := rfl
@[simp] theorem bump_act (s : State) (f : Fld) (n : Nat) (g : Fld) : (s.bump f n).act g = s.act g := rfl
@[simp] theorem bump_shd (s : State) (f : Fld) (n : Nat) (g : Fld) : (s.bump f n).shd g = s.shd g := rfl

@[simp] theorem emit_pending (s : State) (o : Output) : (s.emit o).pending = s.pending := rfl
@[simp] theorem emit_now (s : State) (o : Output) : (s.emit o).now = s.now := rfl
@[simp] theorem emit_freeN (s : State) (o : Output) : (s.emit o).freeN = s.freeN := rfl
@[simp] theorem emit_resp (s : State) (o : Output) : (s.emit o).resp = s.resp := rfl
@[simp] theorem emit_regs (s : State) (o : Output) : (s.emit o).regs = s.regs := rfl
@[simp] theorem emit_active (s : State) (o : Output) : (s.emit o).active = s.active := rfl
@[simp] theorem emit_shadow (s : State) (o : Output) : (s.emit o).shadow = s.shadow := rfl
@[simp] theorem emit_swapped (s : State) (o : Output) : (s.emit o).swapped = s.swapped := rfl
@[simp] theorem emit_epochs (s : State) (o : Output) : (s.emit o).epochs = s.epochs := rfl
@[simp] theorem emit_latches (s : State) (o : Output) : (s.emit o).latches = s.latches := rfl
@[simp] theorem emit_mirror (s : State) (o : Output) : (s.emit o).mirror = s.mirror := rfl
@[simp] theorem emit_scope (s : State) (o : Output) : (s.emit o).scope = s.scope := rfl
@[simp] theorem emit_pw (s : State) (o : Output) : (s.emit o).pw = s.pw := rfl
@[simp] theorem emit_sv (s : State) (o : Output) : (s.emit o).sv = s.sv := rfl
@[simp] theorem emit_mend (s : State) (o : Output) : (s.emit o).mend = s.mend := rfl
@[simp] theorem emit_sx (s : State) (o : Output) : (s.emit o).sx = s.sx := rfl
@[simp] theorem emit_fx (s : State) (o : Output) : (s.emit o).fx = s.fx := rfl
@[simp] theorem emit_te (s : State) (o : Output) : (s.emit o).te = s.te := rfl
@[simp] theorem emit_ob (s : State) (o : Output) : (s.emit o).ob = s.ob := rfl
@[simp] theorem emit_px (s : State) (o : Output) : (s.emit o).px = s.px := rfl
@[simp] theorem emit_nv (s : State) (o : Output) : (s.emit o).nv = s.nv := rfl
@[simp] theorem emit_kx (s : State) (o : Output) : (s.emit o).kx = s.kx := rfl
@[simp] theorem emit_ce (s : State) (o : Output) : (s.emit o).ce = s.ce := rfl
@[simp] theorem emit_upd (s : State) (o : Output) : (s.emit o).upd = s.upd := rfl
@[simp] theorem emit_bx (s : State) (o : Output) : (s.emit o).bx = s.bx := rfl
@[simp] theorem emit_aon (s : State) (o : Output) : (s.emit o).aon = s.aon := rfl
@[simp] theorem emit_cx (s : State) (o : Output) : (s.emit o).cx = s.cx := rfl
@[simp] theorem emit_mx (s : State) (o : Output) : (s.emit o).mx = s.mx := rfl
@[simp] theorem emit_rd (s : State) (o : Output) (k : Nat) : (s.emit o).rd k = s.rd k := rfl
@[simp] theorem emit_rg (s : State) (o : Output) (g : Fld) : (s.emit o).rg g = s.rg g := rfl
@[simp] theorem emit_act (s : State) (o : Output) (g : Fld) : (s.emit o).act g = s.act g := rfl
@[simp] theorem emit_shd (s : State) (o : Output) (g : Fld) : (s.emit o).shd g = s.shd g := rfl

@[simp] theorem useFree_pending (s : State) : (s.useFree).pending = s.pending := rfl
@[simp] theorem useFree_now (s : State) : (s.useFree).now = s.now := rfl
@[simp] theorem useFree_out (s : State) : (s.useFree).out = s.out := rfl
@[simp] theorem useFree_resp (s : State) : (s.useFree).resp = s.resp := rfl
@[simp] theorem useFree_regs (s : State) : (s.useFree).regs = s.regs := rfl
@[simp] theorem useFree_active (s : State) : (s.useFree).active = s.active := rfl
@[simp] theorem useFree_shadow (s : State) : (s.useFree).shadow = s.shadow := rfl
@[simp] theorem useFree_swapped (s : State) : (s.useFree).swapped = s.swapped := rfl
@[simp] theorem useFree_epochs (s : State) : (s.useFree).epochs = s.epochs := rfl
@[simp] theorem useFree_latches (s : State) : (s.useFree).latches = s.latches := rfl
@[simp] theorem useFree_mirror (s : State) : (s.useFree).mirror = s.mirror := rfl
@[simp] theorem useFree_scope (s : State) : (s.useFree).scope = s.scope := rfl
@[simp] theorem useFree_pw (s : State) : (s.useFree).pw = s.pw := rfl
@[simp] theorem useFree_sv (s : State) : (s.useFree).sv = s.sv := rfl
@[simp] theorem useFree_mend (s : State) : (s.useFree).mend = s.mend := rfl
@[simp] theorem useFree_sx (s : State) : (s.useFree).sx = s.sx := rfl
@[simp] theorem useFree_fx (s : State) : (s.useFree).fx = s.fx := rfl
@[simp] theorem useFree_te (s : State) : (s.useFree).te = s.te := rfl
@[simp] theorem useFree_ob (s : State) : (s.useFree).ob = s.ob := rfl
@[simp] theorem useFree_px (s : State) : (s.useFree).px = s.px := rfl
@[simp] theorem useFree_nv (s : State) : (s.useFree).nv = s.nv := rfl
@[simp] theorem useFree_kx (s : State) : (s.useFree).kx = s.kx := rfl
@[simp] theorem useFree_ce (s : State) : (s.useFree).ce = s.ce := rfl
@[simp] theorem useFree_upd (s : State) : (s.useFree).upd = s.upd := rfl
@[simp] theorem useFree_bx (s : State) : (s.useFree).bx = s.bx := rfl
@[simp] theorem useFree_aon (s : State) : (s.useFree).aon = s.aon := rfl
@[simp] theorem useFree_cx (s : State) : (s.useFree).cx = s.cx := rfl
@[simp] theorem useFree_mx (s : State) : (s.useFree).mx = s.mx := rfl
@[simp] theorem useFree_rd (s : State) (k : Nat) : (s.useFree).rd k = s.rd k := rfl
@[simp] theorem useFree_rg (s : State) (g : Fld) : (s.useFree).rg g = s.rg g := rfl
@[simp] theorem useFree_act (s : State) (g : Fld) : (s.useFree).act g = s.act g := rfl
@[simp] theorem useFree_shd (s : State) (g : Fld) : (s.useFree).shd g = s.shd g := rfl

@[simp] theorem answer_pending (s : State) (r : Resp) : (s.answer r).pending = s.pending := rfl
@[simp] theorem answer_now (s : State) (r : Resp) : (s.answer r).now = s.now := rfl
@[simp] theorem answer_freeN (s : State) (r : Resp) : (s.answer r).freeN = s.freeN := rfl
@[simp] theorem answer_out (s : State) (r : Resp) : (s.answer r).out = s.out := rfl
@[simp] theorem answer_regs (s : State) (r : Resp) : (s.answer r).regs = s.regs := rfl
@[simp] theorem answer_active (s : State) (r : Resp) : (s.answer r).active = s.active := rfl
@[simp] theorem answer_shadow (s : State) (r : Resp) : (s.answer r).shadow = s.shadow := rfl
@[simp] theorem answer_swapped (s : State) (r : Resp) : (s.answer r).swapped = s.swapped := rfl
@[simp] theorem answer_epochs (s : State) (r : Resp) : (s.answer r).epochs = s.epochs := rfl
@[simp] theorem answer_latches (s : State) (r : Resp) : (s.answer r).latches = s.latches := rfl
@[simp] theorem answer_mirror (s : State) (r : Resp) : (s.answer r).mirror = s.mirror := rfl
@[simp] theorem answer_scope (s : State) (r : Resp) : (s.answer r).scope = s.scope := rfl
@[simp] theorem answer_pw (s : State) (r : Resp) : (s.answer r).pw = s.pw := rfl
@[simp] theorem answer_sv (s : State) (r : Resp) : (s.answer r).sv = s.sv := rfl
@[simp] theorem answer_mend (s : State) (r : Resp) : (s.answer r).mend = s.mend := rfl
@[simp] theorem answer_sx (s : State) (r : Resp) : (s.answer r).sx = s.sx := rfl
@[simp] theorem answer_fx (s : State) (r : Resp) : (s.answer r).fx = s.fx := rfl
@[simp] theorem answer_te (s : State) (r : Resp) : (s.answer r).te = s.te := rfl
@[simp] theorem answer_ob (s : State) (r : Resp) : (s.answer r).ob = s.ob := rfl
@[simp] theorem answer_px (s : State) (r : Resp) : (s.answer r).px = s.px := rfl
@[simp] theorem answer_nv (s : State) (r : Resp) : (s.answer r).nv = s.nv := rfl
@[simp] theorem answer_kx (s : State) (r : Resp) : (s.answer r).kx = s.kx := rfl
@[simp] theorem answer_ce (s : State) (r : Resp) : (s.answer r).ce = s.ce := rfl
@[simp] theorem answer_upd (s : State) (r : Resp) : (s.answer r).upd = s.upd := rfl
@[simp] theorem answer_bx (s : State) (r : Resp) : (s.answer r).bx = s.bx := rfl
@[simp] theorem answer_aon (s : State) (r : Resp) : (s.answer r).aon = s.aon := rfl
@[simp] theorem answer_cx (s : State) (r : Resp) : (s.answer r).cx = s.cx := rfl
@[simp] theorem answer_mx (s : State) (r : Resp) : (s.answer r).mx = s.mx := rfl
@[simp] theorem answer_rd (s : State) (r : Resp) (k : Nat) : (s.answer r).rd k = s.rd k := rfl
@[simp] theorem answer_rg (s : State) (r : Resp) (g : Fld) : (s.answer r).rg g = s.rg g := rfl
@[simp] theorem answer_act (s : State) (r : Resp) (g : Fld) : (s.answer r).act g = s.act g := rfl
@[simp] theorem answer_shd (s : State) (r : Resp) (g : Fld) : (s.answer r).shd g = s.shd g := rfl

@[simp] theorem setShd_pending (s : State) (f : Fld) (v : Nat) : (s.setShd f v).pending = s.pending := rfl
@[simp] theorem setShd_now (s : State) (f : Fld) (v : Nat) : (s.setShd f v).now = s.now := rfl
@[simp] theorem setShd_freeN (s : State) (f : Fld) (v : Nat) : (s.setShd f v).freeN = s.freeN := rfl
@[simp] theorem setShd_out (s : State) (f : Fld) (v : Nat) : (s.setShd f v).out = s.out := rfl
@[simp] theorem setShd_resp (s : State) (f : Fld) (v : Nat) : (s.setShd f v).resp = s.resp := rfl
@[simp] theorem setShd_regs (s : State) (f : Fld) (v : Nat) : (s.setShd f v).regs = s.regs := rfl
@[simp] theorem setShd_active (s : State) (f : Fld) (v : Nat) : (s.setShd f v).active = s.active := rfl
@[simp] theorem setShd_swapped (s : State) (f : Fld) (v : Nat) : (s.setShd f v).swapped = s.swapped := rfl
@[simp] theorem setShd_epochs (s : State) (f : Fld) (v : Nat) : (s.setShd f v).epochs = s.epochs := rfl
@[simp] theorem setShd_latches (s : State) (f : Fld) (v : Nat) : (s.setShd f v).latches = s.latches := rfl
@[simp] theorem setShd_mirror (s : State) (f : Fld) (v : Nat) : (s.setShd f v).mirror = s.mirror := rfl
@[simp] theorem setShd_scope (s : State) (f : Fld) (v : Nat) : (s.setShd f v).scope = s.scope := rfl
@[simp] theorem setShd_pw (s : State) (f : Fld) (v : Nat) : (s.setShd f v).pw = s.pw := rfl
@[simp] theorem setShd_sv (s : State) (f : Fld) (v : Nat) : (s.setShd f v).sv = s.sv := rfl
@[simp] theorem setShd_mend (s : State) (f : Fld) (v : Nat) : (s.setShd f v).mend = s.mend := rfl
@[simp] theorem setShd_sx (s : State) (f : Fld) (v : Nat) : (s.setShd f v).sx = s.sx := rfl
@[simp] theorem setShd_fx (s : State) (f : Fld) (v : Nat) : (s.setShd f v).fx = s.fx := rfl
@[simp] theorem setShd_te (s : State) (f : Fld) (v : Nat) : (s.setShd f v).te = s.te := rfl
@[simp] theorem setShd_ob (s : State) (f : Fld) (v : Nat) : (s.setShd f v).ob = s.ob := rfl
@[simp] theorem setShd_px (s : State) (f : Fld) (v : Nat) : (s.setShd f v).px = s.px := rfl
@[simp] theorem setShd_nv (s : State) (f : Fld) (v : Nat) : (s.setShd f v).nv = s.nv := rfl
@[simp] theorem setShd_kx (s : State) (f : Fld) (v : Nat) : (s.setShd f v).kx = s.kx := rfl
@[simp] theorem setShd_ce (s : State) (f : Fld) (v : Nat) : (s.setShd f v).ce = s.ce := rfl
@[simp] theorem setShd_upd (s : State) (f : Fld) (v : Nat) : (s.setShd f v).upd = s.upd := rfl
@[simp] theorem setShd_bx (s : State) (f : Fld) (v : Nat) : (s.setShd f v).bx = s.bx := rfl
@[simp] theorem setShd_aon (s : State) (f : Fld) (v : Nat) : (s.setShd f v).aon = s.aon := rfl
@[simp] theorem setShd_cx (s : State) (f : Fld) (v : Nat) : (s.setShd f v).cx = s.cx := rfl
@[simp] theorem setShd_mx (s : State) (f : Fld) (v : Nat) : (s.setShd f v).mx = s.mx := rfl
@[simp] theorem setShd_rd (s : State) (f : Fld) (v : Nat) (k : Nat) : (s.setShd f v).rd k = s.rd k := rfl
@[simp] theorem setShd_rg (s : State) (f : Fld) (v : Nat) (g : Fld) : (s.setShd f v).rg g = s.rg g := rfl
@[simp] theorem setShd_act (s : State) (f : Fld) (v : Nat) (g : Fld) : (s.setShd f v).act g = s.act g := rfl

@[simp] theorem emit_out (s : State) (x : Output) : (s.emit x).out = x :: s.out := rfl
@[simp] theorem useFree_freeN (s : State) : s.useFree.freeN = s.freeN + 1 := rfl
@[simp] theorem answer_resp (s : State) (r : Resp) : (s.answer r).resp = r := rfl

end State

end Sys2Proof.Machine
end

