-- ==== Sys2Proof/Laws/Events.lean ====
section
/-!
SUPPORT. The event hub: what raising an event leaves alone, that the event is set afterwards, and that an occurrence of an
event already set changes nothing.
-/

namespace Sys2Proof.Machine

namespace State

theorem raise_moves (s : State) (n : Nat) (i : Option Agent) : moves [.out, .regs, .scope] s (s.raise n i) :=
  moves_raise (List.Subset.refl _) (moves_refl s)

@[simp] theorem raise_pending (s : State) (n : Nat) (i : Option Agent) : (s.raise n i).pending = s.pending :=
  (raise_moves s n i).1 .pending (by decide)
@[simp] theorem raise_now (s : State) (n : Nat) (i : Option Agent) : (s.raise n i).now = s.now :=
  (raise_moves s n i).1 .now (by decide)
@[simp] theorem raise_freeN (s : State) (n : Nat) (i : Option Agent) : (s.raise n i).freeN = s.freeN :=
  (raise_moves s n i).1 .freeN (by decide)
@[simp] theorem raise_resp (s : State) (n : Nat) (i : Option Agent) : (s.raise n i).resp = s.resp :=
  (raise_moves s n i).1 .resp (by decide)
@[simp] theorem raise_active (s : State) (n : Nat) (i : Option Agent) : (s.raise n i).active = s.active :=
  (raise_moves s n i).1 .active (by decide)
@[simp] theorem raise_shadow (s : State) (n : Nat) (i : Option Agent) : (s.raise n i).shadow = s.shadow :=
  (raise_moves s n i).1 .shadow (by decide)
@[simp] theorem raise_swapped (s : State) (n : Nat) (i : Option Agent) : (s.raise n i).swapped = s.swapped :=
  (raise_moves s n i).1 .swapped (by decide)
@[simp] theorem raise_epochs (s : State) (n : Nat) (i : Option Agent) : (s.raise n i).epochs = s.epochs :=
  (raise_moves s n i).1 .epochs (by decide)
@[simp] theorem raise_latches (s : State) (n : Nat) (i : Option Agent) : (s.raise n i).latches = s.latches :=
  (raise_moves s n i).1 .latches (by decide)
@[simp] theorem raise_mirror (s : State) (n : Nat) (i : Option Agent) : (s.raise n i).mirror = s.mirror :=
  (raise_moves s n i).1 .mirror (by decide)
@[simp] theorem raise_pw (s : State) (n : Nat) (i : Option Agent) : (s.raise n i).pw = s.pw :=
  (raise_moves s n i).1 .pw (by decide)
@[simp] theorem raise_sv (s : State) (n : Nat) (i : Option Agent) : (s.raise n i).sv = s.sv :=
  (raise_moves s n i).1 .sv (by decide)
@[simp] theorem raise_mend (s : State) (n : Nat) (i : Option Agent) : (s.raise n i).mend = s.mend :=
  (raise_moves s n i).1 .mend (by decide)
@[simp] theorem raise_sx (s : State) (n : Nat) (i : Option Agent) : (s.raise n i).sx = s.sx :=
  (raise_moves s n i).1 .sx (by decide)
@[simp] theorem raise_fx (s : State) (n : Nat) (i : Option Agent) : (s.raise n i).fx = s.fx :=
  (raise_moves s n i).1 .fx (by decide)
@[simp] theorem raise_te (s : State) (n : Nat) (i : Option Agent) : (s.raise n i).te = s.te :=
  (raise_moves s n i).1 .te (by decide)
@[simp] theorem raise_ob (s : State) (n : Nat) (i : Option Agent) : (s.raise n i).ob = s.ob :=
  (raise_moves s n i).1 .ob (by decide)
@[simp] theorem raise_px (s : State) (n : Nat) (i : Option Agent) : (s.raise n i).px = s.px :=
  (raise_moves s n i).1 .px (by decide)
@[simp] theorem raise_nv (s : State) (n : Nat) (i : Option Agent) : (s.raise n i).nv = s.nv :=
  (raise_moves s n i).1 .nv (by decide)
@[simp] theorem raise_kx (s : State) (n : Nat) (i : Option Agent) : (s.raise n i).kx = s.kx :=
  (raise_moves s n i).1 .kx (by decide)
@[simp] theorem raise_ce (s : State) (n : Nat) (i : Option Agent) : (s.raise n i).ce = s.ce :=
  (raise_moves s n i).1 .ce (by decide)
@[simp] theorem raise_upd (s : State) (n : Nat) (i : Option Agent) : (s.raise n i).upd = s.upd :=
  (raise_moves s n i).1 .upd (by decide)
@[simp] theorem raise_bx (s : State) (n : Nat) (i : Option Agent) : (s.raise n i).bx = s.bx :=
  (raise_moves s n i).1 .bx (by decide)
@[simp] theorem raise_aon (s : State) (n : Nat) (i : Option Agent) : (s.raise n i).aon = s.aon :=
  (raise_moves s n i).1 .aon (by decide)
@[simp] theorem raise_cx (s : State) (n : Nat) (i : Option Agent) : (s.raise n i).cx = s.cx :=
  (raise_moves s n i).1 .cx (by decide)
@[simp] theorem raise_mx (s : State) (n : Nat) (i : Option Agent) : (s.raise n i).mx = s.mx :=
  (raise_moves s n i).1 .mx (by decide)

@[simp] theorem sendVec_regs (s : State) (v : Nat) : (s.sendVec v).regs = s.regs := by
  unfold sendVec; split <;> rfl

theorem forEach_emit_regs {α : Type} (s : State) (l : List α) (f : α → Output) :
    (s.forEach l (fun t k => t.emit (f k))).regs = s.regs := by
  unfold forEach
  induction l generalizing s with
  | nil => rfl
  | cons a l ih => exact (ih (s.emit (f a))).trans rfl

@[simp] theorem notifyAll_regs (s : State) (n : Nat) (i : Option Agent) : (s.notifyAll n i).regs = s.regs := by
  unfold notifyAll
  split
  · exact forEach_emit_regs s _ _
  · rfl

/-- The registers after an event of a powered SoC die that was not set: its status word alone has changed (R42). -/
theorem raise_regs (s : State) (n : Nat) (i : Option Agent) (hu : s.socUp = true) (hn : s.evSet n = false) :
    (s.raise n i).regs = (s.setRg (F.SV_EV_STATUS_EV (n / 32))
      (setBit (s.rg (F.SV_EV_STATUS_EV (n / 32))) (n % 32))).regs := by
  unfold raise
  simp only [hu, hn, Bool.not_true, Bool.or_self, Bool.false_eq_true, if_false]
  repeat' split
  all_goals simp only [sendVec_regs, notifyAll_regs]
  all_goals rfl

/-- An event that cannot be latched, or is set already, changes nothing (R42). -/
theorem raise_idle (s : State) (n : Nat) (i : Option Agent) (h : s.socUp = false ∨ s.evSet n = true) :
    s.raise n i = s := by
  unfold raise
  rcases h with h | h <;> simp [h]

/-- Raising an event leaves every register but its status word alone. -/
theorem rd_raise (s : State) (n : Nat) (i : Option Agent) (off : Nat) (h : off ≠ 0x2000 + 4 * (n / 32)) :
    (s.raise n i).rd off = s.rd off := by
  by_cases hc : s.socUp = false ∨ s.evSet n = true
  · rw [raise_idle s n i hc]
  · simp only [not_or, Bool.not_eq_false, Bool.not_eq_true] at hc
    unfold rd
    rw [raise_regs s n i hc.1 hc.2]
    exact rd_setRg_ne s _ _ off h

theorem rg_raise (s : State) (n : Nat) (i : Option Agent) (f : Fld) (h : f.off ≠ 0x2000 + 4 * (n / 32)) :
    (s.raise n i).rg f = s.rg f := by
  rw [rg_eq, rg_eq, rd_raise s n i _ h]

theorem setBit_testBit (m i : Nat) : (setBit m i).testBit i = true := by
  unfold setBit
  rw [show Nat.lor m (2 ^ i) = m ||| 2 ^ i from rfl, Nat.testBit_or, Nat.testBit_two_pow_self, Bool.or_true]

/-- After an event of a powered SoC die its status bit is set (R42). -/
theorem evSet_raise (s : State) (n : Nat) (i : Option Agent) (hu : s.socUp = true) : (s.raise n i).evSet n = true := by
  by_cases hn : s.evSet n = true
  · rw [raise_idle s n i (.inr hn)]; exact hn
  · have hn' : s.evSet n = false := by simpa using hn
    unfold evSet rg
    rw [raise_regs s n i hu hn']
    rw [show rfGet (s.setRg (F.SV_EV_STATUS_EV (n / 32)) (setBit (s.rg (F.SV_EV_STATUS_EV (n / 32))) (n % 32))).regs
        (F.SV_EV_STATUS_EV (n / 32)) = (setBit (s.rg (F.SV_EV_STATUS_EV (n / 32))) (n % 32)) % 2 ^ 32 from
      rg_setRg_same s _ rfl _]
    rw [Nat.testBit_mod_two_pow, setBit_testBit]
    simp [Nat.mod_lt]

@[simp] theorem raise_act (s : State) (n : Nat) (i : Option Agent) (g : Fld) : (s.raise n i).act g = s.act g := by
  unfold act activeOf; rw [raise_active]

@[simp] theorem raise_socUp (s : State) (n : Nat) (i : Option Agent) : (s.raise n i).socUp = s.socUp := by
  unfold socUp; rw [raise_pw]

/-- A powered SoC die latches an event that the power die raises. -/
theorem raisePw_up (s : State) (n : Nat) (hu : s.socUp = true) : s.raisePw n = s.raise n := by
  unfold raisePw; simp [hu]

@[simp] theorem setRg_socUp (s : State) (f : Fld) (v : Nat) : (s.setRg f v).socUp = s.socUp := rfl
@[simp] theorem bump_socUp (s : State) (f : Fld) (v : Nat) : (s.bump f v).socUp = s.socUp := rfl
@[simp] theorem emit_socUp (s : State) (o : Output) : (s.emit o).socUp = s.socUp := rfl

/-- A command of an agent that reaches the block acts, and is answered. -/
theorem byAgent_reaches (s : State) (a : Agent) (f : State → State) (h : s.reaches a = true) :
    s.byAgent a f = (f s).answer .done := by
  unfold byAgent; simp [h]

/-- Only an agent that reaches the block has the SoC die up. -/
theorem socUp_of_reaches (s : State) (a : Agent) (h : s.reaches a = true) : s.socUp = true := by
  unfold reaches at h; simp only [Bool.and_eq_true] at h; exact h.1

end State

end Sys2Proof.Machine
end

