-- ==== Sys2Proof/Laws/MovesRecords.lean ====
section
/-!
SUPPORT. What each operation of Machine/Records.lean can do: the parts of the state it may change, and what it keeps
(`moves`, Safety.lean). One lemma for each operation; callers cite it and do not unfold the operation.
-/

set_option linter.unusedTactic false
set_option linter.unreachableTactic false
set_option linter.unusedSimpArgs false

namespace Sys2Proof.Machine

open State

theorem moves_pmuAdd {ps : List Part} {s0 s : State} {x1} {x2} (_hp : [.out, .regs, .scope] ⊆ ps) (h : moves ps s0 s) :
    moves ps s0 (State.pmuAdd s x1 x2) := by
  unfold State.pmuAdd
  (try dsimp only)
  repeat' first
    | with_reducible assumption
    | split
    | with_reducible apply moves_wr64
    | with_reducible apply moves_raise
    | with_reducible apply moves_setRg
    | exact _hp (by decide)
    | exact List.Subset.trans (by decide) _hp
    | intro _

theorem moves_pmu {ps : List Part} {s0 s : State} {x1} {x2} {x3} (_hp : [.out, .regs, .scope] ⊆ ps) (h : moves ps s0 s) :
    moves ps s0 (State.pmu s x1 x2 x3) := by
  unfold State.pmu
  (try dsimp only)
  repeat' first
    | with_reducible assumption
    | split
    | with_reducible apply moves_forEach
    | with_reducible apply moves_pmuAdd
    | exact _hp (by decide)
    | exact List.Subset.trans (by decide) _hp
    | intro _

theorem moves_settleSlots {ps : List Part} {s0 s : State} {x1} (_hp : [.regs] ⊆ ps) (h : moves ps s0 s) :
    moves ps s0 (State.settleSlots s x1) := by
  unfold State.settleSlots
  (try dsimp only)
  repeat' first
    | with_reducible assumption
    | split
    | with_reducible apply moves_setRg
    | with_reducible apply moves_bump64
    | exact _hp (by decide)
    | exact List.Subset.trans (by decide) _hp
    | intro _

theorem moves_setRing {ps : List Part} {s0 s : State} {x1} {x2} (_hp : [.ob] ⊆ ps) (h : moves ps s0 s) :
    moves ps s0 (State.setRing s x1 x2) := by
  unfold State.setRing
  (try dsimp only)
  repeat' first
    | with_reducible assumption
    | split
    | with_reducible apply moves_upd_ob
    | exact _hp (by decide)
    | exact List.Subset.trans (by decide) _hp
    | intro _

theorem moves_ringLost {ps : List Part} {s0 s : State} {x1} (_hp : [.out, .regs, .scope] ⊆ ps) (h : moves ps s0 s) :
    moves ps s0 (State.ringLost s x1) := by
  unfold State.ringLost
  (try dsimp only)
  repeat' first
    | with_reducible assumption
    | split
    | with_reducible apply moves_bump
    | with_reducible apply moves_raise
    | exact _hp (by decide)
    | exact List.Subset.trans (by decide) _hp
    | intro _

theorem moves_ringPush {ps : List Part} {s0 s : State} {x1} {x2} (_hp : [.out, .regs, .scope, .ob] ⊆ ps) (h : moves ps s0 s) :
    moves ps s0 (State.ringPush s x1 x2) := by
  unfold State.ringPush
  (try dsimp only)
  repeat' first
    | with_reducible assumption
    | split
    | with_reducible apply moves_ringLost
    | with_reducible apply moves_setRing
    | exact _hp (by decide)
    | exact List.Subset.trans (by decide) _hp
    | intro _

theorem moves_ledgerAdd {ps : List Part} {s0 s : State} {x1} {x2} (_hp : [.out, .regs, .scope, .ob] ⊆ ps) (h : moves ps s0 s) :
    moves ps s0 (State.ledgerAdd s x1 x2) := by
  unfold State.ledgerAdd
  (try dsimp only)
  repeat' first
    | with_reducible assumption
    | split
    | with_reducible apply moves_raise
    | with_reducible apply moves_bump
    | with_reducible apply moves_upd_ob
    | exact _hp (by decide)
    | exact List.Subset.trans (by decide) _hp
    | intro _

theorem moves_faultMerge {ps : List Part} {s0 s : State} {x1} (_hp : [.regs] ⊆ ps) (h : moves ps s0 s) :
    moves ps s0 (State.faultMerge s x1) := by
  unfold State.faultMerge
  (try dsimp only)
  repeat' first
    | with_reducible assumption
    | split
    | with_reducible apply moves_setRg
    | with_reducible apply moves_bump
    | exact _hp (by decide)
    | exact List.Subset.trans (by decide) _hp
    | intro _

theorem moves_faultNew {ps : List Part} {s0 s : State} {x1} {x2} {x3} (_hp : [.out, .regs, .scope, .ob] ⊆ ps) (h : moves ps s0 s) :
    moves ps s0 (State.faultNew s x1 x2 x3) := by
  unfold State.faultNew
  (try dsimp only)
  repeat' first
    | with_reducible assumption
    | split
    | with_reducible apply moves_bump
    | with_reducible apply moves_wr
    | with_reducible apply moves_setRg
    | with_reducible apply moves_tick
    | with_reducible apply moves_raise
    | with_reducible apply moves_upd_ob
    | exact _hp (by decide)
    | exact List.Subset.trans (by decide) _hp
    | intro _

theorem moves_fault {ps : List Part} {s0 s : State} {x1} {x2} {x3} {x4} (_hp : [.out, .regs, .scope, .ob] ⊆ ps) (h : moves ps s0 s) :
    moves ps s0 (State.fault s x1 x2 x3 x4) := by
  unfold State.fault
  (try dsimp only)
  repeat' first
    | with_reducible assumption
    | split
    | with_reducible apply moves_bump
    | with_reducible apply moves_faultMerge
    | with_reducible apply moves_faultNew
    | with_reducible apply moves_ledgerAdd
    | exact _hp (by decide)
    | exact List.Subset.trans (by decide) _hp
    | intro _

end Sys2Proof.Machine
end

