-- ==== Sys2Proof/Laws/MovesPwOps.lean ====
section
/-!
SUPPORT. What each operation of Machine/PwOps.lean can do: the parts of the state it may change, and what it keeps
(`moves`, Safety.lean). One lemma for each operation; callers cite it and do not unfold the operation.
-/

set_option linter.unusedTactic false
set_option linter.unreachableTactic false
set_option linter.unusedSimpArgs false

namespace Sys2Proof.Machine

open State

theorem moves_raisePw {ps : List Part} {s0 s : State} {x1} (_hp : [.out, .regs, .scope, .aon] ⊆ ps) (h : moves ps s0 s) :
    moves ps s0 (State.raisePw s x1) := by
  unfold State.raisePw
  (try dsimp only)
  repeat' first
    | with_reducible assumption
    | split
    | with_reducible apply moves_raise
    | with_reducible apply moves_upd_aon
    | exact _hp (by decide)
    | exact List.Subset.trans (by decide) _hp
    | intro _

theorem moves_setSd {ps : List Part} {s0 s : State} {x1} {x2} (_hp : [.aon] ⊆ ps) (h : moves ps s0 s) :
    moves ps s0 (State.setSd s x1 x2) := by
  unfold State.setSd
  (try dsimp only)
  repeat' first
    | with_reducible assumption
    | split
    | with_reducible apply moves_upd_aon
    | exact _hp (by decide)
    | exact List.Subset.trans (by decide) _hp
    | intro _

theorem moves_needUp {ps : List Part} {s0 s : State} {x1} (_hp : [.aon] ⊆ ps) (h : moves ps s0 s) :
    moves ps s0 (State.needUp s x1) := by
  unfold State.needUp
  (try dsimp only)
  repeat' first
    | with_reducible assumption
    | split
    | with_reducible apply moves_setSd
    | exact _hp (by decide)
    | exact List.Subset.trans (by decide) _hp
    | intro _

theorem moves_setCh {ps : List Part} {s0 s : State} {x1} {x2} (_hp : [.aon] ⊆ ps) (h : moves ps s0 s) :
    moves ps s0 (State.setCh s x1 x2) := by
  unfold State.setCh
  (try dsimp only)
  repeat' first
    | with_reducible assumption
    | split
    | with_reducible apply moves_upd_aon
    | exact _hp (by decide)
    | exact List.Subset.trans (by decide) _hp
    | intro _

theorem moves_toCh {ps : List Part} {s0 s : State} {x1} {x2} (_hp : [.regs] ⊆ ps) (h : moves ps s0 s) :
    moves ps s0 (State.toCh s x1 x2) := by
  unfold State.toCh
  (try dsimp only)
  repeat' first
    | with_reducible assumption
    | split
    | with_reducible apply moves_setRg
    | exact _hp (by decide)
    | exact List.Subset.trans (by decide) _hp
    | intro _

theorem moves_chEvent {ps : List Part} {s0 s : State} {x1} {x2} (_hp : [.out, .regs, .scope, .aon] ⊆ ps) (h : moves ps s0 s) :
    moves ps s0 (State.chEvent s x1 x2) := by
  unfold State.chEvent
  (try dsimp only)
  repeat' first
    | with_reducible assumption
    | split
    | with_reducible apply moves_raisePw
    | with_reducible apply moves_setRg
    | exact _hp (by decide)
    | exact List.Subset.trans (by decide) _hp
    | intro _

theorem moves_turnOn {ps : List Part} {s0 s : State} {x1} (_hp : [.regs, .aon] ⊆ ps) (h : moves ps s0 s) :
    moves ps s0 (State.turnOn s x1) := by
  unfold State.turnOn
  (try dsimp only)
  repeat' first
    | with_reducible assumption
    | split
    | with_reducible apply moves_setCh
    | with_reducible apply moves_toCh
    | exact _hp (by decide)
    | exact List.Subset.trans (by decide) _hp
    | intro _

theorem moves_tripNow {ps : List Part} {s0 s : State} {x1} {x2} (_hp : [.out, .regs, .scope, .aon] ⊆ ps) (h : moves ps s0 s) :
    moves ps s0 (State.tripNow s x1 x2) := by
  unfold State.tripNow
  (try dsimp only)
  repeat' first
    | with_reducible assumption
    | split
    | with_reducible apply moves_setCh
    | with_reducible apply moves_bump
    | with_reducible apply moves_setRg
    | with_reducible apply moves_chEvent
    | with_reducible apply moves_toCh
    | exact _hp (by decide)
    | exact List.Subset.trans (by decide) _hp
    | intro _

theorem moves_tripAlso {ps : List Part} {s0 s : State} {x1} {x2} (_hp : [.regs] ⊆ ps) (h : moves ps s0 s) :
    moves ps s0 (State.tripAlso s x1 x2) := by
  unfold State.tripAlso
  (try dsimp only)
  repeat' first
    | with_reducible assumption
    | split
    | with_reducible apply moves_setRg
    | exact _hp (by decide)
    | exact List.Subset.trans (by decide) _hp
    | intro _

theorem moves_trip {ps : List Part} {s0 s : State} {x1} {x2} (_hp : [.out, .regs, .scope, .aon] ⊆ ps) (h : moves ps s0 s) :
    moves ps s0 (State.trip s x1 x2) := by
  unfold State.trip
  (try dsimp only)
  repeat' first
    | with_reducible assumption
    | split
    | with_reducible apply moves_tripNow
    | with_reducible apply moves_tripAlso
    | exact _hp (by decide)
    | exact List.Subset.trans (by decide) _hp
    | intro _

theorem moves_chJudge {ps : List Part} {s0 s : State} {x1} (_hp : [.regs, .aon] ⊆ ps) (h : moves ps s0 s) :
    moves ps s0 (State.chJudge s x1) := by
  unfold State.chJudge
  (try dsimp only)
  repeat' first
    | with_reducible assumption
    | split
    | with_reducible apply moves_toCh
    | with_reducible apply moves_turnOn
    | exact _hp (by decide)
    | exact List.Subset.trans (by decide) _hp
    | intro _

theorem moves_chsJudge {ps : List Part} {s0 s : State} (_hp : [.regs, .aon] ⊆ ps) (h : moves ps s0 s) :
    moves ps s0 (State.chsJudge s) := by
  unfold State.chsJudge
  (try dsimp only)
  repeat' first
    | with_reducible assumption
    | split
    | with_reducible apply moves_forEach
    | with_reducible apply moves_chJudge
    | exact _hp (by decide)
    | exact List.Subset.trans (by decide) _hp
    | intro _

theorem moves_measure {ps : List Part} {s0 s : State} {x1} {x2} (_hp : [.regs, .aon] ⊆ ps) (h : moves ps s0 s) :
    moves ps s0 (State.measure s x1 x2) := by
  unfold State.measure
  (try dsimp only)
  repeat' first
    | with_reducible assumption
    | split
    | with_reducible apply moves_setRg
    | with_reducible apply moves_setCh
    | exact _hp (by decide)
    | exact List.Subset.trans (by decide) _hp
    | intro _

theorem moves_latchAfter {ps : List Part} {s0 s : State} {x1} {x2} (_hp : [.out, .regs, .scope, .aon] ⊆ ps) (h : moves ps s0 s) :
    moves ps s0 (State.latchAfter s x1 x2) := by
  unfold State.latchAfter
  (try dsimp only)
  repeat' first
    | with_reducible assumption
    | split
    | with_reducible apply moves_chEvent
    | with_reducible apply moves_setRg
    | exact _hp (by decide)
    | exact List.Subset.trans (by decide) _hp
    | intro _

theorem moves_chJudged {ps : List Part} {s0 s : State} {x1} {x2} (_hp : [.out, .regs, .scope, .aon] ⊆ ps) (h : moves ps s0 s) :
    moves ps s0 (State.chJudged s x1 x2) := by
  unfold State.chJudged
  (try dsimp only)
  repeat' first
    | with_reducible assumption
    | split
    | with_reducible apply moves_latchAfter
    | with_reducible apply moves_measure
    | with_reducible apply moves_trip
    | with_reducible apply moves_turnOn
    | with_reducible apply moves_bump
    | with_reducible apply moves_tick
    | with_reducible apply moves_setRg
    | with_reducible apply moves_chJudge
    | exact _hp (by decide)
    | exact List.Subset.trans (by decide) _hp
    | intro _

theorem moves_chUpdate {ps : List Part} {s0 s : State} {x1} {x2} (_hp : [.out, .regs, .scope, .aon] ⊆ ps) (h : moves ps s0 s) :
    moves ps s0 (State.chUpdate s x1 x2) := by
  unfold State.chUpdate
  (try dsimp only)
  repeat' first
    | with_reducible assumption
    | split
    | with_reducible apply moves_chJudged
    | with_reducible apply moves_setCh
    | exact _hp (by decide)
    | exact List.Subset.trans (by decide) _hp
    | intro _

theorem moves_lsCommit {ps : List Part} {s0 s : State} (_hp : [.regs, .aon] ⊆ ps) (h : moves ps s0 s) :
    moves ps s0 (State.lsCommit s) := by
  unfold State.lsCommit
  (try dsimp only)
  repeat' first
    | with_reducible assumption
    | split
    | with_reducible apply moves_chsJudge
    | with_reducible apply moves_forEach
    | with_reducible apply moves_setRg
    | with_reducible apply moves_toCh
    | with_reducible apply moves_upd_aon
    | exact _hp (by decide)
    | exact List.Subset.trans (by decide) _hp
    | intro _

theorem moves_lsBoot {ps : List Part} {s0 s : State} (_hp : [.out, .regs, .scope, .aon] ⊆ ps) (h : moves ps s0 s) :
    moves ps s0 (State.lsBoot s) := by
  unfold State.lsBoot
  (try dsimp only)
  repeat' first
    | with_reducible assumption
    | split
    | with_reducible apply moves_forEach
    | with_reducible apply moves_toCh
    | with_reducible apply moves_lsCommit
    | with_reducible apply moves_setRg
    | with_reducible apply moves_raise
    | with_reducible apply moves_upd_aon
    | exact _hp (by decide)
    | exact List.Subset.trans (by decide) _hp
    | intro _

theorem moves_startRails {ps : List Part} {s0 s : State} {x1} {x2} (_hp : [.pw] ⊆ ps) (h : moves ps s0 s) :
    moves ps s0 (State.startRails s x1 x2) := by
  unfold State.startRails
  (try dsimp only)
  repeat' first
    | with_reducible assumption
    | split
    | with_reducible apply moves_upd_pw
    | exact _hp (by decide)
    | exact List.Subset.trans (by decide) _hp
    | intro _

theorem moves_tryRun {ps : List Part} {s0 s : State} (_hp : [.regs, .pw] ⊆ ps) (h : moves ps s0 s) :
    moves ps s0 (State.tryRun s) := by
  unfold State.tryRun
  (try dsimp only)
  repeat' first
    | with_reducible assumption
    | split
    | with_reducible apply moves_setRg
    | with_reducible apply moves_upd_pw
    | exact _hp (by decide)
    | exact List.Subset.trans (by decide) _hp
    | intro _

theorem moves_wakeRecord {ps : List Part} {s0 s : State} {x1} {x2} {x3} {x4} {x5} (_hp : [.out, .regs, .scope, .ob, .aon] ⊆ ps) (h : moves ps s0 s) :
    moves ps s0 (State.wakeRecord s x1 x2 x3 x4 x5) := by
  unfold State.wakeRecord
  (try dsimp only)
  repeat' first
    | with_reducible assumption
    | split
    | with_reducible apply moves_wr
    | with_reducible apply moves_tick
    | with_reducible apply moves_setRg
    | with_reducible apply moves_raisePw
    | with_reducible apply moves_ledgerAdd
    | with_reducible apply moves_upd_aon
    | exact _hp (by decide)
    | exact List.Subset.trans (by decide) _hp
    | intro _

theorem moves_clearTalk {ps : List Part} {s0 s : State} {x1} (_hp : [.regs] ⊆ ps) (h : moves ps s0 s) :
    moves ps s0 (State.clearTalk s x1) := by
  unfold State.clearTalk
  (try dsimp only)
  repeat' first
    | with_reducible assumption
    | split
    | with_reducible apply moves_forEach
    | with_reducible apply moves_wr
    | exact _hp (by decide)
    | exact List.Subset.trans (by decide) _hp
    | intro _

theorem moves_sdWake {ps : List Part} {s0 s : State} {x1} (_hp : [.regs, .pw, .aon] ⊆ ps) (h : moves ps s0 s) :
    moves ps s0 (State.sdWake s x1) := by
  unfold State.sdWake
  (try dsimp only)
  repeat' first
    | with_reducible assumption
    | split
    | with_reducible apply moves_setSd
    | with_reducible apply moves_chsJudge
    | with_reducible apply moves_clearTalk
    | with_reducible apply moves_tryRun
    | with_reducible apply moves_upd_pw
    | exact _hp (by decide)
    | exact List.Subset.trans (by decide) _hp
    | intro _

theorem moves_sdHold {ps : List Part} {s0 s : State} {x1} (_hp : [.aon] ⊆ ps) (h : moves ps s0 s) :
    moves ps s0 (State.sdHold s x1) := by
  unfold State.sdHold
  (try dsimp only)
  repeat' first
    | with_reducible assumption
    | split
    | with_reducible apply moves_needUp
    | with_reducible apply moves_setSd
    | exact _hp (by decide)
    | exact List.Subset.trans (by decide) _hp
    | intro _

theorem moves_sdLatch {ps : List Part} {s0 s : State} {x1} (_hp : [.aon] ⊆ ps) (h : moves ps s0 s) :
    moves ps s0 (State.sdLatch s x1) := by
  unfold State.sdLatch
  (try dsimp only)
  repeat' first
    | with_reducible assumption
    | split
    | with_reducible apply moves_setSd
    | exact _hp (by decide)
    | exact List.Subset.trans (by decide) _hp
    | intro _

theorem moves_wakeLog {ps : List Part} {s0 s : State} {x1} {x2} {x3} {x4} {x5} {x6} (_hp : [.out, .regs, .scope, .ob, .aon] ⊆ ps) (h : moves ps s0 s) :
    moves ps s0 (State.wakeLog s x1 x2 x3 x4 x5 x6) := by
  unfold State.wakeLog
  (try dsimp only)
  repeat' first
    | with_reducible assumption
    | split
    | with_reducible apply moves_wakeRecord
    | with_reducible apply moves_upd_aon
    | exact _hp (by decide)
    | exact List.Subset.trans (by decide) _hp
    | intro _

theorem moves_wakeDomains {ps : List Part} {s0 s : State} {x1} {x2} {x3} (_hp : [.out, .regs, .scope, .pw, .aon] ⊆ ps) (h : moves ps s0 s) :
    moves ps s0 (State.wakeDomains s x1 x2 x3) := by
  unfold State.wakeDomains
  (try dsimp only)
  repeat' first
    | with_reducible assumption
    | split
    | with_reducible apply moves_forEach
    | with_reducible apply moves_sdLatch
    | with_reducible apply moves_raisePw
    | with_reducible apply moves_sdWake
    | exact _hp (by decide)
    | exact List.Subset.trans (by decide) _hp
    | intro _

theorem moves_wakeRails {ps : List Part} {s0 s : State} {x1} {x2} (_hp : [.pw] ⊆ ps) (h : moves ps s0 s) :
    moves ps s0 (State.wakeRails s x1 x2) := by
  unfold State.wakeRails
  (try dsimp only)
  repeat' first
    | with_reducible assumption
    | split
    | with_reducible apply moves_startRails
    | with_reducible apply moves_upd_pw
    | exact _hp (by decide)
    | exact List.Subset.trans (by decide) _hp
    | intro _

theorem moves_wake {ps : List Part} {s0 s : State} {x1} {x2} {x3} {x4} {x5} (_hp : [.out, .regs, .scope, .pw, .ob, .aon] ⊆ ps) (h : moves ps s0 s) :
    moves ps s0 (State.wake s x1 x2 x3 x4 x5) := by
  unfold State.wake
  (try dsimp only)
  repeat' first
    | with_reducible assumption
    | split
    | with_reducible apply moves_tick
    | with_reducible apply moves_forEach
    | with_reducible apply moves_sdHold
    | with_reducible apply moves_wakeDomains
    | with_reducible apply moves_wakeLog
    | with_reducible apply moves_wakeRails
    | exact _hp (by decide)
    | exact List.Subset.trans (by decide) _hp
    | intro _

theorem moves_localTx {ps : List Part} {s0 s : State} {x1} (_hp : [.out, .regs, .scope, .pw, .ob, .aon] ⊆ ps) (h : moves ps s0 s) :
    moves ps s0 (State.localTx s x1) := by
  unfold State.localTx
  (try dsimp only)
  repeat' first
    | with_reducible assumption
    | split
    | with_reducible apply moves_wake
    | exact _hp (by decide)
    | exact List.Subset.trans (by decide) _hp
    | intro _

theorem moves_t1sFrame {ps : List Part} {s0 s : State} {x1} {x2} (_hp : [.out, .regs, .scope, .pw, .ob, .aon] ⊆ ps) (h : moves ps s0 s) :
    moves ps s0 (State.t1sFrame s x1 x2) := by
  unfold State.t1sFrame
  (try dsimp only)
  repeat' first
    | with_reducible assumption
    | split
    | with_reducible apply moves_wake
    | exact _hp (by decide)
    | exact List.Subset.trans (by decide) _hp
    | intro _

end Sys2Proof.Machine
end

