-- ==== Sys2Proof/Laws/MovesHpRing.lean ====
section
/-!
SUPPORT. What each operation of Machine/HpRing.lean can do: the parts of the state it may change, and what it keeps
(`moves`, Safety.lean). One lemma for each operation; callers cite it and do not unfold the operation.
-/

set_option linter.unusedTactic false
set_option linter.unreachableTactic false
set_option linter.unusedSimpArgs false

namespace Sys2Proof.Machine

open State

theorem moves_dramPut {ps : List Part} {s0 s : State} {x1} {x2} (_hp : [.mx] ⊆ ps) (h : moves ps s0 s) :
    moves ps s0 (State.dramPut s x1 x2) := by
  unfold State.dramPut
  refine ⟨?_, h.2.regs, fun k => Sparse.wf_set _ _ (h.2.dram k), h.2.flash, h.2.fuses, h.2.counter, h.2.ftk,
    h.2.keyHash, h.2.now, h.2.freeN, h.2.out⟩
  intro p hn
  have := h.1 p hn
  cases p <;> first | exact this | exact absurd (_hp (by decide)) hn

theorem moves_dramWr {ps : List Part} {s0 s : State} {x1} {x2} (_hp : [.mx] ⊆ ps) (h : moves ps s0 s) :
    moves ps s0 (State.dramWr s x1 x2) := by
  induction x2 generalizing s x1 with
  | nil => exact h
  | cons b bs ih => exact ih (moves_upd_mx (_hp (by decide)) rfl (moves_dramPut _hp h))

theorem moves_dramBypass {ps : List Part} {s0 s : State} {x1} {x2} (_hp : [.mx] ⊆ ps) (h : moves ps s0 s) :
    moves ps s0 (State.dramBypass s x1 x2) := by
  induction x2 generalizing s x1 with
  | nil => exact h
  | cons b bs ih => exact ih (moves_dramPut _hp h)

theorem moves_cacheWr {ps : List Part} {s0 s : State} {x1} {x2} (_hp : [.mx] ⊆ ps) (h : moves ps s0 s) :
    moves ps s0 (State.cacheWr s x1 x2) := by
  induction x2 generalizing s x1 with
  | nil => exact h
  | cons b bs ih => exact ih (moves_upd_mx (_hp (by decide)) rfl h)

theorem moves_writeBack {ps : List Part} {s0 s : State} (_hp : [.mx] ⊆ ps) (h : moves ps s0 s) :
    moves ps s0 (State.writeBack s) := by
  unfold State.writeBack
  (try dsimp only)
  repeat' first
    | with_reducible assumption
    | split
    | with_reducible apply moves_forEach
    | with_reducible apply moves_dramPut
    | with_reducible apply moves_upd_mx
    | exact rfl
    | exact _hp (by decide)
    | exact List.Subset.trans (by decide) _hp
    | intro _

theorem moves_mayWriteBack {ps : List Part} {s0 s : State} (_hp : [.freeN, .mx] ⊆ ps) (h : moves ps s0 s) :
    moves ps s0 (State.mayWriteBack s) := by
  unfold State.mayWriteBack
  (try dsimp only)
  repeat' first
    | with_reducible assumption
    | split
    | with_reducible apply moves_useFree
    | with_reducible apply moves_writeBack
    | exact _hp (by decide)
    | exact List.Subset.trans (by decide) _hp
    | intro _

theorem moves_arbBytes {ps : List Part} {s0 s : State} {x1} {x2} (_hp : [.regs] ⊆ ps) (h : moves ps s0 s) :
    moves ps s0 (State.arbBytes s x1 x2) := by
  unfold State.arbBytes
  (try dsimp only)
  repeat' first
    | with_reducible assumption
    | split
    | with_reducible apply moves_bump64
    | exact _hp (by decide)
    | exact List.Subset.trans (by decide) _hp
    | intro _

theorem moves_dramUe {ps : List Part} {s0 s : State} {x1} (_hp : [.out, .regs, .scope, .ob, .mx] ⊆ ps) (h : moves ps s0 s) :
    moves ps s0 (State.dramUe s x1) := by
  unfold State.dramUe
  (try dsimp only)
  repeat' first
    | with_reducible assumption
    | split
    | with_reducible apply moves_bump
    | with_reducible apply moves_wr64
    | with_reducible apply moves_raise
    | with_reducible apply moves_fault
    | with_reducible apply moves_upd_mx
    | exact rfl
    | exact _hp (by decide)
    | exact List.Subset.trans (by decide) _hp
    | intro _

theorem moves_setHp {ps : List Part} {s0 s : State} {x1} {x2} (_hp : [.cx] ⊆ ps) (h : moves ps s0 s) :
    moves ps s0 (State.setHp s x1 x2) := by
  unfold State.setHp
  (try dsimp only)
  repeat' first
    | with_reducible assumption
    | split
    | with_reducible apply moves_upd_cx
    | exact _hp (by decide)
    | exact List.Subset.trans (by decide) _hp
    | intro _

theorem moves_hpRaise {ps : List Part} {s0 s : State} {x1} {x2} {x3} (_hp : [.out, .regs, .scope, .cx] ⊆ ps) (h : moves ps s0 s) :
    moves ps s0 (State.hpRaise s x1 x2 x3) := by
  unfold State.hpRaise
  (try dsimp only)
  repeat' first
    | with_reducible assumption
    | split
    | with_reducible apply moves_raise
    | with_reducible apply moves_setRg
    | with_reducible apply moves_setHp
    | exact _hp (by decide)
    | exact List.Subset.trans (by decide) _hp
    | intro _

theorem moves_hpComplete {ps : List Part} {s0 s : State} {x1} {x2} {x3} (_hp : [.out, .regs, .scope, .cx] ⊆ ps) (h : moves ps s0 s) :
    moves ps s0 (State.hpComplete s x1 x2 x3) := by
  unfold State.hpComplete
  (try dsimp only)
  repeat' first
    | with_reducible assumption
    | split
    | with_reducible apply moves_setHp
    | with_reducible apply moves_hpRaise
    | exact _hp (by decide)
    | exact List.Subset.trans (by decide) _hp
    | intro _

theorem moves_hpStop {ps : List Part} {s0 s : State} {x1} {x2} {x3} (_hp : [.out, .regs, .scope, .cx] ⊆ ps) (h : moves ps s0 s) :
    moves ps s0 (State.hpStop s x1 x2 x3) := by
  unfold State.hpStop
  (try dsimp only)
  repeat' first
    | with_reducible assumption
    | split
    | with_reducible apply moves_setHp
    | with_reducible apply moves_raise
    | with_reducible apply moves_bump
    | with_reducible apply moves_setRg
    | exact _hp (by decide)
    | exact List.Subset.trans (by decide) _hp
    | intro _

theorem moves_txDescDone {ps : List Part} {s0 s : State} {x1} {x2} {x3} (_hp : [.regs, .mx] ⊆ ps) (h : moves ps s0 s) :
    moves ps s0 (State.txDescDone s x1 x2 x3) := by
  unfold State.txDescDone
  (try dsimp only)
  repeat' first
    | with_reducible assumption
    | split
    | with_reducible apply moves_dramWr
    | with_reducible apply moves_arbBytes
    | with_reducible apply moves_forEach
    | exact _hp (by decide)
    | exact List.Subset.trans (by decide) _hp
    | intro _

theorem moves_txFlush {ps : List Part} {s0 s : State} {x1} {x2} {x3} (_hp : [.out, .regs, .scope, .cx, .mx] ⊆ ps) (h : moves ps s0 s) :
    moves ps s0 (State.txFlush s x1 x2 x3) := by
  induction x3 generalizing s  with
  | zero =>
    unfold State.txFlush
    (try dsimp only)
    repeat' first
      | with_reducible assumption
      | with_reducible apply moves_txDescDone
      | with_reducible apply moves_setHp
      | with_reducible apply moves_hpComplete
      | with_reducible apply moves_setRg
      | split
      | exact _hp (by decide)
      | exact List.Subset.trans (by decide) _hp
  | succ n ih =>
    unfold State.txFlush
    (try dsimp only)
    repeat' first
      | with_reducible assumption
      | with_reducible apply ih
      | with_reducible apply moves_txDescDone
      | with_reducible apply moves_setHp
      | with_reducible apply moves_hpComplete
      | with_reducible apply moves_setRg
      | split
      | exact _hp (by decide)
      | exact List.Subset.trans (by decide) _hp


theorem moves_modJobs {ps : List Part} {s0 s : State} {x1} {x2} {x3} (_hp : [.cx] ⊆ ps) (h : moves ps s0 s) :
    moves ps s0 (State.modJobs s x1 x2 x3) := by
  unfold State.modJobs
  (try dsimp only)
  repeat' first
    | with_reducible assumption
    | split
    | with_reducible apply moves_setHp
    | exact _hp (by decide)
    | exact List.Subset.trans (by decide) _hp
    | intro _

theorem moves_txStamp {ps : List Part} {s0 s : State} {x1} {x2} {x3} {x4} (_hp : [.cx] ⊆ ps) (h : moves ps s0 s) :
    moves ps s0 (State.txStamp s x1 x2 x3 x4) := by
  unfold State.txStamp
  (try dsimp only)
  repeat' first
    | with_reducible assumption
    | split
    | with_reducible apply moves_modJobs
    | exact _hp (by decide)
    | exact List.Subset.trans (by decide) _hp
    | intro _

theorem moves_txEnded {ps : List Part} {s0 s : State} {x1} {x2} (_hp : [.out, .regs, .scope, .cx, .mx] ⊆ ps) (h : moves ps s0 s) :
    moves ps s0 (State.txEnded s x1 x2) := by
  unfold State.txEnded
  (try dsimp only)
  repeat' first
    | with_reducible assumption
    | split
    | with_reducible apply moves_modJobs
    | with_reducible apply moves_txFlush
    | exact _hp (by decide)
    | exact List.Subset.trans (by decide) _hp
    | intro _

end Sys2Proof.Machine
end

