-- ==== Sys2Proof/Laws/MovesStore.lean ====
section
/-!
SUPPORT. What each operation of Machine/Store.lean can do: the parts of the state it may change, and what it keeps
(`moves`, Safety.lean). One lemma for each operation; callers cite it and do not unfold the operation.
-/

set_option linter.unusedTactic false
set_option linter.unreachableTactic false
set_option linter.unusedSimpArgs false

namespace Sys2Proof.Machine

open State

theorem moves_setFrame {ps : List Part} {s0 s : State} {x1} {x2} (_hp : [.sx] ⊆ ps) (h : moves ps s0 s) :
    moves ps s0 (State.setFrame s x1 x2) := by
  unfold State.setFrame
  (try dsimp only)
  repeat' first
    | with_reducible assumption
    | split
    | with_reducible apply moves_upd_sx
    | exact _hp (by decide)
    | exact List.Subset.trans (by decide) _hp
    | intro _

theorem moves_modFrame {ps : List Part} {s0 s : State} {x1} {x2} (_hp : [.sx] ⊆ ps) (h : moves ps s0 s) :
    moves ps s0 (State.modFrame s x1 x2) := by
  unfold State.modFrame
  (try dsimp only)
  repeat' first
    | with_reducible assumption
    | split
    | with_reducible apply moves_setFrame
    | exact _hp (by decide)
    | exact List.Subset.trans (by decide) _hp
    | intro _

theorem moves_slotBack {ps : List Part} {s0 s : State} (_hp : [.regs] ⊆ ps) (h : moves ps s0 s) :
    moves ps s0 (State.slotBack s) := by
  unfold State.slotBack
  (try dsimp only)
  repeat' first
    | with_reducible assumption
    | split
    | with_reducible apply moves_bump64
    | with_reducible apply moves_bump
    | exact _hp (by decide)
    | exact List.Subset.trans (by decide) _hp
    | intro _

theorem moves_slotUsed {ps : List Part} {s0 s : State} (_hp : [.ob] ⊆ ps) (h : moves ps s0 s) :
    moves ps s0 (State.slotUsed s) := by
  unfold State.slotUsed
  (try dsimp only)
  repeat' first
    | with_reducible assumption
    | split
    | with_reducible apply moves_upd_ob
    | exact _hp (by decide)
    | exact List.Subset.trans (by decide) _hp
    | intro _

theorem moves_setQueue {ps : List Part} {s0 s : State} {x1} {x2} (_hp : [.sx] ⊆ ps) (h : moves ps s0 s) :
    moves ps s0 (State.setQueue s x1 x2) := by
  unfold State.setQueue
  (try dsimp only)
  repeat' first
    | with_reducible assumption
    | split
    | with_reducible apply moves_upd_sx
    | exact _hp (by decide)
    | exact List.Subset.trans (by decide) _hp
    | intro _

theorem moves_setMq {ps : List Part} {s0 s : State} {x1} {x2} {x3} (_hp : [.sx] ⊆ ps) (h : moves ps s0 s) :
    moves ps s0 (State.setMq s x1 x2 x3) := by
  unfold State.setMq
  (try dsimp only)
  repeat' first
    | with_reducible assumption
    | split
    | with_reducible apply moves_upd_sx
    | exact _hp (by decide)
    | exact List.Subset.trans (by decide) _hp
    | intro _

theorem moves_setTx {ps : List Part} {s0 s : State} {x1} {x2} (_hp : [.sx] ⊆ ps) (h : moves ps s0 s) :
    moves ps s0 (State.setTx s x1 x2) := by
  unfold State.setTx
  (try dsimp only)
  repeat' first
    | with_reducible assumption
    | split
    | with_reducible apply moves_upd_sx
    | exact _hp (by decide)
    | exact List.Subset.trans (by decide) _hp
    | intro _

theorem moves_takeCell {ps : List Part} {s0 s : State} {x1} {x2} (_hp : [.out, .regs, .scope, .sx] ⊆ ps) (h : moves ps s0 s) :
    moves ps s0 (State.takeCell s x1 x2) := by
  unfold State.takeCell
  (try dsimp only)
  repeat' first
    | with_reducible assumption
    | split
    | with_reducible apply moves_pmu
    | with_reducible apply moves_modFrame
    | with_reducible apply moves_upd_sx
    | exact _hp (by decide)
    | exact List.Subset.trans (by decide) _hp
    | intro _

theorem moves_takeCells {ps : List Part} {s0 s : State} {x1} {x2} (_hp : [.out, .regs, .scope, .sx] ⊆ ps) (h : moves ps s0 s) :
    moves ps s0 (State.takeCells s x1 x2) := by
  induction x2 generalizing s  with
  | zero =>
    unfold State.takeCells
    (try dsimp only)
    repeat' first
      | with_reducible assumption
      | with_reducible apply moves_takeCell
      | split
      | exact _hp (by decide)
      | exact List.Subset.trans (by decide) _hp
  | succ n ih =>
    unfold State.takeCells
    (try dsimp only)
    repeat' first
      | with_reducible assumption
      | with_reducible apply ih
      | with_reducible apply moves_takeCell
      | split
      | exact _hp (by decide)
      | exact List.Subset.trans (by decide) _hp


theorem moves_rearmMarks {ps : List Part} {s0 s : State} (_hp : [.sx] ⊆ ps) (h : moves ps s0 s) :
    moves ps s0 (State.rearmMarks s) := by
  unfold State.rearmMarks
  (try dsimp only)
  repeat' first
    | with_reducible assumption
    | split
    | with_reducible apply moves_upd_sx
    | exact _hp (by decide)
    | exact List.Subset.trans (by decide) _hp
    | intro _

theorem moves_checkMarks {ps : List Part} {s0 s : State} (_hp : [.out, .regs, .scope, .sx] ⊆ ps) (h : moves ps s0 s) :
    moves ps s0 (State.checkMarks s) := by
  unfold State.checkMarks
  (try dsimp only)
  repeat' first
    | with_reducible assumption
    | split
    | with_reducible apply moves_raise
    | with_reducible apply moves_rearmMarks
    | with_reducible apply moves_upd_sx
    | exact _hp (by decide)
    | exact List.Subset.trans (by decide) _hp
    | intro _

theorem moves_judgeRsv {ps : List Part} {s0 s : State} (_hp : [.out, .regs, .scope] ⊆ ps) (h : moves ps s0 s) :
    moves ps s0 (State.judgeRsv s) := by
  unfold State.judgeRsv
  (try dsimp only)
  repeat' first
    | with_reducible assumption
    | split
    | with_reducible apply moves_raise
    | with_reducible apply moves_setRg
    | exact _hp (by decide)
    | exact List.Subset.trans (by decide) _hp
    | intro _

theorem moves_notePeak {ps : List Part} {s0 s : State} {x1} (_hp : [.regs] ⊆ ps) (h : moves ps s0 s) :
    moves ps s0 (State.notePeak s x1) := by
  unfold State.notePeak
  (try dsimp only)
  repeat' first
    | with_reducible assumption
    | split
    | with_reducible apply moves_setRg
    | exact _hp (by decide)
    | exact List.Subset.trans (by decide) _hp
    | intro _

theorem moves_pegDone {ps : List Part} {s0 s : State} {x1} {x2} {x3} {x4} {x5} {x6} {x7} (_hp : [.out, .regs, .scope, .ob] ⊆ ps) (h : moves ps s0 s) :
    moves ps s0 (State.pegDone s x1 x2 x3 x4 x5 x6 x7) := by
  unfold State.pegDone
  (try dsimp only)
  repeat' first
    | with_reducible assumption
    | split
    | with_reducible apply moves_ringPush
    | exact _hp (by decide)
    | exact List.Subset.trans (by decide) _hp
    | intro _

theorem moves_lineSample {ps : List Part} {s0 s : State} {x1} (_hp : [.freeN, .ob] ⊆ ps) (h : moves ps s0 s) :
    moves ps s0 (State.lineSample s x1).1 := by
  unfold State.lineSample
  (try dsimp only)
  repeat' first
    | with_reducible assumption
    | split
    | with_reducible apply moves_useFree
    | with_reducible apply moves_upd_ob
    | exact _hp (by decide)
    | exact List.Subset.trans (by decide) _hp
    | intro _

theorem moves_lineSample_eq {ps : List Part} {s0 s : State} {x1} (_hp : [.freeN, .ob] ⊆ ps) (h : moves ps s0 s) {t v} (hq : (State.lineSample s x1) = (t, v)) :
    moves ps s0 t := by
  have := moves_lineSample (x1 := x1)  _hp h
  rwa [hq] at this

theorem moves_lineEnd {ps : List Part} {s0 s : State} {x1} (_hp : [.out, .regs, .scope, .ob] ⊆ ps) (h : moves ps s0 s) :
    moves ps s0 (State.lineEnd s x1) := by
  unfold State.lineEnd
  (try dsimp only)
  repeat' first
    | with_reducible assumption
    | split
    | with_reducible apply moves_forEach
    | with_reducible apply moves_ringPush
    | exact _hp (by decide)
    | exact List.Subset.trans (by decide) _hp
    | intro _

theorem moves_lineHits {ps : List Part} {s0 s : State} {x1} (_hp : [.freeN, .ob] ⊆ ps) (h : moves ps s0 s) :
    moves ps s0 (State.lineHits s x1).1 := by
  unfold State.lineHits
  refine moves_foldl_fst ?_ _ (s, _) h
  intro a i k
  exact moves_lineSample (x1 := i) _hp k

theorem moves_lineHits_eq {ps : List Part} {s0 s : State} {x1} (_hp : [.freeN, .ob] ⊆ ps) (h : moves ps s0 s) {t v} (hq : (State.lineHits s x1) = (t, v)) :
    moves ps s0 t := by
  have := moves_lineHits (x1 := x1)  _hp h
  rwa [hq] at this

theorem moves_lineCapture {ps : List Part} {s0 s : State} {x1} {x2} (_hp : [.freeN, .out, .regs, .scope, .sx, .ob] ⊆ ps) (h : moves ps s0 s) :
    moves ps s0 (State.lineCapture s x1 x2) := by
  unfold State.lineCapture
  (try dsimp only)
  repeat' first
    | with_reducible assumption
    | split
    | with_reducible apply moves_lineHits
    | with_reducible refine moves_lineHits_eq ?_ ?_ (by assumption)
    | with_reducible apply moves_lineEnd
    | with_reducible apply moves_modFrame
    | exact _hp (by decide)
    | exact List.Subset.trans (by decide) _hp
    | intro _

theorem moves_freeFrame {ps : List Part} {s0 s : State} {x1} (_hp : [.out, .regs, .scope, .sx, .cx, .mx] ⊆ ps) (h : moves ps s0 s) :
    moves ps s0 (State.freeFrame s x1) := by
  unfold State.freeFrame
  (try dsimp only)
  repeat' first
    | with_reducible assumption
    | split
    | with_reducible apply moves_rearmMarks
    | with_reducible apply moves_setFrame
    | with_reducible apply moves_txEnded
    | with_reducible apply moves_settleSlots
    | exact _hp (by decide)
    | exact List.Subset.trans (by decide) _hp
    | intro _

theorem moves_kidGone {ps : List Part} {s0 s : State} {x1} {x2} (_hp : [.out, .regs, .scope, .sx, .cx, .mx] ⊆ ps) (h : moves ps s0 s) :
    moves ps s0 (State.kidGone s x1 x2) := by
  unfold State.kidGone
  (try dsimp only)
  repeat' first
    | with_reducible assumption
    | split
    | with_reducible apply moves_setFrame
    | with_reducible apply moves_freeFrame
    | exact _hp (by decide)
    | exact List.Subset.trans (by decide) _hp
    | intro _

theorem moves_endFrame {ps : List Part} {s0 s : State} {x1} (_hp : [.out, .regs, .scope, .sx, .cx, .mx] ⊆ ps) (h : moves ps s0 s) :
    moves ps s0 (State.endFrame s x1) := by
  unfold State.endFrame
  (try dsimp only)
  repeat' first
    | with_reducible assumption
    | split
    | with_reducible apply moves_kidGone
    | with_reducible apply moves_freeFrame
    | exact _hp (by decide)
    | exact List.Subset.trans (by decide) _hp
    | intro _

theorem moves_retireSlots {ps : List Part} {s0 s : State} {x1} (_hp : [.regs, .sx] ⊆ ps) (h : moves ps s0 s) :
    moves ps s0 (State.retireSlots s x1) := by
  unfold State.retireSlots
  (try dsimp only)
  repeat' first
    | with_reducible assumption
    | split
    | with_reducible apply moves_setFrame
    | with_reducible apply moves_settleSlots
    | exact _hp (by decide)
    | exact List.Subset.trans (by decide) _hp
    | intro _

theorem moves_readerGone {ps : List Part} {s0 s : State} {x1} (_hp : [.out, .regs, .scope, .sx, .cx, .mx] ⊆ ps) (h : moves ps s0 s) :
    moves ps s0 (State.readerGone s x1) := by
  unfold State.readerGone
  (try dsimp only)
  repeat' first
    | with_reducible assumption
    | split
    | with_reducible apply moves_endFrame
    | with_reducible apply moves_setFrame
    | with_reducible apply moves_rearmMarks
    | exact _hp (by decide)
    | exact List.Subset.trans (by decide) _hp
    | intro _

theorem moves_copyGone {ps : List Part} {s0 s : State} {x1} {x2} (_hp : [.out, .regs, .scope, .sx, .cx, .mx] ⊆ ps) (h : moves ps s0 s) :
    moves ps s0 (State.copyGone s x1 x2) := by
  unfold State.copyGone
  (try dsimp only)
  repeat' first
    | with_reducible assumption
    | split
    | with_reducible apply moves_readerGone
    | with_reducible apply moves_retireSlots
    | exact _hp (by decide)
    | exact List.Subset.trans (by decide) _hp
    | intro _

theorem moves_dropCopy {ps : List Part} {s0 s : State} {x1} {x2} (_hp : [.out, .regs, .scope, .sx, .ob, .cx, .mx] ⊆ ps) (h : moves ps s0 s) :
    moves ps s0 (State.dropCopy s x1 x2) := by
  unfold State.dropCopy
  (try dsimp only)
  repeat' first
    | with_reducible assumption
    | split
    | with_reducible apply moves_copyGone
    | with_reducible apply moves_pegDone
    | exact _hp (by decide)
    | exact List.Subset.trans (by decide) _hp
    | intro _

theorem moves_discardFrame {ps : List Part} {s0 s : State} {x1} (_hp : [.freeN, .out, .regs, .scope, .sx, .ob, .cx, .mx] ⊆ ps) (h : moves ps s0 s) :
    moves ps s0 (State.discardFrame s x1) := by
  unfold State.discardFrame
  (try dsimp only)
  repeat' first
    | with_reducible assumption
    | split
    | with_reducible apply moves_endFrame
    | with_reducible apply moves_lineCapture
    | exact _hp (by decide)
    | exact List.Subset.trans (by decide) _hp
    | intro _

theorem moves_dropFrame {ps : List Part} {s0 s : State} {x1} {x2} (_hp : [.freeN, .out, .regs, .scope, .sx, .ob, .cx, .mx] ⊆ ps) (h : moves ps s0 s) :
    moves ps s0 (State.dropFrame s x1 x2) := by
  unfold State.dropFrame
  (try dsimp only)
  repeat' first
    | with_reducible assumption
    | split
    | with_reducible apply moves_discardFrame
    | with_reducible apply moves_pegDone
    | exact _hp (by decide)
    | exact List.Subset.trans (by decide) _hp
    | intro _

theorem moves_setDrop {ps : List Part} {s0 s : State} {x1} (_hp : [.sx] ⊆ ps) (h : moves ps s0 s) :
    moves ps s0 (State.setDrop s x1) := by
  unfold State.setDrop
  (try dsimp only)
  repeat' first
    | with_reducible assumption
    | split
    | with_reducible apply moves_modFrame
    | exact _hp (by decide)
    | exact List.Subset.trans (by decide) _hp
    | intro _

theorem moves_dropCopies {ps : List Part} {s0 s : State} {x1} {x2} {x3} (_hp : [.out, .regs, .scope, .sx, .ob, .cx, .mx] ⊆ ps) (hf3 : ∀ y0 y1, moves ps s0 y0 → moves ps s0 (x3 y0 y1)) (h : moves ps s0 s) :
    moves ps s0 (State.dropCopies s x1 x2 x3) := by
  unfold State.dropCopies
  (try dsimp only)
  repeat' first
    | with_reducible assumption
    | split
    | with_reducible apply hf3
    | with_reducible apply moves_forEach
    | with_reducible apply moves_dropCopy
    | exact _hp (by decide)
    | exact List.Subset.trans (by decide) _hp
    | intro _

theorem moves_countAged {ps : List Part} {s0 s : State} {x1} (_hp : [.out, .regs, .scope] ⊆ ps) (h : moves ps s0 s) :
    moves ps s0 (State.countAged s x1) := by
  unfold State.countAged
  (try dsimp only)
  repeat' first
    | with_reducible assumption
    | split
    | with_reducible apply moves_pmu
    | with_reducible apply moves_raise
    | with_reducible apply moves_bump
    | exact _hp (by decide)
    | exact List.Subset.trans (by decide) _hp
    | intro _

theorem moves_dropPage {ps : List Part} {s0 s : State} {x1} {x2} {x3} (_hp : [.out, .regs, .scope, .sx, .ob, .cx, .mx] ⊆ ps) (h : moves ps s0 s) :
    moves ps s0 (State.dropPage s x1 x2 x3) := by
  unfold State.dropPage
  (try dsimp only)
  repeat' first
    | with_reducible assumption
    | split
    | with_reducible apply moves_dropCopies
    | with_reducible apply moves_countAged
    | with_reducible apply moves_bump
    | exact _hp (by decide)
    | exact List.Subset.trans (by decide) _hp
    | intro _

theorem moves_detachCopy {ps : List Part} {s0 s : State} {x1} (_hp : [.out, .regs, .scope, .sx, .cx, .mx] ⊆ ps) (h : moves ps s0 s) :
    moves ps s0 (State.detachCopy s x1) := by
  unfold State.detachCopy
  (try dsimp only)
  repeat' first
    | with_reducible assumption
    | split
    | with_reducible apply moves_setFrame
    | with_reducible apply moves_kidGone
    | exact _hp (by decide)
    | exact List.Subset.trans (by decide) _hp
    | intro _

theorem moves_releasePages {ps : List Part} {s0 s : State} {x1} {x2} {x3} (_hp : [.out, .regs, .scope, .sx, .ob, .cx, .mx] ⊆ ps) (h : moves ps s0 s) :
    moves ps s0 (State.releasePages s x1 x2 x3) := by
  unfold State.releasePages
  (try dsimp only)
  repeat' first
    | with_reducible assumption
    | split
    | with_reducible apply moves_forEach
    | with_reducible apply moves_dropPage
    | with_reducible apply moves_rearmMarks
    | with_reducible apply moves_detachCopy
    | with_reducible apply moves_upd_sx
    | exact _hp (by decide)
    | exact List.Subset.trans (by decide) _hp
    | intro _

theorem moves_flushQueue {ps : List Part} {s0 s : State} {x1} (_hp : [.out, .regs, .scope, .sx, .ob, .cx, .mx] ⊆ ps) (h : moves ps s0 s) :
    moves ps s0 (State.flushQueue s x1) := by
  unfold State.flushQueue
  (try dsimp only)
  repeat' first
    | with_reducible assumption
    | split
    | with_reducible apply moves_setQueue
    | with_reducible apply moves_dropCopies
    | with_reducible apply moves_bump
    | with_reducible apply moves_releasePages
    | exact _hp (by decide)
    | exact List.Subset.trans (by decide) _hp
    | intro _

theorem moves_flushMqs {ps : List Part} {s0 s : State} {x1} (_hp : [.out, .regs, .scope, .sx, .ob, .cx, .mx] ⊆ ps) (h : moves ps s0 s) :
    moves ps s0 (State.flushMqs s x1) := by
  unfold State.flushMqs
  (try dsimp only)
  repeat' first
    | with_reducible assumption
    | split
    | with_reducible apply moves_forEach
    | with_reducible apply moves_dropCopies
    | with_reducible apply moves_setMq
    | with_reducible apply moves_bump
    | exact _hp (by decide)
    | exact List.Subset.trans (by decide) _hp
    | intro _

theorem moves_flushPort {ps : List Part} {s0 s : State} {x1} (_hp : [.out, .regs, .scope, .sx, .ob, .cx, .mx] ⊆ ps) (h : moves ps s0 s) :
    moves ps s0 (State.flushPort s x1) := by
  unfold State.flushPort
  (try dsimp only)
  repeat' first
    | with_reducible assumption
    | split
    | with_reducible apply moves_flushMqs
    | with_reducible apply moves_forEach
    | with_reducible apply moves_flushQueue
    | exact _hp (by decide)
    | exact List.Subset.trans (by decide) _hp
    | intro _

end Sys2Proof.Machine
end

