-- ==== Sys2Proof/Laws/MovesRxOps.lean ====
section
/-!
SUPPORT. What each operation of Machine/RxOps.lean can do: the parts of the state it may change, and what it keeps
(`moves`, Safety.lean). One lemma for each operation; callers cite it and do not unfold the operation.
-/

set_option linter.unusedTactic false
set_option linter.unreachableTactic false
set_option linter.unusedSimpArgs false

namespace Sys2Proof.Machine

open State

theorem moves_pegCount {ps : List Part} {s0 s : State} {x1} (_hp : [.freeN, .ob] ⊆ ps) (h : moves ps s0 s) :
    moves ps s0 (State.pegCount s x1).1 := by
  unfold State.pegCount
  (try dsimp only)
  repeat' first
    | with_reducible assumption
    | split
    | with_reducible apply moves_useFree
    | with_reducible apply moves_upd_ob
    | exact _hp (by decide)
    | exact List.Subset.trans (by decide) _hp
    | intro _

theorem moves_pegCount_eq {ps : List Part} {s0 s : State} {x1} (_hp : [.freeN, .ob] ⊆ ps) (h : moves ps s0 s) {t v} (hq : (State.pegCount s x1) = (t, v)) :
    moves ps s0 t := by
  have := moves_pegCount (x1 := x1)  _hp h
  rwa [hq] at this

theorem moves_startFrame {ps : List Part} {s0 s : State} {x1} {x2} (_hp : [.freeN, .out, .regs, .scope, .sx, .ob] ⊆ ps) (h : moves ps s0 s) :
    moves ps s0 (State.startFrame s x1 x2) := by
  unfold State.startFrame
  (try dsimp only)
  repeat' first
    | with_reducible assumption
    | split
    | with_reducible apply moves_pegCount
    | with_reducible refine moves_pegCount_eq ?_ ?_ (by assumption)
    | with_reducible apply moves_setFrame
    | with_reducible apply moves_judgeRsv
    | with_reducible apply moves_upd_sx
    | exact _hp (by decide)
    | exact List.Subset.trans (by decide) _hp
    | intro _

theorem moves_noCell {ps : List Part} {s0 s : State} {x1} {x2} (_hp : [.freeN, .out, .regs, .scope, .sx, .ob, .cx, .mx] ⊆ ps) (h : moves ps s0 s) :
    moves ps s0 (State.noCell s x1 x2) := by
  unfold State.noCell
  (try dsimp only)
  repeat' first
    | with_reducible assumption
    | split
    | with_reducible apply moves_raise
    | with_reducible apply moves_bump
    | with_reducible apply moves_dropFrame
    | exact _hp (by decide)
    | exact List.Subset.trans (by decide) _hp
    | intro _

theorem moves_cellsUpTo {ps : List Part} {s0 s : State} {x1} (_hp : [.freeN, .out, .regs, .scope, .sx, .ob, .cx, .mx] ⊆ ps) (h : moves ps s0 s) :
    moves ps s0 (State.cellsUpTo s x1) := by
  unfold State.cellsUpTo
  (try dsimp only)
  repeat' first
    | with_reducible assumption
    | split
    | with_reducible apply moves_takeCells
    | with_reducible apply moves_noCell
    | with_reducible apply moves_checkMarks
    | exact _hp (by decide)
    | exact List.Subset.trans (by decide) _hp
    | intro _

theorem moves_addBytes {ps : List Part} {s0 s : State} {x1} {x2} (_hp : [.sx] ⊆ ps) (h : moves ps s0 s) :
    moves ps s0 (State.addBytes s x1 x2) := by
  unfold State.addBytes
  (try dsimp only)
  repeat' first
    | with_reducible assumption
    | split
    | with_reducible apply moves_modFrame
    | exact _hp (by decide)
    | exact List.Subset.trans (by decide) _hp
    | intro _

theorem moves_csuSee {ps : List Part} {s0 s : State} {x1} {x2} {x3} (_hp : [.ob] ⊆ ps) (h : moves ps s0 s) :
    moves ps s0 (State.csuSee s x1 x2 x3) := by
  unfold State.csuSee
  (try dsimp only)
  repeat' first
    | with_reducible assumption
    | split
    | with_reducible apply moves_forEach
    | with_reducible apply moves_upd_ob
    | exact _hp (by decide)
    | exact List.Subset.trans (by decide) _hp
    | intro _

theorem moves_rxIdle {ps : List Part} {s0 s : State} {x1} (_hp : [.sx] ⊆ ps) (h : moves ps s0 s) :
    moves ps s0 (State.rxIdle s x1) := by
  unfold State.rxIdle
  (try dsimp only)
  repeat' first
    | with_reducible assumption
    | split
    | with_reducible apply moves_upd_sx
    | exact _hp (by decide)
    | exact List.Subset.trans (by decide) _hp
    | intro _

theorem moves_rxBad {ps : List Part} {s0 s : State} {x1} {x2} {x3} (_hp : [.freeN, .out, .regs, .scope, .sx, .fx, .ob] ⊆ ps) (h : moves ps s0 s) :
    moves ps s0 (State.rxBad s x1 x2 x3) := by
  unfold State.rxBad
  (try dsimp only)
  repeat' first
    | with_reducible assumption
    | split
    | with_reducible apply moves_rearmMarks
    | with_reducible apply moves_setFrame
    | with_reducible apply moves_settleSlots
    | with_reducible apply moves_lineEnd
    | with_reducible apply moves_lineCapture
    | with_reducible apply moves_upd_fx
    | exact _hp (by decide)
    | exact List.Subset.trans (by decide) _hp
    | intro _

theorem moves_rxAbort {ps : List Part} {s0 s : State} {x1} {x2} {x3} (_hp : [.freeN, .out, .regs, .scope, .sx, .fx, .ob] ⊆ ps) (h : moves ps s0 s) :
    moves ps s0 (State.rxAbort s x1 x2 x3) := by
  unfold State.rxAbort
  (try dsimp only)
  repeat' first
    | with_reducible assumption
    | split
    | with_reducible apply moves_rxIdle
    | with_reducible apply moves_rxBad
    | with_reducible apply moves_csuSee
    | exact _hp (by decide)
    | exact List.Subset.trans (by decide) _hp
    | intro _

theorem moves_rxGood {ps : List Part} {s0 s : State} {x1} {x2} {x3} {x4} {x5} (_hp : [.out, .regs, .scope, .pw, .sx, .fx, .ob, .aon] ⊆ ps) (h : moves ps s0 s) :
    moves ps s0 (State.rxGood s x1 x2 x3 x4 x5) := by
  unfold State.rxGood
  (try dsimp only)
  repeat' first
    | with_reducible assumption
    | split
    | with_reducible apply moves_bump64
    | with_reducible apply moves_t1sFrame
    | with_reducible apply moves_bump
    | with_reducible apply moves_setFrame
    | with_reducible apply moves_lineEnd
    | with_reducible apply moves_upd_fx
    | exact _hp (by decide)
    | exact List.Subset.trans (by decide) _hp
    | intro _

theorem moves_endRx {ps : List Part} {s0 s : State} {x1} {x2} (_hp : [.freeN, .out, .regs, .scope, .pw, .sx, .fx, .ob, .aon, .cx, .mx] ⊆ ps) (h : moves ps s0 s) :
    moves ps s0 (State.endRx s x1 x2) := by
  unfold State.endRx
  (try dsimp only)
  repeat' first
    | with_reducible assumption
    | split
    | with_reducible apply moves_rxIdle
    | with_reducible apply moves_modFrame
    | with_reducible apply moves_csuSee
    | with_reducible apply moves_bump
    | with_reducible apply moves_rxBad
    | with_reducible apply moves_cellsUpTo
    | with_reducible apply moves_rxGood
    | exact _hp (by decide)
    | exact List.Subset.trans (by decide) _hp
    | intro _

theorem moves_cutRx {ps : List Part} {s0 s : State} {x1} (_hp : [.freeN, .out, .regs, .scope, .sx, .fx, .ob] ⊆ ps) (h : moves ps s0 s) :
    moves ps s0 (State.cutRx s x1) := by
  unfold State.cutRx
  (try dsimp only)
  repeat' first
    | with_reducible assumption
    | split
    | with_reducible apply moves_rxIdle
    | with_reducible apply moves_bump
    | with_reducible apply moves_rxAbort
    | exact _hp (by decide)
    | exact List.Subset.trans (by decide) _hp
    | intro _

theorem moves_enterWhole {ps : List Part} {s0 s : State} {x1} {x2} {x3} (_hp : [.freeN, .out, .regs, .scope, .pw, .sx, .fx, .ob, .aon, .cx, .mx] ⊆ ps) (h : moves ps s0 s) :
    moves ps s0 (State.enterWhole s x1 x2 x3) := by
  unfold State.enterWhole
  (try dsimp only)
  repeat' first
    | with_reducible assumption
    | split
    | with_reducible apply moves_modFrame
    | with_reducible apply moves_startFrame
    | with_reducible apply moves_endRx
    | exact _hp (by decide)
    | exact List.Subset.trans (by decide) _hp
    | intro _

end Sys2Proof.Machine
end

