-- ==== Sys2Proof/Laws/Buffer.lean ====
section
/-!
SUPPORT. The buffer: what frames, queues, transmit queues and the ports' transmissions read after each is put, and the
operations that leave them alone.
-/

namespace Sys2Proof.Machine

namespace State

theorem frameOf_congr {s t : State} (h : t.sx = s.sx) (id : Nat) : t.frameOf id = s.frameOf id := by
  unfold frameOf; rw [h]

theorem rxOf_congr {s t : State} (h : t.sx = s.sx) (p : Nat) : t.rxOf p = s.rxOf p := by
  unfold rxOf; rw [h]

theorem queueOf_congr {s t : State} (h : t.sx = s.sx) (q : Nat) : t.queueOf q = s.queueOf q := by
  unfold queueOf; rw [h]

theorem mqOf_congr {s t : State} (h : t.sx = s.sx) (p m : Nat) : t.mqOf p m = s.mqOf p m := by
  unfold mqOf; rw [h]

theorem txOf_congr {s t : State} (h : t.sx = s.sx) (p : Nat) : t.txOf p = s.txOf p := by
  unfold txOf; rw [h]

@[simp] theorem frameOf_setFrame_same (s : State) (id : Nat) (f : Option Frame) : (s.setFrame id f).frameOf id = f :=
  Sparse.get_set_same _ _ _ _

theorem frameOf_setFrame_ne (s : State) {id j : Nat} (f : Option Frame) (h : j ≠ id) :
    (s.setFrame id f).frameOf j = s.frameOf j :=
  Sparse.get_set_ne _ _ _ h

/-- A frame in the device that is changed. -/
theorem modFrame_some (s : State) (id : Nat) (g : Frame → Frame) {f : Frame} (h : s.frameOf id = some f) :
    s.modFrame id g = s.setFrame id (some (g f)) := by
  unfold modFrame; rw [h]

@[simp] theorem queueOf_setQueue_same (s : State) (q : Nat) (x : Queue) : (s.setQueue q x).queueOf q = x :=
  Sparse.get_set_same _ _ _ _

theorem queueOf_setQueue_ne (s : State) {q j : Nat} (x : Queue) (h : j ≠ q) : (s.setQueue q x).queueOf j = s.queueOf j :=
  Sparse.get_set_ne _ _ _ h

@[simp] theorem mqOf_setMq_same (s : State) (p m : Nat) (l : List Copy) : (s.setMq p m l).mqOf p m = l :=
  Sparse.get_set_same _ _ _ _

@[simp] theorem txOf_setTx_same (s : State) (p : Nat) (t : Option TxNow) : (s.setTx p t).txOf p = t :=
  Sparse.get_set_same _ _ _ _

@[simp] theorem rxOf_rxIdle_same (s : State) (p : Nat) : (s.rxIdle p).rxOf p = none := by
  unfold rxIdle rxOf; exact Sparse.get_set_same (fun _ => none) s.sx.rx p none

@[simp] theorem frameOf_rxIdle (s : State) (p id : Nat) : (s.rxIdle p).frameOf id = s.frameOf id := rfl
@[simp] theorem frameOf_bump (s : State) (f : Fld) (n id : Nat) : (s.bump f n).frameOf id = s.frameOf id := rfl
@[simp] theorem frameOf_setRg (s : State) (f : Fld) (n id : Nat) : (s.setRg f n).frameOf id = s.frameOf id := rfl
@[simp] theorem rxOf_bump (s : State) (f : Fld) (n p : Nat) : (s.bump f n).rxOf p = s.rxOf p := rfl
@[simp] theorem rxOf_setRg (s : State) (f : Fld) (n p : Nat) : (s.setRg f n).rxOf p = s.rxOf p := rfl
@[simp] theorem rxOf_setFrame (s : State) (id p : Nat) (f : Option Frame) : (s.setFrame id f).rxOf p = s.rxOf p := rfl

@[simp] theorem pmu_sx (s : State) (ev u n : Nat) : (s.pmu ev u n).sx = s.sx :=
  (moves_pmu (ps := [.out, .regs, .scope]) (List.Subset.refl _) (moves_refl s)).1 .sx (by decide)

@[simp] theorem settleSlots_sx (s : State) (f : Frame) : (s.settleSlots f).sx = s.sx :=
  (moves_settleSlots (ps := [.regs]) (List.Subset.refl _) (moves_refl s)).1 .sx (by decide)

@[simp] theorem csuSee_sx (s : State) (a b : Nat) (bs : List Byte) : (s.csuSee a b bs).sx = s.sx :=
  (moves_csuSee (ps := [.ob]) (List.Subset.refl _) (moves_refl s)).1 .sx (by decide)

@[simp] theorem t1sFrame_sx (s : State) (p smac : Nat) : (s.t1sFrame p smac).sx = s.sx :=
  (moves_t1sFrame (ps := [.out, .regs, .scope, .pw, .ob, .aon]) (List.Subset.refl _) (moves_refl s)).1 .sx (by decide)

@[simp] theorem judgeRsv_sx (s : State) : s.judgeRsv.sx = s.sx :=
  (moves_judgeRsv (ps := [.out, .regs, .scope]) (List.Subset.refl _) (moves_refl s)).1 .sx (by decide)

@[simp] theorem lineEnd_sx (s : State) (f : Frame) : (s.lineEnd f).sx = s.sx :=
  (moves_lineEnd (ps := [.out, .regs, .scope, .ob]) (List.Subset.refl _) (moves_refl s)).1 .sx (by decide)

/-- A record pushed into a ring changes no register but the ring's LOST and an event's latch. -/
theorem rg_ringPush (s : State) (r : Nat) (bs : List Byte) (g : Fld) (h : g.off < 0xb000410) (he : g.off ≠ 0x201c) :
    (s.ringPush r bs).rg g = s.rg g := by
  have hb : ∀ u : State, (u.bump (F.OB_RING_LOST_LOST r)).rg g = u.rg g := fun u => by
    rw [bump, rg_eq, rg_eq, rd_setRg_ne _ _ _ _ (by show g.off ≠ 0xb000410 + 0x20 * r; omega)]
    rfl
  unfold ringPush ringLost
  dsimp only
  split
  · split
    · rw [rg_raise _ _ _ _ (by split <;> exact he), hb]; rfl
    · rw [hb]; rfl
  · rfl

/-- The records of a frame's Line captures change no other register. -/
theorem rg_lineEnd (s : State) (f : Frame) (g : Fld) (h : g.off < 0xb000410) (he : g.off ≠ 0x201c) :
    (s.lineEnd f).rg g = s.rg g := by
  unfold lineEnd forEach
  generalize f.lines = l
  induction l generalizing s with
  | nil => rfl
  | cons c l ih => rw [List.foldl_cons, ih, rg_ringPush _ _ _ _ h he]

@[simp] theorem bump64_sx (s : State) (off n : Nat) : (s.bump64 off n).sx = s.sx := rfl

@[simp] theorem frameOf_pmu (s : State) (ev u n id : Nat) : (s.pmu ev u n).frameOf id = s.frameOf id :=
  frameOf_congr (pmu_sx s ev u n) id

/-- The occupancy marks change nothing of the buffer but their two armed flags. -/
theorem checkMarks_sx (s : State) : ∃ a b, s.checkMarks.sx = { s.sx with dieArmed := a, hamArmed := b } := by
  unfold checkMarks rearmMarks
  dsimp only
  repeat' split
  all_goals try simp only [raise_sx]
  all_goals exact ⟨_, _, rfl⟩

@[simp] theorem checkMarks_frames (s : State) : s.checkMarks.sx.frames = s.sx.frames := by
  obtain ⟨a, b, h⟩ := checkMarks_sx s; rw [h]

@[simp] theorem checkMarks_rx (s : State) : s.checkMarks.sx.rx = s.sx.rx := by
  obtain ⟨a, b, h⟩ := checkMarks_sx s; rw [h]

@[simp] theorem checkMarks_queues (s : State) : s.checkMarks.sx.queues = s.sx.queues := by
  obtain ⟨a, b, h⟩ := checkMarks_sx s; rw [h]

@[simp] theorem frameOf_checkMarks (s : State) (id : Nat) : s.checkMarks.frameOf id = s.frameOf id := by
  unfold frameOf; rw [checkMarks_frames]

@[simp] theorem rxOf_checkMarks (s : State) (p : Nat) : s.checkMarks.rxOf p = s.rxOf p := by
  unfold rxOf; rw [checkMarks_rx]

@[simp] theorem queueOf_checkMarks (s : State) (q : Nat) : s.checkMarks.queueOf q = s.queueOf q := by
  unfold queueOf; rw [checkMarks_queues]

/-- A frame that starts enters the buffer under the next number. -/
theorem startFrame_sx (s : State) (p : Nat) (d : Option Nat) : (s.startFrame p d).sx = { (s.pegCount p).1.sx with
    frames := Sparse.set (fun _ => none) (s.pegCount p).1.sx.frames s.sx.nextId
      (some { newFrame p (s.portEpoch p) (s.stampTi (s.portEpoch p) p) (s.ingressStamp (s.portEpoch p) p) s.now
        (s.pegCount p).2 with directive := d })
    nextId := s.sx.nextId + 1
    rx := Sparse.set (fun _ => none) (s.pegCount p).1.sx.rx p (some s.sx.nextId) } := by
  unfold startFrame
  dsimp only
  split
  · rw [judgeRsv_sx]; rfl
  · rfl

@[simp] theorem rxOf_startFrame_same (s : State) (p : Nat) (d : Option Nat) :
    (s.startFrame p d).rxOf p = some s.sx.nextId := by
  unfold rxOf
  rw [startFrame_sx]
  exact Sparse.get_set_same (fun _ => none) _ p (some s.sx.nextId)

/-- The record of a frame whose start is sampled (step 1, R22). -/
theorem frameOf_startFrame (s : State) (p : Nat) (d : Option Nat) :
    (s.startFrame p d).frameOf s.sx.nextId = some { newFrame p (s.portEpoch p) (s.stampTi (s.portEpoch p) p)
      (s.ingressStamp (s.portEpoch p) p) s.now (s.pegCount p).2 with directive := d } := by
  unfold frameOf
  rw [startFrame_sx]
  dsimp only
  exact Sparse.get_set_same (β := Option Frame) (fun _ => none) _ _ _

/-- The frame after it has taken one cell. -/
theorem frameOf_takeCell (s : State) (id b : Nat) {f : Frame} (h : s.frameOf id = some f) :
    (s.takeCell id b).frameOf id = some { f with cells := f.cells ++ [b] } := by
  unfold takeCell
  have h' : ({ s with sx.bankPtr := (b + 1) % 16 } : State).frameOf id = some f := h
  rw [frameOf_pmu, modFrame_some _ _ _ h', frameOf_setFrame_same]

/-- A frame still in the pipeline that turns out bad is set to DROP. -/
theorem frameOf_rxBad (s : State) (id why : Nat) {f : Frame} (h : s.frameOf id = some f) (hz : f.zombie = false)
    (hp : f.pass ≠ 0) :
    (s.rxBad id why).frameOf id = some { f with
      rxDone := true, good := false, badWhy := why, verdict := .drop, peg := false, lines := [] } := by
  unfold rxBad
  have h' : ({ s with fx.learn := s.fx.learn.filter (fun r => r.frame != id) } : State).frameOf id = some f := h
  simp only [h', hz, hp, Bool.false_eq_true, if_false, frameOf_setFrame_same]

theorem rg_rxBad (s : State) (id why : Nat) {f : Frame} (h : s.frameOf id = some f) (hz : f.zombie = false)
    (hp : f.pass ≠ 0) (g : Fld) (hg : g.off < 0xb000410) (he : g.off ≠ 0x201c) : (s.rxBad id why).rg g = s.rg g := by
  unfold rxBad
  have h' : ({ s with fx.learn := s.fx.learn.filter (fun r => r.frame != id) } : State).frameOf id = some f := h
  simp only [h', hz, hp, Bool.false_eq_true, if_false]
  exact rg_lineEnd _ _ g hg he

end State

end Sys2Proof.Machine
end

