-- ==== Sys2Proof/Laws/MovesKeyOps.lean ====
section
/-!
SUPPORT. What each operation of Machine/KeyOps.lean can do: the parts of the state it may change, and what it keeps
(`moves`, Safety.lean). One lemma for each operation; callers cite it and do not unfold the operation.
-/

set_option linter.unusedTactic false
set_option linter.unreachableTactic false
set_option linter.unusedSimpArgs false

namespace Sys2Proof.Machine

open State

theorem moves_setCell {ps : List Part} {s0 s : State} {x1} {x2} (_hp : [.kx] ⊆ ps) (h : moves ps s0 s) :
    moves ps s0 (State.setCell s x1 x2) := by
  unfold State.setCell
  (try dsimp only)
  repeat' first
    | with_reducible assumption
    | split
    | with_reducible apply moves_upd_kx
    | exact _hp (by decide)
    | exact List.Subset.trans (by decide) _hp
    | intro _

theorem moves_putKey {ps : List Part} {s0 s : State} {x1} {x2} (_hp : [.kx] ⊆ ps) (h : moves ps s0 s) :
    moves ps s0 (State.putKey s x1 x2) := by
  unfold State.putKey
  (try dsimp only)
  repeat' first
    | with_reducible assumption
    | split
    | with_reducible apply moves_setCell
    | exact _hp (by decide)
    | exact List.Subset.trans (by decide) _hp
    | intro _

theorem moves_eraseKey {ps : List Part} {s0 s : State} {x1} (_hp : [.freeN, .kx] ⊆ ps) (h : moves ps s0 s) :
    moves ps s0 (State.eraseKey s x1) := by
  unfold State.eraseKey
  (try dsimp only)
  repeat' first
    | with_reducible assumption
    | split
    | with_reducible apply moves_setCell
    | with_reducible apply moves_useFree
    | exact _hp (by decide)
    | exact List.Subset.trans (by decide) _hp
    | intro _

theorem moves_remask {ps : List Part} {s0 s : State} {x1} (_hp : [.freeN, .kx] ⊆ ps) (h : moves ps s0 s) :
    moves ps s0 (State.remask s x1) := by
  unfold State.remask
  (try dsimp only)
  repeat' first
    | with_reducible assumption
    | split
    | with_reducible apply moves_setCell
    | with_reducible apply moves_useFree
    | exact _hp (by decide)
    | exact List.Subset.trans (by decide) _hp
    | intro _

theorem moves_setNode {ps : List Part} {s0 s : State} {x1} {x2} (_hp : [.regs] ⊆ ps) (h : moves ps s0 s) :
    moves ps s0 (State.setNode s x1 x2) := by
  unfold State.setNode
  (try dsimp only)
  repeat' first
    | with_reducible assumption
    | split
    | with_reducible apply moves_setRg
    | exact _hp (by decide)
    | exact List.Subset.trans (by decide) _hp
    | intro _

theorem moves_kxEvent {ps : List Part} {s0 s : State} {x1} {x2} (_hp : [.out, .regs, .scope] ⊆ ps) (h : moves ps s0 s) :
    moves ps s0 (State.kxEvent s x1 x2) := by
  unfold State.kxEvent
  (try dsimp only)
  repeat' first
    | with_reducible assumption
    | split
    | with_reducible apply moves_raise
    | with_reducible apply moves_setRg
    | exact _hp (by decide)
    | exact List.Subset.trans (by decide) _hp
    | intro _

theorem moves_countUse {ps : List Part} {s0 s : State} {x1} (_hp : [.out, .regs, .scope] ⊆ ps) (h : moves ps s0 s) :
    moves ps s0 (State.countUse s x1) := by
  unfold State.countUse
  (try dsimp only)
  repeat' first
    | with_reducible assumption
    | split
    | with_reducible apply moves_bump
    | with_reducible apply moves_kxEvent
    | with_reducible apply moves_setNode
    | exact _hp (by decide)
    | exact List.Subset.trans (by decide) _hp
    | intro _

theorem moves_kxUse {ps : List Part} {s0 s : State} {x1} {x2} (_hp : [.out, .regs, .scope] ⊆ ps) (h : moves ps s0 s) :
    moves ps s0 (State.kxUse s x1 x2).1 := by
  unfold State.kxUse
  (try dsimp only)
  repeat' first
    | with_reducible assumption
    | split
    | with_reducible apply moves_countUse
    | with_reducible apply moves_bump
    | exact _hp (by decide)
    | exact List.Subset.trans (by decide) _hp
    | intro _

theorem moves_kxUse_eq {ps : List Part} {s0 s : State} {x1} {x2} (_hp : [.out, .regs, .scope] ⊆ ps) (h : moves ps s0 s) {t v} (hq : (State.kxUse s x1 x2) = (t, v)) :
    moves ps s0 t := by
  have := moves_kxUse (x1 := x1) (x2 := x2)  _hp h
  rwa [hq] at this

theorem moves_makeReady {ps : List Part} {s0 s : State} {x1} {x2} (_hp : [.regs, .kx] ⊆ ps) (h : moves ps s0 s) :
    moves ps s0 (State.makeReady s x1 x2) := by
  unfold State.makeReady
  (try dsimp only)
  repeat' first
    | with_reducible assumption
    | split
    | with_reducible apply moves_setNode
    | with_reducible apply moves_putKey
    | with_reducible apply moves_setRg
    | exact _hp (by decide)
    | exact List.Subset.trans (by decide) _hp
    | intro _

theorem moves_createNode {ps : List Part} {s0 s : State} {x1} (_hp : [.out, .regs, .scope, .kx] ⊆ ps) (h : moves ps s0 s) :
    moves ps s0 (State.createNode s x1) := by
  unfold State.createNode
  (try dsimp only)
  repeat' first
    | with_reducible assumption
    | split
    | with_reducible apply moves_kxUse
    | with_reducible refine moves_kxUse_eq ?_ ?_ (by assumption)
    | with_reducible apply moves_makeReady
    | exact _hp (by decide)
    | exact List.Subset.trans (by decide) _hp
    | intro _

theorem moves_createAll {ps : List Part} {s0 s : State} (_hp : [.out, .regs, .scope, .kx] ⊆ ps) (h : moves ps s0 s) :
    moves ps s0 (State.createAll s) := by
  unfold State.createAll
  (try dsimp only)
  repeat' first
    | with_reducible assumption
    | split
    | with_reducible apply moves_forEach
    | with_reducible apply moves_createNode
    | exact _hp (by decide)
    | exact List.Subset.trans (by decide) _hp
    | intro _

theorem moves_judgeNode {ps : List Part} {s0 s : State} {x1} (_hp : [.freeN, .out, .regs, .scope, .kx] ⊆ ps) (h : moves ps s0 s) :
    moves ps s0 (State.judgeNode s x1) := by
  unfold State.judgeNode
  (try dsimp only)
  repeat' first
    | with_reducible assumption
    | split
    | with_reducible apply moves_kxEvent
    | with_reducible apply moves_setRg
    | with_reducible apply moves_setNode
    | with_reducible apply moves_eraseKey
    | exact _hp (by decide)
    | exact List.Subset.trans (by decide) _hp
    | intro _

theorem moves_ceEvent {ps : List Part} {s0 s : State} {x1} {x2} (_hp : [.out, .regs, .scope] ⊆ ps) (h : moves ps s0 s) :
    moves ps s0 (State.ceEvent s x1 x2) := by
  unfold State.ceEvent
  (try dsimp only)
  repeat' first
    | with_reducible assumption
    | split
    | with_reducible apply moves_raise
    | with_reducible apply moves_setRg
    | exact _hp (by decide)
    | exact List.Subset.trans (by decide) _hp
    | intro _

theorem moves_ctxUnusable {ps : List Part} {s0 s : State} {x1} {x2} (_hp : [.out, .regs, .scope] ⊆ ps) (h : moves ps s0 s) :
    moves ps s0 (State.ctxUnusable s x1 x2) := by
  unfold State.ctxUnusable
  (try dsimp only)
  repeat' first
    | with_reducible assumption
    | split
    | with_reducible apply moves_ceEvent
    | with_reducible apply moves_setRg
    | exact _hp (by decide)
    | exact List.Subset.trans (by decide) _hp
    | intro _

theorem moves_wipeEntry {ps : List Part} {s0 s : State} {x1} (_hp : [.ce] ⊆ ps) (h : moves ps s0 s) :
    moves ps s0 (State.wipeEntry s x1) := by
  unfold State.wipeEntry
  (try dsimp only)
  repeat' first
    | with_reducible assumption
    | split
    | with_reducible apply moves_upd_ce
    | exact _hp (by decide)
    | exact List.Subset.trans (by decide) _hp
    | intro _

theorem moves_wipeKeys {ps : List Part} {s0 s : State} (_hp : [.ce] ⊆ ps) (h : moves ps s0 s) :
    moves ps s0 (State.wipeKeys s) := by
  unfold State.wipeKeys
  (try dsimp only)
  repeat' first
    | with_reducible assumption
    | split
    | with_reducible apply moves_upd_ce
    | exact _hp (by decide)
    | exact List.Subset.trans (by decide) _hp
    | intro _

theorem moves_wipeThrough {ps : List Part} {s0 s : State} {x1} (_hp : [.out, .regs, .scope, .ce] ⊆ ps) (h : moves ps s0 s) :
    moves ps s0 (State.wipeThrough s x1) := by
  unfold State.wipeThrough
  (try dsimp only)
  repeat' first
    | with_reducible assumption
    | split
    | with_reducible apply moves_forEach
    | with_reducible apply moves_ctxUnusable
    | with_reducible apply moves_wipeEntry
    | with_reducible apply moves_upd_ce
    | exact _hp (by decide)
    | exact List.Subset.trans (by decide) _hp
    | intro _

theorem moves_updLedger {ps : List Part} {s0 s : State} {x1} {x2} {x3} (_hp : [.out, .regs, .scope, .ob] ⊆ ps) (h : moves ps s0 s) :
    moves ps s0 (State.updLedger s x1 x2 x3) := by
  unfold State.updLedger
  (try dsimp only)
  repeat' first
    | with_reducible assumption
    | split
    | with_reducible apply moves_ledgerAdd
    | exact _hp (by decide)
    | exact List.Subset.trans (by decide) _hp
    | intro _

theorem moves_updResult {ps : List Part} {s0 s : State} {x1} {x2} {x3} (_hp : [.out, .regs, .scope] ⊆ ps) (h : moves ps s0 s) :
    moves ps s0 (State.updResult s x1 x2 x3) := by
  unfold State.updResult
  (try dsimp only)
  repeat' first
    | with_reducible assumption
    | split
    | with_reducible apply moves_wr
    | with_reducible apply moves_raise
    | with_reducible apply moves_emit
    | exact _hp (by decide)
    | exact List.Subset.trans (by decide) _hp
    | intro _

theorem moves_endUpdate {ps : List Part} {s0 s : State} {x1} (_hp : [.out, .regs, .scope, .sv, .upd] ⊆ ps) (h : moves ps s0 s) :
    moves ps s0 (State.endUpdate s x1) := by
  unfold State.endUpdate
  (try dsimp only)
  repeat' first
    | with_reducible assumption
    | split
    | with_reducible apply moves_setRg
    | with_reducible apply moves_updResult
    | with_reducible apply moves_upd_sv_upd
    | exact _hp (by decide)
    | exact List.Subset.trans (by decide) _hp
    | intro _

theorem moves_closeUpdate {ps : List Part} {s0 s : State} {x1} (_hp : [.out, .regs, .scope, .sv, .ob, .upd] ⊆ ps) (h : moves ps s0 s) :
    moves ps s0 (State.closeUpdate s x1) := by
  unfold State.closeUpdate
  (try dsimp only)
  repeat' first
    | with_reducible assumption
    | split
    | with_reducible apply moves_raise
    | with_reducible apply moves_endUpdate
    | with_reducible apply moves_updLedger
    | exact _hp (by decide)
    | exact List.Subset.trans (by decide) _hp
    | intro _

theorem moves_closeSession {ps : List Part} {s0 s : State} {x1} (_hp : [.out, .regs, .scope, .sv, .ob, .upd] ⊆ ps) (h : moves ps s0 s) :
    moves ps s0 (State.closeSession s x1) := by
  unfold State.closeSession
  (try dsimp only)
  repeat' first
    | with_reducible assumption
    | split
    | with_reducible apply moves_closeUpdate
    | with_reducible apply moves_upd_sv
    | exact _hp (by decide)
    | exact List.Subset.trans (by decide) _hp
    | intro _

theorem moves_nodesLost {ps : List Part} {s0 s : State} {x1} (_hp : [.out, .regs, .scope, .sv, .ob, .ce, .upd] ⊆ ps) (h : moves ps s0 s) :
    moves ps s0 (State.nodesLost s x1) := by
  unfold State.nodesLost
  (try dsimp only)
  repeat' first
    | with_reducible assumption
    | split
    | with_reducible apply moves_wipeThrough
    | with_reducible apply moves_forEach
    | with_reducible apply moves_closeSession
    | with_reducible apply moves_closeUpdate
    | exact _hp (by decide)
    | exact List.Subset.trans (by decide) _hp
    | intro _

theorem moves_advanceGen {ps : List Part} {s0 s : State} {x1} (_hp : [.regs] ⊆ ps) (h : moves ps s0 s) :
    moves ps s0 (State.advanceGen s x1) := by
  unfold State.advanceGen
  (try dsimp only)
  repeat' first
    | with_reducible assumption
    | split
    | with_reducible apply moves_setRg
    | exact _hp (by decide)
    | exact List.Subset.trans (by decide) _hp
    | intro _

theorem moves_orphanUnder {ps : List Part} {s0 s : State} {x1} (_hp : [.freeN, .out, .regs, .scope, .sv, .ob, .kx, .ce, .upd] ⊆ ps) (h : moves ps s0 s) :
    moves ps s0 (State.orphanUnder s x1) := by
  unfold State.orphanUnder
  (try dsimp only)
  repeat' first
    | with_reducible assumption
    | split
    | with_reducible apply moves_nodesLost
    | with_reducible apply moves_kxEvent
    | with_reducible apply moves_forEach
    | with_reducible apply moves_setNode
    | with_reducible apply moves_eraseKey
    | exact _hp (by decide)
    | exact List.Subset.trans (by decide) _hp
    | intro _

theorem moves_invalidate {ps : List Part} {s0 s : State} {x1} (_hp : [.freeN, .out, .regs, .scope, .sv, .ob, .kx, .ce, .upd] ⊆ ps) (h : moves ps s0 s) :
    moves ps s0 (State.invalidate s x1) := by
  unfold State.invalidate
  (try dsimp only)
  repeat' first
    | with_reducible assumption
    | split
    | with_reducible apply moves_orphanUnder
    | with_reducible apply moves_kxEvent
    | with_reducible apply moves_eraseKey
    | with_reducible apply moves_setNode
    | with_reducible apply moves_advanceGen
    | exact _hp (by decide)
    | exact List.Subset.trans (by decide) _hp
    | intro _

theorem moves_showDepth {ps : List Part} {s0 s : State} {x1} (_hp : [.regs] ⊆ ps) (h : moves ps s0 s) :
    moves ps s0 (State.showDepth s x1) := by
  unfold State.showDepth
  (try dsimp only)
  repeat' first
    | with_reducible assumption
    | split
    | with_reducible apply moves_setRg
    | exact _hp (by decide)
    | exact List.Subset.trans (by decide) _hp
    | intro _

theorem moves_importKey {ps : List Part} {s0 s : State} {x1} {x2} (_hp : [.freeN, .out, .regs, .scope, .sv, .ob, .kx, .ce, .upd] ⊆ ps) (h : moves ps s0 s) :
    moves ps s0 (State.importKey s x1 x2) := by
  unfold State.importKey
  (try dsimp only)
  repeat' first
    | with_reducible assumption
    | split
    | with_reducible apply moves_invalidate
    | with_reducible apply moves_createAll
    | with_reducible apply moves_makeReady
    | exact _hp (by decide)
    | exact List.Subset.trans (by decide) _hp
    | intro _

theorem moves_commitNode {ps : List Part} {s0 s : State} {x1} {x2} (_hp : [.freeN, .out, .regs, .scope, .sv, .ob, .kx, .ce, .upd] ⊆ ps) (h : moves ps s0 s) :
    moves ps s0 (State.commitNode s x1 x2) := by
  unfold State.commitNode
  (try dsimp only)
  repeat' first
    | with_reducible assumption
    | split
    | with_reducible apply moves_invalidate
    | with_reducible apply moves_setNode
    | with_reducible apply moves_judgeNode
    | with_reducible apply moves_createNode
    | with_reducible apply moves_kxEvent
    | exact _hp (by decide)
    | exact List.Subset.trans (by decide) _hp
    | intro _

theorem moves_commitNodes {ps : List Part} {s0 s : State} {x1} (_hp : [.freeN, .out, .regs, .scope, .sv, .ob, .kx, .ce, .upd] ⊆ ps) (h : moves ps s0 s) :
    moves ps s0 (State.commitNodes s x1) := by
  unfold State.commitNodes
  (try dsimp only)
  repeat' first
    | with_reducible assumption
    | split
    | with_reducible apply moves_forEach
    | with_reducible apply moves_showDepth
    | with_reducible apply moves_commitNode
    | exact _hp (by decide)
    | exact List.Subset.trans (by decide) _hp
    | intro _

theorem moves_kxResult {ps : List Part} {s0 s : State} {x1} {x2} {x3} (_hp : [.out, .regs, .scope] ⊆ ps) (h : moves ps s0 s) :
    moves ps s0 (State.kxResult s x1 x2 x3) := by
  unfold State.kxResult
  (try dsimp only)
  repeat' first
    | with_reducible assumption
    | split
    | with_reducible apply moves_raise
    | with_reducible apply moves_emit
    | with_reducible apply moves_wr
    | exact _hp (by decide)
    | exact List.Subset.trans (by decide) _hp
    | intro _

theorem moves_kxAccept {ps : List Part} {s0 s : State} {x1} (_hp : [.regs, .kx] ⊆ ps) (h : moves ps s0 s) :
    moves ps s0 (State.kxAccept s x1) := by
  unfold State.kxAccept
  (try dsimp only)
  repeat' first
    | with_reducible assumption
    | split
    | with_reducible apply moves_wr
    | with_reducible apply moves_upd_kx
    | exact _hp (by decide)
    | exact List.Subset.trans (by decide) _hp
    | intro _

theorem moves_setKxData {ps : List Part} {s0 s : State} {x1} {x2} (_hp : [.regs, .kx] ⊆ ps) (h : moves ps s0 s) :
    moves ps s0 (State.setKxData s x1 x2) := by
  unfold State.setKxData
  (try dsimp only)
  repeat' first
    | with_reducible assumption
    | split
    | with_reducible apply moves_forEach
    | with_reducible apply moves_setRg
    | with_reducible apply moves_upd_kx
    | exact _hp (by decide)
    | exact List.Subset.trans (by decide) _hp
    | intro _

theorem moves_zeroKxData {ps : List Part} {s0 s : State} {x1} (_hp : [.regs, .kx] ⊆ ps) (h : moves ps s0 s) :
    moves ps s0 (State.zeroKxData s x1) := by
  unfold State.zeroKxData
  (try dsimp only)
  repeat' first
    | with_reducible assumption
    | split
    | with_reducible apply moves_forEach
    | with_reducible apply moves_setRg
    | with_reducible apply moves_upd_kx
    | exact _hp (by decide)
    | exact List.Subset.trans (by decide) _hp
    | intro _

theorem moves_failJob {ps : List Part} {s0 s : State} {x1} (_hp : [.out, .regs, .scope, .kx] ⊆ ps) (h : moves ps s0 s) :
    moves ps s0 (State.failJob s x1) := by
  unfold State.failJob
  (try dsimp only)
  repeat' first
    | with_reducible assumption
    | split
    | with_reducible apply moves_kxResult
    | with_reducible apply moves_zeroKxData
    | exact _hp (by decide)
    | exact List.Subset.trans (by decide) _hp
    | intro _

theorem moves_abortJobs {ps : List Part} {s0 s : State} (_hp : [.out, .regs, .scope, .sv, .kx] ⊆ ps) (h : moves ps s0 s) :
    moves ps s0 (State.abortJobs s) := by
  unfold State.abortJobs
  (try dsimp only)
  repeat' first
    | with_reducible assumption
    | split
    | with_reducible apply moves_forEach
    | with_reducible apply moves_failJob
    | with_reducible apply moves_kxResult
    | with_reducible apply moves_upd_sv_kx
    | exact _hp (by decide)
    | exact List.Subset.trans (by decide) _hp
    | intro _

theorem moves_abortFrames {ps : List Part} {s0 s : State} (_hp : [.sx] ⊆ ps) (h : moves ps s0 s) :
    moves ps s0 (State.abortFrames s) := by
  unfold State.abortFrames
  (try dsimp only)
  repeat' first
    | with_reducible assumption
    | split
    | with_reducible apply moves_forEach
    | with_reducible apply moves_setDrop
    | exact _hp (by decide)
    | exact List.Subset.trans (by decide) _hp
    | intro _

theorem moves_emptyNode {ps : List Part} {s0 s : State} {x1} (_hp : [.freeN, .regs, .kx] ⊆ ps) (h : moves ps s0 s) :
    moves ps s0 (State.emptyNode s x1) := by
  unfold State.emptyNode
  (try dsimp only)
  repeat' first
    | with_reducible assumption
    | split
    | with_reducible apply moves_setRg
    | with_reducible apply moves_setNode
    | with_reducible apply moves_eraseKey
    | exact _hp (by decide)
    | exact List.Subset.trans (by decide) _hp
    | intro _

theorem moves_wipe {ps : List Part} {s0 s : State} (_hp : [.freeN, .out, .regs, .scope, .sv, .sx, .ob, .kx, .ce, .upd] ⊆ ps) (h : moves ps s0 s) :
    moves ps s0 (State.wipe s) := by
  unfold State.wipe
  (try dsimp only)
  repeat' first
    | with_reducible assumption
    | split
    | with_reducible apply moves_abortFrames
    | with_reducible apply moves_wipeKeys
    | with_reducible apply moves_abortJobs
    | with_reducible apply moves_forEach
    | with_reducible apply moves_emptyNode
    | with_reducible apply moves_closeSession
    | with_reducible apply moves_raise
    | with_reducible apply moves_closeUpdate
    | exact _hp (by decide)
    | exact List.Subset.trans (by decide) _hp
    | intro _

theorem moves_releaseEncrypted {ps : List Part} {s0 s : State} (_hp : [.out, .regs, .scope, .sx, .ob, .cx, .mx] ⊆ ps) (h : moves ps s0 s) :
    moves ps s0 (State.releaseEncrypted s) := by
  unfold State.releaseEncrypted
  (try dsimp only)
  repeat' first
    | with_reducible assumption
    | split
    | with_reducible apply moves_forEach
    | with_reducible apply moves_setQueue
    | with_reducible apply moves_releasePages
    | exact _hp (by decide)
    | exact List.Subset.trans (by decide) _hp
    | intro _

theorem moves_wipeLock {ps : List Part} {s0 s : State} (_hp : [.freeN, .out, .regs, .scope, .sx, .ob, .kx, .cx, .mx] ⊆ ps) (h : moves ps s0 s) :
    moves ps s0 (State.wipeLock s) := by
  unfold State.wipeLock
  (try dsimp only)
  repeat' first
    | with_reducible assumption
    | split
    | with_reducible apply moves_forEach
    | with_reducible apply moves_emptyNode
    | with_reducible apply moves_setRg
    | with_reducible apply moves_eraseKey
    | with_reducible apply moves_raise
    | with_reducible apply moves_releaseEncrypted
    | exact _hp (by decide)
    | exact List.Subset.trans (by decide) _hp
    | intro _

theorem moves_instantiate {ps : List Part} {s0 s : State}  (_hp : [.freeN, .out, .regs, .scope, .kx] ⊆ ps) (h : moves ps s0 s) :
    moves ps s0 (State.instantiate s) := by
  unfold State.instantiate
  extract_lets secret t root fix u a a2 v
  have ht : moves ps s0 t := moves_putKey (List.Subset.trans (by decide) _hp) h
  have hu : moves ps s0 u := moves_makeReady (List.Subset.trans (by decide) _hp)
    (moves_makeReady (List.Subset.trans (by decide) _hp) (moves_putKey (List.Subset.trans (by decide) _hp) ht))
  have hv : moves ps s0 v := moves_upd_kx (_hp (by decide)) (moves_useFree (List.Subset.trans (by decide) _hp) hu)
  refine moves_createAll (List.Subset.trans (by decide) _hp) (moves_setRg (List.Subset.trans (by decide) _hp) ?_)
  show moves ps s0 (((v.createNode 4).createNode 5).createNode 6)
  exact moves_createNode (List.Subset.trans (by decide) _hp) (moves_createNode (List.Subset.trans (by decide) _hp)
    (moves_createNode (List.Subset.trans (by decide) _hp) hv))

theorem moves_judgeNodes {ps : List Part} {s0 s : State} (_hp : [.freeN, .out, .regs, .scope, .kx] ⊆ ps) (h : moves ps s0 s) :
    moves ps s0 (State.judgeNodes s) := by
  unfold State.judgeNodes
  (try dsimp only)
  repeat' first
    | with_reducible assumption
    | split
    | with_reducible apply moves_forEach
    | with_reducible apply moves_judgeNode
    | exact _hp (by decide)
    | exact List.Subset.trans (by decide) _hp
    | intro _

theorem moves_transportNodes {ps : List Part} {s0 s : State} (_hp : [.out, .regs, .scope, .kx] ⊆ ps) (h : moves ps s0 s) :
    moves ps s0 (State.transportNodes s) := by
  unfold State.transportNodes
  (try dsimp only)
  repeat' first
    | with_reducible assumption
    | split
    | with_reducible apply moves_putKey
    | with_reducible apply moves_createNode
    | with_reducible apply moves_makeReady
    | exact _hp (by decide)
    | exact List.Subset.trans (by decide) _hp
    | intro _

theorem moves_enterKeysDown {ps : List Part} {s0 s : State} {x1} (_hp : [.out, .regs, .scope] ⊆ ps) (h : moves ps s0 s) :
    moves ps s0 (State.enterKeysDown s x1) := by
  unfold State.enterKeysDown
  (try dsimp only)
  repeat' first
    | with_reducible assumption
    | split
    | with_reducible apply moves_raise
    | with_reducible apply moves_setRg
    | exact _hp (by decide)
    | exact List.Subset.trans (by decide) _hp
    | intro _

theorem moves_noteErrRate {ps : List Part} {s0 s : State} {x1} (_hp : [.freeN, .out, .regs, .scope] ⊆ ps) (h : moves ps s0 s) :
    moves ps s0 (State.noteErrRate s x1) := by
  unfold State.noteErrRate
  (try dsimp only)
  repeat' first
    | with_reducible assumption
    | split
    | with_reducible apply moves_setRg
    | with_reducible apply moves_useFree
    | with_reducible apply moves_raise
    | exact _hp (by decide)
    | exact List.Subset.trans (by decide) _hp
    | intro _

end Sys2Proof.Machine
end

