-- ==== Sys2Proof/Laws/MovesBufOps.lean ====
section
/-!
SUPPORT. What each operation of Machine/BufOps.lean can do: the parts of the state it may change, and what it keeps
(`moves`, Safety.lean). One lemma for each operation; callers cite it and do not unfold the operation.
-/

set_option linter.unusedTactic false
set_option linter.unreachableTactic false
set_option linter.unusedSimpArgs false

namespace Sys2Proof.Machine

open State

theorem moves_hamSet {ps : List Part} {s0 s : State} {x1} {x2} (_hp : [.regs, .sx] ⊆ ps) (h : moves ps s0 s) :
    moves ps s0 (State.hamSet s x1 x2) := by
  unfold State.hamSet
  (try dsimp only)
  repeat' first
    | with_reducible assumption
    | split
    | with_reducible apply moves_setRg
    | with_reducible apply moves_upd_sx
    | exact _hp (by decide)
    | exact List.Subset.trans (by decide) _hp
    | intro _

theorem moves_hamJudge {ps : List Part} {s0 s : State} (_hp : [.out, .regs, .scope, .sx] ⊆ ps) (h : moves ps s0 s) :
    moves ps s0 (State.hamJudge s) := by
  unfold State.hamJudge
  (try dsimp only)
  repeat' first
    | with_reducible assumption
    | split
    | with_reducible apply moves_hamSet
    | with_reducible apply moves_checkMarks
    | with_reducible apply moves_judgeRsv
    | exact _hp (by decide)
    | exact List.Subset.trans (by decide) _hp
    | intro _

theorem moves_hamCapped {ps : List Part} {s0 s : State} {x1} (_hp : [.out, .regs, .scope] ⊆ ps) (h : moves ps s0 s) :
    moves ps s0 (State.hamCapped s x1) := by
  unfold State.hamCapped
  (try dsimp only)
  repeat' first
    | with_reducible assumption
    | split
    | with_reducible apply moves_setRg
    | with_reducible apply moves_raise
    | exact _hp (by decide)
    | exact List.Subset.trans (by decide) _hp
    | intro _

theorem moves_refuseAt {ps : List Part} {s0 s : State} {x1} {x2} (_hp : [.out, .regs, .scope] ⊆ ps) (h : moves ps s0 s) :
    moves ps s0 (State.refuseAt s x1 x2) := by
  unfold State.refuseAt
  (try dsimp only)
  repeat' first
    | with_reducible assumption
    | split
    | with_reducible apply moves_bump
    | with_reducible apply moves_pmu
    | exact _hp (by decide)
    | exact List.Subset.trans (by decide) _hp
    | intro _

theorem moves_scEvent {ps : List Part} {s0 s : State} {x1} {x2} (_hp : [.out, .regs, .scope] ⊆ ps) (h : moves ps s0 s) :
    moves ps s0 (State.scEvent s x1 x2) := by
  unfold State.scEvent
  (try dsimp only)
  repeat' first
    | with_reducible assumption
    | split
    | with_reducible apply moves_raise
    | with_reducible apply moves_setRg
    | exact _hp (by decide)
    | exact List.Subset.trans (by decide) _hp
    | intro _

theorem moves_addClone {ps : List Part} {s0 s : State} {x1} {x2} (_hp : [.sx] ⊆ ps) (h : moves ps s0 s) :
    moves ps s0 (State.addClone s x1 x2).1 := by
  unfold State.addClone
  (try dsimp only)
  repeat' first
    | with_reducible assumption
    | split
    | with_reducible apply moves_setFrame
    | with_reducible apply moves_modFrame
    | with_reducible apply moves_upd_sx
    | exact _hp (by decide)
    | exact List.Subset.trans (by decide) _hp
    | intro _

theorem moves_addClone_eq {ps : List Part} {s0 s : State} {x1} {x2} (_hp : [.sx] ⊆ ps) (h : moves ps s0 s) {t v} (hq : (State.addClone s x1 x2) = (t, v)) :
    moves ps s0 t := by
  have := moves_addClone (x1 := x1) (x2 := x2)  _hp h
  rwa [hq] at this

theorem moves_pushDie {ps : List Part} {s0 s : State} {x1} {x2} (_hp : [.out, .regs, .scope, .sx] ⊆ ps) (h : moves ps s0 s) :
    moves ps s0 (State.pushDie s x1 x2) := by
  unfold State.pushDie
  (try dsimp only)
  repeat' first
    | with_reducible assumption
    | split
    | with_reducible apply moves_pmu
    | with_reducible apply moves_notePeak
    | with_reducible apply moves_setQueue
    | exact _hp (by decide)
    | exact List.Subset.trans (by decide) _hp
    | intro _

theorem moves_spillTo {ps : List Part} {s0 s : State} {x1} {x2} {x3} {x4} (_hp : [.out, .regs, .scope, .sx] ⊆ ps) (h : moves ps s0 s) :
    moves ps s0 (State.spillTo s x1 x2 x3 x4).1 := by
  unfold State.spillTo
  (try dsimp only)
  repeat' first
    | with_reducible assumption
    | split
    | with_reducible apply moves_raise
    | with_reducible apply moves_setRg
    | with_reducible apply moves_addClone
    | with_reducible refine moves_addClone_eq ?_ ?_ (by assumption)
    | with_reducible apply moves_bump
    | with_reducible apply moves_setQueue
    | with_reducible apply moves_pmu
    | with_reducible apply moves_upd_sx
    | exact _hp (by decide)
    | exact List.Subset.trans (by decide) _hp
    | intro _

theorem moves_spillTo_eq {ps : List Part} {s0 s : State} {x1} {x2} {x3} {x4} (_hp : [.out, .regs, .scope, .sx] ⊆ ps) (h : moves ps s0 s) {t v} (hq : (State.spillTo s x1 x2 x3 x4) = (t, v)) :
    moves ps s0 t := by
  have := moves_spillTo (x1 := x1) (x2 := x2) (x3 := x3) (x4 := x4)  _hp h
  rwa [hq] at this

theorem moves_noCopy {ps : List Part} {s0 s : State} {x1} {x2} {x3} (_hp : [.out, .regs, .scope, .ob] ⊆ ps) (h : moves ps s0 s) :
    moves ps s0 (State.noCopy s x1 x2 x3) := by
  unfold State.noCopy
  (try dsimp only)
  repeat' first
    | with_reducible assumption
    | split
    | with_reducible apply moves_pegDone
    | exact _hp (by decide)
    | exact List.Subset.trans (by decide) _hp
    | intro _

theorem moves_enterQueue {ps : List Part} {s0 s : State} {x1} {x2} {x3} {x4} {x5} {x6} (_hp : [.out, .regs, .scope, .sx, .ob] ⊆ ps) (h : moves ps s0 s) :
    moves ps s0 (State.enterQueue s x1 x2 x3 x4 x5 x6).1 := by
  unfold State.enterQueue
  (try dsimp only)
  repeat' first
    | with_reducible assumption
    | split
    | with_reducible apply moves_noCopy
    | with_reducible apply moves_scEvent
    | with_reducible apply moves_bump
    | with_reducible apply moves_pushDie
    | with_reducible apply moves_modFrame
    | with_reducible apply moves_spillTo
    | with_reducible refine moves_spillTo_eq ?_ ?_ (by assumption)
    | with_reducible apply moves_refuseAt
    | exact _hp (by decide)
    | exact List.Subset.trans (by decide) _hp
    | intro _

theorem moves_enterQueue_eq {ps : List Part} {s0 s : State} {x1} {x2} {x3} {x4} {x5} {x6} (_hp : [.out, .regs, .scope, .sx, .ob] ⊆ ps) (h : moves ps s0 s) {t v} (hq : (State.enterQueue s x1 x2 x3 x4 x5 x6) = (t, v)) :
    moves ps s0 t := by
  have := moves_enterQueue (x1 := x1) (x2 := x2) (x3 := x3) (x4 := x4) (x5 := x5) (x6 := x6)  _hp h
  rwa [hq] at this

theorem moves_pruneDown {ps : List Part} {s0 s : State} {x1} {x2} {x3} (_hp : [.out, .regs, .scope, .ob] ⊆ ps) (h : moves ps s0 s) :
    moves ps s0 (State.pruneDown s x1 x2 x3) := by
  unfold State.pruneDown
  (try dsimp only)
  repeat' first
    | with_reducible assumption
    | split
    | with_reducible apply moves_forEach
    | with_reducible apply moves_noCopy
    | with_reducible apply moves_bump
    | exact _hp (by decide)
    | exact List.Subset.trans (by decide) _hp
    | intro _

theorem moves_enqueued {ps : List Part} {s0 s : State} {x1} {x2} (_hp : [.freeN, .out, .regs, .scope, .sx, .ob, .cx, .mx] ⊆ ps) (h : moves ps s0 s) :
    moves ps s0 (State.enqueued s x1 x2) := by
  unfold State.enqueued
  (try dsimp only)
  repeat' first
    | with_reducible assumption
    | split
    | with_reducible apply moves_modFrame
    | with_reducible apply moves_lineCapture
    | with_reducible apply moves_discardFrame
    | with_reducible apply moves_rearmMarks
    | exact _hp (by decide)
    | exact List.Subset.trans (by decide) _hp
    | intro _

theorem moves_enqueueFabric {ps : List Part} {s0 s : State} {x1} {x2} {x3} (_hp : [.freeN, .out, .regs, .scope, .sx, .ob, .cx, .mx] ⊆ ps) (h : moves ps s0 s) :
    moves ps s0 (State.enqueueFabric s x1 x2 x3) := by
  unfold State.enqueueFabric
  extract_lets cut n mcast plan
  have hf : ∀ (l : List (Nat × Admit)) (a : State × List Nat), moves ps s0 a.1 → moves ps s0
      (l.foldl (fun (a : State × List Nat) e =>
        let (u, ok) := a.1.enterQueue x1 x2 (qOf e.1 x2.tc) cut mcast e.2
        (u, if ok then a.2 ++ [e.1] else a.2)) a).1 := by
    intro l
    induction l with
    | nil => intro a k; exact k
    | cons e l ih =>
      intro a k
      refine ih _ ?_
      exact moves_enterQueue (List.Subset.trans (by decide) _hp) k
  exact moves_checkMarks (List.Subset.trans (by decide) _hp)
    (moves_enqueued (List.Subset.trans (by decide) _hp) (hf plan _ h))

theorem moves_enqueueIngress {ps : List Part} {s0 s : State} {x1} {x2} (_hp : [.freeN, .out, .regs, .scope, .sx, .ob] ⊆ ps) (h : moves ps s0 s) :
    moves ps s0 (State.enqueueIngress s x1 x2) := by
  unfold State.enqueueIngress
  (try dsimp only)
  repeat' first
    | with_reducible assumption
    | split
    | with_reducible apply moves_pmu
    | with_reducible apply moves_lineCapture
    | with_reducible apply moves_modFrame
    | exact _hp (by decide)
    | exact List.Subset.trans (by decide) _hp
    | intro _

theorem moves_enqueue {ps : List Part} {s0 s : State} {x1} {x2} (_hp : [.freeN, .out, .regs, .scope, .sx, .ob, .cx, .mx] ⊆ ps) (h : moves ps s0 s) :
    moves ps s0 (State.enqueue s x1 x2) := by
  unfold State.enqueue
  (try dsimp only)
  repeat' first
    | with_reducible assumption
    | split
    | with_reducible apply moves_enqueueIngress
    | with_reducible apply moves_pruneDown
    | with_reducible apply moves_dropFrame
    | with_reducible apply moves_discardFrame
    | with_reducible apply moves_enqueueFabric
    | exact _hp (by decide)
    | exact List.Subset.trans (by decide) _hp
    | intro _

theorem moves_copiesDone {ps : List Part} {s0 s : State} {x1} (_hp : [.freeN, .out, .regs, .scope, .sx, .ob, .cx, .mx] ⊆ ps) (h : moves ps s0 s) :
    moves ps s0 (State.copiesDone s x1) := by
  unfold State.copiesDone
  (try dsimp only)
  repeat' first
    | with_reducible assumption
    | split
    | with_reducible apply moves_discardFrame
    | with_reducible apply moves_endFrame
    | with_reducible apply moves_rearmMarks
    | with_reducible apply moves_setFrame
    | exact _hp (by decide)
    | exact List.Subset.trans (by decide) _hp
    | intro _

theorem moves_loseCopies {ps : List Part} {s0 s : State} {x1} {x2} {x3} (_hp : [.freeN, .out, .regs, .scope, .sx, .ob, .cx, .mx] ⊆ ps) (hf3 : ∀ y0 y1, moves ps s0 y0 → moves ps s0 (x3 y0 y1)) (h : moves ps s0 s) :
    moves ps s0 (State.loseCopies s x1 x2 x3) := by
  unfold State.loseCopies
  (try dsimp only)
  repeat' first
    | with_reducible assumption
    | split
    | with_reducible apply hf3
    | with_reducible apply moves_copiesDone
    | with_reducible apply moves_modFrame
    | with_reducible apply moves_forEach
    | with_reducible apply moves_noCopy
    | exact _hp (by decide)
    | exact List.Subset.trans (by decide) _hp
    | intro _

theorem moves_losePort {ps : List Part} {s0 s : State} {x1} {x2} {x3} (_hp : [.out, .regs, .scope, .sx, .ob] ⊆ ps) (h : moves ps s0 s) :
    moves ps s0 (State.losePort s x1 x2 x3) := by
  unfold State.losePort
  (try dsimp only)
  repeat' first
    | with_reducible assumption
    | split
    | with_reducible apply moves_modFrame
    | with_reducible apply moves_noCopy
    | exact _hp (by decide)
    | exact List.Subset.trans (by decide) _hp
    | intro _

theorem moves_copyNoCell {ps : List Part} {s0 s : State} {x1} {x2} {x3} (_hp : [.out, .regs, .scope, .sx] ⊆ ps) (h : moves ps s0 s) :
    moves ps s0 (State.copyNoCell s x1 x2 x3) := by
  unfold State.copyNoCell
  (try dsimp only)
  repeat' first
    | with_reducible assumption
    | split
    | with_reducible apply moves_modFrame
    | with_reducible apply moves_setFrame
    | with_reducible apply moves_raise
    | with_reducible apply moves_bump
    | exact _hp (by decide)
    | exact List.Subset.trans (by decide) _hp
    | intro _

theorem moves_writeCopy {ps : List Part} {s0 s : State} {x1} {x2} {x3} (_hp : [.out, .regs, .scope, .sx, .ob] ⊆ ps) (h : moves ps s0 s) :
    moves ps s0 (State.writeCopy s x1 x2 x3) := by
  unfold State.writeCopy
  (try dsimp only)
  repeat' first
    | with_reducible assumption
    | split
    | with_reducible apply moves_losePort
    | with_reducible apply moves_bump
    | with_reducible apply moves_scEvent
    | with_reducible apply moves_addClone
    | with_reducible refine moves_addClone_eq ?_ ?_ (by assumption)
    | with_reducible apply moves_takeCells
    | with_reducible apply moves_copyNoCell
    | with_reducible apply moves_checkMarks
    | with_reducible apply moves_pushDie
    | with_reducible apply moves_spillTo
    | with_reducible refine moves_spillTo_eq ?_ ?_ (by assumption)
    | with_reducible apply moves_refuseAt
    | exact _hp (by decide)
    | exact List.Subset.trans (by decide) _hp
    | intro _

theorem moves_toDie {ps : List Part} {s0 s : State} {x1} (_hp : [.sx] ⊆ ps) (h : moves ps s0 s) :
    moves ps s0 (State.toDie s x1) := by
  unfold State.toDie
  (try dsimp only)
  repeat' first
    | with_reducible assumption
    | split
    | with_reducible apply moves_setQueue
    | exact _hp (by decide)
    | exact List.Subset.trans (by decide) _hp
    | intro _

theorem moves_hamKeys {ps : List Part} {s0 s : State} (_hp : [.out, .regs, .scope, .ce] ⊆ ps) (h : moves ps s0 s) :
    moves ps s0 (State.hamKeys s).1 := by
  unfold State.hamKeys
  (try dsimp only)
  repeat' first
    | with_reducible assumption
    | split
    | with_reducible apply moves_kxUse
    | with_reducible refine moves_kxUse_eq ?_ ?_ (by assumption)
    | with_reducible apply moves_bump
    | with_reducible apply moves_upd_ce
    | exact _hp (by decide)
    | exact List.Subset.trans (by decide) _hp
    | intro _

theorem moves_hamKeys_eq {ps : List Part} {s0 s : State} (_hp : [.out, .regs, .scope, .ce] ⊆ ps) (h : moves ps s0 s) {t v} (hq : (State.hamKeys s) = (t, v)) :
    moves ps s0 t := by
  have := moves_hamKeys  _hp h
  rwa [hq] at this

theorem moves_refillCopy {ps : List Part} {s0 s : State} {x1} {x2} {x3} {x4} (_hp : [.out, .regs, .scope, .sx] ⊆ ps) (h : moves ps s0 s) :
    moves ps s0 (State.refillCopy s x1 x2 x3 x4) := by
  unfold State.refillCopy
  (try dsimp only)
  repeat' first
    | with_reducible assumption
    | split
    | with_reducible apply moves_takeCells
    | with_reducible apply moves_modFrame
    | with_reducible apply moves_notePeak
    | with_reducible apply moves_setQueue
    | exact _hp (by decide)
    | exact List.Subset.trans (by decide) _hp
    | intro _

theorem moves_joinHead {ps : List Part} {s0 s : State} {x1} {x2} {x3} {x4} {x5} (_hp : [.out, .regs, .scope, .sx] ⊆ ps) (h : moves ps s0 s) :
    moves ps s0 (State.joinHead s x1 x2 x3 x4 x5) := by
  unfold State.joinHead
  (try dsimp only)
  repeat' first
    | with_reducible assumption
    | split
    | with_reducible apply moves_setQueue
    | with_reducible apply moves_arbBytes
    | with_reducible apply moves_pmu
    | with_reducible apply moves_bump
    | with_reducible apply moves_checkMarks
    | with_reducible apply moves_toDie
    | with_reducible apply moves_forEach
    | with_reducible apply moves_refillCopy
    | exact _hp (by decide)
    | exact List.Subset.trans (by decide) _hp
    | intro _

theorem moves_refillPage {ps : List Part} {s0 s : State} {x1} {x2} (_hp : [.out, .regs, .scope, .sx, .ce] ⊆ ps) (h : moves ps s0 s) :
    moves ps s0 (State.refillPage s x1 x2) := by
  unfold State.refillPage
  (try dsimp only)
  repeat' first
    | with_reducible assumption
    | split
    | with_reducible apply moves_hamKeys
    | with_reducible refine moves_hamKeys_eq ?_ ?_ (by assumption)
    | with_reducible apply moves_joinHead
    | exact _hp (by decide)
    | exact List.Subset.trans (by decide) _hp
    | intro _

theorem moves_refillServed {ps : List Part} {s0 s : State} {x1} (_hp : [.sx] ⊆ ps) (h : moves ps s0 s) :
    moves ps s0 (State.refillServed s x1) := by
  unfold State.refillServed
  (try dsimp only)
  repeat' first
    | with_reducible assumption
    | split
    | with_reducible apply moves_upd_sx
    | exact _hp (by decide)
    | exact List.Subset.trans (by decide) _hp
    | intro _

theorem moves_retirePage {ps : List Part} {s0 s : State} {x1} (_hp : [.out, .regs, .scope, .sx] ⊆ ps) (h : moves ps s0 s) :
    moves ps s0 (State.retirePage s x1) := by
  unfold State.retirePage
  (try dsimp only)
  repeat' first
    | with_reducible assumption
    | split
    | with_reducible apply moves_raise
    | with_reducible apply moves_setRg
    | with_reducible apply moves_upd_sx
    | exact _hp (by decide)
    | exact List.Subset.trans (by decide) _hp
    | intro _

theorem moves_losePage {ps : List Part} {s0 s : State} {x1} {x2} {x3} (_hp : [.out, .regs, .scope, .sx, .ob, .cx, .mx] ⊆ ps) (h : moves ps s0 s) :
    moves ps s0 (State.losePage s x1 x2 x3) := by
  unfold State.losePage
  (try dsimp only)
  repeat' first
    | with_reducible assumption
    | split
    | with_reducible apply moves_rearmMarks
    | with_reducible apply moves_retirePage
    | with_reducible apply moves_toDie
    | with_reducible apply moves_dropCopies
    | with_reducible apply moves_setQueue
    | with_reducible apply moves_bump
    | exact _hp (by decide)
    | exact List.Subset.trans (by decide) _hp
    | intro _

theorem moves_releaseAllPages {ps : List Part} {s0 s : State} (_hp : [.out, .regs, .scope, .sx, .ob, .cx, .mx] ⊆ ps) (h : moves ps s0 s) :
    moves ps s0 (State.releaseAllPages s) := by
  unfold State.releaseAllPages
  (try dsimp only)
  repeat' first
    | with_reducible assumption
    | split
    | with_reducible apply moves_forEach
    | with_reducible apply moves_releasePages
    | with_reducible apply moves_toDie
    | with_reducible apply moves_setQueue
    | exact _hp (by decide)
    | exact List.Subset.trans (by decide) _hp
    | intro _

end Sys2Proof.Machine
end

