-- ==== Sys2Proof/Laws/MovesCanOps.lean ====
section
/-!
SUPPORT. What each operation of Machine/CanOps.lean can do: the parts of the state it may change, and what it keeps
(`moves`, Safety.lean). One lemma for each operation; callers cite it and do not unfold the operation.
-/

set_option linter.unusedTactic false
set_option linter.unreachableTactic false
set_option linter.unusedSimpArgs false

namespace Sys2Proof.Machine

open State

theorem moves_setCan {ps : List Part} {s0 s : State} {x1} {x2} (_hp : [.bx] ⊆ ps) (h : moves ps s0 s) :
    moves ps s0 (State.setCan s x1 x2) := by
  unfold State.setCan
  (try dsimp only)
  repeat' first
    | with_reducible assumption
    | split
    | with_reducible apply moves_upd_bx
    | exact _hp (by decide)
    | exact List.Subset.trans (by decide) _hp
    | intro _

theorem moves_canEvent {ps : List Part} {s0 s : State} {x1} {x2} (_hp : [.out, .regs, .scope] ⊆ ps) (h : moves ps s0 s) :
    moves ps s0 (State.canEvent s x1 x2) := by
  unfold State.canEvent
  (try dsimp only)
  repeat' first
    | with_reducible assumption
    | split
    | with_reducible apply moves_raise
    | with_reducible apply moves_setRg
    | exact _hp (by decide)
    | exact List.Subset.trans (by decide) _hp
    | intro _

theorem moves_setStatus {ps : List Part} {s0 s : State} {x1} {x2} {x3} (_hp : [.regs] ⊆ ps) (h : moves ps s0 s) :
    moves ps s0 (State.setStatus s x1 x2 x3) := by
  unfold State.setStatus
  (try dsimp only)
  repeat' first
    | with_reducible assumption
    | split
    | with_reducible apply moves_setRg
    | exact _hp (by decide)
    | exact List.Subset.trans (by decide) _hp
    | intro _

theorem moves_objEvent {ps : List Part} {s0 s : State} {x1} {x2} {x3} (_hp : [.out, .regs, .scope] ⊆ ps) (h : moves ps s0 s) :
    moves ps s0 (State.objEvent s x1 x2 x3) := by
  unfold State.objEvent
  (try dsimp only)
  repeat' first
    | with_reducible assumption
    | split
    | with_reducible apply moves_canEvent
    | with_reducible apply moves_setRg
    | exact _hp (by decide)
    | exact List.Subset.trans (by decide) _hp
    | intro _

theorem moves_objEnds {ps : List Part} {s0 s : State} {x1} {x2} {x3} (_hp : [.out, .regs, .scope] ⊆ ps) (h : moves ps s0 s) :
    moves ps s0 (State.objEnds s x1 x2 x3) := by
  unfold State.objEnds
  (try dsimp only)
  repeat' first
    | with_reducible assumption
    | split
    | with_reducible apply moves_objEvent
    | with_reducible apply moves_setStatus
    | with_reducible apply moves_setRg
    | exact _hp (by decide)
    | exact List.Subset.trans (by decide) _hp
    | intro _

theorem moves_objStamp {ps : List Part} {s0 s : State} {x1} {x2} {x3} (_hp : [.regs] ⊆ ps) (h : moves ps s0 s) :
    moves ps s0 (State.objStamp s x1 x2 x3) := by
  unfold State.objStamp
  (try dsimp only)
  repeat' first
    | with_reducible assumption
    | split
    | with_reducible apply moves_wr
    | exact _hp (by decide)
    | exact List.Subset.trans (by decide) _hp
    | intro _

theorem moves_ramLost {ps : List Part} {s0 s : State} {x1} {x2} (_hp : [.bx] ⊆ ps) (h : moves ps s0 s) :
    moves ps s0 (State.ramLost s x1 x2) := by
  unfold State.ramLost
  (try dsimp only)
  repeat' first
    | with_reducible assumption
    | split
    | with_reducible apply moves_setCan
    | exact _hp (by decide)
    | exact List.Subset.trans (by decide) _hp
    | intro _

theorem moves_ramGood {ps : List Part} {s0 s : State} {x1} {x2} (_hp : [.bx] ⊆ ps) (h : moves ps s0 s) :
    moves ps s0 (State.ramGood s x1 x2) := by
  unfold State.ramGood
  (try dsimp only)
  repeat' first
    | with_reducible assumption
    | split
    | with_reducible apply moves_setCan
    | exact _hp (by decide)
    | exact List.Subset.trans (by decide) _hp
    | intro _

theorem moves_putData {ps : List Part} {s0 s : State} {x1} {x2} {x3} (_hp : [.regs, .bx] ⊆ ps) (h : moves ps s0 s) :
    moves ps s0 (State.putData s x1 x2 x3) := by
  unfold State.putData
  (try dsimp only)
  repeat' first
    | with_reducible assumption
    | split
    | with_reducible apply moves_ramGood
    | with_reducible apply moves_forEach
    | with_reducible apply moves_wr
    | exact _hp (by decide)
    | exact List.Subset.trans (by decide) _hp
    | intro _

theorem moves_putHeader {ps : List Part} {s0 s : State} {x1} {x2} {x3} {x4} (_hp : [.regs] ⊆ ps) (h : moves ps s0 s) :
    moves ps s0 (State.putHeader s x1 x2 x3 x4) := by
  unfold State.putHeader
  (try dsimp only)
  repeat' first
    | with_reducible assumption
    | split
    | with_reducible apply moves_wr
    | exact _hp (by decide)
    | exact List.Subset.trans (by decide) _hp
    | intro _

theorem moves_canReq {ps : List Part} {s0 s : State} {x1} {x2} (_hp : [.out, .regs, .scope, .pw, .ob, .aon] ⊆ ps) (h : moves ps s0 s) :
    moves ps s0 (State.canReq s x1 x2) := by
  unfold State.canReq
  (try dsimp only)
  repeat' first
    | with_reducible assumption
    | split
    | with_reducible apply moves_objEnds
    | with_reducible apply moves_localTx
    | with_reducible apply moves_setStatus
    | exact _hp (by decide)
    | exact List.Subset.trans (by decide) _hp
    | intro _

theorem moves_canCancel {ps : List Part} {s0 s : State} {x1} {x2} (_hp : [.out, .regs, .scope, .bx] ⊆ ps) (h : moves ps s0 s) :
    moves ps s0 (State.canCancel s x1 x2) := by
  unfold State.canCancel
  (try dsimp only)
  repeat' first
    | with_reducible assumption
    | split
    | with_reducible apply moves_setCan
    | with_reducible apply moves_objEnds
    | with_reducible apply moves_setRg
    | exact _hp (by decide)
    | exact List.Subset.trans (by decide) _hp
    | intro _

theorem moves_canAck {ps : List Part} {s0 s : State} {x1} {x2} (_hp : [.regs] ⊆ ps) (h : moves ps s0 s) :
    moves ps s0 (State.canAck s x1 x2) := by
  unfold State.canAck
  (try dsimp only)
  repeat' first
    | with_reducible assumption
    | split
    | with_reducible apply moves_setRg
    | with_reducible apply moves_setStatus
    | exact _hp (by decide)
    | exact List.Subset.trans (by decide) _hp
    | intro _

theorem moves_bySoftware {ps : List Part} {s0 s : State} {x1} {x2} {x3} {x4} (hf4 : ∀ y0 y1, moves ps s0 y0 → moves ps s0 (x4 y0 y1)) (h : moves ps s0 s) :
    moves ps s0 (State.bySoftware s x1 x2 x3 x4) := by
  unfold State.bySoftware
  (try dsimp only)
  repeat' first
    | with_reducible assumption
    | split
    | with_reducible apply hf4
    | with_reducible apply moves_forEach
    | intro _

theorem moves_msgRamEcc {ps : List Part} {s0 s : State} {x1} {x2} {x3} (_hp : [.out, .regs, .scope, .ob, .bx] ⊆ ps) (h : moves ps s0 s) :
    moves ps s0 (State.msgRamEcc s x1 x2 x3) := by
  unfold State.msgRamEcc
  (try dsimp only)
  repeat' first
    | with_reducible assumption
    | split
    | with_reducible apply moves_fault
    | with_reducible apply moves_bump
    | with_reducible apply moves_ramLost
    | exact _hp (by decide)
    | exact List.Subset.trans (by decide) _hp
    | intro _

theorem moves_objFails {ps : List Part} {s0 s : State} {x1} (_hp : [.out, .regs, .scope, .bx] ⊆ ps) (h : moves ps s0 s) :
    moves ps s0 (State.objFails s x1) := by
  unfold State.objFails
  (try dsimp only)
  repeat' first
    | with_reducible assumption
    | split
    | with_reducible apply moves_setCan
    | with_reducible apply moves_objEnds
    | with_reducible apply moves_objStamp
    | with_reducible apply moves_setStatus
    | exact _hp (by decide)
    | exact List.Subset.trans (by decide) _hp
    | intro _

theorem moves_setCounters {ps : List Part} {s0 s : State} {x1} {x2} {x3} (_hp : [.out, .regs, .scope] ⊆ ps) (h : moves ps s0 s) :
    moves ps s0 (State.setCounters s x1 x2 x3) := by
  unfold State.setCounters
  (try dsimp only)
  repeat' first
    | with_reducible assumption
    | split
    | with_reducible apply moves_setRg
    | with_reducible apply moves_canEvent
    | exact _hp (by decide)
    | exact List.Subset.trans (by decide) _hp
    | intro _

theorem moves_toCanState {ps : List Part} {s0 s : State} {x1} {x2} (_hp : [.regs] ⊆ ps) (h : moves ps s0 s) :
    moves ps s0 (State.toCanState s x1 x2) := by
  unfold State.toCanState
  (try dsimp only)
  repeat' first
    | with_reducible assumption
    | split
    | with_reducible apply moves_setRg
    | exact _hp (by decide)
    | exact List.Subset.trans (by decide) _hp
    | intro _

theorem moves_judgePassive {ps : List Part} {s0 s : State} {x1} (_hp : [.out, .regs, .scope] ⊆ ps) (h : moves ps s0 s) :
    moves ps s0 (State.judgePassive s x1) := by
  unfold State.judgePassive
  (try dsimp only)
  repeat' first
    | with_reducible assumption
    | split
    | with_reducible apply moves_canEvent
    | with_reducible apply moves_toCanState
    | exact _hp (by decide)
    | exact List.Subset.trans (by decide) _hp
    | intro _

theorem moves_busOff {ps : List Part} {s0 s : State} {x1} (_hp : [.freeN, .out, .regs, .scope] ⊆ ps) (h : moves ps s0 s) :
    moves ps s0 (State.busOff s x1) := by
  unfold State.busOff
  (try dsimp only)
  repeat' first
    | with_reducible assumption
    | split
    | with_reducible apply moves_toCanState
    | with_reducible apply moves_setRg
    | with_reducible apply moves_useFree
    | with_reducible apply moves_bump
    | with_reducible apply moves_canEvent
    | with_reducible apply moves_forEach
    | with_reducible apply moves_objEnds
    | exact _hp (by decide)
    | exact List.Subset.trans (by decide) _hp
    | intro _

theorem moves_noteTdc {ps : List Part} {s0 s : State} {x1} {x2} {x3} (_hp : [.out, .regs, .scope] ⊆ ps) (h : moves ps s0 s) :
    moves ps s0 (State.noteTdc s x1 x2 x3) := by
  unfold State.noteTdc
  (try dsimp only)
  repeat' first
    | with_reducible assumption
    | split
    | with_reducible apply moves_setRg
    | with_reducible apply moves_canEvent
    | exact _hp (by decide)
    | exact List.Subset.trans (by decide) _hp
    | intro _

theorem moves_tdcAtError {ps : List Part} {s0 s : State} {x1} {x2} (_hp : [.out, .regs, .scope] ⊆ ps) (h : moves ps s0 s) :
    moves ps s0 (State.tdcAtError s x1 x2) := by
  unfold State.tdcAtError
  (try dsimp only)
  repeat' first
    | with_reducible assumption
    | split
    | with_reducible apply moves_noteTdc
    | exact _hp (by decide)
    | exact List.Subset.trans (by decide) _hp
    | intro _

theorem moves_noteError {ps : List Part} {s0 s : State} {x1} {x2} {x3} (_hp : [.regs] ⊆ ps) (h : moves ps s0 s) :
    moves ps s0 (State.noteError s x1 x2 x3) := by
  unfold State.noteError
  (try dsimp only)
  repeat' first
    | with_reducible assumption
    | split
    | with_reducible apply moves_setRg
    | exact _hp (by decide)
    | exact List.Subset.trans (by decide) _hp
    | intro _

theorem moves_sendErrorFrame {ps : List Part} {s0 s : State} {x1} (_hp : [.out, .regs] ⊆ ps) (h : moves ps s0 s) :
    moves ps s0 (State.sendErrorFrame s x1) := by
  unfold State.sendErrorFrame
  (try dsimp only)
  repeat' first
    | with_reducible assumption
    | split
    | with_reducible apply moves_bump
    | with_reducible apply moves_emit
    | exact _hp (by decide)
    | exact List.Subset.trans (by decide) _hp
    | intro _

theorem moves_canErrorMet {ps : List Part} {s0 s : State} {x1} {x2} {x3} {x4} {x5} (_hp : [.freeN, .out, .regs, .scope, .bx] ⊆ ps) (h : moves ps s0 s) :
    moves ps s0 (State.canErrorMet s x1 x2 x3 x4 x5) := by
  unfold State.canErrorMet
  (try dsimp only)
  repeat' first
    | with_reducible assumption
    | split
    | with_reducible apply moves_noteError
    | with_reducible apply moves_objFails
    | with_reducible apply moves_setCan
    | with_reducible apply moves_toCanState
    | with_reducible apply moves_sendErrorFrame
    | with_reducible apply moves_setCounters
    | with_reducible apply moves_busOff
    | with_reducible apply moves_judgePassive
    | exact _hp (by decide)
    | exact List.Subset.trans (by decide) _hp
    | intro _

theorem moves_txCredit {ps : List Part} {s0 s : State} {x1} (_hp : [.out, .regs, .scope] ⊆ ps) (h : moves ps s0 s) :
    moves ps s0 (State.txCredit s x1) := by
  unfold State.txCredit
  (try dsimp only)
  repeat' first
    | with_reducible assumption
    | split
    | with_reducible apply moves_judgePassive
    | with_reducible apply moves_setCounters
    | exact _hp (by decide)
    | exact List.Subset.trans (by decide) _hp
    | intro _

theorem moves_rxCredit {ps : List Part} {s0 s : State} {x1} (_hp : [.freeN, .out, .regs, .scope] ⊆ ps) (h : moves ps s0 s) :
    moves ps s0 (State.rxCredit s x1) := by
  unfold State.rxCredit
  (try dsimp only)
  repeat' first
    | with_reducible assumption
    | split
    | with_reducible apply moves_judgePassive
    | with_reducible apply moves_setCounters
    | with_reducible apply moves_useFree
    | exact _hp (by decide)
    | exact List.Subset.trans (by decide) _hp
    | intro _

theorem moves_objTakes {ps : List Part} {s0 s : State} {x1} {x2} {x3} {x4} (_hp : [.out, .regs, .scope, .bx] ⊆ ps) (h : moves ps s0 s) :
    moves ps s0 (State.objTakes s x1 x2 x3 x4) := by
  unfold State.objTakes
  (try dsimp only)
  repeat' first
    | with_reducible assumption
    | split
    | with_reducible apply moves_objStamp
    | with_reducible apply moves_putData
    | with_reducible apply moves_putHeader
    | with_reducible apply moves_tick
    | with_reducible apply moves_setStatus
    | with_reducible apply moves_setCan
    | with_reducible apply moves_objEvent
    | exact _hp (by decide)
    | exact List.Subset.trans (by decide) _hp
    | intro _

theorem moves_overrun {ps : List Part} {s0 s : State} {x1} {x2} (_hp : [.out, .regs, .scope] ⊆ ps) (h : moves ps s0 s) :
    moves ps s0 (State.overrun s x1 x2) := by
  unfold State.overrun
  (try dsimp only)
  repeat' first
    | with_reducible assumption
    | split
    | with_reducible apply moves_canEvent
    | with_reducible apply moves_bump
    | with_reducible apply moves_setRg
    | exact _hp (by decide)
    | exact List.Subset.trans (by decide) _hp
    | intro _

theorem moves_offer {ps : List Part} {s0 s : State} {x1} {x2} {x3} {x4} {x5} (_hp : [.out, .regs, .scope, .bx] ⊆ ps) (h : moves ps s0 s) :
    moves ps s0 (State.offer s x1 x2 x3 x4 x5) := by
  induction x4 generalizing s x5 with
  | nil =>
    unfold State.offer
    (try dsimp only)
    repeat' first
      | with_reducible assumption
      | with_reducible apply moves_canEvent
      | with_reducible apply moves_bump
      | with_reducible apply moves_objTakes
      | with_reducible apply moves_overrun
      | split
      | exact _hp (by decide)
      | exact List.Subset.trans (by decide) _hp
  | cons a l ih =>
    unfold State.offer
    (try dsimp only)
    repeat' first
      | with_reducible assumption
      | with_reducible apply ih
      | with_reducible apply moves_canEvent
      | with_reducible apply moves_bump
      | with_reducible apply moves_objTakes
      | with_reducible apply moves_overrun
      | split
      | exact _hp (by decide)
      | exact List.Subset.trans (by decide) _hp


theorem moves_canReceive {ps : List Part} {s0 s : State} {x1} {x2} {x3} (_hp : [.freeN, .out, .regs, .scope, .bx] ⊆ ps) (h : moves ps s0 s) :
    moves ps s0 (State.canReceive s x1 x2 x3) := by
  unfold State.canReceive
  (try dsimp only)
  repeat' first
    | with_reducible assumption
    | split
    | with_reducible apply moves_offer
    | with_reducible apply moves_rxCredit
    | with_reducible apply moves_bump
    | with_reducible apply moves_setCan
    | exact _hp (by decide)
    | exact List.Subset.trans (by decide) _hp
    | intro _

theorem moves_sendAck {ps : List Part} {s0 s : State} {x1} (_hp : [.out] ⊆ ps) (h : moves ps s0 s) :
    moves ps s0 (State.sendAck s x1) := by
  unfold State.sendAck
  (try dsimp only)
  repeat' first
    | with_reducible assumption
    | split
    | with_reducible apply moves_emit
    | exact _hp (by decide)
    | exact List.Subset.trans (by decide) _hp
    | intro _

theorem moves_canLeave {ps : List Part} {s0 s : State} {x1} (_hp : [.out, .regs, .scope] ⊆ ps) (h : moves ps s0 s) :
    moves ps s0 (State.canLeave s x1) := by
  unfold State.canLeave
  (try dsimp only)
  repeat' first
    | with_reducible assumption
    | split
    | with_reducible apply moves_setRg
    | with_reducible apply moves_toCanState
    | with_reducible apply moves_canEvent
    | exact _hp (by decide)
    | exact List.Subset.trans (by decide) _hp
    | intro _

theorem moves_objsChange {ps : List Part} {s0 s : State} {x1} {x2} {x3} (_hp : [.out, .regs, .scope] ⊆ ps) (h : moves ps s0 s) :
    moves ps s0 (State.objsChange s x1 x2 x3) := by
  unfold State.objsChange
  (try dsimp only)
  repeat' first
    | with_reducible assumption
    | split
    | with_reducible apply moves_forEach
    | with_reducible apply moves_objEnds
    | with_reducible apply moves_setRg
    | with_reducible apply moves_setStatus
    | exact _hp (by decide)
    | exact List.Subset.trans (by decide) _hp
    | intro _

theorem moves_canApply {ps : List Part} {s0 s : State} {x1} {x2} (_hp : [.out, .regs, .scope, .bx] ⊆ ps) (h : moves ps s0 s) :
    moves ps s0 (State.canApply s x1 x2) := by
  unfold State.canApply
  (try dsimp only)
  repeat' first
    | with_reducible assumption
    | split
    | with_reducible apply moves_setCan
    | with_reducible apply moves_objsChange
    | with_reducible apply moves_toCanState
    | with_reducible apply moves_forEach
    | with_reducible apply moves_objEnds
    | with_reducible apply moves_canLeave
    | exact _hp (by decide)
    | exact List.Subset.trans (by decide) _hp
    | intro _

theorem moves_canCommit {ps : List Part} {s0 s : State} {x1} {x2} (_hp : [.out, .regs, .scope, .bx] ⊆ ps) (h : moves ps s0 s) :
    moves ps s0 (State.canCommit s x1 x2) := by
  unfold State.canCommit
  (try dsimp only)
  repeat' first
    | with_reducible assumption
    | split
    | with_reducible apply moves_canApply
    | with_reducible apply moves_setCan
    | exact _hp (by decide)
    | exact List.Subset.trans (by decide) _hp
    | intro _

theorem moves_canHold {ps : List Part} {s0 s : State} {x1} (_hp : [.out, .regs, .scope, .bx] ⊆ ps) (h : moves ps s0 s) :
    moves ps s0 (State.canHold s x1) := by
  unfold State.canHold
  (try dsimp only)
  repeat' first
    | with_reducible assumption
    | split
    | with_reducible apply moves_objEnds
    | with_reducible apply moves_objStamp
    | with_reducible apply moves_setStatus
    | with_reducible apply moves_setCan
    | with_reducible apply moves_setRg
    | with_reducible apply moves_toCanState
    | exact _hp (by decide)
    | exact List.Subset.trans (by decide) _hp
    | intro _

theorem moves_canRelease {ps : List Part} {s0 s : State} {x1} (_hp : [.out, .regs, .scope, .bx] ⊆ ps) (h : moves ps s0 s) :
    moves ps s0 (State.canRelease s x1) := by
  unfold State.canRelease
  (try dsimp only)
  repeat' first
    | with_reducible assumption
    | split
    | with_reducible apply moves_canApply
    | with_reducible apply moves_toCanState
    | with_reducible apply moves_canLeave
    | exact _hp (by decide)
    | exact List.Subset.trans (by decide) _hp
    | intro _

end Sys2Proof.Machine
end

