-- ==== Sys2Proof/Laws/MovesCeOps.lean ====
section
/-!
SUPPORT. What each operation of Machine/CeOps.lean can do: the parts of the state it may change, and what it keeps
(`moves`, Safety.lean). One lemma for each operation; callers cite it and do not unfold the operation.
-/

set_option linter.unusedTactic false
set_option linter.unreachableTactic false
set_option linter.unusedSimpArgs false

namespace Sys2Proof.Machine

open State

theorem moves_setCtx {ps : List Part} {s0 s : State} {x1} {x2} (_hp : [.regs] ⊆ ps) (h : moves ps s0 s) :
    moves ps s0 (State.setCtx s x1 x2) := by
  unfold State.setCtx
  (try dsimp only)
  repeat' first
    | with_reducible assumption
    | split
    | with_reducible apply moves_setRg
    | exact _hp (by decide)
    | exact List.Subset.trans (by decide) _hp
    | intro _

theorem moves_assignHome {ps : List Part} {s0 s : State} {x1} (_hp : [.regs] ⊆ ps) (h : moves ps s0 s) :
    moves ps s0 (State.assignHome s x1) := by
  unfold State.assignHome
  (try dsimp only)
  repeat' first
    | with_reducible assumption
    | split
    | with_reducible apply moves_setRg
    | exact _hp (by decide)
    | exact List.Subset.trans (by decide) _hp
    | intro _

theorem moves_pairLeaves {ps : List Part} {s0 s : State} {x1} (_hp : [.out, .regs, .scope] ⊆ ps) (h : moves ps s0 s) :
    moves ps s0 (State.pairLeaves s x1) := by
  unfold State.pairLeaves
  (try dsimp only)
  repeat' first
    | with_reducible assumption
    | split
    | with_reducible apply moves_forEach
    | with_reducible apply moves_setRg
    | with_reducible apply moves_ctxUnusable
    | exact _hp (by decide)
    | exact List.Subset.trans (by decide) _hp
    | intro _

theorem moves_pairReturns {ps : List Part} {s0 s : State} {x1} (_hp : [.regs] ⊆ ps) (h : moves ps s0 s) :
    moves ps s0 (State.pairReturns s x1) := by
  unfold State.pairReturns
  (try dsimp only)
  repeat' first
    | with_reducible assumption
    | split
    | with_reducible apply moves_forEach
    | with_reducible apply moves_setRg
    | exact _hp (by decide)
    | exact List.Subset.trans (by decide) _hp
    | intro _

theorem moves_ctxLose {ps : List Part} {s0 s : State} {x1} (_hp : [.out, .regs, .scope] ⊆ ps) (h : moves ps s0 s) :
    moves ps s0 (State.ctxLose s x1) := by
  unfold State.ctxLose
  (try dsimp only)
  repeat' first
    | with_reducible assumption
    | split
    | with_reducible apply moves_ctxUnusable
    | exact _hp (by decide)
    | exact List.Subset.trans (by decide) _hp
    | intro _

theorem moves_rekey {ps : List Part} {s0 s : State} {x1} (_hp : [.out, .regs, .scope, .ce] ⊆ ps) (h : moves ps s0 s) :
    moves ps s0 (State.rekey s x1) := by
  unfold State.rekey
  (try dsimp only)
  repeat' first
    | with_reducible assumption
    | split
    | with_reducible apply moves_wr64
    | with_reducible apply moves_wipeEntry
    | with_reducible apply moves_ceEvent
    | with_reducible apply moves_setCtx
    | with_reducible apply moves_ctxLose
    | exact _hp (by decide)
    | exact List.Subset.trans (by decide) _hp
    | intro _

theorem moves_ctxRecord {ps : List Part} {s0 s : State} {x1} (_hp : [.regs, .ce] ⊆ ps) (h : moves ps s0 s) :
    moves ps s0 (State.ctxRecord s x1) := by
  unfold State.ctxRecord
  (try dsimp only)
  repeat' first
    | with_reducible assumption
    | split
    | with_reducible apply moves_setRg
    | with_reducible apply moves_upd_ce
    | exact _hp (by decide)
    | exact List.Subset.trans (by decide) _hp
    | intro _

theorem moves_rekeyUnused {ps : List Part} {s0 s : State} {x1} (_hp : [.out, .regs, .scope, .ce] ⊆ ps) (h : moves ps s0 s) :
    moves ps s0 (State.rekeyUnused s x1) := by
  unfold State.rekeyUnused
  (try dsimp only)
  repeat' first
    | with_reducible assumption
    | split
    | with_reducible apply moves_rekey
    | with_reducible apply moves_upd_ce
    | exact _hp (by decide)
    | exact List.Subset.trans (by decide) _hp
    | intro _

theorem moves_ctxRefused {ps : List Part} {s0 s : State} {x1} (_hp : [.regs] ⊆ ps) (h : moves ps s0 s) :
    moves ps s0 (State.ctxRefused s x1) := by
  unfold State.ctxRefused
  (try dsimp only)
  repeat' first
    | with_reducible assumption
    | split
    | with_reducible apply moves_bump
    | exact _hp (by decide)
    | exact List.Subset.trans (by decide) _hp
    | intro _

theorem moves_ctxJudge {ps : List Part} {s0 s : State} {x1} (_hp : [.out, .regs, .scope, .ce] ⊆ ps) (h : moves ps s0 s) :
    moves ps s0 (State.ctxJudge s x1) := by
  unfold State.ctxJudge
  (try dsimp only)
  repeat' first
    | with_reducible assumption
    | split
    | with_reducible apply moves_ctxLose
    | with_reducible apply moves_ctxRefused
    | with_reducible apply moves_ctxRecord
    | with_reducible apply moves_rekey
    | with_reducible apply moves_setCtx
    | exact _hp (by decide)
    | exact List.Subset.trans (by decide) _hp
    | intro _

theorem moves_hold {ps : List Part} {s0 s : State} {x1} {x2} (_hp : [.ce] ⊆ ps) (h : moves ps s0 s) :
    moves ps s0 (State.hold s x1 x2) := by
  unfold State.hold
  (try dsimp only)
  repeat' first
    | with_reducible assumption
    | split
    | with_reducible apply moves_upd_ce
    | exact _hp (by decide)
    | exact List.Subset.trans (by decide) _hp
    | intro _

theorem moves_ctxAsk {ps : List Part} {s0 s : State} {x1} {x2} (_hp : [.out, .regs, .scope, .ce] ⊆ ps) (h : moves ps s0 s) :
    moves ps s0 (State.ctxAsk s x1 x2).1 := by
  unfold State.ctxAsk
  (try dsimp only)
  repeat' first
    | with_reducible assumption
    | split
    | with_reducible apply moves_hold
    | with_reducible apply moves_ctxJudge
    | with_reducible apply moves_pmu
    | with_reducible apply moves_bump
    | with_reducible apply moves_upd_ce
    | exact _hp (by decide)
    | exact List.Subset.trans (by decide) _hp
    | intro _

theorem moves_ctxAsk_eq {ps : List Part} {s0 s : State} {x1} {x2} (_hp : [.out, .regs, .scope, .ce] ⊆ ps) (h : moves ps s0 s) {t v} (hq : (State.ctxAsk s x1 x2) = (t, v)) :
    moves ps s0 t := by
  have := moves_ctxAsk (x1 := x1) (x2 := x2)  _hp h
  rwa [hq] at this

theorem moves_ctxDerive {ps : List Part} {s0 s : State} {x1} (_hp : [.out, .regs, .scope, .ce] ⊆ ps) (h : moves ps s0 s) :
    moves ps s0 (State.ctxDerive s x1) := by
  unfold State.ctxDerive
  (try dsimp only)
  repeat' first
    | with_reducible assumption
    | split
    | with_reducible apply moves_kxUse
    | with_reducible refine moves_kxUse_eq ?_ ?_ (by assumption)
    | with_reducible apply moves_ctxRecord
    | with_reducible apply moves_bump
    | with_reducible apply moves_ctxLose
    | with_reducible apply moves_upd_ce
    | exact _hp (by decide)
    | exact List.Subset.trans (by decide) _hp
    | intro _

theorem moves_ctxDropCount {ps : List Part} {s0 s : State} {x1} {x2} (_hp : [.regs] ⊆ ps) (h : moves ps s0 s) :
    moves ps s0 (State.ctxDropCount s x1 x2) := by
  unfold State.ctxDropCount
  (try dsimp only)
  repeat' first
    | with_reducible assumption
    | split
    | with_reducible apply moves_bump
    | exact _hp (by decide)
    | exact List.Subset.trans (by decide) _hp
    | intro _

theorem moves_ctxExpire {ps : List Part} {s0 s : State} {x1} (_hp : [.out, .regs, .scope, .ce] ⊆ ps) (h : moves ps s0 s) :
    moves ps s0 (State.ctxExpire s x1) := by
  unfold State.ctxExpire
  (try dsimp only)
  repeat' first
    | with_reducible assumption
    | split
    | with_reducible apply moves_ceEvent
    | with_reducible apply moves_setCtx
    | with_reducible apply moves_wipeEntry
    | exact _hp (by decide)
    | exact List.Subset.trans (by decide) _hp
    | intro _

theorem moves_ctxCount {ps : List Part} {s0 s : State} {x1} (_hp : [.out, .regs, .scope, .ce] ⊆ ps) (h : moves ps s0 s) :
    moves ps s0 (State.ctxCount s x1) := by
  unfold State.ctxCount
  (try dsimp only)
  repeat' first
    | with_reducible assumption
    | split
    | with_reducible apply moves_wr64
    | with_reducible apply moves_ceEvent
    | with_reducible apply moves_ctxExpire
    | exact _hp (by decide)
    | exact List.Subset.trans (by decide) _hp
    | intro _

theorem moves_ctxTakePn {ps : List Part} {s0 s : State} {x1} (_hp : [.out, .regs, .scope, .ce] ⊆ ps) (h : moves ps s0 s) :
    moves ps s0 (State.ctxTakePn s x1) := by
  unfold State.ctxTakePn
  (try dsimp only)
  repeat' first
    | with_reducible assumption
    | split
    | with_reducible apply moves_ctxCount
    | with_reducible apply moves_wr64
    | with_reducible apply moves_ctxExpire
    | exact _hp (by decide)
    | exact List.Subset.trans (by decide) _hp
    | intro _

theorem moves_commitCtx {ps : List Part} {s0 s : State} {x1} {x2} (_hp : [.out, .regs, .scope, .ce] ⊆ ps) (h : moves ps s0 s) :
    moves ps s0 (State.commitCtx s x1 x2) := by
  unfold State.commitCtx
  (try dsimp only)
  repeat' first
    | with_reducible assumption
    | split
    | with_reducible apply moves_setCtx
    | with_reducible apply moves_wipeEntry
    | with_reducible apply moves_rekeyUnused
    | with_reducible apply moves_assignHome
    | with_reducible apply moves_ctxExpire
    | exact _hp (by decide)
    | exact List.Subset.trans (by decide) _hp
    | intro _

theorem moves_commitCtxs {ps : List Part} {s0 s : State} {x1} (_hp : [.out, .regs, .scope, .ce] ⊆ ps) (h : moves ps s0 s) :
    moves ps s0 (State.commitCtxs s x1) := by
  unfold State.commitCtxs
  (try dsimp only)
  repeat' first
    | with_reducible assumption
    | split
    | with_reducible apply moves_forEach
    | with_reducible apply moves_commitCtx
    | exact _hp (by decide)
    | exact List.Subset.trans (by decide) _hp
    | intro _

theorem moves_ceReject {ps : List Part} {s0 s : State} {x1} (_hp : [.sx, .fx] ⊆ ps) (h : moves ps s0 s) :
    moves ps s0 (State.ceReject s x1) := by
  unfold State.ceReject
  (try dsimp only)
  repeat' first
    | with_reducible assumption
    | split
    | with_reducible apply moves_setDrop
    | with_reducible apply moves_upd_fx
    | exact _hp (by decide)
    | exact List.Subset.trans (by decide) _hp
    | intro _

theorem moves_ceVerified {ps : List Part} {s0 s : State} {x1} {x2} {x3} (_hp : [.out, .regs, .scope, .sx, .fx, .ce] ⊆ ps) (h : moves ps s0 s) :
    moves ps s0 (State.ceVerified s x1 x2 x3) := by
  unfold State.ceVerified
  (try dsimp only)
  repeat' first
    | with_reducible assumption
    | split
    | with_reducible apply moves_pmu
    | with_reducible apply moves_ctxCount
    | with_reducible apply moves_wr64
    | with_reducible apply moves_setFrame
    | with_reducible apply moves_ceEvent
    | with_reducible apply moves_bump
    | with_reducible apply moves_upd_fx
    | exact _hp (by decide)
    | exact List.Subset.trans (by decide) _hp
    | intro _

theorem moves_ceBegin {ps : List Part} {s0 s : State} {x1} {x2} {x3} (_hp : [.out, .regs, .scope, .sx, .fx, .ce] ⊆ ps) (h : moves ps s0 s) :
    moves ps s0 (State.ceBegin s x1 x2 x3) := by
  unfold State.ceBegin
  (try dsimp only)
  repeat' first
    | with_reducible assumption
    | split
    | with_reducible apply moves_ceVerified
    | with_reducible apply moves_setFrame
    | exact _hp (by decide)
    | exact List.Subset.trans (by decide) _hp
    | intro _

theorem moves_ceInSc {ps : List Part} {s0 s : State} {x1} {x2} {x3} {x4} (_hp : [.out, .regs, .scope, .sx, .fx, .ce] ⊆ ps) (h : moves ps s0 s) :
    moves ps s0 (State.ceInSc s x1 x2 x3 x4) := by
  unfold State.ceInSc
  (try dsimp only)
  repeat' first
    | with_reducible assumption
    | split
    | with_reducible apply moves_ceReject
    | with_reducible apply moves_ceEvent
    | with_reducible apply moves_bump
    | with_reducible apply moves_ctxAsk
    | with_reducible refine moves_ctxAsk_eq ?_ ?_ (by assumption)
    | with_reducible apply moves_ctxDropCount
    | with_reducible apply moves_ceBegin
    | exact _hp (by decide)
    | exact List.Subset.trans (by decide) _hp
    | intro _

theorem moves_cePassed {ps : List Part} {s0 s : State} {x1} {x2} (_hp : [.sx, .fx] ⊆ ps) (h : moves ps s0 s) :
    moves ps s0 (State.cePassed s x1 x2) := by
  unfold State.cePassed
  (try dsimp only)
  repeat' first
    | with_reducible assumption
    | split
    | with_reducible apply moves_setFrame
    | with_reducible apply moves_upd_fx
    | exact _hp (by decide)
    | exact List.Subset.trans (by decide) _hp
    | intro _

theorem moves_ceReceive {ps : List Part} {s0 s : State} {x1} {x2} (_hp : [.out, .regs, .scope, .sx, .fx, .ce] ⊆ ps) (h : moves ps s0 s) :
    moves ps s0 (State.ceReceive s x1 x2) := by
  unfold State.ceReceive
  (try dsimp only)
  repeat' first
    | with_reducible assumption
    | split
    | with_reducible apply moves_cePassed
    | with_reducible apply moves_ceReject
    | with_reducible apply moves_raise
    | with_reducible apply moves_bump
    | with_reducible apply moves_ceInSc
    | exact _hp (by decide)
    | exact List.Subset.trans (by decide) _hp
    | intro _

theorem moves_ceTxDrop {ps : List Part} {s0 s : State} {x1} {x2} {x3} {x4} (_hp : [.out, .regs, .scope, .sx, .ob, .cx, .mx] ⊆ ps) (h : moves ps s0 s) :
    moves ps s0 (State.ceTxDrop s x1 x2 x3 x4) := by
  unfold State.ceTxDrop
  (try dsimp only)
  repeat' first
    | with_reducible assumption
    | split
    | with_reducible apply moves_dropCopy
    | with_reducible apply moves_setMq
    | exact _hp (by decide)
    | exact List.Subset.trans (by decide) _hp
    | intro _

theorem moves_ceProtect {ps : List Part} {s0 s : State} {x1} {x2} {x3} {x4} {x5} (_hp : [.out, .regs, .scope, .sx, .ob, .ce, .cx, .mx] ⊆ ps) (h : moves ps s0 s) :
    moves ps s0 (State.ceProtect s x1 x2 x3 x4 x5) := by
  unfold State.ceProtect
  (try dsimp only)
  repeat' first
    | with_reducible assumption
    | split
    | with_reducible apply moves_ceTxDrop
    | with_reducible apply moves_ctxAsk
    | with_reducible refine moves_ctxAsk_eq ?_ ?_ (by assumption)
    | with_reducible apply moves_ctxDropCount
    | with_reducible apply moves_setMq
    | with_reducible apply moves_ctxTakePn
    | with_reducible apply moves_pmu
    | exact _hp (by decide)
    | exact List.Subset.trans (by decide) _hp
    | intro _

end Sys2Proof.Machine
end

