-- ==== Sys2Proof/Laws/MovesFoldOps.lean ====
section
/-!
SUPPORT. What each operation of Machine/FoldOps.lean can do: the parts of the state it may change, and what it keeps
(`moves`, Safety.lean). One lemma for each operation; callers cite it and do not unfold the operation.
-/

set_option linter.unusedTactic false
set_option linter.unreachableTactic false
set_option linter.unusedSimpArgs false

namespace Sys2Proof.Machine

open State

theorem moves_startMove {ps : List Part} {s0 s : State} {x1} {x2} (_hp : [.regs, .pw] ⊆ ps) (h : moves ps s0 s) :
    moves ps s0 (State.startMove s x1 x2) := by
  unfold State.startMove
  (try dsimp only)
  repeat' first
    | with_reducible assumption
    | split
    | with_reducible apply moves_setRg
    | with_reducible apply moves_upd_pw
    | exact _hp (by decide)
    | exact List.Subset.trans (by decide) _hp
    | intro _

theorem moves_modeAuto {ps : List Part} {s0 s : State} (_hp : [.regs, .pw] ⊆ ps) (h : moves ps s0 s) :
    moves ps s0 (State.modeAuto s) := by
  unfold State.modeAuto
  (try dsimp only)
  repeat' first
    | with_reducible assumption
    | split
    | with_reducible apply moves_startMove
    | with_reducible apply moves_upd_pw
    | exact _hp (by decide)
    | exact List.Subset.trans (by decide) _hp
    | intro _

theorem moves_kaEthernet {ps : List Part} {s0 s : State} {x1} {x2} (_hp : [.freeN, .out, .regs, .scope, .pw, .sx, .fx, .ob, .aon, .cx, .mx] ⊆ ps) (h : moves ps s0 s) :
    moves ps s0 (State.kaEthernet s x1 x2) := by
  unfold State.kaEthernet
  (try dsimp only)
  repeat' first
    | with_reducible assumption
    | split
    | with_reducible apply moves_setSd
    | with_reducible apply moves_enterWhole
    | exact _hp (by decide)
    | exact List.Subset.trans (by decide) _hp
    | intro _

theorem moves_kaFails {ps : List Part} {s0 s : State} {x1} {x2} (_hp : [.out, .regs, .scope, .aon] ⊆ ps) (h : moves ps s0 s) :
    moves ps s0 (State.kaFails s x1 x2) := by
  unfold State.kaFails
  (try dsimp only)
  repeat' first
    | with_reducible assumption
    | split
    | with_reducible apply moves_raise
    | with_reducible apply moves_bump
    | with_reducible apply moves_setSd
    | exact _hp (by decide)
    | exact List.Subset.trans (by decide) _hp
    | intro _

theorem moves_kaCan {ps : List Part} {s0 s : State} {x1} {x2} (_hp : [.out, .regs, .scope, .bx, .aon] ⊆ ps) (h : moves ps s0 s) :
    moves ps s0 (State.kaCan s x1 x2) := by
  unfold State.kaCan
  (try dsimp only)
  repeat' first
    | with_reducible assumption
    | split
    | with_reducible apply moves_kaFails
    | with_reducible apply moves_setStatus
    | with_reducible apply moves_putData
    | with_reducible apply moves_putHeader
    | with_reducible apply moves_setSd
    | exact _hp (by decide)
    | exact List.Subset.trans (by decide) _hp
    | intro _

theorem moves_talk {ps : List Part} {s0 s : State} {x1} {x2} {x3} {x4} (_hp : [.regs, .aon] ⊆ ps) (h : moves ps s0 s) :
    moves ps s0 (State.talk s x1 x2 x3 x4) := by
  unfold State.talk
  (try dsimp only)
  repeat' first
    | with_reducible assumption
    | split
    | with_reducible apply moves_bump
    | with_reducible apply moves_wr
    | with_reducible apply moves_setRg
    | with_reducible apply moves_upd_aon
    | exact _hp (by decide)
    | exact List.Subset.trans (by decide) _hp
    | intro _

theorem moves_overstayRecords {ps : List Part} {s0 s : State} {x1} {x2} (_hp : [.out, .regs, .scope, .ob] ⊆ ps) (h : moves ps s0 s) :
    moves ps s0 (State.overstayRecords s x1 x2) := by
  unfold State.overstayRecords
  (try dsimp only)
  repeat' first
    | with_reducible assumption
    | split
    | with_reducible apply moves_forEach
    | with_reducible apply moves_ledgerAdd
    | exact _hp (by decide)
    | exact List.Subset.trans (by decide) _hp
    | intro _

theorem moves_foldJudge {ps : List Part} {s0 s : State} {x1} (_hp : [.freeN, .out, .regs, .scope, .pw, .sx, .fx, .ob, .aon, .cx, .mx] ⊆ ps) (h : moves ps s0 s) :
    moves ps s0 (State.foldJudge s x1) := by
  unfold State.foldJudge
  (try dsimp only)
  repeat' first
    | with_reducible assumption
    | split
    | with_reducible apply moves_setSd
    | with_reducible apply moves_kaEthernet
    | with_reducible apply moves_needUp
    | exact _hp (by decide)
    | exact List.Subset.trans (by decide) _hp
    | intro _

theorem moves_foldsJudge {ps : List Part} {s0 s : State} (_hp : [.freeN, .out, .regs, .scope, .pw, .sx, .fx, .ob, .aon, .cx, .mx] ⊆ ps) (h : moves ps s0 s) :
    moves ps s0 (State.foldsJudge s) := by
  unfold State.foldsJudge
  (try dsimp only)
  repeat' first
    | with_reducible assumption
    | split
    | with_reducible apply moves_forEach
    | with_reducible apply moves_foldJudge
    | exact _hp (by decide)
    | exact List.Subset.trans (by decide) _hp
    | intro _

theorem moves_validate {ps : List Part} {s0 s : State} {x1} (_hp : [.aon] ⊆ ps) (h : moves ps s0 s) :
    moves ps s0 (State.validate s x1) := by
  unfold State.validate
  (try dsimp only)
  repeat' first
    | with_reducible assumption
    | split
    | with_reducible apply moves_upd_aon
    | exact _hp (by decide)
    | exact List.Subset.trans (by decide) _hp
    | intro _

theorem moves_kaWake {ps : List Part} {s0 s : State} {x1} {x2} {x3} (_hp : [.out, .regs, .scope, .pw, .ob, .aon] ⊆ ps) (h : moves ps s0 s) :
    moves ps s0 (State.kaWake s x1 x2 x3) := by
  unfold State.kaWake
  (try dsimp only)
  repeat' first
    | with_reducible assumption
    | split
    | with_reducible apply moves_wake
    | exact _hp (by decide)
    | exact List.Subset.trans (by decide) _hp
    | intro _

theorem moves_kaTake {ps : List Part} {s0 s : State} {x1} {x2} {x3} {x4} {x5} (_hp : [.out, .regs, .scope, .pw, .ob, .aon] ⊆ ps) (h : moves ps s0 s) :
    moves ps s0 (State.kaTake s x1 x2 x3 x4 x5) := by
  unfold State.kaTake
  (try dsimp only)
  repeat' first
    | with_reducible assumption
    | split
    | with_reducible apply moves_bump
    | with_reducible apply moves_validate
    | with_reducible apply moves_forEach
    | with_reducible apply moves_kaWake
    | with_reducible apply moves_talk
    | with_reducible apply moves_setSd
    | exact _hp (by decide)
    | exact List.Subset.trans (by decide) _hp
    | intro _

end Sys2Proof.Machine
end

