-- ==== Sys2Proof/Laws/MovesFxOps.lean ====
section
/-!
SUPPORT. What each operation of Machine/FxOps.lean can do: the parts of the state it may change, and what it keeps
(`moves`, Safety.lean). One lemma for each operation; callers cite it and do not unfold the operation.
-/

set_option linter.unusedTactic false
set_option linter.unreachableTactic false
set_option linter.unusedSimpArgs false

namespace Sys2Proof.Machine

open State

theorem moves_setFdb {ps : List Part} {s0 s : State} {x1} {x2} (_hp : [.fx] ⊆ ps) (h : moves ps s0 s) :
    moves ps s0 (State.setFdb s x1 x2) := by
  unfold State.setFdb
  (try dsimp only)
  repeat' first
    | with_reducible assumption
    | split
    | with_reducible apply moves_upd_fx
    | exact _hp (by decide)
    | exact List.Subset.trans (by decide) _hp
    | intro _

theorem moves_checkLimit {ps : List Part} {s0 s : State} {x1} {x2} (_hp : [.out, .regs, .scope, .fx] ⊆ ps) (h : moves ps s0 s) :
    moves ps s0 (State.checkLimit s x1 x2) := by
  unfold State.checkLimit
  (try dsimp only)
  repeat' first
    | with_reducible assumption
    | split
    | with_reducible apply moves_raise
    | with_reducible apply moves_setRg
    | with_reducible apply moves_upd_fx
    | exact _hp (by decide)
    | exact List.Subset.trans (by decide) _hp
    | intro _

theorem moves_forget {ps : List Part} {s0 s : State} {x1} (_hp : [.fx] ⊆ ps) (h : moves ps s0 s) :
    moves ps s0 (State.forget s x1) := by
  unfold State.forget
  (try dsimp only)
  repeat' first
    | with_reducible assumption
    | split
    | with_reducible apply moves_setFdb
    | with_reducible apply moves_upd_fx
    | exact _hp (by decide)
    | exact List.Subset.trans (by decide) _hp
    | intro _

theorem moves_purgeLearned {ps : List Part} {s0 s : State} (_hp : [.fx] ⊆ ps) (h : moves ps s0 s) :
    moves ps s0 (State.purgeLearned s) := by
  unfold State.purgeLearned
  (try dsimp only)
  repeat' first
    | with_reducible assumption
    | split
    | with_reducible apply moves_forEach
    | with_reducible apply moves_forget
    | exact _hp (by decide)
    | exact List.Subset.trans (by decide) _hp
    | intro _

theorem moves_staticRemove {ps : List Part} {s0 s : State} {x1} {x2} {x3} {x4} (_hp : [.fx] ⊆ ps) (h : moves ps s0 s) :
    moves ps s0 (State.staticRemove s x1 x2 x3 x4) := by
  unfold State.staticRemove
  (try dsimp only)
  repeat' first
    | with_reducible assumption
    | split
    | with_reducible apply moves_setFdb
    | exact _hp (by decide)
    | exact List.Subset.trans (by decide) _hp
    | intro _

theorem moves_staticInstall {ps : List Part} {s0 s : State} {x1} {x2} {x3} {x4} {x5} (_hp : [.out, .regs, .scope, .fx] ⊆ ps) (h : moves ps s0 s) :
    moves ps s0 (State.staticInstall s x1 x2 x3 x4 x5) := by
  unfold State.staticInstall
  (try dsimp only)
  repeat' first
    | with_reducible assumption
    | split
    | with_reducible apply moves_setFdb
    | with_reducible apply moves_forget
    | with_reducible apply moves_purgeLearned
    | with_reducible apply moves_bump
    | with_reducible apply moves_raise
    | with_reducible apply moves_setRg
    | exact _hp (by decide)
    | exact List.Subset.trans (by decide) _hp
    | intro _

theorem moves_staticWritten {ps : List Part} {s0 s : State} {x1} {x2} (_hp : [.out, .regs, .scope, .fx] ⊆ ps) (h : moves ps s0 s) :
    moves ps s0 (State.staticWritten s x1 x2) := by
  unfold State.staticWritten
  (try dsimp only)
  repeat' first
    | with_reducible assumption
    | split
    | with_reducible apply moves_staticRemove
    | with_reducible apply moves_staticInstall
    | exact _hp (by decide)
    | exact List.Subset.trans (by decide) _hp
    | intro _

theorem moves_staticsRollback {ps : List Part} {s0 s : State} (_hp : [.fx] ⊆ ps) (h : moves ps s0 s) :
    moves ps s0 (State.staticsRollback s) := by
  unfold State.staticsRollback
  (try dsimp only)
  repeat' first
    | with_reducible assumption
    | split
    | with_reducible apply moves_forEach
    | with_reducible apply moves_setFdb
    | exact _hp (by decide)
    | exact List.Subset.trans (by decide) _hp
    | intro _

theorem moves_staticsSwap {ps : List Part} {s0 s : State} (_hp : [.fx] ⊆ ps) (h : moves ps s0 s) :
    moves ps s0 (State.staticsSwap s) := by
  unfold State.staticsSwap
  (try dsimp only)
  repeat' first
    | with_reducible assumption
    | split
    | with_reducible apply moves_forEach
    | with_reducible apply moves_setFdb
    | exact _hp (by decide)
    | exact List.Subset.trans (by decide) _hp
    | intro _

theorem moves_staticsDrained {ps : List Part} {s0 s : State} (_hp : [.fx] ⊆ ps) (h : moves ps s0 s) :
    moves ps s0 (State.staticsDrained s) := by
  unfold State.staticsDrained
  (try dsimp only)
  repeat' first
    | with_reducible assumption
    | split
    | with_reducible apply moves_forEach
    | with_reducible apply moves_forget
    | exact _hp (by decide)
    | exact List.Subset.trans (by decide) _hp
    | intro _

theorem moves_setCurrent {ps : List Part} {s0 s : State} {x1} {x2} {x3} (_hp : [.fx] ⊆ ps) (h : moves ps s0 s) :
    moves ps s0 (State.setCurrent s x1 x2 x3) := by
  unfold State.setCurrent
  (try dsimp only)
  repeat' first
    | with_reducible assumption
    | split
    | with_reducible apply moves_upd_fx
    | exact _hp (by decide)
    | exact List.Subset.trans (by decide) _hp
    | intro _

theorem moves_notePg {ps : List Part} {s0 s : State} {x1} (_hp : [.regs] ⊆ ps) (h : moves ps s0 s) :
    moves ps s0 (State.notePg s x1) := by
  unfold State.notePg
  (try dsimp only)
  repeat' first
    | with_reducible assumption
    | split
    | with_reducible apply moves_setRg
    | exact _hp (by decide)
    | exact List.Subset.trans (by decide) _hp
    | intro _

theorem moves_pgMoved {ps : List Part} {s0 s : State} {x1} {x2} (_hp : [.out, .regs, .scope] ⊆ ps) (h : moves ps s0 s) :
    moves ps s0 (State.pgMoved s x1 x2) := by
  unfold State.pgMoved
  (try dsimp only)
  repeat' first
    | with_reducible assumption
    | split
    | with_reducible apply moves_raise
    | with_reducible apply moves_setRg
    | with_reducible apply moves_bump
    | exact _hp (by decide)
    | exact List.Subset.trans (by decide) _hp
    | intro _

theorem moves_setRejoin {ps : List Part} {s0 s : State} {x1} {x2} (_hp : [.fx] ⊆ ps) (h : moves ps s0 s) :
    moves ps s0 (State.setRejoin s x1 x2) := by
  unfold State.setRejoin
  (try dsimp only)
  repeat' first
    | with_reducible assumption
    | split
    | with_reducible apply moves_upd_fx
    | exact _hp (by decide)
    | exact List.Subset.trans (by decide) _hp
    | intro _

theorem moves_pgPortDown {ps : List Part} {s0 s : State} {x1} (_hp : [.out, .regs, .scope, .fx] ⊆ ps) (h : moves ps s0 s) :
    moves ps s0 (State.pgPortDown s x1) := by
  unfold State.pgPortDown
  (try dsimp only)
  repeat' first
    | with_reducible assumption
    | split
    | with_reducible apply moves_forEach
    | with_reducible apply moves_setCurrent
    | with_reducible apply moves_setRejoin
    | with_reducible apply moves_pgMoved
    | with_reducible apply moves_notePg
    | exact _hp (by decide)
    | exact List.Subset.trans (by decide) _hp
    | intro _

theorem moves_pgPortUp {ps : List Part} {s0 s : State} {x1} (_hp : [.regs, .fx] ⊆ ps) (h : moves ps s0 s) :
    moves ps s0 (State.pgPortUp s x1) := by
  unfold State.pgPortUp
  (try dsimp only)
  repeat' first
    | with_reducible assumption
    | split
    | with_reducible apply moves_forEach
    | with_reducible apply moves_notePg
    | with_reducible apply moves_setRejoin
    | with_reducible apply moves_upd_fx
    | exact _hp (by decide)
    | exact List.Subset.trans (by decide) _hp
    | intro _

theorem moves_pgRejoin {ps : List Part} {s0 s : State} {x1} {x2} (_hp : [.out, .regs, .scope, .fx] ⊆ ps) (h : moves ps s0 s) :
    moves ps s0 (State.pgRejoin s x1 x2) := by
  unfold State.pgRejoin
  (try dsimp only)
  repeat' first
    | with_reducible assumption
    | split
    | with_reducible apply moves_setCurrent
    | with_reducible apply moves_pgMoved
    | with_reducible apply moves_setRejoin
    | exact _hp (by decide)
    | exact List.Subset.trans (by decide) _hp
    | intro _

theorem moves_pgNone {ps : List Part} {s0 s : State} {x1} (_hp : [.out, .regs, .scope, .fx] ⊆ ps) (h : moves ps s0 s) :
    moves ps s0 (State.pgNone s x1) := by
  unfold State.pgNone
  (try dsimp only)
  repeat' first
    | with_reducible assumption
    | split
    | with_reducible apply moves_bump
    | with_reducible apply moves_raise
    | with_reducible apply moves_setRg
    | with_reducible apply moves_upd_fx
    | exact _hp (by decide)
    | exact List.Subset.trans (by decide) _hp
    | intro _

theorem moves_police {ps : List Part} {s0 s : State} {x1} {x2} {x3} {x4} {x5} (_hp : [.out, .regs, .scope, .fx] ⊆ ps) (h : moves ps s0 s) :
    moves ps s0 (State.police s x1 x2 x3 x4 x5).1 := by
  unfold State.police
  (try dsimp only)
  repeat' first
    | with_reducible assumption
    | split
    | with_reducible apply moves_bump
    | with_reducible apply moves_pmu
    | with_reducible apply moves_raise
    | with_reducible apply moves_setRg
    | with_reducible apply moves_upd_fx
    | exact _hp (by decide)
    | exact List.Subset.trans (by decide) _hp
    | intro _

theorem moves_police_eq {ps : List Part} {s0 s : State} {x1} {x2} {x3} {x4} {x5} (_hp : [.out, .regs, .scope, .fx] ⊆ ps) (h : moves ps s0 s) {t v} (hq : (State.police s x1 x2 x3 x4 x5) = (t, v)) :
    moves ps s0 t := by
  have := moves_police (x1 := x1) (x2 := x2) (x3 := x3) (x4 := x4) (x5 := x5)  _hp h
  rwa [hq] at this

theorem moves_sgateShow {ps : List Part} {s0 s : State} {x1} (_hp : [.regs] ⊆ ps) (h : moves ps s0 s) :
    moves ps s0 (State.sgateShow s x1) := by
  unfold State.sgateShow
  (try dsimp only)
  repeat' first
    | with_reducible assumption
    | split
    | with_reducible apply moves_setRg
    | exact _hp (by decide)
    | exact List.Subset.trans (by decide) _hp
    | intro _

theorem moves_filterSdu {ps : List Part} {s0 s : State} {x1} {x2} (_hp : [.out, .regs, .scope] ⊆ ps) (h : moves ps s0 s) :
    moves ps s0 (State.filterSdu s x1 x2).1 := by
  unfold State.filterSdu
  (try dsimp only)
  repeat' first
    | with_reducible assumption
    | split
    | with_reducible apply moves_bump
    | with_reducible apply moves_raise
    | with_reducible apply moves_setRg
    | exact _hp (by decide)
    | exact List.Subset.trans (by decide) _hp
    | intro _

theorem moves_filterSdu_eq {ps : List Part} {s0 s : State} {x1} {x2} (_hp : [.out, .regs, .scope] ⊆ ps) (h : moves ps s0 s) {t v} (hq : (State.filterSdu s x1 x2) = (t, v)) :
    moves ps s0 t := by
  have := moves_filterSdu (x1 := x1) (x2 := x2)  _hp h
  rwa [hq] at this

theorem moves_filterGate {ps : List Part} {s0 s : State} {x1} {x2} (_hp : [.out, .regs, .scope] ⊆ ps) (h : moves ps s0 s) :
    moves ps s0 (State.filterGate s x1 x2).1 := by
  unfold State.filterGate
  (try dsimp only)
  repeat' first
    | with_reducible assumption
    | split
    | with_reducible apply moves_bump
    | with_reducible apply moves_raise
    | with_reducible apply moves_setRg
    | with_reducible apply moves_sgateShow
    | exact _hp (by decide)
    | exact List.Subset.trans (by decide) _hp
    | intro _

theorem moves_filterGate_eq {ps : List Part} {s0 s : State} {x1} {x2} (_hp : [.out, .regs, .scope] ⊆ ps) (h : moves ps s0 s) {t v} (hq : (State.filterGate s x1 x2) = (t, v)) :
    moves ps s0 t := by
  have := moves_filterGate (x1 := x1) (x2 := x2)  _hp h
  rwa [hq] at this

theorem moves_filterMeter {ps : List Part} {s0 s : State} {x1} {x2} {x3} (_hp : [.out, .regs, .scope, .fx] ⊆ ps) (h : moves ps s0 s) :
    moves ps s0 (State.filterMeter s x1 x2 x3).1 := by
  unfold State.filterMeter
  (try dsimp only)
  repeat' first
    | with_reducible assumption
    | split
    | with_reducible apply moves_police
    | with_reducible refine moves_police_eq ?_ ?_ (by assumption)
    | with_reducible apply moves_bump
    | with_reducible apply moves_raise
    | with_reducible apply moves_setRg
    | exact _hp (by decide)
    | exact List.Subset.trans (by decide) _hp
    | intro _

theorem moves_filterMeter_eq {ps : List Part} {s0 s : State} {x1} {x2} {x3} (_hp : [.out, .regs, .scope, .fx] ⊆ ps) (h : moves ps s0 s) {t v} (hq : (State.filterMeter s x1 x2 x3) = (t, v)) :
    moves ps s0 t := by
  have := moves_filterMeter (x1 := x1) (x2 := x2) (x3 := x3)  _hp h
  rwa [hq] at this

theorem moves_streamFilter {ps : List Part} {s0 s : State} {x1} {x2} {x3} (_hp : [.out, .regs, .scope, .fx] ⊆ ps) (h : moves ps s0 s) :
    moves ps s0 (State.streamFilter s x1 x2 x3).1 := by
  unfold State.streamFilter
  (try dsimp only)
  repeat' first
    | with_reducible assumption
    | split
    | with_reducible apply moves_filterSdu
    | with_reducible refine moves_filterSdu_eq ?_ ?_ (by assumption)
    | with_reducible apply moves_bump
    | with_reducible apply moves_pmu
    | with_reducible apply moves_filterGate
    | with_reducible refine moves_filterGate_eq ?_ ?_ (by assumption)
    | with_reducible apply moves_filterMeter
    | with_reducible refine moves_filterMeter_eq ?_ ?_ (by assumption)
    | exact _hp (by decide)
    | exact List.Subset.trans (by decide) _hp
    | intro _

theorem moves_streamFilter_eq {ps : List Part} {s0 s : State} {x1} {x2} {x3} (_hp : [.out, .regs, .scope, .fx] ⊆ ps) (h : moves ps s0 s) {t v} (hq : (State.streamFilter s x1 x2 x3) = (t, v)) :
    moves ps s0 t := by
  have := moves_streamFilter (x1 := x1) (x2 := x2) (x3 := x3)  _hp h
  rwa [hq] at this

theorem moves_setRecovery {ps : List Part} {s0 s : State} {x1} {x2} (_hp : [.fx] ⊆ ps) (h : moves ps s0 s) :
    moves ps s0 (State.setRecovery s x1 x2) := by
  unfold State.setRecovery
  (try dsimp only)
  repeat' first
    | with_reducible assumption
    | split
    | with_reducible apply moves_upd_fx
    | exact _hp (by decide)
    | exact List.Subset.trans (by decide) _hp
    | intro _

theorem moves_recover {ps : List Part} {s0 s : State} {x1} {x2} {x3} (_hp : [.out, .regs, .scope, .fx] ⊆ ps) (h : moves ps s0 s) :
    moves ps s0 (State.recover s x1 x2 x3).1 := by
  unfold State.recover
  (try dsimp only)
  repeat' first
    | with_reducible assumption
    | split
    | with_reducible apply moves_bump
    | with_reducible apply moves_pmu
    | with_reducible apply moves_setRecovery
    | exact _hp (by decide)
    | exact List.Subset.trans (by decide) _hp
    | intro _

theorem moves_recover_eq {ps : List Part} {s0 s : State} {x1} {x2} {x3} (_hp : [.out, .regs, .scope, .fx] ⊆ ps) (h : moves ps s0 s) {t v} (hq : (State.recover s x1 x2 x3) = (t, v)) :
    moves ps s0 t := by
  have := moves_recover (x1 := x1) (x2 := x2) (x3 := x3)  _hp h
  rwa [hq] at this

theorem moves_frer {ps : List Part} {s0 s : State} {x1} {x2} {x3} (_hp : [.out, .regs, .scope, .fx] ⊆ ps) (h : moves ps s0 s) :
    moves ps s0 (State.frer s x1 x2 x3).1 := by
  unfold State.frer
  (try dsimp only)
  repeat' first
    | with_reducible assumption
    | split
    | with_reducible apply moves_recover
    | with_reducible refine moves_recover_eq ?_ ?_ (by assumption)
    | with_reducible apply moves_bump
    | with_reducible apply moves_pmu
    | with_reducible apply moves_upd_fx
    | exact _hp (by decide)
    | exact List.Subset.trans (by decide) _hp
    | intro _

theorem moves_frer_eq {ps : List Part} {s0 s : State} {x1} {x2} {x3} (_hp : [.out, .regs, .scope, .fx] ⊆ ps) (h : moves ps s0 s) {t v} (hq : (State.frer s x1 x2 x3) = (t, v)) :
    moves ps s0 t := by
  have := moves_frer (x1 := x1) (x2 := x2) (x3 := x3)  _hp h
  rwa [hq] at this

end Sys2Proof.Machine
end

