-- ==== Sys2Proof/Laws/MovesPqOps.lean ====
section
/-!
SUPPORT. What each operation of Machine/PqOps.lean can do: the parts of the state it may change, and what it keeps
(`moves`, Safety.lean). One lemma for each operation; callers cite it and do not unfold the operation.
-/

set_option linter.unusedTactic false
set_option linter.unreachableTactic false
set_option linter.unusedSimpArgs false

namespace Sys2Proof.Machine

open State

theorem moves_setPq {ps : List Part} {s0 s : State} {x1} {x2} (_hp : [.regs, .bx] ⊆ ps) (h : moves ps s0 s) :
    moves ps s0 (State.setPq s x1 x2) := by
  unfold State.setPq
  (try dsimp only)
  repeat' first
    | with_reducible assumption
    | split
    | with_reducible apply moves_setRg
    | with_reducible apply moves_upd_bx
    | exact _hp (by decide)
    | exact List.Subset.trans (by decide) _hp
    | intro _

theorem moves_pqEvent {ps : List Part} {s0 s : State} {x1} {x2} (_hp : [.out, .regs, .scope] ⊆ ps) (h : moves ps s0 s) :
    moves ps s0 (State.pqEvent s x1 x2) := by
  unfold State.pqEvent
  (try dsimp only)
  repeat' first
    | with_reducible assumption
    | split
    | with_reducible apply moves_raise
    | with_reducible apply moves_setRg
    | exact _hp (by decide)
    | exact List.Subset.trans (by decide) _hp
    | intro _

theorem moves_pqStart {ps : List Part} {s0 s : State} {x1} {x2} (_hp : [.out, .regs, .scope, .bx] ⊆ ps) (h : moves ps s0 s) :
    moves ps s0 (State.pqStart s x1 x2) := by
  unfold State.pqStart
  (try dsimp only)
  repeat' first
    | with_reducible assumption
    | split
    | with_reducible apply moves_bump
    | with_reducible apply moves_pqEvent
    | with_reducible apply moves_setPq
    | exact _hp (by decide)
    | exact List.Subset.trans (by decide) _hp
    | intro _

theorem moves_pqNext {ps : List Part} {s0 s : State} {x1} {x2} (_hp : [.out, .regs, .scope, .bx] ⊆ ps) (h : moves ps s0 s) :
    moves ps s0 (State.pqNext s x1 x2) := by
  induction x2 generalizing s  with
  | nil =>
    unfold State.pqNext
    (try dsimp only)
    repeat' first
      | with_reducible assumption
      | with_reducible apply moves_setPq
      | with_reducible apply moves_pqStart
      | split
      | exact _hp (by decide)
      | exact List.Subset.trans (by decide) _hp
  | cons a l ih =>
    unfold State.pqNext
    (try dsimp only)
    repeat' first
      | with_reducible assumption
      | with_reducible apply ih
      | with_reducible apply moves_setPq
      | with_reducible apply moves_pqStart
      | split
      | exact _hp (by decide)
      | exact List.Subset.trans (by decide) _hp


theorem moves_pqOffer {ps : List Part} {s0 s : State} {x1} {x2} (_hp : [.out, .regs, .scope, .bx] ⊆ ps) (h : moves ps s0 s) :
    moves ps s0 (State.pqOffer s x1 x2) := by
  unfold State.pqOffer
  (try dsimp only)
  repeat' first
    | with_reducible assumption
    | split
    | with_reducible apply moves_bump
    | with_reducible apply moves_setPq
    | with_reducible apply moves_pqStart
    | exact _hp (by decide)
    | exact List.Subset.trans (by decide) _hp
    | intro _

theorem moves_pqEcc {ps : List Part} {s0 s : State} {x1} {x2} {x3} (_hp : [.out, .regs, .scope, .ob] ⊆ ps) (h : moves ps s0 s) :
    moves ps s0 (State.pqEcc s x1 x2 x3) := by
  unfold State.pqEcc
  (try dsimp only)
  repeat' first
    | with_reducible assumption
    | split
    | with_reducible apply moves_fault
    | with_reducible apply moves_pqEvent
    | with_reducible apply moves_bump
    | exact _hp (by decide)
    | exact List.Subset.trans (by decide) _hp
    | intro _

theorem moves_pqTake {ps : List Part} {s0 s : State} {x1} {x2} {x3} {x4} (_hp : [.out, .regs, .scope, .ob, .bx] ⊆ ps) (h : moves ps s0 s) :
    moves ps s0 (State.pqTake s x1 x2 x3 x4) := by
  unfold State.pqTake
  (try dsimp only)
  repeat' first
    | with_reducible assumption
    | split
    | with_reducible apply moves_setPq
    | with_reducible apply moves_csuSee
    | with_reducible apply moves_forEach
    | with_reducible apply moves_pqEcc
    | exact _hp (by decide)
    | exact List.Subset.trans (by decide) _hp
    | intro _

theorem moves_pqReset {ps : List Part} {s0 s : State} {x1} (_hp : [.out, .regs, .scope, .sx, .ob, .bx, .cx, .mx] ⊆ ps) (h : moves ps s0 s) :
    moves ps s0 (State.pqReset s x1) := by
  unfold State.pqReset
  (try dsimp only)
  repeat' first
    | with_reducible assumption
    | split
    | with_reducible apply moves_bump
    | with_reducible apply moves_setPq
    | with_reducible apply moves_dropCopy
    | with_reducible apply moves_setTx
    | with_reducible apply moves_pqNext
    | exact _hp (by decide)
    | exact List.Subset.trans (by decide) _hp
    | intro _

theorem moves_p38Rewind {ps : List Part} {s0 s : State} {x1} (_hp : [.regs, .bx] ⊆ ps) (h : moves ps s0 s) :
    moves ps s0 (State.p38Rewind s x1) := by
  unfold State.p38Rewind
  (try dsimp only)
  repeat' first
    | with_reducible assumption
    | split
    | with_reducible apply moves_bump
    | with_reducible apply moves_setPq
    | exact _hp (by decide)
    | exact List.Subset.trans (by decide) _hp
    | intro _

theorem moves_pqCommit {ps : List Part} {s0 s : State} {x1} (_hp : [.out, .regs, .scope, .sx, .ob, .bx, .cx, .mx] ⊆ ps) (h : moves ps s0 s) :
    moves ps s0 (State.pqCommit s x1) := by
  unfold State.pqCommit
  (try dsimp only)
  repeat' first
    | with_reducible assumption
    | split
    | with_reducible apply moves_forEach
    | with_reducible apply moves_pqReset
    | exact _hp (by decide)
    | exact List.Subset.trans (by decide) _hp
    | intro _

end Sys2Proof.Machine
end

