-- ==== Sys2Proof/Laws/MovesPortOps.lean ====
section
/-!
SUPPORT. What each operation of Machine/PortOps.lean can do: the parts of the state it may change, and what it keeps
(`moves`, Safety.lean). One lemma for each operation; callers cite it and do not unfold the operation.
-/

set_option linter.unusedTactic false
set_option linter.unreachableTactic false
set_option linter.unusedSimpArgs false

namespace Sys2Proof.Machine

open State

theorem moves_portEvent {ps : List Part} {s0 s : State} {x1} {x2} (_hp : [.out, .regs, .scope] ⊆ ps) (h : moves ps s0 s) :
    moves ps s0 (State.portEvent s x1 x2) := by
  unfold State.portEvent
  (try dsimp only)
  repeat' first
    | with_reducible assumption
    | split
    | with_reducible apply moves_raise
    | with_reducible apply moves_setRg
    | exact _hp (by decide)
    | exact List.Subset.trans (by decide) _hp
    | intro _

theorem moves_setPaused {ps : List Part} {s0 s : State} {x1} {x2} {x3} (_hp : [.regs] ⊆ ps) (h : moves ps s0 s) :
    moves ps s0 (State.setPaused s x1 x2 x3) := by
  unfold State.setPaused
  (try dsimp only)
  repeat' first
    | with_reducible assumption
    | split
    | with_reducible apply moves_setRg
    | exact _hp (by decide)
    | exact List.Subset.trans (by decide) _hp
    | intro _

theorem moves_endPause {ps : List Part} {s0 s : State} {x1} {x2} (_hp : [.regs, .px] ⊆ ps) (h : moves ps s0 s) :
    moves ps s0 (State.endPause s x1 x2) := by
  unfold State.endPause
  (try dsimp only)
  repeat' first
    | with_reducible assumption
    | split
    | with_reducible apply moves_setPaused
    | with_reducible apply moves_upd_px
    | exact _hp (by decide)
    | exact List.Subset.trans (by decide) _hp
    | intro _

theorem moves_endPauses {ps : List Part} {s0 s : State} {x1} (_hp : [.regs, .px] ⊆ ps) (h : moves ps s0 s) :
    moves ps s0 (State.endPauses s x1) := by
  unfold State.endPauses
  (try dsimp only)
  repeat' first
    | with_reducible assumption
    | split
    | with_reducible apply moves_forEach
    | with_reducible apply moves_endPause
    | exact _hp (by decide)
    | exact List.Subset.trans (by decide) _hp
    | intro _

theorem moves_startPause {ps : List Part} {s0 s : State} {x1} {x2} {x3} (_hp : [.regs, .px] ⊆ ps) (h : moves ps s0 s) :
    moves ps s0 (State.startPause s x1 x2 x3) := by
  unfold State.startPause
  (try dsimp only)
  repeat' first
    | with_reducible assumption
    | split
    | with_reducible apply moves_endPause
    | with_reducible apply moves_setPaused
    | with_reducible apply moves_upd_px
    | exact _hp (by decide)
    | exact List.Subset.trans (by decide) _hp
    | intro _

theorem moves_setPlca {ps : List Part} {s0 s : State} {x1} {x2} (_hp : [.px] ⊆ ps) (h : moves ps s0 s) :
    moves ps s0 (State.setPlca s x1 x2) := by
  unfold State.setPlca
  (try dsimp only)
  repeat' first
    | with_reducible assumption
    | split
    | with_reducible apply moves_upd_px
    | exact _hp (by decide)
    | exact List.Subset.trans (by decide) _hp
    | intro _

theorem moves_plcaTick {ps : List Part} {s0 s : State} {x1} (_hp : [.out, .px] ⊆ ps) (h : moves ps s0 s) :
    moves ps s0 (State.plcaTick s x1) := by
  unfold State.plcaTick
  (try dsimp only)
  repeat' first
    | with_reducible assumption
    | split
    | with_reducible apply moves_emit
    | with_reducible apply moves_setPlca
    | exact _hp (by decide)
    | exact List.Subset.trans (by decide) _hp
    | intro _

theorem moves_plcaStart {ps : List Part} {s0 s : State} {x1} (_hp : [.px] ⊆ ps) (h : moves ps s0 s) :
    moves ps s0 (State.plcaStart s x1) := by
  unfold State.plcaStart
  (try dsimp only)
  repeat' first
    | with_reducible assumption
    | split
    | with_reducible apply moves_setPlca
    | exact _hp (by decide)
    | exact List.Subset.trans (by decide) _hp
    | intro _

theorem moves_plcaEnd {ps : List Part} {s0 s : State} {x1} (_hp : [.px] ⊆ ps) (h : moves ps s0 s) :
    moves ps s0 (State.plcaEnd s x1) := by
  unfold State.plcaEnd
  (try dsimp only)
  repeat' first
    | with_reducible assumption
    | split
    | with_reducible apply moves_setPlca
    | exact _hp (by decide)
    | exact List.Subset.trans (by decide) _hp
    | intro _

theorem moves_stopTx {ps : List Part} {s0 s : State} {x1} (_hp : [.out, .regs, .scope, .sx, .ob, .bx, .cx, .mx] ⊆ ps) (h : moves ps s0 s) :
    moves ps s0 (State.stopTx s x1) := by
  unfold State.stopTx
  (try dsimp only)
  repeat' first
    | with_reducible assumption
    | split
    | with_reducible apply moves_bump64
    | with_reducible apply moves_p38Rewind
    | with_reducible apply moves_dropCopy
    | with_reducible apply moves_setTx
    | with_reducible apply moves_bump
    | exact _hp (by decide)
    | exact List.Subset.trans (by decide) _hp
    | intro _

theorem moves_dropAn {ps : List Part} {s0 s : State} {x1} (_hp : [.px] ⊆ ps) (h : moves ps s0 s) :
    moves ps s0 (State.dropAn s x1) := by
  unfold State.dropAn
  (try dsimp only)
  repeat' first
    | with_reducible assumption
    | split
    | with_reducible apply moves_upd_px
    | exact _hp (by decide)
    | exact List.Subset.trans (by decide) _hp
    | intro _

theorem moves_portDown {ps : List Part} {s0 s : State} {x1} (_hp : [.freeN, .out, .regs, .scope, .sx, .fx, .ob, .px, .bx, .cx, .mx] ⊆ ps) (h : moves ps s0 s) :
    moves ps s0 (State.portDown s x1) := by
  unfold State.portDown
  (try dsimp only)
  repeat' first
    | with_reducible assumption
    | split
    | with_reducible apply moves_dropAn
    | with_reducible apply moves_cutRx
    | with_reducible apply moves_endPauses
    | with_reducible apply moves_stopTx
    | with_reducible apply moves_setRg
    | with_reducible apply moves_portEvent
    | with_reducible apply moves_bump
    | with_reducible apply moves_flushPort
    | with_reducible apply moves_pgPortDown
    | with_reducible apply moves_setPlca
    | with_reducible apply moves_upd_sx
    | exact _hp (by decide)
    | exact List.Subset.trans (by decide) _hp
    | intro _

theorem moves_portComesUp {ps : List Part} {s0 s : State} {x1} {x2} (_hp : [.out, .regs, .scope, .fx] ⊆ ps) (h : moves ps s0 s) :
    moves ps s0 (State.portComesUp s x1 x2) := by
  unfold State.portComesUp
  (try dsimp only)
  repeat' first
    | with_reducible assumption
    | split
    | with_reducible apply moves_setRg
    | with_reducible apply moves_pgPortUp
    | with_reducible apply moves_portEvent
    | exact _hp (by decide)
    | exact List.Subset.trans (by decide) _hp
    | intro _

theorem moves_portJudge {ps : List Part} {s0 s : State} {x1} (_hp : [.freeN, .out, .regs, .scope, .sx, .fx, .ob, .px, .bx, .cx, .mx] ⊆ ps) (h : moves ps s0 s) :
    moves ps s0 (State.portJudge s x1) := by
  unfold State.portJudge
  (try dsimp only)
  repeat' first
    | with_reducible assumption
    | split
    | with_reducible apply moves_portComesUp
    | with_reducible apply moves_portDown
    | exact _hp (by decide)
    | exact List.Subset.trans (by decide) _hp
    | intro _

theorem moves_noteFb {ps : List Part} {s0 s : State} (_hp : [.regs, .pw] ⊆ ps) (h : moves ps s0 s) :
    moves ps s0 (State.noteFb s) := by
  unfold State.noteFb
  (try dsimp only)
  repeat' first
    | with_reducible assumption
    | split
    | with_reducible apply moves_wr
    | with_reducible apply moves_upd_pw
    | exact _hp (by decide)
    | exact List.Subset.trans (by decide) _hp
    | intro _

theorem moves_portsJudge {ps : List Part} {s0 s : State} (_hp : [.freeN, .out, .regs, .scope, .sx, .fx, .ob, .px, .bx, .cx, .mx] ⊆ ps) (h : moves ps s0 s) :
    moves ps s0 (State.portsJudge s) := by
  unfold State.portsJudge
  (try dsimp only)
  repeat' first
    | with_reducible assumption
    | split
    | with_reducible apply moves_forEach
    | with_reducible apply moves_portJudge
    | exact _hp (by decide)
    | exact List.Subset.trans (by decide) _hp
    | intro _

theorem moves_portMend {ps : List Part} {s0 s : State} {x1} {x2} (_hp : [.freeN, .out, .regs, .scope, .sx, .fx, .ob, .px, .bx, .cx, .mx] ⊆ ps) (h : moves ps s0 s) :
    moves ps s0 (State.portMend s x1 x2) := by
  unfold State.portMend
  (try dsimp only)
  repeat' first
    | with_reducible assumption
    | split
    | with_reducible apply moves_portJudge
    | with_reducible apply moves_setRg
    | exact _hp (by decide)
    | exact List.Subset.trans (by decide) _hp
    | intro _

theorem moves_quarantine {ps : List Part} {s0 s : State} {x1} {x2} (_hp : [.freeN, .out, .regs, .scope, .sx, .fx, .ob, .px, .bx, .cx, .mx] ⊆ ps) (h : moves ps s0 s) :
    moves ps s0 (State.quarantine s x1 x2) := by
  unfold State.quarantine
  (try dsimp only)
  repeat' first
    | with_reducible assumption
    | split
    | with_reducible apply moves_setRg
    | with_reducible apply moves_portJudge
    | with_reducible apply moves_portEvent
    | with_reducible apply moves_bump
    | with_reducible apply moves_upd_px
    | exact _hp (by decide)
    | exact List.Subset.trans (by decide) _hp
    | intro _

theorem moves_quarantineEnd {ps : List Part} {s0 s : State} {x1} (_hp : [.freeN, .out, .regs, .scope, .sx, .fx, .ob, .px, .bx, .cx, .mx] ⊆ ps) (h : moves ps s0 s) :
    moves ps s0 (State.quarantineEnd s x1) := by
  unfold State.quarantineEnd
  (try dsimp only)
  repeat' first
    | with_reducible assumption
    | split
    | with_reducible apply moves_setRg
    | with_reducible apply moves_portJudge
    | with_reducible apply moves_upd_px
    | exact _hp (by decide)
    | exact List.Subset.trans (by decide) _hp
    | intro _

theorem moves_idCollision {ps : List Part} {s0 s : State} {x1} (_hp : [.freeN, .out, .regs, .scope, .sx, .fx, .ob, .px, .bx, .cx, .mx] ⊆ ps) (h : moves ps s0 s) :
    moves ps s0 (State.idCollision s x1) := by
  unfold State.idCollision
  (try dsimp only)
  repeat' first
    | with_reducible assumption
    | split
    | with_reducible apply moves_bump
    | with_reducible apply moves_quarantine
    | with_reducible apply moves_portEvent
    | with_reducible apply moves_upd_px
    | exact _hp (by decide)
    | exact List.Subset.trans (by decide) _hp
    | intro _

end Sys2Proof.Machine
end

