-- ==== Sys2Proof/Laws/MovesHpOps.lean ====
section
/-!
SUPPORT. What each operation of Machine/HpOps.lean can do: the parts of the state it may change, and what it keeps
(`moves`, Safety.lean). One lemma for each operation; callers cite it and do not unfold the operation.
-/

set_option linter.unusedTactic false
set_option linter.unreachableTactic false
set_option linter.unusedSimpArgs false

namespace Sys2Proof.Machine

open State

theorem moves_rxBuffer {ps : List Part} {s0 s : State} {x1} {x2} {x3} {x4} {x5} (_hp : [.regs, .mx] ⊆ ps) (h : moves ps s0 s) :
    moves ps s0 (State.rxBuffer s x1 x2 x3 x4 x5) := by
  unfold State.rxBuffer
  (try dsimp only)
  repeat' first
    | with_reducible assumption
    | split
    | with_reducible apply moves_dramWr
    | with_reducible apply moves_arbBytes
    | exact _hp (by decide)
    | exact List.Subset.trans (by decide) _hp
    | intro _

theorem moves_rxBuffers {ps : List Part} {s0 s : State} {x1} {x2} {x3} {x4} {x5} {x6} {x7} {x8} {x9} {x10} (_hp : [.regs, .mx] ⊆ ps) (h : moves ps s0 s) :
    moves ps s0 (State.rxBuffers s x1 x2 x3 x4 x5 x6 x7 x8 x9 x10) := by
  unfold State.rxBuffers
  (try dsimp only)
  repeat' first
    | with_reducible assumption
    | split
    | with_reducible apply moves_forEach
    | with_reducible apply moves_rxBuffer
    | with_reducible apply moves_setRg
    | exact _hp (by decide)
    | exact List.Subset.trans (by decide) _hp
    | intro _

theorem moves_rxWrite {ps : List Part} {s0 s : State} {x1} {x2} {x3} {x4} {x5} {x6} {x7} {x8} (_hp : [.out, .regs, .scope, .cx, .mx] ⊆ ps) (h : moves ps s0 s) :
    moves ps s0 (State.rxWrite s x1 x2 x3 x4 x5 x6 x7 x8) := by
  unfold State.rxWrite
  (try dsimp only)
  repeat' first
    | with_reducible assumption
    | split
    | with_reducible apply moves_hpComplete
    | with_reducible apply moves_bump
    | with_reducible apply moves_rxBuffers
    | exact _hp (by decide)
    | exact List.Subset.trans (by decide) _hp
    | intro _

theorem moves_rxRefused {ps : List Part} {s0 s : State} {x1} {x2} {x3} {x4} {x5} {x6} {x7} {x8} (_hp : [.out, .regs, .scope, .ob, .cx, .mx] ⊆ ps) (h : moves ps s0 s) :
    ∀ t, (State.rxRefused s x1 x2 x3 x4 x5 x6 x7 x8) = some t → moves ps s0 t := by
  intro t ht
  unfold State.rxRefused at ht
  (try dsimp only at ht)
  repeat' split at ht
  all_goals try simp only [Option.some.injEq, reduceCtorEq] at ht
  all_goals try subst ht
  all_goals repeat' first
    | with_reducible assumption
    | with_reducible apply moves_bump
    | with_reducible apply moves_rxBuffers
    | with_reducible apply moves_hpStop
    | with_reducible apply moves_dramUe
    | exact _hp (by decide)
    | exact List.Subset.trans (by decide) _hp
    | split
    | intro _

theorem moves_hpWriteEnd {ps : List Part} {s0 s : State} {x1} {x2} {x3} {x4} {x5} {x6} (_hp : [.out, .regs, .scope, .sx, .ob, .cx, .mx] ⊆ ps) (h : moves ps s0 s) :
    moves ps s0 (State.hpWriteEnd s x1 x2 x3 x4 x5 x6) := by
  unfold State.hpWriteEnd
  (try dsimp only)
  repeat' first
    | with_reducible assumption
    | split
    | with_reducible apply moves_setTx
    | with_reducible refine moves_rxRefused ?_ ?_ _ (by assumption)
    | with_reducible apply moves_dropCopy
    | with_reducible apply moves_rxWrite
    | with_reducible apply moves_bump64
    | with_reducible apply moves_csuSee
    | with_reducible apply moves_copyGone
    | with_reducible apply moves_pegDone
    | exact _hp (by decide)
    | exact List.Subset.trans (by decide) _hp
    | intro _

theorem moves_giveUp {ps : List Part} {s0 s : State} {x1} {x2} (_hp : [.out, .regs, .scope, .sx, .ob, .bx, .cx, .mx] ⊆ ps) (h : moves ps s0 s) :
    moves ps s0 (State.giveUp s x1 x2) := by
  unfold State.giveUp
  (try dsimp only)
  repeat' first
    | with_reducible assumption
    | split
    | with_reducible apply moves_hpWriteEnd
    | with_reducible apply moves_setTx
    | with_reducible apply moves_dropCopy
    | with_reducible apply moves_p38Rewind
    | exact _hp (by decide)
    | exact List.Subset.trans (by decide) _hp
    | intro _

theorem moves_eapolRelay {ps : List Part} {s0 s : State} {x1} (_hp : [.out, .regs, .scope, .ob, .cx, .mx] ⊆ ps) (h : moves ps s0 s) :
    moves ps s0 (State.eapolRelay s x1) := by
  unfold State.eapolRelay
  (try dsimp only)
  repeat' first
    | with_reducible assumption
    | split
    | with_reducible apply moves_forEach
    | with_reducible refine moves_rxRefused ?_ ?_ _ (by assumption)
    | with_reducible apply moves_rxWrite
    | exact _hp (by decide)
    | exact List.Subset.trans (by decide) _hp
    | intro _

theorem moves_txJob {ps : List Part} {s0 s : State} {x1} {x2} {x3} (_hp : [.out, .regs, .scope, .cx, .mx] ⊆ ps) (h : moves ps s0 s) :
    moves ps s0 (State.txJob s x1 x2 x3) := by
  unfold State.txJob
  (try dsimp only)
  repeat' first
    | with_reducible assumption
    | split
    | with_reducible apply moves_txFlush
    | with_reducible apply moves_setHp
    | exact _hp (by decide)
    | exact List.Subset.trans (by decide) _hp
    | intro _

theorem moves_txEnter {ps : List Part} {s0 s : State} {x1} {x2} {x3} {x4} {x5} {x6} (_hp : [.freeN, .out, .regs, .scope, .pw, .sx, .fx, .ob, .aon, .cx, .mx] ⊆ ps) (h : moves ps s0 s) :
    moves ps s0 (State.txEnter s x1 x2 x3 x4 x5 x6) := by
  unfold State.txEnter
  (try dsimp only)
  repeat' first
    | with_reducible assumption
    | split
    | with_reducible apply moves_enterWhole
    | with_reducible apply moves_arbBytes
    | with_reducible apply moves_txJob
    | with_reducible apply moves_bump
    | exact _hp (by decide)
    | exact List.Subset.trans (by decide) _hp
    | intro _

theorem moves_txServe {ps : List Part} {s0 s : State} {x1} {x2} {x3} (_hp : [.freeN, .out, .regs, .scope, .pw, .sx, .fx, .ob, .aon, .cx, .mx] ⊆ ps) (h : moves ps s0 s) :
    moves ps s0 (State.txServe s x1 x2 x3) := by
  unfold State.txServe
  (try dsimp only)
  repeat' first
    | with_reducible assumption
    | split
    | with_reducible apply moves_hpStop
    | with_reducible apply moves_dramUe
    | with_reducible apply moves_txJob
    | with_reducible apply moves_bump
    | with_reducible apply moves_txEnter
    | exact _hp (by decide)
    | exact List.Subset.trans (by decide) _hp
    | intro _

theorem moves_ringCommit {ps : List Part} {s0 s : State} {x1} {x2} {x3} {x4} (_hp : [.regs, .cx] ⊆ ps) (h : moves ps s0 s) :
    moves ps s0 (State.ringCommit s x1 x2 x3 x4) := by
  unfold State.ringCommit
  (try dsimp only)
  repeat' first
    | with_reducible assumption
    | split
    | with_reducible apply moves_setRg
    | with_reducible apply moves_setHp
    | exact _hp (by decide)
    | exact List.Subset.trans (by decide) _hp
    | intro _

theorem moves_ringsCommit {ps : List Part} {s0 s : State} {x1} (_hp : [.regs, .cx] ⊆ ps) (h : moves ps s0 s) :
    moves ps s0 (State.ringsCommit s x1) := by
  unfold State.ringsCommit
  (try dsimp only)
  repeat' first
    | with_reducible assumption
    | split
    | with_reducible apply moves_forEach
    | with_reducible apply moves_ringCommit
    | exact _hp (by decide)
    | exact List.Subset.trans (by decide) _hp
    | intro _

theorem moves_runCores {ps : List Part} {s0 s : State} {x1} {x2} (_hp : [.out, .regs] ⊆ ps) (h : moves ps s0 s) :
    moves ps s0 (State.runCores s x1 x2) := by
  unfold State.runCores
  (try dsimp only)
  repeat' first
    | with_reducible assumption
    | split
    | with_reducible apply moves_setRg
    | with_reducible apply moves_forEach
    | with_reducible apply moves_emit
    | exact _hp (by decide)
    | exact List.Subset.trans (by decide) _hp
    | intro _

theorem moves_startCores {ps : List Part} {s0 s : State} (_hp : [.out, .regs] ⊆ ps) (h : moves ps s0 s) :
    moves ps s0 (State.startCores s) := by
  unfold State.startCores
  (try dsimp only)
  repeat' first
    | with_reducible assumption
    | split
    | with_reducible apply moves_runCores
    | exact _hp (by decide)
    | exact List.Subset.trans (by decide) _hp
    | intro _

theorem moves_setOpp {ps : List Part} {s0 s : State} {x1} (_hp : [.regs, .cx] ⊆ ps) (h : moves ps s0 s) :
    moves ps s0 (State.setOpp s x1) := by
  unfold State.setOpp
  (try dsimp only)
  repeat' first
    | with_reducible assumption
    | split
    | with_reducible apply moves_setRg
    | with_reducible apply moves_upd_cx
    | exact _hp (by decide)
    | exact List.Subset.trans (by decide) _hp
    | intro _

theorem moves_copyImage {ps : List Part} {s0 s : State} (_hp : [.cx] ⊆ ps) (h : moves ps s0 s) :
    moves ps s0 (State.copyImage s) := by
  unfold State.copyImage
  (try dsimp only)
  repeat' first
    | with_reducible assumption
    | split
    | with_reducible apply moves_upd_cx
    | exact _hp (by decide)
    | exact List.Subset.trans (by decide) _hp
    | intro _

theorem moves_clusterRelease {ps : List Part} {s0 s : State} (_hp : [.freeN, .out, .regs, .scope, .pw, .sx, .fx, .ob, .px, .bx, .cx, .mx] ⊆ ps) (h : moves ps s0 s) :
    moves ps s0 (State.clusterRelease s) := by
  unfold State.clusterRelease
  (try dsimp only)
  repeat' first
    | with_reducible assumption
    | split
    | with_reducible apply moves_setOpp
    | with_reducible apply moves_copyImage
    | with_reducible apply moves_portsJudge
    | with_reducible apply moves_startCores
    | with_reducible apply moves_upd_pw_cx
    | exact _hp (by decide)
    | exact List.Subset.trans (by decide) _hp
    | intro _

theorem moves_oppCommit {ps : List Part} {s0 s : State} (_hp : [.regs, .cx] ⊆ ps) (h : moves ps s0 s) :
    moves ps s0 (State.oppCommit s) := by
  unfold State.oppCommit
  (try dsimp only)
  repeat' first
    | with_reducible assumption
    | split
    | with_reducible apply moves_setOpp
    | with_reducible apply moves_upd_cx
    | exact _hp (by decide)
    | exact List.Subset.trans (by decide) _hp
    | intro _

theorem moves_coreOff {ps : List Part} {s0 s : State} {x1} (_hp : [.out, .regs, .scope] ⊆ ps) (h : moves ps s0 s) :
    moves ps s0 (State.coreOff s x1) := by
  unfold State.coreOff
  (try dsimp only)
  repeat' first
    | with_reducible assumption
    | split
    | with_reducible apply moves_setRg
    | with_reducible apply moves_raise
    | exact _hp (by decide)
    | exact List.Subset.trans (by decide) _hp
    | intro _

theorem moves_coreOffReq {ps : List Part} {s0 s : State} {x1} (_hp : [.regs] ⊆ ps) (h : moves ps s0 s) :
    moves ps s0 (State.coreOffReq s x1) := by
  unfold State.coreOffReq
  (try dsimp only)
  repeat' first
    | with_reducible assumption
    | split
    | with_reducible apply moves_setRg
    | exact _hp (by decide)
    | exact List.Subset.trans (by decide) _hp
    | intro _

theorem moves_coreReturn {ps : List Part} {s0 s : State} {x1} (_hp : [.out, .regs] ⊆ ps) (h : moves ps s0 s) :
    moves ps s0 (State.coreReturn s x1) := by
  unfold State.coreReturn
  (try dsimp only)
  repeat' first
    | with_reducible assumption
    | split
    | with_reducible apply moves_setRg
    | with_reducible apply moves_runCores
    | exact _hp (by decide)
    | exact List.Subset.trans (by decide) _hp
    | intro _

theorem moves_setTags {ps : List Part} {s0 s : State} {x1} {x2} (_hp : [.regs, .cx] ⊆ ps) (h : moves ps s0 s) :
    moves ps s0 (State.setTags s x1 x2) := by
  unfold State.setTags
  (try dsimp only)
  repeat' first
    | with_reducible assumption
    | split
    | with_reducible apply moves_setRg
    | with_reducible apply moves_forEach
    | with_reducible apply moves_wr
    | with_reducible apply moves_upd_cx
    | exact _hp (by decide)
    | exact List.Subset.trans (by decide) _hp
    | intro _

theorem moves_corePmu {ps : List Part} {s0 s : State} {x1} {x2} {x3} (_hp : [.out, .regs, .scope] ⊆ ps) (h : moves ps s0 s) :
    moves ps s0 (State.corePmu s x1 x2 x3) := by
  unfold State.corePmu
  (try dsimp only)
  repeat' first
    | with_reducible assumption
    | split
    | with_reducible apply moves_wr64
    | with_reducible apply moves_raise
    | exact _hp (by decide)
    | exact List.Subset.trans (by decide) _hp
    | intro _

theorem moves_setTagging {ps : List Part} {s0 s : State} {x1} {x2} (_hp : [.cx] ⊆ ps) (h : moves ps s0 s) :
    moves ps s0 (State.setTagging s x1 x2) := by
  unfold State.setTagging
  (try dsimp only)
  repeat' first
    | with_reducible assumption
    | split
    | with_reducible apply moves_upd_cx
    | exact _hp (by decide)
    | exact List.Subset.trans (by decide) _hp
    | intro _

theorem moves_decodeOne {ps : List Part} {s0 s : State} {x1} (_hp : [.freeN, .cx] ⊆ ps) (h : moves ps s0 s) :
    moves ps s0 (State.decodeOne s x1) := by
  unfold State.decodeOne
  (try dsimp only)
  repeat' first
    | with_reducible assumption
    | split
    | with_reducible apply moves_setTagging
    | with_reducible apply moves_useFree
    | exact _hp (by decide)
    | exact List.Subset.trans (by decide) _hp
    | intro _

theorem moves_coreDecode {ps : List Part} {s0 s : State} {x1} {x2} (_hp : [.freeN, .cx] ⊆ ps) (h : moves ps s0 s) :
    moves ps s0 (State.coreDecode s x1 x2) := by
  unfold State.coreDecode
  (try dsimp only)
  repeat' first
    | with_reducible assumption
    | split
    | with_reducible apply moves_forEach
    | with_reducible apply moves_decodeOne
    | exact _hp (by decide)
    | exact List.Subset.trans (by decide) _hp
    | intro _

theorem moves_coreTag {ps : List Part} {s0 s : State} {x1} {x2} (_hp : [.regs, .cx] ⊆ ps) (h : moves ps s0 s) :
    moves ps s0 (State.coreTag s x1 x2) := by
  unfold State.coreTag
  (try dsimp only)
  repeat' first
    | with_reducible assumption
    | split
    | with_reducible apply moves_setTagging
    | with_reducible apply moves_tick
    | with_reducible apply moves_setTags
    | exact _hp (by decide)
    | exact List.Subset.trans (by decide) _hp
    | intro _

end Sys2Proof.Machine
end

