-- ==== Sys2Proof/Laws/MovesSchedOps.lean ====
section
/-!
SUPPORT. What each operation of Machine/SchedOps.lean can do: the parts of the state it may change, and what it keeps
(`moves`, Safety.lean). One lemma for each operation; callers cite it and do not unfold the operation.
-/

set_option linter.unusedTactic false
set_option linter.unreachableTactic false
set_option linter.unusedSimpArgs false

namespace Sys2Proof.Machine

open State

theorem moves_setGcl {ps : List Part} {s0 s : State} {x1} {x2} (_hp : [.fx] ⊆ ps) (h : moves ps s0 s) :
    moves ps s0 (State.setGcl s x1 x2) := by
  unfold State.setGcl
  (try dsimp only)
  repeat' first
    | with_reducible assumption
    | split
    | with_reducible apply moves_upd_fx
    | exact _hp (by decide)
    | exact List.Subset.trans (by decide) _hp
    | intro _

theorem moves_setWaiting {ps : List Part} {s0 s : State} {x1} {x2} (_hp : [.regs, .fx] ⊆ ps) (h : moves ps s0 s) :
    moves ps s0 (State.setWaiting s x1 x2) := by
  unfold State.setWaiting
  (try dsimp only)
  repeat' first
    | with_reducible assumption
    | split
    | with_reducible apply moves_setRg
    | with_reducible apply moves_upd_fx
    | exact _hp (by decide)
    | exact List.Subset.trans (by decide) _hp
    | intro _

theorem moves_judgeHead {ps : List Part} {s0 s : State} {x1} (_hp : [.out, .regs, .scope, .sx, .ob, .cx, .mx] ⊆ ps) (h : moves ps s0 s) :
    moves ps s0 (State.judgeHead s x1) := by
  unfold State.judgeHead
  (try dsimp only)
  repeat' first
    | with_reducible assumption
    | split
    | with_reducible apply moves_toDie
    | with_reducible apply moves_dropCopy
    | with_reducible apply moves_scEvent
    | with_reducible apply moves_pmu
    | with_reducible apply moves_bump
    | with_reducible apply moves_setQueue
    | exact _hp (by decide)
    | exact List.Subset.trans (by decide) _hp
    | intro _

theorem moves_rehold {ps : List Part} {s0 s : State} {x1} (_hp : [.sx] ⊆ ps) (h : moves ps s0 s) :
    moves ps s0 (State.rehold s x1) := by
  unfold State.rehold
  (try dsimp only)
  repeat' first
    | with_reducible assumption
    | split
    | with_reducible apply moves_setQueue
    | exact _hp (by decide)
    | exact List.Subset.trans (by decide) _hp
    | intro _

theorem moves_setTurn {ps : List Part} {s0 s : State} {x1} {x2} {x3} (_hp : [.sx] ⊆ ps) (h : moves ps s0 s) :
    moves ps s0 (State.setTurn s x1 x2 x3) := by
  unfold State.setTurn
  (try dsimp only)
  repeat' first
    | with_reducible assumption
    | split
    | with_reducible apply moves_upd_sx
    | exact _hp (by decide)
    | exact List.Subset.trans (by decide) _hp
    | intro _

theorem moves_shutTurns {ps : List Part} {s0 s : State} {x1} {x2} (_hp : [.sx] ⊆ ps) (h : moves ps s0 s) :
    moves ps s0 (State.shutTurns s x1 x2) := by
  unfold State.shutTurns
  (try dsimp only)
  repeat' first
    | with_reducible assumption
    | split
    | with_reducible apply moves_forEach
    | with_reducible apply moves_setTurn
    | exact _hp (by decide)
    | exact List.Subset.trans (by decide) _hp
    | intro _

theorem moves_showGates {ps : List Part} {s0 s : State} {x1} {x2} (_hp : [.out, .regs, .scope, .sx, .ob, .cx, .mx] ⊆ ps) (h : moves ps s0 s) :
    moves ps s0 (State.showGates s x1 x2) := by
  unfold State.showGates
  (try dsimp only)
  repeat' first
    | with_reducible assumption
    | split
    | with_reducible apply moves_shutTurns
    | with_reducible apply moves_setRg
    | with_reducible apply moves_forEach
    | with_reducible apply moves_judgeHead
    | exact _hp (by decide)
    | exact List.Subset.trans (by decide) _hp
    | intro _

theorem moves_showGate {ps : List Part} {s0 s : State} {x1} {x2} (_hp : [.out, .regs, .scope, .sx, .ob, .cx, .mx] ⊆ ps) (h : moves ps s0 s) :
    moves ps s0 (State.showGate s x1 x2) := by
  unfold State.showGate
  (try dsimp only)
  repeat' first
    | with_reducible assumption
    | split
    | with_reducible apply moves_showGates
    | with_reducible apply moves_setRg
    | exact _hp (by decide)
    | exact List.Subset.trans (by decide) _hp
    | intro _

theorem moves_gatesOpen {ps : List Part} {s0 s : State} {x1} (_hp : [.out, .regs, .scope, .sx, .fx, .ob, .cx, .mx] ⊆ ps) (h : moves ps s0 s) :
    moves ps s0 (State.gatesOpen s x1) := by
  unfold State.gatesOpen
  (try dsimp only)
  repeat' first
    | with_reducible assumption
    | split
    | with_reducible apply moves_showGates
    | with_reducible apply moves_setRg
    | with_reducible apply moves_setGcl
    | exact _hp (by decide)
    | exact List.Subset.trans (by decide) _hp
    | intro _

theorem moves_gateJump {ps : List Part} {s0 s : State} {x1} (_hp : [.out, .regs, .scope, .sx, .ob, .cx, .mx] ⊆ ps) (h : moves ps s0 s) :
    moves ps s0 (State.gateJump s x1) := by
  unfold State.gateJump
  (try dsimp only)
  repeat' first
    | with_reducible assumption
    | split
    | with_reducible apply moves_showGate
    | exact _hp (by decide)
    | exact List.Subset.trans (by decide) _hp
    | intro _

theorem moves_gclCommit {ps : List Part} {s0 s : State} {x1} (_hp : [.out, .regs, .scope, .sx, .fx, .ob, .cx, .mx] ⊆ ps) (h : moves ps s0 s) :
    moves ps s0 (State.gclCommit s x1) := by
  unfold State.gclCommit
  (try dsimp only)
  repeat' first
    | with_reducible assumption
    | split
    | with_reducible apply moves_gatesOpen
    | with_reducible apply moves_setWaiting
    | exact _hp (by decide)
    | exact List.Subset.trans (by decide) _hp
    | intro _

theorem moves_cleanHead {ps : List Part} {s0 s : State} {x1} (_hp : [.out, .regs, .scope, .sx, .ob, .cx, .mx] ⊆ ps) (h : moves ps s0 s) :
    moves ps s0 (State.cleanHead s x1) := by
  unfold State.cleanHead
  (try dsimp only)
  repeat' first
    | with_reducible assumption
    | split
    | with_reducible apply moves_toDie
    | with_reducible apply moves_dropCopy
    | with_reducible apply moves_bump
    | with_reducible apply moves_setQueue
    | with_reducible apply moves_scEvent
    | exact _hp (by decide)
    | exact List.Subset.trans (by decide) _hp
    | intro _

theorem moves_cleanQueue {ps : List Part} {s0 s : State} {x1} {x2} (_hp : [.out, .regs, .scope, .sx, .ob, .cx, .mx] ⊆ ps) (h : moves ps s0 s) :
    moves ps s0 (State.cleanQueue s x1 x2) := by
  induction x2 generalizing s  with
  | zero =>
    unfold State.cleanQueue
    (try dsimp only)
    repeat' first
      | with_reducible assumption
      | with_reducible apply moves_cleanHead
      | split
      | exact _hp (by decide)
      | exact List.Subset.trans (by decide) _hp
  | succ n ih =>
    unfold State.cleanQueue
    (try dsimp only)
    repeat' first
      | with_reducible assumption
      | with_reducible apply ih
      | with_reducible apply moves_cleanHead
      | split
      | exact _hp (by decide)
      | exact List.Subset.trans (by decide) _hp


theorem moves_dwrrTurn {ps : List Part} {s0 s : State} {x1} {x2} {x3} {x4} (_hp : [.sx] ⊆ ps) (h : moves ps s0 s) :
    moves ps s0 (State.dwrrTurn s x1 x2 x3 x4).1 := by
  induction x4 generalizing s with
  | zero => exact h
  | succ n ih =>
    unfold State.dwrrTurn
    dsimp only
    split
    · exact h
    split
    · exact h
    split
    · exact moves_setTurn _hp (moves_setQueue _hp h)
    · exact ih (moves_setTurn _hp (moves_setTurn _hp (moves_setQueue _hp h)))

theorem moves_dwrrTurn_eq {ps : List Part} {s0 s : State} {x1} {x2} {x3} {x4} (_hp : [.sx] ⊆ ps) (h : moves ps s0 s) {t v} (hq : (State.dwrrTurn s x1 x2 x3 x4) = (t, v)) :
    moves ps s0 t := by
  have := moves_dwrrTurn (x1 := x1) (x2 := x2) (x3 := x3) (x4 := x4)  _hp h
  rwa [hq] at this

theorem moves_passTurns {ps : List Part} {s0 s : State} {x1} (_hp : [.sx] ⊆ ps) (h : moves ps s0 s) :
    moves ps s0 (State.passTurns s x1) := by
  unfold State.passTurns
  (try dsimp only)
  repeat' first
    | with_reducible assumption
    | split
    | with_reducible apply moves_forEach
    | with_reducible apply moves_setTurn
    | exact _hp (by decide)
    | exact List.Subset.trans (by decide) _hp
    | intro _

theorem moves_choose {ps : List Part} {s0 s : State} {x1} (_hp : [.sx] ⊆ ps) (h : moves ps s0 s) :
    moves ps s0 (State.choose s x1).1 := by
  unfold State.choose
  (try dsimp only)
  repeat' first
    | with_reducible assumption
    | split
    | with_reducible apply moves_passTurns
    | with_reducible apply moves_dwrrTurn
    | with_reducible refine moves_dwrrTurn_eq ?_ ?_ (by assumption)
    | exact _hp (by decide)
    | exact List.Subset.trans (by decide) _hp
    | intro _

theorem moves_choose_eq {ps : List Part} {s0 s : State} {x1} (_hp : [.sx] ⊆ ps) (h : moves ps s0 s) {t v} (hq : (State.choose s x1) = (t, v)) :
    moves ps s0 t := by
  have := moves_choose (x1 := x1)  _hp h
  rwa [hq] at this

theorem moves_chargeTurn {ps : List Part} {s0 s : State} {x1} {x2} {x3} (_hp : [.sx] ⊆ ps) (h : moves ps s0 s) :
    moves ps s0 (State.chargeTurn s x1 x2 x3) := by
  unfold State.chargeTurn
  (try dsimp only)
  repeat' first
    | with_reducible assumption
    | split
    | with_reducible apply moves_setQueue
    | with_reducible apply moves_setTurn
    | exact _hp (by decide)
    | exact List.Subset.trans (by decide) _hp
    | intro _

theorem moves_chargeShaper {ps : List Part} {s0 s : State} {x1} {x2} (_hp : [.sx] ⊆ ps) (h : moves ps s0 s) :
    moves ps s0 (State.chargeShaper s x1 x2) := by
  unfold State.chargeShaper
  (try dsimp only)
  repeat' first
    | with_reducible assumption
    | split
    | with_reducible apply moves_setQueue
    | exact _hp (by decide)
    | exact List.Subset.trans (by decide) _hp
    | intro _

theorem moves_noteCut {ps : List Part} {s0 s : State} {x1} (_hp : [.out, .regs, .scope] ⊆ ps) (h : moves ps s0 s) :
    moves ps s0 (State.noteCut s x1) := by
  unfold State.noteCut
  (try dsimp only)
  repeat' first
    | with_reducible assumption
    | split
    | with_reducible apply moves_pmu
    | with_reducible apply moves_bump
    | exact _hp (by decide)
    | exact List.Subset.trans (by decide) _hp
    | intro _

theorem moves_egressStamp {ps : List Part} {s0 s : State} {x1} (_hp : [.out, .cx] ⊆ ps) (h : moves ps s0 s) :
    moves ps s0 (State.egressStamp s x1) := by
  unfold State.egressStamp
  (try dsimp only)
  repeat' first
    | with_reducible assumption
    | split
    | with_reducible apply moves_txStamp
    | with_reducible apply moves_emit
    | exact _hp (by decide)
    | exact List.Subset.trans (by decide) _hp
    | intro _

theorem moves_noteLate {ps : List Part} {s0 s : State} {x1} {x2} (_hp : [.out, .regs, .scope] ⊆ ps) (h : moves ps s0 s) :
    moves ps s0 (State.noteLate s x1 x2) := by
  unfold State.noteLate
  (try dsimp only)
  repeat' first
    | with_reducible assumption
    | split
    | with_reducible apply moves_scEvent
    | with_reducible apply moves_pmu
    | with_reducible apply moves_bump
    | exact _hp (by decide)
    | exact List.Subset.trans (by decide) _hp
    | intro _

theorem moves_takeInternal {ps : List Part} {s0 s : State} {x1} (_hp : [.out, .regs, .scope, .sx, .ob, .cx, .mx] ⊆ ps) (h : moves ps s0 s) :
    moves ps s0 (State.takeInternal s x1) := by
  unfold State.takeInternal
  (try dsimp only)
  repeat' first
    | with_reducible assumption
    | split
    | with_reducible apply moves_dropCopy
    | with_reducible apply moves_bump
    | with_reducible apply moves_noteLate
    | with_reducible apply moves_egressStamp
    | with_reducible apply moves_noteCut
    | with_reducible apply moves_setTx
    | exact _hp (by decide)
    | exact List.Subset.trans (by decide) _hp
    | intro _

theorem moves_handOver {ps : List Part} {s0 s : State} {x1} {x2} (_hp : [.out, .regs, .scope, .sx, .ob, .cx, .mx] ⊆ ps) (h : moves ps s0 s) :
    moves ps s0 (State.handOver s x1 x2) := by
  unfold State.handOver
  (try dsimp only)
  repeat' first
    | with_reducible assumption
    | split
    | with_reducible apply moves_setQueue
    | with_reducible apply moves_chargeShaper
    | with_reducible apply moves_pmu
    | with_reducible apply moves_setMq
    | with_reducible apply moves_takeInternal
    | with_reducible apply moves_passTurns
    | with_reducible apply moves_chargeTurn
    | exact _hp (by decide)
    | exact List.Subset.trans (by decide) _hp
    | intro _

theorem moves_cleanMq {ps : List Part} {s0 s : State} {x1} {x2} (_hp : [.out, .regs, .scope, .sx, .ob, .cx, .mx] ⊆ ps) (h : moves ps s0 s) :
    moves ps s0 (State.cleanMq s x1 x2) := by
  unfold State.cleanMq
  (try dsimp only)
  repeat' first
    | with_reducible assumption
    | split
    | with_reducible apply moves_dropCopy
    | with_reducible apply moves_bump
    | with_reducible apply moves_setMq
    | exact _hp (by decide)
    | exact List.Subset.trans (by decide) _hp
    | intro _

theorem moves_cleanHeads {ps : List Part} {s0 s : State} (_hp : [.out, .regs, .scope, .sx, .ob, .cx, .mx] ⊆ ps) (h : moves ps s0 s) :
    moves ps s0 (State.cleanHeads s) := by
  unfold State.cleanHeads
  (try dsimp only)
  repeat' first
    | with_reducible assumption
    | split
    | with_reducible apply moves_forEach
    | with_reducible apply moves_cleanMq
    | exact _hp (by decide)
    | exact List.Subset.trans (by decide) _hp
    | intro _

theorem moves_sentAs {ps : List Part} {s0 s : State} {x1} {x2} {x3} (_hp : [.out, .regs, .scope, .sx, .ob, .px, .cx, .mx] ⊆ ps) (h : moves ps s0 s) :
    moves ps s0 (State.sentAs s x1 x2 x3) := by
  unfold State.sentAs
  (try dsimp only)
  repeat' first
    | with_reducible assumption
    | split
    | with_reducible apply moves_csuSee
    | with_reducible apply moves_bump64
    | with_reducible apply moves_noteLate
    | with_reducible apply moves_plcaEnd
    | with_reducible apply moves_setTx
    | with_reducible apply moves_emit
    | with_reducible apply moves_copyGone
    | with_reducible apply moves_pegDone
    | exact _hp (by decide)
    | exact List.Subset.trans (by decide) _hp
    | intro _

theorem moves_stomp {ps : List Part} {s0 s : State} {x1} {x2} (_hp : [.out, .regs, .scope, .sx, .ob, .px, .cx, .mx] ⊆ ps) (h : moves ps s0 s) :
    moves ps s0 (State.stomp s x1 x2) := by
  unfold State.stomp
  (try dsimp only)
  repeat' first
    | with_reducible assumption
    | split
    | with_reducible apply moves_portEvent
    | with_reducible apply moves_bump
    | with_reducible apply moves_sentAs
    | exact _hp (by decide)
    | exact List.Subset.trans (by decide) _hp
    | intro _

end Sys2Proof.Machine
end

