-- ==== Sys2Proof/Laws/MovesTimeOps.lean ====
section
/-!
SUPPORT. What each operation of Machine/TimeOps.lean can do: the parts of the state it may change, and what it keeps
(`moves`, Safety.lean). One lemma for each operation; callers cite it and do not unfold the operation.
-/

set_option linter.unusedTactic false
set_option linter.unreachableTactic false
set_option linter.unusedSimpArgs false

namespace Sys2Proof.Machine

open State

theorem moves_setTi {ps : List Part} {s0 s : State} {x1} {x2} (_hp : [.te] ⊆ ps) (h : moves ps s0 s) :
    moves ps s0 (State.setTi s x1 x2) := by
  unfold State.setTi
  (try dsimp only)
  repeat' first
    | with_reducible assumption
    | split
    | with_reducible apply moves_upd_te
    | exact _hp (by decide)
    | exact List.Subset.trans (by decide) _hp
    | intro _

theorem moves_raiseTe {ps : List Part} {s0 s : State} {x1} {x2} {x3} (_hp : [.out, .regs, .scope] ⊆ ps) (h : moves ps s0 s) :
    moves ps s0 (State.raiseTe s x1 x2 x3) := by
  unfold State.raiseTe
  (try dsimp only)
  repeat' first
    | with_reducible assumption
    | split
    | with_reducible apply moves_raise
    | with_reducible apply moves_setRg
    | exact _hp (by decide)
    | exact List.Subset.trans (by decide) _hp
    | intro _

theorem moves_raiseTePin {ps : List Part} {s0 s : State} {x1} {x2} {x3} (_hp : [.out, .regs, .scope] ⊆ ps) (h : moves ps s0 s) :
    moves ps s0 (State.raiseTePin s x1 x2 x3) := by
  unfold State.raiseTePin
  (try dsimp only)
  repeat' first
    | with_reducible assumption
    | split
    | with_reducible apply moves_raise
    | with_reducible apply moves_setRg
    | exact _hp (by decide)
    | exact List.Subset.trans (by decide) _hp
    | intro _

theorem moves_takePair {ps : List Part} {s0 s : State} (_hp : [.te] ⊆ ps) (h : moves ps s0 s) :
    moves ps s0 (State.takePair s) := by
  unfold State.takePair
  (try dsimp only)
  repeat' first
    | with_reducible assumption
    | split
    | with_reducible apply moves_upd_te
    | exact _hp (by decide)
    | exact List.Subset.trans (by decide) _hp
    | intro _

theorem moves_pairIf {ps : List Part} {s0 s : State} {x1} (_hp : [.te] ⊆ ps) (h : moves ps s0 s) :
    moves ps s0 (State.pairIf s x1) := by
  unfold State.pairIf
  (try dsimp only)
  repeat' first
    | with_reducible assumption
    | split
    | with_reducible apply moves_takePair
    | exact _hp (by decide)
    | exact List.Subset.trans (by decide) _hp
    | intro _

theorem moves_judgeAdj {ps : List Part} {s0 s : State} {x1} (_hp : [.out, .regs, .scope] ⊆ ps) (h : moves ps s0 s) :
    moves ps s0 (State.judgeAdj s x1) := by
  unfold State.judgeAdj
  (try dsimp only)
  repeat' first
    | with_reducible assumption
    | split
    | with_reducible apply moves_setRg
    | with_reducible apply moves_raiseTe
    | exact _hp (by decide)
    | exact List.Subset.trans (by decide) _hp
    | intro _

theorem moves_applyAdj {ps : List Part} {s0 s : State} {x1} {x2} (_hp : [.out, .regs, .scope, .te] ⊆ ps) (h : moves ps s0 s) :
    moves ps s0 (State.applyAdj s x1 x2) := by
  unfold State.applyAdj
  (try dsimp only)
  repeat' first
    | with_reducible assumption
    | split
    | with_reducible apply moves_pairIf
    | with_reducible apply moves_judgeAdj
    | with_reducible apply moves_setRg
    | exact _hp (by decide)
    | exact List.Subset.trans (by decide) _hp
    | intro _

theorem moves_setTxn {ps : List Part} {s0 s : State} {x1} {x2} (_hp : [.sv] ⊆ ps) (h : moves ps s0 s) :
    moves ps s0 (State.setTxn s x1 x2) := by
  unfold State.setTxn
  (try dsimp only)
  repeat' first
    | with_reducible assumption
    | split
    | with_reducible apply moves_upd_sv
    | exact _hp (by decide)
    | exact List.Subset.trans (by decide) _hp
    | intro _

theorem moves_heldFire {ps : List Part} {s0 s : State} {x1} {x2} (_hp : [.sv] ⊆ ps) (h : moves ps s0 s) :
    moves ps s0 (State.heldFire s x1 x2) := by
  unfold State.heldFire
  (try dsimp only)
  repeat' first
    | with_reducible assumption
    | split
    | with_reducible apply moves_forEach
    | with_reducible apply moves_setTxn
    | exact _hp (by decide)
    | exact List.Subset.trans (by decide) _hp
    | intro _

theorem moves_heldReached {ps : List Part} {s0 s : State} {x1} (_hp : [.sv] ⊆ ps) (h : moves ps s0 s) :
    moves ps s0 (State.heldReached s x1) := by
  unfold State.heldReached
  (try dsimp only)
  repeat' first
    | with_reducible assumption
    | split
    | with_reducible apply moves_forEach
    | with_reducible apply moves_setTxn
    | exact _hp (by decide)
    | exact List.Subset.trans (by decide) _hp
    | intro _

theorem moves_snapTime {ps : List Part} {s0 s : State} {x1} (_hp : [.regs] ⊆ ps) (h : moves ps s0 s) :
    moves ps s0 (State.snapTime s x1) := by
  unfold State.snapTime
  (try dsimp only)
  repeat' first
    | with_reducible assumption
    | split
    | with_reducible apply moves_setRg
    | exact _hp (by decide)
    | exact List.Subset.trans (by decide) _hp
    | intro _

theorem moves_snapForm {ps : List Part} {s0 s : State} (_hp : [.regs, .ob] ⊆ ps) (h : moves ps s0 s) :
    moves ps s0 (State.snapForm s) := by
  unfold State.snapForm
  (try dsimp only)
  repeat' first
    | with_reducible assumption
    | split
    | with_reducible apply moves_snapTime
    | with_reducible apply moves_setRg
    | with_reducible apply moves_upd_ob
    | exact _hp (by decide)
    | exact List.Subset.trans (by decide) _hp
    | intro _

theorem moves_snapMatch {ps : List Part} {s0 s : State} (_hp : [.regs, .ob] ⊆ ps) (h : moves ps s0 s) :
    moves ps s0 (State.snapMatch s) := by
  unfold State.snapMatch
  (try dsimp only)
  repeat' first
    | with_reducible assumption
    | split
    | with_reducible apply moves_snapForm
    | exact _hp (by decide)
    | exact List.Subset.trans (by decide) _hp
    | intro _

end Sys2Proof.Machine
end

