-- ==== Sys2Proof/Laws/MovesTime.lean ====
section
/-!
SUPPORT. What each operation of Machine/Time.lean can do: the parts of the state it may change, and what it keeps
(`moves`, Safety.lean). One lemma for each operation; callers cite it and do not unfold the operation.
-/

set_option linter.unusedTactic false
set_option linter.unreachableTactic false
set_option linter.unusedSimpArgs false

namespace Sys2Proof.Machine

open State

theorem moves_setTso {ps : List Part} {s0 s : State} {x1} {x2} (_hp : [.te] ⊆ ps) (h : moves ps s0 s) :
    moves ps s0 (State.setTso s x1 x2) := by
  unfold State.setTso
  (try dsimp only)
  repeat' first
    | with_reducible assumption
    | split
    | with_reducible apply moves_upd_te
    | exact _hp (by decide)
    | exact List.Subset.trans (by decide) _hp
    | intro _

theorem moves_tsoSkip {ps : List Part} {s0 s : State} {x1} {x2} {x3} {x4} (_hp : [.out, .regs, .scope, .te] ⊆ ps) (h : moves ps s0 s) :
    moves ps s0 (State.tsoSkip s x1 x2 x3 x4) := by
  unfold State.tsoSkip
  (try dsimp only)
  repeat' first
    | with_reducible assumption
    | split
    | with_reducible apply moves_raiseTePin
    | with_reducible apply moves_bump
    | with_reducible apply moves_setTso
    | exact _hp (by decide)
    | exact List.Subset.trans (by decide) _hp
    | intro _

theorem moves_tsoShift {ps : List Part} {s0 s : State} {x1} {x2} {x3} (_hp : [.te] ⊆ ps) (h : moves ps s0 s) :
    moves ps s0 (State.tsoShift s x1 x2 x3) := by
  unfold State.tsoShift
  (try dsimp only)
  repeat' first
    | with_reducible assumption
    | split
    | with_reducible apply moves_setTso
    | exact _hp (by decide)
    | exact List.Subset.trans (by decide) _hp
    | intro _

theorem moves_tsoSettle {ps : List Part} {s0 s : State} {x1} (_hp : [.te] ⊆ ps) (h : moves ps s0 s) :
    moves ps s0 (State.tsoSettle s x1) := by
  unfold State.tsoSettle
  (try dsimp only)
  repeat' first
    | with_reducible assumption
    | split
    | with_reducible apply moves_setTso
    | exact _hp (by decide)
    | exact List.Subset.trans (by decide) _hp
    | intro _

theorem moves_tsoBoot {ps : List Part} {s0 s : State} {x1} (_hp : [.te] ⊆ ps) (h : moves ps s0 s) :
    moves ps s0 (State.tsoBoot s x1) := by
  unfold State.tsoBoot
  (try dsimp only)
  repeat' first
    | with_reducible assumption
    | split
    | with_reducible apply moves_tsoSettle
    | with_reducible apply moves_setTso
    | exact _hp (by decide)
    | exact List.Subset.trans (by decide) _hp
    | intro _

theorem moves_sgateJump {ps : List Part} {s0 s : State} {x1} {x2} (_hp : [.regs] ⊆ ps) (h : moves ps s0 s) :
    moves ps s0 (State.sgateJump s x1 x2) := by
  unfold State.sgateJump
  (try dsimp only)
  repeat' first
    | with_reducible assumption
    | split
    | with_reducible apply moves_sgateShow
    | exact _hp (by decide)
    | exact List.Subset.trans (by decide) _hp
    | intro _

theorem moves_followMove {ps : List Part} {s0 s : State} {x1} {x2} {x3} (_hp : [.out, .regs, .scope, .sv, .sx, .te, .ob, .cx, .mx] ⊆ ps) (h : moves ps s0 s) :
    moves ps s0 (State.followMove s x1 x2 x3) := by
  unfold State.followMove
  (try dsimp only)
  repeat' first
    | with_reducible assumption
    | split
    | with_reducible apply moves_forEach
    | with_reducible apply moves_rehold
    | with_reducible apply moves_pairIf
    | with_reducible apply moves_gateJump
    | with_reducible apply moves_sgateJump
    | with_reducible apply moves_tsoShift
    | with_reducible apply moves_tsoSkip
    | with_reducible apply moves_snapMatch
    | with_reducible apply moves_heldReached
    | exact _hp (by decide)
    | exact List.Subset.trans (by decide) _hp
    | intro _

theorem moves_moveTi {ps : List Part} {s0 s : State} {x1} {x2} {x3} (_hp : [.out, .regs, .scope, .sv, .sx, .te, .ob, .cx, .mx] ⊆ ps) (h : moves ps s0 s) :
    moves ps s0 (State.moveTi s x1 x2 x3) := by
  unfold State.moveTi
  (try dsimp only)
  repeat' first
    | with_reducible assumption
    | split
    | with_reducible apply moves_raiseTe
    | with_reducible apply moves_bump
    | with_reducible apply moves_setTi
    | with_reducible apply moves_followMove
    | exact _hp (by decide)
    | exact List.Subset.trans (by decide) _hp
    | intro _

theorem moves_tiResult {ps : List Part} {s0 s : State} {x1} {x2} {x3} (_hp : [.out, .regs, .scope] ⊆ ps) (h : moves ps s0 s) :
    moves ps s0 (State.tiResult s x1 x2 x3) := by
  unfold State.tiResult
  (try dsimp only)
  repeat' first
    | with_reducible assumption
    | split
    | with_reducible apply moves_raiseTe
    | with_reducible apply moves_setRg
    | exact _hp (by decide)
    | exact List.Subset.trans (by decide) _hp
    | intro _

theorem moves_guardCount {ps : List Part} {s0 s : State} {x1} (_hp : [.out, .regs, .scope] ⊆ ps) (h : moves ps s0 s) :
    moves ps s0 (State.guardCount s x1) := by
  unfold State.guardCount
  (try dsimp only)
  repeat' first
    | with_reducible assumption
    | split
    | with_reducible apply moves_raiseTe
    | with_reducible apply moves_bump
    | with_reducible apply moves_setRg
    | exact _hp (by decide)
    | exact List.Subset.trans (by decide) _hp
    | intro _

theorem moves_setServo {ps : List Part} {s0 s : State} {x1} {x2} (_hp : [.te] ⊆ ps) (h : moves ps s0 s) :
    moves ps s0 (State.setServo s x1 x2) := by
  unfold State.setServo
  (try dsimp only)
  repeat' first
    | with_reducible assumption
    | split
    | with_reducible apply moves_upd_te
    | exact _hp (by decide)
    | exact List.Subset.trans (by decide) _hp
    | intro _

theorem moves_toAsState {ps : List Part} {s0 s : State} {x1} {x2} (_hp : [.out, .regs, .scope] ⊆ ps) (h : moves ps s0 s) :
    moves ps s0 (State.toAsState s x1 x2) := by
  unfold State.toAsState
  (try dsimp only)
  repeat' first
    | with_reducible assumption
    | split
    | with_reducible apply moves_raiseTe
    | with_reducible apply moves_setRg
    | exact _hp (by decide)
    | exact List.Subset.trans (by decide) _hp
    | intro _

theorem moves_holdover {ps : List Part} {s0 s : State} {x1} (_hp : [.out, .regs, .scope, .te] ⊆ ps) (h : moves ps s0 s) :
    moves ps s0 (State.holdover s x1) := by
  unfold State.holdover
  (try dsimp only)
  repeat' first
    | with_reducible assumption
    | split
    | with_reducible apply moves_setServo
    | with_reducible apply moves_toAsState
    | with_reducible apply moves_applyAdj
    | exact _hp (by decide)
    | exact List.Subset.trans (by decide) _hp
    | intro _

theorem moves_startSlew {ps : List Part} {s0 s : State} {x1} {x2} (_hp : [.out, .regs, .scope, .te] ⊆ ps) (h : moves ps s0 s) :
    moves ps s0 (State.startSlew s x1 x2) := by
  unfold State.startSlew
  (try dsimp only)
  repeat' first
    | with_reducible assumption
    | split
    | with_reducible apply moves_toAsState
    | with_reducible apply moves_applyAdj
    | with_reducible apply moves_setServo
    | exact _hp (by decide)
    | exact List.Subset.trans (by decide) _hp
    | intro _

theorem moves_endSlew {ps : List Part} {s0 s : State} {x1} (_hp : [.out, .regs, .scope, .te] ⊆ ps) (h : moves ps s0 s) :
    moves ps s0 (State.endSlew s x1) := by
  unfold State.endSlew
  (try dsimp only)
  repeat' first
    | with_reducible assumption
    | split
    | with_reducible apply moves_toAsState
    | with_reducible apply moves_applyAdj
    | with_reducible apply moves_setServo
    | exact _hp (by decide)
    | exact List.Subset.trans (by decide) _hp
    | intro _

theorem moves_slewTick {ps : List Part} {s0 s : State} {x1} (_hp : [.out, .regs, .scope, .te] ⊆ ps) (h : moves ps s0 s) :
    moves ps s0 (State.slewTick s x1) := by
  unfold State.slewTick
  (try dsimp only)
  repeat' first
    | with_reducible assumption
    | split
    | with_reducible apply moves_endSlew
    | with_reducible apply moves_setServo
    | exact _hp (by decide)
    | exact List.Subset.trans (by decide) _hp
    | intro _

theorem moves_rateControl {ps : List Part} {s0 s : State} {x1} (_hp : [.freeN, .out, .regs, .scope, .te] ⊆ ps) (h : moves ps s0 s) :
    moves ps s0 (State.rateControl s x1) := by
  unfold State.rateControl
  (try dsimp only)
  repeat' first
    | with_reducible assumption
    | split
    | with_reducible apply moves_applyAdj
    | with_reducible apply moves_useFree
    | exact _hp (by decide)
    | exact List.Subset.trans (by decide) _hp
    | intro _

theorem moves_judgeLock {ps : List Part} {s0 s : State} {x1} {x2} (_hp : [.out, .regs, .scope, .te] ⊆ ps) (h : moves ps s0 s) :
    moves ps s0 (State.judgeLock s x1 x2) := by
  unfold State.judgeLock
  (try dsimp only)
  repeat' first
    | with_reducible assumption
    | split
    | with_reducible apply moves_setServo
    | with_reducible apply moves_toAsState
    | exact _hp (by decide)
    | exact List.Subset.trans (by decide) _hp
    | intro _

theorem moves_servoTrack {ps : List Part} {s0 s : State} {x1} {x2} (_hp : [.freeN, .out, .regs, .scope, .sv, .sx, .te, .ob, .cx, .mx] ⊆ ps) (h : moves ps s0 s) :
    moves ps s0 (State.servoTrack s x1 x2) := by
  unfold State.servoTrack
  (try dsimp only)
  repeat' first
    | with_reducible assumption
    | split
    | with_reducible apply moves_moveTi
    | with_reducible apply moves_judgeLock
    | with_reducible apply moves_rateControl
    | exact _hp (by decide)
    | exact List.Subset.trans (by decide) _hp
    | intro _

theorem moves_servoRefuse {ps : List Part} {s0 s : State} {x1} {x2} {x3} (_hp : [.out, .regs, .scope, .te] ⊆ ps) (h : moves ps s0 s) :
    moves ps s0 (State.servoRefuse s x1 x2 x3) := by
  unfold State.servoRefuse
  (try dsimp only)
  repeat' first
    | with_reducible assumption
    | split
    | with_reducible apply moves_guardCount
    | with_reducible apply moves_raiseTe
    | with_reducible apply moves_holdover
    | with_reducible apply moves_setServo
    | exact _hp (by decide)
    | exact List.Subset.trans (by decide) _hp
    | intro _

theorem moves_servoRun {ps : List Part} {s0 s : State} {x1} {x2} {x3} (_hp : [.freeN, .out, .regs, .scope, .sv, .sx, .te, .ob, .cx, .mx] ⊆ ps) (h : moves ps s0 s) :
    moves ps s0 (State.servoRun s x1 x2 x3) := by
  unfold State.servoRun
  (try dsimp only)
  repeat' first
    | with_reducible assumption
    | split
    | with_reducible apply moves_raiseTe
    | with_reducible apply moves_guardCount
    | with_reducible apply moves_startSlew
    | with_reducible apply moves_servoRefuse
    | with_reducible apply moves_endSlew
    | with_reducible apply moves_setServo
    | with_reducible apply moves_servoTrack
    | exact _hp (by decide)
    | exact List.Subset.trans (by decide) _hp
    | intro _

theorem moves_noteInterval {ps : List Part} {s0 s : State} {x1} (_hp : [.te] ⊆ ps) (h : moves ps s0 s) :
    moves ps s0 (State.noteInterval s x1) := by
  unfold State.noteInterval
  (try dsimp only)
  repeat' first
    | with_reducible assumption
    | split
    | with_reducible apply moves_setServo
    | exact _hp (by decide)
    | exact List.Subset.trans (by decide) _hp
    | intro _

theorem moves_syncReceived {ps : List Part} {s0 s : State} {x1} {x2} {x3} {x4} {x5} (_hp : [.freeN, .out, .regs, .scope, .sv, .sx, .te, .ob, .cx, .mx] ⊆ ps) (h : moves ps s0 s) :
    moves ps s0 (State.syncReceived s x1 x2 x3 x4 x5) := by
  unfold State.syncReceived
  (try dsimp only)
  repeat' first
    | with_reducible assumption
    | split
    | with_reducible apply moves_setRg
    | with_reducible apply moves_wr64
    | with_reducible apply moves_setServo
    | with_reducible apply moves_servoRun
    | with_reducible apply moves_noteInterval
    | with_reducible apply moves_moveTi
    | with_reducible apply moves_toAsState
    | exact _hp (by decide)
    | exact List.Subset.trans (by decide) _hp
    | intro _

theorem moves_masterHere {ps : List Part} {s0 s : State} {x1} {x2} (_hp : [.freeN] ⊆ ps) (h : moves ps s0 s) :
    moves ps s0 (State.masterHere s x1 x2).1 := by
  unfold State.masterHere
  (try dsimp only)
  repeat' first
    | with_reducible assumption
    | split
    | with_reducible apply moves_useFree
    | exact _hp (by decide)
    | exact List.Subset.trans (by decide) _hp
    | intro _

theorem moves_masterHere_eq {ps : List Part} {s0 s : State} {x1} {x2} (_hp : [.freeN] ⊆ ps) (h : moves ps s0 s) {t v} (hq : (State.masterHere s x1 x2) = (t, v)) :
    moves ps s0 t := by
  have := moves_masterHere (x1 := x1) (x2 := x2)  _hp h
  rwa [hq] at this

theorem moves_judgeMaster {ps : List Part} {s0 s : State} {x1} {x2} (_hp : [.freeN, .out, .regs, .scope] ⊆ ps) (h : moves ps s0 s) :
    moves ps s0 (State.judgeMaster s x1 x2) := by
  unfold State.judgeMaster
  (try dsimp only)
  repeat' first
    | with_reducible assumption
    | split
    | with_reducible apply moves_toAsState
    | with_reducible apply moves_masterHere
    | with_reducible refine moves_masterHere_eq ?_ ?_ (by assumption)
    | exact _hp (by decide)
    | exact List.Subset.trans (by decide) _hp
    | intro _

theorem moves_syncHeard {ps : List Part} {s0 s : State} {x1} {x2} {x3} {x4} {x5} (_hp : [.freeN, .out, .regs, .scope, .sv, .sx, .te, .ob, .cx, .mx] ⊆ ps) (h : moves ps s0 s) :
    moves ps s0 (State.syncHeard s x1 x2 x3 x4 x5) := by
  unfold State.syncHeard
  (try dsimp only)
  repeat' first
    | with_reducible assumption
    | split
    | with_reducible apply moves_masterHere
    | with_reducible refine moves_masterHere_eq ?_ ?_ (by assumption)
    | with_reducible apply moves_syncReceived
    | with_reducible apply moves_toAsState
    | with_reducible apply moves_holdover
    | exact _hp (by decide)
    | exact List.Subset.trans (by decide) _hp
    | intro _

theorem moves_syncOut {ps : List Part} {s0 s : State} {x1} {x2} (_hp : [.out] ⊆ ps) (h : moves ps s0 s) :
    moves ps s0 (State.syncOut s x1 x2) := by
  unfold State.syncOut
  (try dsimp only)
  repeat' first
    | with_reducible assumption
    | split
    | with_reducible apply moves_emit
    | exact _hp (by decide)
    | exact List.Subset.trans (by decide) _hp
    | intro _

theorem moves_tsiCapture {ps : List Part} {s0 s : State} {x1} {x2} (_hp : [.out, .regs, .scope, .te] ⊆ ps) (h : moves ps s0 s) :
    moves ps s0 (State.tsiCapture s x1 x2) := by
  unfold State.tsiCapture
  (try dsimp only)
  repeat' first
    | with_reducible assumption
    | split
    | with_reducible apply moves_raiseTePin
    | with_reducible apply moves_bump
    | with_reducible apply moves_upd_te
    | exact _hp (by decide)
    | exact List.Subset.trans (by decide) _hp
    | intro _

theorem moves_tsiPop {ps : List Part} {s0 s : State} {x1} (_hp : [.regs, .te] ⊆ ps) (h : moves ps s0 s) :
    moves ps s0 (State.tsiPop s x1) := by
  unfold State.tsiPop
  (try dsimp only)
  repeat' first
    | with_reducible assumption
    | split
    | with_reducible apply moves_setRg
    | with_reducible apply moves_upd_te
    | exact _hp (by decide)
    | exact List.Subset.trans (by decide) _hp
    | intro _

theorem moves_execTiAdjWrite {ps : List Part} {s0 s : State} {x0} {x1} {x2} (_hp : [.out, .resp, .regs, .scope, .te] ⊆ ps) (h : moves ps s0 s) :
    ∀ t, (execTiAdjWrite x0 x1 x2 s) = .next t → moves ps s0 t := by
  unfold execTiAdjWrite
  intro t ht
  injection ht with ht; subst ht
  (try dsimp only)
  repeat' first
    | with_reducible assumption
    | split
    | with_reducible apply moves_only
    | with_reducible apply moves_byAgent
    | with_reducible apply moves_applyAdj
    | exact _hp (by decide)
    | exact List.Subset.trans (by decide) _hp
    | intro _

theorem moves_execTiStep {ps : List Part} {s0 s : State} {x0} {x1} (_hp : [.out, .resp, .regs, .scope, .sv, .sx, .te, .ob, .cx, .mx] ⊆ ps) (h : moves ps s0 s) :
    ∀ t, (execTiStep x0 x1 s) = .next t → moves ps s0 t := by
  unfold execTiStep
  intro t ht
  injection ht with ht; subst ht
  (try dsimp only)
  repeat' first
    | with_reducible assumption
    | split
    | with_reducible apply moves_only
    | with_reducible apply moves_byAgent
    | with_reducible apply moves_tiResult
    | with_reducible apply moves_guardCount
    | with_reducible apply moves_moveTi
    | exact _hp (by decide)
    | exact List.Subset.trans (by decide) _hp
    | intro _

theorem moves_execTiSet {ps : List Part} {s0 s : State} {x0} {x1} (_hp : [.out, .resp, .regs, .scope, .sv, .sx, .te, .ob, .cx, .mx] ⊆ ps) (h : moves ps s0 s) :
    ∀ t, (execTiSet x0 x1 s) = .next t → moves ps s0 t := by
  unfold execTiSet
  intro t ht
  injection ht with ht; subst ht
  (try dsimp only)
  repeat' first
    | with_reducible assumption
    | split
    | with_reducible apply moves_only
    | with_reducible apply moves_byAgent
    | with_reducible apply moves_tiResult
    | with_reducible apply moves_guardCount
    | with_reducible apply moves_setRg
    | with_reducible apply moves_moveTi
    | exact _hp (by decide)
    | exact List.Subset.trans (by decide) _hp
    | intro _

theorem moves_execTiUnset {ps : List Part} {s0 s : State} {x0} {x1} (_hp : [.out, .resp, .regs, .scope] ⊆ ps) (h : moves ps s0 s) :
    ∀ t, (execTiUnset x0 x1 s) = .next t → moves ps s0 t := by
  unfold execTiUnset
  intro t ht
  injection ht with ht; subst ht
  (try dsimp only)
  repeat' first
    | with_reducible assumption
    | split
    | with_reducible apply moves_only
    | with_reducible apply moves_byAgent
    | with_reducible apply moves_toAsState
    | with_reducible apply moves_tiResult
    | with_reducible apply moves_setRg
    | exact _hp (by decide)
    | exact List.Subset.trans (by decide) _hp
    | intro _

theorem moves_execSyncReceived {ps : List Part} {s0 s : State} {x0} {x1} {x2} {x3} {x4} {x5} (_hp : [.freeN, .out, .regs, .scope, .sv, .sx, .te, .ob, .cx, .mx] ⊆ ps) (h : moves ps s0 s) :
    ∀ t, (execSyncReceived x0 x1 x2 x3 x4 x5 s) = .next t → moves ps s0 t := by
  unfold execSyncReceived
  intro t ht
  injection ht with ht; subst ht
  (try dsimp only)
  repeat' first
    | with_reducible assumption
    | split
    | with_reducible apply moves_only
    | with_reducible apply moves_syncHeard
    | exact _hp (by decide)
    | exact List.Subset.trans (by decide) _hp
    | intro _

theorem moves_execSyncTimeout {ps : List Part} {s0 s : State} {x0} {x1} (_hp : [.freeN, .out, .regs, .scope, .te] ⊆ ps) (h : moves ps s0 s) :
    ∀ t, (execSyncTimeout x0 x1 s) = .next t → moves ps s0 t := by
  unfold execSyncTimeout
  intro t ht
  injection ht with ht; subst ht
  (try dsimp only)
  repeat' first
    | with_reducible assumption
    | split
    | with_reducible apply moves_only
    | with_reducible apply moves_judgeMaster
    | with_reducible apply moves_holdover
    | exact _hp (by decide)
    | exact List.Subset.trans (by decide) _hp
    | intro _

theorem moves_execSettleExpiry {ps : List Part} {s0 s : State} {x0} (_hp : [.out, .regs, .scope, .te] ⊆ ps) (h : moves ps s0 s) :
    ∀ t, (execSettleExpiry x0 s) = .next t → moves ps s0 t := by
  unfold execSettleExpiry
  intro t ht
  injection ht with ht; subst ht
  (try dsimp only)
  repeat' first
    | with_reducible assumption
    | split
    | with_reducible apply moves_only
    | with_reducible apply moves_raiseTe
    | with_reducible apply moves_toAsState
    | with_reducible apply moves_setServo
    | with_reducible apply moves_startSlew
    | exact _hp (by decide)
    | exact List.Subset.trans (by decide) _hp
    | intro _

theorem moves_execSyncTransmit {ps : List Part} {s0 s : State} {x0} (_hp : [.out] ⊆ ps) (h : moves ps s0 s) :
    ∀ t, (execSyncTransmit x0 s) = .next t → moves ps s0 t := by
  unfold execSyncTransmit
  intro t ht
  injection ht with ht; subst ht
  (try dsimp only)
  repeat' first
    | with_reducible assumption
    | split
    | with_reducible apply moves_only
    | with_reducible apply moves_forEach
    | with_reducible apply moves_syncOut
    | with_reducible apply moves_emit
    | exact _hp (by decide)
    | exact List.Subset.trans (by decide) _hp
    | intro _

theorem moves_execTsyncInEdge {ps : List Part} {s0 s : State} {x0} {x1} (_hp : [.out, .regs, .scope, .te] ⊆ ps) (h : moves ps s0 s) :
    ∀ t, (execTsyncInEdge x0 x1 s) = .next t → moves ps s0 t := by
  unfold execTsyncInEdge
  intro t ht
  injection ht with ht; subst ht
  (try dsimp only)
  repeat' first
    | with_reducible assumption
    | split
    | with_reducible apply moves_only
    | with_reducible apply moves_tsiCapture
    | exact _hp (by decide)
    | exact List.Subset.trans (by decide) _hp
    | intro _

theorem moves_execTsyncOutEdge {ps : List Part} {s0 s : State} {x0} (_hp : [.out, .te] ⊆ ps) (h : moves ps s0 s) :
    ∀ t, (execTsyncOutEdge x0 s) = .next t → moves ps s0 t := by
  unfold execTsyncOutEdge
  intro t ht
  injection ht with ht; subst ht
  (try dsimp only)
  repeat' first
    | with_reducible assumption
    | split
    | with_reducible apply moves_only
    | with_reducible apply moves_emit
    | with_reducible apply moves_setTso
    | exact _hp (by decide)
    | exact List.Subset.trans (by decide) _hp
    | intro _

theorem moves_execFbtcPair {ps : List Part} {s0 s : State} (_hp : [.te] ⊆ ps) (h : moves ps s0 s) :
    ∀ t, (execFbtcPair s) = .next t → moves ps s0 t := by
  unfold execFbtcPair
  intro t ht
  injection ht with ht; subst ht
  (try dsimp only)
  repeat' first
    | with_reducible assumption
    | split
    | with_reducible apply moves_takePair
    | exact _hp (by decide)
    | exact List.Subset.trans (by decide) _hp
    | intro _

theorem moves_execPairGo {ps : List Part} {s0 s : State} {x0} {x1} (_hp : [.resp, .te] ⊆ ps) (h : moves ps s0 s) :
    ∀ t, (execPairGo x0 x1 s) = .next t → moves ps s0 t := by
  unfold execPairGo
  intro t ht
  injection ht with ht; subst ht
  (try dsimp only)
  repeat' first
    | with_reducible assumption
    | split
    | with_reducible apply moves_byAgent
    | with_reducible apply moves_takePair
    | exact _hp (by decide)
    | exact List.Subset.trans (by decide) _hp
    | intro _

end Sys2Proof.Machine
end

