-- ==== Sys2Proof/Laws/MovesCommitOps.lean ====
section
/-!
SUPPORT. What each operation of Machine/CommitOps.lean can do: the parts of the state it may change, and what it keeps
(`moves`, Safety.lean). One lemma for each operation; callers cite it and do not unfold the operation.
-/

set_option linter.unusedTactic false
set_option linter.unreachableTactic false
set_option linter.unusedSimpArgs false

namespace Sys2Proof.Machine

open State

theorem moves_setActive {ps : List Part} {s0 s : State} {x1} {x2} (_hp : [.active] ⊆ ps) (h : moves ps s0 s) :
    moves ps s0 (State.setActive s x1 x2) := by
  unfold State.setActive
  (try dsimp only)
  repeat' first
    | with_reducible assumption
    | split
    | with_reducible apply moves_upd_active
    | exact _hp (by decide)
    | exact List.Subset.trans (by decide) _hp
    | intro _

theorem moves_setShadow {ps : List Part} {s0 s : State} {x1} {x2} (_hp : [.shadow] ⊆ ps) (h : moves ps s0 s) :
    moves ps s0 (State.setShadow s x1 x2) := by
  unfold State.setShadow
  (try dsimp only)
  repeat' first
    | with_reducible assumption
    | split
    | with_reducible apply moves_upd_shadow
    | exact _hp (by decide)
    | exact List.Subset.trans (by decide) _hp
    | intro _

theorem moves_shadowWord0 {ps : List Part} {s0 s : State} {x1} {x2} {x3} (_hp : [.shadow] ⊆ ps) (h : moves ps s0 s) :
    moves ps s0 (State.shadowWord0 s x1 x2 x3) := by
  unfold State.shadowWord0
  (try dsimp only)
  repeat' first
    | with_reducible assumption
    | split
    | with_reducible apply moves_setShadow
    | exact _hp (by decide)
    | exact List.Subset.trans (by decide) _hp
    | intro _

theorem moves_staticReach {ps : List Part} {s0 s : State} {x1} {x2} {x3} (_hp : [.out, .regs, .scope, .fx] ⊆ ps) (h : moves ps s0 s) :
    moves ps s0 (State.staticReach s x1 x2 x3) := by
  unfold State.staticReach
  (try dsimp only)
  repeat' first
    | with_reducible assumption
    | split
    | with_reducible apply moves_staticWritten
    | exact _hp (by decide)
    | exact List.Subset.trans (by decide) _hp
    | intro _

theorem moves_shadowPut {ps : List Part} {s0 s : State} {x1} {x2} {x3} (_hp : [.out, .regs, .shadow, .scope, .fx] ⊆ ps) (h : moves ps s0 s) :
    moves ps s0 (State.shadowPut s x1 x2 x3) := by
  unfold State.shadowPut
  (try dsimp only)
  repeat' first
    | with_reducible assumption
    | split
    | with_reducible apply moves_staticReach
    | with_reducible apply moves_shadowWord0
    | exact _hp (by decide)
    | exact List.Subset.trans (by decide) _hp
    | intro _

theorem moves_copyOver {ps : List Part} {s0 s : State} {x1} (_hp : [.shadow, .fx] ⊆ ps) (h : moves ps s0 s) :
    moves ps s0 (State.copyOver s x1) := by
  unfold State.copyOver
  (try dsimp only)
  repeat' first
    | with_reducible assumption
    | split
    | with_reducible apply moves_forEach
    | with_reducible apply moves_setShadow
    | with_reducible apply moves_staticsRollback
    | with_reducible apply moves_setCurrent
    | exact _hp (by decide)
    | exact List.Subset.trans (by decide) _hp
    | intro _

theorem moves_recopyDue {ps : List Part} {s0 s : State} (_hp : [.shadow, .sv, .fx] ⊆ ps) (h : moves ps s0 s) :
    moves ps s0 (State.recopyDue s) := by
  unfold State.recopyDue
  (try dsimp only)
  repeat' first
    | with_reducible assumption
    | split
    | with_reducible apply moves_copyOver
    | with_reducible apply moves_upd_sv
    | exact _hp (by decide)
    | exact List.Subset.trans (by decide) _hp
    | intro _

theorem moves_noteDrain {ps : List Part} {s0 s : State} (_hp : [.out, .regs, .scope, .fx] ⊆ ps) (h : moves ps s0 s) :
    moves ps s0 (State.noteDrain s) := by
  unfold State.noteDrain
  (try dsimp only)
  repeat' first
    | with_reducible assumption
    | split
    | with_reducible apply moves_judgeRsv
    | with_reducible apply moves_staticsDrained
    | exact _hp (by decide)
    | exact List.Subset.trans (by decide) _hp
    | intro _

theorem moves_drainDone {ps : List Part} {s0 s : State} (_hp : [.out, .regs, .shadow, .scope, .sv, .fx] ⊆ ps) (h : moves ps s0 s) :
    moves ps s0 (State.drainDone s) := by
  unfold State.drainDone
  (try dsimp only)
  repeat' first
    | with_reducible assumption
    | split
    | with_reducible apply moves_noteDrain
    | with_reducible apply moves_recopyDue
    | exact _hp (by decide)
    | exact List.Subset.trans (by decide) _hp
    | intro _

theorem moves_drainUnless {ps : List Part} {s0 s : State} {x1} (_hp : [.out, .regs, .shadow, .scope, .sv, .fx] ⊆ ps) (h : moves ps s0 s) :
    moves ps s0 (State.drainUnless s x1) := by
  unfold State.drainUnless
  (try dsimp only)
  repeat' first
    | with_reducible assumption
    | split
    | with_reducible apply moves_drainDone
    | exact _hp (by decide)
    | exact List.Subset.trans (by decide) _hp
    | intro _

theorem moves_rxOver {ps : List Part} {s0 s : State} (_hp : [.out, .regs, .shadow, .scope, .sv, .sx, .fx, .ob, .cx, .mx] ⊆ ps) (h : moves ps s0 s) :
    moves ps s0 (State.rxOver s) := by
  unfold State.rxOver
  (try dsimp only)
  repeat' first
    | with_reducible assumption
    | split
    | with_reducible apply moves_drainDone
    | with_reducible apply moves_cleanHeads
    | exact _hp (by decide)
    | exact List.Subset.trans (by decide) _hp
    | intro _

theorem moves_swapCopies {ps : List Part} {s0 s : State} {x1} (_hp : [.active, .shadow, .fx] ⊆ ps) (h : moves ps s0 s) :
    moves ps s0 (State.swapCopies s x1) := by
  unfold State.swapCopies
  (try dsimp only)
  repeat' first
    | with_reducible assumption
    | split
    | with_reducible apply moves_forEach
    | with_reducible apply moves_setShadow
    | with_reducible apply moves_setActive
    | with_reducible apply moves_staticsSwap
    | exact _hp (by decide)
    | exact List.Subset.trans (by decide) _hp
    | intro _

theorem moves_routeCommit {ps : List Part} {s0 s : State} {x1} (_hp : [.out] ⊆ ps) (h : moves ps s0 s) :
    moves ps s0 (State.routeCommit s x1) := by
  unfold State.routeCommit
  (try dsimp only)
  repeat' first
    | with_reducible assumption
    | split
    | with_reducible apply moves_forEach
    | with_reducible apply moves_notifyAll
    | with_reducible apply moves_sendVec
    | exact _hp (by decide)
    | exact List.Subset.trans (by decide) _hp
    | intro _

theorem moves_modeCommit {ps : List Part} {s0 s : State} (_hp : [.out, .regs, .scope] ⊆ ps) (h : moves ps s0 s) :
    moves ps s0 (State.modeCommit s) := by
  unfold State.modeCommit
  (try dsimp only)
  repeat' first
    | with_reducible assumption
    | split
    | with_reducible apply moves_raise
    | with_reducible apply moves_setRg
    | exact _hp (by decide)
    | exact List.Subset.trans (by decide) _hp
    | intro _

theorem moves_portCommit {ps : List Part} {s0 s : State} {x1} {x2} (_hp : [.freeN, .out, .regs, .scope, .sx, .fx, .ob, .px, .bx, .cx, .mx] ⊆ ps) (h : moves ps s0 s) :
    moves ps s0 (State.portCommit s x1 x2) := by
  unfold State.portCommit
  (try dsimp only)
  repeat' first
    | with_reducible assumption
    | split
    | with_reducible apply moves_portDown
    | with_reducible apply moves_forEach
    | with_reducible apply moves_endPause
    | with_reducible apply moves_upd_px
    | exact _hp (by decide)
    | exact List.Subset.trans (by decide) _hp
    | intro _

theorem moves_limitCommit {ps : List Part} {s0 s : State} {x1} (_hp : [.fx] ⊆ ps) (h : moves ps s0 s) :
    moves ps s0 (State.limitCommit s x1) := by
  unfold State.limitCommit
  (try dsimp only)
  repeat' first
    | with_reducible assumption
    | split
    | with_reducible apply moves_upd_fx
    | exact _hp (by decide)
    | exact List.Subset.trans (by decide) _hp
    | intro _

theorem moves_pgCommit {ps : List Part} {s0 s : State} {x1} {x2} (_hp : [.regs, .fx] ⊆ ps) (h : moves ps s0 s) :
    moves ps s0 (State.pgCommit s x1 x2) := by
  unfold State.pgCommit
  (try dsimp only)
  repeat' first
    | with_reducible assumption
    | split
    | with_reducible apply moves_setCurrent
    | with_reducible apply moves_setRejoin
    | with_reducible apply moves_notePg
    | with_reducible apply moves_upd_fx
    | exact _hp (by decide)
    | exact List.Subset.trans (by decide) _hp
    | intro _

theorem moves_policerCommit {ps : List Part} {s0 s : State} {x1} {x2} (_hp : [.fx] ⊆ ps) (h : moves ps s0 s) :
    moves ps s0 (State.policerCommit s x1 x2) := by
  unfold State.policerCommit
  (try dsimp only)
  repeat' first
    | with_reducible assumption
    | split
    | with_reducible apply moves_upd_fx
    | exact _hp (by decide)
    | exact List.Subset.trans (by decide) _hp
    | intro _

theorem moves_psfpCommit {ps : List Part} {s0 s : State} {x1} (_hp : [.regs] ⊆ ps) (h : moves ps s0 s) :
    moves ps s0 (State.psfpCommit s x1) := by
  unfold State.psfpCommit
  (try dsimp only)
  repeat' first
    | with_reducible assumption
    | split
    | with_reducible apply moves_forEach
    | with_reducible apply moves_setRg
    | with_reducible apply moves_sgateShow
    | exact _hp (by decide)
    | exact List.Subset.trans (by decide) _hp
    | intro _

theorem moves_frerCommit {ps : List Part} {s0 s : State} {x1} {x2} (_hp : [.out, .regs, .scope, .fx] ⊆ ps) (h : moves ps s0 s) :
    moves ps s0 (State.frerCommit s x1 x2) := by
  unfold State.frerCommit
  (try dsimp only)
  repeat' first
    | with_reducible assumption
    | split
    | with_reducible apply moves_raise
    | with_reducible apply moves_bump
    | with_reducible apply moves_upd_fx
    | exact _hp (by decide)
    | exact List.Subset.trans (by decide) _hp
    | intro _

theorem moves_settleCredits {ps : List Part} {s0 s : State} (_hp : [.sx] ⊆ ps) (h : moves ps s0 s) :
    moves ps s0 (State.settleCredits s) := by
  unfold State.settleCredits
  (try dsimp only)
  repeat' first
    | with_reducible assumption
    | split
    | with_reducible apply moves_forEach
    | with_reducible apply moves_setQueue
    | exact _hp (by decide)
    | exact List.Subset.trans (by decide) _hp
    | intro _

theorem moves_shaperCommit {ps : List Part} {s0 s : State} {x1} {x2} (_hp : [.sx] ⊆ ps) (h : moves ps s0 s) :
    moves ps s0 (State.shaperCommit s x1 x2) := by
  unfold State.shaperCommit
  (try dsimp only)
  repeat' first
    | with_reducible assumption
    | split
    | with_reducible apply moves_setQueue
    | exact _hp (by decide)
    | exact List.Subset.trans (by decide) _hp
    | intro _

theorem moves_tiCommit {ps : List Part} {s0 s : State} {x1} {x2} (_hp : [.out, .regs, .scope, .te] ⊆ ps) (h : moves ps s0 s) :
    moves ps s0 (State.tiCommit s x1 x2) := by
  unfold State.tiCommit
  (try dsimp only)
  repeat' first
    | with_reducible assumption
    | split
    | with_reducible apply moves_setRg
    | with_reducible apply moves_pairIf
    | with_reducible apply moves_judgeAdj
    | with_reducible apply moves_setServo
    | with_reducible apply moves_toAsState
    | exact _hp (by decide)
    | exact List.Subset.trans (by decide) _hp
    | intro _

theorem moves_tsoCommit {ps : List Part} {s0 s : State} {x1} {x2} (_hp : [.te] ⊆ ps) (h : moves ps s0 s) :
    moves ps s0 (State.tsoCommit s x1 x2) := by
  unfold State.tsoCommit
  (try dsimp only)
  repeat' first
    | with_reducible assumption
    | split
    | with_reducible apply moves_tsoSettle
    | exact _hp (by decide)
    | exact List.Subset.trans (by decide) _hp
    | intro _

theorem moves_foldCommit {ps : List Part} {s0 s : State} {x1} (_hp : [.freeN, .out, .regs, .scope, .pw, .sx, .fx, .ob, .aon, .cx, .mx] ⊆ ps) (h : moves ps s0 s) :
    moves ps s0 (State.foldCommit s x1) := by
  unfold State.foldCommit
  (try dsimp only)
  repeat' first
    | with_reducible assumption
    | split
    | with_reducible apply moves_forEach
    | with_reducible apply moves_setSd
    | with_reducible apply moves_chsJudge
    | with_reducible apply moves_foldsJudge
    | with_reducible apply moves_upd_aon
    | exact _hp (by decide)
    | exact List.Subset.trans (by decide) _hp
    | intro _

theorem moves_csuCommit {ps : List Part} {s0 s : State} {x1} {x2} (_hp : [.regs, .ob] ⊆ ps) (h : moves ps s0 s) :
    moves ps s0 (State.csuCommit s x1 x2) := by
  unfold State.csuCommit
  (try dsimp only)
  repeat' first
    | with_reducible assumption
    | split
    | with_reducible apply moves_setRg
    | with_reducible apply moves_upd_ob
    | exact _hp (by decide)
    | exact List.Subset.trans (by decide) _hp
    | intro _

theorem moves_obRingCommit {ps : List Part} {s0 s : State} {x1} {x2} (_hp : [.regs, .ob] ⊆ ps) (h : moves ps s0 s) :
    moves ps s0 (State.obRingCommit s x1 x2) := by
  unfold State.obRingCommit
  (try dsimp only)
  repeat' first
    | with_reducible assumption
    | split
    | with_reducible apply moves_setRg
    | with_reducible apply moves_setRing
    | exact _hp (by decide)
    | exact List.Subset.trans (by decide) _hp
    | intro _

theorem moves_entriesWritten {ps : List Part} {s0 s : State} {x1} (_hp : [.fx] ⊆ ps) (h : moves ps s0 s) :
    moves ps s0 (State.entriesWritten s x1) := by
  unfold State.entriesWritten
  (try dsimp only)
  repeat' first
    | with_reducible assumption
    | split
    | with_reducible apply moves_upd_fx
    | exact _hp (by decide)
    | exact List.Subset.trans (by decide) _hp
    | intro _

theorem moves_domainCommit {ps : List Part} {s0 s : State} {x1} {x2} (_hp : [.freeN, .out, .regs, .scope, .pw, .sv, .sx, .fx, .te, .ob, .px, .kx, .ce, .upd, .bx, .aon, .cx, .mx] ⊆ ps) (h : moves ps s0 s) :
    moves ps s0 (State.domainCommit s x1 x2) := by
  unfold State.domainCommit
  (try dsimp only)
  repeat' first
    | with_reducible assumption
    | split
    | with_reducible apply moves_modeCommit
    | with_reducible apply moves_routeCommit
    | with_reducible apply moves_forEach
    | with_reducible apply moves_portCommit
    | with_reducible apply moves_pgCommit
    | with_reducible apply moves_limitCommit
    | with_reducible apply moves_policerCommit
    | with_reducible apply moves_psfpCommit
    | with_reducible apply moves_frerCommit
    | with_reducible apply moves_shaperCommit
    | with_reducible apply moves_gclCommit
    | with_reducible apply moves_tiCommit
    | with_reducible apply moves_tsoCommit
    | with_reducible apply moves_canCommit
    | with_reducible apply moves_pqCommit
    | with_reducible apply moves_commitNodes
    | with_reducible apply moves_commitCtxs
    | with_reducible apply moves_foldCommit
    | with_reducible apply moves_lsCommit
    | with_reducible apply moves_oppCommit
    | with_reducible apply moves_ringsCommit
    | with_reducible apply moves_hamCapped
    | with_reducible apply moves_csuCommit
    | with_reducible apply moves_obRingCommit
    | with_reducible apply moves_upd_kx
    | exact _hp (by decide)
    | exact List.Subset.trans (by decide) _hp
    | intro _

theorem moves_commitSet {ps : List Part} {s0 s : State} {x1} (_hp : [.freeN, .out, .regs, .active, .shadow, .swapped, .scope, .pw, .sv, .sx, .fx, .te, .ob, .px, .kx, .ce, .upd, .bx, .aon, .cx, .mx] ⊆ ps) (h : moves ps s0 s) :
    moves ps s0 (State.commitSet s x1) := by
  unfold State.commitSet
  (try dsimp only)
  repeat' first
    | with_reducible assumption
    | split
    | with_reducible apply moves_settleCredits
    | with_reducible apply moves_recopyDue
    | with_reducible apply moves_entriesWritten
    | with_reducible apply moves_setRg
    | with_reducible apply moves_swapCopies
    | with_reducible apply moves_forEach
    | with_reducible apply moves_domainCommit
    | with_reducible apply moves_raise
    | with_reducible apply moves_hamJudge
    | with_reducible apply moves_portsJudge
    | with_reducible apply moves_modeAuto
    | with_reducible apply moves_upd_swapped
    | with_reducible apply moves_upd_pw
    | exact _hp (by decide)
    | exact List.Subset.trans (by decide) _hp
    | intro _

end Sys2Proof.Machine
end

