-- ==== Sys2Proof/Laws/Copies.lean ====
section
/-!
SUPPORT. The two copies of the configuration domains (R98, R106, R109, R113): what the copy of ACTIVE and the swap at a
commit do to each domain.
-/

namespace Sys2Proof.Machine

theorem maskList_nodup (m n : Nat) : (maskList m n).Nodup := by
  unfold maskList
  exact List.Nodup.filter _ List.nodup_range

theorem mem_maskList (m n i : Nat) : i ∈ maskList m n ↔ i < n ∧ m.testBit i = true := by
  unfold maskList
  simp [List.mem_filter]

namespace State

@[simp] theorem activeOf_setActive_same (s : State) (d : Nat) (rf : RegFile) : (s.setActive d rf).activeOf d = rf :=
  Sparse.get_set_same _ _ _ _

theorem activeOf_setActive_ne (s : State) {d e : Nat} (rf : RegFile) (h : e ≠ d) :
    (s.setActive d rf).activeOf e = s.activeOf e :=
  Sparse.get_set_ne _ _ _ h

@[simp] theorem shadowOf_setShadow_same (s : State) (d : Nat) (rf : RegFile) : (s.setShadow d rf).shadowOf d = rf :=
  Sparse.get_set_same _ _ _ _

theorem shadowOf_setShadow_ne (s : State) {d e : Nat} (rf : RegFile) (h : e ≠ d) :
    (s.setShadow d rf).shadowOf e = s.shadowOf e :=
  Sparse.get_set_ne _ _ _ h

theorem activeOf_setShadow (s : State) (d e : Nat) (rf : RegFile) : (s.setShadow d rf).activeOf e = s.activeOf e := rfl
theorem shadowOf_setActive (s : State) (d e : Nat) (rf : RegFile) : (s.setActive d rf).shadowOf e = s.shadowOf e := rfl

/-- Copying ACTIVE over some domains. -/
theorem forEach_copy (s : State) (l : List Nat) (e : Nat) :
    (s.forEach l (fun t d => t.setShadow d (t.activeOf d))).activeOf e = s.activeOf e ∧
      (s.forEach l (fun t d => t.setShadow d (t.activeOf d))).shadowOf e =
        if e ∈ l then s.activeOf e else s.shadowOf e := by
  unfold forEach
  induction l generalizing s with
  | nil => exact ⟨rfl, rfl⟩
  | cons d l ih =>
    rw [List.foldl_cons]
    refine ⟨(ih _).1.trans (activeOf_setShadow s d e _), (ih _).2.trans ?_⟩
    rw [activeOf_setShadow]
    by_cases he : e ∈ l
    · simp [he]
    · by_cases hd : e = d
      · subst hd; simp [he]
      · simp [he, hd, shadowOf_setShadow_ne s _ hd]

/-- Swapping the copies of some domains, each once. -/
theorem forEach_swap (s : State) (l : List Nat) (hl : l.Nodup) (e : Nat) :
    (s.forEach l (fun t d => (t.setActive d (s.shadowOf d)).setShadow d (s.activeOf d))).activeOf e =
        (if e ∈ l then s.shadowOf e else s.activeOf e) ∧
      (s.forEach l (fun t d => (t.setActive d (s.shadowOf d)).setShadow d (s.activeOf d))).shadowOf e =
        if e ∈ l then s.activeOf e else s.shadowOf e := by
  have key : ∀ (l : List Nat), l.Nodup → ∀ (t : State),
      (t.forEach l (fun t d => (t.setActive d (s.shadowOf d)).setShadow d (s.activeOf d))).activeOf e =
        (if e ∈ l then s.shadowOf e else t.activeOf e) ∧
      (t.forEach l (fun t d => (t.setActive d (s.shadowOf d)).setShadow d (s.activeOf d))).shadowOf e =
        if e ∈ l then s.activeOf e else t.shadowOf e := by
    intro l
    induction l with
    | nil => exact fun _ t => ⟨rfl, rfl⟩
    | cons d l ih =>
      intro hn t
      obtain ⟨hd, hl⟩ := List.nodup_cons.mp hn
      unfold forEach at ih ⊢
      rw [List.foldl_cons]
      refine ⟨(ih hl _).1.trans ?_, (ih hl _).2.trans ?_⟩
      · rw [activeOf_setShadow]
        by_cases he : e ∈ l
        · simp [he]
        · by_cases hde : e = d
          · subst hde; simp [he]
          · simp [he, hde, activeOf_setActive_ne t _ hde]
      · by_cases he : e ∈ l
        · simp [he]
        · by_cases hde : e = d
          · subst hde; simp [he]
          · simp [he, hde, shadowOf_setShadow_ne _ _ hde, shadowOf_setActive]
  exact key l hl s

theorem activeOf_congr {s t : State} (h : t.active = s.active) (d : Nat) : t.activeOf d = s.activeOf d := by
  unfold activeOf; rw [h]

theorem shadowOf_congr {s t : State} (h : t.shadow = s.shadow) (d : Nat) : t.shadowOf d = s.shadowOf d := by
  unfold shadowOf; rw [h]

/-- The swap at a commit, domain by domain (R109). -/
theorem swapCopies_copies (s : State) (set e : Nat) :
    (s.swapCopies set).activeOf e = (if e < 18 ∧ set.testBit e = true then s.shadowOf e else s.activeOf e) ∧
      (s.swapCopies set).shadowOf e = if e < 18 ∧ set.testBit e = true then s.activeOf e else s.shadowOf e := by
  have h := forEach_swap s (maskList set 18) (maskList_nodup set 18) e
  simp only [mem_maskList] at h
  unfold swapCopies
  dsimp only
  split
  · have m := moves_staticsSwap (ps := [.fx]) (List.Subset.refl _) (moves_refl
      (s.forEach (maskList set 18) (fun t d => (t.setActive d (s.shadowOf d)).setShadow d (s.activeOf d))))
    rw [activeOf_congr (m.1 .active (by decide)), shadowOf_congr (m.1 .shadow (by decide))]
    exact h
  · exact h

/-- The copy of ACTIVE over the domains of a set (R106, R113). -/
theorem copyOver_copies (s : State) (set e : Nat) :
    (s.copyOver set).activeOf e = s.activeOf e ∧
      (s.copyOver set).shadowOf e = if e < 18 ∧ set.testBit e = true then s.activeOf e else s.shadowOf e := by
  have h := forEach_copy s (maskList set 18) e
  simp only [mem_maskList] at h
  unfold copyOver
  dsimp only
  split
  · have m := moves_forEach (ps := [.fx]) (x2 := List.range 16) (x3 := fun u p => u.setCurrent 1 p (u.pgCurrent 0 p))
      (fun u p k => moves_setCurrent (List.Subset.refl _) k) (moves_staticsRollback (ps := [.fx]) (List.Subset.refl _) (moves_refl
      (s.forEach (maskList set 18) (fun t d => t.setShadow d (t.activeOf d)))))
    rw [activeOf_congr (m.1 .active (by decide)), shadowOf_congr (m.1 .shadow (by decide))]
    exact h
  · exact h

end State

end Sys2Proof.Machine
end

