-- ==== Sys2Proof/Laws/Effects.lean ====
section
/-!
SUPPORT. What stays of an effect while a command goes on: an output sent stays sent, an event latched stays latched, a
register keeps its value over the operations that log and report.
-/

namespace Sys2Proof.Machine

open State

/-- An output once sent stays sent. -/
theorem sent {ps : List Part} {s t : State} {o : Output} (h : moves ps s t) (ho : o ∈ s.out) : o ∈ t.out := by
  obtain ⟨l, hl⟩ := h.2.out
  rw [hl]; exact List.mem_append_right _ ho

namespace State

theorem mem_emit (s : State) (o : Output) : o ∈ (s.emit o).out := List.mem_cons_self

/-- A field outside the event status words leaves the latched events alone. -/
theorem evSet_setRg (s : State) (f : Fld) (v n : Nat) (h : 0x2000 + 4 * (n / 32) ≠ f.off) :
    (s.setRg f v).evSet n = s.evSet n := by
  unfold evSet
  rw [rg_eq, rg_eq]
  rw [rd_setRg_ne s f v _ h]

theorem setBit_testBit_mono (m i j : Nat) (h : m.testBit j = true) : (setBit m i).testBit j = true := by
  unfold setBit
  rw [show Nat.lor m (2 ^ i) = m ||| 2 ^ i from rfl, Nat.testBit_or, h, Bool.true_or]

/-- Raising an event takes no other event back (R42). -/
theorem evSet_raise_mono (s : State) (m n : Nat) (i : Option Agent) (h : s.evSet n = true) :
    (s.raise m i).evSet n = true := by
  by_cases hc : s.socUp = false ∨ s.evSet m = true
  · rw [raise_idle s m i hc]; exact h
  · simp only [not_or, Bool.not_eq_false, Bool.not_eq_true] at hc
    unfold evSet rg
    rw [raise_regs s m i hc.1 hc.2]
    by_cases hw : m / 32 = n / 32
    · rw [← hw]
      rw [show rfGet (s.setRg (F.SV_EV_STATUS_EV (m / 32)) (setBit (s.rg (F.SV_EV_STATUS_EV (m / 32))) (m % 32))).regs
          (F.SV_EV_STATUS_EV (m / 32)) = (setBit (s.rg (F.SV_EV_STATUS_EV (m / 32))) (m % 32)) % 2 ^ 32 from
        rg_setRg_same s _ rfl _]
      rw [Nat.testBit_mod_two_pow, setBit_testBit_mono]
      · simp [Nat.mod_lt]
      · have := h; unfold evSet at this; rw [hw]; exact this
    · have : (s.setRg (F.SV_EV_STATUS_EV (m / 32)) (setBit (s.rg (F.SV_EV_STATUS_EV (m / 32))) (m % 32))).evSet n = true := by
        rw [evSet_setRg]
        · exact h
        · show 0x2000 + 4 * (n / 32) ≠ 0x2000 + 4 * (m / 32)
          omega
      exact this

theorem evSet_bump (s : State) (f : Fld) (v n : Nat) (h : 0x2000 + 4 * (n / 32) ≠ f.off) :
    (s.bump f v).evSet n = s.evSet n := evSet_setRg _ _ _ _ h

theorem evSet_congr {s t : State} (h : t.regs = s.regs) (n : Nat) : t.evSet n = s.evSet n := by
  unfold evSet rg; rw [h]

theorem rg_congr {s t : State} (h : t.regs = s.regs) (f : Fld) : t.rg f = s.rg f := by
  unfold rg; rw [h]

theorem socUp_congr {s t : State} (h : t.pw = s.pw) : t.socUp = s.socUp := by unfold socUp; rw [h]

/-- A logged record takes no event back. -/
theorem evSet_ledgerAdd (s : State) (ty : Nat) (p : List Byte) (n : Nat) (hn : n < 256) (h : s.evSet n = true) :
    (s.ledgerAdd ty p).evSet n = true := by
  unfold ledgerAdd
  split
  · exact h
  · split
    · apply evSet_raise_mono
      rw [evSet_bump _ _ _ _ (by show 0x2000 + 4 * (n / 32) ≠ F.SV_LEDGER_LOST_COUNT.off; unfold F.SV_LEDGER_LOST_COUNT; simp; omega)]
      exact h
    · exact h

/-- A logged record writes no register but the count of lost records and event 26's status word. -/
theorem rg_ledgerAdd (s : State) (ty : Nat) (p : List Byte) (f : Fld) (h1 : f.off ≠ F.SV_LEDGER_LOST_COUNT.off)
    (h2 : f.off ≠ 0x2000) : (s.ledgerAdd ty p).rg f = s.rg f := by
  unfold ledgerAdd
  split
  · rfl
  · split
    · rw [rg_raise _ _ _ _ (by simpa using h2)]
      rw [rg_eq, rg_eq, bump, rd_setRg_ne _ _ _ _ h1]; rfl
    · rfl

/-- Completed drains leave frames, queues and ports alone. -/
theorem drainDone_moves (s : State) : moves [.out, .regs, .shadow, .scope, .sv, .fx] s s.drainDone :=
  moves_drainDone (by decide) (moves_refl _)

/-- Where a part of a command leaves the drain as it was, nothing more is done. -/
theorem drainUnless_same {s : State} {was : Bool} (h : s.drained = was) : s.drainUnless was = s := by
  cases was <;> simp [drainUnless, drainDone, recopyDue, noteDrain, h]

/-- A completed drain leaves frames, queues and ports alone after such a part too. -/
theorem drainUnless_moves (s : State) (was : Bool) :
    moves [.out, .regs, .shadow, .scope, .sv, .fx] s (s.drainUnless was) :=
  moves_drainUnless (by decide) (moves_refl _)

end State

end Sys2Proof.Machine
end

