-- ==== Sys2Proof/Laws/MovesNvOps.lean ====
section
/-!
SUPPORT. What each operation of Machine/NvOps.lean can do: the parts of the state it may change, and what it keeps
(`moves`, Safety.lean). One lemma for each operation; callers cite it and do not unfold the operation.
-/

set_option linter.unusedTactic false
set_option linter.unreachableTactic false
set_option linter.unusedSimpArgs false

namespace Sys2Proof.Machine

open State

theorem moves_nvPut {ps : List Part} {s0 s : State} {x1} {x2} (_hp : [.nv] ⊆ ps) (h : moves ps s0 s) :
    moves ps s0 (State.nvPut s x1 x2) := by
  unfold State.nvPut
  refine ⟨?_, ⟨h.2.regs, h.2.dram, fun k => Sparse.wf_set _ _ (h.2.flash k), h.2.fuses, h.2.counter, h.2.ftk, h.2.keyHash, h.2.now, h.2.freeN, h.2.out⟩⟩
  intro p hn
  have := h.1 p hn
  cases p <;> first | exact this | exact absurd (_hp (by decide)) hn

theorem moves_nvPutAll {ps : List Part} {s0 s : State} {x1} {x2} (_hp : [.nv] ⊆ ps) (h : moves ps s0 s) :
    moves ps s0 (State.nvPutAll s x1 x2) := by
  induction x2 generalizing s x1 with
  | nil =>
    unfold State.nvPutAll
    (try dsimp only)
    repeat' first
      | with_reducible assumption
      | with_reducible apply moves_nvPut
      | split
      | exact _hp (by decide)
      | exact List.Subset.trans (by decide) _hp
  | cons a l ih =>
    unfold State.nvPutAll
    (try dsimp only)
    repeat' first
      | with_reducible assumption
      | with_reducible apply ih
      | with_reducible apply moves_nvPut
      | split
      | exact _hp (by decide)
      | exact List.Subset.trans (by decide) _hp


theorem moves_nvErase {ps : List Part} {s0 s : State} {x1} {x2} (_hp : [.nv] ⊆ ps) (h : moves ps s0 s) :
    moves ps s0 (State.nvErase s x1 x2) := by
  unfold State.nvErase
  refine ⟨?_, ⟨h.2.regs, h.2.dram, fun k => Sparse.wf_filter _ (h.2.flash k), h.2.fuses, h.2.counter, h.2.ftk, h.2.keyHash, h.2.now, h.2.freeN, h.2.out⟩⟩
  intro p hn
  have := h.1 p hn
  cases p <;> first | exact this | exact absurd (_hp (by decide)) hn

theorem moves_nvProgram {ps : List Part} {s0 s : State} {x1} {x2} (_hp : [.nv] ⊆ ps) (h : moves ps s0 s) :
    moves ps s0 (State.nvProgram s x1 x2) := by
  unfold State.nvProgram
  (try dsimp only)
  repeat' first
    | with_reducible assumption
    | split
    | with_reducible apply moves_nvPutAll
    | exact _hp (by decide)
    | exact List.Subset.trans (by decide) _hp
    | intro _

theorem moves_nvProgramFail {ps : List Part} {s0 s : State} {x1} {x2} (_hp : [.freeN, .nv] ⊆ ps) (h : moves ps s0 s) :
    moves ps s0 (State.nvProgramFail s x1 x2) := by
  unfold State.nvProgramFail
  (try dsimp only)
  repeat' first
    | with_reducible assumption
    | split
    | with_reducible apply moves_nvPutAll
    | with_reducible apply moves_useFree
    | exact _hp (by decide)
    | exact List.Subset.trans (by decide) _hp
    | intro _

theorem moves_nvEraseFail {ps : List Part} {s0 s : State} {x1} {x2} (_hp : [.freeN, .nv] ⊆ ps) (h : moves ps s0 s) :
    moves ps s0 (State.nvEraseFail s x1 x2) := by
  unfold State.nvEraseFail
  (try dsimp only)
  repeat' first
    | with_reducible assumption
    | split
    | with_reducible apply moves_nvPutAll
    | with_reducible apply moves_useFree
    | exact _hp (by decide)
    | exact List.Subset.trans (by decide) _hp
    | intro _

theorem moves_areaStep {ps : List Part} {s0 s : State} {x1} {x2} (_hp : [.freeN, .nv] ⊆ ps) (h : moves ps s0 s) :
    moves ps s0 (State.areaStep s x1 x2).1 := by
  unfold State.areaStep
  (try dsimp only)
  repeat' first
    | with_reducible assumption
    | split
    | with_reducible apply moves_nvErase
    | with_reducible apply moves_nvEraseFail
    | with_reducible apply moves_nvProgram
    | with_reducible apply moves_nvProgramFail
    | exact _hp (by decide)
    | exact List.Subset.trans (by decide) _hp
    | intro _

theorem moves_areaStep_eq {ps : List Part} {s0 s : State} {x1} {x2} (_hp : [.freeN, .nv] ⊆ ps) (h : moves ps s0 s) {t v} (hq : (State.areaStep s x1 x2) = (t, v)) :
    moves ps s0 t := by
  have := moves_areaStep (x1 := x1) (x2 := x2)  _hp h
  rwa [hq] at this

theorem moves_addTask {ps : List Part} {s0 s : State} {x1} {x2} (_hp : [.sv] ⊆ ps) (h : moves ps s0 s) :
    moves ps s0 (State.addTask s x1 x2) := by
  unfold State.addTask
  (try dsimp only)
  repeat' first
    | with_reducible assumption
    | split
    | with_reducible apply moves_upd_sv
    | exact _hp (by decide)
    | exact List.Subset.trans (by decide) _hp
    | intro _

end Sys2Proof.Machine
end

