-- ==== Sys2Proof/Laws/MovesBankOps.lean ====
section
/-!
SUPPORT. What each operation of Machine/BankOps.lean can do: the parts of the state it may change, and what it keeps
(`moves`, Safety.lean). One lemma for each operation; callers cite it and do not unfold the operation.
-/

set_option linter.unusedTactic false
set_option linter.unreachableTactic false
set_option linter.unusedSimpArgs false

namespace Sys2Proof.Machine

open State

theorem moves_addBankWrite {ps : List Part} {s0 s : State} {x1} {x2} {x3} {x4} (_hp : [.sv] ⊆ ps) (h : moves ps s0 s) :
    moves ps s0 (State.addBankWrite s x1 x2 x3 x4) := by
  unfold State.addBankWrite
  (try dsimp only)
  repeat' first
    | with_reducible assumption
    | split
    | with_reducible apply moves_addTask
    | exact _hp (by decide)
    | exact List.Subset.trans (by decide) _hp
    | intro _

theorem moves_persist {ps : List Part} {s0 s : State} {x1} (_hp : [.regs, .sv] ⊆ ps) (h : moves ps s0 s) :
    moves ps s0 (State.persist s x1) := by
  unfold State.persist
  (try dsimp only)
  repeat' first
    | with_reducible assumption
    | split
    | with_reducible apply moves_addBankWrite
    | with_reducible apply moves_setRg
    | with_reducible apply moves_upd_sv
    | exact _hp (by decide)
    | exact List.Subset.trans (by decide) _hp
    | intro _

theorem moves_loadReg {ps : List Part} {s0 s : State} {x1} {x2} {x3} (_hp : [.out, .regs, .shadow, .scope, .fx] ⊆ ps) (h : moves ps s0 s) :
    moves ps s0 (State.loadReg s x1 x2 x3) := by
  unfold State.loadReg
  (try dsimp only)
  repeat' first
    | with_reducible assumption
    | split
    | with_reducible apply moves_shadowPut
    | with_reducible apply moves_bump
    | exact _hp (by decide)
    | exact List.Subset.trans (by decide) _hp
    | intro _

theorem moves_loadTable {ps : List Part} {s0 s : State} {x1} {x2} (_hp : [.out, .regs, .shadow, .scope, .fx] ⊆ ps) (h : moves ps s0 s) :
    moves ps s0 (State.loadTable s x1 x2) := by
  unfold State.loadTable
  (try dsimp only)
  repeat' first
    | with_reducible assumption
    | split
    | with_reducible apply moves_forEach
    | with_reducible apply moves_staticReach
    | with_reducible apply moves_shadowWord0
    | with_reducible apply moves_bump
    | exact _hp (by decide)
    | exact List.Subset.trans (by decide) _hp
    | intro _

theorem moves_loadPayload {ps : List Part} {s0 s : State} {x1} {x2} {x3} (_hp : [.out, .regs, .shadow, .scope, .fx] ⊆ ps) (h : moves ps s0 s) :
    moves ps s0 (State.loadPayload s x1 x2 x3) := by
  unfold State.loadPayload
  (try dsimp only)
  repeat' first
    | with_reducible assumption
    | split
    | with_reducible apply moves_forEach
    | with_reducible apply moves_loadReg
    | with_reducible apply moves_loadTable
    | exact _hp (by decide)
    | exact List.Subset.trans (by decide) _hp
    | intro _

theorem moves_loadStop {ps : List Part} {s0 s : State} {x1} (_hp : [.regs, .sv] ⊆ ps) (h : moves ps s0 s) :
    moves ps s0 (State.loadStop s x1) := by
  unfold State.loadStop
  (try dsimp only)
  repeat' first
    | with_reducible assumption
    | split
    | with_reducible apply moves_setRg
    | with_reducible apply moves_upd_sv
    | exact _hp (by decide)
    | exact List.Subset.trans (by decide) _hp
    | intro _

theorem moves_loadTrailer {ps : List Part} {s0 s : State} {x1} (_hp : [.regs, .sv] ⊆ ps) (h : moves ps s0 s) :
    moves ps s0 (State.loadTrailer s x1) := by
  unfold State.loadTrailer
  (try dsimp only)
  repeat' first
    | with_reducible assumption
    | split
    | with_reducible apply moves_setRg
    | with_reducible apply moves_upd_sv
    | exact _hp (by decide)
    | exact List.Subset.trans (by decide) _hp
    | intro _

theorem moves_loadRecord {ps : List Part} {s0 s : State} {x1} {x2} {x3} {x4} (_hp : [.out, .regs, .shadow, .scope, .sv, .fx] ⊆ ps) (h : moves ps s0 s) :
    moves ps s0 (State.loadRecord s x1 x2 x3 x4) := by
  unfold State.loadRecord
  (try dsimp only)
  repeat' first
    | with_reducible assumption
    | split
    | with_reducible apply moves_bump
    | with_reducible apply moves_loadTrailer
    | with_reducible apply moves_loadPayload
    | with_reducible apply moves_setRg
    | exact _hp (by decide)
    | exact List.Subset.trans (by decide) _hp
    | intro _

theorem moves_loadStep {ps : List Part} {s0 s : State} (_hp : [.out, .regs, .shadow, .scope, .sv, .fx] ⊆ ps) (h : moves ps s0 s) :
    moves ps s0 (State.loadStep s) := by
  unfold State.loadStep
  (try dsimp only)
  repeat' first
    | with_reducible assumption
    | split
    | with_reducible apply moves_loadStop
    | with_reducible apply moves_loadRecord
    | with_reducible apply moves_upd_sv
    | exact _hp (by decide)
    | exact List.Subset.trans (by decide) _hp
    | intro _

end Sys2Proof.Machine
end

