-- ==== Sys2Proof/Laws/MovesTxnOps.lean ====
section
/-!
SUPPORT. What each operation of Machine/TxnOps.lean can do: the parts of the state it may change, and what it keeps
(`moves`, Safety.lean). One lemma for each operation; callers cite it and do not unfold the operation.
-/

set_option linter.unusedTactic false
set_option linter.unreachableTactic false
set_option linter.unusedSimpArgs false

namespace Sys2Proof.Machine

open State

theorem moves_txReply {ps : List Part} {s0 s : State} {x1} {x2} (_hp : [.out, .regs] ⊆ ps) (h : moves ps s0 s) :
    moves ps s0 (State.txReply s x1 x2) := by
  unfold State.txReply
  (try dsimp only)
  repeat' first
    | with_reducible assumption
    | split
    | with_reducible apply moves_wr
    | with_reducible apply moves_emit
    | exact _hp (by decide)
    | exact List.Subset.trans (by decide) _hp
    | intro _

theorem moves_txEvent {ps : List Part} {s0 s : State} {x1} {x2} (_hp : [.out, .regs, .scope] ⊆ ps) (h : moves ps s0 s) :
    moves ps s0 (State.txEvent s x1 x2) := by
  unfold State.txEvent
  (try dsimp only)
  repeat' first
    | with_reducible assumption
    | split
    | with_reducible apply moves_raise
    | exact _hp (by decide)
    | exact List.Subset.trans (by decide) _hp
    | intro _

theorem moves_txOutcome {ps : List Part} {s0 s : State} {x1} {x2} (_hp : [.out, .regs, .sv] ⊆ ps) (h : moves ps s0 s) :
    moves ps s0 (State.txOutcome s x1 x2) := by
  unfold State.txOutcome
  (try dsimp only)
  repeat' first
    | with_reducible assumption
    | split
    | with_reducible apply moves_forEach
    | with_reducible apply moves_txReply
    | with_reducible apply moves_upd_sv
    | exact _hp (by decide)
    | exact List.Subset.trans (by decide) _hp
    | intro _

theorem moves_txResult {ps : List Part} {s0 s : State} {x1} {x2} {x3} {x4} (_hp : [.out, .regs, .scope, .sv] ⊆ ps) (h : moves ps s0 s) :
    moves ps s0 (State.txResult s x1 x2 x3 x4) := by
  unfold State.txResult
  (try dsimp only)
  repeat' first
    | with_reducible assumption
    | split
    | with_reducible apply moves_txEvent
    | with_reducible apply moves_txOutcome
    | exact _hp (by decide)
    | exact List.Subset.trans (by decide) _hp
    | intro _

theorem moves_heldResult {ps : List Part} {s0 s : State} {x1} {x2} {x3} {x4} (_hp : [.out, .regs, .scope, .sv] ⊆ ps) (h : moves ps s0 s) :
    moves ps s0 (State.heldResult s x1 x2 x3 x4) := by
  unfold State.heldResult
  (try dsimp only)
  repeat' first
    | with_reducible assumption
    | split
    | with_reducible apply moves_txReply
    | with_reducible apply moves_txEvent
    | with_reducible apply moves_upd_sv
    | exact _hp (by decide)
    | exact List.Subset.trans (by decide) _hp
    | intro _

theorem moves_txAccept {ps : List Part} {s0 s : State} {x1} {x2} (_hp : [.regs] ⊆ ps) (h : moves ps s0 s) :
    moves ps s0 (State.txAccept s x1 x2) := by
  unfold State.txAccept
  (try dsimp only)
  repeat' first
    | with_reducible assumption
    | split
    | with_reducible apply moves_wr
    | exact _hp (by decide)
    | exact List.Subset.trans (by decide) _hp
    | intro _

theorem moves_txFields {ps : List Part} {s0 s : State} {x1} {x2} {x3} {x4} (_hp : [.regs] ⊆ ps) (h : moves ps s0 s) :
    moves ps s0 (State.txFields s x1 x2 x3 x4) := by
  unfold State.txFields
  (try dsimp only)
  repeat' first
    | with_reducible assumption
    | split
    | with_reducible apply moves_setRg
    | with_reducible apply moves_wr
    | exact _hp (by decide)
    | exact List.Subset.trans (by decide) _hp
    | intro _

theorem moves_txCommand {ps : List Part} {s0 s : State} {x1} {x2} (_hp : [.resp] ⊆ ps) (hf2 : ∀ y0, moves ps s0 y0 → moves ps s0 (x2 y0)) (h : moves ps s0 s) :
    moves ps s0 (State.txCommand s x1 x2) := by
  unfold State.txCommand
  (try dsimp only)
  repeat' first
    | with_reducible assumption
    | split
    | with_reducible apply hf2
    | with_reducible apply moves_byAgent
    | exact _hp (by decide)
    | exact List.Subset.trans (by decide) _hp
    | intro _

theorem moves_ageQueue {ps : List Part} {s0 s : State} {x1} (_hp : [.out, .regs, .scope, .sx, .ob, .cx, .mx] ⊆ ps) (h : moves ps s0 s) :
    moves ps s0 (State.ageQueue s x1) := by
  unfold State.ageQueue
  (try dsimp only)
  repeat' first
    | with_reducible assumption
    | split
    | with_reducible apply moves_setQueue
    | with_reducible apply moves_dropCopies
    | with_reducible apply moves_countAged
    | with_reducible apply moves_toDie
    | with_reducible apply moves_releasePages
    | exact _hp (by decide)
    | exact List.Subset.trans (by decide) _hp
    | intro _

theorem moves_ageMq {ps : List Part} {s0 s : State} {x1} {x2} (_hp : [.out, .regs, .scope, .sx, .ob, .cx, .mx] ⊆ ps) (h : moves ps s0 s) :
    moves ps s0 (State.ageMq s x1 x2) := by
  unfold State.ageMq
  (try dsimp only)
  repeat' first
    | with_reducible assumption
    | split
    | with_reducible apply moves_dropCopies
    | with_reducible apply moves_setMq
    | with_reducible apply moves_countAged
    | exact _hp (by decide)
    | exact List.Subset.trans (by decide) _hp
    | intro _

theorem moves_ageTx {ps : List Part} {s0 s : State} {x1} (_hp : [.out, .regs, .scope, .sx, .ob, .px, .bx, .cx, .mx] ⊆ ps) (h : moves ps s0 s) :
    moves ps s0 (State.ageTx s x1) := by
  unfold State.ageTx
  (try dsimp only)
  repeat' first
    | with_reducible assumption
    | split
    | with_reducible apply moves_countAged
    | with_reducible apply moves_stomp
    | with_reducible apply moves_giveUp
    | exact _hp (by decide)
    | exact List.Subset.trans (by decide) _hp
    | intro _

theorem moves_ageFrame {ps : List Part} {s0 s : State} {x1} (_hp : [.freeN, .out, .regs, .scope, .sx, .ob, .cx, .mx] ⊆ ps) (h : moves ps s0 s) :
    moves ps s0 (State.ageFrame s x1) := by
  unfold State.ageFrame
  (try dsimp only)
  repeat' first
    | with_reducible assumption
    | split
    | with_reducible apply moves_dropFrame
    | with_reducible apply moves_countAged
    | with_reducible apply moves_loseCopies
    | exact _hp (by decide)
    | exact List.Subset.trans (by decide) _hp
    | intro _

theorem moves_ageAll {ps : List Part} {s0 s : State} (_hp : [.freeN, .out, .regs, .scope, .sx, .ob, .px, .bx, .cx, .mx] ⊆ ps) (h : moves ps s0 s) :
    moves ps s0 (State.ageAll s) := by
  unfold State.ageAll
  (try dsimp only)
  repeat' first
    | with_reducible assumption
    | split
    | with_reducible apply moves_forEach
    | with_reducible apply moves_ageQueue
    | with_reducible apply moves_ageTx
    | with_reducible apply moves_ageMq
    | with_reducible apply moves_ageFrame
    | exact _hp (by decide)
    | exact List.Subset.trans (by decide) _hp
    | intro _

theorem moves_freeHandle {ps : List Part} {s0 s : State} {x1} (_hp : [.shadow, .sv, .fx] ⊆ ps) (h : moves ps s0 s) :
    moves ps s0 (State.freeHandle s x1) := by
  unfold State.freeHandle
  (try dsimp only)
  repeat' first
    | with_reducible assumption
    | split
    | with_reducible apply moves_setTxn
    | with_reducible apply moves_copyOver
    | with_reducible apply moves_upd_sv
    | exact _hp (by decide)
    | exact List.Subset.trans (by decide) _hp
    | intro _

theorem moves_stitchAccept {ps : List Part} {s0 s : State} {x1} {x2} {x3} {x4} {x5} {x6} {x7} (_hp : [.sv] ⊆ ps) (h : moves ps s0 s) :
    moves ps s0 (State.stitchAccept s x1 x2 x3 x4 x5 x6 x7) := by
  unfold State.stitchAccept
  (try dsimp only)
  repeat' first
    | with_reducible assumption
    | split
    | with_reducible apply moves_setTxn
    | with_reducible apply moves_upd_sv
    | exact _hp (by decide)
    | exact List.Subset.trans (by decide) _hp
    | intro _

theorem moves_recheck {ps : List Part} {s0 s : State} {x1} (_hp : [.out, .regs, .shadow, .scope, .sv, .fx] ⊆ ps) (h : moves ps s0 s) :
    moves ps s0 (State.recheck s x1) := by
  unfold State.recheck
  (try dsimp only)
  repeat' first
    | with_reducible assumption
    | split
    | with_reducible apply moves_heldResult
    | with_reducible apply moves_freeHandle
    | exact _hp (by decide)
    | exact List.Subset.trans (by decide) _hp
    | intro _

theorem moves_stitchRecord {ps : List Part} {s0 s : State} {x1} {x2} {x3} {x4} (_hp : [.out, .regs, .scope, .ob] ⊆ ps) (h : moves ps s0 s) :
    moves ps s0 (State.stitchRecord s x1 x2 x3 x4) := by
  unfold State.stitchRecord
  (try dsimp only)
  repeat' first
    | with_reducible assumption
    | split
    | with_reducible apply moves_ledgerAdd
    | exact _hp (by decide)
    | exact List.Subset.trans (by decide) _hp
    | intro _

theorem moves_commitReport {ps : List Part} {s0 s : State} {x1} {x2} {x3} (_hp : [.out, .regs, .scope, .sv, .ob] ⊆ ps) (h : moves ps s0 s) :
    moves ps s0 (State.commitReport s x1 x2 x3) := by
  unfold State.commitReport
  (try dsimp only)
  repeat' first
    | with_reducible assumption
    | split
    | with_reducible apply moves_heldResult
    | with_reducible apply moves_txResult
    | with_reducible apply moves_raise
    | with_reducible apply moves_stitchRecord
    | exact _hp (by decide)
    | exact List.Subset.trans (by decide) _hp
    | intro _

end Sys2Proof.Machine
end

