-- ==== Sys2Proof/Laws/MovesUpdOps.lean ====
section
/-!
SUPPORT. What each operation of Machine/UpdOps.lean can do: the parts of the state it may change, and what it keeps
(`moves`, Safety.lean). One lemma for each operation; callers cite it and do not unfold the operation.
-/

set_option linter.unusedTactic false
set_option linter.unreachableTactic false
set_option linter.unusedSimpArgs false

namespace Sys2Proof.Machine

open State

theorem moves_journalAppend {ps : List Part} {s0 s : State} {x1} (_hp : [.nv] ⊆ ps) (h : moves ps s0 s) :
    moves ps s0 (State.journalAppend s x1) := by
  unfold State.journalAppend
  (try dsimp only)
  repeat' first
    | with_reducible assumption
    | split
    | with_reducible apply moves_nvProgram
    | exact _hp (by decide)
    | exact List.Subset.trans (by decide) _hp
    | intro _

theorem moves_importFleet {ps : List Part} {s0 s : State} (_hp : [.freeN, .out, .regs, .scope, .sv, .ob, .kx, .ce, .upd] ⊆ ps) (h : moves ps s0 s) :
    moves ps s0 (State.importFleet s).1 := by
  unfold State.importFleet
  (try dsimp only)
  repeat' first
    | with_reducible assumption
    | split
    | with_reducible apply moves_kxUse
    | with_reducible refine moves_kxUse_eq ?_ ?_ (by assumption)
    | with_reducible apply moves_importKey
    | exact _hp (by decide)
    | exact List.Subset.trans (by decide) _hp
    | intro _

theorem moves_importFleet_eq {ps : List Part} {s0 s : State} (_hp : [.freeN, .out, .regs, .scope, .sv, .ob, .kx, .ce, .upd] ⊆ ps) (h : moves ps s0 s) {t v} (hq : (State.importFleet s) = (t, v)) :
    moves ps s0 t := by
  have := moves_importFleet  _hp h
  rwa [hq] at this

theorem moves_updMirror {ps : List Part} {s0 s : State} {x1} {x2} (_hp : [.regs] ⊆ ps) (h : moves ps s0 s) :
    moves ps s0 (State.updMirror s x1 x2) := by
  unfold State.updMirror
  (try dsimp only)
  repeat' first
    | with_reducible assumption
    | split
    | with_reducible apply moves_setRg
    | exact _hp (by decide)
    | exact List.Subset.trans (by decide) _hp
    | intro _

theorem moves_updRefuse {ps : List Part} {s0 s : State} {x1} {x2} {x3} {x4} (_hp : [.out, .regs, .scope, .ob] ⊆ ps) (h : moves ps s0 s) :
    moves ps s0 (State.updRefuse s x1 x2 x3 x4) := by
  unfold State.updRefuse
  (try dsimp only)
  repeat' first
    | with_reducible assumption
    | split
    | with_reducible apply moves_updResult
    | with_reducible apply moves_updLedger
    | exact _hp (by decide)
    | exact List.Subset.trans (by decide) _hp
    | intro _

theorem moves_updAccept {ps : List Part} {s0 s : State} {x1} {x2} {x3} (_hp : [.regs, .upd] ⊆ ps) (h : moves ps s0 s) :
    moves ps s0 (State.updAccept s x1 x2 x3) := by
  unfold State.updAccept
  (try dsimp only)
  repeat' first
    | with_reducible assumption
    | split
    | with_reducible apply moves_wr
    | with_reducible apply moves_upd_upd
    | exact _hp (by decide)
    | exact List.Subset.trans (by decide) _hp
    | intro _

theorem moves_updEnd {ps : List Part} {s0 s : State} {x1} {x2} {x3} (_hp : [.out, .regs, .scope, .ob, .upd] ⊆ ps) (h : moves ps s0 s) :
    moves ps s0 (State.updEnd s x1 x2 x3) := by
  unfold State.updEnd
  (try dsimp only)
  repeat' first
    | with_reducible assumption
    | split
    | with_reducible apply moves_updResult
    | with_reducible apply moves_updRefuse
    | with_reducible apply moves_upd_upd
    | exact _hp (by decide)
    | exact List.Subset.trans (by decide) _hp
    | intro _

theorem moves_updTouch {ps : List Part} {s0 s : State} {x1} (_hp : [.upd] ⊆ ps) (h : moves ps s0 s) :
    moves ps s0 (State.updTouch s x1) := by
  unfold State.updTouch
  (try dsimp only)
  repeat' first
    | with_reducible assumption
    | split
    | with_reducible apply moves_upd_upd
    | exact _hp (by decide)
    | exact List.Subset.trans (by decide) _hp
    | intro _

theorem moves_updCommand {ps : List Part} {s0 s : State} {x1} {x2} {x3} {x4} {x5} {x6} (_hp : [.out, .resp, .regs, .scope, .ob, .upd] ⊆ ps) (hf4 : ∀ y0, moves ps s0 y0 → moves ps s0 (x4 y0)) (h : moves ps s0 s) :
    moves ps s0 (State.updCommand s x1 x2 x3 x4 x5 x6) := by
  unfold State.updCommand
  (try dsimp only)
  repeat' first
    | with_reducible assumption
    | split
    | with_reducible apply hf4
    | with_reducible apply moves_byAgent
    | with_reducible apply moves_updTouch
    | with_reducible apply moves_updMirror
    | with_reducible apply moves_updRefuse
    | exact _hp (by decide)
    | exact List.Subset.trans (by decide) _hp
    | intro _

theorem moves_showGot {ps : List Part} {s0 s : State} {x1} (_hp : [.regs, .upd] ⊆ ps) (h : moves ps s0 s) :
    moves ps s0 (State.showGot s x1) := by
  unfold State.showGot
  (try dsimp only)
  repeat' first
    | with_reducible assumption
    | split
    | with_reducible apply moves_setRg
    | with_reducible apply moves_upd_upd
    | exact _hp (by decide)
    | exact List.Subset.trans (by decide) _hp
    | intro _

theorem moves_updStatus {ps : List Part} {s0 s : State} (_hp : [.regs] ⊆ ps) (h : moves ps s0 s) :
    moves ps s0 (State.updStatus s) := by
  unfold State.updStatus
  (try dsimp only)
  repeat' first
    | with_reducible assumption
    | split
    | with_reducible apply moves_setRg
    | exact _hp (by decide)
    | exact List.Subset.trans (by decide) _hp
    | intro _

theorem moves_copyRecord {ps : List Part} {s0 s : State} (_hp : [.out, .regs, .scope, .ob] ⊆ ps) (h : moves ps s0 s) :
    moves ps s0 (State.copyRecord s) := by
  unfold State.copyRecord
  (try dsimp only)
  repeat' first
    | with_reducible assumption
    | split
    | with_reducible apply moves_ledgerAdd
    | with_reducible apply moves_raise
    | exact _hp (by decide)
    | exact List.Subset.trans (by decide) _hp
    | intro _

theorem moves_copyStart {ps : List Part} {s0 s : State} {x1} (_hp : [.nv, .upd] ⊆ ps) (h : moves ps s0 s) :
    moves ps s0 (State.copyStart s x1).1 := by
  unfold State.copyStart
  (try dsimp only)
  repeat' first
    | with_reducible assumption
    | split
    | with_reducible apply moves_nvProgram
    | with_reducible apply moves_upd_upd
    | exact _hp (by decide)
    | exact List.Subset.trans (by decide) _hp
    | intro _

theorem moves_copyStart_eq {ps : List Part} {s0 s : State} {x1} (_hp : [.nv, .upd] ⊆ ps) (h : moves ps s0 s) {t v} (hq : (State.copyStart s x1) = (t, v)) :
    moves ps s0 t := by
  have := moves_copyStart (x1 := x1)  _hp h
  rwa [hq] at this

theorem moves_slotWrite {ps : List Part} {s0 s : State} {x1} (_hp : [.nv] ⊆ ps) (h : moves ps s0 s) :
    moves ps s0 (State.slotWrite s x1) := by
  unfold State.slotWrite
  (try dsimp only)
  repeat' first
    | with_reducible assumption
    | split
    | with_reducible apply moves_nvProgram
    | with_reducible apply moves_nvErase
    | exact _hp (by decide)
    | exact List.Subset.trans (by decide) _hp
    | intro _

theorem moves_journalTorn {ps : List Part} {s0 s : State} {x1} (_hp : [.freeN, .nv] ⊆ ps) (h : moves ps s0 s) :
    moves ps s0 (State.journalTorn s x1) := by
  unfold State.journalTorn
  (try dsimp only)
  repeat' first
    | with_reducible assumption
    | split
    | with_reducible apply moves_nvProgramFail
    | exact _hp (by decide)
    | exact List.Subset.trans (by decide) _hp
    | intro _

theorem moves_blowFuses {ps : List Part} {s0 s : State} {x1} (_hp : [.nv] ⊆ ps) (h : moves ps s0 s) :
    moves ps s0 (State.blowFuses s x1) := by
  unfold State.blowFuses
  refine ⟨?_, h.2.regs, h.2.dram, h.2.flash, h.2.fuses,
    h.2.counter.trans (Nat.le_min.mpr ⟨Nat.le_max_left _ _, Nat.le_add_right _ _⟩), h.2.ftk,
    h.2.keyHash, h.2.now, h.2.freeN, h.2.out⟩
  intro p hn
  have := h.1 p hn
  cases p <;> first | exact this | exact absurd (_hp (by decide)) hn

theorem moves_copyCut {ps : List Part} {s0 s : State} (_hp : [.freeN, .nv, .upd] ⊆ ps) (h : moves ps s0 s) :
    moves ps s0 (State.copyCut s) := by
  unfold State.copyCut
  (try dsimp only)
  repeat' first
    | with_reducible assumption
    | split
    | with_reducible apply moves_useFree
    | with_reducible apply moves_nvPutAll
    | with_reducible apply moves_journalTorn
    | with_reducible apply moves_slotWrite
    | with_reducible apply moves_blowFuses
    | with_reducible apply moves_upd_upd
    | exact _hp (by decide)
    | exact List.Subset.trans (by decide) _hp
    | intro _

end Sys2Proof.Machine
end

