-- ==== Sys2Proof/Laws/MovesLoader.lean ====
section
/-!
SUPPORT. What each operation of Machine/Loader.lean can do: the parts of the state it may change, and what it keeps
(`moves`, Safety.lean). One lemma for each operation; callers cite it and do not unfold the operation.
-/

set_option linter.unusedTactic false
set_option linter.unreachableTactic false
set_option linter.unusedSimpArgs false

namespace Sys2Proof.Machine

open State

theorem moves_tiBoot {ps : List Part} {s0 s : State} {x1} {x2} (_hp : [.out, .regs, .scope, .te] ⊆ ps) (h : moves ps s0 s) :
    moves ps s0 (State.tiBoot s x1 x2) := by
  unfold State.tiBoot
  (try dsimp only)
  repeat' first
    | with_reducible assumption
    | split
    | with_reducible apply moves_setTi
    | with_reducible apply moves_setRg
    | with_reducible apply moves_tiCommit
    | exact _hp (by decide)
    | exact List.Subset.trans (by decide) _hp
    | intro _

theorem moves_sdBoot {ps : List Part} {s0 s : State} {x1} (_hp : [.aon] ⊆ ps) (h : moves ps s0 s) :
    moves ps s0 (State.sdBoot s x1) := by
  unfold State.sdBoot
  (try dsimp only)
  repeat' first
    | with_reducible assumption
    | split
    | with_reducible apply moves_setSd
    | exact _hp (by decide)
    | exact List.Subset.trans (by decide) _hp
    | intro _

theorem moves_foldBoot {ps : List Part} {s0 s : State} (_hp : [.freeN, .out, .regs, .scope, .pw, .sx, .fx, .ob, .aon, .cx, .mx] ⊆ ps) (h : moves ps s0 s) :
    moves ps s0 (State.foldBoot s) := by
  unfold State.foldBoot
  (try dsimp only)
  repeat' first
    | with_reducible assumption
    | split
    | with_reducible apply moves_foldsJudge
    | with_reducible apply moves_forEach
    | with_reducible apply moves_sdBoot
    | with_reducible apply moves_upd_aon
    | exact _hp (by decide)
    | exact List.Subset.trans (by decide) _hp
    | intro _

theorem moves_keptEvents {ps : List Part} {s0 s : State} (_hp : [.out, .regs, .scope, .ob, .aon] ⊆ ps) (h : moves ps s0 s) :
    moves ps s0 (State.keptEvents s) := by
  unfold State.keptEvents
  (try dsimp only)
  repeat' first
    | with_reducible assumption
    | split
    | with_reducible apply moves_raiseAll
    | with_reducible apply moves_forEach
    | with_reducible apply moves_ledgerAdd
    | with_reducible apply moves_upd_aon
    | exact _hp (by decide)
    | exact List.Subset.trans (by decide) _hp
    | intro _

theorem moves_bootRecord {ps : List Part} {s0 s : State} (_hp : [.out, .regs, .scope, .ob] ⊆ ps) (h : moves ps s0 s) :
    moves ps s0 (State.bootRecord s) := by
  unfold State.bootRecord
  (try dsimp only)
  repeat' first
    | with_reducible assumption
    | split
    | with_reducible apply moves_ledgerAdd
    | exact _hp (by decide)
    | exact List.Subset.trans (by decide) _hp
    | intro _

theorem moves_bootCommit {ps : List Part} {s0 s : State} (_hp : [.freeN, .out, .regs, .active, .shadow, .swapped, .scope, .pw, .sv, .sx, .fx, .te, .ob, .px, .kx, .ce, .upd, .bx, .aon, .cx, .mx] ⊆ ps) (h : moves ps s0 s) :
    moves ps s0 (State.bootCommit s) := by
  unfold State.bootCommit
  (try dsimp only)
  repeat' first
    | with_reducible assumption
    | split
    | with_reducible apply moves_setRg
    | with_reducible apply moves_swapCopies
    | with_reducible apply moves_forEach
    | with_reducible apply moves_domainCommit
    | with_reducible apply moves_tiBoot
    | with_reducible apply moves_tsoBoot
    | with_reducible apply moves_raise
    | with_reducible apply moves_hamJudge
    | with_reducible apply moves_portsJudge
    | with_reducible apply moves_lsBoot
    | with_reducible apply moves_foldBoot
    | with_reducible apply moves_upd_swapped
    | with_reducible apply moves_upd_sv_sx
    | with_reducible apply moves_upd_ob
    | exact _hp (by decide)
    | exact List.Subset.trans (by decide) _hp
    | intro _

theorem moves_bootStitch {ps : List Part} {s0 s : State} (_hp : [.freeN, .out, .regs, .active, .shadow, .swapped, .scope, .pw, .sv, .sx, .fx, .te, .ob, .px, .kx, .ce, .upd, .bx, .aon, .cx, .mx] ⊆ ps) (h : moves ps s0 s) :
    moves ps s0 (State.bootStitch s) := by
  unfold State.bootStitch
  (try dsimp only)
  repeat' first
    | with_reducible assumption
    | split
    | with_reducible apply moves_stitchRecord
    | with_reducible apply moves_raise
    | with_reducible apply moves_bootCommit
    | with_reducible apply moves_copyRecord
    | with_reducible apply moves_bootRecord
    | with_reducible apply moves_keptEvents
    | with_reducible apply moves_modeAuto
    | with_reducible apply moves_noteFb
    | with_reducible apply moves_upd_pw
    | exact _hp (by decide)
    | exact List.Subset.trans (by decide) _hp
    | intro _

theorem moves_showMarked {ps : List Part} {s0 s : State} (_hp : [.regs] ⊆ ps) (h : moves ps s0 s) :
    moves ps s0 (State.showMarked s) := by
  unfold State.showMarked
  (try dsimp only)
  repeat' first
    | with_reducible assumption
    | split
    | with_reducible apply moves_setRg
    | exact _hp (by decide)
    | exact List.Subset.trans (by decide) _hp
    | intro _

theorem moves_migrated {ps : List Part} {s0 s : State} {x1} {x2} (_hp : [.out, .regs, .scope, .ob, .nv] ⊆ ps) (h : moves ps s0 s) :
    moves ps s0 (State.migrated s x1 x2) := by
  unfold State.migrated
  (try dsimp only)
  repeat' first
    | with_reducible assumption
    | split
    | with_reducible apply moves_setRg
    | with_reducible apply moves_journalAppend
    | with_reducible apply moves_ledgerAdd
    | with_reducible apply moves_raise
    | exact _hp (by decide)
    | exact List.Subset.trans (by decide) _hp
    | intro _

theorem moves_bersanEnds {ps : List Part} {s0 s : State} {x1} {x2} (_hp : [.out] ⊆ ps) (h : moves ps s0 s) :
    moves ps s0 (State.bersanEnds s x1 x2) := by
  unfold State.bersanEnds
  (try dsimp only)
  repeat' first
    | with_reducible assumption
    | split
    | with_reducible apply moves_emit
    | exact _hp (by decide)
    | exact List.Subset.trans (by decide) _hp
    | intro _

theorem moves_taskEnd {ps : List Part} {s0 s : State} {x1} {x2} (_hp : [.out, .regs, .scope, .sv, .ob, .nv, .upd] ⊆ ps) (h : moves ps s0 s) :
    moves ps s0 (State.taskEnd s x1 x2) := by
  unfold State.taskEnd
  (try dsimp only)
  repeat' first
    | with_reducible assumption
    | split
    | with_reducible apply moves_raise
    | with_reducible apply moves_setRg
    | with_reducible apply moves_bersanEnds
    | with_reducible apply moves_migrated
    | with_reducible apply moves_kxResult
    | with_reducible apply moves_updEnd
    | with_reducible apply moves_showGot
    | with_reducible apply moves_endUpdate
    | with_reducible apply moves_updLedger
    | exact _hp (by decide)
    | exact List.Subset.trans (by decide) _hp
    | intro _

theorem moves_flashStep {ps : List Part} {s0 s : State} {x1} (_hp : [.freeN, .out, .regs, .scope, .sv, .ob, .nv, .upd] ⊆ ps) (h : moves ps s0 s) :
    moves ps s0 (State.flashStep s x1) := by
  unfold State.flashStep
  (try dsimp only)
  repeat' first
    | with_reducible assumption
    | split
    | with_reducible apply moves_taskEnd
    | with_reducible apply moves_areaStep
    | with_reducible refine moves_areaStep_eq ?_ ?_ (by assumption)
    | with_reducible apply moves_showMarked
    | with_reducible apply moves_setRg
    | with_reducible apply moves_upd_sv
    | exact _hp (by decide)
    | exact List.Subset.trans (by decide) _hp
    | intro _

theorem moves_execEpochAdoption {ps : List Part} {s0 s : State} {x0} (_hp : [.out, .regs, .shadow, .epochs, .scope, .sv, .fx] ⊆ ps) (h : moves ps s0 s) :
    ∀ t, (execEpochAdoption x0 s) = .next t → moves ps s0 t := by
  unfold execEpochAdoption
  intro t ht
  injection ht with ht; subst ht
  (try dsimp only)
  repeat' first
    | with_reducible assumption
    | split
    | with_reducible apply moves_drainDone
    | with_reducible apply moves_upd_epochs
    | exact _hp (by decide)
    | exact List.Subset.trans (by decide) _hp
    | intro _

theorem moves_execLoaderStart {ps : List Part} {s0 s : State} (_hp : [.regs, .sv] ⊆ ps) (h : moves ps s0 s) :
    ∀ t, (execLoaderStart s) = .next t → moves ps s0 t := by
  unfold execLoaderStart
  intro t ht
  injection ht with ht; subst ht
  (try dsimp only)
  repeat' first
    | with_reducible assumption
    | split
    | with_reducible apply moves_setRg
    | with_reducible apply moves_upd_sv
    | exact _hp (by decide)
    | exact List.Subset.trans (by decide) _hp
    | intro _

theorem moves_execLoadRecord {ps : List Part} {s0 s : State} (_hp : [.out, .regs, .shadow, .scope, .sv, .fx] ⊆ ps) (h : moves ps s0 s) :
    ∀ t, (execLoadRecord s) = .next t → moves ps s0 t := by
  unfold execLoadRecord
  intro t ht
  injection ht with ht; subst ht
  (try dsimp only)
  repeat' first
    | with_reducible assumption
    | split
    | with_reducible apply moves_loadStep
    | exact _hp (by decide)
    | exact List.Subset.trans (by decide) _hp
    | intro _

theorem moves_execBootStitch {ps : List Part} {s0 s : State} (_hp : [.freeN, .out, .regs, .active, .shadow, .swapped, .scope, .pw, .sv, .sx, .fx, .te, .ob, .px, .kx, .ce, .upd, .bx, .aon, .cx, .mx] ⊆ ps) (h : moves ps s0 s) :
    ∀ t, (execBootStitch s) = .next t → moves ps s0 t := by
  unfold execBootStitch
  intro t ht
  injection ht with ht; subst ht
  (try dsimp only)
  repeat' first
    | with_reducible assumption
    | split
    | with_reducible apply moves_bootStitch
    | exact _hp (by decide)
    | exact List.Subset.trans (by decide) _hp
    | intro _

theorem moves_execBersanBankWrite {ps : List Part} {s0 s : State} {x0} {x1} (_hp : [.out, .resp, .sv] ⊆ ps) (h : moves ps s0 s) :
    ∀ t, (execBersanBankWrite x0 x1 s) = .next t → moves ps s0 t := by
  unfold execBersanBankWrite
  intro t ht
  injection ht with ht; subst ht
  (try dsimp only)
  repeat' first
    | with_reducible assumption
    | split
    | with_reducible apply moves_byAgent
    | with_reducible apply moves_bersanEnds
    | with_reducible apply moves_addBankWrite
    | exact _hp (by decide)
    | exact List.Subset.trans (by decide) _hp
    | intro _

theorem moves_execNvmOperation {ps : List Part} {s0 s : State} {x0} {x1} {x2} {x3} {x4} (_hp : [.resp, .sv, .nv] ⊆ ps) (h : moves ps s0 s) :
    ∀ t, (execNvmOperation x0 x1 x2 x3 x4 s) = .next t → moves ps s0 t := by
  unfold execNvmOperation
  intro t ht
  injection ht with ht; subst ht
  (try dsimp only)
  repeat' first
    | with_reducible assumption
    | split
    | with_reducible apply moves_byAgent
    | with_reducible apply moves_nvErase
    | with_reducible apply moves_nvProgram
    | with_reducible apply moves_upd_sv
    | exact _hp (by decide)
    | exact List.Subset.trans (by decide) _hp
    | intro _

theorem moves_execFlashOpComplete {ps : List Part} {s0 s : State} {x0} (_hp : [.freeN, .out, .regs, .scope, .sv, .ob, .nv, .upd] ⊆ ps) (h : moves ps s0 s) :
    ∀ t, (execFlashOpComplete x0 s) = .next t → moves ps s0 t := by
  unfold execFlashOpComplete
  intro t ht
  injection ht with ht; subst ht
  (try dsimp only)
  repeat' first
    | with_reducible assumption
    | split
    | with_reducible apply moves_flashStep
    | exact _hp (by decide)
    | exact List.Subset.trans (by decide) _hp
    | intro _

end Sys2Proof.Machine
end

