-- ==== Sys2Proof/Laws/MovesTxn.lean ====
section
/-!
SUPPORT. What each operation of Machine/Txn.lean can do: the parts of the state it may change, and what it keeps
(`moves`, Safety.lean). One lemma for each operation; callers cite it and do not unfold the operation.
-/

set_option linter.unusedTactic false
set_option linter.unreachableTactic false
set_option linter.unusedSimpArgs false

namespace Sys2Proof.Machine

open State

theorem moves_txTimeout {ps : List Part} {s0 s : State} {x1} (_hp : [.freeN, .out, .regs, .shadow, .scope, .sv, .fx] ⊆ ps) (h : moves ps s0 s) :
    moves ps s0 (State.txTimeout s x1) := by
  unfold State.txTimeout
  (try dsimp only)
  repeat' first
    | with_reducible assumption
    | split
    | with_reducible apply moves_raise
    | with_reducible apply moves_freeHandle
    | with_reducible apply moves_txResult
    | with_reducible apply moves_useFree
    | exact _hp (by decide)
    | exact List.Subset.trans (by decide) _hp
    | intro _

theorem moves_commitAll {ps : List Part} {s0 s : State} {x1} (_hp : [.freeN, .out, .regs, .active, .shadow, .swapped, .scope, .pw, .sv, .sx, .fx, .te, .ob, .px, .kx, .ce, .upd, .bx, .aon, .cx, .mx] ⊆ ps) (h : moves ps s0 s) :
    moves ps s0 (State.commitAll s x1) := by
  unfold State.commitAll
  (try dsimp only)
  repeat' first
    | with_reducible assumption
    | split
    | with_reducible apply moves_forEach
    | with_reducible apply moves_noteDrain
    | with_reducible apply moves_setTxn
    | with_reducible apply moves_commitSet
    | with_reducible apply moves_commitReport
    | with_reducible apply moves_persist
    | exact _hp (by decide)
    | exact List.Subset.trans (by decide) _hp
    | intro _

theorem moves_commitHandle {ps : List Part} {s0 s : State} {x1} (_hp : [.freeN, .out, .regs, .active, .shadow, .swapped, .scope, .pw, .sv, .sx, .fx, .te, .ob, .px, .kx, .ce, .upd, .bx, .aon, .cx, .mx] ⊆ ps) (h : moves ps s0 s) :
    moves ps s0 (State.commitHandle s x1) := by
  unfold State.commitHandle
  (try dsimp only)
  repeat' first
    | with_reducible assumption
    | split
    | with_reducible apply moves_forEach
    | with_reducible apply moves_recheck
    | with_reducible apply moves_commitAll
    | exact _hp (by decide)
    | exact List.Subset.trans (by decide) _hp
    | intro _

theorem moves_shadowRefuse {ps : List Part} {s0 s : State} {x1} {x2} (_hp : [.freeN, .out, .regs, .scope] ⊆ ps) (h : moves ps s0 s) :
    moves ps s0 (State.shadowRefuse s x1 x2) := by
  unfold State.shadowRefuse
  (try dsimp only)
  repeat' first
    | with_reducible assumption
    | split
    | with_reducible apply moves_bump
    | with_reducible apply moves_useFree
    | with_reducible apply moves_setRg
    | with_reducible apply moves_raise
    | with_reducible apply moves_emit
    | exact _hp (by decide)
    | exact List.Subset.trans (by decide) _hp
    | intro _

theorem moves_shadowTake {ps : List Part} {s0 s : State} {x1} {x2} {x3} {x4} {x5} (_hp : [.freeN, .out, .regs, .shadow, .scope, .fx] ⊆ ps) (h : moves ps s0 s) :
    moves ps s0 (State.shadowTake s x1 x2 x3 x4 x5) := by
  unfold State.shadowTake
  (try dsimp only)
  repeat' first
    | with_reducible assumption
    | split
    | with_reducible apply moves_shadowPut
    | with_reducible apply moves_shadowRefuse
    | exact _hp (by decide)
    | exact List.Subset.trans (by decide) _hp
    | intro _

theorem moves_shadowWrite {ps : List Part} {s0 s : State} {x1} {x2} {x3} (_hp : [.freeN, .out, .regs, .shadow, .scope, .fx] ⊆ ps) (h : moves ps s0 s) :
    moves ps s0 (State.shadowWrite s x1 x2 x3) := by
  unfold State.shadowWrite
  (try dsimp only)
  repeat' first
    | with_reducible assumption
    | split
    | with_reducible apply moves_shadowTake
    | exact _hp (by decide)
    | exact List.Subset.trans (by decide) _hp
    | intro _

theorem moves_execTack {ps : List Part} {s0 s : State} {x0} {x1} {x2} (_hp : [.out, .resp, .regs, .scope, .sv] ⊆ ps) (h : moves ps s0 s) :
    ∀ t, (execTack x0 x1 x2 s) = .next t → moves ps s0 t := by
  unfold execTack
  intro t ht
  injection ht with ht; subst ht
  (try dsimp only)
  repeat' first
    | with_reducible assumption
    | split
    | with_reducible apply moves_txCommand
    | with_reducible apply moves_txFields
    | with_reducible apply moves_txResult
    | with_reducible apply moves_txAccept
    | with_reducible apply moves_setTxn
    | exact _hp (by decide)
    | exact List.Subset.trans (by decide) _hp
    | intro _

theorem moves_execTackCopyDone {ps : List Part} {s0 s : State} {x0} (_hp : [.out, .regs, .shadow, .scope, .sv, .fx] ⊆ ps) (h : moves ps s0 s) :
    ∀ t, (execTackCopyDone x0 s) = .next t → moves ps s0 t := by
  unfold execTackCopyDone
  intro t ht
  injection ht with ht; subst ht
  (try dsimp only)
  repeat' first
    | with_reducible assumption
    | split
    | with_reducible apply moves_only
    | with_reducible apply moves_copyOver
    | with_reducible apply moves_noteDrain
    | with_reducible apply moves_recopyDue
    | with_reducible apply moves_txResult
    | with_reducible apply moves_setTxn
    | exact _hp (by decide)
    | exact List.Subset.trans (by decide) _hp
    | intro _

theorem moves_execStitch {ps : List Part} {s0 s : State} {x0} {x1} {x2} (_hp : [.out, .resp, .regs, .scope, .sv] ⊆ ps) (h : moves ps s0 s) :
    ∀ t, (execStitch x0 x1 x2 s) = .next t → moves ps s0 t := by
  unfold execStitch
  intro t ht
  injection ht with ht; subst ht
  (try dsimp only)
  repeat' first
    | with_reducible assumption
    | split
    | with_reducible apply moves_txCommand
    | with_reducible apply moves_txResult
    | with_reducible apply moves_txAccept
    | with_reducible apply moves_stitchAccept
    | exact _hp (by decide)
    | exact List.Subset.trans (by decide) _hp
    | intro _

theorem moves_execStitchAt {ps : List Part} {s0 s : State} {x0} {x1} {x2} {x3} {x4} {x5} (_hp : [.out, .resp, .regs, .scope, .sv] ⊆ ps) (h : moves ps s0 s) :
    ∀ t, (execStitchAt x0 x1 x2 x3 x4 x5 s) = .next t → moves ps s0 t := by
  unfold execStitchAt
  intro t ht
  injection ht with ht; subst ht
  (try dsimp only)
  repeat' first
    | with_reducible assumption
    | split
    | with_reducible apply moves_txCommand
    | with_reducible apply moves_txFields
    | with_reducible apply moves_txResult
    | with_reducible apply moves_stitchAccept
    | with_reducible apply moves_heldFire
    | exact _hp (by decide)
    | exact List.Subset.trans (by decide) _hp
    | intro _

theorem moves_execUnpick {ps : List Part} {s0 s : State} {x0} {x1} (_hp : [.out, .resp, .regs, .shadow, .scope, .sv, .fx] ⊆ ps) (h : moves ps s0 s) :
    ∀ t, (execUnpick x0 x1 s) = .next t → moves ps s0 t := by
  unfold execUnpick
  intro t ht
  injection ht with ht; subst ht
  (try dsimp only)
  repeat' first
    | with_reducible assumption
    | split
    | with_reducible apply moves_txCommand
    | with_reducible apply moves_txResult
    | with_reducible apply moves_freeHandle
    | exact _hp (by decide)
    | exact List.Subset.trans (by decide) _hp
    | intro _

theorem moves_execRenew {ps : List Part} {s0 s : State} {x0} {x1} (_hp : [.out, .resp, .regs, .scope, .sv] ⊆ ps) (h : moves ps s0 s) :
    ∀ t, (execRenew x0 x1 s) = .next t → moves ps s0 t := by
  unfold execRenew
  intro t ht
  injection ht with ht; subst ht
  (try dsimp only)
  repeat' first
    | with_reducible assumption
    | split
    | with_reducible apply moves_txCommand
    | with_reducible apply moves_txResult
    | with_reducible apply moves_setTxn
    | exact _hp (by decide)
    | exact List.Subset.trans (by decide) _hp
    | intro _

theorem moves_execStitchAtTimeReached {ps : List Part} {s0 s : State} {x0} (_hp : [.sv] ⊆ ps) (h : moves ps s0 s) :
    ∀ t, (execStitchAtTimeReached x0 s) = .next t → moves ps s0 t := by
  unfold execStitchAtTimeReached
  intro t ht
  injection ht with ht; subst ht
  (try dsimp only)
  repeat' first
    | with_reducible assumption
    | split
    | with_reducible apply moves_only
    | with_reducible apply moves_heldFire
    | exact _hp (by decide)
    | exact List.Subset.trans (by decide) _hp
    | intro _

theorem moves_execStitchCommit {ps : List Part} {s0 s : State} {x0} (_hp : [.freeN, .out, .regs, .active, .shadow, .swapped, .scope, .pw, .sv, .sx, .fx, .te, .ob, .px, .kx, .ce, .upd, .bx, .aon, .cx, .mx] ⊆ ps) (h : moves ps s0 s) :
    ∀ t, (execStitchCommit x0 s) = .next t → moves ps s0 t := by
  unfold execStitchCommit
  intro t ht
  injection ht with ht; subst ht
  (try dsimp only)
  repeat' first
    | with_reducible assumption
    | split
    | with_reducible apply moves_drainDone
    | with_reducible apply moves_only
    | with_reducible apply moves_commitHandle
    | exact _hp (by decide)
    | exact List.Subset.trans (by decide) _hp
    | intro _

theorem moves_execDrainLimAgeDiscard {ps : List Part} {s0 s : State} (_hp : [.freeN, .out, .regs, .shadow, .scope, .sv, .sx, .fx, .ob, .px, .bx, .cx, .mx] ⊆ ps) (h : moves ps s0 s) :
    ∀ t, (execDrainLimAgeDiscard s) = .next t → moves ps s0 t := by
  unfold execDrainLimAgeDiscard
  intro t ht
  injection ht with ht; subst ht
  (try dsimp only)
  repeat' first
    | with_reducible assumption
    | split
    | with_reducible apply moves_drainDone
    | with_reducible apply moves_ageAll
    | exact _hp (by decide)
    | exact List.Subset.trans (by decide) _hp
    | intro _

theorem moves_execShadowWrite {ps : List Part} {s0 s : State} {x0} {x1} {x2} (_hp : [.freeN, .out, .resp, .regs, .shadow, .scope, .fx] ⊆ ps) (h : moves ps s0 s) :
    ∀ t, (execShadowWrite x0 x1 x2 s) = .next t → moves ps s0 t := by
  unfold execShadowWrite
  intro t ht
  injection ht with ht; subst ht
  (try dsimp only)
  repeat' first
    | with_reducible assumption
    | split
    | with_reducible apply moves_answer
    | with_reducible apply moves_byAgent
    | with_reducible apply moves_shadowWrite
    | exact _hp (by decide)
    | exact List.Subset.trans (by decide) _hp
    | intro _

theorem moves_execTxTimeout {ps : List Part} {s0 s : State} {x0} (_hp : [.freeN, .out, .regs, .shadow, .scope, .sv, .fx] ⊆ ps) (h : moves ps s0 s) :
    ∀ t, (execTxTimeout x0 s) = .next t → moves ps s0 t := by
  unfold execTxTimeout
  intro t ht
  injection ht with ht; subst ht
  (try dsimp only)
  repeat' first
    | with_reducible assumption
    | split
    | with_reducible apply moves_only
    | with_reducible apply moves_txTimeout
    | exact _hp (by decide)
    | exact List.Subset.trans (by decide) _hp
    | intro _

end Sys2Proof.Machine
end

