-- ==== Sys2Proof/Laws/Commit.lean ====
section
/-!
SUPPORT. What a commit and the boot Stitch do to the two copies of the configuration (R60, R109): everything after the
swap leaves both copies as the swap made them.
-/

set_option linter.unusedTactic false
set_option linter.unreachableTactic false

namespace Sys2Proof.Machine

open State

/-- The parts that the operations after a swap may change. -/
abbrev afterSwap : List Part :=
  [.freeN, .out, .regs, .scope, .pw, .sv, .sx, .fx, .te, .ob, .px, .kx, .ce, .upd, .bx, .aon, .cx, .mx]

theorem commitSet_after {ps : List Part} {s0 o : State} {set : Nat} (hp : afterSwap ⊆ ps)
    (h : ∀ s, s = (if set.testBit 5 then o.recopyDue.settleCredits else o.recopyDue) →
      moves ps s0 { s.swapCopies set with swapped := set }) : moves ps s0 (o.commitSet set) := by
  unfold State.commitSet
  dsimp only
  have h := h _ rfl
  generalize (if set.testBit 5 then o.recopyDue.settleCredits else o.recopyDue) = s at *
  repeat' first
    | with_reducible assumption
    | with_reducible apply moves_entriesWritten
    | with_reducible apply moves_setRg
    | with_reducible apply moves_forEach
    | with_reducible apply moves_domainCommit
    | with_reducible apply moves_raise
    | with_reducible apply moves_hamJudge
    | with_reducible apply moves_portsJudge
    | with_reducible apply moves_modeAuto
    | with_reducible apply moves_upd_pw
    | exact List.Subset.trans (by decide) hp
    | exact hp (by decide)
    | intro _

/-- A commit swaps the copies of its set and of no other domain (R109). -/
theorem commitSet_copies (o : State) (set d : Nat) (h : o.sv.recopy = 0) :
    (o.commitSet set).activeOf d = (if d < 18 ∧ set.testBit d = true then o.shadowOf d else o.activeOf d) ∧
      (o.commitSet set).shadowOf d = (if d < 18 ∧ set.testBit d = true then o.activeOf d else o.shadowOf d) ∧
      (o.commitSet set).swapped = set := by
  have hr : o.recopyDue = o := by unfold recopyDue; rw [if_neg (by simp [h])]
  let s := if set.testBit 5 then o.recopyDue.settleCredits else o.recopyDue
  have hs : s.active = o.active ∧ s.shadow = o.shadow := by
    show (if set.testBit 5 then o.recopyDue.settleCredits else o.recopyDue).active = _ ∧
      (if set.testBit 5 then o.recopyDue.settleCredits else o.recopyDue).shadow = _
    rw [hr]
    split
    · have m := moves_settleCredits (ps := [.sx]) (by decide) (moves_refl o)
      exact ⟨m.1 .active (by decide), m.1 .shadow (by decide)⟩
    · exact ⟨rfl, rfl⟩
  have m : moves afterSwap { s.swapCopies set with swapped := set } (o.commitSet set) :=
    commitSet_after (List.Subset.refl _) (fun x hx => by rw [hx]; exact moves_refl _)
  have k := swapCopies_copies s set d
  rw [activeOf_congr (m.1 .active (by decide)), shadowOf_congr (m.1 .shadow (by decide)), m.1 .swapped (by decide)]
  refine ⟨?_, ?_, rfl⟩
  · rw [← activeOf_congr hs.1, ← shadowOf_congr hs.2]; exact k.1
  · rw [← activeOf_congr hs.1, ← shadowOf_congr hs.2]; exact k.2

theorem bootCommit_after {ps : List Part} {s0 s : State} (hp : afterSwap ⊆ ps)
    (h : moves ps s0 { s.swapCopies (2 ^ 18 - 1) with swapped := 2 ^ 18 - 1 }) : moves ps s0 s.bootCommit := by
  unfold State.bootCommit
  dsimp only
  repeat' first
    | with_reducible assumption
    | with_reducible apply moves_raise
    | with_reducible apply moves_forEach
    | with_reducible apply moves_setRg
    | with_reducible apply moves_domainCommit
    | with_reducible apply moves_tiBoot
    | with_reducible apply moves_tsoBoot
    | with_reducible apply moves_hamJudge
    | with_reducible apply moves_portsJudge
    | with_reducible apply moves_lsBoot
    | with_reducible apply moves_foldBoot
    | with_reducible apply moves_upd_sv_sx
    | with_reducible apply moves_upd_ob
    | exact List.Subset.trans (by decide) hp
    | exact hp (by decide)
    | intro _

theorem bootStitch_after (s : State) :
    moves afterSwap { s.swapCopies (2 ^ 18 - 1) with swapped := 2 ^ 18 - 1 } s.bootStitch := by
  have h0 := bootCommit_after (List.Subset.refl _) (moves_refl { s.swapCopies (2 ^ 18 - 1) with swapped := 2 ^ 18 - 1 })
  unfold State.bootStitch
  dsimp only
  generalize s.bootCommit = b at *
  generalize ({ s.swapCopies (2 ^ 18 - 1) with swapped := 2 ^ 18 - 1 } : State) = s0 at *
  repeat' first
    | with_reducible assumption
    | split
    | with_reducible apply moves_raise
    | with_reducible apply moves_stitchRecord
    | with_reducible apply moves_copyRecord
    | with_reducible apply moves_bootRecord
    | with_reducible apply moves_keptEvents
    | with_reducible apply moves_modeAuto
    | with_reducible apply moves_noteFb
    | with_reducible apply moves_upd_pw
    | decide

/-- The boot Stitch makes every domain's prepared copy ACTIVE (R60). -/
theorem bootStitch_copies (s : State) (d : Nat) (hd : d < 18) :
    s.bootStitch.activeOf d = s.shadowOf d ∧ s.bootStitch.swapped = 2 ^ 18 - 1 := by
  have m := bootStitch_after s
  refine ⟨?_, m.1 .swapped (by decide)⟩
  have hb : (2 ^ 18 - 1).testBit d = true := by rw [Nat.testBit_two_pow_sub_one]; simpa using hd
  rw [activeOf_congr (m.1 .active (by decide))]
  show (s.swapCopies (2 ^ 18 - 1)).activeOf d = _
  rw [(swapCopies_copies s _ d).1, if_pos ⟨hd, hb⟩]

/-! ### The SHADOW view -/

/-- A write by the owner of an open transaction over the domain reaches its other copy (R107). -/
theorem shadowTake_mine (s : State) (a : Agent) (off reg d : Nat) (r : RegRow) (w : Word) (h1 : r.cd = some d)
    (h2 : r.rsOf d = true) (h3 : off % 4 = 0) (h4 : 0x800000 ≤ off % 0x1000000) (h5 : s.shadowMine a d = true) :
    s.shadowTake a off reg (some r) w = s.shadowPut d reg w := by
  unfold shadowTake
  dsimp only
  rw [h1]
  dsimp only
  rw [if_neg (by simp [h2, h3]; omega), if_pos h5]

/-- A write of the other copy reads back, less its reserved bits (R3). -/
theorem shadowPut_word (s : State) (d reg : Nat) (r : RegRow) (w : Word) (h : regRow reg = some r) :
    rfWord ((s.shadowPut d reg w).shadowOf d) reg = w &&& rsMask r.fields := by
  unfold shadowPut
  have m : moves [.out, .regs, .scope, .fx] (s.shadowWord0 d reg w) ((s.shadowWord0 d reg w).staticReach d reg (s.shadowOf d)) :=
    moves_staticReach (by decide) (moves_refl _)
  rw [shadowOf_congr (m.1 .shadow (by decide))]
  unfold shadowWord0
  rw [h]
  dsimp only
  rw [shadowOf_setShadow_same]
  exact Sparse.get_set_same _ _ _ _

/-! ### Handles -/

theorem txns_setTxn_same (s : State) (h : Nat) (x : Txn) : (s.setTxn h x).txnOf h = x := Sparse.get_set_same _ _ _ _

theorem txns_setTxn_ne (s : State) {h k : Nat} (x : Txn) (hk : k ≠ h) : (s.setTxn h x).txnOf k = s.txnOf k :=
  Sparse.get_set_ne _ _ _ hk

theorem txnOf_congr {s t : State} (h : t.sv.txns = s.sv.txns) (k : Nat) : t.txnOf k = s.txnOf k := by
  unfold txnOf; rw [h]

/-- Ending a command leaves the handles alone. -/
theorem txns_txResult (s : State) (a : Agent) (c h l : Nat) : (s.txResult a c h l).sv.txns = s.sv.txns := by
  unfold txResult txEvent
  rw [raise_sv]
  unfold txOutcome
  dsimp only
  have m : moves [.out, .regs] s ((s.txReply a (txWord c h l 0)).forEach (s.deferred a.ownerCode) (fun t w => t.txReply a w)) :=
    moves_forEach (fun u p k => moves_txReply (by decide) k) (moves_txReply (by decide) (moves_refl _))
  rw [m.1 .sv (by decide)]

theorem txnOf_txResult (s : State) (a : Agent) (c h l k : Nat) : (s.txResult a c h l).txnOf k = s.txnOf k :=
  txnOf_congr (txns_txResult s a c h l) k

theorem txnOf_copyOver (s : State) (set k : Nat) : (s.copyOver set).txnOf k = s.txnOf k :=
  txnOf_congr (by rw [(moves_copyOver (ps := [.shadow, .fx]) (by decide) (moves_refl s)).1 .sv (by decide)]) k

theorem txnOf_recopyDue (s : State) (k : Nat) : s.recopyDue.txnOf k = s.txnOf k := by
  unfold recopyDue
  split
  · exact txnOf_copyOver s _ k
  · rfl

theorem txnOf_noteDrain (s : State) (k : Nat) : s.noteDrain.txnOf k = s.txnOf k :=
  txnOf_congr (by rw [(moves_noteDrain (ps := [.out, .regs, .scope, .fx]) (by decide) (moves_refl s)).1 .sv (by decide)]) k

theorem txnOf_freeHandle (s : State) (h : Nat) : (s.freeHandle h).txnOf h = freeTxn := by
  unfold freeHandle
  dsimp only
  split
  · exact txns_setTxn_same s h freeTxn
  · rw [txnOf_copyOver]; exact txns_setTxn_same s h freeTxn

theorem txnOf_raise (s : State) (n : Nat) (i : Option Agent) (k : Nat) : (s.raise n i).txnOf k = s.txnOf k :=
  txnOf_congr (by rw [raise_sv]) k

theorem txnOf_stitchAccept (s : State) (h : Nat) (st : TxnState) (p : Bool) (ti time : Nat) (late held : Bool) :
    (s.stitchAccept h st p ti time late held).txnOf h = { s.txnOf h with
      state := st, left := s.txnLeft h, persist := p, ti := ti, time := time, late := late, wasHeld := held } := by
  unfold stitchAccept
  exact Sparse.get_set_same _ _ _ _

theorem txnOf_txAccept (s : State) (a : Agent) (h k : Nat) : (s.txAccept a h).txnOf k = s.txnOf k := by
  unfold txAccept; split <;> rfl

/-- A held Stitch whose time has come drains, and every other that waits for the same instant with it (R110). -/
theorem txnOf_heldFire (s : State) (h k : Nat) (late : Bool) (hk : k < 4) (h1 : (s.txnOf k).state = .held)
    (h2 : (s.txnOf k).ti = (s.txnOf h).ti) (h3 : (s.txnOf k).time = (s.txnOf h).time) :
    (s.heldFire h late).txnOf k = { s.txnOf k with state := .draining, late := late } := by
  have key : ∀ (l : List Nat), l.Nodup → ∀ u : State,
      (u.forEach l (fun t j => t.setTxn j { t.txnOf j with state := .draining, late := late })).txnOf k =
        if k ∈ l then { u.txnOf k with state := .draining, late := late } else u.txnOf k := by
    intro l hl
    induction l with
    | nil => intro u; rfl
    | cons j l ih =>
      intro u
      obtain ⟨hj, hl⟩ := List.nodup_cons.mp hl
      have e : u.forEach (j :: l) (fun t j => t.setTxn j { t.txnOf j with state := .draining, late := late }) =
        (u.setTxn j { u.txnOf j with state := .draining, late := late }).forEach l
          (fun t j => t.setTxn j { t.txnOf j with state := .draining, late := late }) := rfl
      rw [e, ih hl]
      by_cases hkj : k = j
      · subst hkj
        rw [if_neg hj, if_pos List.mem_cons_self, txns_setTxn_same]
      · have : (u.setTxn j { u.txnOf j with state := .draining, late := late }).txnOf k = u.txnOf k :=
          txns_setTxn_ne u _ hkj
        rw [this]
        simp [hkj]
  unfold heldFire
  dsimp only
  rw [key _ (List.Nodup.filter _ List.nodup_range)]
  rw [if_pos (by simp [hk, h1, h2, h3])]

/-- A drained handle that was not held commits alone (R109). -/
theorem commitHandle_alone (s : State) (h d : Nat) (h1 : (s.txnOf h).state = .draining)
    (h2 : (s.txnOf h).wasHeld = false) (h3 : s.sv.recopy = 0) :
    (s.commitHandle h).swapped = (s.txnOf h).set ∧
      (s.commitHandle h).activeOf d = (if d < 18 ∧ (s.txnOf h).set.testBit d = true then s.shadowOf d else s.activeOf d) ∧
      (s.commitHandle h).shadowOf d = if d < 18 ∧ (s.txnOf h).set.testBit d = true then s.activeOf d else s.shadowOf d := by
  have e : s.commitHandle h = s.commitAll [h] := by
    unfold commitHandle commitGroup
    simp only [h2, Bool.false_eq_true, if_false]
    have hr : s.forEach [h] recheck = s := by
      show recheck s h = s
      unfold recheck
      simp only [h2, Bool.false_eq_true, false_and, if_false]
    simp only [hr]
    have hf : [h].filter (fun k => decide ((s.txnOf k).state = .draining)) = [h] := by simp [h1]
    rw [hf]
  rw [e]
  let t : State := (s.noteDrain).setTxn h freeTxn
  have hx : s.noteDrain.sv = s.sv := (moves_noteDrain (ps := [.out, .regs, .scope, .fx]) (by decide) (moves_refl s)).1 .sv (by decide)
  have ha : s.noteDrain.active = s.active := (moves_noteDrain (ps := [.out, .regs, .scope, .fx]) (by decide) (moves_refl s)).1 .active (by decide)
  have hs : s.noteDrain.shadow = s.shadow := (moves_noteDrain (ps := [.out, .regs, .scope, .fx]) (by decide) (moves_refl s)).1 .shadow (by decide)
  have k := commitSet_copies t (s.txnOf h).set d (by show s.noteDrain.sv.recopy = 0; rw [hx]; exact h3)
  have m : moves [.out, .regs, .scope, .sv, .ob] (t.commitSet (s.txnOf h).set) (s.commitAll [h]) := by
    unfold commitAll
    dsimp only [List.map, List.foldl]
    have hz : Nat.lor 0 (s.txnOf h).set = (s.txnOf h).set := by show 0 ||| (s.txnOf h).set = _; simp
    rw [hz]
    have q : moves [.out, .regs, .scope, .sv, .ob] (t.commitSet (s.txnOf h).set)
      (((s.noteDrain.forEach [h] (fun t h => t.setTxn h freeTxn)).commitSet (s.txnOf h).set).forEach
        [(h, s.txnOf h, (s.txnOf h).wasHeld && ((s.txnOf h).late || s.pastTime h))] (fun u x => u.commitReport x.1 x.2.1 x.2.2)) :=
      moves_forEach (fun u x k => moves_commitReport (List.Subset.refl _) k) (moves_refl _)
    split
    · exact moves_persist (by decide) q
    · exact q
  rw [activeOf_congr (m.1 .active (by decide)), shadowOf_congr (m.1 .shadow (by decide)), m.1 .swapped (by decide)]
  refine ⟨k.2.2, ?_, ?_⟩
  · rw [k.1]; exact if_congr Iff.rfl (shadowOf_congr hs d) (activeOf_congr ha d)
  · rw [k.2.1]; exact if_congr Iff.rfl (activeOf_congr ha d) (shadowOf_congr hs d)

/-- A command's fields stand in its mailbox and nowhere else (R103). -/
theorem rg_txFields (s : State) (a : Agent) (x y z : Option Nat) (f : Fld) (ha : a.ownerCode ≤ 12)
    (h : 0x800 ≤ f.off) : (s.txFields a x y z).rg f = s.rg f := by
  rw [rg_eq, rg_eq]
  congr 1
  unfold txFields
  dsimp only
  have put : ∀ (t : State) (g : Fld) (v : Option Nat), g.off < 0x800 →
      (match v with | some n => t.setRg g n | none => t).rd f.off = t.rd f.off := by
    intro t g v hg
    cases v with
    | none => rfl
    | some n => exact rd_setRg_ne t g n f.off (by omega)
  refine (put _ (F.SV_TXM_SEC_HI_SEC a.ownerCode) _ (by show 0x40c + 0x40 * a.ownerCode < 0x800; omega)).trans ?_
  refine (put _ (F.SV_TXM_SEC_LO_SEC a.ownerCode) _ (by show 0x408 + 0x40 * a.ownerCode < 0x800; omega)).trans ?_
  refine (put _ (F.SV_TXM_ARG_ARG a.ownerCode) _ (by show 0x404 + 0x40 * a.ownerCode < 0x800; omega)).trans ?_
  cases x with
  | none => rfl
  | some n => exact rd_wr_ne s _ _ _ (by show f.off ≠ 0x400 + 0x40 * a.ownerCode; omega)

theorem stitchCheck_txFields (s : State) (a : Agent) (x y z : Option Nat) (h : Nat) (p : Bool) (ha : a.ownerCode ≤ 12) :
    (s.txFields a x y z).stitchCheck a h p = s.stitchCheck a h p := by
  have m : moves [.regs] s (s.txFields a x y z) := moves_txFields (by decide) (moves_refl s)
  have r := fun f h => rg_txFields s a x y z f ha h
  generalize s.txFields a x y z = t at *
  have sv : t.sv = s.sv := m.1 .sv (by decide)
  have pw : t.pw = s.pw := m.1 .pw (by decide)
  have htx : ∀ k, t.txnOf k = s.txnOf k := fun k => txnOf_congr (by rw [sv]) k
  unfold stitchCheck handleCheck writerBusy bankWriting precondFails pairs keysDown hamperKeyLost treeLocked nodeState shd act
  simp only [htx, sv, pw]
  rw [r F.SV_MEND_SERVICE_PAIRS (by decide), r F.KX_STAT_KEYS_DOWN (by decide), r F.KX_STAT_LOCKED (by decide),
    r (F.KX_NODE_STAT_W0_STATE 6) (by decide)]
  simp only [activeOf_congr (m.1 .active (by decide)), shadowOf_congr (m.1 .shadow (by decide))]

/-- The end of a command takes no event back. -/
theorem evSet_txResult (s : State) (a : Agent) (c h l n : Nat) (hn : n < 256) (he : s.evSet n = true) :
    (s.txResult a c h l).evSet n = true := by
  unfold txResult txEvent
  apply evSet_raise_mono
  have rep : ∀ (t : State) (b : Agent) (w : Nat), t.evSet n = true → (t.txReply b w).evSet n = true := by
    intro t b w ht
    have h1 : (if b.ownerCode ≤ 12 then t.wr (R.SV_TXM_RESULT b.ownerCode) (Word.ofNat w) else t).evSet n = true := by
      split
      · next hb =>
        unfold evSet at ht ⊢
        rw [rg_wr_ne]
        · exact ht
        · show 0x2000 + 4 * (n / 32) ≠ 0x414 + 0x40 * b.ownerCode
          omega
      · exact ht
    unfold txReply
    dsimp only
    cases b <;> exact h1
  have all : ∀ (ws : List Nat) (t : State), t.evSet n = true → (t.forEach ws (fun t w => t.txReply a w)).evSet n = true := by
    intro ws
    induction ws with
    | nil => intro t ht; exact ht
    | cons w ws ih => intro t ht; exact ih _ (rep t a w ht)
  exact all _ _ (rep s a _ he)

end Sys2Proof.Machine
end

