-- ==== Sys2Proof/Laws/MovesBridgeOps.lean ====
section
/-!
SUPPORT. What each operation of Machine/BridgeOps.lean can do: the parts of the state it may change, and what it keeps
(`moves`, Safety.lean). One lemma for each operation; callers cite it and do not unfold the operation.
-/

set_option linter.unusedTactic false
set_option linter.unreachableTactic false
set_option linter.unusedSimpArgs false

namespace Sys2Proof.Machine

open State

theorem moves_sendTlps {ps : List Part} {s0 s : State} {x1} {x2} {x3} {x4} {x5} (_hp : [.out] ⊆ ps) (h : moves ps s0 s) :
    moves ps s0 (State.sendTlps s x1 x2 x3 x4 x5) := by
  unfold State.sendTlps
  (try dsimp only)
  repeat' first
    | with_reducible assumption
    | split
    | with_reducible apply moves_forEach
    | with_reducible apply moves_emit
    | exact _hp (by decide)
    | exact List.Subset.trans (by decide) _hp
    | intro _

theorem moves_sendPosted {ps : List Part} {s0 s : State} {x1} (_hp : [.out, .mx] ⊆ ps) (h : moves ps s0 s) :
    moves ps s0 (State.sendPosted s x1) := by
  unfold State.sendPosted
  (try dsimp only)
  repeat' first
    | with_reducible assumption
    | split
    | with_reducible apply moves_sendTlps
    | with_reducible apply moves_upd_mx
    | exact rfl
    | exact _hp (by decide)
    | exact List.Subset.trans (by decide) _hp
    | intro _

theorem moves_drainPosted {ps : List Part} {s0 s : State} (_hp : [.out, .mx] ⊆ ps) (h : moves ps s0 s) :
    moves ps s0 (State.drainPosted s) := by
  unfold State.drainPosted
  (try dsimp only)
  repeat' first
    | with_reducible assumption
    | split
    | with_reducible apply moves_forEach
    | with_reducible apply moves_sendPosted
    | with_reducible apply moves_upd_mx
    | exact rfl
    | exact _hp (by decide)
    | exact List.Subset.trans (by decide) _hp
    | intro _

theorem moves_hbRecord {ps : List Part} {s0 s : State} {x1} {x2} {x3} {x4} {x5} (_hp : [.regs] ⊆ ps) (h : moves ps s0 s) :
    moves ps s0 (State.hbRecord s x1 x2 x3 x4 x5) := by
  unfold State.hbRecord
  (try dsimp only)
  repeat' first
    | with_reducible assumption
    | split
    | with_reducible apply moves_wr
    | with_reducible apply moves_tick
    | with_reducible apply moves_setRg
    | exact _hp (by decide)
    | exact List.Subset.trans (by decide) _hp
    | intro _

theorem moves_postedFail {ps : List Part} {s0 s : State} {x1} {x2} {x3} {x4} (_hp : [.out, .regs, .scope] ⊆ ps) (h : moves ps s0 s) :
    moves ps s0 (State.postedFail s x1 x2 x3 x4) := by
  unfold State.postedFail
  (try dsimp only)
  repeat' first
    | with_reducible assumption
    | split
    | with_reducible apply moves_raise
    | with_reducible apply moves_bump
    | with_reducible apply moves_hbRecord
    | with_reducible apply moves_setRg
    | exact _hp (by decide)
    | exact List.Subset.trans (by decide) _hp
    | intro _

theorem moves_failQueued {ps : List Part} {s0 s : State} {x1} (_hp : [.freeN, .out, .regs, .scope, .mx] ⊆ ps) (h : moves ps s0 s) :
    moves ps s0 (State.failQueued s x1) := by
  unfold State.failQueued
  (try dsimp only)
  repeat' first
    | with_reducible assumption
    | split
    | with_reducible apply moves_useFree
    | with_reducible apply moves_forEach
    | with_reducible apply moves_sendPosted
    | with_reducible apply moves_postedFail
    | with_reducible apply moves_upd_mx
    | exact rfl
    | exact _hp (by decide)
    | exact List.Subset.trans (by decide) _hp
    | intro _

theorem moves_orderDrain {ps : List Part} {s0 s : State} (_hp : [.out, .mx] ⊆ ps) (h : moves ps s0 s) :
    moves ps s0 (State.orderDrain s) := by
  unfold State.orderDrain
  (try dsimp only)
  repeat' first
    | with_reducible assumption
    | split
    | with_reducible apply moves_forEach
    | with_reducible apply moves_emit
    | with_reducible apply moves_upd_mx
    | exact rfl
    | exact _hp (by decide)
    | exact List.Subset.trans (by decide) _hp
    | intro _

theorem moves_outIssue {ps : List Part} {s0 s : State} {x1} {x2} {x3} (_hp : [.out, .mx] ⊆ ps) (h : moves ps s0 s) :
    moves ps s0 (State.outIssue s x1 x2 x3) := by
  unfold State.outIssue
  (try dsimp only)
  repeat' first
    | with_reducible assumption
    | split
    | with_reducible apply moves_orderDrain
    | with_reducible apply moves_upd_mx
    | exact rfl
    | exact _hp (by decide)
    | exact List.Subset.trans (by decide) _hp
    | intro _

theorem moves_outEnd {ps : List Part} {s0 s : State} {x1} {x2} {x3} (_hp : [.out, .mx] ⊆ ps) (h : moves ps s0 s) :
    moves ps s0 (State.outEnd s x1 x2 x3) := by
  unfold State.outEnd
  (try dsimp only)
  repeat' first
    | with_reducible assumption
    | split
    | with_reducible apply moves_orderDrain
    | with_reducible apply moves_upd_mx
    | exact rfl
    | exact _hp (by decide)
    | exact List.Subset.trans (by decide) _hp
    | intro _

theorem moves_sendRead {ps : List Part} {s0 s : State} {x1} (_hp : [.out] ⊆ ps) (h : moves ps s0 s) :
    moves ps s0 (State.sendRead s x1) := by
  unfold State.sendRead
  (try dsimp only)
  repeat' first
    | with_reducible assumption
    | split
    | with_reducible apply moves_sendTlps
    | exact _hp (by decide)
    | exact List.Subset.trans (by decide) _hp
    | intro _

theorem moves_addRead {ps : List Part} {s0 s : State} {x1} (_hp : [.out, .mx] ⊆ ps) (h : moves ps s0 s) :
    moves ps s0 (State.addRead s x1) := by
  unfold State.addRead
  (try dsimp only)
  repeat' first
    | with_reducible assumption
    | split
    | with_reducible apply moves_outIssue
    | with_reducible apply moves_sendRead
    | with_reducible apply moves_upd_mx
    | exact rfl
    | exact _hp (by decide)
    | exact List.Subset.trans (by decide) _hp
    | intro _

theorem moves_dropRead {ps : List Part} {s0 s : State} {x1} (_hp : [.out, .mx] ⊆ ps) (h : moves ps s0 s) :
    moves ps s0 (State.dropRead s x1) := by
  unfold State.dropRead
  (try dsimp only)
  repeat' first
    | with_reducible assumption
    | split
    | with_reducible apply moves_sendRead
    | with_reducible apply moves_upd_mx
    | exact rfl
    | exact _hp (by decide)
    | exact List.Subset.trans (by decide) _hp
    | intro _

theorem moves_setPre {ps : List Part} {s0 s : State} {x1} {x2} (_hp : [.mx] ⊆ ps) (h : moves ps s0 s) :
    moves ps s0 (State.setPre s x1 x2) := by
  unfold State.setPre
  (try dsimp only)
  repeat' first
    | with_reducible assumption
    | split
    | with_reducible apply moves_upd_mx
    | exact rfl
    | exact _hp (by decide)
    | exact List.Subset.trans (by decide) _hp
    | intro _

theorem moves_readFails {ps : List Part} {s0 s : State} {x1} {x2} (_hp : [.out, .regs, .scope, .mx] ⊆ ps) (h : moves ps s0 s) :
    moves ps s0 (State.readFails s x1 x2) := by
  unfold State.readFails
  (try dsimp only)
  repeat' first
    | with_reducible assumption
    | split
    | with_reducible apply moves_postedFail
    | with_reducible apply moves_raise
    | with_reducible apply moves_bump
    | with_reducible apply moves_hbRecord
    | with_reducible apply moves_outEnd
    | exact _hp (by decide)
    | exact List.Subset.trans (by decide) _hp
    | intro _

theorem moves_endReads {ps : List Part} {s0 s : State} (_hp : [.out, .regs, .scope, .mx] ⊆ ps) (h : moves ps s0 s) :
    moves ps s0 (State.endReads s) := by
  unfold State.endReads
  (try dsimp only)
  repeat' first
    | with_reducible assumption
    | split
    | with_reducible apply moves_forEach
    | with_reducible apply moves_postedFail
    | with_reducible apply moves_outEnd
    | with_reducible apply moves_upd_mx
    | exact rfl
    | exact _hp (by decide)
    | exact List.Subset.trans (by decide) _hp
    | intro _

theorem moves_inboundUr {ps : List Part} {s0 s : State} {x1} {x2} {x3} (_hp : [.out, .regs, .scope] ⊆ ps) (h : moves ps s0 s) :
    moves ps s0 (State.inboundUr s x1 x2 x3) := by
  unfold State.inboundUr
  (try dsimp only)
  repeat' first
    | with_reducible assumption
    | split
    | with_reducible apply moves_raise
    | with_reducible apply moves_bump
    | with_reducible apply moves_hbRecord
    | with_reducible apply moves_emit
    | exact _hp (by decide)
    | exact List.Subset.trans (by decide) _hp
    | intro _

end Sys2Proof.Machine
end

