-- ==== Sys2Proof/Laws/MovesBridge.lean ====
section
/-!
SUPPORT. What each operation of Machine/Bridge.lean can do: the parts of the state it may change, and what it keeps
(`moves`, Safety.lean). One lemma for each operation; callers cite it and do not unfold the operation.
-/

set_option linter.unusedTactic false
set_option linter.unreachableTactic false
set_option linter.unusedSimpArgs false

namespace Sys2Proof.Machine

open State

theorem moves_outWrite {ps : List Part} {s0 s : State} {x1} {x2} {x3} {x4} (_hp : [.out, .resp, .mx] ⊆ ps) (h : moves ps s0 s) :
    moves ps s0 (State.outWrite s x1 x2 x3 x4) := by
  unfold State.outWrite
  (try dsimp only)
  repeat' first
    | with_reducible assumption
    | split
    | with_reducible apply moves_setPre
    | with_reducible apply moves_answer
    | with_reducible apply moves_outIssue
    | with_reducible apply moves_addRead
    | with_reducible apply moves_sendTlps
    | with_reducible apply moves_upd_mx
    | exact rfl
    | exact _hp (by decide)
    | exact List.Subset.trans (by decide) _hp
    | intro _

theorem moves_outRead {ps : List Part} {s0 s : State} {x1} {x2} {x3} {x4} (_hp : [.out, .resp, .mx] ⊆ ps) (h : moves ps s0 s) :
    moves ps s0 (State.outRead s x1 x2 x3 x4) := by
  unfold State.outRead
  (try dsimp only)
  repeat' first
    | with_reducible assumption
    | split
    | with_reducible apply moves_answer
    | with_reducible apply moves_outIssue
    | with_reducible apply moves_addRead
    | exact _hp (by decide)
    | exact List.Subset.trans (by decide) _hp
    | intro _

theorem moves_coreDram {ps : List Part} {s0 s : State} {x1} {x2} {x3} {x4} {x5} (_hp : [.out, .resp, .regs, .scope, .ob, .mx] ⊆ ps) (h : moves ps s0 s) :
    moves ps s0 (State.coreDram s x1 x2 x3 x4 x5) := by
  unfold State.coreDram
  (try dsimp only)
  repeat' first
    | with_reducible assumption
    | split
    | with_reducible apply moves_answer
    | with_reducible apply moves_cacheWr
    | with_reducible apply moves_emit
    | with_reducible apply moves_dramUe
    | exact _hp (by decide)
    | exact List.Subset.trans (by decide) _hp
    | intro _

theorem moves_execOutboundAccess {ps : List Part} {s0 s : State} {x0} {x1} {x2} {x3} {x4} (_hp : [.out, .resp, .regs, .scope, .ob, .mx] ⊆ ps) (h : moves ps s0 s) :
    ∀ t, (execOutboundAccess x0 x1 x2 x3 x4 s) = .next t → moves ps s0 t := by
  unfold execOutboundAccess
  intro t ht
  injection ht with ht; subst ht
  (try dsimp only)
  repeat' first
    | with_reducible assumption
    | split
    | with_reducible apply moves_answer
    | with_reducible apply moves_coreDram
    | with_reducible apply moves_bump
    | with_reducible apply moves_outWrite
    | with_reducible apply moves_drainPosted
    | with_reducible apply moves_outRead
    | exact _hp (by decide)
    | exact List.Subset.trans (by decide) _hp
    | intro _

theorem moves_execOutboundCompletion {ps : List Part} {s0 s : State} {x0} {x1} {x2} (_hp : [.out, .regs, .scope, .mx] ⊆ ps) (h : moves ps s0 s) :
    ∀ t, (execOutboundCompletion x0 x1 x2 s) = .next t → moves ps s0 t := by
  unfold execOutboundCompletion
  intro t ht
  injection ht with ht; subst ht
  (try dsimp only)
  repeat' first
    | with_reducible assumption
    | split
    | with_reducible apply moves_dropRead
    | with_reducible apply moves_drainPosted
    | with_reducible apply moves_readFails
    | with_reducible apply moves_outEnd
    | with_reducible apply moves_setPre
    | exact _hp (by decide)
    | exact List.Subset.trans (by decide) _hp
    | intro _

theorem moves_execOutboundReadTimeout {ps : List Part} {s0 s : State} {x0} (_hp : [.out, .regs, .scope, .mx] ⊆ ps) (h : moves ps s0 s) :
    ∀ t, (execOutboundReadTimeout x0 s) = .next t → moves ps s0 t := by
  unfold execOutboundReadTimeout
  intro t ht
  injection ht with ht; subst ht
  (try dsimp only)
  repeat' first
    | with_reducible assumption
    | split
    | with_reducible apply moves_readFails
    | with_reducible apply moves_dropRead
    | with_reducible apply moves_drainPosted
    | exact _hp (by decide)
    | exact List.Subset.trans (by decide) _hp
    | intro _

theorem moves_execPrefetchExpiry {ps : List Part} {s0 s : State} {x0} (_hp : [.mx] ⊆ ps) (h : moves ps s0 s) :
    ∀ t, (execPrefetchExpiry x0 s) = .next t → moves ps s0 t := by
  unfold execPrefetchExpiry
  intro t ht
  injection ht with ht; subst ht
  (try dsimp only)
  repeat' first
    | with_reducible assumption
    | split
    | with_reducible apply moves_only
    | with_reducible apply moves_setPre
    | exact _hp (by decide)
    | exact List.Subset.trans (by decide) _hp
    | intro _

theorem moves_msiTake {ps : List Part} {s0 s : State} {x1} (_hp : [.out, .regs, .scope, .mx] ⊆ ps) (h : moves ps s0 s) :
    moves ps s0 (State.msiTake s x1) := by
  unfold State.msiTake
  (try dsimp only)
  repeat' first
    | with_reducible assumption
    | split
    | with_reducible apply moves_bump
    | with_reducible apply moves_raise
    | with_reducible apply moves_upd_mx
    | exact rfl
    | exact _hp (by decide)
    | exact List.Subset.trans (by decide) _hp
    | intro _

theorem moves_execInboundRequest {ps : List Part} {s0 s : State} {x0} {x1} {x2} {x3} {x4} (_hp : [.out, .regs, .scope, .ob, .mx] ⊆ ps) (h : moves ps s0 s) :
    ∀ t, (execInboundRequest x0 x1 x2 x3 x4 s) = .next t → moves ps s0 t := by
  unfold execInboundRequest
  intro t ht
  injection ht with ht; subst ht
  (try dsimp only)
  repeat' first
    | with_reducible assumption
    | split
    | with_reducible apply moves_msiTake
    | with_reducible apply moves_inboundUr
    | with_reducible apply moves_arbBytes
    | with_reducible apply moves_dramWr
    | with_reducible apply moves_emit
    | with_reducible apply moves_dramUe
    | exact _hp (by decide)
    | exact List.Subset.trans (by decide) _hp
    | intro _

theorem moves_execPcieErrorMessage {ps : List Part} {s0 s : State} {x0} {x1} (_hp : [.out, .regs, .scope, .mx] ⊆ ps) (h : moves ps s0 s) :
    ∀ t, (execPcieErrorMessage x0 x1 s) = .next t → moves ps s0 t := by
  unfold execPcieErrorMessage
  intro t ht
  injection ht with ht; subst ht
  (try dsimp only)
  repeat' first
    | with_reducible assumption
    | split
    | with_reducible apply moves_drainPosted
    | with_reducible apply moves_postedFail
    | exact _hp (by decide)
    | exact List.Subset.trans (by decide) _hp
    | intro _

theorem moves_execPcieReset {ps : List Part} {s0 s : State} (_hp : [.freeN, .out, .regs, .scope, .mx] ⊆ ps) (h : moves ps s0 s) :
    ∀ t, (execPcieReset s) = .next t → moves ps s0 t := by
  unfold execPcieReset
  intro t ht
  injection ht with ht; subst ht
  (try dsimp only)
  repeat' first
    | with_reducible assumption
    | split
    | with_reducible apply moves_endReads
    | with_reducible apply moves_failQueued
    | exact _hp (by decide)
    | exact List.Subset.trans (by decide) _hp
    | intro _

theorem moves_execPcieLinkChange {ps : List Part} {s0 s : State} {x0} {x1} {x2} (_hp : [.freeN, .out, .regs, .scope, .mx] ⊆ ps) (h : moves ps s0 s) :
    ∀ t, (execPcieLinkChange x0 x1 x2 s) = .next t → moves ps s0 t := by
  unfold execPcieLinkChange
  intro t ht
  injection ht with ht; subst ht
  (try dsimp only)
  repeat' first
    | with_reducible assumption
    | split
    | with_reducible apply moves_raise
    | with_reducible apply moves_drainPosted
    | with_reducible apply moves_setRg
    | with_reducible apply moves_failQueued
    | with_reducible apply moves_endReads
    | exact _hp (by decide)
    | exact List.Subset.trans (by decide) _hp
    | intro _

theorem moves_execRootMsiWrite {ps : List Part} {s0 s : State} {x0} (_hp : [.out, .regs, .scope, .mx] ⊆ ps) (h : moves ps s0 s) :
    ∀ t, (execRootMsiWrite x0 s) = .next t → moves ps s0 t := by
  unfold execRootMsiWrite
  intro t ht
  injection ht with ht; subst ht
  (try dsimp only)
  repeat' first
    | with_reducible assumption
    | split
    | with_reducible apply moves_msiTake
    | exact _hp (by decide)
    | exact List.Subset.trans (by decide) _hp
    | intro _

theorem moves_msiPop {ps : List Part} {s0 s : State} (_hp : [.regs, .mx] ⊆ ps) (h : moves ps s0 s) :
    moves ps s0 (State.msiPop s) := by
  unfold State.msiPop
  (try dsimp only)
  repeat' first
    | with_reducible assumption
    | split
    | with_reducible apply moves_setRg
    | with_reducible apply moves_upd_mx
    | exact rfl
    | exact _hp (by decide)
    | exact List.Subset.trans (by decide) _hp
    | intro _

theorem moves_execFenceClr {ps : List Part} {s0 s : State} {x0} {x1} (_hp : [.resp, .regs] ⊆ ps) (h : moves ps s0 s) :
    ∀ t, (execFenceClr x0 x1 s) = .next t → moves ps s0 t := by
  unfold execFenceClr
  intro t ht
  injection ht with ht; subst ht
  (try dsimp only)
  repeat' first
    | with_reducible assumption
    | split
    | with_reducible apply moves_byAgent
    | with_reducible apply moves_setRg
    | exact _hp (by decide)
    | exact List.Subset.trans (by decide) _hp
    | intro _

end Sys2Proof.Machine
end

