-- ==== Sys2Proof/Laws/MovesCan.lean ====
section
/-!
SUPPORT. What each operation of Machine/Can.lean can do: the parts of the state it may change, and what it keeps
(`moves`, Safety.lean). One lemma for each operation; callers cite it and do not unfold the operation.
-/

set_option linter.unusedTactic false
set_option linter.unreachableTactic false
set_option linter.unusedSimpArgs false

namespace Sys2Proof.Machine

open State

theorem moves_execCanIntegrated {ps : List Part} {s0 s : State} {x0} (_hp : [.out, .regs, .scope, .pw] ⊆ ps) (h : moves ps s0 s) :
    ∀ t, (execCanIntegrated x0 s) = .next t → moves ps s0 t := by
  unfold execCanIntegrated
  intro t ht
  injection ht with ht; subst ht
  (try dsimp only)
  repeat' first
    | with_reducible assumption
    | split
    | with_reducible apply moves_only
    | with_reducible apply moves_noteFb
    | with_reducible apply moves_judgePassive
    | with_reducible apply moves_toCanState
    | exact _hp (by decide)
    | exact List.Subset.trans (by decide) _hp
    | intro _

theorem moves_execCanConfigApplied {ps : List Part} {s0 s : State} {x0} (_hp : [.out, .regs, .scope, .bx] ⊆ ps) (h : moves ps s0 s) :
    ∀ t, (execCanConfigApplied x0 s) = .next t → moves ps s0 t := by
  unfold execCanConfigApplied
  intro t ht
  injection ht with ht; subst ht
  (try dsimp only)
  repeat' first
    | with_reducible assumption
    | split
    | with_reducible apply moves_only
    | with_reducible apply moves_canApply
    | exact _hp (by decide)
    | exact List.Subset.trans (by decide) _hp
    | intro _

theorem moves_execCanTxreq {ps : List Part} {s0 s : State} {x0} {x1} {x2} {x3} (_hp : [.out, .resp, .regs, .scope, .pw, .ob, .aon] ⊆ ps) (h : moves ps s0 s) :
    ∀ t, (execCanTxreq x0 x1 x2 x3 s) = .next t → moves ps s0 t := by
  unfold execCanTxreq
  intro t ht
  injection ht with ht; subst ht
  (try dsimp only)
  repeat' first
    | with_reducible assumption
    | split
    | with_reducible apply moves_only
    | with_reducible apply moves_byAgent
    | with_reducible apply moves_bySoftware
    | with_reducible apply moves_canReq
    | exact _hp (by decide)
    | exact List.Subset.trans (by decide) _hp
    | intro _

theorem moves_execCanTxcan {ps : List Part} {s0 s : State} {x0} {x1} {x2} {x3} (_hp : [.out, .resp, .regs, .scope, .bx] ⊆ ps) (h : moves ps s0 s) :
    ∀ t, (execCanTxcan x0 x1 x2 x3 s) = .next t → moves ps s0 t := by
  unfold execCanTxcan
  intro t ht
  injection ht with ht; subst ht
  (try dsimp only)
  repeat' first
    | with_reducible assumption
    | split
    | with_reducible apply moves_only
    | with_reducible apply moves_byAgent
    | with_reducible apply moves_bySoftware
    | with_reducible apply moves_canCancel
    | exact _hp (by decide)
    | exact List.Subset.trans (by decide) _hp
    | intro _

theorem moves_execCanRxack {ps : List Part} {s0 s : State} {x0} {x1} {x2} {x3} (_hp : [.resp, .regs] ⊆ ps) (h : moves ps s0 s) :
    ∀ t, (execCanRxack x0 x1 x2 x3 s) = .next t → moves ps s0 t := by
  unfold execCanRxack
  intro t ht
  injection ht with ht; subst ht
  (try dsimp only)
  repeat' first
    | with_reducible assumption
    | split
    | with_reducible apply moves_only
    | with_reducible apply moves_byAgent
    | with_reducible apply moves_bySoftware
    | with_reducible apply moves_canAck
    | exact _hp (by decide)
    | exact List.Subset.trans (by decide) _hp
    | intro _

theorem moves_execCanRecover {ps : List Part} {s0 s : State} {x0} {x1} (_hp : [.resp, .regs] ⊆ ps) (h : moves ps s0 s) :
    ∀ t, (execCanRecover x0 x1 s) = .next t → moves ps s0 t := by
  unfold execCanRecover
  intro t ht
  injection ht with ht; subst ht
  (try dsimp only)
  repeat' first
    | with_reducible assumption
    | split
    | with_reducible apply moves_only
    | with_reducible apply moves_byAgent
    | with_reducible apply moves_toCanState
    | with_reducible apply moves_setRg
    | exact _hp (by decide)
    | exact List.Subset.trans (by decide) _hp
    | intro _

theorem moves_execCanTxChoice {ps : List Part} {s0 s : State} {x0} {x1} {x2} (_hp : [.out, .regs, .scope, .ob, .bx] ⊆ ps) (h : moves ps s0 s) :
    ∀ t, (execCanTxChoice x0 x1 x2 s) = .next t → moves ps s0 t := by
  unfold execCanTxChoice
  intro t ht
  injection ht with ht; subst ht
  (try dsimp only)
  repeat' first
    | with_reducible assumption
    | split
    | with_reducible apply moves_only
    | with_reducible apply moves_setCan
    | with_reducible apply moves_msgRamEcc
    | with_reducible apply moves_objEnds
    | exact _hp (by decide)
    | exact List.Subset.trans (by decide) _hp
    | intro _

theorem moves_execCanTxCommit {ps : List Part} {s0 s : State} {x0} (_hp : [.regs, .bx] ⊆ ps) (h : moves ps s0 s) :
    ∀ t, (execCanTxCommit x0 s) = .next t → moves ps s0 t := by
  unfold execCanTxCommit
  intro t ht
  injection ht with ht; subst ht
  (try dsimp only)
  repeat' first
    | with_reducible assumption
    | split
    | with_reducible apply moves_only
    | with_reducible apply moves_setCan
    | with_reducible apply moves_setStatus
    | exact _hp (by decide)
    | exact List.Subset.trans (by decide) _hp
    | intro _

theorem moves_canSent {ps : List Part} {s0 s : State} {x1} {x2} {x3} {x4} (_hp : [.freeN, .out, .regs, .scope, .bx] ⊆ ps) (h : moves ps s0 s) :
    moves ps s0 (State.canSent s x1 x2 x3 x4) := by
  unfold State.canSent
  (try dsimp only)
  repeat' first
    | with_reducible assumption
    | split
    | with_reducible apply moves_noteTdc
    | with_reducible apply moves_setCan
    | with_reducible apply moves_objStamp
    | with_reducible apply moves_txCredit
    | with_reducible apply moves_bump
    | with_reducible apply moves_setRg
    | with_reducible apply moves_tick
    | with_reducible apply moves_objEnds
    | with_reducible apply moves_canReceive
    | with_reducible apply moves_emit
    | exact _hp (by decide)
    | exact List.Subset.trans (by decide) _hp
    | intro _

theorem moves_execCanTxDone {ps : List Part} {s0 s : State} {x0} {x1} (_hp : [.freeN, .out, .regs, .scope, .bx] ⊆ ps) (h : moves ps s0 s) :
    ∀ t, (execCanTxDone x0 x1 s) = .next t → moves ps s0 t := by
  unfold execCanTxDone
  intro t ht
  injection ht with ht; subst ht
  (try dsimp only)
  repeat' first
    | with_reducible assumption
    | split
    | with_reducible apply moves_only
    | with_reducible apply moves_canSent
    | exact _hp (by decide)
    | exact List.Subset.trans (by decide) _hp
    | intro _

theorem moves_execCanArbLost {ps : List Part} {s0 s : State} {x0} (_hp : [.out, .regs, .scope, .bx] ⊆ ps) (h : moves ps s0 s) :
    ∀ t, (execCanArbLost x0 s) = .next t → moves ps s0 t := by
  unfold execCanArbLost
  intro t ht
  injection ht with ht; subst ht
  (try dsimp only)
  repeat' first
    | with_reducible assumption
    | split
    | with_reducible apply moves_only
    | with_reducible apply moves_objFails
    | with_reducible apply moves_bump
    | with_reducible apply moves_tdcAtError
    | exact _hp (by decide)
    | exact List.Subset.trans (by decide) _hp
    | intro _

theorem moves_execCanRxFrame {ps : List Part} {s0 s : State} {x0} {x1} {x2} (_hp : [.freeN, .out, .regs, .scope, .bx] ⊆ ps) (h : moves ps s0 s) :
    ∀ t, (execCanRxFrame x0 x1 x2 s) = .next t → moves ps s0 t := by
  unfold execCanRxFrame
  intro t ht
  injection ht with ht; subst ht
  (try dsimp only)
  repeat' first
    | with_reducible assumption
    | split
    | with_reducible apply moves_only
    | with_reducible apply moves_canReceive
    | with_reducible apply moves_sendAck
    | exact _hp (by decide)
    | exact List.Subset.trans (by decide) _hp
    | intro _

theorem moves_execCanProtocolException {ps : List Part} {s0 s : State} {x0} {x1} (_hp : [.freeN, .out, .regs, .scope, .bx] ⊆ ps) (h : moves ps s0 s) :
    ∀ t, (execCanProtocolException x0 x1 s) = .next t → moves ps s0 t := by
  unfold execCanProtocolException
  intro t ht
  injection ht with ht; subst ht
  (try dsimp only)
  repeat' first
    | with_reducible assumption
    | split
    | with_reducible apply moves_only
    | with_reducible apply moves_toCanState
    | with_reducible apply moves_canEvent
    | with_reducible apply moves_bump
    | with_reducible apply moves_canErrorMet
    | exact _hp (by decide)
    | exact List.Subset.trans (by decide) _hp
    | intro _

theorem moves_execCanBusError {ps : List Part} {s0 s : State} {x0} {x1} {x2} {x3} {x4} {x5} (_hp : [.freeN, .out, .regs, .scope, .bx] ⊆ ps) (h : moves ps s0 s) :
    ∀ t, (execCanBusError x0 x1 x2 x3 x4 x5 s) = .next t → moves ps s0 t := by
  unfold execCanBusError
  intro t ht
  injection ht with ht; subst ht
  (try dsimp only)
  repeat' first
    | with_reducible assumption
    | split
    | with_reducible apply moves_only
    | with_reducible apply moves_canErrorMet
    | with_reducible apply moves_tdcAtError
    | exact _hp (by decide)
    | exact List.Subset.trans (by decide) _hp
    | intro _

theorem moves_execCanRecoveryDone {ps : List Part} {s0 s : State} {x0} (_hp : [.out, .regs, .scope] ⊆ ps) (h : moves ps s0 s) :
    ∀ t, (execCanRecoveryDone x0 s) = .next t → moves ps s0 t := by
  unfold execCanRecoveryDone
  intro t ht
  injection ht with ht; subst ht
  (try dsimp only)
  repeat' first
    | with_reducible assumption
    | split
    | with_reducible apply moves_only
    | with_reducible apply moves_canEvent
    | with_reducible apply moves_toCanState
    | with_reducible apply moves_setCounters
    | exact _hp (by decide)
    | exact List.Subset.trans (by decide) _hp
    | intro _

end Sys2Proof.Machine
end

