-- ==== Sys2Proof/Laws/MovesCompute.lean ====
section
/-!
SUPPORT. What each operation of Machine/Compute.lean can do: the parts of the state it may change, and what it keeps
(`moves`, Safety.lean). One lemma for each operation; callers cite it and do not unfold the operation.
-/

set_option linter.unusedTactic false
set_option linter.unreachableTactic false
set_option linter.unusedSimpArgs false

namespace Sys2Proof.Machine

open State

theorem moves_execClusterRelease {ps : List Part} {s0 s : State} (_hp : [.freeN, .out, .regs, .scope, .pw, .sx, .fx, .ob, .px, .bx, .cx, .mx] ⊆ ps) (h : moves ps s0 s) :
    ∀ t, (execClusterRelease s) = .next t → moves ps s0 t := by
  unfold execClusterRelease
  intro t ht
  injection ht with ht; subst ht
  (try dsimp only)
  repeat' first
    | with_reducible assumption
    | split
    | with_reducible apply moves_clusterRelease
    | exact _hp (by decide)
    | exact List.Subset.trans (by decide) _hp
    | intro _

theorem moves_execImageCopyDone {ps : List Part} {s0 s : State} {x0} (_hp : [.out, .regs, .scope, .cx, .mx] ⊆ ps) (h : moves ps s0 s) :
    ∀ t, (execImageCopyDone x0 s) = .next t → moves ps s0 t := by
  unfold execImageCopyDone
  intro t ht
  injection ht with ht; subst ht
  (try dsimp only)
  repeat' first
    | with_reducible assumption
    | split
    | with_reducible apply moves_setRg
    | with_reducible apply moves_dramWr
    | with_reducible apply moves_startCores
    | with_reducible apply moves_raise
    | with_reducible apply moves_upd_cx
    | exact _hp (by decide)
    | exact List.Subset.trans (by decide) _hp
    | intro _

theorem moves_execCoreStart {ps : List Part} {s0 s : State} {x0} {x1} (_hp : [.out, .resp, .regs] ⊆ ps) (h : moves ps s0 s) :
    ∀ t, (execCoreStart x0 x1 s) = .next t → moves ps s0 t := by
  unfold execCoreStart
  intro t ht
  injection ht with ht; subst ht
  (try dsimp only)
  repeat' first
    | with_reducible assumption
    | split
    | with_reducible apply moves_byAgent
    | with_reducible apply moves_runCores
    | exact _hp (by decide)
    | exact List.Subset.trans (by decide) _hp
    | intro _

theorem moves_execDvfsRequest {ps : List Part} {s0 s : State} {x0} {x1} (_hp : [.resp, .regs, .cx] ⊆ ps) (h : moves ps s0 s) :
    ∀ t, (execDvfsRequest x0 x1 s) = .next t → moves ps s0 t := by
  unfold execDvfsRequest
  intro t ht
  injection ht with ht; subst ht
  (try dsimp only)
  repeat' first
    | with_reducible assumption
    | split
    | with_reducible apply moves_byAgent
    | with_reducible apply moves_setRg
    | with_reducible apply moves_upd_cx
    | exact _hp (by decide)
    | exact List.Subset.trans (by decide) _hp
    | intro _

theorem moves_execDvfsDone {ps : List Part} {s0 s : State} (_hp : [.out, .regs, .scope, .cx] ⊆ ps) (h : moves ps s0 s) :
    ∀ t, (execDvfsDone s) = .next t → moves ps s0 t := by
  unfold execDvfsDone
  intro t ht
  injection ht with ht; subst ht
  (try dsimp only)
  repeat' first
    | with_reducible assumption
    | split
    | with_reducible apply moves_raise
    | with_reducible apply moves_setRg
    | with_reducible apply moves_setOpp
    | with_reducible apply moves_upd_cx
    | exact _hp (by decide)
    | exact List.Subset.trans (by decide) _hp
    | intro _

theorem moves_execCoreWfiOffline {ps : List Part} {s0 s : State} {x0} (_hp : [.out, .regs, .scope] ⊆ ps) (h : moves ps s0 s) :
    ∀ t, (execCoreWfiOffline x0 s) = .next t → moves ps s0 t := by
  unfold execCoreWfiOffline
  intro t ht
  injection ht with ht; subst ht
  (try dsimp only)
  repeat' first
    | with_reducible assumption
    | split
    | with_reducible apply moves_coreOff
    | exact _hp (by decide)
    | exact List.Subset.trans (by decide) _hp
    | intro _

theorem moves_execOfflineGraceExpiry {ps : List Part} {s0 s : State} {x0} (_hp : [.out, .regs, .scope] ⊆ ps) (h : moves ps s0 s) :
    ∀ t, (execOfflineGraceExpiry x0 s) = .next t → moves ps s0 t := by
  unfold execOfflineGraceExpiry
  intro t ht
  injection ht with ht; subst ht
  (try dsimp only)
  repeat' first
    | with_reducible assumption
    | split
    | with_reducible apply moves_coreOff
    | with_reducible apply moves_bump
    | exact _hp (by decide)
    | exact List.Subset.trans (by decide) _hp
    | intro _

theorem moves_execTagPop {ps : List Part} {s0 s : State} {x0} {x1} (_hp : [.resp, .regs, .cx] ⊆ ps) (h : moves ps s0 s) :
    ∀ t, (execTagPop x0 x1 s) = .next t → moves ps s0 t := by
  unfold execTagPop
  intro t ht
  injection ht with ht; subst ht
  (try dsimp only)
  repeat' first
    | with_reducible assumption
    | split
    | with_reducible apply moves_byAgent
    | with_reducible apply moves_setTags
    | exact _hp (by decide)
    | exact List.Subset.trans (by decide) _hp
    | intro _

theorem moves_execRingTailWrite {ps : List Part} {s0 s : State} {x0} {x1} {x2} (_hp : [.resp, .regs] ⊆ ps) (h : moves ps s0 s) :
    ∀ t, (execRingTailWrite x0 x1 x2 s) = .next t → moves ps s0 t := by
  unfold execRingTailWrite
  intro t ht
  injection ht with ht; subst ht
  (try dsimp only)
  repeat' first
    | with_reducible assumption
    | split
    | with_reducible apply moves_byAgent
    | with_reducible apply moves_setRg
    | exact _hp (by decide)
    | exact List.Subset.trans (by decide) _hp
    | intro _

theorem moves_execHpRxWrite {ps : List Part} {s0 s : State} {x0} {x1} (_hp : [.out, .regs, .shadow, .scope, .sv, .sx, .fx, .ob, .cx, .mx] ⊆ ps) (h : moves ps s0 s) :
    ∀ t, (execHpRxWrite x0 x1 s) = .next t → moves ps s0 t := by
  unfold execHpRxWrite
  intro t ht
  injection ht with ht; subst ht
  (try dsimp only)
  repeat' first
    | with_reducible assumption
    | split
    | with_reducible apply moves_drainDone
    | with_reducible apply moves_hpWriteEnd
    | with_reducible apply moves_setTx
    | exact _hp (by decide)
    | exact List.Subset.trans (by decide) _hp
    | intro _

theorem moves_execHpTxFrame {ps : List Part} {s0 s : State} {x0} {x1} (_hp : [.freeN, .out, .regs, .scope, .pw, .sx, .fx, .ob, .aon, .cx, .mx] ⊆ ps) (h : moves ps s0 s) :
    ∀ t, (execHpTxFrame x0 x1 s) = .next t → moves ps s0 t := by
  unfold execHpTxFrame
  intro t ht
  injection ht with ht; subst ht
  (try dsimp only)
  repeat' first
    | with_reducible assumption
    | split
    | with_reducible apply moves_txServe
    | with_reducible apply moves_upd_cx
    | exact _hp (by decide)
    | exact List.Subset.trans (by decide) _hp
    | intro _

theorem moves_execHpCoalTimer {ps : List Part} {s0 s : State} {x0} (_hp : [.out, .regs, .scope, .cx] ⊆ ps) (h : moves ps s0 s) :
    ∀ t, (execHpCoalTimer x0 s) = .next t → moves ps s0 t := by
  unfold execHpCoalTimer
  intro t ht
  injection ht with ht; subst ht
  (try dsimp only)
  repeat' first
    | with_reducible assumption
    | split
    | with_reducible apply moves_hpRaise
    | exact _hp (by decide)
    | exact List.Subset.trans (by decide) _hp
    | intro _

theorem moves_execDramUe {ps : List Part} {s0 s : State} {x0} {x1} (_hp : [.out, .regs, .scope, .ob, .mx] ⊆ ps) (h : moves ps s0 s) :
    ∀ t, (execDramUe x0 x1 s) = .next t → moves ps s0 t := by
  unfold execDramUe
  intro t ht
  injection ht with ht; subst ht
  (try dsimp only)
  repeat' first
    | with_reducible assumption
    | split
    | with_reducible apply moves_emit
    | with_reducible apply moves_dramUe
    | exact _hp (by decide)
    | exact List.Subset.trans (by decide) _hp
    | intro _

theorem moves_execDramScrubPassDone {ps : List Part} {s0 s : State} (_hp : [.out, .regs, .scope] ⊆ ps) (h : moves ps s0 s) :
    ∀ t, (execDramScrubPassDone s) = .next t → moves ps s0 t := by
  unfold execDramScrubPassDone
  intro t ht
  injection ht with ht; subst ht
  (try dsimp only)
  repeat' first
    | with_reducible assumption
    | split
    | with_reducible apply moves_raise
    | with_reducible apply moves_arbBytes
    | exact _hp (by decide)
    | exact List.Subset.trans (by decide) _hp
    | intro _

theorem moves_execCoreCycle {ps : List Part} {s0 s : State} {x0} {x1} {x2} {x3} {x4} {x5} {x6} {x7} (_hp : [.freeN, .out, .regs, .scope, .cx, .mx] ⊆ ps) (h : moves ps s0 s) :
    ∀ t, (execCoreCycle x0 x1 x2 x3 x4 x5 x6 x7 s) = .next t → moves ps s0 t := by
  unfold execCoreCycle
  intro t ht
  injection ht with ht; subst ht
  (try dsimp only)
  repeat' first
    | with_reducible assumption
    | split
    | with_reducible apply moves_bump64
    | with_reducible apply moves_coreDecode
    | with_reducible apply moves_coreTag
    | with_reducible apply moves_forEach
    | with_reducible apply moves_corePmu
    | with_reducible apply moves_mayWriteBack
    | with_reducible apply moves_arbBytes
    | exact _hp (by decide)
    | exact List.Subset.trans (by decide) _hp
    | intro _

end Sys2Proof.Machine
end

