-- ==== Sys2Proof/Laws/MovesForward.lean ====
section
/-!
SUPPORT. What each operation of Machine/Forward.lean can do: the parts of the state it may change, and what it keeps
(`moves`, Safety.lean). One lemma for each operation; callers cite it and do not unfold the operation.
-/

set_option linter.unusedTactic false
set_option linter.unreachableTactic false
set_option linter.unusedSimpArgs false

namespace Sys2Proof.Machine

open State

theorem moves_classify {ps : List Part} {s0 s : State} {x1} {x2} (_hp : [.regs] ⊆ ps) (h : moves ps s0 s) :
    moves ps s0 (State.classify s x1 x2).1 := by
  unfold State.classify
  (try dsimp only)
  repeat' first
    | with_reducible assumption
    | split
    | with_reducible apply moves_bump
    | exact _hp (by decide)
    | exact List.Subset.trans (by decide) _hp
    | intro _

theorem moves_classify_eq {ps : List Part} {s0 s : State} {x1} {x2} (_hp : [.regs] ⊆ ps) (h : moves ps s0 s) {t v} (hq : (State.classify s x1 x2) = (t, v)) :
    moves ps s0 t := by
  have := moves_classify (x1 := x1) (x2 := x2)  _hp h
  rwa [hq] at this

theorem moves_learnFull {ps : List Part} {s0 s : State} {x1} (_hp : [.regs] ⊆ ps) (h : moves ps s0 s) :
    moves ps s0 (State.learnFull s x1).1 := by
  unfold State.learnFull
  (try dsimp only)
  repeat' first
    | with_reducible assumption
    | split
    | with_reducible apply moves_bump
    | exact _hp (by decide)
    | exact List.Subset.trans (by decide) _hp
    | intro _

theorem moves_learnFull_eq {ps : List Part} {s0 s : State} {x1} (_hp : [.regs] ⊆ ps) (h : moves ps s0 s) {t v} (hq : (State.learnFull s x1) = (t, v)) :
    moves ps s0 t := by
  have := moves_learnFull (x1 := x1)  _hp h
  rwa [hq] at this

theorem moves_learnAsk {ps : List Part} {s0 s : State} {x1} {x2} {x3} {x4} (_hp : [.fx] ⊆ ps) (h : moves ps s0 s) :
    moves ps s0 (State.learnAsk s x1 x2 x3 x4) := by
  unfold State.learnAsk
  (try dsimp only)
  repeat' first
    | with_reducible assumption
    | split
    | with_reducible apply moves_upd_fx
    | exact _hp (by decide)
    | exact List.Subset.trans (by decide) _hp
    | intro _

theorem moves_learnStep {ps : List Part} {s0 s : State} {x1} {x2} {x3} (_hp : [.regs, .fx] ⊆ ps) (h : moves ps s0 s) :
    moves ps s0 (State.learnStep s x1 x2 x3).1 := by
  unfold State.learnStep
  (try dsimp only)
  repeat' first
    | with_reducible assumption
    | split
    | with_reducible apply moves_bump
    | with_reducible apply moves_learnAsk
    | with_reducible apply moves_learnFull
    | with_reducible refine moves_learnFull_eq ?_ ?_ (by assumption)
    | exact _hp (by decide)
    | exact List.Subset.trans (by decide) _hp
    | intro _

theorem moves_learnStep_eq {ps : List Part} {s0 s : State} {x1} {x2} {x3} (_hp : [.regs, .fx] ⊆ ps) (h : moves ps s0 s) {t v} (hq : (State.learnStep s x1 x2 x3) = (t, v)) :
    moves ps s0 t := by
  have := moves_learnStep (x1 := x1) (x2 := x2) (x3 := x3)  _hp h
  rwa [hq] at this

theorem moves_toPort {ps : List Part} {s0 s : State} {x1} {x2} {x3} (_hp : [.regs] ⊆ ps) (h : moves ps s0 s) :
    moves ps s0 (State.toPort s x1 x2 x3).1 := by
  unfold State.toPort
  (try dsimp only)
  repeat' first
    | with_reducible assumption
    | split
    | with_reducible apply moves_bump
    | exact _hp (by decide)
    | exact List.Subset.trans (by decide) _hp
    | intro _

theorem moves_toPort_eq {ps : List Part} {s0 s : State} {x1} {x2} {x3} (_hp : [.regs] ⊆ ps) (h : moves ps s0 s) {t v} (hq : (State.toPort s x1 x2 x3) = (t, v)) :
    moves ps s0 t := by
  have := moves_toPort (x1 := x1) (x2 := x2) (x3 := x3)  _hp h
  rwa [hq] at this

theorem moves_toPg {ps : List Part} {s0 s : State} {x1} {x2} {x3} {x4} {x5} {x6} (_hp : [.out, .regs, .scope, .fx] ⊆ ps) (h : moves ps s0 s) :
    moves ps s0 (State.toPg s x1 x2 x3 x4 x5 x6).1 := by
  unfold State.toPg
  (try dsimp only)
  repeat' first
    | with_reducible assumption
    | split
    | with_reducible apply moves_pgNone
    | with_reducible apply moves_toPort
    | with_reducible refine moves_toPort_eq ?_ ?_ (by assumption)
    | exact _hp (by decide)
    | exact List.Subset.trans (by decide) _hp
    | intro _

theorem moves_toPg_eq {ps : List Part} {s0 s : State} {x1} {x2} {x3} {x4} {x5} {x6} (_hp : [.out, .regs, .scope, .fx] ⊆ ps) (h : moves ps s0 s) {t v} (hq : (State.toPg s x1 x2 x3 x4 x5 x6) = (t, v)) :
    moves ps s0 t := by
  have := moves_toPg (x1 := x1) (x2 := x2) (x3 := x3) (x4 := x4) (x5 := x5) (x6 := x6)  _hp h
  rwa [hq] at this

theorem moves_flood {ps : List Part} {s0 s : State} {x1} (_hp : [.out, .regs, .scope] ⊆ ps) (h : moves ps s0 s) :
    moves ps s0 (State.flood s x1).1 := by
  unfold State.flood
  (try dsimp only)
  repeat' first
    | with_reducible assumption
    | split
    | with_reducible apply moves_pmu
    | exact _hp (by decide)
    | exact List.Subset.trans (by decide) _hp
    | intro _

theorem moves_flood_eq {ps : List Part} {s0 s : State} {x1} (_hp : [.out, .regs, .scope] ⊆ ps) (h : moves ps s0 s) {t v} (hq : (State.flood s x1) = (t, v)) :
    moves ps s0 t := by
  have := moves_flood (x1 := x1)  _hp h
  rwa [hq] at this

theorem moves_bridgeMiss {ps : List Part} {s0 s : State} {x1} {x2} (_hp : [.out, .regs, .scope] ⊆ ps) (h : moves ps s0 s) :
    moves ps s0 (State.bridgeMiss s x1 x2).1 := by
  unfold State.bridgeMiss
  (try dsimp only)
  repeat' first
    | with_reducible assumption
    | split
    | with_reducible apply moves_bump
    | with_reducible apply moves_flood
    | with_reducible refine moves_flood_eq ?_ ?_ (by assumption)
    | exact _hp (by decide)
    | exact List.Subset.trans (by decide) _hp
    | intro _

theorem moves_bridgeMiss_eq {ps : List Part} {s0 s : State} {x1} {x2} (_hp : [.out, .regs, .scope] ⊆ ps) (h : moves ps s0 s) {t v} (hq : (State.bridgeMiss s x1 x2) = (t, v)) :
    moves ps s0 t := by
  have := moves_bridgeMiss (x1 := x1) (x2 := x2)  _hp h
  rwa [hq] at this

theorem moves_bridge {ps : List Part} {s0 s : State} {x1} {x2} (_hp : [.out, .regs, .scope, .fx] ⊆ ps) (h : moves ps s0 s) :
    moves ps s0 (State.bridge s x1 x2).1 := by
  unfold State.bridge
  (try dsimp only)
  repeat' first
    | with_reducible assumption
    | split
    | with_reducible apply moves_bridgeMiss
    | with_reducible refine moves_bridgeMiss_eq ?_ ?_ (by assumption)
    | with_reducible apply moves_pmu
    | with_reducible apply moves_toPort
    | with_reducible refine moves_toPort_eq ?_ ?_ (by assumption)
    | with_reducible apply moves_toPg
    | with_reducible refine moves_toPg_eq ?_ ?_ (by assumption)
    | with_reducible apply moves_bump
    | exact _hp (by decide)
    | exact List.Subset.trans (by decide) _hp
    | intro _

theorem moves_bridge_eq {ps : List Part} {s0 s : State} {x1} {x2} (_hp : [.out, .regs, .scope, .fx] ⊆ ps) (h : moves ps s0 s) {t v} (hq : (State.bridge s x1 x2) = (t, v)) :
    moves ps s0 t := by
  have := moves_bridge (x1 := x1) (x2 := x2)  _hp h
  rwa [hq] at this

theorem moves_route {ps : List Part} {s0 s : State} {x1} {x2} (_hp : [.out, .regs, .scope, .fx] ⊆ ps) (h : moves ps s0 s) :
    moves ps s0 (State.route s x1 x2).1 := by
  unfold State.route
  (try dsimp only)
  repeat' first
    | with_reducible assumption
    | split
    | with_reducible apply moves_bump
    | with_reducible apply moves_pmu
    | with_reducible apply moves_toPg
    | with_reducible refine moves_toPg_eq ?_ ?_ (by assumption)
    | with_reducible apply moves_toPort
    | with_reducible refine moves_toPort_eq ?_ ?_ (by assumption)
    | exact _hp (by decide)
    | exact List.Subset.trans (by decide) _hp
    | intro _

theorem moves_route_eq {ps : List Part} {s0 s : State} {x1} {x2} (_hp : [.out, .regs, .scope, .fx] ⊆ ps) (h : moves ps s0 s) {t v} (hq : (State.route s x1 x2) = (t, v)) :
    moves ps s0 t := by
  have := moves_route (x1 := x1) (x2 := x2)  _hp h
  rwa [hq] at this

theorem moves_aclPolice {ps : List Part} {s0 s : State} {x1} {x2} (_hp : [.out, .regs, .scope, .fx] ⊆ ps) (h : moves ps s0 s) :
    moves ps s0 (State.aclPolice s x1 x2).1 := by
  unfold State.aclPolice
  (try dsimp only)
  repeat' first
    | with_reducible assumption
    | split
    | with_reducible apply moves_police
    | with_reducible refine moves_police_eq ?_ ?_ (by assumption)
    | exact _hp (by decide)
    | exact List.Subset.trans (by decide) _hp
    | intro _

theorem moves_aclPolice_eq {ps : List Part} {s0 s : State} {x1} {x2} (_hp : [.out, .regs, .scope, .fx] ⊆ ps) (h : moves ps s0 s) {t v} (hq : (State.aclPolice s x1 x2) = (t, v)) :
    moves ps s0 t := by
  have := moves_aclPolice (x1 := x1) (x2 := x2)  _hp h
  rwa [hq] at this

theorem moves_streamSteps {ps : List Part} {s0 s : State} {x1} {x2} {x3} (_hp : [.out, .regs, .scope, .fx] ⊆ ps) (h : moves ps s0 s) :
    moves ps s0 (State.streamSteps s x1 x2 x3).1 := by
  unfold State.streamSteps
  (try dsimp only)
  repeat' first
    | with_reducible assumption
    | split
    | with_reducible apply moves_streamFilter
    | with_reducible refine moves_streamFilter_eq ?_ ?_ (by assumption)
    | with_reducible apply moves_frer
    | with_reducible refine moves_frer_eq ?_ ?_ (by assumption)
    | exact _hp (by decide)
    | exact List.Subset.trans (by decide) _hp
    | intro _

theorem moves_streamSteps_eq {ps : List Part} {s0 s : State} {x1} {x2} {x3} (_hp : [.out, .regs, .scope, .fx] ⊆ ps) (h : moves ps s0 s) {t v} (hq : (State.streamSteps s x1 x2 x3) = (t, v)) :
    moves ps s0 t := by
  have := moves_streamSteps (x1 := x1) (x2 := x2) (x3 := x3)  _hp h
  rwa [hq] at this

theorem moves_policy {ps : List Part} {s0 s : State} {x1} {x2} (_hp : [.out, .regs, .scope, .fx] ⊆ ps) (h : moves ps s0 s) :
    moves ps s0 (State.policy s x1 x2).1 := by
  unfold State.policy
  (try dsimp only)
  repeat' first
    | with_reducible assumption
    | split
    | with_reducible apply moves_streamSteps
    | with_reducible refine moves_streamSteps_eq ?_ ?_ (by assumption)
    | with_reducible apply moves_bump
    | with_reducible apply moves_pmu
    | with_reducible apply moves_aclPolice
    | with_reducible refine moves_aclPolice_eq ?_ ?_ (by assumption)
    | exact _hp (by decide)
    | exact List.Subset.trans (by decide) _hp
    | intro _

theorem moves_policy_eq {ps : List Part} {s0 s : State} {x1} {x2} (_hp : [.out, .regs, .scope, .fx] ⊆ ps) (h : moves ps s0 s) {t v} (hq : (State.policy s x1 x2) = (t, v)) :
    moves ps s0 t := by
  have := moves_policy (x1 := x1) (x2 := x2)  _hp h
  rwa [hq] at this

theorem moves_policyFirst {ps : List Part} {s0 s : State} {x1} {x2} (h : moves ps s0 s) :
    moves ps s0 (State.policyFirst s x1 x2).1 := by
  unfold State.policyFirst
  (try dsimp only)
  repeat' first
    | with_reducible assumption
    | split
    | intro _

theorem moves_policyFirst_eq {ps : List Part} {s0 s : State} {x1} {x2} (h : moves ps s0 s) {t v} (hq : (State.policyFirst s x1 x2) = (t, v)) :
    moves ps s0 t := by
  have := moves_policyFirst (x1 := x1) (x2 := x2)  h
  rwa [hq] at this

theorem moves_blockKa {ps : List Part} {s0 s : State} {x1} {x2} (_hp : [.regs] ⊆ ps) (h : moves ps s0 s) :
    moves ps s0 (State.blockKa s x1 x2).1 := by
  unfold State.blockKa
  (try dsimp only)
  repeat' first
    | with_reducible assumption
    | split
    | with_reducible apply moves_bump
    | exact _hp (by decide)
    | exact List.Subset.trans (by decide) _hp
    | intro _

theorem moves_blockKa_eq {ps : List Part} {s0 s : State} {x1} {x2} (_hp : [.regs] ⊆ ps) (h : moves ps s0 s) {t v} (hq : (State.blockKa s x1 x2) = (t, v)) :
    moves ps s0 t := by
  have := moves_blockKa (x1 := x1) (x2 := x2)  _hp h
  rwa [hq] at this

theorem moves_decide35 {ps : List Part} {s0 s : State} {x1} {x2} {x3} {x4} (_hp : [.out, .regs, .scope, .fx] ⊆ ps) (h : moves ps s0 s) :
    moves ps s0 (State.decide35 s x1 x2 x3 x4).1 := by
  unfold State.decide35
  (try dsimp only)
  repeat' first
    | with_reducible assumption
    | split
    | with_reducible apply moves_bump
    | with_reducible apply moves_learnStep
    | with_reducible refine moves_learnStep_eq ?_ ?_ (by assumption)
    | with_reducible apply moves_bridgeMiss
    | with_reducible refine moves_bridgeMiss_eq ?_ ?_ (by assumption)
    | with_reducible apply moves_route
    | with_reducible refine moves_route_eq ?_ ?_ (by assumption)
    | with_reducible apply moves_bridge
    | with_reducible refine moves_bridge_eq ?_ ?_ (by assumption)
    | with_reducible apply moves_policyFirst
    | with_reducible refine moves_policyFirst_eq ?_ (by assumption)
    | with_reducible apply moves_policy
    | with_reducible refine moves_policy_eq ?_ ?_ (by assumption)
    | with_reducible apply moves_blockKa
    | with_reducible refine moves_blockKa_eq ?_ ?_ (by assumption)
    | exact _hp (by decide)
    | exact List.Subset.trans (by decide) _hp
    | intro _

theorem moves_decide35_eq {ps : List Part} {s0 s : State} {x1} {x2} {x3} {x4} (_hp : [.out, .regs, .scope, .fx] ⊆ ps) (h : moves ps s0 s) {t v} (hq : (State.decide35 s x1 x2 x3 x4) = (t, v)) :
    moves ps s0 t := by
  have := moves_decide35 (x1 := x1) (x2 := x2) (x3 := x3) (x4 := x4)  _hp h
  rwa [hq] at this

theorem moves_takeSlot {ps : List Part} {s0 s : State} {x1} (_hp : [.regs, .ob] ⊆ ps) (h : moves ps s0 s) :
    moves ps s0 (State.takeSlot s x1).1 := by
  unfold State.takeSlot
  (try dsimp only)
  repeat' first
    | with_reducible assumption
    | split
    | with_reducible apply moves_slotUsed
    | with_reducible apply moves_setRg
    | exact _hp (by decide)
    | exact List.Subset.trans (by decide) _hp
    | intro _

theorem moves_takeSlot_eq {ps : List Part} {s0 s : State} {x1} (_hp : [.regs, .ob] ⊆ ps) (h : moves ps s0 s) {t v} (hq : (State.takeSlot s x1) = (t, v)) :
    moves ps s0 t := by
  have := moves_takeSlot (x1 := x1)  _hp h
  rwa [hq] at this

theorem moves_pipelinePass {ps : List Part} {s0 s : State} {x1} {x2} (_hp : [.out, .regs, .scope, .sx, .fx, .ob] ⊆ ps) (h : moves ps s0 s) :
    moves ps s0 (State.pipelinePass s x1 x2) := by
  unfold State.pipelinePass
  (try dsimp only)
  repeat' first
    | with_reducible assumption
    | split
    | with_reducible apply moves_takeSlot
    | with_reducible refine moves_takeSlot_eq ?_ ?_ (by assumption)
    | with_reducible apply moves_blockKa
    | with_reducible refine moves_blockKa_eq ?_ ?_ (by assumption)
    | with_reducible apply moves_setFrame
    | with_reducible apply moves_classify
    | with_reducible refine moves_classify_eq ?_ ?_ (by assumption)
    | with_reducible apply moves_decide35
    | with_reducible refine moves_decide35_eq ?_ ?_ (by assumption)
    | exact _hp (by decide)
    | exact List.Subset.trans (by decide) _hp
    | intro _

theorem moves_execFxPipelinePass {ps : List Part} {s0 s : State} {x0} {x1} (_hp : [.out, .regs, .scope, .sx, .fx, .ob] ⊆ ps) (h : moves ps s0 s) :
    ∀ t, (execFxPipelinePass x0 x1 s) = .next t → moves ps s0 t := by
  unfold execFxPipelinePass
  intro t ht
  injection ht with ht; subst ht
  (try dsimp only)
  repeat' first
    | with_reducible assumption
    | split
    | with_reducible apply moves_pipelinePass
    | exact _hp (by decide)
    | exact List.Subset.trans (by decide) _hp
    | intro _

theorem moves_execSecondPass {ps : List Part} {s0 s : State} {x0} (_hp : [.out, .regs, .scope, .sx, .fx, .ob] ⊆ ps) (h : moves ps s0 s) :
    ∀ t, (execSecondPass x0 s) = .next t → moves ps s0 t := by
  unfold execSecondPass
  intro t ht
  injection ht with ht; subst ht
  (try dsimp only)
  repeat' first
    | with_reducible assumption
    | split
    | with_reducible apply moves_pipelinePass
    | exact _hp (by decide)
    | exact List.Subset.trans (by decide) _hp
    | intro _

end Sys2Proof.Machine
end

