-- ==== Sys2Proof/Laws/MovesFdb.lean ====
section
/-!
SUPPORT. What each operation of Machine/Fdb.lean can do: the parts of the state it may change, and what it keeps
(`moves`, Safety.lean). One lemma for each operation; callers cite it and do not unfold the operation.
-/

set_option linter.unusedTactic false
set_option linter.unreachableTactic false
set_option linter.unusedSimpArgs false

namespace Sys2Proof.Machine

open State

theorem moves_stampEntry {ps : List Part} {s0 s : State} {x1} {x2} {x3} (_hp : [.fx] ⊆ ps) (h : moves ps s0 s) :
    moves ps s0 (State.stampEntry s x1 x2 x3) := by
  unfold State.stampEntry
  (try dsimp only)
  repeat' first
    | with_reducible assumption
    | split
    | with_reducible apply moves_setFdb
    | exact _hp (by decide)
    | exact List.Subset.trans (by decide) _hp
    | intro _

theorem moves_limitMet {ps : List Part} {s0 s : State} {x1} {x2} (_hp : [.regs, .sx] ⊆ ps) (h : moves ps s0 s) :
    moves ps s0 (State.limitMet s x1 x2) := by
  unfold State.limitMet
  (try dsimp only)
  repeat' first
    | with_reducible assumption
    | split
    | with_reducible apply moves_bump
    | with_reducible apply moves_setDrop
    | exact _hp (by decide)
    | exact List.Subset.trans (by decide) _hp
    | intro _

theorem moves_moveEntry {ps : List Part} {s0 s : State} {x1} {x2} {x3} {x4} (_hp : [.out, .regs, .scope, .sx, .fx] ⊆ ps) (h : moves ps s0 s) :
    moves ps s0 (State.moveEntry s x1 x2 x3 x4) := by
  unfold State.moveEntry
  (try dsimp only)
  repeat' first
    | with_reducible assumption
    | split
    | with_reducible apply moves_limitMet
    | with_reducible apply moves_pmu
    | with_reducible apply moves_bump
    | with_reducible apply moves_stampEntry
    | with_reducible apply moves_forget
    | with_reducible apply moves_checkLimit
    | exact _hp (by decide)
    | exact List.Subset.trans (by decide) _hp
    | intro _

theorem moves_floodUnqueued {ps : List Part} {s0 s : State} {x1} (_hp : [.out, .regs, .scope, .sx] ⊆ ps) (h : moves ps s0 s) :
    moves ps s0 (State.floodUnqueued s x1) := by
  unfold State.floodUnqueued
  (try dsimp only)
  repeat' first
    | with_reducible assumption
    | split
    | with_reducible apply moves_bridgeMiss
    | with_reducible refine moves_bridgeMiss_eq ?_ ?_ (by assumption)
    | with_reducible apply moves_blockKa
    | with_reducible refine moves_blockKa_eq ?_ ?_ (by assumption)
    | with_reducible apply moves_setFrame
    | exact _hp (by decide)
    | exact List.Subset.trans (by decide) _hp
    | intro _

theorem moves_insertEntry {ps : List Part} {s0 s : State} {x1} {x2} (_hp : [.out, .regs, .scope, .sx, .fx] ⊆ ps) (h : moves ps s0 s) :
    moves ps s0 (State.insertEntry s x1 x2) := by
  unfold State.insertEntry
  (try dsimp only)
  repeat' first
    | with_reducible assumption
    | split
    | with_reducible apply moves_limitMet
    | with_reducible apply moves_checkLimit
    | with_reducible apply moves_pmu
    | with_reducible apply moves_setFdb
    | with_reducible apply moves_floodUnqueued
    | with_reducible apply moves_raise
    | with_reducible apply moves_bump
    | exact _hp (by decide)
    | exact List.Subset.trans (by decide) _hp
    | intro _

theorem moves_commitLearn {ps : List Part} {s0 s : State} {x1} (_hp : [.out, .regs, .scope, .sx, .fx] ⊆ ps) (h : moves ps s0 s) :
    moves ps s0 (State.commitLearn s x1) := by
  unfold State.commitLearn
  (try dsimp only)
  repeat' first
    | with_reducible assumption
    | split
    | with_reducible apply moves_stampEntry
    | with_reducible apply moves_moveEntry
    | with_reducible apply moves_insertEntry
    | exact _hp (by decide)
    | exact List.Subset.trans (by decide) _hp
    | intro _

theorem moves_showEntry {ps : List Part} {s0 s : State} {x1} (_hp : [.regs] ⊆ ps) (h : moves ps s0 s) :
    moves ps s0 (State.showEntry s x1) := by
  unfold State.showEntry
  (try dsimp only)
  repeat' first
    | with_reducible assumption
    | split
    | with_reducible apply moves_wr
    | exact _hp (by decide)
    | exact List.Subset.trans (by decide) _hp
    | intro _

theorem moves_tblStatus {ps : List Part} {s0 s : State} {x1} (_hp : [.regs] ⊆ ps) (h : moves ps s0 s) :
    moves ps s0 (State.tblStatus s x1) := by
  unfold State.tblStatus
  (try dsimp only)
  repeat' first
    | with_reducible assumption
    | split
    | with_reducible apply moves_setRg
    | exact _hp (by decide)
    | exact List.Subset.trans (by decide) _hp
    | intro _

theorem moves_tblRead {ps : List Part} {s0 s : State} {x1} (_hp : [.regs] ⊆ ps) (h : moves ps s0 s) :
    moves ps s0 (State.tblRead s x1) := by
  unfold State.tblRead
  (try dsimp only)
  repeat' first
    | with_reducible assumption
    | split
    | with_reducible apply moves_tblStatus
    | with_reducible apply moves_showEntry
    | exact _hp (by decide)
    | exact List.Subset.trans (by decide) _hp
    | intro _

theorem moves_tblSearch {ps : List Part} {s0 s : State} {x1} (_hp : [.regs] ⊆ ps) (h : moves ps s0 s) :
    moves ps s0 (State.tblSearch s x1) := by
  unfold State.tblSearch
  (try dsimp only)
  repeat' first
    | with_reducible assumption
    | split
    | with_reducible apply moves_tblStatus
    | with_reducible apply moves_setRg
    | with_reducible apply moves_showEntry
    | exact _hp (by decide)
    | exact List.Subset.trans (by decide) _hp
    | intro _

theorem moves_tblDelete {ps : List Part} {s0 s : State} {x1} (_hp : [.regs, .fx] ⊆ ps) (h : moves ps s0 s) :
    moves ps s0 (State.tblDelete s x1) := by
  unfold State.tblDelete
  (try dsimp only)
  repeat' first
    | with_reducible assumption
    | split
    | with_reducible apply moves_tblStatus
    | with_reducible apply moves_forget
    | exact _hp (by decide)
    | exact List.Subset.trans (by decide) _hp
    | intro _

theorem moves_tblFlush {ps : List Part} {s0 s : State} {x1} (_hp : [.regs, .fx] ⊆ ps) (h : moves ps s0 s) :
    moves ps s0 (State.tblFlush s x1) := by
  unfold State.tblFlush
  (try dsimp only)
  repeat' first
    | with_reducible assumption
    | split
    | with_reducible apply moves_tblStatus
    | with_reducible apply moves_forEach
    | with_reducible apply moves_forget
    | exact _hp (by decide)
    | exact List.Subset.trans (by decide) _hp
    | intro _

theorem moves_tblGo {ps : List Part} {s0 s : State} {x1} {x2} (_hp : [.resp, .regs, .fx] ⊆ ps) (h : moves ps s0 s) :
    moves ps s0 (State.tblGo s x1 x2) := by
  unfold State.tblGo
  (try dsimp only)
  repeat' first
    | with_reducible assumption
    | split
    | with_reducible apply moves_byAgent
    | with_reducible apply moves_setRg
    | with_reducible apply moves_upd_fx
    | exact _hp (by decide)
    | exact List.Subset.trans (by decide) _hp
    | intro _

theorem moves_tblRun {ps : List Part} {s0 s : State} {x1} (_hp : [.regs, .fx] ⊆ ps) (h : moves ps s0 s) :
    moves ps s0 (State.tblRun s x1) := by
  unfold State.tblRun
  (try dsimp only)
  repeat' first
    | with_reducible assumption
    | split
    | with_reducible apply moves_tblRead
    | with_reducible apply moves_tblSearch
    | with_reducible apply moves_tblDelete
    | with_reducible apply moves_tblFlush
    | exact _hp (by decide)
    | exact List.Subset.trans (by decide) _hp
    | intro _

theorem moves_execLearnCommit {ps : List Part} {s0 s : State} (_hp : [.out, .regs, .scope, .sx, .fx] ⊆ ps) (h : moves ps s0 s) :
    ∀ t, (execLearnCommit s) = .next t → moves ps s0 t := by
  unfold execLearnCommit
  intro t ht
  injection ht with ht; subst ht
  (try dsimp only)
  repeat' first
    | with_reducible assumption
    | split
    | with_reducible apply moves_commitLearn
    | with_reducible apply moves_upd_fx
    | exact _hp (by decide)
    | exact List.Subset.trans (by decide) _hp
    | intro _

theorem moves_execAgeTick {ps : List Part} {s0 s : State} (_hp : [.regs, .fx] ⊆ ps) (h : moves ps s0 s) :
    ∀ t, (execAgeTick s) = .next t → moves ps s0 t := by
  unfold execAgeTick
  intro t ht
  injection ht with ht; subst ht
  (try dsimp only)
  repeat' first
    | with_reducible assumption
    | split
    | with_reducible apply moves_tick
    | with_reducible apply moves_forEach
    | with_reducible apply moves_bump
    | with_reducible apply moves_forget
    | exact _hp (by decide)
    | exact List.Subset.trans (by decide) _hp
    | intro _

theorem moves_execPgRejoin {ps : List Part} {s0 s : State} {x0} {x1} (_hp : [.out, .regs, .scope, .fx] ⊆ ps) (h : moves ps s0 s) :
    ∀ t, (execPgRejoin x0 x1 s) = .next t → moves ps s0 t := by
  unfold execPgRejoin
  intro t ht
  injection ht with ht; subst ht
  (try dsimp only)
  repeat' first
    | with_reducible assumption
    | split
    | with_reducible apply moves_only
    | with_reducible apply moves_pgRejoin
    | exact _hp (by decide)
    | exact List.Subset.trans (by decide) _hp
    | intro _

theorem moves_execFrerReset {ps : List Part} {s0 s : State} {x0} (_hp : [.out, .regs, .scope, .fx] ⊆ ps) (h : moves ps s0 s) :
    ∀ t, (execFrerReset x0 s) = .next t → moves ps s0 t := by
  unfold execFrerReset
  intro t ht
  injection ht with ht; subst ht
  (try dsimp only)
  repeat' first
    | with_reducible assumption
    | split
    | with_reducible apply moves_raise
    | with_reducible apply moves_bump
    | with_reducible apply moves_upd_fx
    | exact _hp (by decide)
    | exact List.Subset.trans (by decide) _hp
    | intro _

theorem moves_execFdbRead {ps : List Part} {s0 s : State} {x0} (_hp : [.resp, .regs, .fx] ⊆ ps) (h : moves ps s0 s) :
    ∀ t, (execFdbRead x0 s) = .next t → moves ps s0 t := by
  unfold execFdbRead
  intro t ht
  injection ht with ht; subst ht
  (try dsimp only)
  repeat' first
    | with_reducible assumption
    | split
    | with_reducible apply moves_tblGo
    | exact _hp (by decide)
    | exact List.Subset.trans (by decide) _hp
    | intro _

theorem moves_execFdbSearch {ps : List Part} {s0 s : State} {x0} (_hp : [.resp, .regs, .fx] ⊆ ps) (h : moves ps s0 s) :
    ∀ t, (execFdbSearch x0 s) = .next t → moves ps s0 t := by
  unfold execFdbSearch
  intro t ht
  injection ht with ht; subst ht
  (try dsimp only)
  repeat' first
    | with_reducible assumption
    | split
    | with_reducible apply moves_tblGo
    | exact _hp (by decide)
    | exact List.Subset.trans (by decide) _hp
    | intro _

theorem moves_execFdbDelete {ps : List Part} {s0 s : State} {x0} (_hp : [.resp, .regs, .fx] ⊆ ps) (h : moves ps s0 s) :
    ∀ t, (execFdbDelete x0 s) = .next t → moves ps s0 t := by
  unfold execFdbDelete
  intro t ht
  injection ht with ht; subst ht
  (try dsimp only)
  repeat' first
    | with_reducible assumption
    | split
    | with_reducible apply moves_tblGo
    | exact _hp (by decide)
    | exact List.Subset.trans (by decide) _hp
    | intro _

theorem moves_execFdbFlush {ps : List Part} {s0 s : State} {x0} (_hp : [.resp, .regs, .fx] ⊆ ps) (h : moves ps s0 s) :
    ∀ t, (execFdbFlush x0 s) = .next t → moves ps s0 t := by
  unfold execFdbFlush
  intro t ht
  injection ht with ht; subst ht
  (try dsimp only)
  repeat' first
    | with_reducible assumption
    | split
    | with_reducible apply moves_tblGo
    | exact _hp (by decide)
    | exact List.Subset.trans (by decide) _hp
    | intro _

theorem moves_execFdbOpDone {ps : List Part} {s0 s : State} (_hp : [.out, .regs, .scope, .fx] ⊆ ps) (h : moves ps s0 s) :
    ∀ t, (execFdbOpDone s) = .next t → moves ps s0 t := by
  unfold execFdbOpDone
  intro t ht
  injection ht with ht; subst ht
  (try dsimp only)
  repeat' first
    | with_reducible assumption
    | split
    | with_reducible apply moves_raise
    | with_reducible apply moves_setRg
    | with_reducible apply moves_tblRun
    | with_reducible apply moves_upd_fx
    | exact _hp (by decide)
    | exact List.Subset.trans (by decide) _hp
    | intro _

end Sys2Proof.Machine
end

