-- ==== Sys2Proof/Laws/MovesFold.lean ====
section
/-!
SUPPORT. What each operation of Machine/Fold.lean can do: the parts of the state it may change, and what it keeps
(`moves`, Safety.lean). One lemma for each operation; callers cite it and do not unfold the operation.
-/

set_option linter.unusedTactic false
set_option linter.unreachableTactic false
set_option linter.unusedSimpArgs false

namespace Sys2Proof.Machine

open State

theorem moves_execKeepaliveRecognised {ps : List Part} {s0 s : State} {x0} (_hp : [.out, .regs, .scope, .pw, .ob, .aon] ⊆ ps) (h : moves ps s0 s) :
    ∀ t, (execKeepaliveRecognised x0 s) = .next t → moves ps s0 t := by
  unfold execKeepaliveRecognised
  intro t ht
  injection ht with ht; subst ht
  (try dsimp only)
  repeat' first
    | with_reducible assumption
    | split
    | with_reducible apply moves_kaTake
    | exact _hp (by decide)
    | exact List.Subset.trans (by decide) _hp
    | intro _

theorem moves_execKeepaliveTx {ps : List Part} {s0 s : State} {x0} (_hp : [.freeN, .out, .regs, .scope, .pw, .sx, .fx, .ob, .bx, .aon, .cx, .mx] ⊆ ps) (h : moves ps s0 s) :
    ∀ t, (execKeepaliveTx x0 s) = .next t → moves ps s0 t := by
  unfold execKeepaliveTx
  intro t ht
  injection ht with ht; subst ht
  (try dsimp only)
  repeat' first
    | with_reducible assumption
    | split
    | with_reducible apply moves_talk
    | with_reducible apply moves_forEach
    | with_reducible apply moves_kaEthernet
    | with_reducible apply moves_kaCan
    | exact _hp (by decide)
    | exact List.Subset.trans (by decide) _hp
    | intro _

theorem moves_execFoldCommit {ps : List Part} {s0 s : State} {x0} (_hp : [.regs, .aon] ⊆ ps) (h : moves ps s0 s) :
    ∀ t, (execFoldCommit x0 s) = .next t → moves ps s0 t := by
  unfold execFoldCommit
  intro t ht
  injection ht with ht; subst ht
  (try dsimp only)
  repeat' first
    | with_reducible assumption
    | split
    | with_reducible apply moves_only
    | with_reducible apply moves_chsJudge
    | with_reducible apply moves_setSd
    | exact _hp (by decide)
    | exact List.Subset.trans (by decide) _hp
    | intro _

theorem moves_execFoldComplete {ps : List Part} {s0 s : State} {x0} (_hp : [.out, .regs, .scope, .pw, .aon] ⊆ ps) (h : moves ps s0 s) :
    ∀ t, (execFoldComplete x0 s) = .next t → moves ps s0 t := by
  unfold execFoldComplete
  intro t ht
  injection ht with ht; subst ht
  (try dsimp only)
  repeat' first
    | with_reducible assumption
    | split
    | with_reducible apply moves_only
    | with_reducible apply moves_raisePw
    | with_reducible apply moves_chsJudge
    | with_reducible apply moves_bump
    | with_reducible apply moves_setSd
    | with_reducible apply moves_modeAuto
    | with_reducible apply moves_sdWake
    | with_reducible apply moves_upd_pw
    | exact _hp (by decide)
    | exact List.Subset.trans (by decide) _hp
    | intro _

theorem moves_execDomainWake {ps : List Part} {s0 s : State} {x0} {x1} {x2} (_hp : [.out, .regs, .scope, .pw, .ob, .aon] ⊆ ps) (h : moves ps s0 s) :
    ∀ t, (execDomainWake x0 x1 x2 s) = .next t → moves ps s0 t := by
  unfold execDomainWake
  intro t ht
  injection ht with ht; subst ht
  (try dsimp only)
  repeat' first
    | with_reducible assumption
    | split
    | with_reducible apply moves_only
    | with_reducible apply moves_sdWake
    | with_reducible apply moves_wake
    | exact _hp (by decide)
    | exact List.Subset.trans (by decide) _hp
    | intro _

theorem moves_execWakeInActive {ps : List Part} {s0 s : State} {x0} (_hp : [.out, .regs, .scope, .pw, .ob, .aon] ⊆ ps) (h : moves ps s0 s) :
    ∀ t, (execWakeInActive x0 s) = .next t → moves ps s0 t := by
  unfold execWakeInActive
  intro t ht
  injection ht with ht; subst ht
  (try dsimp only)
  repeat' first
    | with_reducible assumption
    | split
    | with_reducible apply moves_wake
    | exact _hp (by decide)
    | exact List.Subset.trans (by decide) _hp
    | intro _

theorem moves_execCanWufReceived {ps : List Part} {s0 s : State} {x0} {x1} {x2} (_hp : [.out, .regs, .scope, .pw, .ob, .aon] ⊆ ps) (h : moves ps s0 s) :
    ∀ t, (execCanWufReceived x0 x1 x2 s) = .next t → moves ps s0 t := by
  unfold execCanWufReceived
  intro t ht
  injection ht with ht; subst ht
  (try dsimp only)
  repeat' first
    | with_reducible assumption
    | split
    | with_reducible apply moves_wake
    | exact _hp (by decide)
    | exact List.Subset.trans (by decide) _hp
    | intro _

theorem moves_execCanKaWake {ps : List Part} {s0 s : State} {x0} {x1} {x2} (_hp : [.out, .regs, .scope, .pw, .ob, .aon] ⊆ ps) (h : moves ps s0 s) :
    ∀ t, (execCanKaWake x0 x1 x2 s) = .next t → moves ps s0 t := by
  unfold execCanKaWake
  intro t ht
  injection ht with ht; subst ht
  (try dsimp only)
  repeat' first
    | with_reducible assumption
    | split
    | with_reducible apply moves_wake
    | exact _hp (by decide)
    | exact List.Subset.trans (by decide) _hp
    | intro _

theorem moves_execT1sEnergy {ps : List Part} {s0 s : State} {x0} (_hp : [.out, .regs, .scope, .pw, .ob, .aon] ⊆ ps) (h : moves ps s0 s) :
    ∀ t, (execT1sEnergy x0 s) = .next t → moves ps s0 t := by
  unfold execT1sEnergy
  intro t ht
  injection ht with ht; subst ht
  (try dsimp only)
  repeat' first
    | with_reducible assumption
    | split
    | with_reducible apply moves_wake
    | exact _hp (by decide)
    | exact List.Subset.trans (by decide) _hp
    | intro _

theorem moves_execFoldCmdWake {ps : List Part} {s0 s : State} {x0} {x1} (_hp : [.out, .resp, .regs, .scope, .pw, .ob, .aon] ⊆ ps) (h : moves ps s0 s) :
    ∀ t, (execFoldCmdWake x0 x1 s) = .next t → moves ps s0 t := by
  unfold execFoldCmdWake
  intro t ht
  injection ht with ht; subst ht
  (try dsimp only)
  repeat' first
    | with_reducible assumption
    | split
    | with_reducible apply moves_byAgent
    | with_reducible apply moves_wake
    | exact _hp (by decide)
    | exact List.Subset.trans (by decide) _hp
    | intro _

theorem moves_execFoldCmdForgive {ps : List Part} {s0 s : State} {x0} {x1} (_hp : [.freeN, .out, .resp, .regs, .scope, .pw, .sx, .fx, .ob, .aon, .cx, .mx] ⊆ ps) (h : moves ps s0 s) :
    ∀ t, (execFoldCmdForgive x0 x1 s) = .next t → moves ps s0 t := by
  unfold execFoldCmdForgive
  intro t ht
  injection ht with ht; subst ht
  (try dsimp only)
  repeat' first
    | with_reducible assumption
    | split
    | with_reducible apply moves_byAgent
    | with_reducible apply moves_foldJudge
    | with_reducible apply moves_chsJudge
    | with_reducible apply moves_setSd
    | exact _hp (by decide)
    | exact List.Subset.trans (by decide) _hp
    | intro _

theorem moves_execFoldNeedWrite {ps : List Part} {s0 s : State} {x0} {x1} (_hp : [.freeN, .out, .resp, .regs, .scope, .pw, .sx, .fx, .ob, .aon, .cx, .mx] ⊆ ps) (h : moves ps s0 s) :
    ∀ t, (execFoldNeedWrite x0 x1 s) = .next t → moves ps s0 t := by
  unfold execFoldNeedWrite
  intro t ht
  injection ht with ht; subst ht
  (try dsimp only)
  repeat' first
    | with_reducible assumption
    | split
    | with_reducible apply moves_byAgent
    | with_reducible apply moves_foldsJudge
    | with_reducible apply moves_validate
    | with_reducible apply moves_setRg
    | exact _hp (by decide)
    | exact List.Subset.trans (by decide) _hp
    | intro _

theorem moves_execWakeHoldEnd {ps : List Part} {s0 s : State} {x0} (_hp : [.freeN, .out, .regs, .scope, .pw, .sx, .fx, .ob, .aon, .cx, .mx] ⊆ ps) (h : moves ps s0 s) :
    ∀ t, (execWakeHoldEnd x0 s) = .next t → moves ps s0 t := by
  unfold execWakeHoldEnd
  intro t ht
  injection ht with ht; subst ht
  (try dsimp only)
  repeat' first
    | with_reducible assumption
    | split
    | with_reducible apply moves_only
    | with_reducible apply moves_foldJudge
    | with_reducible apply moves_setSd
    | exact _hp (by decide)
    | exact List.Subset.trans (by decide) _hp
    | intro _

theorem moves_markRecord {ps : List Part} {s0 s : State} {x1} {x2} (_hp : [.regs] ⊆ ps) (h : moves ps s0 s) :
    moves ps s0 (markRecord s x1 x2) := by
  unfold markRecord
  (try dsimp only)
  repeat' first
    | with_reducible assumption
    | split
    | with_reducible apply moves_setRg
    | exact _hp (by decide)
    | exact List.Subset.trans (by decide) _hp
    | intro _

theorem moves_countFalse {ps : List Part} {s0 s : State} {x1} (_hp : [.out, .regs, .scope, .aon] ⊆ ps) (h : moves ps s0 s) :
    moves ps s0 (countFalse s x1) := by
  unfold countFalse
  (try dsimp only)
  repeat' first
    | with_reducible assumption
    | split
    | with_reducible apply moves_raisePw
    | with_reducible apply moves_setRg
    | with_reducible apply moves_upd_aon
    | exact _hp (by decide)
    | exact List.Subset.trans (by decide) _hp
    | intro _

theorem moves_execWakeValidityDecision {ps : List Part} {s0 s : State} {x0} (_hp : [.out, .regs, .scope, .aon] ⊆ ps) (h : moves ps s0 s) :
    ∀ t, (execWakeValidityDecision x0 s) = .next t → moves ps s0 t := by
  unfold execWakeValidityDecision
  intro t ht
  injection ht with ht; subst ht
  (try dsimp only)
  repeat' first
    | with_reducible assumption
    | split
    | with_reducible apply moves_only
    | with_reducible apply moves_markRecord
    | with_reducible apply moves_setRg
    | with_reducible apply moves_raisePw
    | with_reducible apply moves_tick
    | with_reducible apply moves_countFalse
    | with_reducible apply moves_upd_aon
    | exact _hp (by decide)
    | exact List.Subset.trans (by decide) _hp
    | intro _

theorem moves_execWakeMaskEnd {ps : List Part} {s0 s : State} {x0} (_hp : [.regs] ⊆ ps) (h : moves ps s0 s) :
    ∀ t, (execWakeMaskEnd x0 s) = .next t → moves ps s0 t := by
  unfold execWakeMaskEnd
  intro t ht
  injection ht with ht; subst ht
  (try dsimp only)
  repeat' first
    | with_reducible assumption
    | split
    | with_reducible apply moves_only
    | with_reducible apply moves_setRg
    | exact _hp (by decide)
    | exact List.Subset.trans (by decide) _hp
    | intro _

theorem moves_execOverstayA {ps : List Part} {s0 s : State} {x0} (_hp : [.out, .regs, .scope, .ob, .aon] ⊆ ps) (h : moves ps s0 s) :
    ∀ t, (execOverstayA x0 s) = .next t → moves ps s0 t := by
  unfold execOverstayA
  intro t ht
  injection ht with ht; subst ht
  (try dsimp only)
  repeat' first
    | with_reducible assumption
    | split
    | with_reducible apply moves_raisePw
    | with_reducible apply moves_overstayRecords
    | exact _hp (by decide)
    | exact List.Subset.trans (by decide) _hp
    | intro _

theorem moves_execOverstayB {ps : List Part} {s0 s : State} {x0} (_hp : [.out, .regs, .scope, .ob, .aon] ⊆ ps) (h : moves ps s0 s) :
    ∀ t, (execOverstayB x0 s) = .next t → moves ps s0 t := by
  unfold execOverstayB
  intro t ht
  injection ht with ht; subst ht
  (try dsimp only)
  repeat' first
    | with_reducible assumption
    | split
    | with_reducible apply moves_chsJudge
    | with_reducible apply moves_setSd
    | with_reducible apply moves_raisePw
    | with_reducible apply moves_overstayRecords
    | exact _hp (by decide)
    | exact List.Subset.trans (by decide) _hp
    | intro _

theorem moves_execRtcSet {ps : List Part} {s0 s : State} (_hp : [.pw, .aon] ⊆ ps) (h : moves ps s0 s) :
    ∀ t, (execRtcSet s) = .next t → moves ps s0 t := by
  unfold execRtcSet
  intro t ht
  injection ht with ht; subst ht
  (try dsimp only)
  repeat' first
    | with_reducible assumption
    | split
    | with_reducible apply moves_only
    | with_reducible apply moves_upd_pw_aon
    | exact _hp (by decide)
    | exact List.Subset.trans (by decide) _hp
    | intro _

theorem moves_execRtcAlarm {ps : List Part} {s0 s : State} (_hp : [.out, .regs, .scope, .pw, .ob, .aon] ⊆ ps) (h : moves ps s0 s) :
    ∀ t, (execRtcAlarm s) = .next t → moves ps s0 t := by
  unfold execRtcAlarm
  intro t ht
  injection ht with ht; subst ht
  (try dsimp only)
  repeat' first
    | with_reducible assumption
    | split
    | with_reducible apply moves_only
    | with_reducible apply moves_wake
    | with_reducible apply moves_setRg
    | exact _hp (by decide)
    | exact List.Subset.trans (by decide) _hp
    | intro _

end Sys2Proof.Machine
end

