-- ==== Sys2Proof/Laws/MovesGwOps.lean ====
section
/-!
SUPPORT. What each operation of Machine/GwOps.lean can do: the parts of the state it may change, and what it keeps
(`moves`, Safety.lean). One lemma for each operation; callers cite it and do not unfold the operation.
-/

set_option linter.unusedTactic false
set_option linter.unreachableTactic false
set_option linter.unusedSimpArgs false

namespace Sys2Proof.Machine

open State

theorem moves_gwEvent {ps : List Part} {s0 s : State} {x1} {x2} {x3} (_hp : [.out, .regs, .scope] ⊆ ps) (h : moves ps s0 s) :
    moves ps s0 (State.gwEvent s x1 x2 x3) := by
  unfold State.gwEvent
  (try dsimp only)
  repeat' first
    | with_reducible assumption
    | split
    | with_reducible apply moves_setRg
    | with_reducible apply moves_raise
    | exact _hp (by decide)
    | exact List.Subset.trans (by decide) _hp
    | intro _

theorem moves_badAcf {ps : List Part} {s0 s : State} {x1} {x2} (_hp : [.out, .regs, .scope] ⊆ ps) (h : moves ps s0 s) :
    moves ps s0 (State.badAcf s x1 x2) := by
  unfold State.badAcf
  (try dsimp only)
  repeat' first
    | with_reducible assumption
    | split
    | with_reducible apply moves_gwEvent
    | with_reducible apply moves_bump
    | exact _hp (by decide)
    | exact List.Subset.trans (by decide) _hp
    | intro _

theorem moves_setOpenUp {ps : List Part} {s0 s : State} {x1} {x2} (_hp : [.bx] ⊆ ps) (h : moves ps s0 s) :
    moves ps s0 (State.setOpenUp s x1 x2) := by
  unfold State.setOpenUp
  (try dsimp only)
  repeat' first
    | with_reducible assumption
    | split
    | with_reducible apply moves_upd_bx
    | exact _hp (by decide)
    | exact List.Subset.trans (by decide) _hp
    | intro _

theorem moves_closeUp {ps : List Part} {s0 s : State} {x1} {x2} (_hp : [.out, .regs, .scope, .bx] ⊆ ps) (h : moves ps s0 s) :
    moves ps s0 (State.closeUp s x1 x2) := by
  unfold State.closeUp
  (try dsimp only)
  repeat' first
    | with_reducible assumption
    | split
    | with_reducible apply moves_setOpenUp
    | with_reducible apply moves_pqOffer
    | with_reducible apply moves_upd_bx
    | exact _hp (by decide)
    | exact List.Subset.trans (by decide) _hp
    | intro _

theorem moves_gwAdd {ps : List Part} {s0 s : State} {x1} {x2} {x3} {x4} {x5} {x6} (_hp : [.out, .regs, .scope, .bx] ⊆ ps) (h : moves ps s0 s) :
    moves ps s0 (State.gwAdd s x1 x2 x3 x4 x5 x6) := by
  unfold State.gwAdd
  extract_lets dead full s1 o' s2
  have h1 : moves ps s0 s1 := by
    unfold s1
    split
    · exact moves_ite (moves_closeUp (List.Subset.trans (by decide) _hp) h) h
    · exact h
  have h2 : moves ps s0 s2 := moves_setOpenUp (List.Subset.trans (by decide) _hp) h1
  exact moves_ite (moves_closeUp (List.Subset.trans (by decide) _hp) h2) h2

theorem moves_gwTime {ps : List Part} {s0 s : State} {x1} (_hp : [.freeN] ⊆ ps) (h : moves ps s0 s) :
    moves ps s0 (State.gwTime s x1).1 := by
  unfold State.gwTime
  (try dsimp only)
  repeat' first
    | with_reducible assumption
    | split
    | with_reducible apply moves_useFree
    | exact _hp (by decide)
    | exact List.Subset.trans (by decide) _hp
    | intro _

theorem moves_gwTime_eq {ps : List Part} {s0 s : State} {x1} (_hp : [.freeN] ⊆ ps) (h : moves ps s0 s) {t v} (hq : (State.gwTime s x1) = (t, v)) :
    moves ps s0 t := by
  have := moves_gwTime (x1 := x1)  _hp h
  rwa [hq] at this

theorem moves_gwTarget {ps : List Part} {s0 s : State} {x1} {x2} {x3} {x4} {x5} {x6} (_hp : [.out, .regs, .scope, .pw, .ob, .bx, .aon] ⊆ ps) (hf6 : ∀ y0, moves ps s0 y0 → moves ps s0 (x6 y0)) (h : moves ps s0 s) :
    moves ps s0 (State.gwTarget s x1 x2 x3 x4 x5 x6).1 := by
  unfold State.gwTarget
  (try dsimp only)
  repeat' first
    | with_reducible assumption
    | split
    | with_reducible apply hf6
    | with_reducible apply moves_bump
    | with_reducible apply moves_gwEvent
    | with_reducible apply moves_canReq
    | with_reducible apply moves_canCancel
    | exact _hp (by decide)
    | exact List.Subset.trans (by decide) _hp
    | intro _

theorem moves_gwTarget_eq {ps : List Part} {s0 s : State} {x1} {x2} {x3} {x4} {x5} {x6} (_hp : [.out, .regs, .scope, .pw, .ob, .bx, .aon] ⊆ ps) (hf6 : ∀ y0, moves ps s0 y0 → moves ps s0 (x6 y0)) (h : moves ps s0 s) {t v} (hq : (State.gwTarget s x1 x2 x3 x4 x5 x6) = (t, v)) :
    moves ps s0 t := by
  have := moves_gwTarget (x1 := x1) (x2 := x2) (x3 := x3) (x4 := x4) (x5 := x5) (x6 := x6)  _hp hf6 h
  rwa [hq] at this

theorem moves_gwWriteFrame {ps : List Part} {s0 s : State} {x1} {x2} {x3} (_hp : [.regs, .bx] ⊆ ps) (h : moves ps s0 s) :
    moves ps s0 (State.gwWriteFrame s x1 x2 x3) := by
  unfold State.gwWriteFrame
  (try dsimp only)
  repeat' first
    | with_reducible assumption
    | split
    | with_reducible apply moves_putData
    | with_reducible apply moves_putHeader
    | exact _hp (by decide)
    | exact List.Subset.trans (by decide) _hp
    | intro _

theorem moves_gwWritePdu {ps : List Part} {s0 s : State} {x1} {x2} {x3} {x4} {x5} (_hp : [.freeN, .regs, .bx] ⊆ ps) (h : moves ps s0 s) :
    moves ps s0 (State.gwWritePdu s x1 x2 x3 x4 x5) := by
  unfold State.gwWritePdu
  (try dsimp only)
  repeat' first
    | with_reducible assumption
    | split
    | with_reducible apply moves_putData
    | with_reducible apply moves_wr
    | with_reducible apply moves_useFree
    | exact _hp (by decide)
    | exact List.Subset.trans (by decide) _hp
    | intro _

theorem moves_upCopy {ps : List Part} {s0 s : State} {x1} {x2} (_hp : [.out, .regs, .scope, .pw, .ob, .bx, .aon] ⊆ ps) (h : moves ps s0 s) :
    moves ps s0 (State.upCopy s x1 x2) := by
  unfold State.upCopy
  (try dsimp only)
  repeat' first
    | with_reducible assumption
    | split
    | with_reducible apply moves_bump
    | with_reducible apply moves_gwTarget
    | with_reducible refine moves_gwTarget_eq ?_ ?_ ?_ (by assumption)
    | with_reducible apply moves_gwWriteFrame
    | exact _hp (by decide)
    | exact List.Subset.trans (by decide) _hp
    | intro _

theorem moves_upSend {ps : List Part} {s0 s : State} {x1} {x2} {x3} {x4} (_hp : [.freeN, .out, .regs, .scope, .bx] ⊆ ps) (h : moves ps s0 s) :
    moves ps s0 (State.upSend s x1 x2 x3 x4) := by
  unfold State.upSend
  (try dsimp only)
  repeat' first
    | with_reducible assumption
    | split
    | with_reducible apply moves_gwTime
    | with_reducible refine moves_gwTime_eq ?_ ?_ (by assumption)
    | with_reducible apply moves_bump
    | with_reducible apply moves_gwAdd
    | exact _hp (by decide)
    | exact List.Subset.trans (by decide) _hp
    | intro _

theorem moves_upFrame {ps : List Part} {s0 s : State} {x1} {x2} {x3} {x4} (_hp : [.freeN, .out, .regs, .scope, .pw, .ob, .bx, .aon] ⊆ ps) (h : moves ps s0 s) :
    moves ps s0 (State.upFrame s x1 x2 x3 x4) := by
  unfold State.upFrame
  (try dsimp only)
  repeat' first
    | with_reducible assumption
    | split
    | with_reducible apply moves_bump
    | with_reducible apply moves_canAck
    | with_reducible apply moves_gwEvent
    | with_reducible apply moves_msgRamEcc
    | with_reducible apply moves_setOpenUp
    | with_reducible apply moves_upSend
    | with_reducible apply moves_upCopy
    | exact _hp (by decide)
    | exact List.Subset.trans (by decide) _hp
    | intro _

theorem moves_downMsg {ps : List Part} {s0 s : State} {x1} {x2} {x3} {x4} (_hp : [.freeN, .out, .regs, .scope, .pw, .ob, .bx, .aon] ⊆ ps) (h : moves ps s0 s) :
    moves ps s0 (State.downMsg s x1 x2 x3 x4) := by
  unfold State.downMsg
  (try dsimp only)
  repeat' first
    | with_reducible assumption
    | split
    | with_reducible apply moves_badAcf
    | with_reducible apply moves_gwEvent
    | with_reducible apply moves_bump
    | with_reducible apply moves_gwTarget
    | with_reducible refine moves_gwTarget_eq ?_ ?_ ?_ (by assumption)
    | with_reducible apply moves_gwWriteFrame
    | with_reducible apply moves_gwWritePdu
    | exact _hp (by decide)
    | exact List.Subset.trans (by decide) _hp
    | intro _

theorem moves_downMsgs {ps : List Part} {s0 s : State} {x1} {x2} {x3} {x4} (_hp : [.freeN, .out, .regs, .scope, .pw, .ob, .bx, .aon] ⊆ ps) (h : moves ps s0 s) :
    moves ps s0 (State.downMsgs s x1 x2 x3 x4) := by
  induction x4 generalizing s x3 with
  | nil =>
    unfold State.downMsgs
    (try dsimp only)
    repeat' first
      | with_reducible assumption
      | with_reducible apply moves_downMsg
      | split
      | exact _hp (by decide)
      | exact List.Subset.trans (by decide) _hp
  | cons a l ih =>
    unfold State.downMsgs
    (try dsimp only)
    repeat' first
      | with_reducible assumption
      | with_reducible apply ih
      | with_reducible apply moves_downMsg
      | split
      | exact _hp (by decide)
      | exact List.Subset.trans (by decide) _hp


theorem moves_sealNoCtx {ps : List Part} {s0 s : State} {x1} {x2} {x3} (_hp : [.out, .regs, .scope] ⊆ ps) (h : moves ps s0 s) :
    moves ps s0 (State.sealNoCtx s x1 x2 x3) := by
  unfold State.sealNoCtx
  (try dsimp only)
  repeat' first
    | with_reducible assumption
    | split
    | with_reducible apply moves_gwEvent
    | with_reducible apply moves_ctxDropCount
    | with_reducible apply moves_bump
    | exact _hp (by decide)
    | exact List.Subset.trans (by decide) _hp
    | intro _

theorem moves_sealAsk {ps : List Part} {s0 s : State} {x1} {x2} (_hp : [.out, .regs, .scope, .ce] ⊆ ps) (h : moves ps s0 s) :
    moves ps s0 (State.sealAsk s x1 x2).1 := by
  unfold State.sealAsk
  (try dsimp only)
  repeat' first
    | with_reducible assumption
    | split
    | with_reducible apply moves_ctxAsk
    | with_reducible refine moves_ctxAsk_eq ?_ ?_ (by assumption)
    | exact _hp (by decide)
    | exact List.Subset.trans (by decide) _hp
    | intro _

theorem moves_sealAsk_eq {ps : List Part} {s0 s : State} {x1} {x2} (_hp : [.out, .regs, .scope, .ce] ⊆ ps) (h : moves ps s0 s) {t v} (hq : (State.sealAsk s x1 x2) = (t, v)) :
    moves ps s0 t := by
  have := moves_sealAsk (x1 := x1) (x2 := x2)  _hp h
  rwa [hq] at this

theorem moves_sealCheck {ps : List Part} {s0 s : State} {x1} {x2} {x3} (_hp : [.out, .regs, .scope, .sx, .fx, .ce] ⊆ ps) (h : moves ps s0 s) :
    moves ps s0 (State.sealCheck s x1 x2 x3) := by
  unfold State.sealCheck
  (try dsimp only)
  repeat' first
    | with_reducible assumption
    | split
    | with_reducible apply moves_ceReject
    | with_reducible apply moves_gwEvent
    | with_reducible apply moves_bump
    | with_reducible apply moves_sealAsk
    | with_reducible refine moves_sealAsk_eq ?_ ?_ (by assumption)
    | with_reducible apply moves_sealNoCtx
    | with_reducible apply moves_pmu
    | with_reducible apply moves_cePassed
    | with_reducible apply moves_ctxCount
    | with_reducible apply moves_setRg
    | exact _hp (by decide)
    | exact List.Subset.trans (by decide) _hp
    | intro _

theorem moves_sealOne {ps : List Part} {s0 s : State} {x1} {x2} {x3} {x4} (_hp : [.out, .regs, .scope, .sx, .ob, .ce, .cx, .mx] ⊆ ps) (h : moves ps s0 s) :
    moves ps s0 (State.sealOne s x1 x2 x3 x4) := by
  unfold State.sealOne
  (try dsimp only)
  repeat' first
    | with_reducible assumption
    | split
    | with_reducible apply moves_sealAsk
    | with_reducible refine moves_sealAsk_eq ?_ ?_ (by assumption)
    | with_reducible apply moves_dropCopy
    | with_reducible apply moves_setTx
    | with_reducible apply moves_sealNoCtx
    | with_reducible apply moves_ctxCount
    | with_reducible apply moves_tick
    | with_reducible apply moves_pmu
    | exact _hp (by decide)
    | exact List.Subset.trans (by decide) _hp
    | intro _

end Sys2Proof.Machine
end

