-- ==== Sys2Proof/Laws/MovesGateway.lean ====
section
/-!
SUPPORT. What each operation of Machine/Gateway.lean can do: the parts of the state it may change, and what it keeps
(`moves`, Safety.lean). One lemma for each operation; callers cite it and do not unfold the operation.
-/

set_option linter.unusedTactic false
set_option linter.unreachableTactic false
set_option linter.unusedSimpArgs false

namespace Sys2Proof.Machine

open State

theorem moves_execGwRouteLookup {ps : List Part} {s0 s : State} {x0} {x1} {x2} (_hp : [.freeN, .out, .regs, .scope, .pw, .ob, .bx, .aon] ⊆ ps) (h : moves ps s0 s) :
    ∀ t, (execGwRouteLookup x0 x1 x2 s) = .next t → moves ps s0 t := by
  unfold execGwRouteLookup
  intro t ht
  injection ht with ht; subst ht
  (try dsimp only)
  repeat' first
    | with_reducible assumption
    | split
    | with_reducible apply moves_only
    | with_reducible apply moves_upFrame
    | with_reducible apply moves_setCan
    | exact _hp (by decide)
    | exact List.Subset.trans (by decide) _hp
    | intro _

theorem moves_execGwHoldDeadline {ps : List Part} {s0 s : State} {x0} (_hp : [.out, .regs, .scope, .bx] ⊆ ps) (h : moves ps s0 s) :
    ∀ t, (execGwHoldDeadline x0 s) = .next t → moves ps s0 t := by
  unfold execGwHoldDeadline
  intro t ht
  injection ht with ht; subst ht
  (try dsimp only)
  repeat' first
    | with_reducible assumption
    | split
    | with_reducible apply moves_only
    | with_reducible apply moves_closeUp
    | exact _hp (by decide)
    | exact List.Subset.trans (by decide) _hp
    | intro _

theorem moves_execPqCommit {ps : List Part} {s0 s : State} {x0} (_hp : [.out, .regs, .shadow, .scope, .sv, .sx, .fx, .ob, .bx, .cx, .mx] ⊆ ps) (h : moves ps s0 s) :
    ∀ t, (execPqCommit x0 s) = .next t → moves ps s0 t := by
  unfold execPqCommit
  intro t ht
  injection ht with ht; subst ht
  (try dsimp only)
  repeat' first
    | with_reducible assumption
    | split
    | with_reducible apply moves_drainDone
    | with_reducible apply moves_only
    | with_reducible apply moves_bump
    | with_reducible apply moves_setPq
    | with_reducible apply moves_csuSee
    | with_reducible apply moves_bump64
    | with_reducible apply moves_copyGone
    | with_reducible apply moves_pegDone
    | with_reducible apply moves_setTx
    | with_reducible apply moves_pqNext
    | exact _hp (by decide)
    | exact List.Subset.trans (by decide) _hp
    | intro _

theorem moves_execPqRewind {ps : List Part} {s0 s : State} {x0} (_hp : [.out, .regs, .scope, .sx, .ob, .bx, .cx, .mx] ⊆ ps) (h : moves ps s0 s) :
    ∀ t, (execPqRewind x0 s) = .next t → moves ps s0 t := by
  unfold execPqRewind
  intro t ht
  injection ht with ht; subst ht
  (try dsimp only)
  repeat' first
    | with_reducible assumption
    | split
    | with_reducible apply moves_only
    | with_reducible apply moves_dropCopy
    | with_reducible apply moves_bump
    | with_reducible apply moves_setTx
    | with_reducible apply moves_p38Rewind
    | exact _hp (by decide)
    | exact List.Subset.trans (by decide) _hp
    | intro _

theorem moves_execPqUpRead {ps : List Part} {s0 s : State} {x0} {x1} (_hp : [.freeN, .out, .regs, .scope, .pw, .sx, .fx, .ob, .bx, .aon, .cx, .mx] ⊆ ps) (h : moves ps s0 s) :
    ∀ t, (execPqUpRead x0 x1 s) = .next t → moves ps s0 t := by
  unfold execPqUpRead
  intro t ht
  injection ht with ht; subst ht
  (try dsimp only)
  repeat' first
    | with_reducible assumption
    | split
    | with_reducible apply moves_only
    | with_reducible apply moves_bump
    | with_reducible apply moves_enterWhole
    | with_reducible apply moves_pqTake
    | exact _hp (by decide)
    | exact List.Subset.trans (by decide) _hp
    | intro _

theorem moves_execPqDownWrite {ps : List Part} {s0 s : State} {x0} (_hp : [.out, .regs, .scope, .sx, .ob, .bx, .cx, .mx] ⊆ ps) (h : moves ps s0 s) :
    ∀ t, (execPqDownWrite x0 s) = .next t → moves ps s0 t := by
  unfold execPqDownWrite
  intro t ht
  injection ht with ht; subst ht
  (try dsimp only)
  repeat' first
    | with_reducible assumption
    | split
    | with_reducible apply moves_only
    | with_reducible apply moves_dropCopy
    | with_reducible apply moves_bump
    | with_reducible apply moves_setTx
    | with_reducible apply moves_setPq
    | exact _hp (by decide)
    | exact List.Subset.trans (by decide) _hp
    | intro _

theorem moves_execGwDownPacket {ps : List Part} {s0 s : State} {x0} {x1} (_hp : [.freeN, .out, .regs, .scope, .pw, .ob, .bx, .aon] ⊆ ps) (h : moves ps s0 s) :
    ∀ t, (execGwDownPacket x0 x1 s) = .next t → moves ps s0 t := by
  unfold execGwDownPacket
  intro t ht
  injection ht with ht; subst ht
  (try dsimp only)
  repeat' first
    | with_reducible assumption
    | split
    | with_reducible apply moves_only
    | with_reducible apply moves_bump
    | with_reducible apply moves_pqTake
    | with_reducible apply moves_downMsgs
    | with_reducible apply moves_upd_bx
    | exact _hp (by decide)
    | exact List.Subset.trans (by decide) _hp
    | intro _

theorem moves_execPqReset {ps : List Part} {s0 s : State} {x0} {x1} (_hp : [.out, .resp, .regs, .shadow, .scope, .sv, .sx, .fx, .ob, .bx, .cx, .mx] ⊆ ps) (h : moves ps s0 s) :
    ∀ t, (execPqReset x0 x1 s) = .next t → moves ps s0 t := by
  unfold execPqReset
  intro t ht
  injection ht with ht; subst ht
  (try dsimp only)
  repeat' first
    | with_reducible assumption
    | split
    | with_reducible apply moves_only
    | with_reducible apply moves_byAgent
    | with_reducible apply moves_drainUnless
    | with_reducible apply moves_pqReset
    | exact _hp (by decide)
    | exact List.Subset.trans (by decide) _hp
    | intro _

theorem moves_execSealCheck {ps : List Part} {s0 s : State} {x0} (_hp : [.out, .regs, .scope, .sx, .fx, .ce] ⊆ ps) (h : moves ps s0 s) :
    ∀ t, (execSealCheck x0 s) = .next t → moves ps s0 t := by
  unfold execSealCheck
  intro t ht
  injection ht with ht; subst ht
  (try dsimp only)
  repeat' first
    | with_reducible assumption
    | split
    | with_reducible apply moves_sealCheck
    | exact _hp (by decide)
    | exact List.Subset.trans (by decide) _hp
    | intro _

theorem moves_execSealAdd {ps : List Part} {s0 s : State} {x0} (_hp : [.out, .regs, .scope, .sx, .ob, .ce, .cx, .mx] ⊆ ps) (h : moves ps s0 s) :
    ∀ t, (execSealAdd x0 s) = .next t → moves ps s0 t := by
  unfold execSealAdd
  intro t ht
  injection ht with ht; subst ht
  (try dsimp only)
  repeat' first
    | with_reducible assumption
    | split
    | with_reducible apply moves_sealOne
    | exact _hp (by decide)
    | exact List.Subset.trans (by decide) _hp
    | intro _

end Sys2Proof.Machine
end

