-- ==== Sys2Proof/Laws/MovesKeys.lean ====
section
/-!
SUPPORT. What each operation of Machine/Keys.lean can do: the parts of the state it may change, and what it keeps
(`moves`, Safety.lean). One lemma for each operation; callers cite it and do not unfold the operation.
-/

set_option linter.unusedTactic false
set_option linter.unreachableTactic false
set_option linter.unusedSimpArgs false

namespace Sys2Proof.Machine

open State

theorem setBit_keeps (f i j : Nat) (h : f.testBit i = true) : (setBit f j).testBit i = true := by
  unfold setBit
  simp [Nat.testBit_or, h]

/-- A transition of the life cycle keeps every blown fuse (R351). -/
theorem lcBlow_keeps (f cur dst i : Nat) (h : f.testBit i = true) : (lcBlow f cur dst).testBit i = true := by
  unfold lcBlow
  repeat' split
  all_goals first | exact h | exact setBit_keeps _ _ _ h

theorem moves_takeKxData {ps : List Part} {s0 s : State} {x1} {x2} (_hp : [.regs, .kx] ⊆ ps) (h : moves ps s0 s) :
    moves ps s0 (State.takeKxData s x1 x2) := by
  unfold State.takeKxData
  (try dsimp only)
  repeat' first
    | with_reducible assumption
    | split
    | with_reducible apply moves_setKxData
    | exact _hp (by decide)
    | exact List.Subset.trans (by decide) _hp
    | intro _

theorem moves_kxCommand {ps : List Part} {s0 s : State} {x1} {x2} {x3} {x4} {x5} {x6} (_hp : [.out, .resp, .regs, .scope, .kx] ⊆ ps) (hf5 : ∀ y0, moves ps s0 y0 → moves ps s0 (x5 y0)) (h : moves ps s0 s) :
    moves ps s0 (State.kxCommand s x1 x2 x3 x4 x5 x6) := by
  unfold State.kxCommand
  (try dsimp only)
  repeat' first
    | with_reducible assumption
    | split
    | with_reducible apply hf5
    | with_reducible apply moves_byAgent
    | with_reducible apply moves_takeKxData
    | with_reducible apply moves_kxResult
    | with_reducible apply moves_zeroKxData
    | exact _hp (by decide)
    | exact List.Subset.trans (by decide) _hp
    | intro _

theorem moves_giveKxData {ps : List Part} {s0 s : State} {x1} {x2} (_hp : [.out, .regs, .kx] ⊆ ps) (h : moves ps s0 s) :
    moves ps s0 (State.giveKxData s x1 x2) := by
  unfold State.giveKxData
  (try dsimp only)
  repeat' first
    | with_reducible assumption
    | split
    | with_reducible apply moves_emit
    | with_reducible apply moves_setKxData
    | exact _hp (by decide)
    | exact List.Subset.trans (by decide) _hp
    | intro _

theorem moves_doImport {ps : List Part} {s0 s : State} {x1} {x2} {x3} (_hp : [.freeN, .out, .regs, .scope, .sv, .ob, .kx, .ce, .upd] ⊆ ps) (h : moves ps s0 s) :
    moves ps s0 (State.doImport s x1 x2 x3).1 := by
  unfold State.doImport
  (try dsimp only)
  repeat' first
    | with_reducible assumption
    | split
    | with_reducible apply moves_kxUse
    | with_reducible refine moves_kxUse_eq ?_ ?_ (by assumption)
    | with_reducible apply moves_importKey
    | exact _hp (by decide)
    | exact List.Subset.trans (by decide) _hp
    | intro _

theorem moves_doImport_eq {ps : List Part} {s0 s : State} {x1} {x2} {x3} (_hp : [.freeN, .out, .regs, .scope, .sv, .ob, .kx, .ce, .upd] ⊆ ps) (h : moves ps s0 s) {t v} (hq : (State.doImport s x1 x2 x3) = (t, v)) :
    moves ps s0 t := by
  have := moves_doImport (x1 := x1) (x2 := x2) (x3 := x3)  _hp h
  rwa [hq] at this

theorem moves_doRebind {ps : List Part} {s0 s : State} {x1} (_hp : [.out, .regs, .scope, .kx] ⊆ ps) (h : moves ps s0 s) :
    moves ps s0 (State.doRebind s x1) := by
  unfold State.doRebind
  (try dsimp only)
  repeat' first
    | with_reducible assumption
    | split
    | with_reducible apply moves_createAll
    | with_reducible apply moves_createNode
    | exact _hp (by decide)
    | exact List.Subset.trans (by decide) _hp
    | intro _

theorem moves_doAdvance {ps : List Part} {s0 s : State} {x1} (_hp : [.out, .regs, .scope, .ob, .nv] ⊆ ps) (h : moves ps s0 s) :
    moves ps s0 (State.doAdvance s x1) := by
  unfold State.doAdvance
  have ht : ∀ dst, moves ps s0 { s with nv.fuses := lcBlow s.nv.fuses (s.rg F.KX_STAT_LC) dst } := by
    intro dst
    refine ⟨?_, h.2.regs, h.2.dram, h.2.flash, fun i k => lcBlow_keeps _ _ _ _ (h.2.fuses i k), h.2.counter, h.2.ftk,
      h.2.keyHash, h.2.now, h.2.freeN, h.2.out⟩
    intro p hn
    have := h.1 p hn
    cases p <;> first | exact this | exact absurd (_hp (by decide)) hn
  exact moves_ledgerAdd (List.Subset.trans (by decide) _hp) (moves_setRg (List.Subset.trans (by decide) _hp)
    (moves_setRg (List.Subset.trans (by decide) _hp) (ht _)))

theorem moves_takeJob {ps : List Part} {s0 s : State} {x1} (_hp : [.kx] ⊆ ps) (h : moves ps s0 s) :
    ∀ t j, (State.takeJob s x1) = some (j, t) → moves ps s0 t := by
  intro t j ht
  unfold State.takeJob at ht
  (try dsimp only at ht)
  (repeat' split at ht) <;> simp only [Option.some.injEq, Prod.mk.injEq, reduceCtorEq] at ht
  all_goals (try obtain ⟨-, ht⟩ := ht)
  all_goals (try subst ht)
  all_goals repeat' first
    | with_reducible assumption
    | split
    | with_reducible apply moves_upd_kx
    | exact _hp (by decide)
    | exact List.Subset.trans (by decide) _hp
    | intro _

theorem moves_kxFinish {ps : List Part} {s0 s : State} {x1} {x2} (_hp : [.freeN, .out, .regs, .scope, .sv, .ob, .nv, .kx, .ce, .upd] ⊆ ps) (h : moves ps s0 s) :
    moves ps s0 (State.kxFinish s x1 x2) := by
  unfold State.kxFinish
  (try dsimp only)
  repeat' first
    | with_reducible assumption
    | split
    | with_reducible apply moves_kxResult
    | with_reducible apply moves_zeroKxData
    | with_reducible apply moves_doRebind
    | with_reducible apply moves_doImport
    | with_reducible refine moves_doImport_eq ?_ ?_ (by assumption)
    | with_reducible apply moves_giveKxData
    | with_reducible apply moves_doAdvance
    | with_reducible apply moves_upd_kx
    | exact _hp (by decide)
    | exact List.Subset.trans (by decide) _hp
    | intro _

theorem moves_tamperLog {ps : List Part} {s0 s : State} {x1} (_hp : [.out, .regs, .scope, .ob] ⊆ ps) (h : moves ps s0 s) :
    moves ps s0 (State.tamperLog s x1) := by
  unfold State.tamperLog
  (try dsimp only)
  repeat' first
    | with_reducible assumption
    | split
    | with_reducible apply moves_ledgerAdd
    | with_reducible apply moves_raise
    | with_reducible apply moves_bump
    | exact _hp (by decide)
    | exact List.Subset.trans (by decide) _hp
    | intro _

theorem moves_execInvalidate {ps : List Part} {s0 s : State} {x0} {x1} (_hp : [.freeN, .out, .resp, .regs, .scope, .sv, .ob, .kx, .ce, .upd] ⊆ ps) (h : moves ps s0 s) :
    ∀ t, (execInvalidate x0 x1 s) = .next t → moves ps s0 t := by
  unfold execInvalidate
  intro t ht
  injection ht with ht; subst ht
  (try dsimp only)
  repeat' first
    | with_reducible assumption
    | split
    | with_reducible apply moves_kxCommand
    | with_reducible apply moves_invalidate
    | with_reducible apply moves_kxAccept
    | exact _hp (by decide)
    | exact List.Subset.trans (by decide) _hp
    | intro _

theorem moves_execRebind {ps : List Part} {s0 s : State} {x0} {x1} (_hp : [.out, .resp, .regs, .scope, .kx] ⊆ ps) (h : moves ps s0 s) :
    ∀ t, (execRebind x0 x1 s) = .next t → moves ps s0 t := by
  unfold execRebind
  intro t ht
  injection ht with ht; subst ht
  (try dsimp only)
  repeat' first
    | with_reducible assumption
    | split
    | with_reducible apply moves_kxCommand
    | with_reducible apply moves_kxAccept
    | exact _hp (by decide)
    | exact List.Subset.trans (by decide) _hp
    | intro _

theorem moves_execImportKey {ps : List Part} {s0 s : State} {x0} {x1} {x2} {x3} (_hp : [.out, .resp, .regs, .scope, .kx] ⊆ ps) (h : moves ps s0 s) :
    ∀ t, (execImportKey x0 x1 x2 x3 s) = .next t → moves ps s0 t := by
  unfold execImportKey
  intro t ht
  injection ht with ht; subst ht
  (try dsimp only)
  repeat' first
    | with_reducible assumption
    | split
    | with_reducible apply moves_kxCommand
    | with_reducible apply moves_kxAccept
    | exact _hp (by decide)
    | exact List.Subset.trans (by decide) _hp
    | intro _

theorem moves_execExportKey {ps : List Part} {s0 s : State} {x0} {x1} (_hp : [.out, .resp, .regs, .scope, .kx] ⊆ ps) (h : moves ps s0 s) :
    ∀ t, (execExportKey x0 x1 s) = .next t → moves ps s0 t := by
  unfold execExportKey
  intro t ht
  injection ht with ht; subst ht
  (try dsimp only)
  repeat' first
    | with_reducible assumption
    | split
    | with_reducible apply moves_kxCommand
    | with_reducible apply moves_kxAccept
    | exact _hp (by decide)
    | exact List.Subset.trans (by decide) _hp
    | intro _

theorem moves_execZeroise {ps : List Part} {s0 s : State} {x0} (_hp : [.freeN, .out, .resp, .regs, .scope, .sv, .sx, .ob, .kx, .ce, .upd] ⊆ ps) (h : moves ps s0 s) :
    ∀ t, (execZeroise x0 s) = .next t → moves ps s0 t := by
  unfold execZeroise
  intro t ht
  injection ht with ht; subst ht
  (try dsimp only)
  repeat' first
    | with_reducible assumption
    | split
    | with_reducible apply moves_kxCommand
    | with_reducible apply moves_kxAccept
    | with_reducible apply moves_wipe
    | with_reducible apply moves_tamperLog
    | exact _hp (by decide)
    | exact List.Subset.trans (by decide) _hp
    | intro _

theorem moves_execClearLock {ps : List Part} {s0 s : State} {x0} (_hp : [.out, .resp, .regs, .scope, .kx] ⊆ ps) (h : moves ps s0 s) :
    ∀ t, (execClearLock x0 s) = .next t → moves ps s0 t := by
  unfold execClearLock
  intro t ht
  injection ht with ht; subst ht
  (try dsimp only)
  repeat' first
    | with_reducible assumption
    | split
    | with_reducible apply moves_kxCommand
    | with_reducible apply moves_kxAccept
    | exact _hp (by decide)
    | exact List.Subset.trans (by decide) _hp
    | intro _

theorem moves_execClearLockDone {ps : List Part} {s0 s : State} {x0} (_hp : [.freeN, .out, .regs, .scope, .kx, .ce] ⊆ ps) (h : moves ps s0 s) :
    ∀ t, (execClearLockDone x0 s) = .next t → moves ps s0 t := by
  unfold execClearLockDone
  intro t ht
  injection ht with ht; subst ht
  (try dsimp only)
  repeat' first
    | with_reducible assumption
    | split
    | with_reducible refine moves_takeJob ?_ ?_ _ _ (by assumption)
    | with_reducible apply moves_noteErrRate
    | with_reducible apply moves_setRg
    | with_reducible apply moves_judgeNodes
    | with_reducible apply moves_instantiate
    | with_reducible apply moves_kxResult
    | with_reducible apply moves_raise
    | with_reducible apply moves_enterKeysDown
    | with_reducible apply moves_upd_ce
    | with_reducible apply moves_upd_kx
    | exact _hp (by decide)
    | exact List.Subset.trans (by decide) _hp
    | intro _

theorem moves_execLcAdvance {ps : List Part} {s0 s : State} {x0} {x1} (_hp : [.out, .resp, .regs, .scope, .kx] ⊆ ps) (h : moves ps s0 s) :
    ∀ t, (execLcAdvance x0 x1 s) = .next t → moves ps s0 t := by
  unfold execLcAdvance
  intro t ht
  injection ht with ht; subst ht
  (try dsimp only)
  repeat' first
    | with_reducible assumption
    | split
    | with_reducible apply moves_kxCommand
    | with_reducible apply moves_kxAccept
    | with_reducible apply moves_upd_kx
    | exact _hp (by decide)
    | exact List.Subset.trans (by decide) _hp
    | intro _

theorem moves_execEnroll {ps : List Part} {s0 s : State} {x0} (_hp : [.freeN, .out, .resp, .regs, .scope, .sv, .kx] ⊆ ps) (h : moves ps s0 s) :
    ∀ t, (execEnroll x0 s) = .next t → moves ps s0 t := by
  unfold execEnroll
  intro t ht
  injection ht with ht; subst ht
  (try dsimp only)
  repeat' first
    | with_reducible assumption
    | split
    | with_reducible apply moves_kxCommand
    | with_reducible apply moves_addTask
    | with_reducible apply moves_useFree
    | with_reducible apply moves_wr
    | exact _hp (by decide)
    | exact List.Subset.trans (by decide) _hp
    | intro _

theorem moves_execKxCommandDone {ps : List Part} {s0 s : State} {x0} (_hp : [.freeN, .out, .regs, .scope, .sv, .ob, .nv, .kx, .ce, .upd] ⊆ ps) (h : moves ps s0 s) :
    ∀ t, (execKxCommandDone x0 s) = .next t → moves ps s0 t := by
  unfold execKxCommandDone
  intro t ht
  injection ht with ht; subst ht
  (try dsimp only)
  repeat' first
    | with_reducible assumption
    | split
    | with_reducible refine moves_takeJob ?_ ?_ _ _ (by assumption)
    | with_reducible apply moves_kxFinish
    | exact _hp (by decide)
    | exact List.Subset.trans (by decide) _hp
    | intro _

theorem moves_execKeyRemask {ps : List Part} {s0 s : State} (_hp : [.freeN, .regs, .kx] ⊆ ps) (h : moves ps s0 s) :
    ∀ t, (execKeyRemask s) = .next t → moves ps s0 t := by
  unfold execKeyRemask
  intro t ht
  injection ht with ht; subst ht
  (try dsimp only)
  repeat' first
    | with_reducible assumption
    | split
    | with_reducible apply moves_tick
    | with_reducible apply moves_forEach
    | with_reducible apply moves_remask
    | exact _hp (by decide)
    | exact List.Subset.trans (by decide) _hp
    | intro _

theorem moves_execTrngHealthFail {ps : List Part} {s0 s : State} (_hp : [.out, .regs, .scope] ⊆ ps) (h : moves ps s0 s) :
    ∀ t, (execTrngHealthFail s) = .next t → moves ps s0 t := by
  unfold execTrngHealthFail
  intro t ht
  injection ht with ht; subst ht
  (try dsimp only)
  repeat' first
    | with_reducible assumption
    | split
    | with_reducible apply moves_raise
    | with_reducible apply moves_setRg
    | exact _hp (by decide)
    | exact List.Subset.trans (by decide) _hp
    | intro _

theorem moves_execTrngHealthPass {ps : List Part} {s0 s : State} (_hp : [.regs] ⊆ ps) (h : moves ps s0 s) :
    ∀ t, (execTrngHealthPass s) = .next t → moves ps s0 t := by
  unfold execTrngHealthPass
  intro t ht
  injection ht with ht; subst ht
  (try dsimp only)
  repeat' first
    | with_reducible assumption
    | split
    | with_reducible apply moves_setRg
    | exact _hp (by decide)
    | exact List.Subset.trans (by decide) _hp
    | intro _

end Sys2Proof.Machine
end

