-- ==== Sys2Proof/Laws/MovesLoadSwitch.lean ====
section
/-!
SUPPORT. What each operation of Machine/LoadSwitch.lean can do: the parts of the state it may change, and what it keeps
(`moves`, Safety.lean). One lemma for each operation; callers cite it and do not unfold the operation.
-/

set_option linter.unusedTactic false
set_option linter.unreachableTactic false
set_option linter.unusedSimpArgs false

namespace Sys2Proof.Machine

open State

theorem moves_execLsUpdate {ps : List Part} {s0 s : State} {x0} {x1} (_hp : [.out, .regs, .scope, .aon] ⊆ ps) (h : moves ps s0 s) :
    ∀ t, (execLsUpdate x0 x1 s) = .next t → moves ps s0 t := by
  unfold execLsUpdate
  intro t ht
  injection ht with ht; subst ht
  (try dsimp only)
  repeat' first
    | with_reducible assumption
    | split
    | with_reducible apply moves_forEach
    | with_reducible apply moves_chUpdate
    | with_reducible apply moves_only
    | with_reducible apply moves_setRg
    | exact _hp (by decide)
    | exact List.Subset.trans (by decide) _hp
    | intro _

theorem moves_execShortTrip {ps : List Part} {s0 s : State} {x0} (_hp : [.out, .regs, .scope, .aon] ⊆ ps) (h : moves ps s0 s) :
    ∀ t, (execShortTrip x0 s) = .next t → moves ps s0 t := by
  unfold execShortTrip
  intro t ht
  injection ht with ht; subst ht
  (try dsimp only)
  repeat' first
    | with_reducible assumption
    | split
    | with_reducible apply moves_only
    | with_reducible apply moves_trip
    | exact _hp (by decide)
    | exact List.Subset.trans (by decide) _hp
    | intro _

theorem moves_execInrushEnd {ps : List Part} {s0 s : State} {x0} {x1} (_hp : [.out, .regs, .scope, .aon] ⊆ ps) (h : moves ps s0 s) :
    ∀ t, (execInrushEnd x0 x1 s) = .next t → moves ps s0 t := by
  unfold execInrushEnd
  intro t ht
  injection ht with ht; subst ht
  (try dsimp only)
  repeat' first
    | with_reducible assumption
    | split
    | with_reducible apply moves_only
    | with_reducible apply moves_trip
    | with_reducible apply moves_setCh
    | with_reducible apply moves_toCh
    | exact _hp (by decide)
    | exact List.Subset.trans (by decide) _hp
    | intro _

theorem moves_execReenable {ps : List Part} {s0 s : State} {x0} {x1} (_hp : [.out, .resp, .regs, .scope, .aon] ⊆ ps) (h : moves ps s0 s) :
    ∀ t, (execReenable x0 x1 s) = .next t → moves ps s0 t := by
  unfold execReenable
  intro t ht
  injection ht with ht; subst ht
  (try dsimp only)
  repeat' first
    | with_reducible assumption
    | split
    | with_reducible apply moves_byAgent
    | with_reducible apply moves_raise
    | with_reducible apply moves_setRg
    | with_reducible apply moves_chJudge
    | with_reducible apply moves_toCh
    | exact _hp (by decide)
    | exact List.Subset.trans (by decide) _hp
    | intro _

theorem moves_execVbatUndervoltage {ps : List Part} {s0 s : State} (_hp : [.out, .regs, .scope, .aon] ⊆ ps) (h : moves ps s0 s) :
    ∀ t, (execVbatUndervoltage s) = .next t → moves ps s0 t := by
  unfold execVbatUndervoltage
  intro t ht
  injection ht with ht; subst ht
  (try dsimp only)
  repeat' first
    | with_reducible assumption
    | split
    | with_reducible apply moves_only
    | with_reducible apply moves_raisePw
    | with_reducible apply moves_forEach
    | with_reducible apply moves_setRg
    | with_reducible apply moves_toCh
    | exact _hp (by decide)
    | exact List.Subset.trans (by decide) _hp
    | intro _

theorem moves_execVbatRecovered {ps : List Part} {s0 s : State} (_hp : [.regs, .aon] ⊆ ps) (h : moves ps s0 s) :
    ∀ t, (execVbatRecovered s) = .next t → moves ps s0 t := by
  unfold execVbatRecovered
  intro t ht
  injection ht with ht; subst ht
  (try dsimp only)
  repeat' first
    | with_reducible assumption
    | split
    | with_reducible apply moves_only
    | with_reducible apply moves_forEach
    | with_reducible apply moves_chJudge
    | with_reducible apply moves_toCh
    | exact _hp (by decide)
    | exact List.Subset.trans (by decide) _hp
    | intro _

theorem moves_execTotalCurrentShed {ps : List Part} {s0 s : State} {x0} (_hp : [.out, .regs, .scope, .aon] ⊆ ps) (h : moves ps s0 s) :
    ∀ t, (execTotalCurrentShed x0 s) = .next t → moves ps s0 t := by
  unfold execTotalCurrentShed
  intro t ht
  injection ht with ht; subst ht
  (try dsimp only)
  repeat' first
    | with_reducible assumption
    | split
    | with_reducible apply moves_raisePw
    | with_reducible apply moves_only
    | with_reducible apply moves_trip
    | exact _hp (by decide)
    | exact List.Subset.trans (by decide) _hp
    | intro _

theorem moves_execDissipationHigh {ps : List Part} {s0 s : State} (_hp : [.out, .regs, .scope, .aon] ⊆ ps) (h : moves ps s0 s) :
    ∀ t, (execDissipationHigh s) = .next t → moves ps s0 t := by
  unfold execDissipationHigh
  intro t ht
  injection ht with ht; subst ht
  (try dsimp only)
  repeat' first
    | with_reducible assumption
    | split
    | with_reducible apply moves_only
    | with_reducible apply moves_raisePw
    | exact _hp (by decide)
    | exact List.Subset.trans (by decide) _hp
    | intro _

theorem moves_execPowerDieLinkRefresh {ps : List Part} {s0 s : State} (_hp : [.aon] ⊆ ps) (h : moves ps s0 s) :
    ∀ t, (execPowerDieLinkRefresh s) = .next t → moves ps s0 t := by
  unfold execPowerDieLinkRefresh
  intro t ht
  injection ht with ht; subst ht
  (try dsimp only)
  repeat' first
    | with_reducible assumption
    | split
    | with_reducible apply moves_upd_aon
    | exact _hp (by decide)
    | exact List.Subset.trans (by decide) _hp
    | intro _

theorem moves_execHoldExpired {ps : List Part} {s0 s : State} (_hp : [.regs, .aon] ⊆ ps) (h : moves ps s0 s) :
    ∀ t, (execHoldExpired s) = .next t → moves ps s0 t := by
  unfold execHoldExpired
  intro t ht
  injection ht with ht; subst ht
  (try dsimp only)
  repeat' first
    | with_reducible assumption
    | split
    | with_reducible apply moves_only
    | with_reducible apply moves_forEach
    | with_reducible apply moves_toCh
    | with_reducible apply moves_upd_aon
    | exact _hp (by decide)
    | exact List.Subset.trans (by decide) _hp
    | intro _

end Sys2Proof.Machine
end

