-- ==== Sys2Proof/Laws/MovesMendOps.lean ====
section
/-!
SUPPORT. What each operation of Machine/MendOps.lean can do: the parts of the state it may change, and what it keeps
(`moves`, Safety.lean). One lemma for each operation; callers cite it and do not unfold the operation.
-/

set_option linter.unusedTactic false
set_option linter.unreachableTactic false
set_option linter.unusedSimpArgs false

namespace Sys2Proof.Machine

open State

theorem moves_bankService {ps : List Part} {s0 s : State} {x1} {x2} (_hp : [.out, .regs, .scope, .sx] ⊆ ps) (h : moves ps s0 s) :
    moves ps s0 (State.bankService s x1 x2) := by
  unfold State.bankService
  (try dsimp only)
  repeat' first
    | with_reducible assumption
    | split
    | with_reducible apply moves_checkMarks
    | with_reducible apply moves_judgeRsv
    | with_reducible apply moves_setRg
    | exact _hp (by decide)
    | exact List.Subset.trans (by decide) _hp
    | intro _

theorem moves_pairService {ps : List Part} {s0 s : State} {x1} {x2} (_hp : [.out, .regs, .scope] ⊆ ps) (h : moves ps s0 s) :
    moves ps s0 (State.pairService s x1 x2) := by
  unfold State.pairService
  (try dsimp only)
  repeat' first
    | with_reducible assumption
    | split
    | with_reducible apply moves_setRg
    | with_reducible apply moves_pairReturns
    | with_reducible apply moves_pairLeaves
    | exact _hp (by decide)
    | exact List.Subset.trans (by decide) _hp
    | intro _

theorem moves_mendTake {ps : List Part} {s0 s : State} {x1} (_hp : [.freeN, .out, .regs, .scope, .sx, .fx, .ob, .px, .bx, .cx, .mx] ⊆ ps) (h : moves ps s0 s) :
    moves ps s0 (State.mendTake s x1) := by
  unfold State.mendTake
  (try dsimp only)
  repeat' first
    | with_reducible assumption
    | split
    | with_reducible apply moves_setRg
    | with_reducible apply moves_bankService
    | with_reducible apply moves_portMend
    | with_reducible apply moves_canHold
    | with_reducible apply moves_pairService
    | with_reducible apply moves_coreOffReq
    | exact _hp (by decide)
    | exact List.Subset.trans (by decide) _hp
    | intro _

theorem moves_mendGive {ps : List Part} {s0 s : State} {x1} {x2} (_hp : [.freeN, .out, .regs, .scope, .sx, .fx, .ob, .px, .bx, .cx, .mx] ⊆ ps) (h : moves ps s0 s) :
    moves ps s0 (State.mendGive s x1 x2) := by
  unfold State.mendGive
  (try dsimp only)
  repeat' first
    | with_reducible assumption
    | split
    | with_reducible apply moves_setRg
    | with_reducible apply moves_bankService
    | with_reducible apply moves_portMend
    | with_reducible apply moves_canRelease
    | with_reducible apply moves_pairService
    | with_reducible apply moves_coreReturn
    | exact _hp (by decide)
    | exact List.Subset.trans (by decide) _hp
    | intro _

theorem moves_mendStart {ps : List Part} {s0 s : State} {x1} {x2} {x3} (_hp : [.freeN, .out, .regs, .scope, .mend, .sx, .fx, .ob, .px, .bx, .cx, .mx] ⊆ ps) (h : moves ps s0 s) :
    moves ps s0 (State.mendStart s x1 x2 x3) := by
  unfold State.mendStart
  (try dsimp only)
  repeat' first
    | with_reducible assumption
    | split
    | with_reducible apply moves_wr
    | with_reducible apply moves_mendTake
    | with_reducible apply moves_upd_mend
    | exact _hp (by decide)
    | exact List.Subset.trans (by decide) _hp
    | intro _

theorem moves_mendReport {ps : List Part} {s0 s : State} {x1} {x2} (_hp : [.out, .regs, .scope, .mend] ⊆ ps) (h : moves ps s0 s) :
    moves ps s0 (State.mendReport s x1 x2) := by
  unfold State.mendReport
  (try dsimp only)
  repeat' first
    | with_reducible assumption
    | split
    | with_reducible apply moves_wr
    | with_reducible apply moves_raise
    | with_reducible apply moves_upd_mend
    | exact _hp (by decide)
    | exact List.Subset.trans (by decide) _hp
    | intro _

theorem moves_mendStopped {ps : List Part} {s0 s : State} {x1} (_hp : [.out, .regs, .sv, .mend] ⊆ ps) (h : moves ps s0 s) :
    moves ps s0 (State.mendStopped s x1) := by
  unfold State.mendStopped
  (try dsimp only)
  repeat' first
    | with_reducible assumption
    | split
    | with_reducible apply moves_forEach
    | with_reducible apply moves_txOutcome
    | with_reducible apply moves_upd_mend
    | exact _hp (by decide)
    | exact List.Subset.trans (by decide) _hp
    | intro _

theorem moves_mendEnd {ps : List Part} {s0 s : State} {x1} {x2} {x3} (_hp : [.freeN, .out, .regs, .scope, .sv, .mend, .sx, .fx, .ob, .px, .bx, .cx, .mx] ⊆ ps) (h : moves ps s0 s) :
    moves ps s0 (State.mendEnd s x1 x2 x3) := by
  unfold State.mendEnd
  (try dsimp only)
  repeat' first
    | with_reducible assumption
    | split
    | with_reducible apply moves_mendStopped
    | with_reducible apply moves_mendGive
    | with_reducible apply moves_mendReport
    | exact _hp (by decide)
    | exact List.Subset.trans (by decide) _hp
    | intro _

theorem moves_mendFact {ps : List Part} {s0 s : State} {x1} {x2} (_hp : [.regs, .mend] ⊆ ps) (h : moves ps s0 s) :
    moves ps s0 (State.mendFact s x1 x2) := by
  unfold State.mendFact
  (try dsimp only)
  repeat' first
    | with_reducible assumption
    | split
    | with_reducible apply moves_wr
    | with_reducible apply moves_upd_mend
    | exact _hp (by decide)
    | exact List.Subset.trans (by decide) _hp
    | intro _

theorem moves_mendPreempt {ps : List Part} {s0 s : State} {x1} {x2} (_hp : [.freeN, .out, .regs, .scope, .sv, .mend, .sx, .fx, .ob, .px, .bx, .cx, .mx] ⊆ ps) (h : moves ps s0 s) :
    moves ps s0 (State.mendPreempt s x1 x2) := by
  unfold State.mendPreempt
  (try dsimp only)
  repeat' first
    | with_reducible assumption
    | split
    | with_reducible apply moves_forEach
    | with_reducible apply moves_mendEnd
    | exact _hp (by decide)
    | exact List.Subset.trans (by decide) _hp
    | intro _

theorem moves_mendFault {ps : List Part} {s0 s : State} {x1} {x2} (_hp : [.freeN, .out, .regs, .scope, .sv, .mend, .sx, .fx, .ob, .px, .bx, .cx, .mx] ⊆ ps) (h : moves ps s0 s) :
    moves ps s0 (State.mendFault s x1 x2) := by
  unfold State.mendFault
  (try dsimp only)
  repeat' first
    | with_reducible assumption
    | split
    | with_reducible apply moves_mendFact
    | with_reducible apply moves_mendPreempt
    | with_reducible apply moves_raise
    | with_reducible apply moves_bankService
    | with_reducible apply moves_pairService
    | exact _hp (by decide)
    | exact List.Subset.trans (by decide) _hp
    | intro _

theorem moves_purgeQueue {ps : List Part} {s0 s : State} {x1} {x2} {x3} (_hp : [.out, .regs, .scope, .sx, .ob, .cx, .mx] ⊆ ps) (hf3 : ∀ y0 y1, moves ps s0 y0 → moves ps s0 (x3 y0 y1)) (h : moves ps s0 s) :
    moves ps s0 (State.purgeQueue s x1 x2 x3) := by
  unfold State.purgeQueue
  (try dsimp only)
  repeat' first
    | with_reducible assumption
    | split
    | with_reducible apply hf3
    | with_reducible apply moves_setQueue
    | with_reducible apply moves_toDie
    | with_reducible apply moves_dropCopies
    | exact _hp (by decide)
    | exact List.Subset.trans (by decide) _hp
    | intro _

theorem moves_purgeMq {ps : List Part} {s0 s : State} {x1} {x2} {x3} {x4} (_hp : [.out, .regs, .scope, .sx, .ob, .cx, .mx] ⊆ ps) (hf4 : ∀ y0 y1, moves ps s0 y0 → moves ps s0 (x4 y0 y1)) (h : moves ps s0 s) :
    moves ps s0 (State.purgeMq s x1 x2 x3 x4) := by
  unfold State.purgeMq
  (try dsimp only)
  repeat' first
    | with_reducible assumption
    | split
    | with_reducible apply hf4
    | with_reducible apply moves_dropCopies
    | with_reducible apply moves_setMq
    | exact _hp (by decide)
    | exact List.Subset.trans (by decide) _hp
    | intro _

theorem moves_purgeTx {ps : List Part} {s0 s : State} {x1} {x2} {x3} (_hp : [.out, .regs, .scope, .sx, .ob, .px, .bx, .cx, .mx] ⊆ ps) (hf3 : ∀ y0 y1, moves ps s0 y0 → moves ps s0 (x3 y0 y1)) (h : moves ps s0 s) :
    moves ps s0 (State.purgeTx s x1 x2 x3) := by
  unfold State.purgeTx
  (try dsimp only)
  repeat' first
    | with_reducible assumption
    | split
    | with_reducible apply hf3
    | with_reducible apply moves_stomp
    | with_reducible apply moves_giveUp
    | exact _hp (by decide)
    | exact List.Subset.trans (by decide) _hp
    | intro _

theorem moves_purge {ps : List Part} {s0 s : State} {x1} {x2} {x3} (_hp : [.freeN, .out, .regs, .scope, .sx, .ob, .px, .bx, .cx, .mx] ⊆ ps) (hf2 : ∀ y0 y1, moves ps s0 y0 → moves ps s0 (x2 y0 y1)) (hf3 : ∀ y0 y1, moves ps s0 y0 → moves ps s0 (x3 y0 y1)) (h : moves ps s0 s) :
    moves ps s0 (State.purge s x1 x2 x3) := by
  unfold State.purge
  (try dsimp only)
  repeat' first
    | with_reducible assumption
    | split
    | with_reducible apply hf2
    | with_reducible apply hf3
    | with_reducible apply moves_forEach
    | with_reducible apply moves_purgeQueue
    | with_reducible apply moves_purgeTx
    | with_reducible apply moves_purgeMq
    | with_reducible apply moves_dropFrame
    | with_reducible apply moves_loseCopies
    | exact _hp (by decide)
    | exact List.Subset.trans (by decide) _hp
    | intro _

theorem moves_fenceExpiry {ps : List Part} {s0 s : State} {x1} (_hp : [.freeN, .out, .regs, .scope, .sx, .ob, .px, .bx, .cx, .mx] ⊆ ps) (h : moves ps s0 s) :
    moves ps s0 (State.fenceExpiry s x1) := by
  unfold State.fenceExpiry
  exact moves_purge (List.Subset.trans (by decide) _hp)
    (fun _ _ k => moves_bump (List.Subset.trans (by decide) _hp) k)
    (fun _ _ k => moves_forEach (fun _ _ j => moves_bump (List.Subset.trans (by decide) _hp) j) k) h

theorem moves_fenceDone {ps : List Part} {s0 s : State} {x1} (_hp : [.freeN, .out, .regs, .scope, .sx, .ob, .px, .bx, .cx, .mx] ⊆ ps) (h : moves ps s0 s) :
    moves ps s0 (State.fenceDone s x1) := by
  unfold State.fenceDone
  (try dsimp only)
  repeat' first
    | with_reducible assumption
    | split
    | with_reducible apply moves_purge
    | with_reducible apply moves_bump
    | exact _hp (by decide)
    | exact List.Subset.trans (by decide) _hp
    | intro _

theorem moves_bankFence {ps : List Part} {s0 s : State} {x1} {x2} (_hp : [.freeN, .out, .regs, .scope, .sv, .mend, .sx, .fx, .ob, .px, .bx, .cx, .mx] ⊆ ps) (h : moves ps s0 s) :
    moves ps s0 (State.bankFence s x1 x2) := by
  unfold State.bankFence
  (try dsimp only)
  repeat' first
    | with_reducible assumption
    | split
    | with_reducible apply moves_setRg
    | with_reducible apply moves_mendFault
    | with_reducible apply moves_forEach
    | with_reducible apply moves_setDrop
    | with_reducible apply moves_raise
    | with_reducible apply moves_bump
    | with_reducible apply moves_purgeTx
    | with_reducible apply moves_fault
    | exact _hp (by decide)
    | exact List.Subset.trans (by decide) _hp
    | intro _

theorem moves_retirePair {ps : List Part} {s0 s : State} {x1} (_hp : [.freeN, .out, .regs, .scope, .sv, .mend, .sx, .fx, .ob, .px, .bx, .cx, .mx] ⊆ ps) (h : moves ps s0 s) :
    moves ps s0 (State.retirePair s x1) := by
  unfold State.retirePair
  (try dsimp only)
  repeat' first
    | with_reducible assumption
    | split
    | with_reducible apply moves_setRg
    | with_reducible apply moves_mendFault
    | with_reducible apply moves_fault
    | with_reducible apply moves_raise
    | exact _hp (by decide)
    | exact List.Subset.trans (by decide) _hp
    | intro _

theorem moves_scrubTable {ps : List Part} {s0 s : State} {x1} {x2} {x3} (_hp : [.out, .regs, .scope, .fx, .ob] ⊆ ps) (h : moves ps s0 s) :
    moves ps s0 (State.scrubTable s x1 x2 x3) := by
  unfold State.scrubTable
  (try dsimp only)
  repeat' first
    | with_reducible assumption
    | split
    | with_reducible apply moves_fault
    | with_reducible apply moves_sgateShow
    | with_reducible apply moves_raise
    | with_reducible apply moves_bump
    | with_reducible apply moves_upd_fx
    | exact _hp (by decide)
    | exact List.Subset.trans (by decide) _hp
    | intro _

theorem moves_scrubFdb {ps : List Part} {s0 s : State} {x1} {x2} (_hp : [.out, .regs, .scope, .fx, .ob] ⊆ ps) (h : moves ps s0 s) :
    moves ps s0 (State.scrubFdb s x1 x2) := by
  unfold State.scrubFdb
  (try dsimp only)
  repeat' first
    | with_reducible assumption
    | split
    | with_reducible apply moves_fault
    | with_reducible apply moves_setFdb
    | with_reducible apply moves_forget
    | with_reducible apply moves_raise
    | with_reducible apply moves_bump
    | exact _hp (by decide)
    | exact List.Subset.trans (by decide) _hp
    | intro _

theorem moves_scrubPage {ps : List Part} {s0 s : State} {x1} {x2} (_hp : [.out, .regs, .scope, .sx, .ob, .cx, .mx] ⊆ ps) (h : moves ps s0 s) :
    moves ps s0 (State.scrubPage s x1 x2) := by
  unfold State.scrubPage
  (try dsimp only)
  repeat' first
    | with_reducible assumption
    | split
    | with_reducible apply moves_fault
    | with_reducible apply moves_toDie
    | with_reducible apply moves_losePage
    | with_reducible apply moves_retirePage
    | exact _hp (by decide)
    | exact List.Subset.trans (by decide) _hp
    | intro _

theorem moves_scrubMsgRam {ps : List Part} {s0 s : State} {x1} {x2} {x3} (_hp : [.out, .regs, .scope, .ob, .bx] ⊆ ps) (h : moves ps s0 s) :
    moves ps s0 (State.scrubMsgRam s x1 x2 x3) := by
  unfold State.scrubMsgRam
  (try dsimp only)
  repeat' first
    | with_reducible assumption
    | split
    | with_reducible apply moves_msgRamEcc
    | with_reducible apply moves_fault
    | with_reducible apply moves_bump
    | exact _hp (by decide)
    | exact List.Subset.trans (by decide) _hp
    | intro _

end Sys2Proof.Machine
end

