-- ==== Sys2Proof/Laws/MovesMend.lean ====
section
/-!
SUPPORT. What each operation of Machine/Mend.lean can do: the parts of the state it may change, and what it keeps
(`moves`, Safety.lean). One lemma for each operation; callers cite it and do not unfold the operation.
-/

set_option linter.unusedTactic false
set_option linter.unreachableTactic false
set_option linter.unusedSimpArgs false

namespace Sys2Proof.Machine

open State

theorem moves_execMendStart {ps : List Part} {s0 s : State} {x0} {x1} {x2} (_hp : [.freeN, .out, .resp, .regs, .shadow, .scope, .sv, .mend, .sx, .fx, .ob, .px, .bx, .cx, .mx] ⊆ ps) (h : moves ps s0 s) :
    ∀ t, (execMendStart x0 x1 x2 s) = .next t → moves ps s0 t := by
  unfold execMendStart
  intro t ht
  injection ht with ht; subst ht
  (try dsimp only)
  repeat' first
    | with_reducible assumption
    | split
    | with_reducible apply moves_txCommand
    | with_reducible apply moves_txFields
    | with_reducible apply moves_raise
    | with_reducible apply moves_txOutcome
    | with_reducible apply moves_drainUnless
    | with_reducible apply moves_mendStart
    | exact _hp (by decide)
    | exact List.Subset.trans (by decide) _hp
    | intro _

theorem moves_execMendStop {ps : List Part} {s0 s : State} {x0} {x1} (_hp : [.out, .resp, .regs, .scope, .sv, .mend] ⊆ ps) (h : moves ps s0 s) :
    ∀ t, (execMendStop x0 x1 s) = .next t → moves ps s0 t := by
  unfold execMendStop
  intro t ht
  injection ht with ht; subst ht
  (try dsimp only)
  repeat' first
    | with_reducible assumption
    | split
    | with_reducible apply moves_txCommand
    | with_reducible apply moves_txFields
    | with_reducible apply moves_raise
    | with_reducible apply moves_txOutcome
    | with_reducible apply moves_txAccept
    | with_reducible apply moves_upd_mend
    | exact _hp (by decide)
    | exact List.Subset.trans (by decide) _hp
    | intro _

theorem moves_execBankTestFenceExpiry {ps : List Part} {s0 s : State} {x0} (_hp : [.freeN, .out, .regs, .shadow, .scope, .sv, .sx, .fx, .ob, .px, .bx, .cx, .mx] ⊆ ps) (h : moves ps s0 s) :
    ∀ t, (execBankTestFenceExpiry x0 s) = .next t → moves ps s0 t := by
  unfold execBankTestFenceExpiry
  intro t ht
  injection ht with ht; subst ht
  (try dsimp only)
  repeat' first
    | with_reducible assumption
    | split
    | with_reducible apply moves_drainUnless
    | with_reducible apply moves_fenceExpiry
    | exact _hp (by decide)
    | exact List.Subset.trans (by decide) _hp
    | intro _

theorem moves_bankTestEnd {ps : List Part} {s0 s : State} {x1} {x2} (_hp : [.freeN, .out, .regs, .scope, .sv, .mend, .sx, .fx, .ob, .px, .bx, .cx, .mx] ⊆ ps) (h : moves ps s0 s) :
    moves ps s0 (State.bankTestEnd s x1 x2) := by
  unfold State.bankTestEnd
  (try dsimp only)
  repeat' first
    | with_reducible assumption
    | split
    | with_reducible apply moves_setRg
    | with_reducible apply moves_mendEnd
    | exact _hp (by decide)
    | exact List.Subset.trans (by decide) _hp
    | intro _

theorem moves_execMendActivityEnd {ps : List Part} {s0 s : State} {x0} {x1} (_hp : [.freeN, .out, .regs, .shadow, .scope, .sv, .mend, .sx, .fx, .ob, .px, .bx, .cx, .mx] ⊆ ps) (h : moves ps s0 s) :
    ∀ t, (execMendActivityEnd x0 x1 s) = .next t → moves ps s0 t := by
  unfold execMendActivityEnd
  intro t ht
  injection ht with ht; subst ht
  (try dsimp only)
  repeat' first
    | with_reducible assumption
    | split
    | with_reducible apply moves_mendReport
    | with_reducible apply moves_drainUnless
    | with_reducible apply moves_fenceDone
    | with_reducible apply moves_bankTestEnd
    | with_reducible apply moves_mendEnd
    | exact _hp (by decide)
    | exact List.Subset.trans (by decide) _hp
    | intro _

theorem moves_execFaultBankFence {ps : List Part} {s0 s : State} {x0} {x1} (_hp : [.freeN, .out, .regs, .shadow, .scope, .sv, .mend, .sx, .fx, .ob, .px, .bx, .cx, .mx] ⊆ ps) (h : moves ps s0 s) :
    ∀ t, (execFaultBankFence x0 x1 s) = .next t → moves ps s0 t := by
  unfold execFaultBankFence
  intro t ht
  injection ht with ht; subst ht
  (try dsimp only)
  repeat' first
    | with_reducible assumption
    | split
    | with_reducible apply moves_drainUnless
    | with_reducible apply moves_bankFence
    | exact _hp (by decide)
    | exact List.Subset.trans (by decide) _hp
    | intro _

theorem moves_execCipherMismatch {ps : List Part} {s0 s : State} {x0} {x1} {x2} (_hp : [.freeN, .out, .regs, .scope, .sv, .mend, .sx, .fx, .ob, .px, .bx, .cx, .mx] ⊆ ps) (h : moves ps s0 s) :
    ∀ t, (execCipherMismatch x0 x1 x2 s) = .next t → moves ps s0 t := by
  unfold execCipherMismatch
  intro t ht
  injection ht with ht; subst ht
  (try dsimp only)
  repeat' first
    | with_reducible assumption
    | split
    | with_reducible apply moves_only
    | with_reducible apply moves_setRg
    | with_reducible apply moves_retirePair
    | with_reducible apply moves_bump
    | with_reducible apply moves_fault
    | with_reducible apply moves_raise
    | exact _hp (by decide)
    | exact List.Subset.trans (by decide) _hp
    | intro _

theorem moves_execPatrolScrub {ps : List Part} {s0 s : State} {x0} {x1} {x2} (_hp : [.freeN, .out, .regs, .shadow, .scope, .sv, .mend, .sx, .fx, .ob, .px, .bx, .cx, .mx] ⊆ ps) (h : moves ps s0 s) :
    ∀ t, (execPatrolScrub x0 x1 x2 s) = .next t → moves ps s0 t := by
  unfold execPatrolScrub
  intro t ht
  injection ht with ht; subst ht
  (try dsimp only)
  repeat' first
    | with_reducible assumption
    | split
    | with_reducible apply moves_fault
    | with_reducible apply moves_bump
    | with_reducible apply moves_drainUnless
    | with_reducible apply moves_bankFence
    | with_reducible apply moves_scrubFdb
    | with_reducible apply moves_scrubPage
    | with_reducible apply moves_scrubMsgRam
    | with_reducible apply moves_dramUe
    | with_reducible apply moves_emit
    | with_reducible apply moves_scrubTable
    | exact _hp (by decide)
    | exact List.Subset.trans (by decide) _hp
    | intro _

end Sys2Proof.Machine
end

