-- ==== Sys2Proof/Laws/MovesAonView.lean ====
section
/-!
SUPPORT. What each operation of Machine/AonView.lean can do: the parts of the state it may change, and what it keeps
(`moves`, Safety.lean). One lemma for each operation; callers cite it and do not unfold the operation.
-/

set_option linter.unusedTactic false
set_option linter.unreachableTactic false
set_option linter.unusedSimpArgs false

namespace Sys2Proof.Machine

open State

theorem moves_refreshMirror {ps : List Part} {s0 s : State} (_hp : [.mirror] ⊆ ps) (h : moves ps s0 s) :
    moves ps s0 (State.refreshMirror s) := by
  unfold State.refreshMirror
  (try dsimp only)
  repeat' first
    | with_reducible assumption
    | split
    | with_reducible apply moves_upd_mirror
    | exact _hp (by decide)
    | exact List.Subset.trans (by decide) _hp
    | intro _

end Sys2Proof.Machine
end

