-- ==== Sys2Proof/Laws/MovesLedgerOps.lean ====
section
/-!
SUPPORT. What each operation of Machine/LedgerOps.lean can do: the parts of the state it may change, and what it keeps
(`moves`, Safety.lean). One lemma for each operation; callers cite it and do not unfold the operation.
-/

set_option linter.unusedTactic false
set_option linter.unreachableTactic false
set_option linter.unusedSimpArgs false

namespace Sys2Proof.Machine

open State

theorem moves_showLedger {ps : List Part} {s0 s : State} (_hp : [.regs] ⊆ ps) (h : moves ps s0 s) :
    moves ps s0 (State.showLedger s) := by
  unfold State.showLedger
  (try dsimp only)
  repeat' first
    | with_reducible assumption
    | split
    | with_reducible apply moves_wr
    | exact _hp (by decide)
    | exact List.Subset.trans (by decide) _hp
    | intro _

theorem moves_ledgerRoom {ps : List Part} {s0 s : State} (_hp : [.out, .regs, .scope, .ob, .nv] ⊆ ps) (h : moves ps s0 s) :
    moves ps s0 (State.ledgerRoom s) := by
  unfold State.ledgerRoom
  (try dsimp only)
  repeat' first
    | with_reducible assumption
    | split
    | with_reducible apply moves_raise
    | with_reducible apply moves_nvErase
    | with_reducible apply moves_upd_ob
    | exact _hp (by decide)
    | exact List.Subset.trans (by decide) _hp
    | intro _

theorem moves_ledgerWrite {ps : List Part} {s0 s : State} {x1} (_hp : [.out, .regs, .scope, .ob, .nv] ⊆ ps) (h : moves ps s0 s) :
    moves ps s0 (State.ledgerWrite s x1) := by
  unfold State.ledgerWrite
  (try dsimp only)
  repeat' first
    | with_reducible assumption
    | split
    | with_reducible apply moves_ledgerRoom
    | with_reducible apply moves_kxUse
    | with_reducible refine moves_kxUse_eq ?_ ?_ (by assumption)
    | with_reducible apply moves_raise
    | with_reducible apply moves_nvProgram
    | with_reducible apply moves_showLedger
    | with_reducible apply moves_upd_ob
    | exact _hp (by decide)
    | exact List.Subset.trans (by decide) _hp
    | intro _

theorem moves_ledgerFlush {ps : List Part} {s0 s : State} (_hp : [.out, .regs, .scope, .ob, .nv] ⊆ ps) (h : moves ps s0 s) :
    moves ps s0 (State.ledgerFlush s) := by
  unfold State.ledgerFlush
  (try dsimp only)
  repeat' first
    | with_reducible assumption
    | split
    | with_reducible apply moves_forEach
    | with_reducible apply moves_ledgerWrite
    | with_reducible apply moves_ledgerAdd
    | with_reducible apply moves_upd_ob
    | exact _hp (by decide)
    | exact List.Subset.trans (by decide) _hp
    | intro _

theorem moves_ledgerScan {ps : List Part} {s0 s : State} (_hp : [.regs, .ob] ⊆ ps) (h : moves ps s0 s) :
    moves ps s0 (State.ledgerScan s) := by
  unfold State.ledgerScan
  (try dsimp only)
  repeat' first
    | with_reducible assumption
    | split
    | with_reducible apply moves_showLedger
    | with_reducible apply moves_upd_ob
    | exact _hp (by decide)
    | exact List.Subset.trans (by decide) _hp
    | intro _

theorem moves_ledgerVerify {ps : List Part} {s0 s : State} {x1} (_hp : [.out, .regs, .scope, .ob] ⊆ ps) (h : moves ps s0 s) :
    moves ps s0 (State.ledgerVerify s x1) := by
  unfold State.ledgerVerify
  (try dsimp only)
  repeat' first
    | with_reducible assumption
    | split
    | with_reducible apply moves_kxUse
    | with_reducible refine moves_kxUse_eq ?_ ?_ (by assumption)
    | with_reducible apply moves_wr
    | with_reducible apply moves_raise
    | with_reducible apply moves_upd_ob
    | exact _hp (by decide)
    | exact List.Subset.trans (by decide) _hp
    | intro _

end Sys2Proof.Machine
end

