-- ==== Sys2Proof/Laws/MovesModeOps.lean ====
section
/-!
SUPPORT. What each operation of Machine/ModeOps.lean can do: the parts of the state it may change, and what it keeps
(`moves`, Safety.lean). One lemma for each operation; callers cite it and do not unfold the operation.
-/

set_option linter.unusedTactic false
set_option linter.unreachableTactic false
set_option linter.unusedSimpArgs false

namespace Sys2Proof.Machine

open State

theorem moves_tornHelper {ps : List Part} {s0 s : State} (_hp : [.freeN, .nv] ⊆ ps) (h : moves ps s0 s) :
    moves ps s0 (State.tornHelper s) := by
  unfold State.tornHelper
  (try dsimp only)
  repeat' first
    | with_reducible assumption
    | split
    | with_reducible apply moves_nvPutAll
    | with_reducible apply moves_useFree
    | exact _hp (by decide)
    | exact List.Subset.trans (by decide) _hp
    | intro _

theorem moves_socReset {ps : List Part} {s0 s : State} {x1} (_hp : [.freeN, .regs, .active, .shadow, .swapped, .epochs, .latches, .mirror, .scope, .pw, .sv, .mend, .sx, .fx, .te, .ob, .px, .nv, .kx, .ce, .upd, .bx, .cx, .mx] ⊆ ps) (h : moves ps s0 s) :
    moves ps s0 (State.socReset s x1) := by
  have ht := moves_copyCut (List.Subset.trans (by decide) _hp) (moves_tornHelper (List.Subset.trans (by decide) _hp) h)
  unfold State.socReset
  dsimp only
  generalize s.tornHelper.copyCut = u at ht ⊢
  refine ⟨?_, fun k => Sparse.wf_set _ _ (Sparse.wf_filter _ (ht.2.regs k)), fun _ => rfl, ht.2.flash, ht.2.fuses, ht.2.counter, ht.2.ftk, ht.2.keyHash, ht.2.now, ht.2.freeN, ht.2.out⟩
  intro p hn
  cases p
  · exact ht.1 .pending hn
  · exact ht.1 .now hn
  · exact ht.1 .freeN hn
  · exact ht.1 .out hn
  · exact ht.1 .resp hn
  · exact absurd (_hp (by decide)) hn
  · exact absurd (_hp (by decide)) hn
  · exact absurd (_hp (by decide)) hn
  · exact absurd (_hp (by decide)) hn
  · exact absurd (_hp (by decide)) hn
  · exact absurd (_hp (by decide)) hn
  · exact absurd (_hp (by decide)) hn
  · exact absurd (_hp (by decide)) hn
  · exact absurd (_hp (by decide)) hn
  · exact absurd (_hp (by decide)) hn
  · exact absurd (_hp (by decide)) hn
  · exact absurd (_hp (by decide)) hn
  · exact absurd (_hp (by decide)) hn
  · exact absurd (_hp (by decide)) hn
  · exact absurd (_hp (by decide)) hn
  · exact absurd (_hp (by decide)) hn
  · exact ht.1 .nv hn
  · exact absurd (_hp (by decide)) hn
  · exact absurd (_hp (by decide)) hn
  · exact absurd (_hp (by decide)) hn
  · exact absurd (_hp (by decide)) hn
  · exact ht.1 .aon hn
  · exact absurd (_hp (by decide)) hn
  · exact absurd (_hp (by decide)) hn

theorem moves_brownOut {ps : List Part} {s0 s : State}  (_hp : [.freeN, .regs, .active, .shadow, .swapped, .epochs, .latches, .mirror, .scope, .pw, .sv, .mend, .sx, .fx, .te, .ob, .px, .nv, .kx, .ce, .upd, .bx, .aon, .cx, .mx] ⊆ ps) (h : moves ps s0 s) :
    moves ps s0 (State.brownOut s) := by
  have ht := moves_copyCut (List.Subset.trans (by decide) _hp) (moves_tornHelper (List.Subset.trans (by decide) _hp) h)
  unfold State.brownOut
  dsimp only
  generalize s.tornHelper.copyCut = u at ht ⊢
  refine ⟨?_, fun _ => rfl, fun _ => rfl, ht.2.flash, ht.2.fuses, ht.2.counter, ht.2.ftk, ht.2.keyHash, ht.2.now, ht.2.freeN, ht.2.out⟩
  intro p hn
  cases p
  · exact ht.1 .pending hn
  · exact ht.1 .now hn
  · exact ht.1 .freeN hn
  · exact ht.1 .out hn
  · exact ht.1 .resp hn
  · exact absurd (_hp (by decide)) hn
  · exact absurd (_hp (by decide)) hn
  · exact absurd (_hp (by decide)) hn
  · exact absurd (_hp (by decide)) hn
  · exact absurd (_hp (by decide)) hn
  · exact absurd (_hp (by decide)) hn
  · exact absurd (_hp (by decide)) hn
  · exact absurd (_hp (by decide)) hn
  · exact absurd (_hp (by decide)) hn
  · exact absurd (_hp (by decide)) hn
  · exact absurd (_hp (by decide)) hn
  · exact absurd (_hp (by decide)) hn
  · exact absurd (_hp (by decide)) hn
  · exact absurd (_hp (by decide)) hn
  · exact absurd (_hp (by decide)) hn
  · exact absurd (_hp (by decide)) hn
  · exact ht.1 .nv hn
  · exact absurd (_hp (by decide)) hn
  · exact absurd (_hp (by decide)) hn
  · exact absurd (_hp (by decide)) hn
  · exact absurd (_hp (by decide)) hn
  · exact absurd (_hp (by decide)) hn
  · exact absurd (_hp (by decide)) hn
  · exact absurd (_hp (by decide)) hn

theorem moves_setFlashMode {ps : List Part} {s0 s : State} (_hp : [.out, .regs] ⊆ ps) (h : moves ps s0 s) :
    moves ps s0 (State.setFlashMode s) := by
  unfold State.setFlashMode
  (try dsimp only)
  repeat' first
    | with_reducible assumption
    | split
    | with_reducible apply moves_emit
    | with_reducible apply moves_setRg
    | exact _hp (by decide)
    | exact List.Subset.trans (by decide) _hp
    | intro _

theorem moves_enterRescue {ps : List Part} {s0 s : State} (_hp : [.out, .regs, .scope, .pw] ⊆ ps) (h : moves ps s0 s) :
    moves ps s0 (State.enterRescue s) := by
  unfold State.enterRescue
  (try dsimp only)
  repeat' first
    | with_reducible assumption
    | split
    | with_reducible apply moves_setFlashMode
    | with_reducible apply moves_raise
    | with_reducible apply moves_setRg
    | with_reducible apply moves_upd_pw
    | exact _hp (by decide)
    | exact List.Subset.trans (by decide) _hp
    | intro _

theorem moves_romStart {ps : List Part} {s0 s : State} (_hp : [.freeN, .out, .regs, .mirror, .scope, .pw, .kx] ⊆ ps) (h : moves ps s0 s) :
    moves ps s0 (State.romStart s) := by
  unfold State.romStart
  (try dsimp only)
  repeat' first
    | with_reducible assumption
    | split
    | with_reducible apply moves_useFree
    | with_reducible apply moves_wr
    | with_reducible apply moves_setRg
    | with_reducible apply moves_refreshMirror
    | with_reducible apply moves_transportNodes
    | with_reducible apply moves_enterRescue
    | with_reducible apply moves_upd_pw_kx
    | exact _hp (by decide)
    | exact List.Subset.trans (by decide) _hp
    | intro _

theorem moves_releaseSoc {ps : List Part} {s0 s : State} (_hp : [.freeN, .out, .regs, .mirror, .scope, .pw, .kx] ⊆ ps) (h : moves ps s0 s) :
    moves ps s0 (State.releaseSoc s) := by
  unfold State.releaseSoc
  (try dsimp only)
  repeat' first
    | with_reducible assumption
    | split
    | with_reducible apply moves_romStart
    | with_reducible apply moves_upd_pw
    | exact _hp (by decide)
    | exact List.Subset.trans (by decide) _hp
    | intro _

theorem moves_resetSoc {ps : List Part} {s0 s : State} {x1} (_hp : [.freeN, .out, .regs, .active, .shadow, .swapped, .epochs, .latches, .mirror, .scope, .pw, .sv, .mend, .sx, .fx, .te, .ob, .px, .nv, .kx, .ce, .upd, .bx, .cx, .mx] ⊆ ps) (h : moves ps s0 s) :
    moves ps s0 (State.resetSoc s x1) := by
  unfold State.resetSoc
  (try dsimp only)
  repeat' first
    | with_reducible assumption
    | split
    | with_reducible apply moves_releaseSoc
    | with_reducible apply moves_socReset
    | exact _hp (by decide)
    | exact List.Subset.trans (by decide) _hp
    | intro _

theorem moves_romTested {ps : List Part} {s0 s : State} {x1} (_hp : [.out, .regs, .scope, .pw, .nv, .upd] ⊆ ps) (h : moves ps s0 s) :
    moves ps s0 (State.romTested s x1) := by
  unfold State.romTested
  (try dsimp only)
  repeat' first
    | with_reducible assumption
    | split
    | with_reducible apply moves_setFlashMode
    | with_reducible apply moves_enterRescue
    | with_reducible apply moves_copyStart
    | with_reducible refine moves_copyStart_eq ?_ ?_ (by assumption)
    | with_reducible apply moves_upd_pw
    | exact _hp (by decide)
    | exact List.Subset.trans (by decide) _hp
    | intro _

theorem moves_noteFull {ps : List Part} {s0 s : State} (_hp : [.regs, .pw] ⊆ ps) (h : moves ps s0 s) :
    moves ps s0 (State.noteFull s) := by
  unfold State.noteFull
  (try dsimp only)
  repeat' first
    | with_reducible assumption
    | split
    | with_reducible apply moves_wr
    | with_reducible apply moves_upd_pw
    | exact _hp (by decide)
    | exact List.Subset.trans (by decide) _hp
    | intro _

theorem moves_enterRun {ps : List Part} {s0 s : State} (_hp : [.freeN, .out, .regs, .scope, .pw, .sx, .fx, .ob, .px, .bx, .cx, .mx] ⊆ ps) (h : moves ps s0 s) :
    moves ps s0 (State.enterRun s) := by
  unfold State.enterRun
  (try dsimp only)
  repeat' first
    | with_reducible assumption
    | split
    | with_reducible apply moves_noteFull
    | with_reducible apply moves_setRg
    | with_reducible apply moves_clusterRelease
    | with_reducible apply moves_upd_pw
    | exact _hp (by decide)
    | exact List.Subset.trans (by decide) _hp
    | intro _

theorem moves_moveEnds {ps : List Part} {s0 s : State} (_hp : [.freeN, .out, .regs, .scope, .pw, .sx, .fx, .ob, .px, .bx, .cx, .mx] ⊆ ps) (h : moves ps s0 s) :
    moves ps s0 (State.moveEnds s) := by
  unfold State.moveEnds
  (try dsimp only)
  repeat' first
    | with_reducible assumption
    | split
    | with_reducible apply moves_raise
    | with_reducible apply moves_setRg
    | with_reducible apply moves_modeAuto
    | with_reducible apply moves_tryRun
    | with_reducible apply moves_hamJudge
    | with_reducible apply moves_portsJudge
    | with_reducible apply moves_upd_pw
    | exact _hp (by decide)
    | exact List.Subset.trans (by decide) _hp
    | intro _

theorem moves_modeRefuse {ps : List Part} {s0 s : State} {x1} {x2} (_hp : [.out, .regs, .scope] ⊆ ps) (h : moves ps s0 s) :
    moves ps s0 (State.modeRefuse s x1 x2) := by
  unfold State.modeRefuse
  (try dsimp only)
  repeat' first
    | with_reducible assumption
    | split
    | with_reducible apply moves_raise
    | with_reducible apply moves_setRg
    | exact _hp (by decide)
    | exact List.Subset.trans (by decide) _hp
    | intro _

theorem moves_modeReq {ps : List Part} {s0 s : State} {x1} {x2} {x3} {x4} (_hp : [.out, .resp, .regs, .scope] ⊆ ps) (hf4 : ∀ y0, moves ps s0 y0 → moves ps s0 (x4 y0)) (h : moves ps s0 s) :
    moves ps s0 (State.modeReq s x1 x2 x3 x4) := by
  unfold State.modeReq
  (try dsimp only)
  repeat' first
    | with_reducible assumption
    | split
    | with_reducible apply hf4
    | with_reducible apply moves_byAgent
    | with_reducible apply moves_modeRefuse
    | exact _hp (by decide)
    | exact List.Subset.trans (by decide) _hp
    | intro _

theorem moves_enterFactory {ps : List Part} {s0 s : State} {x1} (_hp : [.freeN, .out, .regs, .scope, .pw, .sx, .fx, .ob, .px, .bx, .cx, .mx] ⊆ ps) (h : moves ps s0 s) :
    moves ps s0 (State.enterFactory s x1) := by
  unfold State.enterFactory
  (try dsimp only)
  repeat' first
    | with_reducible assumption
    | split
    | with_reducible apply moves_setRg
    | with_reducible apply moves_clusterRelease
    | with_reducible apply moves_moveEnds
    | with_reducible apply moves_upd_pw
    | exact _hp (by decide)
    | exact List.Subset.trans (by decide) _hp
    | intro _

theorem moves_toRunStep {ps : List Part} {s0 s : State} {x1} (_hp : [.freeN, .out, .regs, .scope, .pw, .sx, .fx, .ob, .px, .bx, .cx, .mx] ⊆ ps) (h : moves ps s0 s) :
    moves ps s0 (State.toRunStep s x1) := by
  unfold State.toRunStep
  (try dsimp only)
  repeat' first
    | with_reducible assumption
    | split
    | with_reducible apply moves_hamJudge
    | with_reducible apply moves_copyImage
    | with_reducible apply moves_portsJudge
    | with_reducible apply moves_upd_pw
    | exact _hp (by decide)
    | exact List.Subset.trans (by decide) _hp
    | intro _

theorem moves_cxIntoReset {ps : List Part} {s0 s : State} (_hp : [.regs, .pw, .cx] ⊆ ps) (h : moves ps s0 s) :
    moves ps s0 (State.cxIntoReset s) := by
  unfold State.cxIntoReset
  (try dsimp only)
  repeat' first
    | with_reducible assumption
    | split
    | with_reducible apply moves_setRg
    | with_reducible apply moves_upd_pw_cx
    | exact _hp (by decide)
    | exact List.Subset.trans (by decide) _hp
    | intro _

theorem moves_toPartialStep {ps : List Part} {s0 s : State} {x1} (_hp : [.freeN, .out, .regs, .scope, .pw, .sx, .fx, .ob, .px, .bx, .cx, .mx] ⊆ ps) (h : moves ps s0 s) :
    moves ps s0 (State.toPartialStep s x1) := by
  unfold State.toPartialStep
  (try dsimp only)
  repeat' first
    | with_reducible assumption
    | split
    | with_reducible apply moves_forEach
    | with_reducible apply moves_portDown
    | with_reducible apply moves_releaseAllPages
    | with_reducible apply moves_hamJudge
    | with_reducible apply moves_cxIntoReset
    | with_reducible apply moves_moveEnds
    | with_reducible apply moves_setRg
    | with_reducible apply moves_upd_pw
    | exact _hp (by decide)
    | exact List.Subset.trans (by decide) _hp
    | intro _

theorem moves_listenRecord {ps : List Part} {s0 s : State} (_hp : [.out, .regs, .scope, .ob] ⊆ ps) (h : moves ps s0 s) :
    moves ps s0 (State.listenRecord s) := by
  unfold State.listenRecord
  (try dsimp only)
  repeat' first
    | with_reducible assumption
    | split
    | with_reducible apply moves_ledgerAdd
    | exact _hp (by decide)
    | exact List.Subset.trans (by decide) _hp
    | intro _

theorem moves_listenEntry {ps : List Part} {s0 s : State} (_hp : [.out, .regs, .shadow, .scope, .pw, .sv, .fx, .ob, .nv, .upd, .aon] ⊆ ps) (h : moves ps s0 s) :
    moves ps s0 (State.listenEntry s) := by
  unfold State.listenEntry
  (try dsimp only)
  repeat' first
    | with_reducible assumption
    | split
    | with_reducible apply moves_forEach
    | with_reducible apply moves_freeHandle
    | with_reducible apply moves_closeUpdate
    | with_reducible apply moves_closeSession
    | with_reducible apply moves_ledgerFlush
    | with_reducible apply moves_listenRecord
    | with_reducible apply moves_upd_pw_aon
    | exact _hp (by decide)
    | exact List.Subset.trans (by decide) _hp
    | intro _

theorem moves_sdRelease {ps : List Part} {s0 s : State} {x1} (_hp : [.regs, .pw, .aon] ⊆ ps) (h : moves ps s0 s) :
    moves ps s0 (State.sdRelease s x1) := by
  unfold State.sdRelease
  (try dsimp only)
  repeat' first
    | with_reducible assumption
    | split
    | with_reducible apply moves_sdWake
    | with_reducible apply moves_sdHold
    | with_reducible apply moves_setSd
    | exact _hp (by decide)
    | exact List.Subset.trans (by decide) _hp
    | intro _

theorem moves_railsOff {ps : List Part} {s0 s : State} (_hp : [.freeN, .regs, .active, .shadow, .swapped, .epochs, .latches, .mirror, .scope, .pw, .sv, .mend, .sx, .fx, .te, .ob, .px, .nv, .kx, .ce, .upd, .bx, .aon, .cx, .mx] ⊆ ps) (h : moves ps s0 s) :
    moves ps s0 (State.railsOff s) := by
  unfold State.railsOff
  (try dsimp only)
  repeat' first
    | with_reducible assumption
    | split
    | with_reducible apply moves_socReset
    | with_reducible apply moves_startRails
    | with_reducible apply moves_forEach
    | with_reducible apply moves_sdRelease
    | with_reducible apply moves_upd_pw
    | exact _hp (by decide)
    | exact List.Subset.trans (by decide) _hp
    | intro _

theorem moves_dropRail {ps : List Part} {s0 s : State} (_hp : [.pw] ⊆ ps) (h : moves ps s0 s) :
    moves ps s0 (State.dropRail s) := by
  unfold State.dropRail
  (try dsimp only)
  repeat' first
    | with_reducible assumption
    | split
    | with_reducible apply moves_upd_pw
    | exact _hp (by decide)
    | exact List.Subset.trans (by decide) _hp
    | intro _

theorem moves_faultFall {ps : List Part} {s0 s : State} {x1} (_hp : [.pw, .aon] ⊆ ps) (h : moves ps s0 s) :
    moves ps s0 (State.faultFall s x1) := by
  unfold State.faultFall
  (try dsimp only)
  repeat' first
    | with_reducible assumption
    | split
    | with_reducible apply moves_upd_pw_aon
    | exact _hp (by decide)
    | exact List.Subset.trans (by decide) _hp
    | intro _

theorem moves_retryWait {ps : List Part} {s0 s : State} (_hp : [.pw] ⊆ ps) (h : moves ps s0 s) :
    moves ps s0 (State.retryWait s) := by
  unfold State.retryWait
  (try dsimp only)
  repeat' first
    | with_reducible assumption
    | split
    | with_reducible apply moves_startRails
    | with_reducible apply moves_upd_pw
    | exact _hp (by decide)
    | exact List.Subset.trans (by decide) _hp
    | intro _

theorem moves_railFault {ps : List Part} {s0 s : State} {x1} {x2} (_hp : [.regs] ⊆ ps) (h : moves ps s0 s) :
    moves ps s0 (State.railFault s x1 x2) := by
  unfold State.railFault
  (try dsimp only)
  repeat' first
    | with_reducible assumption
    | split
    | with_reducible apply moves_tick
    | with_reducible apply moves_setRg
    | exact _hp (by decide)
    | exact List.Subset.trans (by decide) _hp
    | intro _

end Sys2Proof.Machine
end

