-- ==== Sys2Proof/Laws/MovesModes.lean ====
section
/-!
SUPPORT. What each operation of Machine/Modes.lean can do: the parts of the state it may change, and what it keeps
(`moves`, Safety.lean). One lemma for each operation; callers cite it and do not unfold the operation.
-/

set_option linter.unusedTactic false
set_option linter.unreachableTactic false
set_option linter.unusedSimpArgs false

namespace Sys2Proof.Machine

open State

theorem moves_execModeReqPartial {ps : List Part} {s0 s : State} {x0} (_hp : [.out, .resp, .regs, .scope, .pw] ⊆ ps) (h : moves ps s0 s) :
    ∀ t, (execModeReqPartial x0 s) = .next t → moves ps s0 t := by
  unfold execModeReqPartial
  intro t ht
  injection ht with ht; subst ht
  (try dsimp only)
  repeat' first
    | with_reducible assumption
    | split
    | with_reducible apply moves_modeReq
    | with_reducible apply moves_startMove
    | exact _hp (by decide)
    | exact List.Subset.trans (by decide) _hp
    | intro _

theorem moves_execModeReqRun {ps : List Part} {s0 s : State} {x0} (_hp : [.out, .resp, .regs, .scope, .pw] ⊆ ps) (h : moves ps s0 s) :
    ∀ t, (execModeReqRun x0 s) = .next t → moves ps s0 t := by
  unfold execModeReqRun
  intro t ht
  injection ht with ht; subst ht
  (try dsimp only)
  repeat' first
    | with_reducible assumption
    | split
    | with_reducible apply moves_modeReq
    | with_reducible apply moves_setRg
    | with_reducible apply moves_startMove
    | exact _hp (by decide)
    | exact List.Subset.trans (by decide) _hp
    | intro _

theorem moves_execModeReqListen {ps : List Part} {s0 s : State} {x0} (_hp : [.out, .resp, .regs, .scope, .pw] ⊆ ps) (h : moves ps s0 s) :
    ∀ t, (execModeReqListen x0 s) = .next t → moves ps s0 t := by
  unfold execModeReqListen
  intro t ht
  injection ht with ht; subst ht
  (try dsimp only)
  repeat' first
    | with_reducible assumption
    | split
    | with_reducible apply moves_modeReq
    | with_reducible apply moves_startMove
    | exact _hp (by decide)
    | exact List.Subset.trans (by decide) _hp
    | intro _

theorem moves_execModeReqRescue {ps : List Part} {s0 s : State} {x0} (_hp : [.freeN, .out, .resp, .regs, .active, .shadow, .swapped, .epochs, .latches, .mirror, .scope, .pw, .sv, .mend, .sx, .fx, .te, .ob, .px, .nv, .kx, .ce, .upd, .bx, .cx, .mx] ⊆ ps) (h : moves ps s0 s) :
    ∀ t, (execModeReqRescue x0 s) = .next t → moves ps s0 t := by
  unfold execModeReqRescue
  intro t ht
  injection ht with ht; subst ht
  (try dsimp only)
  repeat' first
    | with_reducible assumption
    | split
    | with_reducible apply moves_modeReq
    | with_reducible apply moves_resetSoc
    | exact _hp (by decide)
    | exact List.Subset.trans (by decide) _hp
    | intro _

theorem moves_execModeReqFactory {ps : List Part} {s0 s : State} {x0} (_hp : [.freeN, .out, .resp, .regs, .scope, .pw, .sx, .fx, .ob, .px, .bx, .cx, .mx] ⊆ ps) (h : moves ps s0 s) :
    ∀ t, (execModeReqFactory x0 s) = .next t → moves ps s0 t := by
  unfold execModeReqFactory
  intro t ht
  injection ht with ht; subst ht
  (try dsimp only)
  repeat' first
    | with_reducible assumption
    | split
    | with_reducible apply moves_modeReq
    | with_reducible apply moves_modeRefuse
    | with_reducible apply moves_enterFactory
    | exact _hp (by decide)
    | exact List.Subset.trans (by decide) _hp
    | intro _

theorem moves_execPartialToRunStep {ps : List Part} {s0 s : State} (_hp : [.freeN, .out, .regs, .scope, .pw, .sx, .fx, .ob, .px, .bx, .cx, .mx] ⊆ ps) (h : moves ps s0 s) :
    ∀ t, (execPartialToRunStep s) = .next t → moves ps s0 t := by
  unfold execPartialToRunStep
  intro t ht
  injection ht with ht; subst ht
  (try dsimp only)
  repeat' first
    | with_reducible assumption
    | split
    | with_reducible apply moves_toRunStep
    | exact _hp (by decide)
    | exact List.Subset.trans (by decide) _hp
    | intro _

theorem moves_execRunEntry {ps : List Part} {s0 s : State} (_hp : [.freeN, .out, .regs, .scope, .pw, .sx, .fx, .ob, .px, .bx, .cx, .mx] ⊆ ps) (h : moves ps s0 s) :
    ∀ t, (execRunEntry s) = .next t → moves ps s0 t := by
  unfold execRunEntry
  intro t ht
  injection ht with ht; subst ht
  (try dsimp only)
  repeat' first
    | with_reducible assumption
    | split
    | with_reducible apply moves_moveEnds
    | with_reducible apply moves_enterRun
    | exact _hp (by decide)
    | exact List.Subset.trans (by decide) _hp
    | intro _

theorem moves_execRunToPartialStep {ps : List Part} {s0 s : State} (_hp : [.freeN, .out, .regs, .shadow, .scope, .pw, .sv, .sx, .fx, .ob, .px, .bx, .cx, .mx] ⊆ ps) (h : moves ps s0 s) :
    ∀ t, (execRunToPartialStep s) = .next t → moves ps s0 t := by
  unfold execRunToPartialStep
  intro t ht
  injection ht with ht; subst ht
  (try dsimp only)
  repeat' first
    | with_reducible assumption
    | split
    | with_reducible apply moves_drainUnless
    | with_reducible apply moves_toPartialStep
    | exact _hp (by decide)
    | exact List.Subset.trans (by decide) _hp
    | intro _

theorem moves_execListenEntry {ps : List Part} {s0 s : State} (_hp : [.out, .regs, .shadow, .scope, .pw, .sv, .fx, .ob, .nv, .upd, .aon] ⊆ ps) (h : moves ps s0 s) :
    ∀ t, (execListenEntry s) = .next t → moves ps s0 t := by
  unfold execListenEntry
  intro t ht
  injection ht with ht; subst ht
  (try dsimp only)
  repeat' first
    | with_reducible assumption
    | split
    | with_reducible apply moves_listenEntry
    | exact _hp (by decide)
    | exact List.Subset.trans (by decide) _hp
    | intro _

theorem moves_execRailsOff {ps : List Part} {s0 s : State} (_hp : [.freeN, .regs, .active, .shadow, .swapped, .epochs, .latches, .mirror, .scope, .pw, .sv, .mend, .sx, .fx, .te, .ob, .px, .nv, .kx, .ce, .upd, .bx, .aon, .cx, .mx] ⊆ ps) (h : moves ps s0 s) :
    ∀ t, (execRailsOff s) = .next t → moves ps s0 t := by
  unfold execRailsOff
  intro t ht
  injection ht with ht; subst ht
  (try dsimp only)
  repeat' first
    | with_reducible assumption
    | split
    | with_reducible apply moves_retryWait
    | with_reducible apply moves_railsOff
    | exact _hp (by decide)
    | exact List.Subset.trans (by decide) _hp
    | intro _

theorem moves_execVbatAonPowerOn {ps : List Part} {s0 s : State} (_hp : [.regs, .pw, .aon] ⊆ ps) (h : moves ps s0 s) :
    ∀ t, (execVbatAonPowerOn s) = .next t → moves ps s0 t := by
  unfold execVbatAonPowerOn
  intro t ht
  injection ht with ht; subst ht
  (try dsimp only)
  repeat' first
    | with_reducible assumption
    | split
    | with_reducible apply moves_setRg
    | with_reducible apply moves_upd_pw_aon
    | exact _hp (by decide)
    | exact List.Subset.trans (by decide) _hp
    | intro _

theorem moves_execVbatAonBrownout {ps : List Part} {s0 s : State} (_hp : [.freeN, .regs, .active, .shadow, .swapped, .epochs, .latches, .mirror, .scope, .pw, .sv, .mend, .sx, .fx, .te, .ob, .px, .nv, .kx, .ce, .upd, .bx, .aon, .cx, .mx] ⊆ ps) (h : moves ps s0 s) :
    ∀ t, (execVbatAonBrownout s) = .next t → moves ps s0 t := by
  unfold execVbatAonBrownout
  intro t ht
  injection ht with ht; subst ht
  (try dsimp only)
  repeat' first
    | with_reducible assumption
    | split
    | with_reducible apply moves_brownOut
    | exact _hp (by decide)
    | exact List.Subset.trans (by decide) _hp
    | intro _

theorem moves_execPwTrimsLoaded {ps : List Part} {s0 s : State} (_hp : [.pw] ⊆ ps) (h : moves ps s0 s) :
    ∀ t, (execPwTrimsLoaded s) = .next t → moves ps s0 t := by
  unfold execPwTrimsLoaded
  intro t ht
  injection ht with ht; subst ht
  (try dsimp only)
  repeat' first
    | with_reducible assumption
    | split
    | with_reducible apply moves_startRails
    | with_reducible apply moves_upd_pw
    | exact _hp (by decide)
    | exact List.Subset.trans (by decide) _hp
    | intro _

theorem moves_execRtcCrystalStable {ps : List Part} {s0 s : State} (_hp : [.regs] ⊆ ps) (h : moves ps s0 s) :
    ∀ t, (execRtcCrystalStable s) = .next t → moves ps s0 t := by
  unfold execRtcCrystalStable
  intro t ht
  injection ht with ht; subst ht
  (try dsimp only)
  repeat' first
    | with_reducible assumption
    | split
    | with_reducible apply moves_setRg
    | exact _hp (by decide)
    | exact List.Subset.trans (by decide) _hp
    | intro _

theorem moves_execRailPgRise {ps : List Part} {s0 s : State} {x0} (_hp : [.pw] ⊆ ps) (h : moves ps s0 s) :
    ∀ t, (execRailPgRise x0 s) = .next t → moves ps s0 t := by
  unfold execRailPgRise
  intro t ht
  injection ht with ht; subst ht
  (try dsimp only)
  repeat' first
    | with_reducible assumption
    | split
    | with_reducible apply moves_upd_pw
    | exact _hp (by decide)
    | exact List.Subset.trans (by decide) _hp
    | intro _

theorem moves_execRailPgTimeout {ps : List Part} {s0 s : State} {x0} (_hp : [.regs, .pw, .aon] ⊆ ps) (h : moves ps s0 s) :
    ∀ t, (execRailPgTimeout x0 s) = .next t → moves ps s0 t := by
  unfold execRailPgTimeout
  intro t ht
  injection ht with ht; subst ht
  (try dsimp only)
  repeat' first
    | with_reducible assumption
    | split
    | with_reducible apply moves_faultFall
    | with_reducible apply moves_setRg
    | with_reducible apply moves_railFault
    | with_reducible apply moves_upd_pw
    | exact _hp (by decide)
    | exact List.Subset.trans (by decide) _hp
    | intro _

theorem moves_execRailPgLost {ps : List Part} {s0 s : State} {x0} (_hp : [.freeN, .regs, .active, .shadow, .swapped, .epochs, .latches, .mirror, .scope, .pw, .sv, .mend, .sx, .fx, .te, .ob, .px, .nv, .kx, .ce, .upd, .bx, .aon, .cx, .mx] ⊆ ps) (h : moves ps s0 s) :
    ∀ t, (execRailPgLost x0 s) = .next t → moves ps s0 t := by
  unfold execRailPgLost
  intro t ht
  injection ht with ht; subst ht
  (try dsimp only)
  repeat' first
    | with_reducible assumption
    | split
    | with_reducible apply moves_faultFall
    | with_reducible apply moves_railFault
    | with_reducible apply moves_socReset
    | with_reducible apply moves_dropRail
    | with_reducible apply moves_upd_pw
    | exact _hp (by decide)
    | exact List.Subset.trans (by decide) _hp
    | intro _

theorem moves_execRailRetryTimer {ps : List Part} {s0 s : State} (_hp : [.pw] ⊆ ps) (h : moves ps s0 s) :
    ∀ t, (execRailRetryTimer s) = .next t → moves ps s0 t := by
  unfold execRailRetryTimer
  intro t ht
  injection ht with ht; subst ht
  (try dsimp only)
  repeat' first
    | with_reducible assumption
    | split
    | with_reducible apply moves_startRails
    | exact _hp (by decide)
    | exact List.Subset.trans (by decide) _hp
    | intro _

theorem moves_execSocPowerOnRelease {ps : List Part} {s0 s : State} {x0} (_hp : [.freeN, .out, .regs, .mirror, .scope, .pw, .kx] ⊆ ps) (h : moves ps s0 s) :
    ∀ t, (execSocPowerOnRelease x0 s) = .next t → moves ps s0 t := by
  unfold execSocPowerOnRelease
  intro t ht
  injection ht with ht; subst ht
  (try dsimp only)
  repeat' first
    | with_reducible assumption
    | split
    | with_reducible apply moves_releaseSoc
    | with_reducible apply moves_setRg
    | with_reducible apply moves_upd_pw
    | exact _hp (by decide)
    | exact List.Subset.trans (by decide) _hp
    | intro _

theorem moves_execRomSelfTestDone {ps : List Part} {s0 s : State} {x0} (_hp : [.out, .regs, .scope, .pw, .nv, .upd] ⊆ ps) (h : moves ps s0 s) :
    ∀ t, (execRomSelfTestDone x0 s) = .next t → moves ps s0 t := by
  unfold execRomSelfTestDone
  intro t ht
  injection ht with ht; subst ht
  (try dsimp only)
  repeat' first
    | with_reducible assumption
    | split
    | with_reducible apply moves_romTested
    | exact _hp (by decide)
    | exact List.Subset.trans (by decide) _hp
    | intro _

theorem moves_execFirmwareStart {ps : List Part} {s0 s : State} (_hp : [.out, .regs, .scope, .pw] ⊆ ps) (h : moves ps s0 s) :
    ∀ t, (execFirmwareStart s) = .next t → moves ps s0 t := by
  unfold execFirmwareStart
  intro t ht
  injection ht with ht; subst ht
  (try dsimp only)
  repeat' first
    | with_reducible assumption
    | split
    | with_reducible apply moves_updStatus
    | with_reducible apply moves_enterRescue
    | with_reducible apply moves_upd_pw
    | exact _hp (by decide)
    | exact List.Subset.trans (by decide) _hp
    | intro _

theorem moves_execPufReconstructed {ps : List Part} {s0 s : State} {x0} (_hp : [.freeN, .out, .regs, .scope, .pw, .kx] ⊆ ps) (h : moves ps s0 s) :
    ∀ t, (execPufReconstructed x0 s) = .next t → moves ps s0 t := by
  unfold execPufReconstructed
  intro t ht
  injection ht with ht; subst ht
  (try dsimp only)
  repeat' first
    | with_reducible assumption
    | split
    | with_reducible apply moves_noteErrRate
    | with_reducible apply moves_instantiate
    | with_reducible apply moves_enterKeysDown
    | with_reducible apply moves_upd_pw
    | exact _hp (by decide)
    | exact List.Subset.trans (by decide) _hp
    | intro _

theorem moves_execDramTrainingDone {ps : List Part} {s0 s : State} (_hp : [.pw] ⊆ ps) (h : moves ps s0 s) :
    ∀ t, (execDramTrainingDone s) = .next t → moves ps s0 t := by
  unfold execDramTrainingDone
  intro t ht
  injection ht with ht; subst ht
  (try dsimp only)
  repeat' first
    | with_reducible assumption
    | split
    | with_reducible apply moves_upd_pw
    | exact _hp (by decide)
    | exact List.Subset.trans (by decide) _hp
    | intro _

theorem moves_execSerdesCalibrationDone {ps : List Part} {s0 s : State} (_hp : [.freeN, .out, .regs, .scope, .pw, .sx, .fx, .ob, .px, .bx, .cx, .mx] ⊆ ps) (h : moves ps s0 s) :
    ∀ t, (execSerdesCalibrationDone s) = .next t → moves ps s0 t := by
  unfold execSerdesCalibrationDone
  intro t ht
  injection ht with ht; subst ht
  (try dsimp only)
  repeat' first
    | with_reducible assumption
    | split
    | with_reducible apply moves_portsJudge
    | with_reducible apply moves_upd_pw
    | exact _hp (by decide)
    | exact List.Subset.trans (by decide) _hp
    | intro _

theorem moves_execDramZeroingDone {ps : List Part} {s0 s : State} (_hp : [.out, .regs, .scope, .pw, .sx, .mx] ⊆ ps) (h : moves ps s0 s) :
    ∀ t, (execDramZeroingDone s) = .next t → moves ps s0 t := by
  unfold execDramZeroingDone
  intro t ht
  injection ht with ht; subst ht
  (try dsimp only)
  repeat' first
    | with_reducible assumption
    | split
    | with_reducible apply moves_hamJudge
    | with_reducible apply moves_upd_pw_mx
    | exact rfl
    | exact _hp (by decide)
    | exact List.Subset.trans (by decide) _hp
    | intro _

theorem moves_execStartRampDone {ps : List Part} {s0 s : State} (_hp : [.freeN, .out, .regs, .scope, .pw, .sx, .fx, .ob, .px, .bx, .cx, .mx] ⊆ ps) (h : moves ps s0 s) :
    ∀ t, (execStartRampDone s) = .next t → moves ps s0 t := by
  unfold execStartRampDone
  intro t ht
  injection ht with ht; subst ht
  (try dsimp only)
  repeat' first
    | with_reducible assumption
    | split
    | with_reducible apply moves_moveEnds
    | with_reducible apply moves_setRg
    | with_reducible apply moves_cxIntoReset
    | with_reducible apply moves_enterRun
    | with_reducible apply moves_upd_pw
    | exact _hp (by decide)
    | exact List.Subset.trans (by decide) _hp
    | intro _

theorem moves_execListenExit {ps : List Part} {s0 s : State} {x0} {x1} (_hp : [.out, .regs, .scope, .pw, .ob, .aon] ⊆ ps) (h : moves ps s0 s) :
    ∀ t, (execListenExit x0 x1 s) = .next t → moves ps s0 t := by
  unfold execListenExit
  intro t ht
  injection ht with ht; subst ht
  (try dsimp only)
  repeat' first
    | with_reducible assumption
    | split
    | with_reducible apply moves_wake
    | exact _hp (by decide)
    | exact List.Subset.trans (by decide) _hp
    | intro _

theorem moves_execResetNAsserted {ps : List Part} {s0 s : State} (_hp : [.freeN, .regs, .active, .shadow, .swapped, .epochs, .latches, .mirror, .scope, .pw, .sv, .mend, .sx, .fx, .te, .ob, .px, .nv, .kx, .ce, .upd, .bx, .cx, .mx] ⊆ ps) (h : moves ps s0 s) :
    ∀ t, (execResetNAsserted s) = .next t → moves ps s0 t := by
  unfold execResetNAsserted
  intro t ht
  injection ht with ht; subst ht
  (try dsimp only)
  repeat' first
    | with_reducible assumption
    | split
    | with_reducible apply moves_socReset
    | with_reducible apply moves_upd_pw
    | exact _hp (by decide)
    | exact List.Subset.trans (by decide) _hp
    | intro _

theorem moves_execResetNReleased {ps : List Part} {s0 s : State} (_hp : [.freeN, .out, .regs, .mirror, .scope, .pw, .kx] ⊆ ps) (h : moves ps s0 s) :
    ∀ t, (execResetNReleased s) = .next t → moves ps s0 t := by
  unfold execResetNReleased
  intro t ht
  injection ht with ht; subst ht
  (try dsimp only)
  repeat' first
    | with_reducible assumption
    | split
    | with_reducible apply moves_releaseSoc
    | with_reducible apply moves_upd_pw
    | exact _hp (by decide)
    | exact List.Subset.trans (by decide) _hp
    | intro _

theorem moves_execSvWatchdogExpiry {ps : List Part} {s0 s : State} (_hp : [.freeN, .out, .regs, .active, .shadow, .swapped, .epochs, .latches, .mirror, .scope, .pw, .sv, .mend, .sx, .fx, .te, .ob, .px, .nv, .kx, .ce, .upd, .bx, .cx, .mx] ⊆ ps) (h : moves ps s0 s) :
    ∀ t, (execSvWatchdogExpiry s) = .next t → moves ps s0 t := by
  unfold execSvWatchdogExpiry
  intro t ht
  injection ht with ht; subst ht
  (try dsimp only)
  repeat' first
    | with_reducible assumption
    | split
    | with_reducible apply moves_resetSoc
    | exact _hp (by decide)
    | exact List.Subset.trans (by decide) _hp
    | intro _

theorem moves_execLockstepMismatch {ps : List Part} {s0 s : State} (_hp : [.freeN, .out, .regs, .active, .shadow, .swapped, .epochs, .latches, .mirror, .scope, .pw, .sv, .mend, .sx, .fx, .te, .ob, .px, .nv, .kx, .ce, .upd, .bx, .cx, .mx] ⊆ ps) (h : moves ps s0 s) :
    ∀ t, (execLockstepMismatch s) = .next t → moves ps s0 t := by
  unfold execLockstepMismatch
  intro t ht
  injection ht with ht; subst ht
  (try dsimp only)
  repeat' first
    | with_reducible assumption
    | split
    | with_reducible apply moves_resetSoc
    | exact _hp (by decide)
    | exact List.Subset.trans (by decide) _hp
    | intro _

theorem moves_execSvResetSoc {ps : List Part} {s0 s : State} {x0} {x1} (_hp : [.freeN, .out, .resp, .regs, .active, .shadow, .swapped, .epochs, .latches, .mirror, .scope, .pw, .sv, .mend, .sx, .fx, .te, .ob, .px, .nv, .kx, .ce, .upd, .bx, .cx, .mx] ⊆ ps) (h : moves ps s0 s) :
    ∀ t, (execSvResetSoc x0 x1 s) = .next t → moves ps s0 t := by
  unfold execSvResetSoc
  intro t ht
  injection ht with ht; subst ht
  (try dsimp only)
  repeat' first
    | with_reducible assumption
    | split
    | with_reducible apply moves_byAgent
    | with_reducible apply moves_resetSoc
    | exact _hp (by decide)
    | exact List.Subset.trans (by decide) _hp
    | intro _

end Sys2Proof.Machine
end

