-- ==== Sys2Proof/Laws/MovesObserve.lean ====
section
/-!
SUPPORT. What each operation of Machine/Observe.lean can do: the parts of the state it may change, and what it keeps
(`moves`, Safety.lean). One lemma for each operation; callers cite it and do not unfold the operation.
-/

set_option linter.unusedTactic false
set_option linter.unreachableTactic false
set_option linter.unusedSimpArgs false

namespace Sys2Proof.Machine

open State

theorem moves_slotClear {ps : List Part} {s0 s : State} (_hp : [.regs, .ob] ⊆ ps) (h : moves ps s0 s) :
    moves ps s0 (State.slotClear s) := by
  unfold State.slotClear
  (try dsimp only)
  repeat' first
    | with_reducible assumption
    | split
    | with_reducible apply moves_wr64
    | with_reducible apply moves_wr
    | with_reducible apply moves_upd_ob
    | exact _hp (by decide)
    | exact List.Subset.trans (by decide) _hp
    | intro _

theorem moves_ringBad {ps : List Part} {s0 s : State} {x1} (_hp : [.out, .regs, .scope] ⊆ ps) (h : moves ps s0 s) :
    moves ps s0 (State.ringBad s x1) := by
  unfold State.ringBad
  (try dsimp only)
  repeat' first
    | with_reducible assumption
    | split
    | with_reducible apply moves_raise
    | with_reducible apply moves_setRg
    | exact _hp (by decide)
    | exact List.Subset.trans (by decide) _hp
    | intro _

theorem moves_ringWrite {ps : List Part} {s0 s : State} {x1} (_hp : [.out, .regs, .scope, .ob, .mx] ⊆ ps) (h : moves ps s0 s) :
    moves ps s0 (State.ringWrite s x1) := by
  unfold State.ringWrite
  (try dsimp only)
  repeat' first
    | with_reducible assumption
    | split
    | with_reducible apply moves_ringBad
    | with_reducible apply moves_setRing
    | with_reducible apply moves_ringLost
    | with_reducible apply moves_setRg
    | with_reducible apply moves_arbBytes
    | with_reducible apply moves_dramBypass
    | exact _hp (by decide)
    | exact List.Subset.trans (by decide) _hp
    | intro _

theorem moves_setCsu {ps : List Part} {s0 s : State} {x1} {x2} (_hp : [.ob] ⊆ ps) (h : moves ps s0 s) :
    moves ps s0 (State.setCsu s x1 x2) := by
  unfold State.setCsu
  (try dsimp only)
  repeat' first
    | with_reducible assumption
    | split
    | with_reducible apply moves_upd_ob
    | exact _hp (by decide)
    | exact List.Subset.trans (by decide) _hp
    | intro _

theorem moves_csuFrame {ps : List Part} {s0 s : State} {x1} {x2} (_hp : [.regs] ⊆ ps) (h : moves ps s0 s) :
    moves ps s0 (State.csuFrame s x1 x2) := by
  unfold State.csuFrame
  (try dsimp only)
  repeat' first
    | with_reducible assumption
    | split
    | with_reducible apply moves_bump
    | with_reducible apply moves_setRg
    | exact _hp (by decide)
    | exact List.Subset.trans (by decide) _hp
    | intro _

theorem moves_csuEnd {ps : List Part} {s0 s : State} {x1} (_hp : [.regs, .ob] ⊆ ps) (h : moves ps s0 s) :
    moves ps s0 (State.csuEnd s x1) := by
  unfold State.csuEnd
  (try dsimp only)
  repeat' first
    | with_reducible assumption
    | split
    | with_reducible apply moves_setCsu
    | with_reducible apply moves_bump
    | with_reducible apply moves_csuFrame
    | exact _hp (by decide)
    | exact List.Subset.trans (by decide) _hp
    | intro _

theorem moves_csuHold {ps : List Part} {s0 s : State} {x1} {x2} (_hp : [.regs] ⊆ ps) (h : moves ps s0 s) :
    moves ps s0 (State.csuHold s x1 x2) := by
  unfold State.csuHold
  (try dsimp only)
  repeat' first
    | with_reducible assumption
    | split
    | with_reducible apply moves_setRg
    | exact _hp (by decide)
    | exact List.Subset.trans (by decide) _hp
    | intro _

theorem moves_csuClear {ps : List Part} {s0 s : State} {x1} (_hp : [.regs] ⊆ ps) (h : moves ps s0 s) :
    moves ps s0 (State.csuClear s x1) := by
  unfold State.csuClear
  (try dsimp only)
  repeat' first
    | with_reducible assumption
    | split
    | with_reducible apply moves_setRg
    | exact _hp (by decide)
    | exact List.Subset.trans (by decide) _hp
    | intro _

theorem moves_csuReattach {ps : List Part} {s0 s : State} (_hp : [.ob] ⊆ ps) (h : moves ps s0 s) :
    moves ps s0 (State.csuReattach s) := by
  unfold State.csuReattach
  (try dsimp only)
  repeat' first
    | with_reducible assumption
    | split
    | with_reducible apply moves_setCsu
    | exact _hp (by decide)
    | exact List.Subset.trans (by decide) _hp
    | intro _

theorem moves_csuCtl {ps : List Part} {s0 s : State} {x1} {x2} (_hp : [.regs, .ob] ⊆ ps) (h : moves ps s0 s) :
    moves ps s0 (State.csuCtl s x1 x2) := by
  unfold State.csuCtl
  (try dsimp only)
  repeat' first
    | with_reducible assumption
    | split
    | with_reducible apply moves_csuHold
    | with_reducible apply moves_csuClear
    | with_reducible apply moves_csuReattach
    | exact _hp (by decide)
    | exact List.Subset.trans (by decide) _hp
    | intro _

theorem moves_csuRun {ps : List Part} {s0 s : State} {x1} {x2} (_hp : [.regs] ⊆ ps) (h : moves ps s0 s) :
    moves ps s0 (State.csuRun s x1 x2) := by
  unfold State.csuRun
  (try dsimp only)
  repeat' first
    | with_reducible assumption
    | split
    | with_reducible apply moves_wr
    | exact _hp (by decide)
    | exact List.Subset.trans (by decide) _hp
    | intro _

theorem moves_ledgerBegin {ps : List Part} {s0 s : State} {x1} (_hp : [.regs, .ob] ⊆ ps) (h : moves ps s0 s) :
    moves ps s0 (State.ledgerBegin s x1) := by
  unfold State.ledgerBegin
  (try dsimp only)
  repeat' first
    | with_reducible assumption
    | split
    | with_reducible apply moves_wr
    | with_reducible apply moves_upd_ob
    | exact _hp (by decide)
    | exact List.Subset.trans (by decide) _hp
    | intro _

theorem moves_execSlotClr {ps : List Part} {s0 s : State} {x0} {x1} (_hp : [.resp, .regs, .ob] ⊆ ps) (h : moves ps s0 s) :
    ∀ t, (execSlotClr x0 x1 s) = .next t → moves ps s0 t := by
  unfold execSlotClr
  intro t ht
  injection ht with ht; subst ht
  (try dsimp only)
  repeat' first
    | with_reducible assumption
    | split
    | with_reducible apply moves_byAgent
    | with_reducible apply moves_slotClear
    | exact _hp (by decide)
    | exact List.Subset.trans (by decide) _hp
    | intro _

theorem moves_execSlotAccount {ps : List Part} {s0 s : State} {x0} (_hp : [.regs, .ob] ⊆ ps) (h : moves ps s0 s) :
    ∀ t, (execSlotAccount x0 s) = .next t → moves ps s0 t := by
  unfold execSlotAccount
  intro t ht
  injection ht with ht; subst ht
  (try dsimp only)
  repeat' first
    | with_reducible assumption
    | split
    | with_reducible apply moves_slotUsed
    | with_reducible apply moves_slotBack
    | with_reducible apply moves_bump64
    | exact _hp (by decide)
    | exact List.Subset.trans (by decide) _hp
    | intro _

theorem moves_execRingRecordWrite {ps : List Part} {s0 s : State} {x0} (_hp : [.out, .regs, .scope, .ob, .mx] ⊆ ps) (h : moves ps s0 s) :
    ∀ t, (execRingRecordWrite x0 s) = .next t → moves ps s0 t := by
  unfold execRingRecordWrite
  intro t ht
  injection ht with ht; subst ht
  (try dsimp only)
  repeat' first
    | with_reducible assumption
    | split
    | with_reducible apply moves_ringWrite
    | exact _hp (by decide)
    | exact List.Subset.trans (by decide) _hp
    | intro _

theorem moves_execCsuFrameEnd {ps : List Part} {s0 s : State} {x0} (_hp : [.regs, .ob] ⊆ ps) (h : moves ps s0 s) :
    ∀ t, (execCsuFrameEnd x0 s) = .next t → moves ps s0 t := by
  unfold execCsuFrameEnd
  intro t ht
  injection ht with ht; subst ht
  (try dsimp only)
  repeat' first
    | with_reducible assumption
    | split
    | with_reducible apply moves_csuEnd
    | exact _hp (by decide)
    | exact List.Subset.trans (by decide) _hp
    | intro _

theorem moves_execCsuHold {ps : List Part} {s0 s : State} {x0} {x1} (_hp : [.resp, .regs] ⊆ ps) (h : moves ps s0 s) :
    ∀ t, (execCsuHold x0 x1 s) = .next t → moves ps s0 t := by
  unfold execCsuHold
  intro t ht
  injection ht with ht; subst ht
  (try dsimp only)
  repeat' first
    | with_reducible assumption
    | split
    | with_reducible apply moves_byAgent
    | with_reducible apply moves_csuHold
    | exact _hp (by decide)
    | exact List.Subset.trans (by decide) _hp
    | intro _

theorem moves_execCsuHoldAck {ps : List Part} {s0 s : State} {x0} (_hp : [.regs] ⊆ ps) (h : moves ps s0 s) :
    ∀ t, (execCsuHoldAck x0 s) = .next t → moves ps s0 t := by
  unfold execCsuHoldAck
  intro t ht
  injection ht with ht; subst ht
  (try dsimp only)
  repeat' first
    | with_reducible assumption
    | split
    | with_reducible apply moves_setRg
    | exact _hp (by decide)
    | exact List.Subset.trans (by decide) _hp
    | intro _

theorem moves_execCsuClear {ps : List Part} {s0 s : State} {x0} {x1} (_hp : [.resp, .regs] ⊆ ps) (h : moves ps s0 s) :
    ∀ t, (execCsuClear x0 x1 s) = .next t → moves ps s0 t := by
  unfold execCsuClear
  intro t ht
  injection ht with ht; subst ht
  (try dsimp only)
  repeat' first
    | with_reducible assumption
    | split
    | with_reducible apply moves_byAgent
    | with_reducible apply moves_csuClear
    | exact _hp (by decide)
    | exact List.Subset.trans (by decide) _hp
    | intro _

theorem moves_execCsuReattach {ps : List Part} {s0 s : State} {x0} (_hp : [.resp, .ob] ⊆ ps) (h : moves ps s0 s) :
    ∀ t, (execCsuReattach x0 s) = .next t → moves ps s0 t := by
  unfold execCsuReattach
  intro t ht
  injection ht with ht; subst ht
  (try dsimp only)
  repeat' first
    | with_reducible assumption
    | split
    | with_reducible apply moves_byAgent
    | with_reducible apply moves_csuReattach
    | exact _hp (by decide)
    | exact List.Subset.trans (by decide) _hp
    | intro _

theorem moves_execCsuRunWrite {ps : List Part} {s0 s : State} {x0} {x1} {x2} (_hp : [.resp, .regs] ⊆ ps) (h : moves ps s0 s) :
    ∀ t, (execCsuRunWrite x0 x1 x2 s) = .next t → moves ps s0 t := by
  unfold execCsuRunWrite
  intro t ht
  injection ht with ht; subst ht
  (try dsimp only)
  repeat' first
    | with_reducible assumption
    | split
    | with_reducible apply moves_byAgent
    | with_reducible apply moves_csuRun
    | exact _hp (by decide)
    | exact List.Subset.trans (by decide) _hp
    | intro _

theorem moves_execLedgerFlush {ps : List Part} {s0 s : State} (_hp : [.out, .regs, .scope, .ob, .nv] ⊆ ps) (h : moves ps s0 s) :
    ∀ t, (execLedgerFlush s) = .next t → moves ps s0 t := by
  unfold execLedgerFlush
  intro t ht
  injection ht with ht; subst ht
  (try dsimp only)
  repeat' first
    | with_reducible assumption
    | split
    | with_reducible apply moves_ledgerFlush
    | exact _hp (by decide)
    | exact List.Subset.trans (by decide) _hp
    | intro _

theorem moves_execLedgerScan {ps : List Part} {s0 s : State} (_hp : [.regs, .ob] ⊆ ps) (h : moves ps s0 s) :
    ∀ t, (execLedgerScan s) = .next t → moves ps s0 t := by
  unfold execLedgerScan
  intro t ht
  injection ht with ht; subst ht
  (try dsimp only)
  repeat' first
    | with_reducible assumption
    | split
    | with_reducible apply moves_ledgerScan
    | exact _hp (by decide)
    | exact List.Subset.trans (by decide) _hp
    | intro _

theorem moves_execLedgerVerify {ps : List Part} {s0 s : State} {x0} (_hp : [.resp, .regs, .ob] ⊆ ps) (h : moves ps s0 s) :
    ∀ t, (execLedgerVerify x0 s) = .next t → moves ps s0 t := by
  unfold execLedgerVerify
  intro t ht
  injection ht with ht; subst ht
  (try dsimp only)
  repeat' first
    | with_reducible assumption
    | split
    | with_reducible apply moves_byAgent
    | with_reducible apply moves_ledgerBegin
    | exact _hp (by decide)
    | exact List.Subset.trans (by decide) _hp
    | intro _

theorem moves_execLedgerVerifyDone {ps : List Part} {s0 s : State} (_hp : [.out, .regs, .scope, .ob] ⊆ ps) (h : moves ps s0 s) :
    ∀ t, (execLedgerVerifyDone s) = .next t → moves ps s0 t := by
  unfold execLedgerVerifyDone
  intro t ht
  injection ht with ht; subst ht
  (try dsimp only)
  repeat' first
    | with_reducible assumption
    | split
    | with_reducible apply moves_ledgerVerify
    | exact _hp (by decide)
    | exact List.Subset.trans (by decide) _hp
    | intro _

end Sys2Proof.Machine
end

