-- ==== Sys2Proof/Laws/MovesPorts.lean ====
section
/-!
SUPPORT. What each operation of Machine/Ports.lean can do: the parts of the state it may change, and what it keeps
(`moves`, Safety.lean). One lemma for each operation; callers cite it and do not unfold the operation.
-/

set_option linter.unusedTactic false
set_option linter.unreachableTactic false
set_option linter.unusedSimpArgs false

namespace Sys2Proof.Machine

open State

theorem moves_execPcsBlockLock {ps : List Part} {s0 s : State} {x0} (_hp : [.out, .regs, .scope, .fx] ⊆ ps) (h : moves ps s0 s) :
    ∀ t, (execPcsBlockLock x0 s) = .next t → moves ps s0 t := by
  unfold execPcsBlockLock
  intro t ht
  injection ht with ht; subst ht
  (try dsimp only)
  repeat' first
    | with_reducible assumption
    | split
    | with_reducible apply moves_portComesUp
    | exact _hp (by decide)
    | exact List.Subset.trans (by decide) _hp
    | intro _

theorem moves_execPcsLockLoss {ps : List Part} {s0 s : State} {x0} (_hp : [.freeN, .out, .regs, .shadow, .scope, .sv, .sx, .fx, .ob, .px, .bx, .cx, .mx] ⊆ ps) (h : moves ps s0 s) :
    ∀ t, (execPcsLockLoss x0 s) = .next t → moves ps s0 t := by
  unfold execPcsLockLoss
  intro t ht
  injection ht with ht; subst ht
  (try dsimp only)
  repeat' first
    | with_reducible assumption
    | split
    | with_reducible apply moves_drainUnless
    | with_reducible apply moves_portDown
    | exact _hp (by decide)
    | exact List.Subset.trans (by decide) _hp
    | intro _

theorem moves_setLocalFault {ps : List Part} {s0 s : State} {x1} {x2} (_hp : [.out, .px] ⊆ ps) (h : moves ps s0 s) :
    moves ps s0 (State.setLocalFault s x1 x2) := by
  unfold State.setLocalFault
  (try dsimp only)
  repeat' first
    | with_reducible assumption
    | split
    | with_reducible apply moves_emit
    | with_reducible apply moves_upd_px
    | exact _hp (by decide)
    | exact List.Subset.trans (by decide) _hp
    | intro _

theorem moves_execPcsFaultReceived {ps : List Part} {s0 s : State} {x0} {x1} (_hp : [.out, .regs, .scope, .px] ⊆ ps) (h : moves ps s0 s) :
    ∀ t, (execPcsFaultReceived x0 x1 s) = .next t → moves ps s0 t := by
  unfold execPcsFaultReceived
  intro t ht
  injection ht with ht; subst ht
  (try dsimp only)
  repeat' first
    | with_reducible assumption
    | split
    | with_reducible apply moves_setRg
    | with_reducible apply moves_portEvent
    | with_reducible apply moves_setLocalFault
    | exact _hp (by decide)
    | exact List.Subset.trans (by decide) _hp
    | intro _

theorem moves_execPcsFaultCleared {ps : List Part} {s0 s : State} {x0} (_hp : [.out, .regs, .px] ⊆ ps) (h : moves ps s0 s) :
    ∀ t, (execPcsFaultCleared x0 s) = .next t → moves ps s0 t := by
  unfold execPcsFaultCleared
  intro t ht
  injection ht with ht; subst ht
  (try dsimp only)
  repeat' first
    | with_reducible assumption
    | split
    | with_reducible apply moves_setLocalFault
    | with_reducible apply moves_setRg
    | exact _hp (by decide)
    | exact List.Subset.trans (by decide) _hp
    | intro _

theorem moves_execControlWordReceived {ps : List Part} {s0 s : State} {x0} {x1} (_hp : [.freeN, .out, .regs, .shadow, .scope, .sv, .sx, .fx, .ob, .px, .bx, .cx, .mx] ⊆ ps) (h : moves ps s0 s) :
    ∀ t, (execControlWordReceived x0 x1 s) = .next t → moves ps s0 t := by
  unfold execControlWordReceived
  intro t ht
  injection ht with ht; subst ht
  (try dsimp only)
  repeat' first
    | with_reducible assumption
    | split
    | with_reducible apply moves_drainUnless
    | with_reducible apply moves_portDown
    | with_reducible apply moves_upd_px
    | exact _hp (by decide)
    | exact List.Subset.trans (by decide) _hp
    | intro _

theorem moves_execPortFlushComplete {ps : List Part} {s0 s : State} {x0} (_hp : [.out, .regs, .scope, .sx] ⊆ ps) (h : moves ps s0 s) :
    ∀ t, (execPortFlushComplete x0 s) = .next t → moves ps s0 t := by
  unfold execPortFlushComplete
  intro t ht
  injection ht with ht; subst ht
  (try dsimp only)
  repeat' first
    | with_reducible assumption
    | split
    | with_reducible apply moves_only
    | with_reducible apply moves_raise
    | with_reducible apply moves_setRg
    | with_reducible apply moves_upd_sx
    | exact _hp (by decide)
    | exact List.Subset.trans (by decide) _hp
    | intro _

theorem moves_execPauseReceived {ps : List Part} {s0 s : State} {x0} {x1} {x2} {x3} (_hp : [.regs, .px] ⊆ ps) (h : moves ps s0 s) :
    ∀ t, (execPauseReceived x0 x1 x2 x3 s) = .next t → moves ps s0 t := by
  unfold execPauseReceived
  intro t ht
  injection ht with ht; subst ht
  (try dsimp only)
  repeat' first
    | with_reducible assumption
    | split
    | with_reducible apply moves_bump
    | with_reducible apply moves_startPause
    | exact _hp (by decide)
    | exact List.Subset.trans (by decide) _hp
    | intro _

theorem moves_execPfcReceived {ps : List Part} {s0 s : State} {x0} {x1} {x2} {x3} (_hp : [.regs, .px] ⊆ ps) (h : moves ps s0 s) :
    ∀ t, (execPfcReceived x0 x1 x2 x3 s) = .next t → moves ps s0 t := by
  unfold execPfcReceived
  intro t ht
  injection ht with ht; subst ht
  (try dsimp only)
  repeat' first
    | with_reducible assumption
    | split
    | with_reducible apply moves_bump
    | with_reducible apply moves_forEach
    | with_reducible apply moves_startPause
    | exact _hp (by decide)
    | exact List.Subset.trans (by decide) _hp
    | intro _

theorem moves_execPauseExpiry {ps : List Part} {s0 s : State} {x0} {x1} (_hp : [.regs, .px] ⊆ ps) (h : moves ps s0 s) :
    ∀ t, (execPauseExpiry x0 x1 s) = .next t → moves ps s0 t := by
  unfold execPauseExpiry
  intro t ht
  injection ht with ht; subst ht
  (try dsimp only)
  repeat' first
    | with_reducible assumption
    | split
    | with_reducible apply moves_only
    | with_reducible apply moves_endPause
    | exact _hp (by decide)
    | exact List.Subset.trans (by decide) _hp
    | intro _

theorem moves_execPauseWdTrip {ps : List Part} {s0 s : State} {x0} {x1} (_hp : [.out, .regs, .scope, .px] ⊆ ps) (h : moves ps s0 s) :
    ∀ t, (execPauseWdTrip x0 x1 s) = .next t → moves ps s0 t := by
  unfold execPauseWdTrip
  intro t ht
  injection ht with ht; subst ht
  (try dsimp only)
  repeat' first
    | with_reducible assumption
    | split
    | with_reducible apply moves_only
    | with_reducible apply moves_portEvent
    | with_reducible apply moves_setRg
    | with_reducible apply moves_bump
    | with_reducible apply moves_endPauses
    | exact _hp (by decide)
    | exact List.Subset.trans (by decide) _hp
    | intro _

theorem moves_execPauseHoldoffEnd {ps : List Part} {s0 s : State} {x0} (_hp : [.regs, .px] ⊆ ps) (h : moves ps s0 s) :
    ∀ t, (execPauseHoldoffEnd x0 s) = .next t → moves ps s0 t := by
  unfold execPauseHoldoffEnd
  intro t ht
  injection ht with ht; subst ht
  (try dsimp only)
  repeat' first
    | with_reducible assumption
    | split
    | with_reducible apply moves_setRg
    | with_reducible apply moves_endPauses
    | exact _hp (by decide)
    | exact List.Subset.trans (by decide) _hp
    | intro _

theorem moves_execBeaconLoss {ps : List Part} {s0 s : State} {x0} (_hp : [.freeN, .out, .regs, .shadow, .scope, .sv, .sx, .fx, .ob, .px, .bx, .cx, .mx] ⊆ ps) (h : moves ps s0 s) :
    ∀ t, (execBeaconLoss x0 s) = .next t → moves ps s0 t := by
  unfold execBeaconLoss
  intro t ht
  injection ht with ht; subst ht
  (try dsimp only)
  repeat' first
    | with_reducible assumption
    | split
    | with_reducible apply moves_setRg
    | with_reducible apply moves_drainUnless
    | with_reducible apply moves_quarantine
    | with_reducible apply moves_portEvent
    | with_reducible apply moves_bump
    | with_reducible apply moves_upd_px
    | exact _hp (by decide)
    | exact List.Subset.trans (by decide) _hp
    | intro _

theorem moves_execBeaconReceived {ps : List Part} {s0 s : State} {x0} (_hp : [.freeN, .out, .regs, .shadow, .scope, .pw, .sv, .sx, .fx, .ob, .px, .bx, .cx, .mx] ⊆ ps) (h : moves ps s0 s) :
    ∀ t, (execBeaconReceived x0 s) = .next t → moves ps s0 t := by
  unfold execBeaconReceived
  intro t ht
  injection ht with ht; subst ht
  (try dsimp only)
  repeat' first
    | with_reducible assumption
    | split
    | with_reducible apply moves_drainUnless
    | with_reducible apply moves_idCollision
    | with_reducible apply moves_noteFb
    | with_reducible apply moves_setPlca
    | with_reducible apply moves_setRg
    | with_reducible apply moves_upd_px
    | exact _hp (by decide)
    | exact List.Subset.trans (by decide) _hp
    | intro _

theorem moves_execNodeIdCollision {ps : List Part} {s0 s : State} {x0} (_hp : [.freeN, .out, .regs, .shadow, .scope, .sv, .sx, .fx, .ob, .px, .bx, .cx, .mx] ⊆ ps) (h : moves ps s0 s) :
    ∀ t, (execNodeIdCollision x0 s) = .next t → moves ps s0 t := by
  unfold execNodeIdCollision
  intro t ht
  injection ht with ht; subst ht
  (try dsimp only)
  repeat' first
    | with_reducible assumption
    | split
    | with_reducible apply moves_drainUnless
    | with_reducible apply moves_idCollision
    | exact _hp (by decide)
    | exact List.Subset.trans (by decide) _hp
    | intro _

theorem moves_execJabber {ps : List Part} {s0 s : State} {x0} (_hp : [.freeN, .out, .regs, .shadow, .scope, .sv, .sx, .fx, .ob, .px, .bx, .cx, .mx] ⊆ ps) (h : moves ps s0 s) :
    ∀ t, (execJabber x0 s) = .next t → moves ps s0 t := by
  unfold execJabber
  intro t ht
  injection ht with ht; subst ht
  (try dsimp only)
  repeat' first
    | with_reducible assumption
    | split
    | with_reducible apply moves_bump
    | with_reducible apply moves_rxAbort
    | with_reducible apply moves_drainUnless
    | with_reducible apply moves_quarantine
    | with_reducible apply moves_portEvent
    | with_reducible apply moves_upd_px
    | exact _hp (by decide)
    | exact List.Subset.trans (by decide) _hp
    | intro _

theorem moves_execJabberLineIdle {ps : List Part} {s0 s : State} {x0} (_hp : [.px] ⊆ ps) (h : moves ps s0 s) :
    ∀ t, (execJabberLineIdle x0 s) = .next t → moves ps s0 t := by
  unfold execJabberLineIdle
  intro t ht
  injection ht with ht; subst ht
  (try dsimp only)
  repeat' first
    | with_reducible assumption
    | split
    | with_reducible apply moves_only
    | with_reducible apply moves_upd_px
    | exact _hp (by decide)
    | exact List.Subset.trans (by decide) _hp
    | intro _

theorem moves_execQuarantineEnd {ps : List Part} {s0 s : State} {x0} (_hp : [.freeN, .out, .regs, .scope, .sx, .fx, .ob, .px, .bx, .cx, .mx] ⊆ ps) (h : moves ps s0 s) :
    ∀ t, (execQuarantineEnd x0 s) = .next t → moves ps s0 t := by
  unfold execQuarantineEnd
  intro t ht
  injection ht with ht; subst ht
  (try dsimp only)
  repeat' first
    | with_reducible assumption
    | split
    | with_reducible apply moves_quarantineEnd
    | exact _hp (by decide)
    | exact List.Subset.trans (by decide) _hp
    | intro _

theorem moves_execQuarantineRelease {ps : List Part} {s0 s : State} {x0} {x1} {x2} (_hp : [.freeN, .out, .resp, .regs, .scope, .sx, .fx, .ob, .px, .bx, .cx, .mx] ⊆ ps) (h : moves ps s0 s) :
    ∀ t, (execQuarantineRelease x0 x1 x2 s) = .next t → moves ps s0 t := by
  unfold execQuarantineRelease
  intro t ht
  injection ht with ht; subst ht
  (try dsimp only)
  repeat' first
    | with_reducible assumption
    | split
    | with_reducible apply moves_byAgent
    | with_reducible apply moves_quarantineEnd
    | exact _hp (by decide)
    | exact List.Subset.trans (by decide) _hp
    | intro _

theorem moves_setMdio {ps : List Part} {s0 s : State} {x1} (_hp : [.px] ⊆ ps) (h : moves ps s0 s) :
    moves ps s0 (State.setMdio s x1) := by
  unfold State.setMdio
  (try dsimp only)
  repeat' first
    | with_reducible assumption
    | split
    | with_reducible apply moves_upd_px
    | exact _hp (by decide)
    | exact List.Subset.trans (by decide) _hp
    | intro _

theorem moves_setPoll {ps : List Part} {s0 s : State} {x1} (_hp : [.px] ⊆ ps) (h : moves ps s0 s) :
    moves ps s0 (State.setPoll s x1) := by
  unfold State.setPoll
  (try dsimp only)
  repeat' first
    | with_reducible assumption
    | split
    | with_reducible apply moves_upd_px
    | exact _hp (by decide)
    | exact List.Subset.trans (by decide) _hp
    | intro _

theorem moves_pollRun {ps : List Part} {s0 s : State} {x1} (_hp : [.freeN, .out, .regs, .shadow, .scope, .sv, .sx, .fx, .ob, .px, .bx, .cx, .mx] ⊆ ps) (h : moves ps s0 s) :
    moves ps s0 (State.pollRun s x1) := by
  unfold State.pollRun
  (try dsimp only)
  repeat' first
    | with_reducible assumption
    | split
    | with_reducible apply moves_forEach
    | with_reducible apply moves_emit
    | with_reducible apply moves_drainUnless
    | with_reducible apply moves_portJudge
    | with_reducible apply moves_portDown
    | with_reducible apply moves_upd_px
    | exact _hp (by decide)
    | exact List.Subset.trans (by decide) _hp
    | intro _

theorem moves_execMdioPoll {ps : List Part} {s0 s : State} {x0} {x1} {x2} (_hp : [.freeN, .out, .regs, .shadow, .scope, .sv, .sx, .fx, .ob, .px, .bx, .cx, .mx] ⊆ ps) (h : moves ps s0 s) :
    ∀ t, (execMdioPoll x0 x1 x2 s) = .next t → moves ps s0 t := by
  unfold execMdioPoll
  intro t ht
  injection ht with ht; subst ht
  (try dsimp only)
  repeat' first
    | with_reducible assumption
    | split
    | with_reducible apply moves_setPoll
    | with_reducible apply moves_pollRun
    | exact _hp (by decide)
    | exact List.Subset.trans (by decide) _hp
    | intro _

theorem moves_mdioTake {ps : List Part} {s0 s : State} {x1} (_hp : [.regs] ⊆ ps) (h : moves ps s0 s) :
    moves ps s0 (State.mdioTake s x1) := by
  unfold State.mdioTake
  (try dsimp only)
  repeat' first
    | with_reducible assumption
    | split
    | with_reducible apply moves_setRg
    | exact _hp (by decide)
    | exact List.Subset.trans (by decide) _hp
    | intro _

theorem moves_execMdioAccess {ps : List Part} {s0 s : State} {x0} {x1} (_hp : [.out, .resp, .regs, .px] ⊆ ps) (h : moves ps s0 s) :
    ∀ t, (execMdioAccess x0 x1 s) = .next t → moves ps s0 t := by
  unfold execMdioAccess
  intro t ht
  injection ht with ht; subst ht
  (try dsimp only)
  repeat' first
    | with_reducible assumption
    | split
    | with_reducible apply moves_byAgent
    | with_reducible apply moves_mdioTake
    | with_reducible apply moves_emit
    | with_reducible apply moves_setMdio
    | with_reducible apply moves_setRg
    | exact _hp (by decide)
    | exact List.Subset.trans (by decide) _hp
    | intro _

theorem moves_execMdioDone {ps : List Part} {s0 s : State} {x0} (_hp : [.freeN, .out, .regs, .shadow, .scope, .sv, .sx, .fx, .ob, .px, .bx, .cx, .mx] ⊆ ps) (h : moves ps s0 s) :
    ∀ t, (execMdioDone x0 s) = .next t → moves ps s0 t := by
  unfold execMdioDone
  intro t ht
  injection ht with ht; subst ht
  (try dsimp only)
  repeat' first
    | with_reducible assumption
    | split
    | with_reducible apply moves_setRg
    | with_reducible apply moves_raise
    | with_reducible apply moves_setMdio
    | with_reducible apply moves_pollRun
    | with_reducible apply moves_setPoll
    | exact _hp (by decide)
    | exact List.Subset.trans (by decide) _hp
    | intro _

end Sys2Proof.Machine
end

