-- ==== Sys2Proof/Laws/MovesSched.lean ====
section
/-!
SUPPORT. What each operation of Machine/Sched.lean can do: the parts of the state it may change, and what it keeps
(`moves`, Safety.lean). One lemma for each operation; callers cite it and do not unfold the operation.
-/

set_option linter.unusedTactic false
set_option linter.unreachableTactic false
set_option linter.unusedSimpArgs false

namespace Sys2Proof.Machine

open State

theorem moves_execGclEntryChange {ps : List Part} {s0 s : State} {x0} (_hp : [.out, .regs, .shadow, .scope, .sv, .sx, .fx, .ob, .cx, .mx] ⊆ ps) (h : moves ps s0 s) :
    ∀ t, (execGclEntryChange x0 s) = .next t → moves ps s0 t := by
  unfold execGclEntryChange
  intro t ht
  injection ht with ht; subst ht
  (try dsimp only)
  repeat' first
    | with_reducible assumption
    | split
    | with_reducible apply moves_only
    | with_reducible apply moves_drainUnless
    | with_reducible apply moves_gateJump
    | exact _hp (by decide)
    | exact List.Subset.trans (by decide) _hp
    | intro _

theorem moves_execGclStart {ps : List Part} {s0 s : State} {x0} (_hp : [.out, .regs, .shadow, .scope, .sv, .sx, .fx, .ob, .cx, .mx] ⊆ ps) (h : moves ps s0 s) :
    ∀ t, (execGclStart x0 s) = .next t → moves ps s0 t := by
  unfold execGclStart
  intro t ht
  injection ht with ht; subst ht
  (try dsimp only)
  repeat' first
    | with_reducible assumption
    | split
    | with_reducible apply moves_only
    | with_reducible apply moves_setRg
    | with_reducible apply moves_setGcl
    | with_reducible apply moves_setWaiting
    | with_reducible apply moves_scEvent
    | with_reducible apply moves_drainUnless
    | with_reducible apply moves_gateJump
    | exact _hp (by decide)
    | exact List.Subset.trans (by decide) _hp
    | intro _

theorem moves_execSgateEntryChange {ps : List Part} {s0 s : State} {x0} (_hp : [.regs] ⊆ ps) (h : moves ps s0 s) :
    ∀ t, (execSgateEntryChange x0 s) = .next t → moves ps s0 t := by
  unfold execSgateEntryChange
  intro t ht
  injection ht with ht; subst ht
  (try dsimp only)
  repeat' first
    | with_reducible assumption
    | split
    | with_reducible apply moves_only
    | with_reducible apply moves_sgateShow
    | exact _hp (by decide)
    | exact List.Subset.trans (by decide) _hp
    | intro _

theorem moves_execPsfpClearFilter {ps : List Part} {s0 s : State} {x0} {x1} (_hp : [.resp, .regs] ⊆ ps) (h : moves ps s0 s) :
    ∀ t, (execPsfpClearFilter x0 x1 s) = .next t → moves ps s0 t := by
  unfold execPsfpClearFilter
  intro t ht
  injection ht with ht; subst ht
  (try dsimp only)
  repeat' first
    | with_reducible assumption
    | split
    | with_reducible apply moves_only
    | with_reducible apply moves_byAgent
    | with_reducible apply moves_setRg
    | exact _hp (by decide)
    | exact List.Subset.trans (by decide) _hp
    | intro _

theorem moves_execPsfpClearGate {ps : List Part} {s0 s : State} {x0} {x1} (_hp : [.resp, .regs] ⊆ ps) (h : moves ps s0 s) :
    ∀ t, (execPsfpClearGate x0 x1 s) = .next t → moves ps s0 t := by
  unfold execPsfpClearGate
  intro t ht
  injection ht with ht; subst ht
  (try dsimp only)
  repeat' first
    | with_reducible assumption
    | split
    | with_reducible apply moves_only
    | with_reducible apply moves_byAgent
    | with_reducible apply moves_sgateShow
    | with_reducible apply moves_setRg
    | exact _hp (by decide)
    | exact List.Subset.trans (by decide) _hp
    | intro _

end Sys2Proof.Machine
end

