-- ==== Sys2Proof/Laws/MovesSnap.lean ====
section
/-!
SUPPORT. What each operation of Machine/Snap.lean can do: the parts of the state it may change, and what it keeps
(`moves`, Safety.lean). One lemma for each operation; callers cite it and do not unfold the operation.
-/

set_option linter.unusedTactic false
set_option linter.unreachableTactic false
set_option linter.unusedSimpArgs false

namespace Sys2Proof.Machine

open State

theorem moves_snapArm {ps : List Part} {s0 s : State} (_hp : [.regs, .ob] ⊆ ps) (h : moves ps s0 s) :
    moves ps s0 (State.snapArm s) := by
  unfold State.snapArm
  (try dsimp only)
  repeat' first
    | with_reducible assumption
    | split
    | with_reducible apply moves_setRg
    | with_reducible apply moves_snapForm
    | with_reducible apply moves_upd_ob
    | exact _hp (by decide)
    | exact List.Subset.trans (by decide) _hp
    | intro _

theorem moves_snapTrigger {ps : List Part} {s0 s : State} (_hp : [.regs, .ob] ⊆ ps) (h : moves ps s0 s) :
    moves ps s0 (State.snapTrigger s) := by
  unfold State.snapTrigger
  (try dsimp only)
  repeat' first
    | with_reducible assumption
    | split
    | with_reducible apply moves_snapArm
    | with_reducible apply moves_setRg
    | exact _hp (by decide)
    | exact List.Subset.trans (by decide) _hp
    | intro _

theorem moves_snapRelease {ps : List Part} {s0 s : State} (_hp : [.regs, .ob] ⊆ ps) (h : moves ps s0 s) :
    moves ps s0 (State.snapRelease s) := by
  unfold State.snapRelease
  (try dsimp only)
  repeat' first
    | with_reducible assumption
    | split
    | with_reducible apply moves_setRg
    | with_reducible apply moves_upd_ob
    | exact _hp (by decide)
    | exact List.Subset.trans (by decide) _hp
    | intro _

theorem moves_snapWrite {ps : List Part} {s0 s : State} {x1} (_hp : [.regs, .ob] ⊆ ps) (h : moves ps s0 s) :
    moves ps s0 (State.snapWrite s x1) := by
  unfold State.snapWrite
  (try dsimp only)
  repeat' first
    | with_reducible assumption
    | split
    | with_reducible apply moves_setRg
    | with_reducible apply moves_snapRelease
    | with_reducible apply moves_snapTrigger
    | exact _hp (by decide)
    | exact List.Subset.trans (by decide) _hp
    | intro _

theorem moves_snapFreeze {ps : List Part} {s0 s : State} {x1} (_hp : [.regs, .ob] ⊆ ps) (h : moves ps s0 s) :
    moves ps s0 (State.snapFreeze s x1) := by
  unfold State.snapFreeze
  (try dsimp only)
  repeat' first
    | with_reducible assumption
    | split
    | with_reducible apply moves_setRg
    | with_reducible apply moves_upd_ob
    | exact _hp (by decide)
    | exact List.Subset.trans (by decide) _hp
    | intro _

theorem moves_execObSnapTrigger {ps : List Part} {s0 s : State} {x0} {x1} (_hp : [.resp, .regs, .ob] ⊆ ps) (h : moves ps s0 s) :
    ∀ t, (execObSnapTrigger x0 x1 s) = .next t → moves ps s0 t := by
  unfold execObSnapTrigger
  intro t ht
  injection ht with ht; subst ht
  (try dsimp only)
  repeat' first
    | with_reducible assumption
    | split
    | with_reducible apply moves_byAgent
    | with_reducible apply moves_snapWrite
    | exact _hp (by decide)
    | exact List.Subset.trans (by decide) _hp
    | intro _

theorem moves_execObSnapRelease {ps : List Part} {s0 s : State} {x0} (_hp : [.resp, .regs, .ob] ⊆ ps) (h : moves ps s0 s) :
    ∀ t, (execObSnapRelease x0 s) = .next t → moves ps s0 t := by
  unfold execObSnapRelease
  intro t ht
  injection ht with ht; subst ht
  (try dsimp only)
  repeat' first
    | with_reducible assumption
    | split
    | with_reducible apply moves_byAgent
    | with_reducible apply moves_snapRelease
    | exact _hp (by decide)
    | exact List.Subset.trans (by decide) _hp
    | intro _

theorem moves_execObSnapTimeMatch {ps : List Part} {s0 s : State} (_hp : [.regs, .ob] ⊆ ps) (h : moves ps s0 s) :
    ∀ t, (execObSnapTimeMatch s) = .next t → moves ps s0 t := by
  unfold execObSnapTimeMatch
  intro t ht
  injection ht with ht; subst ht
  (try dsimp only)
  repeat' first
    | with_reducible assumption
    | split
    | with_reducible apply moves_snapMatch
    | exact _hp (by decide)
    | exact List.Subset.trans (by decide) _hp
    | intro _

theorem moves_execObSnapTsyncEdge {ps : List Part} {s0 s : State} {x0} {x1} (_hp : [.regs, .ob] ⊆ ps) (h : moves ps s0 s) :
    ∀ t, (execObSnapTsyncEdge x0 x1 s) = .next t → moves ps s0 t := by
  unfold execObSnapTsyncEdge
  intro t ht
  injection ht with ht; subst ht
  (try dsimp only)
  repeat' first
    | with_reducible assumption
    | split
    | with_reducible apply moves_snapForm
    | exact _hp (by decide)
    | exact List.Subset.trans (by decide) _hp
    | intro _

theorem moves_execObSnapDomainFreeze {ps : List Part} {s0 s : State} {x0} (_hp : [.regs, .ob] ⊆ ps) (h : moves ps s0 s) :
    ∀ t, (execObSnapDomainFreeze x0 s) = .next t → moves ps s0 t := by
  unfold execObSnapDomainFreeze
  intro t ht
  injection ht with ht; subst ht
  (try dsimp only)
  repeat' first
    | with_reducible assumption
    | split
    | with_reducible apply moves_snapFreeze
    | exact _hp (by decide)
    | exact List.Subset.trans (by decide) _hp
    | intro _

theorem moves_execObSnapHoldMaxExpiry {ps : List Part} {s0 s : State} (_hp : [.out, .regs, .scope, .ob] ⊆ ps) (h : moves ps s0 s) :
    ∀ t, (execObSnapHoldMaxExpiry s) = .next t → moves ps s0 t := by
  unfold execObSnapHoldMaxExpiry
  intro t ht
  injection ht with ht; subst ht
  (try dsimp only)
  repeat' first
    | with_reducible assumption
    | split
    | with_reducible apply moves_raise
    | with_reducible apply moves_setRg
    | with_reducible apply moves_snapRelease
    | exact _hp (by decide)
    | exact List.Subset.trans (by decide) _hp
    | intro _

theorem moves_execPowerDieMirrorRefresh {ps : List Part} {s0 s : State} (_hp : [.mirror] ⊆ ps) (h : moves ps s0 s) :
    ∀ t, (execPowerDieMirrorRefresh s) = .next t → moves ps s0 t := by
  unfold execPowerDieMirrorRefresh
  intro t ht
  injection ht with ht; subst ht
  (try dsimp only)
  repeat' first
    | with_reducible assumption
    | split
    | with_reducible apply moves_refreshMirror
    | exact _hp (by decide)
    | exact List.Subset.trans (by decide) _hp
    | intro _

end Sys2Proof.Machine
end

