-- ==== Sys2Proof/Laws/MovesUpdate.lean ====
section
/-!
SUPPORT. What each operation of Machine/Update.lean can do: the parts of the state it may change, and what it keeps
(`moves`, Safety.lean). One lemma for each operation; callers cite it and do not unfold the operation.
-/

set_option linter.unusedTactic false
set_option linter.unreachableTactic false
set_option linter.unusedSimpArgs false

namespace Sys2Proof.Machine

open State

theorem moves_execUpdOpen {ps : List Part} {s0 s : State} {x0} (_hp : [.freeN, .out, .resp, .regs, .scope, .sv, .ob, .kx, .ce, .upd] ⊆ ps) (h : moves ps s0 s) :
    ∀ t, (execUpdOpen x0 s) = .next t → moves ps s0 t := by
  unfold execUpdOpen
  intro t ht
  injection ht with ht; subst ht
  (try dsimp only)
  repeat' first
    | with_reducible assumption
    | split
    | with_reducible apply moves_byAgent
    | with_reducible apply moves_updRefuse
    | with_reducible apply moves_importFleet
    | with_reducible refine moves_importFleet_eq ?_ ?_ (by assumption)
    | with_reducible apply moves_updLedger
    | with_reducible apply moves_updResult
    | with_reducible apply moves_setRg
    | with_reducible apply moves_upd_upd
    | exact _hp (by decide)
    | exact List.Subset.trans (by decide) _hp
    | intro _

theorem moves_execUpdHeader {ps : List Part} {s0 s : State} {x0} {x1} (_hp : [.out, .resp, .regs, .scope, .sv, .ob, .upd] ⊆ ps) (h : moves ps s0 s) :
    ∀ t, (execUpdHeader x0 x1 s) = .next t → moves ps s0 t := by
  unfold execUpdHeader
  intro t ht
  injection ht with ht; subst ht
  (try dsimp only)
  repeat' first
    | with_reducible assumption
    | split
    | with_reducible apply moves_updCommand
    | with_reducible apply moves_setRg
    | with_reducible apply moves_showGot
    | with_reducible apply moves_addTask
    | with_reducible apply moves_updAccept
    | with_reducible apply moves_upd_upd
    | exact _hp (by decide)
    | exact List.Subset.trans (by decide) _hp
    | intro _

theorem moves_execUpdBlock {ps : List Part} {s0 s : State} {x0} {x1} {x2} (_hp : [.out, .resp, .regs, .scope, .sv, .ob, .upd] ⊆ ps) (h : moves ps s0 s) :
    ∀ t, (execUpdBlock x0 x1 x2 s) = .next t → moves ps s0 t := by
  unfold execUpdBlock
  intro t ht
  injection ht with ht; subst ht
  (try dsimp only)
  repeat' first
    | with_reducible assumption
    | split
    | with_reducible apply moves_byAgent
    | with_reducible apply moves_updTouch
    | with_reducible apply moves_updMirror
    | with_reducible apply moves_updRefuse
    | with_reducible apply moves_kxUse
    | with_reducible refine moves_kxUse_eq ?_ ?_ (by assumption)
    | with_reducible apply moves_addTask
    | with_reducible apply moves_updAccept
    | with_reducible apply moves_showGot
    | with_reducible apply moves_bump
    | exact _hp (by decide)
    | exact List.Subset.trans (by decide) _hp
    | intro _

theorem moves_execUpdActivate {ps : List Part} {s0 s : State} {x0} (_hp : [.out, .resp, .regs, .scope, .sv, .ob, .upd] ⊆ ps) (h : moves ps s0 s) :
    ∀ t, (execUpdActivate x0 s) = .next t → moves ps s0 t := by
  unfold execUpdActivate
  intro t ht
  injection ht with ht; subst ht
  (try dsimp only)
  repeat' first
    | with_reducible assumption
    | split
    | with_reducible apply moves_updCommand
    | with_reducible apply moves_addTask
    | with_reducible apply moves_updAccept
    | exact _hp (by decide)
    | exact List.Subset.trans (by decide) _hp
    | intro _

theorem moves_execUpdClose {ps : List Part} {s0 s : State} {x0} (_hp : [.out, .resp, .regs, .scope, .sv, .ob, .upd] ⊆ ps) (h : moves ps s0 s) :
    ∀ t, (execUpdClose x0 s) = .next t → moves ps s0 t := by
  unfold execUpdClose
  intro t ht
  injection ht with ht; subst ht
  (try dsimp only)
  repeat' first
    | with_reducible assumption
    | split
    | with_reducible apply moves_updCommand
    | with_reducible apply moves_updResult
    | with_reducible apply moves_endUpdate
    | exact _hp (by decide)
    | exact List.Subset.trans (by decide) _hp
    | intro _

theorem moves_execUpdSessionTimeout {ps : List Part} {s0 s : State} (_hp : [.out, .regs, .scope, .sv, .ob, .upd] ⊆ ps) (h : moves ps s0 s) :
    ∀ t, (execUpdSessionTimeout s) = .next t → moves ps s0 t := by
  unfold execUpdSessionTimeout
  intro t ht
  injection ht with ht; subst ht
  (try dsimp only)
  repeat' first
    | with_reducible assumption
    | split
    | with_reducible apply moves_closeUpdate
    | exact _hp (by decide)
    | exact List.Subset.trans (by decide) _hp
    | intro _

theorem moves_execMigration {ps : List Part} {s0 s : State} (_hp : [.out, .regs, .scope, .sv, .ob, .nv] ⊆ ps) (h : moves ps s0 s) :
    ∀ t, (execMigration s) = .next t → moves ps s0 t := by
  unfold execMigration
  intro t ht
  injection ht with ht; subst ht
  (try dsimp only)
  repeat' first
    | with_reducible assumption
    | split
    | with_reducible apply moves_migrated
    | with_reducible apply moves_addBankWrite
    | exact _hp (by decide)
    | exact List.Subset.trans (by decide) _hp
    | intro _

end Sys2Proof.Machine
end

