-- ==== Sys2Proof/Laws/MovesAccess.lean ====
section
/-!
SUPPORT. What each operation of Machine/Access.lean can do: the parts of the state it may change, and what it keeps
(`moves`, Safety.lean). One lemma for each operation; callers cite it and do not unfold the operation.
-/

set_option linter.unusedTactic false
set_option linter.unreachableTactic false
set_option linter.unusedSimpArgs false

namespace Sys2Proof.Machine

open State

theorem moves_firstSome {ps : List Part} {s0 t : State} {l : List (Option State)}
    (hl : ∀ o ∈ l, ∀ u, o = some u → moves ps s0 u) (h : firstSome l = some t) : moves ps s0 t := by
  induction l with
  | nil => cases h
  | cons o l ih =>
    cases o with
    | none => exact ih (fun q hq => hl q (List.mem_cons_of_mem _ hq)) h
    | some u =>
      cases h
      exact hl _ List.mem_cons_self _ rfl

theorem moves_rcClear {ps : List Part} {s0 s : State} {x1} {x2} (_hp : [.regs, .mirror] ⊆ ps) (h : moves ps s0 s) :
    moves ps s0 (State.rcClear s x1 x2) := by
  unfold State.rcClear
  (try dsimp only)
  repeat' first
    | with_reducible assumption
    | split
    | with_reducible apply moves_wr
    | with_reducible apply moves_upd_mirror
    | exact _hp (by decide)
    | exact List.Subset.trans (by decide) _hp
    | intro _

theorem moves_readEffect {ps : List Part} {s0 s : State} {x1} {x2} (_hp : [.regs, .mirror, .te, .mx] ⊆ ps) (h : moves ps s0 s) :
    moves ps s0 (State.readEffect s x1 x2) := by
  unfold State.readEffect
  (try dsimp only)
  repeat' first
    | with_reducible assumption
    | split
    | with_reducible apply moves_latchTi
    | with_reducible apply moves_tsiPop
    | with_reducible apply moves_setRg
    | with_reducible apply moves_msiPop
    | with_reducible apply moves_latchPair
    | with_reducible apply moves_rcClear
    | exact _hp (by decide)
    | exact List.Subset.trans (by decide) _hp
    | intro _

theorem moves_latchHigh {ps : List Part} {s0 s : State} {x1} {x2} (_hp : [.latches] ⊆ ps) (h : moves ps s0 s) :
    moves ps s0 (State.latchHigh s x1 x2) := by
  unfold State.latchHigh
  (try dsimp only)
  repeat' first
    | with_reducible assumption
    | split
    | with_reducible apply moves_upd_latches
    | exact _hp (by decide)
    | exact List.Subset.trans (by decide) _hp
    | intro _

theorem moves_readActive {ps : List Part} {s0 s : State} {x1} (_hp : [.regs, .latches, .mirror, .te, .mx] ⊆ ps) (h : moves ps s0 s) :
    moves ps s0 (State.readActive s x1).1 := by
  unfold State.readActive
  (try dsimp only)
  repeat' first
    | with_reducible assumption
    | split
    | with_reducible apply moves_latchHigh
    | with_reducible apply moves_readEffect
    | exact _hp (by decide)
    | exact List.Subset.trans (by decide) _hp
    | intro _

theorem moves_readActive_eq {ps : List Part} {s0 s : State} {x1} (_hp : [.regs, .latches, .mirror, .te, .mx] ⊆ ps) (h : moves ps s0 s) {t v} (hq : (State.readActive s x1) = (t, v)) :
    moves ps s0 t := by
  have := moves_readActive (x1 := x1)  _hp h
  rwa [hq] at this

theorem moves_readSpace {ps : List Part} {s0 s : State} {x1} (_hp : [.regs, .latches, .mirror, .te, .mx] ⊆ ps) (h : moves ps s0 s) :
    moves ps s0 (State.readSpace s x1).1 := by
  unfold State.readSpace
  (try dsimp only)
  repeat' first
    | with_reducible assumption
    | split
    | with_reducible apply moves_readActive
    | with_reducible refine moves_readActive_eq ?_ ?_ (by assumption)
    | exact _hp (by decide)
    | exact List.Subset.trans (by decide) _hp
    | intro _

theorem moves_readSpace_eq {ps : List Part} {s0 s : State} {x1} (_hp : [.regs, .latches, .mirror, .te, .mx] ⊆ ps) (h : moves ps s0 s) {t v} (hq : (State.readSpace s x1) = (t, v)) :
    moves ps s0 t := by
  have := moves_readSpace (x1 := x1)  _hp h
  rwa [hq] at this

theorem moves_regRead {ps : List Part} {s0 s : State} {x1} {x2} {x3} (_hp : [.out, .resp, .regs, .latches, .mirror, .scope, .te, .ob, .mx] ⊆ ps) (h : moves ps s0 s) :
    moves ps s0 (State.regRead s x1 x2 x3) := by
  unfold State.regRead
  (try dsimp only)
  repeat' first
    | with_reducible assumption
    | split
    | with_reducible apply moves_answer
    | with_reducible apply moves_fault
    | with_reducible apply moves_bump
    | with_reducible apply moves_readSpace
    | with_reducible refine moves_readSpace_eq ?_ ?_ (by assumption)
    | exact _hp (by decide)
    | exact List.Subset.trans (by decide) _hp
    | intro _

theorem moves_after {ps : List Part} {s0 s : State} {x : Result} (hx : ∀ t, x = .next t → moves ps s0 t)
 (h : moves ps s0 s) : moves ps s0 (State.after x s) := by
  unfold State.after
  split
  · exact hx _ rfl
  · exact h

theorem moves_plainWrite {ps : List Part} {s0 s : State} {x1} {x2} {x3} (_hp : [.regs] ⊆ ps) (h : moves ps s0 s) :
    moves ps s0 (State.plainWrite s x1 x2 x3) := by
  unfold State.plainWrite
  (try dsimp only)
  repeat' first
    | with_reducible assumption
    | split
    | with_reducible apply moves_wr
    | exact _hp (by decide)
    | exact List.Subset.trans (by decide) _hp
    | intro _

theorem moves_writeModeReq {ps : List Part} {s0 s : State} {x1} {x2} (_hp : [.freeN, .out, .resp, .regs, .active, .shadow, .swapped, .epochs, .latches, .mirror, .scope, .pw, .sv, .mend, .sx, .fx, .te, .ob, .px, .nv, .kx, .ce, .upd, .bx, .cx, .mx] ⊆ ps) (h : moves ps s0 s) :
    moves ps s0 (State.writeModeReq s x1 x2) := by
  unfold State.writeModeReq
  (try dsimp only)
  repeat' first
    | with_reducible assumption
    | split
    | with_reducible apply moves_after
    | with_reducible refine moves_execModeReqPartial ?_ ?_ _ (by assumption)
    | with_reducible refine moves_execModeReqPartial ?_ ?_
    | with_reducible refine moves_execModeReqRun ?_ ?_ _ (by assumption)
    | with_reducible refine moves_execModeReqRun ?_ ?_
    | with_reducible refine moves_execModeReqListen ?_ ?_ _ (by assumption)
    | with_reducible refine moves_execModeReqListen ?_ ?_
    | with_reducible refine moves_execModeReqRescue ?_ ?_ _ (by assumption)
    | with_reducible refine moves_execModeReqRescue ?_ ?_
    | with_reducible refine moves_execModeReqFactory ?_ ?_ _ (by assumption)
    | with_reducible refine moves_execModeReqFactory ?_ ?_
    | exact _hp (by decide)
    | exact List.Subset.trans (by decide) _hp
    | intro _

theorem moves_writeTxCmd {ps : List Part} {s0 s : State} {x1} {x2} {x3} (_hp : [.freeN, .out, .resp, .regs, .shadow, .scope, .sv, .mend, .sx, .fx, .ob, .px, .bx, .cx, .mx] ⊆ ps) (h : moves ps s0 s) :
    moves ps s0 (State.writeTxCmd s x1 x2 x3) := by
  unfold State.writeTxCmd
  (try dsimp only)
  repeat' first
    | with_reducible assumption
    | split
    | with_reducible apply moves_after
    | with_reducible refine moves_execTack ?_ ?_ _ (by assumption)
    | with_reducible refine moves_execTack ?_ ?_
    | with_reducible refine moves_execStitch ?_ ?_ _ (by assumption)
    | with_reducible refine moves_execStitch ?_ ?_
    | with_reducible refine moves_execStitchAt ?_ ?_ _ (by assumption)
    | with_reducible refine moves_execStitchAt ?_ ?_
    | with_reducible refine moves_execUnpick ?_ ?_ _ (by assumption)
    | with_reducible refine moves_execUnpick ?_ ?_
    | with_reducible refine moves_execRenew ?_ ?_ _ (by assumption)
    | with_reducible refine moves_execRenew ?_ ?_
    | with_reducible refine moves_execMendStart ?_ ?_ _ (by assumption)
    | with_reducible refine moves_execMendStart ?_ ?_
    | with_reducible refine moves_execMendStop ?_ ?_ _ (by assumption)
    | with_reducible refine moves_execMendStop ?_ ?_
    | exact _hp (by decide)
    | exact List.Subset.trans (by decide) _hp
    | intro _

theorem moves_writeUpdCmd {ps : List Part} {s0 s : State} {x1} {x2} {x3} (_hp : [.freeN, .out, .resp, .regs, .scope, .sv, .ob, .kx, .ce, .upd] ⊆ ps) (h : moves ps s0 s) :
    moves ps s0 (State.writeUpdCmd s x1 x2 x3) := by
  unfold State.writeUpdCmd
  (try dsimp only)
  repeat' first
    | with_reducible assumption
    | split
    | with_reducible apply moves_after
    | with_reducible refine moves_execUpdOpen ?_ ?_ _ (by assumption)
    | with_reducible refine moves_execUpdOpen ?_ ?_
    | with_reducible refine moves_execUpdHeader ?_ ?_ _ (by assumption)
    | with_reducible refine moves_execUpdHeader ?_ ?_
    | with_reducible refine moves_execUpdBlock ?_ ?_ _ (by assumption)
    | with_reducible refine moves_execUpdBlock ?_ ?_
    | with_reducible refine moves_execUpdActivate ?_ ?_ _ (by assumption)
    | with_reducible refine moves_execUpdActivate ?_ ?_
    | with_reducible refine moves_execUpdClose ?_ ?_ _ (by assumption)
    | with_reducible refine moves_execUpdClose ?_ ?_
    | exact _hp (by decide)
    | exact List.Subset.trans (by decide) _hp
    | intro _

theorem moves_writeKxCmd {ps : List Part} {s0 s : State} {x1} {x2} {x3} (_hp : [.freeN, .out, .resp, .regs, .scope, .sv, .sx, .ob, .kx, .ce, .upd] ⊆ ps) (h : moves ps s0 s) :
    moves ps s0 (State.writeKxCmd s x1 x2 x3) := by
  unfold State.writeKxCmd
  (try dsimp only)
  repeat' first
    | with_reducible assumption
    | split
    | with_reducible apply moves_after
    | with_reducible refine moves_execInvalidate ?_ ?_ _ (by assumption)
    | with_reducible refine moves_execInvalidate ?_ ?_
    | with_reducible refine moves_execRebind ?_ ?_ _ (by assumption)
    | with_reducible refine moves_execRebind ?_ ?_
    | with_reducible refine moves_execImportKey ?_ ?_ _ (by assumption)
    | with_reducible refine moves_execImportKey ?_ ?_
    | with_reducible refine moves_execExportKey ?_ ?_ _ (by assumption)
    | with_reducible refine moves_execExportKey ?_ ?_
    | with_reducible refine moves_execZeroise ?_ ?_ _ (by assumption)
    | with_reducible refine moves_execZeroise ?_ ?_
    | with_reducible refine moves_execClearLock ?_ ?_ _ (by assumption)
    | with_reducible refine moves_execClearLock ?_ ?_
    | with_reducible refine moves_execLcAdvance ?_ ?_ _ (by assumption)
    | with_reducible refine moves_execLcAdvance ?_ ?_
    | with_reducible refine moves_execEnroll ?_ ?_ _ (by assumption)
    | with_reducible refine moves_execEnroll ?_ ?_
    | exact _hp (by decide)
    | exact List.Subset.trans (by decide) _hp
    | intro _

theorem moves_writeFoldCmd {ps : List Part} {s0 s : State} {x1} {x2} (_hp : [.freeN, .out, .resp, .regs, .scope, .pw, .sx, .fx, .ob, .aon, .cx, .mx] ⊆ ps) (h : moves ps s0 s) :
    moves ps s0 (State.writeFoldCmd s x1 x2) := by
  unfold State.writeFoldCmd
  (try dsimp only)
  repeat' first
    | with_reducible assumption
    | split
    | with_reducible apply moves_after
    | with_reducible refine moves_execFoldCmdWake ?_ ?_ _ (by assumption)
    | with_reducible refine moves_execFoldCmdWake ?_ ?_
    | with_reducible refine moves_execFoldCmdForgive ?_ ?_ _ (by assumption)
    | with_reducible refine moves_execFoldCmdForgive ?_ ?_
    | exact _hp (by decide)
    | exact List.Subset.trans (by decide) _hp
    | intro _

theorem moves_writeTblCmd {ps : List Part} {s0 s : State} {x1} {x2} {x3} (_hp : [.resp, .regs, .fx] ⊆ ps) (h : moves ps s0 s) :
    moves ps s0 (State.writeTblCmd s x1 x2 x3) := by
  unfold State.writeTblCmd
  (try dsimp only)
  repeat' first
    | with_reducible assumption
    | split
    | with_reducible apply moves_plainWrite
    | with_reducible apply moves_after
    | with_reducible refine moves_execFdbRead ?_ ?_ _ (by assumption)
    | with_reducible refine moves_execFdbRead ?_ ?_
    | with_reducible refine moves_execFdbSearch ?_ ?_ _ (by assumption)
    | with_reducible refine moves_execFdbSearch ?_ ?_
    | with_reducible refine moves_execFdbDelete ?_ ?_ _ (by assumption)
    | with_reducible refine moves_execFdbDelete ?_ ?_
    | with_reducible refine moves_execFdbFlush ?_ ?_ _ (by assumption)
    | with_reducible refine moves_execFdbFlush ?_ ?_
    | exact _hp (by decide)
    | exact List.Subset.trans (by decide) _hp
    | intro _

theorem moves_writePsfpClear {ps : List Part} {s0 s : State} {x1} {x2} (_hp : [.resp, .regs] ⊆ ps) (h : moves ps s0 s) :
    moves ps s0 (State.writePsfpClear s x1 x2) := by
  unfold State.writePsfpClear
  (try dsimp only)
  repeat' first
    | with_reducible assumption
    | split
    | with_reducible apply moves_after
    | with_reducible refine moves_execPsfpClearFilter ?_ ?_ _ (by assumption)
    | with_reducible refine moves_execPsfpClearFilter ?_ ?_
    | with_reducible refine moves_execPsfpClearGate ?_ ?_ _ (by assumption)
    | with_reducible refine moves_execPsfpClearGate ?_ ?_
    | exact _hp (by decide)
    | exact List.Subset.trans (by decide) _hp
    | intro _

theorem moves_writeTiCmd {ps : List Part} {s0 s : State} {x1} {x2} {x3} (_hp : [.out, .resp, .regs, .scope, .sv, .sx, .te, .ob, .cx, .mx] ⊆ ps) (h : moves ps s0 s) :
    moves ps s0 (State.writeTiCmd s x1 x2 x3) := by
  unfold State.writeTiCmd
  (try dsimp only)
  repeat' first
    | with_reducible assumption
    | split
    | with_reducible apply moves_after
    | with_reducible refine moves_execTiStep ?_ ?_ _ (by assumption)
    | with_reducible refine moves_execTiStep ?_ ?_
    | with_reducible refine moves_execTiSet ?_ ?_ _ (by assumption)
    | with_reducible refine moves_execTiSet ?_ ?_
    | with_reducible refine moves_execTiUnset ?_ ?_ _ (by assumption)
    | with_reducible refine moves_execTiUnset ?_ ?_
    | exact _hp (by decide)
    | exact List.Subset.trans (by decide) _hp
    | intro _

theorem moves_writeObjHeader {ps : List Part} {s0 s : State} {x1} {x2} {x3} (_hp : [.regs] ⊆ ps) (h : moves ps s0 s) :
    moves ps s0 (State.writeObjHeader s x1 x2 x3) := by
  unfold State.writeObjHeader
  (try dsimp only)
  repeat' first
    | with_reducible assumption
    | split
    | with_reducible apply moves_plainWrite
    | exact _hp (by decide)
    | exact List.Subset.trans (by decide) _hp
    | intro _

theorem moves_writeTamperStat {ps : List Part} {s0 s : State} {x1} (_hp : [.regs] ⊆ ps) (h : moves ps s0 s) :
    moves ps s0 (State.writeTamperStat s x1) := by
  unfold State.writeTamperStat
  (try dsimp only)
  repeat' first
    | with_reducible assumption
    | split
    | with_reducible apply moves_setRg
    | exact _hp (by decide)
    | exact List.Subset.trans (by decide) _hp
    | intro _

theorem moves_writeRtcSet {ps : List Part} {s0 s : State} {x1} (_hp : [.aon] ⊆ ps) (h : moves ps s0 s) :
    moves ps s0 (State.writeRtcSet s x1) := by
  unfold State.writeRtcSet
  (try dsimp only)
  repeat' first
    | with_reducible assumption
    | split
    | with_reducible apply moves_upd_aon
    | exact _hp (by decide)
    | exact List.Subset.trans (by decide) _hp
    | intro _

theorem moves_writeAlarmCtl {ps : List Part} {s0 s : State} {x1} {x2} (_hp : [.out, .regs, .scope, .pw, .ob, .aon] ⊆ ps) (h : moves ps s0 s) :
    moves ps s0 (State.writeAlarmCtl s x1 x2) := by
  unfold State.writeAlarmCtl
  (try dsimp only)
  repeat' first
    | with_reducible assumption
    | split
    | with_reducible apply moves_plainWrite
    | with_reducible apply moves_after
    | with_reducible refine moves_execRtcAlarm ?_ ?_ _ (by assumption)
    | with_reducible refine moves_execRtcAlarm ?_ ?_
    | exact _hp (by decide)
    | exact List.Subset.trans (by decide) _hp
    | intro _

theorem moves_evClear {ps : List Part} {s0 s : State} {x1} {x2} (_hp : [.out, .regs, .scope] ⊆ ps) (h : moves ps s0 s) :
    moves ps s0 (State.evClear s x1 x2) := by
  unfold State.evClear
  (try dsimp only)
  repeat' first
    | with_reducible assumption
    | split
    | with_reducible apply moves_setRg
    | with_reducible apply moves_forEach
    | with_reducible apply moves_sendVec
    | with_reducible apply moves_upd_scope
    | exact _hp (by decide)
    | exact List.Subset.trans (by decide) _hp
    | intro _

theorem moves_writeSV {ps : List Part} {s0 s : State} {x1} {x2} {x3} (_hp : [.freeN, .out, .resp, .regs, .active, .shadow, .swapped, .epochs, .latches, .mirror, .scope, .pw, .sv, .mend, .sx, .fx, .te, .ob, .px, .nv, .kx, .ce, .upd, .bx, .aon, .cx, .mx] ⊆ ps) (h : moves ps s0 s) :
    ∀ t, (State.writeSV s x1 x2 x3) = some t → moves ps s0 t := by
  intro t ht
  unfold State.writeSV at ht
  (try dsimp only at ht)
  repeat' split at ht
  all_goals try simp only [Option.some.injEq, reduceCtorEq] at ht
  all_goals try subst ht
  all_goals try refine moves_firstSome ?_ ht
  all_goals try (
    intro o ho u hu
    simp only [List.mem_cons, List.not_mem_nil, or_false] at ho)
  all_goals try (
    obtain ⟨n, -, rfl⟩ := Option.map_eq_some_iff.mp ht)
  all_goals try (
    rcases ho with rfl | rfl | rfl | rfl | rfl | rfl
    <;> obtain ⟨n, -, rfl⟩ := Option.map_eq_some_iff.mp hu)
  all_goals try (
    rcases ho with rfl | rfl | rfl | rfl | rfl
    <;> obtain ⟨n, -, rfl⟩ := Option.map_eq_some_iff.mp hu)
  all_goals try (
    rcases ho with rfl | rfl | rfl | rfl
    <;> obtain ⟨n, -, rfl⟩ := Option.map_eq_some_iff.mp hu)
  all_goals try (
    rcases ho with rfl | rfl | rfl
    <;> obtain ⟨n, -, rfl⟩ := Option.map_eq_some_iff.mp hu)
  all_goals try (
    rcases ho with rfl | rfl
    <;> obtain ⟨n, -, rfl⟩ := Option.map_eq_some_iff.mp hu)
  all_goals repeat' first
    | with_reducible assumption
    | with_reducible apply moves_writeModeReq
    | with_reducible apply moves_after
    | with_reducible refine moves_execSvResetSoc ?_ ?_ _ (by assumption)
    | with_reducible refine moves_execSvResetSoc ?_ ?_
    | with_reducible refine moves_execFoldNeedWrite ?_ ?_ _ (by assumption)
    | with_reducible refine moves_execFoldNeedWrite ?_ ?_
    | with_reducible apply moves_writeFoldCmd
    | with_reducible apply moves_ledgerBegin
    | with_reducible apply moves_wr
    | with_reducible apply moves_writeTxCmd
    | with_reducible apply moves_writeUpdCmd
    | with_reducible apply moves_evClear
    | exact _hp (by decide)
    | exact List.Subset.trans (by decide) _hp
    | split
    | intro _

theorem moves_writePX {ps : List Part} {s0 s : State} {x1} {x2} {x3} (_hp : [.freeN, .out, .resp, .regs, .scope, .sx, .fx, .ob, .px, .bx, .cx, .mx] ⊆ ps) (h : moves ps s0 s) :
    ∀ t, (State.writePX s x1 x2 x3) = some t → moves ps s0 t := by
  intro t ht
  unfold State.writePX at ht
  (try dsimp only at ht)
  repeat' split at ht
  all_goals try simp only [Option.some.injEq, reduceCtorEq] at ht
  all_goals try subst ht
  all_goals try refine moves_firstSome ?_ ht
  all_goals try (
    intro o ho u hu
    simp only [List.mem_cons, List.not_mem_nil, or_false] at ho)
  all_goals try (
    obtain ⟨n, -, rfl⟩ := Option.map_eq_some_iff.mp ht)
  all_goals try (
    rcases ho with rfl | rfl | rfl | rfl | rfl | rfl
    <;> obtain ⟨n, -, rfl⟩ := Option.map_eq_some_iff.mp hu)
  all_goals try (
    rcases ho with rfl | rfl | rfl | rfl | rfl
    <;> obtain ⟨n, -, rfl⟩ := Option.map_eq_some_iff.mp hu)
  all_goals try (
    rcases ho with rfl | rfl | rfl | rfl
    <;> obtain ⟨n, -, rfl⟩ := Option.map_eq_some_iff.mp hu)
  all_goals try (
    rcases ho with rfl | rfl | rfl
    <;> obtain ⟨n, -, rfl⟩ := Option.map_eq_some_iff.mp hu)
  all_goals try (
    rcases ho with rfl | rfl
    <;> obtain ⟨n, -, rfl⟩ := Option.map_eq_some_iff.mp hu)
  all_goals repeat' first
    | with_reducible assumption
    | with_reducible apply moves_after
    | with_reducible refine moves_execMdioAccess ?_ ?_ _ (by assumption)
    | with_reducible refine moves_execMdioAccess ?_ ?_
    | with_reducible refine moves_execQuarantineRelease ?_ ?_ _ (by assumption)
    | with_reducible refine moves_execQuarantineRelease ?_ ?_
    | exact _hp (by decide)
    | exact List.Subset.trans (by decide) _hp
    | split
    | intro _

theorem moves_writeFXTE {ps : List Part} {s0 s : State} {x1} {x2} {x3} {x4} (_hp : [.out, .resp, .regs, .scope, .sv, .sx, .fx, .te, .ob, .cx, .mx] ⊆ ps) (h : moves ps s0 s) :
    ∀ t, (State.writeFXTE s x1 x2 x3 x4) = some t → moves ps s0 t := by
  intro t ht
  unfold State.writeFXTE at ht
  (try dsimp only at ht)
  repeat' split at ht
  all_goals try simp only [Option.some.injEq, reduceCtorEq] at ht
  all_goals try subst ht
  all_goals try refine moves_firstSome ?_ ht
  all_goals try (
    intro o ho u hu
    simp only [List.mem_cons, List.not_mem_nil, or_false] at ho)
  all_goals try (
    obtain ⟨n, -, rfl⟩ := Option.map_eq_some_iff.mp ht)
  all_goals try (
    rcases ho with rfl | rfl | rfl | rfl | rfl | rfl
    <;> obtain ⟨n, -, rfl⟩ := Option.map_eq_some_iff.mp hu)
  all_goals try (
    rcases ho with rfl | rfl | rfl | rfl | rfl
    <;> obtain ⟨n, -, rfl⟩ := Option.map_eq_some_iff.mp hu)
  all_goals try (
    rcases ho with rfl | rfl | rfl | rfl
    <;> obtain ⟨n, -, rfl⟩ := Option.map_eq_some_iff.mp hu)
  all_goals try (
    rcases ho with rfl | rfl | rfl
    <;> obtain ⟨n, -, rfl⟩ := Option.map_eq_some_iff.mp hu)
  all_goals try (
    rcases ho with rfl | rfl
    <;> obtain ⟨n, -, rfl⟩ := Option.map_eq_some_iff.mp hu)
  all_goals repeat' first
    | with_reducible assumption
    | with_reducible apply moves_writeTblCmd
    | with_reducible apply moves_writePsfpClear
    | with_reducible apply moves_after
    | with_reducible refine moves_execPairGo ?_ ?_ _ (by assumption)
    | with_reducible refine moves_execPairGo ?_ ?_
    | with_reducible apply moves_writeTiCmd
    | with_reducible refine moves_execTiAdjWrite ?_ ?_ _ (by assumption)
    | with_reducible refine moves_execTiAdjWrite ?_ ?_
    | exact _hp (by decide)
    | exact List.Subset.trans (by decide) _hp
    | split
    | intro _

theorem moves_writeBX {ps : List Part} {s0 s : State} {x1} {x2} {x3} {x4} (_hp : [.out, .resp, .regs, .shadow, .scope, .pw, .sv, .sx, .fx, .ob, .bx, .aon, .cx, .mx] ⊆ ps) (h : moves ps s0 s) :
    ∀ t, (State.writeBX s x1 x2 x3 x4) = some t → moves ps s0 t := by
  intro t ht
  unfold State.writeBX at ht
  (try dsimp only at ht)
  repeat' split at ht
  all_goals try simp only [Option.some.injEq, reduceCtorEq] at ht
  all_goals try subst ht
  all_goals try refine moves_firstSome ?_ ht
  all_goals try (
    intro o ho u hu
    simp only [List.mem_cons, List.not_mem_nil, or_false] at ho)
  all_goals try (
    obtain ⟨n, -, rfl⟩ := Option.map_eq_some_iff.mp ht)
  all_goals try (
    rcases ho with rfl | rfl | rfl | rfl | rfl | rfl
    <;> obtain ⟨n, -, rfl⟩ := Option.map_eq_some_iff.mp hu)
  all_goals try (
    rcases ho with rfl | rfl | rfl | rfl | rfl
    <;> obtain ⟨n, -, rfl⟩ := Option.map_eq_some_iff.mp hu)
  all_goals try (
    rcases ho with rfl | rfl | rfl | rfl
    <;> obtain ⟨n, -, rfl⟩ := Option.map_eq_some_iff.mp hu)
  all_goals try (
    rcases ho with rfl | rfl | rfl
    <;> obtain ⟨n, -, rfl⟩ := Option.map_eq_some_iff.mp hu)
  all_goals try (
    rcases ho with rfl | rfl
    <;> obtain ⟨n, -, rfl⟩ := Option.map_eq_some_iff.mp hu)
  all_goals repeat' first
    | with_reducible assumption
    | with_reducible apply moves_after
    | with_reducible refine moves_execPqReset ?_ ?_ _ (by assumption)
    | with_reducible refine moves_execPqReset ?_ ?_
    | with_reducible apply moves_writeObjHeader
    | with_reducible apply moves_ramGood
    | with_reducible apply moves_plainWrite
    | with_reducible refine moves_execCanRecover ?_ ?_ _ (by assumption)
    | with_reducible refine moves_execCanRecover ?_ ?_
    | with_reducible refine moves_execCanTxreq ?_ ?_ _ (by assumption)
    | with_reducible refine moves_execCanTxreq ?_ ?_
    | with_reducible refine moves_execCanTxcan ?_ ?_ _ (by assumption)
    | with_reducible refine moves_execCanTxcan ?_ ?_
    | with_reducible refine moves_execCanRxack ?_ ?_ _ (by assumption)
    | with_reducible refine moves_execCanRxack ?_ ?_
    | exact _hp (by decide)
    | exact List.Subset.trans (by decide) _hp
    | split
    | intro _

theorem moves_writeKX {ps : List Part} {s0 s : State} {x1} {x2} {x3} (_hp : [.freeN, .out, .resp, .regs, .scope, .sv, .sx, .ob, .kx, .ce, .upd] ⊆ ps) (h : moves ps s0 s) :
    ∀ t, (State.writeKX s x1 x2 x3) = some t → moves ps s0 t := by
  intro t ht
  unfold State.writeKX at ht
  (try dsimp only at ht)
  repeat' split at ht
  all_goals try simp only [Option.some.injEq, reduceCtorEq] at ht
  all_goals try subst ht
  all_goals try refine moves_firstSome ?_ ht
  all_goals try (
    intro o ho u hu
    simp only [List.mem_cons, List.not_mem_nil, or_false] at ho)
  all_goals try (
    obtain ⟨n, -, rfl⟩ := Option.map_eq_some_iff.mp ht)
  all_goals try (
    rcases ho with rfl | rfl | rfl | rfl | rfl | rfl
    <;> obtain ⟨n, -, rfl⟩ := Option.map_eq_some_iff.mp hu)
  all_goals try (
    rcases ho with rfl | rfl | rfl | rfl | rfl
    <;> obtain ⟨n, -, rfl⟩ := Option.map_eq_some_iff.mp hu)
  all_goals try (
    rcases ho with rfl | rfl | rfl | rfl
    <;> obtain ⟨n, -, rfl⟩ := Option.map_eq_some_iff.mp hu)
  all_goals try (
    rcases ho with rfl | rfl | rfl
    <;> obtain ⟨n, -, rfl⟩ := Option.map_eq_some_iff.mp hu)
  all_goals try (
    rcases ho with rfl | rfl
    <;> obtain ⟨n, -, rfl⟩ := Option.map_eq_some_iff.mp hu)
  all_goals repeat' first
    | with_reducible assumption
    | with_reducible apply moves_writeTamperStat
    | with_reducible apply moves_writeKxCmd
    | exact _hp (by decide)
    | exact List.Subset.trans (by decide) _hp
    | split
    | intro _

theorem moves_writeCXMX {ps : List Part} {s0 s : State} {x1} {x2} {x3} (_hp : [.out, .resp, .regs, .cx] ⊆ ps) (h : moves ps s0 s) :
    ∀ t, (State.writeCXMX s x1 x2 x3) = some t → moves ps s0 t := by
  intro t ht
  unfold State.writeCXMX at ht
  (try dsimp only at ht)
  repeat' split at ht
  all_goals try simp only [Option.some.injEq, reduceCtorEq] at ht
  all_goals try subst ht
  all_goals try refine moves_firstSome ?_ ht
  all_goals try (
    intro o ho u hu
    simp only [List.mem_cons, List.not_mem_nil, or_false] at ho)
  all_goals try (
    obtain ⟨n, -, rfl⟩ := Option.map_eq_some_iff.mp ht)
  all_goals try (
    rcases ho with rfl | rfl | rfl | rfl | rfl | rfl
    <;> obtain ⟨n, -, rfl⟩ := Option.map_eq_some_iff.mp hu)
  all_goals try (
    rcases ho with rfl | rfl | rfl | rfl | rfl
    <;> obtain ⟨n, -, rfl⟩ := Option.map_eq_some_iff.mp hu)
  all_goals try (
    rcases ho with rfl | rfl | rfl | rfl
    <;> obtain ⟨n, -, rfl⟩ := Option.map_eq_some_iff.mp hu)
  all_goals try (
    rcases ho with rfl | rfl | rfl
    <;> obtain ⟨n, -, rfl⟩ := Option.map_eq_some_iff.mp hu)
  all_goals try (
    rcases ho with rfl | rfl
    <;> obtain ⟨n, -, rfl⟩ := Option.map_eq_some_iff.mp hu)
  all_goals repeat' first
    | with_reducible assumption
    | with_reducible apply moves_after
    | with_reducible refine moves_execCoreStart ?_ ?_ _ (by assumption)
    | with_reducible refine moves_execCoreStart ?_ ?_
    | with_reducible refine moves_execDvfsRequest ?_ ?_ _ (by assumption)
    | with_reducible refine moves_execDvfsRequest ?_ ?_
    | with_reducible refine moves_execFenceClr ?_ ?_ _ (by assumption)
    | with_reducible refine moves_execFenceClr ?_ ?_
    | with_reducible apply moves_wr
    | with_reducible refine moves_execTagPop ?_ ?_ _ (by assumption)
    | with_reducible refine moves_execTagPop ?_ ?_
    | with_reducible refine moves_execRingTailWrite ?_ ?_ _ (by assumption)
    | with_reducible refine moves_execRingTailWrite ?_ ?_
    | exact _hp (by decide)
    | exact List.Subset.trans (by decide) _hp
    | split
    | intro _

theorem moves_writePWOB {ps : List Part} {s0 s : State} {x1} {x2} {x3} {x4} (_hp : [.out, .resp, .regs, .scope, .pw, .ob, .aon] ⊆ ps) (h : moves ps s0 s) :
    ∀ t, (State.writePWOB s x1 x2 x3 x4) = some t → moves ps s0 t := by
  intro t ht
  unfold State.writePWOB at ht
  (try dsimp only at ht)
  repeat' split at ht
  all_goals try simp only [Option.some.injEq, reduceCtorEq] at ht
  all_goals try subst ht
  all_goals try refine moves_firstSome ?_ ht
  all_goals try (
    intro o ho u hu
    simp only [List.mem_cons, List.not_mem_nil, or_false] at ho)
  all_goals try (
    obtain ⟨n, -, rfl⟩ := Option.map_eq_some_iff.mp ht)
  all_goals try (
    rcases ho with rfl | rfl | rfl | rfl | rfl | rfl
    <;> obtain ⟨n, -, rfl⟩ := Option.map_eq_some_iff.mp hu)
  all_goals try (
    rcases ho with rfl | rfl | rfl | rfl | rfl
    <;> obtain ⟨n, -, rfl⟩ := Option.map_eq_some_iff.mp hu)
  all_goals try (
    rcases ho with rfl | rfl | rfl | rfl
    <;> obtain ⟨n, -, rfl⟩ := Option.map_eq_some_iff.mp hu)
  all_goals try (
    rcases ho with rfl | rfl | rfl
    <;> obtain ⟨n, -, rfl⟩ := Option.map_eq_some_iff.mp hu)
  all_goals try (
    rcases ho with rfl | rfl
    <;> obtain ⟨n, -, rfl⟩ := Option.map_eq_some_iff.mp hu)
  all_goals repeat' first
    | with_reducible assumption
    | with_reducible apply moves_wr
    | with_reducible apply moves_writeRtcSet
    | with_reducible apply moves_writeAlarmCtl
    | with_reducible apply moves_after
    | with_reducible refine moves_execReenable ?_ ?_ _ (by assumption)
    | with_reducible refine moves_execReenable ?_ ?_
    | with_reducible apply moves_snapWrite
    | with_reducible refine moves_execSlotClr ?_ ?_ _ (by assumption)
    | with_reducible refine moves_execSlotClr ?_ ?_
    | with_reducible apply moves_csuCtl
    | with_reducible refine moves_execCsuRunWrite ?_ ?_ _ (by assumption)
    | with_reducible refine moves_execCsuRunWrite ?_ ?_
    | exact _hp (by decide)
    | exact List.Subset.trans (by decide) _hp
    | split
    | intro _

theorem moves_commandWrite {ps : List Part} {s0 s : State} {x1} {x2} {x3} {x4} (_hp : [.freeN, .out, .resp, .regs, .active, .shadow, .swapped, .epochs, .latches, .mirror, .scope, .pw, .sv, .mend, .sx, .fx, .te, .ob, .px, .nv, .kx, .ce, .upd, .bx, .aon, .cx, .mx] ⊆ ps) (h : moves ps s0 s) :
    ∀ t, (State.commandWrite s x1 x2 x3 x4) = some t → moves ps s0 t := by
  intro t ht
  unfold State.commandWrite at ht
  split at ht
  · exact moves_writeSV (List.Subset.trans (by decide) _hp) h _ ht
  · exact moves_writePX (List.Subset.trans (by decide) _hp) h _ ht
  · exact moves_writeFXTE (List.Subset.trans (by decide) _hp) h _ ht
  · exact moves_writeFXTE (List.Subset.trans (by decide) _hp) h _ ht
  · exact moves_writeBX (List.Subset.trans (by decide) _hp) h _ ht
  · exact moves_writeKX (List.Subset.trans (by decide) _hp) h _ ht
  · exact moves_writeCXMX (List.Subset.trans (by decide) _hp) h _ ht
  · exact moves_writeCXMX (List.Subset.trans (by decide) _hp) h _ ht
  · exact moves_writePWOB (List.Subset.trans (by decide) _hp) h _ ht
  · exact moves_writePWOB (List.Subset.trans (by decide) _hp) h _ ht
  · cases ht

theorem moves_writeActive {ps : List Part} {s0 s : State} {x1} {x2} {x3} (_hp : [.freeN, .out, .resp, .regs, .active, .shadow, .swapped, .epochs, .latches, .mirror, .scope, .pw, .sv, .mend, .sx, .fx, .te, .ob, .px, .nv, .kx, .ce, .upd, .bx, .aon, .cx, .mx] ⊆ ps) (h : moves ps s0 s) :
    moves ps s0 (State.writeActive s x1 x2 x3) := by
  unfold State.writeActive
  (try dsimp only)
  repeat' first
    | with_reducible assumption
    | split
    | with_reducible refine moves_commandWrite ?_ ?_ _ (by assumption)
    | with_reducible apply moves_plainWrite
    | exact _hp (by decide)
    | exact List.Subset.trans (by decide) _hp
    | intro _

theorem moves_regWrite {ps : List Part} {s0 s : State} {x1} {x2} {x3} {x4} (_hp : [.freeN, .out, .resp, .regs, .active, .shadow, .swapped, .epochs, .latches, .mirror, .scope, .pw, .sv, .mend, .sx, .fx, .te, .ob, .px, .nv, .kx, .ce, .upd, .bx, .aon, .cx, .mx] ⊆ ps) (h : moves ps s0 s) :
    moves ps s0 (State.regWrite s x1 x2 x3 x4) := by
  unfold State.regWrite
  (try dsimp only)
  repeat' first
    | with_reducible assumption
    | split
    | with_reducible apply moves_answer
    | with_reducible apply moves_writeActive
    | with_reducible apply moves_shadowWrite
    | exact _hp (by decide)
    | exact List.Subset.trans (by decide) _hp
    | intro _

theorem moves_execRegisterWrite {ps : List Part} {s0 s : State} {x0} {x1} {x2} {x3} (_hp : [.freeN, .out, .resp, .regs, .active, .shadow, .swapped, .epochs, .latches, .mirror, .scope, .pw, .sv, .mend, .sx, .fx, .te, .ob, .px, .nv, .kx, .ce, .upd, .bx, .aon, .cx, .mx] ⊆ ps) (h : moves ps s0 s) :
    ∀ t, (execRegisterWrite x0 x1 x2 x3 s) = .next t → moves ps s0 t := by
  unfold execRegisterWrite
  intro t ht
  injection ht with ht; subst ht
  (try dsimp only)
  repeat' first
    | with_reducible assumption
    | split
    | with_reducible apply moves_regWrite
    | exact _hp (by decide)
    | exact List.Subset.trans (by decide) _hp
    | intro _

theorem moves_execRcRead {ps : List Part} {s0 s : State} {x0} {x1} {x2} (_hp : [.out, .resp, .regs, .latches, .mirror, .scope, .te, .ob, .mx] ⊆ ps) (h : moves ps s0 s) :
    ∀ t, (execRcRead x0 x1 x2 s) = .next t → moves ps s0 t := by
  unfold execRcRead
  intro t ht
  injection ht with ht; subst ht
  (try dsimp only)
  repeat' first
    | with_reducible assumption
    | split
    | with_reducible apply moves_regRead
    | exact _hp (by decide)
    | exact List.Subset.trans (by decide) _hp
    | intro _

theorem moves_execCounterLowRead {ps : List Part} {s0 s : State} {x0} {x1} (_hp : [.out, .resp, .regs, .latches, .mirror, .scope, .te, .ob, .mx] ⊆ ps) (h : moves ps s0 s) :
    ∀ t, (execCounterLowRead x0 x1 s) = .next t → moves ps s0 t := by
  unfold execCounterLowRead
  intro t ht
  injection ht with ht; subst ht
  (try dsimp only)
  repeat' first
    | with_reducible assumption
    | split
    | with_reducible apply moves_regRead
    | exact _hp (by decide)
    | exact List.Subset.trans (by decide) _hp
    | intro _

theorem moves_execTiTimeRead {ps : List Part} {s0 s : State} {x0} {x1} (_hp : [.out, .resp, .regs, .latches, .mirror, .scope, .te, .ob, .mx] ⊆ ps) (h : moves ps s0 s) :
    ∀ t, (execTiTimeRead x0 x1 s) = .next t → moves ps s0 t := by
  unfold execTiTimeRead
  intro t ht
  injection ht with ht; subst ht
  (try dsimp only)
  repeat' first
    | with_reducible assumption
    | split
    | with_reducible apply moves_regRead
    | exact _hp (by decide)
    | exact List.Subset.trans (by decide) _hp
    | intro _

theorem moves_execTsiPop {ps : List Part} {s0 s : State} {x0} {x1} (_hp : [.out, .resp, .regs, .latches, .mirror, .scope, .te, .ob, .mx] ⊆ ps) (h : moves ps s0 s) :
    ∀ t, (execTsiPop x0 x1 s) = .next t → moves ps s0 t := by
  unfold execTsiPop
  intro t ht
  injection ht with ht; subst ht
  (try dsimp only)
  repeat' first
    | with_reducible assumption
    | split
    | with_reducible apply moves_regRead
    | exact _hp (by decide)
    | exact List.Subset.trans (by decide) _hp
    | intro _

theorem moves_execMsiDataPop {ps : List Part} {s0 s : State} {x0} (_hp : [.out, .resp, .regs, .latches, .mirror, .scope, .te, .ob, .mx] ⊆ ps) (h : moves ps s0 s) :
    ∀ t, (execMsiDataPop x0 s) = .next t → moves ps s0 t := by
  unfold execMsiDataPop
  intro t ht
  injection ht with ht; subst ht
  (try dsimp only)
  repeat' first
    | with_reducible assumption
    | split
    | with_reducible apply moves_regRead
    | exact _hp (by decide)
    | exact List.Subset.trans (by decide) _hp
    | intro _

theorem moves_execEvStatusWrite {ps : List Part} {s0 s : State} {x0} {x1} {x2} (_hp : [.out, .resp, .regs, .scope] ⊆ ps) (h : moves ps s0 s) :
    ∀ t, (execEvStatusWrite x0 x1 x2 s) = .next t → moves ps s0 t := by
  unfold execEvStatusWrite
  intro t ht
  injection ht with ht; subst ht
  (try dsimp only)
  repeat' first
    | with_reducible assumption
    | split
    | with_reducible apply moves_byAgent
    | with_reducible apply moves_evClear
    | exact _hp (by decide)
    | exact List.Subset.trans (by decide) _hp
    | intro _

end Sys2Proof.Machine
end

