-- ==== Sys2Proof/Laws/MovesBersan.lean ====
section
/-!
SUPPORT. What each operation of Machine/Bersan.lean can do: the parts of the state it may change, and what it keeps
(`moves`, Safety.lean). One lemma for each operation; callers cite it and do not unfold the operation.
-/

set_option linter.unusedTactic false
set_option linter.unreachableTactic false
set_option linter.unusedSimpArgs false

namespace Sys2Proof.Machine

open State

theorem moves_bersanOpen {ps : List Part} {s0 s : State} {x1} {x2} (_hp : [.out, .regs, .scope, .sv] ⊆ ps) (h : moves ps s0 s) :
    moves ps s0 (State.bersanOpen s x1 x2) := by
  unfold State.bersanOpen
  (try dsimp only)
  repeat' first
    | with_reducible assumption
    | split
    | with_reducible apply moves_kxUse
    | with_reducible refine moves_kxUse_eq ?_ ?_ (by assumption)
    | with_reducible apply moves_upd_sv
    | exact _hp (by decide)
    | exact List.Subset.trans (by decide) _hp
    | intro _

theorem moves_execBersanSessionOpen {ps : List Part} {s0 s : State} {x0} {x1} {x2} {x3} {x4} (_hp : [.out, .regs, .scope, .sv] ⊆ ps) (h : moves ps s0 s) :
    ∀ t, (execBersanSessionOpen x0 x1 x2 x3 x4 s) = .next t → moves ps s0 t := by
  unfold execBersanSessionOpen
  intro t ht
  injection ht with ht; subst ht
  (try dsimp only)
  repeat' first
    | with_reducible assumption
    | split
    | with_reducible apply moves_bersanOpen
    | exact _hp (by decide)
    | exact List.Subset.trans (by decide) _hp
    | intro _

theorem moves_execBersanSessionClose {ps : List Part} {s0 s : State} {x0} (_hp : [.out, .regs, .scope, .sv, .ob, .upd] ⊆ ps) (h : moves ps s0 s) :
    ∀ t, (execBersanSessionClose x0 s) = .next t → moves ps s0 t := by
  unfold execBersanSessionClose
  intro t ht
  injection ht with ht; subst ht
  (try dsimp only)
  repeat' first
    | with_reducible assumption
    | split
    | with_reducible apply moves_closeSession
    | exact _hp (by decide)
    | exact List.Subset.trans (by decide) _hp
    | intro _

end Sys2Proof.Machine
end

