-- ==== Sys2Proof/Laws/MovesBuffer.lean ====
section
/-!
SUPPORT. What each operation of Machine/Buffer.lean can do: the parts of the state it may change, and what it keeps
(`moves`, Safety.lean). One lemma for each operation; callers cite it and do not unfold the operation.
-/

set_option linter.unusedTactic false
set_option linter.unreachableTactic false
set_option linter.unusedSimpArgs false

namespace Sys2Proof.Machine

open State

theorem moves_pageToDram {ps : List Part} {s0 s : State} {x1} {x2} {x3} {x4} (_hp : [.regs, .sx] ⊆ ps) (h : moves ps s0 s) :
    moves ps s0 (State.pageToDram s x1 x2 x3 x4) := by
  unfold State.pageToDram
  (try dsimp only)
  repeat' first
    | with_reducible assumption
    | split
    | with_reducible apply moves_arbBytes
    | with_reducible apply moves_setQueue
    | exact _hp (by decide)
    | exact List.Subset.trans (by decide) _hp
    | intro _

theorem moves_dropAtEnqueue {ps : List Part} {s0 s : State} {x1} (_hp : [.freeN, .out, .regs, .scope, .sx, .ob, .cx, .mx] ⊆ ps) (h : moves ps s0 s) :
    moves ps s0 (State.dropAtEnqueue s x1) := by
  unfold State.dropAtEnqueue
  (try dsimp only)
  repeat' first
    | with_reducible assumption
    | split
    | with_reducible apply moves_dropFrame
    | with_reducible apply moves_bump
    | exact _hp (by decide)
    | exact List.Subset.trans (by decide) _hp
    | intro _

theorem moves_execSxEnqueue {ps : List Part} {s0 s : State} {x0} (_hp : [.freeN, .out, .regs, .shadow, .scope, .sv, .sx, .fx, .ob, .cx, .mx] ⊆ ps) (h : moves ps s0 s) :
    ∀ t, (execSxEnqueue x0 s) = .next t → moves ps s0 t := by
  unfold execSxEnqueue
  intro t ht
  injection ht with ht; subst ht
  (try dsimp only)
  repeat' first
    | with_reducible assumption
    | split
    | with_reducible apply moves_drainDone
    | with_reducible apply moves_dropAtEnqueue
    | with_reducible apply moves_enqueue
    | exact _hp (by decide)
    | exact List.Subset.trans (by decide) _hp
    | intro _

theorem moves_execIngressCopyWrite {ps : List Part} {s0 s : State} {x0} (_hp : [.freeN, .out, .regs, .shadow, .scope, .sv, .sx, .fx, .ob, .cx, .mx] ⊆ ps) (h : moves ps s0 s) :
    ∀ t, (execIngressCopyWrite x0 s) = .next t → moves ps s0 t := by
  unfold execIngressCopyWrite
  intro t ht
  injection ht with ht; subst ht
  (try dsimp only)
  repeat' first
    | with_reducible assumption
    | split
    | with_reducible apply moves_drainDone
    | with_reducible apply moves_modFrame
    | with_reducible apply moves_copiesDone
    | with_reducible apply moves_writeCopy
    | exact _hp (by decide)
    | exact List.Subset.trans (by decide) _hp
    | intro _

theorem moves_execFillPageTimeout {ps : List Part} {s0 s : State} {x0} (_hp : [.sx] ⊆ ps) (h : moves ps s0 s) :
    ∀ t, (execFillPageTimeout x0 s) = .next t → moves ps s0 t := by
  unfold execFillPageTimeout
  intro t ht
  injection ht with ht; subst ht
  (try dsimp only)
  repeat' first
    | with_reducible assumption
    | split
    | with_reducible apply moves_only
    | with_reducible apply moves_setQueue
    | with_reducible apply moves_upd_sx
    | exact _hp (by decide)
    | exact List.Subset.trans (by decide) _hp
    | intro _

theorem moves_execHamperPageWritten {ps : List Part} {s0 s : State} {x0} (_hp : [.out, .regs, .scope, .sx, .ce] ⊆ ps) (h : moves ps s0 s) :
    ∀ t, (execHamperPageWritten x0 s) = .next t → moves ps s0 t := by
  unfold execHamperPageWritten
  intro t ht
  injection ht with ht; subst ht
  (try dsimp only)
  repeat' first
    | with_reducible assumption
    | split
    | with_reducible apply moves_only
    | with_reducible apply moves_hamKeys
    | with_reducible refine moves_hamKeys_eq ?_ ?_ (by assumption)
    | with_reducible apply moves_pmu
    | with_reducible apply moves_bump
    | with_reducible apply moves_pageToDram
    | exact _hp (by decide)
    | exact List.Subset.trans (by decide) _hp
    | intro _

theorem moves_execRefillStart {ps : List Part} {s0 s : State} {x0} (_hp : [.out, .regs, .scope, .sx, .ce] ⊆ ps) (h : moves ps s0 s) :
    ∀ t, (execRefillStart x0 s) = .next t → moves ps s0 t := by
  unfold execRefillStart
  intro t ht
  injection ht with ht; subst ht
  (try dsimp only)
  repeat' first
    | with_reducible assumption
    | split
    | with_reducible apply moves_only
    | with_reducible apply moves_refillServed
    | with_reducible apply moves_setQueue
    | with_reducible apply moves_refillPage
    | exact _hp (by decide)
    | exact List.Subset.trans (by decide) _hp
    | intro _

theorem moves_execRefillDone {ps : List Part} {s0 s : State} {x0} (_hp : [.out, .regs, .scope, .sx, .ce] ⊆ ps) (h : moves ps s0 s) :
    ∀ t, (execRefillDone x0 s) = .next t → moves ps s0 t := by
  unfold execRefillDone
  intro t ht
  injection ht with ht; subst ht
  (try dsimp only)
  repeat' first
    | with_reducible assumption
    | split
    | with_reducible apply moves_only
    | with_reducible apply moves_refillPage
    | exact _hp (by decide)
    | exact List.Subset.trans (by decide) _hp
    | intro _

theorem moves_execPageReturn {ps : List Part} {s0 s : State} (_hp : [.out, .regs, .scope, .sx, .ob, .cx, .mx] ⊆ ps) (h : moves ps s0 s) :
    ∀ t, (execPageReturn s) = .next t → moves ps s0 t := by
  unfold execPageReturn
  intro t ht
  injection ht with ht; subst ht
  (try dsimp only)
  repeat' first
    | with_reducible assumption
    | split
    | with_reducible apply moves_checkMarks
    | with_reducible apply moves_forEach
    | with_reducible apply moves_dropPage
    | with_reducible apply moves_upd_sx
    | exact _hp (by decide)
    | exact List.Subset.trans (by decide) _hp
    | intro _

theorem moves_execHamperDrained {ps : List Part} {s0 s : State} (_hp : [.out, .regs, .scope, .sx] ⊆ ps) (h : moves ps s0 s) :
    ∀ t, (execHamperDrained s) = .next t → moves ps s0 t := by
  unfold execHamperDrained
  intro t ht
  injection ht with ht; subst ht
  (try dsimp only)
  repeat' first
    | with_reducible assumption
    | split
    | with_reducible apply moves_hamJudge
    | exact _hp (by decide)
    | exact List.Subset.trans (by decide) _hp
    | intro _

theorem moves_execHamperPageUe {ps : List Part} {s0 s : State} {x0} {x1} (_hp : [.out, .regs, .shadow, .scope, .sv, .sx, .fx, .ob, .cx, .mx] ⊆ ps) (h : moves ps s0 s) :
    ∀ t, (execHamperPageUe x0 x1 s) = .next t → moves ps s0 t := by
  unfold execHamperPageUe
  intro t ht
  injection ht with ht; subst ht
  (try dsimp only)
  repeat' first
    | with_reducible assumption
    | split
    | with_reducible apply moves_only
    | with_reducible apply moves_drainDone
    | with_reducible apply moves_fault
    | with_reducible apply moves_dramUe
    | with_reducible apply moves_losePage
    | exact _hp (by decide)
    | exact List.Subset.trans (by decide) _hp
    | intro _

end Sys2Proof.Machine
end

