-- ==== Sys2Proof/Laws/MovesCipher.lean ====
section
/-!
SUPPORT. What each operation of Machine/Cipher.lean can do: the parts of the state it may change, and what it keeps
(`moves`, Safety.lean). One lemma for each operation; callers cite it and do not unfold the operation.
-/

set_option linter.unusedTactic false
set_option linter.unreachableTactic false
set_option linter.unusedSimpArgs false

namespace Sys2Proof.Machine

open State

theorem moves_execCeDecrypt {ps : List Part} {s0 s : State} {x0} (_hp : [.out, .regs, .scope, .sx, .fx, .ce] ⊆ ps) (h : moves ps s0 s) :
    ∀ t, (execCeDecrypt x0 s) = .next t → moves ps s0 t := by
  unfold execCeDecrypt
  intro t ht
  injection ht with ht; subst ht
  (try dsimp only)
  repeat' first
    | with_reducible assumption
    | split
    | with_reducible apply moves_ceVerified
    | with_reducible apply moves_ceReceive
    | exact _hp (by decide)
    | exact List.Subset.trans (by decide) _hp
    | intro _

theorem moves_execCeEncrypt {ps : List Part} {s0 s : State} {x0} {x1} (_hp : [.out, .regs, .shadow, .scope, .sv, .sx, .fx, .ob, .ce, .cx, .mx] ⊆ ps) (h : moves ps s0 s) :
    ∀ t, (execCeEncrypt x0 x1 s) = .next t → moves ps s0 t := by
  unfold execCeEncrypt
  intro t ht
  injection ht with ht; subst ht
  (try dsimp only)
  repeat' first
    | with_reducible assumption
    | split
    | with_reducible apply moves_only
    | with_reducible apply moves_drainUnless
    | with_reducible apply moves_ceTxDrop
    | with_reducible apply moves_bump
    | with_reducible apply moves_ceProtect
    | exact _hp (by decide)
    | exact List.Subset.trans (by decide) _hp
    | intro _

theorem moves_execKeyDerive {ps : List Part} {s0 s : State} {x0} (_hp : [.out, .regs, .scope, .ce] ⊆ ps) (h : moves ps s0 s) :
    ∀ t, (execKeyDerive x0 s) = .next t → moves ps s0 t := by
  unfold execKeyDerive
  intro t ht
  injection ht with ht; subst ht
  (try dsimp only)
  repeat' first
    | with_reducible assumption
    | split
    | with_reducible apply moves_only
    | with_reducible apply moves_ctxJudge
    | with_reducible apply moves_ctxDerive
    | with_reducible apply moves_upd_ce
    | exact _hp (by decide)
    | exact List.Subset.trans (by decide) _hp
    | intro _

end Sys2Proof.Machine
end

