-- ==== Sys2Proof/Laws/MovesClock.lean ====
section
/-!
SUPPORT. What each operation of Machine/Clock.lean can do: the parts of the state it may change, and what it keeps
(`moves`, Safety.lean). One lemma for each operation; callers cite it and do not unfold the operation.
-/

set_option linter.unusedTactic false
set_option linter.unreachableTactic false
set_option linter.unusedSimpArgs false

namespace Sys2Proof.Machine

open State

/-- The real-time clock's fields are all that its count changes. -/
theorem rtcTick_eq (s : State) : ∃ a b c d, State.rtcTick s =
    { s with pw := { s.pw with rtcPhase := a, rtcSub := b, rtcSec := c }, aon := { s.aon with rtcSet := d } } :=
  ⟨_, _, _, _, by unfold State.rtcTick; with_reducible rfl⟩

theorem moves_rtcTick {ps : List Part} {s0 s : State}  (_hp : [.pw, .aon] ⊆ ps) (h : moves ps s0 s) :
    moves ps s0 (State.rtcTick s) := by
  obtain ⟨a, b, c, d, e⟩ := rtcTick_eq s
  rw [e]
  exact moves_upd_pw_aon _hp h

theorem moves_tiTick {ps : List Part} {s0 s : State} (_hp : [.out, .regs, .scope, .te] ⊆ ps) (h : moves ps s0 s) :
    moves ps s0 (State.tiTick s) := by
  unfold State.tiTick
  (try dsimp only)
  repeat' first
    | with_reducible assumption
    | split
    | with_reducible apply moves_forEach
    | with_reducible apply moves_slewTick
    | with_reducible apply moves_setTi
    | exact _hp (by decide)
    | exact List.Subset.trans (by decide) _hp
    | intro _

theorem moves_fbtcTick {ps : List Part} {s0 s : State} (_hp : [.te] ⊆ ps) (h : moves ps s0 s) :
    moves ps s0 (State.fbtcTick s) := by
  unfold State.fbtcTick
  (try dsimp only)
  repeat' first
    | with_reducible assumption
    | split
    | with_reducible apply moves_upd_te
    | exact _hp (by decide)
    | exact List.Subset.trans (by decide) _hp
    | intro _

theorem moves_occupancyTick {ps : List Part} {s0 s : State} {x1} (_hp : [.out, .regs, .scope] ⊆ ps) (h : moves ps s0 s) :
    moves ps s0 (State.occupancyTick s x1) := by
  unfold State.occupancyTick
  (try dsimp only)
  repeat' first
    | with_reducible assumption
    | split
    | with_reducible apply moves_pmuAdd
    | exact _hp (by decide)
    | exact List.Subset.trans (by decide) _hp
    | intro _

theorem moves_idleSlot {ps : List Part} {s0 s : State} (_hp : [.regs] ⊆ ps) (h : moves ps s0 s) :
    moves ps s0 (State.idleSlot s) := by
  unfold State.idleSlot
  (try dsimp only)
  repeat' first
    | with_reducible assumption
    | split
    | with_reducible apply moves_slotBack
    | with_reducible apply moves_bump64
    | exact _hp (by decide)
    | exact List.Subset.trans (by decide) _hp
    | intro _

theorem moves_slotTick {ps : List Part} {s0 s : State} (_hp : [.regs, .ob] ⊆ ps) (h : moves ps s0 s) :
    moves ps s0 (State.slotTick s) := by
  unfold State.slotTick
  (try dsimp only)
  repeat' first
    | with_reducible assumption
    | split
    | with_reducible apply moves_idleSlot
    | with_reducible apply moves_upd_ob
    | exact _hp (by decide)
    | exact List.Subset.trans (by decide) _hp
    | intro _

theorem moves_railTick {ps : List Part} {s0 s : State} (_hp : [.pw] ⊆ ps) (h : moves ps s0 s) :
    moves ps s0 (State.railTick s) := by
  unfold State.railTick
  (try dsimp only)
  repeat' first
    | with_reducible assumption
    | split
    | with_reducible apply moves_upd_pw
    | exact _hp (by decide)
    | exact List.Subset.trans (by decide) _hp
    | intro _

theorem moves_tick2ns {ps : List Part} {s0 s : State} (_hp : [.now, .out, .regs, .scope, .pw, .te, .ob, .px, .aon] ⊆ ps) (h : moves ps s0 s) :
    moves ps s0 (State.tick2ns s) := by
  unfold State.tick2ns
  (try dsimp only)
  repeat' first
    | with_reducible assumption
    | split
    | with_reducible apply moves_railTick
    | with_reducible apply moves_rtcTick
    | with_reducible apply moves_forEach
    | with_reducible apply moves_slotTick
    | with_reducible apply moves_fbtcTick
    | with_reducible apply moves_tiTick
    | with_reducible apply moves_plcaTick
    | with_reducible apply moves_occupancyTick
    | with_reducible apply moves_upd_now
    | exact Nat.le_add_right _ _
    | exact _hp (by decide)
    | exact List.Subset.trans (by decide) _hp
    | intro _

end Sys2Proof.Machine
end

