-- ==== Sys2Proof/Laws/MovesEgress.lean ====
section
/-!
SUPPORT. What each operation of Machine/Egress.lean can do: the parts of the state it may change, and what it keeps
(`moves`, Safety.lean). One lemma for each operation; callers cite it and do not unfold the operation.
-/

set_option linter.unusedTactic false
set_option linter.unreachableTactic false
set_option linter.unusedSimpArgs false

namespace Sys2Proof.Machine

open State

theorem moves_execScHandover {ps : List Part} {s0 s : State} {x0} (_hp : [.out, .regs, .shadow, .scope, .sv, .sx, .fx, .ob, .cx, .mx] ⊆ ps) (h : moves ps s0 s) :
    ∀ t, (execScHandover x0 s) = .next t → moves ps s0 t := by
  unfold execScHandover
  intro t ht
  injection ht with ht; subst ht
  (try dsimp only)
  repeat' first
    | with_reducible assumption
    | split
    | with_reducible apply moves_drainDone
    | with_reducible apply moves_only
    | with_reducible apply moves_forEach
    | with_reducible apply moves_cleanQueue
    | with_reducible apply moves_choose
    | with_reducible refine moves_choose_eq ?_ ?_ (by assumption)
    | with_reducible apply moves_handOver
    | exact _hp (by decide)
    | exact List.Subset.trans (by decide) _hp
    | intro _

theorem moves_execLaunchEligible {ps : List Part} {s0 s : State} {x0} (_hp : [.out, .regs, .shadow, .scope, .sv, .sx, .fx, .ob, .cx, .mx] ⊆ ps) (h : moves ps s0 s) :
    ∀ t, (execLaunchEligible x0 s) = .next t → moves ps s0 t := by
  unfold execLaunchEligible
  intro t ht
  injection ht with ht; subst ht
  (try dsimp only)
  repeat' first
    | with_reducible assumption
    | split
    | with_reducible apply moves_only
    | with_reducible apply moves_drainUnless
    | with_reducible apply moves_judgeHead
    | exact _hp (by decide)
    | exact List.Subset.trans (by decide) _hp
    | intro _

theorem moves_execShaperCreditRestored {ps : List Part} {s0 s : State} {x0} (_hp : [.sx] ⊆ ps) (h : moves ps s0 s) :
    ∀ t, (execShaperCreditRestored x0 s) = .next t → moves ps s0 t := by
  unfold execShaperCreditRestored
  intro t ht
  injection ht with ht; subst ht
  (try dsimp only)
  repeat' first
    | with_reducible assumption
    | split
    | with_reducible apply moves_only
    | with_reducible apply moves_setQueue
    | exact _hp (by decide)
    | exact List.Subset.trans (by decide) _hp
    | intro _

theorem moves_execTxStart {ps : List Part} {s0 s : State} {x0} (_hp : [.out, .regs, .shadow, .scope, .sv, .sx, .fx, .ob, .px, .cx, .mx] ⊆ ps) (h : moves ps s0 s) :
    ∀ t, (execTxStart x0 s) = .next t → moves ps s0 t := by
  unfold execTxStart
  intro t ht
  injection ht with ht; subst ht
  (try dsimp only)
  repeat' first
    | with_reducible assumption
    | split
    | with_reducible apply moves_forEach
    | with_reducible apply moves_cleanMq
    | with_reducible apply moves_plcaStart
    | with_reducible apply moves_setTx
    | with_reducible apply moves_setMq
    | with_reducible apply moves_drainUnless
    | with_reducible apply moves_egressStamp
    | with_reducible apply moves_noteCut
    | exact _hp (by decide)
    | exact List.Subset.trans (by decide) _hp
    | intro _

theorem moves_execLaunchTimeReached {ps : List Part} {s0 s : State} {x0} {x1} (_hp : [.sx] ⊆ ps) (h : moves ps s0 s) :
    ∀ t, (execLaunchTimeReached x0 x1 s) = .next t → moves ps s0 t := by
  unfold execLaunchTimeReached
  intro t ht
  injection ht with ht; subst ht
  (try dsimp only)
  repeat' first
    | with_reducible assumption
    | split
    | with_reducible apply moves_only
    | with_reducible apply moves_setMq
    | exact _hp (by decide)
    | exact List.Subset.trans (by decide) _hp
    | intro _

theorem moves_execTxEndOfFrame {ps : List Part} {s0 s : State} {x0} (_hp : [.out, .regs, .shadow, .scope, .sv, .sx, .fx, .ob, .px, .cx, .mx] ⊆ ps) (h : moves ps s0 s) :
    ∀ t, (execTxEndOfFrame x0 s) = .next t → moves ps s0 t := by
  unfold execTxEndOfFrame
  intro t ht
  injection ht with ht; subst ht
  (try dsimp only)
  repeat' first
    | with_reducible assumption
    | split
    | with_reducible apply moves_drainDone
    | with_reducible apply moves_only
    | with_reducible apply moves_emit
    | with_reducible apply moves_csuSee
    | with_reducible apply moves_bump64
    | with_reducible apply moves_copyGone
    | with_reducible apply moves_pegDone
    | with_reducible apply moves_setTx
    | with_reducible apply moves_eapolRelay
    | with_reducible apply moves_dropCopy
    | with_reducible apply moves_bump
    | with_reducible apply moves_sentAs
    | exact _hp (by decide)
    | exact List.Subset.trans (by decide) _hp
    | intro _

theorem moves_execStomp {ps : List Part} {s0 s : State} {x0} {x1} (_hp : [.out, .regs, .shadow, .scope, .sv, .sx, .fx, .ob, .px, .cx, .mx] ⊆ ps) (h : moves ps s0 s) :
    ∀ t, (execStomp x0 x1 s) = .next t → moves ps s0 t := by
  unfold execStomp
  intro t ht
  injection ht with ht; subst ht
  (try dsimp only)
  repeat' first
    | with_reducible assumption
    | split
    | with_reducible apply moves_drainDone
    | with_reducible apply moves_stomp
    | exact _hp (by decide)
    | exact List.Subset.trans (by decide) _hp
    | intro _

theorem moves_execTxUnderrun {ps : List Part} {s0 s : State} {x0} {x1} (_hp : [.out, .regs, .shadow, .scope, .sv, .sx, .fx, .ob, .px, .cx, .mx] ⊆ ps) (h : moves ps s0 s) :
    ∀ t, (execTxUnderrun x0 x1 s) = .next t → moves ps s0 t := by
  unfold execTxUnderrun
  intro t ht
  injection ht with ht; subst ht
  (try dsimp only)
  repeat' first
    | with_reducible assumption
    | split
    | with_reducible apply moves_drainDone
    | with_reducible apply moves_fault
    | with_reducible apply moves_portEvent
    | with_reducible apply moves_bump
    | with_reducible apply moves_stomp
    | exact _hp (by decide)
    | exact List.Subset.trans (by decide) _hp
    | intro _

theorem moves_parityStorm {ps : List Part} {s0 s : State} {x1} (_hp : [.freeN, .out, .regs, .scope, .sx, .fx, .ob, .cx, .mx] ⊆ ps) (h : moves ps s0 s) :
    moves ps s0 (State.parityStorm s x1) := by
  unfold State.parityStorm
  (try dsimp only)
  repeat' first
    | with_reducible assumption
    | split
    | with_reducible apply moves_forEach
    | with_reducible apply moves_dropFrame
    | with_reducible apply moves_fault
    | with_reducible apply moves_upd_fx
    | exact _hp (by decide)
    | exact List.Subset.trans (by decide) _hp
    | intro _

theorem moves_execTransitParityError {ps : List Part} {s0 s : State} {x0} {x1} (_hp : [.freeN, .out, .regs, .shadow, .scope, .sv, .sx, .fx, .ob, .cx, .mx] ⊆ ps) (h : moves ps s0 s) :
    ∀ t, (execTransitParityError x0 x1 s) = .next t → moves ps s0 t := by
  unfold execTransitParityError
  intro t ht
  injection ht with ht; subst ht
  (try dsimp only)
  repeat' first
    | with_reducible assumption
    | split
    | with_reducible apply moves_only
    | with_reducible apply moves_fault
    | with_reducible apply moves_setDrop
    | with_reducible apply moves_drainUnless
    | with_reducible apply moves_parityStorm
    | with_reducible apply moves_upd_fx
    | exact _hp (by decide)
    | exact List.Subset.trans (by decide) _hp
    | intro _

theorem moves_execParityStormResume {ps : List Part} {s0 s : State} {x0} (_hp : [.fx] ⊆ ps) (h : moves ps s0 s) :
    ∀ t, (execParityStormResume x0 s) = .next t → moves ps s0 t := by
  unfold execParityStormResume
  intro t ht
  injection ht with ht; subst ht
  (try dsimp only)
  repeat' first
    | with_reducible assumption
    | split
    | with_reducible apply moves_only
    | with_reducible apply moves_upd_fx
    | exact _hp (by decide)
    | exact List.Subset.trans (by decide) _hp
    | intro _

end Sys2Proof.Machine
end

