-- ==== Sys2Proof/Laws/MovesIngress.lean ====
section
/-!
SUPPORT. What each operation of Machine/Ingress.lean can do: the parts of the state it may change, and what it keeps
(`moves`, Safety.lean). One lemma for each operation; callers cite it and do not unfold the operation.
-/

set_option linter.unusedTactic false
set_option linter.unreachableTactic false
set_option linter.unusedSimpArgs false

namespace Sys2Proof.Machine

open State

theorem moves_execRxStartOfFrame {ps : List Part} {s0 s : State} {x0} {x1} (_hp : [.freeN, .out, .regs, .scope, .sx, .ob] ⊆ ps) (h : moves ps s0 s) :
    ∀ t, (execRxStartOfFrame x0 x1 s) = .next t → moves ps s0 t := by
  unfold execRxStartOfFrame
  intro t ht
  injection ht with ht; subst ht
  (try dsimp only)
  repeat' first
    | with_reducible assumption
    | split
    | with_reducible apply moves_startFrame
    | exact _hp (by decide)
    | exact List.Subset.trans (by decide) _hp
    | intro _

theorem moves_execRxRuntMinReached {ps : List Part} {s0 s : State} {x0} {x1} (_hp : [.freeN, .out, .regs, .scope, .sx, .ob, .cx, .mx] ⊆ ps) (h : moves ps s0 s) :
    ∀ t, (execRxRuntMinReached x0 x1 s) = .next t → moves ps s0 t := by
  unfold execRxRuntMinReached
  intro t ht
  injection ht with ht; subst ht
  (try dsimp only)
  repeat' first
    | with_reducible assumption
    | split
    | with_reducible apply moves_only
    | with_reducible apply moves_cellsUpTo
    | with_reducible apply moves_addBytes
    | exact _hp (by decide)
    | exact List.Subset.trans (by decide) _hp
    | intro _

theorem moves_execRxCellAllocate {ps : List Part} {s0 s : State} {x0} {x1} (_hp : [.freeN, .out, .regs, .scope, .sx, .ob, .cx, .mx] ⊆ ps) (h : moves ps s0 s) :
    ∀ t, (execRxCellAllocate x0 x1 s) = .next t → moves ps s0 t := by
  unfold execRxCellAllocate
  intro t ht
  injection ht with ht; subst ht
  (try dsimp only)
  repeat' first
    | with_reducible assumption
    | split
    | with_reducible apply moves_only
    | with_reducible apply moves_cellsUpTo
    | with_reducible apply moves_addBytes
    | exact _hp (by decide)
    | exact List.Subset.trans (by decide) _hp
    | intro _

theorem moves_execRxOversize {ps : List Part} {s0 s : State} {x0} (_hp : [.freeN, .out, .regs, .shadow, .scope, .sv, .sx, .fx, .ob, .cx, .mx] ⊆ ps) (h : moves ps s0 s) :
    ∀ t, (execRxOversize x0 s) = .next t → moves ps s0 t := by
  unfold execRxOversize
  intro t ht
  injection ht with ht; subst ht
  (try dsimp only)
  repeat' first
    | with_reducible assumption
    | split
    | with_reducible apply moves_rxOver
    | with_reducible apply moves_only
    | with_reducible apply moves_bump
    | with_reducible apply moves_rxAbort
    | with_reducible apply moves_upd_sx
    | exact _hp (by decide)
    | exact List.Subset.trans (by decide) _hp
    | intro _

theorem moves_execRxEndOfFrame {ps : List Part} {s0 s : State} {x0} {x1} (_hp : [.freeN, .out, .regs, .shadow, .scope, .pw, .sv, .sx, .fx, .ob, .aon, .cx, .mx] ⊆ ps) (h : moves ps s0 s) :
    ∀ t, (execRxEndOfFrame x0 x1 s) = .next t → moves ps s0 t := by
  unfold execRxEndOfFrame
  intro t ht
  injection ht with ht; subst ht
  (try dsimp only)
  repeat' first
    | with_reducible assumption
    | split
    | with_reducible apply moves_rxOver
    | with_reducible apply moves_only
    | with_reducible apply moves_endRx
    | exact _hp (by decide)
    | exact List.Subset.trans (by decide) _hp
    | intro _

theorem moves_execRxCutShort {ps : List Part} {s0 s : State} {x0} (_hp : [.freeN, .out, .regs, .shadow, .scope, .sv, .sx, .fx, .ob, .cx, .mx] ⊆ ps) (h : moves ps s0 s) :
    ∀ t, (execRxCutShort x0 s) = .next t → moves ps s0 t := by
  unfold execRxCutShort
  intro t ht
  injection ht with ht; subst ht
  (try dsimp only)
  repeat' first
    | with_reducible assumption
    | split
    | with_reducible apply moves_rxOver
    | with_reducible apply moves_only
    | with_reducible apply moves_cutRx
    | exact _hp (by decide)
    | exact List.Subset.trans (by decide) _hp
    | intro _

end Sys2Proof.Machine
end

