-- ==== Sys2Proof/Laws/MovesRescue.lean ====
section
/-!
SUPPORT. What each operation of Machine/Rescue.lean can do: the parts of the state it may change, and what it keeps
(`moves`, Safety.lean). One lemma for each operation; callers cite it and do not unfold the operation.
-/

set_option linter.unusedTactic false
set_option linter.unreachableTactic false
set_option linter.unusedSimpArgs false

namespace Sys2Proof.Machine

open State

theorem moves_copySlotEnds {ps : List Part} {s0 s : State} {x1} (_hp : [.nv, .upd] ⊆ ps) (h : moves ps s0 s) :
    moves ps s0 (State.copySlotEnds s x1) := by
  unfold State.copySlotEnds
  (try dsimp only)
  repeat' first
    | with_reducible assumption
    | split
    | with_reducible apply moves_journalAppend
    | with_reducible apply moves_upd_upd
    | exact _hp (by decide)
    | exact List.Subset.trans (by decide) _hp
    | intro _

theorem moves_copyFails {ps : List Part} {s0 s : State} {x1} (_hp : [.freeN, .out, .regs, .scope, .pw, .nv, .upd] ⊆ ps) (h : moves ps s0 s) :
    moves ps s0 (State.copyFails s x1) := by
  unfold State.copyFails
  (try dsimp only)
  repeat' first
    | with_reducible assumption
    | split
    | with_reducible apply moves_nvProgramFail
    | with_reducible apply moves_nvErase
    | with_reducible apply moves_enterRescue
    | with_reducible apply moves_upd_upd
    | exact _hp (by decide)
    | exact List.Subset.trans (by decide) _hp
    | intro _

theorem moves_copySlot {ps : List Part} {s0 s : State} {x1} {x2} (_hp : [.freeN, .out, .regs, .scope, .pw, .nv, .upd] ⊆ ps) (h : moves ps s0 s) :
    moves ps s0 (State.copySlot s x1 x2) := by
  unfold State.copySlot
  (try dsimp only)
  repeat' first
    | with_reducible assumption
    | split
    | with_reducible apply moves_copySlotEnds
    | with_reducible apply moves_slotWrite
    | with_reducible apply moves_copyFails
    | with_reducible apply moves_upd_upd
    | exact _hp (by decide)
    | exact List.Subset.trans (by decide) _hp
    | intro _

theorem moves_copyComplete {ps : List Part} {s0 s : State}  (_hp : [.nv, .upd] ⊆ ps) (h : moves ps s0 s) :
    moves ps s0 (State.copyComplete s) := by
  unfold State.copyComplete
  extract_lets t
  refine moves_upd_upd (_hp (by decide)) ?_
  exact moves_journalAppend (List.Subset.trans (by decide) _hp) (moves_blowFuses (List.Subset.trans (by decide) _hp) h)

theorem moves_rescueSend {ps : List Part} {s0 s : State} {x1} {x2} {x3} {x4} (_hp : [.freeN, .out] ⊆ ps) (h : moves ps s0 s) :
    moves ps s0 (State.rescueSend s x1 x2 x3 x4) := by
  unfold State.rescueSend
  (try dsimp only)
  repeat' first
    | with_reducible assumption
    | split
    | with_reducible apply moves_emit
    | with_reducible apply moves_useFree
    | exact _hp (by decide)
    | exact List.Subset.trans (by decide) _hp
    | intro _

theorem moves_rescueReply {ps : List Part} {s0 s : State} {x1} {x2} {x3} {x4} (_hp : [.freeN, .out] ⊆ ps) (h : moves ps s0 s) :
    moves ps s0 (State.rescueReply s x1 x2 x3 x4) := by
  unfold State.rescueReply
  (try dsimp only)
  repeat' first
    | with_reducible assumption
    | split
    | with_reducible apply moves_rescueSend
    | exact _hp (by decide)
    | exact List.Subset.trans (by decide) _hp
    | intro _

theorem moves_rescueHeaderTaken {ps : List Part} {s0 s : State} {x1} {x2} {x3} {x4} {x5} (_hp : [.freeN, .nv, .upd] ⊆ ps) (h : moves ps s0 s) :
    moves ps s0 (State.rescueHeaderTaken s x1 x2 x3 x4 x5) := by
  unfold State.rescueHeaderTaken
  (try dsimp only)
  repeat' first
    | with_reducible assumption
    | split
    | with_reducible apply moves_nvErase
    | with_reducible apply moves_nvProgram
    | with_reducible apply moves_nvProgramFail
    | with_reducible apply moves_upd_upd
    | exact _hp (by decide)
    | exact List.Subset.trans (by decide) _hp
    | intro _

theorem moves_rescueStore {ps : List Part} {s0 s : State} {x1} {x2} {x3} (_hp : [.upd] ⊆ ps) (h : moves ps s0 s) :
    moves ps s0 (State.rescueStore s x1 x2 x3) := by
  unfold State.rescueStore
  (try dsimp only)
  repeat' first
    | with_reducible assumption
    | split
    | with_reducible apply moves_upd_upd
    | exact _hp (by decide)
    | exact List.Subset.trans (by decide) _hp
    | intro _

theorem moves_rescueSettle {ps : List Part} {s0 s : State} {x1} {x2} (_hp : [.upd] ⊆ ps) (h : moves ps s0 s) :
    moves ps s0 (State.rescueSettle s x1 x2) := by
  unfold State.rescueSettle
  (try dsimp only)
  repeat' first
    | with_reducible assumption
    | split
    | with_reducible apply moves_upd_upd
    | exact _hp (by decide)
    | exact List.Subset.trans (by decide) _hp
    | intro _

theorem moves_rescueCheckBlock {ps : List Part} {s0 s : State} {x1} {x2} (_hp : [.freeN, .regs, .nv, .upd] ⊆ ps) (h : moves ps s0 s) :
    moves ps s0 (State.rescueCheckBlock s x1 x2).1 := by
  unfold State.rescueCheckBlock
  (try dsimp only)
  repeat' first
    | with_reducible assumption
    | split
    | with_reducible apply moves_bump
    | with_reducible apply moves_rescueSettle
    | with_reducible apply moves_nvErase
    | with_reducible apply moves_nvProgram
    | with_reducible apply moves_nvProgramFail
    | exact _hp (by decide)
    | exact List.Subset.trans (by decide) _hp
    | intro _

theorem moves_rescueCheckBlock_eq {ps : List Part} {s0 s : State} {x1} {x2} (_hp : [.freeN, .regs, .nv, .upd] ⊆ ps) (h : moves ps s0 s) {t v} (hq : (State.rescueCheckBlock s x1 x2) = (t, v)) :
    moves ps s0 t := by
  have := moves_rescueCheckBlock (x1 := x1) (x2 := x2)  _hp h
  rwa [hq] at this

theorem moves_rescueChunk {ps : List Part} {s0 s : State} {x1} {x2} {x3} (_hp : [.freeN, .regs, .nv, .upd] ⊆ ps) (h : moves ps s0 s) :
    moves ps s0 (State.rescueChunk s x1 x2 x3).1 := by
  unfold State.rescueChunk
  (try dsimp only)
  repeat' first
    | with_reducible assumption
    | split
    | with_reducible apply moves_rescueStore
    | with_reducible apply moves_rescueCheckBlock
    | with_reducible refine moves_rescueCheckBlock_eq ?_ ?_ (by assumption)
    | exact _hp (by decide)
    | exact List.Subset.trans (by decide) _hp
    | intro _

theorem moves_rescueChunk_eq {ps : List Part} {s0 s : State} {x1} {x2} {x3} (_hp : [.freeN, .regs, .nv, .upd] ⊆ ps) (h : moves ps s0 s) {t v} (hq : (State.rescueChunk s x1 x2 x3) = (t, v)) :
    moves ps s0 t := by
  have := moves_rescueChunk (x1 := x1) (x2 := x2) (x3 := x3)  _hp h
  rwa [hq] at this

theorem moves_rescueJournal {ps : List Part} {s0 s : State} {x1} (_hp : [.freeN, .nv] ⊆ ps) (h : moves ps s0 s) :
    moves ps s0 (State.rescueJournal s x1) := by
  unfold State.rescueJournal
  (try dsimp only)
  repeat' first
    | with_reducible assumption
    | split
    | with_reducible apply moves_nvErase
    | with_reducible apply moves_nvProgram
    | with_reducible apply moves_nvProgramFail
    | exact _hp (by decide)
    | exact List.Subset.trans (by decide) _hp
    | intro _

theorem moves_execCopySlotDone {ps : List Part} {s0 s : State} {x0} (_hp : [.freeN, .out, .regs, .scope, .pw, .nv, .upd] ⊆ ps) (h : moves ps s0 s) :
    ∀ t, (execCopySlotDone x0 s) = .next t → moves ps s0 t := by
  unfold execCopySlotDone
  intro t ht
  injection ht with ht; subst ht
  (try dsimp only)
  repeat' first
    | with_reducible assumption
    | split
    | with_reducible apply moves_copySlot
    | exact _hp (by decide)
    | exact List.Subset.trans (by decide) _hp
    | intro _

theorem moves_execCopyComplete {ps : List Part} {s0 s : State} (_hp : [.nv, .upd] ⊆ ps) (h : moves ps s0 s) :
    ∀ t, (execCopyComplete s) = .next t → moves ps s0 t := by
  unfold execCopyComplete
  intro t ht
  injection ht with ht; subst ht
  (try dsimp only)
  repeat' first
    | with_reducible assumption
    | split
    | with_reducible apply moves_copyComplete
    | exact _hp (by decide)
    | exact List.Subset.trans (by decide) _hp
    | intro _

theorem moves_execRescueBreak {ps : List Part} {s0 s : State} (_hp : [.freeN, .out, .regs, .scope, .pw, .nv, .upd] ⊆ ps) (h : moves ps s0 s) :
    ∀ t, (execRescueBreak s) = .next t → moves ps s0 t := by
  unfold execRescueBreak
  intro t ht
  injection ht with ht; subst ht
  (try dsimp only)
  repeat' first
    | with_reducible assumption
    | split
    | with_reducible apply moves_enterRescue
    | with_reducible apply moves_copyCut
    | with_reducible apply moves_upd_pw
    | exact _hp (by decide)
    | exact List.Subset.trans (by decide) _hp
    | intro _

theorem moves_execRescueHello {ps : List Part} {s0 s : State} {x0} (_hp : [.freeN, .out] ⊆ ps) (h : moves ps s0 s) :
    ∀ t, (execRescueHello x0 s) = .next t → moves ps s0 t := by
  unfold execRescueHello
  intro t ht
  injection ht with ht; subst ht
  (try dsimp only)
  repeat' first
    | with_reducible assumption
    | split
    | with_reducible apply moves_rescueSend
    | exact _hp (by decide)
    | exact List.Subset.trans (by decide) _hp
    | intro _

theorem moves_execRescueHeader {ps : List Part} {s0 s : State} {x0} {x1} {x2} {x3} (_hp : [.freeN, .out, .nv, .upd] ⊆ ps) (h : moves ps s0 s) :
    ∀ t, (execRescueHeader x0 x1 x2 x3 s) = .next t → moves ps s0 t := by
  unfold execRescueHeader
  intro t ht
  injection ht with ht; subst ht
  (try dsimp only)
  repeat' first
    | with_reducible assumption
    | split
    | with_reducible apply moves_rescueReply
    | with_reducible apply moves_rescueHeaderTaken
    | exact _hp (by decide)
    | exact List.Subset.trans (by decide) _hp
    | intro _

theorem moves_execRescueChunk {ps : List Part} {s0 s : State} {x0} {x1} {x2} (_hp : [.freeN, .out, .regs, .nv, .upd] ⊆ ps) (h : moves ps s0 s) :
    ∀ t, (execRescueChunk x0 x1 x2 s) = .next t → moves ps s0 t := by
  unfold execRescueChunk
  intro t ht
  injection ht with ht; subst ht
  (try dsimp only)
  repeat' first
    | with_reducible assumption
    | split
    | with_reducible apply moves_rescueChunk
    | with_reducible refine moves_rescueChunk_eq ?_ ?_ (by assumption)
    | with_reducible apply moves_rescueReply
    | exact _hp (by decide)
    | exact List.Subset.trans (by decide) _hp
    | intro _

theorem moves_execRescueActivate {ps : List Part} {s0 s : State} {x0} {x1} {x2} (_hp : [.freeN, .out, .regs, .active, .shadow, .swapped, .epochs, .latches, .mirror, .scope, .pw, .sv, .mend, .sx, .fx, .te, .ob, .px, .nv, .kx, .ce, .upd, .bx, .cx, .mx] ⊆ ps) (h : moves ps s0 s) :
    ∀ t, (execRescueActivate x0 x1 x2 s) = .next t → moves ps s0 t := by
  unfold execRescueActivate
  intro t ht
  injection ht with ht; subst ht
  (try dsimp only)
  repeat' first
    | with_reducible assumption
    | split
    | with_reducible apply moves_rescueReply
    | with_reducible apply moves_rescueJournal
    | with_reducible apply moves_resetSoc
    | exact _hp (by decide)
    | exact List.Subset.trans (by decide) _hp
    | intro _

end Sys2Proof.Machine
end

