-- ==== Sys2Proof/Laws/MovesStep.lean ====
section
/-!
SUPPORT. What each operation of Machine/Step.lean can do: the parts of the state it may change, and what it keeps
(`moves`, Safety.lean). One lemma for each operation; callers cite it and do not unfold the operation.
-/

set_option linter.unusedTactic false
set_option linter.unreachableTactic false
set_option linter.unusedSimpArgs false

namespace Sys2Proof.Machine

open State

theorem moves_withFetchWord {ps : List Part} {s0 s : State} {x1} {x2} (_hp : [.pending] ⊆ ps) (h : moves ps s0 s) :
    moves ps s0 (State.withFetchWord s x1 x2) := by
  unfold State.withFetchWord
  (try dsimp only)
  repeat' first
    | with_reducible assumption
    | split
    | with_reducible apply moves_upd_pending
    | exact _hp (by decide)
    | exact List.Subset.trans (by decide) _hp
    | intro _

end Sys2Proof.Machine
end

