-- ==== Sys2Proof/Laws/MovesTamper.lean ====
section
/-!
SUPPORT. What each operation of Machine/Tamper.lean can do: the parts of the state it may change, and what it keeps
(`moves`, Safety.lean). One lemma for each operation; callers cite it and do not unfold the operation.
-/

set_option linter.unusedTactic false
set_option linter.unreachableTactic false
set_option linter.unusedSimpArgs false

namespace Sys2Proof.Machine

open State

theorem moves_tamperShow {ps : List Part} {s0 s : State} {x1} (_hp : [.regs] ⊆ ps) (h : moves ps s0 s) :
    moves ps s0 (State.tamperShow s x1) := by
  unfold State.tamperShow
  (try dsimp only)
  repeat' first
    | with_reducible assumption
    | split
    | with_reducible apply moves_setRg
    | exact _hp (by decide)
    | exact List.Subset.trans (by decide) _hp
    | intro _

theorem moves_abortClear {ps : List Part} {s0 s : State} (_hp : [.out, .regs, .scope, .kx] ⊆ ps) (h : moves ps s0 s) :
    moves ps s0 (State.abortClear s) := by
  unfold State.abortClear
  (try dsimp only)
  repeat' first
    | with_reducible assumption
    | split
    | with_reducible refine moves_takeJob ?_ ?_ _ _ (by assumption)
    | with_reducible apply moves_kxResult
    | exact _hp (by decide)
    | exact List.Subset.trans (by decide) _hp
    | intro _

theorem moves_alarmRescue {ps : List Part} {s0 s : State} (_hp : [.freeN, .out, .regs, .active, .shadow, .swapped, .epochs, .latches, .mirror, .scope, .pw, .sv, .mend, .sx, .fx, .te, .ob, .px, .nv, .kx, .ce, .upd, .bx, .cx, .mx] ⊆ ps) (h : moves ps s0 s) :
    moves ps s0 (State.alarmRescue s) := by
  unfold State.alarmRescue
  (try dsimp only)
  repeat' first
    | with_reducible assumption
    | split
    | with_reducible apply moves_romStart
    | with_reducible apply moves_socReset
    | with_reducible apply moves_enterRescue
    | with_reducible apply moves_copyCut
    | exact _hp (by decide)
    | exact List.Subset.trans (by decide) _hp
    | intro _

theorem moves_tamperRunning {ps : List Part} {s0 s : State} {x1} {x2} (_hp : [.freeN, .out, .regs, .active, .shadow, .swapped, .epochs, .latches, .mirror, .scope, .pw, .sv, .mend, .sx, .fx, .te, .ob, .px, .nv, .kx, .ce, .upd, .bx, .cx, .mx] ⊆ ps) (h : moves ps s0 s) :
    moves ps s0 (State.tamperRunning s x1 x2) := by
  unfold State.tamperRunning
  (try dsimp only)
  repeat' first
    | with_reducible assumption
    | split
    | with_reducible apply moves_tamperLog
    | with_reducible apply moves_tamperShow
    | with_reducible apply moves_alarmRescue
    | with_reducible apply moves_abortClear
    | with_reducible apply moves_wipe
    | with_reducible apply moves_wipeLock
    | exact _hp (by decide)
    | exact List.Subset.trans (by decide) _hp
    | intro _

theorem moves_tamperListen {ps : List Part} {s0 s : State} {x1} {x2} (_hp : [.out, .regs, .scope, .pw, .ob, .kx, .aon] ⊆ ps) (h : moves ps s0 s) :
    moves ps s0 (State.tamperListen s x1 x2) := by
  unfold State.tamperListen
  (try dsimp only)
  repeat' first
    | with_reducible assumption
    | split
    | with_reducible apply moves_wakeLog
    | with_reducible apply moves_wake
    | with_reducible apply moves_upd_kx
    | exact _hp (by decide)
    | exact List.Subset.trans (by decide) _hp
    | intro _

theorem moves_tamperAlarm {ps : List Part} {s0 s : State} {x1} (_hp : [.freeN, .out, .regs, .active, .shadow, .swapped, .epochs, .latches, .mirror, .scope, .pw, .sv, .mend, .sx, .fx, .te, .ob, .px, .nv, .kx, .ce, .upd, .bx, .aon, .cx, .mx] ⊆ ps) (h : moves ps s0 s) :
    moves ps s0 (State.tamperAlarm s x1) := by
  unfold State.tamperAlarm
  (try dsimp only)
  repeat' first
    | with_reducible assumption
    | split
    | with_reducible apply moves_tamperRunning
    | with_reducible apply moves_tamperListen
    | with_reducible apply moves_upd_kx
    | exact _hp (by decide)
    | exact List.Subset.trans (by decide) _hp
    | intro _

theorem moves_tamperClear {ps : List Part} {s0 s : State} {x1} (_hp : [.regs, .kx] ⊆ ps) (h : moves ps s0 s) :
    moves ps s0 (State.tamperClear s x1) := by
  unfold State.tamperClear
  (try dsimp only)
  repeat' first
    | with_reducible assumption
    | split
    | with_reducible apply moves_setRg
    | with_reducible apply moves_upd_kx
    | exact _hp (by decide)
    | exact List.Subset.trans (by decide) _hp
    | intro _

theorem moves_execTamperAlarm {ps : List Part} {s0 s : State} {x0} (_hp : [.freeN, .out, .regs, .active, .shadow, .swapped, .epochs, .latches, .mirror, .scope, .pw, .sv, .mend, .sx, .fx, .te, .ob, .px, .nv, .kx, .ce, .upd, .bx, .aon, .cx, .mx] ⊆ ps) (h : moves ps s0 s) :
    ∀ t, (execTamperAlarm x0 s) = .next t → moves ps s0 t := by
  unfold execTamperAlarm
  intro t ht
  injection ht with ht; subst ht
  (try dsimp only)
  repeat' first
    | with_reducible assumption
    | split
    | with_reducible apply moves_tamperAlarm
    | exact _hp (by decide)
    | exact List.Subset.trans (by decide) _hp
    | intro _

theorem moves_execMeshCheck {ps : List Part} {s0 s : State} {x0} (_hp : [.freeN, .out, .regs, .active, .shadow, .swapped, .epochs, .latches, .mirror, .scope, .pw, .sv, .mend, .sx, .fx, .te, .ob, .px, .nv, .kx, .ce, .upd, .bx, .aon, .cx, .mx] ⊆ ps) (h : moves ps s0 s) :
    ∀ t, (execMeshCheck x0 s) = .next t → moves ps s0 t := by
  unfold execMeshCheck
  intro t ht
  injection ht with ht; subst ht
  (try dsimp only)
  repeat' first
    | with_reducible assumption
    | split
    | with_reducible apply moves_tamperClear
    | with_reducible apply moves_tamperAlarm
    | exact _hp (by decide)
    | exact List.Subset.trans (by decide) _hp
    | intro _

theorem moves_execTamperAlarmCleared {ps : List Part} {s0 s : State} {x0} (_hp : [.regs, .kx] ⊆ ps) (h : moves ps s0 s) :
    ∀ t, (execTamperAlarmCleared x0 s) = .next t → moves ps s0 t := by
  unfold execTamperAlarmCleared
  intro t ht
  injection ht with ht; subst ht
  (try dsimp only)
  repeat' first
    | with_reducible assumption
    | split
    | with_reducible apply moves_tamperClear
    | exact _hp (by decide)
    | exact List.Subset.trans (by decide) _hp
    | intro _

end Sys2Proof.Machine
end

