-- ==== Sys2Proof/Laws/Ports.lean ====
section
/-!
SUPPORT. What a port's event and its pauses leave of the registers (R142, R158).
-/

namespace Sys2Proof.Machine

namespace State

/-- A port event writes its port list and its status word only (R158). -/
theorem rg_portEvent (s : State) (e p : Nat) (f : Fld) (h1 : f.off ≠ 0x1000200 + 8 * e) (h2 : f.off ≠ 0x1000204 + 8 * e)
    (h3 : f.off ≠ 0x2000 + 4 * ((32 + e) / 32)) : (s.portEvent e p).rg f = s.rg f := by
  unfold portEvent
  rw [rg_raise _ _ _ _ h3]
  split
  · rw [rg_eq, rd_setRg_ne _ _ _ _ h1]; rfl
  · rw [rg_eq, rd_setRg_ne _ _ _ _ h2]; rfl

theorem evSet_portEvent (s : State) (e p : Nat) (hu : s.socUp = true) : (s.portEvent e p).evSet (32 + e) = true := by
  unfold portEvent
  apply evSet_raise
  split <;> exact hu

theorem rg_setPaused (s : State) (p t : Nat) (on : Bool) (f : Fld) (hf : f.ok = true)
    (h1 : (F.PX_PORT_STAT_PAUSED p).apart f = true) (h2 : (F.PX_PORT_STAT_PFC_PAUSED p).apart f = true) :
    (s.setPaused p t on).rg f = s.rg f := by
  unfold setPaused
  dsimp only
  split
  · exact rg_setRg_apart _ _ _ rfl hf h1 _
  · exact rg_setRg_apart _ _ _ rfl hf h2 _

theorem rg_endPause (s : State) (p t : Nat) (f : Fld) (hf : f.ok = true)
    (h1 : (F.PX_PORT_STAT_PAUSED p).apart f = true) (h2 : (F.PX_PORT_STAT_PFC_PAUSED p).apart f = true) :
    (s.endPause p t).rg f = s.rg f := rg_setPaused s p t false f hf h1 h2

theorem rg_endPauses (s : State) (p : Nat) (f : Fld) (hf : f.ok = true)
    (h1 : (F.PX_PORT_STAT_PAUSED p).apart f = true) (h2 : (F.PX_PORT_STAT_PFC_PAUSED p).apart f = true) :
    (s.endPauses p).rg f = s.rg f := by
  unfold endPauses
  have key : ∀ (l : List Nat) (u : State), (u.forEach l (fun t k => t.endPause p k)).rg f = u.rg f := by
    intro l
    induction l with
    | nil => intro u; rfl
    | cons k l ih => intro u; exact (ih _).trans (rg_endPause u p k f hf h1 h2)
  exact key _ s

theorem clrBit_testBit (m i : Nat) : (clrBit m i).testBit i = false := by
  unfold clrBit
  split
  · next h =>
    have h2 : 2 ^ i ≤ m := Nat.ge_two_pow_of_testBit h
    have e := Nat.testBit_two_pow_add_eq (m - 2 ^ i) i
    rw [show 2 ^ i + (m - 2 ^ i) = m by omega, h] at e
    simpa using e.symm
  · next h => simpa using h

/-- A target just paused, or its pause just ended. -/
theorem isPaused_setPaused (s : State) (p t : Nat) (on : Bool) (ht : t < 9) :
    (s.setPaused p t on).isPaused p t = on := by
  unfold setPaused isPaused
  by_cases h : t = 8
  · simp only [h, if_true]
    rw [rg_setRg_same _ _ rfl]
    cases on <;> rfl
  · simp only [h, if_false]
    rw [rg_setRg_same _ _ rfl, Nat.testBit_mod_two_pow]
    have h8 : t < 8 := by omega
    cases on
    · simp [clrBit_testBit]
    · simp [setBit_testBit, h8]

end State

end Sys2Proof.Machine
end

