-- ==== Sys2Proof/Laws/Sched.lean ====
section
/-!
SUPPORT. Hand-over: the head of a queue goes to its MAC transmit queue, and nothing else of the two changes.
-/

namespace Sys2Proof.Machine

namespace State

theorem mqOf_setQueue (s : State) (q p m : Nat) (x : Queue) : (s.setQueue q x).mqOf p m = s.mqOf p m := rfl

theorem mqOf_pmu (s : State) (ev u n p m : Nat) : (s.pmu ev u n).mqOf p m = s.mqOf p m :=
  mqOf_congr (pmu_sx s ev u n) p m

theorem queueOf_pmu (s : State) (ev u n q : Nat) : (s.pmu ev u n).queueOf q = s.queueOf q :=
  queueOf_congr (pmu_sx s ev u n) q

theorem queueOf_setMq (s : State) (p m q : Nat) (l : List Copy) : (s.setMq p m l).queueOf q = s.queueOf q := rfl

theorem queueOf_setTurn (s : State) (p g t q : Nat) : (s.setTurn p g t).queueOf q = s.queueOf q := rfl

theorem mqOf_setTurn (s : State) (p g t k m : Nat) : (s.setTurn p g t).mqOf k m = s.mqOf k m := rfl

/-- Charging a shaper leaves the MAC transmit queues alone. -/
theorem mqOf_chargeShaper (s : State) (q n p m : Nat) : (s.chargeShaper q n).mqOf p m = s.mqOf p m := by
  unfold chargeShaper
  dsimp only
  split
  · exact mqOf_setQueue s q p m _
  · rfl

/-- Charging a turn leaves the MAC transmit queues alone. -/
theorem mqOf_chargeTurn (s : State) (p tc n k m : Nat) : (s.chargeTurn p tc n).mqOf k m = s.mqOf k m := by
  unfold chargeTurn
  dsimp only
  split
  · rfl
  generalize (if ((s.queueOf (qOf p tc)).die.isEmpty && (s.queueOf (qOf p tc)).pages.isEmpty) = true then 0 else (s.queueOf (qOf p tc)).deficit - n) = d
  split
  · exact mqOf_setQueue s _ k m _
  · rw [mqOf_setTurn]; exact mqOf_setQueue s _ k m _

/-- Charging a turn leaves the copies of its queue alone. -/
theorem die_chargeTurn (s : State) (p tc n : Nat) :
    ((s.chargeTurn p tc n).queueOf (qOf p tc)).die = (s.queueOf (qOf p tc)).die := by
  unfold chargeTurn
  dsimp only
  split
  · rfl
  generalize (if ((s.queueOf (qOf p tc)).die.isEmpty && (s.queueOf (qOf p tc)).pages.isEmpty) = true then 0 else (s.queueOf (qOf p tc)).deficit - n) = d
  split
  · rw [queueOf_setQueue_same]
  · rw [queueOf_setTurn, queueOf_setQueue_same]

/-- Passing the turns on changes no queue of either kind. -/
theorem passTurns_keeps (s : State) (p : Nat) :
    (s.passTurns p).sx.queues = s.sx.queues ∧ (s.passTurns p).sx.mqs = s.sx.mqs := by
  unfold passTurns forEach
  generalize ([1, 2] : List Nat) = l
  induction l generalizing s with
  | nil => exact ⟨rfl, rfl⟩
  | cons g l ih =>
    rw [List.foldl_cons]
    have h := ih (if s.turnOf p g < 8 ∧ !s.eligible (qOf p (s.turnOf p g)) then s.setTurn p g (8 + s.turnOf p g) else s)
    refine ⟨h.1.trans ?_, h.2.trans ?_⟩ <;> split <;> rfl

theorem mqOf_passTurns (s : State) (p k m : Nat) : (s.passTurns p).mqOf k m = s.mqOf k m := by
  unfold mqOf; rw [(passTurns_keeps s p).2]

theorem queueOf_passTurns (s : State) (p q : Nat) : (s.passTurns p).queueOf q = s.queueOf q := by
  unfold queueOf; rw [(passTurns_keeps s p).1]

/-- The head of a queue of a MAC port is appended to its MAC transmit queue (R139). -/
theorem handOver_mac (s : State) (p tc : Nat) (c : Copy) (rest : List Copy) (hm : hasMac p = true)
    (hd : (s.queueOf (qOf p tc)).die = c :: rest) :
    (s.handOver p tc).mqOf p (s.mqFor c) = s.mqOf p (s.mqFor c) ++ [{ c with deq := some s.now }] ∧
      ((s.handOver p tc).queueOf (qOf p tc)).die = rest := by
  unfold handOver
  simp only [hd, hm, if_true]
  rw [mqOf_passTurns, queueOf_passTurns, mqOf_chargeTurn, die_chargeTurn, mqOf_setMq_same, queueOf_setMq, mqOf_pmu, mqOf_pmu, queueOf_pmu, queueOf_pmu,
    queueOf_setQueue_same, mqOf_setQueue, mqOf_chargeShaper]
  exact ⟨rfl, rfl⟩

end State

end Sys2Proof.Machine
end

