-- ==== Sys2Proof/Laws/Starts.lean ====
section
/-!
SUPPORT. What the start of the SoC die leaves of the power-die state (R79, R92, R93).
-/

namespace Sys2Proof.Machine

open State

theorem enterRescue_pw (s : State) : s.enterRescue.pw = { s.pw with rescue := true } := by
  have h : (if s.pw.start.tested then s else s.setFlashMode).pw = s.pw := by
    split
    · rfl
    · exact (moves_setFlashMode (ps := [.out, .regs]) (by decide) (moves_refl s)).1 .pw (by decide)
  unfold enterRescue
  rw [raise_pw]
  show { (if s.pw.start.tested then s else s.setFlashMode).pw with rescue := true } = _
  rw [h]
/-- The ROM's start keeps the cause and the rails, and notes its milestone. -/
theorem romStart_pw (s : State) : s.romStart.pw.cause = s.pw.cause ∧ s.romStart.pw.power = s.pw.power ∧
    s.romStart.pw.held = s.pw.held ∧ s.romStart.pw.start.rom = true ∧ s.romStart.pw.resetN = s.pw.resetN := by
  unfold romStart
  dsimp only
  have e : ∀ u : State, u.transportNodes.refreshMirror.pw = u.pw := fun u =>
    (moves_refreshMirror (ps := [.out, .regs, .scope, .kx, .mirror]) (by decide) (moves_transportNodes (by decide) (moves_refl u))).1 .pw (by decide)
  have key : ∀ u : State, (if u.startAlarm = true then u.enterRescue else u).pw = { u.pw with rescue := u.pw.rescue || u.startAlarm } := by
    intro u
    split
    · next h => rw [enterRescue_pw, h]; simp
    · next h => simp at h; rw [h]; simp
  rw [key, e]
  exact ⟨rfl, rfl, rfl, rfl, rfl⟩
/-- A release keeps the rails; RESET_N holds the SoC die and is then a cause too (R93, R529). -/
theorem releaseSoc_pw (s : State) :
    s.releaseSoc.pw.cause = (if s.pw.resetN = true then firstCause s.pw.cause 1 else s.pw.cause) ∧
    s.releaseSoc.pw.power = s.pw.power ∧ s.releaseSoc.pw.held = s.pw.resetN ∧ s.releaseSoc.pw.resetN = s.pw.resetN ∧
    (s.pw.resetN = false → s.releaseSoc.pw.start.rom = true) := by
  unfold releaseSoc
  split
  · next h => exact ⟨rfl, rfl, h.symm, rfl, fun k => by rw [h] at k; exact absurd k (by decide)⟩
  · next h =>
    have r := romStart_pw { s with pw.held := false }
    exact ⟨r.1, r.2.1, r.2.2.1.trans (by simpa using h), r.2.2.2.2, fun _ => r.2.2.2.1⟩

/-- What a reset cuts short in the flash (R350, R483) touches neither the power die nor the always-on state. -/
theorem cut_keeps (s : State) : s.tornHelper.copyCut.pw = s.pw ∧ s.tornHelper.copyCut.aon = s.aon :=
  have m : moves [.freeN, .nv, .upd] s s.tornHelper.copyCut :=
    moves_copyCut (by decide) (moves_tornHelper (by decide) (moves_refl s))
  ⟨m.1 .pw (by decide), m.1 .aon (by decide)⟩

/-- A reset of the running SoC die loses both copies of every configuration domain and keeps the flash (but for a write
of ENROLL or of the copy that it cuts short), OTP, the always-on state and the rails; the cause is the reset's, unless the pin holds
the die too and ranks first (R92, R93). -/
theorem resetSoc_keeps (s : State) (c : Nat) (hp : s.pw.power = .up) :
    (s.resetSoc c).active = [] ∧ (s.resetSoc c).shadow = [] ∧ (s.resetSoc c).nv = s.tornHelper.copyCut.nv ∧
      (s.resetSoc c).aon = s.aon ∧ (s.resetSoc c).pw.cause = (if s.pw.resetN = true then firstCause (s.resetCause c) 1
        else s.resetCause c) ∧ (s.resetSoc c).pw.power = .up := by
  unfold resetSoc
  rw [if_pos hp]
  have m : moves [.freeN, .out, .regs, .mirror, .scope, .pw, .kx] (s.socReset (s.resetCause c))
      (s.socReset (s.resetCause c)).releaseSoc :=
    moves_releaseSoc (List.Subset.refl _) (moves_refl _)
  have r := releaseSoc_pw (s.socReset (s.resetCause c))
  have e : (s.socReset (s.resetCause c)).pw.resetN = s.pw.resetN := by
    show s.tornHelper.copyCut.pw.resetN = _; rw [(cut_keeps s).1]
  have pw : (s.socReset (s.resetCause c)).pw.power = .up := by
    show s.tornHelper.copyCut.pw.power = _; rw [(cut_keeps s).1]; exact hp
  refine ⟨m.1 .active (by decide), m.1 .shadow (by decide), m.1 .nv (by decide),
    (m.1 .aon (by decide)).trans ((cut_keeps s).2), ?_, r.2.1.trans pw⟩
  rw [r.1, e]; rfl

end Sys2Proof.Machine
end

