-- ==== Sys2Proof/Machine/Pins.lean ====
section
/-!
DEFINITION. The pins that follow from State at every instant (R528, and the rules it names): no command writes them.
-/

namespace Sys2Proof.Machine

namespace State

/-- The SoC die is powered (R528). -/
def socPowered (s : State) : Bool := decide (s.pw.power = .up)

/-- SYS_RESET_OUT_N: low while the SoC die is unpowered or in reset, high from firmware start (R79, R82, R93, R528). -/
def sysResetOut (s : State) : Pin := if s.socUp && s.pw.start.firmware then .high else .low

/-- NVM_RST_N: low without power and while RESET_N is low, released otherwise (R47, R528). -/
def nvmRst (s : State) : Pin := if s.socPowered && !s.pw.resetN then .high else .low

/-- NVM_CLK, NVM_CS_N and NVM_IO[7:0]: high impedance without power and while RESET_N is low (R47). -/
def nvmPins (s : State) : Pin := if s.socPowered && !s.pw.resetN then .asUsed else .z

/-- The flash is read 8D-8D-8D: at the clock of FREQ, in MHz, and with DUMMY cycles; 1S-1S-1S at 25 MHz, with none, otherwise
(R49, whose reserved values act as 0x03 and 20). -/
def flashReads (s : State) : Bool × Nat × Nat :=
  if s.rg F.SV_CFG_STATUS_OCTAL = 1 then
    let d := (s.nvByte 6).toNat
    (true, [200, 166, 133].getD (s.nvByte 5).toNat 100, orElse (decide (4 ≤ d ∧ d ≤ 30)) d 20)
  else (false, 25, 0)

/-- A SoC output without a row of its own in R528: high impedance while the SoC die is unpowered or in reset, as configured
while it runs. -/
def socOut (s : State) : Pin := if s.socUp then .asUsed else .z

/-- RGMII_TXC, RGMII_TX_CTL and RGMII_TXD[3:0] of P40 (R528). -/
def rgmiiTx (s : State) : Pin := s.socOut

/-- MGMT_MDC and MGMT_MDIO (R150, R528). -/
def mgmtPins (s : State) : Pin := s.socOut

/-- DBG_UART_TX (R528). -/
def dbgUartTx (s : State) : Pin := s.socOut

/-- The PCIe transmit lanes (R466, R528). -/
def pcieTx (s : State) : Pin := s.socOut

/-- IRQ_Ni: open-drain, active low (R43, R528). -/
def irqPin (s : State) (i : Nat) : Pin := if s.socUp && s.irqAsserted i then .low else .z

/-- FAULT_N: open-drain, active low (R511, R528). -/
def faultN (s : State) : Pin := if s.faultPin then .low else .z

/-- CAN_TXDc, c from 8: high in every state in which the controller does not transmit (R290), and in internal loopback,
in which the bus sees recessive (R293). -/
def canTxd (s : State) (c : Nat) : Pin :=
  if s.socUp && s.canLive c && (s.canOf c).active.isSome && decide (s.canMode c ≠ 3) then .asUsed else .high

/-- EN_* of rail k, 1 to 6 in start-up order: low without power, high from the rail's turn on (R79, R528). -/
def railEn (s : State) (k : Nat) : Pin :=
  match s.pw.power with
  | .up => .high
  | .rising => if k ≤ s.pw.rail + 1 then .high else .low
  | .falling => if k ≤ s.pw.rail then .high else .low
  | _ => .low

/-- SENSE_OUT in µV (R440, R528): the selected channel's SENSE × 2.5 V / 3,839, 3.0 V for a channel that reads 4,095,
0 V with EN = 0, in LISTEN and while the SoC die is unpowered or in reset. -/
def senseOut (s : State) : Nat :=
  if !s.socUp ∨ s.rg F.PW_SENSE_SEL_EN = 0 then 0
  else
    let code := s.rg (F.PW_OUT_STAT_SENSE (s.rg F.PW_SENSE_SEL_CH))
    if code = 4095 then 3000000 else code * 2500000 / 3839

/-- PCIE_PERST_N: an input in endpoint mode; in root-port mode low in reset and driven by the port afterwards (R466,
R528). -/
def perst (s : State) : Pin :=
  if !s.socPowered ∨ !s.pw.rootPort then .z else if s.socUp then .asUsed else .low

/-- TSYNC_OUTk: at the inactive level until MODE selects otherwise, and through a pulse at the active one, under the INVERT
of its latest rising edge (R279, R528). -/
def tsyncOut (s : State) (k : Nat) : Pin :=
  if !s.socUp then .z
  else
    let level := match (s.tsoOf k).pulse with
      | some p => tsoLevel p.invert true
      | none => tsoLevel (s.tsoOf k).invert false
    if level then .high else .low

/-- The line of T1S port p: driven while the port is in service and not quarantined; a quarantined port, one with
ADMIN = 0 and one under Mend present high impedance (R144). -/
def t1sLine (s : State) (p : Nat) : Pin :=
  if s.portUp p && decide (s.rg (F.PX_PORT_STAT_QUAR p) = 0) && decide (s.act (F.PX_PORT_CFG_ADMIN p) = 1) &&
    decide (s.rg (F.PX_PORT_STAT_MEND p) = 0) then .asUsed else .z

/-- The transmitter of SerDes port p: electrical idle, shown as high impedance, while the port is down (R528). -/
def serdesTx (s : State) (p : Nat) : Pin := if s.portUp p then .asUsed else .z

end State

end Sys2Proof.Machine
end

