-- ==== Sys2Proof/WellFormed.lean ====
section
/-!
DEFINITION. Which commands are well formed: the operands that name a unit name one that the gateway has. A command that
is not well formed names no unit; the machine then does nothing, or what the spec says of the register access it is.
-/

namespace Sys2Proof

/-- The operands of a command lie in the ranges of the units, fields and pins they name. -/
def Instr.wellFormed : Instr → Bool
  | .obSnapTsyncEdge pin _ => decide (pin < 2)
  | .evStatusWrite _ n _ => decide (n < 8)
  | .rxStartOfFrame port _ => decide (port < 41)
  | .rxRuntMinReached port _ => decide (port < 41)
  | .rxCellAllocate port _ => decide (port < 41)
  | .rxOversize port => decide (port < 41)
  | .rxEndOfFrame port _ => decide (port < 41)
  | .rxCutShort port => decide (port < 41)
  | .scHandover port => decide (port < 41)
  | .launchEligible q => decide (q < 328)
  | .shaperCreditRestored q => decide (q < 328)
  | .ceEncrypt port m => decide (port < 41 ∧ m < 4)
  | .sealAdd port => decide (port < 41)
  | .txStart port => decide (port < 41)
  | .launchTimeReached port m => decide (port < 41 ∧ m < 4)
  | .txEndOfFrame port => decide (port < 41)
  | .stomp port _ => decide (port < 41)
  | .txUnderrun port _ => decide (port < 41)
  | .transitParityError unit _ => decide (unit < 65536)
  | .parityStormResume unit => decide (unit < 65536)
  | .epochAdoption port => decide (port < 41)
  | .bersanBankWrite n _ => decide (n < 4)
  | .railPgRise n => decide (n < 6)
  | .railPgTimeout n => decide (n < 6)
  | .railPgLost n => decide (n < 6)
  | .listenExit src unit => decide (src < 13 ∧ unit < 64)
  | .tack _ set _ => decide (set < 2 ^ 18)
  | .tackCopyDone h => decide (h < 4)
  | .stitch _ h _ => decide (h < 4)
  | .stitchAt _ h _ ti sec ns => decide (h < 4 ∧ ti < 4 ∧ sec < 2 ^ 48 ∧ ns < 1000000000)
  | .unpick _ h => decide (h < 4)
  | .renew _ h => decide (h < 4)
  | .stitchAtTimeReached h => decide (h < 4)
  | .stitchCommit h => decide (h < 4)
  | .txTimeout h => decide (h < 4)
  | .mendStart _ kind unit => decide (kind < 16 ∧ unit < 256)
  | .mendStop _ id => decide (id < 256)
  | .bankTestFenceExpiry id => decide (id < 256)
  | .mendActivityEnd id _ => decide (id < 256)
  | .faultBankFence bank cell => decide (bank < 16 ∧ cell < 16384)
  | .hamperPageUe q _ => decide (q < 328)
  | .cipherMismatch pair ctx _ => decide (pair < 8 ∧ ctx < 4096)
  | .pcsBlockLock port => decide (port < 24)
  | .pcsLockLoss port => decide (port < 24)
  | .pcsFaultReceived port _ => decide (port < 24)
  | .controlWordReceived port rate => decide (port < 24 ∧ rate < 8)
  | .portFlushComplete port => decide (port < 41)
  | .pauseReceived port dmac opcode quanta => decide (port < 41 ∧ dmac < 2 ^ 48 ∧ opcode < 65536 ∧ quanta < 65536)
  | .pfcReceived port opcode en quanta => decide (port < 41 ∧ opcode < 65536 ∧ en < 256) && decide (quanta.length = 8)
  | .pauseExpiry port target => decide (port < 41 ∧ target < 9)
  | .pauseWdTrip port target => decide (port < 41 ∧ target < 9)
  | .pauseHoldoffEnd port => decide (port < 41)
  | .beaconLoss n => decide (n < 12)
  | .beaconReceived n => decide (n < 12)
  | .nodeIdCollision n => decide (n < 12)
  | .jabber n => decide (n < 12)
  | .quarantineEnd n => decide (n < 12)
  | .quarantineRelease _ n _ => decide (n < 12)
  | .mdioPoll reg1 reg5 reg10 => decide (reg1 < 65536 ∧ reg5 < 65536 ∧ reg10 < 65536)
  | .mdioDone data => decide (data < 65536)
  | .fillPageTimeout q => decide (q < 328)
  | .hamperPageWritten q => decide (q < 328)
  | .refillStart q => decide (q < 328)
  | .refillDone q => decide (q < 328)
  | .pgRejoin pg member => decide (pg < 16 ∧ member < 8)
  | .frerReset h => decide (h < 1024)
  | .gclEntryChange port => decide (port < 41)
  | .gclStart port => decide (port < 41)
  | .sgateEntryChange g => decide (g < 256)
  | .psfpClearFilter _ i => decide (i < 1024)
  | .psfpClearGate _ g => decide (g < 256)
  | .tiAdjWrite _ i _ => decide (i < 4)
  | .tiStep _ i => decide (i < 4)
  | .tiSet _ i => decide (i < 4)
  | .tiUnset _ i => decide (i < 4)
  | .tiTimeRead _ i => decide (i < 4)
  | .syncReceived i port domain _ gmid prio => decide (i < 4 ∧ port < 41 ∧ domain < 256 ∧ gmid < 2 ^ 64 ∧ prio < 256)
  | .syncTimeout i other => decide (i < 4 ∧ other.getD 0 < 256)
  | .settleExpiry i => decide (i < 4)
  | .syncTransmit i => decide (i < 4)
  | .tsyncInEdge k _ => decide (k < 2)
  | .tsiPop _ k => decide (k < 2)
  | .tsyncOutEdge k => decide (k < 2)
  | .canIntegrated c => decide (c < 16)
  | .canConfigApplied c => decide (c < 16)
  | .canTxreq _ c w _ => decide (c < 16 ∧ w < 4)
  | .canTxcan _ c w _ => decide (c < 16 ∧ w < 4)
  | .canRxack _ c w _ => decide (c < 16 ∧ w < 4)
  | .canRecover _ c => decide (c < 16)
  | .canTxChoice c _ word => decide (c < 16 ∧ word < 512)
  | .canTxCommit c => decide (c < 16)
  | .canTxDone c _ => decide (c < 16)
  | .canArbLost c => decide (c < 16)
  | .canRxFrame c f _ => decide (c < 16 ∧ f.format < 3 ∧ f.data.length ≤ 2048)
  | .canProtocolException c _ => decide (c < 16)
  | .canBusError c code .. => decide (c < 16 ∧ 0 < code ∧ code < 7)
  | .canRecoveryDone c => decide (c < 16)
  | .gwRouteLookup c _ word => decide (c < 16 ∧ word < 512)
  | .gwHoldDeadline t => decide (t < 256)
  | .pqCommit q => decide (q < 16)
  | .pqRewind q => decide (q < 16)
  | .pqUpRead q _ => decide (q < 16)
  | .pqDownWrite q => decide (q < 16)
  | .gwDownPacket q _ => decide (q < 16)
  | .pqReset _ q => decide (q < 16)
  | .invalidate _ node => decide (node < 1024)
  | .rebind _ node => decide (node < 1024)
  | .importKey _ node _ data => decide (node < 1024) && decide (data.length ≤ 64)
  | .exportKey _ node => decide (node < 1024)
  | .lcAdvance _ target => decide (target < 4)
  | .keyDerive ctx => decide (ctx < 4096)
  | .tamperAlarm src => decide (src < 6)
  | .keepaliveRecognised (.can c id _) => decide (c < 16 ∧ id < 2 ^ 29)
  | .keepaliveRecognised (.frame _) => true
  | .keepaliveTx d => decide (d < 16)
  | .foldCommit d => decide (d < 16)
  | .foldComplete d => decide (d < 16)
  | .domainWake d src unit => decide (d < 16 ∧ src < 13 ∧ unit < 64)
  | .wakeInActive pin => decide (pin < 5)
  | .canWufReceived c id _ => decide (c < 16 ∧ id < 2 ^ 29)
  | .canKaWake c id _ => decide (c < 16 ∧ id < 2 ^ 29)
  | .t1sEnergy n => decide (n < 12)
  | .wakeHoldEnd d => decide (d < 16)
  | .wakeMaskEnd i => decide (i < 25)
  | .overstayA d => decide (d < 16)
  | .overstayB d => decide (d < 16)
  | .lsUpdate meas _ => decide (meas.length = 16)
  | .shortTrip ch => decide (ch < 16)
  | .inrushEnd ch _ => decide (ch < 16)
  | .coreWfiOffline k => decide (k < 8)
  | .offlineGraceExpiry k => decide (k < 8)
  | .tagPop _ k => decide (k < 8)
  | .hpRxWrite port _ => decide (port < 41)
  | .hpTxFrame port _ => decide (port < 41)
  | .hpCoalTimer r => decide (r < 256)
  | .dramUe addr _ => decide (0x0800000000 ≤ addr ∧ addr < 0x0C00000000)
  | .prefetchExpiry w => decide (w < 16)
  | .pcieLinkChange _ gen width => decide (gen < 8 ∧ width < 32)
  | .rescueHeader link _ _ _ => decide (link < 2)
  | .rescueChunk link _ _ => decide (link < 2)
  | .rescueActivate link _ _ => decide (link < 2)
  | .ringRecordWrite r => decide (r < 9)
  | .csuFrameEnd u => decide (u < 8)
  | .csuHold _ u => decide (u < 8)
  | .csuHoldAck u => decide (u < 8)
  | .csuClear _ u => decide (u < 8)
  | .csuRunWrite _ u _ => decide (u < 8)
  | .pcsFaultCleared port => decide (port < 24)
  | .jabberLineIdle n => decide (n < 12)
  | .bersanSessionOpen n _ port _ udp => decide (n < 4 ∧ port < 41 ∧ udp < 65536)
  | .bersanSessionClose n => decide (n < 4)
  | .coreCycle k .. => decide (k < 8)
  | .tamperAlarmCleared src => decide (src < 6)
  | .registerWrite .. | .rcRead .. | .counterLowRead .. | .obSnapTrigger .. | .obSnapRelease ..
    | .obSnapTimeMatch | .obSnapDomainFreeze .. | .obSnapHoldMaxExpiry | .powerDieMirrorRefresh
    | .fxPipelinePass .. | .ceDecrypt .. | .secondPass .. | .sealCheck .. | .sxEnqueue .. | .ingressCopyWrite ..
    | .loaderStart | .loadRecord | .bootStitch | .nvmOperation .. | .flashOpComplete .. | .modeReqPartial ..
    | .modeReqRun .. | .modeReqListen .. | .modeReqRescue .. | .modeReqFactory .. | .partialToRunStep
    | .runEntry | .runToPartialStep | .listenEntry | .railsOff | .vbatAonPowerOn | .vbatAonBrownout
    | .pwTrimsLoaded | .rtcCrystalStable | .railRetryTimer | .socPowerOnRelease .. | .romSelfTestDone ..
    | .firmwareStart | .pufReconstructed .. | .dramTrainingDone | .serdesCalibrationDone | .dramZeroingDone
    | .startRampDone | .resetNAsserted | .resetNReleased | .svWatchdogExpiry | .lockstepMismatch
    | .svResetSoc .. | .drainLimAgeDiscard | .shadowWrite .. | .mdioAccess .. | .pageReturn | .hamperDrained
    | .patrolScrub .. | .learnCommit | .ageTick | .fdbRead .. | .fdbSearch .. | .fdbDelete .. | .fdbFlush ..
    | .fdbOpDone | .fbtcPair | .pairGo .. | .zeroise .. | .clearLock .. | .clearLockDone .. | .enroll ..
    | .kxCommandDone .. | .meshCheck .. | .keyRemask | .trngHealthFail | .trngHealthPass | .foldCmdWake ..
    | .foldCmdForgive .. | .foldNeedWrite .. | .wakeValidityDecision .. | .rtcSet | .rtcAlarm | .reenable ..
    | .vbatUndervoltage | .vbatRecovered | .totalCurrentShed .. | .dissipationHigh | .powerDieLinkRefresh
    | .holdExpired | .clusterRelease | .imageCopyDone .. | .coreStart .. | .dvfsRequest .. | .dvfsDone
    | .ringTailWrite .. | .dramScrubPassDone | .outboundAccess .. | .outboundCompletion ..
    | .outboundReadTimeout .. | .inboundRequest .. | .pcieErrorMessage .. | .pcieReset | .rootMsiWrite ..
    | .msiDataPop .. | .fenceClr .. | .updOpen .. | .updHeader .. | .updBlock .. | .updActivate ..
    | .updClose .. | .updSessionTimeout | .copySlotDone .. | .copyComplete | .migration | .rescueBreak
    | .rescueHello .. | .slotClr .. | .slotAccount .. | .csuReattach .. | .ledgerFlush | .ledgerScan
    | .ledgerVerify .. | .ledgerVerifyDone => true

end Sys2Proof
end

