-- ==== Sys2Proof/Tests/Slice0.lean ====
section
/-!
SUPPORT. Tests: a command that is not well formed for each check of Instr.wellFormed, expected results that the spec prints,
and, for every statement with hypotheses, a witness of each of its clauses: a state and operands that meet the clause's
hypotheses together, at the ends of their ranges. A statement joined from several groups of commands has one witness for
each group.
-/

namespace Sys2Proof.Tests
open Machine
set_option Elab.async false

/-- Registers set to values, on top of a state. -/
def rgs (l : List (Fld × Nat)) (s : State) : State := l.foldl (fun s e => s.setRg e.1 e.2) s
/-- ACTIVE fields set to values. -/
def cfs (l : List (Fld × Nat)) (s : State) : State :=
  l.foldl (fun s e => { s with active := Sparse.set (fun _ => []) s.active e.1.cd (rfSet (s.activeOf e.1.cd) e.1 e.2) }) s
/-- The SoC die is powered. -/
def up : State := { State.reset with pw := { pwFresh with power := .up } }
/-- The row at an offset. -/
def rowAt (off : Nat) : RegRow := (regRow off).getD ⟨0, [], none, .svc, .none, false, []⟩
/-- A frame of 60 bytes and its FCS in one cell, received whole on a port. -/
def fr (port : Nat) : Frame where
  port := port
  bytes := List.replicate 60 1
  len := 64
  rxLen := 64
  due := 64
  rxDone := true
  good := true
  badWhy := 0
  epoch := 0
  peg := false
  tc := 0
  verdict := .ok
  ti := 0
  stamp := 0
  born := 0
  l3 := 0
  l4 := 0
  stage := .looked
  pass := 1
  vid := 1
  evid := 1
  tagged := false
  pcp := 0
  dei := false
  colour := 0
  setPcp := none
  egress := 0
  group := none
  copying := 0
  stream := none
  seqNo := none
  strip := 0
  rewrite := none
  csumFull := false
  directive := none
  launch := none
  ce := none
  sealIn := none
  unprot := false
  owner := 0
  cells := [0]
  slots := 0
  slotGen := 0
  left := false
  live := 0
  kids := 0
  parent := none
  zombie := false
  lines := []
  times := ⟨none, none, none, none, none⟩
/-- A frame under its number in a state. -/
def hold (id : Nat) (f : Frame) (s : State) : State := s.setFrame id (some f)
/-- A frame in reception at a port. -/
def rcv (port id : Nat) (f : Frame) (s : State) : State :=
  { hold id f s with sx.rx := [(port, some id)] }
/-- A copy of frame 5 for a port and a class. -/
def cp (port tc : Nat) : Copy := ⟨5, port, tc, false, false, none, false, false, none, none, none, none, none⟩
/-- A copy being sent at its port. -/
def sending (c : Copy) (s : State) : State := s.setTx c.port (some ⟨c, 0, false, [], [], none⟩)
/-- A port that is up. -/
def portOn (p : Nat) (s : State) : State := rgs [(F.PX_PORT_STAT_LINK p, 1)] s
/-- A flash without a listed byte: one byte. -/
theorem blank (s : State) (h : s.nv.flash = []) (off : Nat) : s.nvByte off = 0xFF := by
  unfold State.nvByte; rw [h]; rfl
/-- A flash without a listed byte reads as erased. -/
theorem blankRead (s : State) (h : s.nv.flash = []) (off n : Nat) : s.nvRead off n = List.replicate n 0xFF := by
  unfold State.nvRead; simp only [blank s h]; simp
/-- Over such a flash slot 0 holds its content. -/
theorem slot0Same (s : State) (h : s.nv.flash = []) : s.slotSame 0 = true := by
  unfold State.slotSame State.slotBytes; simp only [blankRead s h, if_true, decide_true]
/-- A CAN frame for the checks. -/
def canMsg : CanFrame := ⟨0, false, false, 0, false, false, 0, 0, 0, false, 0, []⟩

/-! ### Commands that are not well formed -/

theorem test_wellFormed_refuses_1 :
    ([
      .obSnapTsyncEdge 2 false, .evStatusWrite .sv 8 0, .rxStartOfFrame 41 0, .rxRuntMinReached 41 [],
      .rxCellAllocate 41 [], .rxOversize 41, .rxEndOfFrame 41 [], .rxCutShort 41, .scHandover 41,
      .launchEligible 328, .shaperCreditRestored 328, .ceEncrypt 41 (4 - 1), .ceEncrypt (41 - 1) 4, .sealAdd 41,
      .txStart 41, .launchTimeReached 41 (4 - 1), .launchTimeReached (41 - 1) 4, .txEndOfFrame 41, .stomp 41 0,
      .txUnderrun 41 0, .transitParityError 65536 0, .parityStormResume 65536, .epochAdoption 41,
      .bersanBankWrite 4 [], .railPgRise 6, .railPgTimeout 6, .railPgLost 6, .listenExit 13 (64 - 1),
      .listenExit (13 - 1) 64, .tack .sv (2 ^ 18) 0, .tackCopyDone 4, .stitch .sv 4 false,
      .stitchAt .sv 4 false (4 - 1) (2 ^ 48 - 1) (1000000000 - 1),
      .stitchAt .sv (4 - 1) false 4 (2 ^ 48 - 1) (1000000000 - 1),
      .stitchAt .sv (4 - 1) false (4 - 1) (2 ^ 48) (1000000000 - 1),
      .stitchAt .sv (4 - 1) false (4 - 1) (2 ^ 48 - 1) 1000000000, .unpick .sv 4, .renew .sv 4,
      .stitchAtTimeReached 4, .stitchCommit 4] : List Instr).all (fun c => !c.wellFormed) = true := by decide +kernel

theorem test_wellFormed_refuses_2 :
    ([
      .txTimeout 4, .mendStart .sv 16 (256 - 1), .mendStart .sv (16 - 1) 256, .mendStop .sv 256,
      .bankTestFenceExpiry 256, .mendActivityEnd 256 0, .faultBankFence 16 (16384 - 1),
      .faultBankFence (16 - 1) 16384, .hamperPageUe 328 0, .cipherMismatch 8 (4096 - 1) false,
      .cipherMismatch (8 - 1) 4096 false, .pcsBlockLock 24, .pcsLockLoss 24, .pcsFaultReceived 24 false,
      .controlWordReceived 24 (8 - 1), .controlWordReceived (24 - 1) 8, .portFlushComplete 41,
      .pauseReceived 41 (2 ^ 48 - 1) (65536 - 1) (65536 - 1),
      .pauseReceived (41 - 1) (2 ^ 48) (65536 - 1) (65536 - 1),
      .pauseReceived (41 - 1) (2 ^ 48 - 1) 65536 (65536 - 1), .pauseReceived (41 - 1) (2 ^ 48 - 1) (65536 - 1) 65536,
      .pfcReceived 41 (65536 - 1) (256 - 1) (List.replicate 8 0),
      .pfcReceived (41 - 1) 65536 (256 - 1) (List.replicate 8 0),
      .pfcReceived (41 - 1) (65536 - 1) 256 (List.replicate 8 0), .pfcReceived (41 - 1) (65536 - 1) (256 - 1) [],
      .pauseExpiry 41 (9 - 1), .pauseExpiry (41 - 1) 9, .pauseWdTrip 41 (9 - 1), .pauseWdTrip (41 - 1) 9,
      .pauseHoldoffEnd 41, .beaconLoss 12, .beaconReceived 12, .nodeIdCollision 12, .jabber 12, .quarantineEnd 12,
      .quarantineRelease .sv 12 0, .mdioPoll 65536 (65536 - 1) (65536 - 1), .mdioPoll (65536 - 1) 65536 (65536 - 1),
      .mdioPoll (65536 - 1) (65536 - 1) 65536, .mdioDone 65536] : List Instr).all (fun c => !c.wellFormed) = true := by decide +kernel

theorem test_wellFormed_refuses_3 :
    ([
      .fillPageTimeout 328, .hamperPageWritten 328, .refillStart 328, .refillDone 328, .pgRejoin 16 (8 - 1),
      .pgRejoin (16 - 1) 8, .frerReset 1024, .gclEntryChange 41, .gclStart 41, .sgateEntryChange 256,
      .psfpClearFilter .sv 1024, .psfpClearGate .sv 256, .tiAdjWrite .sv 4 0, .tiStep .sv 4, .tiSet .sv 4,
      .tiUnset .sv 4, .tiTimeRead .sv 4, .syncReceived 4 (41 - 1) (256 - 1) 0 (2 ^ 64 - 1) (256 - 1),
      .syncReceived (4 - 1) 41 (256 - 1) 0 (2 ^ 64 - 1) (256 - 1),
      .syncReceived (4 - 1) (41 - 1) 256 0 (2 ^ 64 - 1) (256 - 1),
      .syncReceived (4 - 1) (41 - 1) (256 - 1) 0 (2 ^ 64) (256 - 1),
      .syncReceived (4 - 1) (41 - 1) (256 - 1) 0 (2 ^ 64 - 1) 256, .syncTimeout 4 none,
      .syncTimeout (4 - 1) (some 256), .settleExpiry 4, .syncTransmit 4, .tsyncInEdge 2 false, .tsiPop .sv 2,
      .tsyncOutEdge 2, .canIntegrated 16, .canConfigApplied 16, .canTxreq .sv 16 (4 - 1) 0,
      .canTxreq .sv (16 - 1) 4 0, .canTxcan .sv 16 (4 - 1) 0, .canTxcan .sv (16 - 1) 4 0, .canRxack .sv 16 (4 - 1) 0,
      .canRxack .sv (16 - 1) 4 0, .canRecover .sv 16, .canTxChoice 16 0 (512 - 1), .canTxChoice (16 - 1) 0 512] : List Instr).all (fun c => !c.wellFormed) = true := by decide +kernel

theorem test_wellFormed_refuses_4 :
    ([
      .canTxCommit 16, .canTxDone 16 [], .canArbLost 16, .canRxFrame 16 canMsg 0,
      .canRxFrame (16 - 1) { canMsg with format := 3 } 0,
      .canRxFrame (16 - 1) { canMsg with data := List.replicate 2049 0 } 0, .canProtocolException 16 false,
      .canRecoveryDone 16, .gwRouteLookup 16 0 (512 - 1), .gwRouteLookup (16 - 1) 0 512, .gwHoldDeadline 256,
      .pqCommit 16, .pqRewind 16, .pqUpRead 16 [], .pqDownWrite 16, .gwDownPacket 16 [], .pqReset .sv 16,
      .invalidate .sv 1024, .rebind .sv 1024, .importKey .sv 1024 0 [],
      .importKey .sv (1024 - 1) 0 (List.replicate 65 0), .exportKey .sv 1024, .lcAdvance .sv 4, .keyDerive 4096,
      .tamperAlarm 6, .keepaliveTx 16, .foldCommit 16, .foldComplete 16, .domainWake 16 (13 - 1) (64 - 1),
      .domainWake (16 - 1) 13 (64 - 1), .domainWake (16 - 1) (13 - 1) 64, .wakeInActive 5,
      .canWufReceived 16 (2 ^ 29 - 1) false, .canWufReceived (16 - 1) (2 ^ 29) false,
      .canKaWake 16 (2 ^ 29 - 1) false, .canKaWake (16 - 1) (2 ^ 29) false, .t1sEnergy 12, .wakeHoldEnd 16,
      .wakeMaskEnd 25, .overstayA 16] : List Instr).all (fun c => !c.wellFormed) = true := by decide +kernel

theorem test_wellFormed_refuses_5 :
    ([
      .overstayB 16, .lsUpdate [] 0, .shortTrip 16, .inrushEnd 16 0, .coreWfiOffline 8, .offlineGraceExpiry 8,
      .tagPop .sv 8, .hpRxWrite 41 none, .hpTxFrame 41 0, .hpCoalTimer 256, .prefetchExpiry 16,
      .pcieLinkChange false 8 (32 - 1), .pcieLinkChange false (8 - 1) 32, .rescueHeader 2 [] false false,
      .rescueChunk 2 [] false, .rescueActivate 2 [] false, .ringRecordWrite 9, .csuFrameEnd 8, .csuHold .sv 8,
      .csuHoldAck 8, .csuClear .sv 8, .csuRunWrite .sv 8 0, .pcsFaultCleared 24, .jabberLineIdle 12,
      .bersanSessionOpen 4 0 (41 - 1) false (65536 - 1), .bersanSessionOpen (4 - 1) 0 41 false (65536 - 1),
      .bersanSessionOpen (4 - 1) 0 (41 - 1) false 65536, .bersanSessionClose 4, .tamperAlarmCleared 6,
      .keepaliveRecognised (.can 16 0 false), .keepaliveRecognised (.can 15 (2 ^ 29) true),
      .dramUe 0x0C00000000 none, .dramUe (0x0800000000 - 1) none] : List Instr).all (fun c => !c.wellFormed) = true := by decide +kernel

theorem test_wellFormed_takes_1 :
    ([
      .obSnapTsyncEdge (2 - 1) false, .evStatusWrite .sv (8 - 1) 0, .rxStartOfFrame (41 - 1) 0,
      .rxRuntMinReached (41 - 1) [], .rxCellAllocate (41 - 1) [], .rxOversize (41 - 1), .rxEndOfFrame (41 - 1) [],
      .rxCutShort (41 - 1), .scHandover (41 - 1), .launchEligible (328 - 1), .shaperCreditRestored (328 - 1),
      .ceEncrypt (41 - 1) (4 - 1), .sealAdd (41 - 1), .txStart (41 - 1), .launchTimeReached (41 - 1) (4 - 1),
      .txEndOfFrame (41 - 1), .stomp (41 - 1) 0, .txUnderrun (41 - 1) 0, .transitParityError (65536 - 1) 0,
      .parityStormResume (65536 - 1), .epochAdoption (41 - 1), .bersanBankWrite (4 - 1) [], .railPgRise (6 - 1),
      .railPgTimeout (6 - 1), .railPgLost (6 - 1), .listenExit (13 - 1) (64 - 1), .tack .sv (2 ^ 18 - 1) 0,
      .tackCopyDone (4 - 1), .stitch .sv (4 - 1) false,
      .stitchAt .sv (4 - 1) false (4 - 1) (2 ^ 48 - 1) (1000000000 - 1), .unpick .sv (4 - 1), .renew .sv (4 - 1),
      .stitchAtTimeReached (4 - 1), .stitchCommit (4 - 1), .txTimeout (4 - 1), .mendStart .sv (16 - 1) (256 - 1),
      .mendStop .sv (256 - 1), .bankTestFenceExpiry (256 - 1), .mendActivityEnd (256 - 1) 0,
      .faultBankFence (16 - 1) (16384 - 1)] : List Instr).all (fun c => c.wellFormed) = true := by decide +kernel

theorem test_wellFormed_takes_2 :
    ([
      .hamperPageUe (328 - 1) 0, .cipherMismatch (8 - 1) (4096 - 1) false, .pcsBlockLock (24 - 1),
      .pcsLockLoss (24 - 1), .pcsFaultReceived (24 - 1) false, .controlWordReceived (24 - 1) (8 - 1),
      .portFlushComplete (41 - 1), .pauseReceived (41 - 1) (2 ^ 48 - 1) (65536 - 1) (65536 - 1),
      .pfcReceived (41 - 1) (65536 - 1) (256 - 1) (List.replicate 8 0), .pauseExpiry (41 - 1) (9 - 1),
      .pauseWdTrip (41 - 1) (9 - 1), .pauseHoldoffEnd (41 - 1), .beaconLoss (12 - 1), .beaconReceived (12 - 1),
      .nodeIdCollision (12 - 1), .jabber (12 - 1), .quarantineEnd (12 - 1), .quarantineRelease .sv (12 - 1) 0,
      .mdioPoll (65536 - 1) (65536 - 1) (65536 - 1), .mdioDone (65536 - 1), .fillPageTimeout (328 - 1),
      .hamperPageWritten (328 - 1), .refillStart (328 - 1), .refillDone (328 - 1), .pgRejoin (16 - 1) (8 - 1),
      .frerReset (1024 - 1), .gclEntryChange (41 - 1), .gclStart (41 - 1), .sgateEntryChange (256 - 1),
      .psfpClearFilter .sv (1024 - 1), .psfpClearGate .sv (256 - 1), .tiAdjWrite .sv (4 - 1) 0, .tiStep .sv (4 - 1),
      .tiSet .sv (4 - 1), .tiUnset .sv (4 - 1), .tiTimeRead .sv (4 - 1),
      .syncReceived (4 - 1) (41 - 1) (256 - 1) 0 (2 ^ 64 - 1) (256 - 1), .syncTimeout (4 - 1) none,
      .settleExpiry (4 - 1), .syncTransmit (4 - 1)] : List Instr).all (fun c => c.wellFormed) = true := by decide +kernel

theorem test_wellFormed_takes_3 :
    ([
      .tsyncInEdge (2 - 1) false, .tsiPop .sv (2 - 1), .tsyncOutEdge (2 - 1), .canIntegrated (16 - 1),
      .canConfigApplied (16 - 1), .canTxreq .sv (16 - 1) (4 - 1) 0, .canTxcan .sv (16 - 1) (4 - 1) 0,
      .canRxack .sv (16 - 1) (4 - 1) 0, .canRecover .sv (16 - 1), .canTxChoice (16 - 1) 0 (512 - 1),
      .canTxCommit (16 - 1), .canTxDone (16 - 1) [], .canArbLost (16 - 1), .canRxFrame (16 - 1) canMsg 0,
      .canProtocolException (16 - 1) false, .canRecoveryDone (16 - 1), .gwRouteLookup (16 - 1) 0 (512 - 1),
      .gwHoldDeadline (256 - 1), .pqCommit (16 - 1), .pqRewind (16 - 1), .pqUpRead (16 - 1) [],
      .pqDownWrite (16 - 1), .gwDownPacket (16 - 1) [], .pqReset .sv (16 - 1), .invalidate .sv (1024 - 1),
      .rebind .sv (1024 - 1), .importKey .sv (1024 - 1) 0 [], .exportKey .sv (1024 - 1), .lcAdvance .sv (4 - 1),
      .keyDerive (4096 - 1), .tamperAlarm (6 - 1), .keepaliveTx (16 - 1), .foldCommit (16 - 1),
      .foldComplete (16 - 1), .domainWake (16 - 1) (13 - 1) (64 - 1), .wakeInActive (5 - 1),
      .canWufReceived (16 - 1) (2 ^ 29 - 1) false, .canKaWake (16 - 1) (2 ^ 29 - 1) false, .t1sEnergy (12 - 1),
      .wakeHoldEnd (16 - 1)] : List Instr).all (fun c => c.wellFormed) = true := by decide +kernel

theorem test_wellFormed_takes_4 :
    ([
      .wakeMaskEnd (25 - 1), .overstayA (16 - 1), .overstayB (16 - 1), .lsUpdate (List.replicate 16 ⟨0, 0, 0⟩) 0,
      .shortTrip (16 - 1), .inrushEnd (16 - 1) 0, .coreWfiOffline (8 - 1), .offlineGraceExpiry (8 - 1),
      .tagPop .sv (8 - 1), .hpRxWrite (41 - 1) none, .hpTxFrame (41 - 1) 0, .hpCoalTimer (256 - 1),
      .prefetchExpiry (16 - 1), .pcieLinkChange false (8 - 1) (32 - 1), .rescueHeader (2 - 1) [] false false,
      .rescueChunk (2 - 1) [] false, .rescueActivate (2 - 1) [] false, .ringRecordWrite (9 - 1),
      .csuFrameEnd (8 - 1), .csuHold .sv (8 - 1), .csuHoldAck (8 - 1), .csuClear .sv (8 - 1),
      .csuRunWrite .sv (8 - 1) 0, .pcsFaultCleared (24 - 1), .jabberLineIdle (12 - 1),
      .bersanSessionOpen (4 - 1) 0 (41 - 1) false (65536 - 1), .bersanSessionClose (4 - 1),
      .tamperAlarmCleared (6 - 1), .dramUe (0x0C00000000 - 1) none, .dramUe 0x0800000000 none,
      .keepaliveRecognised (.can 15 (2 ^ 29 - 1) true), .keepaliveRecognised (.frame 7)] : List Instr).all (fun c => c.wellFormed) = true := by decide +kernel

/-! ### Results that the spec prints -/

/-- The check values of R505 for the ASCII bytes of 123456789. -/
def digits : List Byte := [0x31, 0x32, 0x33, 0x34, 0x35, 0x36, 0x37, 0x38, 0x39]
theorem test_crc32_check : crcReflected crc32Kind 0xFFFFFFFF digits = 0xCBF43926 := by decide +kernel
theorem test_crc32c_check : crc32c digits = 0xE3069283 := by decide +kernel
theorem test_crc16_check : crcRun ⟨16, 0x1021, false⟩ 0xFFFF digits = 0x29B1 := by decide +kernel
theorem test_crc8_check : Nat.xor (crcRun ⟨8, 0x1D, false⟩ 0xFF digits) 0xFF = 0x4B := by decide +kernel
/-- The answer of a command in a state. -/
def answerOf (c : Instr) (s : State) : Option Resp :=
  match exec c s with
  | .next t => some t.resp
  | _ => none
/-- R14: SV_DEVICE_ID reads 0x9400_B100; a narrow read of it answers its upper half. -/
theorem test_device_id : answerOf (.rcRead (.core 0) 0 .word) up = some (.value 0x9400B100) := by decide +kernel
theorem test_device_id_half : answerOf (.rcRead (.core 0) 2 .half) up = some (.value 0x9400) := by decide +kernel
/-- R1: a 32-bit access to an address that is 2 mod 4 is refused. -/
theorem test_misaligned : answerOf (.rcRead (.core 0) 2 .word) up = some .busError := by decide +kernel
/-- R17: in LISTEN no SoC register answers. -/
theorem test_listen : answerOf (.rcRead (.core 0) 0 .word) { up with pw.power := .listen } = some .noAnswer := by
  decide +kernel
/-- R75: SV_MODE reads PARTIAL and RAMPING after reset. -/
theorem test_mode : answerOf (.rcRead (.core 0) 0x200 .word) up = some (.value 0x12) := by decide +kernel

/-! ### Witnesses of the statements' hypotheses -/

/-- A transaction in a state: handle 3, owned by the PCIe host over every domain. -/
def owned : State :=
  { up with sv.txns := [(3, ⟨.opened, .pcie, 8, 2 ^ 18 - 1, 10000, 10000, 0, false, 0, 5, false, false⟩)], sv.booting := false }

theorem witness_AccessRules :
    (∃ (a : Agent) (off : Nat) (w : Width) (s : State),
      s.reaches a = true ∧ off < 0xC000000 ∧ (off % w.bytes ≠ 0 ∨ w ≠ .word)) ∧
    (∃ (a : Agent) (off : Nat) (w : Width) (s : State),
      s.reaches a = true ∧ off < 0xC000000 ∧ off % w.bytes ≠ 0) ∧
    (∃ (a : Agent) (off : Nat) (w : Width) (s : State),
      s.reaches a = true ∧ off < 0xC000000 ∧ off % w.bytes = 0 ∧ s.badRam (off - off % 4) = none) ∧
    (∃ (a : Agent) (off : Nat) (w : Width) (s : State),
      s.reaches a = true ∧ off < 0xC000000 ∧ off % w.bytes = 0 ∧ off % 0x1000000 < 0x800000 ∧
      regRow (off - off % 4) = none) ∧
    (∃ (a : Agent) (off : Nat) (s : State),
      s.reaches a = true ∧ off < 0xC000000 ∧ off % 4 = 0 ∧ off % 0x1000000 < 0x800000 ∧ regRow off = none) :=
  ⟨
    ⟨.sv, 2, .half, up,
     by decide +kernel⟩,
    ⟨.core 7, 3, .word, up,
     by decide +kernel⟩,
    ⟨.core 7, R.SV_DEVICE_ID + 3, .byte, up,
     by decide +kernel⟩,
    ⟨.pcie, 0x7FFFFE, .half, up,
     by decide +kernel⟩,
    ⟨.pcie, 0x7FFFFC, up,
     by decide +kernel⟩⟩

theorem witness_ConfigurationWrites :
    (∃ (a : Agent) (off : Nat) (s : State) (r : RegRow) (d : Nat),
      s.reaches a = true ∧ off % 4 = 0 ∧ off < 0xC000000 ∧ off % 0x1000000 < 0x800000 ∧ regRow off = some r ∧
      r.cd = some d) ∧
    (∃ (a : Agent) (off d : Nat) (s : State) (r : RegRow),
      s.reaches a = true ∧ off % 4 = 0 ∧ 0x800000 ≤ off % 0x1000000 ∧ regRow (off - 0x800000) = some r ∧
      r.cd = some d ∧ r.rsOf d = true ∧ s.shadowMine a d = false) ∧
    (∃ (a : Agent) (off : Nat) (s : State),
      s.reaches a = true ∧ off % 4 = 0 ∧ off < 0xC000000 ∧ 0x800000 ≤ off % 0x1000000) ∧
    (∃ (a : Agent) (off : Nat) (s : State),
      s.reaches a = true ∧ off % 4 = 0 ∧ off < 0xC000000 ∧ 0x800000 ≤ off % 0x1000000 ∧
      (∀ r, regRow (off - 0x800000) = some r → r.cd = none)) :=
  ⟨
    ⟨.sv, (F.TE_TI_CFG_INC_INT 3).off, up, (let off : Nat := (F.TE_TI_CFG_INC_INT 3).off; rowAt off),
     (F.TE_TI_CFG_INC_INT 3).cd,
     by decide +kernel⟩,
    ⟨.core 0, (F.OB_PMU_SEL_EVENT 3).off + 0x800000, 17, owned,
     (let off : Nat := (F.OB_PMU_SEL_EVENT 3).off + 0x800000; rowAt (off - 0x800000)),
     by decide +kernel⟩,
    ⟨.bersan 3, 0xB800000, { up with sv.bersan := [(3, some 3)] },
     by decide +kernel⟩,
    ⟨.sv, 0x800000, up,
     by decide +kernel⟩⟩

theorem witness_StepTakesFront :
    (∃ (c : Instr) (rest : List Instr) (s : State), s.pending = c :: rest) ∧ (∃ s : State, s.pending = []) :=
  ⟨⟨.rtcSet, [.rtcAlarm], { up with pending := [.rtcSet, .rtcAlarm] }, rfl⟩, ⟨up, rfl⟩⟩

theorem witness_CommandFrame : ∃ (c : Instr) (s t : State), exec c s = .next t := ⟨.vbatAonPowerOn, State.reset, _, rfl⟩

theorem witness_StepKeepsCanonical : ∃ s t : State, Canonical s ∧ step s = .next t :=
  ⟨{ rgs [(F.SV_EV_STATUS_EV 7, 5)] up with
      pending := [.vbatAonPowerOn], mx.dram := [(0x80000000, 5)], nv.flash := [(0x10000, 0)] }, _,
   ⟨by decide +kernel, by decide +kernel, by decide +kernel⟩, rfl⟩

theorem witness_StepKeepsIrreversible : ∃ s t : State, step s = .next t :=
  ⟨{ State.reset with pending := [.vbatAonPowerOn], nv.fuses := 7, nv.counter := 3 }, _, rfl⟩

theorem witness_WriteByAccessCode :
    (∃ (a : Agent) (off : Nat) (data : Word) (s : State) (r : RegRow),
      s.reaches a = true ∧ off % 4 = 0 ∧ off < 0xC000000 ∧ off % 0x1000000 < 0x800000 ∧ regRow off = some r ∧
      r.cd = none ∧ State.mailboxShut a off = false ∧ s.commandWrite a r off data = none) :=
    ⟨.core 0, (F.TE_TI_SET_NS_NS 3).off, 0xFFFFFFFF, up, (let off : Nat := (F.TE_TI_SET_NS_NS 3).off; rowAt off),
     by decide +kernel⟩

theorem witness_ReadClearsRc :
    (∃ (a : Agent) (off : Nat) (w : Width) (s : State) (r : RegRow),
      s.reaches a = true ∧ off % w.bytes = 0 ∧ off < 0xC000000 ∧ off % 0x1000000 < 0x800000 ∧
      regRow (off - off % 4) = some r ∧ s.isFrozen (off - off % 4) = false ∧ plainRead (off - off % 4) = true ∧
      s.badRam (off - off % 4) = none) :=
    ⟨.sv, (F.PX_RX_FCS_ERR_COUNT 40).off + 3, .byte, rgs [(F.PX_RX_FCS_ERR_COUNT 40, 0xFE000001)] up,
     (let off : Nat := (F.PX_RX_FCS_ERR_COUNT 40).off + 3; rowAt (off - off % 4)),
     by decide +kernel⟩

theorem witness_LowReadLatchesHigh :
    (∃ (a : Agent) (off : Nat) (s : State) (r h : RegRow),
      s.reaches a = true ∧ off % 4 = 0 ∧ off + 4 < 0xC000000 ∧ off % 0x1000000 + 4 < 0x800000 ∧ regRow off = some r ∧
      r.lat = .low ∧ regRow (off + 4) = some h ∧ h.lat = .high ∧ s.isFrozen off = false ∧ plainRead off = true ∧
      s.badRam off = none) :=
    ⟨.sv, R.PX_RX_FRAMES 40, rgs [(⟨R.PX_RX_FRAMES 40, 0, 32, 18⟩, 3), (⟨R.PX_RX_FRAMES 40 + 4, 0, 32, 18⟩, 7)] up,
     (let off : Nat := R.PX_RX_FRAMES 40; rowAt off), (let off : Nat := R.PX_RX_FRAMES 40; rowAt (off + 4)),
     by decide +kernel⟩

theorem witness_AccessEdges :
    (∃ (a : Agent) (s : State),
      s.reaches a = false) ∧
    (∃ (a : Agent) (off : Nat) (s : State),
      s.reaches a = true ∧ 0x10000000 ≤ off) ∧
    (∃ (a : Agent) (off : Nat) (s : State),
      s.reaches a = true ∧ 0xC000000 ≤ off ∧ off < 0x10000000 ∧ off % 4 = 0) ∧
    (∃ (a : Agent) (off : Nat) (s : State),
      s.reaches a = true ∧ off % 4 ≠ 0) ∧
    (∃ (a : Agent) (off : Nat) (w : Width) (s : State) (c word : Nat),
      s.reaches a = true ∧ off % w.bytes = 0 ∧ off < 0x10000000 ∧ s.badRam (off - off % 4) = some (c, word)) :=
  ⟨
    ⟨.debug, State.reset,
     by decide +kernel⟩,
    ⟨.core 7, 0x10000000, up,
     by decide +kernel⟩,
    ⟨.core 7, 0xFFFFFFC, up,
     by decide +kernel⟩,
    ⟨.sv, 0x800001, up,
     by decide +kernel⟩,
    ⟨.core 7, 0x5104001, .byte, { up with bx.can := [(0, ⟨none, none, 0, none, [], false, false, [0]⟩)] }, 0, 0,
     by decide +kernel⟩⟩

/-- The snapshot in a state. -/
def snapAs (x : Snap) : State := { up with ob.snap := x }

theorem witness_SnapshotCommands :
    (∃ (a : Agent) (data : Word) (s : State),
      s.reaches a = true ∧ F.OB_SNAP_RELEASE.get data = 0 ∧ s.ob.snap.state = .idle ∧
      (F.OB_SNAP_SRC.get data = 1 ∨ F.OB_SNAP_SRC.get data = 2)) ∧
    (∃ (a : Agent) (data : Word) (s : State),
      s.reaches a = true ∧ F.OB_SNAP_RELEASE.get data = 0 ∧ s.ob.snap.state = .idle ∧ F.OB_SNAP_SRC.get data = 0) ∧
    (∃ (a : Agent) (data : Word) (s : State),
      s.reaches a = true ∧ F.OB_SNAP_RELEASE.get data = 0 ∧ s.ob.snap.state ≠ .idle) ∧
    (∃ (a : Agent) (s : State),
      s.reaches a = true ∧ s.ob.snap.state ≠ .idle) ∧
    (∃ (s : State),
      s.ob.snap.state = .armed ∧ s.ob.snap.src = 3 ∧ s.ob.snap.at_ ≤ s.tiNs s.ob.snap.ti) ∧
    (∃ (pin : Nat) (rising : Bool) (s : State),
      pin < 2 ∧ s.ob.snap.state = .armed ∧ s.ob.snap.src = pin + 1 ∧
      (s.act (F.TE_TSI_CFG_EDGE pin)).testBit (if rising then 0 else 1) = true) ∧
    (∃ (d : ClkDomain) (s : State),
      s.ob.snap.state = .forming ∧ (∀ e ∈ s.ob.snap.cut, e.1 ≠ d)) ∧
    (∃ (s : State),
      s.socUp = true ∧ s.ob.snap.state = .frozen) ∧
    (∃ (s : State),
      s.socUp = true) ∧
    (∃ (a : Agent) (data : Word) (s : State),
      s.reaches a = true ∧ F.OB_SNAP_RELEASE.get data = 0 ∧ s.ob.snap.state = .idle ∧ F.OB_SNAP_SRC.get data = 3) :=
  ⟨
    ⟨.sv, F.OB_SNAP_SRC.put 0 2, up,
     by decide +kernel⟩,
    ⟨.core 3, F.OB_SNAP_TI_SEL.put 0 3, up,
     by decide +kernel⟩,
    ⟨.core 3, 0, snapAs ⟨.armed, 1, 0, 0, []⟩,
     by decide +kernel⟩,
    ⟨.sv, snapAs ⟨.frozen, 1, 0, 0, [(.core, [])]⟩,
     by decide +kernel⟩,
    ⟨snapAs ⟨.armed, 3, 1, 0, []⟩,
     by decide +kernel⟩,
    ⟨1, true, cfs [(F.TE_TSI_CFG_EDGE 1, 1)] (snapAs ⟨.armed, 2, 3, 0, []⟩),
     by decide +kernel⟩,
    ⟨.mac 23, snapAs ⟨.forming, 1, 0, 0, (allDomains.filter (fun x => x != .mac 23)).map (fun x => (x, []))⟩,
     by decide +kernel⟩,
    ⟨snapAs ⟨.frozen, 1, 0, 0, [(.core, [])]⟩,
     by decide +kernel⟩,
    ⟨up,
     by decide +kernel⟩,
    ⟨.core 3, F.OB_SNAP_TI_SEL.put (F.OB_SNAP_SRC.put 0 3) 2, rgs [(F.OB_SNAP_AT_NS_NS, 5)] up,
     by decide +kernel⟩⟩

theorem witness_EventStatusWrite :
    (∃ (a : Agent) (n : Nat) (s : State),
      s.reaches a = true ∧ n < 8) :=
    ⟨.sv, 7, rgs [(F.SV_EV_STATUS_EV 7, 0xC0000001)] up,
     by decide +kernel⟩

theorem witness_LatchingReads :
    (∃ (a : Agent) (i : Nat) (s : State),
      s.reaches a = true ∧ i < 4 ∧ s.isFrozen (R.TE_TI_NS i) = false) ∧
    (∃ (a : Agent) (k : Nat) (s : State) (c : TsiCapture) (rest : List TsiCapture),
      s.reaches a = true ∧ k < 2 ∧ s.isFrozen (R.TE_TSI_NS k) = false ∧
      Sparse.get (fun _ => []) s.te.tsi k = c :: rest) ∧
    (∃ (a : Agent) (s : State) (d : Nat) (rest : List Nat),
      s.reaches a = true ∧ s.isFrozen R.MX_HB_MSI_DATA = false ∧ s.mx.msi = d :: rest) :=
  ⟨
    ⟨.sv, 3, { up with te.ti := [(3, ⟨2 ^ 33 + 5, 7, 9⟩)] },
     by decide +kernel⟩,
    ⟨.sv, 1, { up with te.tsi := [(1, [⟨5, 6, 7, true⟩, ⟨8, 9, 10, false⟩])] }, ⟨5, 6, 7, true⟩, [⟨8, 9, 10, false⟩],
     by decide +kernel⟩,
    ⟨.sv, { up with mx.msi := [3, 4] }, 3, [4],
     by decide +kernel⟩⟩

theorem witness_TimeInstanceCommands :
    (∃ (a : Agent) (i : Nat) (s : State),
      s.reaches a = true ∧ i < 4 ∧ s.owned i = false) ∧
    (∃ (a : Agent) (i : Nat) (s : State),
      s.reaches a = true ∧ i < 4 ∧ s.owned i = true) ∧
    (∃ (a : Agent) (i : Nat) (s : State),
      s.reaches a = true ∧ i < 4 ∧ s.owned i = false ∧ (s.stepValue i).natAbs ≤ s.jumpLim i) ∧
    (∃ (a : Agent) (i : Nat) (s : State),
      s.reaches a = true ∧ i < 4 ∧ s.owned i = false ∧ s.jumpLim i < (s.stepValue i).natAbs) ∧
    (∃ (a : Agent) (i : Nat) (s : State),
      s.reaches a = true ∧ i < 4 ∧ s.owned i = true) ∧
    (∃ (a : Agent) (i : Nat) (s : State),
      s.reaches a = true ∧ i < 4 ∧ s.owned i = false ∧ s.rg (F.TE_TI_SET_NS_NS i) < giga ∧
      (s.tiSet i = true → (2 ^ 32 * (s.setValue i : Int) - (2 ^ 32 * s.tiNs i + (s.tiOf i).frac)).natAbs ≤ 2 ^ 32 * s.jumpLim i)) ∧
    (∃ (a : Agent) (i : Nat) (s : State),
      s.reaches a = true ∧ i < 4 ∧ s.owned i = false ∧ s.rg (F.TE_TI_SET_NS_NS i) < giga ∧ s.tiSet i = true ∧
      2 ^ 32 * s.jumpLim i < (2 ^ 32 * (s.setValue i : Int) - (2 ^ 32 * s.tiNs i + (s.tiOf i).frac)).natAbs) ∧
    (∃ (a : Agent) (i : Nat) (s : State),
      s.reaches a = true ∧ i < 4) :=
  ⟨
    ⟨.sv, 3, up,
     by decide +kernel⟩,
    ⟨.sv, 0, cfs [(F.TE_AS_CFG_AS_EN 0, 1)] up,
     by decide +kernel⟩,
    ⟨.sv, 3, rgs [(F.TE_TI_STEP_LO_STEP 3, 1000)] up,
     by decide +kernel⟩,
    ⟨.sv, 3, rgs [(F.TE_TI_STEP_LO_STEP 3, 1001)] up,
     by decide +kernel⟩,
    ⟨.sv, 0, cfs [(F.TE_AS_CFG_AS_EN 0, 1)] up,
     by decide +kernel⟩,
    ⟨.sv, 3, rgs [(F.TE_TI_STAT_SET 3, 1), (F.TE_TI_SET_NS_NS 3, 1000)] up,
     by decide +kernel⟩,
    ⟨.sv, 3, { rgs [(F.TE_TI_STAT_SET 3, 1), (F.TE_TI_SET_NS_NS 3, 0)] up with te.ti := [(3, ⟨0, 1000, 1⟩)] },
     by decide +kernel⟩,
    ⟨.sv, 3, up,
     by decide +kernel⟩⟩

theorem witness_ServoCommands :
    (∃ (i port dom : Nat) (s : State),
      i < 4 ∧ s.asPort i port = true ∧ dom = s.act (F.TE_AS_CFG_DOMAIN i) ∧ s.tiSet i = false) ∧
    (∃ (i port dom : Nat) (off : Int) (s : State),
      i < 4 ∧ s.asPort i port = true ∧ dom = s.act (F.TE_AS_CFG_DOMAIN i) ∧ s.tiSet i = true ∧
      (s.asState i = 2 ∨ s.asState i = 3) ∧ s.jumpLim i < off.natAbs) ∧
    (∃ (i dom : Nat) (s : State),
      dom ≠ s.act (F.TE_AS_CFG_DOMAIN i)) ∧
    (∃ (i : Nat) (s : State),
      i < 4 ∧ s.owned i = true ∧ (s.asState i = 2 ∨ s.asState i = 3) ∧ s.act (F.TE_AS_CFG_GM_CAPABLE i) = 0) ∧
    (∃ (i : Nat) (s : State),
      i < 4 ∧ s.owned i = true ∧ (s.asState i = 2 ∨ s.asState i = 3) ∧ s.act (F.TE_AS_CFG_GM_CAPABLE i) = 1) ∧
    (∃ (i : Nat) (s : State),
      i < 4 ∧ s.owned i = true ∧ s.asState i = 4 ∧ (s.servoOf i).settling = true) ∧
    (∃ (i p : Nat) (s : State),
      i < 4 ∧ s.owned i = true ∧ (p < 24 ∨ p = 40) ∧ s.asPort i p = true ∧ s.portUp p = true ∧ s.asState i = 6) :=
  ⟨
    ⟨0, 40, 0, cfs [(F.TE_AS_CFG_AS_EN 0, 1), (F.TE_AS_PORTS_HI_P40 0, 1)] up,
     by decide +kernel⟩,
    ⟨3, 23, 0, 1001,
     rgs [(F.TE_TI_STAT_SET 3, 1), (F.TE_AS_STAT_STATE 3, 2)] (cfs [(F.TE_AS_CFG_AS_EN 3, 1), (F.TE_AS_PORTS_LO_PORTS 3, 2 ^ 23)] up),
     by decide +kernel⟩,
    ⟨3, 1, up,
     by decide +kernel⟩,
    ⟨3, rgs [(F.TE_AS_STAT_STATE 3, 3)] (cfs [(F.TE_AS_CFG_AS_EN 3, 1), (F.TE_AS_CFG_GM_CAPABLE 3, 0)] up),
     by decide +kernel⟩,
    ⟨3, rgs [(F.TE_AS_STAT_STATE 3, 2)] (cfs [(F.TE_AS_CFG_AS_EN 3, 1), (F.TE_AS_CFG_GM_CAPABLE 3, 1)] up),
     by decide +kernel⟩,
    ⟨3,
     { rgs [(F.TE_AS_STAT_STATE 3, 4), (F.TE_AS_OFFSET_NS 3, 10000001)] (cfs [(F.TE_AS_CFG_AS_EN 3, 1)] up) with te.servo := [(3, ⟨none, 0, [], 0, true, 0, 0, 0⟩)] },
     by decide +kernel⟩,
    ⟨0, 40,
     rgs [(F.TE_AS_STAT_STATE 0, 6), (F.PX_PORT_STAT_LINK 40, 1)] (cfs [(F.TE_AS_CFG_AS_EN 0, 1), (F.TE_AS_PORTS_HI_P40 0, 1)] up),
     by decide +kernel⟩⟩

theorem witness_TimePins :
    (∃ (k : Nat) (rising : Bool) (s : State),
      k < 2 ∧ (s.act (F.TE_TSI_CFG_EDGE k)).testBit (if rising then 0 else 1) = true ∧
      (Sparse.get (fun _ => []) s.te.tsi k).length < 8) ∧
    (∃ (k : Nat) (rising : Bool) (s : State),
      k < 2 ∧ s.socUp = true ∧ (s.act (F.TE_TSI_CFG_EDGE k)).testBit (if rising then 0 else 1) = true ∧
      8 ≤ (Sparse.get (fun _ => []) s.te.tsi k).length) ∧
    (∃ (k : Nat) (u : TsoPulse) (s : State),
      k < 2 ∧ (s.tsoOf k).pulse = some u ∧ u.ends ≤ s.tiNs u.ti) ∧
    (∃ (k : Nat) (s : State),
      k < 2 ∧ (s.tsoOf k).last = none ∧ (s.tsoOf k).pulse = none ∧ s.act (F.TE_TSO_CFG_MODE k) = 2 ∧
      s.tsoStart k ≤ s.tiNs (s.act (F.TE_TSO_CFG_TI k))) ∧
    (∃ (k n : Nat) (s : State),
      k < 2 ∧ (s.tsoOf k).pulse = none ∧ s.act (F.TE_TSO_CFG_MODE k) = 1 ∧
      s.tsoStart k + n * s.tsoPeriod k ≤ s.tiNs (s.act (F.TE_TSO_CFG_TI k)) ∧
      s.tiNs (s.act (F.TE_TSO_CFG_TI k)) < s.tsoStart k + (n + 1) * s.tsoPeriod k ∧
      (∀ l, (s.tsoOf k).last = some l → l < s.tsoStart k + n * s.tsoPeriod k)) ∧
    (∃ (s : State),
      s.socUp = true) ∧
    (∃ (a : Agent) (data : Word) (s : State),
      s.reaches a = true ∧ data.getLsbD 0 = true) :=
  ⟨
    ⟨1, false, cfs [(F.TE_TSI_CFG_EDGE 1, 2)] up,
     by decide +kernel⟩,
    ⟨1, true, { cfs [(F.TE_TSI_CFG_EDGE 1, 3)] up with te.tsi := [(1, List.replicate 8 ⟨1, 2, 3, true⟩)] },
     by decide +kernel⟩,
    ⟨1, ⟨0, 0, true⟩, { up with te.tso := [(1, ⟨some 50, 0, some ⟨0, 0, true⟩, true⟩)] },
     by decide +kernel⟩,
    ⟨1, cfs [(F.TE_TSO_CFG_MODE 1, 2)] up,
     by decide +kernel⟩,
    ⟨1, 0, cfs [(F.TE_TSO_CFG_MODE 1, 1)] { up with te.tso := [(1, ⟨none, 0, none, false⟩)] },
     by decide +kernel⟩,
    ⟨up,
     by decide +kernel⟩,
    ⟨.sv, 1, up,
     by decide +kernel⟩⟩

theorem witness_FrameReception :
    (∃ (port : Nat) (s : State),
      port < 41 ∧ s.portUp port = true ∧ s.rxOf port = none ∧ s.px.jabbering.testBit port = false) ∧
    (∃ (port id b : Nat) (bytes : List Byte) (f : Frame) (s : State),
      port < 41 ∧ s.rxOf port = some id ∧ s.frameOf id = some f ∧ f.zombie = false ∧ f.ce = none ∧
      beAt (f.bytes ++ bytes) 12 2 ≠ 0x8808 ∧ cellsFor (f.len + bytes.length) = f.cells.length + 1 ∧
      (s.addBytes id bytes).nextBank = some b) ∧
    (∃ (port id : Nat) (f : Frame) (s : State),
      port < 41 ∧ s.rxOf port = some id ∧ s.frameOf id = some f ∧ f.zombie = false) ∧
    (∃ (port id : Nat) (bytes : List Byte) (f : Frame) (s : State),
      port < 41 ∧ hasMac port = true ∧ s.rxOf port = some id ∧ s.frameOf id = some f ∧ f.zombie = false ∧ f.ce = none ∧
      s.runtMin f.epoch port ≤ (f.bytes ++ bytes).length ∧ (f.bytes ++ bytes).length ≤ s.maxLen f.epoch port ∧
      (f.bytes ++ bytes).drop ((f.bytes ++ bytes).length - 4) ≠ fcsBytes ((f.bytes ++ bytes).take ((f.bytes ++ bytes).length - 4))) ∧
    (∃ (port id : Nat) (bytes : List Byte) (f : Frame) (s : State),
      (port < 24 ∨ port = 40) ∧ s.rxOf port = some id ∧ s.frameOf id = some f ∧ f.zombie = false ∧ f.ce = none ∧
      s.runtMin f.epoch port ≤ (f.bytes ++ bytes).length ∧ (f.bytes ++ bytes).length ≤ s.maxLen f.epoch port ∧
      (f.bytes ++ bytes).drop ((f.bytes ++ bytes).length - 4) = fcsBytes ((f.bytes ++ bytes).take ((f.bytes ++ bytes).length - 4)) ∧
      beAt ((f.bytes ++ bytes).take ((f.bytes ++ bytes).length - 4)) 12 2 ≠ 0x8808 ∧
      cellsFor (f.bytes ++ bytes).length = f.cells.length) ∧
    (∃ (port id : Nat) (f : Frame) (s : State),
      port < 41 ∧ s.rxOf port = some id ∧ s.frameOf id = some f ∧ f.zombie = false ∧ f.cells ≠ []) :=
  ⟨
    ⟨40, portOn 40 up,
     by decide +kernel⟩,
    ⟨40, 5, 0, List.replicate 64 1,
     (let bytes : List Byte := List.replicate 64 1; { fr 40 with bytes := [], len := 0, rxDone := false, good := false, cells := [], pass := 0, stage := .receiving }),
     (let bytes : List Byte := List.replicate 64 1; let f : Frame := { fr 40 with bytes := [], len := 0, rxDone := false, good := false, cells := [], pass := 0, stage := .receiving }; rcv 40 5 f up),
     by decide +kernel⟩,
    ⟨39, 5, { fr 39 with rxDone := false }, (let f : Frame := { fr 39 with rxDone := false }; rcv 39 5 f up),
     by decide +kernel⟩,
    ⟨40, 5, [0, 0, 0, 0], { fr 40 with len := 60, rxDone := false },
     (let f : Frame := { fr 40 with len := 60, rxDone := false }; rcv 40 5 f up),
     by decide +kernel⟩,
    ⟨40, 5, fcsBytes (List.replicate 60 1), { fr 40 with len := 60, rxDone := false },
     (let f : Frame := { fr 40 with len := 60, rxDone := false }; rcv 40 5 f up),
     by decide +kernel⟩,
    ⟨40, 5, { fr 40 with rxDone := false }, (let f : Frame := { fr 40 with rxDone := false }; rcv 40 5 f up),
     by decide +kernel⟩⟩

/-- A queue that holds one copy of frame 5 for its port. -/
def queued (port tc : Nat) (f : Frame) (s : State) : State :=
  (hold 5 f s).setQueue (qOf port tc) { emptyQueue with die := [cp port tc] }
/-- A queue whose head waits for its launch time. -/
def waiting (late now : Nat) : State :=
  { cfs [(F.SC_TCQ_LAUNCH_EN 40 7, 1), (F.SC_LAUNCH_CFG_LATE_LIM 40, late), (F.SC_LAUNCH_CFG_LATE_ACT 40, 0)]
      (queued 40 7 { fr 40 with launch := some 100, live := 1 } up) with te.ti := [(0, ⟨0, now, 0⟩)] }

theorem witness_SchedulerCommands :
    (∃ (port tc : Nat) (c : Copy) (rest : List Copy) (s u : State),
      port < 41 ∧ hasMac port = true ∧
      (s.forEach (List.range 8) (fun t i => t.cleanQueue (qOf port i) ((t.queueOf (qOf port i)).die.length))).choose port = (u, some tc) ∧
      (u.queueOf (qOf port tc)).die = c :: rest) ∧
    (∃ (q now : Nat) (c : Copy) (rest : List Copy) (s : State),
      q < 328 ∧ s.timed q = true ∧ (s.queueOf q).die = c :: rest ∧
      now = s.tiNs (s.act (F.SC_PORT_CFG_TI_SEL (q / 8))) ∧ s.launchOf c q ≤ (now : Int) + 2000 ∧
      (now : Int) ≤ s.launchOf c q + (s.act (F.SC_LAUNCH_CFG_LATE_LIM (q / 8)) : Nat)) ∧
    (∃ (q now : Nat) (c : Copy) (rest : List Copy) (s : State),
      q < 328 ∧ s.timed q = true ∧ s.socUp = true ∧ (s.queueOf q).die = c :: rest ∧
      now = s.tiNs (s.act (F.SC_PORT_CFG_TI_SEL (q / 8))) ∧
      s.launchOf c q + (s.act (F.SC_LAUNCH_CFG_LATE_LIM (q / 8)) : Nat) < (now : Int) ∧
      s.act (F.SC_LAUNCH_CFG_LATE_ACT (q / 8)) = 0) ∧
    (∃ (q : Nat) (s : State),
      q < 328 ∧ s.shaped q = true) ∧
    (∃ (port m : Nat) (c : Copy) (rest : List Copy) (s : State),
      port < 41 ∧ m < 4 ∧ s.mqOf port m = c :: rest) :=
  ⟨
    ⟨40, 7, cp 40 7, [], queued 40 7 (fr 40) (portOn 40 up),
     (let port : Nat := 40; let s : State := queued 40 7 (fr 40) (portOn 40 up); ((s.forEach (List.range 8) (fun t i => t.cleanQueue (qOf port i) ((t.queueOf (qOf port i)).die.length))).choose port).1),
     by decide +kernel⟩,
    ⟨327, 150, cp 40 7, [], waiting 50 150,
     by decide +kernel⟩,
    ⟨327, 151, cp 40 7, [], waiting 50 151,
     by decide +kernel⟩,
    ⟨327, cfs [(F.SC_TCQ_SHAPE_RATE 40 7, 1)] up,
     by decide +kernel⟩,
    ⟨40, 3, cp 40 7, [], up.setMq 40 3 [cp 40 7],
     by decide +kernel⟩⟩

theorem witness_TransmitCommands :
    (∃ (port m : Nat) (c : Copy) (rest : List Copy) (s u : State),
      hasMac port = true ∧ s.portUp port = true ∧ s.txOf port = none ∧
      u = s.forEach [0, 0, 1, 1, 2, 2, 3, 3] (fun t k => t.cleanMq port k) ∧ m < 4 ∧ u.mqOf port m = c :: rest ∧
      u.startable c = true ∧ (∀ k < 4, m < k → (u.mqOf port k).head?.any u.startable = false)) ∧
    (∃ (port : Nat) (x : TxNow) (f : Frame) (s : State),
      hasMac port = true ∧ s.txOf port = some x ∧ x.copy.port = port ∧ s.frameOf x.copy.frame = some f ∧
      State.isWhole f = true ∧ f.verdict = .ok) ∧
    (∃ (port sent : Nat) (x : TxNow) (bs : List Byte) (f : Frame) (s : State),
      hasMac port = true ∧ s.socUp = true ∧ s.txOf port = some x ∧ x.copy.port = port ∧
      s.frameOf x.copy.frame = some f ∧ f.verdict ≠ .ok ∧
      State.stompBytes (s.leaving x.copy) (f.rxDone && decide (f.badWhy ≠ 2)) x.copy.sealed.isSome sent = some bs) ∧
    (∃ (port : Nat) (x : TxNow) (s : State),
      hasMac port = true ∧ s.socUp = true ∧ s.txOf port = some x ∧ x.copy.port = port) :=
  ⟨
    ⟨40, 3, cp 40 7, [], (hold 5 { fr 0 with live := 1 } (portOn 40 up)).setMq 40 3 [cp 40 7],
     (let port : Nat := 40; let s : State := (hold 5 { fr 0 with live := 1 } (portOn 40 up)).setMq 40 3 [cp 40 7]; s.forEach [0, 0, 1, 1, 2, 2, 3, 3] (fun t k => t.cleanMq port k)),
     by decide +kernel⟩,
    ⟨40, ⟨cp 40 7, 0, false, [], [], none⟩, { fr 0 with live := 1 },
     (let f : Frame := { fr 0 with live := 1 }; hold 5 f (sending (cp 40 7) up)),
     by decide +kernel⟩,
    ⟨40, 63, ⟨cp 40 7, 0, false, [], [], none⟩,
     (State.stompBytes ((hold 5 { fr 0 with live := 1, verdict := .drop } (sending (cp 40 7) up)).leaving (cp 40 7)) true false 63).getD [],
     { fr 0 with live := 1, verdict := .drop },
     (let f : Frame := { fr 0 with live := 1, verdict := .drop }; hold 5 f (sending (cp 40 7) up)),
     by decide +kernel⟩,
    ⟨40, ⟨cp 40 7, 0, false, [], [], none⟩, hold 5 { fr 0 with live := 1 } (sending (cp 40 7) up),
     by decide +kernel⟩⟩

theorem witness_TransitCommands :
    (∃ (unit id : Nat) (f : Frame) (s : State),
      unit < 65536 ∧ s.frameOf id = some f ∧ (s.parityOf unit).length < 7) ∧
    (∃ (unit : Nat) (s : State),
      unit < 65536 ∧ 7 ≤ (s.parityOf unit).length) ∧
    (∃ (unit : Nat),
      unit < 65536) ∧
    (∃ (port : Nat) (s : State),
      s.socUp = true ∧ port < 41) :=
  ⟨
    ⟨65535, 5, fr 3, (let f : Frame := fr 3; { hold 5 f up with fx.parityAt := [(65535, List.replicate 6 0)] }),
     by decide +kernel⟩,
    ⟨65535, { up with fx.parityAt := [(65535, List.replicate 7 0)] },
     by decide +kernel⟩,
    ⟨65535,
     by decide +kernel⟩,
    ⟨40, rgs [(F.SV_TX_EPOCH_EPOCH, 257)] up,
     by decide +kernel⟩⟩

/-- A page of a queue's chain. -/
def page (st : PageState) (l : List Copy) : HPage := ⟨3, st, 0, 0, 0, 0, l, 0, [List.replicate 256 9], false, false, 0, []⟩
/-- Queue 327 with pages. -/
def paged (l : List HPage) (s : State) : State := s.setQueue 327 { emptyQueue with pages := l, spill := true }
/-- A frame of group 1 that is still to be copied to P40. -/
def toCopy : Frame := { fr 3 with copying := 2 ^ 40, tc := 7 }
def beforeCopy : State := { hold 5 toCopy (portOn 40 up) with sx.nextId := 9 }
def cloned : State :=
  ((beforeCopy.modFrame 5 (fun f => { f with copying := clrBit f.copying 40 })).addClone 5 toCopy).1.takeCells 9 1

theorem witness_EnqueueCommands :
    (∃ (id : Nat) (f : Frame) (s : State),
      s.frameOf id = some f ∧ f.stage ≠ .queued ∧ f.zombie = false ∧ f.verdict ≠ .ok ∧ f.rxDone = true ∧
      f.parent = none) ∧
    (∃ (id p : Nat) (f : Frame) (s : State),
      s.frameOf id = some f ∧ s.atEnqueue f = true ∧ s.enqueueTurn id f = true ∧ State.isWhole f = true ∧
      f.verdict = .ok ∧ p < 41 ∧ f.egress = 2 ^ p ∧ f.tc < 8 ∧ s.byCopies f = false ∧ s.portUp p = true ∧
      s.beyondHorizon f (qOf p f.tc) = false ∧ s.admits f (qOf p f.tc) (cellsFor f.len) (some id) = .die) ∧
    (∃ (id p : Nat) (f : Frame) (s : State),
      s.frameOf id = some f ∧ lowestBit f.copying 41 = some p ∧ clrBit f.copying p ≠ 0 ∧ s.portUp p = false) ∧
    (∃ (id p k : Nat) (f c : Frame) (s u v w : State),
      s.frameOf id = some f ∧ lowestBit f.copying 41 = some p ∧ s.portUp p = true ∧
      u = s.modFrame id (fun f => { f with copying := clrBit f.copying p }) ∧ u.beyondHorizon f (qOf p f.tc) = false ∧
      u.admits f (qOf p f.tc) (cellsFor f.len) (some id) = .die ∧ u.addClone id f = (v, k) ∧
      w = v.takeCells k (cellsFor f.len) ∧ w.frameOf k = some c ∧ cellsFor f.len ≤ c.cells.length) :=
  ⟨
    ⟨5, { fr 3 with verdict := .drop }, (let f : Frame := { fr 3 with verdict := .drop }; hold 5 f up),
     by decide +kernel⟩,
    ⟨5, 40, { fr 3 with egress := 2 ^ 40, tc := 7 },
     (let f : Frame := { fr 3 with egress := 2 ^ 40, tc := 7 }; hold 5 f (portOn 40 up)),
     by decide +kernel⟩,
    ⟨5, 1, { fr 3 with copying := 6 }, (let f : Frame := { fr 3 with copying := 6 }; hold 5 f up),
     by decide +kernel⟩,
    ⟨5, 40, 9, toCopy, (cloned.frameOf 9).getD (fr 0), beforeCopy,
     (let id : Nat := 5; let p : Nat := 40; let f : Frame := toCopy; let s : State := beforeCopy; s.modFrame id (fun f => { f with copying := clrBit f.copying p })),
     (let id : Nat := 5; let p : Nat := 40; let f : Frame := toCopy; let s : State := beforeCopy; let u : State := s.modFrame id (fun f => { f with copying := clrBit f.copying p }); (u.addClone id f).1),
     (let id : Nat := 5; let p : Nat := 40; let k : Nat := 9; let f : Frame := toCopy; let s : State := beforeCopy; let u : State := s.modFrame id (fun f => { f with copying := clrBit f.copying p }); let v : State := (u.addClone id f).1; v.takeCells k (cellsFor f.len)),
     by decide +kernel⟩⟩

theorem witness_HamperCommands :
    (∃ (q : Nat),
      q < 328) ∧
    (∃ (q k : Nat) (p : HPage) (s : State),
      q < 328 ∧ s.closedPage q = some (k, p) ∧ s.runMode p.epoch ≠ 2) ∧
    (∃ (q k : Nat) (p : HPage) (key : Nat × Nat) (s : State),
      q < 328 ∧ s.closedPage q = some (k, p) ∧ s.runMode p.epoch = 2 ∧ s.pairs ≠ [] ∧ s.ce.ham = some key) ∧
    (∃ (q n : Nat) (p : HPage) (s : State),
      q < 328 ∧ s.wantsRefill q = true ∧ s.refillTurn q = true ∧ 16 ≤ s.freeCells none ∧ s.nextPage q = (some p, n) ∧
      p.state = .dram) ∧
    (∃ (q : Nat) (p r : HPage) (rest : List HPage) (s : State),
      q < 328 ∧ (s.queueOf q).pages = p :: r :: rest ∧ p.state = .refilling ∧ p.enc = false) ∧
    (∃ (q : Nat) (p : HPage) (s : State),
      q < 328 ∧ (s.queueOf q).pages = [p] ∧ p.state = .refilling ∧ p.enc = false) ∧
    (∃ (d : Detached) (rest : List Detached) (s : State),
      s.sx.detached = d :: rest) ∧
    (∃ (s : State),
      s.hamState = 2 ∧ s.hamUsed = 0) ∧
    (∃ (q k : Nat) (p : HPage) (s : State),
      q < 328 ∧ s.socUp = true ∧ (s.queueOf q).pages[k]? = some p ∧ p.state = .refilling) :=
  ⟨
    ⟨327,
     by decide +kernel⟩,
    ⟨327, 1, page .staged [cp 40 7], paged [page .dram [], page .staged [cp 40 7]] up,
     by decide +kernel⟩,
    ⟨327, 1, page .staged [cp 40 7], (5, 6),
     { paged [page .dram [], page .staged [cp 40 7]] (cfs [(F.SV_MODE_CFG_RUN_MODE, 2)] up) with ce.ham := some (5, 6) },
     by decide +kernel⟩,
    ⟨327, 1, page .dram [], paged [page .refilling [], page .dram []] up,
     by decide +kernel⟩,
    ⟨327, page .refilling [cp 40 7], { page .dram [] with tail := true }, [],
     paged [page .refilling [cp 40 7], { page .dram [] with tail := true }] (hold 5 (fr 0) up),
     by decide +kernel⟩,
    ⟨327, page .refilling [cp 40 7], paged [page .refilling [cp 40 7]] (hold 5 (fr 0) up),
     by decide +kernel⟩,
    ⟨⟨40, true, []⟩, [], { up with sx.detached := [⟨40, true, []⟩] },
     by decide +kernel⟩,
    ⟨rgs [(F.SX_HAM_STATE_STATE, 2)] up,
     by decide +kernel⟩,
    ⟨327, 0, page .refilling [], paged [page .refilling []] up,
     by decide +kernel⟩⟩

/-- A frame at its first pass: its destination and its tag. -/
def arrived (dst : List Byte) (vid : Byte) : Frame :=
  { fr 40 with bytes := dst ++ List.replicate 6 2 ++ [0x81, 0, 0, vid] ++ List.replicate 44 0, pass := 0,
               stage := .receiving }
/-- A learned entry of the bridge table. -/
def learned (dest : Nat) : FdbEntry := ⟨0x020202020202, 7, false, dest, 0, 0, false, false⟩
/-- A gate list of two entries. -/
def gates : GateList := ⟨0, 0, 1000, [(0xFF, 10), (0x01, 20)], []⟩
/-- An operation of FX_TBL_CMD in progress over one learned and one static entry. -/
def tblBusy (op index : Nat) : State :=
  { rgs [(F.FX_TBL_CMD_OP, op), (F.FX_TBL_INDEX_INDEX, index), (F.FX_TBL_KEY_HI_FID, 7),
      (F.FX_TBL_KEY_LO_MAC, 0x02020202), (F.FX_TBL_KEY_HI_MAC, 0x0202), (F.FX_TBL_CMD_BUSY, 1)] up with
    fx.tableBusy := some ⟨.core 0, op, false, false, 0, 7, 9, index⟩
    fx.fdb := [(65790, some { learned 3 with static := true, mac := 9, inActive := true }), (65791, some (learned 3))] }

theorem witness_PipelinePass :
    (∃ (id m : Nat) (f : Frame) (s : State),
      s.frameOf id = some f ∧ f.pass = 0 ∧ f.zombie = false ∧ f.verdict = .ok ∧ f.cells ≠ [] ∧ f.rxDone = true ∧
      s.fx.stalled = 0 ∧ s.slotTurn id f = true ∧ f.directive = some m) ∧
    (∃ (id : Nat) (f : Frame) (s : State),
      f.port < 41 ∧ s.frameOf id = some f ∧ f.pass = 0 ∧ f.zombie = false ∧ f.verdict = .ok ∧ f.cells ≠ [] ∧
      f.rxDone = true ∧ s.fx.stalled = 0 ∧ s.slotTurn id f = true ∧ f.directive = none ∧
      (parseHdr f.bytes).ctag = true ∧ 1 ≤ (parseHdr f.bytes).tvid ∧ s.cfg f.epoch (F.FX_PORT_CFG_ACCEPT f.port) = 0 ∧
      (s.vlanMembers f.epoch (parseHdr f.bytes).tvid).testBit f.port = false) ∧
    (∃ (id : Nat) (f : Frame) (s : State),
      f.port < 41 ∧ s.frameOf id = some f ∧ f.pass = 0 ∧ f.zombie = false ∧ f.verdict = .ok ∧ f.cells ≠ [] ∧
      f.rxDone = true ∧ s.fx.stalled = 0 ∧ s.slotTurn id f = true ∧ f.directive = none ∧
      (parseHdr f.bytes).ctag = true ∧ 1 ≤ (parseHdr f.bytes).tvid ∧ (parseHdr f.bytes).tvid ≠ 4095 ∧
      s.cfg f.epoch (F.FX_PORT_CFG_ACCEPT f.port) = 0 ∧ s.vlanValid f.epoch (parseHdr f.bytes).tvid = true ∧
      (s.vlanMembers f.epoch (parseHdr f.bytes).tvid).testBit f.port = true ∧
      linkLocal (parseHdr f.bytes).dmac = true) ∧
    (∃ (id : Nat) (f : Frame) (s : State),
      s.frameOf id = some f ∧ f.stage = .clear ∧ f.zombie = false ∧ f.verdict ≠ .drop ∧ s.fx.stalled = 0 ∧
      f.directive = none ∧ (parseHdr f.bytes).ctag = true ∧ 1 ≤ (parseHdr f.bytes).tvid ∧
      s.cfg f.epoch (F.FX_PORT_CFG_ACCEPT f.port) = 0 ∧
      (s.vlanMembers f.epoch (parseHdr f.bytes).tvid).testBit f.port = false) ∧
    (∃ (id : Nat) (f : Frame) (s : State),
      s.frameOf id = some f ∧ f.stage = .clear ∧ f.zombie = false ∧ f.verdict ≠ .drop ∧ s.fx.stalled = 0 ∧
      f.directive = none ∧ (parseHdr f.bytes).ctag = true ∧ 1 ≤ (parseHdr f.bytes).tvid ∧
      (parseHdr f.bytes).tvid ≠ 4095 ∧ s.cfg f.epoch (F.FX_PORT_CFG_ACCEPT f.port) = 0 ∧
      s.vlanValid f.epoch (parseHdr f.bytes).tvid = true ∧
      (s.vlanMembers f.epoch (parseHdr f.bytes).tvid).testBit f.port = true ∧
      linkLocal (parseHdr f.bytes).dmac = true) :=
  ⟨
    ⟨5, 2 ^ 41 + 2 ^ 40, { arrived (List.replicate 6 1) 1 with directive := some (2 ^ 41 + 2 ^ 40) },
     (let f : Frame := { arrived (List.replicate 6 1) 1 with directive := some (2 ^ 41 + 2 ^ 40) }; hold 5 f up),
     by decide +kernel⟩,
    ⟨5, arrived (List.replicate 6 1) 1,
     (let f : Frame := arrived (List.replicate 6 1) 1; cfs [(F.FX_VLAN_W0_MEMBERS_LO 1, 0), (F.FX_VLAN_W1_MEMBERS_HI 1, 0), (F.FX_PORT_CFG_ACCEPT 40, 0)] (hold 5 f up)),
     by decide +kernel⟩,
    ⟨5, arrived [1, 0x80, 0xC2, 0, 0, 0xF] 1,
     (let f : Frame := arrived [1, 0x80, 0xC2, 0, 0, 0xF] 1; cfs [(F.FX_VLAN_W1_MEMBERS_HI 1, 2 ^ 8), (F.FX_VLAN_W1_VALID 1, 1), (F.FX_PORT_CFG_ACCEPT 40, 0)] (hold 5 f up)),
     by decide +kernel⟩,
    ⟨5, { arrived (List.replicate 6 1) 1 with stage := .clear, pass := 1 },
     (let f : Frame := { arrived (List.replicate 6 1) 1 with stage := .clear, pass := 1 }; cfs [(F.FX_VLAN_W0_MEMBERS_LO 1, 0), (F.FX_VLAN_W1_MEMBERS_HI 1, 0), (F.FX_PORT_CFG_ACCEPT 40, 0)] (hold 5 f up)),
     by decide +kernel⟩,
    ⟨5, { arrived [1, 0x80, 0xC2, 0, 0, 0xF] 1 with stage := .clear, pass := 1 },
     (let f : Frame := { arrived [1, 0x80, 0xC2, 0, 0, 0xF] 1 with stage := .clear, pass := 1 }; cfs [(F.FX_VLAN_W1_MEMBERS_HI 1, 2 ^ 8), (F.FX_VLAN_W1_VALID 1, 1), (F.FX_PORT_CFG_ACCEPT 40, 0)] (hold 5 f up)),
     by decide +kernel⟩⟩

theorem witness_LearningCommands :
    (∃ (r : LearnReq) (n : Nat) (e : FdbEntry) (s : State),
      s.fx.learn.find? (·.ok) = some r ∧ s.fdbStatic false r.fid r.mac = none ∧
      s.fdbLearned r.fid r.mac = some (n, e) ∧ e.dest = r.port) ∧
    (∃ (r : LearnReq) (n : Nat) (s : State),
      s.fx.learn.find? (·.ok) = some r ∧ s.fdbStatic false r.fid r.mac = none ∧ s.fdbLearned r.fid r.mac = none ∧
      s.learnedOn r.port < s.learnLim (s.epochOf r.frame) r.port ∧ s.bucketSlot r.fid r.mac = some n) ∧
    (∃ (s : State),
      s.socUp = true) ∧
    (∃ (pg m : Nat) (s : State),
      pg < 16 ∧ m < 8 ∧ (s.rejoinOf pg).testBit m = true ∧ s.pgServing 0 pg m = true) ∧
    (∃ (h : Nat) (s : State),
      h < 1024 ∧ s.socUp = true) :=
  ⟨
    ⟨⟨5, 0x020202020202, 7, 3, true, false⟩, 65791, learned 3,
     { rgs [(F.FX_AGE_NOW_NOW, 65535)] up with fx.learn := [⟨5, 0x020202020202, 7, 3, true, false⟩], fx.fdb := [(65791, some (learned 3))] },
     by decide +kernel⟩,
    ⟨⟨5, 0x020202020202, 7, 3, true, false⟩, (up.bucketSlot 7 0x020202020202).getD 0,
     { cfs [(F.FX_PORT_CFG_LEARN_LIM 3, 1)] up with fx.learn := [⟨5, 0x020202020202, 7, 3, true, false⟩] },
     by decide +kernel⟩,
    ⟨{ rgs [(F.FX_AGE_NOW_NOW, 65535)] (cfs [(F.FX_FDB_CFG_AGE_LIMIT, 5)] up) with fx.fdb := [(8, some { learned 3 with stamp := 65531 }), (9, some { learned 3 with stamp := 65530 })] },
     by decide +kernel⟩,
    ⟨15, 7,
     { cfs [(F.FX_PG_W2_MEMBER_EN 15, 255), (⟨R.FX_PG_W1 15, 24, 8, 3⟩, 40)] (portOn 40 up) with fx.rejoining := [(15, 255)], fx.current := [(15, List.replicate 256 0)] },
     by decide +kernel⟩,
    ⟨1023, { up with fx.recovery := [(1022, some ⟨none, []⟩), (1023, some ⟨some 5, []⟩)] },
     by decide +kernel⟩⟩

theorem witness_TableAccess :
    (∃ (a : Agent) (s : State),
      s.reaches a = true ∧ s.fx.tableBusy = none) ∧
    (∃ (a : Agent) (x : TblOp) (s : State),
      s.fx.tableBusy = some x ∧ s.reaches a = true) ∧
    (∃ (x : TblOp) (s : State),
      s.socUp = true ∧ s.fx.tableBusy = some x) :=
  ⟨
    ⟨.sv, up,
     by decide +kernel⟩,
    ⟨.sv, ⟨.core 0, 1, false, false, 0, 7, 9, 65791⟩, tblBusy 1 65791,
     by decide +kernel⟩,
    ⟨⟨.core 0, 1, false, false, 0, 7, 9, 65791⟩, tblBusy 1 65791,
     by decide +kernel⟩⟩

theorem witness_GateCommands :
    (∃ (port e : Nat) (gl : GateList) (s : State),
      port < 41 ∧ s.gclOf port = some gl ∧
      State.listEntry gl.base gl.cycle (gl.entries.map (·.2)) (s.tiNs gl.ti) = some e) ∧
    (∃ (port b e : Nat) (gl : GateList) (s : State),
      port < 41 ∧ s.socUp = true ∧ s.gclWaiting port = some (gl, b) ∧ b ≤ s.tiNs gl.ti ∧
      State.listEntry gl.base gl.cycle (gl.entries.map (·.2)) (s.tiNs gl.ti) = some e) ∧
    (∃ (g : Nat),
      g < 256) ∧
    (∃ (a : Agent) (i : Nat) (s : State),
      s.reaches a = true ∧ i < 1024) ∧
    (∃ (a : Agent) (g : Nat) (s : State),
      s.reaches a = true ∧ g < 256) :=
  ⟨
    ⟨40, 0, gates, { rgs [(F.SC_GCL_STAT_ENTRY 40, 1)] up with fx.gcl := [(40, some gates)] },
     by decide +kernel⟩,
    ⟨40, 0, 0, gates, { up with fx.gclNext := [(40, some (gates, 0))] },
     by decide +kernel⟩,
    ⟨255,
     by decide +kernel⟩,
    ⟨.sv, 1023, rgs [(F.FX_SF_STAT_SDU_BLOCKED 1023, 1)] up,
     by decide +kernel⟩,
    ⟨.sv, 255, rgs [(F.FX_SGATE_STAT_INVALID_CLOSED 255, 1)] up,
     by decide +kernel⟩⟩

theorem witness_PatrolScrubCommand :
    (∃ (s : State),
      s.socUp = true) ∧
    (∃ (entry : Nat) (s : State),
      s.socUp = true ∧ s.bankOut (entry / 16384 % 16) = false) ∧
    (∃ (slot : Nat) (e : FdbEntry) (s : State),
      s.socUp = true ∧ s.fdbAt slot = some e ∧ e.static = false) ∧
    (∃ (c word : Nat) (s : State),
      s.socUp = true ∧ c < 16 ∧ word < 65536) ∧
    (∃ (s : State),
      s.socUp = true) ∧
    (∃ (s : State),
      s.socUp = true ∧ s.rd64 R.MX_DRAM_UE_ADDR_LO = 0) ∧
    (∃ (entry : Nat) (s : State),
      s.socUp = true ∧ s.entryOk 0x39 entry = true) ∧
    (∃ (c word : Nat) (s : State),
      s.socUp = true ∧ c < 16 ∧ word < 65536) ∧
    (∃ (s : State),
      s.socUp = true) :=
  ⟨
    ⟨up,
     by decide +kernel⟩,
    ⟨16 * 16384 - 1, up,
     by decide +kernel⟩,
    ⟨65791, learned 3, { up with fx.fdb := [(65791, some (learned 3))] },
     by decide +kernel⟩,
    ⟨15, 65535, up,
     by decide +kernel⟩,
    ⟨up,
     by decide +kernel⟩,
    ⟨up,
     by decide +kernel⟩,
    ⟨1023, up,
     by decide +kernel⟩,
    ⟨15, 65535, up,
     by decide +kernel⟩,
    ⟨up,
     by decide +kernel⟩⟩

/-- Core 7 may give KX commands. -/
def kxUp (l : List (Fld × Nat)) : State := rgs l (cfs [(F.KX_AGENT_CFG_AGENTS, 0x1FF)] up)
/-- Bersan session 0 is open under node 3. -/
def sess3 (s : State) : State := { s with sv.bersan := [(0, some 3)] }
/-- Settings of three nodes, each under the one before. -/
def three : State := cfs [(F.KX_NODE_W0_VALID 16, 1), (F.KX_NODE_W0_VALID 17, 1), (F.KX_NODE_W0_PARENT 17, 16), (F.KX_NODE_W0_VALID 18, 1),
  (F.KX_NODE_W0_PARENT 18, 17), (F.KX_AGENT_CFG_AGENTS, 0x1FF)] up
/-- The first two of them READY. -/
def node3 : List (Fld × Nat) := [(F.KX_NODE_STAT_W0_STATE 16, 1), (F.KX_NODE_STAT_W0_STATE 17, 1), (F.KX_NODE_STAT_W0_GEN 16, 65535)]
/-- Node 1023 is an imported node under node 4 that may be exported. -/
def imported : State := cfs [(F.KX_NODE_W0_VALID 1023, 1), (F.KX_NODE_W0_KIND 1023, 1), (F.KX_NODE_W0_PARENT 1023, 4),
  (F.KX_NODE_W1_POLICY 1023, 0x80), (F.KX_AGENT_CFG_AGENTS, 0x1FF)] up
/-- Node 1023 is an imported node under node 2. -/
def noUse : State := cfs [(F.KX_NODE_W0_PARENT 1023, 2)] imported
/-- It holds a key, and a session under it is open with an update session. -/
def keyed (s : State) : State :=
  { rgs [(F.KX_NODE_STAT_W0_STATE 1023, 1)] s with sv.bersan := [(0, some 3), (2, some 1023)], upd.owner := some (.bersan 2), kx.cells := [(1026, ⟨5, 6⟩)] }
/-- A protected frame before its ICV: integrity only, no SCI, PN 1. -/
def wire0 : List Byte := List.replicate 12 1 ++ [0x88, 0xE5, 0, 0, 0, 0, 0, 1] ++ List.replicate 48 7
/-- The frame that CE verifies. -/
def inCe (wire : List Byte) : Frame := { fr 40 with ce := some ⟨4095, 1, 9, [], wire, false⟩ }
/-- A context that is valid and active with its key in the cache. -/
def ctxReady (kind c : Nat) (s : State) : State :=
  { rgs [(F.CE_CTX_STAT_W0_STATE c, 1), (F.CE_CTX_STAT_W3_PN c, 5), (F.KX_NODE_STAT_W0_STATE 1023, 1)]
      (cfs [(F.CE_CTX_W0_VALID c, 1), (F.CE_CTX_W0_KIND c, kind), (F.CE_CTX_W0_NODE c, 1023), (F.KX_NODE_W1_POLICY 1023, 3)] s) with
    ce.cache := [(c, 77)] }
/-- A CAN XL message of 12 bytes. -/
def msg12 : CanFrame := ⟨3, false, false, 1, false, false, 12, 0, 0, false, 0, []⟩
/-- That message sealed with fresh value 1 under key 77. -/
def sealed : CanFrame := { msg12 with data := beBytes 4 1 ++ sealTag 77 msg12 1 }
/-- An Ethernet frame to P38 with one CAN XL message of one byte for bus 2. -/
def downFrame : Frame :=
  { fr 3 with bytes := List.replicate 12 1 ++ [0x88, 0xB5, 1, 1, 0, 0, 0, 0, 0, 0, 2, 2, 0, 13, 0, 3] ++
                List.replicate 10 0 ++ [9] ++ List.replicate 30 0 }
/-- Tables in which route 0 seals that message under context 4095. -/
def sealTables : RegFile :=
  (cfs [(F.BX_GW_ROUTE_W0_VALID 0, 1), (F.BX_GW_ROUTE_W0_DIR 0, 1), (F.BX_GW_ROUTE_W0_ID 0, 3), (F.BX_GW_ROUTE_W2_CTRL 0, 2),
    (F.BX_GW_ROUTE_W6_SEAL 0, 1), (F.BX_GW_ROUTE_W6_SEAL_CTX 0, 4095)] up).activeOf 9
/-- P38 takes the frame. -/
def p38Takes : TxNow := ⟨cp 38 7, 0, false, sealTables, [], none⟩

theorem witness_KeyCommandAccept :
    (∃ (k : Fin 8) (n : Nat) (s : State),
      s.reaches (.core k) = true ∧ s.kxBusy (.core k) = false ∧ s.kxCheck (.core k) 2 (n % 1024) 0 = none) ∧
    (∃ (k : Fin 8) (n form : Nat) (s : State),
      s.reaches (.core k) = true ∧ s.kxBusy (.core k) = false ∧ s.kxCheck (.core k) 3 (n % 1024) form = none) ∧
    (∃ (k : Fin 8) (n : Nat) (s : State),
      s.reaches (.core k) = true ∧ s.kxBusy (.core k) = false ∧ s.kxCheck (.core k) 4 (n % 1024) 0 = none) ∧
    (∃ (a : Agent) (s : State),
      s.reaches a = true ∧ s.kxBusy a = false ∧ s.kxCheck a 6 0 0 = none) ∧
    (∃ (a : Agent) (dest : Nat) (s : State),
      s.reaches a = true ∧ s.kxBusy a = false ∧ s.kxCheck a 7 0 dest = none) ∧
    (∃ (a : Agent) (n : Nat) (s : State),
      s.reaches a = true ∧ s.kxBusy a = false ∧ s.kxCheck a 1 (n % 1024) 0 = none) ∧
    (∃ (a : Agent) (s : State),
      s.reaches a = true ∧ s.kxBusy a = false ∧ s.kxCheck a 5 0 0 = none) ∧
    (∃ (a : Agent) (s : State),
      s.reaches a = true ∧ s.kxBusy a = false ∧ s.kxCheck a 8 0 0 = none) ∧
    (∃ (k : Fin 8) (s : State),
      s.reaches (.core k) = true ∧ s.kxBusy (.core k) = false) ∧
    (∃ (a : Agent) (s : State),
      s.reaches a = true ∧ s.kxBusy a = true) ∧
    (∃ (a : Agent) (n : Nat) (s : State),
      s.reaches a = true ∧ s.kxBusy a = false ∧ s.kxCheck a 1 (n % 1024) 0 = none ∧
      nodeLoops s.kxRf (n % 1024) 8 (n % 1024) = false) ∧
    (∃ (a : Agent) (s : State),
      s.reaches a = true ∧ s.kxBusy a = false ∧ s.kxCheck a 5 0 0 = none) :=
  ⟨
    ⟨7, 1023, kxUp [(F.KX_NODE_STAT_W0_STATE 1023, 2)],
     by decide +kernel⟩,
    ⟨7, 1023, 1,
     rgs [(F.KX_STAT_LC, 3), (F.KX_NODE_STAT_W0_STATE 4, 1)] (cfs [(F.KX_NODE_W0_VALID 1023, 1), (F.KX_NODE_W0_KIND 1023, 1), (F.KX_NODE_W0_PARENT 1023, 4)] (kxUp [])),
     by decide +kernel⟩,
    ⟨0, 16,
     rgs [(F.KX_NODE_STAT_W0_STATE 16, 1)] (cfs [(F.KX_NODE_W0_VALID 16, 1), (F.KX_NODE_W0_KIND 16, 1), (F.KX_NODE_W1_POLICY 16, 0x80)] (kxUp [])),
     by decide +kernel⟩,
    ⟨.bersan 0, sess3 (kxUp [(F.KX_STAT_LOCKED, 1)]),
     by decide +kernel⟩,
    ⟨.bersan 0, 3, sess3 (kxUp [(F.KX_STAT_LC, 1)]),
     by decide +kernel⟩,
    ⟨.core 7, 7, kxUp [(F.KX_NODE_STAT_W0_STATE 7, 1)],
     by decide +kernel⟩,
    ⟨.core 7, kxUp [],
     by decide +kernel⟩,
    ⟨.bersan 0, sess3 (kxUp [(F.KX_STAT_LC, 1)]),
     by decide +kernel⟩,
    ⟨7, kxUp [],
     by decide +kernel⟩,
    ⟨.core 7, { kxUp [] with kx.jobs := [⟨.core 7, 5, 0, 0⟩] },
     by decide +kernel⟩,
    ⟨.core 7, 16, { kxUp (node3 ++ [(F.KX_NODE_STAT_W0_STATE 18, 4)]) with active := three.active },
     by decide +kernel⟩,
    ⟨.core 7, keyed { kxUp [] with active := imported.active },
     by decide +kernel⟩⟩

theorem witness_KeyEngineEvents :
    (∃ (a : Agent) (dest : Nat) (s : State),
      s.socUp = true ∧ s.kx.jobs.find? (fun j => decide (j.op ≠ 6)) = some ⟨a, 7, 0, dest⟩) ∧
    (∃ (j : KxJob) (s : State),
      s.socUp = true ∧ s.kx.jobs.find? (fun j => decide (j.op = 6)) = some j ∧ j.agent ≠ .debug ∧
      { s with kx.jobs := s.kx.jobs.erase j }.downCause .sound = 0) ∧
    (∃ (s : State),
      s.socUp = true ∧ s.rg F.KX_STAT_TRNG_FAIL = 0) ∧
    (∃ (s : State),
      s.rg F.KX_STAT_TRNG_FAIL = 1) ∧
    (∃ (s : State),
      s.socUp = true) ∧
    (∃ (s : State),
      s.socUp = true) :=
  ⟨
    ⟨.bersan 0, 3, { rgs [(F.KX_STAT_LC, 1)] up with kx.jobs := [⟨.bersan 0, 7, 0, 3⟩] },
     by decide +kernel⟩,
    ⟨⟨.bersan 0, 6, 0, 0⟩,
     { rgs [(F.KX_STAT_LC, 1)] up with kx.jobs := [⟨.bersan 0, 6, 0, 0⟩], nv.flash := [(nvHelper, 1), (nvHelper + 1, 0), (nvHelper + 2, 0x50), (nvHelper + 3, 0x48)] },
     by decide +kernel⟩,
    ⟨{ up with kx.cells := [(3, ⟨5, 6⟩)] },
     by decide +kernel⟩,
    ⟨rgs [(F.KX_STAT_TRNG_FAIL, 1)] up,
     by decide +kernel⟩,
    ⟨up,
     by decide +kernel⟩,
    ⟨rgs [(F.KX_STAT_TRNG_FAIL, 1)] up,
     by decide +kernel⟩⟩

theorem witness_KeyCommandResults :
    (∃ (a : Agent) (n p : Nat) (s : State),
      s.socUp = true ∧ n < 1024 ∧ s.kx.jobs.find? (fun j => decide (j.op ≠ 6)) = some ⟨a, 2, n, 0⟩ ∧
      s.kxCheck a 2 n 0 = none ∧ nodeParent s.kxRf n = some p ∧ s.nodeUsable p 5 = true) ∧
    (∃ (a : Agent) (n form : Nat) (s : State),
      s.socUp = true ∧ n < 1024 ∧ s.kx.jobs.find? (fun j => decide (j.op ≠ 6)) = some ⟨a, 3, n, form⟩ ∧
      s.kxCheck a 3 n form = none ∧ s.nodeUsable (if form = 1 then (nodeParent s.kxRf n).getD 0 else 4) 6 = true) ∧
    (∃ (a : Agent) (n form : Nat) (s : State),
      s.socUp = true ∧ n < 1024 ∧ s.kx.jobs.find? (fun j => decide (j.op ≠ 6)) = some ⟨a, 3, n, form⟩ ∧
      s.kxCheck a 3 n form = none ∧ s.nodeUsable (if form = 1 then (nodeParent s.kxRf n).getD 0 else 4) 6 = false) ∧
    (∃ (a : Agent) (n : Nat) (s : State),
      s.socUp = true ∧ n < 1024 ∧ s.kx.jobs.find? (fun j => decide (j.op ≠ 6)) = some ⟨a, 4, n, 0⟩ ∧
      s.kxCheck a 4 n 0 = none) ∧
    (∃ (a : Agent) (op n form code : Nat) (s : State),
      s.socUp = true ∧ n < 1024 ∧ op ∈ [2, 3, 4] ∧
      s.kx.jobs.find? (fun j => decide (j.op ≠ 6)) = some ⟨a, op, n, form⟩ ∧ s.kxCheck a op n form = some code) ∧
    (∃ (a : Agent) (dest : Nat) (s : State),
      s.socUp = true ∧ s.kx.jobs.find? (fun j => decide (j.op ≠ 6)) = some ⟨a, 7, 0, dest⟩) ∧
    (∃ (s : State),
      s.kx.jobs.find? (fun j => decide (j.op ≠ 6)) = none) :=
  ⟨
    ⟨.core 7, 16, 0,
     { rgs [(F.KX_STAT_LC, 1), (F.KX_NODE_STAT_W0_STATE 0, 1), (F.KX_NODE_STAT_W0_STATE 16, 2), (F.KX_STAT_ROOTS_UP, 1)] { kxUp [] with active := three.active } with kx.jobs := [⟨.core 7, 2, 16, 0⟩] },
     by decide +kernel⟩,
    ⟨.bersan 0, 1023, 0,
     { rgs [(F.KX_STAT_LC, 3), (F.KX_NODE_STAT_W0_STATE 4, 1), (F.KX_NODE_STAT_W0_STATE 1023, 1)] { sess3 up with active := imported.active } with sv.bersan := [(0, some 3)], kx.jobs := [⟨.bersan 0, 6, 0, 0⟩, ⟨.bersan 0, 3, 1023, 0⟩] },
     by decide +kernel⟩,
    ⟨.core 0, 1023, 0,
     { rgs [(F.KX_STAT_LC, 3), (F.KX_NODE_STAT_W0_STATE 2, 1)] { kxUp [] with active := noUse.active } with kx.jobs := [⟨.core 0, 3, 1023, 0⟩] },
     by decide +kernel⟩,
    ⟨.pcie, 1023,
     { rgs [(F.KX_STAT_LC, 3), (F.KX_NODE_STAT_W0_STATE 1023, 1)] { kxUp [] with active := imported.active } with kx.jobs := [⟨.pcie, 4, 1023, 0⟩] },
     by decide +kernel⟩,
    ⟨.core 7, 3, 1023, 0, 4, { kxUp [] with kx.jobs := [⟨.core 7, 3, 1023, 0⟩] },
     by decide +kernel⟩,
    ⟨.bersan 0, 3, { up with kx.jobs := [⟨.bersan 0, 7, 0, 3⟩], kx.advanced := true },
     by decide +kernel⟩,
    ⟨{ up with kx.jobs := [⟨.core 7, 6, 0, 0⟩] },
     by decide +kernel⟩⟩

theorem witness_TamperCommands :
    (∃ (src : Nat) (s : State),
      src < 6 ∧ s.kx.alarms.testBit src = false ∧ s.pw.power ≠ .off ∧ s.socUp = true ∧ s.beforeTree = false ∧
      tamperLevel s.tamperCfg src = 0) ∧
    (∃ (src : Nat) (s : State),
      src < 6 ∧ s.kx.alarms.testBit src = false ∧ s.pw.power = .up ∧ s.socUp = true ∧ s.beforeTree = false ∧
      tamperLevel s.tamperCfg src = 1) ∧
    (∃ (src : Nat) (s : State),
      src < 6 ∧ s.kx.alarms.testBit src = false ∧ s.pw.power = .listen ∧ 3 ≤ s.copyLevel src) ∧
    (∃ (src : Nat),
      src < 6) ∧
    (∃ (s : State),
      s.pw.power ≠ .off) ∧
    (∃ (src : Nat) (s : State),
      src < 6 ∧ s.kx.alarms.testBit src = false ∧ s.pw.power = .up ∧ s.socUp = true ∧ s.beforeTree = false ∧
      tamperLevel s.tamperCfg src = 2) ∧
    (∃ (src : Nat) (s : State),
      src < 6 ∧ s.kx.alarms.testBit src = false ∧ s.pw.power = .up ∧ s.socUp = true ∧ s.beforeTree = false ∧
      tamperLevel s.tamperCfg src = 3) :=
  ⟨
    ⟨5, cfs [(⟨R.KX_TAMPER_CFG, 0, 32, 10⟩, 0)] { up with pw.start.tree := true },
     by decide +kernel⟩,
    ⟨5, cfs [(⟨R.KX_TAMPER_CFG, 0, 32, 10⟩, 0x400)] { up with pw.start.tree := true },
     by decide +kernel⟩,
    ⟨2, { up with pw.power := .listen },
     by decide +kernel⟩,
    ⟨5,
     by decide +kernel⟩,
    ⟨up,
     by decide +kernel⟩,
    ⟨5,
     keyed (cfs [(⟨R.KX_TAMPER_CFG, 0, 32, 10⟩, 0x800)] { up with pw.start.tree := true, active := imported.active }),
     by decide +kernel⟩,
    ⟨2, keyed (cfs [(⟨R.KX_TAMPER_CFG, 0, 32, 10⟩, 0)] { up with pw.start.tree := true, active := imported.active }),
     by decide +kernel⟩⟩

theorem witness_CipherCommands :
    (∃ (id : Nat) (f : Frame) (w : CeWork) (s : State),
      w.ctx < 4096 ∧ s.frameOf id = some f ∧ f.zombie = false ∧ f.ce = some w ∧ w.done = false ∧ f.rxDone = true ∧
      f.verdict ≠ .drop ∧ (parseSecTag w.wire).icvOk w.key w.iv (ctxOfs s.ceRf w.ctx) w.wire = true) ∧
    (∃ (id : Nat) (f : Frame) (w : CeWork) (s : State),
      w.ctx < 4096 ∧ s.socUp = true ∧ s.frameOf id = some f ∧ f.zombie = false ∧ f.ce = some w ∧ w.done = false ∧
      f.rxDone = true ∧ f.verdict ≠ .drop ∧ s.effMode f.epoch ≠ 0 ∧
      (parseSecTag w.wire).icvOk w.key w.iv (ctxOfs s.ceRf w.ctx) w.wire = false) ∧
    (∃ (id : Nat) (f : Frame) (s : State),
      s.socUp = true ∧ s.frameOf id = some f ∧ f.zombie = false ∧ f.ce = none ∧ f.stage = .looked ∧ f.pass = 1 ∧
      f.verdict = .ok ∧ s.rxChecks f = true ∧ s.ceTurn id f = true ∧ f.rxDone = true ∧ beAt f.bytes 12 2 ≠ 0x88E5 ∧
      linkLocal (beAt f.bytes 0 6) = false ∧ s.cfg f.epoch (F.CE_PORT_CFG_REQUIRE f.port) = 1) ∧
    (∃ (port m key x : Nat) (c : Copy) (rest : List Copy) (f : Frame) (s u : State),
      port < 41 ∧ m < 4 ∧ s.mqOf port m = c :: rest ∧ s.frameOf c.frame = some f ∧ s.ceAtStep9 f port = true ∧
      c.sealed = none ∧ f.verdict = .ok ∧ s.cfg f.epoch (F.CE_PORT_CFG_TX_EN port) ≠ 0 ∧
      x = txCtxOf (s.copyOf f.epoch 11) port (rfGet (s.copyOf f.epoch 11) (F.CE_PORT_CFG_ENC_AN port)) ∧
      ctxKind s.ceRf x = 0 ∧ s.mustDrop c.frame = false ∧ s.ctxAsk x (.tx port m c.frame) = (u, .ready key)) ∧
    (∃ (id : Nat) (f : Frame) (q : SealMsg) (s : State),
      s.socUp = true ∧ s.frameOf id = some f ∧ f.sealIn = some q ∧ f.zombie = false ∧ f.pass ≠ 0 ∧ f.stage = .looked ∧
      f.verdict = .ok ∧ q.msg.data.length < 12) ∧
    (∃ (id key : Nat) (f : Frame) (q : SealMsg) (s u : State),
      s.frameOf id = some f ∧ f.sealIn = some q ∧ f.zombie = false ∧ f.pass ≠ 0 ∧ f.stage = .looked ∧ f.verdict = .ok ∧
      12 ≤ q.msg.data.length ∧ q.msg.format ≠ 0 ∧ s.sealAsk q.ctx (.check id) = (u, .ready key) ∧
      q.msg.data.drop (q.msg.data.length - 12 + 4) = sealTag key { q.msg with data := q.msg.data.take (q.msg.data.length - 12) } (beAt q.msg.data (q.msg.data.length - 12) 4) ∧
      0 < (beAt q.msg.data (q.msg.data.length - 12) 4 + 2 ^ 32 - u.freshLast q.ctx) % 2 ^ 32 ∧
      (beAt q.msg.data (q.msg.data.length - 12) 4 + 2 ^ 32 - u.freshLast q.ctx) % 2 ^ 32 ≤ u.freshWin q.ctx) ∧
    (∃ (i c r key : Nat) (m : CanFrame) (tx : TxNow) (f : Frame) (l : List (Nat × CanFrame × Nat)) (s u : State),
      s.txOf 38 = some tx ∧ s.frameOf tx.copy.frame = some f ∧ State.isWhole f = true ∧
      s.mustDrop tx.copy.frame = false ∧ State.toSeal tx (s.egressBytes f 38) = (i, m, r) :: l ∧
      c = rfGet tx.tables (F.BX_GW_ROUTE_W6_SEAL_CTX r) ∧ s.sealAsk c (.seal tx.copy.frame) = (u, .ready key)) ∧
    (∃ (ctx : Nat) (s : State),
      ctx < 4096 ∧ s.ce.waiting.contains ctx = true ∧ s.ctxValid ctx = true ∧ s.ctxState ctx = 1 ∧
      s.ctxNodeOk ctx = true ∧ s.nodeGen (s.ctxNode ctx) = s.rg (F.CE_CTX_STAT_W0_GEN ctx)) :=
  ⟨
    ⟨5, inCe (wire0 ++ gcmIcv 9 [] wire0 []), ⟨4095, 1, 9, [], wire0 ++ gcmIcv 9 [] wire0 [], false⟩,
     hold 5 (inCe (wire0 ++ gcmIcv 9 [] wire0 [])) up,
     by decide, rfl, rfl, rfl, rfl, rfl, by decide, beq_self_eq_true (gcmIcv 9 [] wire0 [])⟩,
    ⟨5, inCe [], ⟨4095, 1, 9, [], [], false⟩, hold 5 (inCe []) (rgs [(F.SV_MODE_MODE, 2)] up),
     by decide, rfl, rfl, rfl, rfl, rfl, rfl, by decide, by decide +kernel, rfl⟩,
    ⟨5, { fr 23 with bytes := List.replicate 60 2 },
     (let f : Frame := { fr 23 with bytes := List.replicate 60 2 }; hold 5 f (cfs [(F.CE_PORT_CFG_RX_EN 23, 1), (F.CE_PORT_CFG_REQUIRE 23, 1)] up)),
     by decide +kernel⟩,
    ⟨40, 3, 77, 4095, cp 40 7, [], fr 3,
     (let f : Frame := fr 3; (ctxReady 0 4095 (hold 5 f (cfs [(F.CE_PORT_CFG_TX_EN 40, 1), (F.CE_PORT_CFG_ENC_AN 40, 3), (F.CE_TX_CTX23_TX_CTX_AN3 40, 4095)] up))).setMq 40 3 [cp 40 7]),
     (let f : Frame := fr 3; let s : State := (ctxReady 0 4095 (hold 5 f (cfs [(F.CE_PORT_CFG_TX_EN 40, 1), (F.CE_PORT_CFG_ENC_AN 40, 3), (F.CE_TX_CTX23_TX_CTX_AN3 40, 4095)] up))).setMq 40 3 [cp 40 7]; (s.ctxAsk 4095 (.tx 40 3 5)).1),
     by decide +kernel⟩,
    ⟨5, { fr 38 with sealIn := some ⟨4095, 0, 15, { msg12 with data := List.replicate 11 0 }⟩ },
     ⟨4095, 0, 15, { msg12 with data := List.replicate 11 0 }⟩,
     hold 5 { fr 38 with sealIn := some ⟨4095, 0, 15, { msg12 with data := List.replicate 11 0 }⟩ } up,
     by decide +kernel⟩,
    ⟨5, 77, { fr 38 with sealIn := some ⟨4095, 0, 15, sealed⟩ }, ⟨4095, 0, 15, sealed⟩,
     ctxReady 2 4095 (hold 5 { fr 38 with sealIn := some ⟨4095, 0, 15, sealed⟩ } up),
     ((ctxReady 2 4095 (hold 5 { fr 38 with sealIn := some ⟨4095, 0, 15, sealed⟩ } up)).sealAsk 4095 (.check 5)).1,
     rfl, rfl, rfl, by decide, rfl, rfl, by decide, by decide, by rfl, by rfl, by decide +kernel, by decide +kernel⟩,
    ⟨0, 4095, 0, 77, ⟨3, false, false, 2, false, false, 0, 0, 0, false, 0, [9]⟩, p38Takes, downFrame, [],
     (let f : Frame := downFrame; (ctxReady 2 4095 (hold 5 f up)).setTx 38 (some p38Takes)),
     (let f : Frame := downFrame; let s : State := (ctxReady 2 4095 (hold 5 f up)).setTx 38 (some p38Takes); (s.sealAsk 4095 (.seal 5)).1),
     by decide +kernel⟩,
    ⟨4095,
     { rgs [(F.CE_CTX_STAT_W0_STATE 4095, 1), (F.KX_NODE_STAT_W0_STATE 1023, 1)] (cfs [(F.CE_CTX_W0_VALID 4095, 1), (F.CE_CTX_W0_NODE 4095, 1023), (F.KX_NODE_W1_POLICY 1023, 1)] up) with ce.waiting := [4095] },
     by decide +kernel⟩⟩

/-- Handle 3 in a state, owned by the PCIe host over domain 17. -/
def txn (st : TxnState) : Txn := ⟨st, .pcie, 8, 2 ^ 17, 10000, 10000, 0, false, 0, 5, false, false⟩
def txnUp (x : Txn) : State := { up with sv.txns := [(3, x)], sv.booting := false }
/-- Bytes at an offset of the flash. -/
def flashAt (off : Nat) (l : List Byte) : Sparse Byte := ((List.range l.length).map (· + off)).zip l
/-- The first 60 bytes of a journal's header, and one record of it. -/
def jHead : List Byte := [0x4A, 0x4E, 0x4C, 0x31] ++ List.replicate 56 0
def jRec : List Byte := [0x4A, 0x52, 0x45, 0x43, 0, 0, 0xFF, 0xFE, 0, 0, 0, 0]

theorem witness_TransactionCommands :
    (∃ (a : Agent) (set timeout : Nat) (s : State),
      s.reaches a = true ∧ a.ownerCode ≤ 12 ∧ s.txPending a = false ∧ s.sv.booting = false ∧ 0 < set ∧ set < 2 ^ 18 ∧
      (timeout = 0 ∨ 100 ≤ timeout ∧ timeout ≤ 600000) ∧ s.openTxns.length < 4 ∧ s.holderOf set = none) ∧
    (∃ (a : Agent) (set : Nat) (s : State),
      s.reaches a = true ∧ a.ownerCode ≤ 12 ∧ s.txPending a = false ∧ s.deferred a.ownerCode = [] ∧
      s.sv.booting = false ∧ s.openTxns.length < 4 ∧ (set = 0 ∨ 2 ^ 18 ≤ set)) ∧
    (∃ (a : Agent) (set timeout h : Nat) (s : State),
      s.reaches a = true ∧ a.ownerCode ≤ 12 ∧ s.txPending a = false ∧ s.deferred a.ownerCode = [] ∧
      s.sv.booting = false ∧ 0 < set ∧ set < 2 ^ 18 ∧ (timeout = 0 ∨ 100 ≤ timeout ∧ timeout ≤ 600000) ∧
      s.openTxns.length < 4 ∧ s.holderOf set = some h) ∧
    (∃ (h : Nat) (s : State),
      h < 4 ∧ (s.txnOf h).state = .copying ∧ s.copyBlocked (s.txnOf h).set = false) ∧
    (∃ (a : Agent) (h : Nat) (persist : Bool) (s : State),
      s.reaches a = true ∧ a.ownerCode ≤ 12 ∧ s.txPending a = false ∧ h < 4 ∧ (s.txnOf h).state = .opened ∧
      (s.txnOf h).owner = a.ownerCode ∧ (persist = true → s.writerBusy = false) ∧
      s.precondFails (s.txnOf h).set = false) ∧
    (∃ (a : Agent) (h ti sec ns : Nat) (persist : Bool) (s : State),
      s.reaches a = true ∧ a.ownerCode ≤ 12 ∧ s.txPending a = false ∧ h < 4 ∧ ti < 4 ∧ sec < 2 ^ 48 ∧ ns < giga ∧
      (s.txnOf h).state = .opened ∧ (s.txnOf h).owner = a.ownerCode ∧ (persist = true → s.writerBusy = false) ∧
      s.precondFails (s.txnOf h).set = false ∧ s.tiNs ti < giga * sec + ns ∧ giga * sec + ns ≤ 600 * giga + s.tiNs ti) ∧
    (∃ (a : Agent) (h : Nat) (s : State),
      s.reaches a = true ∧ a.ownerCode ≤ 12 ∧ s.txPending a = false ∧ h < 4 ∧ (s.txnOf h).state ≠ .free ∧
      (s.txnOf h).owner = a.ownerCode) ∧
    (∃ (a : Agent) (h : Nat) (s : State),
      s.reaches a = true ∧ a.ownerCode ≤ 12 ∧ s.txPending a = false ∧ h < 4 ∧
      ((s.txnOf h).state = .opened ∨ (s.txnOf h).state = .copying) ∧ (s.txnOf h).owner = a.ownerCode) ∧
    (∃ (h : Nat) (s : State),
      h < 4 ∧ ((s.txnOf h).state = .copying ∨ (s.txnOf h).state = .opened)) :=
  ⟨
    ⟨.core 0, 2 ^ 18 - 1, 600000, { up with sv.booting := false },
     by decide +kernel⟩,
    ⟨.pcie, 2 ^ 18, { up with sv.booting := false },
     by decide +kernel⟩,
    ⟨.core 0, 2 ^ 17, 100, 3, txnUp (txn .opened),
     by decide +kernel⟩,
    ⟨3, { txnUp (txn .copying) with active := [(17, [(0, 5)])] },
     by decide +kernel⟩,
    ⟨.pcie, 3, true, txnUp (txn .opened),
     by decide +kernel⟩,
    ⟨.pcie, 3, 3, 600, 0, true, txnUp (txn .opened),
     by decide +kernel⟩,
    ⟨.pcie, 3, txnUp (txn .opened),
     by decide +kernel⟩,
    ⟨.pcie, 3, txnUp (txn .copying),
     by decide +kernel⟩,
    ⟨3, txnUp (txn .copying),
     by decide +kernel⟩⟩

theorem witness_CommitCommands :
    (∃ (h : Nat) (s : State),
      h < 4 ∧ (s.txnOf h).state = .held ∧ (s.txnOf h).time ≤ s.tiNs (s.txnOf h).ti) ∧
    (∃ (h : Nat) (s : State),
      h < 4 ∧ (s.txnOf h).state = .draining ∧ s.drained = true ∧ (s.txnOf h).wasHeld = false ∧ s.sv.recopy = 0) ∧
    (∃ (s : State),
      s.drainWaited = true ∧ s.sv.recopy = 0) ∧
    (∃ (id : Nat) (f : Frame) (s : State),
      s.drainWaited = true ∧ s.sv.recopy = 0 ∧ s.busyQueues = [] ∧ (∀ p < 41, ∀ m < 4, s.mqOf p m = []) ∧
      (∀ p < 41, s.txOf p = none) ∧ s.allFrames = [(id, f)] ∧ s.agedId id = true ∧ f.stage ≠ .queued ∧
      f.rxDone = true) :=
  ⟨
    ⟨3, { txnUp (txn .held) with te.ti := [(0, ⟨0, 5, 0⟩)] },
     by decide +kernel⟩,
    ⟨3, { txnUp (txn .draining) with shadow := [(17, [(0, 5)])] },
     by decide +kernel⟩,
    ⟨(let f : Frame := fr 3; { rgs [(F.SV_TX_EPOCH_EPOCH, 1)] (hold 5 f (txnUp (txn .draining))) with now := 10000000000 }),
     by decide +kernel⟩,
    ⟨5, fr 3,
     (let f : Frame := fr 3; { rgs [(F.SV_TX_EPOCH_EPOCH, 1)] (hold 5 f (txnUp (txn .draining))) with now := 10000000000 }),
     by decide +kernel⟩⟩

theorem witness_ShadowViewWrite :
    (∃ (a : Agent) (off d : Nat) (s : State) (r : RegRow),
      s.reaches a = true ∧ off % 4 = 0 ∧ 0x800000 ≤ off % 0x1000000 ∧ regRow (off - 0x800000) = some r ∧
      r.cd = some d ∧ r.rsOf d = true ∧ s.shadowMine a d = true) ∧
    (∃ (a : Agent) (off d : Nat) (s : State) (r : RegRow),
      s.reaches a = true ∧ s.socUp = true ∧ off % 4 = 0 ∧ 0x800000 ≤ off % 0x1000000 ∧
      regRow (off - 0x800000) = some r ∧ r.cd = some d ∧ r.rsOf d = true ∧ s.shadowMine a d = false) :=
  ⟨
    ⟨.pcie, (F.OB_PMU_SEL_EVENT 3).off + 0x800000, 17, txnUp { txn .opened with set := 2 ^ 18 - 1 },
     (let off : Nat := (F.OB_PMU_SEL_EVENT 3).off + 0x800000; rowAt (off - 0x800000)),
     by decide +kernel⟩,
    ⟨.core 0, (F.OB_PMU_SEL_EVENT 3).off + 0x800000, 17, txnUp { txn .opened with set := 2 ^ 18 - 1 },
     (let off : Nat := (F.OB_PMU_SEL_EVENT 3).off + 0x800000; rowAt (off - 0x800000)),
     by decide +kernel⟩⟩

theorem witness_LoadCommands :
    (∃ (s : State),
      s.socUp = true ∧ s.pw.start.firmware = true ∧ s.sv.booting = true ∧ s.sv.loading = false ∧
      s.rg F.SV_CFG_STATUS_END_CAUSE = 0) ∧
    (∃ (s : State),
      s.sv.loading = true ∧ s.sv.loadPos + 8 ≤ 0x800000 ∧
      s.nvByte (nvBank (s.rg F.SV_CFG_STATUS_BANK) + s.sv.loadPos + 1) = 0xFF) ∧
    (∃ (s : State) (type len : Nat),
      s.sv.loading = true ∧ type < 256 ∧ type ≠ 0xFF ∧ 4 < type ∧
      (¬(type = 0xFE ∧ s.nvByte (nvBank (s.rg F.SV_CFG_STATUS_BANK) + s.sv.loadPos) = 0)) ∧
      s.nvByte (nvBank (s.rg F.SV_CFG_STATUS_BANK) + s.sv.loadPos + 1) = Byte.ofNat type ∧
      len = ofLe (s.nvRead (nvBank (s.rg F.SV_CFG_STATUS_BANK) + s.sv.loadPos + 4) 4) / 4 * 4 ∧
      s.sv.loadPos + 8 + len ≤ 0x800000) ∧
    (∃ (s : State) (cd fmt off pos : Nat) (w : Word) (r : RegRow),
      s.sv.loading = true ∧ cd < 18 ∧ fmt < 2 ∧ pos = nvBank (s.rg F.SV_CFG_STATUS_BANK) + s.sv.loadPos ∧
      s.sv.loadPos + 16 ≤ 0x800000 ∧ ofLe (s.nvRead pos 1) = cd ∧ ofLe (s.nvRead (pos + 1) 1) = 1 ∧
      ofLe (s.nvRead (pos + 2) 1) = fmt ∧ ofLe (s.nvRead (pos + 4) 4) = 8 ∧ ofLe (s.nvRead (pos + 8) 4) = off ∧
      Word.ofNat (ofLe (s.nvRead (pos + 12) 4)) = w ∧ cdRow cd off = some r) ∧
    (∃ (s : State),
      s.socUp = true ∧ s.sv.booting = true ∧ s.sv.loading = false ∧ s.rg F.SV_CFG_STATUS_END_CAUSE ≠ 0) :=
  ⟨
    ⟨{ up with pw.start.firmware := true },
     by decide +kernel⟩,
    ⟨{ up with sv.loading := true, sv.loadPos := 0x800000 - 8 },
     by decide +kernel⟩,
    ⟨{ up with sv.loading := true, nv.flash := [(0x10000, 0), (0x10001, 0x55), (0x10002, 1), (0x10003, 0), (0x10004, 9), (0x10005, 0), (0x10006, 0), (0x10007, 0)] },
     0x55, 8,
     by decide +kernel⟩,
    ⟨{ up with sv.loading := true, nv.flash := flashAt 0x10000 [13, 1, 1, 0, 8, 0, 0, 0, 0, 0x10, 0, 0xA, 0xFF, 0xFF, 0xFF, 0xFF] },
     13, 1, 0xA001000, 0x10000, 0xFFFFFFFF, rowAt 0xA001000,
     by decide +kernel⟩,
    ⟨{ rgs [(F.SV_CFG_STATUS_END_CAUSE, 1)] up with shadow := [(17, [(0, 5)])] },
     by decide +kernel⟩⟩

theorem witness_FlashCommands :
    (∃ (c : Fin 8) (off n sector : Nat) (bytes : List Byte) (s : State),
      s.reaches (.core c) = true ∧ bytes.length = n ∧ nvCustomer + 4096 * sector + off + n ≤ s.nvSize ∧
      nvCustomer + 4096 * sector + 4096 ≤ s.nvSize) ∧
    (∃ (n : Nat) (image : List Byte) (s : State),
      n < 4 ∧ s.reaches (.bersan (Fin.ofNat 4 n)) = true ∧ s.writerBusy = false ∧ 0 < image.length) ∧
    (∃ (n : Nat) (s : State),
      n < 4 ∧ s.reaches (.bersan (Fin.ofNat 4 n)) = true ∧ s.writerBusy = true) ∧
    (∃ (k : FlashKind) (a : FlashArea) (as : List FlashArea) (rest : List FlashTask) (s : State),
      s.socUp = true ∧ s.sv.tasks = ⟨k, a :: as⟩ :: rest ∧
      trimAreas ((if a.erasing then a.afterErase else a.afterPage) :: as) ≠ []) ∧
    (∃ (b : Agent) (bank seq : Nat) (a : FlashArea) (rest : List FlashTask) (s : State),
      s.socUp = true ∧ s.sv.tasks = ⟨.persist b bank seq, [a]⟩ :: rest ∧
      trimAreas [if a.erasing then a.afterErase else a.afterPage] = []) ∧
    (∃ (b : Agent) (bank seq : Nat) (a : FlashArea) (as : List FlashArea) (rest : List FlashTask) (s : State),
      s.socUp = true ∧ s.sv.tasks = ⟨.persist b bank seq, a :: as⟩ :: rest) ∧
    (∃ (s : State),
      s.booted = true ∧ s.firstStart = true ∧ s.writerBusy = false ∧ s.rg F.SV_CFG_SKIPPED_COUNT = 0 ∧
      s.rg F.SV_CFG_UNKNOWN_COUNT = 0 ∧ s.sv.oldFmt = true) ∧
    (∃ (c : Fin 8) (off n sector : Nat) (bytes : List Byte) (s : State),
      s.reaches (.core c) = true ∧ bytes.length = n ∧ nvLedger + 4096 * sector + off + n ≤ nvCustomer) :=
  ⟨
    ⟨7, 4092, 4, 0xD, [1, 2, 3, 4], up,
     by decide +kernel⟩,
    ⟨3, [1, 2], { up with sv.bersan := [(3, some 3)] },
     by decide +kernel⟩,
    ⟨3, { up with sv.bersan := [(3, some 3)], sv.reserved := true },
     by decide +kernel⟩,
    ⟨.enroll .sv, ⟨0, 1, List.replicate 300 5, 0, true⟩, [], [],
     { up with sv.tasks := [⟨.enroll .sv, [⟨0, 1, List.replicate 300 5, 0, true⟩]⟩] },
     by decide +kernel⟩,
    ⟨.pcie, 1, 7, ⟨0, 0, [5], 0, false⟩, [], { up with sv.tasks := [⟨.persist .pcie 1 7, [⟨0, 0, [5], 0, false⟩]⟩] },
     by decide +kernel⟩,
    ⟨.pcie, 1, 7, ⟨0, 1, [5], 0, true⟩, [], [],
     { up with sv.tasks := [⟨.persist .pcie 1 7, [⟨0, 1, [5], 0, true⟩]⟩] },
     by decide +kernel⟩,
    ⟨{ rgs [(F.SV_CFG_STATUS_DONE, 1)] up with sv.oldFmt := true, nv.flash := flashAt nvJournal (jHead ++ beBytes 4 (crc32c jHead)) ++ flashAt (nvJournal + 4096) (jRec ++ beBytes 4 (crc32c jRec)) },
     by decide +kernel⟩,
    ⟨7, 4092, 4, 1, [1, 2, 3, 4], up,
     by decide +kernel⟩⟩

/-- An activity of Mend. -/
def mend (id kind unit : Nat) : Mend := ⟨id, kind, unit, .pcie, 8, false, 0⟩
def mendUp (l : List Mend) : State := { up with mend := ⟨l, [], 254, []⟩ }

theorem witness_MendCommands :
    (∃ (a : Agent) (kind unit : Nat) (s : State),
      s.reaches a = true ∧ a.ownerCode ≤ 12 ∧ s.txPending a = false ∧ s.deferred a.ownerCode = [] ∧ kind < 16 ∧
      unit < 256 ∧ s.mendCheck kind unit = none) ∧
    (∃ (a : Agent) (kind unit code id : Nat) (s : State),
      s.reaches a = true ∧ s.socUp = true ∧ a.ownerCode ≤ 12 ∧ s.txPending a = false ∧ s.deferred a.ownerCode = [] ∧
      kind < 16 ∧ unit < 256 ∧ s.mendCheck kind unit = some (code, id)) ∧
    (∃ (a : Agent) (id : Nat) (m : Mend) (s : State),
      s.reaches a = true ∧ a.ownerCode ≤ 12 ∧ s.txPending a = false ∧ id < 256 ∧ s.mendOf id = some m ∧
      m.owner = a.ownerCode) ∧
    (∃ (a : Agent) (id : Nat) (m : Mend) (s : State),
      s.reaches a = true ∧ a.ownerCode ≤ 12 ∧ s.txPending a = false ∧ s.deferred a.ownerCode = [] ∧ id < 256 ∧
      s.mendOf id = some m ∧ m.owner ≠ a.ownerCode) ∧
    (∃ (id : Nat) (m : Mend) (s : State),
      s.mendOf id = some m ∧ m.owner ≠ 14 ∧ m.kind ≠ 1 ∧ m.kind ≠ 5 ∧ m.kind ≠ 8) ∧
    (∃ (id : Nat) (m : Mend) (s : State),
      s.mendOf id = some m ∧ m.owner ≠ 14 ∧ (m.kind = 5 ∨ m.kind = 8) ∧
      s.mend.stopped.any (fun e => decide (e.1 = id)) = true) ∧
    (∃ (id : Nat) (m : Mend) (s : State),
      s.mendOf id = some m ∧ m.owner ≠ 14 ∧ (m.kind = 5 ∨ m.kind = 8) ∧ (∀ e ∈ s.mend.stopped, e.1 ≠ id)) :=
  ⟨
    ⟨.pcie, 4, 7, mendUp [],
     by decide +kernel⟩,
    ⟨.pcie, 1, 16, 0x14, 0, mendUp [],
     by decide +kernel⟩,
    ⟨.pcie, 255, mend 255 4 7, mendUp [mend 255 4 7],
     by decide +kernel⟩,
    ⟨.core 0, 255, mend 255 4 7, mendUp [mend 255 4 7],
     by decide +kernel⟩,
    ⟨255, mend 255 4 7, mendUp [mend 255 4 7],
     by decide +kernel⟩,
    ⟨255, mend 255 8 40, { up with mend := ⟨[mend 255 8 40], [], 254, [(255, .pcie)]⟩ },
     by decide +kernel⟩,
    ⟨255, mend 255 8 40, mendUp [mend 255 8 40],
     by decide +kernel⟩⟩

theorem witness_FaultCommands :
    (∃ (id : Nat) (m : Mend) (s : State),
      s.mendOf id = some m ∧ m.kind = 1 ∧ m.owner ≠ 14) ∧
    (∃ (id fid : Nat) (m : Mend) (f : Frame) (s : State),
      s.mendOf id = some m ∧ m.kind = 1 ∧ m.owner ≠ 14 ∧ s.busyQueues = [] ∧ (∀ p < 41, ∀ k < 4, s.mqOf p k = []) ∧
      (∀ p < 41, s.txOf p = none) ∧ s.allFrames = [(fid, f)] ∧ s.inBank m.unit fid = true ∧ f.stage ≠ .queued ∧
      f.rxDone = true) ∧
    (∃ (bank : Nat) (s : State),
      s.socUp = true ∧ bank < 16 ∧ s.bankOut bank = false) ∧
    (∃ (bank : Nat) (s : State),
      s.bankOut bank = true) ∧
    (∃ (pair ctx : Nat) (s : State),
      s.socUp = true ∧ pair < 8 ∧ ctx < 4096 ∧ s.pairs.contains pair = true) ∧
    (∃ (pair ctx : Nat) (s : State),
      s.socUp = true ∧ pair < 8 ∧ ctx < 4096 ∧ s.pairs.contains pair = true) :=
  ⟨
    ⟨255, mend 255 1 15, hold 5 { fr 3 with cells := [15] } (mendUp [mend 255 1 15]),
     by decide +kernel⟩,
    ⟨255, 5, mend 255 1 15, { fr 3 with cells := [15] },
     (let f : Frame := { fr 3 with cells := [15] }; hold 5 f (mendUp [mend 255 1 15])),
     by decide +kernel⟩,
    ⟨15, up,
     by decide +kernel⟩,
    ⟨15, rgs [(F.SV_MEND_SERVICE_BANKS, 0x7FFF)] up,
     by decide +kernel⟩,
    ⟨7, 4095, up,
     by decide +kernel⟩,
    ⟨7, 4095, up,
     by decide +kernel⟩⟩

/-- The SoC die runs in a mode with its start completed. -/
def inMode (m : Nat) : State := rgs [(F.SV_MODE_RAMPING, 0), (F.SV_MODE_MODE, m)] up
/-- The power die in a state of its rails. -/
def power (p : Power) (rail : Nat) : State := { State.reset with pw := { pwFresh with power := p, rail := rail } }
def started (st : Start) : State := { up with pw.start := st }
def rom : Start := { startFresh with rom := true }
def firmware : Start := { rom with tested := true, firmware := true }

theorem witness_ModeRequests :
    (∃ (a : Agent) (s : State),
      s.reaches a = true ∧ s.modeBusy = false ∧ s.inRun = true) ∧
    (∃ (a : Agent) (s : State),
      s.reaches a = true ∧ s.modeBusy = false ∧ s.mode = 2) ∧
    (∃ (a : Agent) (s : State),
      s.reaches a = true ∧ s.modeBusy = false ∧ s.partialOrRun = true) ∧
    (∃ (a : Agent) (s : State),
      s.reaches a = true ∧ s.modeBusy = false ∧ s.mode ≠ 6 ∧ s.pw.power = .up ∧ s.pw.resetN = false ∧
      (s.pw.start.tested = true ∨ s.pw.start.origin ≠ s.now)) ∧
    (∃ (n : Fin 4) (s : State),
      s.reaches (.bersan n) = true ∧ s.modeBusy = false ∧ s.mode ≠ 6 ∧ s.mode ≠ 7 ∧ s.rg F.KX_STAT_LC = 1 ∧
      s.sessionNode n.val = some 3) ∧
    (∃ (a : Agent) (s : State),
      s.reaches a = true ∧ s.socUp = true ∧ s.modeBusy = true) ∧
    (∃ (a : Agent) (s : State),
      s.reaches a = true ∧ s.socUp = true ∧ s.modeBusy = false) ∧
    (∃ (a : Agent) (s : State),
      s.reaches a = true ∧ s.socUp = true ∧ s.modeBusy = false ∧ (s.mode = 6 ∨ s.mode = 7)) ∧
    (∃ (a : Agent) (s : State),
      s.reaches a = true ∧ s.socUp = true ∧ s.modeBusy = false ∧ s.mode ≠ 6 ∧ s.mode ≠ 7 ∧
      (s.rg F.KX_STAT_LC = 1 → ∀ n : Fin 4, a = .bersan n → s.sessionNode n.val ≠ some 3)) :=
  ⟨
    ⟨.sv, inMode 5,
     by decide +kernel⟩,
    ⟨.sv, inMode 2,
     by decide +kernel⟩,
    ⟨.sv, inMode 2,
     by decide +kernel⟩,
    ⟨.sv, { inMode 7 with pw.start.tested := true },
     by decide +kernel⟩,
    ⟨3, { rgs [(F.KX_STAT_LC, 1)] (inMode 2) with sv.bersan := [(3, some 3)], pw.cxReset := false },
     by decide +kernel⟩,
    ⟨.sv, rgs [(F.SV_MODE_RAMPING, 1)] up,
     by decide +kernel⟩,
    ⟨.sv, inMode 2,
     by decide +kernel⟩,
    ⟨.sv, inMode 7,
     by decide +kernel⟩,
    ⟨.sv, rgs [(F.KX_STAT_LC, 1)] (inMode 2),
     by decide +kernel⟩⟩

theorem witness_ModeSteps :
    (∃ (k : Nat) (s : State),
      s.socUp = true ∧ s.pw.moving = .toRun k ∧ k < 4) ∧
    (∃ (s : State),
      s.socUp = true ∧ s.pw.moving = .toRun 4) ∧
    (∃ (k : Nat) (s : State),
      s.socUp = true ∧ s.pw.moving = .toPartial k ∧ k < 3) ∧
    (∃ (s : State),
      s.socUp = true ∧ s.pw.moving = .toPartial 3 ∧ s.pw.foldDue = false ∧ s.pw.runWanted = false) ∧
    (∃ (s : State),
      s.socUp = true ∧ s.pw.moving = .toListen true ∧ s.entryWaits = false) ∧
    (∃ (s : State),
      s.pw.power = .falling ∧ s.pw.fallRetry = false ∧ s.pw.wakeLatched = false ∧
      (∀ d ∈ s.validSds, (s.sdOf d).latched = false)) ∧
    (∃ (s : State),
      s.pw.power = .falling ∧ s.pw.fallRetry = false ∧ s.pw.wakeLatched = true) ∧
    (∃ (src unit : Nat) (s : State),
      s.pw.power = .listen ∧ src < 13 ∧ s.masked (State.wakeInst src unit) = false) ∧
    (∃ (src : Nat) (s : State),
      (s.pw.power ≠ .listen ∨ 13 ≤ src)) ∧
    (∃ (s : State),
      s.pw.power = .falling ∧ s.pw.fallRetry = true ∧ s.pw.wakeLatched = false) :=
  ⟨
    ⟨3, { up with pw.moving := .toRun 3 },
     by decide +kernel⟩,
    ⟨{ up with pw.moving := .toRun 4, pw.cxReset := false },
     by decide +kernel⟩,
    ⟨2, { up with pw.moving := .toPartial 2 },
     by decide +kernel⟩,
    ⟨{ up with pw.moving := .toPartial 3 },
     by decide +kernel⟩,
    ⟨{ up with pw.moving := .toListen true },
     by decide +kernel⟩,
    ⟨power .falling 6,
     by decide +kernel⟩,
    ⟨{ power .falling 6 with pw.wakeLatched := true },
     by decide +kernel⟩,
    ⟨12, 5, power .listen 0,
     by decide +kernel⟩,
    ⟨13, power .listen 0,
     by decide +kernel⟩,
    ⟨{ power .falling 0 with pw.fallRetry := true },
     by decide +kernel⟩⟩

theorem witness_StartCommands :
    (∃ (s : State),
      s.socUp = true ∧ s.pw.start.rom = true ∧ s.pw.start.tested = false ∧ s.pw.rescue = false ∧ s.pw.cause ≠ 5 ∧
      s.pw.rescueReq = false ∧ s.copyMarked = false) ∧
    (∃ (s : State),
      s.socUp = true ∧ s.pw.start.rom = true ∧ s.pw.start.tested = false ∧ s.pw.rescue = false ∧
      (s.pw.cause = 5 ∨ s.pw.rescueReq = true)) ∧
    (∃ (s : State),
      s.socUp = true ∧ s.pw.start.tested = true ∧ s.pw.start.firmware = false ∧ s.pw.rescue = false ∧
      s.upd.copy.running = false) ∧
    (∃ (s : State),
      s.socUp = true ∧ s.pw.start.firmware = true ∧ s.pw.start.tree = false) ∧
    (∃ (s : State),
      s.socUp = true ∧ s.pw.start.firmware = true) ∧
    (∃ (s : State),
      s.socUp = true ∧ s.pw.start.rom = true ∧ s.pw.start.ramped = false) ∧
    (∃ (s : State),
      s.socUp = true ∧ s.pw.start.trained = true ∧ s.pw.start.zeroed = false) ∧
    (∃ (s : State),
      s.booted = true ∧ s.pw.rescue = false ∧ s.pw.start.ramped = false ∧ s.pw.start.tree = true ∧
      s.pw.start.zeroed = true ∧ s.pw.start.calibrated = true ∧ s.act F.SV_MODE_CFG_TARGET = 1 ∧ s.pw.foldDue = false ∧
      s.pw.runWanted = false) :=
  ⟨
    ⟨started rom,
     by decide +kernel⟩,
    ⟨{ started rom with pw.cause := 5 },
     by decide +kernel⟩,
    ⟨started { rom with tested := true },
     by decide +kernel⟩,
    ⟨started firmware,
     by decide +kernel⟩,
    ⟨started firmware,
     by decide +kernel⟩,
    ⟨started rom,
     by decide +kernel⟩,
    ⟨started { firmware with trained := true },
     by decide +kernel⟩,
    ⟨cfs [(F.SV_MODE_CFG_TARGET, 1)] (rgs [(F.SV_CFG_STATUS_DONE, 1)] (started { firmware with tree := true, zeroed := true, calibrated := true })),
     by decide +kernel⟩⟩

theorem witness_RailCommands :
    (∃ (s : State),
      s.pw.power = .off) ∧
    (∃ (s : State),
      s.pw.power = .trims) ∧
    (∃ (s : State),
      s.pw.power ≠ .off) ∧
    (∃ (n : Nat) (s : State),
      s.pw.power = .rising ∧ s.pw.rail = n ∧ n < 6) ∧
    (∃ (n : Nat) (s : State),
      s.pw.power = .rising ∧ s.pw.rail = n ∧ n < 6) ∧
    (∃ (n : Nat) (s : State),
      s.pw.power = .up ∧ n < 6) ∧
    (∃ (s : State),
      s.pw.power = .retry) ∧
    (∃ (s : State),
      s.pw.power = .rising ∧ s.pw.rail = 6 ∧ s.pw.resetN = false) ∧
    (∃ (s : State),
      s.pw.power ≠ .off) ∧
    (∃ (n : Nat) (s : State),
      s.pw.power = .falling ∧ s.pw.rail = n ∧ 0 < n ∧ n < 6) ∧
    (∃ (s : State),
      s.pw.power = .falling ∧ s.pw.fallRetry = true) :=
  ⟨
    ⟨State.reset,
     by decide +kernel⟩,
    ⟨power .trims 0,
     by decide +kernel⟩,
    ⟨power .listen 0,
     by decide +kernel⟩,
    ⟨5, power .rising 5,
     by decide +kernel⟩,
    ⟨5, power .rising 5,
     by decide +kernel⟩,
    ⟨5, up,
     by decide +kernel⟩,
    ⟨power .retry 0,
     by decide +kernel⟩,
    ⟨power .rising 6,
     by decide +kernel⟩,
    ⟨up,
     by decide +kernel⟩,
    ⟨5, power .falling 5,
     by decide +kernel⟩,
    ⟨{ power .falling 3 with pw.fallRetry := true },
     by decide +kernel⟩⟩

theorem witness_ResetCommands :
    (∃ (s : State),
      s.socUp = true ∧ s.pw.resetN = false ∧ (s.pw.start.tested = true ∨ s.pw.start.origin ≠ s.now)) ∧
    (∃ (a : Agent) (data : Word) (s : State),
      s.reaches a = true ∧ s.pw.power = .up ∧ s.pw.resetN = false ∧ F.SV_RESET_KEY.get data = 0x4E57 ∧
      F.SV_RESET_SOC.get data = 1 ∧ (s.pw.start.tested = true ∨ s.pw.start.origin ≠ s.now)) ∧
    (∃ (a : Agent) (data : Word) (s : State),
      s.reaches a = true ∧ F.SV_RESET_KEY.get data ≠ 0x4E57) ∧
    (∃ (s : State),
      s.pw.power = .up ∧ (s.pw.start.tested = true ∨ s.pw.start.origin ≠ s.now)) ∧
    (∃ (s : State),
      s.pw.power = .up ∧ s.pw.held = true) ∧
    (∃ (s : State),
      s.socUp = true ∧ s.pw.resetN = false ∧ s.pw.start.tested = false ∧ s.pw.start.origin = s.now) ∧
    (∃ (s : State),
      s.socUp = true ∧ s.pw.resetN = false) :=
  ⟨
    ⟨{ up with now := 5 },
     by decide +kernel⟩,
    ⟨.sv, F.SV_RESET_KEY.put (F.SV_RESET_SOC.put 0 1) 0x4E57, { up with now := 5 },
     by decide +kernel⟩,
    ⟨.sv, F.SV_RESET_KEY.put (F.SV_RESET_SOC.put 0 1) 0x4E56, up,
     by decide +kernel⟩,
    ⟨{ up with pw.start.tested := true },
     by decide +kernel⟩,
    ⟨{ up with pw.held := true, pw.resetN := true },
     by decide +kernel⟩,
    ⟨{ up with pw.cause := 3 },
     by decide +kernel⟩,
    ⟨{ up with pw.startFb := 5, pw.startFull := 7 },
     by decide +kernel⟩⟩

def bootedUp : State := rgs [(F.SV_CFG_STATUS_DONE, 1)] up
/-- A T1S port that runs PLCA as node 5. -/
def t1s (q : Nat) : State :=
  rgs [(F.PX_PORT_STAT_LINK 35, 1)] (cfs [(F.PX_PLCA_CFG_PLCA_EN 35, 1), (F.PX_PLCA_CFG_NODE_ID 35, 5), (F.PX_T1S_GUARD_QUAR_EN 35, q), (F.PX_T1S_GUARD_IDCOL_LIM 35, 3), (F.PX_T1S_GUARD_QUAR_T 35, 1)] up)

theorem witness_LinkCommands :
    (∃ (port r : Nat) (s : State),
      port < 24 ∧ s.socUp = true ∧ s.laneRate port = some r ∧ r < 8 ∧ s.portAllowed port = true ∧
      s.rg (F.PX_PORT_STAT_FAULT port) = 0 ∧ s.portUp port = false) ∧
    (∃ (port : Nat) (s : State),
      port < 24 ∧ s.socUp = true ∧ s.portUp port = true) ∧
    (∃ (port : Nat) (s : State),
      port < 24 ∧ s.socUp = true ∧ s.rg (F.PX_PORT_STAT_FAULT port) = 0) ∧
    (∃ (port : Nat) (s : State),
      port < 24 ∧ s.rg (F.PX_PORT_STAT_FAULT port) = 1) ∧
    (∃ (port rate : Nat) (s : State),
      port < 24 ∧ s.anMode port = true ∧ s.portRate port = rate) ∧
    (∃ (port : Nat) (s : State),
      port < 41 ∧ s.socUp = true ∧ s.sx.flushing.testBit port = true) ∧
    (∃ (port : Nat) (s : State),
      port < 24 ∧ s.rg (F.PX_PORT_STAT_FAULT port) = 1 ∧ s.px.localFault.testBit port = true) :=
  ⟨
    ⟨23, 5,
     { cfs [(F.PX_PORT_CFG_ADMIN 23, 1), (F.PX_PORT_CFG_LANE_MODE 23, 1)] (rgs [(F.SV_MODE_MODE, 4), (F.SV_MODE_RAMPING, 0)] bootedUp) with pw.start := { startFresh with calibrated := true, ramped := true } },
     by decide +kernel⟩,
    ⟨23, portOn 23 up,
     by decide +kernel⟩,
    ⟨23, up,
     by decide +kernel⟩,
    ⟨23, { rgs [(F.PX_PORT_STAT_FAULT 23, 1)] up with px.localFault := 2 ^ 23 },
     by decide +kernel⟩,
    ⟨23, 7, rgs [(F.PX_PORT_STAT_RATE 23, 7)] (cfs [(F.PX_PORT_CFG_AN_EN 23, 1), (F.PX_PORT_CFG_LANE_MODE 23, 2)] up),
     by decide +kernel⟩,
    ⟨40, { up with sx.flushing := 2 ^ 40 },
     by decide +kernel⟩,
    ⟨23, { rgs [(F.PX_PORT_STAT_FAULT 23, 1)] up with px.localFault := 2 ^ 23 },
     by decide +kernel⟩⟩

theorem witness_MdioCommands :
    (∃ (r1 : Nat) (s : State),
      s.booted = true ∧ s.act F.PX_RGMII_CFG_LINK_SRC = 0 ∧ s.px.mdio = none ∧ s.portUp 40 = false ∧
      r1.testBit 2 = true ∧ s.act (F.PX_PORT_CFG_ADMIN 40) = 1 ∧ s.rg (F.PX_PORT_STAT_MEND 40) = 0) ∧
    (∃ (r1 : Nat) (s : State),
      s.booted = true ∧ s.act F.PX_RGMII_CFG_LINK_SRC = 0 ∧ s.px.mdio = none ∧ s.portUp 40 = true ∧
      r1.testBit 2 = false) ∧
    (∃ (s : State),
      s.booted = true ∧ s.act F.PX_RGMII_CFG_LINK_SRC = 0 ∧ s.px.mdio ≠ none) ∧
    (∃ (a : Agent) (data : Word) (s : State),
      s.reaches a = true ∧ F.PX_MDIO_CMD_GO.get data = 1 ∧ s.px.mdio = none) ∧
    (∃ (a : Agent) (s : State),
      s.reaches a = true ∧ s.px.mdio ≠ none) ∧
    (∃ (data : Nat) (a : Agent) (write : Bool) (s : State),
      s.socUp = true ∧ s.px.mdio = some (a, write) ∧ s.px.poll = none ∧ data < 65536) :=
  ⟨
    ⟨4, cfs [(F.PX_PORT_CFG_ADMIN 40, 1), (F.PX_RGMII_CFG_LINK_SRC, 0)] bootedUp,
     by decide +kernel⟩,
    ⟨0, portOn 40 (cfs [(F.PX_RGMII_CFG_LINK_SRC, 0)] bootedUp),
     by decide +kernel⟩,
    ⟨{ cfs [(F.PX_RGMII_CFG_LINK_SRC, 0)] bootedUp with px.mdio := some (.sv, true) },
     by decide +kernel⟩,
    ⟨.sv, F.PX_MDIO_CMD_GO.put 0x12345678 1, up,
     by decide +kernel⟩,
    ⟨.sv, { rgs [(F.PX_MDIO_CMD_BUSY, 1)] up with px.mdio := some (.core 7, false) },
     by decide +kernel⟩,
    ⟨65535, .core 7, false, { rgs [(F.PX_MDIO_CMD_BUSY, 1)] up with px.mdio := some (.core 7, false) },
     by decide +kernel⟩⟩

theorem witness_PauseCommands :
    (∃ (port q : Nat) (s : State),
      hasFc port = true ∧ s.portUp port = true ∧ s.rg (F.PX_PORT_STAT_HOLDOFF port) ≠ 1 ∧ s.fcActs port 8 = true ∧
      0 < q) ∧
    (∃ (port : Nat) (s : State),
      hasFc port = true ∧ s.portUp port = true ∧ s.rg (F.PX_PORT_STAT_HOLDOFF port) = 1) ∧
    (∃ (dmac opcode : Nat),
      (dmac ≠ 0x0180C2000001 ∨ opcode ≠ 1)) ∧
    (∃ (opcode : Nat),
      opcode ≠ 0x0101) ∧
    (∃ (port k : Nat) (s : State),
      hasFc port = true ∧ s.portUp port = true ∧ k < 8 ∧ s.rg (F.PX_PORT_STAT_HOLDOFF port) ≠ 1) ∧
    (∃ (port k : Nat),
      hasFc port = true ∧ k < 9) ∧
    (∃ (port k : Nat) (s : State),
      hasFc port = true ∧ k < 9 ∧ s.socUp = true ∧ s.isPaused port k = true) ∧
    (∃ (port : Nat),
      hasFc port = true) :=
  ⟨
    ⟨40, 65535, cfs [(F.PX_FC_CFG_FC_MODE 40, 1)] (portOn 40 up),
     by decide +kernel⟩,
    ⟨23, rgs [(F.PX_PORT_STAT_HOLDOFF 23, 1)] (portOn 23 up),
     by decide +kernel⟩,
    ⟨0x0180C2000002, 1,
     by decide +kernel⟩,
    ⟨0x0102,
     by decide +kernel⟩,
    ⟨40, 7, cfs [(F.PX_FC_CFG_FC_MODE 40, 2), (F.PX_FC_CFG_PFC_EN 40, 255)] (portOn 40 up),
     by decide +kernel⟩,
    ⟨40, 8,
     by decide +kernel⟩,
    ⟨40, 8, rgs [(F.PX_PORT_STAT_PAUSED 40, 1)] up,
     by decide +kernel⟩,
    ⟨40,
     by decide +kernel⟩⟩

theorem witness_T1sCommands :
    (∃ (n : Nat) (s : State),
      n < 12 ∧ s.socUp = true ∧ s.t1sDetects (24 + n) = true ∧ s.act (F.PX_PLCA_CFG_PLCA_EN (24 + n)) = 1 ∧
      nodeId s (24 + n) ≠ 0 ∧ s.px.bcnLost.testBit (24 + n) = false ∧
      (s.act (F.PX_T1S_GUARD_QUAR_EN (24 + n))).testBit 0 = false) ∧
    (∃ (n : Nat) (s : State),
      n < 12 ∧ s.socUp = true ∧ s.t1sDetects (24 + n) = true ∧ s.act (F.PX_PLCA_CFG_PLCA_EN (24 + n)) = 1 ∧
      nodeId s (24 + n) ≠ 0 ∧ s.px.bcnLost.testBit (24 + n) = false ∧
      (s.act (F.PX_T1S_GUARD_QUAR_EN (24 + n))).testBit 0 = true ∧ s.rg (F.PX_PORT_STAT_QUAR (24 + n)) = 0) ∧
    (∃ (n : Nat) (s : State),
      n < 12 ∧ s.portUp (24 + n) = true ∧ s.t1sHears (24 + n) = true ∧ s.act (F.PX_PLCA_CFG_PLCA_EN (24 + n)) = 1 ∧
      nodeId s (24 + n) ≠ 0) ∧
    (∃ (n : Nat) (s : State),
      n < 12 ∧ s.portUp (24 + n) = true ∧ s.t1sHears (24 + n) = true ∧ s.act (F.PX_PLCA_CFG_PLCA_EN (24 + n)) = 1 ∧
      nodeId s (24 + n) = 0) ∧
    (∃ (n : Nat) (s : State),
      n < 12 ∧ s.t1sHears (24 + n) = true ∧ s.act (F.PX_PLCA_CFG_PLCA_EN (24 + n)) = 1 ∧
      (s.idcolOf (24 + n)).length + 1 < s.act (F.PX_T1S_GUARD_IDCOL_LIM (24 + n))) ∧
    (∃ (n : Nat) (s : State),
      n < 12 ∧ s.socUp = true ∧ s.t1sHears (24 + n) = true ∧ s.act (F.PX_PLCA_CFG_PLCA_EN (24 + n)) = 1 ∧
      s.act (F.PX_T1S_GUARD_IDCOL_LIM (24 + n)) ≠ 0 ∧
      s.act (F.PX_T1S_GUARD_IDCOL_LIM (24 + n)) ≤ (s.idcolOf (24 + n)).length + 1 ∧
      (s.act (F.PX_T1S_GUARD_QUAR_EN (24 + n))).testBit 1 = false) ∧
    (∃ (n : Nat) (s : State),
      n < 12 ∧ s.socUp = true ∧ s.t1sDetects (24 + n) = true ∧ s.px.jabbering.testBit (24 + n) = false ∧
      (s.act (F.PX_T1S_GUARD_QUAR_EN (24 + n))).testBit 2 = false) ∧
    (∃ (n : Nat),
      n < 12) ∧
    (∃ (a : Agent) (n : Nat) (data : Word) (s : State),
      n < 12 ∧ s.reaches a = true ∧ s.act (F.PX_T1S_GUARD_QUAR_T (24 + n)) ≠ 0 ∧
      s.rg (F.PX_PORT_STAT_QUAR (24 + n)) = 1 ∧ s.rg (F.PX_PORT_STAT_MEND (24 + n)) = 0 ∧ s.portUp (24 + n) = false ∧
      (F.PX_T1S_QREL_RELEASE (24 + n)).get data = 1) :=
  ⟨
    ⟨11, t1s 0,
     by decide +kernel⟩,
    ⟨11, cfs [(F.PX_PORT_CFG_ADMIN 35, 1)] (t1s 1),
     by decide +kernel⟩,
    ⟨11, { t1s 0 with px.bcnLost := 2 ^ 35 },
     by decide +kernel⟩,
    ⟨11, cfs [(F.PX_PLCA_CFG_NODE_ID 35, 0)] (t1s 0),
     by decide +kernel⟩,
    ⟨11, { t1s 0 with px.idcol := [(35, [0])] },
     by decide +kernel⟩,
    ⟨11, { t1s 0 with px.idcol := [(35, [0, 0])] },
     by decide +kernel⟩,
    ⟨11, t1s 0,
     by decide +kernel⟩,
    ⟨11,
     by decide +kernel⟩,
    ⟨.sv, 11, (F.PX_T1S_QREL_RELEASE 35).put 0 1,
     rgs [(F.PX_PORT_STAT_LINK 35, 0), (F.PX_PORT_STAT_QUAR 35, 1)] (t1s 7),
     by decide +kernel⟩⟩

/-- Controller 15 in a state. -/
def can (st : Nat) (l : List (Fld × Nat)) : State := rgs ((F.BX_CAN_STAT_STATE 15, st) :: l) up
/-- Object 127 of controller 15, of a direction. -/
def obj (dir : Nat) (s : State) : State := cfs [(F.BX_CAN_OBJCFG_W0_VALID 15 127, 1), (F.BX_CAN_OBJCFG_W0_DIR 15 127, dir)] s
/-- An empty CAN frame. -/
def msg : CanFrame := ⟨0, false, false, 0, false, false, 0, 0, 0, false, 0, []⟩
/-- Object 127 is on the bus, or chosen. -/
def canHas (x : CanState) (s : State) : State := { s with bx.can := [(15, x)] }
def canIdle : CanState := ⟨none, none, 0, none, [], false, false, []⟩
/-- The gateway with its object 127 of controller 15 waiting. -/
def gwUp (l : List (Fld × Nat)) : State :=
  cfs ([(F.BX_GW_CFG_EN, 1), (F.BX_CAN_OBJCFG_W0_VALID 15 127, 1)] ++ l) (canHas { canIdle with gwRx := [127] } up)
/-- Packing queues 15 and their direction. -/
def pq (dir : Nat) (x : Pq) : State :=
  { cfs [(F.BX_GW_CFG_EN, 1), (F.BX_PQ_CFG_EN 15, 1), (F.BX_PQ_CFG_DIR 15, dir)] up with bx.pq := [(15, x)] }
def packet (l : List Byte) : Packet := packetOf l none [] []
def p38Idle : TxNow := ⟨cp 38 7, 0, false, [], [], none⟩
def taken (f : Frame) (s : State) : State := sending (cp 38 7) (hold 5 f s)
/-- A row that findRow gives hits the offset. -/
theorem findRow_hits : ∀ (l : List RegRow) (off : Nat) (r : RegRow), findRow l off = some r → r ∈ l ∧ r.hits off = true
  | [], _, _, h => by cases h
  | x :: l, off, r, h => by
    unfold findRow at h
    split at h
    · next hx => cases h; exact ⟨List.mem_cons_self, hx⟩
    · exact ⟨List.mem_cons_of_mem _ (findRow_hits l off r h).1, (findRow_hits l off r h).2⟩
/-- No register of BX below the templates resets with bit 31 set. -/
theorem bit31_low : ∀ r ∈ RegMap.blockRows 5, 0x5430000 ≤ r.off ∨ resetOf r.fields % 2 ^ 32 / 2 ^ 31 = 0 := by
  decide +kernel
/-- So no gateway route is valid at reset. -/
theorem route_reset (i : Nat) (hi : i < 4096) : (F.BX_GW_ROUTE_W0_VALID i).get (resetWord (0x5410000 + 0x20 * i)) = 0 := by
  unfold resetWord regRow
  rw [show (0x5410000 + 0x20 * i) / 0x1000000 = 5 by omega]
  split
  · next r h =>
    obtain ⟨hm, hh⟩ := findRow_hits _ _ _ h
    have ho : r.off ≤ 0x5410000 + 0x20 * i := by
      unfold RegRow.hits at hh; simp only [Bool.and_eq_true, decide_eq_true_eq] at hh; exact hh.1
    have hz := (bit31_low r hm).resolve_left (by omega)
    simp only [Fld.get, Word.ofNat, BitVec.extractLsb'_toNat, BitVec.toNat_ofNat, Nat.shiftRight_eq_div_pow, hz]
  · simp [Fld.get]
/-- Where no route is listed none takes a frame. -/
theorem upRoute_none (s : State) (c : Nat) (f : CanFrame) (h : ∀ e ∈ s.activeOf 9, e.1 < 0x5410000) :
    s.upRoute c f = none := by
  have hg : ∀ (l : RegFile) (i : Nat), (∀ e ∈ l, e.1 < 0x5410000) →
      Sparse.get resetWord l (0x5410000 + 0x20 * i) = resetWord (0x5410000 + 0x20 * i) := by
    intro l i hl
    induction l with
    | nil => rfl
    | cons e l ih =>
      obtain ⟨a, v⟩ := e
      have := hl _ List.mem_cons_self
      unfold Sparse.get
      rw [if_neg (by dsimp only at this; omega), ih (fun e he => hl e (List.mem_cons_of_mem _ he))]
  unfold State.upRoute
  dsimp only
  rw [List.find?_eq_none]
  intro i hi
  have hv : rfGet (s.activeOf 9) (F.BX_GW_ROUTE_W0_VALID i) = 0 := by
    unfold rfGet; rw [hg _ _ h]; exact route_reset i (List.mem_range.mp hi)
  rw [hv]
  simp

theorem witness_CanStateCommands :
    (∃ (c : Nat) (s : State),
      c < 16 ∧ s.canState c = 2 ∧ s.rg (F.BX_CAN_STAT_TEC c) ≤ 127 ∧ s.rg (F.BX_CAN_STAT_REC c) ≤ 127) ∧
    (∃ (c : Nat) (s : State),
      c < 16 ∧ s.socUp = true ∧ s.canState c = 2 ∧
      (127 < s.rg (F.BX_CAN_STAT_TEC c) ∨ 127 < s.rg (F.BX_CAN_STAT_REC c))) ∧
    (∃ (c : Nat) (old : RegFile) (s : State),
      c < 16 ∧ (s.canOf c).old = some old ∧ s.canState c ≠ 7 ∧ (s.canOf c).active = none) ∧
    (∃ (a : Agent) (c : Nat) (s : State),
      c < 16 ∧ s.reaches a = true ∧ s.canState c = 5) ∧
    (∃ (a : Agent) (c : Nat) (s : State),
      c < 16 ∧ s.reaches a = true ∧ s.canState c ≠ 5) ∧
    (∃ (c : Nat) (s : State),
      c < 16 ∧ s.socUp = true ∧ s.canState c = 6) ∧
    (∃ (c : Nat) (xl : Bool) (s : State),
      c < 16 ∧ s.socUp = true ∧ s.canLive c = true ∧ canTakes (s.canRf c) c (if xl then 2 else 1) = false ∧
      rfGet (s.canRf c) (F.BX_CAN_CFG_PEX_EN c) = 1) ∧
    (∃ (c code : Nat) (s : State),
      c < 16 ∧ 0 < code ∧ code < 7 ∧ s.canState c = 3 ∧ s.canMode c = 0 ∧ (s.canOf c).active = none ∧
      s.rg (F.BX_CAN_STAT_TEC c) ≤ 127 ∧ s.rg (F.BX_CAN_STAT_REC c) + 1 ≤ 127) ∧
    (∃ (c code : Nat) (s : State),
      c < 16 ∧ 0 < code ∧ code < 7 ∧ s.canState c = 3 ∧ s.canMode c = 0 ∧ (s.canOf c).active = none ∧
      (s.canOf c).errTx = false ∧ s.rg (F.BX_CAN_STAT_TEC c) ≤ 127 ∧ s.rg (F.BX_CAN_STAT_REC c) + 8 ≤ 127) ∧
    (∃ (c code o : Nat) (f : CanFrame) (s : State),
      c < 16 ∧ 0 < code ∧ code < 7 ∧ o < 128 ∧ s.socUp = true ∧ s.canLive c = true ∧ s.canMode c = 0 ∧
      (s.canOf c).active = some (o, f) ∧ 248 ≤ s.rg (F.BX_CAN_STAT_TEC c)) :=
  ⟨
    ⟨15, can 2 [(F.BX_CAN_STAT_TEC 15, 127), (F.BX_CAN_STAT_REC 15, 127)],
     by decide +kernel⟩,
    ⟨15, can 2 [(F.BX_CAN_STAT_REC 15, 128)],
     by decide +kernel⟩,
    ⟨15, [], (let old : RegFile := []; canHas { canIdle with old := some [] } (can 3 [])),
     by decide +kernel⟩,
    ⟨.sv, 15, can 5 [(F.BX_CAN_STAT_RECOV_WAIT 15, 1)],
     by decide +kernel⟩,
    ⟨.sv, 15, can 4 [],
     by decide +kernel⟩,
    ⟨15, can 6 [(F.BX_CAN_STAT_TEC 15, 9)],
     by decide +kernel⟩,
    ⟨15, true, cfs [(F.BX_CAN_CFG_PEX_EN 15, 1), (F.BX_CAN_CFG_XL_EN 15, 0)] (can 3 []),
     by decide +kernel⟩,
    ⟨15, 6, cfs [(F.BX_CAN_CFG_MODE 15, 0)] (can 3 [(F.BX_CAN_STAT_TEC 15, 127), (F.BX_CAN_STAT_REC 15, 126)]),
     by decide +kernel⟩,
    ⟨15, 6, cfs [(F.BX_CAN_CFG_MODE 15, 0)] (can 3 [(F.BX_CAN_STAT_TEC 15, 127), (F.BX_CAN_STAT_REC 15, 119)]),
     by decide +kernel⟩,
    ⟨15, 1, 127, msg,
     cfs [(F.BX_CAN_CFG_MODE 15, 0)] (canHas { canIdle with active := some (127, msg) } (can 4 [(F.BX_CAN_STAT_TEC 15, 248)])),
     by decide +kernel⟩⟩

theorem witness_CanObjectCommands :
    (∃ (a : Agent) (c w o : Nat) (data : Word) (s : State),
      c < 16 ∧ w < 4 ∧ s.reaches a = true ∧ State.wordObjs w data = [o] ∧ canGw (s.canRf c) c o = false ∧
      canIs (s.canRf c) c o 1 = true ∧ s.objStatus c o ≠ 1 ∧ s.objStatus c o ≠ 2 ∧ s.formatErr c o = false ∧
      s.busSds c = 0) ∧
    (∃ (a : Agent) (c w o : Nat) (data : Word) (s : State),
      c < 16 ∧ w < 4 ∧ s.reaches a = true ∧ State.wordObjs w data = [o] ∧ canGw (s.canRf c) c o = false ∧
      canIs (s.canRf c) c o 1 = true ∧ s.objStatus c o = 1) ∧
    (∃ (a : Agent) (c w o : Nat) (data : Word) (s : State),
      c < 16 ∧ w < 4 ∧ s.reaches a = true ∧ State.wordObjs w data = [o] ∧ canGw (s.canRf c) c o = false ∧
      canIs (s.canRf c) c o 1 = true ∧ s.objStatus c o = 2) ∧
    (∃ (a : Agent) (c w o : Nat) (data : Word) (s : State),
      c < 16 ∧ w < 4 ∧ s.reaches a = true ∧ State.wordObjs w data = [o] ∧ canGw (s.canRf c) c o = false ∧
      canIs (s.canRf c) c o 0 = true) ∧
    (∃ (c o : Nat) (s : State),
      c < 16 ∧ s.canLive c = true ∧ s.canMode c ≠ 1 ∧ (s.canOf c).active = none ∧ (s.canOf c).old = none ∧
      s.bestPending c = some o ∧ s.objBadWord c o (s.objLen c o) = none) ∧
    (∃ (c o : Nat) (f : CanFrame) (s : State),
      c < 16 ∧ o < 128 ∧ s.canLive c = true ∧ (s.canOf c).active = none ∧ (s.canOf c).old = none ∧
      (s.canOf c).chosen = some (o, f)) ∧
    (∃ (c o : Nat) (f : CanFrame) (s : State),
      c < 16 ∧ o < 128 ∧ s.canLive c = true ∧ s.canMode c ≠ 3 ∧ (s.canOf c).active = some (o, f) ∧
      s.rg (F.BX_CAN_OBJ_W0_CANCEL_REQ c o) ≠ 1) ∧
    (∃ (c o : Nat) (f : CanFrame) (s : State),
      c < 16 ∧ o < 128 ∧ (s.canOf c).active = some (o, f) ∧ s.rg (F.BX_CAN_OBJ_W0_CANCEL_REQ c o) ≠ 1 ∧
      rfGet (s.canRf c) (F.BX_CAN_OBJCFG_W2_ONESHOT c o) ≠ 1) ∧
    (∃ (c o : Nat) (f : CanFrame) (s : State),
      c < 16 ∧ o < 128 ∧ s.canLive c = true ∧ s.canMode c ≠ 3 ∧ canTakes (s.canRf c) c f.format = true ∧
      (∀ k < o, s.objAccepts c k f = false) ∧ s.objAccepts c o f = true ∧ s.objStatus c o ≠ 0xC) ∧
    (∃ (c : Nat) (f : CanFrame) (s : State),
      c < 16 ∧ s.canLive c = true ∧ s.canMode c ≠ 3 ∧ canTakes (s.canRf c) c f.format = true ∧
      (∀ k < 128, s.objAccepts c k f = false)) ∧
    (∃ (c o : Nat) (s : State),
      c < 16 ∧ o < 128 ∧ s.canLive c = true ∧ s.canMode c ≠ 1 ∧ (s.canOf c).active = none ∧ (s.canOf c).old = none ∧
      s.bestPending c = some o ∧ s.objBadWord c o (s.objLen c o) = none) :=
  ⟨
    ⟨.sv, 15, 3, 127, 0x80000000, obj 1 (can 3 []),
     by decide +kernel⟩,
    ⟨.sv, 15, 3, 127, 0x80000000,
     canHas { canIdle with chosen := some (127, msg) } (obj 1 (can 3 [(F.BX_CAN_OBJ_W0_STATUS 15 127, 1)])),
     by decide +kernel⟩,
    ⟨.sv, 15, 3, 127, 0x80000000, obj 1 (can 3 [(F.BX_CAN_OBJ_W0_STATUS 15 127, 2)]),
     by decide +kernel⟩,
    ⟨.sv, 15, 3, 127, 0x80000000,
     obj 0 (can 3 [(F.BX_CAN_OBJ_W0_STATUS 15 127, 0xC), (F.BX_CAN_OBJ_W0_OVR 15 127, 1)]),
     by decide +kernel⟩,
    ⟨15, 127, obj 1 (can 3 [(F.BX_CAN_OBJ_W0_STATUS 15 127, 1)]),
     by decide +kernel⟩,
    ⟨15, 127, msg, canHas { canIdle with chosen := some (127, msg) } (can 3 []),
     by decide +kernel⟩,
    ⟨15, 127, msg, canHas { canIdle with active := some (127, msg) } (can 3 []),
     by decide +kernel⟩,
    ⟨15, 127, msg, canHas { canIdle with active := some (127, msg) } (can 3 []),
     by decide +kernel⟩,
    ⟨15, 127, { msg with id := 2 ^ 29 - 1, ide := true },
     cfs [(F.BX_CAN_OBJCFG_W1_IDE_ANY 15 127, 1), (F.BX_CAN_OBJCFG_W0_ID 15 127, 2 ^ 29 - 1)] (obj 0 (can 3 [])),
     by decide +kernel⟩,
    ⟨15, msg, can 3 [],
     by decide +kernel⟩,
    ⟨15, 127, obj 1 (can 3 [(F.BX_CAN_OBJ_W0_STATUS 15 127, 1)]),
     by decide +kernel⟩⟩

theorem witness_GatewayCommands :
    (∃ (c o : Nat) (rest : List Nat) (s : State),
      c < 16 ∧ o < 128 ∧ s.gwOn = true ∧ (s.canOf c).gwRx = o :: rest ∧ canIs (s.canRf c) c o 0 = true ∧
      s.upRoute c (s.objFrame c o (s.rg (F.BX_CAN_OBJ_W3_LEN c o))) = none) ∧
    (∃ (c o r m : Nat) (rest : List Nat) (f : CanFrame) (s : State),
      c < 16 ∧ o < 128 ∧ s.gwOn = true ∧ (s.canOf c).gwRx = o :: rest ∧
      f = s.objFrame c o (s.rg (F.BX_CAN_OBJ_W3_LEN c o)) ∧ s.upRoute c f = some r ∧
      s.objBadWord c o f.data.length = none ∧ f.format ≠ 2 ∧ s.act (F.BX_GW_ROUTE_W7_COPY_EN r) = 0 ∧
      s.act (F.BX_GW_ROUTE_W2_KIND r) ≠ 1 ∧ s.act (F.BX_GW_ROUTE_W6_SEAL r) ≠ 1 ∧ 0 < s.act (F.BX_GW_ROUTE_W3_HOLD r) ∧
      m = s.act (F.BX_GW_ROUTE_W2_TMPL r) ∧ s.openUp m = none ∧ 1 < State.maxMsg (s.activeOf 9) m) ∧
    (∃ (m : Nat) (u : OpenUp) (s : State),
      m < 256 ∧ s.gwOn = true ∧ s.openUp m = some u) ∧
    (∃ (q : Nat) (s : State),
      q < 16 ∧ s.gwOn = true ∧ s.pqIs q 1 = true ∧ (s.pqOf q).ready = []) ∧
    (∃ (q : Nat) (p : Packet) (rest : List Packet) (s : State),
      q < 16 ∧ s.gwOn = true ∧ s.pqIs q 1 = true ∧ (s.pqOf q).ready = p :: rest ∧
      ((List.range 16).map (fun k => (s.bx.downRr + k) % 16)).find? (fun k => s.pqIs k 1 && !(s.pqOf k).ready.isEmpty) = some q) :=
  ⟨
    ⟨15, 127, [], gwUp [],
     by decide, by decide, by decide +kernel, by decide +kernel, by decide +kernel,
     upRoute_none _ _ _ (by decide +kernel)⟩,
    ⟨15, 127, 0, 255, [], (gwUp []).objFrame 15 127 0,
     gwUp [(F.BX_GW_ROUTE_W0_VALID 0, 1), (F.BX_GW_ROUTE_W2_CTRL 0, 15), (F.BX_GW_ROUTE_W2_TMPL 0, 255), (F.BX_GW_ROUTE_W3_HOLD 0, 1), (F.BX_GW_TMPL_W2_MAXMSG 255, 2)],
     by decide +kernel⟩,
    ⟨255, ⟨[], 0, [], 5, 0⟩, { gwUp [] with bx.opened := [(255, some ⟨[], 0, [], 5, 0⟩)] },
     by decide +kernel⟩,
    ⟨15, pq 1 ⟨[], none, [], 0⟩,
     by decide +kernel⟩,
    ⟨15, packet (List.replicate 60 0), [], pq 1 ⟨[packet (List.replicate 60 0)], none, [], 0⟩,
     by decide +kernel⟩⟩

theorem witness_PackingQueueCommands :
    (∃ (q : Nat) (p : Packet) (s : State),
      q < 16 ∧ s.pqIs q 0 = true ∧ s.pqIs q 1 = false ∧ (s.pqOf q).writing = some p ∧ (s.pqOf q).waiting = []) ∧
    (∃ (q : Nat) (p : Packet) (tx : TxNow) (f : Frame) (s : State),
      q < 16 ∧ s.pqIs q 1 = true ∧ (s.pqOf q).writing = some p ∧ s.txOf 38 = some tx ∧
      s.frameOf tx.copy.frame = some f ∧ f.verdict = .ok) ∧
    (∃ (q : Nat) (p : Packet) (tx : TxNow) (s : State),
      q < 16 ∧ s.pqIs q 1 = true ∧ (s.pqOf q).writing = some p ∧ s.txOf 38 = some tx ∧ tx.into = some q ∧
      s.mustDrop tx.copy.frame = true) ∧
    (∃ (q : Nat) (s : State),
      q < 16 ∧ s.portUp 38 = true ∧ s.pqIs q 0 = true ∧ (s.pqOf q).ready = []) ∧
    (∃ (q : Nat) (p : Packet) (rest : List Packet) (s : State),
      q < 16 ∧ s.portUp 38 = true ∧ s.pqIs q 0 = true ∧ (s.pqOf q).ready = p :: rest ∧
      (∀ k < 16, q < k → s.pqIs k 0 = true → (s.pqOf k).ready = [])) ∧
    (∃ (q : Nat) (tx : TxNow) (f : Frame) (s : State),
      q < 16 ∧ s.txOf 38 = some tx ∧ s.frameOf tx.copy.frame = some f ∧ f.verdict = .ok ∧ State.isWhole f = true ∧
      tx.into = none ∧ s.downBy tx.tables tx.copy.tc = some q ∧ State.toSeal tx (s.egressBytes f 38) = [] ∧
      (s.pqOf q).writing = none ∧ s.pqUsed q + pqWords (s.egressBytes f 38).length ≤ 256) ∧
    (∃ (a : Agent) (q : Nat) (s : State),
      q < 16 ∧ s.reaches a = true ∧ (s.pqOf q).writing = none ∧ (s.pqOf q).waiting = []) :=
  ⟨
    ⟨15, packet [1], pq 0 ⟨[], some (packet [1]), [], 0⟩,
     by decide +kernel⟩,
    ⟨15, packet [1], ⟨cp 38 7, 0, false, [], [], none⟩, fr 3,
     (let f : Frame := fr 3; taken f (pq 1 ⟨[], some (packet [1]), [], 0⟩)),
     by decide +kernel⟩,
    ⟨15, packet [1], { p38Idle with into := some 15 },
     (let tx : TxNow := { p38Idle with into := some 15 }; (hold 5 { fr 3 with verdict := .drop } (pq 1 ⟨[packet [2]], some (packet [1]), [], 0⟩)).setTx 38 (some tx)),
     by decide +kernel⟩,
    ⟨15, portOn 38 (pq 0 ⟨[], none, [], 0⟩),
     by decide +kernel⟩,
    ⟨15, packet (List.replicate 60 0), [], portOn 38 (pq 0 ⟨[packet (List.replicate 60 0)], none, [], 0⟩),
     by decide +kernel⟩,
    ⟨15, ⟨cp 38 7, 0, false, [], [], none⟩, fr 3, (let f : Frame := fr 3; taken f (pq 1 ⟨[], none, [], 0⟩)),
     by decide +kernel⟩,
    ⟨.sv, 15, pq 0 ⟨[packet [1]], none, [], 0⟩,
     by decide +kernel⟩⟩

/-- Fold settings in force on the power die. -/
def folds (l : List (Fld × Nat)) (s : State) : State := { s with aon.cfg12 := l.foldl (fun rf e => rfSet rf e.1 e.2) s.aon.cfg12 }
/-- Sleep domain 15 in a state. -/
def sd (x : SdState) (s : State) : State := { s with aon.sd := [(15, x)] }
/-- A valid member domain 15. -/
def sdUp (st : Nat) (l : List (Fld × Nat)) : State :=
  sd { emptySd with state := st } (folds ([(F.SV_SD_W0_VALID 15, 1), (F.SV_SD_W0_MEMBER 15, 1)] ++ l) (rgs [(F.SV_CFG_STATUS_DONE, 1)] up))
/-- A keep-alive of wire domain 3 with its NEED bit. -/
def kaFrame (need : Byte) : Frame :=
  { fr 40 with bytes := [0, 0, 0, 0, 0, 5] ++ List.replicate 6 2 ++ [0x88, 0xB6, 1, 3, need] ++ List.replicate 43 0 }
/-- Domain 15 in QUIET hears it. -/
def kaUp (f : Frame) : State :=
  hold 5 f (cfs [(F.SV_FOLD_CFG_LO_KA_MAC, 5)] (sdUp 2 [(F.SV_SD_W2_PORTS_HI 15, 2 ^ 8), (F.SV_SD_W0_WIRE_DOMAIN 15, 3)]))
def inListen : State := { State.reset with pw := { pwFresh with power := .listen } }

theorem witness_KeepaliveCommands :
    (∃ (n : Nat) (f : Frame) (s : State),
      s.booted = true ∧ s.frameOf n = some f ∧ s.kaFrameSds f ≠ [] ∧
      beAt f.bytes ((parseHdr f.bytes).l3 + 2) 1 % 2 = 0) ∧
    (∃ (c id d : Nat) (ide : Bool) (s : State),
      s.booted = true ∧ c < 16 ∧ s.canLive c = true ∧ s.canMode c ≠ 3 ∧ d ∈ s.kaCanSds c id ide ∧ s.toListen = false ∧
      (∀ e ∈ s.validSds, ((s.sdOf e).state = 1 ∨ (s.sdOf e).state = 2) ∧ (s.sdOf e).enforced = false)) ∧
    (∃ (n d : Nat) (f : Frame) (s : State),
      s.booted = true ∧ s.frameOf n = some f ∧ d ∈ s.kaFrameSds f ∧
      beAt f.bytes ((parseHdr f.bytes).l3 + 2) 1 % 2 = 1 ∧ s.toListen = false ∧
      (∀ e ∈ s.validSds, ((s.sdOf e).state = 1 ∨ (s.sdOf e).state = 2) ∧ (s.sdOf e).enforced = false)) ∧
    (∃ (d : Nat) (s : State),
      s.booted = true ∧ d ∈ s.validSds ∧ s.sdNeeded d = true ∧ s.fold (F.SV_SD_W0_KA_TX_EN d) = 1 ∧ s.sdPorts d ≠ 0 ∧
      s.kaMac ≠ 0 ∧ s.sdBuses d = 0) ∧
    (∃ (d c o : Nat) (s : State),
      s.booted = true ∧ d ∈ s.validSds ∧ s.sdNeeded d = true ∧ c < 16 ∧ s.fold (F.SV_SD_W0_KA_TX_EN d) = 1 ∧
      s.sdPorts d = 0 ∧ s.sdBuses d = 2 ^ c ∧ o = s.fold (F.SV_SD_W6_KA_OBJ d) ∧ s.kaBlocked c o = false) :=
  ⟨
    ⟨5, kaFrame 0, (let f : Frame := kaFrame 0; kaUp f),
     by decide +kernel⟩,
    ⟨15, 7, 15, false,
     rgs [(F.BX_CAN_STAT_STATE 15, 3)] <| sdUp 2 [(F.SV_SD_W2_BUSES 15, 2 ^ 15), (F.SV_SD_W3_KA_ID_LO 15, 7), (F.SV_SD_W4_KA_ID_HI 15, 7)],
     by decide +kernel⟩,
    ⟨5, 15, kaFrame 1, (let f : Frame := kaFrame 1; kaUp f),
     by decide +kernel⟩,
    ⟨15,
     cfs [(F.SV_FOLD_CFG_LO_KA_MAC, 5)] (sdUp 2 [(F.SV_SD_W2_PORTS_HI 15, 2 ^ 8), (F.SV_SD_W0_KA_TX_EN 15, 1), (F.SV_SD_W0_NEED 15, 1)]),
     by decide +kernel⟩,
    ⟨15, 15, 127,
     cfs [(F.BX_CAN_OBJCFG_W0_VALID 15 127, 1), (F.BX_CAN_OBJCFG_W0_DIR 15 127, 1)] (sdUp 2 [(F.SV_SD_W2_BUSES 15, 2 ^ 15), (F.SV_SD_W0_KA_TX_EN 15, 1), (F.SV_SD_W0_NEED 15, 1), (F.SV_SD_W6_KA_OBJ 15, 127), (F.SV_SD_W5_KA_TX_ID 15, 77)]),
     by decide +kernel⟩⟩

theorem witness_FoldStateCommands :
    (∃ (d : Nat) (s : State),
      d < 16 ∧ (s.sdOf d).state = 2) ∧
    (∃ (d : Nat) (s : State),
      d < 16 ∧ (s.sdOf d).state = 3 ∧ (s.sdOf d).latched = false) ∧
    (∃ (d src : Nat) (s : State),
      d < 16 ∧ src < 13 ∧ (s.sdOf d).latched = true ∧ (s.sdOf d).state = 4 ∧ s.toListen = false) ∧
    (∃ (a : Agent) (data : Word) (s : State),
      s.reaches a = true ∧ F.SV_FOLD_CMD_WAKE.get data = 1 ∧ F.SV_FOLD_CMD_SD.get data ∈ s.validSds ∧
      (s.sdOf (F.SV_FOLD_CMD_SD.get data)).state = 4 ∧ (s.sdOf (F.SV_FOLD_CMD_SD.get data)).enforced = false ∧
      s.toListen = false ∧ s.pw.power = .up) ∧
    (∃ (a : Agent) (data : Word) (s : State),
      s.reaches a = true ∧ F.SV_FOLD_CMD_FORGIVE.get data = 1 ∧ (s.sdOf (F.SV_FOLD_CMD_SD.get data)).enforced = true) ∧
    (∃ (a : Agent) (s : State),
      s.reaches a = true ∧ (∀ d ∈ s.validSds, (s.sdOf d).state ≠ 1)) ∧
    (∃ (d : Nat) (s : State),
      d < 16 ∧ (s.sdOf d).hold = true) ∧
    (∃ (d : Nat) (s : State),
      d ∈ s.validSds ∧ s.booted = true ∧ s.sdBuses d = 0 ∧ s.fold (F.SV_SD_W7_T_AWAKE_MAX d) ≠ 0) ∧
    (∃ (d : Nat) (s : State),
      d ∈ s.validSds ∧ s.booted = true ∧ s.sdBuses d ≠ 0 ∧ s.fold (F.SV_SD_W7_T_AWAKE_MAX d) ≠ 0 ∧
      (s.sdOf d).enforced = false ∧ ((s.sdOf d).state = 1 ∨ (s.sdOf d).state = 2)) :=
  ⟨
    ⟨15, sdUp 2 [],
     by decide +kernel⟩,
    ⟨15, sdUp 3 [],
     by decide +kernel⟩,
    ⟨15, 12, sd { emptySd with state := 4, latched := true } (sdUp 4 []),
     by decide +kernel⟩,
    ⟨.sv, F.SV_FOLD_CMD_WAKE.put (F.SV_FOLD_CMD_SD.put 0 15) 1, sdUp 4 [],
     by decide +kernel⟩,
    ⟨.sv, F.SV_FOLD_CMD_FORGIVE.put (F.SV_FOLD_CMD_SD.put 0 15) 1,
     sd { emptySd with state := 2, enforced := true } (sdUp 4 []),
     by decide +kernel⟩,
    ⟨.sv, sdUp 2 [],
     by decide +kernel⟩,
    ⟨15, sd { emptySd with hold := true } (sdUp 4 []),
     by decide +kernel⟩,
    ⟨15, sdUp 1 [(F.SV_SD_W7_T_AWAKE_MAX 15, 1)],
     by decide +kernel⟩,
    ⟨15, sdUp 1 [(F.SV_SD_W7_T_AWAKE_MAX 15, 1), (F.SV_SD_W2_BUSES 15, 1)],
     by decide +kernel⟩⟩

theorem witness_WakeCommands :
    (∃ (pin : Nat) (s : State),
      pin < 5 ∧ s.pw.power = .listen ∧ s.fold (F.PW_WAKEIN_CFG_EN pin) = 1 ∧ s.masked (some pin) = false) ∧
    (∃ (c id : Nat) (ide : Bool) (s : State),
      c < 8 ∧ s.pw.power = .listen ∧ s.masked (some (c + 5)) = false ∧ s.fold (F.PW_CANWAKE_CFG_W0_WUF_EN c) = 1 ∧
      Nat.land id (s.fold (F.PW_CANWAKE_CFG_W2_WUF_MASK c)) = Nat.land (s.fold (F.PW_CANWAKE_CFG_W1_WUF_ID c)) (s.fold (F.PW_CANWAKE_CFG_W2_WUF_MASK c)) ∧
      s.fold (F.PW_CANWAKE_CFG_W1_WUF_IDE c) = (if ide then 1 else 0)) ∧
    (∃ (c id d : Nat) (ide : Bool) (s : State),
      c < 8 ∧ s.pw.power = .listen ∧ s.fold (F.PW_CANWAKE_CFG_W0_KA_EN c) = 1 ∧ d ∈ s.validSds ∧
      (s.sdBuses d).testBit c = true ∧ s.kaRange d id ide = true) ∧
    (∃ (n : Nat) (s : State),
      n < 12 ∧ s.pw.power = .listen ∧ (s.fold F.PW_T1SWAKE_CFG_EN).testBit n = true ∧
      s.masked (some (n + 13)) = false) ∧
    (∃ (s : State),
      s.pw.power = .listen ∧ s.rg F.PW_RTC_ALARM_CTL_ARM = 1 ∧ s.rg F.PW_RTC_ALARM_SEC_SEC ≤ s.pw.rtcSec) ∧
    (∃ (v : Nat) (s : State),
      s.pw.power ≠ .off ∧ s.aon.rtcSet = some v) ∧
    (∃ (k i : Nat) (j : WakeJudge) (s : State),
      s.pw.power ≠ .off ∧ k < 16 ∧ i < 25 ∧ s.aon.judge.find? (fun j => decide (j.slot = k)) = some j ∧
      j.inst = some i ∧ j.valid = true) ∧
    (∃ (k i : Nat) (j : WakeJudge) (s : State),
      s.pw.power ≠ .off ∧ k < 16 ∧ i < 25 ∧ s.aon.judge.find? (fun j => decide (j.slot = k)) = some j ∧
      j.inst = some i ∧ j.valid = false ∧
      (s.booted = true → ∀ d < 16, j.domains.testBit d = true → s.fold (F.SV_SD_W0_NEED d) ≠ 1) ∧
      s.rg (F.PW_FALSE_CONSEC i) + 1 < falseLim s) ∧
    (∃ (i : Nat) (s : State),
      s.pw.power ≠ .off ∧ i < 25) ∧
    (∃ (c id : Nat) (ide : Bool) (s : State),
      c < 8 ∧ s.pw.power = .listen ∧ s.masked (some (c + 5)) = true ∧ s.fold (F.PW_CANWAKE_CFG_W0_WUF_EN c) = 1 ∧
      Nat.land id (s.fold (F.PW_CANWAKE_CFG_W2_WUF_MASK c)) = Nat.land (s.fold (F.PW_CANWAKE_CFG_W1_WUF_ID c)) (s.fold (F.PW_CANWAKE_CFG_W2_WUF_MASK c)) ∧
      s.fold (F.PW_CANWAKE_CFG_W1_WUF_IDE c) = (if ide then 1 else 0)) :=
  ⟨
    ⟨4, folds [(F.PW_WAKEIN_CFG_EN 4, 1)] inListen,
     by decide +kernel⟩,
    ⟨7, 9, true,
     folds [(F.PW_CANWAKE_CFG_W0_WUF_EN 7, 1), (F.PW_CANWAKE_CFG_W1_WUF_ID 7, 9), (F.PW_CANWAKE_CFG_W2_WUF_MASK 7, 2 ^ 29 - 1), (F.PW_CANWAKE_CFG_W1_WUF_IDE 7, 1)] inListen,
     by decide +kernel⟩,
    ⟨7, 9, 15, true,
     folds [(F.PW_CANWAKE_CFG_W0_KA_EN 7, 1), (F.SV_SD_W0_VALID 15, 1), (F.SV_SD_W2_BUSES 15, 2 ^ 7), (F.SV_SD_W3_KA_ID_LO 15, 9), (F.SV_SD_W4_KA_ID_HI 15, 9), (F.SV_SD_W3_KA_IDE 15, 1)] inListen,
     by decide +kernel⟩,
    ⟨11, folds [(F.PW_T1SWAKE_CFG_EN, 2 ^ 11)] inListen,
     by decide +kernel⟩,
    ⟨rgs [(F.PW_RTC_ALARM_CTL_ARM, 1)] inListen,
     by decide +kernel⟩,
    ⟨7, { up with aon.rtcSet := some 7 },
     by decide +kernel⟩,
    ⟨15, 24, ⟨15, 0, some 24, 0, true⟩, { up with aon.judge := [⟨15, 0, some 24, 0, true⟩] },
     by decide +kernel⟩,
    ⟨15, 24, ⟨15, 0, some 24, 0, false⟩, { up with aon.judge := [⟨15, 0, some 24, 0, false⟩] },
     by decide +kernel⟩,
    ⟨24, rgs [(F.PW_FALSE_MASKED 24, 1)] up,
     by decide +kernel⟩,
    ⟨7, 9, true,
     rgs [(F.PW_FALSE_MASKED 12, 1)] (folds [(F.PW_CANWAKE_CFG_W0_WUF_EN 7, 1), (F.PW_CANWAKE_CFG_W1_WUF_ID 7, 9), (F.PW_CANWAKE_CFG_W2_WUF_MASK 7, 2 ^ 29 - 1), (F.PW_CANWAKE_CFG_W1_WUF_IDE 7, 1)] inListen),
     by decide +kernel⟩⟩

/-- Load-switch settings in force on the power die. -/
def switches (l : List (Fld × Nat)) (s : State) : State := { s with aon.cfg13 := l.foldl (fun rf e => rfSet rf e.1 e.2) s.aon.cfg13 }
def chan (k st : Nat) : State := rgs [(F.PW_OUT_STAT_STATE k, st)] up

theorem witness_ChannelCommands :
    (∃ (s : State),
      s.pw.power ≠ .off) ∧
    (∃ (meas : List LsMeas) (k : Nat) (m : LsMeas) (s : State),
      s.pw.power ≠ .off ∧ k < 16 ∧ meas[k]? = some m ∧ s.conducts k = true ∧ m.tj < 175 ∧ m.dt ≤ s.scorchLimit k ∧
      eTrip ≤ heat (s.chOf k).e (s.ls (F.PW_OUT_CFG_WIRE k)) (s.chCurrent k m.mA)) ∧
    (∃ (ch : Nat) (s : State),
      s.pw.power ≠ .off ∧ ch < 16 ∧ s.chState ch = 2) ∧
    (∃ (ch : Nat) (s : State),
      s.chState ch ≠ 2 ∧ s.chState ch ≠ 3 ∧ s.chState ch ≠ 4) ∧
    (∃ (ch : Nat) (s : State),
      s.pw.power ≠ .off ∧ ch < 16 ∧ s.chState ch = 1) ∧
    (∃ (a : Agent) (data : Word) (k : Nat) (s : State),
      s.reaches a = true ∧ s.socUp = true ∧ k = F.PW_OUT_CMD_CH.get data ∧ F.PW_OUT_CMD_REENABLE.get data = 1 ∧
      s.chState k = 4 ∧ s.mayConduct k = true) ∧
    (∃ (a : Agent) (data : Word) (k : Nat) (s : State),
      s.reaches a = true ∧ s.socUp = true ∧ k = F.PW_OUT_CMD_CH.get data ∧ F.PW_OUT_CMD_REENABLE.get data = 1 ∧
      (s.chState k ≠ 4 ∨ s.rg (F.PW_OUT_STAT_THERM_LATCH k) = 1)) ∧
    (∃ (ch : Nat) (s : State),
      s.pw.power ≠ .off ∧ ch < 16 ∧ (s.chState ch = 3 ∨ s.chState ch = 4) ∧
      ((s.chOf ch).tripped = true ∨ (s.chOf ch).since = s.now)) :=
  ⟨
    ⟨chan 0 0,
     by decide +kernel⟩,
    ⟨[⟨1000000, 40, 174⟩], 0, ⟨1000000, 40, 174⟩,
     (switches [(F.PW_OUT_CFG_RETRY_CNT 0, 1)] (chan 0 2)).setCh 0 { (State.reset.chOf 0) with e := 2 },
     by decide +kernel⟩,
    ⟨15, chan 15 2,
     by decide +kernel⟩,
    ⟨15, chan 15 1,
     by decide +kernel⟩,
    ⟨15, chan 15 1,
     by decide +kernel⟩,
    ⟨.sv, F.PW_OUT_CMD_REENABLE.put (F.PW_OUT_CMD_CH.put 0 15) 1, 15, switches [(F.PW_OUT_CFG_ON 15, 1)] (chan 15 4),
     by decide +kernel⟩,
    ⟨.sv, F.PW_OUT_CMD_REENABLE.put (F.PW_OUT_CMD_CH.put 0 15) 1, 15,
     rgs [(F.PW_OUT_STAT_THERM_LATCH 15, 1)] (chan 15 4),
     by decide +kernel⟩,
    ⟨15, rgs [(F.PW_OUT_STAT_CAUSE 15, 6)] (chan 15 3),
     by decide +kernel⟩⟩

theorem witness_SupplyCommands :
    (∃ (s : State),
      s.pw.power ≠ .off) ∧
    (∃ (s : State),
      s.pw.power ≠ .off) ∧
    (∃ (k : Nat) (s : State),
      s.pw.power ≠ .off ∧ s.socUp = true ∧
      ((List.range 16).filter (fun k => s.conducts k && decide (s.ls (F.PW_OUT_CFG_SHED k) = 1))).getLast? = some k) ∧
    (∃ (s : State),
      s.socUp = true) ∧
    (∃ (s : State),
      s.pw.power ≠ .off ∧ s.socUp = false) ∧
    (∃ (s : State),
      s.socUp = true ∧ s.pw.start.firmware = true ∧ s.pw.rescue = false) ∧
    (∃ (s : State),
      s.pw.power ≠ .off ∧ s.aon.linkWatched = true) :=
  ⟨
    ⟨chan 15 2,
     by decide +kernel⟩,
    ⟨chan 15 7,
     by decide +kernel⟩,
    ⟨15, switches [(F.PW_OUT_CFG_SHED 15, 1)] (chan 15 2),
     by decide +kernel⟩,
    ⟨up,
     by decide +kernel⟩,
    ⟨{ State.reset with pw := { pwFresh with power := .listen } },
     by decide +kernel⟩,
    ⟨{ up with pw.start := { startFresh with firmware := true } },
     by decide +kernel⟩,
    ⟨{ chan 15 2 with aon.linkWatched := true },
     by decide +kernel⟩⟩

/-- Ring 63 of host port 37 runs: RX with one descriptor posted. -/
def rxRing63 (on : Bool) : State :=
  { rgs [(F.CX_HP_RX_TAIL_TAIL 1 63, 1)] (cfs [(F.CX_HP_RX_CFG_EN 1 63, 1), (F.CX_HP_RXMAP_FIRST 1 7, 63), (F.CX_HP_RXMAP_SPREAD 1 7, 0)]
      (sending (cp 37 7) (hold 5 (fr 3) up))) with cx.rings := [(ringKey 1 false 63, ⟨on, 0, [], 0⟩)] }
/-- TX ring 63 of host port 37 with one descriptor, the last of its frame. -/
def txRing63 : State :=
  { portOn 37 (rgs [(F.CX_HP_TX_TAIL_TAIL 1 63, 1)] (cfs [(F.CX_HP_TX_CFG_EN 1 63, 1)] up)) with
    cx.rings := [(ringKey 1 true 63, ⟨true, 0, [], 0⟩)], mx.dram := [(10, 2)] }
/-- That descriptor is good, with DIRECT to port 40. -/
def txOne : State := { cfs [(F.CX_HP_TX_CFG_DIRECT_OK 1 63, 1)] txRing63 with mx.dram := (leBytes 8 dramBase ++ ([60, 0, 35, 40] : List Byte)).zipIdx.filterMap (fun (e : Byte × Nat) => if e.1 = 0 then none else some (e.2, e.1)) }

theorem witness_ClusterCommands :
    (∃ (s : State),
      s.pw.cxReset = true ∧ s.booted = true ∧ s.pw.rescue = false ∧ s.pw.start.zeroed = true ∧ s.treeLocked = false ∧
      s.pw.dramSr = false ∧ s.inRun = true) ∧
    (∃ (n : Nat) (s : State),
      s.cx.copying = true ∧ n = 65536 * s.act F.CX_BOOT_CFG_IMG_SIZE ∧ 1 ≤ s.act F.CX_BOOT_CFG_IMG_SIZE ∧
      s.act F.CX_BOOT_CFG_IMG_SIZE ≤ 256) ∧
    (∃ (s : State),
      s.cx.copying = true ∧ s.socUp = true) ∧
    (∃ (a : Agent) (s : State),
      s.reaches a = true ∧ s.act F.CX_CORE_CFG_BOOT_SRC = 1 ∧ s.pw.cxReset = false) ∧
    (∃ (a : Agent) (data : Word) (g : Nat) (s : State),
      s.reaches a = true ∧ s.rg F.CX_DVFS_BUSY = 0 ∧ g = max (F.CX_DVFS_REQ.get data) (s.act F.CX_CORE_CFG_OPP_TOP)) ∧
    (∃ (a : Agent) (s : State),
      s.reaches a = true ∧ s.rg F.CX_DVFS_BUSY = 1) ∧
    (∃ (a : Option Agent) (g : Nat) (s : State),
      s.socUp = true ∧ s.cx.dvfs = some (a, g) ∧ g < 4) ∧
    (∃ (k : Nat) (s : State),
      k < 8 ∧ s.socUp = true ∧ (s.rg F.CX_CORE_STAT_OFF_REQ).testBit k = true) :=
  ⟨
    ⟨{ rgs [(F.SV_CFG_STATUS_DONE, 1), (F.SV_MODE_MODE, 5)] up with pw.start := { startFresh with zeroed := true } },
     by decide +kernel⟩,
    ⟨65536, { cfs [(F.CX_BOOT_CFG_IMG_SIZE, 1)] up with cx.copying := true },
     by decide +kernel⟩,
    ⟨{ up with cx.copying := true },
     by decide +kernel⟩,
    ⟨.sv, { cfs [(F.CX_CORE_CFG_BOOT_SRC, 1), (F.CX_CORE_CFG_CORES, 0x7F)] up with pw.cxReset := false },
     by decide +kernel⟩,
    ⟨.sv, F.CX_DVFS_REQ.put 0 0, 3, cfs [(F.CX_CORE_CFG_OPP_TOP, 3)] up,
     by decide +kernel⟩,
    ⟨.sv, rgs [(F.CX_DVFS_BUSY, 1)] up,
     by decide +kernel⟩,
    ⟨none, 3, { rgs [(F.CX_DVFS_BUSY, 1)] up with cx.dvfs := some (none, 3) },
     by decide +kernel⟩,
    ⟨7, rgs [(F.CX_CORE_STAT_OFF_REQ, 0x80), (F.CX_CORE_STAT_RUN, 0xFF)] up,
     by decide +kernel⟩⟩

theorem witness_CoreCounters :
    (∃ (k r w f : Nat) (s : State),
      k < 8 ∧ (s.rg F.CX_CORE_STAT_RUN).testBit k = true ∧ r + w + f ≤ 4) ∧
    (∃ (k : Nat) (s : State),
      k < 8 ∧ (s.rg F.CX_CORE_STAT_RUN).testBit k = true ∧ (s.taggingOf k).2 ≠ 0 ∧ (s.tagsOf k).length < 16) ∧
    (∃ (a : Agent) (k : Nat) (s : State),
      s.reaches a = true ∧ k < 8 ∧ (s.tagsOf k).length ≤ 16) ∧
    (∃ (addr : Nat) (s : State),
      s.socUp = true ∧ s.pw.start.zeroed = true ∧ addr < 2 ^ 64) ∧
    (∃ (s : State),
      s.socUp = true ∧ s.pw.start.zeroed = true) ∧
    (∃ (k left opened decoded : Nat) (s : State),
      k < 8 ∧ (s.rg F.CX_CORE_STAT_RUN).testBit k = true ∧ s.rg (F.CX_TAG_CFG_EN k) = 1 ∧
      s.taggingOf k = (left, opened) ∧ 0 < left ∧ decoded ≤ left) ∧
    (∃ (k : Nat) (s : State),
      k < 8 ∧ (s.rg F.CX_CORE_STAT_RUN).testBit k = true ∧ (s.taggingOf k).2 ≠ 0 ∧ 16 ≤ (s.tagsOf k).length) :=
  ⟨
    ⟨7, 1, 1, 2, rgs [(F.CX_CORE_STAT_RUN, 0x80)] up,
     by decide +kernel⟩,
    ⟨7, (rgs [(F.CX_CORE_STAT_RUN, 0x80), (F.CX_TAG_CFG_EN 7, 1)] up).setTagging 7 (5, 1),
     by decide +kernel⟩,
    ⟨.sv, 7, { up with cx.tags := [(7, List.replicate 16 [1])] },
     by decide +kernel⟩,
    ⟨2 ^ 34 - 1, { up with pw.start := { startFresh with zeroed := true } },
     by decide +kernel⟩,
    ⟨{ up with pw.start := { startFresh with zeroed := true } },
     by decide +kernel⟩,
    ⟨7, 5, 1, 5, (rgs [(F.CX_CORE_STAT_RUN, 0x80), (F.CX_TAG_CFG_EN 7, 1)] up).setTagging 7 (5, 1),
     by decide +kernel⟩,
    ⟨7, { (rgs [(F.CX_CORE_STAT_RUN, 0x80)] up).setTagging 7 (5, 1) with cx.tags := [(7, List.replicate 16 [1])] },
     by decide +kernel⟩⟩

theorem witness_HostRingCommands :
    (∃ (a : Agent) (p r : Nat) (s : State),
      s.reaches a = true ∧ p < 2 ∧ r < 64) ∧
    (∃ (p r crc d : Nat) (x : TxNow) (f : Frame) (s : State),
      p < 2 ∧ s.txOf (36 + p) = some x ∧ s.frameOf x.copy.frame = some f ∧ State.isWhole f = true ∧ f.owner = 0 ∧
      f.parent = none ∧ s.rxRing p f x.copy.tc = (r, crc) ∧ s.hpOn p false r = true ∧
      s.hpPosted p false r (s.rg (F.CX_HP_RX_HEAD_HEAD p r)) ≠ 0 ∧ (s.egressBytes f (36 + p)).length ≤ s.rxBuf p r ∧
      d = s.hpDesc p false r (s.rg (F.CX_HP_RX_HEAD_HEAD p r)) ∧ s.badUnit d 32 = none) ∧
    (∃ (p r crc : Nat) (x : TxNow) (f : Frame) (s : State),
      p < 2 ∧ s.txOf (36 + p) = some x ∧ s.frameOf x.copy.frame = some f ∧ State.isWhole f = true ∧ f.owner = 0 ∧
      f.parent = none ∧ s.rxRing p f x.copy.tc = (r, crc) ∧ s.hpOn p false r = false) ∧
    (∃ (p r ecc : Nat) (s : State),
      p < 2 ∧ s.portUp (36 + p) = true ∧ s.txChoose p = some r ∧ ecc < 3 ∧
      (∀ i < s.txReady p r, s.badUnit (s.hpDesc p true r ((s.hpRing (ringKey p true r)).next + i)) 32 = none)) ∧
    (∃ (k : Nat) (s : State),
      k < 256 ∧ s.socUp = true ∧ (s.hpRing k).comps ≠ 0) ∧
    (∃ (p r buf len : Nat) (d frame : List Byte) (s : State),
      p < 2 ∧ s.portUp (36 + p) = true ∧ s.txChoose p = some r ∧ s.txReady p r = 1 ∧
      d = s.txDesc p r (s.hpRing (ringKey p true r)).next ∧
      s.badUnit (s.hpDesc p true r (s.hpRing (ringKey p true r)).next) 32 = none ∧ buf = ofLe (d.take 8) ∧
      len = ofLe ((d.drop 8).take 2) ∧ s.txBadFirst p r d = false ∧ len ≠ 0 ∧ s.dramOk buf len = true ∧
      s.badUnit buf len = none ∧ frame = s.dramRd buf len ++ List.replicate (60 - len) 0 ∧ beAt frame 12 2 ≠ 0x8808 ∧
      s.runtMin (s.portEpoch (36 + p)) (36 + p) ≤ frame.length + 4 ∧
      frame.length + 4 ≤ s.maxLen (s.portEpoch (36 + p)) (36 + p)) :=
  ⟨
    ⟨.sv, 1, 63, up,
     by decide +kernel⟩,
    ⟨1, 63, ((rxRing63 true).rxRing 1 (fr 3) 7).2, 0, ⟨cp 37 7, 0, false, [], [], none⟩, fr 3, rxRing63 true,
     by decide +kernel⟩,
    ⟨1, 63, ((rxRing63 false).rxRing 1 (fr 3) 7).2, ⟨cp 37 7, 0, false, [], [], none⟩, fr 3, rxRing63 false,
     by decide +kernel⟩,
    ⟨1, 63, 0, txRing63,
     by decide +kernel⟩,
    ⟨255, { up with cx.rings := [(255, ⟨true, 0, [], 1⟩)] },
     by decide +kernel⟩,
    ⟨1, 63, dramBase, 60, leBytes 8 dramBase ++ [60, 0, 35, 40] ++ List.replicate 20 0, List.replicate 60 0, txOne,
     by decide +kernel⟩⟩

/-- Outbound window 15 over the whole area, and inbound window 7 over a page of DRAM. -/
def windows (posted : Nat) : State :=
  rgs [(F.SV_CFG_STATUS_DONE, 1)] (cfs [(F.MX_HB_OWIN_ATTR_EN 15, 1), (F.MX_HB_OWIN_ATTR_POSTED 15, posted), (F.MX_HB_OWIN_LSIZE_LSIZE 15, 29),
    (F.MX_HB_OWIN_PBASE_HI_PBASE 15, 1), (F.MX_HB_IWIN_SIZE_EN 7, 1), (F.MX_HB_IWIN_SIZE_SIZE 7, 12), (F.MX_HB_IWIN_IBASE_HI_IBASE 7, 1),
    (F.MX_HB_IWIN_LADDR_HI_LADDR 7, 8)] up)
/-- A read of core 7 through window 15 that prefetches a byte. -/
def rd0 : OutRead := ⟨15, .core 7, 0, 4, 5, false, 9⟩

theorem witness_OutboundCommands :
    (∃ (addr size w : Nat) (s : State),
      s.socUp = true ∧ outBase ≤ addr ∧ addr + size ≤ outBase + outSize ∧ State.outUnsupported addr size = false ∧
      s.owFind (addr - outBase) size = some w ∧ s.owin F.MX_HB_OWIN_ATTR_POSTED w = 1 ∧ s.fenced w = false) ∧
    (∃ (addr size w pci : Nat) (s : State),
      s.socUp = true ∧ outBase ≤ addr ∧ addr + size ≤ outBase + outSize ∧ State.outUnsupported addr size = false ∧
      s.owFind (addr - outBase) size = some w ∧ pci = s.owPci w + (addr - outBase - s.owBase w) ∧
      s.preRead w pci size = none) ∧
    (∃ (addr : Nat) (s : State),
      s.socUp = true ∧ mapReserved addr = true) ∧
    (∃ (addr size : Nat) (s : State),
      s.socUp = true ∧ outBase ≤ addr ∧ addr < outBase + outSize ∧ State.outUnsupported addr size = false ∧
      s.owFind (addr - outBase) size = none) ∧
    (∃ (addr size : Nat) (s : State),
      s.socUp = true ∧ outBase ≤ addr ∧ addr + size ≤ outBase + outSize ∧ State.outUnsupported addr size = true) ∧
    (∃ (n : Nat) (r : OutRead) (res : Option (Bool × List Byte)) (pre post : List OutAccess) (s : State),
      n < 64 ∧ s.mx.reads[n]? = some r ∧ r.flush = false ∧ s.mx.order = pre ++ ⟨r.acc, r.init, r.window, res⟩ :: post ∧
      (∀ y ∈ pre, ¬ (y.init = r.init ∧ y.window = r.window))) ∧
    (∃ (n : Nat) (r : OutRead) (res : Option (Bool × List Byte)) (pre post : List OutAccess) (s : State),
      n < 64 ∧ s.socUp = true ∧ s.mx.reads[n]? = some r ∧ r.flush = false ∧
      s.mx.order = pre ++ ⟨r.acc, r.init, r.window, res⟩ :: post ∧
      (∀ y ∈ pre, ¬ (y.init = r.init ∧ y.window = r.window))) ∧
    (∃ (w : Nat),
      w < 16) ∧
    (∃ (n : Nat) (r : OutRead) (res : Option (Bool × List Byte)) (y : OutAccess) (pre post : List OutAccess) (s : State),
      n < 64 ∧ s.mx.reads[n]? = some r ∧ r.flush = false ∧ s.mx.order = pre ++ ⟨r.acc, r.init, r.window, res⟩ :: post ∧
      y ∈ pre ∧ y.init = r.init ∧ y.window = r.window ∧ y.result = none ∧ y.acc ≠ r.acc) ∧
    (∃ (addr size : Nat) (s : State),
      s.socUp = true ∧ mapReserved addr = false ∧ s.dramOk addr size = true) ∧
    (∃ (addr size : Nat) (s : State),
      s.socUp = true ∧ mapReserved addr = false ∧ s.dramOk addr size = true ∧ s.badUnit addr size = none) ∧
    (∃ (addr size : Nat) (s : State),
      s.socUp = true ∧ mapReserved addr = false ∧ dramBase ≤ addr ∧ s.dramOk addr size = false) :=
  ⟨
    ⟨outBase + outSize - 8, 8, 15, windows 1,
     by decide +kernel⟩,
    ⟨outBase + outSize - 8, 8, 15, 2 ^ 32 + outSize - 8, windows 0,
     by decide +kernel⟩,
    ⟨dramEnd, up,
     by decide +kernel⟩,
    ⟨outBase + outSize - 8, 8, up,
     by decide +kernel⟩,
    ⟨outBase + 2, 4, up,
     by decide +kernel⟩,
    ⟨0, rd0, none, [], [], { up with mx.reads := [rd0], mx.order := [⟨9, .core 7, 15, none⟩] },
     by decide +kernel⟩,
    ⟨0, rd0, none, [], [], { up with mx.reads := [rd0], mx.order := [⟨9, .core 7, 15, none⟩] },
     by decide +kernel⟩,
    ⟨15,
     by decide +kernel⟩,
    ⟨0, rd0, none, ⟨8, .core 7, 15, none⟩, [⟨8, .core 7, 15, none⟩], [],
     { up with mx.reads := [rd0], mx.order := [⟨8, .core 7, 15, none⟩, ⟨9, .core 7, 15, none⟩] },
     by decide +kernel⟩,
    ⟨dramEnd - 8, 8, up,
     by decide +kernel⟩,
    ⟨dramEnd - 8, 8, { up with mx.dram := [(dramEnd - 1, 9)] },
     by decide +kernel⟩,
    ⟨dramEnd - 4, 8, { up with sx.hamBoot := 1 },
     by decide +kernel⟩⟩

theorem witness_InboundCommands :
    (∃ (addr size w a : Nat) (data : List Byte) (s : State),
      s.socUp = true ∧ s.rg F.SV_CFG_STATUS_DONE = 1 ∧
      (if s.pw.rootPort = true then addr ≠ s.msiAddr else addr + size ≤ s.bar2Size) ∧ s.iwFind addr size = some w ∧
      a = s.iwDram w + (addr - s.iwBase w) ∧ s.dramOk a size = true ∧ data.length = size) ∧
    (∃ (addr size w a : Nat) (s : State),
      s.socUp = true ∧ s.rg F.SV_CFG_STATUS_DONE = 1 ∧ (s.pw.rootPort = false → addr + size ≤ s.bar2Size) ∧
      s.iwFind addr size = some w ∧ a = s.iwDram w + (addr - s.iwBase w) ∧ s.dramOk a size = true ∧
      s.badUnit a size = none) ∧
    (∃ (write : Bool) (addr size : Nat) (s : State),
      s.socUp = true ∧ s.rg F.SV_CFG_STATUS_DONE = 1 ∧ (¬ (s.pw.rootPort = true ∧ write = true ∧ addr = s.msiAddr)) ∧
      s.iwFind addr size = none) ∧
    (∃ (addr size w a : Nat) (ecc : Bool) (s : State),
      s.socUp = true ∧ s.rg F.SV_CFG_STATUS_DONE = 1 ∧ (s.pw.rootPort = false → addr + size ≤ s.bar2Size) ∧
      s.iwFind addr size = some w ∧ a = s.iwDram w + (addr - s.iwBase w) ∧ s.dramOk a size = true ∧
      (ecc = true ∨ (s.badUnit a size).isSome = true)) :=
  ⟨
    ⟨2 ^ 32 + 4092, 4, 7, dramBase + 4092, [1, 2, 3, 4], { windows 0 with pw.rootPort := true },
     by decide +kernel⟩,
    ⟨2 ^ 32 + 4092, 4, 7, dramBase + 4092, { windows 0 with pw.rootPort := true },
     by decide +kernel⟩,
    ⟨false, 2 ^ 32 + 4094, 4, windows 0,
     by decide +kernel⟩,
    ⟨2 ^ 32 + 4092, 4, 7, dramBase + 4092, true, { windows 0 with pw.rootPort := true },
     by decide +kernel⟩⟩

theorem witness_BridgeEvents :
    (∃ (s : State),
      s.socUp = true ∧ s.pw.rootPort = true) ∧
    (∃ (s : State),
      s.socUp = true ∧ s.pw.rootPort = false) ∧
    (∃ (s : State),
      s.socUp = true) ∧
    (∃ (s : State),
      s.socUp = true) ∧
    (∃ (s : State),
      s.socUp = true ∧ s.pw.rootPort = true ∧ s.mx.msi.length < 16) ∧
    (∃ (s : State),
      s.socUp = true ∧ s.pw.rootPort = true ∧ 16 ≤ s.mx.msi.length) ∧
    (∃ (a : Agent) (s : State),
      s.reaches a = true) :=
  ⟨
    ⟨{ up with pw.rootPort := true },
     by decide +kernel⟩,
    ⟨{ up with mx.queued := [⟨15, none, 0, []⟩] },
     by decide +kernel⟩,
    ⟨up,
     by decide +kernel⟩,
    ⟨rgs [(F.MX_HB_STAT_LINK_UP, 1)] up,
     by decide +kernel⟩,
    ⟨{ up with pw.rootPort := true, mx.msi := List.replicate 15 1 },
     by decide +kernel⟩,
    ⟨{ up with pw.rootPort := true, mx.msi := List.replicate 16 1 },
     by decide +kernel⟩,
    ⟨.sv, rgs [(F.MX_HB_STAT_FENCED, 0xFFFF)] up,
     by decide +kernel⟩⟩

/-- A container's first slot with one plain block and SVN 0. -/
def firstSlot : List Byte :=
  [0x45, 0x55, 0x43, 0x31, 1, 2, 0, 0, 0, 0, 0, 0, 0, 0, 0, 0, 0, 0, 0, 1, 0, 0, 0, 112] ++ List.replicate 600 0
/-- A session of core 7 with the first slot accepted. -/
def session (got : Nat) : State :=
  { rgs [(F.SV_UPD_STAT_SESSION, 2)] up with upd.owner := some (.core 7), upd.first := firstSlot, upd.got := got }
/-- A message of RESCUE with its length, number and CRC. -/
def rescueMsg (type : Nat) (p : List Byte) : List Byte :=
  let m := beBytes 2 type ++ beBytes 2 p.length ++ beBytes 4 9 ++ p
  m ++ beBytes 4 (crc32c m)
/-- It in a frame of P40. -/
def p40 (m : List Byte) : List Byte := List.replicate 12 1 ++ [0x88, 0xB5] ++ m
def rescuing : State := { up with pw.rescue := true }
def copying (next : List Nat) (retries : Nat) : State := { up with upd.copy := ⟨true, next, 0, 0, false, retries, 0⟩ }
/-- A chunk of 1,024 bytes: block 0, offset 64,512. -/
def chunk : List Byte := beBytes 2 0 ++ beBytes 4 (63 * 1024) ++ List.replicate 1024 7
theorem chunk_length : chunk.length = 1030 := by
  unfold chunk; rw [List.length_append, List.length_replicate]; rfl
theorem ofLe_beBytes4 (v : Nat) (h : v < 2 ^ 32) : ofBe (beBytes 4 v) = v := by
  unfold ofBe beBytes
  rw [List.reverse_reverse]
  simp only [leBytes, ofLe, BitVec.toNat_ofNat]
  omega
theorem reverseBits_lt : ∀ (w v : Nat), reverseBits w v < 2 ^ w
  | 0, _ => Nat.one_pos
  | w + 1, v => by
    have h := reverseBits_lt w (v / 2)
    have : v % 2 * 2 ^ w ≤ 1 * 2 ^ w := Nat.mul_le_mul_right _ (by omega)
    unfold reverseBits
    rw [Nat.pow_succ]
    omega
theorem crc32c_lt (l : List Byte) : crc32c l < 2 ^ 32 :=
  Nat.xor_lt_two_pow (reverseBits_lt 32 _) (by decide)
theorem chunk_msg :
    State.rescueMsgOf 1 (p40 (rescueMsg 3 chunk)) 3 = some (rescueMsg 3 chunk) := by
  have h := crc32c_lt (beBytes 2 3 ++ beBytes 2 1030 ++ beBytes 4 9 ++ chunk)
  unfold rescueMsg
  rw [chunk_length]
  dsimp only
  generalize hm : beBytes 2 3 ++ beBytes 2 1030 ++ beBytes 4 9 ++ chunk = m at h ⊢
  have hl : m.length = 1038 := by
    rw [← hm, List.length_append, chunk_length]; rfl
  generalize hc : crc32c m = c at h ⊢
  have h4 : (beBytes 4 c).length = 4 := rfl
  have e1 : beAt (m ++ beBytes 4 c) 0 2 = 3 := by rw [← hm]; rfl
  have e2 : beAt (m ++ beBytes 4 c) 2 2 = 1030 := by rw [← hm]; rfl
  have e3 : beAt (m ++ beBytes 4 c) 1038 4 = c := by
    unfold beAt slice0
    rw [List.drop_append_of_le_length (by omega), List.drop_eq_nil_of_le (by omega), List.nil_append,
      List.take_of_length_le (by omega)]
    show ofBe (beBytes 4 c ++ List.replicate (4 - (beBytes 4 c).length) 0) = c
    rw [h4, Nat.sub_self, List.replicate_zero, List.append_nil]
    exact ofLe_beBytes4 c h
  have e4 : (m ++ beBytes 4 c).take 1038 = m := by
    rw [List.take_append_of_le_length (by omega), List.take_of_length_le (by omega)]
  generalize hn : m ++ beBytes 4 c = n at e1 e2 e3 e4 ⊢
  have hl' : n.length = 1042 := by rw [← hn, List.length_append, hl, h4]
  have hh : State.rescueHead n = n := by
    unfold State.rescueHead
    rw [e2, List.take_of_length_le (by omega)]
  have hw : State.rescueWhole n = true := by
    unfold State.rescueWhole
    simp only [hl', e2, show 1042 - 4 = 1038 from rfl, e3, e4, hc]
    rfl
  have hp : State.p40Msg (p40 n) = some n := by
    unfold State.p40Msg
    have hd : (p40 n).drop 14 = n := rfl
    simp only [hd, hh, hw]
    rfl
  unfold State.rescueMsgOf
  rw [if_neg (by decide), hp]
  simp [e1]
theorem chunk_payload : State.rescuePayload (rescueMsg 3 chunk) = chunk := by
  unfold rescueMsg State.rescuePayload
  rw [chunk_length]
  dsimp only
  generalize crc32c _ = c
  have h4 : (beBytes 4 c).length = 4 := rfl
  have hh : (beBytes 2 3 ++ beBytes 2 1030 ++ beBytes 4 9).length = 8 := rfl
  rw [show (beBytes 2 3 ++ beBytes 2 1030 ++ beBytes 4 9 ++ chunk ++ beBytes 4 c) =
    (beBytes 2 3 ++ beBytes 2 1030 ++ beBytes 4 9) ++ (chunk ++ beBytes 4 c) by simp only [List.append_assoc]]
  rw [List.drop_append_of_le_length (by omega), List.drop_eq_nil_of_le (by omega), List.nil_append]
  simp only [List.length_append, h4, chunk_length]
  rw [List.take_append_of_le_length (by rw [chunk_length]; decide), List.take_of_length_le (by rw [chunk_length]; decide)]

theorem witness_UpdateCommands :
    (∃ (a : Agent) (s : State),
      s.reaches a = true ∧ s.updBusy a = false ∧ s.updPermitted a = true ∧ s.upd.owner = none ∧ s.enrolling = false) ∧
    (∃ (a : Agent) (s : State),
      s.reaches a = true ∧ a.ownerCode ≤ 12 ∧ s.updBusy a = false ∧ s.updPermitted a = false) ∧
    (∃ (a : Agent) (s : State),
      s.reaches a = true ∧ a.ownerCode ≤ 12 ∧ s.updBusy a = false ∧ s.updPermitted a = true ∧
      (s.upd.owner ≠ none ∨ s.enrolling = true)) ∧
    (∃ (a : Agent) (addr p : Nat) (s : State),
      s.reaches a = true ∧ s.updBusy a = false ∧ s.upd.owner = some a ∧ p = s.updAddr a addr) ∧
    (∃ (a : Agent) (b addr p : Nat) (s : State),
      s.reaches a = true ∧ s.updBusy a = false ∧ s.upd.owner = some a ∧ s.headerAccepted = true ∧ b < 256 ∧
      b < cBlocks s.upd.first ∧ p = s.updAddr a addr ∧ s.dramOk p 65536 = true ∧ (s.kxUse 7 4).2 = true) ∧
    (∃ (a : Agent) (s : State),
      s.reaches a = true ∧ s.updBusy a = false ∧ s.upd.owner = some a ∧ s.headerAccepted = true ∧
      (∀ b < cBlocks s.upd.first, s.upd.got.testBit b = true) ∧ s.rollback s.upd.first = false) ∧
    (∃ (a : Agent) (s : State),
      s.reaches a = true ∧ s.updBusy a = false ∧ s.upd.owner = some a) ∧
    (∃ (a : Agent) (s : State),
      s.socUp = true ∧ s.upd.owner = some a) ∧
    (∃ (a b : Agent) (i : Nat) (s : State),
      s.socUp = true ∧ s.upd.owner = some b ∧ s.upd.job = some (a, 4, i)) :=
  ⟨
    ⟨.core 7, cfs [(F.SV_UPD_CFG_AGENTS, 0x80)] up,
     by decide +kernel⟩,
    ⟨.core 7, cfs [(F.SV_UPD_CFG_AGENTS, 0x7F)] up,
     by decide +kernel⟩,
    ⟨.pcie, cfs [(F.SV_UPD_CFG_AGENTS, 0x100)] { up with upd.owner := some .pcie },
     by decide +kernel⟩,
    ⟨.bersan 3, dramBase, dramBase, { up with upd.owner := some (.bersan 3), sv.bersan := [(3, some 3)] },
     by decide +kernel⟩,
    ⟨.core 7, 0, 0, dramBase, rgs [(F.SV_UPD_ADDR_HI_ADDR 7, 8), (F.KX_NODE_STAT_W0_STATE 7, 1)] (session 0),
     by decide +kernel⟩,
    ⟨.core 7, session 1,
     by decide +kernel⟩,
    ⟨.core 7, session 0,
     by decide +kernel⟩,
    ⟨.core 7, session 0,
     by decide +kernel⟩,
    ⟨.bersan 3, .core 7, 0,
     { session 1 with upd.job := some (.bersan 3, 4, 0), sv.tasks := [⟨.activate (.bersan 3), []⟩] },
     by decide +kernel⟩⟩

theorem witness_CopyCommands :
    (∃ (slot : Nat) (rest : List Nat) (s : State),
      s.socUp = true ∧ s.upd.copy.running = true ∧ slot < 256 ∧ s.upd.copy.next = slot :: rest ∧
      s.slotSame slot = true) ∧
    (∃ (slot : Nat) (rest : List Nat) (s : State),
      s.socUp = true ∧ s.upd.copy.running = true ∧ slot < 256 ∧ s.upd.copy.next = slot :: rest ∧
      s.slotSame slot = false) ∧
    (∃ (slot : Nat) (rest : List Nat) (s : State),
      s.socUp = true ∧ s.upd.copy.running = true ∧ s.upd.copy.next = slot :: rest ∧ s.slotSame slot = false ∧
      s.upd.copy.retries = 0) ∧
    (∃ (slot : Nat) (rest : List Nat) (s : State),
      s.socUp = true ∧ s.upd.copy.running = true ∧ s.upd.copy.next = slot :: rest ∧ s.slotSame slot = false ∧
      1 ≤ s.upd.copy.retries) ∧
    (∃ (s : State),
      s.socUp = true ∧ s.upd.copy.running = true ∧ s.upd.copy.next = []) :=
  ⟨
    ⟨0, [1], copying [0, 1] 1,
     by decide +kernel, by decide +kernel, by decide, by decide +kernel, slot0Same _ rfl⟩,
    ⟨0, [1], { copying [0, 1] 0 with nv.flash := [(nvStaging, 5)] },
     by decide +kernel⟩,
    ⟨0, [], { copying [0] 0 with nv.flash := [(nvStaging, 5)] },
     by decide +kernel⟩,
    ⟨0, [], { copying [0] 1 with nv.flash := [(nvStaging, 5)] },
     by decide +kernel⟩,
    ⟨copying [] 0,
     by decide +kernel⟩⟩

theorem witness_RescueCommands :
    (∃ (s : State),
      s.socUp = true ∧ s.pw.start.firmware = false ∧ s.pw.rescue = false ∧ s.pw.start.tested = false) ∧
    (∃ (s : State),
      s.socUp = true ∧ s.pw.start.firmware = false ∧ s.pw.rescue = false ∧ s.pw.start.tested = true) ∧
    (∃ (pufOk : Bool) (s : State) (p : List Byte),
      s.socUp = true ∧ s.pw.rescue = true ∧ s.upd.rescue.link = none ∧
      p = beBytes 4 (s.rd R.SV_DEVICE_ID).toNat ++ [Byte.ofNat (s.rg F.KX_STAT_LC), Byte.ofNat s.nv.counter, if s.keysAvailable pufOk = true then 1 else 0] ++ beBytes 4 s.rescueVersion) ∧
    (∃ (link sector : Nat) (c msg bs : List Byte) (s : State),
      link < 2 ∧ s.socUp = true ∧ s.pw.rescue = true ∧ State.rescueMsgOf link bs 2 = some msg ∧
      sector = beAt (State.rescuePayload msg) 0 2 ∧ c = (State.rescuePayload msg).drop 2) ∧
    (∃ (link b off : Nat) (p msg bs : List Byte) (s : State),
      link < 2 ∧ s.socUp = true ∧ s.pw.rescue = true ∧ State.rescueMsgOf link bs 3 = some msg ∧
      p = State.rescuePayload msg ∧ b = beAt p 0 2 ∧ off = beAt p 2 4 ∧ s.upd.rescue.link = some link ∧
      s.upd.first ≠ [] ∧ b < cBlocks s.upd.first ∧ off % 1024 = 0 ∧ off < 65536 ∧ p.length = 1030 ∧
      setBit (Sparse.get (fun _ => 0) s.upd.rescue.chunks b) (off / 1024) ≠ 2 ^ 64 - 1) ∧
    (∃ (link : Nat) (msg bs : List Byte) (s : State),
      link < 2 ∧ s.socUp = true ∧ s.pw.rescue = true ∧ State.rescueMsgOf link bs 3 = some msg ∧
      s.upd.rescue.link = none ∧ s.upd.first = []) ∧
    (∃ (link : Nat) (msg bs : List Byte) (s : State),
      link < 2 ∧ s.socUp = true ∧ s.pw.rescue = true ∧ s.pw.resetN = false ∧ State.rescueMsgOf link bs 4 = some msg ∧
      (s.pw.start.tested = true ∨ s.pw.start.origin ≠ s.now)) ∧
    (∃ (link : Nat) (msg bs : List Byte) (code : Nat) (s : State),
      link < 2 ∧ s.socUp = true ∧ s.pw.rescue = true ∧ State.rescueMsgOf link bs 4 = some msg ∧
      s.rescueActivateCheck link = some code) ∧
    (∃ (link : Nat) (bs : List Byte),
      State.rescueMsgOf link bs 2 = none ∧ State.rescueMsgOf link bs 3 = none ∧ State.rescueMsgOf link bs 4 = none) :=
  ⟨
    ⟨up,
     by decide +kernel⟩,
    ⟨{ up with pw.start := { startFresh with tested := true } },
     by decide +kernel⟩,
    ⟨true, rescuing,
     (let pufOk : Bool := true; let s : State := rescuing; beBytes 4 (s.rd R.SV_DEVICE_ID).toNat ++ [Byte.ofNat (s.rg F.KX_STAT_LC), Byte.ofNat s.nv.counter, if s.keysAvailable pufOk = true then 1 else 0] ++ beBytes 4 s.rescueVersion),
     by decide +kernel⟩,
    ⟨1, 5, [1, 2], (let c : List Byte := [1, 2]; rescueMsg 2 (beBytes 2 5 ++ c)),
     (let c : List Byte := [1, 2]; let msg : List Byte := rescueMsg 2 (beBytes 2 5 ++ c); p40 msg), rescuing,
     by decide +kernel⟩,
    ⟨1, 0, 63 * 1024, chunk, rescueMsg 3 chunk, p40 (rescueMsg 3 chunk),
     { rescuing with upd.rescue := ⟨some 1, 0, 0, [], []⟩, upd.first := firstSlot },
     by decide, by decide, by decide, chunk_msg, chunk_payload.symm, by decide, by decide, by decide, by decide,
     by decide, by decide, by decide, chunk_length, by decide +kernel⟩,
    ⟨0, rescueMsg 3 [], (let msg : List Byte := rescueMsg 3 []; [9, 0x55, 0xAA] ++ msg ++ [3]), rescuing,
     by decide +kernel⟩,
    ⟨1, rescueMsg 4 [], (let msg : List Byte := rescueMsg 4 []; p40 msg), { rescuing with pw.start.tested := true },
     by decide +kernel⟩,
    ⟨1, rescueMsg 4 [], (let msg : List Byte := rescueMsg 4 []; p40 msg), 0xE, rescuing,
     by decide +kernel⟩,
    ⟨0, [0x55, 0xAA, 1],
     by decide +kernel⟩⟩

theorem witness_BersanCommands :
    (∃ (n node port udp : Nat) (tagged : Bool) (s : State),
      s.socUp = true ∧ s.pw.start.firmware = true ∧ n < 4 ∧ node < 1024 ∧ s.sessionNode n = none ∧
      ((s.rg F.SV_CFG_DOMAINS_PRESENT).testBit 0 = true ∨ (node = 3 ∧ port = 40 ∧ udp = 49321 ∧ tagged = false)) ∧
      (s.kxUse node 3).2 = true) ∧
    (∃ (node port udp : Nat) (tagged : Bool) (s : State),
      (s.rg F.SV_CFG_DOMAINS_PRESENT).testBit 0 = false ∧ (node ≠ 3 ∨ port ≠ 40 ∨ udp ≠ 49321 ∨ tagged = true)) ∧
    (∃ (n : Nat) (s : State),
      s.socUp = true ∧ n < 4 ∧ s.sessionNode n ≠ none) :=
  ⟨
    ⟨3, 1023, 5, 9, true,
     { rgs [(F.SV_CFG_DOMAINS_PRESENT, 1), (F.KX_NODE_STAT_W0_STATE 1023, 1)] (cfs [(F.KX_NODE_W1_POLICY 1023, 8)] up) with pw.start := { startFresh with firmware := true } },
     by decide +kernel⟩,
    ⟨3, 40, 49321, true, up,
     by decide +kernel⟩,
    ⟨3, { up with sv.bersan := [(3, some 3)] },
     by decide +kernel⟩⟩

/-- Ring 8 has two records in its FIFO, and DRAM is ready. -/
def ring8 (tail : Nat) : State :=
  { rgs [(F.OB_RING_TAIL_TAIL 8, tail)] (cfs [(F.OB_RING_BASE_HI_BASE 8, 8)] up) with
    ob.rings := [(8, ⟨[List.replicate 144 1, List.replicate 144 2], 0⟩)], pw.start := { startFresh with zeroed := true } }
/-- CSU 7 with a frame to cover. -/
def csu7 (l : List (Fld × Nat)) : State := { rgs l up with ob.csu := [(7, ⟨true, [[1, 2, 3]]⟩)] }
/-- The ledger in a booted state. -/
def ledger (x : Ledger) : State := { rgs [(F.SV_CFG_STATUS_DONE, 1)] up with ob.ledger := x }

theorem witness_SlotAndRingCommands :
    (∃ (a : Agent) (data : Word) (s : State),
      s.reaches a = true ∧ F.OB_SLOT_CLR_CLR.get data = 1) ∧
    (∃ (a : Agent) (data : Word) (s : State),
      s.reaches a = true ∧ F.OB_SLOT_CLR_CLR.get data = 0) ∧
    (∃ (s : State),
      s.socUp = true) ∧
    (∃ (r : Nat) (x : List Byte) (rest : List (List Byte)) (s : State),
      r < 9 ∧ s.socUp = true ∧ s.dramReady = true ∧ (s.ringOf r).fifo = x :: rest ∧
      s.dramOk (s.ringBase r) (s.ringBytes r) = true ∧ s.ringFull r = false) ∧
    (∃ (r : Nat) (x : List Byte) (rest : List (List Byte)) (s : State),
      r < 9 ∧ s.socUp = true ∧ s.dramReady = true ∧ (s.ringOf r).fifo = x :: rest ∧
      s.dramOk (s.ringBase r) (s.ringBytes r) = true ∧ s.ringFull r = true) :=
  ⟨
    ⟨.sv, F.OB_SLOT_CLR_CLR.put 0 1, rgs [(F.OB_SLOT_PEND_SLOTS, 5)] up,
     by decide +kernel⟩,
    ⟨.sv, F.OB_SLOT_CLR_CLR.put 0xFFFFFFFF 0, up,
     by decide +kernel⟩,
    ⟨up,
     by decide +kernel⟩,
    ⟨8, List.replicate 144 1, [List.replicate 144 2], ring8 2,
     by decide +kernel⟩,
    ⟨8, List.replicate 144 1, [List.replicate 144 2], ring8 1,
     by decide +kernel⟩⟩

theorem witness_SnoopCommands :
    (∃ (u : Nat) (bs : List Byte) (rest : List (List Byte)) (s : State),
      u < 8 ∧ s.socUp = true ∧ (s.csuOf u).stream = bs :: rest ∧ s.rg (F.OB_CSU_STAT_HOLD_ACK u) = 1) ∧
    (∃ (u : Nat) (bs : List Byte) (rest : List (List Byte)) (s : State),
      u < 8 ∧ s.socUp = true ∧ (s.csuOf u).stream = bs :: rest ∧ s.rg (F.OB_CSU_STAT_HOLD_ACK u) = 0 ∧
      s.csuPasses u bs = true ∧ s.csuCovered u bs ≠ [] ∧ s.act (F.OB_CSU_CFG_MODE u) = 0) ∧
    (∃ (a : Agent) (u : Nat) (s : State),
      s.reaches a = true ∧ s.csuOpen u = true) ∧
    (∃ (u : Nat) (s : State),
      u < 8 ∧ s.socUp = true ∧ s.rg (F.OB_CSU_CTL_HOLD u) = 1) ∧
    (∃ (a : Agent) (s : State),
      s.reaches a = true ∧ s.booted = true) ∧
    (∃ (a : Agent) (u : Nat) (s : State),
      s.reaches a = true ∧ s.csuOpen u = true ∧ s.rg (F.OB_CSU_STAT_HOLD_ACK u) = 1) ∧
    (∃ (a : Agent) (u : Nat) (s : State),
      s.reaches a = true ∧ s.rg (F.OB_CSU_STAT_HOLD_ACK u) = 0) :=
  ⟨
    ⟨7, [1, 2, 3], [], csu7 [(F.OB_CSU_STAT_HOLD_ACK 7, 1)],
     by decide +kernel⟩,
    ⟨7, [1, 2, 3], [], csu7 [],
     by decide +kernel⟩,
    ⟨.sv, 0, rgs [(F.SV_CFG_STATUS_DONE, 1)] up,
     by decide +kernel⟩,
    ⟨7, rgs [(F.OB_CSU_CTL_HOLD 7, 1)] up,
     by decide +kernel⟩,
    ⟨.sv, rgs [(F.SV_CFG_STATUS_DONE, 1)] up,
     by decide +kernel⟩,
    ⟨.sv, 7, rgs [(F.OB_CSU_STAT_HOLD_ACK 7, 1)] up,
     by decide +kernel⟩,
    ⟨.sv, 7, up,
     by decide +kernel⟩⟩

theorem witness_LedgerCommands :
    (∃ (x : LedgerRec) (n : Nat) (s : State),
      s.booted = true ∧ s.ob.ledger.scanned = true ∧ s.ob.ledger.buf = [x] ∧ s.ob.ledger.lostPending = 0 ∧
      n = s.ob.ledger.nextSeq ∧ n % 64 ≠ 0 ∧ recBlank (s.recAt n) = true) ∧
    (∃ (s : State),
      s.booted = true ∧ s.ob.ledger.scanned = false) ∧
    (∃ (a : Agent) (s : State),
      s.reaches a = true ∧ s.ob.ledger.verify = none) ∧
    (∃ (a b : Agent) (s : State),
      s.reaches a = true ∧ s.ob.ledger.verify = some b) ∧
    (∃ (a : Agent) (s : State),
      s.socUp = true ∧ s.ob.ledger.verify = some a) :=
  ⟨
    ⟨⟨5, 0, 0, 0, [1]⟩, 2 ^ 32 - 1,
     ledger { ledgerFresh with buf := [⟨5, 0, 0, 0, [1]⟩], scanned := true, nextSeq := 2 ^ 32 - 1 },
     by decide +kernel⟩,
    ⟨ledger ledgerFresh,
     by decide +kernel⟩,
    ⟨.sv, up,
     by decide +kernel⟩,
    ⟨.sv, .core 0, { up with ob.ledger := { ledgerFresh with verify := some (.core 0) } },
     by decide +kernel⟩,
    ⟨.sv, { up with ob.ledger := { ledgerFresh with verify := some .sv } },
     by decide +kernel⟩⟩

end Sys2Proof.Tests
end

section
/-!
PROOFS. What an access to the register space answers (R1, R2, R6, R39): one lemma for each branch of a read and of a
write, the refusal of a SHADOW write (R107), and the two statements about accesses put together from them.
-/

namespace Sys2Proof.Machine

namespace State

/-! ### The addressed bytes of a word -/

/-- The bytes that a full access addresses are the whole word. -/
theorem wholeWord_bytes (v : Word) {off : Nat} (h : off % 4 = 0) :
    Word.ofNat (v.toNat / 2 ^ (8 * (off % 4)) % 2 ^ (8 * Width.word.bytes)) = v := by
  have hv : v.toNat % 2 ^ (8 * Width.word.bytes) = v.toNat := Nat.mod_eq_of_lt v.isLt
  rw [h, Nat.mul_zero, Nat.pow_zero, Nat.div_one, hv]
  simp

theorem zeroWord_bytes (i n : Nat) : Word.ofNat ((0 : Word).toNat / 2 ^ i % 2 ^ n) = 0 := by
  simp

/-! ### Which accesses are refused -/

theorem accessError_of_misaligned {s : State} {a : Agent} {off : Nat} {w : Width} (hr : s.reaches a = true)
    (h : off % w.bytes ≠ 0) : s.accessError a off w = some .busError := by
  simp [accessError, hr, h]

theorem accessError_of_aligned {s : State} {a : Agent} {off : Nat} {w : Width} (hr : s.reaches a = true)
    (h : off % w.bytes = 0) (ho : off < 0xC000000) : s.accessError a off w = none := by
  have hb : ¬ 0x10000000 ≤ off := by omega
  simp [accessError, hr, h, hb]

/-- No message RAM word stands where no register is defined. -/
theorem badRam_of_undefined (s : State) {off : Nat} (h : regRow off = none) : s.badRam off = none := by
  simp [badRam, h]

/-- The message RAMs stand in the ACTIVE view (R322). -/
theorem badRam_of_shadowView (s : State) {off : Nat} (h : 0x800000 ≤ off % 0x1000000) : s.badRam off = none := by
  have hw : ramWord off = none := if_neg (by omega)
  simp [badRam, hw]

/-! ### Reads -/

theorem readSpace_active (s : State) {off : Nat} (ho : off < 0xC000000) (hv : off % 0x1000000 < 0x800000) :
    s.readSpace off = s.readActive off := by
  rw [readSpace, if_neg (by omega), if_pos hv]

theorem readSpace_shadow (s : State) {off : Nat} (ho : off < 0xC000000) (hv : 0x800000 ≤ off % 0x1000000) :
    s.readSpace off = (s, s.shadowWord (off - 0x800000)) := by
  rw [readSpace, if_neg (by omega), if_neg (by omega)]

theorem readActive_of_undefined (s : State) {off : Nat} (h : regRow off = none) : s.readActive off = (s, 0) := by
  simp [readActive, h]

/-- The SHADOW view shows the registers of the configuration domains only (R39). -/
theorem shadowWord_of_unconfigured (s : State) {off : Nat} (h : ∀ r, regRow off = some r → r.cd = none) :
    s.shadowWord off = 0 := by
  unfold shadowWord
  cases hr : regRow off with
  | none => rfl
  | some r => simp [h r hr]

theorem regRead_of_misaligned {s : State} {a : Agent} {off : Nat} {w : Width} (hr : s.reaches a = true)
    (h : off % w.bytes ≠ 0) : s.regRead a off w = s.answer .busError := by
  simp [regRead, accessError_of_misaligned hr h]

/-- A read that is not refused is the full read of its word and answers the addressed bytes (R1). -/
theorem regRead_of_aligned {s : State} {a : Agent} {off : Nat} {w : Width} (hr : s.reaches a = true)
    (h : off % w.bytes = 0) (ho : off < 0xC000000) (hb : s.badRam (off - off % 4) = none) :
    s.regRead a off w = (s.readSpace (off - off % 4)).1.answer
      (.value (Word.ofNat ((s.readSpace (off - off % 4)).2.toNat / 2 ^ (8 * (off % 4)) % 2 ^ (8 * w.bytes)))) := by
  simp [regRead, accessError_of_aligned hr h ho, hb]

theorem regRead_word {s : State} {a : Agent} {off : Nat} (hr : s.reaches a = true) (h : off % 4 = 0)
    (ho : off < 0xC000000) (hb : s.badRam off = none) :
    s.regRead a off .word = (s.readSpace off).1.answer (.value (s.readSpace off).2) := by
  have hz : off - off % 4 = off := by omega
  rw [regRead_of_aligned hr h ho (by rwa [hz]), hz, wholeWord_bytes _ h]

/-- A read where no register is defined answers 0 and has no effect, whatever its width (R2). -/
theorem regRead_of_undefined {s : State} {a : Agent} {off : Nat} {w : Width} (hr : s.reaches a = true)
    (h : off % w.bytes = 0) (ho : off < 0xC000000) (hv : off % 0x1000000 < 0x800000)
    (hn : regRow (off - off % 4) = none) : s.regRead a off w = s.answer (.value 0) := by
  have hs : s.readSpace (off - off % 4) = (s, 0) := by
    rw [readSpace_active s (by omega) (by omega), readActive_of_undefined s hn]
  rw [regRead_of_aligned hr h ho (badRam_of_undefined s hn), hs, zeroWord_bytes]

/-- Any agent that reaches the space reads the SHADOW view (R39). -/
theorem regRead_shadow {s : State} {a : Agent} {off : Nat} (hr : s.reaches a = true) (h : off % 4 = 0)
    (ho : off < 0xC000000) (hv : 0x800000 ≤ off % 0x1000000) :
    s.regRead a off .word = s.answer (.value (s.shadowWord (off - 0x800000))) := by
  rw [regRead_word hr h ho (badRam_of_shadowView s hv), readSpace_shadow s ho hv]

/-! ### Writes of the ACTIVE view -/

/-- A misaligned write and a narrow one are refused (R1). -/
theorem regWrite_refused {s : State} {a : Agent} {off : Nat} {w : Width} (data : Word) (hr : s.reaches a = true)
    (ho : off < 0xC000000) (h : off % w.bytes ≠ 0 ∨ w ≠ .word) : s.regWrite a off w data = s.answer .busError := by
  by_cases hm : off % w.bytes = 0
  · have hw : w ≠ .word := h.resolve_left (not_not_intro hm)
    simp [regWrite, accessError_of_aligned hr hm ho, hw]
  · simp [regWrite, accessError_of_misaligned hr hm]

theorem regWrite_active {s : State} {a : Agent} {off : Nat} (data : Word) (hr : s.reaches a = true) (h : off % 4 = 0)
    (ho : off < 0xC000000) (hv : off % 0x1000000 < 0x800000) :
    s.regWrite a off .word data = (s.writeActive a off data).answer .done := by
  simp [regWrite, accessError_of_aligned (w := .word) hr h ho, Nat.not_le.mpr ho, hv]

theorem writeActive_of_undefined (s : State) (a : Agent) {off : Nat} (data : Word) (h : regRow off = none) :
    s.writeActive a off data = s := by
  simp [writeActive, h]

/-- The ACTIVE view of a configured register takes no write (R6). -/
theorem writeActive_of_configured (s : State) (a : Agent) {off d : Nat} {r : RegRow} (data : Word)
    (h : regRow off = some r) (hd : r.cd = some d) : s.writeActive a off data = s := by
  simp [writeActive, h, hd]

/-! ### Writes of the SHADOW view -/

theorem shadowTake_of_unconfigured (s : State) (a : Agent) (off reg : Nat) {row : Option RegRow} (data : Word)
    (h : ∀ r, row = some r → r.cd = none) : s.shadowTake a off reg row data = s := by
  cases row with
  | none => rfl
  | some r => simp [shadowTake, h r rfl]

/-- A write outside an owning transaction is refused (R107). -/
theorem shadowTake_of_not_mine {s : State} {a : Agent} {off d : Nat} {r : RegRow} (reg : Nat) (data : Word)
    (h : off % 4 = 0) (hv : 0x800000 ≤ off % 0x1000000) (hd : r.cd = some d) (hs : r.rsOf d = true)
    (hm : s.shadowMine a d = false) : s.shadowTake a off reg (some r) data = s.shadowRefuse a off := by
  have hn : ¬ off % 0x1000000 < 0x800000 := Nat.not_lt.mpr hv
  simp [shadowTake, hd, hs, hm, h, hn]

theorem shadowRefuse_moves (s : State) (a : Agent) (off : Nat) :
    moves [.freeN, .out, .regs, .scope] s (s.shadowRefuse a off) :=
  moves_shadowRefuse (List.Subset.refl _) (moves_refl s)

@[simp] theorem shadowRefuse_active (s : State) (a : Agent) (off : Nat) : (s.shadowRefuse a off).active = s.active :=
  (shadowRefuse_moves s a off).1 .active (by decide)

@[simp] theorem shadowRefuse_shadow (s : State) (a : Agent) (off : Nat) : (s.shadowRefuse a off).shadow = s.shadow :=
  (shadowRefuse_moves s a off).1 .shadow (by decide)

/-- A refusal changes no register but its counter, its first address and the status of event 11 (R107). -/
theorem rd_shadowRefuse (s : State) (a : Agent) (off o : Nat) (hc : o ≠ R.SV_TX_SHADOW_REFUSED)
    (ha : o ≠ R.SV_TX_SHADOW_ADDR) (he : o ≠ R.SV_EV_STATUS 0) : (s.shadowRefuse a off).rd o = s.rd o := by
  have count : (s.bump F.SV_TX_SHADOW_REFUSED_COUNT).rd o = s.rd o := rd_setRg_ne s _ _ o hc
  unfold shadowRefuse
  dsimp only
  generalize s.bump F.SV_TX_SHADOW_REFUSED_COUNT = t at count ⊢
  have address : (if t.rd R.SV_TX_SHADOW_ADDR = 0 then
      ((t.setRg F.SV_TX_SHADOW_ADDR_OFFSET off).setRg F.SV_TX_SHADOW_ADDR_OWNER (t.ownerShown a)).useFree
      else t).rd o = t.rd o := by
    split
    · rw [useFree_rd, rd_setRg_ne _ _ _ _ ha, rd_setRg_ne _ _ _ _ ha]
    · rfl
  have told := (rd_raise _ 11 (some a) o he).trans (address.trans count)
  cases a <;> exact told

end State

/-! ### The commands of the fabric -/

open State

theorem exec_registerWrite (a : Agent) (off : Nat) (w : Width) (data : Word) (s : State) :
    exec (.registerWrite a off w data) s = .next (s.regWrite a off w data) := rfl

theorem exec_rcRead (a : Agent) (off : Nat) (w : Width) (s : State) :
    exec (.rcRead a off w) s = .next (s.regRead a off w) := rfl

theorem exec_shadowWrite {a : Agent} {off : Nat} (data : Word) {s : State} (hr : s.reaches a = true)
    (h : off % 4 = 0) : exec (.shadowWrite a off data) s = .next ((s.shadowWrite a off data).answer .done) := by
  show execShadowWrite a off data s = _
  rw [execShadowWrite, if_neg (fun k => k.2 h), byAgent_reaches s a _ hr]

/-- A narrow read has the effect of the full read of its word and answers the addressed bytes of it (R1). -/
theorem rcRead_as_full_read {a : Agent} {off : Nat} {w : Width} {s : State} (hr : s.reaches a = true)
    (ho : off < 0xC000000) (h : off % w.bytes = 0) (hb : s.badRam (off - off % 4) = none) :
    ∃ t v, exec (.rcRead a (off - off % 4) .word) s = .next t ∧ t.resp = .value v ∧
      exec (.rcRead a off w) s =
        .next { t with resp := .value (Word.ofNat (v.toNat / 2 ^ (8 * (off % 4)) % 2 ^ (8 * w.bytes))) } := by
  have full := regRead_word hr (off := off - off % 4) (by omega) (by omega) hb
  refine ⟨_, (s.readSpace (off - off % 4)).2, by rw [exec_rcRead, full], rfl, ?_⟩
  rw [exec_rcRead, regRead_of_aligned hr h ho hb]
  rfl

/-- Settles O8: each clause is the branch of the read or of the write that its hypotheses select. -/
theorem accessRules : Obligations.AccessRules := by
  unfold Obligations.AccessRules
  refine ⟨?refusedWrite, ?refusedRead, ?narrowRead, ?undefinedRead, ?undefinedWrite⟩
  case refusedWrite =>
    intro a off w data s hr ho h
    rw [exec_registerWrite, regWrite_refused data hr ho h]
    rfl
  case refusedRead =>
    intro a off w s hr _ h
    rw [exec_rcRead, regRead_of_misaligned hr h]
    rfl
  case narrowRead =>
    intro a off w s hr ho h hb
    exact rcRead_as_full_read hr ho h hb
  case undefinedRead =>
    intro a off w s hr ho h hv hn
    rw [exec_rcRead, regRead_of_undefined hr h ho hv hn]
    rfl
  case undefinedWrite =>
    intro a off data s hr ho h hv hn
    rw [exec_registerWrite, regWrite_active data hr h ho hv, writeActive_of_undefined s a data hn]
    rfl

/-- Settles O10: the ACTIVE view takes no configuration write, and the SHADOW view refuses, shows or discards. -/
theorem configurationWrites : Obligations.ConfigurationWrites := by
  unfold Obligations.ConfigurationWrites
  refine ⟨?activeWrite, ?refusedShadowWrite, ?shadowRead, ?unconfigured⟩
  case activeWrite =>
    intro a off data s r d hr h ho hv hrow hd
    rw [exec_registerWrite, regWrite_active data hr h ho hv, writeActive_of_configured s a data hrow hd]
    rfl
  case refusedShadowWrite =>
    intro a off d data s r hr h hv hrow hd hs hm
    refine ⟨_, exec_shadowWrite data hr h, ?_⟩
    rw [shadowWrite, hrow, shadowTake_of_not_mine _ data h hv hd hs hm]
    refine ⟨shadowRefuse_active s a off, shadowRefuse_shadow s a off, fun o hc ha he => ?_⟩
    exact rd_shadowRefuse s a off o hc ha (he 0 (by decide))
  case shadowRead =>
    intro a off s hr h ho hv
    rw [exec_rcRead, regRead_shadow hr h ho hv]
    rfl
  case unconfigured =>
    intro a off data s hr h ho hv hc
    constructor
    · rw [exec_rcRead, regRead_shadow hr h ho hv, shadowWord_of_unconfigured s hc]
      rfl
    · rw [exec_shadowWrite data hr h, shadowWrite, shadowTake_of_unconfigured s a _ _ data hc]
      rfl

end Sys2Proof.Machine
end

section
/-!
PROOFS. What every command and every step keeps: the frame of the dispatch put together from the frames of the commands'
meanings, and the statements about all commands and about every step that follow from it.
-/

namespace Sys2Proof.Machine

/-- Every command touches at most the parts that `touches` names for it, and breaks nothing of `Kept`. -/
theorem moves_exec (c : Instr) (s : State) : ∀ t, exec c s = .next t → moves (touches c) s t := by
  cases c with
  | registerWrite a off w data => exact fun _ (h : execRegisterWrite a off w data s = .next _) => moves_execRegisterWrite (List.Subset.refl _) (moves_refl s) _ h
  | rcRead a off w => exact fun _ (h : execRcRead a off w s = .next _) => moves_execRcRead (List.Subset.refl _) (moves_refl s) _ h
  | counterLowRead a off => exact fun _ (h : execCounterLowRead a off s = .next _) => moves_execCounterLowRead (List.Subset.refl _) (moves_refl s) _ h
  | obSnapTrigger a data => exact fun _ (h : execObSnapTrigger a data s = .next _) => moves_execObSnapTrigger (List.Subset.refl _) (moves_refl s) _ h
  | obSnapRelease a => exact fun _ (h : execObSnapRelease a s = .next _) => moves_execObSnapRelease (List.Subset.refl _) (moves_refl s) _ h
  | obSnapTimeMatch => exact fun _ (h : execObSnapTimeMatch s = .next _) => moves_execObSnapTimeMatch (List.Subset.refl _) (moves_refl s) _ h
  | obSnapTsyncEdge pin rising => exact fun _ (h : execObSnapTsyncEdge pin rising s = .next _) => moves_execObSnapTsyncEdge (List.Subset.refl _) (moves_refl s) _ h
  | obSnapDomainFreeze d => exact fun _ (h : execObSnapDomainFreeze d s = .next _) => moves_execObSnapDomainFreeze (List.Subset.refl _) (moves_refl s) _ h
  | obSnapHoldMaxExpiry => exact fun _ (h : execObSnapHoldMaxExpiry s = .next _) => moves_execObSnapHoldMaxExpiry (List.Subset.refl _) (moves_refl s) _ h
  | powerDieMirrorRefresh => exact fun _ (h : execPowerDieMirrorRefresh s = .next _) => moves_execPowerDieMirrorRefresh (List.Subset.refl _) (moves_refl s) _ h
  | evStatusWrite a n data => exact fun _ (h : execEvStatusWrite a n data s = .next _) => moves_execEvStatusWrite (List.Subset.refl _) (moves_refl s) _ h
  | rxStartOfFrame port directive => exact fun _ (h : execRxStartOfFrame port directive s = .next _) => moves_execRxStartOfFrame (List.Subset.refl _) (moves_refl s) _ h
  | rxRuntMinReached port bytes => exact fun _ (h : execRxRuntMinReached port bytes s = .next _) => moves_execRxRuntMinReached (List.Subset.refl _) (moves_refl s) _ h
  | rxCellAllocate port bytes => exact fun _ (h : execRxCellAllocate port bytes s = .next _) => moves_execRxCellAllocate (List.Subset.refl _) (moves_refl s) _ h
  | rxOversize port => exact fun _ (h : execRxOversize port s = .next _) => moves_execRxOversize (List.Subset.refl _) (moves_refl s) _ h
  | rxEndOfFrame port bytes => exact fun _ (h : execRxEndOfFrame port bytes s = .next _) => moves_execRxEndOfFrame (List.Subset.refl _) (moves_refl s) _ h
  | rxCutShort port => exact fun _ (h : execRxCutShort port s = .next _) => moves_execRxCutShort (List.Subset.refl _) (moves_refl s) _ h
  | fxPipelinePass id due => exact fun _ (h : execFxPipelinePass id due s = .next _) => moves_execFxPipelinePass (List.Subset.refl _) (moves_refl s) _ h
  | ceDecrypt id => exact fun _ (h : execCeDecrypt id s = .next _) => moves_execCeDecrypt (List.Subset.refl _) (moves_refl s) _ h
  | secondPass id => exact fun _ (h : execSecondPass id s = .next _) => moves_execSecondPass (List.Subset.refl _) (moves_refl s) _ h
  | sealCheck id => exact fun _ (h : execSealCheck id s = .next _) => moves_execSealCheck (List.Subset.refl _) (moves_refl s) _ h
  | sxEnqueue id => exact fun _ (h : execSxEnqueue id s = .next _) => moves_execSxEnqueue (List.Subset.refl _) (moves_refl s) _ h
  | ingressCopyWrite id => exact fun _ (h : execIngressCopyWrite id s = .next _) => moves_execIngressCopyWrite (List.Subset.refl _) (moves_refl s) _ h
  | scHandover port => exact fun _ (h : execScHandover port s = .next _) => moves_execScHandover (List.Subset.refl _) (moves_refl s) _ h
  | launchEligible q => exact fun _ (h : execLaunchEligible q s = .next _) => moves_execLaunchEligible (List.Subset.refl _) (moves_refl s) _ h
  | shaperCreditRestored q => exact fun _ (h : execShaperCreditRestored q s = .next _) => moves_execShaperCreditRestored (List.Subset.refl _) (moves_refl s) _ h
  | ceEncrypt port m => exact fun _ (h : execCeEncrypt port m s = .next _) => moves_execCeEncrypt (List.Subset.refl _) (moves_refl s) _ h
  | sealAdd port => exact fun _ (h : execSealAdd port s = .next _) => moves_execSealAdd (List.Subset.refl _) (moves_refl s) _ h
  | txStart port => exact fun _ (h : execTxStart port s = .next _) => moves_execTxStart (List.Subset.refl _) (moves_refl s) _ h
  | launchTimeReached port m => exact fun _ (h : execLaunchTimeReached port m s = .next _) => moves_execLaunchTimeReached (List.Subset.refl _) (moves_refl s) _ h
  | txEndOfFrame port => exact fun _ (h : execTxEndOfFrame port s = .next _) => moves_execTxEndOfFrame (List.Subset.refl _) (moves_refl s) _ h
  | stomp port sent => exact fun _ (h : execStomp port sent s = .next _) => moves_execStomp (List.Subset.refl _) (moves_refl s) _ h
  | txUnderrun port sent => exact fun _ (h : execTxUnderrun port sent s = .next _) => moves_execTxUnderrun (List.Subset.refl _) (moves_refl s) _ h
  | transitParityError unit id => exact fun _ (h : execTransitParityError unit id s = .next _) => moves_execTransitParityError (List.Subset.refl _) (moves_refl s) _ h
  | parityStormResume unit => exact fun _ (h : execParityStormResume unit s = .next _) => moves_execParityStormResume (List.Subset.refl _) (moves_refl s) _ h
  | epochAdoption port => exact fun _ (h : execEpochAdoption port s = .next _) => moves_execEpochAdoption (List.Subset.refl _) (moves_refl s) _ h
  | loaderStart => exact fun _ (h : execLoaderStart s = .next _) => moves_execLoaderStart (List.Subset.refl _) (moves_refl s) _ h
  | loadRecord => exact fun _ (h : execLoadRecord s = .next _) => moves_execLoadRecord (List.Subset.refl _) (moves_refl s) _ h
  | bootStitch => exact fun _ (h : execBootStitch s = .next _) => moves_execBootStitch (List.Subset.refl _) (moves_refl s) _ h
  | bersanBankWrite n image => exact fun _ (h : execBersanBankWrite n image s = .next _) => moves_execBersanBankWrite (List.Subset.refl _) (moves_refl s) _ h
  | nvmOperation a op sector off bytes => exact fun _ (h : execNvmOperation a op sector off bytes s = .next _) => moves_execNvmOperation (List.Subset.refl _) (moves_refl s) _ h
  | flashOpComplete ok => exact fun _ (h : execFlashOpComplete ok s = .next _) => moves_execFlashOpComplete (List.Subset.refl _) (moves_refl s) _ h
  | modeReqPartial a => exact fun _ (h : execModeReqPartial a s = .next _) => moves_execModeReqPartial (List.Subset.refl _) (moves_refl s) _ h
  | modeReqRun a => exact fun _ (h : execModeReqRun a s = .next _) => moves_execModeReqRun (List.Subset.refl _) (moves_refl s) _ h
  | modeReqListen a => exact fun _ (h : execModeReqListen a s = .next _) => moves_execModeReqListen (List.Subset.refl _) (moves_refl s) _ h
  | modeReqRescue a => exact fun _ (h : execModeReqRescue a s = .next _) => moves_execModeReqRescue (List.Subset.refl _) (moves_refl s) _ h
  | modeReqFactory a => exact fun _ (h : execModeReqFactory a s = .next _) => moves_execModeReqFactory (List.Subset.refl _) (moves_refl s) _ h
  | partialToRunStep => exact fun _ (h : execPartialToRunStep s = .next _) => moves_execPartialToRunStep (List.Subset.refl _) (moves_refl s) _ h
  | runEntry => exact fun _ (h : execRunEntry s = .next _) => moves_execRunEntry (List.Subset.refl _) (moves_refl s) _ h
  | runToPartialStep => exact fun _ (h : execRunToPartialStep s = .next _) => moves_execRunToPartialStep (List.Subset.refl _) (moves_refl s) _ h
  | listenEntry => exact fun _ (h : execListenEntry s = .next _) => moves_execListenEntry (List.Subset.refl _) (moves_refl s) _ h
  | railsOff => exact fun _ (h : execRailsOff s = .next _) => moves_execRailsOff (List.Subset.refl _) (moves_refl s) _ h
  | vbatAonPowerOn => exact fun _ (h : execVbatAonPowerOn s = .next _) => moves_execVbatAonPowerOn (List.Subset.refl _) (moves_refl s) _ h
  | vbatAonBrownout => exact fun _ (h : execVbatAonBrownout s = .next _) => moves_execVbatAonBrownout (List.Subset.refl _) (moves_refl s) _ h
  | pwTrimsLoaded => exact fun _ (h : execPwTrimsLoaded s = .next _) => moves_execPwTrimsLoaded (List.Subset.refl _) (moves_refl s) _ h
  | rtcCrystalStable => exact fun _ (h : execRtcCrystalStable s = .next _) => moves_execRtcCrystalStable (List.Subset.refl _) (moves_refl s) _ h
  | railPgRise n => exact fun _ (h : execRailPgRise n s = .next _) => moves_execRailPgRise (List.Subset.refl _) (moves_refl s) _ h
  | railPgTimeout n => exact fun _ (h : execRailPgTimeout n s = .next _) => moves_execRailPgTimeout (List.Subset.refl _) (moves_refl s) _ h
  | railPgLost n => exact fun _ (h : execRailPgLost n s = .next _) => moves_execRailPgLost (List.Subset.refl _) (moves_refl s) _ h
  | railRetryTimer => exact fun _ (h : execRailRetryTimer s = .next _) => moves_execRailRetryTimer (List.Subset.refl _) (moves_refl s) _ h
  | socPowerOnRelease hostmode => exact fun _ (h : execSocPowerOnRelease hostmode s = .next _) => moves_execSocPowerOnRelease (List.Subset.refl _) (moves_refl s) _ h
  | romSelfTestDone pufOk => exact fun _ (h : execRomSelfTestDone pufOk s = .next _) => moves_execRomSelfTestDone (List.Subset.refl _) (moves_refl s) _ h
  | firmwareStart => exact fun _ (h : execFirmwareStart s = .next _) => moves_execFirmwareStart (List.Subset.refl _) (moves_refl s) _ h
  | pufReconstructed r => exact fun _ (h : execPufReconstructed r s = .next _) => moves_execPufReconstructed (List.Subset.refl _) (moves_refl s) _ h
  | dramTrainingDone => exact fun _ (h : execDramTrainingDone s = .next _) => moves_execDramTrainingDone (List.Subset.refl _) (moves_refl s) _ h
  | serdesCalibrationDone => exact fun _ (h : execSerdesCalibrationDone s = .next _) => moves_execSerdesCalibrationDone (List.Subset.refl _) (moves_refl s) _ h
  | dramZeroingDone => exact fun _ (h : execDramZeroingDone s = .next _) => moves_execDramZeroingDone (List.Subset.refl _) (moves_refl s) _ h
  | startRampDone => exact fun _ (h : execStartRampDone s = .next _) => moves_execStartRampDone (List.Subset.refl _) (moves_refl s) _ h
  | listenExit src unit => exact fun _ (h : execListenExit src unit s = .next _) => moves_execListenExit (List.Subset.refl _) (moves_refl s) _ h
  | resetNAsserted => exact fun _ (h : execResetNAsserted s = .next _) => moves_execResetNAsserted (List.Subset.refl _) (moves_refl s) _ h
  | resetNReleased => exact fun _ (h : execResetNReleased s = .next _) => moves_execResetNReleased (List.Subset.refl _) (moves_refl s) _ h
  | svWatchdogExpiry => exact fun _ (h : execSvWatchdogExpiry s = .next _) => moves_execSvWatchdogExpiry (List.Subset.refl _) (moves_refl s) _ h
  | lockstepMismatch => exact fun _ (h : execLockstepMismatch s = .next _) => moves_execLockstepMismatch (List.Subset.refl _) (moves_refl s) _ h
  | svResetSoc a data => exact fun _ (h : execSvResetSoc a data s = .next _) => moves_execSvResetSoc (List.Subset.refl _) (moves_refl s) _ h
  | tack a set timeout => exact fun _ (h : execTack a set timeout s = .next _) => moves_execTack (List.Subset.refl _) (moves_refl s) _ h
  | tackCopyDone h => exact fun _ (h : execTackCopyDone h s = .next _) => moves_execTackCopyDone (List.Subset.refl _) (moves_refl s) _ h
  | stitch a h persist => exact fun _ (h : execStitch a h persist s = .next _) => moves_execStitch (List.Subset.refl _) (moves_refl s) _ h
  | stitchAt a h persist ti sec ns => exact fun _ (h : execStitchAt a h persist ti sec ns s = .next _) => moves_execStitchAt (List.Subset.refl _) (moves_refl s) _ h
  | unpick a h => exact fun _ (h : execUnpick a h s = .next _) => moves_execUnpick (List.Subset.refl _) (moves_refl s) _ h
  | renew a h => exact fun _ (h : execRenew a h s = .next _) => moves_execRenew (List.Subset.refl _) (moves_refl s) _ h
  | stitchAtTimeReached h => exact fun _ (h : execStitchAtTimeReached h s = .next _) => moves_execStitchAtTimeReached (List.Subset.refl _) (moves_refl s) _ h
  | stitchCommit h => exact fun _ (h : execStitchCommit h s = .next _) => moves_execStitchCommit (List.Subset.refl _) (moves_refl s) _ h
  | drainLimAgeDiscard => exact fun _ (h : execDrainLimAgeDiscard s = .next _) => moves_execDrainLimAgeDiscard (List.Subset.refl _) (moves_refl s) _ h
  | shadowWrite a off data => exact fun _ (h : execShadowWrite a off data s = .next _) => moves_execShadowWrite (List.Subset.refl _) (moves_refl s) _ h
  | txTimeout h => exact fun _ (h : execTxTimeout h s = .next _) => moves_execTxTimeout (List.Subset.refl _) (moves_refl s) _ h
  | mendStart a kind unit => exact fun _ (h : execMendStart a kind unit s = .next _) => moves_execMendStart (List.Subset.refl _) (moves_refl s) _ h
  | mendStop a id => exact fun _ (h : execMendStop a id s = .next _) => moves_execMendStop (List.Subset.refl _) (moves_refl s) _ h
  | bankTestFenceExpiry id => exact fun _ (h : execBankTestFenceExpiry id s = .next _) => moves_execBankTestFenceExpiry (List.Subset.refl _) (moves_refl s) _ h
  | mendActivityEnd id result => exact fun _ (h : execMendActivityEnd id result s = .next _) => moves_execMendActivityEnd (List.Subset.refl _) (moves_refl s) _ h
  | faultBankFence bank cell => exact fun _ (h : execFaultBankFence bank cell s = .next _) => moves_execFaultBankFence (List.Subset.refl _) (moves_refl s) _ h
  | hamperPageUe q k => exact fun _ (h : execHamperPageUe q k s = .next _) => moves_execHamperPageUe (List.Subset.refl _) (moves_refl s) _ h
  | cipherMismatch pair ctx again => exact fun _ (h : execCipherMismatch pair ctx again s = .next _) => moves_execCipherMismatch (List.Subset.refl _) (moves_refl s) _ h
  | pcsBlockLock port => exact fun _ (h : execPcsBlockLock port s = .next _) => moves_execPcsBlockLock (List.Subset.refl _) (moves_refl s) _ h
  | pcsLockLoss port => exact fun _ (h : execPcsLockLoss port s = .next _) => moves_execPcsLockLoss (List.Subset.refl _) (moves_refl s) _ h
  | pcsFaultReceived port isLocal => exact fun _ (h : execPcsFaultReceived port isLocal s = .next _) => moves_execPcsFaultReceived (List.Subset.refl _) (moves_refl s) _ h
  | controlWordReceived port rate => exact fun _ (h : execControlWordReceived port rate s = .next _) => moves_execControlWordReceived (List.Subset.refl _) (moves_refl s) _ h
  | portFlushComplete port => exact fun _ (h : execPortFlushComplete port s = .next _) => moves_execPortFlushComplete (List.Subset.refl _) (moves_refl s) _ h
  | pauseReceived port dmac opcode quanta => exact fun _ (h : execPauseReceived port dmac opcode quanta s = .next _) => moves_execPauseReceived (List.Subset.refl _) (moves_refl s) _ h
  | pfcReceived port opcode en quanta => exact fun _ (h : execPfcReceived port opcode en quanta s = .next _) => moves_execPfcReceived (List.Subset.refl _) (moves_refl s) _ h
  | pauseExpiry port target => exact fun _ (h : execPauseExpiry port target s = .next _) => moves_execPauseExpiry (List.Subset.refl _) (moves_refl s) _ h
  | pauseWdTrip port target => exact fun _ (h : execPauseWdTrip port target s = .next _) => moves_execPauseWdTrip (List.Subset.refl _) (moves_refl s) _ h
  | pauseHoldoffEnd port => exact fun _ (h : execPauseHoldoffEnd port s = .next _) => moves_execPauseHoldoffEnd (List.Subset.refl _) (moves_refl s) _ h
  | beaconLoss n => exact fun _ (h : execBeaconLoss n s = .next _) => moves_execBeaconLoss (List.Subset.refl _) (moves_refl s) _ h
  | beaconReceived n => exact fun _ (h : execBeaconReceived n s = .next _) => moves_execBeaconReceived (List.Subset.refl _) (moves_refl s) _ h
  | nodeIdCollision n => exact fun _ (h : execNodeIdCollision n s = .next _) => moves_execNodeIdCollision (List.Subset.refl _) (moves_refl s) _ h
  | jabber n => exact fun _ (h : execJabber n s = .next _) => moves_execJabber (List.Subset.refl _) (moves_refl s) _ h
  | quarantineEnd n => exact fun _ (h : execQuarantineEnd n s = .next _) => moves_execQuarantineEnd (List.Subset.refl _) (moves_refl s) _ h
  | quarantineRelease a n data => exact fun _ (h : execQuarantineRelease a n data s = .next _) => moves_execQuarantineRelease (List.Subset.refl _) (moves_refl s) _ h
  | mdioPoll reg1 reg5 reg10 => exact fun _ (h : execMdioPoll reg1 reg5 reg10 s = .next _) => moves_execMdioPoll (List.Subset.refl _) (moves_refl s) _ h
  | mdioAccess a data => exact fun _ (h : execMdioAccess a data s = .next _) => moves_execMdioAccess (List.Subset.refl _) (moves_refl s) _ h
  | mdioDone data => exact fun _ (h : execMdioDone data s = .next _) => moves_execMdioDone (List.Subset.refl _) (moves_refl s) _ h
  | fillPageTimeout q => exact fun _ (h : execFillPageTimeout q s = .next _) => moves_execFillPageTimeout (List.Subset.refl _) (moves_refl s) _ h
  | hamperPageWritten q => exact fun _ (h : execHamperPageWritten q s = .next _) => moves_execHamperPageWritten (List.Subset.refl _) (moves_refl s) _ h
  | refillStart q => exact fun _ (h : execRefillStart q s = .next _) => moves_execRefillStart (List.Subset.refl _) (moves_refl s) _ h
  | refillDone q => exact fun _ (h : execRefillDone q s = .next _) => moves_execRefillDone (List.Subset.refl _) (moves_refl s) _ h
  | pageReturn => exact fun _ (h : execPageReturn s = .next _) => moves_execPageReturn (List.Subset.refl _) (moves_refl s) _ h
  | hamperDrained => exact fun _ (h : execHamperDrained s = .next _) => moves_execHamperDrained (List.Subset.refl _) (moves_refl s) _ h
  | patrolScrub table entry kind => exact fun _ (h : execPatrolScrub table entry kind s = .next _) => moves_execPatrolScrub (List.Subset.refl _) (moves_refl s) _ h
  | learnCommit => exact fun _ (h : execLearnCommit s = .next _) => moves_execLearnCommit (List.Subset.refl _) (moves_refl s) _ h
  | ageTick => exact fun _ (h : execAgeTick s = .next _) => moves_execAgeTick (List.Subset.refl _) (moves_refl s) _ h
  | pgRejoin pg member => exact fun _ (h : execPgRejoin pg member s = .next _) => moves_execPgRejoin (List.Subset.refl _) (moves_refl s) _ h
  | frerReset h => exact fun _ (h : execFrerReset h s = .next _) => moves_execFrerReset (List.Subset.refl _) (moves_refl s) _ h
  | fdbRead a => exact fun _ (h : execFdbRead a s = .next _) => moves_execFdbRead (List.Subset.refl _) (moves_refl s) _ h
  | fdbSearch a => exact fun _ (h : execFdbSearch a s = .next _) => moves_execFdbSearch (List.Subset.refl _) (moves_refl s) _ h
  | fdbDelete a => exact fun _ (h : execFdbDelete a s = .next _) => moves_execFdbDelete (List.Subset.refl _) (moves_refl s) _ h
  | fdbFlush a => exact fun _ (h : execFdbFlush a s = .next _) => moves_execFdbFlush (List.Subset.refl _) (moves_refl s) _ h
  | fdbOpDone => exact fun _ (h : execFdbOpDone s = .next _) => moves_execFdbOpDone (List.Subset.refl _) (moves_refl s) _ h
  | gclEntryChange port => exact fun _ (h : execGclEntryChange port s = .next _) => moves_execGclEntryChange (List.Subset.refl _) (moves_refl s) _ h
  | gclStart port => exact fun _ (h : execGclStart port s = .next _) => moves_execGclStart (List.Subset.refl _) (moves_refl s) _ h
  | sgateEntryChange g => exact fun _ (h : execSgateEntryChange g s = .next _) => moves_execSgateEntryChange (List.Subset.refl _) (moves_refl s) _ h
  | psfpClearFilter a idx => exact fun _ (h : execPsfpClearFilter a idx s = .next _) => moves_execPsfpClearFilter (List.Subset.refl _) (moves_refl s) _ h
  | psfpClearGate a g => exact fun _ (h : execPsfpClearGate a g s = .next _) => moves_execPsfpClearGate (List.Subset.refl _) (moves_refl s) _ h
  | tiAdjWrite a idx data => exact fun _ (h : execTiAdjWrite a idx data s = .next _) => moves_execTiAdjWrite (List.Subset.refl _) (moves_refl s) _ h
  | tiStep a idx => exact fun _ (h : execTiStep a idx s = .next _) => moves_execTiStep (List.Subset.refl _) (moves_refl s) _ h
  | tiSet a idx => exact fun _ (h : execTiSet a idx s = .next _) => moves_execTiSet (List.Subset.refl _) (moves_refl s) _ h
  | tiUnset a idx => exact fun _ (h : execTiUnset a idx s = .next _) => moves_execTiUnset (List.Subset.refl _) (moves_refl s) _ h
  | tiTimeRead a idx => exact fun _ (h : execTiTimeRead a idx s = .next _) => moves_execTiTimeRead (List.Subset.refl _) (moves_refl s) _ h
  | syncReceived idx port domain offset gmid prio => exact fun _ (h : execSyncReceived idx port domain offset gmid prio s = .next _) => moves_execSyncReceived (List.Subset.refl _) (moves_refl s) _ h
  | syncTimeout idx other => exact fun _ (h : execSyncTimeout idx other s = .next _) => moves_execSyncTimeout (List.Subset.refl _) (moves_refl s) _ h
  | settleExpiry idx => exact fun _ (h : execSettleExpiry idx s = .next _) => moves_execSettleExpiry (List.Subset.refl _) (moves_refl s) _ h
  | syncTransmit idx => exact fun _ (h : execSyncTransmit idx s = .next _) => moves_execSyncTransmit (List.Subset.refl _) (moves_refl s) _ h
  | tsyncInEdge k rising => exact fun _ (h : execTsyncInEdge k rising s = .next _) => moves_execTsyncInEdge (List.Subset.refl _) (moves_refl s) _ h
  | tsiPop a k => exact fun _ (h : execTsiPop a k s = .next _) => moves_execTsiPop (List.Subset.refl _) (moves_refl s) _ h
  | tsyncOutEdge k => exact fun _ (h : execTsyncOutEdge k s = .next _) => moves_execTsyncOutEdge (List.Subset.refl _) (moves_refl s) _ h
  | fbtcPair => exact fun _ (h : execFbtcPair s = .next _) => moves_execFbtcPair (List.Subset.refl _) (moves_refl s) _ h
  | pairGo a data => exact fun _ (h : execPairGo a data s = .next _) => moves_execPairGo (List.Subset.refl _) (moves_refl s) _ h
  | canIntegrated c => exact fun _ (h : execCanIntegrated c s = .next _) => moves_execCanIntegrated (List.Subset.refl _) (moves_refl s) _ h
  | canConfigApplied c => exact fun _ (h : execCanConfigApplied c s = .next _) => moves_execCanConfigApplied (List.Subset.refl _) (moves_refl s) _ h
  | canTxreq a c w data => exact fun _ (h : execCanTxreq a c w data s = .next _) => moves_execCanTxreq (List.Subset.refl _) (moves_refl s) _ h
  | canTxcan a c w data => exact fun _ (h : execCanTxcan a c w data s = .next _) => moves_execCanTxcan (List.Subset.refl _) (moves_refl s) _ h
  | canRxack a c w data => exact fun _ (h : execCanRxack a c w data s = .next _) => moves_execCanRxack (List.Subset.refl _) (moves_refl s) _ h
  | canRecover a c => exact fun _ (h : execCanRecover a c s = .next _) => moves_execCanRecover (List.Subset.refl _) (moves_refl s) _ h
  | canTxChoice c ecc word => exact fun _ (h : execCanTxChoice c ecc word s = .next _) => moves_execCanTxChoice (List.Subset.refl _) (moves_refl s) _ h
  | canTxCommit c => exact fun _ (h : execCanTxCommit c s = .next _) => moves_execCanTxCommit (List.Subset.refl _) (moves_refl s) _ h
  | canTxDone c edges => exact fun _ (h : execCanTxDone c edges s = .next _) => moves_execCanTxDone (List.Subset.refl _) (moves_refl s) _ h
  | canArbLost c => exact fun _ (h : execCanArbLost c s = .next _) => moves_execCanArbLost (List.Subset.refl _) (moves_refl s) _ h
  | canRxFrame c f stamp => exact fun _ (h : execCanRxFrame c f stamp s = .next _) => moves_execCanRxFrame (List.Subset.refl _) (moves_refl s) _ h
  | canProtocolException c xl => exact fun _ (h : execCanProtocolException c xl s = .next _) => moves_execCanProtocolException (List.Subset.refl _) (moves_refl s) _ h
  | canBusError c code dataPhase severe exempt edges => exact fun _ (h : execCanBusError c code dataPhase severe exempt edges s = .next _) => moves_execCanBusError (List.Subset.refl _) (moves_refl s) _ h
  | canRecoveryDone c => exact fun _ (h : execCanRecoveryDone c s = .next _) => moves_execCanRecoveryDone (List.Subset.refl _) (moves_refl s) _ h
  | gwRouteLookup c ecc word => exact fun _ (h : execGwRouteLookup c ecc word s = .next _) => moves_execGwRouteLookup (List.Subset.refl _) (moves_refl s) _ h
  | gwHoldDeadline t => exact fun _ (h : execGwHoldDeadline t s = .next _) => moves_execGwHoldDeadline (List.Subset.refl _) (moves_refl s) _ h
  | pqCommit q => exact fun _ (h : execPqCommit q s = .next _) => moves_execPqCommit (List.Subset.refl _) (moves_refl s) _ h
  | pqRewind q => exact fun _ (h : execPqRewind q s = .next _) => moves_execPqRewind (List.Subset.refl _) (moves_refl s) _ h
  | pqUpRead q errs => exact fun _ (h : execPqUpRead q errs s = .next _) => moves_execPqUpRead (List.Subset.refl _) (moves_refl s) _ h
  | pqDownWrite q => exact fun _ (h : execPqDownWrite q s = .next _) => moves_execPqDownWrite (List.Subset.refl _) (moves_refl s) _ h
  | gwDownPacket q errs => exact fun _ (h : execGwDownPacket q errs s = .next _) => moves_execGwDownPacket (List.Subset.refl _) (moves_refl s) _ h
  | pqReset a q => exact fun _ (h : execPqReset a q s = .next _) => moves_execPqReset (List.Subset.refl _) (moves_refl s) _ h
  | invalidate a node => exact fun _ (h : execInvalidate a node s = .next _) => moves_execInvalidate (List.Subset.refl _) (moves_refl s) _ h
  | rebind a node => exact fun _ (h : execRebind a node s = .next _) => moves_execRebind (List.Subset.refl _) (moves_refl s) _ h
  | importKey a node form data => exact fun _ (h : execImportKey a node form data s = .next _) => moves_execImportKey (List.Subset.refl _) (moves_refl s) _ h
  | exportKey a node => exact fun _ (h : execExportKey a node s = .next _) => moves_execExportKey (List.Subset.refl _) (moves_refl s) _ h
  | zeroise a => exact fun _ (h : execZeroise a s = .next _) => moves_execZeroise (List.Subset.refl _) (moves_refl s) _ h
  | clearLock a => exact fun _ (h : execClearLock a s = .next _) => moves_execClearLock (List.Subset.refl _) (moves_refl s) _ h
  | clearLockDone r => exact fun _ (h : execClearLockDone r s = .next _) => moves_execClearLockDone (List.Subset.refl _) (moves_refl s) _ h
  | lcAdvance a target => exact fun _ (h : execLcAdvance a target s = .next _) => moves_execLcAdvance (List.Subset.refl _) (moves_refl s) _ h
  | enroll a => exact fun _ (h : execEnroll a s = .next _) => moves_execEnroll (List.Subset.refl _) (moves_refl s) _ h
  | kxCommandDone ok => exact fun _ (h : execKxCommandDone ok s = .next _) => moves_execKxCommandDone (List.Subset.refl _) (moves_refl s) _ h
  | keyDerive ctx => exact fun _ (h : execKeyDerive ctx s = .next _) => moves_execKeyDerive (List.Subset.refl _) (moves_refl s) _ h
  | tamperAlarm src => exact fun _ (h : execTamperAlarm src s = .next _) => moves_execTamperAlarm (List.Subset.refl _) (moves_refl s) _ h
  | meshCheck ok => exact fun _ (h : execMeshCheck ok s = .next _) => moves_execMeshCheck (List.Subset.refl _) (moves_refl s) _ h
  | keyRemask => exact fun _ (h : execKeyRemask s = .next _) => moves_execKeyRemask (List.Subset.refl _) (moves_refl s) _ h
  | trngHealthFail => exact fun _ (h : execTrngHealthFail s = .next _) => moves_execTrngHealthFail (List.Subset.refl _) (moves_refl s) _ h
  | trngHealthPass => exact fun _ (h : execTrngHealthPass s = .next _) => moves_execTrngHealthPass (List.Subset.refl _) (moves_refl s) _ h
  | keepaliveRecognised src => exact fun _ (h : execKeepaliveRecognised src s = .next _) => moves_execKeepaliveRecognised (List.Subset.refl _) (moves_refl s) _ h
  | keepaliveTx d => exact fun _ (h : execKeepaliveTx d s = .next _) => moves_execKeepaliveTx (List.Subset.refl _) (moves_refl s) _ h
  | foldCommit d => exact fun _ (h : execFoldCommit d s = .next _) => moves_execFoldCommit (List.Subset.refl _) (moves_refl s) _ h
  | foldComplete d => exact fun _ (h : execFoldComplete d s = .next _) => moves_execFoldComplete (List.Subset.refl _) (moves_refl s) _ h
  | domainWake d src unit => exact fun _ (h : execDomainWake d src unit s = .next _) => moves_execDomainWake (List.Subset.refl _) (moves_refl s) _ h
  | wakeInActive pin => exact fun _ (h : execWakeInActive pin s = .next _) => moves_execWakeInActive (List.Subset.refl _) (moves_refl s) _ h
  | canWufReceived c id ide => exact fun _ (h : execCanWufReceived c id ide s = .next _) => moves_execCanWufReceived (List.Subset.refl _) (moves_refl s) _ h
  | canKaWake c id ide => exact fun _ (h : execCanKaWake c id ide s = .next _) => moves_execCanKaWake (List.Subset.refl _) (moves_refl s) _ h
  | t1sEnergy n => exact fun _ (h : execT1sEnergy n s = .next _) => moves_execT1sEnergy (List.Subset.refl _) (moves_refl s) _ h
  | foldCmdWake a data => exact fun _ (h : execFoldCmdWake a data s = .next _) => moves_execFoldCmdWake (List.Subset.refl _) (moves_refl s) _ h
  | foldCmdForgive a data => exact fun _ (h : execFoldCmdForgive a data s = .next _) => moves_execFoldCmdForgive (List.Subset.refl _) (moves_refl s) _ h
  | foldNeedWrite a data => exact fun _ (h : execFoldNeedWrite a data s = .next _) => moves_execFoldNeedWrite (List.Subset.refl _) (moves_refl s) _ h
  | wakeHoldEnd d => exact fun _ (h : execWakeHoldEnd d s = .next _) => moves_execWakeHoldEnd (List.Subset.refl _) (moves_refl s) _ h
  | wakeValidityDecision k => exact fun _ (h : execWakeValidityDecision k s = .next _) => moves_execWakeValidityDecision (List.Subset.refl _) (moves_refl s) _ h
  | wakeMaskEnd idx => exact fun _ (h : execWakeMaskEnd idx s = .next _) => moves_execWakeMaskEnd (List.Subset.refl _) (moves_refl s) _ h
  | overstayA d => exact fun _ (h : execOverstayA d s = .next _) => moves_execOverstayA (List.Subset.refl _) (moves_refl s) _ h
  | overstayB d => exact fun _ (h : execOverstayB d s = .next _) => moves_execOverstayB (List.Subset.refl _) (moves_refl s) _ h
  | rtcSet => exact fun _ (h : execRtcSet s = .next _) => moves_execRtcSet (List.Subset.refl _) (moves_refl s) _ h
  | rtcAlarm => exact fun _ (h : execRtcAlarm s = .next _) => moves_execRtcAlarm (List.Subset.refl _) (moves_refl s) _ h
  | lsUpdate meas mw => exact fun _ (h : execLsUpdate meas mw s = .next _) => moves_execLsUpdate (List.Subset.refl _) (moves_refl s) _ h
  | shortTrip ch => exact fun _ (h : execShortTrip ch s = .next _) => moves_execShortTrip (List.Subset.refl _) (moves_refl s) _ h
  | inrushEnd ch demand => exact fun _ (h : execInrushEnd ch demand s = .next _) => moves_execInrushEnd (List.Subset.refl _) (moves_refl s) _ h
  | reenable a data => exact fun _ (h : execReenable a data s = .next _) => moves_execReenable (List.Subset.refl _) (moves_refl s) _ h
  | vbatUndervoltage => exact fun _ (h : execVbatUndervoltage s = .next _) => moves_execVbatUndervoltage (List.Subset.refl _) (moves_refl s) _ h
  | vbatRecovered => exact fun _ (h : execVbatRecovered s = .next _) => moves_execVbatRecovered (List.Subset.refl _) (moves_refl s) _ h
  | totalCurrentShed first => exact fun _ (h : execTotalCurrentShed first s = .next _) => moves_execTotalCurrentShed (List.Subset.refl _) (moves_refl s) _ h
  | dissipationHigh => exact fun _ (h : execDissipationHigh s = .next _) => moves_execDissipationHigh (List.Subset.refl _) (moves_refl s) _ h
  | powerDieLinkRefresh => exact fun _ (h : execPowerDieLinkRefresh s = .next _) => moves_execPowerDieLinkRefresh (List.Subset.refl _) (moves_refl s) _ h
  | holdExpired => exact fun _ (h : execHoldExpired s = .next _) => moves_execHoldExpired (List.Subset.refl _) (moves_refl s) _ h
  | clusterRelease => exact fun _ (h : execClusterRelease s = .next _) => moves_execClusterRelease (List.Subset.refl _) (moves_refl s) _ h
  | imageCopyDone ok => exact fun _ (h : execImageCopyDone ok s = .next _) => moves_execImageCopyDone (List.Subset.refl _) (moves_refl s) _ h
  | coreStart a data => exact fun _ (h : execCoreStart a data s = .next _) => moves_execCoreStart (List.Subset.refl _) (moves_refl s) _ h
  | dvfsRequest a data => exact fun _ (h : execDvfsRequest a data s = .next _) => moves_execDvfsRequest (List.Subset.refl _) (moves_refl s) _ h
  | dvfsDone => exact fun _ (h : execDvfsDone s = .next _) => moves_execDvfsDone (List.Subset.refl _) (moves_refl s) _ h
  | coreWfiOffline k => exact fun _ (h : execCoreWfiOffline k s = .next _) => moves_execCoreWfiOffline (List.Subset.refl _) (moves_refl s) _ h
  | offlineGraceExpiry k => exact fun _ (h : execOfflineGraceExpiry k s = .next _) => moves_execOfflineGraceExpiry (List.Subset.refl _) (moves_refl s) _ h
  | tagPop a k => exact fun _ (h : execTagPop a k s = .next _) => moves_execTagPop (List.Subset.refl _) (moves_refl s) _ h
  | ringTailWrite a off data => exact fun _ (h : execRingTailWrite a off data s = .next _) => moves_execRingTailWrite (List.Subset.refl _) (moves_refl s) _ h
  | hpRxWrite port ecc => exact fun _ (h : execHpRxWrite port ecc s = .next _) => moves_execHpRxWrite (List.Subset.refl _) (moves_refl s) _ h
  | hpTxFrame port ecc => exact fun _ (h : execHpTxFrame port ecc s = .next _) => moves_execHpTxFrame (List.Subset.refl _) (moves_refl s) _ h
  | hpCoalTimer r => exact fun _ (h : execHpCoalTimer r s = .next _) => moves_execHpCoalTimer (List.Subset.refl _) (moves_refl s) _ h
  | dramUe addr load => exact fun _ (h : execDramUe addr load s = .next _) => moves_execDramUe (List.Subset.refl _) (moves_refl s) _ h
  | dramScrubPassDone => exact fun _ (h : execDramScrubPassDone s = .next _) => moves_execDramScrubPassDone (List.Subset.refl _) (moves_refl s) _ h
  | outboundAccess a write addr size data => exact fun _ (h : execOutboundAccess a write addr size data s = .next _) => moves_execOutboundAccess (List.Subset.refl _) (moves_refl s) _ h
  | outboundCompletion n ok data => exact fun _ (h : execOutboundCompletion n ok data s = .next _) => moves_execOutboundCompletion (List.Subset.refl _) (moves_refl s) _ h
  | outboundReadTimeout n => exact fun _ (h : execOutboundReadTimeout n s = .next _) => moves_execOutboundReadTimeout (List.Subset.refl _) (moves_refl s) _ h
  | prefetchExpiry w => exact fun _ (h : execPrefetchExpiry w s = .next _) => moves_execPrefetchExpiry (List.Subset.refl _) (moves_refl s) _ h
  | inboundRequest write addr size data ecc => exact fun _ (h : execInboundRequest write addr size data ecc s = .next _) => moves_execInboundRequest (List.Subset.refl _) (moves_refl s) _ h
  | pcieErrorMessage addr fatal => exact fun _ (h : execPcieErrorMessage addr fatal s = .next _) => moves_execPcieErrorMessage (List.Subset.refl _) (moves_refl s) _ h
  | pcieReset => exact fun _ (h : execPcieReset s = .next _) => moves_execPcieReset (List.Subset.refl _) (moves_refl s) _ h
  | pcieLinkChange up gen width => exact fun _ (h : execPcieLinkChange up gen width s = .next _) => moves_execPcieLinkChange (List.Subset.refl _) (moves_refl s) _ h
  | rootMsiWrite data => exact fun _ (h : execRootMsiWrite data s = .next _) => moves_execRootMsiWrite (List.Subset.refl _) (moves_refl s) _ h
  | msiDataPop a => exact fun _ (h : execMsiDataPop a s = .next _) => moves_execMsiDataPop (List.Subset.refl _) (moves_refl s) _ h
  | fenceClr a data => exact fun _ (h : execFenceClr a data s = .next _) => moves_execFenceClr (List.Subset.refl _) (moves_refl s) _ h
  | updOpen a => exact fun _ (h : execUpdOpen a s = .next _) => moves_execUpdOpen (List.Subset.refl _) (moves_refl s) _ h
  | updHeader a addr => exact fun _ (h : execUpdHeader a addr s = .next _) => moves_execUpdHeader (List.Subset.refl _) (moves_refl s) _ h
  | updBlock a index addr => exact fun _ (h : execUpdBlock a index addr s = .next _) => moves_execUpdBlock (List.Subset.refl _) (moves_refl s) _ h
  | updActivate a => exact fun _ (h : execUpdActivate a s = .next _) => moves_execUpdActivate (List.Subset.refl _) (moves_refl s) _ h
  | updClose a => exact fun _ (h : execUpdClose a s = .next _) => moves_execUpdClose (List.Subset.refl _) (moves_refl s) _ h
  | updSessionTimeout => exact fun _ (h : execUpdSessionTimeout s = .next _) => moves_execUpdSessionTimeout (List.Subset.refl _) (moves_refl s) _ h
  | copySlotDone ok => exact fun _ (h : execCopySlotDone ok s = .next _) => moves_execCopySlotDone (List.Subset.refl _) (moves_refl s) _ h
  | copyComplete => exact fun _ (h : execCopyComplete s = .next _) => moves_execCopyComplete (List.Subset.refl _) (moves_refl s) _ h
  | migration => exact fun _ (h : execMigration s = .next _) => moves_execMigration (List.Subset.refl _) (moves_refl s) _ h
  | rescueBreak => exact fun _ (h : execRescueBreak s = .next _) => moves_execRescueBreak (List.Subset.refl _) (moves_refl s) _ h
  | rescueHello pufOk => exact fun _ (h : execRescueHello pufOk s = .next _) => moves_execRescueHello (List.Subset.refl _) (moves_refl s) _ h
  | rescueHeader link msg flashOk pufOk => exact fun _ (h : execRescueHeader link msg flashOk pufOk s = .next _) => moves_execRescueHeader (List.Subset.refl _) (moves_refl s) _ h
  | rescueChunk link msg flashOk => exact fun _ (h : execRescueChunk link msg flashOk s = .next _) => moves_execRescueChunk (List.Subset.refl _) (moves_refl s) _ h
  | rescueActivate link msg flashOk => exact fun _ (h : execRescueActivate link msg flashOk s = .next _) => moves_execRescueActivate (List.Subset.refl _) (moves_refl s) _ h
  | slotClr a data => exact fun _ (h : execSlotClr a data s = .next _) => moves_execSlotClr (List.Subset.refl _) (moves_refl s) _ h
  | slotAccount back => exact fun _ (h : execSlotAccount back s = .next _) => moves_execSlotAccount (List.Subset.refl _) (moves_refl s) _ h
  | ringRecordWrite r => exact fun _ (h : execRingRecordWrite r s = .next _) => moves_execRingRecordWrite (List.Subset.refl _) (moves_refl s) _ h
  | csuFrameEnd u => exact fun _ (h : execCsuFrameEnd u s = .next _) => moves_execCsuFrameEnd (List.Subset.refl _) (moves_refl s) _ h
  | csuHold a u => exact fun _ (h : execCsuHold a u s = .next _) => moves_execCsuHold (List.Subset.refl _) (moves_refl s) _ h
  | csuHoldAck u => exact fun _ (h : execCsuHoldAck u s = .next _) => moves_execCsuHoldAck (List.Subset.refl _) (moves_refl s) _ h
  | csuClear a u => exact fun _ (h : execCsuClear a u s = .next _) => moves_execCsuClear (List.Subset.refl _) (moves_refl s) _ h
  | csuReattach a => exact fun _ (h : execCsuReattach a s = .next _) => moves_execCsuReattach (List.Subset.refl _) (moves_refl s) _ h
  | csuRunWrite a u data => exact fun _ (h : execCsuRunWrite a u data s = .next _) => moves_execCsuRunWrite (List.Subset.refl _) (moves_refl s) _ h
  | ledgerFlush => exact fun _ (h : execLedgerFlush s = .next _) => moves_execLedgerFlush (List.Subset.refl _) (moves_refl s) _ h
  | ledgerScan => exact fun _ (h : execLedgerScan s = .next _) => moves_execLedgerScan (List.Subset.refl _) (moves_refl s) _ h
  | ledgerVerify a => exact fun _ (h : execLedgerVerify a s = .next _) => moves_execLedgerVerify (List.Subset.refl _) (moves_refl s) _ h
  | ledgerVerifyDone => exact fun _ (h : execLedgerVerifyDone s = .next _) => moves_execLedgerVerifyDone (List.Subset.refl _) (moves_refl s) _ h
  | pcsFaultCleared port => exact fun _ (h : execPcsFaultCleared port s = .next _) => moves_execPcsFaultCleared (List.Subset.refl _) (moves_refl s) _ h
  | jabberLineIdle n => exact fun _ (h : execJabberLineIdle n s = .next _) => moves_execJabberLineIdle (List.Subset.refl _) (moves_refl s) _ h
  | bersanSessionOpen n node port tagged udp => exact fun _ (h : execBersanSessionOpen n node port tagged udp s = .next _) => moves_execBersanSessionOpen (List.Subset.refl _) (moves_refl s) _ h
  | bersanSessionClose n => exact fun _ (h : execBersanSessionClose n s = .next _) => moves_execBersanSessionClose (List.Subset.refl _) (moves_refl s) _ h
  | coreCycle k retired wasted front events decoded tag bytes => exact fun _ (h : execCoreCycle k retired wasted front events decoded tag bytes s = .next _) => moves_execCoreCycle (List.Subset.refl _) (moves_refl s) _ h
  | tamperAlarmCleared src => exact fun _ (h : execTamperAlarmCleared src s = .next _) => moves_execTamperAlarmCleared (List.Subset.refl _) (moves_refl s) _ h

/-- No command touches the queue or the time. -/
theorem touches_outer (c : Instr) : Part.pending ∉ touches c ∧ Part.now ∉ touches c := by
  cases c <;> exact ⟨by simp [touches], by simp [touches]⟩

theorem step_cons {s : State} {c : Instr} {rest : List Instr} (h : s.pending = c :: rest) :
    step s = exec c { s with pending := rest } := by
  rw [step, h]

theorem step_nil {s : State} (h : s.pending = []) : step s = .next s.tick2ns := by
  rw [step, h]

/-- What no command may break, no step breaks: a command is taken from the queue, or a cycle passes. -/
theorem step_kept {s t : State} (h : step s = .next t) : Kept s t := by
  cases hp : s.pending with
  | nil =>
    rw [step_nil hp] at h
    injection h with h
    exact h ▸ (moves_tick2ns (List.Subset.refl _) (moves_refl s)).2
  | cons c rest =>
    rw [step_cons hp] at h
    have taken : moves [.pending] s { s with pending := rest } := moves_upd_pending (by decide) (moves_refl s)
    exact taken.2.trans (moves_exec c _ t h).2

/-- Settles O1: the two branches of `step`. -/
theorem stepTakesFront : Obligations.StepTakesFront :=
  ⟨fun _ _ _ => step_cons, fun _ => step_nil⟩

/-- Settles O2: each meaning ends in `.next`. -/
theorem everyCommandCompletes : Obligations.EveryCommandCompletes := by
  unfold Obligations.EveryCommandCompletes
  intro c s
  cases c <;> exact ⟨_, rfl⟩

/-- Settles O3: the frame is `moves_exec`, and no command names the queue or the time. -/
theorem commandFrame : Obligations.CommandFrame := by
  unfold Obligations.CommandFrame
  intro c s t h
  obtain ⟨frame, kept⟩ := moves_exec c s t h
  obtain ⟨hpending, hnow⟩ := touches_outer c
  exact ⟨frame, frame .pending hpending, frame .now hnow, kept.out⟩

/-- Settles O4: canonical memories are among what a step keeps. -/
theorem stepKeepsCanonical : Obligations.StepKeepsCanonical := by
  unfold Obligations.StepKeepsCanonical
  intro s t hc h
  exact (step_kept h).canonical hc

/-- Settles O5: nothing is stored in the memories at reset. -/
theorem resetCanonical : Obligations.ResetCanonical :=
  ⟨rfl, rfl, rfl⟩

/-- Settles O6: all of it is among what a step keeps. -/
theorem stepKeepsIrreversible : Obligations.StepKeepsIrreversible := by
  unfold Obligations.StepKeepsIrreversible
  intro s t h
  have k := step_kept h
  exact ⟨k.fuses, k.counter, k.ftk, k.keyHash, k.out, k.now, k.freeN⟩

/-- Settles O7: in OFF nothing answers a read, and the registers hold what their maps give, finitely many of them. -/
theorem resetRegisters : Obligations.ResetRegisters := by
  unfold Obligations.ResetRegisters
  refine ⟨fun a off w => rfl, rfl, rfl, ?registers⟩
  case registers => decide +kernel

end Sys2Proof.Machine
end

section
/-!
PROOFS. Reading a register or a field after an update of the state, as rewriting rules: each side condition compares
literal places of fields and registers, so that `simp` reads a field through any chain of updates.
-/

namespace Sys2Proof.Machine

/-- A place in an array is no place before the array. -/
@[simp] theorem array_place_ne {base i off : Nat} (h : off < base) : (base + i = off) = False := by
  simp; omega

@[simp] theorem ne_array_place {base i off : Nat} (h : off < base) : (off = base + i) = False := by
  simp; omega

/-- A flag fits its bit. -/
@[simp] theorem flag_le_one (c : Prop) [Decidable c] : (if c then 1 else 0) ≤ 1 := by
  split <;> decide

@[simp] theorem Sparse.get_set_self {β : Type} [DecidableEq β] (d : Nat → β) (m : Sparse β) (k : Nat) (v : β) :
    Sparse.get d (Sparse.set d m k v) k = v :=
  Sparse.get_set_same d m k v

@[simp] theorem Sparse.get_set_other {β : Type} [DecidableEq β] (d : Nat → β) (m : Sparse β) {k j : Nat} (v : β)
    (h : j ≠ k) : Sparse.get d (Sparse.set d m k v) j = Sparse.get d m j :=
  Sparse.get_set_ne d m v h

theorem Fld.get_lt (f : Fld) (w : Word) : f.get w < 2 ^ f.wid := by
  rw [Fld.get_eq]
  exact Nat.mod_lt _ (Nat.two_pow_pos _)

namespace State

/-! ### Fields after a field is set -/

@[simp] theorem rg_setRg_self (s : State) (f : Fld) (v : Nat) (hf : f.lo + f.wid ≤ 32) :
    (s.setRg f v).rg f = v % 2 ^ f.wid :=
  rg_setRg_same s f (decide_eq_true hf) v

@[simp] theorem rg_setRg_other (s : State) (f g : Fld) (v : Nat) (hf : f.lo + f.wid ≤ 32) (hg : g.lo + g.wid ≤ 32)
    (h : f.off ≠ g.off ∨ f.lo + f.wid ≤ g.lo ∨ g.lo + g.wid ≤ f.lo) : (s.setRg f v).rg g = s.rg g :=
  rg_setRg_apart s f g (decide_eq_true hf) (decide_eq_true hg) (decide_eq_true h) v

@[simp] theorem rg_bump_self (s : State) (f : Fld) (n : Nat) (hf : f.lo + f.wid ≤ 32) :
    (s.bump f n).rg f = min (s.rg f + n) (2 ^ f.wid - 1) :=
  rg_bump_same s f (decide_eq_true hf) n

@[simp] theorem rg_bump_other (s : State) (f g : Fld) (n : Nat) (hf : f.lo + f.wid ≤ 32) (hg : g.lo + g.wid ≤ 32)
    (h : f.off ≠ g.off ∨ f.lo + f.wid ≤ g.lo ∨ g.lo + g.wid ≤ f.lo) : (s.bump f n).rg g = s.rg g :=
  rg_setRg_other s f g _ hf hg h

@[simp] theorem rg_tick_self (s : State) (f : Fld) (n : Nat) (hf : f.lo + f.wid ≤ 32) :
    (s.tick f n).rg f = (s.rg f + n) % 2 ^ f.wid :=
  rg_tick_same s f (decide_eq_true hf) n

@[simp] theorem rg_tick_other (s : State) (f g : Fld) (n : Nat) (hf : f.lo + f.wid ≤ 32) (hg : g.lo + g.wid ≤ 32)
    (h : f.off ≠ g.off ∨ f.lo + f.wid ≤ g.lo ∨ g.lo + g.wid ≤ f.lo) : (s.tick f n).rg g = s.rg g :=
  rg_setRg_other s f g _ hf hg h

@[simp] theorem rg_wr_other (s : State) (off : Nat) (w : Word) (f : Fld) (h : f.off ≠ off) :
    (s.wr off w).rg f = s.rg f :=
  rg_wr_ne s off w f h

@[simp] theorem rg_raise_other (s : State) (n : Nat) (i : Option Agent) (f : Fld) (h : f.off ≠ 0x2000 + 4 * (n / 32)) :
    (s.raise n i).rg f = s.rg f :=
  rg_raise s n i f h

/-! ### Registers after an update -/

@[simp] theorem rd_setRg_other (s : State) (f : Fld) (v off : Nat) (h : off ≠ f.off) :
    (s.setRg f v).rd off = s.rd off :=
  rd_setRg_ne s f v off h

@[simp] theorem rd_bump_other (s : State) (f : Fld) (v off : Nat) (h : off ≠ f.off) :
    (s.bump f v).rd off = s.rd off :=
  rd_setRg_ne s f _ off h

@[simp] theorem rd_wr_self (s : State) (off : Nat) (w : Word) : (s.wr off w).rd off = w := rd_wr_same s off w

@[simp] theorem rd_wr_other (s : State) (off o : Nat) (w : Word) (h : o ≠ off) : (s.wr off w).rd o = s.rd o :=
  rd_wr_ne s off o w h

@[simp] theorem rd_raise_other (s : State) (n : Nat) (i : Option Agent) (off : Nat) (h : off ≠ 0x2000 + 4 * (n / 32)) :
    (s.raise n i).rd off = s.rd off :=
  rd_raise s n i off h

/-! ### Reads of a state built field by field -/

@[simp] theorem rfGet_regs (s : State) (f : Fld) : rfGet s.regs f = s.rg f := rfl

@[simp] theorem rg_mk (pending now freeN out resp regs active shadow swapped epochs latches mirror scope pw sv mend sx
    fx te ob px nv kx ce upd bx aon cx mx) (f : Fld) :
    (State.mk pending now freeN out resp regs active shadow swapped epochs latches mirror scope pw sv mend sx
      fx te ob px nv kx ce upd bx aon cx mx).rg f = rfGet regs f := rfl

@[simp] theorem get_regs (s : State) (off : Nat) : Sparse.get resetWord s.regs off = s.rd off := rfl

@[simp] theorem rd_mk (pending now freeN out resp regs active shadow swapped epochs latches mirror scope pw sv mend sx
    fx te ob px nv kx ce upd bx aon cx mx) (off : Nat) :
    (State.mk pending now freeN out resp regs active shadow swapped epochs latches mirror scope pw sv mend sx
      fx te ob px nv kx ce upd bx aon cx mx).rd off = Sparse.get resetWord regs off := rfl

@[simp] theorem get_active (s : State) (d : Nat) : Sparse.get (fun _ => []) s.active d = s.activeOf d := rfl

@[simp] theorem rfGet_activeOf (s : State) (f : Fld) : rfGet (s.activeOf f.cd) f = s.act f := rfl

@[simp] theorem act_mk (pending now freeN out resp regs active shadow swapped epochs latches mirror scope pw sv mend sx
    fx te ob px nv kx ce upd bx aon cx mx) (f : Fld) :
    (State.mk pending now freeN out resp regs active shadow swapped epochs latches mirror scope pw sv mend sx
      fx te ob px nv kx ce upd bx aon cx mx).act f = rfGet (Sparse.get (fun _ => []) active f.cd) f := rfl

/-- Any field of a register that an update of other parts of the state leaves alone. -/
theorem rg_of_moves {ps : List Part} {s t : State} (h : moves ps s t) (hp : Part.regs ∉ ps) (f : Fld) :
    t.rg f = s.rg f :=
  rg_congr (h.1 .regs hp) f

theorem rd_congr {s t : State} (h : t.regs = s.regs) (off : Nat) : t.rd off = s.rd off :=
  congrArg (fun r => Sparse.get resetWord r off) h

@[simp] theorem tiOf_answer (s : State) (r : Resp) (i : Nat) : (s.answer r).tiOf i = s.tiOf i := rfl

@[simp] theorem socUp_answer (s : State) (r : Resp) : (s.answer r).socUp = s.socUp := rfl

theorem tiOf_congr {s t : State} (h : t.te = s.te) (i : Nat) : t.tiOf i = s.tiOf i := by
  rw [tiOf, tiOf, h]

/-! ### Folds -/

/-- What every step of a fold keeps, the fold keeps. -/
theorem forEach_keeps {α β : Type} (g : State → β) (f : State → α → State) (h : ∀ u x, g (f u x) = g u) (l : List α)
    (s : State) : g (s.forEach l f) = g s := by
  induction l generalizing s with
  | nil => rfl
  | cons a l ih => exact (ih (f s a)).trans (h s a)

/-! ### Events -/

@[simp] theorem evSet_raise_self (s : State) (n : Nat) (i : Option Agent) (hu : s.socUp = true) :
    (s.raise n i).evSet n = true :=
  evSet_raise s n i hu

@[simp] theorem evSet_answer (s : State) (r : Resp) (n : Nat) : (s.answer r).evSet n = s.evSet n := rfl

end State

end Sys2Proof.Machine
end

section
/-!
PROOFS. Accesses by access code (R1, R5, R317, R448), reads that latch or pop (R8, R262, R285, R473), and the write of an
event status word (R42, R43): one lemma for each branch of a read and of a write, and the statements put together from them.
-/

namespace Sys2Proof.Machine

namespace State

theorem regRead_of_unreached {s : State} {a : Agent} (off : Nat) (w : Width) (hr : s.reaches a = false) :
    s.regRead a off w = s.answer .noAnswer := by
  simp [regRead, accessError, hr]

theorem regWrite_of_unreached {s : State} {a : Agent} (off : Nat) (w : Width) (data : Word)
    (hr : s.reaches a = false) : s.regWrite a off w data = s.answer .noAnswer := by
  simp [regWrite, accessError, hr]

/-- The bus map ends at 0x10000000 (R448). -/
theorem accessError_of_beyond {s : State} {a : Agent} {off : Nat} (w : Width) (hr : s.reaches a = true)
    (h : 0x10000000 ≤ off) : s.accessError a off w = some .busError := by
  simp [accessError, hr, h]

theorem accessError_eq_none {s : State} {a : Agent} {off : Nat} {w : Width} (hr : s.reaches a = true)
    (h : off % w.bytes = 0) (ho : off < 0x10000000) : s.accessError a off w = none := by
  simp [accessError, hr, h, ho]

/-- The message RAMs lie below the last block (R322). -/
theorem badRam_of_above (s : State) {off : Nat} (h : 0xC000000 ≤ off) : s.badRam off = none := by
  have hw : ramWord off = none := if_neg (by omega)
  simp [badRam, hw]

/-- Where no block lies, a read answers 0. -/
theorem regRead_above {s : State} {a : Agent} {off : Nat} (hr : s.reaches a = true) (h : off % 4 = 0)
    (hl : 0xC000000 ≤ off) (ho : off < 0x10000000) : s.regRead a off .word = s.answer (.value 0) := by
  have hz : off - off % 4 = off := by omega
  simp [regRead, accessError_eq_none (w := .word) hr h ho, hz, badRam_of_above s hl, readSpace, hl]

theorem regWrite_above {s : State} {a : Agent} {off : Nat} (data : Word) (hr : s.reaches a = true) (h : off % 4 = 0)
    (hl : 0xC000000 ≤ off) (ho : off < 0x10000000) : s.regWrite a off .word data = s.answer .done := by
  simp [regWrite, accessError_eq_none (w := .word) hr h ho, hl]

/-- A word of a message RAM that can not be corrected is counted and answers an error (R317). -/
theorem regRead_of_badRam {s : State} {a : Agent} {off c word : Nat} {w : Width} (hr : s.reaches a = true)
    (h : off % w.bytes = 0) (ho : off < 0x10000000) (hb : s.badRam (off - off % 4) = some (c, word)) :
    s.regRead a off w = ((s.bump (F.BX_CAN_ECC_UE_COUNT c)).fault 0x0B c word).answer .busError := by
  simp [regRead, accessError_eq_none hr h ho, hb]

/-! ### Access codes (R5) -/

/-- The bits of a register after a write by access code. -/
theorem rd_plainWrite_bit (s : State) (r : RegRow) (off : Nat) (data : Word) {i : Nat} (hi : i < 32) :
    ((s.plainWrite r off data).rd off).getLsbD i =
      if (accMask .rw1c r.fields).getLsbD i && data.getLsbD i then false
      else if (accMask .rw r.fields).getLsbD i then data.getLsbD i else (s.rd off).getLsbD i := by
  unfold plainWrite
  dsimp only
  generalize accMask .rw1c r.fields = c
  generalize accMask .rw r.fields = m
  split
  · next hz =>
    have none_set : (m ||| c).getLsbD i = false := by rw [hz]; simp
    rw [BitVec.getLsbD_or, Bool.or_eq_false_iff] at none_set
    simp [none_set]
  · rw [rd_wr_same]
    simp only [BitVec.getLsbD_and, BitVec.getLsbD_or, BitVec.getLsbD_not, hi, decide_true, Bool.true_and]
    cases c.getLsbD i <;> cases m.getLsbD i <;> cases data.getLsbD i <;> simp

theorem rd_plainWrite_ne (s : State) (r : RegRow) {off o : Nat} (data : Word) (h : o ≠ off) :
    (s.plainWrite r off data).rd o = s.rd o := by
  unfold plainWrite
  dsimp only
  split
  · rfl
  · exact rd_wr_ne _ _ _ _ h

/-- A write that is no command acts by the register's access codes. -/
theorem writeActive_of_plain {s : State} {a : Agent} {off : Nat} {r : RegRow} {data : Word} (hrow : regRow off = some r)
    (hc : r.cd = none) (hm : mailboxShut a off = false) (hw : s.commandWrite a r off data = none) :
    s.writeActive a off data = s.plainWrite r off data := by
  simp [writeActive, hrow, hc, hm, hw]

/-- A read of a register that neither latches nor pops clears its RC fields. -/
theorem readEffect_of_plain (s : State) (r : RegRow) {off : Nat} (h : plainRead off = true) :
    s.readEffect r off = s.rcClear r off := by
  simp only [plainRead, Bool.and_eq_true, Option.isNone_iff_eq_none, decide_eq_true_eq] at h
  obtain ⟨⟨⟨⟨⟨⟨hti, htsi⟩, hq⟩, hmsi⟩, hpair⟩, hrtc⟩, -⟩ := h
  simp [readEffect, hti, htsi, hq, hmsi, hpair, hrtc]

theorem rd_rcClear {s : State} (r : RegRow) {off : Nat} (h : mirrored off = false) (o : Nat) :
    (s.rcClear r off).rd o = if o = off then s.rd off &&& ~~~ accMask .rc r.fields else s.rd o := by
  unfold rcClear
  simp only [h, Bool.false_eq_true, if_false]
  split
  · next hz =>
    rw [hz]
    split
    · next ho => rw [ho]; simp
    · rfl
  · split
    · next ho => rw [ho, rd_wr_same]
    · next ho => exact rd_wr_ne _ _ _ _ ho

theorem latchHigh_rd (s : State) (r : RegRow) (off o : Nat) : (s.latchHigh r off).rd o = s.rd o := by
  unfold latchHigh
  split <;> rfl

/-- A read of a live register that neither latches nor pops. -/
theorem readActive_of_plain {s : State} {off : Nat} {r : RegRow} (hrow : regRow off = some r)
    (hf : s.isFrozen off = false) (hp : plainRead off = true) :
    s.readActive off = ((s.latchHigh r off).rcClear r off, s.readWord r off) := by
  simp [readActive, hrow, hf, readEffect_of_plain _ r hp]

theorem mirrored_of_plain {off : Nat} (h : plainRead off = true) : mirrored off = false := by
  simp only [plainRead, Bool.and_eq_true, Bool.not_eq_true'] at h
  exact h.2

end State

open State

/-- Settles O9: a write and a read by the access codes, and what answers the accesses that no code decides. -/
theorem accessCodes : Obligations.AccessCodes := by
  unfold Obligations.AccessCodes
  refine ⟨?plainWrite, ?plainRead, ?unreached, ?beyond, ?noBlock, ?misalignedShadow, ?badRam⟩
  case plainWrite =>
    intro a off data s r hr h ho hv hrow hc hm hw
    refine ⟨(s.plainWrite r off data).answer .done, ?_, rfl, fun i hi => rd_plainWrite_bit s r off data hi,
      fun o hne => rd_plainWrite_ne s r data hne, ?_⟩
    · rw [exec_registerWrite, regWrite_active data hr h ho hv, writeActive_of_plain hrow hc hm hw]
    · exact (moves_answer (List.Subset.trans (by decide) (List.Subset.refl _)) (moves_plainWrite (by decide) (moves_refl s))).1
  case plainRead =>
    intro a off w s r hr h ho hv hrow hf hp hb
    refine ⟨_, by rw [exec_rcRead, regRead_of_aligned hr h ho hb, readSpace_active s (by omega) (by omega), readActive_of_plain hrow hf hp],
      rfl, fun i hi => ?_, fun o hne => ?_⟩
    · rw [answer_rd, rd_rcClear r (mirrored_of_plain hp), if_pos rfl, latchHigh_rd]
      simp [hi]
    · rw [answer_rd, rd_rcClear r (mirrored_of_plain hp), if_neg hne, latchHigh_rd]
  case unreached =>
    intro a off w data s hr
    rw [exec_registerWrite, exec_rcRead, regWrite_of_unreached off w data hr, regRead_of_unreached off w hr]
    exact ⟨rfl, rfl⟩
  case beyond =>
    intro a off w data s hr ho
    have herr := accessError_of_beyond w hr ho
    rw [exec_registerWrite, exec_rcRead, regWrite, regRead, herr]
    exact ⟨rfl, rfl⟩
  case noBlock =>
    intro a off data s hr hl ho h
    rw [exec_registerWrite, exec_rcRead, regWrite_above data hr h hl ho, regRead_above hr h hl ho]
    exact ⟨rfl, rfl⟩
  case misalignedShadow =>
    intro a off data s hr h
    show execShadowWrite a off data s = _
    rw [execShadowWrite, if_pos ⟨hr, h⟩]
    rfl
  case badRam =>
    intro a off w s c word hr h ho hb
    rw [exec_rcRead, regRead_of_badRam hr h ho hb]
namespace State

/-! ### Reads that latch or pop -/

/-- A word of the ACTIVE view that is neither part of a 64-bit pair (R8) nor of a message RAM (R322). -/
def singleWord (off : Nat) : Bool :=
  decide (off % 4 = 0 ∧ off < 0xC000000 ∧ off % 0x1000000 < 0x800000 ∧ ramWord off = none ∧
    (regRow off).map RegRow.lat = some .none)

theorem singleWord_TE_TI_NS : ∀ i < 4, singleWord (R.TE_TI_NS i) = true := by decide

theorem singleWord_TE_TSI_NS : ∀ k < 2, singleWord (R.TE_TSI_NS k) = true := by decide

theorem singleWord_MX_HB_MSI_DATA : singleWord R.MX_HB_MSI_DATA = true := by decide

/-- Such a word is read as it is viewed, and its read has its effect alone. -/
theorem regRead_of_single {s : State} {a : Agent} {off : Nat} (hr : s.reaches a = true) (h : singleWord off = true)
    (hf : s.isFrozen off = false) :
    ∃ r, s.regRead a off .word = (s.readEffect r off).answer (.value (s.viewWord off)) := by
  obtain ⟨h4, ho, hv, hw, hrow⟩ := of_decide_eq_true h
  obtain ⟨r, hrow, hlat⟩ := Option.map_eq_some_iff.mp hrow
  refine ⟨r, ?_⟩
  rw [regRead_word hr h4 ho (by simp [badRam, hw]), readSpace_active s ho hv]
  simp [readActive, hrow, hf, latchHigh, readWord, hlat]

theorem idx_at {base stride n i : Nat} (hs : 0 < stride) (hi : i < n) : idx (base + stride * i) base stride n = some i := by
  simp [idx, hi, Nat.mul_div_cancel_left i hs]

theorem readEffect_TE_TI_NS (s : State) (r : RegRow) {i : Nat} (hi : i < 4) :
    s.readEffect r (R.TE_TI_NS i) = s.latchTi i := by
  have h : idx (R.TE_TI_NS i) (R.TE_TI_NS 0) 0x100 4 = some i := idx_at (by decide) hi
  rw [readEffect, h]

theorem readEffect_TE_TSI_NS (s : State) (r : RegRow) {k : Nat} (hk : k < 2) :
    s.readEffect r (R.TE_TSI_NS k) = s.tsiPop k := by
  have hti : idx (R.TE_TSI_NS k) (R.TE_TI_NS 0) 0x100 4 = none := by
    have : k = 0 ∨ k = 1 := by omega
    rcases this with rfl | rfl <;> decide
  have h : idx (R.TE_TSI_NS k) (R.TE_TSI_NS 0) 0x20 2 = some k := idx_at (by decide) hk
  rw [readEffect, hti, h]

theorem readEffect_MX_HB_MSI_DATA (s : State) (r : RegRow) : s.readEffect r R.MX_HB_MSI_DATA = s.msiPop := by
  simp [readEffect, idx, R.MX_HB_MSI_DATA, R.SX_QPEAK]

/-- A read of a low word keeps the high word of that moment for the next read of it (R8). -/
theorem latches_latchHigh {s : State} {r : RegRow} {off : Nat} (h : r.lat = .low) :
    Sparse.get (fun _ => none) (s.latchHigh r off).latches (off + 4) = some (s.viewWord (off + 4)) := by
  rw [latchHigh, if_pos h]
  exact Sparse.get_set_same (fun _ => none) s.latches (off + 4) (some (s.viewWord (off + 4)))

theorem latches_rcClear (s : State) (r : RegRow) (off : Nat) : (s.rcClear r off).latches = s.latches := by
  unfold rcClear
  dsimp only
  repeat' split
  all_goals rfl

theorem readWord_of_latched {s : State} {r : RegRow} {off : Nat} {v : Word} (h : r.lat = .high)
    (hl : Sparse.get (fun _ => none) s.latches off = some v) : s.readWord r off = v := by
  simp [readWord, h, hl]

theorem readActive_snd {s : State} {off : Nat} {r : RegRow} (h : regRow off = some r) :
    (s.readActive off).2 = s.readWord r off := by
  simp [readActive, h]
end State

open State


theorem exec_counterLowRead (a : Agent) (off : Nat) (s : State) :
    exec (.counterLowRead a off) s = .next (s.regRead a off .word) := rfl

theorem exec_tiTimeRead (a : Agent) {i : Nat} (s : State) (hi : i < 4) :
    exec (.tiTimeRead a i) s = .next (s.regRead a (R.TE_TI_NS i) .word) := by
  show execTiTimeRead a i s = _
  rw [execTiTimeRead, if_pos hi]

theorem exec_tsiPop (a : Agent) {k : Nat} (s : State) (hk : k < 2) :
    exec (.tsiPop a k) s = .next (s.regRead a (R.TE_TSI_NS k) .word) := by
  show execTsiPop a k s = _
  rw [execTsiPop, if_pos hk]

theorem exec_msiDataPop (a : Agent) (s : State) :
    exec (.msiDataPop a) s = .next (s.regRead a R.MX_HB_MSI_DATA .word) := rfl

/-- Settles O11: a low read latches the high word, and the reads of the time, a capture and the MSI FIFO have the
effect of their register. -/
theorem latchingReads : Obligations.LatchingReads := by
  unfold Obligations.LatchingReads
  refine ⟨?lowWord, ?time, ?capture, ?msi⟩
  case lowWord =>
    intro a b off s r h hr h4 ho hv hrow hlow hhigh hlat hf hp hb
    rw [exec_counterLowRead, regRead_word hr h4 (by omega) hb, readSpace_active s (by omega) (by omega),
      readActive_of_plain hrow hf hp]
    refine ⟨_, rfl, ?_, fun hrb hbb => ?_⟩
    · simp [readWord, hlow]
    · rw [exec_rcRead, regRead_word hrb (by omega) ho hbb]
      refine ⟨_, rfl, ?_⟩
      rw [readSpace_active _ ho (by omega), answer_resp, readActive_snd hhigh, readWord_of_latched hlat]
      rw [answer_latches, latches_rcClear, latches_latchHigh hlow]
  case time =>
    intro a i s hr hi hf
    obtain ⟨r, hread⟩ := regRead_of_single hr (singleWord_TE_TI_NS i hi) hf
    rw [exec_tiTimeRead a s hi, hread, readEffect_TE_TI_NS s r hi]
    refine ⟨_, rfl, rfl, rfl, ?_, ?_, ?_⟩ <;> simp [latchTi]
  case capture =>
    intro a k s c rest hr hk hf hq
    obtain ⟨r, hread⟩ := regRead_of_single hr (singleWord_TE_TSI_NS k hk) hf
    rw [exec_tsiPop a s hk, hread, readEffect_TE_TSI_NS s r hk]
    refine ⟨_, rfl, ?_, ?_, ?_, ?_⟩ <;> simp [State.tsiPop, hq]
  case msi =>
    intro a s d rest hr hf hq
    obtain ⟨r, hread⟩ := regRead_of_single hr singleWord_MX_HB_MSI_DATA hf
    rw [exec_msiDataPop, hread, readEffect_MX_HB_MSI_DATA]
    refine ⟨_, rfl, ?_, ?_, rfl⟩ <;> simp [msiPop, hq]

/-! ### The event status words (R42, R43) -/

theorem maskDiff_testBit (a b i : Nat) : (maskDiff a b).testBit i = (a.testBit i && !b.testBit i) := by
  unfold maskDiff
  rw [show Nat.xor a (Nat.land a b) = a ^^^ (a &&& b) from rfl, Nat.testBit_xor, Nat.testBit_and]
  cases a.testBit i <;> cases b.testBit i <;> rfl

namespace State

/-- The messages of a list of vectors: none in root-port mode, else one for each (R43). -/
theorem forEach_sendVec (s : State) (l : List Nat) :
    s.forEach l sendVec =
      { s with out := if s.pw.rootPort = true then s.out else (l.map Output.msix).reverse ++ s.out } := by
  induction l generalizing s with
  | nil => cases h : s.pw.rootPort <;> rfl
  | cons v l ih =>
    show (s.sendVec v).forEach l sendVec = _
    rw [ih]
    cases h : s.pw.rootPort <;> simp [sendVec, h, emit]

/-- The clearing of status bits, before the messages. -/
def evCleared (s : State) (n : Nat) (data : Word) : State :=
  { s.setRg (F.SV_EV_STATUS_EV n) (maskDiff (s.rg (F.SV_EV_STATUS_EV n)) data.toNat) with
    scope := s.scope.filter (fun e => !(decide (e.1 / 32 = n) && data.getLsbD (e.1 % 32))) }

theorem evClear_eq (s : State) (n : Nat) (data : Word) :
    s.evClear n data = { s.evCleared n data with out := if s.pw.rootPort = true then s.out else
      (((List.range 32).filter (s.evCleared n data).vecPending).map Output.msix).reverse ++ s.out } :=
  forEach_sendVec (s.evCleared n data) _

/-- A status bit after a write of its word. -/
theorem evSet_evCleared (s : State) (n : Nat) (data : Word) (e : Nat) :
    (s.evCleared n data).evSet e = (s.evSet e && !(decide (e / 32 = n) && data.getLsbD (e % 32))) := by
  have he : e % 32 < 32 := Nat.mod_lt _ (by decide)
  unfold evSet evCleared
  by_cases h : e / 32 = n
  · have bit : (maskDiff (s.rg (F.SV_EV_STATUS_EV n)) data.toNat % 2 ^ 32).testBit (e % 32) =
        ((s.rg (F.SV_EV_STATUS_EV n)).testBit (e % 32) && !data.getLsbD (e % 32)) := by
      rw [Nat.testBit_mod_two_pow, maskDiff_testBit, BitVec.testBit_toNat]
      simp [he]
    simpa [h] using bit
  · have hne : 8192 + 4 * (e / 32) ≠ 8192 + 4 * n := by omega
    simp [h, Ne.symm h]

theorem rd_evCleared (s : State) (n : Nat) (data : Word) {off : Nat} (h : off ≠ R.SV_EV_STATUS n) :
    (s.evCleared n data).rd off = s.rd off := by
  simp [evCleared, h]

end State

theorem exec_evStatusWrite {a : Agent} {n : Nat} (data : Word) {s : State} (hr : s.reaches a = true) (hn : n < 8) :
    exec (.evStatusWrite a n data) s = .next ((s.evClear n data).answer .done) := by
  show execEvStatusWrite a n data s = _
  rw [execEvStatusWrite, byAgent_reaches s a _ hr, if_pos hn]

/-- Settles O13: the bits written are cleared, and a message goes out for each vector that is still pending. -/
theorem eventStatusWrite : Obligations.EventStatusWrite := by
  unfold Obligations.EventStatusWrite
  intro a n data s hr hn
  have frame := (moves_exec _ _ _ (exec_evStatusWrite data hr hn)).1
  rw [exec_evStatusWrite data hr hn]
  refine ⟨_, rfl, rfl, ?bits, ?others, ?nothingPending, ?pending, frame⟩
  all_goals rw [evClear_eq] at *
  case bits => exact fun e _ => evSet_evCleared s n data e
  case others => exact fun off h => rd_evCleared s n data h
  case nothingPending =>
    intro h
    have none_left : (List.range 32).filter (s.evCleared n data).vecPending = [] :=
      List.filter_eq_nil_iff.mpr fun v _ => by rw [show (s.evCleared n data).vecPending v = false from h v]; decide
    simp [none_left]
  case pending =>
    intro v hv h hroot
    have listed : v < 32 ∧ (s.evCleared n data).vecPending v = true := ⟨hv, h⟩
    simp [hroot, listed]

end Sys2Proof.Machine
end

section
/-!
PROOFS. The snapshot unit (R34 to R37, R543): what each of its operations leaves in its registers and in its state, and
the statement about its commands.
-/

namespace Sys2Proof.Machine

/-! ### The command word with TRIGGER set -/

/-- Setting TRIGGER leaves every field that does not hold it. -/
theorem Fld.get_or (f : Fld) (w m : Word) (h : m.extractLsb' f.lo f.wid = 0) : f.get (w ||| m) = f.get w := by
  rw [Fld.get, Fld.get, BitVec.extractLsb'_or, h]
  simp

theorem mem_allDomains (d : ClkDomain) : d ∈ allDomains := by
  cases d with
  | mac p =>
    refine List.mem_append_right _ (List.mem_map.mpr ⟨p.val, List.mem_range.mpr p.isLt, ?_⟩)
    exact congrArg ClkDomain.mac (Fin.ofNat_val_eq_self p)
  | _ => simp [allDomains]

namespace State

/-- The fields of OB_SNAP that a write of it takes, before its command (R35, R36). -/
def snapSettings (s : State) (w : Word) : State :=
  let s1 := ((s.setRg F.OB_SNAP_SRC (F.OB_SNAP_SRC.get w)).setRg F.OB_SNAP_TI_SEL (F.OB_SNAP_TI_SEL.get w)).setRg
    F.OB_SNAP_HOLD_MAX (F.OB_SNAP_HOLD_MAX.get w)
  let s2 := if F.OB_SNAP_REFUSED.get w = 1 then s1.setRg F.OB_SNAP_REFUSED 0 else s1
  if F.OB_SNAP_EXPIRED.get w = 1 then s2.setRg F.OB_SNAP_EXPIRED 0 else s2

theorem snapWrite_trigger (s : State) {data : Word} (h : F.OB_SNAP_RELEASE.get data = 0) :
    s.snapWrite (data ||| 1) = (s.snapSettings data).snapTrigger := by
  have hrelease : F.OB_SNAP_RELEASE.get (data ||| 1) = 0 := (Fld.get_or _ _ _ rfl).trans h
  have htrigger : F.OB_SNAP_TRIGGER.get (data ||| 1) = 1 := by
    rw [Fld.get, BitVec.extractLsb'_or]
    generalize data.extractLsb' F.OB_SNAP_TRIGGER.lo F.OB_SNAP_TRIGGER.wid = b
    revert b
    decide
  simp only [snapWrite, hrelease, htrigger, Fld.get_or F.OB_SNAP_SRC data 1 rfl, Fld.get_or F.OB_SNAP_TI_SEL data 1 rfl,
    Fld.get_or F.OB_SNAP_HOLD_MAX data 1 rfl, Fld.get_or F.OB_SNAP_REFUSED data 1 rfl,
    Fld.get_or F.OB_SNAP_EXPIRED data 1 rfl, snapSettings]
  rfl

theorem snapSettings_moves (s : State) (w : Word) : moves [.regs] s (s.snapSettings w) := by
  unfold snapSettings
  dsimp only
  repeat' split
  all_goals repeat apply moves_setRg (by decide)
  all_goals exact moves_refl s

@[simp] theorem snapSettings_ob (s : State) (w : Word) : (s.snapSettings w).ob = s.ob :=
  (snapSettings_moves s w).1 .ob (by decide)

@[simp] theorem snapSettings_tiOf (s : State) (w : Word) (i : Nat) : (s.snapSettings w).tiOf i = s.tiOf i :=
  tiOf_congr ((snapSettings_moves s w).1 .te (by decide)) i

/-- The settings change OB_SNAP alone. -/
theorem rd_snapSettings (s : State) (w : Word) {off : Nat} (h : off ≠ R.OB_SNAP) :
    (s.snapSettings w).rd off = s.rd off := by
  unfold snapSettings
  dsimp only
  repeat' split
  all_goals simp [h]

theorem snapAt_snapSettings (s : State) (w : Word) : (s.snapSettings w).snapAt = s.snapAt := by
  simp [snapAt, rg_eq, rd_snapSettings]
  rfl

theorem rg_snapSettings (s : State) (w : Word) :
    (s.snapSettings w).rg F.OB_SNAP_SRC = F.OB_SNAP_SRC.get w ∧
      (s.snapSettings w).rg F.OB_SNAP_TI_SEL = F.OB_SNAP_TI_SEL.get w := by
  have hsrc : F.OB_SNAP_SRC.get w < 4 := Fld.get_lt _ w
  have hti : F.OB_SNAP_TI_SEL.get w < 4 := Fld.get_lt _ w
  unfold snapSettings
  dsimp only
  repeat' split
  all_goals simp [Nat.mod_eq_of_lt hsrc, Nat.mod_eq_of_lt hti]

/-! ### Forming, releasing, freezing -/

@[simp] theorem snapForm_state (s : State) : s.snapForm.ob.snap.state = .forming := rfl

@[simp] theorem rg_snapForm_state (s : State) : s.snapForm.rg F.OB_SNAP_STATE = 1 := by
  simp [snapForm, snapTime]

/-- A snapshot that forms records the time of its TI (R35). -/
@[simp] theorem rg_snapForm_ns (s : State) : s.snapForm.rg F.OB_SNAP_TIME_NS_NS = (s.tiOf s.ob.snap.ti).ns % 2 ^ 30 := by
  simp [snapForm, snapTime, tiOf]

/-- A snapshot as a trigger arms it. -/
def snapArmed (s : State) : State :=
  { s.setRg F.OB_SNAP_STATE 1 with ob.snap := ⟨.armed, s.rg F.OB_SNAP_SRC, s.rg F.OB_SNAP_TI_SEL, s.snapAt, []⟩ }

theorem snapTrigger_of_idle {s : State} (h : s.ob.snap.state = .idle) :
    s.snapTrigger = if s.rg F.OB_SNAP_SRC = 0 ∨ (s.rg F.OB_SNAP_SRC = 3 ∧ s.snapAt ≤ s.tiNs (s.rg F.OB_SNAP_TI_SEL))
      then s.snapArmed.snapForm else s.snapArmed := by
  rw [snapTrigger, if_pos h]
  rfl

theorem rg_snapArmed_state (s : State) : s.snapArmed.rg F.OB_SNAP_STATE = 1 := by
  simp [snapArmed]

/-- A snapshot that forms at its trigger records the time of the TI that TI_SEL names (R35, R543). -/
theorem rg_snapForm_ns_armed (s : State) (w : Word) :
    (s.snapSettings w).snapArmed.snapForm.rg F.OB_SNAP_TIME_NS_NS = (s.tiOf (F.OB_SNAP_TI_SEL.get w)).ns % 2 ^ 30 := by
  rw [rg_snapForm_ns]
  show ((s.snapSettings w).tiOf ((s.snapSettings w).rg F.OB_SNAP_TI_SEL)).ns % 2 ^ 30 = _
  rw [(rg_snapSettings s w).2, snapSettings_tiOf]

theorem snapTrigger_of_busy {s : State} (h : s.ob.snap.state ≠ .idle) :
    s.snapTrigger = s.setRg F.OB_SNAP_REFUSED 1 := if_neg h

theorem snapRelease_of_busy {s : State} (h : s.ob.snap.state ≠ .idle) :
    s.snapRelease =
      { s.setRg F.OB_SNAP_STATE 0 with ob.snap := { s.ob.snap with state := .idle, cut := [] } } := if_neg h

/-- The cut after the freeze command has reached a domain. -/
def cutWith (s : State) (d : ClkDomain) : List (ClkDomain × RegFile) :=
  s.ob.snap.cut ++ ((freezesWith d).filter (fun x => s.ob.snap.cut.all (fun e => decide (e.1 ≠ x)))).map
    (fun x => (x, s.frozenNow x))

theorem snapFreeze_of_new {s : State} {d : ClkDomain} (h : ∀ e ∈ s.ob.snap.cut, e.1 ≠ d) :
    s.snapFreeze d = if allDomains.all (fun x => (s.cutWith d).any (fun e => decide (e.1 = x))) then
      { s.setRg F.OB_SNAP_STATE 2 with ob.snap := { s.ob.snap with state := .frozen, cut := s.cutWith d } }
    else { s with ob.snap := { s.ob.snap with cut := s.cutWith d } } := by
  have hany : s.ob.snap.cut.any (fun e => decide (e.1 = d)) = false := by simpa using h
  simp only [snapFreeze, hany, cutWith]
  rfl

theorem snapFreeze_cut {s : State} {d : ClkDomain} (h : ∀ e ∈ s.ob.snap.cut, e.1 ≠ d) :
    (s.snapFreeze d).ob.snap.cut = s.cutWith d := by
  rw [snapFreeze_of_new h]
  split <;> rfl

/-- The cut covers what it covered before and what freezes with the domain. -/
theorem covered_cutWith (s : State) (d x : ClkDomain) :
    (∃ e ∈ s.cutWith d, e.1 = x) ↔ x ∈ freezesWith d ∨ ∃ e ∈ s.ob.snap.cut, e.1 = x := by
  simp only [cutWith, List.mem_append, List.mem_map, List.mem_filter, List.all_eq_true, decide_eq_true_eq]
  constructor
  · rintro ⟨e, he | ⟨y, ⟨hy, -⟩, rfl⟩, rfl⟩
    · exact .inr ⟨e, he, rfl⟩
    · exact .inl hy
  · rintro (hx | ⟨e, he, rfl⟩)
    · by_cases hc : ∃ e ∈ s.ob.snap.cut, e.1 = x
      · obtain ⟨e, he, hex⟩ := hc
        exact ⟨e, .inl he, hex⟩
      · exact ⟨(x, s.frozenNow x), .inr ⟨x, ⟨hx, fun e he hex => hc ⟨e, he, hex⟩⟩, rfl⟩, rfl⟩
    · exact ⟨e, .inl he, rfl⟩

theorem mem_freezesWith_self (d : ClkDomain) : d ∈ freezesWith d := by
  unfold freezesWith
  split
  · next h => exact List.mem_filter.mpr ⟨mem_allDomains d, h⟩
  · exact List.mem_singleton.mpr rfl

theorem cutWith_covers_all (s : State) (d : ClkDomain) :
    allDomains.all (fun x => (s.cutWith d).any (fun e => decide (e.1 = x))) = true ↔
      ∀ x ∈ allDomains, x ∈ freezesWith d ∨ ∃ e ∈ s.ob.snap.cut, e.1 = x := by
  simp only [List.all_eq_true, List.any_eq_true, decide_eq_true_eq, covered_cutWith]

end State

open State

theorem exec_obSnapTrigger {a : Agent} {data : Word} {s : State} (hr : s.reaches a = true)
    (h : F.OB_SNAP_RELEASE.get data = 0) :
    exec (.obSnapTrigger a data) s = .next ((s.snapSettings data).snapTrigger.answer .done) := by
  show execObSnapTrigger a data s = _
  rw [execObSnapTrigger, byAgent_reaches s a _ hr, snapWrite_trigger s h]

/-- Settles O12: each clause is the branch of the snapshot's operation that its hypotheses select. -/
theorem snapshotCommands : Obligations.SnapshotCommands := by
  unfold Obligations.SnapshotCommands
  refine ⟨?armPin, ?software, ?refused, ?release, ?timeMatch, ?pinEdge, ?freeze, ?holdMax, ?mirror, ?armTime⟩
  case armPin =>
    intro a data s hr hrel hidle hsrc
    have notNow : ¬ (F.OB_SNAP_SRC.get data = 0 ∨ (F.OB_SNAP_SRC.get data = 3 ∧
        (s.snapSettings data).snapAt ≤ (s.snapSettings data).tiNs (F.OB_SNAP_TI_SEL.get data))) := by omega
    obtain ⟨src, ti⟩ := rg_snapSettings s data
    rw [exec_obSnapTrigger hr hrel, snapTrigger_of_idle (by simpa using hidle), src, ti, if_neg notNow]
    exact ⟨_, rfl, rfl, src, ti, rg_snapArmed_state _⟩
  case software =>
    intro a data s hr hrel hidle hsrc
    obtain ⟨src, ti⟩ := rg_snapSettings s data
    rw [exec_obSnapTrigger hr hrel, snapTrigger_of_idle (by simpa using hidle), src, if_pos (.inl hsrc)]
    refine ⟨_, rfl, rfl, rg_snapForm_state _, ?_⟩
    exact rg_snapForm_ns_armed s data
  case refused =>
    intro a data s hr hrel hbusy
    rw [exec_obSnapTrigger hr hrel, snapTrigger_of_busy (by simpa using hbusy)]
    refine ⟨_, rfl, by simp, by simp⟩
  case release =>
    intro a s hr hbusy
    show ∃ t, execObSnapRelease a s = _ ∧ _
    rw [execObSnapRelease, byAgent_reaches s a _ hr, snapRelease_of_busy hbusy]
    refine ⟨_, rfl, rfl, rfl, by simp, fun off h => by simp [h]⟩
  case timeMatch =>
    intro s hst hsrc hat
    show ∃ t, execObSnapTimeMatch s = _ ∧ _
    rw [execObSnapTimeMatch, snapMatch, if_pos (by simp [snapMatched, hst, hsrc, hat])]
    exact ⟨_, rfl, rfl, rg_snapForm_state s, rg_snapForm_ns s⟩
  case pinEdge =>
    intro pin rising s hpin hst hsrc hedge
    show ∃ t, execObSnapTsyncEdge pin rising s = _ ∧ _
    rw [execObSnapTsyncEdge, if_pos (by simp [snapPin, hst, hsrc, hpin, hedge])]
    exact ⟨_, rfl, rfl, rg_snapForm_ns s⟩
  case freeze =>
    intro d s hst hnew
    show ∃ t, execObSnapDomainFreeze d s = _ ∧ _
    rw [execObSnapDomainFreeze, if_pos hst]
    refine ⟨_, rfl, ?own, ?framePath, ?last, ?more⟩
    case own =>
      have notYet : s.ob.snap.cut.all (fun e => decide (e.1 ≠ d)) = true := by simpa using hnew
      rw [snapFreeze_cut hnew]
      refine List.mem_append_right _ (List.mem_map.mpr ⟨d, ?_, rfl⟩)
      rw [List.mem_filter]
      exact ⟨mem_freezesWith_self d, notYet⟩
    case framePath =>
      intro hd x hx
      rw [snapFreeze_cut hnew, covered_cutWith, freezesWith, if_pos hd]
      exact .inl (List.mem_filter.mpr ⟨mem_allDomains x, hx⟩)
    case last =>
      intro hall
      rw [snapFreeze_of_new hnew, if_pos ((cutWith_covers_all s d).mpr hall)]
      exact ⟨rfl, by simp⟩
    case more =>
      rintro ⟨x, hx, hwith, hcut⟩
      have open_ : ¬ allDomains.all (fun x => (s.cutWith d).any (fun e => decide (e.1 = x))) = true := by
        rw [cutWith_covers_all]
        intro hall
        rcases hall x hx with h | ⟨e, he, hex⟩
        · exact hwith h
        · exact hcut e he hex
      rw [snapFreeze_of_new hnew, if_neg open_]
      exact ⟨hst, rfl⟩
  case holdMax =>
    intro s hu hst
    have hbusy : s.ob.snap.state ≠ .idle := by simp [hst]
    show ∃ t, execObSnapHoldMaxExpiry s = _ ∧ _
    rw [execObSnapHoldMaxExpiry, if_pos hst, snapRelease_of_busy hbusy]
    refine ⟨_, rfl, by simp, by simp, by simp, evSet_raise_self _ _ _ hu⟩
  case mirror =>
    intro s hu
    show execPowerDieMirrorRefresh s = _
    rw [execPowerDieMirrorRefresh, if_pos hu]
    rfl
  case armTime =>
    intro a data s hr hrel hidle hsrc
    obtain ⟨src, ti⟩ := rg_snapSettings s data
    have settled : (s.snapSettings data).tiNs (F.OB_SNAP_TI_SEL.get data) = s.tiNs (F.OB_SNAP_TI_SEL.get data) :=
      congrArg Ti.total (snapSettings_tiOf s data _)
    rw [exec_obSnapTrigger hr hrel, snapTrigger_of_idle (by simpa using hidle), src, ti, snapAt_snapSettings, settled]
    refine ⟨_, rfl, ?_⟩
    by_cases hat : s.snapAt ≤ s.tiNs (F.OB_SNAP_TI_SEL.get data)
    · rw [if_pos hat, if_pos (.inr ⟨hsrc, hat⟩)]
      exact ⟨rfl, rg_snapForm_state _, rg_snapForm_ns_armed s data⟩
    · rw [if_neg hat, if_neg (by omega)]
      exact ⟨rfl, src.trans hsrc, ti, snapAt_snapSettings s data, rg_snapArmed_state _⟩

end Sys2Proof.Machine
end

section
/-!
PROOFS. The time instances and the TSYNC pins (R261 to R287): a move of a TI changes that TI alone, and the
statements about its commands, its servo and its pins.
-/

namespace Sys2Proof.Machine

namespace State

/-! ### Moving a TI moves no other (R264 to R267) -/

theorem pairIf_ti (s : State) (i : Nat) : (s.pairIf i).te.ti = s.te.ti := by
  unfold pairIf
  split <;> rfl

theorem tsoSkip_ti (s : State) (i old new k : Nat) : (s.tsoSkip i old new k).te.ti = s.te.ti := by
  unfold tsoSkip
  split
  · rfl
  · cases s.tsoEvery k with
    | none => rfl
    | some p =>
      dsimp only
      generalize edgesBefore (s.tsoStart k) p new - edgesBefore _ _ _ = n
      split
      · rfl
      · simp [raiseTePin, setTso]

theorem tsoShift_ti (s : State) (i : Nat) (d : Int) (k : Nat) : (s.tsoShift i d k).te.ti = s.te.ti := by
  unfold tsoShift
  repeat' split
  all_goals rfl

theorem rehold_te (s : State) (q : Nat) : (s.rehold q).te = s.te :=
  (moves_rehold (List.Subset.refl _) (moves_refl s)).1 .te (by decide)

theorem gateJump_te (s : State) (p : Nat) : (s.gateJump p).te = s.te :=
  (moves_gateJump (List.Subset.refl _) (moves_refl s)).1 .te (by decide)

theorem sgateJump_te (s : State) (i g : Nat) : (s.sgateJump i g).te = s.te :=
  (moves_sgateJump (List.Subset.refl _) (moves_refl s)).1 .te (by decide)

theorem heldReached_te (s : State) (i : Nat) : (s.heldReached i).te = s.te :=
  (moves_heldReached (List.Subset.refl _) (moves_refl s)).1 .te (by decide)

theorem snapMatch_te (s : State) : s.snapMatch.te = s.te :=
  (moves_snapMatch (List.Subset.refl _) (moves_refl s)).1 .te (by decide)

/-- What follows a move of a TI moves none. -/
theorem followMove_ti (s : State) (i old new : Nat) : (s.followMove i old new).te.ti = s.te.ti := by
  unfold followMove
  dsimp only
  rw [snapMatch_te, heldReached_te,
    forEach_keeps (fun u => u.te.ti) _ fun u k => (tsoShift_ti _ i _ k).trans (tsoSkip_ti u i old new k),
    forEach_keeps (fun u => u.te.ti) _ fun u g => congrArg TeState.ti (sgateJump_te u i g),
    forEach_keeps (fun u => u.te.ti) _ fun u p => congrArg TeState.ti (gateJump_te u p), pairIf_ti,
    forEach_keeps (fun u => u.te.ti) _ fun u q => congrArg TeState.ti (rehold_te u q)]

theorem moveTi_ti (s : State) (i : Nat) (new : Int) (frac : Nat) :
    (s.moveTi i new frac).te.ti =
      Sparse.set (fun _ => ⟨0, 0, 0⟩) s.te.ti i (Ti.ofTotal (new % (tiWrap : Int)).toNat frac) := by
  rw [moveTi, followMove_ti]
  simp [raiseTe, setTi]

theorem tiOf_moveTi_same (s : State) (i : Nat) (new : Int) (frac : Nat) :
    (s.moveTi i new frac).tiOf i = Ti.ofTotal (new % (tiWrap : Int)).toNat frac := by
  rw [tiOf, moveTi_ti, Sparse.get_set_same]

theorem tiOf_moveTi_ne (s : State) (i : Nat) (new : Int) (frac : Nat) {j : Nat} (h : j ≠ i) :
    (s.moveTi i new frac).tiOf j = s.tiOf j := by
  rw [tiOf, moveTi_ti, Sparse.get_set_ne _ _ _ h, tiOf]

theorem moveTi_socUp (s : State) (i : Nat) (new : Int) (frac : Nat) : (s.moveTi i new frac).socUp = s.socUp :=
  socUp_congr ((moves_moveTi (List.Subset.refl _) (moves_refl s)).1 .pw (by decide))

/-! ### Results and refusals of a TI's commands (R264, R265) -/

@[simp] theorem tiResult_te (s : State) (a : Agent) (i code : Nat) : (s.tiResult a i code).te = s.te := by
  simp [tiResult, raiseTe]

@[simp] theorem rg_tiResult (s : State) (a : Agent) (i code : Nat) :
    (s.tiResult a i code).rg (F.TE_TI_CMD_RESULT i) = code % 8 := by
  simp [tiResult, raiseTe]

@[simp] theorem rg_tiResult_stat (s : State) (a : Agent) (i code : Nat) (f : Fld)
    (h : f = F.TE_TI_STAT_SET i ∨ f = F.TE_TI_STAT_JUMP_REFUSED i) : (s.tiResult a i code).rg f = s.rg f := by
  rcases h with rfl | rfl <;> simp [tiResult, raiseTe]

theorem evSet_tiResult (s : State) (a : Agent) (i code : Nat) (h : s.socUp = true) :
    (s.tiResult a i code).evSet 137 = true :=
  evSet_raise _ _ _ h

theorem evSet_tiResult_mono (s : State) (a : Agent) (i code n : Nat) (hn : n < 256) (h : s.evSet n = true) :
    (s.tiResult a i code).evSet n = true := by
  unfold tiResult raiseTe
  apply evSet_raise_mono
  rw [evSet_setRg, evSet_setRg, h] <;> dsimp only <;> omega

@[simp] theorem guardCount_te (s : State) (i : Nat) : (s.guardCount i).te = s.te := by
  simp [guardCount, raiseTe]

@[simp] theorem rg_guardCount (s : State) (i : Nat) : (s.guardCount i).rg (F.TE_TI_STAT_JUMP_REFUSED i) = 1 := by
  simp [guardCount, raiseTe]

theorem evSet_guardCount (s : State) (i : Nat) (h : s.socUp = true) : (s.guardCount i).evSet 128 = true :=
  evSet_raise _ _ _ h

/-! ### The commands of a TI -/

theorem judgeAdj_te (s : State) (i : Nat) : (s.judgeAdj i).te = s.te := by
  unfold judgeAdj
  dsimp only
  repeat' split
  all_goals simp [raiseTe]

theorem rg_judgeAdj (s : State) (i : Nat) :
    (s.judgeAdj i).rg (F.TE_TI_ADJ_ADJ i) = s.rg (F.TE_TI_ADJ_ADJ i) ∧
      (s.judgeAdj i).rg (F.TE_TI_STAT_ADJ_CLIPPED i) = if s.adjOver i = true then 1 else 0 := by
  unfold judgeAdj
  by_cases h : s.adjOver i = true
  · simp only [h, if_true]
    split <;> simp [raiseTe]
  · simp [h]

theorem pairIf_regs (s : State) (i : Nat) : (s.pairIf i).regs = s.regs := by
  unfold pairIf
  split <;> rfl

theorem applyAdj_ti (s : State) (i w : Nat) : (s.applyAdj i w).te.ti = s.te.ti := by
  rw [applyAdj, pairIf_ti, judgeAdj_te, setRg_te]

@[simp] theorem incNom_setRg (s : State) (f : Fld) (v i : Nat) : (s.setRg f v).incNom i = s.incNom i := rfl

theorem rg_applyAdj (s : State) (i : Nat) (w : Word) :
    (s.applyAdj i w.toNat).rg (F.TE_TI_ADJ_ADJ i) = w.toNat ∧
      (s.applyAdj i w.toNat).rg (F.TE_TI_STAT_ADJ_CLIPPED i) =
        if (signed32 w.toNat).natAbs > s.incNom i / 1000 then 1 else 0 := by
  have hw : w.toNat < 4294967296 := w.isLt
  have clip : (s.setRg (F.TE_TI_ADJ_ADJ i) w.toNat).adjOver i =
      decide ((signed32 w.toNat).natAbs > s.incNom i / 1000) := by
    simp [adjOver, adjRaw, adjLimit, Nat.mod_eq_of_lt hw]
  obtain ⟨adj, clipped⟩ := rg_judgeAdj (s.setRg (F.TE_TI_ADJ_ADJ i) w.toNat) i
  rw [applyAdj, rg_congr (pairIf_regs _ i), rg_congr (pairIf_regs _ i), adj, clipped, clip]
  simp [hw]

theorem setBeyond_eq (s : State) (i : Nat) : s.setBeyond i =
    decide (2 ^ 32 * s.jumpLim i < (2 ^ 32 * (s.setValue i : Int) - (2 ^ 32 * s.tiNs i + (s.tiOf i).frac)).natAbs) := by
  simp [setBeyond]

end State

open State

section

variable {a : Agent} {i : Nat} {s : State}

theorem exec_tiAdjWrite (data : Word) (hr : s.reaches a = true) (hi : i < 4) :
    exec (.tiAdjWrite a i data) s =
      .next ((if s.owned i = true then s else s.applyAdj i data.toNat).answer .done) := by
  show execTiAdjWrite a i data s = _
  rw [execTiAdjWrite, byAgent_reaches s a _ hr, only, if_pos (decide_eq_true hi)]

theorem exec_tiStep (hr : s.reaches a = true) (hi : i < 4) :
    exec (.tiStep a i) s = .next ((if s.owned i = true then s.tiResult a i 3
      else if (s.stepValue i).natAbs > s.jumpLim i then (s.guardCount i).tiResult a i 2
      else (s.moveTi i ((s.tiNs i : Int) + s.stepValue i) (s.tiOf i).frac).tiResult a i 1).answer .done) := by
  show execTiStep a i s = _
  rw [execTiStep, byAgent_reaches s a _ hr, only, if_pos (decide_eq_true hi)]

theorem exec_tiSet (hr : s.reaches a = true) (hi : i < 4) :
    exec (.tiSet a i) s = .next ((if s.owned i = true then s.tiResult a i 3
      else if s.rg (F.TE_TI_SET_NS_NS i) ≥ giga then s.tiResult a i 4
      else if s.tiSet i = true ∧ s.setBeyond i = true then (s.guardCount i).tiResult a i 2
      else ((s.moveTi i (s.setValue i) 0).setRg (F.TE_TI_STAT_SET i) 1).tiResult a i 1).answer .done) := by
  show execTiSet a i s = _
  rw [execTiSet, byAgent_reaches s a _ hr, only, if_pos (decide_eq_true hi)]

theorem exec_tiUnset (hr : s.reaches a = true) (hi : i < 4) :
    exec (.tiUnset a i) s = .next ((((if s.owned i = true ∧ s.asState i = 7 then s.toAsState i 1 else s).setRg
      (F.TE_TI_STAT_SET i) 0).tiResult a i 1).answer .done) := by
  show execTiUnset a i s = _
  rw [execTiUnset, byAgent_reaches s a _ hr, only, if_pos (decide_eq_true hi)]

end

/-- Settles O14: each clause is the branch of the command that its hypotheses select. -/
theorem timeInstanceCommands : Obligations.TimeInstanceCommands := by
  unfold Obligations.TimeInstanceCommands
  refine ⟨?adj, ?adjOwned, ?step, ?stepBeyond, ?ownedBoth, ?set, ?setBeyond, ?unset⟩
  case adj =>
    intro a i data s hr hi hown
    rw [exec_tiAdjWrite data hr hi, if_neg (by simp [hown])]
    obtain ⟨adj, clipped⟩ := rg_applyAdj s i data
    refine ⟨_, rfl, ?_, ?_, ?_⟩
    · rw [answer_rg, adj]
    · rw [answer_rg, clipped]
    · rw [answer_te, applyAdj_ti]
  case adjOwned =>
    intro a i data s hr hi hown
    rw [exec_tiAdjWrite data hr hi, if_pos hown]
    rfl
  case step =>
    intro a i s hr hi hown hlim
    rw [exec_tiStep hr hi, if_neg (by simp [hown]), if_neg (Nat.not_lt.mpr hlim)]
    have up := (moveTi_socUp s i ((s.tiNs i : Int) + s.stepValue i) (s.tiOf i).frac).trans (socUp_of_reaches s a hr)
    refine ⟨_, rfl, by simp, ?_, fun j hj => ?_, ?_⟩
    · rw [tiOf_answer, tiOf_congr (tiResult_te _ a i 1), tiOf_moveTi_same]
    · rw [tiOf_answer, tiOf_congr (tiResult_te _ a i 1), tiOf_moveTi_ne _ _ _ _ hj]
    · rw [evSet_answer]
      exact evSet_tiResult _ a i 1 up
  case stepBeyond =>
    intro a i s hr hi hown hlim
    rw [exec_tiStep hr hi, if_neg (by simp [hown]), if_pos hlim]
    refine ⟨_, rfl, by simp, by simp, by simp, ?_⟩
    rw [evSet_answer]
    exact evSet_tiResult_mono _ a i 2 128 (by decide) (evSet_guardCount s i (socUp_of_reaches s a hr))
  case ownedBoth =>
    intro a i s hr hi hown
    rw [exec_tiStep hr hi, exec_tiSet hr hi, if_pos hown, if_pos hown]
    exact ⟨_, _, rfl, by simp, by simp, rfl, by simp, by simp⟩
  case set =>
    intro a i s hr hi hown hns hlim
    have within_ : ¬ (s.tiSet i = true ∧ s.setBeyond i = true) := by
      rintro ⟨hset, hbeyond⟩
      rw [setBeyond_eq, decide_eq_true_eq] at hbeyond
      exact absurd (hlim hset) (Nat.not_le.mpr hbeyond)
    rw [exec_tiSet hr hi, if_neg (by simp [hown]), if_neg (Nat.not_le.mpr hns), if_neg within_]
    have value : ((s.setValue i : Int) % (tiWrap : Int)).toNat = s.setValue i % tiWrap := by
      rw [← Int.natCast_mod, Int.toNat_natCast]
    refine ⟨_, rfl, by simp, by simp, ?_, fun j hj => ?_⟩
    · rw [tiOf_answer, tiOf_congr (tiResult_te _ a i 1), tiOf_congr (setRg_te _ _ _),
        tiOf_moveTi_same, value]
    · rw [tiOf_answer, tiOf_congr (tiResult_te _ a i 1), tiOf_congr (setRg_te _ _ _),
        tiOf_moveTi_ne _ _ _ _ hj]
  case setBeyond =>
    intro a i s hr hi hown hns hset hlim
    have beyond : s.setBeyond i = true := by rw [setBeyond_eq]; exact decide_eq_true hlim
    rw [exec_tiSet hr hi, if_neg (by simp [hown]), if_neg (Nat.not_le.mpr hns), if_pos ⟨hset, beyond⟩]
    refine ⟨_, rfl, by simp, by simp, by simp, ?_⟩
    rw [evSet_answer]
    exact evSet_tiResult_mono _ a i 2 128 (by decide) (evSet_guardCount s i (socUp_of_reaches s a hr))
  case unset =>
    intro a i s hr hi
    rw [exec_tiUnset hr hi]
    refine ⟨_, rfl, by simp, by simp, ?_⟩
    rw [answer_te, tiResult_te, setRg_te]
    split
    · exact (moves_toAsState (List.Subset.refl _) (moves_refl s)).1 .te (by decide)
    · rfl

/-! ### The servo and a better master -/

/-- Instance 0 is the servo's with port 0, and the gateway may become grandmaster with PRIORITY1 0. -/
def masterCandidate : State :=
  { State.reset with active := [(6, [(R.TE_AS_CFG 0, 0x101), (R.TE_AS_PORTS_LO 0, 1)])] }

theorem masterCandidate_asPort : masterCandidate.asPort 0 0 = true := by decide

theorem masterCandidate_domain : masterCandidate.act (F.TE_AS_CFG_DOMAIN 0) = 0 := by decide

theorem masterCandidate_tiSet : masterCandidate.tiSet 0 = false := by decide

/-- The Sync of a worse master makes it grandmaster, whether its TI is SET or not (R274). -/
theorem masterCandidate_asState :
    (State.after (exec (.syncReceived 0 0 0 0 0 255) masterCandidate) masterCandidate).asState 0 = 6 := by
  decide

/-- Refutes O15: the first Sync of an UNSET TI does not set it where the gateway is the better master. -/
theorem not_servoCommands : ¬ Obligations.ServoCommands := by
  unfold Obligations.ServoCommands
  rintro ⟨firstSync, -⟩
  obtain ⟨t, hexec, -, -, locking⟩ := firstSync 0 0 0 0 255 0 masterCandidate (by decide) masterCandidate_asPort
    masterCandidate_domain.symm masterCandidate_tiSet
  have master := masterCandidate_asState
  rw [hexec] at master
  exact absurd (locking.symm.trans master) (by decide)

/-! ### The TSYNC pins and the FBTC pairs -/

namespace State

@[simp] theorem raiseTePin_te (s : State) (ev k i : Nat) : (s.raiseTePin ev k i).te = s.te := by
  simp [raiseTePin]

theorem evSet_raiseTePin (s : State) (ev k i : Nat) (h : s.socUp = true) : (s.raiseTePin ev k i).evSet ev = true :=
  evSet_raise _ _ _ h

/-- A capture as the FIFO of TSYNC_IN k takes it (R278). -/
def tsiNow (s : State) (k : Nat) (rising : Bool) : TsiCapture :=
  let t := s.tiOf (s.act (F.TE_TSI_CFG_TI k))
  ⟨t.sec, t.ns, t.frac / 2 ^ 24, rising⟩

theorem tsiCapture_of_room {s : State} {k : Nat} (rising : Bool)
    (h : (Sparse.get (fun _ => []) s.te.tsi k).length < 8) :
    Sparse.get (fun _ => []) (s.tsiCapture k rising).te.tsi k =
        Sparse.get (fun _ => []) s.te.tsi k ++ [s.tsiNow k rising] ∧
      (s.socUp = true → Sparse.get (fun _ => []) s.te.tsi k = [] → (s.tsiCapture k rising).evSet 134 = true) := by
  unfold tsiCapture
  dsimp only
  rw [if_neg (Nat.not_le.mpr h)]
  constructor
  · split <;> simp [tsiNow]
  · intro hu hnone
    rw [hnone]
    exact evSet_raiseTePin _ _ _ _ hu

theorem tsiCapture_of_full {s : State} {k : Nat} (rising : Bool)
    (h : 8 ≤ (Sparse.get (fun _ => []) s.te.tsi k).length) :
    s.tsiCapture k rising = (s.bump (F.TE_TSI_LOST_COUNT k)).raiseTePin 135 k (s.act (F.TE_TSI_CFG_TI k)) := by
  unfold tsiCapture
  exact if_pos h

theorem tsoOf_setTso_same (s : State) (k : Nat) (x : TsoState) : (s.setTso k x).tsoOf k = x :=
  Sparse.get_set_same (fun _ => tsoFresh) s.te.tso k x

@[simp] theorem tsoOf_emit (s : State) (o : Output) (k : Nat) : (s.emit o).tsoOf k = s.tsoOf k := rfl

@[simp] theorem setTso_out (s : State) (k : Nat) (x : TsoState) : (s.setTso k x).out = s.out := rfl

end State

/-- A single pulse has one edge time, at START (R279). -/
theorem edgesBefore_single {start now : Nat} (h : start ≤ now) : edgesBefore start 0 (now + 1) = 1 := by
  rw [edgesBefore, if_neg (by omega), if_pos rfl]

/-- The edge times up to the present, START + n PERIOD the latest (R279). -/
theorem edgesBefore_latest {start period n now : Nat} (h : start + n * period ≤ now)
    (hlt : now < start + (n + 1) * period) : edgesBefore start period (now + 1) = n + 1 := by
  have hp : period ≠ 0 := by rintro rfl; omega
  have latest : (now + 1 - start - 1) / period = n := by
    apply Nat.div_eq_of_lt_le <;> omega
  rw [edgesBefore, if_neg (by omega), if_neg hp, latest]

namespace State

theorem tsoEdge_succ {s : State} {k period x n : Nat} (h : edgesBefore (s.tsoStart k) period x = n + 1) :
    s.tsoEdge k period x = some (s.tsoStart k + n * period) := by
  rw [tsoEdge, h]

/-- The state of pin k that gives a pulse at an edge time (R279). -/
def tsoPulse (s : State) (k e : Nat) : TsoState :=
  let i := s.act (F.TE_TSO_CFG_TI k)
  ⟨some e, i, some ⟨i, e + s.tsoWidth k, s.tsoInvert k⟩, s.tsoInvert k⟩

end State

theorem exec_tsyncInEdge {k : Nat} {rising : Bool} {s : State} (hk : k < 2)
    (h : (s.act (F.TE_TSI_CFG_EDGE k)).testBit (if rising then 0 else 1) = true) :
    exec (.tsyncInEdge k rising) s = .next (s.tsiCapture k rising) := by
  show execTsyncInEdge k rising s = _
  rw [execTsyncInEdge, only, if_pos (decide_eq_true hk), if_pos h]

theorem exec_tsyncOutEdge_end {k : Nat} {u : TsoPulse} {s : State} (hk : k < 2) (hp : (s.tsoOf k).pulse = some u)
    (h : u.ends ≤ s.tiNs u.ti) :
    exec (.tsyncOutEdge k) s =
      .next ((s.setTso k { s.tsoOf k with pulse := none }).emit (.tsync k (State.tsoLevel u.invert false))) := by
  show execTsyncOutEdge k s = _
  simp only [execTsyncOutEdge, only, hk, decide_true, if_true, hp, h]

theorem exec_tsyncOutEdge_pulse {k p e : Nat} {s : State} (hk : k < 2) (hp : (s.tsoOf k).pulse = none)
    (hevery : s.tsoEvery k = some p) (hedge : s.tsoEdge k p (s.tiNs (s.act (F.TE_TSO_CFG_TI k)) + 1) = some e)
    (hlast : ∀ l, (s.tsoOf k).last = some l → l < e) :
    exec (.tsyncOutEdge k) s =
      .next ((s.setTso k (s.tsoPulse k e)).emit (.tsync k (State.tsoLevel (s.tsoInvert k) true))) := by
  have later : (s.tsoOf k).last.all (fun l => decide (l < e)) = true := by
    cases h : (s.tsoOf k).last with
    | none => rfl
    | some l => exact decide_eq_true (hlast l h)
  show execTsyncOutEdge k s = _
  simp only [execTsyncOutEdge, only, hk, decide_true, if_true, hp, hevery, Option.bind_some, hedge, later, tsoPulse]

/-- Settles O16: a capture, a pulse and a pair, by the branch that each clause's hypotheses select. -/
theorem timePins : Obligations.TimePins := by
  unfold Obligations.TimePins
  refine ⟨?capture, ?lost, ?pulseEnd, ?single, ?periodic, ?pair, ?go⟩
  case capture =>
    intro k rising s hk hedge hroom
    rw [exec_tsyncInEdge hk hedge]
    exact ⟨_, rfl, tsiCapture_of_room rising hroom⟩
  case lost =>
    intro k rising s hk hu hedge hfull
    rw [exec_tsyncInEdge hk hedge, tsiCapture_of_full rising hfull]
    exact ⟨_, rfl, by simp, evSet_raiseTePin _ _ _ _ hu, by simp [raiseTePin]⟩
  case pulseEnd =>
    intro k u s hk hp hend
    rw [exec_tsyncOutEdge_end hk hp hend]
    exact ⟨_, rfl, by rw [tsoOf_emit, tsoOf_setTso_same], rfl⟩
  case single =>
    intro k s hk hlast hp hmode hstart
    have edge := tsoEdge_succ (n := 0) (edgesBefore_single hstart)
    rw [exec_tsyncOutEdge_pulse hk hp (by simp [tsoEvery, hmode]) edge (by simp [hlast])]
    exact ⟨_, rfl, by rw [tsoOf_emit, tsoOf_setTso_same]; simp [tsoPulse], rfl⟩
  case periodic =>
    intro k n s hk hp hmode hge hlt hlast
    have edge := tsoEdge_succ (edgesBefore_latest hge hlt)
    rw [exec_tsyncOutEdge_pulse hk hp (by simp [tsoEvery, hmode]) edge hlast]
    exact ⟨_, rfl, by rw [tsoOf_emit, tsoOf_setTso_same]; rfl, rfl⟩
  case pair =>
    intro s hu
    show ∃ t, execFbtcPair s = _ ∧ _
    rw [execFbtcPair, if_pos hu]
    refine ⟨_, rfl, rfl, List.length_take_le _ _, ?_⟩
    exact (moves_takePair (List.Subset.refl _) (moves_refl s)).1
  case go =>
    intro a data s hr hgo
    show ∃ t, execPairGo a data s = _ ∧ _
    rw [execPairGo, byAgent_reaches s a _ hr, if_pos hgo]
    exact ⟨_, rfl, rfl, rfl⟩

end Sys2Proof.Machine
end

section
/-!
PROOFS. One bit of a mask, set or cleared: the other bits stay.
-/

namespace Sys2Proof.Machine

theorem sub_two_pow_testBit_ne {m i j : Nat} (h : m.testBit i = true) (hij : j ≠ i) :
    (m - 2 ^ i).testBit j = m.testBit j := by
  induction i generalizing m j with
  | zero =>
    obtain ⟨k, rfl⟩ := Nat.exists_eq_succ_of_ne_zero hij
    rw [Nat.testBit_succ, Nat.testBit_succ]
    have h1 : m % 2 = 1 := by simpa [Nat.testBit_zero] using h
    rw [show (m - 2 ^ 0) / 2 = m / 2 by omega]
  | succ i ih =>
    rw [Nat.testBit_succ] at h
    have h2 : 2 ^ i ≤ m / 2 := Nat.ge_two_pow_of_testBit h
    cases j with
    | zero =>
      rw [Nat.testBit_zero, Nat.testBit_zero, Nat.pow_succ, show (m - 2 ^ i * 2) % 2 = m % 2 by omega]
    | succ j =>
      rw [Nat.testBit_succ, Nat.testBit_succ, Nat.pow_succ, show (m - 2 ^ i * 2) / 2 = m / 2 - 2 ^ i by omega]
      exact ih h (by omega)

theorem clrBit_testBit_ne (m : Nat) {i j : Nat} (h : j ≠ i) : (clrBit m i).testBit j = m.testBit j := by
  unfold clrBit
  split
  · next hi => exact sub_two_pow_testBit_ne hi h
  · rfl

theorem setBit_testBit_ne (m : Nat) {i j : Nat} (h : j ≠ i) : (setBit m i).testBit j = m.testBit j := by
  unfold setBit
  rw [show Nat.lor m (2 ^ i) = m ||| 2 ^ i from rfl, Nat.testBit_or, Nat.testBit_two_pow]
  simp [Ne.symm h]

theorem clrBit_le (m i : Nat) : clrBit m i ≤ m := by
  unfold clrBit
  split
  · exact Nat.sub_le _ _
  · exact Nat.le_refl _

/-- A bit that the field's width leaves out of a stored value. -/
theorem testBit_mod_of_lt (m : Nat) {w j : Nat} (h : j < w) : (m % 2 ^ w).testBit j = m.testBit j := by
  rw [Nat.testBit_mod_two_pow]; simp [h]

namespace State

/-- Stated through the part of the state that it reads, so that a chain of updates is rewritten and not compared by computation. -/
theorem socUp_setRg (s : State) (f : Fld) (v : Nat) : (s.setRg f v).socUp = s.socUp := socUp_congr rfl

theorem socUp_bump (s : State) (f : Fld) (n : Nat) : (s.bump f n).socUp = s.socUp := socUp_congr rfl

theorem px_setRg (s : State) (f : Fld) (v : Nat) : (s.setRg f v).px = s.px :=
  (moves_setRg (ps := [.regs]) (List.Subset.refl _) (moves_refl s)).1 .px (by decide)

theorem px_bump (s : State) (f : Fld) (n : Nat) : (s.bump f n).px = s.px := px_setRg s f _

@[simp] theorem only_true (s t : State) : s.only true t = t := rfl

@[simp] theorem only_false (s t : State) : s.only false t = s := rfl

/-- What a step of a fold changes only where its item is `k`, the fold changes at most there. -/
theorem forEach_ite {α β : Type} [DecidableEq α] (g : State → β) (f : State → α → State) (k : α) (v : β) (l : List α)
    (h : ∀ u, ∀ x ∈ l, g (f u x) = if x = k then v else g u) (s : State) :
    g (s.forEach l f) = if k ∈ l then v else g s := by
  induction l generalizing s with
  | nil => rfl
  | cons a l ih =>
    refine (ih (fun u x hx => h u x (List.mem_cons_of_mem _ hx)) (f s a)).trans ?_
    simp only [h s a List.mem_cons_self, List.mem_cons]
    by_cases hk : k ∈ l
    · simp [hk]
    · by_cases ha : a = k
      · simp [ha]
      · simp [hk, ha, Ne.symm ha]

end State

end Sys2Proof.Machine
end

section
/-!
PROOFS. The pauses of a port (R141 to R143): one target's pause leaves the other targets' pauses.
-/

namespace Sys2Proof.Machine

namespace State

theorem isPaused_setPaused_ne (s : State) (p : Nat) (on : Bool) {t j : Nat} (hj : j < 9) (h : j ≠ t) :
    (s.setPaused p t on).isPaused p j = s.isPaused p j := by
  unfold setPaused isPaused
  by_cases ht : t = 8
  · simp [ht, show j ≠ 8 by omega]
  · by_cases h8 : j = 8
    · simp [ht, h8]
    · have hj8 : j < 8 := by omega
      rw [if_neg ht, if_neg h8, if_neg h8, rg_setRg_self _ _ _ (by decide : 16 + 8 ≤ 32), testBit_mod_of_lt _ hj8]
      cases on
      · exact clrBit_testBit_ne _ h
      · exact setBit_testBit_ne _ h

theorem isPaused_endPause (s : State) (p : Nat) {t j : Nat} (ht : t < 9) (hj : j < 9) :
    (s.endPause p t).isPaused p j = if t = j then false else s.isPaused p j := by
  show (s.setPaused p t false).isPaused p j = _
  by_cases h : t = j
  · rw [if_pos h, ← h, isPaused_setPaused s p t false ht]
  · rw [if_neg h, isPaused_setPaused_ne s p false hj (Ne.symm h)]

theorem isPaused_startPause (s : State) (p q : Nat) {t j : Nat} (ht : t < 9) (hj : j < 9) :
    (s.startPause p t q).isPaused p j = if t = j then decide (q ≠ 0) else s.isPaused p j := by
  unfold startPause
  by_cases hq : q = 0
  · rw [if_pos hq, isPaused_endPause s p ht hj, hq]; rfl
  · rw [if_neg hq]
    show (s.setPaused p t true).isPaused p j = _
    by_cases h : t = j
    · rw [if_pos h, ← h, isPaused_setPaused s p t true ht, decide_eq_true hq]
    · rw [if_neg h, isPaused_setPaused_ne s p true hj (Ne.symm h)]

theorem pauseEndOf_endPause (s : State) (p t : Nat) : (s.endPause p t).pauseEndOf p t = 0 := by
  simp [pauseEndOf, endPause]

theorem pauseEndOf_startPause (s : State) (p t : Nat) {q : Nat} (hq : q ≠ 0) :
    (s.startPause p t q).pauseEndOf p t = s.now + (q * 512 * bitPs (s.portRate p) + 999) / 1000 := by
  unfold startPause
  rw [if_neg hq]
  exact Sparse.get_set_same _ _ _ _

theorem isPaused_endPauses (s : State) (p : Nat) {j : Nat} (hj : j < 9) : (s.endPauses p).isPaused p j = false := by
  have key := forEach_ite (fun u : State => u.isPaused p j) (fun t k => t.endPause p k) j false (List.range 9)
    (fun u x hx => isPaused_endPause u p (List.mem_range.mp hx) hj) s
  rwa [if_pos (List.mem_range.mpr hj)] at key

theorem socUp_endPauses (s : State) (p : Nat) : (s.endPauses p).socUp = s.socUp :=
  forEach_keeps State.socUp (fun t k => t.endPause p k)
    (fun u k => by simp only [endPause, setPaused]; split <;> rfl) (List.range 9) s

theorem rg_startPause (s : State) (p t q : Nat) (f : Fld) (hf : f.ok = true)
    (h1 : (F.PX_PORT_STAT_PAUSED p).apart f = true) (h2 : (F.PX_PORT_STAT_PFC_PAUSED p).apart f = true) :
    (s.startPause p t q).rg f = s.rg f := by
  unfold startPause
  split
  · exact rg_endPause s p t f hf h1 h2
  · exact rg_setPaused s p t true f hf h1 h2

/-- The pauses of a port show in the two fields `PAUSED` and `PFC_PAUSED` of its status register alone. -/
theorem isPaused_congr {s t : State} {p : Nat} (h1 : t.rg (F.PX_PORT_STAT_PAUSED p) = s.rg (F.PX_PORT_STAT_PAUSED p))
    (h2 : t.rg (F.PX_PORT_STAT_PFC_PAUSED p) = s.rg (F.PX_PORT_STAT_PFC_PAUSED p)) (j : Nat) :
    t.isPaused p j = s.isPaused p j := by
  unfold isPaused
  rw [h1, h2]

/-- A priority's pause does not touch the port's PAUSE. -/
theorem rg_paused_startPause (s : State) (p q : Nat) {t : Nat} (ht : t ≠ 8) :
    (s.startPause p t q).rg (F.PX_PORT_STAT_PAUSED p) = s.rg (F.PX_PORT_STAT_PAUSED p) := by
  have key : ∀ on, (s.setPaused p t on).rg (F.PX_PORT_STAT_PAUSED p) = s.rg (F.PX_PORT_STAT_PAUSED p) := by
    intro on
    simp [setPaused, ht]
  unfold startPause
  split
  · exact key false
  · exact key true

end State

open State

theorem mem_pfcTargets (s : State) (port en k : Nat) (hk : k < 8) :
    k ∈ (maskList en 8).filter (s.fcActs port) ↔ en.testBit k = true ∧ s.fcActs port k = true := by
  rw [List.mem_filter, mem_maskList]
  simp [hk]

theorem lt_of_mem_pfcTargets {s : State} {port en k : Nat} (h : k ∈ (maskList en 8).filter (s.fcActs port)) : k < 8 :=
  ((mem_maskList en 8 k).mp (List.mem_of_mem_filter h)).1

/-- The trip of the watchdog, once the pauses have ended. -/
theorem evSet_holdoffTrip (u : State) (port : Nat) (hu : u.socUp = true) :
    (((u.bump (F.PX_PAUSE_WD_TRIPS_COUNT port)).setRg (F.PX_PORT_STAT_HOLDOFF port) 1).portEvent 1 port).evSet 33 = true :=
  evSet_portEvent _ 1 port hu

/-- Settles O39: PAUSE and PFC stop their targets, and every end of a pause is alone. -/
theorem pauseCommands : Obligations.PauseCommands := by
  unfold Obligations.PauseCommands
  refine ⟨?pause, ?holdoff, ?otherPause, ?otherPfc, ?pfc, ?expiry, ?watchdog, ?holdoffEnd⟩
  case pause =>
    intro port q s hp hu hh ha hq
    show ∃ t, execPauseReceived port pauseMac 1 q s = _ ∧ _
    rw [execPauseReceived, if_pos ⟨hp, hu, rfl, rfl⟩, if_neg hh, if_pos ha]
    refine ⟨_, rfl, ?_, pauseEndOf_startPause s port 8 (by omega)⟩
    have h8 := isPaused_startPause s port q (t := 8) (j := 8) (by decide) (by decide)
    rw [if_pos rfl, decide_eq_true (by omega)] at h8
    exact of_decide_eq_true h8
  case holdoff =>
    intro port q s hp hu hh
    show execPauseReceived port pauseMac 1 q s = _
    rw [execPauseReceived, if_pos ⟨hp, hu, rfl, rfl⟩, if_pos hh]
  case otherPause =>
    intro port dmac opcode q s h
    show execPauseReceived port dmac opcode q s = _
    rw [execPauseReceived, if_neg]
    rintro ⟨-, -, hd, ho⟩
    exact h.elim (fun h => h hd) (fun h => h ho)
  case otherPfc =>
    intro port opcode en qs s h
    show execPfcReceived port opcode en qs s = _
    rw [execPfcReceived, if_neg]
    rintro ⟨-, -, ho⟩
    exact h ho
  case pfc =>
    intro port en k qs s hp hu hk hh
    show ∃ t, execPfcReceived port 0x0101 en qs s = _ ∧ _
    rw [execPfcReceived, if_pos ⟨hp, hu, rfl⟩, if_neg hh]
    refine ⟨_, rfl, ?_, ?_⟩
    · have key := forEach_ite (fun u : State => u.isPaused port k)
        (fun t j => t.startPause port j (qs.getD j 0)) k (decide (qs.getD k 0 ≠ 0))
        ((maskList en 8).filter (s.fcActs port))
        (fun u x hx => by
          have hx8 := lt_of_mem_pfcTargets hx
          rw [isPaused_startPause u port _ (by omega) (by omega)]
          split
          · next h => rw [h]
          · rfl) s
      rw [key]
      exact if_congr (mem_pfcTargets s port en k hk) rfl rfl
    · have key := forEach_ite (fun u : State => u.rg (F.PX_PORT_STAT_PAUSED port))
        (fun t j => t.startPause port j (qs.getD j 0)) 8 0 ((maskList en 8).filter (s.fcActs port))
        (fun u x hx => by
          have hx8 : x ≠ 8 := Nat.ne_of_lt (lt_of_mem_pfcTargets hx)
          rw [if_neg hx8, rg_paused_startPause u port _ hx8]) s
      rwa [if_neg (fun h => absurd (lt_of_mem_pfcTargets h) (by decide))] at key
  case expiry =>
    intro port k s hp hk
    show ∃ t, execPauseExpiry port k s = _ ∧ _
    rw [execPauseExpiry, decide_eq_true ⟨hp, hk⟩]
    refine ⟨_, rfl, ?_, pauseEndOf_endPause s port k, fun j hj hjk => ?_⟩
    · exact (isPaused_endPause s port hk hk).trans (if_pos rfl)
    · exact (isPaused_endPause s port hk hj).trans (if_neg (Ne.symm hjk))
  case watchdog =>
    intro port k s hp hk hu hpa
    show ∃ t, execPauseWdTrip port k s = _ ∧ _
    rw [execPauseWdTrip, decide_eq_true hk, if_pos ⟨hp, hpa⟩, only_true]
    have hu' : (s.endPauses port).socUp = true := (socUp_endPauses s port).trans hu
    have hc : (s.endPauses port).rg (F.PX_PAUSE_WD_TRIPS_COUNT port) = s.rg (F.PX_PAUSE_WD_TRIPS_COUNT port) :=
      rg_endPauses s port _ rfl (by simp [Fld.apart]) (by simp [Fld.apart])
    have hz := fun j hj => isPaused_endPauses s port (j := j) hj
    refine ⟨_, rfl, fun j hj => ?_, ?_, ?_, ?_⟩
    · rw [← hz j hj]
      refine isPaused_congr ?_ ?_ j <;> simp [rg_portEvent]
    · simp [rg_portEvent]
    · exact evSet_holdoffTrip _ port hu'
    · simp [rg_portEvent, hc]
  case holdoffEnd =>
    intro port s hp
    show ∃ t, execPauseHoldoffEnd port s = _ ∧ _
    rw [execPauseHoldoffEnd, if_pos hp]
    refine ⟨_, rfl, by simp, fun j hj => ?_⟩
    rw [← isPaused_endPauses s port hj]
    refine isPaused_congr ?_ ?_ j <;> simp

end Sys2Proof.Machine
end

section
/-!
PROOFS. The registers that an operation may write, and the events that it takes back (none): `RegsWithin W s t` holds where no
register outside W and the event status words differs, every latched event stays latched (R42), and of the cluster's own
state only the host rings move. One lemma for each basic update, and then for the operations that end copies and frames.
-/

namespace Sys2Proof.Machine

/-- The cluster's own state without the host rings. -/
def CxState.core (c : CxState) : CxState := { c with rings := [] }

/-- Between two states no register differs but those of W and the event status words, no event is taken back, and the
cluster's own state differs in the host rings alone. -/
structure RegsWithin (W : Nat → Prop) (s t : State) : Prop where
  rd : ∀ off, ¬ W off → (off < 0x2000 ∨ 0x2020 ≤ off) → t.rd off = s.rd off
  events : ∀ n < 256, s.evSet n = true → t.evSet n = true
  cluster : t.cx.core = s.cx.core

namespace RegsWithin

variable {W : Nat → Prop} {s0 s t : State}

theorem refl (s : State) : RegsWithin W s s := ⟨fun _ _ _ => rfl, fun _ _ h => h, rfl⟩

theorem trans {u : State} (h : RegsWithin W s t) (k : RegsWithin W t u) : RegsWithin W s u :=
  ⟨fun off hw he => (k.rd off hw he).trans (h.rd off hw he), fun n hn he => k.events n hn (h.events n hn he),
    k.cluster.trans h.cluster⟩

theorem mono {V : Nat → Prop} (hv : ∀ off, W off → V off) (h : RegsWithin W s t) : RegsWithin V s t :=
  ⟨fun off hw he => h.rd off (fun k => hw (hv off k)) he, h.events, h.cluster⟩

theorem rg (h : RegsWithin W s t) (f : Fld) (hw : ¬ W f.off) (he : f.off < 0x2000 ∨ 0x2020 ≤ f.off) : t.rg f = s.rg f := by
  rw [State.rg_eq, State.rg_eq, h.rd f.off hw he]

theorem released (h : RegsWithin W s t) : t.cx.released = s.cx.released := by
  simpa [CxState.core] using congrArg CxState.released h.cluster

/-- An update of other parts of the state. -/
theorem of_regs (h : RegsWithin W s0 s) (e : t.regs = s.regs)
    (c : t.cx.core = s.cx.core) : RegsWithin W s0 t :=
  h.trans ⟨fun off _ _ => State.rd_congr e off, fun n _ k => (State.evSet_congr e n).trans k, c⟩

theorem of_moves {ps : List Part} (h : RegsWithin W s0 s) (m : moves ps s t) (hp : Part.regs ∉ ps ∧ Part.cx ∉ ps) :
    RegsWithin W s0 t :=
  h.of_regs (m.1 .regs hp.1) (by rw [m.1 .cx hp.2])

theorem wr {off : Nat} (w : Word) (hw : W off) (he : off < 0x2000 ∨ 0x2020 ≤ off) (h : RegsWithin W s0 s) :
    RegsWithin W s0 (s.wr off w) := by
  refine h.trans ⟨fun o ho _ => State.rd_wr_ne s off o w fun e => ho (e ▸ hw), fun n hn k => ?_, rfl⟩
  have hne : (F.SV_EV_STATUS_EV (n / 32)).off ≠ off := by dsimp only; omega
  rwa [State.evSet, State.rg_wr_ne s off w _ hne]

theorem setRg {f : Fld} {v : Nat} (hw : W f.off) (he : f.off < 0x2000 ∨ 0x2020 ≤ f.off) (h : RegsWithin W s0 s) :
    RegsWithin W s0 (s.setRg f v) :=
  h.trans ⟨fun o ho _ => State.rd_setRg_ne s f v o fun e => ho (e ▸ hw),
    fun n hn k => (State.evSet_setRg s f v n (by omega)).trans k, rfl⟩

theorem bump {f : Fld} {n : Nat} (hw : W f.off) (he : f.off < 0x2000 ∨ 0x2020 ≤ f.off) (h : RegsWithin W s0 s) :
    RegsWithin W s0 (s.bump f n) :=
  h.setRg hw he

theorem wr64 {off v : Nat} (hw : W off) (hw' : W (off + 4)) (he : off + 4 < 0x2000 ∨ 0x2020 ≤ off)
    (h : RegsWithin W s0 s) : RegsWithin W s0 (s.wr64 off v) :=
  (h.wr _ hw (by omega)).wr _ hw' (by omega)

theorem bump64 {off n : Nat} (hw : W off) (hw' : W (off + 4)) (he : off + 4 < 0x2000 ∨ 0x2020 ≤ off)
    (h : RegsWithin W s0 s) : RegsWithin W s0 (s.bump64 off n) :=
  h.wr64 hw hw' he

theorem raise {n : Nat} {i : Option Agent} (hn : n < 256) (h : RegsWithin W s0 s) : RegsWithin W s0 (s.raise n i) :=
  h.trans ⟨fun off _ he => State.rd_raise s n i off (by omega), fun m _ k => State.evSet_raise_mono s n m i k, by
    rw [State.raise_cx]⟩

theorem ite {c : Prop} {_ : Decidable c} (h : RegsWithin W s0 s) (k : RegsWithin W s0 t) :
    RegsWithin W s0 (if c then s else t) := by
  split <;> assumption

theorem forEach {α : Type} {f : State → α → State} (hf : ∀ u x, RegsWithin W s0 u → RegsWithin W s0 (f u x)) (l : List α)
    (h : RegsWithin W s0 s) : RegsWithin W s0 (s.forEach l f) := by
  induction l generalizing s with
  | nil => exact h
  | cons a l ih => exact ih (hf _ a h)

end RegsWithin

/-! ### The records of Peg and Line, the slots, the host rings: registers from block CX on -/

/-- The registers of the blocks from CX on, without the counts of the frames read from the two ports' TX rings. -/
abbrev upperRegs (off : Nat) : Prop := 0x8000000 ≤ off ∧ off ≠ 0x810020C ∧ off ≠ 0x811020C

/-- The pending bits of the rings of host port p. -/
abbrev pendRegs (p off : Nat) : Prop := 0x8100100 + 0x10000 * p ≤ off ∧ off < 0x8100110 + 0x10000 * p

/-- The registers of block OB. -/
abbrev obRegs (off : Nat) : Prop := 0xB000000 ≤ off

theorem obRegs.upper {W : Nat → Prop} (hW : ∀ off, upperRegs off → W off) (off : Nat) (h : obRegs off) : W off :=
  hW off (by simp only [upperRegs, obRegs] at *; omega)

theorem pendRegs.upper {W : Nat → Prop} (hW : ∀ off, upperRegs off → W off) {p : Nat} (off : Nat) (h : pendRegs p off) : W off :=
  hW off (by simp only [upperRegs, pendRegs] at *; omega)

namespace State

variable {W : Nat → Prop} {s0 s : State}

theorem regsWithin_ringPush {r : Nat} {bs : List Byte} (hW : ∀ off, obRegs off → W off) (h : RegsWithin W s0 s) :
    RegsWithin W s0 (s.ringPush r bs) := by
  unfold ringPush ringLost
  dsimp only
  have pushed (x : Ring) : RegsWithin W s0 (s.setRing r x) := h.of_regs rfl rfl
  have lost (x : Ring) : RegsWithin W s0 ((s.setRing r x).bump (F.OB_RING_LOST_LOST r)) :=
    (pushed x).bump (hW _ (by simp; omega)) (.inr (by simp; omega))
  split
  · split
    · exact (lost _).raise (by split <;> decide)
    · exact lost _
  · exact pushed _

theorem regsWithin_pegDone {f : Frame} {c : Option Copy} {mac : Option Nat} {x y z : Bool} {n : Nat}
    (hW : ∀ off, obRegs off → W off) (h : RegsWithin W s0 s) : RegsWithin W s0 (s.pegDone f c mac x y z n) :=
  (regsWithin_ringPush hW h).ite h

theorem regsWithin_lineEnd {f : Frame} (hW : ∀ off, obRegs off → W off) (h : RegsWithin W s0 s) :
    RegsWithin W s0 (s.lineEnd f) :=
  h.forEach (fun _ _ k => regsWithin_ringPush hW k) _

theorem regsWithin_settleSlots {f : Frame} (hW : ∀ off, obRegs off → W off) (h : RegsWithin W s0 s) :
    RegsWithin W s0 (s.settleSlots f) := by
  unfold settleSlots
  have pend : RegsWithin W s0 (s.setRg F.OB_SLOT_PEND_SLOTS (s.rg F.OB_SLOT_PEND_SLOTS - f.slots)) :=
    h.setRg (hW _ (by decide)) (.inr (by decide))
  split
  · exact h
  · dsimp only
    split
    · exact pend.bump64 (hW _ (by decide)) (hW _ (by decide)) (.inr (by decide))
    · exact pend.bump64 (hW _ (by decide)) (hW _ (by decide)) (.inr (by decide))

theorem regsWithin_hpRaise {p r : Nat} {tx : Bool} (hr : r < 64) (hW : ∀ off, pendRegs p off → W off) (h : RegsWithin W s0 s) :
    RegsWithin W s0 (s.hpRaise p tx r) := by
  have h' (x : HpRing) : RegsWithin W s0 (s.setHp (ringKey p tx r) x) := h.of_regs rfl rfl
  unfold hpRaise
  dsimp only
  cases tx
  · exact RegsWithin.raise (by decide) ((h' _).setRg (hW _ (by simp; omega)) (.inr (by simp; omega)))
  · exact RegsWithin.raise (by decide) ((h' _).setRg (hW _ (by simp; omega)) (.inr (by simp; omega)))

theorem regsWithin_hpComplete {p r : Nat} {tx : Bool} (hr : r < 64) (hW : ∀ off, pendRegs p off → W off) (h : RegsWithin W s0 s) :
    RegsWithin W s0 (s.hpComplete p tx r) :=
  RegsWithin.ite (regsWithin_hpRaise hr hW (h.of_regs rfl rfl)) (h.of_regs rfl rfl)

theorem dramWr_moves (s : State) (a : Nat) (bs : List Byte) : moves [.mx] s (s.dramWr a bs) :=
  moves_dramWr (List.Subset.refl _) (moves_refl s)

theorem regsWithin_txDescDone {p r : Nat} {j : TxJob} (hW : ∀ off, upperRegs off → W off) (h : RegsWithin W s0 s) :
    RegsWithin W s0 (s.txDescDone p r j) := by
  unfold txDescDone
  dsimp only
  refine RegsWithin.bump64 (hW _ ?_) (hW _ ?_) (.inr ?_) (RegsWithin.forEach (fun u i k => k.of_moves (dramWr_moves _ _ _) (by decide)) _ ?_)
  · decide
  · decide
  · decide
  · split
    · exact h.of_moves (dramWr_moves _ _ _) (by decide)
    · exact h

theorem regsWithin_txFlush {p r : Nat} (hr : r < 64) (hW : ∀ off, upperRegs off → W off) (n : Nat) (h : RegsWithin W s0 s) :
    RegsWithin W s0 (s.txFlush p r n) := by
  induction n generalizing s with
  | zero => exact h
  | succ n ih =>
    unfold txFlush
    dsimp only
    split
    · split
      · refine ih (regsWithin_hpComplete hr (pendRegs.upper hW) (RegsWithin.setRg (hW _ ?_) (.inr ?_) (regsWithin_txDescDone hW (h.of_regs rfl rfl))))
        · simp; omega
        · simp; omega
      · exact h
    · exact h

theorem regsWithin_txEnded {f : Frame} {id : Nat} (hW : ∀ off, upperRegs off → W off) (h : RegsWithin W s0 s) :
    RegsWithin W s0 (s.txEnded f id) := by
  unfold txEnded
  split
  · exact h
  · exact regsWithin_txFlush (Nat.mod_lt _ (by decide)) hW _ (h.of_regs rfl rfl)

/-! ### The end of a copy and of a frame -/

theorem regsWithin_freeFrame {id : Nat} (hW : ∀ off, upperRegs off → W off) (h : RegsWithin W s0 s) :
    RegsWithin W s0 (s.freeFrame id) := by
  unfold freeFrame
  split
  · exact h
  · exact (regsWithin_txEnded hW (regsWithin_settleSlots (obRegs.upper hW) h)).of_regs rfl rfl

theorem regsWithin_kidGone {id : Nat} {left : Bool} (hW : ∀ off, upperRegs off → W off) (h : RegsWithin W s0 s) :
    RegsWithin W s0 (s.kidGone id left) := by
  unfold kidGone
  split
  · exact h
  · dsimp only
    refine RegsWithin.ite (regsWithin_freeFrame hW ?_) ?_ <;> exact h.of_regs rfl rfl

theorem regsWithin_endFrame {id : Nat} (hW : ∀ off, upperRegs off → W off) (h : RegsWithin W s0 s) :
    RegsWithin W s0 (s.endFrame id) := by
  unfold endFrame
  split
  · exact h
  · split
    · exact regsWithin_kidGone hW (regsWithin_freeFrame hW h)
    · exact regsWithin_freeFrame hW h

theorem regsWithin_retireSlots {id : Nat} (hW : ∀ off, upperRegs off → W off) (h : RegsWithin W s0 s) :
    RegsWithin W s0 (s.retireSlots id) := by
  unfold retireSlots
  dsimp only
  split
  · exact h
  · exact (regsWithin_settleSlots (obRegs.upper hW) h).of_regs rfl rfl

theorem regsWithin_readerGone {id : Nat} (hW : ∀ off, upperRegs off → W off) (h : RegsWithin W s0 s) :
    RegsWithin W s0 (s.readerGone id) := by
  unfold readerGone
  split
  · exact h
  · dsimp only
    split
    · refine RegsWithin.ite (regsWithin_endFrame hW ?_) ?_ <;> exact h.of_regs rfl rfl
    · exact h.of_regs rfl rfl

theorem regsWithin_copyGone {id : Nat} {left : Bool} (hW : ∀ off, upperRegs off → W off) (h : RegsWithin W s0 s) :
    RegsWithin W s0 (s.copyGone id left) :=
  regsWithin_readerGone hW ((regsWithin_retireSlots hW h).ite h)

theorem regsWithin_dropCopy {c : Copy} {n : Nat} (hW : ∀ off, upperRegs off → W off) (h : RegsWithin W s0 s) :
    RegsWithin W s0 (s.dropCopy c n) := by
  unfold dropCopy
  split
  · exact h
  · exact regsWithin_copyGone hW (regsWithin_pegDone (obRegs.upper hW) h)

theorem regsWithin_lineCapture {id : Nat} {f : Frame} (hW : ∀ off, upperRegs off → W off) (h : RegsWithin W s0 s) :
    RegsWithin W s0 (s.lineCapture id f) := by
  have hits : RegsWithin W s0 (s.lineHits f).1 := 
    h.of_moves (moves_lineHits (ps := [.freeN, .ob]) (List.Subset.refl _) (moves_refl s)) (by decide)
  unfold lineCapture
  exact (regsWithin_lineEnd (obRegs.upper hW) hits).ite (hits.of_moves (moves_modFrame (ps := [.sx]) (List.Subset.refl _) (moves_refl _)) (by decide))

theorem regsWithin_discardFrame {id : Nat} (hW : ∀ off, upperRegs off → W off) (h : RegsWithin W s0 s) :
    RegsWithin W s0 (s.discardFrame id) := by
  unfold discardFrame
  split
  · exact h
  · exact regsWithin_endFrame hW (h.ite (regsWithin_lineCapture hW h))

theorem regsWithin_dropFrame {id n : Nat} (hW : ∀ off, upperRegs off → W off) (h : RegsWithin W s0 s) :
    RegsWithin W s0 (s.dropFrame id n) := by
  unfold dropFrame
  split
  · exact h
  · exact regsWithin_discardFrame hW (regsWithin_pegDone (obRegs.upper hW) h)

theorem regsWithin_rxBad {id why : Nat} {line : Bool} (hW : ∀ off, upperRegs off → W off) (h : RegsWithin W s0 s) :
    RegsWithin W s0 (s.rxBad id why line) := by
  have h' : RegsWithin W s0 { s with fx.learn := s.fx.learn.filter (fun r => r.frame != id) } := h.of_regs rfl rfl
  unfold rxBad
  dsimp only
  split
  · exact h'
  · split
    · exact (regsWithin_settleSlots (obRegs.upper hW) (regsWithin_lineEnd (obRegs.upper hW) h')).of_regs rfl rfl
    · split
      · exact (regsWithin_settleSlots (obRegs.upper hW) ((regsWithin_lineCapture hW h').ite h')).of_regs rfl rfl
      · exact (regsWithin_lineEnd (obRegs.upper hW) h').of_regs rfl rfl

theorem regsWithin_cleanMq {p m : Nat} (hW : ∀ off, upperRegs off → W off) (hv : W F.SX_DROP_VERDICT_COUNT.off)
    (h : RegsWithin W s0 s) : RegsWithin W s0 (s.cleanMq p m) := by
  unfold cleanMq
  split
  · exact h
  · refine (regsWithin_dropCopy hW (RegsWithin.bump hv (.inr (by decide)) ?_)).ite h
    exact h.of_regs rfl rfl

theorem regsWithin_cleanHeads (hW : ∀ off, upperRegs off → W off) (hv : W F.SX_DROP_VERDICT_COUNT.off)
    (h : RegsWithin W s0 s) : RegsWithin W s0 s.cleanHeads :=
  h.forEach (fun _ _ k => regsWithin_cleanMq hW hv (regsWithin_cleanMq hW hv k)) _

end State

end Sys2Proof.Machine
end

section
/-!
PROOFS. The registers that a port's ups and downs may write, and those that the end of a drain may: RegsWithin for flushing,
cutting and remapping, and what the fields of the port's own status register hold after it.
-/

namespace Sys2Proof.Machine

/-- The registers of the blocks from SX on. -/
abbrev afterPorts (off : Nat) : Prop := 0x2000000 ≤ off

theorem afterPorts_of_upper {off : Nat} (h : upperRegs off) : afterPorts off := by
  simp only [upperRegs, afterPorts] at *; omega

namespace State

variable {W : Nat → Prop} {s0 s : State}

theorem rxIdle_regs (s : State) (p : Nat) : (s.rxIdle p).regs = s.regs := rfl

theorem rxIdle_core (s : State) (p : Nat) : (s.rxIdle p).cx.core = s.cx.core := rfl

theorem setTx_regs (s : State) (p : Nat) (x : Option TxNow) : (s.setTx p x).regs = s.regs := rfl

section
variable (hW : ∀ off, afterPorts off → W off)
include hW

theorem regsWithin_dropCopy' {c : Copy} {n : Nat} (h : RegsWithin W s0 s) : RegsWithin W s0 (s.dropCopy c n) :=
  regsWithin_dropCopy (fun off h => hW off (afterPorts_of_upper h)) h

theorem regsWithin_dropCopies {l : List Copy} {n : Nat} {count : State → Copy → State}
    (hc : ∀ u c, RegsWithin W s0 u → RegsWithin W s0 (count u c)) (h : RegsWithin W s0 s) :
    RegsWithin W s0 (s.dropCopies l n count) :=
  h.forEach (fun u c k => regsWithin_dropCopy' hW (hc u c k)) l

theorem regsWithin_flushed {p : Nat} (h : RegsWithin W s0 s) : RegsWithin W s0 (s.bump (F.SX_FLUSHED_COUNT p)) :=
  h.bump (hW _ (by simp; omega)) (.inr (by simp; omega))

theorem regsWithin_detachCopy {c : Copy} (h : RegsWithin W s0 s) : RegsWithin W s0 (s.detachCopy c) := by
  unfold detachCopy
  split
  · exact h
  · dsimp only
    split
    · exact regsWithin_kidGone (fun off h => hW off (afterPorts_of_upper h)) (h.of_regs rfl rfl)
    · exact h.of_regs rfl rfl

theorem regsWithin_releasePages {p : Nat} {l : List HPage} (h : RegsWithin W s0 s) :
    RegsWithin W s0 (s.releasePages p false l) := by
  have staged (l : List HPage) : RegsWithin W s0 (s.forEach l (fun t x => t.dropPage p false x)) :=
    h.forEach (fun _ _ k => regsWithin_dropCopies hW (fun _ _ k => regsWithin_flushed hW k) k) _
  unfold releasePages
  dsimp only
  split
  · exact (staged _).of_regs rfl rfl
  · exact RegsWithin.of_regs (RegsWithin.forEach (fun _ _ k => regsWithin_detachCopy hW k) _ (staged _)) rfl rfl

theorem regsWithin_flushQueue {q : Nat} (h : RegsWithin W s0 s) : RegsWithin W s0 (s.flushQueue q) :=
  regsWithin_releasePages hW
    (regsWithin_dropCopies hW (fun _ _ k => regsWithin_flushed hW k) (h.of_regs rfl rfl))

theorem regsWithin_flushMqs {p : Nat} (h : RegsWithin W s0 s) : RegsWithin W s0 (s.flushMqs p) :=
  RegsWithin.forEach (f := fun t m => (t.setMq p m []).dropCopies (t.mqOf p m) 8 (fun t _ => t.bump (F.SX_FLUSHED_COUNT p)))
    (fun _ _ k => regsWithin_dropCopies hW (fun _ _ k => regsWithin_flushed hW k) (k.of_regs rfl rfl)) _ h

theorem regsWithin_flushPort {p : Nat} (h : RegsWithin W s0 s) : RegsWithin W s0 (s.flushPort p) :=
  regsWithin_flushMqs hW (h.forEach (fun _ _ k => regsWithin_flushQueue hW k) _)

theorem regsWithin_notePg {p : Nat} (h : RegsWithin W s0 s) : RegsWithin W s0 (s.notePg p) :=
  h.setRg (hW _ (by simp; omega)) (.inr (by simp; omega))

theorem regsWithin_pgMoved {p n : Nat} (h : RegsWithin W s0 s) : RegsWithin W s0 (s.pgMoved p n) :=
  h.ite (RegsWithin.raise (by decide)
    (RegsWithin.setRg (hW _ (by decide)) (.inr (by decide)) (h.bump (hW _ (by simp; omega)) (.inr (by simp; omega)))))

theorem regsWithin_pgPortDown {p : Nat} (h : RegsWithin W s0 s) : RegsWithin W s0 (s.pgPortDown p) := by
  refine h.forEach (fun u x k => ?_) _
  dsimp only
  split
  · exact k
  · refine regsWithin_pgMoved hW (regsWithin_notePg hW (k.of_regs ?_ ?_))
    · (repeat' split) <;> rfl
    · (repeat' split) <;> rfl

theorem regsWithin_pgPortUp {p : Nat} (h : RegsWithin W s0 s) : RegsWithin W s0 (s.pgPortUp p) := by
  refine h.forEach (fun u x k => ?_) _
  dsimp only
  split
  · exact k
  · exact regsWithin_notePg hW (k.of_regs rfl rfl)

theorem regsWithin_rxAbort {id p : Nat} {line : Bool} (h : RegsWithin W s0 s) : RegsWithin W s0 (s.rxAbort id p line) := by
  unfold rxAbort
  split
  · next f _ =>
    have seen : RegsWithin W s0 (s.csuSee 1 p f.wireBytes) :=
      h.of_moves (moves_csuSee (ps := [.ob]) (List.Subset.refl _) (moves_refl s)) (by decide)
    exact (regsWithin_rxBad (fun off h => hW off (afterPorts_of_upper h)) seen).of_regs (rxIdle_regs _ _)
      (rxIdle_core _ _)
  · exact h.of_regs rfl rfl

theorem regsWithin_cutRx {p : Nat} (hr : W (F.PX_RX_RUNT_COUNT p).off) (hs : W (F.PX_RX_SYMBOL_ERR_COUNT p).off)
    (h : RegsWithin W s0 s) : RegsWithin W s0 (s.cutRx p) := by
  unfold cutRx
  split
  · exact h.of_regs rfl rfl
  · split
    · exact h.of_regs rfl rfl
    · split
      · exact (regsWithin_rxAbort hW h).bump hr (.inr (by simp; omega))
      · exact (regsWithin_rxAbort hW h).bump hs (.inr (by simp; omega))

theorem regsWithin_setPq {q : Nat} {x : Pq} (h : RegsWithin W s0 s) : RegsWithin W s0 (s.setPq q x) := by
  have he : 0x2020 ≤ 0x5400200 + 4 * q := by omega
  have hq : W (0x5400200 + 4 * q) := hW _ (by simp; omega)
  unfold setPq
  refine RegsWithin.setRg hq (.inr he) (RegsWithin.setRg hq (.inr he) (RegsWithin.setRg hq (.inr he) ?_))
  exact h.of_regs rfl rfl

theorem regsWithin_p38Rewind {t : TxNow} (h : RegsWithin W s0 s) : RegsWithin W s0 (s.p38Rewind t) := by
  unfold p38Rewind
  split
  · exact (regsWithin_setPq hW h).bump (hW _ (by simp; omega)) (.inr (by simp; omega))
  · exact h

theorem regsWithin_stopTx {p : Nat} (hf : ∀ k < 4, W (R.PX_TX_FRAMES p + 4 * k)) (h : RegsWithin W s0 s) :
    RegsWithin W s0 (s.stopTx p) := by
  have counted (n : Nat) : RegsWithin W s0 ((s.bump64 (R.PX_TX_FRAMES p)).bump64 (R.PX_TX_BYTES p) n) := by
    refine RegsWithin.bump64 ?_ ?_ (.inr (by simp [R.PX_TX_BYTES]; omega))
      (h.bump64 (hf 0 (by decide)) (hf 1 (by decide)) (.inr (by simp [R.PX_TX_FRAMES]; omega)))
    · have := hf 2 (by decide); simpa [add_right_comm] using this
    · have := hf 3 (by decide); simpa [add_right_comm] using this
  unfold stopTx
  split
  · exact h
  · dsimp only
    refine regsWithin_dropCopy' hW (RegsWithin.of_regs (regsWithin_flushed hW ?_) (setTx_regs _ _ _) rfl)
    split
    · exact counted _
    · split
      · exact regsWithin_p38Rewind hW h
      · exact h

end

section
variable (hr : W F.SX_RSV_TOTAL_SCALED.off)
include hr

theorem regsWithin_judgeRsv (h : RegsWithin W s0 s) : RegsWithin W s0 s.judgeRsv := by
  have put (n : Nat) : RegsWithin W s0 (s.setRg F.SX_RSV_TOTAL_SCALED n) := h.setRg hr (.inr (by decide))
  unfold judgeRsv
  split
  · split
    · exact (put 1).raise (by decide)
    · exact h
  · exact put 0

theorem regsWithin_drainDone (h : RegsWithin W s0 s) : RegsWithin W s0 s.drainDone := by
  have recopied : RegsWithin W s0 s.recopyDue :=
    h.of_moves (moves_recopyDue (ps := [.shadow, .sv, .fx]) (List.Subset.refl _) (moves_refl s)) (by decide)
  unfold drainDone noteDrain
  dsimp only
  have judged : RegsWithin W s0 (if s.recopyDue.drained = true ∧ s.recopyDue.swapped.testBit 2 = true
      then s.recopyDue.judgeRsv else s.recopyDue) := (regsWithin_judgeRsv hr recopied).ite recopied
  split
  · exact judged.of_moves (moves_staticsDrained (ps := [.fx]) (List.Subset.refl _) (moves_refl _)) (by decide)
  · exact judged

theorem regsWithin_drainUnless {was : Bool} (h : RegsWithin W s0 s) : RegsWithin W s0 (s.drainUnless was) :=
  h.ite (regsWithin_drainDone hr h)

end

end State

end Sys2Proof.Machine
end

section
/-!
PROOFS. A port goes down or comes up: what its status register holds then; and the guards of a 10BASE-T1S port (R145 to R148).
-/

namespace Sys2Proof.Machine

/-- The registers of a port that its link's fall writes, beside its status register. -/
abbrev fallRegs (p : Nat) : List Nat :=
  [0x1000200, 0x1000204, (F.PX_RX_RUNT_COUNT p).off, (F.PX_RX_SYMBOL_ERR_COUNT p).off, R.PX_TX_FRAMES p,
    R.PX_TX_FRAMES p + 4, R.PX_TX_FRAMES p + 8, R.PX_TX_FRAMES p + 12, (F.PX_LINK_DOWNS_COUNT p).off]

/-- The fields of a port's status register that its link's fall writes. -/
abbrev linkFields (p : Nat) : List Fld :=
  [F.PX_PORT_STAT_LINK p, F.PX_PORT_STAT_RATE p, F.PX_PORT_STAT_HOLDOFF p, F.PX_PORT_STAT_PLCA_OK p,
    F.PX_PORT_STAT_PAUSED p, F.PX_PORT_STAT_PFC_PAUSED p]

/-- The registers that cutting a port's reception and transmission writes. -/
def cutRegs (p : Nat) (off : Nat) : Prop := afterPorts off ∨ off ∈ fallRegs p

namespace State

theorem regsWithin_of_portEvent {W : Nat → Prop} {s0 s : State} {e p : Nat} (hl : W (0x1000200 + 8 * e))
    (hh : W (0x1000204 + 8 * e)) (he : e < 224) (h : RegsWithin W s0 s) : RegsWithin W s0 (s.portEvent e p) := by
  unfold portEvent
  refine RegsWithin.raise (by omega) ?_
  split
  · exact h.setRg hl (.inr (by simp; omega))
  · exact h.setRg hh (.inr (by simp; omega))

/-- The reception and the transmission of a port are cut. -/
theorem regsWithin_cutPort (s : State) (p : Nat) :
    RegsWithin (cutRegs p) s ((if s.rxOf p = none then s else s.cutRx p).stopTx p) := by
  have hW : ∀ off, afterPorts off → cutRegs p off := fun _ h => .inl h
  refine regsWithin_stopTx hW (fun k hk => .inr ?_)
    ((RegsWithin.refl s).ite (regsWithin_cutRx hW (.inr (by simp)) (.inr (by simp)) (RegsWithin.refl s)))
  interval_cases k <;> simp

/-- The status that a port shows once its link has fallen. -/
def linkFalls (s : State) (p : Nat) : State :=
  ((((((s.endPauses p).setRg (F.PX_PORT_STAT_LINK p) 0).setRg (F.PX_PORT_STAT_RATE p) 7).setRg
    (F.PX_PORT_STAT_HOLDOFF p) 0).setRg (F.PX_PORT_STAT_PLCA_OK p) 0).bump (F.PX_LINK_DOWNS_COUNT p)).portEvent 0 p

/-- The fall of a port's link as one chain. -/
theorem portDown_of_up {s : State} {p : Nat} (h : (s.dropAn p).portUp p = true) :
    s.portDown p =
      let u := ((if (s.dropAn p).rxOf p = none then s.dropAn p else (s.dropAn p).cutRx p).stopTx p).linkFalls p
      ((({ u.flushPort p with sx.flushing := setBit (u.flushPort p).sx.flushing p } : State).setPlca p noPlca).pgPortDown p) := by
  simp only [portDown, linkFalls, h, if_true]

theorem portDown_of_down {s : State} {p : Nat} (h : (s.dropAn p).portUp p = false) : s.portDown p = s.dropAn p := by
  unfold portDown
  rw [if_neg (by rw [h]; decide)]

theorem flushing_regs (u : State) (p : Nat) :
    (({ u with sx.flushing := setBit u.sx.flushing p } : State).setPlca p noPlca).regs = u.regs := rfl

theorem flushing_core (u : State) (p : Nat) :
    (({ u with sx.flushing := setBit u.sx.flushing p } : State).setPlca p noPlca).cx.core = u.cx.core := rfl

/-- The status of a port once its link has fallen stays over the flush and the remapping. -/
theorem regsWithin_fallen (u : State) (p : Nat) :
    RegsWithin afterPorts u
      ((({ u.flushPort p with sx.flushing := setBit (u.flushPort p).sx.flushing p } : State).setPlca p noPlca).pgPortDown p) :=
  regsWithin_pgPortDown (fun _ h => h)
    (RegsWithin.of_regs (regsWithin_flushPort (fun _ h => h) (RegsWithin.refl u)) (flushing_regs (u.flushPort p) p)
      (flushing_core (u.flushPort p) p))

theorem rg_linkFalls (s : State) (p : Nat) {f : Fld} (hf : f.ok = true) (hs : ∀ g ∈ linkFields p, g.apart f = true)
    (hn : f.off ∉ fallRegs p) (he : f.off ≠ 0x2004) : (s.linkFalls p).rg f = s.rg f := by
  simp only [linkFields, List.forall_mem_cons] at hs
  obtain ⟨hlink, hrate, hhold, hplca, hpaused, hpfc, -⟩ := hs
  simp only [fallRegs, List.mem_cons, not_or] at hn
  obtain ⟨hlo, hhi, -, -, -, -, -, -, hdowns, -⟩ := hn
  have hbump : (F.PX_LINK_DOWNS_COUNT p).apart f = true := by simp [Fld.apart]; exact .inl (Ne.symm hdowns)
  unfold linkFalls
  rw [rg_portEvent _ 0 p f (by simpa using hlo) (by simpa using hhi) (by simpa using he),
    State.bump, rg_setRg_apart _ _ _ rfl hf hbump, rg_setRg_apart _ _ _ rfl hf hplca,
    rg_setRg_apart _ _ _ rfl hf hhold, rg_setRg_apart _ _ _ rfl hf hrate, rg_setRg_apart _ _ _ rfl hf hlink,
    rg_endPauses s p f hf hpaused hpfc]

theorem portUp_linkFalls (s : State) (p : Nat) : (s.linkFalls p).portUp p = false := by
  simp [portUp, linkFalls, rg_portEvent]

theorem evSet_fallEvent (u : State) (p : Nat) (hu : u.socUp = true) :
    ((((((u.setRg (F.PX_PORT_STAT_LINK p) 0).setRg (F.PX_PORT_STAT_RATE p) 7).setRg
    (F.PX_PORT_STAT_HOLDOFF p) 0).setRg (F.PX_PORT_STAT_PLCA_OK p) 0).bump (F.PX_LINK_DOWNS_COUNT p)).portEvent 0 p).evSet
      32 = true :=
  evSet_portEvent _ 0 p (by rwa [socUp_bump, socUp_setRg, socUp_setRg, socUp_setRg, socUp_setRg])

theorem evSet_linkFalls (s : State) (p : Nat) (hu : s.socUp = true) : (s.linkFalls p).evSet 32 = true :=
  evSet_fallEvent _ p ((socUp_endPauses s p).trans hu)

theorem regsWithin_setPaused {W : Nat → Prop} {s0 s : State} {p k : Nat} {on : Bool} (hs : W (R.PX_PORT_STAT p))
    (h : RegsWithin W s0 s) : RegsWithin W s0 (s.setPaused p k on) := by
  unfold setPaused
  have he : 0x2020 ≤ 0x1100020 + 0x1000 * p := by omega
  dsimp only
  split
  · exact h.setRg hs (.inr he)
  · exact h.setRg hs (.inr he)

theorem endPause_regs (s : State) (p k : Nat) : (s.endPause p k).regs = (s.setPaused p k false).regs := rfl

theorem regsWithin_endPauses {W : Nat → Prop} {s0 s : State} {p : Nat} (hs : W (R.PX_PORT_STAT p)) (h : RegsWithin W s0 s) :
    RegsWithin W s0 (s.endPauses p) :=
  h.forEach (fun u k hk => (regsWithin_setPaused hs hk).of_regs (endPause_regs u p k) rfl) _

theorem evSet_linkFalls_mono (s : State) (p : Nat) {n : Nat} (hn : n < 256) (h : s.evSet n = true) :
    (s.linkFalls p).evSet n = true := by
  have put (u : State) (f : Fld) (v : Nat) (hf : 0x2020 ≤ f.off) (k : RegsWithin (fun _ => True) s u) :
      RegsWithin (fun _ => True) s (u.setRg f v) := k.setRg trivial (.inr hf)
  have ended : RegsWithin (fun _ => True) s (s.endPauses p) := regsWithin_endPauses trivial (RegsWithin.refl s)
  have key : RegsWithin (fun _ => True) s (s.linkFalls p) := by
    unfold linkFalls
    refine regsWithin_of_portEvent trivial trivial (by decide) ?_
    have hs : 0x2020 ≤ 0x1100020 + 0x1000 * p := by omega
    exact put _ _ _ (by simp; omega) (put _ _ _ hs (put _ _ _ hs (put _ _ _ hs (put _ _ _ hs ended))))
  exact key.events n hn h

/-- A port's fall leaves every field but those that it names. -/
theorem rg_portDown (s : State) (p : Nat) {f : Fld} (hf : f.ok = true) (hs : ∀ g ∈ linkFields p, g.apart f = true)
    (hn : f.off ∉ fallRegs p) (he : f.off < 0x2000 ∨ 0x2020 ≤ f.off) (hb : f.off < 0x2000000) :
    (s.portDown p).rg f = s.rg f := by
  have hb' : ¬ afterPorts f.off := by simp only [afterPorts]; omega
  cases hup : (s.dropAn p).portUp p with
  | false => rw [portDown_of_down hup]; rfl
  | true =>
    rw [portDown_of_up hup]
    dsimp only
    rw [(regsWithin_fallen _ p).rg f hb' he, rg_linkFalls _ p hf hs hn (by omega),
      (regsWithin_cutPort (s.dropAn p) p).rg f (fun h => h.elim hb' hn) he]
    rfl

theorem portUp_portDown (s : State) (p : Nat) (hp : p < 41) : (s.portDown p).portUp p = false := by
  cases hup : (s.dropAn p).portUp p with
  | false => rw [portDown_of_down hup]; exact hup
  | true =>
    rw [portDown_of_up hup]
    dsimp only
    rw [portUp, (regsWithin_fallen _ p).rg _ (by simp; omega) (.inr (by simp; omega))]
    exact portUp_linkFalls _ p

theorem evSet_portDown (s : State) (p : Nat) {n : Nat} (hn : n < 256) (h : s.evSet n = true) :
    (s.portDown p).evSet n = true := by
  cases hup : (s.dropAn p).portUp p with
  | false => rw [portDown_of_down hup]; exact h
  | true =>
    rw [portDown_of_up hup]
    exact (regsWithin_fallen _ p).events n hn (evSet_linkFalls_mono _ p hn ((regsWithin_cutPort (s.dropAn p) p).events n hn h))

/-! ### The end of a drain, seen from a port -/

theorem drainUnless_px (s : State) (was : Bool) : (s.drainUnless was).px = s.px :=
  (drainUnless_moves s was).1 .px (by decide)

/-- A register of a port, over the end of a drain. -/
theorem rg_drainUnless (s : State) (was : Bool) (f : Fld) (hb : f.off < 0x2000000) (he : 0x2020 ≤ f.off) :
    (s.drainUnless was).rg f = s.rg f :=
  (regsWithin_drainUnless (W := afterPorts) (by decide) (RegsWithin.refl s)).rg f
    (by simp only [afterPorts]; omega) (.inr he)

theorem evSet_drainUnless (s : State) (was : Bool) {n : Nat} (hn : n < 256) (h : s.evSet n = true) :
    (s.drainUnless was).evSet n = true :=
  (regsWithin_drainUnless (W := afterPorts) (by decide) (RegsWithin.refl s)).events n hn h

theorem portEvent_px (s : State) (e p : Nat) : (s.portEvent e p).px = s.px := by
  unfold portEvent
  rw [raise_px]
  split <;> rfl

theorem evSet_portEvent_drained (s : State) (e p : Nat) (was : Bool) (he : e < 224) (hu : s.socUp = true) :
    ((s.portEvent e p).drainUnless was).evSet (32 + e) = true :=
  evSet_drainUnless _ was (by omega) (evSet_portEvent s e p hu)

/-! ### Quarantine -/

theorem quarantine_of_not_named {s : State} {p cause : Nat}
    (h : (s.act (F.PX_T1S_GUARD_QUAR_EN p)).testBit (cause - 1) = false) : s.quarantine p cause = s := by
  unfold quarantine
  rw [h]
  rfl

/-- A port marked as quarantined, before its link falls. -/
def quarMarked (s : State) (p cause : Nat) : State :=
  let t := (s.setRg (F.PX_PORT_STAT_QUAR p) 1).setRg (F.PX_PORT_STAT_QUAR_CAUSE p) cause
  (({ t with px.quarAt := Sparse.set (fun _ => 0) t.px.quarAt p t.now } : State).bump
    (F.PX_T1S_QUARANTINES_COUNT p)).portEvent 5 p

theorem portAllowed_of_quar {s : State} {p : Nat} (h1 : 24 ≤ p) (h2 : p < 36) (hq : s.rg (F.PX_PORT_STAT_QUAR p) = 1) :
    s.portAllowed p = false := by
  simp [portAllowed, hq, h2, show ¬ p < 24 by omega]

theorem portJudge_of_not_allowed {s : State} {p : Nat} (h : s.portAllowed p = false) : s.portJudge p = s.portDown p := by
  simp [portJudge, h]

end State

namespace State

/-- A quarantine that begins takes the port down and shows its cause (R148). -/
theorem quarantine_begins {s : State} {p cause : Nat} (hp : 24 ≤ p) (hp' : p < 36)
    (h : (s.act (F.PX_T1S_GUARD_QUAR_EN p)).testBit (cause - 1) = true) (hz : s.rg (F.PX_PORT_STAT_QUAR p) = 0)
    (hu : s.socUp = true) :
    (s.quarantine p cause).rg (F.PX_PORT_STAT_QUAR p) = 1 ∧
      (s.quarantine p cause).rg (F.PX_PORT_STAT_QUAR_CAUSE p) = cause % 4 ∧ (s.quarantine p cause).portUp p = false ∧
      (s.quarantine p cause).evSet 37 = true := by
  have hdef : s.quarantine p cause = (s.quarMarked p cause).portJudge p := by
    simp [quarantine, quarMarked, h, hz]
  have hq : (s.quarMarked p cause).rg (F.PX_PORT_STAT_QUAR p) = 1 := by simp [quarMarked, rg_portEvent]
  have hc : (s.quarMarked p cause).rg (F.PX_PORT_STAT_QUAR_CAUSE p) = cause % 4 := by simp [quarMarked, rg_portEvent]
  have he : (s.quarMarked p cause).evSet 37 = true := evSet_portEvent _ 5 p (by rw [socUp_bump]; exact hu)
  rw [hdef, portJudge_of_not_allowed (portAllowed_of_quar hp hp' hq)]
  refine ⟨?_, ?_, portUp_portDown _ p (by omega), evSet_portDown _ p (by decide) he⟩
  · rw [rg_portDown _ p rfl (by simp [Fld.apart]) (by simp) (.inr (by simp; omega)) (by simp; omega), hq]
  · rw [rg_portDown _ p rfl (by simp [Fld.apart]) (by simp) (.inr (by simp; omega)) (by simp; omega), hc]

end State

namespace State

/-- A follower that has lost its beacon, before any quarantine (R146). -/
def beaconLost (s : State) (p : Nat) : State :=
  ((({ s with px.bcnLost := setBit s.px.bcnLost p } : State).setRg (F.PX_PORT_STAT_PLCA_OK p) 0).bump
    (F.PX_T1S_BCN_LOSS_COUNT p)).portEvent 2 p

theorem portEvent_active (s : State) (e p : Nat) : (s.portEvent e p).active = s.active := by
  unfold portEvent
  rw [raise_active]
  split <;> rfl

theorem portEvent_act (s : State) (e p : Nat) (f : Fld) : (s.portEvent e p).act f = s.act f := by
  rw [act, act, activeOf, activeOf, portEvent_active]

theorem portEvent_pw (s : State) (e p : Nat) : (s.portEvent e p).pw = s.pw := by
  unfold portEvent
  rw [raise_pw]
  split <;> rfl

theorem portEvent_socUp (s : State) (e p : Nat) : (s.portEvent e p).socUp = s.socUp := socUp_congr (portEvent_pw s e p)

theorem beaconLost_act (s : State) (p : Nat) (f : Fld) : (s.beaconLost p).act f = s.act f := portEvent_act _ _ _ _

theorem beaconLost_socUp (s : State) (p : Nat) : (s.beaconLost p).socUp = s.socUp := by
  rw [beaconLost, portEvent_socUp, socUp_bump, socUp_setRg]
  rfl

theorem exec_beaconLoss {n : Nat} {s : State} (hn : n < 12) (hd : s.t1sDetects (24 + n) = true)
    (hp : s.act (F.PX_PLCA_CFG_PLCA_EN (24 + n)) = 1) (hid : nodeId s (24 + n) ≠ 0)
    (hl : s.px.bcnLost.testBit (24 + n) = false) :
    exec (.beaconLoss n) s = .next (((s.beaconLost (24 + n)).quarantine (24 + n) 1).drainUnless s.drained) := by
  show execBeaconLoss n s = _
  simp only [execBeaconLoss, beaconLost, hn, hd, hp, hid, hl, true_and, ne_eq, not_false_eq_true, Bool.not_false, if_true]

theorem noteFb_px (s : State) : s.noteFb.px = s.px :=
  (moves_noteFb (ps := [.regs, .pw]) (List.Subset.refl _) (moves_refl s)).1 .px (by decide)

theorem rg_noteFb (s : State) (f : Fld) (h : f.off ≠ R.SV_START_FB) : s.noteFb.rg f = s.rg f := by
  unfold noteFb
  split
  · exact rg_wr_ne _ _ _ f h
  · rfl

/-- A jabbering node's reception is cut (R147). -/
def jabberCut (s : State) (p : Nat) : State :=
  match s.rxOf p with
  | some id => (s.rxAbort id p).bump (F.PX_RX_SYMBOL_ERR_COUNT p)
  | none => s

theorem jabberCut_moves (s : State) (p : Nat) : moves [.freeN, .out, .regs, .scope, .sx, .fx, .ob, .cx, .mx] s (s.jabberCut p) := by
  unfold jabberCut
  split
  · exact moves_bump (by decide) (moves_rxAbort (by decide) (moves_refl s))
  · exact moves_refl s

theorem regsWithin_jabberCut (s : State) (p : Nat) :
    RegsWithin (fun off => afterPorts off ∨ off = (F.PX_RX_SYMBOL_ERR_COUNT p).off) s (s.jabberCut p) := by
  unfold jabberCut
  split
  · exact (regsWithin_rxAbort (fun _ h => .inl h) (RegsWithin.refl s)).bump (.inr rfl) (.inr (by simp; omega))
  · exact RegsWithin.refl s

/-- A port that jabbers, before any quarantine. -/
def jabberSeen (s : State) (p : Nat) : State :=
  (({ s with px.jabbering := setBit s.px.jabbering p } : State).bump (F.PX_T1S_JABBER_COUNT p)).portEvent 4 p

theorem jabberSeen_act (s : State) (p : Nat) (f : Fld) : (s.jabberSeen p).act f = s.act f := portEvent_act _ _ _ _

theorem exec_jabber {n : Nat} {s : State} (hn : n < 12) (hd : s.t1sDetects (24 + n) = true)
    (hj : s.px.jabbering.testBit (24 + n) = false) :
    exec (.jabber n) s =
      .next ((((s.jabberCut (24 + n)).jabberSeen (24 + n)).quarantine (24 + n) 3).drainUnless s.drained) := by
  show execJabber n s = _
  simp only [execJabber, jabberCut, jabberSeen, hn, hd, hj, true_and, Bool.not_false, if_true] <;> rfl

/-- A port whose quarantine has ended, before its link is judged (R148). -/
def quarCleared (s : State) (p : Nat) : State :=
  let t := (s.setRg (F.PX_PORT_STAT_QUAR p) 0).setRg (F.PX_PORT_STAT_QUAR_CAUSE p) 0
  { t with
    px.idcol := Sparse.set (fun _ => []) t.px.idcol p []
    px.bcnLost := clrBit t.px.bcnLost p
    px.jabbering := clrBit t.px.jabbering p }

theorem quarantineEnd_of_quar {s : State} {p : Nat} (hq : s.rg (F.PX_PORT_STAT_QUAR p) = 1)
    (hm : s.rg (F.PX_PORT_STAT_MEND p) = 0) : s.quarantineEnd p = (s.quarCleared p).portJudge p := by
  simp only [quarantineEnd, quarCleared, hq, hm, and_self, if_true]

theorem portComesUp_px (s : State) (p r : Nat) : (s.portComesUp p r).px = s.px :=
  (moves_portComesUp (ps := [.out, .regs, .scope, .fx]) (List.Subset.refl _) (moves_refl s)).1 .px (by decide)

/-- A port's rise writes its link's status, its event list and registers of later blocks. -/
theorem regsWithin_portComesUp (s : State) (p r : Nat) (f : Fld) (hf : f.ok = true)
    (hs : ∀ g ∈ linkFields p, g.apart f = true) (hn : f.off ∉ fallRegs p) (he : 0x2020 ≤ f.off)
    (hb : f.off < 0x2000000) : (s.portComesUp p r).rg f = s.rg f := by
  simp only [linkFields, List.forall_mem_cons] at hs
  obtain ⟨hlink, hrate, -, hplca, -⟩ := hs
  simp only [fallRegs, List.mem_cons, not_or] at hn
  obtain ⟨hlo, hhi, -⟩ := hn
  unfold portComesUp
  split
  · rfl
  · dsimp only
    rw [(regsWithin_pgPortUp (W := afterPorts) (fun _ h => h) (RegsWithin.refl _)).rg f (by simp only [afterPorts]; omega)
      (.inr he), rg_portEvent _ 0 p f (by simpa using hlo) (by simpa using hhi) (by omega)]
    split
    · rw [rg_setRg_apart _ _ _ rfl hf hplca, rg_setRg_apart _ _ _ rfl hf hrate, rg_setRg_apart _ _ _ rfl hf hlink]
    · rw [rg_setRg_apart _ _ _ rfl hf hrate, rg_setRg_apart _ _ _ rfl hf hlink]

/-- The judgement of a port that is down: it comes up or stays down. -/
theorem portJudge_of_down {s : State} {p : Nat} (h : s.portUp p = false) (hp : 24 ≤ p) :
    s.portJudge p = s.portComesUp p (s.upRate p) ∨ s.portJudge p = s.dropAn p := by
  unfold portJudge
  split
  · rw [if_neg (by omega)]; exact .inl rfl
  · exact .inr (portDown_of_down h)

/-- What the end of a quarantine clears (R148). -/
theorem quarantineEnd_clears {s : State} {p : Nat} (hp : 24 ≤ p) (hp' : p < 36) (hq : s.rg (F.PX_PORT_STAT_QUAR p) = 1)
    (hm : s.rg (F.PX_PORT_STAT_MEND p) = 0) (hd : s.portUp p = false) :
    (s.quarantineEnd p).rg (F.PX_PORT_STAT_QUAR p) = 0 ∧ (s.quarantineEnd p).rg (F.PX_PORT_STAT_QUAR_CAUSE p) = 0 ∧
      Sparse.get (fun _ => []) (s.quarantineEnd p).px.idcol p = [] ∧
      (s.quarantineEnd p).px.jabbering.testBit p = false := by
  have hz : (s.quarCleared p).rg (F.PX_PORT_STAT_QUAR p) = 0 := by simp [quarCleared]
  have hc : (s.quarCleared p).rg (F.PX_PORT_STAT_QUAR_CAUSE p) = 0 := by simp [quarCleared]
  have hi : Sparse.get (fun _ => []) (s.quarCleared p).px.idcol p = [] := by simp [quarCleared]
  have hj : (s.quarCleared p).px.jabbering.testBit p = false := clrBit_testBit _ _
  have hdown : (s.quarCleared p).portUp p = false := by simpa [quarCleared, portUp] using hd
  rw [quarantineEnd_of_quar hq hm]
  rcases portJudge_of_down hdown hp with h | h
  · rw [h, portComesUp_px]
    refine ⟨?_, ?_, hi, hj⟩
    · rw [regsWithin_portComesUp _ p _ _ rfl (by simp [Fld.apart]) (by simp) (by simp; omega) (by simp; omega), hz]
    · rw [regsWithin_portComesUp _ p _ _ rfl (by simp [Fld.apart]) (by simp) (by simp; omega) (by simp; omega), hc]
  · rw [h]
    exact ⟨hz, hc, hi, hj⟩

end State

open State

theorem orElse_limit {n : Nat} (h : n ≠ 0) : orElse (decide (n ≠ 0)) n 3 = n := by
  simp [orElse, h]

/-- Settles O40. -/
theorem t1sCommands : Obligations.T1sCommands := by
  unfold Obligations.T1sCommands
  refine ⟨?loss, ?lossQuar, ?beacon, ?coordinator, ?collision, ?collisionLimit, ?jabber, ?idle, ?quarEnd⟩
  case loss =>
    intro n s hn hu hd hp hid hl hq
    rw [exec_beaconLoss hn hd hp hid hl, quarantine_of_not_named (by rw [beaconLost_act]; exact hq)]
    refine ⟨_, rfl, ?_, ?_, ?_, ?_⟩
    · rw [drainUnless_px, beaconLost, portEvent_px]
      exact setBit_testBit _ _
    · rw [rg_drainUnless _ _ _ (by simp; omega) (by simp; omega)]
      simp [beaconLost, rg_portEvent]
    · exact evSet_portEvent_drained _ 2 _ _ (by decide) (by rw [socUp_bump, socUp_setRg]; exact hu)
    · rw [rg_drainUnless _ _ _ (by simp; omega) (by simp; omega)]
      simp [beaconLost, rg_portEvent]
  case lossQuar =>
    intro n s hn hu hd hp hid hl hq hz
    rw [exec_beaconLoss hn hd hp hid hl]
    obtain ⟨hquar, hcause, hdown, hev⟩ := quarantine_begins (s := s.beaconLost (24 + n)) (p := 24 + n) (cause := 1)
      (by omega) (by omega) (by rw [beaconLost_act]; exact hq) (by simpa [beaconLost, rg_portEvent] using hz)
      (by rw [beaconLost_socUp]; exact hu)
    refine ⟨_, rfl, ?_, ?_, ?_, evSet_drainUnless _ _ (by decide) hev⟩
    · rw [rg_drainUnless _ _ _ (by simp; omega) (by simp; omega), hquar]
    · rw [rg_drainUnless _ _ _ (by simp; omega) (by simp; omega), hcause]
    · rw [portUp, rg_drainUnless _ _ _ (by simp; omega) (by simp; omega)]
      exact hdown
  case beacon =>
    intro n s hn hu hh hp hid
    show ∃ t, execBeaconReceived n s = _ ∧ _
    simp only [execBeaconReceived, hn, hu, hh, hp, hid, and_true, if_true, if_false]
    refine ⟨_, rfl, ?_, ?_⟩
    · rw [noteFb_px]
      exact clrBit_testBit _ _
    · rw [rg_noteFb _ _ (by simp [R.SV_START_FB])]
      simp [setPlca]
  case coordinator =>
    intro n s hn hu hh hp hid
    show execBeaconReceived n s = execNodeIdCollision n s
    simp only [execBeaconReceived, execNodeIdCollision, hn, hu, hh, hp, hid, and_true, if_true]
  case collision =>
    intro n s hn hh hp hl
    show ∃ t, execNodeIdCollision n s = _ ∧ _
    have hlim : s.act (F.PX_T1S_GUARD_IDCOL_LIM (24 + n)) ≠ 0 := by omega
    simp only [execNodeIdCollision, hn, hp, true_and, if_true, idCollision, hh, orElse_limit hlim, List.length_cons,
      ge_iff_le, Nat.not_le.mpr hl, if_false]
    refine ⟨_, rfl, ?_, ?_⟩
    · rw [drainUnless_px]
      simp
    · rw [rg_drainUnless _ _ _ (by simp; omega) (by simp; omega)]
      simp
  case collisionLimit =>
    intro n s hn hu hh hp hlim hl hq
    show ∃ t, execNodeIdCollision n s = _ ∧ _
    simp only [execNodeIdCollision, hn, hp, true_and, if_true, idCollision, hh, orElse_limit hlim, List.length_cons,
      ge_iff_le, hl, if_true]
    rw [quarantine_of_not_named (p := 24 + n) (cause := 2) (by rw [portEvent_act]; exact hq)]
    refine ⟨_, rfl, ?_, ?_⟩
    · rw [drainUnless_px, portEvent_px]
      simp
    · exact evSet_portEvent_drained _ 3 _ _ (by decide) hu
  case jabber =>
    intro n s hn hu hd hj hq
    have hm := jabberCut_moves s (24 + n)
    have hact : (s.jabberCut (24 + n)).act (F.PX_T1S_GUARD_QUAR_EN (24 + n)) = s.act (F.PX_T1S_GUARD_QUAR_EN (24 + n)) :=
      congrArg (fun r => rfGet r _) (activeOf_congr (hm.1 .active (by decide)) _)
    have hc : (s.jabberCut (24 + n)).rg (F.PX_T1S_JABBER_COUNT (24 + n)) = s.rg (F.PX_T1S_JABBER_COUNT (24 + n)) :=
      (regsWithin_jabberCut s (24 + n)).rg _ (by simp; omega) (.inr (by simp; omega))
    have hu' : (s.jabberCut (24 + n)).socUp = true := (socUp_congr (hm.1 .pw (by decide))).trans hu
    rw [exec_jabber hn hd hj,
      quarantine_of_not_named (p := 24 + n) (cause := 3) (by rw [jabberSeen_act, hact]; exact hq)]
    refine ⟨_, rfl, ?_, ?_, ?_⟩
    · rw [drainUnless_px, jabberSeen, portEvent_px]
      exact setBit_testBit _ _
    · exact evSet_portEvent_drained _ 4 _ _ (by decide) (by rw [socUp_bump]; exact hu')
    · rw [rg_drainUnless _ _ _ (by simp; omega) (by simp; omega)]
      simp [jabberSeen, rg_portEvent, hc]
  case idle =>
    intro n s hn
    show execJabberLineIdle n s = _
    rw [execJabberLineIdle, decide_eq_true hn, only_true]
  case quarEnd =>
    intro a n data s hn hr ht hq hm hd hrel
    show ∃ t u, execQuarantineEnd n s = _ ∧ execQuarantineRelease a n data s = _ ∧ _
    rw [execQuarantineEnd, if_pos ⟨hn, ht⟩, execQuarantineRelease, byAgent_reaches _ _ _ hr, if_pos ⟨hn, hrel⟩]
    refine ⟨_, _, rfl, rfl, ?_⟩
    simp only [List.forall_mem_cons]
    have key := quarantineEnd_clears (by omega) (by omega) hq hm hd
    refine ⟨key, ?_, by simp⟩
    simpa only [answer_rg, answer_px] using key

end Sys2Proof.Machine
end

section
/-!
PROOFS. A port's link and its faults (R129, R130, R142, R156, R158, R185), and the MDIO interface (R149, R150, R155).
-/

namespace Sys2Proof.Machine

namespace State

/-! ### Rise and fall of a link -/

theorem rg_afterPorts {W : Nat → Prop} {s t : State} (h : RegsWithin W s t) (hW : ∀ off, W off → afterPorts off) (f : Fld)
    (hb : f.off < 0x2000000) (he : 0x2020 ≤ f.off) : t.rg f = s.rg f :=
  h.rg f (fun h => by have := hW _ h; simp only [afterPorts] at this; omega) (.inr he)

/-- The status of a port that comes up. -/
theorem portComesUp_shows {s : State} {p r : Nat} (hp : p < 41) (hr : r < 8) (hd : s.portUp p = false) (hu : s.socUp = true) :
    (s.portComesUp p r).portUp p = true ∧ (s.portComesUp p r).portRate p = r ∧ (s.portComesUp p r).evSet 32 = true := by
  unfold portComesUp
  rw [if_neg (by rw [hd]; decide)]
  dsimp only
  have late (u : State) : RegsWithin afterPorts u (u.pgPortUp p) := regsWithin_pgPortUp (fun _ h => h) (RegsWithin.refl u)
  have hb : 0x1100020 + 0x1000 * p < 0x2000000 := by omega
  have he : 0x2020 ≤ 0x1100020 + 0x1000 * p := by omega
  refine ⟨?_, ?_, (late _).events 32 (by decide) (evSet_portEvent _ 0 p ?_)⟩
  · rw [portUp, rg_afterPorts (late _) (fun _ h => h) _ hb he]
    split <;> simp [rg_portEvent]
  · rw [portRate, rg_afterPorts (late _) (fun _ h => h) _ hb he]
    split <;> simp [rg_portEvent] <;> omega
  · split
    · rw [socUp_setRg, socUp_setRg, socUp_setRg]; exact hu
    · rw [socUp_setRg, socUp_setRg]; exact hu

theorem portRate_linkFalls (s : State) (p : Nat) : (s.linkFalls p).portRate p = 7 := by
  simp [portRate, linkFalls, rg_portEvent]

theorem moves_cutPort (s : State) (p : Nat) : moves [.freeN, .out, .regs, .scope, .sx, .fx, .ob, .bx, .cx, .mx] s
    ((if s.rxOf p = none then s else s.cutRx p).stopTx p) := by
  refine moves_stopTx (by decide) ?_
  split
  · exact moves_refl s
  · exact moves_cutRx (by decide) (moves_refl s)

/-- A port that falls shows its status, its flush begins, and event 32 is raised. -/
theorem portDown_shows {s : State} {p : Nat} (hp : p < 41) (hup : s.portUp p = true) (hu : s.socUp = true) :
    (s.portDown p).portRate p = 7 ∧ (s.portDown p).sx.flushing.testBit p = true ∧ (s.portDown p).evSet 32 = true := by
  have hb : 0x1100020 + 0x1000 * p < 0x2000000 := by omega
  have he : 0x2020 ≤ 0x1100020 + 0x1000 * p := by omega
  have hcut : (((if (s.dropAn p).rxOf p = none then s.dropAn p else (s.dropAn p).cutRx p).stopTx p)).socUp = true :=
    (socUp_congr ((moves_cutPort (s.dropAn p) p).1 .pw (by decide))).trans hu
  rw [portDown_of_up (show (s.dropAn p).portUp p = true from hup)]
  refine ⟨?_, ?_, (regsWithin_fallen _ p).events 32 (by decide) (evSet_linkFalls _ p hcut)⟩
  · rw [portRate, rg_afterPorts (regsWithin_fallen _ p) (fun _ h => h) _ hb he]
    exact portRate_linkFalls _ p
  · rw [(moves_pgPortDown (ps := [.out, .regs, .scope, .fx]) (List.Subset.refl _) (moves_refl _)).1 .sx (by decide)]
    exact setBit_testBit _ _

theorem flushing_phyLink (u : State) (p : Nat) :
    (({ u with sx.flushing := setBit u.sx.flushing p } : State).setPlca p noPlca).px.phyLink = u.px.phyLink := rfl

theorem phyLink_portDown (s : State) (p : Nat) : (s.portDown p).px.phyLink = s.px.phyLink := by
  cases hup : (s.dropAn p).portUp p with
  | false => rw [portDown_of_down hup]; rfl
  | true =>
    have ended (u : State) : (u.linkFalls p).px.phyLink = u.px.phyLink := by
      rw [linkFalls, portEvent_px, px_bump, px_setRg, px_setRg, px_setRg, px_setRg]
      exact forEach_keeps (fun t => t.px.phyLink) (fun t k => t.endPause p k)
        (fun u k => by simp only [endPause, setPaused]; split <;> rfl) (List.range 9) u
    rw [portDown_of_up hup]
    dsimp only
    rw [(moves_pgPortDown (ps := [.out, .regs, .scope, .fx]) (List.Subset.refl _) (moves_refl _)).1 .px (by decide)]
    rw [flushing_phyLink, (moves_flushPort (ps := [.out, .regs, .scope, .sx, .ob, .cx, .mx]) (List.Subset.refl _) (moves_refl _)).1 .px
      (by decide), ended, (moves_cutPort (s.dropAn p) p).1 .px (by decide)]
    rfl

theorem drainUnless_sx (s : State) (was : Bool) : (s.drainUnless was).sx = s.sx :=
  (drainUnless_moves s was).1 .sx (by decide)

/-! ### Faults -/

theorem setLocalFault_regs (s : State) (p : Nat) (on : Bool) : (s.setLocalFault p on).regs = s.regs := by
  unfold setLocalFault
  split <;> rfl

theorem setLocalFault_shows (s : State) (p : Nat) (on : Bool) : (s.setLocalFault p on).px.localFault.testBit p = on := by
  unfold setLocalFault
  split
  · assumption
  · cases on
    · exact clrBit_testBit _ _
    · exact setBit_testBit _ _

theorem setLocalFault_out (s : State) (p : Nat) (on : Bool) :
    (s.setLocalFault p on).out = if s.px.localFault.testBit p = on then s.out else .remoteFault p on :: s.out := by
  unfold setLocalFault
  split <;> rfl

/-! ### MDIO -/

/-- What the poll's reads leave before the port is judged (R155, log 89). -/
def pollRead (s : State) (x : Nat × Nat × Nat) : State :=
  { s.forEach [1, 5, 10] (fun t r => t.emit (.mdio r (s.act F.PX_RGMII_CFG_PHY_ADDR) false 0)) with
    px.phyLink := x.1.testBit 2
    px.phyRate := if x.2.2.testBit 11 then 2 else if x.2.1.testBit 8 then 1 else 0
    px.poll := none }

theorem pollRun_eq (s : State) (x : Nat × Nat × Nat) : s.pollRun x =
    ((if (s.pollRead x).portUp 40 ∧ (s.pollRead x).portRate 40 ≠ (if x.2.2.testBit 11 then 2 else if x.2.1.testBit 8 then 1 else 0)
      then (s.pollRead x).portDown 40 else s.pollRead x).portJudge 40).drainUnless s.drained := rfl

theorem pollRead_regs (s : State) (x : Nat × Nat × Nat) : (s.pollRead x).regs = s.regs := rfl

theorem pollRead_active (s : State) (x : Nat × Nat × Nat) : (s.pollRead x).active = s.active := rfl

theorem pollRead_pw (s : State) (x : Nat × Nat × Nat) : (s.pollRead x).pw = s.pw := rfl

theorem mem_pollRead (s : State) (x : Nat × Nat × Nat) {r : Nat} (hr : r ∈ [1, 5, 10]) :
    Output.mdio r (s.act F.PX_RGMII_CFG_PHY_ADDR) false 0 ∈ (s.pollRead x).out := by
  simp only [List.mem_cons, List.not_mem_nil, or_false] at hr
  rcases hr with rfl | rfl | rfl
  · exact List.mem_cons_of_mem _ (List.mem_cons_of_mem _ List.mem_cons_self)
  · exact List.mem_cons_of_mem _ List.mem_cons_self
  · exact List.mem_cons_self

/-- The end of an MDIO access: BUSY falls, a read takes its data, event 41 (R150). -/
def mdioEnd (s : State) (data : Nat) (a : Agent) (write : Bool) : State :=
  ((if write = true then s.setRg F.PX_MDIO_CMD_BUSY 0
    else (s.setRg F.PX_MDIO_CMD_BUSY 0).setRg F.PX_MDIO_CMD_DATA data).setMdio none).raise 41 (some a)

theorem mdioEnd_poll {s : State} {data : Nat} {a : Agent} {write : Bool} (hp : s.px.poll = none) :
    (s.mdioEnd data a write).px.poll = none := by
  rw [mdioEnd, raise_px]
  cases write <;> exact hp

theorem mdioRead_socUp {s : State} {data : Nat} {write : Bool} (hu : s.socUp = true) :
    ((if write = true then s.setRg F.PX_MDIO_CMD_BUSY 0
      else (s.setRg F.PX_MDIO_CMD_BUSY 0).setRg F.PX_MDIO_CMD_DATA data).setMdio none).socUp = true := by
  cases write <;> exact hu

end State

open State

theorem portJudge_keeps_down {s : State} {p : Nat} (ha : s.portAllowed p = false) (hp : p < 41) :
    (s.portJudge p).portUp p = false := by
  rw [portJudge_of_not_allowed ha]
  exact portUp_portDown s p hp

/-- The rate that the PHY's registers 5 and 10 tell. -/
abbrev phyRateOf (r5 r10 : Nat) : Nat := if r10.testBit 11 then 2 else if r5.testBit 8 then 1 else 0

theorem exec_mdioPoll_free {r1 r5 r10 : Nat} {s : State} (hb : s.booted = true) (hl : s.act F.PX_RGMII_CFG_LINK_SRC = 0)
    (hm : s.px.mdio = none) : exec (.mdioPoll r1 r5 r10) s = .next (s.pollRun (r1, r5, r10)) := by
  show execMdioPoll r1 r5 r10 s = _
  rw [execMdioPoll, if_pos ⟨hb, hl⟩, hm]
  rfl

theorem phyRateOf_lt (r5 r10 : Nat) : phyRateOf r5 r10 < 8 := by
  unfold phyRateOf
  (repeat' split) <;> decide

theorem portUp_congr {s t : State} (h : t.regs = s.regs) (p : Nat) : t.portUp p = s.portUp p := by
  rw [portUp, portUp, rg_congr h]

theorem act_congr {s t : State} (h : t.active = s.active) (f : Fld) : t.act f = s.act f := by
  rw [act, act, activeOf_congr h]

theorem booted_congr {s t : State} (hr : t.regs = s.regs) (hp : t.pw = s.pw) : t.booted = s.booted := by
  rw [booted, booted, socUp_congr hp, rg_congr hr]

theorem socUp_of_booted {s : State} (h : s.booted = true) : s.socUp = true := by
  simp only [booted, Bool.and_eq_true] at h
  exact h.1

/-- P40 with its link taken from the PHY (R155). -/
theorem portAllowed_rgmii {s : State} (hb : s.booted = true) (hl : s.act F.PX_RGMII_CFG_LINK_SRC = 0)
    (hadm : s.act (F.PX_PORT_CFG_ADMIN 40) = 1) (hm : s.rg (F.PX_PORT_STAT_MEND 40) = 0) :
    s.portAllowed 40 = s.px.phyLink := by
  simp [portAllowed, hb, hl, hadm, hm]

theorem portAllowed_rgmii_down {s : State} (hl : s.act F.PX_RGMII_CFG_LINK_SRC = 0) (hp : s.px.phyLink = false) :
    s.portAllowed 40 = false := by
  simp [portAllowed, hl, hp]

theorem upRate_rgmii {s : State} (hl : s.act F.PX_RGMII_CFG_LINK_SRC = 0) : s.upRate 40 = s.px.phyRate := by
  simp [upRate, hl]

/-- Settles O38. -/
theorem linkAndMdio : Obligations.LinkAndMdio := by
  unfold Obligations.LinkAndMdio
  refine ⟨?lock, ?lockLoss, ?fault, ?cleared, ?word, ?flushed, ?remote, ?pollUp, ?pollDown, ?pollWaits, ?access, ?busy, ?done⟩
  case lock =>
    intro port r s hp hu hl hr ha hf hd
    show ∃ t, execPcsBlockLock port s = _ ∧ _
    simp only [execPcsBlockLock, hl, hp, ha, hf, and_self, if_true]
    exact ⟨_, rfl, portComesUp_shows (by omega) hr hd hu⟩
  case lockLoss =>
    intro port s hp hu hup
    show ∃ t, execPcsLockLoss port s = _ ∧ _
    rw [execPcsLockLoss, if_pos hp]
    obtain ⟨hrate, hflush, hev⟩ := portDown_shows (by omega) hup hu
    refine ⟨_, rfl, ?_, ?_, ?_, evSet_drainUnless _ _ (by decide) hev⟩
    · rw [portUp, rg_drainUnless _ _ _ (by simp; omega) (by simp; omega)]
      exact portUp_portDown s port (by omega)
    · rw [portRate, rg_drainUnless _ _ _ (by simp; omega) (by simp; omega)]
      exact hrate
    · rw [drainUnless_sx]
      exact hflush
  case fault =>
    intro port isLocal s hp hu hz
    show ∃ t, execPcsFaultReceived port isLocal s = _ ∧ _
    simp only [execPcsFaultReceived, hp, hz, if_true]
    refine ⟨_, rfl, ?_, ?_, setLocalFault_shows _ _ _, fun hl hn => ?_⟩
    · rw [rg_congr (setLocalFault_regs _ _ _)]
      simp [rg_portEvent]
    · rw [evSet_congr (setLocalFault_regs _ _ _)]
      exact evSet_portEvent _ 8 port (by rw [socUp_setRg]; exact hu)
    · rw [hl, setLocalFault_out, portEvent_px, if_neg (by simpa using hn)]
      exact List.mem_cons_self
  case cleared =>
    intro port s hp hf
    show ∃ t, execPcsFaultCleared port s = _ ∧ _
    rw [execPcsFaultCleared, if_pos ⟨hp, hf⟩]
    refine ⟨_, rfl, ?_, ?_, setLocalFault_shows _ _ _, ?_⟩
    · rw [rg_congr (setLocalFault_regs _ _ _)]
      simp
    · rw [setLocalFault_out]
      by_cases h : s.px.localFault.testBit port = true <;> simp [h]
    · rw [portUp, rg_congr (setLocalFault_regs _ _ _)]
      simp [portUp]
  case word =>
    intro port rate s hp ha hr
    show ∃ t, execControlWordReceived port rate s = _ ∧ _
    simp only [execControlWordReceived, hp, ha, hr, and_self, if_true, ne_eq, not_true_eq_false, if_false]
    refine ⟨_, rfl, fun q hq => ?_, Sparse.get_set_same _ _ _ _⟩
    cases q <;> first | rfl | exact absurd (by decide) hq
  case flushed =>
    intro port s hp hu hf
    show ∃ t, execPortFlushComplete port s = _ ∧ _
    rw [execPortFlushComplete, decide_eq_true hp, only_true, if_pos hf]
    refine ⟨_, rfl, ?_, ?_, ?_⟩
    · rw [raise_sx]
      exact clrBit_testBit _ _
    · simp; omega
    · exact evSet_raise_self _ _ _ hu
  case remote =>
    intro port s hp hf hl
    show ∃ t, execPcsFaultReceived port false s = _ ∧ _
    simp only [execPcsFaultReceived, hp, hf, if_true, Nat.one_ne_zero, if_false]
    refine ⟨_, rfl, ?_, setLocalFault_shows _ _ _, ?_⟩
    · rw [rg_congr (setLocalFault_regs _ _ _)]
      simp
    · rw [setLocalFault_out, if_neg (by simpa using hl)]
      rfl
  case pollUp =>
    intro r1 r5 r10 s hb hl hm hd h1 hadm hmend
    have hd' : (s.pollRead (r1, r5, r10)).portUp 40 = false := (portUp_congr (pollRead_regs s _) 40).trans hd
    have hl' : (s.pollRead (r1, r5, r10)).act F.PX_RGMII_CFG_LINK_SRC = 0 := (act_congr (pollRead_active s _) _).trans hl
    have ha : (s.pollRead (r1, r5, r10)).portAllowed 40 = true :=
      (portAllowed_rgmii ((booted_congr (pollRead_regs s _) (pollRead_pw s _)).trans hb) hl'
        ((act_congr (pollRead_active s _) _).trans hadm) ((rg_congr (pollRead_regs s _) _).trans hmend)).trans h1
    have hj : (s.pollRead (r1, r5, r10)).portJudge 40 =
        (s.pollRead (r1, r5, r10)).portComesUp 40 (phyRateOf r5 r10) := by
      rw [portJudge, if_pos ha, if_neg (by decide), upRate_rgmii hl']
      rfl
    have hu : (s.pollRead (r1, r5, r10)).socUp = true := (socUp_congr (pollRead_pw s _)).trans (socUp_of_booted hb)
    obtain ⟨hup, hrate, -⟩ := portComesUp_shows (by decide) (phyRateOf_lt r5 r10) hd' hu
    rw [exec_mdioPoll_free hb hl hm, pollRun_eq, if_neg (fun h => absurd h.1 (by rw [hd']; decide)), hj]
    refine ⟨_, rfl, ?_, ?_, ?_, fun r hr => ?_⟩
    · rw [portUp, rg_drainUnless _ _ _ (by decide) (by decide)]; exact hup
    · rw [drainUnless_px, portComesUp_px]; exact h1
    · rw [portRate, rg_drainUnless _ _ _ (by decide) (by decide)]; exact hrate
    · exact sent (drainUnless_moves _ _) (sent (moves_portComesUp (ps := [.out, .regs, .scope, .fx])
        (List.Subset.refl _) (moves_refl _)) (mem_pollRead s _ hr))
  case pollDown =>
    intro r1 r5 r10 s hb hl hm hup h1
    have hread (u : State) (ha : u.active = s.active) (hp : u.px.phyLink = false) :
        (u.portJudge 40).portUp 40 = false ∧ (u.portJudge 40).px.phyLink = false := by
      have hno := portAllowed_rgmii_down ((act_congr ha _).trans hl) hp
      exact ⟨portJudge_keeps_down hno (by decide), by rw [portJudge_of_not_allowed hno, phyLink_portDown, hp]⟩
    have hfall : (s.pollRead (r1, r5, r10)).px.phyLink = false := h1
    have key := hread (if (s.pollRead (r1, r5, r10)).portUp 40 ∧ (s.pollRead (r1, r5, r10)).portRate 40 ≠ phyRateOf r5 r10
      then (s.pollRead (r1, r5, r10)).portDown 40 else s.pollRead (r1, r5, r10))
      (by
        split
        · rw [(moves_portDown (ps := [.freeN, .out, .regs, .scope, .sx, .fx, .ob, .px, .bx, .cx, .mx]) (List.Subset.refl _)
            (moves_refl _)).1 .active (by decide), pollRead_active]
        · rw [pollRead_active])
      (by
        split
        · rw [phyLink_portDown, hfall]
        · exact hfall)
    rw [exec_mdioPoll_free hb hl hm, pollRun_eq]
    refine ⟨_, rfl, ?_, ?_⟩
    · rw [portUp, rg_drainUnless _ _ _ (by decide) (by decide)]; exact key.1
    · rw [drainUnless_px]; exact key.2
  case pollWaits =>
    intro r1 r5 r10 s hb hl hm
    show ∃ t, execMdioPoll r1 r5 r10 s = _ ∧ _
    rw [execMdioPoll, if_pos ⟨hb, hl⟩, if_pos (Option.isSome_iff_ne_none.mpr hm)]
    refine ⟨_, rfl, rfl, rfl, fun q hq => ?_⟩
    cases q <;> first | rfl | exact absurd (by decide) hq
  case access =>
    intro a data s hr hg hm
    show ∃ t, execMdioAccess a data s = _ ∧ _
    simp only [execMdioAccess, byAgent_reaches _ _ _ hr, hg, hm, and_self, if_true]
    refine ⟨_, rfl, ?_, ?_, ?_⟩ <;> simp [emit, setMdio, mdioTake]
  case busy =>
    intro a data s hr hm
    show ∃ t, execMdioAccess a data s = _ ∧ _
    simp only [execMdioAccess, byAgent_reaches _ _ _ hr, hm, and_false, if_false]
    refine ⟨_, rfl, ?_, ?_, ?_⟩ <;> simp [mdioTake]
  case done =>
    intro data a write s hu hm hp hd
    show ∃ t, execMdioDone data s = _ ∧ _
    have hend : execMdioDone data s = .next (s.mdioEnd data a write) := by
      simp only [execMdioDone, hm]
      rw [show (((if write = true then s.setRg F.PX_MDIO_CMD_BUSY 0
        else (s.setRg F.PX_MDIO_CMD_BUSY 0).setRg F.PX_MDIO_CMD_DATA data).setMdio none).raise 41 (some a)).px.poll = none
          from mdioEnd_poll hp]
      rfl
    rw [hend]
    refine ⟨_, rfl, ?_, ?_, evSet_raise_self _ _ _ (mdioRead_socUp hu), ?_⟩
    · cases write <;> simp [mdioEnd, setMdio]
    · rw [mdioEnd, raise_px]; rfl
    · cases write <;> simp [mdioEnd, setMdio]
      omega

end Sys2Proof.Machine
end

section
/-!
PROOFS. The CAN controllers' states and counters (R291 to R295, R311 to R314, R320): which registers the events and the
objects' ends write, and what each transition shows.
-/

namespace Sys2Proof.Machine

namespace State

/-! ### Events and ends of objects: what they write -/

section
variable {W : Nat → Prop} {s0 s : State}

theorem regsWithin_canEvent {e c : Nat} (hE : W (0x5000100 + 4 * e)) (he : e < 112) (h : RegsWithin W s0 s) :
    RegsWithin W s0 (s.canEvent e c) :=
  RegsWithin.raise (by omega) (h.setRg hE (.inr (by simp; omega)))

theorem regsWithin_objEvent {c o e : Nat} (hE : W (0x5000100 + 4 * e)) (he : e < 112)
    (hD : W (0x5100350 + 0x10000 * c + 4 * (o / 32))) (h : RegsWithin W s0 s) : RegsWithin W s0 (s.objEvent c o e) :=
  h.ite (regsWithin_canEvent hE he (h.setRg hD (.inr (by simp; omega))))

theorem regsWithin_setStatus {c o st : Nat} (hO : W (0x5102000 + 0x10000 * c + 0x20 * o)) (h : RegsWithin W s0 s) :
    RegsWithin W s0 (s.setStatus c o st) :=
  h.setRg hO (.inr (by simp; omega))

theorem regsWithin_objEnds {c o st : Nat} (hE : W 0x5000118) (hD : W (0x5100350 + 0x10000 * c + 4 * (o / 32)))
    (hO : W (0x5102000 + 0x10000 * c + 0x20 * o)) (h : RegsWithin W s0 s) : RegsWithin W s0 (s.objEnds c o st) :=
  regsWithin_objEvent hE (by decide) hD (regsWithin_setStatus hO (h.setRg hO (.inr (by simp; omega))))

theorem regsWithin_objStamp {c o t : Nat} (h5 : W (0x5102014 + 0x10000 * c + 0x20 * o))
    (h6 : W (0x5102018 + 0x10000 * c + 0x20 * o)) (h : RegsWithin W s0 s) : RegsWithin W s0 (s.objStamp c o t) :=
  (h.wr _ h5 (.inr (by omega))).wr _ h6 (.inr (by simp [R.BX_CAN_OBJ_W6]; omega))

end

/-- The registers that the events and the objects of controller c write. -/
def objRegs (c off : Nat) : Prop :=
  (0x5000100 ≤ off ∧ off < 0x5000130) ∨ (0x5100350 + 0x10000 * c ≤ off ∧ off < 0x5100360 + 0x10000 * c) ∨
    0x5102000 + 0x10000 * c ≤ off

theorem objRegs_ends {s0 s : State} {c o st : Nat} (ho : o < 128) (h : RegsWithin (objRegs c) s0 s) :
    RegsWithin (objRegs c) s0 (s.objEnds c o st) :=
  regsWithin_objEnds (by unfold objRegs; omega) (by unfold objRegs; omega) (by unfold objRegs; omega) h

theorem objRegs_status {s0 s : State} {c o st : Nat} (h : RegsWithin (objRegs c) s0 s) :
    RegsWithin (objRegs c) s0 (s.setStatus c o st) :=
  regsWithin_setStatus (by unfold objRegs; omega) h

theorem objRegs_stamp {s0 s : State} {c o t : Nat} (h : RegsWithin (objRegs c) s0 s) :
    RegsWithin (objRegs c) s0 (s.objStamp c o t) :=
  regsWithin_objStamp (by unfold objRegs; omega) (by unfold objRegs; omega) h

/-- A field of the controller's own registers is none of those. -/
theorem rg_objRegs {s t : State} {c : Nat} (h : RegsWithin (objRegs c) s t) (f : Fld) (h1 : 0x5100100 + 0x10000 * c ≤ f.off)
    (h2 : f.off < 0x5100350 + 0x10000 * c) : t.rg f = s.rg f :=
  h.rg f (by unfold objRegs; omega) (.inr (by omega))

theorem pendingObjs_lt {s : State} {c o : Nat} (h : o ∈ s.pendingObjs c) : o < 128 :=
  List.mem_range.mp (List.mem_of_mem_filter h)

theorem abortedBelow_lt {s : State} {c o : Nat} (h : o ∈ s.abortedBelow c) : o < 128 := by
  unfold abortedBelow at h
  dsimp only at h
  split at h
  · exact absurd h List.not_mem_nil
  · split at h <;> exact pendingObjs_lt (List.mem_of_mem_filter h)

theorem RegsWithin.forEach_mem {α : Type} {W : Nat → Prop} {s0 s : State} {f : State → α → State} (l : List α)
    (hf : ∀ u, ∀ x ∈ l, RegsWithin W s0 u → RegsWithin W s0 (f u x)) (h : RegsWithin W s0 s) :
    RegsWithin W s0 (s.forEach l f) := by
  induction l generalizing s with
  | nil => exact h
  | cons a l ih =>
    exact ih (fun u x hx => hf u x (List.mem_cons_of_mem _ hx)) (hf s a List.mem_cons_self h)

theorem objRegs_endAll {s0 s : State} {c st : Nat} (l : List Nat) (hl : ∀ o ∈ l, o < 128) (h : RegsWithin (objRegs c) s0 s) :
    RegsWithin (objRegs c) s0 (s.forEach l (fun t o => t.objEnds c o st)) :=
  RegsWithin.forEach_mem l (fun _ o ho k => objRegs_ends (hl o ho) k) h

theorem objRegs_objsChange {s : State} {c : Nat} {old new : RegFile} : RegsWithin (objRegs c) s (s.objsChange c old new) := by
  refine RegsWithin.forEach_mem _ (fun u o ho k => ?_) (RegsWithin.refl s)
  have ho' := List.mem_range.mp ho
  have hO : objRegs c (0x5102000 + 0x10000 * c + 0x20 * o) := by unfold objRegs; omega
  refine RegsWithin.ite (objRegs_ends ho' k) (RegsWithin.ite ?_ k)
  exact (objRegs_status k).setRg hO (.inr (by simp; omega))

/-! ### The parts of the state that stay -/

theorem canOf_congr {s t : State} (h : t.bx = s.bx) (c : Nat) : t.canOf c = s.canOf c := by
  rw [canOf, canOf, h]

theorem canOf_setCan_same (s : State) (c : Nat) (x : CanState) : (s.setCan c x).canOf c = x := by
  simp [canOf, setCan]

theorem setCan_rg (s : State) (c : Nat) (x : CanState) (f : Fld) : (s.setCan c x).rg f = s.rg f := rfl

theorem rg_canEvent (s : State) (e c : Nat) (f : Fld) (h : 0x5100000 ≤ f.off) (he : e < 112) :
    (s.canEvent e c).rg f = s.rg f := by
  unfold canEvent
  rw [rg_raise_other _ _ _ _ (by omega), rg_eq, rd_setRg_other _ _ _ _ (by simp; omega)]
  rfl

theorem evSet_canEvent (s : State) (e c : Nat) (hu : s.socUp = true) : (s.canEvent e c).evSet (144 + e) = true :=
  evSet_raise _ _ _ (by rw [socUp_setRg]; exact hu)

theorem canEvent_bx (s : State) (e c : Nat) : (s.canEvent e c).bx = s.bx :=
  (moves_canEvent (ps := [.out, .regs, .scope]) (List.Subset.refl _) (moves_refl s)).1 .bx (by decide)

theorem canEvent_socUp (s : State) (e c : Nat) : (s.canEvent e c).socUp = s.socUp :=
  socUp_congr ((moves_canEvent (ps := [.out, .regs, .scope]) (List.Subset.refl _) (moves_refl s)).1 .pw (by decide))

theorem toCanState_shows (s : State) (c : Nat) {st : Nat} (h : st < 8) : (s.toCanState c st).canState c = st := by
  rw [canState, toCanState, rg_setRg_self _ _ _ (by decide : 0 + 3 ≤ 32)]
  exact Nat.mod_eq_of_lt h

theorem canState_congr {s t : State} {c : Nat} (h : RegsWithin (objRegs c) s t) : t.canState c = s.canState c :=
  rg_objRegs h _ (by simp) (by simp)

/-! ### The counters (R311, R312) -/

/-- The counters take their values, and no other field of the status register but WARN changes. -/
theorem setCounters_shows (s : State) (c tec rec_ : Nat) :
    (s.setCounters c tec rec_).rg (F.BX_CAN_STAT_TEC c) = min tec 255 ∧
      (s.setCounters c tec rec_).rg (F.BX_CAN_STAT_REC c) = min rec_ 255 ∧
      (s.setCounters c tec rec_).canState c = s.canState c := by
  unfold setCounters canState
  dsimp only
  have hT : min tec 255 % 256 = min tec 255 := by omega
  have hR : min rec_ 255 % 256 = min rec_ 255 := by omega
  generalize (if tec ≥ 96 ∨ rec_ ≥ 96 then 1 else 0) = w
  split
  · refine ⟨?_, ?_, ?_⟩ <;> rw [rg_canEvent _ _ _ _ (by simp; omega) (by decide)] <;> simp [hT, hR]
  · refine ⟨?_, ?_, ?_⟩ <;> simp [hT, hR]

theorem setCounters_socUp (s : State) (c tec rec_ : Nat) : (s.setCounters c tec rec_).socUp = s.socUp :=
  socUp_congr ((moves_setCounters (ps := [.out, .regs, .scope]) (List.Subset.refl _) (moves_refl s)).1 .pw (by decide))

theorem rg_setCounters (s : State) (c tec rec_ : Nat) (f : Fld) (hf : f.off ≠ 0x5100100 + 0x10000 * c)
    (h1 : 0x5100000 ≤ f.off) : (s.setCounters c tec rec_).rg f = s.rg f := by
  unfold setCounters
  dsimp only
  have key (v w x : Nat) : (((s.setRg (F.BX_CAN_STAT_TEC c) v).setRg (F.BX_CAN_STAT_REC c) w).setRg
      (F.BX_CAN_STAT_WARN c) x).rg f = s.rg f := by
    rw [rg_eq, rd_setRg_other _ _ _ _ hf, rd_setRg_other _ _ _ _ hf, rd_setRg_other _ _ _ _ hf]
    rfl
  generalize (if tec ≥ 96 ∨ rec_ ≥ 96 then 1 else 0) = w
  split
  · rw [rg_canEvent _ _ _ _ h1 (by decide), key]
  · exact key _ _ _

theorem judgePassive_active {s : State} {c : Nat} (h3 : s.canState c = 3) (ht : s.rg (F.BX_CAN_STAT_TEC c) ≤ 127)
    (hr : s.rg (F.BX_CAN_STAT_REC c) ≤ 127) : s.judgePassive c = s := by
  simp [judgePassive, h3, Nat.not_lt.mpr ht, Nat.not_lt.mpr hr]

theorem judgePassive_passive {s : State} {c : Nat} (h3 : s.canState c = 3)
    (h : 127 < s.rg (F.BX_CAN_STAT_TEC c) ∨ 127 < s.rg (F.BX_CAN_STAT_REC c)) :
    s.judgePassive c = (s.toCanState c 4).canEvent 0 c := by
  unfold judgePassive
  dsimp only
  rw [if_pos ⟨h3, by simpa using h⟩]

/-- Counters below the limit leave an active controller active. -/
theorem judgePassive_setCounters {s : State} {c t r : Nat} (h3 : s.canState c = 3) (ht : t ≤ 127) (hr : r ≤ 127) :
    (s.setCounters c t r).judgePassive c = s.setCounters c t r := by
  obtain ⟨htec, hrec, hst⟩ := setCounters_shows s c t r
  exact judgePassive_active (hst.trans h3) (by omega) (by omega)

/-! ### Configurations and errors -/

theorem canLeave_bx (s : State) (c : Nat) : (s.canLeave c).bx = s.bx :=
  (moves_canLeave (ps := [.out, .regs, .scope]) (List.Subset.refl _) (moves_refl s)).1 .bx (by decide)

theorem canLeave_state (s : State) (c : Nat) :
    (s.canLeave c).canState c = if canTimingOk (s.canRf c) c = true then 2 else 1 := by
  unfold canLeave
  dsimp only
  split
  · exact toCanState_shows _ c (by decide)
  · rw [canState, rg_canEvent _ _ _ _ (by simp; omega) (by decide)]
    exact toCanState_shows _ c (by decide)

/-- A configuration that applies (R292, R294): nothing is chosen any more, and the controller is off, held or integrating. -/
theorem canApply_shows (s : State) (c : Nat) (old : RegFile) :
    (s.canApply c old).canOf c = { s.canOf c with old := none, chosen := none } ∧
      (s.canApply c old).canState c = (if s.act (F.BX_CAN_CFG_EN c) = 0 then 0
        else if canTimingOk (s.activeOf (canCd c)) c = true then 2 else 1) := by
  have hm : moves [.out, .regs, .scope] (s.setCan c { s.canOf c with old := none, chosen := none })
      ((s.setCan c { s.canOf c with old := none, chosen := none }).objsChange c old (s.activeOf (canCd c))) :=
    moves_objsChange (List.Subset.refl _) (moves_refl _)
  unfold canApply
  dsimp only
  have hcan := (canOf_congr (hm.1 .bx (by decide)) c).trans (canOf_setCan_same s c _)
  have hact : State.activeOf _ (canCd c) = s.activeOf (canCd c) := activeOf_congr (hm.1 .active (by decide)) (canCd c)
  generalize (s.setCan c { s.canOf c with old := none, chosen := none }).objsChange c old (s.activeOf (canCd c)) = u at hcan hact ⊢
  have hen : s.act (F.BX_CAN_CFG_EN c) = rfGet (s.activeOf (canCd c)) (F.BX_CAN_CFG_EN c) := rfl
  have hends (l : List Nat) : moves [.out, .regs, .scope] u (u.forEach l (fun t o => t.objEnds c o 9)) :=
    moves_forEach (fun v o k => moves_objEnds (List.Subset.refl _) k) (moves_refl u)
  rw [hen]
  split
  · refine ⟨?_, toCanState_shows _ c (by decide)⟩
    split
    · exact (canOf_congr ((hends _).1 .bx (by decide)) c).trans hcan
    · exact hcan
  · refine ⟨(canOf_congr (canLeave_bx u c) c).trans hcan, ?_⟩
    rw [canLeave_state, canRf, hcan, ← hact]
    rfl

theorem objFails_of_idle {s : State} {c : Nat} (h : (s.canOf c).active = none) : s.objFails c = s := by
  simp [objFails, h]

theorem tdcAtError_of_idle {s : State} {c : Nat} (h : (s.canOf c).active = none) (edges : Option (List Nat)) :
    s.tdcAtError c edges = s := by
  simp [tdcAtError, h]

theorem canRf_congr {s t : State} {c : Nat} (hold : (t.canOf c).old = (s.canOf c).old) (ha : t.active = s.active) :
    t.canRf c = s.canRf c := by
  rw [canRf, canRf, hold, activeOf_congr ha]

/-- The error code is shown and the side of the flag kept, before anything is sent or counted. -/
def errorNoted (s : State) (c code : Nat) (tx : Bool) : State :=
  (s.noteError c code false).setCan c { s.canOf c with errTx := tx }

theorem errorNoted_canOf (s : State) (c code : Nat) (tx : Bool) :
    (s.errorNoted c code tx).canOf c = { s.canOf c with errTx := tx } := canOf_setCan_same _ c _

theorem rg_errorNoted (s : State) (c code : Nat) (tx : Bool) (f : Fld) (hf : f.off ≠ 0x5100104 + 0x10000 * c) :
    (s.errorNoted c code tx).rg f = s.rg f := by
  rw [errorNoted, setCan_rg, noteError, rg_eq, rd_setRg_other _ _ _ _ (by simpa using hf)]
  rfl

theorem errorNoted_lec (s : State) (c : Nat) {code : Nat} (tx : Bool) (h : code < 8) :
    (s.errorNoted c code tx).rg (F.BX_CAN_ERR_LEC c) = code := by
  rw [errorNoted, setCan_rg, noteError]
  simpa using h

theorem errorNoted_canMode (s : State) (c code : Nat) (tx : Bool) : (s.errorNoted c code tx).canMode c = s.canMode c := by
  have hrf : (s.errorNoted c code tx).canRf c = s.canRf c := canRf_congr (by rw [errorNoted_canOf]) rfl
  rw [canMode, canMode, hrf]

/-- The side of the error flag: the sender's where an error lies in the flag itself, else the transmitter's. -/
theorem canErrorMet_idle {s : State} {c : Nat} (code : Nat) (severe exempt : Bool) (hm : s.canMode c = 0)
    (ha : (s.canOf c).active = none) (he : severe = true → (s.canOf c).errTx = false)
    (ht : s.rg (F.BX_CAN_STAT_TEC c) ≤ 255) :
    s.canErrorMet c code false severe exempt =
      ((if severe = true then s.errorNoted c code false else (s.errorNoted c code false).sendErrorFrame c).setCounters c
        (s.rg (F.BX_CAN_STAT_TEC c)) (s.rg (F.BX_CAN_STAT_REC c) + if severe = true then 8 else 1)).judgePassive c := by
  have hside : (if (severe && (s.canOf c).active.isNone) = true then (s.canOf c).errTx else (s.canOf c).active.isSome) =
      false := by
    rw [ha]
    cases severe with
    | false => rfl
    | true => exact he rfl
  have hidle : (((s.noteError c code false).setCan c { s.canOf c with errTx := false }).canOf c).active = none := by
    rw [canOf_setCan_same]; exact ha
  unfold canErrorMet
  dsimp only
  rw [hside, objFails_of_idle hidle, if_neg (by rw [hm]; decide)]
  simp only [hm, ha, Option.isNone_none, Bool.and_true, Bool.false_eq_true, false_and, if_false, Nat.zero_ne_one, false_or,
    Nat.not_lt.mpr ht, errorNoted]

theorem rg_sendErrorFrame (s : State) (c : Nat) (f : Fld) (hf : f.off ≠ 0x5100214 + 0x10000 * c) :
    (s.sendErrorFrame c).rg f = s.rg f := by
  have key : (s.bump (F.BX_CAN_ERR_FRAMES_COUNT c)).rg f = s.rg f := by
    rw [rg_eq, rd_bump_other _ _ _ _ hf]; rfl
  unfold sendErrorFrame
  dsimp only
  split
  · exact key
  · exact key

theorem sendErrorFrame_counts (s : State) (c : Nat) : (s.sendErrorFrame c).rg (F.BX_CAN_ERR_FRAMES_COUNT c) =
    min (s.rg (F.BX_CAN_ERR_FRAMES_COUNT c) + 1) (2 ^ 32 - 1) := by
  have key := rg_bump_self s (F.BX_CAN_ERR_FRAMES_COUNT c) 1 (by simp)
  unfold sendErrorFrame
  dsimp only
  split
  · exact key
  · exact key

theorem sendErrorFrame_sends {s : State} {c : Nat} (hm : s.canMode c ≠ 3) :
    .canError c (s.canState c == 3) ∈ (s.sendErrorFrame c).out := by
  rw [sendErrorFrame, if_neg hm]
  exact mem_emit _ _

theorem exec_canBusError {c code : Nat} {severe exempt : Bool} {edges : Option (List Nat)} {s : State} (hc : c < 16)
    (h0 : 0 < code) (h7 : code < 7) (hl : s.canLive c = true) :
    exec (.canBusError c code false severe exempt edges) s =
      .next ((s.tdcAtError c edges).canErrorMet c code false severe exempt) := by
  show execCanBusError c code false severe exempt edges s = _
  rw [execCanBusError, decide_eq_true ⟨hc, h0, h7⟩, only_true, if_pos hl]

/-! ### Bus off (R313) -/

/-- A transmission that failed leaves no frame on the bus (R304). -/
theorem objFails_active (s : State) (c : Nat) : ((s.objFails c).canOf c).active = none := by
  unfold objFails
  dsimp only
  split
  · assumption
  · next o f hx =>
    have hset : (((s.setCan c { s.canOf c with active := none, chosen := none })).canOf c).active = none := by
      rw [canOf_setCan_same]
    generalize s.setCan c { s.canOf c with active := none, chosen := none } = u at hset ⊢
    have keep {t : State} (hm : moves [.out, .regs, .scope] u t) : (t.canOf c).active = none := by
      rw [canOf_congr (hm.1 .bx (by decide))]; exact hset
    split
    · exact keep (moves_objEnds (List.Subset.refl _) (moves_objStamp (by decide) (moves_refl u)))
    · split
      · exact keep (moves_objEnds (List.Subset.refl _) (moves_refl u))
      · exact keep (moves_setStatus (by decide) (moves_refl u))

/-- Bus off shows its state and raises event 145, or 145 and the end of the automatic recoveries. -/
theorem busOff_shows (s : State) (c : Nat) (hu : s.socUp = true) :
    ((s.busOff c).canState c = 5 ∨ (s.busOff c).canState c = 6) ∧ (s.busOff c).evSet 145 = true := by
  unfold busOff
  dsimp only
  have h5 : (((s.useFree).setRg (F.BX_CAN_STAT_TEC c) s.freeVal).toCanState c 5).canState c = 5 :=
    toCanState_shows _ c (by decide)
  have hu5 : (((s.useFree).setRg (F.BX_CAN_STAT_TEC c) s.freeVal).toCanState c 5).socUp = true := by
    rw [toCanState, socUp_setRg, socUp_setRg]; exact hu
  generalize ((s.useFree).setRg (F.BX_CAN_STAT_TEC c) s.freeVal).toCanState c 5 = s1 at h5 hu5 ⊢
  have hs2 : ((s1.canEvent 1 c).bump (F.BX_CAN_STAT_BUSOFF_CNT c)).canState c = 5 := by
    rw [canState, rg_bump_other _ _ _ _ (by simp) (by simp) (by simp), rg_canEvent _ _ _ _ (by simp; omega) (by decide)]
    exact h5
  have he2 : ((s1.canEvent 1 c).bump (F.BX_CAN_STAT_BUSOFF_CNT c)).evSet 145 = true := by
    rw [evSet_bump _ _ _ _ (by simp)]
    exact evSet_canEvent s1 1 c hu5
  generalize (s1.canEvent 1 c).bump (F.BX_CAN_STAT_BUSOFF_CNT c) = s2 at hs2 he2 ⊢
  have hends : RegsWithin (objRegs c) s2 (s2.forEach (s2.abortedBelow c) (fun t o => t.objEnds c o 8)) :=
    objRegs_endAll _ (fun o ho => abortedBelow_lt ho) (RegsWithin.refl s2)
  have h3 : (s2.forEach (s2.abortedBelow c) (fun t o => t.objEnds c o 8)).canState c = 5 := (canState_congr hends).trans hs2
  have he3 := hends.events 145 (by decide) he2
  generalize s2.forEach (s2.abortedBelow c) (fun t o => t.objEnds c o 8) = s3 at h3 he3 ⊢
  split
  · exact ⟨.inr (toCanState_shows _ c (by decide)), by rw [toCanState, evSet_setRg _ _ _ _ (by simp)]; exact he3⟩
  · refine ⟨.inl ?_, ?_⟩
    · rw [canState, rg_canEvent _ _ _ _ (by simp; omega) (by decide), rg_setRg_other _ _ _ _ (by simp) (by simp) (by simp)]
      exact h3
    · exact (regsWithin_canEvent (W := fun _ => True) trivial (by decide) (RegsWithin.refl _)).events 145 (by decide)
        (by rw [evSet_setRg _ _ _ _ (by simp)]; exact he3)

/-- The transmitter's delay is no counter. -/
theorem rg_tec_tdcAtError (s : State) (c : Nat) (edges : Option (List Nat)) :
    (s.tdcAtError c edges).rg (F.BX_CAN_STAT_TEC c) = s.rg (F.BX_CAN_STAT_TEC c) := by
  have sat (u : State) (v : Nat) : (u.setRg (F.BX_CAN_STAT_TDC_SAT c) v).rg (F.BX_CAN_STAT_TEC c) =
      u.rg (F.BX_CAN_STAT_TEC c) := by simp
  unfold tdcAtError
  split
  · unfold noteTdc
    dsimp only
    split
    · split
      · split
        · rw [rg_canEvent _ _ _ _ (by simp; omega) (by decide), sat]; simp
        · rw [sat]; simp
      · exact sat _ _
    · exact sat _ _
  · rfl

/-- A sender whose error takes TEC past 255 goes bus off (R311, R313). -/
theorem canErrorMet_sender {s : State} {c : Nat} (code : Nat) (severe : Bool) (hm : s.canMode c = 0)
    (ha : (s.canOf c).active.isSome = true) (ht : 248 ≤ s.rg (F.BX_CAN_STAT_TEC c)) :
    s.canErrorMet c code false severe false =
      ((((s.errorNoted c code true).objFails c).sendErrorFrame c).setCounters c (s.rg (F.BX_CAN_STAT_TEC c) + 8)
        (s.rg (F.BX_CAN_STAT_REC c))).busOff c := by
  have hn : (s.canOf c).active.isNone = false := by
    rw [Option.isNone_eq_false_iff]; exact ha
  unfold canErrorMet
  simp only [hn, ha, hm, Bool.and_false, Bool.false_eq_true, if_false, if_true, errorNoted, Bool.not_false, and_self,
    OfNat.zero_ne_ofNat, Nat.zero_ne_one, or_self, show s.rg (F.BX_CAN_STAT_TEC c) + 8 > 255 by omega]

theorem noteFb_bx (s : State) : s.noteFb.bx = s.bx :=
  (moves_noteFb (ps := [.regs, .pw]) (List.Subset.refl _) (moves_refl s)).1 .bx (by decide)

theorem evSet_noteFb (s : State) {n : Nat} (h : s.evSet n = true) : s.noteFb.evSet n = true := by
  unfold noteFb
  split
  · rw [evSet, rg_wr_ne _ _ _ _ (by simp [R.SV_START_FB])]
    exact h
  · exact h

end State

open State

/-- Settles O41. -/
theorem canStateCommands : Obligations.CanStateCommands := by
  unfold Obligations.CanStateCommands
  refine ⟨?active, ?passive, ?config, ?recover, ?recoverOther, ?recovered, ?exception, ?receiver, ?within, ?busOff⟩
  case active =>
    intro c s hc h2 ht hr
    show ∃ t, execCanIntegrated c s = _ ∧ _
    have h3 := toCanState_shows s c (st := 3) (by decide)
    rw [execCanIntegrated, decide_eq_true hc, only_true, if_pos h2,
      judgePassive_active h3 (by simpa [toCanState] using ht) (by simpa [toCanState] using hr)]
    refine ⟨_, rfl, ?_, noteFb_bx _⟩
    rw [canState, rg_noteFb _ _ (by simp [R.SV_START_FB])]
    exact h3
  case passive =>
    intro c s hc hu h2 h
    show ∃ t, execCanIntegrated c s = _ ∧ _
    have h3 := toCanState_shows s c (st := 3) (by decide)
    rw [execCanIntegrated, decide_eq_true hc, only_true, if_pos h2, judgePassive_passive h3 (by simpa [toCanState] using h)]
    refine ⟨_, rfl, ?_, evSet_noteFb _ (evSet_canEvent _ 0 c hu)⟩
    rw [canState, rg_noteFb _ _ (by simp [R.SV_START_FB]), rg_canEvent _ _ _ _ (by simp; omega) (by decide)]
    exact toCanState_shows _ c (by decide)
  case config =>
    intro c old s hc ho h7 ha
    show ∃ t, execCanConfigApplied c s = _ ∧ _
    rw [execCanConfigApplied, decide_eq_true hc, only_true, ho]
    dsimp only
    rw [if_neg (by simp [h7, ha])]
    obtain ⟨hcan, hstate⟩ := canApply_shows s c old
    refine ⟨_, rfl, by rw [hcan], by rw [hcan], hstate⟩
  case recover =>
    intro a c s hc hr h5
    show ∃ t, execCanRecover a c s = _ ∧ _
    rw [execCanRecover, decide_eq_true hc, only_true, byAgent_reaches _ _ _ hr, if_pos h5]
    refine ⟨_, rfl, ?_, ?_, ?_⟩ <;> simp [canState, toCanState]
  case recoverOther =>
    intro a c s hc hr h5
    show execCanRecover a c s = _
    rw [execCanRecover, decide_eq_true hc, only_true, byAgent_reaches _ _ _ hr, if_neg h5]
    rfl
  case recovered =>
    intro c s hc hu h6
    show ∃ t, execCanRecoveryDone c s = _ ∧ _
    rw [execCanRecoveryDone, decide_eq_true hc, only_true, if_pos h6]
    obtain ⟨htec, hrec, -⟩ := setCounters_shows s c 0 0
    have hu' : (s.setCounters c 0 0).socUp = true := (setCounters_socUp s c 0 0).trans hu
    generalize s.setCounters c 0 0 = u at htec hrec hu' ⊢
    refine ⟨_, rfl, ?_, ?_, ?_, evSet_canEvent _ 2 c (by rw [toCanState, socUp_setRg]; exact hu')⟩
    · rw [canState, rg_canEvent _ _ _ _ (by simp; omega) (by decide)]
      exact toCanState_shows _ c (by decide)
    · rw [rg_canEvent _ _ _ _ (by simp; omega) (by decide)]
      simpa [toCanState] using htec
    · rw [rg_canEvent _ _ _ _ (by simp; omega) (by decide)]
      simpa [toCanState] using hrec
  case exception =>
    intro c xl s hc hu hl ht hp
    show ∃ t, execCanProtocolException c xl s = _ ∧ _
    rw [execCanProtocolException, decide_eq_true hc, only_true, if_pos ⟨hl, by rw [ht]; rfl⟩, if_pos hp]
    refine ⟨_, rfl, toCanState_shows _ c (by decide), ?_, ?_⟩
    · rw [toCanState, evSet_setRg _ _ _ _ (by simp)]
      exact evSet_canEvent _ 8 c (by rw [socUp_bump]; exact hu)
    · rw [toCanState, rg_setRg_other _ _ _ _ (by simp) (by simp) (.inl (by simp)),
        rg_canEvent _ _ _ _ (by simp; omega) (by decide)]
      simp
  case receiver =>
    intro c code exempt edges s hc h0 h7 h3 hm ha ht hr
    have hl : s.canLive c = true := by simp [canLive, h3]
    rw [exec_canBusError hc h0 h7 hl, tdcAtError_of_idle ha, canErrorMet_idle code false exempt hm ha (by simp) (by omega)]
    have h3' : ((s.errorNoted c code false).sendErrorFrame c).canState c = 3 := by
      rw [canState, rg_sendErrorFrame _ _ _ (by simp), rg_errorNoted _ _ _ _ _ (by simp)]
      exact h3
    obtain ⟨htec, hrec, hst⟩ := setCounters_shows ((s.errorNoted c code false).sendErrorFrame c) c
      (s.rg (F.BX_CAN_STAT_TEC c)) (s.rg (F.BX_CAN_STAT_REC c) + 1)
    simp only [Bool.false_eq_true, if_false]
    rw [judgePassive_setCounters h3' ht hr]
    refine ⟨_, rfl, hst.trans h3', ?_, by omega, by omega, ?_, ?_⟩
    · rw [rg_setCounters _ _ _ _ _ (by simp) (by simp; omega), rg_sendErrorFrame _ _ _ (by simp)]
      exact errorNoted_lec s c false (by omega)
    · have hsent := sendErrorFrame_sends (s := s.errorNoted c code false) (c := c)
        (by rw [errorNoted_canMode, hm]; decide)
      rw [show (s.errorNoted c code false).canState c = 3 from (rg_errorNoted _ _ _ _ _ (by simp)).trans h3] at hsent
      exact sent (moves_setCounters (ps := [.out, .regs, .scope]) (List.Subset.refl _) (moves_refl _)) hsent
    · rw [rg_setCounters _ _ _ _ _ (by simp) (by simp; omega), sendErrorFrame_counts, rg_errorNoted _ _ _ _ _ (by simp)]
  case within =>
    intro c code exempt edges s hc h0 h7 h3 hm ha he ht hr
    have hl : s.canLive c = true := by simp [canLive, h3]
    rw [exec_canBusError hc h0 h7 hl, tdcAtError_of_idle ha, canErrorMet_idle code true exempt hm ha (fun _ => he) (by omega)]
    have h3' : (s.errorNoted c code false).canState c = 3 := (rg_errorNoted _ _ _ _ _ (by simp)).trans h3
    obtain ⟨htec, hrec, hst⟩ := setCounters_shows (s.errorNoted c code false) c
      (s.rg (F.BX_CAN_STAT_TEC c)) (s.rg (F.BX_CAN_STAT_REC c) + 8)
    simp only [if_true]
    rw [judgePassive_setCounters h3' ht hr]
    refine ⟨_, rfl, hst.trans h3', by omega, by omega, ?_⟩
    rw [rg_setCounters _ _ _ _ _ (by simp) (by simp; omega), rg_errorNoted _ _ _ _ _ (by simp)]
  case busOff =>
    intro c code o f severe edges s hc h0 h7 ho hu hl hm ha ht
    rw [exec_canBusError hc h0 h7 hl]
    have hk : moves [.out, .regs, .scope] s (s.tdcAtError c edges) := moves_tdcAtError (List.Subset.refl _) (moves_refl s)
    have hcan : (s.tdcAtError c edges).canOf c = s.canOf c := canOf_congr (hk.1 .bx (by decide)) c
    have hcm : (s.tdcAtError c edges).canMode c = 0 := by
      rw [canMode, canRf_congr (s := s) (by rw [hcan]) (hk.1 .active (by decide))]; exact hm
    rw [canErrorMet_sender code severe hcm (by rw [hcan, ha]; rfl) (by rw [rg_tec_tdcAtError]; exact ht)]
    have hu' : (s.tdcAtError c edges).socUp = true := (socUp_congr (hk.1 .pw (by decide))).trans hu
    generalize s.tdcAtError c edges = u at hu' ⊢
    have hm2 : moves [.out, .regs, .scope, .bx] u ((u.errorNoted c code true).objFails c) :=
      moves_objFails (by decide) (moves_setCan (by decide) (moves_noteError (by decide) (moves_refl u)))
    have hidle := objFails_active (u.errorNoted c code true) c
    generalize (u.errorNoted c code true).objFails c = v at hm2 hidle ⊢
    have hm3 : moves [.out, .regs, .scope] v
        ((v.sendErrorFrame c).setCounters c (u.rg (F.BX_CAN_STAT_TEC c) + 8) (u.rg (F.BX_CAN_STAT_REC c))) :=
      moves_setCounters (by decide) (moves_sendErrorFrame (by decide) (moves_refl v))
    generalize (v.sendErrorFrame c).setCounters c (u.rg (F.BX_CAN_STAT_TEC c) + 8) (u.rg (F.BX_CAN_STAT_REC c)) = w at hm3 ⊢
    have huw : w.socUp = true := (socUp_congr ((hm3.1 .pw (by decide)).trans (hm2.1 .pw (by decide)))).trans hu'
    obtain ⟨hst, hev⟩ := busOff_shows w c huw
    refine ⟨_, rfl, hst, hev, ?_⟩
    have hb : (w.busOff c).bx = v.bx :=
      ((moves_busOff (ps := [.freeN, .out, .regs, .scope]) (List.Subset.refl _) (moves_refl w)).1 .bx (by decide)).trans
        (hm3.1 .bx (by decide))
    rw [canOf_congr hb]
    exact hidle

end Sys2Proof.Machine
end

section
/-!
PROOFS. The message objects of the CAN controllers (R302 to R310, R315, R317): each operation on an object writes that object's
words, its message RAM, the done bits and the event lists.
-/

namespace Sys2Proof.Machine

namespace State

/-! ### A fault record writes registers of block SV only (R509) -/

section
variable {W : Nat → Prop} {s0 s : State}

theorem regsWithin_ledgerAdd {ty : Nat} {p : List Byte} (hl : W F.SV_LEDGER_LOST_COUNT.off) (h : RegsWithin W s0 s) :
    RegsWithin W s0 (s.ledgerAdd ty p) := by
  unfold ledgerAdd
  split
  · exact h
  · split
    · exact RegsWithin.raise (by decide) (RegsWithin.bump hl (.inr (by decide)) (h.of_regs rfl rfl))
    · exact h.of_regs rfl rfl

theorem regsWithin_faultMerge {k : Nat} (hk : k < 256) (hW : ∀ off < 0x1000000, W off) (h : RegsWithin W s0 s) :
    RegsWithin W s0 (s.faultMerge k) :=
  (h.bump (hW _ (by simp; omega)) (.inr (by simp; omega))).setRg (hW _ (by simp; omega)) (.inr (by simp; omega))

theorem regsWithin_faultNew {cls unit addr : Nat} (hW : ∀ off < 0x1000000, W off) (h : RegsWithin W s0 s) :
    RegsWithin W s0 (s.faultNew cls unit addr) := by
  have hk : s.rg F.SV_FLT_HEAD_NEXT < 256 := Fld.get_lt F.SV_FLT_HEAD_NEXT _
  have seen : RegsWithin W s0 (if s.rg (F.SV_FLT_REC_W0_CLASS (s.rg F.SV_FLT_HEAD_NEXT)) ≠ 0 then
      s.bump F.SV_FLT_OVERWRITTEN_COUNT else s) :=
    RegsWithin.ite (h.bump (hW _ (by decide)) (.inr (by decide))) h
  unfold faultNew
  dsimp only
  generalize (if s.rg (F.SV_FLT_REC_W0_CLASS (s.rg F.SV_FLT_HEAD_NEXT)) ≠ 0 then
      s.bump F.SV_FLT_OVERWRITTEN_COUNT else s) = u at seen ⊢
  generalize s.rg F.SV_FLT_HEAD_NEXT = k at hk ⊢
  have put (v : State) (off : Nat) (w : Word) (hv : RegsWithin W s0 v) (h1 : off < 0x1000000) (h2 : 0x2020 ≤ off) :
      RegsWithin W s0 (v.wr off w) := hv.wr w (hW _ h1) (.inr h2)
  have set (v : State) (f : Fld) (n : Nat) (hv : RegsWithin W s0 v) (h1 : f.off < 0x1000000) (h2 : 0x2020 ≤ f.off) :
      RegsWithin W s0 (v.setRg f n) := hv.setRg (hW _ h1) (.inr h2)
  refine RegsWithin.raise (by decide) (set _ _ _ (set _ _ _ (set _ _ _ (put _ _ _ (put _ _ _ (put _ _ _ (put _ _ _
    (put _ _ _ (put _ _ _ (put _ _ _ (put _ _ _ ?_ ?_ ?_) ?_ ?_) ?_ ?_) ?_ ?_) ?_ ?_) ?_ ?_) ?_ ?_) ?_ ?_) ?_ ?_) ?_ ?_) ?_ ?_)
  · exact seen.of_regs rfl rfl
  all_goals (simp [R.SV_FLT_REC_W0, R.SV_FLT_REC_W1, R.SV_FLT_REC_W2, R.SV_FLT_REC_W3, R.SV_FLT_REC_W4, R.SV_FLT_REC_W5,
    R.SV_FLT_REC_W6, R.SV_FLT_REC_W7] <;> omega)

theorem regsWithin_fault {cls unit addr lost : Nat} (hc : cls < 256) (hW : ∀ off < 0x1000000, W off) (h : RegsWithin W s0 s) :
    RegsWithin W s0 (s.fault cls unit addr lost) := by
  have counted : RegsWithin W s0 (s.bump (F.SV_FLT_COUNT_COUNT cls)) :=
    h.bump (hW _ (by simp; omega)) (.inr (by simp; omega))
  unfold fault
  dsimp only
  generalize s.bump (F.SV_FLT_COUNT_COUNT cls) = u at counted ⊢
  have noted (c : Prop) (i : Decidable c) (k : Nat) :
      RegsWithin W s0 (if c then u.faultMerge (k % 256) else u.faultNew cls unit addr) :=
    RegsWithin.ite (regsWithin_faultMerge (Nat.mod_lt _ (by decide)) hW counted) (regsWithin_faultNew hW counted)
  split
  · exact regsWithin_ledgerAdd (hW _ (by decide)) (noted _ _ _)
  · exact noted _ _ _

end

/-! ### What an operation on one object writes -/

/-- The event lists and the done bits of controller c. -/
def noteRegs (c off : Nat) : Prop :=
  (0x5000100 ≤ off ∧ off < 0x5000130) ∨ (0x5100350 + 0x10000 * c ≤ off ∧ off < 0x5100360 + 0x10000 * c)

/-- The words of object o, beside those. -/
def oneObj (c o off : Nat) : Prop :=
  noteRegs c off ∨ (0x5102000 + 0x10000 * c + 0x20 * o ≤ off ∧ off < 0x5102020 + 0x10000 * c + 0x20 * o)

theorem oneObj_of_note {c o off : Nat} (h : noteRegs c off) : oneObj c o off := .inl h

theorem oneObj_word {c o off : Nat} (h1 : 0x5102000 + 0x10000 * c + 0x20 * o ≤ off)
    (h2 : off < 0x5102020 + 0x10000 * c + 0x20 * o) : oneObj c o off := .inr ⟨h1, h2⟩

theorem noteRegs_event {c e : Nat} (h : e < 12) : noteRegs c (0x5000100 + 4 * e) := by unfold noteRegs; omega

theorem noteRegs_done {c o : Nat} (h : o < 128) : noteRegs c (0x5100350 + 0x10000 * c + 4 * (o / 32)) := by
  unfold noteRegs; omega

theorem oneObj_ends {s0 s : State} {c o st : Nat} (ho : o < 128) (h : RegsWithin (oneObj c o) s0 s) :
    RegsWithin (oneObj c o) s0 (s.objEnds c o st) :=
  regsWithin_objEnds (.inl (noteRegs_event (by decide : 6 < 12))) (.inl (noteRegs_done ho)) (oneObj_word (by omega) (by omega)) h

theorem oneObj_status {s0 s : State} {c o st : Nat} (h : RegsWithin (oneObj c o) s0 s) :
    RegsWithin (oneObj c o) s0 (s.setStatus c o st) :=
  regsWithin_setStatus (oneObj_word (by omega) (by omega)) h

/-- The status of another object stays. -/
theorem objStatus_of_oneObj {s t : State} {c o k : Nat} (h : RegsWithin (oneObj c o) s t) (hk : k < 128) (hko : k ≠ o) :
    t.objStatus c k = s.objStatus c k :=
  h.rg _ (by unfold oneObj noteRegs; simp only; omega) (.inr (by simp; omega))

theorem setStatus_shows (s : State) (c o : Nat) {st : Nat} (h : st < 16) : (s.setStatus c o st).objStatus c o = st := by
  rw [objStatus, setStatus, rg_setRg_self _ _ _ (by simp)]
  exact Nat.mod_eq_of_lt h

theorem objEvent_notes {s : State} {c o e : Nat} (ho : o < 128) (he : e < 12) : RegsWithin (noteRegs c) s (s.objEvent c o e) :=
  regsWithin_objEvent (noteRegs_event he) (by omega) (noteRegs_done ho) (RegsWithin.refl s)

theorem rg_noteRegs {s t : State} {c : Nat} (h : RegsWithin (noteRegs c) s t) (f : Fld) (h1 : 0x5100360 + 0x10000 * c ≤ f.off) :
    t.rg f = s.rg f :=
  h.rg f (by unfold noteRegs; omega) (.inr (by omega))

/-- A terminal status shows. -/
theorem objEnds_shows (s : State) (c : Nat) {o st : Nat} (ho : o < 128) (h : st < 16) :
    (s.objEnds c o st).objStatus c o = st := by
  rw [objStatus, objEnds, rg_noteRegs (objEvent_notes ho (by decide)) _ (by simp; omega)]
  exact setStatus_shows _ c o h

theorem objEnds_bx (s : State) (c o st : Nat) : (s.objEnds c o st).bx = s.bx :=
  (moves_objEnds (ps := [.out, .regs, .scope]) (List.Subset.refl _) (moves_refl s)).1 .bx (by decide)

/-! ### The controller's own status and error registers -/

/-- The status and error registers of controller c, beside the event lists. -/
def ctlRegs (c off : Nat) : Prop :=
  noteRegs c off ∨ off = 0x5100100 + 0x10000 * c ∨ off = 0x5100104 + 0x10000 * c

section
variable {s0 s : State} {c : Nat}

theorem ctlRegs_event {e : Nat} (he : e < 12) (h : RegsWithin (ctlRegs c) s0 s) : RegsWithin (ctlRegs c) s0 (s.canEvent e c) :=
  regsWithin_canEvent (.inl (noteRegs_event he)) (by omega) h

theorem ctlRegs_set {f : Fld} {v : Nat} (hf : f.off = 0x5100100 + 0x10000 * c ∨ f.off = 0x5100104 + 0x10000 * c)
    (h : RegsWithin (ctlRegs c) s0 s) : RegsWithin (ctlRegs c) s0 (s.setRg f v) :=
  h.setRg (.inr hf) (.inr (by omega))

theorem ctlRegs_setCounters {t r : Nat} (h : RegsWithin (ctlRegs c) s0 s) : RegsWithin (ctlRegs c) s0 (s.setCounters c t r) := by
  have hw (w : Nat) : RegsWithin (ctlRegs c) s0 (((s.setRg (F.BX_CAN_STAT_TEC c) (min t 255)).setRg (F.BX_CAN_STAT_REC c)
      (min r 255)).setRg (F.BX_CAN_STAT_WARN c) w) :=
    ctlRegs_set (.inl rfl) (ctlRegs_set (.inl rfl) (ctlRegs_set (.inl rfl) h))
  unfold setCounters
  dsimp only
  generalize (if t ≥ 96 ∨ r ≥ 96 then 1 else 0) = w
  split
  · exact ctlRegs_event (by decide) (hw w)
  · exact hw w

theorem ctlRegs_judgePassive (h : RegsWithin (ctlRegs c) s0 s) : RegsWithin (ctlRegs c) s0 (s.judgePassive c) := by
  have goes (st : Nat) : RegsWithin (ctlRegs c) s0 (s.toCanState c st) := ctlRegs_set (.inl rfl) h
  unfold judgePassive
  dsimp only
  split
  · exact ctlRegs_event (by decide) (goes 4)
  · split
    · exact goes 3
    · exact h

theorem ctlRegs_txCredit (h : RegsWithin (ctlRegs c) s0 s) : RegsWithin (ctlRegs c) s0 (s.txCredit c) :=
  RegsWithin.ite h (ctlRegs_judgePassive (ctlRegs_setCounters h))

theorem ctlRegs_rxCredit (h : RegsWithin (ctlRegs c) s0 s) : RegsWithin (ctlRegs c) s0 (s.rxCredit c) :=
  RegsWithin.ite h (RegsWithin.ite (ctlRegs_judgePassive (ctlRegs_setCounters (h.of_regs rfl rfl)))
    (ctlRegs_judgePassive (ctlRegs_setCounters h)))

theorem ctlRegs_noteTdc {edges : Option (List Nat)} {f : CanFrame} (h : RegsWithin (ctlRegs c) s0 s) :
    RegsWithin (ctlRegs c) s0 (s.noteTdc c edges f) := by
  have sat (u : State) (v : Nat) (k : RegsWithin (ctlRegs c) s0 u) :
      RegsWithin (ctlRegs c) s0 (u.setRg (F.BX_CAN_STAT_TDC_SAT c) v) := ctlRegs_set (.inl rfl) k
  have delay (v : Nat) : RegsWithin (ctlRegs c) s0 (s.setRg (F.BX_CAN_ERR_TDCV c) v) := ctlRegs_set (.inr rfl) h
  unfold noteTdc
  dsimp only
  split
  · split
    · split
      · exact ctlRegs_event (by decide) (sat _ _ (delay _))
      · exact sat _ _ (delay _)
    · exact sat _ _ h
  · exact sat _ _ h

theorem ctlRegs_tdcAtError {edges : Option (List Nat)} (h : RegsWithin (ctlRegs c) s0 s) :
    RegsWithin (ctlRegs c) s0 (s.tdcAtError c edges) := by
  unfold tdcAtError
  split
  · exact ctlRegs_noteTdc h
  · exact h

end

/-- A counter of the controller, or a word of an object, is no status register. -/
theorem rg_ctlRegs {s t : State} {c : Nat} (h : RegsWithin (ctlRegs c) s t) (f : Fld)
    (h1 : 0x5100200 + 0x10000 * c ≤ f.off) (h2 : f.off < 0x5100350 + 0x10000 * c ∨ 0x5100360 + 0x10000 * c ≤ f.off) :
    t.rg f = s.rg f :=
  h.rg f (by unfold ctlRegs noteRegs; omega) (.inr (by omega))

theorem rg_oneObj {s t : State} {c o : Nat} (h : RegsWithin (oneObj c o) s t) (f : Fld)
    (h1 : 0x5100200 + 0x10000 * c ≤ f.off) (h2 : f.off < 0x5100350 + 0x10000 * c) : t.rg f = s.rg f :=
  h.rg f (by unfold oneObj noteRegs; omega) (.inr (by omega))

/-! ### The end of a transmission -/

theorem objStatus_answer (s : State) (r : Resp) (c o : Nat) : (s.answer r).objStatus c o = s.objStatus c o := rfl

/-- An object that fails without a request to cancel and without ONESHOT waits again (R304). -/
theorem objFails_retries {s : State} {c o : Nat} {f : CanFrame} (ha : (s.canOf c).active = some (o, f))
    (hr : s.rg (F.BX_CAN_OBJ_W0_CANCEL_REQ c o) ≠ 1) (hs : rfGet (s.canRf c) (F.BX_CAN_OBJCFG_W2_ONESHOT c o) ≠ 1) :
    s.objFails c = (s.setCan c { s.canOf c with active := none, chosen := none }).setStatus c o 1 := by
  simp [objFails, ha, setCan_rg, hr, hs]

theorem canOf_emit (s : State) (x : Output) (c : Nat) : (s.emit x).canOf c = s.canOf c := rfl

theorem rg_emit (s : State) (x : Output) (f : Fld) : (s.emit x).rg f = s.rg f := rfl

theorem setStatus_bx (s : State) (c o st : Nat) : (s.setStatus c o st).bx = s.bx := rfl

/-- The frame on the bus is gone and its delay is measured (R296, R304). -/
def sentMeasured (s : State) (c : Nat) (edges : List Nat) (f : CanFrame) : State :=
  (s.setCan c { s.canOf c with active := none, errTx := false }).noteTdc c (some edges) f

/-- The object's words take the stamp and the length of the frame sent (R309, R310). -/
def sentWords (s : State) (c o stamp len : Nat) : State :=
  ((s.objStamp c o stamp).tick (F.BX_CAN_OBJ_W0_SEQ c o)).setRg (F.BX_CAN_OBJ_W3_LEN c o) len

theorem canSent_of_bus {s : State} {c o : Nat} {edges : List Nat} {f : CanFrame} (hm : s.canMode c ≠ 3)
    (hr : s.rg (F.BX_CAN_OBJ_W0_CANCEL_REQ c o) ≠ 1) :
    s.canSent c o edges f =
      ((((((s.sentMeasured c edges f).bump (F.BX_CAN_TX_FRAMES_COUNT c)).txCredit c).sentWords c o (s.canOf c).started
        f.data.length).objEnds c o 3)).emit (.canFrame c f) := by
  simp [canSent, sentMeasured, sentWords, hm, hr]

theorem oneObj_sentWords {s : State} {c o stamp len : Nat} : RegsWithin (oneObj c o) s (s.sentWords c o stamp len) := by
  have h5 := regsWithin_objStamp (W := oneObj c o) (c := c) (o := o) (t := stamp) (oneObj_word (by omega) (by omega))
    (oneObj_word (by omega) (by omega)) (RegsWithin.refl s)
  unfold sentWords
  exact (h5.setRg (oneObj_word (by dsimp only; omega) (by dsimp only; omega)) (.inr (by simp; omega))).setRg (oneObj_word (by dsimp only; omega) (by dsimp only; omega))
    (.inr (by simp; omega))

theorem sentWords_bx (s : State) (c o stamp len : Nat) : (s.sentWords c o stamp len).bx = s.bx := rfl

theorem sentMeasured_canOf (s : State) (c : Nat) (edges : List Nat) (f : CanFrame) :
    (s.sentMeasured c edges f).canOf c = { s.canOf c with active := none, errTx := false } := by
  rw [sentMeasured, canOf_congr ((moves_noteTdc (ps := [.out, .regs, .scope]) (List.Subset.refl _) (moves_refl _)).1 .bx
    (by decide)), canOf_setCan_same]

theorem txCredit_bx (s : State) (c : Nat) : (s.txCredit c).bx = s.bx :=
  (moves_txCredit (ps := [.out, .regs, .scope]) (List.Subset.refl _) (moves_refl s)).1 .bx (by decide)

/-! ### Reception -/

theorem objAccepts_congr {s t : State} {c : Nat} (h : t.canRf c = s.canRf c) (o : Nat) (f : CanFrame) :
    t.objAccepts c o f = s.objAccepts c o f := by
  simp only [objAccepts, objCap, h]
  rfl

/-- Objects that do not accept the frame are passed (R307). -/
theorem offer_skips {s : State} {c : Nat} {f : CanFrame} {stamp : Nat} (l m : List Nat) (full : Bool)
    (h : ∀ k ∈ l, s.objAccepts c k f = false) : s.offer c f stamp (l ++ m) full = s.offer c f stamp m full := by
  induction l with
  | nil => rfl
  | cons k l ih =>
    rw [List.cons_append, offer, if_pos (by rw [h k List.mem_cons_self]; rfl)]
    exact ih (fun j hj => h j (List.mem_cons_of_mem _ hj))

theorem offer_takes {s : State} {c o : Nat} {f : CanFrame} {stamp : Nat} (ho : o < 128)
    (hn : ∀ k < o, s.objAccepts c k f = false) (ha : s.objAccepts c o f = true) (hs : s.objStatus c o ≠ 0xC) :
    s.offer c f stamp (List.range 128) false = s.objTakes c o f stamp := by
  obtain ⟨m, hm⟩ : ∃ m, List.range 128 = List.range o ++ o :: m := by
    obtain ⟨n, hn⟩ := Nat.exists_eq_add_of_lt ho
    exact ⟨_, by rw [hn, show o + n + 1 = o + (n + 1) by omega, List.range_add, List.range_succ_eq_map, List.map_cons]; rfl⟩
  rw [hm, offer_skips _ _ _ (fun k hk => hn k (List.mem_range.mp hk)), offer, if_neg (by rw [ha]; decide), if_pos hs]

theorem offer_none {s : State} {c : Nat} {f : CanFrame} {stamp : Nat} (hn : ∀ k < 128, s.objAccepts c k f = false) :
    s.offer c f stamp (List.range 128) false = s.bump (F.BX_CAN_RX_NOMATCH_COUNT c) := by
  have h := offer_skips (s := s) (c := c) (f := f) (stamp := stamp) (List.range 128) [] false
    (fun k hk => hn k (List.mem_range.mp hk))
  rw [List.append_nil] at h
  rw [h, offer, if_neg (by decide)]

/-- A frame received and credited, before it is offered to the objects. -/
def credited (s : State) (c : Nat) : State :=
  (((s.sendAck c).setCan c { (s.sendAck c).canOf c with errTx := false }).bump (F.BX_CAN_RX_FRAMES_COUNT c)).rxCredit c

theorem sendAck_regs (s : State) (c : Nat) : (s.sendAck c).regs = s.regs := by
  unfold sendAck
  split <;> rfl

theorem credited_counts (s : State) (c : Nat) :
    (s.credited c).rg (F.BX_CAN_RX_FRAMES_COUNT c) = min (s.rg (F.BX_CAN_RX_FRAMES_COUNT c) + 1) (2 ^ 32 - 1) := by
  rw [credited, rg_ctlRegs (ctlRegs_rxCredit (RegsWithin.refl _)) _ (by simp) (by simp), rg_bump_self _ _ _ (by simp),
    setCan_rg, rg_congr (sendAck_regs s c)]

theorem rg_credited (s : State) (c : Nat) (f : Fld) (h1 : 0x5100208 + 0x10000 * c ≤ f.off)
    (h2 : f.off < 0x5100350 + 0x10000 * c ∨ 0x5100360 + 0x10000 * c ≤ f.off) : (s.credited c).rg f = s.rg f := by
  rw [credited, rg_ctlRegs (ctlRegs_rxCredit (RegsWithin.refl _)) _ (by omega) h2, rg_eq,
    rd_bump_other _ _ _ _ (by dsimp only; omega)]
  exact rg_congr (sendAck_regs s c) f

theorem credited_moves (s : State) (c : Nat) : moves [.freeN, .out, .regs, .scope] ((s.sendAck c).setCan c
    { (s.sendAck c).canOf c with errTx := false }) (s.credited c) :=
  moves_rxCredit (List.Subset.refl _) (moves_bump (by decide) (moves_refl _))

theorem sendAck_bx (s : State) (c : Nat) : (s.sendAck c).bx = s.bx := by
  unfold sendAck
  split <;> rfl

theorem sendAck_active (s : State) (c : Nat) : (s.sendAck c).active = s.active := by
  unfold sendAck
  split <;> rfl

theorem credited_canRf (s : State) (c : Nat) : (s.credited c).canRf c = s.canRf c := by
  have hm := credited_moves s c
  refine canRf_congr ?_ ((hm.1 .active (by decide)).trans (sendAck_active s c))
  rw [canOf_congr (hm.1 .bx (by decide)), canOf_setCan_same]
  rw [← canOf_congr (sendAck_bx s c) c]

theorem credited_acks {s : State} {c : Nat} (h : s.canMode c = 0 ∨ s.canMode c = 2) : .canAck c ∈ (s.credited c).out := by
  refine sent (credited_moves s c) ?_
  show .canAck c ∈ (s.sendAck c).out
  rw [sendAck, if_pos h]
  exact mem_emit _ _

/-! ### A frame fills an object (R309) -/

/-- The registers of the object, the message RAM and what notes its reception. -/
def takeRegs (c o off : Nat) : Prop := oneObj c o off ∨ 0x5104000 + 0x10000 * c ≤ off

/-- The message RAM of controller c and what stands behind it. -/
def ramRegs (c off : Nat) : Prop := 0x5104000 + 0x10000 * c ≤ off

theorem ramRegs_putData {s : State} {c o : Nat} {bs : List Byte} : RegsWithin (ramRegs c) s (s.putData c o bs) := by
  unfold putData
  refine RegsWithin.of_regs (RegsWithin.forEach (fun u x k => ?_) _ (RegsWithin.refl s)) rfl rfl
  exact k.wr _ (by simp [ramRegs, R.BX_CAN_RAM]) (.inr (by simp [R.BX_CAN_RAM]; omega))

/-- The header of the frame stands in the object's words. -/
theorem putHeader_id (s : State) (c o : Nat) (f : CanFrame) (len : Nat) :
    (s.putHeader c o f len).rg (F.BX_CAN_OBJ_W1_ID c o) = f.id % 2 ^ 29 := by
  unfold putHeader
  dsimp only
  rw [rg_eq, rd_wr_other _ _ _ _ (by simp [R.BX_CAN_OBJ_W4]), rd_wr_other _ _ _ _ (by simp [R.BX_CAN_OBJ_W3]),
    rd_wr_other _ _ _ _ (by simp [R.BX_CAN_OBJ_W2]), rd_wr_self, Fld.get_eq]
  generalize (if f.ide = true then 1 else 0) = x
  generalize (if f.rtr = true then 1 else 0) = y
  simp only [Word.ofNat, BitVec.toNat_ofNat]
  omega

/-- An object's words and data before its status tells of them. -/
def filled (s : State) (c o : Nat) (f : CanFrame) (stamp : Nat) : State :=
  (((((s.putHeader c o f f.data.length).putData c o f.data).objStamp c o stamp).setStatus c o 0xC).tick
    (F.BX_CAN_OBJ_W0_SEQ c o))

/-- A filled object notes its reception. -/
theorem objTakes_notes (s : State) {c o : Nat} (f : CanFrame) (stamp : Nat) (ho : o < 128) :
    RegsWithin (noteRegs c) (s.filled c o f stamp) (s.objTakes c o f stamp) := by
  unfold objTakes
  refine (RegsWithin.of_regs (RegsWithin.refl (s.filled c o f stamp)) ?_ ?_).trans (objEvent_notes ho (by decide))
  · split <;> rfl
  · split <;> rfl

theorem rd_putData (s : State) (c o : Nat) (bs : List Byte) {off : Nat} (h1 : 0x5100000 ≤ off)
    (h : off < 0x5104000 + 0x10000 * c) : (s.putData c o bs).rd off = s.rd off :=
  ramRegs_putData.rd off (by unfold ramRegs; omega) (.inr (by omega))

theorem filled_id (s : State) {c o : Nat} (f : CanFrame) (stamp : Nat) (ho : o < 128) :
    (s.filled c o f stamp).rg (F.BX_CAN_OBJ_W1_ID c o) = f.id % 2 ^ 29 := by
  rw [← putHeader_id s c o f f.data.length, filled, rg_tick_other _ _ _ _ (by simp) (by simp) (by simp), setStatus,
    rg_setRg_other _ _ _ _ (by simp) (by simp) (by simp), objStamp, rg_wr_other _ _ _ _ (by simp [R.BX_CAN_OBJ_W6]),
    rg_wr_other _ _ _ _ (by simp [R.BX_CAN_OBJ_W5]), rg_eq, rd_putData _ _ _ _ (by dsimp only; omega) (by dsimp only; omega)]
  rfl

/-- A frame that fills object o: its identifier, its stamp and the status show. -/
theorem objTakes_shows (s : State) {c o : Nat} (f : CanFrame) (stamp : Nat) (ho : o < 128) :
    (s.objTakes c o f stamp).objStatus c o = 0xC ∧ (s.objTakes c o f stamp).rg (F.BX_CAN_OBJ_W1_ID c o) = f.id % 2 ^ 29 ∧
      (s.objTakes c o f stamp).rd (R.BX_CAN_OBJ_W5 c o) = Word.ofNat stamp := by
  have hn := objTakes_notes s f stamp ho (c := c)
  refine ⟨?_, ?_, ?_⟩
  · rw [objStatus, rg_noteRegs hn _ (by dsimp only; omega), filled, rg_tick_other _ _ _ _ (by simp) (by simp) (by simp)]
    exact setStatus_shows _ c o (by decide)
  · rw [rg_noteRegs hn _ (by dsimp only; omega), filled_id s f stamp ho]
  · rw [hn.rd _ (by unfold noteRegs R.BX_CAN_OBJ_W5; omega) (.inr (by simp [R.BX_CAN_OBJ_W5]; omega)), filled, State.tick,
      rd_setRg_other _ _ _ _ (by simp [R.BX_CAN_OBJ_W5]), setStatus, rd_setRg_other _ _ _ _ (by simp [R.BX_CAN_OBJ_W5]),
      objStamp, rd_wr_other _ _ _ _ (by simp [R.BX_CAN_OBJ_W5, R.BX_CAN_OBJ_W6]), rd_wr_self]

/-- Its counters stay. -/
theorem rg_objTakes (s : State) {c o : Nat} (f : CanFrame) (stamp : Nat) (ho : o < 128) (g : Fld)
    (h1 : 0x5100200 + 0x10000 * c ≤ g.off) (h2 : g.off < 0x5100350 + 0x10000 * c) :
    (s.objTakes c o f stamp).rg g = s.rg g := by
  have hn := objTakes_notes s f stamp ho (c := c)
  rw [hn.rg g (by unfold noteRegs; omega) (.inr (by omega)), rg_eq, filled, State.tick,
    rd_setRg_other _ _ _ _ (by dsimp only; omega), setStatus, rd_setRg_other _ _ _ _ (by dsimp only; omega), objStamp,
    rd_wr_other _ _ _ _ (by simp only [R.BX_CAN_OBJ_W6]; omega), rd_wr_other _ _ _ _ (by simp only [R.BX_CAN_OBJ_W5]; omega),
    rd_putData _ _ _ _ (by omega) (by omega), putHeader]
  dsimp only
  rw [rd_wr_other _ _ _ _ (by simp only [R.BX_CAN_OBJ_W4]; omega), rd_wr_other _ _ _ _ (by simp only [R.BX_CAN_OBJ_W3]; omega),
    rd_wr_other _ _ _ _ (by simp only [R.BX_CAN_OBJ_W2]; omega), rd_wr_other _ _ _ _ (by simp only [R.BX_CAN_OBJ_W1]; omega)]
  rfl

/-! ### A word that can not be read (R317) -/

theorem ramLost_bad (s : State) (c w : Nat) : (s.ramLost c w).ramBad c w = true := by
  rw [ramBad, ramLost, canOf_setCan_same]
  exact List.any_eq_true.mpr ⟨w / 2 * 2, List.mem_cons_self, decide_eq_true (by omega)⟩

end State

open State

/-! ### Requests of software -/

theorem wordObjs_lt {w o : Nat} {data : Word} (hw : w < 4) (h : State.wordObjs w data = [o]) : o < 128 := by
  have hm : o ∈ State.wordObjs w data := by rw [h]; exact List.mem_singleton_self o
  obtain ⟨i, hi, rfl⟩ := List.mem_map.mp hm
  have := ((mem_maskList _ 32 i).mp hi).1
  omega

/-- A request of one object that is not the gateway's. -/
theorem bySoftware_one {s : State} {c w o : Nat} {data : Word} (h : State.wordObjs w data = [o])
    (hg : canGw (s.canRf c) c o = false) (f : State → Nat → State) : s.bySoftware c w data f = f s o := by
  simp [bySoftware, h, hg, State.forEach]

theorem canReq_accepted {s : State} {c o : Nat} (hi : canIs (s.canRf c) c o 1 = true) (h1 : s.objStatus c o ≠ 1)
    (h2 : s.objStatus c o ≠ 2) (hf : s.formatErr c o = false) (hb : s.busSds c = 0) : s.canReq c o = s.setStatus c o 1 := by
  have hb' : (s.setStatus c o 1).busSds c = 0 := hb
  simp [canReq, hi, h1, h2, hf, localTx, hb']

/-- A cancel of a PENDING object (R306): it is chosen no more and ends as CANCELLED. -/
theorem canCancel_pending {s : State} {c o : Nat} (ho : o < 128) (hi : canIs (s.canRf c) c o 1 = true)
    (h1 : s.objStatus c o = 1) :
    (s.canCancel c o).objStatus c o = 5 ∧ ∀ f, ((s.canCancel c o).canOf c).chosen ≠ some (o, f) := by
  simp only [canCancel, hi, h1, Bool.not_true, Bool.false_eq_true, if_false]
  refine ⟨objEnds_shows _ c ho (by decide), fun f hf => ?_⟩
  rw [canOf_congr (objEnds_bx _ c o 5)] at hf
  split at hf
  · rw [canOf_setCan_same] at hf
    exact absurd hf (by simp)
  · next hne => exact hne (by rw [hf]; rfl)

theorem canCancel_active {s : State} {c o : Nat} (hi : canIs (s.canRf c) c o 1 = true) (h2 : s.objStatus c o = 2) :
    s.canCancel c o = s.setRg (F.BX_CAN_OBJ_W0_CANCEL_REQ c o) 1 := by
  simp [canCancel, hi, h2]

theorem exec_canRxFrame {c stamp : Nat} {f : CanFrame} {s : State} (hc : c < 16) (hl : s.canLive c = true)
    (hm : s.canMode c ≠ 3) (ht : canTakes (s.canRf c) c f.format = true) :
    exec (.canRxFrame c f stamp) s = .next ((s.credited c).offer c f stamp (List.range 128) false) := by
  show execCanRxFrame c f stamp s = _
  rw [execCanRxFrame, decide_eq_true hc, only_true, if_pos ⟨hl, hm, ht⟩]
  rfl

/-- Settles O42. -/
theorem canObjectCommands : Obligations.CanObjectCommands := by
  unfold Obligations.CanObjectCommands
  refine ⟨?txreq, ?cancel, ?cancelActive, ?ack, ?choice, ?commit, ?sent, ?lost, ?taken, ?noMatch, ?uncorrectable⟩
  case txreq =>
    intro a c w o data s hc hw hr hd hg hi h1 h2 hf hb
    have ho := wordObjs_lt hw hd
    show ∃ t, execCanTxreq a c w data s = _ ∧ _
    rw [execCanTxreq, decide_eq_true ⟨hc, hw⟩, only_true, byAgent_reaches _ _ _ hr, bySoftware_one hd hg,
      canReq_accepted hi h1 h2 hf hb]
    refine ⟨_, rfl, setStatus_shows s c o (by decide), fun k hk hko => ?_⟩
    have hst : RegsWithin (oneObj c o) s (s.setStatus c o 1) := oneObj_status (RegsWithin.refl s)
    rw [objStatus_answer, objStatus_of_oneObj hst hk hko]
  case cancel =>
    intro a c w o data s hc hw hr hd hg hi h1
    have ho := wordObjs_lt hw hd
    show ∃ t, execCanTxcan a c w data s = _ ∧ _
    rw [execCanTxcan, decide_eq_true ⟨hc, hw⟩, only_true, byAgent_reaches _ _ _ hr, bySoftware_one hd hg]
    exact ⟨_, rfl, canCancel_pending ho hi h1⟩
  case cancelActive =>
    intro a c w o data s hc hw hr hd hg hi h2
    show ∃ t, execCanTxcan a c w data s = _ ∧ _
    rw [execCanTxcan, decide_eq_true ⟨hc, hw⟩, only_true, byAgent_reaches _ _ _ hr, bySoftware_one hd hg,
      canCancel_active hi h2]
    refine ⟨_, rfl, ?_, ?_⟩
    · simpa [objStatus] using h2
    · simp
  case ack =>
    intro a c w o data s hc hw hr hd hg hi
    show ∃ t, execCanRxack a c w data s = _ ∧ _
    rw [execCanRxack, decide_eq_true ⟨hc, hw⟩, only_true, byAgent_reaches _ _ _ hr, bySoftware_one hd hg, canAck, if_pos hi]
    refine ⟨_, rfl, ?_, ?_⟩ <;> simp [objStatus, setStatus]
  case choice =>
    intro c o word s hc hl hm ha ho hb hw
    show execCanTxChoice c 0 word s = _
    rw [execCanTxChoice, decide_eq_true hc, only_true, if_pos ⟨hl, hm, ha, ho⟩, hb]
    simp [objEcc, hw, msgRamEcc]
  case commit =>
    intro c o f s hc ho hl ha hold hch
    show ∃ t, execCanTxCommit c s = _ ∧ _
    rw [execCanTxCommit, decide_eq_true hc, only_true, if_pos ⟨hl, ha, hold⟩, hch]
    exact ⟨_, rfl, setStatus_shows s c o (by decide), canOf_setCan_same _ c _⟩
  case sent =>
    intro c o edges f s hc ho hl hm ha hr
    show ∃ t, execCanTxDone c edges s = _ ∧ _
    rw [execCanTxDone, decide_eq_true hc, only_true, ha]
    dsimp only
    rw [if_pos hl, canSent_of_bus hm hr]
    have hmeas : RegsWithin (ctlRegs c) s (s.sentMeasured c edges f) := ctlRegs_noteTdc ((RegsWithin.refl s).of_regs rfl rfl)
    have hcan := sentMeasured_canOf s c edges f
    have hcount : (s.sentMeasured c edges f).rg (F.BX_CAN_TX_FRAMES_COUNT c) = s.rg (F.BX_CAN_TX_FRAMES_COUNT c) :=
      rg_ctlRegs hmeas _ (by simp) (by simp)
    generalize s.sentMeasured c edges f = u at hcan hcount
    refine ⟨_, rfl, ?_, ?_, List.mem_cons_self, ?_⟩
    · exact objEnds_shows _ c ho (by decide)
    · rw [canOf_emit, canOf_congr (objEnds_bx _ c o 3), canOf_congr (sentWords_bx _ _ _ _ _), canOf_congr (txCredit_bx _ _)]
      exact (congrArg CanState.active hcan)
    · rw [rg_emit, rg_oneObj (oneObj_ends ho oneObj_sentWords) _ (by simp) (by simp),
        rg_ctlRegs (ctlRegs_txCredit (RegsWithin.refl _)) _ (by simp) (by simp)]
      simp [hcount]
  case lost =>
    intro c o f s hc ho ha hr hs
    show ∃ t, execCanArbLost c s = _ ∧ _
    rw [execCanArbLost, decide_eq_true hc, only_true, if_pos (by rw [ha]; rfl)]
    have hk : moves [.out, .regs, .scope] s (s.tdcAtError c none) := moves_tdcAtError (List.Subset.refl _) (moves_refl s)
    have hw : RegsWithin (ctlRegs c) s (s.tdcAtError c none) := ctlRegs_tdcAtError (RegsWithin.refl s)
    have hcount : (s.tdcAtError c none).rg (F.BX_CAN_ARB_LOST_COUNT c) = s.rg (F.BX_CAN_ARB_LOST_COUNT c) :=
      rg_ctlRegs hw _ (by simp) (by simp)
    have hreq : (s.tdcAtError c none).rg (F.BX_CAN_OBJ_W0_CANCEL_REQ c o) = s.rg (F.BX_CAN_OBJ_W0_CANCEL_REQ c o) :=
      rg_ctlRegs hw _ (by simp; omega) (by simp; omega)
    have hcan : (s.tdcAtError c none).canOf c = s.canOf c := canOf_congr (hk.1 .bx (by decide)) c
    have hrf : (s.tdcAtError c none).canRf c = s.canRf c := canRf_congr (by rw [hcan]) (hk.1 .active (by decide))
    generalize s.tdcAtError c none = u at hcount hreq hcan hrf ⊢
    have hfail := objFails_retries (s := u.bump (F.BX_CAN_ARB_LOST_COUNT c)) (c := c) (o := o) (f := f)
      ((congrArg CanState.active hcan).trans ha)
      (by rw [rg_bump_other _ _ _ _ (by simp) (by simp) (by simp), hreq]; exact hr)
      (by rw [show (u.bump (F.BX_CAN_ARB_LOST_COUNT c)).canRf c = u.canRf c from rfl, hrf]; exact hs)
    rw [hfail]
    refine ⟨_, rfl, setStatus_shows _ c o (by decide), ?_, ?_⟩
    · rw [canOf_congr (setStatus_bx _ c o 1), canOf_setCan_same]
    · rw [rg_oneObj (oneObj_status (RegsWithin.refl _)) _ (by simp) (by simp), setCan_rg]
      simp [hcount]
  case taken =>
    intro c o stamp f s hc ho hl hm ht hn ha hs
    have hacc (k : Nat) : (s.credited c).objAccepts c k f = s.objAccepts c k f := objAccepts_congr (credited_canRf s c) k f
    have hst : (s.credited c).objStatus c o = s.objStatus c o := rg_credited _ _ _ (by simp; omega) (by simp; omega)
    rw [exec_canRxFrame hc hl hm ht, offer_takes ho (fun k hk => (hacc k).trans (hn k hk)) ((hacc o).trans ha)
      (by rw [hst]; exact hs)]
    obtain ⟨hfull, hid, hstamp⟩ := objTakes_shows (s.credited c) (c := c) f stamp ho
    refine ⟨_, rfl, hfull, hid, hstamp, fun h => ?_, ?_⟩
    · exact sent (moves_objTakes (ps := [.out, .regs, .scope, .bx]) (List.Subset.refl _) (moves_refl _)) (credited_acks h)
    · rw [rg_objTakes _ f stamp ho _ (by simp) (by simp), credited_counts]
  case noMatch =>
    intro c stamp f s hc hl hm ht hn
    rw [exec_canRxFrame hc hl hm ht, offer_none (fun k hk => (objAccepts_congr (credited_canRf s c) k f).trans (hn k hk))]
    refine ⟨_, rfl, fun k hk => ?_, fun h => credited_acks h, ?_⟩
    · rw [objStatus, rg_bump_other _ _ _ _ (by simp) (by simp) (by simp), rg_credited _ _ _ (by simp; omega) (by simp; omega)]
      rfl
    · rw [rg_bump_self _ _ _ (by simp), rg_credited _ _ _ (by simp) (by simp)]
  case uncorrectable =>
    intro c o word s hc ho hl hm ha hold hb hw
    show ∃ t, execCanTxChoice c 2 word s = _ ∧ _
    rw [execCanTxChoice, decide_eq_true hc, only_true, if_pos ⟨hl, hm, ha, hold⟩, hb]
    simp only [objEcc, hw, msgRamEcc, if_true, OfNat.ofNat_ne_one, if_false]
    generalize (s.objWords c o (s.objLen c o)).getD word 0 = w
    have hm : moves [.out, .regs, .scope, .ob] ((s.ramLost c w).bump (F.BX_CAN_ECC_UE_COUNT c))
        (((s.ramLost c w).bump (F.BX_CAN_ECC_UE_COUNT c)).fault 0x0B c w) := moves_fault (List.Subset.refl _) (moves_refl _)
    have hcan : (((s.ramLost c w).bump (F.BX_CAN_ECC_UE_COUNT c)).fault 0x0B c w).canOf c = (s.ramLost c w).canOf c :=
      canOf_congr (hm.1 .bx (by decide)) c
    have hr : RegsWithin (fun off => off < 0x1000000) ((s.ramLost c w).bump (F.BX_CAN_ECC_UE_COUNT c))
        (((s.ramLost c w).bump (F.BX_CAN_ECC_UE_COUNT c)).fault 0x0B c w) :=
      regsWithin_fault (by decide) (fun _ h => h) (RegsWithin.refl _)
    have hcount : (((s.ramLost c w).bump (F.BX_CAN_ECC_UE_COUNT c)).fault 0x0B c w).rg (F.BX_CAN_ECC_UE_COUNT c) =
        min (s.rg (F.BX_CAN_ECC_UE_COUNT c) + 1) (2 ^ 32 - 1) := by
      rw [hr.rg _ (by dsimp only; omega) (.inr (by dsimp only; omega)), rg_bump_self _ _ _ (by simp)]
      rfl
    generalize ((s.ramLost c w).bump (F.BX_CAN_ECC_UE_COUNT c)).fault 0x0B c w = t at hcan hcount
    refine ⟨_, rfl, objEnds_shows _ c ho (by decide), ?_, ?_, ?_⟩
    · rw [canOf_congr (objEnds_bx _ c o 0xB), canOf_setCan_same]
    · rw [ramBad, canOf_congr (objEnds_bx _ c o 0xB), canOf_setCan_same, hcan]
      exact ramLost_bad s c w
    · rw [rg_oneObj (oneObj_ends ho (RegsWithin.refl _)) _ (by simp) (by simp), setCan_rg, hcount]

end Sys2Proof.Machine
end

section
/-!
PROOFS. Wakes and sleep domains (R403 to R418): two statements that leave a case of the model out, each refuted by a state.
-/

namespace Sys2Proof.Machine

/-! ### A controller that integrates while the gateway is in LISTEN sees no wake frame (R290, R411) -/

/-- In LISTEN, with CAN0 told to watch for any wake frame and its controller integrating. -/
def integratingInListen : State :=
  { (State.reset.setRg (F.BX_CAN_STAT_STATE 0) 2) with
    pw.power := .listen
    aon.cfg12 := rfSet [] (F.PW_CANWAKE_CFG_W0_WUF_EN 0) 1 }

theorem integratingInListen_watches : integratingInListen.masked (some 5) = false ∧
    integratingInListen.fold (F.PW_CANWAKE_CFG_W0_WUF_EN 0) = 1 ∧ integratingInListen.fold (F.PW_CANWAKE_CFG_W2_WUF_MASK 0) = 0 ∧
    integratingInListen.fold (F.PW_CANWAKE_CFG_W1_WUF_IDE 0) = 0 := by
  decide

/-- The frame starts nothing. -/
theorem integratingInListen_stays :
    (State.after (exec (.canWufReceived 0 0 false) integratingInListen) integratingInListen).pw.power = .listen := by
  decide

/-- Refutes O47: a wake frame on a bus whose transceiver is not in standby wakes nothing in LISTEN. -/
theorem not_wakeCommands : ¬ Obligations.WakeCommands := by
  unfold Obligations.WakeCommands
  rintro ⟨-, wakeFrame, -⟩
  obtain ⟨hmask, hen, hid, hide⟩ := integratingInListen_watches
  obtain ⟨t, hexec, hrising, -⟩ := wakeFrame 0 0 false integratingInListen (by decide) rfl hmask hen
    (by rw [hid]; decide) hide
  have stays := integratingInListen_stays
  rw [hexec] at stays
  exact absurd (hrising.symm.trans stays) (by decide)

/-! ### A command's wake is latched where a fold will start LISTEN entry (R85, R410) -/

/-- In RUN, domain 0 is FOLDING and is the only member, domain 1 is ASLEEP, and LISTEN is allowed. -/
def foldingToListen : State :=
  let s := State.reset
  { s with
    pw.power := .up
    active := [(0, rfSet [] F.SV_MODE_CFG_LISTEN_EN 1)]
    aon.cfg12 := rfSet (rfSet (rfSet [] (F.SV_SD_W0_VALID 0) 1) (F.SV_SD_W0_MEMBER 0) 1) (F.SV_SD_W0_VALID 1) 1
    aon.sd := [(0, { emptySd with state := 3 }), (1, { emptySd with state := 4 })] }

theorem foldingToListen_meets : foldingToListen.reaches .sv = true ∧ F.SV_FOLD_CMD_SD.get 0x101 ∈ foldingToListen.validSds ∧
    (foldingToListen.sdOf (F.SV_FOLD_CMD_SD.get 0x101)).state = 4 ∧
    (foldingToListen.sdOf (F.SV_FOLD_CMD_SD.get 0x101)).enforced = false := by
  decide

/-- The command's wake is latched and the domain stays ASLEEP. -/
theorem foldingToListen_latches :
    ((State.after (exec (.foldCmdWake .sv 0x101) foldingToListen) foldingToListen).sdOf (F.SV_FOLD_CMD_SD.get 0x101)).hold =
      false := by
  decide +kernel

/-- Refutes O46: FOLD_CMD WAKE of an ASLEEP domain does not bring it back where a fold past its commit point will start
LISTEN entry. -/
theorem not_foldStateCommands : ¬ Obligations.FoldStateCommands := by
  unfold Obligations.FoldStateCommands
  rintro ⟨-, -, -, commandWake, -⟩
  obtain ⟨hreach, hvalid, hasleep, henf⟩ := foldingToListen_meets
  obtain ⟨t, hexec, hhold, -⟩ := commandWake .sv 0x101 foldingToListen hreach (by decide) hvalid hasleep henf rfl rfl
  have latched := foldingToListen_latches
  rw [hexec] at latched
  exact absurd (hhold.symm.trans latched) (by decide)

end Sys2Proof.Machine
end

section
/-!
PROOFS. The load-switch channels (R427 to R443): what the operations on one channel show of it, and that they leave the other
channels alone.
-/

namespace Sys2Proof.Machine

namespace State

/-! ### What the operations on a channel write -/

/-- The registers of channel k, beside the last channel of an event. -/
def chRegs (k off : Nat) : Prop := off = 0xa001414 ∨ (0xa001004 + 0x40 * k ≤ off ∧ off < 0xa001044 + 0x40 * k)

/-- Between two states nothing of the channels but channel k's registers and heating state differs, beside the last channel
of an event; the settings of the protection stay. -/
structure ChWithin (k : Nat) (s t : State) : Prop where
  regs : RegsWithin (chRegs k) s t
  chans : ∀ j, j ≠ k → t.chOf j = s.chOf j
  settings : t.aon.cfg13 = s.aon.cfg13

namespace ChWithin

variable {s0 s : State} {k : Nat}

theorem refl (s : State) : ChWithin k s s := ⟨RegsWithin.refl s, fun _ _ => rfl, rfl⟩

theorem setRg {f : Fld} {v : Nat} (hw : chRegs k f.off) (he : f.off < 0x2000 ∨ 0x2020 ≤ f.off) (h : ChWithin k s0 s) :
    ChWithin k s0 (s.setRg f v) := ⟨h.regs.setRg hw he, h.chans, h.settings⟩

theorem bump {f : Fld} {n : Nat} (hw : chRegs k f.off) (he : f.off < 0x2000 ∨ 0x2020 ≤ f.off) (h : ChWithin k s0 s) :
    ChWithin k s0 (s.bump f n) := h.setRg hw he

end ChWithin

theorem chOf_setCh_same (s : State) (k : Nat) (x : Chan) : (s.setCh k x).chOf k = x := by
  simp [chOf, setCh]

theorem chOf_setCh_ne (s : State) {k j : Nat} (x : Chan) (h : j ≠ k) : (s.setCh k x).chOf j = s.chOf j := by
  simp [chOf, setCh, h]

theorem regsWithin_raisePw {W : Nat → Prop} {s0 s : State} {n : Nat} (hn : n < 256) (h : RegsWithin W s0 s) :
    RegsWithin W s0 (s.raisePw n) := by
  unfold raisePw
  split
  · exact h.raise hn
  · split
    · exact h
    · exact h.of_regs rfl rfl

/-- An event of the power die leaves the channels. -/
theorem raisePw_chans (s : State) (n : Nat) : (s.raisePw n).aon.ch = s.aon.ch ∧ (s.raisePw n).aon.cfg13 = s.aon.cfg13 := by
  unfold raisePw
  split
  · rw [raise_aon]; exact ⟨rfl, rfl⟩
  · split <;> exact ⟨rfl, rfl⟩

theorem chOf_congr {s t : State} (h : t.aon.ch = s.aon.ch) (j : Nat) : t.chOf j = s.chOf j := by
  rw [chOf, chOf, h]

section
variable {s0 s : State} {k : Nat}

theorem chWithin_raisePw {n : Nat} (hn : n < 256) (h : ChWithin k s0 s) : ChWithin k s0 (s.raisePw n) := by
  obtain ⟨hch, hcfg⟩ := raisePw_chans s n
  exact ⟨regsWithin_raisePw hn h.regs, fun j hj => (chOf_congr hch j).trans (h.chans j hj), hcfg.trans h.settings⟩

theorem chWithin_toCh {st : Nat} (h : ChWithin k s0 s) : ChWithin k s0 (s.toCh k st) := by
  have hw : chRegs k (0xa001004 + 0x40 * k) := .inr (by omega)
  have he : 0x2020 ≤ 0xa001004 + 0x40 * k := by omega
  have hst : ChWithin k s0 (s.setRg (F.PW_OUT_STAT_STATE k) st) := h.setRg hw (.inr he)
  unfold toCh
  dsimp only
  split
  · exact hst.setRg hw (.inr he)
  · split
    · exact hst.setRg hw (.inr he)
    · exact hst

theorem chWithin_chEvent {n : Nat} (hn : n < 256) (h : ChWithin k s0 s) :
    ChWithin k s0 (s.chEvent n k) :=
  chWithin_raisePw hn (h.setRg (.inl rfl) (.inr (by decide)))

theorem chWithin_setCh {x : Chan} (h : ChWithin k s0 s) : ChWithin k s0 (s.setCh k x) :=
  ⟨h.regs.of_regs rfl rfl, fun j hj => (chOf_setCh_ne s x hj).trans (h.chans j hj), h.settings⟩

theorem chWithin_turnOn (h : ChWithin k s0 s) : ChWithin k s0 (s.turnOn k) :=
  chWithin_setCh (chWithin_toCh h)

theorem chWithin_tripNow {cause : Nat} (h : ChWithin k s0 s) : ChWithin k s0 (s.tripNow k cause) := by
  have hc : ChWithin k s0 (((s.setRg (F.PW_OUT_STAT_CAUSE k) cause).bump (F.PW_OUT_TRIPS_COUNT k)).setCh k
      { s.chOf k with since := s.now, tripped := true }) :=
    chWithin_setCh ((h.setRg (.inr (by dsimp only; omega)) (.inr (by dsimp only; omega))).bump
      (.inr (by dsimp only; omega)) (.inr (by dsimp only; omega)))
  unfold tripNow
  dsimp only
  split
  · exact chWithin_chEvent (by decide) (chWithin_chEvent (by decide) (chWithin_toCh hc))
  · exact chWithin_chEvent (by decide) (chWithin_toCh hc)

theorem chWithin_trip {cause : Nat} (h : ChWithin k s0 s) : ChWithin k s0 (s.trip k cause) := by
  unfold trip tripAlso
  split
  · exact chWithin_tripNow h
  · split
    · split
      · exact h.setRg (.inr (by dsimp only; omega)) (.inr (by dsimp only; omega))
      · exact h
    · exact h

theorem chWithin_chJudge (h : ChWithin k s0 s) : ChWithin k s0 (s.chJudge k) := by
  have hto (st : Nat) : ChWithin k s0 (s.toCh k st) := chWithin_toCh h
  unfold chJudge
  dsimp only
  repeat' split
  all_goals first | exact hto _ | exact chWithin_turnOn h | exact h

theorem chWithin_measure {m : LsMeas} (h : ChWithin k s0 s) : ChWithin k s0 (s.measure k m) := by
  have put (u : State) (f : Fld) (v : Nat) (h1 : 0xa001004 + 0x40 * k ≤ f.off) (h2 : f.off < 0xa001044 + 0x40 * k)
      (hu : ChWithin k s0 u) : ChWithin k s0 (u.setRg f v) :=
    hu.setRg (.inr ⟨h1, h2⟩) (.inr (by omega))
  have hs2 (e dt tj : Nat) (x : Chan) : ChWithin k s0 ((((s.setCh k x).setRg (F.PW_OUT_E_E k) e).setRg
      (F.PW_OUT_TEMP_DT k) dt).setRg (F.PW_OUT_TEMP_TJ k) tj) :=
    put _ _ _ (by dsimp only; omega) (by dsimp only; omega) (put _ _ _ (by dsimp only; omega) (by dsimp only; omega)
      (put _ _ _ (by dsimp only; omega) (by dsimp only; omega) (chWithin_setCh h)))
  unfold measure
  dsimp only
  split
  · exact hs2 _ _ _ _
  · exact put _ _ _ (by dsimp only; omega) (by dsimp only; omega) (hs2 _ _ _ _)

theorem chWithin_latchAfter {m : LsMeas} (h : ChWithin k s0 s) :
    ChWithin k s0 (s.latchAfter k m) := by
  have latch (v : Nat) : ChWithin k s0 (s.setRg (F.PW_OUT_STAT_THERM_LATCH k) v) :=
    h.setRg (.inr (by dsimp only; omega)) (.inr (by dsimp only; omega))
  unfold latchAfter
  dsimp only
  split
  · exact chWithin_chEvent (by decide) (latch 1)
  · split
    · exact latch 0
    · exact h

theorem chWithin_chUpdate {m : LsMeas} (h : ChWithin k s0 s) :
    ChWithin k s0 (s.chUpdate k m) := by
  have h1 : ChWithin k s0 ((s.measure k m).latchAfter k m) := chWithin_latchAfter (chWithin_measure h)
  refine chWithin_setCh ?_
  unfold chJudged
  dsimp only
  split
  · exact chWithin_trip h1
  split
  · exact chWithin_trip h1
  split
  · exact chWithin_trip h1
  split
  · exact chWithin_turnOn ((h1.setRg (.inr (by dsimp only; omega)) (.inr (by dsimp only; omega))).bump
      (.inr (by dsimp only; omega)) (.inr (by dsimp only; omega)))
  split
  · exact h1.setRg (.inr (by dsimp only; omega)) (.inr (by dsimp only; omega))
  · exact chWithin_chJudge h1

end

/-! ### What they show of the channel -/

theorem rg_raisePw (s : State) {n : Nat} (hn : n < 256) (f : Fld) (h : 0x2020 ≤ f.off) : (s.raisePw n).rg f = s.rg f :=
  (regsWithin_raisePw (W := fun _ => False) hn (RegsWithin.refl s)).rg f id (.inr h)

theorem rg_chEvent (s : State) {n : Nat} (k : Nat) (hn : n < 256) (f : Fld) (h : 0x2020 ≤ f.off) (hl : f.off ≠ 0xa001414) :
    (s.chEvent n k).rg f = s.rg f := by
  rw [chEvent, rg_raisePw _ hn f h, rg_eq, rd_setRg_other _ _ _ _ hl]
  rfl

theorem chState_toCh (s : State) (k : Nat) {st : Nat} (h : st < 8) : (s.toCh k st).chState k = st := by
  have hst : (s.setRg (F.PW_OUT_STAT_STATE k) st).rg (F.PW_OUT_STAT_STATE k) = st := by
    rw [rg_setRg_self _ _ _ (by simp)]
    exact Nat.mod_eq_of_lt h
  unfold chState toCh
  dsimp only
  split
  · rw [rg_setRg_other _ _ _ _ (by simp) (by simp) (by simp), hst]
  · split
    · rw [rg_setRg_other _ _ _ _ (by simp) (by simp) (by simp), hst]
    · exact hst

theorem rg_toCh (s : State) (k st : Nat) {f : Fld} (hf : f.ok = true) (h1 : (F.PW_OUT_STAT_STATE k).apart f = true)
    (h2 : (F.PW_OUT_STAT_SENSE k).apart f = true) : (s.toCh k st).rg f = s.rg f := by
  unfold toCh
  dsimp only
  split
  · rw [rg_setRg_apart _ _ _ rfl hf h2, rg_setRg_apart _ _ _ rfl hf h1]
  · split
    · rw [rg_setRg_apart _ _ _ rfl hf h2, rg_setRg_apart _ _ _ rfl hf h1]
    · rw [rg_setRg_apart _ _ _ rfl hf h1]

theorem chState_other {s t : State} {k j : Nat} (h : ChWithin k s t) (hj : j ≠ k) (hj' : j < 16) :
    t.chState j = s.chState j :=
  h.regs.rg _ (by unfold chRegs; dsimp only; omega) (.inr (by dsimp only; omega))

/-- The state that a trip leads to (R434). -/
def trippedState (s : State) (k : Nat) : Nat :=
  if s.ls (F.PW_OUT_CFG_RETRY_CNT k) ≤ s.rg (F.PW_OUT_STAT_RETRIES_USED k) then 4 else 3

/-- A trip records its cause and channel. -/
theorem tripNow_shows (s : State) {k cause : Nat} (hk : k < 16) (hc : cause < 8) :
    (s.tripNow k cause).rg (F.PW_OUT_STAT_CAUSE k) = cause ∧ (s.tripNow k cause).chState k = s.trippedState k ∧
      (s.tripNow k cause).rg F.PW_LS_EV_LAST_CH = k := by
  have hcause : ((((s.setRg (F.PW_OUT_STAT_CAUSE k) cause).bump (F.PW_OUT_TRIPS_COUNT k)).setCh k
      { s.chOf k with since := s.now, tripped := true })).rg (F.PW_OUT_STAT_CAUSE k) = cause := by
    simp [setCh, Nat.mod_eq_of_lt hc]
  have hlast (u : State) (n : Nat) (hn : n < 256) : (u.chEvent n k).rg F.PW_LS_EV_LAST_CH = k := by
    rw [chEvent, rg_raisePw _ hn _ (by decide), rg_setRg_self _ _ _ (by decide)]
    exact Nat.mod_eq_of_lt hk
  unfold tripNow trippedState
  dsimp only
  generalize ((s.setRg (F.PW_OUT_STAT_CAUSE k) cause).bump (F.PW_OUT_TRIPS_COUNT k)).setCh k
      { s.chOf k with since := s.now, tripped := true } = u at hcause ⊢
  have hto (st : Nat) : (u.toCh k st).rg (F.PW_OUT_STAT_CAUSE k) = cause :=
    (rg_toCh u k st rfl (by simp [Fld.apart]) (by simp [Fld.apart])).trans hcause
  have hne : 0xa001004 + 0x40 * k ≠ 0xa001414 := by omega
  have he : 0x2020 ≤ 0xa001004 + 0x40 * k := by omega
  split
  · refine ⟨?_, ?_, hlast _ _ (by decide)⟩
    · rw [rg_chEvent _ k (by decide) _ he hne, rg_chEvent _ k (by decide) _ he hne, hto]
    · rw [chState, rg_chEvent _ k (by decide) _ he hne, rg_chEvent _ k (by decide) _ he hne]
      exact chState_toCh u k (by decide)
  · refine ⟨?_, ?_, hlast _ _ (by decide)⟩
    · rw [rg_chEvent _ k (by decide) _ he hne, hto]
    · rw [chState, rg_chEvent _ k (by decide) _ he hne]
      exact chState_toCh u k (by decide)

theorem trip_of_conducts {s : State} {k : Nat} (h : s.conducts k = true) (cause : Nat) : s.trip k cause = s.tripNow k cause := by
  rw [trip, if_pos h]

theorem conducts_of_state {s : State} {k : Nat} (h : s.chState k = 1 ∨ s.chState k = 2) : s.conducts k = true := by
  rcases h with h | h <;> simp [conducts, h]

/-- One more cause of a trip that has just been made (R433): a short comes first. -/
theorem tripAlso_short (s : State) (k : Nat) :
    (s.tripAlso k 2).rg (F.PW_OUT_STAT_CAUSE k) = 2 ∧ (s.tripAlso k 2).chState k = s.chState k := by
  unfold tripAlso
  split
  · refine ⟨by simp, by simp [chState]⟩
  · next h =>
    have h0 : tripRank (s.rg (F.PW_OUT_STAT_CAUSE k)) = 0 := by
      have : tripRank 2 = 0 := by decide
      omega
    have h8 : s.rg (F.PW_OUT_STAT_CAUSE k) < 8 := Fld.get_lt (F.PW_OUT_STAT_CAUSE k) _
    generalize s.rg (F.PW_OUT_STAT_CAUSE k) = n at h0 h8 ⊢
    refine ⟨?_, rfl⟩
    interval_cases n <;> first | rfl | exact absurd h0 (by decide)

/-! ### A latched channel is enabled again (R435) -/

theorem mayConduct_parts {s : State} {k : Nat} (h : s.mayConduct k = true) :
    s.ls (F.PW_OUT_CFG_ON k) = 1 ∧ s.foldHolds k = false ∧ s.rg (F.PW_OUT_STAT_THERM_LATCH k) = 0 := by
  simpa [mayConduct, and_assoc] using h

theorem mayConduct_iff (s : State) (k : Nat) : s.mayConduct k =
    (decide (s.ls (F.PW_OUT_CFG_ON k) = 1) && !s.foldHolds k && decide (s.rg (F.PW_OUT_STAT_THERM_LATCH k) = 0)) := rfl

/-- A channel that is off and may conduct turns on (R441). -/
theorem chJudge_turnsOn {s : State} {k : Nat} (h0 : s.chState k = 0) (hm : s.mayConduct k = true) :
    s.chJudge k = s.turnOn k := by
  obtain ⟨hon, hfold, -⟩ := mayConduct_parts hm
  simp [chJudge, h0, hfold, hon, hm]

theorem foldHolds_congr {s t : State} (h : t.aon = s.aon) (k : Nat) : t.foldHolds k = s.foldHolds k := by
  simp only [foldHolds, validSds, fold, sdOf, h]
  rfl

theorem mayConduct_setRg_retries (s : State) (k v : Nat) :
    (s.setRg (F.PW_OUT_STAT_RETRIES_USED k) v).mayConduct k = s.mayConduct k := by
  rw [mayConduct_iff, mayConduct_iff, rg_setRg_other _ _ _ _ (by simp) (by simp) (by simp)]
  rfl

theorem chState_answer (s : State) (r : Resp) (k : Nat) : (s.answer r).chState k = s.chState k := rfl

theorem turnOn_rg (s : State) (k : Nat) (f : Fld) : (s.turnOn k).rg f = (s.toCh k 1).rg f := rfl

theorem turnOn_socUp (s : State) (k : Nat) : (s.turnOn k).socUp = s.socUp :=
  socUp_congr ((moves_toCh (ps := [.regs]) (List.Subset.refl _) (moves_refl s)).1 .pw (by decide))

/-- A channel that has just been switched off, with its other fields kept. -/
theorem mayConduct_toCh (s : State) (k st : Nat) : (s.toCh k st).mayConduct k = s.mayConduct k := by
  have hm : moves [.regs] s (s.toCh k st) := moves_toCh (List.Subset.refl _) (moves_refl s)
  have ha := hm.1 .aon (by decide)
  rw [mayConduct_iff, mayConduct_iff, rg_toCh s k st rfl (by simp [Fld.apart]) (by simp [Fld.apart]), ls, ls, ha,
    foldHolds_congr ha]

/-! ### One update of a channel (R429) -/

theorem rg_measure (s : State) (k : Nat) (m : LsMeas) {f : Fld} (hf : f.ok = true) (ho : f.off = 0xa001004 + 0x40 * k)
    (h : (F.PW_OUT_STAT_SENSE k).apart f = true) : (s.measure k m).rg f = s.rg f := by
  have hs2 (e dt tj : Nat) (x : Chan) : ((((s.setCh k x).setRg (F.PW_OUT_E_E k) e).setRg (F.PW_OUT_TEMP_DT k) dt).setRg
      (F.PW_OUT_TEMP_TJ k) tj).rg f = s.rg f := by
    rw [rg_eq, rd_setRg_other _ _ _ _ (by rw [ho]; simp), rd_setRg_other _ _ _ _ (by rw [ho]; simp),
      rd_setRg_other _ _ _ _ (by rw [ho]; simp)]
    rfl
  unfold measure
  dsimp only
  split
  · exact hs2 _ _ _ _
  · rw [rg_setRg_apart _ _ _ rfl hf h]
    exact hs2 _ _ _ _

theorem measure_chOf (s : State) (k : Nat) (m : LsMeas) : ((s.measure k m).chOf k).e =
    heat (s.chOf k).e (s.ls (F.PW_OUT_CFG_WIRE k)) (if s.conducts k then s.chCurrent k m.mA else 0) := by
  unfold measure
  dsimp only
  split <;> simp [chOf, setCh]

theorem measure_cfg (s : State) (k : Nat) (m : LsMeas) : (s.measure k m).aon.cfg13 = s.aon.cfg13 := by
  unfold measure
  dsimp only
  split <;> rfl

theorem rg_latchAfter (s : State) {k : Nat} (m : LsMeas) {f : Fld} (hf : f.ok = true) (ho : f.off = 0xa001004 + 0x40 * k)
    (hk : k < 16) (h : (F.PW_OUT_STAT_THERM_LATCH k).apart f = true) : (s.latchAfter k m).rg f = s.rg f := by
  unfold latchAfter
  dsimp only
  split
  · rw [rg_chEvent _ k (by decide) f (by omega) (by omega), rg_setRg_apart _ _ _ rfl hf h]
  · split
    · rw [rg_setRg_apart _ _ _ rfl hf h]
    · rfl

theorem latchAfter_aon (s : State) (k : Nat) (m : LsMeas) :
    (s.latchAfter k m).aon.ch = s.aon.ch ∧ (s.latchAfter k m).aon.cfg13 = s.aon.cfg13 := by
  unfold latchAfter
  dsimp only
  split
  · obtain ⟨hch, hcfg⟩ := raisePw_chans ((s.setRg (F.PW_OUT_STAT_THERM_LATCH k) 1).setRg F.PW_LS_EV_LAST_CH k) 242
    exact ⟨hch, hcfg⟩
  · split <;> exact ⟨rfl, rfl⟩

/-- What the update of channel k depends on: its status register, its heating state and the settings. -/
def chView (k : Nat) (s : State) : Word × Chan × RegFile := (s.rd (0xa001004 + 0x40 * k), s.chOf k, s.aon.cfg13)

/-- What another channel's operations leave. -/
theorem chView_of_within {s t : State} {k j : Nat} (hw : ChWithin j s t) (hk : k < 16) (h : j ≠ k) :
    chView k t = chView k s := by
  rw [chView, chView, hw.regs.rd _ (by unfold chRegs; omega) (.inr (by omega)), hw.chans k (Ne.symm h), hw.settings]

theorem rg_of_chView {s t : State} {k : Nat} (h : chView k t = chView k s) (f : Fld) (hf : f.off = 0xa001004 + 0x40 * k) :
    t.rg f = s.rg f := by
  rw [rg_eq, rg_eq, hf]
  exact congrArg (fun v : Word × Chan × RegFile => f.get v.1) h

theorem ls_of_chView {s t : State} {k : Nat} (h : chView k t = chView k s) (f : Fld) : t.ls f = s.ls f :=
  congrArg (fun v : Word × Chan × RegFile => rfGet v.2.2 f) h

/-- A channel that conducts over its heat limit trips in its update with cause 1 (R429, R433). -/
theorem chUpdate_heat {s : State} {k : Nat} {m : LsMeas} (hk : k < 16) (hc : s.conducts k = true) (htj : m.tj < 175)
    (hdt : m.dt ≤ s.scorchLimit k)
    (he : eTrip ≤ heat (s.chOf k).e (s.ls (F.PW_OUT_CFG_WIRE k)) (s.chCurrent k m.mA)) :
    (s.chUpdate k m).rg (F.PW_OUT_STAT_CAUSE k) = 1 ∧ (s.chUpdate k m).chState k = s.trippedState k := by
  obtain ⟨hch, hcfg⟩ := latchAfter_aon (s.measure k m) k m
  have hst : ((s.measure k m).latchAfter k m).chState k = s.chState k := by
    rw [chState, rg_latchAfter _ m rfl rfl hk (by simp [Fld.apart]), rg_measure _ k m rfl rfl (by simp [Fld.apart])]
    rfl
  have hret : ((s.measure k m).latchAfter k m).rg (F.PW_OUT_STAT_RETRIES_USED k) = s.rg (F.PW_OUT_STAT_RETRIES_USED k) := by
    rw [rg_latchAfter _ m rfl rfl hk (by simp [Fld.apart]), rg_measure _ k m rfl rfl (by simp [Fld.apart])]
  have he' : (((s.measure k m).latchAfter k m).chOf k).e ≥ eTrip := by
    rw [chOf_congr hch, measure_chOf, if_pos hc]
    exact he
  have hcond : ((s.measure k m).latchAfter k m).conducts k = true := by rw [conducts, hst]; exact hc
  have htrip : ((s.measure k m).latchAfter k m).trippedState k = s.trippedState k := by
    rw [trippedState, trippedState, hret, ls, ls, hcfg.trans (measure_cfg s k m)]
  have hjudged : s.chJudged k m = ((s.measure k m).latchAfter k m).tripNow k 1 := by
    unfold chJudged
    dsimp only
    rw [hc, Bool.true_or, if_neg (fun h => absurd h.2 (by omega)), if_neg (fun h => absurd h.2 (Nat.not_lt.mpr hdt)),
      if_pos ⟨rfl, he'⟩, trip_of_conducts hcond]
  obtain ⟨hcause, hstate, -⟩ := tripNow_shows ((s.measure k m).latchAfter k m) hk (by decide : 1 < 8)
  rw [← hjudged] at hcause hstate
  exact ⟨hcause, hstate.trans htrip⟩

/-- A fold over items of other keys. -/
theorem forEach_elsewhere {α β : Type} (g : State → β) (key : α → Nat) (f : State → α → State) {k : Nat} (l : List α)
    (hne : ∀ u x, key x ≠ k → g (f u x) = g u) (hl : ∀ x ∈ l, key x ≠ k) (s : State) : g (s.forEach l f) = g s := by
  induction l generalizing s with
  | nil => rfl
  | cons x l ih =>
    exact (ih (fun y hy => hl y (List.mem_cons_of_mem _ hy)) (f s x)).trans (hne s x (hl x List.mem_cons_self))

/-- A fold over items with distinct keys, seen by what only the item of one key changes. -/
theorem forEach_at {α β : Type} (g : State → β) (key : α → Nat) (f : State → α → State) {k : Nat} {a : α} (l : List α)
    (hne : ∀ u x, key x ≠ k → g (f u x) = g u) (hd : (l.map key).Nodup) (ha : a ∈ l) (hk : key a = k) (s : State) :
    ∃ u, g u = g s ∧ g (s.forEach l f) = g (f u a) := by
  induction l generalizing s with
  | nil => exact absurd ha List.not_mem_nil
  | cons b l ih =>
    obtain ⟨hb, hl⟩ := List.nodup_cons.mp hd
    rcases List.mem_cons.mp ha with rfl | hal
    · exact ⟨s, rfl, forEach_elsewhere g key f l hne
        (fun x hx hxk => hb (by rw [hk, ← hxk]; exact List.mem_map_of_mem hx)) (f s a)⟩
    · have hbk : key b ≠ k := fun e => hb (by rw [e, ← hk]; exact List.mem_map_of_mem hal)
      obtain ⟨u, hu, hg⟩ := ih hl hal (f s b)
      exact ⟨u, hu.trans (hne s b hbk), hg⟩

end State

open State

theorem exec_shortTrip {ch : Nat} {s : State} (hp : s.pw.power ≠ .off) (hc : ch < 16) (h1 : s.chState ch ≠ 1) :
    exec (.shortTrip ch) s = .next (s.trip ch 2) := by
  show execShortTrip ch s = _
  rw [execShortTrip, decide_eq_true hp, only_true, if_pos ⟨hc, h1⟩]

theorem map_fst_zip_sublist {α β : Type} (l : List α) (m : List β) : ((l.zip m).map Prod.fst).Sublist l := by
  induction l generalizing m with
  | nil => simp
  | cons a l ih =>
    cases m with
    | nil => simp
    | cons b m => simpa using ih m

theorem zip_range_nodup (meas : List LsMeas) : (((List.range 16).zip meas).map Prod.fst).Nodup := by
  exact List.Nodup.sublist (map_fst_zip_sublist _ _) List.nodup_range

theorem mem_zip_range {meas : List LsMeas} {k : Nat} {m : LsMeas} (hk : k < 16) (hm : meas[k]? = some m) :
    (k, m) ∈ (List.range 16).zip meas := by
  refine List.mem_iff_getElem?.mpr ⟨k, ?_⟩
  rw [List.getElem?_zip_eq_some]
  exact ⟨by simp [hk], hm⟩

/-- Settles O48. -/
theorem channelCommands : Obligations.ChannelCommands := by
  unfold Obligations.ChannelCommands
  refine ⟨?total, ?heat, ?short, ?noShort, ?inrush, ?reenable, ?refused, ?also⟩
  case total =>
    intro meas mw s hp
    show ∃ t, execLsUpdate meas mw s = _ ∧ _
    rw [execLsUpdate, decide_eq_true hp, only_true]
    generalize s.forEach ((List.range 16).zip meas) (fun t e => t.chUpdate e.1 e.2) = u
    refine ⟨_, rfl, ?_, ?_⟩
    · rw [rg_setRg_self _ _ _ (by decide)]
      exact Nat.mod_eq_of_lt (by simp)
    · rw [rg_setRg_other _ _ _ _ (by decide) (by decide) (by decide), rg_setRg_self _ _ _ (by decide)]
      exact Nat.mod_eq_of_lt (by simp)
  case heat =>
    intro meas mw k m s hp hk hm hc htj hdt he
    show ∃ t, execLsUpdate meas mw s = _ ∧ _
    rw [execLsUpdate, decide_eq_true hp, only_true]
    obtain ⟨u, hu, hview⟩ := forEach_at (chView k) Prod.fst (fun t e => t.chUpdate e.1 e.2) (k := k) (a := (k, m))
      ((List.range 16).zip meas) (fun v x hx => chView_of_within (chWithin_chUpdate (ChWithin.refl v)) hk hx) (zip_range_nodup meas) (mem_zip_range hk hm) rfl s
    have hst : u.chState k = s.chState k := rg_of_chView hu _ rfl
    have hch : u.chOf k = s.chOf k := congrArg (fun v : Word × Chan × RegFile => v.2.1) hu
    have hls (f : Fld) : u.ls f = s.ls f := ls_of_chView hu f
    have hcur : u.chCurrent k m.mA = s.chCurrent k m.mA := by simp only [chCurrent, inrushLimit, hst, hls]
    obtain ⟨hcause, hstate⟩ := chUpdate_heat (s := u) (m := m) hk (by rw [conducts, hst]; exact hc) htj
      (by rw [scorchLimit, hls]; exact hdt) (by rw [hch, hls, hcur]; exact he)
    have htrip : u.trippedState k = s.trippedState k := by
      rw [trippedState, trippedState, hls, rg_of_chView hu _ rfl]
    rw [← rg_of_chView hview _ rfl] at hcause
    rw [htrip, chState, ← rg_of_chView hview _ rfl] at hstate
    generalize s.forEach ((List.range 16).zip meas) (fun t e => t.chUpdate e.1 e.2) = v at hcause hstate
    have hne : 0xa001004 + 0x40 * k ≠ 0xa001404 ∧ 0xa001004 + 0x40 * k ≠ 0xa00140c := by omega
    refine ⟨_, rfl, ?_, ?_⟩
    · rw [rg_setRg_other _ _ _ _ (by simp) (by simp) (.inl hne.2.symm), rg_setRg_other _ _ _ _ (by simp) (by simp) (.inl hne.1.symm), hcause]
    · rw [chState, rg_setRg_other _ _ _ _ (by simp) (by simp) (.inl hne.2.symm), rg_setRg_other _ _ _ _ (by simp) (by simp) (.inl hne.1.symm), hstate]
      rfl
  case short =>
    intro ch s hp hc h2
    rw [exec_shortTrip hp hc (by omega), trip_of_conducts (conducts_of_state (.inr h2))]
    obtain ⟨hcause, hst, hlast⟩ := tripNow_shows s hc (by decide : 2 < 8)
    exact ⟨_, rfl, hcause, hst, hlast, fun k hk hne => chState_other (chWithin_tripNow (ChWithin.refl s)) hne hk⟩
  case noShort =>
    intro ch s h2 h3 h4
    show execShortTrip ch s = _
    rw [execShortTrip]
    split
    · next h => simp [trip, conducts, h2, h3, h4, h.2, only]
    · simp [only]
  case inrush =>
    intro ch demand s hp hc h1
    show ∃ t, execInrushEnd ch demand s = _ ∧ _
    rw [execInrushEnd, decide_eq_true hp, only_true, if_pos ⟨hc, h1⟩]
    refine ⟨_, rfl, fun hle => ?_, fun hlt => ?_⟩
    · rw [if_neg (Nat.not_lt.mpr hle)]
      exact ⟨chState_toCh s ch (by decide), by rw [chOf_setCh_same]⟩
    · rw [if_pos hlt, trip_of_conducts (conducts_of_state (.inl h1))]
      obtain ⟨hcause, hst, -⟩ := tripNow_shows s hc (by decide : 3 < 8)
      exact ⟨hcause, hst⟩
  case reenable =>
    intro a data k s hr hu hk hre h4 hm
    show ∃ t, execReenable a data s = _ ∧ _
    obtain ⟨-, -, hlatch⟩ := mayConduct_parts hm
    have hre0 : F.PW_OUT_CMD_REENABLE.get data ≠ 0 := by omega
    rw [execReenable, ← hk, byAgent_reaches _ _ _ hr, if_neg hre0, if_neg (not_not_intro h4), if_neg (by omega)]
    have hu0 := chState_toCh (s.setRg (F.PW_OUT_STAT_RETRIES_USED k) 0) k (st := 0) (by decide)
    have hum : ((s.setRg (F.PW_OUT_STAT_RETRIES_USED k) 0).toCh k 0).mayConduct k = true := by
      rw [mayConduct_toCh, mayConduct_setRg_retries, hm]
    have hret : ((s.setRg (F.PW_OUT_STAT_RETRIES_USED k) 0).toCh k 0).rg (F.PW_OUT_STAT_RETRIES_USED k) = 0 := by
      rw [rg_toCh _ _ _ rfl (by simp [Fld.apart]) (by simp [Fld.apart])]
      simp
    have husoc : ((s.setRg (F.PW_OUT_STAT_RETRIES_USED k) 0).toCh k 0).socUp = true :=
      (socUp_congr ((moves_toCh (ps := [.regs]) (List.Subset.refl _) (moves_refl _)).1 .pw (by decide))).trans hu
    rw [chJudge_turnsOn hu0 hum]
    generalize (s.setRg (F.PW_OUT_STAT_RETRIES_USED k) 0).toCh k 0 = u at hret husoc
    have hk16 : k < 16 := by rw [hk]; exact Fld.get_lt F.PW_OUT_CMD_CH data
    have hne : 0xa001004 + 0x40 * k ≠ 0xa001404 := by omega
    refine ⟨_, rfl, ?_, ?_, ?_, ?_⟩
    · rw [chState_answer, chState, rg_raise_other _ _ _ _ (by simp), rg_setRg_other _ _ _ _ (by simp) (by simp) (.inl hne.symm)]
      exact chState_toCh u k (by decide)
    · simp
    · rw [answer_rg, rg_raise_other _ _ _ _ (by simp), rg_setRg_other _ _ _ _ (by simp) (by simp) (.inl hne.symm), turnOn_rg,
        rg_toCh _ _ _ rfl (by simp [Fld.apart]) (by simp [Fld.apart]), hret]
    · rw [evSet_answer]
      exact evSet_raise _ _ _ (by rw [socUp_setRg, turnOn_socUp]; exact husoc)
  case refused =>
    intro a data k s hr hu hk hre h
    show ∃ t, execReenable a data s = _ ∧ _
    have hre0 : F.PW_OUT_CMD_REENABLE.get data ≠ 0 := by omega
    have hk16 : k < 16 := by rw [hk]; exact Fld.get_lt F.PW_OUT_CMD_CH data
    have hne : 0xa001004 + 0x40 * k ≠ 0xa001404 := by omega
    have shows (v : Nat) (hv : v < 4) : (((s.setRg F.PW_LS_STAT_LAST_REENABLE v).raise 245 (some a)).answer .done).chState k =
        s.chState k ∧ (((s.setRg F.PW_LS_STAT_LAST_REENABLE v).raise 245 (some a)).answer .done).evSet 245 = true ∧
        (((s.setRg F.PW_LS_STAT_LAST_REENABLE v).raise 245 (some a)).answer .done).rg F.PW_LS_STAT_LAST_REENABLE = v := by
      refine ⟨?_, ?_, ?_⟩
      · rw [chState_answer, chState, rg_raise_other _ _ _ _ (by simp), rg_setRg_other _ _ _ _ (by simp) (by simp) (.inl hne.symm)]
        rfl
      · rw [evSet_answer]
        exact evSet_raise _ _ _ (by rw [socUp_setRg]; exact hu)
      · rw [answer_rg, rg_raise_other _ _ _ _ (by simp), rg_setRg_self _ _ _ (by decide)]
        exact Nat.mod_eq_of_lt hv
    rw [execReenable, ← hk, byAgent_reaches _ _ _ hr, if_neg hre0]
    by_cases h4 : s.chState k ≠ 4
    · rw [if_pos h4]
      obtain ⟨hst, hev, hlast⟩ := shows 3 (by decide)
      exact ⟨_, rfl, hst, hev, by rw [if_pos h4]; exact hlast⟩
    · rw [if_neg h4, if_pos (h.resolve_left h4)]
      obtain ⟨hst, hev, hlast⟩ := shows 2 (by decide)
      exact ⟨_, rfl, hst, hev, by rw [if_neg h4]; exact hlast⟩
  case also =>
    intro ch s hp hc hst htr
    have hn : s.conducts ch = false := by rcases hst with h | h <;> simp [conducts, h]
    rw [exec_shortTrip hp hc (by omega), trip, if_neg (by rw [hn]; decide), if_pos ⟨hst, htr⟩]
    obtain ⟨hcause, hstate⟩ := tripAlso_short s ch
    exact ⟨_, rfl, hstate, hcause⟩

/-! ### Undervoltage, shedding and the hold (R437, R438, R442, R443) -/

namespace State

theorem chState_toCh_ite (s : State) {k st j : Nat} (hst : st < 8) (hj : j < 16) :
    (s.toCh k st).chState j = if k = j then st else s.chState j := by
  by_cases h : k = j
  · rw [if_pos h, ← h, chState_toCh s k hst]
  · rw [if_neg h, chState_other (chWithin_toCh (ChWithin.refl s)) (Ne.symm h) hj]

/-- What the judgement of channel j depends on: its status register and the power die's settings and domains. -/
def judgeView (j : Nat) (s : State) : Word × RegFile × RegFile × Sparse SdState × Nat :=
  (s.rd (0xa001004 + 0x40 * j), s.aon.cfg13, s.aon.cfg12, s.aon.sd, s.aon.kept)

theorem rg_of_judgeView {s t : State} {j : Nat} (h : judgeView j t = judgeView j s) (f : Fld)
    (hf : f.off = 0xa001004 + 0x40 * j) : t.rg f = s.rg f := by
  rw [rg_eq, rg_eq, hf]
  exact congrArg (fun v : Word × RegFile × RegFile × Sparse SdState × Nat => f.get v.1) h

theorem ls_of_judgeView {s t : State} {j : Nat} (h : judgeView j t = judgeView j s) (f : Fld) : t.ls f = s.ls f :=
  congrArg (fun v : Word × RegFile × RegFile × Sparse SdState × Nat => rfGet v.2.1 f) h

theorem foldHolds_of_judgeView {s t : State} {j : Nat} (h : judgeView j t = judgeView j s) (k : Nat) :
    t.foldHolds k = s.foldHolds k := by
  simp only [judgeView, Prod.mk.injEq] at h
  obtain ⟨-, -, hcfg, hsd, hkept⟩ := h
  simp only [foldHolds, validSds, fold, sdOf, hcfg, hsd, hkept]
  rfl

theorem mayConduct_of_judgeView {s t : State} {j : Nat} (h : judgeView j t = judgeView j s) :
    t.mayConduct j = s.mayConduct j := by
  rw [mayConduct_iff, mayConduct_iff, ls_of_judgeView h, foldHolds_of_judgeView h, rg_of_judgeView h _ rfl]

/-- Judging another channel leaves it. -/
theorem judgeView_other {s t : State} {k j : Nat} (h : ChWithin k s t) (ha : t.aon.cfg12 = s.aon.cfg12 ∧ t.aon.sd = s.aon.sd ∧
    t.aon.kept = s.aon.kept) (hj : j < 16) (hne : k ≠ j) : judgeView j t = judgeView j s := by
  obtain ⟨hcfg, hsd, hkept⟩ := ha
  rw [judgeView, judgeView, h.regs.rd _ (by unfold chRegs; omega) (.inr (by omega)), h.settings, hcfg, hsd, hkept]

theorem toCh_aon (s : State) (k st : Nat) : (s.toCh k st).aon = s.aon :=
  (moves_toCh (ps := [.regs]) (List.Subset.refl _) (moves_refl s)).1 .aon (by decide)

theorem turnOn_aon (s : State) (k : Nat) : (s.turnOn k).aon.cfg12 = s.aon.cfg12 ∧ (s.turnOn k).aon.sd = s.aon.sd ∧
    (s.turnOn k).aon.kept = s.aon.kept := by
  have h := toCh_aon s k 1
  refine ⟨?_, ?_, ?_⟩
  · exact congrArg (fun a => a.cfg12) h
  · exact congrArg (fun a => a.sd) h
  · exact congrArg (fun a => a.kept) h

theorem chJudge_aon (s : State) (k : Nat) : (s.chJudge k).aon.cfg12 = s.aon.cfg12 ∧ (s.chJudge k).aon.sd = s.aon.sd ∧
    (s.chJudge k).aon.kept = s.aon.kept := by
  have hto (st : Nat) : (s.toCh k st).aon.cfg12 = s.aon.cfg12 ∧ (s.toCh k st).aon.sd = s.aon.sd ∧
      (s.toCh k st).aon.kept = s.aon.kept := by rw [toCh_aon]; exact ⟨rfl, rfl, rfl⟩
  unfold chJudge
  dsimp only
  repeat' split
  all_goals first | exact hto _ | exact turnOn_aon s k | exact ⟨rfl, rfl, rfl⟩

/-- A channel that is off is held off, turns on or stays off (R441). -/
theorem chJudge_of_off {s : State} {k : Nat} (h0 : s.chState k = 0) :
    (s.chJudge k).chState k = if s.foldHolds k = true then 5 else if s.mayConduct k = true then 1 else 0 := by
  unfold chJudge
  simp only [h0, true_or, if_true, Nat.zero_ne_one, OfNat.zero_ne_ofNat, or_self, if_false]
  split
  · exact chState_toCh s k (by decide)
  · split
    · next hon =>
      rw [if_neg (fun h => by have := (mayConduct_parts h).1; omega)]
      exact chState_toCh s k (by decide)
    · split
      · exact chState_toCh s k (by decide)
      · exact chState_toCh s k (by decide)

end State

open State

/-- Settles O49. -/
theorem supplyCommands : Obligations.SupplyCommands := by
  unfold Obligations.SupplyCommands
  refine ⟨?under, ?recovered, ?shed, ?dissipation, ?kept, ?refresh, ?hold⟩
  case under =>
    intro s hp
    show ∃ t, execVbatUndervoltage s = _ ∧ _
    rw [execVbatUndervoltage, decide_eq_true hp, only_true]
    refine ⟨_, rfl, fun j hj => ?_⟩
    have key := forEach_ite (fun u : State => u.chState j) (fun t k => (t.toCh k 7).setRg F.PW_LS_EV_LAST_CH k) j 7
      ((List.range 16).filter s.conducts)
      (fun u k _ => by
        rw [chState, rg_setRg_other _ _ _ _ (by simp) (by simp) (.inl (by simp; omega))]
        exact chState_toCh_ite u (by decide) hj) s
    rw [chState, rg_raisePw _ (by decide) _ (by simp; omega)]
    refine key.trans ?_
    simp [hj]
  case recovered =>
    intro s hp
    show ∃ t, execVbatRecovered s = _ ∧ _
    rw [execVbatRecovered, decide_eq_true hp, only_true]
    refine ⟨_, rfl, fun j hj => ?_⟩
    have hne : ∀ (u : State) (k : Nat), id k ≠ j → judgeView j ((u.toCh k 0).chJudge k) = judgeView j u := by
      intro u k hk
      refine judgeView_other (chWithin_chJudge (chWithin_toCh (ChWithin.refl u))) ?_ hj hk
      obtain ⟨hcfg, hsd, hkept⟩ := chJudge_aon (u.toCh k 0) k
      rw [hcfg, hsd, hkept, toCh_aon]
      exact ⟨rfl, rfl, rfl⟩
    by_cases h7 : s.chState j = 7
    · rw [if_pos h7]
      obtain ⟨u, hu, hg⟩ := forEach_at (judgeView j) id (fun t k => (t.toCh k 0).chJudge k) (k := j) (a := j)
        ((List.range 16).filter (fun k => s.chState k == 7)) hne
        (by rw [List.map_id]; exact List.nodup_range.filter _) (by simp [hj, h7]) rfl s
      rw [chState, rg_of_judgeView hg _ rfl]
      refine (chJudge_of_off (chState_toCh u j (by decide))).trans ?_
      rw [mayConduct_toCh, foldHolds_congr (toCh_aon u j 0), mayConduct_of_judgeView hu, foldHolds_of_judgeView hu]
    · rw [if_neg h7]
      have hg := forEach_elsewhere (judgeView j) id (fun t k => (t.toCh k 0).chJudge k) (k := j)
        ((List.range 16).filter (fun k => s.chState k == 7)) hne
        (fun k hk e => h7 (by have := (List.mem_filter.mp hk).2; rw [← e]; simpa using this)) s
      exact rg_of_judgeView hg _ rfl
  case shed =>
    intro k first s hp hu hlast
    have hmem := List.mem_filter.mp (List.mem_of_getLast? hlast)
    have hk : k < 16 := List.mem_range.mp hmem.1
    have hc : s.conducts k = true := by have := hmem.2; simp only [Bool.and_eq_true] at this; exact this.1
    show ∃ t, execTotalCurrentShed first s = _ ∧ _
    rw [execTotalCurrentShed, decide_eq_true hp, only_true, hlast]
    dsimp only
    have hrg (f : Fld) (hf : 0x2020 ≤ f.off) : (if first = true then s.raisePw 243 else s).rg f = s.rg f := by
      split
      · exact rg_raisePw s (by decide) f hf
      · rfl
    have hev : first = true → (if first = true then s.raisePw 243 else s).evSet 243 = true := by
      intro h
      rw [if_pos h, raisePw_up s 243 hu]
      exact evSet_raise s 243 none hu
    generalize (if first = true then s.raisePw 243 else s) = t at hrg hev ⊢
    have hst (j : Nat) : t.chState j = s.chState j := hrg _ (by dsimp only; omega)
    have hct : t.conducts k = true := by rw [conducts, hst]; exact hc
    rw [trip_of_conducts hct]
    obtain ⟨hcause, hstate, -⟩ := tripNow_shows t hk (by decide : 6 < 8)
    have hw : ChWithin k t (t.tripNow k 6) := chWithin_tripNow (ChWithin.refl t)
    refine ⟨_, rfl, hcause, ?_, fun h => hw.regs.events 243 (by decide) (hev h), fun j hj hne => ?_⟩
    · rw [hstate, trippedState]
      split
      · exact .inr rfl
      · exact .inl rfl
    · rw [chState_other hw hne hj, hst]
  case dissipation =>
    intro s hu
    have hp : s.pw.power ≠ .off := by
      intro h
      simp [socUp, h] at hu
    show ∃ t, execDissipationHigh s = _ ∧ _
    rw [execDissipationHigh, decide_eq_true hp, only_true, raisePw_up s 246 hu]
    exact ⟨_, rfl, evSet_raise s 246 none hu, raise_aon s 246 none⟩
  case kept =>
    intro s hp hu
    show ∃ t, execDissipationHigh s = _ ∧ _
    rw [execDissipationHigh, decide_eq_true hp, only_true, raisePw, if_neg (by rw [hu]; decide)]
    refine ⟨_, rfl, ?_, ?_⟩
    · split
      · next h => simpa using h
      · simp
    · split <;> rfl
  case refresh =>
    intro s hu hf hr
    show execPowerDieLinkRefresh s = _
    rw [execPowerDieLinkRefresh, if_pos ⟨hu, hf, by rw [hr]; rfl⟩]
  case hold =>
    intro s hp hl
    show ∃ t, execHoldExpired s = _ ∧ _
    rw [execHoldExpired, decide_eq_true hp, only_true, if_pos hl]
    refine ⟨_, rfl, rfl, fun j hj => ?_⟩
    obtain ⟨u, hu, hg⟩ := forEach_at (chView j) id
      (fun t k => if t.ls (F.PW_OUT_CFG_FAILSAFE k) = 0 ∧ t.chState k ≠ 4 then t.toCh k 6 else t) (k := j) (a := j)
      (List.range 16)
      (fun v k hk => by
        split
        · exact chView_of_within (chWithin_toCh (ChWithin.refl v)) hj hk
        · rfl)
      (by rw [List.map_id]; exact List.nodup_range) (List.mem_range.mpr hj) rfl s
    have hst : u.chState j = s.chState j := rg_of_chView hu _ rfl
    refine (rg_of_chView hg _ rfl).trans ?_
    rw [ls_of_chView hu, hst]
    split
    · exact chState_toCh u j (by decide)
    · exact hst

end Sys2Proof.Machine
end

section
/-!
PROOFS. Keep-alives (R405, R406, R415, R416): the talker records that a keep-alive leaves (R422), the domains that it restarts,
and the gateway's own keep-alives, by Ethernet and by CAN.
-/

namespace Sys2Proof.Machine
namespace State

/-! ### The talker records (R422) -/

/-- The registers of the talker records of the 16 domains. -/
def talkRegs (off : Nat) : Prop := 0x3400 ≤ off ∧ off < 0x3c00

theorem talkSlot_lt (s : State) (d : Nat) : s.talkSlot d < 8 := by
  unfold talkSlot
  split
  · next k h => exact List.mem_range.mp (List.mem_of_find?_eq_some h)
  · have step (l : List Nat) (hl : ∀ k ∈ l, k < 8) (b : Nat) (hb : b < 8) :
        l.foldl (fun b k => if s.talkCount d k < s.talkCount d b then k else b) b < 8 := by
      induction l generalizing b with
      | nil => exact hb
      | cons k l ih =>
        refine ih (fun j hj => hl j (List.mem_cons_of_mem _ hj)) _ ?_
        dsimp only
        split
        · exact hl k List.mem_cons_self
        · exact hb
    exact step _ (fun k hk => List.mem_range.mp hk) 0 (by decide)

theorem talkRegs_at {d k i : Nat} (hd : d < 16) (hk : k < 8) (hi : i < 16) : talkRegs (0x3400 + i + 0x80 * d + 0x10 * k) := by
  unfold talkRegs; omega

theorem regsWithin_talk {s0 s : State} {d kind unit src : Nat} (hd : d < 16) (h : RegsWithin talkRegs s0 s) :
    RegsWithin talkRegs s0 (s.talk d kind unit src) := by
  unfold talk
  dsimp only
  split
  · next k hk =>
    have hk : k < 8 := List.mem_range.mp (List.mem_of_find?_eq_some hk)
    have hb : RegsWithin talkRegs s0 (s.bump (F.SV_SD_TALK_COUNT_COUNT d k)) :=
      h.bump (talkRegs_at hd hk (by decide : 0xc < 16)) (.inr (by dsimp only; omega))
    exact hb.of_regs rfl rfl
  · have hk := talkSlot_lt s d
    generalize s.talkSlot d = k at hk ⊢
    have hw : RegsWithin talkRegs s0 ((((s.wr (R.SV_SD_TALK d k) (Word.ofNat (kind + 256 * unit))).wr (R.SV_SD_TALK_SRC_LO d k)
        (Word.ofNat src)).wr (R.SV_SD_TALK_SRC_HI d k) (Word.ofNat (src / 2 ^ 32))).setRg (F.SV_SD_TALK_COUNT_COUNT d k) 1) :=
      (((h.wr _ (talkRegs_at hd hk (by decide : 0 < 16)) (.inr (by simp; omega))).wr _
        (talkRegs_at hd hk (by decide : 4 < 16)) (.inr (by simp; omega))).wr _
        (talkRegs_at hd hk (by decide : 8 < 16)) (.inr (by simp; omega))).setRg
        (talkRegs_at hd hk (by decide : 0xc < 16)) (.inr (by dsimp only; omega))
    exact hw.of_regs rfl rfl

theorem talk_sd (s : State) (d kind unit src : Nat) : (s.talk d kind unit src).aon.sd = s.aon.sd := by
  unfold talk
  dsimp only
  split <;> rfl

theorem talk_now (s : State) (d kind unit src : Nat) : (s.talk d kind unit src).now = s.now :=
  (moves_talk (ps := [.regs, .aon]) (List.Subset.refl _) (moves_refl s)).1 .now (by decide)

theorem sdOf_congr {s t : State} (h : t.aon.sd = s.aon.sd) (d : Nat) : t.sdOf d = s.sdOf d := by
  unfold sdOf; rw [h]

theorem sdOf_setSd_same (s : State) (d : Nat) (x : SdState) : (s.setSd d x).sdOf d = x := Sparse.get_set_same _ _ _ _

theorem sdOf_setSd_other (s : State) (x : SdState) {d e : Nat} (h : d ≠ e) : (s.setSd e x).sdOf d = s.sdOf d :=
  Sparse.get_set_ne _ _ _ h

theorem mem_validSds_lt {s : State} {d : Nat} (h : d ∈ s.validSds) : d < 16 :=
  List.mem_range.mp (List.mem_filter.mp h).1

/-! ### A keep-alive with NEED (R406) -/

/-- What a keep-alive with NEED does to one domain that it names. -/
def restarts (s : State) (kind unit id d : Nat) : State :=
  (if (s.sdOf d).state = 2 then s.setSd d { s.sdOf d with timerFrom := s.now } else s).talk d kind unit id

theorem restarts_now (s : State) (kind unit id d : Nat) : (s.restarts kind unit id d).now = s.now := by
  rw [restarts, talk_now]
  split <;> rfl

theorem sdOf_restarts_same (s : State) (kind unit id d : Nat) : (s.restarts kind unit id d).sdOf d =
    if (s.sdOf d).state = 2 then { s.sdOf d with timerFrom := s.now } else s.sdOf d := by
  rw [restarts, sdOf_congr (talk_sd _ _ _ _ _)]
  split
  · exact sdOf_setSd_same _ _ _
  · rfl

theorem sdOf_restarts_other (s : State) (kind unit id : Nat) {d e : Nat} (h : e ≠ d) :
    (s.restarts kind unit id e).sdOf d = s.sdOf d := by
  rw [restarts, sdOf_congr (talk_sd _ _ _ _ _)]
  split
  · exact sdOf_setSd_other _ _ (Ne.symm h)
  · rfl

theorem restarts_regs {s0 s : State} {kind unit id d : Nat} (hd : d < 16) (h : RegsWithin talkRegs s0 s) :
    RegsWithin talkRegs s0 (s.restarts kind unit id d) := by
  refine regsWithin_talk hd ?_
  split
  · exact h.of_regs rfl rfl
  · exact h

/-- Where no domain folds, sleeps, or is enforced, no keep-alive is a wake (R415). -/
theorem kaWake_idle {s : State} (can : Bool) (unit id : Nat) (hl : s.toListen = false)
    (he : ∀ e ∈ s.validSds, ((s.sdOf e).state = 1 ∨ (s.sdOf e).state = 2) ∧ (s.sdOf e).enforced = false) :
    s.kaWake can unit id = s := by
  have hfold : s.foldToListen = false := by
    unfold foldToListen
    have hany : (s.validSds.filter (fun d => decide (s.fold (F.SV_SD_W0_MEMBER d) = 1))).any
        (fun d => decide ((s.sdOf d).state = 3)) = false := by
      refine List.any_eq_false.mpr fun d hd => ?_
      obtain ⟨hst, -⟩ := he d (List.mem_filter.mp hd).1
      simp only [decide_eq_true_eq]
      omega
    simp [hany]
  have hdue (doms : Nat) : s.validSds.any (fun d => doms.testBit d && (s.sdLate d || decide ((s.sdOf d).state = 4))) =
      false := by
    refine List.any_eq_false.mpr fun d hd => ?_
    obtain ⟨hst, henf⟩ := he d hd
    have h3 : (s.sdOf d).state ≠ 3 := by omega
    have h4 : (s.sdOf d).state ≠ 4 := by omega
    simp [sdLate, entering, hl, hfold, henf, h3, h4]
  simp [kaWake, hdue]

theorem kaTake_restarts {s : State} {ds : List Nat} {d : Nat} (can : Bool) (unit id : Nat) (hd : d ∈ ds)
    (hs : ds.Sublist s.validSds) (hl : s.toListen = false)
    (he : ∀ e ∈ s.validSds, ((s.sdOf e).state = 1 ∨ (s.sdOf e).state = 2) ∧ (s.sdOf e).enforced = false) :
    (s.kaTake ds can unit id true).sdOf d =
        (if (s.sdOf d).state = 2 then { s.sdOf d with timerFrom := s.now } else s.sdOf d) ∧
      (s.kaTake ds can unit id true).rg F.SV_FOLD_KA_RX_COUNT = min (s.rg F.SV_FOLD_KA_RX_COUNT + 1) (2 ^ 32 - 1) := by
  have hne : ds.isEmpty = false := by
    cases ds with
    | nil => exact absurd hd List.not_mem_nil
    | cons => rfl
  have hidle : (s.bump F.SV_FOLD_KA_RX_COUNT).kaWake can unit id = s.bump F.SV_FOLD_KA_RX_COUNT := kaWake_idle can unit id hl he
  have hnd : (ds.map (fun x => x)).Nodup := by
    rw [List.map_id']
    exact hs.nodup ((List.nodup_range).filter _)
  have heq : s.kaTake ds can unit id true = ((s.bump F.SV_FOLD_KA_RX_COUNT).forEach ds
      (fun t d => t.restarts (if can then 2 else 1) unit id d)).validate (if can then s.busSds unit else s.portSds unit) := by
    simp only [kaTake, hne, hidle, restarts, Bool.false_eq_true, if_false, if_true]
  obtain ⟨u, hu, hg⟩ := forEach_at (fun t => (t.sdOf d, t.now)) (fun x => x)
    (fun t d => t.restarts (if can then 2 else 1) unit id d) (k := d) ds
    (fun t e hed => Prod.ext (sdOf_restarts_other _ _ _ _ hed) (restarts_now _ _ _ _ _)) hnd hd rfl
    (s.bump F.SV_FOLD_KA_RX_COUNT)
  obtain ⟨husd, hunow⟩ := Prod.mk.inj hu
  obtain ⟨hsd, -⟩ := Prod.mk.inj hg
  have hregs : RegsWithin talkRegs (s.bump F.SV_FOLD_KA_RX_COUNT) ((s.bump F.SV_FOLD_KA_RX_COUNT).forEach ds
      (fun t d => t.restarts (if can then 2 else 1) unit id d)) :=
    RegsWithin.forEach_mem ds (fun u e he k => restarts_regs (mem_validSds_lt (hs.subset he)) k) (RegsWithin.refl _)
  rw [heq]
  refine ⟨?_, ?_⟩
  · refine hsd.trans ?_
    rw [sdOf_restarts_same, husd, hunow]
    rfl
  · refine (hregs.rg F.SV_FOLD_KA_RX_COUNT (by unfold talkRegs; decide) (by decide)).trans ?_
    exact rg_bump_self _ _ _ (by decide)

/-- A keep-alive of the gateway itself asks for its object (R405). -/
theorem kaCan_requests {s : State} {d c : Nat} (hb : s.kaBlocked c (s.fold (F.SV_SD_W6_KA_OBJ d)) = false) :
    (s.kaCan d c).objStatus c (s.fold (F.SV_SD_W6_KA_OBJ d)) = 1 ∧
      (s.kaCan d c).rg (F.BX_CAN_OBJ_W1_ID c (s.fold (F.SV_SD_W6_KA_OBJ d))) = s.fold (F.SV_SD_W5_KA_TX_ID d) := by
  have ho : s.fold (F.SV_SD_W6_KA_OBJ d) < 128 := Fld.get_lt (F.SV_SD_W6_KA_OBJ d) _
  have hid : s.fold (F.SV_SD_W5_KA_TX_ID d) < 2 ^ 29 := Fld.get_lt (F.SV_SD_W5_KA_TX_ID d) _
  have heq : ∃ x, s.kaCan d c = State.setSd (((s.putHeader c (s.fold (F.SV_SD_W6_KA_OBJ d)) (s.kaCanFrame d)
      (s.rg (F.BX_CAN_OBJ_W3_LEN c (s.fold (F.SV_SD_W6_KA_OBJ d))))).putData c (s.fold (F.SV_SD_W6_KA_OBJ d))
      (s.kaCanFrame d).data).setStatus c (s.fold (F.SV_SD_W6_KA_OBJ d)) 1) d x := by
    simp only [kaCan, hb, Bool.false_eq_true, if_false]
    exact ⟨_, rfl⟩
  obtain ⟨x, heq⟩ := heq
  rw [heq]
  generalize s.fold (F.SV_SD_W6_KA_OBJ d) = o at ho ⊢
  refine ⟨setStatus_shows _ c o (by decide), ?_⟩
  show State.rg (State.setStatus _ c o 1) _ = _
  rw [setStatus, rg_setRg_other _ _ _ _ (by simp) (by simp) (by simp), rg_eq, rd_putData _ _ _ _ (by simp; omega) (by simp; omega),
    ← rg_eq, putHeader_id]
  exact Nat.mod_eq_of_lt hid

end State

open State

/-- Settles O45. -/
theorem keepaliveCommands : Obligations.KeepaliveCommands := by
  unfold Obligations.KeepaliveCommands
  refine ⟨?noNeed, ?can, ?frame, ?ethernet, ?object⟩
  case noNeed =>
    intro n f s hb hf hne hbit
    show execKeepaliveRecognised (.frame n) s = _
    have he : (s.kaFrameSds f).isEmpty = false := by simpa using hne
    simp [execKeepaliveRecognised, hb, hf, kaTake, he, hbit]
  case can =>
    intro c id d ide s hb _ hl hm hd hto he
    show ∃ t, execKeepaliveRecognised (.can c id ide) s = _ ∧ _
    simp only [execKeepaliveRecognised, hb, hl, Bool.not_true, Bool.false_eq_true, if_false]
    rw [if_pos ⟨trivial, hm⟩]
    exact ⟨_, rfl, kaTake_restarts true c id hd List.filter_sublist hto he⟩
  case frame =>
    intro n d f s hb hf hd hbit hto he
    show ∃ t, execKeepaliveRecognised (.frame n) s = _ ∧ _
    have hsub : (s.kaFrameSds f).Sublist s.validSds := by
      unfold kaFrameSds kaDomains
      split
      · split
        · exact List.filter_sublist
        · exact List.nil_sublist _
      · exact List.nil_sublist _
    simp only [execKeepaliveRecognised, hb, hf, hbit, Bool.not_true, Bool.false_eq_true, if_false, decide_true]
    exact ⟨_, rfl, kaTake_restarts false _ _ hd hsub hto he⟩
  case ethernet =>
    intro d s hb hd hn hen hp hmac hbus
    show ∃ t, execKeepaliveTx d s = _ ∧ _
    rw [execKeepaliveTx, if_pos ⟨hb, List.contains_iff_mem.mpr hd, hn, hen⟩, hbus]
    refine ⟨_, rfl, ?_⟩
    rw [sdOf_congr (talk_sd _ _ _ _ _)]
    show (s.kaEthernet d true).sdOf d = _
    rw [kaEthernet]
    dsimp only
    rw [if_neg (by simp [hmac, hp])]
    exact sdOf_setSd_same _ _ _
  case object =>
    intro d c o s hb hd hn hc hen hp hbus ho hblk
    show ∃ t, execKeepaliveTx d s = _ ∧ _
    have hmask : maskList (2 ^ c) 16 = [c] := by
      interval_cases c <;> decide
    rw [execKeepaliveTx, if_pos ⟨hb, List.contains_iff_mem.mpr hd, hn, hen⟩, hbus, hmask]
    have heth : s.kaEthernet d true = s := by simp [kaEthernet, hp]
    rw [heth]
    refine ⟨_, rfl, ?_⟩
    have hreq := kaCan_requests (d := d) (c := c) (by rw [← ho]; exact hblk)
    rw [← ho] at hreq
    have ht : RegsWithin talkRegs (s.kaCan d c) ((s.kaCan d c).talk d 3 0 0) :=
      regsWithin_talk (mem_validSds_lt hd) (RegsWithin.refl _)
    exact ⟨(ht.rg _ (by unfold talkRegs; simp; omega) (.inr (by simp; omega))).trans hreq.1,
      (ht.rg _ (by unfold talkRegs; simp; omega) (.inr (by simp; omega))).trans hreq.2⟩

end Sys2Proof.Machine
end

section
/-!
PROOFS. Statements that leave out a case of the model: each is refuted by a state that meets its hypotheses, and by what
the command does there.
-/

namespace Sys2Proof.Machine

/-! ### The length as received grows with a frame's bytes (R132, R135) -/

/-- Port 0 receives frame 0, of which nothing has come yet. -/
def receivingFirst : State :=
  { State.reset with sx.frames := [(0, some (newFrame 0 0 0 0 0 false))], sx.rx := [(0, some 0)] }

theorem receivingFirst_takes_bank0 : (receivingFirst.addBytes 0 [1]).nextBank = some 0 := by decide

theorem receivingFirst_counts_its_length :
    ((State.after (exec (.rxRuntMinReached 0 [1]) receivingFirst) receivingFirst).frameOf 0).map (·.rxLen) = some 1 := by
  decide

/-- Refutes O17: further bytes also add to the length as received, which clause (2) says they leave. -/
theorem not_frameReception : ¬ Obligations.FrameReception := by
  unfold Obligations.FrameReception
  rintro ⟨-, further, -⟩
  obtain ⟨t, u, hexec, -, hframe, -⟩ := further 0 0 0 [1] (newFrame 0 0 0 0 0 false) receivingFirst (by decide) rfl rfl rfl
    rfl (by decide) rfl receivingFirst_takes_bank0
  have counted := receivingFirst_counts_its_length
  rw [hexec] at counted
  rw [show (State.after (.next t) receivingFirst).frameOf 0 = t.frameOf 0 from rfl, hframe] at counted
  exact absurd counted (by decide)

/-! ### A dropped frame waits for its learn request (R206) -/

/-- A good frame that became DROP before its verification ended, and whose learn request stands. -/
def unverifiedDrop : Frame :=
  { newFrame 0 0 0 0 0 false with
    rxDone := true, good := true, verdict := .drop, ce := some ⟨0, 0, 0, [], [], false⟩ }

/-- It is the only frame. -/
def learnPending : State :=
  { State.reset with sx.frames := [(0, some unverifiedDrop)], fx.learn := [⟨0, 0, 0, 0, false, true⟩] }

theorem learnPending_keeps_frame :
    (State.after (exec (.sxEnqueue 0) learnPending) learnPending).frameOf 0 = some unverifiedDrop := by
  decide

/-- Refutes O19: step 7 does not discard a frame whose learn request waits for its verification. -/
theorem not_egressCommands : ¬ Obligations.EgressCommands := by
  unfold Obligations.EgressCommands
  rintro ⟨discarded, -⟩
  obtain ⟨t, hexec, hgone, -⟩ := discarded 0 unverifiedDrop learnPending rfl (by decide) rfl (by decide) rfl rfl
  have kept := learnPending_keeps_frame
  rw [hexec] at kept
  exact absurd (hgone.symm.trans kept) (by simp)

/-! ### A directed keep-alive does not reach the ports of an ENFORCED domain (R196, R418) -/

/-- A keep-alive of wire domain 0 with a directive to port 0. -/
def directedKa : Frame :=
  { newFrame 0 0 0 0 0 false with
    rxDone := true, cells := [0], directive := some 1
    bytes := [0, 0, 0, 0, 0, 1, 2, 2, 2, 2, 2, 2, 0x88, 0xB6, 1, 0] }

/-- Domain 0, with port 0, is ENFORCED, and the keep-alives' address is 1. -/
def enforcedDomain : State :=
  { State.reset with
    sx.frames := [(0, some directedKa)]
    active := [(12, rfSet [] F.SV_FOLD_CFG_LO_KA_MAC 1)]
    aon.cfg12 := rfSet (rfSet [] (F.SV_SD_W0_VALID 0) 1) (F.SV_SD_W1_PORTS_LO 0) 1
    aon.sd := [(0, { emptySd with state := 2, enforced := true })] }

theorem enforcedDomain_blocks :
    ((State.after (exec (.fxPipelinePass 0 0) enforcedDomain) enforcedDomain).frameOf 0).map (·.egress) = some 0 := by
  decide

/-- Refutes O22: a frame with a directive loses the ports of an ENFORCED domain where it is a keep-alive of it. -/
theorem not_pipelinePass : ¬ Obligations.PipelinePass := by
  unfold Obligations.PipelinePass
  rintro ⟨directed, -⟩
  obtain ⟨t, g, hexec, hframe, hegress, -⟩ := directed 0 0 1 directedKa enforcedDomain rfl rfl rfl rfl (by decide) rfl rfl
    (by decide) rfl
  have blocked := enforcedDomain_blocks
  rw [hexec] at blocked
  rw [show (State.after (.next t) enforcedDomain).frameOf 0 = t.frameOf 0 from rfl, hframe, Option.map_some, hegress]
    at blocked
  exact absurd blocked (by decide)

/-! ### A learn request waits for CE (R206) -/

/-- A request that CE has still to let pass. -/
def sealedRequest : LearnReq := ⟨0, 0, 0, 0, true, true⟩

/-- Its entry is learned already. -/
def learnedEntry : FdbEntry := ⟨0, 0, false, 0, 0, 0, true, true⟩

/-- The request is the only one, the entry too. -/
def sealedLearn : State :=
  { State.reset with fx.learn := [sealedRequest], fx.fdb := [(0, some learnedEntry)] }

theorem sealedLearn_waits : (State.after (exec .learnCommit sealedLearn) sealedLearn).fx.learn = [sealedRequest] := by
  decide

/-- Refutes O23: a request of a good frame that CE has still to let pass is not committed. -/
theorem not_bridgeTable : ¬ Obligations.BridgeTable := by
  unfold Obligations.BridgeTable
  rintro ⟨refreshed, -⟩
  obtain ⟨t, hexec, herased, -⟩ := refreshed sealedRequest 0 learnedEntry sealedLearn rfl (by decide)
    (by decide) rfl
  have waits := sealedLearn_waits
  rw [hexec] at waits
  exact absurd (herased.symm.trans waits) (by decide)

/-! ### A frame whose copy stands in a Hamper page in DRAM awaits that page (R111, R179) -/

/-- An old frame that no queue has taken yet. -/
def agedFrame : Frame := { newFrame 0 1 0 0 0 false with rxDone := true, stage := .looked, live := 1 }

/-- A page of the old epoch in DRAM, with a copy of frame 0. -/
def agedPage : HPage :=
  ⟨0, .dram, 1, 0, 0, 0, [⟨0, 0, 0, false, false, none, false, false, none, none, none, none, none⟩], 0, [], false, false, 0,
    []⟩

/-- A Stitch has waited for the drain beyond DRAIN_LIM; queue 0 has the page and no copy on the die. -/
def drainOverdue : State :=
  { State.reset with
    now := 1000000000
    sv.txns := [(0, { freeTxn with state := .draining })]
    sx.frames := [(0, some agedFrame)]
    sx.queues := [(0, { emptyQueue with pages := [agedPage] })] }

theorem drainOverdue_meets : drainOverdue.drainWaited = true ∧ drainOverdue.busyQueues = [] ∧
    (∀ p < 41, ∀ m < 4, drainOverdue.mqOf p m = []) ∧ (∀ p < 41, drainOverdue.txOf p = none) ∧
    drainOverdue.agedId 0 = true := by
  decide

theorem drainOverdue_keeps_frame :
    ((State.after (exec .drainLimAgeDiscard drainOverdue) drainOverdue).frameOf 0).isSome = true := by
  decide +kernel

/-- Refutes O30: an aged frame with a copy in a page in DRAM keeps its record until that page has returned. -/
theorem not_commitAndLoad : ¬ Obligations.CommitAndLoad := by
  unfold Obligations.CommitAndLoad
  rintro ⟨-, -, -, onlyFrame, -⟩
  obtain ⟨hwaited, hqueues, hmqs, htx, haged⟩ := drainOverdue_meets
  obtain ⟨t, hexec, hgone, -⟩ := onlyFrame 0 agedFrame drainOverdue hwaited rfl hqueues hmqs htx rfl haged (by decide) rfl
  have kept := drainOverdue_keeps_frame
  rw [hexec] at kept
  rw [show (State.after (.next t) drainOverdue).frameOf 0 = t.frameOf 0 from rfl, hgone] at kept
  exact absurd kept (by decide)

/-! ### After three failed retries the power die answers wakes (R536) -/

/-- The rails wait for a retry after the third failure. -/
def retriesSpent : State := { State.reset with pw.power := .retry, pw.retries := 3 }

theorem retriesSpent_rises :
    (State.after (exec (.listenExit 6 0) retriesSpent) retriesSpent).pw.power = .rising := by
  decide

/-- Refutes O34: outside LISTEN a wake still starts the rails where three retries have failed. -/
theorem not_modeSteps : ¬ Obligations.ModeSteps := by
  unfold Obligations.ModeSteps
  rintro ⟨-, -, -, -, -, -, -, -, outside, -⟩
  have rises := retriesSpent_rises
  rw [outside 6 0 retriesSpent (.inl (by decide))] at rises
  exact absurd rises (by decide)

/-! ### An access of no byte at the end of the outbound area (R448, R467) -/

/-- The SoC die is up. -/
def dieUp : State := { State.reset with pw.power := .up }

/-- The map's reserved range answers; nothing is counted. -/
theorem dieUp_counts_nothing : (State.after (exec (.outboundAccess .sv false (outBase + outSize) 0 []) dieUp) dieUp).rg
    F.MX_HB_SIZE_ERR_COUNT = 0 := by
  decide

theorem dieUp_bumped : (dieUp.bump F.MX_HB_SIZE_ERR_COUNT).rg F.MX_HB_SIZE_ERR_COUNT = 1 := by decide

/-- Refutes O53: an access of no byte at the end of the outbound area is unsupported, and reserved, so that it is not
counted. -/
theorem not_outboundCommands : ¬ Obligations.OutboundCommands := by
  unfold Obligations.OutboundCommands
  rintro ⟨-, -, -, -, unsupported, -⟩
  have nothing := dieUp_counts_nothing
  rw [unsupported .sv false (outBase + outSize) 0 [] dieUp rfl (by decide) (by decide) (by decide)] at nothing
  exact absurd (dieUp_bumped.symm.trans nothing) (by decide)

end Sys2Proof.Machine
end

section
/-!
PROOFS. The CRC snoop units (R504 to R508).
-/

namespace Sys2Proof.Machine

namespace State

@[simp] theorem csuOf_setCsu_same (s : State) (u : Nat) (c : Csu) : (s.setCsu u c).csuOf u = c :=
  Sparse.get_set_same _ _ _ _

theorem rg_setCsu (s : State) (u : Nat) (c : Csu) (f : Fld) : (s.setCsu u c).rg f = s.rg f := rfl

/-- The oldest frame of a held unit is counted (R507). -/
theorem csuEnd_held {s : State} {u : Nat} {bs : List Byte} {rest : List (List Byte)} (h : (s.csuOf u).stream = bs :: rest)
    (hold : s.rg (F.OB_CSU_STAT_HOLD_ACK u) = 1) :
    s.csuEnd u = (s.setCsu u { s.csuOf u with stream := rest }).bump (F.OB_CSU_HELD_COUNT u) := by
  rw [csuEnd]
  dsimp only
  rw [h]
  exact if_pos hold

/-- The oldest frame of a unit that runs passes it (R506). -/
theorem csuEnd_runs {s : State} {u : Nat} {bs : List Byte} {rest : List (List Byte)} (h : (s.csuOf u).stream = bs :: rest)
    (run : s.rg (F.OB_CSU_STAT_HOLD_ACK u) = 0) :
    s.csuEnd u = (s.setCsu u { s.csuOf u with stream := rest }).csuFrame u bs := by
  rw [csuEnd]
  dsimp only
  rw [h]
  exact if_neg (by rw [run]; decide)

/-- A frame that a unit covers, in the mode that begins each frame afresh (R506). -/
theorem csuFrame_covers {s : State} {u : Nat} {bs : List Byte} (hp : s.csuPasses u bs = true) (hc : s.csuCovered u bs ≠ [])
    (hm : s.act (F.OB_CSU_CFG_MODE u) = 0) :
    s.csuFrame u bs = ((s.setRg (F.OB_CSU_RUN_RUN u) (crcRun (s.csuKind u) (s.csuInit u) (s.csuCovered u bs))).setRg
      (F.OB_CSU_RESULT_RESULT u) (s.csuResult u (crcRun (s.csuKind u) (s.csuInit u) (s.csuCovered u bs)))).bump
      (F.OB_CSU_FRAMES_COUNT u) := by
  rw [csuFrame]
  dsimp only
  rw [hp, if_neg (by decide), if_neg hc, if_pos hm]

end State

open State

/-- Settles O59. -/
theorem snoopCommands : Obligations.SnoopCommands := by
  unfold Obligations.SnoopCommands
  refine ⟨?held, ?covered, ?software, ?acked, ?reattached, ?written, ?discarded⟩
  case held =>
    intro u bs rest s hu hup hst hold
    show ∃ t, execCsuFrameEnd u s = _ ∧ _
    rw [execCsuFrameEnd, if_pos ⟨hup, hu⟩, csuEnd_held hst hold]
    refine ⟨_, rfl, ?_, ?_, ?_⟩
    · show ((s.setCsu u { s.csuOf u with stream := rest }).csuOf u).stream = rest
      rw [csuOf_setCsu_same]
    · rw [rg_bump_other _ _ _ _ (by simp) (by simp) (by simp), rg_setCsu]
    · rw [rg_bump_self _ _ _ (by simp), rg_setCsu]
  case covered =>
    intro u bs rest s hu hup hst hrun hpass hcov hmode
    show ∃ t, execCsuFrameEnd u s = _ ∧ _
    rw [execCsuFrameEnd, if_pos ⟨hup, hu⟩, csuEnd_runs hst hrun,
      csuFrame_covers (s := s.setCsu u { s.csuOf u with stream := rest }) hpass hcov hmode]
    refine ⟨_, rfl, ?_, ?_, ?_⟩
    · show ((s.setCsu u { s.csuOf u with stream := rest }).csuOf u).stream = rest
      rw [csuOf_setCsu_same]
    · rw [rg_bump_other _ _ _ _ (by simp) (by simp) (by simp), rg_setRg_other _ _ _ _ (by simp) (by simp) (by simp),
        rg_setRg_self _ _ _ (by simp)]
      rfl
    · rw [rg_bump_self _ _ _ (by simp), rg_setRg_other _ _ _ _ (by simp) (by simp) (by simp),
        rg_setRg_other _ _ _ _ (by simp) (by simp) (by simp), rg_setCsu]
  case software =>
    intro a u s hr ho
    show ∃ t v, execCsuHold a u s = _ ∧ _ ∧ execCsuClear a u s = _ ∧ _
    rw [execCsuHold, execCsuClear, byAgent_reaches _ _ _ hr, byAgent_reaches _ _ _ hr, if_pos ho, if_pos ho]
    refine ⟨_, _, rfl, ?_, rfl, ?_⟩
    · show (s.setRg (F.OB_CSU_CTL_HOLD u) 1).rg (F.OB_CSU_CTL_HOLD u) = 1
      exact rg_setRg_self _ _ _ (by simp)
    · show (s.setRg (F.OB_CSU_RUN_RUN u) (s.act (F.OB_CSU_INIT_INIT u))).rg (F.OB_CSU_RUN_RUN u) = _
      rw [rg_setRg_self _ _ _ (by simp)]
      exact Nat.mod_eq_of_lt (Fld.get_lt (F.OB_CSU_INIT_INIT u) _)
  case acked =>
    intro u s hu hup hold
    show ∃ t, execCsuHoldAck u s = _ ∧ _
    rw [execCsuHoldAck, if_pos ⟨hup, hu, hold⟩]
    exact ⟨_, rfl, rg_setRg_self _ _ _ (by simp), (moves_setRg (List.Subset.refl _) (moves_refl s)).1⟩
  case reattached =>
    intro a s hr hb
    show ∃ t, execCsuReattach a s = _ ∧ _
    rw [execCsuReattach, byAgent_reaches _ _ _ hr, csuReattach, if_pos hb]
    refine ⟨_, rfl, ?_⟩
    show ((s.setCsu 0 { s.csuOf 0 with attached := true }).csuOf 0).attached = true ∧
      ((s.setCsu 0 { s.csuOf 0 with attached := true }).csuOf 0).stream = _
    rw [csuOf_setCsu_same]
    exact ⟨rfl, rfl⟩
  case written =>
    intro a u data s hr ho hold
    show ∃ t, execCsuRunWrite a u data s = _ ∧ _
    rw [execCsuRunWrite, byAgent_reaches _ _ _ hr, if_pos ho, csuRun, if_pos hold]
    exact ⟨_, rfl, rd_wr_self s _ data⟩
  case discarded =>
    intro a u data s hr hrun
    show execCsuRunWrite a u data s = _
    rw [execCsuRunWrite, byAgent_reaches _ _ _ hr, csuRun, if_neg (c := s.rg (F.OB_CSU_STAT_HOLD_ACK u) = 1)
      (by rw [hrun]; decide), ite_self]
    rfl

end Sys2Proof.Machine
end

section
/-!
PROOFS. The bytes of the flash and of the DRAM after each update of them: which bytes an erasure, a program or a write
changes, and to what.
-/

namespace Sys2Proof.Machine

/-- A filter by key takes back what it drops to what an unlisted key reads as. -/
theorem Sparse.get_filter {β : Type} (d : Nat → β) (m : Sparse β) (p : Nat → Bool) (k : Nat) :
    Sparse.get d (m.filter (fun e => p e.1)) k = if p k = true then Sparse.get d m k else d k := by
  induction m with
  | nil => simp [Sparse.get]
  | cons a m ih =>
    obtain ⟨j, v⟩ := a
    by_cases hj : p j = true
    · rw [List.filter_cons_of_pos (by exact hj), Sparse.get, Sparse.get, ih]
      by_cases hk : j = k
      · rw [if_pos hk, if_pos hk, if_pos (hk ▸ hj)]
      · rw [if_neg hk, if_neg hk]
    · rw [List.filter_cons_of_neg (by exact hj), ih, Sparse.get]
      by_cases hk : j = k
      · rw [if_neg (hk ▸ hj), if_neg (hk ▸ hj)]
      · rw [if_neg hk]

/-- The first byte written at a place, or one behind it. -/
theorem getD_behind {bs : List Byte} {b : Byte} {a y : Nat} (h : a + 1 ≤ y) :
    (b :: bs).getD (y - a) 0 = bs.getD (y - (a + 1)) 0 := by
  rw [show y - a = (y - (a + 1)) + 1 by omega, List.getD_cons_succ]

namespace State

/-! ### Flash -/

theorem nvByte_congr {s t : State} (h : t.nv = s.nv) (o : Nat) : t.nvByte o = s.nvByte o := by
  rw [nvByte, nvByte, h]

theorem nvRead_congr {s t : State} (h : t.nv = s.nv) (o n : Nat) : t.nvRead o n = s.nvRead o n :=
  List.map_congr_left fun i _ => nvByte_congr h (o + i)

@[simp] theorem nvRead_length (s : State) (o n : Nat) : (s.nvRead o n).length = n := by
  rw [nvRead, List.length_map, List.length_range]

theorem nvRead_getElem (s : State) (o n : Nat) {i : Nat} (h : i < (s.nvRead o n).length) :
    (s.nvRead o n)[i] = s.nvByte (o + i) := by
  simp [nvRead]

/-- A read is given by its bytes. -/
theorem nvRead_ext {s : State} {o : Nat} {bs : List Byte} (h : ∀ i < bs.length, s.nvByte (o + i) = bs.getD i 0) :
    s.nvRead o bs.length = bs := by
  refine List.ext_getElem (nvRead_length _ _ _) fun i _ hi => ?_
  rw [nvRead_getElem, h i hi, List.getD_eq_getElem _ _ hi]

/-- What is put at an offset. -/
theorem nvByte_nvPutAll (s : State) (off : Nat) (bs : List Byte) (o : Nat) :
    (s.nvPutAll off bs).nvByte o = if off ≤ o ∧ o < off + bs.length then bs.getD (o - off) 0 else s.nvByte o := by
  induction bs generalizing s off with
  | nil => simp [nvPutAll]
  | cons b bs ih =>
    rw [nvPutAll, ih, List.length_cons]
    by_cases ho : o = off
    · subst ho
      rw [if_neg (by omega), if_pos (by omega), Nat.sub_self]
      exact Sparse.get_set_same _ _ _ _
    · have hput : (s.nvPut off b).nvByte o = s.nvByte o := Sparse.get_set_ne _ _ _ ho
      by_cases hin : off + 1 ≤ o ∧ o < off + 1 + bs.length
      · rw [if_pos hin, if_pos (by omega), getD_behind hin.1]
      · rw [if_neg hin, if_neg (by omega), hput]

/-- An erasure sets its bytes to 0xFF and no other. -/
theorem nvByte_nvErase (s : State) (off n o : Nat) :
    (s.nvErase off n).nvByte o = if off ≤ o ∧ o < off + n then 0xFF else s.nvByte o := by
  rw [nvByte, nvErase, Sparse.get_filter flashBlank s.nv.flash (fun k => decide (k < off ∨ off + n ≤ k)) o]
  by_cases h : off ≤ o ∧ o < off + n
  · rw [if_pos h, if_neg (by simp; omega)]
  · rw [if_neg h, if_pos (by simp; omega), nvByte]

/-- A program takes its bytes into those that stand there, and changes no other. -/
theorem nvByte_nvProgram (s : State) (off : Nat) (bs : List Byte) (o : Nat) :
    (s.nvProgram off bs).nvByte o =
      if off ≤ o ∧ o < off + bs.length then bs.getD (o - off) 0 &&& s.nvByte o else s.nvByte o := by
  rw [nvProgram, nvByte_nvPutAll]
  simp only [List.length_map, List.length_zip, nvRead_length, Nat.min_self]
  by_cases h : off ≤ o ∧ o < off + bs.length
  · have hi : o - off < bs.length := by omega
    rw [if_pos h, if_pos h, List.getD_eq_getElem _ _ (by simpa using hi), List.getD_eq_getElem _ _ hi, List.getElem_map,
      List.getElem_zip, nvRead_getElem, show off + (o - off) = o by omega]
  · rw [if_neg h, if_neg h]

theorem nvByte_nvProgram_outside {s : State} {off o : Nat} {bs : List Byte} (h : o < off ∨ off + bs.length ≤ o) :
    (s.nvProgram off bs).nvByte o = s.nvByte o := by
  rw [nvByte_nvProgram, if_neg (by omega)]

/-- A program of blank bytes writes what it is given. -/
theorem nvByte_nvProgram_blank {s : State} {off i : Nat} {bs : List Byte} (hi : i < bs.length)
    (hb : s.nvByte (off + i) = 0xFF) : (s.nvProgram off bs).nvByte (off + i) = bs.getD i 0 := by
  rw [nvByte_nvProgram, if_pos (by omega), hb, Nat.add_sub_cancel_left]
  exact BitVec.and_allOnes

theorem nvPutAll_counter (s : State) (off : Nat) (bs : List Byte) : (s.nvPutAll off bs).nv.counter = s.nv.counter := by
  induction bs generalizing s off with
  | nil => rfl
  | cons b bs ih => rw [nvPutAll, ih, nvPut]

theorem nvProgram_counter (s : State) (off : Nat) (bs : List Byte) :
    (s.nvProgram off bs).nv.counter = s.nv.counter :=
  nvPutAll_counter s off _

/-! ### DRAM -/

/-- The byte that a core reads at a DRAM address: from its caches, else from DRAM (R448). -/
def dramAt (s : State) (y : Nat) : Byte :=
  (Sparse.get (fun _ => none) s.mx.cached y).getD (Sparse.get (fun _ => 0) s.mx.dram y)

theorem dramRd_eq (s : State) (a n : Nat) : s.dramRd a n = (List.range n).map (fun i => s.dramAt (a + i)) := rfl

@[simp] theorem dramRd_length (s : State) (a n : Nat) : (s.dramRd a n).length = n := by
  rw [dramRd_eq, List.length_map, List.length_range]

theorem dramAt_congr {s t : State} (h : t.mx.dram = s.mx.dram) (hc : t.mx.cached = s.mx.cached) (y : Nat) :
    t.dramAt y = s.dramAt y := by
  rw [dramAt, dramAt, h, hc]

/-- Reads of a place whose bytes are the same. -/
theorem dramRd_of_dramAt {s t : State} {a n : Nat} (h : ∀ y, a ≤ y → y < a + n → t.dramAt y = s.dramAt y) :
    t.dramRd a n = s.dramRd a n := by
  rw [dramRd_eq, dramRd_eq]
  exact List.map_congr_left fun i hi => h (a + i) (by omega) (by have := List.mem_range.mp hi; omega)

theorem dramRd_congr {s t : State} (h : t.mx.dram = s.mx.dram) (hc : t.mx.cached = s.mx.cached) (a n : Nat) :
    t.dramRd a n = s.dramRd a n :=
  dramRd_of_dramAt fun y _ _ => dramAt_congr h hc y

/-- A write takes its bytes to its place, and changes no other. -/
theorem dramAt_dramWr (s : State) (a : Nat) (bs : List Byte) (y : Nat) :
    (s.dramWr a bs).dramAt y = if a ≤ y ∧ y < a + bs.length then bs.getD (y - a) 0 else s.dramAt y := by
  induction bs generalizing s a with
  | nil => simp [dramWr]
  | cons b bs ih =>
    rw [dramWr, ih, List.length_cons]
    by_cases hy : y = a
    · subst hy
      rw [if_neg (by omega), if_pos (by omega), Nat.sub_self]
      simp only [dramAt, dramPut, Sparse.get_set_same]
      rfl
    · have hput : ({ s.dramPut a b with mx.cached := Sparse.set (fun _ => none) s.mx.cached a none } : State).dramAt y =
          s.dramAt y := by
        simp only [dramAt, dramPut, Sparse.get_set_ne _ _ _ hy]
      by_cases hin : a + 1 ≤ y ∧ y < a + 1 + bs.length
      · rw [if_pos hin, if_pos (by omega), getD_behind hin.1]
      · rw [if_neg hin, if_neg (by omega), hput]

theorem dramAt_dramWr_outside {s : State} {a y : Nat} {bs : List Byte} (h : y < a ∨ a + bs.length ≤ y) :
    (s.dramWr a bs).dramAt y = s.dramAt y := by
  rw [dramAt_dramWr, if_neg (by omega)]

/-- What is written reads back. -/
theorem dramRd_dramWr_same (s : State) (a : Nat) (bs : List Byte) : (s.dramWr a bs).dramRd a bs.length = bs := by
  rw [dramRd_eq]
  refine List.ext_getElem (by simp) fun i hi hb => ?_
  rw [List.getElem_map, List.getElem_range, dramAt_dramWr, if_pos (by omega), Nat.add_sub_cancel_left,
    List.getD_eq_getElem _ _ hb]

/-- What is written reads back, in part. -/
theorem dramRd_dramWr_inside {s : State} {a i n : Nat} {bs : List Byte} (h : i + n ≤ bs.length) :
    (s.dramWr a bs).dramRd (a + i) n = (bs.drop i).take n := by
  rw [dramRd_eq]
  refine List.ext_getElem (by simp; omega) fun j hj hb => ?_
  have hjn : j < n := by simpa using hj
  rw [List.getElem_map, List.getElem_range, dramAt_dramWr, if_pos (by omega), show a + i + j - a = i + j by omega,
    List.getD_eq_getElem _ _ (by omega), List.getElem_take, List.getElem_drop]

theorem dramRd_dramWr_apart {s : State} {a b n : Nat} {bs : List Byte} (h : b + n ≤ a ∨ a + bs.length ≤ b) :
    (s.dramWr a bs).dramRd b n = s.dramRd b n :=
  dramRd_of_dramAt fun y _ _ => dramAt_dramWr_outside (by omega)

end State

end Sys2Proof.Machine
end

section
/-!
PROOFS. The ledger: its flush, its scan and its verification (R512 to R516).
-/

namespace Sys2Proof.Machine

@[simp] theorem leBytes_length (n v : Nat) : (leBytes n v).length = n := by
  induction n generalizing v with
  | zero => rfl
  | succ n ih => rw [leBytes, List.length_cons, ih]

@[simp] theorem beBytes_length (n v : Nat) : (beBytes n v).length = n := by
  rw [beBytes, List.length_reverse, leBytes_length]

@[simp] theorem slice0_length (bs : List Byte) (i n : Nat) : (slice0 bs i n).length = n := by
  have htake : ((bs.drop i).take n).length ≤ n := List.length_take_le _ _
  rw [slice0, List.length_append, List.length_replicate]
  omega

theorem ledgerBytes_length (r : LedgerRec) (unauth : Bool) (seq boot : Nat) : (ledgerBytes r unauth seq boot).length = 48 := by
  simp [ledgerBytes]

namespace State

theorem kxUse_moves (s : State) (n bit : Nat) : moves [.out, .regs, .scope] s (s.kxUse n bit).1 :=
  moves_kxUse (List.Subset.refl _) (moves_refl s)

/-- A blank record's bytes are 0xFF. -/
theorem nvByte_of_blank {s : State} {n i : Nat} (h : recBlank (s.recAt n) = true) (hi : i < 64) :
    s.nvByte (ledgerAt n + i) = 0xFF := by
  have hall := List.all_eq_true.mp h (s.nvByte (ledgerAt n + i))
    (List.mem_map.mpr ⟨i, List.mem_range.mpr hi, rfl⟩)
  simpa using hall

theorem ledgerRoom_inside {s : State} (h : s.ob.ledger.nextSeq % 64 ≠ 0) : s.ledgerRoom = s := if_pos (.inl h)

/-- The state that a record is written in, its key used and a first UNAUTH record told (R513). -/
def ledgerUsed (s : State) : State :=
  if (s.kxUse 5 9).2 ∨ s.ob.ledger.unauthSeen then (s.kxUse 5 9).1
  else ({ (s.kxUse 5 9).1 with ob.ledger.unauthSeen := true }).raise 28

theorem ledgerUsed_nv (s : State) : s.ledgerUsed.nv = s.nv := by
  have hk : (s.kxUse 5 9).1.nv = s.nv := (kxUse_moves s 5 9).1 .nv (by decide)
  unfold ledgerUsed
  split
  · exact hk
  · exact (raise_nv _ _ _).trans hk

theorem ledgerUsed_lostPending (s : State) : s.ledgerUsed.ob.ledger.lostPending = s.ob.ledger.lostPending := by
  have hk : (s.kxUse 5 9).1.ob = s.ob := (kxUse_moves s 5 9).1 .ob (by decide)
  unfold ledgerUsed
  split
  · rw [hk]
  · rw [raise_ob]
    exact congrArg (fun o => o.ledger.lostPending) hk

/-- The TAG of a record, zeros where the key is not usable (R513). -/
def ledgerTagOf (s : State) (r : LedgerRec) : List Byte :=
  if (s.kxUse 5 9).2 then (s.kxUse 5 9).1.ledgerTag
    (ledgerBytes r (!(s.kxUse 5 9).2) s.ob.ledger.nextSeq s.ob.ledger.boots) s.ob.ledger.prevTag
  else List.replicate 16 0

/-- The 64 bytes of a record. -/
def ledgerRecord (s : State) (r : LedgerRec) : List Byte :=
  ledgerBytes r (!(s.kxUse 5 9).2) s.ob.ledger.nextSeq s.ob.ledger.boots ++ s.ledgerTagOf r

theorem ledgerRecord_length (s : State) (r : LedgerRec) : (s.ledgerRecord r).length = 64 := by
  have htag : (s.ledgerTagOf r).length = 16 := by
    unfold ledgerTagOf
    split
    · rw [ledgerTag, beBytes_length]
    · exact List.length_replicate ..
  rw [ledgerRecord, List.length_append, ledgerBytes_length, htag]

/-- The place of the next record moves on. -/
def ledgerMoved (s : State) (seq : Nat) (tag : List Byte) : State :=
  { s with ob.ledger.nextSeq := seq, ob.ledger.count := s.ob.ledger.count + 1, ob.ledger.prevTag := tag }.showLedger

/-- A record inside a sector is one program of its bytes at its place. -/
theorem ledgerWrite_inside {s : State} (r : LedgerRec) (h : s.ob.ledger.nextSeq % 64 ≠ 0) :
    s.ledgerWrite r = (s.ledgerUsed.nvProgram (ledgerAt s.ob.ledger.nextSeq) (s.ledgerRecord r)).ledgerMoved
      ((s.ob.ledger.nextSeq + 1) % 2 ^ 32) (s.ledgerTagOf r) := by
  unfold ledgerWrite ledgerUsed ledgerRecord ledgerTagOf ledgerMoved
  rw [ledgerRoom_inside h]

theorem showLedger_moves (s : State) : moves [.regs] s s.showLedger :=
  moves_showLedger (List.Subset.refl _) (moves_refl s)

theorem ledgerMoved_nv (s : State) (seq : Nat) (tag : List Byte) : (s.ledgerMoved seq tag).nv = s.nv := by
  rw [ledgerMoved, (showLedger_moves _).1 .nv (by decide)]

theorem ledgerMoved_lostPending (s : State) (seq : Nat) (tag : List Byte) :
    (s.ledgerMoved seq tag).ob.ledger.lostPending = s.ob.ledger.lostPending := by
  rw [ledgerMoved, (showLedger_moves _).1 .ob (by decide)]

theorem ledgerMoved_nextSeq (s : State) (seq : Nat) (tag : List Byte) :
    (s.ledgerMoved seq tag).ob.ledger.nextSeq = seq := by
  rw [ledgerMoved, (showLedger_moves _).1 .ob (by decide)]

theorem ledgerWrite_lostPending {s : State} (r : LedgerRec) (h : s.ob.ledger.nextSeq % 64 ≠ 0) :
    (s.ledgerWrite r).ob.ledger.lostPending = s.ob.ledger.lostPending := by
  rw [ledgerWrite_inside r h, ledgerMoved_lostPending, ← ledgerUsed_lostPending s,
    (moves_nvProgram (ps := [.nv]) (List.Subset.refl _) (moves_refl s.ledgerUsed)).1 .ob (by decide)]

/-- Where a record inside a sector has room, its bytes stand in flash, and no other byte changes. -/
theorem nvByte_ledgerWrite {s : State} (r : LedgerRec) (h : s.ob.ledger.nextSeq % 64 ≠ 0)
    (hb : recBlank (s.recAt s.ob.ledger.nextSeq) = true) :
    (∀ i < 64, (s.ledgerWrite r).nvByte (ledgerAt s.ob.ledger.nextSeq + i) = (s.ledgerRecord r).getD i 0) ∧
      ∀ o, (o < ledgerAt s.ob.ledger.nextSeq ∨ ledgerAt s.ob.ledger.nextSeq + 64 ≤ o) →
        (s.ledgerWrite r).nvByte o = s.nvByte o := by
  have hlen := ledgerRecord_length s r
  rw [ledgerWrite_inside r h]
  refine ⟨fun i hi => ?_, fun o ho => ?_⟩
  · rw [nvByte_congr (ledgerMoved_nv _ _ _)]
    refine nvByte_nvProgram_blank (by rw [hlen]; exact hi) ?_
    rw [nvByte_congr (ledgerUsed_nv s)]
    exact nvByte_of_blank hb hi
  · rw [nvByte_congr (ledgerMoved_nv _ _ _), nvByte_nvProgram_outside (by rw [hlen]; exact ho),
      nvByte_congr (ledgerUsed_nv s)]

/-- The buffer is empty. -/
def bufferEmptied (s : State) : State := { s with ob.ledger.buf := [], ob.ledger.lostPending := 0 }

theorem nvByte_bufferEmptied (s : State) (o : Nat) : s.bufferEmptied.nvByte o = s.nvByte o := rfl

theorem nextSeq_bufferEmptied (s : State) : s.bufferEmptied.ob.ledger.nextSeq = s.ob.ledger.nextSeq := rfl

/-- A flush of one record writes it, and empties the buffer (R515). -/
theorem ledgerFlush_single {s : State} {x : LedgerRec} (hs : s.ob.ledger.scanned = true) (hb : s.ob.ledger.buf = [x])
    (hl : (s.ledgerWrite x).ob.ledger.lostPending = 0) : s.ledgerFlush = (s.ledgerWrite x).bufferEmptied := by
  have hfold : s.forEach s.ob.ledger.buf ledgerWrite = s.ledgerWrite x := by rw [hb]; rfl
  rw [ledgerFlush]
  dsimp only
  rw [hfold, hs, if_neg (by decide), if_pos hl, bufferEmptied]

/-- A record begins with MAGIC and its TYPE (R512). -/
theorem ledgerRecord_begins (s : State) (r : LedgerRec) : (s.ledgerRecord r).getD 0 0 = 0x47 ∧
    (s.ledgerRecord r).getD 1 0 = 0x4C ∧ (s.ledgerRecord r).getD 2 0 = Byte.ofNat r.type := by
  unfold ledgerRecord
  generalize s.ledgerTagOf r = tag
  generalize (s.kxUse 5 9).2 = auth
  exact ⟨rfl, rfl, rfl⟩

/-- Where the scan goes on (R515). -/
theorem ledgerScan_ob (s : State) : s.ledgerScan.ob.ledger.scanned = true ∧
    s.ledgerScan.ob.ledger.buf = s.ob.ledger.buf ∧
    s.ledgerScan.ob.ledger.nextSeq = s.skipTorn ((s.newestSeq.map (fun m => (m + 1) % 2 ^ 32)).getD 0) 64 ∧
    (s.newestSeq = none → s.ledgerScan.ob.ledger.boots = 0) := by
  rw [ledgerScan]
  dsimp only
  rw [(showLedger_moves _).1 .ob (by decide)]
  generalize s.newestSeq = newest
  cases newest with
  | none =>
    dsimp only [Option.map_none, Option.getD_none]
    exact ⟨rfl, rfl, rfl, fun _ => rfl⟩
  | some m =>
    dsimp only [Option.map_some, Option.getD_some]
    exact ⟨rfl, rfl, rfl, fun h => nomatch h⟩

/-- The word of SV_LEDGER_RES at the end of VERIFY (R516): the RESULT, BUSY 0, the UNAUTH records. -/
theorem rg_ledgerRes (s : State) {r n : Nat} (hr : r < 4) :
    (s.wr R.SV_LEDGER_RES (Word.ofNat (r * 2 + n * 65536))).rg F.SV_LEDGER_RES_BUSY = 0 ∧
      (s.wr R.SV_LEDGER_RES (Word.ofNat (r * 2 + n * 65536))).rg F.SV_LEDGER_RES_RESULT = r := by
  rw [rg_eq, rg_eq, rd_wr_self, Fld.get_eq, Fld.get_eq, BitVec.toNat_ofNat]
  constructor
  · dsimp only
    omega
  · dsimp only
    omega

/-- The records that VERIFY looks at. -/
def verifySeqs (s : State) : List Nat :=
  (List.range (s.rg F.SV_LEDGER_COUNT_COUNT)).map (fun k => (s.rg F.SV_LEDGER_FROM_FROM + k) % 2 ^ 32)

/-- The first record that fails, the first of all where node 5 is not usable (R516). -/
def verifyBad (s : State) : Option Nat :=
  if (s.kxUse 5 9).2 then s.verifySeqs.find? (fun q => decide ((s.kxUse 5 9).1.ledgerCheck q = 1))
  else some (s.rg F.SV_LEDGER_FROM_FROM)

/-- The outcome of VERIFY is shown: the first record that fails, and how many were UNAUTH (R516). -/
def verifyTold (s : State) (bad : Option Nat) (un : Nat) : State :=
  let u := { s with ob.ledger.verify := none }.wr R.SV_LEDGER_RES
    (Word.ofNat ((if bad.isNone then 1 else 2) * 2 + min un 65535 * 65536))
  match bad with
  | some q => u.wr R.SV_LEDGER_BAD (Word.ofNat q)
  | none => u

theorem ledgerVerify_eq (s : State) (a : Agent) : s.ledgerVerify a = ((s.kxUse 5 9).1.verifyTold s.verifyBad
    (s.verifySeqs.filter (fun q => decide ((s.kxUse 5 9).1.ledgerCheck q = 2))).length).raise 27 (some a) := by
  unfold ledgerVerify verifyBad verifySeqs verifyTold
  generalize s.kxUse 5 9 = k
  rfl

theorem verifyTold_shows (s : State) (bad : Option Nat) (un : Nat) :
    (s.verifyTold bad un).ob.ledger.verify = none ∧ (s.verifyTold bad un).rg F.SV_LEDGER_RES_BUSY = 0 ∧
      (s.verifyTold bad un).rg F.SV_LEDGER_RES_RESULT = (if bad.isNone then 1 else 2) ∧
      (s.verifyTold bad un).pw = s.pw := by
  obtain ⟨hbusy, hres⟩ := rg_ledgerRes { s with ob.ledger.verify := none } (n := min un 65535)
    (r := if bad.isNone then 1 else 2) (by split <;> decide)
  unfold verifyTold
  cases bad with
  | none => exact ⟨rfl, hbusy, hres, rfl⟩
  | some q =>
    exact ⟨rfl, (rg_wr_other _ _ _ _ (by decide)).trans hbusy, (rg_wr_other _ _ _ _ (by decide)).trans hres, rfl⟩

end State

open State

/-- Settles O60. -/
theorem ledgerCommands : Obligations.LedgerCommands := by
  unfold Obligations.LedgerCommands
  refine ⟨?flush, ?scan, ?begins, ?runs, ?ends⟩
  case flush =>
    intro x n s hboot hscan hbuf hlost hn hmod hblank
    subst hn
    show ∃ t, execLedgerFlush s = _ ∧ _
    obtain ⟨hin, hout⟩ := nvByte_ledgerWrite x hmod hblank
    obtain ⟨h0, h1, h2⟩ := ledgerRecord_begins s x
    rw [execLedgerFlush, if_pos hboot, ledgerFlush_single hscan hbuf ((ledgerWrite_lostPending x hmod).trans hlost)]
    refine ⟨_, rfl, rfl, ?_, ?_, ?_, ?_, fun o ho => ?_⟩
    · rw [nextSeq_bufferEmptied, ledgerWrite_inside x hmod, ledgerMoved_nextSeq]
    · rw [nvByte_bufferEmptied, ← h0, ← hin 0 (by decide), Nat.add_zero]
    · rw [nvByte_bufferEmptied, hin 1 (by decide), h1]
    · rw [nvByte_bufferEmptied, hin 2 (by decide), h2]
    · rw [nvByte_bufferEmptied, hout o ho]
  case scan =>
    intro s hboot hscan
    show ∃ t, execLedgerScan s = _ ∧ _
    rw [execLedgerScan, if_pos ⟨hboot, by rw [hscan]; rfl⟩]
    obtain ⟨hscanned, hbuf, hseq, hboots⟩ := ledgerScan_ob s
    refine ⟨_, rfl, hscanned, hbuf, (moves_ledgerScan (ps := [.regs, .ob]) (List.Subset.refl _) (moves_refl s)).1 .nv
      (by decide), hseq, hboots⟩
  case begins =>
    intro a s hr hv
    show ∃ t, execLedgerVerify a s = _ ∧ _
    rw [execLedgerVerify, byAgent_reaches _ _ _ hr, ledgerBegin, hv]
    refine ⟨_, rfl, rfl, ?_⟩
    show (s.wr R.SV_LEDGER_RES 1).rg F.SV_LEDGER_RES_BUSY = 1
    rw [rg_eq, rd_wr_self]
    decide
  case runs =>
    intro a b s hr hv
    show execLedgerVerify a s = _
    rw [execLedgerVerify, byAgent_reaches _ _ _ hr, ledgerBegin, hv]
    rfl
  case ends =>
    intro a s hu hv
    show ∃ t, execLedgerVerifyDone s = _ ∧ _
    rw [execLedgerVerifyDone, hv]
    dsimp only
    rw [if_pos hu]
    have hm : moves [.out, .regs, .scope, .ob] s (s.ledgerVerify a) :=
      moves_ledgerVerify (List.Subset.refl _) (moves_refl s)
    rw [ledgerVerify_eq] at hm ⊢
    have hk : (s.kxUse 5 9).1.pw = s.pw := (kxUse_moves s 5 9).1 .pw (by decide)
    obtain ⟨hverify, hbusy, hres, hpw⟩ := verifyTold_shows (s.kxUse 5 9).1 s.verifyBad
      (s.verifySeqs.filter (fun q => decide ((s.kxUse 5 9).1.ledgerCheck q = 2))).length
    have hup := socUp_congr (hpw.trans hk)
    refine ⟨_, rfl, ?_, ?_, ?_, hm.1 .nv (by decide), fun hno => ?_, fun hyes hzero => ?_⟩
    · rw [raise_ob, hverify]
    · rw [rg_raise_other _ _ _ _ (by decide), hbusy]
    · exact evSet_raise_self _ _ _ (hup.trans hu)
    · rw [rg_raise_other _ _ _ _ (by decide), hres, verifyBad, hno]
      rfl
    · rw [rg_raise_other _ _ _ _ (by decide), hres, verifyBad, hyes, verifySeqs, hzero]
      rfl

end Sys2Proof.Machine
end

section
/-!
PROOFS. The ROM's copy of the staged image (R482 to R484).
-/

namespace Sys2Proof.Machine

theorem ofLe_lt (bs : List Byte) : ofLe bs < 256 ^ bs.length := by
  induction bs with
  | nil => exact Nat.one_pos
  | cons b bs ih =>
    have hb : b.toNat < 256 := b.isLt
    rw [ofLe, List.length_cons, Nat.pow_succ]
    omega

theorem beAt_lt (bs : List Byte) (i n : Nat) : beAt bs i n < 256 ^ n := by
  have h := ofLe_lt (slice0 bs i n).reverse
  rwa [List.length_reverse, slice0_length] at h

theorem cSvn_lt (c : List Byte) : cSvn c < 256 := by
  rw [cSvn]
  exact (beAt_lt c 516 1).trans_eq (Nat.pow_one 256)

theorem blockPlain_length_le (c : List Byte) (p b : Nat) (staged : List Byte) :
    (blockPlain c p b staged).length ≤ staged.length := by
  unfold blockPlain gcmXor
  split
  · exact Nat.le_refl _
  · rw [List.length_map, List.length_zip]
    exact Nat.min_le_left _ _

namespace State

/-- What a slot is to hold fits the slot. -/
theorem copyImage0_length_le (s : State) (slot : Nat) : (s.copyImage0 slot).length ≤ 65536 := by
  have hslot (area k : Nat) : (s.slotBytes area k).length = 65536 := nvRead_length _ _ _
  unfold copyImage0
  split
  · rw [hslot]
  · refine (blockPlain_length_le _ _ _ _).trans ?_
    rw [hslot]

/-- A record of the journal changes nothing before the journal. -/
theorem nvByte_journalAppend (s : State) (code : Nat) {o : Nat} (h : o < nvJournal) :
    (s.journalAppend code).nvByte o = s.nvByte o := by
  refine nvByte_nvProgram_outside (.inl ?_)
  unfold nvJournal at *
  omega

theorem journalAppend_moves (s : State) (code : Nat) : moves [.nv] s (s.journalAppend code) :=
  moves_nvProgram (List.Subset.refl _) (moves_refl s)

/-- The list of the slots left, with no failure counted of the next one. -/
def slotsLeft (s : State) (slots : List Nat) : State := { s with upd.copy.next := slots, upd.copy.retries := 0 }

theorem nvByte_slotsLeft (s : State) (slots : List Nat) (o : Nat) : (s.slotsLeft slots).nvByte o = s.nvByte o := rfl

theorem copySlotEnds_eq (s : State) (slot : Nat) :
    s.copySlotEnds slot = (s.journalAppend slot).slotsLeft (s.upd.copy.next.drop 1) := by
  rw [copySlotEnds, slotsLeft]

theorem nvByte_copySlotEnds (s : State) (slot : Nat) {o : Nat} (h : o < nvJournal) :
    (s.copySlotEnds slot).nvByte o = s.nvByte o := by
  rw [copySlotEnds_eq, nvByte_slotsLeft, nvByte_journalAppend s slot h]

/-- A slot that is settled leaves the list, with no failure counted of the next. -/
theorem copySlotEnds_copy (s : State) (slot : Nat) : (s.copySlotEnds slot).upd.copy =
    { s.upd.copy with next := s.upd.copy.next.drop 1, retries := 0 } := by
  rw [copySlotEnds_eq, slotsLeft]
  dsimp only
  rw [(journalAppend_moves s slot).1 .upd (by decide)]

/-- A slot written holds its image, and no byte outside the slot changes. -/
theorem nvByte_slotWrite (s : State) (slot : Nat) :
    (∀ i < (s.copyImage0 slot).length,
      (s.slotWrite slot).nvByte (nvActive + 65536 * slot + i) = (s.copyImage0 slot).getD i 0) ∧
      ∀ o, (o < nvActive + 65536 * slot ∨ nvActive + 65536 * slot + 65536 ≤ o) →
        (s.slotWrite slot).nvByte o = s.nvByte o := by
  have hlen := copyImage0_length_le s slot
  refine ⟨fun i hi => ?_, fun o ho => ?_⟩
  · refine nvByte_nvProgram_blank hi ?_
    rw [nvByte_nvErase, if_pos (by omega)]
  · rw [slotWrite, nvByte_nvProgram_outside (by omega), nvByte_nvErase, if_neg (by omega)]

/-- A slot written is counted. -/
def slotWritten (s : State) (slot : Nat) : State :=
  { s.slotWrite slot with upd.copy.written := s.upd.copy.written + 1 }

/-- A slot left as it is is counted. -/
def slotPassed (s : State) : State := { s with upd.copy.unchanged := s.upd.copy.unchanged + 1 }

theorem slotWrite_upd (s : State) (slot : Nat) : (s.slotWrite slot).upd = s.upd := by
  have h : moves [.nv] s (s.nvErase (nvActive + 65536 * slot) 65536) := moves_nvErase (List.Subset.refl _) (moves_refl s)
  exact (moves_nvProgram (ps := [.nv]) (List.Subset.refl _) h).1 .upd (by decide)

theorem copySlot_same {s : State} {slot : Nat} (ok : Bool) (h : s.slotSame slot = true) :
    s.copySlot slot ok = s.slotPassed.copySlotEnds slot := by
  rw [copySlot, if_pos h, slotPassed]

theorem copySlot_writes {s : State} {slot : Nat} (h : s.slotSame slot = false) :
    s.copySlot slot true = (s.slotWritten slot).copySlotEnds slot := by
  rw [copySlot, h, if_neg (by decide), if_pos rfl, slotWritten]

/-- The state after a program that does not read back. -/
def slotSpoilt (s : State) (slot : Nat) : State :=
  (s.nvErase (nvActive + 65536 * slot) 65536).nvProgramFail (nvActive + 65536 * slot) (s.copyImage0 slot)

theorem slotSpoilt_moves (s : State) (slot : Nat) : moves [.freeN, .nv] s (s.slotSpoilt slot) :=
  moves_nvProgramFail (List.Subset.refl _) (moves_nvErase (by decide) (moves_refl s))

theorem copySlot_fails {s : State} {slot : Nat} (h : s.slotSame slot = false) : s.copySlot slot false =
    if s.upd.copy.retries ≥ 1 then { s.slotSpoilt slot with upd.copy.running := false }.enterRescue
    else { s.slotSpoilt slot with upd.copy.retries := s.upd.copy.retries + 1 } := by
  rw [copySlot, h, if_neg (by decide), if_neg (by decide), copyFails, slotSpoilt]

theorem exec_copySlotDone {slot : Nat} {rest : List Nat} (ok : Bool) {s : State} (hu : s.socUp = true)
    (hr : s.upd.copy.running = true) (hn : s.upd.copy.next = slot :: rest) :
    exec (.copySlotDone ok) s = .next (s.copySlot slot ok) := by
  show execCopySlotDone ok s = _
  rw [execCopySlotDone, hn]
  exact congrArg _ (if_pos ⟨hu, hr⟩)

/-- Step 4 blows as many fuses as the image's SVN asks for (R484). -/
theorem blowFuses_all (s : State) :
    (s.blowFuses 256).nv.counter = max s.nv.counter (cSvn (s.slotZero nvStaging)) := by
  have hsvn := cSvn_lt (s.slotZero nvStaging)
  rw [blowFuses]
  dsimp only
  omega

end State

open State

/-- Settles O56. -/
theorem copyCommands : Obligations.CopyCommands := by
  unfold Obligations.CopyCommands
  refine ⟨?passed, ?written, ?repeated, ?rescue, ?complete⟩
  case passed =>
    intro slot rest ok s hu hr hslot hn hsame
    refine ⟨_, exec_copySlotDone ok hu hr hn, ?_⟩
    rw [copySlot_same ok hsame, copySlotEnds_copy]
    refine ⟨by rw [show s.slotPassed.upd.copy.next = s.upd.copy.next from rfl, hn]; rfl, rfl, rfl, fun i hi => ?_⟩
    rw [nvByte_copySlotEnds _ _ (by unfold nvActive nvJournal; omega)]
    rfl
  case written =>
    intro slot rest s hu hr hslot hn hsame
    refine ⟨_, exec_copySlotDone true hu hr hn, ?_⟩
    obtain ⟨himage, hother⟩ := nvByte_slotWrite s slot
    have hlen := copyImage0_length_le s slot
    have hbyte (o : Nat) : (s.slotWritten slot).nvByte o = (s.slotWrite slot).nvByte o := rfl
    have hnext : (s.slotWritten slot).upd.copy.next = slot :: rest := by
      show (s.slotWrite slot).upd.copy.next = _
      rw [slotWrite_upd, hn]
    rw [copySlot_writes hsame, copySlotEnds_copy, hnext]
    refine ⟨rfl, rfl, fun i hi => ?_, fun k hk hne i hi => ?_⟩
    · rw [nvByte_copySlotEnds _ _ (by unfold nvActive nvJournal; omega), hbyte, himage i hi]
    · rw [nvByte_copySlotEnds _ _ (by unfold nvActive nvJournal; omega), hbyte, hother _ (by omega)]
  case repeated =>
    intro slot rest s hu hr hn hsame hzero
    refine ⟨_, exec_copySlotDone false hu hr hn, ?_⟩
    rw [copySlot_fails hsame, if_neg (by omega), hzero]
    refine ⟨rfl, ?_, (slotSpoilt_moves s slot).1 .pw (by decide)⟩
    show (s.slotSpoilt slot).upd.copy.next = _
    rw [(slotSpoilt_moves s slot).1 .upd (by decide), hn]
  case rescue =>
    intro slot rest s hu hr hn hsame hone
    refine ⟨_, exec_copySlotDone false hu hr hn, ?_⟩
    rw [copySlot_fails hsame, if_pos hone]
    refine ⟨by rw [enterRescue_pw], ?_⟩
    rw [(moves_enterRescue (ps := [.out, .regs, .scope, .pw]) (List.Subset.refl _) (moves_refl _)).1 .upd (by decide)]
  case complete =>
    intro s hu hr hn
    show ∃ t, execCopyComplete s = _ ∧ _
    rw [execCopyComplete, if_pos ⟨hu, hr, hn⟩]
    refine ⟨_, rfl, ?_, rfl, rfl⟩
    exact (nvProgram_counter (s.blowFuses 256) _ _).trans (blowFuses_all s)

end Sys2Proof.Machine
end

section
/-!
PROOFS. What follows a change of the power state or of the mode (R86, R87, R450): ports, Hamper and cluster are judged anew. The
registers of SV and those before it stay, and of the cluster's own state only the host rings move.
-/

namespace Sys2Proof.Machine

/-- The registers of the blocks from PX on. -/
abbrev fromPorts (off : Nat) : Prop := 0x1000000 ≤ off

theorem fromPorts_of_after {off : Nat} (h : afterPorts off) : fromPorts off := by
  simp only [afterPorts, fromPorts] at *; omega

namespace State

/-- The mark of the die is passed upwards (R180). -/
def dieMark (s : State) : State :=
  if 100 * s.heldCells ≥ s.dieHi * s.cDie ∧ s.sx.dieArmed then { s with sx.dieArmed := false }.raise 64 else s

/-- The mark of the Hamper is passed upwards (R180). -/
def hamMark (s : State) : State :=
  if s.hamPages ≠ 0 ∧ 100 * s.hamUsed ≥ s.hamHi * s.hamPages ∧ s.sx.hamArmed then
    { s with sx.hamArmed := false }.raise 65
  else s

theorem checkMarks_eq (s : State) : s.checkMarks = s.dieMark.hamMark.rearmMarks := rfl

theorem rearmMarks_regs (s : State) : s.rearmMarks.regs = s.regs := rfl

theorem rearmMarks_core (s : State) : s.rearmMarks.cx.core = s.cx.core := rfl

theorem regsWithin_checkMarks {W : Nat → Prop} {s0 s : State} (h : RegsWithin W s0 s) : RegsWithin W s0 s.checkMarks := by
  have die : RegsWithin W s0 s.dieMark := RegsWithin.ite (RegsWithin.raise (by decide) (h.of_regs rfl rfl)) h
  have ham : RegsWithin W s0 s.dieMark.hamMark := RegsWithin.ite (RegsWithin.raise (by decide) (die.of_regs rfl rfl)) die
  exact ham.of_regs (rearmMarks_regs _) (rearmMarks_core _)

section
variable {W : Nat → Prop} {s0 s : State} (hW : ∀ off, fromPorts off → W off)
include hW

theorem regsWithin_linkFalls {p : Nat} (h : RegsWithin W s0 s) : RegsWithin W s0 (s.linkFalls p) := by
  have ports (off : Nat) (ho : 0x1000000 ≤ off) : W off := hW off ho
  refine regsWithin_of_portEvent (ports _ (by omega)) (ports _ (by omega)) (by decide) ?_
  refine RegsWithin.bump (ports _ (by simp; omega)) (.inr (by simp; omega)) ?_
  refine RegsWithin.setRg (ports _ (by simp; omega)) (.inr (by simp; omega)) ?_
  refine RegsWithin.setRg (ports _ (by simp; omega)) (.inr (by simp; omega)) ?_
  refine RegsWithin.setRg (ports _ (by simp; omega)) (.inr (by simp; omega)) ?_
  refine RegsWithin.setRg (ports _ (by simp; omega)) (.inr (by simp; omega)) ?_
  exact regsWithin_endPauses (ports _ (by unfold R.PX_PORT_STAT; omega)) h

theorem regsWithin_portDown {p : Nat} (h : RegsWithin W s0 s) : RegsWithin W s0 (s.portDown p) := by
  have hdrop : RegsWithin W s0 (s.dropAn p) := h.of_regs rfl rfl
  by_cases hup : (s.dropAn p).portUp p = true
  · rw [portDown_of_up hup]
    have hcut := hdrop.trans ((regsWithin_cutPort (s.dropAn p) p).mono (V := W) fun off ho => by
      obtain ho | ho := ho
      · exact hW off (fromPorts_of_after ho)
      · refine hW off ?_
        simp only [fallRegs, List.mem_cons, List.not_mem_nil, or_false] at ho
        simp only [R.PX_TX_FRAMES, fromPorts] at *
        omega)
    exact (regsWithin_linkFalls hW hcut).trans ((regsWithin_fallen _ p).mono fun off ho => hW off (fromPorts_of_after ho))
  · rw [portDown_of_down (by simpa using hup)]
    exact hdrop

theorem regsWithin_portUp {p r : Nat} (h : RegsWithin W s0 s) : RegsWithin W s0 (s.portComesUp p r) := by
  have ports (off : Nat) (ho : 0x1000000 ≤ off) : W off := hW off ho
  unfold portComesUp
  split
  · exact h
  · have hrate := (h.setRg (f := F.PX_PORT_STAT_LINK p) (v := 1) (ports _ (by simp; omega)) (.inr (by simp; omega))).setRg
      (f := F.PX_PORT_STAT_RATE p) (v := r) (ports _ (by simp; omega)) (.inr (by simp; omega))
    refine regsWithin_pgPortUp (fun off ho => hW off (fromPorts_of_after ho))
      (regsWithin_of_portEvent (ports _ (by omega)) (ports _ (by omega)) (by decide) ?_)
    exact (hrate.setRg (ports _ (by simp; omega)) (.inr (by simp; omega))).ite hrate

theorem regsWithin_portJudge {p : Nat} (h : RegsWithin W s0 s) : RegsWithin W s0 (s.portJudge p) := by
  unfold portJudge
  split
  · exact h.ite (regsWithin_portUp hW h)
  · exact regsWithin_portDown hW h

theorem regsWithin_portsJudge (h : RegsWithin W s0 s) : RegsWithin W s0 s.portsJudge :=
  h.forEach (fun _ _ k => regsWithin_portJudge hW k) _

theorem regsWithin_hamSet {st n : Nat} (h : RegsWithin W s0 s) : RegsWithin W s0 (s.hamSet st n) :=
  (h.setRg (f := F.SX_HAM_STATE_STATE) (v := st) (hW _ (by decide)) (.inr (by decide))).of_regs rfl rfl

theorem regsWithin_hamJudge (h : RegsWithin W s0 s) : RegsWithin W s0 s.hamJudge := by
  unfold hamJudge
  have state (st n : Nat) : RegsWithin W s0 (s.hamSet st n) := regsWithin_hamSet hW h
  refine regsWithin_checkMarks (regsWithin_judgeRsv (hW _ (by decide)) ?_)
  (repeat' split) <;> first
    | exact h
    | exact state _ _
end

/-- The cluster as it leaves reset, before the ports are judged (R450). -/
def clusterOut (s : State) : State :=
  { (s.copyImage.setOpp (s.act F.CX_CORE_CFG_OPP_TOP)) with pw.cxReset := false, cx.released := true }

/-- The cores of a cluster that was released before, or whose image stands in DRAM, start at once (R450). -/
theorem clusterRelease_cases (s : State) :
    s.clusterRelease = s.clusterOut.portsJudge ∨ s.clusterRelease = s.clusterOut.portsJudge.startCores := by
  unfold clusterRelease clusterOut
  dsimp only
  split
  · exact .inr rfl
  · split
    · exact .inr rfl
    · exact .inl rfl

theorem portsJudge_moves (s : State) : moves [.freeN, .out, .regs, .scope, .sx, .fx, .ob, .px, .bx, .cx, .mx] s s.portsJudge :=
  moves_portsJudge (List.Subset.refl _) (moves_refl s)

theorem startCores_moves (s : State) : moves [.out, .regs] s s.startCores :=
  moves_startCores (List.Subset.refl _) (moves_refl s)

/-- The cluster is out of reset (R450). -/
theorem clusterRelease_shows (s : State) : s.clusterRelease.pw = { s.pw with cxReset := false } ∧
    s.clusterRelease.cx.released = true := by
  have hpw : s.clusterOut.pw = { s.pw with cxReset := false } := by
    have h : (s.copyImage.setOpp (s.act F.CX_CORE_CFG_OPP_TOP)).pw = s.pw :=
      (moves_setOpp (ps := [.regs, .cx]) (List.Subset.refl _) (moves_copyImage (by decide) (moves_refl s))).1 .pw (by decide)
    rw [clusterOut]
    dsimp only
    rw [h]
  have hjudged : s.clusterOut.portsJudge.pw = { s.pw with cxReset := false } ∧ s.clusterOut.portsJudge.cx.released = true :=
    ⟨((portsJudge_moves _).1 .pw (by decide)).trans hpw,
      (regsWithin_portsJudge (W := fun _ => True) (fun _ _ => trivial) (RegsWithin.refl s.clusterOut)).released⟩
  obtain h | h := clusterRelease_cases s
  · rw [h]
    exact hjudged
  · rw [h, (startCores_moves _).1 .pw (by decide), (startCores_moves _).1 .cx (by decide)]
    exact hjudged

end State

end Sys2Proof.Machine
end

section
/-!
PROOFS. The cluster: its release, its image, its cores and its operating point (R450 to R454).
-/

namespace Sys2Proof.Machine

namespace State

theorem act_lt (s : State) (f : Fld) : s.act f < 2 ^ f.wid := Fld.get_lt f _

theorem coresToRun_lt (s : State) : s.coresToRun < 2 ^ 8 := by
  have hcores : s.act F.CX_CORE_CFG_CORES < 2 ^ 8 := act_lt s F.CX_CORE_CFG_CORES
  exact Nat.xor_lt_two_pow hcores (lt_of_le_of_lt Nat.and_le_left hcores)

/-- Cores start: they are told where, and RUN shows them (R450). -/
theorem rg_runCores_run (s : State) (cores : Nat) {run : Nat} (h : run < 2 ^ 8) :
    (s.runCores cores run).rg F.CX_CORE_STAT_RUN = run := by
  rw [runCores, rg_setRg_self _ _ _ (by decide)]
  exact Nat.mod_eq_of_lt h

theorem runCores_moves (s : State) (cores run : Nat) : moves [.out, .regs] s (s.runCores cores run) :=
  moves_runCores (List.Subset.refl _) (moves_refl s)

theorem rg_runCores_other (s : State) (cores run : Nat) {f : Fld} (hf : f.lo + f.wid ≤ 32)
    (h : F.CX_CORE_STAT_RUN.off ≠ f.off ∨ 8 ≤ f.lo) : (s.runCores cores run).rg f = s.rg f := by
  rw [runCores, rg_setRg_other _ _ _ _ (by decide) hf (h.imp id .inl)]
  exact rg_congr (forEach_keeps State.regs (fun t k => t.emit (.coreStart k dramBase k)) (fun _ _ => rfl) _ s) f

/-- A copied image stands in DRAM (R450). -/
def imageCopied (s : State) : State :=
  ({ s with cx.copying := false }.dramWr dramBase (s.nvRead (nvCustomer + 4096 * s.act F.CX_BOOT_CFG_IMG_SECTOR)
    (65536 * s.act F.CX_BOOT_CFG_IMG_SIZE))).setRg F.CX_CORE_STAT_IMG_DONE 1

theorem exec_imageCopyDone_ok {s : State} (hc : s.cx.copying = true) (h1 : 1 ≤ s.act F.CX_BOOT_CFG_IMG_SIZE)
    (h2 : s.act F.CX_BOOT_CFG_IMG_SIZE ≤ 256) : exec (.imageCopyDone true) s =
      .next (if s.pw.cxReset then s.imageCopied else s.imageCopied.startCores) := by
  show execImageCopyDone true s = _
  have hsize : orElse (decide (1 ≤ s.act F.CX_BOOT_CFG_IMG_SIZE ∧ s.act F.CX_BOOT_CFG_IMG_SIZE ≤ 256))
      (s.act F.CX_BOOT_CFG_IMG_SIZE) 1 = s.act F.CX_BOOT_CFG_IMG_SIZE := by
    rw [decide_eq_true ⟨h1, h2⟩]
    rfl
  rw [execImageCopyDone, if_pos hc]
  dsimp only
  rw [hsize, if_pos rfl, imageCopied]

theorem imageCopied_moves (s : State) : moves [.regs, .cx, .mx] s s.imageCopied :=
  moves_setRg (by decide) (moves_dramWr (by decide) (moves_upd_cx (by decide) (moves_refl s)))

theorem imageCopied_shows (s : State) : s.imageCopied.cx.copying = false ∧
    s.imageCopied.rg F.CX_CORE_STAT_IMG_DONE = 1 ∧
    (∀ f : Fld, f.lo + f.wid ≤ 8 → s.imageCopied.rg f = s.rg f) := by
  refine ⟨?_, rg_setRg_self _ _ _ (by decide), fun f hf => ?_⟩
  · rw [imageCopied, (moves_setRg (ps := [.regs]) (List.Subset.refl _) (moves_refl _)).1 .cx (by decide),
      (dramWr_moves _ _ _).1 .cx (by decide)]
  · rw [imageCopied, rg_setRg_other _ _ _ _ (by decide) (by omega) (.inr (.inr (by dsimp only; omega)))]
    exact rg_congr ((dramWr_moves _ _ _).1 .regs (by decide)) f

theorem dramAt_imageCopied (s : State) (y : Nat) : s.imageCopied.dramAt y =
    if dramBase ≤ y ∧ y < dramBase + 65536 * s.act F.CX_BOOT_CFG_IMG_SIZE then
      (s.nvRead (nvCustomer + 4096 * s.act F.CX_BOOT_CFG_IMG_SECTOR) (65536 * s.act F.CX_BOOT_CFG_IMG_SIZE)).getD
        (y - dramBase) 0
    else s.dramAt y := by
  have h := dramAt_dramWr { s with cx.copying := false } dramBase
    (s.nvRead (nvCustomer + 4096 * s.act F.CX_BOOT_CFG_IMG_SECTOR) (65536 * s.act F.CX_BOOT_CFG_IMG_SIZE)) y
  rw [nvRead_length] at h
  exact h

/-- Core k goes offline (R454). -/
theorem coreOff_shows {s : State} {k : Nat} (hk : k < 8) (hu : s.socUp = true) :
    ((s.coreOff k).rg F.CX_CORE_STAT_RUN).testBit k = false ∧ ((s.coreOff k).rg F.CX_CORE_STAT_OFF_REQ).testBit k = false ∧
      ((s.coreOff k).rg F.CX_CORE_STAT_OFFLINE).testBit k = true ∧ (s.coreOff k).evSet 211 = true ∧
      (s.coreOff k).rg F.CX_OFFLINE_FORCED_COUNT = s.rg F.CX_OFFLINE_FORCED_COUNT := by
  unfold coreOff
  dsimp only
  refine ⟨?_, ?_, ?_, evSet_raise_self _ _ _ hu, ?_⟩
  · rw [rg_raise_other _ _ _ _ (by decide), rg_setRg_other _ _ _ _ (by decide) (by decide) (by decide),
      rg_setRg_other _ _ _ _ (by decide) (by decide) (by decide), rg_setRg_self _ _ _ (by decide), testBit_mod_of_lt _ hk,
      clrBit_testBit]
  · rw [rg_raise_other _ _ _ _ (by decide), rg_setRg_other _ _ _ _ (by decide) (by decide) (by decide),
      rg_setRg_self _ _ _ (by decide), testBit_mod_of_lt _ hk, clrBit_testBit]
  · rw [rg_raise_other _ _ _ _ (by decide), rg_setRg_self _ _ _ (by decide), testBit_mod_of_lt _ hk, setBit_testBit]
  · rw [rg_raise_other _ _ _ _ (by decide), rg_setRg_other _ _ _ _ (by decide) (by decide) (by decide),
      rg_setRg_other _ _ _ _ (by decide) (by decide) (by decide), rg_setRg_other _ _ _ _ (by decide) (by decide) (by decide)]

/-- The operating point asked for (R453). -/
def dvfsAsked (s : State) (a : Agent) (g : Nat) : State :=
  { s.setRg F.CX_DVFS_BUSY 1 with cx.dvfs := some (some a, g) }

end State

open State

/-- Settles O50. -/
theorem clusterCommands : Obligations.ClusterCommands := by
  unfold Obligations.ClusterCommands
  refine ⟨?release, ?copied, ?failed, ?started, ?asked, ?busy, ?done, ?offline⟩
  case release =>
    intro s hcx hb hres hz hlock hsr hrun
    show ∃ t, execClusterRelease s = _ ∧ _
    rw [execClusterRelease, if_pos (by simp [hcx, hb, hres, hz, hlock, hsr, hrun])]
    obtain ⟨hpw, hrel⟩ := clusterRelease_shows s
    exact ⟨_, rfl, by rw [hpw], hrel⟩
  case copied =>
    intro n s hc hn h1 h2
    subst hn
    refine ⟨_, exec_imageCopyDone_ok hc h1 h2, ?_⟩
    obtain ⟨hcopying, hdone, hother⟩ := imageCopied_shows s
    have hstart := startCores_moves s.imageCopied
    generalize ht : (if s.pw.cxReset then s.imageCopied else s.imageCopied.startCores) = t
    have hcx : t.cx = s.imageCopied.cx := by
      rw [← ht]
      split
      · rfl
      · exact hstart.1 .cx (by decide)
    have hmx : t.mx = s.imageCopied.mx := by
      rw [← ht]
      split
      · rfl
      · exact hstart.1 .mx (by decide)
    have himage (y : Nat) : t.dramAt y = s.imageCopied.dramAt y := dramAt_congr (by rw [hmx]) (by rw [hmx]) y
    refine ⟨by rw [hcx]; exact hcopying, ?_, ?_, fun y hy => ?_, fun hno => ?_⟩
    · rw [← ht]
      split
      · exact hdone
      · exact (rg_runCores_other _ _ _ (by decide) (.inr (by decide))).trans hdone
    · rw [dramRd_eq]
      refine List.ext_getElem (by simp) fun i hi hb => ?_
      have hlt : i < 65536 * s.act F.CX_BOOT_CFG_IMG_SIZE := by simpa using hi
      rw [List.getElem_map, List.getElem_range, himage, dramAt_imageCopied, if_pos (by omega), Nat.add_sub_cancel_left,
        List.getD_eq_getElem _ _ (by simpa using hlt)]
    · refine dramRd_of_dramAt fun z h1 h2 => ?_
      rw [himage, dramAt_imageCopied, if_neg (by omega)]
    · rw [← ht, hno, if_neg (by decide), startCores, rg_runCores_run _ _ (coresToRun_lt _)]
      have hact := act_congr ((imageCopied_moves s).1 .active (by decide)) F.CX_CORE_CFG_CORES
      rw [coresToRun, coresToRun, hact, imageCopied, rg_setRg_other _ _ _ _ (by decide) (by decide) (by decide)]
      exact congrArg _ (rg_congr ((dramWr_moves _ _ _).1 .regs (by decide)) _)
  case failed =>
    intro s hc hu
    show ∃ t, execImageCopyDone false s = _ ∧ _
    rw [execImageCopyDone, if_pos hc]
    dsimp only
    rw [if_neg (by decide)]
    refine ⟨_, rfl, ?_, ?_, evSet_raise_self _ _ _ hu, ?_⟩
    · rw [raise_cx]
      rfl
    · rw [rg_raise_other _ _ _ _ (by decide)]
      exact rg_setRg_self _ _ _ (by decide)
    · rw [raise_mx]
      rfl
  case started =>
    intro a data s hr hsrc hno
    show ∃ t, execCoreStart a data s = _ ∧ _
    rw [execCoreStart, byAgent_reaches _ _ _ hr, if_pos ⟨hsrc, by rw [hno]; rfl⟩]
    refine ⟨_, rfl, ?_⟩
    refine rg_runCores_run s _ (Nat.or_lt_two_pow (rg_lt s F.CX_CORE_STAT_RUN) ?_)
    exact lt_of_le_of_lt Nat.and_le_right (coresToRun_lt s)
  case asked =>
    intro a data g s hr hbusy hg
    have hlt : g < 2 ^ 2 := by
      rw [hg]
      exact max_lt (Fld.get_lt F.CX_DVFS_REQ data) (act_lt s F.CX_CORE_CFG_OPP_TOP)
    show ∃ t, execDvfsRequest a data s = _ ∧ _
    rw [execDvfsRequest, byAgent_reaches _ _ _ hr, if_neg (by rw [hbusy]; decide)]
    refine ⟨_, rfl, ?_⟩
    dsimp only
    rw [← hg]
    by_cases hcur : g < s.rg F.CX_DVFS_CUR
    · rw [if_pos hcur, if_pos hcur]
      refine ⟨rg_setRg_self s F.CX_DVFS_BUSY 1 (by decide), rfl, rfl, ?_⟩
      exact rg_setRg_other s F.CX_DVFS_BUSY F.CX_DVFS_CUR 1 (by decide) (by decide) (by decide)
    · rw [if_neg hcur, if_neg hcur]
      refine ⟨?_, rfl, rfl, ?_⟩
      · exact (rg_setRg_other (s.dvfsAsked a g) F.CX_DVFS_CUR F.CX_DVFS_BUSY g (by decide) (by decide) (by decide)).trans
          (rg_setRg_self s F.CX_DVFS_BUSY 1 (by decide))
      · exact (rg_setRg_self (s.dvfsAsked a g) F.CX_DVFS_CUR g (by decide)).trans (Nat.mod_eq_of_lt hlt)
  case busy =>
    intro a data s hr hbusy
    show execDvfsRequest a data s = _
    rw [execDvfsRequest, byAgent_reaches _ _ _ hr, if_pos hbusy]
    rfl
  case done =>
    intro a g s hu hd hg
    show ∃ t, execDvfsDone s = _ ∧ _
    rw [execDvfsDone, hd]
    refine ⟨_, rfl, ?_, ?_, ?_, ?_, evSet_raise_self _ _ _ hu⟩
    · rw [rg_raise_other _ _ _ _ (by decide), rg_setRg_other _ _ _ _ (by decide) (by decide) (by decide)]
      exact (rg_setRg_self _ F.CX_DVFS_CUR g (by decide)).trans (Nat.mod_eq_of_lt hg)
    · rw [raise_cx]
      rfl
    · rw [rg_raise_other _ _ _ _ (by decide), rg_setRg_self _ _ _ (by decide)]
      rfl
    · rw [raise_cx]
      rfl
  case offline =>
    intro k s hk hu hreq
    show ∃ t u, execCoreWfiOffline k s = _ ∧ execOfflineGraceExpiry k s = _ ∧ _
    rw [execCoreWfiOffline, execOfflineGraceExpiry, if_pos ⟨hk, hreq⟩, if_pos ⟨hk, hreq⟩]
    obtain ⟨hrun, hoff, hset, hev, hcount⟩ := coreOff_shows (s := s) hk hu
    obtain ⟨frun, foff, fset, fev, fcount⟩ := coreOff_shows (s := s.bump F.CX_OFFLINE_FORCED_COUNT) hk hu
    refine ⟨_, _, rfl, rfl, ?_, hcount, ?_⟩
    · rw [fcount]
      exact rg_bump_self _ _ _ (by decide)
    · intro x hx
      rcases List.mem_pair.mp hx with rfl | rfl
      · exact ⟨hrun, hoff, hset, hev⟩
      · exact ⟨frun, foff, fset, fev⟩

end Sys2Proof.Machine
end

section
/-!
PROOFS. The counters of the cores and of DRAM (R455 to R457, R464).
-/

namespace Sys2Proof.Machine

namespace State

/-! ### 64-bit registers -/

theorem rd64_congr {s t : State} {off : Nat} (hlo : t.rd off = s.rd off) (hhi : t.rd (off + 4) = s.rd (off + 4)) :
    t.rd64 off = s.rd64 off := by
  rw [rd64, rd64, hlo, hhi]

theorem rd64_of_regs {s t : State} (h : t.regs = s.regs) (off : Nat) : t.rd64 off = s.rd64 off :=
  rd64_congr (rd_congr h _) (rd_congr h _)

theorem rd64_wr64_self (s : State) (off v : Nat) : (s.wr64 off v).rd64 off = v % 2 ^ 64 := by
  rw [rd64, wr64, rd_wr_self, rd_wr_other _ _ _ _ (by omega), rd_wr_self]
  simp only [Word.ofNat, BitVec.toNat_ofNat]
  omega

theorem rd64_wr64_other (s : State) {off o : Nat} (v : Nat) (h : o + 8 ≤ off ∨ off + 8 ≤ o) :
    (s.wr64 off v).rd64 o = s.rd64 o := by
  refine rd64_congr ?_ ?_ <;> rw [wr64, rd_wr_other _ _ _ _ (by omega), rd_wr_other _ _ _ _ (by omega)]

theorem rd64_bump64_self (s : State) (off n : Nat) : (s.bump64 off n).rd64 off = (s.rd64 off + n) % 2 ^ 64 :=
  rd64_wr64_self s off _

theorem rd64_bump64_other (s : State) {off o : Nat} (n : Nat) (h : o + 8 ≤ off ∨ off + 8 ≤ o) :
    (s.bump64 off n).rd64 o = s.rd64 o :=
  rd64_wr64_other s _ h

/-! ### A cycle of a core -/

/-- The four slots of a cycle are counted (R455). -/
def slotsCounted (s : State) (k r w f e : Nat) : State :=
  (((s.bump64 (R.CX_TD k 0) r).bump64 (R.CX_TD k 1) w).bump64 (R.CX_TD k 2) f).bump64 (R.CX_TD k 3) e

/-- The slots and the events of a cycle are counted (R455, R456). -/
def cycleCounted (s : State) (k r w f e : Nat) (events : List Nat) : State :=
  (s.slotsCounted k r w f e).forEach (List.range 8) (fun t j => t.corePmu k j events)

theorem slotsCounted_shows (s : State) (k r w f e : Nat) :
    (s.slotsCounted k r w f e).rd64 (R.CX_TD k 0) = (s.rd64 (R.CX_TD k 0) + r) % 2 ^ 64 ∧
    (s.slotsCounted k r w f e).rd64 (R.CX_TD k 1) = (s.rd64 (R.CX_TD k 1) + w) % 2 ^ 64 ∧
    (s.slotsCounted k r w f e).rd64 (R.CX_TD k 2) = (s.rd64 (R.CX_TD k 2) + f) % 2 ^ 64 ∧
    (s.slotsCounted k r w f e).rd64 (R.CX_TD k 3) = (s.rd64 (R.CX_TD k 3) + e) % 2 ^ 64 := by
  have apart {i j : Nat} (t : State) (n : Nat) (h : i ≠ j) :
      (t.bump64 (R.CX_TD k j) n).rd64 (R.CX_TD k i) = t.rd64 (R.CX_TD k i) :=
    rd64_bump64_other t n (by unfold R.CX_TD; omega)
  unfold slotsCounted
  refine ⟨?_, ?_, ?_, ?_⟩
  · rw [apart _ _ (by decide), apart _ _ (by decide), apart _ _ (by decide), rd64_bump64_self]
  · rw [apart _ _ (by decide), apart _ _ (by decide), rd64_bump64_self, apart _ _ (by decide)]
  · rw [apart _ _ (by decide), rd64_bump64_self, apart _ _ (by decide), apart _ _ (by decide)]
  · rw [rd64_bump64_self, apart _ _ (by decide), apart _ _ (by decide), apart _ _ (by decide)]

/-- The registers that the counters of core k take: its top-down counters and its event counters. -/
def countRegs (k off : Nat) : Prop := R.CX_PMU_CNT k 0 ≤ off ∧ off < R.CX_TD k 4

theorem regsWithin_corePmu {W : Nat → Prop} {s0 s : State} {k j : Nat} {events : List Nat}
    (hW : ∀ off, R.CX_PMU_CNT k j ≤ off → off < R.CX_PMU_CNT k (j + 1) → W off) (h : RegsWithin W s0 s) :
    RegsWithin W s0 (s.corePmu k j events) := by
  have counted (v : Nat) : RegsWithin W s0 (s.wr64 (R.CX_PMU_CNT k j) v) :=
    h.wr64 (hW _ (by omega) (by unfold R.CX_PMU_CNT; omega)) (hW _ (by omega) (by unfold R.CX_PMU_CNT; omega))
      (.inr (by unfold R.CX_PMU_CNT; omega))
  unfold corePmu
  refine RegsWithin.ite h ?_
  dsimp only
  exact ((counted _).raise (by decide)).ite (counted _)

theorem regsWithin_eventsCounted {k : Nat} {events : List Nat} (s : State) :
    RegsWithin (fun off => R.CX_PMU_CNT k 0 ≤ off ∧ off < R.CX_PMU_CNT k 8) s
      (s.forEach (List.range 8) (fun t j => t.corePmu k j events)) := by
  refine List.foldlRecOn (motive := RegsWithin _ s) _ _ (RegsWithin.refl s) fun t h j hj => regsWithin_corePmu ?_ h
  have hj8 : j < 8 := List.mem_range.mp hj
  intro off hlo hhi
  unfold R.CX_PMU_CNT at *
  omega

theorem rd64_cycleCounted (s : State) (k r w f e : Nat) (events : List Nat) {o : Nat} (h : R.CX_PMU_CNT k 8 ≤ o) :
    (s.cycleCounted k r w f e events).rd64 o = (s.slotsCounted k r w f e).rd64 o := by
  have hkeep (off : Nat) (ho : o ≤ off) : (s.cycleCounted k r w f e events).rd off = (s.slotsCounted k r w f e).rd off :=
    (regsWithin_eventsCounted (s.slotsCounted k r w f e)).rd off (by omega)
      (.inr (by unfold R.CX_PMU_CNT at h; omega))
  exact rd64_congr (hkeep _ (Nat.le_refl o)) (hkeep _ (Nat.le_add_right o 4))

theorem cycleCounted_moves (s : State) (k r w f e : Nat) (events : List Nat) :
    moves [.out, .regs, .scope] s (s.cycleCounted k r w f e events) := by
  have slots : moves [.out, .regs, .scope] s (s.slotsCounted k r w f e) :=
    moves_bump64 (by decide) (moves_bump64 (by decide) (moves_bump64 (by decide) (moves_bump64 (by decide) (moves_refl s))))
  exact List.foldlRecOn (motive := moves _ s) _ _ slots fun t h j _ => moves_corePmu (List.Subset.refl _) h

/-- The fields of a core behind its counters stay in a count. -/
theorem rg_cycleCounted (s : State) (k r w f e : Nat) (events : List Nat) {g : Fld}
    (h : g.off < 0x2000 ∨ 0x2020 ≤ g.off) (hg : g.off < R.CX_PMU_CNT k 0 ∨ R.CX_TD k 4 ≤ g.off) :
    (s.cycleCounted k r w f e events).rg g = s.rg g := by
  have slots : RegsWithin (countRegs k) s (s.slotsCounted k r w f e) := by
    have slot {t : State} (j n : Nat) (hj : j < 4) (ht : RegsWithin (countRegs k) s t) :
        RegsWithin (countRegs k) s (t.bump64 (R.CX_TD k j) n) :=
      ht.bump64 (by unfold countRegs R.CX_PMU_CNT R.CX_TD; omega) (by unfold countRegs R.CX_PMU_CNT R.CX_TD; omega)
        (.inr (by unfold R.CX_TD; omega))
    exact slot 3 _ (by decide) (slot 2 _ (by decide) (slot 1 _ (by decide) (slot 0 _ (by decide) (RegsWithin.refl s))))
  have all := slots.trans ((regsWithin_eventsCounted (k := k) (events := events) (s.slotsCounted k r w f e)).mono
    fun off ho => by unfold countRegs R.CX_TD R.CX_PMU_CNT at *; omega)
  exact all.rg g (by unfold countRegs; omega) h

/-- What ends a cycle: the bytes of the memory, and what the caches write back (log 71). -/
def cycleEnd (s : State) (bytes : Nat) : State := (s.arbBytes 4 bytes).mayWriteBack

theorem mayWriteBack_moves (s : State) : moves [.freeN, .mx] s s.mayWriteBack :=
  moves_mayWriteBack (List.Subset.refl _) (moves_refl s)

theorem rd_cycleEnd (s : State) (bytes : Nat) {off : Nat} (h : off < 0x9000320 ∨ 0x9000328 ≤ off) :
    (s.cycleEnd bytes).rd off = s.rd off := by
  rw [cycleEnd, rd_congr ((mayWriteBack_moves _).1 .regs (by decide)), arbBytes, bump64, wr64,
    rd_wr_other _ _ _ _ (by unfold R.MX_ARB_BYTES; omega), rd_wr_other _ _ _ _ (by unfold R.MX_ARB_BYTES; omega)]

theorem rd64_cycleEnd (s : State) (bytes : Nat) {off : Nat} (h : off + 8 ≤ 0x9000320) :
    (s.cycleEnd bytes).rd64 off = s.rd64 off :=
  rd64_congr (rd_cycleEnd s bytes (.inl (by omega))) (rd_cycleEnd s bytes (.inl (by omega)))

theorem cycleEnd_cx (s : State) (bytes : Nat) : (s.cycleEnd bytes).cx = s.cx :=
  (mayWriteBack_moves _).1 .cx (by decide)

/-! ### Tagged instructions -/

@[simp] theorem taggingOf_setTagging (s : State) (k : Nat) (x : Nat × Nat) : (s.setTagging k x).taggingOf k = x :=
  Sparse.get_set_same _ _ _ _

theorem setTags_moves (s : State) (k : Nat) (l : List (List Nat)) : moves [.regs] { s with
    cx.tags := Sparse.set (fun _ => []) s.cx.tags k l } (s.setTags k l) :=
  List.foldlRecOn (motive := moves _ _) _ _ (moves_setRg (List.Subset.refl _) (moves_refl _))
    fun _ h _ _ => moves_wr (List.Subset.refl _) h

@[simp] theorem tagsOf_setTags (s : State) (k : Nat) (l : List (List Nat)) : (s.setTags k l).tagsOf k = l := by
  rw [tagsOf, (setTags_moves s k l).1 .cx (by decide)]
  exact Sparse.get_set_same _ _ _ _

theorem count_setTags (s : State) {k : Nat} {l : List (List Nat)} (h : l.length < 32) :
    (s.setTags k l).rg (F.CX_TAG_STAT_COUNT k) = l.length := by
  rw [setTags]
  dsimp only
  rw [forEach_keeps (fun t => t.rg (F.CX_TAG_STAT_COUNT k)) _
    fun t i => rg_wr_other t _ _ _ (by dsimp only [R.CX_TAG_REC]; omega), rg_setRg_self _ _ _ (by simp)]
  exact Nat.mod_eq_of_lt h

theorem tagsOf_congr {s t : State} (h : t.cx.tags = s.cx.tags) (k : Nat) : t.tagsOf k = s.tagsOf k := by
  rw [tagsOf, tagsOf, h]

theorem tags_decodeOne (s : State) (k : Nat) : (s.decodeOne k).cx.tags = s.cx.tags := by
  unfold decodeOne
  dsimp only
  (repeat' split) <;> rfl

theorem coreDecode_tags (s : State) (k n : Nat) : (s.coreDecode k n).cx.tags = s.cx.tags := by
  unfold coreDecode
  split
  · rfl
  · exact forEach_keeps (fun t => t.cx.tags) _ (fun t _ => tags_decodeOne t k) _ s

theorem rg_coreDecode (s : State) (k n : Nat) (f : Fld) : (s.coreDecode k n).rg f = s.rg f :=
  rg_of_moves (moves_coreDecode (ps := [.freeN, .cx]) (List.Subset.refl _) (moves_refl s)) (by decide) f

/-- A decoded instruction while the countdown runs (R457). -/
theorem taggingOf_decodeOne {s : State} {k left opened : Nat} (h : s.taggingOf k = (left, opened)) (hl : 0 < left) :
    (s.decodeOne k).taggingOf k = if left = 1 then (0, opened + 1) else (left - 1, opened) := by
  unfold decodeOne
  rw [h]
  dsimp only
  rw [if_neg (show ¬ left = 0 by omega), h]
  dsimp only
  by_cases h1 : left = 1
  · rw [if_pos (by omega), if_pos h1, taggingOf_setTagging]
  · rw [if_neg (by omega), if_neg h1, taggingOf_setTagging]

/-- The countdown over the instructions decoded in a cycle, up to the one that it tags (R457). -/
theorem taggingOf_coreDecode {s : State} {k left opened n : Nat} (hen : s.rg (F.CX_TAG_CFG_EN k) = 1)
    (h : s.taggingOf k = (left, opened)) (hl : 0 < left) (hn : n ≤ left) :
    (s.coreDecode k n).taggingOf k = if n = left then (0, opened + 1) else (left - n, opened) := by
  rw [coreDecode, if_neg (by rw [hen]; decide)]
  induction n with
  | zero => rw [if_neg (by omega)]; exact h
  | succ n ih =>
    have hprev := ih (by omega)
    rw [if_neg (by omega)] at hprev
    rw [forEach, List.range_succ, List.foldl_append]
    rw [forEach] at hprev
    refine (taggingOf_decodeOne hprev (by omega)).trans ?_
    by_cases hlast : n + 1 = left
    · rw [if_pos (by omega), if_pos hlast]
    · rw [if_neg (by omega), if_neg hlast, Nat.sub_sub]

/-- A cycle of a running core. -/
theorem exec_coreCycle {k r w f decoded bytes : Nat} {events : List Nat} {tag : Option CoreTag} {s : State} (hk : k < 8)
    (hrun : (s.rg F.CX_CORE_STAT_RUN).testBit k = true) :
    exec (.coreCycle k r w f events decoded tag bytes) s = .next ((((s.cycleCounted k (min r 4) (min w (4 - min r 4))
      (min f (4 - min r 4 - min w (4 - min r 4))) (4 - min r 4 - min w (4 - min r 4) -
        min f (4 - min r 4 - min w (4 - min r 4))) events).coreTag k tag).coreDecode k decoded).cycleEnd bytes) := by
  show execCoreCycle k r w f events decoded tag bytes s = _
  rw [execCoreCycle, if_pos ⟨hk, hrun⟩]
  rfl

/-- The tags after a cycle are those that the counters' state takes with the tag of the cycle. -/
theorem tagsOf_cycle (s : State) (k n bytes : Nat) (j : Nat) : ((s.coreDecode k n).cycleEnd bytes).tagsOf j = s.tagsOf j :=
  tagsOf_congr (by rw [cycleEnd_cx, coreDecode_tags]) j

theorem rg_cycle (s : State) (k n bytes : Nat) {g : Fld} (h : g.off < 0x9000320) :
    ((s.coreDecode k n).cycleEnd bytes).rg g = s.rg g := by
  rw [rg_eq, rd_cycleEnd _ _ (.inl h), ← rg_eq, rg_coreDecode]

/-! ### Uncorrectable errors of DRAM -/

/-- An uncorrectable error is counted and its first address kept (R464). -/
def ueSeen (s : State) (a : Nat) : State :=
  if s.rd64 R.MX_DRAM_UE_ADDR_LO = 0 then (s.bump F.MX_DRAM_UE_COUNT).wr64 R.MX_DRAM_UE_ADDR_LO a
  else s.bump F.MX_DRAM_UE_COUNT

/-- The code words known to be bad take one more (log 99). -/
def ueMarked (s : State) (a : Nat) : State :=
  if s.mx.bad.contains (a / 32) then s else { s with mx.bad := a / 32 :: s.mx.bad }

theorem ueMarked_shows (s : State) (a : Nat) : (s.ueMarked a).regs = s.regs ∧ (s.ueMarked a).mx.dram = s.mx.dram ∧
    a / 32 ∈ (s.ueMarked a).mx.bad ∧ (s.ueMarked a).pw = s.pw := by
  unfold ueMarked
  split
  case isTrue h => exact ⟨rfl, rfl, by simpa using h, rfl⟩
  case isFalse => exact ⟨rfl, rfl, List.mem_cons_self, rfl⟩

theorem rd64_ueCounted (s : State) : (s.bump F.MX_DRAM_UE_COUNT).rd64 R.MX_DRAM_UE_ADDR_LO = s.rd64 R.MX_DRAM_UE_ADDR_LO :=
  rd64_congr (rd_bump_other _ _ _ _ (by decide)) (rd_bump_other _ _ _ _ (by decide))

theorem dramUe_eq (s : State) (a : Nat) : s.dramUe a = (((s.ueMarked a).ueSeen a).fault 0x0F 0 a).raise 216 := by
  rw [dramUe, ueSeen, ← rd64_ueCounted (s.ueMarked a)]
  rfl

theorem ueSeen_moves (s : State) (a : Nat) : moves [.regs] s (s.ueSeen a) := by
  unfold ueSeen
  split
  · exact moves_wr64 (List.Subset.refl _) (moves_bump (List.Subset.refl _) (moves_refl s))
  · exact moves_bump (List.Subset.refl _) (moves_refl s)

theorem ueSeen_shows (s : State) (a : Nat) :
    (s.ueSeen a).rg F.MX_DRAM_UE_COUNT = min (s.rg F.MX_DRAM_UE_COUNT + 1) (2 ^ 32 - 1) ∧
    (s.ueSeen a).rd R.MX_DRAM_UE_ADDR_LO =
      (if s.rd64 R.MX_DRAM_UE_ADDR_LO = 0 then Word.ofNat a else s.rd R.MX_DRAM_UE_ADDR_LO) ∧
    (s.ueSeen a).rd64 R.MX_DRAM_UE_ADDR_LO =
      if s.rd64 R.MX_DRAM_UE_ADDR_LO = 0 then a % 2 ^ 64 else s.rd64 R.MX_DRAM_UE_ADDR_LO := by
  unfold ueSeen
  split
  · refine ⟨?_, ?_, rd64_wr64_self _ _ _⟩
    · rw [wr64, rg_wr_other _ _ _ _ (by decide), rg_wr_other _ _ _ _ (by decide), rg_bump_self _ _ _ (by decide)]
    · rw [wr64, rd_wr_other _ _ _ _ (by decide), rd_wr_self]
  · exact ⟨rg_bump_self _ _ _ (by decide), rd_bump_other _ _ _ _ (by decide), rd64_ueCounted s⟩

/-- The registers of MX after the error are those of its count: the fault log writes none of them. -/
theorem rd_dramUe (s : State) (a : Nat) {off : Nat} (h : 0x1000000 ≤ off) :
    (s.dramUe a).rd off = ((s.ueMarked a).ueSeen a).rd off := by
  rw [dramUe_eq, rd_raise_other _ _ _ _ (by omega)]
  exact (regsWithin_fault (W := fun off => off < 0x1000000) (by decide) (fun _ ho => ho) (RegsWithin.refl _)).rd off
    (by omega) (.inr (by omega))

/-- An uncorrectable error of DRAM: its count, its event, its first address (R464). -/
theorem dramUe_shows {s : State} (a : Nat) (hu : s.socUp = true) :
    (s.dramUe a).evSet 216 = true ∧ (s.dramUe a).mx.dram = s.mx.dram ∧ a / 32 ∈ (s.dramUe a).mx.bad ∧
    (s.dramUe a).rg F.MX_DRAM_UE_COUNT = min (s.rg F.MX_DRAM_UE_COUNT + 1) (2 ^ 32 - 1) ∧
    (s.dramUe a).rd R.MX_DRAM_UE_ADDR_LO =
      (if s.rd64 R.MX_DRAM_UE_ADDR_LO = 0 then Word.ofNat a else s.rd R.MX_DRAM_UE_ADDR_LO) ∧
    (s.dramUe a).rd64 R.MX_DRAM_UE_ADDR_LO =
      if s.rd64 R.MX_DRAM_UE_ADDR_LO = 0 then a % 2 ^ 64 else s.rd64 R.MX_DRAM_UE_ADDR_LO := by
  obtain ⟨hregs, hdram, hbad, hpw⟩ := ueMarked_shows s a
  obtain ⟨hcount, hlo, h64⟩ := ueSeen_shows (s.ueMarked a) a
  have hfault : moves [.out, .regs, .scope, .ob] (s.ueMarked a) (((s.ueMarked a).ueSeen a).fault 0x0F 0 a) :=
    moves_fault (List.Subset.refl _) (moves_mono (by decide) (ueSeen_moves _ _))
  have hmx : (s.dramUe a).mx = (s.ueMarked a).mx := by
    rw [dramUe_eq, raise_mx]
    exact hfault.1 .mx (by decide)
  have hup : (((s.ueMarked a).ueSeen a).fault 0x0F 0 a).socUp = true := by
    rw [← hu]
    exact socUp_congr ((hfault.1 .pw (by decide)).trans hpw)
  rw [rd64_of_regs hregs] at hlo h64
  rw [rd_congr hregs] at hlo
  rw [rg_congr hregs] at hcount
  refine ⟨by rw [dramUe_eq]; exact evSet_raise_self _ _ _ hup, by rw [hmx]; exact hdram, by rw [hmx]; exact hbad, ?_, ?_, ?_⟩
  · rw [rg_eq, rd_dramUe _ _ (by decide), ← rg_eq]
    exact hcount
  · rw [rd_dramUe _ _ (by decide)]
    exact hlo
  · rw [rd64_congr (rd_dramUe s a (by decide)) (rd_dramUe s a (by decide)), h64]

end State

open State

/-- Settles O51. -/
theorem coreCounters : Obligations.CoreCounters := by
  unfold Obligations.CoreCounters
  refine ⟨?slots, ?tagged, ?popped, ?error, ?scrubbed, ?countdown, ?lost⟩
  case slots =>
    intro k r w f decoded events bytes s hk hrun hsum
    refine ⟨_, exec_coreCycle hk hrun, ?_⟩
    rw [Nat.min_eq_left (show r ≤ 4 by omega), Nat.min_eq_left (show w ≤ 4 - r by omega),
      Nat.min_eq_left (show f ≤ 4 - r - w by omega)]
    have read (j : Nat) (hj : j < 4) (e : Nat) :
        ((((s.cycleCounted k r w f e events).coreTag k none).coreDecode k decoded).cycleEnd bytes).rd64 (R.CX_TD k j) =
          (s.slotsCounted k r w f e).rd64 (R.CX_TD k j) := by
      rw [rd64_cycleEnd _ _ (by unfold R.CX_TD; omega),
        rd64_of_regs ((moves_coreDecode (ps := [.freeN, .cx]) (List.Subset.refl _) (moves_refl _)).1 .regs (by decide))]
      exact rd64_cycleCounted _ _ _ _ _ _ _ (by unfold R.CX_TD R.CX_PMU_CNT; omega)
    obtain ⟨h0, h1, h2, h3⟩ := slotsCounted_shows s k r w f (4 - r - w - f)
    exact ⟨(read 0 (by decide) _).trans h0, (read 1 (by decide) _).trans h1, (read 2 (by decide) _).trans h2,
      (read 3 (by decide) _).trans h3⟩
  case tagged =>
    intro k r w f decoded events tag bytes s hk hrun hopen hroom
    refine ⟨_, exec_coreCycle hk hrun, ?_⟩
    generalize hc : s.cycleCounted k _ _ _ _ events = c
    have hcx : c.cx = s.cx := by
      rw [← hc]
      exact (cycleCounted_moves _ _ _ _ _ _ _).1 .cx (by decide)
    have htags : c.tagsOf k = s.tagsOf k := tagsOf_congr (by rw [hcx]) k
    have htagged : c.coreTag k (some tag) = (c.setTagging k ((c.taggingOf k).1, (c.taggingOf k).2 - 1)).setTags k
        (s.tagsOf k ++ [tagWords tag]) := by
      have hc2 : (c.taggingOf k).2 ≠ 0 := by
        rw [taggingOf, hcx]
        exact hopen
      have hkept : (c.setTagging k ((c.taggingOf k).1, (c.taggingOf k).2 - 1)).tagsOf k = s.tagsOf k := htags
      rw [coreTag]
      dsimp only
      rw [if_neg hc2, hkept, if_neg (by omega)]
    rw [tagsOf_cycle, rg_cycle _ _ _ _ (by dsimp only; omega), htagged, tagsOf_setTags, count_setTags _ (by simp; omega)]
    exact ⟨rfl, by simp⟩
  case popped =>
    intro a k s hr hk hlen
    show ∃ t, execTagPop a k s = _ ∧ _
    rw [execTagPop, byAgent_reaches _ _ _ hr, if_pos hk]
    have htags : (s.setTags k ((s.tagsOf k).drop 1)).tagsOf k = (s.tagsOf k).drop 1 := tagsOf_setTags _ _ _
    have hcount : (s.setTags k ((s.tagsOf k).drop 1)).rg (F.CX_TAG_STAT_COUNT k) = (s.tagsOf k).length - 1 := by
      rw [count_setTags _ (by rw [List.length_drop]; omega), List.length_drop]
    generalize s.setTags k ((s.tagsOf k).drop 1) = t at htags hcount
    exact ⟨_, rfl, htags, hcount⟩
  case error =>
    intro addr load s hu hz haddr
    obtain ⟨hev, hdram, hbad, hcount, hlo, h64⟩ := dramUe_shows addr hu
    rw [Nat.mod_eq_of_lt haddr] at h64
    show ∃ t, execDramUe addr load s = _ ∧ _
    cases load with
    | none =>
      rw [execDramUe, if_pos ⟨hu, hz⟩]
      generalize s.dramUe addr = t at *
      exact ⟨_, rfl, hev, hdram, hbad, fun _ h => absurd h (by simp), hcount, hlo, fun _ => h64⟩
    | some k =>
      rw [execDramUe, if_pos ⟨hu, hz⟩]
      generalize s.dramUe addr = t at *
      refine ⟨_, rfl, hev, hdram, hbad, fun j h => ?_, hcount, hlo, fun _ => h64⟩
      obtain rfl := Option.some.inj h
      exact List.mem_cons_self
  case scrubbed =>
    intro s hu hz
    show ∃ t, execDramScrubPassDone s = _ ∧ _
    rw [execDramScrubPassDone, if_pos ⟨hu, hz⟩]
    have hup : (s.arbBytes 5 (2 ^ 34)).socUp = true :=
      (socUp_congr ((moves_bump64 (ps := [.regs]) (List.Subset.refl _) (moves_refl s)).1 .pw (by decide))).trans hu
    have hread : (s.arbBytes 5 (2 ^ 34)).rd64 (R.MX_ARB_BYTES 5) = (s.rd64 (R.MX_ARB_BYTES 5) + 2 ^ 34) % 2 ^ 64 :=
      rd64_bump64_self _ _ _
    rw [← hread]
    generalize s.arbBytes 5 (2 ^ 34) = t at hup
    refine ⟨_, rfl, evSet_raise_self _ _ _ hup, ?_⟩
    exact rd64_congr (rd_raise_other _ _ _ _ (by decide)) (rd_raise_other _ _ _ _ (by decide))
  case countdown =>
    intro k left opened decoded s hk hrun hen htag hl hd
    refine ⟨_, exec_coreCycle hk hrun, ?_⟩
    generalize hc : s.cycleCounted k _ _ _ _ [] = c
    have hcx : c.cx = s.cx := by
      rw [← hc]
      exact (cycleCounted_moves _ _ _ _ _ _ _).1 .cx (by decide)
    have hcen : c.rg (F.CX_TAG_CFG_EN k) = 1 := by
      rw [← hc, rg_cycleCounted _ _ _ _ _ _ _ (.inr (by dsimp only; omega)) (.inr (by unfold R.CX_TD; dsimp only; omega))]
      exact hen
    have hctag : c.taggingOf k = (left, opened) := by
      rw [taggingOf, hcx]
      exact htag
    have hend : (((c.coreTag k none).coreDecode k decoded).cycleEnd 0).taggingOf k = (c.coreDecode k decoded).taggingOf k := by
      rw [taggingOf, cycleEnd_cx]
      rfl
    exact hend.trans (taggingOf_coreDecode hcen hctag hl hd)
  case lost =>
    intro k r w f decoded events tag bytes s hk hrun hopen hfull
    refine ⟨_, exec_coreCycle hk hrun, ?_⟩
    generalize hc : s.cycleCounted k _ _ _ _ events = c
    have hcx : c.cx = s.cx := by
      rw [← hc]
      exact (cycleCounted_moves _ _ _ _ _ _ _).1 .cx (by decide)
    have htags : c.tagsOf k = s.tagsOf k := tagsOf_congr (by rw [hcx]) k
    have hlost : c.rg (F.CX_TAG_STAT_LOST k) = s.rg (F.CX_TAG_STAT_LOST k) := by
      rw [← hc]
      exact rg_cycleCounted _ _ _ _ _ _ _ (.inr (by dsimp only; omega)) (.inr (by unfold R.CX_TD; dsimp only; omega))
    have htagged : c.coreTag k (some tag) =
        (c.setTagging k ((c.taggingOf k).1, (c.taggingOf k).2 - 1)).tick (F.CX_TAG_STAT_LOST k) := by
      have hc2 : (c.taggingOf k).2 ≠ 0 := by
        rw [taggingOf, hcx]
        exact hopen
      have hkept : (c.setTagging k ((c.taggingOf k).1, (c.taggingOf k).2 - 1)).tagsOf k = s.tagsOf k := htags
      rw [coreTag]
      dsimp only
      rw [if_neg hc2, hkept, if_pos hfull]
    rw [tagsOf_cycle, rg_cycle _ _ _ _ (by dsimp only; omega), htagged, rg_tick_self _ _ _ (by dsimp only; omega)]
    refine ⟨htags, ?_⟩
    rw [← hlost]
    rfl

end Sys2Proof.Machine
end

section
/-!
PROOFS. Mode requests and the end of a transition (R78, R86, R87), and the start of the SoC die (R79, R95, R96).
-/

namespace Sys2Proof.Machine

namespace State

/-! ### Requests that are turned away -/

theorem modeReq_busy {s : State} {a : Agent} {same path : State → Bool} {go : State → State} (hr : s.reaches a = true)
    (hb : s.modeBusy = true) : s.modeReq a same path go = (s.modeRefuse a 2).answer .done := by
  rw [modeReq, byAgent_reaches _ _ _ hr, if_pos hb]

theorem modeReq_same {s : State} {a : Agent} {same path : State → Bool} {go : State → State} (hr : s.reaches a = true)
    (hb : s.modeBusy = false) (hs : same s = true) : s.modeReq a same path go = (s.modeRefuse a 3).answer .done := by
  rw [modeReq, byAgent_reaches _ _ _ hr, if_neg (by simp [hb]), if_pos hs]

theorem modeReq_noPath {s : State} {a : Agent} {same path : State → Bool} {go : State → State} (hr : s.reaches a = true)
    (hb : s.modeBusy = false) (hs : same s = false) (hp : path s = false) :
    s.modeReq a same path go = (s.modeRefuse a 6).answer .done := by
  rw [modeReq, byAgent_reaches _ _ _ hr, if_neg (by simp [hb]), if_neg (by simp [hs]), if_pos (by simp [hp])]

theorem modeReq_go {s : State} {a : Agent} {same path : State → Bool} {go : State → State} (hr : s.reaches a = true)
    (hb : s.modeBusy = false) (hs : same s = false) (hp : path s = true) :
    s.modeReq a same path go = (go s).answer .done := by
  rw [modeReq, byAgent_reaches _ _ _ hr, if_neg (by simp [hb]), if_neg (by simp [hs]), if_neg (by simp [hp])]

/-- What a refusal leaves: the power state and the mode; and its code with event 4. -/
theorem refused_shows {s : State} (a : Agent) {code : Nat} (hu : s.socUp = true) (hc : code < 8) :
    ((s.modeRefuse a code).answer .done).pw = s.pw ∧ ((s.modeRefuse a code).answer .done).mode = s.mode ∧
    ((s.modeRefuse a code).answer .done).rg F.SV_MODE_LAST_RESULT = code ∧
    ((s.modeRefuse a code).answer .done).evSet 4 = true := by
  have hset : (s.setRg F.SV_MODE_LAST_RESULT code).socUp = true := hu
  have hpw : (s.modeRefuse a code).pw = s.pw := by
    rw [modeRefuse, raise_pw]
    rfl
  have hmode : (s.modeRefuse a code).mode = s.mode := by
    rw [mode, modeRefuse, rg_raise_other _ _ _ _ (by decide), rg_setRg_other _ _ _ _ (by decide) (by decide) (by decide)]
    rfl
  have hcode : (s.modeRefuse a code).rg F.SV_MODE_LAST_RESULT = code := by
    rw [modeRefuse, rg_raise_other _ _ _ _ (by decide), rg_setRg_self _ _ _ (by decide)]
    exact Nat.mod_eq_of_lt hc
  exact ⟨hpw, hmode, hcode, evSet_raise_self _ _ _ hset⟩

/-! ### The end of a transition -/

/-- The transition is over, and its requester is told (R78, R97). -/
def moveDone (s : State) : State :=
  let s1 := ({ s with pw.moving := .none, pw.requester := none, pw.byFold := false }.setRg F.SV_MODE_MOVING 0).raise 2
  match s.pw.requester with
  | some a => (s1.setRg F.SV_MODE_LAST_RESULT 1).raise 3 (some a)
  | none => s1

theorem moveEnds_eq (s : State) : s.moveEnds = s.moveDone.portsJudge.hamJudge.tryRun.modeAuto := rfl

theorem moveDone_pw (s : State) : s.moveDone.pw = { s.pw with moving := .none, requester := none, byFold := false } := by
  unfold moveDone
  dsimp only
  split
  · rw [raise_pw, setRg_pw, raise_pw]
    rfl
  · rw [raise_pw]
    rfl

theorem rg_moveDone (s : State) {f : Fld} (hf : f.lo + f.wid ≤ 32) (h : f.off = 0x200) (h5 : f.lo + f.wid ≤ 5) :
    s.moveDone.rg f = s.rg f := by
  have apart (g : Fld) (hg : 5 ≤ g.lo) : g.off ≠ f.off ∨ g.lo + g.wid ≤ f.lo ∨ f.lo + f.wid ≤ g.lo := by omega
  have ended : ((({ s with pw.moving := .none, pw.requester := none, pw.byFold := false } : State).setRg
      F.SV_MODE_MOVING 0).raise 2).rg f = s.rg f := by
    rw [rg_raise_other _ _ _ _ (by rw [h]; decide), rg_setRg_other _ _ _ _ (by decide) hf (apart _ (by decide))]
    rfl
  unfold moveDone
  dsimp only
  split
  · rw [rg_raise_other _ _ _ _ (by rw [h]; decide), rg_setRg_other _ _ _ _ (by decide) hf (apart _ (by decide))]
    exact ended
  · exact ended

/-- Ports and Hamper are judged anew. -/
def judged (s : State) : State := s.portsJudge.hamJudge

theorem judged_moves (s : State) :
    moves [.freeN, .out, .regs, .scope, .sx, .fx, .ob, .px, .bx, .cx, .mx] s s.judged :=
  moves_hamJudge (by decide) (portsJudge_moves s)

theorem judged_pw (s : State) : s.judged.pw = s.pw := (judged_moves s).1 .pw (by decide)

theorem regsWithin_judged (s : State) : RegsWithin fromPorts s s.judged :=
  regsWithin_hamJudge (fun _ h => h) (regsWithin_portsJudge (fun _ h => h) (RegsWithin.refl s))

theorem rg_judged (s : State) {f : Fld} (h : f.off < 0x2000) : s.judged.rg f = s.rg f :=
  (regsWithin_judged s).rg f (by unfold fromPorts; omega) (.inl h)

/-- The mode and RAMPING before the next transition is judged. -/
theorem moveDone_judged (s : State) :
    s.moveDone.judged.pw = { s.pw with moving := .none, requester := none, byFold := false } ∧
    s.moveDone.judged.mode = s.mode ∧ s.moveDone.judged.rg F.SV_MODE_RAMPING = s.rg F.SV_MODE_RAMPING := by
  refine ⟨(judged_pw _).trans (moveDone_pw s), ?_, ?_⟩
  · exact (rg_judged _ (by decide)).trans (rg_moveDone s (by decide) rfl (by decide))
  · exact (rg_judged _ (by decide)).trans (rg_moveDone s (by decide) rfl (by decide))

theorem mode_tryRun (s : State) : s.tryRun.mode = s.mode := by
  unfold tryRun
  split
  · exact (rg_setRg_other _ _ _ _ (by decide) (by decide) (by decide)).trans
      ((rg_setRg_other _ _ _ _ (by decide) (by decide) (by decide)).trans rfl)
  · rfl

theorem mode_startMove (s : State) (m : Moving) (a : Option Agent) : (s.startMove m a).mode = s.mode :=
  rg_setRg_other _ _ _ _ (by decide) (by decide) (by decide)

theorem mode_modeAuto (s : State) : s.modeAuto.mode = s.mode := by
  unfold modeAuto
  dsimp only
  (repeat' split) <;> first | rfl | exact mode_startMove _ _ _

/-- The end of a transition keeps the mode. -/
theorem mode_moveEnds (s : State) : s.moveEnds.mode = s.mode := by
  rw [moveEnds_eq, mode_modeAuto, mode_tryRun]
  exact (moveDone_judged s).2.1

/-- Where neither Fold nor a need asks for another transition, none follows. -/
theorem moveEnds_rests {s : State} (hrun : s.pw.runWanted = false ∨ s.mode ≠ 2)
    (hfold : s.pw.foldDue = false ∨ s.mode < 2 ∨ 5 < s.mode) :
    s.moveEnds = s.moveDone.judged := by
  obtain ⟨hpw, hmode, -⟩ := moveDone_judged s
  have htry : s.moveDone.judged.tryRun = s.moveDone.judged := by
    rw [tryRun, if_neg]
    rintro ⟨hw, -, -, h2, -⟩
    rw [hpw] at hw
    rcases hrun with h | h
    · exact absurd hw (by simp [h])
    · exact h (hmode.symm.trans h2)
  have hauto : s.moveDone.judged.modeAuto = s.moveDone.judged := by
    rw [modeAuto, if_pos]
    rw [hpw]
    rcases hfold with h | h
    · simp [h]
    · rw [settled, hmode, decide_eq_false (p := 2 ≤ s.mode ∧ s.mode ≤ 5) (by omega)]
      simp
  rw [moveEnds_eq]
  change s.moveDone.judged.tryRun.modeAuto = _
  rw [htry, hauto]

/-! ### FACTORY -/

/-- The mode becomes FACTORY, and everything runs (R72, R85). -/
def factoryMode (s : State) (a : Agent) : State :=
  let t := { s.setRg F.SV_MODE_MODE 7 with pw.dramSr := false, pw.runWanted := false }
  let u := if t.pw.cxReset then t.clusterRelease else t
  { u with pw.requester := some a }

theorem rg_startCores (s : State) {f : Fld} (hf : f.lo + f.wid ≤ 32) (h : f.off < 0x1000000) : s.startCores.rg f = s.rg f :=
  rg_runCores_other _ _ _ hf (.inl (by dsimp only; omega))

theorem rg_setOpp (s : State) (g : Nat) {f : Fld} (hf : f.lo + f.wid ≤ 32) (h : f.off < 0x1000000) :
    (s.setOpp g).rg f = s.rg f :=
  rg_setRg_other s _ _ _ (by decide) hf (.inl (by dsimp only; omega))

theorem rg_copyImage (s : State) (f : Fld) : s.copyImage.rg f = s.rg f :=
  rg_of_moves (moves_copyImage (ps := [.cx]) (List.Subset.refl _) (moves_refl s)) (by decide) f

/-- The release of the cluster keeps the fields before block PX. -/
theorem rg_clusterRelease (s : State) {f : Fld} (hf : f.lo + f.wid ≤ 32) (h : f.off < 0x2000) :
    s.clusterRelease.rg f = s.rg f := by
  have hout : s.clusterOut.portsJudge.rg f = s.rg f := by
    refine ((regsWithin_portsJudge (W := fromPorts) (fun _ h => h) (RegsWithin.refl s.clusterOut)).rg f
      (by unfold fromPorts; omega) (.inl h)).trans ?_
    exact (rg_setOpp s.copyImage _ hf (by omega)).trans (rg_copyImage s f)
  obtain h' | h' := clusterRelease_cases s
  · rw [h']
    exact hout
  · rw [h', rg_startCores _ hf (by omega)]
    exact hout

theorem factoryMode_shows (s : State) (a : Agent) : (s.factoryMode a).mode = 7 ∧ (s.factoryMode a).pw.dramSr = false := by
  have hset : (s.setRg F.SV_MODE_MODE 7).mode = 7 := rg_setRg_self _ _ _ (by decide)
  unfold factoryMode
  dsimp only
  split
  · refine ⟨(rg_clusterRelease _ (by decide) (by decide)).trans hset, ?_⟩
    rw [(clusterRelease_shows _).1]
  · exact ⟨hset, rfl⟩

theorem enterFactory_shows (s : State) (a : Agent) : (s.enterFactory a).mode = 7 ∧ (s.enterFactory a).pw.dramSr = false ∧
    (s.enterFactory a).pw.moving = .none := by
  obtain ⟨hmode, hsr⟩ := factoryMode_shows s a
  have hend : s.enterFactory a = (s.factoryMode a).moveDone.judged :=
    moveEnds_rests (s := s.factoryMode a) (.inr (by rw [hmode]; decide)) (.inr (.inr (by rw [hmode]; decide)))
  rw [hend]
  obtain ⟨hpw, hm, -⟩ := moveDone_judged (s.factoryMode a)
  exact ⟨hm.trans hmode, by rw [hpw]; exact hsr, by rw [hpw]⟩

/-! ### Resets -/

/-- With neither ENROLL nor the copy at work a reset cuts no write of the flash short (log 75, 108). -/
theorem cut_of_quiet {s : State} (he : s.enrolling = false) (hc : s.upd.copy.running = false) : s.tornHelper.copyCut = s := by
  have ht : s.tornHelper = s := by rw [tornHelper, if_neg (by simp [he])]
  rw [ht, copyCut, if_pos (by simp [hc])]

/-- A cause that meets no reset of the same instant stays (R93). -/
theorem resetCause_alone {s : State} {c : Nat} (h : s.pw.start.tested = true ∨ s.pw.start.origin ≠ s.now) :
    s.resetCause c = c := by
  rw [resetCause, if_neg]
  rintro ⟨ho, ht⟩
  rcases h with h | h
  · simp [h] at ht
  · exact h ho

theorem resetCause_meets {s : State} {c : Nat} (ht : s.pw.start.tested = false) (ho : s.pw.start.origin = s.now) :
    s.resetCause c = firstCause s.pw.cause c := by
  rw [resetCause, if_pos ⟨ho, by simp [ht]⟩]

/-- A reset of the running SoC die that RESET_N does not hold: its cause, its start, and what it keeps (R92). -/
theorem resetSoc_shows {s : State} (c : Nat) (hp : s.pw.power = .up) (hn : s.pw.resetN = false) :
    (s.resetSoc c).pw.cause = s.resetCause c ∧ (s.resetSoc c).pw.power = .up ∧ (s.resetSoc c).pw.start.rom = true ∧
    (s.resetSoc c).aon = s.aon ∧ (s.resetSoc c).active = [] ∧ (s.resetSoc c).shadow = [] ∧
    (s.enrolling = false → s.upd.copy.running = false → (s.resetSoc c).nv = s.nv) := by
  obtain ⟨hact, hshd, hnv, haon, hcause, hpow⟩ := resetSoc_keeps s c hp
  refine ⟨by rw [hcause, if_neg (by simp [hn])], hpow, ?_, haon, hact, hshd, fun he hc => by rw [hnv, cut_of_quiet he hc]⟩
  rw [resetSoc, if_pos hp]
  have hkeep : (s.socReset (s.resetCause c)).pw.resetN = false := by
    show s.tornHelper.copyCut.pw.resetN = false
    rw [(cut_keeps s).1, hn]
  exact (releaseSoc_pw _).2.2.2.2 hkeep

theorem power_of_socUp {s : State} (h : s.socUp = true) : s.pw.power = .up := by
  rw [socUp] at h
  exact of_decide_eq_true (Bool.and_eq_true_iff.mp h).1

end State

open State

/-- Settles O33. -/
theorem modeRequests : Obligations.ModeRequests := by
  unfold Obligations.ModeRequests
  refine ⟨?toPartial, ?toRun, ?toListen, ?rescue, ?factory, ?busy, ?same, ?noPath, ?refused⟩
  case toPartial =>
    intro a s hr hb hrun
    have h2 : decide (s.mode = 2) = false := by
      have h3 := of_decide_eq_true hrun
      simp; omega
    show ∃ t, execModeReqPartial a s = _ ∧ _
    rw [execModeReqPartial, modeReq_go hr hb h2 hrun]
    exact ⟨_, rfl, rfl, rfl, rg_setRg_self _ _ _ (by decide)⟩
  case toRun =>
    intro a s hr hb h2
    have hrun : s.inRun = false := by
      rw [inRun, h2]
      rfl
    show ∃ t, execModeReqRun a s = _ ∧ _
    rw [execModeReqRun, modeReq_go hr hb hrun (by simp [h2])]
    refine ⟨_, rfl, rfl, rfl, ?_, rg_setRg_self _ _ _ (by decide)⟩
    exact (rg_setRg_other _ _ _ _ (by decide) (by decide) (by decide)).trans (rg_setRg_self _ _ _ (by decide))
  case toListen =>
    intro a s hr hb hp
    show ∃ t, execModeReqListen a s = _ ∧ _
    rw [execModeReqListen, modeReq_go hr hb rfl hp]
    exact ⟨_, rfl, rfl, rfl, rg_setRg_self _ _ _ (by decide)⟩
  case rescue =>
    intro a s hr hb h6 hp hn hone
    show ∃ t, execModeReqRescue a s = _ ∧ _
    rw [execModeReqRescue, modeReq_go hr hb rfl (by simp [h6])]
    obtain ⟨hcause, -, hrom, haon, hact, hshd, hnv⟩ := resetSoc_shows 5 hp hn
    generalize s.resetSoc 5 = t at *
    exact ⟨_, rfl, hcause.trans (resetCause_alone hone), hrom, hnv, haon, hact, hshd⟩
  case factory =>
    intro n s hr hb h6 h7 hlc hnode
    show ∃ t, execModeReqFactory (.bersan n) s = _ ∧ _
    rw [execModeReqFactory, modeReq_go hr hb (by simp [h7]) (by simp [h6]), if_neg (by simp [hlc])]
    dsimp only
    rw [if_pos (by simp [hnode])]
    obtain ⟨hmode, hsr, hmov⟩ := enterFactory_shows s (.bersan n)
    generalize s.enterFactory (.bersan n) = t at *
    exact ⟨_, rfl, hmode, hsr, hmov⟩
  case busy =>
    intro a s hr hu hb
    show ∃ t u v w y, execModeReqPartial a s = _ ∧ execModeReqRun a s = _ ∧ execModeReqListen a s = _ ∧
      execModeReqFactory a s = _ ∧ execModeReqRescue a s = _ ∧ _
    rw [execModeReqPartial, execModeReqRun, execModeReqListen, execModeReqFactory, execModeReqRescue,
      modeReq_busy hr hb, modeReq_busy hr hb, modeReq_busy hr hb, modeReq_busy hr hb, modeReq_busy hr hb]
    refine ⟨_, _, _, _, _, rfl, rfl, rfl, rfl, rfl, fun x hx => ?_⟩
    obtain rfl : x = (s.modeRefuse a 2).answer .done := by simpa using hx
    exact refused_shows a hu (by decide)
  case same =>
    intro a s hr hu hb
    show ∃ t u w, execModeReqPartial a s = _ ∧ execModeReqRun a s = _ ∧ execModeReqFactory a s = _ ∧ _
    refine ⟨_, _, _, rfl, rfl, rfl, fun h => ?_, fun h => ?_, fun h => ?_⟩
    · rw [modeReq_same hr hb (by simp [h])]
      obtain ⟨hpw, hmode, hrest⟩ := refused_shows a hu (show 3 < 8 by decide)
      exact ⟨hpw, hmode.trans h, hrest⟩
    · rw [modeReq_same hr hb h]
      exact refused_shows a hu (by decide)
    · rw [modeReq_same hr hb (by simp [h])]
      obtain ⟨hpw, hmode, hrest⟩ := refused_shows a hu (show 3 < 8 by decide)
      exact ⟨hpw, hmode.trans h, hrest⟩
  case noPath =>
    intro a s hr hu hb h67
    have hrun : s.inRun = false := by
      rw [inRun]
      simp; omega
    have hpr : s.partialOrRun = false := by
      rw [partialOrRun]
      simp; omega
    have h2 : decide (s.mode = 2) = false := by
      simp; omega
    show ∃ t u v w y, execModeReqPartial a s = _ ∧ execModeReqRun a s = _ ∧ execModeReqListen a s = _ ∧
      execModeReqFactory a s = _ ∧ execModeReqRescue a s = _ ∧ _
    refine ⟨_, _, _, _, _, rfl, rfl, rfl, rfl, rfl, fun x hx => ?_, fun h6 x hx => ?_⟩
    · rw [modeReq_noPath hr hb h2 hrun, modeReq_noPath hr hb hrun h2, modeReq_noPath hr hb rfl hpr] at hx
      obtain rfl : x = (s.modeRefuse a 6).answer .done := by simpa using hx
      exact refused_shows a hu (by decide)
    · rw [modeReq_noPath hr hb (by simp [h6]) (by simp [h6]), modeReq_noPath hr hb rfl (by simp [h6])] at hx
      obtain rfl : x = (s.modeRefuse a 6).answer .done := by simpa using hx
      obtain ⟨hpw, hmode, hrest⟩ := refused_shows a hu (show 6 < 8 by decide)
      exact ⟨hpw, hmode.trans h6, hrest⟩
  case refused =>
    intro a s hr hu hb h6 h7 hauth
    show ∃ t, execModeReqFactory a s = _ ∧ _
    rw [execModeReqFactory, modeReq_go hr hb (by simp [h7]) (by simp [h6])]
    by_cases hlc : s.rg F.KX_STAT_LC = 1
    · obtain ⟨hpw, hmode, hcode, hev⟩ := refused_shows a hu (show 5 < 8 by decide)
      rw [if_neg (by simp [hlc]), if_pos hlc, if_neg]
      · exact ⟨_, rfl, hpw, hmode, hev, hcode⟩
      · cases a with
        | bersan n => simpa using hauth hlc n rfl
        | core _ => simp
        | sv => simp
        | pcie => simp
        | debug => simp
    · rw [if_pos hlc, if_neg hlc]
      obtain ⟨hpw, hmode, hcode, hev⟩ := refused_shows a hu (show 4 < 8 by decide)
      exact ⟨_, rfl, hpw, hmode, hev, hcode⟩

end Sys2Proof.Machine
end

section
/-!
PROOFS. The start of the SoC die (R79, R82, R95, R96), the rails (R534 to R536), and the resets (R92, R93, R529).
-/

namespace Sys2Proof.Machine

namespace State

/-! ### The start of the SoC die -/

theorem setFlashMode_moves (s : State) : moves [.out, .regs] s s.setFlashMode :=
  moves_setFlashMode (List.Subset.refl _) (moves_refl s)

/-- The boot header sets OCTAL (log 93). -/
theorem octal_setFlashMode (s : State) :
    s.setFlashMode.rg F.SV_CFG_STATUS_OCTAL = if s.bootHeaderOk then 1 else s.rg F.SV_CFG_STATUS_OCTAL := by
  unfold setFlashMode
  split
  · exact rg_setRg_self s F.SV_CFG_STATUS_OCTAL 1 (by decide)
  · rfl

theorem nvRead_of_nv {s t : State} (h : t.nv = s.nv) (off n : Nat) : t.nvRead off n = s.nvRead off n := by
  simp only [nvRead, nvByte, h]

theorem journalUsed_of_nv {s t : State} (h : t.nv = s.nv) (k n : Nat) : t.journalUsed k n = s.journalUsed k n := by
  induction n generalizing k with
  | zero => rfl
  | succ n ih => rw [journalUsed, journalUsed, ih, journalAt, journalAt, nvRead_of_nv h]

theorem copyMarked_of_nv {s t : State} (h : t.nv = s.nv) : t.copyMarked = s.copyMarked := by
  have hat : t.journalAt = s.journalAt := funext fun k => nvRead_of_nv h _ _
  rw [copyMarked, copyMarked, journalOk, journalOk, journalCodes, journalCodes, hat, nvRead_of_nv h, journalUsed_of_nv h]

/-- The mode is RESCUE (R95). -/
def rescueMode (s : State) : State := ({ s with pw.rescue := true }.setRg F.SV_MODE_MODE 6).setRg F.SV_MODE_RAMPING 0

theorem enterRescue_eq (s : State) : s.enterRescue = (if s.pw.start.tested then s else s.setFlashMode).rescueMode.raise 2 := rfl

theorem socUp_rescueMode (s : State) : s.rescueMode.socUp = s.socUp := rfl

theorem enterRescue_event {s : State} (hu : s.socUp = true) : s.enterRescue.evSet 2 = true := by
  rw [enterRescue_eq]
  refine evSet_raise_self _ _ _ ((socUp_rescueMode _).trans ?_)
  split
  · exact hu
  · exact (socUp_congr ((setFlashMode_moves s).1 .pw (by decide))).trans hu

/-! ### Resets -/

/-- The ROM's start changes of the power-die state its milestone and RESCUE alone. -/
theorem romStart_power (s : State) : ∃ r, s.romStart.pw = { s.pw with start.rom := true, rescue := r } := by
  have hnodes (u : State) : u.transportNodes.refreshMirror.pw = u.pw :=
    (moves_refreshMirror (ps := [.out, .regs, .scope, .kx, .mirror]) (by decide)
      (moves_transportNodes (by decide) (moves_refl u))).1 .pw (by decide)
  have halarm (u : State) : (if u.startAlarm = true then u.enterRescue else u).pw =
      { u.pw with rescue := u.pw.rescue || u.startAlarm } := by
    split
    case isTrue h => rw [enterRescue_pw, h, Bool.or_true]
    case isFalse h => rw [Bool.not_eq_true] at h; rw [h, Bool.or_false]
  unfold romStart
  dsimp only
  rw [halarm, hnodes]
  exact ⟨_, rfl⟩

/-- Unless RESET_N holds it, a released SoC die starts from the ROM (R79). -/
theorem releaseSoc_power {s : State} (h : s.pw.resetN = false) :
    ∃ r, s.releaseSoc.pw = { s.pw with held := false, start.rom := true, rescue := r } := by
  rw [releaseSoc, if_neg (by simp [h])]
  exact romStart_power { s with pw.held := false }

theorem socReset_pw (s : State) (c : Nat) : (s.socReset c).pw.startFb = s.pw.startFb ∧
    (s.socReset c).pw.startFull = s.pw.startFull ∧ (s.socReset c).pw.resetN = s.pw.resetN := by
  show s.tornHelper.copyCut.pw.startFb = _ ∧ s.tornHelper.copyCut.pw.startFull = _ ∧ s.tornHelper.copyCut.pw.resetN = _
  rw [(cut_keeps s).1]
  exact ⟨rfl, rfl, rfl⟩

theorem resetSoc_startTimes {s : State} (c : Nat) (hp : s.pw.power = .up) (hn : s.pw.resetN = false) :
    (s.resetSoc c).pw.startFb = s.pw.startFb ∧ (s.resetSoc c).pw.startFull = s.pw.startFull := by
  obtain ⟨hfb, hfull, hkeep⟩ := socReset_pw s (s.resetCause c)
  obtain ⟨r, hr⟩ := releaseSoc_power (hkeep.trans hn)
  rw [resetSoc, if_pos hp, hr]
  exact ⟨hfb, hfull⟩

/-! ### The end of the self-test, and of the ramp -/

/-- The self-tests have passed (R79). -/
def passedTests (s : State) : State := { s with pw.start.tested := true }

theorem passedTests_keeps (s : State) : s.passedTests.setFlashMode.pw = { s.pw with start.tested := true } ∧
    s.passedTests.setFlashMode.nv = s.nv :=
  ⟨(setFlashMode_moves s.passedTests).1 .pw (by decide), (setFlashMode_moves s.passedTests).1 .nv (by decide)⟩

theorem romTested_plain {s : State} (pufOk : Bool) (hc : s.pw.cause ≠ 5) (hq : s.pw.rescueReq = false)
    (hm : s.copyMarked = false) : s.romTested pufOk = s.passedTests.setFlashMode := by
  obtain ⟨hpw, hnv⟩ := passedTests_keeps s
  rw [romTested]
  change (if s.passedTests.setFlashMode.pw.cause = 5 ∨ s.passedTests.setFlashMode.pw.rescueReq = true then _ else
    if s.passedTests.setFlashMode.copyMarked = true then _ else s.passedTests.setFlashMode) = _
  rw [if_neg (by rw [hpw]; simp [hc, hq]), if_neg (by rw [copyMarked_of_nv hnv, hm]; decide)]

theorem romTested_rescue {s : State} (pufOk : Bool) (h : s.pw.cause = 5 ∨ s.pw.rescueReq = true) :
    s.romTested pufOk = s.passedTests.setFlashMode.enterRescue := by
  rw [romTested]
  change (if s.passedTests.setFlashMode.pw.cause = 5 ∨ s.passedTests.setFlashMode.pw.rescueReq = true then
    s.passedTests.setFlashMode.enterRescue else _) = _
  rw [if_pos (by rw [(passedTests_keeps s).1]; exact h)]

/-- The ramp ends in PARTIAL (R79, R87). -/
def rampPartial (s : State) : State :=
  { { s with pw.start.ramped := true }.cxIntoReset with pw.dramSr := true, pw.start.calibrated := false }.setRg
    F.SV_MODE_RAMPING 0

theorem rampPartial_pw (s : State) : s.rampPartial.pw = { s.pw with
    cxReset := true, dramSr := true, start := { s.pw.start with ramped := true, calibrated := false } } := rfl

/-- The keys stay down, with the cause and event 5 (R82). -/
theorem enterKeysDown_shows {s : State} {c : Nat} (hc : c < 8) (hu : s.socUp = true) :
    (s.enterKeysDown c).pw = s.pw ∧ (s.enterKeysDown c).rg F.KX_STAT_KEYS_DOWN = 1 ∧
    (s.enterKeysDown c).rg F.KX_STAT_DOWN_CAUSE = c ∧ (s.enterKeysDown c).rg F.SV_MODE_KEYS_DOWN = 1 ∧
    (s.enterKeysDown c).evSet 5 = true := by
  unfold enterKeysDown
  refine ⟨by rw [raise_pw]; rfl, ?_, ?_, ?_, evSet_raise_self _ _ _ hu⟩
  · rw [rg_raise_other _ _ _ _ (by decide), rg_setRg_other _ _ _ _ (by decide) (by decide) (by decide),
      rg_setRg_other _ _ _ _ (by decide) (by decide) (by decide), rg_setRg_self _ _ _ (by decide)]
    rfl
  · rw [rg_raise_other _ _ _ _ (by decide), rg_setRg_other _ _ _ _ (by decide) (by decide) (by decide),
      rg_setRg_self _ _ _ (by decide)]
    exact Nat.mod_eq_of_lt hc
  · rw [rg_raise_other _ _ _ _ (by decide), rg_setRg_self _ _ _ (by decide)]
    rfl

theorem downCause_lt (s : State) (r : Puf) : s.downCause r < 8 := by
  unfold downCause
  (repeat' split) <;> decide

/-! ### Rails -/

theorem railFault_shows (s : State) {n kind : Nat} (hn : n < 6) (hk : kind < 4) :
    (s.railFault n kind).rg F.PW_RAIL_STAT_FAIL_RAIL = n + 1 ∧ (s.railFault n kind).rg F.PW_RAIL_STAT_FAIL_KIND = kind := by
  unfold railFault
  refine ⟨?_, ?_⟩
  · rw [rg_tick_other _ _ _ _ (by decide) (by decide) (by decide), rg_setRg_other _ _ _ _ (by decide) (by decide) (by decide),
      rg_setRg_self _ _ _ (by decide)]
    exact Nat.mod_eq_of_lt (by dsimp only; omega)
  · rw [rg_tick_other _ _ _ _ (by decide) (by decide) (by decide), rg_setRg_self _ _ _ (by decide)]
    exact Nat.mod_eq_of_lt (by dsimp only; omega)

/-- The third failure in a row is the last that is counted (R536). -/
def railMissed (s : State) (n : Nat) : State :=
  ({ s with pw.retries := min 3 (s.pw.retries + 1) }.railFault n 1).setRg F.PW_RAIL_STAT_ATTEMPTS
    (min 3 (s.pw.retries + 1))

theorem railMissed_shows (s : State) {n : Nat} (hn : n < 6) : (s.railMissed n).pw = { s.pw with
    retries := min 3 (s.pw.retries + 1) } ∧ (s.railMissed n).rg F.PW_RAIL_STAT_FAIL_RAIL = n + 1 ∧
    (s.railMissed n).rg F.PW_RAIL_STAT_FAIL_KIND = 1 ∧
    (s.railMissed n).rg F.PW_RAIL_STAT_ATTEMPTS = min 3 (s.pw.retries + 1) := by
  obtain ⟨hrail, hkind⟩ := railFault_shows { s with pw.retries := min 3 (s.pw.retries + 1) } hn (show 1 < 4 by decide)
  unfold railMissed
  refine ⟨rfl, ?_, ?_, ?_⟩
  · rw [rg_setRg_other _ _ _ _ (by decide) (by decide) (by decide), hrail]
  · rw [rg_setRg_other _ _ _ _ (by decide) (by decide) (by decide), hkind]
  · rw [rg_setRg_self _ _ _ (by decide)]
    exact Nat.mod_eq_of_lt (by dsimp only; omega)

/-- The SoC die falls with a rail that was lost (R536). -/
def railGone (s : State) (n : Nat) : State := { s.socReset 0 with pw.held := false }.railFault n 2

theorem railGone_keeps (s : State) (n : Nat) : (s.railGone n).pw.cause = 0 ∧ (s.railGone n).active = [] ∧
    (s.railGone n).nv = s.tornHelper.copyCut.nv ∧ (s.railGone n).aon = s.tornHelper.copyCut.aon :=
  ⟨rfl, rfl, rfl, rfl⟩

theorem startRails_within (s : State) (l : Bool) (c : Nat) : within [.pw] s (s.startRails l c) :=
  (moves_startRails (ps := [.pw]) (List.Subset.refl _) (moves_refl s)).1

/-- A brown-out loses all but the flash and the fuses (R79). -/
theorem brownOut_keeps (s : State) : s.brownOut.pw.power = .off ∧ s.brownOut.regs = [] ∧ s.brownOut.active = [] ∧
    s.brownOut.now = s.now ∧ s.brownOut.nv = s.tornHelper.copyCut.nv := by
  have hcut : moves [.freeN, .nv, .upd] s s.tornHelper.copyCut :=
    moves_copyCut (by decide) (moves_tornHelper (by decide) (moves_refl s))
  exact ⟨rfl, rfl, rfl, hcut.1 .now (by decide), rfl⟩

/-- RESET_N is held (R529). -/
def pinned (s : State) : State := { s with pw.resetN := true }

/-- The SoC die is held in reset by the pin (R529). -/
theorem pinned_keeps (s : State) : (s.pinned.socReset (s.pinned.resetCause 1)).nv = s.pinned.tornHelper.copyCut.nv ∧
    (s.pinned.socReset (s.pinned.resetCause 1)).aon = s.aon ∧
    (s.pinned.socReset (s.pinned.resetCause 1)).active = [] ∧
    (s.pinned.socReset (s.pinned.resetCause 1)).pw.cause = s.resetCause 1 ∧
    (s.pinned.socReset (s.pinned.resetCause 1)).pw.resetN = true :=
  ⟨rfl, (cut_keeps s.pinned).2, rfl, rfl, (socReset_pw s.pinned _).2.2⟩

end State

open State

/-- Settles O35. -/
theorem startCommands : Obligations.StartCommands := by
  unfold Obligations.StartCommands
  refine ⟨?passed, ?rescue, ?firmware, ?puf, ?trained, ?calibrated, ?zeroed, ?ramped⟩
  case passed =>
    intro pufOk s hu hrom ht hres hc hq hm
    show ∃ t, execRomSelfTestDone pufOk s = _ ∧ _
    rw [execRomSelfTestDone, if_pos (by simp [hu, hrom, ht, hres]), romTested_plain pufOk hc hq hm]
    obtain ⟨hpw, hnv⟩ := passedTests_keeps s
    exact ⟨_, rfl, hpw, hnv, octal_setFlashMode s.passedTests⟩
  case rescue =>
    intro pufOk s hu hrom ht hres hwhy
    show ∃ t, execRomSelfTestDone pufOk s = _ ∧ _
    rw [execRomSelfTestDone, if_pos (by simp [hu, hrom, ht, hres]), romTested_rescue pufOk hwhy]
    obtain ⟨hpw, -⟩ := passedTests_keeps s
    have hup : s.passedTests.setFlashMode.socUp = true := (socUp_congr ((setFlashMode_moves _).1 .pw (by decide))).trans hu
    refine ⟨_, rfl, ?_, ?_, enterRescue_event hup⟩
    · rw [enterRescue_pw]
    · rw [enterRescue_pw, hpw]
  case firmware =>
    intro s hu ht hf hres hcopy
    show ∃ t, execFirmwareStart s = _ ∧ _
    rw [execFirmwareStart, if_pos (by simp [hu, ht, hf, hres, hcopy])]
    have hstatus (u : State) : u.updStatus.pw = u.pw :=
      (moves_updStatus (ps := [.regs]) (List.Subset.refl _) (moves_refl u)).1 .pw (by decide)
    cases hauth : s.activeAuthentic with
    | true =>
      rw [if_pos rfl]
      refine ⟨_, rfl, ?_, ?_⟩
      · rw [hstatus]
      · rw [hstatus]
        exact hres
    | false =>
      rw [if_neg (by decide)]
      refine ⟨_, rfl, ?_, ?_⟩
      · rw [enterRescue_pw]
        exact hf
      · rw [enterRescue_pw]
        rfl
  case puf =>
    intro ok s hu hf ht
    show ∃ t, execPufReconstructed ok s = _ ∧ _
    rw [execPufReconstructed, if_pos (by simp [hu, hf, ht])]
    dsimp only
    have hdown : { s with pw.start.tree := true }.downCause ok = s.downCause ok := rfl
    rw [hdown]
    have hnoted (c : Nat) : ({ s with pw.start.tree := true }.noteErrRate c).pw = { s.pw with start.tree := true } :=
      (moves_noteErrRate (ps := [.freeN, .out, .regs, .scope]) (List.Subset.refl _) (moves_refl _)).1 .pw (by decide)
    by_cases hcause : s.downCause ok = 0
    · rw [if_pos hcause]
      refine ⟨_, rfl, ?_, fun h => absurd hcause h⟩
      rw [(moves_instantiate (ps := [.freeN, .out, .regs, .scope, .kx]) (List.Subset.refl _) (moves_refl _)).1 .pw
        (by decide), hnoted]
    · rw [if_neg hcause]
      obtain ⟨hpw, hkeys, hwhy, hmode, hev⟩ := enterKeysDown_shows
        (s := { s with pw.start.tree := true }.noteErrRate (s.downCause ok)) (downCause_lt s ok)
        (by rw [socUp, hnoted]; exact hu)
      exact ⟨_, rfl, by rw [hpw, hnoted], fun _ => ⟨hkeys, hwhy, hmode, hev⟩⟩
  case trained =>
    intro s hu hf
    show execDramTrainingDone s = _
    rw [execDramTrainingDone, if_pos ⟨hu, hf⟩]
  case calibrated =>
    intro s hu hrom hr
    show ∃ t, execSerdesCalibrationDone s = _ ∧ _
    rw [execSerdesCalibrationDone, if_pos (by simp [hu, hrom, hr])]
    exact ⟨_, rfl, (portsJudge_moves _).1 .pw (by decide)⟩
  case zeroed =>
    intro s hu ht hz
    show ∃ t, execDramZeroingDone s = _ ∧ _
    rw [execDramZeroingDone, if_pos (by simp [hu, ht, hz])]
    have hjudge (u : State) : moves [.out, .regs, .scope, .sx] u u.hamJudge :=
      moves_hamJudge (List.Subset.refl _) (moves_refl u)
    refine ⟨_, rfl, (hjudge _).1 .pw (by decide), ?_⟩
    rw [(hjudge _).1 .mx (by decide)]
  case ramped =>
    intro s hb hres hr htree hz hcal htarget hfold hrun
    show ∃ t, execStartRampDone s = _ ∧ _
    rw [execStartRampDone, if_pos (by simp [hb, hres, hr, htree, hz, hcal])]
    have hact : { s with pw.start.ramped := true }.act F.SV_MODE_CFG_TARGET = 1 := htarget
    dsimp only
    rw [if_pos (.inl hact)]
    have hpw := rampPartial_pw s
    have hrest := moveEnds_rests (s := s.rampPartial) (.inl (by rw [hpw]; exact hrun)) (.inl (by rw [hpw]; exact hfold))
    obtain ⟨hdone, -, hramp⟩ := moveDone_judged s.rampPartial
    have hzero : s.rampPartial.rg F.SV_MODE_RAMPING = 0 := rg_setRg_self _ _ _ (by decide)
    refine ⟨s.rampPartial.moveEnds, rfl, ?_⟩
    rw [hrest, hdone, hramp, hpw, hzero]
    exact ⟨rfl, rfl, rfl, rfl, rfl⟩

/-- Settles O36. -/
theorem railCommands : Obligations.RailCommands := by
  unfold Obligations.RailCommands
  refine ⟨?powerOn, ?trims, ?crystal, ?rail, ?late, ?lost, ?retry, ?release, ?brownOut, ?falls, ?again⟩
  case powerOn =>
    intro s hp
    show ∃ t, execVbatAonPowerOn s = _ ∧ _
    rw [execVbatAonPowerOn, if_pos hp]
    exact ⟨_, rfl, rfl, rfl, rg_setRg_self _ _ _ (by decide)⟩
  case trims =>
    intro s hp
    show ∃ t, execPwTrimsLoaded s = _ ∧ _
    rw [execPwTrimsLoaded, if_pos hp]
    refine ⟨_, rfl, rfl, rfl, rfl, rfl, ?_⟩
    exact (moves_upd_pw (ps := [.pw]) (by decide) (moves_startRails (ps := [.pw]) (List.Subset.refl _) (moves_refl s))).1
  case crystal =>
    intro s hp
    show ∃ t, execRtcCrystalStable s = _ ∧ _
    rw [execRtcCrystalStable, if_neg hp]
    exact ⟨_, rfl, rg_setRg_self _ _ _ (by decide), rfl⟩
  case rail =>
    intro n s hp hn h6
    show execRailPgRise n s = _
    rw [execRailPgRise, if_pos ⟨hp, hn, h6⟩]
  case late =>
    intro n s hp hn h6
    show ∃ t, execRailPgTimeout n s = _ ∧ _
    rw [execRailPgTimeout, if_pos ⟨hp, hn, h6⟩]
    obtain ⟨hpw, hrail, hkind, hatt⟩ := railMissed_shows s h6
    refine ⟨(s.railMissed n).faultFall n, rfl, rfl, rfl, rfl, ?_, hrail, hkind, ?_⟩
    · exact congrArg PwState.retries hpw
    · exact hatt.trans (congrArg PwState.retries hpw).symm
  case lost =>
    intro n s hp h6
    show ∃ t, execRailPgLost n s = _ ∧ _
    rw [execRailPgLost, if_pos ⟨hp, h6⟩]
    obtain ⟨hcause, hact, hnv, haon⟩ := railGone_keeps s n
    obtain ⟨hrail, hkind⟩ := railFault_shows { s.socReset 0 with pw.held := false } h6 (show 2 < 4 by decide)
    refine ⟨(s.railGone n).faultFall 5, rfl, rfl, rfl, rfl, hcause, hrail, hkind, fun he hc => ?_, ?_, hact⟩
    · exact hnv.trans (by rw [cut_of_quiet he hc])
    · show (s.railGone n).aon.kept = _
      rw [haon, (cut_keeps s).2]
  case retry =>
    intro s hp
    show ∃ t, execRailRetryTimer s = _ ∧ _
    rw [execRailRetryTimer, if_pos (.inl hp)]
    exact ⟨_, rfl, rfl, rfl, rfl, startRails_within s _ _⟩
  case release =>
    intro hostmode s hp h6 hn
    show ∃ t, execSocPowerOnRelease hostmode s = _ ∧ _
    rw [execSocPowerOnRelease, if_pos ⟨hp, h6⟩]
    refine ⟨_, rfl, ?_⟩
    obtain ⟨r, hr⟩ := releaseSoc_power (s := ({ s with
      pw.power := .up, pw.retries := 0, pw.rootPort := hostmode }.setRg F.PW_RAIL_STAT_ATTEMPTS 0)) hn
    rw [hr]
    exact ⟨rfl, rfl, rfl, rfl, rfl⟩
  case brownOut =>
    intro s hp
    show ∃ t, execVbatAonBrownout s = _ ∧ _
    rw [execVbatAonBrownout, if_neg hp]
    obtain ⟨hpow, hregs, hact, hnow, hnv⟩ := brownOut_keeps s
    exact ⟨_, rfl, hpow, hregs, hact, hnow, fun he hc => by rw [hnv, cut_of_quiet he hc]⟩
  case falls =>
    intro n s hp hn h0 h6
    show execRailPgLost n s = _
    rw [execRailPgLost, if_neg (by simp [hp]), if_pos ⟨hp, hn.symm, by omega⟩, dropRail, hn]
  case again =>
    intro s hp hf
    show ∃ t, execRailRetryTimer s = _ ∧ _
    rw [execRailRetryTimer, if_pos (.inr ⟨hp, hf⟩)]
    exact ⟨_, rfl, rfl, rfl, rfl, startRails_within s _ _⟩

/-- Settles O37. -/
theorem resetCommands : Obligations.ResetCommands := by
  unfold Obligations.ResetCommands
  refine ⟨?own, ?software, ?noKey, ?asserted, ?released, ?together, ?times⟩
  case own =>
    intro s hu hn hone
    show ∃ t u, execSvWatchdogExpiry s = _ ∧ execLockstepMismatch s = _ ∧ _
    rw [execSvWatchdogExpiry, execLockstepMismatch, if_pos hu, if_pos hu]
    have hp := power_of_socUp hu
    obtain ⟨hcause, hpow, hrom, haon, hact, hshd, hnv⟩ := resetSoc_shows 2 hp hn
    obtain ⟨lcause, lpow, lrom, laon, lact, lshd, lnv⟩ := resetSoc_shows 3 hp hn
    generalize s.resetSoc 2 = t at *
    generalize s.resetSoc 3 = u at *
    refine ⟨_, _, rfl, rfl, hcause.trans (resetCause_alone hone), lcause.trans (resetCause_alone hone), fun x hx => ?_⟩
    rcases List.mem_pair.mp hx with rfl | rfl
    · exact ⟨hpow, hrom, haon, hact, hshd, hnv⟩
    · exact ⟨lpow, lrom, laon, lact, lshd, lnv⟩
  case software =>
    intro a data s hr hp hn hkey hsoc hone
    show ∃ t, execSvResetSoc a data s = _ ∧ _
    rw [execSvResetSoc, byAgent_reaches _ _ _ hr, if_pos ⟨hkey, hsoc⟩]
    obtain ⟨hcause, -, hrom, haon, hact, -, hnv⟩ := resetSoc_shows 4 hp hn
    generalize s.resetSoc 4 = t at *
    exact ⟨_, rfl, hcause.trans (resetCause_alone hone), hrom, hnv, haon, hact⟩
  case noKey =>
    intro a data s hr hkey
    show execSvResetSoc a data s = _
    rw [execSvResetSoc, byAgent_reaches _ _ _ hr, if_neg (fun h => hkey h.1)]
    rfl
  case asserted =>
    intro s hp hone
    show ∃ t, execResetNAsserted s = _ ∧ _
    have hpin : s.pinned.pw.power = .up := hp
    rw [execResetNAsserted]
    change ∃ t, Host.Outcome.next (if s.pinned.pw.power = .up then
      { s.pinned.socReset (s.pinned.resetCause 1) with pw.held := true } else s.pinned) = _ ∧ _
    rw [if_pos hpin]
    obtain ⟨hnv, haon, hact, hcause, hkeep⟩ := pinned_keeps s
    generalize s.pinned.socReset (s.pinned.resetCause 1) = t at *
    refine ⟨_, rfl, rfl, hkeep, hcause.trans (resetCause_alone hone), fun he hc => ?_, haon, hact⟩
    exact hnv.trans (by rw [cut_of_quiet (s := s.pinned) he hc]; rfl)
  case released =>
    intro s hp hh
    show ∃ t, execResetNReleased s = _ ∧ _
    rw [execResetNReleased]
    dsimp only
    rw [if_pos ⟨hp, hh⟩]
    obtain ⟨r, hr⟩ := releaseSoc_power (s := { s with pw.resetN := false, pw.start.origin := s.now }) rfl
    refine ⟨_, rfl, ?_⟩
    rw [hr]
    exact ⟨rfl, rfl, rfl, rfl⟩
  case together =>
    intro s hu hn ht ho
    have hp := power_of_socUp hu
    have hpin : s.pinned.pw.power = .up := hp
    show ∃ t u v, execSvWatchdogExpiry s = _ ∧ execLockstepMismatch s = _ ∧ execResetNAsserted s = _ ∧ _
    rw [execSvWatchdogExpiry, execLockstepMismatch, if_pos hu, if_pos hu, execResetNAsserted]
    change ∃ t u v, _ ∧ _ ∧ Host.Outcome.next (if s.pinned.pw.power = .up then
      { s.pinned.socReset (s.pinned.resetCause 1) with pw.held := true } else s.pinned) = _ ∧ _
    rw [if_pos hpin]
    have hdog := (resetSoc_shows 2 hp hn).1
    have hstep := (resetSoc_shows 3 hp hn).1
    obtain ⟨-, -, -, hcause, -⟩ := pinned_keeps s
    refine ⟨_, _, _, rfl, rfl, rfl, ?_⟩
    exact ⟨hdog.trans (resetCause_meets ht ho), hstep.trans (resetCause_meets ht ho), hcause.trans (resetCause_meets ht ho)⟩
  case times =>
    intro s hu hn
    show ∃ t u, execSvWatchdogExpiry s = _ ∧ execLockstepMismatch s = _ ∧ _
    rw [execSvWatchdogExpiry, execLockstepMismatch, if_pos hu, if_pos hu]
    have hp := power_of_socUp hu
    refine ⟨_, _, rfl, rfl, fun x hx => ?_⟩
    rcases List.mem_pair.mp hx with rfl | rfl
    · exact resetSoc_startTimes 2 hp hn
    · exact resetSoc_startTimes 3 hp hn

end Sys2Proof.Machine
end

section
/-!
PROOFS. The host bridge: inbound requests, the PCIe link and its errors (R464 to R470).
-/

namespace Sys2Proof.Machine

theorem slice0_self {bs : List Byte} {n : Nat} (h : bs.length = n) : slice0 bs 0 n = bs := by
  rw [slice0, List.drop_zero, List.take_of_length_le h.le, h, Nat.sub_self]
  exact List.append_nil bs

namespace State

/-! ### What leaves the queues, and what is recorded -/

/-- The registers of the record of bridge errors. -/
def errRegs (off : Nat) : Prop := off = 0x9101010 ∨ (0x9101100 ≤ off ∧ off < 0x9101300)

theorem regsWithin_hbRecord (s : State) (w inbound init cause addr : Nat) :
    RegsWithin errRegs s (s.hbRecord w inbound init cause addr) := by
  have hk : s.rg F.MX_HB_ERR_HEAD_NEXT < 16 := rg_lt s F.MX_HB_ERR_HEAD_NEXT
  have hold {t : State} (off : Nat) (v : Word) (h1 : 0x9101100 ≤ off) (h2 : off < 0x9101300) (h : RegsWithin errRegs s t) :
      RegsWithin errRegs s (t.wr off v) :=
    h.wr v (.inr ⟨h1, h2⟩) (.inr (by omega))
  have head {t : State} (f : Fld) (v : Nat) (hf : f.off = 0x9101010) (h : RegsWithin errRegs s t) :
      RegsWithin errRegs s (t.setRg f v) :=
    h.setRg (.inl hf) (.inr (by omega))
  unfold hbRecord
  dsimp only [R.MX_HB_ERR_W0, R.MX_HB_ERR_W1, R.MX_HB_ERR_W2, R.MX_HB_ERR_W3, R.MX_HB_ERR_W4, R.MX_HB_ERR_W5]
  refine head F.MX_HB_ERR_HEAD_TOTAL _ rfl (head F.MX_HB_ERR_HEAD_NEXT _ rfl ?_)
  exact hold _ _ (by omega) (by omega) (hold _ _ (by omega) (by omega) (hold _ _ (by omega) (by omega)
    (hold _ _ (by omega) (by omega) (hold _ _ (by omega) (by omega) (hold _ _ (by omega) (by omega) (RegsWithin.refl s))))))

theorem hbRecord_moves (s : State) (w inbound init cause addr : Nat) : moves [.regs] s (s.hbRecord w inbound init cause addr) :=
  moves_hbRecord (List.Subset.refl _) (moves_refl s)

/-- A count behind a record (R468, R469). -/
theorem rg_hbRecord_bump (s : State) (w inbound init cause addr : Nat) {f : Fld} (hf : f.lo + f.wid ≤ 32)
    (h : f.off = 0x9101030 ∨ f.off = 0x9101038) :
    ((s.hbRecord w inbound init cause addr).bump f).rg f = min (s.rg f + 1) (2 ^ f.wid - 1) := by
  rw [rg_bump_self _ _ _ hf,
    (regsWithin_hbRecord s w inbound init cause addr).rg f (by unfold errRegs; omega) (.inr (by omega))]

theorem socUp_hbRecord_bump (s : State) (w inbound init cause addr : Nat) (f : Fld) :
    ((s.hbRecord w inbound init cause addr).bump f).socUp = s.socUp :=
  socUp_congr ((moves_bump (ps := [.regs]) (List.Subset.refl _) (hbRecord_moves s w inbound init cause addr)).1 .pw (by decide))

/-- An inbound request of no window is counted, raises 228, and a read of it is answered (R467). -/
theorem inboundUr_shows {s : State} (w : Nat) (write : Bool) (a : Nat) (hu : s.socUp = true) :
    (s.inboundUr w write a).mx = s.mx ∧ (s.inboundUr w write a).evSet 228 = true ∧
    (s.inboundUr w write a).rg F.MX_HB_INB_ERR_COUNT = min (s.rg F.MX_HB_INB_ERR_COUNT + 1) (2 ^ 32 - 1) ∧
    (write = false → .completion 1 [] ∈ (s.inboundUr w write a).out) := by
  have hmx : ((s.hbRecord w 1 8 7 a).bump F.MX_HB_INB_ERR_COUNT).mx = s.mx :=
    (moves_bump (ps := [.regs]) (List.Subset.refl _) (hbRecord_moves s w 1 8 7 a)).1 .mx (by decide)
  have hcount := rg_hbRecord_bump s w 1 8 7 a (f := F.MX_HB_INB_ERR_COUNT) (by decide) (.inr rfl)
  have hup := (socUp_hbRecord_bump s w 1 8 7 a F.MX_HB_INB_ERR_COUNT).trans hu
  unfold inboundUr
  generalize (s.hbRecord w 1 8 7 a).bump F.MX_HB_INB_ERR_COUNT = t at *
  have hshow : (t.raise 228).mx = s.mx ∧ (t.raise 228).evSet 228 = true ∧
      (t.raise 228).rg F.MX_HB_INB_ERR_COUNT = min (s.rg F.MX_HB_INB_ERR_COUNT + 1) (2 ^ 32 - 1) :=
    ⟨by rw [raise_mx, hmx], evSet_raise_self _ _ _ hup, by rw [rg_raise_other _ _ _ _ (by decide), hcount]⟩
  generalize t.raise 228 = u at hshow
  obtain ⟨h1, h2, h3⟩ := hshow
  cases write with
  | true => exact ⟨h1, h2, h3, fun h => absurd h (by decide)⟩
  | false => exact ⟨h1, h2, h3, fun _ => List.mem_cons_self⟩

theorem sendPosted_queued (s : State) (x : OutWrite) : (s.sendPosted x).mx.queued = s.mx.queued ∧
    (s.sendPosted x).mx.reads = s.mx.reads := by
  have h : (s.sendTlps x.window true x.addr x.bytes.length x.bytes).mx = s.mx :=
    (moves_sendTlps (ps := [.out]) (List.Subset.refl _) (moves_refl s)).1 .mx (by decide)
  unfold sendPosted
  dsimp only
  rw [h]
  exact ⟨rfl, rfl⟩

theorem sendsPosted_queued (l : List OutWrite) (s : State) : (s.forEach l sendPosted).mx.queued = s.mx.queued :=
  forEach_keeps (fun t => t.mx.queued) _ (fun t x => (sendPosted_queued t x).1) l s

theorem postedFail_moves (s : State) (w : Nat) (init : Option Agent) (addr cause : Nat) :
    moves [.out, .regs, .scope] s (s.postedFail w init addr cause) :=
  moves_postedFail (List.Subset.refl _) (moves_refl s)

/-- After a link change nothing waits to be sent (R470). -/
theorem failQueued_queued (s : State) (cause : Nat) : (s.failQueued cause).mx.queued = [] := by
  unfold failQueued
  dsimp only
  rw [forEach_keeps (fun t => t.mx.queued) _ (fun t x => by rw [(postedFail_moves t _ _ _ _).1 .mx (by decide)]),
    sendsPosted_queued]

theorem drainPosted_moves (s : State) : moves [.out, .mx] s s.drainPosted :=
  moves_drainPosted (List.Subset.refl _) (moves_refl s)

theorem drainPosted_queued {s : State} (h : s.rg F.MX_HB_STAT_LINK_UP = 1) : s.drainPosted.mx.queued = [] := by
  rw [drainPosted, if_pos h, sendsPosted_queued]

theorem orderDrain_queued (s : State) : s.orderDrain.mx.queued = s.mx.queued ∧ s.orderDrain.mx.reads = s.mx.reads := by
  have answer (x : OutAccess) (t : State) : (match x.result with
      | some (ok, bs) => t.emit (.outDone x.init ok bs)
      | none => t).mx = t.mx := by
    split <;> rfl
  unfold orderDrain
  dsimp only
  exact ⟨forEach_keeps (fun t => t.mx.queued) _ (fun t x => congrArg MxState.queued (answer x t)) _ _,
    forEach_keeps (fun t => t.mx.reads) _ (fun t x => congrArg MxState.reads (answer x t)) _ _⟩

theorem outEnd_queued (s : State) (acc : Nat) (ok : Bool) (bs : List Byte) :
    (s.outEnd acc ok bs).mx.queued = s.mx.queued ∧ (s.outEnd acc ok bs).mx.reads = s.mx.reads := by
  unfold outEnd
  exact orderDrain_queued _

theorem endReads_queued (s : State) : s.endReads.mx.queued = s.mx.queued ∧ s.endReads.mx.reads = [] := by
  have ends (t : State) (r : OutRead) :
      ((if r.flush then t.postedFail r.window (some r.init) r.addr 4 else t).outEnd r.acc false []).mx.queued = t.mx.queued ∧
      ((if r.flush then t.postedFail r.window (some r.init) r.addr 4 else t).outEnd r.acc false []).mx.reads = t.mx.reads := by
    obtain ⟨hq, hr⟩ := outEnd_queued (if r.flush then t.postedFail r.window (some r.init) r.addr 4 else t) r.acc false []
    rw [hq, hr]
    split
    · rw [(postedFail_moves t _ _ _ _).1 .mx (by decide)]
      exact ⟨rfl, rfl⟩
    · exact ⟨rfl, rfl⟩
  unfold endReads
  refine ⟨?_, ?_⟩
  · rw [forEach_keeps (fun t => t.mx.queued) _ (fun t r => (ends t r).1)]
  · rw [forEach_keeps (fun t => t.mx.reads) _ (fun t r => (ends t r).2)]

/-- A failed posted write is counted and raises 224 (R468). -/
theorem postedFail_shows {s : State} (w : Nat) (init : Option Agent) (addr cause : Nat) (hu : s.socUp = true) :
    (s.postedFail w init addr cause).evSet 224 = true ∧
    (s.postedFail w init addr cause).rg F.MX_HB_POSTED_FAIL_COUNT = min (s.rg F.MX_HB_POSTED_FAIL_COUNT + 1) (2 ^ 32 - 1) := by
  have hcount := rg_hbRecord_bump s w 0 (initCode init) cause addr (f := F.MX_HB_POSTED_FAIL_COUNT) (by decide) (.inl rfl)
  have hup := (socUp_hbRecord_bump s w 0 (initCode init) cause addr F.MX_HB_POSTED_FAIL_COUNT).trans hu
  unfold postedFail
  generalize (s.hbRecord w 0 (initCode init) cause addr).bump F.MX_HB_POSTED_FAIL_COUNT = t at *
  have hev : (t.raise 224 init).evSet 224 = true := evSet_raise_self _ _ _ hup
  have hraised : (t.raise 224 init).rg F.MX_HB_POSTED_FAIL_COUNT = min (s.rg F.MX_HB_POSTED_FAIL_COUNT + 1) (2 ^ 32 - 1) := by
    rw [rg_raise_other _ _ _ _ (by decide), hcount]
  dsimp only
  split
  · refine ⟨evSet_raise_mono _ _ _ _ ?_, ?_⟩
    · rw [evSet_setRg _ _ _ _ (by decide)]
      exact hev
    · rw [rg_raise_other _ _ _ _ (by decide), rg_setRg_other _ _ _ _ (by decide) (by decide) (by decide)]
      exact hraised
  · exact ⟨hev, hraised⟩

/-- An inbound request through a window of DRAM. -/
theorem exec_inbound {write ecc : Bool} {addr size w a : Nat} {data : List Byte} {s : State} (hu : s.socUp = true)
    (hd : s.rg F.SV_CFG_STATUS_DONE = 1) (hm : ¬ (s.pw.rootPort = true ∧ write = true ∧ addr = s.msiAddr))
    (hb : s.pw.rootPort = false → addr + size ≤ s.bar2Size) (hw : s.iwFind addr size = some w)
    (ha : a = s.iwDram w + (addr - s.iwBase w)) (hok : s.dramOk a size = true) :
    exec (.inboundRequest write addr size data ecc) s = .next (
      let t := s.arbBytes 3 size
      if write then t.dramWr a (slice0 data 0 size)
      else if ecc ∨ (t.badUnit a size).isSome then
        (t.dramUe ((t.badUnit a size).getD a)).emit (.completion 2 (t.dramRd a size))
      else t.emit (.completion 0 (t.dramRd a size))) := by
  have hbar : ¬ ((!s.pw.rootPort) = true ∧ s.bar2Size < addr + size) := by
    rintro ⟨hr, hlt⟩
    have := hb (by simpa using hr)
    omega
  show execInboundRequest write addr size data ecc s = _
  rw [execInboundRequest, if_neg (by simp [hu, hd]), if_neg hm, if_neg hbar, hw]
  dsimp only
  rw [← ha, if_neg (by simp [hok])]

/-- The link is up, at its generation and width (R470). -/
def linkComesUp (s : State) (gen width : Nat) : State :=
  ((s.setRg F.MX_HB_STAT_LINK_UP 1).setRg F.MX_HB_STAT_GEN (min gen (s.act F.MX_HB_CFG_MAX_GEN + 1))).setRg
    F.MX_HB_STAT_WIDTH width

theorem linkComesUp_shows (s : State) (gen width : Nat) : (s.linkComesUp gen width).rg F.MX_HB_STAT_LINK_UP = 1 ∧
    (s.linkComesUp gen width).rg F.MX_HB_STAT_GEN = min gen (s.act F.MX_HB_CFG_MAX_GEN + 1) % 8 ∧
    (s.linkComesUp gen width).pw = s.pw := by
  unfold linkComesUp
  refine ⟨?_, ?_, rfl⟩
  · rw [rg_setRg_other _ _ _ _ (by decide) (by decide) (by decide), rg_setRg_other _ _ _ _ (by decide) (by decide) (by decide),
      rg_setRg_self _ _ _ (by decide)]
    rfl
  · rw [rg_setRg_other _ _ _ _ (by decide) (by decide) (by decide), rg_setRg_self _ _ _ (by decide)]
    rfl

/-- The link is down (R470). -/
def linkGone (s : State) : State :=
  ((s.setRg F.MX_HB_STAT_LINK_UP 0).setRg F.MX_HB_STAT_GEN 0).setRg F.MX_HB_STAT_WIDTH 0

theorem linkGone_shows (s : State) : s.linkGone.rg F.MX_HB_STAT_LINK_UP = 0 ∧ s.linkGone.rg F.MX_HB_STAT_GEN = 0 ∧
    s.linkGone.rg F.MX_HB_STAT_WIDTH = 0 := by
  unfold linkGone
  refine ⟨?_, ?_, ?_⟩
  · rw [rg_setRg_other _ _ _ _ (by decide) (by decide) (by decide), rg_setRg_other _ _ _ _ (by decide) (by decide) (by decide),
      rg_setRg_self _ _ _ (by decide)]
    rfl
  · rw [rg_setRg_other _ _ _ _ (by decide) (by decide) (by decide), rg_setRg_self _ _ _ (by decide)]
    rfl
  · rw [rg_setRg_self _ _ _ (by decide)]
    rfl

theorem arbBytes_moves (s : State) (c n : Nat) : moves [.regs] s (s.arbBytes c n) :=
  moves_bump64 (List.Subset.refl _) (moves_refl s)

end State

open State

/-- Settles O54. -/
theorem inboundAndLink : Obligations.InboundAndLink := by
  unfold Obligations.InboundAndLink
  refine ⟨?write, ?read, ?unsupported, ?bad, ?message, ?reset, ?up, ?down, ?msi, ?msiLost, ?fences⟩
  case write =>
    intro addr size w a data ecc s hu hd hroot hw ha hok hlen
    have hm : ¬ (s.pw.rootPort = true ∧ true = true ∧ addr = s.msiAddr) := by
      rintro ⟨h, -, hmsi⟩
      rw [if_pos h] at hroot
      exact hroot hmsi
    refine ⟨_, exec_inbound hu hd hm (fun h => by simpa [h] using hroot) hw ha hok, ?_⟩
    dsimp only
    rw [if_pos rfl, slice0_self hlen]
    have hmx : (s.arbBytes 3 size).mx = s.mx := (arbBytes_moves s 3 size).1 .mx (by decide)
    have hout : (s.arbBytes 3 size).out = s.out := (arbBytes_moves s 3 size).1 .out (by decide)
    generalize s.arbBytes 3 size = t at hmx hout
    refine ⟨by rw [← hlen]; exact dramRd_dramWr_same t a data, fun y hy => ?_, ?_⟩
    · rw [dramRd_dramWr_apart (by omega)]
      exact dramRd_congr (by rw [hmx]) (by rw [hmx]) y 1
    · rw [(dramWr_moves t a data).1 .out (by decide), hout]
  case read =>
    intro addr size w a data s hu hd hroot hw ha hok hgood
    refine ⟨_, exec_inbound hu hd (by simp) hroot hw ha hok, ?_⟩
    dsimp only
    have hmx : (s.arbBytes 3 size).mx = s.mx := (arbBytes_moves s 3 size).1 .mx (by decide)
    have hout : (s.arbBytes 3 size).out = s.out := (arbBytes_moves s 3 size).1 .out (by decide)
    have hbad : (s.arbBytes 3 size).badUnit a size = none := by
      rw [← hgood, badUnit, badUnit, hmx]
    generalize s.arbBytes 3 size = t at hmx hout hbad
    have hread : t.dramRd a size = s.dramRd a size := dramRd_congr (by rw [hmx]) (by rw [hmx]) a size
    rw [if_neg (by decide), if_neg (by simp [hbad]), hread]
    exact ⟨by rw [← hout]; rfl, by rw [← hmx]; rfl⟩
  case unsupported =>
    intro write addr size data ecc s hu hd hm hw
    show ∃ t, execInboundRequest write addr size data ecc s = _ ∧ _
    rw [execInboundRequest, if_neg (by simp [hu, hd]), if_neg hm, hw, ite_self]
    obtain ⟨hmx, hev, hcount, hanswer⟩ := inboundUr_shows 0 write addr hu
    exact ⟨_, rfl, by rw [hmx], hev, hcount, hanswer⟩
  case bad =>
    intro addr size w a data ecc s hu hd hroot hw ha hok hbad
    refine ⟨_, exec_inbound hu hd (by simp) hroot hw ha hok, ?_⟩
    dsimp only
    have hmx : (s.arbBytes 3 size).mx = s.mx := (arbBytes_moves s 3 size).1 .mx (by decide)
    have hup : (s.arbBytes 3 size).socUp = true := (socUp_congr ((arbBytes_moves s 3 size).1 .pw (by decide))).trans hu
    have hunit : (s.arbBytes 3 size).badUnit a size = s.badUnit a size := by rw [badUnit, badUnit, hmx]
    generalize s.arbBytes 3 size = t at hmx hup hunit
    have hread : t.dramRd a size = s.dramRd a size := dramRd_congr (by rw [hmx]) (by rw [hmx]) a size
    rw [if_neg (by decide), hunit, if_pos hbad, hread]
    obtain ⟨hev, hdram, -⟩ := dramUe_shows ((s.badUnit a size).getD a) hup
    generalize t.dramUe ((s.badUnit a size).getD a) = u at hev hdram
    exact ⟨List.mem_cons_self, hdram.trans (by rw [hmx]), hev⟩
  case message =>
    intro addr fatal s hu hr
    show ∃ t, execPcieErrorMessage addr fatal s = _ ∧ _
    rw [execPcieErrorMessage, if_pos ⟨hu, hr⟩]
    dsimp only
    have hup : s.drainPosted.socUp = true := (socUp_congr ((drainPosted_moves s).1 .pw (by decide))).trans hu
    have hcount := rg_of_moves (drainPosted_moves s) (by decide) F.MX_HB_POSTED_FAIL_COUNT
    rw [← hcount]
    split
    · exact ⟨_, rfl, postedFail_shows _ _ _ _ hup⟩
    · exact ⟨_, rfl, postedFail_shows _ _ _ _ hup⟩
  case reset =>
    intro s hu hr
    show ∃ t, execPcieReset s = _ ∧ _
    rw [execPcieReset, if_pos (by simp [hu, hr])]
    obtain ⟨hq, hreads⟩ := endReads_queued (s.failQueued 3)
    exact ⟨_, rfl, hq.trans (failQueued_queued s 3), hreads⟩
  case up =>
    intro gen width s hu
    show ∃ t, execPcieLinkChange true gen width s = _ ∧ _
    rw [execPcieLinkChange, if_neg (by simp [hu]), if_pos rfl]
    obtain ⟨hlink, hgen, hpw⟩ := linkComesUp_shows s gen width
    have hact : s.act F.MX_HB_CFG_MAX_GEN < 4 := act_lt s F.MX_HB_CFG_MAX_GEN
    change ∃ t, Host.Outcome.next ((s.linkComesUp gen width).drainPosted.raise 226) = _ ∧ _
    generalize s.linkComesUp gen width = u at *
    have hup : u.drainPosted.socUp = true := (socUp_congr (((drainPosted_moves u).1 .pw (by decide)).trans hpw)).trans hu
    refine ⟨_, rfl, ?_, ?_, ?_, evSet_raise_self _ _ _ hup⟩
    · rw [rg_raise_other _ _ _ _ (by decide), rg_of_moves (drainPosted_moves u) (by decide), hlink]
    · rw [rg_raise_other _ _ _ _ (by decide), rg_of_moves (drainPosted_moves u) (by decide), hgen]
      exact Nat.mod_eq_of_lt (by omega)
    · rw [raise_mx, drainPosted_queued hlink]
  case down =>
    intro gen width s hu
    show ∃ t, execPcieLinkChange false gen width s = _ ∧ _
    rw [execPcieLinkChange, if_neg (by simp [hu]), if_neg (by decide)]
    dsimp only
    have hfail : (s.failQueued 2).pw = s.pw :=
      (moves_failQueued (ps := [.freeN, .out, .regs, .scope, .mx]) (List.Subset.refl _) (moves_refl s)).1 .pw (by decide)
    have hends : (s.failQueued 2).endReads.pw = (s.failQueued 2).pw :=
      (moves_endReads (ps := [.out, .regs, .scope, .mx]) (List.Subset.refl _) (moves_refl _)).1 .pw (by decide)
    have hq := failQueued_queued s 2
    obtain ⟨heq, her⟩ := endReads_queued (s.failQueued 2)
    have hended : (if s.pw.rootPort = true then s.failQueued 2 else (s.failQueued 2).endReads).mx.queued = [] ∧
        (s.pw.rootPort = false →
          (if s.pw.rootPort = true then s.failQueued 2 else (s.failQueued 2).endReads).mx.reads = []) ∧
        (if s.pw.rootPort = true then s.failQueued 2 else (s.failQueued 2).endReads).pw = s.pw := by
      split
      case isTrue hr => exact ⟨hq, fun h => absurd hr (by simp [h]), hfail⟩
      case isFalse hr => exact ⟨heq.trans hq, fun _ => her, hends.trans hfail⟩
    generalize (if s.pw.rootPort = true then s.failQueued 2 else (s.failQueued 2).endReads) = u at hended
    obtain ⟨hqueued, hreads, hpw⟩ := hended
    obtain ⟨hlink, hgen, hwidth⟩ := linkGone_shows u
    have hup : u.linkGone.socUp = true := (socUp_congr hpw).trans hu
    have hmx : u.linkGone.mx = u.mx := rfl
    change ∃ t, Host.Outcome.next (u.linkGone.raise 226) = _ ∧ _
    generalize u.linkGone = v at *
    refine ⟨_, rfl, ?_, ?_, ?_, ?_, evSet_raise_self _ _ _ hup, fun hr => ?_⟩
    · rw [rg_raise_other _ _ _ _ (by decide), hlink]
    · rw [rg_raise_other _ _ _ _ (by decide), hgen]
    · rw [rg_raise_other _ _ _ _ (by decide), hwidth]
    · rw [raise_mx, hmx, hqueued]
    · rw [raise_mx, hmx, hreads hr]
  case msi =>
    intro data s hu hr hlen
    show ∃ t, execRootMsiWrite data s = _ ∧ _
    rw [execRootMsiWrite, if_pos ⟨hu, hr⟩, State.msiTake, if_neg (by omega)]
    refine ⟨_, rfl, ?_, evSet_raise_self _ _ _ hu⟩
    rw [raise_mx]
  case msiLost =>
    intro data s hu hr hlen
    show execRootMsiWrite data s = _
    rw [execRootMsiWrite, if_pos ⟨hu, hr⟩, State.msiTake, if_pos hlen]
  case fences =>
    intro a data s hr
    show ∃ t, execFenceClr a data s = _ ∧ _
    rw [execFenceClr, byAgent_reaches _ _ _ hr]
    have hlt : maskDiff (s.rg F.MX_HB_STAT_FENCED) (F.MX_HB_FENCE_CLR_WINDOWS.get data) < 2 ^ 16 :=
      Nat.xor_lt_two_pow (rg_lt s F.MX_HB_STAT_FENCED) (lt_of_le_of_lt Nat.and_le_left (rg_lt s F.MX_HB_STAT_FENCED))
    refine ⟨_, rfl, ?_, rg_setRg_other _ _ _ _ (by decide) (by decide) (by decide)⟩
    exact (rg_setRg_self s F.MX_HB_STAT_FENCED _ (by decide)).trans (Nat.mod_eq_of_lt hlt)

end Sys2Proof.Machine
end

section
/-!
PROOFS. Gate lists and stream gates (R242, R243, R248 to R256).
-/

namespace Sys2Proof.Machine

namespace State

/-! ### What the end of a drain leaves of the gate lists -/

/-- The gate lists of every port: those in force and those that wait (R251). -/
def gateLists (s : State) : Sparse (Option GateList) × Sparse (Option (GateList × Nat)) := (s.fx.gcl, s.fx.gclNext)

theorem gateLists_of_fx {s t : State} (h : t.fx = s.fx) : t.gateLists = s.gateLists := by
  rw [gateLists, gateLists, h]

theorem gateLists_forget (s : State) (n : Nat) : (s.forget n).gateLists = s.gateLists := by
  unfold forget
  split
  · dsimp only
    split <;> rfl
  · rfl

theorem gateLists_copyOver (s : State) (set : Nat) : (s.copyOver set).gateLists = s.gateLists := by
  have shadows : (s.forEach (maskList set 18) (fun t d => t.setShadow d (t.activeOf d))).gateLists = s.gateLists :=
    forEach_keeps gateLists (fun t d => t.setShadow d (t.activeOf d)) (fun _ _ => rfl) _ s
  unfold copyOver
  dsimp only
  split
  · refine (forEach_keeps gateLists (fun u p => u.setCurrent 1 p (u.pgCurrent 0 p)) (fun _ _ => rfl) _ _).trans ?_
    refine (forEach_keeps gateLists (fun t (e : Nat × FdbEntry) => t.setFdb e.1 (if e.2.inActive then
      some { e.2 with inOther := true } else none)) (fun _ _ => rfl) _ _).trans shadows
  · exact shadows

theorem gateLists_recopyDue (s : State) : s.recopyDue.gateLists = s.gateLists := by
  unfold recopyDue
  split
  · exact gateLists_copyOver s _
  · rfl

theorem judgeRsv_fx (s : State) : s.judgeRsv.fx = s.fx := by
  unfold judgeRsv
  (repeat' split) <;> first | rfl | exact raise_fx _ _ _

theorem gateLists_drainUnless (s : State) (was : Bool) : (s.drainUnless was).gateLists = s.gateLists := by
  have judged (u : State) : (if u.drained = true ∧ u.swapped.testBit 2 = true then u.judgeRsv else u).gateLists =
      u.gateLists := by
    split
    · exact gateLists_of_fx (judgeRsv_fx u)
    · rfl
  unfold drainUnless drainDone noteDrain
  dsimp only
  split
  · rfl
  · split
    · rw [staticsDrained, forEach_keeps gateLists (fun t (e : Nat × FdbEntry) => t.forget e.1) (fun t e => gateLists_forget t e.1), judged, gateLists_recopyDue]
    · rw [judged, gateLists_recopyDue]

theorem gclOf_congr {s t : State} (h : t.gateLists = s.gateLists) (p : Nat) : t.gclOf p = s.gclOf p :=
  congrArg (fun x : Sparse (Option GateList) × Sparse (Option (GateList × Nat)) => Sparse.get (fun _ => none) x.1 p) h

theorem gclWaiting_congr {s t : State} (h : t.gateLists = s.gateLists) (p : Nat) : t.gclWaiting p = s.gclWaiting p :=
  congrArg (fun x : Sparse (Option GateList) × Sparse (Option (GateList × Nat)) => Sparse.get (fun _ => none) x.2 p) h

/-! ### Gates -/

section
variable {W : Nat → Prop} {s0 s : State}

theorem regsWithin_pmu {ev unit n : Nat} (hW : ∀ off, upperRegs off → W off) (h : RegsWithin W s0 s) :
    RegsWithin W s0 (s.pmu ev unit n) := by
  refine h.forEach (fun t k ht => ?_) _
  have counted (v : Nat) : RegsWithin W s0 (t.wr64 (R.OB_PMU_CNT k) v) :=
    ht.wr64 (hW _ (by unfold R.OB_PMU_CNT; omega)) (hW _ (by unfold R.OB_PMU_CNT; omega))
      (.inr (by unfold R.OB_PMU_CNT; omega))
  unfold pmuAdd
  dsimp only
  exact RegsWithin.ite (RegsWithin.raise (by decide)
    ((counted _).setRg (hW _ (by dsimp only; omega)) (.inr (by dsimp only; omega)))) (counted _)

/-- The late test of a head writes the late counter of its port, the port of the event and what a drop writes (R253). -/
theorem regsWithin_judgeHead {q : Nat} (hW : ∀ off, upperRegs off → W off) (hl : W (F.SC_LATE_DROP_COUNT (q / 8)).off)
    (he : W F.SC_EV_LAST_PORT.off) (h : RegsWithin W s0 s) : RegsWithin W s0 (s.judgeHead q) := by
  have queue {t : State} (x : Queue) (ht : RegsWithin W s0 t) : RegsWithin W s0 (t.setQueue q x) := ht.of_regs rfl rfl
  have die {t : State} (ht : RegsWithin W s0 t) : RegsWithin W s0 (t.toDie q) := by
    unfold toDie
    dsimp only
    exact RegsWithin.ite (queue _ ht) ht
  unfold judgeHead
  dsimp only
  split
  · exact h
  · split
    · refine die (regsWithin_dropCopy hW (RegsWithin.raise (by decide) (RegsWithin.setRg he (.inr (by decide)) ?_)))
      exact regsWithin_pmu hW ((queue _ h).bump hl (.inr (by dsimp only; omega)))
    · exact queue _ h

end

/-- Every register but the gate status of a port. -/
def besideGates (p off : Nat) : Prop := off ≠ (F.SC_GCL_STAT_GATES p).off

theorem shutTurns_moves (s : State) (p gates : Nat) : moves [.sx] s (s.shutTurns p gates) :=
  moves_shutTurns (List.Subset.refl _) (moves_refl s)

/-- Behind the new states of the gates only heads are tested anew. -/
theorem regsWithin_showGates (s : State) {p : Nat} (gates : Nat) (hp : p < 41) :
    RegsWithin (besideGates p) (s.setRg (F.SC_GCL_STAT_GATES p) gates) (s.showGates p gates) := by
  unfold showGates
  dsimp only
  refine List.foldlRecOn (motive := RegsWithin (besideGates p) _) _ _
    ((RegsWithin.refl _).of_moves (shutTurns_moves _ _ _) (by decide)) fun t ht tc htc => regsWithin_judgeHead ?_ ?_ ?_ ht
  · intro off ho
    unfold besideGates
    dsimp only [upperRegs] at *
    omega
  · have htc8 : tc < 8 := List.mem_range.mp (List.mem_of_mem_filter htc)
    unfold besideGates
    dsimp only
    omega
  · unfold besideGates
    dsimp only
    omega

/-- A port's gates show the entry, its states and nothing else of its status (R248). -/
theorem showGate_shows {s : State} {p e : Nat} {gl : GateList} (hp : p < 41) (hl : s.gclOf p = some gl) :
    (s.showGate p e).rg (F.SC_GCL_STAT_ENTRY p) = e % 2 ^ 8 ∧
    (s.showGate p e).rg (F.SC_GCL_STAT_GATES p) = (gl.entries.getD e (0xFF, 1)).1 % 2 ^ 8 ∧
    (s.showGate p e).rg (F.SC_GCL_STAT_RUNNING p) = s.rg (F.SC_GCL_STAT_RUNNING p) ∧
    (s.showGate p e).rg (F.SC_GCL_STAT_PENDING p) = s.rg (F.SC_GCL_STAT_PENDING p) ∧
    (s.showGate p e).gateLists = s.gateLists ∧ (s.showGate p e).pw = s.pw := by
  have hm : moves [.out, .regs, .scope, .sx, .ob, .cx, .mx] s (s.showGate p e) :=
    moves_showGate (List.Subset.refl _) (moves_refl s)
  refine ⟨?_, ?_, ?_, ?_, gateLists_of_fx (hm.1 .fx (by decide)), hm.1 .pw (by decide)⟩ <;> clear hm
  all_goals
    rw [showGate, hl]
    dsimp only
    rw [rg_eq, (regsWithin_showGates (s.setRg (F.SC_GCL_STAT_ENTRY p) e) _ hp).rd _ (fun h => h rfl) (.inr (by dsimp only; omega)),
      ← rg_eq]
  · rw [rg_setRg_other _ _ _ _ (by simp) (by simp) (by simp), rg_setRg_self _ _ _ (by simp)]
  · rw [rg_setRg_self _ _ _ (by simp)]
  · rw [rg_setRg_other _ _ _ _ (by simp) (by simp) (by simp), rg_setRg_other _ _ _ _ (by simp) (by simp) (by simp)]
  · rw [rg_setRg_other _ _ _ _ (by simp) (by simp) (by simp), rg_setRg_other _ _ _ _ (by simp) (by simp) (by simp)]

theorem gateJump_eq {s : State} {p e : Nat} {gl : GateList} (hl : s.gclOf p = some gl)
    (he : listEntry gl.base gl.cycle (gl.entries.map (·.2)) (s.tiNs gl.ti) = some e) : s.gateJump p = s.showGate p e := by
  rw [gateJump, hl]
  dsimp only
  rw [he]

theorem rg_drainUnless_gates (s : State) (was : Bool) {f : Fld} (h : 0x2470000 ≤ f.off) : (s.drainUnless was).rg f = s.rg f :=
  (regsWithin_drainUnless (W := fun off => off < 0x2470000) (by decide) (RegsWithin.refl s)).rg f (by omega) (.inr (by omega))

/-- A waiting list is the one in force (R251). -/
def listStarted (s : State) (p : Nat) (gl : GateList) : State :=
  ((s.setWaiting p none).setGcl p (some gl)).setRg (F.SC_GCL_STAT_RUNNING p) 1

theorem listStarted_shows (s : State) (p : Nat) (gl : GateList) : (s.listStarted p gl).gclOf p = some gl ∧
    (s.listStarted p gl).gclWaiting p = none ∧ (s.listStarted p gl).rg (F.SC_GCL_STAT_RUNNING p) = 1 ∧
    (s.listStarted p gl).rg (F.SC_GCL_STAT_PENDING p) = 0 ∧ (∀ i, (s.listStarted p gl).tiNs i = s.tiNs i) ∧
    (s.listStarted p gl).pw = s.pw := by
  have waiting : (s.setWaiting p none).rg (F.SC_GCL_STAT_PENDING p) = 0 := rg_setRg_self _ _ _ (by simp)
  have inForce : (s.listStarted p gl).gclOf p = some gl :=
    Sparse.get_set_same (fun _ => none) (s.setWaiting p none).fx.gcl p (some gl)
  have noneWaits : (s.listStarted p gl).gclWaiting p = none := Sparse.get_set_same (fun _ => none) s.fx.gclNext p none
  refine ⟨inForce, noneWaits, ?_, ?_, fun i => rfl, rfl⟩
  · exact rg_setRg_self _ _ _ (by simp)
  · exact (rg_setRg_other _ _ _ _ (by simp) (by simp) (by simp)).trans waiting

/-- An event of the scheduler touches no port's gate status (R259). -/
theorem scEvent_shows (s : State) {ev p : Nat} (hev : ev < 256) (hu : s.socUp = true) :
    (s.scEvent ev p).evSet ev = true ∧ (s.scEvent ev p).fx = s.fx ∧
    ∀ f : Fld, 0x2470000 ≤ f.off → f.off < 0x2471000 → (s.scEvent ev p).rg f = s.rg f := by
  refine ⟨evSet_raise_self _ _ _ hu, by rw [scEvent, raise_fx]; rfl, fun f h1 h2 => ?_⟩
  rw [scEvent, rg_raise_other _ _ _ _ (by omega), rg_eq, rd_setRg_other _ _ _ _ (by dsimp only; omega), ← rg_eq]

/-! ### Stream gates -/

/-- A stream gate's status shows its entry and its state, and no other register changes (R242). -/
theorem sgateShow_shows (s : State) (g : Nat) :
    (s.sgateShow g).rg (F.FX_SGATE_STAT_ENTRY g) =
      (s.gateAt (s.epoch % 256) g (s.tiNs (s.act (F.FX_SGATE_W2_TI_SEL g)))).1 % 16 ∧
    (s.sgateShow g).rg (F.FX_SGATE_STAT_OPEN g) =
      (if (s.gateAt (s.epoch % 256) g (s.tiNs (s.act (F.FX_SGATE_W2_TI_SEL g)))).2.1 = true ∧
        s.rg (F.FX_SGATE_STAT_INVALID_CLOSED g) = 0 then 1 else 0) ∧
    (s.sgateShow g).rg (F.FX_SGATE_STAT_INVALID_CLOSED g) = s.rg (F.FX_SGATE_STAT_INVALID_CLOSED g) ∧
    ∀ off, off ≠ R.FX_SGATE_STAT g → (s.sgateShow g).rd off = s.rd off := by
  unfold sgateShow
  generalize s.gateAt (s.epoch % 256) g (s.tiNs (s.act (F.FX_SGATE_W2_TI_SEL g))) = x
  obtain ⟨e, opn, ipv⟩ := x
  dsimp only
  refine ⟨?_, ?_, ?_, fun off ho => ?_⟩
  · rw [rg_setRg_other _ _ _ _ (by simp) (by simp) (by simp), rg_setRg_self _ _ _ (by simp)]
    rfl
  · rw [rg_setRg_self _ _ _ (by simp)]
    cases opn <;> simp
  · rw [rg_setRg_other _ _ _ _ (by simp) (by simp) (by simp), rg_setRg_other _ _ _ _ (by simp) (by simp) (by simp)]
  · rw [rd_setRg_other _ _ _ _ ho, rd_setRg_other _ _ _ _ ho]

end State

open State

/-- Settles O24. -/
theorem gateCommands : Obligations.GateCommands := by
  unfold Obligations.GateCommands
  refine ⟨?entry, ?start, ?stream, ?clearFilter, ?clearGate⟩
  case entry =>
    intro port e gl s hp hl he
    show ∃ t, execGclEntryChange port s = _ ∧ _
    rw [execGclEntryChange, decide_eq_true hp, only_true, gateJump_eq hl he]
    obtain ⟨hentry, hgates, -, -, hlists, -⟩ := showGate_shows (e := e) hp hl
    refine ⟨_, rfl, ?_, ?_, ?_⟩
    · rw [rg_drainUnless_gates _ _ (by dsimp only; omega)]
      exact hentry
    · rw [rg_drainUnless_gates _ _ (by dsimp only; omega)]
      exact hgates
    · rw [gclOf_congr ((gateLists_drainUnless _ _).trans hlists), hl]
  case start =>
    intro port b e gl s hp hu hw hb he
    show ∃ t, execGclStart port s = _ ∧ _
    rw [execGclStart, decide_eq_true hp, only_true, hw]
    dsimp only
    rw [if_pos hb]
    obtain ⟨hin, hnone, hrun, hpend, hti, hpw⟩ := listStarted_shows s port gl
    change ∃ t, Host.Outcome.next ((((s.listStarted port gl).gateJump port).drainUnless s.drained).scEvent 80 port) = _ ∧ _
    rw [gateJump_eq hin (by rw [hti]; exact he)]
    obtain ⟨hentry, -, hrunning, hpending, hlists, hup⟩ := showGate_shows (e := e) hp hin
    generalize (s.listStarted port gl).showGate port e = u at *
    have hall := (gateLists_drainUnless u s.drained).trans hlists
    have hdrain : moves [.out, .regs, .scope, .shadow, .sv, .fx] u (u.drainUnless s.drained) :=
      moves_drainUnless (by decide) (moves_refl u)
    have hsoc : (u.drainUnless s.drained).socUp = true :=
      (socUp_congr ((hdrain.1 .pw (by decide)).trans (hup.trans hpw))).trans hu
    obtain ⟨hev, hfx, hregs⟩ := scEvent_shows (u.drainUnless s.drained) (p := port) (show 80 < 256 by decide) hsoc
    have read (f : Fld) (h1 : f.off = (F.SC_GCL_STAT_GATES port).off) :
        ((u.drainUnless s.drained).scEvent 80 port).rg f = u.rg f :=
      (hregs f (by rw [h1]; dsimp only; omega) (by rw [h1]; dsimp only; omega)).trans
        (rg_drainUnless_gates _ _ (by rw [h1]; dsimp only; omega))
    refine ⟨_, rfl, ?_, ?_, ?_, ?_, ?_, hev⟩
    · rw [gclOf_congr ((gateLists_of_fx hfx).trans hall), hin]
    · rw [gclWaiting_congr ((gateLists_of_fx hfx).trans hall), hnone]
    · rw [read (F.SC_GCL_STAT_RUNNING port) rfl, hrunning, hrun]
    · rw [read (F.SC_GCL_STAT_PENDING port) rfl, hpending, hpend]
    · rw [read (F.SC_GCL_STAT_ENTRY port) rfl, hentry]
  case stream =>
    intro g s hg
    show ∃ t, execSgateEntryChange g s = _ ∧ _
    rw [execSgateEntryChange, decide_eq_true hg, only_true]
    obtain ⟨hentry, hopen, -, hother⟩ := sgateShow_shows s g
    exact ⟨_, rfl, hentry, hopen, hother⟩
  case clearFilter =>
    intro a i s hr hi
    show ∃ t, execPsfpClearFilter a i s = _ ∧ _
    rw [execPsfpClearFilter, decide_eq_true hi, only_true, byAgent_reaches _ _ _ hr]
    refine ⟨_, rfl, ?_, ?_, fun off ho => ?_⟩
    · exact (rg_setRg_other _ _ _ _ (by simp) (by simp) (by simp)).trans (rg_setRg_self _ _ _ (by simp))
    · exact rg_setRg_self _ _ _ (by simp)
    · exact (rd_setRg_other _ _ _ _ ho).trans (rd_setRg_other _ _ _ _ ho)
  case clearGate =>
    intro a g s hr hg
    show ∃ t, execPsfpClearGate a g s = _ ∧ _
    rw [execPsfpClearGate, decide_eq_true hg, only_true, byAgent_reaches _ _ _ hr]
    obtain ⟨-, -, hclosed, hother⟩ := sgateShow_shows (s.setRg (F.FX_SGATE_STAT_INVALID_CLOSED g) 0) g
    refine ⟨_, rfl, ?_, fun off ho => ?_⟩
    · exact hclosed.trans (rg_setRg_self _ _ _ (by simp))
    · exact (hother off ho).trans (rd_setRg_other _ _ _ _ ho)

end Sys2Proof.Machine
end

section
/-!
PROOFS. The update session and the Bersan sessions (R64, R361, R476 to R481).
-/

namespace Sys2Proof.Machine

namespace State

/-! ### The outcome of a command -/

/-- The word that a command's outcome is (R478). -/
def updWord (index code : Nat) : Word := Word.ofNat (code * 2 + index % 256 * 256)

theorem updResult_moves (s : State) (a : Agent) (index code : Nat) :
    moves [.out, .regs, .scope] s (s.updResult a index code) :=
  moves_updResult (List.Subset.refl _) (moves_refl s)

theorem updLedger_moves (s : State) (c : List Byte) (ev code : Nat) :
    moves [.out, .regs, .scope, .ob] s (s.updLedger c ev code) :=
  moves_updLedger (List.Subset.refl _) (moves_refl s)

/-- A record of the update engine writes of the registers the ledger's counter alone. -/
theorem regsWithin_updLedger (s : State) (c : List Byte) (ev code : Nat) :
    RegsWithin (· = F.SV_LEDGER_LOST_COUNT.off) s (s.updLedger c ev code) :=
  regsWithin_ledgerAdd rfl (RegsWithin.refl s)

/-- The reply to a Bersan session, which its outcome is (R490). -/
def replied (s : State) (a : Agent) (w : Word) : State :=
  match a with
  | .bersan n => s.emit (.bersanReply n.val w.toNat)
  | _ => s

theorem updResult_eq (s : State) (a : Agent) (index code : Nat) : s.updResult a index code =
    ((if a.ownerCode ≤ 12 then s.wr (R.SV_UPD_RESULT a.ownerCode) (updWord index code) else s).replied a
      (updWord index code)).raise (if code = 0 then 19 else 20) (some a) := rfl

theorem replied_moves (s : State) (a : Agent) (w : Word) : moves [.out] s (s.replied a w) := by
  unfold replied
  split
  · exact moves_emit (List.Subset.refl _) (moves_refl s)
  · exact moves_refl s

/-- An outcome is written to the mailbox of its agent and nowhere else. -/
theorem rd_updResult (s : State) (a : Agent) (index code : Nat) {off : Nat} (he : off < 0x2000 ∨ 0x2020 ≤ off) :
    (s.updResult a index code).rd off =
      if a.ownerCode ≤ 12 ∧ off = R.SV_UPD_RESULT a.ownerCode then updWord index code else s.rd off := by
  have hraise : off ≠ 0x2000 + 4 * ((if code = 0 then 19 else 20) / 32) := by
    split <;> omega
  rw [updResult_eq, rd_raise_other _ _ _ _ hraise, rd_congr ((replied_moves _ _ _).1 .regs (by decide))]
  by_cases hk : a.ownerCode ≤ 12
  · rw [if_pos hk]
    by_cases ho : off = R.SV_UPD_RESULT a.ownerCode
    · rw [if_pos ⟨hk, ho⟩, ho, rd_wr_self]
    · rw [if_neg (fun h => ho h.2), rd_wr_other _ _ _ _ ho]
  · rw [if_neg hk, if_neg (fun h => hk h.1)]

theorem ownerCode_lt (a : Agent) : a.ownerCode < 15 := by
  cases a <;> simp only [Agent.ownerCode] <;> omega

theorem rd_updResult_self (s : State) {a : Agent} (index code : Nat) (hk : a.ownerCode ≤ 12) :
    (s.updResult a index code).rd (R.SV_UPD_RESULT a.ownerCode) = updWord index code := by
  rw [rd_updResult _ _ _ _ (.inl (by unfold R.SV_UPD_RESULT; omega)), if_pos ⟨hk, rfl⟩]

/-- The code that the mailbox shows. -/
theorem code_of_updWord {s : State} {a : Agent} {code : Nat} (hc : code < 32)
    (h : s.rd (R.SV_UPD_RESULT a.ownerCode) = updWord 0 code) : s.rg (F.SV_UPD_RESULT_CODE a.ownerCode) = code := by
  rw [rg_eq]
  change (F.SV_UPD_RESULT_CODE a.ownerCode).get (s.rd (R.SV_UPD_RESULT a.ownerCode)) = code
  rw [h, Fld.get_eq, updWord]
  simp only [Word.ofNat, BitVec.toNat_ofNat]
  omega

theorem reply_updResult (s : State) (n : Fin 4) (index code : Nat) (hc : code < 32) :
    .bersanReply n.val (code * 2 + index % 256 * 256) ∈ (s.updResult (.bersan n) index code).out := by
  have hword : (updWord index code).toNat = code * 2 + index % 256 * 256 := by
    rw [updWord]
    simp only [Word.ofNat, BitVec.toNat_ofNat]
    omega
  rw [updResult_eq]
  generalize (if (Agent.bersan n).ownerCode ≤ 12 then s.wr (R.SV_UPD_RESULT (Agent.bersan n).ownerCode)
    (updWord index code) else s) = u
  obtain ⟨l, hl⟩ := (raise_moves (u.replied (.bersan n) (updWord index code)) (if code = 0 then 19 else 20)
    (some (.bersan n))).2.out
  rw [hl, ← hword]
  exact List.mem_append_right _ List.mem_cons_self

/-- A refusal: its code, and the session as it was. -/
theorem updRefuse_shows (s : State) (a : Agent) (c : List Byte) (index code : Nat) :
    (s.updRefuse a c index code).upd = s.upd ∧ (s.updRefuse a c index code).sv = s.sv ∧
    (a.ownerCode ≤ 12 → (s.updRefuse a c index code).rd (R.SV_UPD_RESULT a.ownerCode) = updWord index code) := by
  have hm : moves [.out, .regs, .scope, .ob] s (s.updRefuse a c index code) :=
    moves_updRefuse (List.Subset.refl _) (moves_refl s)
  refine ⟨hm.1 .upd (by decide), hm.1 .sv (by decide), fun hk => ?_⟩
  unfold updRefuse
  dsimp only
  split
  · rw [(regsWithin_updLedger _ _ _ _).rd _ (by dsimp only [R.SV_UPD_RESULT]; omega)
      (.inl (by unfold R.SV_UPD_RESULT; omega))]
    exact rd_updResult_self s index code hk
  · exact rd_updResult_self s index code hk

/-! ### A command of the session's owner -/

/-- The command of the owner has come: its mailbox's mirror, and the time of the last command (R480). -/
def commanded (s : State) (a : Agent) (addr : Option Nat) : State := (s.updMirror a addr).updTouch a

theorem commanded_upd {s : State} {a : Agent} {addr : Option Nat} (ho : s.upd.owner = some a) :
    (s.commanded a addr).upd = { s.upd with lastCmd := s.now } := by
  have hm : moves [.regs] s (s.updMirror a addr) := moves_updMirror (List.Subset.refl _) (moves_refl s)
  have hupd : (s.updMirror a addr).upd = s.upd := hm.1 .upd (by decide)
  have hnow : (s.updMirror a addr).now = s.now := hm.1 .now (by decide)
  rw [commanded, updTouch, if_pos (by rw [hupd, ho])]
  dsimp only
  rw [hupd, hnow]

theorem commanded_moves (s : State) (a : Agent) (addr : Option Nat) : moves [.regs, .upd] s (s.commanded a addr) := by
  have hm : moves [.regs, .upd] s (s.updMirror a addr) := moves_updMirror (by decide) (moves_refl s)
  unfold commanded updTouch
  split
  · exact moves_upd_upd (by decide) hm
  · exact hm

/-- A mirror takes the address registers of a Bersan mailbox alone. -/
theorem regsWithin_commanded (s : State) (a : Agent) (addr : Option Nat) :
    RegsWithin (fun off => 0xc44 ≤ off ∧ off < 0xe10) s (s.commanded a addr) := by
  have mirror : RegsWithin (fun off => 0xc44 ≤ off ∧ off < 0xe10) s (s.updMirror a addr) := by
    unfold updMirror
    split
    · next n v =>
      have hk : (Agent.bersan n).ownerCode < 15 := ownerCode_lt _
      generalize (Agent.bersan n).ownerCode = k at hk ⊢
      have mirrorRegs (f : Fld) (v : Nat) {t : State} (h1 : 0xc44 ≤ f.off) (h2 : f.off < 0xe10)
          (h : RegsWithin (fun off => 0xc44 ≤ off ∧ off < 0xe10) s t) :
          RegsWithin (fun off => 0xc44 ≤ off ∧ off < 0xe10) s (t.setRg f v) :=
        h.setRg ⟨h1, h2⟩ (.inl (by omega))
      refine mirrorRegs _ _ ?_ ?_ (mirrorRegs _ _ ?_ ?_ (RegsWithin.refl s)) <;> dsimp only <;> omega
    · exact RegsWithin.refl s
  unfold commanded updTouch
  split
  · exact mirror.of_regs rfl rfl
  · exact mirror

theorem updOwned_commanded {s : State} {a : Agent} {addr : Option Nat} (ho : s.upd.owner = some a) :
    (s.commanded a addr).updOwned a = none := by
  rw [updOwned, commanded_upd ho]
  dsimp only
  rw [ho]
  exact if_pos rfl

/-- The address of a command is that of its mailbox, or the one that a session gives. -/
theorem updAddr_commanded (s : State) (a : Agent) (addr : Nat) (x : Option Nat) :
    (s.commanded a x).updAddr a addr = s.updAddr a addr := by
  have regs (h : s.updMirror a x = s) : (s.commanded a x).regs = s.regs := by
    rw [commanded, h, updTouch]
    split <;> rfl
  cases a with
  | bersan n => rfl
  | core _ => simp only [updAddr, rg_congr (regs rfl)]
  | sv => simp only [updAddr, rg_congr (regs rfl)]
  | pcie => simp only [updAddr, rg_congr (regs rfl)]
  | debug => simp only [updAddr, rg_congr (regs rfl)]

theorem headerAccepted_commanded (s : State) (a : Agent) (addr : Option Nat) :
    (s.commanded a addr).headerAccepted = s.headerAccepted := by
  rw [headerAccepted, headerAccepted, (regsWithin_commanded s a addr).rg _ (by decide) (.inl (by decide))]

theorem dramOk_congr {s t : State} (h : t.sx = s.sx) (a n : Nat) : t.dramOk a n = s.dramOk a n := by
  rw [dramOk, dramOk, dramTop, dramTop, h]

theorem headerCheck_congr {s t : State} (hs : t.sx = s.sx) (hn : t.nv = s.nv) (a : Nat) (c : List Byte) :
    t.headerCheck a c = s.headerCheck a c := by
  rw [headerCheck, headerCheck, dramOk_congr hs, dramOk_congr hs, keyHashOk, keyHashOk, rollback, rollback, hn]

theorem nodeUsable_commanded (s : State) (a : Agent) (addr : Option Nat) (n bit : Nat) :
    (s.commanded a addr).nodeUsable n bit = s.nodeUsable n bit := by
  have keys (f : Fld) (h : 0x6000000 ≤ f.off) : (s.commanded a addr).rg f = s.rg f :=
    (regsWithin_commanded s a addr).rg f (by omega) (.inr (by omega))
  have hact : (s.commanded a addr).kxRf = s.kxRf := by
    rw [kxRf, kxRf, activeOf, activeOf, (commanded_moves s a addr).1 .active (by decide)]
  rw [nodeUsable, nodeUsable, nodeState, nodeState, treeLocked, treeLocked, keysDown, keysDown, hact,
    keys F.KX_STAT_LOCKED (by decide), keys F.KX_STAT_KEYS_DOWN (by decide),
    keys (F.KX_NODE_STAT_W0_STATE n) (by dsimp only; omega)]

/-- A command of an agent that has none in progress. -/
theorem updCommand_eq {s : State} {a : Agent} {index : Nat} {check : State → Option Nat} {accept : State → State}
    {first : State → List Byte} {addr : Option Nat} (hr : s.reaches a = true) (hb : s.updBusy a = false) :
    s.updCommand a index check accept first addr =
      (match check (s.commanded a addr) with
      | some code => (s.commanded a addr).updRefuse a (first (s.commanded a addr)) index code
      | none => accept (s.commanded a addr)).answer .done := by
  rw [updCommand, byAgent_reaches _ _ _ hr, if_neg (by simp [hb])]
  rfl

/-! ### The end of the session -/

/-- The session is over, before the command in progress has its outcome (R480). -/
def sessionOver (s : State) (block : Bool) : State :=
  let t := { s with
    upd := { s.upd with owner := none, got := 0, job := none }
    sv.tasks := s.sv.tasks.filter (fun k => match k.kind with
      | .header _ => false
      | .activate _ => false
      | .block .. => block
      | _ => true) }
  (((t.setRg F.SV_UPD_STAT_SESSION 0).setRg F.SV_UPD_STAT_OWNER 0).setRg F.SV_UPD_STAT_RECEIVED 0).setRg
    F.SV_UPD_STAT_BLOCKS 0

theorem endUpdate_eq (s : State) (block : Bool) : s.endUpdate block =
    match s.upd.job with
    | some (a, _, index) => (s.sessionOver block).updResult a index 3
    | none => s.sessionOver block := rfl

theorem sessionOver_session (s : State) (block : Bool) : (s.sessionOver block).rg F.SV_UPD_STAT_SESSION = 0 := by
  unfold sessionOver
  dsimp only
  rw [rg_setRg_other _ _ _ _ (by decide) (by decide) (by decide), rg_setRg_other _ _ _ _ (by decide) (by decide) (by decide),
    rg_setRg_other _ _ _ _ (by decide) (by decide) (by decide), rg_setRg_self _ _ _ (by decide)]
  rfl

theorem endUpdate_moves (s : State) (block : Bool) : moves [.out, .regs, .scope] (s.sessionOver block) (s.endUpdate block) := by
  rw [endUpdate_eq]
  split
  · exact updResult_moves _ _ _ _
  · exact moves_refl _

/-- The session has no owner, nothing received and no command (R480). -/
theorem endUpdate_shows (s : State) (block : Bool) :
    (s.endUpdate block).upd = { s.upd with owner := none, got := 0, job := none } ∧
    (s.endUpdate block).rg F.SV_UPD_STAT_SESSION = 0 ∧
    (∀ k ∈ (s.endUpdate block).sv.tasks, ∀ c, k.kind ≠ .activate c) ∧ (s.endUpdate block).sv.bersan = s.sv.bersan := by
  have hm := endUpdate_moves s block
  have hsv : (s.endUpdate block).sv = (s.sessionOver block).sv := hm.1 .sv (by decide)
  refine ⟨hm.1 .upd (by decide), ?_, fun k hk c hc => ?_, (congrArg SvState.bersan hsv).trans rfl⟩
  · rw [endUpdate_eq]
    split
    · rw [rg_eq, rd_updResult _ _ _ _ (.inl (by decide)), if_neg (fun h => absurd h.2 (by dsimp only [R.SV_UPD_RESULT]; omega)),
        ← rg_eq]
      exact sessionOver_session s block
    · exact sessionOver_session s block
  · rw [hsv] at hk
    have hkept := (List.mem_filter.mp hk).2
    rw [hc] at hkept
    exact Bool.false_ne_true hkept

theorem closeUpdate_eq {s : State} {a : Agent} (cause : Nat) (ho : s.upd.owner = some a) : s.closeUpdate cause =
    ((s.updLedger s.upd.first 21 cause).endUpdate (decide (cause = 5))).raise 21 (some a) := by
  rw [closeUpdate, ho]

theorem closeUpdate_bersan (s : State) (cause : Nat) : (s.closeUpdate cause).sv.bersan = s.sv.bersan := by
  unfold closeUpdate
  split
  · rfl
  · rw [raise_sv, (endUpdate_shows _ _).2.2.2, (updLedger_moves _ _ _ _).1 .sv (by decide)]

theorem endUpdate_pw (s : State) (block : Bool) : (s.endUpdate block).pw = s.pw :=
  (endUpdate_moves s block).1 .pw (by decide)

theorem ended_socUp {s : State} (c : List Byte) (cause : Nat) (block : Bool) (hu : s.socUp = true) :
    ((s.updLedger c 21 cause).endUpdate block).socUp = true :=
  (socUp_congr ((endUpdate_pw _ _).trans ((updLedger_moves s c 21 cause).1 .pw (by decide)))).trans hu

/-! ### Accepted commands -/

theorem updAccept_shows (s : State) (a : Agent) (op index : Nat) :
    (s.updAccept a op index).upd = { s.upd with job := some (a, op, index) } ∧ (s.updAccept a op index).sv = s.sv := by
  unfold updAccept
  dsimp only
  split <;> exact ⟨rfl, rfl⟩

/-- A task of the writer joins its queue behind an accepted command. -/
theorem acceptTask_shows (s : State) (a : Agent) (op index : Nat) (k : FlashKind) (areas : List FlashArea) :
    ((s.updAccept a op index).addTask k areas).upd = { s.upd with job := some (a, op, index) } ∧
    ∃ l, ((s.updAccept a op index).addTask k areas).sv.tasks = s.sv.tasks ++ [⟨k, l⟩] := by
  obtain ⟨hupd, hsv⟩ := updAccept_shows s a op index
  refine ⟨hupd, trimAreas areas, ?_⟩
  rw [addTask]
  dsimp only
  rw [hsv]

/-- A header that passes its checks becomes the session's (R479). -/
def headerShown (s : State) (c : List Byte) : State :=
  (({ s with upd.first := c }.showGot 0).setRg F.SV_UPD_STAT_SESSION 1).setRg F.SV_UPD_STAT_BLOCKS 0

theorem headerShown_shows (s : State) (c : List Byte) :
    (s.headerShown c).upd = { s.upd with first := c, got := 0 } ∧ (s.headerShown c).sv = s.sv := ⟨rfl, rfl⟩

/-- It is written to the staging slots. -/
def headerTaken (s : State) (a : Agent) (c : List Byte) : State :=
  ((s.headerShown c).updAccept a 2 0).addTask (.header a) [newArea nvJournal 1 [], newArea nvStaging 16 c]

theorem headerTaken_shows (s : State) (a : Agent) (c : List Byte) :
    (s.headerTaken a c).upd = { s.upd with first := c, got := 0, job := some (a, 2, 0) } ∧
    ∃ areas, (s.headerTaken a c).sv.tasks = s.sv.tasks ++ [⟨.header a, areas⟩] := by
  obtain ⟨hupd, areas, htasks⟩ := acceptTask_shows (s.headerShown c) a 2 0 (.header a)
    [newArea nvJournal 1 [], newArea nvStaging 16 c]
  obtain ⟨hshown, hsv⟩ := headerShown_shows s c
  refine ⟨?_, areas, ?_⟩
  · rw [headerTaken, hupd, hshown]
  · rw [headerTaken, htasks, hsv]

/-- A fleet blob that does not open leaves the session as it is. -/
theorem importFleet_refused (s : State) : s.importFleet.2 = true ∨ s.importFleet.1.upd = s.upd := by
  have used : (s.kxUse 4 6).1.upd = s.upd := (kxUse_moves s 4 6).1 .upd (by decide)
  unfold importFleet
  split
  · exact .inr rfl
  · generalize s.kxUse 4 6 = x at used
    obtain ⟨t, ok⟩ := x
    cases ok with
    | false => exact .inr used
    | true =>
      dsimp only
      split
      · split
        · exact .inr used
        · exact .inl rfl
      · exact .inr used

/-- A session is open (R478). -/
def sessionOpened (s : State) (a : Agent) : State :=
  { s with upd.owner := some a, upd.first := [], upd.got := 0, upd.lastCmd := s.now, upd.job := none }.setRg
    F.SV_UPD_STAT_SESSION 1

/-- Its owner is shown and answered, and the ledger notes it. -/
def openNoted (s : State) (a : Agent) : State :=
  ((s.setRg F.SV_UPD_STAT_OWNER a.ownerCode).updResult a 0 0).updLedger [] 19 0

theorem openNoted_shows (s : State) (a : Agent) : (s.openNoted a).upd = s.upd ∧
    (s.openNoted a).rg F.SV_UPD_STAT_SESSION = s.rg F.SV_UPD_STAT_SESSION := by
  unfold openNoted
  refine ⟨?_, ?_⟩
  · rw [(updLedger_moves _ _ _ _).1 .upd (by decide), (updResult_moves _ _ _ _).1 .upd (by decide)]
    rfl
  · rw [(regsWithin_updLedger _ _ _ _).rg _ (by decide) (.inl (by decide)), rg_eq, rd_updResult _ _ _ _ (.inl (by decide)),
      if_neg (fun h => absurd h.2 (by dsimp only [R.SV_UPD_RESULT]; omega)), ← rg_eq,
      rg_setRg_other _ _ _ _ (by decide) (by decide) (by decide)]

/-! ### Bersan sessions -/

theorem closeSession_bersan (s : State) (n : Nat) :
    (s.closeSession n).sv.bersan = Sparse.set (fun _ => none) s.sv.bersan n none := by
  unfold closeSession
  dsimp only
  split
  · split
    · rw [closeUpdate_bersan]
    · rfl
  · rfl

theorem sessionNode_congr {s t : State} (h : t.sv.bersan = s.sv.bersan) (n : Nat) : t.sessionNode n = s.sessionNode n := by
  rw [sessionNode, sessionNode, h]

end State

open State

/-- Settles O55. -/
theorem updateCommands : Obligations.UpdateCommands := by
  unfold Obligations.UpdateCommands
  refine ⟨?opened, ?denied, ?taken, ?header, ?block, ?activate, ?close, ?timeout, ?lapsed, ?session, ?early, ?sessionClose⟩
  case opened =>
    intro a s hr hb hp ho he
    show ∃ t, execUpdOpen a s = _ ∧ _
    rw [execUpdOpen, byAgent_reaches _ _ _ hr, if_neg (by simp [hb]), if_neg (by simp [hp]), if_neg (by simp [ho, he])]
    have hcode : a.ownerCode ≤ 12 := by
      cases a <;> simp only [Agent.ownerCode, updPermitted, Bool.false_eq_true] at hp ⊢ <;> omega
    have hnow : s.importFleet.1.now = s.now :=
      (moves_importFleet (ps := [.freeN, .out, .regs, .scope, .sv, .ob, .kx, .ce, .upd]) (List.Subset.refl _)
        (moves_refl s)).1 .now (by decide)
    have hkept := importFleet_refused s
    generalize s.importFleet = x at *
    obtain ⟨u, ok⟩ := x
    cases ok with
    | true =>
      obtain ⟨hupd, hsess⟩ := openNoted_shows (u.sessionOpened a) a
      dsimp only
      rw [if_pos rfl]
      change ∃ t, Host.Outcome.next (((u.sessionOpened a).openNoted a).answer .done) = _ ∧ _
      refine ⟨_, rfl, ?_⟩
      rw [if_pos rfl, answer_upd, answer_rg, hupd, hsess]
      exact ⟨rfl, rfl, rfl, hnow, rfl, rg_setRg_self _ _ _ (by decide)⟩
    | false =>
      obtain ⟨hupd, -, hword⟩ := updRefuse_shows u a [] 0 5
      dsimp only
      rw [if_neg (by decide)]
      refine ⟨_, rfl, ?_⟩
      rw [if_neg (by decide), answer_upd, answer_rg]
      exact ⟨hupd.trans (hkept.resolve_left (by simp)), code_of_updWord (by decide) (hword hcode)⟩
  case denied =>
    intro a s hr hk hb hp
    show ∃ t, execUpdOpen a s = _ ∧ _
    rw [execUpdOpen, byAgent_reaches _ _ _ hr, if_neg (by simp [hb]), if_pos (by simp [hp])]
    obtain ⟨hupd, -, hcode⟩ := updRefuse_shows s a [] 0 1
    exact ⟨_, rfl, hupd, code_of_updWord (by decide) (hcode hk)⟩
  case taken =>
    intro a s hr hk hb hp hwhy
    show ∃ t, execUpdOpen a s = _ ∧ _
    rw [execUpdOpen, byAgent_reaches _ _ _ hr, if_neg (by simp [hb]), if_neg (by simp [hp]),
      if_pos (hwhy.imp (Option.isSome_iff_ne_none.mpr ·) id)]
    obtain ⟨hupd, -, hcode⟩ := updRefuse_shows s a [] 0 2
    exact ⟨_, rfl, hupd, code_of_updWord (by decide) (hcode hk)⟩
  case header =>
    intro a addr p s hr hb ho hp
    show ∃ t, execUpdHeader a addr s = _ ∧ _
    subst hp
    have hm := commanded_moves s a (some addr)
    have hupd := commanded_upd (addr := some addr) ho
    have howned := updOwned_commanded (addr := some addr) ho
    have haddr := updAddr_commanded s a addr (some addr)
    have hread := dramRd_congr (s := s) (t := s.commanded a (some addr)) (by rw [hm.1 .mx (by decide)])
      (by rw [hm.1 .mx (by decide)])
    have hcheck := headerCheck_congr (s := s) (t := s.commanded a (some addr)) (hm.1 .sx (by decide)) (hm.1 .nv (by decide))
    have hsv : (s.commanded a (some addr)).sv = s.sv := hm.1 .sv (by decide)
    rw [execUpdHeader]
    dsimp only
    rw [updCommand_eq hr hb, howned, Option.none_or]
    simp only [haddr, hread, hcheck]
    generalize s.commanded a (some addr) = u at *
    generalize s.dramRd (s.updAddr a addr) (cLen (s.dramRd (s.updAddr a addr) 512)) = c
    cases hres : s.headerCheck (s.updAddr a addr) (s.dramRd (s.updAddr a addr) 16896) with
    | none =>
      obtain ⟨htaken, areas, htasks⟩ := headerTaken_shows u a c
      refine ⟨(u.headerTaken a c).answer .done, ?_, ?_⟩
      · rfl
      · rw [answer_upd, answer_sv, htaken, hupd]
        exact ⟨rfl, rfl, rfl, rfl, areas, by rw [htasks, hsv]⟩
    | some code =>
      obtain ⟨hkeep, hsv', hword⟩ := updRefuse_shows u a c 0 code
      refine ⟨(u.updRefuse a c 0 code).answer .done, rfl, ?_⟩
      rw [answer_upd, answer_sv, answer_rd, hkeep, hsv', hupd, hsv]
      exact ⟨rfl, rfl, rfl, hword⟩
  case block =>
    intro a b addr p s hr hb ho hacc hb256 hlt hp hok huse
    show ∃ t, execUpdBlock a b addr s = _ ∧ _
    subst hp
    have hm := commanded_moves s a (some addr)
    have hupd := commanded_upd (addr := some addr) ho
    have howned := updOwned_commanded (addr := some addr) ho
    have haddr := updAddr_commanded s a addr (some addr)
    have hread := dramRd_congr (s := s) (t := s.commanded a (some addr)) (by rw [hm.1 .mx (by decide)])
      (by rw [hm.1 .mx (by decide)])
    have hdram := dramOk_congr (s := s) (t := s.commanded a (some addr)) (hm.1 .sx (by decide))
    have haccepted := headerAccepted_commanded s a (some addr)
    have hkey : (s.commanded a (some addr)).keyAt (nodeCell 7) = s.keyAt (nodeCell 7) := by
      rw [keyAt, keyAt, cellOf, cellOf, hm.1 .kx (by decide)]
    have husable : (s.commanded a (some addr)).nodeUsable 7 4 = true := by
      rw [nodeUsable_commanded]
      by_contra hno
      rw [kxUse, if_neg hno] at huse
      exact absurd huse (by simp)
    have hsv : (s.commanded a (some addr)).sv = s.sv := hm.1 .sv (by decide)
    rw [execUpdBlock, byAgent_reaches _ _ _ hr, if_neg (by simp [hb])]
    dsimp only
    rw [show (s.updMirror a (some addr)).updTouch a = s.commanded a (some addr) from rfl, howned]
    dsimp only
    rw [haccepted, hacc, if_neg (by decide), hupd, if_neg (by dsimp only; omega), haddr, hdram, hok, if_neg (by decide), hread,
      hkey, kxUse, if_pos husable, Nat.mod_eq_of_lt hb256]
    dsimp only
    have hcount : moves [.out, .regs, .scope] (s.commanded a (some addr)) ((s.commanded a (some addr)).countUse 7) :=
      moves_countUse (List.Subset.refl _) (moves_refl _)
    have hupd' : ((s.commanded a (some addr)).countUse 7).upd = { s.upd with lastCmd := s.now } :=
      (hcount.1 .upd (by decide)).trans hupd
    have hsv' : ((s.commanded a (some addr)).countUse 7).sv = s.sv := (hcount.1 .sv (by decide)).trans hsv
    generalize (s.commanded a (some addr)).countUse 7 = u at hupd' hsv'
    by_cases htag : blockTagOk s.upd.first (s.keyAt (nodeCell 7)) b (s.dramRd (s.updAddr a addr) 65536) = true
    · rw [if_pos ⟨rfl, htag⟩]
      obtain ⟨htaken, areas, htasks⟩ := acceptTask_shows (u.showGot (clrBit u.upd.got b)) a 3 b (.block a b)
        [newArea (nvStaging + 65536 * (b + 1)) 16 (s.dramRd (s.updAddr a addr) 65536)]
      refine ⟨_, rfl, ?_⟩
      rw [if_pos htag]
      refine ⟨?_, ?_, areas, ?_⟩
      · rw [answer_upd, htaken]
      · rw [answer_upd, htaken]
        exact clrBit_testBit _ _
      · rw [answer_sv, htasks, ← hsv']
        rfl
    · rw [if_neg (fun h => htag h.2)]
      obtain ⟨hkeep, hsv2, hword⟩ := updRefuse_shows (u.bump F.SV_UPD_TAG_FAIL_COUNT) a [] b 0x0A
      refine ⟨_, rfl, ?_⟩
      rw [if_neg htag]
      refine ⟨?_, ?_, fun hk => ?_⟩
      · rw [answer_upd, hkeep]
        exact hupd'
      · rw [answer_sv, hsv2, ← hsv']
        rfl
      · rw [answer_rd, hword hk, updWord]
        exact congrArg Word.ofNat (by omega)
  case activate =>
    intro a s hr hb ho hacc hall hroll
    show ∃ t, execUpdActivate a s = _ ∧ _
    have hm := commanded_moves s a none
    have hupd := commanded_upd (addr := none) ho
    have howned := updOwned_commanded (addr := none) ho
    have haccepted := headerAccepted_commanded s a none
    have hsv : (s.commanded a none).sv = s.sv := hm.1 .sv (by decide)
    have hnv : (s.commanded a none).nv = s.nv := hm.1 .nv (by decide)
    rw [execUpdActivate, updCommand_eq hr hb]
    dsimp only
    rw [howned]
    dsimp only
    have hsigned : (s.commanded a none).keyHashOk s.upd.first = s.keyHashOk s.upd.first := by rw [keyHashOk, keyHashOk, hnv]
    have hnewer : (s.commanded a none).rollback s.upd.first = false := by
      rw [← hroll, rollback, rollback, hnv]
    have hgot : (List.range (cBlocks s.upd.first)).any (fun b => !s.upd.got.testBit b) = false := by
      rw [List.any_eq_false]
      intro b hb'
      simp [hall b (List.mem_range.mp hb')]
    rw [haccepted, hacc, if_neg (by decide), hupd]
    dsimp only
    rw [hgot, if_neg (by decide), hsigned, hnewer]
    generalize s.commanded a none = u at *
    by_cases hok : s.keyHashOk s.upd.first = true ∧ cSigned s.upd.first = true
    · rw [if_neg (by simp [hok.1, hok.2]), if_neg (by decide)]
      dsimp only
      obtain ⟨htaken, areas, htasks⟩ := acceptTask_shows u a 4 0 (.activate a) [newArea nvJournal 16 [], newArea nvJournal 0
        (journalHeader s.upd.first false (u.act F.KX_FLEET_CFG_BLOB_SECTOR))]
      refine ⟨_, rfl, ?_⟩
      rw [if_pos hok]
      refine ⟨?_, areas, ?_⟩
      · rw [answer_upd, htaken]
      · rw [answer_sv, htasks, hsv]
    · rw [if_pos (by rcases not_and_or.mp hok with h | h <;> simp [h])]
      dsimp only
      obtain ⟨hkeep, hsv2, hword⟩ := updRefuse_shows u a s.upd.first 0 0x0C
      refine ⟨_, rfl, ?_⟩
      rw [if_neg hok]
      refine ⟨?_, ?_, fun hk => ?_⟩
      · rw [answer_upd, hkeep, hupd]
      · rw [answer_sv, hsv2, hsv]
      · rw [answer_rd, hword hk]
        rfl
  case close =>
    intro a s hr hb ho
    show ∃ t, execUpdClose a s = _ ∧ _
    rw [execUpdClose, updCommand_eq hr hb, updOwned_commanded ho]
    obtain ⟨hupd, hsess, -, -⟩ := endUpdate_shows (s.commanded a none) false
    dsimp only
    generalize (s.commanded a none).endUpdate false = u at *
    have hsame : (u.updResult a 0 0).upd = u.upd := (updResult_moves _ _ _ _).1 .upd (by decide)
    refine ⟨_, rfl, ?_, ?_, ?_⟩
    · rw [answer_upd, hsame, hupd]
    · rw [answer_upd, hsame, hupd]
    · rw [answer_rg, rg_eq, rd_updResult _ _ _ _ (.inl (by decide)),
        if_neg (fun h => absurd h.2 (by dsimp only [R.SV_UPD_RESULT]; omega)), ← rg_eq, hsess]
  case timeout =>
    intro a s hu ho
    show ∃ t, execUpdSessionTimeout s = _ ∧ _
    rw [execUpdSessionTimeout, closeUpdate_eq 1 ho]
    refine ⟨_, rfl, ?_, evSet_raise_self _ _ _ (ended_socUp _ _ _ hu)⟩
    rw [raise_upd, (endUpdate_shows _ _).1]
  case lapsed =>
    intro a b i s hu ho hj
    show ∃ t, execUpdSessionTimeout s = _ ∧ _
    rw [execUpdSessionTimeout, closeUpdate_eq 1 ho]
    have hjob : (s.updLedger s.upd.first 21 1).upd.job = some (a, 4, i) := by
      rw [(updLedger_moves _ _ _ _).1 .upd (by decide), hj]
    generalize s.updLedger s.upd.first 21 1 = u at hjob
    obtain ⟨hupd, -, htasks, -⟩ := endUpdate_shows u (decide (1 = 5))
    have hends : u.endUpdate (decide (1 = 5)) = (u.sessionOver (decide (1 = 5))).updResult a i 3 := by
      rw [endUpdate_eq, hjob]
    refine ⟨_, rfl, ?_, ?_, fun hk => ?_, fun n hn => ?_⟩
    · rw [raise_upd, hupd]
    · rw [raise_sv]
      exact htasks
    · rw [rd_raise_other _ _ _ _ (by unfold R.SV_UPD_RESULT; omega), hends]
      exact rd_updResult_self _ _ _ hk
    · subst hn
      obtain ⟨l, hl⟩ := (raise_moves (u.endUpdate (decide (1 = 5))) 21 (some b)).2.out
      rw [hl, hends]
      exact List.mem_append_right _ (reply_updResult _ n i 3 (by decide))
  case session =>
    intro n node port udp tagged s hu hf hn hnode hnone hacc huse
    show ∃ t, execBersanSessionOpen n node port tagged udp s = _ ∧ _
    have haccepts : s.bersanAccepts node port tagged udp = true := by
      rw [bersanAccepts]
      rcases hacc with h | ⟨h1, h2, h3, h4⟩
      · simp [h]
      · simp [h1, h2, h3, h4]
    rw [execBersanSessionOpen, if_pos ⟨hu, hf, hn, hnode, hnone, haccepts⟩]
    have hused := (kxUse_moves s node 3).1 .sv (by decide)
    rw [bersanOpen]
    generalize s.kxUse node 3 = x at huse hused
    obtain ⟨t, ok⟩ := x
    obtain rfl : ok = true := huse
    refine ⟨_, rfl, ?_, fun k hk => ?_⟩
    · exact Sparse.get_set_same (fun _ => none) t.sv.bersan n (some node)
    · exact (Sparse.get_set_ne (fun _ => none) t.sv.bersan (some node) hk).trans (sessionNode_congr (congrArg SvState.bersan hused) k)
  case early =>
    intro n node port udp tagged s hd hwhy
    show execBersanSessionOpen n node port tagged udp s = _
    have hno : s.bersanAccepts node port tagged udp = false := by
      rw [bersanAccepts, hd]
      rcases hwhy with h | h | h | h <;> simp [h]
    rw [execBersanSessionOpen, if_neg]
    rintro ⟨-, -, -, -, -, h⟩
    exact absurd h (by simp [hno])
  case sessionClose =>
    intro n s hu hn hs
    show ∃ t, execBersanSessionClose n s = _ ∧ _
    rw [execBersanSessionClose, if_pos ⟨hu, hn, hs⟩]
    have hclosed := closeSession_bersan s n
    refine ⟨_, rfl, ?_, fun k hk => ?_⟩
    · rw [sessionNode, hclosed]
      exact Sparse.get_set_same _ _ _ _
    · rw [sessionNode, hclosed]
      exact Sparse.get_set_ne _ _ _ hk

end Sys2Proof.Machine
end

section
/-!
PROOFS. The operations of the flash: the customer's and the ledger's sectors, the writes of the bank writer and their ends
(R47, R48, R68, R88, R112, R486).
-/

namespace Sys2Proof.Machine

namespace State

/-! ### Operations of the flash -/

/-- The area after an operation of its writer. -/
theorem areaStep_area (s : State) (a : FlashArea) (ok : Bool) :
    (s.areaStep a ok).2 = if a.erasing then a.afterErase else a.afterPage := by
  unfold areaStep
  split <;> rfl

/-- An operation that succeeds erases the sector or programs the page at the area's position. -/
theorem areaStep_nv (s : State) (a : FlashArea) : (s.areaStep a true).1.nv =
    (if a.erasing then s.nvErase (a.base + a.pos) 4096
      else s.nvProgram (a.base + a.pos) ((a.bytes.drop a.pos).take 256)).nv := by
  unfold areaStep
  split <;> rfl

theorem areaStep_moves (s : State) (a : FlashArea) (ok : Bool) : moves [.freeN, .nv] s (s.areaStep a ok).1 :=
  moves_areaStep (List.Subset.refl _) (moves_refl s)

/-! ### The steps of the running task -/

/-- The tasks that wait. -/
def withTasks (s : State) (l : List FlashTask) : State := { s with sv.tasks := l }

theorem withTasks_tasks (s : State) (l : List FlashTask) : (s.withTasks l).sv.tasks = l := rfl

theorem withTasks_nv (s : State) (l : List FlashTask) : (s.withTasks l).nv = s.nv := rfl

theorem withTasks_pw (s : State) (l : List FlashTask) : (s.withTasks l).pw = s.pw := rfl

theorem withTasks_regs (s : State) (l : List FlashTask) : (s.withTasks l).regs = s.regs := rfl

theorem showMarked_moves (s : State) : moves [.regs] s s.showMarked :=
  moves_showMarked (List.Subset.refl _) (moves_refl s)

/-- The task whose operation has succeeded and which has more to do. -/
theorem flashStep_goesOn {s : State} {k : FlashKind} {a : FlashArea} {as : List FlashArea} {rest : List FlashTask}
    (ht : s.sv.tasks = ⟨k, a :: as⟩ :: rest)
    (hmore : trimAreas ((if a.erasing then a.afterErase else a.afterPage) :: as) ≠ []) :
    (s.flashStep true).nv = (s.areaStep a true).1.nv := by
  unfold flashStep
  rw [ht]
  dsimp only
  rw [areaStep_area, if_neg (by decide)]
  generalize trimAreas ((if a.erasing then a.afterErase else a.afterPage) :: as) = l at hmore ⊢
  cases l with
  | nil => exact absurd rfl hmore
  | cons b l =>
    dsimp only
    split
    · split <;> rfl
    · rfl

/-- The task whose last operation has succeeded. -/
theorem flashStep_ends {s : State} {k : FlashKind} {a : FlashArea} {as : List FlashArea} {rest : List FlashTask}
    (ht : s.sv.tasks = ⟨k, a :: as⟩ :: rest)
    (hend : trimAreas ((if a.erasing then a.afterErase else a.afterPage) :: as) = []) :
    s.flashStep true = (((s.areaStep a true).1.withTasks rest).taskEnd k true).showMarked := by
  unfold flashStep
  rw [ht]
  dsimp only
  rw [areaStep_area, if_neg (by decide), hend]
  rfl

/-- The task whose operation has failed. -/
theorem flashStep_fails {s : State} {k : FlashKind} {a : FlashArea} {as : List FlashArea} {rest : List FlashTask}
    (ht : s.sv.tasks = ⟨k, a :: as⟩ :: rest) :
    s.flashStep false = (((s.areaStep a false).1.withTasks rest).taskEnd k false).showMarked := by
  unfold flashStep
  rw [ht]
  dsimp only
  rw [if_pos (by decide)]
  rfl

/-- The end of a PERSIST shows its state and raises its event (R112). -/
theorem persistEnd_shows {s : State} (b : Agent) (bank seq : Nat) (ok : Bool) (hu : s.socUp = true) :
    ((s.taskEnd (.persist b bank seq) ok).showMarked).sv = s.sv ∧
    ((s.taskEnd (.persist b bank seq) ok).showMarked).nv = s.nv ∧
    ((s.taskEnd (.persist b bank seq) ok).showMarked).rg F.SV_TX_PERSIST_STATE = (if ok then 0 else 3) ∧
    ((s.taskEnd (.persist b bank seq) ok).showMarked).evSet (if ok then 12 else 13) = true := by
  rw [taskEnd]
  have shown : (s.setRg F.SV_TX_PERSIST_STATE (if ok then 0 else 3)).rg F.SV_TX_PERSIST_STATE = if ok then 0 else 3 := by
    rw [rg_setRg_self _ _ _ (by decide)]
    cases ok <;> rfl
  have hup : (s.setRg F.SV_TX_PERSIST_STATE (if ok then 0 else 3)).socUp = true := hu
  have hsv : (s.setRg F.SV_TX_PERSIST_STATE (if ok then 0 else 3)).sv = s.sv := rfl
  have hnv : (s.setRg F.SV_TX_PERSIST_STATE (if ok then 0 else 3)).nv = s.nv := rfl
  have hev : (if ok then 12 else 13 : Nat) / 32 = 0 := by cases ok <;> rfl
  generalize (if ok then 12 else 13 : Nat) = ev at hev ⊢
  generalize s.setRg F.SV_TX_PERSIST_STATE (if ok then 0 else 3) = t at shown hup hsv hnv ⊢
  refine ⟨((showMarked_moves _).1 .sv (by decide)).trans ((raise_sv _ _ _).trans hsv),
    ((showMarked_moves _).1 .nv (by decide)).trans ((raise_nv _ _ _).trans hnv), ?_, ?_⟩
  · rw [showMarked, rg_setRg_other _ _ _ _ (by decide) (by decide) (by decide),
      rg_raise_other _ _ _ _ (by rw [hev]; decide)]
    exact shown
  · rw [showMarked, evSet_setRg _ _ _ _ (by rw [hev]; decide)]
    exact evSet_raise_self _ _ _ hup

end State

/-- Settles O31: each operation on the flash is its command's own; the steps of the running task go by what is left of its
areas. -/
theorem flashCommands : Obligations.FlashCommands := by
  unfold Obligations.FlashCommands
  refine ⟨fun c off n sector bytes s hr hlen hrange hsec => ⟨?read, ?erase, ?program⟩,
    fun n image s hn hr hb himage => ?bank,
    fun n image s hn hr hb => ?busy, fun k a as rest s hu ht hmore => ?goesOn, fun b bank seq a rest s hu ht hend => ?persisted,
    fun b bank seq a as rest s hu ht => ?failed, fun s hbooted hfirst hb hskip hunknown hold => ?migration,
    fun c off n sector bytes s hr hlen hrange => ?ledger⟩
  case read =>
    show ∃ t, execNvmOperation _ _ _ _ _ s = _ ∧ _
    rw [execNvmOperation, State.byAgent_reaches _ _ _ hr]
    dsimp only
    rw [hlen, if_neg (by decide), if_neg (by simp only [Bool.not_true, Bool.false_eq_true, false_or]; omega), if_pos rfl]
    exact ⟨_, rfl, rfl, rfl⟩
  case erase =>
    show ∃ t, execNvmOperation _ _ _ _ _ s = _ ∧ _
    rw [execNvmOperation, State.byAgent_reaches _ _ _ hr]
    dsimp only
    rw [hlen, if_neg (by decide), if_neg (by simp only [Bool.not_true, Bool.false_eq_true, false_or]; omega),
      if_neg (by decide), if_pos rfl]
    exact ⟨_, rfl, fun o => (State.nvByte_congr (State.answer_nv _ _) o).trans (State.nvByte_nvErase _ _ _ _)⟩
  case program =>
    show ∃ t, execNvmOperation _ _ _ _ _ s = _ ∧ _
    rw [execNvmOperation, State.byAgent_reaches _ _ _ hr]
    dsimp only
    rw [hlen, if_neg (by decide), if_neg (by simp only [Bool.not_true, Bool.false_eq_true, false_or]; omega),
      if_neg (by decide), if_neg (by decide), if_pos rfl]
    refine ⟨_, rfl, fun i hi => ?_, fun o ho => ?_⟩
    · rw [State.nvByte_congr (State.answer_nv _ _), State.nvByte_nvProgram, if_pos (by omega), Nat.add_sub_cancel_left]
    · rw [State.nvByte_congr (State.answer_nv _ _)]
      exact State.nvByte_nvProgram_outside (by omega)
  case bank =>
    show ∃ t, execBersanBankWrite _ _ s = _ ∧ _
    rw [execBersanBankWrite, State.byAgent_reaches _ _ _ hr, if_neg (by rw [hb]; decide)]
    refine ⟨_, rfl, rfl, ?_, ?_⟩
    · exact (List.any_append ..).trans (Bool.or_eq_true_iff.mpr (.inr rfl))
    · exact List.length_append
  case busy =>
    show ∃ t, execBersanBankWrite _ _ s = _ ∧ _
    rw [execBersanBankWrite, State.byAgent_reaches _ _ _ hr, if_pos hb]
    refine ⟨_, rfl, rfl, ?_⟩
    rw [State.answer_out, State.bersanEnds]
    dsimp only [State.emit]
    rw [Fin.val_ofNat, Nat.mod_eq_of_lt hn]
  case goesOn =>
    show ∃ t, execFlashOpComplete _ s = _ ∧ _
    rw [execFlashOpComplete, if_pos hu]
    exact ⟨_, rfl, (State.flashStep_goesOn ht hmore).trans (State.areaStep_nv s a)⟩
  case persisted =>
    show ∃ t, execFlashOpComplete _ s = _ ∧ _
    rw [execFlashOpComplete, if_pos hu, State.flashStep_ends ht hend]
    have hup : ((s.areaStep a true).1.withTasks rest).socUp = true :=
      (State.socUp_congr ((State.withTasks_pw _ _).trans ((State.areaStep_moves s a true).1 .pw (by decide)))).trans hu
    obtain ⟨hsv, hnv, hstate, hev⟩ := State.persistEnd_shows b bank seq true hup
    refine ⟨_, rfl, ?_, hstate, hev, ?_⟩
    · rw [hsv, State.withTasks_tasks]
    · rw [hnv, State.withTasks_nv, State.areaStep_nv]
  case failed =>
    show ∃ t, execFlashOpComplete _ s = _ ∧ _
    rw [execFlashOpComplete, if_pos hu, State.flashStep_fails ht]
    have hup : ((s.areaStep a false).1.withTasks rest).socUp = true :=
      (State.socUp_congr ((State.withTasks_pw _ _).trans ((State.areaStep_moves s a false).1 .pw (by decide)))).trans hu
    obtain ⟨hsv, -, hstate, hev⟩ := State.persistEnd_shows b bank seq false hup
    exact ⟨_, rfl, by rw [hsv, State.withTasks_tasks], hstate, hev⟩
  case migration =>
    show ∃ t, execMigration s = _ ∧ _
    rw [execMigration, if_neg (by rw [hbooted, hfirst, hb]; decide), if_neg (by rw [hskip, hunknown]; decide),
      if_neg (by rw [hold]; decide)]
    refine ⟨_, rfl, rfl, rfl, ?_, ?_⟩
    · exact List.length_append
    · exact (List.any_append ..).trans (Bool.or_eq_true_iff.mpr (.inr rfl))
  case ledger =>
    show ∃ t, execNvmOperation _ _ _ _ _ s = _ ∧ _
    rw [execNvmOperation, State.byAgent_reaches _ _ _ hr]
    dsimp only
    rw [hlen, if_pos (by decide), if_pos hrange]
    exact ⟨_, rfl, rfl, rfl⟩

end Sys2Proof.Machine
end

section
/-!
PROOFS. The commands of the transaction engine on their handles (R102 to R110, R113, R114) and the writes of the SHADOW
view (R107).
-/

namespace Sys2Proof.Machine

namespace State

/-! ### Commands and their mailboxes -/

/-- A command of an agent with a mailbox that has none in progress (R103). -/
theorem txCommand_eq {s : State} {a : Agent} (f : State → State) (hr : s.reaches a = true) (hk : a.ownerCode ≤ 12)
    (hp : s.txPending a = false) : s.txCommand a f = (f s).answer .done := by
  rw [txCommand, byAgent_reaches _ _ _ hr, if_neg (by rw [hp]; simp [Nat.not_lt.mpr hk])]

theorem txFields_moves (s : State) (a : Agent) (x y z : Option Nat) : moves [.regs] s (s.txFields a x y z) :=
  moves_txFields (List.Subset.refl _) (moves_refl s)

theorem txOutcome_moves (s : State) (a : Agent) (w : Nat) : moves [.out, .regs, .sv] s (s.txOutcome a w) :=
  moves_txOutcome (List.Subset.refl _) (moves_refl s)

theorem txResult_moves (s : State) (a : Agent) (c h l : Nat) : moves [.out, .regs, .scope, .sv] s (s.txResult a c h l) :=
  moves_txResult (by decide) (moves_refl s)

/-- The checks of a Tack do not look into the mailbox. -/
theorem tackCheck_txFields (s : State) (a : Agent) (x y z : Option Nat) (set timeout : Nat) :
    (s.txFields a x y z).tackCheck set timeout = s.tackCheck set timeout := by
  have hsv : (s.txFields a x y z).sv = s.sv := (txFields_moves s a x y z).1 .sv (by decide)
  generalize s.txFields a x y z = t at hsv
  unfold tackCheck holderOf openTxns txnOf
  rw [hsv]

theorem nextHandle_txFields (s : State) (a : Agent) (x y z : Option Nat) :
    (s.txFields a x y z).nextHandle = s.nextHandle := by
  have hsv : (s.txFields a x y z).sv = s.sv := (txFields_moves s a x y z).1 .sv (by decide)
  generalize s.txFields a x y z = t at hsv
  unfold nextHandle txnOf
  rw [hsv]

/-- What a command shows at its end where no outcome of a held Stitch waits for it (R104). -/
theorem rd_txResult {s : State} {a : Agent} (code handle : Nat) (hk : a.ownerCode ≤ 12)
    (hd : s.deferred a.ownerCode = []) :
    (s.txResult a code handle).rd (R.SV_TXM_RESULT a.ownerCode) = Word.ofNat (txWord code handle 0 0) := by
  have told : (s.txOutcome a (txWord code handle 0 0)).regs =
      (s.wr (R.SV_TXM_RESULT a.ownerCode) (Word.ofNat (txWord code handle 0 0))).regs := by
    rw [txOutcome, hd]
    show (s.txReply a _).regs = _
    unfold txReply
    rw [if_pos hk]
    cases a <;> rfl
  have hev : (if code ≤ 1 then 6 else 7 : Nat) / 32 = 0 := by split <;> rfl
  rw [txResult, txEvent, rd_raise_other _ _ _ _ (by rw [hev]; unfold R.SV_TXM_RESULT; omega), rd_congr told, rd_wr_self]

theorem rd_txAccept (s : State) {a : Agent} (h : Nat) (hk : a.ownerCode ≤ 12) :
    (s.txAccept a h).rd (R.SV_TXM_RESULT a.ownerCode) = Word.ofNat (1 + h % 4 * 64) := by
  rw [txAccept, if_pos hk, rd_wr_self]

/-! ### Handles -/

/-- The next handle is one of the four. -/
theorem nextHandle_lt (s : State) : s.nextHandle < 4 := by
  unfold nextHandle
  cases h : (List.range 4).find? (fun h => decide ((s.txnOf h).state = .free)) with
  | none => decide
  | some k => exact List.mem_range.mp (List.mem_of_find?_eq_some h)

/-- A Tack that its checks pass. -/
theorem tackCheck_passes {s : State} {set timeout : Nat} (hb : s.sv.booting = false) (hset : 0 < set)
    (hsmall : set < 2 ^ 18) (htime : timeout = 0 ∨ 100 ≤ timeout ∧ timeout ≤ 600000) (hfew : s.openTxns.length < 4) :
    s.tackCheck set timeout = (s.holderOf set).map (fun h => (3, h)) := by
  rw [tackCheck, if_neg (by rw [hb]; decide), if_neg (by omega), if_neg (by omega), if_neg (by omega)]

/-- The checks of a Stitch that meets its conditions. -/
theorem stitchCheck_passes {s : State} {a : Agent} {h : Nat} {persist : Bool} (hst : (s.txnOf h).state = .opened)
    (ho : (s.txnOf h).owner = a.ownerCode) (hw : persist = true → s.writerBusy = false)
    (hp : s.precondFails (s.txnOf h).set = false) : s.stitchCheck a h persist = none := by
  unfold stitchCheck handleCheck
  dsimp only
  rw [if_neg (by rw [hst]; decide), if_neg (not_not.mpr ho)]
  dsimp only
  rw [if_neg (not_not.mpr hst), if_neg (fun h => by rw [hw h.1] at h; exact Bool.false_ne_true h.2), hp,
    if_neg Bool.false_ne_true]

theorem stitchAccept_te (s : State) (h : Nat) (st : TxnState) (p : Bool) (ti time : Nat) (late held : Bool) :
    (s.stitchAccept h st p ti time late held).te = s.te := rfl

theorem handleCheck_passes {s : State} {a : Agent} {h : Nat} (hst : (s.txnOf h).state ≠ .free)
    (ho : (s.txnOf h).owner = a.ownerCode) : s.handleCheck a h = none := by
  unfold handleCheck
  dsimp only
  rw [if_neg hst, if_neg (not_not.mpr ho)]

/-- A handle freed past COPYING returns its domains' SHADOW to ACTIVE (R113). -/
theorem shadowOf_freeHandle {s : State} {h : Nat} (hst : (s.txnOf h).state ≠ .copying) (d : Nat) :
    (s.freeHandle h).activeOf d = s.activeOf d ∧
    (d < 18 → (s.txnOf h).set.testBit d = true → (s.freeHandle h).shadowOf d = s.activeOf d) := by
  unfold freeHandle
  dsimp only
  rw [if_neg (fun h => hst h.1)]
  refine ⟨(copyOver_copies _ _ d).1, fun hd hbit => ?_⟩
  rw [(copyOver_copies _ _ d).2, if_pos ⟨hd, hbit⟩]
  rfl

/-- The SHADOW copies that wait for the drain follow ACTIVE; ACTIVE stays (R113). -/
theorem activeOf_recopyDue (s : State) (d : Nat) : s.recopyDue.activeOf d = s.activeOf d := by
  unfold recopyDue
  split
  · exact (copyOver_copies _ _ d).1
  · rfl

theorem noteDrain_moves (s : State) : moves [.out, .regs, .scope, .fx] s s.noteDrain :=
  moves_noteDrain (by decide) (moves_refl s)

/-! ### Writes of the SHADOW view that are refused -/

/-- The first refused offset with its owner. -/
def refusalNoted (t : State) (a : Agent) (off : Nat) : State :=
  if t.rd R.SV_TX_SHADOW_ADDR = 0 then
    ((t.setRg F.SV_TX_SHADOW_ADDR_OFFSET off).setRg F.SV_TX_SHADOW_ADDR_OWNER (t.ownerShown a)).useFree
  else t

theorem shadowRefuse_eq (s : State) (a : Agent) (off : Nat) : s.shadowRefuse a off =
    match a with
    | .bersan n => (((s.bump F.SV_TX_SHADOW_REFUSED_COUNT).refusalNoted a off).raise 11 (some a)).emit
        (.bersanReply n.val (txWord 8 0 0 0))
    | _ => ((s.bump F.SV_TX_SHADOW_REFUSED_COUNT).refusalNoted a off).raise 11 (some a) := rfl

theorem shadowRefuse_regs (s : State) (a : Agent) (off : Nat) : (s.shadowRefuse a off).regs =
    (((s.bump F.SV_TX_SHADOW_REFUSED_COUNT).refusalNoted a off).raise 11 (some a)).regs := by
  rw [shadowRefuse_eq]
  cases a <;> rfl

/-- What is noted of a refused write: its offset, where none is noted (R107). -/
theorem refusalNoted_shows (t : State) (a : Agent) (off : Nat) :
    (t.refusalNoted a off).pw = t.pw ∧
    (t.refusalNoted a off).rg F.SV_TX_SHADOW_REFUSED_COUNT = t.rg F.SV_TX_SHADOW_REFUSED_COUNT ∧
    (t.rd R.SV_TX_SHADOW_ADDR = 0 →
      (t.refusalNoted a off).rg F.SV_TX_SHADOW_ADDR_OFFSET = off % 2 ^ F.SV_TX_SHADOW_ADDR_OFFSET.wid) ∧
    (t.rd R.SV_TX_SHADOW_ADDR ≠ 0 → (t.refusalNoted a off).rd R.SV_TX_SHADOW_ADDR = t.rd R.SV_TX_SHADOW_ADDR) := by
  unfold refusalNoted
  split
  · next h =>
    refine ⟨rfl, ?_, fun _ => ?_, fun hn => absurd h hn⟩
    · rw [rg_eq, useFree_rd, rd_setRg_other _ _ _ _ (by decide), rd_setRg_other _ _ _ _ (by decide), ← rg_eq]
    · rw [rg_eq, useFree_rd, ← rg_eq, rg_setRg_other _ _ _ _ (by decide) (by decide) (by decide),
        rg_setRg_self _ _ _ (by decide)]
  · next h => exact ⟨rfl, rfl, fun h' => absurd h' h, fun _ => rfl⟩

/-- A refused write of the SHADOW view: its count, its event, and the offset where none is noted (R107). -/
theorem shadowRefuse_shows {s : State} (a : Agent) (off : Nat) (hu : s.socUp = true) :
    (s.shadowRefuse a off).evSet 11 = true ∧
    (s.shadowRefuse a off).rg F.SV_TX_SHADOW_REFUSED_COUNT =
      min (s.rg F.SV_TX_SHADOW_REFUSED_COUNT + 1) (2 ^ F.SV_TX_SHADOW_REFUSED_COUNT.wid - 1) ∧
    (s.rd R.SV_TX_SHADOW_ADDR = 0 →
      (s.shadowRefuse a off).rg F.SV_TX_SHADOW_ADDR_OFFSET = off % 2 ^ F.SV_TX_SHADOW_ADDR_OFFSET.wid) ∧
    (s.rd R.SV_TX_SHADOW_ADDR ≠ 0 →
      (s.shadowRefuse a off).rd R.SV_TX_SHADOW_ADDR = s.rd R.SV_TX_SHADOW_ADDR) := by
  have counted : (s.bump F.SV_TX_SHADOW_REFUSED_COUNT).rg F.SV_TX_SHADOW_REFUSED_COUNT = _ := rg_bump_self s _ 1 (by decide)
  have addr : (s.bump F.SV_TX_SHADOW_REFUSED_COUNT).rd R.SV_TX_SHADOW_ADDR = s.rd R.SV_TX_SHADOW_ADDR :=
    rd_bump_other s _ _ _ (by decide)
  have hup : (s.bump F.SV_TX_SHADOW_REFUSED_COUNT).pw = s.pw := rfl
  have hregs := shadowRefuse_regs s a off
  generalize s.shadowRefuse a off = v at hregs ⊢
  generalize s.bump F.SV_TX_SHADOW_REFUSED_COUNT = t at counted addr hup hregs
  obtain ⟨hpw, hcount, hfirst, hlater⟩ := refusalNoted_shows t a off
  rw [addr] at hfirst hlater
  have hnoted : (t.refusalNoted a off).socUp = true := (socUp_congr (hpw.trans hup)).trans hu
  refine ⟨?_, ?_, fun h => ?_, fun h => ?_⟩
  · rw [evSet, rg_congr hregs]
    exact evSet_raise_self _ _ _ hnoted
  · rw [rg_congr hregs, rg_raise_other _ _ _ _ (by decide), hcount, counted]
  · rw [rg_congr hregs, rg_raise_other _ _ _ _ (by decide), hfirst h]
  · rw [rd_congr hregs, rd_raise_other _ _ _ _ (by decide), hlater h]

end State

open State in
/-- Settles O29: each command passes its checks and moves its handle, by the laws of the handles; a write of the SHADOW view
reaches the copy, or is refused. -/
theorem transactionCommands : Obligations.TransactionCommands := by
  unfold Obligations.TransactionCommands
  refine ⟨fun a set timeout s hr hk hp hb hset hsmall htime hfew hfree => ?tack,
    fun a set timeout s hr hk hp hd hb hfew hset => ?badSet,
    fun a set timeout h s hr hk hp hd hb hset hsmall htime hfew hheld => ?taken, fun h s hh hst hblock => ?copied,
    fun a h persist s hr hk hp hh hst ho hw hpre => ?stitch,
    fun a h ti sec ns persist s hr hk hp hh hti hsec hns hst ho hw hpre hahead hnear => ?stitchAt,
    fun a h s hr hk hp hh hst ho => ?unpick, fun a h s hr hk hp hh hst ho => ?renew, fun h s hh hst => ?timeout,
    fun a off d data s r hr hal hview hrow hcd hrs hmine => ?written,
    fun a off d data s r hr hu hal hview hrow hcd hrs hmine => ?refused⟩
  case tack =>
    show ∃ t, execTack _ _ _ s = _ ∧ _
    rw [execTack, txCommand_eq _ hr hk hp]
    dsimp only
    rw [tackCheck_txFields, tackCheck_passes hb hset hsmall htime hfew, hfree, Option.map_none, nextHandle_txFields]
    dsimp only
    have hnow : (s.txFields a (some set) (some timeout) none).now = s.now := (txFields_moves s a _ _ _).1 .now (by decide)
    have htx (k : Nat) : (s.txFields a (some set) (some timeout) none).txnOf k = s.txnOf k :=
      txnOf_congr (congrArg SvState.txns ((txFields_moves s a _ _ _).1 .sv (by decide))) k
    rw [hnow]
    generalize s.txFields a (some set) (some timeout) none = u at htx ⊢
    refine ⟨_, rfl, ?_, fun k hne => ?_, ?_, rfl⟩
    · exact (txnOf_txAccept _ _ _ _).trans (txns_setTxn_same _ _ _)
    · exact (txnOf_txAccept _ _ _ _).trans ((txns_setTxn_ne _ _ hne).trans (htx k))
    · rw [rd_congr (answer_regs _ _), rd_txAccept _ _ hk, Nat.mod_eq_of_lt (nextHandle_lt s), Nat.mul_comm 64]
  case badSet =>
    show ∃ t, execTack _ _ _ s = _ ∧ _
    have hcheck : s.tackCheck set timeout = some (5, 0) := by
      rw [tackCheck, if_neg (by rw [hb]; decide), if_pos (by omega)]
    rw [execTack, txCommand_eq _ hr hk hp]
    dsimp only
    rw [tackCheck_txFields, hcheck]
    dsimp only
    have hsv : (s.txFields a (some set) (some timeout) none).sv = s.sv := (txFields_moves s a _ _ _).1 .sv (by decide)
    generalize s.txFields a (some set) (some timeout) none = u at hsv ⊢
    refine ⟨_, rfl, ?_, ?_⟩
    · rw [answer_sv, txns_txResult, hsv]
    · rw [rd_congr (answer_regs _ _), rd_txResult _ _ hk (by rw [deferred, hsv]; exact hd)]
  case taken =>
    show ∃ t, execTack _ _ _ s = _ ∧ _
    rw [execTack, txCommand_eq _ hr hk hp]
    dsimp only
    rw [tackCheck_txFields, tackCheck_passes hb hset hsmall htime hfew, hheld, Option.map_some]
    dsimp only
    have hsv : (s.txFields a (some set) (some timeout) none).sv = s.sv := (txFields_moves s a _ _ _).1 .sv (by decide)
    generalize s.txFields a (some set) (some timeout) none = u at hsv ⊢
    refine ⟨_, rfl, ?_, ?_⟩
    · rw [answer_sv, txns_txResult, hsv]
    · rw [rd_congr (answer_regs _ _), rd_txResult _ _ hk (by rw [deferred, hsv]; exact hd)]
  case copied =>
    show ∃ t, execTackCopyDone _ s = _ ∧ _
    rw [execTackCopyDone, decide_eq_true hh, only_true]
    dsimp only
    rw [if_pos ⟨hst, by rw [hblock]; rfl⟩]
    have hact (d : Nat) : s.recopyDue.noteDrain.activeOf d = s.activeOf d :=
      (activeOf_congr ((noteDrain_moves _).1 .active (by decide)) d).trans (activeOf_recopyDue s d)
    have htx : s.recopyDue.noteDrain.txnOf h = s.txnOf h := (txnOf_noteDrain _ _).trans (txnOf_recopyDue s h)
    generalize s.recopyDue.noteDrain = u at hact htx ⊢
    refine ⟨_, rfl, ?_, fun d hd => ⟨?_, fun hbit => ?_⟩⟩
    · rw [txnOf_txResult, txns_setTxn_same, txnOf_copyOver, htx]
    · rw [activeOf_congr ((txResult_moves _ _ _ _ _).1 .active (by decide))]
      exact (copyOver_copies _ _ d).1.trans (hact d)
    · rw [shadowOf_congr ((txResult_moves _ _ _ _ _).1 .shadow (by decide))]
      refine (copyOver_copies u _ d).2.trans ?_
      rw [if_pos ⟨hd, hbit⟩, hact d]
  case stitch =>
    show ∃ t, execStitch _ _ _ s = _ ∧ _
    rw [execStitch, txCommand_eq _ hr hk hp]
    dsimp only
    rw [Nat.mod_eq_of_lt hh, stitchCheck_passes hst ho hw hpre]
    dsimp only
    refine ⟨_, rfl, ?_, ?_, ?_⟩
    · exact (txnOf_txAccept _ _ _ _).trans (txnOf_stitchAccept _ _ _ _ _ _ _ _)
    · rw [rd_congr (answer_regs _ _), rd_txAccept _ _ hk, Nat.mod_eq_of_lt hh, Nat.mul_comm 64]
    · rw [answer_sv, txAccept, if_pos hk]
      rfl
  case stitchAt =>
    show ∃ t, execStitchAt _ _ _ _ _ _ s = _ ∧ _
    have hm := txFields_moves s a none (some ns) (some sec)
    have hcheck := stitchCheck_txFields s a none (some ns) (some sec) h persist hk
    rw [stitchCheck_passes hst ho hw hpre] at hcheck
    have htx : (s.txFields a none (some ns) (some sec)).txnOf h = s.txnOf h :=
      txnOf_congr (congrArg SvState.txns (hm.1 .sv (by decide))) h
    have hleft : (s.txFields a none (some ns) (some sec)).txnLeft h = s.txnLeft h := by
      rw [txnLeft, txnLeft, htx, hm.1 .now (by decide)]
    have hte : (s.txFields a none (some ns) (some sec)).te = s.te := hm.1 .te (by decide)
    rw [execStitchAt, txCommand_eq _ hr hk hp]
    dsimp only
    have hns' : orElse (decide (ns < giga)) ns 0 = ns := by rw [decide_eq_true hns]; rfl
    rw [Nat.mod_eq_of_lt hh, Nat.mod_eq_of_lt hti, Nat.mod_eq_of_lt hsec, hns']
    generalize s.txFields a none (some ns) (some sec) = u at hcheck htx hleft hte ⊢
    have htold := txnOf_stitchAccept u h .held persist ti (giga * sec + ns) false true
    have hstill := (stitchAccept_te u h .held persist ti (giga * sec + ns) false true).trans hte
    rw [hcheck]
    dsimp only
    generalize u.stitchAccept h .held persist ti (giga * sec + ns) false true = v at htold hstill ⊢
    have hshown : (v.txResult a 1 h).tiNs ti = s.tiNs ti := by
      rw [tiNs, tiNs, tiOf_congr (((txResult_moves v a 1 h 0).1 .te (by decide)).trans hstill)]
    rw [show u.tiNs ti = s.tiNs ti by rw [tiNs, tiNs, tiOf_congr hte], hshown, if_neg (Nat.not_lt.mpr hnear),
      if_neg (Nat.not_le.mpr hahead)]
    refine ⟨_, rfl, (txnOf_txResult _ _ _ _ _ _).trans (htold.trans ?_)⟩
    rw [htx, hleft]
  case unpick =>
    show ∃ t, execUnpick _ _ s = _ ∧ _
    rw [execUnpick, txCommand_eq _ hr hk hp]
    rw [Nat.mod_eq_of_lt hh, handleCheck_passes hst ho]
    refine ⟨_, rfl, ?_, fun hne d hd hbit => ?_⟩
    · exact (txnOf_txResult _ _ _ _ _ _).trans (txnOf_freeHandle s h)
    · refine (shadowOf_congr ((txResult_moves (s.freeHandle h) a 0 h 0).1 .shadow (by decide)) d).trans ?_
      exact (shadowOf_freeHandle hne d).2 hd hbit
  case renew =>
    show ∃ t, execRenew _ _ s = _ ∧ _
    have hfree : (s.txnOf h).state ≠ .free := by
      obtain hst | hst := hst <;> rw [hst] <;> decide
    have hlate : ¬((s.txnOf h).state = .held ∨ (s.txnOf h).state = .draining) := by
      obtain hst | hst := hst <;> rw [hst] <;> decide
    rw [execRenew, txCommand_eq _ hr hk hp]
    dsimp only
    rw [Nat.mod_eq_of_lt hh, handleCheck_passes hfree ho]
    dsimp only
    rw [if_neg hlate]
    exact ⟨_, rfl, (txnOf_txResult _ _ _ _ _ _).trans (txns_setTxn_same _ _ _)⟩
  case timeout =>
    show ∃ t, execTxTimeout _ s = _ ∧ _
    rw [execTxTimeout, decide_eq_true hh, only_true, if_pos hst]
    refine ⟨_, rfl, ?_⟩
    have hfreed : ((s.freeHandle h).raise 8 (some (s.txnOf h).agent)).txnOf h = freeTxn :=
      (txnOf_raise _ _ _ _).trans (txnOf_freeHandle s h)
    unfold txTimeout
    dsimp only
    generalize (s.freeHandle h).raise 8 (some (s.txnOf h).agent) = u at hfreed ⊢
    split
    · rw [txnOf_txResult]
      exact hfreed
    · exact hfreed
  case written =>
    rw [exec_shadowWrite data hr hal, shadowWrite, hrow, shadowTake_mine s a off _ d r data hcd hrs hal hview hmine]
    refine ⟨_, rfl, ?_, rfl, ?_⟩
    · exact (moves_shadowPut (ps := [.out, .regs, .scope, .shadow, .fx]) (by decide) (moves_refl s)).1 .active (by decide)
    · exact shadowPut_word s d _ r data hrow
  case refused =>
    obtain ⟨hev, hcount, hfirst, hlater⟩ := shadowRefuse_shows (s := s) a off hu
    rw [exec_shadowWrite data hr hal, shadowWrite, hrow,
      shadowTake_of_not_mine (off - 0x800000) data hal hview hcd hrs hmine]
    exact ⟨_, rfl, shadowRefuse_active s a off, shadowRefuse_shadow s a off, hev, hcount, hfirst, hlater⟩

end Sys2Proof.Machine
end

section
/-!
PROOFS. What the end of copies and of frames leaves of the buffer (R160, R168): no queue and no transmission changes, no
frame enters, and a frame that stays keeps its stage and its bytes.
-/

namespace Sys2Proof.Machine

/-- A frame settled into another: its stage and what it holds stay, and it becomes a zombie only while it arrives. -/
structure Frame.Settles (f g : Frame) : Prop where
  stage : g.stage = f.stage
  bytes : g.bytes = f.bytes
  len : g.len = f.len
  rxDone : g.rxDone = f.rxDone
  zombie_stays : f.zombie = true → g.zombie = true
  zombie_new : g.zombie = true → f.zombie = true ∨ f.rxDone = false

/-- A frame whose stage, contents and life are as before. -/
theorem Frame.Settles.of_same {f g : Frame} (hs : g.stage = f.stage) (hb : g.bytes = f.bytes) (hl : g.len = f.len)
    (hr : g.rxDone = f.rxDone) (hz : g.zombie = f.zombie) : f.Settles g :=
  ⟨hs, hb, hl, hr, fun h => hz.trans h, fun h => .inl (hz.symm.trans h)⟩

theorem Frame.Settles.refl (f : Frame) : f.Settles f := .of_same rfl rfl rfl rfl rfl

theorem Frame.Settles.trans {f g k : Frame} (h : f.Settles g) (h' : g.Settles k) : f.Settles k where
  stage := h'.stage.trans h.stage
  bytes := h'.bytes.trans h.bytes
  len := h'.len.trans h.len
  rxDone := h'.rxDone.trans h.rxDone
  zombie_stays := fun z => h'.zombie_stays (h.zombie_stays z)
  zombie_new := fun z => (h'.zombie_new z).elim h.zombie_new (fun e => .inr (h.rxDone ▸ e))

/-- No frame enters, and each that stays is settled. -/
def FramesSettle (s t : State) : Prop :=
  ∀ id g, t.frameOf id = some g → ∃ f, s.frameOf id = some f ∧ f.Settles g

namespace FramesSettle

open State

theorem refl (s : State) : FramesSettle s s := fun _ g h => ⟨g, h, .refl g⟩

theorem trans {s t u : State} (h : FramesSettle s t) (h' : FramesSettle t u) : FramesSettle s u := by
  intro id k hk
  obtain ⟨g, hg, hgk⟩ := h' id k hk
  obtain ⟨f, hf, hfg⟩ := h id g hg
  exact ⟨f, hf, hfg.trans hgk⟩

theorem of_frames {s t : State} (h : t.sx.frames = s.sx.frames) : FramesSettle s t := fun id g hg =>
  ⟨g, by rw [← hg, frameOf, frameOf, h], .refl g⟩

theorem none {s t : State} (h : FramesSettle s t) {id : Nat} (hs : s.frameOf id = none) : t.frameOf id = none := by
  cases hg : t.frameOf id with
  | none => rfl
  | some g =>
    obtain ⟨f, hf, -⟩ := h id g hg
    rw [hs] at hf
    exact absurd hf (by simp)

theorem setFrame {s : State} {id : Nat} {f : Frame} {x : Option Frame} (hf : s.frameOf id = some f)
    (hx : ∀ g, x = some g → f.Settles g) : FramesSettle s (s.setFrame id x) := by
  intro k g hg
  by_cases hk : k = id
  · subst hk
    rw [frameOf_setFrame_same] at hg
    exact ⟨f, hf, hx g hg⟩
  · rw [frameOf_setFrame_ne _ _ hk] at hg
    exact ⟨g, hg, .refl g⟩

theorem forEach {s : State} {α : Type} {f : State → α → State} (hf : ∀ u x, FramesSettle u (f u x)) (l : List α) :
    FramesSettle s (s.forEach l f) := by
  induction l generalizing s with
  | nil => exact refl s
  | cons a l ih => exact (hf s a).trans ih

end FramesSettle

/-- Of the buffer only frames are settled, and the marks armed again. -/
structure BufferSettles (s t : State) : Prop where
  kept : t.sx = { s.sx with frames := t.sx.frames, dieArmed := t.sx.dieArmed, hamArmed := t.sx.hamArmed }
  frames : FramesSettle s t

namespace BufferSettles

open State

variable {s t u : State}

theorem refl (s : State) : BufferSettles s s := ⟨rfl, .refl s⟩

theorem trans (h : BufferSettles s t) (h' : BufferSettles t u) : BufferSettles s u :=
  ⟨by rw [h'.kept, h.kept], h.frames.trans h'.frames⟩

theorem of_sx (h : t.sx = s.sx) : BufferSettles s t := ⟨by rw [h], .of_frames (by rw [h])⟩

theorem of_moves {ps : List Part} (h : moves ps s t) (hp : Part.sx ∉ ps) : BufferSettles s t := of_sx (h.1 .sx hp)

theorem setFrame {id : Nat} {f : Frame} {x : Option Frame} (hf : s.frameOf id = some f)
    (hx : ∀ g, x = some g → f.Settles g) : BufferSettles s (s.setFrame id x) := ⟨rfl, .setFrame hf hx⟩

theorem modFrame {id : Nat} {g : Frame → Frame} (hg : ∀ f : Frame, f.Settles (g f)) : BufferSettles s (s.modFrame id g) := by
  unfold State.modFrame
  split
  · next f hf => exact .setFrame hf fun k hk => by cases hk; exact hg f
  · exact .refl s

theorem rearmMarks (s : State) : BufferSettles s s.rearmMarks := ⟨rfl, .of_frames rfl⟩

theorem forEach {α : Type} {f : State → α → State} (hf : ∀ u x, BufferSettles u (f u x)) (l : List α) :
    BufferSettles s (s.forEach l f) := by
  induction l generalizing s with
  | nil => exact refl s
  | cons a l ih => exact (hf s a).trans ih

theorem queueOf (h : BufferSettles s t) (q : Nat) : t.queueOf q = s.queueOf q := by
  rw [State.queueOf, State.queueOf, h.kept]

theorem mqOf (h : BufferSettles s t) (p m : Nat) : t.mqOf p m = s.mqOf p m := by
  rw [State.mqOf, State.mqOf, h.kept]

theorem txOf (h : BufferSettles s t) (p : Nat) : t.txOf p = s.txOf p := by
  rw [State.txOf, State.txOf, h.kept]

end BufferSettles

namespace State

/-! ### The end of a copy and of a frame -/

theorem settleSlots_moves (s : State) (f : Frame) : moves [.regs] s (s.settleSlots f) :=
  moves_settleSlots (List.Subset.refl _) (moves_refl s)

theorem txEnded_moves (s : State) (f : Frame) (id : Nat) : moves [.out, .regs, .scope, .cx, .mx] s (s.txEnded f id) :=
  moves_txEnded (List.Subset.refl _) (moves_refl s)

theorem pegDone_moves (s : State) (f : Frame) (c : Option Copy) (mac : Option Nat) (x y z : Bool) (n : Nat) :
    moves [.out, .regs, .scope, .ob] s (s.pegDone f c mac x y z n) :=
  moves_pegDone (List.Subset.refl _) (moves_refl s)

/-- The slots of a frame and its host descriptor settle outside the buffer. -/
theorem ended_sx (s : State) (f : Frame) (id : Nat) : ((s.settleSlots f).txEnded f id).sx = s.sx :=
  ((txEnded_moves _ _ _).1 .sx (by decide)).trans (settleSlots_sx s f)

/-- What is left of a frame that still arrives when it is freed. -/
def Frame.freed (f : Frame) : Frame :=
  { f with zombie := true, verdict := .drop, cells := [], slots := 0, live := 0, kids := 0, copying := 0 }

theorem freeFrame_eq {s : State} {id : Nat} {f : Frame} (hf : s.frameOf id = some f) : s.freeFrame id =
    (((s.settleSlots f).txEnded f id).setFrame id (if f.rxDone then none else some (Frame.freed f))).rearmMarks := by
  unfold freeFrame
  rw [hf]
  rfl

theorem bufferSettles_freeFrame (s : State) (id : Nat) : BufferSettles s (s.freeFrame id) := by
  cases hf : s.frameOf id with
  | none =>
    unfold freeFrame
    rw [hf]
    exact .refl s
  | some f =>
    rw [freeFrame_eq hf]
    have hsx := ended_sx s f id
    refine (BufferSettles.of_sx hsx).trans (.trans (.setFrame ((frameOf_congr hsx id).trans hf) ?_) (.rearmMarks _))
    intro g hg
    split at hg
    · cases hg
    · next hr =>
      cases hg
      exact ⟨rfl, rfl, rfl, rfl, fun _ => rfl, fun _ => .inr (Bool.eq_false_iff.mpr hr)⟩

/-- A frame that is freed is gone, or a zombie while it still arrives. -/
theorem frameOf_freeFrame (s : State) (id : Nat) :
    ∀ g, (s.freeFrame id).frameOf id = some g → g.zombie = true ∧ g.rxDone = false := by
  intro g hg
  cases hf : s.frameOf id with
  | none =>
    rw [(bufferSettles_freeFrame s id).frames.none hf] at hg
    cases hg
  | some f =>
    rw [freeFrame_eq hf] at hg
    have hg' := (frameOf_setFrame_same ((s.settleSlots f).txEnded f id) id _).symm.trans hg
    split at hg'
    · cases hg'
    · next hr =>
      cases hg'
      exact ⟨rfl, Bool.eq_false_iff.mpr hr⟩

theorem bufferSettles_kidGone (s : State) (id : Nat) (left : Bool) : BufferSettles s (s.kidGone id left) := by
  unfold kidGone
  split
  · exact .refl s
  · next f hf =>
    have one : BufferSettles s (s.setFrame id (some { f with kids := f.kids - 1, left := f.left || left })) :=
      .setFrame hf fun g hg => by cases hg; exact .of_same rfl rfl rfl rfl rfl
    dsimp only
    split
    · exact one.trans (bufferSettles_freeFrame _ _)
    · exact one

theorem bufferSettles_endFrame (s : State) (id : Nat) : BufferSettles s (s.endFrame id) := by
  unfold endFrame
  split
  · exact .refl s
  · split
    · exact (bufferSettles_freeFrame _ _).trans (bufferSettles_kidGone _ _ _)
    · exact bufferSettles_freeFrame _ _

/-- A frame whose end has come is gone, or a zombie while it still arrives. -/
theorem frameOf_endFrame (s : State) (id : Nat) :
    ∀ g, (s.endFrame id).frameOf id = some g → g.zombie = true ∧ g.rxDone = false := by
  intro g hg
  have freed := frameOf_freeFrame s id
  unfold endFrame at hg
  split at hg
  · next hf => rw [hf] at hg; cases hg
  · split at hg
    · obtain ⟨k, hk, hs⟩ := (bufferSettles_kidGone _ _ _).frames id g hg
      obtain ⟨hz, hr⟩ := freed k hk
      exact ⟨hs.zombie_stays hz, hs.rxDone.trans hr⟩
    · exact freed g hg

theorem bufferSettles_retireSlots (s : State) (id : Nat) : BufferSettles s (s.retireSlots id) := by
  unfold retireSlots
  dsimp only
  split
  · exact .refl s
  · next f hf =>
    have hsx := settleSlots_sx s { f with left := true }
    refine (BufferSettles.of_sx hsx).trans (.setFrame ((frameOf_congr hsx _).trans hf) fun g hg => ?_)
    cases hg
    exact .of_same rfl rfl rfl rfl rfl

theorem bufferSettles_readerGone (s : State) (id : Nat) : BufferSettles s (s.readerGone id) := by
  unfold readerGone
  split
  · exact .refl s
  · next f hf =>
    have one : BufferSettles s (s.setFrame id (some { f with live := f.live - 1 })) :=
      .setFrame hf fun g hg => by cases hg; exact .of_same rfl rfl rfl rfl rfl
    dsimp only
    split
    · split
      · exact one.trans (bufferSettles_endFrame _ _)
      · refine .trans (.setFrame hf fun g hg => ?_) (.rearmMarks _)
        cases hg
        exact .of_same rfl rfl rfl rfl rfl
    · exact one

theorem bufferSettles_copyGone (s : State) (id : Nat) (left : Bool) : BufferSettles s (s.copyGone id left) := by
  unfold copyGone
  split
  · exact (bufferSettles_retireSlots _ _).trans (bufferSettles_readerGone _ _)
  · exact bufferSettles_readerGone _ _

theorem bufferSettles_dropCopy (s : State) (c : Copy) (stage : Nat) : BufferSettles s (s.dropCopy c stage) := by
  unfold dropCopy
  split
  · exact .refl s
  · exact (BufferSettles.of_moves (pegDone_moves _ _ _ _ _ _ _ _) (by decide)).trans (bufferSettles_copyGone _ _ _)

theorem bufferSettles_dropCopies {s : State} {count : State → Copy → State} (hc : ∀ u c, BufferSettles u (count u c))
    (l : List Copy) (stage : Nat) : BufferSettles s (s.dropCopies l stage count) :=
  .forEach (fun u c => (hc u c).trans (bufferSettles_dropCopy _ c stage)) l

theorem bufferSettles_lineCapture (s : State) (id : Nat) (f : Frame) : BufferSettles s (s.lineCapture id f) := by
  have hits : BufferSettles s (s.lineHits f).1 :=
    .of_moves (moves_lineHits (ps := [.freeN, .ob]) (List.Subset.refl _) (moves_refl s)) (by decide)
  unfold lineCapture
  dsimp only
  split
  · exact hits.trans (.of_sx (lineEnd_sx _ _))
  · exact hits.trans (.modFrame fun f => .of_same rfl rfl rfl rfl rfl)

theorem bufferSettles_discardFrame (s : State) (id : Nat) : BufferSettles s (s.discardFrame id) := by
  unfold discardFrame
  split
  · exact .refl s
  · refine .trans ?_ (bufferSettles_endFrame _ _)
    split
    · exact .refl s
    · exact bufferSettles_lineCapture _ _ _

/-- A frame that is discarded is gone, or a zombie while it still arrives. -/
theorem frameOf_discardFrame (s : State) (id : Nat) :
    ∀ g, (s.discardFrame id).frameOf id = some g → g.zombie = true ∧ g.rxDone = false := by
  unfold discardFrame
  split
  · next hf => intro g hg; rw [hf] at hg; cases hg
  · exact frameOf_endFrame _ _

theorem bufferSettles_dropFrame (s : State) (id stage : Nat) : BufferSettles s (s.dropFrame id stage) := by
  unfold dropFrame
  split
  · exact .refl s
  · exact (BufferSettles.of_moves (pegDone_moves _ _ _ _ _ _ _ _) (by decide)).trans (bufferSettles_discardFrame _ _)

theorem frameOf_dropFrame (s : State) (id stage : Nat) :
    ∀ g, (s.dropFrame id stage).frameOf id = some g → g.zombie = true ∧ g.rxDone = false := by
  unfold dropFrame
  split
  · next hf => intro g hg; rw [hf] at hg; cases hg
  · exact frameOf_discardFrame _ _

theorem bufferSettles_noCopy (s : State) (id : Nat) (f : Frame) (q : Nat) : BufferSettles s (s.noCopy id f q) :=
  .of_moves (moves_noCopy (ps := [.out, .regs, .scope, .ob]) (List.Subset.refl _) (moves_refl s)) (by decide)

theorem bufferSettles_copiesDone (s : State) (id : Nat) : BufferSettles s (s.copiesDone id) := by
  unfold copiesDone
  split
  · exact .refl s
  · next f hf =>
    split
    · exact .refl s
    · split
      · exact bufferSettles_discardFrame _ _
      · split
        · exact bufferSettles_endFrame _ _
        · refine .trans (.setFrame hf fun g hg => ?_) (.rearmMarks _)
          cases hg
          exact .of_same rfl rfl rfl rfl rfl

theorem bufferSettles_loseCopies {s : State} {count : State → Nat → State} (hc : ∀ u p, BufferSettles u (count u p))
    (id : Nat) (f : Frame) : BufferSettles s (s.loseCopies id f count) := by
  unfold loseCopies
  refine .trans (.trans (.forEach (fun u p => (hc u p).trans (bufferSettles_noCopy _ _ _ _)) _) (.modFrame fun g => ?_))
    (bufferSettles_copiesDone _ _)
  exact .of_same rfl rfl rfl rfl rfl

/-! ### The copies that a queue and a port hold -/

theorem framesSettle_toDie (s : State) (q : Nat) : FramesSettle s (s.toDie q) := by
  unfold toDie
  dsimp only
  split
  · exact .of_frames rfl
  · exact .refl s

/-- What a port does with a copy that has left, before its frame loses it (R137, R157). -/
def sentBefore (s : State) (t : TxNow) (bs : List Byte) : State :=
  (((((((s.bump64 (R.PX_TX_FRAMES t.copy.port)).bump64 (R.PX_TX_BYTES t.copy.port) bs.length).csuSee 2 t.copy.port bs).emit
    (.frame t.copy.port bs)).setTx t.copy.port none).plcaEnd t.copy.port).noteLate t.copy t.started)

theorem sentAs_eq (s : State) (t : TxNow) (bs : List Byte) (stomped : Bool) : s.sentAs t bs stomped =
    match (s.sentBefore t bs).frameOf t.copy.frame with
    | some f => ((s.sentBefore t bs).pegDone f (some t.copy) (some s.now) false stomped t.copy.cut 0).copyGone t.copy.frame
        (!stomped)
    | none => s.sentBefore t bs := rfl

theorem setTx_frames (s : State) (p : Nat) (t : Option TxNow) : (s.setTx p t).sx.frames = s.sx.frames := rfl

theorem sentBefore_frames (s : State) (t : TxNow) (bs : List Byte) : (s.sentBefore t bs).sx.frames = s.sx.frames := by
  have hplca (u : State) (p : Nat) : (u.plcaEnd p).sx = u.sx :=
    (moves_plcaEnd (ps := [.px]) (List.Subset.refl _) (moves_refl u)).1 .sx (by decide)
  have hlate (u : State) (c : Copy) (n : Nat) : (u.noteLate c n).sx = u.sx :=
    (moves_noteLate (ps := [.out, .regs, .scope]) (List.Subset.refl _) (moves_refl u)).1 .sx (by decide)
  rw [sentBefore, hlate, hplca, setTx_frames, emit_sx, csuSee_sx, bump64_sx, bump64_sx]

theorem framesSettle_sentAs (s : State) (t : TxNow) (bs : List Byte) (stomped : Bool) :
    FramesSettle s (s.sentAs t bs stomped) := by
  rw [sentAs_eq]
  refine (FramesSettle.of_frames (sentBefore_frames s t bs)).trans ?_
  split
  · exact ((BufferSettles.of_moves (pegDone_moves _ _ _ _ _ _ _ _) (by decide)).trans (bufferSettles_copyGone _ _ _)).frames
  · exact .refl _

theorem portEvent_moves (s : State) (k p : Nat) : moves [.out, .regs, .scope] s (s.portEvent k p) :=
  moves_portEvent (List.Subset.refl _) (moves_refl s)

theorem framesSettle_stomp (s : State) (p sent : Nat) : FramesSettle s (s.stomp p sent) := by
  unfold stomp
  split
  · exact .refl s
  · next t _ =>
    dsimp only
    split
    · next bs _ =>
      refine (framesSettle_sentAs s t bs true).trans (.of_frames ?_)
      exact congrArg SxState.frames ((portEvent_moves _ 6 p).1 .sx (by decide))
    · exact framesSettle_sentAs _ _ _ _

theorem framesSettle_hpWriteEnd (s : State) (port : Nat) (t : TxNow) (f : Frame) (err : Nat) (ecc : Option Nat)
    (given : Bool) : FramesSettle s (s.hpWriteEnd port t f err ecc given) := by
  unfold hpWriteEnd
  dsimp only
  refine (FramesSettle.of_frames (t := s.setTx port none) rfl).trans ?_
  generalize s.setTx port none = u
  split
  · next v hv =>
    have hm : moves [.out, .regs, .scope, .ob, .cx, .mx] u v :=
      moves_rxRefused (List.Subset.refl _) (moves_refl u) _ hv
    exact ((BufferSettles.of_moves hm (by decide)).trans (bufferSettles_dropCopy _ _ _)).frames
  · have written : moves [.out, .regs, .scope, .ob, .cx, .mx] u (u.rxWrite (port - 36) (s.rxRing (port - 36) f t.copy.tc).1
        f t.copy.tc (s.rxRing (port - 36) f t.copy.tc).2 err (s.egressBytes f port) false) :=
      moves_rxWrite (by decide) (moves_refl u)
    generalize u.rxWrite (port - 36) (s.rxRing (port - 36) f t.copy.tc).1
        f t.copy.tc (s.rxRing (port - 36) f t.copy.tc).2 err (s.egressBytes f port) false = w at written
    refine BufferSettles.frames (.trans (.of_moves written (by decide)) (.trans (t := (((w.bump64 (R.PX_TX_FRAMES port)).bump64
      (R.PX_TX_BYTES port) ((s.egressBytes f port).length + 4)).csuSee 2 port (s.egressBytes f port ++ fcsBytes
        (s.egressBytes f port)))) (.of_sx ?_) (.trans (.of_moves (pegDone_moves _ _ _ _ _ _ _ _) (by decide))
        (bufferSettles_copyGone _ _ _))))
    rw [csuSee_sx, bump64_sx, bump64_sx]

theorem framesSettle_giveUp (s : State) (p : Nat) (t : TxNow) : FramesSettle s (s.giveUp p t) := by
  unfold giveUp
  split
  · split
    · exact framesSettle_hpWriteEnd _ _ _ _ _ _ _
    · exact .of_frames rfl
  · refine FramesSettle.trans ?_ (bufferSettles_dropCopy _ _ _).frames
    refine FramesSettle.trans (t := if p = 38 then s.p38Rewind t else s) ?_ (.of_frames rfl)
    split
    · exact (BufferSettles.of_moves (moves_p38Rewind (ps := [.regs, .bx]) (List.Subset.refl _) (moves_refl s)) (by decide)).frames
    · exact .refl s

end State

end Sys2Proof.Machine
end

section
/-!
PROOFS. Mend activities and the faults that mend themselves (R117 to R125, R188, R382).
-/

namespace Sys2Proof.Machine

namespace State

/-! ### A command's fields in its mailbox -/

/-- The registers of the mailboxes (R103). -/
abbrev mailboxes (off : Nat) : Prop := 0x400 ≤ off ∧ off < 0x800

/-- A command's fields stand in its mailbox. -/
theorem regsWithin_txFields (s : State) {a : Agent} (x y z : Option Nat) (hk : a.ownerCode ≤ 12) :
    RegsWithin mailboxes s (s.txFields a x y z) := by
  have put (f : Fld) (v : Option Nat) (hf : mailboxes f.off) {t : State} (h : RegsWithin mailboxes s t) :
      RegsWithin mailboxes s (match v with | some n => t.setRg f n | none => t) := by
    cases v with
    | none => exact h
    | some n => exact h.setRg hf (.inl (by have := hf.2; omega))
  unfold txFields
  dsimp only
  refine put _ _ (by simp; omega) (put _ _ (by simp; omega) (put _ _ (by simp; omega) ?_))
  cases x with
  | none => exact .refl s
  | some n => exact (RegsWithin.refl s).wr _ (by dsimp only [R.SV_TXM_DOMAINS]; omega) (.inl (by dsimp only [R.SV_TXM_DOMAINS]; omega))

/-- The checks of MEND_START do not look into the mailbox. -/
theorem mendCheck_txFields (s : State) {a : Agent} (x y z : Option Nat) (kind unit : Nat) (hk : a.ownerCode ≤ 12) :
    (s.txFields a x y z).mendCheck kind unit = s.mendCheck kind unit := by
  have hm := txFields_moves s a x y z
  have field (f : Fld) (h : f.off < 0x400 ∨ 0x800 ≤ f.off) (he : f.off < 0x2000 ∨ 0x2020 ≤ f.off) :
      (s.txFields a x y z).rg f = s.rg f := (regsWithin_txFields s x y z hk).rg f (by omega) he
  generalize s.txFields a x y z = t at hm field
  have hmend : t.mend = s.mend := hm.1 .mend (by decide)
  have hactive (d : Nat) : t.activeOf d = s.activeOf d := activeOf_congr (hm.1 .active (by decide)) d
  have hshadow (d : Nat) : t.shadowOf d = s.shadowOf d := shadowOf_congr (hm.1 .shadow (by decide)) d
  have hbanks : t.rg F.SV_MEND_SERVICE_BANKS = s.rg F.SV_MEND_SERVICE_BANKS := field _ (by decide) (by decide)
  have hpairs : t.rg F.SV_MEND_SERVICE_PAIRS = s.rg F.SV_MEND_SERVICE_PAIRS := field _ (by decide) (by decide)
  have hmode : t.rg F.SV_MODE_MODE = s.rg F.SV_MODE_MODE := field _ (by decide) (by decide)
  have hrun : t.rg F.CX_CORE_STAT_RUN = s.rg F.CX_CORE_STAT_RUN := field _ (by decide) (by decide)
  have hport (p : Nat) : t.rg (F.PX_PORT_STAT_MEND p) = s.rg (F.PX_PORT_STAT_MEND p) :=
    field _ (.inr (by simp; omega)) (.inr (by simp; omega))
  have hlink (p : Nat) : t.rg (F.PX_PORT_STAT_LINK p) = s.rg (F.PX_PORT_STAT_LINK p) :=
    field _ (.inr (by simp; omega)) (.inr (by simp; omega))
  have hcan (c : Nat) : t.rg (F.BX_CAN_STAT_STATE c) = s.rg (F.BX_CAN_STAT_STATE c) :=
    field _ (.inr (by simp; omega)) (.inr (by simp; omega))
  unfold mendCheck unitWorks unitHeld mendAll bankFloor lastMember pgInService pgServing portUp cd3 sealedPairs act pairs
    banks canState mode
  simp only [hmend, hactive, hshadow, hbanks, hpairs, hmode, hrun, hport, hlink, hcan]

theorem mendId_congr {s t : State} (h : t.mend = s.mend) : t.mendId = s.mendId := by
  unfold mendId mendOf mendAll
  rw [h]

theorem mendOf_congr {s t : State} (h : t.mend = s.mend) (id : Nat) : t.mendOf id = s.mendOf id := by
  unfold mendOf mendAll
  rw [h]

theorem mendOf_id {s : State} {id : Nat} {m : Mend} (h : s.mendOf id = some m) : m.id = id := by
  unfold mendOf at h
  simpa using List.find?_some h

/-- An outcome stands in the mailbox of its agent, where no outcome of a held Stitch waits for it (R104). -/
theorem rd_txOutcome {s : State} {a : Agent} (w : Nat) (hk : a.ownerCode ≤ 12) (hd : s.deferred a.ownerCode = []) :
    (s.txOutcome a w).rd (R.SV_TXM_RESULT a.ownerCode) = Word.ofNat w := by
  have told : (s.txOutcome a w).regs = (s.wr (R.SV_TXM_RESULT a.ownerCode) (Word.ofNat w)).regs := by
    rw [txOutcome, hd]
    show (s.txReply a _).regs = _
    unfold txReply
    rw [if_pos hk]
    cases a <;> rfl
  rw [rd_congr told, rd_wr_self]

theorem deferred_congr {s t : State} (h : t.sv = s.sv) (o : Nat) : t.deferred o = s.deferred o := by
  rw [deferred, deferred, h]

/-- The end of a drain writes the total of the reserves alone (R163). -/
theorem rd_drainUnless (s : State) (was : Bool) {off : Nat} (h : off ≠ F.SX_RSV_TOTAL_SCALED.off)
    (he : off < 0x2000 ∨ 0x2020 ≤ off) : (s.drainUnless was).rd off = s.rd off :=
  (regsWithin_drainUnless (W := (· = F.SX_RSV_TOTAL_SCALED.off)) rfl (.refl s)).rd off h he

/-! ### The start and the end of an activity -/

/-- The activity that MEND_START begins (R119, R123). -/
def mendBegun (s : State) (a : Agent) (kind unit : Nat) : Mend :=
  ⟨s.mendId, kind, unit, a, a.ownerCode, false, mendEntry s.mend.acts 8⟩

theorem mendTake_moves (s : State) (u : Nat × Nat) :
    moves [.freeN, .out, .regs, .scope, .sx, .fx, .ob, .px, .bx, .cx, .mx] s (s.mendTake u) :=
  moves_mendTake (List.Subset.refl _) (moves_refl s)

theorem mendStart_mend (s : State) (a : Agent) (kind unit : Nat) : (s.mendStart a kind unit).mend =
    { s.mend with acts := s.mend.acts ++ [s.mendBegun a kind unit], lastId := s.mendId } := by
  unfold mendStart
  dsimp only
  rw [(mendTake_moves _ _).1 .mend (by decide)]
  rfl

theorem mendStart_sv (s : State) (a : Agent) (kind unit : Nat) : (s.mendStart a kind unit).sv = s.sv :=
  (moves_mendStart (ps := [.freeN, .out, .regs, .scope, .mend, .sx, .fx, .ob, .px, .bx, .cx, .mx]) (List.Subset.refl _)
    (moves_refl s)).1 .sv (by decide)

theorem mendReport_mend (s : State) (m : Mend) (code : Nat) : (s.mendReport m code).mend =
    { s.mend with acts := s.mend.acts.filter (fun x => decide (x.id ≠ m.id)),
                  facts := s.mend.facts.filter (fun x => decide (x.id ≠ m.id)) } := by
  unfold mendReport
  dsimp only
  rw [raise_mend]
  rfl

/-- A software activity that ends leaves the arrays, and the commands that wait for its end (R118, R124). -/
theorem mendEnd_mend (s : State) (m : Mend) (code : Nat) (good : Bool) : (s.mendEnd m code good).mend =
    { s.mend with acts := s.mend.acts.filter (fun x => decide (x.id ≠ m.id)),
                  facts := s.mend.facts.filter (fun x => decide (x.id ≠ m.id)),
                  stopped := s.mend.stopped.filter (fun e => decide (e.1 ≠ m.id)) } := by
  have given : ((s.mendReport m code).mendGive (mendUnit m.kind m.unit) good).mend = (s.mendReport m code).mend :=
    (moves_mendGive (ps := [.freeN, .out, .regs, .scope, .sx, .fx, .ob, .px, .bx, .cx, .mx]) (List.Subset.refl _)
      (moves_refl _)).1 .mend (by decide)
  have stopped (u : State) : (u.mendStopped m.id).mend =
      { u.mend with stopped := u.mend.stopped.filter (fun e => decide (e.1 ≠ m.id)) } :=
    (moves_forEach (fun _ _ k => moves_txOutcome (ps := [.out, .regs, .sv]) (List.Subset.refl _) k) (moves_refl _)).1
      .mend (by decide)
  rw [mendEnd, stopped, given, mendReport_mend]

/-- A fault-driven activity on a unit takes the last ID (R121). -/
def FaultDriven (s : State) (kind unit : Nat) : Prop :=
  ∃ m ∈ s.mend.facts, m.kind = kind ∧ m.unit = unit ∧ m.owner = 14 ∧ m.id = s.mend.lastId

theorem FaultDriven.of_mend {s t : State} {kind unit : Nat} (h : s.FaultDriven kind unit) (e : t.mend = s.mend) :
    t.FaultDriven kind unit := by
  rw [FaultDriven, e]
  exact h

/-- A bank or a pair leaves service for a fault-driven activity. -/
def faultService (s : State) (kind unit : Nat) : State :=
  if kind = 1 then s.bankService unit false else s.pairService unit false

theorem mendFault_drives (s : State) (kind unit : Nat) : (s.mendFault kind unit).FaultDriven kind unit := by
  have taken : ((s.mendPreempt kind unit).mendFact kind unit).FaultDriven kind unit :=
    ⟨_, List.mem_append_right _ List.mem_cons_self, rfl, rfl, rfl, rfl⟩
  have service (u : State) : (u.faultService kind unit).mend = u.mend := by
    unfold faultService
    split
    · exact (moves_bankService (ps := [.out, .regs, .scope, .sx]) (List.Subset.refl _) (moves_refl u)).1 .mend (by decide)
    · have hm : moves [.freeN, .out, .regs, .scope, .sx, .fx, .ob, .px, .bx, .cx, .mx] u (u.pairService unit false) :=
        moves_pairService (by decide) (moves_refl u)
      exact hm.1 .mend (by decide)
  unfold mendFault
  dsimp only
  generalize (s.mendPreempt kind unit).mendFact kind unit = t at taken ⊢
  have raised : ((t.faultService kind unit).raise 17).FaultDriven kind unit :=
    taken.of_mend ((raise_mend _ _ _).trans (service t))
  show ((if ((t.faultService kind unit).raise 17).belowFloor kind = true then ((t.faultService kind unit).raise 17).raise 18
    else (t.faultService kind unit).raise 17)).FaultDriven kind unit
  split
  · exact raised.of_mend (raise_mend _ _ _)
  · exact raised

theorem fault_moves (s : State) (cls unit addr lost : Nat) :
    moves [.out, .regs, .scope, .ob] s (s.fault cls unit addr lost) :=
  moves_fault (List.Subset.refl _) (moves_refl s)

end State

end Sys2Proof.Machine
end

section
/-!
PROOFS. The fence of a bank: what its expiry takes out of the buffer (R117, R188), and O32.
-/

namespace Sys2Proof.Machine

namespace State

theorem mem_of_get {β : Type} {m : Sparse (Option β)} {k : Nat} {v : β} (h : Sparse.get (fun _ => none) m k = some v) :
    (k, some v) ∈ m := by
  induction m with
  | nil => cases h
  | cons e m ih =>
    obtain ⟨k', v'⟩ := e
    unfold Sparse.get at h
    split at h
    · next hk => rw [hk, h]; exact List.mem_cons_self
    · exact List.mem_cons_of_mem _ (ih h)

/-- A frame in the device is among all frames. -/
theorem mem_allFrames {s : State} {id : Nat} {f : Frame} (h : s.frameOf id = some f) : (id, f) ∈ s.allFrames :=
  List.mem_filterMap.mpr ⟨(id, some f), mem_of_get h, rfl⟩

/-! ### The copies and frames that a purge takes -/

variable {gone : Nat → Bool} {count : State → Nat → State} {early : State → Frame → State}

theorem framesSettle_purgeQueue (hc : ∀ u p, BufferSettles u (count u p)) (s : State) (q : Nat) :
    FramesSettle s (s.purgeQueue q gone count) := by
  unfold purgeQueue
  dsimp only
  refine .trans (.trans (.of_frames ?_) (bufferSettles_dropCopies (fun u _ => hc u (q / 8)) _ _).frames)
    (framesSettle_toDie _ _)
  rfl

theorem framesSettle_purgeMq (hc : ∀ u p, BufferSettles u (count u p)) (s : State) (p m : Nat) :
    FramesSettle s (s.purgeMq p m gone count) := by
  unfold purgeMq
  dsimp only
  exact .trans (.of_frames rfl) (bufferSettles_dropCopies (fun u _ => hc u p) _ _).frames

theorem framesSettle_purgeTx (hc : ∀ u p, BufferSettles u (count u p)) (s : State) (p : Nat) :
    FramesSettle s (s.purgeTx p gone count) := by
  unfold purgeTx
  split
  · exact .refl s
  · split
    · dsimp only
      refine (hc s p).frames.trans ?_
      split
      · exact framesSettle_stomp _ _ _
      · exact framesSettle_giveUp _ _ _
    · exact .refl s

/-- What a purge does with a frame of which no queue holds all copies yet. -/
def purgeFrame (count : State → Nat → State) (early : State → Frame → State) (t : State) (id : Nat) : State :=
  match t.frameOf id with
  | some f =>
    if f.zombie then t
    else if f.stage ≠ .queued then (early t f).dropFrame id 1
    else if f.copying ≠ 0 then t.loseCopies id f count
    else t
  | none => t

/-- A purge over the queues and the ports. -/
def purgeCopies (s : State) (gone : Nat → Bool) (count : State → Nat → State) : State :=
  (s.forEach s.busyQueues (fun t q => t.purgeQueue q gone count)).forEach (List.range 41) (fun t p =>
    (t.forEach [0, 1, 2, 3] (fun t m => t.purgeMq p m gone count)).purgeTx p gone count)

theorem purge_eq (s : State) (gone : Nat → Bool) (count : State → Nat → State) (early : State → Frame → State) :
    s.purge gone count early = (s.purgeCopies gone count).forEach
      (((s.purgeCopies gone count).allFrames.map (·.1)).filter gone) (purgeFrame count early) := rfl

theorem framesSettle_purgeCopies (hc : ∀ u p, BufferSettles u (count u p)) (s : State) :
    FramesSettle s (s.purgeCopies gone count) :=
  .trans (.forEach (fun u q => framesSettle_purgeQueue hc u q) _) (.forEach (fun _ p =>
    .trans (.forEach (fun u m => framesSettle_purgeMq hc u p m) _) (framesSettle_purgeTx hc _ p)) _)

theorem framesSettle_purgeFrame (hc : ∀ u p, BufferSettles u (count u p)) (he : ∀ u f, BufferSettles u (early u f))
    (s : State) (id : Nat) : FramesSettle s (purgeFrame count early s id) := by
  unfold purgeFrame
  split
  · split
    · exact .refl s
    · split
      · exact (he s _).frames.trans (bufferSettles_dropFrame _ _ _).frames
      · split
        · exact (bufferSettles_loseCopies hc _ _).frames
        · exact .refl s
  · exact .refl s

theorem framesSettle_purge (hc : ∀ u p, BufferSettles u (count u p)) (he : ∀ u f, BufferSettles u (early u f))
    (s : State) : FramesSettle s (s.purge gone count early) := by
  rw [purge_eq]
  exact (framesSettle_purgeCopies hc s).trans (.forEach (fun u x => framesSettle_purgeFrame hc he u x) _)

/-- A frame that is gone from the device, or awaits only the rest of its reception. -/
def Ended (s : State) (id : Nat) : Prop := ∀ g, s.frameOf id = some g → g.zombie = true ∧ g.rxDone = false

theorem Ended.settle {s t : State} {id : Nat} (h : s.Ended id) (hs : FramesSettle s t) : t.Ended id := by
  intro g hg
  obtain ⟨f, hf, hfg⟩ := hs id g hg
  obtain ⟨hz, hr⟩ := h f hf
  exact ⟨hfg.zombie_stays hz, hfg.rxDone.trans hr⟩

/-- A frame that no queue holds, its copies apart. -/
def Early (s : State) (id : Nat) : Prop :=
  ∀ g, s.frameOf id = some g → g.stage ≠ .queued ∧ (g.zombie = true → g.rxDone = false)

theorem Early.settle {s t : State} {id : Nat} (h : s.Early id) (hs : FramesSettle s t) : t.Early id := by
  intro g hg
  obtain ⟨f, hf, hfg⟩ := hs id g hg
  obtain ⟨hst, hz⟩ := h f hf
  exact ⟨hfg.stage ▸ hst, fun k => hfg.rxDone.trans ((hfg.zombie_new k).elim hz fun e => e)⟩

/-- A purge takes a frame that no queue holds (R117). -/
theorem ended_purgeFrame {s : State} {id : Nat} (h : s.Early id) : (purgeFrame count early s id).Ended id := by
  unfold purgeFrame
  split
  · next f hf =>
    obtain ⟨hst, hz⟩ := h f hf
    split
    · next hzombie =>
      intro g hg
      rw [hf] at hg
      cases hg
      exact ⟨hzombie, hz hzombie⟩
    · exact frameOf_dropFrame _ _ _
  · next hf =>
    intro g hg
    rw [hf] at hg
    cases hg

theorem ended_forEach_purgeFrame (hc : ∀ u p, BufferSettles u (count u p)) (he : ∀ u f, BufferSettles u (early u f))
    {id : Nat} (l : List Nat) {s : State} (h : s.Early id) (hl : id ∈ l) : (s.forEach l (purgeFrame count early)).Ended id := by
  induction l generalizing s with
  | nil => cases hl
  | cons a l ih =>
    show ((purgeFrame count early s a).forEach l (purgeFrame count early)).Ended id
    by_cases ha : id = a
    · subst ha
      exact (ended_purgeFrame h).settle (.forEach (fun u x => framesSettle_purgeFrame hc he u x) l)
    · exact ih (h.settle (framesSettle_purgeFrame hc he s a)) ((List.mem_cons.mp hl).resolve_left ha)

/-- After a purge no frame that it names, and that no queue held, is left (R117). -/
theorem ended_purge (hc : ∀ u p, BufferSettles u (count u p)) (he : ∀ u f, BufferSettles u (early u f)) {s : State}
    {id : Nat} (h : s.Early id) (hg : gone id = true) : (s.purge gone count early).Ended id := by
  rw [purge_eq]
  have hearly := h.settle (framesSettle_purgeCopies (gone := gone) hc s)
  generalize s.purgeCopies gone count = u at hearly ⊢
  by_cases hin : id ∈ (u.allFrames.map (·.1)).filter gone
  · exact ended_forEach_purgeFrame hc he _ hearly hin
  · have hnone : u.frameOf id = none := by
      cases hf : u.frameOf id with
      | none => rfl
      | some f =>
        exact absurd (List.mem_filter.mpr ⟨List.mem_map.mpr ⟨_, mem_allFrames hf, rfl⟩, hg⟩) hin
    intro g hg'
    rw [FramesSettle.none (.forEach (fun u x => framesSettle_purgeFrame hc he u x) _) hnone] at hg'
    cases hg'

/-- A frame of the bank, in no queue yet, has ended at the expiry of the fence (R117). -/
theorem ended_fenceExpiry {s : State} {b id : Nat} {f : Frame} (hf : s.frameOf id = some f) (hb : s.inBank b id = true)
    (hst : f.stage ≠ .queued) :
    (s.fenceExpiry b).Ended id ∧ (f.rxDone = true → (s.fenceExpiry b).frameOf id = none) := by
  have flushed (u : State) (p : Nat) : BufferSettles u (u.bump (F.SX_FLUSHED_COUNT p)) := .of_sx rfl
  have hlive : f.zombie = false := by
    unfold inBank at hb
    rw [hf] at hb
    simpa using (Bool.and_eq_true_iff.mp hb).2
  have ended : (s.fenceExpiry b).Ended id := by
    refine ended_purge flushed (fun _ _ => .forEach flushed _) (fun g hg => ?_) ?_
    · rw [hf] at hg
      cases hg
      exact ⟨hst, fun hz => absurd hz (by rw [hlive]; decide)⟩
    · exact List.contains_iff_mem.mpr (List.mem_filter.mpr ⟨List.mem_map.mpr ⟨_, mem_allFrames hf, rfl⟩, hb⟩)
  have settles : FramesSettle s (s.fenceExpiry b) := framesSettle_purge flushed (fun _ _ => .forEach flushed _) s
  refine ⟨ended, fun hr => ?_⟩
  cases hg : (s.fenceExpiry b).frameOf id with
  | none => rfl
  | some g =>
    obtain ⟨k, hk, hkg⟩ := settles id g hg
    rw [hf] at hk
    cases hk
    exact absurd ((ended g hg).2.symm.trans (hkg.rxDone.trans hr)) (by decide)

theorem fenceExpiry_mend (s : State) (b : Nat) : (s.fenceExpiry b).mend = s.mend := by
  have hm : moves [.freeN, .out, .regs, .scope, .sx, .ob, .px, .bx, .cx, .mx] s (s.fenceExpiry b) :=
    moves_fenceExpiry (by decide) (moves_refl s)
  exact hm.1 .mend (by decide)

/-! ### Faults -/

/-- A bank that an uncorrectable error fences (R188). -/
theorem bankFence_drives (s : State) (b cell : Nat) : (s.bankFence b cell).FaultDriven 1 b := by
  refine (mendFault_drives s 1 b).of_mend ?_
  unfold bankFence
  dsimp only
  have marked (u : State) (l : List Nat) : (u.forEach l setDrop).mend = u.mend :=
    (moves_forEach (fun _ _ k => moves_setDrop (ps := [.sx]) (List.Subset.refl _) k) (moves_refl u)).1 .mend (by decide)
  have purged (u : State) (gone : Nat → Bool) : (u.forEach (List.range 41)
      (fun t p => t.purgeTx p gone (fun t _ => t))).mend = u.mend := by
    have hm : moves [.freeN, .out, .regs, .scope, .sx, .ob, .px, .bx, .cx, .mx] u (u.forEach (List.range 41)
        (fun t p => t.purgeTx p gone (fun t _ => t))) :=
      moves_forEach (fun v p k => moves_purgeTx (by decide) (fun _ _ h => h) k) (moves_refl u)
    exact hm.1 .mend (by decide)
  rw [(fault_moves _ _ _ _ _).1 .mend (by decide), purged, raise_mend, bump_mend, marked, setRg_mend]

/-- A first mismatch names its pair and its context (R382). -/
def mismatchShown (s : State) (pair ctx : Nat) : State :=
  (((s.setRg F.CE_EV_LAST_CTX ctx).bump F.CE_MISMATCH_RETRY_OK_COUNT).bump (F.CE_PAIR_STAT_MISMATCHES pair)).setRg
    F.CE_EV_LAST_PAIR pair

theorem mismatchShown_shows (s : State) {pair ctx : Nat} (hpair : pair < 8) (hctx : ctx < 4096) :
    (s.mismatchShown pair ctx).rg F.CE_EV_LAST_PAIR = pair ∧ (s.mismatchShown pair ctx).rg F.CE_EV_LAST_CTX = ctx := by
  have hoff : (F.CE_PAIR_STAT_MISMATCHES pair).off ≠ F.CE_EV_LAST_CTX.off := by dsimp only; omega
  constructor
  · rw [mismatchShown, rg_setRg_self _ _ _ (by decide)]
    exact Nat.mod_eq_of_lt hpair
  · rw [mismatchShown, rg_setRg_other _ _ _ _ (by decide) (by decide) (by decide),
      rg_bump_other _ _ _ _ (by simp) (by decide) (.inl hoff),
      rg_bump_other _ _ _ _ (by decide) (by decide) (by decide), rg_setRg_self _ _ _ (by decide)]
    exact Nat.mod_eq_of_lt hctx

/-- A fault's record and event are SV's: no other block's registers change, and no event is taken back. -/
theorem regsWithin_fault_sv (s : State) {cls : Nat} (hc : cls < 256) (unit addr lost : Nat) :
    RegsWithin (fun off => off < 0x1000000) s (s.fault cls unit addr lost) :=
  regsWithin_fault hc (fun _ h => h) (.refl s)

theorem retirePair_drives (s : State) (p : Nat) : (s.retirePair p).FaultDriven 4 p := by
  refine (mendFault_drives s 4 p).of_mend ?_
  unfold retirePair
  dsimp only
  rw [(fault_moves _ _ _ _ _).1 .mend (by decide), raise_mend, setRg_mend, setRg_mend]

theorem retirePair_event {s : State} (p : Nat) (hu : s.socUp = true) : (s.retirePair p).evSet 200 = true := by
  have hm : moves [.freeN, .out, .regs, .scope, .sv, .mend, .sx, .fx, .ob, .px, .bx, .cx, .mx] s (s.mendFault 4 p) :=
    moves_mendFault (List.Subset.refl _) (moves_refl s)
  unfold retirePair
  dsimp only
  generalize s.mendFault 4 p = t at hm ⊢
  have hup : ((t.setRg (F.CE_PAIR_STAT_RETIRED p) 1).setRg F.CE_EV_LAST_PAIR p).socUp = true :=
    (socUp_congr (hm.1 .pw (by decide))).trans hu
  exact (regsWithin_fault_sv _ (by decide) _ _ _).events 200 (by decide) (evSet_raise_self _ _ _ hup)

end State

open State in
/-- Settles O32: the activities by the arrays that their commands change, the expiry of a fence by what a purge ends, and the
faults by the activity that they drive. -/
theorem mendAndFaults : Obligations.MendAndFaults := by
  unfold Obligations.MendAndFaults
  refine ⟨fun a kind unit s hr hk hp hd hkind hunit hcheck => ?start,
    fun a kind unit code id s hr hu hk hp hd hkind hunit hcheck => ?refused,
    fun a id m s hr hk hp hid hm ho => ?stop, fun a id m s hr hk hp hd hid hm ho => ?notOwner,
    fun id m s hm ho h1 h5 h8 => ?ended, fun id r m s hm ho hkind hstop => ?stopped,
    fun id r m s hm ho hkind hstop => ?goesOn, fun id m s hm hkind ho => ?expiry,
    fun id fid m f s hm hkind ho hq hmq htx hall hin hst hrx => ?alone,
    fun bank cell s hu hb hout => ?fenced, fun bank cell s hout => ?outAlready,
    fun pair ctx s hu hpair hctx hin => ?mismatch, fun pair ctx s hu hpair hctx hin => ?retired⟩
  case start =>
    show ∃ t, execMendStart _ _ _ s = _ ∧ _
    have hmend : (s.txFields a none (some (unit + 256 * kind)) none).mend = s.mend :=
      (txFields_moves s a _ _ _).1 .mend (by decide)
    have hsv : (s.txFields a none (some (unit + 256 * kind)) none).sv = s.sv :=
      (txFields_moves s a _ _ _).1 .sv (by decide)
    rw [execMendStart, txCommand_eq _ hr hk hp]
    dsimp only
    rw [Nat.mod_eq_of_lt hkind, Nat.mod_eq_of_lt hunit, mendCheck_txFields s _ _ _ _ _ hk, hcheck]
    dsimp only
    rw [mendId_congr hmend]
    generalize s.txFields a none (some (unit + 256 * kind)) none = u at hmend hsv ⊢
    have hd' : (u.mendStart a kind unit).deferred a.ownerCode = [] :=
      (deferred_congr ((mendStart_sv u a kind unit).trans hsv) _).trans hd
    have hword := rd_txOutcome (txWord 0 0 0 s.mendId) hk hd'
    have hbegun := mendStart_mend u a kind unit
    have hkept : ((u.mendStart a kind unit).txOutcome a (txWord 0 0 0 s.mendId)).mend = (u.mendStart a kind unit).mend :=
      (txOutcome_moves _ _ _).1 .mend (by decide)
    generalize (u.mendStart a kind unit).txOutcome a (txWord 0 0 0 s.mendId) = v at hword hkept ⊢
    have hlist : (v.drainUnless u.drained).mend =
        { s.mend with acts := s.mend.acts ++ [s.mendBegun a kind unit], lastId := s.mendId } := by
      rw [(drainUnless_moves v u.drained).1 .mend (by decide), hkept, hbegun, mendBegun, mendBegun, mendId_congr hmend, hmend]
    refine ⟨_, rfl, ?_, ?_, ?_, ?_⟩
    · exact congrArg MendState.lastId hlist
    · exact congrArg MendState.acts hlist
    · rw [answer_mend, hlist]
    · rw [rd_congr (answer_regs _ _), rd_drainUnless _ _ (by dsimp only [R.SV_TXM_RESULT]; omega)
        (.inl (by dsimp only [R.SV_TXM_RESULT]; omega))]
      exact hword
  case refused =>
    show ∃ t, execMendStart _ _ _ s = _ ∧ _
    have hm := txFields_moves s a none (some (unit + 256 * kind)) none
    rw [execMendStart, txCommand_eq _ hr hk hp]
    dsimp only
    rw [Nat.mod_eq_of_lt hkind, Nat.mod_eq_of_lt hunit, mendCheck_txFields s _ _ _ _ _ hk, hcheck]
    dsimp only
    generalize s.txFields a none (some (unit + 256 * kind)) none = u at hm ⊢
    have hword := rd_txOutcome (txWord code 0 0 id) hk ((deferred_congr (hm.1 .sv (by decide)) a.ownerCode).trans hd)
    have hout := txOutcome_moves u a (txWord code 0 0 id)
    generalize u.txOutcome a (txWord code 0 0 id) = v at hword hout ⊢
    have hup : v.socUp = true := (socUp_congr ((hout.1 .pw (by decide)).trans (hm.1 .pw (by decide)))).trans hu
    refine ⟨_, rfl, ?_, ?_, ?_⟩
    · rw [answer_mend, raise_mend, hout.1 .mend (by decide), hm.1 .mend (by decide)]
    · exact evSet_raise_self v 16 _ hup
    · rw [rd_congr (answer_regs _ _), rd_raise_other _ _ _ _ (by dsimp only [R.SV_TXM_RESULT]; omega)]
      exact hword
  case stop =>
    show ∃ t, execMendStop _ _ s = _ ∧ _
    have hmend : (s.txFields a none (some (id % 256)) none).mend = s.mend := (txFields_moves s a _ _ _).1 .mend (by decide)
    rw [execMendStop, txCommand_eq _ hr hk hp]
    dsimp only
    rw [Nat.mod_eq_of_lt hid] at hmend ⊢
    rw [mendOf_congr hmend, hm]
    dsimp only
    rw [if_neg (not_not.mpr ho), mendOf_id hm]
    generalize s.txFields a none (some id) none = u at hmend ⊢
    refine ⟨_, rfl, ?_, ?_⟩
    · rw [answer_mend, txAccept, if_pos hk, ← hmend]
      rfl
    · rw [rd_congr (answer_regs _ _), rd_txAccept _ _ hk]
      rfl
  case notOwner =>
    show ∃ t, execMendStop _ _ s = _ ∧ _
    have hf := txFields_moves s a none (some (id % 256)) none
    rw [execMendStop, txCommand_eq _ hr hk hp]
    dsimp only
    rw [Nat.mod_eq_of_lt hid] at hf ⊢
    rw [mendOf_congr (hf.1 .mend (by decide)), hm]
    dsimp only
    rw [if_pos ho]
    generalize s.txFields a none (some id) none = u at hf ⊢
    have hword := rd_txOutcome (txWord 8 0 0 0) hk ((deferred_congr (hf.1 .sv (by decide)) a.ownerCode).trans hd)
    have hout := txOutcome_moves u a (txWord 8 0 0 0)
    generalize u.txOutcome a (txWord 8 0 0 0) = v at hword hout ⊢
    refine ⟨_, rfl, ?_, ?_⟩
    · rw [answer_mend, raise_mend, hout.1 .mend (by decide), hf.1 .mend (by decide)]
    · rw [rd_congr (answer_regs _ _), rd_raise_other _ _ _ _ (by dsimp only [R.SV_TXM_RESULT]; omega)]
      exact hword
  case ended =>
    show ∃ t, execMendActivityEnd _ _ s = _ ∧ _
    rw [execMendActivityEnd, hm]
    dsimp only
    rw [if_neg ho, if_neg h1, if_neg (by omega), if_pos (.inr rfl)]
    refine ⟨_, rfl, ?_, ?_, fun e he => ?_⟩
    · rw [mendEnd_mend, mendOf_id hm]
    · rw [mendEnd_mend, mendOf_id hm]
    · rw [mendEnd_mend, mendOf_id hm] at he
      exact of_decide_eq_true (List.mem_filter.mp he).2
  case stopped =>
    show ∃ t, execMendActivityEnd _ _ s = _ ∧ _
    rw [execMendActivityEnd, hm]
    dsimp only
    rw [if_neg ho, if_neg (by omega), if_pos hkind, if_pos hstop]
    refine ⟨_, rfl, ?_, fun e he => ?_⟩
    · rw [mendEnd_mend, mendOf_id hm]
    · rw [mendEnd_mend, mendOf_id hm] at he
      exact of_decide_eq_true (List.mem_filter.mp he).2
  case goesOn =>
    have hnone : s.mend.stopped.any (fun e => decide (e.1 = id)) = false :=
      List.any_eq_false.mpr fun e he => by simpa using hstop e he
    show execMendActivityEnd _ _ s = _
    rw [execMendActivityEnd, hm]
    dsimp only
    rw [if_neg ho, if_neg (by omega), if_pos hkind, hnone, if_neg Bool.false_ne_true]
  case expiry =>
    show ∃ t, execBankTestFenceExpiry _ s = _ ∧ _
    rw [execBankTestFenceExpiry, hm]
    dsimp only
    rw [if_pos ⟨hkind, ho⟩]
    have hdrain := drainUnless_moves (s.fenceExpiry m.unit) s.drained
    refine ⟨_, rfl, ?_, fun fid f hf hin hst _ g hg => ?_⟩
    · rw [hdrain.1 .mend (by decide), fenceExpiry_mend]
    · rw [frameOf_congr (hdrain.1 .sx (by decide))] at hg
      exact ((ended_fenceExpiry hf hin hst).1 g hg).1
  case alone =>
    show ∃ t, execBankTestFenceExpiry _ s = _ ∧ _
    have hf : s.frameOf fid = some f := by
      cases hg : s.frameOf fid with
      | none =>
        unfold inBank at hin
        rw [hg] at hin
        cases hin
      | some g =>
        have hmem := mem_allFrames hg
        rw [hall, List.mem_singleton, Prod.mk.injEq] at hmem
        rw [hmem.2]
    rw [execBankTestFenceExpiry, hm]
    dsimp only
    rw [if_pos ⟨hkind, ho⟩]
    have hdrain := drainUnless_moves (s.fenceExpiry m.unit) s.drained
    refine ⟨_, rfl, ?_, ?_⟩
    · rw [frameOf_congr (hdrain.1 .sx (by decide))]
      exact (ended_fenceExpiry hf hin hst).2 hrx
    · rw [hdrain.1 .mend (by decide), fenceExpiry_mend]
  case fenced =>
    show ∃ t, execFaultBankFence _ _ s = _ ∧ _
    rw [execFaultBankFence, if_pos ⟨hu, hb, by rw [hout]; rfl⟩]
    refine ⟨_, rfl, FaultDriven.of_mend (bankFence_drives s bank (cell % 16384)) ((drainUnless_moves _ _).1 .mend (by decide))⟩
  case outAlready =>
    show execFaultBankFence _ _ s = _
    rw [execFaultBankFence, if_neg (fun h => by rw [hout] at h; exact Bool.false_ne_true h.2.2)]
  case mismatch =>
    show ∃ t, execCipherMismatch _ _ _ s = _ ∧ _
    rw [execCipherMismatch, decide_eq_true ⟨hpair, hctx⟩, only_true, if_neg (by rw [hin]; decide)]
    dsimp only
    rw [if_neg Bool.false_ne_true]
    obtain ⟨hlast, hlastCtx⟩ := mismatchShown_shows s hpair hctx
    have hmend : (s.mismatchShown pair ctx).mend = s.mend := rfl
    have hup : (s.mismatchShown pair ctx).socUp = true := (socUp_congr rfl).trans hu
    have heq : (((s.setRg F.CE_EV_LAST_CTX ctx).bump F.CE_MISMATCH_RETRY_OK_COUNT).bump
        (F.CE_PAIR_STAT_MISMATCHES pair)).setRg F.CE_EV_LAST_PAIR pair = s.mismatchShown pair ctx := rfl
    rw [heq]
    generalize s.mismatchShown pair ctx = u at hlast hlastCtx hmend hup ⊢
    have hw := regsWithin_fault_sv (u.raise 199) (cls := 0x11) (by decide) pair ctx 0
    refine ⟨_, rfl, ?_, ?_, ?_, ?_⟩
    · rw [(fault_moves _ _ _ _ _).1 .mend (by decide), raise_mend, hmend]
    · exact hw.events 199 (by decide) (evSet_raise_self u 199 _ hup)
    · rw [hw.rg _ (by decide) (by decide), rg_raise_other _ _ _ _ (by decide), hlast]
    · rw [hw.rg _ (by decide) (by decide), rg_raise_other _ _ _ _ (by decide), hlastCtx]
  case retired =>
    show ∃ t, execCipherMismatch _ _ _ s = _ ∧ _
    rw [execCipherMismatch, decide_eq_true ⟨hpair, hctx⟩, only_true, if_neg (by rw [hin]; decide)]
    dsimp only
    rw [if_pos rfl]
    have hup : ((s.setRg F.CE_EV_LAST_CTX ctx).bump (F.CE_PAIR_STAT_MISMATCHES pair) 2).socUp = true := hu
    generalize (s.setRg F.CE_EV_LAST_CTX ctx).bump (F.CE_PAIR_STAT_MISMATCHES pair) 2 = u at hup ⊢
    obtain ⟨m, hmem, hk, hm, ho, -⟩ := retirePair_drives u pair
    exact ⟨_, rfl, retirePair_event pair hup, m, hmem, hk, hm, ho⟩

end Sys2Proof.Machine
end

section
/-!
PROOFS. The packing queues (R326 to R332): O44.
-/

namespace Sys2Proof.Machine

namespace State

/-! ### A packing queue that is put -/

theorem setPq_pq (s : State) (q : Nat) (x : Pq) :
    (s.setPq q x).bx.pq = Sparse.set (fun _ => freshPq) s.bx.pq q x := by
  unfold setPq
  rw [setRg_bx, setRg_bx, setRg_bx]

theorem pqOf_setPq_same (s : State) (q : Nat) (x : Pq) : (s.setPq q x).pqOf q = x := by
  rw [pqOf, setPq_pq, Sparse.get_set_self]

theorem pqOf_setPq_other (s : State) {q k : Nat} (x : Pq) (h : k ≠ q) : (s.setPq q x).pqOf k = s.pqOf k := by
  rw [pqOf, setPq_pq, Sparse.get_set_ne _ _ _ h, pqOf]

theorem pqOf_congr {s t : State} (h : t.bx = s.bx) (q : Nat) : t.pqOf q = s.pqOf q := by
  rw [pqOf, pqOf, h]

/-- Only the status register of a queue shows it (R346). -/
theorem rd_setPq (s : State) (q : Nat) (x : Pq) {off : Nat} (h : off ≠ (F.BX_PQ_STAT_USED q).off) :
    (s.setPq q x).rd off = s.rd off := by
  unfold setPq
  dsimp only
  rw [rd_setRg_other _ (F.BX_PQ_STAT_OPEN q) _ _ h, rd_setRg_other _ (F.BX_PQ_STAT_PKTS q) _ _ h,
    rd_setRg_other _ (F.BX_PQ_STAT_USED q) _ _ h]
  exact rd_congr rfl off

theorem setPq_moves (s : State) (q : Nat) (x : Pq) : moves [.regs, .bx] s (s.setPq q x) :=
  moves_setPq (List.Subset.refl _) (moves_refl s)

theorem pqIs_congr {s t : State} (h : t.active = s.active) (q dir : Nat) : t.pqIs q dir = s.pqIs q dir := by
  unfold pqIs act
  rw [activeOf_congr h]

/-! ### The frames of the port P38 -/

theorem dropCopy_moves (s : State) (c : Copy) (n : Nat) : moves [.out, .regs, .scope, .sx, .ob, .cx, .mx] s (s.dropCopy c n) :=
  moves_dropCopy (by decide) (moves_refl s)

theorem copyGone_moves (s : State) (id : Nat) (left : Bool) :
    moves [.out, .regs, .scope, .sx, .cx, .mx] s (s.copyGone id left) :=
  moves_copyGone (by decide) (moves_refl s)

/-- A counter of the packing queues does not change with the end of a copy. -/
theorem rg_dropCopy_low (s : State) (c : Copy) (n : Nat) (f : Fld) (hf : f.off < 0x8000000)
    (he : f.off < 0x2000 ∨ 0x2020 ≤ f.off) : (s.dropCopy c n).rg f = s.rg f :=
  (regsWithin_dropCopy (W := upperRegs) (fun _ h => h) (.refl s)).rg f (by dsimp only [upperRegs]; omega) he

theorem rg_drainDone (s : State) (f : Fld) (h : f.off ≠ F.SX_RSV_TOTAL_SCALED.off)
    (he : f.off < 0x2000 ∨ 0x2020 ≤ f.off) : s.drainDone.rg f = s.rg f :=
  (regsWithin_drainDone (W := (· = F.SX_RSV_TOTAL_SCALED.off)) rfl (.refl s)).rg f h he

/-- The copy that P38 was writing into a queue leaves with the queue's reset (R331). -/
def resetTx (t : State) (q : Nat) : State :=
  match t.txOf 38 with
  | some tx => if tx.into = some q then (t.setTx 38 none).dropCopy tx.copy 10 else t
  | none => t

theorem resetTx_moves (t : State) (q : Nat) : moves [.out, .regs, .scope, .sx, .ob, .cx, .mx] t (t.resetTx q) := by
  unfold resetTx
  split
  · split
    · exact moves_dropCopy (by decide) (moves_setTx (by decide) (moves_refl t))
    · exact moves_refl t
  · exact moves_refl t

theorem rg_resetTx (t : State) (q : Nat) (f : Fld) (hf : f.off < 0x8000000) (he : f.off < 0x2000 ∨ 0x2020 ≤ f.off) :
    (t.resetTx q).rg f = t.rg f := by
  unfold resetTx
  split
  · split
    · exact rg_dropCopy_low _ _ _ f hf he
    · rfl
  · rfl

/-- The queue with every word discarded, and its packets counted. -/
def resetCleared (s : State) (q : Nat) : State :=
  (s.setPq q { freshPq with waiting := (s.pqOf q).waiting }).bump (F.BX_PQ_REWOUND_COUNT q)
    ((s.pqOf q).ready.length + (if (s.pqOf q).writing.isSome then 1 else 0))

theorem pqReset_eq (s : State) (q : Nat) : s.pqReset q =
    if ((s.resetCleared q).resetTx q).pqIs q 0 then ((s.resetCleared q).resetTx q).pqNext q (s.pqOf q).waiting
    else (((s.resetCleared q).resetTx q).setPq q freshPq).bump (F.BX_PQ_DROP_FULL_COUNT q) (s.pqOf q).waiting.length := by
  unfold pqReset resetTx resetCleared
  dsimp only <;> generalize (s.setPq q { freshPq with waiting := (s.pqOf q).waiting }).bump (F.BX_PQ_REWOUND_COUNT q)
    ((s.pqOf q).ready.length + (if (s.pqOf q).writing.isSome then 1 else 0)) = t <;> rfl

theorem freshPq_waiting : ({ freshPq with waiting := [] } : Pq) = freshPq := rfl

/-- A queue in which no packet is written and none waits is empty after its reset, and its packets counted (R331). -/
theorem pqReset_shows {s : State} {q : Nat} (hq : q < 16) (hw : (s.pqOf q).writing = none)
    (hwait : (s.pqOf q).waiting = []) : (s.pqReset q).pqOf q = freshPq ∧
    (s.pqReset q).rg (F.BX_PQ_REWOUND_COUNT q) =
      min (s.rg (F.BX_PQ_REWOUND_COUNT q) + (s.pqOf q).ready.length) (2 ^ 32 - 1) := by
  have cleared : s.resetCleared q = (s.setPq q freshPq).bump (F.BX_PQ_REWOUND_COUNT q) (s.pqOf q).ready.length := by
    rw [resetCleared, hw, hwait, freshPq_waiting, Option.isSome_none, if_neg Bool.false_ne_true, Nat.add_zero]
  have counted : ((s.setPq q freshPq).bump (F.BX_PQ_REWOUND_COUNT q) (s.pqOf q).ready.length).rg
      (F.BX_PQ_REWOUND_COUNT q) = min (s.rg (F.BX_PQ_REWOUND_COUNT q) + (s.pqOf q).ready.length) (2 ^ 32 - 1) := by
    rw [rg_bump_self _ _ _ (by simp), rg_eq (s.setPq q freshPq), rd_setPq _ _ _ (by dsimp only; omega), ← rg_eq]
  have empty : ((s.setPq q freshPq).bump (F.BX_PQ_REWOUND_COUNT q) (s.pqOf q).ready.length).pqOf q = freshPq :=
    (pqOf_congr (bump_bx _ _ _) q).trans (pqOf_setPq_same s q freshPq)
  rw [pqReset_eq, cleared, hwait, pqNext]
  generalize (s.setPq q freshPq).bump (F.BX_PQ_REWOUND_COUNT q) (s.pqOf q).ready.length = t at counted empty
  have still : (t.resetTx q).pqOf q = freshPq := (pqOf_congr ((resetTx_moves t q).1 .bx (by decide)) q).trans empty
  have kept : (t.resetTx q).rg (F.BX_PQ_REWOUND_COUNT q) = t.rg (F.BX_PQ_REWOUND_COUNT q) :=
    rg_resetTx t q _ (by dsimp only; omega) (.inr (by dsimp only; omega))
  have put (u : State) (x : Pq) : (u.setPq q x).rg (F.BX_PQ_REWOUND_COUNT q) = u.rg (F.BX_PQ_REWOUND_COUNT q) := by
    rw [rg_eq, rd_setPq _ _ _ (by dsimp only; omega), ← rg_eq]
  generalize t.resetTx q = u at still kept
  split
  · exact ⟨by rw [pqOf_setPq_same, still, freshPq_waiting], by rw [put, kept, counted]⟩
  · refine ⟨(pqOf_congr (bump_bx _ _ _) q).trans (pqOf_setPq_same u q freshPq), ?_⟩
    rw [rg_bump_other _ _ _ _ (by simp) (by simp) (.inl (by dsimp only; omega)), put, kept, counted]

/-- A packet that is written whole joins those that are ready, and is counted (R328). -/
def committed (s : State) (q : Nat) (p : Packet) : State :=
  (s.setPq q { s.pqOf q with ready := (s.pqOf q).ready ++ [p], writing := none }).bump (F.BX_PQ_PKTS_COUNT q)

theorem committed_eq (s : State) (q : Nat) (p : Packet) :
    (s.setPq q { s.pqOf q with ready := (s.pqOf q).ready ++ [p], writing := none }).bump (F.BX_PQ_PKTS_COUNT q) =
      s.committed q p := rfl

theorem committed_shows (s : State) {q : Nat} (p : Packet) (hq : q < 16) :
    (s.committed q p).pqOf q = { s.pqOf q with ready := (s.pqOf q).ready ++ [p], writing := none } ∧
    (s.committed q p).rg (F.BX_PQ_PKTS_COUNT q) = min (s.rg (F.BX_PQ_PKTS_COUNT q) + 1) (2 ^ 32 - 1) := by
  constructor
  · rw [committed, pqOf_congr (bump_bx _ _ _), pqOf_setPq_same]
  · rw [committed, rg_bump_self _ _ _ (by simp), rg_eq (s.setPq q _), rd_setPq _ _ _ (by dsimp only; omega), ← rg_eq]

/-- A packet read without an error (R332). -/
theorem pqTake_shows (s : State) {q : Nat} (p : Packet) (rest : List Packet) (hq : q < 16) :
    (s.pqTake q p rest []).pqOf q = { s.pqOf q with ready := rest, rd := ((s.pqOf q).rd + p.words.length) % 256 } ∧
    (s.pqTake q p rest []).rg F.BX_GW_BAD_ACF_COUNT = s.rg F.BX_GW_BAD_ACF_COUNT ∧ (s.pqTake q p rest []).pw = s.pw := by
  have taken : s.pqTake q p rest [] =
      (s.setPq q { s.pqOf q with ready := rest, rd := ((s.pqOf q).rd + p.words.length) % 256 }).csuSee 3 q p.bytes := rfl
  have hm (u : State) : moves [.ob] u (u.csuSee 3 q p.bytes) := moves_csuSee (List.Subset.refl _) (moves_refl u)
  rw [taken]
  refine ⟨?_, ?_, ?_⟩
  · rw [pqOf_congr ((hm _).1 .bx (by decide)), pqOf_setPq_same]
  · rw [rg_congr ((hm _).1 .regs (by decide)), rg_eq, rd_setPq _ _ _ (by dsimp only; omega), ← rg_eq]
  · rw [(hm _).1 .pw (by decide), (setPq_moves _ _ _).1 .pw (by decide)]

theorem setTx_bx (s : State) (p : Nat) (x : Option TxNow) : (s.setTx p x).bx = s.bx := rfl

end State

open State in
/-- Settles O44: each command puts its queue; the end of the copy at P38 changes no queue, and no transmission but P38's. -/
theorem packingQueueCommands : Obligations.PackingQueueCommands := by
  unfold Obligations.PackingQueueCommands
  refine ⟨fun q p s hq hup hdown hp hwait => ?upPacket, fun q p tx f s hq hdown hp htx hf hv => ?downPacket,
    fun q p tx s hq hdown hp htx hinto hdrop => ?rewound, fun q errs s hq hport hup hready => ?emptyRead,
    fun q p rest s hq hport hup hready hothers => ?inOrder,
    fun q tx f s hq htx hf hv hwhole hinto hdown hseal hw hroom => ?written, fun a q s hq hr hw hwait => ?reset⟩
  case upPacket =>
    show ∃ t, execPqCommit _ s = _ ∧ _
    rw [execPqCommit, decide_eq_true hq, only_true]
    dsimp only
    rw [hp]
    dsimp only
    rw [hdown, if_neg Bool.false_ne_true, committed_eq, hwait, pqNext]
    obtain ⟨hput, hcount⟩ := committed_shows s p hq
    generalize s.committed q p = u at hput hcount ⊢
    refine ⟨_, rfl, ?_, ?_⟩
    · rw [pqOf_congr ((drainDone_moves _).1 .bx (by decide)), pqOf_setPq_same, hput]
    · rw [rg_drainDone _ _ (by dsimp only; omega) (.inr (by dsimp only; omega)), rg_eq, rd_setPq _ _ _ (by dsimp only; omega),
        ← rg_eq, hcount]
  case downPacket =>
    show ∃ t, execPqCommit _ s = _ ∧ _
    have hmust : s.mustDrop tx.copy.frame = false := by
      unfold mustDrop
      rw [hf]
      dsimp only
      rw [hv]
      rfl
    rw [execPqCommit, decide_eq_true hq, only_true]
    dsimp only
    rw [hp]
    dsimp only
    rw [hdown, if_pos rfl, htx]
    dsimp only
    rw [hmust, if_neg Bool.false_ne_true, hf]
    dsimp only
    rw [committed_eq]
    obtain ⟨hput, -⟩ := committed_shows s p hq
    generalize s.committed q p = u at hput ⊢
    have hsent : moves [.regs, .ob] u (((u.bump64 (R.PX_TX_FRAMES 38)).bump64 (R.PX_TX_BYTES 38) (p.bytes.length + 4)).csuSee
        2 38 (p.bytes ++ fcsBytes p.bytes)) := moves_csuSee (by decide) (moves_bump64 (by decide) (moves_bump64 (by decide)
      (moves_refl u)))
    generalize ((u.bump64 (R.PX_TX_FRAMES 38)).bump64 (R.PX_TX_BYTES 38) (p.bytes.length + 4)).csuSee
        2 38 (p.bytes ++ fcsBytes p.bytes) = v at hsent ⊢
    have hpq : (v.setTx 38 none).pqOf q = { s.pqOf q with ready := (s.pqOf q).ready ++ [p], writing := none } :=
      (pqOf_congr ((setTx_bx v 38 none).trans (hsent.1 .bx (by decide))) q).trans hput
    have htx' : (v.setTx 38 none).txOf 38 = none := txOf_setTx_same v 38 none
    generalize v.setTx 38 none = w at hpq htx' ⊢
    have hpeg := pegDone_moves w f (some tx.copy) (some s.now) false false tx.copy.cut 0
    generalize w.pegDone f (some tx.copy) (some s.now) false false tx.copy.cut 0 = x at hpeg ⊢
    have hend : (x.copyGone tx.copy.frame true).drainDone.pqOf q =
        { s.pqOf q with ready := (s.pqOf q).ready ++ [p], writing := none } :=
      (pqOf_congr (((drainDone_moves _).1 .bx (by decide)).trans (((copyGone_moves _ _ _).1 .bx (by decide)).trans
        (hpeg.1 .bx (by decide)))) q).trans hpq
    refine ⟨_, rfl, ?_, ?_, ?_⟩
    · rw [hend]
    · rw [hend]
    · rw [txOf_congr ((drainDone_moves _).1 .sx (by decide)), (bufferSettles_copyGone _ _ _).txOf,
        txOf_congr (hpeg.1 .sx (by decide)), htx']
  case rewound =>
    show ∃ t, execPqRewind _ s = _ ∧ _
    rw [execPqRewind, decide_eq_true hq, only_true, hp, htx]
    dsimp only
    rw [if_pos ⟨hinto, hdrop⟩]
    have hrewind : s.p38Rewind tx = (s.setPq q { s.pqOf q with writing := none }).bump (F.BX_PQ_REWOUND_COUNT q) := by
      rw [p38Rewind, hinto]
    have hpq : (s.p38Rewind tx).pqOf q = { s.pqOf q with writing := none } := by
      rw [hrewind, pqOf_congr (bump_bx _ _ _), pqOf_setPq_same]
    have hcount : (s.p38Rewind tx).rg (F.BX_PQ_REWOUND_COUNT q) = min (s.rg (F.BX_PQ_REWOUND_COUNT q) + 1) (2 ^ 32 - 1) := by
      rw [hrewind, rg_bump_self _ _ _ (by simp), rg_eq (s.setPq q _), rd_setPq _ _ _ (by dsimp only; omega), ← rg_eq]
    generalize s.p38Rewind tx = u at hpq hcount ⊢
    refine ⟨_, rfl, ?_, ?_, ?_⟩
    · rw [pqOf_congr ((dropCopy_moves _ _ _).1 .bx (by decide)), pqOf_congr (bump_bx _ _ _), pqOf_congr (setTx_bx _ _ _), hpq]
    · rw [(bufferSettles_dropCopy _ _ _).txOf, txOf_congr (bump_sx _ _ _), txOf_setTx_same]
    · rw [rg_dropCopy_low _ _ _ _ (by dsimp only; omega) (.inr (by dsimp only; omega)),
        rg_bump_other _ _ _ _ (by decide) (by simp) (.inl (by dsimp only; omega)), rg_congr (setTx_regs _ _ _), hcount]
  case emptyRead =>
    show execPqUpRead _ _ s = _
    rw [execPqUpRead, decide_eq_true hq, only_true, if_neg (by rw [hport, hup]; decide), hready]
  case inOrder =>
    show ∃ t, execPqUpRead _ _ s = _ ∧ _
    have hnone : (List.range 16).any (fun k => decide (k > q) && s.pqIs k 0 && !(s.pqOf k).ready.isEmpty) = false := by
      refine List.any_eq_false.mpr fun k hk h => ?_
      simp only [Bool.and_eq_true, decide_eq_true_eq] at h
      obtain ⟨⟨hkq, hk0⟩, hne⟩ := h
      rw [hothers k (List.mem_range.mp hk) hkq hk0] at hne
      exact absurd hne (by decide)
    rw [execPqUpRead, decide_eq_true hq, only_true, if_neg (by rw [hport, hup]; decide), hready]
    dsimp only
    rw [hnone, if_neg Bool.false_ne_true]
    have htaken := (pqTake_shows s p rest hq).1
    generalize s.pqTake q p rest [] = u at htaken ⊢
    refine ⟨_, rfl, ?_⟩
    have hm (g : Frame → Frame) : moves [.freeN, .out, .regs, .scope, .pw, .sx, .fx, .ob, .aon, .cx, .mx] u
        (u.enterWhole 38 p.bytes g) := moves_enterWhole (List.Subset.refl _) (moves_refl u)
    rw [pqOf_congr ((hm _).1 .bx (by decide)), htaken]
  case written =>
    show execPqDownWrite _ s = _
    have hmust : s.mustDrop tx.copy.frame = false := by
      unfold mustDrop
      rw [hf]
      dsimp only
      rw [hv]
      rfl
    rw [execPqDownWrite, decide_eq_true hq, only_true, htx]
    dsimp only
    rw [hf]
    dsimp only
    rw [hmust, if_neg Bool.false_ne_true, if_pos ⟨hwhole, hinto, hdown, hseal, hw, hroom⟩]
  case reset =>
    show ∃ t, execPqReset _ _ s = _ ∧ _
    obtain ⟨hempty, hcount⟩ := pqReset_shows hq hw hwait
    rw [execPqReset, decide_eq_true hq, only_true, byAgent_reaches _ _ _ hr]
    generalize s.pqReset q = u at hempty hcount ⊢
    refine ⟨_, rfl, ?_, ?_⟩
    · rw [pqOf_congr (answer_bx _ _), pqOf_congr ((drainUnless_moves u _).1 .bx (by decide)), hempty]
    · rw [rg_congr (answer_regs _ _), rg_eq, rd_drainUnless _ _ (by dsimp only; omega) (.inr (by dsimp only; omega)), ← rg_eq, hcount]

end Sys2Proof.Machine
end

section
/-!
PROOFS. The gateway between the CAN controllers and the packing queues (R333 to R341): O43.
-/

namespace Sys2Proof.Machine

/-- Of the bus part only the controllers differ. -/
def CansOnly (s t : State) : Prop := t.bx = { s.bx with can := t.bx.can }

namespace CansOnly

variable {s t u : State}

theorem refl (s : State) : CansOnly s s := rfl

theorem trans (h : CansOnly s t) (h' : CansOnly t u) : CansOnly s u := by
  unfold CansOnly at *
  rw [h', h]

theorem of_bx (h : t.bx = s.bx) : CansOnly s t := by
  unfold CansOnly
  rw [h]

theorem setCan (s : State) (c : Nat) (x : CanState) : CansOnly s (s.setCan c x) := rfl

theorem pq (h : CansOnly s t) : t.bx.pq = s.bx.pq := by rw [h]

theorem downRr (h : CansOnly s t) : t.bx.downRr = s.bx.downRr := by rw [h]

end CansOnly

/-- Of the bus part only the packing queues differ. -/
def QueuesOnly (s t : State) : Prop := t.bx = { s.bx with pq := t.bx.pq }

namespace QueuesOnly

variable {s t u : State}

theorem refl (s : State) : QueuesOnly s s := rfl

theorem trans (h : QueuesOnly s t) (h' : QueuesOnly t u) : QueuesOnly s u := by
  unfold QueuesOnly at *
  rw [h', h]

theorem of_bx (h : t.bx = s.bx) : QueuesOnly s t := by
  unfold QueuesOnly
  rw [h]

theorem setPq (s : State) (q : Nat) (x : Pq) : QueuesOnly s (s.setPq q x) := by
  unfold QueuesOnly State.setPq
  dsimp only
  rw [State.setRg_bx, State.setRg_bx, State.setRg_bx]

theorem opened (h : QueuesOnly s t) : t.bx.opened = s.bx.opened := by rw [h]

end QueuesOnly

namespace State

/-! ### A closed frame and the queues -/

theorem queuesOnly_pqStart (s : State) (q : Nat) (p : Packet) : QueuesOnly s (s.pqStart q p) := by
  have event (u : State) : (u.pqEvent 160 q).bx = u.bx :=
    (moves_pqEvent (ps := [.out, .regs, .scope]) (List.Subset.refl _) (moves_refl u)).1 .bx (by decide)
  unfold pqStart
  dsimp only
  split
  · exact .of_bx rfl
  · split
    · exact .of_bx (event _)
    · exact .setPq _ _ _

theorem queuesOnly_pqOffer (s : State) (q : Nat) (p : Packet) : QueuesOnly s (s.pqOffer q p) := by
  unfold pqOffer
  split
  · exact .of_bx rfl
  · dsimp only
    split
    · exact .setPq _ _ _
    · exact queuesOnly_pqStart _ _ _

/-- An open frame leaves its template when it closes (R338). -/
theorem openUp_closeUp {s : State} {m : Nat} {o : OpenUp} (x : Option SealMsg) (h : s.openUp m = some o) (k : Nat) :
    (s.closeUp m x).openUp k = if k = m then none else s.openUp k := by
  unfold closeUp
  rw [h]
  dsimp only
  rw [openUp, (queuesOnly_pqOffer _ _ _).opened]
  show Sparse.get (fun _ => (none : Option OpenUp)) (Sparse.set (fun _ => none) s.bx.opened m none) k = _
  by_cases hk : k = m
  · subst hk
    rw [if_pos rfl]
    exact Sparse.get_set_same (fun _ => (none : Option OpenUp)) _ _ _
  · rw [if_neg hk]
    exact Sparse.get_set_ne (fun _ => (none : Option OpenUp)) _ _ hk

theorem openUp_setOpenUp_same (s : State) (m : Nat) (o : Option OpenUp) : (s.setOpenUp m o).openUp m = o :=
  Sparse.get_set_same (fun _ => (none : Option OpenUp)) s.bx.opened m o

/-- A message opens its template's frame, where it waits for more (R338). -/
theorem gwAdd_opens {s : State} {m format : Nat} {bs : List Byte} {hold ts : Nat} (hopen : s.openUp m = none)
    (hhold : 0 < hold) (hmax : 1 < maxMsg (s.activeOf 9) m) : s.gwAdd m format bs hold ts none =
      s.setOpenUp m (some ⟨s.activeOf 9, format, [bs], s.now + 1000 * hold, ts⟩) := by
  unfold gwAdd
  rw [hopen]
  dsimp only
  rw [hopen]
  dsimp only
  rw [if_neg (by simp only [Option.isSome_none, Bool.false_eq_true, false_or, List.length_singleton]; omega)]

/-! ### Objects that the gateway writes -/

theorem cansOnly_canReq (s : State) (c o : Nat) : CansOnly s (s.canReq c o) := by
  unfold canReq
  dsimp only
  split
  · exact .refl s
  · split
    · exact .of_bx (objEnds_bx _ _ _ _)
    · exact .of_bx ((moves_localTx (ps := [.out, .regs, .scope, .pw, .ob, .aon]) (List.Subset.refl _)
        (moves_setStatus (by decide) (moves_refl s))).1 .bx (by decide))

theorem cansOnly_canCancel (s : State) (c o : Nat) : CansOnly s (s.canCancel c o) := by
  unfold canCancel
  split
  · exact .refl s
  · split
    · dsimp only
      refine .trans ?_ (.of_bx (objEnds_bx _ _ _ _))
      split
      · exact .setCan _ _ _
      · exact .refl s
    · exact .of_bx rfl
    · exact .refl s

theorem cansOnly_putData (s : State) (c o : Nat) (bs : List Byte) : CansOnly s (s.putData c o bs) := by
  have written (l : List (Nat × Nat)) (f : State → Nat × Nat → State) (hf : ∀ u x, (f u x).bx = u.bx) (u : State) :
      (u.forEach l f).bx = u.bx := by
    induction l generalizing u with
    | nil => rfl
    | cons a l ih => exact (ih (f u a)).trans (hf u a)
  have good (u : State) (words : List Nat) : CansOnly u (u.ramGood c words) := .setCan u c _
  unfold putData
  dsimp only
  refine .trans (.of_bx (written _ _ ?_ s)) (good _ _)
  exact fun _ _ => rfl

theorem cansOnly_gwTarget {s : State} {write : State → State} (hw : ∀ u, CansOnly u (write u)) (c o : Nat) (q : Option Nat)
    (r : Nat) (replace : Bool) : CansOnly s (s.gwTarget c o q r replace write).1 := by
  have event (u : State) : ((u.bump F.BX_GW_TX_BUSY_COUNT).gwEvent 163 q (some r)).bx = u.bx :=
    (moves_gwEvent (ps := [.out, .regs, .scope]) (List.Subset.refl _) (moves_bump (by decide) (moves_refl u))).1 .bx
      (by decide)
  unfold gwTarget
  dsimp only
  split
  · exact .of_bx rfl
  · split
    · exact .of_bx (event s)
    · split
      · exact ((cansOnly_canCancel _ _ _).trans (hw _)).trans (cansOnly_canReq _ _ _)
      · exact .of_bx (event s)
    · exact (hw _).trans (cansOnly_canReq _ _ _)

theorem cansOnly_gwWriteFrame (c o : Nat) (f : CanFrame) (s : State) : CansOnly s (s.gwWriteFrame c o f) :=
  .trans (.of_bx rfl) (cansOnly_putData _ _ _ _)

theorem cansOnly_gwWritePdu (c o id ide : Nat) (data : List Byte) (s : State) :
    CansOnly s (s.gwWritePdu c o id ide data) :=
  .trans (.trans (t := s.wr (R.BX_CAN_OBJ_W1 c o) (Word.ofNat (id + 2 ^ 29 * ide))) (.of_bx rfl) (cansOnly_putData _ c o data))
    (.of_bx rfl)

theorem gwEvent_moves (s : State) (ev : Nat) (q r : Option Nat) : moves [.out, .regs, .scope] s (s.gwEvent ev q r) :=
  moves_gwEvent (List.Subset.refl _) (moves_refl s)

theorem badAcf_bx (s : State) (q : Nat) (r : Option Nat) : (s.badAcf q r).bx = s.bx :=
  (gwEvent_moves _ _ _ _).1 .bx (by decide)

/-- The messages of a packet change no queue and no turn (R341). -/
theorem cansOnly_downMsg (s : State) (q : Nat) (p : Packet) (i : Nat) (m : GwMsg) : CansOnly s (s.downMsg q p i m) := by
  have bad (r : Option Nat) (u : State) : CansOnly u (u.badAcf q r) := .of_bx (badAcf_bx u q r)
  unfold downMsg
  dsimp only
  split
  · exact bad _ s
  · split
    · exact .of_bx ((gwEvent_moves _ _ _ _).1 .bx (by decide))
    · next r _ =>
      have hit : CansOnly s ((s.bump (F.BX_GW_HITS_COUNT r)).bump F.BX_GW_DOWN_MSGS_COUNT) := .of_bx rfl
      generalize (s.bump (F.BX_GW_HITS_COUNT r)).bump F.BX_GW_DOWN_MSGS_COUNT = u at hit ⊢
      refine hit.trans ?_
      split
      · split
        · exact .of_bx rfl
        · split
          · split
            · exact cansOnly_gwTarget (cansOnly_gwWriteFrame _ _ _) _ _ _ _ _
            · exact bad _ u
          · exact cansOnly_gwTarget (cansOnly_gwWriteFrame _ _ _) _ _ _ _ _
      · split
        · exact .of_bx rfl
        · split
          · exact bad _ u
          · refine .trans ?_ (cansOnly_gwTarget (cansOnly_gwWritePdu _ _ _ _ _) _ _ _ _ _)
            split
            · exact .of_bx rfl
            · exact .refl u
      · exact .refl u

theorem cansOnly_downMsgs (s : State) (q : Nat) (p : Packet) (i : Nat) (l : List GwMsg) :
    CansOnly s (s.downMsgs q p i l) := by
  induction l generalizing s i with
  | nil => exact .refl s
  | cons m l ih => exact (cansOnly_downMsg s q p i m).trans (ih _ _)

/-! ### Lookups -/

theorem objFrame_congr {s t : State} (hr : t.regs = s.regs) {c : Nat} (hrf : t.canRf c = s.canRf c) (o n : Nat) :
    t.objFrame c o n = s.objFrame c o n := by
  have hrg (f : Fld) : t.rg f = s.rg f := rg_congr hr f
  have hrd (a : Nat) : t.rd a = s.rd a := rd_congr hr a
  unfold objFrame objData
  simp only [hrg, hrd, hrf]

theorem objBadWord_congr {s t : State} {c : Nat} (hrf : t.canRf c = s.canRf c) (hbad : (t.canOf c).bad = (s.canOf c).bad)
    (o n : Nat) : t.objBadWord c o n = s.objBadWord c o n := by
  have hram (w : Nat) : t.ramBad c w = s.ramBad c w := by rw [ramBad, ramBad, hbad]
  rw [objBadWord, objBadWord, objWords, objWords, hrf, funext hram]

theorem upRoute_congr {s t : State} (h : t.active = s.active) (c : Nat) (f : CanFrame) : t.upRoute c f = s.upRoute c f := by
  rw [upRoute, upRoute, activeOf_congr h]

theorem canAck_moves (s : State) (c o : Nat) : moves [.regs] s (s.canAck c o) :=
  moves_canAck (List.Subset.refl _) (moves_refl s)

/-- The gateway acknowledges the object and counts its frame. -/
def upAcked (s : State) (c o : Nat) : State := (s.canAck c o).bump F.BX_GW_UP_FRAMES_COUNT

theorem upAcked_moves (s : State) (c o : Nat) : moves [.regs] s (s.upAcked c o) :=
  moves_bump (List.Subset.refl _) (canAck_moves s c o)

/-- A frame without a route (R333). -/
theorem upFrame_noRoute {s : State} {c o ecc word : Nat}
    (h : s.upRoute c (s.objFrame c o (s.rg (F.BX_CAN_OBJ_W3_LEN c o))) = none) : s.upFrame c o ecc word =
      ((s.upAcked c o).bump F.BX_GW_UP_NOROUTE_COUNT).gwEvent 162 none none := by
  unfold upFrame
  dsimp only
  rw [← upAcked, upRoute_congr ((upAcked_moves s c o).1 .active (by decide)), h]

/-- A frame with a route whose data can be read (R333). -/
theorem upFrame_routed {s : State} {c o r word : Nat} {f : CanFrame} (hf : f = s.objFrame c o (s.rg (F.BX_CAN_OBJ_W3_LEN c o)))
    (hr : s.upRoute c f = some r) (hbad : s.objBadWord c o f.data.length = none) : s.upFrame c o 0 word =
      (((s.upAcked c o).bump (F.BX_GW_HITS_COUNT r)).upCopy r f).upSend c r f (s.rd64 (R.BX_CAN_OBJ_W5 c o)) := by
  unfold upFrame
  dsimp only
  rw [← hf, ← upAcked, upRoute_congr ((upAcked_moves s c o).1 .active (by decide)), hr]
  dsimp only
  rw [objEcc, hbad]
  dsimp only
  rw [if_neg (by decide)]
  rfl

/-- An UP frame of a route with HOLD opens its template's frame (R334, R336, R338). -/
theorem upSend_opens {s : State} {c r fbtc : Nat} {f : CanFrame} (hkind : s.act (F.BX_GW_ROUTE_W2_KIND r) ≠ 1)
    (hfm : f.format ≠ 2) (hseal : s.act (F.BX_GW_ROUTE_W6_SEAL r) ≠ 1) (hhold : 0 < s.act (F.BX_GW_ROUTE_W3_HOLD r))
    (hopen : s.openUp (s.act (F.BX_GW_ROUTE_W2_TMPL r)) = none)
    (hmax : 1 < maxMsg (s.activeOf 9) (s.act (F.BX_GW_ROUTE_W2_TMPL r))) :
    ∃ v u, moves [.freeN] s v ∧ u.msgs.length = 1 ∧ u.deadline = s.now + 1000 * s.act (F.BX_GW_ROUTE_W3_HOLD r) ∧
      s.upSend c r f fbtc = v.setOpenUp (s.act (F.BX_GW_ROUTE_W2_TMPL r)) (some u) := by
  have hm : moves [.freeN] s (s.gwTime fbtc).1 := moves_gwTime (List.Subset.refl _) (moves_refl s)
  unfold upSend
  dsimp only
  generalize s.gwTime fbtc = x at hm ⊢
  obtain ⟨v, ts⟩ := x
  dsimp only at hm ⊢
  have hnow : v.now = s.now := hm.1 .now (by decide)
  have hopen' : v.openUp (s.act (F.BX_GW_ROUTE_W2_TMPL r)) = none := by
    rw [openUp, hm.1 .bx (by decide)]
    exact hopen
  have hmax' : 1 < maxMsg (v.activeOf 9) (s.act (F.BX_GW_ROUTE_W2_TMPL r)) := by
    rw [activeOf_congr (hm.1 .active (by decide))]
    exact hmax
  unfold act at hkind hseal hhold hopen' hmax' ⊢
  rw [if_neg hkind, if_neg hfm, if_neg hseal]
  exact ⟨v, _, hm, rfl, by dsimp only; rw [hnow], gwAdd_opens hopen' hhold hmax'⟩

/-- A frame without a route is acknowledged, counted and told (R333). -/
theorem upFrame_noRoute_shows {s : State} {c o : Nat} (ho : o < 128) (hu : s.socUp = true)
    (hrx : canIs (s.canRf c) c o 0 = true) :
    let t := ((s.upAcked c o).bump F.BX_GW_UP_NOROUTE_COUNT).gwEvent 162 none none
    t.bx = s.bx ∧ t.objStatus c o = 0 ∧ t.evSet 162 = true ∧
      t.rg F.BX_GW_UP_NOROUTE_COUNT = min (s.rg F.BX_GW_UP_NOROUTE_COUNT + 1) (2 ^ 32 - 1) := by
  have acked : s.canAck c o = (s.setStatus c o 0).setRg (F.BX_CAN_OBJ_W0_OVR c o) 0 := by rw [canAck, if_pos hrx]
  have hm := upAcked_moves s c o
  have hup : (s.upAcked c o).socUp = true := (socUp_congr (hm.1 .pw (by decide))).trans hu
  have hstatus : (s.upAcked c o).objStatus c o = 0 := by
    rw [upAcked, acked, objStatus, rg_bump_other _ _ _ _ (by decide) (by simp) (.inl (by dsimp only; omega)),
      rg_setRg_other _ _ _ _ (by simp) (by simp) (.inr (.inr (by simp))), setStatus, rg_setRg_self _ _ _ (by simp)]
    exact Nat.zero_mod _
  have hcount : (s.upAcked c o).rg F.BX_GW_UP_NOROUTE_COUNT = s.rg F.BX_GW_UP_NOROUTE_COUNT := by
    rw [upAcked, acked, rg_bump_other _ _ _ _ (by decide) (by decide) (by decide),
      rg_setRg_other _ _ _ _ (by simp) (by decide) (.inl (by dsimp only; omega)), setStatus,
      rg_setRg_other _ _ _ _ (by simp) (by decide) (.inl (by dsimp only; omega))]
  have hbx : (s.upAcked c o).bx = s.bx := hm.1 .bx (by decide)
  dsimp only
  generalize s.upAcked c o = u at hup hstatus hcount hbx ⊢
  have told : (u.bump F.BX_GW_UP_NOROUTE_COUNT).gwEvent 162 none none = (u.bump F.BX_GW_UP_NOROUTE_COUNT).raise 162 := rfl
  rw [told]
  refine ⟨(raise_bx _ _ _).trans hbx, ?_, evSet_raise_self _ 162 _ hup, ?_⟩
  · rw [objStatus, rg_raise_other _ _ _ _ (by dsimp only; omega),
      rg_bump_other _ _ _ _ (by decide) (by simp) (.inl (by dsimp only; omega)), ← objStatus, hstatus]
  · rw [rg_raise_other _ _ _ _ (by decide), rg_bump_self _ _ _ (by decide), hcount]

theorem gwOn_socUp {s : State} (h : s.gwOn = true) : s.socUp = true := (Bool.and_eq_true_iff.mp h).1

/-- The turn of the DOWN queues moves on. -/
def withDownRr (s : State) (n : Nat) : State := { s with bx.downRr := n }

theorem withDownRr_bx (s : State) (n : Nat) : (s.withDownRr n).bx = { s.bx with downRr := n } := rfl

end State

open State in
/-- Settles O43: the frame is looked up once; the queues and the turn outlive what a packet's messages do. -/
theorem gatewayCommands : Obligations.GatewayCommands := by
  unfold Obligations.GatewayCommands
  refine ⟨fun c o word rest s hc ho hon hrx hcan hroute => ?noRoute,
    fun c o r m word rest f s hc ho hon hrx hf hroute hbad hfm hcopy hkind hseal hhold hm hopen hmax => ?opens,
    fun m u s hm hon hopen => ?deadline, fun q errs s hq hon hdown hready => ?empty,
    fun q p rest s hq hon hdown hready hturn => ?packet⟩
  case noRoute =>
    show ∃ t, execGwRouteLookup _ _ _ s = _ ∧ _
    rw [execGwRouteLookup, decide_eq_true hc, only_true, hon, hrx]
    dsimp only
    have hcan' := canOf_setCan_same s c { s.canOf c with gwRx := rest }
    have hregs : (s.setCan c { s.canOf c with gwRx := rest }).regs = s.regs := rfl
    have hact : (s.setCan c { s.canOf c with gwRx := rest }).active = s.active := rfl
    have hpw : (s.setCan c { s.canOf c with gwRx := rest }).pw = s.pw := rfl
    generalize s.setCan c { s.canOf c with gwRx := rest } = u at hcan' hregs hact hpw ⊢
    have hrf : u.canRf c = s.canRf c := canRf_congr (by rw [hcan']) hact
    obtain ⟨hbx, hstatus, hev, hcount⟩ := upFrame_noRoute_shows (s := u) ho
      ((socUp_congr hpw).trans (gwOn_socUp hon)) (by rw [hrf]; exact hcan)
    rw [upFrame_noRoute (by rw [objFrame_congr hregs hrf, upRoute_congr hact, rg_congr hregs]; exact hroute)]
    refine ⟨_, rfl, ?_, hstatus, hev, ?_⟩
    · rw [canOf_congr hbx, hcan']
    · rw [hcount, rg_congr hregs]
  case opens =>
    show ∃ t u, execGwRouteLookup _ _ _ s = _ ∧ _
    rw [execGwRouteLookup, decide_eq_true hc, only_true, hon, hrx]
    dsimp only
    have hcan' := canOf_setCan_same s c { s.canOf c with gwRx := rest }
    have hregs : (s.setCan c { s.canOf c with gwRx := rest }).regs = s.regs := rfl
    have hact : (s.setCan c { s.canOf c with gwRx := rest }).active = s.active := rfl
    have hnow : (s.setCan c { s.canOf c with gwRx := rest }).now = s.now := rfl
    have hopened : (s.setCan c { s.canOf c with gwRx := rest }).bx.opened = s.bx.opened := rfl
    generalize s.setCan c { s.canOf c with gwRx := rest } = u at hcan' hregs hact hnow hopened ⊢
    have hrf : u.canRf c = s.canRf c := canRf_congr (by rw [hcan']) hact
    have hfound : f = u.objFrame c o (u.rg (F.BX_CAN_OBJ_W3_LEN c o)) := by
      rw [objFrame_congr hregs hrf, rg_congr hregs]
      exact hf
    rw [upFrame_routed hfound (by rw [upRoute_congr hact]; exact hroute)
      (by rw [objBadWord_congr hrf (by rw [hcan'])]; exact hbad)]
    have hacked := moves_bump (x1 := F.BX_GW_HITS_COUNT r) (x2 := 1) (ps := [.regs]) (List.Subset.refl _) (upAcked_moves u c o)
    generalize (u.upAcked c o).bump (F.BX_GW_HITS_COUNT r) = v at hacked ⊢
    have hactive : v.active = s.active := (hacked.1 .active (by decide)).trans hact
    have hv (g : Fld) : v.act g = s.act g := by rw [act, act, activeOf_congr hactive]
    have hcopied : v.upCopy r f = v := by
      unfold upCopy
      dsimp only
      exact if_pos ((hv _).trans hcopy)
    rw [hcopied]
    have hvopen : v.openUp (v.act (F.BX_GW_ROUTE_W2_TMPL r)) = none := by
      rw [hv, ← hm, openUp, hacked.1 .bx (by decide), hopened]
      exact hopen
    obtain ⟨w, x, hw, hlen, hdead, hsend⟩ := upSend_opens (s := v) (c := c) (f := f) (fbtc := u.rd64 (R.BX_CAN_OBJ_W5 c o))
      (by rw [hv]; exact hkind) hfm (by rw [hv]; exact hseal) (by rw [hv]; exact hhold) hvopen
      (by rw [hv, ← hm, activeOf_congr hactive]; exact hmax)
    rw [hsend, hv, ← hm]
    refine ⟨_, x, rfl, ?_, openUp_setOpenUp_same w m (some x), hlen, ?_⟩
    · show (w.canOf c).gwRx = rest
      rw [canOf_congr ((hw.1 .bx (by decide)).trans (hacked.1 .bx (by decide))), hcan']
    · rw [hdead, hv, hacked.1 .now (by decide), hnow]
  case deadline =>
    show ∃ t, execGwHoldDeadline _ s = _ ∧ _
    rw [execGwHoldDeadline, decide_eq_true hm, only_true, if_pos hon]
    refine ⟨_, rfl, ?_, fun k hk => ?_⟩
    · rw [openUp_closeUp none hopen, if_pos rfl]
    · rw [openUp_closeUp none hopen, if_neg hk]
  case empty =>
    show execGwDownPacket _ _ s = _
    rw [execGwDownPacket, decide_eq_true hq, only_true, if_neg (by rw [hon, hdown]; decide), hready]
  case packet =>
    show ∃ t, execGwDownPacket _ _ s = _ ∧ _
    rw [execGwDownPacket, decide_eq_true hq, only_true, if_neg (by rw [hon, hdown]; decide), hready]
    dsimp only
    rw [hturn, if_neg (not_not.mpr rfl), if_neg (by decide)]
    obtain ⟨hpq, hregs, hpw⟩ := pqTake_shows s p rest hq
    generalize s.pqTake q p rest [] = u at hpq hregs hpw ⊢
    have hput : (u.withDownRr ((q + 1) % 16)).pqOf q = u.pqOf q := rfl
    have hrr : (u.withDownRr ((q + 1) % 16)).bx.downRr = (q + 1) % 16 := rfl
    have hpw' : (u.withDownRr ((q + 1) % 16)).pw = s.pw := hpw
    have hcount : (u.withDownRr ((q + 1) % 16)).rg F.BX_GW_BAD_ACF_COUNT = s.rg F.BX_GW_BAD_ACF_COUNT := hregs
    show ∃ t, Host.Outcome.next ((u.withDownRr ((q + 1) % 16)).downMsgs q p 0 (gwMessages p.bytes)) = _ ∧ _
    generalize u.withDownRr ((q + 1) % 16) = v at hput hrr hpw' hcount ⊢
    have honly := cansOnly_downMsgs v q p 0 (gwMessages p.bytes)
    refine ⟨_, rfl, ?_, ?_, fun hbad => ?_⟩
    · rw [pqOf, honly.pq, ← pqOf, hput, hpq]
    · rw [honly.downRr, hrr]
    · have hup : v.socUp = true := (socUp_congr hpw').trans (gwOn_socUp hon)
      rw [hbad]
      show (v.badAcf q none).evSet 166 = true ∧ (v.badAcf q none).rg F.BX_GW_BAD_ACF_COUNT = _
      refine ⟨evSet_raise_self _ 166 _ hup, ?_⟩
      show (((v.bump F.BX_GW_BAD_ACF_COUNT).setRg F.BX_GW_EV_LAST_PQ q).raise 166).rg F.BX_GW_BAD_ACF_COUNT = _
      rw [rg_raise_other _ _ _ _ (by decide), rg_setRg_other _ _ _ _ (by decide) (by decide) (by decide),
        rg_bump_self _ _ _ (by decide), hcount]

end Sys2Proof.Machine
end

section
/-!
PROOFS. Transit parity errors, the adoption of an epoch, and what patrol scrubbing finds (R28, R125, R187, R225, R317,
R464).
-/

namespace Sys2Proof.Machine

namespace State

/-! ### What the end of a drain leaves of the pipeline's state -/

section
variable {β : Type} {g : FxState → β}
  (hfdb : ∀ x m, g { x with fdb := m } = g x) (hcur : ∀ x m, g { x with current := m } = g x)
  (hlim : ∀ x m, g { x with limHigh := m } = g x)
include hfdb hlim

theorem fx_forget (s : State) (n : Nat) : g (s.forget n).fx = g s.fx := by
  unfold forget
  split
  · dsimp only
    split
    · exact (hlim _ _).trans (hfdb _ _)
    · exact hfdb _ _
  · rfl

include hcur

omit hlim in
theorem fx_copyOver (s : State) (set : Nat) : g (s.copyOver set).fx = g s.fx := by
  have shadows : g (s.forEach (maskList set 18) (fun t d => t.setShadow d (t.activeOf d))).fx = g s.fx :=
    forEach_keeps (fun t => g t.fx) (fun t d => t.setShadow d (t.activeOf d)) (fun _ _ => rfl) _ s
  unfold copyOver
  dsimp only
  split
  · refine (forEach_keeps (fun t => g t.fx) (fun u p => u.setCurrent 1 p (u.pgCurrent 0 p)) (fun _ _ => hcur _ _) _ _).trans ?_
    exact (forEach_keeps (fun t => g t.fx) (fun t (e : Nat × FdbEntry) => t.setFdb e.1 (if e.2.inActive then
      some { e.2 with inOther := true } else none)) (fun _ _ => hfdb _ _) _ _).trans shadows
  · exact shadows

/-- The end of a drain frees static entries and renews the other copy of the path groups; of the pipeline's state nothing
else moves (R113, R203). -/
theorem fx_drainDone (s : State) : g s.drainDone.fx = g s.fx := by
  have copied : g s.recopyDue.fx = g s.fx := by
    unfold recopyDue
    split
    · exact fx_copyOver hfdb hcur s _
    · rfl
  have judged (u : State) : (if u.drained = true ∧ u.swapped.testBit 2 = true then u.judgeRsv else u).fx = u.fx := by
    split
    · exact judgeRsv_fx u
    · rfl
  unfold drainDone noteDrain
  dsimp only
  split
  · rw [staticsDrained, forEach_keeps (fun t => g t.fx) (fun t (e : Nat × FdbEntry) => t.forget e.1)
      (fun t e => fx_forget hfdb hlim t e.1), judged, copied]
  · rw [judged, copied]

theorem fx_drainUnless (s : State) (was : Bool) : g (s.drainUnless was).fx = g s.fx := by
  unfold drainUnless
  split
  · rfl
  · exact fx_drainDone hfdb hcur hlim s

end

/-! ### A fault counts in its class -/

theorem rg_faultMerge_count (s : State) (k : Nat) {c : Nat} (hc : c < 32) :
    (s.faultMerge k).rg (F.SV_FLT_COUNT_COUNT c) = s.rg (F.SV_FLT_COUNT_COUNT c) := by
  unfold faultMerge
  dsimp only
  rw [rg_setRg_other _ _ _ _ (by simp) (by simp) (.inl (by dsimp only; omega)),
    rg_bump_other _ _ _ _ (by simp) (by simp) (.inl (by dsimp only; omega))]

theorem rg_faultNew_count (s : State) (cls unit addr : Nat) {c : Nat} (hc : c < 32) :
    (s.faultNew cls unit addr).rg (F.SV_FLT_COUNT_COUNT c) = s.rg (F.SV_FLT_COUNT_COUNT c) := by
  unfold faultNew
  dsimp only
  have kept : (if s.rg (F.SV_FLT_REC_W0_CLASS (s.rg F.SV_FLT_HEAD_NEXT)) ≠ 0 then
      s.bump F.SV_FLT_OVERWRITTEN_COUNT else s).rg (F.SV_FLT_COUNT_COUNT c) = s.rg (F.SV_FLT_COUNT_COUNT c) := by
    split
    · exact rg_bump_other _ _ _ _ (by simp) (by simp) (.inl (by dsimp only; omega))
    · rfl
  generalize (if s.rg (F.SV_FLT_REC_W0_CLASS (s.rg F.SV_FLT_HEAD_NEXT)) ≠ 0 then
      s.bump F.SV_FLT_OVERWRITTEN_COUNT else s) = u at kept ⊢
  generalize s.rg F.SV_FLT_HEAD_NEXT = k
  rw [rg_raise_other _ _ _ _ (by dsimp only; omega),
    rg_setRg_other _ _ _ _ (by simp) (by simp) (.inl (by dsimp only; omega)),
    rg_tick_other _ _ _ _ (by simp) (by simp) (.inl (by dsimp only; omega)),
    rg_setRg_other _ _ _ _ (by simp) (by simp) (.inl (by dsimp only; omega))]
  iterate 8 rw [rg_wr_other _ _ _ _ (by simp only [R.SV_FLT_REC_W0, R.SV_FLT_REC_W1, R.SV_FLT_REC_W2, R.SV_FLT_REC_W3,
    R.SV_FLT_REC_W4, R.SV_FLT_REC_W5, R.SV_FLT_REC_W6, R.SV_FLT_REC_W7]; omega)]
  exact kept

/-- A fault adds 1 to the count of its class (R510). -/
theorem rg_fault_count (s : State) {cls : Nat} (unit addr lost : Nat) (hc : cls < 32) :
    (s.fault cls unit addr lost).rg (F.SV_FLT_COUNT_COUNT cls) =
      min (s.rg (F.SV_FLT_COUNT_COUNT cls) + 1) (2 ^ (F.SV_FLT_COUNT_COUNT cls).wid - 1) := by
  have counted : (s.bump (F.SV_FLT_COUNT_COUNT cls)).rg (F.SV_FLT_COUNT_COUNT cls) =
      min (s.rg (F.SV_FLT_COUNT_COUNT cls) + 1) (2 ^ (F.SV_FLT_COUNT_COUNT cls).wid - 1) :=
    rg_bump_self s (F.SV_FLT_COUNT_COUNT cls) 1 (by simp)
  rw [← counted]
  unfold fault
  dsimp only
  generalize s.bump (F.SV_FLT_COUNT_COUNT cls) = u
  have noted (p : Prop) (i : Decidable p) (k : Nat) :
      (if p then u.faultMerge k else u.faultNew cls unit addr).rg (F.SV_FLT_COUNT_COUNT cls) =
        u.rg (F.SV_FLT_COUNT_COUNT cls) := by
    split
    · exact rg_faultMerge_count u k hc
    · exact rg_faultNew_count u cls unit addr hc
  split
  · rw [rg_ledgerAdd _ _ _ _ (by dsimp only; omega) (by dsimp only; omega)]
    exact noted _ _ _
  · exact noted _ _ _

/-- A register past SV's block stays over a fault. -/
theorem rg_fault_upper (s : State) {cls : Nat} (unit addr lost : Nat) (hc : cls < 256) (f : Fld) (hf : 0x1000000 ≤ f.off) :
    (s.fault cls unit addr lost).rg f = s.rg f :=
  (regsWithin_fault_sv s hc unit addr lost).rg f (by omega) (.inr (by omega))

/-- An error counted in a register past SV's block, and then noted as a fault. -/
theorem rg_bump_fault (s : State) {cls : Nat} (unit addr : Nat) (hc : cls < 256) (f : Fld) (hf : 0x1000000 ≤ f.off)
    (hw : f.lo + f.wid ≤ 32) : ((s.bump f).fault cls unit addr).rg f = min (s.rg f + 1) (2 ^ f.wid - 1) := by
  rw [rg_fault_upper _ _ _ _ hc f hf, rg_bump_self s f 1 hw]

/-! ### Parity -/

/-- What a parity error of a unit with `n` recent ones leaves of the stages that stall. -/
theorem parityStorm_fx (s : State) (unit : Nat) :
    (s.parityStorm unit).fx = { s.fx with stalled := setBit s.fx.stalled unit } := by
  have dropped (l : List Nat) : (s.forEach l (fun t id => t.dropFrame id 4)).fx = s.fx :=
    forEach_keeps (fun t : State => t.fx) (fun t id => t.dropFrame id 4) (fun u id =>
      (moves_dropFrame (ps := [.freeN, .out, .regs, .scope, .sx, .ob, .cx, .mx]) (List.Subset.refl _)
        (moves_refl u)).1 .fx (by decide)) l s
  unfold parityStorm
  dsimp only
  rw [(fault_moves _ _ _ _ _).1 .fx (by decide), dropped]

/-- The recent parity errors of a unit are these. -/
def parityNoted (s : State) (unit : Nat) (l : List Nat) : State :=
  { s with fx.parityAt := Sparse.set (fun _ => []) s.fx.parityAt unit l }

theorem parityNoted_at (s : State) (unit : Nat) (l : List Nat) :
    Sparse.get (fun _ => []) (s.parityNoted unit l).fx.parityAt unit = l := Sparse.get_set_self _ _ _ _

/-- A parity error of a unit: the frame that it met, noted with its port, and the eighth one in a row. -/
theorem execTransitParityError_eq {unit : Nat} (hunit : unit < 65536) (id : Nat) (s : State) :
    ∃ port, execTransitParityError unit id s = .next
      (if (s.now :: s.parityOf unit).length ≥ 8 then
        ((((s.setDrop id).fault 0x01 unit port).parityNoted unit []).parityStorm unit).drainUnless s.drained
      else ((s.setDrop id).fault 0x01 unit port).parityNoted unit (s.now :: s.parityOf unit)) :=
  ⟨_, by rw [execTransitParityError, decide_eq_true hunit, only_true]; rfl⟩

/-- The frame that an error met becomes DROP, no other. -/
theorem setDrop_shows {s : State} {id : Nat} {f : Frame} (hf : s.frameOf id = some f) :
    (s.setDrop id).frameOf id = some { f with verdict := .drop } ∧
      ∀ k, k ≠ id → (s.setDrop id).frameOf k = s.frameOf k := by
  rw [setDrop, modFrame_some s id _ hf]
  exact ⟨frameOf_setFrame_same s id _, fun k hk => frameOf_setFrame_ne s _ hk⟩

theorem setDrop_moves (s : State) (id : Nat) : moves [.sx] s (s.setDrop id) :=
  moves_setDrop (List.Subset.refl _) (moves_refl s)

theorem portEpoch_congr {s t : State} (h : t.epochs = s.epochs) (p : Nat) : t.portEpoch p = s.portEpoch p := by
  rw [portEpoch, portEpoch, h]

/-! ### Scrubbing -/

/-- A learned entry that is forgotten leaves its slot. -/
theorem fdbAt_forget {s : State} {slot : Nat} {e : FdbEntry} (he : s.fdbAt slot = some e) :
    (s.forget slot).fdbAt slot = none := by
  unfold forget
  rw [he]
  dsimp only
  have gone : (s.setFdb slot none).fdbAt slot = none := Sparse.get_set_self (fun _ => none) s.fx.fdb slot none
  split
  · exact gone
  · exact gone

theorem fdbAt_congr {s t : State} (h : t.fx = s.fx) (n : Nat) : t.fdbAt n = s.fdbAt n := by rw [fdbAt, fdbAt, h]

theorem entryOk_congr {s t : State} (h : t.fx = s.fx) (tbl i : Nat) : t.entryOk tbl i = s.entryOk tbl i := by
  rw [entryOk, entryOk, h]

theorem forget_moves (s : State) (n : Nat) : moves [.fx] s (s.forget n) :=
  moves_forget (List.Subset.refl _) (moves_refl s)

/-- A table's uncorrectable error, with what it put out of use already: its count and its event. -/
theorem tableUe_shows {s : State} (hu : s.socUp = true) (tbl slot : Nat) :
    (((s.bump F.FX_TBL_UE_COUNT).raise 102).fault 0x09 tbl slot).rg F.FX_TBL_UE_COUNT =
        min (s.rg F.FX_TBL_UE_COUNT + 1) (2 ^ 32 - 1) ∧
      (((s.bump F.FX_TBL_UE_COUNT).raise 102).fault 0x09 tbl slot).evSet 102 = true ∧
      (((s.bump F.FX_TBL_UE_COUNT).raise 102).fault 0x09 tbl slot).fx = s.fx := by
  refine ⟨?_, ?_, ?_⟩
  · rw [rg_fault_upper _ _ _ _ (by decide) _ (by decide), rg_raise_other _ _ _ _ (by decide), rg_bump_self _ _ _ (by decide)]
  · refine (regsWithin_fault_sv _ (by decide) _ _ _).events _ (by decide) (evSet_raise_self _ _ _ ?_)
    rwa [socUp_bump]
  · rw [(fault_moves _ _ _ _ _).1 .fx (by decide), raise_fx, bump_fx]

/-- A code word of message RAM that can not be corrected, with its mark and its count; no other controller changes. -/
theorem ramUe_shows {s : State} {c : Nat} (hc : c < 16) (w : Nat) :
    (((s.ramLost c w).bump (F.BX_CAN_ECC_UE_COUNT c)).fault 0x0B c w).ramBad c w = true ∧
      (∀ k < 16, k ≠ c → (((s.ramLost c w).bump (F.BX_CAN_ECC_UE_COUNT c)).fault 0x0B c w).canOf k = s.canOf k) ∧
      (((s.ramLost c w).bump (F.BX_CAN_ECC_UE_COUNT c)).fault 0x0B c w).rg (F.BX_CAN_ECC_UE_COUNT c) =
        min (s.rg (F.BX_CAN_ECC_UE_COUNT c) + 1) (2 ^ 32 - 1) := by
  have hbx : (((s.ramLost c w).bump (F.BX_CAN_ECC_UE_COUNT c)).fault 0x0B c w).bx = (s.ramLost c w).bx :=
    ((fault_moves _ _ _ _ _).1 .bx (by decide)).trans (bump_bx _ _ _)
  refine ⟨?_, fun k hk hne => ?_, ?_⟩
  · rw [ramBad, canOf_congr hbx]
    exact ramLost_bad s c w
  · rw [canOf_congr hbx, ramLost, canOf, setCan]
    exact Sparse.get_set_other _ _ _ hne
  · exact rg_bump_fault (s.ramLost c w) c w (by decide) (F.BX_CAN_ECC_UE_COUNT c) (by dsimp only; omega) (by simp)

/-- The scrubber passes over a memory of a die that is up, where it finds an error. -/
theorem scrub_goesOn {s : State} (hu : s.socUp = true) {kind : Nat} (hk : kind ≠ 0) :
    ¬((!s.socUp) = true ∨ kind = 0) := by
  simp [hu, hk]

/-- A word that tests as sound is put out of use in a configured table, and counts (R225). -/
theorem scrubTable_puts {s : State} {entry : Nat} (hu : s.socUp = true) (hok : s.entryOk 0x39 entry = true) :
    (s.scrubTable 0x39 entry true).entryOk 0x39 entry = false ∧ (s.scrubTable 0x39 entry true).evSet 102 = true := by
  have h : s.scrubTable 0x39 entry true =
      ((({ s with fx.badEntries := s.fx.badEntries ++ [(0x39, entry)] } : State).bump F.FX_TBL_UE_COUNT).raise 102).fault
        0x09 0x39 entry := by
    rw [scrubTable, hok]
    rfl
  rw [h]
  obtain ⟨_, hev, hfx⟩ := tableUe_shows (s := { s with fx.badEntries := s.fx.badEntries ++ [(0x39, entry)] }) hu 0x39 entry
  refine ⟨?_, hev⟩
  rw [entryOk_congr hfx]
  simp [entryOk]

end State

open State in
/-- Settles O20: what a transit parity error, the adoption of an epoch and a patrol scrub do, row by row. -/
theorem parityAndScrub : Obligations.ParityAndScrub := by
  unfold Obligations.ParityAndScrub
  refine ⟨?parity, ?storm, ?resume, ?adoption, ?bankCe, ?bankUe, ?fdbUe, ?ramUe, ?dramCe, ?dramUe, ?tableUe, ?ramCe,
    ?coreUe⟩
  case parity =>
    intro unit id f s hunit hf hl
    show ∃ t, execTransitParityError unit id s = _ ∧ _
    obtain ⟨port, hstep⟩ := execTransitParityError_eq hunit id s
    obtain ⟨hdrop, hrest⟩ := setDrop_shows hf
    have hfault := fault_moves (s.setDrop id) 0x01 unit port 0
    have hcount := rg_fault_count (s.setDrop id) (cls := 0x01) unit port 0 (by decide)
    rw [rg_congr ((setDrop_moves s id).1 .regs (by decide))] at hcount
    have hfx := (hfault.1 .fx (by decide)).trans ((setDrop_moves s id).1 .fx (by decide))
    generalize (s.setDrop id).fault 0x01 unit port = t at hstep hfault hcount hfx
    rw [hstep, if_neg (by rw [List.length_cons]; omega)]
    refine ⟨_, rfl, ?_, fun k hk => ?_, ?_, hcount, parityNoted_at t unit _⟩
    · exact (frameOf_congr (hfault.1 .sx (by decide)) id).trans hdrop
    · exact (frameOf_congr (hfault.1 .sx (by decide)) k).trans (hrest k hk)
    · exact (congrArg FxState.stalled hfx : t.fx.stalled = s.fx.stalled)
  case storm =>
    intro unit id s hunit hl
    show ∃ t, execTransitParityError unit id s = _ ∧ _
    obtain ⟨port, hstep⟩ := execTransitParityError_eq hunit id s
    rw [hstep, if_pos (by rw [List.length_cons]; omega)]
    refine ⟨_, rfl, ?_, ?_⟩
    · rw [fx_drainUnless (g := FxState.stalled) (fun _ _ => rfl) (fun _ _ => rfl) (fun _ _ => rfl), parityStorm_fx]
      exact setBit_testBit _ _
    · rw [fx_drainUnless (g := FxState.parityAt) (fun _ _ => rfl) (fun _ _ => rfl) (fun _ _ => rfl), parityStorm_fx]
      exact parityNoted_at _ unit []
  case resume =>
    intro unit s hunit
    show ∃ t, execParityStormResume unit s = _ ∧ _
    rw [execParityStormResume, decide_eq_true hunit, only_true]
    exact ⟨_, rfl, clrBit_testBit _ _, fun k hk => clrBit_testBit_ne _ hk, fun p hp => by
      cases p with
      | fx => exact absurd List.mem_cons_self hp
      | _ => rfl⟩
  case adoption =>
    intro port s hu hp
    show ∃ t, execEpochAdoption port s = _ ∧ _
    rw [execEpochAdoption, if_pos ⟨hu, hp⟩]
    refine ⟨_, rfl, ?_, fun p hne => ?_⟩
    · rw [portEpoch_congr ((drainDone_moves _).1 .epochs (by decide))]
      exact Sparse.get_set_self _ _ _ _
    · rw [portEpoch_congr ((drainDone_moves _).1 .epochs (by decide))]
      exact Sparse.get_set_other _ _ _ hne
  case bankCe =>
    intro entry s hu
    show ∃ t, execPatrolScrub 0 entry 1 s = _ ∧ _
    rw [execPatrolScrub, if_neg (scrub_goesOn hu (by decide))]
    refine ⟨(s.bump (F.SX_BANK_CE_COUNT (entry / 16384 % 16))).fault 0x03 (entry / 16384 % 16) (entry % 16384), rfl, ?_, ?_⟩
    · rw [(fault_moves _ _ _ _ _).1 .sx (by decide), bump_sx]
    · exact rg_bump_fault s _ _ (by decide) (F.SX_BANK_CE_COUNT (entry / 16384 % 16)) (by dsimp only; omega) (by simp)
  case bankUe =>
    intro entry s hu hout
    show ∃ t, execPatrolScrub 0 entry 2 s = _ ∧ _
    rw [execPatrolScrub, if_neg (scrub_goesOn hu (by decide))]
    refine ⟨(s.bankFence (entry / 16384 % 16) (entry % 16384)).drainUnless s.drained, ?_,
      (bankFence_drives s _ _).of_mend ((drainUnless_moves _ _).1 .mend (by decide))⟩
    dsimp only
    rw [hout]
    rfl
  case fdbUe =>
    intro slot e s hu he hlearned
    show ∃ t, execPatrolScrub 1 slot 2 s = _ ∧ _
    rw [execPatrolScrub, if_neg (scrub_goesOn hu (by decide))]
    have hup : (s.forget slot).socUp = true := (socUp_congr ((forget_moves s slot).1 .pw (by decide))).trans hu
    obtain ⟨hcount, hev, hfx⟩ := tableUe_shows hup 0x31 slot
    rw [rg_congr ((forget_moves s slot).1 .regs (by decide))] at hcount
    have hstep : s.scrubFdb slot true = (((s.forget slot).bump F.FX_TBL_UE_COUNT).raise 102).fault 0x09 0x31 slot := by
      rw [scrubFdb, he]
      dsimp only
      rw [hlearned]
      rfl
    refine ⟨_, congrArg Host.Outcome.next hstep, ?_, hcount, hev⟩
    rw [fdbAt_congr hfx]
    exact fdbAt_forget he
  case ramUe =>
    intro c word s hu hc hw
    show ∃ t, execPatrolScrub 3 (65536 * c + word) 2 s = _ ∧ _
    rw [execPatrolScrub, if_neg (scrub_goesOn hu (by decide))]
    obtain ⟨hbad, hrest, hcount⟩ := ramUe_shows (s := s) hc word
    rw [show (65536 * c + word) / 65536 % 16 = c by omega, show (65536 * c + word) % 65536 = word by omega]
    exact ⟨_, rfl, hbad, hrest, hcount⟩
  case dramCe =>
    intro entry s hu
    show ∃ t, execPatrolScrub 4 entry 1 s = _ ∧ _
    rw [execPatrolScrub, if_neg (scrub_goesOn hu (by decide))]
    refine ⟨(s.bump F.MX_DRAM_CE_COUNT).fault 0x0E 0 entry, ?_, ?_, rg_bump_fault s _ _ (by decide) _ (by decide) (by decide)⟩
    · simp
    · rw [(fault_moves _ _ _ _ _).1 .mx (by decide), bump_mx]
  case dramUe =>
    intro entry s hu h0
    show ∃ t, execPatrolScrub 4 entry 2 s = _ ∧ _
    rw [execPatrolScrub, if_neg (scrub_goesOn hu (by decide))]
    obtain ⟨hev, _, _, hcount, _, haddr⟩ := dramUe_shows entry hu
    rw [if_pos h0] at haddr
    refine ⟨s.dramUe entry, ?_, hev, hcount, haddr⟩
    simp
  case tableUe =>
    intro entry s hu hok
    show ∃ t, execPatrolScrub 0x39 entry 2 s = _ ∧ _
    rw [execPatrolScrub, if_neg (scrub_goesOn hu (by decide))]
    refine ⟨s.scrubTable 0x39 entry true, ?_, scrubTable_puts hu hok⟩
    simp
  case ramCe =>
    intro c word s hu hc hw
    show ∃ t, execPatrolScrub 3 (65536 * c + word) 1 s = _ ∧ _
    rw [execPatrolScrub, if_neg (scrub_goesOn hu (by decide))]
    rw [show (65536 * c + word) / 65536 % 16 = c by omega, show (65536 * c + word) % 65536 = word by omega]
    refine ⟨(s.bump (F.BX_CAN_ECC_CE_COUNT c)).fault 0x0A c word, rfl, ?_, ?_⟩
    · rw [(fault_moves _ _ _ _ _).1 .bx (by decide), bump_bx]
    · exact rg_bump_fault s _ _ (by decide) (F.BX_CAN_ECC_CE_COUNT c) (by dsimp only; omega) (by simp)
  case coreUe =>
    intro entry s hu
    show ∃ t, execPatrolScrub 5 entry 2 s = _ ∧ _
    rw [execPatrolScrub, if_neg (scrub_goesOn hu (by decide))]
    refine ⟨(s.fault 0x10 (entry % 8) (entry / 8)).emit (.accessFault (entry % 8) (entry / 8)), ?_, rfl⟩
    simp

end Sys2Proof.Machine
end

section
/-!
PROOFS. The scheduler: the hand-over of a chosen head, launch times, restored credit (R139, R244, R246, R252, R253).
-/

namespace Sys2Proof.Machine

namespace State

/-- The die queue of q after its spill is judged again holds the same copies, and no other queue changes. -/
theorem toDie_queues (s : State) (q : Nat) :
    ((s.toDie q).queueOf q).die = (s.queueOf q).die ∧ ∀ k, k ≠ q → (s.toDie q).queueOf k = s.queueOf k := by
  unfold toDie
  dsimp only
  generalize (if (s.queueOf q).die.isEmpty = true then 0 else (s.queueOf q).deficit) = d
  split
  · exact ⟨by rw [queueOf_setQueue_same], fun k hk => queueOf_setQueue_ne _ _ hk⟩
  · exact ⟨rfl, fun _ _ => rfl⟩

theorem mqOf_setMq_other (s : State) {p m p' m' : Nat} (l : List Copy) (h : 4 * p' + m' ≠ 4 * p + m) :
    (s.setMq p m l).mqOf p' m' = s.mqOf p' m' := by
  unfold mqOf setMq
  exact Sparse.get_set_other (fun _ => []) s.sx.mqs l h

/-- A drain looks at no queue. -/
theorem drained_setQueue (s : State) (q : Nat) (x : Queue) : (s.setQueue q x).drained = s.drained := rfl

/-- A late head leaves its queue, and no other queue changes (R253). -/
theorem judgeHead_late {s : State} {q : Nat} {c : Copy} {rest : List Copy} (hd : (s.queueOf q).die = c :: rest)
    (hl : s.launchOf c q + (s.act (F.SC_LAUNCH_CFG_LATE_LIM (q / 8)) : Nat) <
      (s.tiNs (s.act (F.SC_PORT_CFG_TI_SEL (q / 8))) : Int))
    (ha : s.act (F.SC_LAUNCH_CFG_LATE_ACT (q / 8)) = 0) :
    ((s.judgeHead q).queueOf q).die = rest ∧ ∀ k, k ≠ q → (s.judgeHead q).queueOf k = s.queueOf k := by
  have hsx : (((((s.setQueue q { s.queueOf q with die := rest }).bump (F.SC_LATE_DROP_COUNT (q / 8))).pmu 0x31 (q / 8)).scEvent
      81 (q / 8))).sx = (s.setQueue q { s.queueOf q with die := rest }).sx := by
    rw [scEvent, raise_sx, setRg_sx, pmu_sx, bump_sx]
  have hj : s.judgeHead q = ((((((s.setQueue q { s.queueOf q with die := rest }).bump (F.SC_LATE_DROP_COUNT (q / 8))).pmu
      0x31 (q / 8)).scEvent 81 (q / 8))).dropCopy c 8).toDie q := by
    unfold judgeHead
    dsimp only
    rw [hd]
    dsimp only
    rw [decide_eq_true hl, if_pos ⟨rfl, ha⟩]
  rw [hj]
  generalize (((s.setQueue q { s.queueOf q with die := rest }).bump (F.SC_LATE_DROP_COUNT (q / 8))).pmu 0x31 (q / 8)).scEvent
    81 (q / 8) = u at hsx
  obtain ⟨hdie, hother⟩ := toDie_queues (u.dropCopy c 8) q
  have hqueue (k : Nat) : (u.dropCopy c 8).queueOf k = (s.setQueue q { s.queueOf q with die := rest }).queueOf k :=
    ((bufferSettles_dropCopy u c 8).queueOf k).trans (queueOf_congr hsx k)
  refine ⟨?_, fun k hk => ?_⟩
  · rw [hdie, hqueue, queueOf_setQueue_same]
  · rw [hother k hk, hqueue, queueOf_setQueue_ne _ _ hk]

/-- A head that is not late becomes eligible; it is held until its launch time (R252). -/
theorem judgeHead_ready {s : State} {q : Nat} {c : Copy} {rest : List Copy} (hd : (s.queueOf q).die = c :: rest)
    (hl : (s.tiNs (s.act (F.SC_PORT_CFG_TI_SEL (q / 8))) : Int) ≤
      s.launchOf c q + (s.act (F.SC_LAUNCH_CFG_LATE_LIM (q / 8)) : Nat)) :
    s.judgeHead q = s.setQueue q { s.queueOf q with
      die := { c with ready := true,
                      hold := decide ((s.tiNs (s.act (F.SC_PORT_CFG_TI_SEL (q / 8))) : Int) < s.launchOf c q) } :: rest } := by
  unfold judgeHead
  dsimp only
  rw [hd]
  dsimp only
  rw [decide_eq_false (not_lt.mpr hl), if_neg (by simp), Bool.not_false, Bool.and_true]

theorem launchNear_head {s : State} {q : Nat} {c : Copy} {rest : List Copy} (ht : s.timed q = true)
    (hd : (s.queueOf q).die = c :: rest)
    (hn : s.launchOf c q ≤ (s.tiNs (s.act (F.SC_PORT_CFG_TI_SEL (q / 8))) : Int) + 2000) : s.launchNear q = true := by
  rw [launchNear, ht, hd, List.head?_cons, Option.any_some, decide_eq_true hn, Bool.and_self]

end State

open State in
/-- Settles O18: a hand-over by its law, an eligible and a late head by the test of R253, and the two timers. -/
theorem schedulerCommands : Obligations.SchedulerCommands := by
  unfold Obligations.SchedulerCommands
  refine ⟨?handOver, ?eligible, ?late, ?credit, ?launch⟩
  case handOver =>
    intro port tc c rest s u hp hm hchoice hd
    show ∃ t, execScHandover port s = _ ∧ _
    rw [execScHandover, decide_eq_true hp, only_true]
    dsimp only
    rw [hchoice]
    dsimp only
    obtain ⟨hmq, hdie⟩ := handOver_mac u port tc c rest hm hd
    have hsx := (drainDone_moves (u.handOver port tc)).1 .sx (by decide)
    refine ⟨_, rfl, ?_, ?_⟩
    · rw [mqOf_congr hsx, hmq]
    · rw [queueOf_congr hsx, hdie]
  case eligible =>
    intro q now c rest s hq ht hd hnow hnear hlim
    subst hnow
    show execLaunchEligible q s = _
    rw [execLaunchEligible, decide_eq_true hq, only_true, if_pos (launchNear_head ht hd hnear), judgeHead_ready hd hlim,
      drainUnless_same (drained_setQueue _ _ _)]
  case late =>
    intro q now c rest s hq ht hu hd hnow hl ha
    subst hnow
    show ∃ t, execLaunchEligible q s = _ ∧ _
    have hnear : s.launchNear q = true := launchNear_head ht hd (by omega)
    rw [execLaunchEligible, decide_eq_true hq, only_true, if_pos hnear]
    obtain ⟨hdie, hother⟩ := judgeHead_late hd hl ha
    have hsx := (drainUnless_moves (s.judgeHead q) s.drained).1 .sx (by decide)
    exact ⟨_, rfl, by rw [queueOf_congr hsx, hdie], fun k hk => by rw [queueOf_congr hsx, hother k hk]⟩
  case credit =>
    intro q s hq hs
    show execShaperCreditRestored q s = _
    rw [execShaperCreditRestored, decide_eq_true hq, only_true]
    dsimp only
    rw [if_pos hs]
  case launch =>
    intro port m c rest s hp hm hmq
    show ∃ t, execLaunchTimeReached port m s = _ ∧ _
    rw [execLaunchTimeReached, decide_eq_true (And.intro hp hm), only_true, hmq]
    refine ⟨s.setMq port m ({ c with hold := false } :: rest), rfl, mqOf_setMq_same _ _ _ _, fun p k hne => ?_, fun x hx => ?_⟩
    · exact mqOf_setMq_other s _ hne
    cases x with
    | sx => exact absurd List.mem_cons_self hx
    | _ => rfl

end Sys2Proof.Machine
end

section
/-!
PROOFS. The pages of the Hamper: closing, writing, refill, return, retirement (R170, R173 to R180).
-/

namespace Sys2Proof.Machine

namespace State

/-! ### Pages that are written -/

/-- The page that is written next stands at its place in its queue. -/
theorem closedPage_at {s : State} {q k : Nat} {p : HPage} (h : s.closedPage q = some (k, p)) :
    (s.queueOf q).pages[k]? = some p := by
  unfold closedPage at h
  dsimp only at h
  split at h
  case h_1 p' k' hf =>
    split at h
    · cases h
      exact List.mem_zipIdx_iff_getElem?.mp (List.mem_of_find?_eq_some hf)
    · cases h
  case h_2 => cases h

/-- Page k as it stands in DRAM. -/
def writtenPage (s : State) (p : HPage) (enc : Bool) (cells : List (List Byte)) : HPage :=
  { p with
    state := .dram, no := s.freePageNo, enc := enc, cells := cells
    copies := p.copies.map (fun c => { c with hamOut := some s.now }) }

theorem pageToDram_at {s : State} {q k : Nat} {p : HPage} (enc : Bool) (cells : List (List Byte))
    (h : (s.queueOf q).pages[k]? = some p) :
    ((s.pageToDram q k enc cells).queueOf q).pages[k]? = some (s.writtenPage p enc cells) := by
  unfold pageToDram
  dsimp only
  rw [arbBytes, queueOf_congr (bump64_sx _ _ _), queueOf_setQueue_same]
  dsimp only
  rw [List.getElem?_modify_eq, h]
  rfl

theorem hamKeys_held {s : State} {key : Nat × Nat} (h : s.ce.ham = some key) : s.hamKeys = (s, some key) := by
  unfold hamKeys
  rw [h]

/-! ### Pages that are refilled -/

theorem queues_notePeak (s : State) (q : Nat) : (s.notePeak q).sx = s.sx :=
  (moves_notePeak (ps := [.regs]) (List.Subset.refl _) (moves_refl s)).1 .sx (by decide)

theorem modFrame_queues (s : State) (id : Nat) (g : Frame → Frame) : (s.modFrame id g).sx.queues = s.sx.queues := by
  unfold modFrame
  split <;> rfl

theorem takeCell_queues (s : State) (id b : Nat) : (s.takeCell id b).sx.queues = s.sx.queues := by
  unfold takeCell
  rw [pmu_sx, modFrame_queues]

theorem takeCells_queues (s : State) (id n : Nat) : (s.takeCells id n).sx.queues = s.sx.queues := by
  induction n generalizing s with
  | zero => rfl
  | succ n ih =>
    rw [takeCells]
    split
    · exact (ih _).trans (takeCell_queues s id _)
    · rfl

/-- A frame that takes cells changes in nothing else. -/
theorem takeCells_frame {s : State} {id : Nat} {f : Frame} (h : s.frameOf id = some f) (n : Nat) :
    ∃ l, (s.takeCells id n).frameOf id = some { f with cells := l } := by
  induction n generalizing s f with
  | zero => exact ⟨f.cells, h⟩
  | succ n ih =>
    rw [takeCells]
    split
    · next b _ => exact ih (f := { f with cells := f.cells ++ [b] }) (frameOf_takeCell s id b h)
    · exact ⟨f.cells, h⟩

theorem queueOf_queues {s t : State} (h : t.sx.queues = s.sx.queues) (q : Nat) : t.queueOf q = s.queueOf q := by
  rw [queueOf, queueOf, h]

/-- A copy as it joins the die queue. -/
def refilled (s : State) (dram : Bool) (c : Copy) : Copy := if dram then { c with hamIn := some s.now } else c

/-- The cells and bytes of a refilled copy's frame. -/
def refillTaken (s : State) (c : Copy) (cells : List (List Byte)) : State :=
  (s.modFrame c.frame (fun f => { f with bytes := hamBytes f cells })).takeCells c.frame
    (match s.frameOf c.frame with | some f => cellsFor f.len | none => 0)

theorem refillCopy_eq (s : State) (q : Nat) (dram : Bool) (c : Copy) (cells : List (List Byte)) :
    s.refillCopy q dram c cells = ((s.refillTaken c cells).setQueue q { (s.refillTaken c cells).queueOf q with
      die := ((s.refillTaken c cells).queueOf q).die ++ [s.refilled dram c] }).notePeak q := rfl

theorem refillTaken_queueOf (s : State) (c : Copy) (cells : List (List Byte)) (q : Nat) :
    (s.refillTaken c cells).queueOf q = s.queueOf q := by
  refine queueOf_queues ?_ q
  rw [refillTaken, takeCells_queues, modFrame_queues]

theorem refillTaken_frame {s : State} {c : Copy} {f : Frame} (h : s.frameOf c.frame = some f) (cells : List (List Byte)) :
    ∃ g, (s.refillTaken c cells).frameOf c.frame = some g ∧ g.bytes = hamBytes f cells := by
  unfold refillTaken
  rw [modFrame_some s c.frame _ h]
  obtain ⟨l, hl⟩ := takeCells_frame (f := { f with bytes := hamBytes f cells }) (frameOf_setFrame_same s c.frame _)
    (match s.frameOf c.frame with | some f => cellsFor f.len | none => 0)
  exact ⟨_, hl, rfl⟩

/-- A refilled copy joins the end of its die queue; the pages stay, and every other queue. -/
theorem refillCopy_queues (s : State) (q : Nat) (dram : Bool) (c : Copy) (cells : List (List Byte)) :
    (s.refillCopy q dram c cells).queueOf q = { s.queueOf q with die := (s.queueOf q).die ++ [s.refilled dram c] } ∧
      ∀ k, k ≠ q → (s.refillCopy q dram c cells).queueOf k = s.queueOf k := by
  rw [refillCopy_eq, refillTaken_queueOf]
  refine ⟨?_, fun k hk => ?_⟩
  · rw [queueOf_congr (queues_notePeak _ _), queueOf_setQueue_same]
  · rw [queueOf_congr (queues_notePeak _ _), queueOf_setQueue_ne _ _ hk, refillTaken_queueOf]

theorem refillCopy_now (s : State) (q : Nat) (dram : Bool) (c : Copy) (cells : List (List Byte)) :
    (s.refillCopy q dram c cells).now = s.now := by
  have hm : moves [.out, .regs, .scope, .sx] s (s.refillCopy q dram c cells) :=
    moves_refillCopy (List.Subset.refl _) (moves_refl s)
  exact hm.1 .now (by decide)

/-- The copies that leave a page join the end of the die queue in their order. -/
theorem refillCopies_queues (s : State) (q : Nat) (dram : Bool) (l : List (Copy × List (List Byte))) :
    (s.forEach l (fun t x => t.refillCopy q dram x.1 x.2)).queueOf q =
        { s.queueOf q with die := (s.queueOf q).die ++ l.map (fun x => s.refilled dram x.1) } ∧
      ∀ k, k ≠ q → (s.forEach l (fun t x => t.refillCopy q dram x.1 x.2)).queueOf k = s.queueOf k := by
  induction l generalizing s with
  | nil => exact ⟨by rw [List.map_nil, List.append_nil]; rfl, fun _ _ => rfl⟩
  | cons x l ih =>
    obtain ⟨hq, hk⟩ := ih (s.refillCopy q dram x.1 x.2)
    obtain ⟨hq', hk'⟩ := refillCopy_queues s q dram x.1 x.2
    have hmap : (fun y : Copy × List (List Byte) => (s.refillCopy q dram x.1 x.2).refilled dram y.1) =
        fun y => s.refilled dram y.1 := by
      funext y
      rw [refilled, refilled, refillCopy_now]
    refine ⟨hq.trans ?_, fun k h => (hk k h).trans (hk' k h)⟩
    rw [hq', hmap, List.map_cons, List.append_assoc, List.singleton_append]

theorem splitCells_copies (s : State) (cs : List Copy) (l : List (List Byte)) :
    (s.splitCells cs l).map (·.1) = cs := by
  induction cs generalizing l with
  | nil => rfl
  | cons c cs ih => rw [splitCells, List.map_cons, ih]

/-- A page read from DRAM is counted, and so is one that was decrypted. -/
def joinCounted (s : State) (q : Nat) (dram enc : Bool) : State :=
  let u := if dram then (s.pmu 0x06 q).arbBytes 1 4096 else s
  if dram ∧ enc then (u.bump F.CE_HAM_DEC_PAGES_COUNT).pmu 0x46 0 else u

theorem joinCounted_moves (s : State) (q : Nat) (dram enc : Bool) :
    moves [.out, .regs, .scope] s (s.joinCounted q dram enc) := by
  have read : moves [.out, .regs, .scope] s (if dram then (s.pmu 0x06 q).arbBytes 1 4096 else s) := by
    split
    · exact moves_arbBytes (by decide) (moves_pmu (List.Subset.refl _) (moves_refl s))
    · exact moves_refl s
  unfold joinCounted
  dsimp only
  split
  · exact moves_pmu (List.Subset.refl _) (moves_bump (by decide) read)
  · exact read

/-- The pages that stay behind a page that joins the die queue. -/
def pagesBehind (s : State) (p : HPage) (rest : List HPage) (plain : List (List Byte)) : List HPage :=
  match rest with
  | n :: r =>
    if (pageSplit p rest.head?).2 = [] then rest
    else { n with copies := (pageSplit p rest.head?).2 ++ n.copies, tail := false,
                  head := ((s.splitCells p.copies (pageCells p plain)).getLast?.map (·.2)).getD [] } :: r
  | [] => []

theorem pagesBehind_length (s : State) (p : HPage) (rest : List HPage) (plain : List (List Byte)) :
    (s.pagesBehind p rest plain).length = rest.length := by
  unfold pagesBehind
  split
  · split <;> rfl
  · rfl

/-- The queue with the page taken from its pages. -/
def pageTaken (s : State) (q : Nat) (dram : Bool) (p : HPage) (rest : List HPage) (plain : List (List Byte)) : State :=
  (s.setQueue q { s.queueOf q with pages := s.pagesBehind p rest plain }).joinCounted q dram p.enc

theorem pageTaken_shows (s : State) (q : Nat) (dram : Bool) (p : HPage) (rest : List HPage) (plain : List (List Byte)) :
    (s.pageTaken q dram p rest plain).queueOf q = { s.queueOf q with pages := s.pagesBehind p rest plain } ∧
      (∀ k, k ≠ q → (s.pageTaken q dram p rest plain).queueOf k = s.queueOf k) ∧
      (s.pageTaken q dram p rest plain).now = s.now ∧
      ∀ id, (s.pageTaken q dram p rest plain).frameOf id = s.frameOf id := by
  have hm := joinCounted_moves (s.setQueue q { s.queueOf q with pages := s.pagesBehind p rest plain }) q dram p.enc
  have hsx := hm.1 .sx (by decide)
  refine ⟨?_, fun k hk => ?_, hm.1 .now (by decide), fun id => ?_⟩
  · exact (queueOf_congr hsx q).trans (queueOf_setQueue_same _ _ _)
  · exact (queueOf_congr hsx k).trans (queueOf_setQueue_ne _ _ hk)
  · exact (frameOf_congr hsx id).trans rfl

theorem joinHead_eq (s : State) (q : Nat) (dram : Bool) (p : HPage) (rest : List HPage) (plain : List (List Byte)) :
    s.joinHead q dram p rest plain = (((s.pageTaken q dram p rest plain).forEach
      ((s.splitCells p.copies (pageCells p plain)).take (pageSplit p rest.head?).1.length)
      (fun t x => t.refillCopy q dram x.1 x.2)).toDie q).checkMarks := by
  cases rest <;> rfl

/-- The spill of a queue is judged again: its pages stay, and with none left it is in DIE. -/
theorem toDie_pages (s : State) (q : Nat) :
    ((s.toDie q).queueOf q).pages = (s.queueOf q).pages ∧
      ((s.queueOf q).pages = [] → ((s.toDie q).queueOf q).spill = false) := by
  unfold toDie
  dsimp only
  generalize (if (s.queueOf q).die.isEmpty = true then 0 else (s.queueOf q).deficit) = d
  split
  · rw [queueOf_setQueue_same]
    exact ⟨rfl, fun _ => rfl⟩
  · next h => exact ⟨rfl, fun he => absurd (by rw [he]; rfl) h⟩

theorem toDie_frames (s : State) (q id : Nat) : (s.toDie q).frameOf id = s.frameOf id := by
  unfold toDie
  dsimp only
  split <;> rfl

/-- A page that joins the die queue: what stays of its queue, and every other queue (R175). -/
theorem joinHead_shows (s : State) (q : Nat) (dram : Bool) (p : HPage) (rest : List HPage) (plain : List (List Byte)) :
    ((s.joinHead q dram p rest plain).queueOf q).pages = s.pagesBehind p rest plain ∧
      ((s.joinHead q dram p rest plain).queueOf q).die = (s.queueOf q).die ++
        ((s.splitCells p.copies (pageCells p plain)).take (pageSplit p rest.head?).1.length).map
          (fun x => s.refilled dram x.1) ∧
      (s.pagesBehind p rest plain = [] → ((s.joinHead q dram p rest plain).queueOf q).spill = false) ∧
      ∀ k, k ≠ q → (s.joinHead q dram p rest plain).queueOf k = s.queueOf k := by
  obtain ⟨htq, htk, htnow, _⟩ := pageTaken_shows s q dram p rest plain
  have hmap : (fun x : Copy × List (List Byte) => (s.pageTaken q dram p rest plain).refilled dram x.1) =
      fun x => s.refilled dram x.1 := by
    funext x
    rw [refilled, refilled, htnow]
  rw [joinHead_eq]
  generalize (s.splitCells p.copies (pageCells p plain)).take (pageSplit p rest.head?).1.length = l
  obtain ⟨hq, hk⟩ := refillCopies_queues (s.pageTaken q dram p rest plain) q dram l
  rw [htq, hmap] at hq
  generalize (s.pageTaken q dram p rest plain).forEach l (fun t x => t.refillCopy q dram x.1 x.2) = u at hq hk
  obtain ⟨hpages, hspill⟩ := toDie_pages u q
  obtain ⟨hdie, hother⟩ := toDie_queues u q
  rw [hq] at hpages hspill hdie
  simp only [queueOf_checkMarks]
  exact ⟨hpages, hdie, hspill, fun k h => (hother k h).trans ((hk k h).trans (htk k h))⟩

theorem pageSplit_last (p : HPage) : pageSplit p none = (p.copies, []) := rfl

theorem pageSplit_length (p : HPage) (next : Option HPage) : (pageSplit p next).1.length ≤ p.copies.length := by
  unfold pageSplit
  split
  · split
    · simp
    · exact Nat.le_refl _
  · exact Nat.le_refl _

/-- The copies that leave a page. -/
theorem splitCells_take (s : State) (p : HPage) (l : List (List Byte)) (g : Copy → Copy) (n : Nat) :
    ((s.splitCells p.copies l).take n).map (fun x => g x.1) = (p.copies.take n).map g := by
  rw [show (fun x : Copy × List (List Byte) => g x.1) = g ∘ Prod.fst from rfl, ← List.map_map, List.map_take,
    splitCells_copies]

/-- A frame refilled alone holds the bytes that its page held (R175). -/
theorem joinHead_frame {s : State} {q : Nat} {p : HPage} {c : Copy} {f : Frame} (dram : Bool) (plain : List (List Byte))
    (hc : p.copies = [c]) (hf : s.frameOf c.frame = some f) :
    ∃ g, (s.joinHead q dram p [] plain).frameOf c.frame = some g ∧
      g.bytes = hamBytes f ((pageCells p plain).take (hamCells f.len)) := by
  obtain ⟨_, _, _, hframe⟩ := pageTaken_shows s q dram p [] plain
  have hl : (s.splitCells p.copies (pageCells p plain)).take (pageSplit p ([] : List HPage).head?).1.length =
      [(c, (pageCells p plain).take (hamCells f.len))] := by
    rw [List.head?_nil, pageSplit_last, hc]
    simp [splitCells, hf]
  rw [joinHead_eq, hl, frameOf_checkMarks, toDie_frames]
  generalize s.pageTaken q dram p [] plain = u at hframe
  have hu : u.frameOf c.frame = some f := (hframe _).trans hf
  obtain ⟨g, hg, hb⟩ := refillTaken_frame hu ((pageCells p plain).take (hamCells f.len))
  refine ⟨g, ?_, hb⟩
  show (u.refillCopy q dram c ((pageCells p plain).take (hamCells f.len))).frameOf c.frame = some g
  rw [refillCopy_eq, frameOf_congr (queues_notePeak _ _)]
  exact hg

/-! ### Pages that are lost, or return -/

theorem bufferSettles_countAged (s : State) (p : Nat) : BufferSettles s (s.countAged p) :=
  .of_moves (moves_countAged (ps := [.out, .regs, .scope]) (List.Subset.refl _) (moves_refl s)) (by decide)

theorem bufferSettles_dropPage (s : State) (port : Nat) (aged : Bool) (p : HPage) :
    BufferSettles s (s.dropPage port aged p) := by
  refine bufferSettles_dropCopies (fun u _ => ?_) _ _
  split
  · exact bufferSettles_countAged u port
  · exact .of_sx (bump_sx _ _ _)

/-- A page of a queue is gone with the frames that lie in it: the pages that stay, and the page number retired (R180). -/
theorem losePage_shows (s : State) (q k no : Nat) :
    (s.losePage q k no).sx.retired = s.sx.retired ++ [no] ∧
      ((s.losePage q k no).queueOf q).pages = (pagesAfterLoss (s.queueOf q).pages k).1 := by
  unfold losePage
  dsimp only
  have hset := bufferSettles_dropCopies (s := s.setQueue q { s.queueOf q with pages := (pagesAfterLoss (s.queueOf q).pages k).1 })
    (count := fun t _ => t.bump F.SX_HPAGE_LOST_COUNT) (fun u _ => .of_sx (bump_sx _ _ _))
    (pagesAfterLoss (s.queueOf q).pages k).2 7
  generalize (s.setQueue q { s.queueOf q with pages := (pagesAfterLoss (s.queueOf q).pages k).1 }).dropCopies
    (pagesAfterLoss (s.queueOf q).pages k).2 7 (fun t _ => t.bump F.SX_HPAGE_LOST_COUNT) = u at hset
  have hretired : (u.toDie q).sx.retired = s.sx.retired := by
    have hu : u.sx.retired = s.sx.retired := by rw [hset.kept]; rfl
    rw [← hu]
    unfold toDie
    dsimp only
    split <;> rfl
  have hpages : ((u.toDie q).queueOf q).pages = (pagesAfterLoss (s.queueOf q).pages k).1 := by
    rw [(toDie_pages u q).1, hset.queueOf, queueOf_setQueue_same]
  generalize u.toDie q = v at hretired hpages
  have hsx : (v.retirePage no).sx = { v.sx with retired := v.sx.retired ++ [no] } := by
    rw [retirePage, raise_sx, setRg_sx]
  refine ⟨?_, ?_⟩
  · show (v.retirePage no).sx.retired = _
    rw [hsx, ← hretired]
  · show ((v.retirePage no).queueOf q).pages = _
    rw [← hpages, queueOf, queueOf, hsx]

theorem losePage_event {s : State} (q k no : Nat) (hu : s.socUp = true) : (s.losePage q k no).evSet 71 = true := by
  have hm : moves [.out, .regs, .scope, .sx, .ob, .cx, .mx] s (((s.setQueue q { s.queueOf q with
      pages := (pagesAfterLoss (s.queueOf q).pages k).1 }).dropCopies (pagesAfterLoss (s.queueOf q).pages k).2 7
      (fun t _ => t.bump F.SX_HPAGE_LOST_COUNT)).toDie q) :=
    moves_toDie (by decide) (moves_dropCopies (by decide) (fun _ _ h => moves_bump (by decide) h)
      (moves_setQueue (by decide) (moves_refl s)))
  have hup := (socUp_congr (hm.1 .pw (by decide))).trans hu
  unfold losePage
  dsimp only
  generalize ((s.setQueue q { s.queueOf q with pages := (pagesAfterLoss (s.queueOf q).pages k).1 }).dropCopies
    (pagesAfterLoss (s.queueOf q).pages k).2 7 (fun t _ => t.bump F.SX_HPAGE_LOST_COUNT)).toDie q = v at hup
  exact (evSet_congr rfl 71).trans (evSet_raise_self _ 71 none ((socUp_setRg _ _ _).trans hup))

/-- An uncorrectable error of DRAM takes no event back. -/
theorem dramUe_keeps (s : State) (a : Nat) : RegsWithin (fun _ => True) s (s.dramUe a) := by
  have seen (u : State) : RegsWithin (fun _ => True) u (u.ueSeen a) := by
    have counted : RegsWithin (fun _ => True) u (u.bump F.MX_DRAM_UE_COUNT) := (RegsWithin.refl u).bump trivial (.inr (by decide))
    unfold ueSeen
    split
    · exact counted.wr64 trivial trivial (.inr (by decide))
    · exact counted
  rw [dramUe_eq]
  refine RegsWithin.raise (by decide) (regsWithin_fault (by decide) (fun _ _ => trivial) (.trans ?_ (seen _)))
  exact (RegsWithin.refl s).of_regs (ueMarked_shows s a).1 (by unfold ueMarked; split <;> rfl)

/-- A Hamper that has drained is ACTIVE where it is to run, else off (R170). -/
theorem hamState_hamJudge {s : State} (h2 : s.hamState = 2) (h0 : s.hamUsed = 0) :
    s.hamJudge.hamState = if s.hamWanted then 1 else 0 := by
  have judged (u : State) : (u.judgeRsv.checkMarks).hamState = u.hamState :=
    (regsWithin_checkMarks (W := fun off => off = F.SX_RSV_TOTAL_SCALED.off)
      (regsWithin_judgeRsv (W := fun off => off = F.SX_RSV_TOTAL_SCALED.off) rfl (RegsWithin.refl u))).rg _ (by decide) (.inr (by decide))
  have state (st n : Nat) : (s.hamSet st n).hamState = st % 4 := rg_setRg_self s F.SX_HAM_STATE_STATE st (by decide)
  unfold hamJudge
  dsimp only
  rw [judged, h2]
  cases hw : s.hamWanted
  · rw [if_pos (by decide), if_neg (by decide), if_pos h0]
    exact state 0 0
  · rw [if_neg (by decide), if_pos (.inr h0)]
    exact state 1 s.hamSize

end State

open State in
/-- Settles O21: the pages of the Hamper, each row by the law of its operation on the queue. -/
theorem hamperCommands : Obligations.HamperCommands := by
  unfold Obligations.HamperCommands
  refine ⟨?closes, ?clear, ?sealed, ?refill, ?before, ?last, ?returns, ?drained, ?lost⟩
  case closes =>
    intro q s hq
    show ∃ t, execFillPageTimeout q s = _ ∧ _
    rw [execFillPageTimeout, decide_eq_true hq, only_true]
    have hself : ({ s.setQueue q { s.queueOf q with pages := closeFill (s.queueOf q).pages s.sx.closes } with
        sx.closes := s.sx.closes + 1 } : State).queueOf q =
          { s.queueOf q with pages := closeFill (s.queueOf q).pages s.sx.closes } :=
      queueOf_setQueue_same s q _
    refine ⟨_, rfl, by rw [hself]; rfl, rfl, by rw [hself], fun k hk => queueOf_setQueue_ne s _ hk, fun x hx => ?_⟩
    cases x with
    | sx => exact absurd List.mem_cons_self hx
    | _ => rfl
  case clear =>
    intro q k p s hq hp hm
    show ∃ t x, execHamperPageWritten q s = _ ∧ _
    rw [execHamperPageWritten, decide_eq_true hq, only_true, hp]
    dsimp only
    rw [if_neg (fun h => hm h.1), if_neg hm]
    exact ⟨_, _, rfl, pageToDram_at false p.cells (closedPage_at hp), rfl, rfl, rfl, rfl, rfl⟩
  case sealed =>
    intro q k p key s hq hp hm hpairs hkey
    show ∃ t x, execHamperPageWritten q s = _ ∧ _
    rw [execHamperPageWritten, decide_eq_true hq, only_true, hp]
    dsimp only
    rw [if_neg (fun h => hpairs (List.isEmpty_iff.mp h.2)), if_pos hm, hamKeys_held hkey]
    dsimp only
    refine ⟨_, s.writtenPage p true (hamEnc key s.freePageNo p.cells), rfl, ?_, rfl, rfl, rfl, rfl⟩
    rw [queueOf_congr (pmu_sx _ _ _ _), queueOf_congr (bump_sx _ _ _)]
    exact pageToDram_at true _ (closedPage_at hp)
  case refill =>
    intro q n p s hq hw ht hf hn hd
    show ∃ t, execRefillStart q s = _ ∧ _
    rw [execRefillStart, decide_eq_true hq, only_true, if_pos ⟨hw, ht, hf⟩, hn]
    dsimp only
    rw [if_pos hd]
    refine ⟨_, rfl, ?_, fun k hk => queueOf_setQueue_ne s _ hk⟩
    exact congrArg Queue.pages (queueOf_setQueue_same s q _)
  case before =>
    intro q p r rest s hq hp hr he
    show ∃ t, execRefillDone q s = _ ∧ _
    rw [execRefillDone, decide_eq_true hq, only_true, hp]
    dsimp only
    rw [if_pos ⟨hr, by rw [he]; rfl⟩, refillPage, hp]
    dsimp only
    rw [he, if_neg (by decide)]
    obtain ⟨hpages, hdie, _, hother⟩ := joinHead_shows s q true p (r :: rest) p.cells
    refine ⟨_, rfl, ?_, ?_, hother⟩
    · rw [hpages, pagesBehind_length, List.length_cons]
    · rw [hdie, splitCells_take, List.length_append, List.length_map, List.length_take, List.head?_cons,
        Nat.min_eq_left (pageSplit_length p _)]
  case last =>
    intro q p s hq hp hr he
    show ∃ t, execRefillDone q s = _ ∧ _
    rw [execRefillDone, decide_eq_true hq, only_true, hp]
    dsimp only
    rw [if_pos ⟨hr, by rw [he]; rfl⟩, refillPage, hp]
    dsimp only
    rw [he, if_neg (by decide)]
    obtain ⟨hpages, hdie, hspill, _⟩ := joinHead_shows s q true p [] p.cells
    refine ⟨_, rfl, hpages, hspill rfl, ?_, fun c f hc hf => joinHead_frame true p.cells hc hf⟩
    rw [hdie, splitCells_take, List.head?_nil, pageSplit_last, List.take_length]
    rfl
  case returns =>
    intro d rest s hd
    show ∃ t, execPageReturn s = _ ∧ _
    rw [execPageReturn, hd]
    dsimp only
    have hset : BufferSettles { s with sx.detached := rest }
        (({ s with sx.detached := rest } : State).forEach d.pages (fun t p => t.dropPage d.port d.aged p)) :=
      .forEach (fun u p => bufferSettles_dropPage u d.port d.aged p) _
    generalize ({ s with sx.detached := rest } : State).forEach d.pages (fun t p => t.dropPage d.port d.aged p) = u at hset
    obtain ⟨a, b, hmarks⟩ := checkMarks_sx u
    refine ⟨_, rfl, ?_, ?_⟩
    · rw [hmarks, hset.kept]
    · rw [checkMarks_queues, hset.kept]
  case drained =>
    intro s h2 h0
    show ∃ t, execHamperDrained s = _ ∧ _
    rw [execHamperDrained, if_pos ⟨h2, h0⟩]
    exact ⟨_, rfl, hamState_hamJudge h2 h0⟩
  case lost =>
    intro q k p s hq hu hp hr
    show ∃ t, execHamperPageUe q k s = _ ∧ _
    rw [execHamperPageUe, decide_eq_true hq, only_true]
    dsimp only
    rw [hp]
    dsimp only
    rw [if_pos hr]
    obtain ⟨hretired, hpages⟩ := losePage_shows s q k p.no
    have hev := losePage_event q k p.no hu
    generalize s.losePage q k p.no = v at hretired hpages hev
    have hue := dramUe_keeps v (s.dramTop + 4096 * p.no)
    have hmx : moves [.out, .regs, .scope, .ob, .mx] v (v.dramUe (s.dramTop + 4096 * p.no)) :=
      moves_dramUe (by decide) (moves_refl v)
    generalize v.dramUe (s.dramTop + 4096 * p.no) = w at hue hmx
    have hfault := fault_moves w 0x07 0 p.no (pagesAfterLoss (s.queueOf q).pages k).2.length
    have hsx := ((drainDone_moves _).1 .sx (by decide)).trans ((hfault.1 .sx (by decide)).trans (hmx.1 .sx (by decide)))
    refine ⟨_, rfl, by rw [hsx, hretired], ?_, by rw [queueOf_congr hsx, hpages]⟩
    refine (regsWithin_drainDone (W := fun off => off = F.SX_RSV_TOTAL_SCALED.off) rfl (RegsWithin.refl _)).events 71
      (by decide) ?_
    exact (regsWithin_fault_sv w (by decide) 0 p.no _).events 71 (by decide) (hue.events 71 (by decide) hev)

end Sys2Proof.Machine
end

section
/-!
PROOFS. The end of a copy of a frame that no host descriptor owns, and the cells that a frame takes while there are free
ones (R160, R162).
-/

namespace Sys2Proof.Machine

namespace State

/-! ### Ends that reach the block OB alone -/

/-- Between two states DRAM and the caches stay, and of the registers those of OB alone differ. -/
structure EndsQuiet (s t : State) : Prop where
  mx : t.mx = s.mx
  regs : RegsWithin obRegs s t

namespace EndsQuiet

variable {s t u : State}

theorem refl (s : State) : EndsQuiet s s := ⟨rfl, .refl s⟩

theorem trans (h : EndsQuiet s t) (k : EndsQuiet t u) : EndsQuiet s u := ⟨k.mx.trans h.mx, h.regs.trans k.regs⟩

theorem of_same (hm : t.mx = s.mx) (hr : t.regs = s.regs) (hc : t.cx = s.cx) : EndsQuiet s t :=
  ⟨hm, (RegsWithin.refl s).of_regs hr (by rw [hc])⟩

theorem setFrame (s : State) (id : Nat) (f : Option Frame) : EndsQuiet s (s.setFrame id f) := of_same rfl rfl rfl

theorem settleSlots (s : State) (f : Frame) : EndsQuiet s (s.settleSlots f) :=
  ⟨(settleSlots_moves s f).1 .mx (by decide), regsWithin_settleSlots (fun _ h => h) (.refl s)⟩

theorem pegDone (s : State) (f : Frame) (c : Option Copy) (mac : Option Nat) (x y z : Bool) (n : Nat) :
    EndsQuiet s (s.pegDone f c mac x y z n) :=
  ⟨(pegDone_moves s f c mac x y z n).1 .mx (by decide), regsWithin_pegDone (fun _ h => h) (.refl s)⟩

end EndsQuiet

/-- A frame that no host descriptor owns and no other frame holds as its copy. -/
def Plain (s : State) (id : Nat) : Prop := ∃ f, s.frameOf id = some f ∧ f.owner = 0 ∧ f.parent = none

theorem Plain.setFrame {s : State} {id : Nat} {f : Frame} (ho : f.owner = 0) (hp : f.parent = none) :
    (s.setFrame id (some f)).Plain id := ⟨f, frameOf_setFrame_same s id _, ho, hp⟩

theorem Plain.of_frames {s t : State} {id : Nat} (h : s.Plain id) (e : t.frameOf id = s.frameOf id) : t.Plain id := by
  rwa [Plain, e]

theorem quiet_freeFrame {s : State} {id : Nat} (h : s.Plain id) : EndsQuiet s (s.freeFrame id) := by
  obtain ⟨f, hf, ho, hp⟩ := h
  unfold freeFrame
  rw [hf]
  dsimp only
  rw [txEnded, if_pos (.inl ho)]
  exact (EndsQuiet.settleSlots s f).trans (.of_same rfl rfl rfl)

theorem quiet_endFrame {s : State} {id : Nat} (h : s.Plain id) : EndsQuiet s (s.endFrame id) := by
  have h' := h
  obtain ⟨f, hf, ho, hp⟩ := h'
  unfold endFrame
  rw [hf]
  dsimp only
  rw [hp]
  exact quiet_freeFrame h

theorem quiet_readerGone {s : State} {id : Nat} (h : s.Plain id) : EndsQuiet s (s.readerGone id) := by
  obtain ⟨f, hf, ho, hp⟩ := h
  unfold readerGone
  rw [hf]
  dsimp only
  split
  · split
    · exact (EndsQuiet.setFrame s id _).trans (quiet_endFrame (.setFrame ho hp))
    · exact .of_same rfl rfl rfl
  · exact .setFrame s id _

/-- A copy of a plain frame is gone: DRAM stays, and of the registers those of OB alone may differ. -/
theorem quiet_copyGone {s : State} {id : Nat} (h : s.Plain id) (left : Bool) : EndsQuiet s (s.copyGone id left) := by
  unfold copyGone
  cases left
  · exact quiet_readerGone h
  · obtain ⟨f, hf, ho, hp⟩ := h
    have hroot : rootOf f id = id := by rw [rootOf, hp]; rfl
    have hret : s.retireSlots id = (s.settleSlots { f with left := true }).setFrame id
        (some { f with slots := 0, left := true }) := by
      unfold retireSlots
      simp only [hf, hroot]
    rw [if_pos rfl, hret]
    exact ((EndsQuiet.settleSlots s _).trans (.setFrame _ id _)).trans (quiet_readerGone (.setFrame ho hp))

theorem quiet_dropCopy {s : State} {c : Copy} (h : s.Plain c.frame) (n : Nat) : EndsQuiet s (s.dropCopy c n) := by
  have h' := h
  obtain ⟨f, hf, _, _⟩ := h'
  unfold dropCopy
  rw [hf]
  dsimp only
  refine (EndsQuiet.pegDone s f _ _ _ _ _ _).trans (quiet_copyGone (h.of_frames ?_) false)
  exact frameOf_congr ((pegDone_moves _ _ _ _ _ _ _ _).1 .sx (by decide)) _

/-! ### Cells -/

/-- What the frames of a list hold in banks in service. -/
def heldOf (banks : Nat) (l : List (Nat × Frame)) : Nat :=
  (l.map (fun e => (e.2.cells.filter (fun b => banks.testBit b)).length)).sum

/-- The frames listed in a map. -/
def framesOf (m : Sparse (Option Frame)) : List (Nat × Frame) := m.filterMap (fun e => e.2.map (fun f => (e.1, f)))

theorem heldInService_eq (s : State) : s.heldInService = heldOf s.banks (framesOf s.sx.frames) := rfl

theorem framesOf_append (l m : Sparse (Option Frame)) : framesOf (l ++ m) = framesOf l ++ framesOf m := List.filterMap_append

theorem heldOf_append (b : Nat) (l m : List (Nat × Frame)) : heldOf b (l ++ m) = heldOf b l + heldOf b m := by
  simp [heldOf]

/-- The cells of a list that lie in the banks of a duplicate-free list, bank by bank. -/
theorem count_sum_le (t : Nat → Bool) (cells : List Nat) (l : List Nat) (hl : l.Nodup) (ht : ∀ b ∈ l, t b = true) :
    (l.map (fun b => cells.count b)).sum ≤ (cells.filter t).length := by
  induction l generalizing cells with
  | nil => exact Nat.zero_le _
  | cons b l ih =>
    obtain ⟨hb, hl⟩ := List.nodup_cons.mp hl
    have hrest := ih (cells.filter (fun c => c != b)) hl (fun c hc => ht c (List.mem_cons_of_mem _ hc))
    have hcount : l.map (fun c => (cells.filter (fun c => c != b)).count c) = l.map (fun c => cells.count c) := by
      refine List.map_congr_left fun c hc => List.count_filter ?_
      have : c ≠ b := fun e => hb (e ▸ hc)
      simpa using this
    rw [hcount] at hrest
    have hsplit : cells.count b + ((cells.filter (fun c => c != b)).filter t).length = (cells.filter t).length := by
      have htb := ht b List.mem_cons_self
      clear ih hrest hcount
      induction cells with
      | nil => rfl
      | cons c cs ihc =>
        by_cases hcb : c = b
        · subst hcb
          rw [List.count_cons_self, List.filter_cons_of_neg (by simp), List.filter_cons_of_pos htb, List.length_cons]
          omega
        · rw [List.count_cons_of_ne hcb, List.filter_cons_of_pos (by simpa using hcb)]
          by_cases htc : t c = true
          · rw [List.filter_cons_of_pos htc, List.filter_cons_of_pos htc, List.length_cons, List.length_cons]
            omega
          · rw [List.filter_cons_of_neg htc, List.filter_cons_of_neg htc]
            exact ihc
    rw [List.map_cons, List.sum_cons]
    omega

/-- What the banks in service hold, bank by bank, is no more than what is held in service. -/
theorem bankHeld_sum_le (s : State) :
    ((maskList s.banks 16).map s.bankHeld).sum ≤ s.heldInService := by
  have hnd : (maskList s.banks 16).Nodup := List.Nodup.filter _ List.nodup_range
  have ht : ∀ b ∈ maskList s.banks 16, s.banks.testBit b = true := fun b hb => (List.mem_filter.mp hb).2
  rw [heldInService]
  generalize hl : maskList s.banks 16 = l at hnd ht
  have key (fs : List (Nat × Frame)) : (l.map (fun b => (fs.map (fun e => e.2.cells.count b)).sum)).sum ≤
      (fs.map (fun e => (e.2.cells.filter (fun b => s.banks.testBit b)).length)).sum := by
    induction fs with
    | nil => simp
    | cons e fs ih =>
      have he := count_sum_le (fun b => s.banks.testBit b) e.2.cells l hnd ht
      simp only [List.map_cons, List.sum_cons]
      rw [List.sum_map_add]
      omega
  exact key s.allFrames

/-- While a cell is free, the round robin finds a bank in service with one (R160). -/
theorem nextBank_free {s : State} (h : 0 < s.physFree) : ∃ b, s.nextBank = some b ∧ s.banks.testBit b = true := by
  unfold nextBank
  rw [if_neg (by omega)]
  cases hf : ((List.range 16).map (fun i => (s.sx.bankPtr + i) % 16)).find?
      (fun b => s.banks.testBit b && decide (s.bankHeld b < 16384)) with
  | some b =>
    have hb := List.find?_some hf
    rw [Bool.and_eq_true] at hb
    exact ⟨b, rfl, hb.1⟩
  | none =>
    exfalso
    have full : ∀ b ∈ maskList s.banks 16, 16384 ≤ s.bankHeld b := by
      intro b hb
      obtain ⟨hlt, ht⟩ := List.mem_filter.mp hb
      rw [List.mem_range] at hlt
      have hmem : b ∈ (List.range 16).map (fun i => (s.sx.bankPtr + i) % 16) :=
        List.mem_map.mpr ⟨(b + 16 - s.sx.bankPtr % 16) % 16, List.mem_range.mpr (Nat.mod_lt _ (by decide)), by omega⟩
      have := List.find?_eq_none.mp hf b hmem
      simp only [ht, Bool.true_and, decide_eq_true_eq] at this
      omega
    have hsum : ∀ l : List Nat, (∀ b ∈ l, 16384 ≤ s.bankHeld b) → 16384 * l.length ≤ (l.map s.bankHeld).sum := by
      intro l hl
      induction l with
      | nil => exact Nat.zero_le _
      | cons b l ih =>
        have hb := hl b List.mem_cons_self
        have hrest := ih fun c hc => hl c (List.mem_cons_of_mem _ hc)
        rw [List.length_cons, List.map_cons, List.sum_cons]
        omega
    have hall := hsum _ full
    have hheld := bankHeld_sum_le s
    unfold physFree cDie popCount at h
    omega

/-- A frame that stands in the list of frames where a write of it finds it. -/
def StandsAt (s : State) (id : Nat) (f : Frame) (pre post : Sparse (Option Frame)) : Prop :=
  s.sx.frames = pre ++ (id, some f) :: post ∧ ∀ e ∈ pre, e.1 < id

theorem StandsAt.frameOf {s : State} {id : Nat} {f : Frame} {pre post : Sparse (Option Frame)} (h : s.StandsAt id f pre post) :
    s.frameOf id = some f := by
  obtain ⟨hs, hpre⟩ := h
  rw [State.frameOf, hs]
  clear hs
  induction pre with
  | nil => simp [Sparse.get]
  | cons e pre ih =>
    obtain ⟨k, v⟩ := e
    have hk := hpre (k, v) List.mem_cons_self
    rw [List.cons_append, Sparse.get, if_neg (by dsimp only at hk; omega)]
    exact ih fun e he => hpre e (List.mem_cons_of_mem _ he)

theorem insert_standing {id : Nat} {x y : Option Frame} {pre post : Sparse (Option Frame)} (hpre : ∀ e ∈ pre, e.1 < id) :
    Sparse.insert (pre ++ (id, x) :: post) id y = pre ++ (id, y) :: post := by
  induction pre with
  | nil => simp [Sparse.insert]
  | cons e pre ih =>
    obtain ⟨k, v⟩ := e
    have hk := hpre (k, v) List.mem_cons_self
    dsimp only at hk
    rw [List.cons_append, Sparse.insert, if_neg (by omega), if_neg (by omega),
      ih fun e he => hpre e (List.mem_cons_of_mem _ he), List.cons_append]

theorem StandsAt.setFrame {s : State} {id : Nat} {f : Frame} {pre post : Sparse (Option Frame)} (h : s.StandsAt id f pre post)
    (g : Frame) : (s.setFrame id (some g)).StandsAt id g pre post := by
  refine ⟨?_, h.2⟩
  show Sparse.set (fun _ => none) s.sx.frames id (some g) = _
  rw [Sparse.set, if_neg (by simp), h.1, insert_standing h.2]

theorem StandsAt.of_frames {s t : State} {id : Nat} {f : Frame} {pre post : Sparse (Option Frame)} (h : s.StandsAt id f pre post)
    (e : t.sx.frames = s.sx.frames) : t.StandsAt id f pre post := ⟨e.trans h.1, h.2⟩

theorem physFree_congr {s t : State} (h : t.sx.frames = s.sx.frames) (hb : t.banks = s.banks) (hh : t.hamState = s.hamState) :
    t.physFree = s.physFree := by
  rw [physFree, physFree, cDie, cDie, heldInService_eq, heldInService_eq, h, hb, hh]

/-- One more cell for a frame takes one of the free ones. -/
theorem takeCell_stands {s : State} {id b : Nat} {f : Frame} {pre post : Sparse (Option Frame)} (h : s.StandsAt id f pre post) :
    (s.takeCell id b).StandsAt id { f with cells := f.cells ++ [b] } pre post ∧
      s.physFree ≤ (s.takeCell id b).physFree + 1 := by
  have hstand : (s.takeCell id b).StandsAt id { f with cells := f.cells ++ [b] } pre post := by
    have h' : ({ s with sx.bankPtr := (b + 1) % 16 } : State).StandsAt id f pre post := h
    unfold takeCell
    refine StandsAt.of_frames ?_ (congrArg SxState.frames (pmu_sx _ _ _ _))
    rw [modFrame_some _ _ _ h'.frameOf]
    exact h'.setFrame _
  refine ⟨hstand, ?_⟩
  have hm : moves [.out, .regs, .scope] (({ s with sx.bankPtr := (b + 1) % 16 } : State).modFrame id
      (fun f => { f with cells := f.cells ++ [b] })) (s.takeCell id b) := moves_pmu (List.Subset.refl _) (moves_refl _)
  have hregs : RegsWithin upperRegs s (s.takeCell id b) :=
    regsWithin_pmu (fun _ h => h) ((RegsWithin.refl s).of_regs (by unfold modFrame; split <;> rfl) (by unfold modFrame; split <;> rfl))
  have hbanks : (s.takeCell id b).banks = s.banks := hregs.rg _ (by decide) (.inl (by decide))
  have hham : (s.takeCell id b).hamState = s.hamState := hregs.rg _ (by decide) (.inr (by decide))
  have hheld : (s.takeCell id b).heldInService ≤ s.heldInService + 1 := by
    rw [heldInService_eq, heldInService_eq, hbanks, h.1, hstand.1, framesOf_append, framesOf_append, heldOf_append,
      heldOf_append]
    simp only [framesOf, List.filterMap_cons, Option.map_some, heldOf, List.map_cons, List.sum_cons, List.filter_append,
      List.length_append]
    have : ([b].filter (fun b => s.banks.testBit b)).length ≤ 1 := List.length_filter_le _ _
    omega
  unfold physFree cDie
  rw [hbanks, hham]
  omega

/-- A frame takes the cells that it asks for, where as many are free (R160). -/
theorem takeCells_stands {s : State} {id n : Nat} {f : Frame} {pre post : Sparse (Option Frame)} (h : s.StandsAt id f pre post)
    (hn : n ≤ s.physFree) :
    ∃ l, l.length = n ∧ (s.takeCells id n).StandsAt id { f with cells := f.cells ++ l } pre post := by
  induction n generalizing s f with
  | zero => exact ⟨[], rfl, by rwa [List.append_nil]⟩
  | succ n ih =>
    obtain ⟨b, hb, _⟩ := nextBank_free (s := s) (by omega)
    obtain ⟨hstand, hfree⟩ := takeCell_stands (b := b) h
    obtain ⟨l, hl, hs⟩ := ih hstand (by omega)
    refine ⟨b :: l, by rw [List.length_cons, hl], ?_⟩
    rw [takeCells, hb]
    dsimp only
    rw [show f.cells ++ b :: l = f.cells ++ [b] ++ l by rw [List.append_assoc]; rfl]
    exact hs

/-- A new frame without cells stands in the list of frames, and takes none of the free cells. -/
theorem insert_stands (m : Sparse (Option Frame)) (id b : Nat) (f : Frame) (hc : f.cells = []) :
    ∃ pre post, Sparse.set (fun _ => none) m id (some f) = pre ++ (id, some f) :: post ∧ (∀ e ∈ pre, e.1 < id) ∧
      heldOf b (framesOf (pre ++ (id, some f) :: post)) ≤ heldOf b (framesOf m) := by
  rw [Sparse.set, if_neg (by simp)]
  have empty : heldOf b [(id, f)] = 0 := by simp [heldOf, hc]
  have fresh : framesOf [(id, some f)] = [(id, f)] := rfl
  induction m with
  | nil => exact ⟨[], [], rfl, by simp, by rw [List.nil_append, fresh, empty]; exact Nat.zero_le _⟩
  | cons e m ih =>
    obtain ⟨k, v⟩ := e
    have cons (a : Nat × Option Frame) (l : Sparse (Option Frame)) : heldOf b (framesOf (a :: l)) =
        heldOf b (framesOf [a]) + heldOf b (framesOf l) := by
      rw [← heldOf_append, ← framesOf_append, List.singleton_append]
    rw [Sparse.insert]
    split
    · refine ⟨[], m, rfl, by simp, ?_⟩
      rw [List.nil_append, cons, fresh, empty, cons (k, v)]
      omega
    · split
      · refine ⟨[], (k, v) :: m, rfl, by simp, ?_⟩
        rw [List.nil_append, cons, fresh, empty]
        omega
      · obtain ⟨pre, post, hm, hpre, hheld⟩ := ih
        refine ⟨(k, v) :: pre, post, by rw [hm]; rfl, fun e he => ?_, ?_⟩
        · rcases List.mem_cons.mp he with rfl | he
          · dsimp only; omega
          · exact hpre e he
        · rw [List.cons_append, cons, cons (k, v) m]
          omega

end State

end Sys2Proof.Machine
end

section
/-!
PROOFS. The rings of the host ports: tails, a frame written to an RX ring, the next frame of a TX ring, completions
(R458 to R463).
-/

namespace Sys2Proof.Machine

namespace State

/-! ### Completions -/

theorem ringKey_split (k : Nat) : ringKey (k / 128) (decide (k % 128 ≥ 64)) (k % 64) = k := by
  unfold ringKey
  by_cases h : k % 128 ≥ 64
  · rw [decide_eq_true h, if_pos rfl]; omega
  · rw [decide_eq_false h, if_neg (by decide)]; omega

theorem hpRing_setHp_same (s : State) (key : Nat) (x : HpRing) : (s.setHp key x).hpRing key = x :=
  Sparse.get_set_same (fun _ => idleRing) s.cx.rings key x

theorem hpRing_congr {s t : State} (h : t.cx = s.cx) (key : Nat) : t.hpRing key = s.hpRing key := by
  rw [hpRing, hpRing, h]

/-- A completion event shows its ring pending and starts its count again (R462). -/
theorem hpRaise_ring (s : State) (p : Nat) (tx : Bool) (r : Nat) :
    (s.hpRaise p tx r).hpRing (ringKey p tx r) = { s.hpRing (ringKey p tx r) with comps := 0 } := by
  unfold hpRaise
  dsimp only
  rw [hpRing_congr (raise_cx _ _ _), hpRing_congr (setRg_cx _ _ _), hpRing_setHp_same]

theorem hpRaise_event {s : State} (p : Nat) (tx : Bool) (r : Nat) (hu : s.socUp = true) :
    (s.hpRaise p tx r).evSet (if tx then 209 else 208) = true := by
  unfold hpRaise
  dsimp only
  refine evSet_raise_self _ _ _ ?_
  rw [socUp_setRg]
  exact hu

theorem hpComplete_next (s : State) (p : Nat) (tx : Bool) (r : Nat) :
    ((s.hpComplete p tx r).hpRing (ringKey p tx r)).next = (s.hpRing (ringKey p tx r)).next := by
  have counted (c : Prop) (i : Decidable c) (x : HpRing) :
      ((if c then (s.setHp (ringKey p tx r) x).hpRaise p tx r else s.setHp (ringKey p tx r) x).hpRing
        (ringKey p tx r)).next = x.next := by
    split
    · rw [hpRaise_ring, hpRing_setHp_same]
    · rw [hpRing_setHp_same]
  exact counted _ _ _

theorem txFlush_next (s : State) (p r n : Nat) :
    ((s.txFlush p r n).hpRing (ringKey p true r)).next = (s.hpRing (ringKey p true r)).next := by
  induction n generalizing s with
  | zero => rfl
  | succ n ih =>
    rw [txFlush]
    dsimp only
    split
    · next j js _ =>
      split
      · have hdone (u : State) : (u.txDescDone p r j).cx = u.cx :=
          (moves_txDescDone (ps := [.regs, .mx]) (List.Subset.refl _) (moves_refl u)).1 .cx (by decide)
        rw [ih, hpComplete_next, hpRing_congr (setRg_cx _ _ _), hpRing_congr (hdone _), hpRing_setHp_same]
      · rfl
    · rfl

/-- A job that joins a TX ring moves it past the job's frame (R461). -/
theorem txJob_next (s : State) (p r : Nat) (j : TxJob) :
    ((s.txJob p r j).hpRing (ringKey p true r)).next = (j.first + j.count) % s.hpSize p true r := by
  unfold txJob
  dsimp only
  rw [txFlush_next, hpRing_setHp_same]

theorem hpSize_congr {s t : State} (h : t.active = s.active) (p : Nat) (tx : Bool) (r : Nat) : t.hpSize p tx r = s.hpSize p tx r := by
  simp only [hpSize, act_congr h]

theorem dramUe_moves (s : State) (a : Nat) : moves [.out, .regs, .scope, .ob, .mx] s (s.dramUe a) :=
  moves_dramUe (List.Subset.refl _) (moves_refl s)

theorem txDescBad_none {s : State} {p r first n ecc : Nat} (he : ecc < 3)
    (hb : ∀ i < n, s.badUnit (s.hpDesc p true r (first + i)) 32 = none) : s.txDescBad p r first n ecc = none := by
  refine List.find?_eq_none.mpr fun i hi => ?_
  rw [hb i (List.mem_range.mp hi), decide_eq_false (by omega)]
  decide

/-- The port moves its ring past the frame that it reads, whatever becomes of it (R461, R463). -/
theorem txServe_next {s : State} {p r ecc : Nat} (he : ecc < 3)
    (hb : ∀ i < s.txReady p r, s.badUnit (s.hpDesc p true r ((s.hpRing (ringKey p true r)).next + i)) 32 = none) :
    ((s.txServe p r ecc).hpRing (ringKey p true r)).next =
      ((s.hpRing (ringKey p true r)).next + s.txReady p r) % s.hpSize p true r := by
  have ue (a : Nat) : (s.dramUe a).active = s.active := (dramUe_moves s a).1 .active (by decide)
  unfold txServe
  dsimp only
  rw [txDescBad_none he hb]
  dsimp only
  split
  · rw [txJob_next, hpSize_congr (bump_active _ _ _)]
  · split
    · rw [txJob_next, hpSize_congr (ue _)]
    · have start : ∀ u : State, u.active = s.active → ∀ ds, ((u.txEnter p r (s.hpRing (ringKey p true r)).next (s.txReady p r) ds
          ecc).hpRing (ringKey p true r)).next = ((s.hpRing (ringKey p true r)).next + s.txReady p r) % s.hpSize p true r := by
        intro u hu ds
        unfold txEnter
        dsimp only
        rw [txJob_next]
        refine congrArg _ (hpSize_congr ((bump_active _ _ _).trans (.trans ?_ hu)) p true r)
        have hm : ∀ v : State, ∀ bs g, moves [.freeN, .out, .regs, .scope, .pw, .sx, .fx, .ob, .aon, .cx, .mx] v
            (v.enterWhole (36 + p) bs g) := fun v _ _ => moves_enterWhole (List.Subset.refl _) (moves_refl v)
        rw [(hm _ _ _).1 .active (by decide)]
        rfl
      refine start _ ?_ _
      split
      · exact ue _
      · rfl

/-! ### A frame written to an RX ring -/

theorem rxDesc_length (f : Frame) (tc crc len err : Nat) (first last trapped : Bool) :
    (rxDesc f tc crc len err first last trapped).length = 24 := by
  simp [rxDesc, leBytes_length]

theorem rxDesc_len (f : Frame) (tc crc len err : Nat) (first last trapped : Bool) :
    ((rxDesc f tc crc len err first last trapped).drop 0).take 2 = leBytes 2 len := by
  unfold rxDesc
  simp only [List.drop_zero, List.append_assoc]
  rw [List.take_append_of_le_length (by rw [leBytes_length]), List.take_of_length_le (by rw [leBytes_length])]

theorem rxDesc_hash (f : Frame) (tc crc len err : Nat) (first last trapped : Bool) :
    ((rxDesc f tc crc len err first last trapped).drop 16).take 4 = leBytes 4 crc := by
  have hd : ∀ a b : List Byte, a.length = 16 → ((a ++ leBytes 4 crc ++ b).drop 16).take 4 = leBytes 4 crc := by
    intro a b ha
    rw [List.append_assoc, List.drop_append, List.drop_of_length_le (by omega), ha, Nat.sub_self, List.drop_zero,
      List.nil_append, List.take_append_of_le_length (by rw [leBytes_length]), List.take_of_length_le (by rw [leBytes_length])]
  exact hd _ _ (by simp [leBytes_length])

/-- One buffer with its descriptor: what its place, the descriptor and the bytes beside them read. -/
theorem rxBuffer_dram (s : State) (p r i : Nat) (chunk : List Byte) {desc : List Byte} (hdesc : desc.length = 24) :
    (s.dramOk (ofLe (s.dramRd (s.hpDesc p false r i) 8)) chunk.length = true →
        (ofLe (s.dramRd (s.hpDesc p false r i) 8) + chunk.length ≤ s.hpDesc p false r i + 8 ∨
          s.hpDesc p false r i + 32 ≤ ofLe (s.dramRd (s.hpDesc p false r i) 8)) →
        (s.rxBuffer p r i chunk desc).dramRd (ofLe (s.dramRd (s.hpDesc p false r i) 8)) chunk.length = chunk) ∧
      (∀ j n, j + n ≤ 24 →
        (s.rxBuffer p r i chunk desc).dramRd (s.hpDesc p false r i + 8 + j) n = (desc.drop j).take n) ∧
      ∀ y, (y < s.hpDesc p false r i + 8 ∨ s.hpDesc p false r i + 32 ≤ y) →
        (y < ofLe (s.dramRd (s.hpDesc p false r i) 8) ∨
          ofLe (s.dramRd (s.hpDesc p false r i) 8) + chunk.length ≤ y) →
        (s.rxBuffer p r i chunk desc).dramRd y 1 = s.dramRd y 1 := by
  unfold rxBuffer
  dsimp only
  generalize s.hpDesc p false r i = d
  generalize ofLe (s.dramRd d 8) = a
  have arb (u : State) (x n : Nat) : (u.arbBytes 0 (chunk.length + 32)).dramRd x n = u.dramRd x n := rfl
  refine ⟨fun hok hap => ?_, fun j n hj => ?_, fun y hy hy' => ?_⟩
  · rw [arb, dramRd_dramWr_apart (by rw [hdesc]; omega), hok, if_pos rfl, dramRd_dramWr_same]
  · rw [arb, dramRd_dramWr_inside (by rw [hdesc]; exact hj)]
  · rw [arb, dramRd_dramWr_apart (by rw [hdesc]; omega)]
    split
    · exact dramRd_dramWr_apart (by omega)
    · rfl

/-- A frame that one posted descriptor holds is taken into its ring (R459). -/
theorem rxRefused_takes {s : State} {p r tc crc : Nat} {f : Frame} {bs : List Byte} (hon : s.hpOn p false r = true)
    (hp : s.hpPosted p false r (s.rg (F.CX_HP_RX_HEAD_HEAD p r)) ≠ 0) (hn : s.rxNeed p r bs.length = 1)
    (hb : s.badUnit (s.hpDesc p false r (s.rg (F.CX_HP_RX_HEAD_HEAD p r))) 32 = none) :
    s.rxRefused p r f tc crc bs false none = none := by
  have htakes : s.rxTakes p r bs.length = 1 := by rw [rxTakes, hn]; omega
  have hbad : s.rxDescBad p r bs.length none = none := by
    unfold rxDescBad
    rw [htakes]
    refine List.find?_eq_none.mpr fun i hi => ?_
    have hi0 : i = 0 := by have := List.mem_range.mp hi; omega
    rw [hi0, Nat.add_zero, hb]
    decide
  rw [rxRefused, hon, if_neg (by decide), if_neg hp, hbad]

/-- Such a frame is written into its one buffer, and the head moves (R459, R460). -/
theorem rxWrite_one {s : State} {p r tc crc err : Nat} {f : Frame} {bs : List Byte}
    (hp : s.hpPosted p false r (s.rg (F.CX_HP_RX_HEAD_HEAD p r)) ≠ 0) (hn : s.rxNeed p r bs.length = 1)
    (hlen : bs.length ≤ s.rxBuf p r) :
    s.rxWrite p r f tc crc err bs false =
      ((((s.rxBuffer p r (s.rg (F.CX_HP_RX_HEAD_HEAD p r)) bs (rxDesc f tc crc bs.length err true true false)).setRg
        (F.CX_HP_RX_HEAD_HEAD p r) ((s.rg (F.CX_HP_RX_HEAD_HEAD p r) + 1) % s.hpSize p false r)).bump
          (F.HP_RX_FRAMES_COUNT p)).hpComplete p false r) := by
  have htakes : s.rxTakes p r bs.length = 1 := by rw [rxTakes, hn]; omega
  have hbuffers : s.rxBuffers p r f tc crc err 1 1 bs false =
      (s.rxBuffer p r (s.rg (F.CX_HP_RX_HEAD_HEAD p r)) bs (rxDesc f tc crc bs.length err true true false)).setRg
        (F.CX_HP_RX_HEAD_HEAD p r) ((s.rg (F.CX_HP_RX_HEAD_HEAD p r) + 1) % s.hpSize p false r) := by
    have hone : s.forEach (List.range 1) (fun t i =>
        t.rxBuffer p r (s.rg (F.CX_HP_RX_HEAD_HEAD p r) + i) ((bs.drop (i * s.rxBuf p r)).take (s.rxBuf p r))
          (rxDesc f tc crc ((bs.drop (i * s.rxBuf p r)).take (s.rxBuf p r)).length err (decide (i = 0)) (decide (i + 1 = 1)) false)) =
        s.rxBuffer p r (s.rg (F.CX_HP_RX_HEAD_HEAD p r)) bs (rxDesc f tc crc bs.length err true true false) := by
      show s.rxBuffer p r (s.rg (F.CX_HP_RX_HEAD_HEAD p r) + 0) ((bs.drop (0 * s.rxBuf p r)).take (s.rxBuf p r))
          (rxDesc f tc crc ((bs.drop (0 * s.rxBuf p r)).take (s.rxBuf p r)).length err true true false) = _
      rw [Nat.zero_mul, List.drop_zero, List.take_of_length_le hlen, Nat.add_zero]
    unfold rxBuffers
    dsimp only
    rw [hone]
    have hm : moves [.regs, .mx] s (s.rxBuffer p r (s.rg (F.CX_HP_RX_HEAD_HEAD p r)) bs
        (rxDesc f tc crc bs.length err true true false)) := moves_rxBuffer (List.Subset.refl _) (moves_refl s)
    rw [hpSize_congr (hm.1 .active (by decide))]
  unfold rxWrite
  dsimp only
  rw [htakes, hn, if_neg (by decide), hbuffers]

theorem rxNeed_one {s : State} {p r n : Nat} (h : n ≤ s.rxBuf p r) : s.rxNeed p r n = 1 := by
  have hpos : 0 < s.rxBuf p r := by
    unfold rxBuf orElse
    dsimp only
    split
    · next hv => have := of_decide_eq_true hv; omega
    · decide
  unfold rxNeed
  have : (n + s.rxBuf p r - 1) / s.rxBuf p r ≤ 1 := by
    rw [Nat.div_le_iff_le_mul_add_pred hpos]; omega
  omega

theorem hpSize_le (s : State) (p : Nat) (tx : Bool) (r : Nat) : 0 < s.hpSize p tx r ∧ s.hpSize p tx r ≤ 65536 := by
  unfold hpSize orElse
  dsimp only
  generalize (if tx = true then s.act (F.CX_HP_TX_CFG_SIZE p r) else s.act (F.CX_HP_RX_CFG_SIZE p r)) = v
  have h12 : (if decide (v ≤ 12) = true then v else 12) ≤ 12 := by
    split
    · next h => exact of_decide_eq_true h
    · exact Nat.le_refl _
  exact ⟨Nat.two_pow_pos _, (Nat.pow_le_pow_right (by decide) (show _ ≤ 16 by omega) : 2 ^ _ ≤ 2 ^ 16)⟩

/-- The registers that the end of a frame's transfer to a host port may write besides those of its ring. -/
def afterRing (off : Nat) : Prop := off < 0x8000000 ∨ 0xB000000 ≤ off

/-- The count and the mirror of a frame that a host port has taken. -/
def hpCounted (s : State) (port n : Nat) (bs : List Byte) : State :=
  ((s.bump64 (R.PX_TX_FRAMES port)).bump64 (R.PX_TX_BYTES port) n).csuSee 2 port bs

theorem hpCounted_shows (s : State) {port : Nat} (hp : port < 41) (n : Nat) (bs : List Byte) :
    RegsWithin afterRing s (s.hpCounted port n bs) ∧ (s.hpCounted port n bs).mx = s.mx ∧
      (s.hpCounted port n bs).sx = s.sx := by
  have hm : moves [.regs, .ob] s (s.hpCounted port n bs) :=
    moves_csuSee (by decide) (moves_bump64 (by decide) (moves_bump64 (by decide) (moves_refl s)))
  refine ⟨?_, hm.1 .mx (by decide), hm.1 .sx (by decide)⟩
  refine RegsWithin.of_moves ?_ (moves_csuSee (ps := [.ob]) (List.Subset.refl _) (moves_refl _)) (by decide)
  exact ((RegsWithin.refl s).bump64 (.inl (by unfold R.PX_TX_FRAMES; omega)) (.inl (by unfold R.PX_TX_FRAMES; omega))
    (.inr (by unfold R.PX_TX_FRAMES; omega))).bump64 (.inl (by unfold R.PX_TX_BYTES; omega))
      (.inl (by unfold R.PX_TX_BYTES; omega)) (.inr (by unfold R.PX_TX_BYTES; omega))

/-- The last of a frame's copies, sent or dropped, and the drain after it: DRAM and the rings' registers stay. -/
theorem ringEnd_shows {s u : State} (h : EndsQuiet s u) :
    u.drainDone.mx = s.mx ∧ ∀ f : Fld, 0x8000000 ≤ f.off → f.off < 0xB000000 → u.drainDone.rg f = s.rg f := by
  refine ⟨((drainDone_moves u).1 .mx (by decide)).trans h.mx, fun f h1 h2 => ?_⟩
  rw [rg_drainDone _ _ (by dsimp only; omega) (.inr (by omega)), h.regs.rg f (by simp only [obRegs]; omega) (.inr (by omega))]

/-! ### A frame read from a TX ring -/

theorem cfg_congr {s t : State} (ha : t.active = s.active) (hsh : t.shadow = s.shadow) (hsw : t.swapped = s.swapped)
    (he : t.epoch = s.epoch) (ep : Nat) (f : Fld) : t.cfg ep f = s.cfg ep f := by
  rw [cfg, cfg, copyOf, copyOf, usesOther, usesOther, activeOf_congr ha, shadowOf_congr hsh, hsw, he]

/-- A frame without its CE state that has its bytes. -/
def arrived (f : Frame) (data : List Byte) : Frame :=
  { f with bytes := data, len := data.length + 4, rxLen := data.length + 4 }

/-- A frame as a host port starts it: nothing of it has been received yet. -/
def Started (f : Frame) : Prop := f.ce = none ∧ f.bytes = [] ∧ f.cells = [] ∧ f.zombie = false ∧ hasMac f.port = false

/-- The frame of a port, with the bytes that the port gives it. -/
def portFilled (s : State) (id p : Nat) (f : Frame) (data : List Byte) : State :=
  ((s.csuSee 1 p (data ++ fcsBytes data)).rxIdle p).setFrame id (some (arrived f data))

/-- A good frame of an internal port is received whole (R132 to R135, R461). -/
theorem endRx_host {s : State} {id p : Nat} {f : Frame} {data : List Byte} (hrx : s.rxOf p = some id)
    (hf : s.frameOf id = some f) (hs : Started f) (hm : hasMac p = false) (hmin : s.runtMin f.epoch p ≤ data.length + 4)
    (hmax : data.length + 4 ≤ s.maxLen f.epoch p) (hctl : beAt data 12 2 ≠ 0x8808) :
    s.endRx p (data ++ fcsBytes data) = ((s.portFilled id p f data).cellsUpTo id).rxGood id p (data.length + 4) 0 0 := by
  obtain ⟨hce, hbytes, hcells, _, hmac⟩ := hs
  have hwire : f.wireBytes = [] := by rw [Frame.wireBytes, hce]; exact hbytes
  have hlen : (data ++ fcsBytes data).length = data.length + 4 := by rw [List.length_append, fcsBytes, leBytes_length]
  have htake : (data ++ fcsBytes data).take (data.length + 4 - 4) = data := by
    rw [Nat.add_sub_cancel, List.take_append_of_le_length (Nat.le_refl _), List.take_length]
  have hfill : ((s.csuSee 1 p (data ++ fcsBytes data)).rxIdle p).modFrame id (fun f => { f.withWire data with
      len := data.length + 4, rxLen := data.length + 4 }) = s.portFilled id p f data := by
    have hf' : ((s.csuSee 1 p (data ++ fcsBytes data)).rxIdle p).frameOf id = some f := by
      rw [frameOf_rxIdle, frameOf_congr (csuSee_sx _ _ _ _), hf]
    rw [modFrame_some _ _ _ hf', portFilled, arrived, Frame.withWire, hce]
  have hsum : s.csumChecked f = false := by rw [csumChecked, hmac, Bool.false_and]
  unfold endRx
  rw [hrx]
  dsimp only
  rw [hf]
  dsimp only
  rw [hwire, List.nil_append, hlen, htake, hfill, if_neg (fun h => absurd h.1 (by omega)), if_neg (by omega), hm,
    Bool.false_and, if_neg (by decide), if_neg hctl, hsum, if_neg (by decide)]

/-- What becomes of a frame that takes its cells: it holds them, or there were too few and it is lost (R160). -/
theorem cellsUpTo_frame {s : State} {id : Nat} {f : Frame} (hf : s.frameOf id = some f) :
    ∀ g, (s.cellsUpTo id).frameOf id = some g → g.zombie = true ∨ ∃ l, g = { f with cells := l } := by
  intro g hg
  unfold cellsUpTo at hg
  rw [hf] at hg
  dsimp only at hg
  split at hg
  · rw [hf] at hg
    cases hg
    exact .inr ⟨_, rfl⟩
  · obtain ⟨l, hl⟩ := takeCells_frame hf (cellsFor f.len - f.cells.length)
    rw [hl] at hg
    dsimp only at hg
    split at hg
    · rw [noCell, frameOf_congr (raise_sx _ _ _), frameOf_congr (bump_sx _ _ _)] at hg
      exact .inl (frameOf_dropFrame _ _ _ g hg).1
    · rw [frameOf_checkMarks, hl] at hg
      cases hg
      exact .inr ⟨l, rfl⟩

/-- While there are free cells, the frame stays. -/
theorem cellsUpTo_stands {s : State} {id : Nat} {f : Frame} {pre post : Sparse (Option Frame)} (h : s.StandsAt id f pre post)
    (hc : f.cells = []) (hz : f.zombie = false) (hn : cellsFor f.len ≤ s.physFree) :
    ∃ g, (s.cellsUpTo id).frameOf id = some g ∧ g.zombie = false := by
  have hf := h.frameOf
  unfold cellsUpTo
  rw [hf]
  dsimp only
  split
  · exact ⟨f, hf, hz⟩
  · rw [hc, List.length_nil, Nat.sub_zero]
    obtain ⟨l, hl, hstand⟩ := takeCells_stands h hn
    rw [hc, List.nil_append] at hstand
    rw [hstand.frameOf]
    dsimp only
    rw [if_neg (by omega), frameOf_checkMarks]
    exact ⟨_, hstand.frameOf, hz⟩

theorem cellsUpTo_moves (s : State) (id : Nat) :
    moves [.freeN, .out, .regs, .scope, .sx, .ob, .cx, .mx] s (s.cellsUpTo id) :=
  moves_cellsUpTo (List.Subset.refl _) (moves_refl s)

theorem t1sFrame_host {s : State} {p : Nat} (hp : 36 ≤ p) (smac : Nat) : s.t1sFrame p smac = s := by
  rw [t1sFrame, if_neg (by omega)]

/-- A good frame's count and length, and the learn requests that it confirms. -/
def goodCounted (s : State) (id p len : Nat) : State :=
  let t := (s.bump64 (R.PX_RX_FRAMES p)).bump64 (R.PX_RX_BYTES p) len
  { t with fx.learn := t.fx.learn.map (fun (r : LearnReq) =>
      if r.frame = id then { r with ok := (t.frameOf id).any Frame.verified } else r) }

theorem goodCounted_frames (s : State) (id p len k : Nat) : (s.goodCounted id p len).frameOf k = s.frameOf k := by
  refine frameOf_congr ?_ k
  unfold goodCounted
  dsimp only
  rw [bump64_sx, bump64_sx]

/-- A frame whose end has been counted good, without a checksum check. -/
def foundGood (f : Frame) : Frame := { f with rxDone := true, good := true, l3 := 0, l4 := 0, lines := [] }

theorem rxGood_host {s : State} {p : Nat} (hp : 36 ≤ p) (id len : Nat) :
    s.rxGood id p len 0 0 = match s.frameOf id with
      | none => s.goodCounted id p len
      | some f =>
        if f.zombie then ((s.goodCounted id p len).lineEnd f).setFrame id none
        else ((s.goodCounted id p len).lineEnd f).setFrame id
          (some (foundGood f)) := by
  unfold rxGood
  dsimp only
  rw [t1sFrame_host hp, if_neg (by decide)]
  show (match (s.goodCounted id p len).frameOf id with
    | none => s.goodCounted id p len
    | some f =>
      if f.zombie then ((s.goodCounted id p len).lineEnd f).setFrame id none
      else ((s.goodCounted id p len).lineEnd f).setFrame id
        (some (foundGood f))) = _
  rw [goodCounted_frames]

/-- A good frame that the buffer holds is received; what has been lost meanwhile is gone (R135). -/
theorem rxGood_frame {s : State} {p : Nat} (hp : 36 ≤ p) (id len : Nat) :
    (s.rxGood id p len 0 0).frameOf id = (s.frameOf id).bind (fun f => if f.zombie then none
      else some (foundGood f)) := by
  rw [rxGood_host hp]
  cases hf : s.frameOf id with
  | none => exact (goodCounted_frames s id p len id).trans hf
  | some f =>
    dsimp only [Option.bind_some]
    cases f.zombie
    · exact frameOf_setFrame_same _ id _
    · exact frameOf_setFrame_same _ id _

/-- The counts of good frames of a port, and what its lines report. -/
def goodRegs (p off : Nat) : Prop := (0x1100100 + 0x1000 * p ≤ off ∧ off < 0x1100110 + 0x1000 * p) ∨ obRegs off

theorem rxGood_regs {s : State} {p : Nat} (hp : 36 ≤ p) (hp' : p < 41) (id len : Nat) :
    RegsWithin (goodRegs p) s (s.rxGood id p len 0 0) ∧
      (s.rxGood id p len 0 0).rd64 (R.PX_RX_FRAMES p) = (s.rd64 (R.PX_RX_FRAMES p) + 1) % 2 ^ 64 := by
  have counted : RegsWithin (goodRegs p) s (s.goodCounted id p len) := by
    refine RegsWithin.of_regs (s := (s.bump64 (R.PX_RX_FRAMES p)).bump64 (R.PX_RX_BYTES p) len) ?_ rfl rfl
    have inside (o : Nat) (h1 : 0x1100100 + 0x1000 * p ≤ o) (h2 : o < 0x1100110 + 0x1000 * p) : goodRegs p o := .inl ⟨h1, h2⟩
    exact ((RegsWithin.refl s).bump64 (inside _ (by unfold R.PX_RX_FRAMES; omega) (by unfold R.PX_RX_FRAMES; omega))
      (inside _ (by unfold R.PX_RX_FRAMES; omega) (by unfold R.PX_RX_FRAMES; omega)) (.inr (by unfold R.PX_RX_FRAMES; omega))).bump64
      (inside _ (by unfold R.PX_RX_BYTES; omega) (by unfold R.PX_RX_BYTES; omega))
      (inside _ (by unfold R.PX_RX_BYTES; omega) (by unfold R.PX_RX_BYTES; omega)) (.inr (by unfold R.PX_RX_BYTES; omega))
  have shown : (s.goodCounted id p len).rd64 (R.PX_RX_FRAMES p) = (s.rd64 (R.PX_RX_FRAMES p) + 1) % 2 ^ 64 := by
    show ((s.bump64 (R.PX_RX_FRAMES p)).bump64 (R.PX_RX_BYTES p) len).rd64 (R.PX_RX_FRAMES p) = _
    rw [rd64_bump64_other _ _ (by unfold R.PX_RX_FRAMES R.PX_RX_BYTES; omega), rd64_bump64_self]
  have lined (f : Frame) : RegsWithin obRegs (s.goodCounted id p len) ((s.goodCounted id p len).lineEnd f) :=
    regsWithin_lineEnd (fun _ h => h) (.refl _)
  have kept (f : Frame) (x : Option Frame) :
      RegsWithin (goodRegs p) s (((s.goodCounted id p len).lineEnd f).setFrame id x) ∧
      (((s.goodCounted id p len).lineEnd f).setFrame id x).rd64 (R.PX_RX_FRAMES p) = (s.rd64 (R.PX_RX_FRAMES p) + 1) % 2 ^ 64 := by
    refine ⟨(counted.trans ((lined f).mono fun _ h => .inr h)).of_regs rfl rfl, ?_⟩
    show ((s.goodCounted id p len).lineEnd f).rd64 (R.PX_RX_FRAMES p) = _
    rw [← shown]
    exact rd64_congr ((lined f).rd _ (by simp only [obRegs, R.PX_RX_FRAMES]; omega) (.inr (by unfold R.PX_RX_FRAMES; omega)))
      ((lined f).rd _ (by simp only [obRegs, R.PX_RX_FRAMES]; omega) (.inr (by unfold R.PX_RX_FRAMES; omega)))
  rw [rxGood_host hp]
  cases s.frameOf id with
  | none => exact ⟨counted, shown⟩
  | some f =>
    dsimp only
    split
    · exact kept f none
    · exact kept f _

/-! ### A frame enters whole -/

/-- The registers that a frame may write as it takes its cells: the buffer's, and those of its end where it finds none. -/
def cellRegs (off : Nat) : Prop := (0x2000000 ≤ off ∧ off < 0x3000000) ∨ upperRegs off

theorem regsWithin_takeCells (s : State) (id n : Nat) : RegsWithin cellRegs s (s.takeCells id n) := by
  induction n generalizing s with
  | zero => exact .refl s
  | succ n ih =>
    rw [takeCells]
    split
    · next b _ =>
      refine RegsWithin.trans ?_ (ih (s.takeCell id b))
      unfold takeCell
      refine regsWithin_pmu (fun _ h => .inr h) (RegsWithin.of_regs (.refl s) ?_ ?_)
      · unfold modFrame; split <;> rfl
      · unfold modFrame; split <;> rfl
    · exact .refl s

theorem regsWithin_cellsUpTo {s : State} {id : Nat} (hp : ∀ f, s.frameOf id = some f → f.port < 41) :
    RegsWithin cellRegs s (s.cellsUpTo id) := by
  unfold cellsUpTo
  split
  · exact .refl s
  · next f hf =>
    dsimp only
    have hport := hp f hf
    have taken := regsWithin_takeCells s id (cellsFor f.len - f.cells.length)
    split
    · exact .refl s
    · split
      · exact taken
      · split
        · unfold noCell
          exact RegsWithin.raise (by decide) (RegsWithin.bump (.inl (by dsimp only; omega)) (.inr (by dsimp only; omega))
            (regsWithin_dropFrame (fun _ h => .inr h) taken))
        · exact regsWithin_checkMarks taken

/-- A frame that a port starts, with what its port knows of it. -/
def hostStart (s : State) (p : Nat) (g : Frame → Frame) : State := (s.startFrame p).modFrame s.sx.nextId g

/-- The record that a port's new frame starts with (R22). -/
def startRecord (s : State) (p : Nat) : Frame :=
  { newFrame p (s.portEpoch p) (s.stampTi (s.portEpoch p) p) (s.ingressStamp (s.portEpoch p) p) s.now (s.pegCount p).2 with
    directive := none }

theorem pegCount_sx (s : State) (p : Nat) : (s.pegCount p).1.sx = s.sx :=
  (moves_pegCount (ps := [.freeN, .ob]) (List.Subset.refl _) (moves_refl s)).1 .sx (by decide)

theorem regsWithin_hostStart {W : Nat → Prop} (hW : W F.SX_RSV_TOTAL_SCALED.off) (s : State) (p : Nat) (g : Frame → Frame) :
    RegsWithin W s (s.hostStart p g) := by
  have start : RegsWithin W s (s.startFrame p) := by
    have peg : RegsWithin W s (s.pegCount p).1 :=
      (RegsWithin.refl s).of_moves (moves_pegCount (ps := [.freeN, .ob]) (List.Subset.refl _) (moves_refl s)) (by decide)
    unfold startFrame
    dsimp only
    split
    · exact regsWithin_judgeRsv hW (peg.of_regs rfl rfl)
    · exact peg.of_regs rfl rfl
  refine start.of_regs ?_ ?_
  · unfold hostStart modFrame; split <;> rfl
  · unfold hostStart modFrame; split <;> rfl

theorem hostStart_eq (s : State) (p : Nat) (g : Frame → Frame) :
    s.hostStart p g = (s.startFrame p).setFrame s.sx.nextId (some (g (s.startRecord p))) :=
  modFrame_some _ _ _ (frameOf_startFrame s p none)

theorem heldOf_standing (b id : Nat) {f g : Frame} (h : f.cells = g.cells) (pre post : Sparse (Option Frame)) :
    heldOf b (framesOf (pre ++ (id, some f) :: post)) = heldOf b (framesOf (pre ++ (id, some g) :: post)) := by
  rw [framesOf_append, framesOf_append, heldOf_append, heldOf_append]
  simp [framesOf, heldOf, h]

/-- The new frame stands in the buffer, which has as many free cells as before. -/
theorem hostStart_stands (s : State) (p : Nat) (g : Frame → Frame) (hc : ∀ f, (g f).cells = f.cells) :
    ∃ pre post, (s.hostStart p g).StandsAt s.sx.nextId (g (s.startRecord p)) pre post ∧
      heldOf s.banks (framesOf (s.hostStart p g).sx.frames) ≤ heldOf s.banks (framesOf s.sx.frames) := by
  obtain ⟨pre, post, hset, hpre, hheld⟩ := insert_stands s.sx.frames s.sx.nextId s.banks (s.startRecord p) rfl
  have hstart : (s.startFrame p).StandsAt s.sx.nextId (s.startRecord p) pre post := by
    refine ⟨?_, hpre⟩
    rw [startFrame_sx, pegCount_sx]
    exact hset
  have hst : (s.hostStart p g).StandsAt s.sx.nextId (g (s.startRecord p)) pre post := by
    rw [hostStart_eq]
    exact hstart.setFrame _
  refine ⟨pre, post, hst, ?_⟩
  rw [hst.1, heldOf_standing s.banks s.sx.nextId (hc (s.startRecord p)) pre post]
  exact hheld

theorem rxIdle_frames (s : State) (p : Nat) : (s.rxIdle p).sx.frames = s.sx.frames := rfl

theorem portFilled_stands {s : State} {id p : Nat} {f : Frame} {pre post : Sparse (Option Frame)} (data : List Byte)
    (h : s.StandsAt id f pre post) : (s.portFilled id p f data).StandsAt id (arrived f data) pre post := by
  unfold portFilled
  refine StandsAt.setFrame (h.of_frames ?_) _
  rw [rxIdle_frames, csuSee_sx]

theorem regsWithin_portFilled {W : Nat → Prop} {s0 s : State} {id p : Nat} {f : Frame} {data : List Byte}
    (h : RegsWithin W s0 s) : RegsWithin W s0 (s.portFilled id p f data) := by
  have seen : RegsWithin W s0 (s.csuSee 1 p (data ++ fcsBytes data)) :=
    h.of_moves (moves_csuSee (ps := [.ob]) (List.Subset.refl _) (moves_refl _)) (by decide)
  unfold portFilled
  generalize s.csuSee 1 p (data ++ fcsBytes data) = u at seen ⊢
  exact seen.of_regs rfl rfl

/-- What the port knows of a frame besides its bytes leaves its record's place, its copies and its CE state. -/
def KeepsStart (g : Frame → Frame) : Prop :=
  ∀ f, (g f).ce = f.ce ∧ (g f).bytes = f.bytes ∧ (g f).cells = f.cells ∧ (g f).zombie = f.zombie ∧ (g f).port = f.port ∧
    (g f).epoch = f.epoch

/-- A frame that is received whole. -/
def receivedWhole (f : Frame) (data : List Byte) (l : List Nat) : Frame :=
  foundGood { arrived f data with cells := l }

theorem enterWhole_eq {s : State} {p : Nat} {data : List Byte} {g : Frame → Frame} (hg : KeepsStart g)
    (hp : p = 36 ∨ p = 37) (hmin : s.runtMin (s.portEpoch p) p ≤ data.length + 4)
    (hmax : data.length + 4 ≤ s.maxLen (s.portEpoch p) p) (hctl : beAt data 12 2 ≠ 0x8808) :
    s.enterWhole p data g = (((s.hostStart p g).portFilled s.sx.nextId p (g (s.startRecord p)) data).cellsUpTo
      s.sx.nextId).rxGood s.sx.nextId p (data.length + 4) 0 0 := by
  have hm : moves [.freeN, .out, .regs, .scope, .sx, .ob] s (s.hostStart p g) :=
    moves_modFrame (by decide) (moves_startFrame (List.Subset.refl _) (moves_refl s))
  have hepoch : (s.hostStart p g).epoch = s.epoch :=
    (regsWithin_hostStart (W := (· = F.SX_RSV_TOTAL_SCALED.off)) rfl s p g).rg _ (by decide) (.inl (by decide))
  have hcfg := cfg_congr (hm.1 .active (by decide)) (hm.1 .shadow (by decide)) (hm.1 .swapped (by decide)) hepoch
  obtain ⟨hce, hbytes, hcells, hzombie, hport, hep⟩ := hg (s.startRecord p)
  have hep' : (g (s.startRecord p)).epoch = s.portEpoch p := hep
  have hmac : hasMac p = false := by rcases hp with rfl | rfl <;> decide
  refine endRx_host (s := s.hostStart p g) ?_ ?_ ⟨hce, hbytes, hcells, hzombie, by rw [hport]; exact hmac⟩ hmac ?_ ?_ hctl
  · rw [hostStart_eq, rxOf_setFrame, rxOf_startFrame_same]
  · rw [hostStart_eq, frameOf_setFrame_same]
  · rw [hep', runtMin, hcfg]; exact hmin
  · rw [hep', maxLen, hcfg]; exact hmax

/-- A frame that a host port gives enters whole: it is received, or lost for want of cells (R132 to R135, R160, R461). -/
theorem enterWhole_shows {s : State} {p : Nat} {data : List Byte} {g : Frame → Frame} (hg : KeepsStart g)
    (hp : p = 36 ∨ p = 37) (hmin : s.runtMin (s.portEpoch p) p ≤ data.length + 4)
    (hmax : data.length + 4 ≤ s.maxLen (s.portEpoch p) p) (hctl : beAt data 12 2 ≠ 0x8808) :
    (∀ h, (s.enterWhole p data g).frameOf s.sx.nextId = some h →
        ∃ l, h = receivedWhole (g (s.startRecord p)) data l) ∧
      (cellsFor (data.length + 4) ≤ s.physFree → (s.enterWhole p data g).frameOf s.sx.nextId ≠ none) ∧
      (s.enterWhole p data g).rd64 (R.PX_RX_FRAMES p) = (s.rd64 (R.PX_RX_FRAMES p) + 1) % 2 ^ 64 ∧
      ∀ f : Fld, 0x8100200 ≤ f.off → f.off < 0xB000000 → ¬ cellRegs f.off →
        (s.enterWhole p data g).rg f = s.rg f := by
  have hp36 : 36 ≤ p := by omega
  obtain ⟨hce, hbytes, hcells, hzombie, hport, _⟩ := hg (s.startRecord p)
  obtain ⟨pre, post, hstand, hheld⟩ := hostStart_stands s p g (fun f => (hg f).2.2.1)
  have hfilled := portFilled_stands (p := p) data hstand
  have hregs : RegsWithin (· = F.SX_RSV_TOTAL_SCALED.off) s
      ((s.hostStart p g).portFilled s.sx.nextId p (g (s.startRecord p)) data) :=
    regsWithin_portFilled (regsWithin_hostStart (W := (· = F.SX_RSV_TOTAL_SCALED.off)) rfl s p g)
  rw [enterWhole_eq hg hp hmin hmax hctl]
  have hheld' : heldOf s.banks (framesOf ((s.hostStart p g).portFilled s.sx.nextId p (g (s.startRecord p)) data).sx.frames) ≤
      heldOf s.banks (framesOf s.sx.frames) := by
    rw [hfilled.1, heldOf_standing s.banks s.sx.nextId (f := arrived (g (s.startRecord p)) data) (g := g (s.startRecord p)) rfl,
      ← hstand.1]
    exact hheld
  generalize (s.hostStart p g).portFilled s.sx.nextId p (g (s.startRecord p)) data = v at hfilled hregs hheld'
  have hports : ∀ f, v.frameOf s.sx.nextId = some f → f.port < 41 := by
    intro f hf
    rw [hfilled.frameOf] at hf
    cases hf
    show (g (s.startRecord p)).port < 41
    rw [hport]
    show p < 41
    omega
  have hcell := (hregs.mono (V := cellRegs) fun off h => .inl (by rw [h]; decide)).trans (regsWithin_cellsUpTo hports)
  have hframe := cellsUpTo_frame hfilled.frameOf
  obtain ⟨hgood, hcount⟩ := rxGood_regs (s := v.cellsUpTo s.sx.nextId) hp36 (by omega) s.sx.nextId (data.length + 4)
  refine ⟨fun h hh => ?_, fun hn => ?_, ?_, fun f h1 h2 h3 => ?_⟩
  · rw [rxGood_frame hp36] at hh
    cases hv : (v.cellsUpTo s.sx.nextId).frameOf s.sx.nextId with
    | none => rw [hv] at hh; cases hh
    | some k =>
      rw [hv, Option.bind_some] at hh
      rcases hframe k hv with hz | ⟨l, hk⟩
      · rw [hz, if_pos rfl] at hh; cases hh
      · have hz : k.zombie = false := by rw [hk]; exact hzombie
        rw [hz, if_neg Bool.false_ne_true] at hh
        exact ⟨l, by rw [← Option.some.inj hh, hk]; rfl⟩
  · have hbanks : v.banks = s.banks := hregs.rg _ (by decide) (.inl (by decide))
    have hham : v.hamState = s.hamState := hregs.rg _ (by decide) (.inr (by decide))
    have hfree : s.physFree ≤ v.physFree := by
      unfold physFree cDie
      rw [heldInService_eq, heldInService_eq, hbanks, hham]
      omega
    obtain ⟨k, hk, hz⟩ := cellsUpTo_stands hfilled hcells hzombie (Nat.le_trans hn hfree)
    rw [rxGood_frame hp36, hk, Option.bind_some, hz]
    exact Option.some_ne_none _
  · rw [hcount]
    congr 2
    exact rd64_congr (hcell.rd _ (by simp only [cellRegs, upperRegs, R.PX_RX_FRAMES]; omega) (.inr (by unfold R.PX_RX_FRAMES; omega)))
      (hcell.rd _ (by simp only [cellRegs, upperRegs, R.PX_RX_FRAMES]; omega) (.inr (by unfold R.PX_RX_FRAMES; omega)))
  · rw [hgood.rg f (by simp only [goodRegs, obRegs]; omega) (.inr (by omega)), hcell.rg f h3 (.inr (by omega))]

end State

end Sys2Proof.Machine
end

section
/-!
PROOFS. The commands of the host ports' rings (R458 to R463), and O52.
-/

namespace Sys2Proof.Machine

namespace State

/-! ### The next frame of a TX ring enters -/

theorem regsWithin_txJob {s : State} {p r : Nat} {j : TxJob} (hr : r < 64) : RegsWithin upperRegs s (s.txJob p r j) := by
  unfold txJob
  dsimp only
  exact regsWithin_txFlush hr (fun _ h => h) _ ((RegsWithin.refl s).of_regs rfl rfl)

theorem txJob_sx (s : State) (p r : Nat) (j : TxJob) : (s.txJob p r j).sx = s.sx :=
  (moves_txJob (ps := [.out, .regs, .scope, .cx, .mx]) (List.Subset.refl _) (moves_refl s)).1 .sx (by decide)

theorem txChoose_lt {s : State} {p r : Nat} (h : s.txChoose p = some r) : r < 64 := by
  have inReady {l : List Nat} {f : Nat → Bool} (hl : ∀ k ∈ l, k < 64) {k : Nat} (hk : k ∈ l.filter f) : k < 64 :=
    hl k (List.mem_filter.mp hk).1
  have ready : ∀ k ∈ (List.range 64).filter (fun r => decide (s.txReady p r ≠ 0)), k < 64 := fun k hk =>
    List.mem_range.mp (List.mem_filter.mp hk).1
  unfold txChoose at h
  dsimp only at h
  split at h
  · cases h
  · split at h
    · next hf => cases h; exact inReady ready (List.mem_of_find?_eq_some hf)
    · exact inReady ready (List.mem_of_mem_head? h)

theorem slice0_length_of_le {bs : List Byte} {i n : Nat} (h : i + n ≤ bs.length) : slice0 bs i n = (bs.drop i).take n := by
  have hl : ((bs.drop i).take n).length = n := by rw [List.length_take, List.length_drop]; omega
  rw [slice0, hl, Nat.sub_self, List.replicate_zero, List.append_nil]

/-- What a TX descriptor says of its frame. -/
def descTold (s : State) (p r : Nat) (d : List Byte) (f : Frame) : Frame :=
  { f with
    launch := if (d.getD 10 0).toNat.testBit 2 then some (giga * (ofLe (slice0 d 16 8) / 2 ^ 38 % 2 ^ 24) +
      ofLe (slice0 d 16 8) / 256 % 2 ^ 30) else none
    csumFull := (d.getD 10 0).toNat.testBit 3
    directive := if (d.getD 10 0).toNat.testBit 5 then some (2 ^ (d.getD 11 0).toNat) else none
    tc := if (d.getD 10 0).toNat.testBit 5 then s.act (F.CX_HP_TX_CFG_TC p r) else f.tc
    owner := if (d.getD 10 0).toNat.testBit 4 && decide (0 = 0) then ringKey p true r + 1 else 0
    verdict := if (0 : Nat) = 2 then .drop else f.verdict }

theorem descTold_keeps (s : State) (p r : Nat) (d : List Byte) : KeepsStart (s.descTold p r d) :=
  fun _ => ⟨rfl, rfl, rfl, rfl, rfl, rfl⟩

/-- The frame of one good descriptor, without an error (R461). -/
theorem txServe_enters {s : State} {p r buf len : Nat} {d : List Byte} (hn : s.txReady p r = 1)
    (hd : d = s.txDesc p r (s.hpRing (ringKey p true r)).next)
    (hb : s.badUnit (s.hpDesc p true r (s.hpRing (ringKey p true r)).next) 32 = none) (hbuf : buf = ofLe (d.take 8))
    (hlen : len = ofLe ((d.drop 8).take 2)) (hfirst : s.txBadFirst p r d = false) (h0 : len ≠ 0)
    (hok : s.dramOk buf len = true) (hu : s.badUnit buf len = none) :
    ∃ j, s.txServe p r 0 = (((s.arbBytes 0 (len + 32 * 1)).enterWhole (36 + p)
      (s.dramRd buf len ++ List.replicate (60 - len) 0) (s.descTold p r d)).bump (F.HP_TX_FRAMES_COUNT p)).txJob p r j := by
  have hdl : d.length = 32 := by rw [hd, txDesc, dramRd_length]
  have haddr : ofLe (slice0 d 0 8) = buf := by rw [slice0_length_of_le (by omega), List.drop_zero, hbuf]
  have hsize : ofLe (slice0 d 8 2) = len := by rw [slice0_length_of_le (by omega), hlen]
  have hds : (List.range 1).map (fun i => s.txDesc p r ((s.hpRing (ringKey p true r)).next + i)) = [d] := by rw [hd]; rfl
  have hgood : s.txBad d = false := by
    rw [txBad, haddr, hsize, hok, decide_eq_false h0]
    rfl
  have hbad : s.txDescBad p r (s.hpRing (ringKey p true r)).next 1 0 = none :=
    txDescBad_none (by decide) fun i hi => by rw [show i = 0 by omega, Nat.add_zero]; exact hb
  have hdata : [d].flatMap (fun d => s.dramRd (ofLe (slice0 d 0 8)) (ofLe (slice0 d 8 2))) = s.dramRd buf len := by
    rw [List.flatMap_singleton, haddr, hsize]
  have hsound : ¬ (s.txBadFirst p r ([d].headD []) || [d].any s.txBad) = true := by
    simp [hfirst, hgood]
  have hknown : [d].findSome? (fun d => s.badUnit (ofLe (slice0 d 0 8)) (ofLe (slice0 d 8 2))) = none := by
    simp [haddr, hsize, hu]
  unfold txServe
  dsimp only
  rw [hn, hds, hbad]
  dsimp only
  rw [if_neg hsound, if_neg (by rw [hknown]; simp), if_neg (by decide)]
  unfold txEnter
  dsimp only
  rw [hdata, dramRd_length]
  exact ⟨_, rfl⟩

theorem regsWithin_arbBytes (s : State) {c : Nat} (hc : c < 16) (n : Nat) :
    RegsWithin (fun off => 0x9000000 ≤ off ∧ off < 0xB000000) s (s.arbBytes c n) :=
  (RegsWithin.refl s).bump64 (by unfold R.MX_ARB_BYTES; omega) (by unfold R.MX_ARB_BYTES; omega)
    (.inr (by unfold R.MX_ARB_BYTES; omega))

/-- The bytes counted for DRAM's arbiter leave the lengths that a port takes. -/
theorem arbBytes_cfg (s : State) {c : Nat} (hc : c < 16) (n ep : Nat) (f : Fld) : (s.arbBytes c n).cfg ep f = s.cfg ep f := by
  have hm := arbBytes_moves s c n
  exact cfg_congr (hm.1 .active (by decide)) (hm.1 .shadow (by decide)) (hm.1 .swapped (by decide))
    ((regsWithin_arbBytes s hc n).rg _ (by decide) (.inl (by decide))) ep f

/-! ### A frame that an RX ring takes -/

theorem rxBuffer_moves (s : State) (p r i : Nat) (chunk desc : List Byte) : moves [.regs, .mx] s (s.rxBuffer p r i chunk desc) :=
  moves_rxBuffer (List.Subset.refl _) (moves_refl s)

theorem rg_rxBuffer (s : State) (p r i : Nat) (chunk desc : List Byte) (f : Fld) (h : f.off < 0x9000000)
    (he : f.off < 0x2000 ∨ 0x2020 ≤ f.off) : (s.rxBuffer p r i chunk desc).rg f = s.rg f := by
  have written (u : State) (a : Nat) (bs : List Byte) : (u.dramWr a bs).rg f = u.rg f :=
    rg_congr ((dramWr_moves u a bs).1 .regs (by decide)) f
  unfold rxBuffer
  dsimp only
  rw [(regsWithin_arbBytes _ (by decide) _).rg f (by omega) he, written]
  split
  · exact written _ _ _
  · rfl

/-- The head of a ring past a frame, and the frame counted. -/
def rxMoved (s : State) (p r v : Nat) : State :=
  ((s.setRg (F.CX_HP_RX_HEAD_HEAD p r) v).bump (F.HP_RX_FRAMES_COUNT p)).hpComplete p false r

theorem rxMoved_shows (s : State) {p r v : Nat} (hp : p < 2) (hr : r < 64) (hv : v < 65536) :
    (s.rxMoved p r v).mx = s.mx ∧ (s.rxMoved p r v).sx = s.sx ∧ (s.rxMoved p r v).rg (F.CX_HP_RX_HEAD_HEAD p r) = v ∧
      (s.rxMoved p r v).rg (F.HP_RX_FRAMES_COUNT p) = min (s.rg (F.HP_RX_FRAMES_COUNT p) + 1) (2 ^ 32 - 1) := by
  have hm : moves [.out, .regs, .scope, .cx] s (s.rxMoved p r v) :=
    moves_hpComplete (List.Subset.refl _) (moves_bump (by decide) (moves_setRg (by decide) (moves_refl s)))
  have hrg := regsWithin_hpComplete (W := pendRegs p) (p := p) (tx := false) hr (fun _ h => h)
    (RegsWithin.refl ((s.setRg (F.CX_HP_RX_HEAD_HEAD p r) v).bump (F.HP_RX_FRAMES_COUNT p)))
  refine ⟨hm.1 .mx (by decide), hm.1 .sx (by decide), ?_, ?_⟩
  · refine (hrg.rg (F.CX_HP_RX_HEAD_HEAD p r) (by simp only [pendRegs]; omega) (.inr (by dsimp only; omega))).trans ?_
    rw [rg_bump_other _ _ _ _ (by simp) (by simp) (.inl (by dsimp only; omega)), rg_setRg_self _ _ _ (by simp)]
    exact Nat.mod_eq_of_lt hv
  · refine (hrg.rg (F.HP_RX_FRAMES_COUNT p) (by simp only [pendRegs]; omega) (.inr (by dsimp only; omega))).trans ?_
    rw [rg_bump_self _ _ _ (by simp), rg_setRg_other _ _ _ _ (by simp) (by simp) (.inl (by dsimp only; omega))]

theorem rxRing_lt (s : State) (p : Nat) (f : Frame) (tc : Nat) : (s.rxRing p f tc).1 < 64 := Nat.mod_lt _ (by decide)

end State

open State in
/-- Settles O52: the rings of the host ports, row by row. -/
theorem hostRingCommands : Obligations.HostRingCommands := by
  unfold Obligations.HostRingCommands
  refine ⟨?tails, ?write, ?noRing, ?next, ?timer, ?enters⟩
  case tails =>
    intro a p r data s hr hp hr64
    have tail (off : Nat) (hoff : 0x8100000 ≤ off ∧ (off - 0x8100000) / 0x10000 < 2 ∧
        (off - 0x8100000) % 0x10000 % 0x20 = 0x10 ∧
        ((off - 0x8100000) % 0x10000 / 0x800 = 2 ∨ (off - 0x8100000) % 0x10000 / 0x800 = 4)) :
        execRingTailWrite a off data s = .next ((s.setRg ⟨off, 0, 16, 18⟩ (data.toNat % 65536)).answer .done) := by
      rw [execRingTailWrite, byAgent_reaches _ _ _ hr, if_pos hoff]
    have shown (off : Nat) :
        ((s.setRg ⟨off, 0, 16, 18⟩ (data.toNat % 65536)).answer .done).rg ⟨off, 0, 16, 18⟩ = data.toNat % 65536 := by
      rw [rg_congr (answer_regs _ _), rg_setRg_self _ _ _ (by simp)]
      exact Nat.mod_mod _ _
    refine ⟨_, _, tail (R.CX_HP_RX_TAIL p r) ?_, shown _, tail (R.CX_HP_TX_TAIL p r) ?_, shown _⟩
    · unfold R.CX_HP_RX_TAIL; omega
    · unfold R.CX_HP_TX_TAIL; omega
  case write =>
    intro p r crc d x f s hp hx hf hw ho hpar hring hon hposted hlen hd hbad
    show ∃ t, execHpRxWrite (36 + p) none s = _ ∧ _
    rw [execHpRxWrite, hx]
    dsimp only
    rw [hf]
    dsimp only
    rw [if_neg (by rw [hw]; simp; omega)]
    generalize hbs : s.egressBytes f (36 + p) = bs at hlen ⊢
    have hd' : (s.setTx (36 + p) none).hpDesc p false r ((s.setTx (36 + p) none).rg (F.CX_HP_RX_HEAD_HEAD p r)) = d := hd.symm
    have hneed : (s.setTx (36 + p) none).rxNeed p r bs.length = 1 := rxNeed_one hlen
    have hrefused := rxRefused_takes (tc := x.copy.tc) (crc := crc) (f := f) (show (s.setTx (36 + p) none).hpOn p false r = true from hon)
      hposted hneed (by rw [hd']; exact hbad)
    have hwrite := rxWrite_one (s := s.setTx (36 + p) none) (tc := x.copy.tc) (crc := crc) (err := hpErr f) (f := f) hposted hneed hlen
    obtain ⟨hbuf, hdesc, hbeside⟩ := rxBuffer_dram (s.setTx (36 + p) none) p r ((s.setTx (36 + p) none).rg (F.CX_HP_RX_HEAD_HEAD p r)) bs
      (rxDesc_length f x.copy.tc crc bs.length (hpErr f) true true false)
    rw [hd'] at hbuf hdesc hbeside
    have hr64 : r < 64 := by have := rxRing_lt s p f x.copy.tc; rwa [hring] at this
    obtain ⟨hpos, hle⟩ := hpSize_le (s.setTx (36 + p) none) p false r
    have hhead : ((s.setTx (36 + p) none).rg (F.CX_HP_RX_HEAD_HEAD p r) + 1) % (s.setTx (36 + p) none).hpSize p false r < 65536 :=
      Nat.lt_of_lt_of_le (Nat.mod_lt _ hpos) hle
    have hwm := rxBuffer_moves (s.setTx (36 + p) none) p r ((s.setTx (36 + p) none).rg (F.CX_HP_RX_HEAD_HEAD p r)) bs
      (rxDesc f x.copy.tc crc bs.length (hpErr f) true true false)
    have hwrg := rg_rxBuffer (s.setTx (36 + p) none) p r ((s.setTx (36 + p) none).rg (F.CX_HP_RX_HEAD_HEAD p r)) bs
      (rxDesc f x.copy.tc crc bs.length (hpErr f) true true false) (F.HP_RX_FRAMES_COUNT p) (by dsimp only; omega)
      (.inr (by dsimp only; omega))
    unfold hpWriteEnd
    dsimp only
    rw [show 36 + p - 36 = p by omega, hring]
    dsimp only
    rw [hbs, hrefused]
    dsimp only
    rw [hwrite]
    generalize (s.setTx (36 + p) none).rxBuffer p r ((s.setTx (36 + p) none).rg (F.CX_HP_RX_HEAD_HEAD p r)) bs
      (rxDesc f x.copy.tc crc bs.length (hpErr f) true true false) = w at hbuf hdesc hbeside hwm hwrg ⊢
    obtain ⟨hmx, hsx, hheadv, hcount⟩ := rxMoved_shows w hp hr64 hhead
    change ∃ t, Host.Outcome.next ((((w.rxMoved p r _).hpCounted (36 + p) (bs.length + 4) (bs ++ fcsBytes bs)).pegDone f
      (some x.copy) (some s.now) false false x.copy.cut 0).copyGone x.copy.frame _).drainDone = _ ∧ _
    generalize w.rxMoved p r (((s.setTx (36 + p) none).rg (F.CX_HP_RX_HEAD_HEAD p r) + 1) %
      (s.setTx (36 + p) none).hpSize p false r) = v at hmx hsx hheadv hcount ⊢
    obtain ⟨hcreg, hcmx, hcsx⟩ := hpCounted_shows v (port := 36 + p) (by omega) (bs.length + 4) (bs ++ fcsBytes bs)
    generalize v.hpCounted (36 + p) (bs.length + 4) (bs ++ fcsBytes bs) = u at hcreg hcmx hcsx ⊢
    have hpeg := EndsQuiet.pegDone u f (some x.copy) (some s.now) false false x.copy.cut 0
    have hpegsx := (pegDone_moves u f (some x.copy) (some s.now) false false x.copy.cut 0).1 .sx (by decide)
    generalize u.pegDone f (some x.copy) (some s.now) false false x.copy.cut 0 = y at hpeg hpegsx ⊢
    have hysx : y.sx = (s.setTx (36 + p) none).sx :=
      hpegsx.trans (hcsx.trans (hsx.trans (hwm.1 .sx (by decide))))
    have hplain : y.Plain x.copy.frame := ⟨f, (frameOf_congr hysx _).trans hf, ho, hpar⟩
    have hgone := quiet_copyGone hplain (decide (f.verdict = .ok) && !false)
    obtain ⟨hend, hrg⟩ := ringEnd_shows (hpeg.trans hgone)
    have htx := (bufferSettles_copyGone y x.copy.frame (decide (f.verdict = .ok) && !false)).txOf (36 + p)
    generalize y.copyGone x.copy.frame (decide (f.verdict = .ok) && !false) = z at hend hrg htx ⊢
    have hdram (a n : Nat) : z.drainDone.dramRd a n = w.dramRd a n := by
      have e : z.drainDone.mx = w.mx := hend.trans (hcmx.trans hmx)
      exact dramRd_congr (by rw [e]) (by rw [e]) a n
    have hafter (g : Fld) (h1 : 0x8000000 ≤ g.off) (h2 : g.off < 0xB000000) : z.drainDone.rg g = v.rg g := by
      rw [hrg g h1 h2, hcreg.rg g (by unfold afterRing; omega) (.inr (by omega))]
    refine ⟨_, rfl, ?_, fun hok hap => ?_, ?_, ?_, ?_, ?_, fun k hk hk' => ?_⟩
    · rw [txOf_congr ((drainDone_moves _).1 .sx (by decide)), htx, txOf_congr hysx, txOf_setTx_same]
    · rw [hdram]; exact hbuf hok hap
    · rw [hdram, ← rxDesc_len f x.copy.tc crc bs.length (hpErr f) true true false]
      exact hdesc 0 2 (by decide)
    · rw [hdram, ← rxDesc_hash f x.copy.tc crc bs.length (hpErr f) true true false]
      exact hdesc 16 4 (by decide)
    · rw [hafter _ (by dsimp only; omega) (by dsimp only; omega), hheadv]
      rfl
    · rw [hafter _ (by dsimp only; omega) (by dsimp only; omega), hcount, hwrg]
      rfl
    · rw [hdram]; exact hbeside k hk hk'
  case noRing =>
    intro p r crc ecc x f s hp hx hf hw ho hpar hring hon
    show ∃ t, execHpRxWrite (36 + p) ecc s = _ ∧ _
    rw [execHpRxWrite, hx]
    dsimp only
    rw [hf]
    dsimp only
    rw [if_neg (by rw [hw]; simp; omega)]
    have hrefused : (s.setTx (36 + p) none).rxRefused p r f x.copy.tc crc (s.egressBytes f (36 + p)) false ecc =
        some ((s.setTx (36 + p) none).bump (F.HP_RX_NORING_COUNT p)) := by
      rw [rxRefused, show (s.setTx (36 + p) none).hpOn p false r = false from hon]
      rfl
    unfold hpWriteEnd
    dsimp only
    rw [show 36 + p - 36 = p by omega, hring]
    dsimp only
    rw [hrefused]
    dsimp only
    generalize hu : (s.setTx (36 + p) none).bump (F.HP_RX_NORING_COUNT p) = u
    have hsx : u.sx = (s.setTx (36 + p) none).sx := by rw [← hu, bump_sx]
    have hplain : u.Plain x.copy.frame := ⟨f, (frameOf_congr hsx _).trans hf, ho, hpar⟩
    obtain ⟨hmx, hrg⟩ := ringEnd_shows (quiet_dropCopy hplain 10)
    refine ⟨_, rfl, ?_, ?_, ?_⟩
    · rw [txOf_congr ((drainDone_moves _).1 .sx (by decide)), (bufferSettles_dropCopy _ _ _).txOf, txOf_congr hsx,
        txOf_setTx_same]
    · rw [hmx, ← hu, bump_mx]; rfl
    · rw [hrg _ (by dsimp only; omega) (by dsimp only; omega), ← hu, rg_bump_self _ _ _ (by simp)]
      rfl
  case next =>
    intro p r ecc s hp hup hc he hb
    show ∃ t, execHpTxFrame (36 + p) ecc s = _ ∧ _
    rw [execHpTxFrame, show 36 + p - 36 = p by omega]
    dsimp only
    rw [if_neg (by rw [hup]; simp; omega), hc]
    dsimp only
    have hnext := txServe_next he hb
    generalize s.txServe p r ecc = t at hnext
    exact ⟨_, rfl, hnext, Sparse.get_set_same (fun _ => 63) t.cx.rr _ r⟩
  case timer =>
    intro k s hk hu hc
    show ∃ t, execHpCoalTimer k s = _ ∧ _
    rw [execHpCoalTimer, if_pos ⟨hk, hc⟩]
    have hring := hpRaise_ring s (k / 128) (decide (k % 128 ≥ 64)) (k % 64)
    have hev := hpRaise_event (s := s) (k / 128) (decide (k % 128 ≥ 64)) (k % 64) hu
    rw [ringKey_split] at hring
    refine ⟨_, rfl, by rw [hring], ?_⟩
    simpa using hev
  case enters =>
    intro p r buf len d frame s hp hup hc hn hd hbad hbuf hlen hfirst h0 hok hu hframe hctl hmin hmax
    show ∃ t, execHpTxFrame (36 + p) 0 s = _ ∧ _
    rw [execHpTxFrame, show 36 + p - 36 = p by omega]
    dsimp only
    rw [if_neg (by rw [hup]; simp; omega), hc]
    dsimp only
    obtain ⟨j, hserve⟩ := txServe_enters hn hd hbad hbuf hlen hfirst h0 hok hu
    have hport : 36 + p = 36 ∨ 36 + p = 37 := by omega
    have hcfg := arbBytes_cfg s (c := 0) (by decide) (len + 32 * 1)
    have hmoves := arbBytes_moves s 0 (len + 32 * 1)
    have hwithin := regsWithin_arbBytes s (c := 0) (by decide) (len + 32 * 1)
    have hsx := hmoves.1 .sx (by decide)
    have hepoch : (s.arbBytes 0 (len + 32 * 1)).portEpoch (36 + p) = s.portEpoch (36 + p) :=
      portEpoch_congr (hmoves.1 .epochs (by decide)) _
    have hfreeCells : (s.arbBytes 0 (len + 32 * 1)).physFree = s.physFree :=
      physFree_congr (by rw [hsx]) (hwithin.rg _ (by decide) (.inl (by decide))) (hwithin.rg _ (by decide) (.inr (by decide)))
    rw [← hframe] at hserve
    obtain ⟨hreceived, hfree, hcount, hrg⟩ := enterWhole_shows (s := s.arbBytes 0 (len + 32 * 1)) (p := 36 + p) (data := frame)
      (descTold_keeps s p r d) hport (by rw [hepoch, runtMin, hcfg]; exact hmin) (by rw [hepoch, maxLen, hcfg]; exact hmax) hctl
    rw [hsx] at hreceived hfree
    rw [hfreeCells] at hfree
    have hbefore : (s.arbBytes 0 (len + 32 * 1)).rd64 (R.PX_RX_FRAMES (36 + p)) = s.rd64 (R.PX_RX_FRAMES (36 + p)) :=
      rd64_congr (hwithin.rd _ (by unfold R.PX_RX_FRAMES; omega) (.inr (by unfold R.PX_RX_FRAMES; omega)))
        (hwithin.rd _ (by unfold R.PX_RX_FRAMES; omega) (.inr (by unfold R.PX_RX_FRAMES; omega)))
    have hbefore' : (s.arbBytes 0 (len + 32 * 1)).rg (F.HP_TX_FRAMES_COUNT p) = s.rg (F.HP_TX_FRAMES_COUNT p) :=
      hwithin.rg _ (by dsimp only; omega) (.inr (by dsimp only; omega))
    have hsent := hrg (F.HP_TX_FRAMES_COUNT p) (by dsimp only; omega) (by dsimp only; omega)
      (by simp only [cellRegs, upperRegs]; omega)
    rw [hbefore] at hcount
    rw [hbefore'] at hsent
    generalize hstart : (s.arbBytes 0 (len + 32 * 1)).startRecord (36 + p) = f0 at hreceived
    have hport0 : f0.port = 36 + p := by rw [← hstart]; rfl
    generalize (s.arbBytes 0 (len + 32 * 1)).enterWhole (36 + p) frame (s.descTold p r d) = v at *
    have hjob := regsWithin_txJob (s := v.bump (F.HP_TX_FRAMES_COUNT p)) (p := p) (r := r) (j := j) (txChoose_lt hc)
    have hjobsx := (txJob_sx (v.bump (F.HP_TX_FRAMES_COUNT p)) p r j).trans (bump_sx _ _ _)
    rw [hserve]
    generalize (v.bump (F.HP_TX_FRAMES_COUNT p)).txJob p r j = u at *
    have hout (o : Nat) (h : o < 0x8000000) (he : o < 0x2000 ∨ 0x2020 ≤ o) : u.rd o = v.rd o :=
      (hjob.rd o (by simp only [upperRegs]; omega) he).trans (rd_bump_other _ _ _ _ (by dsimp only; omega))
    refine ⟨_, rfl, ?_, ?_, ?_, ?_⟩
    · show u.rg (F.HP_TX_FRAMES_COUNT p) = _
      rw [hjob.rg _ (by simp only [upperRegs]; omega) (.inr (by dsimp only; omega)), rg_bump_self _ _ _ (by simp), hsent]
    · show u.rd64 (R.PX_RX_FRAMES (36 + p)) = _
      rw [← hcount]
      exact rd64_congr (hout _ (by unfold R.PX_RX_FRAMES; omega) (.inr (by unfold R.PX_RX_FRAMES; omega)))
        (hout _ (by unfold R.PX_RX_FRAMES; omega) (.inr (by unfold R.PX_RX_FRAMES; omega)))
    · intro hcells
      show u.frameOf s.sx.nextId ≠ none
      rw [frameOf_congr hjobsx]
      exact hfree hcells
    · intro g hg
      have hg' : v.frameOf s.sx.nextId = some g := (frameOf_congr hjobsx _).symm.trans hg
      obtain ⟨l, rfl⟩ := hreceived g hg'
      exact ⟨hport0, rfl, rfl, rfl, rfl⟩

end Sys2Proof.Machine
end

section
/-!
PROOFS. The cipher engine: what it does with a verified and a refused frame, the protection of a frame to send, the trailer
of a sealed message, and the derivation of a working key (R343, R385, R389 to R391).
-/

namespace Sys2Proof.Machine

namespace State

/-! ### The events and the counts of the engine -/

theorem ceEvent_raised {s : State} (ev c : Nat) (hup : s.socUp = true) : (s.ceEvent ev c).evSet ev = true :=
  evSet_raise_self _ ev none (by rw [socUp_setRg, socUp_setRg]; exact hup)

/-- The events of the engine leave the counts of its contexts alone. -/
theorem rg_ceEvent {s : State} (ev c : Nat) (f : Fld) (h : 0x7300000 ≤ f.off) (hev : ev < 256) :
    (s.ceEvent ev c).rg f = s.rg f := by
  rw [ceEvent, rg_raise_other _ _ _ _ (by omega), rg_eq, rd_setRg_other _ _ _ _ (by dsimp only; omega),
    rd_setRg_other _ _ _ _ (by dsimp only; omega), ← rg_eq]

theorem gwEvent_raised {s : State} (ev q r : Nat) (hup : s.socUp = true) :
    (s.gwEvent ev (some q) (some r)).evSet ev = true :=
  evSet_raise_self _ ev none (by rw [socUp_setRg, socUp_setRg]; exact hup)

/-- The events of the gateway leave every register but BX_GW_EV_LAST and the event status alone. -/
theorem rg_gwEvent {s : State} (ev q r : Nat) (f : Fld) (h : f.off ≠ F.BX_GW_EV_LAST_PQ.off)
    (hev : f.off ≠ 0x2000 + 4 * (ev / 32)) :
    (s.gwEvent ev (some q) (some r)).rg f = s.rg f := by
  show (((s.setRg F.BX_GW_EV_LAST_PQ q).setRg F.BX_GW_EV_LAST_ROUTE r).raise ev).rg f = s.rg f
  rw [rg_raise_other _ _ _ _ hev, rg_eq, rd_setRg_other _ F.BX_GW_EV_LAST_ROUTE _ _ h,
    rd_setRg_other _ F.BX_GW_EV_LAST_PQ _ _ h, ← rg_eq]

/-! ### Reception -/

/-- The frame that a verification leaves (R390, step 7). -/
def decrypted (s : State) (f : Frame) (w : CeWork) : Frame :=
  let plain := (parseSecTag w.wire).plain w.key w.iv (ctxOfs s.ceRf w.ctx) w.wire
  { f with
    bytes := plain
    len := plain.length + 4
    ce := some { w with done := true }
    stage := if f.pass ≤ 1 then .clear else f.stage
    times := { f.times with decrypt := some s.now } }

/-- A frame whose ICV verifies holds its plaintext (R390, step 7). -/
theorem ceVerified_good {s : State} (id : Nat) (f : Frame) (w : CeWork)
    (hicv : (parseSecTag w.wire).icvOk w.key w.iv (ctxOfs s.ceRf w.ctx) w.wire = true) :
    (s.ceVerified id f w).frameOf id = some (s.decrypted f w) := by
  unfold ceVerified
  dsimp only
  rw [if_pos hicv]
  exact (frameOf_congr rfl id).trans (frameOf_setFrame_same _ id _)

/-- A frame refused for its ICV is counted in its context with event 192. -/
theorem icvFailed_shows {s : State} (id c : Nat) (g : Frame) (hup : s.socUp = true) :
    (((s.bump (F.CE_DROP_AUTH_COUNT c)).ceEvent 192 c).setFrame id (some g)).frameOf id = some g ∧
      (((s.bump (F.CE_DROP_AUTH_COUNT c)).ceEvent 192 c).setFrame id (some g)).evSet 192 = true ∧
      (((s.bump (F.CE_DROP_AUTH_COUNT c)).ceEvent 192 c).setFrame id (some g)).rg (F.CE_DROP_AUTH_COUNT c) =
        min (s.rg (F.CE_DROP_AUTH_COUNT c) + 1) (2 ^ 32 - 1) := by
  refine ⟨frameOf_setFrame_same _ id _, ?_, ?_⟩
  · exact (evSet_congr rfl 192).trans (ceEvent_raised 192 c ((socUp_bump _ _ _).trans hup))
  · have hregs : (((s.bump (F.CE_DROP_AUTH_COUNT c)).ceEvent 192 c).setFrame id (some g)).regs =
        ((s.bump (F.CE_DROP_AUTH_COUNT c)).ceEvent 192 c).regs := rfl
    rw [rg_congr hregs, rg_ceEvent _ _ _ (by dsimp only; omega) (by decide), rg_bump_self _ _ _ (by simp)]

theorem pmu_pw (s : State) (ev unit n : Nat) : (s.pmu ev unit n).pw = s.pw :=
  (moves_pmu (ps := [.out, .regs, .scope]) (List.Subset.refl _) (moves_refl s)).1 .pw (by decide)

/-- What is counted of the units' performance leaves the counts of the engine alone. -/
theorem rg_pmu (s : State) (ev unit n : Nat) (f : Fld) (h : 0x7000000 ≤ f.off) (h' : f.off < 0x8000000) :
    (s.pmu ev unit n).rg f = s.rg f :=
  (regsWithin_pmu (W := upperRegs) (fun _ h => h) (RegsWithin.refl s)).rg f (by unfold upperRegs; omega) (.inr (by omega))

/-- Outside SWIFT a frame whose ICV does not verify becomes DROP, and is counted in its context with event 192 (R391). -/
theorem ceVerified_bad {s : State} (id : Nat) (f : Frame) (w : CeWork) (hctx : w.ctx < 4096) (hup : s.socUp = true)
    (hmode : s.effMode f.epoch ≠ 0)
    (hicv : (parseSecTag w.wire).icvOk w.key w.iv (ctxOfs s.ceRf w.ctx) w.wire = false) :
    (s.ceVerified id f w).frameOf id = some { s.decrypted f w with verdict := .drop } ∧
      (s.ceVerified id f w).evSet 192 = true ∧
      (s.ceVerified id f w).rg (F.CE_DROP_AUTH_COUNT w.ctx) =
        min (s.rg (F.CE_DROP_AUTH_COUNT w.ctx) + 1) (2 ^ 32 - 1) := by
  let n := w.wire.length
  let u := s.pmu 0x40 (s.ctxPair w.ctx) n
  have hrun : s.ceVerified id f w =
      ((({ u.pmu 0x44 (u.ctxPair w.ctx) with fx.learn := u.fx.learn.filter (fun r => r.frame != id) }.bump
        (F.CE_DROP_AUTH_COUNT w.ctx)).ceEvent 192 w.ctx).setFrame id (some { s.decrypted f w with verdict := .drop })) := by
    unfold ceVerified
    dsimp only
    rw [if_neg (by rw [hicv]; exact Bool.false_ne_true), if_neg hmode]
    rfl
  have hcount : (u.pmu 0x44 (u.ctxPair w.ctx)).rg (F.CE_DROP_AUTH_COUNT w.ctx) = s.rg (F.CE_DROP_AUTH_COUNT w.ctx) := by
    rw [rg_pmu _ _ _ _ _ (by dsimp only; omega) (by dsimp only; omega),
      rg_pmu _ _ _ _ _ (by dsimp only; omega) (by dsimp only; omega)]
  have hpw : (u.pmu 0x44 (u.ctxPair w.ctx)).pw = s.pw := (pmu_pw _ _ _ _).trans (pmu_pw _ _ _ _)
  rw [hrun, ← hcount]
  generalize u.pmu 0x44 (u.ctxPair w.ctx) = v at hpw
  exact icvFailed_shows id w.ctx _ ((socUp_congr hpw).trans hup)

/-- A frame that CE rejects is DROP. -/
theorem ceReject_shows {s : State} {id : Nat} {f : Frame} (hf : s.frameOf id = some f) :
    (s.ceReject id).frameOf id = some { f with verdict := .drop } :=
  (setDrop_shows (s := { s with fx.learn := s.fx.learn.filter (fun r => r.frame != id) }) hf).1

theorem ceReject_regs (s : State) (id : Nat) : (s.ceReject id).regs = s.regs :=
  (moves_ceReject (ps := [.sx, .fx]) (List.Subset.refl _) (moves_refl s)).1 .regs (by decide)

/-! ### Protection -/

/-- What protection leaves at the head of a MAC transmit queue (R389): the copy with its SA. -/
theorem protected_mqOf (u : State) (p m x n : Nat) (d : Copy) (rest : List Copy) (was : Bool) :
    ((((u.setMq p m (d :: rest)).pmu 0x42 ((u.setMq p m (d :: rest)).ctxPair x)).pmu 0x40
      ((u.setMq p m (d :: rest)).ctxPair x) n).drainUnless was).mqOf p m = d :: rest := by
  refine (mqOf_congr ?_ p m).trans (mqOf_setMq_same u p m (d :: rest))
  rw [drainUnless_sx, pmu_sx, pmu_sx]

/-! ### Keys -/

/-- A context in use whose node serves it with the GEN recorded stays as it is (R383). -/
theorem ctxJudge_same {s : State} {c : Nat} (hst : s.ctxState c = 1) (hok : s.ctxNodeOk c = true)
    (hgen : s.nodeGen (s.ctxNode c) = s.rg (F.CE_CTX_STAT_W0_GEN c)) : s.ctxJudge c = s := by
  unfold ctxJudge
  dsimp only
  rw [if_pos hst, if_neg (by rw [hok]; decide), if_pos (.inl (decide_eq_true hgen))]

theorem countUse_moves (s : State) (n : Nat) : moves [.out, .regs, .scope] s (s.countUse n) :=
  moves_countUse (List.Subset.refl _) (moves_refl s)

/-- A derivation that the node serves puts the key first in the cache, which holds at most 256 (R384, R385). -/
theorem ctxDerive_cached {s : State} {c : Nat} (hok : s.ctxNodeOk c = true) :
    ∃ key, (s.ctxDerive c).ce.cache = ((c, key) :: s.ce.cache.filter (fun e => decide (e.1 ≠ c))).take 256 ∧
      (s.ctxDerive c).ce.waiting = s.ce.waiting := by
  have huse : s.kxUse (s.ctxNode c) (s.ctxBit c) = (s.countUse (s.ctxNode c), true) :=
    if_pos (Bool.and_eq_true_iff.mp hok).1
  have hce : (s.countUse (s.ctxNode c)).ce = s.ce := (countUse_moves s _).1 .ce (by decide)
  unfold ctxDerive
  dsimp only
  rw [huse]
  dsimp only
  have hrec : ((s.countUse (s.ctxNode c)).bump F.KX_DERIVES_COUNT |>.ctxRecord c).ce.cache = s.ce.cache ∧
      ((s.countUse (s.ctxNode c)).bump F.KX_DERIVES_COUNT |>.ctxRecord c).ce.waiting = s.ce.waiting := by
    rw [← hce]
    exact ⟨rfl, rfl⟩
  rw [hrec.1, hrec.2]
  exact ⟨_, rfl, rfl⟩

end State

open State in
/-- Settles O28: the engine ends a verification, drops what it refuses, protects and seals with the key that its context
answers, and a derivation serves the context that waited. -/
theorem cipherCommands : Obligations.CipherCommands := by
  unfold Obligations.CipherCommands
  refine ⟨?good, ?bad, ?unprotected, ?protect, ?short, ?passes, ?sealing, ?derive⟩
  case good =>
    intro id f w s _ hf hz hce hd hrx hv hicv
    have hrun : exec (.ceDecrypt id) s = .next (s.ceVerified id f w) := by
      show execCeDecrypt id s = _
      rw [execCeDecrypt, hf]
      dsimp only
      rw [if_neg (by rw [hz]; decide), hce]
      dsimp only
      rw [if_pos ⟨by rw [hd]; decide, hrx, .inl hv⟩]
    exact ⟨_, _, hrun, ceVerified_good id f w hicv, rfl, rfl, rfl, fun hp => if_pos hp⟩
  case bad =>
    intro id f w s hctx hup hf hz hce hd hrx hv hmode hicv
    have hrun : exec (.ceDecrypt id) s = .next (s.ceVerified id f w) := by
      show execCeDecrypt id s = _
      rw [execCeDecrypt, hf]
      dsimp only
      rw [if_neg (by rw [hz]; decide), hce]
      dsimp only
      rw [if_pos ⟨by rw [hd]; decide, hrx, .inl hv⟩]
    obtain ⟨hframe, hev, hcount⟩ := ceVerified_bad id f w hctx hup hmode hicv
    exact ⟨_, _, hrun, hframe, rfl, hev, hcount⟩
  case unprotected =>
    intro id f s hup hf hz hce hst hp hv hrc hturn hrx hty hll hreq
    have hrun : exec (.ceDecrypt id) s = .next (((s.bump F.CE_RX_UNPROT_DROP_COUNT).raise 198).ceReject id) := by
      show execCeDecrypt id s = _
      rw [execCeDecrypt, hf]
      dsimp only
      rw [if_neg (by rw [hz]; decide), hce]
      dsimp only
      rw [if_pos ⟨hst, hp, hv, hrc, hturn, .inl hrx⟩, ceReceive, if_pos hty, if_neg (by rw [hll]; decide), if_pos (.inl hreq)]
    refine ⟨_, _, hrun, ceReject_shows ((frameOf_congr (by rw [raise_sx, bump_sx]) id).trans hf), rfl, ?_, ?_⟩
    · exact (evSet_congr (ceReject_regs _ id) 198).trans (evSet_raise_self _ _ _ ((socUp_bump _ _ _).trans hup))
    · rw [rg_congr (ceReject_regs _ id), rg_raise_other _ _ _ _ (by decide), rg_bump_self _ _ _ (by decide)]
  case protect =>
    intro port m key x c rest f s u hport hm hq hf hstep hsealed _ hen hx hkind hkeep hask
    subst hx
    show ∃ t d sa, execCeEncrypt port m s = _ ∧ _
    rw [execCeEncrypt, decide_eq_true (show port < 41 ∧ m < 4 from ⟨hport, hm⟩), only_true, hq]
    dsimp only
    rw [hf]
    dsimp only
    rw [if_neg (by rw [hstep, hsealed, hkeep]; decide), if_neg hen, ceProtect]
    dsimp only
    rw [if_neg (fun h => h hkind), hask]
    dsimp only
    exact ⟨_, _, _, rfl, protected_mqOf _ port m _ _ _ rest _, rfl, rfl, rfl, rfl, rfl⟩
  case short =>
    intro id f q s hup hf hq hz hp hst hv hlen
    have hrun : exec (.sealCheck id) s = .next
        (((s.bump F.BX_GW_SEAL_BAD_COUNT).gwEvent 164 (some q.queue) (some q.route)).ceReject id) := by
      show execSealCheck id s = _
      rw [execSealCheck, hf]
      dsimp only
      rw [hq]
      dsimp only
      rw [if_neg (by rw [hz, hst, hv]; simp [hp]), sealCheck, if_pos (.inl hlen)]
    refine ⟨_, hrun, ceReject_shows ((frameOf_congr ?_ id).trans hf), ?_, ?_⟩
    · exact (gwEvent_moves _ _ _ _).1 .sx (by decide)
    · exact (evSet_congr (ceReject_regs _ id) 164).trans (gwEvent_raised _ _ _ ((socUp_bump _ _ _).trans hup))
    · rw [rg_congr (ceReject_regs _ id), rg_gwEvent _ _ _ _ (by decide) (by decide), rg_bump_self _ _ _ (by decide)]
  case passes =>
    intro id key f q s u hf hq hz hp hst hv hlen hfmt hask htag hnew hwin
    show ∃ t g, execSealCheck id s = _ ∧ _
    rw [execSealCheck, hf]
    dsimp only
    rw [hq]
    dsimp only
    rw [if_neg (by rw [hz, hst, hv]; simp [hp]), sealCheck, if_neg (by simp only [not_or]; exact ⟨by omega, hfmt⟩), hask]
    dsimp only
    rw [if_pos ⟨htag, hnew, hwin⟩]
    exact ⟨_, _, rfl, frameOf_setFrame_same _ id _, rfl, hv, rfl⟩
  case sealing =>
    intro i c r key m tx f l s u htx hf hw hkeep hseal hc hask
    subst hc
    show ∃ t x, execSealAdd 38 s = _ ∧ _
    rw [execSealAdd, if_neg (by decide), htx]
    dsimp only
    rw [hf]
    dsimp only
    rw [if_neg (by rw [hw, hkeep]; decide), hseal]
    dsimp only
    rw [sealOne, hask]
    dsimp only
    exact ⟨_, _, rfl, txOf_setTx_same _ 38 _, rfl⟩
  case derive =>
    intro ctx s hctx hwait hvalid hst hok hgen
    let t : State := { s with ce.waiting := s.ce.waiting.filter (fun c => decide (c ≠ ctx)) }
    have hrun : exec (.keyDerive ctx) s = .next (t.ctxDerive ctx) := by
      show execKeyDerive ctx s = _
      have hj : t.ctxJudge ctx = t := ctxJudge_same hst hok hgen
      rw [execKeyDerive, decide_eq_true hctx, only_true, if_pos hwait]
      dsimp only
      rw [if_pos (show t.ctxValid ctx = true from hvalid), hj, if_pos ⟨hvalid, hst⟩]
    obtain ⟨key, hcache, hwaits⟩ := ctxDerive_cached (s := t) hok
    refine ⟨_, key, hrun, ?_, ?_, ?_⟩
    · rw [hwaits]
      simp [t]
    · rw [hcache]
      rfl
    · rw [hcache]
      exact List.length_take_le 256 _

end Sys2Proof.Machine
end

section
/-!
PROOFS. The key tree's cells and the states of its nodes: what leaves them alone (`TreeStands`), and what an erasing operation
does to the nodes it names and to no other (`Fells`). With the invalidation of a node and of those under it, and what a wipe
and a lock leave (R364, R365, R369, R370).
-/

namespace Sys2Proof.Machine

/-- Registers that the tree does not read: neither the mode, nor the state of KX, its tamper latches or its nodes. -/
abbrev asideRegs (off : Nat) : Prop :=
  (0xc00 ≤ off ∧ off < 0x6000000) ∨ (0x6000108 ≤ off ∧ off < 0x6200000) ∨ 0x6204000 ≤ off

/-- Those, and the states of the nodes. -/
abbrev keyRegs (off : Nat) : Prop := (0xc00 ≤ off ∧ off < 0x6000000) ∨ 0x6000108 ≤ off

theorem asideRegs.key (off : Nat) (h : asideRegs off) : keyRegs off := by
  simp only [asideRegs, keyRegs] at *
  omega

theorem upperRegs.aside (off : Nat) (h : upperRegs off) : asideRegs off := by
  simp only [asideRegs, upperRegs] at *
  omega

namespace State

/-! ### Cells -/

theorem cellOf_congr {s t : State} (h : t.kx.cells = s.kx.cells) (k : Nat) : t.cellOf k = s.cellOf k := by
  rw [cellOf, cellOf, h]

theorem keyAt_congr {s t : State} {k : Nat} (h : t.cellOf k = s.cellOf k) : t.keyAt k = s.keyAt k := by
  rw [keyAt, keyAt, h]

@[simp] theorem cellOf_setCell_self (s : State) (k : Nat) (c : KeyCell) : (s.setCell k c).cellOf k = c :=
  Sparse.get_set_self _ _ _ _

theorem cellOf_setCell_other (s : State) {k j : Nat} (c : KeyCell) (h : j ≠ k) : (s.setCell k c).cellOf j = s.cellOf j :=
  Sparse.get_set_other _ _ _ h

theorem cellOf_eraseKey_self (s : State) (k : Nat) :
    (s.eraseKey k).cellOf k = ⟨Config.freeValue s.freeN % 2 ^ 256, (s.cellOf k).mask⟩ :=
  cellOf_setCell_self _ _ _

theorem cellOf_eraseKey_other (s : State) {k j : Nat} (h : j ≠ k) : (s.eraseKey k).cellOf j = s.cellOf j :=
  (cellOf_setCell_other _ _ h).trans (cellOf_congr rfl j)

theorem kxRf_congr {s t : State} (h : t.active = s.active) : t.kxRf = s.kxRf := activeOf_congr h 10

/-! ### Nodes -/

theorem nodeState_congr {s t : State} {m : Nat} (h : t.rd (R.KX_NODE_STAT_W0 m) = s.rd (R.KX_NODE_STAT_W0 m)) :
    t.nodeState m = s.nodeState m := by
  rw [nodeState, nodeState, rg_eq, rg_eq]
  exact congrArg _ h

theorem nodeGen_congr {s t : State} {m : Nat} (h : t.rd (R.KX_NODE_STAT_W0 m) = s.rd (R.KX_NODE_STAT_W0 m)) :
    t.nodeGen m = s.nodeGen m := by
  rw [nodeGen, nodeGen, rg_eq, rg_eq]
  exact congrArg _ h

theorem nodeState_setNode_self (s : State) (n : Nat) {st : Nat} (h : st < 8) : (s.setNode n st).nodeState n = st := by
  rw [nodeState, setNode, rg_setRg_self _ _ _ (by simp)]
  exact Nat.mod_eq_of_lt h

theorem nodeState_setNode_other (s : State) {n m : Nat} (st : Nat) (h : m ≠ n) :
    (s.setNode n st).nodeState m = s.nodeState m :=
  rg_setRg_other _ _ _ _ (by simp) (by simp) (.inl (by dsimp only; omega))

theorem nodeGen_setNode (s : State) (n m st : Nat) : (s.setNode n st).nodeGen m = s.nodeGen m :=
  rg_setRg_other _ _ _ _ (by simp) (by simp) (.inr (.inl (by simp)))

end State

/-! ### What leaves the tree alone -/

/-- No cell, no node's state and no setting of the tree differs; no event is taken back, and the power die stands. -/
structure TreeStands (s t : State) : Prop where
  within : RegsWithin asideRegs s t
  cells : t.kx.cells = s.kx.cells
  active : t.active = s.active
  power : t.pw = s.pw

namespace TreeStands

variable {s0 s t u : State}

theorem refl (s : State) : TreeStands s s := ⟨.refl s, rfl, rfl, rfl⟩

theorem trans (h : TreeStands s t) (k : TreeStands t u) : TreeStands s u :=
  ⟨h.within.trans k.within, k.cells.trans h.cells, k.active.trans h.active, k.power.trans h.power⟩

/-- An operation on other parts of the state whose registers lie aside. -/
theorem of_moves {ps : List Part} (w : RegsWithin asideRegs s t) (m : moves ps s t)
    (hp : Part.kx ∉ ps ∧ Part.active ∉ ps ∧ Part.pw ∉ ps) : TreeStands s t :=
  ⟨w, congrArg KxState.cells (m.1 .kx hp.1), m.1 .active hp.2.1, m.1 .pw hp.2.2⟩

theorem forEach {α : Type} {f : State → α → State} (hf : ∀ u x, TreeStands u (f u x)) (s : State) (l : List α) :
    TreeStands s (s.forEach l f) := by
  induction l generalizing s with
  | nil => exact refl s
  | cons a l ih => exact (hf s a).trans (ih _)

theorem setRg (s : State) (f : Fld) (v : Nat) (hw : asideRegs f.off) (he : f.off < 0x2000 ∨ 0x2020 ≤ f.off) :
    TreeStands s (s.setRg f v) := ⟨(RegsWithin.refl s).setRg hw he, rfl, rfl, rfl⟩

theorem wr (s : State) (off : Nat) (w : Word) (hw : asideRegs off) (he : off < 0x2000 ∨ 0x2020 ≤ off) :
    TreeStands s (s.wr off w) := ⟨(RegsWithin.refl s).wr w hw he, rfl, rfl, rfl⟩

theorem raise (s : State) {n : Nat} (i : Option Agent) (hn : n < 256) : TreeStands s (s.raise n i) :=
  ⟨(RegsWithin.refl s).raise hn, by rw [State.raise_kx], by rw [State.raise_active], by rw [State.raise_pw]⟩

theorem emit (s : State) (o : Output) : TreeStands s (s.emit o) :=
  ⟨(RegsWithin.refl s).of_regs rfl rfl, rfl, rfl, rfl⟩

theorem socUp (h : TreeStands s t) : t.socUp = s.socUp := State.socUp_congr h.power

theorem kxRf (h : TreeStands s t) : t.kxRf = s.kxRf := State.kxRf_congr h.active

theorem rg (h : TreeStands s t) (f : Fld) (hw : ¬ asideRegs f.off) (he : f.off < 0x2000) : t.rg f = s.rg f :=
  h.within.rg f hw (.inl he)

theorem nodeRd (h : TreeStands s t) {m : Nat} (hm : m < 1024) :
    t.rd (R.KX_NODE_STAT_W0 m) = s.rd (R.KX_NODE_STAT_W0 m) :=
  h.within.rd _ (by simp only [asideRegs, R.KX_NODE_STAT_W0]; omega) (.inr (by unfold R.KX_NODE_STAT_W0; omega))

theorem nodeState (h : TreeStands s t) {m : Nat} (hm : m < 1024) : t.nodeState m = s.nodeState m :=
  State.nodeState_congr (h.nodeRd hm)

theorem nodeGen (h : TreeStands s t) {m : Nat} (hm : m < 1024) : t.nodeGen m = s.nodeGen m :=
  State.nodeGen_congr (h.nodeRd hm)

theorem cellOf (h : TreeStands s t) (k : Nat) : t.cellOf k = s.cellOf k := State.cellOf_congr h.cells k

end TreeStands

/-! ### What fells nodes -/

/-- The nodes of the list enter state v with erased cells; no other node's state, no other cell, and nothing that the tree
reads differs. -/
structure Fells (v : Nat) (l : List Nat) (s t : State) : Prop where
  state : ∀ m ∈ l, t.nodeState m = v
  erased : ∀ m ∈ l, ∃ i, t.cellOf (State.nodeCell m) = ⟨Config.freeValue i % 2 ^ 256, (s.cellOf (State.nodeCell m)).mask⟩
  others : ∀ m < 1024, m ∉ l → t.nodeState m = s.nodeState m
  gens : ∀ m < 1024, t.nodeGen m = s.nodeGen m
  cells : ∀ k, (∀ m ∈ l, k ≠ State.nodeCell m) → t.cellOf k = s.cellOf k
  within : RegsWithin keyRegs s t
  active : t.active = s.active
  power : t.pw = s.pw

namespace Fells

variable {v : Nat} {l k : List Nat} {s t u : State}

theorem of_stands (h : TreeStands s t) : Fells v [] s t :=
  ⟨fun _ h => absurd h (List.not_mem_nil), fun _ h => absurd h (List.not_mem_nil), fun _ hm _ => h.nodeState hm,
    fun _ hm => h.nodeGen hm, fun _ _ => h.cellOf _, h.within.mono asideRegs.key, h.active, h.power⟩

/-- A cell keeps its mask. -/
theorem mask (h : Fells v l s t) (j : Nat) : (t.cellOf j).mask = (s.cellOf j).mask := by
  by_cases hj : ∃ m ∈ l, j = State.nodeCell m
  · obtain ⟨m, hm, rfl⟩ := hj
    obtain ⟨i, hi⟩ := h.erased m hm
    rw [hi]
  · rw [h.cells j (fun m hm he => hj ⟨m, hm, he⟩)]

theorem trans (hk : ∀ m ∈ l, m < 1024) (h : Fells v l s t) (g : Fells v k t u) : Fells v (l ++ k) s u := by
  refine ⟨fun m hm => ?_, fun m hm => ?_, fun m hm hn => ?_, fun m hm => (g.gens m hm).trans (h.gens m hm), fun j hj => ?_,
    h.within.trans g.within, g.active.trans h.active, g.power.trans h.power⟩
  · by_cases hmk : m ∈ k
    · exact g.state m hmk
    · have hml : m ∈ l := (List.mem_append.mp hm).resolve_right hmk
      rw [g.others m (hk m hml) hmk, h.state m hml]
  · by_cases hmk : m ∈ k
    · obtain ⟨i, hi⟩ := g.erased m hmk
      exact ⟨i, by rw [hi, h.mask]⟩
    · have hml : m ∈ l := (List.mem_append.mp hm).resolve_right hmk
      obtain ⟨i, hi⟩ := h.erased m hml
      refine ⟨i, (g.cells _ fun x hx he => hmk ?_).trans hi⟩
      have : m = x := by unfold State.nodeCell at he; omega
      exact this ▸ hx
  · rw [List.mem_append, not_or] at hn
    rw [g.others m hm hn.2, h.others m hm hn.1]
  · rw [g.cells j (fun m hm => hj m (List.mem_append_right _ hm)), h.cells j (fun m hm => hj m (List.mem_append_left _ hm))]

theorem stands (h : Fells v l s t) (g : TreeStands t u) (hl : ∀ m ∈ l, m < 1024) : Fells v l s u := by
  have := h.trans hl (of_stands (v := v) g)
  rwa [List.append_nil] at this

theorem after (g : TreeStands s t) (h : Fells v l t u) : Fells v l s u :=
  (of_stands (v := v) g).trans (fun _ h => absurd h List.not_mem_nil) h

/-- A list of nodes, one after another. -/
theorem forEach {f : State → Nat → State} (hf : ∀ u m, m < 1024 → Fells v [m] u (f u m)) (s : State) (l : List Nat)
    (hl : ∀ m ∈ l, m < 1024) : Fells v l s (s.forEach l f) := by
  induction l generalizing s with
  | nil => exact of_stands (.refl s)
  | cons a l ih =>
    have ha : a < 1024 := hl a List.mem_cons_self
    exact (hf s a ha).trans (fun m hm => (List.mem_singleton.mp hm) ▸ ha)
      (ih _ fun m hm => hl m (List.mem_cons_of_mem _ hm))

end Fells

namespace State

/-- A node's cell is erased, and its state set. -/
theorem fells_setNode {v n : Nat} (hv : v < 8) (hn : n < 1024) (s : State) :
    Fells v [n] s ((s.eraseKey (nodeCell n)).setNode n v) := by
  have hself : ∀ m ∈ [n], m = n := fun m hm => List.mem_singleton.mp hm
  refine ⟨fun m hm => ?_, fun m hm => ?_, fun m _ hm => ?_, fun m _ => ?_, fun k hk => ?_, ?_, rfl, rfl⟩
  · rw [hself m hm, nodeState_setNode_self _ _ hv]
  · exact ⟨s.freeN, hself m hm ▸ cellOf_eraseKey_self s (nodeCell n)⟩
  · rw [List.mem_singleton] at hm
    exact nodeState_setNode_other _ v hm
  · exact nodeGen_setNode _ n m v
  · exact cellOf_eraseKey_other s (hk n (List.mem_singleton_self n))
  · refine RegsWithin.setRg ?_ (.inr ?_) ((RegsWithin.refl s).of_regs rfl rfl)
    · simp only [keyRegs]
      omega
    · dsimp only
      omega

/-- A node is emptied (R369). -/
theorem fells_emptyNode (s : State) {n : Nat} (hn : n < 1024) : Fells 0 [n] s (s.emptyNode n) := by
  unfold emptyNode
  dsimp only
  refine Fells.after ?_ (fells_setNode (by decide) hn _)
  split
  · exact .setRg _ _ _ (by decide) (.inr (by decide))
  · exact .refl s

/-! ### Sessions and working keys -/

theorem stands_updResult (s : State) (a : Agent) (index code : Nat) : TreeStands s (s.updResult a index code) := by
  rw [updResult_eq]
  refine TreeStands.trans ?_ (.raise _ _ (by split <;> decide))
  refine TreeStands.trans (t := if a.ownerCode ≤ 12 then s.wr (R.SV_UPD_RESULT a.ownerCode) (updWord index code) else s) ?_ ?_
  · split
    · exact .wr _ _ _ (by simp only [asideRegs, R.SV_UPD_RESULT]; omega) (.inl (by unfold R.SV_UPD_RESULT; omega))
    · exact .refl s
  · exact .of_moves (.of_moves (.refl _) (replied_moves _ a _) (by decide)) (replied_moves _ a _) (by decide)

theorem stands_sessionOver (s : State) (block : Bool) : TreeStands s (s.sessionOver block) := by
  have shown (u : State) (f : Fld) (v : Nat) (h : f.off = 0xc04) : TreeStands u (u.setRg f v) :=
    .setRg u f v (by rw [h]; decide) (.inl (by omega))
  unfold sessionOver
  dsimp only
  refine TreeStands.trans ?_ (shown _ _ _ rfl)
  refine TreeStands.trans ?_ (shown _ _ _ rfl)
  refine TreeStands.trans ?_ (shown _ _ _ rfl)
  refine TreeStands.trans ?_ (shown _ _ _ rfl)
  exact ⟨.of_regs (.refl s) rfl rfl, rfl, rfl, rfl⟩

theorem stands_endUpdate (s : State) (block : Bool) : TreeStands s (s.endUpdate block) := by
  rw [endUpdate_eq]
  split
  · exact (stands_sessionOver s block).trans (stands_updResult _ _ _ _)
  · exact stands_sessionOver s block

theorem stands_ledgerAdd (s : State) (ty : Nat) (p : List Byte) : TreeStands s (s.ledgerAdd ty p) :=
  .of_moves (regsWithin_ledgerAdd (by decide) (.refl s))
    (moves_ledgerAdd (ps := [.out, .regs, .scope, .ob]) (List.Subset.refl _) (moves_refl s)) (by decide)

theorem stands_closeUpdate (s : State) (cause : Nat) : TreeStands s (s.closeUpdate cause) := by
  unfold closeUpdate
  split
  · exact .refl s
  · exact ((stands_ledgerAdd s _ _).trans (stands_endUpdate _ _)).trans (.raise _ _ (by decide))

theorem stands_closeSession (s : State) (n : Nat) : TreeStands s (s.closeSession n) := by
  have closed : TreeStands s { s with sv.bersan := Sparse.set (fun _ => none) s.sv.bersan n none } :=
    ⟨.of_regs (.refl s) rfl rfl, rfl, rfl, rfl⟩
  unfold closeSession
  dsimp only
  split
  · split
    · exact closed.trans (stands_closeUpdate _ 2)
    · exact closed
  · exact closed

theorem stands_ctxUnusable (s : State) (c st : Nat) : TreeStands s (s.ctxUnusable c st) := by
  unfold ctxUnusable
  split
  · exact .refl s
  · exact (((TreeStands.setRg _ _ _ (by simp only [asideRegs]; omega) (.inr (by dsimp only; omega))).trans
      (.setRg _ _ _ (by decide) (.inr (by decide)))).trans (.setRg _ _ _ (by decide) (.inr (by decide)))).trans
      (.raise _ _ (by decide))

theorem stands_wipeThrough (s : State) (nodes : List Nat) : TreeStands s (s.wipeThrough nodes) := by
  unfold wipeThrough
  dsimp only
  refine TreeStands.trans (t := if nodes.contains 6 then { s with ce.ham := none } else s) ?_ (.forEach (fun u c => ?_) _ _)
  · split
    · exact ⟨.of_regs (.refl s) rfl rfl, rfl, rfl, rfl⟩
    · exact .refl s
  · exact TreeStands.trans (t := u.wipeEntry c) ⟨.of_regs (.refl u) rfl rfl, rfl, rfl, rfl⟩ (stands_ctxUnusable _ c 3)

theorem stands_nodesLost (s : State) (nodes : List Nat) : TreeStands s (s.nodesLost nodes) := by
  have closed := (stands_wipeThrough s nodes).trans (.forEach (fun u n => stands_closeSession u n) _
    ((List.range 4).filter (fun n => ((s.wipeThrough nodes).sessionNode n).any nodes.contains)))
  unfold nodesLost
  dsimp only
  split
  · exact closed.trans (stands_closeUpdate _ 5)
  · exact closed

theorem stands_kxEvent (s : State) {ev : Nat} (n : Nat) (hev : ev < 256) : TreeStands s (s.kxEvent ev n) :=
  (TreeStands.setRg _ _ _ (by decide) (.inr (by decide))).trans (.raise _ _ hev)

end State

end Sys2Proof.Machine
end

section
/-!
PROOFS. An invalidated node and the orphans under it (R364), and what a wipe leaves of the tree (R369, R370).
-/

namespace Sys2Proof.Machine

/-- What KX holds beside its cells. -/
def KxState.core (k : KxState) : KxState := { k with cells := [] }

namespace State

/-! ### The nodes under a node -/

/-- The node is n, or following PARENT from it reaches n within d steps. -/
def isUnder (rf : RegFile) (n d p : Nat) : Prop := p = n ∨ nodeLoops rf n d p = true

theorem nodeLoops_succ {rf : RegFile} {n p m d : Nat} (hp : nodeParent rf m = some p) (h : isUnder rf n d p) :
    nodeLoops rf n (d + 1) m = true := by
  rw [nodeLoops, hp]
  dsimp only
  rw [Bool.or_eq_true, decide_eq_true_eq]
  exact h

theorem nodeLoops_mono {rf : RegFile} {n m d : Nat} (h : nodeLoops rf n d m = true) {e : Nat} (he : d ≤ e) :
    nodeLoops rf n e m = true := by
  induction d generalizing m e with
  | zero => exact absurd h Bool.false_ne_true
  | succ d ih =>
    obtain ⟨e, rfl⟩ : ∃ e', e = e' + 1 := ⟨e - 1, by omega⟩
    rw [nodeLoops] at h ⊢
    cases hp : nodeParent rf m with
    | none => simp [hp] at h
    | some p =>
      simp only [hp, Bool.or_eq_true, decide_eq_true_eq] at h ⊢
      exact h.imp_right fun k => ih k (by omega)

theorem mem_keyedChildren {s : State} {ps : List Nat} {m : Nat} (h : m ∈ s.keyedChildren ps) :
    m < 1024 ∧ ∃ p ∈ ps, nodeParent s.kxRf m = some p := by
  obtain ⟨hr, ht⟩ := List.mem_filter.mp h
  refine ⟨List.mem_range.mp hr, ?_⟩
  obtain ⟨hp, -⟩ := Bool.and_eq_true_iff.mp ht
  obtain ⟨p, hq, hc⟩ := Option.any_eq_true _ _ |>.mp hp
  exact ⟨p, List.contains_iff_mem.mp hc, hq⟩

theorem orphans_lt {s : State} {fuel : Nat} {ps : List Nat} {m : Nat} (h : m ∈ s.orphans fuel ps) : m < 1024 := by
  induction fuel generalizing ps with
  | zero => exact absurd h List.not_mem_nil
  | succ fuel ih =>
    rw [orphans] at h
    split at h
    · exact absurd h List.not_mem_nil
    · rcases List.mem_append.mp h with hc | hc
      · exact (mem_keyedChildren hc).1
      · exact ih hc

/-- A child that holds, or held, a key is an orphan. -/
theorem child_mem_orphans {s : State} {fuel n m : Nat} (hm : m < 1024) (hp : nodeParent s.kxRf m = some n)
    (hs : [1, 2, 4].contains (s.nodeState m) = true) : m ∈ s.orphans (fuel + 1) [n] := by
  have hc : m ∈ s.keyedChildren [n] := by
    refine List.mem_filter.mpr ⟨List.mem_range.mpr hm, ?_⟩
    rw [hp, hs]
    simp
  rw [orphans, if_neg (by rw [List.isEmpty_iff]; exact List.ne_nil_of_mem hc)]
  exact List.mem_append_left _ hc

/-- In a state that differs in node n alone the same nodes are under n, unless the chain of n leads back to it. -/
theorem orphans_same {s t : State} {n : Nat} (hrf : t.kxRf = s.kxRf) (hl : nodeLoops s.kxRf n 8 n = false)
    (hst : ∀ m < 1024, m ≠ n → t.nodeState m = s.nodeState m) (fuel d : Nat) (ps : List Nat) (hd : d + fuel < 8)
    (hps : ∀ p ∈ ps, isUnder s.kxRf n d p) : t.orphans fuel ps = s.orphans fuel ps ∧ n ∉ s.orphans fuel ps := by
  induction fuel generalizing d ps with
  | zero => exact ⟨rfl, List.not_mem_nil⟩
  | succ fuel ih =>
    have hchild {m p : Nat} (hp : p ∈ ps) (hm : nodeParent s.kxRf m = some p) : nodeLoops s.kxRf n (d + 1) m = true :=
      nodeLoops_succ hm (hps p hp)
    have hno : ∀ p ∈ ps, nodeParent s.kxRf n ≠ some p := fun p hp he =>
      Bool.false_ne_true (hl.symm.trans (nodeLoops_mono (hchild hp he) (by omega)))
    have hkc : t.keyedChildren ps = s.keyedChildren ps := by
      unfold keyedChildren
      rw [hrf]
      refine List.filter_congr fun m hm => ?_
      by_cases he : m = n
      · have : (nodeParent s.kxRf m).any ps.contains = false := by
          rw [Bool.eq_false_iff]
          intro hany
          obtain ⟨p, hp, hc⟩ := Option.any_eq_true _ _ |>.mp hany
          exact hno p (List.contains_iff_mem.mp hc) (he ▸ hp)
        rw [this, Bool.false_and, Bool.false_and]
      · rw [hst m (List.mem_range.mp hm) he]
    obtain ⟨hsame, hnot⟩ := ih (d + 1) (s.keyedChildren ps) (by omega) fun p hp => by
      obtain ⟨_, q, hq, hpar⟩ := mem_keyedChildren hp
      exact .inr (hchild hq hpar)
    rw [orphans, orphans, hkc, hsame]
    split
    · exact ⟨rfl, List.not_mem_nil⟩
    · refine ⟨rfl, fun h => ?_⟩
      rcases List.mem_append.mp h with hc | hc
      · obtain ⟨_, q, hq, hpar⟩ := mem_keyedChildren hc
        exact hno q hq hpar
      · exact hnot hc

/-! ### Invalidation -/

theorem nodeState_eraseKey (s : State) (k m : Nat) : (s.eraseKey k).nodeState m = s.nodeState m := rfl

theorem nodeGen_eraseKey (s : State) (k m : Nat) : (s.eraseKey k).nodeGen m = s.nodeGen m := rfl

theorem nodeState_advanceGen (s : State) (n m : Nat) : (s.advanceGen n).nodeState m = s.nodeState m :=
  rg_setRg_other _ _ _ _ (by simp) (by simp) (.inr (.inr (by simp)))

theorem nodeGen_advanceGen_self (s : State) (n : Nat) :
    (s.advanceGen n).nodeGen n = if s.nodeGen n = 65535 then 1 else s.nodeGen n + 1 := by
  have hlt : s.nodeGen n < 2 ^ 16 := s.rg_lt _
  rw [advanceGen, nodeGen, rg_setRg_self _ _ _ (by simp)]
  refine Nat.mod_eq_of_lt ?_
  split <;> dsimp only <;> omega

theorem nodeGen_advanceGen_other (s : State) {n m : Nat} (h : m ≠ n) : (s.advanceGen n).nodeGen m = s.nodeGen m :=
  rg_setRg_other _ _ _ _ (by simp) (by simp) (.inl (by dsimp only; omega))

theorem kxEvent_raised {s : State} (ev n : Nat) (hup : s.socUp = true) : (s.kxEvent ev n).evSet ev = true :=
  evSet_raise_self _ ev none ((socUp_setRg _ _ _).trans hup)

theorem kxEvent_kx (s : State) (ev n : Nat) : (s.kxEvent ev n).kx = s.kx := raise_kx _ _ _

/-- The descendants of a node become ORPHANED, with their cells erased, and no other node changes (R364, R365). -/
theorem fells_orphanUnder (s : State) (n : Nat) : Fells 3 (s.orphans 7 [n]).eraseDups s (s.orphanUnder n) := by
  have hlt : ∀ m ∈ (s.orphans 7 [n]).eraseDups, m < 1024 := fun m hm => orphans_lt (List.mem_eraseDups.mp hm)
  have fallen : Fells 3 (s.orphans 7 [n]).eraseDups s
      (s.forEach (s.orphans 7 [n]).eraseDups (fun t m => (t.eraseKey (nodeCell m)).setNode m 3)) :=
    .forEach (fun u m hm => fells_setNode (by decide) hm u) s _ hlt
  unfold orphanUnder
  dsimp only
  cases hk : (s.orphans 7 [n]).eraseDups.getLast? with
  | none =>
    rw [List.getLast?_eq_none_iff.mp hk]
    exact .of_stands (stands_nodesLost s [n])
  | some k => exact fallen.stands ((stands_kxEvent _ k (by decide)).trans (stands_nodesLost _ _)) hlt

/-- A node falls: its GEN advances, its state is set, its cell is erased, and the event tells it (R364). -/
def nodeFallen (s : State) (n : Nat) : State :=
  (((s.advanceGen n).setNode n (if s.nodeState n = 5 then 5 else 2)).eraseKey (nodeCell n)).kxEvent 176 n

theorem invalidate_eq (s : State) (n : Nat) : s.invalidate n = (s.nodeFallen n).orphanUnder n := rfl

theorem nodeFallen_shows (s : State) {n : Nat} (hn : n < 1024) :
    (s.nodeFallen n).nodeState n = (if s.nodeState n = 5 then 5 else 2) ∧
    (s.nodeFallen n).nodeGen n = (if s.nodeGen n = 65535 then 1 else s.nodeGen n + 1) ∧
    (∀ m < 1024, m ≠ n → (s.nodeFallen n).nodeState m = s.nodeState m ∧ (s.nodeFallen n).nodeGen m = s.nodeGen m) ∧
    (s.nodeFallen n).cellOf (nodeCell n) = ⟨Config.freeValue s.freeN % 2 ^ 256, (s.cellOf (nodeCell n)).mask⟩ ∧
    (∀ k, k ≠ nodeCell n → (s.nodeFallen n).cellOf k = s.cellOf k) := by
  have event := stands_kxEvent (((s.advanceGen n).setNode n (if s.nodeState n = 5 then 5 else 2)).eraseKey (nodeCell n))
    (ev := 176) n (by decide)
  rw [← nodeFallen] at event
  refine ⟨?_, ?_, fun m hm hne => ⟨?_, ?_⟩, ?_, fun k hk => ?_⟩
  · rw [event.nodeState hn, nodeState_eraseKey, nodeState_setNode_self _ _ (by split <;> decide)]
  · rw [event.nodeGen hn, nodeGen_eraseKey, nodeGen_setNode, nodeGen_advanceGen_self]
  · rw [event.nodeState hm, nodeState_eraseKey, nodeState_setNode_other _ _ hne, nodeState_advanceGen]
  · rw [event.nodeGen hm, nodeGen_eraseKey, nodeGen_setNode, nodeGen_advanceGen_other _ hne]
  · rw [event.cellOf, cellOf_eraseKey_self]
    rfl
  · rw [event.cellOf, cellOf_eraseKey_other _ hk]
    rfl

theorem nodeFallen_within (s : State) {n : Nat} : RegsWithin keyRegs s (s.nodeFallen n) := by
  have node : keyRegs (R.KX_NODE_STAT_W0 n) := .inr (by unfold R.KX_NODE_STAT_W0; omega)
  have high : R.KX_NODE_STAT_W0 n < 0x2000 ∨ 0x2020 ≤ R.KX_NODE_STAT_W0 n := .inr (by unfold R.KX_NODE_STAT_W0; omega)
  refine RegsWithin.trans ?_ ((stands_kxEvent _ n (by decide)).within.mono asideRegs.key)
  exact ((RegsWithin.refl s).setRg (f := F.KX_NODE_STAT_W0_GEN n) node high |>.setRg (f := F.KX_NODE_STAT_W0_STATE n) node high
    ).of_regs rfl rfl

theorem nodeFallen_active (s : State) (n : Nat) : (s.nodeFallen n).active = s.active :=
  (stands_kxEvent _ n (by decide)).active

/-- An invalidated node, the orphans under it, and what it leaves (R364). -/
theorem invalidate_shows (s : State) {n : Nat} (hn : n < 1024) (hl : nodeLoops s.kxRf n 8 n = false) :
    (s.invalidate n).nodeState n = (if s.nodeState n = 5 then 5 else 2) ∧
    (s.invalidate n).nodeGen n = (if s.nodeGen n = 65535 then 1 else s.nodeGen n + 1) ∧
    (∃ i, (s.invalidate n).cellOf (nodeCell n) = ⟨Config.freeValue i % 2 ^ 256, (s.cellOf (nodeCell n)).mask⟩) ∧
    (∀ m ∈ s.orphans 7 [n], (s.invalidate n).nodeState m = 3 ∧
      ∃ i, (s.invalidate n).cellOf (nodeCell m) = ⟨Config.freeValue i % 2 ^ 256, (s.cellOf (nodeCell m)).mask⟩) ∧
    ∀ m < 1024, m ≠ n → m ∉ s.orphans 7 [n] → (s.invalidate n).nodeState m = s.nodeState m ∧
      (s.invalidate n).nodeGen m = s.nodeGen m ∧ (s.invalidate n).cellOf (nodeCell m) = s.cellOf (nodeCell m) := by
  obtain ⟨hstate, hgen, hothers, hcell, hcells⟩ := nodeFallen_shows s hn
  have hfell := fells_orphanUnder (s.nodeFallen n) n
  rw [← invalidate_eq] at hfell
  obtain ⟨hsame, hnot⟩ := orphans_same (kxRf_congr (nodeFallen_active s n)) hl (fun m hm hne => (hothers m hm hne).1) 7 0 [n]
    (by decide) (fun p hp => .inl (List.mem_singleton.mp hp))
  rw [hsame] at hfell
  have hmem {m : Nat} : m ∈ (s.orphans 7 [n]).eraseDups ↔ m ∈ s.orphans 7 [n] := List.mem_eraseDups
  have apart {m : Nat} (hm : m ∉ s.orphans 7 [n]) : ∀ k ∈ (s.orphans 7 [n]).eraseDups, nodeCell m ≠ nodeCell k :=
    fun k hk he => hm (by
      have : m = k := by unfold nodeCell at he; omega
      exact this ▸ hmem.mp hk)
  refine ⟨?_, ?_, ⟨s.freeN, ?_⟩, fun m hm => ⟨hfell.state m (hmem.mpr hm), ?_⟩, fun m hm hne ho => ⟨?_, ?_, ?_⟩⟩
  · rw [hfell.others n hn (fun h => hnot (hmem.mp h)), hstate]
  · rw [hfell.gens n hn, hgen]
  · rw [hfell.cells _ (apart hnot), hcell]
  · obtain ⟨i, hi⟩ := hfell.erased m (hmem.mpr hm)
    have hne : m ≠ n := fun he => hnot (by rwa [he] at hm)
    exact ⟨i, by rw [hi, hcells _ (by unfold nodeCell; omega)]⟩
  · rw [hfell.others m hm (fun h => ho (hmem.mp h)), (hothers m hm hne).1]
  · rw [hfell.gens m hm, (hothers m hm hne).2]
  · rw [hfell.cells _ (apart ho), hcells _ (by unfold nodeCell; omega)]

theorem invalidate_raised {s : State} (n : Nat) (hup : s.socUp = true) : (s.invalidate n).evSet 176 = true := by
  refine (fells_orphanUnder (s.nodeFallen n) n).within.events 176 (by decide) ?_
  unfold nodeFallen
  exact kxEvent_raised 176 n ((socUp_congr rfl).trans hup)

theorem core_forEach {α : Type} {f : State → α → State} (hf : ∀ u x, (f u x).kx.core = u.kx.core) (s : State)
    (l : List α) : (s.forEach l f).kx.core = s.kx.core := by
  induction l generalizing s with
  | nil => rfl
  | cons a l ih => exact (ih _).trans (hf s a)

theorem core_felled (s : State) (m v : Nat) : ((s.eraseKey (nodeCell m)).setNode m v).kx.core = s.kx.core := rfl

theorem nodesLost_kx (s : State) (nodes : List Nat) : (s.nodesLost nodes).kx = s.kx :=
  (moves_nodesLost (ps := [.out, .regs, .scope, .sv, .ob, .ce, .upd]) (List.Subset.refl _) (moves_refl s)).1 .kx (by decide)

/-- An invalidation leaves the commands in progress. -/
theorem core_invalidate (s : State) (n : Nat) : (s.invalidate n).kx.core = s.kx.core := by
  have fallen : (s.nodeFallen n).kx.core = s.kx.core := by
    rw [nodeFallen, kxEvent_kx]
    rfl
  rw [invalidate_eq, ← fallen]
  unfold orphanUnder
  dsimp only
  split
  · rw [nodesLost_kx]
  · rw [nodesLost_kx, kxEvent_kx]
    exact core_forEach (fun u m => core_felled u m 3) _ _

end State

end Sys2Proof.Machine
end

section
/-!
PROOFS. The outcome of a KX command (R373, R375), the DATA words (R362, R363), and what a wipe and a lock leave (R369, R370).
-/

namespace Sys2Proof.Machine

namespace State

/-! ### Outcomes -/

/-- The word that a command's outcome is (R373, R375). -/
def kxWord (node code : Nat) : Word := Word.ofNat (code * 2 + node % 1024 * 65536)

theorem kxWord_toNat {node code : Nat} (hn : node < 1024) (hc : code < 32) :
    (kxWord node code).toNat = code * 2 + node * 65536 := by
  rw [kxWord, Nat.mod_eq_of_lt hn]
  simp only [Word.ofNat, BitVec.toNat_ofNat]
  omega

/-- The outcome before its event: in the mailbox, and in a session's or debug access's answer. -/
def kxTold (s : State) (a : Agent) (w : Word) : State :=
  match a with
  | .debug => s.emit (.debugReply w.toNat)
  | .bersan n => (s.wr (R.KX_RESULT (Agent.bersan n).ownerCode) w).emit (.bersanReply n.val w.toNat)
  | .sv => s
  | .core n => s.wr (R.KX_RESULT (Agent.core n).ownerCode) w
  | .pcie => s.wr (R.KX_RESULT Agent.pcie.ownerCode) w

theorem kxResult_eq (s : State) (a : Agent) (node code : Nat) :
    s.kxResult a node code = (s.kxTold a (kxWord node code)).raise (if code = 0 then 184 else 185) (some a) := by
  cases a <;> rfl

theorem rd_kxTold (s : State) (a : Agent) (w : Word) (off : Nat) :
    (s.kxTold a w).rd off = if a.ownerCode ≤ 12 ∧ off = R.KX_RESULT a.ownerCode then w else s.rd off := by
  have mailbox (k : Nat) (hk : k ≤ 12) :
      (s.wr (R.KX_RESULT k) w).rd off = if k ≤ 12 ∧ off = R.KX_RESULT k then w else s.rd off := by
    by_cases h : off = R.KX_RESULT k
    · rw [if_pos ⟨hk, h⟩, h, rd_wr_self]
    · rw [if_neg (fun g => h g.2), rd_wr_other _ _ _ _ h]
  cases a with
  | core n => exact mailbox _ (by simp only [Agent.ownerCode]; omega)
  | pcie => exact mailbox _ (by decide)
  | bersan n => exact mailbox _ (by simp only [Agent.ownerCode]; omega)
  | sv => exact (if_neg (fun h => absurd h.1 (by decide))).symm
  | debug => exact (if_neg (fun h => absurd h.1 (by decide))).symm

theorem kxTold_moves (s : State) (a : Agent) (w : Word) : moves [.out, .regs] s (s.kxTold a w) := by
  cases a with
  | core n => exact moves_wr (by decide) (moves_refl s)
  | pcie => exact moves_wr (by decide) (moves_refl s)
  | bersan n => exact moves_emit (by decide) (moves_wr (by decide) (moves_refl s))
  | sv => exact moves_refl s
  | debug => exact moves_emit (by decide) (moves_refl s)

theorem kxResult_moves (s : State) (a : Agent) (node code : Nat) : moves [.out, .regs, .scope] s (s.kxResult a node code) :=
  moves_kxResult (List.Subset.refl _) (moves_refl s)

theorem kxResult_kx (s : State) (a : Agent) (node code : Nat) : (s.kxResult a node code).kx = s.kx :=
  (kxResult_moves s a node code).1 .kx (by decide)

/-- An outcome is written to its agent's mailbox and nowhere else. -/
theorem rd_kxResult (s : State) (a : Agent) (node code : Nat) {off : Nat} (he : off < 0x2000 ∨ 0x2020 ≤ off) :
    (s.kxResult a node code).rd off =
      if a.ownerCode ≤ 12 ∧ off = R.KX_RESULT a.ownerCode then kxWord node code else s.rd off := by
  rw [kxResult_eq, rd_raise_other _ _ _ _ (by split <;> omega), rd_kxTold]

theorem rd_kxResult_self (s : State) {a : Agent} (node code : Nat) (hk : a.ownerCode ≤ 12) :
    (s.kxResult a node code).rd (R.KX_RESULT a.ownerCode) = kxWord node code := by
  rw [rd_kxResult _ _ _ _ (.inr (by unfold R.KX_RESULT; omega)), if_pos ⟨hk, rfl⟩]

/-- The mailboxes' results: the registers that outcomes and accepted commands write. -/
abbrev resultRegs (off : Nat) : Prop := ∃ k ≤ 12, off = R.KX_RESULT k

theorem regsWithin_kxResult (s : State) (a : Agent) (node code : Nat) :
    RegsWithin resultRegs s (s.kxResult a node code) := by
  rw [kxResult_eq]
  refine RegsWithin.raise (by split <;> decide) ?_
  have mailbox (k : Nat) (hk : k ≤ 12) (w : Word) : RegsWithin resultRegs s (s.wr (R.KX_RESULT k) w) :=
    (RegsWithin.refl s).wr w ⟨k, hk, rfl⟩ (.inr (by unfold R.KX_RESULT; omega))
  cases a with
  | core n => exact mailbox _ (by simp only [Agent.ownerCode]; omega) _
  | pcie => exact mailbox _ (by decide) _
  | bersan n => exact (mailbox _ (by simp only [Agent.ownerCode]; omega) _).of_regs rfl rfl
  | sv => exact .refl s
  | debug => exact .of_regs (.refl s) rfl rfl

theorem resultRegs.aside (off : Nat) (h : resultRegs off) : asideRegs off := by
  obtain ⟨k, hk, rfl⟩ := h
  simp only [asideRegs, R.KX_RESULT]
  omega

theorem stands_kxResult (s : State) (a : Agent) (node code : Nat) : TreeStands s (s.kxResult a node code) :=
  .of_moves ((regsWithin_kxResult s a node code).mono resultRegs.aside) (kxResult_moves s a node code) (by decide)

theorem kxTold_socUp {s : State} (a : Agent) (w : Word) (hup : s.socUp = true) : (s.kxTold a w).socUp = true :=
  (socUp_congr ((kxTold_moves s a w).1 .pw (by decide))).trans hup

theorem kxResult_done {s : State} (a : Agent) (node : Nat) (hup : s.socUp = true) :
    (s.kxResult a node 0).evSet 184 = true := by
  rw [kxResult_eq]
  exact evSet_raise_self _ 184 _ (kxTold_socUp a _ hup)

theorem kxResult_failed {s : State} (a : Agent) (node : Nat) {code : Nat} (hc : code ≠ 0) (hup : s.socUp = true) :
    (s.kxResult a node code).evSet 185 = true := by
  rw [kxResult_eq, if_neg hc]
  exact evSet_raise_self _ 185 _ (kxTold_socUp a _ hup)

/-- What was sent before stays sent. -/
theorem out_kxResult {s : State} (a : Agent) (node code : Nat) {o : Output} (h : o ∈ s.out) :
    o ∈ (s.kxResult a node code).out := by
  obtain ⟨l, hl⟩ := (kxResult_moves s a node code).2.out
  rw [hl]
  exact List.mem_append_right _ h

/-- A session's message is answered with the outcome (R103). -/
theorem reply_kxResult (s : State) (k : Fin 4) {node code : Nat} (hn : node < 1024) (hc : code < 32) :
    .bersanReply k.val (code * 2 + node * 65536) ∈ (s.kxResult (.bersan k) node code).out := by
  rw [kxResult_eq]
  obtain ⟨l, hl⟩ := (raise_moves (s.kxTold (.bersan k) (kxWord node code)) (if code = 0 then 184 else 185)
    (some (.bersan k))).2.out
  rw [hl, ← kxWord_toNat hn hc]
  exact List.mem_append_right _ List.mem_cons_self

/-- Debug access is answered with the outcome (R374). -/
theorem reply_kxResult_debug (s : State) {node code : Nat} (hn : node < 1024) (hc : code < 32) :
    .debugReply (code * 2 + node * 65536) ∈ (s.kxResult .debug node code).out := by
  rw [kxResult_eq]
  obtain ⟨l, hl⟩ := (raise_moves (s.kxTold .debug (kxWord node code)) (if code = 0 then 184 else 185) (some .debug)).2.out
  rw [hl, ← kxWord_toNat hn hc]
  exact List.mem_append_right _ List.mem_cons_self

/-! ### The DATA words -/

/-- A register that a list of fields does not touch keeps its value. -/
theorem rd_forEach_setRg {α : Type} (s : State) (l : List α) (f : α → Fld) (v : α → Nat) {off : Nat}
    (h : ∀ x ∈ l, (f x).off ≠ off) : (s.forEach l (fun t x => t.setRg (f x) (v x))).rd off = s.rd off := by
  induction l generalizing s with
  | nil => rfl
  | cons a l ih =>
    refine (ih _ fun x hx => h x (List.mem_cons_of_mem _ hx)).trans ?_
    exact rd_setRg_other _ (f a) _ _ (h a List.mem_cons_self).symm

/-- Each of the words written holds its value. -/
theorem rg_forEach_data (s : State) (k : Nat) (l : List Nat) (v : Nat → Nat) {w : Nat} (hw : w ∈ l)
    (hv : ∀ x ∈ l, v x < 2 ^ 32) (hl : l.Nodup) :
    (s.forEach l (fun t x => t.setRg (F.KX_DATA_DATA k x) (v x))).rg (F.KX_DATA_DATA k w) = v w := by
  induction l generalizing s with
  | nil => exact absurd hw List.not_mem_nil
  | cons a l ih =>
    obtain ⟨ha, hl'⟩ := List.nodup_cons.mp hl
    by_cases hwl : w ∈ l
    · exact ih _ hwl (fun x hx => hv x (List.mem_cons_of_mem _ hx)) hl'
    · have hwa : w = a := (List.mem_cons.mp hw).resolve_right hwl
      subst hwa
      have hkept := rd_forEach_setRg (s.setRg (F.KX_DATA_DATA k w) (v w)) l (fun x => F.KX_DATA_DATA k x) v
        (off := (F.KX_DATA_DATA k w).off) (fun x hx he => hwl (by
          have : x = w := by dsimp only at he; omega
          exact this ▸ hx))
      have hset := rg_setRg_self s (F.KX_DATA_DATA k w) (v w) (by simp)
      rw [Nat.mod_eq_of_lt (hv w hw), rg_eq] at hset
      rw [rg_eq]
      exact (congrArg _ hkept).trans hset

/-- The mailboxes' DATA words. -/
abbrev dataRegs (off : Nat) : Prop := ∃ k ≤ 12, ∃ w < 16, off = R.KX_DATA k w

theorem dataRegs.aside (off : Nat) (h : dataRegs off) : asideRegs off := by
  obtain ⟨k, hk, w, hw, rfl⟩ := h
  simp only [asideRegs, R.KX_DATA]
  omega

theorem regsWithin_data (s : State) {k : Nat} (hk : k ≤ 12) (v : Nat → Nat) :
    RegsWithin dataRegs s (s.forEach (List.range 16) (fun t w => t.setRg (F.KX_DATA_DATA k w) (v w))) := by
  have : ∀ (l : List Nat) (u : State), (∀ w ∈ l, w < 16) →
      RegsWithin dataRegs u (u.forEach l (fun t w => t.setRg (F.KX_DATA_DATA k w) (v w))) := by
    intro l
    induction l with
    | nil => exact fun u _ => .refl u
    | cons a l ih =>
      intro u h
      exact ((RegsWithin.refl u).setRg (f := F.KX_DATA_DATA k a) ⟨k, hk, a, h a List.mem_cons_self, rfl⟩
        (.inr (by dsimp only; omega))).trans (ih _ fun w hw => h w (List.mem_cons_of_mem _ hw))
  exact this _ s fun w hw => List.mem_range.mp hw

theorem zeroKxData_within (s : State) (a : Agent) : RegsWithin dataRegs s (s.zeroKxData a) := by
  unfold zeroKxData
  split
  · next hk => exact regsWithin_data s hk (fun _ => 0)
  · split
    · exact .of_regs (.refl s) rfl rfl
    · exact .refl s

theorem setKxData_within (s : State) (a : Agent) (bs : List Byte) : RegsWithin dataRegs s (s.setKxData a bs) := by
  unfold setKxData
  split
  · next hk => exact regsWithin_data s hk (fun w => ofLe (slice0 bs (4 * w) 4))
  · split
    · exact .of_regs (.refl s) rfl rfl
    · exact .refl s

theorem zeroKxData_moves (s : State) (a : Agent) : moves [.regs, .kx] s (s.zeroKxData a) :=
  moves_zeroKxData (List.Subset.refl _) (moves_refl s)

theorem kx_forEach_setRg {α : Type} (s : State) (l : List α) (f : α → Fld) (v : α → Nat) :
    (s.forEach l (fun t x => t.setRg (f x) (v x))).kx = s.kx := by
  induction l generalizing s with
  | nil => rfl
  | cons a l ih => exact ih _

/-- Of what KX holds beside registers, the DATA words are debug access's alone. -/
theorem zeroKxData_kx (s : State) (a : Agent) :
    (s.zeroKxData a).kx = { s.kx with debugData := (s.zeroKxData a).kx.debugData } := by
  unfold zeroKxData
  split
  · rw [kx_forEach_setRg]
  · split <;> rfl

theorem setKxData_kx (s : State) (a : Agent) (bs : List Byte) :
    (s.setKxData a bs).kx = { s.kx with debugData := (s.setKxData a bs).kx.debugData } := by
  unfold setKxData
  split
  · rw [kx_forEach_setRg]
  · split <;> rfl

theorem stands_zeroKxData (s : State) (a : Agent) : TreeStands s (s.zeroKxData a) :=
  ⟨(zeroKxData_within s a).mono dataRegs.aside, by rw [zeroKxData_kx], (zeroKxData_moves s a).1 .active (by decide),
    (zeroKxData_moves s a).1 .pw (by decide)⟩

theorem zeroKxData_zero (s : State) {a : Agent} (hk : a.ownerCode ≤ 12) {w : Nat} (hw : w < 16) :
    (s.zeroKxData a).rg (F.KX_DATA_DATA a.ownerCode w) = 0 := by
  rw [zeroKxData, if_pos hk]
  exact rg_forEach_data s _ _ (fun _ => 0) (List.mem_range.mpr hw) (fun _ _ => by decide) List.nodup_range

theorem setKxData_word (s : State) {a : Agent} (bs : List Byte) (hk : a.ownerCode ≤ 12) {w : Nat} (hw : w < 16) :
    (s.setKxData a bs).rg (F.KX_DATA_DATA a.ownerCode w) = ofLe (slice0 bs (4 * w) 4) := by
  rw [setKxData, if_pos hk]
  refine rg_forEach_data s _ _ (fun w => ofLe (slice0 bs (4 * w) 4)) (List.mem_range.mpr hw) (fun x _ => ?_) List.nodup_range
  have h := ofLe_lt (slice0 bs (4 * x) 4)
  rwa [slice0_length] at h

/-! ### A wipe -/

theorem stands_failJob (s : State) (j : KxJob) : TreeStands s (s.failJob j) := by
  unfold failJob
  refine TreeStands.trans ?_ (stands_kxResult _ _ _ _)
  split
  · exact stands_zeroKxData s _
  · exact .refl s

/-- What the ENROLL tasks of the flash writer answer at a wipe (R370). -/
def enrollFailed (s : State) (k : FlashTask) : State :=
  match k.kind with
  | .enroll a => s.kxResult a 0 0x0D
  | _ => s

theorem stands_enrollFailed (s : State) (k : FlashTask) : TreeStands s (s.enrollFailed k) := by
  unfold enrollFailed
  split
  · exact stands_kxResult _ _ _ _
  · exact .refl s

theorem stands_abortJobs (s : State) : TreeStands s s.abortJobs ∧ s.abortJobs.kx.jobs = [] := by
  have failed := (TreeStands.forEach stands_failJob s s.kx.jobs).trans (.forEach stands_enrollFailed _ s.sv.tasks)
  refine ⟨failed.trans ?_, rfl⟩
  exact ⟨.of_regs (.refl _) rfl rfl, rfl, rfl, rfl⟩

theorem stands_abortFrames (s : State) : TreeStands s s.abortFrames :=
  have m : moves [.sx] s s.abortFrames := moves_abortFrames (List.Subset.refl _) (moves_refl s)
  .of_moves (.of_moves (.refl s) m (by decide)) m (by decide)

/-- The commands, the cache entries and the frames under way end (R370). -/
def wipeEnds (s : State) : State := s.abortJobs.wipeKeys.abortFrames

theorem wipeEnds_shows (s : State) :
    TreeStands s s.wipeEnds ∧ s.wipeEnds.kx.jobs = [] ∧ s.wipeEnds.ce.cache = [] := by
  obtain ⟨hstands, hjobs⟩ := stands_abortJobs s
  have m : moves [.sx] s.abortJobs.wipeKeys s.wipeEnds := moves_abortFrames (List.Subset.refl _) (moves_refl _)
  refine ⟨(hstands.trans (t := s.abortJobs) (u := s.abortJobs.wipeKeys) ?_).trans (stands_abortFrames _), ?_, ?_⟩
  · exact ⟨.of_regs (.refl _) rfl rfl, rfl, rfl, rfl⟩
  · rw [m.1 .kx (by decide)]
    exact hjobs
  · rw [m.1 .ce (by decide)]
    rfl

/-- The nodes that a wipe empties. -/
def importedNodes (s : State) : List Nat := (List.range 1024).filter (fun n => nodeKind s.kxRf n = 1 ∧ nodeValid s.kxRf n)

theorem mem_importedNodes {s : State} {n : Nat} :
    n ∈ s.importedNodes ↔ n < 1024 ∧ nodeKind s.kxRf n = 1 ∧ nodeValid s.kxRf n = true := by
  simp [importedNodes]

/-- Sessions that a wipe closes: all but those that node 3 authenticated. -/
def strangers (s : State) : List Nat := (List.range 4).filter (fun n => (s.sessionNode n).any (fun k => decide (k ≠ 3)))

theorem wipe_eq (s : State) : s.wipe =
    ((((s.wipeEnds.forEach s.wipeEnds.importedNodes emptyNode).forEach
      (s.wipeEnds.forEach s.wipeEnds.importedNodes emptyNode).strangers closeSession).closeUpdate 4).raise 181) := rfl

theorem closeSession_node (s : State) (n k : Nat) :
    (s.closeSession n).sessionNode k = if k = n then none else s.sessionNode k := by
  rw [sessionNode, closeSession_bersan]
  split
  · next h => rw [h, Sparse.get_set_self]
  · next h => rw [Sparse.get_set_other _ _ _ h, sessionNode]

/-- Closing a list of sessions closes those and no other. -/
theorem forEach_closeSession_node (s : State) (l : List Nat) (k : Nat) :
    (s.forEach l closeSession).sessionNode k = if k ∈ l then none else s.sessionNode k := by
  induction l generalizing s with
  | nil => rfl
  | cons a l ih =>
    refine (ih _).trans ?_
    rw [closeSession_node]
    by_cases hl : k ∈ l
    · rw [if_pos hl, if_pos (List.mem_cons_of_mem _ hl)]
    · by_cases ha : k = a
      · rw [if_neg hl, if_pos ha, if_pos (ha ▸ List.mem_cons_self)]
      · rw [if_neg hl, if_neg ha, if_neg (fun h => (List.mem_cons.mp h).elim ha hl)]

theorem closeUpdate_owner (s : State) (cause : Nat) : (s.closeUpdate cause).upd.owner = none := by
  cases ho : s.upd.owner with
  | none =>
    rw [closeUpdate, ho]
    exact ho
  | some a => rw [closeUpdate_eq cause ho, raise_upd, (endUpdate_shows _ _).1]

theorem closeUpdate_moves (s : State) (cause : Nat) : moves [.out, .regs, .scope, .sv, .ob, .upd] s (s.closeUpdate cause) :=
  moves_closeUpdate (List.Subset.refl _) (moves_refl s)

theorem core_emptyNode (s : State) (n : Nat) : (s.emptyNode n).kx.core = s.kx.core := by
  unfold emptyNode
  dsimp only
  split <;> rfl

/-- What a wipe leaves (R369, R370). -/
theorem wipe_shows (s : State) : Fells 0 s.importedNodes s s.wipe ∧ s.wipe.kx.jobs = [] ∧ s.wipe.ce.cache = [] ∧
    s.wipe.upd.owner = none ∧ (∀ k < 4, ∀ m, s.wipe.sessionNode k = some m → m = 3) ∧
    (s.socUp = true → s.wipe.evSet 181 = true) := by
  obtain ⟨hends, hjobs, hcache⟩ := wipeEnds_shows s
  have himp : s.wipeEnds.importedNodes = s.importedNodes := by rw [importedNodes, hends.kxRf, ← importedNodes]
  have hlt : ∀ m ∈ s.importedNodes, m < 1024 := fun m hm => (mem_importedNodes.mp hm).1
  rw [wipe_eq, himp]
  generalize hu : s.wipeEnds.forEach s.importedNodes emptyNode = u
  have hfell : Fells 0 s.importedNodes s.wipeEnds u := hu ▸ .forEach (fun u m hm => fells_emptyNode u hm) _ _ hlt
  have hcore : u.kx.core = s.wipeEnds.kx.core := hu ▸ core_forEach core_emptyNode _ _
  have hce : u.ce = s.wipeEnds.ce := by
    have m : moves [.freeN, .regs, .kx] s.wipeEnds u :=
      hu ▸ moves_forEach (fun u n h => moves_emptyNode (List.Subset.refl _) h) (moves_refl _)
    exact m.1 .ce (by decide)
  have hsess (k : Nat) : (u.forEach u.strangers closeSession).sessionNode k = if k ∈ u.strangers then none else u.sessionNode k :=
    forEach_closeSession_node u u.strangers k
  have hm : moves [.out, .regs, .scope, .sv, .ob, .upd] u (u.forEach u.strangers closeSession) :=
    moves_forEach (fun u n h => moves_closeSession (List.Subset.refl _) h) (moves_refl _)
  have hstands : TreeStands u (u.forEach u.strangers closeSession) := .forEach stands_closeSession u _
  generalize u.forEach u.strangers closeSession = v at hsess hm hstands
  refine ⟨?_, ?_, ?_, ?_, fun k hk m hn => ?_, fun hup => ?_⟩
  · exact .after hends (hfell.stands ((hstands.trans (stands_closeUpdate v 4)).trans (.raise _ _ (by decide))) hlt)
  · rw [raise_kx, (closeUpdate_moves v 4).1 .kx (by decide), hm.1 .kx (by decide)]
    exact (congrArg KxState.jobs hcore).trans hjobs
  · rw [raise_ce, (closeUpdate_moves v 4).1 .ce (by decide), hm.1 .ce (by decide), hce, hcache]
  · rw [raise_upd, closeUpdate_owner]
  · rw [sessionNode_congr (congrArg SvState.bersan (raise_sv _ _ _)), sessionNode_congr (closeUpdate_bersan v 4), hsess] at hn
    split at hn
    · exact absurd hn (by simp)
    · next hs =>
      by_contra hne
      exact hs (List.mem_filter.mpr ⟨List.mem_range.mpr hk, by rw [hn]; simpa using hne⟩)
  · refine evSet_raise_self _ 181 none ?_
    rw [(stands_closeUpdate v 4).socUp, hstands.socUp, socUp_congr hfell.power, hends.socUp]
    exact hup

/-! ### A lock -/

/-- The pages of a port's queues are released beside the tree. -/
theorem releasePages_aside {u t : State} {p : Nat} {l : List HPage} (hp : p < 41) (h : RegsWithin asideRegs t u) :
    RegsWithin asideRegs t (u.releasePages p false l) := by
  have flushed (x : State) (k : RegsWithin asideRegs t x) : RegsWithin asideRegs t (x.bump (F.SX_FLUSHED_COUNT p)) :=
    k.bump (by simp only [asideRegs]; omega) (.inr (by dsimp only; omega))
  have dropped (x : State) (y : HPage) (k : RegsWithin asideRegs t x) : RegsWithin asideRegs t (x.dropPage p false y) :=
    k.forEach (fun _ _ g => regsWithin_dropCopy upperRegs.aside (flushed _ g)) _
  have detached (x : State) (c : Copy) (k : RegsWithin asideRegs t x) : RegsWithin asideRegs t (x.detachCopy c) := by
    unfold detachCopy
    split
    · exact k
    · dsimp only
      split
      · exact regsWithin_kidGone upperRegs.aside (k.of_regs rfl rfl)
      · exact k.of_regs rfl rfl
  have staged (l : List HPage) : RegsWithin asideRegs t (u.forEach l (fun t x => t.dropPage p false x)) :=
    h.forEach dropped l
  unfold releasePages
  dsimp only
  split
  · exact (staged _).of_regs rfl rfl
  · exact RegsWithin.of_regs (RegsWithin.forEach detached _ (staged _)) rfl rfl

/-- The encrypted pages of a queue are released unread (R370). -/
def releaseQueue (t : State) (q : Nat) : State :=
  let x := t.queueOf q
  let gone := x.pages.filter (·.enc)
  if gone.isEmpty then t
  else
    let left := x.pages.filter (fun p => !p.enc)
    let u := t.setQueue q { x with
      pages := left, spill := x.spill && !left.isEmpty,
      deficit := if left.isEmpty && x.die.isEmpty then 0 else x.deficit }
    u.releasePages (q / 8) false gone

theorem stands_releaseEncrypted (s : State) : TreeStands s s.releaseEncrypted := by
  have m : moves [.out, .regs, .scope, .sx, .ob, .cx, .mx] s s.releaseEncrypted :=
    moves_releaseEncrypted (List.Subset.refl _) (moves_refl s)
  refine .of_moves ?_ m (by decide)
  have released : ∀ (l : List Nat) (u : State), (∀ q ∈ l, q < 328) → RegsWithin asideRegs s u →
      RegsWithin asideRegs s (u.forEach l releaseQueue) := by
    intro l
    induction l with
    | nil => exact fun _ _ h => h
    | cons q l ih =>
      refine fun u hl h => ih _ (fun x hx => hl x (List.mem_cons_of_mem _ hx)) ?_
      unfold releaseQueue
      dsimp only
      split
      · exact h
      · exact releasePages_aside (by have := hl q List.mem_cons_self; omega) (h.of_regs rfl rfl)
  exact released _ s (fun q hq => List.mem_range.mp hq) (.refl s)

/-- The nodes that a lock empties. -/
def lockedNodes : List Nat := (List.range 1024).filter (fun n => n ≠ 2 ∧ n ≠ 3)

theorem mem_lockedNodes {n : Nat} : n ∈ lockedNodes ↔ n < 1024 ∧ n ≠ 2 ∧ n ≠ 3 := by
  simp [lockedNodes]

/-- The roots are erased, and the lock is shown. -/
def lockShown (s : State) : State :=
  ((((s.eraseKey 0).eraseKey 1).setRg F.KX_STAT_ROOTS_UP 0).setRg F.KX_STAT_LOCKED 1).setRg F.SV_MODE_TREE_LOCKED 1

/-- The registers that a lock changes. -/
abbrev lockRegs (off : Nat) : Prop := off = 0x200 ∨ off = 0x6000000 ∨ keyRegs off

theorem lockShown_shows (s : State) :
    s.lockShown.rg F.KX_STAT_LOCKED = 1 ∧ s.lockShown.rg F.SV_MODE_TREE_LOCKED = 1 ∧ s.lockShown.rg F.KX_STAT_ROOTS_UP = 0 ∧
    (∀ off, off ≠ 0x200 → off ≠ 0x6000000 → s.lockShown.rd off = s.rd off) ∧
    (∃ i, s.lockShown.cellOf 0 = ⟨Config.freeValue i % 2 ^ 256, (s.cellOf 0).mask⟩) ∧
    (∃ i, s.lockShown.cellOf 1 = ⟨Config.freeValue i % 2 ^ 256, (s.cellOf 1).mask⟩) ∧
    ∀ k, 2 ≤ k → s.lockShown.cellOf k = s.cellOf k := by
  have hcell (k : Nat) : s.lockShown.cellOf k = ((s.eraseKey 0).eraseKey 1).cellOf k := rfl
  have hregs (off : Nat) : ((s.eraseKey 0).eraseKey 1).rd off = s.rd off := rfl
  refine ⟨?_, ?_, ?_, fun off h1 h2 => ?_, ⟨s.freeN, ?_⟩, ⟨s.freeN + 1, ?_⟩, fun k hk => ?_⟩
  · rw [lockShown, rg_setRg_other _ _ _ _ (by decide) (by decide) (by decide), rg_setRg_self _ _ _ (by decide)]
    rfl
  · rw [lockShown, rg_setRg_self _ _ _ (by decide)]
    rfl
  · rw [lockShown, rg_setRg_other _ _ _ _ (by decide) (by decide) (by decide),
      rg_setRg_other _ _ _ _ (by decide) (by decide) (by decide), rg_setRg_self _ _ _ (by decide)]
    rfl
  · rw [lockShown, rd_setRg_other _ F.SV_MODE_TREE_LOCKED _ _ h1, rd_setRg_other _ F.KX_STAT_LOCKED _ _ h2,
      rd_setRg_other _ F.KX_STAT_ROOTS_UP _ _ h2, hregs]
  · rw [hcell, cellOf_eraseKey_other _ (by decide), cellOf_eraseKey_self]
  · rw [hcell, cellOf_eraseKey_self, cellOf_eraseKey_other _ (by decide)]
    rfl
  · rw [hcell, cellOf_eraseKey_other _ (by omega), cellOf_eraseKey_other _ (by omega)]

theorem lockShown_within (s : State) : RegsWithin lockRegs s s.lockShown :=
  have roots : RegsWithin lockRegs s (((s.eraseKey 0).eraseKey 1).setRg F.KX_STAT_ROOTS_UP 0) :=
    RegsWithin.setRg (Or.inr (.inl rfl)) (Or.inr (by decide)) (.of_regs (.refl s) rfl rfl)
  have locked : RegsWithin lockRegs s ((((s.eraseKey 0).eraseKey 1).setRg F.KX_STAT_ROOTS_UP 0).setRg F.KX_STAT_LOCKED 1) :=
    roots.setRg (Or.inr (.inl rfl)) (Or.inr (by decide))
  locked.setRg (Or.inl rfl) (Or.inl (by decide))

/-- The lock is shown, and the encrypted pages are released. -/
def lockEnds (s : State) : State := s.lockShown.releaseEncrypted.raise 182

theorem stands_lockEnds (s : State) : TreeStands s.lockShown s.lockEnds :=
  (stands_releaseEncrypted s.lockShown).trans (.raise _ none (by decide))

theorem lockEnds_kx (s : State) : s.lockEnds.kx = s.lockShown.kx := by
  rw [lockEnds, raise_kx]
  exact (moves_releaseEncrypted (ps := [.out, .regs, .scope, .sx, .ob, .cx, .mx]) (List.Subset.refl _)
    (moves_refl _)).1 .kx (by decide)

theorem core_setCell (s : State) (k : Nat) (c : KeyCell) : (s.setCell k c).kx.core = s.kx.core := rfl

theorem core_eraseKey (s : State) (k : Nat) : (s.eraseKey k).kx.core = s.kx.core := core_setCell s.useFree k _

theorem core_lockShown (s : State) : s.lockShown.kx.core = s.kx.core := by
  have shown : s.lockShown.kx = ((s.eraseKey 0).eraseKey 1).kx := rfl
  rw [shown, core_eraseKey, core_eraseKey]

theorem lockShown_pw (s : State) : s.lockShown.pw = s.pw := rfl

theorem lockEnds_raised {s : State} (hup : s.socUp = true) : s.lockEnds.evSet 182 = true := by
  refine evSet_raise_self _ 182 none ?_
  rw [(stands_releaseEncrypted s.lockShown).socUp, socUp_congr (lockShown_pw s)]
  exact hup

theorem lockEnds_node (s : State) {m : Nat} (hm : m < 1024) : s.lockEnds.nodeState m = s.nodeState m := by
  obtain ⟨-, -, -, hrd, -⟩ := lockShown_shows s
  rw [(stands_lockEnds s).nodeState hm]
  exact nodeState_congr (hrd _ (by unfold R.KX_NODE_STAT_W0; omega) (by unfold R.KX_NODE_STAT_W0; omega))

theorem wipeLock_eq (s : State) : s.wipeLock = (s.forEach lockedNodes emptyNode).lockEnds := rfl

theorem fells_lockedNodes (s : State) : Fells 0 lockedNodes s (s.forEach lockedNodes emptyNode) :=
  .forEach (fun u _ hm => fells_emptyNode u hm) s _ (fun _ hm => (mem_lockedNodes.mp hm).1)

/-- The registers that show the lock. -/
theorem wipeLock_regs (s : State) :
    s.wipeLock.rg F.KX_STAT_LOCKED = 1 ∧ s.wipeLock.rg F.SV_MODE_TREE_LOCKED = 1 ∧ s.wipeLock.rg F.KX_STAT_ROOTS_UP = 0 ∧
    RegsWithin lockRegs s s.wipeLock ∧ s.wipeLock.kx.core = s.kx.core ∧ (s.socUp = true → s.wipeLock.evSet 182 = true) := by
  have hfell := fells_lockedNodes s
  have hcore : (s.forEach lockedNodes emptyNode).kx.core = s.kx.core := core_forEach core_emptyNode _ _
  rw [wipeLock_eq]
  generalize s.forEach lockedNodes emptyNode = t at hfell hcore ⊢
  obtain ⟨hlocked, htree, hroots, -⟩ := lockShown_shows t
  have hstands := stands_lockEnds t
  refine ⟨?_, ?_, ?_, ?_, ?_, fun hup => lockEnds_raised ((socUp_congr hfell.power).trans hup)⟩
  · rw [hstands.within.rg _ (by decide) (.inr (by decide)), hlocked]
  · rw [hstands.within.rg _ (by decide) (.inl (by decide)), htree]
  · rw [hstands.within.rg _ (by decide) (.inr (by decide)), hroots]
  · exact (hfell.within.mono fun _ h => .inr (.inr h)).trans ((lockShown_within t).trans
      (hstands.within.mono fun off h => .inr (.inr (asideRegs.key off h))))
  · rw [lockEnds_kx, core_lockShown, hcore]

/-- The nodes and the cells that a lock leaves (R369). -/
theorem wipeLock_shows (s : State) :
    (∀ m < 1024, m ≠ 2 → m ≠ 3 → s.wipeLock.nodeState m = 0) ∧
    (∀ k < 1027, k ∉ [2, 5, 6] →
      ∃ i, s.wipeLock.cellOf k = ⟨Config.freeValue i % 2 ^ 256, (s.cellOf k).mask⟩) ∧
    (∀ k ∈ ([2, 5, 6] : List Nat), s.wipeLock.cellOf k = s.cellOf k) ∧
    (∀ m ∈ ([2, 3] : List Nat), s.wipeLock.nodeState m = s.nodeState m) := by
  have hfell := fells_lockedNodes s
  rw [wipeLock_eq]
  generalize s.forEach lockedNodes emptyNode = t at hfell ⊢
  obtain ⟨-, -, -, -, hzero, hone, hcells⟩ := lockShown_shows t
  have hstands := stands_lockEnds t
  have hkept {k : Nat} (hk : k ∈ ([2, 5, 6] : List Nat)) : ∀ m ∈ lockedNodes, k ≠ nodeCell m := by
    intro m hm
    obtain ⟨-, h2, h3⟩ := mem_lockedNodes.mp hm
    unfold nodeCell
    simp only [List.mem_cons, List.not_mem_nil, or_false] at hk
    omega
  refine ⟨fun m hm h2 h3 => ?_, fun k hk hn => ?_, fun k hk => ?_, fun m hm => ?_⟩
  · rw [lockEnds_node t hm]
    exact hfell.state m (mem_lockedNodes.mpr ⟨hm, h2, h3⟩)
  · simp only [List.mem_cons, List.not_mem_nil, or_false, not_or] at hn
    obtain ⟨n2, n5, n6⟩ := hn
    rw [hstands.cellOf, ← hfell.mask]
    by_cases h0 : k = 0
    · rw [h0]
      exact hzero
    · by_cases h1 : k = 1
      · rw [h1]
        exact hone
      · obtain ⟨m, rfl⟩ : ∃ m, k = nodeCell m := ⟨k - 3, by unfold nodeCell; omega⟩
        unfold nodeCell at hk n5 n6
        rw [hcells _ (by unfold nodeCell; omega), hfell.mask]
        exact hfell.erased m (mem_lockedNodes.mpr ⟨by omega, by omega, by omega⟩)
  · rw [hstands.cellOf, hcells k (by simp at hk; omega), hfell.cells k (hkept hk)]
  · have hlow : m < 1024 := by simp at hm; omega
    rw [lockEnds_node t hlow, hfell.others m hlow]
    intro h
    obtain ⟨-, h2, h3⟩ := mem_lockedNodes.mp h
    simp at hm
    omega

end State

end Sys2Proof.Machine
end

section
/-!
PROOFS. Tamper alarms at each level, their end, and the check of the mesh (R368 to R371).
-/

namespace Sys2Proof.Machine

theorem KxState.jobs_of_core {k l : KxState} (h : k.core = l.core) : k.jobs = l.jobs :=
  show k.core.jobs = l.core.jobs by rw [h]

namespace State

/-! ### The LOG part of an alarm -/

theorem stands_abortClear (s : State) : TreeStands s s.abortClear := by
  have taken (l : List KxJob) : TreeStands s { s with kx.jobs := l } := ⟨.of_regs (.refl s) rfl rfl, rfl, rfl, rfl⟩
  unfold abortClear takeJob
  cases s.kx.jobs.find? (fun j => decide (j.op = 6)) with
  | none => exact .refl s
  | some j => exact (taken (s.kx.jobs.erase j)).trans (stands_kxResult _ _ _ _)

theorem abortClear_alarms (s : State) : s.abortClear.kx.alarms = s.kx.alarms := by
  unfold abortClear takeJob
  cases s.kx.jobs.find? (fun j => decide (j.op = 6)) with
  | none => rfl
  | some j =>
    dsimp only
    rw [kxResult_kx]

theorem stands_tamperLog (s : State) (level : Nat) : TreeStands s (s.tamperLog level) := by
  refine TreeStands.trans ?_ (stands_ledgerAdd _ _ _)
  exact (TreeStands.setRg _ _ _ (by decide) (.inr (by decide))).trans (.raise _ _ (by decide))

theorem tamperLog_raised {s : State} (level : Nat) (hup : s.socUp = true) : (s.tamperLog level).evSet 180 = true :=
  (stands_ledgerAdd _ _ _).within.events 180 (by decide) (evSet_raise_self _ 180 none ((socUp_bump _ _ _).trans hup))

theorem tamperLog_kx (s : State) (level : Nat) : (s.tamperLog level).kx = s.kx :=
  (moves_tamperLog (ps := [.out, .regs, .scope, .ob]) (List.Subset.refl _) (moves_refl s)).1 .kx (by decide)

/-- An alarm is latched, shown and recorded. -/
def alarmLogged (s : State) (src level : Nat) : State := (s.abortClear.tamperShow src).tamperLog level

theorem tamperShow_latch (s : State) {src : Nat} (h : src < 6) :
    ((s.tamperShow src).rg F.KX_TAMPER_STAT_LATCH).testBit src = true := by
  rw [tamperShow, rg_setRg_other _ _ _ _ (by decide) (by decide) (by decide),
    rg_setRg_other _ _ _ _ (by decide) (by decide) (by decide), rg_setRg_self _ _ _ (by decide),
    testBit_mod_of_lt _ h, setBit_testBit]

theorem tamperShow_node (s : State) (src : Nat) (m : Nat) : (s.tamperShow src).nodeState m = s.nodeState m := by
  refine nodeState_congr ?_
  rw [tamperShow, rd_setRg_other _ F.KX_EV_LAST_SOURCE _ _ (by unfold R.KX_NODE_STAT_W0; dsimp only; omega),
    rd_setRg_other _ F.KX_TAMPER_STAT_ACTIVE _ _ (by unfold R.KX_NODE_STAT_W0; dsimp only; omega),
    rd_setRg_other _ F.KX_TAMPER_STAT_LATCH _ _ (by unfold R.KX_NODE_STAT_W0; dsimp only; omega)]

theorem tamperShow_keeps (s : State) (src : Nat) :
    (s.tamperShow src).kx = s.kx ∧ (s.tamperShow src).active = s.active ∧ (s.tamperShow src).pw = s.pw := ⟨rfl, rfl, rfl⟩

/-- What an alarm leaves before any wipe: its latch and its event, and the tree as it was (R369). -/
theorem alarmLogged_shows (s : State) {src : Nat} (level : Nat) (h : src < 6) (hup : s.socUp = true) :
    ((s.alarmLogged src level).rg F.KX_TAMPER_STAT_LATCH).testBit src = true ∧ (s.alarmLogged src level).evSet 180 = true ∧
    (s.alarmLogged src level).kx.alarms = s.kx.alarms ∧ (s.alarmLogged src level).kx.cells = s.kx.cells ∧
    (∀ m < 1024, (s.alarmLogged src level).nodeState m = s.nodeState m) ∧
    (s.alarmLogged src level).active = s.active ∧ (s.alarmLogged src level).pw = s.pw := by
  have habort := stands_abortClear s
  have hlog := stands_tamperLog (s.abortClear.tamperShow src) level
  obtain ⟨hkx, hact, hpw⟩ := tamperShow_keeps s.abortClear src
  unfold alarmLogged
  refine ⟨?_, ?_, ?_, ?_, fun m hm => ?_, ?_, ?_⟩
  · rw [hlog.within.rg _ (by decide) (.inr (by decide))]
    exact tamperShow_latch _ h
  · exact tamperLog_raised level (((socUp_congr hpw).trans habort.socUp).trans hup)
  · rw [tamperLog_kx, hkx, abortClear_alarms]
  · rw [tamperLog_kx, hkx, habort.cells]
  · rw [hlog.nodeState hm, tamperShow_node, habort.nodeState hm]
  · rw [hlog.active, hact, habort.active]
  · rw [hlog.power, hpw, habort.power]

/-! ### An alarm in running operation -/

/-- The alarm condition of a source is noted. -/
def alarmNoted (s : State) (src : Nat) : State := { s with kx.alarms := setBit s.kx.alarms src }

theorem tamperAlarm_eq (s : State) (src : Nat) : s.tamperAlarm src =
    if s.kx.alarms.testBit src ∨ s.pw.power = .off ∨ 6 ≤ src then s
    else if (s.alarmNoted src).socUp then
      if (if (s.alarmNoted src).beforeTree then (s.alarmNoted src).copyLevel src
        else tamperLevel (s.alarmNoted src).tamperCfg src) = 0 then s.alarmNoted src
      else (s.alarmNoted src).tamperRunning src
        (if (s.alarmNoted src).beforeTree then (s.alarmNoted src).copyLevel src
          else tamperLevel (s.alarmNoted src).tamperCfg src)
    else if (s.alarmNoted src).copyLevel src = 0 ∨ (s.alarmNoted src).pw.power = .trims ∨
        (s.alarmNoted src).pw.power = .up then s.alarmNoted src
      else (s.alarmNoted src).tamperListen src ((s.alarmNoted src).copyLevel src) := rfl

theorem exec_tamperAlarm {s t : State} {src : Nat} (h : s.tamperAlarm src = t) : exec (.tamperAlarm src) s = .next t :=
  congrArg Host.Outcome.next h

/-- An alarm while the SoC die runs and its tree stands, by its level. -/
theorem tamperAlarm_running {s : State} {src : Nat} (h : src < 6) (ha : s.kx.alarms.testBit src = false)
    (hp : s.pw.power ≠ .off) (hup : s.socUp = true) (hb : s.beforeTree = false) :
    s.tamperAlarm src = if tamperLevel s.tamperCfg src = 0 then s.alarmNoted src
      else (s.alarmNoted src).tamperRunning src (tamperLevel s.tamperCfg src) := by
  have hup' : (s.alarmNoted src).socUp = true := hup
  have hb' : ¬ (s.alarmNoted src).beforeTree = true := fun h => Bool.false_ne_true (hb.symm.trans h)
  have hcfg : (s.alarmNoted src).tamperCfg = s.tamperCfg := rfl
  rw [tamperAlarm_eq, if_neg (by rw [ha]; simp only [Bool.false_eq_true, false_or, not_or]; exact ⟨hp, by omega⟩),
    if_pos hup', if_neg hb', hcfg]

theorem tamperRunning_eq {s : State} (src level : Nat) (hb : s.beforeTree = false) :
    s.tamperRunning src level =
      if level = 3 then (s.alarmLogged src level).wipe.wipeLock
      else if 2 ≤ level then (s.alarmLogged src level).wipe else s.alarmLogged src level := by
  unfold tamperRunning
  rw [if_neg (fun h => by rw [hb] at h; exact Bool.false_ne_true h.1)]
  dsimp only
  rw [← alarmLogged]
  by_cases h3 : level = 3
  · rw [if_pos h3, if_pos h3, if_pos (by omega)]
  · rw [if_neg h3, if_neg h3]

/-! ### An alarm in LISTEN -/

theorem tamperListen_kx (s : State) (src level : Nat) (h : level ≠ 1) :
    (s.tamperListen src level).kx = { s.kx with listenLatch := setBit s.kx.listenLatch src, lockNext := true } := by
  unfold tamperListen
  dsimp only
  rw [if_neg h]
  split
  · exact (moves_wake (ps := [.out, .regs, .scope, .pw, .ob, .aon]) (List.Subset.refl _) (moves_refl _)).1 .kx (by decide)
  · rfl

/-- An alarm at WIPE_LOCK while the gateway is in LISTEN: latched, and the next start is locked (R371). -/
theorem tamperAlarm_listen {s : State} {src : Nat} (h : src < 6) (ha : s.kx.alarms.testBit src = false)
    (hp : s.pw.power = .listen) (hl : 3 ≤ s.copyLevel src) :
    s.tamperAlarm src = (s.alarmNoted src).tamperListen src (s.copyLevel src) := by
  have hdown : (s.alarmNoted src).socUp = false := by
    unfold socUp alarmNoted
    rw [hp]
    rfl
  have hlevel : (s.alarmNoted src).copyLevel src = s.copyLevel src := rfl
  have hpower : (s.alarmNoted src).pw.power = .listen := hp
  rw [tamperAlarm_eq, if_neg (by rw [ha, hp]; simp only [Bool.false_eq_true, false_or, not_or]; exact ⟨by decide, by omega⟩),
    if_neg (by rw [hdown]; exact Bool.false_ne_true), hlevel, hpower,
    if_neg (by simp only [not_or]; exact ⟨by omega, by decide, by decide⟩)]

end State

open State in
/-- Settles O27: by the level of the alarm's source, an alarm is noted, logged, or wipes and locks. -/
theorem tamperCommands : Obligations.TamperCommands := by
  unfold Obligations.TamperCommands
  refine ⟨?off, ?log, ?listen, ?cleared, ?mesh, ?wiped, ?locked⟩
  case off =>
    intro src s h ha hp hup hb hl
    exact exec_tamperAlarm ((tamperAlarm_running h ha hp hup hb).trans (if_pos hl))
  case log =>
    intro src s h ha hp hup hb hl
    have hrun : s.tamperAlarm src = (s.alarmNoted src).alarmLogged src 1 := by
      rw [tamperAlarm_running h ha (by rw [hp]; decide) hup hb, hl, if_neg (by decide),
        tamperRunning_eq (s := s.alarmNoted src) src 1 hb, if_neg (by decide), if_neg (by decide)]
    obtain ⟨-, hev, halarms, hcells, -⟩ := alarmLogged_shows (s.alarmNoted src) 1 h hup
    refine ⟨_, exec_tamperAlarm hrun, hcells, ?_, hev⟩
    rw [halarms]
    exact setBit_testBit _ _
  case listen =>
    intro src s h ha hp hl
    have hkx := tamperListen_kx (s.alarmNoted src) src (s.copyLevel src) (by omega)
    refine ⟨_, exec_tamperAlarm (tamperAlarm_listen h ha hp hl), ?_, ?_, ?_⟩
    · rw [hkx]
    · rw [hkx]
      exact setBit_testBit _ _
    · rw [hkx]
      rfl
  case cleared =>
    intro src s h
    show ∃ t, execTamperAlarmCleared src s = _ ∧ _
    rw [execTamperAlarmCleared, if_pos h]
    refine ⟨_, rfl, clrBit_testBit _ _, ?_, fun off ho => ?_⟩
    · rw [tamperClear, rg_setRg_self _ _ _ (by decide), testBit_mod_of_lt _ h, clrBit_testBit]
    · exact rd_setRg_other _ F.KX_TAMPER_STAT_ACTIVE _ _ ho
  case mesh =>
    intro s hp
    refine ⟨⟨s.tamperAlarm 2, ?_, rfl⟩, s.tamperClear 2, ?_, ?_, ?_⟩
    · show execMeshCheck false s = _
      rw [execMeshCheck, if_neg hp, if_neg (by decide)]
    · show execMeshCheck true s = _
      rw [execMeshCheck, if_neg hp, if_pos rfl]
    · show execTamperAlarmCleared 2 s = _
      rw [execTamperAlarmCleared, if_pos (by decide)]
    · rw [tamperClear, rg_setRg_self _ _ _ (by decide), testBit_mod_of_lt _ (by decide), clrBit_testBit]
  case wiped =>
    intro src s h ha hp hup hb hl
    have hrun : s.tamperAlarm src = ((s.alarmNoted src).alarmLogged src 2).wipe := by
      rw [tamperAlarm_running h ha (by rw [hp]; decide) hup hb, hl, if_neg (by decide),
        tamperRunning_eq (s := s.alarmNoted src) src 2 hb, if_neg (by decide), if_pos (by decide)]
    obtain ⟨hlatch, hev, -, hcells, hnodes, hactive, hpw⟩ := alarmLogged_shows (s.alarmNoted src) 2 h hup
    generalize (s.alarmNoted src).alarmLogged src 2 = t at hrun hlatch hev hcells hnodes hactive hpw
    obtain ⟨hfell, hjobs, hcache, howner, hsessions, hraised⟩ := wipe_shows t
    have hrf : t.kxRf = s.kxRf := kxRf_congr hactive
    refine ⟨_, exec_tamperAlarm hrun, ?_, ?_, hraised ((socUp_congr hpw).trans hup), hjobs, hcache, howner, fun m hm hk hv => ?_,
      fun m hm hn => ?_, fun k m hm => hsessions k.val k.isLt m hm⟩
    · rw [hfell.within.rg _ (by decide) (.inr (by decide))]
      exact hlatch
    · exact hfell.within.events 180 (by decide) hev
    · have hmem : m ∈ t.importedNodes := mem_importedNodes.mpr ⟨hm, hrf ▸ hk, hrf ▸ hv⟩
      refine ⟨hfell.state m hmem, ?_⟩
      rw [← cellOf_congr (s := s) hcells]
      exact hfell.erased m hmem
    · have hnot : m ∉ t.importedNodes := fun h => hn (hrf ▸ (mem_importedNodes.mp h).2)
      refine ⟨(hfell.others m hm hnot).trans (hnodes m hm),
        (hfell.cells _ fun k hk he => hnot ?_).trans (cellOf_congr hcells _)⟩
      have : m = k := by unfold nodeCell at he; omega
      exact this ▸ hk
  case locked =>
    intro src s h ha hp hup hb hl
    have hrun : s.tamperAlarm src = ((s.alarmNoted src).alarmLogged src 3).wipe.wipeLock := by
      rw [tamperAlarm_running h ha (by rw [hp]; decide) hup hb, hl, if_neg (by decide),
        tamperRunning_eq (s := s.alarmNoted src) src 3 hb, if_pos rfl]
    obtain ⟨hlatch, -, -, hcells, hnodes, -, hpw⟩ := alarmLogged_shows (s.alarmNoted src) 3 h hup
    generalize (s.alarmNoted src).alarmLogged src 3 = t at hrun hlatch hcells hnodes hpw
    obtain ⟨hfell, hjobs, hcache, howner, -, hraised⟩ := wipe_shows t
    have hmoves : moves [.freeN, .out, .regs, .scope, .sx, .ob, .kx, .cx, .mx] t.wipe t.wipe.wipeLock :=
      moves_wipeLock (List.Subset.refl _) (moves_refl _)
    have hset := hraised ((socUp_congr hpw).trans hup)
    have hpower : t.wipe.socUp = true := (socUp_congr (hfell.power.trans hpw)).trans hup
    have hlow {m : Nat} (hm : m ∈ ([2, 3] : List Nat)) : m ∉ t.importedNodes := by
      intro hi
      obtain ⟨-, hk, -⟩ := mem_importedNodes.mp hi
      simp only [List.mem_cons, List.not_mem_nil, or_false] at hm
      rcases hm with rfl | rfl <;> simp [nodeKind] at hk
    generalize t.wipe = u at hrun hfell hjobs hcache howner hmoves hset hpower
    obtain ⟨hlocked, htree, hroots, hwithin, hcore, hlockEv⟩ := wipeLock_regs u
    obtain ⟨hempty, hgone, hkept, hstay⟩ := wipeLock_shows u
    have hmask (k : Nat) : (u.cellOf k).mask = (s.cellOf k).mask := by
      rw [hfell.mask, cellOf_congr (s := s) hcells]
    have hroot {m : Nat} (hm : m ∈ ([2, 3] : List Nat)) : u.wipeLock.nodeState m = s.nodeState m := by
      have hsmall : m < 1024 := by simp at hm; omega
      rw [hstay m hm, hfell.others m hsmall (hlow hm)]
      exact hnodes m hsmall
    have hce : u.wipeLock.ce = u.ce := hmoves.1 .ce (by decide)
    have hupd : u.wipeLock.upd = u.upd := hmoves.1 .upd (by decide)
    refine ⟨_, exec_tamperAlarm hrun, ?_, hwithin.events 181 (by decide) hset, hlockEv hpower,
      (KxState.jobs_of_core hcore).trans hjobs, by rw [hce, hcache], by rw [hupd, howner], hlocked, htree, hroots, hempty,
      fun k hk hn => ?_, fun k hk => ?_, hroot (by decide), hroot (by decide)⟩
    · rw [hwithin.rg _ (by decide) (.inr (by decide)), hfell.within.rg _ (by decide) (.inr (by decide))]
      exact hlatch
    · rw [← hmask]
      exact hgone k hk hn
    · rw [hkept k hk, hfell.cells k, cellOf_congr (s := s) hcells]
      intro m hm he
      have hcase : m = 2 ∨ m = 3 := by
        unfold nodeCell at he
        simp only [List.mem_cons, List.not_mem_nil, or_false] at hk
        omega
      exact hlow (by simpa using hcase) hm

end Sys2Proof.Machine
end

section
/-!
PROOFS. KX commands as they are accepted, refused or ignored (R373 to R375).
-/

namespace Sys2Proof.Machine

namespace State

/-! ### The three answers -/

/-- A command that passes its checks takes its effect, and is acknowledged. -/
theorem next_accepted {s : State} {a : Agent} {op n arg : Nat} {f : State → State} {data : List Byte} {x : Result}
    (hx : x = .next (s.kxCommand a op n arg f data)) (hr : s.reaches a = true) (hb : s.kxBusy a = false)
    (ht : (if op = 3 then s.takeKxData a data else s) = s) (hc : s.kxCheck a op n arg = none) :
    x = .next ((f s).answer .done) := by
  rw [hx, kxCommand, byAgent_reaches _ _ _ hr, hb, if_neg Bool.false_ne_true, ht]
  dsimp only
  rw [hc]

/-- What a check answers is a code of R375's table, or nothing. -/
def CodeWithin (o : Option Nat) : Prop := ∀ c, o = some c → 1 ≤ c ∧ c ≤ 0x0B

theorem CodeWithin.next {p : Prop} {_ : Decidable p} {c : Nat} {o : Option Nat} (hc : 1 ≤ c ∧ c ≤ 0x0B)
    (ho : CodeWithin o) : CodeWithin (if p then some c else o) := by
  intro d hd
  split at hd
  · exact Option.some.inj hd ▸ hc
  · exact ho d hd

/-- The codes of R375's checks. -/
theorem kxCheck_code {s : State} {a : Agent} {op n arg code : Nat} (h : s.kxCheck a op n arg = some code) :
    1 ≤ code ∧ code ≤ 0x0B := by
  refine (show CodeWithin (s.kxCheck a op n arg) from ?_) code h
  unfold kxCheck
  dsimp only
  iterate 11 refine CodeWithin.next (by decide) ?_
  exact fun _ hd => absurd hd (by simp)

/-- A command that fails a check is refused with its code. -/
theorem kxCommand_refused {s : State} {a : Agent} {op n arg code : Nat} (f : State → State) {data : List Byte}
    (hr : s.reaches a = true) (hb : s.kxBusy a = false) (ht : (if op = 3 then s.takeKxData a data else s) = s)
    (hc : s.kxCheck a op n arg = some code) :
    s.kxCommand a op n arg f data = ((if op = 3 then s.zeroKxData a else s).kxResult a n code).answer .done := by
  rw [kxCommand, byAgent_reaches _ _ _ hr, hb, if_neg Bool.false_ne_true, ht]
  dsimp only
  rw [hc]

/-- A command while its agent's last is in progress is ignored. -/
theorem next_busy {s : State} {a : Agent} {op n arg : Nat} {f : State → State} {data : List Byte} {x : Result}
    (hx : x = .next (s.kxCommand a op n arg f data)) (hr : s.reaches a = true) (hb : s.kxBusy a = true) :
    x = .next { s with resp := .done } := by
  rw [hx, kxCommand, byAgent_reaches _ _ _ hr, hb, if_pos rfl]
  rfl

/-! ### Accepted commands -/

theorem kxAccept_kx (s : State) (j : KxJob) : (s.kxAccept j).kx = { s.kx with jobs := s.kx.jobs ++ [j] } := by
  unfold kxAccept
  dsimp only
  split <;> rfl

theorem kxAccept_jobs (s : State) (j : KxJob) : (s.kxAccept j).kx.jobs = s.kx.jobs ++ [j] := by
  rw [kxAccept_kx]

theorem kxAccept_moves (s : State) (j : KxJob) : moves [.regs, .kx] s (s.kxAccept j) :=
  moves_kxAccept (List.Subset.refl _) (moves_refl s)

theorem stands_kxAccept (s : State) (j : KxJob) : TreeStands s (s.kxAccept j) := by
  refine ⟨?_, by rw [kxAccept_kx], (kxAccept_moves s j).1 .active (by decide), (kxAccept_moves s j).1 .pw (by decide)⟩
  unfold kxAccept
  dsimp only
  split
  · next h =>
    exact ((RegsWithin.refl s).wr _ (resultRegs.aside _ ⟨j.agent.ownerCode, h.1, rfl⟩)
      (.inr (by unfold R.KX_RESULT; omega))).of_regs rfl rfl
  · exact .of_regs (.refl s) rfl rfl

/-- A core's mailbox shows its accepted command PENDING, with the node (R373). -/
theorem kxAccept_core (s : State) (k : Fin 8) (op n arg : Nat) :
    (s.kxAccept ⟨.core k, op, n % 1024, arg⟩).rd (R.KX_RESULT k.val) = Word.ofNat (1 + n % 1024 * 65536) := by
  have hcore : (Agent.core k).ownerCode ≤ 12 ∧ Agent.core k ≠ .debug := ⟨by simp only [Agent.ownerCode]; omega, by simp⟩
  unfold kxAccept
  dsimp only
  rw [if_pos hcore, Nat.mod_mod]
  exact rd_wr_self _ _ _

/-- ENROLL's task, and its mailbox (R350). -/
def enrollTaken (t : State) (a : Agent) : State :=
  let n := t.freeVal
  let bs := leBytes 4 helperMagic ++ (List.range 16380).map (State.freeByte n)
  let u := t.useFree.addTask (.enroll a)
    [newArea nvHelper 4 [], newArea (nvHelper + 256) 0 (bs.drop 256), newArea nvHelper 0 (bs.take 256)]
  if a = .debug then u else u.wr (R.KX_RESULT a.ownerCode) (Word.ofNat 1)

theorem execEnroll_eq (a : Agent) (s : State) : execEnroll a s = .next (s.kxCommand a 8 0 0 (fun t => t.enrollTaken a)) := rfl

theorem addTask_enroll (s : State) (a : Agent) (areas : List FlashArea) :
    (∃ k ∈ (s.useFree.addTask (.enroll a) areas).sv.tasks, k.kind = .enroll a) ∧
      (s.useFree.addTask (.enroll a) areas).kx = s.kx :=
  ⟨⟨_, List.mem_append_right _ List.mem_cons_self, rfl⟩, rfl⟩

theorem enrollTaken_shows (s : State) (a : Agent) :
    (∃ k ∈ (s.enrollTaken a).sv.tasks, k.kind = .enroll a) ∧ (s.enrollTaken a).kx = s.kx := by
  unfold enrollTaken
  dsimp only
  generalize leBytes 4 helperMagic ++ (List.range 16380).map (State.freeByte s.freeVal) = bs
  split
  · exact addTask_enroll s a _
  · exact addTask_enroll s a _

/-! ### Refused commands -/

/-- A core's refused command: its event, and the code in its mailbox (R373, R375). -/
theorem kxRefused_shows {s : State} {k : Fin 8} {op n arg code : Nat} (f : State → State) {data : List Byte}
    (hn : n < 1024) (hr : s.reaches (.core k) = true) (hb : s.kxBusy (.core k) = false)
    (hc : s.kxCheck (.core k) op n arg = some code) :
    (s.kxCommand (.core k) op n arg f data).evSet 185 = true ∧
    (s.kxCommand (.core k) op n arg f data).rd (R.KX_RESULT k.val) = Word.ofNat (code * 2 + n * 65536) ∧
    (op ≠ 3 → (s.kxCommand (.core k) op n arg f data).kx = s.kx) := by
  have hstands : TreeStands s (if op = 3 then s.zeroKxData (.core k) else s) := by
    split
    · exact stands_zeroKxData s _
    · exact .refl s
  rw [kxCommand_refused f hr hb (by split <;> rfl) hc]
  refine ⟨?_, ?_, fun hop => ?_⟩
  · rw [evSet_answer]
    exact kxResult_failed _ _ (by have := kxCheck_code hc; omega) (hstands.socUp.trans (socUp_of_reaches _ _ hr))
  · have h := rd_kxResult_self (if op = 3 then s.zeroKxData (.core k) else s) (a := .core k) n code
      (by simp only [Agent.ownerCode]; omega)
    rw [kxWord, Nat.mod_eq_of_lt hn] at h
    exact h
  · rw [answer_kx, kxResult_kx, if_neg hop]

/-! ### ZEROISE -/

/-- ZEROISE before its outcome (R374). -/
def zeroised (s : State) (a : Agent) : State := (s.tamperLog 2).wipe.kxAccept ⟨a, 5, 0, 0⟩

theorem zeroised_shows (s : State) (a : Agent) :
    (s.zeroised a).kx.jobs = [⟨a, 5, 0, 0⟩] ∧ (s.zeroised a).ce.cache = [] ∧ (s.zeroised a).upd.owner = none ∧
    Fells 0 s.importedNodes s (s.zeroised a) ∧ (∀ k < 4, ∀ m, (s.zeroised a).sessionNode k = some m → m = 3) ∧
    (s.socUp = true → (s.zeroised a).evSet 181 = true) := by
  have hlog := stands_tamperLog s 2
  have himp : (s.tamperLog 2).importedNodes = s.importedNodes := by rw [importedNodes, hlog.kxRf, ← importedNodes]
  obtain ⟨hfell, hjobs, hcache, howner, hsess, hraised⟩ := wipe_shows (s.tamperLog 2)
  rw [himp] at hfell
  have hstands := stands_kxAccept (s.tamperLog 2).wipe ⟨a, 5, 0, 0⟩
  have hm := kxAccept_moves (s.tamperLog 2).wipe ⟨a, 5, 0, 0⟩
  have hlt : ∀ m ∈ s.importedNodes, m < 1024 := fun m hm => (mem_importedNodes.mp hm).1
  unfold zeroised
  refine ⟨?_, ?_, ?_, .after hlog (hfell.stands hstands hlt), fun k hk m hn => ?_, fun hup => ?_⟩
  · rw [kxAccept_jobs, hjobs, List.nil_append]
  · rw [hm.1 .ce (by decide), hcache]
  · rw [hm.1 .upd (by decide), howner]
  · rw [sessionNode_congr (congrArg SvState.bersan (hm.1 .sv (by decide)))] at hn
    exact hsess k hk m hn
  · exact hstands.within.events 181 (by decide) (hraised (hlog.socUp.trans hup))

end State

open State in
/-- Settles O25: each command is accepted, refused with the code of its first failing check, or ignored; INVALIDATE and
ZEROISE take their effect at once. -/
theorem keyCommandAccept : Obligations.KeyCommandAccept := by
  unfold Obligations.KeyCommandAccept
  have bare {s : State} {k : Fin 8} {op arg code : Nat} {f : State → State} (hop : op ≠ 3)
      (hr : s.reaches (.core k) = true) (hb : s.kxBusy (.core k) = false) (hc : s.kxCheck (.core k) op 0 arg = some code) :
      (s.kxCommand (.core k) op 0 arg f).kx = s.kx ∧ (s.kxCommand (.core k) op 0 arg f).evSet 185 = true ∧
        (s.kxCommand (.core k) op 0 arg f).rd (R.KX_RESULT k.val) = Word.ofNat (code * 2) := by
    obtain ⟨hev, hrd, hkx⟩ := kxRefused_shows f (data := []) (by decide) hr hb hc
    exact ⟨hkx hop, hev, by rw [hrd, Nat.zero_mul, Nat.add_zero]⟩
  refine ⟨?rebind, ?importing, ?exporting, ?clear, ?advance, ?invalid, ?zero, ?enroll, ?refused, ?busy, ?falls, ?wipes⟩
  case rebind =>
    intro k n s hr hb hc
    exact ⟨_, next_accepted rfl hr hb (if_neg (by decide)) hc, kxAccept_jobs s _, kxAccept_core s k 2 n 0⟩
  case importing =>
    intro k n form data s hr hb hc
    exact ⟨_, next_accepted rfl hr hb rfl hc, kxAccept_jobs s _, kxAccept_core s k 3 n form⟩
  case exporting =>
    intro k n s hr hb hc
    exact ⟨_, next_accepted rfl hr hb (if_neg (by decide)) hc, kxAccept_jobs s _, kxAccept_core s k 4 n 0⟩
  case clear =>
    intro a s hr hb hc
    exact ⟨_, next_accepted rfl hr hb (if_neg (by decide)) hc, kxAccept_jobs s _⟩
  case advance =>
    intro a dest s hr hb hc
    have hm := kxAccept_moves { s with kx.advanced := true } ⟨a, 7, 0, dest⟩
    refine ⟨_, next_accepted rfl hr hb (if_neg (by decide)) hc, kxAccept_jobs { s with kx.advanced := true } _, ?_,
      hm.1 .nv (by decide)⟩
    exact congrArg KxState.advanced (kxAccept_kx { s with kx.advanced := true } ⟨a, 7, 0, dest⟩)
  case invalid =>
    intro a n s hr hb hc
    have hup := socUp_of_reaches _ _ hr
    have hstands := stands_kxAccept s ⟨a, 1, n % 1024, 0⟩
    refine ⟨((s.kxAccept ⟨a, 1, n % 1024, 0⟩).invalidate (n % 1024)).answer .done,
      next_accepted (f := fun t => (t.kxAccept ⟨a, 1, n % 1024, 0⟩).invalidate (n % 1024)) rfl hr hb (if_neg (by decide)) hc,
      ?_, ?_⟩
    · rw [answer_kx, KxState.jobs_of_core (core_invalidate _ _), kxAccept_jobs]
    · rw [evSet_answer]
      exact invalidate_raised _ (hstands.socUp.trans hup)
  case zero =>
    intro a s hr hb hc
    obtain ⟨hjobs, -, -, -, -, hraised⟩ := zeroised_shows s a
    refine ⟨(s.zeroised a).answer .done, next_accepted (f := fun t => t.zeroised a) rfl hr hb (if_neg (by decide)) hc, ?_,
      hraised (socUp_of_reaches _ _ hr)⟩
    rw [answer_kx, hjobs]
    exact List.mem_cons_self
  case enroll =>
    intro a s hr hb hc
    obtain ⟨htask, hkx⟩ := enrollTaken_shows s a
    exact ⟨_, next_accepted (execEnroll_eq a s) hr hb (if_neg (by decide)) hc, htask, hkx⟩
  case refused =>
    intro k n form dest code data s hr hb
    have hn : n % 1024 < 1024 := Nat.mod_lt _ (by decide)
    refine ⟨_, _, _, _, _, _, _, _, rfl, rfl, rfl, rfl, rfl, rfl, rfl, execEnroll_eq _ s, fun hc => ?_,
      fun hc => ?_, fun hc => ?_, fun hc => ?_, fun hc => ?_, fun hc => ?_, fun hc => ?_, fun hc => ?_⟩
    · obtain ⟨hev, hrd, hkx⟩ := kxRefused_shows _ hn hr hb hc
      exact ⟨hkx (by decide), hev, hrd⟩
    · obtain ⟨hev, hrd, hkx⟩ := kxRefused_shows _ hn hr hb hc
      exact ⟨hkx (by decide), hev, hrd⟩
    · obtain ⟨hev, hrd, -⟩ := kxRefused_shows _ hn hr hb hc
      exact ⟨hev, hrd⟩
    · obtain ⟨hev, hrd, hkx⟩ := kxRefused_shows _ hn hr hb hc
      exact ⟨hkx (by decide), hev, hrd⟩
    · exact bare (by decide) hr hb hc
    · exact bare (by decide) hr hb hc
    · exact bare (by decide) hr hb hc
    · exact bare (by decide) hr hb hc
  case busy =>
    intro a n form dest data s hr hb
    exact ⟨next_busy rfl hr hb, next_busy rfl hr hb, next_busy rfl hr hb, next_busy rfl hr hb, next_busy rfl hr hb,
      next_busy rfl hr hb, next_busy rfl hr hb, next_busy (execEnroll_eq a s) hr hb⟩
  case falls =>
    intro a n s hr hb hc hl
    have hn : n % 1024 < 1024 := Nat.mod_lt _ (by decide)
    have hstands := stands_kxAccept s ⟨a, 1, n % 1024, 0⟩
    have hrun : exec (.invalidate a n) s = .next (((s.kxAccept ⟨a, 1, n % 1024, 0⟩).invalidate (n % 1024)).answer .done) :=
      next_accepted (f := fun t => (t.kxAccept ⟨a, 1, n % 1024, 0⟩).invalidate (n % 1024)) rfl hr hb (if_neg (by decide)) hc
    generalize s.kxAccept ⟨a, 1, n % 1024, 0⟩ = u at hstands hrun
    generalize n % 1024 = p at hn hl hrun
    have hsame := (orphans_same hstands.kxRf hl (fun m hm _ => hstands.nodeState hm) 7 0 [p] (by decide)
      (fun q hq => .inl (List.mem_singleton.mp hq))).1
    obtain ⟨hstate, hgen, hcell, horphans, hrest⟩ := invalidate_shows u hn (by rw [hstands.kxRf]; exact hl)
    rw [hsame] at horphans hrest
    have horphan : ∀ m ∈ s.orphans 7 [p], (u.invalidate p).nodeState m = 3 ∧
        ∃ i, (u.invalidate p).cellOf (nodeCell m) = ⟨Config.freeValue i % 2 ^ 256, (s.cellOf (nodeCell m)).mask⟩ := by
      intro m hm
      rw [← hstands.cellOf]
      exact horphans m hm
    generalize u.invalidate p = t at hrun hstate hgen hcell hrest horphan
    refine ⟨_, hrun, ?_, ?_, ?_, fun m hm hp hs => horphan m (child_mem_orphans hm hp hs), horphan, fun m hm hne ho => ?_⟩
    · rw [← hstands.nodeState hn]
      exact hstate
    · rw [← hstands.nodeGen hn]
      exact hgen
    · rw [← hstands.cellOf]
      exact hcell
    · rw [← hstands.nodeState hm, ← hstands.nodeGen hm, ← hstands.cellOf]
      exact hrest m hm hne ho
  case wipes =>
    intro a s hr hb hc
    obtain ⟨hjobs, hcache, howner, hfell, hsess, -⟩ := zeroised_shows s a
    refine ⟨(s.zeroised a).answer .done, next_accepted (f := fun t => t.zeroised a) rfl hr hb (if_neg (by decide)) hc, hjobs,
      hcache, howner,
      fun m hm hk hv => ?_, fun m hm hn => ?_, fun k m hm => hsess k.val k.isLt m hm⟩
    · have hmem : m ∈ s.importedNodes := mem_importedNodes.mpr ⟨hm, hk, hv⟩
      exact ⟨hfell.state m hmem, hfell.erased m hmem⟩
    · have hnot : m ∉ s.importedNodes := fun h => hn (mem_importedNodes.mp h).2
      refine ⟨hfell.others m hm hnot, hfell.cells _ fun k hk he => hnot ?_⟩
      have : m = k := by unfold nodeCell at he; omega
      exact this ▸ hk

end Sys2Proof.Machine
end

section
/-!
PROOFS. The creation of nodes: a use of the parent, a node made READY, and what the creations that follow leave of it
(R359 to R361).
-/

namespace Sys2Proof.Machine

namespace State

/-! ### A use of a node -/

theorem countUse_kx (s : State) (p : Nat) : (s.countUse p).kx = s.kx := (countUse_moves s p).1 .kx (by decide)

theorem countUse_active (s : State) (p : Nat) : (s.countUse p).active = s.active := (countUse_moves s p).1 .active (by decide)

/-- The registers of a node. -/
abbrev nodeRegs (p off : Nat) : Prop :=
  off = R.KX_NODE_STAT_W0 p ∨ off = R.KX_NODE_STAT_W2 p ∨ off = R.KX_EV_LAST

theorem regsWithin_countUse (s : State) (p : Nat) : RegsWithin (nodeRegs p) s (s.countUse p) := by
  have counted : RegsWithin (nodeRegs p) s (s.bump (F.KX_NODE_STAT_W2_USES p)) :=
    (RegsWithin.refl s).bump (.inr (.inl rfl)) (.inr (by dsimp only; omega))
  have event {u : State} {ev : Nat} (hev : ev < 256) (h : RegsWithin (nodeRegs p) s u) :
      RegsWithin (nodeRegs p) s (u.kxEvent ev p) :=
    (h.setRg (f := F.KX_EV_LAST_NODE) (.inr (.inr rfl)) (.inr (by decide))).raise hev
  unfold countUse
  dsimp only
  split
  · exact counted
  · have marked (c : Prop) [Decidable c] : RegsWithin (nodeRegs p) s
        (if c then (s.bump (F.KX_NODE_STAT_W2_USES p)).kxEvent 178 p else s.bump (F.KX_NODE_STAT_W2_USES p)) :=
      (event (by decide) counted).ite counted
    split
    · exact event (by decide) ((marked _).setRg (f := F.KX_NODE_STAT_W0_STATE p) (.inl rfl) (.inr (by dsimp only; omega)))
    · exact marked _

theorem nodeRegs.key {p : Nat} (off : Nat) (h : nodeRegs p off) : keyRegs off := by
  simp only [nodeRegs, keyRegs, R.KX_NODE_STAT_W0, R.KX_NODE_STAT_W2, R.KX_EV_LAST] at *
  omega

theorem nodeGen_kxEvent (s : State) (ev n m : Nat) (hev : ev < 256) : (s.kxEvent ev n).nodeGen m = s.nodeGen m := by
  rw [nodeGen, kxEvent, rg_raise_other _ _ _ _ (by dsimp only; omega), rg_eq,
    rd_setRg_other _ F.KX_EV_LAST_NODE _ _ (by dsimp only; omega), ← rg_eq, nodeGen]

theorem nodeState_kxEvent (s : State) (ev n m : Nat) (hev : ev < 256) : (s.kxEvent ev n).nodeState m = s.nodeState m := by
  rw [nodeState, kxEvent, rg_raise_other _ _ _ _ (by dsimp only; omega), rg_eq,
    rd_setRg_other _ F.KX_EV_LAST_NODE _ _ (by dsimp only; omega), ← rg_eq, nodeState]

/-- A use counts: no GEN changes, and only the used node's state may, to EXHAUSTED at its limit (R361). -/
theorem countUse_shows (s : State) (p : Nat) :
    (∀ m, (s.countUse p).nodeGen m = s.nodeGen m) ∧ (∀ m, m ≠ p → (s.countUse p).nodeState m = s.nodeState m) ∧
    ((s.countUse p).nodeState p = s.nodeState p ∨ ((s.countUse p).nodeState p = 4 ∧ nodeLimit s.kxRf p ≠ 0)) := by
  have hgen (u : State) (m : Nat) : (u.bump (F.KX_NODE_STAT_W2_USES p)).nodeGen m = u.nodeGen m :=
    rg_bump_other _ _ _ _ (by simp) (by simp) (.inl (by dsimp only; omega))
  have hst (u : State) (m : Nat) : (u.bump (F.KX_NODE_STAT_W2_USES p)).nodeState m = u.nodeState m :=
    rg_bump_other _ _ _ _ (by simp) (by simp) (.inl (by dsimp only; omega))
  have marked (c : Prop) [Decidable c] (m : Nat) :
      (if c then (s.bump (F.KX_NODE_STAT_W2_USES p)).kxEvent 178 p else s.bump (F.KX_NODE_STAT_W2_USES p)).nodeGen m =
        s.nodeGen m ∧
      (if c then (s.bump (F.KX_NODE_STAT_W2_USES p)).kxEvent 178 p else s.bump (F.KX_NODE_STAT_W2_USES p)).nodeState m =
        s.nodeState m := by
    split
    · exact ⟨(nodeGen_kxEvent _ _ _ _ (by decide)).trans (hgen s m), (nodeState_kxEvent _ _ _ _ (by decide)).trans (hst s m)⟩
    · exact ⟨hgen s m, hst s m⟩
  unfold countUse
  dsimp only
  split
  · exact ⟨hgen s, fun m _ => hst s m, .inl (hst s p)⟩
  · next hl =>
    split
    · refine ⟨fun m => ?_, fun m hm => ?_, .inr ⟨?_, hl⟩⟩
      · rw [nodeGen_kxEvent _ _ _ _ (by decide), nodeGen_setNode, (marked _ m).1]
      · rw [nodeState_kxEvent _ _ _ _ (by decide), nodeState_setNode_other _ _ hm, (marked _ m).2]
      · rw [nodeState_kxEvent _ _ _ _ (by decide), nodeState_setNode_self _ _ (by decide)]
    · exact ⟨fun m => (marked _ m).1, fun m _ => (marked _ m).2, .inl (marked _ p).2⟩

/-! ### A node made READY -/

theorem keyAt_putKey (s : State) (k key : Nat) : (s.putKey k key).keyAt k = key % 2 ^ 256 := by
  rw [keyAt, putKey, cellOf_setCell_self]
  show (key % 2 ^ 256 ^^^ (s.cellOf k).mask) ^^^ (s.cellOf k).mask = key % 2 ^ 256
  rw [Nat.xor_assoc, Nat.xor_self, Nat.xor_zero]

theorem cellOf_putKey_other (s : State) {k j : Nat} (key : Nat) (h : j ≠ k) : (s.putKey k key).cellOf j = s.cellOf j :=
  cellOf_setCell_other _ _ h

/-- PGEN of a node. -/
def nodePgen (s : State) (n : Nat) : Nat := s.rg (F.KX_NODE_STAT_W1_PGEN n)

/-- GEN of a node is 1 from its first creation on. -/
def genFrom (s : State) (n : Nat) : State := if s.nodeGen n = 0 then s.setRg (F.KX_NODE_STAT_W0_GEN n) 1 else s

theorem genFrom_shows (s : State) (n : Nat) :
    (s.genFrom n).nodeGen n = (if s.nodeGen n = 0 then 1 else s.nodeGen n) ∧
    (∀ m, m ≠ n → (s.genFrom n).nodeGen m = s.nodeGen m) ∧ (∀ m, (s.genFrom n).nodeState m = s.nodeState m) := by
  unfold genFrom
  split
  · refine ⟨?_, fun m hm => ?_, fun m => ?_⟩
    · rw [nodeGen, rg_setRg_self _ _ _ (by simp)]
      rfl
    · exact rg_setRg_other _ _ _ _ (by simp) (by simp) (.inl (by dsimp only; omega))
    · exact rg_setRg_other _ _ _ _ (by simp) (by simp) (.inr (.inr (by simp)))
  · exact ⟨rfl, fun _ _ => rfl, fun _ => rfl⟩

theorem genFrom_keeps (s : State) (n : Nat) :
    (s.genFrom n).kx = s.kx ∧ (s.genFrom n).active = s.active ∧ (s.genFrom n).pw = s.pw := by
  unfold genFrom
  split <;> exact ⟨rfl, rfl, rfl⟩

/-- The GEN of a node's parent, 0 without one. -/
def parentGen (s : State) (n : Nat) : Nat :=
  match nodeParent s.kxRf n with
  | some p => s.nodeGen p
  | none => 0

/-- PGEN, USES and DEPTH of a node just created (R360, R379). -/
def readyShown (s : State) (n : Nat) : State :=
  ((s.setRg (F.KX_NODE_STAT_W1_PGEN n) (s.parentGen n)).setRg (F.KX_NODE_STAT_W2_USES n) 0).setRg
    (F.KX_NODE_STAT_W0_DEPTH n) ((nodeDepth s.kxRf 7 n).getD 7)

theorem makeReady_eq (s : State) (n key : Nat) :
    s.makeReady n key = (((s.putKey (nodeCell n) key).setNode n 1).genFrom n).readyShown n := rfl

theorem readyShown_shows (s : State) (n : Nat) :
    (s.readyShown n).nodePgen n = s.parentGen n % 2 ^ 16 ∧ (∀ m, m ≠ n → (s.readyShown n).nodePgen m = s.nodePgen m) ∧
    (∀ m, (s.readyShown n).nodeGen m = s.nodeGen m) ∧ (∀ m, (s.readyShown n).nodeState m = s.nodeState m) := by
  refine ⟨?_, fun m hm => ?_, fun m => ?_, fun m => ?_⟩
  · rw [nodePgen, readyShown, rg_setRg_other _ _ _ _ (by simp) (by simp) (.inl (by dsimp only; omega)),
      rg_setRg_other _ _ _ _ (by simp) (by simp) (.inl (by dsimp only; omega)), rg_setRg_self _ _ _ (by simp)]
  · rw [nodePgen, readyShown, rg_setRg_other _ _ _ _ (by simp) (by simp) (.inl (by dsimp only; omega)),
      rg_setRg_other _ _ _ _ (by simp) (by simp) (.inl (by dsimp only; omega)),
      rg_setRg_other _ _ _ _ (by simp) (by simp) (.inl (by dsimp only; omega)), nodePgen]
  · rw [nodeGen, readyShown, rg_setRg_other _ _ _ _ (by simp) (by simp) (.inr (.inl (by simp))),
      rg_setRg_other _ _ _ _ (by simp) (by simp) (.inl (by dsimp only; omega)),
      rg_setRg_other _ _ _ _ (by simp) (by simp) (.inl (by dsimp only; omega)), nodeGen]
  · rw [nodeState, readyShown, rg_setRg_other _ _ _ _ (by simp) (by simp) (.inr (.inr (by simp))),
      rg_setRg_other _ _ _ _ (by simp) (by simp) (.inl (by dsimp only; omega)),
      rg_setRg_other _ _ _ _ (by simp) (by simp) (.inl (by dsimp only; omega)), nodeState]

theorem readyShown_keeps (s : State) (n : Nat) :
    (s.readyShown n).kx = s.kx ∧ (s.readyShown n).active = s.active ∧ (s.readyShown n).pw = s.pw := ⟨rfl, rfl, rfl⟩

/-- A node just created (R360, R364). -/
theorem makeReady_shows (s : State) (n key : Nat) :
    (s.makeReady n key).keyAt (nodeCell n) = key % 2 ^ 256 ∧ (s.makeReady n key).nodeState n = 1 ∧
    (s.makeReady n key).nodeGen n = (if s.nodeGen n = 0 then 1 else s.nodeGen n) ∧
    (∀ p, nodeParent s.kxRf n = some p → p ≠ n → (s.makeReady n key).nodePgen n = s.nodeGen p) := by
  obtain ⟨hgenSelf, hgenOther, hgenState⟩ := genFrom_shows ((s.putKey (nodeCell n) key).setNode n 1) n
  obtain ⟨hkx, hactive, -⟩ := genFrom_keeps ((s.putKey (nodeCell n) key).setNode n 1) n
  have hbefore (m : Nat) : ((s.putKey (nodeCell n) key).setNode n 1).nodeGen m = s.nodeGen m := nodeGen_setNode _ _ _ _
  have hstate : ((s.putKey (nodeCell n) key).setNode n 1).nodeState n = 1 := nodeState_setNode_self _ _ (by decide)
  have hkey : ((s.putKey (nodeCell n) key).setNode n 1).keyAt (nodeCell n) = key % 2 ^ 256 := keyAt_putKey s _ key
  have hrf : ((s.putKey (nodeCell n) key).setNode n 1).active = s.active := rfl
  rw [makeReady_eq]
  generalize (s.putKey (nodeCell n) key).setNode n 1 = u at hgenSelf hgenOther hgenState hkx hactive hbefore hstate hkey hrf
  obtain ⟨hpgen, -, hgen, hst⟩ := readyShown_shows (u.genFrom n) n
  obtain ⟨hkx', -, -⟩ := readyShown_keeps (u.genFrom n) n
  refine ⟨?_, ?_, ?_, fun p hp hne => ?_⟩
  · rw [keyAt_congr (cellOf_congr (congrArg KxState.cells (hkx'.trans hkx)) _), hkey]
  · rw [hst, hgenState, hstate]
  · rw [hgen, hgenSelf, hbefore]
  · have hpar : nodeParent (u.genFrom n).kxRf n = some p := by rw [kxRf_congr (hactive.trans hrf)]; exact hp
    rw [hpgen, parentGen, hpar]
    dsimp only
    rw [hgenOther p hne, hbefore]
    exact Nat.mod_eq_of_lt (s.rg_lt _)

/-- The creation of a node leaves every other. -/
theorem makeReady_other (s : State) {n m : Nat} (key : Nat) (h : m ≠ n) :
    (s.makeReady n key).cellOf (nodeCell m) = s.cellOf (nodeCell m) ∧ (s.makeReady n key).nodeState m = s.nodeState m ∧
    (s.makeReady n key).nodeGen m = s.nodeGen m ∧ (s.makeReady n key).nodePgen m = s.nodePgen m := by
  obtain ⟨-, hgenOther, hgenState⟩ := genFrom_shows ((s.putKey (nodeCell n) key).setNode n 1) n
  obtain ⟨hkx, -, -⟩ := genFrom_keeps ((s.putKey (nodeCell n) key).setNode n 1) n
  have hpgenFrom (u : State) : (u.genFrom n).nodePgen m = u.nodePgen m := by
    unfold genFrom
    split
    · exact rg_setRg_other _ _ _ _ (by simp) (by simp) (.inl (by dsimp only; omega))
    · rfl
  have hcell : ((s.putKey (nodeCell n) key).setNode n 1).cellOf (nodeCell m) = s.cellOf (nodeCell m) :=
    cellOf_putKey_other s key (by unfold nodeCell; omega)
  have hstate : ((s.putKey (nodeCell n) key).setNode n 1).nodeState m = s.nodeState m := nodeState_setNode_other _ _ h
  have hgen : ((s.putKey (nodeCell n) key).setNode n 1).nodeGen m = s.nodeGen m := nodeGen_setNode _ _ _ _
  have hpgen : ((s.putKey (nodeCell n) key).setNode n 1).nodePgen m = s.nodePgen m :=
    rg_setRg_other _ _ _ _ (by simp) (by simp) (.inl (by dsimp only; omega))
  rw [makeReady_eq]
  generalize (s.putKey (nodeCell n) key).setNode n 1 = u at hgenOther hgenState hkx hcell hstate hgen hpgen
  obtain ⟨-, hpgen', hgen', hst'⟩ := readyShown_shows (u.genFrom n) n
  obtain ⟨hkx', -, -⟩ := readyShown_keeps (u.genFrom n) n
  refine ⟨?_, ?_, ?_, ?_⟩
  · rw [cellOf_congr (congrArg KxState.cells (hkx'.trans hkx)), hcell]
  · rw [hst', hgenState, hstate]
  · rw [hgen', hgenOther m h, hgen]
  · rw [hpgen' m h, hpgenFrom, hpgen]

theorem core_putKey (s : State) (k key : Nat) : (s.putKey k key).kx.core = s.kx.core := core_setCell s k _

theorem core_makeReady (s : State) (n key : Nat) : (s.makeReady n key).kx.core = s.kx.core := by
  have hset : ((s.putKey (nodeCell n) key).setNode n 1).kx = (s.putKey (nodeCell n) key).kx := rfl
  rw [makeReady_eq, (readyShown_keeps _ _).1, (genFrom_keeps _ _).1, hset, core_putKey]

theorem makeReady_active (s : State) (n key : Nat) : (s.makeReady n key).active = s.active :=
  (moves_makeReady (ps := [.regs, .kx]) (List.Subset.refl _) (moves_refl s)).1 .active (by decide)

theorem regsWithin_makeReady (s : State) (n key : Nat) : RegsWithin keyRegs s (s.makeReady n key) := by
  have low (i : Nat) : keyRegs (0x6200000 + 0x10 * n + i) := .inr (by omega)
  have ready : RegsWithin keyRegs s ((s.putKey (nodeCell n) key).setNode n 1) :=
    RegsWithin.setRg (low 0) (.inr (by dsimp only; omega)) (.of_regs (.refl s) rfl rfl)
  have first : RegsWithin keyRegs s (((s.putKey (nodeCell n) key).setNode n 1).genFrom n) :=
    (ready.setRg (low 0) (.inr (by dsimp only; omega))).ite ready
  rw [makeReady_eq]
  refine ((first.setRg ?_ (.inr ?_)).setRg ?_ (.inr ?_)).setRg (low 0) (.inr (by dsimp only; omega))
  all_goals (simp only [keyRegs]; omega)

/-! ### Creation under a parent -/

theorem kxUse_usable {s : State} {p bit : Nat} (h : s.nodeUsable p bit = true) : s.kxUse p bit = (s.countUse p, true) :=
  if_pos h

theorem kxUse_refused {s : State} {p bit : Nat} (h : s.nodeUsable p bit = false) :
    s.kxUse p bit = (s.bump F.KX_USE_REFUSED_COUNT, false) :=
  if_neg (by rw [h]; exact Bool.false_ne_true)

theorem nodeState_of_usable {s : State} {p bit : Nat} (h : s.nodeUsable p bit = true) : s.nodeState p = 1 := by
  unfold nodeUsable at h
  simp only [Bool.and_eq_true, decide_eq_true_eq] at h
  exact h.1.1.1

/-- A node is created under its usable parent. -/
theorem createNode_usable {s : State} {n p : Nat} (hp : nodeParent s.kxRf n = some p) (hu : s.nodeUsable p 5 = true) :
    s.createNode n = (s.countUse p).makeReady n (s.childKey n p) := by
  unfold createNode
  rw [hp]
  dsimp only
  rw [if_neg (fun h => h (nodeState_of_usable hu)), kxUse_usable hu]

/-- A creation does nothing, counts a refused use of the parent, or counts a use and makes the node READY. -/
theorem createNode_cases (s : State) (n : Nat) :
    s.createNode n = s ∨ s.createNode n = s.bump F.KX_USE_REFUSED_COUNT ∨
      ∃ p key, s.createNode n = (s.countUse p).makeReady n key := by
  cases hp : nodeParent s.kxRf n with
  | none =>
    refine .inl ?_
    unfold createNode
    rw [hp]
  | some p =>
    by_cases hs : s.nodeState p = 1
    · cases hu : s.nodeUsable p 5 with
      | true => exact .inr (.inr ⟨p, _, createNode_usable hp hu⟩)
      | false =>
        refine .inr (.inl ?_)
        unfold createNode
        rw [hp]
        dsimp only
        rw [if_neg (fun h => h hs), kxUse_refused hu]
    · refine .inl ?_
      unfold createNode
      rw [hp]
      dsimp only
      rw [if_pos hs]

theorem regsWithin_createNode (s : State) (n : Nat) : RegsWithin keyRegs s (s.createNode n) := by
  rcases createNode_cases s n with h | h | ⟨p, key, h⟩
  · rw [h]
    exact .refl s
  · rw [h]
    exact (RegsWithin.refl s).bump (by decide) (.inr (by decide))
  · rw [h]
    exact ((regsWithin_countUse s p).mono nodeRegs.key).trans (regsWithin_makeReady _ n key)

theorem core_createNode (s : State) (n : Nat) : (s.createNode n).kx.core = s.kx.core := by
  rcases createNode_cases s n with h | h | ⟨p, key, h⟩
  · rw [h]
  · rw [h, bump_kx]
  · rw [h, core_makeReady, countUse_kx]

/-! ### What later creations leave of a node -/

/-- The node keeps its key and its generations; it stays in its state or is EXHAUSTED by the uses of its children. -/
structure NodeStays (n : Nat) (s t : State) : Prop where
  cell : t.cellOf (nodeCell n) = s.cellOf (nodeCell n)
  state : t.nodeState n = s.nodeState n ∨ (t.nodeState n = 4 ∧ nodeLimit s.kxRf n ≠ 0)
  gen : t.nodeGen n = s.nodeGen n
  pgen : t.nodePgen n = s.nodePgen n
  active : t.active = s.active

theorem NodeStays.refl (n : Nat) (s : State) : NodeStays n s s := ⟨rfl, .inl rfl, rfl, rfl, rfl⟩

theorem NodeStays.trans {n : Nat} {s t u : State} (h : NodeStays n s t) (k : NodeStays n t u) : NodeStays n s u := by
  refine ⟨k.cell.trans h.cell, ?_, k.gen.trans h.gen, k.pgen.trans h.pgen, k.active.trans h.active⟩
  rcases k.state with hk | ⟨hk, hl⟩
  · rcases h.state with hs | ⟨hs, hl⟩
    · exact .inl (hk.trans hs)
    · exact .inr ⟨hk.trans hs, hl⟩
  · exact .inr ⟨hk, by rwa [kxRf_congr h.active] at hl⟩

theorem countUse_stays (s : State) (p n : Nat) : NodeStays n s (s.countUse p) := by
  obtain ⟨hgen, hother, hself⟩ := countUse_shows s p
  refine ⟨cellOf_congr (congrArg KxState.cells (countUse_kx s p)) _, ?_, hgen n, ?_, countUse_active s p⟩
  · by_cases h : n = p
    · rw [h]
      exact hself
    · exact .inl (hother n h)
  · refine (regsWithin_countUse s p).rg _ ?_ (.inr (by dsimp only; omega))
    simp only [nodeRegs, R.KX_NODE_STAT_W0, R.KX_NODE_STAT_W2, R.KX_EV_LAST]
    omega

theorem createNode_stays (s : State) {n m : Nat} (h : m ≠ n) : NodeStays n s (s.createNode m) := by
  rcases createNode_cases s m with e | e | ⟨p, key, e⟩
  · rw [e]
    exact .refl n s
  · rw [e]
    have hf (g : Fld) (hg : g.lo + g.wid ≤ 32) (ho : 0x6200000 ≤ g.off) : (s.bump F.KX_USE_REFUSED_COUNT).rg g = s.rg g :=
      rg_bump_other _ _ _ _ (by decide) hg (.inl (by dsimp only; omega))
    exact ⟨rfl, .inl (hf _ (by simp) (by simp)), hf _ (by simp) (by simp), hf _ (by simp) (by simp; omega), rfl⟩
  · rw [e]
    obtain ⟨hcell, hstate, hgen, hpgen⟩ := makeReady_other (s.countUse p) key (Ne.symm h)
    exact (countUse_stays s p n).trans ⟨hcell, .inl hstate, hgen, hpgen, makeReady_active _ _ _⟩

/-- One step of the creation of all that wait. -/
def createWaiting (t : State) (n : Nat) : State := if t.awaitsCreation n then t.createNode n else t

theorem createAll_eq (s : State) :
    s.createAll = if s.rg F.KX_STAT_ROOTS_UP = 0 then s else s.forEach (nodesByDepth s.kxRf) createWaiting := rfl

/-- A node that is not EMPTY stays while the nodes that wait are created. -/
theorem createAll_stays (s : State) {n : Nat} (hn : s.nodeState n ≠ 0) : NodeStays n s s.createAll := by
  rw [createAll_eq]
  split
  · exact .refl n s
  · next hroots =>
    clear hroots
    generalize nodesByDepth s.kxRf = l
    induction l generalizing s with
    | nil => exact .refl n s
    | cons m l ih =>
      have one : NodeStays n s (s.createWaiting m) := by
        unfold createWaiting
        split
        · next hw =>
          refine createNode_stays s fun he => ?_
          unfold awaitsCreation at hw
          simp only [Bool.and_eq_true, decide_eq_true_eq] at hw
          exact hn (he ▸ hw.2)
        · exact .refl n s
      refine one.trans (ih _ fun h => ?_)
      rcases one.state with h' | ⟨h', -⟩ <;> rw [h'] at h
      · exact hn h
      · exact absurd h (by decide)

theorem regsWithin_createAll (s : State) : RegsWithin keyRegs s s.createAll := by
  rw [createAll_eq]
  refine (RegsWithin.refl s).ite ((RegsWithin.refl s).forEach (fun u n h => ?_) _)
  exact (h.trans (regsWithin_createNode u n)).ite h

theorem core_createAll (s : State) : s.createAll.kx.core = s.kx.core := by
  rw [createAll_eq]
  split
  · rfl
  · refine core_forEach (fun u n => ?_) _ _
    unfold createWaiting
    split
    · exact core_createNode u n
    · rfl

end State

end Sys2Proof.Machine
end

section
/-!
PROOFS. The ends of the KX commands, the renewal of the masks, and the health test of the random numbers (R351, R353, R362 to
R364, R367, R372 to R375).
-/

namespace Sys2Proof.Machine

namespace State

/-! ### The end of a command -/

/-- A command is taken out of the list of those in progress. -/
def jobTaken (s : State) (j : KxJob) : State := { s with kx.jobs := s.kx.jobs.erase j }

theorem stands_jobTaken (s : State) (j : KxJob) : TreeStands s (s.jobTaken j) := ⟨.of_regs (.refl s) rfl rfl, rfl, rfl, rfl⟩

theorem exec_kxCommandDone {s : State} {j : KxJob} (ok : Bool)
    (h : s.kx.jobs.find? (fun j => decide (j.op ≠ 6)) = some j) :
    exec (.kxCommandDone ok) s = .next ((s.jobTaken j).kxFinish j ok) := by
  show execKxCommandDone ok s = _
  rw [execKxCommandDone, takeJob, h]
  rfl

/-- The list of the commands in progress decides no check. -/
theorem kxCheck_jobTaken (s : State) (j : KxJob) (a : Agent) (op n arg : Nat) :
    (s.jobTaken j).kxCheck a op n arg = s.kxCheck a op n arg := rfl

theorem kxFinish_late {s : State} {a : Agent} {op n arg code : Nat} (ok : Bool) (hop : op = 2 ∨ op = 3 ∨ op = 4)
    (hc : s.kxCheck a op n arg = some code) :
    s.kxFinish ⟨a, op, n, arg⟩ ok = (if op = 3 then s.zeroKxData a else s).kxResult a n code := by
  unfold kxFinish
  dsimp only
  rw [if_pos hop, hc]

theorem kxFinish_rebind {s : State} {a : Agent} {n arg : Nat} (ok : Bool) (hc : s.kxCheck a 2 n arg = none) :
    s.kxFinish ⟨a, 2, n, arg⟩ ok = (s.doRebind n).kxResult a n 0 := by
  unfold kxFinish
  dsimp only
  rw [if_pos (.inl rfl), hc]
  dsimp only
  rw [if_pos rfl]

theorem kxFinish_import {s : State} {a : Agent} {n form : Nat} (ok : Bool) (hc : s.kxCheck a 3 n form = none) :
    s.kxFinish ⟨a, 3, n, form⟩ ok =
      ((s.doImport n form (s.kxData a)).1.zeroKxData a).kxResult a n (s.doImport n form (s.kxData a)).2 := by
  unfold kxFinish
  dsimp only
  rw [if_pos (.inr (.inl rfl)), hc]
  dsimp only
  rw [if_neg (by decide), if_pos rfl]

theorem kxFinish_export {s : State} {a : Agent} {n arg : Nat} (ok : Bool) (hc : s.kxCheck a 4 n arg = none) :
    s.kxFinish ⟨a, 4, n, arg⟩ ok = (s.giveKxData a (s.exportBlob n)).kxResult a n 0 := by
  unfold kxFinish
  dsimp only
  rw [if_pos (.inr (.inr rfl)), hc]
  dsimp only
  rw [if_neg (by decide), if_neg (by decide), if_pos rfl]

theorem kxFinish_advance (s : State) (a : Agent) (dest : Nat) :
    s.kxFinish ⟨a, 7, 0, dest⟩ true = (s.doAdvance dest).kxResult a 0 0 ∧
    s.kxFinish ⟨a, 7, 0, dest⟩ false = { s with kx.advanced := false }.kxResult a 0 0x0D := by
  unfold kxFinish
  dsimp only
  rw [if_neg (by decide)]
  exact ⟨rfl, rfl⟩

/-- Where an outcome is told: in the mailbox, and in a session's answer. -/
theorem kxResult_told (s : State) (a : Agent) {n code : Nat} (hn : n < 1024) (hc : code < 32) :
    (a.ownerCode ≤ 12 → (s.kxResult a n code).rd (R.KX_RESULT a.ownerCode) = Word.ofNat (code * 2 + n * 65536)) ∧
    ∀ k : Fin 4, a = .bersan k → .bersanReply k.val (code * 2 + n * 65536) ∈ (s.kxResult a n code).out := by
  refine ⟨fun hk => ?_, fun k ha => ?_⟩
  · rw [rd_kxResult_self _ _ _ hk, kxWord, Nat.mod_eq_of_lt hn]
  · rw [ha]
    exact reply_kxResult s k hn hc

/-- An outcome does not touch the DATA words. -/
theorem data_kxResult (s : State) (a : Agent) (n code : Nat) {k w : Nat} (hw : w < 16) :
    (s.kxResult a n code).rg (F.KX_DATA_DATA k w) = s.rg (F.KX_DATA_DATA k w) := by
  refine (regsWithin_kxResult s a n code).rg _ (fun h => ?_) (.inr (by dsimp only; omega))
  obtain ⟨i, -, hi⟩ := h
  simp only [R.KX_RESULT] at hi
  omega

/-! ### REBIND -/

theorem checked_of_ite {p : Prop} {_ : Decidable p} {c : Nat} {o : Option Nat} (h : (if p then some c else o) = none) :
    ¬ p ∧ o = none := by
  split at h
  · exact absurd h (by simp)
  · next hp => exact ⟨hp, h⟩

/-- A node that REBIND's checks pass is INVALID or ORPHANED (R375). -/
theorem state_of_rebind {s : State} {a : Agent} {n arg : Nat} (h : s.kxCheck a 2 n arg = none) :
    s.nodeState n = 2 ∨ s.nodeState n = 3 := by
  unfold kxCheck at h
  dsimp only at h
  iterate 6 replace h := (checked_of_ite h).2
  have hbad := (checked_of_ite h).1
  by_contra hne
  refine hbad ?_
  unfold kxBadState
  dsimp only
  rw [if_neg (by decide), if_pos rfl]
  simpa using hne

theorem kdf108_lt (p : Nat) (fixed : List Byte) : kdf108 p fixed < 2 ^ 256 := by
  unfold kdf108
  have h1 := Nat.mod_lt (Config.cmac p (beBytes 4 1 ++ fixed)) (show 0 < 2 ^ 128 by decide)
  have h2 := Nat.mod_lt (Config.cmac p (beBytes 4 2 ++ fixed)) (show 0 < 2 ^ 128 by decide)
  omega

theorem childKey_lt (s : State) (n p : Nat) : s.childKey n p < 2 ^ 256 := by
  have node (k : Nat) (l : List Byte) (a b : Nat) : nodeKdf k l a b < 2 ^ 256 := kdf108_lt _ _
  unfold childKey
  dsimp only
  split
  · exact node _ _ _ _
  · split
    · exact node _ _ _ _
    · split
      · exact node _ _ _ _
      · split
        · exact node _ _ _ _
        · split
          · exact Nat.mod_lt _ (by decide)
          · exact node _ _ _ _

/-- A node derived again under its READY parent (R364). -/
theorem doRebind_shows {s : State} {n p : Nat} (hp : nodeParent s.kxRf n = some p) (hu : s.nodeUsable p 5 = true)
    (hne : p ≠ n) :
    (s.doRebind n).keyAt (nodeCell n) = s.childKey n p ∧
    ((s.doRebind n).nodeState n = 1 ∨ ((s.doRebind n).nodeState n = 4 ∧ nodeLimit s.kxRf n ≠ 0)) ∧
    (s.doRebind n).nodeGen n = (if s.nodeGen n = 0 then 1 else s.nodeGen n) ∧
    (s.doRebind n).nodePgen n = s.nodeGen p ∧ (s.doRebind n).kx.jobs = s.kx.jobs := by
  obtain ⟨hgen, -, -⟩ := countUse_shows s p
  have hrf : (s.countUse p).kxRf = s.kxRf := kxRf_congr (countUse_active s p)
  obtain ⟨hkey, hstate, hgen', hpgen⟩ := makeReady_shows (s.countUse p) n (s.childKey n p)
  have hcore : ((s.countUse p).makeReady n (s.childKey n p)).kx.core = s.kx.core := by rw [core_makeReady, countUse_kx]
  have hactive : ((s.countUse p).makeReady n (s.childKey n p)).active = s.active :=
    (makeReady_active _ _ _).trans (countUse_active s p)
  rw [doRebind, createNode_usable hp hu]
  generalize (s.countUse p).makeReady n (s.childKey n p) = u at hkey hstate hgen' hpgen hcore hactive
  have hstays := createAll_stays u (n := n) (by rw [hstate]; decide)
  refine ⟨?_, ?_, ?_, ?_, ?_⟩
  · rw [keyAt_congr hstays.cell, hkey, Nat.mod_eq_of_lt (childKey_lt s n p)]
  · rw [← kxRf_congr hactive, ← hstate]
    exact hstays.state
  · rw [hstays.gen, hgen', hgen]
  · rw [hstays.pgen, hpgen p (by rw [hrf]; exact hp) hne, hgen]
  · exact KxState.jobs_of_core ((core_createAll u).trans hcore)

theorem doRebind_pw (s : State) (n : Nat) : (s.doRebind n).pw = s.pw :=
  (moves_doRebind (ps := [.out, .regs, .scope, .kx]) (List.Subset.refl _) (moves_refl s)).1 .pw (by decide)

/-! ### IMPORT -/

/-- The node that unwraps (R362). -/
def unwrapper (s : State) (n form : Nat) : Nat := if form = 1 then (nodeParent s.kxRf n).getD 0 else 4

theorem doImport_usable {s : State} {n form : Nat} (data : List Byte) (h : s.nodeUsable (s.unwrapper n form) 6 = true) :
    s.doImport n form data =
      ((s.openBlob n form data).elim (s.countUse (s.unwrapper n form))
        ((s.countUse (s.unwrapper n form)).importKey n), (s.openBlob n form data).elim 0x0C fun _ => 0) := by
  have huse := kxUse_usable h
  unfold unwrapper at huse ⊢
  unfold doImport
  dsimp only
  rw [huse]
  dsimp only
  cases s.openBlob n form data <;> rfl

theorem doImport_refused {s : State} {n form : Nat} (data : List Byte) (h : s.nodeUsable (s.unwrapper n form) 6 = false) :
    s.doImport n form data = (s.bump F.KX_USE_REFUSED_COUNT, 0x0C) := by
  have huse := kxUse_refused h
  unfold unwrapper at huse
  unfold doImport
  dsimp only
  rw [huse]

theorem invalidate_active (s : State) (n : Nat) : (s.invalidate n).active = s.active :=
  (fells_orphanUnder (s.nodeFallen n) n).active.trans (nodeFallen_active s n)

/-- A node holds the key imported into it (R362, R364). -/
theorem importKey_shows (s : State) (n key : Nat) :
    (s.importKey n key).keyAt (nodeCell n) = key % 2 ^ 256 ∧
    ((s.importKey n key).nodeState n = 1 ∨ ((s.importKey n key).nodeState n = 4 ∧ nodeLimit s.kxRf n ≠ 0)) ∧
    (s.importKey n key).kx.jobs = s.kx.jobs := by
  have base : (if [1, 4].contains (s.nodeState n) then s.invalidate n else s).kx.core = s.kx.core ∧
      (if [1, 4].contains (s.nodeState n) then s.invalidate n else s).active = s.active := by
    split
    · exact ⟨core_invalidate s n, invalidate_active s n⟩
    · exact ⟨rfl, rfl⟩
  unfold importKey
  dsimp only
  generalize (if [1, 4].contains (s.nodeState n) then s.invalidate n else s) = t at base
  obtain ⟨hcore, hactive⟩ := base
  obtain ⟨hkey, hstate, -, -⟩ := makeReady_shows t n key
  have hcore' : (t.makeReady n key).kx.core = s.kx.core := by rw [core_makeReady, hcore]
  have hactive' : (t.makeReady n key).active = s.active := (makeReady_active t n key).trans hactive
  generalize t.makeReady n key = u at hkey hstate hcore' hactive'
  have hstays := createAll_stays u (n := n) (by rw [hstate]; decide)
  refine ⟨?_, ?_, KxState.jobs_of_core ((core_createAll u).trans hcore')⟩
  · rw [keyAt_congr hstays.cell, hkey]
  · rw [← kxRf_congr hactive', ← hstate]
    exact hstays.state

/-! ### EXPORT -/

theorem giveKxData_kx (s : State) (a : Agent) (bs : List Byte) :
    (s.giveKxData a bs).kx = { s.kx with debugData := (s.giveKxData a bs).kx.debugData } := by
  unfold giveKxData
  split
  · exact setKxData_kx s _ bs
  · rfl
  · exact setKxData_kx s a bs

theorem giveKxData_within (s : State) (a : Agent) (bs : List Byte) : RegsWithin dataRegs s (s.giveKxData a bs) := by
  unfold giveKxData
  split
  · exact (setKxData_within s _ bs).of_regs rfl rfl
  · exact .of_regs (.refl s) rfl rfl
  · exact setKxData_within s a bs

theorem stands_giveKxData (s : State) (a : Agent) (bs : List Byte) : TreeStands s (s.giveKxData a bs) :=
  have m : moves [.out, .regs, .kx] s (s.giveKxData a bs) := moves_giveKxData (List.Subset.refl _) (moves_refl s)
  ⟨(giveKxData_within s a bs).mono dataRegs.aside, by rw [giveKxData_kx], m.1 .active (by decide), m.1 .pw (by decide)⟩

theorem giveKxData_word (s : State) {a : Agent} (bs : List Byte) (hk : a.ownerCode ≤ 12) {w : Nat} (hw : w < 16) :
    (s.giveKxData a bs).rg (F.KX_DATA_DATA a.ownerCode w) = ofLe (slice0 bs (4 * w) 4) := by
  cases a with
  | core n => exact setKxData_word s bs hk hw
  | pcie => exact setKxData_word s bs hk hw
  | bersan n => exact setKxData_word s bs hk hw
  | sv => exact absurd hk (by decide)
  | debug => exact absurd hk (by decide)

/-! ### LC_ADVANCE -/

/-- One more fuse is blown, and the next life cycle is shown (R351, R353). -/
def fuseBlown (s : State) (dest : Nat) : State :=
  ({ s with nv.fuses := lcBlow s.nv.fuses (s.rg F.KX_STAT_LC) dest }.setRg F.KX_STAT_LC_NEXT
    (lcOf (lcBlow s.nv.fuses (s.rg F.KX_STAT_LC) dest))).setRg F.KX_STAT_TOGGLES_LEFT
    (togglesLeft (lcBlow s.nv.fuses (s.rg F.KX_STAT_LC) dest))

theorem lcOf_lt (f : Nat) : lcOf f < 2 ^ 3 := by
  unfold lcOf
  repeat' split
  all_goals decide

theorem togglesLeft_lt (f : Nat) : togglesLeft f < 2 ^ 5 := by
  unfold togglesLeft
  omega

theorem fuseBlown_shows (s : State) (dest : Nat) :
    (s.fuseBlown dest).nv = { s.nv with fuses := lcBlow s.nv.fuses (s.rg F.KX_STAT_LC) dest } ∧
    (s.fuseBlown dest).rg F.KX_STAT_LC_NEXT = lcOf (lcBlow s.nv.fuses (s.rg F.KX_STAT_LC) dest) ∧
    (s.fuseBlown dest).rg F.KX_STAT_TOGGLES_LEFT = togglesLeft (lcBlow s.nv.fuses (s.rg F.KX_STAT_LC) dest) ∧
    (s.fuseBlown dest).pw = s.pw ∧ (s.fuseBlown dest).kx = s.kx := by
  refine ⟨rfl, ?_, ?_, rfl, rfl⟩
  · rw [fuseBlown, rg_setRg_other _ _ _ _ (by decide) (by decide) (by decide), rg_setRg_self _ _ _ (by decide)]
    exact Nat.mod_eq_of_lt (lcOf_lt _)
  · rw [fuseBlown, rg_setRg_self _ _ _ (by decide)]
    exact Nat.mod_eq_of_lt (togglesLeft_lt _)

theorem doAdvance_eq (s : State) (dest : Nat) : ∃ p, s.doAdvance dest = (s.fuseBlown dest).ledgerAdd 0x08 p := ⟨_, rfl⟩

/-- The end of LC_ADVANCE (R351, R353). -/
theorem doAdvance_shows (s : State) (dest : Nat) :
    (s.doAdvance dest).nv = { s.nv with fuses := lcBlow s.nv.fuses (s.rg F.KX_STAT_LC) dest } ∧
    (s.doAdvance dest).rg F.KX_STAT_LC_NEXT = lcOf (lcBlow s.nv.fuses (s.rg F.KX_STAT_LC) dest) ∧
    (s.doAdvance dest).rg F.KX_STAT_TOGGLES_LEFT = togglesLeft (lcBlow s.nv.fuses (s.rg F.KX_STAT_LC) dest) ∧
    (s.doAdvance dest).pw = s.pw ∧ (s.doAdvance dest).kx = s.kx := by
  obtain ⟨hnv, hnext, htoggles, hpw, hkx⟩ := fuseBlown_shows s dest
  obtain ⟨p, hp⟩ := doAdvance_eq s dest
  have m : moves [.out, .regs, .scope, .ob] (s.fuseBlown dest) ((s.fuseBlown dest).ledgerAdd 0x08 p) :=
    moves_ledgerAdd (List.Subset.refl _) (moves_refl _)
  have hw := (stands_ledgerAdd (s.fuseBlown dest) 0x08 p).within
  rw [hp]
  refine ⟨(m.1 .nv (by decide)).trans hnv, ?_, ?_, (m.1 .pw (by decide)).trans hpw, (m.1 .kx (by decide)).trans hkx⟩
  · rw [hw.rg _ (by decide) (.inr (by decide)), hnext]
  · rw [hw.rg _ (by decide) (.inr (by decide)), htoggles]

end State

end Sys2Proof.Machine
end

section
/-!
PROOFS. CLEAR_LOCK's end, the renewal of the masks, and the settling of the key engine's events (R367, R372 to R375).
-/

namespace Sys2Proof.Machine

namespace State

/-! ### The tree instantiated again -/

/-- The roots and the fixed nodes of the tree, before the rest is created (R354, R355). -/
def rootsMade (s : State) : State :=
  let t := s.putKey 0 (Config.pufSecret (s.nvRead nvHelper 1536))
  let root := nodeKdf (t.keyAt 0) (rootLabel (t.rg F.KX_STAT_LC)) 0 0x020
  let fix := nodeKdf (t.keyAt 0) (ascii "ELG-RK-FIX") 0 0x020
  let u := ((t.putKey 1 fix).makeReady 0 root).makeReady 1 fix
  { u.useFree with kx.nonce := u.freeVal % 2 ^ 128 }.forEach [4, 5, 6] createNode

theorem instantiate_eq (s : State) : s.instantiate = (s.rootsMade.setRg F.KX_STAT_ROOTS_UP 1).createAll := rfl

theorem regsWithin_putKey (s : State) (k key : Nat) : RegsWithin keyRegs s (s.putKey k key) := .of_regs (.refl s) rfl rfl

/-- The nonce of node 6 is drawn (R355). -/
def nonceDrawn (s : State) : State := { s.useFree with kx.nonce := s.freeVal % 2 ^ 128 }

theorem nonceDrawn_shows (s : State) : s.nonceDrawn.regs = s.regs ∧ s.nonceDrawn.cx.core = s.cx.core ∧
    s.nonceDrawn.kx.jobs = s.kx.jobs := ⟨rfl, rfl, rfl⟩

theorem rootsMade_shows (s : State) : RegsWithin keyRegs s s.rootsMade ∧ s.rootsMade.kx.jobs = s.kx.jobs := by
  have made (t : State) (root fix : Nat) (h : RegsWithin keyRegs s t) (hk : t.kx.core = s.kx.core) :
      RegsWithin keyRegs s (((t.putKey 1 fix).makeReady 0 root).makeReady 1 fix) ∧
        (((t.putKey 1 fix).makeReady 0 root).makeReady 1 fix).kx.core = s.kx.core := by
    refine ⟨((h.trans (regsWithin_putKey t 1 fix)).trans (regsWithin_makeReady _ 0 root)).trans
      (regsWithin_makeReady _ 1 fix), ?_⟩
    rw [core_makeReady, core_makeReady, core_putKey, hk]
  have children (u : State) (h : RegsWithin keyRegs s u) (hk : u.kx.core = s.kx.core) :
      RegsWithin keyRegs s (u.nonceDrawn.forEach [4, 5, 6] createNode) ∧
        (u.nonceDrawn.forEach [4, 5, 6] createNode).kx.jobs = s.kx.jobs := by
    obtain ⟨hregs, hcx, hjobs⟩ := nonceDrawn_shows u
    refine ⟨RegsWithin.forEach (fun x n k => k.trans (regsWithin_createNode x n)) _ (h.of_regs hregs hcx), ?_⟩
    rw [KxState.jobs_of_core (core_forEach core_createNode _ _), hjobs, KxState.jobs_of_core hk]
  unfold rootsMade
  dsimp only
  generalize hsec : Config.pufSecret (s.nvRead nvHelper 1536) = secret
  obtain ⟨h, hk⟩ := made (s.putKey 0 secret) _ _ (regsWithin_putKey s 0 secret) (core_putKey s 0 secret)
  exact children _ h hk

theorem judgeNode_shows (s : State) (n : Nat) : RegsWithin keyRegs s (s.judgeNode n) ∧
    (s.judgeNode n).kx.core = s.kx.core := by
  have node : keyRegs (F.KX_NODE_STAT_W0_STATE n).off ∧ 0x2020 ≤ (F.KX_NODE_STAT_W0_STATE n).off :=
    ⟨.inr (by dsimp only; omega), by dsimp only; omega⟩
  have bad : keyRegs F.KX_BAD_CHAIN_NODES.off ∧ 0x2020 ≤ F.KX_BAD_CHAIN_NODES.off := by decide
  have fallen : RegsWithin keyRegs s (((s.eraseKey (nodeCell n)).setNode n 5).setRg F.KX_BAD_CHAIN_NODES
      (s.rg F.KX_BAD_CHAIN_NODES + 1)) :=
    RegsWithin.setRg bad.1 (.inr bad.2) (RegsWithin.setRg node.1 (.inr node.2) (.of_regs (.refl s) rfl rfl))
  have freed : RegsWithin keyRegs s ((s.setNode n 0).setRg F.KX_BAD_CHAIN_NODES (s.rg F.KX_BAD_CHAIN_NODES - 1)) :=
    RegsWithin.setRg bad.1 (.inr bad.2) ((RegsWithin.refl s).setRg node.1 (.inr node.2))
  unfold judgeNode
  dsimp only
  split
  · refine ⟨fallen.trans ((stands_kxEvent _ n (by decide)).within.mono asideRegs.key), ?_⟩
    rw [kxEvent_kx]
    exact core_felled s n 5
  · split
    · exact ⟨freed, rfl⟩
    · exact ⟨.refl s, rfl⟩

theorem judgeNodes_shows (s : State) : RegsWithin keyRegs s s.judgeNodes ∧ s.judgeNodes.kx.core = s.kx.core :=
  ⟨RegsWithin.forEach (fun u n h => h.trans (judgeNode_shows u n).1) _ (.refl s),
    core_forEach (fun u n => (judgeNode_shows u n).2) _ _⟩

/-- The tree stands again: its roots are up, and the lock is as it was shown before. -/
theorem instantiated_shows (s : State) :
    s.instantiate.judgeNodes.rg F.KX_STAT_ROOTS_UP = 1 ∧
    s.instantiate.judgeNodes.rg F.KX_STAT_LOCKED = s.rg F.KX_STAT_LOCKED ∧
    s.instantiate.judgeNodes.rg F.SV_MODE_TREE_LOCKED = s.rg F.SV_MODE_TREE_LOCKED ∧
    s.instantiate.judgeNodes.kx.jobs = s.kx.jobs ∧ s.instantiate.judgeNodes.pw = s.pw := by
  obtain ⟨hroots, hjobs⟩ := rootsMade_shows s
  have hpw : s.instantiate.judgeNodes.pw = s.pw :=
    (moves_judgeNodes (ps := [.freeN, .out, .regs, .scope, .kx]) (List.Subset.refl _)
      (moves_instantiate (List.Subset.refl _) (moves_refl s))).1 .pw (by decide)
  rw [instantiate_eq] at hpw ⊢
  have hcreate := regsWithin_createAll (s.rootsMade.setRg F.KX_STAT_ROOTS_UP 1)
  have hcore := core_createAll (s.rootsMade.setRg F.KX_STAT_ROOTS_UP 1)
  generalize (s.rootsMade.setRg F.KX_STAT_ROOTS_UP 1).createAll = u at hpw hcreate hcore ⊢
  obtain ⟨hjudge, hjcore⟩ := judgeNodes_shows u
  have hw := hcreate.trans hjudge
  refine ⟨?_, ?_, ?_, ?_, hpw⟩
  · rw [hw.rg _ (by decide) (.inr (by decide)), rg_setRg_self _ _ _ (by decide)]
    rfl
  · rw [hw.rg _ (by decide) (.inr (by decide)), rg_setRg_other _ _ _ _ (by decide) (by decide) (by decide),
      hroots.rg _ (by decide) (.inr (by decide))]
  · rw [hw.rg _ (by decide) (.inl (by decide)), rg_setRg_other _ _ _ _ (by decide) (by decide) (by decide),
      hroots.rg _ (by decide) (.inl (by decide))]
  · rw [KxState.jobs_of_core hjcore, KxState.jobs_of_core hcore, setRg_kx, hjobs]

/-- The lock is lifted, and the tree stands again (R372). -/
def lockLifted (s : State) : State :=
  { (s.setRg F.KX_STAT_LOCKED 0).setRg F.SV_MODE_TREE_LOCKED 0 with ce.ham := none }.instantiate.judgeNodes

theorem lockLifted_shows (s : State) :
    s.lockLifted.rg F.KX_STAT_ROOTS_UP = 1 ∧ s.lockLifted.rg F.KX_STAT_LOCKED = 0 ∧
    s.lockLifted.rg F.SV_MODE_TREE_LOCKED = 0 ∧ s.lockLifted.kx.jobs = s.kx.jobs ∧ s.lockLifted.pw = s.pw := by
  have hlocked : ((s.setRg F.KX_STAT_LOCKED 0).setRg F.SV_MODE_TREE_LOCKED 0).rg F.KX_STAT_LOCKED = 0 := by
    rw [rg_setRg_other _ _ _ _ (by decide) (by decide) (by decide), rg_setRg_self _ _ _ (by decide)]
    rfl
  have htree : ((s.setRg F.KX_STAT_LOCKED 0).setRg F.SV_MODE_TREE_LOCKED 0).rg F.SV_MODE_TREE_LOCKED = 0 := by
    rw [rg_setRg_self _ _ _ (by decide)]
    rfl
  have hkx : ((s.setRg F.KX_STAT_LOCKED 0).setRg F.SV_MODE_TREE_LOCKED 0).kx = s.kx := rfl
  have hpw : ((s.setRg F.KX_STAT_LOCKED 0).setRg F.SV_MODE_TREE_LOCKED 0).pw = s.pw := rfl
  unfold lockLifted
  generalize (s.setRg F.KX_STAT_LOCKED 0).setRg F.SV_MODE_TREE_LOCKED 0 = t at hlocked htree hkx hpw
  obtain ⟨h1, h2, h3, h4, h5⟩ := instantiated_shows { t with ce.ham := none }
  exact ⟨h1, h2.trans hlocked, h3.trans htree, h4.trans (congrArg KxState.jobs hkx), h5.trans hpw⟩

/-- The latches that are at WIPE_LOCK no more are kept; the next start is not locked (R372). -/
def latchesKept (w : State) : State :=
  let keep := (maskList (w.rg F.KX_TAMPER_STAT_LATCH) 6).filter (fun i => tamperLevel w.tamperCfg i ≠ 3)
  let kept := (maskList w.kx.listenLatch 6).filter (fun i => tamperLevel w.tamperCfg i ≠ 3)
  { w with kx.listenLatch := kept.foldl setBit 0, kx.lockNext := false }.setRg F.KX_TAMPER_STAT_LATCH (keep.foldl setBit 0)

theorem latchesKept_shows (w : State) : w.latchesKept.kx.lockNext = false ∧ w.latchesKept.kx.jobs = w.kx.jobs ∧
    w.latchesKept.pw = w.pw ∧ ∀ off, off ≠ R.KX_TAMPER_STAT → w.latchesKept.rd off = w.rd off :=
  ⟨rfl, rfl, rfl, fun _ h => rd_setRg_other _ F.KX_TAMPER_STAT_LATCH _ _ h⟩

theorem exec_clearLockDone {s : State} {j : KxJob} (h : s.kx.jobs.find? (fun j => decide (j.op = 6)) = some j)
    (hc : (s.jobTaken j).downCause .sound = 0) : exec (.clearLockDone .sound) s = .next
      ((((((s.jobTaken j).noteErrRate 0).lockLifted.latchesKept).raise 183)).kxResult j.agent j.node 0) := by
  show execClearLockDone .sound s = _
  rw [execClearLockDone, takeJob, h]
  dsimp only
  rw [← jobTaken, hc, if_pos rfl]
  rfl

theorem noteErrRate_keeps (s : State) (cause : Nat) : (s.noteErrRate cause).kx = s.kx ∧ (s.noteErrRate cause).pw = s.pw :=
  have m : moves [.freeN, .out, .regs, .scope] s (s.noteErrRate cause) := moves_noteErrRate (List.Subset.refl _) (moves_refl s)
  ⟨m.1 .kx (by decide), m.1 .pw (by decide)⟩

/-! ### The masks -/

theorem keyAt_remask (s : State) (k j : Nat) : (s.remask k).keyAt j = s.keyAt j := by
  unfold remask
  dsimp only
  by_cases h : j = k
  · rw [h]
    unfold keyAt
    rw [cellOf_setCell_self]
    show ((s.cellOf k).stored ^^^ (s.cellOf k).mask) ^^^ (s.freeVal % 2 ^ 256) ^^^ (s.freeVal % 2 ^ 256) = _
    rw [Nat.xor_assoc, Nat.xor_self, Nat.xor_zero]
    rfl
  · exact keyAt_congr ((cellOf_setCell_other _ _ h).trans (cellOf_congr rfl j))

/-- Every mask renewed leaves every key and every register (R367). -/
theorem remaskAll_shows (s : State) (l : List Nat) :
    (∀ c, (s.forEach l State.remask).keyAt c = s.keyAt c) ∧ (s.forEach l State.remask).regs = s.regs := by
  induction l generalizing s with
  | nil => exact ⟨fun _ => rfl, rfl⟩
  | cons k l ih =>
    obtain ⟨hkey, hregs⟩ := ih (s.remask k)
    exact ⟨fun c => (hkey c).trans (keyAt_remask s k c), hregs.trans rfl⟩

/-- Every mask is renewed. -/
def remasked (s : State) : State := s.forEach (List.range 1027) State.remask

theorem remasked_shows (s : State) : (∀ c, s.remasked.keyAt c = s.keyAt c) ∧ s.remasked.regs = s.regs :=
  remaskAll_shows s (List.range 1027)

theorem exec_keyRemask {s : State} (hup : s.socUp = true) (hf : s.rg F.KX_STAT_TRNG_FAIL = 0) :
    exec .keyRemask s = .next (s.remasked.tick F.KX_REMASK_PASSES) := by
  show execKeyRemask s = _
  rw [execKeyRemask, if_neg (by rw [hup, hf]; decide), remasked]

theorem tick_passes (u : State) : (∀ c, (u.tick F.KX_REMASK_PASSES).keyAt c = u.keyAt c) ∧
    ∀ off, off ≠ R.KX_REMASK → (u.tick F.KX_REMASK_PASSES).rd off = u.rd off :=
  ⟨fun _ => rfl, fun _ h => rd_setRg_other _ F.KX_REMASK_PASSES _ _ h⟩

/-! ### The end of IMPORT -/

/-- The DATA words become 0 and the outcome is told; the tree stands (R362). -/
theorem importEnds_shows (t : State) (a : Agent) {n code : Nat} (hn : n < 1024) (hc : code < 32) :
    TreeStands t ((t.zeroKxData a).kxResult a n code) ∧ ((t.zeroKxData a).kxResult a n code).kx.jobs = t.kx.jobs ∧
    (a.ownerCode ≤ 12 → ((t.zeroKxData a).kxResult a n code).rd (R.KX_RESULT a.ownerCode) =
      Word.ofNat (code * 2 + n * 65536)) ∧
    (a.ownerCode ≤ 12 → ∀ w < 16, ((t.zeroKxData a).kxResult a n code).rg (F.KX_DATA_DATA a.ownerCode w) = 0) ∧
    ∀ k : Fin 4, a = .bersan k → .bersanReply k.val (code * 2 + n * 65536) ∈ ((t.zeroKxData a).kxResult a n code).out := by
  obtain ⟨htold, hreply⟩ := kxResult_told (t.zeroKxData a) a hn hc
  refine ⟨(stands_zeroKxData t a).trans (stands_kxResult _ a n code), ?_, htold, fun hk w hw => ?_, hreply⟩
  · rw [kxResult_kx, zeroKxData_kx]
  · rw [data_kxResult _ _ _ _ hw, zeroKxData_zero _ hk hw]

theorem importKey_pw (s : State) (n key : Nat) : (s.importKey n key).pw = s.pw :=
  (moves_importKey (ps := [.freeN, .out, .regs, .scope, .sv, .ob, .kx, .ce, .upd]) (List.Subset.refl _) (moves_refl s)).1 .pw
    (by decide)

end State

open State in
/-- Settles O26: each command ends with its outcome in its mailbox and its answer, after what it does to the tree; the masks
are renewed, and the health test is shown. -/
theorem keyEngineEvents : Obligations.KeyEngineEvents := by
  unfold Obligations.KeyEngineEvents
  refine ⟨?advance, ?clear, ?remask, ?waits, ?fail, ?pass, ?rebind, ?importing, ?refusedUse, ?exporting, ?late, ?unblown, ?idle⟩
  case advance =>
    intro a dest s hup hj
    have hrun := exec_kxCommandDone true hj
    rw [(kxFinish_advance _ _ _).1] at hrun
    obtain ⟨hnv, hnext, htoggles, hpw, hkx⟩ := doAdvance_shows (s.jobTaken ⟨a, 7, 0, dest⟩) dest
    generalize (s.jobTaken ⟨a, 7, 0, dest⟩).doAdvance dest = u at hrun hnv hnext htoggles hpw hkx
    have hm := kxResult_moves u a 0 0
    have hnv' : (u.kxResult a 0 0).nv = { s.nv with fuses := lcBlow s.nv.fuses (s.rg F.KX_STAT_LC) dest } :=
      (hm.1 .nv (by decide)).trans hnv
    have hw := (stands_kxResult u a 0 0).within
    obtain ⟨htold, hreply⟩ := kxResult_told u a (n := 0) (code := 0) (by decide) (by decide)
    refine ⟨_, hrun, by rw [hnv'], by rw [hnv'], kxResult_done a 0 ((socUp_congr hpw).trans hup), ?_, ?_, ?_, htold, hreply,
      fun ha => ?_⟩
    · rw [kxResult_kx, hkx]
      rfl
    · rw [hnv', hw.rg _ (by decide) (.inr (by decide)), hnext]
      rfl
    · rw [hnv', hw.rg _ (by decide) (.inr (by decide)), htoggles]
      rfl
    · rw [ha]
      exact reply_kxResult_debug u (node := 0) (code := 0) (by decide) (by decide)
  case clear =>
    intro j s hup hj _ hc
    have hrun := exec_clearLockDone hj hc
    obtain ⟨hkx, hpw⟩ := noteErrRate_keeps (s.jobTaken j) 0
    obtain ⟨hroots, hlocked, htree, hjobs, hpw'⟩ := lockLifted_shows ((s.jobTaken j).noteErrRate 0)
    have hjobs' : ((s.jobTaken j).noteErrRate 0).lockLifted.kx.jobs = s.kx.jobs.erase j := by
      rw [hjobs, hkx]
      rfl
    have hup' : ((s.jobTaken j).noteErrRate 0).lockLifted.socUp = true := (socUp_congr (hpw'.trans hpw)).trans hup
    generalize ((s.jobTaken j).noteErrRate 0).lockLifted = w at hrun hroots hlocked htree hjobs' hup'
    obtain ⟨hnext, hkept, hpwk, hrd⟩ := latchesKept_shows w
    have hset : (w.latchesKept.raise 183).evSet 183 = true :=
      evSet_raise_self _ 183 none ((socUp_congr hpwk).trans hup')
    have hstands := (TreeStands.raise w.latchesKept none (n := 183) (by decide)).trans
      (stands_kxResult (w.latchesKept.raise 183) j.agent j.node 0)
    have hev := (stands_kxResult (w.latchesKept.raise 183) j.agent j.node 0).within.events 183 (by decide) hset
    have hkx' : ((w.latchesKept.raise 183).kxResult j.agent j.node 0).kx = w.latchesKept.kx := by
      rw [kxResult_kx, raise_kx]
    have hrg (f : Fld) (h : f.off ≠ R.KX_TAMPER_STAT) : w.latchesKept.rg f = w.rg f := by
      rw [rg_eq, rg_eq, hrd _ h]
    refine ⟨_, hrun, by rw [hkx', hnext], hev, ?_, ?_, ?_, by rw [hkx', hkept, hjobs'], fun hk => ?_⟩
    · rw [hstands.within.rg _ (by decide) (.inr (by decide)), hrg _ (by decide), hlocked]
    · rw [hstands.within.rg _ (by decide) (.inl (by decide)), hrg _ (by decide), htree]
    · rw [hstands.within.rg _ (by decide) (.inr (by decide)), hrg _ (by decide), hroots]
    · have hword := rd_kxResult_self (w.latchesKept.raise 183) (a := j.agent) j.node 0 hk
      rw [rg_eq]
      refine (congrArg _ hword).trans ?_
      rw [Fld.get_eq, kxWord]
      simp only [Word.ofNat, BitVec.toNat_ofNat]
      omega
  case remask =>
    intro s hup hf
    obtain ⟨hkey, hregs⟩ := remasked_shows s
    obtain ⟨hkept, hrd⟩ := tick_passes s.remasked
    refine ⟨_, exec_keyRemask hup hf, fun c => (hkept c).trans (hkey c), ?_,
      fun off ho => (hrd off ho).trans (rd_congr hregs off)⟩
    rw [rg_tick_self _ _ _ (by decide), rg_congr hregs]
  case waits =>
    intro s hf
    show execKeyRemask s = _
    rw [execKeyRemask, if_pos (.inr hf)]
  case fail =>
    intro s hup
    show ∃ t, execTrngHealthFail s = _ ∧ _
    rw [execTrngHealthFail, if_pos hup]
    refine ⟨_, rfl, ?_, evSet_raise_self _ 187 none ((socUp_setRg _ _ _).trans hup), raise_kx _ _ _⟩
    rw [rg_raise_other _ _ _ _ (by decide), rg_setRg_self _ _ _ (by decide)]
    rfl
  case pass =>
    intro s hup
    show ∃ t, execTrngHealthPass s = _ ∧ _
    rw [execTrngHealthPass, if_pos hup]
    refine ⟨_, rfl, ?_, fun off ho => rd_setRg_other _ F.KX_STAT_TRNG_FAIL _ _ ho⟩
    rw [rg_setRg_self _ _ _ (by decide)]
    rfl
  case rebind =>
    intro a n p s hup hn hj hc hp hu
    have hrun := exec_kxCommandDone true hj
    rw [kxFinish_rebind true ((kxCheck_jobTaken s _ a 2 n 0).trans hc)] at hrun
    have hne : p ≠ n := fun he => by
      have hst := state_of_rebind hc
      rw [← he, nodeState_of_usable hu] at hst
      omega
    obtain ⟨hkey, hstate, hgen, hpgen, hjobs⟩ := doRebind_shows (s := s.jobTaken ⟨a, 2, n, 0⟩) hp hu hne
    have hpw := doRebind_pw (s.jobTaken ⟨a, 2, n, 0⟩) n
    generalize (s.jobTaken ⟨a, 2, n, 0⟩).doRebind n = u at hrun hkey hstate hgen hpgen hjobs hpw
    have hstands := stands_kxResult u a n 0
    obtain ⟨htold, hreply⟩ := kxResult_told u a (code := 0) hn (by decide)
    rw [Nat.zero_mul, Nat.zero_add] at htold hreply
    refine ⟨_, hrun, (keyAt_congr (hstands.cellOf _)).trans hkey, ?_, (hstands.nodeGen hn).trans hgen, ?_,
      kxResult_done a n ((socUp_congr hpw).trans hup), ?_, htold, hreply⟩
    · rw [hstands.nodeState hn]
      exact hstate
    · rw [hstands.within.rg _ (by simp only [asideRegs]; omega) (.inr (by dsimp only; omega))]
      exact hpgen
    · rw [kxResult_kx, hjobs]
      rfl
  case importing =>
    intro a n form s hup hn hj hc hu
    have hrun := exec_kxCommandDone true hj
    rw [kxFinish_import true ((kxCheck_jobTaken s _ a 3 n form).trans hc),
      doImport_usable (s := s.jobTaken ⟨a, 3, n, form⟩) _ hu] at hrun
    have hopen : (s.jobTaken ⟨a, 3, n, form⟩).openBlob n form ((s.jobTaken ⟨a, 3, n, form⟩).kxData a) =
        s.openBlob n form (s.kxData a) := rfl
    rw [hopen] at hrun
    have hkx := countUse_kx (s.jobTaken ⟨a, 3, n, form⟩) (unwrapper (s.jobTaken ⟨a, 3, n, form⟩) n form)
    have hrf := kxRf_congr (countUse_active (s.jobTaken ⟨a, 3, n, form⟩) (unwrapper (s.jobTaken ⟨a, 3, n, form⟩) n form))
    have hpw := (countUse_moves (s.jobTaken ⟨a, 3, n, form⟩)
      (unwrapper (s.jobTaken ⟨a, 3, n, form⟩) n form)).1 .pw (by decide)
    generalize (s.jobTaken ⟨a, 3, n, form⟩).countUse (unwrapper (s.jobTaken ⟨a, 3, n, form⟩) n form) = u at hrun hkx hrf hpw
    have hrf' : u.kxRf = s.kxRf := hrf
    have hup' : u.socUp = true := (socUp_congr hpw).trans hup
    cases hblob : s.openBlob n form (s.kxData a) with
    | some key =>
      rw [hblob] at hrun
      dsimp only [Option.elim] at hrun
      obtain ⟨hkey, hstate, hjobs⟩ := importKey_shows u n key
      have hpw' := importKey_pw u n key
      generalize u.importKey n key = v at hrun hkey hstate hjobs hpw'
      obtain ⟨hstands, hj', htold, hzero, hreply⟩ := importEnds_shows v a (code := 0) hn (by decide)
      rw [Nat.zero_mul, Nat.zero_add] at htold hreply
      refine ⟨_, hrun, by rw [hj', hjobs, hkx]; rfl, hzero, fun k hk => ?_, fun h => absurd h (by simp)⟩
      obtain rfl : key = k := Option.some.inj hk
      refine ⟨(keyAt_congr (hstands.cellOf _)).trans hkey, ?_,
        kxResult_done a n ((stands_zeroKxData v a).socUp.trans ((socUp_congr hpw').trans hup')), htold, hreply⟩
      rw [hstands.nodeState hn, ← hrf']
      exact hstate
    | none =>
      rw [hblob] at hrun
      dsimp only [Option.elim] at hrun
      obtain ⟨hstands, hj', htold, hzero, hreply⟩ := importEnds_shows u a (code := 0x0C) hn (by decide)
      refine ⟨_, hrun, by rw [hj', hkx]; rfl, hzero, fun k hk => absurd hk (by simp), fun _ => ⟨?_, ?_, htold, hreply⟩⟩
      · rw [hstands.cells, hkx]
        rfl
      · exact kxResult_failed a n (by decide) ((stands_zeroKxData u a).socUp.trans hup')
  case refusedUse =>
    intro a n form s hup hn hj hc hu
    have hrun := exec_kxCommandDone true hj
    rw [kxFinish_import true ((kxCheck_jobTaken s _ a 3 n form).trans hc),
      doImport_refused (s := s.jobTaken ⟨a, 3, n, form⟩) _ hu] at hrun
    dsimp only at hrun
    obtain ⟨hstands, -, htold, hzero, -⟩ :=
      importEnds_shows ((s.jobTaken ⟨a, 3, n, form⟩).bump F.KX_USE_REFUSED_COUNT) a (code := 0x0C) hn (by decide)
    refine ⟨_, hrun, kxResult_failed a n (by decide) ?_, ?_, ?_, fun hk => ⟨htold hk, hzero hk⟩⟩
    · exact (stands_zeroKxData _ a).socUp.trans ((socUp_bump _ _ _).trans hup)
    · rw [hstands.cells, bump_kx]
      rfl
    · have hcount : ((((s.jobTaken ⟨a, 3, n, form⟩).bump F.KX_USE_REFUSED_COUNT).zeroKxData a).kxResult a n 0x0C).rg
          F.KX_USE_REFUSED_COUNT = ((s.jobTaken ⟨a, 3, n, form⟩).bump F.KX_USE_REFUSED_COUNT).rg F.KX_USE_REFUSED_COUNT := by
        refine ((regsWithin_kxResult _ a n 0x0C).rg _ ?_ (.inr (by decide))).trans
          ((zeroKxData_within _ a).rg _ ?_ (.inr (by decide)))
        · rintro ⟨i, -, hi⟩
          simp only [R.KX_RESULT] at hi
          omega
        · rintro ⟨i, -, w, -, hi⟩
          simp only [R.KX_DATA] at hi
          omega
      rw [hcount, rg_bump_self _ _ _ (by decide)]
      rfl
  case exporting =>
    intro a n s hup hn hj hc
    have hrun := exec_kxCommandDone true hj
    rw [kxFinish_export true ((kxCheck_jobTaken s _ a 4 n 0).trans hc)] at hrun
    have hblob : (s.jobTaken ⟨a, 4, n, 0⟩).exportBlob n = s.exportBlob n := rfl
    rw [hblob] at hrun
    have hgive := stands_giveKxData (s.jobTaken ⟨a, 4, n, 0⟩) a (s.exportBlob n)
    have hkx := giveKxData_kx (s.jobTaken ⟨a, 4, n, 0⟩) a (s.exportBlob n)
    have hword := giveKxData_word (s.jobTaken ⟨a, 4, n, 0⟩) (a := a) (s.exportBlob n)
    have hsent : ∀ k : Fin 4, a = .bersan k →
        .bersanData k.val (s.exportBlob n) ∈ ((s.jobTaken ⟨a, 4, n, 0⟩).giveKxData a (s.exportBlob n)).out := by
      rintro k rfl
      exact List.mem_cons_self
    have hbefore := stands_jobTaken s ⟨a, 4, n, 0⟩
    have hjobs : (s.jobTaken ⟨a, 4, n, 0⟩).kx.jobs = s.kx.jobs.erase ⟨a, 4, n, 0⟩ := rfl
    generalize (s.jobTaken ⟨a, 4, n, 0⟩).giveKxData a (s.exportBlob n) = u at hrun hgive hkx hword hsent
    have hstands := hbefore.trans (hgive.trans (stands_kxResult u a n 0))
    obtain ⟨htold, hreply⟩ := kxResult_told u a (code := 0) hn (by decide)
    rw [Nat.zero_mul, Nat.zero_add] at htold hreply
    refine ⟨_, hrun, kxResult_done a n ((hbefore.trans hgive).socUp.trans hup), hstands.cells, hstands.nodeState hn, ?_,
      fun hk => ⟨htold hk, fun w hw => ?_⟩, fun k ha => ⟨hreply k ha, out_kxResult a n 0 (hsent k ha)⟩⟩
    · rw [kxResult_kx, hkx, ← hjobs]
    · rw [data_kxResult _ _ _ _ hw, hword hk hw]
  case late =>
    intro a op n form code s hup hn hop hj hc
    have hrun := exec_kxCommandDone true hj
    have hop' : op = 2 ∨ op = 3 ∨ op = 4 := by simpa using hop
    rw [kxFinish_late true hop' ((kxCheck_jobTaken s _ a op n form).trans hc)] at hrun
    have hbefore := stands_jobTaken s ⟨a, op, n, form⟩
    have hjobs : (s.jobTaken ⟨a, op, n, form⟩).kx.jobs = s.kx.jobs.erase ⟨a, op, n, form⟩ := rfl
    generalize s.jobTaken ⟨a, op, n, form⟩ = t at hrun hbefore hjobs
    have hzero : TreeStands t (if op = 3 then t.zeroKxData a else t) ∧
        (if op = 3 then t.zeroKxData a else t).kx.jobs = t.kx.jobs := by
      split
      · exact ⟨stands_zeroKxData t a, by rw [zeroKxData_kx]⟩
      · exact ⟨.refl t, rfl⟩
    generalize (if op = 3 then t.zeroKxData a else t) = u at hrun hzero
    obtain ⟨hzeroed, hsame⟩ := hzero
    obtain ⟨hlow, hhigh⟩ := kxCheck_code hc
    obtain ⟨htold, hreply⟩ := kxResult_told u a (code := code) hn (by omega)
    exact ⟨_, hrun, kxResult_failed a n (by omega) ((hbefore.trans hzeroed).socUp.trans hup),
      (hbefore.trans (hzeroed.trans (stands_kxResult u a n code))).cells, by rw [kxResult_kx, hsame, hjobs], htold, hreply⟩
  case unblown =>
    intro a dest s hup hj
    have hrun := exec_kxCommandDone false hj
    rw [(kxFinish_advance _ _ _).2] at hrun
    have hadvanced : { s.jobTaken ⟨a, 7, 0, dest⟩ with kx.advanced := false }.kx.advanced = false := rfl
    have hnv : { s.jobTaken ⟨a, 7, 0, dest⟩ with kx.advanced := false }.nv = s.nv := rfl
    have hpw : { s.jobTaken ⟨a, 7, 0, dest⟩ with kx.advanced := false }.pw = s.pw := rfl
    generalize ({ s.jobTaken ⟨a, 7, 0, dest⟩ with kx.advanced := false } : State) = u at hrun hadvanced hnv hpw
    obtain ⟨htold, -⟩ := kxResult_told u a (n := 0) (code := 0x0D) (by decide) (by decide)
    exact ⟨_, hrun, ((kxResult_moves u a 0 0x0D).1 .nv (by decide)).trans hnv, by rw [kxResult_kx, hadvanced],
      kxResult_failed a 0 (by decide) ((socUp_congr hpw).trans hup), htold⟩
  case idle =>
    intro ok s hj
    show execKxCommandDone ok s = _
    rw [execKxCommandDone, takeJob, hj]

end Sys2Proof.Machine
end
